-- ==== Sys2Proof/Word.lean ====
section
/-! DEFINITION. The word types of the LNX-4256: registers are 32 bits wide and little-endian (R10). -/

namespace Sys2Proof

/-- A register (R10). -/
abbrev Word := BitVec 32

/-- One byte of memory. -/
abbrev Byte := BitVec 8

/-- A 64-bit payload or register pair. -/
abbrev Dword := BitVec 64

/-- A 48-bit physical address (R41). -/
abbrev Addr := BitVec 48

end Sys2Proof
end

