-- ==== Sys2Proof/Syntax.lean ====
section
/-! DEFINITION. The commands of the LNX-4256: one constructor of `Instr` per row of the table of
operations and events, with the values that come with the row from outside the block. The docstrings
name the row and the rule that governs it. -/

namespace Sys2Proof

/-- Who issues an access (R41, R811). `page p` is a block acting through its own page. -/
inductive Initiator where
  | host
  | secCore
  | jtag
  | sv (n : Fin 8)
  | lc (n : Fin 128)
  | page (p : Fin 1024)
  deriving DecidableEq, Repr

/-- One access: its initiator, and whether it travels the maintenance ring (R73's paths, R585). -/
structure Acc where
  who : Initiator
  viaRing : Bool
  deriving DecidableEq, Repr

/-- The token of R99. -/
structure Token where
  template : BitVec 16
  inst : BitVec 16
  port : BitVec 2
  kind : BitVec 2
  flags : BitVec 8
  rsvd : BitVec 20
  payload : BitVec 64
  deriving DecidableEq, Repr

/-- The fire record of R111; its reserved fields are 0 and are not held. -/
structure FireRec where
  template : BitVec 16
  inst : BitVec 16
  opcode : BitVec 16
  arrived : BitVec 4
  errin : BitVec 4
  first : BitVec 2
  urg : BitVec 2
  race : Bool
  p0 : BitVec 64
  p1 : BitVec 64
  p2 : BitVec 64
  p3 : BitVec 64
  pool : BitVec 4
  member : BitVec 8
  issueNs : BitVec 32
  deriving DecidableEq, Repr

/-- What a checker finds in a stored word: nothing, a correctable error, an uncorrectable one. -/
inductive Mark where
  | clean
  | ce
  | ue
  deriving DecidableEq, Repr

/-- A physical upset that struck memory before a command: where, and what it left. -/
structure Upset where
  addr : Nat
  mark : Mark
  deriving DecidableEq, Repr

/-- What the checks find in a flit on its way (R568–R571): on the link into its first router; corrected by ROOT, by the last
router, or by the leaf port (0, 1, 2); uncorrectable on the link to the leaf port; struck in a router's buffer.
[DESIGN CHOICE, log 151] -/
inductive Flit where
  | good
  | corrected
  | badHeader
  | badPayload
  | farCorrected (k : Fin 3)
  | farHeader
  | farPayload
  | struck
  deriving DecidableEq, Repr

/-- A token at the dispatcher's ingress, with its class and the state of the store word it meets (R146, R147). -/
structure TokIn where
  tok : Token
  cls : Fin 4
  store : Mark
  deriving DecidableEq, Repr

/-- A read: a request of an outside initiator, or one that a unit has issued and the fabric tracks. -/
inductive RdReq where
  | fresh (a : Acc) (addr : Addr) (len : Nat)
  | queued (id : Nat)
  deriving DecidableEq, Repr

/-- A write, likewise; `be` is the byte enables of R558. -/
inductive WrReq where
  | fresh (a : Acc) (addr : Addr) (data : List Byte) (be : BitVec 64)
  | queued (id : Nat)
  deriving DecidableEq, Repr

/-- A master of the maintenance ring (R585). -/
inductive RingMaster where
  | secCore
  | jtag
  | pcie
  | bridge
  deriving DecidableEq, Repr

/-- What an access of the maintenance ring names: word `r` of a page, or word `w` of the data memory and then the
instruction memory of a physical core (R44). -/
inductive RingTarget where
  | page (p r : Fin 1024)
  | core (c : Fin 144) (w : Fin 163840)
  deriving DecidableEq, Repr

/-- A link of the tree: one end of a physical link of a ROOT bundle, or a leaf link (R553). -/
inductive LinkEnd where
  | bundle (i : Fin 6) (atRoot : Bool) (link : Fin 5)
  | leaf (lp : Fin 48)
  deriving DecidableEq, Repr

/-- The entry condition of a power request (R771): PD_REQ and GRP_REQ bits [5:4]. -/
abbrev EntryCond := BitVec 2

/-- The link parameters that a received ILAS carries (R161, R166): L, M, F, S, K, SCR, N, N′, CS and HD. -/
structure Ilas where
  l : Nat
  m : Nat
  f : Nat
  s : Nat
  k : Nat
  scr : Bool
  n : Nat
  np : Nat
  cs : Nat
  hd : Bool
  deriving DecidableEq, Repr

/-- What ramps in a DFE: a PA group, or the carrier channels of a slot (R200, R211). -/
inductive RampOf where
  | group (g : Fin 16)
  | slot (s : Fin 16)
  deriving DecidableEq, Repr

/-- A timed output of a DFE (R202). -/
inductive PaOut where
  | pa (g : Fin 16)
  | tdd (t : Fin 4)
  deriving DecidableEq, Repr

/-- How an Erdom instruction is issued: the physical core (0–143) or supervisor core (144 + s), its slot, whether it
is the last instruction of its bundle, the NOP bundles and the stall cycles before that bundle, whether a register
read finds a parity error (R466), and a cache line that an uncorrectable error has struck (R464, R465). -/
structure Issue where
  core : Fin 152
  slot : Fin 4
  last : Bool
  nops : Nat
  stall : Nat
  parity : Bool
  strike : Option Addr
  deriving DecidableEq, Repr

/-- Bits [25:0] of a slot word; the major opcode is the command's. -/
abbrev Word26 := BitVec 26

/-- Bits [19:0] of a SYS word; FUNC is the command's. -/
abbrev Word20 := BitVec 20

/-- The receiver's settings at the end of a measurement window (R671, R672): CTLE, AGC, the five DFE taps. -/
structure RxEq where
  ctle : BitVec 4
  agc : BitVec 8
  dfe : Vector (BitVec 8) 5
  deriving DecidableEq, Repr

/-- What the monitor of a lane has seen in a measurement window besides the eye: whether a signal is there, and the bit errors
that the PRBS checker has counted (R699, R700). -/
structure LaneMeas where
  sig : Bool
  errs : Nat
  deriving DecidableEq, Repr

/-- The equalisation fields of a PCIe training ordered set (R681): phase, preset, coefficients; in phase 1 the first two
coefficient fields are FS and LF. -/
structure EqTs where
  ec : Fin 4
  usePreset : Bool
  preset : BitVec 4
  pre : BitVec 6
  cursor : BitVec 6
  post : BitVec 6
  reject : Bool
  deriving DecidableEq, Repr

/-- What a training control word is: that of the Cuwick link (R677), or a PCIe ordered set (R681). -/
inductive TrainWord where
  | control (w : BitVec 64)
  | eq (m : EqTs)
  deriving DecidableEq, Repr

/-- What the Cuwick handshake learns of the peer (bring-up step 1): part, revision, the code of its highest rate
(none: no common rate), its receive buffers for TC 1–4. -/
structure CuwPeer where
  part : BitVec 16
  rev : BitVec 8
  rate : Option (Fin 3)
  bufs : Vector (BitVec 8) 4
  deriving DecidableEq, Repr

/-- What the hardware does to a register in the very cycle of an access to it (R13, R14, R65, R887): the bits that it sets,
whether it increments, and the error that it captures (class, code, page of the unit at fault, address). -/
structure Coincide where
  sets : Word
  inc : Bool
  err : Option (Nat × Nat × Nat × Option Nat)
  deriving DecidableEq, Repr

/-- The word that a write carries, and what the hardware does in its cycle (R13, R65). -/
structure WriteVal where
  v : Word
  hw : Coincide
  deriving DecidableEq, Repr

/-- The register that a read names (word index), and what the hardware does in its cycle (R14). -/
structure ReadReg where
  r : Fin 1024
  hw : Coincide
  deriving DecidableEq, Repr

/-- A response on its way: the request that it answers, and what the checks find. -/
structure RespFlit where
  id : Nat
  flit : Flit
  deriving DecidableEq, Repr

/-- A source of the event controller, and what the read of its tables finds (R823). -/
structure SourceRead where
  n : Fin 2048
  tbl : Mark
  deriving DecidableEq, Repr

/-- A page that reports, and what the read of the window's entry finds (R823). -/
structure ReportRead where
  p : Fin 512
  tbl : Mark
  deriving DecidableEq, Repr

/-- What a receiver has found at the end of a window: its settings, and what it measured. -/
structure RxWindow where
  eq : RxEq
  m : LaneMeas
  deriving DecidableEq, Repr

/-- A port that comes free, and whether a frame reaches the traffic manager in the same cycle (R732). -/
structure PortEnd where
  p : Fin 32
  enq : Bool
  deriving DecidableEq, Repr

/-- The commands: one constructor per row of the table of operations and events. -/
inductive Instr where
  /-- REG_WRITE (R12, R13, R65): a write of register `r` (word index) of page `p`. -/
  | regWrite (a : Acc) (p : Fin 1024) (r : Fin 1024) (w : WriteVal)
  /-- RC_READ (R14). -/
  | rcRead (a : Acc) (p : Fin 1024) (r : ReadReg)
  /-- LO_READ (R73). -/
  | loRead (a : Acc) (p : Fin 1024) (r : Fin 1024)
  /-- LO_WRITE (R77). -/
  | loWrite (a : Acc) (p : Fin 1024) (r : Fin 1024) (v : Word)
  /-- HI_WRITE (R77). -/
  | hiWrite (a : Acc) (p : Fin 1024) (r : Fin 1024) (v : Word)
  /-- CTRL_ENABLE_SET (R57). -/
  | ctrlEnableSet (a : Acc) (p : Fin 512)
  /-- CTRL_ENABLE_CLEAR (R55). -/
  | ctrlEnableClear (a : Acc) (p : Fin 512)
  /-- SOFT_RESET (R58). -/
  | softReset (a : Acc) (p : Fin 512)
  /-- SOFT_RESET_DONE (R885). -/
  | softResetDone (p : Fin 512)
  /-- CE_LEAK (R69): the next microsecond tick reaches every page. -/
  | ceLeak
  /-- SNAPSHOT_COPY (R86). -/
  | snapshotCopy
  /-- SNAP_SEQ_UPDATE (R88). -/
  | snapSeqUpdate
  /-- DISP_TEMPLATE_LOAD_DONE (R94). `timedOut`: a template read ended by timeout. -/
  | dispTemplateLoadDone (timedOut : Option (BitVec 16))
  /-- DISP_TOKEN (R101): the tokens that reach the matching logic in one cycle (R105, R110). -/
  | dispToken (ts : List TokIn)
  /-- INGRESS_UNSTALL (R124). -/
  | ingressUnstall (u : Fin 4)
  /-- COMPLETION_TOKEN (R97). -/
  | completionToken (t : Token) (cls : Fin 4)
  /-- TEMPLATE_FETCH_DONE (R95). -/
  | templateFetchDone (t : BitVec 16) (timedOut : Bool)
  /-- FIRE_ISSUE (R112): the dispatcher issues for one pool. -/
  | fireIssue (pool : Fin 16)
  /-- AGE_PROMOTION (R116): of the operation (template, instance). -/
  | agePromotion (t : BitVec 16) (inst : BitVec 16)
  /-- OPEN (R120): OPEN_CMD = 1 written to open port `n`. -/
  | openInst (a : Acc) (n : Fin 9)
  /-- CLOSE (R122): OPEN_CMD = 2. -/
  | closeInst (a : Acc) (n : Fin 9)
  /-- FORCE (R126): OPEN_CMD = 3. -/
  | forceInst (a : Acc) (n : Fin 9)
  /-- VOTER_MINORITY (R144): replica `r` disagrees. -/
  | voterMinority (r : Fin 3)
  /-- MINORITY_RELOAD_DONE (R144). -/
  | minorityReloadDone
  /-- NO_MAJORITY (R145). -/
  | noMajority
  /-- POST_FIRE_RECORD (R152): word 15 written to class `u` of posting port `n`. -/
  | postFireRecord (a : Acc) (n : Fin 8) (u : Fin 4) (v : Word)
  /-- SYSREF_ARM (R172): SYSREF_CFG of quad `q` written with ARM set. -/
  | sysrefArm (a : Acc) (q : Fin 32) (v : Word)
  /-- LANE_SYNC_ACQUIRED (R165). -/
  | laneSyncAcquired (q : Fin 32) (l : Fin 4)
  /-- ILAS_RECEIVED (R166): in 204C the extended multiblock is found, and `ilas` is none. -/
  | ilasReceived (q : Fin 32) (ilas : Option Ilas)
  /-- SYSREF_EDGE (R172): on group `k`, at the present lane sample of the group, or at the next one where it comes `late`. -/
  | sysrefEdge (k : Fin 4) (late : Bool)
  /-- MULTIBLOCK_RECEIVED (R176): on a lane: header checks, CRC-12, cycles before release at which it came. -/
  | multiblockReceived (q : Fin 32) (l : Fin 4) (headOk crcOk : Bool) (octets : List Byte)
  /-- LANE_DOWN (R175). -/
  | laneDown (q : Fin 32) (l : Fin 4)
  /-- LANE_RECOVER (R177). -/
  | laneRecover (q : Fin 32) (l : Fin 4)
  /-- JSYNC_LOW (R178): for `frames` frames. -/
  | jsyncLow (q : Fin 32) (frames : Nat)
  /-- REALIGN (R174): LINK_CMD of quad `q`. -/
  | realign (a : Acc) (q : Fin 32) (v : Word)
  /-- SUB_ARM (R686): SUB_CMD = ARM of spare lane `j`. -/
  | subArm (a : Acc) (j : Fin 4)
  /-- SUB_READY (R688). -/
  | subReady (j : Fin 4)
  /-- SUB_FAIL (R181). -/
  | subFail (j : Fin 4)
  /-- SUB_SWAP (R687): SUB_CMD = SWAP. -/
  | subSwap (a : Acc) (j : Fin 4)
  /-- SUB_SWAP_EXECUTE (R179): at the next lane-alignment boundary. -/
  | subSwapExecute (j : Fin 4)
  /-- SUB_RELEASE (R182): SUB_CMD = RELEASE. -/
  | subRelease (a : Acc) (j : Fin 4)
  /-- TX_ON (R204). -/
  | txOn (f : FireRec)
  /-- TX_OFF (R207). -/
  | txOff (f : FireRec)
  /-- CARRIER_ON (R211). -/
  | carrierOn (f : FireRec)
  /-- CARRIER_OFF (R211). -/
  | carrierOff (f : FireRec)
  /-- CHAIN_COMMIT (R214). -/
  | chainCommit (f : FireRec)
  /-- RAMP_START (R201). -/
  | rampStart (k : Fin 4) (r : RampOf)
  /-- RAMP_END (R205). -/
  | rampEnd (k : Fin 4) (r : RampOf)
  /-- PA_CTRL_ASSERT (R202). -/
  | paCtrlAssert (k : Fin 4) (o : PaOut)
  /-- PA_CTRL_DEASSERT (R202). -/
  | paCtrlDeassert (k : Fin 4) (o : PaOut)
  /-- COMMIT_AT (R213): CHAIN_CMD = 1. -/
  | commitAt (a : Acc) (k : Fin 4)
  /-- COMMIT_NOW (R213): CHAIN_CMD = 2. -/
  | commitNow (a : Acc) (k : Fin 4)
  /-- DISCARD (R213): CHAIN_CMD = 3. -/
  | discard (a : Acc) (k : Fin 4)
  /-- CHAIN_COMMIT_APPLY (R214): of chain `c`. -/
  | chainCommitApply (k : Fin 4) (c : Fin 132)
  /-- COEF_DATA_WRITE (R193). -/
  | coefDataWrite (a : Acc) (k : Fin 4) (v : Word)
  /-- MIRROR_SWITCH (R218): mirror chain 128 + `m`, at the next lane-alignment boundary. -/
  | mirrorSwitch (k : Fin 4) (m : Fin 4)
  /-- FFT_RX (R237). -/
  | fftRx (f : FireRec)
  /-- IFFT_TX (R237). -/
  | ifftTx (f : FireRec)
  /-- CE (R252). -/
  | ce (f : FireRec)
  /-- EQ (R261). -/
  | eq (f : FireRec)
  /-- NF (R269). -/
  | nf (f : FireRec)
  /-- PRACH (R273). -/
  | prach (f : FireRec)
  /-- TX_MAP (R266). -/
  | txMap (f : FireRec)
  /-- OFDM_OP_DONE (R238): the operation in place `i` of block `k`. -/
  | ofdmOpDone (k : Fin 4) (i : Nat)
  /-- PEER_MISSING (R250): for symbol `sym` of the operation in place `i`. -/
  | peerMissing (k : Fin 4) (i : Nat) (sym : Fin 14)
  /-- CARR_ENABLE (R228): CARR_CTRL written with EN set. -/
  | carrEnable (a : Acc) (k : Fin 4) (v : Word)
  /-- SMOOTH_DATA_WRITE (R281). -/
  | smoothDataWrite (a : Acc) (k : Fin 4) (v : Word)
  /-- LDPC_DEC (R284). -/
  | ldpcDec (f : FireRec)
  /-- LDPC_ENC (R311). -/
  | ldpcEnc (f : FireRec)
  /-- TURBO_DEC (R306). -/
  | turboDec (f : FireRec)
  /-- TURBO_ENC (R311). -/
  | turboEnc (f : FireRec)
  /-- POLAR_DEC (R308). -/
  | polarDec (f : FireRec)
  /-- POLAR_ENC (R307). -/
  | polarEnc (f : FireRec)
  /-- WORK_UNIT_START (R286): block `k` starts its next unit on an engine of class `c`: LDPC, turbo, polar, encoder. -/
  | workUnitStart (k : Fin 4) (c : Fin 4)
  /-- WORK_UNIT_DONE (R287): of engine `e`; `fault` if its internal check failed (R328). -/
  | workUnitDone (k : Fin 4) (e : Fin 25) (fault : Bool)
  /-- TAP_SET_WRITE (R334): _LO or _HI of selection set `i` of tap `k`. -/
  | tapSetWrite (a : Acc) (k i : Fin 4) (hi : Bool) (v : Word)
  /-- FRAME_END (R345): of tap `k`; `bad` is whether an uncorrectable error strikes channel `j` (R350). -/
  | frameEnd (k : Fin 4) (bad : Bool) (j : Fin 32)
  /-- INTEGRATION_END (R346): of tap `k`; `ue` is an entering stream whose state cannot be read (R342). -/
  | integrationEnd (k : Fin 4) (ue : Option (Fin 64))
  /-- TAP_CFG_WRITE (R378). -/
  | tapCfgWrite (a : Acc) (k : Fin 4) (v : Word)
  /-- MAXH_CLR (R348). -/
  | maxhClr (a : Acc) (k : Fin 4) (v : Word)
  /-- DET_ENABLE (R355): DET_CTRL of detector `d` written with EN set. -/
  | detEnable (a : Acc) (d : Fin 64) (v : Word)
  /-- DETECTION (R360): the detections of one cycle (R368); `ues` are the detectors whose store an uncorrectable error strikes
  (R372). -/
  | detection (ues : List (Fin 64))
  /-- CONF_WINDOW_END (R366): of detector `d`; `ue` is whether an uncorrectable error strikes its store (R372). -/
  | confWindowEnd (d : Fin 64) (ue : Bool)
  /-- CAPTURE_COMPLETE (R371). -/
  | captureComplete (d : Fin 64)
  /-- BUF_RELEASE (R365). -/
  | bufRelease (a : Acc) (v : Word)
  /-- IDLE_WIN (R376). -/
  | idleWin (f : FireRec)
  /-- IDLE_WIN_END (R375): of the command in place `i`. -/
  | idleWinEnd (i : Nat)
  /-- FORCE_CAPTURE (R377). -/
  | forceCapture (f : FireRec)
  /-- SPEC_CLOSE (R376). -/
  | specClose (f : FireRec)
  /-- HA_CHUNK (R380): of the stream of quad `q` and slot `sl` on tap `k`. -/
  | haChunk (k : Fin 4) (q : Fin 8) (sl : Fin 8)
  /-- CAL_START (R384): CAL_CMD of engine `m` of DFE `k`. -/
  | calStart (a : Acc) (k m : Fin 4)
  /-- CAL_ABORT (R389). -/
  | calAbort (a : Acc) (k m : Fin 4)
  /-- CAL_RECORD_DONE (R388). -/
  | calRecordDone (k m : Fin 4)
  /-- CORE_MAP_WRITE (R412): of cluster `c`. -/
  | coreMapWrite (a : Acc) (c : Fin 16) (v : Word)
  /-- SPARE_COPY (R413): SPARE_CMD of cluster `c`. -/
  | spareCopy (a : Acc) (c : Fin 16) (v : Word)
  /-- SPARE_COPY_DONE (R413). -/
  | spareCopyDone (c : Fin 16)
  /-- ALU (R425). -/
  | alu (i : Issue) (w : Word26)
  /-- ALU_IMMEDIATE (R425). -/
  | aluImmediate (i : Issue) (w : Word26)
  /-- MULTIPLY (R428). -/
  | multiply (i : Issue) (w : Word26)
  /-- SCALAR_LOAD (R434). -/
  | scalarLoad (i : Issue) (w : Word26)
  /-- SCALAR_STORE (R434). -/
  | scalarStore (i : Issue) (w : Word26)
  /-- ADDRESS_ARITHMETIC (R425). -/
  | addressArithmetic (i : Issue) (w : Word26)
  /-- LOAD_UPPER_IMMEDIATE (R425). -/
  | loadUpperImmediate (i : Issue) (w : Word26)
  /-- CONDITIONAL_BRANCH (R431). -/
  | conditionalBranch (i : Issue) (w : Word26)
  /-- JUMP (R428). -/
  | jump (i : Issue) (w : Word26)
  /-- TSEND (R448). -/
  | tsend (i : Issue) (w : Word20)
  /-- TDONE (R453). -/
  | tdone (i : Issue) (w : Word20)
  /-- FWAIT (R452). -/
  | fwait (i : Issue) (w : Word20)
  /-- FLUSH (R443). -/
  | flush (i : Issue) (w : Word20)
  /-- INVAL (R443). -/
  | inval (i : Issue) (w : Word20)
  /-- FLINV (R443). -/
  | flinv (i : Issue) (w : Word20)
  /-- FENCE (R444). -/
  | fence (i : Issue) (w : Word20)
  /-- ISYNC (R446). -/
  | isync (i : Issue) (w : Word20)
  /-- MFC (R456). -/
  | mfc (i : Issue) (w : Word20)
  /-- MTC (R456). -/
  | mtc (i : Issue) (w : Word20)
  /-- RTI (R459). -/
  | rti (i : Issue) (w : Word20)
  /-- ISAVE (R471). -/
  | isave (i : Issue) (w : Word20)
  /-- IRESTORE (R471). -/
  | irestore (i : Issue) (w : Word20)
  /-- TRAP (R458). -/
  | trap (i : Issue) (w : Word20)
  /-- WAIT (R447). -/
  | wait (i : Issue) (w : Word20)
  /-- INTERRUPT_ENTRY (R469): line `n` of a core. -/
  | interruptEntry (c : Fin 152) (n : Fin 32)
  /-- ASYNC_WERR (R445). -/
  | asyncWerr (c : Fin 152)
  /-- FIRE_RECORD_ARRIVAL (R451). -/
  | fireRecordArrival (c : Fin 152) (f : FireRec)
  /-- DBG_HALT_REQ (R477): DBG_CTL written with HALT_REQ set. -/
  | dbgHaltReq (a : Acc) (c : Fin 152)
  /-- DBG_STEP (R477): DBG_CTL written with STEP set. -/
  | dbgStep (a : Acc) (c : Fin 152)
  /-- VLD (R500). -/
  | vld (i : Issue) (w : Word26)
  /-- VST (R500). -/
  | vst (i : Issue) (w : Word26)
  /-- VGATHER (R505). -/
  | vgather (i : Issue) (w : Word26)
  /-- VSCATTER (R505). -/
  | vscatter (i : Issue) (w : Word26)
  /-- VXFER (R503). -/
  | vxfer (i : Issue) (w : Word26)
  /-- VALU (R488). -/
  | valu (i : Issue) (w : Word26)
  /-- VALU_SCALAR (R488). -/
  | valuScalar (i : Issue) (w : Word26)
  /-- VMAC (R497). -/
  | vmac (i : Issue) (w : Word26)
  /-- VRND (R498). -/
  | vrnd (i : Issue) (w : Word26)
  /-- VPERM (R490). -/
  | vperm (i : Issue) (w : Word26)
  /-- VCMP (R492). -/
  | vcmp (i : Issue) (w : Word26)
  /-- VPRED (R493). -/
  | vpred (i : Issue) (w : Word26)
  /-- VFP (R489). -/
  | vfp (i : Issue) (w : Word26)
  /-- VRED (R491). -/
  | vred (i : Issue) (w : Word26)
  /-- FTAP (R473). -/
  | ftap (i : Issue) (w : Word26)
  /-- MXOP (R534). -/
  | mxop (i : Issue) (w : Word26)
  /-- MXSB (R518). -/
  | mxsb (i : Issue) (w : Word26)
  /-- MXSTAT (R518). -/
  | mxstat (i : Issue) (w : Word26)
  /-- MXSAVE (R522). -/
  | mxsave (i : Issue) (w : Word26)
  /-- MXRST (R522). -/
  | mxrst (i : Issue) (w : Word26)
  /-- MXCANCEL (R523). -/
  | mxcancel (i : Issue) (w : Word26)
  /-- BUNDLE_COMMIT (R537): of the bundle in which context `k` of MXC `m` issued an MXOP. -/
  | bundleCommit (m : Fin 16) (k : Fin 8)
  /-- BUNDLE_SQUASH (R537). -/
  | bundleSquash (m : Fin 16) (k : Fin 8)
  /-- SUBTILE_BOUNDARY (R517). -/
  | subtileBoundary (m : Fin 16)
  /-- MXC_OP_DONE (R532): the running operation of MXC `m` ends; `parity` if its internal parity fails (R546). -/
  | mxcOpDone (m : Fin 16) (parity : Bool)
  /-- MXC_FIRE (R541). -/
  | mxcFire (f : FireRec)
  /-- CTX_CANCEL (R548). -/
  | ctxCancel (a : Acc) (m : Fin 16) (v : Word)
  /-- RD (R554). -/
  | rd (q : RdReq) (upset : Option Upset) (flit : Flit)
  /-- WR (R554). -/
  | wr (q : WrReq) (upset : Option Upset) (flit : Flit)
  /-- RDRESP (R566): the response of a request reaches its source port. -/
  | rdresp (x : RespFlit)
  /-- WRRESP (R615). -/
  | wrresp (x : RespFlit)
  /-- TOKEN_PACKET (R561): the oldest token of a class in flight from a leaf port reaches LP43. -/
  | tokenPacket (lp : Fin 48) (cls : Fin 4) (flit : Flit)
  /-- FIRE_PACKET (R561): the oldest fire record in flight to a leaf port reaches it. -/
  | firePacket (lp : Fin 48) (cls0 : Bool) (flit : Flit)
  /-- STREAM (R563): slot `slot` of output `out` of router `r`, with a TC 0 flit from `input` if `filled`. -/
  | stream (r : Fin 7) (out : Fin 24) (slot : BitVec 8) (input : BitVec 6) (filled : Bool) (flit : Flit)
  /-- REQUEST_TIMEOUT (R566). -/
  | requestTimeout (id : Nat)
  /-- LINK_DOWN (R580). -/
  | linkDown (l : LinkEnd)
  /-- SPARE_REMAP (R581): of bundle `i`. -/
  | spareRemap (i : Fin 6)
  /-- LINK_REROUTE (R583): of bundle `i`. -/
  | linkReroute (i : Fin 6)
  /-- TBL_COPY (R576): TBL_CMD written to router `r`. -/
  | tblCopy (a : Acc) (r : Fin 7) (v : Word)
  /-- TBL_DATA_WRITE (R575). -/
  | tblDataWrite (a : Acc) (r : Fin 7) (v : Word)
  /-- FLIP_CMD (R577). -/
  | flipCmd (a : Acc) (v : Word)
  /-- EPOCH_FLIP (R576). -/
  | epochFlip
  /-- EPOCH_DRAINED (R578). -/
  | epochDrained
  /-- RING_ACCESS (R585): a read, or with `wr` a write of `v`; `crcOk` is the frame's check at the station (R588). -/
  | ringAccess (m : RingMaster) (t : RingTarget) (wr : Bool) (v : Word) (crcOk : Bool)
  /-- RING_SEGMENT_BREAK (R587): the segment upstream of station `st` breaks. -/
  | ringSegmentBreak (st : Fin 64)
  /-- RING_ACCESS_TIMEOUT (R588): of the oldest access of a master. -/
  | ringAccessTimeout (m : RingMaster)
  /-- LT_CTRL_WRITE (R591): LT_CTRL(n) of router `r`. -/
  | ltCtrlWrite (a : Acc) (r : Fin 7) (n : Fin 8) (v : Word)
  /-- LANTERN_START (R590). -/
  | lanternStart (r : Fin 7) (n : Fin 8)
  /-- KICK (R600): CH_CMD of channel `c`, numbered 128 × engine + channel. -/
  | kick (a : Acc) (c : Fin 1024)
  /-- ABORT (R620): CH_CMD. -/
  | abort (a : Acc) (c : Fin 1024)
  /-- CLEAR (R619): CH_CMD. -/
  | clear (a : Acc) (c : Fin 1024)
  /-- DMA_FIRE (R603). -/
  | dmaFire (f : FireRec)
  /-- HALT_COMPLETE (R617): nothing of channel `c` is outstanding any more. -/
  | haltComplete (c : Fin 1024)
  /-- ARRAY_SCRUB (R628): word `w` of array `arr` of page `p`. -/
  | arrayScrub (p : Fin 512) (arr : BitVec 8) (w : Fin 16384) (upset : Option Upset)
  /-- REPAIR (R632): RR_CMD written. -/
  | repair (a : Acc) (v : Word)
  /-- RR_DONE (R632). -/
  | rrDone
  /-- BANK_PWR_WRITE (R631): BANK_PWR_LO or _HI of half `h`. -/
  | bankPwrWrite (a : Acc) (h : Fin 2) (hi : Bool) (v : Word)
  /-- DRAM_ENABLE (R638). -/
  | dramEnable (a : Acc)
  /-- DRAM_INIT_DONE (R638): `failed` names a channel and its failing step (R639). -/
  | dramInitDone (failed : Option (Fin 16 × BitVec 4))
  /-- FREQ_CHANGE (R649). -/
  | freqChange (f : FireRec)
  /-- FC_GO (R654): FC_CMD written. -/
  | fcGo (a : Acc) (v : Word)
  /-- FC_DONE (R651): the stall lasted `ns`. -/
  | fcDone (ns : Nat)
  /-- FC_FAIL (R653). -/
  | fcFail (ns : Nat)
  /-- DRAM_REFRESH (R648): of channel `ch`; `traffic` is whether requests wait. -/
  | dramRefresh (ch : Fin 16) (traffic : Bool)
  /-- MR4_POLL (R648): channel `ch` reads code `code`. -/
  | mr4Poll (ch : Fin 16) (code : BitVec 8)
  /-- DRAM_SCRUB (R658): the scrubber reads its next block. -/
  | dramScrub (upset : Option Upset)
  /-- TX_TAPS_WRITE (R667): TX_TAPS of lane `l` of lane page `p`. -/
  | txTapsWrite (a : Acc) (p : Fin 512) (l : Fin 4) (v : Word)
  /-- CDR_UNLOCK (R670). -/
  | cdrUnlock (p : Fin 512) (l : Fin 4)
  /-- CDR_LOCK (R670). -/
  | cdrLock (p : Fin 512) (l : Fin 4)
  /-- FOM_WINDOW_END (R672): eye width and height in parts of 2¹⁶, the receiver's settings, and what the monitor saw. -/
  | fomWindowEnd (p : Fin 512) (l : Fin 4) (h v : Fin 65537) (x : RxWindow)
  /-- PSTATE_REQUEST (R683): LN_CTRL written. -/
  | pstateRequest (a : Acc) (p : Fin 512) (l : Fin 4) (v : Word)
  /-- PSTATE_DONE (R683). -/
  | pstateDone (p : Fin 512) (l : Fin 4)
  /-- CONTROL_WORD (R678, R681): received by lane `l` of page 0x130 + `q`: PCIe for `q` < 4, else Cuwick. -/
  | controlWord (q : Fin 8) (l : Fin 4) (w : TrainWord)
  /-- TRAIN_DONE (R680): of lane `l` of page 0x130 + `q`. -/
  | trainDone (q : Fin 8) (l : Fin 4)
  /-- RETRAIN (R690): CUW_CMD.RETRAIN. -/
  | retrain (a : Acc)
  /-- HANDSHAKE (R690). -/
  | handshake (peer : CuwPeer)
  /-- LINK_UP (R690): `txPass` are the lanes that the peer's receivers passed. -/
  | linkUp (txPass : BitVec 16)
  /-- CUWICK_FRAME (R693): the 144 bytes of a received frame. -/
  | cuwickFrame (bytes : List Byte)
  /-- RECOVERY (R697). -/
  | recovery
  /-- RECOVERY_DONE (R697). -/
  | recoveryDone (ok : Bool)
  /-- AUTO_RETRY (R698). -/
  | autoRetry
  /-- FRAME_RECEIVE (R707): on port `p`, without its FCS; `fcsOk` is the check of the FCS. -/
  | frameReceive (p : Fin 32) (bytes : List Byte) (fcsOk : Bool)
  /-- FLOW_LOAD (R706): FLOW_CMD. -/
  | flowLoad (a : Acc) (v : Word)
  /-- WIN_CLOSE (R715): of fronthaul context `f`, symbol `n` counted from the epoch of device time. -/
  | winClose (f : Fin 512) (n : Nat)
  /-- U_SEND (R718): the next symbol of the job that ring `j` is at. -/
  | uSend (j : Fin 8)
  /-- C_SEND (R717). -/
  | cSend (j : Fin 8)
  /-- FRAME (R757). -/
  | frame (j : Fin 8)
  /-- JOB_DONE (R720): of the job in place `i`. -/
  | jobDone (i : Nat)
  /-- PARAM_REQUEST (R721): for PHY instance `phy`, over the PCIe work rings or the network ports. -/
  | paramRequest (phy : BitVec 8) (pcie : Bool)
  /-- CONFIG_REQUEST (R721). -/
  | configRequest (phy : BitVec 8) (pcie : Bool)
  /-- START_REQUEST (R721). -/
  | startRequest (phy : BitVec 8) (pcie : Bool)
  /-- STOP_REQUEST (R721): `offNs` ns from now, the last slot already granted ends. -/
  | stopRequest (phy : BitVec 8) (pcie : Bool) (offNs : Nat)
  /-- DL_TTI_REQUEST (R722): for the slot that starts at `start`, in ns of device time. -/
  | dlTtiRequest (phy : BitVec 8) (pcie : Bool) (start : Int)
  /-- UL_TTI_REQUEST (R722). -/
  | ulTtiRequest (phy : BitVec 8) (pcie : Bool) (start : Int)
  /-- UL_DCI_REQUEST (R722). -/
  | ulDciRequest (phy : BitVec 8) (pcie : Bool) (start : Int)
  /-- TX_DATA_REQUEST (R722). -/
  | txDataRequest (phy : BitVec 8) (pcie : Bool) (start : Int)
  /-- LNX_STOP_REQUEST (R721). -/
  | lnxStopRequest (phy : BitVec 8) (pcie : Bool) (offNs : Nat)
  /-- LNX_STATS_REQUEST (R721). -/
  | lnxStatsRequest (phy : BitVec 8) (pcie : Bool)
  /-- SLOT_INDICATION (R722). -/
  | slotIndication (phy : BitVec 8) (start : Int)
  /-- STOP_TIMEOUT (R849). -/
  | stopTimeout (phy : BitVec 8)
  /-- H2D_TAIL_WRITE (R725): of host work ring `n`. -/
  | h2dTailWrite (a : Acc) (n : Fin 8) (v : Word)
  /-- HOST_FIRE (R726). -/
  | hostFire (f : FireRec)
  /-- TOKEN_IN (R727): TOKEN_IN3 written. -/
  | tokenIn (a : Acc) (v : Word)
  /-- TOKEN_DONE (R727): TOKEN_DONE3 written. -/
  | tokenDone (a : Acc) (v : Word)
  /-- TM_ENQUEUE (R732): the oldest frame that has reached the traffic manager. -/
  | tmEnqueue
  /-- PORT_FREE (R730, R732). -/
  | portFree (x : PortEnd)
  /-- FRAME_ELIGIBLE (R729): the head frame of queue `q` reaches its launch time. -/
  | frameEligible (q : Fin 4096)
  /-- HA_SELECT (R734): `v` written for port `p`'s block. -/
  | haSelect (a : Acc) (v : Word)
  /-- HA_SELECT_TIMEOUT (R734). -/
  | haSelectTimeout (p : Fin 32)
  /-- DEPTH_SAMPLE (R733). -/
  | depthSample
  /-- METER_WRITE (R731): M_CIR, M_PIR or M_BURST of meter `q`. -/
  | meterWrite (a : Acc) (q : Fin 4096) (r : Fin 3) (v : Word)
  /-- PCS_LOCK_LOSS (R799). -/
  | pcsLockLoss (p : Fin 32)
  /-- PCS_LOCK_GAIN (R735). -/
  | pcsLockGain (p : Fin 32)
  /-- NOW_SEC_LO_READ (R742). -/
  | nowSecLoRead (a : Acc)
  /-- PPS_IN_SEC_READ (R760). -/
  | ppsInSecRead (a : Acc)
  /-- INCR_COMMIT (R743): INCR_HI written with `v`. -/
  | incrCommit (a : Acc) (v : Word)
  /-- ADJ_NS (R744). -/
  | adjNs (a : Acc) (v : Word)
  /-- SET_GO (R745). -/
  | setGo (a : Acc)
  /-- TCMP_ARM (R754): TC_CTRL of unit `n` written with `v`, ARM set. -/
  | tcmpArm (a : Acc) (n : Fin 64) (v : Word)
  /-- TCMP_FIRE (R748): unit `n`. -/
  | tcmpFire (n : Fin 64)
  /-- PPS_IN_EDGE (R760). -/
  | ppsInEdge (rising : Bool)
  /-- PPS_LOSS (R761). -/
  | ppsLoss
  /-- PPS_OUT_RISE (R762). -/
  | ppsOutRise
  /-- PPS_OUT_FALL (R762). -/
  | ppsOutFall
  /-- PD_REQ_ON (R771): PD_REQ(n) written with state ON. -/
  | pdReqOn (a : Acc) (n : Fin 48) (e : EntryCond)
  /-- PD_REQ_RETAIN (R771). -/
  | pdReqRetain (a : Acc) (n : Fin 48) (e : EntryCond)
  /-- PD_REQ_OFF (R771). -/
  | pdReqOff (a : Acc) (n : Fin 48) (e : EntryCond)
  /-- GRP_REQ_ON (R786). -/
  | grpReqOn (a : Acc) (g : Fin 16) (e : EntryCond)
  /-- GRP_REQ_RETAIN (R786). -/
  | grpReqRetain (a : Acc) (g : Fin 16) (e : EntryCond)
  /-- GRP_REQ_OFF (R786). -/
  | grpReqOff (a : Acc) (g : Fin 16) (e : EntryCond)
  /-- ENTRY_MET (R771): domain `n`'s entry condition is found met. -/
  | entryMet (n : Fin 48)
  /-- QUIESCE_TIMEOUT (R773). -/
  | quiesceTimeout (n : Fin 48)
  /-- TRANSITION_DONE (R776). -/
  | transitionDone (n : Fin 48)
  /-- PG_FAIL (R779). -/
  | pgFail (n : Fin 48)
  /-- WAKE (R780): the event controller's wake line reaches domain `n`. -/
  | wake (n : Fin 48)
  /-- CD_FREQ_WRITE (R794). -/
  | cdFreqWrite (a : Acc) (c : Fin 16) (v : Word)
  /-- AVS_SETTLED (R794). -/
  | avsSettled
  /-- PLL_SLEW_STEP (R794): cluster `c`. -/
  | pllSlewStep (c : Fin 16)
  /-- AVS_FAIL (R797): the pending PMBus command is not acknowledged. -/
  | avsFail
  /-- PLL_UNLOCK (R799): PLL_STS bit `pll`; `lanes` are the lanes (page, lane) of a lane PLL. -/
  | pllUnlock (pll : Fin 30) (lanes : List (Fin 512 × Fin 4))
  /-- HOLDOVER (R798): the sample PLL loses lock, or REFCLK_SMP stops if `refLost`. -/
  | holdover (refLost : Bool)
  /-- HOLDOVER_EXIT (R798). -/
  | holdoverExit
  /-- SOURCE_ASSERT (R807): an event source is seen asserted. -/
  | sourceAssert (x : SourceRead)
  /-- SOURCE_DEASSERT (R805). -/
  | sourceDeassert (n : Fin 2048)
  /-- SRC_ROUTE_WRITE (R809). -/
  | srcRouteWrite (a : Acc) (v : Word)
  /-- REPORT (R813): the report path serves a page. -/
  | report (x : ReportRead)
  /-- RPT_POP (R818). -/
  | rptPop (a : Acc) (v : Word)
  /-- FATAL (R820): condition 1–4 of FATAL_STS. -/
  | fatal (cond : Fin 5)
  /-- FATAL_RESET_DELAY (R820). -/
  | fatalResetDelay
  /-- PORESET (R825): PORESET_N low. -/
  | poreset
  /-- VDD_AON_BROWNOUT (R863). -/
  | vddAonBrownout
  /-- WRESET (R825): WRESET_N low. -/
  | wreset
  /-- RST_CMD_WARM (R825): RST_CMD written. -/
  | rstCmdWarm (a : Acc) (v : Word)
  /-- FATAL_RESET (R825): step 5 of the fatal sequence. -/
  | fatalReset
  /-- PCIE_RESET (R825). -/
  | pcieReset
  /-- WDOG_EXPIRY (R840). -/
  | wdogExpiry
  /-- WDOG_HALF (R853). -/
  | wdogHalf
  /-- WDOG_KICK (R840). -/
  | wdogKick (a : Acc) (v : Word)
  /-- RESET_RELEASE (R830): the levels of BOOT_MODE[1:0]. -/
  | resetRelease (mode : BitVec 2)
  /-- SELF_TEST_DONE (R843): the failing units; whether PD_AON logic, the dispatcher or the security core fails
  (R844); whether the fabric PLL locks (R894). -/
  | selfTestDone (failed : List (Fin 320)) (fatal pllOk : Bool)
  /-- IMAGE_SELECTED (R839). -/
  | imageSelected
  /-- BOOT_READY (R845). -/
  | bootReady
  /-- PCIE_GO (R833). -/
  | pcieGo (a : Acc) (v : Word)
  /-- FL_READ (R831): FL_CMD = READ. -/
  | flRead (a : Acc)
  /-- FL_PROGRAM (R842). -/
  | flProgram (a : Acc)
  /-- FL_ERASE (R842). -/
  | flErase (a : Acc)
  /-- FL_DONE (R853). -/
  | flDone (fail : Bool)
  /-- CFG_GO (R846): CFG_CMD written with GO. -/
  | cfgGo (a : Acc) (v : Word)
  /-- CFG_PERSIST (R847): the firmware writes the slot that CFG_CMD.PERSIST asked for. -/
  | cfgPersist
  /-- VERIFY_CFG (R850): MB_CMD of the host's mailbox or the supervisors'. -/
  | verifyCfg (a : Acc) (sv : Bool)
  /-- SIGN_CAL (R850). -/
  | signCal (a : Acc) (sv : Bool)
  /-- VERIFY_CAL (R850). -/
  | verifyCal (a : Acc) (sv : Bool)
  /-- CONFIRM (R841). -/
  | confirm (a : Acc) (sv : Bool)
  /-- ATTEST (R851). -/
  | attest (a : Acc) (sv : Bool)
  /-- DEBUG_CHALLENGE (R852). -/
  | debugChallenge (a : Acc) (sv : Bool)
  /-- DEBUG_UNLOCK (R852). -/
  | debugUnlock (a : Acc) (sv : Bool)
  /-- FUSE_KEY (R850): `blown` is whether the fuses take. -/
  | fuseKey (a : Acc) (sv blown : Bool)
  /-- FUSE_REVOKE (R850). -/
  | fuseRevoke (a : Acc) (sv blown : Bool)
  /-- FUSE_LOCK (R850). -/
  | fuseLock (a : Acc) (sv blown : Bool)
  /-- MAILBOX_DONE (R850). -/
  | mailboxDone (sv : Bool)
  /-- PMBUS_ENABLE (R860): CTRL.ENABLE of the PMBUS page set; VOUT_MODE as read, none where not acknowledged. -/
  | pmbusEnable (a : Acc) (mode : Option (BitVec 8))
  /-- PMB_ALERT (R860). -/
  | pmbAlert
  /-- GPIO_EDGE (R873): GPIO[n] has stood at a new level for 20 ns. -/
  | gpioEdge (n : Fin 32) (level : Bool)
  /-- FABRIC_LINK_UP (R594). -/
  | fabricLinkUp (l : LinkEnd)
  /-- PLL_RELOCK (R799). -/
  | pllRelock (pll : Fin 30)
  /-- PAGE_IDLE_CLOSE (R646): of bank `b` = channel × 32 + rank × 16 + bank. -/
  | pageIdleClose (b : Fin 512)
  /-- ECHO_WINDOW_END (R813): of the window of page `p`. -/
  | echoWindowEnd (p : Fin 512)
  /-- MSIX_ACK (R806). -/
  | msixAck (a : Acc) (v : Word)
  deriving DecidableEq, Repr

end Sys2Proof
end

