-- ==== Sys2Proof/Decode.lean ====
section
/-! DEFINITION. The commands that a word spells. The table of operations gives no row any bits, so no word spells a
command. -/

namespace Sys2Proof

/-- The command that `nbits` bits spell by the table of operations: none, since no row has bits. [DESIGN CHOICE, log 3] -/
def decodeTableWord (_nbits _w : Nat) : Option Instr := none

end Sys2Proof
end

