-- ==== Sys2Proof/Machine/RegMap.lean ====
section
/-! DEFINITION. The register pages: the page index (R49, R50), and each block's registers with their offsets,
access codes, reset values and defined bits, as the page maps of the chapters give them. -/

namespace Sys2Proof.Machine

/-- The blocks that own pages (R49, R50). -/
inductive Kind where
  | devinfo | evtc | disp | time | pwrc | clkc | mring | pcie | pkt | tm | cuw | prism | secmb | boot | gpio
  | pmbus | cluster | mxc | core | svc | dfe | ofdm | fec | dma | dramc | ssram | rtr | xlane | xspare
  | nlane | plane | klane | dmach | tmq | tcmp | det | post
  deriving DecidableEq, Repr

/-- The page index table (R49): first page, number of pages, block, ID.TYPE, first event source, event
sources of each page. -/
def pageTable : List (Nat × Nat × Kind × Nat × Nat × Nat) :=
  [(0x000, 1, .devinfo, 0x001, 0, 0), (0x001, 1, .evtc, 0x002, 0, 16), (0x002, 1, .disp, 0x003, 16, 32),
   (0x003, 1, .time, 0x004, 48, 32), (0x004, 1, .pwrc, 0x005, 80, 32), (0x005, 1, .clkc, 0x006, 112, 16),
   (0x006, 1, .mring, 0x007, 128, 16), (0x007, 1, .pcie, 0x008, 144, 32), (0x008, 1, .pkt, 0x009, 176, 32),
   (0x009, 1, .tm, 0x00A, 208, 32), (0x00A, 1, .cuw, 0x00B, 240, 16), (0x00B, 1, .prism, 0x00C, 256, 32),
   (0x00C, 1, .secmb, 0x00D, 288, 16), (0x00D, 1, .boot, 0x00E, 304, 16), (0x00E, 1, .gpio, 0x00F, 320, 32),
   (0x00F, 1, .pmbus, 0x010, 352, 8)] ++
  [(0x010, 16, .cluster, 0x011, 360, 16), (0x020, 16, .mxc, 0x012, 616, 8), (0x030, 144, .core, 0x013, 744, 4),
   (0x0C0, 8, .svc, 0x014, 1320, 8), (0x0C8, 4, .dfe, 0x015, 1384, 32), (0x0CC, 4, .ofdm, 0x016, 1512, 32),
   (0x0D0, 4, .fec, 0x017, 1640, 32), (0x0D8, 8, .dma, 0x018, 1768, 16), (0x0E0, 16, .dramc, 0x019, 1896, 4),
   (0x0F0, 2, .ssram, 0x01A, 1960, 4), (0x0F8, 7, .rtr, 0x01B, 1968, 4), (0x100, 32, .xlane, 0x01C, 1996, 1),
   (0x120, 4, .xspare, 0x01C, 2028, 1), (0x128, 8, .nlane, 0x01D, 2032, 1), (0x130, 4, .plane, 0x01E, 2040, 1),
   (0x134, 4, .klane, 0x01F, 2044, 1)]

/-- The extension pages (R50): first page, number, contents. -/
def extTable : List (Nat × Nat × Kind) :=
  [(0x200, 32, .dmach), (0x220, 64, .tmq), (0x260, 1, .tcmp), (0x261, 4, .det), (0x268, 8, .post)]

/-- The row of the page index table that holds page `p`. -/
def pageRow (p : Nat) : Option (Nat × Nat × Kind × Nat × Nat × Nat) :=
  pageTable.find? fun r => r.1 ≤ p && p < r.1 + r.2.1

/-- The block that owns page `p`; none where the page is unmapped (R49, R50). -/
def pageKind (p : Nat) : Option Kind :=
  match pageRow p with
  | some r => some r.2.2.1
  | none => (extTable.find? fun r => r.1 ≤ p && p < r.1 + r.2.1).map (·.2.2)

/-- The instance number of a page within its block (R49). Spare lane XMj is instance 32 + j. -/
def pageInst (p : Nat) : Nat :=
  match pageRow p with
  | some (b, _, k, _) => if k = .xspare then 32 + (p - b) else p - b
  | none => 0

/-- The first event source of a page and how many it drives (R49, R60). -/
def pageSources (p : Nat) : Nat × Nat :=
  match pageRow p with
  | some (b, _, _, _, e, n) => (e + (p - b) * n, n)
  | none => (0, 0)

/-- The page that drives an event source (R49). -/
def sourcePage (n : Nat) : Option Nat :=
  (pageTable.find? fun r => r.2.2.2.2.1 ≤ n && n < r.2.2.2.2.1 + r.2.1 * r.2.2.2.2.2).map
    fun r => r.1 + (n - r.2.2.2.2.1) / r.2.2.2.2.2

/-- The access codes of R12. -/
inductive Access where
  | rw | ro | wo | w1c | w1s | rc | rwl
  deriving DecidableEq, Repr

/-- One line of a page map: `n` registers at `off + step × i`, their reset value, and their defined bits by
access code. `mask2` holds the bits of a second code where a register's fields differ. -/
structure RegDef where
  off : Nat
  n : Nat
  step : Nat
  reset : Nat
  acc : Access
  mask : Nat
  acc2 : Access
  mask2 : Nat
  deriving DecidableEq, Repr

/-- A page-map line whose fields share one access code. -/
def reg (off n step reset : Nat) (acc : Access) (mask : Nat) : RegDef :=
  ⟨off, n, step, reset, acc, mask, .ro, 0⟩

/-- The registers of the DEVINFO page map (R51). -/
def regsDevinfo : List RegDef :=
  [reg 0x100 1 0x0 0x4256 .ro 0xFFFFFFFF /- PART -/,
   reg 0x104 1 0x0 0xB0 .ro 0xFF /- SILICON_REV -/,
   reg 0x108 1 0x0 0x0 .ro 0xFFFFFFFF /- SITE_ROLE -/,
   reg 0x10C 1 0x0 0x0 .ro 0xFFFFFFFF /- CFG_LOADS -/,
   reg 0x110 1 0x0 0x0 .ro 0xFFFFFFFF /- DIE_ID_LO -/,
   reg 0x114 1 0x0 0x0 .ro 0xFFFFFFFF /- DIE_ID_HI -/,
   reg 0x118 1 0x0 0x0 .ro 0xFFFF /- SNAP_SEQ -/,
   reg 0x11C 1 0x0 0x0 .ro 0xFFFFFFFF /- SHIP_MAP_VER -/]

/-- The common page header (R52, R53, R61, R66, R72). -/
def regsHdr : List RegDef :=
  [reg 0x0 1 0x0 0x0 .ro 0xFFFFFFFF /- ID -/,
   reg 0x4 1 0x0 0x0 .ro 0xFFFFFFFF /- CAPS -/,
   ⟨0x8, 1, 0x0, 0x0, .rw, 0x1, .w1s, 0x2⟩ /- CTRL -/,
   ⟨0xC, 1, 0x0, 0x0, .rwl, 0x1, .ro, 0x0⟩ /- MODE -/,
   ⟨0x10, 1, 0x0, 0x0, .ro, 0xF, .ro, 0x0⟩ /- STATUS -/,
   reg 0x14 1 0x0 0x0 .w1c 0xFFFFFFFF /- EVT_RAW -/,
   reg 0x18 1 0x0 0xFFFFFFFF .rw 0xFFFFFFFF /- EVT_MASK -/,
   reg 0x1C 1 0x0 0x0 .ro 0xFFFFFFFF /- EVT_PEND -/,
   ⟨0x20, 1, 0x0, 0x0, .ro, 0x4FFF1FFF, .w1c, 0x80000000⟩ /- ERR_CAUSE -/,
   reg 0x24 1 0x0 0x0 .ro 0xFFFFFFFF /- ERR_ADDR_LO -/,
   reg 0x28 1 0x0 0x0 .ro 0xFFFF /- ERR_ADDR_HI -/,
   reg 0x30 1 0x0 0x0 .ro 0xFFFF /- CE_BUCKET -/] ++
  [reg 0x34 1 0x0 0xA0010 .rw 0x1FFFFF /- CE_BUCKET_CFG -/,
   reg 0x40 1 0x0 0x0 .ro 0xFFFF /- SNAP_ID -/,
   reg 0x44 1 0x0 0x0 .ro 0x3FF /- PWR_DOMAIN -/,
   reg 0x80 32 0x4 0x0 .ro 0xFFFFFFFF /- SNAP_CNT0–31 -/]

/-- The registers of the DISP page map (R156). -/
def regsDisp : List RegDef :=
  [reg 0x100 1 0x0 0x0 .rwl 0xFFFFFFFF /- TMPL_BASE_LO -/,
   reg 0x104 1 0x0 0x10 .rwl 0xFFFF /- TMPL_BASE_HI -/,
   reg 0x108 1 0x0 0x0 .ro 0xFFFFFFFF /- OCCUPANCY -/,
   reg 0x10C 1 0x0 0x0 .ro 0xFFFF /- RESERVED -/,
   reg 0x110 1 0x0 0x0 .ro 0xFFFF /- HEADROOM -/,
   reg 0x114 1 0x0 0x7800 .rwl 0xFFFF /- OPEN_LIMIT -/,
   reg 0x118 1 0x0 0x32 .rw 0xFFFF /- AGE_LIMIT -/,
   reg 0x11C 1 0x0 0x0 .ro 0xF /- INGRESS -/,
   reg 0x120 1 0x0 0x0 .rw 0xFFFF /- INST_SEL -/,
   reg 0x124 1 0x0 0x0 .ro 0xC000FFFF /- INST_INFO0 -/,
   reg 0x128 1 0x0 0x0 .ro 0xFFFFFFFF /- INST_INFO1 -/,
   reg 0x12C 1 0x0 0x0 .rw 0xF00000FF /- MEMBER_SEL -/] ++
  [⟨0x130, 1, 0x0, 0x101, .ro, 0xFF0100, .rw, 0x1⟩ /- MEMBER_CTL -/,
   reg 0x134 1 0x0 0x0 .ro 0x107 /- TMR_STATUS -/,
   reg 0x138 1 0x0 0x0 .rwl 0xFFFFFFFF /- HA_RING_BASE_LO -/,
   reg 0x13C 1 0x0 0x0 .rwl 0xFFFF /- HA_RING_BASE_HI -/,
   reg 0x140 1 0x0 0x8 .rwl 0x1F /- HA_RING_SIZE -/,
   reg 0x144 1 0x0 0x0 .ro 0xFFFF /- HA_RING_HEAD -/,
   reg 0x148 1 0x0 0x0 .rw 0xFFFF /- HA_RING_TAIL -/,
   reg 0x150 9 0x10 0x0 .rw 0xFFFF /- OPEN_INST -/,
   reg 0x154 9 0x10 0x0 .rw 0xFFFF /- OPEN_PEAK -/,
   reg 0x158 9 0x10 0x0 .wo 0x3 /- OPEN_CMD -/,
   reg 0x15C 9 0x10 0x0 .ro 0x8000000F /- OPEN_STS -/]

/-- The registers of the DFE page map (R223). -/
def regsDfe : List RegDef :=
  [reg 0x100 1 0x0 0x0 .rwl 0x7 /- RATE -/,
   reg 0x104 1 0x0 0x0 .rwl 0xFFFF /- ANT_OFFSET -/,
   reg 0x108 1 0x0 0x100 .rw 0xFFF /- LATE_TOL -/,
   reg 0x10C 1 0x0 0x0 .ro 0xFFFFFFFF /- TX_STATE -/,
   reg 0x110 1 0x0 0x2 .rw 0x7 /- CFR_CTRL -/,
   reg 0x114 1 0x0 0x7FFF .rw 0xFFFF /- CFR_THRESH -/,
   reg 0x118 1 0x0 0x7FFF .rw 0xFFFF /- CFR_CLIP -/,
   reg 0x120 1 0x0 0x1EC .rw 0x33FFF /- RAMP_PROF0 -/,
   reg 0x124 1 0x0 0x3D7 .rw 0x33FFF /- RAMP_PROF1 -/,
   reg 0x128 1 0x0 0x7AE .rw 0x33FFF /- RAMP_PROF2 -/,
   reg 0x12C 1 0x0 0xB85 .rw 0x33FFF /- RAMP_PROF3 -/,
   reg 0x130 1 0x0 0xF5C .rw 0x33FFF /- RAMP_PROF4 -/] ++
  [reg 0x134 1 0x0 0x1333 .rw 0x33FFF /- RAMP_PROF5 -/,
   reg 0x138 1 0x0 0x1CCD .rw 0x33FFF /- RAMP_PROF6 -/,
   reg 0x13C 1 0x0 0x2666 .rw 0x33FFF /- RAMP_PROF7 -/,
   reg 0x140 16 0x4 0x0 .rw 0x3FFF3FFF /- PA_TIMING -/,
   reg 0x180 4 0x4 0x0 .rw 0x3FFF3FFF /- TDD_TIMING -/,
   reg 0x190 4 0x4 0x0 .rw 0x8000FFFF /- TDD_SRC -/,
   reg 0x1A0 1 0x0 0x0 .rw 0x1FF /- CHAIN_SEL -/,
   reg 0x1A4 1 0x0 0x0 .wo 0x3 /- CHAIN_CMD -/,
   reg 0x1A8 1 0x0 0x0 .rw 0xFFFFFFFF /- CHAIN_APPLY -/,
   reg 0x1AC 1 0x0 0x0 .ro 0xC0000000 /- CHAIN_STS -/,
   reg 0x200 1 0x0 0x0 .rw 0xF /- CSLOT_SEL -/,
   reg 0x210 1 0x0 0x0 .rw 0xFFFFFFFF /- CS_FREQ -/] ++
  [reg 0x214 1 0x0 0x0 .rw 0x307FF /- CS_CONF -/,
   reg 0x218 1 0x0 0x0 .rw 0xFFFFFFFF /- CS_CHAINS_LO -/,
   reg 0x21C 1 0x0 0x0 .rw 0xFFFFFFFF /- CS_CHAINS_HI -/,
   reg 0x220 1 0x0 0x2000 .rw 0xFFFF /- CS_TX_GAIN -/,
   reg 0x224 1 0x0 0x0 .ro 0xFFFFFFFF /- CS_LAT -/,
   reg 0x228 1 0x0 0x0 .ro 0x7 /- CS_STATE -/,
   reg 0x240 1 0x0 0x0 .rw 0x1F07 /- COEF_SEL -/,
   reg 0x244 1 0x0 0x0 .rw 0x3FFFF /- COEF_DATA -/,
   reg 0x1C0 1 0x0 0x1 .rw 0xF0003 /- CH_CTRL -/,
   reg 0x1C4 1 0x0 0x4000 .rw 0xFFFF /- CH_GAIN -/,
   reg 0x1C8 1 0x0 0x0 .rw 0xFFFF /- CH_PHASE -/,
   reg 0x1CC 1 0x0 0x0 .rw 0x3FFFF /- CH_DELAY -/] ++
  [reg 0x1D0 1 0x0 0x4000 .rw 0xFFFFFFFF /- CH_IQ -/,
   reg 0x1D4 1 0x0 0x0 .rw 0xFFFFFFFF /- CH_DC -/,
   reg 0x1D8 1 0x0 0x0 .rw 0x1F03 /- CH_MIRROR -/,
   reg 0x1DC 1 0x0 0x0 .rc 0xFFFF /- CH_SAT -/,
   reg 0x300 4 0x20 0x0 .rw 0xFFFFFFFF /- CAL_CFG -/,
   reg 0x304 4 0x20 0x0 .rw 0xFFFFFFFF /- CAL_OUT_LO -/,
   reg 0x308 4 0x20 0x0 .rw 0xFFFF /- CAL_OUT_HI -/,
   reg 0x30C 4 0x20 0x0 .wo 0x3 /- CAL_CMD -/,
   reg 0x310 4 0x20 0x0 .ro 0xE000FFFF /- CAL_STS -/]

/-- The registers of the XLANE page map (R224). -/
def regsXlane : List RegDef :=
  [reg 0x100 1 0x0 0x0 .rwl 0x130F /- LINK_CFG -/,
   reg 0x104 1 0x0 0x1F .rwl 0x1F /- LINK_K -/,
   ⟨0x108, 1, 0x0, 0x40001, .rw, 0xFF0003, .w1s, 0x100⟩ /- SYSREF_CFG -/,
   reg 0x10C 1 0x0 0x40 .rwl 0x1FF /- RBD -/,
   reg 0x110 1 0x0 0x0 .ro 0x1F7 /- LINK_STS -/,
   reg 0x114 1 0x0 0x0 .ro 0xFFFFFFFF /- SYSREF_STS -/,
   reg 0x118 1 0x0 0x0 .ro 0xFFFFFFFF /- EB_DEPTH -/,
   reg 0x11C 1 0x0 0x0 .wo 0x1 /- LINK_CMD -/,
   reg 0x120 1 0x0 0x0 .rc 0xFFFFFFFF /- CRC_CNT -/,
   reg 0x124 1 0x0 0x4 .rw 0xFF /- LOSS_LIMIT -/]

/-- The registers of the XSPARE page map (R225). -/
def regsXspare : List RegDef :=
  [reg 0x100 1 0x0 0x0 .rw 0x1F /- SUB_TARGET -/,
   reg 0x104 1 0x0 0x0 .wo 0x3 /- SUB_CMD -/,
   reg 0x108 1 0x0 0x0 .ro 0x7 /- SUB_STS -/]

/-- The registers of the OFDM page map (R280). -/
def regsOfdm : List RegDef :=
  [reg 0x100 1 0x0 0x0 .rwl 0xFFFFFFFF /- DESC_BASE_LO -/,
   reg 0x104 1 0x0 0x10 .rwl 0xFFFF /- DESC_BASE_HI -/,
   reg 0x108 1 0x0 0x0 .rw 0x3F /- CARR_SEL -/,
   reg 0x10C 1 0x0 0x138000 .rw 0xFFFFFFFF /- NV_DEFAULT -/,
   reg 0x110 1 0x0 0x6 .rw 0xF /- NF_ALPHA -/,
   reg 0x114 1 0x0 0xC00 .rw 0xFFFF /- PRACH_THR -/,
   reg 0x118 1 0x0 0x0 .rw 0x707 /- SMOOTH_SEL -/,
   reg 0x11C 1 0x0 0x4000 .rw 0xFFFF /- SMOOTH_DATA -/,
   reg 0x120 1 0x0 0x0 .rwl 0xFFFFFFFF /- HA_RING_BASE_LO -/,
   reg 0x124 1 0x0 0x0 .rwl 0xFFFF /- HA_RING_BASE_HI -/,
   reg 0x128 1 0x0 0x8 .rwl 0x1F /- HA_RING_SIZE -/,
   reg 0x12C 1 0x0 0x0 .ro 0xFFF /- HA_RING_HEAD -/] ++
  [reg 0x130 1 0x0 0x0 .rw 0xFFF /- HA_RING_TAIL -/,
   reg 0x180 1 0x0 0x0 .rw 0xFF01 /- CARR_CTRL -/,
   reg 0x184 1 0x0 0x0 .rw 0xF0738 /- CARR_NUM -/,
   reg 0x188 1 0x0 0x0 .rw 0x1FF /- CARR_GRID -/,
   reg 0x18C 1 0x0 0x100 .rw 0x310F /- CARR_SRC -/,
   reg 0x190 1 0x0 0x0 .rw 0xFFFFFFFF /- CARR_TOFF -/,
   reg 0x194 1 0x0 0x20000606 .rw 0xFF0F0F0F /- CARR_SCALE -/,
   reg 0x198 1 0x0 0x0 .rw 0x3FF /- CARR_BACKOFF -/,
   reg 0x19C 1 0x0 0x0 .rw 0x80FFFFFF /- CARR_F0 -/,
   reg 0x1A0 1 0x0 0x0 .ro 0x80000001 /- CARR_STS -/]

/-- The registers of the FEC page map (R332). -/
def regsFec : List RegDef :=
  [reg 0x100 1 0x0 0x0 .rwl 0xFFFFFFFF /- DESC_BASE_LO -/,
   reg 0x104 1 0x0 0x10 .rwl 0xFFFF /- DESC_BASE_HI -/,
   reg 0x108 1 0x0 0x0 .rwl 0xFFFFFFFF /- HQ_TABLE_LO -/,
   reg 0x10C 1 0x0 0x0 .rwl 0xFFFF /- HQ_TABLE_HI -/,
   reg 0x110 1 0x0 0x13FFFFF .rw 0x13FFFFF /- ENG_EN -/,
   reg 0x114 1 0x0 0x0 .ro 0x13FFFFF /- ENG_BUSY -/,
   reg 0x118 1 0x0 0x4 .rw 0x3F /- LDPC_OFFSET -/,
   reg 0x11C 1 0x0 0xC .rw 0xF /- TURBO_SCALE -/,
   reg 0x120 1 0x0 0x0 .rwl 0xFFFFFFFF /- HA_RING_BASE_LO -/,
   reg 0x124 1 0x0 0x0 .rwl 0xFFFF /- HA_RING_BASE_HI -/,
   reg 0x128 1 0x0 0x8 .rwl 0x1F /- HA_RING_SIZE -/,
   reg 0x12C 1 0x0 0x0 .ro 0xFFF /- HA_RING_HEAD -/] ++
  [reg 0x130 1 0x0 0x0 .rw 0xFFF /- HA_RING_TAIL -/,
   reg 0x134 1 0x0 0x0 .rwl 0xFFFFFFFF /- HA_BUF_BASE_LO -/,
   reg 0x138 1 0x0 0x0 .rwl 0xFFFF /- HA_BUF_BASE_HI -/,
   reg 0x13C 1 0x0 0x14 .rwl 0x1F /- HA_BUF_SIZE -/,
   reg 0x140 1 0x0 0x0 .ro 0x3FFFFFFF /- HA_BUF_HEAD -/,
   reg 0x144 1 0x0 0x0 .rw 0x3FFFFFFF /- HA_BUF_TAIL -/]

/-- The registers of the PRISM page map (R382). -/
def regsPrism : List RegDef :=
  [reg 0x100 1 0x0 0x0 .rwl 0xFFFFFFFF /- SPEC_RING_BASE_LO -/,
   reg 0x104 1 0x0 0x0 .rwl 0xFFFF /- SPEC_RING_BASE_HI -/,
   reg 0x108 1 0x0 0x14 .rwl 0x1F /- SPEC_RING_SIZE -/,
   reg 0x10C 1 0x0 0x0 .ro 0x3FFFFFFF /- SPEC_RING_HEAD -/,
   reg 0x110 1 0x0 0x0 .rw 0x3FFFFFFF /- SPEC_RING_TAIL -/,
   reg 0x114 1 0x0 0x0 .rwl 0xFFFFFFFF /- EVT_RING_BASE_LO -/,
   reg 0x118 1 0x0 0x0 .rwl 0xFFFF /- EVT_RING_BASE_HI -/,
   reg 0x11C 1 0x0 0x8 .rwl 0x1F /- EVT_RING_SIZE -/,
   reg 0x120 1 0x0 0x0 .ro 0x3FFF /- EVT_RING_HEAD -/,
   reg 0x124 1 0x0 0x0 .rw 0x3FFF /- EVT_RING_TAIL -/,
   reg 0x128 1 0x0 0x0 .rwl 0xFFFFFFFF /- STATE_BASE_LO -/,
   reg 0x12C 1 0x0 0x0 .rwl 0xFFFF /- STATE_BASE_HI -/] ++
  [reg 0x130 1 0x0 0x5 .rwl 0xF /- CAP_CFG -/,
   reg 0x134 1 0x0 0x0 .ro 0x1FF /- BUF_FREE -/,
   reg 0x138 1 0x0 0x0 .wo 0xFF /- BUF_RELEASE -/,
   reg 0x13C 1 0x0 0x600 .rw 0xFFFF /- CAP_MARGIN -/,
   reg 0x140 1 0x0 0x0 .rwl 0xFFFFFFFF /- HA_RING_BASE_LO -/,
   reg 0x144 1 0x0 0x0 .rwl 0xFFFF /- HA_RING_BASE_HI -/,
   reg 0x148 1 0x0 0x8 .rwl 0x1F /- HA_RING_SIZE -/,
   reg 0x14C 1 0x0 0x0 .ro 0xFFF /- HA_RING_HEAD -/,
   reg 0x150 1 0x0 0x0 .rw 0xFFF /- HA_RING_TAIL -/,
   reg 0x154 1 0x0 0x0 .rwl 0xFFFFFFFF /- HA_BUF_BASE_LO -/,
   reg 0x158 1 0x0 0x0 .rwl 0xFFFF /- HA_BUF_BASE_HI -/,
   reg 0x15C 1 0x0 0x14 .rwl 0x1F /- HA_BUF_SIZE -/] ++
  [reg 0x160 1 0x0 0x0 .ro 0x3FFFFFFF /- HA_BUF_HEAD -/,
   reg 0x164 1 0x0 0x0 .rw 0x3FFFFFFF /- HA_BUF_TAIL -/]

/-- The registers of the TAP page map (R382). -/
def regsTap : List RegDef :=
  [reg 0x180 4 0x40 0x310A0C .rw 0x3771F0F /- TAP_CFG -/,
   reg 0x184 4 0x40 0x0 .rw 0xFF /- ROT_DWELL -/,
   reg 0x188 4 0x40 0x6 .rw 0xF /- NF_ALPHA -/,
   reg 0x18C 4 0x40 0x0 .ro 0xFFFF0103 /- TAP_STS -/,
   reg 0x190 4 0x40 0xFFFFFFFF .rw 0xFFFFFFFF /- TAP_SET0_LO -/,
   reg 0x198 4 0x40 0x0 .rw 0xFFFFFFFF /- TAP_SET1_LO -/,
   reg 0x1A0 4 0x40 0x0 .rw 0xFFFFFFFF /- TAP_SET2_LO -/,
   reg 0x1A8 4 0x40 0x0 .rw 0xFFFFFFFF /- TAP_SET3_LO -/,
   reg 0x194 4 0x40 0x0 .rw 0xFFFFFFFF /- TAP_SET0_HI -/,
   reg 0x19C 4 0x40 0x0 .rw 0xFFFFFFFF /- TAP_SET1_HI -/,
   reg 0x1A4 4 0x40 0x0 .rw 0xFFFFFFFF /- TAP_SET2_HI -/,
   reg 0x1AC 4 0x40 0x0 .rw 0xFFFFFFFF /- TAP_SET3_HI -/] ++
  [reg 0x1B0 4 0x40 0x0 .wo 0x3 /- MAXH_CLR -/,
   reg 0x1B4 4 0x40 0x0 .rw 0xFFFFFFFF /- HA_CHMASK -/,
   reg 0x1B8 4 0x40 0x0 .rw 0xF /- HA_DEC -/]

/-- The registers of the DET page map (R383). -/
def regsDet : List RegDef :=
  [reg 0x0 16 0x100 0x0 .rw 0x3FFF /- DET_CTRL -/,
   reg 0x4 16 0x100 0x0 .rw 0xFF /- DET_STREAM -/,
   reg 0x8 16 0x100 0x0 .rw 0xFFFFFFFF /- DET_FREQ -/,
   reg 0xC 16 0x100 0x1000004 .rw 0x7FF000F /- DET_RATE -/,
   reg 0x10 16 0x100 0xC00 .rw 0xFFFF /- DET_THR -/,
   reg 0x14 16 0x100 0xC .rw 0x1F /- DET_BG -/,
   reg 0x18 16 0x100 0x3000C00 .rw 0xFFFF1FFF /- DET_CONF -/,
   reg 0x1C 16 0x100 0x200 .rw 0x1FFF /- DET_PRE -/,
   reg 0x20 16 0x100 0x7800 .rw 0xFFFFF /- DET_POST -/,
   reg 0x24 16 0x100 0x0 .ro 0xFFFF000F /- DET_STS -/,
   reg 0x28 16 0x100 0x0 .rc 0xFFFF /- DET_CNT -/,
   reg 0x2C 16 0x100 0x0 .rc 0xFFFF /- FA_CNT -/] ++
  [reg 0x30 16 0x100 0x0 .rc 0xFFFF /- SH_CNT -/,
   reg 0x34 16 0x100 0x0 .rc 0xFFFF /- PE_CNT -/]

/-- The registers of the CLUSTER page map (R411). -/
def regsCluster : List RegDef :=
  [reg 0x100 1 0x0 0x0 .rw 0xFFFFFFFF /- CORE_MAP -/,
   reg 0x104 1 0x0 0x0 .wo 0xFF3 /- SPARE_CMD -/,
   reg 0x108 1 0x0 0x0 .ro 0xE00FFFFF /- SPARE_STS -/]

/-- The registers of the CORE page map (R477). -/
def regsCore : List RegDef :=
  [reg 0x100 1 0x0 0x0 .ro 0xFFFFFFFF /- PC_SAMPLE_LO -/,
   reg 0x104 1 0x0 0x0 .ro 0xFFFF /- PC_SAMPLE_HI -/,
   reg 0x108 1 0x0 0x0 .ro 0xF00000FF /- CORE_STS -/,
   reg 0x10C 1 0x0 0x0 .ro 0xFF /- HALT_CAUSE -/,
   ⟨0x110, 1, 0x0, 0x0, .rw, 0x1, .w1s, 0x2⟩ /- DBG_CTL -/]

/-- The registers of the MXC page map (R552). -/
def regsMxc : List RegDef :=
  [reg 0x100 1 0x0 0x0 .rw 0x7 /- CTX_SEL -/,
   reg 0x104 1 0x0 0x0 .ro 0xFFFFFFFF /- CTX_STS -/,
   reg 0x108 1 0x0 0x0 .ro 0xF0FF0000 /- CTX_INFO -/,
   reg 0x10C 1 0x0 0x0 .wo 0xFFFF /- CTX_CANCEL -/,
   reg 0x110 1 0x0 0xF000 .ro 0xF007 /- RUN_STS -/,
   reg 0x120 1 0x0 0x0 .rwl 0xFFFFFFFF /- HA_RING_BASE_LO -/,
   reg 0x124 1 0x0 0x0 .rwl 0xFFFF /- HA_RING_BASE_HI -/,
   reg 0x128 1 0x0 0x8 .rwl 0x1F /- HA_RING_SIZE -/,
   reg 0x12C 1 0x0 0x0 .ro 0xFFF /- HA_RING_HEAD -/,
   reg 0x130 1 0x0 0x0 .rw 0xFFF /- HA_RING_TAIL -/]

/-- The registers of the RTR page map (R594). -/
def regsRtr : List RegDef :=
  [reg 0x100 1 0x0 0x0 .ro 0x8001FFFF /- EPOCH -/,
   reg 0x104 1 0x0 0x0 .ro 0xFFFFFFFF /- INFLIGHT -/,
   reg 0x108 1 0x0 0x0 .rw 0x7 /- BUNDLE_SEL -/,
   reg 0x10C 1 0x0 0xF .rw 0x31F /- LINK_CFG -/,
   reg 0x110 1 0x0 0x0 .ro 0x1F001F /- LINK_STS -/,
   reg 0x114 1 0x0 0x688 .rw 0xFFF /- LINK_MAP0 -/,
   reg 0x118 1 0x0 0x688 .rw 0xFFF /- LINK_MAP1 -/,
   reg 0x11C 1 0x0 0x0 .rw 0xB03F00FF /- TBL_SEL -/,
   reg 0x120 1 0x0 0x0 .rw 0xFFFFFFFF /- TBL_DATA -/,
   reg 0x124 1 0x0 0x0 .wo 0x1 /- TBL_CMD -/,
   reg 0x130 1 0x0 0x0 .rw 0x7 /- LP_SEL -/,
   reg 0x134 1 0x0 0xA .rw 0xFFFF /- LP_TIMEOUT -/] ++
  [reg 0x138 1 0x0 0x0 .rw 0x3 /- IS_CTRL -/,
   reg 0x13C 1 0x0 0x0 .ro 0xFFFFFFFF /- IS_RD_CNT -/,
   reg 0x140 1 0x0 0x0 .ro 0xFFFFFFFF /- IS_LAT_SUM_LO -/,
   reg 0x144 1 0x0 0x0 .ro 0xFFFFFFFF /- IS_LAT_SUM_HI -/,
   reg 0x148 1 0x0 0x0 .rc 0xFFFFFFFF /- IS_LAT_MAX -/,
   reg 0x14C 4 0x4 0x0 .ro 0xFFFFFFFF /- IS_HIST -/,
   reg 0x15C 1 0x0 0x0 .ro 0xFFFFFFFF /- IS_RD_BYTES_LO -/,
   reg 0x160 1 0x0 0x0 .ro 0xFFFFFFFF /- IS_RD_BYTES_HI -/,
   reg 0x164 1 0x0 0x0 .ro 0xFFFFFFFF /- IS_WR_BYTES_LO -/,
   reg 0x168 1 0x0 0x0 .ro 0xFFFFFFFF /- IS_WR_BYTES_HI -/,
   reg 0x180 1 0x0 0x0 .ro 0xBF /- LT_TRACE_PTR -/,
   reg 0x200 8 0x20 0x0 .rw 0xE03F8100 /- LT_CTRL -/] ++
  [reg 0x204 8 0x20 0x0 .rw 0xFFFFFFFF /- LT_MATCH_LO -/,
   reg 0x208 8 0x20 0x0 .rw 0xFFFFFFFF /- LT_MATCH_HI -/,
   reg 0x20C 8 0x20 0x0 .rw 0xFFFFFFFF /- LT_MASK_LO -/,
   reg 0x210 8 0x20 0x0 .rw 0xFFFFFFFF /- LT_MASK_HI -/,
   reg 0x214 8 0x20 0x0 .rw 0xFFFFFFFF /- LT_START -/,
   reg 0x218 8 0x20 0x0 .rc 0xFFFFFFFF /- LT_COUNT -/,
   reg 0x21C 8 0x20 0x0 .rc 0xFFFFFFFF /- LT_WAIT -/,
   reg 0x300 8 0x4 0x0 .rc 0xFFFF /- LT_MAX -/]

/-- The registers of the MRING page map (R595). -/
def regsMring : List RegDef :=
  [reg 0x100 1 0x0 0x400000 .ro 0x807F003F /- RING_STS -/,
   reg 0x104 1 0x0 0x4 .rw 0xFF /- RING_TIMEOUT -/,
   reg 0x108 1 0x0 0x0 .wo 0x8000007F /- FLIP_CMD -/,
   reg 0x10C 1 0x0 0x0 .ro 0xE001FFFF /- FLIP_STS -/,
   reg 0x110 1 0x0 0x0 .ro 0xFFFFFFFF /- FRAME_CNT -/]

/-- The registers of the DMA page map (R623). -/
def regsDma : List RegDef :=
  [reg 0x100 1 0x0 0x0 .ro 0xFF00FF /- ENG_STS -/,
   reg 0x110 4 0x4 0x0 .w1c 0xFFFFFFFF /- DONE_PEND -/,
   reg 0x120 4 0x4 0xFFFFFFFF .rw 0xFFFFFFFF /- DONE_MASK -/,
   reg 0x130 4 0x4 0x0 .ro 0xFFFFFFFF /- ERR_PEND -/]

/-- The registers of the DMACH page map (R624). -/
def regsDmach : List RegDef :=
  [reg 0x0 32 0x80 0x0 .rw 0x837303FF /- CH_CTRL -/,
   reg 0x4 32 0x80 0x0 .wo 0x3 /- CH_CMD -/,
   reg 0x8 32 0x80 0x0 .ro 0xFFFF8000 /- CH_STS -/,
   reg 0xC 32 0x80 0x0 .ro 0xFFFFFFFF /- CH_COUNT -/,
   reg 0x10 32 0x80 0x0 .rw 0xFFFFFFFF /- RING_BASE_LO -/,
   reg 0x14 32 0x80 0x0 .rw 0xFFFF /- RING_BASE_HI -/,
   reg 0x18 32 0x80 0x4 .rw 0xF /- RING_SIZE -/,
   reg 0x1C 32 0x80 0x0 .rw 0xFFF /- RING_CUR -/,
   reg 0x20 32 0x80 0x0 .ro 0xFFFFFFFF /- DESC_LO -/,
   reg 0x24 32 0x80 0x0 .ro 0xFFFF /- DESC_HI -/,
   reg 0x28 32 0x80 0xFFFFFFFF .ro 0xFFFFFFFF /- CSUM_RUN -/,
   reg 0x2C 32 0x80 0x0 .ro 0xFFFFFFFF /- BEAT_ADDR_LO -/] ++
  [reg 0x30 32 0x80 0x0 .ro 0xFFFF /- BEAT_ADDR_HI -/,
   reg 0x34 32 0x80 0x0 .ro 0x3F0F0FFF /- CH_STAGE -/,
   reg 0x38 32 0x80 0x0 .ro 0xFFFFFFFF /- DESC_CNT -/]

/-- The registers of the DRAMC page map (R661). -/
def regsDramc : List RegDef :=
  [reg 0x100 1 0x0 0x80100020 .rwl 0x83110030 /- MEM_CFG -/,
   reg 0x104 1 0x0 0x0 .rwl 0xFFFFFFFF /- FSP_FREQ -/,
   reg 0x108 1 0x0 0x0 .rw 0x3 /- SH_FSP -/,
   reg 0x10C 1 0x0 0x0 .wo 0x80000003 /- FC_CMD -/,
   reg 0x110 1 0x0 0x0 .ro 0xB000FFFF /- FC_STS -/,
   reg 0x114 1 0x0 0x8090802 .ro 0xFFFFFFFF /- ACT_TIM0 -/,
   reg 0x118 1 0x0 0x11080E05 .ro 0xFFFFFFFF /- ACT_TIM1 -/,
   reg 0x11C 1 0x0 0x30E0702 .ro 0xFFFFFFFF /- ACT_TIM2 -/,
   reg 0x120 1 0x0 0x700038 .ro 0xFFFFFFFF /- ACT_TIM3 -/,
   reg 0x124 1 0x0 0x61A0073 .ro 0xFFFFFFFF /- ACT_TIM4 -/,
   reg 0x128 5 0x4 0x0 .rw 0xFFFFFFFF /- SH_TIM -/,
   reg 0x13C 1 0x0 0xC8 .rw 0x3FFFF /- PRED_CFG -/] ++
  [reg 0x140 1 0x0 0x80000018 .rw 0x800000FF /- SCRUB_CFG -/,
   reg 0x144 1 0x0 0x0 .ro 0xFFFFFFFF /- SCRUB_UE_LO -/,
   reg 0x148 1 0x0 0x0 .ro 0xFFFF /- SCRUB_UE_HI -/,
   reg 0x14C 1 0x0 0x0 .ro 0xFFFFFFFF /- SCRUB_POS -/,
   reg 0x180 1 0x0 0x0 .ro 0xF000FF3F /- CH_STS -/,
   reg 0x184 1 0x0 0x8 .rw 0x10F /- REF_CFG -/,
   reg 0x188 1 0x0 0x0 .ro 0xFFFFFFFF /- UE_LAST_LO -/,
   reg 0x18C 1 0x0 0x0 .ro 0xFFFF /- UE_LAST_HI -/]

/-- The registers of the SSRAM page map (R662). -/
def regsSsram : List RegDef :=
  [reg 0x100 1 0x0 0xAAAAAAAA .rw 0xFFFFFFFF /- BANK_PWR_LO -/,
   reg 0x104 1 0x0 0xAAAAAAAA .rw 0xFFFFFFFF /- BANK_PWR_HI -/,
   reg 0x110 1 0x0 0x0 .rw 0x3FF00FF /- RR_TARGET -/,
   reg 0x114 1 0x0 0x0 .rw 0x7FF /- RR_ROW -/,
   reg 0x118 1 0x0 0x0 .wo 0x1 /- RR_CMD -/,
   reg 0x11C 1 0x0 0x0 .ro 0xFF00001F /- RR_STS -/]

/-- The registers of the LANE page map (R699). -/
def regsLane : List RegDef :=
  [reg 0x200 4 0x40 0x30000000 .rw 0xF0070310 /- LN_CTRL -/,
   reg 0x204 4 0x40 0xCC000000 .ro 0xCF9E00FF /- LN_STS -/,
   ⟨0x208, 4, 0x40, 0x3F000000, .rw, 0x1F0F, .ro, 0x3F000000⟩ /- TX_TAPS -/,
   reg 0x20C 4 0x40 0x0 .ro 0xFFFFFFF /- RX_EQ -/,
   reg 0x210 4 0x40 0x4003 .rw 0xFF0F /- FOM_CFG -/,
   reg 0x214 4 0x40 0x0 .rw 0xC0000003 /- PRBS_CTL -/,
   reg 0x218 4 0x40 0x0 .rc 0xFFFFFFFF /- PRBS_ERR -/,
   reg 0x21C 4 0x40 0x0 .w1c 0x7F /- LN_EVT -/,
   reg 0x300 1 0x0 0x2000000 .rw 0xF001F0F /- PRESET0 -/,
   reg 0x304 1 0x0 0x4000600 .rw 0xF001F0F /- PRESET1 -/,
   reg 0x308 1 0x0 0x6000A02 .rw 0xF001F0F /- PRESET2 -/,
   reg 0x30C 1 0x0 0x8000E04 .rw 0xF001F0F /- PRESET3 -/] ++
  [reg 0x310 1 0x0 0xA001204 .rw 0xF001F0F /- PRESET4 -/,
   reg 0x314 1 0x0 0xC001405 .rw 0xF001F0F /- PRESET5 -/,
   reg 0x318 1 0x0 0xE001800 .rw 0xF001F0F /- PRESET6 -/,
   reg 0x31C 1 0x0 0xF001008 .rw 0xF001F0F /- PRESET7 -/]

/-- The registers of the CUW page map (R702). -/
def regsCuw : List RegDef :=
  [reg 0x100 1 0x0 0x11FFFF .rwl 0x311FFFF /- CUW_CFG -/,
   reg 0x104 1 0x0 0x0 .wo 0x1 /- CUW_CMD -/,
   reg 0x108 1 0x0 0x0 .ro 0xFE330000 /- CUW_STS -/,
   reg 0x10C 1 0x0 0x0 .ro 0xFFFFFFFF /- LANES -/,
   reg 0x110 1 0x0 0x0 .ro 0xFFFFFFFF /- CREDIT_STS -/,
   reg 0x114 1 0x0 0x8 .rw 0xF /- REPLAY_LIMIT -/,
   reg 0x118 1 0x0 0xA .rw 0xFFFF /- TRAIN_TIMEOUT -/,
   reg 0x11C 1 0x0 0x0 .ro 0xFFFF00FF /- PEER_ID -/]

/-- The registers of the PKT page map (R735). -/
def regsPkt : List RegDef :=
  [reg 0x100 1 0x0 0x0 .rwl 0x1 /- PORT_CFG -/,
   reg 0x104 1 0x0 0x0 .rw 0xFFFFFFFF /- PORT_EN -/,
   reg 0x108 1 0x0 0x55555555 .rwl 0xFFFFFFFF /- PORT_FEC_LO -/,
   reg 0x10C 1 0x0 0x55555555 .rwl 0xFFFFFFFF /- PORT_FEC_HI -/,
   reg 0x110 1 0x0 0x0 .ro 0xFFFFFFFF /- PORT_STS -/,
   reg 0x114 1 0x0 0x0 .rwl 0xFFFFFFFF /- FLOW_BASE_LO -/,
   reg 0x118 1 0x0 0x0 .rwl 0xFFFF /- FLOW_BASE_HI -/,
   reg 0x11C 1 0x0 0x0 .wo 0x80000FFF /- FLOW_CMD -/,
   reg 0x120 1 0x0 0x0 .ro 0xC0000FFF /- FLOW_STS -/,
   reg 0x124 1 0x0 0x0 .rwl 0xFFFFFFFF /- FH_BASE_LO -/,
   reg 0x128 1 0x0 0x0 .rwl 0xFFFF /- FH_BASE_HI -/,
   reg 0x12C 1 0x0 0x0 .rw 0xF /- DEFAULT_RING -/] ++
  [reg 0x130 1 0x0 0x100 .rw 0xFFFF /- LATE_TOL -/,
   reg 0x200 8 0x20 0x0 .rwl 0xFFFFFFFF /- RXR_BASE_LO -/,
   reg 0x204 8 0x20 0x0 .rwl 0xFFFF /- RXR_BASE_HI -/,
   reg 0x208 8 0x20 0xB0008 .rwl 0x1F000F /- RXR_CFG -/,
   reg 0x20C 8 0x20 0x0 .ro 0xFFF /- RXR_HEAD -/,
   reg 0x210 8 0x20 0x0 .rw 0xFFF /- RXR_TAIL -/,
   reg 0x300 8 0x20 0x0 .rwl 0xFFFFFFFF /- JOB_BASE_LO -/,
   reg 0x304 8 0x20 0x0 .rwl 0xFFFF /- JOB_BASE_HI -/,
   reg 0x308 8 0x20 0x8 .rwl 0xF /- JOB_SIZE -/,
   reg 0x30C 8 0x20 0x0 .ro 0xFFF /- JOB_HEAD -/,
   reg 0x310 8 0x20 0x0 .rw 0xFFF /- JOB_TAIL -/]

/-- The registers of the TM page map (R736). -/
def regsTm : List RegDef :=
  [reg 0x100 1 0x0 0x0 .rwl 0xFFFFFFFF /- TM_BUF_BASE_LO -/,
   reg 0x104 1 0x0 0x10 .rwl 0xFFFF /- TM_BUF_BASE_HI -/,
   reg 0x108 1 0x0 0x16 .rwl 0x1F /- TM_BUF_SIZE -/,
   reg 0x10C 1 0x0 0x0 .ro 0xFFFFF /- BUF_USED -/,
   reg 0x110 1 0x0 0x3E8 .rw 0xFFFF /- SAMPLE_NS -/,
   reg 0x114 1 0x0 0x100 .rw 0xFFFF /- LAUNCH_TOL -/,
   reg 0x118 1 0x0 0xA .rw 0xFFFF /- HA_TIMEOUT -/,
   reg 0x11C 1 0x0 0x0 .wo 0xFFFF7FFF /- HA_SELECT -/,
   reg 0x120 1 0x0 0x0 .rwl 0xFFFFFFFF /- HA_RING_BASE_LO -/,
   reg 0x124 1 0x0 0x0 .rwl 0xFFFF /- HA_RING_BASE_HI -/,
   reg 0x128 1 0x0 0x8 .rwl 0x1F /- HA_RING_SIZE -/,
   reg 0x12C 1 0x0 0x0 .ro 0xFFF /- HA_RING_HEAD -/] ++
  [reg 0x130 1 0x0 0x0 .rw 0xFFF /- HA_RING_TAIL -/]

/-- The registers of the TMQ page map (R736). -/
def regsTmq : List RegDef :=
  [reg 0x0 64 0x40 0x1 .rw 0x9FFF00FF /- Q_CFG -/,
   reg 0x4 64 0x40 0x1000100 .rw 0xFFFFFFFF /- Q_LIMIT -/,
   reg 0x8 64 0x40 0x0 .rw 0xFFFFF /- M_CIR -/,
   reg 0xC 64 0x40 0x0 .rw 0xFFFFF /- M_PIR -/,
   reg 0x10 64 0x40 0x0 .rw 0xFFFFFFFF /- M_BURST -/,
   reg 0x14 64 0x40 0x0 .ro 0xFFFFF /- DEPTH -/,
   reg 0x18 64 0x40 0x0 .rc 0xFFFFF /- DEPTH_MAX -/,
   reg 0x1C 64 0x40 0x0 .ro 0xFFFFFFFF /- DELAY_LAST -/,
   reg 0x20 64 0x40 0x0 .rc 0xFFFFFFFF /- DELAY_MAX -/,
   reg 0x24 64 0x40 0x0 .ro 0xFFFFFFFF /- SNAP_DEPTH -/,
   reg 0x28 64 0x40 0x0 .ro 0xFFFFFFFF /- SNAP_DELAY -/,
   reg 0x2C 64 0x40 0x0 .ro 0xFFFFFFFF /- TX_PKTS -/] ++
  [reg 0x30 64 0x40 0x0 .rc 0xFFFFFFFF /- DROP_LIMIT -/,
   reg 0x34 64 0x40 0x0 .rc 0xFFFFFFFF /- DROP_RED -/,
   reg 0x38 64 0x40 0x0 .rc 0xFFFFFFFF /- DROP_LATE -/]

/-- The registers of the PCIE page map (R737). -/
def regsPcie : List RegDef :=
  [reg 0x100 1 0x0 0x0 .rw 0xFFFFFFFF /- INWIN_BASE_LO -/,
   reg 0x104 1 0x0 0x10 .rw 0xFFFF /- INWIN_BASE_HI -/,
   reg 0x110 4 0x4 0x0 .wo 0xFFFFFFFF /- TOKEN_IN -/,
   reg 0x120 4 0x4 0x0 .wo 0xFFFFFFFF /- TOKEN_DONE -/,
   reg 0x200 8 0x40 0x0 .rw 0xFFFFFFFF /- D2H_BASE_LO -/,
   reg 0x204 8 0x40 0x0 .rw 0xFFFFFFFF /- D2H_BASE_HI -/,
   reg 0x208 8 0x40 0x8 .rw 0xF /- D2H_SIZE -/,
   reg 0x20C 8 0x40 0x0 .ro 0xFFF /- D2H_HEAD -/,
   reg 0x210 8 0x40 0x0 .rw 0xFFF /- D2H_TAIL -/,
   reg 0x214 8 0x40 0x0 .rw 0xFFFFFFFF /- H2D_BASE_LO -/,
   reg 0x218 8 0x40 0x0 .rw 0xFFFFFFFF /- H2D_BASE_HI -/,
   reg 0x21C 8 0x40 0x8 .rw 0xF /- H2D_SIZE -/] ++
  [reg 0x220 8 0x40 0x0 .ro 0xFFF /- H2D_HEAD -/,
   reg 0x224 8 0x40 0x0 .rw 0xFFF /- H2D_TAIL -/,
   reg 0x228 8 0x40 0x0 .rw 0xFF /- RING_MSIX -/]

/-- The registers of the TIME page map (R763). -/
def regsTime : List RegDef :=
  [reg 0x100 1 0x0 0x0 .ro 0xFFFFFFFF /- NOW_SEC_LO -/,
   reg 0x104 1 0x0 0x0 .ro 0xFFFFFFFF /- NOW_SEC_HI -/,
   reg 0x108 1 0x0 0x0 .ro 0x3FFFFFFF /- NOW_NS -/,
   reg 0x10C 1 0x0 0x0 .ro 0xFFFF /- NOW_FRAC -/,
   reg 0x110 1 0x0 0x0 .ro 0xFFFFFFFF /- NOW_SLICE -/,
   reg 0x114 1 0x0 0x0 .ro 0xFFFFFFFF /- FREE_LO -/,
   reg 0x118 1 0x0 0x0 .ro 0xFFFFFFFF /- FREE_HI -/,
   reg 0x11C 1 0x0 0x46AAAAB .rw 0xFFFFFFFF /- INCR_LO -/,
   reg 0x120 1 0x0 0x1 .rw 0xF /- INCR_HI -/,
   reg 0x124 1 0x0 0x0 .wo 0xFFFFFFFF /- ADJ_NS -/,
   reg 0x128 1 0x0 0x0 .rw 0xFFFFFFFF /- SET_SEC_LO -/,
   reg 0x12C 1 0x0 0x0 .rw 0xFFFFFFFF /- SET_SEC_HI -/] ++
  [reg 0x130 1 0x0 0x0 .rw 0x3FFFFFFF /- SET_NS -/,
   reg 0x134 1 0x0 0x0 .wo 0x1 /- SET_CMD -/,
   reg 0x140 1 0x0 0x0 .rw 0x7F /- SNAP_SEL -/,
   reg 0x144 1 0x0 0x0 .rw 0xC000FFFF /- PPS_IN_CFG -/,
   reg 0x148 1 0x0 0x0 .ro 0xFFFFFFFF /- PPS_IN_SEC -/,
   reg 0x14C 1 0x0 0x0 .ro 0x3FFFFFFF /- PPS_IN_NS -/,
   reg 0x150 1 0x0 0x186A0 .rw 0x800FFFFF /- PPS_OUT_CFG -/,
   reg 0x154 1 0x0 0x0 .rw 0xFFFFFFFF /- PPS_OUT_OFF -/,
   reg 0x158 1 0x0 0x0 .w1c 0xFFFFFFFF /- TC_FIRED_LO -/,
   reg 0x15C 1 0x0 0x0 .w1c 0xFFFFFFFF /- TC_FIRED_HI -/,
   reg 0x180 32 0x4 0x0 .rw 0xFFFFFFFF /- PORT_DLY -/]

/-- The registers of the TCMP page map (R764). -/
def regsTcmp : List RegDef :=
  [reg 0x0 64 0x40 0x0 .rw 0xC300000F /- TC_CTRL -/,
   reg 0x4 64 0x40 0x0 .rw 0xFFFFFFFF /- TC_TARGET -/,
   reg 0x8 64 0x40 0x0 .rw 0xFFFFFFFF /- TC_PERIOD -/,
   reg 0xC 64 0x40 0x0 .rw 0xFFFF /- TC_PERIOD_FRAC -/,
   reg 0x10 64 0x40 0x0 .rw 0xFFFFC003 /- TC_TOKEN -/,
   reg 0x14 64 0x40 0x0 .rw 0xFFFF0FFF /- TC_INST -/,
   reg 0x18 64 0x40 0x0 .rc 0xFFFF /- TC_SKIP -/,
   reg 0x1C 64 0x40 0x0 .ro 0xFFFFFFFF /- TC_FIRES -/]

/-- The registers of the PWRC page map (R802). -/
def regsPwrc : List RegDef :=
  [reg 0x100 1 0x0 0x0 .ro 0xFF07 /- ACTIVE -/,
   reg 0x200 16 0x20 0xFFFFFFFF .rw 0xFFFFFFFF /- GRP_LIST0 -/,
   reg 0x204 16 0x20 0xFFFFFFFF .rw 0xFFFFFFFF /- GRP_LIST1 -/,
   reg 0x208 16 0x20 0xFFFFFFFF .rw 0xFFFFFFFF /- GRP_LIST2 -/,
   reg 0x20C 16 0x20 0xFFFFFFFF .rw 0xFFFFFFFF /- GRP_LIST3 -/,
   reg 0x210 16 0x20 0x0 .wo 0x33 /- GRP_REQ -/,
   reg 0x214 16 0x20 0x0 .ro 0xC30F00FF /- GRP_STS -/,
   reg 0x400 48 0x20 0x0 .wo 0x33 /- PD_REQ -/,
   reg 0x404 48 0x20 0x22 .ro 0xF0001333 /- PD_STS -/,
   reg 0x408 48 0x20 0x60000000 .rw 0xE000FFFF /- PD_CFG -/,
   reg 0x40C 48 0x20 0xFFFFFFFF .rw 0xFFFFFFFF /- RET_MASK_LO -/,
   reg 0x410 48 0x20 0x1FFFFFFF .rw 0x1FFFFFFF /- RET_MASK_HI -/] ++
  [reg 0x414 48 0x20 0x0 .ro 0xFFFFFFFF /- LAST_T -/,
   reg 0x418 48 0x20 0x0 .ro 0xFFFFFFFF /- WAKES -/]

/-- The registers of the CLKC page map (R803). -/
def regsClkc : List RegDef :=
  [reg 0x100 16 0x4 0x10 .rw 0x1F /- CD_FREQ -/,
   reg 0x140 16 0x4 0x1010 .ro 0x811F1F1F /- CD_STS -/,
   reg 0x180 1 0x0 0x0 .ro 0x3FFFFFFF /- PLL_STS -/,
   reg 0x184 1 0x0 0x0 .ro 0x3FFFF /- AVS_STS -/,
   reg 0x188 1 0x0 0x32 .rw 0xFFFF /- AVS_CFG -/,
   reg 0x18C 3 0x4 0x0 .ro 0xFFFF /- VF_FUSE -/,
   reg 0x1A0 1 0x0 0x1 .rw 0x1 /- SMP_CFG -/,
   reg 0x1A4 1 0x0 0x0 .ro 0x3 /- SMP_STS -/]

/-- The registers of the EVTC page map (R824). -/
def regsEvtc : List RegDef :=
  [reg 0x100 1 0x0 0x0 .rw 0x7FF /- SRC_SEL -/,
   reg 0x104 1 0x0 0x0 .rw 0xFFFFFFFF /- SRC_ROUTE -/,
   reg 0x108 1 0x0 0x0 .ro 0x8000FFFF /- SRC_STS -/,
   reg 0x10C 1 0x0 0x0 .rw 0xFF /- TOK_SEL -/,
   reg 0x110 1 0x0 0x0 .rw 0xFFFFFFFF /- TOK_ROUTE_LO -/,
   reg 0x114 1 0x0 0x0 .rw 0xC003 /- TOK_ROUTE_HI -/,
   reg 0x118 1 0x0 0x3E8 .rw 0xFFFF /- ECHO_WIN -/,
   reg 0x11C 1 0x0 0x0 .rw 0x3FF /- ECHO_SEL -/,
   reg 0x120 1 0x0 0x0 .ro 0x83FFFFFF /- ECHO_STS -/,
   reg 0x124 1 0x0 0x0 .ro 0x7F /- RPT_COUNT -/,
   reg 0x128 1 0x0 0x0 .ro 0x3FF03FF /- RPT0 -/,
   reg 0x12C 1 0x0 0x0 .ro 0xFFFFFFFF /- RPT1 -/] ++
  [reg 0x130 1 0x0 0x0 .ro 0xFFFFFFFF /- RPT2 -/,
   reg 0x134 1 0x0 0x0 .ro 0xFFFFFFFF /- RPT3 -/,
   reg 0x138 1 0x0 0x0 .ro 0xFFFFFFFF /- RPT4 -/,
   reg 0x13C 1 0x0 0x0 .wo 0x1 /- RPT_POP -/,
   reg 0x140 1 0x0 0x0 .wo 0xFF /- MSIX_ACK -/,
   reg 0x144 1 0x0 0x80000064 .rw 0xC0FFFFFF /- FATAL_CFG -/,
   reg 0x148 1 0x0 0x0 .ro 0xCF0003FF /- FATAL_STS -/]

/-- The registers of the BOOT page map (R853). -/
def regsBoot : List RegDef :=
  [reg 0x100 1 0x0 0x0 .ro 0x1F /- RESET_CAUSE -/,
   reg 0x104 1 0x0 0x0 .wo 0xFFFF0001 /- RST_CMD -/,
   reg 0x108 1 0x0 0x0 .ro 0x8F03FFFF /- BOOT_STS -/,
   reg 0x10C 1 0x0 0x2710 .rw 0x8000FFFF /- WDOG_CFG -/,
   reg 0x110 1 0x0 0x0 .wo 0xFFFF /- WDOG_KICK -/,
   reg 0x114 1 0x0 0x0 .ro 0x13 /- BOOT_SRC -/,
   reg 0x118 1 0x0 0x0 .rw 0x1FF /- BIST_SEL -/,
   reg 0x11C 1 0x0 0x0 .ro 0x8000FFFF /- BIST_RES -/,
   reg 0x120 1 0x0 0x0 .rw 0xFFFFFFFF /- FL_ADDR -/,
   reg 0x124 1 0x0 0x0 .rw 0xFFFFFFFF /- FL_BUF_LO -/,
   reg 0x128 1 0x0 0x10 .rw 0xFFFF /- FL_BUF_HI -/,
   reg 0x12C 1 0x0 0x0 .rw 0xFFFFFFFF /- FL_LEN -/] ++
  [reg 0x130 1 0x0 0x0 .wo 0x3 /- FL_CMD -/,
   reg 0x134 1 0x0 0x0 .ro 0xF0000000 /- FL_STS -/,
   reg 0x138 1 0x0 0x0 .wo 0x3 /- CFG_CMD -/,
   reg 0x13C 1 0x0 0x0 .rw 0xFFFFFFFF /- CFG_LEN -/,
   reg 0x140 1 0x0 0x0 .ro 0xC000000F /- CFG_STS -/,
   reg 0x144 1 0x0 0x0 .rw 0xFFFFFFFF /- PCIE_LEN -/,
   reg 0x148 1 0x0 0x0 .wo 0x1 /- PCIE_GO -/]

/-- The registers of the SECMB page map (R854). -/
def regsSecmb : List RegDef :=
  [reg 0x100 2 0x40 0x0 .wo 0xFF /- MB_CMD -/,
   reg 0x104 2 0x40 0x0 .rw 0xFFFFFFFF /- MB_ARG0_LO -/,
   reg 0x108 2 0x40 0x0 .rw 0xFFFF /- MB_ARG0_HI -/,
   reg 0x10C 2 0x40 0x0 .rw 0xFFFFFFFF /- MB_ARG1 -/,
   reg 0x110 2 0x40 0x0 .rw 0xFFFFFFFF /- MB_OUT_LO -/,
   reg 0x114 2 0x40 0x0 .rw 0xFFFF /- MB_OUT_HI -/,
   reg 0x118 2 0x40 0x0 .ro 0xC0000FFF /- MB_STS -/]

/-- The registers of the PMBUS page map (R860). -/
def regsPmbus : List RegDef :=
  [reg 0x100 1 0x0 0x140 .rwl 0x17F /- PMB_CFG -/,
   reg 0x104 1 0x0 0x320028A .rwl 0xFFFFFFFF /- PMB_VLIM -/,
   reg 0x108 1 0x0 0x0 .ro 0x8003FFFF /- PMB_STS -/,
   reg 0x10C 1 0x0 0x0 .ro 0xFF /- PMB_MODE -/]

/-- The registers of the GPIO page map (R873). -/
def regsGpio : List RegDef :=
  [reg 0x100 1 0x0 0x0 .rw 0xFFFFFFFF /- GPIO_OUT -/,
   reg 0x104 1 0x0 0x0 .rw 0xFFFFFFFF /- GPIO_OE -/,
   reg 0x108 1 0x0 0x0 .ro 0xFFFFFFFF /- GPIO_IN -/,
   reg 0x10C 1 0x0 0x0 .rw 0xFFFFFFFF /- GPIO_RISE -/,
   reg 0x110 1 0x0 0x0 .rw 0xFFFFFFFF /- GPIO_FALL -/,
   reg 0x114 1 0x0 0x0 .w1c 0xFFFFFFFF /- GPIO_EDGE -/,
   reg 0x118 1 0x0 0xAA .rw 0xFF /- PAD_DRV -/]

/-- The block-specific registers of a page. -/
def kindRegs : Kind → List RegDef
  | .devinfo => regsDevinfo | .evtc => regsEvtc | .disp => regsDisp | .time => regsTime | .pwrc => regsPwrc
  | .clkc => regsClkc | .mring => regsMring | .pcie => regsPcie | .pkt => regsPkt | .tm => regsTm
  | .cuw => regsCuw | .prism => regsPrism ++ regsTap | .secmb => regsSecmb | .boot => regsBoot
  | .gpio => regsGpio | .pmbus => regsPmbus | .cluster => regsCluster | .mxc => regsMxc | .core => regsCore
  | .svc => regsCore | .dfe => regsDfe | .ofdm => regsOfdm | .fec => regsFec | .dma => regsDma
  | .dramc => regsDramc | .ssram => regsSsram | .rtr => regsRtr ++ [reg 0x800 512 4 0 .ro 0xFFFFFFFF]
  | .xlane => regsXlane ++ regsLane | .xspare => regsXspare ++ regsLane | .nlane => regsLane | .plane => regsLane
  | .klane => regsLane | .dmach => regsDmach | .tmq => regsTmq | .tcmp => regsTcmp | .det => regsDet
  | .post => [reg 0 16 4 0 .wo 0xFFFFFFFF, reg 0x100 16 4 0 .wo 0xFFFFFFFF, reg 0x200 16 4 0 .wo 0xFFFFFFFF,
      reg 0x300 16 4 0 .wo 0xFFFFFFFF]

/-- Whether offset `off` is one of a line's registers. -/
def RegDef.covers (d : RegDef) (off : Nat) : Bool :=
  d.off ≤ off && (if d.step = 0 then off = d.off else (off - d.off) % d.step = 0 && (off - d.off) / d.step < d.n)

/-- The page-map line of the register at offset `off` of page `p`, if there is one. -/
def findReg (p off : Nat) : Option RegDef :=
  match pageKind p with
  | none => none
  | some k =>
    if p = 0x00B ∧ off = 0x00C then some ⟨0x00C, 1, 0, 0, .rwl, 0xF01, .ro, 0⟩ /- HA_TAPS (R382) -/
    else if p < 0x200 && off < 0x100 then regsHdr.find? (·.covers off) else (kindRegs k).find? (·.covers off)

/-- The reset value of a register (R10), by page and offset; 0 where the page map gives a fused value, which
the reads take from the fuses. [PRESUMED, log 12] -/
def regReset (p off : Nat) : Word :=
  match findReg p off with
  | some d => BitVec.ofNat 32 d.reset
  | none => 0

end Sys2Proof.Machine
end

