-- ==== Sys2Proof/Config.lean ====
section
/-! DEFINITION. What one device fixes and the spec leaves open: the fused values, and the free values. A free
value has no body, so nothing can be proved of it but what holds of every value. -/

namespace Sys2Proof

/-- The fused values of a die: its identity and shipment map (R51, R412), the operating-point voltages (R803),
the boot fuses and the device secret (R830–R838), the fused row repairs (R636), and words 18–44 of the mirror-map record as
shipped (R409). -/
structure Fuses where
  dieId : Dword
  shipMapVer : Word
  coreMap : List Word
  vf : List Word
  /-- row repairs: page × 256 + array, row. -/
  repairs : List (Nat × Nat)
  keys : List (BitVec 384)
  revoked : BitVec 4
  debugKey : BitVec 384
  debugState : BitVec 2
  bootLock : Bool
  svn : Nat
  uds : BitVec 256
  spares : List Word
  deriving DecidableEq, Repr, Inhabited

/-- The phases of a list of bins in turns, as a continuous line over the bins, which the fit of R391 takes: an arctangent and an
unwrapping that the spec does not state. [DESIGN CHOICE, log 154] -/
opaque Config.binPhases : List (Rat × Rat) → List Rat

/-- The fuses of the die that the model describes. -/
opaque Config.fuses : Fuses

/-- The free values of width `w`: the `n`-th value that the spec leaves open and the machine goes on with.
[DESIGN CHOICE, log 10] -/
opaque Config.free (w : Nat) : Nat → BitVec w

/-- The PAYLOAD of a cancel token, and of the error tokens of a lost store word (R107, R147), which the spec does not state: of
template, instance and FREE count. [DESIGN CHOICE, log 134] -/
opaque Config.deadPayload : Nat → Nat → Nat → BitVec 64

/-- A quotient by 0, which the spec does not state. [DEDUCED, log 48] -/
opaque Config.divZero : Rat → Rat

/-- The taps of a half-band stage, the first at the carrier's end (R191): free, within `Machine.rateFigures`.
[DESIGN CHOICE, log 37] -/
opaque Config.halfBand (stage : Nat) : List Rat

/-- The taps of the resampler at three times its lower rate's fourth part (R191), likewise. [DESIGN CHOICE, log 37] -/
opaque Config.resampler : List Rat

/-- The taps that delay by a fraction of a lane-side sample, in parts of 4,096 (R215); the spec states no filter.
[DESIGN CHOICE, log 37] -/
opaque Config.fracDelay (frac : Nat) : List Rat

/-- A cancellation pulse away from its centre, where it is 1 (R196): of slots' CS_FREQ, CS_CONF and filters.
[DESIGN CHOICE, log 37] -/
opaque Config.cfrPulse (slots : List (BitVec 32 × BitVec 32 × List (BitVec 32))) (n : Int) : Rat × Rat

/-- How many samples a cancellation pulse reaches to each side. [DESIGN CHOICE, log 37] -/
opaque Config.cfrReach : Nat

/-- A sample that the spec calls wrong (R168, R174): quad, stream slot, lane sample. [DESIGN CHOICE, log 37] -/
opaque Config.wrongSample (quad slot : Nat) (n : Int) : BitVec 32

/-- The bins of the channelizer's prototype filter (R344): its 4N taps for 2^n bins. [DESIGN CHOICE, log 37] -/
opaque Config.prototype (n : Nat) : List Rat

/-- The number of inputs of a grid whose descriptor does not name it: block, descriptor. [DESIGN CHOICE, log 9] -/
opaque Config.gridInputs (block : Nat) (desc : List (BitVec 32)) : Nat

/-- The phase, in parts of 8, of the shortest sequences of low peak-to-average power (R252): TS 36.211 or TS 38.211, group,
length, element. Their tables are not in the spec. [DESIGN CHOICE, log 9] -/
opaque Config.lowPaprPhase (lte : Bool) (u len n : Nat) : Nat

/-- What a PRACH configuration record gives beside FORMAT (R272): the first root's logical index, roots, N_CS, the
restricted-set flag, the frequency start in PRB, THR. -/
structure PrachConf where
  root : Nat
  roots : Nat
  ncs : Nat
  restricted : Bool
  prb : Nat
  thr : BitVec 16
  deriving DecidableEq, Repr, Inhabited

/-- What the words of a PRACH configuration record say; the spec does not give their places. [DESIGN CHOICE, log 9] -/
opaque Config.prachConf : List (BitVec 32) → PrachConf

/-- A base graph (R298): of base graph 0 or 1 and set index, each row's block columns with their shift values. The tables are TS
38.212's and not in the spec. [DESIGN CHOICE, log 9] -/
opaque Config.baseGraph (bg set : Nat) : List (List (Nat × Nat))

/-- What a check node of the polar decoder makes of two soft values (R308); the spec does not say how. [DESIGN CHOICE, log 9] -/
opaque Config.polarCheck : Rat → Rat → Rat

/-- What a bit adds to a path's metric, of its soft value (R308); the spec does not say. [DESIGN CHOICE, log 9] -/
opaque Config.polarCost : Rat → Bool → Rat

/-- METRIC (R308, R309) of CODE, the path's metric or the word's correlation, and the soft values; the spec states no scale.
[DESIGN CHOICE, log 9] -/
opaque Config.polarMetric (code : Nat) (m : Rat) (llrs : List Int) : BitVec 16

/-- A capture's sample that is older than its detector's history (R363): detector, sample number. [DESIGN CHOICE, log 53] -/
opaque Config.noHistory (det : Nat) (n : Int) : BitVec 32

/-- SHA-384 (R834, R835). [DESIGN CHOICE, log 9] -/
opaque Config.sha384 : List (BitVec 8) → BitVec 384

/-- ECDSA P-384 verification (R835): public key, hash, signature. [DESIGN CHOICE, log 9] -/
opaque Config.ecdsaVerify : List (BitVec 8) → BitVec 384 → List (BitVec 8) → Bool

/-- The public keys derived from UDS (R837): 0 the device identity key, 1 the device calibration key; 96 bytes.
[DESIGN CHOICE, log 9] -/
opaque Config.devPub (uds : BitVec 256) (key : Nat) : List (BitVec 8)

/-- The 96 bytes of a signature with one of those keys. [DESIGN CHOICE, log 9] -/
opaque Config.devSign (uds : BitVec 256) (key : Nat) : BitVec 384 → List (BitVec 8)

/-- What the device's own steps take from the body of a configuration set, whose format the spec does not give: for
each PHY instance whether its PHY-API path is PCIe (R29), the accept and indication advances in ns (R722), MEM_CFG
(R848), for each PHY instance its slot-graph instances (R849), the register presets as (page, offset, index, value), the
entries of the slot tables as (router, output, slot, value), and the slot graphs as bytes at addresses (R845). -/
structure CfgSet where
  pcie : List Bool
  accept : Nat
  indicate : Nat
  memCfg : BitVec 32
  insts : List (List Nat)
  presets : List (Nat × Nat × Nat × Word)
  slots : List (Nat × Nat × Nat × Word)
  graphs : List (Nat × List (BitVec 8))
  deriving DecidableEq, Repr, Inhabited

/-- What a configuration set's body says. [DESIGN CHOICE, log 128] -/
opaque Config.cfgSet : List (BitVec 8) → CfgSet

/-- A message of an eCPRI frame (R709): concatenation and header stripped; type, PC_ID, body. -/
structure EcpriMsg where
  typ : Nat
  pcId : BitVec 16
  body : List (BitVec 8)
  deriving DecidableEq, Repr, Inhabited

/-- The messages that the payload of an eCPRI frame holds; the spec does not give eCPRI's header. [PRESUMED, log 100] -/
opaque Config.ecpri : List (BitVec 8) → List EcpriMsg

/-- An O-RAN section (R710–R716) as the engine reads it: first PRB and PRBs; compression method and width with, for
each PRB, its exponent and its 24 mantissas (U-plane); section type, beamId, extensions, the code of its PRB
groups' size, the weights that an extension carries for each of them, the beams of extension 10 (C-plane). -/
structure OranSection where
  typ : Nat
  first : Nat
  count : Nat
  meth : Nat
  width : Nat
  prbs : List (Nat × List Int)
  beam : Nat
  exts : List Nat
  gsize : Nat
  weights : List (List (BitVec 32))
  beams : List Nat
  deriving DecidableEq, Repr, Inhabited

/-- An O-RAN message: direction (0 uplink, 1 downlink), timing fields, the symbols it covers, its sections. -/
structure OranMsg where
  dir : Nat
  frame : Nat
  subframe : Nat
  slot : Nat
  sym : Nat
  nsym : Nat
  sections : List OranSection
  deriving DecidableEq, Repr, Inhabited

/-- The O-RAN content of an eCPRI message (R710): type 0 U-plane or 2 C-plane, the flow context's compression word,
body. The spec does not give O-RAN's layout. [PRESUMED, log 100] -/
opaque Config.oran : Nat → BitVec 32 → List (BitVec 8) → OranMsg

/-- A U-plane frame as R718 builds it: flow context, PC_ID, the job's word 7, symbol, sectionId, first PRB,
and for each PRB its exponent and mantissas. [PRESUMED, log 100] -/
opaque Config.uFrame (flow : List (BitVec 32)) (pcId : Nat) (hdr : BitVec 32) (sym sect first : Nat) :
  List (Nat × List Int) → List (BitVec 8)

/-- The bytes of a U-plane frame before its PRBs. [PRESUMED, log 100] -/
opaque Config.uHeader (flow : List (BitVec 32)) : Nat

/-- A C-plane frame as R717 builds it: flow context, the job's word 7, the sections' bytes, the weight set of
extension 11. [PRESUMED, log 100] -/
opaque Config.cFrame (flow : List (BitVec 32)) (hdr : BitVec 32) : List (BitVec 8) → List (BitVec 32) → List (BitVec 8)

/-- The frame of an H2D FRAME entry's bytes, whose length the spec does not give. [DESIGN CHOICE, log 104] -/
opaque Config.h2dFrame : List (BitVec 32) → List (BitVec 8)

/-- The host work ring of a PHY instance's messages; the spec does not name it. [DESIGN CHOICE, log 105] -/
opaque Config.fapiRing : Nat → Nat

/-- The words of a PHY-API message: kind, PHY instance, number. [DESIGN CHOICE, log 105] -/
opaque Config.fapiBody : Nat → Nat → Int → List (BitVec 32)

/-- CS_LAT of a carrier slot (R194): its CS_CONF and the coefficients of its bank. [DESIGN CHOICE, log 9] -/
opaque Config.csLat : BitVec 32 → List (BitVec 32) → BitVec 32

/-- The bytes of an ISAVE area that hold no register (R471): of the core's cycle count and the byte.
[DESIGN CHOICE, log 67] -/
opaque Config.savePad (cycle byte : Nat) : BitVec 8

/-- The estimates of RCPE (0) and RSQE (1), of which R489 bounds the relative error. [DEDUCED, log 76] -/
opaque Config.f32Est : Nat → BitVec 32 → BitVec 32

/-- The C16 part that a result which is no number gives (R529). [DESIGN CHOICE, log 81] -/
opaque Config.nan16 : BitVec 16

/-- The station of the maintenance ring that serves a page (R585); the spec numbers 64 and does not place them.
[DESIGN CHOICE, log 83] -/
opaque Config.ringStation (page : Nat) : Nat

/-- SRC_ID of a packet (R558): the initiator within the source block, by its page and DMA channel. [DESIGN CHOICE, log 83] -/
opaque Config.srcId (page chan : Nat) : BitVec 8

/-- The operations of the scalar ALU class (R425). -/
inductive AluFn where
  | add
  | sub
  | logic (k : Nat)
  | shift (k : Nat)
  | compare (k : Nat)
  | min
  | max
  | saturate (k : Nat)
  deriving DecidableEq, Repr

/-- The FUNC of add, which the spec does not give. [DESIGN CHOICE, log 58] -/
opaque Config.aluAdd : BitVec 11

/-- The operation that another FUNC of an ALU register word names; none is a reserved encoding. [DESIGN CHOICE, log 58] -/
opaque Config.aluOther : BitVec 11 → Option AluFn

/-- The operation that FUNC of an ALU register word names; none is a reserved encoding. The spec gives no encodings.
[DESIGN CHOICE, log 58] -/
def Config.aluFunc (f : BitVec 11) : Option AluFn := if f = Config.aluAdd then some .add else Config.aluOther f

/-- The result of an ALU operation other than add and sub, of which the spec states no value. [DESIGN CHOICE, log 58] -/
opaque Config.aluValue : AluFn → BitVec 32 → BitVec 32 → BitVec 32

/-- The result of an ALU immediate word (R425): RA's value, IMM16. Its format has no FUNC, and the spec names no operation.
[DESIGN CHOICE, log 58] -/
opaque Config.aluImm : BitVec 32 → BitVec 16 → BitVec 32

/-- The operations of the multiply class (R425): 32 × 32, multiply-add, dual 16 × 16. -/
inductive MulFn where
  | mul
  | mac
  | dual
  deriving DecidableEq, Repr

/-- The FUNC of the 32 × 32 multiply, which the spec does not give. [DESIGN CHOICE, log 58] -/
opaque Config.mulCode : BitVec 11

/-- The operation that another FUNC of a multiply word names; none is a reserved encoding. [DESIGN CHOICE, log 58] -/
opaque Config.mulOther : BitVec 11 → Option MulFn

/-- The operation that FUNC of a multiply word names; none is a reserved encoding. [DESIGN CHOICE, log 58] -/
def Config.mulFunc (f : BitVec 11) : Option MulFn := if f = Config.mulCode then some .mul else Config.mulOther f

/-- The result of a multiply: RA, RB and the old RD. The spec does not say which bits of the product RD takes.
[DESIGN CHOICE, log 58] -/
opaque Config.mulValue : MulFn → BitVec 32 → BitVec 32 → BitVec 32 → BitVec 32

/-- An address-arithmetic word (R425): destination and source A register; the D register added, or none for IMM16. -/
structure AddrOp where
  dst : Fin 16
  src : Fin 16
  byReg : Option (Fin 32)
  deriving DecidableEq, Repr, Inhabited

/-- What bits [25:16] of an address-arithmetic word name; the spec does not say how the two forms are told apart.
[DESIGN CHOICE, log 58] -/
opaque Config.addrOp : BitVec 26 → AddrOp

/-- A load of 1 or 2 bytes extends the sign: by SZ. The spec does not say which. [DESIGN CHOICE, log 61] -/
opaque Config.loadSigned : Nat → Bool

/-- A jump word (R425): a jump or call by DISP, or through an A register; the register that a call links. -/
structure JumpOp where
  through : Option (Fin 16)
  link : Option (Fin 16)
  deriving DecidableEq, Repr, Inhabited

/-- The packets beyond one that the queue of a router's input holds per TC (R564); the spec gives no depth.
[DESIGN CHOICE, log 82] -/
opaque Config.queueDepth (router input tc : Nat) : Nat

/-- The word of a jump by DISP, which the spec does not give. [DESIGN CHOICE, log 58] -/
opaque Config.jumpCode : BitVec 26

/-- What another jump word says; none is a reserved encoding. [DESIGN CHOICE, log 58] -/
opaque Config.jumpOther : BitVec 26 → Option JumpOp

/-- What a jump word says; none is a reserved encoding. The spec does not give the encodings of the three.
[DESIGN CHOICE, log 58] -/
def Config.jumpOp (w : BitVec 26) : Option JumpOp :=
  if w = Config.jumpCode then some ⟨none, none⟩ else Config.jumpOther w

/-- The return address that a call links, from the address of its bundle. [DESIGN CHOICE, log 58] -/
opaque Config.linkAddr : Nat → BitVec 64

end Sys2Proof
end

