-- ==== Sys2Proof/Machine/State.lean ====
section
/-! DEFINITION. The state of the LNX-4256, as plain data: everything the spec gives the device, and the
queue of commands that wait. The docstrings cite the rule that names each piece. -/

namespace Sys2Proof.Machine

/-- A map from numbers as a list of key and value pairs, in one canonical form: keys strictly rising, and
no entry equal to the value that an unlisted key reads as. The operations are in Ops.lean. -/
abbrev KMap (α : Type) := List (Nat × α)

/-- Why the machine stops. The block has no fault: an error of the device is captured in its registers and
the machine goes on. `none_` is raised by nothing (safe). -/
inductive Fault where
  /-- raised by nothing; safe, since it stops no run. -/
  | none_
  deriving DecidableEq, Repr

/-- Why a command has no meaning. -/
inductive Refusal where
  /-- an arm of the dispatch table whose meaning is not written; safe, since it proves nothing. -/
  | notModelled (mnemonic : String)
  deriving DecidableEq, Repr

/-- The RESP field of a response (R558). -/
inductive Resp where
  | ok
  | decode
  | poison
  | timeout
  | target
  deriving DecidableEq, Repr

/-- How the endpoint completes a host's read (R892): successfully, with Unsupported Request or Completer Abort status, or
successfully with the EP bit set. -/
inductive Completion where
  | success
  | unsupported
  | abort
  | poisoned
  deriving DecidableEq, Repr

/-- What the last completed read gave its reader: RESP and the bytes, and for the host the completion (R892). -/
structure RdOut where
  who : Initiator
  resp : Resp
  data : List Byte
  cpl : Option Completion
  deriving DecidableEq, Repr

/-- An instance's STATE (R122). -/
inductive InstState where
  | free
  | open_
  | closing
  | failed
  deriving DecidableEq, Repr

/-- One row of the instance table. -/
structure InstRec where
  st : InstState
  peak : Nat
  outstanding : Nat
  deriving DecidableEq, Repr

/-- An instance that is not open. -/
def InstRec.init : InstRec := ⟨.free, 0, 0⟩

/-- How an entry stands (R102–R108). -/
inductive EntryPhase where
  | waiting
  | ready
  | fired
  | cancelled
  deriving DecidableEq, Repr

/-- What a port holds: the token's KIND and PAYLOAD. -/
structure PortVal where
  kind : BitVec 2
  payload : Dword
  deriving DecidableEq, Repr

/-- An entry of the matching store (R102): one operation's record. `first` is the port that made a RACE
ready, `since` the FREE count from which its age runs (R116), `seq` its place in the ready order (R114). -/
structure Entry where
  tmpl : Nat
  inst : Nat
  ports : List (Option PortVal)
  phase : EntryPhase
  race : Bool
  pool : Nat
  cls : Nat
  first : Nat
  since : Nat
  seq : Nat
  /-- the template's eight words. -/
  words : List Word
  /-- ports whose token came after the entry was ready and was absorbed. -/
  late : List Nat
  deriving DecidableEq, Repr

/-- A fire issued and not completed: the credit it holds (R113) and a pending cancel (R108). -/
structure OutFire where
  tmpl : Nat
  inst : Nat
  pool : Nat
  member : Nat
  chan : Nat
  cancel : Bool
  counted : Bool
  deriving DecidableEq, Repr

/-- A fire record posted in host-assisted mode and not issued (R152). -/
structure Posted where
  port : Nat
  cls : Nat
  since : Nat
  seq : Nat
  rec_ : FireRec
  deriving DecidableEq, Repr

/-- Where a packet waits on its way (R564): the queue of input `inp` of router `r` for its TC, its turn there, and the outputs
that it has crossed after the injection link. Router 7 stands for the port of its target. -/
structure QPos where
  r : Nat
  inp : Nat
  tc : Nat
  turn : Nat
  hop : Nat
  deriving DecidableEq, Repr

/-- A token in flight to the dispatcher: its leaf port and class (R138). -/
structure TokPkt where
  lp : Nat
  tc : Nat
  epoch : Nat
  /-- up to seven tokens with their classes (R561). -/
  toks : List (Token × Nat)
  at_ : Option QPos
  deriving DecidableEq, Repr

/-- A fire record in flight to a member's leaf port (R139). -/
structure FirePkt where
  lp : Nat
  cls0 : Bool
  epoch : Nat
  rec_ : FireRec
  at_ : Option QPos
  deriving DecidableEq, Repr

/-- The dispatcher (Slot Graphs and the Dispatcher). -/
structure DispSt where
  /-- the template cache (R94, R95): template number to its eight words. -/
  cache : List (Nat × List Word)
  /-- how many of the cached templates are pinned class-0 ones. -/
  pinned : Nat
  /-- a load of R94 in progress. -/
  loading : Bool
  /-- templates read for tokens that wait, at hand until none waits (R95). -/
  fetched : List (Nat × List Word)
  /-- tokens that wait for a template fetch (R95), with their classes and the store words that they meet. -/
  fetchQ : List (Token × Nat × Mark)
  insts : KMap InstRec
  entries : List Entry
  fires : List OutFire
  /-- the previous choice for each template (R112): member + 1, 0 for none. -/
  prev : KMap Nat
  /-- members whose MEMBER_CTL.EN is 0, as pool × 256 + member. -/
  disabled : List Nat
  /-- tokens held in the ingress queue of a stalled class (R124, R151). -/
  held : List (Token × Nat)
  /-- tokens that have reached the ingress and not the matching logic. -/
  ingress : List (Token × Nat)
  posted : List Posted
  /-- posts that the PCIe endpoint holds back while their port's queue is full (R153). -/
  postHeld : List Posted
  nextSeq : Nat
  occPeak : Nat
  /-- stopped for want of a majority (R145). -/
  stopped : Bool
  deriving DecidableEq, Repr

/-- The dispatcher after reset. [DESIGN CHOICE, log 133] -/
def DispSt.init : DispSt := ⟨[], 0, false, [], [], [], [], [], [], [], [], [], [], [], 0, 0, false⟩

/-- One quad's JESD204 link (R165–R178): lanes locked, consecutive good and bad blocks of each lane, lanes
declared down, whether SYSREF is armed, and whether the LEMC has been aligned since. `eb` holds each lane's elastic
buffer: the multiblocks not released, each with the lane sample at which it came, and its octets; `cur` the octets of the
multiblock that is being released, none where it had not come. `txMb` holds, for each lane, the octets framed since the
last LEMC edge (R170), and `txFrom` the lane sample from which the transmit link sends samples again (R178). -/
structure LinkSt where
  st : Nat
  lock : BitVec 4
  good : List Nat
  bad : List Nat
  down : BitVec 4
  armed : Bool
  aligned : Bool
  eb : List (List (Int × List Byte))
  cur : List (Option (List Byte))
  txMb : List (List Byte)
  txFrom : Option Int
  deriving DecidableEq, Repr

/-- A link in state DOWN. -/
def LinkSt.init : LinkSt :=
  ⟨0, 0, [0, 0, 0, 0], [0, 0, 0, 0], 0, false, false, [[], [], [], []], [some [], some [], some [], some []], [[], [], [], []], none⟩

/-- The LEMC of a DFE group: the lane sample of its epoch, that of the last SYSREF edge, and the lane sample up to which a
realignment leaves the group's samples wrong (R174). -/
structure LemcSt where
  epoch : Int
  edge : Option Int
  wrongTo : Int
  deriving DecidableEq, Repr

/-- An LEMC that has not been aligned. [DESIGN CHOICE, log 133] -/
def LemcSt.init : LemcSt := ⟨0, none, 0⟩

/-- A lane sample of a chain: its number since the LEMC epoch, the device time at the lane, the lane's own sample (Q1.15),
the sample after step 6 of a receive chain or step 7 of a transmit chain (Q3.17), and whether the chain routes it under
R185, or its PA group is inside its transmit interval. -/
structure ChSample where
  n : Int
  at_ : Int
  lane : BitVec 32
  out : Int × Int
  flag : Bool
  deriving DecidableEq, Repr

/-- One stage of crest-factor reduction (R196): the samples that have entered it, newest first, and the peaks that it
cancels: the number of the sample, and what is subtracted there. -/
structure CfrSt where
  buf : List (Int × Int)
  peaks : List (Int × Rat × Rat)
  deriving DecidableEq, Repr

/-- A carrier channel (R183): the inputs that each of its stages holds, newest first, and for a receive channel the carrier
stream, newest first, each sample with its time at the antenna reference plane. -/
structure ChanSt where
  stages : List (List (Int × Int))
  strm : List (Int × BitVec 32)
  deriving DecidableEq, Repr

/-- A carrier channel before its first sample. -/
def ChanSt.init : ChanSt := ⟨[], []⟩

/-- A chain: its samples, newest first; its delay line, newest first; its carrier channels; its CFR stages. -/
structure ChainSt where
  log : List ChSample
  line : List (Rat × Rat)
  chans : KMap ChanSt
  cfr : List CfrSt
  deriving DecidableEq, Repr

/-- A chain before its first sample. [DESIGN CHOICE, log 133] -/
def ChainSt.init : ChainSt := ⟨[], [], [], [⟨[], []⟩, ⟨[], []⟩]⟩

/-- What a cancellation pulse is built from (R196, R198): a slot that is on, its CS_FREQ, CS_CONF and filter. -/
structure PulseTerm where
  slot : Nat
  freq : BitVec 32
  conf : BitVec 32
  taps : List (BitVec 32)
  deriving DecidableEq, Repr

/-- One spare lane (R179–R182, R686–R688): SUB_STS, a swap or release ordered and not executed, the time of ARM. -/
structure SubSt where
  st : Nat
  swapping : Bool
  since : Nat
  deriving DecidableEq, Repr

/-- A spare lane that is free. -/
def SubSt.init : SubSt := ⟨0, false, 0⟩

/-- A ramp (R200, R209): up or down, the device time of its start at the antenna plane, its profile's length,
and the part of its curve it starts at, in parts of 2³². Times are in units of 2⁻³² ns. -/
structure Ramp where
  up : Bool
  at_ : Int
  len : Int
  frac : Int
  deriving DecidableEq, Repr

/-- A command that a DFE holds (R205): the fire (none for the fatal ramp-down of R820), what it does, the PA
groups or carrier slot it still has to do, T_sw, its profile. -/
structure DfeCmd where
  fire : Option FireRec
  op : Nat
  groups : BitVec 16
  slot : Nat
  dir : Nat
  chain : Nat
  tsw : Int
  prof : Nat
  started : BitVec 16
  finished : BitVec 16
  /-- PA groups in whose LAG a TX_ON arrived (R210). -/
  keep : BitVec 16
  deriving DecidableEq, Repr

/-- The transmit side of one PA group, or one carrier slot's channel: level at rest, ramp in progress. -/
structure EnvSt where
  high : Bool
  ramp : Option Ramp
  deriving DecidableEq, Repr

/-- Envelope 0, no ramp. -/
def EnvSt.init : EnvSt := ⟨false, none⟩

/-- A commit of a chain that is scheduled (R214): its apply time, and the fire to complete. -/
structure Sched where
  at_ : Int
  fire : Option FireRec
  deriving DecidableEq, Repr

/-- One DFE block. `lag` holds the device time from which PA_CTRL(g) or TDD_CTRL(16 + t) may fall. -/
structure DfeSt where
  cmds : List DfeCmd
  groups : KMap EnvSt
  tx : KMap EnvSt
  rxOn : BitVec 16
  pa : BitVec 16
  tdd : BitVec 4
  lag : KMap (Option Int)
  sched : List (Nat × Sched)
  mirror : BitVec 4
  coefs : KMap Word
  driven : Bool
  /-- CS_TX_GAIN in force (R189): slot × 8 + quad. -/
  gain : KMap Word
  /-- what the cancellation pulses in force are built from (R198). -/
  pulse : List PulseTerm
  deriving DecidableEq, Repr

/-- A DFE block after reset. [DESIGN CHOICE, log 40] -/
def DfeSt.init : DfeSt := ⟨[], [], [], 0, 0, 0, [], [], 0, [], false, [], []⟩

/-- Why an operation cannot go on: an uncorrectable operand, an argument that the block refuses, or another cause. -/
inductive OpErr where
  | ue (addr : Nat)
  | badArg
  | other (code : Nat)
  deriving DecidableEq, Repr

/-- A symbol that FFT_RX or IFFT_TX has transformed: its number, when, its finished rows (subcarriers or samples), the exact
combiner sums where they wait for C_SHIFT (R246, R249), C_SHIFT, the saturations of the transform and of the combiner. -/
structure SymGot where
  y : Nat
  at_ : Int
  rows : List (List Word)
  sums : List (List (Option (Rat × Rat)))
  shift : Nat
  sat : Nat
  csat : Nat
  deriving DecidableEq, Repr

/-- An operation that an OFDM block has accepted (R234–R238): its fire, the descriptor's address and words, the
mode it was accepted in, the smoothing taps it uses (R281), the slot it works on, the symbols that had left the
store (R240), the symbols whose partial sum from a peer block is missing (R250), the symbols that it has transformed, and why it
has been abandoned (R239). -/
structure OfdmOp where
  fire : FireRec
  kind : Nat
  desc : Nat
  words : List Word
  ha : Bool
  taps : List Word
  slot : Int
  missed : List Nat
  missing : List (Nat × Nat)
  got : List SymGot
  bad : Option OpErr
  deriving DecidableEq, Repr

/-- A symbol's partial sums that a peer block has sent to the home block (R249): carrier context, absolute
symbol, sender, and the sums in Q8.24, beam by beam. -/
structure Partial where
  ctx : Nat
  sym : Int
  sender : Nat
  sums : List (List (Int × Int))
  deriving DecidableEq, Repr

/-- A transmit symbol that an OFDM block has written to the DFE (R241): chain position, carrier slot, the time at which its
first sample leaves the antenna, the carrier rate in kHz, and its samples. -/
structure TxSym where
  chain : Nat
  slot : Nat
  at_ : Int
  rate : Nat
  xs : List (BitVec 32)
  deriving DecidableEq, Repr

/-- One OFDM block: operations, partial sums, and the transmit symbols written to the DFE. -/
structure OfdmSt where
  ops : List OfdmOp
  partials : List Partial
  tx : List TxSym
  deriving DecidableEq, Repr

/-- An OFDM block after reset. -/
def OfdmSt.init : OfdmSt := ⟨[], [], []⟩

/-- A work unit of a channel-coding operation (R286): how far it is (0 waiting, 1 running, 2 done), its engine,
its RESULT and ITER, and the payload bits it wrote. -/
structure FecUnit where
  ph : Nat
  eng : Nat
  res : Nat
  iter : Nat
  bits : List Bool
  waited : Bool
  deriving DecidableEq, Repr

/-- A unit that has not started. -/
def FecUnit.init : FecUnit := ⟨0, 0, 3, 0, [], false⟩

/-- An operation that a FEC block has accepted (R284–R289). -/
structure FecOp where
  fire : FireRec
  kind : Nat
  desc : Nat
  words : List Word
  ha : Bool
  units : List FecUnit
  /-- the HARQ process header's words 0–3 (R314), as read. -/
  hq : List Word
  err : Option (Nat × Nat)
  deriving DecidableEq, Repr

/-- What a channel has accumulated of one class in an integration (R346): frames, sums and maxima by bin. -/
structure ClsAcc where
  frames : Nat
  sum : List Rat
  peak : List Rat
  deriving DecidableEq, Repr

/-- Nothing accumulated. -/
def ClsAcc.init : ClsAcc := ⟨0, [], []⟩

/-- One channel's integration: receive, observe, mixed and idle frames, the error of R350, frames still to settle
(R339). -/
structure ChanAcc where
  rx : ClsAcc
  obs : ClsAcc
  mixed : Nat
  idle : Nat
  err : Bool
  settle : Nat
  deriving DecidableEq, Repr

/-- A channel at the start of an integration. -/
def ChanAcc.init : ChanAcc := ⟨ClsAcc.init, ClsAcc.init, 0, 0, false, 0⟩

/-- A stream's max-hold and noise floor (R346, R348, R349). -/
structure StrmSt where
  holdRx : List Rat
  holdObs : List Rat
  nf : List Rat
  nfCount : Nat
  deriving DecidableEq, Repr

/-- A stream at first use. -/
def StrmSt.init : StrmSt := ⟨[], [], [], 0⟩

/-- One tap: its configuration in force, its streams, rotation, and integration. -/
structure TapSt where
  cfg : Word
  mask : Dword
  set : Nat
  dwell : Nat
  ints : Nat
  /-- frames of the integration so far. -/
  frames : Nat
  /-- the lane sample from which the next frame starts, at the first multiple of N (R343). -/
  next : Int
  startAt : Int
  /-- the integration is over and its records are due. -/
  due : Bool
  /-- the integration is to close at the next frame boundary. -/
  closeReq : Bool
  dropped : Nat
  chans : KMap ChanAcc
  deriving DecidableEq, Repr

/-- A tap after reset: TAP_CFG's and TAP_SET0's reset values. [DESIGN CHOICE, log 133] -/
def TapSt.init : TapSt := ⟨0x00310A0C, 0xFFFFFFFF, 0, 0, 0, 0, 0, 0, false, false, 0, []⟩

/-- A capture that runs (R363–R370). Times are device times in units of 2⁻³² ns. -/
structure Capture where
  det : Nat
  seq : Nat
  metric : BitVec 16
  peak : Int
  /-- the number of the peak sample at the detector rate. -/
  peakNo : Int
  buf : Nat
  /-- P_n as frozen at the detection. -/
  bg : Rat
  forced : Bool
  confirming : Bool
  confLevel : BitVec 16
  shadowed : Nat
  fire : Option FireRec
  deriving DecidableEq, Repr

/-- A command of a slot graph that Prism holds (R375): opcode, apply time, masks still to serve, length in units of 2⁻³² ns. -/
structure PrismCmd where
  fire : FireRec
  op : Nat
  start : Int
  len : Nat
  mask : Nat
  deriving DecidableEq, Repr

/-- A detector-rate sample (R358): its number, the time of the lane sample that completes it, its value in Q1.15, whether it is of
the observe class. -/
structure DetSample where
  no : Int
  at_ : Int
  x : BitVec 32
  obs : Bool
  deriving DecidableEq, Repr

/-- A correlation run (R360): its first sample, and number, time and |c|² / (E_t × P_n) of its best one. -/
structure DetRun where
  first : Int
  best : Int
  at_ : Int
  ratio : Rat
  deriving DecidableEq, Repr

/-- A burst detector (R355–R361): the stages of its decimation, its samples (newest first), P_n and the samples that have entered
it, its run, the samples since it became active, whether it is active. -/
structure DetSt where
  stages : List (List (Int × Int))
  log : List DetSample
  pn : Rat
  count : Nat
  run : Option DetRun
  warm : Nat
  live : Bool
  deriving DecidableEq, Repr

/-- A detector after reset and when it is enabled. -/
def DetSt.init : DetSt := ⟨[], [], 0, 0, none, 0, false⟩

/-- A detection that a detector has declared (R360): the cycle, the detector, the peak's number and time, its metric, P_n. -/
structure DetFound where
  cyc : Nat
  det : Nat
  peakNo : Int
  peak : Int
  metric : BitVec 16
  bg : Rat
  deriving DecidableEq, Repr

/-- A channel that the host assists (R380): the stages of its decimation, and its samples since the last chunk, newest first. -/
structure HaChan where
  stages : List (List (Int × Int))
  buf : List DetSample
  deriving DecidableEq, Repr

/-- A channel that exports nothing yet. -/
def HaChan.init : HaChan := ⟨[], []⟩

/-- Prism. -/
structure PrismSt where
  taps : KMap TapSt
  strm : KMap StrmSt
  caps : List Capture
  /-- buffers not free: those of running captures and those that the host owns. -/
  held : List Nat
  cmds : List PrismCmd
  seq : Nat
  /-- the templates that enabled detectors hold (R355). -/
  tmpls : KMap (List Word)
  /-- chunks dropped since a channel's last entry (R381). -/
  gaps : KMap Nat
  /-- the detectors, the detections that they have declared, and the channels that the host assists. -/
  dets : KMap DetSt
  found : List DetFound
  has : KMap HaChan
  deriving DecidableEq, Repr

/-- Prism after reset. -/
def PrismSt.init : PrismSt := ⟨[], [], [], [], [], 0, [], [], [], [], []⟩

/-- A statistics engine that runs (R384–R388): target and reference chains, LAG, LEN, record address, start and the lane sample
that it starts at. -/
structure CalRun where
  target : Nat
  ref : Nat
  lag : Nat
  len : Nat
  out : Nat
  start : Int
  from_ : Int
  deriving DecidableEq, Repr

/-- What an in-flight result writes (R428): a data or address register in the bank it was issued in (index 32 + i
or 16 + i for the shadow bank), bits of a vector register, a predicate, lanes of an accumulator, or a control
register. -/
inductive Dest where
  | d (i : Nat) (v : Word)
  | a (i : Nat) (v : Dword)
  | v (i : Nat) (mask val : BitVec 512)
  | p (i : Nat) (v : Dword)
  | acAdd (i : Nat) (zero : List Nat) (add : List Int)
  | acBits (i : Nat) (mask val : BitVec 1536)
  | cr (i : Nat) (v : Word)
  deriving DecidableEq, Repr

/-- A result in flight: the issue cycle from which it is visible, and its slot. -/
structure Pend where
  due : Nat
  slot : Nat
  dest : Dest
  deriving DecidableEq, Repr

/-- An instruction of the bundle that is being put together: slot, slot word, parity error. -/
structure Staged where
  slot : Nat
  word : Word
  parity : Bool
  deriving DecidableEq, Repr

/-- A line of the data cache (R441), most recently used first in its list. `ue` marks an uncorrectable error. -/
structure Line where
  addr : Nat
  data : List Byte
  dirty : Bool
  ue : Bool
  deriving DecidableEq, Repr

/-- An entry of a core's write buffer (R441): a 64-byte line, and those of its bytes that are to be written. -/
structure WbEntry where
  addr : Nat
  data : List (Option Byte)
  deriving DecidableEq, Repr

/-- A fire slot that holds a record (R451, R452). -/
structure FireSlot where
  idx : Nat
  rec_ : FireRec
  current : Bool
  deriving DecidableEq, Repr

/-- How a core stands (R477). -/
inductive CoreRun where
  | reset
  | running
  | fwait
  | wait
  | halted
  | stopped
  deriving DecidableEq, Repr

/-- One Erdom core. Data registers 16–31, address registers 8–15 and offset registers 4–7 of the shadow bank are
under index + 32, + 16 and + 8. -/
structure CoreSt where
  run : CoreRun
  pc : Nat
  d : KMap Word
  a : KMap Dword
  m : KMap Word
  v : KMap (BitVec 512)
  p : KMap Dword
  ac : KMap (BitVec 1536)
  cr : KMap Word
  pend : List Pend
  /-- issue cycles, and issue and stall cycles, since reset. -/
  cyc : Nat
  total : Nat
  /-- delay bundles still due, and the target. -/
  bd : Nat
  bt : Nat
  staged : List Staged
  slots : List FireSlot
  werr : Option Nat
  lost : Option Nat
  cache : List Line
  /-- the write buffer (R441), the oldest entry first. -/
  wbuf : List WbEntry
  lastPc : Nat
  haltCause : Nat
  /-- a single step is ordered: the core halts again after its next bundle (R477). -/
  step : Bool
  deriving DecidableEq, Repr

/-- A core in reset (R422, R455). [DESIGN CHOICE, log 133] -/
def CoreSt.init : CoreSt :=
  ⟨.reset, 0, [], [], [], [], [], [], [], [], 0, 0, 0, 0, [], [], none, none, [], [], 0, 0, false⟩

/-- Whether an MXOP's bundle has resolved (R535). -/
inductive MxFate where
  | open_
  | commit
  | squash
  | committed
  deriving DecidableEq, Repr

/-- An operation that an MXC has accepted (R516): context and scoreboard bit, or a fire; descriptor, shape pair. -/
structure MxOp where
  ctx : Option Nat
  sb : Nat
  fire : Option FireRec
  desc : Nat
  shape0 : Word
  shape1 : Word
  fate : MxFate
  cancelled : Bool
  /-- a fire that waits for room in the host ring (R551). -/
  waiting : Bool
  /-- a sub-tile of it has run (R516). -/
  begun : Bool
  /-- its sub-tile is the one that runs (R517). -/
  now : Bool
  deriving DecidableEq, Repr

/-- A context (R514). -/
structure MxCtx where
  busy : BitVec 16
  err : BitVec 16
  refusal : Nat
  error : Nat
  deriving DecidableEq, Repr

/-- A context at reset. -/
def MxCtx.init : MxCtx := ⟨0, 0, 0, 0⟩

/-- One MXC: operations in order of acceptance, the source running (0–7 a context, 8 a fire, 15 idle), and the
last source served in rotation (R517). -/
structure MxcSt where
  ops : List MxOp
  running : Nat
  rot : Nat
  deriving DecidableEq, Repr

/-- An MXC at reset. [DESIGN CHOICE, log 133] -/
def MxcSt.init : MxcSt := ⟨[], 15, 8⟩

/-- A request that its source leaf port tracks (R566). `answer` is the response on its way, once the target
has answered; `dead` marks one that has timed out (R567). `tag` tells its initiator what it asked for. `lost` marks one
whose flit a router has discarded (R569, R571). -/
structure Req where
  id : Nat
  who : Initiator
  viaRing : Bool
  srcLp : Nat
  dstLp : Nat
  epoch : Nat
  isWrite : Bool
  addr : Nat
  len : Nat
  data : List Byte
  be : BitVec 64
  since : Nat
  answer : Option (Resp × List Byte)
  dead : Bool
  chan : Nat
  tag : Nat
  lost : Bool
  at_ : Option QPos
  deriving DecidableEq, Repr

/-- An access on the maintenance ring that has had no response (R585, R588). -/
structure RingReq where
  master : RingMaster
  target : RingTarget
  wr : Option Word
  since : Nat
  deriving DecidableEq, Repr

/-- A remap or reroute that waits for its frame (R581, R583). -/
structure LinkFix where
  bundle : Nat
  link : Nat
  frame : Nat
  spare : Bool
  deriving DecidableEq, Repr

/-- A flip in progress (R576): the routers named, the frame at which it falls, whether it has fallen, and the
frame at which it did. -/
structure Flip where
  routers : BitVec 7
  frame : Nat
  fallen : Bool
  deriving DecidableEq, Repr

/-- The fabric and the maintenance ring. -/
structure FabSt where
  cur : Nat
  reqs : List Req
  nextId : Nat
  tokPkts : List TokPkt
  firePkts : List FirePkt
  /-- route tables where they differ from the topology: key ((epoch × 7 + router) × 64 + destination). -/
  route : KMap Word
  /-- slot tables: key (((epoch × 7 + router) × 64 + output) × 256 + slot). -/
  slot : KMap Word
  flip : Option Flip
  /-- physical links down: (router, bundle, link). -/
  downLinks : List (Nat × Nat × Nat)
  /-- physical links up: (router, bundle, link). -/
  upLinks : List (Nat × Nat × Nat)
  leafDown : List Nat
  fixes : List LinkFix
  /-- logical links that carry another's traffic (R583): (bundle, logical link). -/
  rerouted : List (Nat × Nat)
  ringReqs : List RingReq
  breaks : List Nat
  /-- probes of ARM_AT that have started (R590): router × 8 + probe. -/
  armed : List Nat
  /-- IS registers frozen by FREEZE (R593): key (leaf port × 16 + index). -/
  frozen : KMap Word
  deriving DecidableEq, Repr

/-- A data read of a DMA channel (R606, R615): its request, whether the engine has injected it, its data. -/
structure DmaRead where
  id : Nat
  addr : Nat
  len : Nat
  tries : Nat
  sent : Bool
  data : Option (List Byte)
  deriving DecidableEq, Repr

/-- A beat whose data is in the staging buffer (R607). -/
structure DmaBeat where
  id : Nat
  addr : Nat
  data : List Byte
  tries : Nat
  sent : Bool
  deriving DecidableEq, Repr

/-- A halt or an abort under way (R617, R620): cause, capture, failing address, unit at fault. -/
structure DmaStop where
  cause : Nat
  cls : Nat
  code : Nat
  addr : Nat
  src : Nat
  abort : Bool
  deriving DecidableEq, Repr

/-- A DMA channel (R596): STATE, triggers pending with the fires among them, the fire of the run, the descriptor,
its fetch, its words; reads and beats not released; the source bytes that wait for a beat; bytes asked for, formed
into beats, and issued; re-sends; the running checksum with its pairing (none after reset, R612). -/
structure DmaCh where
  st : Nat
  pend : List (Option FireRec)
  cause : Nat
  fire : Option FireRec
  desc : Nat
  fetch : Option Nat
  words : List Word
  reads : List DmaRead
  beats : List DmaBeat
  buf : List Byte
  asked : Nat
  formed : Nat
  issued : Nat
  retries : Nat
  csum : Option Word
  odd : Bool
  stop : Option DmaStop
  beatAddr : Nat
  descCnt : Nat
  deriving DecidableEq, Repr

/-- A channel after reset. -/
def DmaCh.init : DmaCh := ⟨0, [], 0, none, 0, none, [], [], [], [], 0, 0, 0, 0, none, false, none, 0, 0⟩

/-- An engine's arbitration (R608, R609): the channel served last, and last in each priority, plus 1; bytes
released and not yet counted as a unit of 64. -/
structure DmaEng where
  last : Nat
  rr : List Nat
  rel : Nat
  deriving DecidableEq, Repr

/-- An engine that has served no channel. -/
def DmaEng.init : DmaEng := ⟨0, [0, 0, 0, 0], 0⟩

/-- A bank's page-close predictor and row (R646). -/
structure BankSt where
  pred : Nat
  openRow : Option Nat
  lastRow : Option Nat
  deriving DecidableEq, Repr

/-- A bank after training: OPEN_WEAK, no row open (R647). -/
def BankSt.init : BankSt := ⟨2, none, none⟩

/-- A row redirected to a spare (R632): array key page × 256 + array, row, spare row. -/
structure RowFix where
  arr : Nat
  row : Nat
  spare : Nat
  deriving DecidableEq, Repr

/-- How a frequency change came to run (R649, R654). -/
inductive FcBy where
  | fire (f : FireRec)
  | reg
  deriving DecidableEq, Repr

/-- The memories and the DRAM controller. -/
structure MemSt where
  banks : KMap BankSt
  rowFixes : List RowFix
  /-- spare rows used: key page × 256 + array. -/
  spares : KMap Nat
  /-- the repair in progress: array key, row. -/
  repairing : Option (Nat × Nat)
  /-- R638 in progress. -/
  init : Bool
  fc : Option FcBy
  fcTarget : Nat
  /-- a fire that waits for a register-started change (R654). -/
  fcWaiting : List FireRec
  /-- refresh commands postponed, by channel. -/
  postponed : KMap Nat
  /-- the next block of the DRAM scrubber. -/
  scrubPos : Nat
  /-- words scrubbed in each half of the system SRAM, modulo 1,024. -/
  wordsScrubbed : KMap Nat
  deriving DecidableEq, Repr

/-- A receiver's search of the far taps (R679): where it is (0 first window, 1 awaits an answer, 2 measures a step,
3 awaits the answer to an undo, 4 over), tap (0 post, 1 pre), direction (0 increment, 1 decrement), best FOM, whether
the pass and the tap have improved. -/
structure TapSearch where
  ph : Nat
  tap : Nat
  dir : Nat
  best : Nat
  passBetter : Bool
  tapBetter : Bool
  deriving DecidableEq, Repr

/-- PCIe equalisation of a lane (R681): phase, the host's FS and LF, the host's coefficients, the ordered set that the lane
sends. -/
structure EqSt where
  phase : Nat
  fs : Nat
  lf : Nat
  pre : Nat
  post : Nat
  out : Option EqTs
  deriving DecidableEq, Repr

/-- A lane beside its registers: consecutive windows below FOM_MIN, and whether FOM_LOW waits for a good one (R673); the
settings at the last window ends (R674); whether the lane's receiver passed its training; the search; the request it sends, the
answer its transmitter gives for each tap (R677). `began` is the FREE count at which training began; `cw` the control word that
it sends. -/
structure LaneSt where
  low : Nat
  lowSeen : Bool
  hist : List RxEq
  passed : Option Bool
  search : Option TapSearch
  reqPre : Nat
  reqPost : Nat
  stsPre : Nat
  stsPost : Nat
  peerDone : Bool
  began : Nat
  cw : BitVec 64
  eq : EqSt
  deriving DecidableEq, Repr

/-- A lane after reset. -/
def LaneSt.init : LaneSt := ⟨0, false, [], none, none, 0, 0, 0, 0, false, 0, 0, ⟨0, 0, 0, 0, 0, none⟩⟩

/-- A flit that waits to cross, or has crossed and is not acknowledged (R695): SEQ, TC, header, payload, replays. -/
structure CuwFlit where
  seq : Nat
  tc : Nat
  hdr : BitVec 128
  data : List Byte
  reps : Nat
  deriving DecidableEq, Repr

/-- The Cuwick link (R690–R698). `sent`, `freed` and `took` count FLIT frames of TC 1–4 modulo 256: sent, freed by the
peer, taken here. `out` are the frames that it has put on the wire, oldest first (R692). -/
structure CuwSt where
  st : Nat
  rate : Nat
  peer : Option CuwPeer
  txLanes : BitVec 16
  rxLanes : BitVec 16
  next : Nat
  rxLast : Nat
  episode : Bool
  nak : Bool
  replay : List CuwFlit
  waiting : List CuwFlit
  sent : List Nat
  freed : List Nat
  took : List Nat
  lastTry : Nat
  out : List (List Byte)
  deriving DecidableEq, Repr

/-- The link after reset: DOWN. [PRESUMED, log 96; DESIGN CHOICE, log 133] -/
def CuwSt.init : CuwSt := ⟨0, 0, none, 0, 0, 0, 4095, false, false, [], [], [0, 0, 0, 0], [0, 0, 0, 0], [0, 0, 0, 0], 0, []⟩

/-- A frame on its way out (R729–R732): queue, bytes without FCS, launch time, the FREE count of its enqueue, the job
it belongs to, whether its egress is stamped (R757). -/
structure TmFrame where
  q : Nat
  bytes : List Byte
  launch : Option Word
  at_ : Nat
  job : Option Nat
  stamp : Bool
  deriving DecidableEq, Repr

/-- A job that the packet engine has fetched (R717–R720): its number, descriptor, words, the next symbol to build,
frames that have not left, frames dropped, the cause of its error, whether every frame has been built, the stamp. -/
structure PktJob where
  id : Nat
  ring : Nat
  desc : Nat
  words : List Word
  next : Nat
  out : Nat
  dropped : Nat
  cause : Option Nat
  built : Bool
  stamp : Option (Word × Word)
  deriving DecidableEq, Repr

/-- The packet engine: flow contexts in force (R706), whether a ring is on an odd pass (R708), jobs, what sections
have written in each fronthaul context (symbol, input, PRB) and the symbol after the last token (R714, R715); of each job ring
whether it waits for a doorbell (R82), whether its last descriptor had CHAIN, how many were fetched past JOB_TAIL (R79). -/
structure PktSt where
  flows : KMap (List Word)
  rxOdd : KMap Bool
  jobs : List PktJob
  nextJob : Nat
  written : KMap (List (Nat × Nat × Nat))
  closed : KMap Nat
  jobWait : KMap Bool
  jobChain : KMap Bool
  jobAhead : KMap Nat
  deriving DecidableEq, Repr

/-- How a port serves its weighted group (R730, R734): the queue in visit plus 1, and in host-assisted mode the round
outstanding with the FREE count of its export, the queue chosen and what is left of its
batch, the queues that a round of its own still visits. -/
structure TmPort where
  visit : Nat
  round : Option (Nat × Nat)
  batch : Option (Nat × Nat)
  own : List Nat
  wire : List Byte
  deriving DecidableEq, Repr

/-- A port that has served nothing. -/
def TmPort.init : TmPort := ⟨0, none, none, [], []⟩

/-- The traffic manager: frames that have reached it, queues, deficits, meters (tokens of the two buckets in bytes
and the FREE count they stand for; none while full), ports, ports found idle. -/
structure TmSt where
  input : List TmFrame
  queues : KMap (List TmFrame)
  deficit : KMap Nat
  meters : KMap (Option (Rat × Rat × Nat))
  ports : KMap TmPort
  idle : List Nat
  nextRound : Nat
  lastSample : Nat
  deriving DecidableEq, Repr

/-- An entry for a D2H ring (R725): its TYPE, its words after word 0, and the fire it carries. -/
structure D2hEntry where
  ring : Nat
  typ : Nat
  words : List Word
  deriving DecidableEq, Repr

/-- The PCIe endpoint: the MSI-X table (R724), entries that wait for room, whether a ring is on a pass with PHASE 0, SEQ of each
ring, HOST fires not completed (R726), the words of partial tokens (R727), and the PHY-API entries received (R725). -/
structure PcieSt where
  /-- the MSI-X table; the mask bits, which reset to 1, are stored inverted. -/
  msix : KMap Byte
  /-- pending bits by vector: 1 raised by a ring, 2 by the event controller. -/
  msixPend : KMap Nat
  queue : List D2hEntry
  low : KMap Bool
  seq : KMap Nat
  fires : List FireRec
  words : KMap Word
  inbox : List (Nat × List Word)
  deriving DecidableEq, Repr

/-- The reasons of ERROR.indication (R721, R722). -/
inductive FapiErr where
  | invalidState
  | invalidConfig
  | invalidSfn
  deriving DecidableEq, Repr

/-- What the supervisor firmware sends to the L2 (R721, R722). -/
inductive FapiOut where
  | paramResponse (phy : Nat)
  | configResponse (phy : Nat)
  | errorIndication (phy : Nat) (reason : FapiErr)
  | slotIndication (phy : Nat) (start : Int)
  | stopIndication (phy : Nat)
  | lnxStopResponse (phy : Nat) (forced : Bool)
  | lnxStatsResponse (phy : Nat) (seq : Nat)
  /-- LNX_EVENT.indication: datagrams missed (R723). -/
  | lnxEvent (phy : Nat) (missed : Nat)
  deriving DecidableEq, Repr

/-- A message that has gone out: over the host work rings or the network ports (R29), there with its datagram's SEQ (R723). -/
structure FapiSent where
  msg : FapiOut
  pcie : Bool
  seq : Nat
  deriving DecidableEq, Repr

/-- A PHY instance (R721): 0 idle, 1 configured, 2 running, 3 stopping; whether LNX_STOP asked, the device time in ns of
TX_OFF, statistics asked for; slot requests accepted: their kind and slot start; the SEQ of the last datagram taken and of the next
to send (R723). -/
structure PhySt where
  st : Nat
  lnx : Bool
  offAt : Int
  stats : Bool
  reqs : List (Nat × Int)
  rxSeq : Option Nat
  txSeq : Nat
  deriving DecidableEq, Repr

/-- An idle instance. -/
def PhySt.init : PhySt := ⟨0, false, 0, false, [], none, 0⟩

/-- A snapshot broadcast on its way (R85–R88): its number, the FREE count of its fire, whether copied. -/
structure Snap where
  seq : Nat
  at_ : Nat
  copied : Bool
  deriving DecidableEq, Repr

/-- The time unit. `free` counts every cycle of the model. Device time is `acc + off`, both in units of 2⁻³² ns (R740, R743). -/
structure TimeSt where
  free : Nat
  /-- FREE: the cycles that CD19 has made; `free` counts every 983.04 MHz cycle of time that passes (R739, R799). -/
  made : Nat
  acc : Nat
  off : Int
  /-- the internal 16-bit fraction of each compare unit (R749). -/
  fracs : KMap Nat
  /-- the FREE count of the cycle in which a write of ARM = 0 reached a compare unit (R753). -/
  lapse : KMap (Option Nat)
  /-- the FREE count of the last 1PPS_IN edge, while its loss is not reported (R761). -/
  ppsIn : Option Nat
  ppsOut : Bool
  /-- 1PPS_OUT is driven since PPS_OUT_CFG.EN was first set (R762, R871). -/
  ppsDriven : Bool
  /-- 1PPS_OUT rises when device time plus PPS_OUT_OFF reaches this second (R762), and the time of the last rise. -/
  ppsNext : Int
  ppsRise : Int
  lastBcast : Option Nat
  snapSeq : Nat
  snaps : List Snap
  deriving DecidableEq, Repr

/-- A domain's STATE (R72), also a requested state. -/
inductive PdState where
  | off
  | retain
  | on
  | trans
  deriving DecidableEq, Repr

/-- Who asked for a transition: PD_REQ, a wake, or a group. -/
inductive PdBy where
  | req
  | wake
  | grp (g : Nat)
  | rollback (g : Nat)
  deriving DecidableEq, Repr

/-- A request for a domain (R771): state, entry condition, its source, and the FREE count at which it came. -/
structure PdReq where
  want : PdState
  entry : EntryCond
  by_ : PdBy
  since : Nat
  deriving DecidableEq, Repr

/-- One domain of the power controller (R766–R785). -/
structure PdRec where
  cur : PdState
  /-- the state left, while in transition. -/
  left : PdState
  target : PdState
  /-- the request in progress, if a request started the transition. -/
  doing : Option PdReq
  /-- the request that waits for its entry condition. -/
  wait : Option PdReq
  held : Option PdReq
  /-- waiting for a switch-on place (R778), since that order. -/
  queued : Bool
  latched : Bool
  began : Nat
  result : Nat
  lastT : Nat
  /-- RET_MASK in force since the last entry to RETAIN. -/
  kept : BitVec 64
  deriving DecidableEq, Repr

/-- A domain as reset leaves it: ON (R802). [DESIGN CHOICE, log 133] -/
def PdRec.init : PdRec := ⟨.on, .on, .on, none, none, none, false, false, 0, 0, 0, 0⟩

/-- One dependency group (R786–R789): the domains of its request; whether the request has started, and waits for a
domain; the domains still to do, those lowered with the state they held, whether it is rolling back. -/
structure GrpRec where
  busy : Bool
  list : List Nat
  started : Bool
  waiting : Bool
  want : PdState
  entry : EntryCond
  left : List Nat
  done : List (Nat × PdState)
  rolling : Bool
  failed : Nat
  failDom : Nat
  held : Option (PdState × EntryCond)
  result : Nat
  domain : Nat
  order : Nat
  deriving DecidableEq, Repr

/-- A group with no request. -/
def GrpRec.init : GrpRec := ⟨false, [], false, false, .on, 0, [], [], false, 0, 0, none, 0, 0, 0⟩

/-- The power controller. -/
structure PwrSt where
  doms : KMap PdRec
  /-- domains that wait for a switch-on place, in order (R778). -/
  queue : List Nat
  grps : KMap GrpRec
  nextOrder : Nat
  /-- fires held for domains not ON (R782): domain and record. -/
  heldFires : List (Nat × FireRec)
  deriving DecidableEq, Repr

/-- One cluster's frequency change (R794, R795). -/
structure CdRec where
  cur : Nat
  target : Nat
  held : Option Nat
  busy : Bool
  /-- waits for the voltage of its operating point. -/
  waitV : Bool
  deriving DecidableEq, Repr

/-- A cluster at step 16, as CD_STS's reset value says (R803). -/
def CdRec.init : CdRec := ⟨16, 16, none, false, false⟩

/-- The clock controller. -/
structure ClkSt where
  cds : KMap CdRec
  /-- operating point in force and voltage commanded. -/
  op : Nat
  mv : Nat
  /-- the operating point commanded and not settled (R794). -/
  pendOp : Option Nat
  /-- the FREE count of that command. -/
  pendAt : Nat
  holdover : Bool
  deriving DecidableEq, Repr

/-- A report (R810): reporter, ERR_CAUSE image, address, time. -/
structure Report where
  page : Nat
  cause : Word
  addr : Nat
  ns : Word
  deriving DecidableEq, Repr

/-- A queued report with the count of the window before it (R815). -/
structure QRep where
  rep : Report
  prevSupp : Nat
  deriving DecidableEq, Repr

/-- An Echo window (R813): its end in FREE cycles × 100, its first reporter, its count. -/
structure EchoWin where
  isOpen : Bool
  endAt : Nat
  first : Nat
  supp : Nat
  deriving DecidableEq, Repr

/-- No window. -/
def EchoWin.init : EchoWin := ⟨false, 0, 0, 0⟩

/-- The event controller. -/
structure EvtSt where
  /-- sources seen asserted. -/
  seen : List Nat
  /-- MSI-X messages sent: the last vector. -/
  msixLast : Option Nat
  /-- wake lines whose wake is counted (R780). -/
  lineWoke : List Nat
  echo : KMap EchoWin
  queue : List QRep
  /-- unsent reports, oldest first (R812). -/
  unsent : List Report
  /-- reports dropped at a page and not yet counted (R812). -/
  dropped : KMap Nat
  /-- fatal conditions raised that the fatal logic has not taken (R819). -/
  fatalPend : List Nat
  /-- the FREE count at which the fatal reset is due (R820). -/
  fatalAt : Option Nat
  txRefused : Bool
  /-- a fatal condition has been taken since reset: line 31 of SV0–SV7 is asserted (R820). -/
  svLine31 : Bool
  /-- the fatal reset is requested. -/
  resetReq : Bool
  deriving DecidableEq, Repr

/-- The image that runs (R839): slot 0 A, 1 B, 2 PCIe; its header and the hash of its body. -/
structure RunImage where
  slot : Nat
  svn : Nat
  seq : Nat
  keySlot : Nat
  hash : BitVec 384
  deriving DecidableEq, Repr

/-- The resident configuration set (R3): SEQ, the hash of its body, and what the device's steps take from it. -/
structure CfgRes where
  seq : Nat
  hash : BitVec 384
  role : Nat
  set : CfgSet
  deriving DecidableEq, Repr

/-- A mailbox (R850): the command in progress with its result. -/
structure MbSt where
  cmd : Option (Nat × Nat)
  deriving DecidableEq, Repr

/-- Reset, boot and security. `flash` is the board's; `bist` holds the failing units (R843), `persist` a set to be written
(R847), `wdog` the FREE count of the last kick, `nonce` the debug nonce that is open. -/
structure BootSt where
  flash : KMap Byte
  released : Bool
  bist : List Nat
  image : Option RunImage
  cfg : Option CfgRes
  persist : Bool
  wdog : Nat
  wdogHalf : Bool
  flBusy : Bool
  hostMb : MbSt
  svMb : MbSt
  nonce : Option (BitVec 384)
  unlocked : Bool
  tested : Bool
  deriving DecidableEq, Repr

/-- Right after reset: nothing tested, no image. -/
def BootSt.init : BootSt := ⟨[], false, [], none, none, false, 0, false, false, ⟨none⟩, ⟨none⟩, none, false, false⟩

/-- The device. Registers whose value differs from the reset value of their page map are listed in `regs`,
under the key page × 4096 + offset + index × 2²², where the index tells apart the registers that one window
shows. Memory cells are listed under their bus address; the local memories of physical core `p` under
2⁴⁸ + p × 2²⁰ + offset. -/
structure State where
  pending : List Instr
  regs : KMap Word
  /-- read holding registers (R73): page × 4 + path. -/
  holdRd : KMap Word
  /-- held _LO writes (R77): (page × 4096 + offset) × 4 + path. -/
  holdWr : KMap (Option Word)
  /-- live counters (R86): page × 32 + number. -/
  cnt : KMap Word
  mem : KMap Byte
  /-- error marks: under the address of a 64-bit word, or of a 64-byte DRAM block. -/
  memErr : KMap Mark
  hostMem : KMap Byte
  /-- CORE_MAP of each cluster where it is not the fused value (R412). -/
  coreMap : KMap (Option Word)
  fuses : Fuses
  /-- the model's own counter of the free values taken. -/
  freeCtr : Nat
  rdOut : Option RdOut
  /-- fire records that have reached a member and have not been taken. -/
  arrived : List FireRec
  /-- the last microsecond tick applied to the buckets (R69). -/
  usTick : Nat
  time : TimeSt
  disp : DispSt
  fab : FabSt
  memc : MemSt
  pwr : PwrSt
  clk : ClkSt
  evt : EvtSt
  links : KMap LinkSt
  /-- the LEMC of each DFE group. -/
  lemc : KMap LemcSt
  /-- the chains of the DFE blocks: DFE × 132 + chain index. -/
  chains : KMap ChainSt
  subs : KMap SubSt
  dfe : KMap DfeSt
  ofdm : KMap OfdmSt
  /-- the operations that each FEC block has accepted, in order. -/
  fec : KMap (List FecOp)
  prism : PrismSt
  /-- running statistics engines: DFE × 4 + engine. -/
  cal : KMap (Option CalRun)
  /-- spare copies in progress: cluster to source × 16 + destination. -/
  spareJobs : KMap (Option Nat)
  cores : KMap CoreSt
  mxc : KMap MxcSt
  /-- contexts: MXC × 8 + context. -/
  mxCtx : KMap MxCtx
  dma : KMap DmaCh
  dmaEng : KMap DmaEng
  /-- lanes: page × 4 + lane. -/
  lanes : KMap LaneSt
  cuw : CuwSt
  pkt : PktSt
  tm : TmSt
  pcie : PcieSt
  phys : KMap PhySt
  /-- PHY-API messages sent, oldest first. -/
  fapi : List FapiSent
  boot : BootSt
  /-- fires whose descriptor was not owned when it was fetched (R82): page and record. -/
  unowned : List (Nat × FireRec)
  deriving DecidableEq, Repr

/-- The device right after power-on reset (R825): every register at its reset value, every memory with nothing listed, the
fuses those of the die. [DESIGN CHOICE, log 4; DESIGN CHOICE, log 7; DESIGN CHOICE, log 10; DESIGN CHOICE, log 133] -/
def State.reset : State where
  pending := []
  regs := [(0xD100, 1)]
  holdRd := []
  holdWr := []
  cnt := []
  mem := []
  memErr := []
  hostMem := []
  coreMap := []
  fuses := Config.fuses
  freeCtr := 0
  rdOut := none
  arrived := []
  usTick := 0
  time := ⟨0, 0, 0, 0, [], [], none, false, false, 0, 0, none, 0, []⟩
  disp := DispSt.init
  fab := ⟨0, [], 0, [], [], [], [], none, [], [], [], [], [], [], [], [], []⟩
  memc := ⟨[], [], [], none, false, none, 0, [], [], 0, []⟩
  pwr := ⟨[], [], [], 0, []⟩
  clk := ⟨[], 0, 0, none, 0, false⟩
  evt := ⟨[], none, [], [], [], [], [], [], none, false, false, false⟩
  links := []
  lemc := []
  chains := []
  subs := []
  dfe := []
  ofdm := []
  fec := []
  prism := PrismSt.init
  cal := []
  spareJobs := []
  cores := []
  mxc := []
  mxCtx := []
  dma := []
  dmaEng := []
  lanes := []
  cuw := CuwSt.init
  pkt := ⟨[], [], [], 0, [], [], [], [], []⟩
  tm := ⟨[], [], [], [], [], [], 0, 0⟩
  pcie := ⟨[], [], [], [], [], [], [], []⟩
  phys := []
  fapi := []
  boot := BootSt.init
  unowned := []

end Sys2Proof.Machine
end

