-- ==== Sys2Proof/Machine/Ops.lean ====
section
/-! DEFINITION. The named operations that every meaning is written over: maps in canonical form, bit fields,
registers and counters, the clock, and memory bytes. -/

namespace Sys2Proof.Machine

/-! ### Maps in canonical form -/

/-- The value under key `k`; `d` where it is not listed. -/
def kget {α : Type} (d : α) : KMap α → Nat → α
  | [], _ => d
  | (k, v) :: m, j => if j = k then v else kget d m j

/-- `m` with the value under `j` set to `v`: the entry goes where `v` is `d`, and keys stay in rising order. -/
def kset {α : Type} [DecidableEq α] (d : α) : KMap α → Nat → α → KMap α
  | [], j, v => if v = d then [] else [(j, v)]
  | (k, w) :: m, j, v =>
    if j < k then (if v = d then (k, w) :: m else (j, v) :: (k, w) :: m)
    else if j = k then (if v = d then m else (j, v) :: m)
    else (k, w) :: kset d m j v

/-- The canonical form: keys strictly rising and above `lo`, no entry equal to `d`. -/
def kwfFrom {α : Type} [DecidableEq α] (d : α) : Option Nat → KMap α → Bool
  | _, [] => true
  | lo, (k, v) :: m =>
    (match lo with | none => true | some l => decide (l < k)) && !decide (v = d) && kwfFrom d (some k) m

/-- The canonical form of a map whose unlisted keys read as `d`. -/
def kwf {α : Type} [DecidableEq α] (d : α) (m : KMap α) : Bool := kwfFrom d none m

/-- Keys strictly rising and above `lo`. -/
def kupFrom {α : Type} : Option Nat → KMap α → Bool
  | _, [] => true
  | lo, (k, _) :: m => (match lo with | none => true | some l => decide (l < k)) && kupFrom (some k) m

/-- Keys strictly rising: no key stands twice, so that what is written under a key is what is read there. -/
def kup {α : Type} (m : KMap α) : Bool := kupFrom none m

/-- `m` with table `a` replaced by a copy of table `c`; a table is the `n` keys from a multiple of `n` on. -/
def copyTable {α : Type} [DecidableEq α] (d : α) (n c a : Nat) (m : KMap α) : KMap α :=
  (m.filter fun x => decide (x.1 / n = c)).foldl (fun m x => kset d m (a * n + x.1 % n) x.2) (m.filter fun x => !decide (x.1 / n = a))

/-! ### Bit fields -/

/-- Bits [hi:lo] of a register, as a number. -/
def bits (w : Word) (hi lo : Nat) : Nat := (w.toNat >>> lo) % 2 ^ (hi - lo + 1)

/-- Bit `i` of a register. -/
def bit (w : Word) (i : Nat) : Bool := w.getLsbD i

/-- A register word with bits [hi:lo] replaced by `v`. -/
def putBits (w : Word) (hi lo v : Nat) : Word :=
  let m : Word := BitVec.ofNat 32 ((2 ^ (hi - lo + 1) - 1) <<< lo)
  (w &&& ~~~m) ||| (BitVec.ofNat 32 (v <<< lo) &&& m)

/-- A register word with bit `i` set to `b`. -/
def putBit (w : Word) (i : Nat) (b : Bool) : Word := putBits w i i (if b then 1 else 0)

/-- A field that is two's complement in `n` bits. -/
def signed (n v : Nat) : Int := if v % 2 ^ n < 2 ^ (n - 1) then (v % 2 ^ n : Nat) else (v % 2 ^ n : Nat) - (2 ^ n : Nat)

/-- An integer modulo 2^n, as a number. -/
def wrapN (n : Nat) (x : Int) : Nat := (x % (2 ^ n : Nat)).toNat

/-- An integer held to the range [lo, hi]. -/
def clampI (lo hi x : Int) : Int := if x < lo then lo else if hi < x then hi else x

/-- Addition that stops at `top`. -/
def satAdd (top a b : Nat) : Nat := min top (a + b)

/-- 32-bit word from a number. -/
def w32 (n : Nat) : Word := BitVec.ofNat 32 n

/-- The bytes of a number, little-endian (R10). -/
def leBytes : Nat → Nat → List Byte
  | 0, _ => []
  | k + 1, n => BitVec.ofNat 8 n :: leBytes k (n / 256)

/-- The number that bytes spell, little-endian (R10). -/
def ofLe : List Byte → Nat
  | [] => 0
  | b :: bs => b.toNat + 256 * ofLe bs

/-- The `i`-th word of a byte list. -/
def wordAt (bs : List Byte) (i : Nat) : Word := w32 (ofLe ((bs.drop (4 * i)).take 4))

/-- A list with position `i` replaced. -/
def setAt {α : Type} : List α → Nat → α → List α
  | [], _, _ => []
  | _ :: xs, 0, v => v :: xs
  | x :: xs, i + 1, v => x :: setAt xs i v

/-- A list without the first element that satisfies `p`. -/
def dropFirst {α : Type} (p : α → Bool) : List α → List α
  | [] => []
  | x :: xs => if p x then xs else x :: dropFirst p xs

/-! ### Registers -/

/-- The key of a register: page, offset, and the index of the window that shows it. -/
def rkey (p off i : Nat) : Nat := 2 ^ 22 * i + 4096 * p + off

/-- The reset value under a register key. -/
def rkeyReset (k : Nat) : Word := regReset (k % 2 ^ 22 / 4096) (k % 4096)

/-- The stored value of a register; its reset value where nothing else is stored. -/
def getRegI (s : State) (p off i : Nat) : Word := kget (regReset p off) s.regs (rkey p off i)

/-- Stores a register. -/
def setRegI (s : State) (p off i : Nat) (v : Word) : State :=
  { s with regs := kset (regReset p off) s.regs (rkey p off i) v }

/-- The stored value of a register that no window selects. -/
def getReg (s : State) (p off : Nat) : Word := getRegI s p off 0

/-- Stores a register that no window selects. -/
def setReg (s : State) (p off : Nat) (v : Word) : State := setRegI s p off 0 v

/-- Applies `f` to a stored register. -/
def modReg (s : State) (p off : Nat) (f : Word → Word) : State := setReg s p off (f (getReg s p off))

/-- A _LO/_HI pair as a number, its low `align` bits taken as 0 (R888). -/
def getPair (s : State) (p off align : Nat) : Nat :=
  let a := (getReg s p off).toNat + 2 ^ 32 * (getReg s p (off + 4)).toNat
  2 ^ align * (a / 2 ^ align)

/-- Stores a number in a _LO/_HI pair. -/
def setPair (s : State) (p off n : Nat) : State :=
  setReg (setReg s p off (w32 n)) p (off + 4) (w32 (n / 2 ^ 32))

/-- A live counter of a page (R86). -/
def getCnt (s : State) (p i : Nat) : Word := kget 0 s.cnt (p * 32 + i)

/-- Adds `n` to a live counter; it is 32 bits and wraps. -/
def addCnt (s : State) (p i n : Nat) : State :=
  { s with cnt := kset 0 s.cnt (p * 32 + i) (getCnt s p i + w32 n) }

/-- Counts one. -/
def incCnt (s : State) (p i : Nat) : State := addCnt s p i 1

/-- The registers of a page dropped to their reset values, those at the offsets of `keep` apart. -/
def dropRegs (p : Nat) (keep : Nat → Bool) (m : KMap Word) : KMap Word :=
  m.filter fun e => !(e.1 % 2 ^ 22 / 4096 == p) || keep (e.1 % 4096)

/-! ### Time -/

/-- Device time in units of 2⁻³² ns (R740). [DESIGN CHOICE, log 7] -/
def devTime (s : State) : Int := (s.time.acc : Int) + s.time.off

/-- Device time in whole nanoseconds. -/
def devNs (s : State) : Int := devTime s / (2 ^ 32 : Nat)

/-- The nanosecond slice (R741). -/
def slice (s : State) : Word := w32 (wrapN 32 (devNs s))

/-- The signed difference of R19 between now and a target. -/
def sinceTarget (s : State) (target : Word) : Int := signed 32 ((slice s - target).toNat)

/-- The whole seconds of device time. -/
def devSec (s : State) : Nat := wrapN 64 (devNs s / 1000000000)

/-- The nanoseconds of device time. -/
def devNsPart (s : State) : Nat := (devNs s % 1000000000).toNat

/-- FREE (R739): the cycles that CD19 has made. -/
def freeNow (s : State) : Nat := s.time.made

/-- `us` microseconds have passed since FREE stood at `t`, at 983.04 cycles per microsecond (R739).
[DESIGN CHOICE, log 6; DESIGN CHOICE, log 7] -/
def usSince (s : State) (t us : Nat) : Bool := decide (98304 * us ≤ 100 * (s.time.free - t))

/-- The nanoseconds between FREE count `t` and now. [DESIGN CHOICE, log 6] -/
def nsSince (s : State) (t : Nat) : Nat := (s.time.free - t) * 3125 / 3072

/-- Cycles of the 1.5 GHz fabric clock since reset (R553), by the ratio of the two clocks. [DESIGN CHOICE, log 6] -/
def fabCycles (s : State) : Nat := s.time.free * 3125 / 2048

/-- The slot-table frame in progress (R559). [DESIGN CHOICE, log 6] -/
def fabFrame (s : State) : Nat := fabCycles s / 256

/-! ### Free values -/

/-- A value that the spec leaves open, and the state that has taken it. [DESIGN CHOICE, log 10] -/
def takeFree (w : Nat) (s : State) : BitVec w × State :=
  (Config.free w s.freeCtr, { s with freeCtr := s.freeCtr + 1 })

/-! ### What a read gives -/

/-- R892: the completion of a host's read, by the response it receives. -/
def completion : Resp → Completion
  | .ok => .success
  | .decode => .unsupported
  | .timeout => .abort
  | .target => .abort
  | .poison => .poisoned

/-- What a read gives its reader (R558, R892). -/
def readGives (who : Initiator) (r : Resp) (d : List Byte) : RdOut :=
  ⟨who, r, d, if who = .host then some (completion r) else none⟩

/-! ### Memory bytes -/

/-- What a byte that nothing has written reads as. [DESIGN CHOICE, log 13] -/
def unwritten : Byte := 0

/-- The byte at a memory key. [DESIGN CHOICE, log 13] -/
def getByte (s : State) (a : Nat) : Byte := kget unwritten s.mem a

/-- Stores a byte at a memory key. -/
def setByte (s : State) (a : Nat) (b : Byte) : State := { s with mem := kset unwritten s.mem a b }

/-- The bytes from a memory key on. -/
def getBytes (s : State) (a : Nat) : Nat → List Byte
  | 0 => []
  | n + 1 => getByte s a :: getBytes s (a + 1) n

/-- Stores bytes from a memory key on. -/
def setBytes (s : State) (a : Nat) : List Byte → State
  | [] => s
  | b :: bs => setBytes (setByte s a b) (a + 1) bs

/-- The canonical form of memory. -/
def Memory.wf (m : KMap Byte) : Bool := kwf unwritten m

/-- The error mark of a word or block. [DEDUCED, log 15; DEDUCED, log 16] -/
def getMark (s : State) (a : Nat) : Mark := kget Mark.clean s.memErr a

/-- Stores an error mark. -/
def setMark (s : State) (a : Nat) (k : Mark) : State := { s with memErr := kset Mark.clean s.memErr a k }

/-- A byte of host memory. -/
def getHost (s : State) (a : Nat) : Byte := kget unwritten s.hostMem a

/-- Bytes of host memory. -/
def getHostBytes (s : State) (a : Nat) : Nat → List Byte
  | 0 => []
  | n + 1 => getHost s a :: getHostBytes s (a + 1) n

/-- Stores bytes in host memory. -/
def setHostBytes (s : State) (a : Nat) : List Byte → State
  | [] => s
  | b :: bs => setHostBytes { s with hostMem := kset unwritten s.hostMem a b } (a + 1) bs

end Sys2Proof.Machine
end

