-- ==== Sys2Proof/Machine/Flags.lean ====
section
/-! DEFINITION. The status and event flags of a page: EVT_RAW, the first-error capture and its report, the
correctable-error bucket, STATUS, and which unit an access comes from. -/

namespace Sys2Proof.Machine

/-- Sets EVT_RAW bit `b` of page `p` (R59). -/
def setEvt (s : State) (p b : Nat) : State := modReg s p 0x14 fun w => putBit w b true

/-- EVT_PEND: EVT_RAW AND NOT EVT_MASK (R52). -/
def evtPend (s : State) (p : Nat) : Word := getReg s p 0x14 &&& ~~~getReg s p 0x18

/-- STATUS.ENABLED (R53). -/
def enabled (s : State) (p : Nat) : Bool := bit (getReg s p 0x10) 0

/-- STATUS.HA_ACTIVE (R53). -/
def haActive (s : State) (p : Nat) : Bool := bit (getReg s p 0x10) 3

/-- STATUS.RESETTING (R53). -/
def resetting (s : State) (p : Nat) : Bool := bit (getReg s p 0x10) 2

/-- CTRL.ENABLE (R53). -/
def ctrlEnable (s : State) (p : Nat) : Bool := bit (getReg s p 0x08) 0

/-- Sets STATUS.ENABLED. -/
def setEnabled (s : State) (p : Nat) (b : Bool) : State := modReg s p 0x10 fun w => putBit w 0 b

/-- A number that a capture holds in ERR_ADDR and that is no address, AV = 0 (R61, R175, R779). -/
def noAddr (n : Nat) : Option Nat := some (2 ^ 48 + n)

/-- An error of a page (R61): class, code, origin, unit at fault, address or number. -/
structure Err where
  cls : Nat
  code : Nat
  origin : Nat
  src : Nat
  addr : Option Nat
  deriving DecidableEq, Repr

/-- The ERR_CAUSE image of an error, VALID = 1 and OVF = 0 (R61, R810). -/
def Err.image (e : Err) : Word :=
  w32 (2 ^ 31 + e.origin % 4 * 2 ^ 26 + e.src % 1024 * 2 ^ 16 + (if e.addr.any (decide <| · < 2 ^ 48) then 2 ^ 12 else 0) +
    e.cls % 16 * 2 ^ 8 + e.code % 256)

/-- Writes the capture registers. -/
def storeErr (s : State) (p : Nat) (e : Err) (ovf : Bool) : State :=
  let s := setReg s p 0x20 (putBit e.image 30 ovf)
  let a := e.addr.getD 0
  setReg (setReg s p 0x24 (w32 a)) p 0x28 (w32 (a / 2 ^ 32 % 2 ^ 16))

/-- R62–R64: the page captures the error, or sets OVF, replacing only a correctable capture. -/
def captureOnly (s : State) (p : Nat) (e : Err) : State :=
  let c := getReg s p 0x20
  if !bit c 31 then
    let s := storeErr s p e false
    if e.cls = 1 then s else setEvt s p 30
  else if bits c 11 8 = 1 ∧ e.cls ≠ 1 then setEvt (storeErr s p e true) p 30
  else setReg s p 0x20 (putBit c 30 true)

/-- R810, R812: a report of an error of class 2–6, or its loss when four wait. -/
def sendReport (s : State) (p : Nat) (e : Err) : State :=
  if e.cls < 2 ∨ 6 < e.cls then s
  else if (s.evt.unsent.filter fun r => r.page = p).length < 4 then
    { s with evt := { s.evt with unsent := s.evt.unsent ++ [⟨p, e.image, e.addr.getD 0 % 2 ^ 48, slice s⟩] } }
  else { s with evt := { s.evt with dropped := kset 0 s.evt.dropped p (kget 0 s.evt.dropped p + 1) } }

/-- What an error does on its page: capture (R62–R64) and report (R810). -/
def captureErr (s : State) (p : Nat) (e : Err) : State := sendReport (captureOnly s p e) p e

/-- An error of a block's own (ORIGIN 0) that names itself as the unit at fault. -/
def ownErr (s : State) (p cls code : Nat) (addr : Option Nat) : State := captureErr s p ⟨cls, code, 0, p, addr⟩

/-- The pages of the header (R49). -/
def headerPages : List Nat := (List.range 512).filter fun p => (pageKind p).isSome

/-- A bucket at tick `n` (R69): LEAK_SHIFT above 20 acts as 20. [DEDUCED, log 21] -/
def leakPage (n : Nat) (s : State) (p : Nat) : State :=
  let lvl := bits (getReg s p 0x30) 15 0
  if lvl ≠ 0 ∧ n % 2 ^ min 20 (bits (getReg s p 0x34) 20 16) = 0 then setReg s p 0x30 (w32 (lvl - 1)) else s

/-- The next microsecond tick, where FREE has reached it (R69). [DEDUCED, log 21] -/
def leakSt (s : State) : State :=
  let n := s.usTick + 1
  if 98304 * n ≤ 100 * freeNow s then headerPages.foldl (leakPage n) { s with usTick := n } else s

/-- The microsecond ticks that FREE has reached and that no leak has followed yet. -/
def ticksDue (s : State) : Nat := 100 * freeNow s / 98304 - s.usTick

/-- Every leak that is due is applied (R70). -/
def leakDue (s : State) : State := (List.range (ticksDue s)).foldl (fun s _ => leakSt s) s

/-- R68, R71: a correctable error counted by a page, after the leak of its tick (R70). -/
def countCe (s : State) (p : Nat) : State :=
  let s := leakDue s
  let lvl := satAdd 0xFFFF (bits (getReg s p 0x30) 15 0) 1
  let s := setReg s p 0x30 (w32 lvl)
  let thr := bits (getReg s p 0x34) 15 0
  if thr ≠ 0 ∧ thr ≤ lvl then setEvt s p 31 else s

/-! ### Units and paths -/

/-- CORE_MAP of a cluster (R412): the fused value until it is written. [PRESUMED, log 12] -/
def coreMapOf (s : State) (c : Nat) : Word :=
  match kget none s.coreMap c with
  | some w => w
  | none => (s.fuses.coreMap[c]?).getD 0

/-- The physical core behind logical core `lc`, as 0–143 (R44, R412). -/
def physOf (s : State) (lc : Nat) : Option Nat :=
  let k := bits (coreMapOf s (lc / 8)) (4 * (lc % 8) + 3) (4 * (lc % 8))
  if k < 9 then some (9 * (lc / 8) + k) else none

/-- The logical core that physical core `p` backs. -/
def logicalOf (s : State) (p : Nat) : Option Nat :=
  ((List.range 8).map (8 * (p / 9) + ·)).find? fun lc => physOf s lc == some p

/-- The page that stands for an initiator in captures and reports (R811). [DESIGN CHOICE, log 11] -/
def initPage (s : State) : Initiator → Nat
  | .host => 0x007
  | .secCore => 0x00C
  | .jtag => 0x006
  | .sv n => 0x0C0 + n
  | .lc n => match physOf s n with | some p => 0x030 + p | none => 0x010 + n.val / 8
  | .page p => p

/-- The access path of R73: 0 host, 1 ring, 2 supervisors, 3 every other. [DESIGN CHOICE, log 11] -/
def accPath (a : Acc) : Nat :=
  if a.viaRing then 1 else
  match a.who with
  | .host => 0
  | .secCore => 1
  | .jtag => 1
  | .sv _ => 2
  | .lc _ => 3
  | .page _ => 3

/-- The power domain of a page (R49, R50): 0–47, 0xFE PD_AON, 0xFF PD_SEC. -/
def pageDomain (p : Nat) : Nat :=
  match pageKind p with
  | some .cluster => p - 0x010
  | some .mxc => 16 + (p - 0x020)
  | some .core => (p - 0x030) / 9
  | some .dfe => 32 + (p - 0x0C8)
  | some .ofdm => 36 + (p - 0x0CC)
  | some .fec => 40 + (p - 0x0D0)
  | some .prism | some .det => 44
  | some .xlane | some .xspare => 45
  | some .pkt | some .tm | some .nlane | some .tmq => 46
  | some .cuw | some .klane => 47
  | some .secmb => 0xFF
  | _ => 0xFE

/-- A domain's record. -/
def pdRec (s : State) (d : Nat) : PdRec := kget PdRec.init s.pwr.doms d

/-- Stores a domain's record. -/
def setPd (s : State) (d : Nat) (r : PdRec) : State :=
  { s with pwr := { s.pwr with doms := kset PdRec.init s.pwr.doms d r } }

/-- A domain's STATE; PD_AON and PD_SEC are always ON (R765). -/
def pdState (s : State) (d : Nat) : PdState := if d < 48 then (pdRec s d).cur else .on

/-- Whether a page's domain is ON. -/
def pageOn (s : State) (p : Nat) : Bool := pdState s (pageDomain p) = .on

/-- The PLL whose clock a page's block runs on (R791, R803): the clock, power, PMBus and lane blocks have none here. -/
def pagePll (p : Nat) : Option Nat :=
  match pageKind p with
  | some .cluster => some (p - 0x010)
  | some .core => some ((p - 0x030) / 9)
  | some .svc => some 16
  | some .mxc | some .fec => some 18
  | some .dfe | some .ofdm | some .prism | some .det | some .time | some .tcmp => some 19
  | some .mring => some 20
  | some .secmb | some .boot => some 21
  | some .disp | some .evtc | some .pcie | some .pkt | some .tm | some .tmq | some .dma | some .dmach | some .dramc
  | some .ssram | some .rtr => some 17
  | _ => none

/-- A PLL is locked (R799). -/
def pllOn (s : State) (n : Nat) : Bool := !bit (getReg s 0x005 0x180) n

/-- The clock of a page's block runs (R799). -/
def pageClock (s : State) (p : Nat) : Bool :=
  match pagePll p with
  | some n => pllOn s n
  | none => true

/-- A page's block runs: its domain is ON (R766) and its clock runs (R799). -/
def blockRuns (s : State) (p : Nat) : Bool := pageOn s p && pageClock s p

/-- What a block does by itself happens while it runs: in RETAIN and OFF, and while its PLL has no lock, nothing does
(R766, R799). [DEDUCED, log 116] -/
def whileRuns (p : Nat) (f : State → State) (s : State) : State := if blockRuns s p then f s else s

/-- The STATE encoding of R72. -/
def PdState.code : PdState → Nat
  | .off => 0
  | .retain => 1
  | .on => 2
  | .trans => 3

/-- R48, R769: the power controller captures an access to a page or memory that is not ON. -/
def offAccess (s : State) (src addr : Nat) : State :=
  incCnt (captureErr (setEvt s 0x004 2) 0x004 ⟨3, 0x01, 0, src, some addr⟩) 0x004 5

/-- R45: the ROOT page captures an access that no target answers. -/
def decodeErr (s : State) (src addr : Nat) : State := captureErr s 0x0FE ⟨3, 0x08, 0, src, some addr⟩

/-! ### Tokens and fires on their way -/

/-- The leaf port of a page's block (R554); LP44 for every page behind the register bridge. -/
def pageLp (p : Nat) : Nat :=
  match pageKind p with
  | some .cluster => p - 0x010
  | some .mxc => p - 0x020
  | some .core => (p - 0x030) / 9
  | some .dfe => 16 + (p - 0x0C8)
  | some .xlane => 16 + (p - 0x100) / 8
  | some .xspare => 16 + (p - 0x120)
  | some .ofdm => 20 + (p - 0x0CC)
  | some .fec => 24 + (p - 0x0D0)
  | some .dramc => 28 + (p - 0x0E0) / 2
  | some .ssram => 36 + (p - 0x0F0)
  | some .dma => 38 + (p - 0x0D8) / 2
  | some .dmach => 38 + (p - 0x200) / 8
  | some .prism | some .det => 42
  | some .disp | some .evtc | some .post => 43
  | some .pkt | some .tm | some .tmq | some .nlane => 45
  | some .pcie | some .plane => 46
  | some .cuw | some .klane => 47
  | _ => 44

/-- The leaf port of an initiator. -/
def initLp (s : State) (i : Initiator) : Nat :=
  match i with
  | .sv _ => 44
  | .lc n => n / 8
  | .host => 46
  | i => pageLp (initPage s i)

/-- A unit's page sends a token to the dispatcher in a class (R130, R138). -/
def sendTok (s : State) (p cls : Nat) (t : Token) : State :=
  { s with fab := { s.fab with tokPkts := s.fab.tokPkts ++ [⟨pageLp p, if cls = 0 then 1 else 2, s.fab.cur, [(t, cls)], none⟩] } }

/-- The completion token of a fire (R100): DONE = 1, KIND data or error, the unit's payload. -/
def doneToken (f : FireRec) (err : Bool) (payload : Dword) : Token :=
  ⟨f.template, f.inst, 0, if err then 1 else 0, 0x80, 0, payload⟩

/-- A unit completes a fire (R27, R100): the token leaves in the fire's class. -/
def complete (s : State) (p : Nat) (f : FireRec) (err : Bool) (payload : Dword) : State :=
  sendTok s p f.urg.toNat (doneToken f err payload)

/-- A unit ends a fire with an error token of cause `c` in PAYLOAD[7:0] (R886). -/
def failFire (s : State) (p : Nat) (f : FireRec) (c : Nat) : State := complete s p f true (BitVec.ofNat 64 c)

/-- A fire record that a unit takes is no longer among those that wait at it. -/
def takeArrived (s : State) (f : FireRec) : State :=
  { s with arrived := dropFirst (fun g => decide (g = f)) s.arrived }

end Sys2Proof.Machine
end

