-- ==== Sys2Proof/Machine/Bus.lean ====
section
/-! DEFINITION. The address map (R41–R44), the DRAM address orders (R641, R642), and reads and writes of memory
with the responses and captures of the memory chapter. -/

namespace Sys2Proof.Machine

/-- What an address names (R41, R43, R50): a memory with its owner, a page, the outbound window, or nothing. -/
inductive Region where
  | dram (a : Nat)
  | sram (h off : Nat)
  | cluster (c off : Nat)
  | core (p off : Nat)
  | page (p off : Nat)
  | prism (off : Nat)
  | outbound (off : Nat)
  | unmapped
  deriving DecidableEq, Repr

/-- MEM_CFG (R661). -/
def memCfg (s : State) : Word := getReg s 0x0E0 0x100

/-- The capacity of one DRAM channel in bytes, before ECC (R661). -/
def dramChanBytes (s : State) : Nat :=
  match bits (memCfg s) 5 4 with
  | 0 => 2 ^ 30
  | 1 => 2 ^ 31
  | _ => 2 ^ 32

/-- The usable DRAM capacity U (R42). -/
def dramUsable (s : State) : Nat :=
  if bit (memCfg s) 31 then 16 * dramChanBytes s * 15 / 16 else 16 * dramChanBytes s

/-- The address map (R41–R44). -/
def region (s : State) (a : Nat) : Region :=
  if a < 0x001000000000 then (if a < dramUsable s then .dram a else .unmapped)
  else if a < 0x001002000000 then .sram 0 (a - 0x001000000000)
  else if a < 0x001004000000 then .sram 1 (a - 0x001002000000)
  else if a < 0x001100000000 then .unmapped
  else if a < 0x001110000000 then
    let c := (a - 0x001100000000) / 0x01000000
    let o := (a - 0x001100000000) % 0x01000000
    if o < 0x400000 then .cluster c o
    else if o < 0x800000 then .unmapped
    else if (o - 0x800000) % 0x100000 < 0xA0000 then
      match physOf s (8 * c + (o - 0x800000) / 0x100000) with
      | some p => .core p ((o - 0x800000) % 0x100000)
      | none => .unmapped
    else .unmapped
  else if a < 0x001200000000 then .unmapped
  else if a < 0x001200400000 then
    let p := (a - 0x001200000000) / 0x1000
    if (pageKind p).isSome then .page p ((a - 0x001200000000) % 0x1000) else .unmapped
  else if a < 0x001300000000 then .unmapped
  else if a < 0x001300800000 then .prism (a - 0x001300000000)
  else if a < 0x010000000000 then .unmapped
  else if a < 0x020000000000 then .outbound (a - 0x010000000000)
  else .unmapped

/-- The memory key of the local memory of physical core `p`. [DEDUCED, log 15] -/
def coreKey (p off : Nat) : Nat := 2 ^ 48 + 2 ^ 20 * p + off

/-- The memory key of a region's byte. [DEDUCED, log 15] -/
def Region.key : Region → Nat
  | .dram a => a
  | .sram h off => 0x001000000000 + h * 0x02000000 + off
  | .cluster c off => 0x001100000000 + c * 0x01000000 + off
  | .core p off => coreKey p off
  | .page p off => 0x001200000000 + p * 0x1000 + off
  | .prism off => 0x001300000000 + off
  | .outbound off => off
  | .unmapped => 0

/-- The owning page and array number of an on-chip memory word, by its memory key (R625). -/
def keyOwner (k : Nat) : Nat × Nat :=
  if 2 ^ 48 ≤ k then
    let o := (k - 2 ^ 48) % 2 ^ 20
    (0x030 + (k - 2 ^ 48) / 2 ^ 20, if o < 0x80000 then o / 0x20000 else 4)
  else if k < 0x001002000000 then (0x0F0, (k - 0x001000000000) / 0x20000)
  else if k < 0x001004000000 then (0x0F1, (k - 0x001002000000) / 0x20000)
  else if k < 0x001300000000 then
    (0x010 + (k - 0x001100000000) / 0x01000000, (k - 0x001100000000) % 0x01000000 / 0x20000)
  else (0x00B, (k - 0x001300000000) / 0x20000)

/-- Two regions are one memory. -/
def Region.same : Region → Region → Bool
  | .dram _, .dram _ => true
  | .sram h _, .sram k _ => h = k
  | .cluster c _, .cluster d _ => c = d
  | .core p _, .core q _ => p = q
  | .page p _, .page q _ => p = q
  | .prism _, .prism _ => true
  | .outbound _, .outbound _ => true
  | _, _ => false

/-- The state of a 1 MiB system SRAM bank (R631): 2 is ON. -/
def sramBank (s : State) (h b : Nat) : Nat :=
  if b < 16 then bits (getReg s (0x0F0 + h) 0x100) (2 * b + 1) (2 * b)
  else bits (getReg s (0x0F0 + h) 0x104) (2 * (b - 16) + 1) (2 * (b - 16))

/-- Bits [j:i] of a number. -/
def nbits (g j i : Nat) : Nat := g / 2 ^ i % 2 ^ (j - i + 1)

/-- R641: the DRAM channel and channel address of an address. -/
def dramChan (s : State) (a : Nat) : Nat × Nat :=
  let u := dramUsable s
  match bits (memCfg s) 25 24 with
  | 0 => let g := a / 256; (nbits g 3 0 ^^^ nbits g 7 4, g / 16 * 256 + a % 256)
  | 1 => let g := a / 4096; (nbits g 3 0 ^^^ nbits g 7 4, g / 16 * 4096 + a % 4096)
  | 2 =>
    let h := a / (u / 2)
    let a' := a % (u / 2)
    let g := a' / 256
    (8 * h + (nbits g 2 0 ^^^ nbits g 5 3), g / 8 * 256 + a' % 256)
  | _ => (a / (u / 16), a % (u / 16))

/-- R642: rank, bank and row of a channel address. -/
def dramBank (s : State) (ca : Nat) : Nat × Nat × Nat :=
  let nb := if bit (memCfg s) 31 then 30 else 32
  let pg := ca / 64 / nb
  let q := pg / 16
  let ranks := if bit (memCfg s) 16 then 2 else 1
  let nr := dramChanBytes s / 2048 / 16 / ranks
  let row := q % nr
  (q / nr, if bit (memCfg s) 20 then (pg % 16) ^^^ (row % 16) else pg % 16, row)

/-- The key of a bank: channel, rank, bank. -/
def bankKey (ch rank bank : Nat) : Nat := ch * 32 + rank * 16 + bank

/-- R646, R647: one access to a bank trains its predictor and settles whether its row stays open. [DEDUCED, log 94] -/
def bankAccess (s : State) (ch ca : Nat) : State :=
  let (rank, bank, row) := dramBank s ca
  let k := bankKey ch rank bank
  let b := kget BankSt.init s.memc.banks k
  let mode := bits (getReg s 0x0E0 0x13C) 17 16
  let adaptive := mode = 0 ∨ mode = 3
  let up := min 3 (b.pred + 1)
  let dn := b.pred - 1
  let p' := match b.openRow with
    | some r => if r = row then up else dn
    | none => match b.lastRow with
      | some r => if r = row then up else dn
      | none => b.pred
  let pred := if adaptive then p' else b.pred
  let stay := if adaptive then decide (2 ≤ pred) else decide (mode = 1)
  let nb : BankSt := ⟨pred, if stay then some row else none, if stay then b.lastRow else some row⟩
  let s := { s with memc := { s.memc with banks := kset BankSt.init s.memc.banks k nb } }
  let s := match b.openRow with
    | some r => incCnt s (0x0E0 + ch) (if r = row then 3 else 4)
    | none => s
  if adaptive ∧ !stay then incCnt s (0x0E0 + ch) 9 else s

/-- The granule bases that `n` bytes from `a` touch, `g` bytes each. -/
def granules (a n g : Nat) : List Nat :=
  if n = 0 then [] else (List.range ((a + n - 1) / g - a / g + 1)).map fun i => (a / g + i) * g

/-- The address that a capture names for the word under memory key `k`: its bus address, or for a core that
backs no logical core the offset within its local memory (R627). -/
def capAddr (s : State) (k : Nat) : Nat :=
  if 2 ^ 48 ≤ k then
    let p := (k - 2 ^ 48) / 2 ^ 20
    let o := (k - 2 ^ 48) % 2 ^ 20
    match logicalOf s p with
    | some lc => 0x001100000000 + lc / 8 * 0x01000000 + 0x800000 + lc % 8 * 0x100000 + o
    | none => o
  else k

/-- R627, R629: a read of one 64-bit word of an array, by its memory key; whether it is uncorrectable.
`origin` is 1 for a read and 2 for the scrubber (R628). -/
def readArrayWord (origin : Nat) (k : Nat) (s : State) : State × Bool :=
  let (p, arr) := keyOwner k
  let ss := decide (p = 0x0F0 ∨ p = 0x0F1)
  match getMark s k with
  | .clean => (s, false)
  | .ce =>
    let s := countCe (captureErr (setMark s k .clean) p ⟨1, arr, origin, p, some (capAddr s k)⟩) p
    (if ss then incCnt s p 2 else s, false)
  | .ue =>
    let s := captureErr s p ⟨2, arr, origin, p, some (capAddr s k)⟩
    (if ss then incCnt s p 3 else s, true)

/-- Reads the words of an array that `n` bytes from memory key `k` touch. -/
def readArrays (s : State) (k n : Nat) : State × Bool :=
  (granules k n 8).foldl (fun acc g => let r := readArrayWord 1 g acc.1; (r.1, acc.2 || r.2)) (s, false)

/-- R644: a read of one DRAM block; whether it is uncorrectable. -/
def readDramBlock (b : Nat) (s : State) : State × Bool :=
  let (ch, ca) := dramChan s b
  let pg := 0x0E0 + ch
  let s := incCnt (bankAccess s ch ca) pg 0
  if bit (memCfg s) 31 then
    match getMark s b with
    | .clean => (s, false)
    | .ce =>
      let s := countCe (captureErr (setMark s b .clean) pg ⟨1, 0x01, 0, pg, some b⟩) pg
      (incCnt s pg 5, false)
    | .ue =>
      let s := captureErr s pg ⟨2, 0x02, 0, pg, some b⟩
      (incCnt (setReg (setReg s pg 0x188 (w32 b)) pg 0x18C (w32 (b / 2 ^ 32))) pg 6, true)
  else (s, false)

/-- The offset of an address within its system SRAM half. -/
def sramBanksOn (s : State) (h off n : Nat) : Bool :=
  (granules off n 0x100000).all fun b => sramBank s h (b / 0x100000) = 2

/-- The state that refuses an access to memory, and the response: power (R631, R769), a controller that is not
enabled (R889), an address that names nothing or spans two memories (R45); none where memory answers. -/
def memBlocked (s : State) (src a n : Nat) : Option (State × Resp) :=
  let r := region s a
  if !(r.same (region s (a + n - 1))) then some (decodeErr s src a, .decode)
  else match r with
  | .dram _ =>
    if enabled s 0x0E0 then none
    else some (captureErr s 0x0E0 ⟨3, 0x08, 0, src, some a⟩, .target)
  | .sram h off =>
    if sramBanksOn s h off n then none
    else some (incCnt (setEvt (captureErr s (0x0F0 + h) ⟨3, 0x01, 0, src, some a⟩) (0x0F0 + h) 2) (0x0F0 + h) 5,
      .target)
  | .cluster c _ => if pdState s c = .on then none else some (offAccess s src a, .target)
  | .core p _ => if pdState s (p / 9) = .on then none else some (offAccess s src a, .target)
  | .prism _ => if pdState s 44 = .on then none else some (offAccess s src a, .target)
  | .outbound _ => none
  | .page _ _ => some (decodeErr s src a, .decode)
  | .unmapped => some (decodeErr s src a, .decode)

/-- A read of `n` bytes of memory at bus address `a` for the unit of page `src`: state, RESP, data. -/
def memRead (s : State) (src a n : Nat) : State × Resp × List Byte :=
  if n = 0 then (s, .ok, [])
  else match memBlocked s src a n with
  | some (s, r) => (s, r, [])
  | none =>
    match region s a with
    | .dram _ =>
      let (s, ue) := (granules a n 64).foldl
        (fun acc g => let r := readDramBlock g acc.1; (r.1, acc.2 || r.2)) (s, false)
      (s, if ue then .poison else .ok, getBytes s a n)
    | .outbound off => (s, .ok, getHostBytes s off n)
    | r =>
      let (s, ue) := readArrays s r.key n
      let s := match r with | .sram h _ => incCnt s (0x0F0 + h) 0 | _ => s
      (s, if ue then .poison else .ok, getBytes s r.key n)

/-- Stores the bytes that are present from memory key `k` on. -/
def putBytes (s : State) (k : Nat) : List (Option Byte) → State
  | [] => s
  | none :: bs => putBytes s (k + 1) bs
  | some b :: bs => putBytes (setByte s k b) (k + 1) bs

/-- The part of a write that falls in the granule of `g` bytes at `b`: where it starts, and its bytes. -/
def inGranule (k : Nat) (data : List (Option Byte)) (b g : Nat) : Nat × List (Option Byte) :=
  if b ≤ k then (k, data.take (b + g - k)) else (b, (data.drop (b - k)).take g)

/-- Every byte of a granule is written. -/
def fullWrite (ds : List (Option Byte)) (g : Nat) : Bool := ds.length = g && ds.all (·.isSome)

/-- R630: a write to one word of an array; whether it is refused. -/
def writeArrayWord (k : Nat) (data : List (Option Byte)) (b : Nat) (s : State) : State × Bool :=
  let (at_, ds) := inGranule k data b 8
  if !(ds.any (·.isSome)) then (s, false)
  else if fullWrite ds 8 then (setMark (putBytes s at_ ds) b .clean, false)
  else match getMark s b with
  | .ue =>
    let (p, arr) := keyOwner b
    let s := captureErr s p ⟨2, arr, 3, p, some (capAddr s b)⟩
    (if p = 0x0F0 ∨ p = 0x0F1 then incCnt s p 3 else s, true)
  | .ce =>
    let p := (keyOwner b).1
    let s := setMark (putBytes (countCe s p) at_ ds) b .clean
    (if p = 0x0F0 ∨ p = 0x0F1 then incCnt s p 2 else s, false)
  | .clean => (putBytes s at_ ds, false)

/-- R645: a write to one DRAM block; whether it is refused. -/
def writeDramBlock (k : Nat) (data : List (Option Byte)) (b : Nat) (s : State) : State × Bool :=
  let (at_, ds) := inGranule k data b 64
  let (ch, ca) := dramChan s b
  let pg := 0x0E0 + ch
  if !(ds.any (·.isSome)) then (s, false)
  else
    let s := bankAccess s ch ca
    if fullWrite ds 64 then (incCnt (setMark (putBytes s at_ ds) b .clean) pg 1, false)
    else if bit (memCfg s) 31 then
      match getMark s b with
      | .ue => (incCnt (captureErr s pg ⟨2, 0x04, 0, pg, some b⟩) pg 6, true)
      | .ce =>
        let s := countCe (captureErr (setMark s b .clean) pg ⟨1, 0x01, 0, pg, some b⟩) pg
        (incCnt (incCnt (putBytes s at_ ds) pg 2) pg 5, false)
      | .clean => (incCnt (putBytes s at_ ds) pg 2, false)
    else (incCnt (putBytes s at_ ds) pg 2, false)

/-- Stores the bytes that are present in host memory. -/
def putHost (s : State) (k : Nat) : List (Option Byte) → State
  | [] => s
  | none :: bs => putHost s (k + 1) bs
  | some b :: bs => putHost { s with hostMem := kset unwritten s.hostMem k b } (k + 1) bs

/-- A unit's aligned 32-bit write to a register page (R46) enters its leaf port as a request of its own, which WR carries.
[DESIGN CHOICE, log 135] -/
def postPageWrite (s : State) (src a : Nat) (data : List (Option Byte)) : State :=
  let r : Req := ⟨s.fab.nextId, .page (Fin.ofNat 1024 src), false, pageLp src, 44, s.fab.cur, true, a, 4,
    data.map (·.getD 0), 0xFFFFFFFFFFFFFFFF, s.time.free, none, false, 0, 0, false, none⟩
  { s with fab := { s.fab with reqs := s.fab.reqs ++ [r], nextId := r.id + 1 } }

/-- An aligned 32-bit access to a register page (R46). -/
def pageWordAt (s : State) (a : Nat) (data : List (Option Byte)) : Bool :=
  match region s a with
  | .page _ off => decide (data.length = 4) && decide (off % 4 = 0) && data.all (·.isSome)
  | _ => false

/-- A write of the bytes that are present at bus address `a` for the unit of page `src`: state and RESP. -/
def memWriteEn (s : State) (src a : Nat) (data : List (Option Byte)) : State × Resp :=
  if data.isEmpty then (s, .ok)
  else if pageWordAt s a data then (postPageWrite s src a data, .ok)
  else match memBlocked s src a data.length with
  | some r => r
  | none =>
    match region s a with
    | .dram _ =>
      let (s, bad) := (granules a data.length 64).foldl
        (fun acc g => let r := writeDramBlock a data g acc.1; (r.1, acc.2 || r.2)) (s, false)
      (s, if bad then .target else .ok)
    | .outbound off => (putHost s off data, .ok)
    | r =>
      let (s, bad) := (granules r.key data.length 8).foldl
        (fun acc g => let x := writeArrayWord r.key data g acc.1; (x.1, acc.2 || x.2)) (s, false)
      let s := match r with | .sram h _ => incCnt s (0x0F0 + h) 1 | _ => s
      (s, if bad then .target else .ok)

/-- A write of `data` at bus address `a` for the unit of page `src`. -/
def memWrite (s : State) (src a : Nat) (data : List Byte) : State × Resp := memWriteEn s src a (data.map some)

/-- The DRAM PLLs are locked: the channels run in lockstep (R637, R799). -/
def dramClock (s : State) : Bool := pllOn s 22 && pllOn s 23

/-- A DRAM channel has served an access between two states. -/
def dramServed (s t : State) : Bool :=
  let n := fun (x : State) => x.cnt.filter fun e => decide (pageKind (e.1 / 32) = some .dramc)
  decide (n s ≠ n t)

/-- What a unit's operation does while no DRAM channel accepts a request (R650): an operation that needs one does not finish,
and its command leaves the state as it was. [DESIGN CHOICE, log 94] -/
def dramHold (s t : State) : State := if (s.memc.fc.isSome || !dramClock s) && dramServed s t then s else t

/-- A write whose response the unit does not act on. -/
def memPut (s : State) (src a : Nat) (data : List Byte) : State := (memWrite s src a data).1

/-- A read whose response the unit does not act on: its bytes, zeros where no data came. -/
def memGet (s : State) (src a n : Nat) : State × List Byte :=
  let (s, _, d) := memRead s src a n
  (s, d ++ List.replicate (n - d.length) 0)

/-- The leaf port to which R554 decodes an address; none where it is unmapped. -/
def addrLp (s : State) (a : Nat) : Option Nat :=
  match region s a with
  | .dram a => some (28 + (dramChan s a).1 / 2)
  | .sram h _ => some (36 + h)
  | .cluster c _ => some c
  | .core p _ => some (p / 9)
  | .page p _ => some (pageLp p)
  | .prism _ => some 42
  | .outbound _ => some 46
  | .unmapped => none

/-- The page to which R554 decodes an address (R811): the unit at fault of a TIMEOUT or TARGET response. -/
def addrPage (s : State) (a : Nat) : Nat :=
  match region s a with
  | .dram a => 0x0E0 + (dramChan s a).1
  | .sram h _ => 0x0F0 + h
  | .cluster c _ => 0x010 + c
  | .core p _ => 0x010 + p / 9
  | .page p _ => p
  | .prism _ => 0x00B
  | .outbound _ => 0x007
  | .unmapped => 0x0FE

end Sys2Proof.Machine
end

