-- ==== Sys2Proof/Machine/Operands.lean ====
section
/-! DEFINITION. The layouts that commands carry: tokens (R99), fire records (R111), work descriptors (R79,
R82–R84), and the rings that the blocks write for the host. -/

namespace Sys2Proof.Machine

/-- A token as its 16 bytes, lowest word first (R99). -/
def tokenBytes (t : Token) : List Byte :=
  leBytes 8 t.payload.toNat ++
    leBytes 8 (t.rsvd.toNat + t.flags.toNat * 2 ^ 20 + t.kind.toNat * 2 ^ 28 + t.port.toNat * 2 ^ 30 +
      t.inst.toNat * 2 ^ 32 + t.template.toNat * 2 ^ 48)

/-- The token that four words spell, lowest word first (R99). -/
def tokenOfWords (w0 w1 w2 w3 : Word) : Token :=
  ⟨BitVec.ofNat 16 (bits w3 31 16), BitVec.ofNat 16 (bits w3 15 0), BitVec.ofNat 2 (bits w2 31 30),
   BitVec.ofNat 2 (bits w2 29 28), BitVec.ofNat 8 (bits w2 27 20), BitVec.ofNat 20 (bits w2 19 0),
   BitVec.ofNat 64 (w0.toNat + 2 ^ 32 * w1.toNat)⟩

/-- FLAGS.DONE (R99). -/
def tokDone (t : Token) : Bool := t.flags.getLsbD 7

/-- FLAGS.TIME (R99). -/
def tokTime (t : Token) : Bool := t.flags.getLsbD 6

/-- The sixteen words of a fire record (R111). -/
def fireWords (f : FireRec) : List Word :=
  let pw (p : Dword) : List Word := [w32 p.toNat, w32 (p.toNat / 2 ^ 32)]
  [w32 (f.template.toNat * 2 ^ 16 + f.inst.toNat),
   w32 (f.opcode.toNat * 2 ^ 16 + f.arrived.toNat * 2 ^ 12 + f.errin.toNat * 2 ^ 8 + f.first.toNat * 2 ^ 6 +
     f.urg.toNat * 2 ^ 4 + (if f.race then 8 else 0))] ++
  pw f.p0 ++ pw f.p1 ++ pw f.p2 ++ pw f.p3 ++
  [w32 (f.pool.toNat * 2 ^ 28 + f.member.toNat * 2 ^ 20), f.issueNs, 0, 0, 0, 0]

/-- A fire record as its 64 bytes. -/
def fireBytes (f : FireRec) : List Byte := (fireWords f).flatMap fun w => leBytes 4 w.toNat

/-- The fire record that sixteen words spell (R111, R152). -/
def fireOfWords (ws : List Word) : FireRec :=
  let w (i : Nat) : Word := (ws[i]?).getD 0
  let pay (i : Nat) : Dword := BitVec.ofNat 64 ((w i).toNat + 2 ^ 32 * (w (i + 1)).toNat)
  ⟨BitVec.ofNat 16 (bits (w 0) 31 16), BitVec.ofNat 16 (bits (w 0) 15 0), BitVec.ofNat 16 (bits (w 1) 31 16),
   BitVec.ofNat 4 (bits (w 1) 15 12), BitVec.ofNat 4 (bits (w 1) 11 8), BitVec.ofNat 2 (bits (w 1) 7 6),
   BitVec.ofNat 2 (bits (w 1) 5 4), bit (w 1) 3, pay 2, pay 4, pay 6, pay 8,
   BitVec.ofNat 4 (bits (w 10) 31 28), BitVec.ofNat 8 (bits (w 10) 27 20), w 11⟩

/-- The payload of port `p` of a fire record. -/
def firePayload (f : FireRec) (p : Nat) : Dword :=
  match p with
  | 0 => f.p0
  | 1 => f.p1
  | 2 => f.p2
  | _ => f.p3

/-- What a unit finds at a descriptor's address. -/
inductive Fetch where
  | notOwned
  | bad (r : Resp)
  | refused
  | got (ws : List Word)
  deriving DecidableEq, Repr

/-- A unit of page `src` fetches the descriptor at `a` for block type `blk` (R79, R82, R83): `ok kind len`
says what it supports. The words read are `len × 16`. -/
def fetchDesc (s : State) (src a blk : Nat) (ok : Nat → Nat → Bool) : State × Fetch :=
  let (s, r, d) := memRead s src a 64
  if r ≠ .ok then (s, .bad r)
  else
    let w0 := wordAt d 0
    if !bit w0 31 then (s, .notOwned)
    else if bits w0 15 4 ≠ blk ∨ !(ok (bits w0 3 0) (bits w0 23 16)) then (s, .refused)
    else
      let len := bits w0 23 16
      let (s, r, d) := memRead s src a (64 * len)
      if r ≠ .ok then (s, .bad r)
      else (s, .got ((List.range (16 * len)).map (wordAt d)))

/-- R20, R84: the write-back of a descriptor: word 1, then word 0 with OWN clear. -/
def closeDesc (s : State) (src a result cls sts : Nat) : State :=
  let w1 := w32 (result % 16 * 2 ^ 28 + cls % 16 * 2 ^ 24 + sts % 2 ^ 24)
  let s := memPut s src (a + 4) (leBytes 4 w1.toNat)
  let (s, d) := memGet s src a 4
  memPut s src a (leBytes 4 (putBit (wordAt d 0) 31 false).toNat)

/-- R83: a descriptor of another block, kind or length is refused. [DEDUCED, log 25] -/
def refuseDesc (s : State) (src a : Nat) : State := closeDesc s src a 3 6 0

/-- A block's ring in memory (the HA rings and Prism's event ring): page, the offset of BASE_LO, SIZE, HEAD and
TAIL, the size of an entry, and the bounds of the size's logarithm. -/
structure Ring where
  page : Nat
  base : Nat
  size : Nat
  head : Nat
  tail : Nat
  entry : Nat
  align : Nat
  lo : Nat
  hi : Nat

/-- The number of entries of a ring. A size outside the stated range acts as the nearest bound. [DEDUCED, log 27] -/
def Ring.count (s : State) (r : Ring) : Nat := 2 ^ (max r.lo (min r.hi (bits (getReg s r.page r.size) 4 0)))

/-- A ring holds one entry fewer than its size, so that full and empty differ. [DEDUCED, log 27] -/
def Ring.full (s : State) (r : Ring) : Bool :=
  ((getReg s r.page r.head).toNat + 1) % r.count s = (getReg s r.page r.tail).toNat % r.count s

/-- Writes an entry at HEAD and advances it. -/
def Ring.push (s : State) (r : Ring) (data : List Byte) : State :=
  let h := (getReg s r.page r.head).toNat % r.count s
  let s' := memPut s r.page (getPair s r.page r.base r.align + h * r.entry) data
  setReg s' r.page r.head (w32 ((h + 1) % r.count s))

end Sys2Proof.Machine
end

