-- ==== Sys2Proof/Machine/Num.lean ====
section
/-! DEFINITION. Arithmetic of the sample, weight and soft-value formats: exact rationals, one rounding at the end
(R242, R246), saturation, NV format, decibels, and the discrete Fourier sums. -/

namespace Sys2Proof.Machine

/-- A complex number with exact rational parts. -/
structure Cx where
  re : Rat
  im : Rat
  deriving DecidableEq, Repr

/-- The complex number 0. -/
def Cx.zero : Cx := ⟨0, 0⟩

/-- Addition. -/
def Cx.add (a b : Cx) : Cx := ⟨a.re + b.re, a.im + b.im⟩

/-- Subtraction. -/
def Cx.sub (a b : Cx) : Cx := ⟨a.re - b.re, a.im - b.im⟩

/-- Multiplication. -/
def Cx.mul (a b : Cx) : Cx := ⟨a.re * b.re - a.im * b.im, a.re * b.im + a.im * b.re⟩

/-- The conjugate. -/
def Cx.conj (a : Cx) : Cx := ⟨a.re, -a.im⟩

/-- Scaling by a real. -/
def Cx.scale (r : Rat) (a : Cx) : Cx := ⟨r * a.re, r * a.im⟩

/-- The squared magnitude. -/
def Cx.normSq (a : Cx) : Rat := a.re * a.re + a.im * a.im

/-- A sum. -/
def Cx.sum (xs : List Cx) : Cx := xs.foldl Cx.add Cx.zero

/-- 2^n for any integer exponent. -/
def pow2 (n : Int) : Rat := if 0 ≤ n then (2 ^ n.toNat : Nat) else 1 / ((2 ^ (-n).toNat : Nat) : Rat)

/-- Rounding to nearest, ties to even (R242). [DESIGN CHOICE, log 46] -/
def roundEven (x : Rat) : Int :=
  let f := x.floor
  let r := x - f
  if r < 1 / 2 then f else if 1 / 2 < r then f + 1 else if f % 2 = 0 then f else f + 1

/-- Saturation of an integer to `n` bits, two's complement; whether it saturated. -/
def satBits (n : Nat) (x : Int) : Int × Bool :=
  let hi : Int := (2 ^ (n - 1) : Nat) - 1
  let lo : Int := -(2 ^ (n - 1) : Nat)
  (clampI lo hi x, decide (x < lo ∨ hi < x))

/-- A complex sample of R16 with `frac` fraction bits. -/
def cxOfWord (frac : Nat) (w : Word) : Cx :=
  ⟨(signed 16 (bits w 15 0) : Rat) / (2 ^ frac : Nat), (signed 16 (bits w 31 16) : Rat) / (2 ^ frac : Nat)⟩

/-- The sample of a pair of integers (R16). -/
def wordOfIQ (i q : Int) : Word := w32 (wrapN 16 i + wrapN 16 q * 2 ^ 16)

/-- A complex number rounded once and saturated into 16-bit parts with `frac` fraction bits; how many parts
saturated. -/
def wordOfCx (frac : Nat) (x : Cx) : Word × Nat :=
  let (i, a) := satBits 16 (roundEven (x.re * (2 ^ frac : Nat)))
  let (q, b) := satBits 16 (roundEven (x.im * (2 ^ frac : Nat)))
  (wordOfIQ i q, (if a then 1 else 0) + if b then 1 else 0)

/-! ### Circular functions, roots and logarithms

An irrational value is taken to 128 fraction bits. It is rounded to 64 fraction bits before the one rounding of
the result, so that sums whose exact value is a tie are ties. -/

/-- π in units of 2⁻¹⁶⁰. -/
def pi160 : Int := 4591442807048218921384805199743311128454155024418

/-- log₁₀ 2 in units of 2⁻¹⁶⁰. -/
def lg160 : Int := 439955831548623122774149928833172469070702221411

/-- The sum of a Taylor series in units of 2⁻¹⁶⁰: term `t`, argument squared `x2`, next index `k`. -/
def taylorAlt : Nat → Int → Int → Int → Int
  | 0, _, _, _ => 0
  | n + 1, t, x2, k => t + taylorAlt n (-(t * x2 / 2 ^ 160) / (k * (k + 1))) x2 (k + 2)

/-- Cosine of an angle in units of 2⁻¹⁶⁰ rad, up to π/4. [DESIGN CHOICE, log 46] -/
def cosSmall (x : Int) : Int := taylorAlt 30 (2 ^ 160) (x * x / 2 ^ 160) 1

/-- Sine, likewise. [DESIGN CHOICE, log 46] -/
def sinSmall (x : Int) : Int := taylorAlt 30 x (x * x / 2 ^ 160) 2

/-- An integer in units of 2⁻¹⁶⁰ rounded to 128 fraction bits. -/
def rat128 (x : Int) : Rat := ((x + 2 ^ 31) / 2 ^ 32 : Int) / ((2 ^ 128 : Nat) : Rat)

/-- cos and sin of 2π·k/n for 8k ≤ n. -/
def octant (k n : Nat) : Rat × Rat :=
  let x := 2 * pi160 * k / n
  (rat128 (cosSmall x), rat128 (sinSmall x))

/-- cos and sin of 2π·k/n for 4k ≤ n. -/
def quadrant (k n : Nat) : Rat × Rat :=
  if 8 * k ≤ n then octant k n else let (c, s) := octant (n - 4 * k) (4 * n); (s, c)

/-- e^(j2πk/n). -/
def turn (k n : Nat) : Cx :=
  let k := k % n
  let q := 4 * k / n
  let (c, s) := quadrant (4 * k - q * n) (4 * n)
  match q with
  | 0 => ⟨c, s⟩
  | 1 => ⟨-s, c⟩
  | 2 => ⟨-c, -s⟩
  | _ => ⟨s, -c⟩

/-- A rational rounded to 64 fraction bits. [DESIGN CHOICE, log 46] -/
def snap64 (x : Rat) : Rat := (roundEven (x * (2 ^ 64 : Nat)) : Rat) / (2 ^ 64 : Nat)

/-- Both parts rounded to 64 fraction bits. -/
def Cx.snap (a : Cx) : Cx := ⟨snap64 a.re, snap64 a.im⟩

/-- The square root of a rational that is not negative, to 128 fraction bits. [DESIGN CHOICE, log 46] -/
def sqrtQ (x : Rat) : Rat := (Nat.sqrt (x * (2 ^ 256 : Nat)).floor.toNat : Nat) / ((2 ^ 128 : Nat) : Rat)

/-- Fraction bits of a base-2 logarithm, by repeated squaring of a mantissa in [1, 2) with 128 fraction bits.
[DESIGN CHOICE, log 46] -/
def log2Frac : Nat → Nat → Nat
  | 0, _ => 0
  | n + 1, m =>
    let m' := m * m / 2 ^ 128
    if 2 ^ 129 ≤ m' then 2 ^ n + log2Frac n (m' / 2) else log2Frac n m'

/-- 10·log₁₀ x for a positive rational, to 40 fraction bits of the binary logarithm. -/
def dB (x : Rat) : Rat :=
  let e : Int := (Nat.log2 x.num.toNat : Int) - (Nat.log2 x.den : Int)
  let e := if x < pow2 e then e - 1 else e
  let m := (x / pow2 e * (2 ^ 128 : Nat)).floor.toNat
  ((e : Rat) + (log2Frac 40 m : Nat) / ((2 ^ 40 : Nat) : Rat)) * 10 * rat128 lg160

/-- A value in decibels as signed Q8.8, saturated; the least value for a power of 0. -/
def dBq8 (x : Rat) : Nat := wrapN 16 (if x ≤ 0 then -32768 else clampI (-32768) 32767 (roundEven (dB x * 256)))

/-! ### NV format -/

/-- The value of a word in NV format: M × 2^(−16−E). -/
def nvValue (w : Word) : Rat := (bits w 15 0 : Rat) * pow2 (-16 - (bits w 20 16 : Int))

/-- The exponents of NV format, smallest first, that `n` more steps may try. [DEDUCED, log 47] -/
def nvFind (x : Rat) : Nat → Nat → Word
  | 0, _ => w32 (2 ^ 16 * 31 + (min 0xFFFF (roundEven (x * pow2 47)).toNat))
  | n + 1, e =>
    let m := roundEven (x * pow2 (16 + e))
    if 0x8000 ≤ m then w32 (2 ^ 16 * e + min 0xFFFF m.toNat) else nvFind x n (e + 1)

/-- A value as a word in NV format, M ≥ 0x8000 unless the value is 0. -/
def nvWord (x : Rat) : Word := if x ≤ 0 then 0 else nvFind x 31 0

/-! ### Fourier sums -/

/-- Σ_n x[n]·e^(∓j2πkn/N) over a list. -/
def dftSum (inverse : Bool) (tw : List Cx) (nn k : Nat) (xs : List Cx) : Cx :=
  Cx.sum ((List.zipIdx xs).map fun (x, n) =>
    let e := (tw[(k * n) % nn]?).getD Cx.zero
    x.mul (if inverse then e else e.conj))

/-- The `nn` roots of unity. -/
def roots (nn : Nat) : List Cx := (List.range nn).map fun k => turn k nn

/-- The discrete Fourier transform of `nn` points, unscaled. -/
def dft (inverse : Bool) (nn : Nat) (xs : List Cx) : List Cx :=
  let tw := roots nn
  (List.range nn).map fun k => (dftSum inverse tw nn k xs).snap

end Sys2Proof.Machine
end

