-- ==== Sys2Proof/Machine/Unit.lean ====
section
/-! DEFINITION. What the execution units share: which page a pool member is, taking a fire, fetching its
descriptor, reading operands, and ending an operation. -/

namespace Sys2Proof.Machine

/-- The page of a pool member (R96); none where the pool or the member does not exist, or where no physical core
backs a logical core. [DEDUCED, log 33] -/
def memberPage (s : State) (pool m : Nat) : Option Nat :=
  match pool with
  | 0 => if m < 128 then (physOf s m).map (0x030 + ·) else none
  | 1 => if m < 16 then some (0x020 + m) else none
  | 2 => if m < 4 then some (0x0D0 + m) else none
  | 3 => if m < 4 then some (0x0CC + m) else none
  | 4 => if m < 4 then some (0x0C8 + m) else none
  | 5 => if m = 0 then some 0x00B else none
  | 6 => if m < 8 then some (0x0D8 + m) else none
  | 7 => if m = 0 then some 0x0E0 else none
  | 8 => if m < 8 then some 0x007 else none
  | 9 => if m < 8 then some (0x0C0 + m) else none
  | _ => none

/-- R115: an element of class `cls x` enters a queue: one of class 0 ahead of the queued ones of class 1–3, but not of what
`fixed` says is no queued fire. -/
def enqueueFire {α : Type} (cls : α → Nat) (fixed : α → Bool) (x : α) : List α → List α
  | [] => [x]
  | y :: ys =>
    if cls x = 0 && !fixed y && decide (cls y ≠ 0) then x :: y :: ys else y :: enqueueFire cls fixed x ys

/-- OPCODE[15:12] of a fire. -/
def fireKind (f : FireRec) : Nat := f.opcode.toNat / 4096

/-- A fire that page `p` takes, where the dispatcher has fired it and its record has arrived (R24): first the fires whose
descriptor it found not owned, each of which it fetches again (R82), then this one; every fire is refused with DISABLED where
the block is not enabled (R56). [DEDUCED, log 24] -/
def fireRow (p disabled : Nat) (f : FireRec) (start : FireRec → State → State) (s : State) : State :=
  if !s.arrived.contains f || !pageClock s p then s else
  let s := takeArrived s f
  let old := (s.unowned.filter fun x => x.1 = p).map (·.2)
  let s := { s with unowned := s.unowned.filter fun x => !decide (x.1 = p) }
  (old ++ [f]).foldl (fun s g => if enabled s p then start g s else failFire s p g disabled) s

/-- A fire whose descriptor is not owned waits for the next one (R82). [DEDUCED, log 24] -/
def holdUnowned (s : State) (p : Nat) (f : FireRec) : State :=
  { s with unowned := s.unowned ++ [(p, f)] }

/-- The descriptor of a fire in a table of 64-byte descriptors, 4,096 bytes for an instance (R234, R282). -/
def descAddr (base : Nat) (f : FireRec) : Nat :=
  base + f.inst.toNat % 1024 * 4096 + f.opcode.toNat % 64 * 64

/-- A 64-bit field of a descriptor, as an address. -/
def wAddr (ws : List Word) (i : Nat) : Nat :=
  (((ws[i]?).getD 0).toNat + 2 ^ 32 * ((ws[i + 1]?).getD 0).toNat) % 2 ^ 48

/-- A word of a descriptor. -/
def wWord (ws : List Word) (i : Nat) : Word := (ws[i]?).getD 0

/-! ### Operands -/

/-- The working of an operation: it reads memory and may fail. -/
abbrev RdM := EStateM OpErr State

/-- Reads operand bytes for page `p`. A read that answers neither data nor POISON is a bad argument. [DEDUCED, log 44] -/
def rdBytes (p a n : Nat) : RdM (List Byte) := fun s =>
  match memRead s p a n with
  | (s, .ok, d) => .ok d s
  | (s, .poison, _) => .error (.ue a) s
  | (s, _, _) => .error .badArg s

/-- Reads `n` operand words. -/
def rdWords (p a n : Nat) : RdM (List Word) := do
  let d ← rdBytes p a (4 * n)
  return (List.range n).map (wordAt d)

/-- Reads the state without changing it. -/
def rdGet {α : Type} (g : State → α) : RdM α := fun s => .ok (g s) s

/-- A list of words as bytes. -/
def wordsBytes (ws : List Word) : List Byte := ws.flatMap fun w => leBytes 4 w.toNat

/-- Writes an operation's outputs in order. -/
def putOuts (s : State) (p : Nat) (outs : List (Nat × List Byte)) : State :=
  outs.foldl (fun s o => memPut s p o.1 o.2) s

/-- Removes the element in place `i`. -/
def dropAt {α : Type} : List α → Nat → List α
  | [], _ => []
  | _ :: xs, 0 => xs
  | x :: xs, i + 1 => x :: dropAt xs i

/-- A quotient; the spec states none by 0. [DEDUCED, log 48] -/
def qdiv (x y : Rat) : Rat := if y = 0 then Config.divZero x else x / y

/-! ### Requests that the fabric tracks -/

/-- A unit's request enters its leaf port (R554, R566): its number, and the state that tracks it. `chan` and `tag`
tell the unit what it asked for. [DESIGN CHOICE, log 87] -/
def issueReq (s : State) (who : Initiator) (isWrite : Bool) (addr len : Nat) (data : List Byte) (chan tag : Nat) :
    Nat × State :=
  let r : Req := ⟨s.fab.nextId, who, false, initLp s who, (addrLp s addr).getD 44, s.fab.cur, isWrite, addr, len, data,
    0xFFFFFFFFFFFFFFFF, s.time.free, none, false, chan, tag, false, none⟩
  (r.id, { s with fab := { s.fab with reqs := s.fab.reqs ++ [r], nextId := r.id + 1 } })

/-- A request leaves the list of those tracked. -/
def dropReq (s : State) (id : Nat) : State :=
  { s with fab := { s.fab with reqs := s.fab.reqs.filter fun r => !decide (r.id = id) } }

/-- The page that owns the memory at an address (R811). -/
def ownerPage (s : State) (a : Nat) : Nat :=
  match region s a with
  | .dram a => 0x0E0 + (dramChan s a).1
  | .outbound _ => 0x007
  | .unmapped => 0x0FE
  | .page p _ => p
  | r => (keyOwner r.key).1

end Sys2Proof.Machine
end

