-- ==== Sys2Proof/Machine/Access.lean ====
section
/-! DEFINITION. What every access to a register page meets before the register itself: the boot gate (R829), a page
that is not ON (R48), and the pairs of R77 and R78. -/

namespace Sys2Proof.Machine

/-- BOOT_STS.READY (R829). -/
def bootReady (s : State) : Bool := bit (getReg s 0x00D 0x108) 31

/-- R829: a host access through BAR0 before READY, to a page other than BOOT and SECMB. [DESIGN CHOICE, log 11] -/
def bootGated (s : State) (a : Acc) (p : Nat) : Bool :=
  decide (a.who = .host) && !bootReady s && !decide (p = 0x00D) && !decide (p = 0x00C)

/-- Site role DU-end (R31). -/
def duEnd (s : State) : Bool := decide (getReg s 0x000 0x108 = 2)

/-- The bus address of a register. -/
def regAddr (p off : Nat) : Nat := 0x001200000000 + p * 0x1000 + off

/-- A write to a register, where it reaches the page: discarded before READY (R829) and while the page is not ON
(R48), else what `f` does. -/
def onPage (a : Acc) (p off : Nat) (f : State → State) (s : State) : State :=
  if bootGated s a p then s
  else if !pageOn s p then offAccess s (initPage s a.who) (regAddr p off)
  else f s

/-- The key of a held _LO write. -/
def holdKey (a : Acc) (p off : Nat) : Nat := (p * 4096 + off) * 4 + accPath a

/-- R77: a page holds the value written to a _LO register for its path. [DEDUCED, log 18] -/
def holdLo (s : State) (a : Acc) (p off : Nat) (v : Word) : State :=
  { s with holdWr := kset none s.holdWr (holdKey a p off) (some v) }

/-- R77, R78: the _LO value that the path of a write of _HI holds, if it holds one, and the state that no longer holds it.
[DEDUCED, log 18] -/
def takeLo (s : State) (a : Acc) (p off : Nat) : Option Word × State :=
  match kget none s.holdWr (holdKey a p off) with
  | some v => (some v, { s with holdWr := kset none s.holdWr (holdKey a p off) none })
  | none => (none, s)

/-- A register read's answer, as its reader sees it (R12). -/
def answer (a : Acc) (v : Word) (s : State) : State := { s with rdOut := some (readGives a.who .ok (leBytes 4 v.toNat)) }

/-- A read of a register: 0 to the host before READY (R829) and while the page is not ON (R48), else what `f` gives. -/
def onRead (a : Acc) (p off : Nat) (f : State → Word × State) (s : State) : State :=
  if bootGated s a p then answer a 0 s
  else if !pageOn s p then answer a 0 (offAccess s (initPage s a.who) (regAddr p off))
  else
    let (v, s) := f s
    answer a v s

/-- The key of a page's holding register for a path (R73). -/
def holdRdKey (a : Acc) (p : Nat) : Nat := p * 4 + accPath a

/-- The key of the holding register of a further TIME register for a path (R742, R760). -/
def holdTimeKey (a : Acc) (off : Nat) : Nat := 2 ^ 16 + off * 4 + accPath a

/-- Stores a holding register. -/
def setHold (s : State) (k : Nat) (v : Word) : State := { s with holdRd := kset 0 s.holdRd k v }

end Sys2Proof.Machine
end

