-- ==== Sys2Proof/Machine/Chain.lean ====
section
/-! DEFINITION. What the sample path's units share: the lane-side rate and the lane samples (R162), the LEMC of a DFE
group, the antenna reference plane, the chains' state, and the formats through the chains (R220). -/

namespace Sys2Proof.Machine

/-! ### The DFE blocks -/

/-- The page of DFE `k`. -/
def dfePage (k : Nat) : Nat := 0x0C8 + k

/-- A DFE block. -/
def dfeOf (s : State) (k : Nat) : DfeSt := kget DfeSt.init s.dfe k

/-- Stores a DFE block. -/
def setDfe (s : State) (k : Nat) (x : DfeSt) : State := { s with dfe := kset DfeSt.init s.dfe k x }

/-- Changes a DFE block. -/
def modDfe (s : State) (k : Nat) (f : DfeSt → DfeSt) : State := setDfe s k (f (dfeOf s k))

/-- CS_CONF of a carrier slot. -/
def csConf (s : State) (k c : Nat) : Word := getRegI s (dfePage k) 0x214 c

/-- The chains of a carrier slot. -/
def csChains (s : State) (k c : Nat) : Nat :=
  (getRegI s (dfePage k) 0x218 c).toNat + 2 ^ 32 * (getRegI s (dfePage k) 0x21C c).toNat

/-- DIR of a carrier slot: bit 0 receive, bit 1 transmit. -/
def csDir (s : State) (k c : Nat) : Nat := bits (csConf s k c) 17 16

/-- The 24 coefficients of a bank (R192); after reset the centre tap is 1.0. [DESIGN CHOICE, log 40] -/
def bankTaps (s : State) (k b : Nat) : List Word :=
  (List.range 24).map fun t => kget (if t = 23 then 0x1FFFF else 0) (dfeOf s k).coefs (b * 24 + t)

/-- The coefficients that a carrier slot uses. -/
def csTaps (s : State) (k c : Nat) : List Word := bankTaps s k (bits (csConf s k c) 7 5)

/-- CS_LAT of a carrier slot (R194): fixed by CS_CONF and the bank, and not stated further; 0 in a direction that the slot
does not have. -/
def csLatOf (s : State) (k c : Nat) : Word :=
  let w := Config.csLat (csConf s k c) (csTaps s k c)
  w32 ((if (csDir s k c).testBit 1 then bits w 31 16 * 2 ^ 16 else 0) + if (csDir s k c).testBit 0 then bits w 15 0 else 0)

/-! ### Lane samples and the LEMC -/

/-- The lane-side rate in kHz of a RATE code (R162). -/
def rateKhz (code : Nat) : Nat :=
  match code with
  | 1 => 245760
  | 2 => 122880
  | 3 => 61440
  | 4 => 30720
  | 5 => 46080
  | 6 => 23040
  | _ => 491520

/-- The lane-side rate of a DFE group in kHz. -/
def laneRate (s : State) (k : Nat) : Nat := rateKhz (bits (getReg s (dfePage k) 0x100) 2 0)

/-- The lane samples of a group up to a FREE count of 983.04 MHz cycles. [DESIGN CHOICE, log 37] -/
def laneCount (s : State) (k free : Nat) : Nat := free * laneRate s k / 983040

/-- A lane sample of a group falls in the present cycle. -/
def laneDue (s : State) (k : Nat) : Bool := laneCount s k (freeNow s) != laneCount s k (freeNow s - 1)

/-- The LEMC of a group. -/
def lemcOf (s : State) (k : Nat) : LemcSt := kget LemcSt.init s.lemc k

/-- Stores the LEMC of a group. -/
def setLemc (s : State) (k : Nat) (x : LemcSt) : State := { s with lemc := kset LemcSt.init s.lemc k x }

/-- The lane sample that the group is at. -/
def laneAbs (s : State) (k : Nat) : Int := laneCount s k (freeNow s)

/-- The lane samples since the LEMC epoch (R190). -/
def laneNo (s : State) (k : Nat) : Int := laneAbs s k - (lemcOf s k).epoch

/-! ### The antenna reference plane (R203) -/

/-- ANT_OFFSET in units of 2⁻³² ns. -/
def antOffset (s : State) (k : Nat) : Int := (bits (getReg s (dfePage k) 0x104) 15 0 * 2 ^ 32 : Nat)

/-- The time at the antenna plane of the sample that is at the lane output now. -/
def txPlane (s : State) (k : Nat) : Int := devTime s + antOffset s k

/-- The time at the antenna plane of the sample that is at the lane input now. [DEDUCED, log 37] -/
def rxPlane (s : State) (k : Nat) : Int := devTime s - antOffset s k

/-- The time at the antenna plane of a slot's sample that enters the OFDM block now: its CS_LAT after the lane (R230). -/
def rxStreamTime (s : State) (k c : Nat) : Int := rxPlane s k - (bits (csLatOf s k c) 15 0 * 2 ^ 32 : Nat)

/-- The time at the antenna plane of a slot's sample that leaves the OFDM block now. -/
def txStreamTime (s : State) (k c : Nat) : Int := txPlane s k + (bits (csLatOf s k c) 31 16 * 2 ^ 32 : Nat)

/-! ### Chains -/

/-- The chain `c` of DFE `k` (R160). -/
def chainOf (s : State) (k c : Nat) : ChainSt := kget ChainSt.init s.chains (k * 132 + c)

/-- Stores a chain. -/
def setChain (s : State) (k c : Nat) (x : ChainSt) : State := { s with chains := kset ChainSt.init s.chains (k * 132 + c) x }

/-- A windowed register of a chain as the samples use it: the active copy (R212, R217). -/
def chActive (s : State) (k c off : Nat) : Word := getRegI s (dfePage k) off (c * 2 + if off = 0x1C0 ∨ off = 0x1D8 then 0 else 1)

/-- A chain's carrier channel. -/
def chanOfSlot (x : ChainSt) (slot : Nat) : ChanSt := kget ChanSt.init x.chans slot

/-- The carrier stream of a slot on a receive chain from time `t` at the antenna plane on, at `rate` kHz: how many samples after
`t` its first one comes, and the samples. -/
def streamAt (s : State) (k c slot : Nat) (t : Int) (rate : Nat) : Nat × List Word :=
  let l := ((chanOfSlot (chainOf s k c) slot).strm.takeWhile fun e => decide (t ≤ e.1)).reverse
  (match l with
    | [] => 0
    | x :: _ => ((x.1 - t) * rate / (1000000 * 2 ^ 32 : Nat)).toNat,
   l.map (·.2))

/-- The samples of a chain's log with numbers from `a` up to but not including `b`, in order. -/
def logRange (s : State) (k c : Nat) (a b : Int) : List ChSample :=
  (((chainOf s k c).log.takeWhile fun e => decide (a ≤ e.n)).filter fun e => decide (e.n < b)).reverse

/-! ### Formats (R220) -/

/-- A sample in Q3.17 as a number. -/
def ofQ317 (x : Int × Int) : Cx := ⟨(x.1 : Rat) / (2 ^ 17 : Nat), (x.2 : Rat) / (2 ^ 17 : Nat)⟩

/-- Narrowing to Q3.17; whether it saturates. A complex sample that saturates counts once. [DESIGN CHOICE, log 37] -/
def toQ317 (x : Cx) : (Int × Int) × Nat :=
  let (i, a) := satBits 20 (roundEven (x.re * (2 ^ 17 : Nat)))
  let (q, b) := satBits 20 (roundEven (x.im * (2 ^ 17 : Nat)))
  ((i, q), if a || b then 1 else 0)

/-- Narrowing to Q1.15; whether it saturates. -/
def toQ115 (x : Cx) : Word × Nat :=
  let (w, n) := wordOfCx 15 x
  (w, min 1 n)

/-- The sum of a filter over the inputs that it holds, newest first. -/
def firSum (h : List Rat) (xs : List (Int × Int)) : Cx := Cx.sum (List.zipWith (fun r x => (ofQ317 x).scale r) h xs)

/-- The taps of one phase of a filter. -/
def phaseTaps (h : List Rat) (p r : Nat) : List Rat := (h.zipIdx.filter fun e => e.2 % p = r).map (·.1)

/-- e^(j2πθ/2³²) of an NCO whose word is `freq`, `n` lane samples after the LEMC epoch (R190). -/
def ncoTurn (freq : Word) (n : Int) : Cx := turn (wrapN 32 (freq.toInt * n)) (2 ^ 32)

/-- `r` half-band stages of decimation: the stages' inputs, the output with its number, the saturations. -/
def halfDown : Nat → Int → Int × Int → List (List (Int × Int)) → List (List (Int × Int)) × Option (Int × Int × Int) × Nat
  | 0, n, x, st => (st, some (n, x), 0)
  | r + 1, n, x, st =>
    let h := Config.halfBand r
    let buf := (x :: st.headD []).take (max 1 h.length)
    if n % 2 ≠ 0 then (buf :: st.tail, none, 0)
    else
      let (y, k) := toQ317 (firSum h buf)
      let (rest, o, k') := halfDown r (n / 2) y st.tail
      (buf :: rest, o, k + k')

end Sys2Proof.Machine
end

