-- ==== Sys2Proof/Machine/Dfe.lean ====
section
/-! DEFINITION. The control side of the DFE blocks: ramps, PA_CTRL and TDD_CTRL, carrier slots, the chain store and
the coefficient banks (R183–R223). Times are device times in units of 2⁻³² ns at the antenna reference plane: an envelope is
that of the sample at the lane output, which leaves the antenna ANT_OFFSET later (R203); PA_CTRL and TDD_CTRL act there
at once. -/

namespace Sys2Proof.Machine

/-- Cycles of 983.04 MHz as a time. -/
def cycTime (n : Nat) : Int := (2 ^ 32 * 3125 * n / 3072 : Nat)

/-- The device time that a nanosecond slice names, by the signed difference of R19. -/
def timeAt (s : State) (slice : Word) : Int := (devNs s - sinceTarget s slice) * (2 ^ 32 : Nat)

/-- The length of profile `p` (R223). -/
def profLen (s : State) (k p : Nat) : Int :=
  cycTime (max 492 (min 9830 (bits (getReg s (dfePage k) (0x120 + 4 * p)) 13 0)))

/-- ALIGN of profile `p`; 3 acts as 0 (R201). -/
def profAlign (s : State) (k p : Nat) : Nat := bits (getReg s (dfePage k) (0x120 + 4 * p)) 17 16 % 3

/-- The start of a ramp (R201). -/
def rampAt (s : State) (k : Nat) (c : DfeCmd) : Int :=
  let len := profLen s k c.prof
  let up := c.op = 1 ∨ c.op = 3
  match profAlign s k c.prof with
  | 0 => if up then c.tsw - len else c.tsw
  | 1 => c.tsw - len / 2
  | _ => if up then c.tsw else c.tsw - len

/-- The envelope of a group. -/
def envOf (x : DfeSt) (g : Nat) : EnvSt := kget EnvSt.init x.groups g

/-- The envelope of a slot's transmit channels. -/
def txOf (x : DfeSt) (c : Nat) : EnvSt := kget EnvSt.init x.tx c

/-- An envelope is above 0, or ramps. -/
def envActive (e : EnvSt) : Bool := e.high || e.ramp.isSome

/-- The part of its curve that a ramp has run through at a time, in parts of 2³². [DEDUCED, log 38] -/
def rampFrac (r : Ramp) (now : Int) : Int :=
  if r.len ≤ 0 then 2 ^ 32 else clampI 0 (2 ^ 32) (r.frac + (now - r.at_) * 2 ^ 32 / r.len)

/-- The end of a ramp. -/
def rampEndAt (r : Ramp) : Int := r.at_ + (2 ^ 32 - r.frac) * r.len / 2 ^ 32

/-- A ramp of an envelope starts now (R200, R209): at the point of its own curve whose value is the present one. The
up and down curves mirror each other, so that a reversal starts at the part that was left. [DEDUCED, log 38] -/
def startRamp (e : EnvSt) (up : Bool) (now len : Int) : EnvSt :=
  match e.ramp with
  | some r =>
    let f := rampFrac r now
    { e with ramp := some ⟨up, now, len, if r.up = up then f else 2 ^ 32 - f⟩ }
  | none => { e with ramp := some ⟨up, now, len, if e.high = up then 2 ^ 32 else 0⟩ }

/-! ### Registers behind windows -/

/-- A carrier is on in either direction (R189). -/
def carrierOn (s : State) (k c : Nat) : Bool := (dfeOf s k).rxOn.getLsbD c || envActive (txOf (dfeOf s k) c)

/-- R188: chains of `m` that other slots with direction `d` already take four times. -/
def tooMany (s : State) (k c d m : Nat) : Bool :=
  (List.range 64).any fun i => m.testBit i &&
    decide (4 ≤ ((List.range 16).filter fun o =>
      o ≠ c ∧ (csDir s k o).testBit d ∧ (csChains s k o).testBit i).length)

/-- R187, R188: a slot with direction `dir` and chains `m` would give a chain a fifth channel in a direction. -/
def chainsOver (s : State) (k c dir m : Nat) : Bool :=
  (List.range 2).any fun d => dir.testBit d && tooMany s k c d m

/-- A write of a carrier slot's register (R187–R189). A write of CS_CONF that would give a chain a fifth channel is ignored as
one of CS_CHAINS is: R187 allows four, and the spec states no effect of that write. [DESIGN CHOICE, log 41] -/
def csWrite (k off : Nat) (v : Word) (s : State) : State :=
  let p := dfePage k
  let c := bits (getReg s p 0x200) 3 0
  if off ≠ 0x220 ∧ carrierOn s k c then setEvt s p 5
  else if off = 0x214 ∧ chainsOver s k c (bits v 17 16) (csChains s k c) then setEvt s p 5
  else setRegI s p off c v

/-- A write of CS_CHAINS (R188, R189). [DEDUCED, log 41] -/
def csChainsWrite (k lo hi : Nat) (s : State) : State :=
  let p := dfePage k
  let c := bits (getReg s p 0x200) 3 0
  if carrierOn s k c ∨ chainsOver s k c (csDir s k c) (lo + 2 ^ 32 * hi) then setEvt s p 5
  else setRegI (setRegI s p 0x218 c (w32 lo)) p 0x21C c (w32 hi)

/-- The windowed register of a chain: view 0 is the pending copy, 1 the active one. -/
def chainReg (s : State) (k off c view : Nat) : Word := getRegI s (dfePage k) off (c * 2 + view)

/-- Stores a windowed register of a chain. -/
def setCh (s : State) (k off c view : Nat) (v : Word) : State := setRegI s (dfePage k) off (c * 2 + view) v

/-- The five registers that a commit copies (R213). -/
def chPending : List Nat := [0x1C4, 0x1C8, 0x1CC, 0x1D0, 0x1D4]

/-- A commit of chain `c` (R213): the pending copy becomes active. -/
def commitChain (k c : Nat) (s : State) : State :=
  setEvt (chPending.foldl (fun s off => setCh s k off c 1 (chainReg s k off c 0)) s) (dfePage k) 6

/-- DISCARD (R213). -/
def discardChain (k c : Nat) (s : State) : State :=
  chPending.foldl (fun s off => setCh s k off c 0 (chainReg s k off c 1)) s

/-- The chain that CHAIN_SEL selects. -/
def chainSel (s : State) (k : Nat) : Option Nat :=
  let c := bits (getReg s (dfePage k) 0x1A0) 7 0
  if c < 132 then some c else none

/-- CH_MIRROR of the mirror chain of engine `m`. -/
def mirrorReg (s : State) (k m : Nat) : Word := chainReg s k 0x1D8 (128 + m) 0

/-- The chain that a mirror chain's SOURCE names (R160, R218). -/
def mirrorSource (s : State) (k m : Nat) : Nat :=
  bits (mirrorReg s k m) 12 8 + 32 * (m % 2) + if 2 ≤ m then 64 else 0

/-- CHAIN_STS (R223). -/
def chainSts (s : State) (k : Nat) : Word :=
  match chainSel s k with
  | none => 0
  | some c =>
    w32 ((if chPending.any fun off => decide (chainReg s k off c 0 ≠ chainReg s k off c 1) then 2 ^ 31 else 0) +
      if (dfeOf s k).sched.any fun e => decide (e.1 = c) then 2 ^ 30 else 0)

/-- TX_STATE (R223). -/
def txState (s : State) (k : Nat) : Word :=
  let x := dfeOf s k
  let above (g : Nat) : Bool := match (envOf x g).ramp with
    | some r => let f := rampFrac r (txPlane s k); decide (0 < (if r.up then f else 2 ^ 32 - f))
    | none => (envOf x g).high
  w32 (((List.range 16).map fun g =>
    (if (envOf x g).ramp.isSome then 2 ^ (16 + g) else 0) + if above g then 2 ^ g else 0).foldl (· + ·) 0)

/-- CS_STATE of the selected slot (R223). -/
def csState (s : State) (k : Nat) : Word :=
  let x := dfeOf s k
  let c := bits (getReg s (dfePage k) 0x200) 3 0
  w32 ((if (txOf x c).ramp.isSome then 4 else 0) + (if envActive (txOf x c) then 2 else 0) +
    if x.rxOn.getLsbD c then 1 else 0)

/-! ### Commands -/

/-- The PA groups or parts of a command as bits: for a slot command bit 0 is the transmit ramp, bit 1 the receive
stream. -/
def cmdParts (c : DfeCmd) : Nat := if c.op ≤ 2 then c.groups.toNat else c.dir / 2 % 2 + c.dir % 2 * 2

/-- The nanosecond slice of a time, as a completion token's payload (R205). -/
def slicePayload (t : Int) : Dword := BitVec.ofNat 64 (wrapN 32 (t / (2 ^ 32 : Nat)))

/-- R205: the command's completion token; `t` is when the ramp reached its end value. -/
def dfeComplete (s : State) (k : Nat) (c : DfeCmd) (t : Int) : State :=
  let s := incCnt s (dfePage k) (if c.op = 1 ∨ c.op = 3 then 0 else 1)
  match c.fire with
  | some f => complete s (dfePage k) f false (slicePayload t)
  | none => s

/-- Marks parts of a command as finished at time `t`; with the last one it is complete. -/
def finishPart (s : State) (k : Nat) (c : DfeCmd) (part : Nat) (t : Int) : State :=
  let c' := { c with finished := c.finished ||| BitVec.ofNat 16 part, started := c.started ||| BitVec.ofNat 16 part }
  if cmdParts c &&& c'.finished.toNat = cmdParts c then
    dfeComplete (modDfe s k fun x => { x with cmds := dropFirst (fun d => decide (d = c)) x.cmds }) k c t
  else modDfe s k fun x => { x with cmds := x.cmds.map fun d => if d = c then c' else d }

/-- Marks parts of a command as started. -/
def startPart (s : State) (k : Nat) (c : DfeCmd) (part : Nat) : State :=
  modDfe s k fun x =>
    { x with cmds := x.cmds.map fun d => if d = c then { c with started := c.started ||| BitVec.ofNat 16 part } else d }

/-- A command is refused (R205): error token, SNAP_CNT3. [DEDUCED, log 25] -/
def dfeRefuse (s : State) (k : Nat) (f : Option FireRec) (cause : Nat) : State :=
  let s := incCnt s (dfePage k) 3
  let s := if cause = 2 then setEvt s (dfePage k) 1 else s
  match f with
  | some f => failFire s (dfePage k) f cause
  | none => s

/-- A command that is held is refused. -/
def dropCmd (s : State) (k : Nat) (c : DfeCmd) (cause : Nat) : State :=
  dfeRefuse (modDfe s k fun x => { x with cmds := dropFirst (fun d => decide (d = c)) x.cmds }) k c.fire cause

/-- LEAD of an output (R202). -/
def leadOf (s : State) (k : Nat) (o : PaOut) : Int :=
  match o with
  | .pa g => cycTime (bits (getReg s (dfePage k) (0x140 + 4 * g.val)) 13 0)
  | .tdd t => cycTime (bits (getReg s (dfePage k) (0x180 + 4 * t.val)) 13 0)

/-- LAG of an output (R202). -/
def lagOf (s : State) (k : Nat) (o : PaOut) : Int :=
  match o with
  | .pa g => cycTime (bits (getReg s (dfePage k) (0x140 + 4 * g.val)) 29 16)
  | .tdd t => cycTime (bits (getReg s (dfePage k) (0x180 + 4 * t.val)) 29 16)

/-- The groups whose transmit intervals an output covers (R202). -/
def groupsOf (s : State) (k : Nat) (o : PaOut) : Nat :=
  match o with
  | .pa g => 2 ^ g.val
  | .tdd t => bits (getReg s (dfePage k) (0x190 + 4 * t.val)) 15 0

/-- The device time of the earliest action of a TX_ON or CARRIER_ON (R206): a ramp starts at the lane, ANT_OFFSET before
the antenna; a receive stream starts ANT_OFFSET after it. -/
def firstAction (s : State) (k : Nat) (c : DfeCmd) : Int :=
  let start := rampAt s k c
  let lane := start - antOffset s k
  if c.op = 1 then
    ((List.range 16).filter c.groups.toNat.testBit).foldl (fun m g => min m (start - leadOf s k (.pa (Fin.ofNat 16 g)))) lane
  else if c.dir = 1 then c.tsw + antOffset s k
  else if c.dir = 3 then min lane (c.tsw + antOffset s k) else lane

/-- How late a time is now: the signed difference of the nanosecond slices (R19, R206). -/
def lateBy (s : State) (t : Int) : Int := sinceTarget s (w32 (wrapN 32 (t / (2 ^ 32 : Nat))))

/-- The command that a fire carries (R204). -/
def cmdOf (s : State) (f : FireRec) : DfeCmd :=
  let hi := w32 (f.p0.toNat / 2 ^ 32)
  let lo := w32 f.p0.toNat
  ⟨some f, f.opcode.toNat, BitVec.ofNat 16 (bits lo 31 16), bits lo 7 4, bits lo 9 8, bits lo 7 0, timeAt s hi, bits lo 2 0,
    0, 0, 0⟩

/-- R210: the groups of a TX_ON whose PA_CTRL is asserted in the LAG of the interval before. -/
def inLag (s : State) (k : Nat) (c : DfeCmd) : BitVec 16 :=
  let x := dfeOf s k
  if c.op ≠ 1 then 0
  else BitVec.ofNat 16 (((List.range 16).map fun g =>
    if c.groups.getLsbD g && x.pa.getLsbD g && (kget none x.lag g).isSome && !envActive (envOf x g) then 2 ^ g else 0).sum)

/-- A command without a part to do, such as a group mask of 0, is complete at once. -/
def holdCmd (s : State) (k : Nat) (c : DfeCmd) : State :=
  if cmdParts c = 0 then dfeComplete s k c (txPlane s k)
  else modDfe s k fun x => { x with cmds := x.cmds ++ [{ c with keep := inLag s k c }] }

/-- TX_ON and TX_OFF for the same group with the same T_sw (R208). -/
def sameSwitch (c d : DfeCmd) : Bool := decide (c.tsw = d.tsw) && decide (c.groups &&& d.groups ≠ 0)

/-- TX_ON and CARRIER_ON: refused when too late, performed and counted when late (R206, R207). [DEDUCED, log 39] -/
def acceptUp (s : State) (k : Nat) (c : DfeCmd) : State :=
  let p := dfePage k
  let late := lateBy s (firstAction s k c)
  if (bits (getReg s p 0x108) 11 0 : Int) < late then dfeRefuse s k c.fire 1
  else if c.op = 1 ∧ (dfeOf s k).cmds.any (fun d => decide (d.op = 2) && sameSwitch c d) then dfeRefuse s k c.fire 2
  else holdCmd (if 0 < late then setEvt (incCnt s p 2) p 0 else s) k c

/-- A fire that DFE `k` takes while it is enabled (R204–R211). R204 names no direction 0 of a carrier command and no chain
132–255 of a CHAIN_COMMIT: the model refuses both with BAD_ARG. [DESIGN CHOICE, log 138] -/
def dfeStart (k op : Nat) (f : FireRec) (s : State) : State :=
  let c := cmdOf s f
  match op with
  | 1 => if s.evt.txRefused then dfeRefuse s k c.fire 4 else acceptUp s k c
  | 2 =>
    let s := ((dfeOf s k).cmds.filter fun d => decide (d.op = 1) && sameSwitch c d).foldl (fun s d => dropCmd s k d 2) s
    holdCmd s k c
  | 3 => if c.dir = 0 then dfeRefuse s k c.fire 3 else acceptUp s k c
  | 4 => if c.dir = 0 then dfeRefuse s k c.fire 3 else holdCmd s k c
  | _ =>
    if 132 ≤ c.chain then dfeRefuse s k c.fire 3
    else modDfe s k fun x => { x with sched := x.sched ++ [(c.chain, ⟨c.tsw, some f⟩)] }

/-- The commands that a DFE holds, one for each credit (R205). -/
def dfeHeld (x : DfeSt) : Nat := (x.cmds.filterMap (·.fire)).length + (x.sched.filterMap fun e => e.2.fire).length

/-- A fire of command `op` reaches the DFE that it names; while the DFE holds eight, it waits. [DEDUCED, log 39] -/
def dfeFire (op : Nat) (f : FireRec) (s : State) : State :=
  if f.opcode.toNat ≠ op ∨ 8 ≤ dfeHeld (dfeOf s (f.member.toNat % 4)) then s
  else fireRow (dfePage (f.member.toNat % 4)) 4 f (dfeStart (f.member.toNat % 4) op) s

/-! ### Ramps -/

/-- Of two commands, the one with the earlier apply time (R205). -/
def earlier (a b : DfeCmd) : DfeCmd := if b.tsw < a.tsw then b else a

/-- The command of a list with the earliest apply time. -/
def firstCmd : List DfeCmd → Option DfeCmd
  | [] => none
  | c :: cs => some (cs.foldl earlier c)

/-- A ramp that a reversal cuts short never reaches its end value, and the spec does not say when its command completes: its
part completes at the reversal. [DESIGN CHOICE, log 38] -/
def cutShort (s : State) (k : Nat) (own : DfeCmd) (grp : Bool) (g part : Nat) : State :=
  ((dfeOf s k).cmds.filter fun d =>
    d ≠ own ∧ (if grp then d.op ≤ 2 else 3 ≤ d.op ∧ d.slot = g) ∧ d.started.toNat &&& part = part ∧
      d.finished.toNat &&& part = 0).foldl (fun s d => finishPart s k d part (txPlane s k)) s

/-- A group's ramp begins (R200, R209). A ramp-down of a group at rest has nothing to do, and is at its end. -/
def groupRamp (s : State) (k : Nat) (c : DfeCmd) (g : Nat) : State :=
  let up := c.op = 1
  let e := envOf (dfeOf s k) g
  let s := cutShort s k c true g (2 ^ g)
  if !up && !envActive e then finishPart s k c (2 ^ g) (txPlane s k)
  else
    let e' := startRamp e up (txPlane s k) (profLen s k c.prof)
    startPart (modDfe s k fun x => { x with groups := kset EnvSt.init x.groups g e' }) k c (2 ^ g)

/-- What the cancellation pulse is built from where slot `n` is on as `up` says, and the other slots are as they are (R196). -/
def pulseOf (s : State) (k n : Nat) (up : Bool) : List PulseTerm :=
  ((List.range 16).filter fun c => if c = n then up else envActive (txOf (dfeOf s k) c)).map fun c =>
    ⟨c, getRegI s (dfePage k) 0x210 c, csConf s k c, csTaps s k c⟩

/-- A slot's transmit ramp begins (R211), after the cancellation pulse has been built anew (R198). -/
def slotRamp (s : State) (k : Nat) (c : DfeCmd) : State :=
  let pulse := pulseOf s k c.slot (c.op = 3)
  let s := modDfe s k fun x => { x with pulse := pulse }
  let e := startRamp (txOf (dfeOf s k) c.slot) (c.op = 3) (txPlane s k) (profLen s k c.prof)
  let s := cutShort s k c false c.slot 1
  startPart (modDfe s k fun x => { x with tx := kset EnvSt.init x.tx c.slot e }) k c 1

/-- A slot's receive stream starts or stops at the sample that is at the lane input (R211). -/
def slotRx (s : State) (k : Nat) (c : DfeCmd) : State :=
  let b := BitVec.ofNat 16 (2 ^ c.slot)
  finishPart (modDfe s k fun x => { x with rxOn := if c.op = 3 then x.rxOn ||| b else x.rxOn &&& ~~~b }) k c 2 (rxPlane s k)

/-- RAMP_START (R200, R201, R209, R211): what is due of the first command for a group or a slot. [DEDUCED, log 39] -/
def rampStartSt (k : Nat) (r : RampOf) (s : State) : State :=
  let x := dfeOf s k
  match r with
  | .group g =>
    match firstCmd (x.cmds.filter fun c => c.op ≤ 2 ∧ c.groups.getLsbD g ∧ !c.started.getLsbD g) with
    | some c => if rampAt s k c ≤ txPlane s k then groupRamp s k c g else s
    | none => s
  | .slot n =>
    let mine := x.cmds.filter fun c => 3 ≤ c.op ∧ c.slot = n.val
    match firstCmd (mine.filter fun c => c.dir.testBit 1 ∧ !c.started.getLsbD 0),
        firstCmd (mine.filter fun c => c.dir.testBit 0 ∧ !c.started.getLsbD 1) with
    | some c, d =>
      if rampAt s k c ≤ txPlane s k then slotRamp s k c
      else (match d with | some d => if d.tsw ≤ rxPlane s k then slotRx s k d else s | none => s)
    | none, some d => if d.tsw ≤ rxPlane s k then slotRx s k d else s
    | none, none => s

/-- The command that waits for the end of a ramp. -/
def owner (x : DfeSt) (grp : Bool) (g part : Nat) : Option DfeCmd :=
  x.cmds.find? fun d => (if grp then decide (d.op ≤ 2) else decide (3 ≤ d.op) && decide (d.slot = g)) &&
    decide (d.started.toNat &&& part = part) && decide (d.finished.toNat &&& part = 0)

/-- The lag of every output that covers group `g` runs from the end of its ramp-down, at time `t` (R202). -/
def setLags (s : State) (k g : Nat) (t : Int) : State :=
  let outs : List (Nat × PaOut) := [(g, .pa (Fin.ofNat 16 g))] ++
    ((List.range 4).map fun t => (16 + t, PaOut.tdd (Fin.ofNat 4 t)))
  let hit := outs.filter fun o => (groupsOf s k o.2).testBit g
  modDfe s k fun x =>
    { x with lag := List.foldl (fun m o => kset none m o.1 (some (t + lagOf s k o.2))) x.lag hit }

/-- RAMP_END (R205). -/
def rampEndSt (k : Nat) (r : RampOf) (s : State) : State :=
  let x := dfeOf s k
  let finish (e : EnvSt) : Option (EnvSt × Int) := match e.ramp with
    | some r => if rampEndAt r ≤ txPlane s k then some (⟨r.up, none⟩, rampEndAt r) else none
    | none => none
  match r with
  | .group g =>
    match finish (envOf x g) with
    | none => s
    | some (e, t) =>
      let s := modDfe s k fun x => { x with groups := kset EnvSt.init x.groups g.val e }
      let s := if e.high then s else setLags s k g t
      match owner x true g (2 ^ g.val) with
      | some c => finishPart s k c (2 ^ g.val) t
      | none => s
  | .slot n =>
    match finish (txOf x n) with
    | none => s
    | some (e, t) =>
      let s := modDfe s k fun x => { x with tx := kset EnvSt.init x.tx n.val e }
      match owner x false n 1 with
      | some c => finishPart s k c 1 t
      | none => s

/-! ### Outputs -/

/-- An output stands in the extended interval of its groups (R202). -/
def setOut (x : DfeSt) (o : PaOut) (b : Bool) : DfeSt :=
  match o with
  | .pa g => { x with pa := if b then x.pa ||| BitVec.ofNat 16 (2 ^ g.val) else x.pa &&& ~~~BitVec.ofNat 16 (2 ^ g.val) }
  | .tdd t => { x with tdd := if b then x.tdd ||| BitVec.ofNat 4 (2 ^ t.val) else x.tdd &&& ~~~BitVec.ofNat 4 (2 ^ t.val) }

/-- An output's number in `lag`. -/
def outNo (o : PaOut) : Nat := match o with | .pa g => g.val | .tdd t => 16 + t.val

/-- A group that an output covers has its ramp-up at hand, LEAD before it (R202). -/
def leadDue (s : State) (k : Nat) (o : PaOut) : Bool :=
  (dfeOf s k).cmds.any fun c => decide (c.op = 1) &&
    decide (c.groups.toNat &&& (groupsOf s k o) &&& (0xFFFF - c.started.toNat) ≠ 0) &&
    decide (rampAt s k c - leadOf s k o ≤ devTime s)

/-- A group that an output covers is inside its transmit interval at the lane output. -/
def covered (s : State) (k : Nat) (o : PaOut) : Bool :=
  (List.range 16).any fun g => (groupsOf s k o).testBit g && envActive (envOf (dfeOf s k) g)

/-- A group that an output covers is inside its transmit interval at the antenna, or LEAD before it (R202, R203). -/
def leadPast (s : State) (k : Nat) (o : PaOut) : Bool :=
  (List.range 16).any fun g => (groupsOf s k o).testBit g &&
    match (envOf (dfeOf s k) g).ramp with
    | some r => !r.up || decide (r.at_ - leadOf s k o ≤ devTime s)
    | none => (envOf (dfeOf s k) g).high

/-- R210: a TX_ON that arrived in the LAG of group `g` keeps its PA_CTRL asserted until its own interval. -/
def lagKept (s : State) (k : Nat) (o : PaOut) : Bool :=
  match o with
  | .pa g => (dfeOf s k).cmds.any fun c => c.keep.getLsbD g && !c.started.getLsbD g
  | .tdd _ => false

/-- PA_CTRL_ASSERT (R202). -/
def paAssertSt (k : Nat) (o : PaOut) (s : State) : State :=
  if leadDue s k o || leadPast s k o then modDfe s k fun x => setOut x o true else s

/-- PA_CTRL_DEASSERT (R202, R210): LAG after the last ramp-down; a TX_ON whose LEAD has begun, or that arrived in the LAG,
keeps it asserted. -/
def paDeassertSt (k : Nat) (o : PaOut) (s : State) : State :=
  if leadDue s k o || covered s k o || lagKept s k o then s
  else
    let past := match kget none (dfeOf s k).lag (outNo o) with
      | some t => decide (t ≤ devTime s)
      | none => true
    if past then modDfe s k fun x => { setOut x o false with lag := kset none x.lag (outNo o) none } else s

/-- The level of an output at its ball (R202, R871, R872): none is high impedance. -/
def outLevel (s : State) (k : Nat) (o : PaOut) : Option Bool :=
  let x := dfeOf s k
  if pdState s (32 + k) ≠ .on then some false
  else if !x.driven then none
  else match o with
  | .pa g => some (x.pa.getLsbD g)
  | .tdd t => some (x.tdd.getLsbD t != bit (getReg s (dfePage k) (0x190 + 4 * t.val)) 31)

/-! ### Enable, fatal, reset -/

/-- CTRL.ENABLE of a DFE page rises (R871). [DESIGN CHOICE, log 40] -/
def dfeEnable (k : Nat) (s : State) : State := modDfe s k fun x => { x with driven := true }

/-- R820 step 4: each group whose envelope is above 0 ramps down at once with profile 0, and TX_ONs are refused. -/
def dfeFatal (k : Nat) (s : State) : State :=
  let s := ((dfeOf s k).cmds.filter fun c => c.op = 1).foldl (fun s c => dropCmd s k c 4) s
  let x := dfeOf s k
  let gs := (List.range 16).filter fun g => envActive (envOf x g) && (match (envOf x g).ramp with
    | some r => r.up
    | none => true)
  modDfe s k fun x => { x with groups := gs.foldl (fun m g =>
    kset EnvSt.init m g (startRamp (envOf x g) false (txPlane s k) (profLen s k 0))) x.groups }

/-- The chains of a DFE hold no sample. -/
def dropChains (k : Nat) (s : State) : State :=
  { s with chains := s.chains.filter fun e => !decide (e.1 / 132 = k) }

/-- A soft reset ends every command with cause SOFT_RESET; the block returns to its state after reset. -/
def dfeDrop (k : Nat) (s : State) : State :=
  let s := dropChains k s
  let x := dfeOf s k
  let fires := (x.cmds.filterMap (·.fire)) ++ (x.sched.filterMap fun e => e.2.fire)
  fires.foldl (fun s f => failFire s (dfePage k) f 0x11) (setDfe s k { DfeSt.init with driven := x.driven })

/-- The DFE holds a command or a scheduled commit. -/
def dfeBusy (s : State) (k : Nat) : Bool := !(dfeOf s k).cmds.isEmpty || !(dfeOf s k).sched.isEmpty

/-! ### The commands of the table -/

/-- TX_ON. -/
def execTxOn (f : FireRec) (s : State) : Host.Outcome State Fault Refusal := .next (dfeFire 1 f s)

/-- TX_OFF. -/
def execTxOff (f : FireRec) (s : State) : Host.Outcome State Fault Refusal := .next (dfeFire 2 f s)

/-- CARRIER_ON. -/
def execCarrierOn (f : FireRec) (s : State) : Host.Outcome State Fault Refusal := .next (dfeFire 3 f s)

/-- CARRIER_OFF. -/
def execCarrierOff (f : FireRec) (s : State) : Host.Outcome State Fault Refusal := .next (dfeFire 4 f s)

/-- CHAIN_COMMIT. -/
def execChainCommit (f : FireRec) (s : State) : Host.Outcome State Fault Refusal := .next (dfeFire 5 f s)

/-- RAMP_START. -/
def execRampStart (k : Fin 4) (r : RampOf) (s : State) : Host.Outcome State Fault Refusal :=
  .next (whileRuns (dfePage k) (rampStartSt k r) s)

/-- RAMP_END. -/
def execRampEnd (k : Fin 4) (r : RampOf) (s : State) : Host.Outcome State Fault Refusal :=
  .next (whileRuns (dfePage k) (rampEndSt k r) s)

/-- PA_CTRL_ASSERT. -/
def execPaCtrlAssert (k : Fin 4) (o : PaOut) (s : State) : Host.Outcome State Fault Refusal :=
  .next (whileRuns (dfePage k) (paAssertSt k o) s)

/-- PA_CTRL_DEASSERT. -/
def execPaCtrlDeassert (k : Fin 4) (o : PaOut) (s : State) : Host.Outcome State Fault Refusal :=
  .next (whileRuns (dfePage k) (paDeassertSt k o) s)

/-- A CHAIN_CMD write that reaches the page, for the selected chain. -/
def chainCmd (a : Acc) (k : Fin 4) (f : Nat → State → State) (s : State) : State :=
  onPage a (dfePage k) 0x1A4 (fun s => match chainSel s k with | some c => f c s | none => s) s

/-- COMMIT_AT (R213). A second one for a chain leaves the first scheduled: both apply. The spec states nothing of this.
[DESIGN CHOICE, log 139] -/
def execCommitAt (a : Acc) (k : Fin 4) (s : State) : Host.Outcome State Fault Refusal :=
  .next (chainCmd a k (fun c s =>
    let t := timeAt s (getReg s (dfePage k) 0x1A8)
    modDfe s k fun x => { x with sched := x.sched ++ [(c, ⟨t, none⟩)] }) s)

/-- COMMIT_NOW (R213). -/
def execCommitNow (a : Acc) (k : Fin 4) (s : State) : Host.Outcome State Fault Refusal :=
  .next (chainCmd a k (fun c s => commitChain k c s) s)

/-- DISCARD (R213). -/
def execDiscard (a : Acc) (k : Fin 4) (s : State) : Host.Outcome State Fault Refusal :=
  .next (chainCmd a k (fun c s => discardChain k c s) s)

/-- The time at the antenna plane of the sample that a chain is at: chains 0–63, 128 and 129 receive, the others transmit
(R160). -/
def chainPlane (s : State) (k c : Nat) : Int := if c < 64 ∨ c = 128 ∨ c = 129 then rxPlane s k else txPlane s k

/-- CHAIN_COMMIT_APPLY (R214). -/
def execChainCommitApply (k : Fin 4) (c : Fin 132) (s : State) : Host.Outcome State Fault Refusal :=
  if !blockRuns s (dfePage k) then .next s
  else match (dfeOf s k).sched.find? fun e => e.1 = c.val ∧ e.2.at_ ≤ chainPlane s k c.val with
  | none => .next s
  | some (n, j) =>
      let s := commitChain k c.val (modDfe s k fun x => { x with sched := dropFirst (fun e => decide (e = (n, j))) x.sched })
      match j.fire with
      | some f => .next (complete s (dfePage k) f false (slicePayload (chainPlane s k c.val)))
      | none => .next s

/-- A coefficient bank is in use by a slot whose carrier is on (R193). [DEDUCED, log 41] -/
def bankBusy (s : State) (k b : Nat) : Bool :=
  (List.range 16).any fun c => carrierOn s k c && decide (bits (csConf s k c) 7 5 = b)

/-- COEF_DATA_WRITE (R193, R223). The taps are 0–23: a write with a tap of 24–31 stores nothing and increments the tap, modulo
32; the spec states nothing of these. [DESIGN CHOICE, log 140] -/
def execCoefDataWrite (a : Acc) (k : Fin 4) (v : Word) (s : State) : Host.Outcome State Fault Refusal :=
  .next (onPage a (dfePage k) 0x244 (fun s =>
    let sel := getReg s (dfePage k) 0x240
    let b := bits sel 2 0
    let t := bits sel 12 8
    if bankBusy s k b then setEvt s (dfePage k) 5
    else
      let s := if 24 ≤ t then s else modDfe s k fun x =>
        { x with coefs := kset (if t = 23 then 0x1FFFF else 0) x.coefs (b * 24 + t) (v &&& 0x3FFFF) }
      setReg s (dfePage k) 0x240 (putBits sel 12 8 (t + 1))) s)


end Sys2Proof.Machine
end

