-- ==== Sys2Proof/Machine/F32.lean ====
section
/-! DEFINITION. IEEE 754 binary32 as R499 has it: round to nearest, ties to even; subnormal inputs and results are
zero of the same sign; every NaN result is 0x7FC0_0000. -/

namespace Sys2Proof.Machine

/-- A binary32 value: not a number, an infinity, or a sign and a magnitude. -/
inductive Fv where
  | nan
  | inf (neg : Bool)
  | num (neg : Bool) (mag : Rat)
  deriving DecidableEq, Repr

/-- The value of a word; a subnormal input reads as zero (R499). -/
def fOf (w : Word) : Fv :=
  let e := bits w 30 23
  let m := bits w 22 0
  let n := bit w 31
  if e = 255 then (if m = 0 then .inf n else .nan)
  else if e = 0 then .num n 0
  else .num n ((2 ^ 23 + m : Nat) * pow2 ((e : Int) - 150))

/-- The sign bit. -/
def fSignBit (neg : Bool) : Nat := if neg then 2 ^ 31 else 0

/-- The exponent of a positive rational: the greatest e with 2^e ≤ x. -/
def fExp (x : Rat) : Int :=
  let e : Int := (Nat.log2 x.num.toNat : Int) - (Nat.log2 x.den : Int)
  if x < pow2 e then e - 1 else if pow2 (e + 1) ≤ x then e + 1 else e

/-- A magnitude rounded to 24 bits: mantissa and exponent of its lowest bit. [DEDUCED, log 76] -/
def fRound (x : Rat) : Nat × Int :=
  let e := fExp x - 23
  let m := (roundEven (x * pow2 (-e))).toNat
  if m = 2 ^ 24 then (2 ^ 23, e + 1) else (m, e)

/-- A sign and a magnitude as a word: overflow gives an infinity, a subnormal result zero. -/
def fPack (neg : Bool) (x : Rat) : Word :=
  if x ≤ 0 then w32 (fSignBit neg)
  else
    let (m, e) := fRound x
    let be := e + 150
    if 255 ≤ be then w32 (fSignBit neg + 255 * 2 ^ 23)
    else if be ≤ 0 then w32 (fSignBit neg)
    else w32 (fSignBit neg + be.toNat * 2 ^ 23 + (m - 2 ^ 23))

/-- The word of a value. -/
def fWord : Fv → Word
  | .nan => 0x7FC00000
  | .inf n => w32 (fSignBit n + 255 * 2 ^ 23)
  | .num n x => fPack n x

/-- A signed exact value; a zero takes the sign `z`. -/
def fExact (z : Bool) (x : Rat) : Fv := if x = 0 then .num z 0 else if x < 0 then .num true (-x) else .num false x

/-- The exact value of a finite one. -/
def fSigned (n : Bool) (x : Rat) : Rat := if n then -x else x

/-- Exact addition; a sum of opposite values is +0. -/
def fAddV : Fv → Fv → Fv
  | .nan, _ => .nan
  | _, .nan => .nan
  | .inf a, .inf b => if a = b then .inf a else .nan
  | .inf a, _ => .inf a
  | _, .inf b => .inf b
  | .num a x, .num b y => fExact (a && b) (fSigned a x + fSigned b y)

/-- Exact multiplication. -/
def fMulV : Fv → Fv → Fv
  | .nan, _ => .nan
  | _, .nan => .nan
  | .inf a, .inf b => .inf (a != b)
  | .inf a, .num b y => if y = 0 then .nan else .inf (a != b)
  | .num a x, .inf b => if x = 0 then .nan else .inf (a != b)
  | .num a x, .num b y => .num (a != b) (x * y)

/-- The opposite value. -/
def fNegV : Fv → Fv
  | .nan => .nan
  | .inf a => .inf (!a)
  | .num a x => .num (!a) x

/-- Addition. -/
def fAdd (a b : Word) : Word := fWord (fAddV (fOf a) (fOf b))

/-- Subtraction. -/
def fSub (a b : Word) : Word := fWord (fAddV (fOf a) (fNegV (fOf b)))

/-- Multiplication. -/
def fMul (a b : Word) : Word := fWord (fMulV (fOf a) (fOf b))

/-- a × b + c, rounded once (R489). -/
def fFma (a b c : Word) : Word := fWord (fAddV (fMulV (fOf a) (fOf b)) (fOf c))

/-- c − a × b, rounded once (R489). -/
def fFnms (a b c : Word) : Word := fWord (fAddV (fOf c) (fNegV (fMulV (fOf a) (fOf b))))

/-- −a. -/
def fNeg (a : Word) : Word := fWord (fNegV (fOf a))

/-- |a|. -/
def fAbs (a : Word) : Word :=
  fWord (match fOf a with
    | .nan => .nan
    | .inf _ => .inf false
    | .num _ x => .num false x)

/-- a < b; false where either is not a number. -/
def fLt (a b : Word) : Bool :=
  match fOf a, fOf b with
  | .nan, _ => false
  | _, .nan => false
  | .inf n, .inf m => n && !m
  | .inf n, .num _ _ => n
  | .num _ _, .inf m => !m
  | .num n x, .num m y => decide (fSigned n x < fSigned m y)

/-- a = b; false where either is not a number. -/
def fEq (a b : Word) : Bool :=
  match fOf a, fOf b with
  | .nan, _ => false
  | _, .nan => false
  | .inf n, .inf m => n == m
  | .num n x, .num m y => decide (fSigned n x = fSigned m y)
  | _, _ => false

/-- a is not a number. -/
def fNan (a : Word) : Bool := match fOf a with | .nan => true | _ => false

/-- The value read and written back: a subnormal becomes zero, a NaN the one NaN (R499). -/
def fId (a : Word) : Word := fWord (fOf a)

/-- MIN and MAX (R488). [DEDUCED, log 76] -/
def fMinMax (max : Bool) (a b : Word) : Word :=
  if fNan a || fNan b then 0x7FC00000
  else if (if max then fLt a b else fLt b a) then fId b else fId a

/-- CVTIF: a signed integer × 2^−k (R489). -/
def fOfInt (x : Int) (k : Nat) : Word := fPack (decide (x < 0)) ((x.natAbs : Rat) * pow2 (-k))

/-- CVTFI: a value × 2^k rounded to 32 bits, saturating (R489, R499). -/
def fToInt (a : Word) (k : Nat) : Word :=
  match fOf a with
  | .nan => 0
  | .inf n => if n then 0x80000000 else 0x7FFFFFFF
  | .num n x => w32 (wrapN 32 (satBits 32 (roundEven (fSigned n x * pow2 k))).1)

/-- An estimate within 2^−12 of the exact value `r` > 0 (R489): the device's own where it is, else the rounded value.
[DEDUCED, log 76] -/
def fEst (f : Nat) (a : Word) (neg : Bool) (r : Rat) : Word :=
  let exact := fPack neg r
  if bits exact 30 0 = 0 then exact
  else
    let c := Config.f32Est f a
    match fOf c with
    | .num n y =>
      if n = neg ∧ (if y < r then r - y else y - r) * (2 ^ 12 : Nat) ≤ r then c else exact
    | _ => exact

/-- RCPE (R489). The reciprocal of zero is not stated. -/
def fRcpe (a : Word) : Word :=
  match fOf a with
  | .nan => 0x7FC00000
  | .inf n => w32 (fSignBit n)
  | .num n x => if x = 0 then Config.f32Est 0 a else fEst 0 a n (1 / x)

/-- RSQE (R489). The value for zero and for negative operands is not stated. -/
def fRsqe (a : Word) : Word :=
  match fOf a with
  | .nan => 0x7FC00000
  | .inf n => if n then Config.f32Est 1 a else 0
  | .num n x => if x = 0 ∨ n then Config.f32Est 1 a else fEst 1 a false (1 / sqrtQ x)

end Sys2Proof.Machine
end

