-- ==== Sys2Proof/Machine/Cal.lean ====
section
/-! DEFINITION. The statistics engines of chain calibration (R384–R390). -/

namespace Sys2Proof.Machine

/-- The run of engine `m` of DFE `k`. -/
def calOf (s : State) (k m : Nat) : Option CalRun := kget none s.cal (k * 4 + m)

/-- Stores the run of an engine. -/
def setCal (s : State) (k m : Nat) (r : Option CalRun) : State := { s with cal := kset none s.cal (k * 4 + m) r }

/-- A register of an engine (R390). -/
def calReg (m off : Nat) : Nat := 0x300 + 0x20 * m + off

/-! ### Admitted blocks and their sums (R386, R387) -/

/-- The chain of a DFE that an engine's mirror chain is. -/
def calChain (m : Nat) : Nat := 128 + m

/-- A chain's samples of the block of 64 lane samples from `a` on, where all have come. -/
def blockOf (s : State) (k c : Nat) (a : Int) : Option (List ChSample) :=
  let xs := logRange s k c a (a + 64)
  if xs.length = 64 then some xs else none

/-- The target's samples that an engine pairs with the reference's block from `a` on: those of its mirror chain, and of a transmit
chain LAG lane samples earlier (R386). [DEDUCED, log 55] -/
def targetBlock (s : State) (k m : Nat) (r : CalRun) (a : Int) : Option (List ChSample) :=
  blockOf s k (calChain m) (a - if m < 2 then 0 else (r.lag : Int))

/-- A block that an engine admits: every sample of a receive target is of the receive class, every sample of a transmit target in a
transmit interval of its PA group (R386). -/
def calBlock (s : State) (k m : Nat) (r : CalRun) (a : Int) : Option (List ChSample × List ChSample) :=
  match targetBlock s k m r a, blockOf s k r.ref a with
  | some t, some x => if t.all fun y => y.flag != decide (m < 2) then some (t, x) else none
  | _, _ => none

/-- The admitted blocks of a run up to now, in order. Blocks start at multiples of 64 lane samples after the LEMC epoch.
[DEDUCED, log 55] -/
def calBlocks (s : State) (k m : Nat) (r : CalRun) : List (List ChSample × List ChSample) :=
  let a := (r.from_ + 63) / 64
  (List.range ((laneNo s k + 1) / 64 - a).toNat).filterMap fun (i : Nat) => calBlock s k m r (64 * (a + i))

/-- A chain's block in the frequency domain: bin `b` lies at (b − 32) × Fs / 64 (R387). -/
def blockBins (xs : List ChSample) : List Cx :=
  let tw := roots 64
  (List.range 64).map fun b => (dftSum false tw 64 ((b + 32) % 64) (xs.map fun x => ofQ317 x.out)).snap

/-- The sums of R387 over blocks: C, P_t, P_r and D of each bin. -/
def calSums (bs : List (List ChSample × List ChSample)) : List (Cx × Rat × Rat × Cx) :=
  let fs := bs.map fun (t, r) => (blockBins t, blockBins r)
  (List.range 64).map fun b =>
    let at_ (x : List Cx) (i : Nat) : Cx := (x[i]?).getD Cx.zero
    (Cx.sum (fs.map fun (t, r) => (at_ t b).mul (at_ r b).conj), (fs.map fun (t, _) => (at_ t b).normSq).sum,
      (fs.map fun (_, r) => (at_ r b).normSq).sum, Cx.sum (fs.map fun (t, r) => (at_ r b).mul (at_ t ((64 - b) % 64))))

/-- A number as binary32. -/
def f32Of (x : Rat) : Word := fPack (decide (x < 0)) (if x < 0 then -x else x)

/-- CAL_STS of an engine whose run is in progress: BUSY, and the blocks of 65,536 samples admitted so far (R390). -/
def calBusy (s : State) (k m : Nat) (r : CalRun) : Word := w32 (2 ^ 30 + (calBlocks s k m r).length / 1024 % 65536)

/-- R389: an engine stops without a record. -/
def calAbortSt (k m : Nat) (s : State) : State :=
  match calOf s k m with
  | none => s
  | some r =>
    setReg (setCal s k m none) (dfePage k) (calReg m 0x10) (w32 (2 ^ 29 + (calBlocks s k m r).length / 1024 % 65536))

/-- R389: every engine of a DFE stops. -/
def calAbortAll (k : Nat) (s : State) : State := (List.range 4).foldl (fun s m => calAbortSt k m s) s

/-- CAL_CMD = START (R384, R390). In the DU-end role chain calibration is unavailable (R30). [DEDUCED, log 55] -/
def calStartSt (k m : Nat) (s : State) : State :=
  let p := dfePage k
  if duEnd s then s
  else if bits (mirrorReg s k m) 1 0 ≠ 1 then
    let sts := match calOf s k m with | some r => calBusy s k m r | none => getReg s p (calReg m 0x10)
    ownErr (setReg (setCal s k m none) p (calReg m 0x10) (putBits sts 31 29 1)) p 6 0x10 none
  else
    let cfg := getReg s p (calReg m 0)
    let run : CalRun := ⟨mirrorSource s k m, bits cfg 23 16, bits cfg 31 24, max 1 (bits cfg 15 0),
      getPair s p (calReg m 0x04) 6 % 2 ^ 48, devTime s, laneNo s k + 1⟩
    setReg (setCal s k m (some run)) p (calReg m 0x10) (w32 (2 ^ 30))

/-- I and Q of a lane word. -/
def laneIQ (w : Word) : Int × Int := (signed 16 (bits w 15 0), signed 16 (bits w 31 16))

/-- The raw moments of a record (R387, R388): of the target's lane input, or of the observation stream's. -/
def calMoments (m : Nat) (bs : List (List ChSample × List ChSample)) : List Int :=
  let xs := bs.flatMap fun (t, r) => (if m < 2 then t else r).map fun y => laneIQ y.lane
  let sum (f : Int × Int → Int) : Int := (xs.map f).sum
  [sum (·.1), sum (·.2)] ++ if m < 2 then [sum fun x => x.1 * x.1, sum fun x => x.2 * x.2, sum fun x => x.1 * x.2] else [0, 0, 0]

/-- The words of a record (R388); an offset that the table does not name holds 0. Word 0 is `calHead`. -/
def calWords (m : Nat) (r : CalRun) (bs : List (List ChSample × List ChSample)) : List Word :=
  let ns := r.start / (2 ^ 32 : Nat)
  let sums := calSums bs
  [w32 r.len, w32 (wrapN 32 (ns / 1000000000)), w32 (ns % 1000000000).toNat] ++ List.replicate 12 0 ++
  (calMoments m bs).flatMap (fun x => [w32 (wrapN 64 x), w32 (wrapN 64 x / 2 ^ 32)]) ++ List.replicate 6 0 ++
  sums.flatMap (fun x => [f32Of x.1.re, f32Of x.1.im, f32Of x.2.1, f32Of x.2.2.1]) ++
  sums.flatMap fun x => if m < 2 then [0, 0] else [f32Of x.2.2.2.re, f32Of x.2.2.2.im]

/-- Word 0 of a record. -/
def calHead (m : Nat) (r : CalRun) : Word := w32 (2 ^ 31 + m * 2 ^ 28 + r.ref % 256 * 2 ^ 16 + r.target % 256)

/-- CAL_RECORD_DONE (R388): once LEN × 65,536 admitted samples have entered, the record is written, word 0 last. -/
def calDoneSt (k m : Nat) (s : State) : State :=
  match calOf s k m with
  | none => s
  | some r =>
    let bs := calBlocks s k m r
    if bs.length < 1024 * r.len then s
    else
      let p := dfePage k
      let s := memPut s p (r.out + 4) (wordsBytes (calWords m r (bs.take (1024 * r.len))))
      let s := memPut s p r.out (leBytes 4 (calHead m r).toNat)
      setReg (setCal s k m none) p (calReg m 0x10) (w32 (2 ^ 31 + r.len % 2 ^ 16))

/-- A write of CH_MIRROR (R217, R389): a change of MODE or SOURCE stops the chain's engine. A chain that goes to IDLE or to another
source starts again with no samples. [DEDUCED, log 39] -/
def chMirrorWrite (k c : Nat) (v : Word) (s : State) : State :=
  let old := chainReg s k 0x1D8 c 0
  let new := v &&& 0x1F03
  let s := setCh s k 0x1D8 c 0 new
  if c < 128 ∨ old = new then s
  else
    let s := calAbortSt k (c - 128) s
    if bits new 1 0 % 3 = 0 ∨ bits old 12 8 ≠ bits new 12 8 then setChain s k c ChainSt.init else s

/-- CAL_START. -/
def execCalStart (a : Acc) (k m : Fin 4) (s : State) : Host.Outcome State Fault Refusal :=
  .next (onPage a (dfePage k) (calReg m 0x0C) (calStartSt k m) s)

/-- CAL_ABORT. -/
def execCalAbort (a : Acc) (k m : Fin 4) (s : State) : Host.Outcome State Fault Refusal :=
  .next (onPage a (dfePage k) (calReg m 0x0C) (calAbortSt k m) s)

/-- CAL_RECORD_DONE. -/
def execCalRecordDone (k m : Fin 4) (s : State) : Host.Outcome State Fault Refusal :=
  .next (whileRuns (dfePage k) (calDoneSt k m) s)

end Sys2Proof.Machine
end

