-- ==== Sys2Proof/Machine/Vreg.lean ====
section
/-! DEFINITION. Vector registers, predicates and accumulators as numbers, and the vector functions of R478–R499. -/

namespace Sys2Proof.Machine

/-- A vector register (R478). -/
abbrev Vec := BitVec 512

/-- Bits of a vector, as a number. -/
def vField (v : Vec) (lo n : Nat) : Nat := v.toNat / 2 ^ lo % 2 ^ n

/-- The element width of a TYPE (R480). -/
def tyWidth (t : Nat) : Nat :=
  match t with
  | 0 => 8
  | 1 => 16
  | 4 => 64
  | _ => 32

/-- The number of elements of a TYPE. -/
def tyN (t : Nat) : Nat := 512 / tyWidth t

/-- The part width of a TYPE. -/
def tyPart (t : Nat) : Nat :=
  match t with
  | 0 => 8
  | 1 => 16
  | 3 => 16
  | _ => 32

/-- An integer TYPE. -/
def tyInt (t : Nat) : Bool := decide (t ≤ 2)

/-- A complex TYPE. -/
def tyCx (t : Nat) : Bool := decide (t = 3) || decide (t = 4)

/-- Element `e` of a vector. -/
def vElem (t : Nat) (v : Vec) (e : Nat) : Nat := vField v (tyWidth t * e) (tyWidth t)

/-- The elements of a vector. -/
def vElems (t : Nat) (v : Vec) : List Nat := (List.range (tyN t)).map (vElem t v)

/-- The number that elements of `w` bits make, the first lowest. -/
def packParts (w : Nat) : List Nat → Nat
  | [] => 0
  | x :: xs => x % 2 ^ w + 2 ^ w * packParts w xs

/-- The vector of a list of elements. -/
def vOfElems (t : Nat) (xs : List Nat) : Vec := BitVec.ofNat 512 (packParts (tyWidth t) xs)

/-- The parts of an element, as signed integers: one for a real type, I and Q for a complex one. -/
def parts (t x : Nat) : List Int :=
  let wp := tyPart t
  if tyCx t then [signed wp (x % 2 ^ wp), signed wp (x / 2 ^ wp)] else [signed wp x]

/-- An element of its parts, each cut to the part width. -/
def ofParts (t : Nat) (xs : List Int) : Nat := packParts (tyPart t) (xs.map (wrapN (tyPart t)))

/-- An element of its parts, each saturated (R496). -/
def satParts (t : Nat) (xs : List Int) : Nat := ofParts t (xs.map fun x => (satBits (tyPart t) x).1)

/-- The active elements of a predicate (R481). -/
def actives (t : Nat) (p : Dword) : List Bool := (List.range (tyN t)).map p.toNat.testBit

/-- R483: the bits of a destination vector that change: active elements take the result, inactive ones 0 with ZM. -/
def vMerge (t : Nat) (p : Dword) (zm : Bool) (res : List Nat) : Vec × Vec :=
  let act := actives t p
  let mask := act.map fun a => if a || zm then 2 ^ tyWidth t - 1 else 0
  let val := (List.zip act res).map fun (a, r) => if a then r else 0
  (vOfElems t mask, vOfElems t val)

/-- The result of a fractional product: rounded to nearest, ties to even, `f` fraction bits dropped (R496). -/
def fracRound (f : Nat) (x : Int) : Int := roundEven ((x : Rat) / (2 ^ f : Nat))

/-- One element of VALU (R488), for the types that its table row names. -/
def valuElem (f t a b : Nat) : Nat :=
  let wp := tyPart t
  let pa := parts t a
  let pb := parts t b
  let k := (match pb with | x :: _ => wrapN 5 x | [] => 0) % wp
  let f32 (g : Word → Word → Word) : Nat := (g (w32 a) (w32 b)).toNat
  let zip (g : Int → Int → Int) : List Int := (List.zip pa pb).map fun (x, y) => g x y
  let mulc (c : Bool) : List Int :=
    match pa, pb with
    | [ai, aq], [bi, bq] =>
      let bq := if c then -bq else bq
      [fracRound (wp - 1) (ai * bi - aq * bq), fracRound (wp - 1) (ai * bq + aq * bi)]
    | [x], [y] => [fracRound (wp - 1) (x * y)]
    | _, _ => []
  match f with
  | 0 => if t = 5 then f32 fAdd else ofParts t (zip (· + ·))
  | 1 => satParts t (zip (· + ·))
  | 2 => if t = 5 then f32 fSub else ofParts t (zip (· - ·))
  | 3 => satParts t (zip (· - ·))
  | 4 => a &&& b
  | 5 => a ||| b
  | 6 => a ^^^ b
  | 7 => if t = 5 then f32 (fMinMax false) else ofParts t (zip min)
  | 8 => if t = 5 then f32 (fMinMax true) else ofParts t (zip max)
  | 9 => if t = 5 then (fAbs (w32 a)).toNat else satParts t (pa.map fun x => (x.natAbs : Int))
  | 10 => if t = 5 then (fNeg (w32 a)).toNat else satParts t (pa.map (-·))
  | 11 => match pa with
    | [i, q] => satParts t [i, -q]
    | _ => a
  | 12 => satParts t (pa.map (· * (2 ^ k : Nat)))
  | 13 => ofParts t (pa.map (fracRound k))
  | 14 => if t = 5 then f32 fMul else satParts t (mulc false)
  | _ => satParts t (mulc true)

/-- The types that VALU's functions take (R488). -/
def valuOk (f t : Nat) : Bool :=
  match f with
  | 0 | 2 | 10 => true
  | 1 | 3 | 12 | 13 => tyInt t || tyCx t
  | 4 | 5 | 6 => true
  | 7 | 8 | 9 => tyInt t || decide (t = 5)
  | 11 | 15 => tyCx t
  | _ => decide (t = 1 ∨ t = 2) || tyCx t || decide (t = 5)

/-- One element of VFP (R489): a, b, the old destination, IMM5. -/
def vfpElem (f : Nat) (a b d : Word) (imm : Nat) : Word :=
  match f with
  | 0 => fFma a b d
  | 1 => fFnms a b d
  | 2 => fOfInt (signed 32 a.toNat) imm
  | 3 => fToInt a imm
  | 4 => fRcpe a
  | _ => fRsqe a

/-- VPERM (R490): the elements of the destination. [DEDUCED, log 73] -/
def vpermElems (f t : Nat) (va vb : Vec) (imm : Nat) : List Nat :=
  let n := tyN t
  let a := vElem t va
  let b := vElem t vb
  (List.range n).map fun e =>
    match f with
    | 0 => a (imm % n)
    | 1 => if e + imm < n then a (e + imm) else b (e + imm - n)
    | 2 => a (b e % n)
    | 3 => if e % 2 = 0 then a (e / 2) else b (e / 2)
    | 4 => if e % 2 = 0 then a (e / 2 + n / 2) else b (e / 2 + n / 2)
    | 5 => if e < n / 2 then a (2 * e) else b (2 * (e - n / 2))
    | 6 => if e < n / 2 then a (2 * e + 1) else b (2 * (e - n / 2) + 1)
    | 7 => a (n - 1 - e)
    | _ => match parts t (a e) with
      | [i, q] => ofParts t [q, i]
      | _ => a e

/-- VCMP's condition (R492). -/
def vcmpElem (c t a b : Nat) : Bool :=
  let pa := parts t a
  let pb := parts t b
  let x := (pa[0]?).getD 0
  let y := (pb[0]?).getD 0
  let mag (p : List Int) : Int := (p.map fun z => z * z).foldl (· + ·) 0
  let wa := w32 a
  let wb := w32 b
  match c with
  | 0 => if t = 5 then fEq wa wb else a == b
  | 1 => if t = 5 then !fEq wa wb else a != b
  | 2 => if t = 5 then fLt wa wb else decide (x < y)
  | 3 => if t = 5 then fLt wa wb || fEq wa wb else decide (x ≤ y)
  | 4 => if t = 5 then fLt wb wa else decide (y < x)
  | 5 => if t = 5 then fLt wb wa || fEq wa wb else decide (y ≤ x)
  | 6 => decide (mag pb < mag pa)
  | _ => decide (mag pa < mag pb)

/-- The types that VCMP's conditions take (R492). -/
def vcmpOk (c t : Nat) : Bool :=
  match c with
  | 0 | 1 => true
  | 2 | 3 | 4 | 5 => tyInt t || decide (t = 5)
  | _ => tyCx t

/-- A predicate's bits from a list. -/
def predOf (xs : List Bool) : Dword := BitVec.ofNat 64 (packParts 1 (xs.map fun b => if b then 1 else 0))

/-- VRED over the active elements (R491): the value of RD, or of the pair for C32. [DEDUCED, log 76] -/
def vredVal (f t : Nat) (va : Vec) (p : Dword) (imm : Nat) : Nat :=
  let n := tyN t
  let wp := tyPart t
  let act := (List.zip (List.range n) (actives t p)).filterMap fun (e, a) => if a then some e else none
  let vals := act.map fun e => (parts t (vElem t va e))
  let firsts := vals.map fun q => (q[0]?).getD 0
  let hi : Int := (2 ^ (wp - 1) : Nat) - 1
  let lo : Int := -(2 ^ (wp - 1) : Nat)
  let top := firsts.foldl max lo
  match f with
  | 0 =>
    if t = 3 then
      let q := (vals.map fun z => (z[1]?).getD 0).foldl (· + ·) 0
      (wordOfIQ (satBits 16 (firsts.foldl (· + ·) 0)).1 (satBits 16 q).1).toNat
    else wrapN 32 (satBits 32 (firsts.foldl (· + ·) 0)).1
  | 1 => wrapN 32 top
  | 2 => wrapN 32 (firsts.foldl min hi)
  | 3 => (act.find? fun e => decide (((parts t (vElem t va e))[0]?).getD 0 = top)).getD n
  | 4 => (act.foldl (fun (acc : Option Word) e =>
      let x := w32 (vElem t va e)
      some (match acc with | none => fId x | some a => fAdd a x)) none).getD 0 |>.toNat
  | _ =>
    let x := vElem t va (imm % n)
    if t = 1 then wrapN 32 (signed 16 x) else x

/-- The types that VRED's functions take (R491). -/
def vredOk (f t : Nat) : Bool :=
  match f with
  | 0 => tyInt t || decide (t = 3)
  | 1 | 2 | 3 => tyInt t
  | 4 => decide (t = 5)
  | _ => !decide (t = 0)

/-! ### Accumulators -/

/-- An accumulator's image: 32 lanes of 48 bits (R482, R503). -/
abbrev Acc1536 := BitVec 1536

/-- Lane `i` of an accumulator. -/
def accLane (a : Acc1536) (i : Nat) : Int := signed 48 (a.toNat / 2 ^ (48 * i) % 2 ^ 48)

/-- An accumulator of its lanes, each modulo 2^48. -/
def accOf (xs : List Int) : Acc1536 := BitVec.ofNat 1536 (packParts 48 (xs.map (wrapN 48)))

/-- The lanes of an accumulator. -/
def accLanes (a : Acc1536) : List Int := (List.range 32).map (accLane a)

/-- What one element adds to its lanes in VMAC (R482, R497): lane and value. -/
def vmacElem (f t a b e : Nat) (cj : Bool) : List (Nat × Int) :=
  let pa := parts t a
  let pb := if f = 0 then parts t b else pa
  match pa, pb with
  | [ai, aq], [bi, bq] =>
    if f = 1 then [(2 * e, ai * ai + aq * aq), (2 * e + 1, 0)]
    else
      let bq := if cj then -bq else bq
      [(2 * e, ai * bi - aq * bq), (2 * e + 1, ai * bq + aq * bi)]
  | [x], [y] => [(if t = 0 then e / 2 else e, x * y)]
  | _, _ => []

/-- VMAC (R497): the lanes that Z starts from 0, and what each lane adds. -/
def vmacAdds (f t : Nat) (va vb : Vec) (p : Dword) (neg cj : Bool) : List Nat × List Int :=
  let terms := (List.zip (List.range (tyN t)) (actives t p)).flatMap fun (e, a) =>
    if a then vmacElem f t (vElem t va e) (vElem t vb e) e cj else []
  let lanes := (List.range 32).filter fun i => terms.any fun x => x.1 = i
  let sums := (List.range 32).map fun i =>
    (terms.filterMap fun x => if x.1 = i then some x.2 else none).foldl (· + ·) 0
  (lanes, sums.map fun x => if neg then -x else x)

/-- The functions and types of VMAC (R497). -/
def vmacOk (f t : Nat) : Bool := if f = 0 then decide (t = 0 ∨ t = 1 ∨ t = 3) else decide (t = 1 ∨ t = 3)

/-- Rounding of VRND (R498). -/
def vrndRound (rnd : Nat) (x : Rat) : Int :=
  match rnd with
  | 0 => roundEven x
  | 1 => if 0 ≤ x then (x + 1 / 2).floor else -((-x + 1 / 2).floor)
  | _ => x.floor

/-- An element of VRND (R498), and whether it saturated in either part. -/
def vrndElem (t sh rnd : Nat) (a : Acc1536) (e : Nat) : Nat × Bool :=
  let lanes := if t = 3 then [2 * e, 2 * e + 1] else [e]
  let rs := lanes.map fun i => satBits (tyPart t) (vrndRound rnd ((accLane a i : Rat) / (2 ^ sh : Nat)))
  (ofParts t (rs.map (·.1)), rs.any (·.2))

/-- FTAP's addition (R473): element e of VD times the coefficient, plus or minus. -/
def ftapAdds (vd vc : Vec) (ci : Nat) (cj neg : Bool) : List Int :=
  let cc := parts 3 (vElem 3 vc ci)
  let ci' := (cc[0]?).getD 0
  let cq := if cj then -((cc[1]?).getD 0) else (cc[1]?).getD 0
  (List.range 16).flatMap fun e =>
    let x := parts 3 (vElem 3 vd e)
    let i := (x[0]?).getD 0
    let q := (x[1]?).getD 0
    let sg (z : Int) : Int := if neg then -z else z
    [sg (i * ci' - q * cq), sg (i * cq + q * ci')]

/-- FTAP's delay line moved by one sample (R473). -/
def ftapMove (v0 v1 : Vec) : Vec × Vec :=
  (vOfElems 3 ((vElems 3 v0).drop 1 ++ [vElem 3 v1 0]), vOfElems 3 ((vElems 3 v1).drop 1 ++ [0]))

end Sys2Proof.Machine
end

