-- ==== Sys2Proof/Machine/CoreBase.lean ====
section
/-! DEFINITION. The state of an Erdom core: its registers and banks, results in flight, the data cache, fire slots,
start and stop, halt, and the entry of a trap or an interrupt (R421–R476). -/

namespace Sys2Proof.Machine

/-- The page of core `c`: 0–143 a physical core, 144 + s a supervisor core. -/
def corePage (c : Nat) : Nat := if c < 144 then 0x030 + c else 0x0C0 + (c - 144)

/-- A core. -/
def coreOf (s : State) (c : Nat) : CoreSt := kget CoreSt.init s.cores c

/-- Stores a core. -/
def setCore (s : State) (c : Nat) (x : CoreSt) : State := { s with cores := kset CoreSt.init s.cores c x }

/-- Changes a core. -/
def modCore (s : State) (c : Nat) (f : CoreSt → CoreSt) : State := setCore s c (f (coreOf s c))

/-- The Erdom-S profile. -/
def isS (c : Nat) : Bool := decide (144 ≤ c)

/-- The initiator that a core is (R811). -/
def coreWho (s : State) (c : Nat) : Initiator :=
  if isS c then .sv (Fin.ofNat 8 (c - 144))
  else match logicalOf s c with
    | some lc => .lc (Fin.ofNat 128 lc)
    | none => .page (Fin.ofNat 1024 (corePage c))

/-- The window of a core's local memory (R43, R44): the address of its logical core's window. -/
def coreWindow (s : State) (c : Nat) : Nat :=
  let lc := (logicalOf s c).getD 0
  0x001100000000 + lc / 8 * 0x01000000 + 0x800000 + lc % 8 * 0x100000

/-! ### Control registers (R475) -/

/-- The reset value of a control register. -/
def crReset (i : Nat) : Word := if i = 1 then 0x80000000 else 0

/-- A control register as stored. -/
def getCr (x : CoreSt) (i : Nat) : Word := kget (crReset i) x.cr i

/-- Stores a control register. -/
def setCr (x : CoreSt) (i : Nat) (v : Word) : CoreSt := { x with cr := kset (crReset i) x.cr i v }

/-- A pair of control registers as a number. -/
def crPair (x : CoreSt) (i : Nat) : Nat := (getCr x i).toNat + 2 ^ 32 * ((getCr x (i + 1)).toNat % 2 ^ 16)

/-- Stores a pair of control registers. -/
def setCrPair (x : CoreSt) (i n : Nat) : CoreSt := setCr (setCr x i (w32 n)) (i + 1) (w32 (n / 2 ^ 32 % 2 ^ 16))

/-- STATUS, with BD the delay bundles still due. -/
def statusOf (x : CoreSt) : Word := putBits (getCr x 1) 28 27 x.bd

/-- STATUS.PL. -/
def plOf (x : CoreSt) : Bool := bit (getCr x 1) 31

/-- STATUS.SHB. -/
def shbOf (x : CoreSt) : Bool := bit (getCr x 1) 30

/-- The bits of a control register that MTC writes (R475, R508). -/
def crMask (s : Bool) (i : Nat) : Word :=
  match i with
  | 0x01 => 0xA7000000
  | 0x02 => 0xFF000000
  | 0x03 | 0x05 | 0x08 | 0x0C | 0x10 | 0x11 | 0x12 | 0x13 => 0xFFFFFFFF
  | 0x04 | 0x06 | 0x09 | 0x0B => 0x0000FFFF
  | 0x07 => 0x800FFFFF
  | 0x0A => 0xFFFFFFFF
  | 0x18 => if s then 0xFFFFFFFF else 0
  | 0x19 => if s then 0x0000FFFF else 0
  | 0x1A => 0x000F001F
  | i =>
    if 0x1C ≤ i ∧ i ≤ 0x23 then 0x0000001F
    else if 0x28 ≤ i ∧ i < 0x40 then (if (i - 0x28) % 3 = 2 then 7 else 0xFFFFFFFF)
    else 0

/-- A write of a control register takes effect. -/
def crWrite (sp : Bool) (x : CoreSt) (i : Nat) (v : Word) : CoreSt :=
  let m := if 0x10 ≤ i ∧ i ≤ 0x13 then 0x77777777 else crMask sp i
  setCr x i ((getCr x i &&& ~~~m) ||| (v &&& m))

/-! ### Registers and their banks (R422, R469) -/

/-- The key of a data register in the bank in use. -/
def dKey (x : CoreSt) (i : Nat) : Nat := if shbOf x && decide (16 ≤ i) then i + 32 else i

/-- The key of an address register. -/
def aKey (x : CoreSt) (i : Nat) : Nat := if shbOf x && decide (8 ≤ i) then i + 16 else i

/-- The key of an offset register. -/
def mKey (x : CoreSt) (i : Nat) : Nat := if shbOf x && decide (4 ≤ i) then i + 8 else i

/-- A data register; D0 reads 0. -/
def dReg (x : CoreSt) (i : Nat) : Word := if i = 0 then 0 else kget 0 x.d (dKey x i)

/-- A data register pair (R423). -/
def dPair (x : CoreSt) (i : Nat) : Dword := BitVec.ofNat 64 ((dReg x i).toNat + 2 ^ 32 * (dReg x (i + 1)).toNat)

/-- An address register. -/
def aReg (x : CoreSt) (i : Nat) : Dword := kget 0 x.a (aKey x i)

/-- An offset register. -/
def mReg (x : CoreSt) (i : Nat) : Int := (kget 0 x.m (mKey x i)).toInt

/-- A vector register. -/
def vReg (x : CoreSt) (i : Nat) : Vec := kget 0 x.v i

/-- A predicate; P0 reads all ones (R479). -/
def pReg (x : CoreSt) (i : Nat) : Dword := if i = 0 then BitVec.allOnes 64 else kget 0 x.p i

/-- An accumulator. -/
def acReg (x : CoreSt) (i : Nat) : Acc1536 := kget 0 x.ac i

/-- A result lands. D0 and P0 ignore writes. -/
def landDest (sp : Bool) (x : CoreSt) : Dest → CoreSt
  | .d i v => if i = 0 then x else { x with d := kset 0 x.d i v }
  | .a i v => { x with a := kset 0 x.a i v }
  | .v i m v => { x with v := kset 0 x.v i ((kget 0 x.v i &&& ~~~m) ||| (v &&& m)) }
  | .p i v => if i = 0 then x else { x with p := kset 0 x.p i v }
  | .acAdd i z add =>
    let old := accLanes (acReg x i)
    { x with ac := kset 0 x.ac i (accOf ((List.zipIdx (List.zip old add)).map fun ((o, d), n) =>
      (if z.contains n then 0 else o) + d)) }
  | .acBits i m v => { x with ac := kset 0 x.ac i ((acReg x i &&& ~~~m) ||| (v &&& m)) }
  | .cr i v => crWrite sp x i v

/-- Inserts a result by landing time and slot (R426). -/
def insertPend (p : Pend) : List Pend → List Pend
  | [] => [p]
  | q :: qs => if q.due < p.due ∨ (q.due = p.due ∧ q.slot ≤ p.slot) then q :: insertPend p qs else p :: q :: qs

/-- The results due by issue cycle `t` land, in order of time and slot (R426, R428). -/
def landBy (sp : Bool) (x : CoreSt) (t : Nat) : CoreSt :=
  let due := (x.pend.filter fun p => p.due ≤ t).foldl (fun acc p => insertPend p acc) []
  due.foldl (fun x p => landDest sp x p.dest) { x with pend := x.pend.filter fun p => !decide (p.due ≤ t) }

/-- Every issued operation completes (R432). -/
def drainCore (sp : Bool) (x : CoreSt) : CoreSt :=
  let all := x.pend.foldl (fun acc p => insertPend p acc) []
  all.foldl (fun x p => landDest sp x p.dest) { x with pend := [] }

/-! ### Fire slots (R451–R453) -/

/-- The fire slots of a core. -/
def slotCount (c : Nat) : Nat := if isS c then 16 else 2

/-- The address of a fire slot. -/
def slotAddr (s : State) (c i : Nat) : Nat :=
  if isS c then crPair (coreOf s c) 0x18 / 2 ^ 10 * 2 ^ 10 + 64 * i else coreWindow s c + 0x7FF80 + 64 * i

/-- The first slot that holds a record not yet current: the oldest, one of class 0 ahead of the others (R115).
[DEDUCED, log 68] -/
def waitingSlot (x : CoreSt) : Option FireSlot := x.slots.find? fun f => !f.current

/-- FIRE_STS (R475). -/
def fireSts (x : CoreSt) : Word :=
  w32 ((x.slots.map fun f => 2 ^ f.idx + if f.current then 2 ^ (16 + f.idx) else 0).foldl (· + ·) 0)

/-- A record is written into a free fire slot (R451), ahead of queued records of class 1–3 where its class is 0 (R115);
whether one was free. [DEDUCED, log 75] -/
def placeFire (s : State) (c : Nat) (f : FireRec) : State × Bool :=
  let x := coreOf s c
  match (List.range (slotCount c)).find? fun i => !x.slots.any fun g => decide (g.idx = i) with
  | none => (s, false)
  | some i =>
    let a := slotAddr s c i
    let s := if isS c then memPut s (corePage c) a (fireBytes f)
      else (memWrite s (corePage c) a (fireBytes f)).1
    (modCore s c fun x =>
      { x with slots := enqueueFire (·.rec_.urg.toNat) (·.current) ⟨i, f, false⟩ x.slots }, true)

/-! ### The write buffer (R133, R441, R442) -/

/-- R445: a write of the core receives an error response. -/
def writeError (s : State) (c a : Nat) : State :=
  let p := corePage c
  let s := ownErr (setEvt s p 1) p 3 0x04 (some a)
  modCore s c fun x => { x with werr := if x.werr.isSome then x.werr else some a }

/-- A write of the core reaches memory. -/
def coreWriteNow (s : State) (c a : Nat) (d : List (Option Byte)) : State :=
  match memWriteEn s (initPage s (coreWho s c)) a d with
  | (s, .ok) => s
  | (s, _) => writeError s c a

/-- An entry of the write buffer reaches memory: its bytes from the first to the last that is to be written. -/
def sendEntry (c : Nat) (s : State) (e : WbEntry) : State :=
  let d := e.data.dropWhile (·.isNone)
  coreWriteNow s c (e.addr + (64 - d.length)) ((d.reverse.dropWhile (·.isNone)).reverse)

/-- The oldest entry leaves the write buffer. -/
def drainOne (c : Nat) (s : State) : State :=
  match (coreOf s c).wbuf with
  | [] => s
  | e :: es => sendEntry c (modCore s c fun x => { x with wbuf := es }) e

/-- The write buffer drains, oldest entry first. -/
def drainAll (c : Nat) (s : State) : State :=
  match (coreOf s c).wbuf with
  | [] => s
  | es => es.foldl (sendEntry c) (modCore s c fun x => { x with wbuf := [] })

/-- The bytes of a line's entry with those of a later store to it. -/
def mergeEntry (old new : List (Option Byte)) : List (Option Byte) :=
  (List.zip old new).map fun (o, n) => if n.isSome then n else o

/-- Bytes of one line enter the write buffer: they merge into the youngest entry where it is of the same line, so that
stores reach their targets in program order (R442), and else take one of the eight entries. [DESIGN CHOICE, log 150] -/
def bufLine (s : State) (c b : Nat) (d : List (Option Byte)) : State :=
  let d := d ++ List.replicate (64 - d.length) none
  if !(d.any (·.isSome)) then s
  else
    let w := (coreOf s c).wbuf
    match w.getLast? with
    | some e =>
      if e.addr = b then modCore s c fun x => { x with wbuf := w.dropLast ++ [⟨b, mergeEntry e.data d⟩] }
      else modCore (if w.length < 8 then s else drainOne c s) c fun x => { x with wbuf := x.wbuf ++ [⟨b, d⟩] }
    | none => modCore s c fun x => { x with wbuf := [⟨b, d⟩] }

/-- A write of up to 64 bytes of the core to memory: it enters the write buffer. -/
def coreWrite (s : State) (c a : Nat) (d : List (Option Byte)) : State :=
  let n := 64 - a % 64
  bufLine (bufLine s c (a / 64 * 64) (List.replicate (a % 64) none ++ d.take n)) c (a / 64 * 64 + 64) (d.drop n)

/-! ### Start, stop, halt -/

/-- A physical core behind no logical core is held in reset (R412), and so is one that failed its self-test (R844). -/
def coreBacked (s : State) (c : Nat) : Bool := isS c || ((logicalOf s c).isSome && !s.boot.bist.contains (48 + c))

/-- The entry point (R455). [DEDUCED, log 69] -/
def coreEntry (s : State) (c : Nat) : Nat :=
  if isS c then crPair (coreOf s c) 0x0A / 2 ^ 12 * 2 ^ 12 else coreWindow s c + 0x80000

/-- R455: a core starts at its entry point with every register at its reset value; an Erdom-S core keeps IVBASE as
the boot firmware set it, and the fires that a core holds, its cache and its write buffer stay. [DEDUCED, log 69] -/
def coreStart (c : Nat) (s : State) : State :=
  let x := coreOf s c
  let y : CoreSt :=
    { CoreSt.init with
      run := .running, pc := coreEntry s c, slots := x.slots, cache := x.cache, wbuf := x.wbuf, werr := x.werr,
      lost := x.lost, lastPc := x.lastPc }
  setCore s c (if isS c then setCr (setCr y 0x0A (getCr x 0x0A)) 0x0B (getCr x 0x0B) else y)

/-- CTRL.ENABLE of a core's page rises (R454, R455): a core that is stopped or in reset starts. [DEDUCED, log 69] -/
def coreEnable (c : Nat) (s : State) : State :=
  match (coreOf s c).run with
  | .reset | .stopped => if coreBacked s c then coreStart c s else s
  | _ => s

/-- R454: with ENABLE clear, a core in FWAIT with no record waiting stops. [DEDUCED, log 68] -/
def coreStop (c : Nat) (s : State) : State :=
  let x := coreOf s c
  if x.run = .fwait ∧ (waitingSlot x).isNone then setCore s c { x with run := .stopped, staged := [] } else s

/-- The fires that a core holds end with error tokens of a cause. -/
def failSlots (s : State) (c cause : Nat) : State :=
  let x := coreOf s c
  x.slots.foldl (fun s f => failFire s (corePage c) f.rec_ cause) (setCore s c { x with slots := [] })

/-- R476: a core halts. Its cause: 1 DOUBLE_TRAP, 2 REG_PARITY, 3 DEBUG. [DEDUCED, log 70] -/
def haltCore (s : State) (c cause : Nat) : State :=
  let s := failSlots (drainAll c s) c 0x10
  setEvt (modCore s c fun x => { x with run := .halted, haltCause := cause, staged := [] }) (corePage c) 0

/-- A soft reset of the page, or its domain OFF: fires end with SOFT_RESET, the core is in reset. -/
def coreDrop (c : Nat) (s : State) : State :=
  let s := failSlots (drainAll c s) c 0x11
  let x := coreOf s c
  setCore s c (if isS c then setCr (setCr CoreSt.init 0x0A (getCr x 0x0A)) 0x0B (getCr x 0x0B) else CoreSt.init)

/-- R412: the core is held in reset. -/
def coreHold (c : Nat) (s : State) : State :=
  let s := failSlots (drainAll c s) c 0x10
  setCore s c CoreSt.init

/-- STATUS.BUSY of a core's page (R454, R772): it executes. -/
def coreBusy (s : State) (c : Nat) : Bool := decide ((coreOf s c).run = .running)

/-- CORE_STS (R477). -/
def coreSts (s : State) (c : Nat) : Word :=
  let x := coreOf s c
  let st := match x.run with
    | .reset => 0
    | .running => 1
    | .fwait => 2
    | .wait => 3
    | .halted => 4
    | .stopped => 5
  w32 (st * 2 ^ 28 + bits (getCr x 7) 7 0)

/-! ### Traps and interrupts (R458–R461, R468, R469) -/

/-- A trap that falls due: cause, SUB, slot, fault or completion, EADDR. -/
structure TrapInfo where
  cause : Nat
  sub : Nat
  slot : Nat
  fault : Bool
  eaddr : Nat
  deriving DecidableEq, Repr

/-- Entry of a trap or an interrupt (R459, R469): issued operations complete, the state is saved, the shadow bank is
in use, and the handler's address is the next. `epc` is the bundle to resume at. -/
def enterHandler (c : Nat) (epc cause ecause : Nat) (ipl : Option Nat) (s : State) : State :=
  modCore s c fun x =>
    let x := drainCore (isS c) x
    let x := setCr x 2 (statusOf x)
    let x := setCrPair x 3 epc
    let x := if x.bd = 0 then x else setCrPair x 5 x.bt
    let x := setCr x 7 (w32 ecause)
    let st := putBit (putBit (getCr x 1) 31 true) 30 true
    let x := setCr x 1 (match ipl with | some n => putBits st 26 24 n | none => st)
    { x with bd := 0, staged := [], run := .running, pc := (crPair x 0x0A / 2 ^ 12 * 2 ^ 12 + cause * 64) % 2 ^ 48 }

/-- R461: a double trap halts the core. -/
def doubleTrap (s : State) (c : Nat) : State :=
  haltCore (ownErr s (corePage c) 6 0x06 none) c 1

/-- A trap is taken (R458, R459, R461). -/
def takeTrap (c epc : Nat) (t : TrapInfo) (s : State) : State :=
  if shbOf (coreOf s c) then doubleTrap s c
  else
    let s := incCnt s (corePage c) 4
    let s := modCore s c fun x => setCrPair x 8 t.eaddr
    enterHandler c epc t.cause ((if t.fault then 2 ^ 31 else 0) + t.slot * 2 ^ 16 + t.sub % 256 * 2 ^ 8 + t.cause) none s

/-- R445, R465: a pending write error or lost line traps at a bundle boundary, where SHB = 0 (R461).
[DEDUCED, log 66; DESIGN CHOICE, log 71] -/
def boundaryTraps (c : Nat) (s : State) : State :=
  let x := coreOf s c
  if shbOf x then s
  else match x.werr with
  | some a => takeTrap c x.pc ⟨0x0A, 0, 0, false, a⟩ (setCore s c { x with werr := none })
  | none =>
    match x.lost with
    | some a => takeTrap c x.pc ⟨0x0C, 0, 0, false, a⟩ (setCore s c { x with lost := none })
    | none => s

/-! ### The data cache (R438, R441, R443, R464, R465) -/

/-- The sets of a core's data cache: 32 KiB or 64 KiB, four ways of 64 bytes. -/
def cacheSets (c : Nat) : Nat := if isS c then 256 else 128

/-- R465: a dirty line that cannot be read is lost. [DEDUCED, log 66] -/
def loseLine (s : State) (c a : Nat) : State :=
  let p := corePage c
  let s := ownErr s p 2 0x03 (some a)
  setEvt (modCore s c fun x => { x with lost := some a }) p 2

/-- A line is written back. -/
def writeBack (s : State) (c : Nat) (l : Line) : State :=
  if !l.dirty then s
  else if l.ue then loseLine s c l.addr
  else coreWrite s c l.addr (l.data.map some)

/-- The line that holds an address. -/
def findLine (x : CoreSt) (a : Nat) : Option Line := x.cache.find? fun l => l.addr = a / 64 * 64

/-- The cache without a line. -/
def removeLine (x : CoreSt) (a : Nat) : CoreSt := { x with cache := x.cache.filter fun l => !decide (l.addr = a / 64 * 64) }

/-- A line enters its set as the most recently used; the least recently used of four leaves. -/
def insertLine (s : State) (c : Nat) (l : Line) : State :=
  let x := removeLine (coreOf s c) l.addr
  let mine := x.cache.filter fun m => m.addr / 64 % cacheSets c = l.addr / 64 % cacheSets c
  let s := setCore s c x
  match mine[3]? with
  | none => modCore s c fun x => { x with cache := l :: x.cache }
  | some v =>
    let s := modCore s c fun x => { removeLine x v.addr with cache := l :: (removeLine x v.addr).cache }
    writeBack s c v

/-- The lines that overlap [a, a + n) (R443). -/
def linesIn (x : CoreSt) (a n : Nat) : List Line :=
  if n = 0 then [] else x.cache.filter fun l => decide (l.addr < a + n) && decide (a < l.addr + 64)

/-- FLUSH: the dirty lines are written back and stay valid. A line that cannot be read is gone. -/
def flushLines (s : State) (c a n : Nat) : State :=
  (linesIn (coreOf s c) a n).foldl (fun s l =>
    if !l.dirty then s
    else
      let s := writeBack s c l
      modCore s c fun x =>
        if l.ue then removeLine x l.addr
        else { x with cache := x.cache.map fun m => if m.addr = l.addr then { m with dirty := false } else m }) s

/-- INVAL: the lines go, with their dirty data. -/
def invalLines (s : State) (c a n : Nat) : State :=
  (linesIn (coreOf s c) a n).foldl (fun s l => modCore s c fun x => removeLine x l.addr) s

/-- An uncorrectable error strikes a cache line. [DEDUCED, log 16] -/
def strikeLine (s : State) (c : Nat) (a : Option Addr) : State :=
  match a with
  | none => s
  | some a => modCore s c fun x =>
    { x with cache := x.cache.map fun l => if l.addr = a.toNat / 64 * 64 then { l with ue := true } else l }

end Sys2Proof.Machine
end

