-- ==== Sys2Proof/Machine/Dma.lean ====
section
/-! DEFINITION. The DMA engines: channels, runs, reads and beats, checksums, completion, halts (R596–R624). -/

namespace Sys2Proof.Machine

/-- The state of channel `c`, numbered 128 × engine + channel. -/
def dmaCh (s : State) (c : Nat) : DmaCh := kget DmaCh.init s.dma c

/-- Stores a channel. -/
def setDma (s : State) (c : Nat) (x : DmaCh) : State := { s with dma := kset DmaCh.init s.dma c x }

/-- The page of the engine of a channel. -/
def dmaPage (c : Nat) : Nat := 0x0D8 + c / 128

/-- The extension page of a channel and the offset of its registers there (R50, R624). -/
def chPage (c : Nat) : Nat := 0x200 + c / 32

/-- A register of a channel. -/
def chReg (s : State) (c off : Nat) : Word := getReg s (chPage c) (c % 32 * 0x80 + off)

/-- Stores a register of a channel. -/
def setChReg (s : State) (c off : Nat) (v : Word) : State := setReg s (chPage c) (c % 32 * 0x80 + off) v

/-- CH_CTRL.EN, with the engine page's enable (R621). -/
def chEn (s : State) (c : Nat) : Bool := bit (chReg s c 0) 31 && enabled s (dmaPage c)

/-- RING_BASE, its low 6 bits taken as 0 (R888). -/
def chBase (s : State) (c : Nat) : Nat := getPair s (chPage c) (c % 32 * 0x80 + 0x10) 6 % 2 ^ 48

/-- The number of descriptors of a ring (R624). -/
def chCount (s : State) (c : Nat) : Nat := 2 ^ min 12 (bits (chReg s c 0x18) 3 0)

/-- The DONE and HALT bits of EVT_RAW follow the pending registers (R623). -/
def dmaLevels (e : Nat) (s : State) : State :=
  let p := 0x0D8 + e
  let done (g : Nat) : Bool :=
    bits (getReg s p (0x110 + 4 * (g / 2)) &&& ~~~getReg s p (0x120 + 4 * (g / 2))) (16 * (g % 2) + 15) (16 * (g % 2)) ≠ 0
  let halt (g : Nat) : Bool := (List.range 16).any fun j => (dmaCh s (128 * e + 16 * g + j)).st = 3
  (List.range 8).foldl (fun s g => modReg s p 0x14 fun w => putBit (putBit w g (done g)) (8 + g) (halt g)) s

/-! ### Checksums (R611, R612) -/

/-- One bit of a reflected CRC with reflected polynomial `poly`. -/
def crcBit (poly : Word) (r : Word) : Word := if bit r 0 then (r >>> 1) ^^^ poly else r >>> 1

/-- One byte of a reflected CRC. -/
def crcByte (poly : Word) (r : Word) (b : Byte) : Word :=
  (List.range 8).foldl (fun r _ => crcBit poly r) (r ^^^ w32 b.toNat)

/-- The ones'-complement sum after one more byte; `odd` where the byte is the second of its pair. -/
def onesByte (r : Word) (odd : Bool) (b : Byte) : Word :=
  let t := r.toNat + if odd then b.toNat else b.toNat * 256
  w32 (t % 65536 + t / 65536)

/-- The running value and the pairing after `data`, in checksum mode `m`. [DEDUCED, log 93] -/
def csumRun (m : Nat) (r : Word × Bool) (data : List Byte) : Word × Bool :=
  match m with
  | 1 => (data.foldl (crcByte 0xEDB88320) r.1, r.2)
  | 2 => (data.foldl (crcByte 0x82F63B78) r.1, r.2)
  | 3 => data.foldl (fun x b => (onesByte x.1 x.2 b, !x.2)) r
  | _ => r

/-- CSUM_OUT of a completed descriptor. -/
def csumOut (m : Nat) (r : Word) : Word :=
  match m with
  | 1 | 2 => r ^^^ 0xFFFFFFFF
  | 3 => ~~~r &&& 0xFFFF
  | _ => 0

/-! ### The descriptor in progress -/

/-- The rows of a descriptor (R598). -/
def dmaRows (ws : List Word) : Nat := if bits (wWord ws 0) 3 0 = 2 then bits (wWord ws 10) 15 0 else 1

/-- The bytes of a descriptor. [DEDUCED, log 90] -/
def dmaTotal (ws : List Word) : Nat := (wWord ws 9).toNat * dmaRows ws

/-- The bytes of one row. -/
def dmaBytes (ws : List Word) : Nat := (wWord ws 9).toNat

/-- The address of byte `pos` of the transfer, from the address in words `i` and the stride in word `j`. -/
def dmaAddr (ws : List Word) (i j pos : Nat) : Nat :=
  let base := (wWord ws i).toNat + 2 ^ 32 * (wWord ws (i + 1)).toNat
  let stride : Int := if bits (wWord ws 0) 3 0 = 2 then signed 32 (wWord ws j).toNat else 0
  wrapN 64 (((base + pos % dmaBytes ws : Nat) : Int) + ((pos / dmaBytes ws : Nat) : Int) * stride)

/-- The bytes that the staging buffer holds. -/
def dmaHeld (x : DmaCh) : Nat :=
  x.buf.length + (x.reads.map fun r => (r.data.getD []).length).sum + (x.beats.map fun b => b.data.length).sum

/-- The bytes that are held, and those for which outstanding reads have taken room. -/
def dmaRoomUsed (x : DmaCh) : Nat := x.buf.length + (x.reads.map (·.len)).sum + (x.beats.map fun b => b.data.length).sum

/-- The bytes of a FILL's beat at position `pos` of its row. -/
def fillBytes (ws : List Word) (pos n : Nat) : List Byte :=
  let pat := leBytes 4 (wWord ws 5).toNat ++ leBytes 4 (wWord ws 6).toNat
  (List.range n).map fun i => (pat[(pos + i) % 8]?).getD 0

/-- The channel makes its next read ready, where it has one and the staging buffer has room (R606). -/
def dmaNextRead (c : Nat) (s : State) : Option State :=
  let x := dmaCh s c
  if bits (wWord x.words 0) 3 0 = 3 ∨ dmaTotal x.words ≤ x.asked then none
  else
    let a := dmaAddr x.words 5 11 x.asked
    let n := min (256 - a % 256) (dmaBytes x.words - x.asked % dmaBytes x.words)
    if 2048 < dmaRoomUsed x + n ∨ 8 ≤ (x.reads.filter fun r => r.data.isNone).length then none
    else
      let (id, s) := issueReq s (.page (Fin.ofNat 1024 (dmaPage c))) false a n [] c 2
      some (setDma s c { x with asked := x.asked + n, reads := x.reads ++ [⟨id, a, n, 0, false, none⟩] })

/-- The channel makes its next beat ready, where its data is in the staging buffer (R606). -/
def dmaNextBeat (c : Nat) (s : State) : Option State :=
  let x := dmaCh s c
  if dmaTotal x.words ≤ x.formed then none
  else
    let off := x.formed % dmaBytes x.words
    let a := dmaAddr x.words 7 12 x.formed
    let n := min (64 - a % 64) (dmaBytes x.words - off)
    let fill := bits (wWord x.words 0) 3 0 = 3
    if (if fill then 2048 < dmaRoomUsed x + n else x.buf.length < n) then none
    else
      let data := if fill then fillBytes x.words off n else x.buf.take n
      let (id, s) := issueReq s (.page (Fin.ofNat 1024 (dmaPage c))) true a n data c 3
      some (setDma s c { x with formed := x.formed + n, buf := if fill then x.buf else x.buf.drop n,
                                beats := x.beats ++ [⟨id, a, data, 0, false⟩] })

/-- Every read and beat that the channel can make ready. The count bounds the flits that 2 KiB can hold. -/
def dmaPump (c : Nat) : Nat → State → State
  | 0, s => s
  | k + 1, s =>
    match dmaNextBeat c s with
    | some s => dmaPump c k s
    | none => match dmaNextRead c s with
      | some s => dmaPump c k s
      | none => s

/-- Arrived data moves, in the order of the reads, to where beats take it. -/
def dmaGather (x : DmaCh) : Nat → DmaCh
  | 0 => x
  | k + 1 =>
    match x.reads with
    | ⟨_, _, _, _, _, some d⟩ :: rs => dmaGather { x with reads := rs, buf := x.buf ++ d } k
    | _ => x

/-! ### Runs -/

/-- The channel fetches the descriptor at RING_CUR. -/
def dmaFetch (c : Nat) (s : State) : State :=
  let d := chBase s c + 64 * (bits (chReg s c 0x1C) 11 0 % chCount s c)
  let (id, s) := issueReq s (.page (Fin.ofNat 1024 (dmaPage c))) false d 64 [] c 1
  setDma s c { dmaCh s c with desc := d, fetch := some id, words := [], reads := [], beats := [], buf := [], asked := 0,
                              formed := 0, issued := 0, retries := 0, stop := none }

/-- A run begins (R602, R604). -/
def dmaStart (c : Nat) (f : Option FireRec) (s : State) : State :=
  let s := setDma s c { dmaCh s c with st := 1, fire := f }
  let s := match f with
    | some r => if r.p0 = 0 then s else setChReg s c 0x1C (w32 ((r.p0.toNat - chBase s c) / 64))
    | none => s
  dmaFetch c s

/-- R602: a trigger arrives; whether the channel takes it. [DEDUCED, log 91] -/
def dmaTrigger (c : Nat) (f : Option FireRec) (s : State) : State × Bool :=
  let x := dmaCh s c
  if !chEn s c ∨ x.st = 3 then (incCnt s (dmaPage c) 4, false)
  else if x.st = 0 then (dmaStart c f s, true)
  else if x.pend.length < 15 then (setDma s c { x with pend := x.pend ++ [f] }, true)
  else (setEvt (incCnt s (dmaPage c) 4) (dmaPage c) 16, false)

/-- Every channel whose TRIG_SRC is `src` and whose TRIG_ARG is `arg` is triggered (R601). -/
def dmaTriggerAll (src arg : Nat) (s : State) : State :=
  ((List.range 1024).filter fun c =>
      decide (bits (chReg s c 0) 17 16 = src ∧ bits (chReg s c 0) 9 0 = arg)).foldl
    (fun s c => (dmaTrigger c none s).1) s

/-- A TIME trigger of compare unit `n` (R601). -/
def dmaTime (n : Nat) (s : State) : State := dmaTriggerAll 2 n s

/-- The engine sends an error token for a fire. -/
def dmaFail (c : Nat) (f : Option FireRec) (cause : Nat) (s : State) : State :=
  match f with
  | some r => failFire s (dmaPage c) r cause
  | none => s

/-- PEND is discarded; a fire among the triggers ends with an error token of cause `cause`. [DEDUCED, log 91] -/
def dmaDropPend (c cause : Nat) (s : State) : State :=
  let ps := (dmaCh s c).pend
  ps.foldl (fun s f => dmaFail c f cause s) (setDma s c { dmaCh s c with pend := [] })

/-- The run ends, and the next begins where a trigger is pending (R602). -/
def dmaEndRun (c : Nat) (s : State) : State :=
  let s := setDma s c { dmaCh s c with st := 0, fire := none, words := [], fetch := none, stop := none }
  if !chEn s c then dmaDropPend c 0x04 s
  else match (dmaCh s c).pend with
    | [] => s
    | f :: ps => dmaStart c f (setDma s c { dmaCh s c with pend := ps })

/-- RING_CUR moves past a descriptor. [DEDUCED, log 90] -/
def dmaAdvance (c : Nat) (s : State) : State :=
  let n := chCount s c
  setChReg s c 0x1C (w32 ((bits (chReg s c 0x1C) 11 0 % n + 1) % n))

/-- After a descriptor: the next of its run, or the end of the run (R614). `ok` is whether it completed. -/
def dmaNext (c : Nat) (chain ok : Bool) (s : State) : State :=
  if chain then dmaFetch c s
  else
    let x := dmaCh s c
    let s := match x.fire with
      | some f => if ok then complete s (dmaPage c) f false (BitVec.ofNat 64 x.desc) else failFire s (dmaPage c) f 0x01
      | none => s
    let s := dmaEndRun c s
    if ok then dmaTriggerAll 3 c s else s

/-- R613: the descriptor completes, where every beat has its response. [DEDUCED, log 92] -/
def dmaSettle (c : Nat) (s : State) : State :=
  let x := dmaCh s c
  if x.stop.isSome ∨ x.words = [] ∨ x.formed < dmaTotal x.words ∨ x.beats ≠ [] ∨ x.reads ≠ [] then s
  else
    let p := dmaPage c
    let w0 := wWord x.words 0
    let out := csumOut (bits (wWord x.words 4) 31 28) (x.csum.getD 0)
    let s := memPut s p (x.desc + 56) (leBytes 4 out.toNat ++ leBytes 4 (2 ^ 31))
    let s := closeDesc s p x.desc 0 0 (min 255 x.retries)
    let s := incCnt (incCnt s p 0) p 7
    let s := setDma s c { dmaCh s c with descCnt := (x.descCnt + 1) % 2 ^ 32 }
    let s := if bit w0 30 then
        dmaLevels (c / 128) (modReg s p (0x110 + 4 * (c % 128 / 32)) fun w => putBit w (c % 32) true)
      else s
    dmaNext c (bit w0 29) true (dmaAdvance c s)

/-! ### Halts (R617) -/

/-- A halt begins: what the engine has not injected is withdrawn; the rest is awaited. [DEDUCED, log 91] -/
def dmaHalt (c : Nat) (h : DmaStop) (s : State) : State :=
  let x := dmaCh s c
  if x.stop.isSome then s
  else
    let out := (x.reads.filter fun r => !r.sent && r.data.isNone).map (·.id) ++
      (x.beats.filter fun b => !b.sent).map (·.id)
    let s := out.foldl dropReq s
    setDma s c { x with stop := some h, reads := x.reads.filter (·.sent), beats := x.beats.filter (·.sent) }

/-- The halt of a run that the page captures. -/
def dmaFault (c cause cls code addr src : Nat) (s : State) : State := dmaHalt c ⟨cause, cls, code, addr, src, false⟩ s

/-- Nothing of the channel is outstanding. -/
def dmaQuiet (x : DmaCh) : Bool := x.fetch.isNone && (x.reads.all fun r => r.data.isSome) && x.beats.isEmpty

/-- R617 steps 3–7, R618, R620. -/
def haltCompleteSt (c : Nat) (s : State) : State :=
  let x := dmaCh s c
  match x.stop with
  | none => s
  | some h =>
    if !dmaQuiet x ∨ resetting s (dmaPage c) then s
    else
      let p := dmaPage c
      let s := if x.words = [] then s
        else
          let s := memPut s p (x.desc + 56) (leBytes 4 (x.csum.getD 0xFFFFFFFF).toNat ++ leBytes 4 0)
          closeDesc s p x.desc 1 h.cls (h.cause * 2 ^ 16 + min 255 x.retries)
      let s := setDma s c { dmaCh s c with words := [], reads := [], beats := [], buf := [], stop := none, cause := h.cause }
      let s := if h.abort && x.words.isEmpty then s else dmaAdvance c s
      if h.abort then dmaEndRun c (dmaFail c x.fire h.cause s)
      else
        let s := setDma s c { dmaCh s c with st := 3, beatAddr := h.addr, fire := none }
        let s := captureErr s p ⟨h.cls, h.code, 0, h.src, some h.addr⟩
        let s := incCnt s p 3
        let s := dmaFail c x.fire h.cause s
        dmaLevels (c / 128) (dmaDropPend c 0x09 s)

/-! ### Injection and responses -/

/-- The effective priority of a channel (R608). -/
def dmaPrio (s : State) (c : Nat) : Nat :=
  let p := bits (chReg s c 0) 25 24
  match (dmaCh s c).fire with
  | some f => min p f.urg.toNat
  | none => p

/-- The requests of a channel that the engine may inject next: a descriptor fetch, its first read, its first
beat (R606). -/
def dmaReady (x : DmaCh) : List Nat :=
  ((x.reads.filter fun r => !r.sent && r.data.isNone).take 1).map (·.id) ++
    ((x.beats.filter fun b => !b.sent).take 1).map (·.id)

/-- An engine's channels with a flit ready. -/
def dmaReadyChs (s : State) (e : Nat) : List Nat :=
  (s.dma.filter fun y => y.1 / 128 = e && !(dmaReady y.2).isEmpty).map (·.1)

/-- The channel that the engine serves next (R608): the lowest priority number, round robin within it. -/
def dmaPick (s : State) (e : Nat) : Option Nat :=
  let cs := dmaReadyChs s e
  let best := (cs.map (dmaPrio s)).foldl min 4
  let g := cs.filter fun c => dmaPrio s c = best
  let last := ((kget DmaEng.init s.dmaEng e).rr[best]?).getD 0
  match g.find? fun c => last ≤ c % 128 with
  | some c => some c
  | none => g.head?

/-- The memory key of channel `c`'s staging buffer, by which an upset names it. [DEDUCED, log 15] -/
def stageKey (c : Nat) : Nat := 2 ^ 49 + c * 2048

/-- A request of a DMA channel is injected; none where it is not its turn. The flag is whether the flit leaves:
an uncorrectable staging-buffer error halts the channel instead (R616). [DEDUCED, log 93] -/
def dmaSend (r : Req) (u : Option Upset) (s : State) : Option (State × Bool) :=
  let c := r.chan
  let x := dmaCh s c
  let p := dmaPage c
  if r.tag = 1 then some (s, true)
  else if dmaPick s (c / 128) ≠ some c ∨ !(dmaReady x).contains r.id then none
  else
    let e := kget DmaEng.init s.dmaEng (c / 128)
    let pr := dmaPrio s c
    let yields := e.last ≠ 0 ∧ e.last ≠ c % 128 + 1 ∧ (dmaReadyChs s (c / 128)).contains (c / 128 * 128 + (e.last - 1)) ∧
      pr < dmaPrio s (c / 128 * 128 + (e.last - 1))
    let s := if yields then incCnt s p 6 else s
    let s := { s with dmaEng := kset DmaEng.init s.dmaEng (c / 128)
                        { e with last := c % 128 + 1, rr := setAt e.rr pr (c % 128 + 1) } }
    let stage := match u with
      | some v => if stageKey c ≤ v.addr ∧ v.addr < stageKey c + 2048 then v.mark else .clean
      | none => .clean
    match r.isWrite, stage with
    | true, .ue => some (dmaFault c 0x02 2 0x07 r.addr p s, false)
    | _, _ =>
      let s := if stage = .ce then countCe (captureErr s p ⟨1, 0x07, 0, p, some r.addr⟩) p else s
      match x.beats.find? fun b => b.id = r.id with
      | some b =>
        let first := decide (b.tries = 0)
        let run := csumRun (bits (wWord x.words 4) 31 28) (x.csum.getD 0, x.odd) b.data
        let x := if first then
            { x with issued := x.issued + b.data.length,
                     csum := if bits (wWord x.words 4) 31 28 = 0 then x.csum else some run.1,
                     odd := if bits (wWord x.words 4) 31 28 = 0 then x.odd else run.2 }
          else x
        some (setDma s c { x with beats := x.beats.map fun y => if y.id = r.id then { y with sent := true } else y }, true)
      | none =>
        some (setDma s c { x with reads := x.reads.map fun y => if y.id = r.id then { y with sent := true } else y }, true)

/-- R599: the arguments that a channel refuses. [DEDUCED, log 90] -/
def dmaBadArg (ws : List Word) : Bool :=
  decide (wWord ws 9 = 0) || (decide (bits (wWord ws 0) 3 0 = 2) && decide (2 ^ 32 - 1 < dmaTotal ws)) ||
    decide (3 < bits (wWord ws 4) 31 28) || decide (bits (wWord ws 10) 31 16 ≠ 0) ||
    decide (bits (wWord ws 4) 26 0 ≠ 0) || decide (bits (wWord ws 15) 30 0 ≠ 0)

/-- The running value at the start of a descriptor (R611, R612). -/
def csumStart (x : DmaCh) (ws : List Word) : DmaCh :=
  let m := bits (wWord ws 4) 31 28
  if m = 0 then x
  else if bit (wWord ws 4) 27 then
    match x.csum with
    | some _ => x
    | none => { x with csum := some (if m = 3 then 0 else 0xFFFFFFFF), odd := false }
  else { x with csum := some (if m = 3 then wWord ws 13 &&& 0xFFFF else wWord ws 13), odd := false }

/-- A descriptor has been fetched (R598, R599, R605, R616, R83). [DEDUCED, log 90] -/
def dmaFetched (c : Nat) (r : Resp) (d : List Byte) (s : State) : State :=
  let x := dmaCh s c
  let p := dmaPage c
  let s := setDma s c { x with fetch := none }
  if x.stop.isSome then s
  else match r with
  | .poison => dmaFault c 0x02 2 0x02 x.desc (ownerPage s x.desc) s
  | .ok =>
    let ws := (List.range 16).map (wordAt d)
    let w0 := wWord ws 0
    if !bit w0 31 then
      let s := setEvt (incCnt s p 5) p 18
      dmaEndRun c (dmaFail c x.fire 0x08 s)
    else if bits w0 15 4 ≠ 0x018 ∨ bits w0 23 16 ≠ 1 ∨ bits w0 3 0 = 0 ∨ 3 < bits w0 3 0 then
      dmaNext c (bit w0 29) false (dmaAdvance c (refuseDesc s p x.desc))
    else
      let s := setDma s c { dmaCh s c with words := ws }
      if dmaBadArg ws then dmaFault c 0x01 6 0x06 x.desc p s
      else
        let s := setDma s c (csumStart (dmaCh s c) ws)
        dmaSettle c (dmaPump c 2200 s)
  | _ => dmaFault c 0x03 3 0x03 x.desc p s

/-- A read or a beat that ended by TIMEOUT or TARGET is sent again, or halts the channel (R615). -/
def dmaAgain (c : Nat) (isWrite : Bool) (id addr len : Nat) (data : List Byte) (tries : Nat) (s : State) : State :=
  let p := dmaPage c
  if tries < bits (chReg s c 0) 22 20 then
    let (nid, s) := issueReq (incCnt s p 2) (.page (Fin.ofNat 1024 p)) isWrite addr len data c (if isWrite then 3 else 2)
    let x := dmaCh s c
    setDma s c { x with retries := x.retries + 1,
                        reads := x.reads.map fun r => if r.id = id then { r with id := nid, tries := tries + 1, sent := false } else r,
                        beats := x.beats.map fun b => if b.id = id then { b with id := nid, tries := tries + 1, sent := false } else b }
  else
    let x := dmaCh s c
    let s := setDma s c { x with reads := x.reads.filter fun r => !decide (r.id = id),
                                 beats := x.beats.filter fun b => !decide (b.id = id) }
    if isWrite then dmaFault c 0x05 3 0x04 addr (addrPage s addr) s else dmaFault c 0x06 4 0x05 addr (addrPage s addr) s

/-- A read's response reaches the channel (R615, R616). -/
def dmaRdResp (q : Req) (r : Resp) (d : List Byte) (s : State) : State :=
  let c := q.chan
  let x := dmaCh s c
  if q.tag = 1 then (if x.fetch = some q.id then dmaFetched c r d s else s)
  else match x.reads.find? fun y => y.id = q.id with
  | none => s
  | some y =>
    let gone := { x with reads := x.reads.filter fun z => !decide (z.id = q.id) }
    if x.stop.isSome then setDma s c gone
    else match r with
    | .ok =>
      let x := { x with reads := x.reads.map fun z => if z.id = q.id then { z with data := some d } else z }
      dmaSettle c (dmaPump c 2200 (setDma s c (dmaGather x x.reads.length)))
    | .poison => dmaFault c 0x02 2 0x01 q.addr (ownerPage s q.addr) (setDma s c gone)
    | .decode => dmaFault c 0x03 3 0x03 q.addr (dmaPage c) (setDma s c gone)
    | _ => dmaAgain c false q.id q.addr q.len [] y.tries s

/-- A beat's response reaches the channel (R607, R615). [DEDUCED, log 92] -/
def dmaWrResp (q : Req) (r : Resp) (s : State) : State :=
  let c := q.chan
  let x := dmaCh s c
  match x.beats.find? fun y => y.id = q.id with
  | none => s
  | some y =>
    let gone := { x with beats := x.beats.filter fun z => !decide (z.id = q.id) }
    if x.stop.isSome then setDma s c gone
    else match r with
    | .ok =>
      let e := kget DmaEng.init s.dmaEng (c / 128)
      let t := e.rel + y.data.length
      let s := addCnt (setDma s c gone) (dmaPage c) 1 (t / 64)
      let s := { s with dmaEng := kset DmaEng.init s.dmaEng (c / 128) { e with rel := t % 64 } }
      dmaSettle c (dmaPump c 2200 s)
    | .decode => dmaFault c 0x03 3 0x03 q.addr (dmaPage c) (setDma s c gone)
    | _ => dmaAgain c true q.id q.addr q.len y.data y.tries s

/-! ### Commands -/

/-- R603, R604: a fire on the DMA pool. -/
def dmaFireSt (e : Nat) (f : FireRec) (s : State) : State :=
  let p := 0x0D8 + e
  let c := 128 * e + f.opcode.toNat % 128
  let d := f.p0.toNat
  if f.opcode.toNat / 128 ≠ 0 ∨ bits (chReg s c 0) 17 16 ≠ 1 then failFire s p f 0x01
  else if !chEn s c then failFire s p f 0x04
  else if (dmaCh s c).st = 3 then failFire s p f 0x09
  else if d ≠ 0 ∧ (d % 64 ≠ 0 ∨ d < chBase s c ∨ chBase s c + 64 * chCount s c ≤ d) then failFire s p f 0x01
  else
    let (s, took) := dmaTrigger c (some f) s
    if took then s else failFire s p f 0x01

/-- R620. [DEDUCED, log 92] -/
def dmaAbort (c : Nat) (s : State) : State :=
  let x := dmaCh s c
  if x.st = 1 then
    let s := setDma s c { x with st := 2 }
    match x.stop with
    | none => dmaHalt c ⟨0x07, 0, 0, 0, 0, true⟩ s
    | some h => setDma s c { dmaCh s c with stop := some { h with cause := 0x07, cls := 0, abort := true } }
  else if x.st = 0 then dmaDropPend c 0x07 s
  else s

/-- R619. -/
def dmaClear (c : Nat) (s : State) : State :=
  let x := dmaCh s c
  if x.st = 3 then dmaLevels (c / 128) (setDma s c { x with st := 0, csum := none, odd := false }) else s

/-- R621: the channel completes its run; PEND is discarded. [DEDUCED, log 91] -/
def dmaDisable (c : Nat) (s : State) : State := dmaDropPend c 0x04 s

/-- R621 on every channel of an engine whose CTRL.ENABLE is cleared. -/
def dmaPageDisable (e : Nat) (s : State) : State :=
  (List.range 128).foldl (fun s j => dmaDisable (128 * e + j) s) s

/-- R597: whether the channel ignores writes to its configuration. -/
def chLocked (s : State) (c : Nat) : Bool := bit (chReg s c 0) 31 || decide ((dmaCh s c).st ≠ 0)

/-- A write of CH_CTRL (R597, R621). -/
def chCtrlWrite (c : Nat) (v : Word) (s : State) : State :=
  let old := chReg s c 0
  let lock : Word := 0x007303FF
  let v := v &&& 0x837303FF
  let locked := chLocked s c
  let s := if locked && decide ((old ^^^ v) &&& lock ≠ 0) then setEvt s (dmaPage c) 17 else s
  let s := setChReg s c 0 (if locked then (v &&& ~~~lock) ||| (old &&& lock) else v)
  if bit old 31 && !bit v 31 then dmaDisable c s else s

/-- CH_STS (R596, R624). -/
def chSts (s : State) (c : Nat) : Word :=
  let x := dmaCh s c
  w32 (x.st * 2 ^ 28 + x.pend.length * 2 ^ 24 + x.cause % 256 * 2 ^ 16 + if x.pend.any (·.isSome) then 2 ^ 15 else 0)

/-- CH_COUNT (R606). -/
def chCountReg (s : State) (c : Nat) : Word :=
  let x := dmaCh s c
  w32 (if x.words = [] || x.stop.any (·.code == 6) then 0 else dmaTotal x.words - x.issued)

/-- CH_STAGE (R624). -/
def chStage (s : State) (c : Nat) : Word :=
  let x := dmaCh s c
  w32 (min 63 (x.beats.filter (·.sent)).length * 2 ^ 24 +
    min 15 (x.reads.filter fun r => r.sent && r.data.isNone).length * 2 ^ 16 + dmaHeld x % 4096)

/-- ENG_STS (R623). -/
def engSts (s : State) (e : Nat) : Word :=
  let n (f : DmaCh → Bool) : Nat := ((List.range 128).filter fun j => f (dmaCh s (128 * e + j))).length
  w32 (n (fun x => x.st = 3) * 2 ^ 16 + n fun x => x.st = 1 || x.st = 2)

/-- R622: an engine under reset injects nothing more, and discards what it awaits. -/
def dmaQuell (e : Nat) (s : State) : State :=
  (List.range 128).foldl (fun s j =>
    let c := 128 * e + j
    if (dmaCh s c).st = 0 then s
    else
      let s := dmaHalt c ⟨0x0A, 0, 0, 0, 0, true⟩ s
      setDma s c { dmaCh s c with stop := some ⟨0x0A, 0, 0, 0, 0, true⟩ }) s

/-- R622: every run ends without a word; its fires get error tokens, its registers their reset values. -/
def dmaDrop (e : Nat) (s : State) : State :=
  let s := (List.range 128).foldl (fun s j =>
    let c := 128 * e + j
    let x := dmaCh s c
    let s := dmaFail c x.fire 0x0A (dmaDropPend c 0x0A s)
    setDma s c DmaCh.init) s
  { s with dmaEng := kset DmaEng.init s.dmaEng e DmaEng.init,
           regs := (List.range 4).foldl (fun m n => dropRegs (0x200 + 4 * e + n) (fun _ => false) m) s.regs }

/-- An engine awaits responses or runs a channel. -/
def dmaBusy (s : State) (e : Nat) : Bool := (s.dma.any fun y => y.1 / 128 == e && (y.2.st == 1 || y.2.st == 2))

/-- KICK (R600). -/
def execKick (a : Acc) (c : Fin 1024) (s : State) : Host.Outcome State Fault Refusal :=
  .next (onPage a (chPage c) (c % 32 * 0x80 + 4) (fun s => (dmaTrigger c none s).1) s)

/-- ABORT (R620). -/
def execAbort (a : Acc) (c : Fin 1024) (s : State) : Host.Outcome State Fault Refusal :=
  .next (onPage a (chPage c) (c % 32 * 0x80 + 4) (dmaAbort c) s)

/-- CLEAR (R619). -/
def execClear (a : Acc) (c : Fin 1024) (s : State) : Host.Outcome State Fault Refusal :=
  .next (onPage a (chPage c) (c % 32 * 0x80 + 4) (dmaClear c) s)

/-- DMA_FIRE (R603). -/
def execDmaFire (f : FireRec) (s : State) : Host.Outcome State Fault Refusal :=
  let e := f.member.toNat % 8
  .next (fireRow (0x0D8 + e) 0x04 f (dmaFireSt e) s)

/-- HALT_COMPLETE (R617). -/
def execHaltComplete (c : Fin 1024) (s : State) : Host.Outcome State Fault Refusal :=
  .next (whileRuns (0x0D8 + c / 128) (haltCompleteSt c) s)

end Sys2Proof.Machine
end

