-- ==== Sys2Proof/Machine/Lanes.lean ====
section
/-! DEFINITION. The serial lanes and the Cuwick link (R663–R702). -/

namespace Sys2Proof.Machine

/-- A lane beside its registers. -/
def laneOf (s : State) (p l : Nat) : LaneSt := kget LaneSt.init s.lanes (p * 4 + l)

/-- Stores it. -/
def setLane (s : State) (p l : Nat) (x : LaneSt) : State := { s with lanes := kset LaneSt.init s.lanes (p * 4 + l) x }

/-- A register of a lane block (R699). -/
def lnReg (s : State) (p l off : Nat) : Word := getReg s p (0x200 + 0x40 * l + off)

/-- Stores it. -/
def setLn (s : State) (p l off : Nat) (v : Word) : State := setReg s p (0x200 + 0x40 * l + off) v

/-- Whether the device has the lane (R663). -/
def isLane (p l : Nat) : Bool :=
  match pageKind p with
  | some .xlane | some .nlane | some .plane | some .klane => true
  | some .xspare => decide (l = 0)
  | _ => false

/-- EVT_RAW bit l follows the lane's LN_EVT on network, PCIe and Cuwick pages (R701). -/
def laneLevels (p : Nat) (s : State) : State :=
  match pageKind p with
  | some .nlane | some .plane | some .klane =>
    (List.range 4).foldl (fun s l => modReg s p 0x14 fun w => putBit w l (lnReg s p l 0x1C ≠ 0)) s
  | _ => s

/-- Sets LN_EVT bit `b`. -/
def lnEvt (s : State) (p l b : Nat) : State := laneLevels p (setLn s p l 0x1C (putBit (lnReg s p l 0x1C) b true))

/-- LN_STS with bits [hi:lo] replaced. -/
def lnSts (s : State) (p l hi lo v : Nat) : State := setLn s p l 0x04 (putBits (lnReg s p l 0x04) hi lo v)

/-- The lane's power state (R682). -/
def lnPower (s : State) (p l : Nat) : Nat := bits (lnReg s p l 0x04) 31 30

/-- The page of quad `q`. -/
def quadPage (q : Nat) : Nat := 0x100 + q

/-- A quad's link. -/
def linkOf (s : State) (q : Nat) : LinkSt := kget LinkSt.init s.links q

/-- Stores a quad's link. -/
def setLink (s : State) (q : Nat) (x : LinkSt) : State := { s with links := kset LinkSt.init s.links q x }

/-- A parameter set (R161): whether it is 204C, L, M, F, S, N, N′, CS, HD, and the streams of a quad. -/
structure Pset where
  c : Bool
  l : Nat
  m : Nat
  f : Nat
  s : Nat
  streams : Nat
  n : Nat
  np : Nat
  cs : Nat
  hd : Bool

/-- The parameter sets (R161), with N = N′ = 16, CS = 0 and HD = 0. -/
def pset (n : Nat) : Option Pset :=
  match n with
  | 0x0 => some ⟨true, 4, 16, 8, 1, 8, 16, 16, 0, false⟩
  | 0x1 => some ⟨true, 4, 16, 16, 2, 8, 16, 16, 0, false⟩
  | 0x2 => some ⟨true, 4, 8, 4, 1, 4, 16, 16, 0, false⟩
  | 0x3 => some ⟨true, 2, 8, 8, 1, 4, 16, 16, 0, false⟩
  | 0x4 => some ⟨true, 1, 4, 8, 1, 2, 16, 16, 0, false⟩
  | 0x5 => some ⟨true, 4, 4, 2, 1, 2, 16, 16, 0, false⟩
  | 0x6 => some ⟨true, 1, 2, 4, 1, 1, 16, 16, 0, false⟩
  | 0x8 => some ⟨false, 4, 16, 8, 1, 8, 16, 16, 0, false⟩
  | 0x9 => some ⟨false, 4, 8, 4, 1, 4, 16, 16, 0, false⟩
  | 0xA => some ⟨false, 2, 4, 4, 1, 2, 16, 16, 0, false⟩
  | 0xB => some ⟨false, 4, 4, 2, 1, 2, 16, 16, 0, false⟩
  | _ => none

/-- The parameter set of a quad's LINK_CFG. -/
def quadPset (s : State) (q : Nat) : Option Pset := pset (bits (getReg s (quadPage q) 0x100) 3 0)

/-- The lanes of a quad's link. -/
def quadLanes (s : State) (q : Nat) : Nat := match quadPset s q with | some p => p.l | none => 0

/-- A spare lane. -/
def subOf (s : State) (j : Nat) : SubSt := kget SubSt.init s.subs j

/-- Stores a spare lane. -/
def setSub (s : State) (j : Nat) (x : SubSt) : State := { s with subs := kset SubSt.init s.subs j x }

/-- The lane page and lane of the target XL(32j + n) (R157, R225). -/
def subTarget (s : State) (j : Nat) : Nat × Nat :=
  let n := bits (getReg s (0x120 + j) 0x100) 4 0
  (0x100 + (32 * j + n) / 4, n % 4)

/-- The device keeps a converter lane in DEEP (R685): an unused lane of a link, the target of a lane that a spare serves, a
spare macro that is free. [DEDUCED, log 97] -/
def keptDeep (s : State) (p l : Nat) : Bool :=
  match pageKind p with
  | some .xlane =>
    let j := (p - 0x100) / 8
    (decide ((linkOf s (p - 0x100)).st ≠ 0) && decide (quadLanes s (p - 0x100) ≤ l)) ||
      (decide ((subOf s j).st = 3) && decide (subTarget s j = (p, l)))
  | some .xspare => decide ((subOf s (p - 0x120)).st = 0 ∨ (subOf s (p - 0x120)).st = 4)
  | _ => false

/-- PORT_CFG.PORT_MODE (R703). -/
def portMode (s : State) : Nat := bits (getReg s 0x008 0x100) 0 0

/-- The link that owns a lane is disabled (R700). -/
def linkDisabled (s : State) (p l : Nat) : Bool :=
  match pageKind p with
  | some .klane => !enabled s 0x00A
  | some .nlane => !bit (getReg s 0x008 0x104) (if portMode s = 0 then p - 0x128 else (p - 0x128) * 4 + l)
  | _ => !enabled s p

/-- R666. -/
def tapsOk (pre post : Nat) : Bool := decide (pre ≤ 15 ∧ post ≤ 24 ∧ pre + post ≤ 25)

/-- TX_TAPS with C_MAIN as R666 gives it. -/
def tapsWord (pre post : Nat) : Word := w32 ((63 - pre - post) * 2 ^ 24 + post * 2 ^ 8 + pre)

/-- C_PRE and C_POST of a lane. -/
def tapsOf (s : State) (p l : Nat) : Nat × Nat := (bits (lnReg s p l 0x08) 3 0, bits (lnReg s p l 0x08) 12 8)

/-- R667: a write of TX_TAPS. -/
def txTapsSt (p l : Nat) (v : Word) (s : State) : State :=
  if bit (lnReg s p l 0x04) 20 then s
  else if tapsOk (bits v 3 0) (bits v 12 8) then setLn s p l 0x08 (tapsWord (bits v 3 0) (bits v 12 8))
  else lnEvt s p l 6

/-- R675: a lane starts from its preset. -/
def laneStart (p l : Nat) (s : State) : State :=
  let w := getReg s p (0x300 + 4 * bits (lnReg s p l 0) 18 16)
  let s := setLn s p l 0x08 (tapsWord (bits w 3 0) (bits w 12 8))
  let s := setLn s p l 0x0C (w32 (bits w 27 24 * 2 ^ 24))
  let s := lnSts s p l 19 19 0
  setLane s p l { laneOf s p l with hist := [⟨BitVec.ofNat 4 (bits w 27 24), 0, ⟨#[0, 0, 0, 0, 0], rfl⟩⟩] }

/-- R674: the receiver has settled over the settings of five window ends, oldest first. [DEDUCED, log 97] -/
def settled (h : List RxEq) : Bool :=
  match h with
  | [] => false
  | x :: _ => decide (h.length = 5) && (h.all fun y => decide (y.ctle = x.ctle)) &&
    (List.range 5).all fun i =>
      let ds := h.map fun y => signed 8 ((y.dfe.toList[i]?).getD 0).toNat
      decide (ds.foldl max (-128) - ds.foldl min 127 ≤ 1)

/-- The lane asks the far transmitter to move a tap (R677): tap 0 is post. -/
def askTap (x : LaneSt) (tap code : Nat) : LaneSt :=
  if tap = 0 then { x with reqPost := code, reqPre := 0 } else { x with reqPre := code, reqPost := 0 }

/-- The step that follows the end of a tap's direction (R679). -/
def nextStep (x : LaneSt) (t : TapSearch) : LaneSt :=
  if t.dir = 0 ∧ !t.tapBetter then { askTap x t.tap 2 with search := some { t with ph := 1, dir := 1 } }
  else if t.tap = 0 then { askTap x 1 1 with search := some { t with ph := 1, tap := 1, dir := 0, tapBetter := false } }
  else if t.passBetter then
    { askTap x 0 1 with search := some { t with ph := 1, tap := 0, dir := 0, tapBetter := false, passBetter := false } }
  else { x with search := some { t with ph := 4 }, reqPre := 0, reqPost := 0 }

/-- A full window has been measured during a search (R679). -/
def searchFom (x : LaneSt) (f : Nat) : LaneSt :=
  match x.search with
  | none => x
  | some t =>
    match t.ph with
    | 0 => { askTap x 0 1 with search := some { t with ph := 1, tap := 0, dir := 0, best := f } }
    | 2 =>
      if t.best < f then
        { askTap x t.tap (t.dir + 1) with search := some { t with ph := 1, best := f, passBetter := true, tapBetter := true } }
      else { askTap x t.tap (2 - t.dir) with search := some { t with ph := 3 } }
    | _ => x

/-- The far transmitter's answer for the tap asked for reaches the search (R679): 1 updated, 2 and 3 at a limit. -/
def searchAnswer (x : LaneSt) (stsPre stsPost : Nat) : LaneSt :=
  match x.search with
  | none => x
  | some t =>
    let a := if t.tap = 0 then stsPost else stsPre
    if a = 0 then x
    else match t.ph with
      | 1 => if a = 1 then { x with search := some { t with ph := 2 }, reqPre := 0, reqPost := 0 } else nextStep x t
      | 3 => nextStep x t
      | _ => x

/-- CRC-16 with polynomial 0x8005 over the bits of `w` from bit `n` − 1 down, most significant bit first, from 0.
[PRESUMED, log 96] -/
def crc16 (w : BitVec 64) (lo : Nat) : Nat → BitVec 16 → BitVec 16
  | 0, r => r
  | n + 1, r =>
    let top := r.getLsbD 15 != w.getLsbD (lo + n)
    crc16 w lo n (if top then (r <<< 1) ^^^ 0x8005 else r <<< 1)

/-- The control word that a lane sends (R677). -/
def controlWordOut (s : State) (p l : Nat) : BitVec 64 :=
  let x := laneOf s p l
  let done := match x.search with | some t => decide (t.ph = 4) | none => true
  let w : BitVec 64 := BitVec.ofNat 64 (0xB5 * 2 ^ 56 + x.reqPre * 2 ^ 54 + x.reqPost * 2 ^ 52 + x.stsPre * 2 ^ 46 +
    x.stsPost * 2 ^ 44 + (if done then 2 ^ 40 else 0) + bits (lnReg s p l 0x04) 7 0 * 2 ^ 32)
  w ||| BitVec.ofNat 64 (crc16 w 16 48 0).toNat

/-- A PCIe transmitter preset as C_PRE and C_POST at FS = 63 (R681); P10 has the largest C_POST that R666 allows. None: a
reserved preset. [PRESUMED, log 98] -/
def pciePreset (n : Nat) : Option (Nat × Nat) :=
  [(0, 16), (0, 11), (0, 13), (0, 8), (0, 0), (6, 0), (8, 0), (6, 13), (8, 8), (10, 0), (0, 24)][n]?

/-- The host's coefficients that the search asks for, none where it asks for nothing. -/
def eqWant (x : LaneSt) : Option (Nat × Nat) :=
  let e := x.eq
  match x.reqPre, x.reqPost with
  | 0, 0 => none
  | 1, 0 => some (e.pre + 1, e.post)
  | _, 0 => some (e.pre - 1, e.post)
  | _, 1 => some (e.pre, e.post + 1)
  | _, _ => some (e.pre, e.post - 1)

/-- The search asks for a coefficient below 0: the lane answers it itself. [DESIGN CHOICE, log 98] -/
def eqFloor : Nat → LaneSt → LaneSt
  | 0, x => x
  | n + 1, x =>
    if x.reqPre = 2 ∧ x.eq.pre = 0 then eqFloor n (searchAnswer x 2 0)
    else if x.reqPre = 0 ∧ x.reqPost = 2 ∧ x.eq.post = 0 then eqFloor n (searchAnswer x 0 2)
    else x

/-- The ordered set that a PCIe lane sends in phase 3: the host's coefficients as they are, or as it asks for them. -/
def eqAsk (x : LaneSt) : LaneSt :=
  let x := eqFloor 8 x
  let (a, b) := (eqWant x).getD (x.eq.pre, x.eq.post)
  { x with eq := { x.eq with out := some ⟨3, false, 0, BitVec.ofNat 6 a, BitVec.ofNat 6 (x.eq.fs - a - b), BitVec.ofNat 6 b, false⟩ } }

/-- What a lane under training sends next: its control word (R677), or its ordered set (R681). -/
def laneSend (p l : Nat) (s : State) : State :=
  if pageKind p = some .plane then setLane s p l (eqAsk (laneOf s p l))
  else setLane s p l { laneOf s p l with cw := controlWordOut s p l }

/-- R699, R700: the PRBS checker of a lane whose link is disabled has counted bit errors; PCIe lanes have none. -/
def prbsSt (p l errs : Nat) (s : State) : State :=
  if !bit (lnReg s p l 0x14) 30 || !linkDisabled s p l || pageKind p == some .plane || errs == 0 then s
  else lnEvt (setLn s p l 0x18 (w32 (min (2 ^ 32 - 1) ((lnReg s p l 0x18).toNat + errs)))) p l 5

/-- R672–R674: a measurement window ends. -/
def fomWindowSt (p l h v : Nat) (eq : RxEq) (m : LaneMeas) (s : State) : State :=
  if !isLane p l ∨ lnPower s p l ≠ 0 then s
  else
    let s := prbsSt p l m.errs (lnSts s p l 17 17 (if m.sig then 1 else 0))
    let locked := bit (lnReg s p l 0x04) 18
    let fom := if locked then min 255 (256 * h * v / 2 ^ 32) else 0
    let s := lnSts s p l 7 0 fom
    let x := laneOf s p l
    let frozen := bit (lnReg s p l 0) 4
    let s := if !locked then s
      else
        let eq := if frozen then x.hist.getLast?.getD eq else eq
        let d (i : Nat) : Nat := ((eq.dfe.toList[i]?).getD 0).toNat
        let s := if frozen then s else setLn s p l 0x0C (w32 (eq.ctle.toNat * 2 ^ 24 + eq.agc.toNat * 2 ^ 16 + d 1 * 2 ^ 8 + d 0))
        let hist := (x.hist ++ [eq]).drop (x.hist.length - 4)
        let s := setLane s p l { x with hist := hist }
        if settled hist then lnSts s p l 19 19 1 else s
    let x := laneOf s p l
    let s :=
      if fom < bits (lnReg s p l 0x10) 15 8 then
        let n := min 3 (x.low + 1)
        let s := setLane s p l { x with low := n, lowSeen := x.lowSeen || decide (n = 3) }
        if n = 3 ∧ !x.lowSeen then lnEvt s p l 0 else s
      else setLane s p l { x with low := 0, lowSeen := false }
    if bit (lnReg s p l 0x04) 20 then laneSend p l (setLane s p l (searchFom (laneOf s p l) fom)) else s

/-- R670: the CDR loses lock. -/
def cdrUnlockSt (p l : Nat) (s : State) : State :=
  if !isLane p l ∨ !bit (lnReg s p l 0x04) 18 then s
  else
    let s := lnSts (lnSts s p l 18 18 0) p l 7 0 0
    let s := match pageKind p with
      | some .nlane | some .plane | some .klane => incCnt s p l
      | _ => s
    lnEvt s p l 1

/-- R670: the CDR has relocked. -/
def cdrLockSt (p l : Nat) (s : State) : State :=
  if !isLane p l ∨ lnPower s p l ≠ 0 then s else lnSts s p l 18 18 1

/-- A transition begins towards state `t`, or is held behind the one in progress (R683). -/
def askPower (p l t : Nat) (s : State) : State :=
  let w := lnReg s p l 0x04
  if bits w 31 30 ≠ bits w 27 26 then lnSts (lnSts s p l 25 24 t) p l 23 23 1
  else lnSts s p l 27 26 t

/-- A write of LN_CTRL (R683, R685). On PCIe lanes the endpoint alone drives the state. -/
def pstateReqSt (a : Acc) (p l : Nat) (v : Word) (s : State) : State :=
  if !isLane p l ∨ (pageKind p = some .plane ∧ a.who ≠ .page 7) then s
  else
    let v := v &&& 0xF0070310
    let old := bits (lnReg s p l 0) 29 28
    let s := setLn s p l 0 v
    let w := lnReg s p l 0x04
    let t := if keptDeep s p l then 2 else bits v 29 28
    if bits v 29 28 = old ∧ bits w 31 30 = t then s else askPower p l t s

/-- What a lane loses in OFF (R682). -/
def laneLose (p l : Nat) (s : State) : State :=
  let s := setLn (setLn s p l 0x08 0x3F000000) p l 0x0C 0
  let s := lnSts (lnSts s p l 20 17 0) p l 7 0 0
  setLane s p l LaneSt.init

/-- A lane reaches the state that its transition leads to (R682, R683). -/
def pstateDoneSt (p l : Nat) (s : State) : State :=
  let w := lnReg s p l 0x04
  let cur := bits w 31 30
  let t := bits w 27 26
  if !isLane p l ∨ cur = t then s
  else
    let s := lnSts s p l 31 30 t
    let s := if t = 3 then laneLose p l s else if cur = 3 then laneStart p l s else s
    let s := lnEvt s p l 2
    if bit w 23 then lnSts (lnSts s p l 23 23 0) p l 27 26 (bits w 25 24) else s

/-- R684: the lane's power domain reaches a state: 0 OFF, 1 RETAIN, 2 ON. -/
def laneDomain (p l st : Nat) (s : State) : State :=
  match st with
  | 0 => laneLose p l (lnSts (lnSts (lnSts s p l 31 30 3) p l 27 26 3) p l 23 23 0)
  | 1 => lnSts (lnSts (lnSts s p l 31 30 2) p l 27 26 2) p l 23 23 0
  | _ =>
    let t := if keptDeep s p l then 2 else bits (lnReg s p l 0) 29 28
    if lnPower s p l = t then s else askPower p l t s

/-! ### Training (R677–R680) -/

/-- Bits [hi:lo] of a control word. -/
def cwBits (w : BitVec 64) (hi lo : Nat) : Nat := w.toNat / 2 ^ lo % 2 ^ (hi - lo + 1)

/-- A transmitter applies a request to one tap (R678): the new taps and the answer. `t` is 0 for post; `ps` the preset's
taps. [DEDUCED, log 97] -/
def applyTap (t code : Nat) (ps cur : Nat × Nat) : (Nat × Nat) × Nat :=
  let v := if t = 0 then cur.2 else cur.1
  let put (x : Nat) : Nat × Nat := if t = 0 then (cur.1, x) else (x, cur.2)
  match code with
  | 0 => (cur, 0)
  | 1 => if tapsOk (put (v + 1)).1 (put (v + 1)).2 then (put (v + 1), 1) else (cur, 3)
  | 2 => if v = 0 then (cur, 2) else (put (v - 1), 1)
  | _ =>
    let n := put (if t = 0 then ps.2 else ps.1)
    if tapsOk n.1 n.2 then (n, 1) else (cur, 3)

/-- R678, R679: a control word is received by lane `l` of page `p`. [DEDUCED, log 97] -/
def controlWordSt (p l : Nat) (w : BitVec 64) (s : State) : State :=
  if pageKind p ≠ some .klane ∨ !bit (lnReg s p l 0x04) 20 ∨ cwBits w 63 56 ≠ 0xB5 ∨ (crc16 w 16 48 0).toNat ≠ cwBits w 15 0 then s
  else
    let q := getReg s p (0x300 + 4 * cwBits w 50 48)
    let ps := (bits q 3 0, bits q 12 8)
    let (c1, a1) := applyTap 1 (cwBits w 55 54) ps (tapsOf s p l)
    let (c2, a0) := applyTap 0 (cwBits w 53 52) ps c1
    let s := setLn s p l 0x08 (tapsWord c2.1 c2.2)
    let x := { laneOf s p l with stsPre := a1, stsPost := a0, peerDone := w.getLsbD 40 }
    laneSend p l (setLane s p l (searchAnswer x (cwBits w 47 46) (cwBits w 45 44)))

/-- R681: a PCIe lane receives an ordered set of equalisation. Phase 0 gives it its preset; in phase 1 the ends report FS and
LF; in phase 2 the host's request is applied or rejected under R666; in phase 3 the lane searches on the host's
transmitter. [PRESUMED, log 98] -/
def eqTsSt (p l : Nat) (m : EqTs) (s : State) : State :=
  if pageKind p ≠ some .plane ∨ lnPower s p l ≠ 0 then s
  else
    let x := laneOf s p l
    let send (e : EqSt) (s : State) : State := setLane s p l { laneOf s p l with eq := e }
    let own : Nat × Nat := tapsOf s p l
    let c6 (n : Nat) : BitVec 6 := BitVec.ofNat 6 n
    match m.ec.val with
    | 0 =>
      match pciePreset m.preset.toNat with
      | some (a, b) =>
        send { x.eq with phase := 0, out := some ⟨0, true, m.preset, c6 a, c6 (63 - a - b), c6 b, false⟩ }
          (lnSts (setLn s p l 0x08 (tapsWord a b)) p l 20 20 0)
      | none => s
    | 1 =>
      send { x.eq with phase := 1, fs := m.pre.toNat, lf := m.cursor.toNat, out := some ⟨1, false, 0, 63, 13, c6 own.2, false⟩ } s
    | 2 =>
      let want := if m.usePreset then pciePreset m.preset.toNat
        else if m.pre.toNat + m.cursor.toNat + m.post.toNat = 63 ∧ tapsOk m.pre.toNat m.post.toNat then
          some (m.pre.toNat, m.post.toNat)
        else none
      match want with
      | some (a, b) =>
        send { x.eq with phase := 2, out := some ⟨2, m.usePreset, m.preset, c6 a, c6 (63 - a - b), c6 b, false⟩ }
          (setLn s p l 0x08 (tapsWord a b))
      | none => send { x.eq with phase := 2, out := some { m with reject := true } } s
    | _ =>
      if x.eq.phase ≠ 3 ∨ x.search.isNone then
        if x.eq.phase = 3 then s
        else
          laneSend p l (setLane (lnSts s p l 20 20 1) p l { x with
            search := some ⟨0, 0, 0, 0, false, false⟩, passed := none, reqPre := 0, reqPost := 0, began := s.time.free,
            eq := { x.eq with phase := 3, pre := m.pre.toNat, post := m.post.toNat } })
      else
        let got := (m.pre.toNat, m.post.toNat)
        let a := if m.reject then 3 else if eqWant x = some got then 1 else 0
        let y := if a = 1 then { x with eq := { x.eq with pre := got.1, post := got.2 } } else x
        laneSend p l (setLane s p l (searchAnswer y (if x.reqPre = 0 then 0 else a) (if x.reqPost = 0 then 0 else a)))

/-- R679, R680: a search ends, by itself or because TRAIN_TIMEOUT has passed. -/
def trainDoneSt (p l : Nat) (s : State) : State :=
  let x := laneOf s p l
  let ms := max 1 (bits (getReg s 0x00A 0x118) 15 0)
  match x.search with
  | none => s
  | some t =>
    if t.ph ≠ 4 ∧ !usSince s x.began (1000 * ms) then s
    else
      let ok := decide (bits (lnReg s p l 0x10) 15 8 ≤ t.best)
      let x := if t.ph = 2 then askTap x t.tap (2 - t.dir) else if t.ph = 3 then x else { x with reqPre := 0, reqPost := 0 }
      let s := laneSend p l (setLane s p l { x with search := none, passed := some ok })
      lnEvt (lnSts s p l 20 20 0) p l (if ok then 3 else 4)

/-! ### The Cuwick link -/

/-- The page of a Cuwick lane and its number there. -/
def klane (j : Nat) : Nat × Nat := (0x134 + j / 4, j % 4)

/-- CUW_CFG.LANE_EN. -/
def cuwLaneEn (s : State) (j : Nat) : Bool := bit (getReg s 0x00A 0x100) j

/-- Bring-up step 1: the handshake begins, and nothing of the link's traffic is kept. -/
def cuwHandshake (s : State) : State :=
  let s := { s with cuw := { CuwSt.init with st := 1, lastTry := s.time.free } }
  (List.range 16).foldl (fun s j =>
    let (p, l) := klane j
    setLane (lnSts s p l 20 20 0) p l { laneOf s p l with search := none, passed := none }) s

/-- R690, R697, R698: the link retrains. -/
def cuwRetrain (s : State) : State :=
  if enabled s 0x00A then cuwHandshake (incCnt s 0x00A 6) else s

/-- The link goes DOWN with a capture. -/
def cuwDown (s : State) (cls code : Nat) : State :=
  let s := { s with cuw := { s.cuw with st := 0, txLanes := 0, rxLanes := 0 } }
  ownErr (setEvt s 0x00A 1) 0x00A cls code none

/-- Bring-up step 2: the handshake ends. [DEDUCED, log 99] -/
def handshakeSt (peer : CuwPeer) (s : State) : State :=
  if s.cuw.st ≠ 1 then s
  else match peer.rate with
  | none => cuwDown s 6 0x05
  | some r =>
    let mine := match bits (getReg s 0x00A 0x100) 25 24 with | 3 => 1 | n => n
    let rate := max mine r.val
    let rate := if peer.part = 0x2128 then max 1 rate else rate
    let s := { s with cuw := { s.cuw with st := 2, rate := rate, peer := some peer } }
    (List.range 16).foldl (fun s j =>
      if !cuwLaneEn s j then s
      else
        let (p, l) := klane j
        let s := lnSts (laneStart p l s) p l 20 20 1
        laneSend p l (setLane s p l { laneOf s p l with
          search := some ⟨0, 0, 0, 0, false, false⟩, passed := none, reqPre := 0, reqPost := 0, stsPre := 0, stsPost := 0,
          peerDone := false, began := s.time.free })) s

/-- The widest width that lanes `ok` allow (R690), as the lanes it uses. -/
def widest (ok : BitVec 16) (narrow : Bool) : BitVec 16 :=
  let has (m : BitVec 16) : Bool := decide (ok &&& m = m)
  if has 0xFFFF then 0xFFFF
  else if !narrow then 0
  else if has 0x00FF then 0x00FF
  else if has 0xFF00 then 0xFF00
  else if has 0x000F then 0x000F
  else if has 0x00F0 then 0x00F0
  else if has 0x0F00 then 0x0F00
  else if has 0xF000 then 0xF000
  else 0

/-- A width's code in CUW_STS (R702). [DEDUCED, log 99] -/
def widthCode (m : BitVec 16) : Nat :=
  if m = 0 then 0 else if m = 0xFFFF then 3 else if m = 0x00FF ∨ m = 0xFF00 then 2 else 1

/-- R690: the lanes that passed are deskewed, and each direction takes its width. -/
def linkUpSt (txPass : BitVec 16) (s : State) : State :=
  let still := (List.range 16).any fun j => let (p, l) := klane j; bit (lnReg s p l 0x04) 20
  if s.cuw.st ≠ 2 ∨ still then s
  else
    let rx : BitVec 16 := BitVec.ofNat 16 (((List.range 16).map fun j =>
      let (p, l) := klane j
      if cuwLaneEn s j ∧ (laneOf s p l).passed = some true then 2 ^ j else 0).sum)
    let en : BitVec 16 := BitVec.ofNat 16 (bits (getReg s 0x00A 0x100) 15 0)
    let narrow := bit (getReg s 0x00A 0x100) 20
    let r := widest rx narrow
    let t := widest (txPass &&& en) narrow
    if r = 0 ∨ t = 0 then cuwDown s 4 0x03
    else
      let s := { s with cuw := { s.cuw with st := 3, txLanes := t, rxLanes := r } }
      let s := if r ≠ 0xFFFF ∨ t ≠ 0xFFFF then setEvt s 0x00A 3 else s
      setEvt s 0x00A 0

/-- The frames of credit that the sender has for TC `t` + 1 (R696). -/
def cuwCredit (c : CuwSt) (t : Nat) : Nat :=
  match c.peer with
  | none => 0
  | some q => ((q.bufs.toList[t]?).getD 0).toNat - ((c.sent[t]?).getD 0 + 256 - (c.freed[t]?).getD 0) % 256

/-- The first flit in the queue whose TC has credit. -/
def cuwNext (c : CuwSt) : Option CuwFlit := c.waiting.find? fun f => 0 < cuwCredit c (f.tc - 1)

/-- Field [hi:lo] of a number, as bytes of a frame. -/
def frameTail (c : CuwSt) (typ seq : Nat) : List Byte :=
  leBytes 2 (typ * 2 ^ 12 + seq) ++ leBytes 2 (2 ^ 15 + (if c.nak then 2 ^ 14 else 0) + c.rxLast) ++
    c.took.map (BitVec.ofNat 8) ++ List.replicate 4 0

/-- The 144 bytes of a frame (R692): the flit, or zeros in an IDLE frame, and what the receiver of this end acknowledges (R696). -/
def frameBytes (c : CuwSt) (typ seq : Nat) (flit : List Byte) : List Byte :=
  let b := flit ++ List.replicate (128 - flit.length) 0 ++ frameTail c typ seq
  b ++ leBytes 4 ((csumRun 2 (0xFFFFFFFF, false) b).1 ^^^ 0xFFFFFFFF).toNat

/-- A frame goes out; a NAK that it carries is sent (R695). -/
def frameOut (typ seq : Nat) (flit : List Byte) (s : State) : State :=
  { s with cuw := { s.cuw with out := s.cuw.out ++ [frameBytes s.cuw typ seq flit], nak := false } }

/-- A flit on the wire: header and payload. -/
def flitBytes (f : CuwFlit) : List Byte := leBytes 16 f.hdr.toNat ++ f.data

/-- The sender sends what credits and the replay buffer allow (R695, R696). -/
def cuwPump : Nat → State → State
  | 0, s => s
  | k + 1, s =>
    let c := s.cuw
    if c.st ≠ 3 ∨ 256 ≤ c.replay.length then s
    else match cuwNext c with
      | none => s
      | some f =>
        let c := { c with waiting := dropFirst (fun g => decide (g = f)) c.waiting,
                          replay := c.replay ++ [{ f with seq := c.next }], next := (c.next + 1) % 4096,
                          sent := setAt c.sent (f.tc - 1) (((c.sent[f.tc - 1]?).getD 0 + 1) % 256) }
        cuwPump k (frameOut 1 s.cuw.next (flitBytes f) (incCnt { s with cuw := c } 0x00A 0))

/-- A flit with DST_DEV = 1 reaches LP47: it crosses, or is discarded while the link is not UP (R698). -/
def cuwSend (f : CuwFlit) (s : State) : State :=
  if s.cuw.st ≠ 3 ∧ s.cuw.st ≠ 4 then incCnt s 0x00A 7
  else if s.cuw.st = 4 then { s with cuw := { s.cuw with waiting := s.cuw.waiting ++ [f] } }
  else cuwPump (s.cuw.waiting.length + 1) { s with cuw := { s.cuw with waiting := s.cuw.waiting ++ [f] } }

/-- A flit header (R558) on the wire to the peer, DST_DEV and SRC_DEV swapped (R694). -/
def flitHdr (dst src tc opc tag sid len resp seq addr : Nat) : BitVec 128 :=
  BitVec.ofNat 128 (dst * 2 ^ 122 + src * 2 ^ 115 + 2 ^ 114 + tc * 2 ^ 110 + opc * 2 ^ 106 + tag * 2 ^ 96 + sid * 2 ^ 88 +
    len * 2 ^ 80 + resp * 2 ^ 76 + seq * 2 ^ 72 + addr)

/-- The RESP code (R558). -/
def respCode : Resp → Nat
  | .ok => 0
  | .decode => 1
  | .poison => 2
  | .timeout => 3
  | .target => 4

/-- The response of a request that the peer made goes back to it. -/
def cuwAnswer (q : Req) (r : Resp) (d : List Byte) (s : State) : State :=
  let src := q.tag / 2 ^ 18
  let tag := q.tag / 2 ^ 8 % 1024
  let sid := q.tag % 256
  if q.isWrite then cuwSend ⟨0, 3, flitHdr src q.dstLp 3 4 tag sid (q.len - 1) (respCode r) 0 q.addr, [], 0⟩ s
  else (List.range ((q.len + 63) / 64)).foldl (fun s i =>
    let n := min 64 (q.len - 64 * i)
    cuwSend ⟨0, 3, flitHdr src q.dstLp 3 3 tag sid (n - 1) (respCode r) i q.addr, (d.drop (64 * i)).take n, 0⟩ s) s

/-- Bits of a received flit, given as bytes (R692). [DESIGN CHOICE, log 88] -/
def flitBits (b : List Byte) (hi lo : Nat) : Nat := ofLe b / 2 ^ lo % 2 ^ (hi - lo + 1)

/-- The peer's flit is injected into this device's fabric with the current epoch (R694); the first router discards one
with a reserved TC or OPC (R573). [DESIGN CHOICE, log 88; DEDUCED, log 99] -/
def cuwDeliver (b : List Byte) (s : State) : State :=
  let hdr := b.take 16
  let pay := (b.drop 16).take 112
  let f (hi lo : Nat) : Nat := flitBits hdr hi lo
  let addr := f 47 0
  let note := f 120 115 * 2 ^ 18 + f 105 96 * 2 ^ 8 + f 95 88
  if 8 ≤ f 109 106 ∨ 5 ≤ f 112 110 then ownErr (incCnt s 0x0FD 5) 0x0FD 6 0x07 none
  else match f 109 106 with
  | 1 => (issueReq s (.page 0x00A) false addr (f 87 80 + 1) [] 1 note).2
  | 2 =>
    let n := f 87 80 % 64 + 1
    let (id, s) := issueReq s (.page 0x00A) true addr n (pay.take n) 1 note
    { s with fab := { s.fab with reqs := s.fab.reqs.map fun r =>
        if r.id = id then { r with be := BitVec.ofNat 64 (flitBits (pay.drop 64) 63 0) } else r } }
  | 5 =>
    (List.range (min 7 (f 87 80))).foldl (fun s i =>
      let w (j : Nat) : Word := wordAt (pay.drop (16 * i)) j
      { s with fab := { s.fab with tokPkts := s.fab.tokPkts ++
          [⟨47, f 112 110, s.fab.cur, [(tokenOfWords (w 0) (w 1) (w 2) (w 3), if f 112 110 = 1 then 0 else 1)], none⟩] } }) s
  | 6 =>
    { s with fab := { s.fab with firePkts := s.fab.firePkts ++
        [⟨f 127 122, decide (f 112 110 = 1), s.fab.cur, fireOfWords ((List.range 16).map (wordAt pay)), none⟩] } }
  | _ => s

/-- Which frames an ACK_SEQ covers: `a` itself, and what came up to 2,048 numbers before. -/
def seqCovers (a n : Nat) : Bool := decide ((a + 4096 - n) % 4096 < 2048)

/-- ACK, NAK and credits of a good frame (R693, R695, R696). -/
def cuwAck (w1 : Nat) (cr : List Nat) (s : State) : State :=
  let ack := w1 % 4096
  let c := s.cuw
  let c := { c with freed := cr }
  let c := if w1 / 2 ^ 15 % 2 = 1 then { c with replay := c.replay.filter fun f => !seqCovers ack f.seq } else c
  let s := { s with cuw := c }
  let s := if w1 / 2 ^ 14 % 2 = 1 then
      let s := addCnt s 0x00A 2 c.replay.length
      c.replay.foldl (fun s f => frameOut 1 f.seq (flitBytes f) s)
        { s with cuw := { c with replay := c.replay.map fun f => { f with reps := f.reps + 1 } } }
    else s
  cuwPump (s.cuw.waiting.length + 1) s

/-- The link has flits to carry, or requests of its peer to answer. -/
def cuwWork (s : State) : Bool :=
  !s.cuw.waiting.isEmpty || !s.cuw.replay.isEmpty || s.fab.reqs.any fun q => decide (q.who = .page 0x00A)

/-- A disabled link that has nothing left to carry is DOWN (R55). [DEDUCED, log 99] -/
def cuwSettle (s : State) : State := if !enabled s 0x00A && !cuwWork s then { s with cuw := CuwSt.init } else s

/-- What the link sends in answer to a frame: where it has no FLIT frame to send, the model shows one of the IDLE frames that
it sends all the time. [DESIGN CHOICE, log 99] -/
def cuwReply (before : Nat) (s : State) : State :=
  cuwSettle (if s.cuw.st = 3 ∧ s.cuw.out.length = before then frameOut 0 0 [] s else s)

/-- R693–R696: what a received frame does. A disabled link takes no flit (R55). -/
def cuwTake (b : List Byte) (s : State) : State :=
  if s.cuw.st ≠ 3 then s
  else
    let crc := (csumRun 2 (0xFFFFFFFF, false) (b.take 140)).1 ^^^ 0xFFFFFFFF
    let typ := ofLe ((b.drop 128).take 2) / 4096
    if b.length ≠ 144 ∨ wordAt b 35 ≠ crc then
      let s := ownErr (setEvt (incCnt s 0x00A 5) 0x00A 4) 0x00A 4 0x01 none
      if s.cuw.episode then s else incCnt { s with cuw := { s.cuw with episode := true, nak := true } } 0x00A 3
    else if 2 ≤ typ then ownErr (incCnt s 0x00A 5) 0x00A 4 0x04 none
    else
      let cr := (List.range 4).map fun t => ((b.drop (132 + t)).take 1).foldl (fun _ x => x.toNat) 0
      let s := cuwAck (ofLe ((b.drop 130).take 2)) cr s
      if typ = 0 then s
      else
        let seq := ofLe ((b.drop 128).take 2) % 4096
        if seq ≠ (s.cuw.rxLast + 1) % 4096 ∨ !enabled s 0x00A then s
        else
          let t := flitBits (b.take 16) 112 110 - 1
          let c := { s.cuw with rxLast := seq, episode := false, nak := false,
                                took := setAt s.cuw.took t (((s.cuw.took[t]?).getD 0 + 1) % 256) }
          cuwDeliver (b.take 128) (incCnt { s with cuw := c } 0x00A 1)

/-- R693–R696: a frame is received. -/
def cuwFrameSt (b : List Byte) (s : State) : State := cuwReply s.cuw.out.length (cuwTake b s)

/-- R697: a frame has been replayed REPLAY_LIMIT times without an ACK that covers it. -/
def recoverySt (s : State) : State :=
  let lim := max 1 (bits (getReg s 0x00A 0x114) 3 0)
  if s.cuw.st = 3 ∧ s.cuw.replay.any (fun f => lim ≤ f.reps) then
    incCnt { s with cuw := { s.cuw with st := 4 } } 0x00A 4
  else s

/-- R697: the recovery ends. -/
def recoveryDoneSt (ok : Bool) (s : State) : State :=
  if s.cuw.st ≠ 4 then s
  else if ok then
    let s := { s with cuw := { s.cuw with st := 3, replay := s.cuw.replay.map fun f => { f with reps := 0 } } }
    cuwPump (s.cuw.waiting.length + 1) (setEvt s 0x00A 2)
  else
    let s := ownErr s 0x00A 4 0x02 none
    if enabled s 0x00A then cuwRetrain s else { s with cuw := CuwSt.init }

/-- R698: 100 ms have passed since the last attempt. -/
def autoRetrySt (s : State) : State :=
  if s.cuw.st ≠ 3 ∧ bit (getReg s 0x00A 0x100) 16 ∧ usSince s s.cuw.lastTry 100000 then cuwRetrain s else s

/-- CUW_STS (R702). -/
def cuwSts (s : State) : Word :=
  let c := s.cuw
  let ubn := match c.peer with | some q => decide (q.part = 0x2128) | none => false
  w32 (c.st * 2 ^ 28 + c.rate * 2 ^ 26 + (if ubn then 2 ^ 25 else 0) + widthCode c.txLanes * 2 ^ 20 +
    widthCode c.rxLanes * 2 ^ 16)

/-- CREDIT_STS (R702). -/
def creditSts (s : State) : Word := w32 (((List.range 4).map fun t => min 255 (cuwCredit s.cuw t) * 2 ^ (8 * t)).sum)

/-- PEER_ID (R702). -/
def peerId (s : State) : Word :=
  match s.cuw.peer with
  | some q => w32 (q.part.toNat * 2 ^ 16 + q.rev.toNat)
  | none => 0

/-- LANES (R702). -/
def cuwLanes (s : State) : Word := w32 (s.cuw.rxLanes.toNat * 2 ^ 16 + s.cuw.txLanes.toNat)

/-! ### Meanings -/

/-- TX_TAPS_WRITE (R667). -/
def execTxTapsWrite (a : Acc) (p : Fin 512) (l : Fin 4) (v : Word) (s : State) : Host.Outcome State Fault Refusal :=
  .next (onPage a p (0x208 + 0x40 * l) (fun s => if isLane p l then txTapsSt p l v s else s) s)

/-- CDR_UNLOCK (R670). -/
def execCdrUnlock (p : Fin 512) (l : Fin 4) (s : State) : Host.Outcome State Fault Refusal :=
  .next (whileRuns p (cdrUnlockSt p l) s)

/-- CDR_LOCK (R670). -/
def execCdrLock (p : Fin 512) (l : Fin 4) (s : State) : Host.Outcome State Fault Refusal := .next (whileRuns p (cdrLockSt p l) s)

/-- FOM_WINDOW_END (R672). -/
def execFomWindowEnd (p : Fin 512) (l : Fin 4) (h v : Fin 65537) (x : RxWindow) (s : State) :
    Host.Outcome State Fault Refusal := .next (whileRuns p (fomWindowSt p l h v x.eq x.m) s)

/-- PSTATE_REQUEST (R683). -/
def execPstateRequest (a : Acc) (p : Fin 512) (l : Fin 4) (v : Word) (s : State) : Host.Outcome State Fault Refusal :=
  .next (onPage a p (0x200 + 0x40 * l) (pstateReqSt a p l v) s)

/-- PSTATE_DONE (R683). -/
def execPstateDone (p : Fin 512) (l : Fin 4) (s : State) : Host.Outcome State Fault Refusal :=
  .next (whileRuns p (pstateDoneSt p l) s)

/-- CONTROL_WORD (R678, R681). -/
def execControlWord (q : Fin 8) (l : Fin 4) (w : TrainWord) (s : State) : Host.Outcome State Fault Refusal :=
  .next (whileRuns (0x130 + q) (match w with
    | .control w => controlWordSt (0x130 + q) l w
    | .eq m => eqTsSt (0x130 + q) l m) s)

/-- TRAIN_DONE (R680). -/
def execTrainDone (q : Fin 8) (l : Fin 4) (s : State) : Host.Outcome State Fault Refusal := 
  .next (whileRuns (0x130 + q) (trainDoneSt (0x130 + q) l) s)

/-- RETRAIN (R690). -/
def execRetrain (a : Acc) (s : State) : Host.Outcome State Fault Refusal := .next (onPage a 0x00A 0x104 cuwRetrain s)

/-- HANDSHAKE (R690). -/
def execHandshake (peer : CuwPeer) (s : State) : Host.Outcome State Fault Refusal := .next (whileRuns 0x00A (handshakeSt peer) s)

/-- LINK_UP (R690). -/
def execLinkUp (txPass : BitVec 16) (s : State) : Host.Outcome State Fault Refusal := .next (whileRuns 0x00A (linkUpSt txPass) s)

/-- CUWICK_FRAME (R693). -/
def execCuwickFrame (bytes : List Byte) (s : State) : Host.Outcome State Fault Refusal :=
  .next (whileRuns 0x00A (cuwFrameSt bytes) s)

/-- RECOVERY (R697). -/
def execRecovery (s : State) : Host.Outcome State Fault Refusal := .next (whileRuns 0x00A recoverySt s)

/-- RECOVERY_DONE (R697). -/
def execRecoveryDone (ok : Bool) (s : State) : Host.Outcome State Fault Refusal := .next (whileRuns 0x00A (recoveryDoneSt ok) s)

/-- AUTO_RETRY (R698). -/
def execAutoRetry (s : State) : Host.Outcome State Fault Refusal := .next (whileRuns 0x00A autoRetrySt s)

end Sys2Proof.Machine
end

