-- ==== Sys2Proof/Machine/Tm.lean ====
section
/-! DEFINITION. The traffic manager (R728–R734, R736). -/

namespace Sys2Proof.Machine

/-- The traffic manager with `f` applied. -/
def modTm (s : State) (f : TmSt → TmSt) : State := { s with tm := f s.tm }

/-- A register of a queue's block (R736). -/
def qReg (s : State) (q off : Nat) : Word := getReg s (0x220 + q / 64) (q % 64 * 0x40 + off)

/-- Stores it. -/
def setQ (s : State) (q off : Nat) (v : Word) : State := setReg s (0x220 + q / 64) (q % 64 * 0x40 + off) v

/-- Counts in a saturating register of a queue. -/
def incQ (s : State) (q off : Nat) : State := setQ s q off (w32 (satAdd 0xFFFFFFFF (qReg s q off).toNat 1))

/-- The frames of a queue. -/
def queueOf (s : State) (q : Nat) : List TmFrame := kget [] s.tm.queues q

/-- Stores them. -/
def setQueue (s : State) (q : Nat) (fs : List TmFrame) : State :=
  modTm s fun t => { t with queues := kset [] t.queues q fs }

/-- The length of a frame with its FCS (R704). [DEDUCED, log 101] -/
def frameLen (f : TmFrame) : Nat := f.bytes.length + 4

/-- The cells of a frame. -/
def frameCells (f : TmFrame) : Nat := (frameLen f + 63) / 64

/-- DEPTH (R736). -/
def qDepth (s : State) (q : Nat) : Nat := ((queueOf s q).map frameCells).sum

/-- BUF_USED (R736). -/
def bufUsed (s : State) : Nat := (s.tm.queues.map fun x => (x.2.map frameCells).sum).sum

/-- The port of a queue (R728). -/
def queuePort (s : State) (q : Nat) : Nat := if portMode s = 0 then q / 512 else q / 512 * 4 + q % 512 / 128

/-- Whether a queue is strict (R728). -/
def strictQ (s : State) (q : Nat) : Bool := if portMode s = 0 then q % 512 < 4 else q % 128 = 0

/-- The queues of a port that hold frames, in ascending order. -/
def portQueues (s : State) (p : Nat) : List Nat :=
  (s.tm.queues.filter fun x => decide (queuePort s x.1 = p)).map (·.1)

/-- R729: a frame whose launch time is reached, or that has none. -/
def eligible (s : State) (f : TmFrame) : Bool :=
  match f.launch with
  | none => true
  | some t => decide (0 ≤ sinceTarget s t)

/-- The head of a queue, if it is eligible. -/
def eligHead (s : State) (q : Nat) : Option TmFrame := (queueOf s q).head?.filter (eligible s)

/-- A frame of a job leaves or is dropped (R720). -/
def jobFrame (id : Option Nat) (dropped : Bool) (stamp : Option (Word × Word)) (s : State) : State :=
  match id with
  | none => s
  | some i =>
    { s with pkt := { s.pkt with jobs := s.pkt.jobs.map fun j =>
        if j.id = i then { j with out := j.out - 1, dropped := j.dropped + if dropped then 1 else 0,
                                  stamp := match stamp with | some x => some x | none => j.stamp } else j } }

/-! ### Meters (R731) -/

/-- The tokens of meter `m` now: CBS and PBS in 64-byte units, CIR and PIR in Mbit/s. -/
def meterTokens (s : State) (m : Nat) : Rat × Rat :=
  let cbs : Rat := (64 * bits (qReg s m 0x10) 15 0 : Nat)
  let pbs : Rat := (64 * bits (qReg s m 0x10) 31 16 : Nat)
  match kget none s.tm.meters m with
  | none => (cbs, pbs)
  | some (tc, tp, t) =>
    let us : Rat := ((s.time.free - t : Nat) : Rat) * 100 / 98304
    let add (r : Nat) : Rat := (r : Rat) / 8 * us
    let c := tc + add (bits (qReg s m 0x08) 19 0)
    let p := tp + add (bits (qReg s m 0x0C) 19 0)
    (if cbs < c then cbs else c, if pbs < p then pbs else p)

/-- The colour of a frame of `len` bytes by meter `m` (RFC 2698, colour-blind): 0 green, 1 yellow, 2 red.
[DEDUCED, log 101] -/
def meterColour (m len : Nat) (s : State) : Nat × State :=
  let (tc, tp) := meterTokens s m
  let b : Rat := (len : Rat)
  let put (c p : Rat) : State := modTm s fun t => { t with meters := kset none t.meters m (some (c, p, s.time.free)) }
  if tp < b then (2, put tc tp)
  else if tc < b then (1, put tc (tp - b))
  else (0, put (tc - b) (tp - b))

/-! ### Leaving -/

/-- The egress or ingress stamp of R755: device time moved by PORT_DLY, with TS_VALID (R758). In host-assisted mode the MAC takes
none: TS_VALID is 0, and the rest is a free value (R759). [DEDUCED, log 100] -/
def ptpStamp (p : Nat) (tx : Bool) (s : State) : (Word × Word) × State :=
  if haActive s 0x003 then
    let (v, s) := takeFree 62 s
    ((w32 (v.toNat / 2 ^ 30), w32 (v.toNat % 2 ^ 30)), s)
  else
    let d := getReg s 0x003 (0x180 + 4 * p)
    let ns := if tx then devNs s - signed 16 (bits d 31 16) else devNs s + signed 16 (bits d 15 0)
    ((w32 (wrapN 32 (ns / 1000000000)), w32 ((if ctrlEnable s 0x003 then 2 ^ 31 else 0) + (ns % 1000000000).toNat)), s)

/-- The head frame of queue `q` starts at port `p`, on whose wire it then is. -/
def sendFrame (p q : Nat) (s : State) : State :=
  match queueOf s q with
  | [] => s
  | f :: fs =>
    let s := setQueue s q fs
    let s := modTm s fun t => { t with idle := t.idle.filter (· ≠ p),
                                       ports := kset TmPort.init t.ports p { kget TmPort.init t.ports p with wire := f.bytes },
                                       deficit := if fs.isEmpty then kset 0 t.deficit q 0 else t.deficit }
    let delay := min 0xFFFFFFFF (nsSince s f.at_)
    let s := setQ (setQ s q 0x1C (w32 delay)) q 0x20 (w32 (max delay (qReg s q 0x20).toNat))
    let s := setQ s q 0x2C (qReg s q 0x2C + 1)
    let s := incCnt (incCnt s 0x009 1) 0x008 1
    let ha := haActive s 0x003
    let s := if f.stamp && ha then setEvt s 0x003 9 else s
    if f.stamp then
      let (st, s) := ptpStamp p true s
      jobFrame f.job false (some st) s
    else jobFrame f.job false none s

/-- Head frames past their launch time by more than LAUNCH_TOL are dropped (R729). -/
def dropLate (q : Nat) : Nat → State → State
  | 0, s => s
  | k + 1, s =>
    match queueOf s q with
    | f :: fs =>
      match f.launch with
      | some t =>
        if (bits (getReg s 0x009 0x114) 15 0 : Int) < sinceTarget s t then
          let s := setQueue s q fs
          let s := if fs.isEmpty then modTm s fun t => { t with deficit := kset 0 t.deficit q 0 } else s
          let s := setEvt (incCnt (incQ s q 0x38) 0x009 4) 0x009 1
          dropLate q k (jobFrame f.job true none s)
        else s
      | none => s
    | [] => s

/-- A port's state. -/
def tmPort (s : State) (p : Nat) : TmPort := kget TmPort.init s.tm.ports p

/-- Stores it. -/
def setPort (s : State) (p : Nat) (x : TmPort) : State := modTm s fun t => { t with ports := kset TmPort.init t.ports p x }

/-- What a visit adds to a queue's deficit (R730). -/
def quantum (s : State) (q : Nat) : Nat := max 1 (bits (qReg s q 0) 7 0) * 256

/-- A queue's deficit. -/
def deficitOf (s : State) (q : Nat) : Nat := kget 0 s.tm.deficit q

/-- Stores it. -/
def setDeficit (s : State) (q n : Nat) : State := modTm s fun t => { t with deficit := kset 0 t.deficit q n }

/-- The queue in visit sends its head, whose length its deficit covers. -/
def sendDrr (p q : Nat) (f : TmFrame) (s : State) : State :=
  sendFrame p q (setDeficit s q (deficitOf s q - frameLen f))

/-- Deficit round robin over the queues `cands` (R730): visits until one may send. The count bounds the visits that
9,600 bytes can take. [DEDUCED, log 101] -/
def drrServe (p : Nat) (cands : List Nat) : Nat → State → State
  | 0, s => s
  | k + 1, s =>
    let x := tmPort s p
    let cur := x.visit - 1
    let may : Option TmFrame := if x.visit ≠ 0 ∧ cands.contains cur then
        (eligHead s cur).filter fun f => decide (frameLen f ≤ deficitOf s cur) else none
    match may with
    | some f => sendDrr p cur f s
    | none =>
      match (cands.find? fun q => x.visit ≤ q).or cands.head? with
      | none => s
      | some q => drrServe p cands k (setPort (setDeficit s q (deficitOf s q + quantum s q)) p { x with visit := q + 1 })

/-- The traffic manager's host ring (R734, R736). -/
def tmRing : Ring := ⟨0x009, 0x120, 0x128, 0x12C, 0x130, 128, 7, 4, 12⟩

/-- R734 step 1: a round is exported for port `p`. [DESIGN CHOICE, log 101] -/
def exportRound (p : Nat) (s : State) : State :=
  if tmRing.full s then setEvt s 0x009 2
  else
    let r := s.tm.nextRound
    let base := if portMode s = 0 then p * 512 else p / 4 * 512
    let qs := (portQueues s p).filter fun q => !strictQ s q
    let bm (j : Nat) : Word := w32 ((qs.filter fun q => decide ((q - base) / 32 = j)).map fun q => 2 ^ ((q - base) % 32)).sum
    let ws : List Word := w32 (r * 2 ^ 16 + p) :: List.replicate 15 0 ++ (List.range 16).map bm
    let s := tmRing.push s (wordsBytes ws)
    let s := modTm s fun t => { t with nextRound := (r + 1) % 65536 }
    setPort s p { tmPort s p with round := some (r, s.time.free), batch := none, own := [] }

/-- R734 step 1: a port with a weighted backlog and no round in progress exports one. -/
def haOffer (p : Nat) (s : State) : State :=
  let x := tmPort s p
  let backlog := (portQueues s p).any fun q => !strictQ s q
  if haActive s 0x009 && enabled s 0x009 && backlog && x.round.isNone && x.batch.isNone && x.own.isEmpty then exportRound p s else s

/-- The weighted group of a port in host-assisted mode (R734). -/
def haServe (p : Nat) : Nat → State → State
  | 0, s => s
  | k + 1, s =>
    let x := tmPort s p
    match x.own, x.batch with
    | q :: qs, _ =>
      let s' := if x.visit = q + 1 then s else setPort (setDeficit s q (deficitOf s q + quantum s q)) p { x with visit := q + 1 }
      match (eligHead s' q).filter fun f => decide (frameLen f ≤ deficitOf s' q) with
      | some f => sendDrr p q f s'
      | none => haServe p k (setPort s' p { tmPort s' p with own := qs, visit := 0 })
    | [], some (q, n) =>
      match n, eligHead s q with
      | m + 1, some _ =>
        if queuePort s q = p ∧ !strictQ s q then sendFrame p q (setPort s p { x with batch := some (q, m) })
        else haServe p k (setPort s p { x with batch := none })
      | _, _ => haServe p k (setPort s p { x with batch := none })
    | [], none => haOffer p s

/-- A port that is free chooses its next frame (R730, R734); a port that finds none is idle. -/
def portServe (p : Nat) (s : State) : State :=
  if !enabled s 0x009 ∨ !bit (getReg s 0x008 0x104) p then s
  else
    let s := modTm s fun t => { t with
      idle := if t.idle.contains p then t.idle else t.idle ++ [p]
      ports := kset TmPort.init t.ports p { kget TmPort.init t.ports p with wire := [] } }
    let s := (portQueues s p).foldl (fun s q => dropLate q (queueOf s q).length s) s
    let qs := portQueues s p
    match qs.find? fun q => strictQ s q && (eligHead s q).isSome with
    | some q => sendFrame p q s
    | none =>
      let cands := qs.filter fun q => !strictQ s q && (eligHead s q).isSome
      if haActive s 0x009 then haServe p (qs.length + 3) s
      else drrServe p cands (40 * (cands.length + 1)) s

/-- An idle port looks again. -/
def portKick (p : Nat) (s : State) : State := if s.tm.idle.contains p then portServe p s else s

/-- A frame goes to the traffic manager. [DEDUCED, log 103] -/
def toTm (f : TmFrame) (s : State) : State := modTm s fun t => { t with input := t.input ++ [f] }

/-- R732: the oldest frame that has reached the traffic manager is metered and admitted, or dropped. [DEDUCED, log 103] -/
def tmEnqueueSt (s : State) : State :=
  match s.tm.input with
  | [] => s
  | f :: fs =>
    if !enabled s 0x009 then s
    else
      let s := modTm s fun t => { t with input := fs }
      let cfg := qReg s f.q 0
      let (col, s) := if bit cfg 28 then meterColour (bits cfg 27 16) (frameLen f) s else (0, s)
      if col = 2 then jobFrame f.job true none (incCnt (incQ s f.q 0x34) 0x009 3)
      else
        let lim := qReg s f.q 0x04
        let want := qDepth s f.q + frameCells f
        let size := 2 ^ max 16 (min 25 (bits (getReg s 0x009 0x108) 4 0)) / 64
        let room := decide (bufUsed s + frameCells f ≤ size)
        let s := if room then s else setEvt s 0x009 0
        if bit cfg 31 && room && decide (want ≤ if col = 0 then bits lim 15 0 else bits lim 31 16) then
          let s := incCnt (setQueue s f.q (queueOf s f.q ++ [{ f with at_ := s.time.free }])) 0x009 0
          portKick (queuePort s f.q) (haOffer (queuePort s f.q) s)
        else jobFrame f.job true none (incCnt (incQ s f.q 0x30) 0x009 2)

/-- R729: queue `q`'s head reaches its launch time. -/
def frameEligibleSt (q : Nat) (s : State) : State :=
  let s := dropLate q (queueOf s q).length s
  if (eligHead s q).isSome then portKick (queuePort s q) s else s

/-- R734 step 2. -/
def haSelectSt (v : Word) (s : State) : State :=
  match (List.range 32).find? fun p => ((tmPort s p).round.map (·.1)) = some (bits v 31 16) with
  | none => incCnt s 0x009 6
  | some p =>
    let block := if portMode s = 0 then p else p / 4
    let s := setPort s p { tmPort s p with round := none, batch := some (block * 512 + bits v 8 0, bits v 14 9) }
    portKick p s

/-- R734: no select has come within HA_TIMEOUT. -/
def haTimeoutSt (p : Nat) (s : State) : State :=
  match (tmPort s p).round with
  | some (_, t) =>
    if usSince s t (max 1 (bits (getReg s 0x009 0x118) 15 0)) then
      let qs := (portQueues s p).filter fun q => !strictQ s q
      let s := setPort s p { tmPort s p with round := none, own := qs, visit := 0 }
      portKick p (setEvt (incCnt s 0x009 5) 0x009 3)
    else s
  | none => s

/-- R733: DEPTH_MAX of every queue. -/
def depthSampleSt (s : State) : State :=
  if nsSince s s.tm.lastSample < max 1 (bits (getReg s 0x009 0x110) 15 0) then s
  else
    let qs := s.tm.queues.map (·.1)
    qs.foldl (fun s q => setQ s q 0x18 (w32 (max (qDepth s q) (qReg s q 0x18).toNat)))
      (modTm s fun t => { t with lastSample := s.time.free })

/-- R733: on the snapshot copy tick, every queue's DEPTH and DELAY_LAST are copied. -/
def tmSnap (s : State) : State :=
  (List.range 4096).foldl (fun s q => setQ (setQ s q 0x24 (w32 (qDepth s q))) q 0x28 (qReg s q 0x1C)) s

/-- R731: a meter's register is written, and both buckets are full. -/
def meterWriteSt (q off : Nat) (v : Word) (s : State) : State :=
  let s := setQ s q off (if off = 0x10 then v else v &&& 0x000FFFFF)
  modTm s fun t => { t with meters := kset none t.meters q none }

/-- What a soft reset or a loss of power does to the traffic manager's frames: all are dropped. -/
def tmDrop (s : State) : State :=
  let fs := s.tm.input ++ s.tm.queues.flatMap (·.2)
  let s := fs.foldl (fun s f => jobFrame f.job true none s) s
  modTm s fun t => { t with input := [], queues := [], deficit := [], meters := [], ports := [], idle := [] }

/-- TM_ENQUEUE (R732). -/
def execTmEnqueue (s : State) : Host.Outcome State Fault Refusal := .next (whileRuns 0x009 tmEnqueueSt s)

/-- PORT_FREE (R730): the port takes its next frame before one that reaches the traffic manager in the same cycle is admitted
(R732). -/
def execPortFree (x : PortEnd) (s : State) : Host.Outcome State Fault Refusal :=
  .next (whileRuns 0x009 (fun s => if x.enq then tmEnqueueSt (portServe x.p s) else portServe x.p s) s)

/-- FRAME_ELIGIBLE (R729). -/
def execFrameEligible (q : Fin 4096) (s : State) : Host.Outcome State Fault Refusal :=
  .next (whileRuns 0x009 (frameEligibleSt q) s)

/-- HA_SELECT (R734). -/
def execHaSelect (a : Acc) (v : Word) (s : State) : Host.Outcome State Fault Refusal :=
  .next (onPage a 0x009 0x11C (haSelectSt v) s)

/-- HA_SELECT_TIMEOUT (R734). -/
def execHaSelectTimeout (p : Fin 32) (s : State) : Host.Outcome State Fault Refusal := .next (whileRuns 0x009 (haTimeoutSt p) s)

/-- DEPTH_SAMPLE (R733). -/
def execDepthSample (s : State) : Host.Outcome State Fault Refusal := .next (whileRuns 0x009 depthSampleSt s)

/-- METER_WRITE (R731). -/
def execMeterWrite (a : Acc) (q : Fin 4096) (r : Fin 3) (v : Word) (s : State) : Host.Outcome State Fault Refusal :=
  .next (onPage a (0x220 + q / 64) (q % 64 * 0x40 + 8 + 4 * r) (meterWriteSt q (8 + 4 * r) v) s)

end Sys2Proof.Machine
end

