-- ==== Sys2Proof/Machine/Pcie.lean ====
section
/-! DEFINITION. The PCIe endpoint: host work rings, HOST-pool fires, host tokens (R724–R727, R737). -/

namespace Sys2Proof.Machine

/-- The endpoint with `f` applied. -/
def modPcie (s : State) (f : PcieSt → PcieSt) : State := { s with pcie := f s.pcie }

/-- A register of host work ring `n` (R737). -/
def hwr (s : State) (n off : Nat) : Word := getReg s 0x007 (0x200 + 0x40 * n + off)

/-- The entries of a ring whose SIZE is at `off`. -/
def hwrCount (s : State) (n off : Nat) : Nat := 2 ^ max 4 (min 12 (bits (hwr s n off) 3 0))

/-- The host address of a ring whose BASE_LO is at `off`, its low 6 bits taken as 0 (R888). -/
def hwrBase (s : State) (n off : Nat) : Nat := getPair s 0x007 (0x200 + 0x40 * n + off) 6

/-- A vector's mask bit: bit 0 of its vector control word, 1 at reset. [PRESUMED, log 120] -/
def msixMasked (s : State) (v : Nat) : Bool := !(kget (0 : Byte) s.pcie.msix (16 * v + 12)).getLsbD 0

/-- MSI-X vector `v` is raised (R725, R806) by a ring (1) or by the event controller (2): its message, or its pending bit
while it is masked; SNAP_CNT5 counts the controller's messages. [PRESUMED, log 120] -/
def raiseMsix (s : State) (by_ v : Nat) : State :=
  if msixMasked s v then modPcie s fun p => { p with msixPend := kset 0 p.msixPend v (max by_ (kget 0 p.msixPend v)) }
  else
    let s := { s with evt := { s.evt with msixLast := some v } }
    if by_ = 2 then incCnt s 0x001 5 else s

/-- A ring raises its vector (R725). -/
def sendMsix (s : State) (v : Nat) : State := raiseMsix s 1 v

/-- A vector whose mask bit has cleared while it was pending is sent (R806). [PRESUMED, log 120] -/
def msixUnmask (s : State) (v : Nat) : State :=
  let b := kget 0 s.pcie.msixPend v
  if b = 0 ∨ msixMasked s v then s
  else raiseMsix (modPcie s fun p => { p with msixPend := kset 0 p.msixPend v 0 }) b v

/-- A byte of BAR4: the table's, a pending-bit byte from 0x2000 on, else 0. [PRESUMED, log 120] -/
def msixByte (s : State) (o : Nat) : Byte :=
  if o < 0x1000 then kget 0 s.pcie.msix o ^^^ (if o % 16 = 12 then 1 else 0)
  else if 0x2000 ≤ o ∧ o < 0x2020 then
    BitVec.ofNat 8 ((List.range 8).foldl (fun n i => if kget 0 s.pcie.msixPend (8 * (o - 0x2000) + i) = 0 then n else n + 2 ^ i) 0)
  else 0

/-- Bytes written to the MSI-X table; the pending-bit array is read only. [PRESUMED, log 120] -/
def msixWrite (o : Nat) (bs : List (Byte × Nat)) (s : State) : State :=
  let put (m : KMap Byte) (x : Byte × Nat) : KMap Byte :=
    if o + x.2 < 0x1000 then kset 0 m (o + x.2) (x.1 ^^^ (if (o + x.2) % 16 = 12 then 1 else 0)) else m
  (List.range 256).foldl msixUnmask (modPcie s fun p => { p with msix := bs.foldl put p.msix })

/-- The 64-byte units of an entry. -/
def entryUnits (e : D2hEntry) : Nat := max 1 ((4 * (e.words.length + 1) + 63) / 64)

/-- The units of a D2H ring that the device may write. -/
def d2hRoom (s : State) (n : Nat) : Nat :=
  let c := hwrCount s n 0x08
  (bits (hwr s n 0x10) 11 0 + c - bits (hwr s n 0x0C) 11 0 % c - 1) % c

/-- One 64-byte unit of an entry is written at HEAD; PHASE turns where the ring wraps. -/
def putUnit (n : Nat) (first : Option Word) (ws : List Word) (s : State) : State :=
  let c := hwrCount s n 0x08
  let h := bits (hwr s n 0x0C) 11 0 % c
  let a := hwrBase s n 0 + 64 * h
  let s := match first with
    | none => setHostBytes s a (wordsBytes (ws ++ List.replicate (16 - ws.length) 0))
    | some w => setHostBytes (setHostBytes s (a + 4) (wordsBytes (ws ++ List.replicate (15 - ws.length) 0))) a
        (leBytes 4 w.toNat)
  setReg s 0x007 (0x20C + 0x40 * n) (w32 ((h + 1) % c))

/-- The body of an entry, unit after unit, from word `i` on. -/
def putUnits (n : Nat) : Nat → List Word → State → State
  | 0, _, s => s
  | k + 1, ws, s => putUnits n k (ws.drop 16) (putUnit n none (ws.take 16) s)

/-- A D2H entry is written, word 0 last (R725), and the ring's vector is raised. -/
def putEntry (e : D2hEntry) (s : State) : State :=
  let n := e.ring
  let low := kget false s.pcie.low n
  let q := kget 0 s.pcie.seq n
  let u := entryUnits e
  let w0 := w32 ((if low then 0 else 2 ^ 31) + e.typ * 2 ^ 24 + u % 256 * 2 ^ 16 + q % 65536)
  let c := hwrCount s n 0x08
  let h := bits (hwr s n 0x0C) 11 0 % c
  let s := putUnit n (some w0) (e.words.take 15) s
  let s := putUnits n (u - 1) (e.words.drop 15) s
  let s := modPcie s fun p => { p with seq := kset 0 p.seq n ((q + 1) % 65536),
                                       low := kset false p.low n (if c ≤ h + u then !low else low) }
  sendMsix s (bits (hwr s n 0x28) 7 0)

/-- Waiting entries are written while their rings have room (R725). -/
def d2hPump (n : Nat) : Nat → State → State
  | 0, s => s
  | k + 1, s =>
    match s.pcie.queue.find? fun e => e.ring = n with
    | none => s
    | some e =>
      if entryUnits e ≤ d2hRoom s n then
        d2hPump n k (putEntry e (modPcie s fun p => { p with queue := dropFirst (fun x => decide (x = e)) p.queue }))
      else setEvt s 0x007 0

/-- The urgency class of a waiting entry that is a fire record; entries of other types have none. -/
def D2hEntry.cls (e : D2hEntry) : Nat := if e.typ = 1 then bits (wWord e.words 0) 5 4 else 4

/-- An entry is queued for its ring, a fire of class 0 ahead of the ring's waiting fires of class 1–3 (R115). -/
def d2hSend (e : D2hEntry) (s : State) : State :=
  let s := modPcie s fun p => { p with
    queue := enqueueFire D2hEntry.cls (fun x => decide (x.ring ≠ e.ring ∨ x.typ ≠ 1)) e p.queue }
  d2hPump e.ring s.pcie.queue.length s

/-- A write of D2H_BASE_LO, D2H_BASE_HI or D2H_SIZE restarts the ring (R725). -/
def d2hRestart (n : Nat) (s : State) : State :=
  let s := setReg s 0x007 (0x20C + 0x40 * n) 0
  modPcie s fun p => { p with low := kset false p.low n false, seq := kset 0 p.seq n 0 }

/-- R726: a fire on the HOST pool becomes an entry of TYPE 1. Its word 0 is the header; the record's own word 0 stands
in word 12, which the record leaves reserved. [DEDUCED, log 104] -/
def hostFireSt (f : FireRec) (s : State) : State :=
  let ws := fireWords f
  let body := (ws.drop 1).take 11 ++ ws.take 1 ++ ws.drop 13
  let s := modPcie s fun p => { p with fires := p.fires ++ [f] }
  d2hSend ⟨f.member.toNat % 8, 1, body⟩ s

/-- The number of a message, its PHY instance, and what it says. -/
def FapiOut.parts : FapiOut → Nat × Nat × Int
  | .paramResponse p => (0, p, 0)
  | .configResponse p => (1, p, 0)
  | .errorIndication p r => (2, p, match r with | .invalidState => 0 | .invalidConfig => 1 | .invalidSfn => 2)
  | .slotIndication p t => (3, p, t)
  | .stopIndication p => (4, p, 0)
  | .lnxStopResponse p f => (5, p, if f then 1 else 0)
  | .lnxStatsResponse p n => (6, p, n)
  | .lnxEvent p n => (7, p, n)

/-- A message to the L2 goes out on the path of its carrier context (R29): into a D2H ring from byte 8 of an entry of TYPE 2
(R725), or in a datagram of its own with the next SEQ of its carrier (R723). [PRESUMED, log 105] -/
def fapiSend (m : FapiOut) (s : State) : State :=
  let (kind, phy, arg) := m.parts
  let x := kget PhySt.init s.phys phy
  if ((s.boot.cfg.bind fun c => c.set.pcie[phy]?)).getD false then
    d2hSend ⟨Config.fapiRing phy % 8, 2, 0 :: Config.fapiBody kind phy arg⟩ { s with fapi := s.fapi ++ [⟨m, true, 0⟩] }
  else
    { s with
      fapi := s.fapi ++ [⟨m, false, x.txSeq⟩]
      phys := kset PhySt.init s.phys phy { x with txSeq := (x.txSeq + 1) % 65536 } }

/-- The firmware's or the host's H2D entry at `h` (R725): what it is, and its units. -/
def h2dEntry (s : State) (n h : Nat) : Word × List Word :=
  let a := hwrBase s n 0x14
  let c := hwrCount s n 0x1C
  let unit (i : Nat) : List Word := (List.range 16).map (wordAt (getHostBytes s (a + 64 * ((h + i) % c)) 64))
  let w0 := wWord (unit 0) 0
  (w0, (List.range (max 1 (bits w0 23 16))).flatMap unit)

/-- The endpoint reads the posted H2D entries (R725). The count bounds the entries of a ring. -/
def h2dRun (n : Nat) : Nat → State → State
  | 0, s => s
  | k + 1, s =>
    let c := hwrCount s n 0x1C
    let h := bits (hwr s n 0x20) 11 0 % c
    let t := bits (hwr s n 0x24) 11 0 % c
    if h = t then s
    else
      let (w0, ws) := h2dEntry s n h
      let s := match bits w0 27 24 with
        | 2 => modPcie s fun p => { p with inbox := p.inbox ++ [(n, ws)] }
        | 3 =>
          let flow := kget [] s.pkt.flows (bits (wWord ws 1) 11 0)
          if bit (wWord flow 0) 31 && bit (wWord flow 0) 30 then
            toTm ⟨bits (wWord flow 18) 27 16, Config.h2dFrame ws, none, 0, none, false⟩ s
          else s
        | _ => setEvt (incCnt s 0x007 0) 0x007 1
      let used := min (max 1 (bits w0 23 16)) ((t + c - h) % c)
      h2dRun n k (setReg s 0x007 (0x220 + 0x40 * n) (w32 ((h + used) % c)))

/-- R725: H2D_TAIL is written. -/
def h2dTailSt (n : Nat) (v : Word) (s : State) : State :=
  let s := setReg s 0x007 (0x224 + 0x40 * n) (v &&& 0xFFF)
  if enabled s 0x007 then h2dRun n 4096 s else s

/-! ### Host tokens (R727) -/

/-- The token that a host register's four words spell: HOST set, FLAGS[6:5] and the reserved fields clear, DONE as the
register says. The stored partial words are taken. -/
def hostToken (base : Nat) (done : Bool) (v : Word) (s : State) : Token × State :=
  let w (i : Nat) : Word := kget 0 s.pcie.words (base + i)
  let t := tokenOfWords (w 0) (w 1) (w 2) v
  let s := modPcie s fun p => { p with words := (List.range 4).foldl (fun m i => kset 0 m (base + i) 0) p.words }
  ({ t with flags := if done then 0x90 else 0x10, rsvd := 0 }, s)

/-- URG of a template, from the template area (R92). [DEDUCED, log 104] -/
def templateUrg (s : State) (t : Nat) : Nat :=
  let a := getPair s 0x002 0x100 21 + t * 32
  bits (wordAt (getBytes s a 4) 0) 23 22

/-- TOKEN_IN3 is written. [DEDUCED, log 104] -/
def tokenInSt (v : Word) (s : State) : State :=
  let (t, s) := hostToken 0 false v s
  sendTok s 0x007 (templateUrg s t.template.toNat) t

/-- TOKEN_DONE3 is written: the fire that it completes gives the class. -/
def tokenDoneSt (v : Word) (s : State) : State :=
  let (t, s) := hostToken 4 true v s
  let mine (f : FireRec) : Bool := decide (f.template = t.template ∧ f.inst = t.inst)
  let cls := match s.pcie.fires.find? mine with
    | some f => f.urg.toNat
    | none => templateUrg s t.template.toNat
  sendTok (modPcie s fun p => { p with fires := dropFirst mine p.fires }) 0x007 cls t

/-- One of the first three words of a token register is written; `base` is 0 for TOKEN_IN, 4 for TOKEN_DONE. -/
def tokenWord (base i : Nat) (v : Word) (s : State) : State :=
  modPcie s fun p => { p with words := kset 0 p.words (base + i) v }

/-- R726: a soft reset of the page ends every HOST-pool fire. -/
def pcieDrop (s : State) : State :=
  let s := s.pcie.fires.foldl (fun s f => failFire s 0x007 f 0x11) s
  { s with pcie := ⟨s.pcie.msix, s.pcie.msixPend, [], [], [], [], [], []⟩ }

/-- H2D_TAIL_WRITE (R725). -/
def execH2dTailWrite (a : Acc) (n : Fin 8) (v : Word) (s : State) : Host.Outcome State Fault Refusal :=
  .next (onPage a 0x007 (0x224 + 0x40 * n) (h2dTailSt n v) s)

/-- HOST_FIRE (R726). -/
def execHostFire (f : FireRec) (s : State) : Host.Outcome State Fault Refusal :=
  .next (fireRow 0x007 0x04 f hostFireSt s)

/-- TOKEN_IN (R727). -/
def execTokenIn (a : Acc) (v : Word) (s : State) : Host.Outcome State Fault Refusal :=
  .next (onPage a 0x007 0x11C (tokenInSt v) s)

/-- TOKEN_DONE (R727). -/
def execTokenDone (a : Acc) (v : Word) (s : State) : Host.Outcome State Fault Refusal :=
  .next (onPage a 0x007 0x12C (tokenDoneSt v) s)

end Sys2Proof.Machine
end

