-- ==== Sys2Proof/Machine/PowerBase.lean ====
section
/-! DEFINITION. The start of a domain's transition, wake events, the way of a fire to its member, and the core
voltage that a switched-on cluster needs (R771–R785, R793–R797). -/

namespace Sys2Proof.Machine

/-- A cluster's frequency record. -/
def cdRec (s : State) (c : Nat) : CdRec := kget CdRec.init s.clk.cds c

/-- Stores a cluster's frequency record. -/
def setCd (s : State) (c : Nat) (r : CdRec) : State :=
  { s with clk := { s.clk with cds := kset CdRec.init s.clk.cds c r } }

/-- The operating point of a step (R793). -/
def stepOp (step : Nat) : Nat := if step ≤ 4 then 0 else if step ≤ 10 then 1 else 2

/-- The fused voltage of an operating point, in mV (R803). -/
def vfFuse (s : State) (p : Nat) : Nat := ((s.fuses.vf[p]?).getD 0).toNat % 2 ^ 16

/-- An operating point is met while a lower one is not on its way; every point is, where the PMBus page is not
enabled (R860). [DEDUCED, log 113] -/
def opMet (s : State) (p : Nat) : Bool :=
  !enabled s 0x00F ||
    decide (p ≤ (match s.clk.pendOp with | some q => min q s.clk.op | none => s.clk.op))

/-- R860: a voltage in LINEAR16 with VOUT_MODE's exponent. -/
def linear16 (mode : Word) (mv : Nat) : Nat :=
  (roundEven ((mv : Rat) / 1000 * pow2 (-(signed 5 (bits mode 4 0))))).toNat % 2 ^ 16

/-- R794, R860: the voltage of an operating point is commanded over PMBus. [DEDUCED, log 113] -/
def commandV (s : State) (p : Nat) : State :=
  if !enabled s 0x00F then s
  else
    let lim := getReg s 0x00F 0x104
    let mv := max (bits lim 15 0) (min (bits lim 31 16) (vfFuse s p))
    let s := modReg s 0x00F 0x108 fun w => putBits w 15 0 (linear16 (getReg s 0x00F 0x10C) mv)
    incCnt { s with clk := { s.clk with pendOp := some p, mv := mv, pendAt := s.time.free } } 0x005 1

/-- Commands the voltage of an operating point that is not met and not already on its way. -/
def raiseV (s : State) (p : Nat) : State :=
  if opMet s p then s
  else match s.clk.pendOp with
    | some q => if p ≤ q then s else commandV s p
    | none => commandV s p

/-- The operating point that the cluster domains need which are ON or on their way to it (R796). -/
def needOp (s : State) : Nat :=
  ((List.range 16).map fun c =>
    let r := pdRec s c
    if r.cur = .on ∨ (r.cur = .trans ∧ r.target = .on) then max (stepOp (cdRec s c).cur) (stepOp (cdRec s c).target)
    else 0).foldl max 0

/-- R794 step 3: the lower voltage, once no ON cluster domain needs the point in force. -/
def lowerV (s : State) : State :=
  if s.clk.pendOp.isNone && decide (needOp s < s.clk.op) && enabled s 0x00F then commandV s (needOp s) else s

/-- PD_CFG of a domain (R802). -/
def pdCfg (s : State) (n : Nat) : Word := getReg s 0x004 (0x408 + 0x20 * n)

/-- The retention banks that a domain has (R765). -/
def retBits (n : Nat) : BitVec 64 := if n < 16 then BitVec.ofNat 64 (2 ^ 61 - 1) else if n = 44 then 0xFF else 0

/-- RET_MASK of a domain (R802). -/
def retMask (s : State) (n : Nat) : BitVec 64 :=
  BitVec.ofNat 64 ((getReg s 0x004 (0x40C + 0x20 * n)).toNat + 2 ^ 32 * (getReg s 0x004 (0x410 + 0x20 * n)).toNat) &&&
    retBits n

/-- A domain's record is switching it on (R778, R790). -/
def PdRec.up (r : PdRec) : Bool := decide (r.cur = .trans) && (decide (r.target = .on) || decide (r.left = .off))

/-- Domains switching on, apart from those that wait for a place. -/
def switchingOn (s : State) : Nat :=
  ((List.range 48).filter fun n => (pdRec s n).up && !(pdRec s n).queued).length

/-- A switch-on begins: the voltage that the cluster needs is raised (R796). -/
def switchOn (s : State) (n : Nat) : State :=
  let s := setPd s n { pdRec s n with queued := false, began := s.time.free }
  if n < 16 ∧ (pdRec s n).target = .on then raiseV s (stepOp (cdRec s n).cur) else s

/-- A transition of domain `n` begins (R775); a fifth switch-on waits (R778). [DEDUCED, log 109] -/
def beginTrans (s : State) (n : Nat) (want : PdState) (req : Option PdReq) : State :=
  let r := pdRec s n
  let up := decide (want = .on) || decide (r.cur = .off)
  let wait := up && decide (4 ≤ switchingOn s)
  let s := setPd s n { r with
    cur := .trans, left := r.cur, target := want, doing := req, wait := none, latched := false, queued := wait,
    began := s.time.free, kept := if want = .retain then retMask s n else r.kept }
  if wait then { s with pwr := { s.pwr with queue := s.pwr.queue ++ [n] } }
  else if up then switchOn s n else s

/-- A wake event is counted (R780, R781). [DEDUCED, log 112] -/
def countWake (s : State) (n : Nat) : State :=
  setEvt (incCnt (modReg s 0x004 (0x418 + 0x20 * n) (· + 1)) 0x004 1) 0x004 3

/-- R780, R781, R784, R785: a wake event reaches domain `n`. [DEDUCED, log 112] -/
def wakeDomain (s : State) (n : Nat) : State :=
  let r := pdRec s n
  if r.cur = .retain then beginTrans (countWake s n) n .on none
  else if r.cur = .trans ∧ r.target = .retain then
    let s := countWake s n
    setPd s n { pdRec s n with latched := true }
  else s

/-- The cause code DISABLED of a pool's chapter (R784). -/
def disabledCode (pool : Nat) : Nat := if pool = 3 then 0x05 else 0x04

/-- R784: the power controller answers a fire with an error token. -/
def pwrFail (s : State) (f : FireRec) : State := failFire s 0x004 f (disabledCode f.pool.toNat)

/-- A fire record leaves for its member's leaf port (R139). -/
def sendFire (s : State) (p : Nat) (f : FireRec) : State :=
  { s with fab := { s.fab with
      firePkts := s.fab.firePkts ++ [⟨pageLp p, decide (f.urg = 0), s.fab.cur, f, none⟩] } }

/-- The way of a fire to its member: sent, held for the domain (R782, R783), or refused (R784). A CORE member
that no physical core backs refuses like a domain in OFF. [DEDUCED, log 33] -/
def routeFire (s : State) (f : FireRec) : State :=
  match memberPage s f.pool.toNat f.member.toNat with
  | none => pwrFail s f
  | some p =>
    let d := pageDomain p
    if 48 ≤ d then sendFire s p f
    else
      let r := pdRec s d
      if r.cur = .on then sendFire s p f
      else if r.cur = .off ∨ (r.cur = .trans ∧ r.target = .off) then pwrFail s f
      else
        let q := enqueueFire (fun x : Nat × FireRec => x.2.urg.toNat) (fun _ => false) (d, f) s.pwr.heldFires
        let s := incCnt { s with pwr := { s.pwr with heldFires := q } } 0x004 6
        if bit (pdCfg s d) 30 then wakeDomain s d
        else if r.cur = .retain then setEvt s 0x004 6 else s

end Sys2Proof.Machine
end

