-- ==== Sys2Proof/Machine/Disp.lean ====
section
/-! DEFINITION. The dispatcher: templates, tokens, the matching store, the issue of fires, instances, and the
protection of its state (Slot Graphs and the Dispatcher). -/

namespace Sys2Proof.Machine

/-- Changes the dispatcher's state. -/
def modDisp (s : State) (f : DispSt → DispSt) : State := { s with disp := f s.disp }

/-! ### Templates -/

/-- The address of template `t` (R92, R888). -/
def tmplAddr (s : State) (t : Nat) : Nat := getPair s 0x002 0x100 21 % 2 ^ 48 + t * 32

/-- The words of a template that is at hand: in the cache (R94, R95), or read for a token that waits. -/
def tmplCached (s : State) (t : Nat) : Option (List Word) :=
  ((s.disp.cache ++ s.disp.fetched).find? fun e => e.1 = t).map (·.2)

/-- The words of a template: the cached ones, else those that its bytes hold. -/
def tmplWords (s : State) (t : Nat) : List Word :=
  match tmplCached s t with
  | some w => w
  | none =>
    match region s (tmplAddr s t) with
    | .outbound off => let d := getHostBytes s off 32; (List.range 8).map (wordAt d)
    | r => let d := getBytes s r.key 32; (List.range 8).map (wordAt d)

/-- POOL (R96). -/
def tPool (w : List Word) : Nat := bits (wWord w 0) 31 28

/-- The number of ports (R96). -/
def tPorts (w : List Word) : Nat := bits (wWord w 0) 27 26 + 1

/-- RULE = RACE (R96). -/
def tRace (w : List Word) : Bool := bit (wWord w 0) 25

/-- ERR_HANDLE (R96). -/
def tErrHandle (w : List Word) : Bool := bit (wWord w 0) 24

/-- URG (R96). -/
def tUrg (w : List Word) : Nat := bits (wWord w 0) 23 22

/-- USED (R96). -/
def tUsed (w : List Word) : Bool := bit (wWord w 0) 21

/-- NSUCC (R96). -/
def tNsucc (w : List Word) : Nat := bits (wWord w 0) 19 16

/-- OPCODE (R96). -/
def tOpcode (w : List Word) : Nat := bits (wWord w 0) 15 0

/-- MEMBER_FIRST (R96). -/
def tFirst (w : List Word) : Nat := bits (wWord w 1) 31 24

/-- MEMBER_LAST (R96). -/
def tLast (w : List Word) : Nat := bits (wWord w 1) 23 16

/-- The number of members of a pool, and the credits of each (R96); 0 members for a reserved pool and LIST. -/
def poolSize (pool : Nat) : Nat × Nat :=
  match pool with
  | 0 => (128, 2)
  | 1 => (16, 4)
  | 2 => (4, 32)
  | 3 => (4, 16)
  | 4 => (4, 8)
  | 5 => (1, 8)
  | 6 => (8, 1)
  | 7 => (1, 1)
  | 8 => (8, 256)
  | 9 => (8, 16)
  | _ => (0, 0)

/-- R101: a target template that no token may name. -/
def tBad (w : List Word) : Bool :=
  !tUsed w || decide ((poolSize (tPool w)).1 = 0) || decide (7 ≤ tNsucc w) || decide (tLast w < tFirst w) ||
    decide ((poolSize (tPool w)).1 ≤ tLast w)

/-- R101: a template that LINK may not reach. -/
def listBad (w : List Word) : Bool := !decide (tPool w = 15) || decide (7 ≤ tNsucc w)

/-- The successor words that NSUCC covers. -/
def tSuccs (w : List Word) : List Word := (w.drop 2).take (min 6 (tNsucc w))

/-- LINK of a successor word. -/
def sLink (x : Word) : Bool := bit x 13

/-- CLOSE of a successor word. -/
def sClose (x : Word) : Bool := bit x 12

/-- The LIST template that a template's list goes on in (R98). -/
def tLink (w : List Word) : Option Nat := ((tSuccs w).find? sLink).map fun x => bits x 31 16

/-- The first template of a list, `n` LIST templates long at most, that is not in the cache (R95). -/
def chainMissing (s : State) : Nat → List Word → Option Nat
  | 0, _ => none
  | n + 1, w =>
    match tLink w with
    | none => none
    | some t =>
      match tmplCached s t with
      | none => some t
      | some w' => if listBad w' then none else chainMissing s n w'

/-- The successor words of a template in list order, and whether LINK reaches a malformed template (R98, R101). Where the
spec states no effect for a list that breaks R98, the model chooses: a word with LINK and CLOSE both set is a LINK, the
words after a LINK are dropped, and a link to a fourth LIST template is malformed at that link. [DESIGN CHOICE, log 136] -/
def succWords (s : State) : Nat → List Word → List Word × Bool
  | 0, w => ((tSuccs w).takeWhile fun x => !sLink x, (tLink w).isSome)
  | n + 1, w =>
    let own := (tSuccs w).takeWhile fun x => !sLink x
    match tLink w with
    | none => (own, false)
    | some t =>
      let w' := tmplWords s t
      if listBad w' then (own, true)
      else let (more, bad) := succWords s n w'; (own ++ more, bad)

/-! ### Errors and discards -/

/-- R101: a malformed token or list is counted and captured. -/
def malformed (s : State) : State := ownErr (incCnt s 0x002 10) 0x002 6 0x06 none

/-- A token discarded for an instance that is not OPEN, or while the dispatcher is not enabled (R893). -/
def discard (s : State) (t : Token) : State := incCnt s 0x002 (if tokTime t then 7 else 4)

/-! ### Instances -/

/-- The row of an instance. -/
def instRec (s : State) (i : Nat) : InstRec := kget InstRec.init s.disp.insts i

/-- Stores the row of an instance. -/
def setInst (s : State) (i : Nat) (r : InstRec) : State :=
  modDisp s fun d => { d with insts := kset InstRec.init d.insts i r }

/-- The entries that an instance holds. -/
def instEntries (s : State) (i : Nat) : Nat := (s.disp.entries.filter fun e => e.inst = i).length

/-- RESERVED: the sum of the peaks of the instances not yet freed. -/
def reserved (s : State) : Nat := (s.disp.insts.map fun e => if e.2.st = .free then 0 else e.2.peak).foldl (· + ·) 0

/-- HEADROOM: the entries above their instances' peaks (R123). -/
def headroom (s : State) : Nat :=
  (s.disp.insts.map fun e => instEntries s e.1 - e.2.peak).foldl (· + ·) 0

/-- The slot-graph instances of a PHY instance, as the configuration set names them (R849). -/
def phyInsts (s : State) (phy : Nat) : List Nat :=
  match s.boot.cfg with
  | some c => (c.set.insts[phy]?).getD []
  | none => []

/-- The controlled stop of a PHY instance ends (step 5): the firmware reports it. -/
def phyStopped (phy : Nat) (forced : Bool) (s : State) : State :=
  let x := kget PhySt.init s.phys phy
  fapiSend (if x.lnx then .lnxStopResponse phy forced else .stopIndication phy)
    { s with phys := kset PhySt.init s.phys phy { x with st := 1, lnx := false, reqs := [] } }

/-- The controlled stops whose instances are all FREE, past the end of the last slot granted, end (steps 4 and 5).
[DESIGN CHOICE, log 5] -/
def phyPoll (s : State) : State :=
  s.phys.foldl (fun s e =>
    if e.2.st = 3 ∧ e.2.offAt ≤ devNs s ∧ ((phyInsts s e.1).all fun i => decide ((instRec s i).st = .free)) then
      phyStopped e.1 false s
    else s) s

/-- R122: an instance without a fire outstanding becomes FREE when it closes or is CLOSING. -/
def freeInst (s : State) (i : Nat) : State := phyPoll (setInst s i InstRec.init)

/-- R122: an instance closes: its entries go, and it becomes FREE or CLOSING. -/
def closeInstance (s : State) (i : Nat) : State :=
  let s := modDisp s fun d => { d with entries := d.entries.filter fun e => !decide (e.inst = i) }
  if (instRec s i).outstanding = 0 then freeInst s i else setInst s i { instRec s i with st := .closing }

/-- R147, R148: an OPEN instance fails. -/
def failInst (s : State) (i : Nat) : State :=
  if (instRec s i).st = .open_ then setEvt (setInst s i { instRec s i with st := .failed }) 0x002 4 else s

/-! ### Successors and credits -/

/-- R97: an operation's successor tokens enter the ingress in list order, each in its target template's class. -/
def sendTokens (s : State) (inst : Nat) (w : List Word) (kind : BitVec 2) (payload : Dword) : State :=
  let (xs, bad) := succWords s 3 w
  let s := if bad then malformed s else s
  let toks := (xs.filter fun x => !sClose x).map fun x =>
    ((⟨BitVec.ofNat 16 (bits x 31 16), BitVec.ofNat 16 inst, BitVec.ofNat 2 (bits x 15 14), kind, 0, 0, payload⟩ : Token),
      tUrg (tmplWords s (bits x 31 16)))
  modDisp s fun d => { d with ingress := d.ingress ++ toks }

/-- R97: the successor tokens, and then a CLOSE word acts. [DEDUCED, log 31] -/
def sendSuccs (s : State) (inst : Nat) (w : List Word) (kind : BitVec 2) (payload : Dword) : State :=
  let s := sendTokens s inst w kind payload
  if (succWords s 3 w).1.any sClose then closeInstance s inst else s

/-- The fire that a completion token ends. -/
def fireOf (s : State) (t : Token) : Option OutFire :=
  s.disp.fires.find? fun f => f.tmpl = t.template.toNat ∧ f.inst = t.inst.toNat

/-- R113, R122: a completion token returns its member's credit; with the last fire a CLOSING instance is FREE.
[DEDUCED, log 30] -/
def retire (s : State) (f : OutFire) : State :=
  let s := modDisp s fun d => { d with fires := dropFirst (fun g => decide (g = f)) d.fires }
  if f.counted then
    let r := instRec s f.inst
    let s := setInst s f.inst { r with outstanding := r.outstanding - 1 }
    if r.st = .closing ∧ r.outstanding ≤ 1 then freeInst s f.inst else s
  else s

/-! ### Matching -/

/-- The entry of an operation. -/
def entryOf (s : State) (tmpl inst : Nat) : Option Entry :=
  s.disp.entries.find? fun e => e.tmpl = tmpl ∧ e.inst = inst

/-- Stores an operation's entry. -/
def setEntry (s : State) (e : Entry) : State :=
  modDisp s fun d => { d with entries := d.entries.map fun x => if x.tmpl = e.tmpl ∧ x.inst = e.inst then e else x }

/-- Frees an operation's entry. -/
def dropEntry (s : State) (e : Entry) : State :=
  modDisp s fun d => { d with entries := d.entries.filter fun x => !(decide (x.tmpl = e.tmpl) && decide (x.inst = e.inst)) }

/-- Whether every port of an entry has had its token. -/
def allArrived (e : Entry) : Bool := (List.zipIdx e.ports).all fun x => x.1.isSome || e.late.contains x.2

/-- The ports of an entry that hold an error token. -/
def errPort (e : Entry) : Option PortVal := (e.ports.filterMap id).find? fun v => v.kind = 1

/-- An entry becomes ready: it takes its place in the ready order (R114), and its age begins (R116). -/
def makeReady (s : State) (e : Entry) (first : Nat) : State :=
  let s := setEntry s { e with phase := .ready, first := first, since := s.time.free, seq := s.disp.nextSeq }
  modDisp s fun d => { d with nextSeq := d.nextSeq + 1 }

/-- R106: a JOIN that every port has reached. -/
def joinReady (s : State) (e : Entry) : State :=
  match errPort e with
  | some v =>
    if tErrHandle e.words then makeReady s e 0
    else sendSuccs (dropEntry s e) e.inst e.words 1 v.payload
  | none => makeReady s e 0

/-- R107: an entry is cancelled; its successors hear of it at once. [DEDUCED, log 29; DESIGN CHOICE, log 134] -/
def cancelEntry (s : State) (e : Entry) : State :=
  let s := if allArrived e then dropEntry s e else setEntry s { e with phase := .cancelled }
  sendSuccs s e.inst e.words 2 (Config.deadPayload e.tmpl e.inst s.time.free)

/-- R102, R123: a new entry; none where the store is full (R124). -/
def newEntry (s : State) (t : Token) (w : List Word) : State × Option Entry :=
  let i := t.inst.toNat
  if 32768 ≤ s.disp.entries.length then (s, none)
  else
    let e : Entry := ⟨t.template.toNat, i, List.replicate (tPorts w) none, .waiting, tRace w, tPool w, tUrg w, 0,
      s.time.free, 0, w, []⟩
    let s := if (instRec s i).peak ≤ instEntries s i then setEvt s 0x002 1 else s
    let s := modDisp s fun d =>
      { d with entries := d.entries ++ [e], occPeak := max d.occPeak (d.entries.length + 1) }
    (s, some e)

/-- A token that an entry which cannot fire again takes up: counted, and the entry is free when every port has had
its token (R102, R104, R107). -/
def absorb (s : State) (e : Entry) (port : Nat) : State :=
  let s := incCnt s 0x002 3
  let e := { e with late := if e.late.contains port then e.late else e.late ++ [port] }
  if allArrived e && !decide (e.phase = .ready) then dropEntry s e else setEntry s e

/-- A token for a port of an operation reaches its entry (R102–R110). A cancel token cancels an entry that has not fired
whatever its port holds: between R107 and R109 the model takes R107. [DESIGN CHOICE, log 137] -/
def arriveAt (s : State) (t : Token) (e : Entry) : State :=
  let p := t.port.toNat
  let fresh := ((e.ports[p]?).getD none).isNone
  match e.phase with
  | .fired | .cancelled => absorb s e p
  | .ready =>
    if t.kind = 2 then cancelEntry s { e with late := if fresh then e.late ++ [p] else e.late }
    else if fresh then absorb s e p
    else ownErr (setEvt (incCnt s 0x002 6) 0x002 3) 0x002 6 0x05 none
  | .waiting =>
    if t.kind = 2 then cancelEntry s { e with late := if fresh then e.late ++ [p] else e.late }
    else if !fresh then ownErr (setEvt (incCnt s 0x002 6) 0x002 3) 0x002 6 0x05 none
    else
      let e := { e with ports := setAt e.ports p (some ⟨t.kind, t.payload⟩) }
      let s := setEntry s e
      if e.race then makeReady (if p = 0 then s else incCnt s 0x002 2) e p
      else if allArrived e then joinReady s e else s

/-- R147: two symbols of an operation's store word are in error. [DEDUCED, log 29; DESIGN CHOICE, log 134] -/
def loseEntry (s : State) (e : Entry) : State :=
  let s := sendTokens (dropEntry s e) e.inst e.words 1 (Config.deadPayload e.tmpl e.inst s.time.free)
  failInst (ownErr s 0x002 2 0x03 none) e.inst

/-- R108: a cancel token for an operation that has fired marks its fire. -/
def cancelFire (s : State) (tmpl inst : Nat) : State :=
  modDisp s fun d => { d with
    fires := d.fires.map fun f => if f.tmpl = tmpl ∧ f.inst = inst then { f with cancel := true } else f }

/-- An operation has fired and not completed. -/
def fireLive (s : State) (tmpl inst : Nat) : Bool :=
  s.disp.fires.any fun f => decide (f.tmpl = tmpl) && decide (f.inst = inst)

/-- A token for a port reaches the matching store; `mark` is the state of the store word that it meets (R146,
R147). [DEDUCED, log 28] -/
def matchToken (s : State) (t : Token) (cls : Nat) (w : List Word) (mark : Mark) : State :=
  let k := t.template.toNat
  let i := t.inst.toNat
  match entryOf s k i with
  | some e =>
    let s := if mark = .ce then countCe (incCnt s 0x002 8) 0x002 else s
    if mark = .ue then loseEntry s e
    else
      let s := if t.kind = 2 ∧ e.phase = .fired then cancelFire s k i else s
      arriveAt s t e
  | none =>
    if t.kind = 2 ∧ fireLive s k i then cancelFire s k i
    else
      match newEntry s t w with
      | (s, some e) => arriveAt s t e
      | (s, none) => modDisp (setEvt s 0x002 2) fun d => { d with held := d.held ++ [(t, cls)] }

/-! ### Ingress -/

/-- The template that a token needs and that is not at hand (R95): its target, and, for an OPEN instance, the LIST
templates of its target where successors may follow from it. -/
def tokMissing (s : State) (t : Token) (mark : Mark) : Option Nat :=
  match tmplCached s t.template.toNat with
  | none => some t.template.toNat
  | some w =>
    if (instRec s t.inst.toNat).st ≠ .open_ then none else
    let err := match entryOf s t.template.toNat t.inst.toNat with
      | some e => (errPort e).isSome
      | none => false
    if tokDone t || !decide (t.kind = 0) || err || decide (mark = .ue) then chainMissing s 3 w else none

/-- A completion token of an OPEN instance (R97, R100, R108, R113). -/
def completeToken (s : State) (t : Token) (w : List Word) : State :=
  match fireOf s t with
  | none => malformed s
  | some f =>
    let s := retire s f
    if f.counted then
      sendSuccs s t.inst.toNat w (if f.cancel then 2 else t.kind) t.payload
    else discard s t

/-- A token for an instance that is not OPEN is discarded, after a completion token has retired its fire (R119). -/
def closedToken (s : State) (t : Token) : State :=
  match (if tokDone t then fireOf s t else none) with
  | some f => if f.counted then retire s f else discard (retire s f) t
  | none => discard s t

/-- A token whose templates are at hand: malformed (R101), or taken by its instance's state (R119).
[DEDUCED, log 28] -/
def readyToken (s : State) (t : Token) (cls : Nat) (w : List Word) (mark : Mark) : State :=
  if tBad w || (!tokDone t && decide (tPorts w ≤ t.port.toNat)) then malformed s
  else if (instRec s t.inst.toNat).st ≠ .open_ then closedToken s t
  else if tokDone t then completeToken s t w
  else matchToken s t cls w mark

/-- A token of an operation waits for a template: the tokens that follow it wait behind it (R110). -/
def opWaits (s : State) (t : Token) : Bool :=
  s.disp.fetchQ.any fun x => decide (x.1.template = t.template ∧ x.1.inst = t.inst)

/-- A well-formed token: it waits where a template that it needs is not at hand, or behind a token of its operation that
waits (R95, R110). [DEDUCED, log 28] -/
def stateToken (s : State) (t : Token) (cls : Nat) (mark : Mark) : State :=
  if opWaits s t || (tokMissing s t mark).isSome then
    modDisp s fun d => { d with fetchQ := d.fetchQ ++ [(t, cls, mark)] }
  else readyToken s t cls (tmplWords s t.template.toNat) mark

/-- The host token ring (R150). [DESIGN CHOICE, log 26] -/
def hostRing : Ring := ⟨0x002, 0x138, 0x140, 0x144, 0x148, 16, 6, 8, 16⟩

/-- A completion token returns its credit where nothing is forwarded for it (R113, R893). [DEDUCED, log 32] -/
def retireDone (s : State) (t : Token) : State :=
  if tokDone t then (match fireOf s t with | some f => retire s f | none => s) else s

/-- A token in hardware mode: discarded while the dispatcher is not enabled (R893), or malformed in itself (R101). -/
def admitToken (s : State) (t : Token) (cls : Nat) (mark : Mark) : State :=
  if !enabled s 0x002 then discard (retireDone s t) t
  else if t.kind = 3 ∨ t.rsvd ≠ 0 ∨ t.flags.toNat % 16 ≠ 0 then malformed s
  else stateToken s t cls mark

/-- HA_RING_SIZE is outside 8–16 (R149, R156). -/
def hostRingBad (s : State) : Bool :=
  decide (bits (getReg s 0x002 0x140) 4 0 < 8) || decide (16 < bits (getReg s 0x002 0x140) 4 0)

/-- R150, R151: a token leaves for the host's ring; a ring that this fills stalls ingress. With a ring that is misconfigured
the token is dropped, and captured with CODE 0x08. [DESIGN CHOICE, log 32] -/
def exportToken (s : State) (t : Token) : State :=
  let s := retireDone s t
  if hostRingBad s then ownErr s 0x002 6 0x08 none
  else
    let s := hostRing.push s (tokenBytes t)
    if hostRing.full s then setEvt s 0x002 5 else s

/-- R151: ingress is stalled in host-assisted mode. -/
def haStalled (s : State) : Bool := !s.disp.held.isEmpty || (hostRing.full s && !hostRingBad s)

/-- A token reaches the matching logic. [DEDUCED, log 28] -/
def acceptToken (s : State) (t : Token) (cls : Nat) (mark : Mark) : State :=
  let s := incCnt s 0x002 0
  if haActive s 0x002 then
    if haStalled s then modDisp s fun d => { d with held := d.held ++ [(t, cls)] } else exportToken s t
  else if enabled s 0x002 && s.disp.held.any fun h => h.2 = cls then modDisp s fun d => { d with held := d.held ++ [(t, cls)] }
  else admitToken s t cls mark

/-- A token that is taken from the ingress is no longer there. -/
def takeIngress (s : State) (t : Token) (cls : Nat) : State :=
  modDisp s fun d => { d with ingress := dropFirst (fun x => decide (x = (t, cls))) d.ingress }

/-- Inserts a token behind those of its class and of lower class numbers (R110). -/
def insertCls (x : TokIn) : List TokIn → List TokIn
  | [] => [x]
  | y :: ys => if y.cls ≤ x.cls then y :: insertCls x ys else x :: y :: ys

/-- Tokens in class order, first come first (R110). -/
def byClass (ts : List TokIn) : List TokIn := ts.foldl (fun acc x => insertCls x acc) []

/-- Tokens of one operation. -/
def sameOp (x y : TokIn) : Bool := decide (x.tok.template = y.tok.template) && decide (x.tok.inst = y.tok.inst)

/-- Inserts a token by port number. -/
def insertPort (x : TokIn) : List TokIn → List TokIn
  | [] => [x]
  | y :: ys => if y.tok.port ≤ x.tok.port then y :: insertPort x ys else x :: y :: ys

/-- R105: the tokens of one RACE operation in a cycle take their places by port number. -/
def raceTie (s : State) (ts : List TokIn) : List TokIn :=
  (List.zipIdx ts).map fun (x, n) =>
    if tRace (tmplWords s x.tok.template.toNat) && !tokDone x.tok then
      let grp := (ts.filter fun y => sameOp x y && !tokDone y.tok).foldl (fun acc y => insertPort y acc) []
      let rank := ((ts.take n).filter fun y => sameOp x y && !tokDone y.tok).length
      (grp[rank]?).getD x
    else x

/-- DISP_TOKEN. -/
def execDispToken (ts : List TokIn) (s : State) : Host.Outcome State Fault Refusal :=
  .next (whileRuns 0x002 (fun s =>
    (raceTie s (byClass ts)).foldl (fun s x => acceptToken (takeIngress s x.tok x.cls.val) x.tok x.cls.val x.store) s) s)

/-- COMPLETION_TOKEN. -/
def execCompletionToken (t : Token) (cls : Fin 4) (s : State) : Host.Outcome State Fault Refusal :=
  .next (whileRuns 0x002 (fun s => acceptToken (takeIngress s t cls.val) t cls.val .clean) s)

/-- The held token that enters next: the oldest of class `u`, and in host-assisted mode the oldest of all (R124, R150). -/
def heldNext (s : State) (u : Nat) : Option (Token × Nat) :=
  if haActive s 0x002 then s.disp.held.head? else s.disp.held.find? fun h => h.2 = u

/-- The held token enters where there is room for it (R124, R151). -/
def unstallSt (u : Nat) (s : State) : State :=
  match heldNext s u with
  | none => s
  | some (t, cls) =>
    let rest := modDisp s fun d => { d with held := dropFirst (fun x => decide (x = (t, cls))) d.held }
    if haActive s 0x002 then
      if hostRing.full s && !hostRingBad s then s else exportToken rest t
    else if 32768 ≤ s.disp.entries.length then s
    else admitToken rest t cls .clean

/-- INGRESS_UNSTALL (R124, R151). -/
def execIngressUnstall (u : Fin 4) (s : State) : Host.Outcome State Fault Refusal := .next (whileRuns 0x002 (unstallSt u.val) s)

/-- Templates that the cache holds. -/
def cacheSize : Nat := 4096

/-- R95: a fetched template enters the cache; the oldest that is not pinned makes room, if there is one. -/
def cacheAdd (d : DispSt) (t : Nat) (w : List Word) : DispSt :=
  if cacheSize ≤ d.pinned then d
  else if d.cache.length < cacheSize then { d with cache := d.cache ++ [(t, w)] }
  else { d with cache := dropAt d.cache d.pinned ++ [(t, w)] }

/-- The templates at hand for waiting tokens enter the cache once no token waits; an unused one never does (R94, R95).
[DESIGN CHOICE, log 28] -/
def cacheFetched (s : State) : State :=
  if !s.disp.fetchQ.isEmpty then s
  else modDisp s fun d =>
    (d.fetched.filter fun e => tUsed e.2).foldl (fun d e => cacheAdd d e.1 e.2) { d with fetched := [] }

/-- The tokens that wait are looked at again, in order. -/
def retryTokens (s : State) : State :=
  let q := s.disp.fetchQ
  cacheFetched (q.foldl (fun s x => stateToken s x.1 x.2.1 x.2.2) (modDisp s fun d => { d with fetchQ := [] }))

/-- R148: the operation of a token whose template cannot be read does not fire, and its instance fails; for an instance that
is not OPEN the token is discarded. -/
def fetchFailed (s : State) (t : Token) : State :=
  if (instRec s t.inst.toNat).st ≠ .open_ then closedToken s t else failInst (retireDone s t) t.inst.toNat

/-- Whether a read of a template failed, with the class and code of its capture (R94, R148). -/
def readFault (timedOut : Bool) (r : Resp) : Option (Nat × Nat) :=
  if timedOut then some (3, 0x09)
  else match r with
  | .ok => none
  | .poison => some (2, 0x04)
  | _ => some (3, 0x09)

/-- TEMPLATE_FETCH_DONE: the read of template `t`, for the tokens that wait for it (R95, R148); an unused template is at hand for
them and never cached (R94). -/
def execTemplateFetchDone (t : BitVec 16) (timedOut : Bool) (s : State) : Host.Outcome State Fault Refusal :=
  let q := s.disp.fetchQ
  let mine := q.filter fun x => decide (tokMissing s x.1 x.2.2 = some t.toNat)
  if mine.isEmpty || !blockRuns s 0x002 then .next s
  else
    let a := tmplAddr s t.toNat
    let (s, r, d) := memRead s 0x002 a 32
    match readFault timedOut r with
    | some (cls, code) =>
      let s := modDisp s fun d => { d with fetchQ := q.filter fun x => !(mine.any fun y => decide (y = x)) }
      .next (retryTokens (mine.foldl (fun s x => fetchFailed s x.1) (ownErr s 0x002 cls code (some a))))
    | none =>
      let w := (List.range 8).map (wordAt d)
      .next (retryTokens (modDisp s fun x => { x with fetched := x.fetched ++ [(t.toNat, w)] }))

/-- Inserts a number into a list in rising order, once. -/
def insertNat (x : Nat) : List Nat → List Nat
  | [] => [x]
  | y :: ys => if x < y then x :: y :: ys else if x = y then y :: ys else y :: insertNat x ys

/-- The templates that a load has to look at: those with a byte that is not 0 or with an error mark, and the first of
each memory bank. -/
def loadSet (s : State) : List Nat :=
  let base := (region s (tmplAddr s 0)).key
  let inArea (k : Nat) : Option Nat := if base ≤ k ∧ k < base + 2 ^ 21 then some ((k - base) / 32) else none
  let marks := s.memErr.flatMap fun e =>
    if e.2 = .ue then (match inArea e.1 with | some t => [t] | none => []) else []
  (s.mem.filterMap fun e => inArea e.1).foldl (fun acc t => insertNat t acc)
    (marks.foldl (fun acc t => insertNat t acc) [0, 32768])

/-- R94: the templates that the load pins, or the read that fails. -/
def loadTmpls (timedOut : Option Nat) : List Nat → State → List (Nat × List Word) →
    State × Except (Nat × Nat × Nat) (List (Nat × List Word))
  | [], s, acc => (s, .ok acc.reverse)
  | t :: ts, s, acc =>
    let a := tmplAddr s t
    let (s, r, d) := memRead s 0x002 a 32
    match readFault (timedOut = some t) r with
    | some (cls, code) => (s, .error (cls, code, a))
    | none =>
      let w := (List.range 8).map (wordAt d)
      loadTmpls timedOut ts s (if tUsed w && decide (tUrg w = 0) then (t, w) :: acc else acc)

/-- DISP_TEMPLATE_LOAD_DONE (R94). -/
def execDispTemplateLoadDone (timedOut : Option (BitVec 16)) (s : State) : Host.Outcome State Fault Refusal :=
  if !s.disp.loading || !blockRuns s 0x002 then .next s
  else
    let s := modDisp s fun d => { d with loading := false }
    let tmo := timedOut.map (·.toNat)
    let todo := match tmo with
      | some t => insertNat t (loadSet s)
      | none => loadSet s
    match loadTmpls tmo todo s [] with
    | (s, .error (cls, code, a)) => .next (ownErr s 0x002 cls code (some a))
    | (s, .ok ts) =>
      if cacheSize < ts.length then .next (ownErr s 0x002 6 0x07 none)
      else .next (setEnabled (modDisp s fun d => { d with cache := ts, pinned := ts.length, fetched := [] }) 0x002 true)

/-! ### Issue -/

/-- MEMBER_CTL.EN of a member (R117). -/
def memberEn (s : State) (pool m : Nat) : Bool := !s.disp.disabled.contains (pool * 256 + m)

/-- Fires queued or running on a member (R156). -/
def memberQueued (s : State) (pool m : Nat) : Nat :=
  (s.disp.fires.filter fun f => f.pool = pool ∧ f.member = m).length

/-- The channel that holds a fire's credit: DMA credits are held by channel (R96). -/
def creditChan (pool opcode : Nat) : Nat := if pool = 6 then opcode % 128 else 0

/-- A member may receive a fire (R112, R113). -/
def memberFree (s : State) (pool m opcode : Nat) : Bool :=
  decide (m < (poolSize pool).1) && memberEn s pool m &&
    decide ((s.disp.fires.filter fun f => f.pool = pool ∧ f.member = m ∧ f.chan = creditChan pool opcode).length <
      (poolSize pool).2)

/-- R112: the member that a ready operation issues to. -/
def chooseMember (s : State) (e : Entry) : Option Nat :=
  let lo := tFirst e.words
  let n := tLast e.words + 1 - lo
  let start := match kget 0 s.disp.prev e.tmpl with
    | 0 => 0
    | k + 1 => (k + 1 - lo) % n
  ((List.range n).map fun j => lo + (start + j) % n).find? fun m => memberFree s e.pool m (tOpcode e.words)

/-- An operation that may issue: a ready entry or a posted record, with its class and place in the order. -/
inductive Cand where
  | entry (e : Entry) (m : Nat)
  | posted (p : Posted)

/-- A candidate's class and place (R114). -/
def Cand.key : Cand → Nat × Nat
  | .entry e _ => (e.cls, e.seq)
  | .posted p => (p.cls, p.seq)

/-- Of two candidates, the one that issues first (R114). -/
def Cand.first (a b : Cand) : Cand :=
  if a.key.1 < b.key.1 ∨ (a.key.1 = b.key.1 ∧ a.key.2 ≤ b.key.2) then a else b

/-- The operations of a pool that may issue now. -/
def candidates (s : State) (pool : Nat) : List Cand :=
  (s.disp.entries.filterMap fun e =>
    if e.phase = .ready ∧ e.pool = pool then (chooseMember s e).map (Cand.entry e) else none) ++
  (s.disp.posted.filterMap fun p =>
    if p.rec_.pool.toNat = pool ∧ memberFree s pool p.rec_.member.toNat p.rec_.opcode.toNat then some (.posted p)
    else none)

/-- The fire record of an entry (R111). -/
def entryRecord (s : State) (e : Entry) (m : Nat) : FireRec :=
  let pv (p : Nat) : Option PortVal := (e.ports[p]?).getD none
  let pay (p : Nat) : Dword := match pv p with | some v => v.payload | none => 0
  let has (p : Nat) : Nat := if (pv p).isSome then 2 ^ p else 0
  let err (p : Nat) : Nat := match pv p with | some v => if v.kind = 1 then 2 ^ p else 0 | none => 0
  ⟨BitVec.ofNat 16 e.tmpl, BitVec.ofNat 16 e.inst, BitVec.ofNat 16 (tOpcode e.words),
    BitVec.ofNat 4 (has 0 + has 1 + has 2 + has 3), BitVec.ofNat 4 (err 0 + err 1 + err 2 + err 3),
    BitVec.ofNat 2 e.first, BitVec.ofNat 2 e.cls, e.race, pay 0, pay 1, pay 2, pay 3,
    BitVec.ofNat 4 e.pool, BitVec.ofNat 8 m, slice s⟩

/-- A fire is counted (R156) and leaves for its member. -/
def issueFire (s : State) (f : FireRec) (counted : Bool) : State :=
  let s := incCnt s 0x002 1
  let s := if f.urg = 3 then s else incCnt s 0x002 (12 + f.urg.toNat)
  let s := modDisp s fun d => { d with
    fires := d.fires ++ [⟨f.template.toNat, f.inst.toNat, f.pool.toNat, f.member.toNat,
      creditChan f.pool.toNat f.opcode.toNat, false, counted⟩] }
  routeFire s f

/-- An entry issues: a JOIN's entry is free, a RACE's stays until all its ports have arrived (R102). -/
def issueEntry (s : State) (e : Entry) (m : Nat) : State :=
  let f := entryRecord s e m
  let s := if !e.race || allArrived e then dropEntry s e else setEntry s { e with phase := .fired }
  let r := instRec s e.inst
  let s := setInst s e.inst { r with outstanding := r.outstanding + 1 }
  issueFire (modDisp s fun d => { d with prev := kset 0 d.prev e.tmpl (m + 1) }) f true

/-- R153: room in a port's queue takes the oldest post that the endpoint holds back for it. -/
def postRoom (port : Nat) (s : State) : State :=
  match s.disp.postHeld.find? fun p => p.port = port with
  | none => s
  | some p => modDisp s fun d => { d with
      postHeld := dropFirst (fun x => decide (x = p)) d.postHeld
      posted := d.posted ++ [{ p with since := s.time.free, seq := d.nextSeq }], nextSeq := d.nextSeq + 1 }

/-- FIRE_ISSUE: the dispatcher issues the first operation of a pool that may issue (R112–R114, R145); what was ready when the
dispatcher was disabled still issues (R55). -/
def execFireIssue (pool : Fin 16) (s : State) : Host.Outcome State Fault Refusal :=
  if s.disp.stopped || !blockRuns s 0x002 then .next s
  else match candidates s pool.val with
  | [] => .next s
  | c :: cs =>
    match cs.foldl Cand.first c with
    | .entry e m => .next (issueEntry s e m)
    | .posted p =>
      let s := postRoom p.port (modDisp s fun d => { d with posted := dropFirst (fun x => decide (x = p)) d.posted })
      .next (issueFire s { p.rec_ with urg := BitVec.ofNat 2 p.cls, issueNs := slice s } false)

/-- AGE_PROMOTION (R116). -/
def execAgePromotion (t inst : BitVec 16) (s : State) : Host.Outcome State Fault Refusal :=
  let lim := bits (getReg s 0x002 0x118) 15 0
  match entryOf s t.toNat inst.toNat with
  | none => .next s
  | some e =>
    if e.phase = .ready ∧ 2 ≤ e.cls ∧ lim ≠ 0 ∧ usSince s e.since lim then
      .next (incCnt (setEntry s { e with cls := e.cls - 1, since := s.time.free }) 0x002 11)
    else .next s

/-! ### Open ports -/

/-- OPEN_LIMIT (R156). -/
def openLimit (s : State) : Nat := min 30720 (bits (getReg s 0x002 0x114) 15 0)

/-- OPEN_STS of a port: DONE and a result. -/
def openDone (s : State) (n r : Nat) : State := setReg s 0x002 (0x15C + 0x10 * n) (w32 (2 ^ 31 + r))

/-- A command of an open port, where its write reaches the page (R119, R155). [DEDUCED, log 34] -/
def openCmd (a : Acc) (n : Fin 9) (f : State → State) (s : State) : State :=
  onPage a 0x002 (0x158 + 0x10 * n.val) (fun s => if haActive s 0x002 then openDone s n.val 4 else f s) s

/-- The instance that an open port names. [DEDUCED, log 34] -/
def openInst (s : State) (n : Fin 9) : Nat := bits (getReg s 0x002 (0x150 + 0x10 * n.val)) 15 0

/-- OPEN (R120, R121). -/
def execOpen (a : Acc) (n : Fin 9) (s : State) : Host.Outcome State Fault Refusal :=
  .next (openCmd a n (fun s =>
    let i := openInst s n
    let peak := bits (getReg s 0x002 (0x154 + 0x10 * n.val)) 15 0
    if peak = 0 ∨ 1024 < peak then openDone s n.val 3
    else if (instRec s i).st ≠ .free then openDone s n.val 2
    else if openLimit s < reserved s + peak ∨ headroom s ≠ 0 then
      openDone (setEvt (incCnt s 0x002 5) 0x002 0) n.val 1
    else openDone (setInst s i ⟨.open_, peak, 0⟩) n.val 0) s)

/-- CLOSE (R122). -/
def execClose (a : Acc) (n : Fin 9) (s : State) : Host.Outcome State Fault Refusal :=
  .next (openCmd a n (fun s =>
    let i := openInst s n
    match (instRec s i).st with
    | .free => openDone s n.val 5
    | .closing => openDone s n.val 0
    | _ => openDone (closeInstance s i) n.val 0) s)

/-- R126: an instance becomes FREE at once; its fires hold their credits and no longer count for it.
[DEDUCED, log 30; DEDUCED, log 34] -/
def forceFree (s : State) (i : Nat) : State :=
  let s := modDisp s fun d => { d with
    entries := d.entries.filter fun e => !decide (e.inst = i)
    fires := d.fires.map fun f => if f.inst = i then { f with counted := false } else f }
  freeInst s i

/-- FORCE (R126). -/
def execForce (a : Acc) (n : Fin 9) (s : State) : Host.Outcome State Fault Refusal :=
  .next (openCmd a n (fun s =>
    let i := openInst s n
    match (instRec s i).st with
    | .closing | .failed => openDone (forceFree s i) n.val 0
    | _ => openDone s n.val 5) s)

/-! ### Protection -/

/-- R145: the dispatcher stops issuing and raises the fatal event. -/
def dispFatal (s : State) : State :=
  let s := modDisp (ownErr s 0x002 5 0x02 none) fun d => { d with stopped := true }
  { s with evt := { s.evt with fatalPend := s.evt.fatalPend ++ [1] } }

/-- VOTER_MINORITY (R144); a disagreement during a reload is R145's. -/
def execVoterMinority (r : Fin 3) (s : State) : Host.Outcome State Fault Refusal :=
  let s := incCnt s 0x002 9
  if bit (getReg s 0x002 0x134) 8 then .next (dispFatal s)
  else .next (ownErr (setReg s 0x002 0x134 (w32 (2 ^ 8 + 2 ^ r.val))) 0x002 5 0x01 none)

/-- MINORITY_RELOAD_DONE (R144). -/
def execMinorityReloadDone (s : State) : Host.Outcome State Fault Refusal :=
  .next (modReg s 0x002 0x134 fun w => putBit w 8 false)

/-- NO_MAJORITY (R145). -/
def execNoMajority (s : State) : Host.Outcome State Fault Refusal := .next (dispFatal (incCnt s 0x002 9))

/-! ### Posting -/

/-- Why a posted record is not accepted: the dispatcher is not in host-assisted mode, its ring is misconfigured, or no
member has that name. R149 gives only the name of CODE 0x08; which records it means, and that such a record is dropped,
is the model's choice. [DESIGN CHOICE, log 32] -/
def postBad (s : State) (f : FireRec) : Bool :=
  !haActive s 0x002 || hostRingBad s || decide ((poolSize f.pool.toNat).1 ≤ f.member.toNat)

/-- A record is queued at a posting port, or held back while the port's 1,024 places are taken (R153). -/
def postRecord (n u : Nat) (f : FireRec) (s : State) : State :=
  let p : Posted := ⟨n, u, s.time.free, s.disp.nextSeq, f⟩
  if 1024 ≤ (s.disp.posted.filter fun p => p.port = n).length then modDisp s fun d => { d with postHeld := d.postHeld ++ [p] }
  else modDisp s fun d => { d with posted := d.posted ++ [p], nextSeq := d.nextSeq + 1 }

/-- POST_FIRE_RECORD (R152, R153). [DEDUCED, log 32] -/
def execPostFireRecord (a : Acc) (n : Fin 8) (u : Fin 4) (v : Word) (s : State) : Host.Outcome State Fault Refusal :=
  .next (onPage a (0x268 + n.val) (u.val * 0x100 + 0x3C) (fun s =>
    let s := setReg s (0x268 + n.val) (u.val * 0x100 + 0x3C) v
    let f := fireOfWords ((List.range 16).map fun i => getReg s (0x268 + n.val) (u.val * 0x100 + 4 * i))
    if postBad s f then ownErr s 0x002 6 0x08 none else postRecord n.val u.val f s) s)

end Sys2Proof.Machine
end

