-- ==== Sys2Proof/Machine/Cluster.lean ====
section
/-! DEFINITION. The clusters (R411–R413): the core map and the copy of a core's local memory to a spare core. -/

namespace Sys2Proof.Machine

/-- The page of cluster `c`. -/
def clusterPage (c : Nat) : Nat := 0x010 + c

/-- Nibble `k` of a CORE_MAP value. -/
def mapNibble (v : Word) (k : Nat) : Nat := bits v (4 * k + 3) (4 * k)

/-- The logical cores of a cluster whose nibble a CORE_MAP value changes. [DEDUCED, log 55] -/
def mapChanged (s : State) (c : Nat) (v : Word) : List Nat :=
  (List.range 8).filter fun k => !decide (mapNibble (coreMapOf s c) k = mapNibble v k)

/-- R412: a value that names one physical index for two logical cores, or moves a logical core that the dispatcher
may fire on or that is not idle. [DEDUCED, log 55] -/
def mapRefused (s : State) (c : Nat) (v : Word) : Bool :=
  ((List.range 8).any fun k => (List.range 8).any fun j =>
    decide (k < j) && decide (mapNibble v k < 9) && decide (mapNibble v k = mapNibble v j)) ||
  (mapChanged s c v).any fun k => memberEn s 0 (8 * c + k) || decide (memberQueued s 0 (8 * c + k) ≠ 0)

/-- R412, R418: CORE_MAP takes a value: cores behind no logical core are held in reset, those that come to back one
start where their page is enabled. -/
def coreMapSt (c : Nat) (v : Word) (s : State) : State :=
  if mapRefused s c v then ownErr s (clusterPage c) 6 0x30 none
  else
    let ks := mapChanged s c v
    let olds := ks.filterMap fun k => physOf s (8 * c + k)
    let s := { s with coreMap := kset none s.coreMap c (some v) }
    let news := ks.filterMap fun k => physOf s (8 * c + k)
    let s := olds.foldl (fun s p => coreHold p s) s
    news.foldl (fun s p => if enabled s (corePage p) then coreStart p (coreHold p s) else s) s

/-- A memory key lies in the local memory of physical core `p`. -/
def inCore (p k : Nat) : Bool := decide (coreKey p 0 ≤ k) && decide (k < coreKey p 0 + 0xA0000)

/-- The local memory of physical core `src` written to that of `dst`, apart from the words of `skip` (R413).
[DEDUCED, log 56] -/
def copyLocal (src dst : Nat) (skip : List Nat) (s : State) : State :=
  let left (k : Nat) : Bool := skip.contains (k % 2 ^ 20 / 8 * 8)
  let cells := s.mem.filter fun e => inCore src e.1 && !left e.1
  let s := { s with
    mem := s.mem.filter fun e => !inCore dst e.1 || left e.1
    memErr := s.memErr.filter fun e => !inCore dst e.1 || left e.1 }
  cells.foldl (fun s e => setByte s (coreKey dst (e.1 % 2 ^ 20)) e.2) s

/-- R413: the copy of cluster `c` is complete. [DEDUCED, log 56] -/
def spareDoneSt (c : Nat) (s : State) : State :=
  match kget none s.spareJobs c with
  | none => s
  | some j =>
    let src := 9 * c + j / 16
    let dst := 9 * c + j % 16
    let marks := (s.memErr.filter fun e => inCore src e.1).map (·.1)
    let (s, bad) := marks.foldl (fun (acc : State × List Nat) k =>
      let r := readArrayWord 1 k acc.1
      (r.1, if r.2 then acc.2 ++ [k] else acc.2)) (s, [])
    let s := copyLocal src dst (bad.map (· % 2 ^ 20)) s
    let s := bad.foldl (fun s k => ownErr s (clusterPage c) 2 0x31 (some (capAddr s k))) s
    let s := { s with spareJobs := kset none s.spareJobs c none }
    setReg s (clusterPage c) 0x108 (w32 (2 ^ 31 + (if bad.isEmpty then 0 else 2 ^ 29) + 10240))

/-- SPARE_CMD (R411, R413): COPY starts while none runs; the source and the destination are cores of the cluster. -/
def spareCopySt (c : Nat) (v : Word) (s : State) : State :=
  let src := bits v 7 4
  let dst := bits v 11 8
  if bits v 1 0 ≠ 1 ∨ (kget none s.spareJobs c).isSome ∨ 9 ≤ src ∨ 9 ≤ dst then s
  else setReg { s with spareJobs := kset none s.spareJobs c (some (src * 16 + dst)) } (clusterPage c) 0x108 0x40000000

/-- A reset of the page or its domain OFF ends a copy. -/
def clusterDrop (c : Nat) (s : State) : State := { s with spareJobs := kset none s.spareJobs c none }

/-- CORE_MAP_WRITE (R412). -/
def execCoreMapWrite (a : Acc) (c : Fin 16) (v : Word) (s : State) : Host.Outcome State Fault Refusal :=
  .next (onPage a (clusterPage c) 0x100 (coreMapSt c v) s)

/-- SPARE_COPY (R413). -/
def execSpareCopy (a : Acc) (c : Fin 16) (v : Word) (s : State) : Host.Outcome State Fault Refusal :=
  .next (onPage a (clusterPage c) 0x104 (spareCopySt c v) s)

/-- SPARE_COPY_DONE (R413). -/
def execSpareCopyDone (c : Fin 16) (s : State) : Host.Outcome State Fault Refusal :=
  .next (whileRuns (clusterPage c) (spareDoneSt c) s)

end Sys2Proof.Machine
end

