-- ==== Sys2Proof/Machine/Conv.lean ====
section
/-! DEFINITION. The JESD204 links of the converter quads and the spare lanes (R157–R182, R224, R225). -/

namespace Sys2Proof.Machine

/-- A quad's link is a 204C link. -/
def quadC (s : State) (q : Nat) : Bool := match quadPset s q with | some p => p.c | none => true

/-- K of a 204B link (R224). -/
def linkK (s : State) (q : Nat) : Nat := bits (getReg s (quadPage q) 0x104) 4 0 + 1

/-- The LEMC period of a link in lane samples: 256·S/F for 204C, S·K for 204B; it is not 0. -/
def lemcPeriod (s : State) (q : Nat) : Nat :=
  match quadPset s q with
  | some p => max 1 (if p.c then 256 * p.s / p.f else p.s * linkK s q)
  | none => 1

/-- A lane-alignment boundary of a quad's link: its group is at an LEMC edge. -/
def laneEdge (s : State) (q : Nat) : Bool := laneNo s (q / 8) % lemcPeriod s q == 0

/-- A lane rate in kbit/s (R161). -/
def laneKbps (c : Bool) (f sm fs : Nat) : Nat := if c then f * 8 * fs / sm * 66 / 64 else f * 10 * fs / sm

/-- R163: a quad's parameter set exists, and its lane rate lies in the standard's range. -/
def linkCfgOk (s : State) (q : Nat) : Bool :=
  match quadPset s q with
  | none => false
  | some p =>
    let r := laneKbps p.c p.f p.s (laneRate s (q / 8))
    decide (1250000 ≤ r) && decide (r ≤ (if p.c then 32500000 else 16000000))

/-- LINK_CFG.RX_EN. -/
def rxEn (s : State) (q : Nat) : Bool := bit (getReg s (quadPage q) 0x100) 8

/-- LINK_CFG.TX_EN. -/
def txEn (s : State) (q : Nat) : Bool := bit (getReg s (quadPage q) 0x100) 9

/-- Bring-up steps 3–5 begin: the lanes lock; a link that only transmits waits for SYSREF where its LEMC is not aligned yet.
[DEDUCED, log 36] -/
def linkLocking (q : Nat) (s : State) : State :=
  setLink s q { LinkSt.init with
    st := if rxEn s q || (linkOf s q).aligned then 1 else 3, armed := (linkOf s q).armed, aligned := (linkOf s q).aligned }

/-- The lanes of a quad go to the states that R685 and LN_CTRL give them. -/
def quadPower (q : Nat) (s : State) : State := (List.range 4).foldl (fun s l => laneDomain (quadPage q) l 2 s) s

/-- The enable of a quad's page (R163, bring-up step 2). -/
def linkEnable (q : Nat) (s : State) : State :=
  if !linkCfgOk s q then ownErr (setLink s q LinkSt.init) (quadPage q) 6 0x01 none
  else if rxEn s q || txEn s q then quadPower q (linkLocking q s) else s

/-- The page is disabled or reset: the link is DOWN. -/
def linkDrop (q : Nat) (s : State) : State :=
  let s := setLink s q LinkSt.init
  if pageOn s (quadPage q) then quadPower q s else s

/-- R770: the domain is ON again; steps 3–5 run, and the link realigns on the next SYSREF edge. -/
def linkResume (q : Nat) (s : State) : State :=
  if enabled s (quadPage q) ∧ (linkOf s q).st ≠ 0 then
    linkLocking q (setLink s q { linkOf s q with armed := true, aligned := false })
  else s

/-- SYSREF_ARM (R172): bring-up step 2. -/
def sysrefArmSt (q : Nat) (v : Word) (s : State) : State :=
  let s := setReg s (quadPage q) 0x108 (v &&& 0x00FF0003)
  if bit v 8 then setLink s q { linkOf s q with armed := true } else s

/-- LANE_SYNC_ACQUIRED (R165, bring-up step 3). -/
def laneSyncSt (q l : Nat) (s : State) : State :=
  let x := linkOf s q
  if x.st = 1 ∧ l < quadLanes s q then
    let lock := x.lock ||| BitVec.ofNat 4 (2 ^ l)
    let all := decide (2 ^ quadLanes s q - 1 ≤ lock.toNat)
    setLink s q { x with lock := lock, st := if all then 2 else 1 }
  else s

/-- The link parameters that LINK_CFG and LINK_K ask for. -/
def wantedIlas (s : State) (q : Nat) : Option Ilas :=
  (quadPset s q).map fun p =>
    ⟨p.l, p.m, p.f, p.s, linkK s q, bit (getReg s (quadPage q) 0x100) 12, p.n, p.np, p.cs, p.hd⟩

/-- ILAS_RECEIVED (R166, bring-up step 4). A link whose LEMC is aligned runs on. [DEDUCED, log 36] -/
def ilasSt (q : Nat) (ilas : Option Ilas) (s : State) : State :=
  let x := linkOf s q
  if x.st ≠ 2 ∨ (quadC s q = ilas.isSome) then s
  else if ilas.isSome ∧ ilas ≠ wantedIlas s q then
    ownErr (setEvt (setLink s q { x with st := 5 }) (quadPage q) 5) (quadPage q) 4 0x02 none
  else setLink s q { x with st := if x.aligned && !x.armed then 4 else 3 }

/-- The signed distance in lane samples from the nearest LEMC edge of a quad's link to the sample that the group is at
(R173). -/
def lemcError (s : State) (q : Nat) (n : Int) : Int :=
  let p : Nat := lemcPeriod s q
  let r := (n - (lemcOf s (q / 8)).epoch) % p
  if 2 * r ≤ p then r else r - p

/-- The longest LEMC period of the running links of a group. -/
def groupPeriod (s : State) (k : Nat) : Nat :=
  (((List.range 8).filter fun i => (linkOf s (8 * k + i)).st = 4).map fun i => lemcPeriod s (8 * k + i)).foldl max 1

/-- The LEMC of a group takes its epoch from a SYSREF edge at lane sample `e`. Where it moves under running links, their
samples are wrong for two LEMC periods (R174). [DEDUCED, log 35] -/
def alignLemc (k : Nat) (e : Int) (s : State) : State :=
  let x := lemcOf s k
  let moves := (List.range 8).any fun i =>
    decide ((linkOf s (8 * k + i)).st = 4 ∧ (e - x.epoch) % lemcPeriod s (8 * k + i) ≠ 0)
  setLemc s k { x with epoch := e, wrongTo := if moves then laneAbs s k + 2 * groupPeriod s k else x.wrongTo }

/-- The edge counts as seen (R224): every edge that reaches an enabled page, but in mode 0 none after alignment. The spec does
not say whether edges before WAIT_SYSREF count. [DESIGN CHOICE, log 36] -/
def edgeSeen (s : State) (q : Nat) : State :=
  let mode := bits (getReg s (quadPage q) 0x108) 1 0
  if mode = 0 && (linkOf s q).aligned && !(linkOf s q).armed then s
  else modReg s (quadPage q) 0x114 fun w => putBits w 31 16 (bits w 31 16 + 1)

/-- A SYSREF edge as one quad sees it (R172, R173): `err` is the signed phase error in cycles; whether the LEMC takes its
epoch from this edge. -/
def sysrefAt (q : Nat) (err : Int) (s : State) : State × Bool :=
  let p := quadPage q
  if !enabled s p ∨ (linkOf s q).st = 0 then (s, false)
  else
    let s := edgeSeen s q
    let x := linkOf s q
    let cfg := getReg s p 0x108
    let mode := if bits cfg 1 0 = 3 then 1 else bits cfg 1 0
    if x.armed ∧ (x.st = 3 ∨ x.st = 4) then
      let s := if x.aligned then incCnt s p 6 else s
      (setEvt (setLink s q { x with st := 4, armed := false, aligned := true, eb := [[], [], [], []] }) p 4, true)
    else if !x.aligned ∨ mode = 0 then (s, false)
    else
      if bits cfg 23 16 < err.natAbs then
        let s := ownErr (incCnt (setEvt (modReg s p 0x114 fun w => putBits w 15 0 (wrapN 16 err)) p 2) p 5) p 4 0x04 none
        if mode = 2 then (incCnt s p 6, true) else (s, false)
      else (s, false)

/-- SYSREF_EDGE: an edge for the group of DFE `k`, sampled at the lane sample that the group is at, or at the next one. Every quad compares it
with the LEMC as it stands; then the LEMC is aligned to it where a quad does so. [DEDUCED, log 36] -/
def sysrefEdgeSt (k : Nat) (late : Bool) (s : State) : State :=
  let at_ := laneAbs s k + if late then 1 else 0
  let (s', hit) := (List.range 8).foldl (fun (x : State × Bool) i =>
    let (t, b) := sysrefAt (8 * k + i) (lemcError s (8 * k + i) at_) x.1
    (t, x.2 || b)) (s, false)
  let s' := if hit then alignLemc k at_ s' else s'
  setLemc s' k { lemcOf s' k with edge := some at_ }

/-- LOSS_LIMIT (R224). -/
def lossLimit (s : State) (q : Nat) : Nat := max 1 (bits (getReg s (quadPage q) 0x124) 7 0)

/-- Counts a block of a lane as good or bad. -/
def countBlock (x : LinkSt) (l : Nat) (ok : Bool) : LinkSt :=
  if ok then { x with good := setAt x.good l ((x.good[l]?).getD 0 + 1), bad := setAt x.bad l 0 }
  else { x with bad := setAt x.bad l ((x.bad[l]?).getD 0 + 1), good := setAt x.good l 0 }

/-- R168: EB_DEPTH of a lane: how many cycles before release its multiblock came. For a lane whose multiblock has not come at
release the spec states no value; the model records 0, and 255 for a greater depth. [DESIGN CHOICE, log 141] -/
def ebDepth (q l : Nat) (depth : Option Nat) (s : State) : State :=
  let p := quadPage q
  let s := modReg s p 0x118 fun w => putBits w (8 * l + 7) (8 * l) (min 255 (depth.getD 0))
  match depth with
  | some d => if d < 8 then setEvt s p 3 else s
  | none => s

/-- A lane's multiblock arrives (R167, R168): it waits in the elastic buffer; one that was due at the last release is too
late, and its samples stay wrong. -/
def ebArrive (q l : Nat) (octets : List Byte) (s : State) : State :=
  let p := quadPage q
  let x := linkOf s q
  if ((x.cur[l]?).getD (some [])).isNone && ((x.eb[l]?).getD []).isEmpty then
    ownErr (setEvt (setLink s q { x with cur := setAt x.cur l (some []) }) p 3) p 4 0x03 none
  else setLink s q { x with eb := setAt x.eb l ((x.eb[l]?).getD [] ++ [(laneAbs s (q / 8), octets)]) }

/-- The release of every lane's elastic buffer, on the same cycle (R167). -/
def releaseEb (q : Nat) (s : State) : State :=
  (List.range (quadLanes s q)).foldl (fun s l =>
    let x := linkOf s q
    match (x.eb[l]?).getD [] with
    | (at_, o) :: rest =>
      ebDepth q l (some (laneAbs s (q / 8) - at_).toNat)
        (setLink s q { x with eb := setAt x.eb l rest, cur := setAt x.cur l (some o) })
    | [] => ebDepth q l none (setLink s q { x with cur := setAt x.cur l none })) s

/-- R176: a CRC-12 error of a 204C multiblock. [DESIGN CHOICE, log 37] -/
def crcError (q l : Nat) (s : State) : State :=
  let p := quadPage q
  let s := modReg s p 0x120 fun w => putBits w (8 * l + 7) (8 * l) (satAdd 255 (bits w (8 * l + 7) (8 * l)) 1)
  setEvt (incCnt s p l) p 1

/-- MULTIBLOCK_RECEIVED (R167, R168, R175–R177): a multiblock or multiframe of a lane with its octets. -/
def multiblockSt (q l : Nat) (headOk crcOk : Bool) (octets : List Byte) (s : State) : State :=
  let x := linkOf s q
  if !enabled s (quadPage q) ∨ !rxEn s q ∨ quadLanes s q ≤ l ∨ x.st < 2 ∨ x.st = 5 then s
  else
    let s := setLink s q (countBlock x l headOk)
    let s := if quadC s q && !crcOk then crcError q l s else s
    if x.st = 4 then ebArrive q l octets s else s

/-- R175: a lane is declared down. -/
def declareDown (q l : Nat) (s : State) : State :=
  let p := quadPage q
  let x := linkOf s q
  let s := setLink s q { x with
    down := x.down ||| BitVec.ofNat 4 (2 ^ l), lock := x.lock &&& ~~~BitVec.ofNat 4 (2 ^ l), good := setAt x.good l 0 }
  captureErr (incCnt (setEvt s p 0) p 4) p ⟨4, 0x05, 0, p, noAddr (4 * q + l)⟩

/-- LANE_DOWN. -/
def laneDownSt (q l : Nat) (s : State) : State :=
  let x := linkOf s q
  if enabled s (quadPage q) ∧ !x.down.getLsbD l ∧ lossLimit s q ≤ (x.bad[l]?).getD 0 then declareDown q l s else s

/-- LANE_RECOVER (R177): at a lane-alignment boundary. -/
def laneRecoverSt (q l : Nat) (s : State) : State :=
  let x := linkOf s q
  if x.down.getLsbD l ∧ lossLimit s q ≤ (x.good[l]?).getD 0 ∧ laneEdge s q then
    setLink s q { x with
      down := x.down &&& ~~~BitVec.ofNat 4 (2 ^ l), lock := x.lock ||| BitVec.ofNat 4 (2 ^ l), bad := setAt x.bad l 0 }
  else s

/-- R798: every lane of a link in service is lost. -/
def loseLanes (q : Nat) (s : State) : State :=
  let x := linkOf s q
  if !enabled s (quadPage q) ∨ !rxEn s q ∨ x.st < 2 ∨ x.st = 5 then s
  else (List.range (quadLanes s q)).foldl (fun s l => if (linkOf s q).down.getLsbD l then s else declareDown q l s) s

/-- The transmit link sends samples: it is RUNNING, and no restart of R178 is under way. -/
def txRunning (s : State) (q : Nat) : Bool :=
  decide ((linkOf s q).st = 4) && (match (linkOf s q).txFrom with | some n => decide (n ≤ laneAbs s (q / 8)) | none => true)

/-- JSYNC_LOW (R178): the transceiver has driven JSYNC_I low for `frames` frames, and the transmit link starts again with
code groups until the next LEMC edge and an ILAS of four multiframes; the receive link runs on. [PRESUMED, log 142] -/
def jsyncLowSt (q frames : Nat) (s : State) : State :=
  if !quadC s q && txEn s q && txRunning s q && decide (5 ≤ frames) then
    let p : Nat := lemcPeriod s q
    let n := laneAbs s (q / 8)
    let edge := n + (p - laneNo s (q / 8) % p)
    setEvt (setLink s q { linkOf s q with txFrom := some (edge + 4 * p), txMb := [[], [], [], []] }) (quadPage q) 5
  else s

/-- REALIGN (R174): LINK_CMD.REALIGN aligns the LEMC of the group to the last SYSREF edge. [DEDUCED, log 35] -/
def realignSt (q : Nat) (v : Word) (s : State) : State :=
  if bit v 0 ∧ (linkOf s q).aligned then
    let s := incCnt s (quadPage q) 6
    match (lemcOf s (q / 8)).edge with
    | some e => alignLemc (q / 8) e s
    | none => s
  else s

/-- LINK_STS (R224). While the transmit link of a RUNNING quad starts again (R178), STATE is LOCKING. -/
def linkSts (s : State) (q : Nat) : Word :=
  let x := linkOf s q
  w32 ((if x.aligned then 2 ^ 8 else 0) + x.lock.toNat * 2 ^ 4 + if x.st = 4 ∧ txEn s q ∧ !txRunning s q then 1 else x.st)

/-- JSYNC_O of a quad (R165, R871): high impedance until the page is enabled. R165 gives the level of a 204B link only while it
synchronises; in every other state, and for a link that only transmits, the model drives it high. [DESIGN CHOICE, log 143] -/
def jsyncO (s : State) (q : Nat) : Option Bool :=
  if !enabled s (quadPage q) then none else some (quadC s q || !rxEn s q || !decide ((linkOf s q).st = 1))

/-! ### Spare lanes -/

/-- SUB_CMD = ARM (R225, R686): from FAIL the page returns to IDLE; from IDLE the spare wakes, and copies the
target's TX_TAPS and receiver settings. [DEDUCED, log 35] -/
def subArmSt (j : Nat) (s : State) : State :=
  let x := subOf s j
  let p := 0x120 + j
  if x.st = 4 then setSub s j SubSt.init
  else if x.st = 0 then
    let (tp, tl) := subTarget s j
    let s := setLn s p 0 0x08 (lnReg s tp tl 0x08)
    let s := setLn s p 0 0x0C (lnReg s tp tl 0x0C)
    askPower p 0 0 (setSub s j ⟨1, false, s.time.free⟩)
  else s

/-- SUB_READY, within 1 ms of ARM (R181). -/
def subReadySt (j : Nat) (s : State) : State :=
  if (subOf s j).st = 1 ∧ !usSince s (subOf s j).since 1000 then setEvt (setSub s j { subOf s j with st := 2 }) (0x120 + j) 0 else s

/-- SUB_FAIL (R181): 1 ms after ARM; the spare is disconnected and goes to DEEP (R685). -/
def subFailSt (j : Nat) (s : State) : State :=
  if (subOf s j).st = 1 ∧ usSince s (subOf s j).since 1000 then
    askPower (0x120 + j) 0 2 (setEvt (setSub s j { subOf s j with st := 4 }) (0x120 + j) 2)
  else s

/-- SUB_CMD = SWAP, ignored in any state but READY (R182). -/
def subSwapSt (j : Nat) (s : State) : State :=
  if (subOf s j).st = 2 then setSub s j { subOf s j with swapping := true } else s

/-- The target macro of a release is ready to take its lane back (R182, step 2): it is in ACTIVE, nothing moves it, and its
receiver is locked where the quad receives. -/
def macroReady (s : State) (p l : Nat) : Bool :=
  let w := lnReg s p l 0x04
  decide (bits w 31 30 = 0) && decide (bits w 27 26 = 0) && (!rxEn s (p - 0x100) || bit w 18)

/-- The swap at a lane-alignment boundary (R179), or the way back (R182), once the target macro is in ACTIVE; the macro out of
service goes to DEEP (R685). R182 names neither the state nor the event at the end of a release: the model goes to IDLE
and sets SUB_DONE. [DESIGN CHOICE, log 144] -/
def subSwapExecuteSt (j : Nat) (s : State) : State :=
  let x := subOf s j
  let (tp, tl) := subTarget s j
  if !x.swapping || !laneEdge s (tp - 0x100) || (x.st == 5 && !macroReady s tp tl) then s
  else if x.st = 2 then askPower tp tl 2 (setEvt (setSub s j { x with st := 3, swapping := false }) (0x120 + j) 1)
  else if x.st = 5 then askPower (0x120 + j) 0 2 (setEvt (setSub s j { x with st := 0, swapping := false }) (0x120 + j) 1)
  else s

/-- SUB_CMD = RELEASE (R182): the target macro wakes. -/
def subReleaseSt (j : Nat) (s : State) : State :=
  let (tp, tl) := subTarget s j
  if (subOf s j).st = 3 then askPower tp tl 0 (setSub s j { subOf s j with st := 5, swapping := true }) else s

/-- The spare-lane page is reset. -/
def subDrop (j : Nat) (s : State) : State := setSub s j SubSt.init

/-! ### The commands -/

/-- SYSREF_ARM. -/
def execSysrefArm (a : Acc) (q : Fin 32) (v : Word) (s : State) : Host.Outcome State Fault Refusal :=
  .next (onPage a (quadPage q) 0x108 (sysrefArmSt q v) s)

/-- LANE_SYNC_ACQUIRED. -/
def execLaneSyncAcquired (q : Fin 32) (l : Fin 4) (s : State) : Host.Outcome State Fault Refusal :=
  .next (whileRuns (quadPage q) (laneSyncSt q l) s)

/-- ILAS_RECEIVED. -/
def execIlasReceived (q : Fin 32) (ilas : Option Ilas) (s : State) : Host.Outcome State Fault Refusal :=
  .next (whileRuns (quadPage q) (ilasSt q ilas) s)

/-- SYSREF_EDGE. -/
def execSysrefEdge (k : Fin 4) (late : Bool) (s : State) : Host.Outcome State Fault Refusal :=
  .next (whileRuns 0x100 (sysrefEdgeSt k late) s)

/-- MULTIBLOCK_RECEIVED. -/
def execMultiblockReceived (q : Fin 32) (l : Fin 4) (headOk crcOk : Bool) (octets : List Byte) (s : State) :
    Host.Outcome State Fault Refusal := .next (whileRuns (quadPage q) (multiblockSt q l headOk crcOk octets) s)

/-- LANE_DOWN. -/
def execLaneDown (q : Fin 32) (l : Fin 4) (s : State) : Host.Outcome State Fault Refusal :=
  .next (whileRuns (quadPage q) (laneDownSt q l) s)

/-- LANE_RECOVER. -/
def execLaneRecover (q : Fin 32) (l : Fin 4) (s : State) : Host.Outcome State Fault Refusal :=
  .next (whileRuns (quadPage q) (laneRecoverSt q l) s)

/-- JSYNC_LOW. -/
def execJsyncLow (q : Fin 32) (frames : Nat) (s : State) : Host.Outcome State Fault Refusal :=
  .next (whileRuns (quadPage q) (jsyncLowSt q frames) s)

/-- REALIGN. -/
def execRealign (a : Acc) (q : Fin 32) (v : Word) (s : State) : Host.Outcome State Fault Refusal :=
  .next (onPage a (quadPage q) 0x11C (realignSt q v) s)

/-- SUB_ARM. -/
def execSubArm (a : Acc) (j : Fin 4) (s : State) : Host.Outcome State Fault Refusal :=
  .next (onPage a (0x120 + j) 0x104 (subArmSt j) s)

/-- SUB_READY. -/
def execSubReady (j : Fin 4) (s : State) : Host.Outcome State Fault Refusal := .next (whileRuns (0x120 + j) (subReadySt j) s)

/-- SUB_FAIL. -/
def execSubFail (j : Fin 4) (s : State) : Host.Outcome State Fault Refusal := .next (whileRuns (0x120 + j) (subFailSt j) s)

/-- SUB_SWAP. -/
def execSubSwap (a : Acc) (j : Fin 4) (s : State) : Host.Outcome State Fault Refusal :=
  .next (onPage a (0x120 + j) 0x104 (subSwapSt j) s)

/-- SUB_SWAP_EXECUTE. -/
def execSubSwapExecute (j : Fin 4) (s : State) : Host.Outcome State Fault Refusal :=
  .next (whileRuns (0x120 + j) (subSwapExecuteSt j) s)

/-- SUB_RELEASE. -/
def execSubRelease (a : Acc) (j : Fin 4) (s : State) : Host.Outcome State Fault Refusal :=
  .next (onPage a (0x120 + j) 0x104 (subReleaseSt j) s)

end Sys2Proof.Machine
end

