-- ==== Sys2Proof/Machine/Events.lean ====
section
/-! DEFINITION. The event controller: source routes, reports and Echo suppression, fatal conditions (R804–R824). -/

namespace Sys2Proof.Machine

/-- The event controller with `f` applied. -/
def modEvt (s : State) (f : EvtSt → EvtSt) : State := { s with evt := f s.evt }

/-- CD17 runs: the fabric PLL is locked (R799). [DESIGN CHOICE, log 116] -/
def fabricClock (s : State) : Bool := !bit (getReg s 0x005 0x180) 17

/-- The level that a page drives on a source (R48, R60). -/
def sourceLevel (s : State) (n : Nat) : Bool :=
  match sourcePage n with
  | none => false
  | some p =>
    let (b, k) := pageSources p
    pageOn s p && (List.range 32).any fun i => decide (i % k = n - b) && bit (evtPend s p) i

/-! ### Routes (R804–R809) -/

/-- SRC_ROUTE of a source. -/
def routeReg (s : State) (n : Nat) : Word := getRegI s 0x001 0x104 n

/-- A route's KIND where it is in use (R804): 1 LINE, 2 MSIX, 3 TOKEN. -/
def routeKind (r : Word) : Nat := if bit r 31 && decide (bits r 30 28 < 4) then bits r 30 28 else 0

/-- The level of interrupt line `l` of core number `c` in a route's CORE field (R805, R820). -/
def lineLevel (s : State) (c l : Nat) : Bool :=
  (s.evt.seen.any fun n =>
    let r := routeReg s n
    decide (routeKind r = 1) && decide (bits r 20 13 = c) && decide (bits r 12 8 = l)) ||
  (s.evt.svLine31 && decide (128 ≤ c) && decide (l = 31))

/-- The OR of the sources routed to an MSI-X vector (R806). -/
def vectorLevel (s : State) (v : Nat) : Bool :=
  s.evt.seen.any fun n => decide (routeKind (routeReg s n) = 2) && decide (bits (routeReg s n) 7 0 = v)

/-- The wake line of domain `d` (R808). -/
def wakeLine (s : State) (d : Nat) : Bool :=
  s.evt.seen.any fun n =>
    let r := routeReg s n
    bit r 31 && bit r 27 && decide (bits r 26 21 = d)

/-- Wake lines that have fallen no longer stand for a wake already counted. -/
def dropLines (s : State) : State :=
  modEvt s fun e => { e with lineWoke := e.lineWoke.filter fun d => wakeLine s d }

/-- The endpoint sends a vector's message for the event controller (R806). -/
def evtMsix (s : State) (v : Nat) : State := raiseMsix s 2 v

/-- The controller sends a token to token route `t` (R141, R817): class of the error, payload. -/
def evtToken (s : State) (t cls payload : Nat) : State :=
  let lo := getRegI s 0x001 0x110 t
  let hi := getRegI s 0x001 0x114 t
  let s := if (instRec s (bits lo 15 0)).st = .free then ownErr s 0x001 6 0x03 none else s
  sendTok (incCnt s 0x001 4) 0x001 (bits hi 1 0)
    ⟨BitVec.ofNat 16 (bits lo 31 16), BitVec.ofNat 16 (bits lo 15 0), BitVec.ofNat 2 (bits hi 15 14),
     if 2 ≤ cls ∧ cls ≤ 6 then 1 else 0, 0x20, 0, BitVec.ofNat 64 payload⟩

/-- ERR_CAUSE of a source's page, as it reads. -/
def sourceCause (s : State) (n : Nat) : Word :=
  match sourcePage n with
  | some p => if pageOn s p then getReg s p 0x20 else 0
  | none => 0

/-- The page at fault in a fatal condition (R811). -/
def fatalPage (cond : Nat) : Nat := if cond = 1 then 0x002 else if cond = 4 then 0x001 else 0x005

/-- The fatal sequence (R820, R821). [DEDUCED, log 118] -/
def fatalSt (cond : Nat) (s : State) : State :=
  let s := incCnt s 0x001 6
  if s.evt.svLine31 then modReg s 0x001 0x148 fun w => putBit w 30 true
  else
    let s := setReg s 0x001 0x148 (w32 (2 ^ 31 + cond * 2 ^ 24 + fatalPage cond))
    let s := modEvt (setEvt s 0x001 5) fun e => { e with svLine31 := true }
    let cfg := getReg s 0x001 0x144
    let s := if fabricClock s then evtMsix s (bits cfg 23 16) else s
    let s := if bit cfg 31 then
        (List.range 4).foldl (fun s k => dfeFatal k s) (modEvt s fun e => { e with txRefused := true }) else s
    if bit cfg 30 then modEvt s fun e => { e with fatalAt := some (100 * s.time.free + 98304 * bits cfg 15 0) } else s

/-- R823: what the check finds in the table words that `f` reads: a single error is corrected, counted and captured; an
uncorrectable one is fatal and gives no route. -/
def tableRead (m : Mark) (f : State → State) (s : State) : State :=
  match m with
  | .clean => f s
  | .ce => f (captureErr (countCe s 0x001) 0x001 ⟨1, 0x01, 0, 0x001, none⟩)
  | .ue => fatalSt 4 (ownErr s 0x001 2 0x02 none)

/-- The route `r` of source `n` delivers a 0-to-1 transition (R805–R807); `was` is the level of an MSI-X vector before it. -/
def deliver (s : State) (n : Nat) (was : Nat → Bool) : State :=
  let r := routeReg s n
  match routeKind r with
  | 1 => if bits r 20 13 < 128 ∧ (physOf s (bits r 20 13)).isNone then incCnt s 0x001 7 else s
  | 2 => if was (bits r 7 0) then s else evtMsix s (bits r 7 0)
  | 3 =>
    if n < 5 then s
    else evtToken s (bits r 7 0) (bits (sourceCause s n) 11 8) (2 ^ 32 * (sourceCause s n).toNat + n)
  | _ => s

/-- SOURCE_ASSERT (R807). [DESIGN CHOICE, log 2] -/
def execSourceAssert (x : SourceRead) (s : State) : Host.Outcome State Fault Refusal :=
  let n := x.n
  if !fabricClock s || !sourceLevel s n || s.evt.seen.contains n.val then .next s
  else
    let c := getRegI s 0x001 0x108 n
    let s' := modEvt (setRegI s 0x001 0x108 n (w32 ((bits c 15 0 + 1) % 2 ^ 16))) fun e => { e with seen := e.seen ++ [n.val] }
    .next (tableRead x.tbl (fun s' => deliver s' n (vectorLevel s)) s')

/-- SOURCE_DEASSERT (R805, R808). -/
def execSourceDeassert (n : Fin 2048) (s : State) : Host.Outcome State Fault Refusal :=
  if !fabricClock s || sourceLevel s n || !s.evt.seen.contains n.val then .next s
  else .next (dropLines (modEvt s fun e => { e with seen := e.seen.filter fun m => !decide (m = n.val) }))

/-- The target field that a route's KIND uses. -/
def routeTarget (r : Word) : Nat := if routeKind r = 1 then bits r 20 8 else bits r 7 0

/-- A route is written (R804, R809). -/
def routeWriteSt (v : Word) (s : State) : State :=
  let n := bits (getReg s 0x001 0x100) 10 0
  let old := routeReg s n
  let s' := dropLines (setRegI s 0x001 0x104 n v)
  if s.evt.seen.contains n && bit v 31 &&
      (!bit old 31 || !decide (routeKind old = routeKind v) || !decide (routeTarget old = routeTarget v)) then
    deliver s' n (vectorLevel { s with evt := { s.evt with seen := s.evt.seen.filter fun m => !decide (m = n) } })
  else s'

/-- SRC_ROUTE_WRITE (R809). -/
def execSrcRouteWrite (a : Acc) (v : Word) (s : State) : Host.Outcome State Fault Refusal :=
  .next (onPage a 0x001 0x104 (routeWriteSt v) s)

/-- MSIX_ACK written (R806). -/
def msixAckSt (v : Word) (s : State) : State :=
  if vectorLevel s (bits v 7 0) then evtMsix s (bits v 7 0) else s

/-- MSIX_ACK (R806). -/
def execMsixAck (a : Acc) (v : Word) (s : State) : Host.Outcome State Fault Refusal :=
  .next (onPage a 0x001 0x140 (msixAckSt v) s)

/-! ### Reports and Echo (R810–R818) -/

/-- A report of a fatal condition (R816): reporting page, CLASS, CODE. -/
def fatalReport (p cls code : Nat) : Bool :=
  [(0x002, 5, 0x02), (0x005, 4, 0x03), (0x001, 2, 0x02)].contains (p, cls, code)

/-- The window of a page is open (R813). -/
def echoOpen (s : State) (p : Nat) : Bool :=
  let w := kget EchoWin.init s.evt.echo p
  w.isOpen && decide (100 * freeNow s < w.endAt)

/-- The event bit of a report's class (R817). -/
def classBit (cls : Nat) : Nat := cls - 2

/-- An accepted report (R813, R815–R818). [DEDUCED, log 117] -/
def acceptReport (tbl : Mark) (r : Report) (s : State) : State :=
  let sp := bits r.cause 25 16
  let cls := bits r.cause 11 8
  let win := bits (getReg s 0x001 0x118) 15 0
  let prev := (kget EchoWin.init s.evt.echo sp).supp
  let w : EchoWin := ⟨decide (win ≠ 0), 100 * freeNow s + 98304 * win, r.page, 0⟩
  let s := incCnt (modEvt s fun e => { e with echo := kset EchoWin.init e.echo sp w }) 0x001 1
  let s := if s.evt.queue.length < 64 then modEvt s fun e => { e with queue := e.queue ++ [⟨r, prev⟩] }
    else setEvt (incCnt s 0x001 3) 0x001 6
  let s := setEvt s 0x001 (classBit cls)
  tableRead tbl (fun s =>
    let route := routeReg s (classBit cls)
    if routeKind route = 3 then evtToken s (bits route 7 0) cls (2 ^ 32 * r.cause.toNat + classBit cls) else s) s

/-- A suppressed report (R813). -/
def suppressReport (r : Report) (s : State) : State :=
  let sp := bits r.cause 25 16
  let w := kget EchoWin.init s.evt.echo sp
  incCnt (modEvt s fun e =>
    { e with echo := kset EchoWin.init e.echo sp { w with supp := satAdd 0xFFFF w.supp 1 } }) 0x001 2

/-- A report arrives (R812–R816). -/
def reportSt (p : Nat) (tbl : Mark) (s : State) : State :=
  match s.evt.unsent.find? fun r => r.page = p with
  | none => s
  | some r =>
    let s := addCnt (incCnt s 0x001 0) 0x001 3 (kget 0 s.evt.dropped p)
    let s := modEvt s fun e => { e with
      unsent := dropFirst (fun x => decide (x.page = p)) e.unsent, dropped := kset 0 e.dropped p 0 }
    if echoOpen s (bits r.cause 25 16) && decide (bits (getReg s 0x001 0x118) 15 0 ≠ 0) &&
        !fatalReport p (bits r.cause 11 8) (bits r.cause 7 0) then suppressReport r s
    else acceptReport tbl r s

/-- REPORT (R813). -/
def execReport (x : ReportRead) (s : State) : Host.Outcome State Fault Refusal :=
  .next (if fabricClock s then reportSt x.p x.tbl s else s)

/-- ECHO_WINDOW_END (R813). -/
def execEchoWindowEnd (p : Fin 512) (s : State) : Host.Outcome State Fault Refusal :=
  let w := kget EchoWin.init s.evt.echo p
  .next (if w.isOpen && !echoOpen s p then
    modEvt s fun e => { e with echo := kset EchoWin.init e.echo p { w with isOpen := false } } else s)

/-- RPT_POP written (R818). -/
def rptPopSt (v : Word) (s : State) : State :=
  if bit v 0 then modEvt s fun e => { e with queue := e.queue.drop 1 } else s

/-- RPT_POP (R818). -/
def execRptPop (a : Acc) (v : Word) (s : State) : Host.Outcome State Fault Refusal :=
  .next (onPage a 0x001 0x13C (rptPopSt v) s)

/-- RPT0–RPT4: the head of the report queue. -/
def rptWord (s : State) (i : Nat) : Word :=
  match s.evt.queue with
  | [] => 0
  | q :: _ =>
    match i with
    | 0 => w32 (q.rep.page % 1024 * 2 ^ 16 + bits q.rep.cause 25 16)
    | 1 => q.rep.cause
    | 2 => w32 q.rep.addr
    | 3 => w32 (q.prevSupp * 2 ^ 16 + q.rep.addr / 2 ^ 32 % 2 ^ 16)
    | _ => q.rep.ns

/-- ECHO_STS (R815). -/
def echoSts (s : State) : Word :=
  let p := bits (getReg s 0x001 0x11C) 9 0
  let w := kget EchoWin.init s.evt.echo p
  w32 ((if echoOpen s p then 2 ^ 31 else 0) + w.first % 1024 * 2 ^ 16 + w.supp)

/-- SRC_STS. -/
def srcSts (s : State) : Word :=
  let n := bits (getReg s 0x001 0x100) 10 0
  putBit (getRegI s 0x001 0x108 n) 31 (s.evt.seen.contains n)

/-! ### Fatal conditions (R819–R823) -/

/-- FATAL (R820). Conditions 1–3 are raised by R145 and R799; condition 4 is an uncorrectable table error (R823) found other
than by SOURCE_ASSERT and REPORT. [DESIGN CHOICE, log 119] -/
def execFatal (cond : Fin 5) (s : State) : Host.Outcome State Fault Refusal :=
  if cond.val = 4 then .next (fatalSt 4 (ownErr s 0x001 2 0x02 none))
  else if s.evt.fatalPend.contains cond.val then
    .next (fatalSt cond (modEvt s fun e => { e with fatalPend := dropFirst (fun x => decide (x = cond.val)) e.fatalPend }))
  else .next s

/-- FATAL_RESET_DELAY (R820): DELAY µs have passed. -/
def execFatalResetDelay (s : State) : Host.Outcome State Fault Refusal :=
  match s.evt.fatalAt with
  | some t => .next (if t ≤ 100 * s.time.free then modEvt s fun e => { e with fatalAt := none, resetReq := true } else s)
  | none => .next s

/-- A soft reset of the EVTC page (R58): windows and queue; the routes are registers. The sources stay as they are. -/
def evtDrop (s : State) : State :=
  dropLines (modEvt s fun e => { e with echo := [], queue := [] })

end Sys2Proof.Machine
end

