-- ==== Sys2Proof/Machine/Fabric.lean ====
section
/-! DEFINITION. The fabric (R553–R584, R590–R594): routes and links, what carries a packet, the probes, route
epochs, links that stop; tokens, fire records and stream flits on their way; and the maintenance ring's flips and
breaks (R576–R578, R585–R588). -/

namespace Sys2Proof.Machine

/-- Changes the fabric. -/
def modFab (s : State) (f : FabSt → FabSt) : State := { s with fab := f s.fab }

/-- The page of router `r`: 0–5 L1R0–L1R5, 6 ROOT. -/
def rtrPage (r : Nat) : Nat := 0x0F8 + r

/-- Router `r` is enabled (R576). -/
def rtrOn (s : State) (r : Nat) : Bool := enabled s (rtrPage r)

/-! ### Tables (R572, R575, R576) -/

/-- The topology's route table entry of router `r` for a destination port. -/
def topoRoute (r dst : Nat) : Word := w32 (0x80 + if r = 6 then dst / 8 else if dst / 8 = r then dst % 8 else 8)

/-- The key of a route table entry. -/
def routeKey (e r dst : Nat) : Nat := (e * 7 + r) * 64 + dst

/-- The key of a slot table entry. -/
def slotKey (e r out slot : Nat) : Nat := ((e * 7 + r) * 64 + out) * 256 + slot

/-- A route table entry. The map lists the exclusive or with the topology's entry. -/
def routeOf (s : State) (e r dst : Nat) : Word := kget 0 s.fab.route (routeKey e r dst) ^^^ topoRoute r dst

/-- A slot table entry. -/
def slotOf (s : State) (e r out slot : Nat) : Word := kget 0 s.fab.slot (slotKey e r out slot)

/-- An entry routes to output `out`. -/
def routesTo (w : Word) (out : Nat) : Bool := bit w 7 && decide (bits w 5 0 = out)

/-- The routers that a packet crosses, in order. -/
def pathOf (src dst : Nat) : List Nat := if src / 8 = dst / 8 then [src / 8] else [src / 8, 6, dst / 8]

/-- The logical link of a pair of ports (R555). -/
def logicalLink (src dst : Nat) : Nat := (src + dst) % 4

/-- LINK_MAP of an epoch: router `r`, bundle `b`, logical link `l` to its physical link. -/
def linkMap (s : State) (e r b l : Nat) : Nat :=
  bits (getRegI s (rtrPage r) (0x114 + 4 * e) (if r = 6 then b else 0)) (3 * l + 2) (3 * l)

/-- LINK_CFG of router `r` for bundle `b`. -/
def linkCfg (s : State) (r b : Nat) : Word := getRegI s (rtrPage r) 0x10C (if r = 6 then b else 0)

/-- A physical link serves at one end: enabled, not declared down. -/
def linkEndOk (s : State) (r b k : Nat) : Bool := bit (linkCfg s r b) k && !s.fab.downLinks.contains (r, b, k)

/-- The logical link that carries logical link `l` of bundle `b` (R583). -/
def carrier (s : State) (b l : Nat) : Nat := if s.fab.rerouted.contains (b, l) then (l + 1) % 4 else l

/-- A logical link of bundle `b` serves in an epoch. -/
def bundleOk (s : State) (e b l : Nat) : Bool :=
  let k := linkMap s e b b (carrier s b l)
  linkEndOk s b b k && linkEndOk s 6 b k

/-- One output that a packet crosses after its injection link: router, input, output. -/
structure Hop where
  r : Nat
  inp : Nat
  out : Nat

/-- The outputs on the way from port to port (R553, R555). -/
def hopsOf (src dst : Nat) : List Hop :=
  let l := logicalLink src dst
  if src / 8 = dst / 8 then [⟨src / 8, src % 8, dst % 8⟩]
  else [⟨src / 8, src % 8, 8 + l⟩, ⟨6, 4 * (src / 8) + l, 4 * (dst / 8) + l⟩, ⟨dst / 8, 8 + l, dst % 8⟩]

/-- The tables of an epoch take a packet for port `dst` to the hop's output (R572). -/
def hopRouted (s : State) (e dst : Nat) (h : Hop) : Bool :=
  routesTo (routeOf s e h.r dst) (if h.r = 6 then dst / 8 else if h.r = dst / 8 then dst % 8 else 8)

/-- The link behind a hop's output serves (R582, R584). -/
def hopLink (s : State) (e src dst : Nat) (h : Hop) : Bool :=
  if h.r = 6 then bundleOk s e (dst / 8) (logicalLink src dst)
  else if h.r = dst / 8 then !s.fab.leafDown.contains dst
  else bundleOk s e h.r (logicalLink src dst)

/-- A packet waits in a queue. -/
def waitsAt (r inp tc : Nat) (p : Option QPos) : Bool :=
  match p with
  | some q => decide (q.r = r) && decide (q.inp = inp) && decide (q.tc = tc)
  | none => false

/-- Where each packet on the fabric waits. -/
def places (s : State) : List (Option QPos) :=
  s.fab.tokPkts.map (·.at_) ++ s.fab.firePkts.map (·.at_) ++ s.fab.reqs.map (·.at_)

/-- The credit of the output that feeds a queue is not used up (R564): the queue has room. [DESIGN CHOICE, log 82] -/
def room (s : State) (h : Hop) (tc : Nat) : Bool :=
  decide (((places s).filter (waitsAt h.r h.inp tc)).length < Config.queueDepth h.r h.inp tc + 1)

/-- A packet is the first of its queue. -/
def firstOf (s : State) (q : QPos) : Bool :=
  !(places s).any fun p => match p with
    | some x => waitsAt q.r q.inp q.tc p && decide (x.turn < q.turn)
    | none => false

/-- A packet crosses a hop: its router is enabled, tables and link take it, the next queue has room. -/
def hopOpen (s : State) (e src dst tc : Nat) (h : Hop) (next : Option Hop) : Bool :=
  rtrOn s h.r && hopRouted s e dst h && hopLink s e src dst h && (match next with | some n => room s n tc | none => true)

/-- How many of the hops that are left a packet crosses now. -/
def hopRun (s : State) (e src dst tc : Nat) : List Hop → Nat
  | [] => 0
  | h :: rest => if hopOpen s e src dst tc h rest.head? then hopRun s e src dst tc rest + 1 else 0

/-- R578: a packet of TC 1–4 that waits for the drain. -/
def heldByFlip (s : State) (src dst : Nat) : Bool :=
  match s.fab.flip with
  | some f => f.fallen && (pathOf src dst).any fun r => f.routers.getLsbD r
  | none => false

/-- A leaf port injects a packet of TC 1–4 (R576): its router is enabled, its link serves, no flip holds it (R578), and its
first queue has room. -/
def enters (s : State) (src dst tc : Nat) : Bool :=
  rtrOn s (src / 8) && !s.fab.leafDown.contains src && !heldByFlip s src dst &&
    (match (hopsOf src dst).head? with | some h => room s h tc | none => false)

/-- A packet can travel all the way now: from its leaf port, or from the queue that it is the first of. -/
def canGo (s : State) (e : Nat) (at_ : Option QPos) (src dst tc : Nat) : Bool :=
  let hs := (hopsOf src dst).drop (match at_ with | some q => q.hop | none => 0)
  (match at_ with | some q => firstOf s q | none => enters s src dst tc) && decide (hopRun s e src dst tc hs = hs.length)

/-- A packet of epoch `e` is in router `r`. -/
def isIn (r e : Nat) (epoch : Nat) (p : Option QPos) : Bool :=
  match p with
  | some q => decide (q.r = r) && decide (epoch = e)
  | none => false

/-- The packets of an epoch that are in router `r` (R594). -/
def inRouter (s : State) (e r : Nat) : Nat :=
  (s.fab.tokPkts.filter fun t => isIn r e t.epoch t.at_).length + (s.fab.firePkts.filter fun t => isIn r e t.epoch t.at_).length +
    (s.fab.reqs.filter fun q => isIn r e q.epoch q.at_).length

/-! ### Errors of the tables (R571) -/

/-- The physical link that an output uses: its bundle and logical link; none for an output to or from a leaf. -/
def outLink (r out : Nat) : Option (Nat × Nat) :=
  if r = 6 then (if out < 24 then some (out / 4, out % 4) else none) else if 8 ≤ out ∧ out < 12 then some (r, out - 8) else none

/-- The key of the error mark of a route table entry. [DEDUCED, log 15; DEDUCED, log 17] -/
def routeMark (e r dst : Nat) : Nat := 2 ^ 51 + routeKey e r dst

/-- The key of the error mark of a LINK_MAP of bundle `b`. [DEDUCED, log 15; DEDUCED, log 17] -/
def mapMark (e r b : Nat) : Nat := 2 ^ 51 + 2 ^ 19 + ((e * 7 + r) * 8 + b)

/-- The key of the error mark of a slot table entry. [DEDUCED, log 15; DEDUCED, log 17] -/
def slotMark (e r out slot : Nat) : Nat := 2 ^ 51 + 2 ^ 20 + slotKey e r out slot

/-- What router `r` finds in the table entry that it needs, whose error mark has key `k`: an error is corrected in line, or the
packet is discarded. [DEDUCED, log 17] -/
def tblCheck (k : Nat) (x : State × Bool) (r : Nat) : State × Bool :=
  if x.2 then x
  else match getMark x.1 k with
  | .clean => x
  | .ce =>
    (countCe (captureErr (setMark x.1 k .clean) (rtrPage r) ⟨1, 0x01, 0, rtrPage r, none⟩) (rtrPage r), false)
  | .ue => (ownErr (incCnt x.1 (rtrPage r) 5) (rtrPage r) 2 0x09 none, true)

/-- The LINK_MAP entry that output `out` of router `r` needs. -/
def mapCheck (e r out : Nat) (x : State × Bool) : State × Bool :=
  match outLink r out with
  | some (b, _) => tblCheck (mapMark e r b) x r
  | none => x

/-- The routers of some hops read their entries; whether the packet is discarded. -/
def pathCheck (s : State) (e dst : Nat) (hs : List Hop) : State × Bool :=
  hs.foldl (fun x h => mapCheck e h.r h.out (tblCheck (routeMark e h.r dst) x h.r)) (s, false)

/-- The entries that a flit in a slot of an output needs. -/
def slotCheck (s : State) (e r out slot : Nat) : State × Bool :=
  mapCheck e r out (tblCheck (slotMark e r out slot) (s, false) r)

/-! ### Probes and counters -/

/-- The header of a packet (R558). -/
def packetHdr (epoch src dst tc opc tag sid len resp addr : Nat) : BitVec 128 :=
  BitVec.ofNat 128 (dst * 2 ^ 122 + src * 2 ^ 115 + epoch * 2 ^ 113 + tc * 2 ^ 110 + opc * 2 ^ 106 +
    tag % 1024 * 2 ^ 96 + sid % 256 * 2 ^ 88 + len % 256 * 2 ^ 80 + resp * 2 ^ 76 + addr % 2 ^ 48)

/-- A pair of registers of a probe. -/
def ltPair (s : State) (r n off : Nat) : Nat :=
  (getReg s (rtrPage r) (0x20 * n + off)).toNat + 2 ^ 32 * (getReg s (rtrPage r) (0x20 * n + off + 4)).toNat

/-- R591: a probe writes a trace entry. -/
def ltTrace (s : State) (r n point mode : Nat) (hdr : BitVec 128) : State :=
  let p := rtrPage r
  let ptr := getReg s p 0x180
  if bit ptr 7 then s
  else
    let i := bits ptr 5 0
    let ws := (List.range 4).map (fun j => w32 (hdr.toNat / 2 ^ (32 * j))) ++ [slice s, w32 (point * 2 ^ 8 + n), 0, 0]
    let s := ws.zipIdx.foldl (fun s x => setReg s p (0x800 + 32 * i + 4 * x.2) x.1) s
    if i = 63 ∧ mode = 2 then setEvt (setReg s p 0x180 0x80) p 5 else setReg s p 0x180 (w32 ((i + 1) % 64))

/-- R590: probe `n` of router `r` sees a packet of residence `res` that enters at `inp` and leaves at `out`.
[DESIGN CHOICE, log 83] -/
def ltSee (r inp out res : Nat) (hdr : BitVec 128) (s : State) (n : Nat) : State :=
  let p := rtrPage r
  let c := getReg s p (0x200 + 0x20 * n)
  let point := bits c 21 16
  let here := if bit c 15 then decide (point = inp) else decide (point = out)
  let sel := decide (((hdr.toNat / 2 ^ 64) ^^^ ltPair s r n 0x204) &&& ltPair s r n 0x20C = 0)
  if !bit c 31 || (bit c 8 && !s.fab.armed.contains (r * 8 + n)) || !here || !sel then s
  else
    let s := modReg s p (0x218 + 0x20 * n) (· + 1)
    let s := modReg s p (0x21C + 0x20 * n) fun w => w32 (satAdd 0xFFFFFFFF w.toNat res)
    let s := modReg s p (0x300 + 4 * n) fun w => w32 (max w.toNat (min res 0xFFFF))
    let m := bits c 30 29
    if m = 1 ∨ m = 2 then ltTrace s r n point m hdr else s

/-- A flit crosses router `r`: it is counted and the probes see it. How long it stays is the traffic's. -/
def crossRouter (r inp out tc : Nat) (hdr : BitVec 128) (s : State) : State :=
  let s := incCnt s (rtrPage r) 0
  let s := if tc = 1 then incCnt s (rtrPage r) 3 else s
  let (res, s) := takeFree 16 s
  (List.range 8).foldl (ltSee r inp out res.toNat hdr) s

/-- A packet crosses the outputs of some hops. [DESIGN CHOICE, log 82] -/
def crossHops (hs : List Hop) (tc : Nat) (hdr : BitVec 128) (s : State) : State :=
  hs.foldl (fun s h => crossRouter h.r h.inp h.out tc hdr s) s

/-- R568, R569: what router `r` finds in a flit from a leaf link. -/
def leafCheck (r : Nat) (f : Flit) (s : State) : State :=
  let p := rtrPage r
  match f with
  | .good => s
  | .corrected => countCe (captureErr (incCnt s p 4) p ⟨1, 0x01, 0, p, none⟩) p
  | .badHeader => ownErr (incCnt s p 5) p 4 0x02 none
  | .badPayload => ownErr (setEvt (incCnt s p 6) p 6) p 4 0x02 none
  | _ => s

/-- What the receivers past the first router find in a flit (R568–R571); whether it is lost. -/
def farCheck (src dst : Nat) (f : Flit) (s : State) : State × Bool :=
  let first := rtrPage (src / 8)
  let last := rtrPage (dst / 8)
  let fix (p : Nat) : State := countCe (captureErr (incCnt s p 4) p ⟨1, 0x01, 0, p, none⟩) p
  match f with
  | .farCorrected 2 => (fix last, false)
  | .farCorrected k => (if src / 8 = dst / 8 then s else fix (if k = 0 then rtrPage 6 else last), false)
  | .farHeader => (ownErr (incCnt s last 5) last 4 0x02 none, true)
  | .farPayload => (ownErr (setEvt (incCnt s last 6) last 6) last 4 0x02 none, false)
  | .struck => (ownErr (incCnt s first 5) first 2 0x09 none, true)
  | _ => (s, false)

/-- The flit's payload is marked POISON on its way (R569). -/
def poisoned (f : Flit) : Bool := decide (f = .badPayload ∨ f = .farPayload)

/-- What has become of a packet: it has reached its port, it is lost, or it waits. -/
inductive Fly where
  | there
  | gone
  | waits (q : Option QPos)

/-- A packet goes as far as it can from the first of the hops that are left, where it is at `q` (R561, R564).
[DESIGN CHOICE, log 82] -/
def flyOn (src dst tc : Nat) (hdr : BitVec 128) (flit : Flit) (e : Nat) (q : Option QPos) (s : State) : State × Fly :=
  let i := match q with | some q => q.hop | none => 0
  let hs := (hopsOf src dst).drop i
  let n := hopRun s e src dst tc hs
  let (s, gone) := pathCheck s e dst (hs.take n)
  if gone then (s, .gone)
  else
    let s := crossHops (hs.take n) tc hdr s
    match hs[n]? with
    | none =>
      let (s, lost) := farCheck src dst flit s
      (s, if lost then .gone else .there)
    | some h =>
      if n = 0 ∧ q.isSome then (s, .waits q)
      else (modFab s fun f => { f with nextId := f.nextId + 1 }, .waits (some ⟨h.r, h.inp, tc, s.fab.nextId, i + n⟩))

/-- A packet of epoch `e` travels from its leaf port, or from the queue where it waits, towards its destination (R556, R564). -/
def fly (src dst tc : Nat) (hdr : BitVec 128) (flit : Flit) (e : Nat) (q : Option QPos) (s : State) : State × Fly :=
  match q with
  | none =>
    if !enters s src dst tc then (s, .waits none)
    else
      let s := leafCheck (src / 8) flit s
      if flit = .badHeader then (s, .gone) else flyOn src dst tc hdr flit e none s
  | some p =>
    if p.r = 7 then (s, .there) else if !firstOf s p then (s, .waits q) else flyOn src dst tc hdr flit e q s

/-! ### Tokens and fire records on their way (R130, R138, R139, R561) -/

/-- Replaces the tokens in flight. -/
def setTokPkts (s : State) (ts : List TokPkt) : State := modFab s fun f => { f with tokPkts := ts }

/-- The next flit of tokens from a port in a TC, and the packets without it: the one on its way, or up to seven tokens at the
port, the oldest first (R561). -/
def nextTokens (s : State) (lp tc : Nat) : Option (TokPkt × List TokPkt) :=
  let mine (t : TokPkt) : Bool := decide (t.lp = lp ∧ t.tc = tc)
  match s.fab.tokPkts.find? mine with
  | none => none
  | some t =>
    if t.at_.isSome then some (t, dropFirst (fun u => mine u) s.fab.tokPkts)
    else
      let ts := (s.fab.tokPkts.filter mine).take 7
      some (⟨lp, tc, s.fab.cur, ts.flatMap (·.toks), none⟩, ts.foldl (fun l _ => dropFirst (fun u => mine u) l) s.fab.tokPkts)

/-- TOKEN_PACKET: the next tokens of a class's TC from a port go towards the dispatcher's ingress; a flit whose header is lost
is discarded, and so is one whose payload cannot be read. [DEDUCED, log 31; DESIGN CHOICE, log 82; DEDUCED, log 85] -/
def tokenPacketSt (lp cls : Nat) (flit : Flit) (s : State) : State :=
  let tc := if cls = 0 then 1 else 2
  if !pllOn s 17 then s
  else match nextTokens s lp tc with
  | none => s
  | some (t, rest) =>
    let hdr := packetHdr t.epoch lp 43 tc 5 0 0 t.toks.length (if poisoned flit then 2 else 0) 0
    match fly lp 43 tc hdr flit t.epoch t.at_ s with
    | (s, .waits none) => s
    | (s, .waits q) => setTokPkts s ({ t with at_ := q } :: rest)
    | (s, .gone) => setTokPkts s rest
    | (s, .there) =>
      let s := setTokPkts s rest
      if poisoned flit then s else { s with disp := { s.disp with ingress := s.disp.ingress ++ t.toks } }

/-- The cause of an error token for operand data that cannot be read, by pool; where the pool's chapter lists none,
a free value (R569). [DEDUCED, log 85] -/
def poisonCause (s : State) (pool : Nat) : Nat × State :=
  match pool with
  | 1 => (2, s)
  | 2 => (2, s)
  | 3 => (3, s)
  | 6 => (2, s)
  | _ => let (v, s) := takeFree 8 s; (v.toNat, s)

/-- A fire record reaches its member: R782–R784 act where its domain is not ON. [DEDUCED, log 85] -/
def deliverFire (f : FireRec) (s : State) : State :=
  match memberPage s f.pool.toNat f.member.toNat with
  | none => pwrFail s f
  | some p =>
    if pageOn s p then { s with arrived := s.arrived ++ [f] } else routeFire s f

/-- Replaces the fire records in flight. -/
def setFirePkts (s : State) (ts : List FirePkt) : State := modFab s fun f => { f with firePkts := ts }

/-- FIRE_PACKET: the oldest fire record to a port goes towards it. -/
def firePacketSt (lp : Nat) (cls0 : Bool) (flit : Flit) (s : State) : State :=
  let mine (u : FirePkt) : Bool := decide (u.lp = lp ∧ u.cls0 = cls0)
  if !pllOn s 17 then s
  else match s.fab.firePkts.find? mine with
  | none => s
  | some t =>
    let rest := dropFirst (fun u => mine u) s.fab.firePkts
    let e := if t.at_.isSome then t.epoch else s.fab.cur
    let tc := if cls0 then 1 else 2
    match fly 43 lp tc (packetHdr e 43 lp tc 6 0 0 0 (if poisoned flit then 2 else 0) 0) flit e t.at_ s with
    | (s, .waits none) => s
    | (s, .waits q) => setFirePkts s ({ t with epoch := e, at_ := q } :: rest)
    | (s, .gone) => setFirePkts s rest
    | (s, .there) =>
      let s := setFirePkts s rest
      if poisoned flit then
        let (c, s) := poisonCause s t.rec_.pool.toNat
        match memberPage s t.rec_.pool.toNat t.rec_.member.toNat with
        | some p => failFire s p t.rec_ c
        | none => pwrFail s t.rec_
      else deliverFire t.rec_ s

/-! ### Reserved slots (R561–R565, R582) -/

/-- STREAM: what output `out` of router `r` does in a slot, with a TC 0 flit from `input` if `filled`. -/
def streamSt (r out slot input : Nat) (filled : Bool) (flit : Flit) (s : State) : State :=
  let p := rtrPage r
  let e := s.fab.cur
  let w := slotOf s e r out slot
  let rsv := bit w 8
  let own := rsv && decide (bits w 5 0 = input)
  let leaf := decide (r ≠ 6) && (decide (16 ≤ out) || decide (input < 8))
  if !rtrOn s r || !pllOn s 17 then s
  else if !filled then (if rsv then incCnt s p 2 else s)
  else
    let s := if leaf then leafCheck r flit s
      else match flit with
        | .good => s
        | .corrected => leafCheck r .corrected s
        | _ => leafCheck r .badHeader s
    let (s, gone) := if flit = .badHeader ∨ (flit = .badPayload ∧ !leaf) then (s, true) else slotCheck s e r out slot
    if gone then s
    else
      let dead := match outLink r out with
        | some (b, l) => !bundleOk s e b l && !s.fab.rerouted.contains (b, l)
        | none => false
      let moved := match outLink r out with
        | some bl => s.fab.rerouted.contains bl
        | none => false
      if dead then incCnt s p 5
      else
        let hdr := packetHdr e 0 0 0 7 0 0 0 (if flit = .badPayload then 2 else 0) 0
        if own && !moved then crossRouter r input out 0 hdr (incCnt s p 1)
        else
          let s := ownErr (setEvt (incCnt s p 9) p 4) p 6 0x06 none
          crossRouter r input out 4 hdr (if rsv && !own then incCnt s p 2 else s)

/-! ### Links that stop (R580–R584) and come up -/

/-- The logical links that a dead physical link carries in either epoch. -/
def deadLogical (s : State) (b k : Nat) : List Nat :=
  (List.range 4).filter fun l => decide (linkMap s 0 b b l = k) || decide (linkMap s 1 b b l = k)

/-- Physical link 4 of bundle `b` serves no logical link. -/
def spareUnused (s : State) (b : Nat) : Bool := (deadLogical s b 4).isEmpty

/-- LINK_DOWN: a link's receiver declares it down. -/
def linkDownSt (l : LinkEnd) (s : State) : State :=
  match l with
  | .leaf lp =>
    if s.fab.leafDown.contains lp.val then s
    else
      let p := rtrPage (lp / 8)
      ownErr (incCnt (setEvt (modFab s fun f => { f with leafDown := f.leafDown ++ [lp.val] }) p 0) p 11) p 4 0x03 none
  | .bundle b atRoot k =>
    let r := if atRoot then 6 else b.val
    if s.fab.downLinks.contains (r, b.val, k.val) ∨ !bit (linkCfg s r b) k then s
    else
      let p := rtrPage r
      let first := !s.fab.downLinks.contains (if atRoot then b.val else 6, b.val, k.val)
      let s := modFab s fun f => { f with
        downLinks := f.downLinks ++ [(r, b.val, k.val)],
        upLinks := f.upLinks.filter fun x => !decide (x = (r, b.val, k.val)) }
      let s := ownErr (incCnt (setEvt s p 0) p 11) p 4 0x03 none
      if first && !(deadLogical s b k).isEmpty then
        let spare := bit (linkCfg s r b) 9 && bit (linkCfg s r b) 8 && spareUnused s b
        modFab s fun f => { f with fixes := f.fixes ++ [⟨b, k, fabFrame s + 2, spare⟩] }
      else s

/-- A LINK_MAP value with every entry that names link `k` naming link 4. -/
def mapAround (k : Nat) (w : Word) : Word :=
  (List.range 4).foldl (fun w l => if bits w (3 * l + 2) (3 * l) = k then putBits w (3 * l + 2) (3 * l) 4 else w) w

/-- Both routers of a bundle take the spare link for link `k` (R581). -/
def remapBundle (b k : Nat) (s : State) : State :=
  let one (r i off : Nat) (s : State) : State := setRegI s (rtrPage r) off i (mapAround k (getRegI s (rtrPage r) off i))
  let s := one 6 b 0x118 (one 6 b 0x114 (one b 0 0x118 (one b 0 0x114 s)))
  setEvt (setEvt s (rtrPage b) 1) (rtrPage 6) 1

/-- The repair of bundle `b` that is due, of one kind. -/
def fixDue (s : State) (b : Nat) (spare : Bool) : Option LinkFix :=
  s.fab.fixes.find? fun f => f.bundle = b ∧ f.spare = spare ∧ f.frame ≤ fabFrame s

/-- A repair that is done. -/
def dropFix (s : State) (f : LinkFix) : State := modFab s fun x => { x with fixes := dropFirst (fun g => decide (g = f)) x.fixes }

/-- SPARE_REMAP (R581). -/
def spareRemapSt (b : Nat) (s : State) : State :=
  match fixDue s b true with
  | none => s
  | some f => remapBundle b f.link (dropFix s f)

/-- LINK_REROUTE (R583). -/
def linkRerouteSt (b : Nat) (s : State) : State :=
  match fixDue s b false with
  | none => s
  | some f =>
    let ls := (deadLogical s b f.link).map fun l => (b, l)
    modFab (dropFix s f) fun x => { x with rerouted := x.rerouted ++ ls.filter fun y => !x.rerouted.contains y }

/-- FABRIC_LINK_UP (R594): an enabled link comes up. -/
def linkUpFabSt (l : LinkEnd) (s : State) : State :=
  match l with
  | .leaf _ => s
  | .bundle b atRoot k =>
    let r := if atRoot then 6 else b.val
    if !rtrOn s r ∨ !linkEndOk s r b k ∨ s.fab.upLinks.contains (r, b.val, k.val) then s
    else modFab s fun f => { f with upLinks := f.upLinks ++ [(r, b.val, k.val)] }

/-- LINK_CFG written for the bundle that BUNDLE_SEL shows (R594): DOWN clears when EN goes 0 then 1, and a link
that is not enabled is not up. -/
def linkCfgWrite (r b : Nat) (v : Word) (s : State) : State :=
  let old := linkCfg s r b
  let s := setRegI s (rtrPage r) 0x10C (if r = 6 then b else 0) (v &&& 0x31F)
  modFab s fun f => { f with
    downLinks := f.downLinks.filter fun x => !decide (x.1 = r ∧ x.2.1 = b ∧ bit old x.2.2 = false ∧ bit v x.2.2 = true),
    upLinks := f.upLinks.filter fun x => !decide (x.1 = r ∧ x.2.1 = b ∧ bit v x.2.2 = false) }

/-- The bundle that BUNDLE_SEL of router `r` shows. -/
def bundleSel (s : State) (r : Nat) : Option Nat :=
  let b := bits (getReg s (rtrPage r) 0x108) 2 0
  if r = 6 then (if b < 6 then some b else none) else if b = 0 then some r else none

/-- LINK_STS of router `r` for bundle `b`. -/
def linkStsOf (s : State) (r b : Nat) : Word :=
  let m (xs : List (Nat × Nat × Nat)) : Nat := ((List.range 5).map fun k => if xs.contains (r, b, k) then 2 ^ k else 0).sum
  w32 (m s.fab.downLinks * 2 ^ 16 + m s.fab.upLinks)

/-! ### Table writes (R574, R575) -/

/-- The write arrives over the maintenance ring. -/
def overRing (a : Acc) : Bool := a.viaRing || decide (a.who = .secCore) || decide (a.who = .jtag)

/-- R575: a write of the tables of epoch `e` is refused. -/
def tblLocked (s : State) (a : Acc) (r e : Nat) : Bool :=
  !overRing a || decide (e = s.fab.cur) || decide (inRouter s e r ≠ 0)

/-- A refused table write. -/
def tblRefuse (s : State) (r : Nat) : State :=
  ownErr (setEvt s (rtrPage r) 3) (rtrPage r) 6 0x05 none

/-- The outputs of router `r` that have a slot table. -/
def slotOut (r out : Nat) : Bool := if r = 6 then decide (out < 24) else decide (out < 12) || (decide (16 ≤ out) && decide (out < 24))

/-- R560: the table of an output after slot `slot` takes `w` reserves no token slot and at most 192 slots. -/
def slotsOk (s : State) (e r out slot : Nat) (w : Word) : Bool :=
  !bit w 8 || (decide (slot % 4 ≠ 0) &&
    decide (((List.range 256).filter fun i => decide (i ≠ slot) && bit (slotOf s e r out i) 8).length < 192))

/-- TBL_DATA_WRITE (R575). -/
def tblDataSt (a : Acc) (r : Nat) (v : Word) (s : State) : State :=
  let p := rtrPage r
  let sel := getReg s p 0x11C
  let e := bits sel 31 31
  let t := bits sel 29 28
  let out := bits sel 21 16
  let i := bits sel 7 0
  if tblLocked s a r e || (decide (t = 1) && !slotsOk s e r out i v) then tblRefuse s r
  else
    let s := setReg s p 0x11C (putBits sel 7 0 (i + 1))
    if t = 0 ∧ i < 48 then
      modFab (setMark s (routeMark e r i) .clean) fun f => { f with route := kset 0 f.route (routeKey e r i) ((v &&& 0xBF) ^^^ topoRoute r i) }
    else if t = 1 ∧ slotOut r out then
      modFab (setMark s (slotMark e r out i) .clean) fun f => { f with slot := kset 0 f.slot (slotKey e r out i) (v &&& 0x13F) }
    else s

/-- TBL_DATA as read. -/
def tblData (s : State) (r : Nat) : Word :=
  let sel := getReg s (rtrPage r) 0x11C
  let e := bits sel 31 31
  let i := bits sel 7 0
  match bits sel 29 28 with
  | 0 => if i < 48 then routeOf s e r i else 0
  | 1 => if slotOut r (bits sel 21 16) then slotOf s e r (bits sel 21 16) i else 0
  | _ => 0

/-- The error marks of a table go with its copy. -/
def copyMarks (n c a : Nat) (s : State) : State := { s with memErr := copyTable .clean n c a s.memErr }

/-- TBL_COPY (R576): the current tables of router `r` into its shadow. -/
def tblCopySt (a : Acc) (r : Nat) (v : Word) (s : State) : State :=
  let c := s.fab.cur
  let h := 1 - c
  if !bit v 0 then s
  else if tblLocked s a r h then tblRefuse s r
  else
    let s := modFab s fun f => { f with
      route := copyTable 0 64 (c * 7 + r) (h * 7 + r) f.route, slot := copyTable 0 16384 (c * 7 + r) (h * 7 + r) f.slot }
    let marks (k n : Nat) (s : State) : State := copyMarks n (k / n + (c * 7 + r)) (k / n + (h * 7 + r)) s
    let s := marks (2 ^ 51) 64 (marks (2 ^ 51 + 2 ^ 19) 8 (marks (2 ^ 51 + 2 ^ 20) 16384 s))
    (List.range (if r = 6 then 6 else 1)).foldl (fun s i =>
      setRegI s (rtrPage r) (0x114 + 4 * h) i (getRegI s (rtrPage r) (0x114 + 4 * c) i)) s

/-- LINK_MAP of epoch `e` written (R574, R575). -/
def linkMapWrite (a : Acc) (r e b : Nat) (v : Word) (s : State) : State :=
  if tblLocked s a r e then tblRefuse s r
  else setRegI (setMark s (mapMark e r b) .clean) (rtrPage r) (0x114 + 4 * e) (if r = 6 then b else 0) (v &&& 0xFFF)

/-! ### Epoch flips (R576–R578) -/

/-- FLIP_CMD (R577). [DEDUCED, log 86] -/
def flipCmdSt (v : Word) (s : State) : State :=
  if !bit v 31 then s
  else
    let busy := s.fab.flip.isSome || (List.range 7).any fun r => bit v r && decide (inRouter s (1 - s.fab.cur) r ≠ 0)
    let s := modReg s 0x006 0x10C fun w => putBits w 31 29 (if busy then 1 else 0)
    if busy then setEvt s 0x006 2
    else modFab s fun f => { f with flip := some ⟨BitVec.ofNat 7 v.toNat, fabFrame s + 2, false⟩ }

/-- EPOCH_FLIP (R576): at the boundary every leaf port and router makes the shadow current. -/
def epochFlipSt (s : State) : State :=
  match s.fab.flip with
  | none => s
  | some f =>
    if f.fallen ∨ fabFrame s < f.frame ∨ !pllOn s 17 then s
    else
      let s := modFab s fun x => { x with cur := 1 - x.cur, flip := some { f with fallen := true } }
      let s := modReg s 0x006 0x10C fun w => putBit (putBit w 31 true) 16 (decide (s.fab.cur = 1))
      incCnt (setEvt s 0x006 0) 0x006 3

/-- The router pages count the packets that their leaf ports have held (R578). [DEDUCED, log 86] -/
def countHeld (s : State) : State :=
  let held := (s.fab.tokPkts.filter fun t => t.at_.isNone && heldByFlip s t.lp 43).map (·.lp) ++
    (s.fab.firePkts.filter fun t => t.at_.isNone && heldByFlip s 43 t.lp).map (fun _ => 43) ++
    (s.fab.reqs.filter fun q => q.at_.isNone && q.answer.isNone && heldByFlip s q.srcLp q.dstLp).map (·.srcLp) ++
    (s.fab.reqs.filter fun q => q.at_.isNone && q.answer.isSome && heldByFlip s q.dstLp q.srcLp).map (·.dstLp)
  held.foldl (fun s lp => incCnt s (rtrPage (lp / 8)) 10) s

/-- EPOCH_DRAINED (R576, R578). -/
def epochDrainedSt (s : State) : State :=
  match s.fab.flip with
  | none => s
  | some f =>
    if !f.fallen || (List.range 7).any fun r => f.routers.getLsbD r && decide (inRouter s (1 - s.fab.cur) r ≠ 0) then s
    else
      let s := countHeld s
      let s := modFab s fun x => { x with flip := none }
      let s := modReg s 0x006 0x10C fun w => putBits (putBit w 30 true) 15 0 (min 0xFFFF (fabFrame s - f.frame))
      setEvt s 0x006 1

/-- EPOCH of router `r` (R594). -/
def epochReg (s : State) (r : Nat) : Word :=
  let n := inRouter s (1 - s.fab.cur) r
  w32 ((if n = 0 then 0 else 2 ^ 31) + s.fab.cur * 2 ^ 16 + min n 0xFFFF)

/-- INFLIGHT of router `r`. [DEDUCED, log 86] -/
def inflightReg (s : State) (r : Nat) : Word := w32 (min 0xFFFF (inRouter s 1 r) * 2 ^ 16 + min 0xFFFF (inRouter s 0 r))

/-! ### Lantern (R590, R591) -/

/-- LT_CTRL_WRITE. -/
def ltCtrlSt (r n : Nat) (v : Word) (s : State) : State :=
  let p := rtrPage r
  let s := setReg s p (0x200 + 0x20 * n) (v &&& 0xE03F8100)
  let s := modFab s fun f => { f with armed := f.armed.filter fun x => !decide (x = r * 8 + n) }
  if bit v 31 then setReg s p 0x180 0 else s

/-- LANTERN_START. -/
def lanternSt (r n : Nat) (s : State) : State :=
  let c := getReg s (rtrPage r) (0x200 + 0x20 * n)
  if pllOn s 17 ∧ bit c 31 ∧ bit c 8 ∧ !s.fab.armed.contains (r * 8 + n) ∧
      0 ≤ sinceTarget s (getReg s (rtrPage r) (0x214 + 0x20 * n)) then
    modFab s fun f => { f with armed := f.armed ++ [r * 8 + n] }
  else s

/-! ### Statistics of privileged initiators (R592, R593) -/

/-- A port that the IS registers measure. -/
def isPort (lp : Nat) : Bool := (decide (38 ≤ lp) && decide (lp ≤ 41)) || (decide (43 ≤ lp) && decide (lp ≤ 46))

/-- The offsets of the IS registers of a port, IS_RD_CNT to IS_WR_BYTES_HI. -/
def isRegs : List Nat := (List.range 12).map fun i => 0x13C + 4 * i

/-- Adds to a 64-bit IS register. -/
def isAdd (s : State) (lp off n : Nat) : State :=
  let p := rtrPage (lp / 8)
  let v := (getRegI s p off (lp % 8)).toNat + 2 ^ 32 * (getRegI s p (off + 4) (lp % 8)).toNat + n
  setRegI (setRegI s p off (lp % 8) (w32 v)) p (off + 4) (lp % 8) (w32 (v / 2 ^ 32))

/-- A request of a measured port has its last response. -/
def isCount (q : Req) (s : State) : State :=
  let lp := q.srcLp
  let p := rtrPage (lp / 8)
  if !isPort lp || !bit (getRegI s p 0x138 (lp % 8)) 0 then s
  else if q.isWrite then isAdd s lp 0x164 q.len
  else
    let lat := (s.time.free - q.since) * 3125 / 2048
    let s := setRegI s p 0x13C (lp % 8) (getRegI s p 0x13C (lp % 8) + 1)
    let s := isAdd s lp 0x140 lat
    let s := setRegI s p 0x148 (lp % 8) (w32 (max (getRegI s p 0x148 (lp % 8)).toNat (min lat 0xFFFFFFFF)))
    let b := if lat ≤ 128 then 0 else if lat ≤ 512 then 1 else if lat ≤ 2048 then 2 else 3
    let s := setRegI s p (0x14C + 4 * b) (lp % 8) (w32 (satAdd 0xFFFFFFFF (getRegI s p (0x14C + 4 * b) (lp % 8)).toNat 1))
    isAdd s lp 0x15C q.len

/-- IS_CTRL written for the selected port (R593). -/
def isCtrlWrite (r n : Nat) (v : Word) (s : State) : State :=
  let p := rtrPage r
  let old := getRegI s p 0x138 n
  let s := setRegI s p 0x138 n (v &&& 3)
  if bit v 1 && !bit old 1 then
    modFab s fun f => { f with frozen := isRegs.zipIdx.foldl (fun m x => kset 0 m ((8 * r + n) * 16 + x.2) (getRegI s p x.1 n)) f.frozen }
  else s

/-- An IS register as read. -/
def isRead (s : State) (r n off : Nat) : Word :=
  if !isPort (8 * r + n) ∨ r = 6 then 0
  else if bit (getRegI s (rtrPage r) 0x138 n) 1 then kget 0 s.fab.frozen ((8 * r + n) * 16 + (off - 0x13C) / 4)
  else getRegI s (rtrPage r) off n

/-! ### The maintenance ring's stations (R587) -/

/-- The breaks that lie on the way from station 0 up to station `st`. [DEDUCED, log 84] -/
def breaksTo (s : State) (st : Nat) : List Nat := s.fab.breaks.filter (· ≤ st)

/-- Station `st` is reached: with two breaks or more, it lies on the same arc as the ring's own page.
[DESIGN CHOICE, log 83; DEDUCED, log 84] -/
def stationOk (s : State) (st : Nat) : Bool :=
  let home := Config.ringStation 0x006 % 64
  let n := s.fab.breaks.length
  pllOn s 20 && (decide (n < 2) || decide ((breaksTo s st).length % n = (breaksTo s home).length % n))

/-- RING_SEGMENT_BREAK (R587): the segment upstream of station `st` breaks. [DEDUCED, log 84] -/
def ringBreakSt (st : Nat) (s : State) : State :=
  if s.fab.breaks.contains st then s
  else
    let s := modFab s fun f => { f with breaks := f.breaks ++ [st] }
    let n := ((List.range 64).filter (stationOk s)).length
    let s := setReg s 0x006 0x100 (w32 (2 ^ 31 + n * 2 ^ 16 + (s.fab.breaks.head?).getD 0))
    ownErr (setEvt s 0x006 3) 0x006 4 0x03 none

/-- Off or soft reset of a router page: its probes and statistics (R58). -/
def rtrDrop (r : Nat) (s : State) : State :=
  modFab s fun f => { f with
    armed := f.armed.filter fun x => !decide (x / 8 = r),
    frozen := f.frozen.filter fun x => !decide (x.1 / 128 = r) }

/-! ### Commands -/

/-- TOKEN_PACKET (R561). -/
def execTokenPacket (lp : Fin 48) (cls : Fin 4) (flit : Flit) (s : State) : Host.Outcome State Fault Refusal :=
  .next (tokenPacketSt lp cls flit s)

/-- STREAM (R563). -/
def execStream (r : Fin 7) (out : Fin 24) (slot : BitVec 8) (input : BitVec 6) (filled : Bool) (flit : Flit) (s : State) :
    Host.Outcome State Fault Refusal :=
  .next (streamSt r out slot.toNat input.toNat filled flit s)

/-- LINK_DOWN (R580). -/
def execLinkDown (l : LinkEnd) (s : State) : Host.Outcome State Fault Refusal := .next (linkDownSt l s)

/-- SPARE_REMAP (R581). -/
def execSpareRemap (i : Fin 6) (s : State) : Host.Outcome State Fault Refusal := .next (spareRemapSt i s)

/-- LINK_REROUTE (R583). -/
def execLinkReroute (i : Fin 6) (s : State) : Host.Outcome State Fault Refusal := .next (linkRerouteSt i s)

/-- TBL_COPY (R576). -/
def execTblCopy (a : Acc) (r : Fin 7) (v : Word) (s : State) : Host.Outcome State Fault Refusal :=
  .next (onPage a (rtrPage r) 0x124 (tblCopySt a r v) s)

/-- TBL_DATA_WRITE (R575). -/
def execTblDataWrite (a : Acc) (r : Fin 7) (v : Word) (s : State) : Host.Outcome State Fault Refusal :=
  .next (onPage a (rtrPage r) 0x120 (tblDataSt a r v) s)

/-- FLIP_CMD (R577). -/
def execFlipCmd (a : Acc) (v : Word) (s : State) : Host.Outcome State Fault Refusal :=
  .next (onPage a 0x006 0x108 (flipCmdSt v) s)

/-- EPOCH_FLIP (R576). -/
def execEpochFlip (s : State) : Host.Outcome State Fault Refusal := .next (epochFlipSt s)

/-- EPOCH_DRAINED (R578). -/
def execEpochDrained (s : State) : Host.Outcome State Fault Refusal := .next (epochDrainedSt s)

/-- RING_SEGMENT_BREAK (R587). -/
def execRingSegmentBreak (st : Fin 64) (s : State) : Host.Outcome State Fault Refusal := .next (ringBreakSt st s)

/-- LT_CTRL_WRITE (R591). -/
def execLtCtrlWrite (a : Acc) (r : Fin 7) (n : Fin 8) (v : Word) (s : State) : Host.Outcome State Fault Refusal :=
  .next (onPage a (rtrPage r) (0x200 + 0x20 * n) (ltCtrlSt r n v) s)

/-- LANTERN_START (R590). -/
def execLanternStart (r : Fin 7) (n : Fin 8) (s : State) : Host.Outcome State Fault Refusal := .next (lanternSt r n s)

/-- FABRIC_LINK_UP (R594). -/
def execFabricLinkUp (l : LinkEnd) (s : State) : Host.Outcome State Fault Refusal := .next (linkUpFabSt l s)

end Sys2Proof.Machine
end

