-- ==== Sys2Proof/Machine/Refs.lean ====
section
/-! DEFINITION. The allocation record and its reference signals (R251, R252): the DMRS and PT-RS of 3GPP TS 38.211 and the
DMRS of TS 36.211, which the spec names and does not repeat. [PRESUMED, log 43] -/

namespace Sys2Proof.Machine

/-! ### The pseudo-random sequence of 3GPP -/

/-- The state of the two 31-bit registers of the 3GPP pseudo-random sequence after one step. -/
def goldStep (x : Nat × Nat) : Nat × Nat :=
  let b1 := (Nat.testBit x.1 3) ^^ (Nat.testBit x.1 0)
  let b2 := (Nat.testBit x.2 3) ^^ (Nat.testBit x.2 2) ^^ (Nat.testBit x.2 1) ^^ (Nat.testBit x.2 0)
  (x.1 / 2 + (if b1 then 2 ^ 30 else 0), x.2 / 2 + (if b2 then 2 ^ 30 else 0))

/-- `n` steps. -/
def goldSkip : Nat → Nat × Nat → Nat × Nat
  | 0, x => x
  | n + 1, x => goldSkip n (goldStep x)

/-- `n` bits from a state on. [PRESUMED, log 43] -/
def goldBits : Nat → Nat × Nat → List Bool
  | 0, _ => []
  | n + 1, x => (Nat.testBit x.1 0 ^^ Nat.testBit x.2 0) :: goldBits n (goldStep x)

/-- The first `n` bits of the scrambling sequence of C_INIT (R264, R266). [PRESUMED, log 43] -/
def scramble (cinit n : Nat) : List Bool := goldBits n (goldSkip 1600 (1, cinit))

/-- QPSK symbols `a` to `a + n - 1` of the sequence of an initial value. [PRESUMED, log 43] -/
def qpskSeq (cinit a n : Nat) : List Cx :=
  let b := (goldBits (2 * (a + n)) (goldSkip 1600 (1, cinit))).drop (2 * a)
  let h := sqrtQ (1 / 2)
  let v (x : Bool) : Rat := if x then -h else h
  (List.range n).map fun i => ⟨v ((b[2 * i]?).getD false), v ((b[2 * i + 1]?).getD false)⟩

/-! ### The fields of an allocation record (R251) -/

/-- The DMRS symbols of an allocation. -/
def allocDmrs (a : List Word) : Nat := bits (wWord a 3) 13 0

/-- The input of a layer. -/
def allocBeam (a : List Word) (l : Nat) : Nat := bits (wWord a (7 + l / 4)) (8 * (l % 4) + 7) (8 * (l % 4))

/-- The DMRS port of a layer. -/
def allocPort (a : List Word) (l : Nat) : Nat := bits (wWord a (5 + l / 8)) (4 * (l % 8) + 3) (4 * (l % 8))

/-- The layers of an allocation, 1–16. -/
def allocLayers (a : List Word) : Nat := bits (wWord a 1) 20 16

/-- The PRBs of an allocation. -/
def allocPrbs (a : List Word) : Nat := bits (wWord a 0) 24 16

/-- TP. -/
def allocTp (a : List Word) : Bool := bit (wWord a 1) 31

/-- DMRS_TYPE: type 2. -/
def allocType2 (a : List Word) : Bool := bit (wWord a 3) 27

/-- DOUBLE. -/
def allocDouble (a : List Word) : Bool := bit (wWord a 3) 25

/-- LTE. -/
def allocLte (a : List Word) : Bool := bit (wWord a 3) 24

/-- The DMRS symbols of an allocation, in order. -/
def dmrsSyms (a : List Word) : List Nat := (List.range 14).filter fun y => Nat.testBit (allocDmrs a) y

/-- The ranges of an allocation record that the table states (R251), and what R252 supports; `rx` is the direction, `nprb` the
carrier's PRBs. [DESIGN CHOICE, log 145] -/
def allocOk (rx : Bool) (nprb : Nat) (a : List Word) : Bool :=
  let n := allocPrbs a
  let l := allocLayers a
  let m := bits (wWord a 3) 31 28
  let ports : Nat := if allocType2 a then 12 else 8
  decide (1 ≤ n ∧ n ≤ 275 ∧ bits (wWord a 0) 8 0 + n ≤ nprb ∧ 1 ≤ l ∧ l ≤ 16 ∧ m < 6 ∧ (rx = true → m ≠ 5)) &&
  (!bit (wWord a 1) 30 || decide (bits (wWord a 1) 29 28 < 2 ∧ bits (wWord a 1) 27 26 < 3)) &&
  (if allocLte a then decide (bits (wWord a 4) 19 16 < 12)
   else (List.range l).all (fun i => decide (allocPort a i < ports)) && !(allocTp a && allocType2 a) &&
     decide ((dmrsSyms a).length ≤ if allocDouble a then 8 else 4))

/-! ### Sequences of low peak-to-average power -/

/-- The largest prime below a number. -/
def primeBelow (n : Nat) : Nat :=
  ((List.range n).reverse.find? fun p => decide (2 ≤ p) && (List.range p).all fun d => decide (d < 2 ∨ p % d ≠ 0)).getD 2

/-- Element `n` of the base sequence of group `u` and `len` elements (TS 38.211, section 5.2.2; TS 36.211, section 5.5.1),
without hopping. The tables of the four shortest lengths are not in the spec. [PRESUMED, log 43] -/
def lowPapr (lte : Bool) (u len n : Nat) : Cx :=
  if len = 6 ∨ len = 12 ∨ len = 18 ∨ len = 24 then turn (Config.lowPaprPhase lte u len n % 8) 8
  else if len = 30 then (turn ((u + 1) * (n + 1) * (n + 2) % 62) 62).conj
  else
    let z := primeBelow len
    let q := (2 * z * (u + 1) + 31) / 62
    let m := n % z
    (turn (q * m * (m + 1) % (2 * z)) (2 * z)).conj

/-! ### DMRS -/

/-- The slot of an operation, as the sequences number it. -/
structure SlotNo where
  slot : Nat
  perSlot : Nat

/-- The subcarrier offset of a port's comb. -/
def portDelta (a : List Word) (port : Nat) : Nat := if allocType2 a then 2 * (port % 6 / 2) else port % 4 / 2

/-- The elements of a PRB that a layer's DMRS has. -/
def dmrsPerPrb (a : List Word) : Nat := if allocLte a then 12 else if allocType2 a then 4 else 6

/-- The subcarrier, counted from the allocation's first, of a layer's DMRS element `j` (R252). -/
def dmrsAt (a : List Word) (l j : Nat) : Nat :=
  if allocLte a then j
  else if allocType2 a then 6 * (j / 2) + j % 2 + portDelta a (allocPort a l)
  else 2 * j + portDelta a (allocPort a l)

/-- The subcarriers of an allocation that carry a layer's DMRS. -/
def dmrsRe (a : List Word) (l : Nat) : List Nat := (List.range (dmrsPerPrb a * allocPrbs a)).map (dmrsAt a l)

/-- The sequence of a DMRS symbol before its covers, element by element: common to the ports of a comb. -/
def dmrsSeq (a : List Word) (t : SlotNo) (y : Nat) : List Cx :=
  let n := dmrsPerPrb a * allocPrbs a
  let id := bits (wWord a 4) 15 0
  let cs := bits (wWord a 4) 19 16
  let sc := if bit (wWord a 3) 26 then 1 else 0
  if allocLte a then (List.range n).map fun i => (turn (cs * i % 12) 12).mul (lowPapr true (id % 30) n i)
  else if allocTp a then (List.range n).map fun i => lowPapr false (id % 30) n i
  else qpskSeq ((2 ^ 17 * (t.perSlot * t.slot + y + 1) * (2 * id + 1) + 2 * id + sc) % 2 ^ 31)
    (dmrsPerPrb a * bits (wWord a 0) 8 0) n

/-- The place of a DMRS symbol among those that share a time cover. -/
def coverNo (a : List Word) (y : Nat) : Nat := ((dmrsSyms a).takeWhile fun z => decide (z < y)).length % 2

/-- The sign that a layer's covers give DMRS element `j` of a symbol. -/
def coverSign (a : List Word) (l y j : Nat) : Int :=
  let p := allocPort a l
  if allocLte a then (if bit (wWord a 4) 20 ∧ coverNo a y = 1 then -1 else 1)
  else
    let half : Nat := if allocType2 a then 6 else 4
    (if p % 2 = 1 ∧ j % 2 = 1 then -1 else 1) * (if allocDouble a ∧ half ≤ p ∧ coverNo a y = 1 then -1 else 1)

/-- The DMRS of a layer in a symbol: subcarrier and reference. -/
def dmrsRef (a : List Word) (l : Nat) (t : SlotNo) (y : Nat) : List (Nat × Cx) :=
  (dmrsSeq a t y).zipIdx.map fun (r, j) => (dmrsAt a l j, r.scale ((coverSign a l y j : Int) : Rat))

/-! ### PT-RS -/

/-- The PT-RS symbols of an allocation from reference `ref` on, the `i`-th multiple of `d` next (TS 38.211, sections 6.4.1.2.2
and 7.4.1.2.2). -/
def ptrsFrom (dm : List Nat) (double : Bool) (last d : Nat) : Nat → Nat → Nat → List Nat
  | 0, _, _ => []
  | n + 1, ref, i =>
    let hi := ref + i * d
    if last < hi then []
    else
      match dm.find? fun y => decide ((if i = 0 then ref else hi - d + 1) ≤ y ∧ y ≤ hi) with
      | some y => ptrsFrom dm double last d n (if double ∧ dm.contains (y + 1) then y + 1 else y) 1
      | none => hi :: ptrsFrom dm double last d n ref (i + 1)

/-- The symbols of an allocation that carry PT-RS. -/
def ptrsSyms (a : List Word) : List Nat :=
  let used := bits (wWord a 1) 13 0 ||| allocDmrs a
  let ys := (List.range 14).filter fun y => Nat.testBit used y
  if !bit (wWord a 1) 30 || allocLte a then []
  else ptrsFrom (dmrsSyms a) (allocDouble a) ((ys.getLast?).getD 0) (2 ^ bits (wWord a 1) 27 26) 30 (ys.headD 0) 0

/-- The subcarriers of a layer's PT-RS: every second or fourth PRB, from the one that n_RNTI picks, which C_INIT holds. -/
def ptrsRe (a : List Word) (l : Nat) : List Nat :=
  let k : Nat := if bits (wWord a 1) 29 28 = 0 then 2 else 4
  let n := allocPrbs a
  let rnti := bits (wWord a 2) 30 15
  let first := if n % k = 0 then rnti % k else rnti % (n % k)
  let p := allocPort a l
  let re := if allocType2 a then p % 6 else ([0, 2, 1, 3][p % 4]?).getD 0
  ((List.range n).filter fun i => decide (first ≤ i ∧ (i - first) % k = 0)).map fun i => 12 * i + re

/-- The PT-RS of a layer: subcarrier and reference, which is the first DMRS symbol's there without its covers. -/
def ptrsRef (a : List Word) (l : Nat) (t : SlotNo) : List (Nat × Cx) :=
  let seq := dmrsSeq a t ((dmrsSyms a).headD 0)
  let del := portDelta a (allocPort a l)
  (ptrsRe a l).map fun c =>
    (c, (seq[if allocType2 a then 2 * (c / 6) + (c % 6 - del) else (c - del) / 2]?).getD Cx.zero)

/-- The DMRS and PT-RS subcarriers of all layers in a symbol: no data stands there (R264). -/
def refRes (a : List Word) (y : Nat) : List Nat :=
  (List.range (allocLayers a)).flatMap fun l =>
    (if (dmrsSyms a).contains y then dmrsRe a l else []) ++ (if (ptrsSyms a).contains y then ptrsRe a l else [])

end Sys2Proof.Machine
end

