-- ==== Sys2Proof/Machine/Prach.lean ====
section
/-! DEFINITION. The PRACH detector's arithmetic (R271–R274): formats, root sequences, cyclic shifts, power-delay profiles, noise
and detections. What the spec leaves to 3GPP is TS 38.211's and TS 36.211's. [PRESUMED, log 146] -/

namespace Sys2Proof.Machine

/-- A format as R271 has it: the sequence length, the samples of a repetition in parts of the FFT size, the prefix in samples at
N = 2,048 and μ = 0, the repetitions, the inverse DFT, whether the spacing and the prefix scale with μ, whether it is LTE's. -/
structure PrachFmt where
  len : Nat
  rep : Nat
  cp : Nat
  reps : Nat
  idft : Nat
  short : Bool
  lte : Bool

/-- The formats of R272. -/
def prachFmts : List PrachFmt :=
  [⟨839, 12, 3168, 1, 1024, false, false⟩, ⟨839, 12, 21024, 2, 1024, false, false⟩, ⟨839, 12, 4688, 4, 1024, false, false⟩,
   ⟨839, 3, 3168, 4, 1024, false, false⟩, ⟨839, 12, 3168, 1, 1024, false, true⟩, ⟨839, 12, 21024, 1, 1024, false, true⟩,
   ⟨839, 12, 6240, 2, 1024, false, true⟩, ⟨839, 12, 21024, 2, 1024, false, true⟩, ⟨139, 2, 448, 1, 256, false, true⟩,
   ⟨139, 1, 288, 2, 256, true, false⟩, ⟨139, 1, 576, 4, 256, true, false⟩, ⟨139, 1, 864, 6, 256, true, false⟩,
   ⟨139, 1, 216, 2, 256, true, false⟩, ⟨139, 1, 360, 4, 256, true, false⟩, ⟨139, 1, 504, 6, 256, true, false⟩,
   ⟨139, 1, 936, 12, 256, true, false⟩, ⟨139, 1, 1240, 1, 256, true, false⟩, ⟨139, 1, 2048, 4, 256, true, false⟩]

/-- Samples of a repetition; `n` is the FFT size. -/
def PrachFmt.repLen (f : PrachFmt) (n mu : Nat) : Nat := f.rep * n * if f.short then 1 else 2 ^ mu

/-- Samples of the prefix. -/
def PrachFmt.cpLen (f : PrachFmt) (n mu : Nat) : Nat := f.cp * n * (if f.short then 1 else 2 ^ mu) / 2048

/-- Samples of an occasion. -/
def PrachFmt.total (f : PrachFmt) (n mu : Nat) : Nat := f.cpLen n mu + f.reps * f.repLen n mu

/-- The PRACH subcarriers in a carrier subcarrier: 12, 6 or so on. -/
def PrachFmt.perSc (f : PrachFmt) (mu : Nat) : Nat := f.rep * if f.short then 1 else 2 ^ mu

/-- The offset of the first PRACH subcarrier in its band. -/
def PrachFmt.offset (f : PrachFmt) (mu : Nat) : Nat :=
  if f.len = 139 then 2
  else if f.lte then 7
  else ((if f.rep = 12 then [7, 1, 133] else [12, 10, 7])[min 2 mu]?).getD 0

/-- Nanoseconds of a delay bin. -/
def PrachFmt.binNs (f : PrachFmt) (mu : Nat) : Rat :=
  (1000000 * f.rep : Nat) / ((15 * f.idft * if f.short then 2 ^ mu else 1 : Nat) : Rat)

/-! ### Root sequences and cyclic shifts -/

/-- Every second physical root of the sequences of 839 elements in logical order; each is followed by its opposite. -/
def rootTable : List Nat :=
  [129, 140, 120, 210, 168, 84, 105, 93, 70, 60, 2, 1, 56, 112, 148, 80, 42, 40,
    35, 73, 146, 31, 28, 30, 27, 29, 24, 48, 68, 74, 178, 136, 86, 78, 43] ++
  [39, 20, 21, 95, 202, 190, 181, 137, 125, 151, 217, 128, 142, 122, 203, 118, 110, 89,
    103, 61, 55, 15, 14, 12, 23, 34, 37, 46, 207, 179, 145, 130, 223, 228, 227] ++
  [132, 133, 143, 135, 161, 201, 173, 106, 83, 91, 66, 53, 10, 9, 7, 8, 16, 47,
    64, 57, 104, 101, 108, 208, 184, 197, 191, 121, 141, 149, 216, 218, 152, 144, 134] ++
  [138, 199, 162, 176, 119, 158, 164, 174, 171, 170, 87, 169, 88, 107, 81, 82, 100, 98,
    71, 59, 65, 50, 49, 26, 17, 13, 6, 5, 33, 51, 75, 99, 96, 97, 166] ++
  [172, 175, 187, 163, 185, 200, 114, 189, 115, 194, 195, 192, 182, 157, 156, 211, 154, 123,
    139, 212, 153, 213, 215, 150, 225, 224, 221, 220, 127, 147, 124, 193, 205, 206, 116] ++
  [160, 186, 167, 79, 85, 77, 92, 58, 62, 69, 54, 36, 32, 25, 18, 11, 4, 3,
    19, 22, 41, 38, 44, 52, 45, 63, 67, 72, 76, 94, 102, 90, 109, 165, 111] ++
  [209, 204, 117, 188, 159, 198, 113, 183, 180, 177, 196, 155, 214, 126, 131, 219, 222, 226,
    230, 232, 262, 252, 418, 416, 413, 411, 376, 395, 283, 285, 379, 390, 363, 384, 388] ++
  [386, 361, 387, 360, 310, 354, 328, 315, 337, 349, 335, 324, 323, 320, 334, 359, 295, 385,
    292, 291, 381, 399, 380, 397, 369, 377, 410, 407, 281, 414, 247, 277, 271, 272, 264] ++
  [259, 237, 239, 244, 243, 275, 278, 250, 246, 417, 248, 394, 393, 370, 365, 300, 299, 364,
    362, 298, 312, 313, 314, 353, 352, 343, 327, 350, 326, 319, 332, 333, 348, 347, 322] ++
  [330, 338, 341, 340, 342, 301, 366, 401, 371, 408, 375, 249, 269, 238, 234, 257, 273, 255,
    254, 245, 251, 412, 372, 282, 403, 396, 392, 391, 382, 389, 294, 297, 311, 344, 345] ++
  [318, 331, 325, 321, 346, 339, 351, 306, 289, 400, 378, 374, 415, 270, 241, 231, 260, 268,
    276, 409, 398, 290, 304, 308, 358, 316, 293, 288, 284, 368, 253, 256, 263, 242, 274] ++
  [402, 383, 357, 329, 317, 307, 286, 287, 266, 261, 236, 303, 356, 355, 405, 404, 406, 235,
    267, 302, 309, 265, 233, 367, 296, 336, 305, 373, 280, 279, 419, 240, 258, 229]

/-- The physical root of a logical index. -/
def prachRoot (len i : Nat) : Nat :=
  let i := i % (len - 1)
  let h := if len = 839 then (rootTable[i / 2]?).getD 1 else i / 2 + 1
  if i % 2 = 0 then h else len - h

/-- The cyclic shift of a Doppler shift of one subcarrier spacing. -/
def rootShift (len u : Nat) : Nat :=
  let q := ((List.range len).find? fun q => q * u % len = 1).getD 0
  if 2 * q < len then q else len - q

/-- The cyclic shifts of a root in order: unrestricted, or restricted set type A. -/
def prachShifts (len ncs : Nat) (restricted : Bool) (u : Nat) : List Nat :=
  if ncs = 0 then [0]
  else if !restricted then (List.range (len / ncs)).map fun v => v * ncs
  else
    let d := rootShift len u
    let build (per start groups extra : Nat) : List Nat :=
      (List.range (per * groups + extra)).map fun v => start * (v / per) + v % per * ncs
    if ncs ≤ d ∧ 3 * d < len then
      let per := d / ncs
      let start := 2 * d + per * ncs
      let groups := len / start
      build per start groups ((len - 2 * d - groups * start) / ncs)
    else if len ≤ 3 * d ∧ 2 * d + ncs ≤ len then
      let per := (len - 2 * d) / ncs
      let start := len - 2 * d + per * ncs
      let groups := d / start
      build per start groups (min ((d - groups * start) / ncs) per)
    else []

/-- The preambles of a configuration: which of its roots, and the cyclic shift; at most 64. -/
def preambles (len : Nat) (c : PrachConf) : List (Nat × Nat) :=
  ((List.range c.roots).flatMap fun r =>
    (prachShifts len c.ncs c.restricted (prachRoot len (c.root + r))).map fun v => (r, v)).take 64

/-- The transform of a root sequence, of magnitude 1. -/
def rootSpectrum (len u : Nat) : List Cx :=
  let r := sqrtQ (1 / (len : Rat))
  (dft false len ((List.range len).map fun i => (turn (u * i * (i + 1) % (2 * len)) (2 * len)).conj)).map fun x => x.scale r

/-! ### Profiles -/

/-- The PRACH subcarriers of one repetition: the transform at their frequencies. `k0` is the first one's number, counted in
PRACH subcarriers from the middle of the carrier. -/
def prachBins (len : Nat) (k0 : Int) (xs : List Cx) : List Cx :=
  let n := xs.length
  (List.range len).map fun (j : Nat) =>
    let k := ((k0 + j) % (n : Int)).toNat
    ((Cx.sum (xs.zipIdx.map fun (x, i) => x.mul (turn (k * i % n) n).conj)).scale (1 / (n : Rat))).snap

/-- The power-delay profile of a repetition for a root: a full-scale preamble has the peak 1. [DESIGN CHOICE, log 146] -/
def prachProfile (idft : Nat) (root bins : List Cx) : List Rat :=
  let z := List.zipWith (fun y r => y.mul r.conj) bins root
  (dft true idft z).map fun x => x.normSq / ((bins.length : Nat) : Rat)

/-- Sums of profiles. -/
def addProfiles (n : Nat) (ps : List (List Rat)) : List Rat :=
  ps.foldl (fun a p => List.zipWith (· + ·) a p) (List.replicate n 0)

/-- A detection (R274). -/
structure PrachDet where
  pre : Nat
  input : Nat
  delay : Int
  metric : Nat
  peak : Nat

/-- The mean of a list. -/
def meanOf (xs : List Rat) : Rat := qdiv xs.sum ((xs.length : Nat) : Rat)

/-- R273: the noise of an occasion: the mean of its bins that are at most four times the mean of all. -/
def prachNoise (bins : List Rat) : Rat :=
  let m := meanOf bins
  meanOf (bins.filter fun x => decide (x ≤ 4 * m))

/-- The bins of a preamble's cyclic-shift window. -/
def prachWindow (len idft ncs shift : Nat) : List Nat :=
  let w := if ncs = 0 then len else ncs
  let at_ := (len - shift) % len * idft
  (List.range idft).filter fun b => decide ((b * len + len * idft - at_) % (len * idft) < w * idft)

/-- The parabola through a peak and its neighbours: how far its top lies from the peak, in bins. -/
def parabola (l p r : Rat) : Rat := if l - 2 * p + r = 0 then 0 else (l - r) / (2 * (l - 2 * p + r))

/-- R273, R274: the preambles found. `per` holds for each root the profile of each input. -/
def prachDetect (f : PrachFmt) (mu : Nat) (c : PrachConf) (thr : Rat) (per : List (List (List Rat))) :
    Nat × List PrachDet :=
  let tot := per.map (addProfiles f.idft)
  let noise := prachNoise tot.flatten
  let dets := (preambles f.len c).zipIdx.filterMap fun ((r, v), n) =>
    let prof := (tot[r]?).getD []
    let val (b : Nat) : Rat := (prof[b % f.idft]?).getD 0
    let best := (prachWindow f.len f.idft c.ncs v).foldl (fun o b => match o with
      | none => some b
      | some a => if val a < val b then some b else some a) none
    match best with
    | none => none
    | some b =>
      let met := qdiv (val b) noise
      if met ≤ 0 ∨ dB met < thr then none
      else
        let at_ : Rat := ((f.len - v) % f.len * f.idft : Nat) / ((f.len : Nat) : Rat)
        let x : Rat := (b : Rat) - at_ + parabola (val (b + f.idft - 1)) (val b) (val (b + 1))
        let x := if x < -1 then x + (f.idft : Nat) else x
        let inputs := ((per[r]?).getD []).zipIdx
        let input := (inputs.foldl (fun (o : Rat × Nat) (p, i) =>
          let w := (p[b]?).getD 0
          if o.1 < w then (w, i) else o) (-1, 0)).2
        some ⟨n, input, roundEven (x * f.binNs mu), dBq8 met, dBq8 (val b)⟩
  (dBq8 noise, dets)

end Sys2Proof.Machine
end

