-- ==== Sys2Proof/Machine/Ofdm.lean ====
section
/-! DEFINITION. The OFDM blocks: carrier entries, FFT and combining, channel estimation, the equaliser, transmit
mapping, noise floor and PRACH (OFDM, Beam Combining and Equalisation). -/

namespace Sys2Proof.Machine

/-- An OFDM block's state. -/
def ofdmOf (s : State) (k : Nat) : OfdmSt := kget OfdmSt.init s.ofdm k

/-- Stores an OFDM block's state. -/
def setOfdm (s : State) (k : Nat) (o : OfdmSt) : State := { s with ofdm := kset OfdmSt.init s.ofdm k o }

/-- The page of OFDM block `k`. -/
def ofdmPage (k : Nat) : Nat := 0x0CC + k

/-- A register of carrier entry `e`. -/
def carrReg (s : State) (k off e : Nat) : Word := getRegI s (ofdmPage k) off e

/-- The FFT size of a CARR_NUM value (R228). -/
def nsize (w : Word) : Option Nat := [128, 256, 512, 1024, 1536, 2048, 3072, 4096][bits w 19 16]?

/-- The carrier rate in kHz (R228). -/
def carrRate (w : Word) : Nat := (nsize w).getD 0 * 15 * 2 ^ bits w 10 8

/-- Four times the carrier rate of a DFE carrier slot in kHz, times 2^DIV_LOG2 (R186). -/
def slotRateOk (s : State) (k cs rate : Nat) : Bool :=
  let w := getRegI s (0x0C8 + k) 0x214 cs
  rate * 2 ^ min 8 (bits w 3 0) * 4 = laneRate s k * (if bit w 4 then 3 else 4)

/-- R228: whether entry `e` may be enabled. -/
def carrOk (s : State) (k e : Nat) : Bool :=
  let num := carrReg s k 0x184 e
  let mu := bits num 10 8
  let role := (getReg s 0x000 0x108).toNat
  match nsize num with
  | none => false
  | some n =>
    decide (mu < 4) && decide (10 * 12 * bits (carrReg s k 0x188 e) 8 0 ≤ 8 * n) && (!bit num 5 || mu = 2) &&
    (!(role = 1 || role = 3) || slotRateOk s k (bits (carrReg s k 0x18C e) 3 0) (carrRate num))

/-- CARR_ENABLE (R228, R258). [DEDUCED, log 45] -/
def carrEnableSt (k : Nat) (v : Word) (s : State) : State :=
  let v := putBit v 0 true
  let p := ofdmPage k
  let e := bits (getReg s p 0x108) 5 0
  if bit (carrReg s k 0x180 e) 0 then setRegI s p 0x180 e (v &&& 0xFF01)
  else if carrOk s k e then setRegI (setRegI s p 0x180 e (v &&& 0xFF01)) p 0x1A0 e 1
  else ownErr (setRegI s p 0x180 e (v &&& 0xFF00)) p 6 0x01 none

/-- What tells a tap's reset value from 0x4000, the reset value of SMOOTH_DATA: c₀ is 1.0, all others 0 (R253). -/
def tapFlip (tap : Nat) : Word := if tap = 0 then 0 else 0x4000

/-- SMOOTH_DATA_WRITE (R253, R281): the tap is stored and the tap index advances. -/
def smoothWriteSt (k : Nat) (v : Word) (s : State) : State :=
  let p := ofdmPage k
  let sel := getReg s p 0x118
  let s := setRegI s p 0x11C (bits sel 10 8 * 8 + bits sel 2 0) ((v &&& 0xFFFF) ^^^ tapFlip (bits sel 2 0))
  setReg s p 0x118 (putBits sel 2 0 ((bits sel 2 0 + 1) % 8))

/-- A smoothing tap. -/
def smoothTap (s : State) (k filter tap : Nat) : Word :=
  getRegI s (ofdmPage k) 0x11C (filter * 8 + tap) ^^^ tapFlip tap

/-! ### Symbols and their times (R229–R231, R240) -/

/-- The numerology and prefix lengths of an entry: FFT size, μ of its rows, first and other prefix, symbols in a
slot, symbols in a half-subframe. -/
structure Numer where
  n : Nat
  mu : Nat
  cp0 : Nat
  cp : Nat
  perSlot : Nat
  perHalf : Nat

/-- R229: with LTE = 1 the rows of μ = 0. -/
def numer (s : State) (k e : Nat) : Numer :=
  let w := carrReg s k 0x184 e
  let n := (nsize w).getD 128
  let mu := if bit w 4 then 0 else bits w 10 8
  if bit w 5 ∧ !bit w 4 then ⟨n, mu, 512 * n / 2048, 512 * n / 2048, 12, 6 * 2 ^ mu⟩
  else ⟨n, mu, (144 + 16 * 2 ^ mu) * n / 2048, 144 * n / 2048, 14, 7 * 2 ^ mu⟩

/-- Samples in a half-subframe. -/
def Numer.halfLen (m : Numer) : Nat := m.cp0 + m.n + (m.perHalf - 1) * (m.cp + m.n)

/-- The sample at which an absolute symbol starts, its prefix included. -/
def Numer.start (m : Numer) (sym : Int) : Int :=
  let h := sym / m.perHalf
  let r := (sym % m.perHalf).toNat
  h * m.halfLen + (if r = 0 then 0 else (m.cp0 + m.n + (r - 1) * (m.cp + m.n) : Nat))

/-- The prefix of an absolute symbol. -/
def Numer.prefix (m : Numer) (sym : Int) : Nat := if sym % m.perHalf = 0 then m.cp0 else m.cp

/-- Samples in a millisecond, which is the carrier rate in kHz. -/
def Numer.rate (m : Numer) : Nat := 2 * m.halfLen

/-- A millisecond in units of 2⁻³² ns. -/
def msUnits : Nat := 1000000 * 2 ^ 32

/-- The DFE carrier slot of an entry (R228). -/
def carrSlot (s : State) (k e : Nat) : Nat := bits (carrReg s k 0x18C e) 3 0

/-- The offset of an entry's subframes from whole milliseconds in ns: CARR_TOFF, and in the DU-end role TOFF of the carrier
context's fronthaul context, by which R713 places its sections (R230). [DEDUCED, log 42] -/
def toffNs (s : State) (k e : Nat) (tx : Bool) : Int :=
  let own := (carrReg s k 0x190 e).toInt
  if getReg s 0x000 0x108 = 2 then
    let f := 2 * bits (carrReg s k 0x180 e) 15 8 + if tx then 1 else 0
    match memRead s (ofdmPage k) (getPair s 0x008 0x124 16 % 2 ^ 48 + f * 128 + 24) 4 with
    | (_, .ok, d) => (wordAt d 0).toInt
    | _ => own
  else own

/-- The time, counted from the start of slot 0, at the antenna plane of the sample that is at the block now (R230): ANT_OFFSET and
CS_LAT come from the DFE. [DEDUCED, log 42] -/
def airNow (s : State) (k e : Nat) (tx : Bool) : Int :=
  (if getReg s 0x000 0x108 = 2 then devTime s
   else if tx then txStreamTime s k (carrSlot s k e) else rxStreamTime s k (carrSlot s k e)) -
  toffNs s k e tx * (2 ^ 32 : Nat)

/-- The carrier-stream sample at the block now, counted from the start of slot 0 (R230). -/
def sampleNow (s : State) (k e : Nat) (m : Numer) (tx : Bool) : Int := airNow s k e tx * m.rate / msUnits

/-- The symbols of an operation. -/
def opSyms (ws : List Word) : List Nat :=
  let a := bits (wWord ws 4) 11 8
  let b := bits (wWord ws 4) 15 12
  if b < a then [] else (List.range (b - a + 1)).map (a + ·)

/-- The slot that an operation works on: for IFFT_TX and TX_MAP the next one whose first named symbol is still to start, for CE
and EQ the last one whose last named symbol has ended, else the one in progress. [DEDUCED, log 42] -/
def slotNow (s : State) (k e : Nat) (m : Numer) (kind : Nat) (ws : List Word) : Int :=
  let tx := decide (kind = 2 ∨ kind = 7)
  let cur := airNow s k e tx * (2 ^ m.mu : Nat) / msUnits
  let now := sampleNow s k e m tx
  if tx then (if m.start (cur * m.perSlot + bits (wWord ws 4) 11 8) < now then cur + 1 else cur)
  else if kind = 3 ∨ kind = 4 then (if now < m.start (cur * m.perSlot + bits (wWord ws 4) 15 12 + 1) then cur - 1 else cur)
  else cur

/-- The slot of an operation within its frame of 10 ms, counted as R713 counts frames. [DEDUCED, log 42] -/
def slotNo (m : Numer) (slot : Int) : SlotNo := ⟨(slot % (10 * 2 ^ m.mu : Nat)).toNat, m.perSlot⟩

/-! ### The operations' descriptors -/

/-- The carrier entry of an operation (R237). -/
def opEntry (ws : List Word) : Nat := bits (wWord ws 4) 5 0

/-- The word 1 status, RESULT and CLASS of an ended operation, and its token. [DEDUCED, log 47] -/
def endOfdm (s : State) (k : Nat) (f : FireRec) (d : Nat) (err : Option Nat) (cls sts : Nat) : State :=
  let p := ofdmPage k
  match err with
  | none => complete (closeDesc s p d 0 0 sts) p f false (BitVec.ofNat 64 d)
  | some c => failFire (closeDesc s p d 1 cls sts) p f c

/-- A bad argument: cause BAD_ARG, captured as a malformed descriptor (R238, R280). -/
def badArgOfdm (s : State) (k : Nat) (f : FireRec) (d : Nat) : State :=
  endOfdm (ownErr s (ofdmPage k) 6 0x02 (some d)) k f d (some 0x02) 6 0

/-- How an operation that could not read its operands ends (R238, R239). [DEDUCED, log 47] -/
def failOfdm (s : State) (k : Nat) (f : FireRec) (d : Nat) : OpErr → State
  | .ue a => endOfdm (ownErr s (ofdmPage k) 2 0x03 (some a)) k f d (some 0x03) 2 0
  | .badArg => badArgOfdm s k f d
  | .other c => endOfdm s k f d (some c) 0 0

/-- R234–R240, R275: a fire of kind `kind` reaches block `k`. [DEDUCED, log 42] -/
def ofdmStart (k kind : Nat) (f : FireRec) (s : State) : State :=
  let p := ofdmPage k
  let d := descAddr (getPair s p 0x100 22) f
  match fetchDesc s p d 0x016 fun kd len => kd = kind && decide (1 ≤ kind ∧ kind ≤ 7) && len = 1 with
  | (s, .notOwned) => holdUnowned s p f
  | (s, .bad .poison) => failFire (ownErr s p 2 0x03 (some d)) p f 0x03
  | (s, .bad _) => failFire (ownErr s p 6 0x02 (some d)) p f 0x02
  | (s, .refused) => failFire (ownErr (refuseDesc s p d) p 6 0x02 (some d)) p f 0x02
  | (s, .got ws) =>
    let e := opEntry ws
    if !bit (carrReg s k 0x180 e) 0 then endOfdm s k f d (some 0x01) 0 0
    else
      let m := numer s k e
      let slot := slotNow s k e m kind ws
      let lateBy : Bool := decide (0 < sinceTarget s (wWord ws 5))
      if kind = 6 ∧ lateBy then endOfdm (setEvt s p 6) k f d (some 0x06) 0 0
      else
        let now := sampleNow s k e m false
        let gone := (opSyms ws).filter fun (y : Nat) => decide (m.start (slot * m.perSlot + y + 2) ≤ now)
        let missed := if kind = 1 then gone else []
        let s := missed.foldl (fun s _ => setEvt (incCnt s p 6) p 0) s
        let taps := (List.range 8).map (smoothTap s k (bits (wWord ws 11) 10 8))
        let o := ofdmOf s k
        setOfdm s k { o with ops := o.ops ++ [⟨f, kind, d, ws, haActive s p, taps, slot, missed, [], [], none⟩] }

/-! ### FFT, combining and the inverse (R231–R233, R242–R249) -/

/-- The antennas of an entry: the chain positions of its carrier slot (R230). -/
def antennas (s : State) (k e : Nat) : List Nat :=
  let cs := bits (carrReg s k 0x18C e) 3 0
  let lo := getRegI s (0x0C8 + k) 0x218 cs
  let hi := getRegI s (0x0C8 + k) 0x21C cs
  (List.range 64).filter fun c => if c < 32 then bit lo c else bit hi (c - 32)

/-- The FFT bin of a subcarrier (R232). -/
def binOf (num : Word) (n nprb k : Nat) : Nat :=
  let up := if bit num 4 ∧ !bit num 3 ∧ 6 * nprb ≤ k then 1 else 0
  (k + up + n - 6 * nprb) % n

/-- The sample of its subframe at which an absolute symbol's samples begin, after its prefix. -/
def Numer.inSub (m : Numer) (sym : Int) : Nat :=
  (m.start sym - m.start (sym / (2 * m.perHalf : Nat) * (2 * m.perHalf : Nat))).toNat + m.prefix sym

/-- The upconversion phase term of an absolute symbol (R233): that of TS 38.211, section 5.4, at the symbol's start after its
prefix. [PRESUMED, log 43] -/
def phaseOf (s : State) (k e : Nat) (m : Numer) (sym : Int) : Cx :=
  let w := carrReg s k 0x19C e
  if bit w 31 then (turn (5 * bits w 23 0 * m.inSub sym % m.rate) m.rate).conj else ⟨1, 0⟩

/-- The half-subcarrier shift at sample `n` after the prefix (R232). -/
def halfShift (num : Word) (nn : Nat) (n : Int) (up : Bool) : Cx :=
  if bit num 3 then
    let t := turn (wrapN 32 (n % (2 * nn : Nat))) (2 * nn)
    if up then t else t.conj
  else ⟨1, 0⟩

/-- The time at the antenna plane at which the subframe of an absolute symbol starts. -/
def subStart (s : State) (k e : Nat) (m : Numer) (sym : Int) (tx : Bool) : Int :=
  sym / (2 * m.perHalf : Nat) * msUnits + toffNs s k e tx * (2 ^ 32 : Nat)

/-- `n` samples of an antenna's carrier stream from sample `o` after time `t` on; 0 where the stream has none. -/
def rxSamples (s : State) (k e ant : Nat) (m : Numer) (t o : Int) (n : Nat) : List Cx :=
  let (pad, xs) := streamAt s k ant (carrSlot s k e) t m.rate
  let xs := xs.drop (o - pad).toNat
  (List.range n).map fun (i : Nat) =>
    let j := o + i - pad
    if j < 0 then Cx.zero else cxOfWord 15 ((xs[(j - max 0 (o - pad)).toNat]?).getD 0)

/-- A complex value rounded and saturated: one that saturates counts once. [DESIGN CHOICE, log 37] -/
def wordOnce (x : Cx) : Word × Nat :=
  let (w, n) := wordOfCx 15 x
  (w, min 1 n)

/-- One received symbol of one antenna: its subcarriers in Q1.15, and how many values saturated (R231, R242). -/
def rxSymbol (s : State) (k e : Nat) (m : Numer) (ant : Nat) (sym : Int) : List (Word × Nat) :=
  let num := carrReg s k 0x184 e
  let nprb := bits (carrReg s k 0x188 e) 8 0
  let back := bits (carrReg s k 0x198 e) 9 0
  let shift := min 12 (bits (carrReg s k 0x194 e) 3 0)
  let xs := (rxSamples s k e ant m (subStart s k e m sym false) ((m.inSub sym : Int) - back) m.n).zipIdx.map fun (x, i) =>
    x.mul (halfShift num m.n ((i : Int) - back) false)
  let ys := dft false m.n xs
  let ph := (phaseOf s k e m sym).conj
  (List.range (12 * nprb)).map fun i =>
    let b := binOf num m.n nprb i
    let y := ((ys[b]?).getD Cx.zero).mul (turn (b * back) m.n)
    wordOnce ((y.mul ph).scale (pow2 (-(shift : Int)))).snap

/-- A weight set (R245): OUT, IN, groups, PRBs in a group, first PRB, weights. -/
structure Weights where
  outs : Nat
  ins : Nat
  ng : Nat
  gsize : Nat
  first : Nat
  ws : List Word

/-- Reads a weight set. A reserved size or a count outside its range is a bad argument. -/
def rdWeights (p a nprb : Nat) : RdM Weights := do
  let h ← rdWords p a 3
  let outs := bits (wWord h 0) 22 16
  let ins := bits (wWord h 0) 6 0
  let ng := bits (wWord h 1) 26 16
  let gs := bits (wWord h 1) 2 0
  if outs < 1 ∨ 64 < outs ∨ ins < 1 ∨ 64 < ins ∨ ng < 1 ∨ 275 < ng ∨ gs = 7 then throw OpErr.badArg
  else
    let ws ← rdWords p (a + 64) (ng * outs * ins)
    return ⟨outs, ins, ng, if gs = 6 then nprb else 2 ^ gs, bits (wWord h 2) 8 0, ws⟩

/-- Reads the weight set that an operation names; none where its address is 0 (R247). -/
def opWeights (p a nprb : Nat) : RdM (Option Weights) :=
  if a = 0 then pure none
  else do
    let w ← rdWeights p a nprb
    return some w

/-- The exact combiner sum for an output and a subcarrier; none outside the groups (R246). -/
def combine (w : Weights) (o k : Nat) (ins : List Cx) : Option Cx :=
  let prb := k / 12
  if prb < w.first ∨ w.gsize = 0 then none
  else
    let g := (prb - w.first) / w.gsize
    if w.ng ≤ g then none
    else some (Cx.sum ((List.range w.ins).map fun i =>
      (cxOfWord 15 ((w.ws[(g * w.outs + o) * w.ins + i]?).getD 0)).mul ((ins[i]?).getD Cx.zero)))

/-- C_SHIFT of an entry (R246). -/
def cShift (s : State) (k e : Nat) : Nat := min 8 (bits (carrReg s k 0x194 e) 19 16)

/-- The blocks that owe an entry their partial sums (R226, R249). -/
def peersOf (s : State) (k e : Nat) : List Nat :=
  if !bit (carrReg s k 0x18C e) 8 then []
  else
    let ctx := bits (carrReg s k 0x180 e) 15 8
    (List.range 4).filter fun j => !decide (j = k) && (List.range 64).any fun i =>
      bit (carrReg s j 0x180 i) 0 && decide (bits (carrReg s j 0x180 i) 15 8 = ctx) &&
      !bit (carrReg s j 0x18C i) 8 && decide (bits (carrReg s j 0x18C i) 13 12 = k)

/-- A peer's partial sum of a symbol, where it has come. -/
def partialOf (s : State) (k ctx : Nat) (sym : Int) (j : Nat) : Option Partial :=
  (ofdmOf s k).partials.find? fun x => x.ctx = ctx && x.sym = sym && x.sender = j

/-- A partial sum's element in Q8.24. -/
def Partial.at_ (x : Partial) (o i : Nat) : Cx :=
  match (x.sums[o]?).bind fun r => r[i]? with
  | some (a, b) => ⟨(a : Rat) / (2 ^ 24 : Nat), (b : Rat) / (2 ^ 24 : Nat)⟩
  | none => Cx.zero

/-- A sum as Q8.24, saturated in 32 bits. -/
def toQ824 (x : Cx) : Int × Int :=
  ((satBits 32 (roundEven (x.re * (2 ^ 24 : Nat)))).1, (satBits 32 (roundEven (x.im * (2 ^ 24 : Nat)))).1)

/-- The address of the weight set of an operation that combines. -/
def opWset (op : OfdmOp) : Nat := wAddr op.words 5

/-- The absolute number of an operation's symbol. -/
def opSym (m : Numer) (op : OfdmOp) (y : Nat) : Int := op.slot * m.perSlot + y

/-- FFT_RX transforms one symbol and forms its combiner sums, with the weight set read for it (R242, R246, R248). A missed symbol
is 0 (R240). -/
def rxCapture (k : Nat) (op : OfdmOp) (y : Nat) : RdM SymGot := do
  let s ← rdGet id
  let e := opEntry op.words
  let m := numer s k e
  let nprb := bits (carrReg s k 0x188 e) 8 0
  let ants := antennas s k e
  let w ← opWeights (ofdmPage k) (opWset op) nprb
  if op.missed.contains y then
    match w with
    | none => return ⟨y, devTime s, List.replicate ants.length (List.replicate (12 * nprb) 0), [], 0, 0, 0⟩
    | some w => return ⟨y, devTime s, [], List.replicate w.outs (List.replicate (12 * nprb) none), 0, 0, 0⟩
  else
    let rx := ants.map fun a => rxSymbol s k e m a (opSym m op y)
    let sat := (rx.map fun r => (r.map (·.2)).sum).sum
    match w with
    | none => return ⟨y, devTime s, rx.map fun r => r.map (·.1), [], 0, sat, 0⟩
    | some w =>
      let sums := (List.range w.outs).map fun o => (List.range (12 * nprb)).map fun i =>
        (combine w o i (rx.map fun r => cxOfWord 15 ((r[i]?).getD (0, 0)).1)).map fun x => (x.re, x.im)
      return ⟨y, devTime s, [], sums, cShift s k e, sat, 0⟩

/-- The rows of a combined symbol: the block's own sums and its peers', scaled and rounded once (R246, R249, R250). -/
def homeRows (s : State) (k : Nat) (op : OfdmOp) (g : SymGot) : List (List (Word × Nat)) :=
  let e := opEntry op.words
  let m := numer s k e
  let ctx := bits (carrReg s k 0x180 e) 15 8
  let ps := ((peersOf s k e).filter fun j => !op.missing.contains (g.y, j)).filterMap (partialOf s k ctx (opSym m op g.y))
  g.sums.zipIdx.map fun (row, o) => row.zipIdx.map fun (x, i) =>
    match x with
    | none => ((0 : Word), 0)
    | some (a, b) => wordOnce ((Cx.sum (⟨a, b⟩ :: ps.map fun q => q.at_ o i)).scale (pow2 (-(g.shift : Int))))

/-- What an operation leaves when it ends well: writes in order, word 1's status, counts, and a change of the
block's own state. -/
structure OpOut where
  outs : List (Nat × List Byte)
  sts : Nat
  cnts : List (Nat × Nat)
  evts : List Nat
  err : Option (Nat × Nat)
  upd : OfdmSt → OfdmSt
  eqValid : Bool

/-- An outcome with writes alone. -/
def OpOut.writes (outs : List (Nat × List Byte)) : OpOut := ⟨outs, 0, [], [], none, id, false⟩

/-- FFT_RX ends (R237, R240, R242, R246–R250): the home block writes its grid and is done with its peers' sums. -/
def opFftRx (k : Nat) (op : OfdmOp) : RdM OpOut := do
  let s ← rdGet id
  let e := opEntry op.words
  let m := numer s k e
  let nprb := bits (carrReg s k 0x188 e) 8 0
  let home := bit (carrReg s k 0x18C e) 8
  let ctx := bits (carrReg s k 0x180 e) 15 8
  let rows := op.got.map fun g => (g.y,
    if opWset op = 0 then g.rows.map fun r => r.map fun w => (w, 0) else if home then homeRows s k op g else [])
  let sat := (op.got.map (·.sat)).sum
  let csat := (rows.map fun r => (r.2.map fun x => (x.map (·.2)).sum).sum).sum
  let outs := rows.flatMap fun (y, r) => r.zipIdx.map fun (ws, i) =>
    (wAddr op.words 7 + ((y * r.length + i) * (12 * nprb)) * 4, wordsBytes (ws.map (·.1)))
  let used := op.got.flatMap fun g => (peersOf s k e).map fun j => (opSym m op g.y, j)
  return ⟨outs, op.missed.length, [(0, op.got.length - op.missed.length), (7, sat), (8, csat)],
    (if sat + csat = 0 then [] else [1]), if op.missing.isEmpty then none else some (0x04, 4),
    fun o => { o with partials := used.foldl (fun ps x =>
      dropFirst (fun q => q.ctx = ctx && q.sym = x.1 && q.sender = x.2) ps) o.partials }, false⟩

/-- One transmit symbol of one antenna: its samples with prefix, and the outputs that saturated (R229, R242). -/
def txSymbol (s : State) (k e : Nat) (m : Numer) (sym : Int) (xs : List Cx) : List Word × Nat :=
  let num := carrReg s k 0x184 e
  let nprb := bits (carrReg s k 0x188 e) 8 0
  let shift := min 12 (bits (carrReg s k 0x194 e) 11 8)
  let ph := phaseOf s k e m sym
  let bins := (List.range m.n).map fun b =>
    match (List.range (12 * nprb)).find? fun i => binOf num m.n nprb i = b with
    | some i => (xs[i]?).getD Cx.zero
    | none => Cx.zero
  let ys := dft true m.n bins
  let cp := m.prefix sym
  let out := (List.range (cp + m.n)).map fun (i : Nat) =>
    let y := (ys[(i + m.n - cp) % m.n]?).getD Cx.zero
    wordOnce (((y.mul (halfShift num m.n ((i : Int) - cp) true)).mul ph).scale (pow2 (-(shift : Int)))).snap
  (out.map (·.1), ((out.drop cp).map (·.2)).sum)

/-- IFFT_TX combines and transforms one symbol, with the weight set read for it (R242, R246–R248). -/
def txCapture (k : Nat) (op : OfdmOp) (y : Nat) : RdM SymGot := do
  let s ← rdGet id
  let p := ofdmPage k
  let e := opEntry op.words
  let m := numer s k e
  let nprb := bits (carrReg s k 0x188 e) 8 0
  let kk := 12 * nprb
  let w ← opWeights p (opWset op) nprb
  let nin := match w with | some w => w.ins | none => (antennas s k e).length
  let ins ← (List.range nin).mapM fun i => rdWords p (wAddr op.words 7 + ((y * nin + i) * kk) * 4) kk
  let ins := ins.map fun r => r.map (cxOfWord 15)
  let sig : List (List (Word × Nat)) := match w with
    | none => ins.map fun r => r.map wordOnce
    | some w => (List.range w.outs).map fun o => (List.range kk).map fun i =>
      match combine w o i (ins.map fun r => (r[i]?).getD Cx.zero) with
      | none => (0, 0)
      | some x => wordOnce (x.scale (pow2 (-(cShift s k e : Int))))
  let tx := sig.map fun r => txSymbol s k e m (opSym m op y) (r.map fun x => cxOfWord 15 x.1)
  return ⟨y, devTime s, tx.map (·.1), [], 0, (tx.map (·.2)).sum, (sig.map fun r => (r.map (·.2)).sum).sum⟩

/-- IFFT_TX ends (R237): its symbols are written to the DFE (R241). -/
def opIfftTx (k : Nat) (op : OfdmOp) : RdM OpOut := do
  let s ← rdGet id
  let e := opEntry op.words
  let m := numer s k e
  let cs := carrSlot s k e
  let ants := antennas s k e
  let sat := (op.got.map (·.sat)).sum
  let csat := (op.got.map (·.csat)).sum
  let tx := op.got.flatMap fun g =>
    let sym := opSym m op g.y
    let t := subStart s k e m sym true + ((m.inSub sym - m.prefix sym) * msUnits / m.rate : Nat)
    (ants.zip g.rows).map fun (a, xs) => (⟨a, cs, t, m.rate, xs⟩ : TxSym)
  let live (x : TxSym) : Bool := decide (txStreamTime s k x.slot ≤ x.at_ + (x.xs.length * msUnits / max 1 x.rate : Nat))
  return ⟨[], 0, [(1, op.got.length), (7, sat), (8, csat)], (if sat + csat = 0 then [] else [1]), none,
    fun o => { o with tx := tx ++ o.tx.filter live }, false⟩

/-! ### Channel estimation (R252–R257, R277) -/

/-- Reads an allocation list. -/
def rdAllocs (p a n : Nat) : RdM (List (List Word)) :=
  (List.range n).mapM fun i => rdWords p (a + 64 * i) 16

/-- The element address of a grid (R233). -/
def gridAddr (base inputs kk sym i : Nat) : Nat := base + (sym * inputs + i) * kk * 4

/-- The DMRS symbols that share a time cover, in twos where there is one (R252). -/
def coverSets (pairs : Bool) : List Nat → List (List Nat)
  | [] => []
  | [y] => [[y]]
  | y :: z :: r => if pairs then [y, z] :: coverSets pairs r else [y] :: coverSets pairs (z :: r)

/-- The elements that share a layer's covers in a set of `n` symbols: N_D (R252). [DEDUCED, log 42] -/
def despreadNo (a : List Word) (n : Nat) : Nat := (if allocLte a then 1 else 2) * n

/-- The despread least-squares values of a layer on a set of DMRS symbols: the subcarrier at the middle of each group of the
orthogonal covers, doubled, and the value. -/
def lsSet (p : Nat) (t : SlotNo) (a : List Word) (base inputs kk l : Nat) (ys : List Nat) :
    RdM (List (Nat × Cx)) := do
  let first := 12 * bits (wWord a 0) 8 0
  let per ← ys.mapM fun y => do
    let row ← rdWords p (base + (y * inputs + allocBeam a l) * kk * 4 + first * 4) (12 * allocPrbs a)
    return (dmrsRef a l t y).map fun (c, r) => (c, (cxOfWord 15 ((row[c]?).getD 0)).mul r.conj)
  let g := despreadNo a 1
  return (List.range (dmrsPerPrb a * allocPrbs a / g)).map fun j =>
    let es := per.flatMap fun v => (v.drop (g * j)).take g
    (2 * (es.map (·.1)).sum / max 1 es.length, (Cx.sum (es.map (·.2))).scale (1 / ((max 1 es.length : Nat) : Rat)))

/-- The despread values of a layer, set by set. [DEDUCED, log 42] -/
def lsLayer (p : Nat) (op : OfdmOp) (t : SlotNo) (a : List Word) (base inputs kk l : Nat) :
    RdM (List (Nat × List (Nat × Cx))) :=
  let ys := (dmrsSyms a).filter fun y => (opSyms op.words).contains y
  (coverSets (allocDouble a || (allocLte a && bit (wWord a 4) 20)) ys).mapM fun set => do
    let v ← lsSet p t a base inputs kk l set
    return (despreadNo a set.length, v)

/-- A list read with even reflection beyond both ends. -/
def reflectAt {α : Type} (d : α) (xs : List α) (i : Int) : α :=
  let n := xs.length
  if n ≤ 1 then (xs[0]?).getD d
  else
    let per : Nat := 2 * (n - 1)
    let r := (i % per).toNat
    (xs[if r < n then r else per - r]?).getD d

/-- The 15-tap smoothing filter (R253). -/
def smooth (taps : List Word) (xs : List Cx) : List Cx :=
  (List.range xs.length).map fun (i : Nat) => Cx.sum ((List.range 15).map fun (j : Nat) =>
    let c : Rat := (signed 16 ((taps[((j : Int) - 7).natAbs]?).getD 0).toNat : Rat) / (2 ^ 14 : Nat)
    (reflectAt Cx.zero xs ((i : Int) + j - 7)).scale c)

/-- Linear interpolation of values at doubled positions to a subcarrier. -/
def interp (pos : List Nat) (hs : List Cx) (c : Nat) : Cx :=
  let lo := ((pos.zip hs).filter fun x => x.1 ≤ 2 * c).getLast?
  let hi := (pos.zip hs).find? fun x => decide (2 * c < x.1)
  match lo, hi with
  | some (a, x), some (b, y) => x.add ((y.sub x).scale (qdiv ((2 * c : Nat) - (a : Rat)) ((b : Rat) - a)))
  | some (_, x), none => x
  | none, some (_, y) => y
  | none, none => Cx.zero

/-- ρ of R255 for a filter. -/
def rhoOf (taps : List Word) : Rat :=
  let c (i : Nat) : Rat := (signed 16 ((taps[i]?).getD 0).toNat : Rat) / (2 ^ 14 : Nat)
  (1 - c 0) * (1 - c 0) + 2 * ((List.range 7).map fun i => c (i + 1) * c (i + 1)).sum

/-- A noise-floor entry: POWER and word 1 (R268). -/
def rdNf (p a i b : Nat) : RdM (Word × Word) := do
  let h ← rdWords p a 2
  let e ← rdWords p (a + 64 + (i * bits (wWord h 1) 7 0 + b) * 8) 2
  return (wWord e 0, wWord e 1)

/-- σ² of a layer for each subband of the estimate, and whether a fallback occurred (R255, R256). `ls` holds for each set of DMRS
symbols N_D, the despread values and the smoothed ones. -/
def noiseOf (p : Nat) (s : State) (op : OfdmOp) (a : List Word) (l first nprb : Nat)
    (ls : List (Nat × List (Nat × Cx) × List Cx)) : RdM (List (Option Word × Bool)) := do
  let src := bits (wWord op.words 11) 13 12
  let dflt := getReg s p 0x10C
  let rho := rhoOf op.taps
  let a0 := 12 * bits (wWord a 0) 8 0
  let a1 := a0 + 12 * allocPrbs a
  (List.range ((nprb + 3) / 4)).mapM fun b => do
    let c0 := 12 * first + 48 * b
    if c0 + 48 ≤ a0 ∨ a1 ≤ c0 then return (none, false)
    else match src with
    | 0 =>
      let ds : List (Nat × Rat) := ls.flatMap fun (nd, v, sm) =>
        ((v.zip sm).filter fun x => decide (c0 ≤ a0 + x.1.1 / 2 ∧ a0 + x.1.1 / 2 < c0 + 48)).map fun x =>
          (nd, (x.1.2.sub x.2).normSq)
      if rho < pow2 (-8) then return (some dflt, true)
      else
        let sum := (ds.map fun x => (x.1 : Rat) * x.2).sum
        return (some (nvWord (qdiv sum (((ds.length : Nat) : Rat) * rho))), false)
    | 1 =>
      let prbs := (List.range 4).filterMap fun j => if 4 * b + j < nprb then some (first + 4 * b + j) else none
      let es ← prbs.mapM fun r => rdNf p (wAddr op.words 12) (allocBeam a l) (r / 4)
      if es.all fun x => bit x.2 31 then
        return (some (nvWord (qdiv ((es.map fun x => nvValue x.1).sum) ((es.length : Nat) : Rat))), false)
      else return (some dflt, true)
    | _ => return (some dflt, false)

/-- Q3.13 words of a list. -/
def q313 (xs : List Cx) : List Word := xs.map fun x => (wordOfCx 13 x).1

/-- CE (R252–R257), or steps 1 and 2 in host-assisted mode (R277). [DEDUCED, log 42] -/
def opCe (k : Nat) (op : OfdmOp) : RdM OpOut := do
  let s ← rdGet id
  let p := ofdmPage k
  let e := opEntry op.words
  if bits (wWord op.words 11) 13 12 = 3 then throw OpErr.badArg
  let kk := 12 * bits (carrReg s k 0x188 e) 8 0
  let allocs ← rdAllocs p (wAddr op.words 9) (bits (wWord op.words 11) 7 0)
  let t := slotNo (numer s k e) op.slot
  if !(allocs.all (allocOk true (bits (carrReg s k 0x188 e) 8 0))) then throw OpErr.badArg
  let inputs := Config.gridInputs k op.words
  let grid := wAddr op.words 5
  let est := wAddr op.words 7
  let first := (allocs.map fun a => bits (wWord a 0) 8 0).foldl min 275
  let last := (allocs.map fun a => bits (wWord a 0) 8 0 + bits (wWord a 0) 24 16).foldl max 0
  let nprb := last - first
  let nsb := (nprb + 3) / 4
  let dm := (allocs.map allocDmrs).foldl (· ||| ·) 0
  let dm := ((opSyms op.words).filter fun y => Nat.testBit dm y).foldl (fun m y => m + 2 ^ y) 0
  let layers := min 16 ((allocs.map fun a => bits (wWord a 11) 15 0 + allocLayers a).foldl max 0)
  let hbase := est + 0x40 + layers * nsb * 4
  let parts ← allocs.mapM fun a => (List.range (allocLayers a)).mapM fun l => do
    let ls ← lsLayer p op t a grid inputs kk l
    let el := bits (wWord a 11) 15 0 + l
    let off := 12 * (bits (wWord a 0) 8 0 - first)
    if op.ha then
      return ([(hbase + (el * 12 * nprb) * 4 + off * 4, wordsBytes (q313 (ls.flatMap fun v => v.2.map (·.2))))], false)
    else
      let sm := ls.map fun v => (v.1, v.2, smooth op.taps (v.2.map (·.2)))
      let hs := (List.range (12 * allocPrbs a)).map fun c =>
        (Cx.sum (sm.map fun v => interp (v.2.1.map (·.1)) v.2.2 c)).scale (1 / ((max 1 sm.length : Nat) : Rat))
      let nv ← noiseOf p s op a l first nprb sm
      let nvOut := nv.zipIdx.filterMap fun (x, b) => x.1.map fun w =>
        (est + 0x40 + (el * nsb + b) * 4, leBytes 4 w.toNat)
      return (nvOut ++ [(hbase + (el * 12 * nprb) * 4 + off * 4, wordsBytes (q313 hs))], nv.any (·.2))
  let body := parts.flatMap fun ls => ls.flatMap (·.1)
  let fb := parts.any fun ls => ls.any (·.2)
  let word0 := dm + layers * 2 ^ 16 + (if fb then 2 ^ 30 else 0) + (if op.ha then 0 else 2 ^ 31)
  let hdr := [(est + 4, leBytes 4 first), (est + 8, leBytes 4 nprb),
    (est + 0x0C, List.replicate 52 (0 : Byte)), (est, leBytes 4 word0)]
  return ⟨body ++ hdr, 0, [(2, 1), (11, if fb then 1 else 0)], (if fb then [4] else []), none, id, !op.ha⟩

/-! ### The constellation and the scrambling sequence -/

/-- Bits in a modulation symbol. -/
def modBits (m : Nat) : Nat := [1, 2, 4, 6, 8, 10][m]?.getD 1

/-- One axis of a square constellation from its bits, first bit first. [PRESUMED, log 43] -/
def axisOf : List Bool → Int
  | [] => 0
  | [b] => if b then -1 else 1
  | b :: bs => (if b then -1 else 1) * ((2 ^ bs.length : Nat) - axisOf bs)

/-- The mean square of a square constellation before it is normalised. [PRESUMED, log 43] -/
def modNorm (m : Nat) : Nat := [2, 2, 10, 42, 170, 682][m]?.getD 2

/-- The 3GPP constellation point of `modBits m` bits (R261, R266); `i` is the symbol number, for π/2-BPSK.
[PRESUMED, log 43] -/
def modPoint (m i : Nat) (bs : List Bool) : Cx :=
  let r := sqrtQ (1 / ((modNorm m : Nat) : Rat))
  if m = 0 then
    let x : Int := axisOf bs
    if i % 2 = 0 then ⟨r * x, r * x⟩ else ⟨-(r * x), r * x⟩
  else
    let ev := bs.zipIdx.filterMap fun (b, j) => if j % 2 = 0 then some b else none
    let od := bs.zipIdx.filterMap fun (b, j) => if j % 2 = 1 then some b else none
    ⟨r * (axisOf ev : Int), r * (axisOf od : Int)⟩

/-- The bits of a number, first bit most significant. -/
def bitsOf (n v : Nat) : List Bool := (List.range n).map fun j => Nat.testBit v (n - 1 - j)

/-! ### The equaliser (R258–R265) -/

/-- An estimate record (R257): its header words and what its body gives. -/
structure Est where
  layers : Nat
  dmrs : Nat
  first : Nat
  nprb : Nat
  base : Nat

/-- Reads an estimate record's header; none where its address or its VALID is 0. -/
def rdEst (p a : Nat) : RdM (Option Est) := do
  if a = 0 then return none
  else
    let h ← rdWords p a 3
    if bit (wWord h 0) 31 then
      return some ⟨bits (wWord h 0) 20 16, bits (wWord h 0) 13 0, bits (wWord h 1) 8 0, bits (wWord h 2) 8 0, a⟩
    else return none

/-- The symbol of an estimate record: the lowest of its DMRS symbols. -/
def Est.sym (e : Est) : Nat := ((List.range 14).find? fun y => Nat.testBit e.dmrs y).getD 0

/-- h and σ² of a record for a layer over a range of subcarriers. -/
def rdHs (p : Nat) (e : Est) (l c0 n : Nat) : RdM (List (Cx × Rat)) := do
  let nsb := (e.nprb + 3) / 4
  let sg ← rdWords p (e.base + 0x40 + l * nsb * 4) nsb
  let h ← rdWords p (e.base + 0x40 + e.layers * nsb * 4 + (l * 12 * e.nprb + (c0 - 12 * e.first)) * 4) n
  return h.zipIdx.map fun (w, i) => (cxOfWord 13 w, nvValue ((sg[(c0 + i - 12 * e.first) / 48]?).getD 0))

/-- h and σ² of a symbol from records A and B (R259). -/
def mixEst (mode y : Nat) (a : Est) (b : Option Est) (ha : Cx × Rat) (hb : Cx × Rat) : Cx × Rat :=
  match b with
  | none => ha
  | some b =>
    match mode with
    | 1 =>
      let t := qdiv ((y : Rat) - a.sym) ((b.sym : Rat) - a.sym)
      (ha.1.add ((hb.1.sub ha.1).scale t), (ha.2 + hb.2) / 2)
    | 2 => ((ha.1.add hb.1).scale (1 / 2), (ha.2 + hb.2) / 2)
    | _ => ha

/-- The max-log LLRs of an unbiased symbol with its effective noise (R261), before scaling. -/
def llrs (m i : Nat) (z : Cx) (noise : Rat) : List Rat :=
  let nb := modBits m
  let pts := (List.range (2 ^ nb)).map fun v => (bitsOf nb v, modPoint m i (bitsOf nb v))
  (List.range nb).map fun j =>
    let ds (b : Bool) : List Rat := (pts.filter fun x => (x.1[j]?).getD false = b).map fun x => (z.sub x.2).normSq
    let least (xs : List Rat) : Rat := match xs with | [] => 0 | x :: r => r.foldl min x
    qdiv (least (ds true) - least (ds false)) noise

/-- R261: the scaled and saturated LLR, and whether it saturated. -/
def satLlr (scale : Nat) (l : Rat) : Int × Bool :=
  let v := roundEven (l * ((scale : Nat) : Rat) / 16)
  (clampI (-127) 127 v, decide (v < -127 ∨ 127 < v))

/-- The angle of a complex number in turns, found by halving a quadrant. -/
def angleBis (x : Cx) : Nat → Nat → Nat → Nat
  | 0, lo, _ => lo
  | n + 1, lo, w =>
    let t := turn (lo + w / 2) (2 ^ 40)
    if 0 ≤ t.re * x.im - t.im * x.re then angleBis x n (lo + w / 2) (w / 2) else angleBis x n lo (w / 2)

/-- The angle of a complex number in units of 2⁻⁴⁰ turn. -/
def angleOf (x : Cx) : Int :=
  let q : Nat := if 0 < x.re ∧ 0 ≤ x.im then 0 else if x.re ≤ 0 ∧ 0 < x.im then 1
    else if x.re < 0 then 2 else 3
  let a := angleBis x 38 (q * 2 ^ 38) (2 ^ 38)
  if a < 2 ^ 39 then a else (a : Int) - 2 ^ 40

/-- M of transform precoding: 12 × 2^a × 3^b × 5^c, at most 3,240 (R262). -/
def tpOk (m : Nat) : Bool :=
  decide (m ≤ 3240) && m % 12 = 0 && (List.range 9).any fun a => (List.range 6).any fun b => (List.range 4).any fun c =>
    m = 12 * 2 ^ a * 3 ^ b * 5 ^ c

/-- One data element of the equaliser's output: symbol, subcarrier, layer, z, noise, γ. -/
structure EqRe where
  y : Nat
  c : Nat
  l : Nat
  z : Cx
  noise : Rat
  gamma : Rat

/-- One symbol of one layer, equalised (R261–R263). -/
def eqSymbol (p k : Nat) (s : State) (op : OfdmOp) (a : List Word) (ea eb : Option Est) (y l : Nat) :
    RdM (List EqRe × Option Int) := do
  let e := opEntry op.words
  let kk := 12 * bits (carrReg s k 0x188 e) 8 0
  let first := 12 * bits (wWord a 0) 8 0
  let n := 12 * bits (wWord a 0) 24 16
  let ys ← rdWords p (gridAddr (wAddr op.words 5) (Config.gridInputs k op.words) kk y (allocBeam a l) + first * 4) n
  let el := bits (wWord a 11) 15 0 + l
  let dflt := nvValue (getReg s p 0x10C)
  let hs ← match ea with
    | none => pure (List.replicate n ((⟨1, 0⟩ : Cx), dflt))
    | some ra => do
      let hA ← rdHs p ra el first n
      match eb with
      | none => pure hA
      | some rb => do
        let hB ← rdHs p rb el first n
        pure ((hA.zip hB).map fun x => mixEst (bits (wWord op.words 13) 9 8) y ra eb x.1 x.2)
  let xs := (ys.zip hs).map fun (w, h) =>
    let yv := cxOfWord 15 w
    let pw := h.1.normSq
    (h.1, h.2, (h.1.conj.mul yv).scale (qdiv 1 (pw + h.2)), qdiv pw (pw + h.2), yv)
  let pt := if (ptrsSyms a).contains y then ptrsRef a l (slotNo (numer s k e) op.slot) else []
  let ph : Option Int := if pt.isEmpty then none else some (angleOf (Cx.sum (pt.map fun (c, r) =>
    match xs[c]? with
    | some x => x.2.2.2.2.mul (x.1.mul r).conj
    | none => Cx.zero)))
  let res := if bit (wWord a 1) 31 then
      let bbar := qdiv ((xs.map fun x => x.2.2.2.1).sum) ((n : Nat) : Rat)
      let inv := (dft true n (xs.map fun x => x.2.2.1)).map fun v => v.scale (sqrtQ (qdiv 1 ((n : Nat) : Rat)))
      inv.zipIdx.map fun (v, c) => (⟨y, c, l, v.scale (qdiv 1 bbar), qdiv (1 - bbar) bbar,
        qdiv bbar (1 - bbar)⟩ : EqRe)
    else xs.zipIdx.map fun (x, c) => (⟨y, c, l, x.2.2.1.scale (qdiv 1 x.2.2.2.1), qdiv x.2.1 x.1.normSq,
        qdiv x.1.normSq x.2.1⟩ : EqRe)
  let skip := refRes a y
  return (res.filter fun r => !skip.contains r.c, ph)

/-- The phase of a symbol, interpolated from the symbols that carry PT-RS (R263), in units of 2⁻⁴⁰ turn. -/
def phaseAt (known : List (Nat × Int)) (y : Nat) : Int :=
  let lo := (known.filter fun x => x.1 ≤ y).getLast?
  let hi := known.find? fun x => decide (y < x.1)
  match lo, hi with
  | some (a, x), some (b, z) => x + (z - x) * ((y : Int) - a) / ((b : Int) - a)
  | some (_, x), none => x
  | none, some (_, z) => z
  | none, none => 0

/-- Bytes of a list of bits, first bit in bit 7 of byte 0 (R294, R312). -/
def packBits : List Bool → List Byte
  | b0 :: b1 :: b2 :: b3 :: b4 :: b5 :: b6 :: b7 :: r =>
    BitVec.ofNat 8 ([b0, b1, b2, b3, b4, b5, b6, b7].foldl (fun v b => 2 * v + if b then 1 else 0) 0) :: packBits r
  | [] => []
  | bs => [BitVec.ofNat 8 ((bs ++ List.replicate (8 - bs.length) false).foldl
      (fun v b => 2 * v + if b then 1 else 0) 0)]

/-- The bits of a list of bytes, bit 7 of byte 0 first. -/
def unpackBits (bs : List Byte) : List Bool := bs.flatMap fun b => bitsOf 8 b.toNat

/-- One allocation of EQ: its LLR bytes, saturations, and words 14 and 15. -/
def eqAlloc (p k : Nat) (s : State) (op : OfdmOp) (ea eb : Option Est) (a : List Word) :
    RdM (List Byte × Nat × Nat × Nat) := do
  let m := bits (wWord a 3) 31 28
  if !allocOk true (bits (carrReg s k 0x188 (opEntry op.words)) 8 0) a then throw OpErr.badArg
  if allocTp a ∧ !(tpOk (12 * allocPrbs a)) then throw OpErr.badArg
  let nl := allocLayers a
  let syms := (opSyms op.words).filter fun y => Nat.testBit (bits (wWord a 1) 13 0) y
  let per ← (List.range nl).mapM fun l => do
    let rows ← syms.mapM fun y => do
      let r ← eqSymbol p k s op a ea eb y l
      return (y, r)
    let known := rows.filterMap fun (y, r) => r.2.map fun ph => (y, ph)
    return rows.flatMap fun (y, r) =>
      let t := turn (wrapN 40 (-(phaseAt known y))) (2 ^ 40)
      if known.isEmpty then r.1 else r.1.map fun x => { x with z := x.z.mul t }
  let nre := (per.map (·.length)).foldl min ((per.head?.map (·.length)).getD 0)
  let order := (List.range nre).flatMap fun i => per.filterMap fun r => r[i]?
  let sc := bits (carrReg s k 0x194 (opEntry op.words)) 31 24
  let raw := order.zipIdx.flatMap fun (x, i) => llrs m i x.z x.noise
  let cs := scramble (bits (wWord a 2) 30 0) raw.length
  let out := (raw.zip cs).map fun (l, c) => let (v, st) := satLlr sc l; ((if c then -v else v), st)
  let gs := per.map fun r => qdiv ((r.map (·.gamma)).sum) ((r.length : Nat) : Rat)
  let mean := qdiv gs.sum ((nl : Nat) : Rat)
  let least := match gs with | [] => 0 | g :: r => r.foldl min g
  let sat := (out.filter (·.2)).length
  return (out.map fun x => BitVec.ofInt 8 x.1, sat, dBq8 least * 2 ^ 16 + dBq8 mean, min 0xFFFF sat)

/-- EQ (R259–R265). -/
def opEq (k : Nat) (op : OfdmOp) : RdM OpOut := do
  let s ← rdGet id
  let p := ofdmPage k
  if bits (wWord op.words 13) 9 8 = 3 then throw OpErr.badArg
  let ea ← rdEst p (wAddr op.words 7)
  let eb ← rdEst p (wAddr op.words 9)
  let list := wAddr op.words 11
  let n := bits (wWord op.words 13) 7 0
  let allocs ← rdAllocs p list n
  let rs ← allocs.mapM fun a => do
    let r ← eqAlloc p k s op ea eb a
    return (a, r)
  let valid := ea.isSome
  let sat := (rs.map fun r => r.2.2.1).sum
  return ⟨rs.zipIdx.flatMap fun (r, i) => [(wAddr r.1 12, r.2.1),
      (list + 64 * i + 56, leBytes 4 r.2.2.2.1 ++ leBytes 4 r.2.2.2.2)],
    (if valid then 2 ^ 23 else 0), [(3, 1), (9, sat), (10, if valid then 0 else 1)], [], none, id, false⟩

/-! ### Transmit mapping (R266, R267) -/

/-- The writes of one allocation of TX_MAP. -/
def txMapAlloc (p k : Nat) (s : State) (op : OfdmOp) (a : List Word) : RdM (List (Nat × List Byte)) := do
  let e := opEntry op.words
  let nprb := bits (carrReg s k 0x188 e) 8 0
  if !allocOk false nprb a then throw OpErr.badArg
  let kk := 12 * nprb
  let inputs := Config.gridInputs k op.words
  let base := wAddr op.words 5
  let t := slotNo (numer s k e) op.slot
  let m := bits (wWord a 3) 31 28
  let nl := allocLayers a
  let nb := modBits m
  let first := 12 * bits (wWord a 0) 8 0
  let amp : Rat := (signed 16 (bits (wWord a 11) 31 16) : Rat) / (2 ^ 15 : Nat)
  let boost := if bit (wWord a 4) 24 then amp * sqrtQ 2 else amp
  let syms := (opSyms op.words).filter fun y => Nat.testBit (bits (wWord a 1) 13 0) y
  let res : List (Nat × Nat) := syms.flatMap fun y =>
    let skip := refRes a y
    ((List.range (12 * allocPrbs a)).filter fun c => !skip.contains c).map fun c => (y, c)
  let raw ← rdBytes p (wAddr a 12) ((res.length * nl * nb + 7) / 8)
  let bs := unpackBits raw
  let sc := scramble (bits (wWord a 2) 30 0) (res.length * nl * nb)
  let tb := (bs.zip sc).map fun x => x.1 ^^ x.2
  let put (y c l : Nat) (x : Cx) : Nat × List Byte :=
    (gridAddr base inputs kk y (allocBeam a l) + (first + c) * 4, leBytes 4 (wordOfCx 15 x).1.toNat)
  let data := (List.range nl).flatMap fun l => res.zipIdx.map fun (yc, i) =>
    put yc.1 yc.2 l ((modPoint m (i * nl + l) ((tb.drop ((i * nl + l) * nb)).take nb)).scale amp).snap
  let refs := (List.range nl).flatMap fun l => (opSyms op.words).flatMap fun y =>
    ((if (dmrsSyms a).contains y then dmrsRef a l t y else []) ++
      if (ptrsSyms a).contains y then ptrsRef a l t else []).map fun (c, r) => put y c l (r.scale boost).snap
  return data ++ refs

/-- TX_MAP (R266). -/
def opTxMap (k : Nat) (op : OfdmOp) : RdM OpOut := do
  let s ← rdGet id
  let p := ofdmPage k
  let allocs ← rdAllocs p (wAddr op.words 7) (bits (wWord op.words 9) 7 0)
  let ws ← allocs.mapM fun a => txMapAlloc p k s op a
  return OpOut.writes ws.flatten

/-! ### Noise floor and PRACH (R268–R275) -/

/-- One entry of a noise-floor record after the counted symbols with mean powers `ps` (R269). -/
def nfUpdate (alpha : Nat) (pw w1 : Word) (ps : List Rat) : Word × Word :=
  let r := ps.foldl (fun (acc : Rat × Nat) x =>
    let n := acc.2 + 1
    (if acc.2 < 64 then acc.1 + (x - acc.1) / ((n : Nat) : Rat) else acc.1 + (x - acc.1) * pow2 (-(alpha : Int)),
      min 255 n)) (nvValue pw, bits w1 23 16)
  if ps.isEmpty then (pw, w1)
  else (nvWord r.1, w32 ((if 64 ≤ r.2 then 2 ^ 31 else 0) + r.2 * 2 ^ 16 + dBq8 r.1))

/-- NF (R268, R269). -/
def opNf (k : Nat) (op : OfdmOp) : RdM OpOut := do
  let s ← rdGet id
  let p := ofdmPage k
  let e := opEntry op.words
  let nprb := bits (carrReg s k 0x188 e) 8 0
  let kk := 12 * nprb
  let inputs := bits (wWord op.words 7) 6 0
  let base := wAddr op.words 5
  let rec_ := wAddr op.words 8
  let mask := wAddr op.words 10
  let alpha := min 12 (bits (getReg s p 0x110) 3 0)
  let nsb := (nprb + 3) / 4
  let syms := opSyms op.words
  let masks ← syms.zipIdx.mapM fun (y, j) => do
    let ws ← rdWords p (mask + 36 * j) 9
    return (y, ws)
  let outs ← (List.range inputs).mapM fun i => (List.range nsb).mapM fun b => do
    let prbs := (List.range 4).filterMap fun j => if 4 * b + j < nprb then some (4 * b + j) else none
    let ok := masks.filter fun x => prbs.all fun r => bit (wWord x.2 (r / 32)) (r % 32)
    let ps ← ok.mapM fun x => do
      let ws ← rdWords p (gridAddr base inputs kk x.1 i + 48 * b * 4) (12 * prbs.length)
      return qdiv ((ws.map fun w => (cxOfWord 15 w).normSq).sum) ((ws.length : Nat) : Rat)
    let ent := rec_ + 64 + (i * nsb + b) * 8
    let old ← rdWords p ent 2
    let (a, c) := nfUpdate alpha (wWord old 0) (wWord old 1) ps
    return (ent, wordsBytes [a, c])
  let hdr := [(rec_, leBytes 4 inputs ++ leBytes 4 nsb)]
  return OpOut.writes (outs.flatten ++ hdr)

/-- The time at the antenna plane at which the occasion of a PRACH operation starts (R237). -/
def prachStart (s : State) (op : OfdmOp) : Int := (devNs s - sinceTarget s (wWord op.words 5)) * (2 ^ 32 : Nat)

/-- PRACH (R271–R274). [PRESUMED, log 146] -/
def opPrach (k : Nat) (op : OfdmOp) : RdM OpOut := do
  let s ← rdGet id
  let p := ofdmPage k
  let e := opEntry op.words
  let conf ← rdWords p (wAddr op.words 6) 16
  let c := Config.prachConf conf
  let nprb := bits (carrReg s k 0x188 e) 8 0
  let w ← opWeights p (wAddr op.words 8) nprb
  match prachFmts[bits (wWord conf 0) 4 0]? with
  | none => throw OpErr.badArg
  | some f =>
    if c.roots < 1 ∨ 64 < c.roots ∨ (w.map fun w => decide (16 < w.outs)) = some true then throw OpErr.badArg
    let m := numer s k e
    let per := f.perSc m.mu
    let k0 : Int := f.offset m.mu + per * (12 * (c.prb : Int) - 6 * nprb) + (if f.lte then (per / 2 : Nat) else 0 : Nat)
    let reps := List.range f.reps
    let bins : List (List (List Cx)) := (antennas s k e).map fun a => reps.map fun r =>
      prachBins f.len k0 (rxSamples s k e a m (prachStart s op) (f.cpLen m.n m.mu + r * f.repLen m.n m.mu : Nat) (f.repLen m.n m.mu))
    let el (b : List (List Cx)) (r j : Nat) : Cx := ((b[r]?).bind fun x => x[j]?).getD Cx.zero
    let sig : List (List (List Cx)) := match w with
      | none => bins
      | some w => (List.range w.outs).map fun o => reps.map fun r => (List.range f.len).map fun j =>
        (combine w o (12 * c.prb + (j + f.offset m.mu) / per) (bins.map fun b => el b r j)).getD Cx.zero
    let prof := (List.range c.roots).map fun i =>
      let root := rootSpectrum f.len (prachRoot f.len (c.root + i))
      sig.map fun b => addProfiles f.idft (b.map (prachProfile f.idft root))
    let thr := if c.thr = 0 then bits (getReg s p 0x114) 15 0 else c.thr.toNat
    let (noise, dets) := prachDetect f m.mu c ((signed 16 thr : Rat) / 256) prof
    let rep := wAddr op.words 10
    let hdr := leBytes 4 (dets.length + noise * 2 ^ 16) ++ List.replicate 60 (0 : Byte)
    let recs := dets.zipIdx.map fun (d, i) => (rep + 64 + 16 * i,
      leBytes 4 (d.pre + d.input * 256) ++ leBytes 4 (wrapN 32 d.delay) ++ leBytes 4 d.metric ++ leBytes 4 d.peak)
    return ⟨(rep, hdr) :: recs, 0, [(4, 1), (5, dets.length)], [], none, id, false⟩

/-- What an operation does when it runs. -/
def runOfdm (k : Nat) (op : OfdmOp) : RdM OpOut :=
  match op.kind with
  | 1 => opFftRx k op
  | 2 => opIfftTx k op
  | 3 => opCe k op
  | 4 => opEq k op
  | 5 => opNf k op
  | 6 => opPrach k op
  | _ => opTxMap k op

/-! ### The end of an operation -/

/-- The export ring of a block (R277). -/
def ofdmRing (k : Nat) : Ring := ⟨ofdmPage k, 0x120, 0x128, 0x12C, 0x130, 64, 6, 4, 12⟩

/-- The export entry of a CE (R277). [DESIGN CHOICE, log 26] -/
def exportEntry (op : OfdmOp) : List Byte :=
  leBytes 8 op.desc ++ leBytes 8 (wAddr op.words 7) ++ leBytes 8 (wAddr op.words 9) ++
    wordsBytes [wWord op.words 2, wWord op.words 3] ++ List.replicate 32 0

/-- Partial sums go to the home block (R249). -/
def sendPartials (s : State) (k : Nat) (op : OfdmOp) (gs : List SymGot) : State :=
  let e := opEntry op.words
  if op.kind ≠ 1 ∨ opWset op = 0 ∨ bit (carrReg s k 0x18C e) 8 then s
  else
    let hb := bits (carrReg s k 0x18C e) 13 12
    let mine : List Partial := gs.map fun g => ⟨bits (carrReg s k 0x180 e) 15 8, opSym (numer s k e) op g.y, k,
      g.sums.map fun r => r.map fun x => match x with | none => (0, 0) | some (a, b) => toQ824 ⟨a, b⟩⟩
    setOfdm s hb { ofdmOf s hb with partials := (ofdmOf s hb).partials ++ mine }

/-- The symbols that an operation can transform now: for FFT_RX those whose samples have come (R240). -/
def symsDue (s : State) (k : Nat) (op : OfdmOp) : List Nat :=
  let e := opEntry op.words
  let m := numer s k e
  if (op.kind ≠ 1 ∧ op.kind ≠ 2) ∨ op.bad.isSome then []
  else (opSyms op.words).filter fun y => !(op.got.any fun g => g.y = y) &&
    (op.kind = 2 || op.missed.contains y || decide (m.start (opSym m op y + 1) ≤ sampleNow s k e m false))

/-- The operation in place `i` of a block transforms the symbols that it can, each with the weight set and the scaling that stand at
that time (R227, R248), and sends its partial sums; an operand that it cannot read abandons it (R239). -/
def captureAt (k : Nat) (s : State) (i : Nat) : State :=
  match (ofdmOf s k).ops[i]? with
  | none => s
  | some op =>
    let due := symsDue s k op
    if due.isEmpty then s
    else
      let put (s : State) (op : OfdmOp) : State := setOfdm s k { ofdmOf s k with ops := setAt (ofdmOf s k).ops i op }
      match (due.mapM fun y => if op.kind = 1 then rxCapture k op y else txCapture k op y) s with
      | .ok gs s => sendPartials (put s { op with got := op.got ++ gs }) k op gs
      | .error x s => put s { op with bad := some x }

/-- The OFDM blocks transform the symbols whose samples have come (R240, R248, R249). -/
def ofdmTick (s : State) : State :=
  (List.range 4).foldl (fun s k =>
    whileRuns (ofdmPage k) (fun s => (List.range (ofdmOf s k).ops.length).foldl (captureAt k) s) s) s

/-- Whether an operation can end now: its symbols are transformed, its peers' sums have come or are missing (R249, R250), the
samples of its occasion have come, and no earlier NF works on the same record (R270). -/
def ofdmReady (s : State) (k i : Nat) (op : OfdmOp) : Bool :=
  let e := opEntry op.words
  let m := numer s k e
  op.bad.isSome ||
  match op.kind with
  | 1 =>
    (opSyms op.words).all fun y => op.got.any (fun g => g.y = y) &&
      (opWset op = 0 || (peersOf s k e).all fun j => op.missing.contains (y, j) ||
        (partialOf s k (bits (carrReg s k 0x180 e) 15 8) (opSym m op y) j).isSome)
  | 2 => (opSyms op.words).all fun y => op.got.any fun g => g.y = y
  | 5 => !(((ofdmOf s k).ops.take i).any fun o => o.kind = 5 && wAddr o.words 8 = wAddr op.words 8)
  | 6 =>
    match memRead s (ofdmPage k) (wAddr op.words 6) 4 with
    | (_, .ok, d) =>
      (match prachFmts[bits (wordAt d 0) 4 0]? with
       | some f => decide (prachStart s op + (f.total m.n m.mu * msUnits / m.rate : Nat) ≤ rxStreamTime s k (carrSlot s k e))
       | none => true)
    | _ => true
  | _ => true

/-- Ends an operation that has run. -/
def finishOfdm (s : State) (k : Nat) (op : OfdmOp) (r : OpOut) : State :=
  let p := ofdmPage k
  let e := opEntry op.words
  let s := putOuts s p r.outs
  let s := r.cnts.foldl (fun s c => addCnt s p c.1 c.2) s
  let s := r.evts.foldl (fun s b => setEvt s p b) s
  let s := setOfdm s k (r.upd (ofdmOf s k))
  let s := if r.eqValid ∧ bit (carrReg s k 0x180 e) 0 then
      setRegI s p 0x1A0 e (putBit (carrReg s k 0x1A0 e) 31 true) else s
  match r.err with
  | none => endOfdm s k op.fire op.desc none 0 r.sts
  | some (c, cls) => endOfdm s k op.fire op.desc (some c) cls r.sts

/-- OFDM_OP_DONE (R238, R279): an operation that can end does. -/
def ofdmOpDoneSt (k i : Nat) (s : State) : State :=
  let p := ofdmPage k
  let s := captureAt k s i
  let o := ofdmOf s k
  match o.ops[i]? with
  | none => s
  | some op =>
    if !ofdmReady s k i op then s
    else if op.ha ∧ op.kind = 3 ∧ (ofdmRing k).full s then setEvt s p 3
    else
      let s := setOfdm s k { o with ops := dropAt o.ops i }
      match op.bad with
      | some x => failOfdm s k op.fire op.desc x
      | none =>
        match runOfdm k op s with
        | .ok r s =>
          let s := if op.ha ∧ op.kind = 3 then
              let sz := bits (getReg s p 0x128) 4 0
              let s := if sz < 4 ∨ 12 < sz then ownErr s p 6 0x05 none else s
              (ofdmRing k).push (putOuts s p r.outs) (exportEntry op)
            else s
          finishOfdm s k op r
        | .error x s => failOfdm s k op.fire op.desc x

/-- The peers whose sums of a symbol are due and have not come (R250). -/
def absentPeers (s : State) (k : Nat) (op : OfdmOp) (y : Nat) : List Nat :=
  let e := opEntry op.words
  let m := numer s k e
  let sym := opSym m op y
  match op.got.find? fun g => g.y = y with
  | some g =>
    if op.kind = 1 ∧ opWset op ≠ 0 ∧ g.at_ + ((m.prefix sym + m.n) * msUnits / m.rate : Nat) ≤ devTime s then
      (peersOf s k e).filter fun j => !op.missing.contains (y, j) &&
        (partialOf s k (bits (carrReg s k 0x180 e) 15 8) sym j).isNone
    else []
  | none => []

/-- PEER_MISSING (R250): one symbol duration after its own sum, the home block treats the sums that have not come as zero. -/
def peerMissingSt (k i sym : Nat) (s : State) : State :=
  let p := ofdmPage k
  match (ofdmOf s k).ops[i]? with
  | none => s
  | some op =>
    let js := absentPeers s k op sym
    if js.isEmpty then s
    else
      let s := ownErr (setEvt s p 5) p 4 0x04 none
      setOfdm s k { ofdmOf s k with
        ops := setAt (ofdmOf s k).ops i { op with missing := op.missing ++ js.map fun j => (sym, j) } }

/-! ### Meanings -/

/-- A fire on the OFDM pool of a kind. -/
def ofdmFire (kind : Nat) (f : FireRec) (s : State) : State :=
  if f.pool = 3 ∧ f.member.toNat < 4 ∧ fireKind f = kind then
    fireRow (ofdmPage f.member.toNat) 0x05 f (fun g s => ofdmStart f.member.toNat (fireKind g) g s) s
  else s

/-- FFT_RX (R237). -/
def execFftRx (f : FireRec) (s : State) : Host.Outcome State Fault Refusal := .next (ofdmFire 1 f s)

/-- IFFT_TX (R237). -/
def execIfftTx (f : FireRec) (s : State) : Host.Outcome State Fault Refusal := .next (ofdmFire 2 f s)

/-- CE (R252). -/
def execCe (f : FireRec) (s : State) : Host.Outcome State Fault Refusal := .next (ofdmFire 3 f s)

/-- EQ (R261). -/
def execEq (f : FireRec) (s : State) : Host.Outcome State Fault Refusal := .next (ofdmFire 4 f s)

/-- NF (R269). -/
def execNf (f : FireRec) (s : State) : Host.Outcome State Fault Refusal := .next (ofdmFire 5 f s)

/-- PRACH (R273). -/
def execPrach (f : FireRec) (s : State) : Host.Outcome State Fault Refusal := .next (ofdmFire 6 f s)

/-- TX_MAP (R266). -/
def execTxMap (f : FireRec) (s : State) : Host.Outcome State Fault Refusal := .next (ofdmFire 7 f s)

/-- OFDM_OP_DONE (R238). -/
def execOfdmOpDone (k : Fin 4) (i : Nat) (s : State) : Host.Outcome State Fault Refusal :=
  .next (whileRuns (ofdmPage k) (fun s => dramHold s (ofdmOpDoneSt k i s)) s)

/-- PEER_MISSING (R250). -/
def execPeerMissing (k : Fin 4) (i : Nat) (sym : Fin 14) (s : State) : Host.Outcome State Fault Refusal :=
  .next (whileRuns (ofdmPage k) (peerMissingSt k i sym) s)

/-- CARR_ENABLE (R228). -/
def execCarrEnable (a : Acc) (k : Fin 4) (v : Word) (s : State) : Host.Outcome State Fault Refusal :=
  .next (onPage a (ofdmPage k) 0x180 (carrEnableSt k v) s)

/-- SMOOTH_DATA_WRITE (R281). -/
def execSmoothDataWrite (a : Acc) (k : Fin 4) (v : Word) (s : State) : Host.Outcome State Fault Refusal :=
  .next (onPage a (ofdmPage k) 0x11C (smoothWriteSt k v) s)

/-- What SOFT_RESET does to a block's operations (R58, R238): each ends in error with its descriptor and its token. -/
def ofdmDrop (s : State) (k : Nat) : State :=
  let s := (ofdmOf s k).ops.foldl (fun s o => endOfdm s k o.fire o.desc (some 0x11) 0 0) s
  setOfdm s k OfdmSt.init

end Sys2Proof.Machine
end

