-- ==== Sys2Proof/Machine/Codes.lean ====
section
/-! DEFINITION. The codes of Channel Coding and HARQ over lists of bits and of soft values: cyclic redundancy checks, the layered
offset min-sum decoder and the LDPC encoder over a base graph, turbo, polar and small block codes. What the spec takes from
TS 36.212 and TS 38.212 is theirs. [PRESUMED, log 49] -/

namespace Sys2Proof.Machine

/-! ### Cyclic redundancy checks -/

/-- The remainder of a bit string by a generator of degree `n`, with zero initial value. [PRESUMED, log 49] -/
def crcRem (n poly : Nat) (bs : List Bool) : Nat :=
  bs.foldl (fun r b =>
    let top := Nat.testBit r (n - 1) ^^ b
    let r := r * 2 % 2 ^ n
    if top then r ^^^ poly else r) 0

/-- CRC24A, CRC24B, CRC24C, CRC16, CRC11 and CRC6: degree and generator. -/
def crc24a : Nat × Nat := (24, 0x864CFB)

/-- CRC24B. -/
def crc24b : Nat × Nat := (24, 0x800063)

/-- CRC24C. -/
def crc24c : Nat × Nat := (24, 0xB2B117)

/-- The bits of a check of some generator over a bit string. -/
def crcBits (g : Nat × Nat) (bs : List Bool) : List Bool := bitsOf g.1 (crcRem g.1 g.2 bs)

/-! ### Soft values -/

/-- Soft values held to ±127. -/
def sat127 (x : Int) : Int := clampI (-127) 127 x

/-- A soft value's bit: a value below 0 is a 1 (R17). -/
def hardBit (x : Rat) : Bool := decide (x < 0)

/-- Positions of a circular buffer of `n`, `e` of them from `p` on, those that `skip` names left out. -/
def walk (skip : Nat → Bool) (n : Nat) : Nat → Nat → Nat → List Nat
  | 0, _, _ => []
  | fuel + 1, p, e =>
    if e = 0 then []
    else if skip (p % n) then walk skip n fuel (p + 1) e else p % n :: walk skip n fuel (p + 1) (e - 1)

/-- Adds soft values at positions of a buffer, each sum held to ±127 (R300). -/
def addSoft (buf : List Int) (ps : List Nat) (ys : List Int) : List Int :=
  (ps.zip ys).foldl (fun buf (p, y) => setAt buf p (sat127 ((buf[p]?).getD 0 + y))) buf

/-! ### LDPC (R298–R303)

The two base graphs stand in TS 38.212, Tables 5.3.2-2 and 5.3.2-3, which the spec names and does not repeat. -/

/-- The lifting sizes by set index: a·2^j up to 384 (R298). -/
def zcBases : List Nat := [2, 3, 5, 7, 9, 11, 13, 15]

/-- Whether a lifting size belongs to the set of a base. -/
def zcIn (z a : Nat) : Bool := (List.range 8).any fun j => z = a * 2 ^ j && decide (z ≤ 384)

/-- The lifting sizes of R298. -/
def zcOk (z : Nat) : Bool := zcBases.any (zcIn z)

/-- The set index of a lifting size (R298). -/
def zcSet (z : Nat) : Nat := (zcBases.findIdx? (zcIn z)).getD 0

/-- A block turned by `p` places. -/
def rotBits (p : Nat) (x : List Bool) : List Bool :=
  (List.range x.length).map fun i => (x[(i + p) % x.length]?).getD false

/-- Two blocks added. -/
def xorBits (x y : List Bool) : List Bool := x.zipWith (· ^^ ·) y

/-- The first `rows` rows of a base graph at a lifting size, each a list of block columns and turns. -/
def baseRows (bg zc rows : Nat) : List (List (Nat × Nat)) :=
  ((Config.baseGraph bg (zcSet zc)).take rows).map fun r => r.map fun (c, v) => (c, v % zc)

/-- The parity checks of those rows, each a list of bit positions, layer after layer (R301). -/
def ldpcChecks (bg zc rows : Nat) : List (List Nat) :=
  (baseRows bg zc rows).flatMap fun r =>
    (List.range zc).map fun z => r.map fun (c, p) => c * zc + (z + p) % zc

/-- The least magnitude of a list. -/
def leastMag : List Int → Int
  | [] => 0
  | x :: xs => xs.foldl (fun m y => min m (y.natAbs : Int)) (x.natAbs : Int)

/-- One check of a layer: the soft values and the check's messages after it (R301). In quarters of an LLR, with no bound on their
size. [DESIGN CHOICE, log 147] -/
def checkNode (off : Int) (l : List Int) (vs : List Nat) (ms : List Int) : List Int × List Int :=
  let t := (vs.zip ms).map fun (v, m) => (l[v]?).getD 0 - m
  let out := (List.range t.length).map fun i =>
    let o := t.eraseIdx i
    let mag := max 0 (leastMag o - off)
    if (o.filter (· < 0)).length % 2 = 1 then -mag else mag
  ((vs.zip (t.zipWith (· + ·) out)).foldl (fun l (v, x) => setAt l v x) l, out)

/-- One iteration over all checks. -/
def ldpcPass (off : Int) (checks : List (List Nat)) (l : List Int) (ms : List (List Int)) :
    List Int × List (List Int) :=
  let (l, out) := (checks.zip ms).foldl (fun (acc : List Int × List (List Int)) (vs, m) =>
    let (l, m) := checkNode off acc.1 vs m
    (l, m :: acc.2)) (l, [])
  (l, out.reverse)

/-- The checks that the hard decisions leave unsatisfied. -/
def unsatisfied (checks : List (List Nat)) (l : List Int) : Nat :=
  (checks.filter fun vs => (vs.filter fun v => decide ((l[v]?).getD 0 < 0)).length % 2 = 1).length

/-- The iterations of an LDPC engine (R301–R303): the first `kp` hard decisions, the iterations, the unsatisfied checks. `low` is
the lowest count so far, `since` the iterations since it fell. -/
def ldpcLoop (off : Int) (checks : List (List Nat)) (kp et np : Nat) (ok : List Bool → Bool) :
    Nat → Nat → List Int → List (List Int) → Nat → Nat → List Bool × Nat × Nat
  | 0, it, l, _, _, _ => ((l.take kp).map fun x => decide (x < 0), it, unsatisfied checks l)
  | n + 1, it, l, ms, low, since =>
    let (l, ms) := ldpcPass off checks l ms
    let un := unsatisfied checks l
    let hard := (l.take kp).map fun x => decide (x < 0)
    let since := if un < low then 0 else since + 1
    if (et % 2 = 1 ∧ un = 0) ∨ (2 ≤ et ∧ ok hard) ∨ (np ≠ 0 ∧ np ≤ since) then (hard, it + 1, un)
    else ldpcLoop off checks kp et np ok n (it + 1) l ms (min low un) since

/-- An LDPC engine (R301–R303): rows, LDPC_OFFSET in quarters, ET, MAX_ITER, NP_ITER, K′, the check of ET 2, the soft values. -/
def ldpcDecode (bg zc rows off et maxIter np kp : Nat) (ok : List Bool → Bool) (xs : List Int) :
    List Bool × Nat × Nat :=
  let checks := ldpcChecks bg zc rows
  ldpcLoop off checks kp et np ok maxIter 0 (xs.map (4 * ·)) (checks.map fun vs => vs.map fun _ => 0)
    (checks.length + 1) 0

/-- The sum of a row's known blocks. -/
def rowSum (zc : Nat) (cols : List (Option (List Bool))) (r : List (Nat × Nat)) : List Bool :=
  r.foldl (fun acc (c, p) =>
    match (cols[c]?).join with
    | some x => xorBits acc (rotBits p x)
    | none => acc) (List.replicate zc false)

/-- The block columns of a row that are not yet known. -/
def rowOpen (cols : List (Option (List Bool))) (r : List (Nat × Nat)) : List (Nat × Nat) :=
  r.filter fun (c, _) => (cols[c]?).join.isNone

/-- One pass that fills each block which is its row's only unknown. -/
def peelPass (zc : Nat) (rows : List (List (Nat × Nat))) (cols : List (Option (List Bool))) :
    List (Option (List Bool)) :=
  rows.foldl (fun cols r =>
    match rowOpen cols r with
    | [(c, p)] => setAt cols c (some (rotBits (zc - p % zc) (rowSum zc cols r)))
    | _ => cols) cols

/-- `n` passes. -/
def peel (zc : Nat) (rows : List (List (Nat × Nat))) : Nat → List (Option (List Bool)) → List (Option (List Bool))
  | 0, cols => cols
  | n + 1, cols => peel zc rows n (peelPass zc rows cols)

/-- The N bits of an LDPC codeword that satisfies every check of the base graph, its first 2·ZC bits left out (R298). The first
parity block follows from the sum of the first four rows, in which the next three cancel. -/
def ldpcEncode (bg zc : Nat) (info : List Bool) : List Bool :=
  let kb := if bg = 0 then 22 else 10
  let nb := if bg = 0 then 68 else 52
  let rows := baseRows bg zc (nb - kb)
  let cols := (List.range nb).map fun c => if c < kb then some ((info.drop (c * zc)).take zc) else none
  let core := rows.take 4
  let sum := core.foldl (fun a r => xorBits a (rowSum zc cols r)) (List.replicate zc false)
  let turns := core.flatMap fun r => (r.filter fun x => x.1 = kb).map (·.2)
  let odd := (turns.find? fun p => turns.count p % 2 = 1).getD 0
  let cols := peel zc rows rows.length (setAt cols kb (some (rotBits (zc - odd) sum)))
  (cols.flatMap fun x => x.getD (List.replicate zc false)).drop (2 * zc)

/-! ### Turbo (R305, R306) -/

/-- The index of a turbo code-block size among the 188. -/
def qppIdx (k : Nat) : Nat :=
  if k ≤ 512 then k / 8 - 5
  else if k ≤ 1024 then 60 + (k / 16 - 33)
  else if k ≤ 2048 then 92 + (k / 32 - 33)
  else 124 + (k / 64 - 33)

/-- The 188 turbo code-block sizes (R305). -/
def turboK (k : Nat) : Bool :=
  (40 ≤ k && k ≤ 512 && k % 8 = 0) || (512 < k && k ≤ 1024 && k % 16 = 0) ||
  (1024 < k && k ≤ 2048 && k % 32 = 0) || (2048 < k && k ≤ 6144 && k % 64 = 0)

/-- The QPP interleaver: the place before it of each bit after it (R305). -/
def qpp (k : Nat) : List Nat :=
  let f1 := (qppF1[qppIdx k]?).getD 0
  let f2 := (qppF2[qppIdx k]?).getD 0
  (List.range k).map fun i => (f1 * i + f2 * i * i) % k

/-- One step of a constituent encoder: its parity bit and its next state. -/
def rscStep (st : Nat) (u : Bool) : Bool × Nat :=
  let a := u ^^ Nat.testBit st 1 ^^ Nat.testBit st 0
  (a ^^ Nat.testBit st 2 ^^ Nat.testBit st 0, (if a then 4 else 0) + st / 2)

/-- The parity bits of a constituent encoder and its state after them. -/
def rscRun : List Bool → Nat → List Bool × Nat
  | [], st => ([], st)
  | u :: us, st =>
    let (z, st) := rscStep st u
    let (zs, e) := rscRun us st
    (z :: zs, e)

/-- `n` steps of trellis termination: systematic and parity bits. -/
def rscTail : Nat → Nat → List (Bool × Bool)
  | 0, _ => []
  | n + 1, st =>
    let u := Nat.testBit st 1 ^^ Nat.testBit st 0
    let (z, st) := rscStep st u
    (u, z) :: rscTail n st

/-- The three streams of a turbo codeword, with the twelve tail bits in the order of TS 36.212, section 5.1.3.2.2. -/
def turboStreams (bs : List Bool) : List (List Bool) :=
  let il := (qpp bs.length).map fun i => (bs[i]?).getD false
  let (z, a) := rscRun bs 0
  let (z', b) := rscRun il 0
  let t := rscTail 3 a
  let t' := rscTail 3 b
  let x (l : List (Bool × Bool)) (i : Nat) : Bool := ((l[i]?).getD (false, false)).1
  let y (l : List (Bool × Bool)) (i : Nat) : Bool := ((l[i]?).getD (false, false)).2
  [bs ++ [x t 0, y t 1, x t' 0, y t' 1],
   z ++ [y t 0, x t 2, y t' 0, x t' 2],
   z' ++ [x t 1, y t 2, x t' 1, y t' 2]]

/-- The length K_w of the circular buffer of a turbo code block. -/
def turboKw (k : Nat) : Nat := 3 * (32 * ((k + 4 + 31) / 32))

/-- What each place of the circular buffer of a turbo code block holds: stream and bit, or nothing (TS 36.212, section 5.1.4.1). -/
def turboSrc (k f ncb : Nat) : List (Option (Nat × Nat)) :=
  let d := k + 4
  let rows := (d + 31) / 32
  let n := 32 * rows
  let col (j : Nat) : Nat := (subBlockCols[j / rows]?).getD 0
  let src (i y : Nat) : Option (Nat × Nat) :=
    if y < n - d then none
    else if i < 2 ∧ y - (n - d) < f then none
    else some (i, y - (n - d))
  let v (i j : Nat) : Option (Nat × Nat) :=
    if i < 2 then src i (j % rows * 32 + col j) else src 2 ((col j + 32 * (j % rows) + 1) % n)
  (((List.range n).map (v 0)) ++ (List.range n).flatMap fun j => [v 1 j, v 2 j]).take ncb

/-- The circular-buffer position of each of `e` coded bits (R305). -/
def turboPos (k f ncb rv e : Nat) : List Nat :=
  let src := turboSrc k f ncb
  let rows := (k + 4 + 31) / 32
  walk (fun p => ((src[p]?).join).isNone) src.length (e * (src.length + 1) + src.length)
    (rows * (2 * ((src.length + 8 * rows - 1) / (8 * rows)) * rv + 2)) e

/-- The circular buffer of a turbo codeword. -/
def turboEncode (f ncb : Nat) (bs : List Bool) : List Bool :=
  let d := turboStreams bs
  (turboSrc bs.length f ncb).map fun o =>
    match o with
    | some (i, j) => (((d[i]?).getD [])[j]?).getD false
    | none => false

/-- The three streams of soft values that a circular buffer holds; a filler bit is a sure 0. [DEDUCED, log 147] -/
def turboSoft (k f : Nat) (buf : List Int) : List (List Rat) :=
  let src := turboSrc k f buf.length
  (List.range 3).map fun i => (List.range (k + 4)).map fun j =>
    if i = 0 ∧ j < f then 127
    else match src.idxOf? (some (i, j)) with
    | some p => (((buf[p]?).getD 0 : Int) : Rat)
    | none => 0

/-- The branches of the trellis: state, input, parity, next state. -/
def trellis : List (Nat × Bool × Bool × Nat) :=
  (List.range 8).flatMap fun st => [false, true].map fun u => let (z, t) := rscStep st u; (st, u, z, t)

/-- The greatest of some metrics; none stands for a state that no path reaches. -/
def bestOf (xs : List (Option Rat)) : Option Rat :=
  xs.foldl (fun a b =>
    match a, b with
    | some x, some y => some (max x y)
    | some x, none => some x
    | none, y => y) none

/-- The metric of a branch with input `u` and parity `z` over their soft values. -/
def branch (x : Rat × Rat) (u z : Bool) : Rat :=
  ((if u then -x.1 else x.1) + if z then -x.2 else x.2) / 2

/-- One step of the forward recursion. -/
def stepFwd (a : List (Option Rat)) (x : Rat × Rat) : List (Option Rat) :=
  (List.range 8).map fun t => bestOf ((trellis.filter fun b => b.2.2.2 = t).map fun (st, u, z, _) =>
    ((a[st]?).join).map (· + branch x u z))

/-- One step of the backward recursion. -/
def stepBwd (a : List (Option Rat)) (x : Rat × Rat) : List (Option Rat) :=
  (List.range 8).map fun st => bestOf ((trellis.filter fun b => b.1 = st).map fun (_, u, z, t) =>
    ((a[t]?).join).map (· + branch x u z))

/-- State metrics before each step and after the last, forward. -/
def fwds : List (Rat × Rat) → List (Option Rat) → List (List (Option Rat))
  | [], a => [a]
  | x :: xs, a => a :: fwds xs (stepFwd a x)

/-- State metrics before each step and after the last, backward. -/
def bwds : List (Rat × Rat) → List (Option Rat) → List (List (Option Rat))
  | [], a => [a]
  | x :: xs, a => let r := bwds xs a; stepBwd (r.headD a) x :: r

/-- A max-log-MAP half-iteration (R306): the soft values of the input bits, of the steps' soft inputs. Both ends are in state 0. -/
def maxLogMap (xs : List (Rat × Rat)) : List Rat :=
  let z : List (Option Rat) := some 0 :: List.replicate 7 none
  let f := fwds xs z
  let b := bwds xs z
  xs.zipIdx.map fun (x, i) =>
    let m (v : Bool) : Rat := (bestOf ((trellis.filter fun t => t.2.1 == v).map fun (st, u, p, t) =>
      match ((f[i]?).bind fun a => (a[st]?).join), ((b[i + 1]?).bind fun a => (a[t]?).join) with
      | some a, some c => some (a + branch x u p + c)
      | _, _ => none)).getD 0
    m false - m true

/-- The scaled extrinsic values of a constituent decoder and its soft values, of systematic and parity values with their tails
and a-priori values (R306). -/
def halfIter (scale : Rat) (k : Nat) (xs zs la : List Rat) : List Rat × List Rat :=
  let g (l : List Rat) (i : Nat) : Rat := (l[i]?).getD 0
  let out := maxLogMap ((List.range (k + 3)).map fun i => (g xs i + g la i, g zs i))
  ((List.range k).map fun i => scale * (g out i - g xs i - g la i), out.take k)

/-- One iteration of the turbo decoder: the hard decisions and the a-priori values of the next. -/
def turboIter (scale : Rat) (k : Nat) (d : List (List Rat)) (la : List Rat) : List Bool × List Rat :=
  let g (i j : Nat) : Rat := (((d[i]?).getD [])[j]?).getD 0
  let il := qpp k
  let x := (List.range k).map (g 0)
  let x1 := x ++ [g 0 k, g 2 k, g 1 (k + 1)]
  let z1 := (List.range k).map (g 1) ++ [g 1 k, g 0 (k + 1), g 2 (k + 1)]
  let x2 := (il.map fun i => (x[i]?).getD 0) ++ [g 0 (k + 2), g 2 (k + 2), g 1 (k + 3)]
  let z2 := (List.range k).map (g 2) ++ [g 1 (k + 2), g 0 (k + 3), g 2 (k + 3)]
  let (e1, _) := halfIter scale k x1 z1 la
  let (e2, l2) := halfIter scale k x2 z2 (il.map fun i => (e1[i]?).getD 0)
  let back (l : List Rat) : List Rat := (List.range k).map fun i => (l[il.idxOf i]?).getD 0
  ((back l2).map hardBit, back e2)

/-- The iterations of a turbo engine (R306): the bits and how many. -/
def turboLoop (scale : Rat) (k et : Nat) (ok : List Bool → Bool) (d : List (List Rat)) :
    Nat → Nat → List Rat → Option (List Bool) → List Bool × Nat
  | 0, it, _, old => (old.getD [], it)
  | n + 1, it, la, old =>
    let (h, la) := turboIter scale k d la
    if (et % 2 = 1 ∧ old = some h) ∨ (2 ≤ et ∧ ok h) then (h, it + 1)
    else turboLoop scale k et ok d n (it + 1) la (some h)

/-- A turbo engine (R306): size, filler bits, the scale in sixteenths, ET, the check of ET 2, MAX_ITER, the circular buffer. -/
def turboDecode (k f scale et maxIter : Nat) (ok : List Bool → Bool) (buf : List Int) : List Bool × Nat :=
  turboLoop ((scale : Rat) / 16) k et ok (turboSoft k f buf) maxIter 0 (List.replicate k 0) none

/-! ### Polar (R307, R308) -/

/-- A polar record's code (R307): CODE, A, E, RNTI, N_LOG2. -/
structure PolarRec where
  code : Nat
  a : Nat
  e : Nat
  rnti : Nat
  nlog : Nat

/-- The length of a record's check. -/
def PolarRec.crc (r : PolarRec) : Nat × Nat :=
  match r.code with
  | 0 | 1 => crc24c
  | 2 => (6, 0x21)
  | _ => (11, 0x621)

/-- Payload and check bits. -/
def PolarRec.k (r : PolarRec) : Nat := r.a + r.crc.1

/-- Parity-check bits. -/
def PolarRec.npc (r : PolarRec) : Nat := if r.code = 2 then 3 else 0

/-- The check bits of a payload: with 24 ones before it and the RNTI mask for a DCI. -/
def PolarRec.check (r : PolarRec) (pl : List Bool) : List Bool :=
  if r.code = 0 then
    xorBits (crcBits crc24c (List.replicate 24 true ++ pl)) (List.replicate 8 false ++ bitsOf 16 r.rnti)
  else crcBits r.crc pl

/-- The order in which a distributed check is placed: which bit each place takes. -/
def spreadOrder (k : Nat) : List Nat := (crcSpread.filter fun x => 164 - k ≤ x).map (· - (164 - k))

/-- The order of a record's bits in the code. -/
def PolarRec.order (r : PolarRec) : List Nat := if r.code ≤ 1 then spreadOrder r.k else List.range r.k

/-- The sub-block interleaver: the code bit that place `i` takes. -/
def polarJ (nlog i : Nat) : Nat :=
  let n := 2 ^ nlog
  (polarBlocks[32 * i / n]?).getD 0 * (n / 32) + i % (n / 32)

/-- Whether a record's bits are punctured rather than shortened when E < N. -/
def PolarRec.punctured (r : PolarRec) : Bool := decide (16 * r.k ≤ 7 * r.e)

/-- The positions that carry bits, the least reliable first (TS 38.212, sections 5.3.1.2 and 5.4.1.1). -/
def PolarRec.usable (r : PolarRec) : List Nat :=
  let n := 2 ^ r.nlog
  let frozen : List Nat :=
    if n ≤ r.e then []
    else if r.punctured then
      (List.range (n - r.e)).map (polarJ r.nlog) ++
        List.range (if 3 * n ≤ 4 * r.e then (3 * n - 2 * r.e + 3) / 4 else (9 * n - 4 * r.e + 15) / 16)
    else (List.range (n - r.e)).map fun i => polarJ r.nlog (r.e + i)
  let q := polarSeq.filter fun x => decide (x < n) && !frozen.contains x
  q.drop (q.length - (r.k + r.npc))

/-- The 1s of a row of the polar transform. -/
def rowWeight (x : Nat) : Nat := 2 ^ ((List.range 10).filter (Nat.testBit x)).length

/-- The parity-check positions: the least reliable, and one of the least row weight where E − K + 3 > 192. -/
def PolarRec.parity (r : PolarRec) : List Nat :=
  if r.npc = 0 then []
  else
    let q := r.usable
    let wm := if 192 < (r.e : Int) - r.k + 3 then 1 else 0
    let rest := q.drop 3
    let least := rest.foldl (fun m x => min m (rowWeight x)) 1024
    q.take (3 - wm) ++ if wm = 1 then ((rest.filter fun x => rowWeight x = least).getLast?).toList else []

/-- The register of the parity-check bits after the bits `us`. -/
def pcReg (info par : List Nat) (us : List Bool) : List Bool :=
  us.zipIdx.foldl (fun y (u, i) =>
    let y := y.drop 1 ++ y.take 1
    if info.contains i && !par.contains i then setAt y 0 ((y.headD false) ^^ u) else y) (List.replicate 5 false)

/-- The parity-check bit that follows the bits `us`. -/
def pcBit (info par : List Nat) (us : List Bool) : Bool := ((pcReg info par us)[1]?).getD false

/-- The polar transform of 2^n bits. -/
def polarMap : Nat → List Bool → List Bool
  | 0, us => us
  | n + 1, us =>
    let a := polarMap n (us.take (2 ^ n))
    let b := polarMap n (us.drop (2 ^ n))
    xorBits a b ++ b

/-- The bits u of a polar code from the bits it carries, position after position. -/
def polarFill (info par : List Nat) : List Nat → List Bool → List Bool → List Bool
  | [], us, _ => us
  | i :: is, us, c =>
    if !info.contains i then polarFill info par is (us ++ [false]) c
    else if par.contains i then polarFill info par is (us ++ [pcBit info par us]) c
    else polarFill info par is (us ++ [c.headD false]) (c.drop 1)

/-- The channel interleaver of TS 38.212, section 5.4.1.3: the bit that each place takes. -/
def triOrder (e : Nat) : List Nat :=
  let t := ((List.range (e + 2)).find? fun t => decide (e ≤ t * (t + 1) / 2)).getD 0
  (List.range t).flatMap fun j =>
    ((List.range (t - j)).map fun i => i * t - i * (i - 1) / 2 + j).filter (· < e)

/-- The coded bit that each of a record's E bits is, before the channel interleaver (TS 38.212, section 5.4.1.2). -/
def PolarRec.select (r : PolarRec) : List Nat :=
  let n := 2 ^ r.nlog
  (List.range r.e).map fun k =>
    polarJ r.nlog (if n ≤ r.e then k % n else if r.punctured then k + n - r.e else k)

/-- The coded bit that each of a record's E bits is. The table of R307 gives CODE 3 the channel interleaver. -/
def PolarRec.places (r : PolarRec) : List Nat :=
  if r.code = 3 then (triOrder r.e).map fun i => (r.select[i]?).getD 0 else r.select

/-- The E coded bits of a record (R307). -/
def polarEncode (r : PolarRec) (pl : List Bool) : List Bool :=
  let info := pl ++ r.check pl
  let us := polarFill r.usable r.parity (List.range (2 ^ r.nlog)) [] (r.order.map fun i => (info[i]?).getD false)
  let x := polarMap r.nlog us
  r.places.map fun i => (x[i]?).getD false

/-- The N rate-recovered soft values of a record (R308): what it shortens is a sure 0. [DEDUCED, log 147] -/
def polarRecover (r : PolarRec) (xs : List Int) : List Int :=
  let n := 2 ^ r.nlog
  let short := if n ≤ r.e ∨ r.punctured then [] else (List.range (n - r.e)).map fun i => polarJ r.nlog (r.e + i)
  addSoft ((List.range n).map fun i => if short.contains i then 127 else 0) r.places xs

/-- The soft value of bit `i` of a polar code after the bits `us`. -/
def polarSoft : Nat → List Rat → Nat → List Bool → Rat
  | 0, ys, _, _ => ys.headD 0
  | n + 1, ys, i, us =>
    let h := 2 ^ n
    let a := ys.take h
    let b := ys.drop h
    if i < h then polarSoft n (a.zipWith Config.polarCheck b) i us
    else
      let v := polarMap n (us.take h)
      polarSoft n ((a.zip (b.zip v)).map fun (a, b, v) => if v then b - a else b + a) (i - h) (us.drop h)

/-- A path of the list decoder: its bits and its metric, the less the better. -/
structure PolarPath where
  us : List Bool
  m : Rat

/-- Places a path among paths in rising order of metric, behind its equals. -/
def insertPath (p : PolarPath) : List PolarPath → List PolarPath
  | [] => [p]
  | q :: qs => if p.m < q.m then p :: q :: qs else q :: insertPath p qs

/-- One bit of successive-cancellation list decoding: every path goes on with each value the bit may take; `size` remain. -/
def polarStep (nlog size : Nat) (info par : List Nat) (ys : List Rat) (ps : List PolarPath) (i : Nat) :
    List PolarPath :=
  let next := ps.flatMap fun p =>
    let l := polarSoft nlog ys i p.us
    let go (b : Bool) : PolarPath := ⟨p.us ++ [b], p.m + Config.polarCost l b⟩
    if !info.contains i then [go false]
    else if par.contains i then [go (pcBit info par p.us)]
    else [go false, go true]
  (next.foldl (fun acc p => insertPath p acc) []).take size

/-- The payload of a path and whether its check passes. -/
def PolarRec.pick (r : PolarRec) (p : PolarPath) : List Bool × Bool :=
  let info := r.usable
  let par := r.parity
  let got := (p.us.zipIdx.filter fun x => info.contains x.2 && !par.contains x.2).map (·.1)
  let c := (List.range r.k).map fun i => (got[r.order.idxOf i]?).getD false
  (c.take r.a, c.drop r.a == r.check (c.take r.a))

/-- The polar engine (R308): payload, whether its check passes, the metric of its path. -/
def polarDecode (r : PolarRec) (size : Nat) (xs : List Int) : List Bool × Bool × Rat :=
  let ys : List Rat := (polarRecover r xs).map fun x => ((x : Int) : Rat)
  let ps := (List.range (2 ^ r.nlog)).foldl (polarStep r.nlog size r.usable r.parity ys) [⟨[], 0⟩]
  let best := ps.headD ⟨[], 0⟩
  match ps.find? fun p => (r.pick p).2 with
  | some p => ((r.pick p).1, true, p.m)
  | none => ((r.pick best).1, false, best.m)

/-! ### Small block codes (R309) -/

/-- The codeword of a small block code before repetition. -/
def PolarRec.blockWord (r : PolarRec) (pl : List Bool) : List Bool :=
  if r.code = 4 then
    blockBasis.map fun row => (pl.zipIdx.filter fun x => x.1 && Nat.testBit row x.2).length % 2 = 1
  else if r.a = 1 then pl
  else pl ++ [(pl[0]?).getD false ^^ (pl[1]?).getD false]

/-- The soft values of a small block code's bits: the sums of their repetitions. -/
def blockSums (n : Nat) (xs : List Int) : List Int :=
  (List.range n).map fun j => ((xs.zipIdx.filter fun x => x.2 % n = j).map (·.1)).sum

/-- Maximum-likelihood correlation (R309): the payload, and the correlation of its word. -/
def blockDecode (r : PolarRec) (xs : List Int) : List Bool × Int :=
  let corr (pl : List Bool) : Int :=
    let w := r.blockWord pl
    ((w.zip (blockSums w.length xs)).map fun (b, y) => if b then -y else y).sum
  (List.range (2 ^ r.a)).foldl (fun (best : List Bool × Int) v =>
    let pl := bitsOf r.a v
    if best.2 < corr pl then (pl, corr pl) else best) (bitsOf r.a 0, corr (bitsOf r.a 0))

end Sys2Proof.Machine
end

