-- ==== Sys2Proof/Machine/Fec.lean ====
section
/-! DEFINITION. The channel-coding blocks: descriptors, work units and engines, rate recovery, HARQ segments, CRC
and encoding (Channel Coding and HARQ). -/

namespace Sys2Proof.Machine

/-- The page of FEC block `k`. -/
def fecPage (k : Nat) : Nat := 0x0D0 + k

/-- The operations of a FEC block. -/
def fecOps (s : State) (k : Nat) : List FecOp := kget [] s.fec k

/-- Stores the operations of a FEC block. -/
def setFec (s : State) (k : Nat) (ops : List FecOp) : State := { s with fec := kset [] s.fec k ops }

/-- The engines of a class: LDPC, turbo, polar, encoder (R332). -/
def engines (c : Nat) : List Nat :=
  match c with
  | 0 => List.range 16
  | 1 => (List.range 4).map (16 + ·)
  | 2 => [20, 21]
  | _ => [24]

/-- The engine class of an operation kind (R284). -/
def kindClass (kind : Nat) : Nat :=
  match kind with
  | 1 => 0
  | 3 => 1
  | 5 => 2
  | _ => 3

/-- Whether some engine of a class is enabled. -/
def classOn (s : State) (k c : Nat) : Bool := (engines c).any fun e => bit (getReg s (fecPage k) 0x110) e

/-! ### The fields of a transport-block descriptor (R292) -/

/-- A code-block operation's parameters. -/
structure Tb where
  new : Bool
  hqEn : Bool
  tbAll : Bool
  crc16 : Bool
  et : Nat
  bg : Nat
  firstCb : Nat
  nCb : Nat
  c : Nat
  zc : Nat
  rv : Nat
  qm : Nat
  ncb : Nat
  kp : Nat
  maxIter : Nat
  np : Nat
  c0 : Nat
  e0 : Nat
  e1 : Nat
  cMinus : Nat
  kMinus : Nat
  f : Nat
  inp : Nat
  out : Nat
  proc : Nat

/-- R292. -/
def tbOf (ws : List Word) : Tb :=
  let w (i : Nat) : Word := wWord ws i
  ⟨bit (w 4) 31, bit (w 4) 30, bit (w 4) 29, bit (w 4) 28, bits (w 4) 27 26, bits (w 4) 25 25, bits (w 4) 23 16,
   bits (w 4) 15 8, bits (w 4) 7 0, bits (w 5) 31 23, bits (w 5) 22 21, bits (w 5) 20 17, bits (w 5) 15 0,
   bits (w 6) 31 18, bits (w 6) 17 12, bits (w 6) 11 8, bits (w 7) 31 24, bits (w 7) 23 0, bits (w 8) 23 0,
   bits (w 8) 31 24, bits (w 9) 29 16, bits (w 9) 15 0, wAddr ws 10, wAddr ws 12, bits (w 14) 13 0⟩

/-- K of a base graph (R298). -/
def Tb.k (t : Tb) : Nat := (if t.bg = 0 then 22 else 10) * t.zc

/-- N of a base graph (R298). -/
def Tb.n (t : Tb) : Nat := (if t.bg = 0 then 66 else 50) * t.zc

/-- Bits of code block `r` (R304, R305). -/
def Tb.kr (t : Tb) (turbo : Bool) (r : Nat) : Nat := if turbo ∧ r < t.cMinus then t.kMinus else t.kp

/-- The code-block CRC's length (R293). -/
def Tb.lcb (t : Tb) : Nat := if 1 < t.c then 24 else 0

/-- Filler bits of a turbo code block. -/
def Tb.filler (t : Tb) (turbo : Bool) (r : Nat) : Nat := if turbo ∧ r = 0 then t.f else 0

/-- The payload of code block `r` in bits (R293). -/
def Tb.pay (t : Tb) (turbo : Bool) (r : Nat) : Nat := t.kr turbo r - t.lcb - t.filler turbo r

/-- The byte offset of a code block's payload (R294). -/
def Tb.payOff (t : Tb) (turbo : Bool) (r : Nat) : Nat := ((List.range r).map (t.pay turbo)).sum / 8

/-- The coded bits of a code block (R293). -/
def Tb.e (t : Tb) (r : Nat) : Nat := if r < t.c0 then t.e0 else t.e1

/-- The position of a code block's coded bits, counted from FIRST_CB (R293). -/
def Tb.eOff (t : Tb) (r : Nat) : Nat := ((List.range (r - t.firstCb)).map fun j => t.e (t.firstCb + j)).sum

/-- R294, R299, R305: whether a transport-block descriptor's fields lie within the limits. -/
def tbOk (ws : List Word) (turbo : Bool) : Bool :=
  let t := tbOf ws
  let common : Bool := decide (1 ≤ t.nCb) && decide (1 ≤ t.c) && decide (t.firstCb + t.nCb ≤ t.c) &&
    [1, 2, 4, 6, 8].contains t.qm && decide (1 ≤ t.maxIter) &&
    (List.range t.c).all fun r => t.pay turbo r % 8 = 0
  if turbo then
    common && decide (t.maxIter ≤ 16) && turboK t.kp && (t.cMinus = 0 || turboK t.kMinus) &&
      decide (3 * t.kp + 12 ≤ t.ncb) && decide (t.ncb ≤ turboKw t.kp)
  else
    common && decide (t.maxIter ≤ 32) && zcOk t.zc && decide (t.kp ≤ t.k) && !(decide (1 < t.c ∧ t.kp < 25)) &&
      decide (t.k ≤ t.ncb) && decide (t.ncb ≤ t.n) && decide (t.e0 ≠ 0 ∧ t.e1 ≠ 0) &&
      t.e0 % t.qm = 0 && t.e1 % t.qm = 0

/-! ### Polar records (R307) -/

/-- A record's code. -/
def polarRec (ws : List Word) : PolarRec :=
  ⟨bits (wWord ws 0) 31 28, bits (wWord ws 0) 25 16, bits (wWord ws 0) 15 0, bits (wWord ws 1) 31 16, bits (wWord ws 1) 7 4⟩

/-- R307: whether a record's fields lie within the limits. -/
def polarOk (w0 w1 : Word) (enc : Bool) : Bool :=
  let a := bits w0 25 16
  let n := bits w1 7 4
  let inR (x y : Nat) : Bool := decide (x ≤ a ∧ a ≤ y)
  match bits w0 31 28 with
  | 0 => inR 12 140 && decide (5 ≤ n ∧ n ≤ 9)
  | 1 => inR 32 32 && decide (n = 9) && decide (bits w0 15 0 = 864)
  | 2 => inR 12 19 && decide (5 ≤ n ∧ n ≤ 10) && !enc
  | 3 => inR 20 1013 && decide (5 ≤ n ∧ n ≤ 10) && !enc
  | 4 => inR 3 11 && !enc
  | 5 => inR 1 2 && !enc
  | _ => false

/-- The transport-block CRC: CRC16 or CRC24A. -/
def tbCrc (t : Tb) (bs : List Bool) : Nat := if t.crc16 then crcRem 16 0x1021 bs else crcRem crc24a.1 crc24a.2 bs

/-- The check of a code block (R304): CRC24B with several code blocks, else the transport-block CRC. -/
def cbPass (t : Tb) (bs : List Bool) : Bool :=
  if 1 < t.c then crcRem crc24b.1 crc24b.2 bs = 0 else tbCrc t bs = 0

/-! ### Rate recovery and matching (R300, R311) -/

/-- The start of an LDPC redundancy version in the circular buffer. [PRESUMED, log 49] -/
def k0Of (t : Tb) : Nat :=
  let num := if t.bg = 0 then [0, 17, 33, 56] else [0, 13, 25, 43]
  (num[t.rv]?).getD 0 * t.ncb / t.n * t.zc

/-- Whether a circular-buffer position of an LDPC code block is filler. -/
def isFill (t : Tb) (p : Nat) : Bool := decide (t.kp - 2 * t.zc ≤ p ∧ p < t.k - 2 * t.zc)

/-- The positions of a code block's coded bits, in transmitted order before interleaving. -/
def bitPos (t : Tb) (turbo : Bool) (r : Nat) : List Nat :=
  if turbo then turboPos (t.kr turbo r) (t.filler turbo r) t.ncb t.rv (t.e r)
  else walk (isFill t) t.ncb (t.e r * (t.ncb + 1) + t.ncb) (k0Of t) (t.e r)

/-- The bit interleaver over QM rows: the place before it of the `i`-th bit after it. -/
def ilv (t : Tb) (e i : Nat) : Nat := if t.qm = 0 then i else i % t.qm * (e / t.qm) + i / t.qm

/-- An input soft value; −128 reads as −127 (R290). -/
def llrIn (b : Byte) : Int := max (-127) b.toInt

/-- The soft values of the circular buffer (R300, R305). -/
def recover (t : Tb) (turbo : Bool) (r : Nat) (xs : List Int) : List Int :=
  let e := t.e r
  let ys := if turbo then xs
    else (List.range e).map fun i => (xs[i % (e / t.qm) * t.qm + i / (e / t.qm)]?).getD 0
  addSoft (List.replicate t.ncb 0) (bitPos t turbo r) ys

/-- P of R301: one more than the highest position that holds a value other than 0. -/
def topPos (xs : List Int) : Nat := (xs.zipIdx.filter fun x => !decide (x.1 = 0)).foldl (fun m x => max m (x.2 + 1)) 0

/-- R of R301. -/
def rowsOf (t : Tb) (p : Nat) : Nat :=
  let kc := if t.bg = 0 then 22 else 10
  let rm := if t.bg = 0 then 46 else 42
  min rm (max 4 ((p + t.zc - 1) / t.zc + 2 - kc))

/-- What enters an LDPC decoder: punctured bits 0, filler +127 (R300). -/
def ldpcInput (t : Tb) (buf : List Int) : List Int :=
  List.replicate (2 * t.zc) 0 ++ (List.range t.n).map fun p => if isFill t p then 127 else (buf[p]?).getD 0

/-- Decodes a code block (R301–R306): its K′ or K bits, iterations, unsatisfied checks. -/
def decodeCb (s : State) (k : Nat) (t : Tb) (turbo : Bool) (r : Nat) (buf : List Int) : List Bool × Nat × Nat :=
  if turbo then
    let sc := bits (getReg s (fecPage k) 0x11C) 3 0
    let f := t.filler turbo r
    let (bs, it) := turboDecode (t.kr turbo r) f (if sc = 0 then 16 else sc) t.et t.maxIter (fun b => cbPass t (b.drop f)) buf
    (bs, it, 0)
  else
    let (bs, it, sy) := ldpcDecode t.bg t.zc (rowsOf t (topPos buf)) (bits (getReg s (fecPage k) 0x118) 5 0) t.et t.maxIter
      t.np t.kp (cbPass t) (ldpcInput t buf)
    (bs, it, min 0xFFFF sy)

/-! ### HARQ segments (R314–R319) -/

/-- The bits of a stored soft value. -/
def hqComp (hq : List Word) : Bool := bit (wWord hq 0) 29

/-- CSHIFT (R314). -/
def hqShift (hq : List Word) : Nat := min 4 (bits (wWord hq 0) 28 26)

/-- The address of segment `r` (R315). -/
def segAddr (hq : List Word) (r : Nat) : Nat :=
  let b := if hqComp hq then 4 else 8
  wAddr hq 2 + r * (64 + (bits (wWord hq 0) 15 0 * b + 511) / 512 * 64)

/-- The stored form of a soft value (R319): rounding half away from zero, saturation to ±7. -/
def hqCompress (sh : Nat) (l : Int) : Int :=
  let m : Int := (l.natAbs * 2 + 2 ^ sh) / (2 * 2 ^ sh)
  clampI (-7) 7 (if l < 0 then -m else m)

/-- The stored soft values of a segment's data. -/
def softOf (hq : List Word) (n : Nat) (d : List Byte) : List Int :=
  if hqComp hq then
    (List.range n).map fun j =>
      let b := ((d[j / 2]?).getD 0).toNat
      signed 4 (if j % 2 = 0 then b % 16 else b / 16) * 2 ^ hqShift hq
  else (List.range n).map fun j => ((d[j]?).getD 0).toInt

/-- The data of a SOFT segment. -/
def softData (hq : List Word) (xs : List Int) : List Byte :=
  if hqComp hq then
    let q := xs.map (hqCompress (hqShift hq))
    (List.range ((q.length + 1) / 2)).map fun j =>
      BitVec.ofNat 8 (wrapN 4 ((q[2 * j]?).getD 0) + 16 * wrapN 4 ((q[2 * j + 1]?).getD 0))
  else xs.map fun x => BitVec.ofInt 8 x

/-- The bytes that hold `n` stored soft values. -/
def softBytes (hq : List Word) (n : Nat) : Nat := if hqComp hq then (n + 1) / 2 else n

/-- A segment's header. -/
def segHdr (state ntx rv fill iter : Nat) : List Byte :=
  leBytes 4 (state * 2 ^ 30 + ntx * 2 ^ 24 + rv * 2 ^ 20 + fill) ++ leBytes 4 iter ++ List.replicate 56 0

/-- The writes of a segment in the order of R318. [DEDUCED, log 51] -/
def segWrites (a state ntx rv fill iter : Nat) (data : List Byte) : List (Nat × List Byte) :=
  [(a, segHdr 3 ntx rv fill iter), (a + 64, data), (a, segHdr state ntx rv fill iter)]

/-- What a code block finds in its segment (R317, R327): the stored values and FILL, NTX, RV_SEEN; or the payload
of a DECODED segment; and the state with what a failing read left. -/
structure SegIn where
  stored : List Int
  fill : Nat
  ntx : Nat
  rv : Nat
  decoded : Option (List Bool)

/-- An empty segment. -/
def SegIn.empty : SegIn := ⟨[], 0, 0, 0, none⟩

/-- Reads a segment; an uncorrectable word reads as an empty segment (R327). [DEDUCED, log 51] -/
def readSeg (s : State) (k : Nat) (t : Tb) (hq : List Word) (bitsN r : Nat) : State × SegIn :=
  let p := fecPage k
  let a := segAddr hq r
  if t.new then (s, SegIn.empty)
  else match memRead s p a 64 with
  | (s, .ok, h) =>
    let w := wordAt h 0
    let fill := bits w 15 0
    match bits w 31 30 with
    | 1 =>
      match memRead s p (a + 64) (softBytes hq fill) with
      | (s, .ok, d) => (s, ⟨softOf hq fill d, fill, bits w 29 24, bits w 23 20, none⟩)
      | (s, _, _) => (ownErr s p 2 0x03 (some (a + 64)), SegIn.empty)
    | 2 =>
      match memRead s p (a + 64) ((bitsN + 7) / 8) with
      | (s, .ok, d) => (s, ⟨[], fill, bits w 29 24, bits w 23 20, some ((unpackBits d).take bitsN)⟩)
      | (s, _, _) => (ownErr s p 2 0x03 (some (a + 64)), SegIn.empty)
    | _ => (s, SegIn.empty)
  | (s, _, _) => (ownErr s p 2 0x03 (some a), SegIn.empty)

/-! ### Accepting an operation -/

/-- The end of an operation with an error (R289). -/
def failFec (s : State) (k : Nat) (f : FireRec) (d cause cls : Nat) : State :=
  failFire (closeDesc s (fecPage k) d 1 cls 0) (fecPage k) f cause

/-- A descriptor that fails the header check (R285). -/
def badArgFec (s : State) (k : Nat) (f : FireRec) (d : Nat) : State :=
  failFec (ownErr s (fecPage k) 6 0x01 (some d)) k f d 0x01 6

/-- NO_ENGINE (R291). -/
def noEngine (s : State) (k : Nat) (f : FireRec) (d : Nat) : State :=
  failFec (setEvt s (fecPage k) 3) k f d 0x05 0

/-- Accepts an operation with its units. -/
def acceptFec (s : State) (k kind : Nat) (f : FireRec) (d : Nat) (ws hq : List Word) (n : Nat) : State :=
  if !classOn s k (kindClass kind) then noEngine s k f d
  else
    let ha := haActive s (fecPage k) && (kind = 1 || kind = 3 || kind = 5)
    setFec s k (fecOps s k ++ [⟨f, kind, d, ws, ha, List.replicate n FecUnit.init, hq, none⟩])

/-- R316: whether a HARQ process header serves a decode. -/
def hqOk (hq : List Word) (t : Tb) (turbo : Bool) : Bool :=
  bit (wWord hq 0) 31 && (bit (wWord hq 0) 30 == turbo) && bits (wWord hq 0) 23 16 = t.c &&
    decide (t.ncb ≤ bits (wWord hq 0) 15 0)

/-- A transport-block operation (R284, R285, R299, R316). -/
def startTb (s : State) (k kind : Nat) (f : FireRec) (d : Nat) (ws : List Word) : State :=
  let p := fecPage k
  let turbo := decide (kind = 3 ∨ kind = 4)
  let t := tbOf ws
  if !tbOk ws turbo then badArgFec s k f d
  else if t.hqEn ∧ (kind = 1 ∨ kind = 3) then
    match memRead s p (getPair s p 0x108 20 + t.proc * 64) 16 with
    | (s, .ok, b) =>
      let hq := (List.range 4).map (wordAt b)
      if hqOk hq t turbo then acceptFec s k kind f d ws hq t.nCb
      else failFec (ownErr s p 6 0x04 (some (getPair s p 0x108 20 + t.proc * 64))) k f d 0x03 6
    | (s, .poison, _) => failFec (ownErr s p 2 0x02 (some (getPair s p 0x108 20 + t.proc * 64))) k f d 0x02 2
    | (s, _, _) => failFec (ownErr s p 6 0x04 (some (getPair s p 0x108 20 + t.proc * 64))) k f d 0x03 6
  else acceptFec s k kind f d ws [] t.nCb

/-- A polar batch (R307). -/
def startPolar (s : State) (k kind : Nat) (f : FireRec) (d : Nat) (ws : List Word) : State :=
  let p := fecPage k
  let n := bits (wWord ws 4) 31 24
  if n < 1 ∨ 64 < n then badArgFec s k f d
  else match memRead s p (wAddr ws 5) (32 * n) with
  | (s, .ok, b) =>
    if (List.range n).all fun i => polarOk (wordAt b (8 * i)) (wordAt b (8 * i + 1)) (kind = 6) then
      acceptFec s k kind f d ws [] n
    else badArgFec s k f d
  | (s, .poison, _) => failFec (ownErr s p 2 0x02 (some (wAddr ws 5))) k f d 0x02 2
  | (s, _, _) => badArgFec s k f d

/-- R282–R285: a fire reaches block `k`. -/
def fecStart (k : Nat) (f : FireRec) (s : State) : State :=
  let p := fecPage k
  let d := descAddr (getPair s p 0x100 22) f
  let kind := fireKind f
  match memRead s p d 64 with
  | (s, .ok, b) =>
    let w0 := wordAt b 0
    if !bit w0 31 then holdUnowned s p f
    else if kind < 1 ∨ 6 < kind ∨ bits w0 23 16 ≠ 1 then
      failFire (refuseDesc (ownErr s p 6 0x01 (some d)) p d) p f 0x01
    else if bits w0 15 4 ≠ 0x017 ∨ bits w0 3 0 ≠ kind then badArgFec s k f d
    else
      let ws := (List.range 16).map (wordAt b)
      if kind ≤ 4 then startTb s k kind f d ws else startPolar s k kind f d ws
  | (s, .poison, _) => failFec (ownErr s p 2 0x02 (some d)) k f d 0x02 2
  | (s, _, _) => failFire (ownErr s p 6 0x01 (some d)) p f 0x01

/-! ### The end of an operation -/

/-- The status array's base (R295). -/
def statBase (t : Tb) (turbo : Bool) : Nat := t.out + (t.payOff turbo t.c + 63) / 64 * 64

/-- What completion writes for a decode (R292, R297): word 15 and word 1's remainder. -/
def tbResult (op : FecOp) : Nat × Nat :=
  let t := tbOf op.words
  let turbo := decide (op.kind = 3)
  let bs := op.units.zipIdx.flatMap fun (u, i) =>
    if u.res = 3 then List.replicate (t.pay turbo (t.firstCb + i)) false else u.bits
  let rem := tbCrc t bs
  let pass := (op.units.filter fun u => decide (u.res = 0 ∨ u.res = 2)).length
  let fail := op.units.length - pass
  let ok := rem = 0 ∧ !(op.units.any fun u => u.res = 3)
  let im := (op.units.map (·.iter)).foldl max 0
  ((if t.tbAll then 2 ^ 31 + (if ok then 2 ^ 30 else 0) else 0) + pass * 2 ^ 16 + fail * 2 ^ 8 + im, rem)

/-- Ends an operation all of whose units are done (R287, R288). -/
def endFec (s : State) (k : Nat) (op : FecOp) : State :=
  let p := fecPage k
  let dec := op.kind = 1 ∨ op.kind = 3
  let (w15, rem) := tbResult op
  let s := if dec then memPut s p (op.desc + 60) (leBytes 4 w15) else s
  match op.err with
  | some (c, cls) => failFec s k op.fire op.desc c cls
  | none =>
    complete (closeDesc s p op.desc 0 0 (if dec then rem else 0)) p op.fire false (BitVec.ofNat 64 op.desc)

/-- Ends the operations that have no unit left to run. -/
def sweepFec (s : State) (k : Nat) : State :=
  let ops := fecOps s k
  let done := ops.filter fun o => o.units.all fun u => u.ph = 2
  let s := setFec s k (ops.filter fun o => !(o.units.all fun u => u.ph = 2))
  done.foldl (fun s o => endFec s k o) s

/-- Writes the status of a unit (R295, R307). [DEDUCED, log 51] -/
def unitStatus (s : State) (k : Nat) (op : FecOp) (i res iter synd : Nat) : State :=
  let p := fecPage k
  match op.kind with
  | 1 | 3 =>
    let t := tbOf op.words
    memPut s p (statBase t (op.kind = 3) + 4 * (t.firstCb + i))
      (leBytes 4 (res * 2 ^ 30 + iter * 2 ^ 24 + (if op.kind = 1 then synd else 0)))
  | 5 => memPut s p (wAddr op.words 5 + 32 * i + 24) (leBytes 4 (res * 2 ^ 30 + synd))
  | _ => s

/-- Ends an operation early: units not started report NOT_RUN (R291, R326). -/
def stopOp (s : State) (k : Nat) (op : FecOp) (cause cls : Nat) : State × FecOp :=
  let s := op.units.zipIdx.foldl (fun s (u, i) => if u.ph = 0 then unitStatus s k op i 3 0 0 else s) s
  (s, { op with err := some (cause, cls), units := op.units.map fun u => if u.ph = 0 then { u with ph := 2 } else u })

/-- R291: the operations of a class with no enabled engine, once ENG_EN has changed. [DEDUCED, log 50] -/
def checkEngines (s : State) (k : Nat) : State :=
  let r := (fecOps s k).foldl (fun (acc : State × List FecOp) op =>
    if !classOn acc.1 k (kindClass op.kind) ∧ op.units.any fun u => u.ph = 0 then
      let (s, op) := stopOp (setEvt acc.1 (fecPage k) 3) k op 0x05 0
      (s, acc.2 ++ [op])
    else (acc.1, acc.2 ++ [op])) (s, [])
  sweepFec (setFec r.1 k r.2) k

/-! ### Work units -/

/-- The engines that run a unit (R332, ENG_BUSY). -/
def busyEngines (s : State) (k : Nat) : List Nat :=
  (fecOps s k).flatMap fun o => (o.units.filter fun u => u.ph = 1).map (·.eng)

/-- R320: whether unit `i` of the operation in place `j` waits for an earlier operation on its HARQ process.
[DEDUCED, log 50] -/
def hqWaits (ops : List FecOp) (j i : Nat) : Bool :=
  match ops[j]? with
  | none => false
  | some op =>
    let t := tbOf op.words
    !op.hq.isEmpty && (ops.take j).any fun o =>
      let u := tbOf o.words
      !o.hq.isEmpty && u.proc = t.proc &&
        decide (u.firstCb ≤ t.firstCb + i ∧ t.firstCb + i < u.firstCb + u.nCb) &&
        o.units.zipIdx.any fun (x, m) => !decide (x.ph = 2) &&
          decide (t.firstCb ≤ u.firstCb + m ∧ u.firstCb + m < t.firstCb + t.nCb)

/-- Replaces a unit of an operation. -/
def setUnit (ops : List FecOp) (j i : Nat) (u : FecUnit) : List FecOp :=
  match ops[j]? with
  | none => ops
  | some op => setAt ops j { op with units := setAt op.units i u }

/-- The next unit of a class: the place of its operation, and its index (R286). [DEDUCED, log 50] -/
def nextUnit (ops : List FecOp) (c : Nat) : Option (Nat × Nat) :=
  (ops.zipIdx.findSome? fun (o, j) =>
    if kindClass o.kind = c then
      (o.units.zipIdx.find? fun x => x.1.ph = 0).map fun x => (j, x.2)
    else none)

/-- WORK_UNIT_START (R286, R313, R320). -/
def unitStartSt (k c : Nat) (s : State) : State :=
  let p := fecPage k
  let ops := fecOps s k
  match nextUnit ops c, (engines c).find? fun e => bit (getReg s p 0x110) e && !(busyEngines s k).contains e with
  | some (j, i), some e =>
    let u := ((ops[j]?).bind fun o => o.units[i]?).getD FecUnit.init
    if hqWaits ops j i then
      if u.waited then s
      else setEvt (incCnt (setFec s k (setUnit ops j i { u with waited := true })) p 10) p 2
    else setFec s k (setUnit ops j i { u with ph := 1, eng := e })
  | _, _ => s

/-- The outcome of a unit: writes, RESULT, ITER, SYND, payload, counters. -/
structure UnitOut where
  outs : List (Nat × List Byte)
  res : Nat
  iter : Nat
  synd : Nat
  bits : List Bool
  cnts : List (Nat × Nat)

/-- The export of a unit in host-assisted mode (R329): writes of the segment, the soft values, the entry's r and P. -/
structure Export where
  outs : List (Nat × List Byte)
  soft : List Int

/-- A decode unit of a transport block, up to the combined soft values (R290, R300, R317). -/
def combineCb (s : State) (k : Nat) (op : FecOp) (i : Nat) :
    State × Except Nat (SegIn × List Int × List Int) :=
  let p := fecPage k
  let t := tbOf op.words
  let turbo := decide (op.kind = 3)
  let r := t.firstCb + i
  let (s, seg) := if op.hq.isEmpty then (s, SegIn.empty) else readSeg s k t op.hq (t.kr turbo r) r
  if seg.decoded.isSome ∧ !op.ha then (s, .ok (seg, [], []))
  else
    let a := t.inp + t.eOff r
    match memRead s p a (t.e r) with
    | (s, .ok, d) =>
      let fresh := recover t turbo r (d.map llrIn)
      let buf := (List.range (max t.ncb seg.stored.length)).map fun j =>
        sat127 ((fresh[j]?).getD 0 + (seg.stored[j]?).getD 0)
      (s, .ok (seg, fresh, buf))
    | (s, _, _) => (s, .error a)

/-- The segment that a decode leaves (R317, R318). -/
def segAfter (op : FecOp) (t : Tb) (r : Nat) (seg : SegIn) (pass : Bool) (bs : List Bool) (buf : List Int)
    (iter : Nat) : List (Nat × List Byte) :=
  if op.hq.isEmpty then []
  else
    let fill := max seg.fill (topPos buf)
    let ntx := min 63 (seg.ntx + 1)
    let rv := seg.rv ||| 2 ^ t.rv
    if pass then segWrites (segAddr op.hq r) 2 ntx rv fill iter (packBits bs)
    else segWrites (segAddr op.hq r) 1 ntx rv fill iter
      (softData op.hq ((List.range fill).map fun j => (buf[j]?).getD 0))

/-- A decode unit in hardware mode (R296, R304, R317). -/
def decodeUnit (s : State) (k : Nat) (op : FecOp) (i : Nat) (seg : SegIn) (buf : List Int) : UnitOut :=
  let t := tbOf op.words
  let turbo := decide (op.kind = 3)
  let r := t.firstCb + i
  let a := t.out + t.payOff turbo r
  let skip := t.filler turbo r
  let n := t.pay turbo r
  match seg.decoded with
  | some bs =>
    let pl := (bs.drop skip).take n
    ⟨[(a, packBits pl)], 2, 0, 0, pl, [(8, 1)]⟩
  | none =>
    let (bs, it, sy) := decodeCb s k t turbo r buf
    let pass := cbPass t (bs.drop skip)
    let pl := (bs.drop skip).take n
    let c : Nat := if turbo then 3 else 0
    ⟨(a, packBits pl) :: segAfter op t r seg pass bs buf it, if pass then 0 else 1, it, sy, pl,
     [(c, 1), (c + 1, if pass then 0 else 1), (c + 2, it)]⟩

/-- A polar record decoded (R308, R309). -/
def polarUnit (op : FecOp) (ws : List Word) (llr : List Int) : UnitOut :=
  let r := polarRec ws
  let (pl, pass, m) :=
    if 4 ≤ r.code then let (pl, c) := blockDecode r llr; (pl, true, (c : Rat))
    else polarDecode r (2 ^ bits (wWord op.words 4) 23 22) llr
  ⟨[(wAddr ws 4, packBits pl)], if pass then 0 else 1, 0, (Config.polarMetric r.code m llr).toNat, pl,
   [(6, 1), (7, if pass then 0 else 1)]⟩

/-- The soft values of a record that host-assisted mode exports (R329): N of a polar code, the word's of a small block code.
[DEDUCED, log 147] -/
def polarExport (ws : List Word) (llr : List Int) : List Int :=
  let r := polarRec ws
  if 4 ≤ r.code then (blockSums (r.blockWord (bitsOf r.a 0)).length llr).map sat127 else polarRecover r llr

/-- The bytes of a coded-bit stream with `bs` stored from bit `off` on (R312). -/
def bitStream (old : List Byte) (off : Nat) (bs : List Bool) : List Byte :=
  let o := unpackBits old
  packBits (o.take off ++ bs ++ o.drop (off + bs.length))

/-- A code block encoded (R311–R313): its coded bits. -/
def encodeCb (t : Tb) (turbo : Bool) (r : Nat) (pl : List Bool) : List Bool :=
  let body := List.replicate (t.filler turbo r) false ++ pl
  let crc := if 1 < t.c then crcBits crc24b body else []
  let cw := if turbo then turboEncode (t.filler turbo r) t.ncb (body ++ crc)
    else ldpcEncode t.bg t.zc (body ++ crc ++ List.replicate (t.k - t.kp) false)
  let sel := (bitPos t turbo r).map fun p => (cw[p]?).getD false
  (List.range sel.length).map fun j => (sel[ilv t sel.length j]?).getD false

/-- The payload of a code block for the encoder (R294, R311). -/
def encPayload (p : Nat) (t : Tb) (turbo : Bool) (r : Nat) : RdM (List Bool) := do
  if t.tbAll then
    let total := ((List.range t.c).map (t.pay turbo)).sum
    let cl := if t.crc16 then 16 else 24
    let b ← rdBytes p t.inp ((total - cl + 7) / 8)
    let bs := (unpackBits b).take (total - cl)
    let all := bs ++ bitsOf cl (tbCrc t bs)
    return (all.drop (8 * t.payOff turbo r)).take (t.pay turbo r)
  else
    let b ← rdBytes p (t.inp + t.payOff turbo r) ((t.pay turbo r + 7) / 8)
    return (unpackBits b).take (t.pay turbo r)

/-- An encode unit. -/
def encodeUnit (k : Nat) (op : FecOp) (i : Nat) : RdM UnitOut := do
  let p := fecPage k
  if op.kind = 6 then
    let ws ← rdWords p (wAddr op.words 5 + 32 * i) 8
    let a := bits (wWord ws 0) 25 16
    let b ← rdBytes p (wAddr ws 2) ((a + 7) / 8)
    return ⟨[(wAddr ws 4, packBits (polarEncode (polarRec ws) ((unpackBits b).take a)))], 0, 0, 0, [], [(9, 1)]⟩
  else
    let t := tbOf op.words
    let turbo := decide (op.kind = 4)
    let r := t.firstCb + i
    let pl ← encPayload p t turbo r
    let cw := encodeCb t turbo r pl
    let off := t.eOff r
    let a := t.out + off / 8
    let old ← if off % 8 = 0 ∧ cw.length % 8 = 0 then pure [] else rdBytes p a ((off % 8 + cw.length + 7) / 8)
    return ⟨[(a, bitStream old (off % 8) cw)], 0, 0, 0, [], [(9, 1)]⟩

/-- The export ring and buffer (R329). -/
def fecRing (k : Nat) : Ring := ⟨fecPage k, 0x120, 0x128, 0x12C, 0x130, 64, 6, 4, 12⟩

/-- A host buffer of a block: page, offset of its BASE_LO; SIZE, HEAD and TAIL follow at 8, 12 and 16. -/
def bufSize (s : State) (p off : Nat) : Nat := 2 ^ max 16 (min 30 (bits (getReg s p (off + 8)) 4 0))

/-- The free bytes of a host buffer. -/
def bufFree (s : State) (p off : Nat) : Nat :=
  let n := bufSize s p off
  let h := (getReg s p (off + 12)).toNat % n
  let t := (getReg s p (off + 16)).toNat % n
  (n + t - h - 1) % n

/-- Writes bytes at a host buffer's head, wrapping at its end, and advances the head; where they went. The low `align` bits of its
base are taken as 0 (R888). -/
def bufPush (s : State) (p off align : Nat) (d : List Byte) : State × Nat :=
  let n := bufSize s p off
  let h := (getReg s p (off + 12)).toNat % n
  let base := getPair s p off align
  let s := memPut s p (base + h) (d.take (n - h))
  let s := memPut s p base (d.drop (n - h))
  (setReg s p (off + 12) (w32 ((h + d.length) % n)), h)

/-- The capture of a ring or buffer whose size lies outside its range (R332, CODE 0x05). -/
def checkHa (s : State) (p ringSize bufSz : Nat) : State :=
  let a := bits (getReg s p ringSize) 4 0
  let b := bits (getReg s p bufSz) 4 0
  if a < 4 ∨ 12 < a ∨ b < 16 ∨ 30 < b then ownErr s p 6 0x05 none else s

/-- A unit exported in host-assisted mode (R329, R331); none where the ring or the buffer has no room.
[DESIGN CHOICE, log 26] -/
def exportUnit (s : State) (k : Nat) (op : FecOp) (i : Nat) (soft : List Int) : Option State :=
  let p := fecPage k
  if (fecRing k).full s ∨ bufFree s p 0x134 < soft.length then none
  else
    let s := checkHa s p 0x128 0x13C
    let (s, off) := bufPush s p 0x134 6 (soft.map fun x => BitVec.ofInt 8 x)
    let r := if op.kind = 5 then i else (tbOf op.words).firstCb + i
    some ((fecRing k).push s (leBytes 8 op.desc ++ wordsBytes [wWord op.words 2, wWord op.words 3] ++ leBytes 4 r ++
      leBytes 4 soft.length ++ leBytes 4 off ++ List.replicate 36 0))

/-- Marks a unit done and ends its operation if it was the last. -/
def closeUnit (s : State) (k j i : Nat) (o : UnitOut) : State :=
  let ops := fecOps s k
  match ops[j]? with
  | none => s
  | some op =>
    let s := putOuts s (fecPage k) o.outs
    let s := unitStatus s k op i o.res o.iter o.synd
    let s := o.cnts.foldl (fun s c => addCnt s (fecPage k) c.1 c.2) s
    let u := ((op.units[i]?).getD FecUnit.init)
    sweepFec (setFec s k (setUnit ops j i { u with ph := 2, res := o.res, iter := o.iter, bits := o.bits })) k

/-- R326: a unit whose input cannot be read. -/
def failUnit (s : State) (k j i a : Nat) : State :=
  let s := ownErr s (fecPage k) 2 0x02 (some a)
  let ops := setUnit (fecOps s k) j i FecUnit.init
  match ops[j]? with
  | none => s
  | some op =>
    let (s, op) := stopOp s k op 0x02 2
    sweepFec (setFec s k (setAt ops j op)) k

/-- One unit's work. -/
def runUnit (s : State) (k j i : Nat) (op : FecOp) : State :=
  let p := fecPage k
  match op.kind with
  | 1 | 3 =>
    match combineCb s k op i with
    | (s, .error a) => failUnit s k j i a
    | (s, .ok (seg, _, buf)) =>
      if op.ha then
        let soft := buf.take (topPos buf)
        match exportUnit s k op i soft with
        | none => setEvt s p 1
        | some s =>
          let t := tbOf op.words
          closeUnit s k j i ⟨segAfter op t (t.firstCb + i) seg false [] buf 0, 3, 0, 0, [], []⟩
      else closeUnit s k j i (decodeUnit s k op i seg buf)
  | 5 =>
    let ra := wAddr op.words 5 + 32 * i
    match memRead s p ra 32 with
    | (s, .ok, b) =>
      let ws := (List.range 8).map (wordAt b)
      match memRead s p (wAddr ws 2) (bits (wWord ws 0) 15 0) with
      | (s, .ok, d) =>
        let llr := d.map llrIn
        if op.ha then
          match exportUnit s k op i (polarExport ws llr) with
          | none => setEvt s p 1
          | some s => closeUnit s k j i ⟨[], 3, 0, 0, [], []⟩
        else closeUnit s k j i (polarUnit op ws llr)
      | (s, _, _) => failUnit s k j i (wAddr ws 2)
    | (s, _, _) => failUnit s k j i ra
  | _ =>
    match encodeUnit k op i s with
    | .ok o s => closeUnit s k j i o
    | .error (.ue a) s => failUnit s k j i a
    | .error _ s => failUnit s k j i op.desc

/-- WORK_UNIT_DONE (R287, R328). -/
def unitDoneSt (k e : Nat) (fault : Bool) (s : State) : State :=
  let p := fecPage k
  let ops := fecOps s k
  let found := ops.zipIdx.findSome? fun (o, j) =>
    (o.units.zipIdx.find? fun x => x.1.ph = 1 ∧ x.1.eng = e).map fun x => (j, x.2, o)
  match found with
  | none => s
  | some (j, i, op) =>
    if fault then
      let s := modReg s p 0x110 fun w => putBit w e false
      let s := ownErr (setEvt (incCnt s p 11) p 0) p 5 0x06 none
      let w := ((op.units[i]?).getD FecUnit.init).waited
      checkEngines (setFec s k (setUnit ops j i { FecUnit.init with waited := w })) k
    else runUnit s k j i op

/-! ### Meanings -/

/-- A fire on the FEC pool of a kind. -/
def fecFire (kind : Nat) (f : FireRec) (s : State) : State :=
  if f.pool = 2 ∧ f.member.toNat < 4 ∧ fireKind f = kind then
    fireRow (fecPage f.member.toNat) 0x04 f (fun g s => fecStart f.member.toNat g s) s
  else s

/-- LDPC_DEC (R284). -/
def execLdpcDec (f : FireRec) (s : State) : Host.Outcome State Fault Refusal := .next (fecFire 1 f s)

/-- LDPC_ENC (R311). -/
def execLdpcEnc (f : FireRec) (s : State) : Host.Outcome State Fault Refusal := .next (fecFire 2 f s)

/-- TURBO_DEC (R306). -/
def execTurboDec (f : FireRec) (s : State) : Host.Outcome State Fault Refusal := .next (fecFire 3 f s)

/-- TURBO_ENC (R311). -/
def execTurboEnc (f : FireRec) (s : State) : Host.Outcome State Fault Refusal := .next (fecFire 4 f s)

/-- POLAR_DEC (R308). -/
def execPolarDec (f : FireRec) (s : State) : Host.Outcome State Fault Refusal := .next (fecFire 5 f s)

/-- POLAR_ENC (R307). -/
def execPolarEnc (f : FireRec) (s : State) : Host.Outcome State Fault Refusal := .next (fecFire 6 f s)

/-- WORK_UNIT_START (R286). -/
def execWorkUnitStart (k c : Fin 4) (s : State) : Host.Outcome State Fault Refusal :=
  .next (whileRuns (fecPage k) (unitStartSt k c) s)

/-- WORK_UNIT_DONE (R287). -/
def execWorkUnitDone (k : Fin 4) (e : Fin 25) (fault : Bool) (s : State) : Host.Outcome State Fault Refusal :=
  .next (whileRuns (fecPage k) (fun s => dramHold s (unitDoneSt k e fault s)) s)

/-- What SOFT_RESET does to a block's operations (R58, R289): each ends in error with its descriptor and its token. -/
def fecDrop (s : State) (k : Nat) : State :=
  setFec ((fecOps s k).foldl (fun s o => failFec s k o.fire o.desc 0x11 0) s) k []

end Sys2Proof.Machine
end

