-- ==== Sys2Proof/Machine/MemEcc.lean ====
section
/-! DEFINITION. The memories' own events (R628–R636) and the DRAM controller (R638–R656, R658). -/

namespace Sys2Proof.Machine

/-- Changes the memories' record. -/
def modMemc (s : State) (f : MemSt → MemSt) : State := { s with memc := f s.memc }

/-- The worse of two marks. -/
def Mark.worse : Mark → Mark → Mark
  | .ue, _ => .ue
  | _, .ue => .ue
  | .ce, _ => .ce
  | _, .ce => .ce
  | _, _ => .clean

/-- A physical upset leaves its mark on the word, the DRAM block or the router table entry (R571) that it struck; DRAM without
ECC detects nothing (R645), and the byte struck holds a free value. [DEDUCED, log 16] -/
def applyUpset (u : Option Upset) (s : State) : State :=
  match u with
  | none => s
  | some u =>
    if 2 ^ 51 ≤ u.addr ∧ u.addr < 2 ^ 51 + 2 ^ 21 then setMark s u.addr (Mark.worse (getMark s u.addr) u.mark)
    else if 2 ^ 49 ≤ u.addr then s
    else if u.addr < 0x001000000000 ∧ !bit (memCfg s) 31 then
      if u.mark = .clean then s
      else
        let (b, s) := takeFree 8 s
        setByte s u.addr b
    else
      let g := if u.addr < 0x001000000000 then u.addr / 64 * 64 else u.addr / 8 * 8
      setMark s g (Mark.worse (getMark s g) u.mark)

/-- Memory from key `lo` up to `hi` holds zeros with valid check bits. -/
def zeroRange (lo hi : Nat) (s : State) : State :=
  { s with
    mem := s.mem.filter fun e => !(decide (lo ≤ e.1) && decide (e.1 < hi)),
    memErr := s.memErr.filter fun e => !(decide (lo ≤ e.1) && decide (e.1 < hi)) }

/-! ### Arrays (R625, R628) -/

/-- The memory key of an array (R625); none where the page has no such array. -/
def arrayBase (p arr : Nat) : Option Nat :=
  match pageKind p with
  | some .core => if arr < 5 then some (coreKey (p - 0x030) (arr * 0x20000)) else none
  | some .cluster => if arr < 32 then some (0x001100000000 + (p - 0x010) * 0x01000000 + arr * 0x20000) else none
  | some .ssram => if arr < 256 then some (0x001000000000 + (p - 0x0F0) * 0x02000000 + arr * 0x20000) else none
  | some .prism => if p = 0x00B ∧ arr < 64 then some (0x001300000000 + arr * 0x20000) else none
  | _ => none

/-- An array's power domain and retention bank are ON. -/
def arrayOn (s : State) (p arr : Nat) : Bool :=
  pageOn s p && (decide (p ≠ 0x0F0 ∧ p ≠ 0x0F1) || decide (sramBank s (p - 0x0F0) (arr / 8) = 2))

/-- ARRAY_SCRUB (R628). -/
def arrayScrubSt (p arr w : Nat) (u : Option Upset) (s : State) : State :=
  let s := applyUpset u s
  match arrayBase p arr with
  | none => s
  | some b =>
    if !arrayOn s p arr then s
    else
      let s := (readArrayWord 2 (b + 8 * w) s).1
      if p = 0x0F0 ∨ p = 0x0F1 then
        let n := kget 0 s.memc.wordsScrubbed (p - 0x0F0) + 1
        let s := modMemc s fun m => { m with wordsScrubbed := kset 0 m.wordsScrubbed (p - 0x0F0) (n % 1024) }
        if n = 1024 then incCnt s p 4 else s
      else s

/-! ### Row repair (R632–R636) -/

/-- The array key that RR_TARGET names. -/
def rrTarget (s : State) : Nat := bits (getReg s 0x0F0 0x110) 25 16 * 256 + bits (getReg s 0x0F0 0x110) 7 0

/-- Free spare rows of an array (R636). -/
def freeSpares (s : State) (arr : Nat) : Nat := 16 - kget 0 s.memc.spares arr

/-- RR_STS as read. -/
def rrSts (s : State) : Word :=
  let t := rrTarget s
  putBits (getReg s 0x0F0 0x11C) 4 0 (if (arrayBase (t / 256) (t % 256)).isSome then freeSpares s t else 0)

/-- R634: a REPAIR is refused. -/
def rrRefuse (why : Nat) (s : State) : State :=
  setEvt (modReg s 0x0F0 0x11C fun w => putBits (putBit w 28 true) 27 24 why) 0x0F0 1

/-- REPAIR (R632, R634). [DEDUCED, log 95] -/
def repairSt (v : Word) (s : State) : State :=
  if !bit v 0 then s
  else if s.memc.repairing.isSome then rrRefuse 4 s
  else
    let s := modReg s 0x0F0 0x11C fun w => putBits w 31 24 0
    let t := rrTarget s
    let row := (getReg s 0x0F0 0x114).toNat
    if (arrayBase (t / 256) (t % 256)).isNone ∨ 2047 < row then rrRefuse 2 s
    else if !arrayOn s (t / 256) (t % 256) then rrRefuse 3 s
    else if freeSpares s t = 0 then rrRefuse 1 s
    else modReg (modMemc s fun m => { m with repairing := some (t, row) }) 0x0F0 0x11C fun w => putBit w 30 true

/-- A row moves to the array's next spare row; the words of it that cannot be read. [DEDUCED, log 95] -/
def moveRow (arr row : Nat) (s : State) : State × Bool :=
  let b := (arrayBase (arr / 256) (arr % 256)).getD 0 + 64 * row
  let r := (List.range 8).foldl (fun (acc : State × Bool) i =>
    match getMark acc.1 (b + 8 * i) with
    | .clean => acc
    | .ce => (countCe (setMark acc.1 (b + 8 * i) .clean) (arr / 256), acc.2)
    | .ue => (acc.1, true)) (s, false)
  let n := kget 0 r.1.memc.spares arr
  (modMemc r.1 fun m => { m with
    spares := kset 0 m.spares arr (n + 1),
    rowFixes := (m.rowFixes.filter fun f => !decide (f.arr = arr ∧ f.row = row)) ++ [⟨arr, row, n⟩] }, r.2)

/-- RR_DONE (R632, R633). [DEDUCED, log 95] -/
def rrDoneSt (s : State) : State :=
  match s.memc.repairing with
  | none => s
  | some (arr, row) =>
    let (s, ue) := moveRow arr row s
    let s := modMemc s fun m => { m with repairing := none }
    let s := modReg s 0x0F0 0x11C fun w => putBit (putBit (putBit w 31 true) 30 false) 29 ue
    incCnt (setEvt s 0x0F0 0) 0x0F0 6

/-! ### System SRAM banks (R631) -/

/-- The banks' states change: a bank that goes OFF loses its contents. -/
def bankPwrSet (h : Nat) (lo hi : Word) (s : State) : State :=
  let s' := setReg (setReg s (0x0F0 + h) 0x100 lo) (0x0F0 + h) 0x104 hi
  (List.range 32).foldl (fun t b =>
    if sramBank s h b ≠ 0 ∧ sramBank t h b = 0 then
      let k := 0x001000000000 + h * 0x02000000 + b * 0x100000
      zeroRange k (k + 0x100000) t
    else t) s'

/-- BANK_PWR_WRITE (R631): the pair commits at _HI (R77, R78). -/
def bankPwrSt (a : Acc) (h : Nat) (hi : Bool) (v : Word) (s : State) : State :=
  if hi then
    let (held, s) := takeLo s a (0x0F0 + h) 0x100
    let lo := held.getD (getReg s (0x0F0 + h) 0x100)
    bankPwrSet h lo v s
  else holdLo s a (0x0F0 + h) 0x100 v

/-! ### The DRAM controller -/

/-- CH_STS.STATE of every channel. -/
def setChState (st : Nat) (s : State) : State :=
  (List.range 16).foldl (fun s c => modReg s (0x0E0 + c) 0x180 fun w => putBits w 31 28 st) s

/-- CH_STS.FSP of every channel. -/
def setChFsp (fsp : Nat) (s : State) : State :=
  (List.range 16).foldl (fun s c => modReg s (0x0E0 + c) 0x180 fun w => putBits w 5 4 fsp) s

/-- The data rates of R637. -/
def dramRates : List Nat := [1600, 3200, 4267, 5500, 6400, 7500, 8533]

/-- The rate of a set point (R638, R649); 0 where it is unused. -/
def fspRate (s : State) (n : Nat) : Nat :=
  match n with
  | 0 => 3200
  | 1 => bits (getReg s 0x0E0 0x104) 15 0
  | 2 => bits (getReg s 0x0E0 0x104) 31 16
  | _ => 0

/-- The DRAM's contents are gone (R640); what is left reads as memory that nothing has written. -/
def dramLost (s : State) : State := zeroRange 0 0x001000000000 s

/-- R638: the controller begins power-up and training; an unsupported FSP_FREQ rate is captured instead. -/
def dramBegin (s : State) : State :=
  if [fspRate s 1, fspRate s 2].any fun r => decide (r ≠ 0) && !dramRates.contains r then ownErr s 0x0E0 6 0x07 none
  else
    let s := dramLost (setChState 1 s)
    modMemc s fun m => { m with init := true, banks := [] }

/-- CTRL.ENABLE of DRAMC0 rises. -/
def dramEnableSt (s : State) : State :=
  if ctrlEnable s 0x0E0 then s else dramBegin (modReg s 0x0E0 0x08 fun w => putBit w 0 true)

/-- DRAM_INIT_DONE (R638, R639). -/
def dramInitDoneSt (failed : Option (Fin 16 × BitVec 4)) (s : State) : State :=
  if !s.memc.init then s
  else
    let s := modMemc s fun m => { m with init := false }
    match failed with
    | some (c, step) =>
      let s := modReg s (0x0E0 + c) 0x180 fun w => putBits (putBits w 31 28 4) 3 0 step.toNat
      ownErr (setEvt s 0x0E0 0) 0x0E0 4 0x05 none
    | none =>
      let s := setChFsp 0 (setChState 2 s)
      let s := (List.range 5).foldl (fun s i => setReg s 0x0E0 (0x114 + 4 * i) (regReset 0x0E0 (0x114 + 4 * i))) s
      let s := modReg s 0x0E0 0x110 fun w => putBits w 29 28 0
      if ctrlEnable s 0x0E0 then setEnabled s 0x0E0 true else s

/-- The current set point. -/
def curFsp (s : State) : Nat := bits (getReg s 0x0E0 0x110) 29 28

/-- R649: a change to a set point is refused. -/
def fcBad (s : State) (n : Nat) : Bool :=
  decide (n ≠ bits (getReg s 0x0E0 0x108) 1 0) || decide (n = curFsp s) || decide (fspRate s n = 0)

/-- A change starts: the stall runs and the parts are in self-refresh (R650). -/
def fcStart (by_ : FcBy) (n : Nat) (s : State) : State :=
  let s := modMemc s fun m => { m with fc := some by_, fcTarget := n }
  setChState 3 (modReg s 0x0E0 0x110 fun w => putBit w 31 true)

/-- R649: a fire of the MEMCTL pool that the controller has taken, where no change runs. -/
def fcFireNow (f : FireRec) (s : State) : State :=
  if f.opcode ≠ 1 ∨ fcBad s (f.p0.toNat % 4) then failFire s 0x0E0 f 0x01
  else fcStart (.fire f) (f.p0.toNat % 4) s

/-- FREQ_CHANGE (R649, R654): a fire during a change waits for it. -/
def freqChangeSt (f : FireRec) (s : State) : State :=
  if !s.arrived.contains f || !pageClock s 0x0E0 then s else
  let s := takeArrived s f
  if !enabled s 0x0E0 then failFire s 0x0E0 f 0x04
  else if s.memc.fc.isSome then modMemc s fun m => { m with fcWaiting := m.fcWaiting ++ [f] } else fcFireNow f s

/-- FC_CMD (R654). -/
def fcGoSt (v : Word) (s : State) : State :=
  if !bit v 31 then s
  else if s.memc.fc.isSome ∨ !enabled s 0x0E0 ∨ fcBad s (bits v 1 0) then setEvt s 0x0E0 3
  else fcStart .reg (bits v 1 0) s

/-- Every row is closed; the predictors keep their states (R647). -/
def closeRows (keep : Nat → Bool) (s : State) : State :=
  modMemc s fun m => { m with banks := m.banks.map fun e =>
    match e.2.openRow with
    | some r => if keep e.1 then e else (e.1, { e.2 with openRow := none, lastRow := some r })
    | none => e }

/-- Refreshes of a channel are issued, the postponed ones with them. -/
def issueRefresh (c n : Nat) (s : State) : State :=
  let k := kget 0 s.memc.postponed c + n
  modMemc (addCnt s (0x0E0 + c) 7 k) fun m => { m with postponed := kset 0 m.postponed c 0 }

/-- Steps 5–7 of R650: the stall ends, and a fire that waited takes its turn. -/
def fcEnd (ns : Nat) (s : State) : State :=
  let s := (List.range 16).foldl (fun s c => issueRefresh c 0 s) (closeRows (fun _ => false) s)
  let s := modReg (setChState 2 s) 0x0E0 0x110 fun w => putBits (putBit w 31 false) 15 0 (min ns 0xFFFF)
  modMemc s fun m => { m with fc := none }

/-- The fires that waited for the change: each is taken while none runs. -/
def fcNext : Nat → State → State
  | 0, s => s
  | n + 1, s =>
    match s.memc.fcWaiting with
    | [] => s
    | f :: fs =>
      if s.memc.fc.isSome then s
      else fcNext n (fcFireNow f (modMemc s fun m => { m with fcWaiting := fs }))

/-- FC_DONE (R650, R651). -/
def fcDoneSt (ns : Nat) (s : State) : State :=
  match s.memc.fc with
  | none => s
  | some by_ =>
    let old := curFsp s
    let s := (List.range 5).foldl (fun s i =>
      let x := getReg s 0x0E0 (0x114 + 4 * i)
      let y := getReg s 0x0E0 (0x128 + 4 * i)
      setReg (setReg s 0x0E0 (0x114 + 4 * i) y) 0x0E0 (0x128 + 4 * i) x) s
    let s := setReg s 0x0E0 0x108 (w32 old)
    let s := modReg (setChFsp s.memc.fcTarget s) 0x0E0 0x110 fun w => putBits w 29 28 s.memc.fcTarget
    let s := setEvt (fcEnd ns s) 0x0E0 1
    let s := match by_ with
      | .fire f => complete s 0x0E0 f false (BitVec.ofNat 64 (ns % 2 ^ 32))
      | .reg => s
    fcNext s.memc.fcWaiting.length s

/-- FC_FAIL (R653). -/
def fcFailSt (ns : Nat) (s : State) : State :=
  match s.memc.fc with
  | none => s
  | some by_ =>
    let s := ownErr (setEvt (fcEnd ns s) 0x0E0 2) 0x0E0 4 0x06 none
    let s := match by_ with
      | .fire f => failFire s 0x0E0 f 0x02
      | .reg => s
    fcNext s.memc.fcWaiting.length s

/-- The controller serves and refreshes. -/
def dramServes (s : State) : Bool := enabled s 0x0E0 && s.memc.fc.isNone && dramClock s && blockRuns s 0x0E0

/-- DRAM_REFRESH (R647, R648): a refresh falls due on channel `c`. With per-bank refresh the spec does not say which
bank it is. [DEDUCED, log 94] -/
def dramRefreshSt (c : Nat) (traffic : Bool) (s : State) : State :=
  if !dramServes s then s
  else
    let cfg := getReg s (0x0E0 + c) 0x184
    let n := kget 0 s.memc.postponed c
    if traffic ∧ n < min 8 (bits cfg 3 0) then modMemc s fun m => { m with postponed := kset 0 m.postponed c (n + 1) }
    else
      let s := issueRefresh c 1 s
      if bit cfg 8 then closeRows (fun k => !decide (k / 32 = c)) s
      else
        let (b, s) := takeFree 5 s
        closeRows (fun k => !decide (k = c * 32 + b.toNat)) s

/-- MR4_POLL (R648). [DEDUCED, log 94] -/
def mr4St (c code : Nat) (s : State) : State :=
  if !dramServes s then s
  else
    let old := bits (getReg s (0x0E0 + c) 0x180) 15 8
    let s := modReg s (0x0E0 + c) 0x180 fun w => putBits w 15 8 code
    if old = code then s else setEvt s (0x0E0 + c) 4

/-- DRAM_SCRUB (R658): the scrubber reads its next block. [DEDUCED, log 94] -/
def dramScrubSt (u : Option Upset) (s : State) : State :=
  let s := applyUpset u s
  if !dramServes s ∨ !bit (getReg s 0x0E0 0x140) 31 then s
  else
    let b := 64 * s.memc.scrubPos
    let p := 0x0E0 + (dramChan s b).1
    let s := incCnt s p 8
    let s := if !bit (memCfg s) 31 then s else
      match getMark s b with
      | .clean => s
      | .ce => incCnt (countCe (captureErr (setMark s b .clean) p ⟨1, 0x01, 0, p, some b⟩) p) p 5
      | .ue =>
        let s := setPair s 0x0E0 0x144 b
        captureErr (setEvt (incCnt s p 6) p 5) p ⟨2, 0x03, 0, p, some b⟩
    if dramUsable s / 64 ≤ s.memc.scrubPos + 1 then setEvt (modMemc s fun m => { m with scrubPos := 0 }) 0x0E0 6
    else modMemc s fun m => { m with scrubPos := m.scrubPos + 1 }

/-- PAGE_IDLE_CLOSE (R646): the bank's row has stood open for PAGE_IDLE ns. -/
def pageIdleSt (b : Nat) (s : State) : State := closeRows (fun k => !decide (k = b)) s

/-- A reset that finds the parts in self-refresh loses their contents, and the controller runs R638 again at the boot rate
(R655, R826). [DEDUCED, log 94] -/
def selfRefreshLost (fc : Bool) (s : State) : State := if fc then dramBegin s else s

/-- A soft reset of DRAMC0's page ends its operations (R58); in self-refresh the DRAM is lost (R655). -/
def dramDrop (s : State) : State :=
  let fc := s.memc.fc.isSome
  let fs := (match s.memc.fc with | some (.fire f) => [f] | _ => []) ++ s.memc.fcWaiting
  let s := fs.foldl (fun s f => failFire s 0x0E0 f 0x11) s
  selfRefreshLost fc (modMemc s fun m => { m with fc := none, fcWaiting := [], init := false })

/-! ### Commands -/

/-- ARRAY_SCRUB (R628). -/
def execArrayScrub (p : Fin 512) (arr : BitVec 8) (w : Fin 16384) (u : Option Upset) (s : State) :
    Host.Outcome State Fault Refusal := .next (whileRuns p (arrayScrubSt p arr.toNat w u) s)

/-- REPAIR (R632). -/
def execRepair (a : Acc) (v : Word) (s : State) : Host.Outcome State Fault Refusal :=
  .next (onPage a 0x0F0 0x118 (repairSt v) s)

/-- RR_DONE (R632). -/
def execRrDone (s : State) : Host.Outcome State Fault Refusal := .next (whileRuns 0x0F0 rrDoneSt s)

/-- BANK_PWR_WRITE (R631). -/
def execBankPwrWrite (a : Acc) (h : Fin 2) (hi : Bool) (v : Word) (s : State) : Host.Outcome State Fault Refusal :=
  .next (onPage a (0x0F0 + h) (if hi then 0x104 else 0x100) (bankPwrSt a h hi v) s)

/-- DRAM_ENABLE (R638). -/
def execDramEnable (a : Acc) (s : State) : Host.Outcome State Fault Refusal := .next (onPage a 0x0E0 0x08 dramEnableSt s)

/-- DRAM_INIT_DONE (R638). -/
def execDramInitDone (failed : Option (Fin 16 × BitVec 4)) (s : State) : Host.Outcome State Fault Refusal :=
  .next (whileRuns 0x0E0 (dramInitDoneSt failed) s)

/-- FREQ_CHANGE (R649). -/
def execFreqChange (f : FireRec) (s : State) : Host.Outcome State Fault Refusal := .next (freqChangeSt f s)

/-- FC_GO (R654). -/
def execFcGo (a : Acc) (v : Word) (s : State) : Host.Outcome State Fault Refusal := .next (onPage a 0x0E0 0x10C (fcGoSt v) s)

/-- FC_DONE (R651). -/
def execFcDone (ns : Nat) (s : State) : Host.Outcome State Fault Refusal := .next (whileRuns 0x0E0 (fcDoneSt ns) s)

/-- FC_FAIL (R653). -/
def execFcFail (ns : Nat) (s : State) : Host.Outcome State Fault Refusal := .next (whileRuns 0x0E0 (fcFailSt ns) s)

/-- DRAM_REFRESH (R648). -/
def execDramRefresh (ch : Fin 16) (traffic : Bool) (s : State) : Host.Outcome State Fault Refusal :=
  .next (dramRefreshSt ch traffic s)

/-- MR4_POLL (R648). -/
def execMr4Poll (ch : Fin 16) (code : BitVec 8) (s : State) : Host.Outcome State Fault Refusal :=
  .next (mr4St ch code.toNat s)

/-- DRAM_SCRUB (R658). -/
def execDramScrub (u : Option Upset) (s : State) : Host.Outcome State Fault Refusal := .next (dramScrubSt u s)

/-- PAGE_IDLE_CLOSE (R646). -/
def execPageIdleClose (b : Fin 512) (s : State) : Host.Outcome State Fault Refusal := .next (whileRuns 0x0E0 (pageIdleSt b) s)

end Sys2Proof.Machine
end

