-- ==== Sys2Proof/Machine/Mxc.lean ====
section
/-! DEFINITION. The matrix coprocessors (R514–R552): contexts, acceptance and refusal, the choice of the source that
runs, the operations MM, GRAM and CHSOLVE, their completion and their fires. -/

namespace Sys2Proof.Machine

/-- The page of MXC `m`. -/
def mxcPage (m : Nat) : Nat := 0x020 + m

/-- An MXC. -/
def mxcOf (s : State) (m : Nat) : MxcSt := kget MxcSt.init s.mxc m

/-- Stores an MXC. -/
def setMxc (s : State) (m : Nat) (x : MxcSt) : State := { s with mxc := kset MxcSt.init s.mxc m x }

/-- Changes an MXC. -/
def modMxc (s : State) (m : Nat) (f : MxcSt → MxcSt) : State := setMxc s m (f (mxcOf s m))

/-- A context (R514, R515): context `k` of MXC `m` belongs to LC(8m + k). -/
def mxCtxOf (s : State) (m k : Nat) : MxCtx := kget MxCtx.init s.mxCtx (m * 8 + k)

/-- Changes a context. -/
def modCtx (s : State) (m k : Nat) (f : MxCtx → MxCtx) : State :=
  { s with mxCtx := kset MxCtx.init s.mxCtx (m * 8 + k) (f (mxCtxOf s m k)) }

/-- One bit of sixteen. -/
def bit16 (i : Nat) : BitVec 16 := BitVec.ofNat 16 (2 ^ i)

/-! ### Shapes (R524, R525) -/

/-- The fields of a shape pair. -/
structure Shape where
  m : Nat
  n : Nat
  k : Nat
  count : Nat
  kind : Nat
  fin : Nat
  fout : Nat
  deriving DecidableEq, Repr

/-- The shape that two words give (R524). -/
def shapeOf (w0 w1 : Word) : Shape :=
  ⟨bits w0 10 0, bits w0 26 16, bits w1 12 0, bits w1 23 13, bits w1 31 28, bits w1 27 26, bits w1 25 24⟩

/-- A shape that the MXC supports (R525). -/
def shapeOk (h : Shape) : Bool :=
  let common := decide (1 ≤ h.m ∧ h.m ≤ 1024 ∧ 1 ≤ h.n ∧ h.n ≤ 1024 ∧ 1 ≤ h.k ∧ h.k ≤ 4096 ∧ 1 ≤ h.count ∧
    h.count ≤ 1024 ∧ h.fin ≤ 1 ∧ h.fout ≤ 1)
  match h.kind with
  | 1 => common
  | 2 => common && decide (h.m = h.n ∧ h.n ≤ 256)
  | 3 => common && decide (h.n ≤ 64 ∧ h.m ≤ 256 ∧ h.k = 1)
  | _ => false

/-! ### Arithmetic (R528–R530) -/

/-- A complex value with parts in binary32's range of values; C16 inputs are exact. -/
structure Cv where
  re : Fv
  im : Fv

/-- An element of a matrix: C16 as Q1.15, or CF32 (R524). -/
def cvOf (fmt : Nat) (bs : List Byte) : Cv :=
  if fmt = 0 then
    let c := cxOfWord 15 (wordAt bs 0)
    ⟨fExact false c.re, fExact false c.im⟩
  else ⟨fOf (wordAt bs 0), fOf (wordAt bs 1)⟩

/-- The size of an element. -/
def fmtSize (fmt : Nat) : Nat := if fmt = 0 then 4 else 8

/-- The conjugate. -/
def Cv.conj (a : Cv) : Cv := ⟨a.re, fNegV a.im⟩

/-- Zero. -/
def Cv.zero : Cv := ⟨.num false 0, .num false 0⟩

/-- A sum kept exact, or rounded to binary32 (R528). -/
def fKeep (rnd : Bool) (x : Fv) : Fv := if rnd then fOf (fWord x) else x

/-- acc + a × b, each addition rounded where `rnd` (R528). [PRESUMED, log 80] -/
def Cv.mac (rnd : Bool) (acc a b : Cv) : Cv :=
  let step (x y : Fv) : Fv := fKeep rnd (fAddV x y)
  ⟨step (step acc.re (fMulV a.re b.re)) (fNegV (fMulV a.im b.im)),
   step (step acc.im (fMulV a.re b.im)) (fMulV a.im b.re)⟩

/-- a + b. -/
def Cv.add (rnd : Bool) (a b : Cv) : Cv := ⟨fKeep rnd (fAddV a.re b.re), fKeep rnd (fAddV a.im b.im)⟩

/-- a − b. -/
def Cv.sub (rnd : Bool) (a b : Cv) : Cv := Cv.add rnd a ⟨fNegV b.re, fNegV b.im⟩

/-- A value scaled by a power of two. -/
def fScale (x : Fv) (e : Int) : Fv :=
  match x with
  | .num n y => .num n (y * pow2 e)
  | y => y

/-- One part as C16 (R529): how RND rounds, and whether it saturated. [DESIGN CHOICE, log 81] -/
def c16Part (rnd sh : Nat) (x : Fv) : Nat × Nat :=
  match x with
  | .nan => (Config.nan16.toNat, 0)
  | .inf n => (if n then 0x8000 else 0x7FFF, 1)
  | .num n y =>
    let v := fSigned n y * pow2 (30 - (sh : Int))
    let i := match rnd with
      | 0 => roundEven v
      | 1 => if 0 ≤ v then (v + 1 / 2).floor else -((-v + 1 / 2).floor)
      | _ => v.floor
    let (c, o) := satBits 16 i
    (wrapN 16 c, if o then 1 else 0)

/-- An output element as bytes, and whether it saturated in a part (R529): one count for an element. [DEDUCED, log 78] -/
def outBytes (fmt rnd sh : Nat) (x : Cv) : List Byte × Nat :=
  if fmt = 0 then
    let (i, a) := c16Part rnd sh x.re
    let (q, b) := c16Part rnd sh x.im
    (leBytes 4 (i + q * 2 ^ 16), max a b)
  else
    let e : Int := 15 - (sh : Int)
    (leBytes 4 (fWord (fScale x.re e)).toNat ++ leBytes 4 (fWord (fScale x.im e)).toNat, 0)

/-- A matrix in row-major order. -/
structure Mat where
  rows : Nat
  cols : Nat
  data : Array Cv

/-- An element of a matrix. -/
def Mat.at (m : Mat) (i j : Nat) : Cv := (m.data[i * m.cols + j]?).getD Cv.zero

/-- An element of a matrix, or of its conjugate transpose (R525). -/
def Mat.op (m : Mat) (t : Bool) (i j : Nat) : Cv := if t then (m.at j i).conj else m.at i j

/-- The matrix that bytes hold. -/
def matOf (fmt rows cols : Nat) (bs : List Byte) : Mat :=
  let z := fmtSize fmt
  let a := bs.toArray
  ⟨rows, cols, (Array.range (rows * cols)).map fun i => cvOf fmt (a.extract (i * z) (i * z + z)).toList⟩

/-- The matrix product of R525, in ascending k (R528). -/
def matMul (rnd : Bool) (m n k : Nat) (a b : Nat → Nat → Cv) : List Cv :=
  (List.range m).flatMap fun i => (List.range n).map fun j =>
    (List.range k).foldl (fun acc q => Cv.mac rnd acc (a i q) (b q j)) Cv.zero

/-- GRAM (R525): X^H X + λI. -/
def matGram (rnd : Bool) (n k : Nat) (x : Mat) (lambda : Word) : List Cv :=
  (List.zipIdx (matMul rnd n n k (fun i q => (x.at q i).conj) (fun q j => x.at q j))).map fun (c, e) =>
    if e / n = e % n then { c with re := fKeep rnd (fAddV c.re (fOf lambda)) } else c

/-- The quotient of a binary32 value by a real one. -/
def fDiv (x y : Fv) : Fv :=
  match x, y with
  | .nan, _ => .nan
  | _, .nan => .nan
  | .inf _, .inf _ => .nan
  | .inf a, .num b _ => .inf (a != b)
  | .num a _, .inf b => .num (a != b) 0
  | .num a p, .num b q => if q = 0 then (if p = 0 then .nan else .inf (a != b)) else fOf (fPack (a != b) (p / q))

/-- A complex value divided by a real one. -/
def Cv.divr (a : Cv) (d : Fv) : Cv := ⟨fDiv a.re d, fDiv a.im d⟩

/-- |a|². -/
def Cv.normSq (a : Cv) : Fv := fKeep true (fAddV (fKeep true (fMulV a.re a.re)) (fMulV a.im a.im))

/-- The square root of a binary32 value. -/
def fSqrt (x : Fv) : Fv :=
  match x with
  | .num false y => if y = 0 then x else fOf (fPack false (sqrtQ y))
  | .num true y => if y = 0 then x else .nan
  | .inf false => .inf false
  | _ => .nan

/-- A pivot that is not above 2^−40 times the largest diagonal element (R530). -/
def badPivot (p top : Fv) : Bool :=
  match p, top with
  | .num n x, .num m y => decide (fSigned n x ≤ fSigned m y * pow2 (-40))
  | .inf false, .num _ _ => false
  | _, _ => true

/-- The greater of two values. -/
def fMaxV (a b : Fv) : Fv := if fLt (fWord a) (fWord b) then b else a

/-- The columns of a Cholesky factor, first to last (R530); none where a pivot fails. [PRESUMED, log 80] -/
def cholesky (n : Nat) (a : Mat) (top : Fv) : List Nat → Array (Array Cv) → Option (Array (Array Cv))
  | [], l => some l
  | j :: js, l =>
    let at_ (i k : Nat) : Cv := ((l[k]?).getD #[])[i]?.getD Cv.zero
    let red (i : Nat) : Cv := (List.range j).foldl (fun acc k =>
      let t := Cv.mac true Cv.zero (at_ i k) (at_ j k).conj
      Cv.sub true acc t) (a.at i j)
    let p := (red j).re
    if badPivot p top then none
    else
      let d := fSqrt p
      let col := (Array.range n).map fun i =>
        if i < j then Cv.zero else if i = j then ⟨d, .num false 0⟩ else (red i).divr d
      cholesky n a top js (l.push col)

/-- CHSOLVE for one column of op_B(B): L y = b, then L^H x = y. [PRESUMED, log 80] -/
def cholSolve (n : Nat) (l : Array (Array Cv)) (b : Nat → Cv) : List Cv :=
  let at_ (i k : Nat) : Cv := ((l[k]?).getD #[])[i]?.getD Cv.zero
  let y := (List.range n).foldl (fun (y : Array Cv) i =>
    let r := (List.range i).foldl (fun acc k => Cv.sub true acc (Cv.mac true Cv.zero (at_ i k) ((y[k]?).getD Cv.zero))) (b i)
    y.push (r.divr (at_ i i).re)) #[]
  let x := (List.range n).foldl (fun (x : List Cv) c =>
    let i := n - 1 - c
    let r := (List.zipIdx x).foldl (fun acc (v, o) =>
      Cv.sub true acc (Cv.mac true Cv.zero (at_ (i + 1 + o) i).conj v)) ((y[i]?).getD Cv.zero)
    r.divr (at_ i i).re :: x) []
  x

/-- CHSOLVE (R525, R530): C is N × M in row-major order; none where A fails. -/
def matSolve (h : Shape) (a b : Mat) (tb : Bool) : Option (List Cv) :=
  let top := (List.range h.n).foldl (fun acc i => fMaxV acc (a.at i i).re) (.inf true)
  match cholesky h.n a top (List.range h.n) #[] with
  | none => none
  | some l =>
    let cols := (List.range h.m).map fun j => (cholSolve h.n l (fun i => b.op tb i j)).toArray
    some ((List.range h.n).flatMap fun i => cols.map fun col => (col[i]?).getD Cv.zero)

/-! ### One operation -/

/-- What an operation has done so far: batch elements written, saturated parts, failed elements. -/
structure MxWork where
  done : Nat
  sat : Nat
  notPd : Nat
  deriving DecidableEq, Repr

/-- An error of an operation: cause, capture class and code, address (R545, R546). -/
structure MxErr where
  cause : Nat
  cls : Nat
  code : Nat
  addr : Option Nat
  deriving DecidableEq, Repr

/-- An operand read (R545, R546). -/
def mxRead (s : State) (p a n : Nat) : State × Except MxErr (List Byte) :=
  match memRead s p a n with
  | (s, .ok, d) => (s, .ok d)
  | (s, .poison, _) => (s, .error ⟨2, 2, 0x02, some a⟩)
  | (s, _, _) => (s, .error ⟨3, 3, 0x03, some a⟩)

/-- The result matrix of a batch element, and whether CHSOLVE failed. -/
def mxCompute (h : Shape) (w4 lambda : Word) (a b : Mat) (c : Option Mat) : List Cv × Bool :=
  let rnd := decide (h.fin = 1)
  let ta := bit w4 27
  let tb := bit w4 26
  let plus (xs : List Cv) : List Cv :=
    match c with
    | none => xs
    | some m => (List.zip xs m.data.toList).map fun (x, y) => Cv.add rnd x y
  match h.kind with
  | 1 => (plus (matMul rnd h.m h.n h.k (a.op ta) (b.op tb)), false)
  | 2 => (plus (matGram rnd h.n h.k a lambda), false)
  | _ => match matSolve h a b tb with
    | some xs => (xs, false)
    | none => (List.replicate (h.n * h.m) Cv.zero, true)

/-- The dimensions of A, B and C as stored, with A's format (R525). -/
def mxDims (h : Shape) (w4 : Word) : (Nat × Nat × Nat) × (Nat × Nat) × (Nat × Nat) :=
  match h.kind with
  | 1 => ((if bit w4 27 then (h.k, h.m, h.fin) else (h.m, h.k, h.fin)),
          (if bit w4 26 then (h.n, h.k) else (h.k, h.n)), (h.m, h.n))
  | 2 => ((h.k, h.n, h.fin), (0, 0), (h.n, h.n))
  | _ => ((h.n, h.n, 1), (if bit w4 26 then (h.m, h.n) else (h.n, h.m)), (h.n, h.m))

/-- C is an operand too. -/
def mxAcc (h : Shape) (ws : List Word) : Bool := bit (wWord ws 4) 25 && decide (h.kind ≤ 2)

/-- The bytes of A, B and C of batch element `b`. [DEDUCED, log 77] -/
def mxOperands (s : State) (p : Nat) (h : Shape) (ws : List Word) (b : Nat) :
    State × Except MxErr (List Byte × List Byte × List Byte) :=
  let ((ar, ac, af), (br, bc), (cr, cc)) := mxDims h (wWord ws 4)
  match mxRead s p (wAddr ws 8 + b * (wWord ws 14).toNat) (ar * ac * fmtSize af) with
  | (s, .error e) => (s, .error e)
  | (s, .ok ab) =>
    match (if br = 0 then (s, Except.ok []) else
      mxRead s p (wAddr ws 10 + b * (wWord ws 15).toNat) (br * bc * fmtSize h.fin)) with
    | (s, .error e) => (s, .error e)
    | (s, .ok bb) =>
      match (if mxAcc h ws then mxRead s p (wAddr ws 12 + b * (wWord ws 16).toNat) (cr * cc * fmtSize h.fout)
        else (s, Except.ok [])) with
      | (s, .error e) => (s, .error e)
      | (s, .ok cb) => (s, .ok (ab, bb, cb))

/-- Batch element `b` of an operation. [DEDUCED, log 77] -/
def mxElement (s : State) (p : Nat) (h : Shape) (ws : List Word) (b : Nat) (wk : MxWork) :
    State × Except MxErr MxWork :=
  let w4 := wWord ws 4
  let ((ar, ac, af), (br, bc), (cr, cc)) := mxDims h w4
  let cA := wAddr ws 12 + b * (wWord ws 16).toNat
  match mxOperands s p h ws b with
  | (s, .error e) => (s, .error e)
  | (s, .ok (ab, bb, cb)) =>
    let (xs, bad) := mxCompute h w4 (wWord ws 7) (matOf af ar ac ab) (matOf h.fin br bc bb)
      (if mxAcc h ws then some (matOf h.fout cr cc cb) else none)
    let outs := xs.map (outBytes h.fout (bits w4 19 18) (bits w4 24 20))
    match memWrite s p cA (outs.flatMap (·.1)) with
    | (s, .ok) => (s, .ok ⟨wk.done + 1, wk.sat + (outs.map (·.2)).foldl (· + ·) 0, wk.notPd + if bad then 1 else 0⟩)
    | (s, .decode) => (s, .error ⟨3, 3, 0x03, some cA⟩)
    | (s, _) => (s, .error ⟨5, 3, 0x04, some cA⟩)

/-- The batch elements in order, until one fails. [DEDUCED, log 77] -/
def mxElements (p : Nat) (h : Shape) (ws : List Word) : List Nat → State → MxWork → State × MxWork × Option MxErr
  | [], s, wk => (s, wk, none)
  | b :: bs, s, wk =>
    match mxElement s p h ws b wk with
    | (s, .ok wk) => mxElements p h ws bs s wk
    | (s, .error e) => (s, wk, some e)

/-- The base addresses are multiples of their element sizes (R526). -/
def basesOk (h : Shape) (ws : List Word) : Bool :=
  let ((_, _, af), _, _) := mxDims h (wWord ws 4)
  decide (wAddr ws 8 % fmtSize af = 0) && (decide (h.kind = 2) || decide (wAddr ws 10 % fmtSize h.fin = 0)) &&
    decide (wAddr ws 12 % fmtSize h.fout = 0)

/-- A descriptor that R79, R525 and R526 allow. -/
def mxDescOk (ws : List Word) : Bool :=
  let w0 := wWord ws 0
  let h := shapeOf (wWord ws 5) (wWord ws 6)
  decide (bits w0 23 16 = 2) && decide (bits w0 15 4 = 0x012) && decide (bits w0 3 0 = h.kind) && shapeOk h &&
    ((ws.drop 21).all fun w => decide (w = 0)) && decide (bits (wWord ws 4) 19 18 ≠ 3) && basesOk h ws

/-! ### Completion (R532, R543) -/

/-- The end of an operation: RESULT, its cause with the error class, and what it has done. -/
structure MxEnd where
  result : Nat
  cause : Nat
  cls : Nat
  work : MxWork
  deriving DecidableEq, Repr

/-- The descriptor's words 19, 20 and 1, then OWN (R84, R532). -/
def mxWriteBack (s : State) (p d : Nat) (e : MxEnd) : State :=
  let s := memPut s p (d + 76)
    (leBytes 4 (e.work.notPd % 2 ^ 16 * 2 ^ 16 + min 0xFFFF e.work.sat) ++ leBytes 4 e.work.done)
  closeDesc s p d e.result e.cls e.cause

/-- The counters and events of an operation's end (R529, R530, R552). -/
def mxCount (s : State) (p : Nat) (e : MxEnd) : State :=
  let s := if e.work.sat = 0 then s else setEvt (addCnt s p 7 e.work.sat) p 2
  let s := if e.work.notPd = 0 then s else setEvt (addCnt s p 8 e.work.notPd) p 3
  if e.result = 1 then setEvt (incCnt s p 4) p 1 else s

/-- An operation ends (R532, R543). `ws` are the descriptor's words. -/
def mxFinish (m : Nat) (op : MxOp) (ws : List Word) (e : MxEnd) (s : State) : State :=
  let p := mxcPage m
  let s := mxCount (mxWriteBack s p op.desc e) p e
  let irq := bit (wWord ws 0) 30
  let s := modMxc s m fun x => { x with ops := dropFirst (fun o => decide (o = op)) x.ops }
  match op.ctx, op.fire with
  | some k, _ =>
    let s := modCtx s m k fun c => { c with
      busy := c.busy &&& ~~~bit16 op.sb
      err := if e.result = 0 then c.err else c.err ||| bit16 op.sb
      error := if e.result = 1 then e.cause else c.error }
    let w18 := wWord ws 18
    let s := if bit w18 31 then
        sendTok s p (bits w18 25 24) ⟨BitVec.ofNat 16 (bits (wWord ws 17) 31 16), BitVec.ofNat 16 (bits (wWord ws 17) 15 0),
          BitVec.ofNat 2 (bits w18 29 28), if e.result = 0 then 0 else 1, 0, 0, BitVec.ofNat 64 op.desc⟩
      else s
    if irq then setEvt s p 0 else s
  | none, some f =>
    let s := if irq then setEvt s p 0 else s
    let s := incCnt s p 2
    if e.result = 0 then complete s p f false (BitVec.ofNat 64 op.desc) else failFire s p f e.cause
  | none, none => s

/-- The words of an operation's descriptor, or the error of reading them. [DEDUCED, log 78] -/
def mxDesc (s : State) (p d : Nat) : State × Except MxErr (List Word) :=
  match mxRead s p d 128 with
  | (s, .ok bs) => (s, .ok ((List.range 32).map (wordAt bs)))
  | (s, .error e) => (s, .error e)

/-- An error's capture and its end. -/
def mxFail (m : Nat) (op : MxOp) (ws : List Word) (e : MxErr) (wk : MxWork) (s : State) : State :=
  mxFinish m op ws ⟨1, e.cause, e.cls, wk⟩ (ownErr s (mxcPage m) e.cls e.code e.addr)

/-- The batch elements that a cancelled operation has finished (R523): the spec does not say which was running. -/
def cancelCount (s : State) (count : Nat) : Nat × State :=
  let (v, s) := takeFree 10 s
  (v.toNat % count + 1, s)

/-- An operation runs to its end (R525–R532, R545, R546). One whose descriptor is not owned waits for the next MXOP or fire that
reaches the MXC (R82). [DEDUCED, log 78] -/
def mxRun (m : Nat) (op : MxOp) (parity : Bool) (s : State) : State :=
  let p := mxcPage m
  let none_ : MxWork := ⟨0, 0, 0⟩
  match mxDesc s p op.desc with
  | (s, .error e) => mxFail m op [] e none_ s
  | (s, .ok ws) =>
    let h := shapeOf (wWord ws 5) (wWord ws 6)
    if !bit (wWord ws 0) 31 then
      modMxc s m fun x => { x with ops := x.ops.map fun o => if o = op then { o with waiting := true, now := false } else o }
    else if op.fire.isNone ∧ (wWord ws 5 ≠ op.shape0 ∨ wWord ws 6 ≠ op.shape1) then
      mxFinish m op ws ⟨1, 7, 6, none_⟩ s
    else if !mxDescOk ws then mxFinish m op ws ⟨1, 1, 6, none_⟩ s
    else if parity then mxFail m op ws ⟨6, 5, 0x05, none⟩ none_ s
    else
      let (n, s) := if op.cancelled then cancelCount s h.count else (h.count, s)
      match mxElements p h ws (List.range n) s none_ with
      | (s, wk, some e) => mxFail m op ws e wk s
      | (s, wk, none) => mxFinish m op ws ⟨if op.cancelled then 2 else 0, 0, 0, wk⟩ s

/-- An operation that has not begun ends CANCELLED (R523, R547). [DESIGN CHOICE, log 81] -/
def mxCancelled (m : Nat) (op : MxOp) (s : State) : State :=
  match mxDesc s (mxcPage m) op.desc with
  | (s, .ok ws) => mxFinish m op ws ⟨2, 0, 0, ⟨0, 0, 0⟩⟩ s
  | (s, .error _) => mxFinish m op [] ⟨2, 0, 0, ⟨0, 0, 0⟩⟩ s

/-! ### Acceptance (R519, R533–R540) -/

/-- The cause of a refusal (R538), the first of the table that holds; 0 for none. [DEDUCED, log 78] -/
def mxRefusal (s : State) (m : Nat) (w0 w1 : Word) : Nat :=
  let p := mxcPage m
  if !pageOn s p then 1
  else if haActive s p then 2
  else if !shapeOk (shapeOf w0 w1) then 3
  else if !enabled s p then 4
  else 0

/-- An MXOP that is refused (R539). -/
def mxRefuse (s : State) (m k cause : Nat) : State :=
  incCnt (modCtx s m k fun c => { c with refusal := cause }) (mxcPage m) 1

/-- The operations of contexts that wait for an owned descriptor look at it again (R82). -/
def mxRetry (m : Nat) (s : State) : State :=
  modMxc s m fun x => { x with ops := x.ops.map fun o => if o.fire.isNone then { o with waiting := false } else o }

/-- An MXOP that is accepted (R533). -/
def mxAccept (s : State) (m k sb desc : Nat) (w0 w1 : Word) (fate : MxFate) : State :=
  let s := mxRetry m s
  let s := modCtx s m k fun c => { c with busy := c.busy ||| bit16 sb, err := c.err &&& ~~~bit16 sb }
  let s := modMxc s m fun x => { x with ops := x.ops ++ [⟨some k, sb, none, desc, w0, w1, fate, false, false, false, false⟩] }
  incCnt s (mxcPage m) 0

/-- R523: the named operations of a context are cancelled; one that has begun goes on to the end of its batch
element. -/
def mxCancel (m k mask : Nat) (s : State) : State :=
  let x := mxcOf s m
  let mine := x.ops.filter fun o => o.ctx = some k ∧ mask.testBit o.sb ∧ o.fate ≠ .squash
  mine.foldl (fun s o =>
    if o.begun then
      modMxc s m fun x => { x with ops := x.ops.map fun q => if q = o then { q with cancelled := true } else q }
    else mxCancelled m o s) s

/-- R537: the operations of a context's bundle are committed. -/
def bundleCommitSt (m k : Nat) (s : State) : State :=
  modMxc s m fun x => { x with
    ops := x.ops.map fun o => if o.ctx = some k ∧ o.fate = .commit then { o with fate := .committed } else o }

/-- R545: the first operation of its context has read its descriptor and its first batch element (R534), and what could not be
read is captured whether or not a squash discards it. [DEDUCED, log 64] -/
def mxPeek (m : Nat) (o : MxOp) (s : State) : State :=
  let p := mxcPage m
  let cap (e : MxErr) (s : State) : State := if e.cause = 2 then ownErr s p e.cls e.code e.addr else s
  match mxDesc s p o.desc with
  | (s, .error e) => cap e s
  | (s, .ok ws) =>
    let h := shapeOf (wWord ws 5) (wWord ws 6)
    if !bit (wWord ws 0) 31 ∨ !mxDescOk ws ∨ wWord ws 5 ≠ o.shape0 ∨ wWord ws 6 ≠ o.shape1 then s
    else match mxOperands s p h ws 0 with
    | (s, .error e) => cap e s
    | (s, .ok _) => s

/-- R537: the operations of a squashed bundle are abandoned. [DEDUCED, log 64] -/
def bundleSquashSt (m k : Nat) (s : State) : State :=
  let gone := (mxcOf s m).ops.filter fun o => o.ctx = some k ∧ o.fate = .squash
  gone.foldl (fun s o =>
    let s := if ((mxcOf s m).ops.find? fun q => q.ctx = o.ctx) = some o then mxPeek m o s else s
    let s := modMxc s m fun x => { x with ops := dropFirst (fun q => decide (q = o)) x.ops }
    let s := modCtx s m k fun c => { c with busy := c.busy &&& ~~~bit16 o.sb, err := c.err &&& ~~~bit16 o.sb }
    incCnt s (mxcPage m) 3) s

/-! ### Sources (R516, R517) -/

/-- The fires of an MXC in class order, oldest first within a class. -/
def mxFires (x : MxcSt) : List MxOp :=
  let fs := x.ops.filter fun o => o.fire.isSome && !o.waiting
  let cls (o : MxOp) : Nat := match o.fire with | some f => f.urg.toNat | none => 0
  (List.range 4).flatMap fun c => fs.filter fun o => cls o = c

/-- The next operation of a source. -/
def mxHead (x : MxcSt) (src : Nat) : Option MxOp :=
  if src = 8 then (mxFires x).head?
  else (x.ops.find? fun o => o.ctx = some src ∧ o.fate ≠ .squash).filter fun o => !o.waiting

/-- A source runs its next operation: 15 for none (R517, R552). -/
def mxPick (x : MxcSt) (src : Nat) : MxcSt :=
  { x with running := src, ops := x.ops.map fun o =>
      { o with begun := o.begun || decide (mxHead x src = some o), now := decide (mxHead x src = some o) } }

/-- SUBTILE_BOUNDARY (R517): a class-0 fire first, else the nine sources in rotation. -/
def subtileSt (m : Nat) (s : State) : State :=
  let x := mxcOf s m
  let first := match (mxFires x).head? with
    | some o => (match o.fire with | some f => decide (f.urg = 0) | none => false)
    | none => false
  if first then setMxc s m (mxPick x 8)
  else
    match ((List.range 9).map fun i => (x.rot + 1 + i) % 9).find? fun c => (mxHead x c).isSome with
    | some c => setMxc s m (mxPick { x with rot := c } c)
    | none => setMxc s m (mxPick x 15)

/-- MXC_OP_DONE (R532): the operation that runs ends; one whose bundle is not committed stalls (R536). -/
def mxcDoneSt (m : Nat) (parity : Bool) (s : State) : State :=
  let x := mxcOf s m
  match x.ops.find? (·.now) with
  | none => s
  | some o =>
    if o.fire.isNone ∧ o.fate ≠ .committed then s
    else mxRun m o parity (setMxc s m { x with running := 15 })

/-! ### Fires (R541–R543, R549–R551) -/

/-- The export ring (R552). -/
def mxRing (m : Nat) : Ring := ⟨mxcPage m, 0x120, 0x128, 0x12C, 0x130, 64, 6, 4, 12⟩

/-- An export entry (R549): descriptor address, TAG, shape pair. [DESIGN CHOICE, log 26] -/
def mxEntry (d : Nat) (ws : List Word) : List Byte :=
  leBytes 8 d ++ (([2, 3, 5, 6].map fun i => leBytes 4 (wWord ws i).toNat).flatten) ++ List.replicate 40 0

/-- R549, R551: a fire is exported and complete, or waits for room in the ring. -/
def mxExport (m : Nat) (op : MxOp) (s : State) : State :=
  let p := mxcPage m
  match mxDesc s p op.desc with
  | (s, .error e) => mxFail m op [] e ⟨0, 0, 0⟩ s
  | (s, .ok ws) =>
    let sz := bits (getReg s p 0x128) 4 0
    let s := if sz < 4 ∨ 12 < sz then ownErr s p 6 0x06 none else s
    if (mxRing m).full s then
      let s := modMxc s m fun x => { x with ops := x.ops.map fun o => if o = op then { o with waiting := true } else o }
      setEvt s p 4
    else
      mxFinish m op ws ⟨0, 0, 0, ⟨0, 0, 0⟩⟩ (incCnt ((mxRing m).push s (mxEntry op.desc ws)) p 9)

/-- HA_RING_TAIL is written: fires that wait are exported in order (R551). -/
def mxDrain (m : Nat) (s : State) : State :=
  ((mxcOf s m).ops.filter (·.waiting)).foldl (fun s o =>
    if (mxRing m).full s then s
    else
      let o' := { o with waiting := false }
      let s := modMxc s m fun x => { x with ops := x.ops.map fun q => if q = o then o' else q }
      mxExport m o' s) s

/-- A fire at an MXC that is enabled (R541–R543). -/
def mxFireStart (m : Nat) (f : FireRec) (s : State) : State :=
  let p := mxcPage m
  let d := f.p0.toNat % 2 ^ 48
  let op : MxOp := ⟨none, 0, some f, d, 0, 0, .committed, false, false, false, false⟩
  match mxDesc s p d with
  | (s, .error e) => mxFail m op [] e ⟨0, 0, 0⟩ s
  | (s, .ok ws) =>
    if !bit (wWord ws 0) 31 then holdUnowned s p f
    else if !mxDescOk ws ∨ f.opcode.toNat ≠ bits (wWord ws 0) 3 0 then
      mxFinish m op ws ⟨1, 1, 6, ⟨0, 0, 0⟩⟩ (ownErr s p 6 0x01 (some d))
    else
      let s := modMxc (mxRetry m s) m fun x => { x with ops := x.ops ++ [op] }
      if haActive s p then mxExport m op s else s

/-- CTX_CANCEL (R548). -/
def ctxCancelSt (m : Nat) (v : Word) (s : State) : State :=
  mxCancel m (bits (getReg s (mxcPage m) 0x100) 2 0) (bits v 15 0) s

/-- R547: a soft reset ends context operations CANCELLED and fires with SOFT_RESET. -/
def mxDrop (m : Nat) (s : State) : State :=
  let x := mxcOf s m
  let s := x.ops.foldl (fun s o =>
    match o.fire with
    | some _ => match mxDesc s (mxcPage m) o.desc with
      | (s, .ok ws) => mxFinish m o ws ⟨1, 0x11, 0, ⟨0, 0, 0⟩⟩ s
      | (s, .error _) => mxFinish m o [] ⟨1, 0x11, 0, ⟨0, 0, 0⟩⟩ s
    | none => mxCancelled m o s) s
  let held := s.unowned.filter fun u => u.1 = mxcPage m
  let s := { s with unowned := s.unowned.filter fun u => !decide (u.1 = mxcPage m) }
  let s := held.foldl (fun s u => failFire s (mxcPage m) u.2 0x11) s
  setMxc s m MxcSt.init

/-- The domain is OFF: the contexts are lost too (R768). -/
def mxOff (m : Nat) (s : State) : State :=
  let s := (mxcOf s m).ops.foldl (fun s o => match o.fire with
    | some f => failFire s (mxcPage m) f 0x11
    | none => s) s
  (List.range 8).foldl (fun s k => modCtx s m k fun _ => MxCtx.init) (setMxc s m MxcSt.init)

/-- The MXC has accepted an operation that has not ended. -/
def mxBusy (s : State) (m : Nat) : Bool := !(mxcOf s m).ops.isEmpty || s.unowned.any fun u => decide (u.1 = mxcPage m)

/-- CTX_STS, CTX_INFO and RUN_STS (R552). -/
def ctxSts (s : State) (m : Nat) : Word :=
  let c := mxCtxOf s m (bits (getReg s (mxcPage m) 0x100) 2 0)
  w32 (c.err.toNat * 2 ^ 16 + c.busy.toNat)

/-- CTX_INFO. -/
def ctxInfo (c : MxCtx) : Word := w32 (c.refusal * 2 ^ 28 + c.error * 2 ^ 16)

/-- RUN_STS. -/
def runSts (s : State) (m : Nat) : Word :=
  w32 ((mxcOf s m).running * 2 ^ 12 + min 7 ((mxcOf s m).ops.filter (·.fire.isSome)).length)

/-! ### The commands -/

/-- BUNDLE_COMMIT. -/
def execBundleCommit (m : Fin 16) (k : Fin 8) (s : State) : Host.Outcome State Fault Refusal :=
  .next (whileRuns (mxcPage m) (bundleCommitSt m k) s)

/-- BUNDLE_SQUASH. -/
def execBundleSquash (m : Fin 16) (k : Fin 8) (s : State) : Host.Outcome State Fault Refusal :=
  .next (whileRuns (mxcPage m) (bundleSquashSt m k) s)

/-- SUBTILE_BOUNDARY. -/
def execSubtileBoundary (m : Fin 16) (s : State) : Host.Outcome State Fault Refusal :=
  .next (whileRuns (mxcPage m) (subtileSt m) s)

/-- MXC_OP_DONE. -/
def execMxcOpDone (m : Fin 16) (parity : Bool) (s : State) : Host.Outcome State Fault Refusal :=
  .next (whileRuns (mxcPage m) (fun s => dramHold s (mxcDoneSt m parity s)) s)

/-- MXC_FIRE. -/
def execMxcFire (f : FireRec) (s : State) : Host.Outcome State Fault Refusal :=
  .next (fireRow (mxcPage (f.member.toNat % 16)) 4 f (mxFireStart (f.member.toNat % 16)) s)

/-- CTX_CANCEL. -/
def execCtxCancel (a : Acc) (m : Fin 16) (v : Word) (s : State) : Host.Outcome State Fault Refusal :=
  .next (onPage a (mxcPage m) 0x10C (ctxCancelSt m v) s)

end Sys2Proof.Machine
end

