-- ==== Sys2Proof/Machine/Net.lean ====
section
/-! DEFINITION. The packet engine: ports, flow contexts, receive, fronthaul, jobs (R703–R723, R735). -/

namespace Sys2Proof.Machine

/-- The packet engine with `f` applied. -/
def modPkt (s : State) (f : PktSt → PktSt) : State := { s with pkt := f s.pkt }

/-! ### Frames -/

/-- The number that bytes spell, most significant first. -/
def ofBe (bs : List Byte) : Nat := bs.foldl (fun n b => n * 256 + b.toNat) 0

/-- `n` bytes from place `i`, as a number, most significant first. -/
def beAt (bs : List Byte) (i n : Nat) : Nat := ofBe ((bs.drop i).take n)

/-- What matching sees of a frame (R705, R707): destination, VLAN identifier of the outer tag, EtherType, payload. -/
structure EthView where
  dst : Nat
  vlan : Option Nat
  etype : Nat
  pay : List Byte
  deriving DecidableEq, Repr

/-- The outer tag is examined; a second one is an EtherType of 0x8100 (R705). [PRESUMED, log 100] -/
def ethView (b : List Byte) : EthView :=
  if beAt b 12 2 = 0x8100 then ⟨beAt b 0 6, some (beAt b 14 2 % 4096), beAt b 16 2, b.drop 18⟩
  else ⟨beAt b 0 6, none, beAt b 12 2, b.drop 14⟩

/-- What follows the UDP header of an unfragmented IPv4 or IPv6 packet, with its destination address and port.
[PRESUMED, log 100] -/
def udpView (v6 : Bool) (e : EthView) : Option (Nat × Nat × List Byte) :=
  let p := e.pay
  if v6 then
    if e.etype = 0x86DD ∧ beAt p 0 1 / 16 = 6 ∧ beAt p 6 1 = 17 then some (beAt p 24 16, beAt p 42 2, p.drop 48) else none
  else
    let h := beAt p 0 1 % 16 * 4
    if e.etype = 0x0800 ∧ beAt p 0 1 / 16 = 4 ∧ beAt p 9 1 = 17 ∧ beAt p 6 2 % 16384 = 0 then
      some (beAt p 16 4, beAt p (h + 2) 2, p.drop (h + 8))
    else none

/-- IP_DST of a flow context (R706). -/
def flowIp (c : List Word) : Nat :=
  if bit (wWord c 0) 6 then
    (2 ^ 96 * (wWord c 5).toNat + 2 ^ 64 * (wWord c 6).toNat + 2 ^ 32 * (wWord c 7).toNat + (wWord c 8).toNat)
  else (wWord c 5).toNat

/-- CLASS of a flow context. -/
def flowClass (c : List Word) : Nat := bits (wWord c 0) 27 24

/-- What follows the headers that a context names, where the frame has them and they match (R707). -/
def flowPay (c : List Word) (e : EthView) : Option (List Byte) :=
  if bit (wWord c 0) 7 then
    match udpView (bit (wWord c 0) 6) e with
    | some (dst, port, p) => if dst = flowIp c ∧ port = bits (wWord c 4) 15 0 then some p else none
    | none => none
  else if e.etype = bits (wWord c 2) 31 16 then some e.pay else none

/-- R707: whether a receive context matches what `e` shows on port `p`, apart from the PC_ID. [PRESUMED, log 100] -/
def flowMatches (c : List Word) (p : Nat) (e : EthView) : Bool :=
  let w0 := wWord c 0
  let mac := (wWord c 13).toNat + 2 ^ 32 * bits (wWord c 14) 15 0
  bit w0 31 && !bit w0 30 && bit (wWord c 1) p && (flowPay c e).isSome &&
    (!bit w0 8 || decide (e.vlan = some (bits (wWord c 2) 11 0))) && (decide (mac = 0) || decide (mac = e.dst))

/-- The PC_ID comparison that classes 1–3 add (R707). [DEDUCED, log 102] -/
def pcMatches (c : List Word) (id : BitVec 16) : Bool :=
  let m := bits (wWord c 3) 15 0
  decide (id.toNat &&& m = bits (wWord c 3) 31 16 &&& m)

/-- The lowest-numbered context that matches, for a message with PC_ID `id` or a frame without one. -/
def flowFind (s : State) (p : Nat) (e : EthView) (id : Option (BitVec 16)) : Option (Nat × List Word) :=
  s.pkt.flows.find? fun (_, c) => flowMatches c p e &&
    (if 1 ≤ flowClass c ∧ flowClass c ≤ 3 then (match id with | some i => pcMatches c i | none => false) else true)

/-! ### Receive rings -/

/-- A register of firmware receive ring `r` (R735). -/
def rxr (s : State) (r off : Nat) : Word := getReg s 0x008 (0x200 + 0x20 * r + off)

/-- The slot header (R708, R756): words 0–3 and twelve of zero; word 0 without PHASE. -/
def slotHeader (len flow port : Nat) (stamp : Word × Word) : List Word :=
  [w32 (len % 16384), w32 (flow * 2 ^ 16 + port), stamp.1, stamp.2] ++ List.replicate 12 0

/-- Whether firmware ring `r` has a slot for a frame of `n` bytes (R708). -/
def rxRoom (s : State) (r n : Nat) : Bool :=
  let slot := 2 ^ max 11 (min 14 (bits (rxr s r 8) 20 16))
  let c := 2 ^ max 4 (min 12 (bits (rxr s r 8) 3 0))
  !decide (slot < 64 + n ∨ (bits (rxr s r 0x0C) 11 0 % c + 1) % c = bits (rxr s r 0x10) 11 0 % c)

/-- A frame goes to ring `r`: a firmware ring, or from 8 on a host work ring (R706, R708). -/
def rxDeliver (r port flow : Nat) (ptp : Bool) (b : List Byte) (s : State) : State :=
  let (stamp, s) := ptpStamp port false s
  let told (s : State) : State := if ptp && haActive s 0x003 then setEvt s 0x003 8 else s
  if 8 ≤ r then
    told <| d2hSend ⟨r - 8, 3, (slotHeader b.length flow port stamp).drop 1 ++
      ((List.range ((b.length + 3) / 4)).map fun i => wordAt b i)⟩ s
  else
    let slot := 2 ^ max 11 (min 14 (bits (rxr s r 8) 20 16))
    let n := 2 ^ max 4 (min 12 (bits (rxr s r 8) 3 0))
    let h := bits (rxr s r 0x0C) 11 0 % n
    if !rxRoom s r b.length then setEvt (incCnt s 0x008 11) 0x008 4
    else
      let odd := kget false s.pkt.rxOdd r
      let a := getPair s 0x008 (0x200 + 0x20 * r) 6 % 2 ^ 48 + h * slot
      let ws := slotHeader b.length flow port stamp
      let s := memPut s 0x008 (a + 4) (wordsBytes (ws.drop 1) ++ b)
      let s := memPut s 0x008 a (leBytes 4 ((wWord ws 0).toNat + if odd then 0 else 2 ^ 31))
      let s := setReg s 0x008 (0x20C + 0x20 * r) (w32 ((h + 1) % n))
      told (if h + 1 = n then modPkt s fun p => { p with rxOdd := kset false p.rxOdd r (!odd) } else s)

/-! ### Fronthaul -/

/-- The words of fronthaul context `f`; none where its read is uncorrectable or it is not in use. [DEDUCED, log 102] -/
def fhCtx (f : Nat) (s : State) : State × Option (List Word) :=
  let a := getPair s 0x008 0x124 16 % 2 ^ 48 + f * 128
  match memRead s 0x008 a 128 with
  | (s, .ok, d) =>
    let ws := (List.range 16).map (wordAt d)
    (s, if bit (wWord ws 0) 31 then some ws else none)
  | (s, .poison, _) => (captureErr s 0x008 ⟨2, 0x02, 0, ownerPage s a, some a⟩, none)
  | (s, _, _) => (s, none)

/-- The start of symbol `m` of a subframe in ns, by the symbol lengths of numerology `mu` with normal prefix. -/
def symOffset (mu m : Nat) : Nat :=
  let extra := (if 1 ≤ m then 1 else 0) + (if 7 * 2 ^ mu + 1 ≤ m then 1 else 0)
  (m * 2192 + extra * 16 * 2 ^ mu) * 15625 / (480 * 2 ^ mu)

/-- The symbols of one subframe. -/
def symsPerSub (mu : Nat) : Nat := 14 * 2 ^ mu

/-- R713: the air start of symbol `n`, counted from the epoch, in ns of device time. -/
def airStart (ws : List Word) (n : Nat) : Int :=
  let mu := bits (wWord ws 1) 18 16
  (n / symsPerSub mu * 1000000 + symOffset mu (n % symsPerSub mu) : Nat) + signed 32 (wWord ws 6).toNat

/-- R713: the symbol, counted from the epoch, that a message's timing fields name, in the frame cycle nearest to now. -/
def absSymbol (s : State) (ws : List Word) (m : OranMsg) : Nat :=
  let mu := bits (wWord ws 1) 18 16
  let now := (devNs s / 10000000).toNat
  let cyc := (now + 128 - m.frame % 256) / 256
  ((cyc * 256 + m.frame % 256) * 10 + m.subframe) * symsPerSub mu + m.slot * 14 + m.sym

/-- R714: where a section stands to its window: before it, within it, after it. `adv` is C_ADV for a C-plane section. -/
def inWindow (s : State) (ws : List Word) (n : Nat) (adv : Nat) : Ordering :=
  let a := airStart ws n - adv
  let t := devNs s
  if t < a + signed 32 (wWord ws 4).toNat then .lt
  else if a + signed 32 (wWord ws 5).toNat < t then .gt
  else .eq

/-- The address of a PRB's first element in the grid of a context. -/
def fhPrb (ws : List Word) (sym i prb : Nat) : Nat :=
  let ins := bits (wWord ws 1) 15 9
  let kk := 12 * bits (wWord ws 1) 8 0
  wAddr ws 2 + ((sym * ins + i) * kk + 12 * prb) * 4

/-- R712: a PRB's mantissas times 2^exponent, in Q1.15 and saturated, as twelve elements. -/
def decompress (e : Nat) (ms : List Int) : List Word :=
  (List.range 12).map fun j =>
    let v (i : Nat) : Int := clampI (-32768) 32767 (((ms[i]?).getD 0) * 2 ^ e)
    wordOfIQ (v (2 * j)) (v (2 * j + 1))

/-- R714: a U-plane section is written into the grid for input `i`. -/
def uSection (f : Nat) (ws : List Word) (n i : Nat) (x : OranSection) (s : State) : State :=
  let nprb := bits (wWord ws 1) 8 0
  let old := kget [] s.pkt.written f
  let ps := (List.range x.count).filter fun j => decide (x.first + j < nprb)
  if bits (wWord ws 1) 15 9 ≤ i then s
  else
    let s := ps.foldl (fun s j =>
      let (e, ms) := (x.prbs[j]?).getD (0, [])
      memPut s 0x008 (fhPrb ws (n % 14) i (x.first + j)) (wordsBytes (decompress e ms))) s
    let new := ps.map fun j => (n, i, x.first + j)
    let s := if new.any fun y => old.contains y then incCnt s 0x008 10 else s
    modPkt s fun p => { p with written := kset [] p.written f (old ++ new.filter fun y => !old.contains y) }

/-- A count of unsupported content (R709, R710). -/
def unsupported (s : State) : State := setEvt (incCnt s 0x008 6) 0x008 5

/-- A section outside its window is discarded and counted (R714). -/
def fhMissed (o : Ordering) (s : State) : State :=
  match o with
  | .lt => setEvt (incCnt s 0x008 7) 0x008 0
  | _ => setEvt (incCnt s 0x008 8) 0x008 1

/-- Whether the hardware decompresses a section (R710). -/
def compOk (x : OranSection) : Bool :=
  (x.meth = 0 && (x.width = 0 || x.width = 16)) ||
    (x.meth = 1 && (x.width = 8 || x.width = 9 || x.width = 12 || x.width = 14))

/-- The input of a flow context for a PC_ID (R706). -/
def flowInput (c : List Word) (id : Nat) : Nat := bits (wWord c 17) 13 8 + (id % 64 &&& bits (wWord c 17) 21 16)

/-- A U-plane message (R710, R714). -/
def uPlane (c : List Word) (id : BitVec 16) (m : OranMsg) (s : State) : State :=
  if m.sections.any fun x => !compOk x then unsupported s
  else
    let f := 2 * bits (wWord c 17) 7 0 + m.dir % 2
    match fhCtx f s with
    | (s, none) => s
    | (s, some ws) =>
      let n := absSymbol s ws m
      m.sections.foldl (fun s x =>
        match inWindow s ws n 0 with
        | .eq => uSection f ws n (flowInput c id.toNat) x s
        | o => fhMissed o s) s

/-- The weights of a C-plane section (R716), one list for each PRB group: those of its extension, or of the beam table. -/
def sectionWeights (ws : List Word) (x : OranSection) (s : State) : State × List (List Word) :=
  if x.weights.length ≠ 0 then (s, x.weights)
  else
    let (s, h) := memGet s 0x008 (wAddr ws 9) 4
    let ins := max 1 (bits (wordAt h 0) 6 0)
    let beams := if x.beams.isEmpty then [x.beam] else x.beams
    beams.foldl (fun acc b =>
      let (s, d) := memGet acc.1 0x008 (wAddr ws 11 + b * ins * 4) (4 * ins)
      (s, acc.2 ++ [(List.range ins).map (wordAt d)])) (s, [])

/-- R716: a section's weights and the header go into the weight set. On receive its groups' weights are those of output
`i`, on transmit those of input `i`. -/
def cSection (ws : List Word) (dir i : Nat) (x : OranSection) (s : State) : State :=
  let beams := if x.beams.isEmpty then [x.beam] else x.beams
  if x.weights.length = 0 ∧ beams.any fun b => decide (bits (wWord ws 13) 9 0 ≤ b) then unsupported s
  else
    let (s, gs) := sectionWeights ws x s
    let nIn := bits (wWord ws 1) 15 9
    let wide := max 1 ((gs.head?.getD []).length)
    let (nout, ins) := if dir = 0 then (nIn, wide) else (wide, nIn)
    let a := wAddr ws 9
    let hdr : List Word := [w32 (nout * 2 ^ 16 + ins), w32 (gs.length * 2 ^ 16 + x.gsize), w32 x.first] ++ List.replicate 13 0
    let s := memPut s 0x008 a (wordsBytes hdr)
    (List.range gs.length).foldl (fun s g =>
      let row := (gs[g]?).getD []
      (List.range row.length).foldl (fun s j =>
        let (o, k) := if dir = 0 then (i, j) else (j, i)
        memPut s 0x008 (a + 64 + ((g * nout + o) * ins + k) * 4) (leBytes 4 ((row[j]?).getD 0).toNat)) s) s

/-- Whether R710 gives a section to firmware. -/
def fwSection (x : OranSection) : Bool :=
  (x.typ = 0 || x.typ = 5 || x.typ = 6) || x.exts.any fun e => e = 2 || e = 3 || e = 12 || e = 13

/-- Whether R710 has the hardware act on a section. -/
def hwSection (x : OranSection) : Bool :=
  (x.typ = 1 || x.typ = 3) && x.exts.all fun e => e = 1 || e = 6 || e = 10 || e = 11

/-- A C-plane message (R710, R711, R714, R716); the hardware of a DU-end does not parse it (R710). [DESIGN CHOICE, log 102] -/
def cPlane (c : List Word) (flow port : Nat) (id : BitVec 16) (frame : List Byte) (m : OranMsg) (s : State) : State :=
  if duEnd s then unsupported s
  else if m.sections.any fwSection then rxDeliver (bits (wWord c 19) 3 0) port flow false frame s
  else
    match fhCtx (2 * bits (wWord c 17) 7 0 + m.dir % 2) s with
    | (s, none) => s
    | (s, some ws) =>
      let n := absSymbol s ws m
      m.sections.foldl (fun s x =>
        if !hwSection x then unsupported s
        else match inWindow s ws n (wWord ws 14).toNat with
          | .eq => cSection ws (m.dir % 2) (flowInput c id.toNat) x s
          | o => fhMissed o s) s

/-! ### The PHY-API transport (R723) -/

/-- The firmware takes a datagram of carrier `phy`: one of another VERSION is discarded, and a gap in SEQ is reported. Its FAPI
messages are the PHY-API commands that follow. [DESIGN CHOICE, log 106] -/
def phyDatagram (phy : Nat) (b : List Byte) (s : State) : State :=
  let w := wordAt b 0
  let q := bits w 15 0
  let x := kget PhySt.init s.phys phy
  if b.length < 8 ∨ bits w 31 24 ≠ 1 then s
  else
    let missed := match x.rxSeq with
      | some l => (q + 65536 - (l + 1) % 65536) % 65536
      | none => 0
    let s := { s with phys := kset PhySt.init s.phys phy { x with rxSeq := some q } }
    if missed = 0 then s else fapiSend (.lnxEvent phy missed) s

/-! ### Receive (R704–R711) -/

/-- The fronthaul hardware is off at an integrated site (R30). -/
def fronthaulOff (s : State) : Bool := decide (getReg s 0x000 0x108 = 1)

/-- What is done with a frame, or with one message of it, that context `c` numbered `flow` has taken; at an integrated site the
classes of fronthaul act as DROP. [DESIGN CHOICE, log 148] -/
def flowAct (flow port : Nat) (c : List Word) (frame : List Byte) (m : Option EcpriMsg) (s : State) : State :=
  let ring := bits (wWord c 19) 3 0
  if fronthaulOff s ∧ (flowClass c = 1 ∨ flowClass c = 2) then incCnt s 0x008 4
  else match flowClass c, m with
  | 0, _ => incCnt s 0x008 4
  | 1, some x =>
    if x.typ = 0 then uPlane c x.pcId (Config.oran 0 (wWord c 0) x.body) s else unsupported s
  | 2, some x =>
    if x.typ = 2 then cPlane c flow port x.pcId frame (Config.oran 2 (wWord c 0) x.body) s else unsupported s
  | 3, some _ => rxDeliver ring port flow false frame s
  | 5, _ =>
    let t := rxDeliver ring port flow false frame s
    match flowPay c (ethView frame) with
    | some b => if ring < 8 ∧ rxRoom s ring frame.length then phyDatagram (bits (wWord c 17) 7 0) b t else t
    | none => t
  | k, _ => rxDeliver ring port flow (k == 4) frame s

/-- A frame, or one message of it, is matched, metered and acted on (R707, R708). [DEDUCED, log 102] -/
def flowStep (port : Nat) (frame : List Byte) (e : EthView) (m : Option EcpriMsg) (s : State) : State :=
  match flowFind s port e (m.map (·.pcId)) with
  | none => rxDeliver (bits (getReg s 0x008 0x12C) 3 0) port 0 false frame (incCnt s 0x008 4)
  | some (n, c) =>
    if bit (wWord c 18) 12 then
      let (col, s) := meterColour (bits (wWord c 18) 11 0) (frame.length + 4) s
      if col = 2 then incCnt s 0x008 5 else flowAct n port c frame m s
    else flowAct n port c frame m s

/-- The eCPRI payload of a frame: over Ethernet, or over UDP by a context that matches the rest of it (R709). -/
def ecpriPay (s : State) (p : Nat) (e : EthView) : Option (List Byte) :=
  if e.etype = 0xAEFE then some e.pay
  else
    match s.pkt.flows.find? fun (_, c) => flowMatches c p e && bit (wWord c 0) 7 && decide (1 ≤ flowClass c ∧ flowClass c ≤ 3) with
    | some (_, c) => flowPay c e
    | none => none

/-- R704, R707, R709: a frame is received. -/
def frameReceiveSt (p : Nat) (b : List Byte) (fcsOk : Bool) (s : State) : State :=
  if !pageOn s 0x008 ∨ !enabled s 0x008 ∨ !bit (getReg s 0x008 0x104) p ∨ (8 ≤ p ∧ !bit (getReg s 0x008 0x100) 0) then s
  else if !fcsOk ∨ b.length + 4 < 64 ∨ 9600 < b.length + 4 then incCnt s 0x008 2
  else
    let e := ethView b
    if e.etype = 0x8808 ∧ (beAt e.pay 0 2 = 1 ∨ beAt e.pay 0 2 = 0x0101) then incCnt s 0x008 3
    else
      let s := incCnt s 0x008 0
      match ecpriPay s p e with
      | none => flowStep p b e none s
      | some pay =>
        let ms := Config.ecpri pay
        if ms.isEmpty then flowStep p b e none s
        else ms.foldl (fun s m => if 8 ≤ m.typ then unsupported s else flowStep p b e (some m) s) s

/-- R706: FLOW_CMD with LOAD. -/
def flowLoadSt (v : Word) (s : State) : State :=
  if !bit v 31 then s
  else
    let n := bits v 11 0
    let a := getPair s 0x008 0x114 19 % 2 ^ 48 + n * 128
    let refuse (s : State) : State := setReg s 0x008 0x120 (w32 (2 ^ 30 + n))
    match memRead s 0x008 a 128 with
    | (s, .ok, d) =>
      let ws := (List.range 32).map (wordAt d)
      if 7 ≤ flowClass ws then refuse (ownErr s 0x008 6 0x03 (some a))
      else modPkt (setReg s 0x008 0x120 (w32 n)) fun p => { p with flows := kset [] p.flows n ws }
    | (s, .poison, _) => refuse (captureErr s 0x008 ⟨2, 0x02, 0, ownerPage s a, some a⟩)
    | (s, _, _) => refuse (ownErr s 0x008 6 0x03 (some a))

/-- R715: the window of symbol `n` of context `f` closes. -/
def winCloseSt (f n : Nat) (s : State) : State :=
  if !enabled s 0x008 ∨ fronthaulOff s then s
  else match fhCtx f s with
  | (s, none) => s
  | (s, some ws) =>
    let w0 := wWord ws 0
    let sym := n % 14
    let a := airStart ws n
    if !bit w0 sym ∨ devNs s < a + signed 32 (wWord ws 5).toNat ∨ n < kget 0 s.pkt.closed f then s
    else
      let last := kget 0 s.pkt.closed f
      let from_ := if last = 0 then n - sym else last
      let seen := kget [] s.pkt.written f
      let ins := bits (wWord ws 1) 15 9
      let nprb := bits (wWord ws 1) 8 0
      let miss := (List.range (n + 1 - from_)).flatMap fun y => (List.range ins).flatMap fun i =>
        ((List.range nprb).filter fun k => !seen.contains (from_ + y, i, k)).map fun k => (from_ + y, i, k)
      let s := miss.foldl (fun s (y, i, k) => memPut s 0x008 (fhPrb ws (y % 14) i k) (List.replicate 48 0)) s
      let s := addCnt s 0x008 9 miss.length
      let s := if miss.isEmpty then s else setEvt s 0x008 2
      let s := modPkt s fun p => { p with closed := kset 0 p.closed f (n + 1),
                                          written := kset [] p.written f (seen.filter fun x => n < x.1) }
      let w8 := wWord ws 8
      let inst := bits (wWord ws 7) 15 0 + n / 14 % 2 ^ bits w8 2 0
      sendTok s 0x008 (bits w8 25 24)
        ⟨BitVec.ofNat 16 (bits (wWord ws 7) 31 16), BitVec.ofNat 16 inst, BitVec.ofNat 2 (bits w8 29 28), 0, 0, 0,
         BitVec.ofNat 64 (2 ^ 32 * wrapN 32 a + miss.length)⟩

/-! ### Jobs (R717–R720) -/

/-- A register of job ring `j` (R735). -/
def jobReg (s : State) (j off : Nat) : Word := getReg s 0x008 (0x300 + 0x20 * j + off)

/-- The entries of a job ring. -/
def jobCount (s : State) (j : Nat) : Nat := 2 ^ max 4 (min 12 (bits (jobReg s j 8) 3 0))

/-- Whether a job ring's head stands where its posted descriptors end, those that CHAIN let in counted. -/
def jobEnd (s : State) (j : Nat) : Bool :=
  let n := jobCount s j
  decide (bits (jobReg s j 0x0C) 11 0 % n = (bits (jobReg s j 0x10) 11 0 + kget 0 s.pkt.jobAhead j) % n)

/-- A job ring's head moves past a descriptor; with CHAIN the next follows without a doorbell (R79). [DEDUCED, log 149] -/
def jobAdvance (s : State) (j : Nat) (chain : Bool) : State :=
  let ahead := kget 0 s.pkt.jobAhead j + if jobEnd s j then 1 else 0
  let s := modPkt s fun p => { p with jobAhead := kset 0 p.jobAhead j ahead, jobChain := kset false p.jobChain j chain }
  setReg s 0x008 (0x30C + 0x20 * j) (w32 ((bits (jobReg s j 0x0C) 11 0 % jobCount s j + 1) % jobCount s j))

/-- The job with `f` applied. -/
def modJob (s : State) (id : Nat) (f : PktJob → PktJob) : State :=
  modPkt s fun p => { p with jobs := p.jobs.map fun j => if j.id = id then f j else j }

/-- A job ends with an error: nothing further is built (R719). -/
def jobFail (s : State) (id cause : Nat) : State := modJob s id fun j => { j with cause := some cause, built := true }

/-- The transmit context that a job names, where it is in use. -/
def jobFlow (s : State) (ws : List Word) : Option (List Word) :=
  let c := kget [] s.pkt.flows (bits (wWord ws 4) 11 0)
  if bit (wWord c 0) 31 && bit (wWord c 0) 30 then some c else none

/-- Whether a job's fields lie in their ranges (R717); the fronthaul kinds do not run at an integrated site (R30).
[DESIGN CHOICE, log 148] -/
def jobArgs (s : State) (ws : List Word) : Bool :=
  let w4 := wWord ws 4
  let nin := bits (wWord ws 5) 14 8
  match bits (wWord ws 0) 3 0 with
  | 1 => !fronthaulOff s && decide (bits w4 19 16 ≤ bits w4 23 20 ∧ bits w4 23 20 ≤ 13 ∧ 1 ≤ nin ∧ nin ≤ 64)
  | 2 => !fronthaulOff s
  | _ => true

/-- A refused or malformed job (R735). -/
def jobBad (s : State) (id : Nat) (a : Nat) : State := jobFail (ownErr s 0x008 6 0x01 (some a)) id 0x01

/-- An uncorrectable read of a job. -/
def jobUe (s : State) (id a : Nat) : State :=
  jobFail (captureErr s 0x008 ⟨2, 0x02, 0, ownerPage s a, some a⟩) id 0x02

/-- The engine fetches the next descriptor of ring `j`, where it holds a job of `kind`; a descriptor that the engine
does not support is refused (R83, R717), and a job that is late ends (R719). -/
def jobFetch (j kind : Nat) (s : State) : State :=
  let n := jobCount s j
  let h := bits (jobReg s j 0x0C) 11 0 % n
  if kget false s.pkt.jobWait j ∨ (jobEnd s j ∧ !kget false s.pkt.jobChain j) then s
  else
    let a := getPair s 0x008 (0x300 + 0x20 * j) 6 % 2 ^ 48 + 64 * h
    match memRead s 0x008 a 64 with
    | (s, .ok, d) =>
      let ws := (List.range 16).map (wordAt d)
      let w0 := wWord ws 0
      let k := bits w0 3 0
      if !bit w0 31 then modPkt s fun p => { p with jobWait := kset false p.jobWait j true }
      else if bits w0 15 4 ≠ 0x009 ∨ bits w0 23 16 ≠ 1 ∨ k = 0 ∨ 3 < k then
        jobAdvance (ownErr (refuseDesc s 0x008 a) 0x008 6 0x01 (some a)) j (bit w0 29)
      else if k ≠ kind then s
      else
        let id := s.pkt.nextJob
        let s := modPkt (jobAdvance s j (bit w0 29)) fun p =>
          { p with nextJob := id + 1, jobs := p.jobs ++ [⟨id, j, a, ws, bits (wWord ws 4) 19 16, 0, 0, none, false, none⟩] }
        if (jobFlow s ws).isNone ∨ !jobArgs s ws then jobBad s id a
        else
          let launch := wWord ws 6
          if launch ≠ 0 ∧ (bits (getReg s 0x008 0x130) 15 0 : Int) < sinceTarget s launch then
            jobFail (setEvt (incCnt s 0x008 12) 0x008 3) id 0x06
          else s
    | (s, .poison, _) =>
      jobAdvance (closeDesc (captureErr s 0x008 ⟨2, 0x02, 0, ownerPage s a, some a⟩) 0x008 a 1 2 (0x02 * 2 ^ 16)) j false
    | (s, _, _) => jobAdvance (ownErr s 0x008 6 0x01 (some a)) j false

/-- The job of ring `j` that is being built. -/
def jobNow (s : State) (j : Nat) : Option PktJob := s.pkt.jobs.find? fun x => x.ring = j && !x.built

/-- Job `id` sends a frame to its flow's queue. -/
def jobSend (id : Nat) (flow : List Word) (launch : Option Word) (stamp : Bool) (b : List Byte) (s : State) : State :=
  toTm ⟨bits (wWord flow 18) 27 16, b, launch, 0, some id, stamp⟩ (modJob s id fun j => { j with out := j.out + 1 })

/-- Rounds to nearest with ties away from zero (R712). -/
def roundAway (x : Rat) : Int := if x < 0 then -(((-x) + 1 / 2).floor) else (x + 1 / 2).floor

/-- Whether every part fits `w` bits after division by 2^e. -/
def fitsExp (w e : Nat) (xs : List Int) : Bool :=
  xs.all fun x =>
    let y := roundAway ((x : Rat) / ((2 ^ e : Nat) : Rat))
    decide (-(2 ^ (w - 1) : Nat) ≤ y) && decide (y < (2 ^ (w - 1) : Nat))

/-- R712: a PRB compressed by block floating point: its exponent and mantissas. -/
def bfpCompress (w : Nat) (xs : List Int) : Nat × List Int :=
  let e := ((List.range 16).find? fun e => fitsExp w e xs).getD 15
  (e, xs.map fun (x : Int) => roundAway ((x : Rat) / ((2 ^ e : Nat) : Rat)))

/-- The parts of the twelve elements of a PRB. -/
def prbParts (d : List Byte) : List Int :=
  (List.range 24).map fun i => signed 16 (ofLe ((d.drop (2 * i)).take 2))

/-- The PRBs that one frame of a flow holds within MTU (R718). -/
def prbsPerFrame (c : List Word) : Nat :=
  let w := bits (wWord c 0) 19 16
  let size := if bits (wWord c 0) 23 20 = 0 then 48 else 1 + 3 * (if w = 0 then 16 else w)
  max 1 ((bits (wWord c 20) 29 16 - Config.uHeader c) / size)

/-- The PRBs of a symbol and an input, read from the grid. -/
def readPrbs (ws : List Word) (sym i : Nat) : RdM (List (List Int)) := do
  let n := bits (wWord ws 1) 8 0
  let d ← rdBytes 0x008 (fhPrb ws sym i 0) (48 * n)
  return (List.range n).map fun k => prbParts (d.drop (48 * k))

/-- The frames of symbol `sym` (R718). -/
def symbolFrames (x : PktJob) (c ws : List Word) (sym : Nat) : RdM (List (List Byte)) := do
  let w5 := wWord x.words 5
  let per := prbsPerFrame c
  let w := bits (wWord c 0) 19 16
  let fs ← (List.range (bits w5 14 8)).mapM fun j => do
    let i := bits w5 5 0 + j
    let ps ← readPrbs ws sym i
    let cs : List (Nat × List Int) := ps.map fun p =>
      if bits (wWord c 0) 23 20 = 0 then (0, p) else bfpCompress (if w = 0 then 16 else w) p
    return (List.range ((cs.length + per - 1) / per)).map fun k =>
      Config.uFrame c (bits (wWord c 3) 31 16 + i) (wWord x.words 7) sym k (k * per) ((cs.drop (k * per)).take per)
  return fs.flatten

/-- R718: the next symbol of the U_SEND job of ring `j`, no earlier than 2 µs before its launch. -/
def uSendSt (j : Nat) (s : State) : State :=
  let s := if (jobNow s j).isNone then jobFetch j 1 s else s
  match jobNow s j with
  | none => s
  | some x =>
    if bits (wWord x.words 0) 3 0 ≠ 1 then s
    else match jobFlow s x.words with
    | none => jobBad s x.id x.desc
    | some c =>
      match fhCtx (2 * bits (wWord c 17) 7 0 + if duEnd s then 1 else 0) s with
      | (s, none) => jobBad s x.id x.desc
      | (s, some ws) =>
        let first := bits (wWord x.words 4) 19 16
        let mu := bits (wWord ws 1) 18 16
        let base := bits (wWord x.words 7) 17 12 * 14
        let off := symOffset mu (base + x.next) - symOffset mu (base + first)
        let launch := wWord x.words 6 + w32 off
        if wWord x.words 6 ≠ 0 ∧ sinceTarget s launch < -2000 then s
        else match symbolFrames x c ws x.next s with
          | .ok fs s =>
            let s := fs.foldl (fun s b => jobSend x.id c (if wWord x.words 6 = 0 then none else some launch) false b s) s
            modJob s x.id fun y => { y with next := x.next + 1, built := decide (bits (wWord x.words 4) 23 20 ≤ x.next) }
          | .error (.ue a) s => jobUe s x.id a
          | .error _ s => jobBad s x.id x.desc

/-- The weight set of a context: its header's sixteen words and its weights. -/
def readWset (ws : List Word) : RdM (List Word) := do
  let h ← rdWords 0x008 (wAddr ws 9) 16
  let n := bits (wWord h 0) 22 16 * bits (wWord h 0) 6 0 * bits (wWord h 1) 26 16
  let w ← rdWords 0x008 (wAddr ws 9 + 64) n
  return h ++ w

/-- A job's body, and what it sends. -/
def jobBody (x : PktJob) : RdM (List Byte) := rdBytes 0x008 (wAddr x.words 8) (bits (wWord x.words 10) 13 0)

/-- The launch time of a job's frame. -/
def jobLaunch (x : PktJob) : Option Word := if wWord x.words 6 = 0 then none else some (wWord x.words 6)

/-- A job that sends one frame, which `mk` builds. -/
def oneFrame (j kind : Nat) (mk : PktJob → List Word → List Word → RdM (List Byte)) (s : State) : State :=
  let s := if (jobNow s j).isNone then jobFetch j kind s else s
  match jobNow s j with
  | none => s
  | some x =>
    if bits (wWord x.words 0) 3 0 ≠ kind then s
    else match jobFlow s x.words with
    | none => jobBad s x.id x.desc
    | some c =>
      let (s, ws) := fhCtx (2 * bits (wWord c 17) 7 0 + if duEnd s then 1 else 0) s
      match mk x c (ws.getD []) s with
      | .ok b s =>
        let stamp := kind = 3 ∧ bit (wWord x.words 0) 28
        modJob (jobSend x.id c (jobLaunch x) stamp b s) x.id fun y => { y with built := true }
      | .error (.ue a) s => jobUe s x.id a
      | .error _ s => jobBad s x.id x.desc

/-- R717: a C_SEND job. -/
def cSendSt (j : Nat) (s : State) : State :=
  oneFrame j 2 (fun x c ws => do
    let body ← jobBody x
    let w ← if bit (wWord x.words 4) 24 then readWset ws else pure []
    return Config.cFrame c (wWord x.words 7) body w) s

/-- R717: a FRAME job; a length that no MAC sends is an argument refused (R704). -/
def frameJobSt (j : Nat) (s : State) : State :=
  oneFrame j 3 (fun x _ _ => do
    let body ← jobBody x
    if body.length < 60 ∨ 9596 < body.length then throw .badArg else return body) s

/-- R720: a job completes when all its frames have left or been dropped. -/
def jobDoneSt (i : Nat) (s : State) : State :=
  match s.pkt.jobs[i]? with
  | none => s
  | some x =>
    if !x.built ∨ x.out ≠ 0 then s
    else
      let s := modPkt s fun p => { p with jobs := dropAt p.jobs i }
      let s := match x.stamp with
        | some (a, b) => memPut s 0x008 (x.desc + 52) (leBytes 4 a.toNat ++ leBytes 4 b.toNat)
        | none => s
      let c := x.cause.getD 0
      let cls := match c with | 1 => 6 | 2 => 2 | _ => 0
      let s := closeDesc s 0x008 x.desc (if x.cause.isSome then 1 else 0) cls (c * 2 ^ 16 + x.dropped % 65536)
      let w12 := wWord x.words 12
      if bit w12 31 then
        let w11 := wWord x.words 11
        let pay := if x.cause.isSome then x.desc / 256 * 256 + c else x.desc
        sendTok s 0x008 (bits w12 25 24) ⟨BitVec.ofNat 16 (bits w11 31 16), BitVec.ofNat 16 (bits w11 15 0),
          BitVec.ofNat 2 (bits w12 29 28), if x.cause.isSome then 1 else 0, 0, 0, BitVec.ofNat 64 pay⟩
      else s

/-- A job ring's doorbell moves (R735): a descriptor that was not owned is fetched again (R82). -/
def jobTail (j : Nat) (v : Word) (s : State) : State :=
  let s := modPkt s fun p => { p with jobWait := kset false p.jobWait j false, jobAhead := kset 0 p.jobAhead j 0 }
  setReg s 0x008 (0x310 + 0x20 * j) (v &&& 0xFFF)

/-- R799, R735: PORT_STS. -/
def pcsLock (p : Nat) (on : Bool) (s : State) : State :=
  if pageOn s 0x008 then modReg s 0x008 0x110 fun w => putBit w p on else s

/-- What a soft reset does to the packet engine: the jobs end with error tokens of cause SOFT_RESET (R58). -/
def pktDrop (s : State) : State :=
  let jobs := s.pkt.jobs
  let s := { s with pkt := ⟨[], [], [], s.pkt.nextJob, [], [], [], [], []⟩ }
  jobs.foldl (fun s x =>
    let w12 := wWord x.words 12
    let w11 := wWord x.words 11
    if bit w12 31 then
      sendTok s 0x008 (bits w12 25 24) ⟨BitVec.ofNat 16 (bits w11 31 16), BitVec.ofNat 16 (bits w11 15 0),
        BitVec.ofNat 2 (bits w12 29 28), 1, 0, 0, BitVec.ofNat 64 (x.desc / 256 * 256 + 0x11)⟩
    else s) s

/-- FRAME_RECEIVE (R707). [DESIGN CHOICE, log 8] -/
def execFrameReceive (p : Fin 32) (bytes : List Byte) (fcsOk : Bool) (s : State) : Host.Outcome State Fault Refusal :=
  .next (whileRuns 0x008 (frameReceiveSt p bytes fcsOk) s)

/-- FLOW_LOAD (R706). -/
def execFlowLoad (a : Acc) (v : Word) (s : State) : Host.Outcome State Fault Refusal :=
  .next (onPage a 0x008 0x11C (flowLoadSt v) s)

/-- WIN_CLOSE (R715). -/
def execWinClose (f : Fin 512) (n : Nat) (s : State) : Host.Outcome State Fault Refusal :=
  .next (whileRuns 0x008 (winCloseSt f n) s)

/-- The engine works on a ring's jobs: it is enabled, or it finishes the one that it has taken (R55). -/
def jobsRun (s : State) (j : Nat) : Bool := enabled s 0x008 || (jobNow s j).isSome

/-- U_SEND (R718). -/
def execUSend (j : Fin 8) (s : State) : Host.Outcome State Fault Refusal :=
  .next (whileRuns 0x008 (fun s => if jobsRun s j then uSendSt j s else s) s)

/-- C_SEND (R717). -/
def execCSend (j : Fin 8) (s : State) : Host.Outcome State Fault Refusal :=
  .next (whileRuns 0x008 (fun s => if jobsRun s j then cSendSt j s else s) s)

/-- FRAME (R757). -/
def execFrame (j : Fin 8) (s : State) : Host.Outcome State Fault Refusal :=
  .next (whileRuns 0x008 (fun s => if jobsRun s j then frameJobSt j s else s) s)

/-- JOB_DONE (R720). -/
def execJobDone (i : Nat) (s : State) : Host.Outcome State Fault Refusal := .next (whileRuns 0x008 (jobDoneSt i) s)

/-- PCS_LOCK_LOSS (R799). -/
def execPcsLockLoss (p : Fin 32) (s : State) : Host.Outcome State Fault Refusal := .next (pcsLock p false s)

/-- PCS_LOCK_GAIN (R735). -/
def execPcsLockGain (p : Fin 32) (s : State) : Host.Outcome State Fault Refusal := .next (pcsLock p true s)

end Sys2Proof.Machine
end

