-- ==== Sys2Proof/Machine/Prism.lean ====
section
/-! DEFINITION. Prism: taps and selection sets, spectrum integrations and records, burst detectors, captures and
their records, commands from slot graphs, host-assisted export (Prism Spectrum Observation). -/

namespace Sys2Proof.Machine

/-- The PRISM page. -/
def prismPage : Nat := 0x00B

/-- Stores Prism's state. -/
def setPrism (s : State) (x : PrismSt) : State := { s with prism := x }

/-- A tap. -/
def tapOf (s : State) (k : Nat) : TapSt := kget TapSt.init s.prism.taps k

/-- Stores a tap. -/
def setTap (s : State) (k : Nat) (t : TapSt) : State :=
  setPrism s { s.prism with taps := kset TapSt.init s.prism.taps k t }

/-- A register of tap `k`. -/
def tapReg (s : State) (k off : Nat) : Word := getReg s prismPage (0x180 + 0x40 * k + off)

/-- The page and offset of detector `d`'s register block (R383). -/
def detLoc (d : Nat) : Nat × Nat := (0x261 + d / 16, d % 16 * 0x100)

/-- A register of detector `d`. -/
def detReg (s : State) (d off : Nat) : Word := getReg s (detLoc d).1 ((detLoc d).2 + off)

/-- Stores a register of detector `d`. -/
def setDet (s : State) (d off : Nat) (v : Word) : State := setReg s (detLoc d).1 ((detLoc d).2 + off) v

/-- Counts one in a 16-bit counter of a detector, which saturates (R383). -/
def detCount (s : State) (d off : Nat) : State := setDet s d off (w32 (satAdd 0xFFFF (detReg s d off).toNat 1))

/-- NBIN_LOG2 of a configuration. -/
def nbinLog (c : Word) : Nat := max 9 (min 12 (bits c 3 0))

/-- The set bits of a selection mask, ascending: the streams of the tap by position (R333). -/
def maskStreams (m : Dword) : List Nat := (List.range 64).filter fun i => m.getLsbD i

/-- Whether tap `k` runs in host-assisted mode (R380). -/
def haTap (s : State) (k : Nat) : Bool :=
  haActive s prismPage && bit (getReg s prismPage 0x0C) (8 + k)

/-- TAP_SET of a set. -/
def tapSet (s : State) (k i : Nat) : Dword :=
  BitVec.ofNat 64 ((tapReg s k (0x10 + 8 * i)).toNat + 2 ^ 32 * (tapReg s k (0x14 + 8 * i)).toNat)

/-- The duration of `n` lane-side samples of tap `k`, in units of 2⁻³² ns. -/
def laneDur (s : State) (k n : Nat) : Int := (2 ^ 32 * 1000000 * n : Nat) / (laneRate s k : Int)

/-- The time of a lane sample of tap `k`, by its number. -/
def laneTime (s : State) (k : Nat) (n : Int) : Int :=
  devTime s - 2 ^ 32 * 1000000 * (laneNo s k - n) / (laneRate s k : Int)

/-- A chain's sample as the tap carries it: step 6, rounded and saturated to Q1.15 (R184). -/
def tapWord (x : ChSample) : Word := (toQ115 (ofQ317 x.out)).1

/-- Seconds and nanoseconds of a device time, as two words. -/
def secNs (t : Int) : List Word :=
  let ns := t / (2 ^ 32 : Nat)
  [w32 (wrapN 32 (ns / 1000000000)), w32 ((ns % 1000000000).toNat)]

/-! ### The rings -/

/-- The event ring (R374). -/
def prismEvtRing : Ring := ⟨prismPage, 0x114, 0x11C, 0x120, 0x124, 64, 6, 4, 14⟩

/-- Bytes of the spectrum ring. -/
def specSize (s : State) : Nat := 2 ^ max 16 (min 30 (bits (getReg s prismPage 0x108) 4 0))

/-- R352–R354: a spectrum record enters the ring, after a wrap marker if it does not fit before the end; whether
it did. -/
def specPush (s : State) (d : List Byte) : State × Bool :=
  let n := specSize s
  let h := (getReg s prismPage 0x10C).toNat % n
  let t := (getReg s prismPage 0x110).toNat % n
  let free := (n + t - h - 1) % n
  let base := getPair s prismPage 0x100 6
  let wrap := decide (n < h + d.length)
  let need := if wrap then n - h + d.length else d.length
  if free < need then (s, false)
  else
    let s := if wrap then memPut s prismPage (base + h) (leBytes 4 0xF0000000 ++ List.replicate 60 0) else s
    let at_ := if wrap then 0 else h
    let s := memPut s prismPage (base + at_) d
    (setReg s prismPage 0x10C (w32 ((at_ + d.length) % n)), true)

/-! ### Detectors and captures -/

/-- A detector's stream. -/
def detStream (s : State) (d : Nat) : Nat := bits (detReg s d 4) 7 0

/-- A detector's capture group: stream and GRP. -/
def detGroup (s : State) (d : Nat) : Nat × Nat := (detStream s d, bits (detReg s d 0) 7 4)

/-- DEC of a detector. -/
def detDec (s : State) (d : Nat) : Nat := min 8 (bits (detReg s d 0xC) 3 0)

/-- The duration of `n` detector-rate samples. -/
def detDur (s : State) (d n : Nat) : Int := laneDur s (detStream s d / 64) (n * 2 ^ detDec s d)

/-- Whether a detector is active: enabled, its stream on a tap that runs (R355, R380). -/
def detActive (s : State) (d : Nat) : Bool :=
  let st := detStream s d
  enabled s prismPage && bit (detReg s d 0) 0 && !haTap s (st / 64) && (tapOf s (st / 64)).mask.getLsbD (st % 64)

/-- A detector's state. -/
def detSt (s : State) (d : Nat) : DetSt := kget DetSt.init s.prism.dets d

/-- Stores a detector's state. -/
def setDetSt (s : State) (d : Nat) (x : DetSt) : State :=
  setPrism s { s.prism with dets := kset DetSt.init s.prism.dets d x }

/-- The number of a detector's newest sample. -/
def DetSt.newest (x : DetSt) : Int := match x.log with | y :: _ => y.no | [] => -1

/-- The time of a detector's newest sample. -/
def DetSt.newestAt (x : DetSt) (now : Int) : Int := match x.log with | y :: _ => y.at_ | [] => now

/-- A detector's sample by its number. -/
def DetSt.sample (x : DetSt) (n : Int) : Option DetSample := x.log.find? fun y => y.no = n

/-- NBUF_LOG2 (R362). -/
def nbufLog (s : State) : Nat := max 2 (min 8 (bits (getReg s prismPage 0x130) 3 0))

/-- The bytes of a capture buffer. -/
def bufBytes (s : State) : Nat := 7936 * 1024 / 2 ^ nbufLog s

/-- The lowest-numbered free buffer (R363). -/
def freeBuf (s : State) : Option Nat := (List.range (2 ^ nbufLog s)).find? fun b => !s.prism.held.contains b

/-- The free buffers (BUF_FREE). -/
def bufFreeCount (s : State) : Nat := ((List.range (2 ^ nbufLog s)).filter fun b => !s.prism.held.contains b).length

/-- A detection record (R373). -/
def detRecord (s : State) (status : Nat) (c : Capture) (samples link : Nat) : List Byte :=
  let d := c.det
  let noBuf := status = 2 ∨ status = 4 ∨ status = 5
  let pre := bits (detReg s d 0x1C) 12 0
  let obs := (((detSt s d).sample c.peakNo).map (·.obs)).getD false
  let w0 := 2 * 2 ^ 28 + status * 2 ^ 24 + d * 2 ^ 18 + bits (detReg s d 0) 7 4 * 2 ^ 14 +
    (if obs then 2 ^ 13 else 0) + (if c.forced then 2 ^ 12 else 0) + (if noBuf then 2 ^ 11 else 0) + detStream s d
  wordsBytes ([w32 w0, w32 (c.seq % 65536 * 2 ^ 16 + c.metric.toNat)] ++ secNs c.peak ++
    [w32 ((if noBuf then 0 else c.buf * 2 ^ 24) + samples), w32 (pre * 2 ^ 16 + detDec s d)] ++
    secNs (c.peak - detDur s d pre) ++
    [w32 (c.confLevel.toNat * 2 ^ 16 + dBq8 c.bg), w32 (link % 65536 * 2 ^ 16 + c.shadowed % 65536)] ++
    List.replicate 6 0)

/-- R374: a detection record enters the event ring; whether it did. -/
def putDetRecord (s : State) (d : List Byte) : State × Bool :=
  if prismEvtRing.full s then (setEvt (incCnt s prismPage 9) prismPage 3, false)
  else (setEvt (prismEvtRing.push s d) prismPage 0, true)

/-- A buffer becomes free. -/
def freeBuffer (s : State) (b : Nat) : State :=
  setPrism s { s.prism with held := s.prism.held.filter fun x => !decide (x = b) }

/-- A command completes with the nanosecond slice at which it finished (R375). -/
def prismDone (s : State) (f : FireRec) : State :=
  complete s prismPage f false (BitVec.ofNat 64 (slice s).toNat)

/-- The samples of a capture up to `n` after its peak, written to its buffer (R363). -/
def writeSamples (s : State) (c : Capture) (n : Nat) : State :=
  let pre := bits (detReg s c.det 0x1C) 12 0
  memPut s prismPage (0x001300000000 + c.buf * bufBytes s)
    ((List.range (pre + n)).flatMap fun (i : Nat) =>
      let no := c.peakNo + i - pre
      leBytes 4 (match (detSt s c.det).sample no with
        | some y => y.x
        | none => Config.noHistory c.det no).toNat)

/-- R371: a running capture ends. `n` samples after its peak are in its buffer. -/
def closeCapture (s : State) (c : Capture) (status n link : Nat) : State :=
  let s := writeSamples s c n
  let s := setPrism s { s.prism with caps := s.prism.caps.filter fun x => !decide (x.seq = c.seq) }
  let pre := bits (detReg s c.det 0x1C) 12 0
  let (s, ok) := putDetRecord s (detRecord s status c (pre + n) link)
  let s := if status = 2 ∨ !ok then freeBuffer s c.buf else s
  match c.fire with
  | some f => prismDone s f
  | none => s

/-- The samples of a capture from its peak on that come before device time `t`. -/
def samplesBy (s : State) (c : Capture) (t : Int) : Nat :=
  min (bits (detReg s c.det 0x20) 19 0)
    ((detSt s c.det).log.filter fun y => decide (c.peakNo ≤ y.no ∧ y.at_ < t)).length

/-- The samples of a capture from its peak on that have come. -/
def samplesNow (s : State) (c : Capture) : Nat := samplesBy s c (devTime s + 1)

/-- The running capture of a capture group. -/
def groupCapture (s : State) (g : Nat × Nat) : Option Capture := s.prism.caps.find? fun c => detGroup s c.det = g

/-- Starts a capture in buffer `b` (R363, R366). -/
def startCapture (s : State) (c : Capture) : State :=
  setPrism s { s.prism with caps := s.prism.caps ++ [c], held := c.buf :: s.prism.held }

/-- A detection that starts no capture: its record (R364, R367). [DEDUCED, log 53] -/
def noCapture (s : State) (c : Capture) (status link : Nat) : State :=
  (putDetRecord s (detRecord s status c 0 link)).1

/-- A metric as signed Q8.8. -/
def q88 (m : BitVec 16) : Int := m.toInt

/-- R364, R367, R377: a detection takes part in its capture group. -/
def contend (s : State) (c : Capture) : State :=
  let run := groupCapture s (detGroup s c.det)
  let margin := signed 16 (bits (getReg s prismPage 0x13C) 15 0)
  let beats := match run with
    | none => true
    | some r => c.forced || decide (q88 r.metric + margin ≤ q88 c.metric)
  if beats then
    match freeBuf s with
    | none =>
      let s := noCapture (setEvt (incCnt s prismPage 8) prismPage 4) c 4 0
      match c.fire with
      | some f => prismDone s f
      | none => s
    | some b =>
      let s := match run with
        | none => s
        | some r =>
          let s := detCount (incCnt s prismPage 5) r.det 0x34
          closeCapture s r 1 (samplesBy s r c.peak) c.seq
      let conf := bits (detReg s c.det 0x18) 12 0
      startCapture s { c with buf := b, confirming := !c.forced && decide (0 < conf) }
  else
    match run with
    | none => s
    | some r =>
      let s := detCount (incCnt s prismPage 7) c.det 0x30
      let s := setPrism s { s.prism with caps := s.prism.caps.map fun x =>
        if x.seq = r.seq then { x with shadowed := x.shadowed + 1 } else x }
      if bit (detReg s c.det 0) 1 ∧ r.det = c.det then s else noCapture s c 5 r.seq

/-- R372: an uncorrectable error in a detector's store: its capture is truncated, and it starts again as R361 says. -/
def detStoreUe (s : State) (d : Nat) : State :=
  let s := ownErr s prismPage 2 0x02 none
  let s := match s.prism.caps.find? fun c => c.det = d with
    | some c => closeCapture s c 3 (samplesNow s c) 0
    | none => s
  setDetSt s d { detSt s d with live := false }

/-- The detections of one cycle (R368): in each capture group the highest metric takes part in R367, a tie going
to the lowest detector; the others are SHADOWED by the capture that then runs. [DEDUCED, log 53] -/
def detectionSt (ues : List Nat) (s : State) : State :=
  let s := ues.foldl detStoreUe s
  match s.prism.found with
  | [] => s
  | x :: _ =>
    let live := s.prism.found.filter fun y => y.cyc = x.cyc
    let caps := live.zipIdx.map fun (d, i) =>
      (⟨d.det, s.prism.seq + i, d.metric, d.peak, d.peakNo, 0, d.bg, false, false, 0, 0, none⟩ : Capture)
    let s := setPrism s { s.prism with
      seq := (s.prism.seq + live.length) % 65536, found := s.prism.found.filter fun y => !decide (y.cyc = x.cyc) }
    let s := live.foldl (fun s d => detCount (incCnt s prismPage 3) d.det 0x28) s
    let wins (c : Capture) : Bool := caps.all fun x => x.seq = c.seq || detGroup s x.det != detGroup s c.det ||
      decide (q88 x.metric < q88 c.metric) || (decide (x.metric = c.metric) && decide (c.det < x.det))
    let s := (caps.filter wins).foldl contend s
    (caps.filter fun c => !wins c).foldl (fun s c =>
      let win := (caps.find? fun x => wins x && detGroup s x.det == detGroup s c.det).map (·.seq)
      let r := groupCapture s (detGroup s c.det)
      let link := match r with | some r => r.seq | none => win.getD 0
      let s := detCount (incCnt s prismPage 7) c.det 0x30
      let s := setPrism s { s.prism with caps := s.prism.caps.map fun x =>
        if x.seq = link then { x with shadowed := x.shadowed + 1 } else x }
      if bit (detReg s c.det 0) 1 ∧ (r.map (·.det)) = some c.det then s else noCapture s c 5 link) s

/-- The power of a sample. -/
def powerOf (w : Word) : Rat := (cxOfWord 15 w).normSq

/-- The mean of |x|² over a confirmation window: the `n` samples after the peak (R366). [DEDUCED, log 53] -/
def confMean (s : State) (c : Capture) (n : Nat) : Rat :=
  qdiv (((detSt s c.det).log.filter fun y => decide (c.peakNo < y.no ∧ y.no ≤ c.peakNo + n)).map fun y => powerOf y.x).sum (n : Rat)

/-- CONF_WINDOW_END (R366), once the window's samples have come. -/
def confEndSt (d : Nat) (s : State) : State :=
  match s.prism.caps.find? fun c => c.det = d && c.confirming with
  | none => s
  | some c =>
    let conf := detReg s d 0x18
    let n := bits conf 12 0
    if (detSt s d).newest < c.peakNo + n then s
    else
      let r := qdiv (confMean s c n) c.bg
      let c' := { c with confirming := false, confLevel := BitVec.ofNat 16 (dBq8 r) }
      let s := setPrism s { s.prism with caps := s.prism.caps.map fun x => if x.seq = c.seq then c' else x }
      if 0 < r ∧ (signed 16 (bits conf 31 16) : Rat) / 256 ≤ dB r then s
      else
        let s := setEvt (detCount (incCnt s prismPage 6) d 0x2C) prismPage 1
        closeCapture s c' 2 (samplesNow s c') 0

/-- CAPTURE_COMPLETE (R371), once POST samples from the peak on have come. -/
def captureDoneSt (d : Nat) (s : State) : State :=
  match s.prism.caps.find? fun c => c.det = d && !c.confirming with
  | none => s
  | some c =>
    let post := bits (detReg s d 0x20) 19 0
    if (detSt s d).newest + 1 < c.peakNo + post then s
    else closeCapture (incCnt s prismPage 4) c 0 post 0

/-! ### The detectors' samples (R358–R361) -/

/-- BG_LOG2 of a detector, as a count of samples (R383). -/
def bgSamples (s : State) (d : Nat) : Nat := 2 ^ max 6 (min 20 (bits (detReg s d 0x14) 4 0))

/-- A detector's class admits a sample (R358, R359). -/
def detAdmits (s : State) (d : Nat) (obs : Bool) : Bool :=
  match bits (detReg s d 0) 3 2 with
  | 1 => obs
  | 2 => true
  | _ => !obs

/-- c[n] of the newest samples (R358): samples of an excluded class enter as zero. -/
def correlate (s : State) (d : Nat) (log : List DetSample) : Cx :=
  let t := kget [] s.prism.tmpls d
  Cx.sum (List.zipWith (fun (y : DetSample) t =>
    if detAdmits s d y.obs then (cxOfWord 15 y.x).mul (cxOfWord 15 t).conj else Cx.zero) log t.reverse)

/-- E_t of a detector's template (R355). -/
def tmplEnergy (s : State) (d : Nat) : Rat := ((kget [] s.prism.tmpls d).map powerOf).sum

/-- P_n after one more sample (R359): an arithmetic mean until the samples are enough, then an exponential one. -/
def bgUpdate (lim n : Nat) (p x : Rat) : Rat := p + (x - p) / ((min lim (n + 1) : Nat) : Rat)

/-- A run closes: the detector declares a detection (R360). -/
def declare (s : State) (d : Nat) (r : DetRun) : State :=
  setPrism s { s.prism with found := s.prism.found ++
    [⟨s.time.free, d, r.best, r.at_, BitVec.ofNat 16 (dBq8 r.ratio), (detSt s d).pn⟩] }

/-- R360: a detector's run after a sample with |c|² / (E_t × P_n) = `m`, at or above DET_THR where `hit` says; the run that the
sample closes. -/
def runStep (tlen : Nat) (y : DetSample) (m : Rat) (hit : Bool) (r : Option DetRun) : Option DetRun × Option DetRun :=
  let new : Option DetRun := if hit then some ⟨y.no, y.no, y.at_, m⟩ else none
  match r with
  | none => (new, none)
  | some r =>
    if hit ∧ y.no < r.first + tlen then
      (some (if r.ratio < m then { r with best := y.no, at_ := y.at_, ratio := m } else r), none)
    else (new, some r)

/-- A detector takes one detector-rate sample (R358–R361). [DEDUCED, log 53] -/
def detSample (d : Nat) (y : DetSample) (s : State) : State :=
  let x := detSt s d
  let tlen := bits (detReg s d 0xC) 26 16
  let log := y :: x.log
  let busy := (groupCapture s (detGroup s d)).isSome
  let enters := detAdmits s d y.obs && !busy
  let lim := bgSamples s d
  let pn := if enters then bgUpdate lim x.count x.pn (powerOf y.x) else x.pn
  let count := if enters then min lim (x.count + 1) else x.count
  let m := qdiv (correlate s d log).normSq (tmplEnergy s d * pn)
  let hit := detActive s d && decide (lim ≤ count) && decide (tlen ≤ x.warm + 1) && decide (0 < m) &&
    decide ((signed 16 (bits (detReg s d 0x10) 15 0) : Rat) / 256 ≤ dB m)
  let (run, closed) := runStep tlen y m hit x.run
  let s := setDetSt s d { x with log := log, pn := pn, count := count, run := run, warm := x.warm + 1 }
  match closed with
  | some r => declare s d r
  | none => s

/-- A detector takes the present lane sample of its stream: it shifts it by DET_FREQ and decimates it (R358). A detector that
becomes active again starts anew, P_n apart (R361). [DEDUCED, log 53] -/
def detTick (s : State) (d : Nat) : State :=
  let x := detSt s d
  let act := detActive s d
  let st := detStream s d
  let n := laneNo s (st / 64)
  if !act && !(s.prism.caps.any fun c => c.det = d) then
    if x.live then setDetSt s d { x with live := false } else s
  else
    match (chainOf s (st / 64) (st % 64)).log with
    | [] => s
    | v :: _ =>
      if v.n ≠ n then s
      else
        let x := if act ∧ !x.live then { x with stages := [], log := [], run := none, warm := 0, live := true } else x
        let z := (toQ317 ((cxOfWord 15 (tapWord v)).mul (ncoTurn (detReg s d 8) n)).snap).1
        let (stages, o, _) := halfDown (detDec s d) n z x.stages
        let s := setDetSt s d { x with stages := stages }
        match o with
        | some (_, w) => detSample d ⟨x.newest + 1, v.at_, (toQ115 (ofQ317 w)).1, v.flag⟩ s
        | none => s

/-- BUF_RELEASE (R365): a buffer that a running capture fills is not the host's to return. -/
def bufReleaseSt (v : Word) (s : State) : State :=
  let b := bits v 7 0
  if s.prism.caps.any fun c => c.buf = b then s else freeBuffer s b

/-- R356: whether detector `d` may be enabled, its registers as they stand but for DET_CTRL. -/
def detOk (s : State) (d : Nat) : Bool :=
  let tlen := bits (detReg s d 0xC) 26 16
  let dec := bits (detReg s d 0xC) 3 0
  let pre := bits (detReg s d 0x1C) 12 0
  let post := bits (detReg s d 0x20) 19 0
  let load (e : Nat) : Nat :=
    bits (detReg s e 0xC) 26 16 * laneRate s (detStream s e / 64) * 2 ^ (8 - detDec s e)
  let others := ((List.range 64).filter fun e => !decide (e = d) && bit (detReg s e 0) 0).map load
  decide (16 ≤ tlen ∧ tlen ≤ 1024 ∧ dec ≤ 8 ∧ pre + tlen ≤ 4096 ∧ bits (detReg s d 0x18) 12 0 ≤ post ∧
    (pre + post) * 4 ≤ bufBytes s ∧ others.sum + load d ≤ 256 * 983040 * 256)

/-- DET_ENABLE (R355–R357). -/
def detEnableSt (d : Nat) (v : Word) (s : State) : State :=
  let old := detReg s d 0
  if bit old 0 then
    let s := if (old &&& 0x3FFC) = (v &&& 0x3FFC) then s else setEvt s prismPage 5
    setDet s d 0 (putBit old 1 (bit v 1))
  else
    let s := setDet s d 0 (v &&& 0x3FFE)
    if !detOk s d then ownErr s prismPage 6 0x01 none
    else
      let a := 0x0013007C0000 + bits v 13 8 * 0x1000
      let n := bits (detReg s d 0xC) 26 16
      match memRead s prismPage a (4 * n) with
      | (s, .ok, b) =>
        let s := setPrism s { s.prism with tmpls := kset [] s.prism.tmpls d ((List.range n).map (wordAt b)) }
        setDet (setDetSt s d DetSt.init) d 0 (v &&& 0x3FFF)
      | (s, _, _) => ownErr s prismPage 2 0x03 (some a)

/-- A write of DET_CTRL with EN clear: while EN is 1 the fields TMPL, GRP and CLASS keep their values (R357). -/
def detOffSt (d : Nat) (v : Word) (s : State) : State :=
  let old := detReg s d 0
  if bit old 0 then
    let s := if (old &&& 0x3FFC) = (v &&& 0x3FFC) then s else setEvt s prismPage 5
    setDet s d 0 (putBits old 1 0 (bits v 1 1 * 2))
  else setDet s d 0 (v &&& 0x3FFE)

/-! ### Spectra -/

/-- The floor code's neighbours (R347): a level as Q8.8 dBFS. -/
def levelQ8 (p : Rat) : Nat :=
  if p ≤ 0 then 0x8000
  else
    let v := roundEven (dB p * 256)
    if v ≤ -32768 then 0x8000 else if 32767 < v then 0x7FFF else wrapN 16 v

/-- Elementwise combination of a list with a new frame; the frame where the list is empty. -/
def accWith (g : Rat → Rat → Rat) (xs ps : List Rat) : List Rat :=
  if xs.isEmpty then ps else (xs.zip ps).map fun (x, p) => g x p

/-- The class of a channel's frame (R345). -/
inductive FrameClass where
  | receive
  | observe
  | mixed
  deriving DecidableEq, Repr

/-- R345: the class of a frame by its samples. -/
def frameClass (xs : List ChSample) : FrameClass :=
  if xs.any (·.flag) then (if xs.all (·.flag) then .observe else .mixed) else .receive

/-- R344: the figures of the free prototype filter of 4N taps for N bins. -/
def prototypeFigures : Prop :=
  ∀ n ∈ [9, 10, 11, 12],
    let h := Config.prototype n
    let g (a : Int) (m : Nat) : Rat := (Cx.sum (h.zipIdx.map fun (r, i) => (turn (a * i % m).toNat m).scale r)).normSq
    h.length = 4 * 2 ^ n ∧ h.sum = 1 ∧
    ((2 ^ n : Nat) : Rat) * (h.map fun r => r * r).sum = 110 / 100 ∧
    ∀ (a : Int) (m : Nat), 0 < m → 2 * a.natAbs ≤ m →
      (2 * a.natAbs * 2 ^ n ≤ m → -(4 / 10) ≤ dB (g a m)) ∧
      (3 * m < 2 * a.natAbs * 2 ^ n → g a m = 0 ∨ dB (g a m) ≤ -60) ∧
      (3 * m < a.natAbs * 2 ^ n → g a m = 0 ∨ dB (g a m) ≤ -100)

/-- R344: the power of bin `b` of the frame of 2^n samples that ends with `xs`, the newest of 4N samples last. -/
def binPower (n b : Nat) (xs : List Cx) : Rat :=
  let nn := 2 ^ n
  let ys := xs.reverse
  (Cx.sum (((Config.prototype n).zip ys).zipIdx.map fun ((r, x), m) =>
    (x.mul (turn (((b : Int) - (nn / 2 : Nat)) * m % nn).toNat nn)).scale r)).normSq

/-- A class's accumulation after one more frame. -/
def ClsAcc.add (c : ClsAcc) (ps : List Rat) : ClsAcc :=
  ⟨c.frames + 1, accWith (· + ·) c.sum ps, accWith max c.peak ps⟩

/-- A stream's hold and floor after one more frame (R346, R348, R349). -/
def strmAdd (x : StrmSt) (cls : FrameClass) (idle : Bool) (alpha : Nat) (ps : List Rat) : StrmSt :=
  let x := match cls with
    | .receive => { x with holdRx := accWith max x.holdRx ps }
    | .observe => { x with holdObs := accWith max x.holdObs ps }
    | .mixed => x
  if idle then
    let n := x.nfCount + 1
    let g (f p : Rat) : Rat := if x.nfCount < 64 then f + (p - f) / ((n : Nat) : Rat) else f + (p - f) * pow2 (-(alpha : Int))
    { x with nf := accWith g x.nf ps, nfCount := min 255 n }
  else x

/-- Whether a frame from time `t` on lies wholly inside an idle window of tap `k` (R349). -/
def inIdle (s : State) (k : Nat) (t dur : Int) : Bool :=
  s.prism.cmds.any fun c => c.op = 1 && Nat.testBit c.mask k && decide (c.start ≤ t) && decide (t + dur ≤ c.start + c.len)

/-- A channel after one more frame. -/
def chanAdd (c : ChanAcc) (cls : FrameClass) (idle : Bool) (ps : List Rat) : ChanAcc :=
  match cls with
  | .receive => { c with rx := c.rx.add ps, idle := c.idle + if idle then 1 else 0 }
  | .observe => { c with obs := c.obs.add ps }
  | .mixed => { c with mixed := c.mixed + 1 }

/-- A stream's state. [DEDUCED, log 52] -/
def strmOf (s : State) (n : Nat) : StrmSt := kget StrmSt.init s.prism.strm n

/-- Stores a stream's state. [DEDUCED, log 52] -/
def setStrm (s : State) (n : Nat) (x : StrmSt) : State :=
  setPrism s { s.prism with strm := kset StrmSt.init s.prism.strm n x }

/-- A channel of a tap. -/
def chanOf (t : TapSt) (j : Nat) : ChanAcc := kget ChanAcc.init t.chans j

/-- One channel's part of FRAME_END: position `j`, stream `str`, the frame from lane sample `at_` on. -/
def frameChan (k : Nat) (at_ : Int) (s : State) (x : Nat × Nat) : State :=
  let (str, j) := x
  let t := tapOf s k
  let c := chanOf t j
  if 0 < c.settle then setTap s k { t with chans := kset ChanAcc.init t.chans j { c with settle := c.settle - 1 } }
  else
    let nl := nbinLog t.cfg
    let n : Nat := 2 ^ nl
    let xs := logRange s k str (at_ - 3 * n) (at_ + n)
    let cls := frameClass (xs.filter fun y => decide (at_ ≤ y.n))
    let ins := (List.range (4 * n)).map fun (i : Nat) =>
      match xs.find? fun y => y.n = at_ - 3 * n + i with
      | some y => cxOfWord 15 (tapWord y)
      | none => Cx.zero
    let ps := (List.range n).map fun b => binPower nl b ins
    let idle := decide (cls = .receive) && inIdle s k (laneTime s k at_) (laneDur s k n)
    let s := setTap s k { t with chans := kset ChanAcc.init t.chans j (chanAdd c cls idle ps) }
    let s := setStrm s (64 * k + str)
      (strmAdd (strmOf s (64 * k + str)) cls idle (min 12 (bits (tapReg s k 8) 3 0)) ps)
    if cls = .mixed then incCnt s prismPage 2 else s

/-- R350: an uncorrectable error strikes a channel's accumulators. -/
def chanUe (s : State) (k j : Nat) : State :=
  let t := tapOf s k
  let s := ownErr s prismPage 2 0x02 none
  let c := { ChanAcc.init with settle := (chanOf t j).settle, err := true }
  let s := setTap s k { t with chans := kset ChanAcc.init t.chans j c }
  match (maskStreams t.mask)[j]? with
  | some str => setStrm s (64 * k + str) StrmSt.init
  | none => s

/-- The lane sample at which the next frame of a tap starts: a multiple of N (R343). -/
def frameStart (t : TapSt) : Int :=
  let n : Int := (2 ^ nbinLog t.cfg : Nat)
  (t.next + n - 1) / n * n

/-- FRAME_END (R343–R345, R349, R350), once the frame's samples have come. A frame ends only after the records of a closed
integration are out. Where the LEMC epoch has moved past the frame, frames start again from the present one. [DEDUCED, log 52] -/
def frameEndSt (k : Nat) (bad : Bool) (j : Nat) (s : State) : State :=
  let t := tapOf s k
  let n : Int := (2 ^ nbinLog t.cfg : Nat)
  let at_ := frameStart t
  if haTap s k ∨ t.due ∨ !(enabled s prismPage || t.closeReq) then s
  else if laneNo s k + n < at_ then setTap s k { t with next := laneNo s k }
  else if laneNo s k + 1 < at_ + n then s
  else
    let s := if bad then chanUe s k j else s
    let s := ((maskStreams (tapOf s k).mask).take 32).zipIdx.foldl (frameChan k at_) s
    let t := tapOf s k
    let m := t.frames + 1
    let asked := s.prism.cmds.any fun c => c.op = 3 && Nat.testBit c.mask k
    setTap s k { t with
      frames := m, next := at_ + n, startAt := if t.frames = 0 then laneTime s k at_ else t.startAt,
      due := decide (2 ^ min 16 (bits t.cfg 12 8) ≤ m) || t.closeReq || asked }

/-- The record of one class of a channel (R351). -/
def specRecord (t : TapSt) (k j str : Nat) (x : StrmSt) (c : ChanAcc) (obs : Bool) (endAt : Int) : List Byte :=
  let fields := bits t.cfg 22 20
  let n := 2 ^ nbinLog t.cfg
  let a := if obs then c.obs else c.rx
  let hold := if obs then x.holdObs else x.holdRx
  let nfv : Bool := decide (64 ≤ x.nfCount)
  let nSel := (if Nat.testBit fields 0 then 1 else 0) + (if Nat.testBit fields 1 then 1 else 0) +
    (if Nat.testBit fields 2 then 1 else 0)
  let len := (64 + nSel * n * 2) / 64
  let enc (ps : List Rat) : List Byte := (List.range n).flatMap fun b => leBytes 2 (levelQ8 ((ps[b]?).getD 0))
  let mean := a.sum.map fun v => v / ((a.frames : Nat) : Rat)
  let mx := if bit t.cfg 18 then hold else a.peak
  let w0 := 2 ^ 28 + fields * 2 ^ 24 + nbinLog t.cfg * 2 ^ 20 + (if obs then 2 ^ 18 else 0) +
    (if hold.isEmpty then 0 else 2 ^ 17) + (if nfv then 2 ^ 16 else 0) + len
  wordsBytes ([w32 w0, w32 ((if c.err then 2 ^ 31 else 0) + (32 * k + j) * 256 + (64 * k + str)), w32 a.frames,
    w32 (min 0xFFFF c.mixed * 2 ^ 16 + min 0xFFFF c.idle)] ++ secNs t.startAt ++ secNs endAt ++
    [w32 (x.nfCount * 2 ^ 24 + min 255 t.dropped)] ++ List.replicate 7 0) ++
  (if Nat.testBit fields 0 then enc mean else []) ++ (if Nat.testBit fields 1 then enc mx else []) ++
  (if Nat.testBit fields 2 then enc x.nf else [])

/-- Writes one record, or drops it (R346, R354); ERR stands until a record has shown it (R350). -/
def putSpec (k j str : Nat) (s : State) (obs : Bool) : State :=
  let t := tapOf s k
  let c := chanOf t j
  let a := if obs then c.obs else c.rx
  if !bit t.cfg (if obs then 17 else 16) ∨ a.frames = 0 then s
  else
    let endAt := t.startAt + laneDur s k (t.frames * 2 ^ nbinLog t.cfg)
    match specPush s (specRecord t k j str (strmOf s (64 * k + str)) c obs endAt) with
    | (s, true) => setTap (incCnt s prismPage 0) k
        { tapOf s k with dropped := 0, chans := kset ChanAcc.init (tapOf s k).chans j { c with err := false } }
    | (s, false) =>
      setTap (setEvt (incCnt s prismPage 1) prismPage 2) k { tapOf s k with dropped := (tapOf s k).dropped + 1 }

/-- The streams of a tap whose captures end because they leave it (R371). -/
def truncateLeaving (s : State) (k : Nat) (old new : Dword) : State :=
  let gone := s.prism.caps.filter fun c =>
    let st := detStream s c.det
    st / 64 = k && old.getLsbD (st % 64) && !new.getLsbD (st % 64)
  gone.foldl (fun s c => closeCapture s c 3 (samplesNow s c) 0) s

/-- A switch to the streams of `new` (R337–R340): the channels whose stream changed settle for 4 frames. -/
def switchTap (s : State) (k : Nat) (new : Dword) (ue : Option (Fin 64)) : State :=
  let t := tapOf s k
  let a := maskStreams t.mask
  let b := maskStreams new
  let chans := (List.range 32).foldl (fun m j =>
    let c := { ChanAcc.init with settle := if b[j]?.isSome then 4 else 0, err := (chanOf t j).err }
    if b[j]? = a[j]? then m else kset ChanAcc.init m j c) t.chans
  let s := truncateLeaving s k t.mask new
  let s := setTap s k { tapOf s k with mask := new, chans := chans }
  let s := if bits t.cfg 25 24 = 0 then
      (a.filter fun x => !b.contains x).foldl (fun s x => setStrm s (64 * k + x) StrmSt.init) s
    else s
  match ue with
  | some x =>
    if b.contains x.val ∧ !a.contains x.val ∧ bits t.cfg 25 24 ≠ 0 then
      setStrm (ownErr s prismPage 2 0x02 (some (getPair s prismPage 0x128 6))) (64 * k + x.val) StrmSt.init
    else s
  | none => s

/-- SPEC_CLOSE commands that have tap `k` closed (R375). -/
def serveClose (s : State) (k : Nat) : State :=
  let upd := s.prism.cmds.map fun c =>
    if c.op = 3 ∧ Nat.testBit c.mask k then { c with mask := c.mask - 2 ^ k } else c
  let done := upd.filter fun c => c.op = 3 && c.mask = 0
  let s := setPrism s { s.prism with cmds := upd.filter fun c => !(c.op = 3 && c.mask = 0) }
  done.foldl (fun s c => prismDone s c.fire) s

/-- INTEGRATION_END (R337, R338, R346, R352–R354, R378). -/
def integrationEndSt (k : Nat) (ue : Option (Fin 64)) (s : State) : State :=
  let t := tapOf s k
  if !t.due then s
  else
    let s := (maskStreams t.mask).zipIdx.foldl (fun s (str, j) =>
      putSpec k j str (putSpec k j str s false) true) s
    let t := tapOf s k
    let fresh := (List.range 32).foldl (fun m j =>
      kset ChanAcc.init m j { ChanAcc.init with settle := (chanOf t j).settle, err := (chanOf t j).err }) ([] : KMap ChanAcc)
    let cfg := tapReg s k 0
    let resize := nbinLog cfg ≠ nbinLog t.cfg
    let nsets := bits cfg 25 24 + 1
    let dwell := t.dwell + 1
    let rot := decide (bits (tapReg s k 4) 7 0 < dwell) && decide (1 < nsets)
    let set' := if nsets = 1 then 0 else if rot then (t.set + 1) % nsets else t.set % nsets
    let s := setTap s k { t with
      cfg := cfg, set := set', dwell := if rot ∨ nsets = 1 then 0 else dwell, ints := (t.ints + 1) % 65536, frames := 0,
      due := false, closeReq := false, chans := fresh }
    let s := if resize then (List.range 64).foldl (fun s x => setStrm s (64 * k + x) StrmSt.init) s else s
    let new := tapSet s k set'
    let s := if new = (tapOf s k).mask then s else switchTap s k new ue
    serveClose s k

/-- TAP_SET_WRITE (R77, R334, R338): _LO is held, _HI commits the pair. -/
def tapSetSt (a : Acc) (k i : Nat) (hi : Bool) (v : Word) (s : State) : State :=
  let off := 0x180 + 0x40 * k + 0x10 + 8 * i
  if !hi then holdLo s a prismPage off v
  else
    let (held, s) := takeLo s a prismPage off
    let lo := held.getD (getReg s prismPage off)
    let m : Dword := BitVec.ofNat 64 (lo.toNat + 2 ^ 32 * v.toNat)
    if 32 < (maskStreams m).length then ownErr s prismPage 6 0x01 none
    else setReg (setReg s prismPage off lo) prismPage (off + 4) v

/-- TAP_CFG_WRITE (R378): the running integration closes at the next frame boundary. -/
def tapCfgSt (k : Nat) (v : Word) (s : State) : State :=
  let s := setReg s prismPage (0x180 + 0x40 * k) (v &&& 0x03771F0F)
  if enabled s prismPage ∧ !haTap s k then setTap s k { tapOf s k with closeReq := true }
  else setTap s k { tapOf s k with cfg := v &&& 0x03771F0F }

/-- MAXH_CLR (R348). -/
def maxhClrSt (k : Nat) (v : Word) (s : State) : State :=
  (List.range 64).foldl (fun s x =>
    let st := strmOf s (64 * k + x)
    setStrm s (64 * k + x) { st with
      holdRx := if bit v 0 then [] else st.holdRx, holdObs := if bit v 1 then [] else st.holdObs }) s

/-! ### Commands from slot graphs (R375–R377) -/

/-- The apply time of a command at device time: the signed difference of its slice (R19). -/
def applyAt (s : State) (f : FireRec) : Int :=
  let t : Word := w32 (f.p0.toNat / 2 ^ 32)
  (devNs s - sinceTarget s t) * (2 ^ 32 : Nat)

/-- PAYLOAD0 [31:0]. -/
def cmdWord (f : FireRec) : Word := w32 f.p0.toNat

/-- A command refused as late. -/
def prismLate (s : State) (f : FireRec) : State := failFire (setEvt s prismPage 6) prismPage f 0x01

/-- IDLE_WIN (R376). [DEDUCED, log 54] -/
def idleStart (f : FireRec) (s : State) : State :=
  let t := applyAt s f
  let len := bits (cmdWord f) 31 16
  if len = 0 then failFire s prismPage f 0x03
  else if t + (2 ^ 32 * 1000 * len : Nat) ≤ devTime s then prismLate s f
  else setPrism s { s.prism with cmds := s.prism.cmds ++
    [⟨f, 1, max t (devTime s), (t + (2 ^ 32 * 1000 * len : Nat) - max t (devTime s)).toNat,
      bits (cmdWord f) 3 0⟩] }

/-- IDLE_WIN_END (R375). -/
def idleEndSt (i : Nat) (s : State) : State :=
  match s.prism.cmds[i]? with
  | some c =>
    if c.op = 1 ∧ c.start + c.len ≤ devTime s then
      prismDone (setPrism s { s.prism with cmds := dropAt s.prism.cmds i }) c.fire
    else s
  | none => s

/-- FORCE_CAPTURE (R377). [DEDUCED, log 54] -/
def forceStart (f : FireRec) (s : State) : State :=
  let d := bits (cmdWord f) 5 0
  let t := applyAt s f
  let x := detSt s d
  let no := x.newest + (t - x.newestAt (devTime s)) / detDur s d 1
  if !detActive s d then failFire s prismPage f 0x03
  else if no - bits (detReg s d 0x1C) 12 0 ≤ x.newest - 4096 then prismLate s f
  else
    let c : Capture := ⟨d, s.prism.seq, 0x7FFF, t, no, 0, x.pn, true, false, 0, 0, some f⟩
    contend (setPrism s { s.prism with seq := (s.prism.seq + 1) % 65536 }) c

/-- SPEC_CLOSE (R376). [DEDUCED, log 54] -/
def closeStart (f : FireRec) (s : State) : State :=
  let m := (List.range 4).foldl (fun m k =>
    if bit (cmdWord f) k ∧ !haTap s k then m + 2 ^ k else m) 0
  if m = 0 then prismDone s f
  else setPrism s { s.prism with cmds := s.prism.cmds ++ [⟨f, 3, 0, 0, m⟩] }

/-- A fire on the PRISM pool with an opcode. -/
def prismFire (op : Nat) (start : FireRec → State → State) (f : FireRec) (s : State) : State :=
  if f.pool = 5 ∧ f.member = 0 ∧ f.opcode.toNat = op then fireRow prismPage 0x04 f start s else s

/-! ### Host-assisted export (R380, R381) -/

/-- The export ring. -/
def prismHaRing : Ring := ⟨prismPage, 0x140, 0x148, 0x14C, 0x150, 64, 6, 4, 12⟩

/-- A channel that the host assists. -/
def haChan (s : State) (c : Nat) : HaChan := kget HaChan.init s.prism.has c

/-- Stores a channel that the host assists. -/
def setHaChan (s : State) (c : Nat) (x : HaChan) : State :=
  setPrism s { s.prism with has := kset HaChan.init s.prism.has c x }

/-- HA_DEC of a tap. -/
def haDec (s : State) (k : Nat) : Nat := min 8 (bits (tapReg s k 0x38) 3 0)

/-- Position `j` of tap `k` is exported (R380). -/
def haExports (s : State) (k j : Nat) : Bool := haTap s k && enabled s prismPage && bit (tapReg s k 0x34) j

/-- A channel that the host assists takes the present lane sample of its stream and decimates it (R380). -/
def haTick (k : Nat) (s : State) (x : Nat × Nat) : State :=
  let (str, j) := x
  if !haExports s k j then setHaChan s (32 * k + j) HaChan.init
  else
    match (chainOf s k str).log with
    | [] => s
    | v :: _ =>
      if v.n ≠ laneNo s k then s
      else
        let c := haChan s (32 * k + j)
        let w := cxOfWord 15 (tapWord v)
        let (stages, o, _) := halfDown (haDec s k) v.n (toQ317 w).1 c.stages
        setHaChan s (32 * k + j) ⟨stages, match o with
          | some (m, y) => ⟨m, v.at_, (toQ115 (ofQ317 y)).1, v.flag⟩ :: c.buf
          | none => c.buf⟩

/-- HA_CHUNK (R380, R381): the oldest 1,024 samples of a channel, once they have come, are exported or dropped. -/
def haChunkSt (k str : Nat) (s : State) : State :=
  match ((maskStreams (tapOf s k).mask).take 32).idxOf? str with
  | none => s
  | some j =>
    let ch := 32 * k + j
    let c := haChan s ch
    let xs := c.buf.reverse.take 1024
    if !haExports s k j ∨ xs.length < 1024 then s
    else
      let gap := kget 0 s.prism.gaps ch
      let s := setHaChan s ch { c with buf := c.buf.take (c.buf.length - 1024) }
      if prismHaRing.full s ∨ bufFree s prismPage 0x154 < 4096 then
        setPrism (setEvt (incCnt s prismPage 11) prismPage 7)
          { s.prism with gaps := kset 0 s.prism.gaps ch (min 255 (gap + 1)) }
      else
        let t := (xs.head?.map (·.at_)).getD 0
        let (s, off) := bufPush s prismPage 0x154 12 (wordsBytes (xs.map (·.x)))
        let s := prismHaRing.push s (wordsBytes ([w32 (gap * 2 ^ 24 + (if xs.any (·.obs) then 2 ^ 16 else 0) + ch * 256 +
          (64 * k + str)), w32 (haDec s k)] ++ secNs t ++ [w32 off] ++ List.replicate 11 0))
        setPrism (incCnt s prismPage 10) { s.prism with gaps := kset 0 s.prism.gaps ch 0 }

/-- Prism takes the present lane sample of DFE `k`: the detectors of its streams, and the channels that the host assists. -/
def prismTick (k : Nat) (s : State) : State :=
  if !blockRuns s prismPage then s else
  let s := ((List.range 64).filter fun d => decide (detStream s d / 64 = k)).foldl detTick s
  if haTap s k then ((maskStreams (tapOf s k).mask).take 32).zipIdx.foldl (haTick k) s else s

/-! ### Enabling, disabling and reset -/

/-- CTRL.ENABLE goes from 0 to 1 (R362): every buffer is free; a ring or buffer size outside its range is captured
(R383). -/
def prismEnable (s : State) : State :=
  let ok (off lo hi : Nat) : Bool := decide (lo ≤ bits (getReg s prismPage off) 4 0) &&
    decide (bits (getReg s prismPage off) 4 0 ≤ hi)
  let s := if ok 0x108 16 30 && ok 0x11C 4 14 && ok 0x148 4 12 && ok 0x15C 16 30 then s
    else ownErr s prismPage 6 0x04 none
  let s := setPrism s { s.prism with held := [] }
  (List.range 4).foldl (fun s k => setTap s k { TapSt.init with
    cfg := tapReg s k 0, mask := tapSet s k 0, next := laneNo s k + 1 }) s

/-- CTRL.ENABLE is cleared (R379): integrations close at the next frame boundary, captures close TRUNCATED. -/
def prismDisable (s : State) : State :=
  let s := s.prism.caps.foldl (fun s c => closeCapture s c 3 (samplesNow s c) 0) s
  (List.range 4).foldl (fun s k => setTap s k { tapOf s k with closeReq := !haTap s k }) s

/-- A soft reset (R58, R379): captures end without records, commands with error tokens. -/
def prismDrop (s : State) : State :=
  let s := (s.prism.cmds.map (·.fire) ++ s.prism.caps.filterMap (·.fire)).foldl
    (fun s f => failFire s prismPage f 0x11) s
  setPrism s PrismSt.init

/-! ### Meanings -/

/-- TAP_SET_WRITE (R334). -/
def execTapSetWrite (a : Acc) (k i : Fin 4) (hi : Bool) (v : Word) (s : State) :
    Host.Outcome State Fault Refusal :=
  .next (onPage a prismPage (0x190 + 0x40 * k + 8 * i + if hi then 4 else 0) (tapSetSt a k i hi v) s)

/-- FRAME_END (R345). -/
def execFrameEnd (k : Fin 4) (bad : Bool) (j : Fin 32) (s : State) : Host.Outcome State Fault Refusal :=
  .next (whileRuns prismPage (frameEndSt k bad j) s)

/-- INTEGRATION_END (R346). -/
def execIntegrationEnd (k : Fin 4) (ue : Option (Fin 64)) (s : State) : Host.Outcome State Fault Refusal :=
  .next (whileRuns prismPage (integrationEndSt k ue) s)

/-- TAP_CFG_WRITE (R378). -/
def execTapCfgWrite (a : Acc) (k : Fin 4) (v : Word) (s : State) : Host.Outcome State Fault Refusal :=
  .next (onPage a prismPage (0x180 + 0x40 * k) (tapCfgSt k v) s)

/-- MAXH_CLR (R348). -/
def execMaxhClr (a : Acc) (k : Fin 4) (v : Word) (s : State) : Host.Outcome State Fault Refusal :=
  .next (onPage a prismPage (0x1B0 + 0x40 * k) (maxhClrSt k v) s)

/-- DET_ENABLE (R355). -/
def execDetEnable (a : Acc) (d : Fin 64) (v : Word) (s : State) : Host.Outcome State Fault Refusal :=
  .next (onPage a (detLoc d).1 (detLoc d).2 (detEnableSt d (putBit v 0 true)) s)

/-- DETECTION (R360). [DESIGN CHOICE, log 8] -/
def execDetection (ues : List (Fin 64)) (s : State) : Host.Outcome State Fault Refusal :=
  .next (whileRuns prismPage (detectionSt (ues.map (·.val))) s)

/-- CONF_WINDOW_END (R366). -/
def execConfWindowEnd (d : Fin 64) (ue : Bool) (s : State) : Host.Outcome State Fault Refusal :=
  .next (whileRuns prismPage (if ue then (fun s => detStoreUe s d) else confEndSt d) s)

/-- CAPTURE_COMPLETE (R371). -/
def execCaptureComplete (d : Fin 64) (s : State) : Host.Outcome State Fault Refusal :=
  .next (whileRuns prismPage (captureDoneSt d) s)

/-- BUF_RELEASE (R365). -/
def execBufRelease (a : Acc) (v : Word) (s : State) : Host.Outcome State Fault Refusal :=
  .next (onPage a prismPage 0x138 (bufReleaseSt v) s)

/-- IDLE_WIN (R376). -/
def execIdleWin (f : FireRec) (s : State) : Host.Outcome State Fault Refusal := .next (prismFire 1 idleStart f s)

/-- IDLE_WIN_END (R375). -/
def execIdleWinEnd (i : Nat) (s : State) : Host.Outcome State Fault Refusal := .next (whileRuns prismPage (idleEndSt i) s)

/-- FORCE_CAPTURE (R377). -/
def execForceCapture (f : FireRec) (s : State) : Host.Outcome State Fault Refusal :=
  .next (prismFire 2 forceStart f s)

/-- SPEC_CLOSE (R376). -/
def execSpecClose (f : FireRec) (s : State) : Host.Outcome State Fault Refusal :=
  .next (prismFire 3 closeStart f s)

/-- HA_CHUNK (R380). -/
def execHaChunk (k : Fin 4) (q sl : Fin 8) (s : State) : Host.Outcome State Fault Refusal :=
  .next (whileRuns prismPage (haChunkSt k (8 * q + sl)) s)

end Sys2Proof.Machine
end

