-- ==== Sys2Proof/Machine/Time.lean ====
section
/-! DEFINITION. The time unit (R738–R762): reads that latch, corrections, compare units, snapshots (R85–R90), 1PPS. -/

namespace Sys2Proof.Machine

/-- Changes the time unit. -/
def modTime (s : State) (f : TimeSt → TimeSt) : State := { s with time := f s.time }

/-- NOW_FRAC (R738). -/
def nowFrac (s : State) : Word := w32 ((devTime s % (2 ^ 32 : Nat)).toNat / 2 ^ 16)

/-- INCR in units of 2⁻³² ns for each cycle (R743). -/
def incr (s : State) : Nat := (getReg s 0x003 0x11C).toNat + 2 ^ 32 * bits (getReg s 0x003 0x120) 3 0

/-- One 983.04 MHz cycle: FREE counts, and INCR enters the accumulator (R739, R740), unless CD19 stands still (R799).
[DESIGN CHOICE, log 5] -/
def timeTick (s : State) : State :=
  if pllOn s 19 then modTime s fun t => { t with free := t.free + 1, made := t.made + 1, acc := t.acc + incr s }
  else modTime s fun t => { t with free := t.free + 1 }

/-! ### Reads that latch (R742, R760) -/

/-- NOW_SEC_LO read: the other fields of the same cycle go to the path's holding registers. -/
def nowSecRead (a : Acc) (s : State) : Word × State :=
  let s' := setHold s (holdRdKey a 0x003) (w32 (devSec s / 2 ^ 32))
  let s' := setHold s' (holdTimeKey a 0x108) (w32 (devNsPart s))
  (w32 (devSec s), setHold s' (holdTimeKey a 0x10C) (nowFrac s))

/-- PPS_IN_SEC read. -/
def ppsSecRead (a : Acc) (s : State) : Word × State :=
  (getReg s 0x003 0x148, setHold s (holdTimeKey a 0x14C) (getReg s 0x003 0x14C))

/-! ### 1PPS output (R762) -/

/-- PPS_OUT_OFF in ns. -/
def ppsOff (s : State) : Int := (getReg s 0x003 0x154).toInt

/-- The next whole second of device time plus PPS_OUT_OFF. [DEDUCED, log 108] -/
def ppsRearm (s : State) : State := modTime s fun t => { t with ppsNext := (devNs s + ppsOff s) / 1000000000 + 1 }

/-- PPS_OUT_CFG written. [DEDUCED, log 108] -/
def ppsOutCfg (v : Word) (s : State) : State :=
  let s := setReg s 0x003 0x150 (v &&& 0x800FFFFF)
  if bit v 31 then ppsRearm (modTime s fun t => { t with ppsDriven := true })
  else modTime s fun t => { t with ppsOut := false }

/-- PPS_OUT_RISE. -/
def ppsRiseSt (s : State) : State :=
  if bit (getReg s 0x003 0x150) 31 ∧ s.time.ppsNext * 1000000000 ≤ devNs s + ppsOff s then
    modTime s fun t => { t with ppsOut := true, ppsRise := devNs s, ppsNext := t.ppsNext + 1 }
  else s

/-- PPS_OUT_FALL: WIDTH µs later. -/
def ppsFallSt (s : State) : State :=
  if s.time.ppsOut ∧ s.time.ppsRise + 1000 * (max 1 (bits (getReg s 0x003 0x150) 19 0) : Nat) ≤ devNs s then
    modTime s fun t => { t with ppsOut := false }
  else s

/-! ### Corrections (R743–R747) -/

/-- INCR_COMMIT (R743). -/
def incrCommitSt (a : Acc) (v : Word) (s : State) : State :=
  let (held, s) := takeLo s a 0x003 0x11C
  let lo := held.getD (getReg s 0x003 0x11C)
  let n := lo.toNat + 2 ^ 32 * bits v 3 0
  let nom := 2 ^ 32 * 3125
  if n * 3072 * 1000 < nom * 999 ∨ nom * 1001 < n * 3072 * 1000 then ownErr (setEvt s 0x003 4) 0x003 6 0x01 none
  else setReg (setReg s 0x003 0x11C lo) 0x003 0x120 (v &&& 0xF)

/-- Device time steps to a new offset; 1PPS_OUT follows it (R762). -/
def timeStep (off : Int) (s : State) : State := ppsRearm (modTime s fun t => { t with off := off })

/-- ADJ_NS (R744). -/
def adjNsSt (v : Word) (s : State) : State := timeStep (s.time.off + v.toInt * (2 ^ 32 : Nat)) s

/-- A register of compare unit `n` (R764). -/
def tcReg (s : State) (n off : Nat) : Word := getReg s 0x260 (0x40 * n + off)

/-- Stores a compare unit's register. -/
def setTc (s : State) (n off : Nat) (v : Word) : State := setReg s 0x260 (0x40 * n + off) v

/-- A compare unit is armed; a write of ARM = 0 takes effect in the cycle after it (R753). -/
def tcArmed (s : State) (n : Nat) : Bool := bit (tcReg s n 0) 31 || decide (kget none s.time.lapse n = some s.time.free)

/-- TC_FIRED of a unit. -/
def tcFired (s : State) (n : Nat) : Bool := bit (getReg s 0x003 (0x158 + 4 * (n / 32))) (n % 32)

/-- TC_FIRE: any TC_FIRED bit of a unit with EVT_EN = 1 (R763). -/
def tcLevel (s : State) : State :=
  modReg s 0x003 0x14 fun w => putBit w 7 ((List.range 64).any fun n => tcFired s n && bit (tcReg s n 0) 25)

/-- SET_GO (R745). -/
def setGoSt (s : State) : State :=
  let sec := (getReg s 0x003 0x128).toNat + 2 ^ 32 * (getReg s 0x003 0x12C).toNat
  let ns := min 999999999 (bits (getReg s 0x003 0x130) 29 0)
  let s := (List.range 64).foldl (fun s n => setTc s n 0 (putBit (tcReg s n 0) 31 false)) s
  timeStep ((2 ^ 32 * (1000000000 * sec + ns) : Nat) - (s.time.acc : Int)) (setEvt (modTime s fun t => { t with lapse := [] }) 0x003 5)

/-! ### Compare units (R748–R754) -/

/-- TC_CTRL of unit `n` written (R749, R753, R754). [DEDUCED, log 107] -/
def tcCtrlWrite (n : Nat) (v : Word) (s : State) : State :=
  let v := v &&& 0xC300000F
  let old := tcReg s n 0
  let per := (tcReg s n 8).toNat
  if tcArmed s n then
    let s := if bit v 30 = bit old 30 then s else setEvt s 0x003 6
    let s := if bit v 31 then s else modTime s fun t => { t with lapse := kset none t.lapse n (some t.free) }
    tcLevel (setTc s n 0 (putBit v 30 (bit old 30)))
  else if bit v 31 ∧ bit v 30 ∧ (per < 1000 ∨ 2 ^ 31 ≤ per) then
    tcLevel (ownErr (setTc s n 0 (putBit v 31 false)) 0x003 6 0x02 none)
  else
    let s := if bit v 31 then modTime s fun t => { t with fracs := kset 0 t.fracs n 0 } else s
    tcLevel (setTc s n 0 v)

/-- A write to another register of unit `n`: ignored while it is armed (R753). -/
def tcHeldWrite (n off : Nat) (v : Word) (s : State) : State :=
  if tcArmed s n then setEvt s 0x003 6 else setTc s n off v

/-- R90: the snapshot trigger fires. -/
def snapTrigger (s : State) : State :=
  let early := match s.time.lastBcast with
    | some t => !usSince s t 10
    | none => false
  if early then setEvt s 0x003 0
  else
    let q := (s.time.snapSeq + 1) % 65536
    modTime s fun t => { t with lastBcast := some t.free, snapSeq := q, snaps := t.snaps ++ [⟨q, t.free, false⟩] }

/-- The token of a fire of unit `n` (R127, R750). -/
def tcToken (s : State) (n : Nat) : Token :=
  let w := tcReg s n 0x10
  let i := tcReg s n 0x14
  let at_ := devNs s - sinceTarget s (tcReg s n 4)
  ⟨BitVec.ofNat 16 (bits w 31 16), BitVec.ofNat 16 (bits i 31 16 + bits i 11 0), BitVec.ofNat 2 (bits w 15 14), 0, 0x40, 0,
    BitVec.ofNat 64 (2 ^ 32 * wrapN 32 (at_ / 1000000000) + (at_ % 1000000000).toNat)⟩

/-- R749: a periodic unit's next target. [DEDUCED, log 107] -/
def tcNext (n : Nat) (s : State) : State :=
  let p := (tcReg s n 8).toNat * 2 ^ 16 + bits (tcReg s n 0xC) 15 0
  let t := (tcReg s n 4).toNat * 2 ^ 16 + kget 0 s.time.fracs n + p
  let d := sinceTarget s (w32 (t / 2 ^ 16))
  let k : Nat := if d < 0 ∨ p = 0 then 0 else (((d.toNat + 1) * 2 ^ 16 - t % 2 ^ 16) + p - 1) / p
  let t := t + k * p
  let s := modTime (setTc s n 4 (w32 (t / 2 ^ 16))) fun x => { x with fracs := kset 0 x.fracs n (t % 2 ^ 16) }
  if k = 0 then s
  else setEvt (addCnt (setTc s n 0x18 (w32 (satAdd 0xFFFF (tcReg s n 0x18).toNat k))) 0x003 2 k) 0x003 3

/-- TCMP_FIRE (R748–R752). -/
def tcmpFireSt (n : Nat) (s : State) : State :=
  if !tcArmed s n ∨ sinceTarget s (tcReg s n 4) < 0 then s
  else
    let c := tcReg s n 0
    let tok := tcToken s n
    let s := modTime s fun t => { t with lapse := kset none t.lapse n none }
    let idx := bits (tcReg s n 0x14) 11 0
    let s := setTc s n 0x14 (putBits (tcReg s n 0x14) 11 0 ((idx + 1) % 2 ^ min 12 (bits c 3 0)))
    let s := if bit c 24 then
        incCnt { s with disp := { s.disp with ingress := s.disp.ingress ++ [(tok, bits (tcReg s n 0x10) 1 0)] } } 0x003 1
      else s
    let s := modReg s 0x003 (0x158 + 4 * (n / 32)) fun w => putBit w (n % 32) true
    let s := incCnt (setTc s n 0x1C (tcReg s n 0x1C + 1)) 0x003 0
    let sel := getReg s 0x003 0x140
    let s := if bit sel 6 ∧ bits sel 5 0 = n then snapTrigger s else s
    let s := if bit c 30 then tcNext n s else setTc s n 0 (putBit c 31 false)
    dmaTime n (tcLevel s)

/-! ### 1PPS input (R760, R761) -/

/-- PPS_IN_EDGE. -/
def ppsInSt (rising : Bool) (s : State) : State :=
  let c := getReg s 0x003 0x144
  if !bit c 31 ∨ bit c 30 = rising then s
  else
    let t := devNs s - signed 16 (bits c 15 0)
    let s := setReg s 0x003 0x148 (w32 (wrapN 32 (t / 1000000000)))
    let s := setReg s 0x003 0x14C (w32 (t % 1000000000).toNat)
    modTime (incCnt (setEvt s 0x003 1) 0x003 3) fun x => { x with ppsIn := some x.free }

/-- PPS_LOSS. -/
def ppsLossSt (s : State) : State :=
  match s.time.ppsIn with
  | none => s
  | some t =>
    if bit (getReg s 0x003 0x144) 31 ∧ usSince s t 1100000 then
      ownErr (setEvt (modTime s fun x => { x with ppsIn := none }) 0x003 2) 0x003 4 0x03 none
    else s

/-- R58: TIME's registers return to their reset values and act so; device time runs on (R738). -/
def timeDrop (s : State) : State := modTime s fun t => { t with ppsOut := false, fracs := [], lapse := [] }

/-! ### Commands -/

/-- NOW_SEC_LO_READ (R742). -/
def execNowSecLoRead (a : Acc) (s : State) : Host.Outcome State Fault Refusal := .next (onRead a 0x003 0x100 (nowSecRead a) s)

/-- PPS_IN_SEC_READ (R760). -/
def execPpsInSecRead (a : Acc) (s : State) : Host.Outcome State Fault Refusal := .next (onRead a 0x003 0x148 (ppsSecRead a) s)

/-- INCR_COMMIT (R743). -/
def execIncrCommit (a : Acc) (v : Word) (s : State) : Host.Outcome State Fault Refusal :=
  .next (onPage a 0x003 0x120 (incrCommitSt a v) s)

/-- ADJ_NS (R744). -/
def execAdjNs (a : Acc) (v : Word) (s : State) : Host.Outcome State Fault Refusal := .next (onPage a 0x003 0x124 (adjNsSt v) s)

/-- SET_GO (R745). -/
def execSetGo (a : Acc) (s : State) : Host.Outcome State Fault Refusal := .next (onPage a 0x003 0x134 setGoSt s)

/-- TCMP_ARM (R754). -/
def execTcmpArm (a : Acc) (n : Fin 64) (v : Word) (s : State) : Host.Outcome State Fault Refusal :=
  .next (onPage a 0x260 (0x40 * n) (tcCtrlWrite n (putBit v 31 true)) s)

/-- TCMP_FIRE (R748). [DESIGN CHOICE, log 2] -/
def execTcmpFire (n : Fin 64) (s : State) : Host.Outcome State Fault Refusal := .next (whileRuns 0x003 (tcmpFireSt n) s)

/-- PPS_IN_EDGE (R760). -/
def execPpsInEdge (rising : Bool) (s : State) : Host.Outcome State Fault Refusal := .next (whileRuns 0x003 (ppsInSt rising) s)

/-- PPS_LOSS (R761). -/
def execPpsLoss (s : State) : Host.Outcome State Fault Refusal := .next (whileRuns 0x003 ppsLossSt s)

/-- PPS_OUT_RISE (R762). -/
def execPpsOutRise (s : State) : Host.Outcome State Fault Refusal := .next (whileRuns 0x003 ppsRiseSt s)

/-- PPS_OUT_FALL (R762). -/
def execPpsOutFall (s : State) : Host.Outcome State Fault Refusal := .next (whileRuns 0x003 ppsFallSt s)

end Sys2Proof.Machine
end

