-- ==== Sys2Proof/Machine/Blocks.lean ====
section
/-! DEFINITION. What every block does at its enable, its disable, its soft reset and at the loss of its power (R53–R58,
R768), and STATUS.BUSY of its page. -/

namespace Sys2Proof.Machine

/-- The extension pages that a page's block owns (R50). -/
def extPages (p : Nat) : List Nat :=
  match pageKind p with
  | some .dma => (List.range 4).map (0x200 + 4 * (p - 0x0D8) + ·)
  | some .tm => (List.range 64).map (0x220 + ·)
  | some .time => [0x260]
  | some .prism => [0x261, 0x262, 0x263, 0x264]
  | some .disp => (List.range 8).map (0x268 + ·)
  | _ => []

/-- The block that owns page `p` ends what it has accepted (R58 step 2) and its own state returns to the state after
reset. -/
def blockDrop (p : Nat) (s : State) : State :=
  let s := match pageKind p with
    | some .evtc => evtDrop s
    | some .disp => { s with disp := { DispSt.init with stopped := s.disp.stopped } }
    | some .time => timeDrop s
    | some .mring => modFab s fun f => { f with flip := none, ringReqs := [] }
    | some .pcie => pcieDrop s
    | some .pkt => pktDrop s
    | some .tm => tmDrop s
    | some .cuw => { s with cuw := CuwSt.init }
    | some .prism => prismDrop s
    | some .secmb => { s with boot := { s.boot with hostMb := ⟨none⟩, svMb := ⟨none⟩ } }
    | some .cluster => clusterDrop (p - 0x010) s
    | some .mxc => mxDrop (p - 0x020) s
    | some .core => coreDrop (p - 0x030) s
    | some .svc => coreDrop (144 + (p - 0x0C0)) s
    | some .dfe => calAbortAll (p - 0x0C8) (dfeDrop (p - 0x0C8) s)
    | some .ofdm => ofdmDrop s (p - 0x0CC)
    | some .fec => fecDrop s (p - 0x0D0)
    | some .dma => dmaDrop (p - 0x0D8) s
    | some .dramc => if p = 0x0E0 then dramDrop s else s
    | some .ssram => if p = 0x0F0 then modMemc s fun m => { m with repairing := none } else s
    | some .rtr => rtrDrop (p - 0x0F8) s
    | some .xlane => linkDrop (p - 0x100) s
    | some .xspare => subDrop (p - 0x120) s
    | some .pmbus => { s with clk := { s.clk with pendOp := none } }
    | _ => s
  let s := (List.range 4).foldl (fun s l => { s with lanes := kset LaneSt.init s.lanes (p * 4 + l) LaneSt.init }) s
  let held := s.unowned.filter fun u => u.1 = p
  held.foldl (fun s u => failFire s p u.2 0x11) { s with unowned := s.unowned.filter fun u => !decide (u.1 = p) }

/-- The offsets that a soft reset leaves (R58 step 3), with those whose value is a level of the outside world or a
cause of the reset itself (R51, R821, R825, R830, R799). [DEDUCED, log 19] -/
def softKeeps (p off : Nat) : Bool :=
  decide (off = 0x20 ∨ off = 0x24 ∨ off = 0x28 ∨ off = 0x40 ∨ (0x80 ≤ off ∧ off < 0x100)) ||
  [(0x001, 0x148), (0x005, 0x180), (0x005, 0x1A4), (0x006, 0x100), (0x008, 0x110), (0x00D, 0x100), (0x00D, 0x114), (0x00E, 0x108)].contains
    (p, off)

/-- Every register of a page and of the block's extension pages but those of `keep` takes its reset value, and the
page's holding registers (R74) are empty. -/
def resetRegs (p : Nat) (keep : Nat → Bool) (s : State) : State :=
  let s := { s with
    regs := (extPages p).foldl (fun m e => dropRegs e (fun _ => false) m) (dropRegs p keep s.regs)
    holdRd := s.holdRd.filter fun e => !decide (e.1 / 4 = p ∨ (p = 0x003 ∧ 2 ^ 16 ≤ e.1))
    holdWr := s.holdWr.filter fun e => !decide (e.1 / 4 / 4096 = p) }
  s

/-- A block awaits a fabric response for an operation that it has accepted (R885). [DEDUCED, log 19] -/
def awaitsFabric (s : State) (p : Nat) : Bool :=
  s.fab.reqs.any fun r => (match r.who with
    | .page q => decide (q.val = p)
    | _ => false) && !r.dead

/-- Steps 2 and 3 of R58, with CTRL.SOFT_RESET and STATUS.RESETTING still set. A DMA engine performs them once its responses
have come (R622). -/
def softSteps (p : Nat) (s : State) : State :=
  let s := if pageKind p = some .dma then dmaQuell (p - 0x0D8) s else s
  let s := if pageKind p = some .dma ∧ awaitsFabric s p then s else resetRegs p (softKeeps p) (blockDrop p s)
  setReg (setReg s p 0x08 2) p 0x10 4

/-- CTRL.SOFT_RESET is set (R58): the three steps, after which the block awaits what the fabric still owes it (R885).
[DEDUCED, log 19] -/
def softResetSt (p : Nat) (s : State) : State :=
  if p = 0x000 ∨ 0x200 ≤ p ∨ resetting s p then s else softSteps p s

/-- The soft reset completes (R885). [DEDUCED, log 19] -/
def softDoneSt (p : Nat) (s : State) : State :=
  if !resetting s p || awaitsFabric s p then s
  else setReg (setReg (softSteps p s) p 0x08 0) p 0x10 0

/-- STATUS.BUSY: the block has accepted an operation that is not complete (R53). [DEDUCED, log 20] -/
def pageBusy (s : State) (p : Nat) : Bool :=
  s.unowned.any (fun u => decide (u.1 = p)) ||
  match pageKind p with
  | some .disp => !s.disp.entries.isEmpty || !s.disp.fires.isEmpty || s.disp.loading
  | some .mring => s.fab.flip.isSome || !s.fab.ringReqs.isEmpty
  | some .pcie => !s.pcie.fires.isEmpty || !s.pcie.queue.isEmpty
  | some .pkt => !s.pkt.jobs.isEmpty
  | some .tm => !s.tm.input.isEmpty || !s.tm.queues.isEmpty
  | some .cuw => cuwWork s
  | some .prism => !s.prism.caps.isEmpty || !s.prism.cmds.isEmpty
  | some .secmb => s.boot.hostMb.cmd.isSome || s.boot.svMb.cmd.isSome
  | some .boot => s.boot.flBusy
  | some .pmbus => s.clk.pendOp.isSome
  | some .clkc => s.clk.cds.any fun c => c.2.busy
  | some .pwrc => (List.range 48).any fun n => (pdRec s n).cur = .trans
  | some .cluster => (kget none s.spareJobs (p - 0x010)).isSome
  | some .mxc => mxBusy s (p - 0x020)
  | some .core => coreBusy s (p - 0x030)
  | some .svc => coreBusy s (144 + (p - 0x0C0))
  | some .dfe => dfeBusy s (p - 0x0C8) ||
      (List.range 4).any fun m => (kget none s.cal (4 * (p - 0x0C8) + m)).isSome
  | some .ofdm => !(ofdmOf s (p - 0x0CC)).ops.isEmpty
  | some .fec => !(fecOps s (p - 0x0D0)).isEmpty
  | some .dma => dmaBusy s (p - 0x0D8)
  | some .dramc => decide (p = 0x0E0) && (s.memc.init || s.memc.fc.isSome || !s.memc.fcWaiting.isEmpty)
  | some .ssram => decide (p = 0x0F0) && s.memc.repairing.isSome
  | _ => false

/-- STATUS as it reads. [DEDUCED, log 20; DEDUCED, log 23] -/
def statusReg (s : State) (p : Nat) : Word := putBit (getReg s p 0x10) 1 (pageBusy s p)

/-- CTRL.ENABLE rises (R57): the mode of MODE.FUNC is in force, and the block accepts work. Pages with an enable of their own
have it here: the dispatcher is enabled once its templates are loaded (R94), DRAMC1–15 follow DRAMC0 (R638), DEVINFO has none
(R51), a DU-end has no front end (R31), and the PMBus page is enabled by PMBUS_ENABLE (R860). [DEDUCED, log 20; DEDUCED, log 23]
-/
def enableSt (p : Nat) (s : State) : State :=
  let kind := pageKind p
  if p = 0x000 ∨ 0x200 ≤ p ∨ ctrlEnable s p then s
  else if resetting s p then modReg s p 0x08 fun w => putBit w 0 true
  else if kind = some .dramc then (if p = 0x0E0 then dramEnableSt s else s)
  else if (kind = some .dfe ∨ kind = some .prism) ∧ duEnd s then s
  else if p = 0x00F then modReg s p 0x08 fun w => putBit w 0 true
  else
    let s := modReg s p 0x08 fun w => putBit w 0 true
    let s := modReg s p 0x10 fun w => putBit (putBit w 0 (kind != some .disp)) 3 (bit (getReg s p 0x0C) 0)
    match kind with
    | some .disp => { s with disp := { s.disp with loading := true } }
    | some .cuw => cuwHandshake s
    | some .prism => prismEnable s
    | some .core => coreEnable (p - 0x030) s
    | some .svc => coreEnable (144 + (p - 0x0C0)) s
    | some .dfe => dfeEnable (p - 0x0C8) s
    | some .xlane => linkEnable (p - 0x100) s
    | _ => s

/-- CTRL.ENABLE falls (R55): the block accepts no more and completes what it has accepted. [DEDUCED, log 20] -/
def disableSt (p : Nat) (s : State) : State :=
  if p = 0x000 ∨ 0x200 ≤ p ∨ !ctrlEnable s p then s
  else if resetting s p then modReg s p 0x08 fun w => putBit w 0 false
  else
    let s := modReg s p 0x08 fun w => putBit w 0 false
    let s := modReg s p 0x10 fun w => putBit w 0 false
    match pageKind p with
    | some .disp => { s with disp := { s.disp with loading := false } }
    | some .cuw => cuwSettle (if s.cuw.st = 3 ∨ s.cuw.st = 4 then s else { s with cuw := CuwSt.init })
    | some .prism => prismDisable s
    | some .core => coreStop (p - 0x030) s
    | some .svc => coreStop (144 + (p - 0x0C0)) s
    | some .dfe => calAbortAll (p - 0x0C8) s
    | some .dma => dmaPageDisable (p - 0x0D8) s
    | some .xlane => linkDrop (p - 0x100) s
    | _ => s

/-! ### Domains (R765–R770) -/

/-- The pages of a domain. -/
def domainPages (n : Nat) : List Nat :=
  (List.range 512).filter fun p => (pageKind p).isSome && decide (pageDomain p = n)

/-- The memory keys of retention bank `b` of domain `n` (R625, R765): first and end. -/
def bankRange (n b : Nat) : Nat × Nat :=
  if n = 44 then (0x001300000000 + b * 0x100000, 0x001300000000 + (b + 1) * 0x100000)
  else if b < 16 then
    (0x001100000000 + n * 0x01000000 + b * 0x40000, 0x001100000000 + n * 0x01000000 + (b + 1) * 0x40000)
  else
    let k := coreKey (9 * n + (b - 16) / 5) ((b - 16) % 5 * 0x20000)
    (k, k + 0x20000)

/-- The banks of domain `n` that `lost` names hold zeros with valid check bits (R767, R768). -/
def zeroBanks (n : Nat) (lost : BitVec 64) (s : State) : State :=
  ((List.range 64).filter fun b => lost.getLsbD b).foldl (fun s b => zeroRange (bankRange n b).1 (bankRange n b).2 s) s

/-- A page loses its power (R768): block, registers and counters. -/
def pageOffSt (p : Nat) (s : State) : State :=
  let s := match pageKind p with
    | some .mxc => mxOff (p - 0x020) s
    | some .nlane | some .klane | some .xspare => (List.range 4).foldl (fun s l => laneDomain p l 0 s) s
    | some .xlane => (List.range 4).foldl (fun s l => laneDomain p l 0 s) (linkDrop (p - 0x100) s)
    | _ => s
  let s := resetRegs p (fun _ => false) (blockDrop p s)
  { s with cnt := s.cnt.filter fun e => !decide (e.1 / 32 = p) }

/-- An array key belongs to a page of domain `n`. -/
def arrOfDomain (n arr : Nat) : Bool := decide (pageDomain (arr / 256) = n)

/-- Domain `n` has reached OFF (R768): every page, every bank, the mirror map, the field repairs; the fused repairs stay. -/
def domainOff (n : Nat) (s : State) : State :=
  let s := (domainPages n).foldl (fun s p => pageOffSt p s) s
  let s := zeroBanks n (retBits n) s
  let s := if n < 16 then { s with coreMap := kset none s.coreMap n none } else s
  let s := modMemc s fun m => { m with
    rowFixes := m.rowFixes.filter fun f => !arrOfDomain n f.arr, spares := m.spares.filter fun e => !arrOfDomain n e.1 }
  (s.fuses.repairs.filter fun r => arrOfDomain n r.1).foldl (fun s r => (moveRow r.1 r.2 s).1) s

/-- The cores of a cluster in WAIT go on at the bundle after it (R767). -/
def resumeWaits (n : Nat) (s : State) : State :=
  (List.range 9).foldl (fun s i => modCore s (9 * n + i) fun x => if x.run = .wait then { x with run := .running } else x) s

/-- Domain `n` has reached RETAIN: banks outside the mask in force hold zeros; lanes are in DEEP (R770). -/
def domainRetain (n : Nat) (s : State) : State :=
  let s := zeroBanks n (retBits n &&& ~~~(pdRec s n).kept) s
  if 45 ≤ n then (domainPages n).foldl (fun s p => (List.range 4).foldl (fun s l =>
    if pageKind p = some .pkt ∨ pageKind p = some .tm ∨ pageKind p = some .cuw then s else laneDomain p l 1 s) s) s
  else s

/-- Domain `n` has reached ON: a cluster's waits end, lanes return to the state that LN_CTRL asks for, and converter
links align again (R767, R770). -/
def domainOn (n : Nat) (s : State) : State :=
  if n < 16 then resumeWaits n s
  else if 45 ≤ n then
    let s := (domainPages n).foldl (fun s p => (List.range 4).foldl (fun s l =>
      if pageKind p = some .pkt ∨ pageKind p = some .tm ∨ pageKind p = some .cuw then s else laneDomain p l 2 s) s) s
    if n = 45 then (List.range 32).foldl (fun s q => linkResume q s) s else s
  else s

/-! ### Stores into registers (R12, R15) -/

/-- What a write of `v` leaves of the bits `m` of one access code. -/
def applyAcc (locked : Bool) (acc : Access) (m old v : Word) : Word :=
  match acc with
  | .rw => (old &&& ~~~m) ||| (v &&& m)
  | .rwl => if locked then old else (old &&& ~~~m) ||| (v &&& m)
  | .w1c => old &&& ~~~(v &&& m)
  | .w1s => old ||| (v &&& m)
  | .ro | .wo | .rc => old

/-- The value that a write of `v` leaves in a register with the fields of `d` (R12, R15). -/
def applyDef (locked : Bool) (d : RegDef) (old v : Word) : Word :=
  applyAcc locked d.acc2 (w32 d.mask2) (applyAcc locked d.acc (w32 d.mask) old v) v

/-- A write that does what the access codes of the register say (R12). -/
def storeReg (p off i : Nat) (v : Word) (s : State) : State :=
  match findReg p off with
  | some d => setRegI s p off i (applyDef (ctrlEnable s p) d (getRegI s p off i) v)
  | none => s

end Sys2Proof.Machine
end

