-- ==== Sys2Proof/Machine/Record.lean ====
section
/-! DEFINITION. The board's flash, and the calibration record in force: its pointer, its check, and what is loaded from it
after a reset (R403–R407, R409, R414, R636). -/

namespace Sys2Proof.Machine

/-- The boot record with `f` applied. -/
def modBoot (s : State) (f : BootSt → BootSt) : State := { s with boot := f s.boot }

/-! ### The board's flash -/

/-- A byte of the board's flash; erased flash reads 0xFF. [DESIGN CHOICE, log 14] -/
def flashByte (s : State) (a : Nat) : Byte := kget 0xFF s.boot.flash a

/-- Bytes of the board's flash. -/
def flashBytes (s : State) (a n : Nat) : List Byte := (List.range n).map fun i => flashByte s (a + i)

/-- Flash bytes are programmed: bits only clear (R838). -/
def flashProgram (a : Nat) (bs : List Byte) (s : State) : State :=
  (List.zipIdx bs).foldl (fun s (x, i) =>
    modBoot s fun b => { b with flash := kset 0xFF b.flash (a + i) (kget 0xFF b.flash (a + i) &&& x) }) s

/-- The 4 KiB sectors that `n` bytes from `a` touch are erased (R832). -/
def flashErase (a n : Nat) (s : State) : State :=
  modBoot s fun b => { b with flash := b.flash.filter fun e => !(granules a n 4096).contains (e.1 / 4096 * 4096) }

/-- A field of `n` bytes of a header. -/
def hdrField (h : List Byte) (off n : Nat) : List Byte := (h.drop off).take n

/-- DIE_ID as bytes. -/
def dieIdBytes (s : State) : List Byte := leBytes 8 s.fuses.dieId.toNat

/-! ### The record in force -/

/-- A pointer copy (R404): the slot and the SEQ that it names, where its CRC-32 holds. -/
def pointerCopy (s : State) (j : Nat) : Option (Nat × Nat) :=
  let bs := flashBytes s (0x2820000 + 0x1000 * j) 64
  let crc := (bs.take 60).foldl (crcByte 0xEDB88320) 0xFFFFFFFF ^^^ 0xFFFFFFFF
  if wordAt bs 15 = crc then some (bits (wordAt bs 0) 0 0, (wordAt bs 1).toNat) else none

/-- The pointer in force (R404): the valid copy with the higher SEQ. -/
def recPointer (s : State) : Option (Nat × Nat) :=
  match pointerCopy s 0, pointerCopy s 1 with
  | some a, some b => some (if a.2 < b.2 then b else a)
  | some a, none => some a
  | none, b => b

/-- The signature of the record at a flash offset verifies (R403, R405). -/
def recSigned (s : State) (o : Nat) : Bool :=
  Config.ecdsaVerify (Config.devPub s.fuses.uds 1) (Config.sha384 (flashBytes s o 0x6140)) (flashBytes s (o + 0x6140) 96)

/-- The record at a flash offset is of this die (R403, R405). -/
def recOfDie (s : State) (o : Nat) : Bool := hdrField (flashBytes s o 16) 8 8 == dieIdBytes s

/-- The offset of a record slot (R832). -/
def recSlot (j : Nat) : Nat := 0x2810000 + 0x8000 * j

/-- A record slot verifies (R405 step 2). -/
def recGood (s : State) (j : Nat) : Bool := recSigned s (recSlot j) && recOfDie s (recSlot j)

/-- The flash offset of the record that is loaded after a reset (R407): the slot that the pointer names, or the other slot
where that one does not verify. [DEDUCED, log 153] -/
def recInForce (s : State) : Option Nat :=
  match recPointer s with
  | none => none
  | some (j, _) => if recGood s j then some (recSlot j) else if recGood s (1 - j) then some (recSlot (1 - j)) else none

/-- Word `i` of chain entry `e` of the record at `o` (R403). -/
def recChain (s : State) (o e i : Nat) : Word := w32 (ofLe (flashBytes s (o + 0x40 + 32 * e + 4 * i) 4))

/-- The five correction registers of entry `e` enter the pending copy of chain `c` of DFE `k`, and COMMIT_NOW makes them
active (R407, R213). -/
def loadChain (o e k c : Nat) (s : State) : State :=
  if !pageOn s (dfePage k) then s
  else commitChain k c (chPending.zipIdx.foldl (fun s x => storeReg (dfePage k) x.1 (c * 2) (recChain s o e x.2) s) s)

/-- The correction values of every stream's chain are loaded (R407). -/
def loadChains (o : Nat) (s : State) : State :=
  (List.range 512).foldl (fun s e => loadChain o e (e % 256 / 64) (e / 256 * 64 + e % 64) s) s

/-! ### The mirror map (R409, R414) -/

/-- The mirror-map record that the fused shipment map gives: GEN 0. [PRESUMED, log 12] -/
def shipMap (s : State) : List Word :=
  [0x00010000, s.fuses.shipMapVer] ++ (List.range 16).map (fun c => (s.fuses.coreMap[c]?).getD 0) ++
    (List.range 46).map fun i => if i < 27 then (s.fuses.spares[i]?).getD 0 else 0

/-- The mirror map after the field repairs of the record at `o`: each word that it changes counts once in GEN.
[DEDUCED, log 153] -/
def liveMap (s : State) (o : Option Nat) : List Word :=
  match o with
  | none => shipMap s
  | some o =>
    let ship := shipMap s
    let new (i : Nat) : Word := if 2 ≤ i ∧ i < 45 then w32 (ofLe (flashBytes s (o + 0x4040 + 4 * i) 4)) else wWord ship i
    let ws := (List.range 64).map new
    let gen := ((List.range 64).filter fun i => !decide (new i = wWord ship i)).length
    w32 (0x00010000 + gen) :: ws.drop 1

/-- USE of a word of the mirror map is 2: the spare carries the unit that its low bits name. -/
def mapRepairs (w : Word) : Bool := decide (bits w 31 30 = 2)

/-- A field-repaired chain (R414, R401): the mirror chain of engine `m` of DFE `k` takes the committed values of stream
entry `e`, goes from SHADOW to ACTIVE, and has switched. -/
def repairChain (o : Option Nat) (e k m src : Nat) (s : State) : State :=
  if !pageOn s (dfePage k) then s
  else
    let s := match o with
      | some o => loadChain o e k (128 + m) s
      | none => s
    let s := chMirrorWrite k (128 + m) (w32 (src * 2 ^ 8 + 2)) (chMirrorWrite k (128 + m) (w32 (src * 2 ^ 8 + 1)) s)
    modDfe s k fun x => { x with mirror := x.mirror ||| BitVec.ofNat 4 (2 ^ m) }

/-- The repairs of the chains: RXMk and TXMk, each over a group of 32 streams. -/
def repairChains (o : Option Nat) (ws : List Word) (s : State) : State :=
  (List.range 16).foldl (fun s i =>
    let w := wWord ws (18 + i)
    let k := i % 8
    if mapRepairs w then repairChain o (i / 8 * 256 + 32 * k + bits w 4 0) (k / 2) (i / 8 * 2 + k % 2) (bits w 4 0) s else s) s

/-- The repairs of the cores: CORE_MAP (R411). -/
def repairCores (ws : List Word) (s : State) : State :=
  (List.range 16).foldl (fun s c =>
    if wWord ws (2 + c) = coreMapOf s c ∨ !pageOn s (clusterPage c) then s else coreMapSt c (wWord ws (2 + c)) s) s

/-- The repairs of the converter lanes: the spare lane is armed for its target (R179, R180). -/
def repairLanes (ws : List Word) (s : State) : State :=
  (List.range 4).foldl (fun s j =>
    let w := wWord ws (34 + j)
    if mapRepairs w && pageOn s (0x120 + j) then
      subArmSt j (storeReg (0x120 + j) 0x100 0 (w32 (bits w 4 0)) s)
    else s) s

/-- The repairs of the ROOT links: physical link 4 of the bundle takes the link's place in epoch 1 (R576). -/
def repairLinks (ws : List Word) (s : State) : State :=
  (List.range 6).foldl (fun s i =>
    let w := wWord ws (38 + i)
    let l := bits w 1 0
    let put (r b : Nat) (s : State) : State := setRegI s (rtrPage r) 0x118 b (putBits (getRegI s (rtrPage r) 0x118 b) (3 * l + 2) (3 * l) 4)
    if mapRepairs w then put 6 i (put i 0 s) else s) s

/-- The row repairs of the record (R403, R636). -/
def repairRows (o : Nat) (s : State) : State :=
  (List.range 1024).foldl (fun s r =>
    let w := w32 (ofLe (flashBytes s (o + 0x4140 + 8 * r) 4))
    let row := ofLe (flashBytes s (o + 0x4144 + 8 * r) 4)
    if w = 0xFFFFFFFF ∨ !arrayOn s (bits w 25 16) (bits w 7 0) then s
    else (moveRow (bits w 25 16 * 256 + bits w 7 0) row s).1) s

/-- R407, R409, R414, R636: the record in force and the field repairs are loaded; the mirror-map record is written.
[DEDUCED, log 153] -/
def loadRecord (s : State) : State :=
  let o := recInForce s
  let ws := liveMap s o
  let s := match o with
    | some o => repairRows o (loadChains o s)
    | none => s
  let s := repairLinks ws (repairLanes ws (repairChains o ws (repairCores ws s)))
  memPut s 0x0C0 0x001003FFF000 (wordsBytes ws)

end Sys2Proof.Machine
end

