-- ==== Sys2Proof/Machine/Boot.lean ====
section
/-! DEFINITION. Resets, self-test, image selection, the flash controller, configuration sets, the security mailbox, and the
PMBus and GPIO pages' events (R825–R854, R860, R873). -/

namespace Sys2Proof.Machine

/-! ### Resets (R825–R828) -/

/-- The state of a power-on reset: the fuses stay; so do the board's flash, the host's memory, the messages already sent,
the commands that wait, and the model's count of free values. [DESIGN CHOICE, log 14] -/
def powerOn (s : State) : State :=
  { State.reset with
    fuses := s.fuses
    hostMem := s.hostMem
    fapi := s.fapi
    pending := s.pending
    freeCtr := s.freeCtr
    boot := { BootSt.init with flash := s.boot.flash } }

/-- A register that a warm reset keeps: FATAL_STS, INCR, the PCIe lanes' pages; where DRAM is kept, the DRAMC pages too. -/
def warmKeeps (dram : Bool) (k : Nat) : Bool :=
  let p := k % 2 ^ 22 / 4096
  let off := k % 4096
  decide (p = 0x001 ∧ off = 0x148) || decide (p = 0x003 ∧ (off = 0x11C ∨ off = 0x120)) ||
    decide (pageKind p = some .plane) || (dram && decide (pageKind p = some .dramc))

/-- A warm or a fatal reset (R825–R828): RESET_CAUSE takes `cause`; DRAM in self-refresh is lost and trained again (R655);
the PLLs relock but for those that keep running (R894).
[DESIGN CHOICE, log 13] -/
def warmReset (cause : Word) (dram : Bool) (s : State) : State :=
  let b := powerOn s
  let dram := dram && s.memc.fc.isNone
  let b := { b with
    regs := s.regs.filter fun e => warmKeeps dram e.1
    time := { b.time with free := s.time.free, made := s.time.made, acc := s.time.acc, off := s.time.off }
    usTick := s.usTick
    lanes := s.lanes.filter fun e => decide (pageKind (e.1 / 4) = some .plane)
    mem := s.mem.filter fun e => dram && decide (e.1 < 0x001000000000)
    memErr := s.memErr.filter fun e => dram && decide (e.1 < 0x001000000000)
    cnt := s.cnt.filter fun e => dram && decide (pageKind (e.1 / 32) = some .dramc)
    memc := if dram then { b.memc with
      banks := s.memc.banks, init := s.memc.init, fcTarget := s.memc.fcTarget, postponed := s.memc.postponed,
      scrubPos := s.memc.scrubPos } else b.memc }
  let kept := (if dram then 0x10C00000 else 0x10000000) &&& getReg s 0x005 0x180
  selfRefreshLost s.memc.fc.isSome (setReg (setReg b 0x005 0x180 kept) 0x00D 0x100 cause)

/-- A PCIe reset (R825): the endpoint alone; the HOST-pool fires that it holds wait for the rings again. Being a reset, it ends
an unlock and voids a nonce (R852). [DEDUCED, log 121; DEDUCED, log 122] -/
def pcieResetSt (s : State) : State :=
  let fs := s.pcie.fires
  let s := resetRegs 0x007 (fun _ => false) s
  let s := [0x130, 0x131, 0x132, 0x133].foldl (fun s p => (List.range 4).foldl
    (fun s l => { s with lanes := kset LaneSt.init s.lanes (p * 4 + l) LaneSt.init }) (resetRegs p (fun _ => false) s)) s
  let s := modBoot s fun b => { b with unlocked := false, nonce := none }
  { s with pcie := ⟨[], [], fs.map fun f =>
    ⟨f.member.toNat % 8, 1, (fireWords f).drop 1 |>.take 11 |> (· ++ (fireWords f).take 1 ++ (fireWords f).drop 13)⟩, [], [], fs, [], []⟩ }

/-- RST_CMD written (R853). -/
def rstCmdSt (v : Word) (s : State) : State :=
  if bits v 31 16 = 0x5254 ∧ bit v 0 then warmReset 4 true s else s

/-! ### The watchdog (R840, R853) -/

/-- WDOG_CFG: EN and TIMEOUT in ms; 0 acts as 1. -/
def wdogEn (s : State) : Bool := bit (getReg s 0x00D 0x10C) 31

/-- `n` half-timeouts have passed since the last kick. -/
def wdogPast (s : State) (n : Nat) : Bool :=
  decide (n * 98304 * 1000 * max 1 (bits (getReg s 0x00D 0x10C) 15 0) ≤ 200 * (s.time.free - s.boot.wdog))

/-- The watchdog's count restarts. -/
def wdogRestart (s : State) : State := modBoot s fun b => { b with wdog := s.time.free, wdogHalf := false }

/-- WDOG_CFG written: the count starts where EN rises. -/
def wdogCfgSt (v : Word) (s : State) : State :=
  let s' := setReg s 0x00D 0x10C (v &&& 0x8000FFFF)
  if bit v 31 && !wdogEn s then wdogRestart s' else s'

/-- WDOG_KICK written. -/
def wdogKickSt (v : Word) (s : State) : State := if bits v 15 0 = 0x00A5 then wdogRestart s else s

/-! ### Signed images (R834, R835) -/

/-- A hash as a header holds it. -/
def hashOf (bs : List Byte) : BitVec 384 := BitVec.ofNat 384 (ofBe bs)

/-- KEY_SLOT of a header. -/
def hdrKey (h : List Byte) : Nat := bits (wordAt h 9) 1 0

/-- BODY_LEN of a header. -/
def hdrLen (h : List Byte) : Nat := (wordAt h 4).toNat

/-- SVN of a header. -/
def hdrSvn (h : List Byte) : Nat := bits (wordAt h 2) 7 0

/-- R835: whether a header and its body verify, as a mailbox RESULT; `rd` reads the image, `room` is what holds it.
[DEDUCED, log 123] -/
def verifySet (s : State) (kind room : Nat) (rd : Nat → Nat → List Byte) : Nat :=
  let h := rd 0 4096
  let pub := hdrField h 0x070 96
  if wordAt h 0 ≠ 0x4C4E5801 ∨ wordAt h 1 ≠ w32 (kind * 2 ^ 16 + 1) then 4
  else if room < hdrLen h + 4096 then 4
  else if s.fuses.keys[hdrKey h]? ≠ some (Config.sha384 pub) ∨ s.fuses.revoked.getLsbD (hdrKey h) then 2
  else if !Config.ecdsaVerify pub (Config.sha384 (h.take 256)) (hdrField h 0x100 96) then 1
  else if Config.sha384 (rd 4096 (hdrLen h)) ≠ hashOf (hdrField h 0x040 48) then 1
  else if kind = 1 ∧ hdrSvn h < s.fuses.svn then 3
  else 0

/-! ### Boot (R830–R845) -/

/-- STAGE of BOOT_STS. -/
def bootStage (s : State) : Nat := bits (getReg s 0x00D 0x108) 27 24

/-- Sets STAGE. -/
def setStage (n : Nat) (s : State) : State := modReg s 0x00D 0x108 fun w => putBits w 27 24 n

/-- BOOT_STS as it reads. [PRESUMED, log 12] -/
def bootSts (s : State) : Word := putBits (getReg s 0x00D 0x108) 15 8 s.fuses.svn

/-- The boot mode in use (R830): 0 where BOOT_LOCK is blown, and 3 acts as 0. -/
def bootMode (s : State) : Nat :=
  let v := getReg s 0x00D 0x114
  if bit v 4 ∨ bits v 1 0 = 3 then 0 else bits v 1 0

/-- RESET_RELEASE (R830). -/
def resetReleaseSt (mode : BitVec 2) (s : State) : State :=
  if s.boot.released then s
  else setReg (modBoot s fun b => { b with released := true }) 0x00D 0x114
    (w32 ((if s.fuses.bootLock then 16 else 0) + mode.toNat))

/-- SELF_TEST_DONE (R843, R844, R576, R894). [DEDUCED, log 129] -/
def selfTestSt (failed : List (Fin 320)) (fatal pllOk : Bool) (s : State) : State :=
  if !s.boot.released || s.boot.tested then s
  else
    let units := (List.range 320).filter fun u => failed.any fun f => decide (f.val = u)
    let s := modBoot s fun b => { b with tested := true, bist := units }
    let s := (units.filter fun u => decide (u < 48)).foldl (fun s n => domainOff n (setPd s n { pdRec s n with cur := .off })) s
    let s := s.fuses.repairs.foldl (fun s r => if arrayOn s (r.1 / 256) (r.1 % 256) then (moveRow r.1 r.2 s).1 else s) s
    let s := if pllOk then s else modReg s 0x005 0x180 fun w => putBit w 17 true
    if fatal || !pllOk then setStage 4 s
    else setStage 1 ((List.range 7).foldl (fun s r => enableSt (0x0F8 + r) s) s)

/-- The base of a flash image slot (R832). -/
def slotBase (j : Nat) : Nat := if j = 0 then 0x10000 else 0xC10000

/-- STATE of a flash slot (R838). -/
def slotState (s : State) (j : Nat) : Nat := ofLe (flashBytes s (slotBase j + 0xFFC) 4)

/-- Programs STATE of a flash slot. -/
def setSlotState (j v : Nat) (s : State) : State := flashProgram (slotBase j + 0xFFC) (leBytes 4 v) s

/-- R839 step 1: a slot that verifies and is not BAD. -/
def slotGood (s : State) (j : Nat) : Bool :=
  [0xFFFFFFFF, 0x0000FFFF, 0x000000FF].contains (slotState s j) &&
    decide (verifySet s 1 0xC00000 (fun o n => flashBytes s (slotBase j + o) n) = 0)

/-- SEQ of a flash slot's image. -/
def slotSeq (s : State) (j : Nat) : Nat := ofLe (flashBytes s (slotBase j + 0x00C) 4)

/-- SVN bits are blown up to `n` (R841). -/
def blowSvn (n : Nat) (s : State) : State := { s with fuses := { s.fuses with svn := max s.fuses.svn n } }

/-- An image is loaded and SV0 is released: it starts at LOAD + ENTRY with IVBASE = LOAD (R834). [DEDUCED, log 126] -/
def runImage (slot : Nat) (h body : List Byte) (s : State) : State :=
  let load := (wordAt h 5).toNat + 2 ^ 32 * ((wordAt h 6).toNat % 2 ^ 16)
  let s := memPut s 0x00C load body
  let s := modBoot s fun b => { b with
    image := some ⟨slot, hdrSvn h, (wordAt h 3).toNat, hdrKey h, hashOf (hdrField h 0x040 48)⟩ }
  let s := setCore s 144 (setCrPair { CoreSt.init with run := .running, pc := (load + (wordAt h 7).toNat) % 2 ^ 48 } 0x0A load)
  let s := modReg (modReg s 0x0C0 0x08 fun w => putBit w 0 true) 0x0C0 0x10 fun w => putBit w 0 true
  setStage 2 (modReg s 0x00D 0x108 fun w => putBits (putBits w 17 16 slot) 7 0 (hdrSvn h))

/-- IMAGE_SELECTED (R839, R841). [DEDUCED, log 125] -/
def imageSelectSt (s : State) : State :=
  if bootStage s ≠ 1 ∨ bootMode s = 1 then s
  else
    let good := [0, 1].filter (slotGood s)
    let s := (good.filter fun j => slotState s j = 0x0000FFFF).foldl (fun s j => setSlotState j 0 s) s
    let left := good.filter fun j => decide (slotState s j ≠ 0)
    let pick := match left with
      | [0, 1] => some (if slotSeq s 0 < slotSeq s 1 then 1 else 0)
      | [j] => some j
      | _ => none
    match pick with
    | none => setStage 3 s
    | some j =>
      let h := flashBytes s (slotBase j) 4096
      let s := if slotState s j = 0xFFFFFFFF then
          wdogRestart (modReg (setSlotState j 0x0000FFFF s) 0x00D 0x10C fun w => putBit w 31 true)
        else blowSvn (hdrSvn h) s
      runImage j h (flashBytes s (slotBase j + 4096) (hdrLen h)) s

/-- Reads of system SRAM by the security core. -/
def secRead (s : State) (a n : Nat) : List Byte := (memGet s 0x00C a n).2

/-- PCIE_GO (R833, R835). [DEDUCED, log 125] -/
def pcieGoSt (v : Word) (s : State) : State :=
  let ready := (bootMode s = 1 ∧ (bootStage s = 1 ∨ bootStage s = 3)) ∨ (bootMode s = 2 ∧ bootStage s = 3)
  if !bit v 0 ∨ ¬ready then s
  else
    let base := 0x001000000000
    let h := secRead s base 4096
    if verifySet s 1 (getReg s 0x00D 0x144).toNat (fun o n => secRead s (base + o) n) ≠ 0 then setStage 3 s
    else runImage 2 h (secRead s (base + 4096) (hdrLen h)) s

/-! ### The flash controller (R831, R842) -/

/-- A flash operation over any byte of the running image's slot (R842). -/
def overRunning (s : State) (a n : Nat) : Bool :=
  match s.boot.image with
  | some i => decide (i.slot < 2) && decide (a < slotBase i.slot + 0xC00000) && decide (slotBase i.slot < a + n)
  | none => false

/-- FL_CMD written (R853): ignored while an operation runs; ERASE and PROGRAM over the running slot are refused. -/
def flashCmd (op : Nat) (s : State) : State :=
  if s.boot.flBusy then s
  else
    let a := (getReg s 0x00D 0x120).toNat
    let n := (getReg s 0x00D 0x12C).toNat
    let buf := getPair s 0x00D 0x124 6 % 2 ^ 48
    let lo := if op = 3 then a / 4096 * 4096 else a
    let len := if op = 3 then (granules a n 4096).length * 4096 else n
    if op ≠ 1 ∧ overRunning s lo len then setReg s 0x00D 0x134 0x20000000
    else
      let s := setReg (modBoot s fun b => { b with flBusy := true }) 0x00D 0x134 0x40000000
      match op with
      | 1 =>
        let (s, r) := memWrite s 0x00C buf (flashBytes s a n)
        if r = .ok then s else modReg s 0x00D 0x134 fun w => putBit w 28 true
      | 2 =>
        let (s, r, d) := memRead s 0x00C buf n
        if r = .ok then flashProgram a d s else modReg s 0x00D 0x134 fun w => putBit w 28 true
      | _ => flashErase a n s

/-- FL_DONE (R853). -/
def flashDone (fail : Bool) (s : State) : State :=
  if !s.boot.flBusy then s
  else
    let s := modBoot s fun b => { b with flBusy := false }
    setEvt (modReg s 0x00D 0x134 fun w => w32 (2 ^ 31 + if fail || bit w 28 then 2 ^ 28 else 0)) 0x00D 1

/-! ### Configuration sets (R5–R8, R846–R848) -/

/-- The staging area. -/
def stagingBase : Nat := 0x001002000000

/-- A register preset of a configuration set is applied (R845). [DESIGN CHOICE, log 128] -/
def applyPreset (s : State) (x : Nat × Nat × Nat × Word) : State :=
  if 0x100 ≤ x.2.1 ∧ pageOn s x.1 then storeReg x.1 x.2.1 x.2.2.1 x.2.2.2 s else s

/-- A verified set becomes the resident one: its presets and slot graphs are applied; DRAM is initialised again where R848
says so. [DEDUCED, log 126; DESIGN CHOICE, log 128] -/
def installSet (h body : List Byte) (s : State) : State :=
  let set := Config.cfgSet body
  let s := modBoot s fun b => { b with
    cfg := some ⟨(wordAt h 3).toNat, hashOf (hdrField h 0x040 48), (wordAt h 8).toNat, set⟩ }
  let s := modReg (setReg s 0x000 0x108 (wordAt h 8)) 0x000 0x10C (· + 1)
  let s := set.graphs.foldl (fun s g => memPut s 0x0C0 g.1 g.2) (set.presets.foldl applyPreset s)
  let old := memCfg s
  let new := set.memCfg &&& 0x83110030
  if bit old 31 ≠ bit new 31 ∨ bits old 25 24 ≠ bits new 25 24 ∨ !enabled s 0x0E0 then
    dramBegin (setReg (setEnabled (modReg s 0x0E0 0x08 fun w => putBit w 0 true) 0x0E0 false) 0x0E0 0x100 new)
  else s

/-- CFG_STS.RESULT of a finished load. -/
def cfgResult (r : Nat) (s : State) : State := setEvt (setReg s 0x00D 0x140 (w32 (2 ^ 31 + r))) 0x00D 2

/-- CFG_CMD written with GO (R846): the supervisor firmware, where it runs, applies R5–R8.
[DESIGN CHOICE, log 106; DEDUCED, log 127] -/
def cfgGoSt (v : Word) (s : State) : State :=
  let n := (getReg s 0x00D 0x13C).toNat
  if !bit v 0 || !decide (bootStage s = 2) then s
  else if s.phys.any fun e => decide (2 ≤ e.2.st) then cfgResult 1 s
  else if n < 4096 ∨ 2 ^ 24 < n then cfgResult 3 s
  else if verifySet s 2 n (fun o k => secRead s (stagingBase + o) k) ≠ 0 then cfgResult 2 s
  else
    let h := secRead s stagingBase 4096
    let s := installSet h (secRead s (stagingBase + 4096) (hdrLen h)) s
    cfgResult 0 (modBoot s fun b => { b with persist := bit v 1 })

/-- CFG_PERSIST (R847). -/
def cfgPersistSt (s : State) : State :=
  if !s.boot.persist then s
  else
    let bs := secRead s stagingBase (getReg s 0x00D 0x13C).toNat
    modBoot (flashProgram 0x1810000 bs (flashErase 0x1810000 0x1000000 s)) fun b => { b with persist := false }

/-- R576, R845: an entry of the slot tables is loaded into epoch 1. -/
def loadSlot (s : State) (x : Nat × Nat × Nat × Word) : State :=
  if x.1 < 7 ∧ slotOut x.1 x.2.1 ∧ x.2.2.1 < 256 ∧ slotsOk s 1 x.1 x.2.1 x.2.2.1 x.2.2.2 then
    modFab s fun f => { f with slot := kset 0 f.slot (slotKey 1 x.1 x.2.1 x.2.2.1) (x.2.2.2 &&& 0x13F) }
  else s

/-- R845: the slot tables enter epoch 1, the flip to it completes, and the dispatcher is enabled. [DEDUCED, log 153] -/
def goLive (set : CfgSet) (s : State) : State :=
  let s := set.slots.foldl loadSlot s
  let s := modFab s fun f => { f with flip := some ⟨0x7F, fabFrame s, false⟩ }
  enableSt 0x002 (epochDrainedSt (epochFlipSt s))

/-- BOOT_READY (R845): a configuration-set slot that verifies is staged and installed; the calibration record and the field
repairs are loaded (R407, R414, R636); with a set, the fabric and the dispatcher go live; READY is set.
[DEDUCED, log 126; DEDUCED, log 153] -/
def bootReadySt (s : State) : State :=
  if bootStage s ≠ 2 ∨ bootReady s then s
  else
    let rd := fun o n => flashBytes s (0x1810000 + o) n
    let h := rd 0 4096
    let ok := decide (verifySet s 2 0x1000000 rd = 0)
    let s := if ok then installSet h (rd 4096 (hdrLen h)) (memPut s 0x00C stagingBase (rd 0 (hdrLen h + 4096))) else s
    let s := loadRecord s
    let s := match ok, s.boot.cfg with
      | true, some c => goLive c.set s
      | _, _ => s
    setEvt (modReg s 0x00D 0x108 fun w => putBit w 31 true) 0x00D 0

/-! ### The security mailbox (R850–R852) -/

/-- The base of a mailbox: the host's, or the supervisors'. -/
def mbBase (sv : Bool) : Nat := if sv then 0x140 else 0x100

/-- ARG0. -/
def mbArg0 (s : State) (sv : Bool) : Nat := getPair s 0x00C (mbBase sv + 4) 0 % 2 ^ 48

/-- ARG1. -/
def mbArg1 (s : State) (sv : Bool) : Nat := (getReg s 0x00C (mbBase sv + 0x0C)).toNat

/-- OUT, its low 6 bits taken as 0. -/
def mbOut (s : State) (sv : Bool) : Nat := getPair s 0x00C (mbBase sv + 0x10) 6 % 2 ^ 48

/-- A command starts (R850): RESULT BUSY where one is in progress; REFUSED where the mailbox may not send it; else what
`act` does, and its RESULT. -/
def mbCommand (sv : Bool) (c : Nat) (allowed : Bool) (act : State → State × Nat) (s : State) : State :=
  if ((if sv then s.boot.svMb else s.boot.hostMb).cmd).isSome then
    modReg s 0x00C (mbBase sv + 0x18) fun w => putBits (putBit w 31 false) 11 8 7
  else
    let s := setReg s 0x00C (mbBase sv + 0x18) (w32 (2 ^ 30 + c))
    let (s, r) := if allowed then act s else (s, 5)
    modBoot s fun b => if sv then { b with svMb := ⟨some (c, r)⟩ } else { b with hostMb := ⟨some (c, r)⟩ }

/-- MAILBOX_DONE (R850). -/
def mbDone (sv : Bool) (s : State) : State :=
  match (if sv then s.boot.svMb else s.boot.hostMb).cmd with
  | none => s
  | some (c, r) =>
    let s := modBoot s fun b => if sv then { b with svMb := ⟨none⟩ } else { b with hostMb := ⟨none⟩ }
    let s := setEvt (setReg s 0x00C (mbBase sv + 0x18) (w32 (2 ^ 31 + r * 2 ^ 8 + c))) 0x00C (if sv then 1 else 0)
    if r = 1 ∨ r = 2 ∨ r = 3 then setEvt s 0x00C 2 else s

/-- Debug access is open (R852): 0b10 acts as DISABLED. -/
def debugOpen (s : State) : Bool :=
  match s.fuses.debugState.toNat with
  | 0 => true
  | 1 => s.boot.unlocked
  | _ => false

/-- VERIFY_CFG. -/
def verifyCfgAct (sv : Bool) (s : State) : State × Nat :=
  (s, verifySet s 2 (min (mbArg1 s sv) 0x1000000) fun o n => secRead s (mbArg0 s sv + o) n)

/-- SIGN_CAL: the signature over the record's bytes 0x0000–0x613F goes to its place at 0x6140 (R403). [DEDUCED, log 124] -/
def signCalAct (sv : Bool) (s : State) : State × Nat :=
  if s.boot.unlocked then (s, 5)
  else match memRead s 0x00C (mbArg0 s sv) 0x6140 with
  | (s, .ok, d) => (memPut s 0x00C (mbArg0 s sv + 0x6140) (Config.devSign s.fuses.uds 1 (Config.sha384 d)), 0)
  | (s, _, _) => (s, 4)

/-- VERIFY_CAL: R405 step 2. [DEDUCED, log 123] -/
def verifyCalAct (sv : Bool) (s : State) : State × Nat :=
  if !recSigned s (mbArg0 s sv) then (s, 1) else if !recOfDie s (mbArg0 s sv) then (s, 4) else (s, 0)

/-- CONFIRM (R841): refused where the running image has no flash slot. -/
def confirmAct (s : State) : State × Nat :=
  match s.boot.image with
  | some i =>
    if i.slot < 2 then
      (blowSvn i.svn (modReg (setSlotState i.slot 0xFF s) 0x00D 0x10C fun w => putBit w 31 false), 0)
    else (s, 5)
  | none => (s, 5)

/-- SEQ of the calibration record in force; 0 where there is none. -/
def calSeq (s : State) : Nat := ((recPointer s).map (·.2)).getD 0

/-- The debug field of an attestation report (R851). -/
def debugCode (s : State) : Nat :=
  match s.fuses.debugState.toNat with
  | 0 => 3
  | 1 => if s.boot.unlocked then 1 else 0
  | _ => 2

/-- The signed part of an attestation report (R851). -/
def attestBody (s : State) (nonce : List Byte) : List Byte :=
  let i := s.boot.image.getD ⟨0, 0, 0, 0, 0⟩
  let c := s.boot.cfg.getD ⟨0, 0, 0, default⟩
  leBytes 4 (2 ^ 16 + 400) ++ dieIdBytes s ++ leBytes 4 0xB0 ++ leBytes 4 (getReg s 0x00D 0x100).toNat ++
  leBytes 4 (debugCode s * 2 ^ 24 + s.fuses.svn % 256 * 2 ^ 16 + i.svn % 256 * 2 ^ 8 + i.slot % 4) ++
  leBytes 4 i.seq ++ leBytes 4 c.seq ++ leBytes 4 (calSeq s) ++ leBytes 4 (getReg s 0x000 0x108).toNat ++
  List.replicate 24 0 ++ nonce ++ (leBytes 48 i.hash.toNat).reverse ++ (leBytes 48 c.hash.toNat).reverse ++ Config.devPub s.fuses.uds 0

/-- ATTEST. -/
def attestAct (sv : Bool) (s : State) : State × Nat :=
  match memRead s 0x00C (mbArg0 s sv) 48 with
  | (s, .ok, nonce) =>
    let b := attestBody s nonce
    match memWrite s 0x00C (mbOut s sv) (b ++ Config.devSign s.fuses.uds 0 (Config.sha384 b)) with
    | (s, .ok) => (s, 0)
    | (s, _) => (s, 4)
  | (s, _, _) => (s, 4)

/-- DEBUG_CHALLENGE (R852). -/
def challengeAct (sv : Bool) (s : State) : State × Nat :=
  if 2 ≤ s.fuses.debugState.toNat then (s, 5)
  else
    let (n, s) := takeFree 384 s
    let s := modBoot s fun b => { b with nonce := some n }
    match memWrite s 0x00C (mbOut s sv) (dieIdBytes s ++ leBytes 48 n.toNat) with
    | (s, .ok) => (s, 0)
    | (s, _) => (s, 4)

/-- DEBUG_UNLOCK (R852). [DEDUCED, log 123] -/
def unlockAct (sv : Bool) (s : State) : State × Nat :=
  if 2 ≤ s.fuses.debugState.toNat then (s, 5)
  else match s.boot.nonce with
  | none => (s, 5)
  | some n =>
    let s := modBoot s fun b => { b with nonce := none }
    match memRead s 0x00C (mbArg0 s sv) 192 with
    | (s, .ok, d) =>
      if Config.sha384 (d.take 96) ≠ s.fuses.debugKey then (s, 2)
      else if !Config.ecdsaVerify (d.take 96) (Config.sha384 (leBytes 48 n.toNat ++ dieIdBytes s)) (d.drop 96) then (s, 1)
      else (modBoot s fun b => { b with unlocked := true }, 0)
    | (s, _, _) => (s, 4)

/-- FUSE_KEY. -/
def fuseKeyAct (sv blown : Bool) (s : State) : State × Nat :=
  let k := mbArg1 s sv
  if 4 < k then (s, 4)
  else if s.fuses.debugState ≠ 0 ∨ (if k = 4 then s.fuses.debugKey else (s.fuses.keys[k]?).getD 0) ≠ 0 then (s, 5)
  else match memRead s 0x00C (mbArg0 s sv) 48 with
    | (s, .ok, d) =>
      if !blown then (s, 6)
      else
        let keys := (List.range 4).map fun i => if i = k then hashOf d else (s.fuses.keys[i]?).getD 0
        ({ s with fuses := if k = 4 then { s.fuses with debugKey := hashOf d } else { s.fuses with keys := keys } }, 0)
    | (s, _, _) => (s, 4)

/-- FUSE_REVOKE. -/
def fuseRevokeAct (sv blown : Bool) (s : State) : State × Nat :=
  let k := mbArg1 s sv
  if 3 < k then (s, 4)
  else if s.boot.image.any fun i => decide (i.keySlot = k) then (s, 5)
  else if !blown then (s, 6)
  else ({ s with fuses := { s.fuses with revoked := s.fuses.revoked ||| BitVec.ofNat 4 (2 ^ k) } }, 0)

/-- FUSE_LOCK. -/
def fuseLockAct (sv blown : Bool) (s : State) : State × Nat :=
  let k := mbArg1 s sv
  if k = 0 ∨ 3 < k then (s, 4)
  else if !blown then (s, 6)
  else ({ s with fuses := match k with
    | 1 => { s.fuses with debugState := s.fuses.debugState ||| 1 }
    | 2 => { s.fuses with debugState := 3 }
    | _ => { s.fuses with bootLock := true } }, 0)

/-- A write of MB_CMD. -/
def mbWrite (a : Acc) (sv : Bool) (c : Nat) (allowed : Bool) (act : State → State × Nat) (s : State) :
    Host.Outcome State Fault Refusal := .next (onPage a 0x00C (mbBase sv) (mbCommand sv c allowed act) s)

/-! ### PMBus and GPIO (R860, R873) -/

/-- The PMBus page is enabled (R860): VOUT_MODE is read. -/
def pmbusEnableSt (mode : Option (BitVec 8)) (s : State) : State :=
  if enabled s 0x00F ∨ resetting s 0x00F then s
  else
    let s := modReg s 0x00F 0x08 fun w => putBit w 0 true
    match mode with
    | some m =>
      let s := modReg (setReg s 0x00F 0x10C (w32 m.toNat)) 0x00F 0x108 fun w => putBit w 16 false
      if m.toNat / 32 = 0 then setEnabled s 0x00F true else ownErr s 0x00F 4 0x01 none
    | none => ownErr (modReg s 0x00F 0x108 fun w => putBit w 16 true) 0x00F 4 0x01 none

/-- PMB_STS as it reads. -/
def pmbSts (s : State) : Word := putBit (getReg s 0x00F 0x108) 31 s.clk.pendOp.isSome

/-- EDGE_LO and EDGE_HI stand while any of their GPIO_EDGE bits does. [DESIGN CHOICE, log 130; DEDUCED, log 131] -/
def gpioLevels (s : State) : State :=
  let e := getReg s 0x00E 0x114
  let s := if bits e 15 0 ≠ 0 then setEvt s 0x00E 0 else s
  if bits e 31 16 ≠ 0 then setEvt s 0x00E 1 else s

/-- GPIO_EDGE (R873). [DESIGN CHOICE, log 130] -/
def gpioEdgeSt (n : Nat) (level : Bool) (s : State) : State :=
  if bit (getReg s 0x00E 0x108) n = level then s
  else
    let s := modReg s 0x00E 0x108 fun w => putBit w n level
    if bit (getReg s 0x00E (if level then 0x10C else 0x110)) n then
      gpioLevels (modReg s 0x00E 0x114 fun w => putBit w n true)
    else s

/-! ### Commands -/

/-- PORESET (R825). -/
def execPoreset (s : State) : Host.Outcome State Fault Refusal := .next (selfRefreshLost s.memc.fc.isSome (powerOn s))

/-- VDD_AON_BROWNOUT (R825, R863). -/
def execVddAonBrownout (s : State) : Host.Outcome State Fault Refusal := .next (selfRefreshLost s.memc.fc.isSome (powerOn s))

/-- WRESET (R825). -/
def execWreset (s : State) : Host.Outcome State Fault Refusal := .next (warmReset 2 true s)

/-- RST_CMD_WARM (R825). -/
def execRstCmdWarm (a : Acc) (v : Word) (s : State) : Host.Outcome State Fault Refusal :=
  .next (onPage a 0x00D 0x104 (rstCmdSt v) s)

/-- FATAL_RESET (R825): where step 5 of the fatal sequence has asked for it. -/
def execFatalReset (s : State) : Host.Outcome State Fault Refusal :=
  .next (if s.evt.resetReq then warmReset 16 false s else s)

/-- PCIE_RESET (R825). -/
def execPcieReset (s : State) : Host.Outcome State Fault Refusal := .next (pcieResetSt s)

/-- WDOG_EXPIRY (R840). -/
def execWdogExpiry (s : State) : Host.Outcome State Fault Refusal :=
  .next (if wdogEn s && wdogPast s 2 then warmReset 8 true s else s)

/-- WDOG_HALF (R853). -/
def execWdogHalf (s : State) : Host.Outcome State Fault Refusal :=
  .next (if wdogEn s && !s.boot.wdogHalf && wdogPast s 1 then
    setEvt (modBoot s fun b => { b with wdogHalf := true }) 0x00D 3 else s)

/-- WDOG_KICK (R840). -/
def execWdogKick (a : Acc) (v : Word) (s : State) : Host.Outcome State Fault Refusal :=
  .next (onPage a 0x00D 0x110 (wdogKickSt v) s)

/-- RESET_RELEASE. [DESIGN CHOICE, log 4] -/
def execResetRelease (mode : BitVec 2) (s : State) : Host.Outcome State Fault Refusal := .next (resetReleaseSt mode s)

/-- SELF_TEST_DONE. [DESIGN CHOICE, log 4; DESIGN CHOICE, log 8] -/
def execSelfTestDone (failed : List (Fin 320)) (fatal pllOk : Bool) (s : State) : Host.Outcome State Fault Refusal :=
  .next (selfTestSt failed fatal pllOk s)

/-- IMAGE_SELECTED. [DESIGN CHOICE, log 4] -/
def execImageSelected (s : State) : Host.Outcome State Fault Refusal := .next (whileRuns 0x00D imageSelectSt s)

/-- BOOT_READY. -/
def execBootReady (s : State) : Host.Outcome State Fault Refusal := .next (whileRuns 0x00D bootReadySt s)

/-- PCIE_GO. [DESIGN CHOICE, log 4] -/
def execPcieGo (a : Acc) (v : Word) (s : State) : Host.Outcome State Fault Refusal :=
  .next (onPage a 0x00D 0x148 (pcieGoSt v) s)

/-- FL_READ. -/
def execFlRead (a : Acc) (s : State) : Host.Outcome State Fault Refusal := .next (onPage a 0x00D 0x130 (flashCmd 1) s)

/-- FL_PROGRAM. -/
def execFlProgram (a : Acc) (s : State) : Host.Outcome State Fault Refusal := .next (onPage a 0x00D 0x130 (flashCmd 2) s)

/-- FL_ERASE. -/
def execFlErase (a : Acc) (s : State) : Host.Outcome State Fault Refusal := .next (onPage a 0x00D 0x130 (flashCmd 3) s)

/-- FL_DONE. -/
def execFlDone (fail : Bool) (s : State) : Host.Outcome State Fault Refusal := .next (whileRuns 0x00D (fun s => if pllOn s 24 then flashDone fail s else s) s)

/-- CFG_GO. -/
def execCfgGo (a : Acc) (v : Word) (s : State) : Host.Outcome State Fault Refusal :=
  .next (onPage a 0x00D 0x138 (cfgGoSt v) s)

/-- CFG_PERSIST. -/
def execCfgPersist (s : State) : Host.Outcome State Fault Refusal := .next (cfgPersistSt s)

/-- VERIFY_CFG. -/
def execVerifyCfg (a : Acc) (sv : Bool) (s : State) : Host.Outcome State Fault Refusal := mbWrite a sv 1 sv (verifyCfgAct sv) s

/-- SIGN_CAL. -/
def execSignCal (a : Acc) (sv : Bool) (s : State) : Host.Outcome State Fault Refusal := mbWrite a sv 2 sv (signCalAct sv) s

/-- VERIFY_CAL. -/
def execVerifyCal (a : Acc) (sv : Bool) (s : State) : Host.Outcome State Fault Refusal := mbWrite a sv 3 sv (verifyCalAct sv) s

/-- CONFIRM. -/
def execConfirm (a : Acc) (sv : Bool) (s : State) : Host.Outcome State Fault Refusal := mbWrite a sv 4 sv confirmAct s

/-- ATTEST. -/
def execAttest (a : Acc) (sv : Bool) (s : State) : Host.Outcome State Fault Refusal := mbWrite a sv 5 true (attestAct sv) s

/-- DEBUG_CHALLENGE. -/
def execDebugChallenge (a : Acc) (sv : Bool) (s : State) : Host.Outcome State Fault Refusal :=
  mbWrite a sv 6 (!sv) (challengeAct sv) s

/-- DEBUG_UNLOCK. -/
def execDebugUnlock (a : Acc) (sv : Bool) (s : State) : Host.Outcome State Fault Refusal :=
  mbWrite a sv 7 (!sv) (unlockAct sv) s

/-- FUSE_KEY. [DESIGN CHOICE, log 8] -/
def execFuseKey (a : Acc) (sv blown : Bool) (s : State) : Host.Outcome State Fault Refusal :=
  mbWrite a sv 8 (!sv) (fuseKeyAct sv blown) s

/-- FUSE_REVOKE. -/
def execFuseRevoke (a : Acc) (sv blown : Bool) (s : State) : Host.Outcome State Fault Refusal :=
  mbWrite a sv 9 (!sv) (fuseRevokeAct sv blown) s

/-- FUSE_LOCK. -/
def execFuseLock (a : Acc) (sv blown : Bool) (s : State) : Host.Outcome State Fault Refusal :=
  mbWrite a sv 10 (!sv) (fuseLockAct sv blown) s

/-- MAILBOX_DONE. -/
def execMailboxDone (sv : Bool) (s : State) : Host.Outcome State Fault Refusal := .next (whileRuns 0x00C (mbDone sv) s)

/-- PMBUS_ENABLE (R860): CTRL.ENABLE of the PMBUS page is set. -/
def execPmbusEnable (a : Acc) (mode : Option (BitVec 8)) (s : State) : Host.Outcome State Fault Refusal :=
  .next (onPage a 0x00F 0x08 (pmbusEnableSt mode) s)

/-- PMB_ALERT (R860): PMB_ALERT_N goes low. -/
def execPmbAlert (s : State) : Host.Outcome State Fault Refusal :=
  .next (setEvt (modReg s 0x00F 0x108 fun w => putBit w 17 true) 0x00F 0)

/-- GPIO_EDGE. -/
def execGpioEdge (n : Fin 32) (level : Bool) (s : State) : Host.Outcome State Fault Refusal :=
  .next (gpioEdgeSt n level s)

end Sys2Proof.Machine
end

