-- ==== Sys2Proof/Machine/Clock.lean ====
section
/-! DEFINITION. The clock controller: cluster frequency and core voltage, PLL locks, holdover (R793–R803). -/

namespace Sys2Proof.Machine

/-- The clock controller with `f` applied. -/
def modClk (s : State) (f : ClkSt → ClkSt) : State := { s with clk := f s.clk }

/-- A frequency change ends (R794 steps 3 and 4). -/
def freqDone (c : Nat) (s : State) : State :=
  let s := lowerV (setCd s c { cdRec s c with busy := false, waitV := false })
  setEvt (incCnt s 0x005 0) 0x005 0

/-- A frequency change begins (R794 step 1). -/
def freqBegin (c step : Nat) (s : State) : State :=
  let s := setCd s c { cdRec s c with target := step, busy := true, waitV := !opMet s (stepOp step) }
  let s := raiseV s (stepOp step)
  let r := cdRec s c
  if r.cur = step then freqDone c s else s

/-- CD_FREQ written (R794, R795): values 17–31 act as 16. -/
def cdFreqSt (c : Nat) (v : Word) (s : State) : State :=
  let step := min 16 (bits v 4 0)
  let s := setReg s 0x005 (0x100 + 4 * c) (v &&& 0x1F)
  if (cdRec s c).busy then setCd s c { cdRec s c with held := some step } else freqBegin c step s

/-- Clusters whose operating point is met go on to slew. -/
def releaseClusters (s : State) : State :=
  (List.range 16).foldl (fun s c =>
    let r := cdRec s c
    if r.busy && r.waitV && opMet s (stepOp r.target) then setCd s c { r with waitV := false } else s) s

/-- The highest operating point that a waiting cluster or a domain switching on needs. -/
def wantedOp (s : State) : Nat :=
  ((List.range 16).map fun c =>
    let r := cdRec s c
    let d := pdRec s c
    max (if r.busy && r.waitV then stepOp r.target else 0)
      (if d.cur = .trans ∧ d.target = .on ∧ !d.queued then stepOp r.cur else 0)).foldl max 0

/-- AVS_SETTLED (R794): the commanded voltage has settled; a SETTLE of 0 acts as 1. -/
def avsSettledSt (s : State) : State :=
  match s.clk.pendOp with
  | none => s
  | some p =>
    if !usSince s s.clk.pendAt (max 1 (bits (getReg s 0x005 0x188) 15 0)) then s
    else
      let s := releaseClusters (modClk s fun k => { k with op := p, pendOp := none })
      lowerV (raiseV s (wantedOp s))

/-- PLL_SLEW_STEP (R794 step 2). -/
def slewSt (c : Nat) (s : State) : State :=
  let r := cdRec s c
  if !r.busy || r.waitV then s
  else
    let cur := if r.cur < r.target then r.cur + 1 else r.cur - 1
    let s := setCd s c { r with cur := cur }
    if cur ≠ r.target then s
    else
      let s := freqDone c s
      match (cdRec s c).held with
      | some step => freqBegin c step (setCd s c { cdRec s c with held := none })
      | none => s

/-- AVS_FAIL (R797, R860): the higher voltage stays; the clusters that need more are held. [DEDUCED, log 114] -/
def avsFailSt (s : State) : State :=
  match s.clk.pendOp with
  | none => s
  | some _ =>
    let s := modClk s fun k => { k with pendOp := none, mv := max k.mv (vfFuse s k.op) }
    let s := ownErr (setEvt s 0x005 3) 0x005 4 0x02 none
    let s := modReg s 0x00F 0x108 fun w => putBit w 16 true
    ownErr (setEvt s 0x00F 1) 0x00F 4 0x02 none

/-- The lane pages that a lane PLL feeds (PLL_STS bits 26–29). -/
def pllFeeds (pll p : Nat) : Bool :=
  match pageKind p with
  | some .xlane | some .xspare => decide (pll = 26)
  | some .nlane => decide (pll = 27)
  | some .plane => decide (pll = 28)
  | some .klane => decide (pll = 29)
  | _ => false

/-- A PLL other than the sample PLL in holdover loses lock (R799). [DEDUCED, log 115; DESIGN CHOICE, log 116] -/
def pllUnlockSt (pll : Nat) (lanes : List (Fin 512 × Fin 4)) (s : State) : State :=
  if bit (getReg s 0x005 0x180) pll ∨ (pll = 19 ∧ bit (getReg s 0x005 0x1A0) 0) then s
  else
    let s := setEvt (modReg s 0x005 0x180 fun w => putBit w pll true) 0x005 1
    let fatal := decide (pll = 17 ∨ pll = 18)
    let s := ownErr (incCnt s 0x005 2) 0x005 4 (if fatal then 0x03 else 0x01) none
    let s := if fatal then modEvt s fun e => { e with fatalPend := e.fatalPend ++ [pll - 15] } else s
    (lanes.filter fun x => pllFeeds pll x.1).foldl (fun s x => if pageOn s x.1 then cdrUnlockSt x.1 x.2 s else s) s

/-- HOLDOVER (R798). [DEDUCED, log 115] -/
def holdoverSt (refLost : Bool) (s : State) : State :=
  if !bit (getReg s 0x005 0x1A0) 0 || s.clk.holdover then s
  else
    let s := setReg (modClk s fun k => { k with holdover := true }) 0x005 0x1A4 (if refLost then 2 else 3)
    let s := ownErr (setEvt (if refLost then s else incCnt s 0x005 2) 0x005 2) 0x005 4 0x01 none
    (List.range 32).foldl (fun s q => loseLanes q s) s

/-- DFE0 is at a boundary of the LEMC of one of its running links, or has none that runs (R798). -/
def lemc0Edge (s : State) : Bool :=
  let run := (List.range 8).filter fun q => (linkOf s q).st = 4
  run.isEmpty || run.any fun q => laneEdge s q

/-- HOLDOVER_EXIT (R798). [DEDUCED, log 115] -/
def holdoverExitSt (s : State) : State :=
  if !s.clk.holdover || !lemc0Edge s then s
  else setReg (modClk s fun k => { k with holdover := false }) 0x005 0x1A4 1

/-- CD_STS. [DEDUCED, log 22] -/
def cdSts (s : State) (c : Nat) : Word :=
  let r := cdRec s c
  w32 ((if r.busy then 2 ^ 31 else 0) + (match r.held with | some h => 2 ^ 24 + h * 2 ^ 16 | none => 0) + r.target * 2 ^ 8 + r.cur)

/-- AVS_STS. [DEDUCED, log 22] -/
def avsSts (s : State) : Word := w32 (s.clk.op * 2 ^ 16 + s.clk.mv)

/-! ### Commands -/

/-- CD_FREQ_WRITE. -/
def execCdFreqWrite (a : Acc) (c : Fin 16) (v : Word) (s : State) : Host.Outcome State Fault Refusal :=
  .next (onPage a 0x005 (0x100 + 4 * c) (cdFreqSt c v) s)

/-- AVS_SETTLED. -/
def execAvsSettled (s : State) : Host.Outcome State Fault Refusal := .next (avsSettledSt s)

/-- PLL_SLEW_STEP. -/
def execPllSlewStep (c : Fin 16) (s : State) : Host.Outcome State Fault Refusal := .next (slewSt c s)

/-- AVS_FAIL. -/
def execAvsFail (s : State) : Host.Outcome State Fault Refusal := .next (avsFailSt s)

/-- PLL_UNLOCK. -/
def execPllUnlock (pll : Fin 30) (lanes : List (Fin 512 × Fin 4)) (s : State) : Host.Outcome State Fault Refusal :=
  .next (pllUnlockSt pll lanes s)

/-- PLL_RELOCK (R799). -/
def execPllRelock (pll : Fin 30) (s : State) : Host.Outcome State Fault Refusal :=
  .next (modReg s 0x005 0x180 fun w => putBit w pll false)

/-- HOLDOVER. -/
def execHoldover (refLost : Bool) (s : State) : Host.Outcome State Fault Refusal := .next (holdoverSt refLost s)

/-- HOLDOVER_EXIT. -/
def execHoldoverExit (s : State) : Host.Outcome State Fault Refusal := .next (holdoverExitSt s)

end Sys2Proof.Machine
end

