-- ==== Sys2Proof/Machine/Firmware.lean ====
section
/-! DEFINITION. The supervisor firmware's handling of the PHY API and of controlled stops (R29, R721, R722, R849). -/

namespace Sys2Proof.Machine

/-- A PHY instance. [DESIGN CHOICE, log 106] -/
def phyOf (s : State) (phy : Nat) : PhySt := kget PhySt.init s.phys phy

/-- Stores a PHY instance. -/
def setPhy (s : State) (phy : Nat) (x : PhySt) : State := { s with phys := kset PhySt.init s.phys phy x }

/-- A message for a PHY instance: MSG_INVALID_STATE where it comes on the path that R29 does not select, or in a state
that does not take it (R721). [PRESUMED, log 105] -/
def phyMessage (phy : Nat) (pcie : Bool) (ok : PhySt → Bool) (act : State → State) (s : State) : State :=
  match s.boot.cfg with
  | none => fapiSend (.errorIndication phy .invalidState) s
  | some c =>
    match c.set.pcie[phy]? with
    | none => fapiSend (.errorIndication phy .invalidConfig) s
    | some path => if path = pcie ∧ ok (phyOf s phy) then act s else fapiSend (.errorIndication phy .invalidState) s

/-- A slot request (R722): refused where it comes later than the accept advance before its slot. [PRESUMED, log 105] -/
def slotRequest (kind phy : Nat) (start : Int) (s : State) : State :=
  let accept := (s.boot.cfg.map (·.set.accept)).getD 0
  if start - devNs s < accept then fapiSend (.errorIndication phy .invalidSfn) s
  else setPhy s phy { phyOf s phy with reqs := (phyOf s phy).reqs ++ [(kind, start)] }

/-- The controlled stop begins (R848, steps 1–3). [PRESUMED, log 105] -/
def stopBegin (phy : Nat) (lnx : Bool) (offNs : Nat) (s : State) : State :=
  phyPoll (setPhy s phy { phyOf s phy with st := 3, lnx := lnx, offAt := devNs s + offNs })

/-- PARAM_REQUEST (R721). -/
def execParamRequest (phy : BitVec 8) (pcie : Bool) (s : State) : Host.Outcome State Fault Refusal :=
  .next (phyMessage phy.toNat pcie (fun x => decide (x.st < 2)) (fapiSend (.paramResponse phy.toNat)) s)

/-- CONFIG_REQUEST (R721). -/
def execConfigRequest (phy : BitVec 8) (pcie : Bool) (s : State) : Host.Outcome State Fault Refusal :=
  .next (phyMessage phy.toNat pcie (fun x => decide (x.st < 2)) (fun s =>
    fapiSend (.configResponse phy.toNat) (setPhy s phy.toNat { phyOf s phy.toNat with st := 1 })) s)

/-- START_REQUEST (R721). -/
def execStartRequest (phy : BitVec 8) (pcie : Bool) (s : State) : Host.Outcome State Fault Refusal :=
  .next (phyMessage phy.toNat pcie (fun x => decide (x.st = 1)) (fun s =>
    setPhy s phy.toNat { phyOf s phy.toNat with st := 2, reqs := [] }) s)

/-- STOP_REQUEST (R721, R848). -/
def execStopRequest (phy : BitVec 8) (pcie : Bool) (offNs : Nat) (s : State) : Host.Outcome State Fault Refusal :=
  .next (phyMessage phy.toNat pcie (fun x => decide (x.st = 2)) (stopBegin phy.toNat false offNs) s)

/-- DL_TTI_REQUEST (R722). -/
def execDlTtiRequest (phy : BitVec 8) (pcie : Bool) (start : Int) (s : State) : Host.Outcome State Fault Refusal :=
  .next (phyMessage phy.toNat pcie (fun x => decide (x.st = 2)) (slotRequest 0 phy.toNat start) s)

/-- UL_TTI_REQUEST (R722). -/
def execUlTtiRequest (phy : BitVec 8) (pcie : Bool) (start : Int) (s : State) : Host.Outcome State Fault Refusal :=
  .next (phyMessage phy.toNat pcie (fun x => decide (x.st = 2)) (slotRequest 1 phy.toNat start) s)

/-- UL_DCI_REQUEST (R722). -/
def execUlDciRequest (phy : BitVec 8) (pcie : Bool) (start : Int) (s : State) : Host.Outcome State Fault Refusal :=
  .next (phyMessage phy.toNat pcie (fun x => decide (x.st = 2)) (slotRequest 2 phy.toNat start) s)

/-- TX_DATA_REQUEST (R722). -/
def execTxDataRequest (phy : BitVec 8) (pcie : Bool) (start : Int) (s : State) : Host.Outcome State Fault Refusal :=
  .next (phyMessage phy.toNat pcie (fun x => decide (x.st = 2)) (slotRequest 3 phy.toNat start) s)

/-- LNX_STOP_REQUEST (R721, R848). -/
def execLnxStopRequest (phy : BitVec 8) (pcie : Bool) (offNs : Nat) (s : State) : Host.Outcome State Fault Refusal :=
  .next (phyMessage phy.toNat pcie (fun x => decide (x.st = 2)) (stopBegin phy.toNat true offNs) s)

/-- LNX_STATS_REQUEST (R721): answered with the next snapshot. -/
def execLnxStatsRequest (phy : BitVec 8) (pcie : Bool) (s : State) : Host.Outcome State Fault Refusal :=
  .next (phyMessage phy.toNat pcie (fun _ => true) (fun s =>
    setPhy s phy.toNat { phyOf s phy.toNat with stats := true }) s)

/-- SLOT_INDICATION (R722): at the indication advance before the slot's start. -/
def execSlotIndication (phy : BitVec 8) (start : Int) (s : State) : Host.Outcome State Fault Refusal :=
  let adv := (s.boot.cfg.map (·.set.indicate)).getD 0
  .next (if (phyOf s phy.toNat).st = 2 ∧ start - adv ≤ devNs s ∧ devNs s < start then
    fapiSend (.slotIndication phy.toNat start) s else s)

/-- The statistics asked for go out with a snapshot's number (R721). -/
def statsAnswers (seq : Nat) (s : State) : State :=
  s.phys.foldl (fun s e => if e.2.stats then
    fapiSend (.lnxStatsResponse e.1 seq) (setPhy s e.1 { phyOf s e.1 with stats := false }) else s) s

/-- STOP_TIMEOUT (R849): 10 ms after TX_OFF, the units that hold a fire of the carrier are soft-reset and its instances
freed. [DESIGN CHOICE, log 106] -/
def stopTimeoutSt (phy : Nat) (s : State) : State :=
  let x := phyOf s phy
  let is := phyInsts s phy
  if x.st ≠ 3 ∨ devNs s < x.offAt + 10000000 then s
  else
    let pages := (s.disp.fires.filter fun f => is.contains f.inst).filterMap fun f => memberPage s f.pool f.member
    let s := (domainOrder pages).foldl (fun s p => softResetSt p s) s
    let s := is.foldl (fun s i => setInst (modDisp s fun d => { d with
      entries := d.entries.filter fun e => !decide (e.inst = i)
      fires := d.fires.map fun f => if f.inst = i then { f with counted := false } else f }) i InstRec.init) s
    phyStopped phy true s
where
  /-- Each page once, in order of page number. -/
  domainOrder (ps : List Nat) : List Nat := (List.range 512).filter fun p => ps.contains p

/-- STOP_TIMEOUT. -/
def execStopTimeout (phy : BitVec 8) (s : State) : Host.Outcome State Fault Refusal := .next (stopTimeoutSt phy.toNat s)

end Sys2Proof.Machine
end

