-- ==== Sys2Proof/Machine/Power.lean ====
section
/-! DEFINITION. The power controller's requests, transitions, wakes and groups (R771–R789). -/

namespace Sys2Proof.Machine

/-- A group's record. -/
def grpRec (s : State) (g : Nat) : GrpRec := kget GrpRec.init s.pwr.grps g

/-- Stores a group's record. -/
def setGrp (s : State) (g : Nat) (r : GrpRec) : State :=
  { s with pwr := { s.pwr with grps := kset GrpRec.init s.pwr.grps g r } }

/-- A request for a domain ends with a result (R777). -/
def recordEnd (n r : Nat) (s : State) : State :=
  let s := setEvt (setPd s n { pdRec s n with result := r }) 0x004 0
  if r = 1 ∨ r = 2 ∨ r = 3 then incCnt (setEvt s 0x004 1) 0x004 3 else s

/-- The order of the states, for what lowers a domain. -/
def PdState.rank : PdState → Nat
  | .off => 0
  | .retain => 1
  | .on => 2
  | .trans => 3

/-- Every page of a domain performs the soft reset of R58 (R771, FORCE). [DEDUCED, log 110] -/
def forceReset (n : Nat) (s : State) : State :=
  (domainPages n).foldl (fun s p => setReg (setReg (softSteps p s) p 0x08 0) p 0x10 0) s

/-- A request finds its domain in a settled state (R771, R774): a result where it ends at once. [DEDUCED, log 110] -/
def tryStart (n : Nat) (q : PdReq) (s : State) : State × Option Nat :=
  let r := pdRec s n
  if q.want = r.cur then (s, some 0)
  else if q.want.rank < r.cur.rank ∧ bit (pdCfg s n) 31 then (s, some 1)
  else if q.want = .on ∨ r.cur ≠ .on then (beginTrans s n q.want (some q), none)
  else if q.entry = 2 ∧ q.want = .off then (beginTrans (forceReset n s) n .off (some q), none)
  else (setPd s n { r with wait := some { q with since := s.time.free } }, none)

/-- A request arrives (R775): held behind a transition, in place of one that has not begun, or started. [DEDUCED, log 109] -/
def submitPd (n : Nat) (q : PdReq) (s : State) : State × Option Nat :=
  let r := pdRec s n
  if r.cur = .trans then
    let s := if r.held.isSome then recordEnd n 4 s else s
    (setPd s n { pdRec s n with held := some q }, none)
  else
    let s := if r.wait.isSome then recordEnd n 4 s else s
    tryStart n q (setPd s n { pdRec s n with wait := none })

/-! ### Groups (R786–R789) -/

/-- The bytes of a group's list, up to the first 0xFF (R786). -/
def grpList (s : State) (g : Nat) : List Nat :=
  ((List.range 16).map fun j => bits (getReg s 0x004 (0x200 + 0x20 * g + j / 4 * 4)) (j % 4 * 8 + 7) (j % 4 * 8)).takeWhile
    (· ≠ 0xFF)

/-- The first entry that makes a list malformed (R786). -/
def badEntry : List Nat → List Nat → Option Nat
  | _, [] => none
  | seen, d :: ds => if 48 ≤ d ∨ seen.contains d then some d else badEntry (d :: seen) ds

/-- A group request ends (R786, R787). [DEDUCED, log 111] -/
def grpEnd (g result dom : Nat) (s : State) : State :=
  setEvt (setGrp s g { grpRec s g with
    busy := false, started := false, waiting := false, left := [], done := [], rolling := false, result := result, domain := dom })
    0x004 5

/-- A group request becomes current (R786). -/
def grpStart (g : Nat) (want : PdState) (entry : EntryCond) (s : State) : State :=
  let l := grpList s g
  match badEntry [] l with
  | some d => ownErr (setEvt (grpEnd g 8 d s) 0x004 1) 0x004 6 0x03 none
  | none =>
    let s := setGrp s g { grpRec s g with
      busy := true, list := l, want := want, entry := entry, left := if want = .on then l.reverse else l, order := s.pwr.nextOrder,
      result := 0, domain := 0 }
    { s with pwr := { s.pwr with nextOrder := s.pwr.nextOrder + 1 } }

/-- A domain's request made for group `g` has ended with `r`. -/
def grpResult (g n r : Nat) (s : State) : State :=
  let x := { grpRec s g with waiting := false }
  if x.rolling ∨ r = 0 then setGrp s g x
  else if x.want = .on then setEvt (grpEnd g r n s) 0x004 1
  else setGrp s g { x with rolling := true, left := [], done := x.done.dropLast, failed := r, failDom := n }

/-- A request for a domain ends; a group that asked for it learns of it. -/
def endReq (n : Nat) (q : PdReq) (r : Nat) (s : State) : State :=
  match q.by_ with
  | .grp g => grpResult g n r (recordEnd n r s)
  | .rollback g => grpResult g n r (recordEnd n (if r = 0 then 7 else r) s)
  | _ => recordEnd n r s

/-- A request is made, and ends where it ends at once. -/
def askPd (n : Nat) (q : PdReq) (s : State) : State :=
  match submitPd n q s with
  | (s, none) => s
  | (s, some r) => endReq n q r s

/-- A group can take a step: it is not waiting for a domain, and no earlier request names one of its domains (R788). -/
def grpReady (s : State) (g : Nat) : Bool :=
  let x := grpRec s g
  x.busy && !x.waiting && (x.started || !(List.range 16).any fun h =>
    let y := grpRec s h
    y.busy && decide (y.order < x.order) && y.list.any fun d => x.list.contains d)

/-- The next domain of a group is asked for, or the group's request ends. [DEDUCED, log 111] -/
def grpStep (g : Nat) (s : State) : State :=
  let x := { grpRec s g with started := true }
  if x.rolling then
    match x.done.getLast? with
    | none => incCnt (setEvt (grpEnd g x.failed x.failDom s) 0x004 1) 0x004 4
    | some (d, was) =>
      let s := setGrp s g { x with done := x.done.dropLast, waiting := decide (was ≠ x.want) }
      if was = x.want then s else askPd d ⟨was, 0, .rollback g, s.time.free⟩ s
  else
    match x.left with
    | [] =>
      let s := grpEnd g 0 0 s
      match x.held with
      | some (want, e) => grpStart g want e (setGrp s g { grpRec s g with held := none })
      | none => s
    | d :: ds =>
      let r := pdRec s d
      let was := if r.cur = .trans then r.target else r.cur
      askPd d ⟨x.want, x.entry, .grp g, s.time.free⟩ (setGrp s g { x with left := ds, done := x.done ++ [(d, was)], waiting := true })

/-- The held request of a group that has ended becomes current. -/
def grpHeld (s : State) : State :=
  match (List.range 16).find? fun g => !(grpRec s g).busy && (grpRec s g).held.isSome with
  | none => s
  | some g =>
    match (grpRec s g).held with
    | some (want, e) => grpStart g want e (setGrp s g { grpRec s g with held := none })
    | none => s

/-- Groups take their steps while any can. -/
def runGroups : Nat → State → State
  | 0, s => s
  | k + 1, s =>
    let s := grpHeld s
    match (List.range 16).find? (grpReady s) with
    | none => s
    | some g => runGroups k (grpStep g s)

/-- The steps that groups take after one event: each of 16 groups names at most 16 domains, each lowered and raised once. -/
def grpFuel : Nat := 1024

/-- A domain is one of a group whose request is in progress (R788). -/
def inBusyGroup (s : State) (n : Nat) : Bool := (List.range 16).any fun g => (grpRec s g).busy && (grpRec s g).list.contains n

/-- PD_REQ written (R771, R788). -/
def pdReqSt (n : Nat) (want : PdState) (e : EntryCond) (s : State) : State :=
  if inBusyGroup s n then recordEnd n 5 s
  else runGroups grpFuel (askPd n ⟨want, e, .req, s.time.free⟩ s)

/-- GRP_REQ written (R786, R788). -/
def grpReqSt (g : Nat) (want : PdState) (e : EntryCond) (s : State) : State :=
  let x := grpRec s g
  if x.busy then
    let s := if x.held.isSome then setEvt (setGrp s g { x with result := 4 }) 0x004 5 else s
    setGrp s g { grpRec s g with held := some (want, e) }
  else runGroups grpFuel (grpStart g want e s)

/-- A request register written: its state and entry condition. -/
def reqWrite (f : PdState → EntryCond → State → State) (v : Word) (s : State) : State :=
  let e := BitVec.ofNat 2 (bits v 5 4)
  match bits v 1 0 with
  | 0 => f .off e s
  | 1 => f .retain e s
  | 2 => f .on e s
  | _ => s

/-! ### Entry (R771–R773) -/

/-- A core is not at work (R772): its page is not enabled, or it waits, is halted or stopped. -/
def coreQuiet (all : Bool) (s : State) (c : Nat) : Bool :=
  let x := coreOf s c
  !ctrlEnable s (corePage c) || (match x.run with
    | .wait | .halted | .stopped => true
    | .fwait => !all && (waitingSlot x).isNone
    | .reset => true
    | .running => false)

/-- A request is still to be answered to the domain's blocks, or by its pages or memories (R772). -/
def pendingAt (s : State) (n : Nat) (r : Req) : Bool :=
  !r.dead && (decide (pageDomain (initPage s r.who) = n) || (r.answer.isNone && decide (pageDomain (addrPage s r.addr) = n)))

/-- The domain is quiescent (R772). -/
def quiescent (s : State) (n : Nat) : Bool :=
  ((domainPages n).all fun p => !pageBusy s p) &&
  (s.disp.fires.all fun f => !decide ((memberPage s f.pool f.member).map pageDomain = some n)) &&
  (decide (16 ≤ n) || (List.range 9).all fun i => coreQuiet false s (9 * n + i)) &&
  s.fab.reqs.all fun r => !pendingAt s n r

/-- The entry condition of a waiting request holds (R771). -/
def entryMet (s : State) (n : Nat) (q : PdReq) : Bool :=
  quiescent s n && (decide (q.entry ≠ 1 ∨ 16 ≤ n) || (List.range 9).all fun i => coreQuiet true s (9 * n + i))

/-- ENTRY_MET (R771). -/
def entryMetSt (n : Nat) (s : State) : State :=
  match (pdRec s n).wait with
  | some q => if entryMet s n q then beginTrans s n q.want (some q) else s
  | none => s

/-- QUIESCE_TIMEOUT (R773). -/
def quiesceTimeoutSt (n : Nat) (s : State) : State :=
  match (pdRec s n).wait with
  | some q =>
    let t := bits (pdCfg s n) 15 0
    if t ≠ 0 ∧ usSince s q.since t then
      runGroups grpFuel (endReq n q 2 (setPd s n { pdRec s n with wait := none }))
    else s
  | none => s

/-! ### Completion (R776–R785) -/

/-- The power controller delivers the fires that it holds for a domain that has reached ON, and refuses those for one
that has reached OFF (R782, R784). [DEDUCED, log 111] -/
def freeFires (n : Nat) (on : Bool) (s : State) : State :=
  let fs := (s.pwr.heldFires.filter fun x => x.1 = n).map (·.2)
  let s := { s with pwr := { s.pwr with heldFires := s.pwr.heldFires.filter fun x => !decide (x.1 = n) } }
  fs.foldl (fun s f => match on, memberPage s f.pool.toNat f.member.toNat with
    | true, some p => sendFire s p f
    | _, _ => pwrFail s f) s

/-- A switch-on place is free: the first domain that waits begins (R778). -/
def nextSwitchOn (s : State) : State :=
  match s.pwr.queue with
  | [] => s
  | n :: ns =>
    if switchingOn s < 4 then switchOn { s with pwr := { s.pwr with queue := ns } } n else s

/-- What follows a completed transition: a latched wake, the wake line, the held request (R776, R780, R781). -/
def afterTrans (n : Nat) (latched : Bool) (s : State) : State :=
  let held := (pdRec s n).held
  if (pdRec s n).cur = .retain ∧ latched then beginTrans (incCnt s 0x004 2) n .on none
  else if (pdRec s n).cur = .retain ∧ bit (pdCfg s n) 29 ∧ wakeLine s n then wakeDomain s n
  else match held with
    | some q =>
      let s := setPd s n { pdRec s n with held := none }
      match tryStart n q s with
      | (s, none) => s
      | (s, some r) => endReq n q r s
    | none => s

/-- A domain's contents in the state that it has reached. -/
def settle (n : Nat) (want : PdState) (s : State) : State :=
  match want with
  | .off => freeFires n false (domainOff n s)
  | .retain => domainRetain n s
  | _ => freeFires n true (domainOn n s)

/-- The transition of a domain may complete: it has its switch-on place, and a cluster the voltage it needs (R778, R796). -/
def transReady (s : State) (n : Nat) : Bool :=
  let r := pdRec s n
  decide (r.cur = .trans) && !r.queued && (!decide (n < 16 ∧ r.target = .on) || opMet s (stepOp (cdRec s n).cur))

/-- A wake line's wake is counted once for an entry. -/
def unWoke (n : Nat) (s : State) : State :=
  modEvt s fun e => { e with lineWoke := e.lineWoke.filter fun d => !decide (d = n) }

/-- TRANSITION_DONE (R776). -/
def transDoneSt (n : Nat) (s : State) : State :=
  if !transReady s n then s
  else
    let r := pdRec s n
    let s := incCnt (setReg s 0x004 (0x414 + 0x20 * n) (w32 (min (nsSince s r.began) 0xFFFFFFFF))) 0x004 0
    let s := setPd s n { r with cur := r.target, doing := none, latched := false }
    let s := lowerV (settle n r.target (unWoke n s))
    let s := match r.doing with
      | some q => endReq n q 0 s
      | none => s
    runGroups grpFuel (nextSwitchOn (afterTrans n r.latched s))

/-- PG_FAIL (R779). -/
def pgFailSt (n : Nat) (s : State) : State :=
  let r := pdRec s n
  if !r.up || r.queued || !usSince s r.began 100 then s
  else
    let s := setPd s n { r with cur := .off, doing := none, latched := false }
    let s := freeFires n false (domainOff n s)
    let s := ownErr (setEvt s 0x004 4) 0x004 5 0x02 (noAddr n)
    let s := match r.doing with
      | some q => endReq n q 6 s
      | none => setPd s n { pdRec s n with result := 6 }
    runGroups grpFuel (nextSwitchOn (afterTrans n false (lowerV s)))

/-- WAKE (R780, R781): the wake line of a domain whose EVT_WAKE is 1. -/
def wakeSt (n : Nat) (s : State) : State :=
  if !wakeLine s n || !bit (pdCfg s n) 29 then s
  else
    let r := pdRec s n
    if r.cur = .retain then wakeDomain s n
    else if r.cur = .trans ∧ r.target = .retain ∧ !s.evt.lineWoke.contains n then
      modEvt (wakeDomain s n) fun e => { e with lineWoke := e.lineWoke ++ [n] }
    else s

/-! ### Views (R802) -/

/-- PD_STS. [DEDUCED, log 22] -/
def pdSts (s : State) (n : Nat) : Word :=
  let r := pdRec s n
  let tgt := if r.cur = .trans then r.target else match r.wait with
    | some q => q.want
    | none => r.cur
  w32 (r.result * 2 ^ 28 + (match r.held with | some q => 2 ^ 12 + q.want.code * 2 ^ 8 | none => 0) + tgt.code * 16 + r.cur.code)

/-- GRP_STS. -/
def grpSts (s : State) (g : Nat) : Word :=
  let x := grpRec s g
  w32 ((if x.busy then 2 ^ 31 else 0) + (match x.held with | some (t, _) => 2 ^ 30 + t.code * 2 ^ 24 | none => 0) +
    x.result * 2 ^ 16 + x.domain)

/-- ACTIVE. -/
def pwrActive (s : State) : Word := w32 (s.pwr.queue.length * 2 ^ 8 + switchingOn s)

/-! ### Commands -/

/-- PD_REQ_ON. -/
def execPdReqOn (a : Acc) (n : Fin 48) (e : EntryCond) (s : State) : Host.Outcome State Fault Refusal :=
  .next (onPage a 0x004 (0x400 + 0x20 * n) (pdReqSt n .on e) s)

/-- PD_REQ_RETAIN. -/
def execPdReqRetain (a : Acc) (n : Fin 48) (e : EntryCond) (s : State) : Host.Outcome State Fault Refusal :=
  .next (onPage a 0x004 (0x400 + 0x20 * n) (pdReqSt n .retain e) s)

/-- PD_REQ_OFF. -/
def execPdReqOff (a : Acc) (n : Fin 48) (e : EntryCond) (s : State) : Host.Outcome State Fault Refusal :=
  .next (onPage a 0x004 (0x400 + 0x20 * n) (pdReqSt n .off e) s)

/-- GRP_REQ_ON. -/
def execGrpReqOn (a : Acc) (g : Fin 16) (e : EntryCond) (s : State) : Host.Outcome State Fault Refusal :=
  .next (onPage a 0x004 (0x210 + 0x20 * g) (grpReqSt g .on e) s)

/-- GRP_REQ_RETAIN. -/
def execGrpReqRetain (a : Acc) (g : Fin 16) (e : EntryCond) (s : State) : Host.Outcome State Fault Refusal :=
  .next (onPage a 0x004 (0x210 + 0x20 * g) (grpReqSt g .retain e) s)

/-- GRP_REQ_OFF. -/
def execGrpReqOff (a : Acc) (g : Fin 16) (e : EntryCond) (s : State) : Host.Outcome State Fault Refusal :=
  .next (onPage a 0x004 (0x210 + 0x20 * g) (grpReqSt g .off e) s)

/-- ENTRY_MET. -/
def execEntryMet (n : Fin 48) (s : State) : Host.Outcome State Fault Refusal := .next (entryMetSt n s)

/-- QUIESCE_TIMEOUT. -/
def execQuiesceTimeout (n : Fin 48) (s : State) : Host.Outcome State Fault Refusal := .next (quiesceTimeoutSt n s)

/-- TRANSITION_DONE. [DESIGN CHOICE, log 2] -/
def execTransitionDone (n : Fin 48) (s : State) : Host.Outcome State Fault Refusal := .next (transDoneSt n s)

/-- PG_FAIL. -/
def execPgFail (n : Fin 48) (s : State) : Host.Outcome State Fault Refusal := .next (pgFailSt n s)

/-- WAKE. -/
def execWake (n : Fin 48) (s : State) : Host.Outcome State Fault Refusal := .next (wakeSt n s)

end Sys2Proof.Machine
end

