-- ==== Sys2Proof/Machine/PageAccess.lean ====
section
/-! DEFINITION. A read and a write of any register of any page: the access codes (R12), the _LO/_HI pairs (R73–R78), the
registers that a window shows, the registers that are computed, and the registers whose write acts. -/

namespace Sys2Proof.Machine

/-! ### Pairs -/

/-- The _LO registers of a block's page: offset, number, step. The paired _HI stands 4 above. -/
def kindLows : Kind → List (Nat × Nat × Nat)
  | .devinfo => [(0x110, 1, 0)]
  | .disp => [(0x100, 1, 0), (0x138, 1, 0)]
  | .dfe => [(0x218, 1, 0), (0x304, 4, 0x20)]
  | .ofdm => [(0x100, 1, 0), (0x120, 1, 0)]
  | .fec => [(0x100, 1, 0), (0x108, 1, 0), (0x120, 1, 0), (0x134, 1, 0)]
  | .prism => [(0x100, 1, 0), (0x114, 1, 0), (0x128, 1, 0), (0x140, 1, 0), (0x154, 1, 0), (0x190, 4, 0x40), (0x198, 4, 0x40),
      (0x1A0, 4, 0x40), (0x1A8, 4, 0x40)]
  | .core => [(0x100, 1, 0)]
  | .svc => [(0x100, 1, 0)]
  | .mxc => [(0x120, 1, 0)]
  | .rtr => [(0x140, 1, 0), (0x15C, 1, 0), (0x164, 1, 0), (0x204, 8, 0x20), (0x20C, 8, 0x20)]
  | .dmach => [(0x10, 32, 0x80), (0x20, 32, 0x80), (0x2C, 32, 0x80)]
  | .dramc => [(0x144, 1, 0), (0x188, 1, 0)]
  | .ssram => [(0x100, 1, 0)]
  | .pkt => [(0x108, 1, 0), (0x114, 1, 0), (0x124, 1, 0), (0x200, 8, 0x20), (0x300, 8, 0x20)]
  | .tm => [(0x100, 1, 0), (0x120, 1, 0)]
  | .pcie => [(0x100, 1, 0), (0x200, 8, 0x40), (0x214, 8, 0x40)]
  | .time => [(0x100, 1, 0), (0x114, 1, 0), (0x11C, 1, 0), (0x128, 1, 0), (0x158, 1, 0)]
  | .pwrc => [(0x40C, 48, 0x20)]
  | .evtc => [(0x110, 1, 0)]
  | .boot => [(0x124, 1, 0)]
  | .secmb => [(0x104, 2, 0x40), (0x110, 2, 0x40)]
  | _ => []

/-- Offset `off` of page `p` is a _LO register. [DEDUCED, log 18] -/
def isLo (p off : Nat) : Bool :=
  match pageKind p with
  | none => false
  | some k =>
    (decide (p < 0x200) && decide (off = 0x24)) ||
    (decide (0x200 ≤ p) || decide (0x100 ≤ off)) && (kindLows k).any fun x =>
      decide (x.1 ≤ off) && (if x.2.2 = 0 then decide (off = x.1)
        else decide ((off - x.1) % x.2.2 = 0) && decide ((off - x.1) / x.2.2 < x.2.1))

/-- Offset `off` of page `p` is a _HI register. [DEDUCED, log 18] -/
def isHi (p off : Nat) : Bool := decide (4 ≤ off) && isLo p (off - 4)

/-! ### The header (R51–R54) -/

/-- CAPS of a page, as the block's chapter gives it. -/
def capsOf (p : Nat) : Nat :=
  let snap (n : Nat) : Nat := 2 ^ 30 + n * 2 ^ 24
  let ha := 2 ^ 31
  match pageKind p with
  | some .disp => ha + snap 15
  | some .time => ha + snap 4
  | some .dfe => ha + snap 8 + 16 * 2 ^ 8 + 132
  | some .xlane => snap 7
  | some .ofdm => ha + snap 12 + 64
  | some .fec => ha + snap 12 + 2 * 2 ^ 12 + 4 * 2 ^ 8 + 16
  | some .prism => ha + snap 12 + 64 * 2 ^ 8 + 128
  | some .cluster => 9
  | some .core => snap 8
  | some .svc => snap 8 + 1
  | some .mxc => ha + snap 10 + 8
  | some .rtr => snap 12
  | some .mring => snap 4
  | some .dma => snap 8 + 128
  | some .dramc => snap 10
  | some .ssram => (if p = 0x0F0 then ha else 0) + snap 7
  | some .nlane | some .plane | some .klane => snap 4
  | some .cuw => snap 8
  | some .pkt => snap 13
  | some .tm => ha + snap 7
  | some .pcie => snap 1
  | some .pwrc => snap 7
  | some .clkc => snap 3
  | some .evtc => snap 8
  | _ => 0

/-- CAPS.SNAP_COUNT. -/
def snapCount (p : Nat) : Nat := capsOf p / 2 ^ 24 % 64

/-- ID (R53): TYPE, INSTANCE, VERSION 0x01. -/
def idOf (p : Nat) : Nat :=
  match pageRow p with
  | some (_, _, _, t, _) => t * 2 ^ 20 + pageInst p * 2 ^ 8 + 1
  | none => 0

/-- PWR_DOMAIN (R72). -/
def pwrDomain (s : State) (p : Nat) : Nat := (pdState s (pageDomain p)).code * 2 ^ 8 + pageDomain p

/-- A header register as it reads. DEVINFO has no CTRL, MODE and events (R51); CTRL.ENABLE of DRAMC1–DRAMC15, and with
it STATUS.ENABLED, read as DRAMC0's (R640). -/
def viewHeader (s : State) (p off : Nat) : Word :=
  if off = 0x00 then w32 (idOf p)
  else if off = 0x04 then w32 (capsOf p)
  else if off = 0x44 then w32 (pwrDomain s p)
  else if p = 0x000 ∧ [0x08, 0x0C, 0x14, 0x18, 0x1C].contains off then 0
  else if off = 0x08 ∧ pageKind p = some .dramc then putBit (getReg s p 0x08) 0 (ctrlEnable s 0x0E0)
  else if off = 0x10 then
    if pageKind p = some .dramc then putBit (statusReg s p) 0 (enabled s 0x0E0) else statusReg s p
  else if off = 0x1C then evtPend s p
  else getReg s p off

/-! ### Registers that are computed or that a window shows -/

/-- A bit of a register that an index has. -/
def maskOf (f : Nat → Bool) (n : Nat) : Nat := ((List.range n).map fun i => if f i then 2 ^ i else 0).sum

/-- An instance's STATE code (R122). -/
def InstState.code : InstState → Nat
  | .free => 0
  | .open_ => 1
  | .closing => 2
  | .failed => 3

/-- A register of the DISP page (R156). -/
def viewDisp (s : State) (off : Nat) : Word :=
  let inst := bits (getReg s 0x002 0x120) 15 0
  let pool := bits (getReg s 0x002 0x12C) 31 28
  let m := bits (getReg s 0x002 0x12C) 7 0
  if off = 0x108 then w32 (s.disp.occPeak * 2 ^ 16 + s.disp.entries.length)
  else if off = 0x10C then w32 (reserved s)
  else if off = 0x110 then w32 (headroom s)
  else if off = 0x11C then
    w32 (maskOf (fun u => if haActive s 0x002 then haStalled s else s.disp.held.any fun h => decide (h.2 = u)) 4)
  else if off = 0x124 then w32 ((instRec s inst).st.code * 2 ^ 30 + (instRec s inst).peak)
  else if off = 0x128 then w32 ((instRec s inst).outstanding * 2 ^ 16 + instEntries s inst)
  else if off = 0x130 then
    let n := memberQueued s pool m
    w32 (min 255 n * 2 ^ 16 + (if n = 0 then 2 ^ 8 else 0) + if memberEn s pool m then 1 else 0)
  else getReg s 0x002 off

/-- The window index of a DFE register: chains under chain × 2 + view, carrier slots under their number; none where
CHAIN_SEL selects nothing. -/
def dfeIndex (s : State) (k off : Nat) (write : Bool) : Option Nat :=
  let v := if write then 0 else bits (getReg s (dfePage k) 0x1A0) 8 8
  if 0x1C0 ≤ off ∧ off ≤ 0x1DC then
    (chainSel s k).map fun c => c * 2 + if chPending.contains off then v else 0
  else if 0x210 ≤ off ∧ off ≤ 0x228 then some (bits (getReg s (dfePage k) 0x200) 3 0)
  else some 0

/-- A register of a DFE page (R223, R390). -/
def viewDfe (s : State) (p off : Nat) : Word :=
  let k := p - 0x0C8
  let sel := getReg s p 0x240
  if off = 0x10C then txState s k
  else if 0x300 ≤ off ∧ off < 0x380 ∧ off % 0x20 = 0x10 then
    match calOf s k ((off - 0x300) / 0x20) with
    | some r => calBusy s k ((off - 0x300) / 0x20) r
    | none => getReg s p off
  else if off = 0x1AC then chainSts s k
  else if off = 0x224 then csLatOf s k (bits (getReg s p 0x200) 3 0)
  else if off = 0x228 then csState s k
  else if off = 0x244 then
    if 24 ≤ bits sel 12 8 then 0
    else kget (if bits sel 12 8 = 23 then 0x1FFFF else 0) (dfeOf s k).coefs (bits sel 2 0 * 24 + bits sel 12 8)
  else match dfeIndex s k off false with
    | some i => getRegI s p off i
    | none => 0

/-- A register of an OFDM page (R280). -/
def viewOfdm (s : State) (p off : Nat) : Word :=
  let sel := getReg s p 0x118
  if off = 0x11C then smoothTap s (p - 0x0CC) (bits sel 10 8) (bits sel 2 0)
  else if 0x180 ≤ off then getRegI s p off (bits (getReg s p 0x108) 5 0)
  else getReg s p off

/-- TAP_STS (R339). -/
def tapSts (s : State) (k : Nat) : Word :=
  let t := tapOf s k
  w32 (t.ints % 2 ^ 16 * 2 ^ 16 + (if t.chans.any fun c => decide (c.2.settle ≠ 0) then 2 ^ 8 else 0) + t.set % 4)

/-- A register of the PRISM page (R382, R383). -/
def viewPrism (s : State) (off : Nat) : Word :=
  if off = 0x134 then w32 (bufFreeCount s)
  else if 0x180 ≤ off ∧ (off - 0x180) % 0x40 = 0x0C then tapSts s ((off - 0x180) / 0x40)
  else getReg s prismPage off

/-- A register of a detector page: DET_STS tells P_n, whether it is valid, whether a capture of the detector runs and whether it
confirms (R383). -/
def viewDet (s : State) (p off : Nat) : Word :=
  let d := (p - 0x261) * 16 + off / 0x100
  if off % 0x100 = 0x24 then
    let mine := s.prism.caps.filter fun c => c.det = d
    let x := detSt s d
    let w := putBit (putBits 0 31 16 (dBq8 x.pn)) 1 (decide (bgSamples s d ≤ x.count))
    putBit (putBit (putBit w 3 (mine.any (·.confirming))) 2 (!mine.isEmpty)) 0 (detActive s d)
  else getReg s p off

/-- A register of a CORE or SVC page (R477). -/
def viewCore (s : State) (c off : Nat) : Word :=
  let x := coreOf s c
  if off = 0x100 then w32 x.lastPc
  else if off = 0x104 then w32 (x.lastPc / 2 ^ 32 % 2 ^ 16)
  else if off = 0x108 then coreSts s c
  else if off = 0x10C then w32 x.haltCause
  else if off = 0x110 then putBit (getReg s (corePage c) off) 1 x.step
  else getReg s (corePage c) off

/-- A register of an MXC page (R552). -/
def viewMxc (s : State) (p off : Nat) : Word :=
  let m := p - 0x020
  if off = 0x104 then ctxSts s m
  else if off = 0x108 then ctxInfo (mxCtxOf s m (bits (getReg s p 0x100) 2 0))
  else if off = 0x110 then runSts s m
  else getReg s p off

/-- A register of an RTR page (R594): LINK registers by BUNDLE_SEL, port registers by LP_SEL, which ROOT ignores. -/
def viewRtr (s : State) (p off : Nat) : Word :=
  let r := p - 0x0F8
  let n := if r = 6 then 0 else bits (getReg s p 0x130) 2 0
  let link (f : Nat → Word) : Word := match bundleSel s r with | some b => f b | none => 0
  let idx (b : Nat) : Nat := if r = 6 then b else 0
  if off = 0x100 then epochReg s r
  else if off = 0x104 then inflightReg s r
  else if off = 0x10C then link fun b => getRegI s p off (idx b)
  else if off = 0x110 then link (linkStsOf s r)
  else if off = 0x114 ∨ off = 0x118 then link fun b => getRegI s p off (idx b)
  else if off = 0x120 then tblData s r
  else if off = 0x134 ∨ off = 0x138 then getRegI s p off n
  else if 0x13C ≤ off ∧ off ≤ 0x168 then isRead s r n off
  else getReg s p off

/-- A register of a DMA channel (R624). -/
def viewDmach (s : State) (p off : Nat) : Word :=
  let c := (p - 0x200) * 32 + off / 0x80
  let x := dmaCh s c
  match off % 0x80 with
  | 0x08 => chSts s c
  | 0x0C => chCountReg s c
  | 0x20 => w32 x.desc
  | 0x24 => w32 (x.desc / 2 ^ 32 % 2 ^ 16)
  | 0x28 => x.csum.getD 0xFFFFFFFF
  | 0x2C => w32 x.beatAddr
  | 0x30 => w32 (x.beatAddr / 2 ^ 32 % 2 ^ 16)
  | 0x34 => chStage s c
  | 0x38 => w32 x.descCnt
  | _ => getReg s p off

/-- A register of the TIME page (R763). -/
def viewTime (s : State) (off : Nat) : Word :=
  if off = 0x100 then w32 (devSec s)
  else if off = 0x104 then w32 (devSec s / 2 ^ 32)
  else if off = 0x110 then slice s
  else if off = 0x114 then w32 (freeNow s)
  else if off = 0x118 then w32 (freeNow s / 2 ^ 32)
  else getReg s 0x003 off

/-- A register of the EVTC page (R824). -/
def viewEvtc (s : State) (off : Nat) : Word :=
  let src := bits (getReg s 0x001 0x100) 10 0
  if off = 0x104 then routeReg s src
  else if off = 0x108 then srcSts s
  else if off = 0x110 ∨ off = 0x114 then getRegI s 0x001 off (bits (getReg s 0x001 0x10C) 7 0)
  else if off = 0x120 then echoSts s
  else if off = 0x124 then w32 s.evt.queue.length
  else if 0x128 ≤ off ∧ off ≤ 0x138 then rptWord s ((off - 0x128) / 4)
  else getReg s 0x001 off

/-- A register of the PWRC page (R802); the bits of RET_MASK that a domain does not use read 0. -/
def viewPwrc (s : State) (off : Nat) : Word :=
  if off = 0x100 then pwrActive s
  else if 0x200 ≤ off ∧ off < 0x400 ∧ off % 0x20 = 0x14 then grpSts s ((off - 0x200) / 0x20)
  else if 0x400 ≤ off then
    let n := (off - 0x400) / 0x20
    match off % 0x20 with
    | 0x04 => pdSts s n
    | 0x0C => getReg s 0x004 off &&& w32 (retBits n).toNat
    | 0x10 => getReg s 0x004 off &&& w32 ((retBits n).toNat / 2 ^ 32)
    | _ => getReg s 0x004 off
  else getReg s 0x004 off

/-- A register of the CLKC page (R803). -/
def viewClkc (s : State) (off : Nat) : Word :=
  if 0x140 ≤ off ∧ off < 0x180 then cdSts s ((off - 0x140) / 4)
  else if off = 0x184 then avsSts s
  else if 0x18C ≤ off ∧ off ≤ 0x194 then (s.fuses.vf[(off - 0x18C) / 4]?).getD 0 &&& 0xFFFF
  else getReg s 0x005 off

/-- A register of the BOOT page (R853). -/
def viewBoot (s : State) (off : Nat) : Word :=
  if off = 0x108 then bootSts s
  else if off = 0x11C then
    w32 ((if s.boot.bist.contains (bits (getReg s 0x00D 0x118) 8 0) then 2 ^ 31 else 0) + s.boot.bist.length)
  else getReg s 0x00D off

/-- A register of DEVINFO (R51). [PRESUMED, log 12] -/
def viewDevinfo (s : State) (off : Nat) : Word :=
  if off = 0x110 then w32 s.fuses.dieId.toNat
  else if off = 0x114 then w32 (s.fuses.dieId.toNat / 2 ^ 32)
  else if off = 0x11C then s.fuses.shipMapVer
  else getReg s 0x000 off

/-- A register as it reads (R12, R74): what the block shows now. -/
def viewReg (s : State) (p off : Nat) : Word :=
  match pageKind p, findReg p off with
  | some k, some d =>
    if d.acc = .wo then 0
    else if p < 0x200 ∧ off < 0x100 then viewHeader s p off
    else match k with
    | .devinfo => viewDevinfo s off
    | .evtc => viewEvtc s off
    | .disp => viewDisp s off
    | .time => viewTime s off
    | .pwrc => viewPwrc s off
    | .clkc => viewClkc s off
    | .mring => if off = 0x110 then w32 (fabFrame s) else getReg s p off
    | .tm => if off = 0x10C then w32 (bufUsed s) else getReg s p off
    | .tmq => if off % 0x40 = 0x14 then w32 (qDepth s ((p - 0x220) * 64 + off / 0x40)) else getReg s p off
    | .cuw =>
      if off = 0x108 then cuwSts s
      else if off = 0x10C then cuwLanes s
      else if off = 0x110 then creditSts s
      else if off = 0x11C then peerId s
      else getReg s p off
    | .prism => viewPrism s off
    | .det => viewDet s p off
    | .boot => viewBoot s off
    | .pmbus => if off = 0x108 then pmbSts s else getReg s p off
    | .cluster => if off = 0x100 then coreMapOf s (p - 0x010) else getReg s p off
    | .mxc => viewMxc s p off
    | .core => viewCore s (p - 0x030) off
    | .svc => viewCore s (144 + (p - 0x0C0)) off
    | .dfe => viewDfe s p off
    | .xlane =>
      if off = 0x110 then linkSts s (p - 0x100)
      else if off = 0x108 then putBit (getReg s p off) 8 (linkOf s (p - 0x100)).armed
      else getReg s p off
    | .xspare => if off = 0x108 then w32 (subOf s (p - 0x120)).st else getReg s p off
    | .ofdm => viewOfdm s p off
    | .fec => if off = 0x114 then w32 (maskOf (fun e => (busyEngines s (p - 0x0D0)).contains e) 25) else getReg s p off
    | .dma =>
      if off = 0x100 then engSts s (p - 0x0D8)
      else if 0x130 ≤ off ∧ off < 0x140 then
        w32 (maskOf (fun j => (dmaCh s (128 * (p - 0x0D8) + 32 * ((off - 0x130) / 4) + j)).st = 3) 32)
      else getReg s p off
    | .dmach => viewDmach s p off
    | .dramc =>
      if p ≠ 0x0E0 ∧ 0x100 ≤ off ∧ off ≤ 0x14C then 0
      else if off = 0x14C then w32 s.memc.scrubPos
      else getReg s p off
    | .ssram => if 0x110 ≤ off ∧ p ≠ 0x0F0 then 0 else if off = 0x11C then rrSts s else getReg s p off
    | .rtr => viewRtr s p off
    | _ => getReg s p off
  | _, _ => 0

/-! ### Reads -/

/-- The window index under which a register is stored, for a register whose read clears it. -/
def rcIndex (s : State) (p off : Nat) : Option Nat :=
  match pageKind p with
  | some .dfe => dfeIndex s (p - 0x0C8) off true
  | some .rtr => some (if 0x134 ≤ off ∧ off ≤ 0x168 ∧ p ≠ 0x0FE then bits (getReg s p 0x130) 2 0 else 0)
  | _ => some 0

/-- A read of an RC register clears it (R12); a window that selects nothing has none. -/
def clearRc (p off : Nat) (s : State) : State :=
  match findReg p off, rcIndex s p off with
  | some d, some i => if d.acc = .rc then setRegI s p off i 0 else s
  | _, _ => s

/-- An RC register counts: it is none of the maxima. -/
def rcCounts (p off : Nat) : Bool :=
  match pageKind p with
  | some .rtr => !(decide (off = 0x148) || decide (0x300 ≤ off))
  | some .tmq => !(decide (off % 0x40 = 0x18) || decide (off % 0x40 = 0x20))
  | _ => true

/-- The hardware increments an RC counter in the cycle of its read (R14): the increment comes after the clear. -/
def rcCoincide (p off : Nat) (hw : Coincide) (s : State) : State :=
  match findReg p off, rcIndex s p off with
  | some d, some i =>
    if d.acc = .rc ∧ hw.inc ∧ pageOn s p ∧ rcCounts p off then
      setRegI s p off i (w32 (satAdd d.mask (getRegI s p off i).toNat 1))
    else s
  | _, _ => s

/-- A 32-bit read of a register that its page answers: the value and what the read does (R12, R73, R74, R742, R760). -/
def pageRead (a : Acc) (p off : Nat) (s : State) : Word × State :=
  if p = 0x003 ∧ off = 0x100 then nowSecRead a s
  else if p = 0x003 ∧ off = 0x148 then ppsSecRead a s
  else if p = 0x003 ∧ (off = 0x108 ∨ off = 0x10C ∨ off = 0x14C) then (kget 0 s.holdRd (holdTimeKey a off), s)
  else if isLo p off then (viewReg s p off, setHold s (holdRdKey a p) (viewReg s p (off + 4)))
  else if isHi p off then (kget 0 s.holdRd (holdRdKey a p), s)
  else (viewReg s p off, clearRc p off s)

/-- A register read (R45, R48, R829): before READY the host reads 0; while the page is not ON, ID and PWR_DOMAIN alone read
true. -/
def regRead (a : Acc) (p off : Nat) (s : State) : Word × State :=
  if (pageKind p).isNone then (0, decodeErr s (initPage s a.who) (regAddr p off))
  else if bootGated s a p then (if p < 0x200 ∧ (off = 0x00 ∨ off = 0x44) then viewReg s p off else 0, s)
  else if !pageOn s p then
    if p < 0x200 ∧ (off = 0x00 ∨ off = 0x44) then (viewReg s p off, s)
    else (0, offAccess s (initPage s a.who) (regAddr p off))
  else pageRead a p off s

/-- An aligned 64-bit read at a _LO register (R75): both halves of one cycle; no holding register changes. -/
def regRead64 (a : Acc) (p off : Nat) (s : State) : (Word × Word) × State :=
  if bootGated s a p then ((0, 0), s) else ((viewReg s p off, viewReg s p (off + 4)), s)

/-- What an access of any size reads from a page that is not ON (R48): the bytes of ID and PWR_DOMAIN, zeros elsewhere. -/
def offBytes (s : State) (p off n : Nat) : List Byte :=
  (List.range n).map fun i =>
    let r := (off + i) / 4 * 4
    if p < 0x200 ∧ (r = 0x00 ∨ r = 0x44) then BitVec.ofNat 8 ((viewReg s p r).toNat / 2 ^ (8 * ((off + i) % 4))) else 0

/-- A read of any size that the power controller answers (R48): captured where it reads more than ID or PWR_DOMAIN. -/
def offRead (src p off n : Nat) (s : State) : List Byte × State :=
  (offBytes s p off n,
    if p < 0x200 ∧ (off + n ≤ 4 ∨ (0x44 ≤ off ∧ off + n ≤ 0x48)) then s else offAccess s src (regAddr p off))

/-! ### Writes -/

/-- A register takes writes: some of its bits are RW, RWL, W1C or W1S. -/
def writable (p off : Nat) : Bool :=
  match findReg p off with
  | some d => d.acc ≠ .ro && d.acc ≠ .wo && d.acc ≠ .rc
  | none => false

/-- A register whose fields are RWL ignores writes while CTRL.ENABLE of its page is 1 (R15). -/
def regLocked (s : State) (p off : Nat) : Bool :=
  match findReg p off with
  | some d => decide (d.acc = .rwl) && decide (d.mask2 = 0) && ctrlEnable s p
  | none => false

/-- The bits of a register that software clears by writing 1. -/
def w1cMask (p off : Nat) : Word :=
  match findReg p off with
  | some d => if d.acc = .w1c then w32 d.mask else if d.acc2 = .w1c then w32 d.mask2 else 0
  | none => 0

/-- The state that a command's meaning leaves. -/
def afterOf (o : Host.Outcome State Fault Refusal) (s : State) : State :=
  match o with
  | .next t => t
  | _ => s

/-- CTRL is written (R53, R55, R57, R58): ENABLE first, then SOFT_RESET. -/
def ctrlWrite (p : Nat) (v : Word) (s : State) : State :=
  let s := if bit v 0 then enableSt p s else disableSt p s
  if bit v 1 then softResetSt p s else s

/-- ERR_CAUSE is written (R61): a 1 in VALID clears VALID and OVF. -/
def errCauseWrite (p : Nat) (v : Word) (s : State) : State :=
  if bit v 31 then modReg s p 0x20 fun w => putBits w 31 30 0 else s

/-- Event flags that are levels of other bits follow them (R701, R763). -/
def pageLevels (p : Nat) (s : State) : State :=
  match pageKind p with
  | some .nlane | some .plane | some .klane => laneLevels p s
  | some .dma => dmaLevels (p - 0x0D8) s
  | some .time => tcLevel s
  | some .gpio => gpioLevels s
  | _ => s

/-- A header register is written. DEVINFO ignores CTRL, MODE and event writes (R51); MODE.FUNC stays 0 without HA_CAP (R54);
CTRL.ENABLE of DRAMC1–DRAMC15 ignores writes (R640). -/
def writeHeader (p off : Nat) (v : Word) (s : State) : State :=
  if off = 0x08 then ctrlWrite p v s
  else if off = 0x20 then errCauseWrite p v s
  else if p = 0x000 ∧ [0x0C, 0x14, 0x18].contains off then s
  else if off = 0x0C ∧ capsOf p < 2 ^ 31 then s
  else if off = 0x14 then pageLevels p (storeReg p off 0 v s)
  else storeReg p off 0 v s

/-- A mailbox command (R850). A command that a mailbox does not allow is refused; one that the table does not name is a bad
argument. [DEDUCED, log 124] -/
def mbWriteAny (a : Acc) (sv : Bool) (v : Word) (s : State) : State :=
  match bits v 7 0 with
  | 1 => afterOf (execVerifyCfg a sv s) s
  | 2 => afterOf (execSignCal a sv s) s
  | 3 => afterOf (execVerifyCal a sv s) s
  | 4 => afterOf (execConfirm a sv s) s
  | 5 => afterOf (execAttest a sv s) s
  | 6 => afterOf (execDebugChallenge a sv s) s
  | 7 => afterOf (execDebugUnlock a sv s) s
  | 8 => afterOf (execFuseKey a sv true s) s
  | 9 => afterOf (execFuseRevoke a sv true s) s
  | 10 => afterOf (execFuseLock a sv true s) s
  | c => mbCommand sv c true (fun s => (s, 4)) s

/-- DBG_CTL.HALT_REQ (R477): while debug is open, a core that runs or waits halts at a bundle boundary. [DEDUCED, log 70] -/
def dbgHaltSt (c : Nat) (s : State) : State :=
  if !debugOpen s then s
  else
    let s := modReg s (corePage c) 0x110 fun w => putBit w 0 true
    match (coreOf s c).run with
    | .running | .fwait | .wait => haltCore s c 3
    | _ => s

/-- DBG_CTL.STEP (R477): while debug is open, a core that HALT_REQ has halted runs its next bundle. [DEDUCED, log 70] -/
def dbgStepSt (c : Nat) (s : State) : State :=
  let x := coreOf s c
  if debugOpen s ∧ x.run = .halted ∧ x.haltCause = 3 then setCore s c { x with run := .running, step := true } else s

/-- DBG_CTL is written. [DEDUCED, log 70] -/
def dbgCtlSt (c : Nat) (v : Word) (s : State) : State :=
  if !debugOpen s then s
  else
    let s := modReg s (corePage c) 0x110 fun w => putBit w 0 (bit v 0)
    let s := if bit v 0 then dbgHaltSt c s else s
    if bit v 1 then dbgStepSt c s else s

/-- A register of the DISP page is written (R117, R120–R126). -/
def writeDisp (a : Acc) (off : Nat) (v : Word) (s : State) : State :=
  if off = 0x130 then
    let sel := getReg s 0x002 0x12C
    let k := bits sel 31 28 * 256 + bits sel 7 0
    modDisp s fun d => { d with
      disabled := if bit v 0 then d.disabled.filter fun x => !decide (x = k)
        else if d.disabled.contains k then d.disabled else d.disabled ++ [k] }
  else if 0x150 ≤ off ∧ off % 0x10 = 0x08 then
    let n : Fin 9 := Fin.ofNat 9 ((off - 0x150) / 0x10)
    match bits v 1 0 with
    | 1 => afterOf (execOpen a n s) s
    | 2 => afterOf (execClose a n s) s
    | 3 => afterOf (execForce a n s) s
    | _ => s
  else storeReg 0x002 off 0 v s

/-- A register of a DFE page is written (R188, R189, R193, R212, R213, R217, R390). -/
def writeDfe (a : Acc) (p off : Nat) (v : Word) (s : State) : State :=
  let k := p - 0x0C8
  let kk : Fin 4 := Fin.ofNat 4 k
  if off = 0x1A4 then
    match bits v 1 0 with
    | 1 => afterOf (execCommitAt a kk s) s
    | 2 => afterOf (execCommitNow a kk s) s
    | 3 => afterOf (execDiscard a kk s) s
    | _ => s
  else if off = 0x244 then afterOf (execCoefDataWrite a kk v s) s
  else if 0x300 ≤ off ∧ off % 0x20 = 0x0C then
    let m : Fin 4 := Fin.ofNat 4 ((off - 0x300) / 0x20)
    match bits v 1 0 with
    | 1 => afterOf (execCalStart a kk m s) s
    | 2 => afterOf (execCalAbort a kk m s) s
    | _ => s
  else if off = 0x210 ∨ off = 0x214 ∨ off = 0x220 then
    csWrite k off (v &&& (if off = 0x214 then 0x000307FF else if off = 0x220 then 0xFFFF else 0xFFFFFFFF)) s
  else match dfeIndex s k off true with
    | none => s
    | some i => if off = 0x1D8 then chMirrorWrite k (i / 2) (v &&& 0x1F03) s else storeReg p off i v s

/-- A register of an OFDM page is written (R227, R228, R281). -/
def writeOfdm (p off : Nat) (v : Word) (s : State) : State :=
  let k := p - 0x0CC
  let e := bits (getReg s p 0x108) 5 0
  if off = 0x11C then smoothWriteSt k v s
  else if off = 0x180 then
    if bit v 0 then carrEnableSt k v s else setRegI (storeReg p off e v s) p 0x1A0 e 0
  else if 0x180 < off then
    if bit (carrReg s k 0x180 e) 0 ∧ [0x184, 0x188, 0x18C, 0x190, 0x198].contains off then setEvt s p 2
    else storeReg p off e v s
  else storeReg p off 0 v s

/-- A register of the PRISM page is written (R334, R348, R365, R378). -/
def writePrism (off : Nat) (v : Word) (s : State) : State :=
  if off = 0x138 then bufReleaseSt v s
  else if 0x180 ≤ off then
    let k := (off - 0x180) / 0x40
    match (off - 0x180) % 0x40 with
    | 0x00 => tapCfgSt k v s
    | 0x30 => maxhClrSt k v s
    | _ => storeReg prismPage off 0 v s
  else storeReg prismPage off 0 v s

/-- A register of a detector is written (R355–R357). -/
def writeDet (p off : Nat) (v : Word) (s : State) : State :=
  let d := (p - 0x261) * 16 + off / 0x100
  let r := off % 0x100
  if r = 0 then if bit v 0 then detEnableSt d v s else detOffSt d v s
  else if bit (detReg s d 0) 0 ∧ [0x04, 0x08, 0x0C, 0x1C, 0x20].contains r then setEvt s prismPage 5
  else storeReg p off 0 v s

/-- A register of a lane block is written (R667, R683, R685, R700, R701). [DESIGN CHOICE, log 98] -/
def writeLane (a : Acc) (p off : Nat) (v : Word) (s : State) : State :=
  let l := (off - 0x200) / 0x40
  if 0x300 ≤ off then storeReg p off 0 v s
  else if !isLane p l then s
  else match (off - 0x200) % 0x40 with
  | 0x00 => pstateReqSt a p l v s
  | 0x08 => txTapsSt p l v s
  | 0x14 => if linkDisabled s p l && !decide (pageKind p = some .plane) then storeReg p off 0 v s else s
  | 0x1C => pageLevels p (storeReg p off 0 v s)
  | _ => storeReg p off 0 v s

/-- A register of an XLANE page is written (R172, R174). -/
def writeXlane (a : Acc) (p off : Nat) (v : Word) (s : State) : State :=
  let q := p - 0x100
  if off = 0x108 then
    if bit v 8 then sysrefArmSt q v s else setReg s p off (v &&& 0x00FF0003)
  else if off = 0x11C then realignSt q v s
  else if 0x200 ≤ off then writeLane a p off v s
  else storeReg p off 0 v s

/-- A register of a spare-lane page is written (R179–R182, R225). -/
def writeXspare (a : Acc) (p off : Nat) (v : Word) (s : State) : State :=
  let j := p - 0x120
  if off = 0x100 then if (subOf s j).st = 0 then storeReg p off 0 v s else s
  else if off = 0x104 then
    match bits v 1 0 with
    | 1 => subArmSt j s
    | 2 => subSwapSt j s
    | 3 => subReleaseSt j s
    | _ => s
  else writeLane a p off v s

/-- A register of a DMA channel is written (R597, R600, R619, R620). -/
def writeDmach (p off : Nat) (v : Word) (s : State) : State :=
  let c := (p - 0x200) * 32 + off / 0x80
  match off % 0x80 with
  | 0x00 => chCtrlWrite c v s
  | 0x04 =>
    match bits v 1 0 with
    | 1 => (dmaTrigger c none s).1
    | 2 => dmaAbort c s
    | 3 => dmaClear c s
    | _ => s
  | 0x18 | 0x1C => if chLocked s c then setEvt s (dmaPage c) 17 else storeReg p off 0 v s
  | _ => storeReg p off 0 v s

/-- A register of an RTR page is written (R574, R575, R591, R593). -/
def writeRtr (a : Acc) (p off : Nat) (v : Word) (s : State) : State :=
  let r := p - 0x0F8
  let n := if r = 6 then 0 else bits (getReg s p 0x130) 2 0
  if off = 0x10C then match bundleSel s r with | some b => linkCfgWrite r b v s | none => s
  else if off = 0x114 ∨ off = 0x118 then
    match bundleSel s r with | some b => linkMapWrite a r ((off - 0x114) / 4) b v s | none => s
  else if off = 0x120 then tblDataSt a r v s
  else if off = 0x124 then tblCopySt a r v s
  else if off = 0x134 then storeReg p off n v s
  else if off = 0x138 then isCtrlWrite r n v s
  else if 0x200 ≤ off ∧ off < 0x300 ∧ off % 0x20 = 0 then ltCtrlSt r ((off - 0x200) / 0x20) v s
  else storeReg p off 0 v s

/-- A register of the TIME page is written (R744, R745, R762). -/
def writeTime (off : Nat) (v : Word) (s : State) : State :=
  if off = 0x124 then adjNsSt v s
  else if off = 0x134 then if bit v 0 then setGoSt s else s
  else if off = 0x150 then ppsOutCfg v s
  else if off = 0x154 then ppsRearm (storeReg 0x003 off 0 v s)
  else storeReg 0x003 off 0 v s

/-- A register of a compare unit is written (R753, R754). -/
def writeTcmp (p off : Nat) (v : Word) (s : State) : State :=
  let n := off / 0x40
  match off % 0x40, findReg p off with
  | 0x00, _ => tcCtrlWrite n v s
  | r, some d => if d.acc = .rw then tcHeldWrite n r (v &&& w32 d.mask) s else s
  | _, none => s

/-- A register of the PWRC page is written (R771, R786). -/
def writePwrc (off : Nat) (v : Word) (s : State) : State :=
  if 0x400 ≤ off ∧ off % 0x20 = 0 then reqWrite (pdReqSt ((off - 0x400) / 0x20)) v s
  else if 0x200 ≤ off ∧ off < 0x400 ∧ off % 0x20 = 0x10 then reqWrite (grpReqSt ((off - 0x200) / 0x20)) v s
  else storeReg 0x004 off 0 v s

/-- A register of the PCIE page is written (R725, R727). -/
def writePcie (off : Nat) (v : Word) (s : State) : State :=
  if 0x110 ≤ off ∧ off ≤ 0x118 then tokenWord 0 ((off - 0x110) / 4) v s
  else if off = 0x11C then tokenInSt v s
  else if 0x120 ≤ off ∧ off ≤ 0x128 then tokenWord 4 ((off - 0x120) / 4) v s
  else if off = 0x12C then tokenDoneSt v s
  else if 0x200 ≤ off then
    let n := (off - 0x200) / 0x40
    match off % 0x40 with
    | 0x08 => d2hRestart n (storeReg 0x007 off 0 v s)
    | 0x10 => d2hPump n s.pcie.queue.length (storeReg 0x007 off 0 v s)
    | 0x24 => h2dTailSt n v s
    | _ => storeReg 0x007 off 0 v s
  else storeReg 0x007 off 0 v s

/-- A register of the EVTC page is written (R804, R806, R818). -/
def writeEvtc (off : Nat) (v : Word) (s : State) : State :=
  if off = 0x104 then routeWriteSt v s
  else if off = 0x13C then rptPopSt v s
  else if off = 0x140 then msixAckSt v s
  else storeReg 0x001 off 0 v s

/-- A register of the BOOT page is written (R831, R840, R842, R846). -/
def writeBoot (off : Nat) (v : Word) (s : State) : State :=
  if off = 0x104 then rstCmdSt v s
  else if off = 0x10C then wdogCfgSt v s
  else if off = 0x110 then wdogKickSt v s
  else if off = 0x130 then (if bits v 1 0 = 0 then s else flashCmd (bits v 1 0) s)
  else if off = 0x138 then cfgGoSt v s
  else if off = 0x148 then pcieGoSt v s
  else storeReg 0x00D off 0 v s

/-- A register that is not half of a pair is written. -/
def writeOne (a : Acc) (p off : Nat) (v : Word) (s : State) : State :=
  if p < 0x200 ∧ off < 0x100 then writeHeader p off v s
  else match pageKind p with
  | some .evtc => writeEvtc off v s
  | some .disp => writeDisp a off v s
  | some .time => writeTime off v s
  | some .tcmp => writeTcmp p off v s
  | some .pwrc => writePwrc off v s
  | some .clkc => if 0x100 ≤ off ∧ off < 0x140 then cdFreqSt ((off - 0x100) / 4) v s else storeReg p off 0 v s
  | some .mring => if off = 0x108 then flipCmdSt v s else storeReg p off 0 v s
  | some .pcie => writePcie off v s
  | some .pkt =>
    if off = 0x11C then flowLoadSt v s
    else if 0x300 ≤ off ∧ off % 0x20 = 0x10 then jobTail ((off - 0x300) / 0x20) v s
    else storeReg p off 0 v s
  | some .tm =>
    if off = 0x11C then haSelectSt v s
    else if off = 0x130 then (List.range 32).foldl (fun s p => portKick p (haOffer p s)) (storeReg p off 0 v s)
    else storeReg p off 0 v s
  | some .tmq =>
    if 0x08 ≤ off % 0x40 ∧ off % 0x40 ≤ 0x10 then
      meterWriteSt ((p - 0x220) * 64 + off / 0x40) (off % 0x40) (if off % 0x40 = 0x10 then v else v &&& 0xFFFFF) s
    else storeReg p off 0 v s
  | some .cuw => if off = 0x104 then (if bit v 0 then cuwRetrain s else s) else storeReg p off 0 v s
  | some .prism => writePrism off v s
  | some .det => writeDet p off v s
  | some .secmb => if off % 0x40 = 0 then mbWriteAny a (decide (off = 0x140)) v s else storeReg p off 0 v s
  | some .boot => writeBoot off v s
  | some .gpio => if off = 0x114 then pageLevels p (storeReg p off 0 v s) else storeReg p off 0 v s
  | some .cluster =>
    if off = 0x100 then coreMapSt (p - 0x010) v s
    else if off = 0x104 then spareCopySt (p - 0x010) v s
    else storeReg p off 0 v s
  | some .mxc =>
    if off = 0x10C then ctxCancelSt (p - 0x020) v s
    else if off = 0x130 then mxDrain (p - 0x020) (storeReg p off 0 v s)
    else storeReg p off 0 v s
  | some .core => if off = 0x110 then dbgCtlSt (p - 0x030) v s else storeReg p off 0 v s
  | some .svc => if off = 0x110 then dbgCtlSt (144 + (p - 0x0C0)) v s else storeReg p off 0 v s
  | some .dfe => writeDfe a p off v s
  | some .ofdm => writeOfdm p off v s
  | some .fec => if off = 0x110 then checkEngines (storeReg p off 0 v s) (p - 0x0D0) else storeReg p off 0 v s
  | some .dma =>
    if 0x110 ≤ off ∧ off < 0x130 then dmaLevels (p - 0x0D8) (storeReg p off 0 v s) else storeReg p off 0 v s
  | some .dmach => writeDmach p off v s
  | some .dramc =>
    if p ≠ 0x0E0 ∧ off ≤ 0x14C then s
    else if off = 0x10C then fcGoSt v s
    else storeReg p off 0 v s
  | some .ssram =>
    if 0x110 ≤ off ∧ p ≠ 0x0F0 then s
    else if off = 0x118 then repairSt v s
    else storeReg p off 0 v s
  | some .rtr => writeRtr a p off v s
  | some .xlane => writeXlane a p off v s
  | some .xspare => writeXspare a p off v s
  | some .nlane | some .plane | some .klane => writeLane a p off v s
  | some .post =>
    if off % 0x100 = 0x3C then
      afterOf (execPostFireRecord a (Fin.ofNat 8 (p - 0x268)) (Fin.ofNat 4 (off / 0x100)) v s) s
    else setReg s p off v
  | _ => storeReg p off 0 v s

/-- Both halves of a pair are written in one cycle (R77), or the _HI alone where no _LO is held (R78): `off` is the _LO
register. -/
def writePair (p off : Nat) (held : Option Word) (hi : Word) (s : State) : State :=
  let both (i : Nat) (s : State) : State :=
    storeReg p (off + 4) i hi (match held with | some lo => storeReg p off i lo s | none => s)
  match pageKind p with
  | some .dfe =>
    if off = 0x218 then
      csChainsWrite (p - 0x0C8) (held.getD (getRegI s p off (bits (getReg s p 0x200) 3 0))).toNat hi.toNat s
    else both 0 s
  | some .dmach =>
    let c := (p - 0x200) * 32 + off / 0x80
    if chLocked s c then setEvt s (dmaPage c) 17 else both 0 s
  | some .pcie =>
    if 0x200 ≤ off ∧ off % 0x40 = 0 then d2hRestart ((off - 0x200) / 0x40) (both 0 s) else both 0 s
  | some .time => tcLevel (both 0 s)
  | some .evtc => both (bits (getReg s 0x001 0x10C) 7 0) s
  | some .pwrc =>
    let n := (off - 0x400) / 0x20
    let m := (retBits n).toNat
    storeReg p (off + 4) 0 (hi &&& w32 (m / 2 ^ 32))
      (match held with | some lo => storeReg p off 0 (lo &&& w32 m) s | none => s)
  | _ => both 0 s

/-- A write that its page takes (R12, R77, R78); an offset with no register ignores it (R11). -/
def pageWrite (a : Acc) (p off : Nat) (v : Word) (s : State) : State :=
  if (findReg p off).isNone then s
  else if p = 0x003 ∧ off = 0x120 then incrCommitSt a v s
  else if pageKind p = some .ssram ∧ (off = 0x100 ∨ off = 0x104) then bankPwrSt a (p - 0x0F0) (decide (off = 0x104)) v s
  else if p = prismPage ∧ 0x180 ≤ off ∧ 0x10 ≤ (off - 0x180) % 0x40 ∧ (off - 0x180) % 0x40 < 0x30 then
    let t := (off - 0x180) % 0x40 - 0x10
    tapSetSt a ((off - 0x180) / 0x40) (t / 8) (decide (t % 8 = 4)) v s
  else if isLo p off then
    if pageKind p = some .dfe ∧ off = 0x218 ∧ carrierOn s (p - 0x0C8) (bits (getReg s p 0x200) 3 0) then setEvt s p 5
    else if writable p off && !regLocked s p off then
      let s := if pageKind p = some .pcie ∧ 0x200 ≤ off ∧ off % 0x40 = 0 then d2hRestart ((off - 0x200) / 0x40) s else s
      holdLo s a p off v
    else s
  else if isHi p off then
    if writable p off && !regLocked s p off then
      let (held, s) := takeLo s a p (off - 4)
      writePair p (off - 4) held v s
    else s
  else writeOne a p off v s

/-- A register access that reaches a page; no page answers an unmapped index (R45). -/
def toPage (a : Acc) (p off : Nat) (f : State → State) (s : State) : State :=
  if (pageKind p).isNone then decodeErr s (initPage s a.who) (regAddr p off) else onPage a p off f s

/-- A register write (R12, R48, R829). -/
def regWriteSt (a : Acc) (p off : Nat) (v : Word) (s : State) : State := toPage a p off (pageWrite a p off v) s

/-- What the hardware does in the cycle of a write to a register: it sets bits (R13) and captures an error in ERR_CAUSE (R65)
after what the write does, where the page is powered. -/
def coincide (p off : Nat) (hw : Coincide) (s : State) : State :=
  if (pageKind p).isNone ∨ !pageOn s p then s
  else
    let m := if off = 0x20 ∧ p < 0x200 then 0 else hw.sets &&& w1cMask p off
    let s := if m = 0 then s else pageLevels p (modReg s p off (· ||| m))
    match hw.err with
    | some (cls, code, src, addr) => if off = 0x20 ∧ p < 0x200 then captureErr s p ⟨cls, code, 0, src, addr⟩ else s
    | none => s

/-- A register read by a command: its answer goes to the reader. -/
def regReadSt (a : Acc) (p off : Nat) (s : State) : State :=
  let (v, s') := regRead a p off s
  if (pageKind p).isNone then { s' with rdOut := some (readGives a.who .decode []) } else answer a v s'

end Sys2Proof.Machine
end

