-- ==== Sys2Proof/Machine/Transfer.lean ====
section
/-! DEFINITION. Requests on the fabric and their responses (R45, R46, R554–R570, R615), fire records that reach a
unit, and accesses on the maintenance ring (R585–R589). -/

namespace Sys2Proof.Machine

/-! ### What a target does -/

/-- The station of the maintenance ring that serves a page. -/
def pageStation (p : Nat) : Nat := Config.ringStation p % 64

/-- An access of the register bridge waits for a station that the ring does not reach (R587, R588): at most eight.
[DEDUCED, log 89] -/
def bridgeWait (s : State) (p reg : Nat) (wr : Option Word) : State :=
  let mine := s.fab.ringReqs.filter fun x => x.master = .bridge
  if 8 ≤ mine.length ∨ mine.any (fun x => x.target = .page (Fin.ofNat 1024 p) (Fin.ofNat 1024 reg) ∧ x.wr = wr) then s
  else modFab s fun f => { f with ringReqs := f.ringReqs ++ [⟨.bridge, .page (Fin.ofNat 1024 p) (Fin.ofNat 1024 reg), wr, s.time.free⟩] }

/-- A page reached through the register bridge counts an access of the ring (R554, R595). -/
def bridgeDone (p : Nat) (s : State) : State := if pageLp p = 44 then incCnt s 0x006 0 else s

/-- A page answers a read of `n` bytes (R46, R75); none while the ring does not reach it. [DEDUCED, log 89] -/
def pageServe (a : Acc) (src p off n : Nat) (s : State) : Option (Resp × List Byte) × State :=
  if !bootGated s a p && !pageOn s p then
    let (d, s) := offRead src p off n s
    (some (.ok, d), s)
  else if !(decide (n = 4 ∧ off % 4 = 0) || (decide (n = 8 ∧ off % 8 = 0) && isLo p off)) then
    (some (.decode, []), decodeErr s src (regAddr p off))
  else if pageLp p = 44 ∧ !stationOk s (pageStation p) then (none, bridgeWait s p (off / 4) none)
  else if n = 4 then
    let (v, s) := regRead a p off s
    (some (.ok, leBytes 4 v.toNat), bridgeDone p s)
  else
    let (v, s) := regRead64 a p off s
    (some (.ok, leBytes 4 v.1.toNat ++ leBytes 4 v.2.toNat), bridgeDone p s)

/-- The DRAM accepts no request while its frequency changes (R650) or its clock stands still (R799). -/
def dramStalled (s : State) (addr : Nat) : Bool :=
  match region s addr with
  | .dram _ => s.memc.fc.isSome || !dramClock s
  | _ => false

/-- The target of a read answers it; none where it does not answer yet. -/
def serveRd (q : Req) (s : State) : Option (Resp × List Byte) × State :=
  let src := initPage s q.who
  match region s q.addr with
  | .page p off => pageServe ⟨q.who, q.viaRing⟩ src p off q.len s
  | _ =>
    if dramStalled s q.addr then (none, s)
    else
      let (s, r, d) := memRead s src q.addr q.len
      (some (r, if r = .ok ∨ r = .poison then d else []), s)

/-- The bytes of a write that its byte enables select. -/
def enabledBytes (q : Req) : List (Option Byte) :=
  q.data.zipIdx.map fun x => if q.be.getLsbD x.2 then some x.1 else none

/-- The target of a write performs and answers it (R46, R569). -/
def serveWr (q : Req) (poisoned : Bool) (s : State) : Option (Resp × List Byte) × State :=
  let src := initPage s q.who
  if poisoned then (some (.target, []), s)
  else match region s q.addr with
  | .page p off =>
    if !bootGated s ⟨q.who, q.viaRing⟩ p && !pageOn s p then (some (.ok, []), offAccess s src (regAddr p off))
    else if q.len ≠ 4 ∨ off % 4 ≠ 0 ∨ (enabledBytes q).any (·.isNone) then
      (some (.decode, []), decodeErr s src (regAddr p off))
    else if pageLp p = 44 ∧ !stationOk s (pageStation p) then (none, bridgeWait s p (off / 4) (some (wordAt q.data 0)))
    else (some (.ok, []), bridgeDone p (regWriteSt ⟨q.who, q.viaRing⟩ p off (wordAt q.data 0) s))
  | _ =>
    if dramStalled s q.addr then (none, s)
    else
      let (s, r) := memWriteEn s src q.addr (enabledBytes q)
      (some (r, []), s)

/-! ### Requests on their way -/

/-- Changes the request that bears a number. -/
def modReq (s : State) (id : Nat) (g : Req → Req) : State :=
  modFab s fun f => { f with reqs := f.reqs.map fun q => if q.id = id then g q else q }

/-- The request that bears a number. -/
def findReq (s : State) (id : Nat) : Option Req := s.fab.reqs.find? fun q => q.id = id

/-- The page of a request's initiator is a DMA engine's. -/
def dmaOwn (q : Req) : Bool :=
  match q.who with
  | .page p => decide (pageKind p = some .dma)
  | _ => false

/-- A DMA channel has not injected a request yet (R606). -/
def dmaUnsent (s : State) (q : Req) : Bool := dmaOwn q && decide (q.tag ≠ 1) && (dmaReadyAll (dmaCh s q.chan)).contains q.id
where
  /-- the requests of a channel that have not been injected. -/
  dmaReadyAll (x : DmaCh) : List Nat :=
    ((x.reads.filter fun r => !r.sent && r.data.isNone).map (·.id)) ++ ((x.beats.filter fun b => !b.sent).map (·.id))

/-- A request enters its leaf port: a DMA channel's where it is its turn (R606–R609). None: it does not enter now; the flag
is whether its flit leaves. [DESIGN CHOICE, log 87] -/
def inject (q : Req) (u : Option Upset) (s : State) : Option (State × Bool) :=
  if dmaUnsent s q then
    match dmaSend q u s with
    | none => none
    | some (s, true) => some (modReq s q.id fun r => { r with since := s.time.free }, true)
    | some (s, false) => some (s, false)
  else some (s, true)

/-- The header of a request (R558). -/
def reqHdr (s : State) (q : Req) : BitVec 128 :=
  let page := match q.who with | .page p => p.val | _ => initPage s q.who
  packetHdr (if q.at_.isSome then q.epoch else s.fab.cur) q.srcLp q.dstLp 4 (if q.isWrite then 2 else 1) q.id (Config.srcId page q.chan).toNat (q.len - 1) 0 q.addr

/-- The response to a request is at its target's port. -/
def respond (s : State) (id : Nat) (r : Resp × List Byte) : State :=
  modReq s id fun q => { q with answer := some r, at_ := none }

/-- An earlier access of the same initiator over the same path to the same page is still on its way (R47). -/
def pageOrderHeld (s : State) (q : Req) : Bool :=
  match region s q.addr with
  | .page p _ => (s.fab.reqs.takeWhile fun r => r.id ≠ q.id).any fun r =>
      decide (r.who = q.who) && r.viaRing == q.viaRing && r.answer.isNone && !r.lost && !r.dead &&
        (match region s r.addr with | .page p' _ => decide (p' = p) | _ => false)
  | _ => false

/-- The epoch of a packet: that which its leaf port has stamped, or stamps now. -/
def stamped (s : State) (q : Req) : Nat := if q.at_.isSome then q.epoch else s.fab.cur

/-- A flit of a request travels towards its target, which answers (R554, R568–R572). The port itself answers an unmapped address
(R45). [DESIGN CHOICE, log 82] -/
def travel (q : Req) (flit : Flit) (s : State) : State :=
  match addrLp s q.addr with
  | none => respond (decodeErr s (initPage s q.who) q.addr) q.id (.decode, [])
  | some dst =>
    let q := { q with dstLp := dst }
    if !fabricClock s || pageOrderHeld s q then s
    else
      let e := stamped s q
      match fly q.srcLp dst 4 (reqHdr s q) flit e q.at_ s with
      | (s, .waits p) => modReq s q.id fun r => { r with dstLp := dst, epoch := e, at_ := p }
      | (s, .gone) => modReq s q.id fun r => { r with dstLp := dst, lost := true, at_ := none }
      | (s, .there) =>
        let s := modReq s q.id fun r => { r with dstLp := dst, epoch := e, at_ := some ⟨7, 0, 4, 0, 0⟩ }
        let (r, s) := if q.isWrite then serveWr q (poisoned flit) s else serveRd q s
        match r with
        | some r => respond s q.id r
        | none => s

/-- A request at its leaf port can enter the fabric now. -/
def mayEnter (s : State) (q : Req) : Bool :=
  q.at_.isSome || (match addrLp s q.addr with | some dst => enters s q.srcLp dst 4 | none => true)

/-- The MSI-X table that BAR4 maps (R724), by the host's address: 16 KiB at 2^23. -/
def msixPlace (a : Acc) (addr : Nat) : Option Nat :=
  if a.who = .host ∧ 2 ^ 23 ≤ addr ∧ addr < 2 ^ 23 + 2 ^ 14 then some (addr - 2 ^ 23) else none

/-- R724: the device address that an initiator's address names. The host's lie in its BARs: BAR0 from 0, BAR2 from 2^28; BAR2
writes are discarded before the first boot stage (R833). [DESIGN CHOICE, log 152] -/
def barAddr (s : State) (a : Acc) (isWrite : Bool) (addr : Nat) : Option Nat :=
  if a.who ≠ .host then some addr
  else if addr < 2 ^ 22 then some (0x001200000000 + addr)
  else if 2 ^ 28 ≤ addr ∧ addr < 2 ^ 29 then
    if isWrite ∧ bootStage s = 0 then none else some (getPair s 0x007 0x100 28 % 2 ^ 48 + (addr - 2 ^ 28))
  else none

/-- An outside initiator's request is tracked by its leaf port while the port's router is enabled (R566, R576). -/
def freshReq (a : Acc) (isWrite : Bool) (addr len : Nat) (data : List Byte) (be : BitVec 64) (s : State) : Option (Nat × State) :=
  if !rtrOn s (initLp s a.who / 8) then none
  else match barAddr s a isWrite addr with
  | none => none
  | some addr =>
    let (id, s) := issueReq s a.who isWrite addr len data 0 0
    some (id, modReq s id fun q => { q with viaRing := a.viaRing, be := be })

/-- A request that waits for its answer goes on its way. [DESIGN CHOICE, log 82] -/
def carry (id : Nat) (u : Option Upset) (flit : Flit) (isWrite : Bool) (s : State) : State :=
  match findReq s id with
  | none => s
  | some q =>
    if q.isWrite ≠ isWrite ∨ q.answer.isSome ∨ q.lost ∨ !rtrOn s (q.srcLp / 8) ∨ !mayEnter s q then s
    else match inject q u s with
      | none => s
      | some (s, false) => dropReq s id
      | some (s, true) =>
        match findReq s id with
        | none => s
        | some q => travel q flit s

/-- RD (R554). A read asks for 1–256 bytes (R558). [DESIGN CHOICE, log 87] -/
def rdSt (q : RdReq) (u : Option Upset) (flit : Flit) (s : State) : State :=
  let s := applyUpset u s
  match q with
  | .queued id => carry id u flit false s
  | .fresh a addr len =>
    if len = 0 ∨ 256 < len then s
    else match msixPlace a addr.toNat with
    | some o => { s with rdOut := some (readGives a.who .ok ((List.range len).map fun i => msixByte s (o + i))) }
    | none => match freshReq a false addr.toNat len [] 0 s with
      | none => s
      | some (id, s) => carry id none flit false s

/-- WR (R554). A write carries 1–64 bytes (R558). [DESIGN CHOICE, log 87] -/
def wrSt (q : WrReq) (u : Option Upset) (flit : Flit) (s : State) : State :=
  let s := applyUpset u s
  match q with
  | .queued id => carry id u flit true s
  | .fresh a addr data be =>
    if data = [] ∨ 64 < data.length then s
    else match msixPlace a addr.toNat with
    | some o => msixWrite o (data.zipIdx.filter fun x => be.getLsbD x.2) s
    | none => match freshReq a true addr.toNat data.length data be s with
      | none => s
      | some (id, s) => carry id none flit true s

/-! ### Responses -/

/-- A request's initiator receives its response (R558): a DMA channel, the Cuwick link for its peer, or the reader. -/
def reqDone (q : Req) (r : Resp) (d : List Byte) (s : State) : State :=
  if dmaOwn q then (if q.isWrite then dmaWrResp q r s else dmaRdResp q r d s)
  else if q.who = .page 0x00A then cuwAnswer q r d s
  else if q.isWrite then s
  else { s with rdOut := some (readGives q.who r d) }

/-- The header of flit `i` of a response (R558). -/
def rspHdr (s : State) (q : Req) (r : Resp) (i : Nat) : BitVec 128 :=
  packetHdr (stamped s q) q.dstLp q.srcLp 3 (if q.isWrite then 4 else 3) q.id 0 (min 64 (q.len - 64 * i) - 1) (respCode r) q.addr

/-- The further flits of a read's response cross the fabric behind the first. -/
def crossBack (q : Req) (r : Resp) (s : State) : State :=
  let n := if q.isWrite then 1 else (q.len + 63) / 64
  (List.range (n - 1)).foldl (fun s i => crossHops (hopsOf q.dstLp q.srcLp) 3 (rspHdr s q r (i + 1)) s) s

/-- A response has reached its source port: it is delivered, or discarded as late (R566, R567). -/
def giveAnswer (q : Req) (r : Resp) (d : List Byte) (s : State) : State :=
  let s := dropReq s q.id
  if q.dead then incCnt s (rtrPage (q.srcLp / 8)) 8 else reqDone q r d (isCount q s)

/-- A response travels towards its source port; one that is lost leaves its request without an answer. -/
def responseSt (id : Nat) (isWrite : Bool) (flit : Flit) (s : State) : State :=
  match findReq s id with
  | none => s
  | some q =>
    match q.answer with
    | none => s
    | some (r, d) =>
      if q.isWrite ≠ isWrite then s
      else if (addrLp s q.addr).isNone then giveAnswer q r d s
      else if !fabricClock s then s
      else
        let e := stamped s q
        match fly q.dstLp q.srcLp 3 (rspHdr s q r 0) flit e q.at_ s with
        | (s, .waits p) => modReq s id fun x => { x with epoch := e, at_ := p }
        | (s, .gone) => if q.dead then dropReq s id else modReq s id fun x => { x with answer := none, lost := true, at_ := none }
        | (s, .there) => if poisoned flit then giveAnswer q .poison d (crossBack q .poison s) else giveAnswer q r d (crossBack q r s)

/-- LP_TIMEOUT of a port, in µs; 0 acts as 1. -/
def lpTimeout (s : State) (lp : Nat) : Nat := max 1 (bits (getRegI s (rtrPage (lp / 8)) 0x134 (lp % 8)) 15 0)

/-- REQUEST_TIMEOUT (R566): the port gives up on a request without a complete response. -/
def requestTimeoutSt (id : Nat) (s : State) : State :=
  match findReq s id with
  | none => s
  | some q =>
    if q.dead ∨ dmaUnsent s q ∨ !usSince s q.since (lpTimeout s q.srcLp) then s
    else
      let p := rtrPage (q.srcLp / 8)
      let s := ownErr (setEvt (incCnt s p 7) p 2) p 4 0x04 (some q.addr)
      let s := if q.lost then dropReq s id else modReq s id fun x => { x with dead := true }
      reqDone q .timeout [] s

/-! ### Fire records -/

/-- A fire whose command its unit does not have: a reserved KIND or OPCODE (R204, R236, R285, R375). [DEDUCED, log 25] -/
def strayFire (f : FireRec) (s : State) : State :=
  let m := f.member.toNat
  let op := f.opcode.toNat
  match f.pool.toNat with
  | 2 => if 1 ≤ fireKind f ∧ fireKind f ≤ 6 then s else fireRow (fecPage m) 0x04 f (fun g s => fecStart m g s) s
  | 3 =>
    if 1 ≤ fireKind f ∧ fireKind f ≤ 7 then s
    else fireRow (ofdmPage m) 0x05 f (fun g s => ofdmStart m (fireKind g) g s) s
  | 4 => if 1 ≤ op ∧ op ≤ 5 then s else fireRow (dfePage m) 0x04 f (fun g s => dfeRefuse s m (some g) 0x03) s
  | 5 => if 1 ≤ op ∧ op ≤ 3 then s else fireRow prismPage 0x04 f (fun g s => failFire s prismPage g 0x03) s
  | _ => s

/-- FIRE_PACKET (R561): a record that reaches a unit which has no such command is refused at once. [DEDUCED, log 25] -/
def fireArriveSt (lp : Nat) (cls0 : Bool) (flit : Flit) (s : State) : State :=
  let t := firePacketSt lp cls0 flit s
  match t.arrived.drop s.arrived.length with
  | f :: _ => strayFire f t
  | [] => t

/-! ### The maintenance ring -/

/-- The initiator behind a master of the ring. A request of the register bridge bears no name on the ring. -/
def RingMaster.init : RingMaster → Initiator
  | .secCore => .secCore
  | .jtag => .jtag
  | .pcie => .host
  | .bridge => .page 0x006

/-- The page whose station serves an access of the ring. -/
def ringPage : RingTarget → Nat
  | .page p _ => p
  | .core c _ => corePage c

/-- The bus address that an access names; a core's memories have none of their own (R44). -/
def ringAddr : RingTarget → Option Nat
  | .page p r => some (regAddr p (4 * r.val))
  | .core _ _ => none

/-- An access of the ring to a memory of a physical core (R44, R629, R630). [DEDUCED, log 89] -/
def ringMemSt (m : RingMaster) (c w : Nat) (v : Option Word) (s : State) : State :=
  let k := coreKey c (4 * w)
  if pdState s (c / 9) ≠ .on then
    let s := incCnt (captureErr (setEvt s 0x004 2) 0x004 ⟨3, 0x01, 0, initPage s (RingMaster.init m), none⟩) 0x004 5
    if v.isSome then s else { s with rdOut := some (readGives (RingMaster.init m) .target []) }
  else match v with
    | some v => (writeArrayWord k ((leBytes 4 v.toNat).map some) (k / 8 * 8) s).1
    | none =>
      let (s, ue) := readArrays s k 4
      { s with rdOut := some (readGives (RingMaster.init m) (if ue then .poison else .ok) (getBytes s k 4)) }

/-- What the target of an access of the ring does. -/
def ringServe (m : RingMaster) (t : RingTarget) (v : Option Word) (s : State) : State :=
  let a : Acc := ⟨RingMaster.init m, true⟩
  match t, v with
  | .page p r, some v => regWriteSt a p (4 * r.val) v s
  | .page p r, none => regReadSt a p (4 * r.val) s
  | .core c w, v => ringMemSt m c w v s

/-- RING_ACCESS (R585–R589): a master issues an access; the station performs it where the frame reaches it whole.
[DEDUCED, log 89] -/
def ringAccessSt (m : RingMaster) (t : RingTarget) (v : Option Word) (crcOk : Bool) (s : State) : State :=
  if 8 ≤ (s.fab.ringReqs.filter fun x => x.master = m).length then s
  else if !crcOk ∨ !stationOk s (pageStation (ringPage t)) then
    let s := if crcOk then s else ownErr (incCnt s 0x006 1) 0x006 4 0x01 none
    modFab s fun f => { f with ringReqs := f.ringReqs ++ [⟨m, t, v, s.time.free⟩] }
  else incCnt (ringServe m t v s) 0x006 0

/-- The fabric request that an access of the register bridge serves. [DEDUCED, log 89] -/
def bridgeReq (s : State) (x : RingReq) : Option Req :=
  s.fab.reqs.find? fun q => ringAddr x.target = some q.addr && q.isWrite = x.wr.isSome && q.answer.isNone && !q.dead

/-- RING_ACCESS_TIMEOUT (R588): the oldest access of a master ends with an error response; a fabric initiator behind the
register bridge receives TIMEOUT. -/
def ringTimeoutSt (m : RingMaster) (s : State) : State :=
  match s.fab.ringReqs.find? fun x => x.master = m with
  | none => s
  | some x =>
    if !usSince s x.since (max 1 (bits (getReg s 0x006 0x104) 7 0)) then s
    else
      let s := modFab s fun f => { f with ringReqs := dropFirst (fun y => decide (y = x)) f.ringReqs }
      let s := ownErr (setEvt (incCnt s 0x006 2) 0x006 4) 0x006 4 0x02 (ringAddr x.target)
      if m = .bridge then
        match bridgeReq s x with
        | some q => respond s q.id (.timeout, [])
        | none => s
      else if x.wr.isSome then s
      else { s with rdOut := some (readGives (RingMaster.init m) .timeout []) }

/-! ### Commands -/

/-- RD (R554). -/
def execRd (q : RdReq) (u : Option Upset) (flit : Flit) (s : State) : Host.Outcome State Fault Refusal := .next (rdSt q u flit s)

/-- WR (R554). -/
def execWr (q : WrReq) (u : Option Upset) (flit : Flit) (s : State) : Host.Outcome State Fault Refusal := .next (wrSt q u flit s)

/-- RDRESP (R566). -/
def execRdresp (x : RespFlit) (s : State) : Host.Outcome State Fault Refusal := .next (responseSt x.id false x.flit s)

/-- WRRESP (R615). -/
def execWrresp (x : RespFlit) (s : State) : Host.Outcome State Fault Refusal := .next (responseSt x.id true x.flit s)

/-- FIRE_PACKET (R561). -/
def execFirePacket (lp : Fin 48) (cls0 : Bool) (flit : Flit) (s : State) : Host.Outcome State Fault Refusal :=
  .next (fireArriveSt lp cls0 flit s)

/-- REQUEST_TIMEOUT (R566). -/
def execRequestTimeout (id : Nat) (s : State) : Host.Outcome State Fault Refusal := .next (requestTimeoutSt id s)

/-- RING_ACCESS (R585). -/
def execRingAccess (m : RingMaster) (t : RingTarget) (wr : Bool) (v : Word) (crcOk : Bool) (s : State) :
    Host.Outcome State Fault Refusal :=
  .next (ringAccessSt m t (if wr then some v else none) crcOk s)

/-- RING_ACCESS_TIMEOUT (R588). -/
def execRingAccessTimeout (m : RingMaster) (s : State) : Host.Outcome State Fault Refusal := .next (ringTimeoutSt m s)

end Sys2Proof.Machine
end

