-- ==== Sys2Proof/Machine/CoreMem.lean ====
section
/-! DEFINITION. How an Erdom core reaches memory (R433–R445, R457, R462–R465): address forms, protection, the range of an
address, loads and stores through the data cache or past it, and the fetch of a bundle. -/

namespace Sys2Proof.Machine

/-! ### Addresses (R433–R435) -/

/-- A list of bits reversed: the low `n` bits of a number. -/
def revBits : Nat → Nat → Nat
  | 0, _ => 0
  | n + 1, x => x % 2 * 2 ^ n + revBits n (x / 2)

/-- The block size of circular and bit-reversed addressing of an address register (R435): 0 where its value acts as 0.
[DEDUCED, log 63] -/
def cbSize (x : CoreSt) (ab : Nat) : Nat :=
  let n := bits (getCr x (0x1C + (ab - 8))) 4 0
  if 4 ≤ n ∧ n ≤ 19 then n else 0

/-- The address and the new value of AB for a MODE (R434): `imm` is in bytes. -/
def addrForm (x : CoreSt) (ab mode mo : Nat) (imm : Int) : Int × Option Dword :=
  let a := aReg x ab
  let base : Int := (a.toNat % 2 ^ 48 : Nat)
  let m := mReg x mo
  let plus (d : Int) : Dword := BitVec.ofNat 64 (wrapN 64 (a.toNat + d))
  let n := cbSize x ab
  match mode with
  | 0 => (base + imm, none)
  | 1 => (base, some (plus imm))
  | 2 => (base, some (plus m))
  | 3 => (base + m, none)
  | 4 => (base, some (if n = 0 then plus m
      else BitVec.ofNat 64 (a.toNat / 2 ^ n * 2 ^ n + (plus m).toNat % 2 ^ n)))
  | _ => (base, some (if n = 0 then plus m
      else BitVec.ofNat 64 (a.toNat / 2 ^ n * 2 ^ n +
        revBits n ((revBits n a.toNat + revBits n (wrapN n m)) % 2 ^ n))))

/-- An access's address modulo 2^48. [DEDUCED, log 62] -/
def addr48 (a : Int) : Nat := wrapN 48 a

/-! ### Protection (R457) -/

/-- MPU region `r` is enabled and covers a byte. -/
def mpuCovers (x : CoreSt) (a r : Nat) : Bool :=
  bit (getCr x (0x2A + 3 * r)) 2 && decide ((getCr x (0x28 + 3 * r)).toNat ≤ a / 2 ^ 16) &&
    decide (a / 2 ^ 16 ≤ (getCr x (0x29 + 3 * r)).toNat)

/-- An access at the application level lies in the lowest-numbered region that covers it, which permits it.
[DEDUCED, log 62] -/
def mpuOk (x : CoreSt) (write : Bool) (a n : Nat) : Bool :=
  plOf x || match (List.range 8).find? (mpuCovers x a) with
    | none => false
    | some r => bit (getCr x (0x2A + 3 * r)) (if write then 1 else 0) &&
        (granules a n 65536).all fun g => (List.range 8).find? (mpuCovers x g) == some r

/-! ### Ranges (R438) -/

/-- How a core reaches an address: its own local data memory, through the data cache, or past it. -/
inductive Reach where
  | local_
  | cached
  | uncached
  deriving DecidableEq, Repr

/-- The reach of an address; `u` is U of the instruction. -/
def reachOf (s : State) (c : Nat) (u : Bool) (a : Nat) : Reach :=
  match region s a with
  | .core p o => if !isS c && p = c && decide (o < 0x80000) then .local_ else .uncached
  | .dram _ => if u then .uncached else .cached
  | .sram _ _ => if u then .uncached else .cached
  | _ => .uncached

/-- Why a load finds no data. -/
inductive LoadErr where
  | decode
  | mem (addr : Nat)
  | line (addr : Nat)
  deriving DecidableEq, Repr

/-- R463: a load reads an uncorrectable error from memory. [DEDUCED, log 72] -/
def loadPoison (s : State) (c a : Nat) : State :=
  setEvt (ownErr s (corePage c) 2 0x02 (some a)) (corePage c) 4

/-- R465: a load hits a dirty line that cannot be read: the line is discarded. [DEDUCED, log 72] -/
def loadLost (s : State) (c a : Nat) : State :=
  setEvt (ownErr (modCore s c fun x => removeLine x a) (corePage c) 2 0x03 (some (a / 64 * 64))) (corePage c) 4

/-- A line is read from memory and enters the cache; a miss counts. It does not pass an earlier store to the line (R442). -/
def fillLine (s : State) (c a : Nat) : State × Except LoadErr (List Byte) :=
  let b := a / 64 * 64
  let s := incCnt (if (coreOf s c).wbuf.any fun e => decide (e.addr = b) then drainAll c s else s) (corePage c) 6
  match memRead s (initPage s (coreWho s c)) b 64 with
  | (s, .ok, d) => (insertLine s c ⟨b, d, false, false⟩, .ok d)
  | (s, .poison, _) => (loadPoison s c a, .error (.mem a))
  | (s, _, _) => (s, .error .decode)

/-- The 64 bytes of the line that holds an address, by the cache (R441, R464, R465). -/
def readLine (s : State) (c a : Nat) : State × Except LoadErr (List Byte) :=
  match findLine (coreOf s c) a with
  | none => fillLine s c a
  | some l =>
    if !l.ue then (modCore s c fun x => { removeLine x a with cache := l :: (removeLine x a).cache }, .ok l.data)
    else if l.dirty then (loadLost s c a, .error (.line (a / 64 * 64)))
    else fillLine (countCe (modCore s c fun x => removeLine x a) (corePage c)) c a

/-- An access of `n` bytes that goes past the cache follows the stores before it (R442): the core's own dirty lines that
it overlaps are written back, and the write buffer drains. [DEDUCED, log 150] -/
def orderPast (c a n : Nat) (s : State) : State := drainAll c (flushLines s c a n)

/-- A read of memory or of a page that goes past the cache. -/
def readPast (s : State) (c a n : Nat) : State × Except LoadErr (List Byte) :=
  let src := initPage s (coreWho s c)
  match region s a with
  | .page p off =>
    match pageServe ⟨coreWho s c, false⟩ src p off n s with
    | (some (.ok, d), s) => (s, .ok d)
    | (_, s) => (s, .error .decode)
  | _ =>
    match memRead s src a n with
    | (s, .ok, d) => (s, .ok d)
    | (s, .poison, _) => (loadPoison s c a, .error (.mem a))
    | (s, _, _) => (s, .error .decode)

/-- A load of `n` bytes that lie in one line. -/
def loadPart (s : State) (c : Nat) (u : Bool) (a n : Nat) : State × Except LoadErr (List Byte) :=
  match reachOf s c u a with
  | .cached =>
    match readLine s c a with
    | (s, .ok d) => (s, .ok ((d.drop (a % 64)).take n))
    | r => r
  | .local_ => readPast s c a n
  | .uncached => readPast (orderPast c a n s) c a n

/-- A load of up to 64 bytes; it may cross a line. -/
def loadBytes (s : State) (c : Nat) (u : Bool) (a n : Nat) : State × Except LoadErr (List Byte) :=
  let n1 := min n (64 - a % 64)
  if n1 = n ∨ reachOf s c u a ≠ .cached then loadPart s c u a n
  else match loadPart s c u a n1 with
    | (s, .ok d) =>
      match loadPart s c u (a + n1) (n - n1) with
      | (s, .ok e) => (s, .ok (d ++ e))
      | r => r
    | r => r

/-- Bytes that are present replace those of a line. -/
def mergeBytes : List Byte → List (Option Byte) → List Byte
  | _ :: bs, some d :: ds => d :: mergeBytes bs ds
  | b :: bs, none :: ds => b :: mergeBytes bs ds
  | bs, [] => bs
  | [], _ => []

/-- A store into one line of the cache (R441): a whole line is allocated without a fill. [DEDUCED, log 72] -/
def storeLine (s : State) (c a : Nat) (d : List (Option Byte)) : State × Except LoadErr Unit :=
  let b := a / 64 * 64
  if d.length = 64 ∧ d.all (·.isSome) then (insertLine s c ⟨b, d.map (·.getD 0), true, false⟩, .ok ())
  else
    let put (old : List Byte) (ue : Bool) (s : State) : State :=
      insertLine s c ⟨b, mergeBytes old (List.replicate (a % 64) none ++ d), true, ue⟩
    match findLine (coreOf s c) a with
    | some l =>
      if l.ue && l.dirty then (put l.data true s, .ok ())
      else match readLine s c a with
        | (s, .ok old) => (put old false s, .ok ())
        | (s, .error e) => (s, .error e)
    | none =>
      match fillLine s c a with
      | (s, .ok old) => (put old false s, .ok ())
      | (s, .error e) => (s, .error e)

/-- A store past the cache (R445): an error response is a write error of the core. It enters the write buffer behind the
core's own dirty lines that it overlaps, which leave the cache; a write of a register page waits for the buffer (R442).
[DEDUCED, log 150] -/
def storePast (s : State) (c a : Nat) (d : List (Option Byte)) : State :=
  match region s a with
  | .page p off =>
    let s := drainAll c s
    let who := coreWho s c
    let src := initPage s who
    if d.length ≠ 4 ∨ off % 4 ≠ 0 ∨ d.any (·.isNone) then writeError (decodeErr s src (regAddr p off)) c a
    else if pageLp p = 44 ∧ !stationOk s (pageStation p) then
      writeError (bridgeWait s p (off / 4) (some (wordAt (d.map (·.getD 0)) 0))) c a
    else bridgeDone p (regWriteSt ⟨who, false⟩ p off (wordAt (d.map (·.getD 0)) 0) s)
  | _ => coreWrite (invalLines (flushLines s c a d.length) c a d.length) c a d

/-- What a store into one line of the cache needs is there: its line, unless it writes all of it or marks it lost. -/
def readyLine (s : State) (c a : Nat) (d : List (Option Byte)) : State × Except LoadErr Unit :=
  let dirtyUe := match findLine (coreOf s c) a with | some l => l.ue && l.dirty | none => false
  if !(d.any (·.isSome)) || dirtyUe || (decide (d.length = 64) && d.all (·.isSome)) then (s, .ok ())
  else match readLine s c a with
    | (s, .ok _) => (s, .ok ())
    | (s, .error e) => (s, .error e)

/-- A store into one line of the cache of the bytes that are present, if any. -/
def storeSome (s : State) (c a : Nat) (d : List (Option Byte)) : State × Except LoadErr Unit :=
  if d.any (·.isSome) then storeLine s c a d else (s, .ok ())

/-- A store of up to 64 bytes, those that are present; it may cross a line, and changes neither where one fails (R502). -/
def storeBytes (s : State) (c : Nat) (u : Bool) (a : Nat) (d : List (Option Byte)) : State × Except LoadErr Unit :=
  if !(d.any (·.isSome)) then (s, .ok ())
  else match reachOf s c u a with
  | .cached =>
    let n1 := 64 - a % 64
    if d.length ≤ n1 then storeLine s c a d
    else match readyLine s c a (d.take n1) with
      | (s, .ok _) =>
        match readyLine s c (a + n1) (d.drop n1) with
        | (s, .ok _) =>
          match storeSome s c a (d.take n1) with
          | (s, .ok _) => storeSome s c (a + n1) (d.drop n1)
          | r => r
        | r => r
      | r => r
  | .local_ => (coreWriteNow s c a d, .ok ())
  | .uncached => (storePast s c a d, .ok ())

/-! ### Active bytes of a vector access (R484, R500) -/

/-- The runs of consecutive bytes that are active: offset and length. -/
def activeRuns (act : List Bool) : List (Nat × Nat) :=
  let step (acc : List (Nat × Nat)) (x : Bool × Nat) : List (Nat × Nat) :=
    if !x.1 then acc
    else match acc with
      | (o, n) :: rest => if o + n = x.2 then (o, n + 1) :: rest else (x.2, 1) :: acc
      | [] => [(x.2, 1)]
  (act.zipIdx.foldl step []).reverse

/-- The active bytes of a 64-byte access whose elements have `z` bytes. -/
def activeBytes (p : Dword) (z : Nat) : List Bool := (List.range 64).map fun i => p.toNat.testBit (i / z)

/-- A load of the active bytes; the others are 0. -/
def loadRuns (c : Nat) (u : Bool) (a : Nat) : List (Nat × Nat) → State → List Byte → State × Except LoadErr (List Byte)
  | [], s, acc => (s, .ok acc)
  | (o, n) :: rs, s, acc =>
    match loadBytes s c u (addr48 (a + o)) n with
    | (s, .ok d) => loadRuns c u a rs s (mergeBytes acc (List.replicate o none ++ d.map some))
    | (s, .error e) => (s, .error e)

/-! ### The fetch of a bundle (R439, R462) -/

/-- The core may fetch from an address. -/
def fetchRange (s : State) (c a : Nat) : Bool :=
  match region s a with
  | .core p o => !isS c && p = c && decide (0x80000 ≤ o)
  | .dram _ => isS c && (memBlocked s (corePage c) a 16).isNone
  | .sram _ _ => isS c && (memBlocked s (corePage c) a 16).isNone
  | _ => false

/-- The error marks of the words that hold a bundle. -/
def fetchMarked (s : State) (a : Nat) : Bool :=
  match region s a with
  | .dram k => getMark s (k / 64 * 64) ≠ .clean
  | r => (granules r.key 16 8).any fun g => getMark s g ≠ .clean

/-- The fetch of the bundle at an address: the trap that it takes, if any. [DESIGN CHOICE, log 57] -/
def fetchBundle (c a : Nat) (s : State) : State × Option TrapInfo :=
  if !fetchRange s c a then (s, some ⟨3, 0, 0, true, a⟩)
  else if !fetchMarked s a then (s, none)
  else match memRead s (initPage s (coreWho s c)) a 16 with
    | (s, .ok, _) => (s, none)
    | (s, _, _) => (setEvt (ownErr s (corePage c) 2 0x01 (some a)) (corePage c) 3, some ⟨6, 0, 0, true, a⟩)

end Sys2Proof.Machine
end

