-- ==== Sys2Proof/Machine/CoreOps.lean ====
section
/-! DEFINITION. What one operation of a bundle does (R421–R459): the fields of its slot word, the traps that it takes,
and the scalar, memory, branch and system operations. An operation reads its registers in the issue cycle (R426) and puts
its results in flight (R428). -/

namespace Sys2Proof.Machine

/-- What a bundle has done when one of its operations is performed: the state; results in flight; the first fault; the
first completion trap; the target of a taken branch; what becomes of the core at the bundle's end; whether write errors
trap there; whether the bundle is the one to resume at (R450). -/
inductive Post where
  | rti
  | wait
  deriving DecidableEq, Repr

/-- A bundle under way. -/
structure Bun where
  s : State
  pend : List Pend
  fault : Option TrapInfo
  comp : Option TrapInfo
  taken : Option Nat
  post : Option Post
  sync : Bool
  hold : Bool
  deriving DecidableEq, Repr

/-- One operation of a bundle: the core and its registers at issue, the bundle's operations, this one. -/
structure OpCtx where
  c : Nat
  x : CoreSt
  ops : List Staged
  o : Staged
  deriving DecidableEq, Repr

/-- Bits of the slot word. -/
def OpCtx.f (k : OpCtx) (hi lo : Nat) : Nat := bits k.o.word hi lo

/-- The major opcode of a slot word (R424). -/
def opcodeOf (o : Staged) : Nat := bits o.word 31 26

/-- A trap of this operation. -/
def OpCtx.trap (k : OpCtx) (cause sub eaddr : Nat) : TrapInfo := ⟨cause, sub, k.o.slot, true, eaddr⟩

/-- A fault of this operation. -/
def faultWith (t : TrapInfo) (b : Bun) : Bun := { b with fault := if b.fault.isSome then b.fault else some t }

/-- A completion trap of an operation. -/
def compWith (t : TrapInfo) (b : Bun) : Bun := { b with comp := if b.comp.isSome then b.comp else some { t with fault := false } }

/-- A result in flight with latency `l`. -/
def inFlight (k : OpCtx) (l : Nat) (d : Dest) (b : Bun) : Bun := { b with pend := b.pend ++ [⟨k.x.cyc + l, k.o.slot, d⟩] }

/-- A data register takes a value. -/
def toD (k : OpCtx) (l i : Nat) (v : Word) (b : Bun) : Bun := inFlight k l (.d (dKey k.x i) v) b

/-- A data register pair takes a value. -/
def toDPair (k : OpCtx) (l i : Nat) (v : Nat) (b : Bun) : Bun := toD k l (i + 1) (w32 (v / 2 ^ 32)) (toD k l i (w32 v) b)

/-- An address register takes a value. -/
def toA (k : OpCtx) (l i : Nat) (v : Dword) (b : Bun) : Bun := inFlight k l (.a (aKey k.x i) v) b

/-- The post-modify update of AB. -/
def updateA (k : OpCtx) (i : Nat) (v : Option Dword) (b : Bun) : Bun :=
  match v with
  | some v => toA k 1 i v b
  | none => b

/-! ### Traps found before an operation is performed -/

/-- The context of a core's MXC (R514): MXC and context. -/
def mxcCtx (s : State) (c : Nat) : Nat × Nat :=
  let lc := (logicalOf s c).getD 0
  (lc / 8, lc % 8)

/-- MODE and AB of an address form (R434, R435): the SUB of the UNDEF that they take. [DEDUCED, log 63] -/
def modeRule (mode ab : Nat) : Option Nat :=
  if 6 ≤ mode then some 0 else if 4 ≤ mode ∧ ab < 8 then some 3 else none

/-- The accumulator that a slot word has as its destination (R487). -/
def accDest (o : Staged) : Option Nat :=
  match opcodeOf o with
  | 0x17 | 0x1F => some (bits o.word 25 23)
  | 0x14 => if bits o.word 10 9 = 0 then some (bits o.word 25 23) else none
  | _ => none

/-- Another operation of the bundle satisfies a condition. -/
def OpCtx.other (k : OpCtx) (p : Staged → Bool) : Bool := k.ops.any fun o => !decide (o.slot = k.o.slot) && p o

/-- R487. -/
def accClash (k : OpCtx) : Bool :=
  match accDest k.o with
  | some a => k.other fun o => accDest o == some a
  | none => false

/-- A gather or a scatter. -/
def isGs (o : Staged) : Bool := decide (opcodeOf o = 0x12) || decide (opcodeOf o = 0x13)

/-- The vector registers that a slot word reads. -/
def readsV (o : Staged) : List Nat :=
  let w := o.word
  let f := bits w 3 0
  match opcodeOf o with
  | 0x11 => [bits w 25 21]
  | 0x12 => [bits w 16 12]
  | 0x13 => [bits w 25 21, bits w 16 12]
  | 0x15 => [bits w 20 16] ++ (if 9 ≤ f ∧ f ≤ 11 then [] else [bits w 15 11])
  | 0x16 => [bits w 20 16]
  | 0x17 => [bits w 22 18] ++ (if f = 0 then [bits w 17 13] else [])
  | 0x19 => [bits w 20 16] ++ (if f = 0 ∨ 7 ≤ f then [] else [bits w 15 11])
  | 0x1A => [bits w 20 16, bits w 15 11]
  | 0x1C => [bits w 20 16] ++ (if f ≤ 1 then [bits w 15 11, bits w 25 21] else [])
  | 0x1D => [bits w 20 16]
  | 0x1F => [bits w 22 18, bits w 22 18 + 1, bits w 17 13]
  | _ => []

/-- A TYPE, and a function that its table lists or not (R486). -/
def typeRule (t : Nat) (listed ok : Bool) : Option Nat :=
  if 6 ≤ t ∨ !listed then some 0 else if !ok then some 3 else none

/-- The SUB of a rule that is broken. -/
def rule3 (bad : Bool) : Option Nat := if bad then some 3 else none

/-- The first SUB found. -/
def firstSub (a b : Option Nat) : Option Nat := match a with | some x => some x | none => b

/-- A current fire slot of the core at an address (R453). -/
def currentSlot (s : State) (c : Nat) (x : CoreSt) (a : Nat) : Option FireSlot :=
  x.slots.find? fun g => g.current && decide (slotAddr s c g.idx = a)

/-- The slots that accept an opcode (R425, R485, R518): a bit for each. -/
def slotMask (sp : Bool) (op : Nat) : Nat :=
  if op = 0x01 ∨ op = 0x02 ∨ op = 0x07 then (if sp then 15 else 7)
  else if op = 0x03 then (if sp then 12 else 4)
  else if op = 0x04 ∨ op = 0x05 ∨ op = 0x06 then 3
  else if op = 0x08 ∨ op = 0x09 ∨ op = 0x0A then 2
  else if 0x10 ≤ op ∧ op ≤ 0x14 then 3
  else if 0x15 ≤ op ∧ op ≤ 0x1F then 12
  else if 0x20 ≤ op ∧ op ≤ 0x27 then 8
  else 15

/-- The SUB of the UNDEF that an instruction's own fields take; none where they are allowed. -/
def fieldRule (s : State) (k : OpCtx) : Option Nat :=
  let w := k.o.word
  let t := k.f 6 4
  let f := k.f 3 0
  let busy := (fun (m : Nat × Nat) => (mxCtxOf s m.1 m.2).busy) (mxcCtx s k.c)
  match opcodeOf k.o with
  | 0x01 => if (Config.aluFunc (BitVec.ofNat 11 w.toNat)).isNone then some 0 else none
  | 0x03 => if (Config.mulFunc (BitVec.ofNat 11 w.toNat)).isNone then some 0 else none
  | 0x04 | 0x05 => firstSub (modeRule (k.f 16 14) (k.f 20 17)) (rule3 (decide (k.f 10 9 = 3 ∧ k.f 21 21 = 1)))
  | 0x08 => if 8 ≤ k.f 25 22 then some 0 else rule3 (decide (k.x.bd ≠ 0))
  | 0x09 => if (Config.jumpOp (BitVec.ofNat 26 w.toNat)).isNone then some 0 else rule3 (decide (k.x.bd ≠ 0))
  | 0x0A =>
    match k.f 25 20 with
    | 0x01 => rule3 (decide (k.f 15 15 = 1))
    | 0x02 => rule3 (currentSlot s k.c k.x ((aReg k.x (k.f 19 16)).toNat)).isNone
    | _ => none
  | 0x10 | 0x11 => modeRule (k.f 16 14) (k.f 20 17)
  | 0x12 | 0x13 =>
    let vd := k.f 25 21
    let gather := decide (opcodeOf k.o = 0x12)
    rule3 (decide (k.f 7 6 = 0) || decide (k.f 2 0 ≠ 0) || k.other isGs ||
      (gather && (decide (vd = k.f 16 12) || k.other fun o => (readsV o).contains vd)))
  | 0x14 => firstSub (modeRule (k.f 16 14) (k.f 20 17))
      (rule3 ((decide (k.f 10 9 ≤ 1) && decide (k.f 22 21 = 3)) || accClash k))
  | 0x15 => typeRule t true (valuOk f t)
  | 0x16 => firstSub (typeRule t true (valuOk f t)) (rule3 (decide (t = 4 ∧ k.f 11 11 = 1)))
  | 0x17 => firstSub (typeRule t (decide (f ≤ 1)) (vmacOk f t)) (rule3 (accClash k))
  | 0x18 => typeRule t true (decide (1 ≤ t ∧ t ≤ 3) && decide (k.f 9 8 ≠ 3))
  | 0x19 => typeRule t (decide (f ≤ 8)) (decide (f ≠ 8) || tyCx t)
  | 0x1A => firstSub (typeRule t (decide (f ≤ 7)) (vcmpOk f t)) (rule3 (decide (k.f 22 21 ≠ 0)))
  | 0x1B => firstSub (typeRule t (decide (f ≤ 9)) true)
      (rule3 (decide (k.f 11 7 ≠ 0) || decide ((f = 6 ∨ f = 7) ∧ k.f 12 12 = 1)))
  | 0x1C => typeRule t (decide (f ≤ 5)) (decide (t = 5))
  | 0x1D => firstSub (typeRule t (decide (f ≤ 5)) (vredOk f t)) (rule3 (decide (f = 5 ∧ t = 4 ∧ k.f 21 21 = 1)))
  | 0x1F => rule3 (decide (k.f 18 18 = 1) || decide (k.f 5 0 ≠ 0) || accClash k ||
      k.other fun o => decide (opcodeOf o = 0x1F) && decide (bits o.word 22 18 = k.f 22 18))
  | 0x20 => rule3 (decide (k.f 15 0 ≠ 0) || decide (k.f 18 16 = 0) || busy.getLsbD (k.f 25 22))
  | 0x21 | 0x22 => rule3 (decide (k.f 20 0 ≠ 0))
  | 0x23 | 0x24 => rule3 (decide (k.f 25 22 ≠ 0) || decide (k.f 18 0 ≠ 0) || decide (busy ≠ 0))
  | 0x25 => rule3 (decide (k.f 25 16 ≠ 0))
  | _ => none

/-- The operations that take PRIV at the application level (R456, R520). -/
def needsPl (k : OpCtx) : Bool :=
  let i := k.f 5 0
  let cb := decide (0x1C ≤ i) && decide (i ≤ 0x23)
  match opcodeOf k.o with
  | 0x0A =>
    match k.f 25 20 with
    | 0x09 => !([0x00, 0x14, 0x15, 0x16, 0x1A].contains i || cb)
    | 0x0A => !cb
    | 0x0B | 0x0C | 0x0D => true
    | _ => false
  | 0x20 | 0x23 | 0x24 | 0x25 => true
  | _ => false

/-- The trap that an operation takes before it is performed (R421, R425, R456). [DEDUCED, log 63] -/
def opTrap (s : State) (k : OpCtx) : Option TrapInfo :=
  let op := opcodeOf k.o
  let w := k.o.word.toNat
  if isS k.c && decide (0x10 ≤ op) then some (k.trap 1 1 w)
  else if !(slotMask (isS k.c) op).testBit k.o.slot then some (k.trap 1 3 w)
  else match fieldRule s k with
    | some sub => some (k.trap 1 sub w)
    | none => if needsPl k && !plOf k.x then some (k.trap 2 0 w) else none

/-! ### ALU, multiply, address arithmetic (R425, R428) -/

/-- ALU, register. [DESIGN CHOICE, log 58] -/
def opAlu (k : OpCtx) (b : Bun) : Bun :=
  let p := dReg k.x (k.f 20 16)
  let q := dReg k.x (k.f 15 11)
  match Config.aluFunc (BitVec.ofNat 11 k.o.word.toNat) with
  | none => b
  | some .add => toD k 1 (k.f 25 21) (p + q) b
  | some .sub => toD k 1 (k.f 25 21) (p - q) b
  | some g => toD k 1 (k.f 25 21) (Config.aluValue g p q) b

/-- ALU, immediate. -/
def opAluImm (k : OpCtx) (b : Bun) : Bun :=
  toD k 1 (k.f 25 21) (Config.aluImm (dReg k.x (k.f 20 16)) (BitVec.ofNat 16 (k.f 15 0))) b

/-- Multiply. [DESIGN CHOICE, log 58] -/
def opMul (k : OpCtx) (b : Bun) : Bun :=
  match Config.mulFunc (BitVec.ofNat 11 k.o.word.toNat) with
  | none => b
  | some g => toD k 3 (k.f 25 21) (Config.mulValue g (dReg k.x (k.f 20 16)) (dReg k.x (k.f 15 11)) (dReg k.x (k.f 25 21))) b

/-- Address arithmetic: A ← A + D or A + IMM16. [DESIGN CHOICE, log 58] -/
def opAddr (k : OpCtx) (b : Bun) : Bun :=
  let g := Config.addrOp (BitVec.ofNat 26 k.o.word.toNat)
  let d : Int := match g.byReg with
    | some i => (dReg k.x i).toInt
    | none => signed 16 (k.f 15 0)
  toA k 1 g.dst (BitVec.ofNat 64 (wrapN 64 ((aReg k.x g.src).toNat + d))) b

/-- Load upper immediate. [DEDUCED, log 59] -/
def opLui (k : OpCtx) (b : Bun) : Bun := toD k 1 (k.f 25 21) (w32 (k.f 15 0 * 2 ^ 16)) b

/-! ### Scalar loads and stores (R433–R442) -/

/-- The fault of a load that finds no data at an address. -/
def OpCtx.loadTrap (k : OpCtx) (a : Nat) : LoadErr → TrapInfo
  | .decode => k.trap 4 2 a
  | .mem _ => k.trap 7 0 a
  | .line _ => k.trap 7 1 a

/-- The faults of an access that are found from its address: bits [63:48] (R433), alignment (R436), protection (R457).
[DEDUCED, log 62] -/
def addrTrap (k : OpCtx) (write : Bool) (ab : Nat) (a : Nat) (align : Nat) (runs : List (Nat × Nat)) : Option TrapInfo :=
  if (aReg k.x ab).toNat / 2 ^ 48 ≠ 0 then some (k.trap 4 1 a)
  else if a % align ≠ 0 then some (k.trap 5 0 a)
  else match runs.find? fun r => !mpuOk k.x write (addr48 (a + r.1)) r.2 with
    | some r => some (k.trap 4 0 (addr48 (a + r.1)))
    | none => none

/-- The value that a scalar load of 1, 2 or 4 bytes writes. [DESIGN CHOICE, log 61] -/
def extend (sz n : Nat) : Word :=
  if sz ≤ 1 ∧ Config.loadSigned sz then w32 (wrapN 32 (signed (8 * 2 ^ sz) n)) else w32 n

/-- Scalar load. -/
def opLoad (k : OpCtx) (b : Bun) : Bun :=
  let ab := k.f 20 17
  let sz := k.f 10 9
  let n := 2 ^ sz
  let u := decide (k.f 8 8 = 1)
  let (ai, upd) := addrForm k.x ab (k.f 16 14) (k.f 13 11) (signed 8 (k.f 7 0) * (n : Nat))
  let a := addr48 ai
  match addrTrap k false ab a n [(0, n)] with
  | some t => faultWith t b
  | none =>
    match loadBytes b.s k.c u a n with
    | (s, .error e) => faultWith (k.loadTrap a e) { b with s := s }
    | (s, .ok d) =>
      let l := if reachOf b.s k.c u a = .local_ then 4 else 6
      let b := updateA k ab upd { b with s := s }
      if sz = 3 then toDPair k l (k.f 25 21) (ofLe d) b else toD k l (k.f 25 21) (extend sz (ofLe d)) b

/-- Scalar store. -/
def opStore (k : OpCtx) (b : Bun) : Bun :=
  let ab := k.f 20 17
  let sz := k.f 10 9
  let n := 2 ^ sz
  let u := decide (k.f 8 8 = 1)
  let (ai, upd) := addrForm k.x ab (k.f 16 14) (k.f 13 11) (signed 8 (k.f 7 0) * (n : Nat))
  let a := addr48 ai
  match addrTrap k true ab a n [(0, n)] with
  | some t => faultWith t b
  | none =>
    let v := if sz = 3 then (dPair k.x (k.f 25 21)).toNat else (dReg k.x (k.f 25 21)).toNat
    match storeBytes b.s k.c u a ((leBytes n v).map some) with
    | (s, .error e) => faultWith (k.loadTrap a e) { b with s := s }
    | (s, .ok _) => updateA k ab upd { b with s := s }

/-! ### Branches (R427, R428, R431) -/

/-- The target of DISP, in bundles from this one. [DEDUCED, log 59] -/
def dispTarget (k : OpCtx) : Nat := wrapN 48 ((k.x.pc : Int) + signed 17 (k.f 16 0) * 16)

/-- Whether a condition holds. [DEDUCED, log 60] -/
def branchCond (cc : Nat) (v : Word) : Bool :=
  match cc with
  | 0 => true
  | 1 => decide (v = 0)
  | 2 => decide (v ≠ 0)
  | 3 => decide (v.toInt < 0)
  | 4 => decide (0 ≤ v.toInt)
  | 5 => decide (0 < v.toInt)
  | 6 => decide (v.toInt ≤ 0)
  | _ => decide (v ≠ 0)

/-- Conditional branch; CC 7 counts RA down where the branch is taken. [DEDUCED, log 60] -/
def opBranch (k : OpCtx) (b : Bun) : Bun :=
  let cc := k.f 25 22
  let v := dReg k.x (k.f 21 17)
  if !branchCond cc v then b
  else
    let b := { b with taken := some (dispTarget k) }
    if cc = 7 then toD k 1 (k.f 21 17) (v - 1) b else b

/-- Jump, call, jump through A. [DESIGN CHOICE, log 58] -/
def opJump (k : OpCtx) (b : Bun) : Bun :=
  match Config.jumpOp (BitVec.ofNat 26 k.o.word.toNat) with
  | none => b
  | some j =>
    let t := match j.through with
      | some a => (aReg k.x a).toNat % 2 ^ 48
      | none => dispTarget k
    let b := { b with taken := some t }
    match j.link with
    | some a => toA k 1 a (Config.linkAddr k.x.pc) b
    | none => b

/-! ### System operations (R443–R459, R471) -/

/-- Steps 1–3 of R449: the region [Ar, Ar + Dl) is published; whether every write succeeded (R450). [DEDUCED, log 65] -/
def publish (k : OpCtx) (ar dl : Nat) (b : Bun) : Bun × Bool :=
  let a := (aReg k.x ar).toNat % 2 ^ 48
  let n := if dl = 0 then 0 else (dReg k.x dl).toNat
  let lost := (linesIn (coreOf b.s k.c) a n).any fun l => l.dirty && l.ue
  let s := drainAll k.c (flushLines b.s k.c a n)
  let ok := !lost && (coreOf s k.c).werr.isNone
  ({ b with s := s, sync := true, hold := !ok }, ok)

/-- TSEND (R448–R450). [DEDUCED, log 65] -/
def opTsend (k : OpCtx) (b : Bun) : Bun :=
  let (b, ok) := publish k (k.f 10 7) (k.f 6 2) b
  if !ok then b
  else
    let h := k.f 19 15
    let p := aReg k.x (k.f 14 11)
    let t := tokenOfWords (w32 p.toNat) (w32 (p.toNat / 2 ^ 32)) (dReg k.x h) (dReg k.x (h + 1))
    let t := { t with flags := t.flags &&& 0x0F, rsvd := 0 }
    { b with s := incCnt (sendTok b.s (corePage k.c) (k.f 1 0) t) (corePage k.c) 3 }

/-- TDONE (R449, R450, R453). [DEDUCED, log 65] -/
def opTdone (k : OpCtx) (b : Bun) : Bun :=
  let (b, ok) := publish k (k.f 11 8) (k.f 7 3) b
  if !ok then b
  else match currentSlot b.s k.c k.x (aReg k.x (k.f 19 16)).toNat with
    | none => b
    | some g =>
      let s := modCore b.s k.c fun x => { x with slots := dropFirst (fun h => decide (h.idx = g.idx)) x.slots }
      let s := complete s (corePage k.c) g.rec_ (decide (k.f 2 2 = 1)) (aReg k.x (k.f 15 12))
      { b with s := incCnt s (corePage k.c) 2 }

/-- FWAIT with a record that waits (R452): its slot is current, its address goes to Ad. [DEDUCED, log 68] -/
def opFwait (k : OpCtx) (b : Bun) : Bun :=
  match waitingSlot k.x with
  | none => b
  | some g =>
    let s := modCore b.s k.c fun x =>
      { x with slots := x.slots.map fun h => if h.idx = g.idx then { h with current := true } else h }
    toA k 1 (k.f 19 16) (BitVec.ofNat 64 (slotAddr s k.c g.idx)) { b with s := s }

/-- The region of a cache operation (R443). [DEDUCED, log 73] -/
def cacheRegion (k : OpCtx) : Nat × Nat := ((aReg k.x (k.f 19 16)).toNat % 2 ^ 48, (dReg k.x (k.f 15 11)).toNat)

/-- FLUSH (R443). -/
def opFlush (k : OpCtx) (b : Bun) : Bun := { b with s := flushLines b.s k.c (cacheRegion k).1 (cacheRegion k).2 }

/-- INVAL (R443). -/
def opInval (k : OpCtx) (b : Bun) : Bun := { b with s := invalLines b.s k.c (cacheRegion k).1 (cacheRegion k).2 }

/-- FLINV (R443). -/
def opFlinv (k : OpCtx) (b : Bun) : Bun :=
  let r := cacheRegion k
  { b with s := invalLines (flushLines b.s k.c r.1 r.2) k.c r.1 r.2 }

/-- A control register as MFC reads it (R475). [DEDUCED, log 74] -/
def readCr (s : State) (c : Nat) (x : CoreSt) (i : Nat) : Word :=
  match i with
  | 0x00 =>
    if isS c then w32 (0xFF000000 + (c - 144) * 2 ^ 16 + (c - 144) * 2 ^ 8 + 1)
    else
      let (m, j) := mxcCtx s c
      w32 (m * 2 ^ 24 + j * 2 ^ 16 + c % 9 * 2 ^ 8)
  | 0x01 => statusOf x
  | 0x0D =>
    let n := if isS c then 128 + (c - 144) else (logicalOf s c).getD 0
    w32 (((List.range 32).map fun l => if lineLevel s n l then 2 ^ l else 0).foldl (· + ·) 0)
  | 0x14 => w32 x.total
  | 0x15 => w32 (x.total / 2 ^ 32)
  | 0x16 => slice s
  | 0x17 => fireSts x
  | i =>
    if (i = 0x18 ∨ i = 0x19) ∧ !isS c then 0
    else if i = 0x0E ∨ i = 0x0F ∨ i = 0x1B ∨ (0x24 ≤ i ∧ i < 0x28) then 0
    else getCr x i

/-- MFC (R428, R456). -/
def opMfc (k : OpCtx) (b : Bun) : Bun := toD k 2 (k.f 19 15) (readCr b.s k.c k.x (k.f 5 0)) b

/-- MTC (R428, R456). -/
def opMtc (k : OpCtx) (b : Bun) : Bun := inFlight k 2 (.cr (k.f 5 0) (dReg k.x (k.f 19 15))) b

/-- RTI (R459, R471). -/
def opRti (b : Bun) : Bun := { b with post := some .rti }

/-- The words that ISAVE writes: the shadow bank's D16–D31, A8–A15 and M4–M7, EPC, EBT, ESTATUS, ECAUSE; the rest is
not stated. [DESIGN CHOICE, log 67] -/
def saveBytes (x : CoreSt) : List Byte :=
  ((List.range 16).flatMap fun i => leBytes 4 (kget 0 x.d (48 + i)).toNat) ++
  ((List.range 8).flatMap fun i => leBytes 8 (kget 0 x.a (24 + i)).toNat) ++
  ((List.range 4).flatMap fun i => leBytes 4 (kget 0 x.m (12 + i)).toNat) ++
  ([0x03, 0x04, 0x05, 0x06, 0x02, 0x07].flatMap fun i => leBytes 4 (getCr x i).toNat) ++
  (List.range 88).map (Config.savePad x.total)

/-- The core that those words describe. [DESIGN CHOICE, log 67] -/
def restoreBytes (x : CoreSt) (d : List Byte) : CoreSt :=
  let x := { x with
    d := (List.range 16).foldl (fun m i => kset 0 m (48 + i) (wordAt d i)) x.d
    a := (List.range 8).foldl (fun m i =>
      kset 0 m (24 + i) (BitVec.ofNat 64 ((wordAt d (16 + 2 * i)).toNat + 2 ^ 32 * (wordAt d (17 + 2 * i)).toNat))) x.a
    m := (List.range 4).foldl (fun m i => kset 0 m (12 + i) (wordAt d (32 + i))) x.m }
  [0x03, 0x04, 0x05, 0x06, 0x02, 0x07].zipIdx.foldl (fun x r => setCr x r.1 (wordAt d (36 + r.2))) x

/-- The four 64-byte parts of 256 bytes stored. -/
def storeParts (c a : Nat) (d : List Byte) : List Nat → State → State × Except LoadErr Unit
  | [], s => (s, .ok ())
  | i :: is, s =>
    match storeBytes s c false (addr48 (a + 64 * i)) (((d.drop (64 * i)).take 64).map some) with
    | (s, .ok _) => storeParts c a d is s
    | r => r

/-- The four 64-byte parts of 256 bytes loaded. -/
def loadParts (c a : Nat) : List Nat → State → List Byte → State × Except LoadErr (List Byte)
  | [], s, acc => (s, .ok acc)
  | i :: is, s, acc =>
    match loadBytes s c false (addr48 (a + 64 * i)) 64 with
    | (s, .ok d) => loadParts c a is s (acc ++ d)
    | r => r

/-- STATUS.SHB is set or cleared. -/
def setShb (v : Bool) (c : Nat) (s : State) : State := modCore s c fun x => setCr x 1 (putBit (getCr x 1) 30 v)

/-- ISAVE (R471). [DESIGN CHOICE, log 67] -/
def opIsave (k : OpCtx) (b : Bun) : Bun :=
  let ab := k.f 19 16
  let a := (aReg k.x ab).toNat % 2 ^ 48
  match addrTrap k true ab a 1 [] with
  | some t => faultWith t b
  | none =>
    match storeParts k.c a (saveBytes k.x) [0, 1, 2, 3] b.s with
    | (s, .error e) => faultWith (k.loadTrap a e) { b with s := s }
    | (s, .ok _) => { b with s := setShb false k.c s }

/-- IRESTORE (R471). [DESIGN CHOICE, log 67] -/
def opIrestore (k : OpCtx) (b : Bun) : Bun :=
  let ab := k.f 19 16
  let a := (aReg k.x ab).toNat % 2 ^ 48
  match addrTrap k false ab a 1 [] with
  | some t => faultWith t b
  | none =>
    match loadParts k.c a [0, 1, 2, 3] b.s [] with
    | (s, .error e) => faultWith (k.loadTrap a e) { b with s := s }
    | (s, .ok d) => { b with s := setShb true k.c (modCore s k.c fun x => restoreBytes x d) }

/-- TRAP (R458). -/
def opTrapInstr (k : OpCtx) (b : Bun) : Bun := compWith (k.trap 9 (k.f 7 0) (k.f 15 0)) b

/-- WAIT (R447). -/
def opWait (b : Bun) : Bun := { b with post := some .wait }

/-- A system operation. -/
def opSys (k : OpCtx) (b : Bun) : Bun :=
  match k.f 25 20 with
  | 0x01 => opTsend k b
  | 0x02 => opTdone k b
  | 0x03 => opFwait k b
  | 0x04 => opFlush k b
  | 0x05 => opInval k b
  | 0x06 => opFlinv k b
  | 0x07 => { b with s := drainAll k.c b.s, sync := true }
  | 0x08 => b
  | 0x09 => opMfc k b
  | 0x0A => opMtc k b
  | 0x0B => opRti b
  | 0x0C => opIsave k b
  | 0x0D => opIrestore k b
  | 0x0E => opTrapInstr k b
  | 0x0F => opWait b
  | _ => b

end Sys2Proof.Machine
end

