-- ==== Sys2Proof/Machine/VecOps.lean ====
section
/-! DEFINITION. What one vector or coprocessor operation of a bundle does (R472–R511, R518–R523, R531–R540). -/

namespace Sys2Proof.Machine

/-- A vector register takes bits. -/
def toV (k : OpCtx) (l i : Nat) (mask val : Vec) (b : Bun) : Bun := inFlight k l (.v i mask val) b

/-- A vector register takes the results of its active elements (R483). -/
def toVPred (k : OpCtx) (l t pg : Nat) (zm : Bool) (res : List Nat) (b : Bun) : Bun :=
  let (m, v) := vMerge t (pReg k.x pg) zm res
  toV k l (k.f 25 21) m v b

/-- The elements of VA and those of a second operand, one by one. -/
def zipElems (t : Nat) (va : Vec) (other : List Nat) (g : Nat → Nat → Nat) : List Nat :=
  (List.zip (vElems t va) other).map fun (a, b) => g a b

/-- VALU, vector operands (R488). -/
def opValu (k : OpCtx) (b : Bun) : Bun :=
  let t := k.f 6 4
  toVPred k 2 t (k.f 10 8) (decide (k.f 7 7 = 1))
    (zipElems t (vReg k.x (k.f 20 16)) (vElems t (vReg k.x (k.f 15 11))) (valuElem (k.f 3 0) t)) b

/-- The scalar second operand (R488), broadcast: RB, or the pair for C32. -/
def scalarElem (k : OpCtx) (t : Nat) : Nat :=
  let r := k.f 15 11
  if t = 4 then (dPair k.x r).toNat else (dReg k.x r).toNat % 2 ^ tyWidth t

/-- VALU, scalar second operand (R488). -/
def opValuScalar (k : OpCtx) (b : Bun) : Bun :=
  let t := k.f 6 4
  toVPred k 2 t (k.f 10 8) (decide (k.f 7 7 = 1))
    (zipElems t (vReg k.x (k.f 20 16)) (List.replicate (tyN t) (scalarElem k t)) (valuElem (k.f 3 0) t)) b

/-- VMAC (R497). -/
def opVmac (k : OpCtx) (b : Bun) : Bun :=
  let (lanes, add) := vmacAdds (k.f 3 0) (k.f 6 4) (vReg k.x (k.f 22 18)) (vReg k.x (k.f 17 13)) (pReg k.x (k.f 12 10))
    (decide (k.f 8 8 = 1)) (decide (k.f 7 7 = 1))
  inFlight k 4 (.acAdd (k.f 25 23) (if k.f 9 9 = 1 then lanes else []) add) b

/-- VRND (R498). -/
def opVrnd (k : OpCtx) (b : Bun) : Bun :=
  let t := k.f 6 4
  let a := acReg k.x (k.f 20 18)
  let rs := (List.range (tyN t)).map (vrndElem t (k.f 17 13) (k.f 9 8) a)
  let p := pReg k.x (k.f 12 10)
  let b := toVPred k 3 t (k.f 12 10) (decide (k.f 7 7 = 1)) (rs.map (·.1)) b
  if k.f 0 0 = 1 then
    inFlight k 3 (.p (k.f 3 1) (predOf ((List.zip (actives t p) rs).map fun (act, r) => act && r.2))) b
  else b

/-- VPERM (R490). -/
def opVperm (k : OpCtx) (b : Bun) : Bun :=
  let t := k.f 6 4
  toVPred k 2 t (k.f 10 8) (decide (k.f 7 7 = 1))
    (vpermElems (k.f 3 0) t (vReg k.x (k.f 20 16)) (vReg k.x (k.f 15 11)) (k.f 15 11)) b

/-- VCMP (R492): an inactive element's bit is 0 with ZM, else as it was; bits from n up are 0 (R481). -/
def opVcmp (k : OpCtx) (b : Bun) : Bun :=
  let t := k.f 6 4
  let va := vReg k.x (k.f 20 16)
  let vb := vReg k.x (k.f 15 11)
  let old := pReg k.x (k.f 25 23)
  let zm := decide (k.f 7 7 = 1)
  let bitsOf := (actives t (pReg k.x (k.f 10 8))).zipIdx.map fun (act, e) =>
    if act then vcmpElem (k.f 3 0) t (vElem t va e) (vElem t vb e) else !zm && old.toNat.testBit e
  inFlight k 2 (.p (k.f 25 23) (predOf bitsOf)) b

/-- VPRED (R493). -/
def opVpred (k : OpCtx) (b : Bun) : Bun :=
  let n := tyN (k.f 6 4)
  let pa := (pReg k.x (k.f 22 20)).toNat
  let pb := (pReg k.x (k.f 19 17)).toNat
  let rd := k.f 16 12
  let low (g : Nat → Bool) : Dword := predOf ((List.range n).map g)
  let toP (v : Dword) : Bun := inFlight k 2 (.p (k.f 25 23) v) b
  match k.f 3 0 with
  | 0 => toP (low fun e => pa.testBit e && pb.testBit e)
  | 1 => toP (low fun e => pa.testBit e || pb.testBit e)
  | 2 => toP (low fun e => pa.testBit e != pb.testBit e)
  | 3 => toP (low fun e => pa.testBit e && !pb.testBit e)
  | 4 => toP (low fun e => !pa.testBit e)
  | 5 => toP (low fun e => decide (e < min (dReg k.x rd).toNat n))
  | 6 => toDPair k 2 rd pa b
  | 7 => toP (dPair k.x rd)
  | 8 => toD k 2 rd (w32 ((List.range n).filter fun e => pa.testBit e).length) b
  | _ => toD k 2 rd (w32 (((List.range n).find? fun e => pa.testBit e).getD n)) b

/-- VFP (R489). -/
def opVfp (k : OpCtx) (b : Bun) : Bun :=
  let imm := k.f 15 11
  let va := vElems 5 (vReg k.x (k.f 20 16))
  let vb := vElems 5 (vReg k.x imm)
  let vd := vElems 5 (vReg k.x (k.f 25 21))
  let res := (List.zip va (List.zip vb vd)).map fun (p, q, d) => (vfpElem (k.f 3 0) (w32 p) (w32 q) (w32 d) imm).toNat
  toVPred k 4 5 (k.f 10 8) (decide (k.f 7 7 = 1)) res b

/-- VRED (R491). -/
def opVred (k : OpCtx) (b : Bun) : Bun :=
  let t := k.f 6 4
  let f := k.f 3 0
  let v := vredVal f t (vReg k.x (k.f 20 16)) (pReg k.x (k.f 10 8)) (k.f 15 11)
  if f = 5 ∧ t = 4 then toDPair k 4 (k.f 25 21) v b else toD k 4 (k.f 25 21) (w32 v) b

/-- FTAP (R472, R473). -/
def opFtap (k : OpCtx) (b : Bun) : Bun :=
  let vd := k.f 22 18
  let v0 := vReg k.x vd
  let v1 := vReg k.x (vd + 1)
  let add := ftapAdds v0 (vReg k.x (k.f 17 13)) (k.f 12 9) (decide (k.f 8 8 = 1)) (decide (k.f 7 7 = 1))
  let (n0, n1) := ftapMove v0 v1
  let all := BitVec.allOnes 512
  toV k 1 (vd + 1) all n1 (toV k 1 vd all n0
    (inFlight k 4 (.acAdd (k.f 25 23) (if k.f 6 6 = 1 then List.range 32 else []) add) b))

/-! ### Contiguous loads and stores (R500–R503) -/

/-- The address and update of a vector access of `n` bytes; the immediate counts such accesses. -/
def vecAddr (k : OpCtx) (imm : Int) (n : Nat) : Nat × Option Dword :=
  let (a, u) := addrForm k.x (k.f 20 17) (k.f 16 14) (k.f 13 11) (imm * (n : Int))
  (addr48 a, u)

/-- The faults of a contiguous vector access; an access with no active byte has none (R484). -/
def vecTrap (k : OpCtx) (write : Bool) (a align : Nat) (runs : List (Nat × Nat)) : Option TrapInfo :=
  if runs.isEmpty then none else addrTrap k write (k.f 20 17) a align runs

/-- The alignment of VLD and VST (R501). -/
def vldAlign (k : OpCtx) : Nat := if k.f 16 14 = 4 ∨ k.f 16 14 = 5 then 64 else 2 ^ k.f 10 9

/-- The latency of a vector load (R494). -/
def vecLat (s : State) (c : Nat) (u : Bool) (a : Nat) : Nat := if reachOf s c u a = .local_ then 5 else 7

/-- VLD (R500–R502). -/
def opVld (k : OpCtx) (b : Bun) : Bun :=
  let (a, upd) := vecAddr k (signed 5 (k.f 4 0)) 64
  let runs := activeRuns (activeBytes (pReg k.x (k.f 7 5)) (2 ^ k.f 10 9))
  let u := decide (k.f 8 8 = 1)
  match vecTrap k false a (vldAlign k) runs with
  | some t => faultWith t b
  | none =>
    match loadRuns k.c u a runs b.s (List.replicate 64 0) with
    | (s, .error e) => faultWith (k.loadTrap a e) { b with s := s }
    | (s, .ok d) =>
      updateA k (k.f 20 17) upd
        (toV k (vecLat b.s k.c u a) (k.f 25 21) (BitVec.allOnes 512) (BitVec.ofNat 512 (ofLe d)) { b with s := s })

/-- VST (R500–R502). -/
def opVst (k : OpCtx) (b : Bun) : Bun :=
  let (a, upd) := vecAddr k (signed 5 (k.f 4 0)) 64
  let act := activeBytes (pReg k.x (k.f 7 5)) (2 ^ k.f 10 9)
  match vecTrap k true a (vldAlign k) (activeRuns act) with
  | some t => faultWith t b
  | none =>
    let d := (List.zip act (leBytes 64 (vReg k.x (k.f 25 21)).toNat)).map fun (p, x) => if p then some x else none
    match storeBytes b.s k.c (decide (k.f 8 8 = 1)) a d with
    | (s, .error e) => faultWith (k.loadTrap a e) { b with s := s }
    | (s, .ok _) => updateA k (k.f 20 17) upd { b with s := s }

/-- VXFER (R503). -/
def opVxfer (k : OpCtx) (b : Bun) : Bun :=
  let kind := k.f 10 9
  let reg := k.f 25 23
  let part := k.f 22 21
  let n := if kind ≤ 1 then 64 else 8
  let (a, upd) := vecAddr k (signed 8 (k.f 7 0)) n
  let u := decide (k.f 8 8 = 1)
  let write := decide (kind = 1 ∨ kind = 3)
  match addrTrap k write (k.f 20 17) a n [(0, n)] with
  | some t => faultWith t b
  | none =>
    if write then
      let v := if kind = 1 then (acReg k.x reg).toNat / 2 ^ (512 * part) else (pReg k.x reg).toNat
      match storeBytes b.s k.c u a ((leBytes n v).map some) with
      | (s, .error e) => faultWith (k.loadTrap a e) { b with s := s }
      | (s, .ok _) => updateA k (k.f 20 17) upd { b with s := s }
    else
      match loadBytes b.s k.c u a n with
      | (s, .error e) => faultWith (k.loadTrap a e) { b with s := s }
      | (s, .ok d) =>
        let l := vecLat b.s k.c u a
        let w := (BitVec.ofNat 1536 (2 ^ 512 - 1)) <<< (512 * part)
        let dest : Dest := if kind = 0 then .acBits reg w (BitVec.ofNat 1536 (ofLe d) <<< (512 * part))
          else .p reg (BitVec.ofNat 64 (ofLe d))
        updateA k (k.f 20 17) upd (inFlight k l dest { b with s := s })

/-! ### Gather and scatter (R504–R511) -/

/-- What a gather or scatter has done: the state, the elements it has for VD, whether every element so far lay in local
memory, and the element that faulted with its ECODE and address. -/
structure GsRun where
  s : State
  got : List (Option Nat)
  near : Bool
  bad : Option (Nat × Nat × Nat)

/-- The ECODE of an element's load error (R508). -/
def eCode : LoadErr → Nat
  | .decode => 2
  | .mem _ => 4
  | .line _ => 5

/-- The element type whose elements have the size that ESZ names. -/
def eszType (esz : Nat) : Nat := if esz = 1 then 1 else if esz = 2 then 2 else 4

/-- The address of element `e`, of 64 bits as AB has them (R504). -/
def gsAddr (k : OpCtx) (esz e : Nat) : Nat :=
  ((aReg k.x (k.f 20 17)).toNat + vElem (eszType esz) (vReg k.x (k.f 16 12)) e % 2 ^ 32 * 2 ^ k.f 5 4) % 2 ^ 64

/-- One element (R505, R507). -/
def gsElem (k : OpCtx) (gather : Bool) (r : GsRun) (e : Nat) : GsRun :=
  let esz := k.f 7 6
  let z := 2 ^ esz
  let zm := decide (k.f 3 3 = 1)
  if r.bad.isSome then { r with got := r.got ++ [none] }
  else if e < bits (getCr k.x 0x1A) 4 0 then { r with got := r.got ++ [none] }
  else if !(pReg k.x (k.f 11 9)).toNat.testBit e then { r with got := r.got ++ [if zm then some 0 else none] }
  else
    let full := gsAddr k esz e
    let a := full % 2 ^ 48
    let stop (code : Nat) (s : State) : GsRun := { r with s := s, got := r.got ++ [none], bad := some (e, code, a) }
    if full / 2 ^ 48 ≠ 0 then stop 1 r.s
    else if a % z ≠ 0 then stop 3 r.s
    else if !mpuOk k.x (!gather) a z then stop 0 r.s
    else
      let u := decide (k.f 8 8 = 1)
      let near := r.near && decide (reachOf r.s k.c u a = .local_)
      if gather then
        match loadBytes r.s k.c u a z with
        | (s, .ok d) => { r with s := s, got := r.got ++ [some (ofLe d)], near := near }
        | (s, .error err) => stop (eCode err) s
      else
        match storeBytes r.s k.c u a ((leBytes z (vElem (eszType esz) (vReg k.x (k.f 25 21)) e)).map some) with
        | (s, .ok _) => { r with s := s, near := near }
        | (s, .error err) => stop (eCode err) s

/-- The bits of VD that the elements give. -/
def gotMask (t : Nat) (got : List (Option Nat)) : Vec × Vec :=
  (vOfElems t (got.map fun g => if g.isSome then 2 ^ tyWidth t - 1 else 0), vOfElems t (got.map (·.getD 0)))

/-- ERI (R508). -/
def setEri (c code index : Nat) (s : State) : State := modCore s c fun x => setCr x 0x1A (w32 (code * 2 ^ 16 + index))

/-- VGATHER and VSCATTER. -/
def opGs (gather : Bool) (k : OpCtx) (b : Bun) : Bun :=
  let t := eszType (k.f 7 6)
  let r := (List.range (tyN t)).foldl (gsElem k gather) ⟨b.s, [], true, none⟩
  let (m, v) := gotMask t r.got
  match r.bad with
  | some (e, code, a) =>
    let s := if gather then modCore r.s k.c fun x => { x with pend := x.pend ++ [⟨k.x.cyc, k.o.slot, .v (k.f 25 21) m v⟩] }
      else r.s
    faultWith (k.trap 8 0 a) { b with s := setEri k.c code e s }
  | none =>
    let b := { b with s := setEri k.c 0 0 r.s }
    if gather then toV k (if r.near then 5 else 7) (k.f 25 21) m v b else b

/-- VGATHER (R505). -/
def opVgather (k : OpCtx) (b : Bun) : Bun := opGs true k b

/-- VSCATTER (R505). -/
def opVscatter (k : OpCtx) (b : Bun) : Bun := opGs false k b

/-! ### Coprocessor (R518–R523, R531–R540) -/

/-- An MXOP reaches the MXC in its issue cycle: it is accepted with a fate, or refused with a cause. [DEDUCED, log 79] -/
def mxIssue (k : OpCtx) (fate : MxFate) (s : State) : State × Nat :=
  let (m, j) := mxcCtx s k.c
  let dp := k.f 18 16
  let w0 := dReg k.x (2 * dp)
  let w1 := dReg k.x (2 * dp + 1)
  let c := mxRefusal s m w0 w1
  if c ≠ 0 then (mxRefuse s m j c, c)
  else (mxAccept s m j (k.f 25 22) ((aReg k.x (k.f 21 19)).toNat % 2 ^ 48) w0 w1 fate, 0)

/-- MXOP (R534, R538, R539). [DEDUCED, log 73] -/
def opMxop (k : OpCtx) (b : Bun) : Bun :=
  let (s, c) := mxIssue k .commit (drainAll k.c b.s)
  if c = 0 then { b with s := s }
  else compWith (k.trap 1 2 k.o.word.toNat) { b with s := incCnt s (corePage k.c) 7 }

/-- The context of the issuing core. -/
def opMxCtx (k : OpCtx) (b : Bun) : MxCtx := (fun (m : Nat × Nat) => mxCtxOf b.s m.1 m.2) (mxcCtx b.s k.c)

/-- The value of MXSB. -/
def mxsbWord (c : MxCtx) : Word := w32 (c.err.toNat * 2 ^ 16 + c.busy.toNat)

/-- MXSB (R518, R521). -/
def opMxsb (k : OpCtx) (b : Bun) : Bun := toD k 2 (k.f 25 21) (mxsbWord (opMxCtx k b)) b

/-- MXSTAT (R518, R521). -/
def opMxstat (k : OpCtx) (b : Bun) : Bun := toD k 2 (k.f 25 21) (ctxInfo (opMxCtx k b)) b

/-- MXSAVE (R521, R522). [DEDUCED, log 78] -/
def opMxsave (k : OpCtx) (b : Bun) : Bun :=
  let ab := k.f 21 19
  let a := (aReg k.x ab).toNat % 2 ^ 48
  match addrTrap k true ab a 64 [(0, 64)] with
  | some t => faultWith t b
  | none =>
    let c := opMxCtx k b
    match storeBytes b.s k.c false a ((leBytes 4 (mxsbWord c).toNat ++ leBytes 4 (ctxInfo c).toNat ++
        List.replicate 56 0).map some) with
    | (s, .error e) => faultWith (k.loadTrap a e) { b with s := s }
    | (s, .ok _) => { b with s := s }

/-- MXRST (R521, R522). [DEDUCED, log 78] -/
def opMxrst (k : OpCtx) (b : Bun) : Bun :=
  let ab := k.f 21 19
  let a := (aReg k.x ab).toNat % 2 ^ 48
  match addrTrap k false ab a 64 [(0, 64)] with
  | some t => faultWith t b
  | none =>
    match loadBytes b.s k.c false a 64 with
    | (s, .error e) => faultWith (k.loadTrap a e) { b with s := s }
    | (s, .ok d) =>
      let (m, j) := mxcCtx s k.c
      { b with s := modCtx s m j fun c => { c with
          err := BitVec.ofNat 16 (bits (wordAt d 0) 31 16), refusal := bits (wordAt d 1) 31 28,
          error := bits (wordAt d 1) 23 16 } }

/-- MXCANCEL (R523). -/
def opMxcancel (k : OpCtx) (b : Bun) : Bun :=
  let (m, j) := mxcCtx b.s k.c
  { b with s := mxCancel m j (k.f 15 0) b.s }

end Sys2Proof.Machine
end

