-- ==== Sys2Proof/Machine/Bundle.lean ====
section
/-! DEFINITION. A bundle from its issue to its end (R424–R432, R458–R466): results that land, the fetch, the operations in
slot order, the trap it takes, the next bundle's address; how the commands of its slots make it up. -/

namespace Sys2Proof.Machine

/-- An operation of a bundle, by its opcode (R425, R485, R518). -/
def opDo (k : OpCtx) (b : Bun) : Bun :=
  match opcodeOf k.o with
  | 0x01 => opAlu k b
  | 0x02 => opAluImm k b
  | 0x03 => opMul k b
  | 0x04 => opLoad k b
  | 0x05 => opStore k b
  | 0x06 => opAddr k b
  | 0x07 => opLui k b
  | 0x08 => opBranch k b
  | 0x09 => opJump k b
  | 0x0A => opSys k b
  | 0x10 => opVld k b
  | 0x11 => opVst k b
  | 0x12 => opVgather k b
  | 0x13 => opVscatter k b
  | 0x14 => opVxfer k b
  | 0x15 => opValu k b
  | 0x16 => opValuScalar k b
  | 0x17 => opVmac k b
  | 0x18 => opVrnd k b
  | 0x19 => opVperm k b
  | 0x1A => opVcmp k b
  | 0x1B => opVpred k b
  | 0x1C => opVfp k b
  | 0x1D => opVred k b
  | 0x1F => opFtap k b
  | 0x20 => opMxop k b
  | 0x21 => opMxsb k b
  | 0x22 => opMxstat k b
  | 0x23 => opMxsave k b
  | 0x24 => opMxrst k b
  | 0x25 => opMxcancel k b
  | _ => b

/-- An operation with its traps; nothing once the bundle has faulted (R458). -/
def opRun (k : OpCtx) (b : Bun) : Bun :=
  if b.fault.isSome then b
  else match opTrap b.s k with
    | some t => faultWith t b
    | none => opDo k b

/-- A bundle that has done nothing. -/
def bun0 (s : State) : Bun := ⟨s, [], none, none, none, none, false, false⟩

/-- A bundle is an FWAIT that no record ends (R452). -/
def fwaits (x : CoreSt) (ops : List Staged) : Bool :=
  (ops.any fun o => decide (opcodeOf o = 0x0A) && decide (bits o.word 25 20 = 3) && decide (o.slot = 1)) && (waitingSlot x).isNone

/-- The operations of a bundle in slot order (R427). -/
def inSlotOrder (ops : List Staged) : List Staged :=
  (List.range 4).flatMap fun i => ops.filter fun o => o.slot = i

/-- The bundle counts as issued (R475, R477). [DESIGN CHOICE, log 6; DEDUCED, log 64] -/
def countIssue (c : Nat) (s : State) : State :=
  modCore (incCnt s (corePage c) 0) c fun x => { x with cyc := x.cyc + 1, total := x.total + 1, lastPc := x.pc }

/-- R458: a fault suppresses the bundle. What the faulting access alone finds, and the elements that a gather or scatter
completed (R507), stays; an MXOP of the bundle has reached the MXC and is to be squashed (R537). [DEDUCED, log 64] -/
def bundleFault (c : Nat) (x : CoreSt) (ops : List Staged) (t : TrapInfo) (s : State) : State :=
  let s := match ops.find? fun o => o.slot = t.slot with
    | none => s
    | some o =>
      let b := opRun ⟨c, x, ops, o⟩ (bun0 s)
      if b.fault.isSome then b.s else s
  let s := match ops.find? fun o => decide (opcodeOf o = 0x20) && !decide (o.slot = t.slot) with
    | none => s
    | some o => if (opTrap s ⟨c, x, ops, o⟩).isSome then s else (mxIssue ⟨c, x, ops, o⟩ .squash s).1
  takeTrap c x.pc t (countIssue c s)

/-- R445, R465: a lost line traps at the boundary; a write error too, where the bundle waits for its writes.
[DEDUCED, log 66] -/
def endTraps (sync : Bool) (c : Nat) (s : State) : State :=
  let x := coreOf s c
  if sync then boundaryTraps c s
  else if x.lost.isSome && !shbOf x then boundaryTraps c (setCore s c { x with werr := none }) |> fun t =>
    modCore t c fun y => { y with werr := x.werr }
  else s

/-- The next bundle's address and the delay bundles still due (R428). -/
def nextPc (x : CoreSt) (taken : Option Nat) (y : CoreSt) : CoreSt :=
  let seq := (x.pc + 16) % 2 ^ 48
  match taken with
  | some t => { y with pc := seq, bd := 2, bt := t }
  | none =>
    if x.bd = 0 then { y with pc := seq }
    else if x.bd = 1 then { y with pc := x.bt, bd := 0 }
    else { y with pc := seq, bd := x.bd - 1 }

/-- RTI (R459, R471): STATUS from ESTATUS, the main bank, EPC and the delay bundles that were due. -/
def rtiCore (y : CoreSt) : CoreSt :=
  let es := getCr y 2
  let y := { y with pc := crPair y 3, bd := bits es 28 27, bt := crPair y 5 }
  setCr y 1 (es &&& 0xA7000000)

/-- The core at the end of a bundle that has not faulted. [DEDUCED, log 64] -/
def bundleEnd (c : Nat) (x : CoreSt) (b : Bun) : State :=
  let s := countIssue c b.s
  let s := modCore s c fun y =>
    let y := { y with pend := y.pend ++ b.pend }
    match b.post with
    | some .rti => rtiCore y
    | some .wait => { nextPc x b.taken y with run := .wait }
    | none => if b.hold && !shbOf y then y else nextPc x b.taken y
  match b.comp with
  | some t => takeTrap c (coreOf s c).pc t s
  | none => endTraps b.sync c s

/-- A stepped bundle is over: the core halts again (R477). [DEDUCED, log 70] -/
def stepEnd (c : Nat) (stepped : Bool) (s : State) : State :=
  if stepped ∧ (coreOf s c).run ≠ .halted then haltCore (modCore s c fun x => { x with step := false }) c 3 else s

/-- The write buffer after a bundle: it drains where the core no longer runs, and where an MXOP follows the bundle's own
stores (R531). [DESIGN CHOICE, log 150] -/
def bufAfter (c : Nat) (ops : List Staged) (s : State) : State :=
  if (coreOf s c).run ≠ .running ∨ ops.any (fun o => decide (opcodeOf o = 0x20)) then drainAll c s else s

/-- A bundle is issued; as it is, an entry leaves the write buffer. [DESIGN CHOICE, log 57; DESIGN CHOICE, log 150] -/
def runBundle (c : Nat) (ops : List Staged) (s : State) : State :=
  let s := modCore (drainOne c s) c fun x => landBy (isS c) x x.cyc
  let x := coreOf s c
  let ops := inSlotOrder ops
  let (s, f) := fetchBundle c x.pc s
  match f with
  | some t => stepEnd c x.step (takeTrap c x.pc t s)
  | none =>
    if ops.any (·.parity) then haltCore (ownErr s (corePage c) 5 0x05 none) c 2
    else if fwaits x ops ∧ (ops.all fun o => (opTrap s ⟨c, x, ops, o⟩).isNone) then
      bufAfter c [] (if enabled s (corePage c) then modCore s c fun y => { y with run := .fwait, staged := ops }
        else modCore s c fun y => { y with run := .stopped, staged := [] })
    else
      let s := modCore s c fun y => { y with run := .running, staged := [] }
      let b := ops.foldl (fun b o => opRun ⟨c, x, ops, o⟩ b) (bun0 s)
      stepEnd c x.step (bufAfter c ops (match b.fault with
        | some t => bundleFault c x ops t s
        | none => bundleEnd c x b))

/-- NOP bundles (R424), while the core runs on. [DEDUCED, log 68] -/
def nopBundles (c : Nat) : Nat → State → State
  | 0, s => s
  | n + 1, s =>
    let ops := (coreOf s c).staged
    let t := runBundle c [] s
    if (coreOf t c).run = .running ∧ (coreOf t c).pc = (nextPc (coreOf s c) none (coreOf s c)).pc then
      nopBundles c n (modCore t c fun x => { x with staged := ops })
    else t

/-- Stall cycles pass (R429); in each an entry leaves the write buffer. [DESIGN CHOICE, log 150] -/
def stallFor (c n : Nat) (s : State) : State :=
  (List.range (min n 8)).foldl (fun s _ => drainOne c s)
    (modCore (addCnt s (corePage c) 1 n) c fun x => { x with total := x.total + n })

/-- A slot word joins the bundle that is being made up; the last one issues it. [DESIGN CHOICE, log 57] -/
def issueSt (i : Issue) (word : Word) (s : State) : State :=
  let before := s
  let c := i.core.val
  let x := coreOf s c
  if x.run ≠ .running ∨ !blockRuns s (corePage c) then s
  else
    let ops := (x.staged.filter fun o => !decide (o.slot = i.slot.val)) ++ [⟨i.slot, word, i.parity⟩]
    let s := setCore s c { x with staged := ops }
    if !i.last then s
    else
      let s := nopBundles c i.nops s
      let ops := (coreOf s c).staged
      if ops = [] ∨ (coreOf s c).run ≠ .running then s
      else dramHold before (runBundle c ops (strikeLine (stallFor c i.stall s) c i.strike))

/-- The slot word of an opcode. [DESIGN CHOICE, log 57] -/
def slotWord (op : Nat) (w : Word26) : Word := w32 (op * 2 ^ 26 + w.toNat)

/-- The slot word of a system function. [DESIGN CHOICE, log 57] -/
def sysWord (fn : Nat) (w : Word20) : Word := w32 (0x0A * 2 ^ 26 + fn * 2 ^ 20 + w.toNat)

end Sys2Proof.Machine
end

