-- ==== Sys2Proof/Machine/Erdom.lean ====
section
/-! DEFINITION. The commands of an Erdom core: the scalar and system instructions (R425–R459), interrupts (R468, R469),
write errors (R445), fire records (R451) and debug (R477). -/

namespace Sys2Proof.Machine

/-- The priority of an interrupt line of a core (R475). -/
def linePri (x : CoreSt) (n : Nat) : Nat := bits (getCr x (0x10 + n / 8)) (4 * (n % 8) + 2) (4 * (n % 8))

/-- Line `n` of a core may be taken (R468). -/
def lineTakes (s : State) (c : Nat) (x : CoreSt) (n : Nat) : Bool :=
  bit (readCr s c x 0x0D) n && bit (getCr x 0x0C) n && decide (bits (getCr x 1) 26 24 < linePri x n) && bit (getCr x 1) 29 &&
    !shbOf x && decide (x.bd = 0)

/-- The line that wins: the highest priority, then the lowest number (R468). -/
def lineWins (s : State) (c : Nat) (x : CoreSt) (n : Nat) : Bool :=
  lineTakes s c x n && (List.range 32).all fun j =>
    !lineTakes s c x j || decide (linePri x j < linePri x n) || (decide (linePri x j = linePri x n) && decide (n ≤ j))

/-- INTERRUPT_ENTRY (R469): at a bundle boundary, or from FWAIT or WAIT. [DEDUCED, log 74] -/
def interruptSt (c n : Nat) (s : State) : State :=
  let y := landBy (isS c) (coreOf s c) (coreOf s c).cyc
  let ok := match y.run with
    | .running => y.staged.isEmpty
    | .fwait => true
    | .wait => true
    | _ => false
  if !ok || !lineWins s c y n || !blockRuns s (corePage c) then s
  else
    let s := incCnt s (corePage c) 5
    enterHandler c y.pc (0x20 + n) (0x20 + n) (some (linePri y n)) s

/-- ASYNC_WERR (R445): a pending write error traps at a bundle boundary. -/
def asyncWerrSt (c : Nat) (s : State) : State :=
  let x := coreOf s c
  if !blockRuns s (corePage c) then s
  else match x.run with
  | .running => if x.staged.isEmpty ∧ x.werr.isSome then boundaryTraps c s else s
  | .fwait => if x.werr.isSome then boundaryTraps c s else s
  | .wait => if x.werr.isSome then boundaryTraps c s else s
  | _ => s

/-- FIRE_RECORD_ARRIVAL (R451, R452): a record that has reached the core goes into a free slot; a core in FWAIT takes it up.
[DEDUCED, log 75] -/
def fireArrivalSt (c : Nat) (f : FireRec) (s : State) : State :=
  if memberPage s f.pool.toNat f.member.toNat ≠ some (corePage c) ∨ !s.arrived.contains f ∨ !pageClock s (corePage c) then s
  else if !enabled s (corePage c) then failFire (takeArrived s f) (corePage c) f 0x04
  else if (coreOf s c).run = .halted then failFire (takeArrived s f) (corePage c) f 0x10
  else
    match placeFire (takeArrived s f) c f with
    | (_, false) => s
    | (t, true) =>
      let x := coreOf t c
      if x.run = .fwait then runBundle c x.staged t else t

/-- ALU (R425). -/
def execAlu (i : Issue) (w : Word26) (s : State) : Host.Outcome State Fault Refusal := .next (issueSt i (slotWord 0x01 w) s)

/-- ALU_IMMEDIATE (R425). -/
def execAluImmediate (i : Issue) (w : Word26) (s : State) : Host.Outcome State Fault Refusal := .next (issueSt i (slotWord 0x02 w) s)

/-- MULTIPLY (R428). -/
def execMultiply (i : Issue) (w : Word26) (s : State) : Host.Outcome State Fault Refusal := .next (issueSt i (slotWord 0x03 w) s)

/-- SCALAR_LOAD (R434). -/
def execScalarLoad (i : Issue) (w : Word26) (s : State) : Host.Outcome State Fault Refusal := .next (issueSt i (slotWord 0x04 w) s)

/-- SCALAR_STORE (R434). -/
def execScalarStore (i : Issue) (w : Word26) (s : State) : Host.Outcome State Fault Refusal := .next (issueSt i (slotWord 0x05 w) s)

/-- ADDRESS_ARITHMETIC (R425). -/
def execAddressArithmetic (i : Issue) (w : Word26) (s : State) : Host.Outcome State Fault Refusal := .next (issueSt i (slotWord 0x06 w) s)

/-- LOAD_UPPER_IMMEDIATE (R425). -/
def execLoadUpperImmediate (i : Issue) (w : Word26) (s : State) : Host.Outcome State Fault Refusal := .next (issueSt i (slotWord 0x07 w) s)

/-- CONDITIONAL_BRANCH (R431). -/
def execConditionalBranch (i : Issue) (w : Word26) (s : State) : Host.Outcome State Fault Refusal := .next (issueSt i (slotWord 0x08 w) s)

/-- JUMP (R428). -/
def execJump (i : Issue) (w : Word26) (s : State) : Host.Outcome State Fault Refusal := .next (issueSt i (slotWord 0x09 w) s)

/-- TSEND (R448). -/
def execTsend (i : Issue) (w : Word20) (s : State) : Host.Outcome State Fault Refusal := .next (issueSt i (sysWord 0x01 w) s)

/-- TDONE (R453). -/
def execTdone (i : Issue) (w : Word20) (s : State) : Host.Outcome State Fault Refusal := .next (issueSt i (sysWord 0x02 w) s)

/-- FWAIT (R452). -/
def execFwait (i : Issue) (w : Word20) (s : State) : Host.Outcome State Fault Refusal := .next (issueSt i (sysWord 0x03 w) s)

/-- FLUSH (R443). -/
def execFlush (i : Issue) (w : Word20) (s : State) : Host.Outcome State Fault Refusal := .next (issueSt i (sysWord 0x04 w) s)

/-- INVAL (R443). -/
def execInval (i : Issue) (w : Word20) (s : State) : Host.Outcome State Fault Refusal := .next (issueSt i (sysWord 0x05 w) s)

/-- FLINV (R443). -/
def execFlinv (i : Issue) (w : Word20) (s : State) : Host.Outcome State Fault Refusal := .next (issueSt i (sysWord 0x06 w) s)

/-- FENCE (R444). -/
def execFence (i : Issue) (w : Word20) (s : State) : Host.Outcome State Fault Refusal := .next (issueSt i (sysWord 0x07 w) s)

/-- ISYNC (R446). -/
def execIsync (i : Issue) (w : Word20) (s : State) : Host.Outcome State Fault Refusal := .next (issueSt i (sysWord 0x08 w) s)

/-- MFC (R456). -/
def execMfc (i : Issue) (w : Word20) (s : State) : Host.Outcome State Fault Refusal := .next (issueSt i (sysWord 0x09 w) s)

/-- MTC (R456). -/
def execMtc (i : Issue) (w : Word20) (s : State) : Host.Outcome State Fault Refusal := .next (issueSt i (sysWord 0x0A w) s)

/-- RTI (R459). -/
def execRti (i : Issue) (w : Word20) (s : State) : Host.Outcome State Fault Refusal := .next (issueSt i (sysWord 0x0B w) s)

/-- ISAVE (R471). -/
def execIsave (i : Issue) (w : Word20) (s : State) : Host.Outcome State Fault Refusal := .next (issueSt i (sysWord 0x0C w) s)

/-- IRESTORE (R471). -/
def execIrestore (i : Issue) (w : Word20) (s : State) : Host.Outcome State Fault Refusal := .next (issueSt i (sysWord 0x0D w) s)

/-- TRAP (R458). -/
def execTrap (i : Issue) (w : Word20) (s : State) : Host.Outcome State Fault Refusal := .next (issueSt i (sysWord 0x0E w) s)

/-- WAIT (R447). -/
def execWait (i : Issue) (w : Word20) (s : State) : Host.Outcome State Fault Refusal := .next (issueSt i (sysWord 0x0F w) s)

/-- INTERRUPT_ENTRY (R469). -/
def execInterruptEntry (c : Fin 152) (n : Fin 32) (s : State) : Host.Outcome State Fault Refusal := .next (interruptSt c n s)

/-- ASYNC_WERR (R445). [DEDUCED, log 66] -/
def execAsyncWerr (c : Fin 152) (s : State) : Host.Outcome State Fault Refusal := .next (asyncWerrSt c s)

/-- FIRE_RECORD_ARRIVAL (R451). -/
def execFireRecordArrival (c : Fin 152) (f : FireRec) (s : State) : Host.Outcome State Fault Refusal :=
  .next (fireArrivalSt c f s)

/-- DBG_HALT_REQ (R477). -/
def execDbgHaltReq (a : Acc) (c : Fin 152) (s : State) : Host.Outcome State Fault Refusal :=
  .next (toPage a (corePage c) 0x110 (dbgHaltSt c) s)

/-- DBG_STEP (R477). -/
def execDbgStep (a : Acc) (c : Fin 152) (s : State) : Host.Outcome State Fault Refusal :=
  .next (toPage a (corePage c) 0x110 (dbgStepSt c) s)

end Sys2Proof.Machine
end

