-- ==== Sys2Proof/Machine/Pages.lean ====
section
/-! DEFINITION. The commands of the register pages: writes and reads, enable and soft reset (R53–R58), the leak of the
correctable-error buckets (R69), snapshots (R85–R89). -/

namespace Sys2Proof.Machine

/-- A page copies its counters (R86, R87). -/
def snapPage (q : Nat) (s : State) (p : Nat) : State :=
  if pageOn s p then
    setReg ((List.range (snapCount p)).foldl (fun s i => setReg s p (0x80 + 4 * i) (getCnt s p i)) s) p 0x40 (w32 q)
  else s

/-- The copy tick of the first snapshot that waits for it: 1,000 ns after its trigger (R86, R89, R733). -/
def snapCopySt (s : State) : State :=
  match s.time.snaps.find? fun x => !x.copied && decide (1000 ≤ nsSince s x.at_) with
  | none => s
  | some x =>
    let s := modTime s fun t => { t with snaps := t.snaps.map fun y => if y = x then { y with copied := true } else y }
    let s := headerPages.foldl (snapPage x.seq) s
    if pageOn s 0x009 then tmSnap s else s

/-- DEVINFO.SNAP_SEQ takes the number of the first snapshot copied, 1,256 ns after its trigger (R88). -/
def snapSeqSt (s : State) : State :=
  match s.time.snaps.find? fun x => x.copied && decide (1256 ≤ nsSince s x.at_) with
  | none => s
  | some x =>
    let s := modTime s fun t => { t with snaps := t.snaps.filter fun y => !decide (y = x) }
    statsAnswers x.seq (setReg s 0x000 0x118 (w32 x.seq))

/-- REG_WRITE (R12, R13, R65). -/
def execRegWrite (a : Acc) (p r : Fin 1024) (w : WriteVal) (s : State) : Host.Outcome State Fault Refusal :=
  .next (coincide p (4 * r) w.hw (regWriteSt a p (4 * r) w.v s))

/-- RC_READ (R12, R14). -/
def execRcRead (a : Acc) (p : Fin 1024) (r : ReadReg) (s : State) : Host.Outcome State Fault Refusal :=
  .next (rcCoincide p (4 * r.r) r.hw (regReadSt a p (4 * r.r) s))

/-- LO_READ (R73). -/
def execLoRead (a : Acc) (p r : Fin 1024) (s : State) : Host.Outcome State Fault Refusal := .next (regReadSt a p (4 * r) s)

/-- LO_WRITE (R77). -/
def execLoWrite (a : Acc) (p r : Fin 1024) (v : Word) (s : State) : Host.Outcome State Fault Refusal :=
  .next (regWriteSt a p (4 * r) v s)

/-- HI_WRITE (R77, R78). -/
def execHiWrite (a : Acc) (p r : Fin 1024) (v : Word) (s : State) : Host.Outcome State Fault Refusal :=
  .next (regWriteSt a p (4 * r) v s)

/-- CTRL_ENABLE_SET (R57). -/
def execCtrlEnableSet (a : Acc) (p : Fin 512) (s : State) : Host.Outcome State Fault Refusal :=
  .next (toPage a p 0x08 (enableSt p) s)

/-- CTRL_ENABLE_CLEAR (R55). -/
def execCtrlEnableClear (a : Acc) (p : Fin 512) (s : State) : Host.Outcome State Fault Refusal :=
  .next (toPage a p 0x08 (disableSt p) s)

/-- SOFT_RESET (R58). -/
def execSoftReset (a : Acc) (p : Fin 512) (s : State) : Host.Outcome State Fault Refusal :=
  .next (toPage a p 0x08 (softResetSt p) s)

/-- SOFT_RESET_DONE (R885). -/
def execSoftResetDone (p : Fin 512) (s : State) : Host.Outcome State Fault Refusal := .next (softDoneSt p s)

/-- CE_LEAK (R69, R70). -/
def execCeLeak (s : State) : Host.Outcome State Fault Refusal := .next (leakSt s)

/-- SNAPSHOT_COPY (R86). [DESIGN CHOICE, log 2] -/
def execSnapshotCopy (s : State) : Host.Outcome State Fault Refusal := .next (snapCopySt s)

/-- SNAP_SEQ_UPDATE (R88). -/
def execSnapSeqUpdate (s : State) : Host.Outcome State Fault Refusal := .next (snapSeqSt s)

end Sys2Proof.Machine
end

