-- ==== Sys2Proof/Machine/Samples.lean ====
section
/-! DEFINITION. The sample path, lane sample by lane sample (R157–R159, R164, R167, R170, R183–R200, R211–R220): from the
lanes' octets through the receive chains to the carrier streams, and from the OFDM blocks' transmit symbols through the
transmit chains to the lanes' octets. -/

namespace Sys2Proof.Machine

/-! ### The filters that the spec leaves to the device (R191) -/

/-- The power gain of a filter at frequency `a / n` of the rate that it runs at. -/
def gainAt (h : List Rat) (a : Int) (n : Nat) : Rat :=
  (Cx.sum (h.zipIdx.map fun (r, i) => (turn (a * i % n).toNat n).scale r)).normSq

/-- The power gain of `d` half-band stages and, where `fr` says, the resampler, at frequency `a / n` of the carrier rate. -/
def chainGain (d : Nat) (fr : Bool) (a : Int) (n : Nat) : Rat :=
  (if fr then gainAt Config.resampler a (4 * n) else 1) *
    ((List.range d).map fun r =>
      if fr then gainAt (Config.halfBand r) (3 * a) (n * 2 ^ (r + 3)) else gainAt (Config.halfBand r) a (n * 2 ^ (r + 1))).prod

/-- A gain within `t` dB of 1. -/
def within (t g : Rat) : Prop := 0 < g ∧ -t ≤ dB g ∧ dB g ≤ t

/-- A gain of at most `t` dB. -/
def below (t g : Rat) : Prop := g ≤ 0 ∨ dB g ≤ t

/-- R191: the figures that bound the free filters of the rate-change stages, at every frequency `a / n` of the carrier's passband.
The NCO of the model rotates exactly. -/
def rateFigures : Prop :=
  ∀ (a : Int) (n : Nat), 0 < n → 5 * a.natAbs ≤ 2 * n →
    (∀ r < 8, within (5 / 1000) (gainAt (Config.halfBand r) a (n * 2 ^ (r + 1))) ∧
      below (-90) (gainAt (Config.halfBand r) (a + (n * 2 ^ r : Nat)) (n * 2 ^ (r + 1)))) ∧
    within (10 / 1000) (gainAt Config.resampler a (4 * n)) ∧
    (∀ m : Int, (m % 4 ≠ 0 → below (-85) (gainAt Config.resampler (a + m * n) (4 * n))) ∧
      (m % 3 ≠ 0 → below (-85) (gainAt Config.resampler (3 * a + 4 * m * n) (12 * n)))) ∧
    (∀ d ≤ 8, ∀ m : Int, m % (2 ^ d : Nat) ≠ 0 →
      below (-85) (chainGain d false (a + m * n) n) ∧ below (-85) (chainGain d true (3 * a + 4 * m * n) (3 * n))) ∧
    ∀ d ≤ 8, ∀ fr : Bool, within (3 / 100) (chainGain d fr a n)

/-! ### From the lanes (R158, R159, R164, R167) -/

/-- The multiblock octets that are released for lane sample `n` of a quad: frame, sample of the frame. -/
def frameAt (s : State) (q : Nat) (p : Pset) (n : Int) : Nat × Nat :=
  let j := ((n - bits (getReg s (quadPage q) 0x10C) 8 0) % lemcPeriod s q).toNat
  (j / p.s, j % p.s)

/-- Lane and octet of converter `c`'s sample `t` in frame `fr`, byte `b`, high byte first: the frame's samples in converter
order, F octets to a lane (R159). [PRESUMED, log 142] -/
def octetAt (p : Pset) (fr c t b : Nat) : Nat × Nat :=
  let o := (c * p.s + t) * 2 + b
  (o / p.f, fr * p.f + o % p.f)

/-- The lanes that carry stream slot `sl` (R159, R175). -/
def slotLanes (p : Pset) (sl : Nat) : List Nat :=
  [2 * sl, 2 * sl + 1].flatMap fun c => (List.range p.s).flatMap fun t => (List.range 2).map fun b => (octetAt p 0 c t b).1

/-- The lane sample of stream slot `sl` of quad `q` (R158, R159): 0 for a slot that no link carries (R164) and on a lane that
is down (R175); a free value where the spec calls it wrong (R168, R174). -/
def laneInput (s : State) (q sl : Nat) : Word :=
  let x := linkOf s q
  match quadPset s q with
  | none => 0
  | some p =>
    let lanes := slotLanes p sl
    let cur (l : Nat) : Option (List Byte) := (x.cur[l]?).getD none
    if x.st ≠ 4 ∨ !rxEn s q ∨ p.streams ≤ sl ∨ lanes.any (x.down.getLsbD ·) then 0
    else if lanes.any (fun l => (cur l).isNone) || decide (laneAbs s (q / 8) < (lemcOf s (q / 8)).wrongTo) then
      Config.wrongSample q sl (laneAbs s (q / 8))
    else
      let (fr, t) := frameAt s q p (laneNo s (q / 8))
      let part (c : Nat) : Nat :=
        ((List.range 2).map fun b =>
          let (l, o) := octetAt p fr c t b
          2 ^ (8 * (1 - b)) * ((((cur l).getD [])[o]?).getD 0).toNat).sum
      w32 (part (2 * sl) + 2 ^ 16 * part (2 * sl + 1))

/-! ### Stages of both directions -/

/-- A chain's saturations of one sample (R220). -/
def countSat (k c : Nat) (rx : Bool) (n : Nat) (s : State) : State :=
  if n = 0 then s
  else
    let p := dfePage k
    let s := setCh s k 0x1DC c 0 (w32 (satAdd 0xFFFF (bits (chainReg s k 0x1DC c 0) 15 0) n))
    setEvt (addCnt s p (if rx then 4 else 5) n) p (if rx then 2 else 3)

/-- IQ correction (R215). -/
def iqCorrect (w : Word) (x : Cx) : Cx :=
  let g : Rat := (signed 16 (bits w 15 0) : Rat) / (2 ^ 14 : Nat)
  let c : Rat := (signed 16 (bits w 31 16) : Rat) / (2 ^ 15 : Nat)
  ⟨x.re, g * x.im + c * x.re⟩

/-- Gain and phase (R215). -/
def gainPhase (gain phase : Word) (x : Cx) : Cx :=
  (x.mul (turn (bits phase 15 0) 65536)).scale ((signed 16 (bits gain 15 0) : Rat) / (2 ^ 14 : Nat))

/-- Integer and fractional delay from a line whose newest sample comes first (R215, R216). -/
def delayed (w : Word) (line : List (Rat × Rat)) : Cx :=
  let frac := bits w 11 0
  let h := if frac = 0 then [1] else Config.fracDelay frac
  Cx.sum (List.zipWith (fun r x => (⟨x.1, x.2⟩ : Cx).scale r) h (line.drop (bits w 17 12)))

/-- A channel-filter coefficient in Q1.17; 0x1FFFF stands for the 1.0 that makes the filter transparent (R192).
[DESIGN CHOICE, log 40] -/
def coefVal (w : Word) : Rat := if w = 0x1FFFF then 1 else (signed 18 (bits w 17 0) : Rat) / (2 ^ 17 : Nat)

/-- The 47 taps of a channel filter (R192). -/
def firTaps (coefs : List Word) : List Rat :=
  let c := (coefs.take 24).map coefVal
  c ++ (c.take 23).reverse

/-- DIV_LOG2 of a CS_CONF value (R186). -/
def divLog (conf : Word) : Nat := min 8 (bits conf 3 0)

/-- PA group `g` of a DFE is inside its transmit interval, at the lane. [DEDUCED, log 37] -/
def groupOn (s : State) (k g : Nat) : Bool := envActive (envOf (dfeOf s k) g)

/-- The value of a raised-cosine ramp (R200) at the present sample. -/
def envValue (e : EnvSt) (now : Int) : Rat :=
  match e.ramp with
  | some r =>
    let w := (1 - (turn (rampFrac r now).toNat (2 ^ 33)).re) / 2
    if r.up then w else 1 - w
  | none => if e.high then 1 else 0

/-! ### Receive chains -/

/-- The resampler by 3/4. -/
def resDown (n : Int) (x : Int × Int) (buf : List (Int × Int)) : List (Int × Int) × Option (Int × Int) × Nat :=
  let h := Config.resampler
  let buf := (x :: buf).take (max 1 h.length)
  let i := (n % 4).toNat
  if i = 3 then (buf, none, 0)
  else
    let (y, k) := toQ317 ((firSum (phaseTaps h 3 i) buf).scale 3)
    (buf, some y, k)

/-- A carrier channel's receive stages for one sample (R183 steps 7 and 8): the state of its stages, the carrier sample where
one comes out, the saturations. -/
def ddc (conf freq : Word) (taps : List Word) (n : Int) (x : Int × Int) (st : List (List (Int × Int))) :
    List (List (Int × Int)) × Option Word × Nat :=
  let d := divLog conf
  let (x, k0) := toQ317 ((ofQ317 x).mul (ncoTurn freq n).conj).snap
  let (hb, o, k1) := halfDown d n x (st.take d)
  let res := (st.drop d).headD []
  let fir := (st.drop (d + 1)).headD []
  let (res, o, k2) := match o with
    | none => (res, none, 0)
    | some (m, y) => if bit conf 4 then resDown m y res else (res, some y, 0)
  match o with
  | none => (hb ++ [res, fir], none, k0 + k1 + k2)
  | some y =>
    let fir := (y :: fir).take 47
    let (z, k3) := toQ317 (firSum (firTaps taps) fir)
    let (w, k4) := toQ115 ((ofQ317 z).scale (pow2 (bits conf 10 8)))
    (hb ++ [res, fir], some w, k0 + k1 + k2 + k3 + k4)

/-- The carrier channels of a receive chain take one step 7 sample; `i` is the position that gives the slots (R385). -/
def rxChans (s : State) (k i : Nat) (x : Int × Int) (ch : KMap ChanSt) : KMap ChanSt × Nat :=
  ((List.range 16).filter fun cs => (csDir s k cs).testBit 0 && (csChains s k cs).testBit i).foldl (fun (m, sat) cs =>
    let c := kget ChanSt.init m cs
    let (st, o, n) := ddc (csConf s k cs) (getRegI s (dfePage k) 0x210 cs) (csTaps s k cs) (laneNo s k) x c.stages
    let strm := match o with
      | some w => if (dfeOf s k).rxOn.getLsbD cs then (rxStreamTime s k cs, w) :: c.strm else c.strm
      | none => c.strm
    (kset ChanSt.init m cs ⟨st, strm⟩, sat + n)) (ch, 0)

/-- One lane sample of receive chain `c` (R183), which processes stream position `i`: its own, or its SOURCE's, whose slot
membership, OBS_EN and OBS_GROUP it takes (R385). With EN clear its output is 0 (R217). -/
def rxChain (k c i : Nat) (s : State) : State :=
  let x := chainOf s k c
  let raw := laneInput s (8 * k + i / 8) (i % 8)
  let dc := chActive s k c 0x1D4
  let (y, k0) := toQ115 (iqCorrect (chActive s k c 0x1D0) ((cxOfWord 15 raw).sub (cxOfWord 15 dc)))
  let line := ((cxOfWord 15 y).re, (cxOfWord 15 y).im) :: x.line
  let (z, k1) := toQ317 (gainPhase (chActive s k c 0x1C4) (chActive s k c 0x1C8) (delayed (chActive s k c 0x1CC) line)).snap
  let z := if bit (chActive s k c 0x1C0) 0 then z else (0, 0)
  let src := chActive s k i 0x1C0
  let obs := bit src 1 && groupOn s k (bits src 19 16)
  let (ch, k2) := rxChans s k i (if obs then (0, 0) else z) x.chans
  countSat k c true (k0 + k1 + k2)
    (setChain s k c ⟨⟨laneNo s k, devTime s, raw, z, obs⟩ :: x.log, line, ch, x.cfr⟩)

/-! ### Transmit chains -/

/-- The sample that the OFDM block supplies to a slot of a chain position now (R241): 0 where no symbol covers it. -/
def txSource (s : State) (k i cs : Nat) : Word :=
  let t := txStreamTime s k cs
  let idx (y : TxSym) : Int := (t - y.at_) * y.rate / (1000000 * 2 ^ 32 : Nat)
  match (ofdmOf s k).tx.find? fun y => y.chain = i ∧ y.slot = cs ∧ y.at_ ≤ t ∧ idx y < y.xs.length with
  | some y => (y.xs[(idx y).toNat]?).getD 0
  | none => 0

/-- CS_TX_GAIN in force on a quad (R189). -/
def txGain (s : State) (k cs q : Nat) : Word := kget 0x2000 (dfeOf s k).gain (cs * 8 + q)

/-- The resampler by 4/3: it takes an input but for output numbers 1 modulo 4. -/
def resUp (n : Int) (next : List (List (Int × Int)) → List (List (Int × Int)) × (Int × Int) × Nat)
    (st : List (List (Int × Int))) : List (List (Int × Int)) × (Int × Int) × Nat :=
  let h := Config.resampler
  let (rest, buf, k) :=
    if n % 4 = 1 then (st.tail, st.headD [], 0)
    else
      let (rest, x, k) := next st.tail
      (rest, (x :: st.headD []).take (max 1 h.length), k)
  let (y, k') := toQ317 ((firSum (phaseTaps h 4 ((3 * n) % 4).toNat) buf).scale 4)
  (buf :: rest, y, k + k')

/-- `r` half-band stages of interpolation above what `next` supplies. -/
def halfUp : Nat → Int → (Int → List (List (Int × Int)) → List (List (Int × Int)) × (Int × Int) × Nat) →
    List (List (Int × Int)) → List (List (Int × Int)) × (Int × Int) × Nat
  | 0, n, next, st => next n st
  | r + 1, n, next, st =>
    let h := Config.halfBand r
    let (rest, buf, k) :=
      if n % 2 ≠ 0 then (st.tail, st.headD [], 0)
      else
        let (rest, x, k) := halfUp r (n / 2) next st.tail
        (rest, (x :: st.headD []).take (max 1 h.length), k)
    let (y, k') := toQ317 ((firSum (phaseTaps h 2 (n % 2).toNat) buf).scale 2)
    (buf :: rest, y, k + k')

/-- A carrier channel's transmit stages for one lane sample (R183 steps 2 and 3): `w` is the OFDM block's sample. -/
def duc (conf freq gain : Word) (taps : List Word) (n : Int) (w : Word) (st : List (List (Int × Int))) :
    List (List (Int × Int)) × (Int × Int) × Nat :=
  let carrier (st : List (List (Int × Int))) : List (List (Int × Int)) × (Int × Int) × Nat :=
    let (x, k0) := toQ317 ((cxOfWord 15 w).scale ((signed 16 (bits gain 15 0) : Rat) / (2 ^ 13 : Nat)))
    let fir := (x :: st.headD []).take 47
    let (y, k1) := toQ317 (firSum (firTaps taps) fir)
    ([fir], y, k0 + k1)
  let low (m : Int) (st : List (List (Int × Int))) := if bit conf 4 then resUp m carrier st else carrier st
  let (st, y, k) := halfUp (divLog conf) n low st
  let (z, k') := toQ317 ((ofQ317 y).mul (ncoTurn freq n)).snap
  (st, z, k + k')

/-- The carriers of a transmit chain, each with its carrier ramp, summed (R183 steps 1–5); `i` is the position that gives the
slots. -/
def txCarriers (s : State) (k i : Nat) (ch : KMap ChanSt) : KMap ChanSt × (Int × Int) × Nat :=
  let now := txPlane s k
  let on := (List.range 16).filter fun cs =>
    (csDir s k cs).testBit 1 && (csChains s k cs).testBit i && envActive (txOf (dfeOf s k) cs)
  let (m, sum, sat) := on.foldl (fun (m, sum, sat) cs =>
    let c := kget ChanSt.init ch cs
    let (st, y, n) := duc (csConf s k cs) (getRegI s (dfePage k) 0x210 cs) (txGain s k cs (i / 8)) (csTaps s k cs)
      (laneNo s k) (txSource s k i cs) c.stages
    (kset ChanSt.init m cs ⟨st, []⟩, Cx.add sum ((ofQ317 y).scale (envValue (txOf (dfeOf s k) cs) now)), sat + n))
    (([] : KMap ChanSt), Cx.zero, 0)
  let (y, n) := toQ317 sum.snap
  (m, y, sat + n)

/-- The cancellation pulse of a chain position (R196, R198): 1 at its centre. -/
def pulseAt (s : State) (k i : Nat) (j : Int) : Cx :=
  if j = 0 then ⟨1, 0⟩
  else
    let (a, b) := Config.cfrPulse
      (((dfeOf s k).pulse.filter fun t => (csChains s k t.slot).testBit i).map fun t => (t.freq, t.conf, t.taps)) j
    ⟨a, b⟩

/-- One stage of crest-factor reduction (R196, R197): a local maximum of the magnitude above `thr` brings a scaled pulse,
unless eight peaks have been cancelled in the window of 256 samples that it ends. The output lags by the pulse's reach and
one sample. The state, the output, the saturations, the peaks cancelled. -/
def cfrStage (en : Bool) (thr : Rat) (pulse : Int → Cx) (n : Int) (x : Int × Int) (c : CfrSt) :
    CfrSt × (Int × Int) × Nat × Nat :=
  let reach := Config.cfrReach
  let buf := (x :: c.buf).take (reach + 3)
  let mag (i : Nat) : Rat := (ofQ317 ((buf[i]?).getD (0, 0))).normSq
  let peak := en && decide (thr * thr < mag 1 ∧ mag 2 < mag 1 ∧ mag 0 ≤ mag 1) &&
    decide ((c.peaks.filter fun p => n - 1 - p.1 < 256).length < 8)
  let v := (ofQ317 ((buf[1]?).getD (0, 0)))
  let sub := (v.scale (1 - qdiv thr (sqrtQ (mag 1)))).snap
  let peaks := (if peak then [(n - 1, sub.re, sub.im)] else []) ++
    c.peaks.filter fun p => decide (n - p.1 ≤ max 256 (2 * reach + 2 : Nat))
  let q := n - (reach + 1 : Nat)
  let cut := Cx.sum ((peaks.filter fun p => (q - p.1).natAbs ≤ reach).map fun p => (⟨p.2.1, p.2.2⟩ : Cx).mul (pulse (q - p.1)))
  let (y, k) := toQ317 ((ofQ317 ((buf[reach + 1]?).getD (0, 0))).sub cut).snap
  (⟨buf, peaks⟩, y, k, if peak then 1 else 0)

/-- R197: a magnitude above CFR_CLIP is brought to it, keeping its phase. -/
def cfrClip (lim : Rat) (x : Int × Int) : (Int × Int) × Bool :=
  let m := (ofQ317 x).normSq
  if lim * lim < m then ((toQ317 ((ofQ317 x).scale (qdiv lim (sqrtQ m))).snap).1, true) else (x, false)

/-- The crest-factor reduction of a chain (R196, R197): the stages' state, the output, saturations, peaks cancelled, samples
clipped. With EN clear the samples pass unchanged. -/
def cfr (s : State) (k i : Nat) (x : Int × Int) (st : List CfrSt) : List CfrSt × (Int × Int) × Nat × Nat × Nat :=
  let p := dfePage k
  let ctl := getReg s p 0x110
  let thr : Rat := (bits (getReg s p 0x114) 15 0 : Rat) / (2 ^ 15 : Nat)
  let lim : Rat := (bits (getReg s p 0x118) 15 0 : Rat) / (2 ^ 15 : Nat)
  let stage (j : Nat) : CfrSt := (st[j]?).getD ⟨[], []⟩
  let (a, y, s0, p0) := cfrStage (bit ctl 0) thr (pulseAt s k i) (laneNo s k) x (stage 0)
  let (b, z, s1, p1) := cfrStage (bit ctl 0 && bits ctl 2 1 ≠ 1) thr (pulseAt s k i) (laneNo s k) y (stage 1)
  let (w, hit) := if bit ctl 0 then cfrClip lim z else (z, false)
  ([a, b], w, s0 + s1, p0 + p1, if hit then 1 else 0)

/-- One lane sample of transmit chain `c` (R183), which processes position `i` of TXS: its own or its SOURCE's. With EN clear
it frames 0 (R217). -/
def txChain (k c i : Nat) (s : State) : State :=
  let p := dfePage k
  let x := chainOf s k c
  let (ch, y, k0) := txCarriers s k i x.chans
  let (cf, y, k1, peaks, clips) := cfr s k i y x.cfr
  let (z, k2) := toQ317 ((ofQ317 y).scale (envValue (envOf (dfeOf s k) (i / 4)) (txPlane s k))).snap
  let g := (gainPhase (chActive s k c 0x1C4) (chActive s k c 0x1C8) (ofQ317 z)).snap
  let line := (g.re, g.im) :: x.line
  let out := Cx.add (iqCorrect (chActive s k c 0x1D0) (delayed (chActive s k c 0x1CC) line))
    (cxOfWord 15 (chActive s k c 0x1D4))
  let (o, k3) := toQ317 out
  let (w, k4) := toQ115 (ofQ317 o)
  let w := if bit (chActive s k c 0x1C0) 0 then w else 0
  let s := if clips = 0 then s else setEvt (addCnt s p 7 clips) p 4
  let s := if peaks = 0 then s else addCnt s p 6 peaks
  countSat k c false (k0 + k1 + k2 + k3 + k4)
    (setChain s k c ⟨⟨laneNo s k, devTime s, w, z, groupOn s k (i / 4)⟩ :: x.log, line, ch, cf⟩)

/-! ### Mirror chains (R218, R219, R385) -/

/-- The output of a mirror chain stands in for its source's: the present sample, and the carrier samples of the present
sample. -/
def standIn (src mir : ChainSt) : ChainSt :=
  { src with
    log := match src.log, mir.log with
      | _ :: as, b :: _ => b :: as
      | l, _ => l
    chans := src.chans.map fun e => (e.1, { e.2 with strm :=
      match e.2.strm, (kget ChanSt.init mir.chans e.1).strm with
      | a :: as, b :: _ => if a.1 = b.1 then b :: as else a :: as
      | l, _ => l }) }

/-- One lane sample of mirror chain 128 + `m`: nothing while IDLE; in ACTIVE it stands in for its source from its switch on. -/
def mirrorChain (k m : Nat) (s : State) : State :=
  let mode := bits (chActive s k (128 + m) 0x1D8) 1 0
  if mode ≠ 1 ∧ mode ≠ 2 then s
  else
    let src := mirrorSource s k m
    let s := if m < 2 then rxChain k (128 + m) src s else txChain k (128 + m) (src - 64) s
    if (dfeOf s k).mirror.getLsbD m then setChain s k src (standIn (chainOf s k src) (chainOf s k (128 + m))) else s

/-- MIRROR_SWITCH (R218): at a lane-alignment boundary of its source's link, an ACTIVE mirror chain stands in for its source
from now on, another one does not. -/
def execMirrorSwitch (k m : Fin 4) (s : State) : Host.Outcome State Fault Refusal :=
  let on := decide (bits (mirrorReg s k m) 1 0 = 2)
  let b := BitVec.ofNat 4 (2 ^ m.val)
  if blockRuns s (dfePage k) && laneEdge s (8 * k + mirrorSource s k m % 64 / 8) then
    .next (modDfe s k fun x => { x with mirror := if on then x.mirror ||| b else x.mirror &&& ~~~b })
  else .next s

/-! ### To the lanes (R159, R170) -/

/-- The octets of a frame of a quad, lane after lane, from the chains' last samples; a realignment leaves them wrong (R174). -/
def txOctets (s : State) (q : Nat) (p : Pset) : List Byte :=
  let k := q / 8
  let wrong := decide (laneAbs s k < (lemcOf s k).wrongTo)
  (List.range p.m).flatMap fun c => (List.range p.s).flatMap fun t =>
    let log := (chainOf s k (64 + 8 * (q % 8) + c / 2)).log
    let w := if wrong then Config.wrongSample q (8 + c / 2) (laneAbs s k)
      else ((log[p.s - 1 - t]?).map (·.lane)).getD 0
    let v := bits w (if c % 2 = 0 then 15 else 31) (if c % 2 = 0 then 0 else 16)
    [BitVec.ofNat 8 (v / 256), BitVec.ofNat 8 v]

/-- The framing of one lane sample: a multiblock or multiframe starts on the LEMC edge (R170), and a frame is framed with the
last of its samples. Nothing is framed until the transmit link is RUNNING (R178). -/
def frameTick (q : Nat) (s : State) : State :=
  match quadPset s q with
  | none => s
  | some p =>
    if !txEn s q || !txRunning s q then s
    else
      let j := (laneNo s (q / 8) % lemcPeriod s q).toNat
      let x := linkOf s q
      let x := if j = 0 then { x with txMb := [[], [], [], []] } else x
      let x := if j % p.s + 1 = p.s then
          let os := txOctets s q p
          { x with txMb := (List.range 4).map fun l => (x.txMb[l]?).getD [] ++ (os.drop (l * p.f)).take (if l < p.l then p.f else 0) }
        else x
      setLink s q x

/-! ### A lane sample -/

/-- The release of a quad's elastic buffers RBD cycles after each LEMC edge (R167). -/
def releaseTick (q : Nat) (s : State) : State :=
  let rbd : Nat := bits (getReg s (quadPage q) 0x10C) 8 0
  let n := laneNo s (q / 8)
  if (linkOf s q).st = 4 ∧ rxEn s q ∧ (rbd : Int) ≤ n ∧ (n - rbd) % lemcPeriod s q = 0 then releaseEb q s else s

/-- CS_TX_GAIN takes force at a lane-alignment boundary (R189). -/
def gainTick (q : Nat) (s : State) : State :=
  if !laneEdge s q then s
  else modDfe s (q / 8) fun x => { x with gain := (List.range 16).foldl (fun m cs =>
    kset 0x2000 m (cs * 8 + q % 8) (getRegI s (dfePage (q / 8)) 0x220 cs)) x.gain }

/-- One lane sample of a DFE group. -/
def laneTick (k : Nat) (s : State) : State :=
  let quads := (List.range 8).map (8 * k + ·)
  let s := quads.foldl (fun s q => releaseTick q s) s
  let s := if !enabled s (dfePage k) || !blockRuns s (dfePage k) then s
    else
      let s := quads.foldl (fun s q => gainTick q s) s
      let s := (List.range 64).foldl (fun s i => rxChain k i i s) s
      let s := (List.range 64).foldl (fun s i => txChain k (64 + i) i s) s
      (List.range 4).foldl (fun s m => mirrorChain k m s) s
  let s := quads.foldl (fun s q => frameTick q s) s
  prismTick k s

/-- A group has samples to move: its DFE is enabled, or one of its links is RUNNING. -/
def groupLive (s : State) (k : Nat) : Bool :=
  (enabled s (dfePage k) && blockRuns s (dfePage k)) || (List.range 8).any fun i => decide ((linkOf s (8 * k + i)).st = 4)

/-- The lane samples of one 983.04 MHz cycle, and the OFDM symbols that they complete. [DESIGN CHOICE, log 5; DESIGN CHOICE, log
37] -/
def sampleTick (s : State) : State :=
  if !pllOn s 19 then s else
  ofdmTick ((List.range 4).foldl (fun s k => if groupLive s k && laneDue s k then laneTick k s else s) s)

end Sys2Proof.Machine
end

