-- ==== Sys2Proof/Machine/Vector.lean ====
section
/-! DEFINITION. The vector, filter-tap and coprocessor instructions (R472–R511, R518–R540). -/

namespace Sys2Proof.Machine

/-- VLD (R500). -/
def execVld (i : Issue) (w : Word26) (s : State) : Host.Outcome State Fault Refusal := .next (issueSt i (slotWord 0x10 w) s)

/-- VST (R500). -/
def execVst (i : Issue) (w : Word26) (s : State) : Host.Outcome State Fault Refusal := .next (issueSt i (slotWord 0x11 w) s)

/-- VGATHER (R505). -/
def execVgather (i : Issue) (w : Word26) (s : State) : Host.Outcome State Fault Refusal := .next (issueSt i (slotWord 0x12 w) s)

/-- VSCATTER (R505). -/
def execVscatter (i : Issue) (w : Word26) (s : State) : Host.Outcome State Fault Refusal := .next (issueSt i (slotWord 0x13 w) s)

/-- VXFER (R503). -/
def execVxfer (i : Issue) (w : Word26) (s : State) : Host.Outcome State Fault Refusal := .next (issueSt i (slotWord 0x14 w) s)

/-- VALU (R488). -/
def execValu (i : Issue) (w : Word26) (s : State) : Host.Outcome State Fault Refusal := .next (issueSt i (slotWord 0x15 w) s)

/-- VALU_SCALAR (R488). -/
def execValuScalar (i : Issue) (w : Word26) (s : State) : Host.Outcome State Fault Refusal := .next (issueSt i (slotWord 0x16 w) s)

/-- VMAC (R497). -/
def execVmac (i : Issue) (w : Word26) (s : State) : Host.Outcome State Fault Refusal := .next (issueSt i (slotWord 0x17 w) s)

/-- VRND (R498). -/
def execVrnd (i : Issue) (w : Word26) (s : State) : Host.Outcome State Fault Refusal := .next (issueSt i (slotWord 0x18 w) s)

/-- VPERM (R490). -/
def execVperm (i : Issue) (w : Word26) (s : State) : Host.Outcome State Fault Refusal := .next (issueSt i (slotWord 0x19 w) s)

/-- VCMP (R492). -/
def execVcmp (i : Issue) (w : Word26) (s : State) : Host.Outcome State Fault Refusal := .next (issueSt i (slotWord 0x1A w) s)

/-- VPRED (R493). -/
def execVpred (i : Issue) (w : Word26) (s : State) : Host.Outcome State Fault Refusal := .next (issueSt i (slotWord 0x1B w) s)

/-- VFP (R489). -/
def execVfp (i : Issue) (w : Word26) (s : State) : Host.Outcome State Fault Refusal := .next (issueSt i (slotWord 0x1C w) s)

/-- VRED (R491). -/
def execVred (i : Issue) (w : Word26) (s : State) : Host.Outcome State Fault Refusal := .next (issueSt i (slotWord 0x1D w) s)

/-- FTAP (R473). -/
def execFtap (i : Issue) (w : Word26) (s : State) : Host.Outcome State Fault Refusal := .next (issueSt i (slotWord 0x1F w) s)

/-- MXOP (R534). -/
def execMxop (i : Issue) (w : Word26) (s : State) : Host.Outcome State Fault Refusal := .next (issueSt i (slotWord 0x20 w) s)

/-- MXSB (R518). -/
def execMxsb (i : Issue) (w : Word26) (s : State) : Host.Outcome State Fault Refusal := .next (issueSt i (slotWord 0x21 w) s)

/-- MXSTAT (R518). -/
def execMxstat (i : Issue) (w : Word26) (s : State) : Host.Outcome State Fault Refusal := .next (issueSt i (slotWord 0x22 w) s)

/-- MXSAVE (R522). -/
def execMxsave (i : Issue) (w : Word26) (s : State) : Host.Outcome State Fault Refusal := .next (issueSt i (slotWord 0x23 w) s)

/-- MXRST (R522). -/
def execMxrst (i : Issue) (w : Word26) (s : State) : Host.Outcome State Fault Refusal := .next (issueSt i (slotWord 0x24 w) s)

/-- MXCANCEL (R523). -/
def execMxcancel (i : Issue) (w : Word26) (s : State) : Host.Outcome State Fault Refusal := .next (issueSt i (slotWord 0x25 w) s)

end Sys2Proof.Machine
end

