-- ==== Sys2Proof/Machine/Dispatch.lean ====
section
/-! DEFINITION. The dispatch table: each command's meaning, one arm for each row of the table of operations. -/

namespace Sys2Proof.Machine

/-- The effect of a command on everything but the queue. -/
def exec (i : Instr) (s : State) : Host.Outcome State Fault Refusal :=
  match i with
  | .regWrite a p r w => Sys2Proof.Machine.execRegWrite a p r w s
  | .rcRead a p r => Sys2Proof.Machine.execRcRead a p r s
  | .loRead a p r => Sys2Proof.Machine.execLoRead a p r s
  | .loWrite a p r v => Sys2Proof.Machine.execLoWrite a p r v s
  | .hiWrite a p r v => Sys2Proof.Machine.execHiWrite a p r v s
  | .ctrlEnableSet a p => Sys2Proof.Machine.execCtrlEnableSet a p s
  | .ctrlEnableClear a p => Sys2Proof.Machine.execCtrlEnableClear a p s
  | .softReset a p => Sys2Proof.Machine.execSoftReset a p s
  | .softResetDone p => Sys2Proof.Machine.execSoftResetDone p s
  | .ceLeak => Sys2Proof.Machine.execCeLeak s
  | .snapshotCopy => Sys2Proof.Machine.execSnapshotCopy s
  | .snapSeqUpdate => Sys2Proof.Machine.execSnapSeqUpdate s
  | .dispTemplateLoadDone timedOut => Sys2Proof.Machine.execDispTemplateLoadDone timedOut s
  | .dispToken ts => Sys2Proof.Machine.execDispToken ts s
  | .ingressUnstall u => Sys2Proof.Machine.execIngressUnstall u s
  | .completionToken t cls => Sys2Proof.Machine.execCompletionToken t cls s
  | .templateFetchDone t timedOut => Sys2Proof.Machine.execTemplateFetchDone t timedOut s
  | .fireIssue pool => Sys2Proof.Machine.execFireIssue pool s
  | .agePromotion t inst => Sys2Proof.Machine.execAgePromotion t inst s
  | .openInst a n => Sys2Proof.Machine.execOpen a n s
  | .closeInst a n => Sys2Proof.Machine.execClose a n s
  | .forceInst a n => Sys2Proof.Machine.execForce a n s
  | .voterMinority r => Sys2Proof.Machine.execVoterMinority r s
  | .minorityReloadDone => Sys2Proof.Machine.execMinorityReloadDone s
  | .noMajority => Sys2Proof.Machine.execNoMajority s
  | .postFireRecord a n u v => Sys2Proof.Machine.execPostFireRecord a n u v s
  | .sysrefArm a q v => Sys2Proof.Machine.execSysrefArm a q v s
  | .laneSyncAcquired q l => Sys2Proof.Machine.execLaneSyncAcquired q l s
  | .ilasReceived q ilas => Sys2Proof.Machine.execIlasReceived q ilas s
  | .sysrefEdge k late => Sys2Proof.Machine.execSysrefEdge k late s
  | .multiblockReceived q l headOk crcOk octets => Sys2Proof.Machine.execMultiblockReceived q l headOk crcOk octets s
  | .laneDown q l => Sys2Proof.Machine.execLaneDown q l s
  | .laneRecover q l => Sys2Proof.Machine.execLaneRecover q l s
  | .jsyncLow q frames => Sys2Proof.Machine.execJsyncLow q frames s
  | .realign a q v => Sys2Proof.Machine.execRealign a q v s
  | .subArm a j => Sys2Proof.Machine.execSubArm a j s
  | .subReady j => Sys2Proof.Machine.execSubReady j s
  | .subFail j => Sys2Proof.Machine.execSubFail j s
  | .subSwap a j => Sys2Proof.Machine.execSubSwap a j s
  | .subSwapExecute j => Sys2Proof.Machine.execSubSwapExecute j s
  | .subRelease a j => Sys2Proof.Machine.execSubRelease a j s
  | .txOn f => Sys2Proof.Machine.execTxOn f s
  | .txOff f => Sys2Proof.Machine.execTxOff f s
  | .carrierOn f => Sys2Proof.Machine.execCarrierOn f s
  | .carrierOff f => Sys2Proof.Machine.execCarrierOff f s
  | .chainCommit f => Sys2Proof.Machine.execChainCommit f s
  | .rampStart k r => Sys2Proof.Machine.execRampStart k r s
  | .rampEnd k r => Sys2Proof.Machine.execRampEnd k r s
  | .paCtrlAssert k o => Sys2Proof.Machine.execPaCtrlAssert k o s
  | .paCtrlDeassert k o => Sys2Proof.Machine.execPaCtrlDeassert k o s
  | .commitAt a k => Sys2Proof.Machine.execCommitAt a k s
  | .commitNow a k => Sys2Proof.Machine.execCommitNow a k s
  | .discard a k => Sys2Proof.Machine.execDiscard a k s
  | .chainCommitApply k c => Sys2Proof.Machine.execChainCommitApply k c s
  | .coefDataWrite a k v => Sys2Proof.Machine.execCoefDataWrite a k v s
  | .mirrorSwitch k m => Sys2Proof.Machine.execMirrorSwitch k m s
  | .fftRx f => Sys2Proof.Machine.execFftRx f s
  | .ifftTx f => Sys2Proof.Machine.execIfftTx f s
  | .ce f => Sys2Proof.Machine.execCe f s
  | .eq f => Sys2Proof.Machine.execEq f s
  | .nf f => Sys2Proof.Machine.execNf f s
  | .prach f => Sys2Proof.Machine.execPrach f s
  | .txMap f => Sys2Proof.Machine.execTxMap f s
  | .ofdmOpDone k n => Sys2Proof.Machine.execOfdmOpDone k n s
  | .peerMissing k n sym => Sys2Proof.Machine.execPeerMissing k n sym s
  | .carrEnable a k v => Sys2Proof.Machine.execCarrEnable a k v s
  | .smoothDataWrite a k v => Sys2Proof.Machine.execSmoothDataWrite a k v s
  | .ldpcDec f => Sys2Proof.Machine.execLdpcDec f s
  | .ldpcEnc f => Sys2Proof.Machine.execLdpcEnc f s
  | .turboDec f => Sys2Proof.Machine.execTurboDec f s
  | .turboEnc f => Sys2Proof.Machine.execTurboEnc f s
  | .polarDec f => Sys2Proof.Machine.execPolarDec f s
  | .polarEnc f => Sys2Proof.Machine.execPolarEnc f s
  | .workUnitStart k c => Sys2Proof.Machine.execWorkUnitStart k c s
  | .workUnitDone k e fault => Sys2Proof.Machine.execWorkUnitDone k e fault s
  | .tapSetWrite a k n hi v => Sys2Proof.Machine.execTapSetWrite a k n hi v s
  | .frameEnd k bad j => Sys2Proof.Machine.execFrameEnd k bad j s
  | .integrationEnd k ue => Sys2Proof.Machine.execIntegrationEnd k ue s
  | .tapCfgWrite a k v => Sys2Proof.Machine.execTapCfgWrite a k v s
  | .maxhClr a k v => Sys2Proof.Machine.execMaxhClr a k v s
  | .detEnable a d v => Sys2Proof.Machine.execDetEnable a d v s
  | .detection ues => Sys2Proof.Machine.execDetection ues s
  | .confWindowEnd d ue => Sys2Proof.Machine.execConfWindowEnd d ue s
  | .captureComplete d => Sys2Proof.Machine.execCaptureComplete d s
  | .bufRelease a v => Sys2Proof.Machine.execBufRelease a v s
  | .idleWin f => Sys2Proof.Machine.execIdleWin f s
  | .idleWinEnd n => Sys2Proof.Machine.execIdleWinEnd n s
  | .forceCapture f => Sys2Proof.Machine.execForceCapture f s
  | .specClose f => Sys2Proof.Machine.execSpecClose f s
  | .haChunk k q sl => Sys2Proof.Machine.execHaChunk k q sl s
  | .calStart a k m => Sys2Proof.Machine.execCalStart a k m s
  | .calAbort a k m => Sys2Proof.Machine.execCalAbort a k m s
  | .calRecordDone k m => Sys2Proof.Machine.execCalRecordDone k m s
  | .coreMapWrite a c v => Sys2Proof.Machine.execCoreMapWrite a c v s
  | .spareCopy a c v => Sys2Proof.Machine.execSpareCopy a c v s
  | .spareCopyDone c => Sys2Proof.Machine.execSpareCopyDone c s
  | .alu n w => Sys2Proof.Machine.execAlu n w s
  | .aluImmediate n w => Sys2Proof.Machine.execAluImmediate n w s
  | .multiply n w => Sys2Proof.Machine.execMultiply n w s
  | .scalarLoad n w => Sys2Proof.Machine.execScalarLoad n w s
  | .scalarStore n w => Sys2Proof.Machine.execScalarStore n w s
  | .addressArithmetic n w => Sys2Proof.Machine.execAddressArithmetic n w s
  | .loadUpperImmediate n w => Sys2Proof.Machine.execLoadUpperImmediate n w s
  | .conditionalBranch n w => Sys2Proof.Machine.execConditionalBranch n w s
  | .jump n w => Sys2Proof.Machine.execJump n w s
  | .tsend n w => Sys2Proof.Machine.execTsend n w s
  | .tdone n w => Sys2Proof.Machine.execTdone n w s
  | .fwait n w => Sys2Proof.Machine.execFwait n w s
  | .flush n w => Sys2Proof.Machine.execFlush n w s
  | .inval n w => Sys2Proof.Machine.execInval n w s
  | .flinv n w => Sys2Proof.Machine.execFlinv n w s
  | .fence n w => Sys2Proof.Machine.execFence n w s
  | .isync n w => Sys2Proof.Machine.execIsync n w s
  | .mfc n w => Sys2Proof.Machine.execMfc n w s
  | .mtc n w => Sys2Proof.Machine.execMtc n w s
  | .rti n w => Sys2Proof.Machine.execRti n w s
  | .isave n w => Sys2Proof.Machine.execIsave n w s
  | .irestore n w => Sys2Proof.Machine.execIrestore n w s
  | .trap n w => Sys2Proof.Machine.execTrap n w s
  | .wait n w => Sys2Proof.Machine.execWait n w s
  | .interruptEntry c n => Sys2Proof.Machine.execInterruptEntry c n s
  | .asyncWerr c => Sys2Proof.Machine.execAsyncWerr c s
  | .fireRecordArrival c f => Sys2Proof.Machine.execFireRecordArrival c f s
  | .dbgHaltReq a c => Sys2Proof.Machine.execDbgHaltReq a c s
  | .dbgStep a c => Sys2Proof.Machine.execDbgStep a c s
  | .vld n w => Sys2Proof.Machine.execVld n w s
  | .vst n w => Sys2Proof.Machine.execVst n w s
  | .vgather n w => Sys2Proof.Machine.execVgather n w s
  | .vscatter n w => Sys2Proof.Machine.execVscatter n w s
  | .vxfer n w => Sys2Proof.Machine.execVxfer n w s
  | .valu n w => Sys2Proof.Machine.execValu n w s
  | .valuScalar n w => Sys2Proof.Machine.execValuScalar n w s
  | .vmac n w => Sys2Proof.Machine.execVmac n w s
  | .vrnd n w => Sys2Proof.Machine.execVrnd n w s
  | .vperm n w => Sys2Proof.Machine.execVperm n w s
  | .vcmp n w => Sys2Proof.Machine.execVcmp n w s
  | .vpred n w => Sys2Proof.Machine.execVpred n w s
  | .vfp n w => Sys2Proof.Machine.execVfp n w s
  | .vred n w => Sys2Proof.Machine.execVred n w s
  | .ftap n w => Sys2Proof.Machine.execFtap n w s
  | .mxop n w => Sys2Proof.Machine.execMxop n w s
  | .mxsb n w => Sys2Proof.Machine.execMxsb n w s
  | .mxstat n w => Sys2Proof.Machine.execMxstat n w s
  | .mxsave n w => Sys2Proof.Machine.execMxsave n w s
  | .mxrst n w => Sys2Proof.Machine.execMxrst n w s
  | .mxcancel n w => Sys2Proof.Machine.execMxcancel n w s
  | .bundleCommit m k => Sys2Proof.Machine.execBundleCommit m k s
  | .bundleSquash m k => Sys2Proof.Machine.execBundleSquash m k s
  | .subtileBoundary m => Sys2Proof.Machine.execSubtileBoundary m s
  | .mxcOpDone m parity => Sys2Proof.Machine.execMxcOpDone m parity s
  | .mxcFire f => Sys2Proof.Machine.execMxcFire f s
  | .ctxCancel a m v => Sys2Proof.Machine.execCtxCancel a m v s
  | .rd q upset flit => Sys2Proof.Machine.execRd q upset flit s
  | .wr q upset flit => Sys2Proof.Machine.execWr q upset flit s
  | .rdresp x => Sys2Proof.Machine.execRdresp x s
  | .wrresp x => Sys2Proof.Machine.execWrresp x s
  | .tokenPacket lp cls flit => Sys2Proof.Machine.execTokenPacket lp cls flit s
  | .firePacket lp cls0 flit => Sys2Proof.Machine.execFirePacket lp cls0 flit s
  | .stream r out slot input filled flit => Sys2Proof.Machine.execStream r out slot input filled flit s
  | .requestTimeout id => Sys2Proof.Machine.execRequestTimeout id s
  | .linkDown l => Sys2Proof.Machine.execLinkDown l s
  | .spareRemap n => Sys2Proof.Machine.execSpareRemap n s
  | .linkReroute n => Sys2Proof.Machine.execLinkReroute n s
  | .tblCopy a r v => Sys2Proof.Machine.execTblCopy a r v s
  | .tblDataWrite a r v => Sys2Proof.Machine.execTblDataWrite a r v s
  | .flipCmd a v => Sys2Proof.Machine.execFlipCmd a v s
  | .epochFlip => Sys2Proof.Machine.execEpochFlip s
  | .epochDrained => Sys2Proof.Machine.execEpochDrained s
  | .ringAccess m t wr v crcOk => Sys2Proof.Machine.execRingAccess m t wr v crcOk s
  | .ringSegmentBreak st => Sys2Proof.Machine.execRingSegmentBreak st s
  | .ringAccessTimeout m => Sys2Proof.Machine.execRingAccessTimeout m s
  | .ltCtrlWrite a r n v => Sys2Proof.Machine.execLtCtrlWrite a r n v s
  | .lanternStart r n => Sys2Proof.Machine.execLanternStart r n s
  | .kick a c => Sys2Proof.Machine.execKick a c s
  | .abort a c => Sys2Proof.Machine.execAbort a c s
  | .clear a c => Sys2Proof.Machine.execClear a c s
  | .dmaFire f => Sys2Proof.Machine.execDmaFire f s
  | .haltComplete c => Sys2Proof.Machine.execHaltComplete c s
  | .arrayScrub p arr w upset => Sys2Proof.Machine.execArrayScrub p arr w upset s
  | .repair a v => Sys2Proof.Machine.execRepair a v s
  | .rrDone => Sys2Proof.Machine.execRrDone s
  | .bankPwrWrite a h hi v => Sys2Proof.Machine.execBankPwrWrite a h hi v s
  | .dramEnable a => Sys2Proof.Machine.execDramEnable a s
  | .dramInitDone failed => Sys2Proof.Machine.execDramInitDone failed s
  | .freqChange f => Sys2Proof.Machine.execFreqChange f s
  | .fcGo a v => Sys2Proof.Machine.execFcGo a v s
  | .fcDone ns => Sys2Proof.Machine.execFcDone ns s
  | .fcFail ns => Sys2Proof.Machine.execFcFail ns s
  | .dramRefresh ch traffic => Sys2Proof.Machine.execDramRefresh ch traffic s
  | .mr4Poll ch code => Sys2Proof.Machine.execMr4Poll ch code s
  | .dramScrub upset => Sys2Proof.Machine.execDramScrub upset s
  | .txTapsWrite a p l v => Sys2Proof.Machine.execTxTapsWrite a p l v s
  | .cdrUnlock p l => Sys2Proof.Machine.execCdrUnlock p l s
  | .cdrLock p l => Sys2Proof.Machine.execCdrLock p l s
  | .fomWindowEnd p l h v x => Sys2Proof.Machine.execFomWindowEnd p l h v x s
  | .pstateRequest a p l v => Sys2Proof.Machine.execPstateRequest a p l v s
  | .pstateDone p l => Sys2Proof.Machine.execPstateDone p l s
  | .controlWord q l w => Sys2Proof.Machine.execControlWord q l w s
  | .trainDone q l => Sys2Proof.Machine.execTrainDone q l s
  | .retrain a => Sys2Proof.Machine.execRetrain a s
  | .handshake peer => Sys2Proof.Machine.execHandshake peer s
  | .linkUp txPass => Sys2Proof.Machine.execLinkUp txPass s
  | .cuwickFrame bytes => Sys2Proof.Machine.execCuwickFrame bytes s
  | .recovery => Sys2Proof.Machine.execRecovery s
  | .recoveryDone ok => Sys2Proof.Machine.execRecoveryDone ok s
  | .autoRetry => Sys2Proof.Machine.execAutoRetry s
  | .frameReceive p bytes fcsOk => Sys2Proof.Machine.execFrameReceive p bytes fcsOk s
  | .flowLoad a v => Sys2Proof.Machine.execFlowLoad a v s
  | .winClose f n => Sys2Proof.Machine.execWinClose f n s
  | .uSend j => Sys2Proof.Machine.execUSend j s
  | .cSend j => Sys2Proof.Machine.execCSend j s
  | .frame j => Sys2Proof.Machine.execFrame j s
  | .jobDone n => Sys2Proof.Machine.execJobDone n s
  | .paramRequest phy pcie => Sys2Proof.Machine.execParamRequest phy pcie s
  | .configRequest phy pcie => Sys2Proof.Machine.execConfigRequest phy pcie s
  | .startRequest phy pcie => Sys2Proof.Machine.execStartRequest phy pcie s
  | .stopRequest phy pcie offNs => Sys2Proof.Machine.execStopRequest phy pcie offNs s
  | .dlTtiRequest phy pcie start => Sys2Proof.Machine.execDlTtiRequest phy pcie start s
  | .ulTtiRequest phy pcie start => Sys2Proof.Machine.execUlTtiRequest phy pcie start s
  | .ulDciRequest phy pcie start => Sys2Proof.Machine.execUlDciRequest phy pcie start s
  | .txDataRequest phy pcie start => Sys2Proof.Machine.execTxDataRequest phy pcie start s
  | .lnxStopRequest phy pcie offNs => Sys2Proof.Machine.execLnxStopRequest phy pcie offNs s
  | .lnxStatsRequest phy pcie => Sys2Proof.Machine.execLnxStatsRequest phy pcie s
  | .slotIndication phy start => Sys2Proof.Machine.execSlotIndication phy start s
  | .stopTimeout phy => Sys2Proof.Machine.execStopTimeout phy s
  | .h2dTailWrite a n v => Sys2Proof.Machine.execH2dTailWrite a n v s
  | .hostFire f => Sys2Proof.Machine.execHostFire f s
  | .tokenIn a v => Sys2Proof.Machine.execTokenIn a v s
  | .tokenDone a v => Sys2Proof.Machine.execTokenDone a v s
  | .tmEnqueue => Sys2Proof.Machine.execTmEnqueue s
  | .portFree x => Sys2Proof.Machine.execPortFree x s
  | .frameEligible q => Sys2Proof.Machine.execFrameEligible q s
  | .haSelect a v => Sys2Proof.Machine.execHaSelect a v s
  | .haSelectTimeout p => Sys2Proof.Machine.execHaSelectTimeout p s
  | .depthSample => Sys2Proof.Machine.execDepthSample s
  | .meterWrite a q r v => Sys2Proof.Machine.execMeterWrite a q r v s
  | .pcsLockLoss p => Sys2Proof.Machine.execPcsLockLoss p s
  | .pcsLockGain p => Sys2Proof.Machine.execPcsLockGain p s
  | .nowSecLoRead a => Sys2Proof.Machine.execNowSecLoRead a s
  | .ppsInSecRead a => Sys2Proof.Machine.execPpsInSecRead a s
  | .incrCommit a v => Sys2Proof.Machine.execIncrCommit a v s
  | .adjNs a v => Sys2Proof.Machine.execAdjNs a v s
  | .setGo a => Sys2Proof.Machine.execSetGo a s
  | .tcmpArm a n v => Sys2Proof.Machine.execTcmpArm a n v s
  | .tcmpFire n => Sys2Proof.Machine.execTcmpFire n s
  | .ppsInEdge rising => Sys2Proof.Machine.execPpsInEdge rising s
  | .ppsLoss => Sys2Proof.Machine.execPpsLoss s
  | .ppsOutRise => Sys2Proof.Machine.execPpsOutRise s
  | .ppsOutFall => Sys2Proof.Machine.execPpsOutFall s
  | .pdReqOn a n e => Sys2Proof.Machine.execPdReqOn a n e s
  | .pdReqRetain a n e => Sys2Proof.Machine.execPdReqRetain a n e s
  | .pdReqOff a n e => Sys2Proof.Machine.execPdReqOff a n e s
  | .grpReqOn a g e => Sys2Proof.Machine.execGrpReqOn a g e s
  | .grpReqRetain a g e => Sys2Proof.Machine.execGrpReqRetain a g e s
  | .grpReqOff a g e => Sys2Proof.Machine.execGrpReqOff a g e s
  | .entryMet n => Sys2Proof.Machine.execEntryMet n s
  | .quiesceTimeout n => Sys2Proof.Machine.execQuiesceTimeout n s
  | .transitionDone n => Sys2Proof.Machine.execTransitionDone n s
  | .pgFail n => Sys2Proof.Machine.execPgFail n s
  | .wake n => Sys2Proof.Machine.execWake n s
  | .cdFreqWrite a c v => Sys2Proof.Machine.execCdFreqWrite a c v s
  | .avsSettled => Sys2Proof.Machine.execAvsSettled s
  | .pllSlewStep c => Sys2Proof.Machine.execPllSlewStep c s
  | .avsFail => Sys2Proof.Machine.execAvsFail s
  | .pllUnlock pll lanes => Sys2Proof.Machine.execPllUnlock pll lanes s
  | .holdover refLost => Sys2Proof.Machine.execHoldover refLost s
  | .holdoverExit => Sys2Proof.Machine.execHoldoverExit s
  | .sourceAssert x => Sys2Proof.Machine.execSourceAssert x s
  | .sourceDeassert n => Sys2Proof.Machine.execSourceDeassert n s
  | .srcRouteWrite a v => Sys2Proof.Machine.execSrcRouteWrite a v s
  | .report x => Sys2Proof.Machine.execReport x s
  | .rptPop a v => Sys2Proof.Machine.execRptPop a v s
  | .fatal cond => Sys2Proof.Machine.execFatal cond s
  | .fatalResetDelay => Sys2Proof.Machine.execFatalResetDelay s
  | .poreset => Sys2Proof.Machine.execPoreset s
  | .vddAonBrownout => Sys2Proof.Machine.execVddAonBrownout s
  | .wreset => Sys2Proof.Machine.execWreset s
  | .rstCmdWarm a v => Sys2Proof.Machine.execRstCmdWarm a v s
  | .fatalReset => Sys2Proof.Machine.execFatalReset s
  | .pcieReset => Sys2Proof.Machine.execPcieReset s
  | .wdogExpiry => Sys2Proof.Machine.execWdogExpiry s
  | .wdogHalf => Sys2Proof.Machine.execWdogHalf s
  | .wdogKick a v => Sys2Proof.Machine.execWdogKick a v s
  | .resetRelease mode => Sys2Proof.Machine.execResetRelease mode s
  | .selfTestDone failed fatal pllOk => Sys2Proof.Machine.execSelfTestDone failed fatal pllOk s
  | .imageSelected => Sys2Proof.Machine.execImageSelected s
  | .bootReady => Sys2Proof.Machine.execBootReady s
  | .pcieGo a v => Sys2Proof.Machine.execPcieGo a v s
  | .flRead a => Sys2Proof.Machine.execFlRead a s
  | .flProgram a => Sys2Proof.Machine.execFlProgram a s
  | .flErase a => Sys2Proof.Machine.execFlErase a s
  | .flDone fail => Sys2Proof.Machine.execFlDone fail s
  | .cfgGo a v => Sys2Proof.Machine.execCfgGo a v s
  | .cfgPersist => Sys2Proof.Machine.execCfgPersist s
  | .verifyCfg a sv => Sys2Proof.Machine.execVerifyCfg a sv s
  | .signCal a sv => Sys2Proof.Machine.execSignCal a sv s
  | .verifyCal a sv => Sys2Proof.Machine.execVerifyCal a sv s
  | .confirm a sv => Sys2Proof.Machine.execConfirm a sv s
  | .attest a sv => Sys2Proof.Machine.execAttest a sv s
  | .debugChallenge a sv => Sys2Proof.Machine.execDebugChallenge a sv s
  | .debugUnlock a sv => Sys2Proof.Machine.execDebugUnlock a sv s
  | .fuseKey a sv blown => Sys2Proof.Machine.execFuseKey a sv blown s
  | .fuseRevoke a sv blown => Sys2Proof.Machine.execFuseRevoke a sv blown s
  | .fuseLock a sv blown => Sys2Proof.Machine.execFuseLock a sv blown s
  | .mailboxDone sv => Sys2Proof.Machine.execMailboxDone sv s
  | .pmbusEnable a mode => Sys2Proof.Machine.execPmbusEnable a mode s
  | .pmbAlert => Sys2Proof.Machine.execPmbAlert s
  | .gpioEdge n level => Sys2Proof.Machine.execGpioEdge n level s
  | .fabricLinkUp l => Sys2Proof.Machine.execFabricLinkUp l s
  | .pllRelock pll => Sys2Proof.Machine.execPllRelock pll s
  | .pageIdleClose b => Sys2Proof.Machine.execPageIdleClose b s
  | .echoWindowEnd p => Sys2Proof.Machine.execEchoWindowEnd p s
  | .msixAck a v => Sys2Proof.Machine.execMsixAck a v s

end Sys2Proof.Machine
end

