-- ==== Sys2Proof/Machine/Step.lean ====
section
/-! DEFINITION. One step: the command at the front of the queue, or a tick of the time unit where none waits. -/

namespace Sys2Proof.Machine

/-- With no command waiting, one 983.04 MHz cycle passes (R739, R740): the samples that fall in it move, and a controlled stop whose
time has come ends (R721). [DESIGN CHOICE, log 5] -/
def idleTick (s : State) : State := phyPoll (sampleTick (timeTick s))

/-- One step of the device. [DESIGN CHOICE, log 1; DESIGN CHOICE, log 132] -/
def step (s : State) : Host.Outcome State Fault Refusal :=
  match s.pending with
  | [] => .next (idleTick s)
  | i :: q => exec i { s with pending := q }

/-- The state with the command that a word spells at the front of its queue. [DESIGN CHOICE, log 3] -/
def State.withFetchWord (s : State) (nbits w : Nat) : State :=
  match Sys2Proof.decodeTableWord nbits w with
  | some i => { s with pending := i :: s.pending }
  | none => s

end Sys2Proof.Machine
end

