-- ==== Sys2Proof/Safety.lean ====
section
/-! DEFINITION. What a sound state of the model is, and what its steps never do. -/

namespace Sys2Proof.Machine

/-- A state whose memory is in canonical form: addresses strictly rising, and no entry equal to what an unlisted address
reads as; so that equal memories are equal data. -/
def State.memWf (s : State) : Prop := Memory.wf s.mem = true

/-- A state whose maps are sound: memory, the host's and the device's, in canonical form, and the register, counter, error-mark,
holding and mirror maps with their keys rising, so that what is written under a key is what is read there. -/
structure Sound (s : State) : Prop where
  mem : Memory.wf s.mem = true
  hostMem : Memory.wf s.hostMem = true
  regs : kup s.regs = true
  cnt : kup s.cnt = true
  memErr : kup s.memErr = true
  holdRd : kup s.holdRd = true
  holdWr : kup s.holdWr = true
  coreMap : kup s.coreMap = true

/-- An access reaches a page: the boot gate lets it through (R829) and the page's domain is ON (R48). -/
def reaches (s : State) (a : Acc) (p : Nat) : Prop := bootGated s a p = false ∧ pageOn s p = true

/-- Register `off` of a page of kind `k` only stores what is written, with no further effect: none of the registers that a write
makes act, that a window shows, or that a lock of their own guards. -/
def plainWrite (k : Kind) (off : Nat) : Bool :=
  (decide (0x100 ≤ off) || [Kind.dmach, .tmq, .det].contains k) && match k with
    | .devinfo | .pmbus => true
    | .evtc => !([0x104, 0x13C, 0x140].contains off)
    | .disp => decide (off < 0x150) && !decide (off = 0x130)
    | .time => !([0x120, 0x124, 0x134, 0x150, 0x154].contains off)
    | .pwrc => decide (off < 0x200) || !decide (off % 0x20 = 0) && !decide (off % 0x20 = 0x10)
    | .clkc => decide (0x140 ≤ off)
    | .mring => !decide (off = 0x108)
    | .pcie => decide (off < 0x110) || decide (0x130 ≤ off) && decide (off < 0x200)
    | .pkt => decide (off < 0x300) && !decide (off = 0x11C)
    | .tm => !([0x11C, 0x130].contains off)
    | .tmq => !([0x08, 0x0C, 0x10].contains (off % 0x40))
    | .cuw => !decide (off = 0x104)
    | .prism => decide (off < 0x180) && !decide (off = 0x138)
    | .det => !([0x00, 0x04, 0x08, 0x0C, 0x1C, 0x20].contains (off % 0x100))
    | .secmb => !decide (off % 0x40 = 0)
    | .boot => !([0x104, 0x10C, 0x110, 0x130, 0x138, 0x148].contains off)
    | .gpio => !decide (off = 0x114)
    | .cluster => !([0x100, 0x104].contains off)
    | .mxc => !([0x10C, 0x130].contains off)
    | .core | .svc | .fec => !decide (off = 0x110)
    | .dfe => decide (off < 0x1C0) && !decide (off = 0x1A4)
    | .ofdm => decide (off < 0x180) && !decide (off = 0x11C)
    | .dma => decide (off < 0x110) || decide (0x130 ≤ off)
    | .dmach => !([0x00, 0x04, 0x18, 0x1C].contains (off % 0x80))
    | .dramc => decide (0x150 ≤ off)
    | .ssram => decide (0x108 ≤ off) && decide (off < 0x110)
    | .rtr => (decide (off < 0x200) || decide (0x300 ≤ off)) &&
        !([0x10C, 0x114, 0x118, 0x120, 0x124, 0x134, 0x138].contains off)
    | .xlane => decide (off < 0x200) && !([0x108, 0x11C].contains off)
    | .xspare => decide (off < 0x200) && !([0x100, 0x104].contains off)
    | .nlane | .plane | .klane => decide (0x300 ≤ off)
    | .tcmp | .post => false

/-- R836: the fuses `g` hold every bit blown in `f`; those that Kerfodra programs are the same. -/
structure fusesGrow (f g : Fuses) : Prop where
  factory : g.dieId = f.dieId ∧ g.shipMapVer = f.shipMapVer ∧ g.coreMap = f.coreMap ∧ g.vf = f.vf ∧ g.repairs = f.repairs ∧ g.uds = f.uds ∧
    g.spares = f.spares
  keys : ∀ i < 4, (f.keys[i]?).getD 0 &&& (g.keys[i]?).getD 0 = (f.keys[i]?).getD 0
  revoked : f.revoked &&& g.revoked = f.revoked
  debugKey : f.debugKey &&& g.debugKey = f.debugKey
  debugState : f.debugState &&& g.debugState = f.debugState
  bootLock : f.bootLock = true → g.bootLock = true
  svn : f.svn ≤ g.svn

/-- A step that answers a state: no fault, no refusal. -/
def answers (s : State) : Prop := ∃ t, step s = .next t

/-! ### A bundle of one instruction -/

/-- The bundle is made up and its stall cycles have passed. -/
def ready (i : Issue) (o : Staged) (s : State) : State :=
  strikeLine (stallFor i.core i.stall (setCore s i.core { coreOf s i.core with staged := [o] })) i.core i.strike

/-- An entry has left the write buffer, and the core's results that are due have landed. -/
def landed (i : Issue) (o : Staged) (s : State) : State :=
  modCore (drainOne i.core (ready i o s)) i.core fun x => landBy (isS i.core) x x.cyc

/-- The bundle is in its issue cycle. -/
def atIssue (i : Issue) (o : Staged) (s : State) : State :=
  modCore (landed i o s) i.core fun y => { y with run := .running, staged := [] }

/-- The instruction of a bundle and the registers that it reads. -/
def opCtx (i : Issue) (o : Staged) (s : State) : OpCtx :=
  ⟨i.core, coreOf (landed i o s) i.core, [o], o⟩

/-- An instruction word may issue as the only one of its bundle and is not turned away: the core runs and makes up no other
bundle and is not stepped, the bundle's address is one to fetch from and reads without error, no register read finds a parity
error, the word takes no trap before it is performed (R421, R425, R456, R462, R466, R477), the core's domain is ON and its clock
runs (R766, R799), and the DRAM channels accept requests (R650). -/
def issuesAlone (i : Issue) (w : Word) (s : State) : Prop :=
  let o : Staged := ⟨i.slot, w, false⟩
  let k := opCtx i o s
  (coreOf s i.core).run = .running ∧ (coreOf s i.core).staged = [] ∧ k.x.step = false ∧
    i.last = true ∧ i.nops = 0 ∧ i.parity = false ∧
    fetchRange (landed i o s) i.core k.x.pc = true ∧ fetchMarked (landed i o s) k.x.pc = false ∧ opTrap (atIssue i o s) k = none ∧
    blockRuns s (corePage i.core) = true ∧ s.memc.fc = none ∧ dramClock s = true

/-- The state after a bundle of one instruction that does `f`; the write buffer after it as R531 asks. -/
def issued (i : Issue) (w : Word) (f : Bun → Bun) (s : State) : State :=
  let o : Staged := ⟨i.slot, w, false⟩
  bufAfter i.core [o] (bundleEnd i.core (opCtx i o s).x (f (bun0 (atIssue i o s))))

/-! ### What a command may change -/

/-- The registers. -/
def Part.regs : Nat := 1

/-- The holding registers of reads (R73). -/
def Part.holdRd : Nat := 2

/-- The halves that writes hold (R77). -/
def Part.holdWr : Nat := 3

/-- The live counters. -/
def Part.cnt : Nat := 4

/-- Memory. -/
def Part.mem : Nat := 5

/-- The error marks of memory. -/
def Part.memErr : Nat := 6

/-- The host's memory. -/
def Part.hostMem : Nat := 7

/-- The mirror map. -/
def Part.coreMap : Nat := 8

/-- The fuses. -/
def Part.fuses : Nat := 9

/-- The model's count of free values. -/
def Part.freeCtr : Nat := 10

/-- The data returned. -/
def Part.rdOut : Nat := 11

/-- The fires that have arrived. -/
def Part.arrived : Nat := 12

/-- The microseconds counted for the leak. -/
def Part.usTick : Nat := 13

/-- The time unit. -/
def Part.time : Nat := 14

/-- The dispatcher. -/
def Part.disp : Nat := 15

/-- The fabric. -/
def Part.fab : Nat := 16

/-- The memory controllers. -/
def Part.memc : Nat := 17

/-- The power controller. -/
def Part.pwr : Nat := 18

/-- The clock plan. -/
def Part.clk : Nat := 19

/-- The event collector. -/
def Part.evt : Nat := 20

/-- The converter links. -/
def Part.links : Nat := 21

/-- The LEMCs of the links. -/
def Part.lemc : Nat := 22

/-- The samples of the chains. -/
def Part.chains : Nat := 23

/-- The mirror links that take a place. -/
def Part.subs : Nat := 24

/-- The DFE chains. -/
def Part.dfe : Nat := 25

/-- The OFDM blocks. -/
def Part.ofdm : Nat := 26

/-- The FEC blocks. -/
def Part.fec : Nat := 27

/-- Prism. -/
def Part.prism : Nat := 28

/-- The calibration runs. -/
def Part.cal : Nat := 29

/-- The copies to spare cores. -/
def Part.spareJobs : Nat := 30

/-- The cores. -/
def Part.cores : Nat := 31

/-- The MXCs. -/
def Part.mxc : Nat := 32

/-- The MXC contexts. -/
def Part.mxCtx : Nat := 33

/-- The DMA channels. -/
def Part.dma : Nat := 34

/-- The DMA engines. -/
def Part.dmaEng : Nat := 35

/-- The serial lanes. -/
def Part.lanes : Nat := 36

/-- Cuwick. -/
def Part.cuw : Nat := 37

/-- The packet engine. -/
def Part.pkt : Nat := 38

/-- The traffic manager. -/
def Part.tm : Nat := 39

/-- The PCIe endpoint. -/
def Part.pcie : Nat := 40

/-- The PHYs. -/
def Part.phys : Nat := 41

/-- The messages to the host. -/
def Part.fapi : Nat := 42

/-- Boot and security. -/
def Part.boot : Nat := 43

/-- The fires that wait for a descriptor. -/
def Part.unowned : Nat := 44

/-- A set of parts of the state, as a number. -/
def partSet : List Nat → Nat
  | [] => 0
  | p :: ps => 2 ^ p ||| partSet ps

/-- Every part but those named. The queue is no part: no command changes it. -/
def partsBut (ps : List Nat) : Nat := 2 ^ 45 - 2 - partSet ps

/-- The parts of the state that a command may change. -/
def footprint : Instr → Nat
  | .regWrite .. | .loWrite .. | .hiWrite .. | .alu .. | .aluImmediate .. | .multiply .. | .scalarLoad .. | .scalarStore ..
    | .addressArithmetic .. | .loadUpperImmediate .. | .conditionalBranch .. | .jump .. | .tsend .. | .tdone .. | .fwait ..
    | .flush .. | .inval .. | .flinv .. | .fence .. | .isync .. | .mfc .. | .mtc .. | .rti .. | .isave .. | .irestore ..
    | .trap .. | .wait .. | .fireRecordArrival .. | .vld .. | .vst .. | .vgather .. | .vscatter .. | .vxfer .. | .valu ..
    | .valuScalar .. | .vmac .. | .vrnd .. | .vperm .. | .vcmp .. | .vpred .. | .vfp .. | .vred .. | .ftap .. | .mxop ..
    | .mxsb .. | .mxstat .. | .mxsave .. | .mxrst .. | .mxcancel .. | .rd .. | .wr .. | .ringAccess .. =>
    partsBut []
  | .rcRead .. | .loRead .. | .nowSecLoRead .. | .ppsInSecRead .. =>
    partSet [Part.regs, Part.holdRd, Part.cnt, Part.rdOut, Part.evt]
  | .ctrlEnableSet .. =>
    partSet [Part.regs, Part.cnt, Part.mem, Part.memErr, Part.disp, Part.memc, Part.evt, Part.links, Part.dfe, Part.prism,
      Part.cores, Part.lanes, Part.cuw]
  | .ctrlEnableClear .. =>
    partSet [Part.regs, Part.cnt, Part.mem, Part.memErr, Part.hostMem, Part.usTick, Part.disp, Part.fab, Part.memc,
      Part.evt, Part.links, Part.prism, Part.cal, Part.cores, Part.dma, Part.lanes, Part.cuw]
  | .softReset .. | .softResetDone .. =>
    partsBut [Part.coreMap, Part.fuses, Part.freeCtr, Part.rdOut, Part.arrived, Part.pwr, Part.lemc, Part.phys, Part.fapi]
  | .ceLeak =>
    partSet [Part.regs, Part.usTick]
  | .snapshotCopy =>
    partSet [Part.regs, Part.time]
  | .snapSeqUpdate =>
    partSet [Part.regs, Part.cnt, Part.hostMem, Part.time, Part.evt, Part.pcie, Part.phys, Part.fapi]
  | .dispTemplateLoadDone .. =>
    partSet [Part.regs, Part.cnt, Part.memErr, Part.usTick, Part.disp, Part.memc, Part.evt]
  | .dispToken .. | .ingressUnstall .. | .completionToken .. =>
    partSet [Part.regs, Part.cnt, Part.mem, Part.memErr, Part.hostMem, Part.usTick, Part.disp, Part.fab, Part.memc,
      Part.evt, Part.pcie, Part.phys, Part.fapi]
  | .templateFetchDone .. =>
    partSet [Part.regs, Part.cnt, Part.memErr, Part.hostMem, Part.usTick, Part.disp, Part.memc, Part.evt, Part.pcie,
      Part.phys, Part.fapi]
  | .fireIssue .. =>
    partSet [Part.regs, Part.cnt, Part.disp, Part.fab, Part.pwr, Part.clk]
  | .agePromotion .. =>
    partSet [Part.cnt, Part.disp]
  | .openInst .. | .voterMinority .. | .noMajority | .postFireRecord .. =>
    partSet [Part.regs, Part.cnt, Part.disp, Part.evt]
  | .closeInst .. | .forceInst .. =>
    partSet [Part.regs, Part.cnt, Part.hostMem, Part.disp, Part.evt, Part.pcie, Part.phys, Part.fapi]
  | .minorityReloadDone | .mr4Poll .. | .cdrLock .. | .pcsLockLoss .. | .pcsLockGain .. | .pmbAlert | .gpioEdge ..
    | .pllRelock .. =>
    partSet [Part.regs]
  | .sysrefArm .. | .multiblockReceived .. | .laneDown .. =>
    partSet [Part.regs, Part.cnt, Part.evt, Part.links]
  | .laneSyncAcquired .. | .laneRecover .. =>
    partSet [Part.links]
  | .ilasReceived .. =>
    partSet [Part.regs, Part.evt, Part.links]
  | .sysrefEdge .. =>
    partSet [Part.regs, Part.cnt, Part.evt, Part.links, Part.lemc]
  | .jsyncLow .. =>
    partSet [Part.regs, Part.links]
  | .realign .. =>
    partSet [Part.regs, Part.cnt, Part.evt, Part.lemc]
  | .subArm .. | .subSwap .. | .subRelease .. =>
    partSet [Part.regs, Part.cnt, Part.evt, Part.subs]
  | .subReady .. | .subFail .. | .subSwapExecute .. =>
    partSet [Part.regs, Part.subs]
  | .txOn .. | .txOff .. | .carrierOn .. | .carrierOff .. | .chainCommit .. =>
    partSet [Part.regs, Part.cnt, Part.arrived, Part.fab, Part.dfe, Part.unowned]
  | .rampStart .. | .rampEnd .. =>
    partSet [Part.cnt, Part.fab, Part.dfe]
  | .paCtrlAssert .. | .paCtrlDeassert .. | .mirrorSwitch .. =>
    partSet [Part.dfe]
  | .commitAt .. | .coefDataWrite .. =>
    partSet [Part.regs, Part.cnt, Part.evt, Part.dfe]
  | .commitNow .. | .discard .. | .carrEnable .. | .smoothDataWrite .. | .txTapsWrite .. | .pstateRequest .. | .pllUnlock ..
    | .rptPop .. | .pmbusEnable .. =>
    partSet [Part.regs, Part.cnt, Part.evt]
  | .chainCommitApply .. =>
    partSet [Part.regs, Part.fab, Part.dfe]
  | .fftRx .. | .ifftTx .. | .ce .. | .eq .. | .nf .. | .prach .. | .txMap .. =>
    partSet [Part.regs, Part.cnt, Part.mem, Part.memErr, Part.hostMem, Part.arrived, Part.usTick, Part.fab, Part.memc,
      Part.evt, Part.ofdm, Part.unowned]
  | .ofdmOpDone .. =>
    partSet [Part.regs, Part.cnt, Part.mem, Part.memErr, Part.hostMem, Part.usTick, Part.fab, Part.memc, Part.evt, Part.ofdm]
  | .peerMissing .. =>
    partSet [Part.regs, Part.evt, Part.ofdm]
  | .ldpcDec .. | .ldpcEnc .. | .turboDec .. | .turboEnc .. | .polarDec .. | .polarEnc .. =>
    partSet [Part.regs, Part.cnt, Part.mem, Part.memErr, Part.hostMem, Part.arrived, Part.usTick, Part.fab, Part.memc,
      Part.evt, Part.fec, Part.unowned]
  | .workUnitStart .. =>
    partSet [Part.regs, Part.cnt, Part.fec]
  | .workUnitDone .. =>
    partSet [Part.regs, Part.cnt, Part.mem, Part.memErr, Part.hostMem, Part.usTick, Part.fab, Part.memc, Part.evt, Part.fec]
  | .tapSetWrite .. | .incrCommit .. =>
    partSet [Part.regs, Part.holdWr, Part.cnt, Part.evt]
  | .frameEnd .. | .tapCfgWrite .. | .maxhClr .. | .bufRelease .. =>
    partSet [Part.regs, Part.cnt, Part.evt, Part.prism]
  | .integrationEnd .. | .detection .. | .confWindowEnd .. | .captureComplete .. | .haChunk .. =>
    partSet [Part.regs, Part.cnt, Part.mem, Part.memErr, Part.hostMem, Part.usTick, Part.fab, Part.memc, Part.evt,
      Part.prism]
  | .detEnable .. =>
    partSet [Part.regs, Part.cnt, Part.memErr, Part.usTick, Part.memc, Part.evt, Part.prism]
  | .idleWin .. =>
    partSet [Part.regs, Part.arrived, Part.fab, Part.prism, Part.unowned]
  | .idleWinEnd .. =>
    partSet [Part.fab, Part.prism]
  | .forceCapture .. =>
    partSet [Part.regs, Part.cnt, Part.mem, Part.memErr, Part.hostMem, Part.arrived, Part.usTick, Part.fab, Part.memc,
      Part.evt, Part.prism, Part.unowned]
  | .specClose .. =>
    partSet [Part.arrived, Part.fab, Part.prism, Part.unowned]
  | .calStart .. | .calAbort .. =>
    partSet [Part.regs, Part.cnt, Part.evt, Part.cal]
  | .calRecordDone .. =>
    partSet [Part.regs, Part.cnt, Part.mem, Part.memErr, Part.hostMem, Part.usTick, Part.fab, Part.memc, Part.evt, Part.cal]
  | .coreMapWrite .. =>
    partSet [Part.regs, Part.cnt, Part.mem, Part.memErr, Part.hostMem, Part.coreMap, Part.usTick, Part.fab, Part.memc,
      Part.evt, Part.cores]
  | .spareCopy .. =>
    partSet [Part.regs, Part.cnt, Part.evt, Part.spareJobs]
  | .spareCopyDone .. =>
    partSet [Part.regs, Part.cnt, Part.mem, Part.memErr, Part.usTick, Part.evt, Part.spareJobs]
  | .interruptEntry .. =>
    partSet [Part.cnt, Part.cores]
  | .asyncWerr .. | .dbgHaltReq .. =>
    partSet [Part.regs, Part.cnt, Part.mem, Part.memErr, Part.hostMem, Part.usTick, Part.fab, Part.memc, Part.evt,
      Part.cores]
  | .dbgStep .. =>
    partSet [Part.regs, Part.cnt, Part.evt, Part.cores]
  | .bundleCommit .. | .subtileBoundary .. =>
    partSet [Part.mxc]
  | .bundleSquash .. =>
    partSet [Part.regs, Part.cnt, Part.memErr, Part.usTick, Part.memc, Part.evt, Part.mxc, Part.mxCtx]
  | .mxcOpDone .. =>
    partSet [Part.regs, Part.cnt, Part.mem, Part.memErr, Part.hostMem, Part.freeCtr, Part.usTick, Part.fab, Part.memc,
      Part.evt, Part.mxc, Part.mxCtx]
  | .mxcFire .. =>
    partSet [Part.regs, Part.cnt, Part.mem, Part.memErr, Part.hostMem, Part.arrived, Part.usTick, Part.fab, Part.memc,
      Part.evt, Part.mxc, Part.mxCtx, Part.unowned]
  | .ctxCancel .. =>
    partSet [Part.regs, Part.cnt, Part.mem, Part.memErr, Part.hostMem, Part.usTick, Part.fab, Part.memc, Part.evt, Part.mxc,
      Part.mxCtx]
  | .rdresp .. | .wrresp .. =>
    partSet [Part.regs, Part.cnt, Part.mem, Part.memErr, Part.hostMem, Part.freeCtr, Part.rdOut, Part.usTick, Part.fab,
      Part.memc, Part.evt, Part.dma, Part.dmaEng, Part.cuw]
  | .tokenPacket .. =>
    partSet [Part.regs, Part.cnt, Part.memErr, Part.freeCtr, Part.usTick, Part.disp, Part.fab, Part.evt]
  | .firePacket .. =>
    partSet [Part.regs, Part.cnt, Part.mem, Part.memErr, Part.hostMem, Part.freeCtr, Part.arrived, Part.usTick, Part.fab,
      Part.memc, Part.pwr, Part.clk, Part.evt, Part.ofdm, Part.fec, Part.unowned]
  | .stream .. =>
    partSet [Part.regs, Part.cnt, Part.memErr, Part.freeCtr, Part.usTick, Part.evt]
  | .requestTimeout .. =>
    partSet [Part.regs, Part.cnt, Part.mem, Part.memErr, Part.hostMem, Part.rdOut, Part.usTick, Part.fab, Part.memc,
      Part.evt, Part.dma, Part.dmaEng, Part.cuw]
  | .linkDown .. | .flipCmd .. | .ltCtrlWrite .. =>
    partSet [Part.regs, Part.cnt, Part.fab, Part.evt]
  | .spareRemap .. =>
    partSet [Part.regs, Part.fab]
  | .linkReroute .. | .lanternStart .. | .fabricLinkUp .. =>
    partSet [Part.fab]
  | .tblCopy .. | .tblDataWrite .. =>
    partSet [Part.regs, Part.cnt, Part.memErr, Part.fab, Part.evt]
  | .epochFlip | .epochDrained =>
    partSet [Part.regs, Part.cnt, Part.fab]
  | .ringSegmentBreak .. =>
    partSet [Part.regs, Part.fab, Part.evt]
  | .ringAccessTimeout .. =>
    partSet [Part.regs, Part.cnt, Part.rdOut, Part.fab, Part.evt]
  | .kick .. | .abort .. =>
    partSet [Part.regs, Part.cnt, Part.fab, Part.evt, Part.dma]
  | .clear .. =>
    partSet [Part.regs, Part.cnt, Part.evt, Part.dma]
  | .dmaFire .. =>
    partSet [Part.regs, Part.cnt, Part.arrived, Part.fab, Part.dma, Part.unowned]
  | .haltComplete .. =>
    partSet [Part.regs, Part.cnt, Part.mem, Part.memErr, Part.hostMem, Part.usTick, Part.fab, Part.memc, Part.evt, Part.dma]
  | .arrayScrub .. | .dramScrub .. =>
    partSet [Part.regs, Part.cnt, Part.mem, Part.memErr, Part.freeCtr, Part.usTick, Part.memc, Part.evt]
  | .repair .. | .fcGo .. =>
    partSet [Part.regs, Part.cnt, Part.memc, Part.evt]
  | .rrDone =>
    partSet [Part.regs, Part.cnt, Part.memErr, Part.usTick, Part.memc]
  | .bankPwrWrite .. =>
    partSet [Part.regs, Part.holdWr, Part.cnt, Part.mem, Part.memErr, Part.evt]
  | .dramEnable .. =>
    partSet [Part.regs, Part.cnt, Part.mem, Part.memErr, Part.memc, Part.evt]
  | .dramInitDone .. =>
    partSet [Part.regs, Part.memc, Part.evt]
  | .freqChange .. =>
    partSet [Part.regs, Part.arrived, Part.fab, Part.memc]
  | .fcDone .. =>
    partSet [Part.regs, Part.cnt, Part.fab, Part.memc]
  | .fcFail .. =>
    partSet [Part.regs, Part.cnt, Part.fab, Part.memc, Part.evt]
  | .dramRefresh .. =>
    partSet [Part.cnt, Part.freeCtr, Part.memc]
  | .cdrUnlock .. =>
    partSet [Part.regs, Part.cnt]
  | .fomWindowEnd .. | .pstateDone .. | .controlWord .. | .trainDone .. =>
    partSet [Part.regs, Part.lanes]
  | .retrain .. | .recoveryDone .. =>
    partSet [Part.regs, Part.cnt, Part.evt, Part.lanes, Part.cuw]
  | .handshake .. =>
    partSet [Part.regs, Part.evt, Part.lanes, Part.cuw]
  | .linkUp .. =>
    partSet [Part.regs, Part.evt, Part.cuw]
  | .cuwickFrame .. =>
    partSet [Part.regs, Part.cnt, Part.fab, Part.evt, Part.cuw]
  | .recovery =>
    partSet [Part.cnt, Part.cuw]
  | .autoRetry =>
    partSet [Part.regs, Part.cnt, Part.lanes, Part.cuw]
  | .frameReceive .. =>
    partSet [Part.regs, Part.cnt, Part.mem, Part.memErr, Part.hostMem, Part.freeCtr, Part.usTick, Part.fab, Part.memc,
      Part.evt, Part.pkt, Part.tm, Part.pcie, Part.phys, Part.fapi]
  | .flowLoad .. =>
    partSet [Part.regs, Part.cnt, Part.memErr, Part.usTick, Part.memc, Part.evt, Part.pkt]
  | .winClose .. | .jobDone .. =>
    partSet [Part.regs, Part.cnt, Part.mem, Part.memErr, Part.hostMem, Part.usTick, Part.fab, Part.memc, Part.evt, Part.pkt]
  | .uSend .. | .cSend .. | .frame .. =>
    partSet [Part.regs, Part.cnt, Part.mem, Part.memErr, Part.hostMem, Part.usTick, Part.fab, Part.memc, Part.evt, Part.pkt,
      Part.tm]
  | .paramRequest .. | .configRequest .. | .startRequest .. | .stopRequest .. | .dlTtiRequest .. | .ulTtiRequest ..
    | .ulDciRequest .. | .txDataRequest .. | .lnxStopRequest .. | .lnxStatsRequest .. | .slotIndication .. =>
    partSet [Part.regs, Part.cnt, Part.hostMem, Part.evt, Part.pcie, Part.phys, Part.fapi]
  | .stopTimeout .. =>
    partsBut [Part.coreMap, Part.fuses, Part.freeCtr, Part.rdOut, Part.arrived, Part.pwr, Part.lemc]
  | .h2dTailWrite .. =>
    partSet [Part.regs, Part.cnt, Part.evt, Part.tm, Part.pcie]
  | .hostFire .. =>
    partSet [Part.regs, Part.cnt, Part.hostMem, Part.arrived, Part.fab, Part.evt, Part.pcie, Part.unowned]
  | .tokenIn .. | .tokenDone .. | .srcRouteWrite .. =>
    partSet [Part.regs, Part.cnt, Part.fab, Part.evt, Part.pcie]
  | .tmEnqueue | .portFree .. | .frameEligible .. | .haSelect .. | .haSelectTimeout .. =>
    partSet [Part.regs, Part.cnt, Part.mem, Part.memErr, Part.hostMem, Part.freeCtr, Part.usTick, Part.fab, Part.memc,
      Part.evt, Part.pkt, Part.tm]
  | .depthSample =>
    partSet [Part.regs, Part.tm]
  | .meterWrite .. =>
    partSet [Part.regs, Part.cnt, Part.evt, Part.tm]
  | .adjNs .. | .setGo .. | .tcmpArm .. =>
    partSet [Part.regs, Part.cnt, Part.time, Part.evt]
  | .tcmpFire .. =>
    partSet [Part.regs, Part.cnt, Part.time, Part.disp, Part.fab, Part.dma]
  | .ppsInEdge .. =>
    partSet [Part.regs, Part.cnt, Part.time]
  | .ppsLoss =>
    partSet [Part.regs, Part.time, Part.evt]
  | .ppsOutRise | .ppsOutFall =>
    partSet [Part.time]
  | .pdReqOn .. | .pdReqRetain .. | .pdReqOff .. | .grpReqOn .. | .grpReqRetain .. | .grpReqOff .. | .quiesceTimeout .. =>
    partsBut [Part.coreMap, Part.fuses, Part.freeCtr, Part.rdOut, Part.arrived, Part.lemc, Part.phys, Part.fapi]
  | .entryMet .. =>
    partSet [Part.regs, Part.cnt, Part.pwr, Part.clk]
  | .transitionDone .. | .pgFail .. | .selfTestDone .. =>
    partsBut [Part.fuses, Part.freeCtr, Part.rdOut, Part.arrived, Part.lemc, Part.phys, Part.fapi]
  | .wake .. =>
    partSet [Part.regs, Part.cnt, Part.pwr, Part.clk, Part.evt]
  | .cdFreqWrite .. =>
    partSet [Part.regs, Part.cnt, Part.clk, Part.evt]
  | .avsSettled | .pllSlewStep .. =>
    partSet [Part.regs, Part.cnt, Part.clk]
  | .avsFail =>
    partSet [Part.regs, Part.clk, Part.evt]
  | .holdover .. =>
    partSet [Part.regs, Part.cnt, Part.clk, Part.evt, Part.links]
  | .holdoverExit =>
    partSet [Part.regs, Part.clk]
  | .sourceAssert .. | .report .. =>
    partSet [Part.regs, Part.cnt, Part.usTick, Part.fab, Part.evt, Part.dfe, Part.pcie]
  | .sourceDeassert .. | .fatalResetDelay | .echoWindowEnd .. =>
    partSet [Part.evt]
  | .fatal .. =>
    partSet [Part.regs, Part.cnt, Part.fab, Part.evt, Part.dfe, Part.pcie]
  | .poreset | .vddAonBrownout | .wreset | .rstCmdWarm .. | .fatalReset | .wdogExpiry =>
    partsBut [Part.hostMem, Part.fuses, Part.freeCtr, Part.fapi]
  | .pcieReset =>
    partSet [Part.regs, Part.holdRd, Part.holdWr, Part.lanes, Part.pcie, Part.boot]
  | .wdogHalf | .resetRelease .. | .flDone .. | .mailboxDone .. =>
    partSet [Part.regs, Part.boot]
  | .wdogKick .. | .verifyCfg .. | .verifyCal .. =>
    partSet [Part.regs, Part.cnt, Part.evt, Part.boot]
  | .imageSelected =>
    partSet [Part.regs, Part.cnt, Part.mem, Part.memErr, Part.hostMem, Part.fuses, Part.usTick, Part.fab, Part.memc,
      Part.evt, Part.cores, Part.boot]
  | .bootReady =>
    partSet [Part.regs, Part.cnt, Part.mem, Part.memErr, Part.hostMem, Part.coreMap, Part.usTick, Part.disp, Part.fab,
      Part.memc, Part.evt, Part.links, Part.chains, Part.subs, Part.dfe, Part.prism, Part.cal, Part.cores, Part.lanes,
      Part.cuw, Part.boot]
  | .pcieGo .. =>
    partSet [Part.regs, Part.cnt, Part.mem, Part.memErr, Part.hostMem, Part.usTick, Part.fab, Part.memc, Part.evt,
      Part.cores, Part.boot]
  | .flRead .. | .flProgram .. | .flErase .. | .cfgGo .. | .signCal .. | .attest .. =>
    partSet [Part.regs, Part.cnt, Part.mem, Part.memErr, Part.hostMem, Part.usTick, Part.fab, Part.memc, Part.evt, Part.boot]
  | .cfgPersist =>
    partSet [Part.boot]
  | .confirm .. | .fuseRevoke .. | .fuseLock .. =>
    partSet [Part.regs, Part.cnt, Part.fuses, Part.evt, Part.boot]
  | .debugChallenge .. =>
    partSet [Part.regs, Part.cnt, Part.mem, Part.memErr, Part.hostMem, Part.freeCtr, Part.usTick, Part.fab, Part.memc,
      Part.evt, Part.boot]
  | .debugUnlock .. =>
    partSet [Part.regs, Part.cnt, Part.memErr, Part.usTick, Part.memc, Part.evt, Part.boot]
  | .fuseKey .. =>
    partSet [Part.regs, Part.cnt, Part.memErr, Part.fuses, Part.usTick, Part.memc, Part.evt, Part.boot]
  | .pageIdleClose .. =>
    partSet [Part.memc]
  | .msixAck .. =>
    partSet [Part.regs, Part.cnt, Part.evt, Part.pcie]

end Sys2Proof.Machine
end

