-- ==== Sys2Proof/WellFormed.lean ====
section
/-! DEFINITION. Commands whose operands are of the sizes that the spec gives what they stand for. -/

namespace Sys2Proof

/-- A read asks for 1–256 bytes (R558). A queued request has its size already. -/
def RdReq.wf : RdReq → Bool
  | .fresh _ _ len => decide (1 ≤ len) && decide (len ≤ 256)
  | .queued _ => true

/-- A write carries 1–64 bytes (R558). -/
def WrReq.wf : WrReq → Bool
  | .fresh _ _ data _ => decide (1 ≤ data.length) && decide (data.length ≤ 64)
  | .queued _ => true

/-- A command is well formed: a request of an outside initiator fits its packet (R558), a Cuwick frame has 144 bytes
(R693), tokens that arrive in one cycle are at least one, a low of ~JSYNC lasts at least one frame (R178). -/
def Instr.wf : Instr → Bool
  | .rd q _ _ => q.wf
  | .wr q _ _ => q.wf
  | .cuwickFrame bytes => decide (bytes.length = 144)
  | .dispToken ts => !ts.isEmpty
  | .jsyncLow _ frames => decide (1 ≤ frames)
  | _ => true

end Sys2Proof
end

