-- ==== Sys2Proof/Certificates/Slice0/Obligations.lean ====
section
/-! DEFINITION. The statements for the provers. Those that say what a command does name the operations of the model that its
rules describe, and hold under conditions on the state and the operands alone. -/

open Sys2Proof Sys2Proof.Machine

/-- A step with a command at the front of the queue is exec of that command on the state with the queue's rest. -/
def Obligations.StepRunsTheFrontCommand : Prop :=
  ∀ (c : Instr) (q : List Instr) (s : State), step { s with pending := c :: q } = exec c { s with pending := q }

/-- With no command waiting a step is one tick of the 983.04 MHz clock: where the sample PLL is locked FREE counts one and device
time takes INCR; where it is not, neither moves. The samples that fall in
the tick move with it; a PHY whose stop time has come ends its stop; the command queue, memory, the fabric, the cores, the
dispatcher, the traffic blocks, power, boot and the fuses do not change. With no DFE enabled, no link RUNNING, no OFDM operation
and no PHY, nothing but the time changes; so too without the PLL and with no PHY. The tick on the empty queue is the model's
choice (log entry 5); what a tick does to the time is R739 and R740. -/
def Obligations.IdleStepTicks : Prop :=
  ∀ s : State, s.pending = [] → ∃ t, step s = .next t ∧
    t.time = (if pllOn s 19 then { s.time with free := s.time.free + 1, made := s.time.made + 1, acc := s.time.acc + incr s }
      else { s.time with free := s.time.free + 1 }) ∧
    t = { s with time := t.time, regs := t.regs, cnt := t.cnt, memErr := t.memErr, hostMem := t.hostMem, usTick := t.usTick,
                 memc := t.memc, evt := t.evt, links := t.links, chains := t.chains, dfe := t.dfe, ofdm := t.ofdm,
                 prism := t.prism, pcie := t.pcie, phys := t.phys, fapi := t.fapi } ∧
    (s.phys = [] →
      (pllOn s 19 = false ∨ ∀ k < 4, groupLive s k = false ∧ (ofdmOf s k).ops = []) → t = { s with time := t.time })

/-- A command is answered by a next state: no command of the table stops the model, by a fault or a refusal. -/
def Obligations.EveryCommandAnswers : Prop :=
  ∀ (i : Instr) (s : State), ∃ t, exec i s = .next t

/-- No command changes the queue: a step takes the command at the front and leaves the rest, in its order. -/
def Obligations.QueueIsFirstInFirstOut : Prop :=
  (∀ (i : Instr) (s t : State), exec i s = .next t → t.pending = s.pending) ∧
  (∀ (s t : State), step s = .next t → t.pending = s.pending.tail)

/-- Sound states stay sound: from every state whose memories are in canonical form and whose maps have rising keys, a step answers
such a state. -/
def Obligations.StepKeepsSound : Prop :=
  ∀ (s t : State), Sound s → step s = .next t → Sound t

/-- The state after reset is sound. -/
def Obligations.ResetIsSound : Prop := Sound State.reset

/-- A fuse bit only ever goes from 0 to 1 (R836): over every step, from every state, every fuse bit that is blown stays blown,
and what Kerfodra programmed stays as it is. -/
def Obligations.FuseBitsOnlyRise : Prop :=
  ∀ (s t : State), step s = .next t → fusesGrow s.fuses t.fuses

/-- The frame of every command over the stores: registers, holding registers, counters, memory, the error marks of memory, the
host's memory, the mirror map and the data returned. A command whose footprint leaves a store out leaves it as it was. -/
def Obligations.FrameOfStores : Prop :=
  ∀ (i : Instr) (s t : State), exec i s = .next t →
    ((footprint i).testBit Part.regs = false → t.regs = s.regs) ∧
    ((footprint i).testBit Part.holdRd = false → t.holdRd = s.holdRd) ∧
    ((footprint i).testBit Part.holdWr = false → t.holdWr = s.holdWr) ∧
    ((footprint i).testBit Part.cnt = false → t.cnt = s.cnt) ∧
    ((footprint i).testBit Part.mem = false → t.mem = s.mem) ∧
    ((footprint i).testBit Part.memErr = false → t.memErr = s.memErr) ∧
    ((footprint i).testBit Part.hostMem = false → t.hostMem = s.hostMem) ∧
    ((footprint i).testBit Part.coreMap = false → t.coreMap = s.coreMap) ∧
    ((footprint i).testBit Part.freeCtr = false → t.freeCtr = s.freeCtr) ∧
    ((footprint i).testBit Part.rdOut = false → t.rdOut = s.rdOut)

/-- The frame of every command over the common blocks and the ports: the fuses, boot and security, power, clocks, time, the event
controller, the fabric and the memory controllers, the serial lanes, Cuwick, the packet engine, the traffic manager, the PCIe
endpoint, the PHYs and the messages to the host. -/
def Obligations.FrameOfServices : Prop :=
  ∀ (i : Instr) (s t : State), exec i s = .next t →
    ((footprint i).testBit Part.fuses = false → t.fuses = s.fuses) ∧
    ((footprint i).testBit Part.boot = false → t.boot = s.boot) ∧
    ((footprint i).testBit Part.pwr = false → t.pwr = s.pwr) ∧
    ((footprint i).testBit Part.clk = false → t.clk = s.clk) ∧
    ((footprint i).testBit Part.time = false → t.time = s.time) ∧
    ((footprint i).testBit Part.usTick = false → t.usTick = s.usTick) ∧
    ((footprint i).testBit Part.evt = false → t.evt = s.evt) ∧
    ((footprint i).testBit Part.fab = false → t.fab = s.fab) ∧
    ((footprint i).testBit Part.memc = false → t.memc = s.memc) ∧
    ((footprint i).testBit Part.lanes = false → t.lanes = s.lanes) ∧
    ((footprint i).testBit Part.cuw = false → t.cuw = s.cuw) ∧
    ((footprint i).testBit Part.pkt = false → t.pkt = s.pkt) ∧
    ((footprint i).testBit Part.tm = false → t.tm = s.tm) ∧
    ((footprint i).testBit Part.pcie = false → t.pcie = s.pcie) ∧
    ((footprint i).testBit Part.phys = false → t.phys = s.phys) ∧
    ((footprint i).testBit Part.fapi = false → t.fapi = s.fapi)

/-- The frame of every command over the units: converter links, LEMCs, the chains' samples, mirror links, DFE, OFDM, FEC, Prism,
calibration, the copies to spare cores, the dispatcher, the fires on their way and waiting, the cores, the MXCs and the DMA. -/
def Obligations.FrameOfUnits : Prop :=
  ∀ (i : Instr) (s t : State), exec i s = .next t →
    ((footprint i).testBit Part.links = false → t.links = s.links) ∧
    ((footprint i).testBit Part.lemc = false → t.lemc = s.lemc) ∧
    ((footprint i).testBit Part.chains = false → t.chains = s.chains) ∧
    ((footprint i).testBit Part.subs = false → t.subs = s.subs) ∧
    ((footprint i).testBit Part.dfe = false → t.dfe = s.dfe) ∧
    ((footprint i).testBit Part.ofdm = false → t.ofdm = s.ofdm) ∧
    ((footprint i).testBit Part.fec = false → t.fec = s.fec) ∧
    ((footprint i).testBit Part.prism = false → t.prism = s.prism) ∧
    ((footprint i).testBit Part.cal = false → t.cal = s.cal) ∧
    ((footprint i).testBit Part.spareJobs = false → t.spareJobs = s.spareJobs) ∧
    ((footprint i).testBit Part.disp = false → t.disp = s.disp) ∧
    ((footprint i).testBit Part.arrived = false → t.arrived = s.arrived) ∧
    ((footprint i).testBit Part.unowned = false → t.unowned = s.unowned) ∧
    ((footprint i).testBit Part.cores = false → t.cores = s.cores) ∧
    ((footprint i).testBit Part.mxc = false → t.mxc = s.mxc) ∧
    ((footprint i).testBit Part.mxCtx = false → t.mxCtx = s.mxCtx) ∧
    ((footprint i).testBit Part.dma = false → t.dma = s.dma) ∧
    ((footprint i).testBit Part.dmaEng = false → t.dmaEng = s.dmaEng)

/-- REG_WRITE completes (R12): at every offset of a page that is no half of a pair and whose write has no effect of its own
(`plainWrite`), the write does what the access codes of its fields say and nothing else, and what the hardware sets in the same
cycle is set after it (R13); a register whose fields are RW then holds the bits written. EVT_MASK of every header holds the
value written; each 1 written to EVT_RAW clears its bit, each 0 leaves it, and the bits that the hardware sets in the same
cycle end at 1 (R13); a write to ID, an RO register, leaves every register as it reads; a write of 1 to ERR_CAUSE.VALID in the
cycle of an error leaves that error captured (R65). -/
def Obligations.RegWriteFollowsAccessCodes : Prop :=
  ∀ (a : Acc) (p : Fin 1024) (v : Word) (hw : Coincide) (s : State), reaches s a p →
    (∀ (k : Kind) (r : Fin 1024), pageKind p = some k → plainWrite k (4 * r) = true → isLo p (4 * r) = false →
      isHi p (4 * r) = false →
      exec (.regWrite a p r ⟨v, hw⟩) s = .next (coincide p (4 * r) hw (storeReg p (4 * r) 0 v s)) ∧
      ∀ d : RegDef, findReg p (4 * r) = some d → d.acc = .rw → d.acc2 = .ro → kup s.regs = true →
        ∃ t, exec (.regWrite a p r ⟨v, hw⟩) s = .next t ∧ t = { s with regs := t.regs } ∧
          getReg t p (4 * r) = (getReg s p (4 * r) &&& ~~~(w32 d.mask) ||| v &&& w32 d.mask) ∧
          ∀ (q : Fin 1024) (off : Fin 4096) (i : Nat), (q.val, off.val, i) ≠ (p.val, 4 * r.val, 0) →
            getRegI t q off i = getRegI s q off i) ∧
    ((pageKind p).isSome → p.val ≠ 0 → p.val < 512 →
      exec (.regWrite a p 6 ⟨v, hw⟩) s = .next (setReg s p 0x18 v) ∧
      (kup s.regs = true → pageKind p ∉ [some .nlane, some .plane, some .klane, some .dma, some .time, some .gpio] →
        ∃ t, exec (.regWrite a p 5 ⟨v, hw⟩) s = .next t ∧ t = { s with regs := t.regs } ∧
          getReg t p 0x14 = (getReg s p 0x14 &&& ~~~v ||| hw.sets)) ∧
      (kup s.regs = true → ∃ t, exec (.regWrite a p 0 ⟨v, hw⟩) s = .next t ∧ t = { s with regs := t.regs } ∧
        ∀ (q : Fin 1024) (off : Fin 4096) (i : Nat), getRegI t q off i = getRegI s q off i) ∧
      (kup s.regs = true → bit v 31 = true →
        (∃ t, exec (.regWrite a p 8 ⟨v, { hw with err := none }⟩) s = .next t ∧ bit (getReg t p 0x20) 31 = false ∧
          bit (getReg t p 0x20) 30 = false) ∧
        ∀ cls code src addr, ∃ t, exec (.regWrite a p 8 ⟨v, { hw with err := some (cls, code, src, addr) }⟩) s = .next t ∧
          getReg t p 0x20 = Err.image ⟨cls, code, 0, src, addr⟩))

/-- A write of a register whose page is not ON is discarded and captured by the power controller (R48); one that no page
answers is captured by the ROOT page (R45). -/
def Obligations.RegWriteOffAndUnmapped : Prop :=
  ∀ (a : Acc) (p r : Fin 1024) (v : Word) (hw : Coincide) (s : State),
    ((pageKind p).isSome → bootGated s a p = false → pageOn s p = false →
      exec (.regWrite a p r ⟨v, hw⟩) s =
        .next (incCnt (captureErr (setEvt s 0x004 2) 0x004 ⟨3, 0x01, 0, initPage s a.who, some (regAddr p (4 * r))⟩) 0x004 5)) ∧
    (pageKind p = none →
      exec (.regWrite a p r ⟨v, hw⟩) s = .next (captureErr s 0x0FE ⟨3, 0x08, 0, initPage s a.who, some (regAddr p (4 * r))⟩))

/-- RC_READ, LO_READ, LO_WRITE and HI_WRITE complete (R12, R73, R77, R78): a read of CRC_CNT, an RC register, answers its value
and clears it, and an increment of the same cycle counts after the clear (R14); a read of ERR_ADDR_LO answers it and copies
ERR_ADDR_HI into the holding register of the reader's path; a write of MB_ARG0_LO is held for its path and changes no register;
the write of MB_ARG0_HI then commits both halves, or the new _HI alone where no _LO is held. -/
def Obligations.PairedAndClearingAccessesComplete : Prop :=
  ∀ (a : Acc) (v : Word) (s : State),
    (∀ (p : Fin 1024) (hw : Coincide), pageKind p = some .xlane → reaches s a p →
      (hw.inc = false → exec (.rcRead a p ⟨0x48, hw⟩) s = .next (answer a (getReg s p 0x120) (setReg s p 0x120 0))) ∧
      (hw.inc = true → kup s.regs = true →
        ∃ t, exec (.rcRead a p ⟨0x48, hw⟩) s = .next t ∧ t = { answer a (getReg s p 0x120) s with regs := t.regs } ∧
          getReg t p 0x120 = 1)) ∧
    (∀ p : Fin 1024, (pageKind p).isSome → p.val < 512 → reaches s a p →
      exec (.loRead a p 9) s =
        .next (answer a (getReg s p 0x24) { s with holdRd := kset 0 s.holdRd (p * 4 + accPath a) (getReg s p 0x28) })) ∧
    (reaches s a 0x00C →
      exec (.loWrite a 0x00C 0x41 v) s =
        .next { s with holdWr := kset none s.holdWr ((0x00C * 4096 + 0x104) * 4 + accPath a) (some v) }) ∧
    (reaches s a 0x00C → ∀ lo, kget none s.holdWr ((0x00C * 4096 + 0x104) * 4 + accPath a) = some lo →
      exec (.hiWrite a 0x00C 0x42 v) s =
        .next (setReg (setReg { s with holdWr := kset none s.holdWr ((0x00C * 4096 + 0x104) * 4 + accPath a) none } 0x00C 0x104 lo)
          0x00C 0x108 (getReg s 0x00C 0x108 &&& 0xFFFF0000 ||| v &&& 0xFFFF))) ∧
    (reaches s a 0x00C → kget none s.holdWr ((0x00C * 4096 + 0x104) * 4 + accPath a) = none → kup s.regs = true →
      ∃ t, exec (.hiWrite a 0x00C 0x42 v) s = .next t ∧ t = { s with regs := t.regs } ∧
        getReg t 0x00C 0x108 = (getReg s 0x00C 0x108 &&& 0xFFFF0000 ||| v &&& 0xFFFF) ∧
        (∀ (q : Fin 1024) (off : Fin 4096) (i : Nat), (q.val, off.val, i) ≠ (0x00C, 0x108, 0) →
          getRegI t q off i = getRegI s q off i))

/-- CTRL_ENABLE_SET and CTRL_ENABLE_CLEAR complete (R53, R55, R57) on the pages of these blocks: ENABLE rises with
STATUS.ENABLED and takes the mode of MODE.FUNC into HA_ACTIVE; ENABLE falls with STATUS.ENABLED. Nothing else changes. -/
def Obligations.EnableAndDisableComplete : Prop :=
  ∀ (a : Acc) (p : Fin 512) (k : Kind) (s : State), pageKind p = some k →
    k ∈ [Kind.mxc, .ofdm, .fec, .tm, .pkt, .time, .evtc, .pcie, .ssram, .rtr, .gpio, .secmb] → reaches s a p →
    (resetting s p = false → ctrlEnable s p = false →
      exec (.ctrlEnableSet a p) s =
        .next (modReg (modReg s p 0x08 fun w => putBit w 0 true) p 0x10
          fun w => putBit (putBit w 0 true) 3 (bit (getReg s p 0x0C) 0))) ∧
    (ctrlEnable s p = true →
      exec (.ctrlEnableClear a p) s =
        .next (modReg (modReg s p 0x08 fun w => putBit w 0 false) p 0x10 fun w => putBit w 0 false))

/-- SOFT_RESET and SOFT_RESET_DONE complete (R58, R885) on every page that has CTRL: the reset clears ENABLE, shows SOFT_RESET and
RESETTING, and returns every register of the page to its reset value but those that R58 keeps and those that show a level of
the outside; its completion clears SOFT_RESET and RESETTING. -/
def Obligations.SoftResetCompletes : Prop :=
  ∀ (p : Fin 512) (s : State), (pageKind p).isSome → p.val ≠ 0 → awaitsFabric s p = false →
    (∀ a : Acc, reaches s a p → resetting s p = false →
      ∃ t, exec (.softReset a p) s = .next t ∧ getReg t p 0x08 = 2 ∧ getReg t p 0x10 = 4 ∧
        ∀ (off : Fin 4096) (i : Nat), softKeeps p off = false → off.val ≠ 0x08 → off.val ≠ 0x10 →
          getRegI t p off i = regReset p off) ∧
    (resetting s p = true →
      ∃ t, exec (.softResetDone p) s = .next t ∧ bit (getReg t p 0x08) 1 = false ∧ resetting t p = false ∧
        ctrlEnable t p = false)

/-- CE_LEAK, SNAPSHOT_COPY and SNAP_SEQ_UPDATE complete (R69, R86, R88): the microsecond tick that FREE has reached takes one
count off the bucket of every page whose LEAK_SHIFT divides it and leaves the others; at the copy tick every page that is ON
takes the sequence number and its counters; DEVINFO.SNAP_SEQ takes the number after that. -/
def Obligations.LeakAndSnapshotComplete : Prop :=
  ∀ s : State, kup s.regs = true →
    (98304 * (s.usTick + 1) ≤ 100 * freeNow s →
      ∃ t, exec .ceLeak s = .next t ∧ t.usTick = s.usTick + 1 ∧
        ∀ p ∈ headerPages, bits (getReg t p 0x30) 15 0 =
          if (s.usTick + 1) % 2 ^ min 20 (bits (getReg s p 0x34) 20 16) = 0 then bits (getReg s p 0x30) 15 0 - 1
          else bits (getReg s p 0x30) 15 0) ∧
    (∀ x, s.time.snaps = [x] → x.copied = false → 1000 ≤ nsSince s x.at_ →
      ∃ t, exec .snapshotCopy s = .next t ∧ t.time.snaps = [{ x with copied := true }] ∧
        ∀ p ∈ headerPages, pageOn s p = true →
          getReg t p 0x40 = w32 x.seq ∧ ∀ i < snapCount p, getReg t p (0x80 + 4 * i) = getCnt s p i) ∧
    (∀ x, s.time.snaps = [x] → x.copied = true → 1256 ≤ nsSince s x.at_ →
      ∃ t, exec .snapSeqUpdate s = .next t ∧ getReg t 0x000 0x118 = w32 x.seq ∧ t.time.snaps = [])

/-- OPEN, CLOSE and FORCE complete (R119, R120, R122, R126): in hardware mode an open port opens a FREE instance that fits below
OPEN_LIMIT while the headroom is empty; closes an OPEN or FAILED one, which frees its entries and leaves it CLOSING while
fires are outstanding and FREE otherwise; and makes a CLOSING or FAILED one FREE by FORCE. OPEN_STS takes DONE and RESULT = OK. -/
def Obligations.OpenPortsComplete : Prop :=
  ∀ (a : Acc) (n : Fin 9) (s : State), reaches s a 0x002 → haActive s 0x002 = false →
    let i := bits (getReg s 0x002 (0x150 + 0x10 * n)) 15 0
    let ok (s : State) : State := setReg s 0x002 (0x15C + 0x10 * n) 0x80000000
    (∀ peak, bits (getReg s 0x002 (0x154 + 0x10 * n)) 15 0 = peak → 1 ≤ peak → peak ≤ 1024 → (instRec s i).st = .free →
      reserved s + peak ≤ openLimit s → headroom s = 0 →
      exec (.openInst a n) s =
        .next (ok { s with disp := { s.disp with insts := kset InstRec.init s.disp.insts i ⟨.open_, peak, 0⟩ } })) ∧
    (((instRec s i).st = .open_ ∨ (instRec s i).st = .failed) →
      ((instRec s i).outstanding ≠ 0 →
        exec (.closeInst a n) s = .next (ok { s with disp := { s.disp with
          entries := s.disp.entries.filter fun e => !decide (e.inst = i)
          insts := kset InstRec.init s.disp.insts i { instRec s i with st := .closing } } })) ∧
      ((instRec s i).outstanding = 0 →
        ∃ t, exec (.closeInst a n) s = .next t ∧ t.disp = { s.disp with
          entries := s.disp.entries.filter fun e => !decide (e.inst = i)
          insts := kset InstRec.init s.disp.insts i InstRec.init })) ∧
    (((instRec s i).st = .closing ∨ (instRec s i).st = .failed) →
      ∃ t, exec (.forceInst a n) s = .next t ∧
        t.disp.insts = kset InstRec.init s.disp.insts i InstRec.init ∧ (∀ e ∈ t.disp.entries, e.inst ≠ i))

/-- OPEN is refused where it would bring RESERVED above OPEN_LIMIT or a headroom entry is in use: RESULT = FULL, nothing else
changes but EVT_RAW.OPEN_REFUSED and SNAP_CNT5 (R121). -/
def Obligations.OpenRefusedWhenFull : Prop :=
  ∀ (a : Acc) (n : Fin 9) (s : State), reaches s a 0x002 → haActive s 0x002 = false →
    let peak := bits (getReg s 0x002 (0x154 + 0x10 * n)) 15 0
    1 ≤ peak → peak ≤ 1024 → (instRec s (bits (getReg s 0x002 (0x150 + 0x10 * n)) 15 0)).st = .free →
    (openLimit s < reserved s + peak ∨ headroom s ≠ 0) →
    exec (.openInst a n) s =
      .next (setReg (setEvt (incCnt s 0x002 5) 0x002 0) 0x002 (0x15C + 0x10 * n) 0x80000001)

/-- DISP_TOKEN completes (R102–R104, R106): of an OPEN instance with room, the first data token of an operation takes an entry;
the entry waits while a JOIN has ports without a token; a RACE is ready at once, whatever the port; and the last port of a
JOIN makes it ready. -/
def Obligations.TokenMatches : Prop :=
  ∀ (x : TokIn) (w : List Word) (s : State),
    let t := x.tok
    let k := t.template.toNat
    let i := t.inst.toNat
    let p := t.port.toNat
    blockRuns s 0x002 = true → haActive s 0x002 = false → enabled s 0x002 = true → s.disp.held = [] → s.disp.fetchQ = [] →
    t.kind = 0 → t.rsvd = 0 → t.flags.toNat % 16 = 0 →
    tokDone t = false → x.store = .clean → (instRec s i).st = .open_ → tmplCached s k = some w → tBad w = false → p < tPorts w →
    s.disp.entries.length < 32768 →
    (entryOf s k i = none → fireLive s k i = false → instEntries s i < (instRec s i).peak →
      ∃ u, exec (.dispToken [x]) s = .next u ∧
        ((tRace w = false ∧ 2 ≤ tPorts w) ∨ tRace w = true →
        u.disp.entries = s.disp.entries ++ [⟨k, i, setAt (List.replicate (tPorts w) none) p (some ⟨t.kind, t.payload⟩),
          if tRace w then .ready else .waiting, tRace w, tPool w, tUrg w, if tRace w then p else 0, s.time.free,
          if tRace w then s.disp.nextSeq else 0, w, []⟩])) ∧
    (∀ e, entryOf s k i = some e → e.phase = .waiting → e.race = false → errPort e = none → (e.ports[p]?) = some none →
      allArrived { e with ports := setAt e.ports p (some ⟨t.kind, t.payload⟩) } = true →
      ∃ u e', exec (.dispToken [x]) s = .next u ∧ e' ∈ u.disp.entries ∧ e'.tmpl = k ∧ e'.inst = i ∧ e'.phase = .ready ∧
        e'.ports = setAt e.ports p (some ⟨t.kind, t.payload⟩) ∧ e'.seq = s.disp.nextSeq ∧ e'.since = s.time.free)

/-- COMPLETION_TOKEN and INGRESS_UNSTALL complete (R97, R113, R124): a completion token of an OPEN instance returns its member's
credit and sends one token to every successor, in the class of its target, in list order. The unstall of a class takes the
oldest held token of the class into the dispatcher where the store has room, as a token of the ingress, and leaves it held where
there is none; a first token of an operation so takes its entry, and one of an instance that is not OPEN is discarded and
counted. In host-assisted mode (R150, R151) the oldest held token enters the ring once the ring is not full, and sets
HA_RING_FULL where it fills it. -/
def Obligations.CompletionAndUnstallComplete : Prop :=
  (∀ (t : Token) (cls : Fin 4) (w : List Word) (f : OutFire) (s : State),
    blockRuns s 0x002 = true → haActive s 0x002 = false → enabled s 0x002 = true → s.disp.held = [] → s.disp.fetchQ = [] →
    t.kind = 0 → t.rsvd = 0 → t.flags = 0x80 →
    (instRec s t.inst.toNat).st = .open_ → tmplCached s t.template.toNat = some w → tBad w = false → tLink w = none →
    (tSuccs w).any sClose = false → fireOf s t = some f → f.counted = true → f.cancel = false →
    ∃ u, exec (.completionToken t cls) s = .next u ∧
      u.disp.fires = dropFirst (fun g => decide (g = f)) s.disp.fires ∧
      u.disp.ingress = dropFirst (fun y => decide (y = (t, cls.val))) s.disp.ingress ++ (tSuccs w).map fun x =>
        ((⟨BitVec.ofNat 16 (bits x 31 16), t.inst, BitVec.ofNat 2 (bits x 15 14), 0, 0, 0, t.payload⟩ : Token),
          tUrg (tmplWords s (bits x 31 16)))) ∧
  (∀ (u : Fin 4) (t : Token) (s : State), blockRuns s 0x002 = true → haActive s 0x002 = false →
    s.disp.held.find? (fun h => h.2 = u.val) = some (t, u.val) →
    let r := { s with disp := { s.disp with held := dropFirst (fun x => decide (x = (t, u.val))) s.disp.held } }
    (32768 ≤ s.disp.entries.length → exec (.ingressUnstall u) s = .next s) ∧
    (s.disp.entries.length < 32768 →
      exec (.ingressUnstall u) s = .next (admitToken r t u.val .clean) ∧
      (enabled s 0x002 = false → tokDone t = false →
        exec (.ingressUnstall u) s = .next (incCnt r 0x002 (if tokTime t then 7 else 4))) ∧
      (∀ w, enabled s 0x002 = true → t.kind = 0 → t.rsvd = 0 → t.flags.toNat % 16 = 0 → tokDone t = false → s.disp.fetchQ = [] →
        tmplCached s t.template.toNat = some w → tBad w = false → t.port.toNat < tPorts w →
        ((instRec s t.inst.toNat).st ≠ .open_ →
          exec (.ingressUnstall u) s = .next (incCnt r 0x002 (if tokTime t then 7 else 4))) ∧
        ((instRec s t.inst.toNat).st = .open_ → entryOf s t.template.toNat t.inst.toNat = none →
          fireLive s t.template.toNat t.inst.toNat = false → tRace w = false → 2 ≤ tPorts w →
          ∃ v, exec (.ingressUnstall u) s = .next v ∧ v.disp.held = r.disp.held ∧
            v.disp.entries = s.disp.entries ++ [⟨t.template.toNat, t.inst.toNat,
              setAt (List.replicate (tPorts w) none) t.port.toNat (some ⟨t.kind, t.payload⟩), .waiting, false, tPool w, tUrg w, 0,
              s.time.free, 0, w, []⟩])))) ∧
  (∀ (u : Fin 4) (t : Token) (c : Nat) (s : State), blockRuns s 0x002 = true → haActive s 0x002 = true →
    s.disp.held.head? = some (t, c) → hostRingBad s = false → tokDone t = false →
    (hostRing.full s = true → exec (.ingressUnstall u) s = .next s) ∧
    (hostRing.full s = false →
      exec (.ingressUnstall u) s =
        let v := hostRing.push { s with disp := { s.disp with held := s.disp.held.tail } } (tokenBytes t)
        .next (if hostRing.full v then setEvt v 0x002 5 else v)))

/-- DISP_TEMPLATE_LOAD_DONE and TEMPLATE_FETCH_DONE complete (R94, R95): a load whose reads succeed and find at most 4,096
class-0 templates pins them and sets STATUS.ENABLED; a read of a template that a token waits for puts it in the cache where
it is used. -/
def Obligations.TemplateReadsComplete : Prop :=
  (∀ (s u : State) (ts : List (Nat × List Word)), s.disp.loading = true → blockRuns s 0x002 = true →
    loadTmpls none (loadSet { s with disp := { s.disp with loading := false } })
      { s with disp := { s.disp with loading := false } } [] = (u, .ok ts) → ts.length ≤ 4096 →
    exec (.dispTemplateLoadDone none) s =
      .next (setEnabled { u with disp := { u.disp with cache := ts, pinned := ts.length, fetched := [] } } 0x002 true)) ∧
  (∀ (t : BitVec 16) (tok : Token) (cls : Nat) (m : Mark) (s u : State) (d : List Byte), blockRuns s 0x002 = true →
    s.disp.fetchQ = [(tok, cls, m)] → s.disp.fetched = [] →
    tok.template = t → tmplCached s t.toNat = none → memRead s 0x002 (tmplAddr s t.toNat) 32 = (u, .ok, d) →
    u.disp = s.disp → (instRec s tok.inst.toNat).st = .free → tokDone tok = false →
    exec (.templateFetchDone t false) s =
      let w := (List.range 8).map (wordAt d)
      let v := if tBad w || decide (tPorts w ≤ tok.port.toNat) then malformed u
        else incCnt u 0x002 (if tokTime tok then 7 else 4)
      .next { v with disp := { (if tUsed w then cacheAdd u.disp t.toNat w else u.disp) with fetchQ := [] } })

/-- FIRE_ISSUE and AGE_PROMOTION complete (R102, R112, R113, R116): the one ready JOIN of a pool, with a member that may
take it, leaves the store and holds one of that member's credits, its instance has one more fire outstanding, and its record
is on its way or held or refused as the member's domain says; an operation of class 2 or 3 older than AGE_LIMIT rises one
class and its age begins again. -/
def Obligations.IssueAndPromotionComplete : Prop :=
  (∀ (pool : Fin 16) (e : Entry) (m : Nat) (s : State), s.disp.stopped = false → blockRuns s 0x002 = true →
    candidates s pool = [.entry e m] → e.race = false →
    ∃ u, exec (.fireIssue pool) s = .next u ∧
      u.disp.entries = s.disp.entries.filter (fun x => !(decide (x.tmpl = e.tmpl) && decide (x.inst = e.inst))) ∧
      u.disp.fires = s.disp.fires ++ [⟨e.tmpl % 2 ^ 16, e.inst % 2 ^ 16, e.pool % 16, m % 256,
        creditChan (e.pool % 16) (tOpcode e.words), false, true⟩] ∧
      u.disp.insts = kset InstRec.init s.disp.insts e.inst
        { instRec s e.inst with outstanding := (instRec s e.inst).outstanding + 1 } ∧
      u.disp.prev = kset 0 s.disp.prev e.tmpl (m + 1)) ∧
  (∀ (t inst : BitVec 16) (e : Entry) (s : State), entryOf s t.toNat inst.toNat = some e → e.phase = .ready → 2 ≤ e.cls →
    bits (getReg s 0x002 0x118) 15 0 ≠ 0 → usSince s e.since (bits (getReg s 0x002 0x118) 15 0) = true →
    exec (.agePromotion t inst) s =
      .next (incCnt (setEntry s { e with cls := e.cls - 1, since := s.time.free }) 0x002 11))

/-- VOTER_MINORITY, MINORITY_RELOAD_DONE and NO_MAJORITY complete (R144, R145): the minority is recorded, counted and captured, and
the dispatcher goes on; the end of the reload clears RELOAD; without a majority the dispatcher stops issuing, captures and
raises the fatal event. -/
def Obligations.VotersComplete : Prop :=
  ∀ s : State,
    (∀ r : Fin 3, bit (getReg s 0x002 0x134) 8 = false →
      exec (.voterMinority r) s =
        .next (captureErr (setReg (incCnt s 0x002 9) 0x002 0x134 (w32 (2 ^ 8 + 2 ^ r.val))) 0x002 ⟨5, 0x01, 0, 0x002, none⟩)) ∧
    exec .minorityReloadDone s = .next (setReg s 0x002 0x134 (putBit (getReg s 0x002 0x134) 8 false)) ∧
    (∃ t, exec .noMajority s = .next t ∧ t.disp = { s.disp with stopped := true } ∧
      t.evt.fatalPend = (captureErr (incCnt s 0x002 9) 0x002 ⟨5, 0x02, 0, 0x002, none⟩).evt.fatalPend ++ [1] ∧
      t.regs = (captureErr (incCnt s 0x002 9) 0x002 ⟨5, 0x02, 0, 0x002, none⟩).regs)

/-- POST_FIRE_RECORD completes (R152, R153): in host-assisted mode, with the ring's size in its range and a member of
that name, a port with fewer than 1,024 records queues the record that its sixteen words spell, in the class of its offset. -/
def Obligations.PostingCompletes : Prop :=
  ∀ (a : Acc) (n : Fin 8) (u : Fin 4) (v : Word) (s : State), reaches s a (0x268 + n) →
    let s' := setReg s (0x268 + n) (u * 0x100 + 0x3C) v
    let f := fireOfWords ((List.range 16).map fun i => getReg s' (0x268 + n) (u * 0x100 + 4 * i))
    haActive s' 0x002 = true → 8 ≤ bits (getReg s' 0x002 0x140) 4 0 → bits (getReg s' 0x002 0x140) 4 0 ≤ 16 →
    f.member.toNat < (poolSize f.pool.toNat).1 → (s.disp.posted.filter fun p => p.port = n.val).length < 1024 →
    exec (.postFireRecord a n u v) s = .next { s' with disp := { s.disp with
      posted := s.disp.posted ++ [⟨n, u, s.time.free, s.disp.nextSeq, f⟩], nextSeq := s.disp.nextSeq + 1 } }

/-- The commands of the converter links complete (R165–R168, R172–R178, R224): SYSREF_ARM stores SYSREF_CFG and arms the next
edge; the last lane to lock takes the link to the next step, and the alignment sequence, where it agrees with LINK_CFG, the one
after; the SYSREF edge that an armed link waits for brings it into service and gives the LEMC of its group its epoch; a multiblock
counts for its lane, and in a RUNNING link waits in the lane's elastic buffer for its release, or is lost where the release it was
due at is past; a lane that has lost LOSS_LIMIT blocks is declared down and captured, and LOSS_LIMIT good ones bring it back at a
lane-alignment boundary; JSYNC low for five frames starts the transmit link again until an LEMC edge and four multiframes are
past, while the receive link runs on; REALIGN of an aligned link is counted, and moves the LEMC to the last edge. -/
def Obligations.LinkCommandsComplete : Prop :=
  ∀ (q : Fin 32) (l : Fin 4) (s : State),
    let p := quadPage q
    let x := linkOf s q
    let b : BitVec 4 := BitVec.ofNat 4 (2 ^ l.val);
    (∀ (a : Acc) (v : Word), reaches s a p → bit v 8 = true →
      exec (.sysrefArm a q v) s = .next (setLink (setReg s p 0x108 (v &&& 0x00FF0003)) q { x with armed := true })) ∧
    (∀ (a : Acc) (v : Word), reaches s a p → bit v 0 = true → x.aligned = true →
      exec (.realign a q v) s = .next (match (lemcOf s (q / 8)).edge with
        | some e => alignLemc (q / 8) e (incCnt s p 6)
        | none => incCnt s p 6)) ∧
    (blockRuns s 0x100 = true → enabled s p = true → x.armed = true → (x.st = 3 ∨ x.st = 4) → ∀ late : Bool,
      let at_ := laneAbs s (q / 8) + if late then 1 else 0
      ∃ t, exec (.sysrefEdge (Fin.ofNat 4 (q.val / 8)) late) s = .next t ∧
        linkOf t q = { x with st := 4, armed := false, aligned := true, eb := [[], [], [], []] } ∧
        (lemcOf t (q / 8)).epoch = at_ ∧ (lemcOf t (q / 8)).edge = some at_) ∧
    (blockRuns s p = true →
      (x.st = 1 → l.val < quadLanes s q →
        exec (.laneSyncAcquired q l) s = .next (setLink s q
          { x with lock := x.lock ||| b, st := if 2 ^ quadLanes s q - 1 ≤ (x.lock ||| b).toNat then 2 else 1 })) ∧
      (x.st = 2 → quadC s q = false → ∀ i : Ilas,
        (some i = wantedIlas s q →
          exec (.ilasReceived q (some i)) s = .next (setLink s q { x with st := if x.aligned && !x.armed then 4 else 3 })) ∧
        (some i ≠ wantedIlas s q →
          exec (.ilasReceived q (some i)) s = .next (ownErr (setEvt (setLink s q { x with st := 5 }) p 5) p 4 0x02 none))) ∧
      (x.st = 2 → quadC s q = true →
        exec (.ilasReceived q none) s = .next (setLink s q { x with st := if x.aligned && !x.armed then 4 else 3 })) ∧
      (enabled s p = true → rxEn s q = true → l.val < quadLanes s q → ∀ (headOk crcOk : Bool) (octets : List Byte),
        (quadC s q && !crcOk) = false →
        ((x.st = 2 ∨ x.st = 3) →
          exec (.multiblockReceived q l headOk crcOk octets) s = .next (setLink s q (countBlock x l headOk))) ∧
        (x.st = 4 → ((x.cur[l.val]?).getD (some []) ≠ none ∨ (x.eb[l.val]?).getD [] ≠ []) →
          ∃ t, exec (.multiblockReceived q l headOk crcOk octets) s = .next t ∧ t = { s with links := t.links } ∧
            linkOf t q = { countBlock x l headOk with
              eb := setAt x.eb l ((x.eb[l.val]?).getD [] ++ [(laneAbs s (q / 8), octets)]) }) ∧
        (x.st = 4 → (x.cur[l.val]?).getD (some []) = none → (x.eb[l.val]?).getD [] = [] →
          ∃ t, exec (.multiblockReceived q l headOk crcOk octets) s = .next t ∧
            linkOf t q = { countBlock x l headOk with cur := setAt x.cur l (some []) })) ∧
      (enabled s p = true → x.down.getLsbD l = false → lossLimit s q ≤ (x.bad[l.val]?).getD 0 →
        exec (.laneDown q l) s =
          .next (captureErr (incCnt (setEvt (setLink s q
              { x with down := x.down ||| b, lock := x.lock &&& ~~~b, good := setAt x.good l 0 }) p 0) p 4) p
            ⟨4, 0x05, 0, p, noAddr (4 * q + l)⟩)) ∧
      (x.down.getLsbD l = true → lossLimit s q ≤ (x.good[l.val]?).getD 0 → laneEdge s q = true →
        exec (.laneRecover q l) s =
          .next (setLink s q { x with down := x.down &&& ~~~b, lock := x.lock ||| b, bad := setAt x.bad l 0 })) ∧
      (∀ frames : Nat, quadC s q = false → txEn s q = true → x.st = 4 → txRunning s q = true → 5 ≤ frames →
        exec (.jsyncLow q frames) s =
          let per : Nat := lemcPeriod s q
          let edge := laneAbs s (q / 8) + (per - laneNo s (q / 8) % per)
          .next (setEvt (setLink s q { x with txFrom := some (edge + 4 * per), txMb := [[], [], [], []] }) p 5)))

/-- The commands of the spare lanes complete (R179, R181, R182, R225, R685): ARM of an idle page wakes the spare with the target's
taps and receiver settings; SUB_READY makes it ready; 1 ms without it is a failure, from which ARM returns to IDLE; SWAP of a
ready page, and RELEASE of a swapped one, whose target wakes, wait for a boundary, at which the spare stands in for its target, or
goes to DEEP once the target's macro is in ACTIVE and locked. -/
def Obligations.SpareLaneCommandsComplete : Prop :=
  ∀ (a : Acc) (j : Fin 4) (s : State),
    let p := 0x120 + j.val
    let x := subOf s j
    let tp := (subTarget s j).1
    let tl := (subTarget s j).2;
    (reaches s a p → x.st = 0 →
      exec (.subArm a j) s =
        .next (askPower p 0 0 (setSub (setLn (setLn s p 0 0x08 (lnReg s tp tl 0x08)) p 0 0x0C
          (lnReg (setLn s p 0 0x08 (lnReg s tp tl 0x08)) tp tl 0x0C)) j ⟨1, false, s.time.free⟩))) ∧
    (reaches s a p → x.st = 4 → exec (.subArm a j) s = .next (setSub s j SubSt.init)) ∧
    (blockRuns s p = true → x.st = 1 → usSince s x.since 1000 = false →
      exec (.subReady j) s = .next (setEvt (setSub s j { x with st := 2 }) p 0)) ∧
    (blockRuns s p = true → x.st = 1 → usSince s x.since 1000 = true →
      exec (.subFail j) s = .next (askPower p 0 2 (setEvt (setSub s j { x with st := 4 }) p 2))) ∧
    (reaches s a p → x.st = 2 → exec (.subSwap a j) s = .next (setSub s j { x with swapping := true })) ∧
    (reaches s a p → x.st ≠ 2 → exec (.subSwap a j) s = .next s) ∧
    (blockRuns s p = true → x.swapping = true → laneEdge s (tp - 0x100) = true →
      (x.st = 2 → exec (.subSwapExecute j) s =
        .next (askPower tp tl 2 (setEvt (setSub s j { x with st := 3, swapping := false }) p 1))) ∧
      (x.st = 5 → macroReady s tp tl = true → exec (.subSwapExecute j) s =
        .next (askPower p 0 2 (setEvt (setSub s j { x with st := 0, swapping := false }) p 1)))) ∧
    (reaches s a p → x.st = 3 →
      exec (.subRelease a j) s = .next (askPower tp tl 0 (setSub s j { x with st := 5, swapping := true })))

/-- The DFE takes its fires (R204–R208, R211): TX_ON, TX_OFF, CARRIER_ON and CARRIER_OFF with a part to do wait for their switch
time, a TX_ON or CARRIER_ON that is late by no more than LATE_TOL with LATE counted; CHAIN_COMMIT schedules its chain's commit.
A TX_OFF or a CARRIER_OFF is not refused as late. -/
def Obligations.DfeTakesFires : Prop :=
  ∀ (f : FireRec) (s : State),
    let k := f.member.toNat % 4
    let p := dfePage k
    let c := cmdOf s f
    let late := lateBy s (firstAction s k c)
    let s0 := takeArrived s f
    let held (s : State) : State := modDfe s k fun x => { x with cmds := x.cmds ++ [{ c with keep := inLag s k c }] }
    let timed (s : State) : State := if 0 < late then setEvt (incCnt s p 2) p 0 else s;
    f ∈ s.arrived → pageClock s p = true → (∀ x ∈ s.unowned, x.1 ≠ p) → enabled s p = true → dfeHeld (dfeOf s k) < 8 →
    (f.opcode = 1 → cmdParts c ≠ 0 → s.evt.txRefused = false → late ≤ (bits (getReg s p 0x108) 11 0 : Int) →
      (dfeOf s k).cmds.any (fun d => decide (d.op = 2) && sameSwitch c d) = false →
      exec (.txOn f) s = .next (held (timed s0))) ∧
    (f.opcode = 2 → cmdParts c ≠ 0 → (dfeOf s k).cmds.any (fun d => decide (d.op = 1) && sameSwitch c d) = false →
      exec (.txOff f) s = .next (held s0)) ∧
    (f.opcode = 3 → c.dir ≠ 0 → late ≤ (bits (getReg s p 0x108) 11 0 : Int) →
      exec (.carrierOn f) s = .next (held (timed s0))) ∧
    (f.opcode = 4 → c.dir ≠ 0 → exec (.carrierOff f) s = .next (held s0)) ∧
    (f.opcode = 5 → c.chain < 132 →
      exec (.chainCommit f) s =
        .next (modDfe s0 k fun x => { x with sched := x.sched ++ [(c.chain, ⟨c.tsw, some f⟩)] }))

/-- The DFE's ramps and outputs (R200–R203, R205, R209–R211): the ramp that is due of a group or a slot starts, at the point of its
curve where the envelope stands, and a slot's receive stream starts or stops when its time has come at the lane input; at its
end the envelope rests, the lag of the outputs runs after a ramp-down, and the command whose part it was goes on; an output rises
while a ramp-up is at hand or a group is active at the antenna, and falls once the lag is past. -/
def Obligations.RampsAndOutputsComplete : Prop :=
  ∀ (k : Fin 4) (s : State),
    let x := dfeOf s k
    let toTx (n : Nat) := x.cmds.filter fun c => 3 ≤ c.op ∧ c.slot = n ∧ c.dir.testBit 1 ∧ !c.started.getLsbD 0
    let toRx (n : Nat) := x.cmds.filter fun c => 3 ≤ c.op ∧ c.slot = n ∧ c.dir.testBit 0 ∧ !c.started.getLsbD 1
    blockRuns s (dfePage k) = true →
    (∀ (g : Fin 16) (c : DfeCmd),
      firstCmd (x.cmds.filter fun c => c.op ≤ 2 ∧ c.groups.getLsbD g ∧ !c.started.getLsbD g) = some c → rampAt s k c ≤ txPlane s k →
      (x.cmds.filter fun d => d ≠ c ∧ d.op ≤ 2 ∧ d.started.toNat &&& 2 ^ g.val = 2 ^ g.val ∧
        d.finished.toNat &&& 2 ^ g.val = 0) = [] →
      (c.op = 1 ∨ envActive (envOf x g) = true) →
      let e := startRamp (envOf x g) (c.op = 1) (txPlane s k) (profLen s k c.prof)
      exec (.rampStart k (.group g)) s =
        .next (startPart (modDfe s k fun x => { x with groups := kset EnvSt.init x.groups g e }) k c (2 ^ g.val))) ∧
    (∀ (n : Fin 16) (c : DfeCmd), firstCmd (toTx n) = some c → rampAt s k c ≤ txPlane s k →
      exec (.rampStart k (.slot n)) s = .next (slotRamp s k c)) ∧
    (∀ (n : Fin 16) (c : DfeCmd), (∀ d, firstCmd (toTx n) = some d → txPlane s k < rampAt s k d) →
      firstCmd (toRx n) = some c → c.tsw ≤ rxPlane s k → exec (.rampStart k (.slot n)) s = .next (slotRx s k c)) ∧
    (∀ (g : Fin 16) (r : Ramp), (envOf x g).ramp = some r → rampEndAt r ≤ txPlane s k →
      let s1 := modDfe s k fun x => { x with groups := kset EnvSt.init x.groups g.val ⟨r.up, none⟩ }
      let s2 := if r.up then s1 else setLags s1 k g (rampEndAt r)
      exec (.rampEnd k (.group g)) s = .next (match owner x true g (2 ^ g.val) with
        | some c => finishPart s2 k c (2 ^ g.val) (rampEndAt r)
        | none => s2)) ∧
    (∀ (n : Fin 16) (r : Ramp), (txOf x n).ramp = some r → rampEndAt r ≤ txPlane s k →
      let s1 := modDfe s k fun x => { x with tx := kset EnvSt.init x.tx n.val ⟨r.up, none⟩ }
      exec (.rampEnd k (.slot n)) s = .next (match owner x false n 1 with
        | some c => finishPart s1 k c 1 (rampEndAt r)
        | none => s1)) ∧
    (∀ o : PaOut, (leadDue s k o || leadPast s k o) = true →
      exec (.paCtrlAssert k o) s = .next (modDfe s k fun x => setOut x o true)) ∧
    (∀ o : PaOut, (leadDue s k o || covered s k o || lagKept s k o) = false →
      (∀ t, kget none x.lag (outNo o) = some t → t ≤ devTime s) →
      exec (.paCtrlDeassert k o) s =
        .next (modDfe s k fun x => { setOut x o false with lag := kset none x.lag (outNo o) none }))

/-- The chain store and the coefficient banks (R193, R213, R214, R218, R223): COMMIT_AT schedules the selected chain's commit;
COMMIT_NOW makes its pending registers active, and DISCARD the reverse; a commit that has fallen due is applied, and a fire that
asked for it is completed with the slice of that sample's time at the antenna; COEF_DATA stores a tap of a bank that no active
carrier uses and moves on to the next; at a lane-alignment boundary a mirror chain that is ACTIVE begins to stand in for its
source, and another one stops. -/
def Obligations.ChainStoreCompletes : Prop :=
  ∀ (a : Acc) (k : Fin 4) (s : State), let p := dfePage k;
    (∀ c, reaches s a p → chainSel s k = some c →
      exec (.commitAt a k) s =
        .next (modDfe s k fun x => { x with sched := x.sched ++ [(c, ⟨timeAt s (getReg s p 0x1A8), none⟩)] }) ∧
      (kup s.regs = true →
        (∃ t, exec (.commitNow a k) s = .next t ∧
          ∀ off ∈ chPending, chainReg t k off c 1 = chainReg s k off c 0 ∧ chainReg t k off c 0 = chainReg s k off c 0) ∧
        (∃ t, exec (.discard a k) s = .next t ∧
          ∀ off ∈ chPending, chainReg t k off c 0 = chainReg s k off c 1 ∧ chainReg t k off c 1 = chainReg s k off c 1))) ∧
    (∀ (c : Fin 132) (n : Nat) (j : Sched), blockRuns s p = true →
      ((dfeOf s k).sched.find? fun e => e.1 = c.val ∧ e.2.at_ ≤ chainPlane s k c) = some (n, j) →
      let s1 := commitChain k c.val (modDfe s k fun x => { x with sched := dropFirst (fun e => decide (e = (n, j))) x.sched })
      exec (.chainCommitApply k c) s = .next (match j.fire with
        | some f => complete s1 p f false (slicePayload (chainPlane s k c))
        | none => s1)) ∧
    (∀ v : Word, let sel := getReg s p 0x240
      let d : Word := if bits sel 12 8 = 23 then 0x1FFFF else 0
      reaches s a p → bankBusy s k (bits sel 2 0) = false → bits sel 12 8 < 24 →
      exec (.coefDataWrite a k v) s =
        .next (setReg (modDfe s k fun x => { x with coefs := kset d x.coefs (bits sel 2 0 * 24 + bits sel 12 8) (v &&& 0x3FFFF) })
          p 0x240 (putBits sel 12 8 (bits sel 12 8 + 1)))) ∧
    (∀ m : Fin 4, let b := BitVec.ofNat 4 (2 ^ m.val);
      blockRuns s p = true → laneEdge s (8 * k + mirrorSource s k m % 64 / 8) = true →
      (bits (chainReg s k 0x1D8 (128 + m.val) 0) 1 0 = 2 →
        exec (.mirrorSwitch k m) s = .next (modDfe s k fun x => { x with mirror := x.mirror ||| b })) ∧
      (bits (chainReg s k 0x1D8 (128 + m.val) 0) 1 0 ≠ 2 →
        exec (.mirrorSwitch k m) s = .next (modDfe s k fun x => { x with mirror := x.mirror &&& ~~~b })))

/-- The OFDM blocks take their fires (R82, R234–R240, R275): of an enabled block and an enabled carrier entry, a fire whose
descriptor is owned and of its own kind joins the block's operations in order, with the entry's slot and taps as they are at the
start; PRACH where its time is still ahead, FFT_RX where none of its symbols has gone. -/
def Obligations.OfdmTakesFires : Prop :=
  ∀ (f : FireRec) (s u : State) (ws : List Word),
    let k := f.member.toNat
    let p := ofdmPage k
    let d := descAddr (getPair s p 0x100 22) f
    let e := opEntry ws
    let m := numer u k e
    let taps := (List.range 8).map (smoothTap u k (bits (wWord ws 11) 10 8))
    let taken (kind : Nat) : State :=
      setOfdm u k { ofdmOf u k with ops := (ofdmOf u k).ops ++ [⟨f, kind, d, ws, haActive u p, taps,
        slotNow u k e m kind ws, [], [], [], none⟩] }
    f.pool = 3 → k < 4 → f ∈ s.arrived → pageClock s p = true → (∀ x ∈ s.unowned, x.1 ≠ p) → enabled s p = true →
    fetchDesc (takeArrived s f) p d 0x016 (fun kd len => kd = fireKind f && len = 1) = (u, .got ws) →
    bit (carrReg u k 0x180 e) 0 = true →
    (fireKind f = 1 → (∀ y ∈ opSyms ws, sampleNow u k e m false < m.start (slotNow u k e m 1 ws * m.perSlot + y + 2)) →
      exec (.fftRx f) s = .next (taken 1)) ∧
    (fireKind f = 2 → exec (.ifftTx f) s = .next (taken 2)) ∧
    (fireKind f = 3 → exec (.ce f) s = .next (taken 3)) ∧
    (fireKind f = 4 → exec (.eq f) s = .next (taken 4)) ∧
    (fireKind f = 5 → exec (.nf f) s = .next (taken 5)) ∧
    (fireKind f = 6 → sinceTarget u (wWord ws 5) ≤ 0 → exec (.prach f) s = .next (taken 6)) ∧
    (fireKind f = 7 → exec (.txMap f) s = .next (taken 7))

/-- The other commands of the OFDM blocks complete (R228, R238, R239, R250, R253, R258, R281): a ready operation leaves the
block and ends with what it worked out, or with the error of an operand that it could not read, and a CE in host-assisted mode
exports its entry once the ring has room; one symbol duration after its own sum of a symbol the home block counts the sums that
have not come as zero; CARR_ENABLE of an entry that may be enabled sets it, and one that may not is captured and stays off; a
smoothing tap is stored for the selected filter and the next one is selected. -/
def Obligations.OfdmCommandsComplete : Prop :=
  ∀ (k : Fin 4) (s : State), let p := ofdmPage k;
    (∀ (i : Nat) (op : OfdmOp), blockRuns s p = true → s.memc.fc = none → dramClock s = true →
      (ofdmOf s k).ops[i]? = some op → symsDue s k op = [] → ofdmReady s k i op = true →
      let s0 := setOfdm s k { ofdmOf s k with ops := dropAt (ofdmOf s k).ops i }
      let exports := op.ha && decide (op.kind = 3)
      let full := (ofdmRing k).full s;
      (exports = true → full = true → exec (.ofdmOpDone k i) s = .next (setEvt s p 3)) ∧
      ((exports && full) = false →
        (∀ x, op.bad = some x → exec (.ofdmOpDone k i) s = .next (failOfdm s0 k op.fire op.desc x)) ∧
        (∀ r u, op.bad = none → runOfdm k op s0 = .ok r u →
          (exports = false → exec (.ofdmOpDone k i) s = .next (finishOfdm u k op r)) ∧
          (exports = true → 4 ≤ bits (getReg u p 0x128) 4 0 → bits (getReg u p 0x128) 4 0 ≤ 12 →
            exec (.ofdmOpDone k i) s =
              .next (finishOfdm ((ofdmRing k).push (putOuts u p r.outs) (exportEntry op)) k op r))) ∧
        (∀ x u, op.bad = none → runOfdm k op s0 = .error x u →
          exec (.ofdmOpDone k i) s = .next (failOfdm u k op.fire op.desc x)))) ∧
    (∀ (i : Nat) (op : OfdmOp) (y : Fin 14) (g : SymGot), blockRuns s p = true → (ofdmOf s k).ops[i]? = some op →
      op.kind = 1 → opWset op ≠ 0 → (op.got.find? fun g => g.y = y.val) = some g →
      let e := opEntry op.words
      let m := numer s k e
      let sym := opSym m op y
      let js := (peersOf s k e).filter fun j => !op.missing.contains (y.val, j) &&
        (partialOf s k (bits (carrReg s k 0x180 e) 15 8) sym j).isNone
      g.at_ + ((m.prefix sym + m.n) * msUnits / m.rate : Nat) ≤ devTime s → js ≠ [] →
      let u := ownErr (setEvt s p 5) p 4 0x04 none
      exec (.peerMissing k i y) s = .next (setOfdm u k { ofdmOf u k with
        ops := setAt (ofdmOf u k).ops i { op with missing := op.missing ++ js.map fun j => (y.val, j) } })) ∧
    (∀ (a : Acc) (v : Word), reaches s a p → let e := bits (getReg s p 0x108) 5 0
      bit (carrReg s k 0x180 e) 0 = false →
      (carrOk s k e = true →
        exec (.carrEnable a k v) s = .next (setRegI (setRegI s p 0x180 e (putBit v 0 true &&& 0xFF01)) p 0x1A0 e 1)) ∧
      (carrOk s k e = false →
        exec (.carrEnable a k v) s = .next (ownErr (setRegI s p 0x180 e (putBit v 0 true &&& 0xFF00)) p 6 0x01 none))) ∧
    (∀ (a : Acc) (v : Word), reaches s a p → let sel := getReg s p 0x118
      let t := bits sel 2 0
      exec (.smoothDataWrite a k v) s =
        .next (setReg (setRegI s p 0x11C (bits sel 10 8 * 8 + t) ((v &&& 0xFFFF) ^^^ tapFlip t)) p 0x118
          (putBits sel 2 0 ((t + 1) % 8))))

/-- The FEC blocks take their fires and run their work units (R82, R83, R282–R288, R291, R313, R320, R326, R328): of an enabled
block, a fire whose descriptor is owned and of its own kind starts its operation on the descriptor's words; an idle enabled
engine of a class starts the class's next unit, which waits where an earlier operation works on the same HARQ segment; a unit
that ends well closes with what it worked out, and a faulty engine is disabled, counted and captured. -/
def Obligations.FecCommandsComplete : Prop :=
  (∀ (f : FireRec) (s u : State) (b : List Byte),
    let k := f.member.toNat
    let p := fecPage k
    let d := descAddr (getPair s p 0x100 22) f
    let ws := (List.range 16).map (wordAt b)
    f.pool = 2 → k < 4 → f ∈ s.arrived → pageClock s p = true → (∀ x ∈ s.unowned, x.1 ≠ p) → enabled s p = true → memRead (takeArrived s f) p d 64 = (u, .ok, b) →
    bit (wordAt b 0) 31 = true → bits (wordAt b 0) 23 16 = 1 → bits (wordAt b 0) 15 4 = 0x017 → bits (wordAt b 0) 3 0 = fireKind f →
    (fireKind f = 1 → exec (.ldpcDec f) s = .next (startTb u k 1 f d ws)) ∧
    (fireKind f = 2 → exec (.ldpcEnc f) s = .next (startTb u k 2 f d ws)) ∧
    (fireKind f = 3 → exec (.turboDec f) s = .next (startTb u k 3 f d ws)) ∧
    (fireKind f = 4 → exec (.turboEnc f) s = .next (startTb u k 4 f d ws)) ∧
    (fireKind f = 5 → exec (.polarDec f) s = .next (startPolar u k 5 f d ws)) ∧
    (fireKind f = 6 → exec (.polarEnc f) s = .next (startPolar u k 6 f d ws))) ∧
  (∀ (k c : Fin 4) (i j e : Nat) (s : State), let p := fecPage k
    let ops := fecOps s k
    let x := ((ops[j]?).bind fun o => o.units[i]?).getD FecUnit.init
    blockRuns s p = true → nextUnit ops c = some (j, i) → ((engines c).find? fun e => bit (getReg s p 0x110) e && !(busyEngines s k).contains e) = some e →
    (hqWaits ops j i = false →
      exec (.workUnitStart k c) s = .next (setFec s k (setUnit ops j i { x with ph := 1, eng := e }))) ∧
    (hqWaits ops j i = true → x.waited = false →
      exec (.workUnitStart k c) s =
        .next (setEvt (incCnt (setFec s k (setUnit ops j i { x with waited := true })) p 10) p 2))) ∧
  (∀ (k : Fin 4) (e : Fin 25) (i j : Nat) (op : FecOp) (s u : State), let p := fecPage k;
    blockRuns s p = true → s.memc.fc = none → dramClock s = true →
    (List.findSome? (fun (o, j) =>
      (o.units.zipIdx.find? fun x => x.1.ph = 1 ∧ x.1.eng = e.val).map fun x => (j, x.2, o)) (fecOps s k).zipIdx) = some (j, i, op) →
    (∀ seg y buf, (op.kind = 1 ∨ op.kind = 3) → op.ha = false → combineCb s k op i = (u, .ok (seg, y, buf)) →
      exec (.workUnitDone k e false) s = .next (closeUnit u k j i (decodeUnit u k op i seg buf))) ∧
    (∀ b y u', op.kind = 5 → op.ha = false → memRead s p (wAddr op.words 5 + 32 * i) 32 = (u, .ok, b) →
      let ws := (List.range 8).map (wordAt b)
      memRead u p (wAddr ws 2) (bits (wWord ws 0) 15 0) = (u', .ok, y) →
      exec (.workUnitDone k e false) s = .next (closeUnit u' k j i (polarUnit op ws (y.map llrIn)))) ∧
    (∀ o, (op.kind = 2 ∨ op.kind = 4 ∨ op.kind = 6) → encodeUnit k op i s = .ok o u →
      exec (.workUnitDone k e false) s = .next (closeUnit u k j i o)) ∧
    (let s1 := ownErr (setEvt (incCnt (modReg s p 0x110 fun w => putBit w e false) p 11) p 0) p 5 0x06 none;
      exec (.workUnitDone k e true) s = .next (checkEngines (setFec s1 k (setUnit (fecOps s k) j i
        { FecUnit.init with waited := ((op.units[i]?).getD FecUnit.init).waited })) k)))

/-- Prism's taps complete their commands (R334, R337, R338, R343–R348, R351–R354, R378, R380, R381): a selection mask of at most
32 streams is stored by its _HI half; a frame whose samples have come counts for its tap and closes an integration that has its
frames, or that was told to close, and one whose samples have not leaves the tap as it is; a closed integration writes its
records and begins anew; TAP_CFG closes the running one; MAXH_CLR empties the held maxima; a chunk of a host-assisted tap enters
the ring and the buffer, or is counted as lost. -/
def Obligations.PrismTapsComplete : Prop :=
  ∀ (k : Fin 4) (s : State),
    let t := tapOf s k
    (∀ (a : Acc) (i : Fin 4) (v : Word) (held : Option Word) (u : State), reaches s a prismPage →
      let off := 0x180 + 0x40 * k.val + 0x10 + 8 * i.val
      let lo := held.getD (getReg u prismPage off)
      let m : Dword := BitVec.ofNat 64 (lo.toNat + 2 ^ 32 * v.toNat)
      exec (.tapSetWrite a k i false v) s = .next (holdLo s a prismPage off v) ∧
      (takeLo s a prismPage off = (held, u) →
        ((maskStreams m).length ≤ 32 →
          exec (.tapSetWrite a k i true v) s = .next (setReg (setReg u prismPage off lo) prismPage (off + 4) v)) ∧
        (32 < (maskStreams m).length →
          exec (.tapSetWrite a k i true v) s = .next (ownErr u prismPage 6 0x01 none)))) ∧
    (blockRuns s prismPage = true → haTap s k = false → t.due = false → (enabled s prismPage || t.closeReq) = true → ∀ j : Fin 32,
      let n : Int := (2 ^ nbinLog t.cfg : Nat)
      let at_ := frameStart t
      (at_ ≤ laneNo s k + n → at_ + n ≤ laneNo s k + 1 →
        let s1 := ((maskStreams t.mask).take 32).zipIdx.foldl (frameChan k at_) s
        let t1 := tapOf s1 k
        let asked := s1.prism.cmds.any fun c => c.op = 3 && Nat.testBit c.mask k
        exec (.frameEnd k false j) s = .next (setTap s1 k { t1 with
          frames := t1.frames + 1
          next := at_ + n
          startAt := if t1.frames = 0 then laneTime s1 k at_ else t1.startAt
          due := decide (2 ^ min 16 (bits t1.cfg 12 8) ≤ t1.frames + 1) || t1.closeReq || asked })) ∧
      (at_ ≤ laneNo s k + n → laneNo s k + 1 < at_ + n → exec (.frameEnd k false j) s = .next s)) ∧
    (blockRuns s prismPage = true → t.due = true → bits (tapReg s k 0) 25 24 = 0 →
      let s1 := (maskStreams t.mask).zipIdx.foldl (fun s (str, j) => putSpec k j str (putSpec k j str s false) true) s
      let t1 := tapOf s1 k
      let cfg := tapReg s1 k 0
      let fresh := (List.range 32).foldl (fun m j =>
        kset ChanAcc.init m j { ChanAcc.init with settle := (chanOf t1 j).settle, err := (chanOf t1 j).err }) ([] : KMap ChanAcc)
      let s2 := setTap s1 k { t1 with
        cfg := cfg, set := 0, dwell := 0, ints := (t1.ints + 1) % 65536, frames := 0, due := false, closeReq := false, chans := fresh }
      bits cfg 25 24 = 0 → nbinLog cfg = nbinLog t1.cfg → tapSet s2 k 0 = (tapOf s2 k).mask →
      exec (.integrationEnd k none) s = .next (serveClose s2 k)) ∧
    (∀ (a : Acc) (v : Word), reaches s a prismPage → let s1 := setReg s prismPage (0x180 + 0x40 * k.val) (v &&& 0x03771F0F)
      (enabled s1 prismPage = true → haTap s1 k = false →
        exec (.tapCfgWrite a k v) s = .next (setTap s1 k { tapOf s1 k with closeReq := true })) ∧
      (enabled s1 prismPage = false →
        exec (.tapCfgWrite a k v) s = .next (setTap s1 k { tapOf s1 k with cfg := v &&& 0x03771F0F }))) ∧
    (∀ (a : Acc) (v : Word), reaches s a prismPage →
      exec (.maxhClr a k v) s = .next ((List.range 64).foldl (fun s x => setStrm s (64 * k.val + x) { strmOf s (64 * k.val + x) with
        holdRx := if bit v 0 then [] else (strmOf s (64 * k.val + x)).holdRx
        holdObs := if bit v 1 then [] else (strmOf s (64 * k.val + x)).holdObs }) s)) ∧
    (∀ (q sl : Fin 8) (j : Nat), let ch := 32 * k.val + j
      let str := 8 * q.val + sl.val
      let c := haChan s ch
      blockRuns s prismPage = true → ((maskStreams t.mask).take 32).idxOf? str = some j → haExports s k j = true → 1024 ≤ c.buf.length →
      let xs := c.buf.reverse.take 1024
      let s0 := setHaChan s ch { c with buf := c.buf.take (c.buf.length - 1024) }
      let gap := kget 0 s.prism.gaps ch
      ((prismHaRing.full s0 = true ∨ bufFree s0 prismPage 0x154 < 4096) →
        exec (.haChunk k q sl) s = .next (setPrism (setEvt (incCnt s0 prismPage 11) prismPage 7)
          { s0.prism with gaps := kset 0 s.prism.gaps ch (min 255 (gap + 1)) })) ∧
      (prismHaRing.full s0 = false → 4096 ≤ bufFree s0 prismPage 0x154 →
        let b := bufPush s0 prismPage 0x154 12 (wordsBytes (xs.map (·.x)))
        let s1 := prismHaRing.push b.1 (wordsBytes ([w32 (gap * 2 ^ 24 + (if xs.any (·.obs) then 2 ^ 16 else 0) + ch * 256 +
          (64 * k.val + str)), w32 (haDec s0 k)] ++ secNs ((xs.head?.map (·.at_)).getD 0) ++ [w32 b.2] ++ List.replicate 11 0))
        exec (.haChunk k q sl) s = .next (setPrism (incCnt s1 prismPage 10) { s1.prism with gaps := kset 0 s1.prism.gaps ch 0 })))

/-- Prism's detectors complete their commands (R355–R357, R360, R363–R366, R371, R375–R377): an enable whose registers are in
order loads the template and starts the detector, and one whose registers are not is captured; a detection that a detector has
declared in a group with no capture running starts one in the lowest free buffer; a confirmation, once its window's samples have
come, keeps the capture or drops it by their mean power over P_n; a complete capture closes with its record; a buffer that no
capture fills is free again; IDLE_WIN and SPEC_CLOSE are held, IDLE_WIN until its end, and FORCE_CAPTURE takes part in its
group. -/
def Obligations.PrismDetectorsComplete : Prop :=
  ∀ (d : Fin 64) (s : State),
    (∀ (a : Acc) (v : Word), reaches s a (detLoc d).1 → bit (detReg s d 0) 0 = false →
      let w := putBit v 0 true
      let s1 := setDet s d 0 (w &&& 0x3FFE)
      let src := 0x0013007C0000 + bits w 13 8 * 0x1000
      let n := bits (detReg s1 d 0xC) 26 16
      (detOk s1 d = false → exec (.detEnable a d v) s = .next (ownErr s1 prismPage 6 0x01 none)) ∧
      (∀ u b, detOk s1 d = true → memRead s1 prismPage src (4 * n) = (u, .ok, b) →
        exec (.detEnable a d v) s =
          .next (setDet (setDetSt (setPrism u { u.prism with tmpls := kset [] u.prism.tmpls d ((List.range n).map (wordAt b)) }) d
            DetSt.init) d 0 (w &&& 0x3FFF)))) ∧
    (∀ (x : DetFound) (b : Nat), blockRuns s prismPage = true → s.prism.found = [x] → x.det = d.val →
      let c : Capture := ⟨d, s.prism.seq + 0, x.metric, x.peak, x.peakNo, 0, x.bg, false, false, 0, 0, none⟩
      let s0 := setPrism s { s.prism with seq := (s.prism.seq + 1) % 65536, found := [] }
      let s1 := detCount (incCnt s0 prismPage 3) d 0x28
      groupCapture s1 (detGroup s1 d) = none → freeBuf s1 = some b →
      exec (.detection []) s =
        .next (startCapture s1 { c with buf := b, confirming := decide (0 < bits (detReg s1 d 0x18) 12 0) })) ∧
    (∀ c : Capture, blockRuns s prismPage = true → (s.prism.caps.find? fun c => c.det = d.val && c.confirming) = some c →
      let conf := detReg s d 0x18
      let n := bits conf 12 0
      let r := qdiv (confMean s c n) c.bg
      let c' := { c with confirming := false, confLevel := BitVec.ofNat 16 (dBq8 r) }
      let s1 := setPrism s { s.prism with caps := s.prism.caps.map fun x => if x.seq = c.seq then c' else x }
      let s2 := setEvt (detCount (incCnt s1 prismPage 6) d 0x2C) prismPage 1
      let passes : Prop := 0 < r ∧ (signed 16 (bits conf 31 16) : Rat) / 256 ≤ dB r
      c.peakNo + n ≤ (detSt s d).newest →
      (passes → exec (.confWindowEnd d false) s = .next s1) ∧
      (¬passes → exec (.confWindowEnd d false) s = .next (closeCapture s2 c' 2 (samplesNow s2 c') 0))) ∧
    (∀ c : Capture, blockRuns s prismPage = true → (s.prism.caps.find? fun c => c.det = d.val && !c.confirming) = some c →
      let post := bits (detReg s d 0x20) 19 0
      c.peakNo + post ≤ (detSt s d).newest + 1 →
      exec (.captureComplete d) s = .next (closeCapture (incCnt s prismPage 4) c 0 post 0)) ∧
    (∀ (a : Acc) (v : Word), reaches s a prismPage → (s.prism.caps.any fun c => c.buf = bits v 7 0) = false →
      exec (.bufRelease a v) s = .next (freeBuffer s (bits v 7 0))) ∧
    (∀ f : FireRec, f.pool = 5 → f.member = 0 → f ∈ s.arrived → pageClock s prismPage = true → (∀ x ∈ s.unowned, x.1 ≠ prismPage) → enabled s prismPage = true →
      let s0 := takeArrived s f
      let t := applyAt s f
      let len := bits (cmdWord f) 31 16
      let e := bits (cmdWord f) 5 0
      let m := (List.range 4).foldl (fun m k => if bit (cmdWord f) k ∧ !haTap s k then m + 2 ^ k else m) 0
      (f.opcode = 1 → len ≠ 0 → devTime s < t + (2 ^ 32 * 1000 * len : Nat) →
        exec (.idleWin f) s = .next (setPrism s0 { s.prism with cmds := s.prism.cmds ++
          [⟨f, 1, max t (devTime s), (t + (2 ^ 32 * 1000 * len : Nat) - max t (devTime s)).toNat, bits (cmdWord f) 3 0⟩] })) ∧
      (f.opcode = 2 → detActive s e = true →
        let x := detSt s e
        let no := x.newest + (t - x.newestAt (devTime s)) / detDur s e 1
        x.newest - 4096 < no - bits (detReg s e 0x1C) 12 0 →
        exec (.forceCapture f) s = .next (contend (setPrism s0 { s.prism with seq := (s.prism.seq + 1) % 65536 })
          ⟨e, s.prism.seq, 0x7FFF, t, no, 0, x.pn, true, false, 0, 0, some f⟩)) ∧
      (f.opcode = 3 → m = 0 → exec (.specClose f) s = .next (prismDone s0 f)) ∧
      (f.opcode = 3 → m ≠ 0 →
        exec (.specClose f) s = .next (setPrism s0 { s.prism with cmds := s.prism.cmds ++ [⟨f, 3, 0, 0, m⟩] }))) ∧
    (∀ (i : Nat) (c : PrismCmd), blockRuns s prismPage = true → s.prism.cmds[i]? = some c → c.op = 1 → c.start + c.len ≤ devTime s →
      exec (.idleWinEnd i) s = .next (prismDone (setPrism s { s.prism with cmds := dropAt s.prism.cmds i }) c.fire))

/-- Calibration and the spare cores (R384, R388–R390, R411–R413, R418): START of an engine whose mirror chain is in MODE 1
records its run and shows BUSY, and does nothing in the DU-end role; ABORT stops it without a record; the end, once LEN × 1,024
blocks are admitted, writes the record's 416 words, word 0 last, and shows DONE; CORE_MAP takes a value that R412 does not
refuse, and a refused one is captured and changes nothing else; a copy is noted, and its end shows DONE. -/
def Obligations.CalibrationAndSparesComplete : Prop :=
  (∀ (a : Acc) (k m : Fin 4) (s : State), let p := dfePage k
    (reaches s a p → duEnd s = true → exec (.calStart a k m) s = .next s) ∧
    (reaches s a p → duEnd s = false → bits (mirrorReg s k m) 1 0 = 1 →
      let cfg := getReg s p (calReg m 0)
      exec (.calStart a k m) s = .next (setReg (setCal s k m (some ⟨mirrorSource s k m, bits cfg 23 16, bits cfg 31 24,
        max 1 (bits cfg 15 0), getPair s p (calReg m 0x04) 6 % 2 ^ 48, devTime s, laneNo s k + 1⟩)) p (calReg m 0x10) (w32 (2 ^ 30)))) ∧
    (∀ r, calOf s k m = some r →
      (reaches s a p → exec (.calAbort a k m) s = .next (setReg (setCal s k m none) p (calReg m 0x10)
        (w32 (2 ^ 29 + (calBlocks s k m r).length / 1024 % 65536)))) ∧
      (let bs := calBlocks s k m r
       blockRuns s p = true → 1024 * r.len ≤ bs.length →
       let s1 := memPut s p (r.out + 4) (wordsBytes (calWords m r (bs.take (1024 * r.len))))
       let s2 := memPut s1 p r.out (leBytes 4 (calHead m r).toNat);
       exec (.calRecordDone k m) s = .next (setReg (setCal s2 k m none) p (calReg m 0x10) (w32 (2 ^ 31 + r.len % 2 ^ 16)))))) ∧
  (∀ (a : Acc) (c : Fin 16) (v : Word) (s : State), let p := clusterPage c
    (reaches s a p → mapRefused s c v = true → exec (.coreMapWrite a c v) s = .next (ownErr s p 6 0x30 none)) ∧
    (reaches s a p → mapRefused s c v = false →
      ∃ t, exec (.coreMapWrite a c v) s = .next t ∧ t.coreMap = kset none s.coreMap c (some v)) ∧
    (reaches s a p → bits v 1 0 = 1 → kget none s.spareJobs c = none → bits v 7 4 < 9 → bits v 11 8 < 9 →
      exec (.spareCopy a c v) s =
        .next (setReg { s with spareJobs := kset none s.spareJobs c (some (bits v 7 4 * 16 + bits v 11 8)) } p 0x108 0x40000000)) ∧
    (∀ j, blockRuns s p = true → kget none s.spareJobs c = some j → (s.memErr.filter fun e => inCore (9 * c.val + j / 16) e.1) = [] →
      let s1 := copyLocal (9 * c.val + j / 16) (9 * c.val + j % 16) [] s
      exec (.spareCopyDone c) s =
        .next (setReg { s1 with spareJobs := kset none s1.spareJobs c none } p 0x108 (w32 (2 ^ 31 + 10240)))))

/-- The scalar instructions complete (R425, R428, R431, R433–R436): alone in a bundle that may issue, each reads its registers
in its issue cycle and puts its result in flight with its latency: one cycle for ALU, address arithmetic and the upper
immediate, three for a multiply, four or six for a load; a store of 1, 2, 4 or 8 bytes goes to the address of its form; a branch
that is taken, and a jump, give the target that follows two delay bundles. -/
def Obligations.ScalarInstructionsComplete : Prop :=
  ∀ (i : Issue) (w : Word26) (s : State),
    let k := fun op => opCtx i ⟨i.slot, slotWord op w, false⟩ s
    let u := fun op => atIssue i ⟨i.slot, slotWord op w, false⟩ s
    (issuesAlone i (slotWord 0x01 w) s →
      let x := (k 0x01).x
      let p := dReg x (bits (slotWord 0x01 w) 20 16)
      let q := dReg x (bits (slotWord 0x01 w) 15 11)
      let res := fun v => issued i (slotWord 0x01 w) (toD (k 0x01) 1 (bits (slotWord 0x01 w) 25 21) v) s
      ∀ g, Config.aluFunc (BitVec.ofNat 11 (slotWord 0x01 w).toNat) = some g →
        exec (.alu i w) s = .next (res (match g with
          | .add => p + q
          | .sub => p - q
          | g => Config.aluValue g p q))) ∧
    (issuesAlone i (slotWord 0x02 w) s →
      exec (.aluImmediate i w) s = .next (issued i (slotWord 0x02 w) (toD (k 0x02) 1 (bits (slotWord 0x02 w) 25 21)
        (Config.aluImm (dReg (k 0x02).x (bits (slotWord 0x02 w) 20 16)) (BitVec.ofNat 16 (bits (slotWord 0x02 w) 15 0)))) s)) ∧
    (issuesAlone i (slotWord 0x03 w) s → ∀ g, Config.mulFunc (BitVec.ofNat 11 (slotWord 0x03 w).toNat) = some g →
      let d := fun hi lo => dReg (k 0x03).x (bits (slotWord 0x03 w) hi lo)
      exec (.multiply i w) s = .next (issued i (slotWord 0x03 w) (toD (k 0x03) 3 (bits (slotWord 0x03 w) 25 21)
        (Config.mulValue g (d 20 16) (d 15 11) (d 25 21))) s)) ∧
    (issuesAlone i (slotWord 0x04 w) s →
      let f := bits (slotWord 0x04 w)
      let n := 2 ^ f 10 9
      let r := addrForm (k 0x04).x (f 20 17) (f 16 14) (f 13 11) (signed 8 (f 7 0) * (n : Nat))
      let a := addr48 r.1
      let far := decide (f 8 8 = 1)
      let l := if reachOf (u 0x04) i.core far a = .local_ then 4 else 6
      addrTrap (k 0x04) false (f 20 17) a n [(0, n)] = none → ∀ v d, loadBytes (u 0x04) i.core far a n = (v, .ok d) →
        let put := fun g : Bun → Bun => issued i (slotWord 0x04 w) (fun b => g (updateA (k 0x04) (f 20 17) r.2 { b with s := v })) s
        (f 10 9 = 3 → exec (.scalarLoad i w) s = .next (put (toDPair (k 0x04) l (f 25 21) (ofLe d)))) ∧
        (f 10 9 ≠ 3 → exec (.scalarLoad i w) s = .next (put (toD (k 0x04) l (f 25 21) (extend (f 10 9) (ofLe d)))))) ∧
    (issuesAlone i (slotWord 0x05 w) s →
      let f := bits (slotWord 0x05 w)
      let n := 2 ^ f 10 9
      let r := addrForm (k 0x05).x (f 20 17) (f 16 14) (f 13 11) (signed 8 (f 7 0) * (n : Nat))
      let a := addr48 r.1
      let src := if f 10 9 = 3 then (dPair (k 0x05).x (f 25 21)).toNat else (dReg (k 0x05).x (f 25 21)).toNat
      addrTrap (k 0x05) true (f 20 17) a n [(0, n)] = none →
        ∀ v y, storeBytes (u 0x05) i.core (decide (f 8 8 = 1)) a ((leBytes n src).map some) = (v, .ok y) →
          exec (.scalarStore i w) s =
            .next (issued i (slotWord 0x05 w) (fun b => updateA (k 0x05) (f 20 17) r.2 { b with s := v }) s)) ∧
    (issuesAlone i (slotWord 0x06 w) s →
      let g := Config.addrOp (BitVec.ofNat 26 (slotWord 0x06 w).toNat)
      let res := fun d : Int => issued i (slotWord 0x06 w)
        (toA (k 0x06) 1 g.dst (BitVec.ofNat 64 (wrapN 64 ((aReg (k 0x06).x g.src).toNat + d)))) s
      exec (.addressArithmetic i w) s = .next (res (match g.byReg with
        | some j => (dReg (k 0x06).x j).toInt
        | none => signed 16 (bits (slotWord 0x06 w) 15 0)))) ∧
    (issuesAlone i (slotWord 0x07 w) s →
      exec (.loadUpperImmediate i w) s = .next (issued i (slotWord 0x07 w)
        (toD (k 0x07) 1 (bits (slotWord 0x07 w) 25 21) (w32 (bits (slotWord 0x07 w) 15 0 * 2 ^ 16))) s)) ∧
    (issuesAlone i (slotWord 0x08 w) s →
      let cc := bits (slotWord 0x08 w) 25 22
      let r := bits (slotWord 0x08 w) 21 17
      let v := dReg (k 0x08).x r
      let go := fun b : Bun => { b with taken := some (dispTarget (k 0x08)) }
      (branchCond cc v = false → exec (.conditionalBranch i w) s = .next (issued i (slotWord 0x08 w) id s)) ∧
      (branchCond cc v = true → cc ≠ 7 → exec (.conditionalBranch i w) s = .next (issued i (slotWord 0x08 w) go s)) ∧
      (branchCond cc v = true → cc = 7 →
        exec (.conditionalBranch i w) s = .next (issued i (slotWord 0x08 w) (fun b => toD (k 0x08) 1 r (v - 1) (go b)) s))) ∧
    (issuesAlone i (slotWord 0x09 w) s → ∀ j, Config.jumpOp (BitVec.ofNat 26 (slotWord 0x09 w).toNat) = some j →
      let res := match j.through with
        | some a => (aReg (k 0x09).x a).toNat % 2 ^ 48
        | none => dispTarget (k 0x09)
      let go := fun b : Bun => { b with taken := some res }
      exec (.jump i w) s = .next (issued i (slotWord 0x09 w) (match j.link with
        | none => go
        | some a => fun b => toA (k 0x09) 1 a (Config.linkAddr (k 0x09).x.pc) (go b)) s))

/-- The system instructions complete (R443, R444, R446–R449, R452, R453, R456, R459, R471): alone in a bundle that may issue,
each does this: TSEND publishes its region and sends its token with flags [3:0] and no error mark; TDONE publishes, frees the
slot and completes its fire; FWAIT takes the oldest record that waits, or waits; FLUSH, INVAL and FLINV work on the lines of
their region; FENCE makes a write error trap at the bundle's end; ISYNC only goes on; MFC and MTC move a control register with
latency 2; RTI and WAIT are what the core does at the bundle's end; ISAVE writes the 256 bytes of the interrupted context and
clears STATUS.SHB, IRESTORE reads them and sets it; TRAP takes its trap once the bundle is complete. -/
def Obligations.SystemInstructionsComplete : Prop :=
  ∀ (i : Issue) (w : Word20) (s : State),
    let o := fun fn => (⟨i.slot, sysWord fn w, false⟩ : Staged)
    let k := fun fn => opCtx i (o fn) s
    let u := fun fn => atIssue i (o fn) s
    let f := fun fn => bits (sysWord fn w)
    let may := fun fn => issuesAlone i (sysWord fn w) s
    let c : Nat := i.core
    let p := corePage c
    (may 0x01 → ∀ b, publish (k 0x01) (f 0x01 10 7) (f 0x01 6 2) (bun0 (u 0x01)) = (b, true) →
      let x := (k 0x01).x
      let a := aReg x (f 0x01 14 11)
      let t := tokenOfWords (w32 a.toNat) (w32 (a.toNat / 2 ^ 32)) (dReg x (f 0x01 19 15)) (dReg x (f 0x01 19 15 + 1))
      exec (.tsend i w) s = .next (issued i (sysWord 0x01 w)
        (fun _ => { b with s := incCnt (sendTok b.s p (f 0x01 1 0) { t with flags := t.flags &&& 0x0F, rsvd := 0 }) p 3 }) s)) ∧
    (may 0x02 → ∀ b g, publish (k 0x02) (f 0x02 11 8) (f 0x02 7 3) (bun0 (u 0x02)) = (b, true) →
      currentSlot b.s c (k 0x02).x (aReg (k 0x02).x (f 0x02 19 16)).toNat = some g →
      let s1 := modCore b.s c fun x => { x with slots := dropFirst (fun h => decide (h.idx = g.idx)) x.slots }
      exec (.tdone i w) s = .next (issued i (sysWord 0x02 w) (fun _ =>
        { b with s := incCnt (complete s1 p g.rec_ (decide (f 0x02 2 2 = 1)) (aReg (k 0x02).x (f 0x02 15 12))) p 2 }) s)) ∧
    (may 0x03 → i.slot = 1 →
      (∀ g, waitingSlot (k 0x03).x = some g →
        let s1 := modCore (u 0x03) c fun x =>
          { x with slots := x.slots.map fun h => if h.idx = g.idx then { h with current := true } else h }
        exec (.fwait i w) s = .next (issued i (sysWord 0x03 w) (fun b =>
          toA (k 0x03) 1 (f 0x03 19 16) (BitVec.ofNat 64 (slotAddr s1 c g.idx)) { b with s := s1 }) s)) ∧
      (waitingSlot (k 0x03).x = none → enabled (landed i (o 0x03) s) p = true →
        exec (.fwait i w) s = .next (modCore (landed i (o 0x03) s) c fun y => { y with run := .fwait, staged := [o 0x03] }))) ∧
    (let r := fun fn => ((aReg (k fn).x (f fn 19 16)).toNat % 2 ^ 48, (dReg (k fn).x (f fn 15 11)).toNat)
     (may 0x04 → exec (.flush i w) s = .next (issued i (sysWord 0x04 w)
        (fun b => { b with s := flushLines b.s c (r 0x04).1 (r 0x04).2 }) s)) ∧
     (may 0x05 → exec (.inval i w) s = .next (issued i (sysWord 0x05 w)
        (fun b => { b with s := invalLines b.s c (r 0x05).1 (r 0x05).2 }) s)) ∧
     (may 0x06 → exec (.flinv i w) s = .next (issued i (sysWord 0x06 w)
        (fun b => { b with s := invalLines (flushLines b.s c (r 0x06).1 (r 0x06).2) c (r 0x06).1 (r 0x06).2 }) s))) ∧
    (may 0x07 → exec (.fence i w) s = .next (issued i (sysWord 0x07 w) (fun b => { b with sync := true }) s)) ∧
    (may 0x08 → exec (.isync i w) s = .next (issued i (sysWord 0x08 w) id s)) ∧
    (may 0x09 → exec (.mfc i w) s = .next (issued i (sysWord 0x09 w)
      (toD (k 0x09) 2 (f 0x09 19 15) (readCr (u 0x09) c (k 0x09).x (f 0x09 5 0))) s)) ∧
    (may 0x0A → exec (.mtc i w) s = .next (issued i (sysWord 0x0A w)
      (inFlight (k 0x0A) 2 (.cr (f 0x0A 5 0) (dReg (k 0x0A).x (f 0x0A 19 15)))) s)) ∧
    (may 0x0B → exec (.rti i w) s = .next (issued i (sysWord 0x0B w) (fun b => { b with post := some .rti }) s)) ∧
    (may 0x0C → let a := (aReg (k 0x0C).x (f 0x0C 19 16)).toNat % 2 ^ 48
      addrTrap (k 0x0C) true (f 0x0C 19 16) a 1 [] = none →
      ∀ v y, storeParts c a (saveBytes (k 0x0C).x) [0, 1, 2, 3] (u 0x0C) = (v, .ok y) →
        exec (.isave i w) s = .next (issued i (sysWord 0x0C w) (fun b => { b with s := setShb false c v }) s)) ∧
    (may 0x0D → let a := (aReg (k 0x0D).x (f 0x0D 19 16)).toNat % 2 ^ 48
      addrTrap (k 0x0D) false (f 0x0D 19 16) a 1 [] = none →
      ∀ v d, loadParts c a [0, 1, 2, 3] (u 0x0D) [] = (v, .ok d) →
        exec (.irestore i w) s = .next (issued i (sysWord 0x0D w)
          (fun b => { b with s := setShb true c (modCore v c fun x => restoreBytes x d) }) s)) ∧
    (may 0x0E → exec (.trap i w) s = .next (issued i (sysWord 0x0E w)
      (fun b => { b with comp := some ⟨9, f 0x0E 7 0, i.slot, false, f 0x0E 15 0⟩ }) s)) ∧
    (may 0x0F → exec (.wait i w) s = .next (issued i (sysWord 0x0F w) (fun b => { b with post := some .wait }) s))

/-- How a bundle ends (R426, R428, R429, R445, R458, R459, R461, R465, R475, R477), for every bundle `b` that has not faulted:
it counts, the results of its operations are in flight, and the next bundle is the one that follows, or the target of a branch
once its two delay bundles are through; RTI takes STATUS, the address and the delay bundles from ESTATUS, EPC and EBT; WAIT
stops the core; a trap of its completion saves the address after it. A result that lands is what its register reads, D0 and P0
but for: they read zero and all ones. -/
def Obligations.BundlesEndAndResultsLand : Prop :=
  (∀ (c : Nat) (b : Bun), let x := coreOf b.s c
    b.fault = none → b.comp = none → b.sync = false → b.hold = false → x.run = .running → x.lost = none →
      ∃ t, bundleEnd c x b = t ∧ t.mem = b.s.mem ∧ t.regs = b.s.regs ∧
        (b.post = none → (coreOf t c).run = .running ∧ (coreOf t c).pend = x.pend ++ b.pend ∧ (coreOf t c).cyc = x.cyc + 1 ∧
          (∀ a, b.taken = some a → (coreOf t c).pc = (x.pc + 16) % 2 ^ 48 ∧ (coreOf t c).bd = 2 ∧ (coreOf t c).bt = a) ∧
          (b.taken = none → x.bd = 0 → (coreOf t c).pc = (x.pc + 16) % 2 ^ 48 ∧ (coreOf t c).bd = 0) ∧
          (b.taken = none → x.bd = 1 → (coreOf t c).pc = x.bt ∧ (coreOf t c).bd = 0) ∧
          (b.taken = none → 1 < x.bd → (coreOf t c).pc = (x.pc + 16) % 2 ^ 48 ∧ (coreOf t c).bd = x.bd - 1 ∧
            (coreOf t c).bt = x.bt)) ∧
        (b.post = some .rti → kup x.cr = true → (coreOf t c).pc = crPair x 3 ∧ (coreOf t c).bd = bits (getCr x 2) 28 27 ∧
          (coreOf t c).bt = crPair x 5 ∧ getCr (coreOf t c) 1 = (getCr x 2 &&& 0xA7000000)) ∧
        (b.post = some .wait → (coreOf t c).run = .wait)) ∧
  (∀ (x : CoreSt) (i t : Nat) (v : Word) (sp : Bool), kup x.d = true → x.pend = [⟨t, 0, .d (dKey x i) v⟩] →
    dReg (landBy sp x t) i = if i = 0 then 0 else v) ∧
  (∀ (x : CoreSt) (i t : Nat) (v : Dword) (sp : Bool), kup x.a = true → x.pend = [⟨t, 0, .a (aKey x i) v⟩] →
    aReg (landBy sp x t) i = v) ∧
  (∀ (x : CoreSt) (i t : Nat) (v : Dword) (sp : Bool), kup x.p = true → x.pend = [⟨t, 0, .p i v⟩] →
    pReg (landBy sp x t) i = if i = 0 then BitVec.allOnes 64 else v) ∧
  (∀ (x : CoreSt) (i t : Nat) (m v : Vec) (sp : Bool), kup x.v = true → x.pend = [⟨t, 0, .v i m v⟩] →
    vReg (landBy sp x t) i = (vReg x i &&& ~~~m) ||| (v &&& m))

/-- The vector instructions complete (R472, R473, R479–R484, R488–R494, R497, R498): alone in a bundle that may issue, each puts
its result in flight: an element operation the elements of its active places with latency 2, 3 or 4, VMAC and FTAP their additions
to an accumulator with latency 4, a compare, a rounding with its flags and a predicate operation a predicate, a reduction
a data register. -/
def Obligations.VectorInstructionsComplete : Prop :=
  ∀ (i : Issue) (w : Word26) (s : State),
    let k := fun op => opCtx i ⟨i.slot, slotWord op w, false⟩ s
    let f := fun op => bits (slotWord op w)
    let V := fun op hi lo => vReg (k op).x (f op hi lo)
    let P := fun op hi lo => pReg (k op).x (f op hi lo)
    let ty := fun op => f op 6 4
    let zm := fun op => decide (f op 7 7 = 1)
    (issuesAlone i (slotWord 0x15 w) s → exec (.valu i w) s = .next (issued i (slotWord 0x15 w)
      (toVPred (k 0x15) 2 (ty 0x15) (f 0x15 10 8) (zm 0x15)
        (zipElems (ty 0x15) (V 0x15 20 16) (vElems (ty 0x15) (V 0x15 15 11)) (valuElem (f 0x15 3 0) (ty 0x15)))) s)) ∧
    (issuesAlone i (slotWord 0x16 w) s →
      let t := ty 0x16
      let r := if t = 4 then (dPair (k 0x16).x (f 0x16 15 11)).toNat else (dReg (k 0x16).x (f 0x16 15 11)).toNat % 2 ^ tyWidth t
      exec (.valuScalar i w) s = .next (issued i (slotWord 0x16 w) (toVPred (k 0x16) 2 t (f 0x16 10 8) (zm 0x16)
        (zipElems t (V 0x16 20 16) (List.replicate (tyN t) r) (valuElem (f 0x16 3 0) t))) s)) ∧
    (issuesAlone i (slotWord 0x17 w) s →
      let m := vmacAdds (f 0x17 3 0) (ty 0x17) (V 0x17 22 18) (V 0x17 17 13) (P 0x17 12 10) (decide (f 0x17 8 8 = 1)) (zm 0x17)
      exec (.vmac i w) s = .next (issued i (slotWord 0x17 w)
        (inFlight (k 0x17) 4 (.acAdd (f 0x17 25 23) (if f 0x17 9 9 = 1 then m.1 else []) m.2)) s)) ∧
    (issuesAlone i (slotWord 0x18 w) s →
      let t := ty 0x18
      let rs := (List.range (tyN t)).map (vrndElem t (f 0x18 17 13) (f 0x18 9 8) (acReg (k 0x18).x (f 0x18 20 18)))
      let val := toVPred (k 0x18) 3 t (f 0x18 12 10) (zm 0x18) (rs.map (·.1))
      (f 0x18 0 0 = 0 → exec (.vrnd i w) s = .next (issued i (slotWord 0x18 w) val s)) ∧
      (f 0x18 0 0 = 1 → exec (.vrnd i w) s = .next (issued i (slotWord 0x18 w) (fun b => inFlight (k 0x18) 3
        (.p (f 0x18 3 1) (predOf ((List.zip (actives t (P 0x18 12 10)) rs).map fun (act, r) => act && r.2))) (val b)) s))) ∧
    (issuesAlone i (slotWord 0x19 w) s → exec (.vperm i w) s = .next (issued i (slotWord 0x19 w)
      (toVPred (k 0x19) 2 (ty 0x19) (f 0x19 10 8) (zm 0x19)
        (vpermElems (f 0x19 3 0) (ty 0x19) (V 0x19 20 16) (V 0x19 15 11) (f 0x19 15 11))) s)) ∧
    (issuesAlone i (slotWord 0x1A w) s →
      let t := ty 0x1A
      exec (.vcmp i w) s = .next (issued i (slotWord 0x1A w) (inFlight (k 0x1A) 2 (.p (f 0x1A 25 23)
        (predOf ((actives t (P 0x1A 10 8)).zipIdx.map fun (act, e) =>
          if act then vcmpElem (f 0x1A 3 0) t (vElem t (V 0x1A 20 16) e) (vElem t (V 0x1A 15 11) e)
          else !zm 0x1A && (P 0x1A 25 23).toNat.testBit e)))) s)) ∧
    (issuesAlone i (slotWord 0x1B w) s →
      let n := tyN (ty 0x1B)
      let fn := f 0x1B 3 0
      let pa := (P 0x1B 22 20).toNat
      let pb := (P 0x1B 19 17).toNat
      let rd := f 0x1B 16 12
      let res := fun v => issued i (slotWord 0x1B w) (inFlight (k 0x1B) 2 (.p (f 0x1B 25 23) v)) s
      let low := fun g : Nat → Bool => res (predOf ((List.range n).map g))
      let d := fun v : Nat => issued i (slotWord 0x1B w) (toD (k 0x1B) 2 rd (w32 v)) s
      (fn = 0 → exec (.vpred i w) s = .next (low fun e => pa.testBit e && pb.testBit e)) ∧
      (fn = 1 → exec (.vpred i w) s = .next (low fun e => pa.testBit e || pb.testBit e)) ∧
      (fn = 2 → exec (.vpred i w) s = .next (low fun e => pa.testBit e != pb.testBit e)) ∧
      (fn = 3 → exec (.vpred i w) s = .next (low fun e => pa.testBit e && !pb.testBit e)) ∧
      (fn = 4 → exec (.vpred i w) s = .next (low fun e => !pa.testBit e)) ∧
      (fn = 5 → exec (.vpred i w) s = .next (low fun e => decide (e < min (dReg (k 0x1B).x rd).toNat n))) ∧
      (fn = 6 → exec (.vpred i w) s = .next (issued i (slotWord 0x1B w) (toDPair (k 0x1B) 2 rd pa) s)) ∧
      (fn = 7 → exec (.vpred i w) s = .next (res (dPair (k 0x1B).x rd))) ∧
      (fn = 8 → exec (.vpred i w) s = .next (d ((List.range n).filter fun e => pa.testBit e).length)) ∧
      (fn = 9 → exec (.vpred i w) s = .next (d (((List.range n).find? fun e => pa.testBit e).getD n)))) ∧
    (issuesAlone i (slotWord 0x1C w) s →
      let els := fun v => vElems 5 v
      exec (.vfp i w) s = .next (issued i (slotWord 0x1C w) (toVPred (k 0x1C) 4 5 (f 0x1C 10 8) (zm 0x1C)
        ((List.zip (els (V 0x1C 20 16)) (List.zip (els (V 0x1C 15 11)) (els (V 0x1C 25 21)))).map fun (p, q, d) =>
          (vfpElem (f 0x1C 3 0) (w32 p) (w32 q) (w32 d) (f 0x1C 15 11)).toNat)) s)) ∧
    (issuesAlone i (slotWord 0x1D w) s →
      let v := vredVal (f 0x1D 3 0) (ty 0x1D) (V 0x1D 20 16) (P 0x1D 10 8) (f 0x1D 15 11)
      let pair := f 0x1D 3 0 = 5 ∧ ty 0x1D = 4
      (pair → exec (.vred i w) s = .next (issued i (slotWord 0x1D w) (toDPair (k 0x1D) 4 (f 0x1D 25 21) v) s)) ∧
      (¬pair → exec (.vred i w) s = .next (issued i (slotWord 0x1D w) (toD (k 0x1D) 4 (f 0x1D 25 21) (w32 v)) s))) ∧
    (issuesAlone i (slotWord 0x1F w) s →
      let vd := f 0x1F 22 18
      let v0 := vReg (k 0x1F).x vd
      let v1 := vReg (k 0x1F).x (vd + 1)
      let add := ftapAdds v0 (V 0x1F 17 13) (f 0x1F 12 9) (decide (f 0x1F 8 8 = 1)) (zm 0x1F)
      let m := ftapMove v0 v1
      let all := BitVec.allOnes 512
      exec (.ftap i w) s = .next (issued i (slotWord 0x1F w) (fun b =>
        toV (k 0x1F) 1 (vd + 1) all m.2 (toV (k 0x1F) 1 vd all m.1
          (inFlight (k 0x1F) 4 (.acAdd (f 0x1F 25 23) (if f 0x1F 6 6 = 1 then List.range 32 else []) add) b))) s))

/-- The vector loads and stores and the coprocessor instructions complete (R500–R508, R518, R521–R523, R531–R534): alone in
a bundle that may issue and whose access takes no trap, VLD, VST and VXFER move the active bytes of a vector, a third of an
accumulator or a predicate; VGATHER and VSCATTER work through their elements and leave ERI zero; MXOP is accepted by its MXC with
its bundle's fate; MXSB and MXSTAT read the context; MXSAVE and MXRST move it; MXCANCEL cancels what it names. -/
def Obligations.VectorMemoryAndMxComplete : Prop :=
  ∀ (i : Issue) (w : Word26) (s : State),
    let k := fun op => opCtx i ⟨i.slot, slotWord op w, false⟩ s
    let u := fun op => atIssue i ⟨i.slot, slotWord op w, false⟩ s
    let f := fun op => bits (slotWord op w)
    let c : Nat := i.core
    let far := fun op => decide (f op 8 8 = 1)
    let m := mxcCtx s c
    let ctx := mxCtxOf s m.1 m.2
    (issuesAlone i (slotWord 0x10 w) s →
      let a := (vecAddr (k 0x10) (signed 5 (f 0x10 4 0)) 64).1
      let upd := (vecAddr (k 0x10) (signed 5 (f 0x10 4 0)) 64).2
      let runs := activeRuns (activeBytes (pReg (k 0x10).x (f 0x10 7 5)) (2 ^ f 0x10 10 9))
      vecTrap (k 0x10) false a (vldAlign (k 0x10)) runs = none →
      ∀ v d, loadRuns c (far 0x10) a runs (u 0x10) (List.replicate 64 0) = (v, .ok d) →
        exec (.vld i w) s = .next (issued i (slotWord 0x10 w) (fun b => updateA (k 0x10) (f 0x10 20 17) upd
          (toV (k 0x10) (vecLat (u 0x10) c (far 0x10) a) (f 0x10 25 21) (BitVec.allOnes 512) (BitVec.ofNat 512 (ofLe d))
            { b with s := v })) s)) ∧
    (issuesAlone i (slotWord 0x11 w) s →
      let a := (vecAddr (k 0x11) (signed 5 (f 0x11 4 0)) 64).1
      let upd := (vecAddr (k 0x11) (signed 5 (f 0x11 4 0)) 64).2
      let act := activeBytes (pReg (k 0x11).x (f 0x11 7 5)) (2 ^ f 0x11 10 9)
      let d := (List.zip act (leBytes 64 (vReg (k 0x11).x (f 0x11 25 21)).toNat)).map fun (p, x) => if p then some x else none
      vecTrap (k 0x11) true a (vldAlign (k 0x11)) (activeRuns act) = none →
      ∀ v y, storeBytes (u 0x11) c (far 0x11) a d = (v, .ok y) →
        exec (.vst i w) s = .next (issued i (slotWord 0x11 w)
          (fun b => updateA (k 0x11) (f 0x11 20 17) upd { b with s := v }) s)) ∧
    (issuesAlone i (slotWord 0x12 w) s →
      let t := eszType (f 0x12 7 6)
      let r := (List.range (tyN t)).foldl (gsElem (k 0x12) true) ⟨u 0x12, [], true, none⟩
      r.bad = none →
        exec (.vgather i w) s = .next (issued i (slotWord 0x12 w) (fun b => toV (k 0x12) (if r.near then 5 else 7) (f 0x12 25 21)
          (gotMask t r.got).1 (gotMask t r.got).2 { b with s := setEri c 0 0 r.s }) s)) ∧
    (issuesAlone i (slotWord 0x13 w) s →
      let r := (List.range (tyN (eszType (f 0x13 7 6)))).foldl (gsElem (k 0x13) false) ⟨u 0x13, [], true, none⟩
      r.bad = none →
        exec (.vscatter i w) s = .next (issued i (slotWord 0x13 w) (fun b => { b with s := setEri c 0 0 r.s }) s)) ∧
    (issuesAlone i (slotWord 0x14 w) s →
      let kind := f 0x14 10 9
      let n := if kind ≤ 1 then 64 else 8
      let reg := f 0x14 25 23
      let part := f 0x14 22 21
      let a := (vecAddr (k 0x14) (signed 8 (f 0x14 7 0)) n).1
      let upd := (vecAddr (k 0x14) (signed 8 (f 0x14 7 0)) n).2
      (kind = 0 ∨ kind = 2 → addrTrap (k 0x14) false (f 0x14 20 17) a n [(0, n)] = none →
        ∀ v d, loadBytes (u 0x14) c (far 0x14) a n = (v, .ok d) →
          let dest := if kind = 0 then
              Dest.acBits reg (BitVec.ofNat 1536 (2 ^ 512 - 1) <<< (512 * part)) (BitVec.ofNat 1536 (ofLe d) <<< (512 * part))
            else .p reg (BitVec.ofNat 64 (ofLe d))
          exec (.vxfer i w) s = .next (issued i (slotWord 0x14 w) (fun b => updateA (k 0x14) (f 0x14 20 17) upd
            (inFlight (k 0x14) (vecLat (u 0x14) c (far 0x14) a) dest { b with s := v })) s)) ∧
      (kind = 1 ∨ kind = 3 → addrTrap (k 0x14) true (f 0x14 20 17) a n [(0, n)] = none →
        let val := if kind = 1 then (acReg (k 0x14).x reg).toNat / 2 ^ (512 * part) else (pReg (k 0x14).x reg).toNat
        ∀ v y, storeBytes (u 0x14) c (far 0x14) a ((leBytes n val).map some) = (v, .ok y) →
          exec (.vxfer i w) s = .next (issued i (slotWord 0x14 w)
            (fun b => updateA (k 0x14) (f 0x14 20 17) upd { b with s := v }) s))) ∧
    (issuesAlone i (slotWord 0x20 w) s →
      let w0 := dReg (k 0x20).x (2 * f 0x20 18 16)
      let w1 := dReg (k 0x20).x (2 * f 0x20 18 16 + 1)
      let a := (aReg (k 0x20).x (f 0x20 21 19)).toNat % 2 ^ 48
      mxRefusal (u 0x20) m.1 w0 w1 = 0 →
        let v := mxAccept (u 0x20) m.1 m.2 (f 0x20 25 22) a w0 w1 .commit;
        exec (.mxop i w) s = .next (issued i (slotWord 0x20 w) (fun b => { b with s := v }) s)) ∧
    (issuesAlone i (slotWord 0x21 w) s → exec (.mxsb i w) s = .next (issued i (slotWord 0x21 w)
      (toD (k 0x21) 2 (f 0x21 25 21) (w32 (ctx.err.toNat * 2 ^ 16 + ctx.busy.toNat))) s)) ∧
    (issuesAlone i (slotWord 0x22 w) s → exec (.mxstat i w) s = .next (issued i (slotWord 0x22 w)
      (toD (k 0x22) 2 (f 0x22 25 21) (w32 (ctx.refusal * 2 ^ 28 + ctx.error * 2 ^ 16))) s)) ∧
    (issuesAlone i (slotWord 0x23 w) s →
      let a := (aReg (k 0x23).x (f 0x23 21 19)).toNat % 2 ^ 48
      addrTrap (k 0x23) true (f 0x23 21 19) a 64 [(0, 64)] = none →
      ∀ v y, storeBytes (u 0x23) c false a ((leBytes 4 (mxsbWord ctx).toNat ++ leBytes 4 (ctxInfo ctx).toNat ++
          List.replicate 56 0).map some) = (v, .ok y) →
        exec (.mxsave i w) s = .next (issued i (slotWord 0x23 w) (fun b => { b with s := v }) s)) ∧
    (issuesAlone i (slotWord 0x24 w) s →
      let a := (aReg (k 0x24).x (f 0x24 21 19)).toNat % 2 ^ 48
      addrTrap (k 0x24) false (f 0x24 21 19) a 64 [(0, 64)] = none →
      ∀ v d, loadBytes (u 0x24) c false a 64 = (v, .ok d) → mxcCtx v c = m →
        let t := modCtx v m.1 m.2 fun c => { c with
          err := BitVec.ofNat 16 (bits (wordAt d 0) 31 16), refusal := bits (wordAt d 1) 31 28, error := bits (wordAt d 1) 23 16 };
        exec (.mxrst i w) s = .next (issued i (slotWord 0x24 w) (fun b => { b with s := t }) s)) ∧
    (issuesAlone i (slotWord 0x25 w) s → exec (.mxcancel i w) s = .next (issued i (slotWord 0x25 w)
      (fun b => { b with s := mxCancel m.1 m.2 (f 0x25 15 0) b.s }) s))

/-- The events of a core and its debug commands complete (R445, R451, R452, R458, R459, R468, R469, R477): the line that wins is
taken at a bundle boundary or out of FWAIT or WAIT, at its vector, with the state saved; a pending write error traps; a record
that has arrived goes into the lowest free slot, and a core in FWAIT takes it up; with debug open HALT_REQ halts a core that
executes, and STEP lets one that HALT_REQ has halted run a bundle. -/
def Obligations.CoreEventsComplete : Prop :=
  ∀ (c : Fin 152) (s : State),
    let p := corePage c
    let x := coreOf s c
    (∀ n : Fin 32, let y := landBy (isS c) x x.cyc
      (x.run = .running ∧ x.staged = [] ∨ x.run = .fwait ∨ x.run = .wait) → lineWins s c y n = true →
        blockRuns s p = true →
        ∃ t, exec (.interruptEntry c n) s = .next t ∧
          t = enterHandler c y.pc (0x20 + n) (0x20 + n) (some (linePri y n)) (incCnt s p 5) ∧
          (x.pend = [] → kup x.cr = true →
            (coreOf t c).pc = (crPair x 0x0A / 2 ^ 12 * 2 ^ 12 + (0x20 + n) * 64) % 2 ^ 48 ∧ (coreOf t c).run = .running ∧
            getCr (coreOf t c) 1 = putBits (putBit (putBit (getCr x 1) 31 true) 30 true) 26 24 (linePri y n) ∧
            getCr (coreOf t c) 2 = statusOf x ∧ crPair (coreOf t c) 3 = x.pc % 2 ^ 48 ∧
            getCr (coreOf t c) 7 = w32 (0x20 + n))) ∧
    (∀ a, blockRuns s p = true → x.werr = some a → shbOf x = false → (x.run = .running ∧ x.staged = [] ∨ x.run = .fwait ∨ x.run = .wait) →
      exec (.asyncWerr c) s = .next (takeTrap c x.pc ⟨0x0A, 0, 0, false, a⟩ (setCore s c { x with werr := none }))) ∧
    (∀ (f : FireRec) (i : Nat), memberPage s f.pool.toNat f.member.toNat = some p → f ∈ s.arrived → pageClock s p = true →
      enabled s p = true →
      x.run ≠ .halted → ((List.range (slotCount c)).find? fun i => !x.slots.any fun g => decide (g.idx = i)) = some i →
      let s1 := takeArrived s f
      let s2 := if isS c then memPut s1 p (slotAddr s1 c i) (fireBytes f) else (memWrite s1 p (slotAddr s1 c i) (fireBytes f)).1
      let t := modCore s2 c fun x => { x with slots := x.slots ++ [⟨i, f, false⟩] }
      ((coreOf t c).run ≠ .fwait → exec (.fireRecordArrival c f) s = .next t) ∧
      ((coreOf t c).run = .fwait → exec (.fireRecordArrival c f) s = .next (runBundle c (coreOf t c).staged t))) ∧
    (∀ a : Acc, reaches s a p → debugOpen s = true →
      (x.run = .running ∨ x.run = .fwait ∨ x.run = .wait →
        exec (.dbgHaltReq a c) s = .next (haltCore (modReg s p 0x110 fun w => putBit w 0 true) c 3)) ∧
      (x.run = .halted → x.haltCause = 3 →
        exec (.dbgStep a c) s = .next (setCore s c { x with run := .running, step := true })))

/-- The commands of an MXC complete (R516, R517, R523, R531–R533, R536, R537, R541–R543, R548, R549): a bundle's operations are
committed or abandoned; at a sub-tile boundary a fire of class 0 runs, else the next of the nine sources that has
an operation; the operation that runs ends with its elements computed; a fire with an owned, valid descriptor is taken; CTX_CANCEL
cancels in the context that CTX_SEL selects. -/
def Obligations.MxcCommandsComplete : Prop :=
  ∀ (m : Fin 16) (s : State),
    let p := mxcPage m
    let x := mxcOf s m
    (∀ k : Fin 8, blockRuns s p = true →
      exec (.bundleCommit m k) s = .next (setMxc s m { x with
        ops := x.ops.map fun o => if o.ctx = some k.val ∧ o.fate = .commit then { o with fate := .committed } else o }) ∧
      (∀ o : MxOp, (x.ops.filter fun o => o.ctx = some k.val ∧ o.fate = .squash) = [o] →
        let s0 := if (x.ops.find? fun q => q.ctx = some k.val) = some o then mxPeek m o s else s
        let s1 := modMxc s0 m fun x => { x with ops := dropFirst (fun q => decide (q = o)) x.ops }
        exec (.bundleSquash m k) s = .next (incCnt (modCtx s1 m k fun c =>
          { c with busy := c.busy &&& ~~~bit16 o.sb, err := c.err &&& ~~~bit16 o.sb }) p 3))) ∧
    (blockRuns s p = true →
     let turn := ((List.range 9).map fun i => (x.rot + 1 + i) % 9).find? fun c => (mxHead x c).isSome
     (∀ o f, (mxFires x).head? = some o → o.fire = some f → f.urg = 0 →
        exec (.subtileBoundary m) s = .next (setMxc s m (mxPick x 8))) ∧
     (∀ c, ((mxFires x).head?.any fun o => o.fire.any fun f => decide (f.urg = 0)) = false → turn = some c →
        exec (.subtileBoundary m) s = .next (setMxc s m (mxPick { x with rot := c } c))) ∧
     ((mxFires x).head? = none → turn = none → exec (.subtileBoundary m) s = .next (setMxc s m (mxPick x 15)))) ∧
    (∀ (o : MxOp) (u : State) (ws : List Word) (v : State) (wk : MxWork), blockRuns s p = true → s.memc.fc = none →
      dramClock s = true → x.ops.find? (·.now) = some o →
      (o.fire.isSome ∨ o.fate = .committed) → mxDesc (setMxc s m { x with running := 15 }) p o.desc = (u, .ok ws) →
      (o.fire.isSome ∨ wWord ws 5 = o.shape0 ∧ wWord ws 6 = o.shape1) → bit (wWord ws 0) 31 = true → mxDescOk ws = true →
      o.cancelled = false →
      let h := shapeOf (wWord ws 5) (wWord ws 6)
      mxElements p h ws (List.range h.count) u ⟨0, 0, 0⟩ = (v, wk, none) →
        exec (.mxcOpDone m false) s = .next (mxFinish m o ws ⟨0, 0, 0, wk⟩ v)) ∧
    (∀ (f : FireRec) (u : State) (ws : List Word), f.member.toNat % 16 = m → (∀ y ∈ s.unowned, y.1 ≠ p) → f ∈ s.arrived →
      pageClock s p = true → enabled s p = true →
      mxDesc (takeArrived s f) p (f.p0.toNat % 2 ^ 48) = (u, .ok ws) → bit (wWord ws 0) 31 = true → mxDescOk ws = true →
      f.opcode.toNat = bits (wWord ws 0) 3 0 →
      let op : MxOp := ⟨none, 0, some f, f.p0.toNat % 2 ^ 48, 0, 0, .committed, false, false, false, false⟩
      let t := modMxc (mxRetry m u) m fun x => { x with ops := x.ops ++ [op] }
      (haActive t p = false → exec (.mxcFire f) s = .next t) ∧
      (haActive t p = true → exec (.mxcFire f) s = .next (mxExport m op t))) ∧
    (∀ (a : Acc) (v : Word), reaches s a p →
      exec (.ctxCancel a m v) s = .next (mxCancel m (bits (getReg s p 0x100) 2 0) (bits v 15 0) s))

/-- The transactions of the fabric complete (R554–R558, R561–R567, R572, R615): a read or write that its leaf port takes, and
whose path the tables and links carry, reaches its target, which answers it; a response that reaches its port ends the request;
a request with no response for LP_TIMEOUT ends with TIMEOUT; the oldest token or fire record of its class reaches the dispatcher
or its unit; a reserved slot carries the flit of its input, counts as empty, or discards the flit where its table entry is in
error (R571). -/
def Obligations.FabricTransfersComplete : Prop :=
  ∀ s : State,
    (∀ (q : Req) (dst : Nat), findReq s q.id = some q → q.answer = none → q.lost = false → dmaUnsent s q = false →
      rtrOn s (q.srcLp / 8) = true → fabricClock s = true → addrLp s q.addr = some dst →
      let q1 := { q with dstLp := dst }
      let e := stamped s q
      let arrived := q.at_.any fun p => decide (p.r = 7)
      let hs := if arrived then [] else (hopsOf q.srcLp dst).drop (match q.at_ with | some p => p.hop | none => 0)
      pageOrderHeld s q1 = false → (arrived = true ∨ canGo s e q.at_ q.srcLp dst 4 = true) → pathCheck s e dst hs = (s, false) →
      let w := modReq (crossHops hs 4 (reqHdr s q1) s) q.id fun r => { r with dstLp := dst, epoch := e, at_ := some ⟨7, 0, 4, 0, 0⟩ }
      ∀ v r,
        (q.isWrite = false → serveRd q1 w = (some r, v) → exec (.rd (.queued q.id) none .good) s = .next (respond v q.id r)) ∧
        (q.isWrite = true → serveWr q1 false w = (some r, v) → exec (.wr (.queued q.id) none .good) s = .next (respond v q.id r))) ∧
    (∀ (a : Acc) (addr : Addr) (len : Nat) (data : List Byte) (be : BitVec 64), findReq s s.fab.nextId = none →
      let put (d : Nat) (wr : Bool) (n : Nat) (ds : List Byte) (en : BitVec 64) : State := modFab s fun f => { f with
        reqs := f.reqs ++ [⟨f.nextId, a.who, a.viaRing, initLp s a.who, (addrLp s d).getD 44, f.cur, wr, d, n, ds, en, s.time.free,
          none, false, 0, 0, false, none⟩],
        nextId := f.nextId + 1 }
      (1 ≤ len → len ≤ 256 →
        (∀ o, msixPlace a addr.toNat = some o → exec (.rd (.fresh a addr len) none .good) s =
          .next { s with rdOut := some (readGives a.who .ok ((List.range len).map fun i => msixByte s (o + i))) }) ∧
        (∀ d, msixPlace a addr.toNat = none → rtrOn s (initLp s a.who / 8) = true → barAddr s a false addr.toNat = some d →
          exec (.rd (.fresh a addr len) none .good) s = exec (.rd (.queued s.fab.nextId) none .good) (put d false len [] 0))) ∧
      (data ≠ [] → data.length ≤ 64 →
        (∀ o, msixPlace a addr.toNat = some o → exec (.wr (.fresh a addr data be) none .good) s =
          .next (msixWrite o (data.zipIdx.filter fun x => be.getLsbD x.2) s)) ∧
        (∀ d, msixPlace a addr.toNat = none → rtrOn s (initLp s a.who / 8) = true → barAddr s a true addr.toNat = some d →
          exec (.wr (.fresh a addr data be) none .good) s =
            exec (.wr (.queued s.fab.nextId) none .good) (put d true data.length data be)))) ∧
    (∀ (q : Req) (r : Resp) (d : List Byte), findReq s q.id = some q → q.answer = some (r, d) → q.dead = false →
      (addrLp s q.addr).isSome → fabricClock s = true → q.at_.all (fun p => decide (p.r ≠ 7)) = true →
      let e := stamped s q
      let hs := (hopsOf q.dstLp q.srcLp).drop (match q.at_ with | some p => p.hop | none => 0)
      canGo s e q.at_ q.dstLp q.srcLp 3 = true → pathCheck s e q.srcLp hs = (s, false) →
      let t := reqDone q r d (isCount q (dropReq (crossBack q r (crossHops hs 3 (rspHdr s q r 0) s)) q.id))
      (q.isWrite = false → exec (.rdresp ⟨q.id, .good⟩) s = .next t) ∧ (q.isWrite = true → exec (.wrresp ⟨q.id, .good⟩) s = .next t)) ∧
    (∀ q : Req, findReq s q.id = some q → q.dead = false → dmaUnsent s q = false → usSince s q.since (lpTimeout s q.srcLp) = true →
      let p := rtrPage (q.srcLp / 8)
      let s1 := ownErr (setEvt (incCnt s p 7) p 2) p 4 0x04 (some q.addr)
      exec (.requestTimeout q.id) s = .next (reqDone q .timeout []
        (if q.lost then dropReq s1 q.id else modReq s1 q.id fun x => { x with dead := true }))) ∧
    (∀ (lp : Fin 48) (cls : Fin 4) (t : TokPkt) (rest : List TokPkt), let tc := if cls.val = 0 then 1 else 2
      pllOn s 17 = true → nextTokens s lp tc = some (t, rest) → canGo s t.epoch t.at_ lp 43 tc = true →
      t.at_.all (fun p => decide (p.r ≠ 7)) = true →
      let hs := (hopsOf lp 43).drop (match t.at_ with | some p => p.hop | none => 0)
      pathCheck s t.epoch 43 hs = (s, false) →
      let v := setTokPkts (crossHops hs tc (packetHdr t.epoch lp 43 tc 5 0 0 t.toks.length 0 0) s) rest
      exec (.tokenPacket lp cls .good) s = .next { v with disp := { v.disp with ingress := v.disp.ingress ++ t.toks } }) ∧
    (∀ (lp : Fin 48) (cls0 : Bool) (t : FirePkt) (p : Nat), (s.fab.firePkts.find? fun t => t.lp = lp.val ∧ t.cls0 = cls0) = some t →
      let f := t.rec_
      let tc := if cls0 then 1 else 2
      let e := if t.at_.isSome then t.epoch else s.fab.cur
      let hs := (hopsOf 43 lp).drop (match t.at_ with | some p => p.hop | none => 0)
      pllOn s 17 = true → canGo s e t.at_ 43 lp tc = true → t.at_.all (fun p => decide (p.r ≠ 7)) = true →
      pathCheck s e lp hs = (s, false) →
      (f.pool = 2 → 1 ≤ fireKind f ∧ fireKind f ≤ 6) → (f.pool = 3 → 1 ≤ fireKind f ∧ fireKind f ≤ 7) →
      (f.pool = 4 → 1 ≤ f.opcode.toNat ∧ f.opcode.toNat ≤ 5) → (f.pool = 5 → 1 ≤ f.opcode.toNat ∧ f.opcode.toNat ≤ 3) →
      let v := setFirePkts (crossHops hs tc (packetHdr e 43 lp tc 6 0 0 0 0 0) s)
        (dropFirst (fun u => decide (u.lp = lp.val ∧ u.cls0 = cls0)) s.fab.firePkts)
      memberPage v f.pool.toNat f.member.toNat = some p → pageOn v p = true →
      exec (.firePacket lp cls0 .good) s = .next { v with arrived := v.arrived ++ [f] }) ∧
    (∀ (r : Fin 7) (out : Fin 24) (slot : BitVec 8) (input : BitVec 6), rtrOn s r = true → pllOn s 17 = true →
      let e := s.fab.cur
      let w := slotOf s e r out slot.toNat
      bit w 8 = true →
      exec (.stream r out slot input false .good) s = .next (incCnt s (rtrPage r) 2) ∧
      (getMark s (slotMark e r out slot.toNat) = .ue → exec (.stream r out slot input true .good) s =
        .next (ownErr (incCnt s (rtrPage r) 5) (rtrPage r) 2 0x09 none)) ∧
      (slotCheck s e r out slot.toNat = (s, false) → bits w 5 0 = input.toNat →
        (outLink r out).all (fun x => bundleOk s e x.1 x.2 && !s.fab.rerouted.contains x) = true →
        exec (.stream r out slot input true .good) s =
          .next (crossRouter r input.toNat out 0 (packetHdr e 0 0 0 7 0 0 0 0 0) (incCnt s (rtrPage r) 1))))

/-- The control of the fabric and of the maintenance ring completes (R575–R594): a link that is declared down is out of service
and its repair falls due two frames later: both routers take the spare link, or the logical links ride on others; an enabled
link comes up; the shadow tables are written and copied over the ring; a flip is ordered, falls at its boundary, and ends when
its routers have drained; a probe is set and started; a ring access is performed, or times out; a broken segment is shown. -/
def Obligations.FabricControlComplete : Prop :=
  ∀ s : State,
    (∀ lp : Fin 48, s.fab.leafDown.contains lp.val = false →
      let p := rtrPage (lp / 8)
      exec (.linkDown (.leaf lp)) s =
        .next (ownErr (incCnt (setEvt (modFab s fun f => { f with leafDown := f.leafDown ++ [lp.val] }) p 0) p 11) p 4 0x03 none)) ∧
    (∀ (b : Fin 6) (atRoot : Bool) (k : Fin 5), let r := if atRoot then 6 else b.val
      s.fab.downLinks.contains (r, b.val, k.val) = false → bit (linkCfg s r b) k = true →
      (deadLogical s b k ≠ [] → s.fab.downLinks.contains (if atRoot then b.val else 6, b.val, k.val) = false →
        ∃ t spare, exec (.linkDown (.bundle b atRoot k)) s = .next t ∧ linkEndOk t r b k = false ∧
          t.fab.fixes = s.fab.fixes ++ [⟨b, k, fabFrame s + 2, spare⟩]) ∧
      (rtrOn s r = true → s.fab.upLinks.contains (r, b.val, k.val) = false →
        exec (.fabricLinkUp (.bundle b atRoot k)) s =
          .next (modFab s fun f => { f with upLinks := f.upLinks ++ [(r, b.val, k.val)] }))) ∧
    (∀ (b : Fin 6) (f : LinkFix),
      (fixDue s b true = some f → exec (.spareRemap b) s = .next (remapBundle b f.link (dropFix s f))) ∧
      (fixDue s b false = some f →
        let ls := (deadLogical s b f.link).map fun l => (b.val, l)
        exec (.linkReroute b) s = .next (modFab (dropFix s f) fun x =>
          { x with rerouted := x.rerouted ++ ls.filter fun y => !x.rerouted.contains y }))) ∧
    (∀ (a : Acc) (r : Fin 7) (v : Word), reaches s a (rtrPage r) →
      let sel := getReg s (rtrPage r) 0x11C
      let i := bits sel 7 0
      let e := bits sel 31 31
      let s1 := setReg s (rtrPage r) 0x11C (putBits sel 7 0 (i + 1))
      (tblLocked s a r e = false → bits sel 29 28 = 0 → i < 48 →
        ∃ t, exec (.tblDataWrite a r v) s = .next t ∧ (kup s.fab.route = true → routeOf t e r i = v &&& 0xBF) ∧ t.regs = s1.regs) ∧
      (tblLocked s a r e = false → bits sel 29 28 = 1 → slotOut r (bits sel 21 16) = true → slotsOk s e r (bits sel 21 16) i v = true →
        ∃ t, exec (.tblDataWrite a r v) s = .next t ∧ t.regs = s1.regs ∧
          (kup s.fab.slot = true → slotOf t e r (bits sel 21 16) i = v &&& 0x13F)) ∧
      (bit v 0 = true → s.fab.cur ≤ 1 → kup s.fab.route = true → kup s.fab.slot = true → tblLocked s a r (1 - s.fab.cur) = false →
        ∃ t, exec (.tblCopy a r v) s = .next t ∧ ∀ i < 48, routeOf t (1 - s.fab.cur) r i = routeOf s s.fab.cur r i)) ∧
    (∀ (a : Acc) (v : Word), reaches s a 0x006 → bit v 31 = true → s.fab.flip = none →
      (∀ r < 7, bit v r = true → inRouter s (1 - s.fab.cur) r = 0) →
      exec (.flipCmd a v) s = .next (modFab (modReg s 0x006 0x10C fun w => putBits w 31 29 0) fun f =>
        { f with flip := some ⟨BitVec.ofNat 7 v.toNat, fabFrame s + 2, false⟩ })) ∧
    (∀ f, s.fab.flip = some f →
      (f.fallen = false → f.frame ≤ fabFrame s → pllOn s 17 = true →
        let s1 := modFab s fun x => { x with cur := 1 - x.cur, flip := some { f with fallen := true } }
        exec .epochFlip s = .next (incCnt (setEvt (modReg s1 0x006 0x10C fun w =>
          putBit (putBit w 31 true) 16 (decide (1 - s.fab.cur = 1))) 0x006 0) 0x006 3)) ∧
      (f.fallen = true → (∀ r < 7, f.routers.getLsbD r = true → inRouter s (1 - s.fab.cur) r = 0) →
        let s1 := modFab (countHeld s) fun x => { x with flip := none }
        exec .epochDrained s = .next (setEvt (modReg s1 0x006 0x10C fun w =>
          putBits (putBit w 30 true) 15 0 (min 0xFFFF (fabFrame s - f.frame))) 0x006 1))) ∧
    (∀ (a : Acc) (r : Fin 7) (n : Fin 8) (v : Word), let p := rtrPage r
      (reaches s a p →
        let s1 := setReg s p (0x200 + 0x20 * n.val) (v &&& 0xE03F8100)
        let s2 := modFab s1 fun f => { f with armed := f.armed.filter fun x => !decide (x = r.val * 8 + n.val) }
        (bit v 31 = true → exec (.ltCtrlWrite a r n v) s = .next (setReg s2 p 0x180 0)) ∧
        (bit v 31 = false → exec (.ltCtrlWrite a r n v) s = .next s2)) ∧
      (bit (getReg s p (0x200 + 0x20 * n.val)) 31 = true → bit (getReg s p (0x200 + 0x20 * n.val)) 8 = true →
        (r.val * 8 + n.val) ∉ s.fab.armed → pllOn s 17 = true → 0 ≤ sinceTarget s (getReg s p (0x214 + 0x20 * n.val)) →
        exec (.lanternStart r n) s = .next (modFab s fun f => { f with armed := f.armed ++ [r.val * 8 + n.val] }))) ∧
    (∀ m : RingMaster, (s.fab.ringReqs.filter fun x => x.master = m).length < 8 →
      (∀ p r : Fin 1024, stationOk s (pageStation p) = true → let a : Acc := ⟨RingMaster.init m, true⟩
        ∀ v : Word, exec (.ringAccess m (.page p r) true v true) s = .next (incCnt (regWriteSt a p (4 * r) v s) 0x006 0) ∧
        exec (.ringAccess m (.page p r) false v true) s = .next (incCnt (regReadSt a p (4 * r) s) 0x006 0)) ∧
      (∀ (c : Fin 144) (w : Fin 163840), stationOk s (pageStation (corePage c)) = true → pdState s (c / 9) = .on → let k := coreKey c (4 * w)
        ∀ v : Word, exec (.ringAccess m (.core c w) true v true) s =
          .next (incCnt (writeArrayWord k ((leBytes 4 v.toNat).map some) (k / 8 * 8) s).1 0x006 0) ∧
        ∃ t, exec (.ringAccess m (.core c w) false v true) s = .next t ∧
          t.rdOut = some (readGives (RingMaster.init m) (if (readArrays s k 4).2 then .poison else .ok) (getBytes (readArrays s k 4).1 k 4)))) ∧
    (∀ (m : RingMaster) (x : RingReq), (s.fab.ringReqs.find? fun x => x.master = m) = some x → m ≠ .bridge →
      usSince s x.since (max 1 (bits (getReg s 0x006 0x104) 7 0)) = true →
      let s1 := modFab s fun f => { f with ringReqs := dropFirst (fun y => decide (y = x)) f.ringReqs }
      let s2 := ownErr (setEvt (incCnt s1 0x006 2) 0x006 4) 0x006 4 0x02 (ringAddr x.target)
      (x.wr = none → exec (.ringAccessTimeout m) s = .next { s2 with rdOut := some (readGives (RingMaster.init m) .timeout []) }) ∧
      (x.wr ≠ none → exec (.ringAccessTimeout m) s = .next s2)) ∧
    (∀ st : Fin 64, s.fab.breaks.contains st.val = false →
      let s1 := modFab s fun f => { f with breaks := f.breaks ++ [st.val] }
      let n := ((List.range 64).filter (stationOk s1)).length
      exec (.ringSegmentBreak st) s =
        .next (ownErr (setEvt (setReg s1 0x006 0x100 (w32 (2 ^ 31 + n * 2 ^ 16 + (s1.fab.breaks.head?).getD 0))) 0x006 3)
          0x006 4 0x03 none))

/-- The commands of a DMA channel complete (R600, R602–R604, R617–R620): KICK of an idle channel starts its run with the fetch
of the descriptor at RING_CUR, one of a running channel is pending; a fire starts its channel; ABORT begins the end of a run and
drops what is pending otherwise; a halt whose outstanding responses have come writes its descriptor back, shows the channel
HALTED and captures its error, or ends an aborted run; CLEAR makes a halted channel idle. -/
def Obligations.DmaCommandsComplete : Prop :=
  ∀ (c : Fin 1024) (s : State),
    let x := dmaCh s c
    let p := dmaPage c
    let started := fun t : State =>
      let d := chBase s c + 64 * (bits (chReg s c 0x1C) 11 0 % chCount s c)
      (dmaCh t c).st = 1 ∧ (dmaCh t c).desc = d ∧ (dmaCh t c).fetch = some s.fab.nextId ∧
        ∃ q ∈ t.fab.reqs, q.id = s.fab.nextId ∧ q.addr = d ∧ q.len = 64 ∧ q.isWrite = false ∧ q.chan = c.val
    (∀ a : Acc, reaches s a (chPage c) →
      (chEn s c = true → x.st = 0 → ∃ t, exec (.kick a c) s = .next t ∧ started t) ∧
      (chEn s c = true → x.st = 1 ∨ x.st = 2 → x.pend.length < 15 →
        exec (.kick a c) s = .next (setDma s c { x with pend := x.pend ++ [none] })) ∧
      (x.st = 1 → x.stop = none →
        exec (.abort a c) s = .next (dmaHalt c ⟨0x07, 0, 0, 0, 0, true⟩ (setDma s c { x with st := 2 }))) ∧
      (x.st = 0 → exec (.abort a c) s = .next (dmaDropPend c 0x07 s)) ∧
      (x.st = 3 → exec (.clear a c) s =
        .next (dmaLevels (c / 128) (setDma s c { x with st := 0, csum := none, odd := false })))) ∧
    (∀ f : FireRec, f.member.toNat = c.val / 128 → f.opcode.toNat = c.val % 128 → (∀ y ∈ s.unowned, y.1 ≠ p) →
      f ∈ s.arrived → pageClock s p = true →
      enabled s p = true → bits (chReg s c 0) 17 16 = 1 → chEn s c = true → x.st = 0 → f.p0 = 0 →
      ∃ t, exec (.dmaFire f) s = .next t ∧ started t ∧ (dmaCh t c).fire = some f) ∧
    (∀ h : DmaStop, x.stop = some h → blockRuns s p = true → dmaQuiet x = true → x.words ≠ [] →
      let s1 := memPut s p (x.desc + 56) (leBytes 4 (x.csum.getD 0xFFFFFFFF).toNat ++ leBytes 4 0)
      let s2 := closeDesc s1 p x.desc 1 h.cls (h.cause * 2 ^ 16 + min 255 x.retries)
      let s3 := dmaAdvance c
        (setDma s2 c { dmaCh s2 c with words := [], reads := [], beats := [], buf := [], stop := none, cause := h.cause })
      (h.abort = true → exec (.haltComplete c) s = .next (dmaEndRun c (dmaFail c x.fire h.cause s3))) ∧
      (h.abort = false →
        let s4 := setDma s3 c { dmaCh s3 c with st := 3, beatAddr := h.addr, fire := none }
        let s5 := dmaFail c x.fire h.cause (incCnt (captureErr s4 p ⟨h.cls, h.code, 0, h.src, some h.addr⟩) p 3)
        exec (.haltComplete c) s = .next (dmaLevels (c / 128) (dmaDropPend c 0x09 s5))))

/-- The memories' own commands complete (R628, R631–R634, R638, R646–R651, R653, R654, R658): the scrubber corrects the word it
reads; a repair that is accepted runs, and its row moves to a spare; a bank's power state is written; the DRAM controller
begins, and ends, its start; a frequency change starts by fire or by register and ends or fails; a refresh is issued or
postponed; a temperature code is shown; a block is scrubbed; a row is closed. -/
def Obligations.MemoryCommandsComplete : Prop :=
  ∀ s : State,
    (∀ (p : Fin 512) (arr : BitVec 8) (w : Fin 16384) (u : Option Upset) (b : Nat), arrayBase p arr.toNat = some b →
      blockRuns s p = true → arrayOn (applyUpset u s) p arr.toNat = true →
      let s1 := (readArrayWord 2 (b + 8 * w.val) (applyUpset u s)).1
      (p.val ≠ 0x0F0 → p.val ≠ 0x0F1 → exec (.arrayScrub p arr w u) s = .next s1) ∧
      (p.val = 0x0F0 ∨ p.val = 0x0F1 →
        let n := kget 0 s1.memc.wordsScrubbed (p.val - 0x0F0) + 1
        let s2 := modMemc s1 fun m => { m with wordsScrubbed := kset 0 m.wordsScrubbed (p.val - 0x0F0) (n % 1024) }
        exec (.arrayScrub p arr w u) s = .next (if n = 1024 then incCnt s2 p 4 else s2))) ∧
    (∀ (a : Acc) (v : Word), reaches s a 0x0F0 → bit v 0 = true → s.memc.repairing = none → kup s.regs = true →
      let t := rrTarget s
      (arrayBase (t / 256) (t % 256)).isSome → (getReg s 0x0F0 0x114).toNat ≤ 2047 → arrayOn s (t / 256) (t % 256) = true →
      freeSpares s t ≠ 0 → ∃ u, exec (.repair a v) s = .next u ∧ u.memc = { s.memc with repairing := some (t, (getReg s 0x0F0 0x114).toNat) } ∧
        bits (getReg u 0x0F0 0x11C) 31 24 = 64) ∧
    (∀ arr row u ue, blockRuns s 0x0F0 = true → s.memc.repairing = some (arr, row) → moveRow arr row s = (u, ue) →
      exec .rrDone s = .next (incCnt (setEvt (modReg (modMemc u fun m => { m with repairing := none }) 0x0F0 0x11C fun w =>
        putBit (putBit (putBit w 31 true) 30 false) 29 ue) 0x0F0 0) 0x0F0 6)) ∧
    (∀ (a : Acc) (h : Fin 2) (v : Word) (held : Option Word) (u : State), reaches s a (0x0F0 + h) →
      exec (.bankPwrWrite a h false v) s = .next (holdLo s a (0x0F0 + h) 0x100 v) ∧
      (takeLo s a (0x0F0 + h) 0x100 = (held, u) →
        exec (.bankPwrWrite a h true v) s = .next (bankPwrSet h (held.getD (getReg u (0x0F0 + h) 0x100)) v u))) ∧
    (∀ a : Acc, reaches s a 0x0E0 → ctrlEnable s 0x0E0 = false →
      let s1 := modReg s 0x0E0 0x08 fun w => putBit w 0 true
      (∀ r ∈ [fspRate s1 1, fspRate s1 2], r = 0 ∨ r ∈ dramRates) →
      exec (.dramEnable a) s =
        .next (modMemc (dramLost (setChState 1 s1)) fun m => { m with init := true, banks := [] })) ∧
    (s.memc.init = true → blockRuns s 0x0E0 = true →
      (∀ (c : Fin 16) (step : BitVec 4),
        let s1 := modReg (modMemc s fun m => { m with init := false }) (0x0E0 + c) 0x180 fun w =>
          putBits (putBits w 31 28 4) 3 0 step.toNat
        exec (.dramInitDone (some (c, step))) s = .next (ownErr (setEvt s1 0x0E0 0) 0x0E0 4 0x05 none)) ∧
      ∃ t, exec (.dramInitDone none) s = .next t ∧ t.memc = { s.memc with init := false } ∧
      (kup s.regs = true → ctrlEnable s 0x0E0 = true → enabled t 0x0E0 = true ∧
        ∀ c : Fin 16, bits (getReg t (0x0E0 + c) 0x180) 31 28 = 2 ∧ bits (getReg t (0x0E0 + c) 0x180) 5 4 = 0)) ∧
    (enabled s 0x0E0 = true → s.memc.fc = none →
      (∀ f : FireRec, f ∈ s.arrived → pageClock s 0x0E0 = true → f.opcode = 1 → fcBad s (f.p0.toNat % 4) = false →
        exec (.freqChange f) s = .next (fcStart (.fire f) (f.p0.toNat % 4) (takeArrived s f))) ∧
      (∀ (a : Acc) (v : Word), reaches s a 0x0E0 → bit v 31 = true → fcBad s (bits v 1 0) = false →
        exec (.fcGo a v) s = .next (fcStart .reg (bits v 1 0) s))) ∧
    (∀ (ns : Nat) (b : FcBy), blockRuns s 0x0E0 = true → s.memc.fc = some b → s.memc.fcWaiting = [] →
      (∃ t, exec (.fcDone ns) s = .next t ∧ t.memc.fc = none ∧
        (kup s.regs = true → s.memc.fcTarget < 4 → bits (getReg t 0x0E0 0x110) 29 28 = s.memc.fcTarget ∧
          bits (getReg t 0x0E0 0x110) 15 0 = min ns 0xFFFF ∧ bit (getReg t 0x0E0 0x110) 31 = false ∧
          ∀ i < 5, getReg t 0x0E0 (0x114 + 4 * i) = getReg s 0x0E0 (0x128 + 4 * i))) ∧
      (let s1 := ownErr (setEvt (fcEnd ns s) 0x0E0 2) 0x0E0 4 0x06 none
       exec (.fcFail ns) s = .next (match b with
         | .fire f => failFire s1 0x0E0 f 0x02
         | .reg => s1))) ∧
    (dramServes s = true →
      (∀ c : Fin 16, let n := kget 0 s.memc.postponed c
        (n < min 8 (bits (getReg s (0x0E0 + c) 0x184) 3 0) →
          exec (.dramRefresh c true) s = .next (modMemc s fun m => { m with postponed := kset 0 m.postponed c (n + 1) })) ∧
        (bit (getReg s (0x0E0 + c) 0x184) 8 = true →
          exec (.dramRefresh c false) s = .next (closeRows (fun k => !decide (k / 32 = c)) (issueRefresh c 1 s)))) ∧
      (∀ (c : Fin 16) (code : BitVec 8),
        let s1 := modReg s (0x0E0 + c) 0x180 fun w => putBits w 15 8 code.toNat
        (bits (getReg s (0x0E0 + c) 0x180) 15 8 = code.toNat → exec (.mr4Poll c code) s = .next s1) ∧
        (bits (getReg s (0x0E0 + c) 0x180) 15 8 ≠ code.toNat → exec (.mr4Poll c code) s = .next (setEvt s1 (0x0E0 + c) 4)))) ∧
    (∀ u : Option Upset, let t := applyUpset u s
      dramServes t = true → bit (getReg t 0x0E0 0x140) 31 = true →
      let b := 64 * t.memc.scrubPos
      let p := 0x0E0 + (dramChan t b).1
      let s1 := incCnt t p 8
      t.memc.scrubPos + 1 < dramUsable t / 64 →
      let next := fun s : State => modMemc s fun m => { m with scrubPos := m.scrubPos + 1 }
      (bit (memCfg t) 31 = false ∨ getMark t b = .clean → exec (.dramScrub u) s = .next (next s1)) ∧
      (bit (memCfg t) 31 = true → getMark t b = .ce → exec (.dramScrub u) s =
        .next (next (incCnt (countCe (captureErr (setMark s1 b .clean) p ⟨1, 0x01, 0, p, some b⟩) p) p 5))) ∧
      (bit (memCfg t) 31 = true → getMark t b = .ue → exec (.dramScrub u) s =
        .next (next (captureErr (setEvt (incCnt (setPair s1 0x0E0 0x144 b) p 6) p 5) p ⟨2, 0x03, 0, p, some b⟩)))) ∧
    (∀ b : Fin 512, blockRuns s 0x0E0 = true → exec (.pageIdleClose b) s = .next (closeRows (fun k => !decide (k = b)) s))

/-- The commands of a serial lane complete (R666, R667, R670, R672–R674, R677–R680, R682, R683): a write of allowed taps sets
C_MAIN to 63 − C_PRE − C_POST; the CDR's lock falls and rises; a window's figure of merit is shown and a low one counted; a
power state is asked for and reached, at the lane's preset out of OFF; a control word with a good CRC moves the taps, C_PRE then
C_POST, and the lane sends its next one; a PCIe lane takes the preset of phase 0, and applies or rejects the coefficients that
the host asks for in phase 2 (R681); a search ends with its verdict. -/
def Obligations.LaneCommandsComplete : Prop :=
  ∀ (p : Fin 512) (l : Fin 4) (s : State), isLane p l = true →
    let sts := lnReg s p l 0x04
    (∀ (a : Acc) (v : Word), reaches s a p → bit sts 20 = false →
      let pre := bits v 3 0
      let post := bits v 12 8
      (pre ≤ 15 ∧ post ≤ 24 ∧ pre + post ≤ 25 → exec (.txTapsWrite a p l v) s =
        .next (setLn s p l 0x08 (w32 ((63 - pre - post) * 2 ^ 24 + post * 2 ^ 8 + pre)))) ∧
      (25 < pre + post → exec (.txTapsWrite a p l v) s = .next (lnEvt s p l 6))) ∧
    (bit sts 18 = true → blockRuns s p = true →
      let s1 := lnSts (lnSts s p l 18 18 0) p l 7 0 0
      (pageKind p ∈ [some Kind.nlane, some .plane, some .klane] → exec (.cdrUnlock p l) s = .next (lnEvt (incCnt s1 p l) p l 1)) ∧
      (pageKind p ∈ [some Kind.xlane, some .xspare] → exec (.cdrUnlock p l) s = .next (lnEvt s1 p l 1))) ∧
    (lnPower s p l = 0 → blockRuns s p = true → exec (.cdrLock p l) s = .next (lnSts s p l 18 18 1)) ∧
    (∀ (h v : Fin 65537) (eq : RxEq) (m : LaneMeas), lnPower s p l = 0 → bit sts 20 = false → blockRuns s p = true → kup s.regs = true →
      let u := prbsSt p l m.errs (lnSts s p l 17 17 (if m.sig then 1 else 0))
      let fom := if bit sts 18 then min 255 (256 * h.val * v.val / 2 ^ 32) else 0
      let s1 := lnSts u p l 7 0 fom
      let x := laneOf s p l
      let frozen := bit (lnReg s p l 0) 4
      let now := if frozen then x.hist.getLast?.getD eq else eq
      let d := fun i => ((now.dfe.toList[i]?).getD 0).toNat
      let s2 := if frozen then s1 else
        setLn s1 p l 0x0C (w32 (now.ctle.toNat * 2 ^ 24 + now.agc.toNat * 2 ^ 16 + d 1 * 2 ^ 8 + d 0))
      let hist := if bit sts 18 then (x.hist ++ [now]).drop (x.hist.length - 4) else x.hist
      let y := { x with hist := hist }
      let s3 := if bit sts 18 = false then s1 else
        if settled hist then lnSts (setLane s2 p l y) p l 19 19 1 else setLane s2 p l y
      (bits (lnReg s p l 0x10) 15 8 ≤ fom →
        exec (.fomWindowEnd p l h v ⟨eq, m⟩) s = .next (setLane s3 p l { y with low := 0, lowSeen := false })) ∧
      (fom < bits (lnReg s p l 0x10) 15 8 → x.low < 2 →
        exec (.fomWindowEnd p l h v ⟨eq, m⟩) s = .next (setLane s3 p l { y with low := x.low + 1 }))) ∧
    (∀ (a : Acc) (v : Word), reaches s a p → pageKind p ≠ some .plane ∨ a.who = .page 7 → kup s.regs = true →
      bits v 29 28 ≠ bits (lnReg s p l 0) 29 28 →
      let s1 := setLn s p l 0 (v &&& 0xF0070310)
      let t := if keptDeep s1 p l then 2 else bits v 29 28
      (bits sts 31 30 = bits sts 27 26 → exec (.pstateRequest a p l v) s = .next (lnSts s1 p l 27 26 t)) ∧
      (bits sts 31 30 ≠ bits sts 27 26 → exec (.pstateRequest a p l v) s = .next (lnSts (lnSts s1 p l 25 24 t) p l 23 23 1))) ∧
    (bits sts 31 30 ≠ bits sts 27 26 → blockRuns s p = true →
      let s1 := lnSts s p l 31 30 (bits sts 27 26)
      let fin := fun t => if bit sts 23 then lnSts (lnSts t p l 23 23 0) p l 27 26 (bits sts 25 24) else t
      (bits sts 27 26 = 3 → exec (.pstateDone p l) s = .next (fin (lnEvt (laneLose p l s1) p l 2))) ∧
      (bits sts 31 30 = 3 → exec (.pstateDone p l) s = .next (fin (lnEvt (laneStart p l s1) p l 2))) ∧
      (bits sts 27 26 ≠ 3 → bits sts 31 30 ≠ 3 → exec (.pstateDone p l) s = .next (fin (lnEvt s1 p l 2)))) ∧
    (∀ q : Fin 8, p.val = 0x130 + q.val → blockRuns s p = true →
      (∀ w : BitVec 64, 4 ≤ q.val → bit sts 20 = true → cwBits w 63 56 = 0xB5 → (crc16 w 16 48 0).toNat = cwBits w 15 0 →
        let r := getReg s p (0x300 + 4 * cwBits w 50 48)
        let ps := (bits r 3 0, bits r 12 8)
        let pre := applyTap 1 (cwBits w 55 54) ps (tapsOf s p l)
        let post := applyTap 0 (cwBits w 53 52) ps pre.1
        let s1 := setLn s p l 0x08 (tapsWord post.1.1 post.1.2)
        let s2 := setLane s1 p l (searchAnswer
          { laneOf s1 p l with stsPre := pre.2, stsPost := post.2, peerDone := w.getLsbD 40 } (cwBits w 47 46) (cwBits w 45 44))
        exec (.controlWord q l (.control w)) s = .next (setLane s2 p l { laneOf s2 p l with cw := controlWordOut s2 p l })) ∧
      (∀ m : EqTs, q.val < 4 → lnPower s p l = 0 → m.ec = 0 → kup s.regs = true → ∀ a b, pciePreset m.preset.toNat = some (a, b) →
        ∃ t, exec (.controlWord q l (.eq m)) s = .next t ∧ tapsOf t p l = (a, b) ∧ bit (lnReg t p l 0x04) 20 = false ∧
          (laneOf t p l).eq.out = some ⟨0, true, m.preset, BitVec.ofNat 6 a, BitVec.ofNat 6 (63 - a - b), BitVec.ofNat 6 b, false⟩) ∧
      (∀ m : EqTs, q.val < 4 → lnPower s p l = 0 → m.ec = 2 → m.usePreset = false →
        let ok := m.pre.toNat + m.cursor.toNat + m.post.toNat = 63 ∧ tapsOk m.pre.toNat m.post.toNat = true
        ∃ t, exec (.controlWord q l (.eq m)) s = .next t ∧ (laneOf t p l).eq.phase = 2 ∧
          (ok → tapsOf t p l = (m.pre.toNat, m.post.toNat) ∧ ((laneOf t p l).eq.out.any fun o => !o.reject) = true) ∧
          (¬ok → t.regs = s.regs ∧ (laneOf t p l).eq.out = some { m with reject := true })) ∧
      (∀ t : TapSearch, (laneOf s p l).search = some t → t.ph = 4 →
        let ok := decide (bits (lnReg s p l 0x10) 15 8 ≤ t.best)
        let s1 := laneSend p l (setLane s p l { laneOf s p l with reqPre := 0, reqPost := 0, search := none, passed := some ok })
        exec (.trainDone q l) s = .next (lnEvt (lnSts s1 p l 20 20 0) p l (if ok then 3 else 4))))

/-- The commands of the Cuwick link complete (R690, R693–R698, R702): RETRAIN begins the handshake anew; a handshake with a
common rate starts the search on the enabled lanes, one without takes the link DOWN; with the search over and every lane passed
on both sides the link is UP; a good IDLE frame gives its acknowledgement and credits, a good FLIT frame in sequence is counted
and delivered, a bad one counted and answered by a frame with NAK; a replay limit begins the recovery, which ends UP; the retry
attempts again. -/
def Obligations.CuwickCommandsComplete : Prop :=
  ∀ s : State,
    (∀ a : Acc, reaches s a 0x00A → enabled s 0x00A = true → exec (.retrain a) s = .next (cuwHandshake (incCnt s 0x00A 6))) ∧
    (enabled s 0x00A = true → blockRuns s 0x00A = true → s.cuw.st ≠ 3 → bit (getReg s 0x00A 0x100) 16 = true → usSince s s.cuw.lastTry 100000 = true →
      exec .autoRetry s = .next (cuwHandshake (incCnt s 0x00A 6))) ∧
    (∀ (peer : CuwPeer), s.cuw.st = 1 → blockRuns s 0x00A = true →
      (peer.rate = none → ∃ t, exec (.handshake peer) s = .next t ∧ t.cuw = { s.cuw with st := 0, txLanes := 0, rxLanes := 0 }) ∧
      (∀ r, peer.rate = some r → ∃ t, exec (.handshake peer) s = .next t ∧ t.cuw.st = 2 ∧ t.cuw.peer = some peer ∧
        t.cuw.rate = max (if peer.part = 0x2128 then 1 else 0)
          (max (if bits (getReg s 0x00A 0x100) 25 24 = 3 then 1 else bits (getReg s 0x00A 0x100) 25 24) r.val) ∧
        ∀ j < 16, cuwLaneEn s j = true →
          (laneOf t (klane j).1 (klane j).2).search = some ⟨0, 0, 0, 0, false, false⟩ ∧
            (laneOf t (klane j).1 (klane j).2).began = s.time.free)) ∧
    (s.cuw.st = 2 → blockRuns s 0x00A = true → (∀ j < 16, bit (lnReg s (klane j).1 (klane j).2 0x04) 20 = false ∧ cuwLaneEn s j = true ∧
        (laneOf s (klane j).1 (klane j).2).passed = some true) →
      exec (.linkUp 0xFFFF) s =
        .next (setEvt { s with cuw := { s.cuw with st := 3, txLanes := 0xFFFF, rxLanes := 0xFFFF } } 0x00A 0)) ∧
    (∀ b : List Byte, s.cuw.st = 3 → enabled s 0x00A = true → blockRuns s 0x00A = true →
      let reply := cuwReply s.cuw.out.length
      let crc := (csumRun 2 (0xFFFFFFFF, false) (b.take 140)).1 ^^^ 0xFFFFFFFF
      let typ := ofLe ((b.drop 128).take 2) / 4096
      let seq := ofLe ((b.drop 128).take 2) % 4096
      let cr := (List.range 4).map fun t => ((b.drop (132 + t)).take 1).foldl (fun _ x => x.toNat) 0
      let s1 := cuwAck (ofLe ((b.drop 130).take 2)) cr s
      (b.length = 144 → wordAt b 35 = crc → typ = 0 → exec (.cuwickFrame b) s = .next (reply s1)) ∧
      (b.length = 144 → wordAt b 35 = crc → typ = 1 → seq = (s1.cuw.rxLast + 1) % 4096 →
        let t := flitBits (b.take 16) 112 110 - 1
        let c := { s1.cuw with rxLast := seq, episode := false, nak := false,
                               took := setAt s1.cuw.took t (((s1.cuw.took[t]?).getD 0 + 1) % 256) };
        exec (.cuwickFrame b) s = .next (reply (cuwDeliver (b.take 128) (incCnt { s1 with cuw := c } 0x00A 1)))) ∧
      (b.length ≠ 144 ∨ wordAt b 35 ≠ crc → s.cuw.episode = false →
        ∃ t, exec (.cuwickFrame b) s = .next t ∧ 
          t.cuw = { s.cuw with episode := true, nak := false,
                               out := s.cuw.out ++ [frameBytes { s.cuw with episode := true, nak := true } 0 0 []] } ∧
          (kup s.cnt = true → getCnt t 0x00A 5 = getCnt s 0x00A 5 + 1 ∧ getCnt t 0x00A 3 = getCnt s 0x00A 3 + 1))) ∧
    (s.cuw.st = 3 → blockRuns s 0x00A = true → (∃ f ∈ s.cuw.replay, max 1 (bits (getReg s 0x00A 0x114) 3 0) ≤ f.reps) →
      exec .recovery s = .next (incCnt { s with cuw := { s.cuw with st := 4 } } 0x00A 4)) ∧
    (s.cuw.st = 4 → blockRuns s 0x00A = true →
      let s1 := { s with cuw := { s.cuw with st := 3, replay := s.cuw.replay.map fun f => { f with reps := 0 } } };
      exec (.recoveryDone true) s = .next (cuwPump (s.cuw.waiting.length + 1) (setEvt s1 0x00A 2)))

/-- The packet engine completes its commands (R704, R706, R707, R713–R720, R735, R757, R799): a good frame is counted, and acted
on as the context that matches it says once its meter lets it, each message of an eCPRI frame for itself, or goes to the default
ring; FLOW_CMD loads a context; a window that closes sends its token with the count of what is missing; a job's frames are built
and sent to its flow's queue; a job whose frames have left is closed with its token; the locks of the ports are shown. -/
def Obligations.PacketEngineComplete : Prop :=
  ∀ s : State,
    (∀ (p : Fin 32) (b : List Byte), let e := ethView b
      blockRuns s 0x008 = true → enabled s 0x008 = true → bit (getReg s 0x008 0x104) p = true → (8 ≤ p.val → portMode s = 1) →
      60 ≤ b.length → b.length ≤ 9596 → ¬(e.etype = 0x8808 ∧ (beAt e.pay 0 2 = 1 ∨ beAt e.pay 0 2 = 0x0101)) →
      let s1 := incCnt s 0x008 0
      (ecpriPay s1 p e = none →
        (flowFind s1 p e none = none → exec (.frameReceive p b true) s =
          .next (rxDeliver (bits (getReg s 0x008 0x12C) 3 0) p 0 false b (incCnt s1 0x008 4))) ∧
        (∀ n c, flowFind s1 p e none = some (n, c) →
          (bit (wWord c 18) 12 = false → exec (.frameReceive p b true) s = .next (flowAct n p c b none s1)) ∧
          (∀ k u, bit (wWord c 18) 12 = true → meterColour (bits (wWord c 18) 11 0) (b.length + 4) s1 = (k, u) →
            exec (.frameReceive p b true) s = .next (if k = 2 then incCnt u 0x008 5 else flowAct n p c b none u)))) ∧
      (∀ pay, ecpriPay s1 p e = some pay → exec (.frameReceive p b true) s =
        .next (if (Config.ecpri pay).isEmpty then flowStep p b e none s1 else
          (Config.ecpri pay).foldl (fun s m => if 8 ≤ m.typ then unsupported s else flowStep p b e (some m) s) s1))) ∧
    (∀ (a : Acc) (v : Word) (u : State) (d : List Byte), reaches s a 0x008 → bit v 31 = true →
      let n := bits v 11 0
      let ws := (List.range 32).map (wordAt d)
      memRead s 0x008 (getPair s 0x008 0x114 19 % 2 ^ 48 + n * 128) 128 = (u, .ok, d) → flowClass ws < 7 →
        exec (.flowLoad a v) s =
          .next (modPkt (setReg u 0x008 0x120 (w32 n)) fun p => { p with flows := kset [] p.flows n ws })) ∧
    (∀ (f : Fin 512) (n : Nat) (v : State) (ws : List Word), enabled s 0x008 = true → blockRuns s 0x008 = true → fronthaulOff s = false →
      fhCtx f s = (v, some ws) →
      bit (wWord ws 0) (n % 14) = true → airStart ws n + signed 32 (wWord ws 5).toNat ≤ devNs v → kget 0 v.pkt.closed f ≤ n →
      let last := kget 0 v.pkt.closed f
      let from_ := if last = 0 then n - n % 14 else last
      let seen := kget [] v.pkt.written f
      let miss := (List.range (n + 1 - from_)).flatMap fun y => (List.range (bits (wWord ws 1) 15 9)).flatMap fun i =>
        ((List.range (bits (wWord ws 1) 8 0)).filter fun k => !seen.contains (from_ + y, i, k)).map fun k => (from_ + y, i, k)
      let inst := bits (wWord ws 7) 15 0 + n / 14 % 2 ^ bits (wWord ws 8) 2 0
      ∃ t, exec (.winClose f n) s = .next t ∧ kget 0 t.pkt.closed f = n + 1 ∧
        t.fab.tokPkts = v.fab.tokPkts ++ [⟨pageLp 0x008, if bits (wWord ws 8) 25 24 = 0 then 1 else 2, v.fab.cur,
          [(⟨BitVec.ofNat 16 (bits (wWord ws 7) 31 16), BitVec.ofNat 16 inst, BitVec.ofNat 2 (bits (wWord ws 8) 29 28), 0, 0, 0,
            BitVec.ofNat 64 (2 ^ 32 * wrapN 32 (airStart ws n) + miss.length)⟩, bits (wWord ws 8) 25 24)], none⟩]) ∧
    (∀ (j : Fin 8) (x : PktJob) (c : List Word), blockRuns s 0x008 = true → jobNow s j = some x → jobFlow s x.words = some c →
      let ctx := 2 * bits (wWord c 17) 7 0 + if duEnd s then 1 else 0
      let kind := bits (wWord x.words 0) 3 0
      let built := fun s => modJob s x.id fun y => { y with built := true }
      (∀ v ws fs u, kind = 1 → fhCtx ctx s = (v, some ws) →
        let off := symOffset (bits (wWord ws 1) 18 16) (bits (wWord x.words 7) 17 12 * 14 + x.next) -
          symOffset (bits (wWord ws 1) 18 16) (bits (wWord x.words 7) 17 12 * 14 + bits (wWord x.words 4) 19 16)
        let launch := wWord x.words 6 + w32 off
        (wWord x.words 6 = 0 ∨ -2000 ≤ sinceTarget v launch) → symbolFrames x c ws x.next v = .ok fs u →
        exec (.uSend j) s = .next (modJob (fs.foldl (fun s b =>
          jobSend x.id c (if wWord x.words 6 = 0 then none else some launch) false b s) u) x.id fun y =>
            { y with next := x.next + 1, built := decide (bits (wWord x.words 4) 23 20 ≤ x.next) })) ∧
      (∀ v ws body u, kind = 2 → fhCtx ctx s = (v, ws) → bit (wWord x.words 4) 24 = false → jobBody x v = .ok body u →
        exec (.cSend j) s =
          .next (built (jobSend x.id c (jobLaunch x) false (Config.cFrame c (wWord x.words 7) body []) u))) ∧
      (∀ v ws body u, kind = 3 → fhCtx ctx s = (v, ws) → jobBody x v = .ok body u → 60 ≤ body.length → body.length ≤ 9596 →
        exec (.frame j) s = .next (built (jobSend x.id c (jobLaunch x) (bit (wWord x.words 0) 28) body u)))) ∧
    (∀ (i : Nat) (x : PktJob), s.pkt.jobs[i]? = some x → blockRuns s 0x008 = true → x.built = true → x.out = 0 → x.stamp = none → x.cause = none →
      let s1 := closeDesc (modPkt s fun p => { p with jobs := dropAt p.jobs i }) 0x008 x.desc 0 0 (x.dropped % 65536)
      let w11 := wWord x.words 11
      let w12 := wWord x.words 12
      (bit w12 31 = false → exec (.jobDone i) s = .next s1) ∧
      (bit w12 31 = true → exec (.jobDone i) s = .next (sendTok s1 0x008 (bits w12 25 24)
        ⟨BitVec.ofNat 16 (bits w11 31 16), BitVec.ofNat 16 (bits w11 15 0), BitVec.ofNat 2 (bits w12 29 28), 0, 0, 0,
          BitVec.ofNat 64 x.desc⟩))) ∧
    (∀ p : Fin 32, pageOn s 0x008 = true →
      exec (.pcsLockLoss p) s = .next (modReg s 0x008 0x110 fun w => putBit w p false) ∧
      exec (.pcsLockGain p) s = .next (modReg s 0x008 0x110 fun w => putBit w p true))

/-- The host's rings and tokens and the traffic manager complete their commands (R725–R734): a doorbell has the posted entries
read; a fire of the HOST pool becomes an entry of TYPE 1; a token register sends its token; a frame that its meter and its queue
admit is queued; a free port sends the head of its first strict queue that is eligible; a host's select chooses the batch; an
overdue round falls back on the backlog's order; the depths are sampled; a meter is written and full. -/
def Obligations.HostAndTrafficComplete : Prop :=
  ∀ s : State,
    (∀ (a : Acc) (n : Fin 8) (v : Word), reaches s a 0x007 →
      let s1 := setReg s 0x007 (0x224 + 0x40 * n.val) (v &&& 0xFFF)
      (enabled s1 0x007 = true → exec (.h2dTailWrite a n v) s = .next (h2dRun n 4096 s1)) ∧
      (enabled s1 0x007 = false → exec (.h2dTailWrite a n v) s = .next s1)) ∧
    (∀ f : FireRec, (∀ x ∈ s.unowned, x.1 ≠ 0x007) → f ∈ s.arrived → pageClock s 0x007 = true → enabled s 0x007 = true →
      let ws := fireWords f
      let s1 := takeArrived s f
      exec (.hostFire f) s = .next (d2hSend ⟨f.member.toNat % 8, 1, (ws.drop 1).take 11 ++ ws.take 1 ++ ws.drop 13⟩
        (modPcie s1 fun p => { p with fires := p.fires ++ [f] }))) ∧
    (∀ (a : Acc) (v : Word), reaches s a 0x007 →
      let tok := fun base => tokenOfWords (kget 0 s.pcie.words base) (kget 0 s.pcie.words (base + 1)) (kget 0 s.pcie.words (base + 2)) v
      let clear := fun base => modPcie s fun p =>
        { p with words := (List.range 4).foldl (fun m i => kset 0 m (base + i) 0) p.words }
      exec (.tokenIn a v) s =
        .next (sendTok (clear 0) 0x007 (templateUrg (clear 0) (tok 0).template.toNat) { tok 0 with flags := 0x10, rsvd := 0 }) ∧
      (let mine := fun f : FireRec => decide (f.template = (tok 4).template ∧ f.inst = (tok 4).inst)
       let less := modPcie (clear 4) fun p => { p with fires := dropFirst mine p.fires };
       ∀ f, s.pcie.fires.find? mine = some f →
        exec (.tokenDone a v) s = .next (sendTok less 0x007 f.urg.toNat { tok 4 with flags := 0x90, rsvd := 0 }))) ∧
    (∀ (f : TmFrame) (fs : List TmFrame) (k : Nat) (w : State), blockRuns s 0x009 = true →
      s.tm.input = f :: fs → enabled s 0x009 = true → bit (qReg s f.q 0) 31 = true →
      let u1 := modTm s fun t => { t with input := fs }
      (if bit (qReg u1 f.q 0) 28 then meterColour (bits (qReg u1 f.q 0) 27 16) (frameLen f) u1 else (0, u1)) = (k, w) →
      bufUsed w + frameCells f ≤ 2 ^ max 16 (min 25 (bits (getReg w 0x009 0x108) 4 0)) / 64 →
      (k = 0 ∧ qDepth w f.q + frameCells f ≤ bits (qReg w f.q 4) 15 0) ∨
        (k = 1 ∧ qDepth w f.q + frameCells f ≤ bits (qReg w f.q 4) 31 16) →
      let w1 := incCnt (setQueue w f.q (queueOf w f.q ++ [{ f with at_ := w.time.free }])) 0x009 0
      exec .tmEnqueue s = .next (portKick (queuePort w1 f.q) (haOffer (queuePort w1 f.q) w1))) ∧
    (∀ (p : Fin 32) (q : Nat), blockRuns s 0x009 = true → enabled s 0x009 = true → bit (getReg s 0x008 0x104) p = true →
      let s1 := modTm s fun t => { t with
        idle := if t.idle.contains p.val then t.idle else t.idle ++ [p.val]
        ports := kset TmPort.init t.ports p.val { kget TmPort.init t.ports p.val with wire := [] } }
      let s2 := (portQueues s1 p).foldl (fun s q => dropLate q (queueOf s q).length s) s1
      ((portQueues s2 p).find? fun q => strictQ s2 q && (eligHead s2 q).isSome) = some q →
        ∀ enq : Bool, exec (.portFree ⟨p, enq⟩) s = .next (if enq then tmEnqueueSt (sendFrame p q s2) else sendFrame p q s2)) ∧
    (∀ q : Fin 4096, blockRuns s 0x009 = true → let s1 := dropLate q (queueOf s q).length s
      (eligHead s1 q).isSome → exec (.frameEligible q) s = .next (portKick (queuePort s1 q) s1)) ∧
    (∀ (a : Acc) (v : Word) (p : Nat), reaches s a 0x009 →
      ((List.range 32).find? fun p => ((tmPort s p).round.map (·.1)) = some (bits v 31 16)) = some p →
      let block := if portMode s = 0 then p else p / 4
      exec (.haSelect a v) s = .next (portKick p (setPort s p
        { tmPort s p with round := none, batch := some (block * 512 + bits v 8 0, bits v 14 9) }))) ∧
    (∀ (p : Fin 32) (r t : Nat), (tmPort s p).round = some (r, t) → blockRuns s 0x009 = true → usSince s t (max 1 (bits (getReg s 0x009 0x118) 15 0)) = true →
      let s1 := setPort s p { tmPort s p with round := none, own := (portQueues s p).filter fun q => !strictQ s q, visit := 0 }
      exec (.haSelectTimeout p) s = .next (portKick p (setEvt (incCnt s1 0x009 5) 0x009 3))) ∧
    (blockRuns s 0x009 = true → (max 1 (bits (getReg s 0x009 0x110) 15 0) : Nat) ≤ nsSince s s.tm.lastSample →
      exec .depthSample s = .next ((s.tm.queues.map (·.1)).foldl
        (fun s q => setQ s q 0x18 (w32 (max (qDepth s q) (qReg s q 0x18).toNat)))
        (modTm s fun t => { t with lastSample := s.time.free }))) ∧
    (∀ (a : Acc) (q : Fin 4096) (r : Fin 3) (v : Word), reaches s a (0x220 + q / 64) →
      let s1 := setQ s q (8 + 4 * r.val) (if r.val = 2 then v else v &&& 0x000FFFFF)
      exec (.meterWrite a q r v) s = .next (modTm s1 fun t => { t with meters := kset none t.meters q none }))

/-- The PHY API completes its messages (R29, R721, R722, R848, R849), for a PHY instance on the path that the configuration set
gives it: PARAM, CONFIG, START, STOP and LNX_STOP move the instance as R721 says; a slot request in time is held and one too
late is refused; statistics are asked for; a slot is indicated at its advance; a stop that hangs is forced. -/
def Obligations.PhyApiComplete : Prop :=
  ∀ (phy : BitVec 8) (pcie : Bool) (s : State) (c : CfgRes), s.boot.cfg = some c → c.set.pcie[phy.toNat]? = some pcie →
    let n := phy.toNat
    let x := phyOf s n
    (x.st < 2 → exec (.paramRequest phy pcie) s = .next (fapiSend (.paramResponse n) s) ∧
      exec (.configRequest phy pcie) s = .next (fapiSend (.configResponse n) (setPhy s n { x with st := 1 }))) ∧
    (x.st = 1 → exec (.startRequest phy pcie) s = .next (setPhy s n { x with st := 2, reqs := [] })) ∧
    (x.st = 2 →
      (∀ off : Nat,
        exec (.stopRequest phy pcie off) s = .next (phyPoll (setPhy s n { x with st := 3, lnx := false, offAt := devNs s + off })) ∧
        exec (.lnxStopRequest phy pcie off) s = .next (phyPoll (setPhy s n { x with st := 3, lnx := true, offAt := devNs s + off }))) ∧
      (∀ start : Int,
        let held := fun kind => setPhy s n { x with reqs := x.reqs ++ [(kind, start)] };
        (c.set.accept ≤ start - devNs s →
          exec (.dlTtiRequest phy pcie start) s = .next (held 0) ∧ exec (.ulTtiRequest phy pcie start) s = .next (held 1) ∧
          exec (.ulDciRequest phy pcie start) s = .next (held 2) ∧ exec (.txDataRequest phy pcie start) s = .next (held 3)) ∧
        (start - devNs s < c.set.accept →
          exec (.dlTtiRequest phy pcie start) s = .next (fapiSend (.errorIndication n .invalidSfn) s)) ∧
        (start - c.set.indicate ≤ devNs s → devNs s < start →
          exec (.slotIndication phy start) s = .next (fapiSend (.slotIndication n start) s)))) ∧
    (exec (.lnxStatsRequest phy pcie) s = .next (setPhy s n { x with stats := true })) ∧
    (x.st = 3 → x.offAt + 10000000 ≤ devNs s → ∃ t, exec (.stopTimeout phy) s = .next t ∧ (phyOf t n).st = 1 ∧
      t.fapi = s.fapi ++ [⟨if x.lnx then .lnxStopResponse n true else .stopIndication n, pcie, if pcie then 0 else x.txSeq⟩] ∧
      ∀ f ∈ t.disp.fires, f.inst ∈ phyInsts s n → f.counted = false)

/-- The time unit completes its commands (R739–R745, R748–R754, R760–R762): the two reads that latch answer one moment; INCR is
taken within 0.1 % of nominal; ADJ_NS and SET_GO step device time and leave FREE; a compare unit is armed and, at its target,
sends its token, counts and is disarmed; an edge of 1PPS is stamped, its loss captured; the 1PPS output rises and falls. -/
def Obligations.TimeCommandsComplete : Prop :=
  ∀ s : State,
    (∀ a : Acc, reaches s a 0x003 →
      (let h := fun k v s => setHold s k v
       exec (.nowSecLoRead a) s = .next (answer a (w32 (devSec s)) (h (holdTimeKey a 0x10C) (nowFrac s)
        (h (holdTimeKey a 0x108) (w32 (devNsPart s)) (h (holdRdKey a 0x003) (w32 (devSec s / 2 ^ 32)) s))))) ∧
      exec (.ppsInSecRead a) s =
        .next (answer a (getReg s 0x003 0x148) (setHold s (holdTimeKey a 0x14C) (getReg s 0x003 0x14C))) ∧
      (∀ v held u, takeLo s a 0x003 0x11C = (held, u) →
        let lo := held.getD (getReg u 0x003 0x11C)
        let n := lo.toNat + 2 ^ 32 * bits v 3 0
        let nom := 2 ^ 32 * 3125
        (nom * 999 ≤ n * 3072 * 1000 → n * 3072 * 1000 ≤ nom * 1001 →
          exec (.incrCommit a v) s = .next (setReg (setReg u 0x003 0x11C lo) 0x003 0x120 (v &&& 0xF))) ∧
        (nom * 1001 < n * 3072 * 1000 → exec (.incrCommit a v) s = .next (ownErr (setEvt u 0x003 4) 0x003 6 0x01 none))) ∧
      (∀ v : Word, ∃ t, exec (.adjNs a v) s = .next t ∧ t = { s with time := t.time } ∧ t.time.free = s.time.free ∧
        devTime t = devTime s + v.toInt * (2 ^ 32 : Nat)) ∧
      (∃ t, exec (.setGo a) s = .next t ∧ t.time.free = s.time.free ∧
        devTime t = (2 ^ 32 * (1000000000 * ((getReg s 0x003 0x128).toNat + 2 ^ 32 * (getReg s 0x003 0x12C).toNat) +
          min 999999999 (bits (getReg s 0x003 0x130) 29 0)) : Nat) ∧
        (kup s.regs = true → ∀ n < 64, tcArmed t n = false))) ∧
    (∀ (a : Acc) (n : Fin 64) (v : Word), reaches s a 0x260 → tcArmed s n = false → kup s.regs = true →
      (bit v 30 = true → 1000 ≤ (tcReg s n 8).toNat ∧ (tcReg s n 8).toNat < 2 ^ 31) →
      ∃ t, exec (.tcmpArm a n v) s = .next t ∧ tcReg t n 0 = putBit v 31 true &&& 0xC300000F ∧ tcArmed t n = true) ∧
    (∀ n : Fin 64, tcArmed s n = true → 0 ≤ sinceTarget s (tcReg s n 4) →
      blockRuns s 0x003 = true →
      bit (getReg s 0x003 0x140) 6 = false → (∀ c < 1024, bits (chReg s c 0) 17 16 ≠ 2) → kup s.regs = true →
      ∃ t, exec (.tcmpFire n) s = .next t ∧ 
        (bit (tcReg s n 0) 30 = false → kup s.time.lapse = true → tcArmed t n = false) ∧
        (bit (tcReg s n 0) 30 = true → bit (tcReg s n 0) 31 = true → tcArmed t n = true) ∧ tcReg t n 0x1C = tcReg s n 0x1C + 1 ∧ tcFired t n = true ∧
        t.disp.ingress = s.disp.ingress ++
          if bit (tcReg s n 0) 24 then [(tcToken s n, bits (tcReg s n 0x10) 1 0)] else []) ∧
    (∀ rising : Bool, let c := getReg s 0x003 0x144
      bit c 31 = true → bit c 30 ≠ rising → blockRuns s 0x003 = true →
      let t := devNs s - signed 16 (bits c 15 0)
      let s1 := setReg (setReg s 0x003 0x148 (w32 (wrapN 32 (t / 1000000000)))) 0x003 0x14C (w32 (t % 1000000000).toNat)
      exec (.ppsInEdge rising) s = .next (modTime (incCnt (setEvt s1 0x003 1) 0x003 3) fun x => { x with ppsIn := some x.free })) ∧
    (∀ t, s.time.ppsIn = some t → bit (getReg s 0x003 0x144) 31 = true → usSince s t 1100000 = true → blockRuns s 0x003 = true →
      exec .ppsLoss s = .next (ownErr (setEvt (modTime s fun x => { x with ppsIn := none }) 0x003 2) 0x003 4 0x03 none)) ∧
    (bit (getReg s 0x003 0x150) 31 = true → blockRuns s 0x003 = true → s.time.ppsNext * 1000000000 ≤ devNs s + ppsOff s →
      exec .ppsOutRise s = .next (modTime s fun t => { t with ppsOut := true, ppsRise := devNs s, ppsNext := t.ppsNext + 1 })) ∧
    (s.time.ppsOut = true → blockRuns s 0x003 = true → s.time.ppsRise + 1000 * (max 1 (bits (getReg s 0x003 0x150) 19 0) : Nat) ≤ devNs s →
      exec .ppsOutFall s = .next (modTime s fun t => { t with ppsOut := false }))

/-- The power controller completes its commands (R771–R776, R778–R781, R786–R788): a request for a state that a domain can enter
begins its transition, or waits for its entry condition; one for the state it is in, or against LOCK, ends at once; the
condition met begins the transition, the timeout ends the request; a transition that is done puts the domain in its target; a
power-good failure leaves it OFF; a wake brings it back ON; a group's request takes its domains in the list's order, the reverse
for ON. -/
def Obligations.PowerCommandsComplete : Prop :=
  (∀ (n : Fin 48) (s : State), let r := pdRec s n
    (∀ (a : Acc) (e : EntryCond), reaches s a 0x004 → r.cur ≠ .trans → r.wait = none → (∀ g < 16, (grpRec s g).busy = false) →
      (∀ g < 16, (grpRec s g).held = none) → kup s.pwr.doms = true →
      let q := fun want => (⟨want, e, .req, s.time.free⟩ : PdReq)
      let s1 := setPd s n { r with wait := none }
      let waits := fun want => setPd s1 n { pdRec s1 n with wait := some { q want with since := s.time.free } }
      (r.cur = .on → exec (.pdReqOn a n e) s = .next (recordEnd n 0 s1)) ∧
      (r.cur = .on → bit (pdCfg s n) 31 = true → exec (.pdReqOff a n e) s = .next (recordEnd n 1 s1)) ∧
      (r.cur ≠ .on → exec (.pdReqOn a n e) s = .next (beginTrans s1 n .on (some (q .on)))) ∧
      (r.cur = .off → exec (.pdReqRetain a n e) s = .next (beginTrans s1 n .retain (some (q .retain)))) ∧
      (r.cur = .on → bit (pdCfg s n) 31 = false → exec (.pdReqRetain a n e) s = .next (waits .retain)) ∧
      (r.cur = .on → bit (pdCfg s n) 31 = false → e ≠ 2 → exec (.pdReqOff a n e) s = .next (waits .off)) ∧
      (r.cur = .retain → bit (pdCfg s n) 31 = false →
        exec (.pdReqOff a n e) s = .next (beginTrans s1 n .off (some (q .off))))) ∧
    (∀ q, r.wait = some q → entryMet s n q = true → exec (.entryMet n) s = .next (beginTrans s n q.want (some q))) ∧
    (∀ q, r.wait = some q → bits (pdCfg s n) 15 0 ≠ 0 → usSince s q.since (bits (pdCfg s n) 15 0) = true →
      ∃ t, exec (.quiesceTimeout n) s = .next t ∧
        t = runGroups grpFuel (endReq n q 2 (setPd s n { pdRec s n with wait := none })) ∧
        (q.by_ = .req → kup s.pwr.doms = true → (∀ g < 16, (grpRec s g).busy = false ∧ (grpRec s g).held = none) →
          (pdRec t n).wait = none ∧ (pdRec t n).cur = r.cur ∧ (pdRec t n).result = 2)) ∧
    (transReady s n = true →
      let s1 := incCnt (setReg s 0x004 (0x414 + 0x20 * n.val) (w32 (min (nsSince s r.began) 0xFFFFFFFF))) 0x004 0
      let s2 := setPd s1 n { r with cur := r.target, doing := none, latched := false }
      let s3 := lowerV (settle n r.target (unWoke n s2))
      let s4 := match r.doing with
        | some q => endReq n q 0 s3
        | none => s3
      exec (.transitionDone n) s = .next (runGroups grpFuel (nextSwitchOn (afterTrans n r.latched s4)))) ∧
    (r.up = true → r.queued = false → usSince s r.began 100 = true →
      let s1 := freeFires n false (domainOff n (setPd s n { r with cur := .off, doing := none, latched := false }))
      let s2 := ownErr (setEvt s1 0x004 4) 0x004 5 0x02 (noAddr n)
      let s3 := match r.doing with
        | some q => endReq n q 6 s2
        | none => setPd s2 n { pdRec s2 n with result := 6 }
      exec (.pgFail n) s = .next (runGroups grpFuel (nextSwitchOn (afterTrans n false (lowerV s3))))) ∧
    (wakeLine s n = true → bit (pdCfg s n) 29 = true →
      (r.cur = .retain → exec (.wake n) s = .next (beginTrans (countWake s n) n .on none)) ∧
      (r.cur = .trans → r.target = .retain → s.evt.lineWoke.contains n.val = false →
        let s1 := countWake s n
        exec (.wake n) s = .next (modEvt (setPd s1 n { pdRec s1 n with latched := true }) fun e =>
          { e with lineWoke := e.lineWoke ++ [n.val] })))) ∧
  (∀ (a : Acc) (g : Fin 16) (e : EntryCond) (s : State), reaches s a 0x004 → (grpRec s g).busy = false →
    badEntry [] (grpList s g) = none →
    let l := grpList s g
    let begun := fun want left => runGroups grpFuel
      { setGrp s g { grpRec s g with busy := true, list := l, want := want, entry := e, left := left, order := s.pwr.nextOrder,
                                     result := 0, domain := 0 } with
        pwr := { (setGrp s g { grpRec s g with busy := true, list := l, want := want, entry := e, left := left,
                                               order := s.pwr.nextOrder, result := 0, domain := 0 }).pwr with
          nextOrder := s.pwr.nextOrder + 1 } };
    exec (.grpReqOn a g e) s = .next (begun .on l.reverse) ∧
    exec (.grpReqRetain a g e) s = .next (begun .retain l) ∧
    exec (.grpReqOff a g e) s = .next (begun .off l))

/-- The clock controller completes its commands (R794, R795, R797–R799): a change of frequency begins, at once or when its voltage
is met, one at a time with the last one written held; the settled voltage releases the clusters that waited for it; each slew
step moves the cluster one step; a regulator that does not answer leaves the higher voltage and two error reports; a PLL that
loses lock is marked and counted, fatally for the fabric and accelerator PLLs, and holdover begins and ends. -/
def Obligations.ClockCommandsComplete : Prop :=
  ∀ s : State,
    (∀ (c : Fin 16), let r := cdRec s c
      (∀ (a : Acc) (v : Word), reaches s a 0x005 →
        let step := min 16 (bits v 4 0)
        let s1 := setReg s 0x005 (0x100 + 4 * c.val) (v &&& 0x1F)
        let begun := fun w => setCd s1 c { r with target := step, busy := true, waitV := w }
        (r.busy = true → exec (.cdFreqWrite a c v) s = .next (setCd s1 c { r with held := some step })) ∧
        (r.busy = false → r.cur ≠ step → opMet s (stepOp step) = true → kup s.clk.cds = true →
          exec (.cdFreqWrite a c v) s = .next (begun false)) ∧
        (r.busy = false → r.cur ≠ step → opMet s (stepOp step) = false → s.clk.pendOp = none → kup s.clk.cds = true →
          exec (.cdFreqWrite a c v) s = .next (commandV (begun true) (stepOp step))) ∧
        (r.busy = false → r.cur = step → kup s.clk.cds = true → ∃ t, exec (.cdFreqWrite a c v) s = .next t ∧
          (cdRec t c).busy = false ∧ (cdRec t c).cur = step)) ∧
      (r.busy = true → r.waitV = false →
        let cur := if r.cur < r.target then r.cur + 1 else r.cur - 1
        let s1 := setCd s c { r with cur := cur }
        (cur ≠ r.target → exec (.pllSlewStep c) s = .next s1) ∧
        (cur = r.target → r.held = none → kup s.clk.cds = true → exec (.pllSlewStep c) s = .next (freqDone c s1)) ∧
        (∀ step, cur = r.target → r.held = some step → kup s.clk.cds = true →
          let u := freqDone c s1
          exec (.pllSlewStep c) s = .next (freqBegin c step (setCd u c { cdRec u c with held := none }))))) ∧
    (∀ p, s.clk.pendOp = some p →
      (usSince s s.clk.pendAt (max 1 (bits (getReg s 0x005 0x188) 15 0)) = true → ∃ t, exec .avsSettled s = .next t ∧
        t.clk.op = p ∧ (kup s.clk.cds = true → ∀ c < 16, (cdRec s c).busy = true → stepOp (cdRec s c).target ≤ p →
          (cdRec t c).waitV = false)) ∧
      (let s1 := modClk s fun k => { k with pendOp := none, mv := max k.mv (vfFuse s k.op) }
       let s2 := modReg (ownErr (setEvt s1 0x005 3) 0x005 4 0x02 none) 0x00F 0x108 fun w => putBit w 16 true
       exec .avsFail s = .next (ownErr (setEvt s2 0x00F 1) 0x00F 4 0x02 none))) ∧
    (∀ pll : Fin 30, (bit (getReg s 0x005 0x180) pll = false → (pll = 19 → bit (getReg s 0x005 0x1A0) 0 = false) →
        let u := incCnt (setEvt (modReg s 0x005 0x180 fun w => putBit w pll true) 0x005 1) 0x005 2
        let lost := fun t => ((pll = 17 ∨ pll = 18) ∧
            t = modEvt (ownErr u 0x005 4 0x03 none) fun e => { e with fatalPend := e.fatalPend ++ [pll.val - 15] }) ∨
          (pll ≠ 17 ∧ pll ≠ 18 ∧ t = ownErr u 0x005 4 0x01 none)
        (∃ t, exec (.pllUnlock pll []) s = .next t ∧ lost t) ∧
        (∀ (p : Fin 512) (l : Fin 4), pllFeeds pll p = true → pageOn s p = true →
          ∃ t, exec (.pllUnlock pll [(p, l)]) s = .next (cdrUnlockSt p l t) ∧ lost t)) ∧
      exec (.pllRelock pll) s = .next (modReg s 0x005 0x180 fun w => putBit w pll false)) ∧
    (bit (getReg s 0x005 0x1A0) 0 = true → s.clk.holdover = false →
      let u := modClk s fun k => { k with holdover := true }
      let lose := fun t => (List.range 32).foldl (fun s q => loseLanes q s) (ownErr (setEvt t 0x005 2) 0x005 4 0x01 none)
      exec (.holdover true) s = .next (lose (setReg u 0x005 0x1A4 2)) ∧
      exec (.holdover false) s = .next (lose (incCnt (setReg u 0x005 0x1A4 3) 0x005 2))) ∧
    (s.clk.holdover = true →
      exec .holdoverExit s = .next (setReg (modClk s fun k => { k with holdover := false }) 0x005 0x1A4 1))

/-- The event controller completes its commands (R804–R809, R813, R815–R818, R820, R821): a source that is newly asserted is
counted and goes where its route says, once; a route written while its source stands delivers it anew; a report outside its
window is accepted, queued and opens a window, one inside it is counted alone; the first fatal condition is recorded and raises
line 31, a further one is only marked. -/
def Obligations.EventCommandsComplete : Prop :=
  ∀ s : State,
    (∀ n : Fin 2048, fabricClock s = true →
      (sourceLevel s n = true → s.evt.seen.contains n.val = false →
        let r := routeReg s n
        let s0 := setRegI s 0x001 0x108 n (w32 ((bits (getRegI s 0x001 0x108 n) 15 0 + 1) % 2 ^ 16))
        let s1 := modEvt s0 fun e => { e with seen := e.seen ++ [n.val] }
        exec (.sourceAssert ⟨n, .ue⟩) s = .next (fatalSt 4 (ownErr s1 0x001 2 0x02 none)) ∧
        ∀ tbl s2, (tbl = .clean ∧ s2 = s1) ∨ (tbl = .ce ∧ s2 = captureErr (countCe s1 0x001) 0x001 ⟨1, 0x01, 0, 0x001, none⟩) →
          (routeKind r = 0 → exec (.sourceAssert ⟨n, tbl⟩) s = .next s2) ∧
          (routeKind r = 1 → 128 ≤ bits r 20 13 ∨ (physOf s (bits r 20 13)).isSome = true →
            exec (.sourceAssert ⟨n, tbl⟩) s = .next s2 ∧ lineLevel s2 (bits r 20 13) (bits r 12 8) = true) ∧
          (routeKind r = 1 → bits r 20 13 < 128 → physOf s (bits r 20 13) = none →
            exec (.sourceAssert ⟨n, tbl⟩) s = .next (incCnt s2 0x001 7)) ∧
          (routeKind r = 2 → exec (.sourceAssert ⟨n, tbl⟩) s =
            .next (if vectorLevel s (bits r 7 0) then s2 else evtMsix s2 (bits r 7 0))) ∧
          (routeKind r = 3 → exec (.sourceAssert ⟨n, tbl⟩) s = .next (if n.val < 5 then s2 else
            evtToken s2 (bits r 7 0) (bits (sourceCause s2 n) 11 8) (2 ^ 32 * (sourceCause s2 n).toNat + n.val)))) ∧
      (sourceLevel s n = false → s.evt.seen.contains n.val = true → exec (.sourceDeassert n) s =
        .next (dropLines (modEvt s fun e => { e with seen := e.seen.filter fun m => !decide (m = n.val) })))) ∧
    (∀ (a : Acc) (v : Word), reaches s a 0x001 →
      (let n := bits (getReg s 0x001 0x100) 10 0
       let u := dropLines (setRegI s 0x001 0x104 n v)
       (s.evt.seen.contains n = false ∨ bit v 31 = false → exec (.srcRouteWrite a v) s = .next u) ∧
       (s.evt.seen.contains n = true → bit v 31 = true → bit (routeReg s n) 31 = false → kup s.regs = true →
         (bits v 30 28 = 2 → vectorLevel s (bits v 7 0) = false → exec (.srcRouteWrite a v) s = .next (evtMsix u (bits v 7 0))) ∧
         (bits v 30 28 = 3 → 5 ≤ n → exec (.srcRouteWrite a v) s = .next (evtToken u (bits v 7 0)
           (bits (sourceCause u n) 11 8) (2 ^ 32 * (sourceCause u n).toNat + n))))) ∧
      exec (.msixAck a v) s = .next (if vectorLevel s (bits v 7 0) then evtMsix s (bits v 7 0) else s) ∧
      (bit v 0 = true → exec (.rptPop a v) s = .next (modEvt s fun e => { e with queue := e.queue.drop 1 }))) ∧
    (∀ (p : Fin 512) (r : Report), fabricClock s = true → s.evt.unsent.find? (fun x => decide (x.page = p.val)) = some r →
      let sp := bits r.cause 25 16
      let win := bits (getReg s 0x001 0x118) 15 0
      let w := kget EchoWin.init s.evt.echo sp
      kup s.evt.echo = true → ∀ tbl, ∃ t, exec (.report ⟨p, tbl⟩) s = .next t ∧
        (echoOpen s sp = false ∨ win = 0 ∨ fatalReport p (bits r.cause 11 8) (bits r.cause 7 0) = true →
          t.evt.queue = (if s.evt.queue.length < 64 then s.evt.queue ++ [⟨r, w.supp⟩] else s.evt.queue) ∧
          kget EchoWin.init t.evt.echo sp = ⟨decide (win ≠ 0), 100 * freeNow s + 98304 * win, r.page, 0⟩) ∧
        (echoOpen s sp = true → win ≠ 0 → fatalReport p (bits r.cause 11 8) (bits r.cause 7 0) = false →
          t.evt.queue = s.evt.queue ∧ kget EchoWin.init t.evt.echo sp = { w with supp := satAdd 0xFFFF w.supp 1 })) ∧
    (∀ p : Fin 512, let w := kget EchoWin.init s.evt.echo p
      w.isOpen = true → w.endAt ≤ 100 * freeNow s → exec (.echoWindowEnd p) s =
        .next (modEvt s fun e => { e with echo := kset EchoWin.init e.echo p { w with isOpen := false } })) ∧
    (∀ c : Fin 5, c.val = 4 ∨ s.evt.fatalPend.contains c.val = true → kup s.regs = true →
      ∃ t, exec (.fatal c) s = .next t ∧ t.evt.svLine31 = true ∧
        (s.evt.svLine31 = true → getReg t 0x001 0x148 = putBit (getReg s 0x001 0x148) 30 true) ∧
        (s.evt.svLine31 = false → let cfg := getReg s 0x001 0x144
          getReg t 0x001 0x148 = w32 (2 ^ 31 + c.val * 2 ^ 24 + fatalPage c) ∧
          (bit cfg 31 = true → t.evt.txRefused = true) ∧
          (bit cfg 30 = true → t.evt.fatalAt = some (100 * s.time.free + 98304 * bits cfg 15 0)) ∧
          (fabricClock s = true → msixMasked s (bits cfg 23 16) = false → t.evt.msixLast = some (bits cfg 23 16)) ∧
          (fabricClock s = true → msixMasked s (bits cfg 23 16) = true → kup s.pcie.msixPend = true →
            kget 0 t.pcie.msixPend (bits cfg 23 16) ≠ 0))) ∧
    (∀ at_, s.evt.fatalAt = some at_ → at_ ≤ 100 * s.time.free →
      exec .fatalResetDelay s = .next (modEvt s fun e => { e with fatalAt := none, resetReq := true }))

/-- Resets and the boot complete (R825–R828, R830, R833, R838–R841, R843–R845, R852, R853): a power-on reset leaves every part
of the block as after reset but the fuses and what lies outside it, and a DRAM that it finds in self-refresh begins its start; a
warm or a fatal reset, whatever asks for it, keeps in addition the fuses, the fatal record, FREE and device time, and DRAM where
it may, and records its cause; a PCIe reset leaves every page but the endpoint's own; the watchdog is kicked, warns at its half;
the boot samples its mode, ends its self-test, selects an image of flash, loads one over PCIe, and ends with READY: the
calibration record is loaded, and with a configuration set of flash the fabric and the dispatcher go live. That SRAM reads 0
after a reset is the model's choice (log entry 13). -/
def Obligations.ResetsAndBootComplete : Prop :=
  ∀ s : State,
    (let p := { State.reset with
        fuses := s.fuses, hostMem := s.hostMem, fapi := s.fapi, pending := s.pending, freeCtr := s.freeCtr,
        boot := { BootSt.init with flash := s.boot.flash } }
     let q := if s.memc.fc.isSome then dramBegin p else p
     exec .poreset s = .next q ∧ exec .vddAonBrownout s = .next q) ∧
    (let kept := fun (cause : Word) (dram : Bool) (t : State) =>
        t.fuses = s.fuses ∧ t.boot = { BootSt.init with flash := s.boot.flash } ∧ t.cores = State.reset.cores ∧
        t.time.free = s.time.free ∧ devTime t = devTime s ∧
        (kup s.regs = true → getReg t 0x00D 0x100 = cause ∧ getReg t 0x001 0x148 = getReg s 0x001 0x148 ∧
          getReg t 0x003 0x11C = getReg s 0x003 0x11C ∧ getReg t 0x003 0x120 = getReg s 0x003 0x120 ∧
          (∀ n < 64, tcArmed t n = false)) ∧
        (kup s.mem = true → ∀ k, kget 0 t.mem k = if dram && s.memc.fc.isNone && decide (k < 0x001000000000) then kget 0 s.mem k else 0)
     (∃ t, exec .wreset s = .next t ∧ kept 2 true t) ∧
     (∀ (a : Acc) (v : Word), reaches s a 0x00D → bits v 31 16 = 0x5254 → bit v 0 = true →
       ∃ t, exec (.rstCmdWarm a v) s = .next t ∧ kept 4 true t) ∧
     (s.evt.resetReq = true → ∃ t, exec .fatalReset s = .next t ∧ kept 16 false t) ∧
     (wdogEn s = true → wdogPast s 2 = true → ∃ t, exec .wdogExpiry s = .next t ∧ kept 8 true t)) ∧
    (∃ t, exec .pcieReset s = .next t ∧ t.boot = { s.boot with unlocked := false, nonce := none } ∧ t.mem = s.mem ∧
      t.time = s.time ∧ t.pcie.fires = s.pcie.fires ∧
      ∀ p off i, p < 1024 → off < 4096 → p ∉ [0x007, 0x130, 0x131, 0x132, 0x133] → kup s.regs = true →
        getRegI t p off i = getRegI s p off i) ∧
    (wdogEn s = true → s.boot.wdogHalf = false → wdogPast s 1 = true →
      exec .wdogHalf s = .next (setEvt (modBoot s fun b => { b with wdogHalf := true }) 0x00D 3)) ∧
    (∀ (a : Acc) (v : Word), reaches s a 0x00D →
      (bits v 15 0 = 0x00A5 → exec (.wdogKick a v) s =
        .next (modBoot s fun b => { b with wdog := s.time.free, wdogHalf := false })) ∧
      (bits v 15 0 ≠ 0x00A5 → exec (.wdogKick a v) s = .next s) ∧
      (bit v 0 = true → (bootMode s = 1 ∧ (bootStage s = 1 ∨ bootStage s = 3)) ∨ (bootMode s = 2 ∧ bootStage s = 3) →
        let base := 0x001000000000
        let h := secRead s base 4096
        let r := verifySet s 1 (getReg s 0x00D 0x144).toNat fun o n => secRead s (base + o) n
        exec (.pcieGo a v) s = .next (if r = 0 then runImage 2 h (secRead s (base + 4096) (hdrLen h)) s else setStage 3 s))) ∧
    (∀ mode : BitVec 2, s.boot.released = false → ∃ t, exec (.resetRelease mode) s = .next t ∧ t.boot.released = true ∧
      (kup s.regs = true → bootMode t = if s.fuses.bootLock ∨ mode = 3 then 0 else mode.toNat)) ∧
    (s.boot.released = true → s.boot.tested = false → ∀ (failed : List (Fin 320)) (fatal ok : Bool),
      let units := (List.range 320).filter fun u => failed.any fun f => decide (f.val = u)
      let s1 := modBoot s fun b => { b with tested := true, bist := units }
      let s2 := (units.filter fun u => decide (u < 48)).foldl (fun s n => domainOff n (setPd s n { pdRec s n with cur := .off })) s1
      let s3 := s.fuses.repairs.foldl (fun s r => if arrayOn s (r.1 / 256) (r.1 % 256) then (moveRow r.1 r.2 s).1 else s) s2
      (fatal = false → ok = true → exec (.selfTestDone failed fatal ok) s =
        .next (setStage 1 ((List.range 7).foldl (fun s r => enableSt (0x0F8 + r) s) s3))) ∧
      (fatal = true → ok = true → exec (.selfTestDone failed fatal ok) s = .next (setStage 4 s3)) ∧
      (ok = false → exec (.selfTestDone failed fatal ok) s =
        .next (setStage 4 (modReg s3 0x005 0x180 fun w => putBit w 17 true)))) ∧
    (blockRuns s 0x00D = true → bootStage s = 1 → bootMode s ≠ 1 → slotState s 0 ≠ 0x0000FFFF → slotState s 1 ≠ 0x0000FFFF → slotSeq s 0 ≠ slotSeq s 1 →
      let run := fun j =>
        let h := flashBytes s (slotBase j) 4096
        let body := flashBytes s (slotBase j + 4096) (hdrLen h)
        if slotState s j = 0x000000FF then runImage j h body { s with fuses := { s.fuses with svn := max s.fuses.svn (hdrSvn h) } }
        else runImage j h body (wdogRestart (modReg (setSlotState j 0x0000FFFF s) 0x00D 0x10C fun w => putBit w 31 true))
      exec .imageSelected s = .next (
        if slotGood s 0 = true ∧ (slotGood s 1 = false ∨ slotSeq s 1 < slotSeq s 0) then run 0
        else if slotGood s 1 = true then run 1
        else setStage 3 s)) ∧
    (blockRuns s 0x00D = true → bootStage s = 2 → bootReady s = false →
      let rd := fun o n => flashBytes s (0x1810000 + o) n
      let h := rd 0 4096
      let ready := fun t => setEvt (modReg t 0x00D 0x108 fun w => putBit w 31 true) 0x00D 0
      let u := loadRecord (installSet h (rd 4096 (hdrLen h)) (memPut s 0x00C stagingBase (rd 0 (hdrLen h + 4096))))
      exec .bootReady s = .next (ready (if verifySet s 2 0x1000000 rd = 0 then
        (match u.boot.cfg with | some c => goLive c.set u | none => u) else loadRecord s)))

/-- The flash controller, the load of a configuration set, the security mailbox, and the board's events complete (R831, R832,
R836, R842, R846, R847, R850–R852, R860, R873): flash is read, programmed and erased, but for the running image's slot; a set is
loaded and kept; each command of a mailbox starts with BUSY, and its end sets DONE and its result; a command that its mailbox
may not send ends with REFUSED; PMBus is enabled and alerts; an edge of a GPIO ball is noted. -/
def Obligations.SecurityAndBoardComplete : Prop :=
  ∀ s : State,
    (∀ a : Acc, reaches s a 0x00D → s.boot.flBusy = false →
      let n := (getReg s 0x00D 0x12C).toNat
      let at_ := (getReg s 0x00D 0x120).toNat
      let buf := getPair s 0x00D 0x124 6 % 2 ^ 48
      let u := setReg (modBoot s fun b => { b with flBusy := true }) 0x00D 0x134 0x40000000
      let failed := fun t => modReg t 0x00D 0x134 fun w => putBit w 28 true
      let w := memWrite u 0x00C buf (flashBytes s at_ n)
      let r := memRead u 0x00C buf n
      exec (.flRead a) s = .next (if w.2 = .ok then w.1 else failed w.1) ∧
      (overRunning s at_ n = false → exec (.flProgram a) s =
        .next (if r.2.1 = .ok then flashProgram at_ r.2.2 r.1 else failed r.1)) ∧
      (overRunning s at_ n = true → exec (.flProgram a) s = .next (setReg s 0x00D 0x134 0x20000000)) ∧
      (let len := (granules at_ n 4096).length * 4096
       (overRunning s (at_ / 4096 * 4096) len = false → exec (.flErase a) s = .next (flashErase at_ n u)) ∧
       (overRunning s (at_ / 4096 * 4096) len = true → exec (.flErase a) s = .next (setReg s 0x00D 0x134 0x20000000)))) ∧
    (s.boot.flBusy = true → blockRuns s 0x00D = true → pllOn s 24 = true → ∀ fail, let bad := fail || bit (getReg s 0x00D 0x134) 28
      exec (.flDone fail) s = .next (setEvt (setReg (modBoot s fun b => { b with flBusy := false }) 0x00D 0x134
        (w32 (2 ^ 31 + if bad then 2 ^ 28 else 0))) 0x00D 1)) ∧
    (∀ (a : Acc) (v : Word), reaches s a 0x00D → bit v 0 = true → bootStage s = 2 →
      s.phys.any (fun e => decide (2 ≤ e.2.st)) = false →
      let n := (getReg s 0x00D 0x13C).toNat
      let r := verifySet s 2 n fun o k => secRead s (stagingBase + o) k
      let h := secRead s stagingBase 4096
      (n < 4096 ∨ 2 ^ 24 < n → exec (.cfgGo a v) s = .next (cfgResult 3 s)) ∧
      (4096 ≤ n → n ≤ 2 ^ 24 → exec (.cfgGo a v) s = .next (if r = 0 then cfgResult 0
        (modBoot (installSet h (secRead s (stagingBase + 4096) (hdrLen h)) s) fun b => { b with persist := bit v 1 })
        else cfgResult 2 s))) ∧
    (s.boot.persist = true → exec .cfgPersist s = .next (modBoot (flashProgram 0x1810000
      (secRead s stagingBase (getReg s 0x00D 0x13C).toNat) (flashErase 0x1810000 0x1000000 s)) fun b => { b with persist := false })) ∧
    (∀ (a : Acc) (sv blown : Bool), reaches s a 0x00C → (if sv then s.boot.svMb else s.boot.hostMb).cmd = none →
      let u := fun c => setReg s 0x00C (mbBase sv + 0x18) (w32 (2 ^ 30 + c))
      let runs := fun (c : Nat) (x : State × Nat) => modBoot x.1 fun b =>
        if sv then { b with svMb := ⟨some (c, x.2)⟩ } else { b with hostMb := ⟨some (c, x.2)⟩ }
      (sv = true → exec (.verifyCfg a sv) s = .next (runs 1 (u 1,
          verifySet (u 1) 2 (min (mbArg1 s sv) 0x1000000) fun o n => secRead (u 1) (mbArg0 s sv + o) n)) ∧
        exec (.signCal a sv) s = .next (runs 2 (signCalAct sv (u 2))) ∧
        exec (.verifyCal a sv) s = .next (runs 3 (verifyCalAct sv (u 3))) ∧
        exec (.confirm a sv) s = .next (runs 4 (confirmAct (u 4))) ∧
        (∀ i, i ∈ [exec (.debugChallenge a sv) s, exec (.debugUnlock a sv) s, exec (.fuseKey a sv blown) s,
          exec (.fuseRevoke a sv blown) s, exec (.fuseLock a sv blown) s] → ∃ c, 6 ≤ c ∧ c ≤ 10 ∧ i = .next (runs c (u c, 5)))) ∧
      exec (.attest a sv) s = .next (runs 5 (attestAct sv (u 5))) ∧
      (sv = false → exec (.debugChallenge a sv) s = .next (runs 6 (challengeAct sv (u 6))) ∧
        exec (.debugUnlock a sv) s = .next (runs 7 (unlockAct sv (u 7))) ∧
        exec (.fuseKey a sv blown) s = .next (runs 8 (fuseKeyAct sv blown (u 8))) ∧
        exec (.fuseRevoke a sv blown) s = .next (runs 9 (fuseRevokeAct sv blown (u 9))) ∧
        exec (.fuseLock a sv blown) s = .next (runs 10 (fuseLockAct sv blown (u 10))) ∧
        (∀ i, i ∈ [exec (.verifyCfg a sv) s, exec (.signCal a sv) s, exec (.verifyCal a sv) s, exec (.confirm a sv) s] →
          ∃ c, 1 ≤ c ∧ c ≤ 4 ∧ i = .next (runs c (u c, 5))))) ∧
    (∀ (sv : Bool) c r, blockRuns s 0x00C = true → (if sv then s.boot.svMb else s.boot.hostMb).cmd = some (c, r) →
      let u := modBoot s fun b => if sv then { b with svMb := ⟨none⟩ } else { b with hostMb := ⟨none⟩ }
      let v := setEvt (setReg u 0x00C (mbBase sv + 0x18) (w32 (2 ^ 31 + r * 2 ^ 8 + c))) 0x00C (if sv then 1 else 0)
      exec (.mailboxDone sv) s = .next (if r = 1 ∨ r = 2 ∨ r = 3 then setEvt v 0x00C 2 else v)) ∧
    (∀ (a : Acc) (m : BitVec 8), reaches s a 0x00F → enabled s 0x00F = false → resetting s 0x00F = false →
      let u := modReg s 0x00F 0x08 fun w => putBit w 0 true
      let answered := modReg (setReg u 0x00F 0x10C (w32 m.toNat)) 0x00F 0x108 fun w => putBit w 16 false
      (m.toNat < 32 → exec (.pmbusEnable a (some m)) s = .next (setEnabled answered 0x00F true)) ∧
      (32 ≤ m.toNat → exec (.pmbusEnable a (some m)) s = .next (ownErr answered 0x00F 4 0x01 none)) ∧
      exec (.pmbusEnable a none) s = .next (ownErr (modReg u 0x00F 0x108 fun w => putBit w 16 true) 0x00F 4 0x01 none)) ∧
    (exec .pmbAlert s = .next (setEvt (modReg s 0x00F 0x108 fun w => putBit w 17 true) 0x00F 0)) ∧
    (∀ (n : Fin 32) (level : Bool), bit (getReg s 0x00E 0x108) n ≠ level → kup s.regs = true →
      ∃ t, exec (.gpioEdge n level) s = .next t ∧ getReg t 0x00E 0x108 = putBit (getReg s 0x00E 0x108) n level ∧
        (bit (getReg s 0x00E (if level then 0x10C else 0x110)) n = true →
          getReg t 0x00E 0x114 = putBit (getReg s 0x00E 0x114) n true ∧
          bit (getReg t 0x00E 0x14) (if n.val < 16 then 0 else 1) = true) ∧
        (bit (getReg s 0x00E (if level then 0x10C else 0x110)) n = false →
          getReg t 0x00E 0x114 = getReg s 0x00E 0x114 ∧ getReg t 0x00E 0x14 = getReg s 0x00E 0x14))

/-- FREE is a 64-bit count of 983.04 MHz cycles since the time unit's reset, and no register write, time correction or mode affects
it (R739): a tick counts one while CD19 runs, and none while it has stopped (R799); every command but a power-on reset leaves the
count as it is, from every state; a power-on reset starts it at 0; and FREE_LO with FREE_HI read the count's 64 bits. -/
def Obligations.FreeOnlyCounts : Prop :=
  (∀ s : State, s.pending = [] → ∃ t, step s = .next t ∧ freeNow t = freeNow s + (if pllOn s 19 then 1 else 0)) ∧
  (∀ (i : Instr) (s t : State), i ≠ .poreset → i ≠ .vddAonBrownout → exec i s = .next t → freeNow t = freeNow s) ∧
  (∀ (i : Instr) (s t : State), i = .poreset ∨ i = .vddAonBrownout → exec i s = .next t → freeNow t = 0) ∧
  (∀ (a : Acc) (s : State), reaches s a 0x003 → exec (.loRead a 0x003 0x45) s =
    .next (answer a (BitVec.ofNat 32 (freeNow s))
      { s with holdRd := kset 0 s.holdRd (0x003 * 4 + accPath a) (BitVec.ofNat 32 (freeNow s / 2 ^ 32)) }))

/-- A warm or fatal reset returns every TIME register other than device time, FREE and INCR to its reset value, so every compare
unit starts disarmed, and only power-on reset resets the time unit as R738 states (R827): over each command that asks for such a
reset, every other register of the TIME page and of the compare units' page reads its reset value, in every window; device time,
FREE and INCR stay; and a power-on reset starts device time and FREE at 0 with INCR at its reset value. -/
def Obligations.WarmResetKeepsDeviceTime : Prop :=
  ∀ s : State, kup s.regs = true →
    let asked := fun i : Instr => i = .wreset ∨ (∃ a v, i = .rstCmdWarm a v ∧ reaches s a 0x00D ∧ bits v 31 16 = 0x5254 ∧ bit v 0 = true) ∨
      (i = .fatalReset ∧ s.evt.resetReq = true) ∨ (i = .wdogExpiry ∧ wdogEn s = true ∧ wdogPast s 2 = true)
    (∀ i, asked i → ∃ t, exec i s = .next t ∧ devTime t = devTime s ∧ freeNow t = freeNow s ∧ incr t = incr s ∧
      (∀ off i, off < 4096 → off ≠ 0x11C → off ≠ 0x120 → getRegI t 0x003 off i = regReset 0x003 off) ∧
      (∀ off i, off < 4096 → getRegI t 0x260 off i = regReset 0x260 off) ∧
      (∀ n < 64, tcArmed t n = false)) ∧
    (∀ i, i = .poreset ∨ i = .vddAonBrownout → ∃ t, exec i s = .next t ∧ devTime t = 0 ∧ freeNow t = 0 ∧
      getReg t 0x003 0x11C = regReset 0x003 0x11C ∧ getReg t 0x003 0x120 = regReset 0x003 0x120)

/-- A further fatal condition before reset changes nothing in FATAL_STS and sets FATAL_STS.MORE, and FATAL_STS keeps its value
through every reset except power-on reset (R821): whatever the condition, and through every command that resets the device. -/
def Obligations.FatalRecordStays : Prop :=
  ∀ s : State, kup s.regs = true →
    (∀ c : Fin 5, c.val = 4 ∨ s.evt.fatalPend.contains c.val = true → s.evt.svLine31 = true →
      ∃ t, exec (.fatal c) s = .next t ∧ getReg t 0x001 0x148 = putBit (getReg s 0x001 0x148) 30 true) ∧
    (∀ (i : Instr) (t : State), exec i s = .next t → i = .wreset ∨ (∃ a v, i = .rstCmdWarm a v) ∨ i = .fatalReset ∨
        i = .pcieReset ∨ i = .wdogExpiry → getReg t 0x001 0x148 = getReg s 0x001 0x148) ∧
    (∀ i, i = .poreset ∨ i = .vddAonBrownout → ∃ t, exec i s = .next t ∧ getReg t 0x001 0x148 = 0)
end

