-- ==== Sys2Proof/Laws/Fires.lean ====
section
/-! SUPPORT. What a row of a fire does where no earlier fire of its page is waiting for its descriptor. -/

namespace Sys2Proof.Machine

/-- With no unowned fire of its page, a fire that has arrived and finds the page enabled and its clock running starts (R82). -/
theorem fireRow_of_enabled (f : FireRec) (s : State) (p d : Nat) (st : FireRec → State → State)
    (ha : f ∈ s.arrived)
    (hc : pageClock s p = true) (hu : ∀ x ∈ s.unowned, x.1 ≠ p) (he : enabled s p = true) : fireRow p d f st s = st f (takeArrived s f) := by
  have e1 : ((takeArrived s f).unowned.filter fun x => x.1 = p) = [] := by
    rw [List.filter_eq_nil_iff]; intro x hx; simp; exact hu x hx
  have e2 : ((takeArrived s f).unowned.filter fun x => !decide (x.1 = p)) = (takeArrived s f).unowned := by
    rw [List.filter_eq_self]; intro x hx; simp; exact hu x hx
  have e3 : enabled (takeArrived s f) p = true := he
  simp [fireRow, e1, e2, e3, ha, hc]

end Sys2Proof.Machine
end

