-- ==== Sys2Proof/Laws/Map.lean ====
section
/-! SUPPORT. Laws of the maps in canonical form: what a read after a write gives, and that a write keeps the form. -/

namespace Sys2Proof.Machine

variable {α : Type} [DecidableEq α]

/-- A canonical map has its keys rising. -/
theorem kup_of_kwfFrom {d : α} {m : KMap α} {lo : Option Nat} (h : kwfFrom d lo m = true) : kupFrom lo m = true := by
  induction m generalizing lo with
  | nil => rfl
  | cons e m ih =>
    simp only [kwfFrom, Bool.and_eq_true] at h
    simp only [kupFrom, Bool.and_eq_true]
    exact ⟨h.1.1, ih h.2⟩

/-- A canonical map has its keys rising. -/
theorem kup_of_kwf {d : α} {m : KMap α} (h : kwf d m = true) : kup m = true := kup_of_kwfFrom h

omit [DecidableEq α] in
/-- A key below every listed one is not listed. -/
theorem kget_of_lt {d : α} {m : KMap α} {l j : Nat} (h : kupFrom (some l) m = true) (hj : j ≤ l) : kget d m j = d := by
  induction m generalizing l with
  | nil => rfl
  | cons e m ih =>
    simp only [kupFrom, Bool.and_eq_true, decide_eq_true_eq] at h
    have : j ≠ e.1 := by omega
    simp only [kget, if_neg this]
    exact ih h.2 (by omega)

/-- A read of the key just written gives the value written. -/
theorem kget_kset_self (d : α) (m : KMap α) (j : Nat) (v : α) (h : kup m = true) : kget d (kset d m j v) j = v := by
  suffices H : ∀ lo, kupFrom lo m = true → kget d (kset d m j v) j = v from H none h
  clear h
  induction m with
  | nil => intro _ _; simp only [kset]; split <;> simp_all [kget]
  | cons e m ih =>
    intro lo h
    obtain ⟨k, w⟩ := e
    simp only [kupFrom, Bool.and_eq_true] at h
    simp only [kset]
    by_cases h1 : j < k
    · by_cases hv : v = d
      · have h3 : j ≠ k := by omega
        simpa [h1, hv, kget, h3] using kget_of_lt h.2 (Nat.le_of_lt h1)
      · simp [h1, hv, kget]
    · by_cases h2 : j = k
      · subst h2
        by_cases hv : v = d
        · simpa [hv] using kget_of_lt h.2 (Nat.le_refl j)
        · simp [hv, kget]
      · simpa [h1, h2, kget] using ih _ h.2

/-- A write that stores something other than the default is read back, whatever the map. -/
theorem kget_kset_of_ne (d : α) (m : KMap α) (j : Nat) (v : α) (hv : v ≠ d) : kget d (kset d m j v) j = v := by
  induction m with
  | nil => simp [kset, hv, kget]
  | cons e m ih =>
    obtain ⟨k, w⟩ := e
    simp only [kset]
    by_cases h1 : j < k
    · simp [h1, hv, kget]
    · by_cases h2 : j = k
      · simp [h2, hv, kget]
      · simpa [h1, h2, kget] using ih

/-- A write keeps keys rising above any bound below its key. -/
theorem kupFrom_kset (d : α) (m : KMap α) (j : Nat) (v : α) (lo : Option Nat) (h : kupFrom lo m = true)
    (hj : ∀ l, lo = some l → l < j) : kupFrom lo (kset d m j v) = true := by
  induction m generalizing lo with
  | nil =>
    simp only [kset]
    split
    · rfl
    · cases lo <;> simp_all [kupFrom]
  | cons e m ih =>
    obtain ⟨k, w⟩ := e
    have h0 := h
    simp only [kupFrom, Bool.and_eq_true] at h
    obtain ⟨hlo, hm⟩ := h
    simp only [kset]
    split
    · next hjk =>
      split
      · exact h0
      · simp only [kupFrom, Bool.and_eq_true, decide_eq_true_eq]
        refine ⟨?_, hjk, hm⟩
        cases lo <;> simp_all
    · split
      · next hjk =>
        subst hjk
        split
        · cases m with
          | nil => rfl
          | cons e' m =>
            simp only [kupFrom, Bool.and_eq_true, decide_eq_true_eq] at hm ⊢
            refine ⟨?_, hm.2⟩
            cases lo with
            | none => rfl
            | some l => exact decide_eq_true (Nat.lt_trans (hj l rfl) hm.1)
        · simp only [kupFrom, Bool.and_eq_true]
          exact ⟨hlo, hm⟩
      · next h1 h2 =>
        simp only [kupFrom, Bool.and_eq_true]
        exact ⟨hlo, ih (some k) hm (fun l hl => by cases hl; omega)⟩

/-- A write keeps keys rising. -/
theorem kup_kset (d : α) (m : KMap α) (j : Nat) (v : α) (h : kup m = true) : kup (kset d m j v) = true :=
  kupFrom_kset d m j v none h (fun _ hl => nomatch hl)

omit [DecidableEq α] in
/-- Leaving entries out keeps keys rising. -/
theorem kupFrom_filter (m : KMap α) (p : Nat × α → Bool) (lo : Option Nat) (h : kupFrom lo m = true) :
    kupFrom lo (m.filter p) = true := by
  induction m generalizing lo with
  | nil => rfl
  | cons e m ih =>
    obtain ⟨k, w⟩ := e
    simp only [kupFrom, Bool.and_eq_true] at h
    simp only [List.filter]
    split
    · simp only [kupFrom, Bool.and_eq_true]
      exact ⟨h.1, ih _ h.2⟩
    · refine ih lo ?_
      cases m with
      | nil => rfl
      | cons e' m =>
        simp only [kupFrom, Bool.and_eq_true, decide_eq_true_eq] at h ⊢
        refine ⟨?_, h.2.2⟩
        cases lo with
        | none => rfl
        | some l =>
          have := h.1
          simp only [decide_eq_true_eq] at this
          exact decide_eq_true (Nat.lt_trans this h.2.1)

omit [DecidableEq α] in
/-- Leaving entries out keeps keys rising. -/
theorem kup_filter (m : KMap α) (p : Nat × α → Bool) (h : kup m = true) : kup (m.filter p) = true :=
  kupFrom_filter m p none h

/-- A write leaves every other key as it reads, whatever the defaults. -/
theorem kget_kset_ne (d d' : α) (m : KMap α) (j k : Nat) (v : α) (hk : k ≠ j) : kget d (kset d' m j v) k = kget d m k := by
  induction m with
  | nil => simp only [kset]; split <;> simp [kget, hk]
  | cons e m ih =>
    obtain ⟨l, w⟩ := e
    simp only [kset]
    split
    · split <;> simp [kget, hk]
    · split
      · next h => subst h; split <;> simp [kget, hk]
      · simp only [kget, ih]

/-- A write keeps the canonical form above any bound below its key. -/
theorem kwfFrom_kset (d : α) (m : KMap α) (j : Nat) (v : α) (lo : Option Nat) (h : kwfFrom d lo m = true)
    (hj : ∀ l, lo = some l → l < j) : kwfFrom d lo (kset d m j v) = true := by
  induction m generalizing lo with
  | nil =>
    simp only [kset]
    split
    · rfl
    · next hv => cases lo <;> simp_all [kwfFrom]
  | cons e m ih =>
    obtain ⟨k, w⟩ := e
    have h0 := h
    simp only [kwfFrom, Bool.and_eq_true] at h
    obtain ⟨⟨hlo, hw⟩, hm⟩ := h
    simp only [kset]
    split
    · next hjk =>
      split
      · exact h0
      · next hv =>
        simp only [kwfFrom, Bool.and_eq_true, decide_eq_true_eq]
        refine ⟨⟨?_, by simpa using hv⟩, ⟨hjk, hw⟩, hm⟩
        cases lo <;> simp_all
    · split
      · next hjk =>
        subst hjk
        split
        · cases m with
          | nil => rfl
          | cons e' m =>
            simp only [kwfFrom, Bool.and_eq_true, decide_eq_true_eq] at hm ⊢
            refine ⟨⟨?_, hm.1.2⟩, hm.2⟩
            cases lo with
            | none => rfl
            | some l => exact decide_eq_true (Nat.lt_trans (hj l rfl) hm.1.1)
        · next hv =>
          simp only [kwfFrom, Bool.and_eq_true]
          exact ⟨⟨hlo, by simpa using hv⟩, hm⟩
      · next h1 h2 =>
        simp only [kwfFrom, Bool.and_eq_true]
        exact ⟨⟨hlo, hw⟩, ih (some k) hm (fun l hl => by cases hl; omega)⟩

/-- A write keeps the canonical form. -/
theorem kwf_kset (d : α) (m : KMap α) (j : Nat) (v : α) (h : kwf d m = true) : kwf d (kset d m j v) = true :=
  kwfFrom_kset d m j v none h (fun _ hl => nomatch hl)

/-- Leaving entries out keeps the canonical form. -/
theorem kwfFrom_filter (d : α) (m : KMap α) (p : Nat × α → Bool) (lo : Option Nat) (h : kwfFrom d lo m = true) :
    kwfFrom d lo (m.filter p) = true := by
  induction m generalizing lo with
  | nil => rfl
  | cons e m ih =>
    obtain ⟨k, w⟩ := e
    simp only [kwfFrom, Bool.and_eq_true] at h
    simp only [List.filter]
    split
    · simp only [kwfFrom, Bool.and_eq_true]
      exact ⟨h.1, ih _ h.2⟩
    · refine ih lo ?_
      cases m with
      | nil => rfl
      | cons e' m =>
        simp only [kwfFrom, Bool.and_eq_true, decide_eq_true_eq] at h ⊢
        refine ⟨⟨?_, h.2.1.2⟩, h.2.2⟩
        cases lo with
        | none => rfl
        | some l =>
          have := h.1.1
          simp only [decide_eq_true_eq] at this
          exact decide_eq_true (Nat.lt_trans this h.2.1.1)

/-- Leaving entries out keeps the canonical form. -/
theorem kwf_filter (d : α) (m : KMap α) (p : Nat × α → Bool) (h : kwf d m = true) : kwf d (m.filter p) = true :=
  kwfFrom_filter d m p none h

omit [DecidableEq α] in
/-- A fold of operations that keep keys rising keeps them rising. -/
theorem kup_foldl {β : Type} (l : List β) (g : KMap α → β → KMap α) (hg : ∀ m x, kup m = true → kup (g m x) = true) (m : KMap α)
    (h : kup m = true) : kup (l.foldl g m) = true := by
  induction l generalizing m with
  | nil => exact h
  | cons x l ih => exact ih _ (hg _ _ h)

/-- A copied table keeps the canonical form. -/
theorem kwf_copyTable (d : α) (n c a : Nat) (m : KMap α) (h : kwf d m = true) : kwf d (copyTable d n c a m) = true := by
  unfold copyTable
  generalize m.filter (fun x => decide (x.1 / n = c)) = l
  have hm := kwf_filter d m (fun x => !decide (x.1 / n = a)) h
  revert hm
  generalize m.filter (fun x => !decide (x.1 / n = a)) = k
  intro hm
  induction l generalizing k with
  | nil => exact hm
  | cons x l ih => exact ih _ (kwf_kset d k _ _ hm)

/-- A copied table keeps the order of the keys. -/
theorem kup_copyTable (d : α) (n c a : Nat) (m : KMap α) (h : kup m = true) : kup (copyTable d n c a m) = true :=
  kup_foldl _ _ (fun _ _ h => kup_kset d _ _ _ h) _ (kup_filter _ _ h)

/-- Dropping a page's registers keeps the keys rising. -/
theorem kup_dropRegs (p : Nat) (keep : Nat → Bool) (m : KMap Word) (h : kup m = true) : kup (dropRegs p keep m) = true := kup_filter _ _ h

end Sys2Proof.Machine
end

