-- ==== Sys2Proof/Laws/State.lean ====
section
/-! SUPPORT. What the named updates of State leave alone: one lemma per field per update, so that no later proof unfolds
a record update. -/

namespace Sys2Proof.Machine

/-! ### `setRegI` changes `regs` only. -/

@[simp] theorem setRegI_pending (s : State) (p off i : Nat) (v : Word) : (setRegI s p off i v).pending = s.pending := rfl
@[simp] theorem setRegI_holdRd (s : State) (p off i : Nat) (v : Word) : (setRegI s p off i v).holdRd = s.holdRd := rfl
@[simp] theorem setRegI_holdWr (s : State) (p off i : Nat) (v : Word) : (setRegI s p off i v).holdWr = s.holdWr := rfl
@[simp] theorem setRegI_cnt (s : State) (p off i : Nat) (v : Word) : (setRegI s p off i v).cnt = s.cnt := rfl
@[simp] theorem setRegI_mem (s : State) (p off i : Nat) (v : Word) : (setRegI s p off i v).mem = s.mem := rfl
@[simp] theorem setRegI_memErr (s : State) (p off i : Nat) (v : Word) : (setRegI s p off i v).memErr = s.memErr := rfl
@[simp] theorem setRegI_hostMem (s : State) (p off i : Nat) (v : Word) : (setRegI s p off i v).hostMem = s.hostMem := rfl
@[simp] theorem setRegI_coreMap (s : State) (p off i : Nat) (v : Word) : (setRegI s p off i v).coreMap = s.coreMap := rfl
@[simp] theorem setRegI_fuses (s : State) (p off i : Nat) (v : Word) : (setRegI s p off i v).fuses = s.fuses := rfl
@[simp] theorem setRegI_freeCtr (s : State) (p off i : Nat) (v : Word) : (setRegI s p off i v).freeCtr = s.freeCtr := rfl
@[simp] theorem setRegI_rdOut (s : State) (p off i : Nat) (v : Word) : (setRegI s p off i v).rdOut = s.rdOut := rfl
@[simp] theorem setRegI_arrived (s : State) (p off i : Nat) (v : Word) : (setRegI s p off i v).arrived = s.arrived := rfl
@[simp] theorem setRegI_usTick (s : State) (p off i : Nat) (v : Word) : (setRegI s p off i v).usTick = s.usTick := rfl
@[simp] theorem setRegI_time (s : State) (p off i : Nat) (v : Word) : (setRegI s p off i v).time = s.time := rfl
@[simp] theorem setRegI_disp (s : State) (p off i : Nat) (v : Word) : (setRegI s p off i v).disp = s.disp := rfl
@[simp] theorem setRegI_fab (s : State) (p off i : Nat) (v : Word) : (setRegI s p off i v).fab = s.fab := rfl
@[simp] theorem setRegI_memc (s : State) (p off i : Nat) (v : Word) : (setRegI s p off i v).memc = s.memc := rfl
@[simp] theorem setRegI_pwr (s : State) (p off i : Nat) (v : Word) : (setRegI s p off i v).pwr = s.pwr := rfl
@[simp] theorem setRegI_clk (s : State) (p off i : Nat) (v : Word) : (setRegI s p off i v).clk = s.clk := rfl
@[simp] theorem setRegI_evt (s : State) (p off i : Nat) (v : Word) : (setRegI s p off i v).evt = s.evt := rfl
@[simp] theorem setRegI_links (s : State) (p off i : Nat) (v : Word) : (setRegI s p off i v).links = s.links := rfl
@[simp] theorem setRegI_lemc (s : State) (p off i : Nat) (v : Word) : (setRegI s p off i v).lemc = s.lemc := rfl
@[simp] theorem setRegI_chains (s : State) (p off i : Nat) (v : Word) : (setRegI s p off i v).chains = s.chains := rfl
@[simp] theorem setRegI_subs (s : State) (p off i : Nat) (v : Word) : (setRegI s p off i v).subs = s.subs := rfl
@[simp] theorem setRegI_dfe (s : State) (p off i : Nat) (v : Word) : (setRegI s p off i v).dfe = s.dfe := rfl
@[simp] theorem setRegI_ofdm (s : State) (p off i : Nat) (v : Word) : (setRegI s p off i v).ofdm = s.ofdm := rfl
@[simp] theorem setRegI_fec (s : State) (p off i : Nat) (v : Word) : (setRegI s p off i v).fec = s.fec := rfl
@[simp] theorem setRegI_prism (s : State) (p off i : Nat) (v : Word) : (setRegI s p off i v).prism = s.prism := rfl
@[simp] theorem setRegI_cal (s : State) (p off i : Nat) (v : Word) : (setRegI s p off i v).cal = s.cal := rfl
@[simp] theorem setRegI_spareJobs (s : State) (p off i : Nat) (v : Word) : (setRegI s p off i v).spareJobs = s.spareJobs := rfl
@[simp] theorem setRegI_cores (s : State) (p off i : Nat) (v : Word) : (setRegI s p off i v).cores = s.cores := rfl
@[simp] theorem setRegI_mxc (s : State) (p off i : Nat) (v : Word) : (setRegI s p off i v).mxc = s.mxc := rfl
@[simp] theorem setRegI_mxCtx (s : State) (p off i : Nat) (v : Word) : (setRegI s p off i v).mxCtx = s.mxCtx := rfl
@[simp] theorem setRegI_dma (s : State) (p off i : Nat) (v : Word) : (setRegI s p off i v).dma = s.dma := rfl
@[simp] theorem setRegI_dmaEng (s : State) (p off i : Nat) (v : Word) : (setRegI s p off i v).dmaEng = s.dmaEng := rfl
@[simp] theorem setRegI_lanes (s : State) (p off i : Nat) (v : Word) : (setRegI s p off i v).lanes = s.lanes := rfl
@[simp] theorem setRegI_cuw (s : State) (p off i : Nat) (v : Word) : (setRegI s p off i v).cuw = s.cuw := rfl
@[simp] theorem setRegI_pkt (s : State) (p off i : Nat) (v : Word) : (setRegI s p off i v).pkt = s.pkt := rfl
@[simp] theorem setRegI_tm (s : State) (p off i : Nat) (v : Word) : (setRegI s p off i v).tm = s.tm := rfl
@[simp] theorem setRegI_pcie (s : State) (p off i : Nat) (v : Word) : (setRegI s p off i v).pcie = s.pcie := rfl
@[simp] theorem setRegI_phys (s : State) (p off i : Nat) (v : Word) : (setRegI s p off i v).phys = s.phys := rfl
@[simp] theorem setRegI_fapi (s : State) (p off i : Nat) (v : Word) : (setRegI s p off i v).fapi = s.fapi := rfl
@[simp] theorem setRegI_boot (s : State) (p off i : Nat) (v : Word) : (setRegI s p off i v).boot = s.boot := rfl
@[simp] theorem setRegI_unowned (s : State) (p off i : Nat) (v : Word) : (setRegI s p off i v).unowned = s.unowned := rfl

/-! ### `setReg` changes `regs` only. -/

@[simp] theorem setReg_pending (s : State) (p off : Nat) (v : Word) : (setReg s p off v).pending = s.pending := rfl
@[simp] theorem setReg_holdRd (s : State) (p off : Nat) (v : Word) : (setReg s p off v).holdRd = s.holdRd := rfl
@[simp] theorem setReg_holdWr (s : State) (p off : Nat) (v : Word) : (setReg s p off v).holdWr = s.holdWr := rfl
@[simp] theorem setReg_cnt (s : State) (p off : Nat) (v : Word) : (setReg s p off v).cnt = s.cnt := rfl
@[simp] theorem setReg_mem (s : State) (p off : Nat) (v : Word) : (setReg s p off v).mem = s.mem := rfl
@[simp] theorem setReg_memErr (s : State) (p off : Nat) (v : Word) : (setReg s p off v).memErr = s.memErr := rfl
@[simp] theorem setReg_hostMem (s : State) (p off : Nat) (v : Word) : (setReg s p off v).hostMem = s.hostMem := rfl
@[simp] theorem setReg_coreMap (s : State) (p off : Nat) (v : Word) : (setReg s p off v).coreMap = s.coreMap := rfl
@[simp] theorem setReg_fuses (s : State) (p off : Nat) (v : Word) : (setReg s p off v).fuses = s.fuses := rfl
@[simp] theorem setReg_freeCtr (s : State) (p off : Nat) (v : Word) : (setReg s p off v).freeCtr = s.freeCtr := rfl
@[simp] theorem setReg_rdOut (s : State) (p off : Nat) (v : Word) : (setReg s p off v).rdOut = s.rdOut := rfl
@[simp] theorem setReg_arrived (s : State) (p off : Nat) (v : Word) : (setReg s p off v).arrived = s.arrived := rfl
@[simp] theorem setReg_usTick (s : State) (p off : Nat) (v : Word) : (setReg s p off v).usTick = s.usTick := rfl
@[simp] theorem setReg_time (s : State) (p off : Nat) (v : Word) : (setReg s p off v).time = s.time := rfl
@[simp] theorem setReg_disp (s : State) (p off : Nat) (v : Word) : (setReg s p off v).disp = s.disp := rfl
@[simp] theorem setReg_fab (s : State) (p off : Nat) (v : Word) : (setReg s p off v).fab = s.fab := rfl
@[simp] theorem setReg_memc (s : State) (p off : Nat) (v : Word) : (setReg s p off v).memc = s.memc := rfl
@[simp] theorem setReg_pwr (s : State) (p off : Nat) (v : Word) : (setReg s p off v).pwr = s.pwr := rfl
@[simp] theorem setReg_clk (s : State) (p off : Nat) (v : Word) : (setReg s p off v).clk = s.clk := rfl
@[simp] theorem setReg_evt (s : State) (p off : Nat) (v : Word) : (setReg s p off v).evt = s.evt := rfl
@[simp] theorem setReg_links (s : State) (p off : Nat) (v : Word) : (setReg s p off v).links = s.links := rfl
@[simp] theorem setReg_lemc (s : State) (p off : Nat) (v : Word) : (setReg s p off v).lemc = s.lemc := rfl
@[simp] theorem setReg_chains (s : State) (p off : Nat) (v : Word) : (setReg s p off v).chains = s.chains := rfl
@[simp] theorem setReg_subs (s : State) (p off : Nat) (v : Word) : (setReg s p off v).subs = s.subs := rfl
@[simp] theorem setReg_dfe (s : State) (p off : Nat) (v : Word) : (setReg s p off v).dfe = s.dfe := rfl
@[simp] theorem setReg_ofdm (s : State) (p off : Nat) (v : Word) : (setReg s p off v).ofdm = s.ofdm := rfl
@[simp] theorem setReg_fec (s : State) (p off : Nat) (v : Word) : (setReg s p off v).fec = s.fec := rfl
@[simp] theorem setReg_prism (s : State) (p off : Nat) (v : Word) : (setReg s p off v).prism = s.prism := rfl
@[simp] theorem setReg_cal (s : State) (p off : Nat) (v : Word) : (setReg s p off v).cal = s.cal := rfl
@[simp] theorem setReg_spareJobs (s : State) (p off : Nat) (v : Word) : (setReg s p off v).spareJobs = s.spareJobs := rfl
@[simp] theorem setReg_cores (s : State) (p off : Nat) (v : Word) : (setReg s p off v).cores = s.cores := rfl
@[simp] theorem setReg_mxc (s : State) (p off : Nat) (v : Word) : (setReg s p off v).mxc = s.mxc := rfl
@[simp] theorem setReg_mxCtx (s : State) (p off : Nat) (v : Word) : (setReg s p off v).mxCtx = s.mxCtx := rfl
@[simp] theorem setReg_dma (s : State) (p off : Nat) (v : Word) : (setReg s p off v).dma = s.dma := rfl
@[simp] theorem setReg_dmaEng (s : State) (p off : Nat) (v : Word) : (setReg s p off v).dmaEng = s.dmaEng := rfl
@[simp] theorem setReg_lanes (s : State) (p off : Nat) (v : Word) : (setReg s p off v).lanes = s.lanes := rfl
@[simp] theorem setReg_cuw (s : State) (p off : Nat) (v : Word) : (setReg s p off v).cuw = s.cuw := rfl
@[simp] theorem setReg_pkt (s : State) (p off : Nat) (v : Word) : (setReg s p off v).pkt = s.pkt := rfl
@[simp] theorem setReg_tm (s : State) (p off : Nat) (v : Word) : (setReg s p off v).tm = s.tm := rfl
@[simp] theorem setReg_pcie (s : State) (p off : Nat) (v : Word) : (setReg s p off v).pcie = s.pcie := rfl
@[simp] theorem setReg_phys (s : State) (p off : Nat) (v : Word) : (setReg s p off v).phys = s.phys := rfl
@[simp] theorem setReg_fapi (s : State) (p off : Nat) (v : Word) : (setReg s p off v).fapi = s.fapi := rfl
@[simp] theorem setReg_boot (s : State) (p off : Nat) (v : Word) : (setReg s p off v).boot = s.boot := rfl
@[simp] theorem setReg_unowned (s : State) (p off : Nat) (v : Word) : (setReg s p off v).unowned = s.unowned := rfl

/-! ### `modReg` changes `regs` only. -/

@[simp] theorem modReg_pending (s : State) (p off : Nat) (f : Word → Word) : (modReg s p off f).pending = s.pending := rfl
@[simp] theorem modReg_holdRd (s : State) (p off : Nat) (f : Word → Word) : (modReg s p off f).holdRd = s.holdRd := rfl
@[simp] theorem modReg_holdWr (s : State) (p off : Nat) (f : Word → Word) : (modReg s p off f).holdWr = s.holdWr := rfl
@[simp] theorem modReg_cnt (s : State) (p off : Nat) (f : Word → Word) : (modReg s p off f).cnt = s.cnt := rfl
@[simp] theorem modReg_mem (s : State) (p off : Nat) (f : Word → Word) : (modReg s p off f).mem = s.mem := rfl
@[simp] theorem modReg_memErr (s : State) (p off : Nat) (f : Word → Word) : (modReg s p off f).memErr = s.memErr := rfl
@[simp] theorem modReg_hostMem (s : State) (p off : Nat) (f : Word → Word) : (modReg s p off f).hostMem = s.hostMem := rfl
@[simp] theorem modReg_coreMap (s : State) (p off : Nat) (f : Word → Word) : (modReg s p off f).coreMap = s.coreMap := rfl
@[simp] theorem modReg_fuses (s : State) (p off : Nat) (f : Word → Word) : (modReg s p off f).fuses = s.fuses := rfl
@[simp] theorem modReg_freeCtr (s : State) (p off : Nat) (f : Word → Word) : (modReg s p off f).freeCtr = s.freeCtr := rfl
@[simp] theorem modReg_rdOut (s : State) (p off : Nat) (f : Word → Word) : (modReg s p off f).rdOut = s.rdOut := rfl
@[simp] theorem modReg_arrived (s : State) (p off : Nat) (f : Word → Word) : (modReg s p off f).arrived = s.arrived := rfl
@[simp] theorem modReg_usTick (s : State) (p off : Nat) (f : Word → Word) : (modReg s p off f).usTick = s.usTick := rfl
@[simp] theorem modReg_time (s : State) (p off : Nat) (f : Word → Word) : (modReg s p off f).time = s.time := rfl
@[simp] theorem modReg_disp (s : State) (p off : Nat) (f : Word → Word) : (modReg s p off f).disp = s.disp := rfl
@[simp] theorem modReg_fab (s : State) (p off : Nat) (f : Word → Word) : (modReg s p off f).fab = s.fab := rfl
@[simp] theorem modReg_memc (s : State) (p off : Nat) (f : Word → Word) : (modReg s p off f).memc = s.memc := rfl
@[simp] theorem modReg_pwr (s : State) (p off : Nat) (f : Word → Word) : (modReg s p off f).pwr = s.pwr := rfl
@[simp] theorem modReg_clk (s : State) (p off : Nat) (f : Word → Word) : (modReg s p off f).clk = s.clk := rfl
@[simp] theorem modReg_evt (s : State) (p off : Nat) (f : Word → Word) : (modReg s p off f).evt = s.evt := rfl
@[simp] theorem modReg_links (s : State) (p off : Nat) (f : Word → Word) : (modReg s p off f).links = s.links := rfl
@[simp] theorem modReg_lemc (s : State) (p off : Nat) (f : Word → Word) : (modReg s p off f).lemc = s.lemc := rfl
@[simp] theorem modReg_chains (s : State) (p off : Nat) (f : Word → Word) : (modReg s p off f).chains = s.chains := rfl
@[simp] theorem modReg_subs (s : State) (p off : Nat) (f : Word → Word) : (modReg s p off f).subs = s.subs := rfl
@[simp] theorem modReg_dfe (s : State) (p off : Nat) (f : Word → Word) : (modReg s p off f).dfe = s.dfe := rfl
@[simp] theorem modReg_ofdm (s : State) (p off : Nat) (f : Word → Word) : (modReg s p off f).ofdm = s.ofdm := rfl
@[simp] theorem modReg_fec (s : State) (p off : Nat) (f : Word → Word) : (modReg s p off f).fec = s.fec := rfl
@[simp] theorem modReg_prism (s : State) (p off : Nat) (f : Word → Word) : (modReg s p off f).prism = s.prism := rfl
@[simp] theorem modReg_cal (s : State) (p off : Nat) (f : Word → Word) : (modReg s p off f).cal = s.cal := rfl
@[simp] theorem modReg_spareJobs (s : State) (p off : Nat) (f : Word → Word) : (modReg s p off f).spareJobs = s.spareJobs := rfl
@[simp] theorem modReg_cores (s : State) (p off : Nat) (f : Word → Word) : (modReg s p off f).cores = s.cores := rfl
@[simp] theorem modReg_mxc (s : State) (p off : Nat) (f : Word → Word) : (modReg s p off f).mxc = s.mxc := rfl
@[simp] theorem modReg_mxCtx (s : State) (p off : Nat) (f : Word → Word) : (modReg s p off f).mxCtx = s.mxCtx := rfl
@[simp] theorem modReg_dma (s : State) (p off : Nat) (f : Word → Word) : (modReg s p off f).dma = s.dma := rfl
@[simp] theorem modReg_dmaEng (s : State) (p off : Nat) (f : Word → Word) : (modReg s p off f).dmaEng = s.dmaEng := rfl
@[simp] theorem modReg_lanes (s : State) (p off : Nat) (f : Word → Word) : (modReg s p off f).lanes = s.lanes := rfl
@[simp] theorem modReg_cuw (s : State) (p off : Nat) (f : Word → Word) : (modReg s p off f).cuw = s.cuw := rfl
@[simp] theorem modReg_pkt (s : State) (p off : Nat) (f : Word → Word) : (modReg s p off f).pkt = s.pkt := rfl
@[simp] theorem modReg_tm (s : State) (p off : Nat) (f : Word → Word) : (modReg s p off f).tm = s.tm := rfl
@[simp] theorem modReg_pcie (s : State) (p off : Nat) (f : Word → Word) : (modReg s p off f).pcie = s.pcie := rfl
@[simp] theorem modReg_phys (s : State) (p off : Nat) (f : Word → Word) : (modReg s p off f).phys = s.phys := rfl
@[simp] theorem modReg_fapi (s : State) (p off : Nat) (f : Word → Word) : (modReg s p off f).fapi = s.fapi := rfl
@[simp] theorem modReg_boot (s : State) (p off : Nat) (f : Word → Word) : (modReg s p off f).boot = s.boot := rfl
@[simp] theorem modReg_unowned (s : State) (p off : Nat) (f : Word → Word) : (modReg s p off f).unowned = s.unowned := rfl

/-! ### `setPair` changes `regs` only. -/

@[simp] theorem setPair_pending (s : State) (p off n : Nat) : (setPair s p off n).pending = s.pending := rfl
@[simp] theorem setPair_holdRd (s : State) (p off n : Nat) : (setPair s p off n).holdRd = s.holdRd := rfl
@[simp] theorem setPair_holdWr (s : State) (p off n : Nat) : (setPair s p off n).holdWr = s.holdWr := rfl
@[simp] theorem setPair_cnt (s : State) (p off n : Nat) : (setPair s p off n).cnt = s.cnt := rfl
@[simp] theorem setPair_mem (s : State) (p off n : Nat) : (setPair s p off n).mem = s.mem := rfl
@[simp] theorem setPair_memErr (s : State) (p off n : Nat) : (setPair s p off n).memErr = s.memErr := rfl
@[simp] theorem setPair_hostMem (s : State) (p off n : Nat) : (setPair s p off n).hostMem = s.hostMem := rfl
@[simp] theorem setPair_coreMap (s : State) (p off n : Nat) : (setPair s p off n).coreMap = s.coreMap := rfl
@[simp] theorem setPair_fuses (s : State) (p off n : Nat) : (setPair s p off n).fuses = s.fuses := rfl
@[simp] theorem setPair_freeCtr (s : State) (p off n : Nat) : (setPair s p off n).freeCtr = s.freeCtr := rfl
@[simp] theorem setPair_rdOut (s : State) (p off n : Nat) : (setPair s p off n).rdOut = s.rdOut := rfl
@[simp] theorem setPair_arrived (s : State) (p off n : Nat) : (setPair s p off n).arrived = s.arrived := rfl
@[simp] theorem setPair_usTick (s : State) (p off n : Nat) : (setPair s p off n).usTick = s.usTick := rfl
@[simp] theorem setPair_time (s : State) (p off n : Nat) : (setPair s p off n).time = s.time := rfl
@[simp] theorem setPair_disp (s : State) (p off n : Nat) : (setPair s p off n).disp = s.disp := rfl
@[simp] theorem setPair_fab (s : State) (p off n : Nat) : (setPair s p off n).fab = s.fab := rfl
@[simp] theorem setPair_memc (s : State) (p off n : Nat) : (setPair s p off n).memc = s.memc := rfl
@[simp] theorem setPair_pwr (s : State) (p off n : Nat) : (setPair s p off n).pwr = s.pwr := rfl
@[simp] theorem setPair_clk (s : State) (p off n : Nat) : (setPair s p off n).clk = s.clk := rfl
@[simp] theorem setPair_evt (s : State) (p off n : Nat) : (setPair s p off n).evt = s.evt := rfl
@[simp] theorem setPair_links (s : State) (p off n : Nat) : (setPair s p off n).links = s.links := rfl
@[simp] theorem setPair_lemc (s : State) (p off n : Nat) : (setPair s p off n).lemc = s.lemc := rfl
@[simp] theorem setPair_chains (s : State) (p off n : Nat) : (setPair s p off n).chains = s.chains := rfl
@[simp] theorem setPair_subs (s : State) (p off n : Nat) : (setPair s p off n).subs = s.subs := rfl
@[simp] theorem setPair_dfe (s : State) (p off n : Nat) : (setPair s p off n).dfe = s.dfe := rfl
@[simp] theorem setPair_ofdm (s : State) (p off n : Nat) : (setPair s p off n).ofdm = s.ofdm := rfl
@[simp] theorem setPair_fec (s : State) (p off n : Nat) : (setPair s p off n).fec = s.fec := rfl
@[simp] theorem setPair_prism (s : State) (p off n : Nat) : (setPair s p off n).prism = s.prism := rfl
@[simp] theorem setPair_cal (s : State) (p off n : Nat) : (setPair s p off n).cal = s.cal := rfl
@[simp] theorem setPair_spareJobs (s : State) (p off n : Nat) : (setPair s p off n).spareJobs = s.spareJobs := rfl
@[simp] theorem setPair_cores (s : State) (p off n : Nat) : (setPair s p off n).cores = s.cores := rfl
@[simp] theorem setPair_mxc (s : State) (p off n : Nat) : (setPair s p off n).mxc = s.mxc := rfl
@[simp] theorem setPair_mxCtx (s : State) (p off n : Nat) : (setPair s p off n).mxCtx = s.mxCtx := rfl
@[simp] theorem setPair_dma (s : State) (p off n : Nat) : (setPair s p off n).dma = s.dma := rfl
@[simp] theorem setPair_dmaEng (s : State) (p off n : Nat) : (setPair s p off n).dmaEng = s.dmaEng := rfl
@[simp] theorem setPair_lanes (s : State) (p off n : Nat) : (setPair s p off n).lanes = s.lanes := rfl
@[simp] theorem setPair_cuw (s : State) (p off n : Nat) : (setPair s p off n).cuw = s.cuw := rfl
@[simp] theorem setPair_pkt (s : State) (p off n : Nat) : (setPair s p off n).pkt = s.pkt := rfl
@[simp] theorem setPair_tm (s : State) (p off n : Nat) : (setPair s p off n).tm = s.tm := rfl
@[simp] theorem setPair_pcie (s : State) (p off n : Nat) : (setPair s p off n).pcie = s.pcie := rfl
@[simp] theorem setPair_phys (s : State) (p off n : Nat) : (setPair s p off n).phys = s.phys := rfl
@[simp] theorem setPair_fapi (s : State) (p off n : Nat) : (setPair s p off n).fapi = s.fapi := rfl
@[simp] theorem setPair_boot (s : State) (p off n : Nat) : (setPair s p off n).boot = s.boot := rfl
@[simp] theorem setPair_unowned (s : State) (p off n : Nat) : (setPair s p off n).unowned = s.unowned := rfl

/-! ### `addCnt` changes `cnt` only. -/

@[simp] theorem addCnt_pending (s : State) (p i n : Nat) : (addCnt s p i n).pending = s.pending := rfl
@[simp] theorem addCnt_regs (s : State) (p i n : Nat) : (addCnt s p i n).regs = s.regs := rfl
@[simp] theorem addCnt_holdRd (s : State) (p i n : Nat) : (addCnt s p i n).holdRd = s.holdRd := rfl
@[simp] theorem addCnt_holdWr (s : State) (p i n : Nat) : (addCnt s p i n).holdWr = s.holdWr := rfl
@[simp] theorem addCnt_mem (s : State) (p i n : Nat) : (addCnt s p i n).mem = s.mem := rfl
@[simp] theorem addCnt_memErr (s : State) (p i n : Nat) : (addCnt s p i n).memErr = s.memErr := rfl
@[simp] theorem addCnt_hostMem (s : State) (p i n : Nat) : (addCnt s p i n).hostMem = s.hostMem := rfl
@[simp] theorem addCnt_coreMap (s : State) (p i n : Nat) : (addCnt s p i n).coreMap = s.coreMap := rfl
@[simp] theorem addCnt_fuses (s : State) (p i n : Nat) : (addCnt s p i n).fuses = s.fuses := rfl
@[simp] theorem addCnt_freeCtr (s : State) (p i n : Nat) : (addCnt s p i n).freeCtr = s.freeCtr := rfl
@[simp] theorem addCnt_rdOut (s : State) (p i n : Nat) : (addCnt s p i n).rdOut = s.rdOut := rfl
@[simp] theorem addCnt_arrived (s : State) (p i n : Nat) : (addCnt s p i n).arrived = s.arrived := rfl
@[simp] theorem addCnt_usTick (s : State) (p i n : Nat) : (addCnt s p i n).usTick = s.usTick := rfl
@[simp] theorem addCnt_time (s : State) (p i n : Nat) : (addCnt s p i n).time = s.time := rfl
@[simp] theorem addCnt_disp (s : State) (p i n : Nat) : (addCnt s p i n).disp = s.disp := rfl
@[simp] theorem addCnt_fab (s : State) (p i n : Nat) : (addCnt s p i n).fab = s.fab := rfl
@[simp] theorem addCnt_memc (s : State) (p i n : Nat) : (addCnt s p i n).memc = s.memc := rfl
@[simp] theorem addCnt_pwr (s : State) (p i n : Nat) : (addCnt s p i n).pwr = s.pwr := rfl
@[simp] theorem addCnt_clk (s : State) (p i n : Nat) : (addCnt s p i n).clk = s.clk := rfl
@[simp] theorem addCnt_evt (s : State) (p i n : Nat) : (addCnt s p i n).evt = s.evt := rfl
@[simp] theorem addCnt_links (s : State) (p i n : Nat) : (addCnt s p i n).links = s.links := rfl
@[simp] theorem addCnt_lemc (s : State) (p i n : Nat) : (addCnt s p i n).lemc = s.lemc := rfl
@[simp] theorem addCnt_chains (s : State) (p i n : Nat) : (addCnt s p i n).chains = s.chains := rfl
@[simp] theorem addCnt_subs (s : State) (p i n : Nat) : (addCnt s p i n).subs = s.subs := rfl
@[simp] theorem addCnt_dfe (s : State) (p i n : Nat) : (addCnt s p i n).dfe = s.dfe := rfl
@[simp] theorem addCnt_ofdm (s : State) (p i n : Nat) : (addCnt s p i n).ofdm = s.ofdm := rfl
@[simp] theorem addCnt_fec (s : State) (p i n : Nat) : (addCnt s p i n).fec = s.fec := rfl
@[simp] theorem addCnt_prism (s : State) (p i n : Nat) : (addCnt s p i n).prism = s.prism := rfl
@[simp] theorem addCnt_cal (s : State) (p i n : Nat) : (addCnt s p i n).cal = s.cal := rfl
@[simp] theorem addCnt_spareJobs (s : State) (p i n : Nat) : (addCnt s p i n).spareJobs = s.spareJobs := rfl
@[simp] theorem addCnt_cores (s : State) (p i n : Nat) : (addCnt s p i n).cores = s.cores := rfl
@[simp] theorem addCnt_mxc (s : State) (p i n : Nat) : (addCnt s p i n).mxc = s.mxc := rfl
@[simp] theorem addCnt_mxCtx (s : State) (p i n : Nat) : (addCnt s p i n).mxCtx = s.mxCtx := rfl
@[simp] theorem addCnt_dma (s : State) (p i n : Nat) : (addCnt s p i n).dma = s.dma := rfl
@[simp] theorem addCnt_dmaEng (s : State) (p i n : Nat) : (addCnt s p i n).dmaEng = s.dmaEng := rfl
@[simp] theorem addCnt_lanes (s : State) (p i n : Nat) : (addCnt s p i n).lanes = s.lanes := rfl
@[simp] theorem addCnt_cuw (s : State) (p i n : Nat) : (addCnt s p i n).cuw = s.cuw := rfl
@[simp] theorem addCnt_pkt (s : State) (p i n : Nat) : (addCnt s p i n).pkt = s.pkt := rfl
@[simp] theorem addCnt_tm (s : State) (p i n : Nat) : (addCnt s p i n).tm = s.tm := rfl
@[simp] theorem addCnt_pcie (s : State) (p i n : Nat) : (addCnt s p i n).pcie = s.pcie := rfl
@[simp] theorem addCnt_phys (s : State) (p i n : Nat) : (addCnt s p i n).phys = s.phys := rfl
@[simp] theorem addCnt_fapi (s : State) (p i n : Nat) : (addCnt s p i n).fapi = s.fapi := rfl
@[simp] theorem addCnt_boot (s : State) (p i n : Nat) : (addCnt s p i n).boot = s.boot := rfl
@[simp] theorem addCnt_unowned (s : State) (p i n : Nat) : (addCnt s p i n).unowned = s.unowned := rfl

/-! ### `incCnt` changes `cnt` only. -/

@[simp] theorem incCnt_pending (s : State) (p i : Nat) : (incCnt s p i).pending = s.pending := rfl
@[simp] theorem incCnt_regs (s : State) (p i : Nat) : (incCnt s p i).regs = s.regs := rfl
@[simp] theorem incCnt_holdRd (s : State) (p i : Nat) : (incCnt s p i).holdRd = s.holdRd := rfl
@[simp] theorem incCnt_holdWr (s : State) (p i : Nat) : (incCnt s p i).holdWr = s.holdWr := rfl
@[simp] theorem incCnt_mem (s : State) (p i : Nat) : (incCnt s p i).mem = s.mem := rfl
@[simp] theorem incCnt_memErr (s : State) (p i : Nat) : (incCnt s p i).memErr = s.memErr := rfl
@[simp] theorem incCnt_hostMem (s : State) (p i : Nat) : (incCnt s p i).hostMem = s.hostMem := rfl
@[simp] theorem incCnt_coreMap (s : State) (p i : Nat) : (incCnt s p i).coreMap = s.coreMap := rfl
@[simp] theorem incCnt_fuses (s : State) (p i : Nat) : (incCnt s p i).fuses = s.fuses := rfl
@[simp] theorem incCnt_freeCtr (s : State) (p i : Nat) : (incCnt s p i).freeCtr = s.freeCtr := rfl
@[simp] theorem incCnt_rdOut (s : State) (p i : Nat) : (incCnt s p i).rdOut = s.rdOut := rfl
@[simp] theorem incCnt_arrived (s : State) (p i : Nat) : (incCnt s p i).arrived = s.arrived := rfl
@[simp] theorem incCnt_usTick (s : State) (p i : Nat) : (incCnt s p i).usTick = s.usTick := rfl
@[simp] theorem incCnt_time (s : State) (p i : Nat) : (incCnt s p i).time = s.time := rfl
@[simp] theorem incCnt_disp (s : State) (p i : Nat) : (incCnt s p i).disp = s.disp := rfl
@[simp] theorem incCnt_fab (s : State) (p i : Nat) : (incCnt s p i).fab = s.fab := rfl
@[simp] theorem incCnt_memc (s : State) (p i : Nat) : (incCnt s p i).memc = s.memc := rfl
@[simp] theorem incCnt_pwr (s : State) (p i : Nat) : (incCnt s p i).pwr = s.pwr := rfl
@[simp] theorem incCnt_clk (s : State) (p i : Nat) : (incCnt s p i).clk = s.clk := rfl
@[simp] theorem incCnt_evt (s : State) (p i : Nat) : (incCnt s p i).evt = s.evt := rfl
@[simp] theorem incCnt_links (s : State) (p i : Nat) : (incCnt s p i).links = s.links := rfl
@[simp] theorem incCnt_lemc (s : State) (p i : Nat) : (incCnt s p i).lemc = s.lemc := rfl
@[simp] theorem incCnt_chains (s : State) (p i : Nat) : (incCnt s p i).chains = s.chains := rfl
@[simp] theorem incCnt_subs (s : State) (p i : Nat) : (incCnt s p i).subs = s.subs := rfl
@[simp] theorem incCnt_dfe (s : State) (p i : Nat) : (incCnt s p i).dfe = s.dfe := rfl
@[simp] theorem incCnt_ofdm (s : State) (p i : Nat) : (incCnt s p i).ofdm = s.ofdm := rfl
@[simp] theorem incCnt_fec (s : State) (p i : Nat) : (incCnt s p i).fec = s.fec := rfl
@[simp] theorem incCnt_prism (s : State) (p i : Nat) : (incCnt s p i).prism = s.prism := rfl
@[simp] theorem incCnt_cal (s : State) (p i : Nat) : (incCnt s p i).cal = s.cal := rfl
@[simp] theorem incCnt_spareJobs (s : State) (p i : Nat) : (incCnt s p i).spareJobs = s.spareJobs := rfl
@[simp] theorem incCnt_cores (s : State) (p i : Nat) : (incCnt s p i).cores = s.cores := rfl
@[simp] theorem incCnt_mxc (s : State) (p i : Nat) : (incCnt s p i).mxc = s.mxc := rfl
@[simp] theorem incCnt_mxCtx (s : State) (p i : Nat) : (incCnt s p i).mxCtx = s.mxCtx := rfl
@[simp] theorem incCnt_dma (s : State) (p i : Nat) : (incCnt s p i).dma = s.dma := rfl
@[simp] theorem incCnt_dmaEng (s : State) (p i : Nat) : (incCnt s p i).dmaEng = s.dmaEng := rfl
@[simp] theorem incCnt_lanes (s : State) (p i : Nat) : (incCnt s p i).lanes = s.lanes := rfl
@[simp] theorem incCnt_cuw (s : State) (p i : Nat) : (incCnt s p i).cuw = s.cuw := rfl
@[simp] theorem incCnt_pkt (s : State) (p i : Nat) : (incCnt s p i).pkt = s.pkt := rfl
@[simp] theorem incCnt_tm (s : State) (p i : Nat) : (incCnt s p i).tm = s.tm := rfl
@[simp] theorem incCnt_pcie (s : State) (p i : Nat) : (incCnt s p i).pcie = s.pcie := rfl
@[simp] theorem incCnt_phys (s : State) (p i : Nat) : (incCnt s p i).phys = s.phys := rfl
@[simp] theorem incCnt_fapi (s : State) (p i : Nat) : (incCnt s p i).fapi = s.fapi := rfl
@[simp] theorem incCnt_boot (s : State) (p i : Nat) : (incCnt s p i).boot = s.boot := rfl
@[simp] theorem incCnt_unowned (s : State) (p i : Nat) : (incCnt s p i).unowned = s.unowned := rfl

/-! ### `setByte` changes `mem` only. -/

@[simp] theorem setByte_pending (s : State) (a : Nat) (b : Byte) : (setByte s a b).pending = s.pending := rfl
@[simp] theorem setByte_regs (s : State) (a : Nat) (b : Byte) : (setByte s a b).regs = s.regs := rfl
@[simp] theorem setByte_holdRd (s : State) (a : Nat) (b : Byte) : (setByte s a b).holdRd = s.holdRd := rfl
@[simp] theorem setByte_holdWr (s : State) (a : Nat) (b : Byte) : (setByte s a b).holdWr = s.holdWr := rfl
@[simp] theorem setByte_cnt (s : State) (a : Nat) (b : Byte) : (setByte s a b).cnt = s.cnt := rfl
@[simp] theorem setByte_memErr (s : State) (a : Nat) (b : Byte) : (setByte s a b).memErr = s.memErr := rfl
@[simp] theorem setByte_hostMem (s : State) (a : Nat) (b : Byte) : (setByte s a b).hostMem = s.hostMem := rfl
@[simp] theorem setByte_coreMap (s : State) (a : Nat) (b : Byte) : (setByte s a b).coreMap = s.coreMap := rfl
@[simp] theorem setByte_fuses (s : State) (a : Nat) (b : Byte) : (setByte s a b).fuses = s.fuses := rfl
@[simp] theorem setByte_freeCtr (s : State) (a : Nat) (b : Byte) : (setByte s a b).freeCtr = s.freeCtr := rfl
@[simp] theorem setByte_rdOut (s : State) (a : Nat) (b : Byte) : (setByte s a b).rdOut = s.rdOut := rfl
@[simp] theorem setByte_arrived (s : State) (a : Nat) (b : Byte) : (setByte s a b).arrived = s.arrived := rfl
@[simp] theorem setByte_usTick (s : State) (a : Nat) (b : Byte) : (setByte s a b).usTick = s.usTick := rfl
@[simp] theorem setByte_time (s : State) (a : Nat) (b : Byte) : (setByte s a b).time = s.time := rfl
@[simp] theorem setByte_disp (s : State) (a : Nat) (b : Byte) : (setByte s a b).disp = s.disp := rfl
@[simp] theorem setByte_fab (s : State) (a : Nat) (b : Byte) : (setByte s a b).fab = s.fab := rfl
@[simp] theorem setByte_memc (s : State) (a : Nat) (b : Byte) : (setByte s a b).memc = s.memc := rfl
@[simp] theorem setByte_pwr (s : State) (a : Nat) (b : Byte) : (setByte s a b).pwr = s.pwr := rfl
@[simp] theorem setByte_clk (s : State) (a : Nat) (b : Byte) : (setByte s a b).clk = s.clk := rfl
@[simp] theorem setByte_evt (s : State) (a : Nat) (b : Byte) : (setByte s a b).evt = s.evt := rfl
@[simp] theorem setByte_links (s : State) (a : Nat) (b : Byte) : (setByte s a b).links = s.links := rfl
@[simp] theorem setByte_lemc (s : State) (a : Nat) (b : Byte) : (setByte s a b).lemc = s.lemc := rfl
@[simp] theorem setByte_chains (s : State) (a : Nat) (b : Byte) : (setByte s a b).chains = s.chains := rfl
@[simp] theorem setByte_subs (s : State) (a : Nat) (b : Byte) : (setByte s a b).subs = s.subs := rfl
@[simp] theorem setByte_dfe (s : State) (a : Nat) (b : Byte) : (setByte s a b).dfe = s.dfe := rfl
@[simp] theorem setByte_ofdm (s : State) (a : Nat) (b : Byte) : (setByte s a b).ofdm = s.ofdm := rfl
@[simp] theorem setByte_fec (s : State) (a : Nat) (b : Byte) : (setByte s a b).fec = s.fec := rfl
@[simp] theorem setByte_prism (s : State) (a : Nat) (b : Byte) : (setByte s a b).prism = s.prism := rfl
@[simp] theorem setByte_cal (s : State) (a : Nat) (b : Byte) : (setByte s a b).cal = s.cal := rfl
@[simp] theorem setByte_spareJobs (s : State) (a : Nat) (b : Byte) : (setByte s a b).spareJobs = s.spareJobs := rfl
@[simp] theorem setByte_cores (s : State) (a : Nat) (b : Byte) : (setByte s a b).cores = s.cores := rfl
@[simp] theorem setByte_mxc (s : State) (a : Nat) (b : Byte) : (setByte s a b).mxc = s.mxc := rfl
@[simp] theorem setByte_mxCtx (s : State) (a : Nat) (b : Byte) : (setByte s a b).mxCtx = s.mxCtx := rfl
@[simp] theorem setByte_dma (s : State) (a : Nat) (b : Byte) : (setByte s a b).dma = s.dma := rfl
@[simp] theorem setByte_dmaEng (s : State) (a : Nat) (b : Byte) : (setByte s a b).dmaEng = s.dmaEng := rfl
@[simp] theorem setByte_lanes (s : State) (a : Nat) (b : Byte) : (setByte s a b).lanes = s.lanes := rfl
@[simp] theorem setByte_cuw (s : State) (a : Nat) (b : Byte) : (setByte s a b).cuw = s.cuw := rfl
@[simp] theorem setByte_pkt (s : State) (a : Nat) (b : Byte) : (setByte s a b).pkt = s.pkt := rfl
@[simp] theorem setByte_tm (s : State) (a : Nat) (b : Byte) : (setByte s a b).tm = s.tm := rfl
@[simp] theorem setByte_pcie (s : State) (a : Nat) (b : Byte) : (setByte s a b).pcie = s.pcie := rfl
@[simp] theorem setByte_phys (s : State) (a : Nat) (b : Byte) : (setByte s a b).phys = s.phys := rfl
@[simp] theorem setByte_fapi (s : State) (a : Nat) (b : Byte) : (setByte s a b).fapi = s.fapi := rfl
@[simp] theorem setByte_boot (s : State) (a : Nat) (b : Byte) : (setByte s a b).boot = s.boot := rfl
@[simp] theorem setByte_unowned (s : State) (a : Nat) (b : Byte) : (setByte s a b).unowned = s.unowned := rfl

/-! ### `setMark` changes `memErr` only. -/

@[simp] theorem setMark_pending (s : State) (a : Nat) (k : Mark) : (setMark s a k).pending = s.pending := rfl
@[simp] theorem setMark_regs (s : State) (a : Nat) (k : Mark) : (setMark s a k).regs = s.regs := rfl
@[simp] theorem setMark_holdRd (s : State) (a : Nat) (k : Mark) : (setMark s a k).holdRd = s.holdRd := rfl
@[simp] theorem setMark_holdWr (s : State) (a : Nat) (k : Mark) : (setMark s a k).holdWr = s.holdWr := rfl
@[simp] theorem setMark_cnt (s : State) (a : Nat) (k : Mark) : (setMark s a k).cnt = s.cnt := rfl
@[simp] theorem setMark_mem (s : State) (a : Nat) (k : Mark) : (setMark s a k).mem = s.mem := rfl
@[simp] theorem setMark_hostMem (s : State) (a : Nat) (k : Mark) : (setMark s a k).hostMem = s.hostMem := rfl
@[simp] theorem setMark_coreMap (s : State) (a : Nat) (k : Mark) : (setMark s a k).coreMap = s.coreMap := rfl
@[simp] theorem setMark_fuses (s : State) (a : Nat) (k : Mark) : (setMark s a k).fuses = s.fuses := rfl
@[simp] theorem setMark_freeCtr (s : State) (a : Nat) (k : Mark) : (setMark s a k).freeCtr = s.freeCtr := rfl
@[simp] theorem setMark_rdOut (s : State) (a : Nat) (k : Mark) : (setMark s a k).rdOut = s.rdOut := rfl
@[simp] theorem setMark_arrived (s : State) (a : Nat) (k : Mark) : (setMark s a k).arrived = s.arrived := rfl
@[simp] theorem setMark_usTick (s : State) (a : Nat) (k : Mark) : (setMark s a k).usTick = s.usTick := rfl
@[simp] theorem setMark_time (s : State) (a : Nat) (k : Mark) : (setMark s a k).time = s.time := rfl
@[simp] theorem setMark_disp (s : State) (a : Nat) (k : Mark) : (setMark s a k).disp = s.disp := rfl
@[simp] theorem setMark_fab (s : State) (a : Nat) (k : Mark) : (setMark s a k).fab = s.fab := rfl
@[simp] theorem setMark_memc (s : State) (a : Nat) (k : Mark) : (setMark s a k).memc = s.memc := rfl
@[simp] theorem setMark_pwr (s : State) (a : Nat) (k : Mark) : (setMark s a k).pwr = s.pwr := rfl
@[simp] theorem setMark_clk (s : State) (a : Nat) (k : Mark) : (setMark s a k).clk = s.clk := rfl
@[simp] theorem setMark_evt (s : State) (a : Nat) (k : Mark) : (setMark s a k).evt = s.evt := rfl
@[simp] theorem setMark_links (s : State) (a : Nat) (k : Mark) : (setMark s a k).links = s.links := rfl
@[simp] theorem setMark_lemc (s : State) (a : Nat) (k : Mark) : (setMark s a k).lemc = s.lemc := rfl
@[simp] theorem setMark_chains (s : State) (a : Nat) (k : Mark) : (setMark s a k).chains = s.chains := rfl
@[simp] theorem setMark_subs (s : State) (a : Nat) (k : Mark) : (setMark s a k).subs = s.subs := rfl
@[simp] theorem setMark_dfe (s : State) (a : Nat) (k : Mark) : (setMark s a k).dfe = s.dfe := rfl
@[simp] theorem setMark_ofdm (s : State) (a : Nat) (k : Mark) : (setMark s a k).ofdm = s.ofdm := rfl
@[simp] theorem setMark_fec (s : State) (a : Nat) (k : Mark) : (setMark s a k).fec = s.fec := rfl
@[simp] theorem setMark_prism (s : State) (a : Nat) (k : Mark) : (setMark s a k).prism = s.prism := rfl
@[simp] theorem setMark_cal (s : State) (a : Nat) (k : Mark) : (setMark s a k).cal = s.cal := rfl
@[simp] theorem setMark_spareJobs (s : State) (a : Nat) (k : Mark) : (setMark s a k).spareJobs = s.spareJobs := rfl
@[simp] theorem setMark_cores (s : State) (a : Nat) (k : Mark) : (setMark s a k).cores = s.cores := rfl
@[simp] theorem setMark_mxc (s : State) (a : Nat) (k : Mark) : (setMark s a k).mxc = s.mxc := rfl
@[simp] theorem setMark_mxCtx (s : State) (a : Nat) (k : Mark) : (setMark s a k).mxCtx = s.mxCtx := rfl
@[simp] theorem setMark_dma (s : State) (a : Nat) (k : Mark) : (setMark s a k).dma = s.dma := rfl
@[simp] theorem setMark_dmaEng (s : State) (a : Nat) (k : Mark) : (setMark s a k).dmaEng = s.dmaEng := rfl
@[simp] theorem setMark_lanes (s : State) (a : Nat) (k : Mark) : (setMark s a k).lanes = s.lanes := rfl
@[simp] theorem setMark_cuw (s : State) (a : Nat) (k : Mark) : (setMark s a k).cuw = s.cuw := rfl
@[simp] theorem setMark_pkt (s : State) (a : Nat) (k : Mark) : (setMark s a k).pkt = s.pkt := rfl
@[simp] theorem setMark_tm (s : State) (a : Nat) (k : Mark) : (setMark s a k).tm = s.tm := rfl
@[simp] theorem setMark_pcie (s : State) (a : Nat) (k : Mark) : (setMark s a k).pcie = s.pcie := rfl
@[simp] theorem setMark_phys (s : State) (a : Nat) (k : Mark) : (setMark s a k).phys = s.phys := rfl
@[simp] theorem setMark_fapi (s : State) (a : Nat) (k : Mark) : (setMark s a k).fapi = s.fapi := rfl
@[simp] theorem setMark_boot (s : State) (a : Nat) (k : Mark) : (setMark s a k).boot = s.boot := rfl
@[simp] theorem setMark_unowned (s : State) (a : Nat) (k : Mark) : (setMark s a k).unowned = s.unowned := rfl

/-! ### `setEvt` changes `regs` only. -/

@[simp] theorem setEvt_pending (s : State) (p b : Nat) : (setEvt s p b).pending = s.pending := rfl
@[simp] theorem setEvt_holdRd (s : State) (p b : Nat) : (setEvt s p b).holdRd = s.holdRd := rfl
@[simp] theorem setEvt_holdWr (s : State) (p b : Nat) : (setEvt s p b).holdWr = s.holdWr := rfl
@[simp] theorem setEvt_cnt (s : State) (p b : Nat) : (setEvt s p b).cnt = s.cnt := rfl
@[simp] theorem setEvt_mem (s : State) (p b : Nat) : (setEvt s p b).mem = s.mem := rfl
@[simp] theorem setEvt_memErr (s : State) (p b : Nat) : (setEvt s p b).memErr = s.memErr := rfl
@[simp] theorem setEvt_hostMem (s : State) (p b : Nat) : (setEvt s p b).hostMem = s.hostMem := rfl
@[simp] theorem setEvt_coreMap (s : State) (p b : Nat) : (setEvt s p b).coreMap = s.coreMap := rfl
@[simp] theorem setEvt_fuses (s : State) (p b : Nat) : (setEvt s p b).fuses = s.fuses := rfl
@[simp] theorem setEvt_freeCtr (s : State) (p b : Nat) : (setEvt s p b).freeCtr = s.freeCtr := rfl
@[simp] theorem setEvt_rdOut (s : State) (p b : Nat) : (setEvt s p b).rdOut = s.rdOut := rfl
@[simp] theorem setEvt_arrived (s : State) (p b : Nat) : (setEvt s p b).arrived = s.arrived := rfl
@[simp] theorem setEvt_usTick (s : State) (p b : Nat) : (setEvt s p b).usTick = s.usTick := rfl
@[simp] theorem setEvt_time (s : State) (p b : Nat) : (setEvt s p b).time = s.time := rfl
@[simp] theorem setEvt_disp (s : State) (p b : Nat) : (setEvt s p b).disp = s.disp := rfl
@[simp] theorem setEvt_fab (s : State) (p b : Nat) : (setEvt s p b).fab = s.fab := rfl
@[simp] theorem setEvt_memc (s : State) (p b : Nat) : (setEvt s p b).memc = s.memc := rfl
@[simp] theorem setEvt_pwr (s : State) (p b : Nat) : (setEvt s p b).pwr = s.pwr := rfl
@[simp] theorem setEvt_clk (s : State) (p b : Nat) : (setEvt s p b).clk = s.clk := rfl
@[simp] theorem setEvt_evt (s : State) (p b : Nat) : (setEvt s p b).evt = s.evt := rfl
@[simp] theorem setEvt_links (s : State) (p b : Nat) : (setEvt s p b).links = s.links := rfl
@[simp] theorem setEvt_lemc (s : State) (p b : Nat) : (setEvt s p b).lemc = s.lemc := rfl
@[simp] theorem setEvt_chains (s : State) (p b : Nat) : (setEvt s p b).chains = s.chains := rfl
@[simp] theorem setEvt_subs (s : State) (p b : Nat) : (setEvt s p b).subs = s.subs := rfl
@[simp] theorem setEvt_dfe (s : State) (p b : Nat) : (setEvt s p b).dfe = s.dfe := rfl
@[simp] theorem setEvt_ofdm (s : State) (p b : Nat) : (setEvt s p b).ofdm = s.ofdm := rfl
@[simp] theorem setEvt_fec (s : State) (p b : Nat) : (setEvt s p b).fec = s.fec := rfl
@[simp] theorem setEvt_prism (s : State) (p b : Nat) : (setEvt s p b).prism = s.prism := rfl
@[simp] theorem setEvt_cal (s : State) (p b : Nat) : (setEvt s p b).cal = s.cal := rfl
@[simp] theorem setEvt_spareJobs (s : State) (p b : Nat) : (setEvt s p b).spareJobs = s.spareJobs := rfl
@[simp] theorem setEvt_cores (s : State) (p b : Nat) : (setEvt s p b).cores = s.cores := rfl
@[simp] theorem setEvt_mxc (s : State) (p b : Nat) : (setEvt s p b).mxc = s.mxc := rfl
@[simp] theorem setEvt_mxCtx (s : State) (p b : Nat) : (setEvt s p b).mxCtx = s.mxCtx := rfl
@[simp] theorem setEvt_dma (s : State) (p b : Nat) : (setEvt s p b).dma = s.dma := rfl
@[simp] theorem setEvt_dmaEng (s : State) (p b : Nat) : (setEvt s p b).dmaEng = s.dmaEng := rfl
@[simp] theorem setEvt_lanes (s : State) (p b : Nat) : (setEvt s p b).lanes = s.lanes := rfl
@[simp] theorem setEvt_cuw (s : State) (p b : Nat) : (setEvt s p b).cuw = s.cuw := rfl
@[simp] theorem setEvt_pkt (s : State) (p b : Nat) : (setEvt s p b).pkt = s.pkt := rfl
@[simp] theorem setEvt_tm (s : State) (p b : Nat) : (setEvt s p b).tm = s.tm := rfl
@[simp] theorem setEvt_pcie (s : State) (p b : Nat) : (setEvt s p b).pcie = s.pcie := rfl
@[simp] theorem setEvt_phys (s : State) (p b : Nat) : (setEvt s p b).phys = s.phys := rfl
@[simp] theorem setEvt_fapi (s : State) (p b : Nat) : (setEvt s p b).fapi = s.fapi := rfl
@[simp] theorem setEvt_boot (s : State) (p b : Nat) : (setEvt s p b).boot = s.boot := rfl
@[simp] theorem setEvt_unowned (s : State) (p b : Nat) : (setEvt s p b).unowned = s.unowned := rfl

/-! ### `setEnabled` changes `regs` only. -/

@[simp] theorem setEnabled_pending (s : State) (p : Nat) (b : Bool) : (setEnabled s p b).pending = s.pending := rfl
@[simp] theorem setEnabled_holdRd (s : State) (p : Nat) (b : Bool) : (setEnabled s p b).holdRd = s.holdRd := rfl
@[simp] theorem setEnabled_holdWr (s : State) (p : Nat) (b : Bool) : (setEnabled s p b).holdWr = s.holdWr := rfl
@[simp] theorem setEnabled_cnt (s : State) (p : Nat) (b : Bool) : (setEnabled s p b).cnt = s.cnt := rfl
@[simp] theorem setEnabled_mem (s : State) (p : Nat) (b : Bool) : (setEnabled s p b).mem = s.mem := rfl
@[simp] theorem setEnabled_memErr (s : State) (p : Nat) (b : Bool) : (setEnabled s p b).memErr = s.memErr := rfl
@[simp] theorem setEnabled_hostMem (s : State) (p : Nat) (b : Bool) : (setEnabled s p b).hostMem = s.hostMem := rfl
@[simp] theorem setEnabled_coreMap (s : State) (p : Nat) (b : Bool) : (setEnabled s p b).coreMap = s.coreMap := rfl
@[simp] theorem setEnabled_fuses (s : State) (p : Nat) (b : Bool) : (setEnabled s p b).fuses = s.fuses := rfl
@[simp] theorem setEnabled_freeCtr (s : State) (p : Nat) (b : Bool) : (setEnabled s p b).freeCtr = s.freeCtr := rfl
@[simp] theorem setEnabled_rdOut (s : State) (p : Nat) (b : Bool) : (setEnabled s p b).rdOut = s.rdOut := rfl
@[simp] theorem setEnabled_arrived (s : State) (p : Nat) (b : Bool) : (setEnabled s p b).arrived = s.arrived := rfl
@[simp] theorem setEnabled_usTick (s : State) (p : Nat) (b : Bool) : (setEnabled s p b).usTick = s.usTick := rfl
@[simp] theorem setEnabled_time (s : State) (p : Nat) (b : Bool) : (setEnabled s p b).time = s.time := rfl
@[simp] theorem setEnabled_disp (s : State) (p : Nat) (b : Bool) : (setEnabled s p b).disp = s.disp := rfl
@[simp] theorem setEnabled_fab (s : State) (p : Nat) (b : Bool) : (setEnabled s p b).fab = s.fab := rfl
@[simp] theorem setEnabled_memc (s : State) (p : Nat) (b : Bool) : (setEnabled s p b).memc = s.memc := rfl
@[simp] theorem setEnabled_pwr (s : State) (p : Nat) (b : Bool) : (setEnabled s p b).pwr = s.pwr := rfl
@[simp] theorem setEnabled_clk (s : State) (p : Nat) (b : Bool) : (setEnabled s p b).clk = s.clk := rfl
@[simp] theorem setEnabled_evt (s : State) (p : Nat) (b : Bool) : (setEnabled s p b).evt = s.evt := rfl
@[simp] theorem setEnabled_links (s : State) (p : Nat) (b : Bool) : (setEnabled s p b).links = s.links := rfl
@[simp] theorem setEnabled_lemc (s : State) (p : Nat) (b : Bool) : (setEnabled s p b).lemc = s.lemc := rfl
@[simp] theorem setEnabled_chains (s : State) (p : Nat) (b : Bool) : (setEnabled s p b).chains = s.chains := rfl
@[simp] theorem setEnabled_subs (s : State) (p : Nat) (b : Bool) : (setEnabled s p b).subs = s.subs := rfl
@[simp] theorem setEnabled_dfe (s : State) (p : Nat) (b : Bool) : (setEnabled s p b).dfe = s.dfe := rfl
@[simp] theorem setEnabled_ofdm (s : State) (p : Nat) (b : Bool) : (setEnabled s p b).ofdm = s.ofdm := rfl
@[simp] theorem setEnabled_fec (s : State) (p : Nat) (b : Bool) : (setEnabled s p b).fec = s.fec := rfl
@[simp] theorem setEnabled_prism (s : State) (p : Nat) (b : Bool) : (setEnabled s p b).prism = s.prism := rfl
@[simp] theorem setEnabled_cal (s : State) (p : Nat) (b : Bool) : (setEnabled s p b).cal = s.cal := rfl
@[simp] theorem setEnabled_spareJobs (s : State) (p : Nat) (b : Bool) : (setEnabled s p b).spareJobs = s.spareJobs := rfl
@[simp] theorem setEnabled_cores (s : State) (p : Nat) (b : Bool) : (setEnabled s p b).cores = s.cores := rfl
@[simp] theorem setEnabled_mxc (s : State) (p : Nat) (b : Bool) : (setEnabled s p b).mxc = s.mxc := rfl
@[simp] theorem setEnabled_mxCtx (s : State) (p : Nat) (b : Bool) : (setEnabled s p b).mxCtx = s.mxCtx := rfl
@[simp] theorem setEnabled_dma (s : State) (p : Nat) (b : Bool) : (setEnabled s p b).dma = s.dma := rfl
@[simp] theorem setEnabled_dmaEng (s : State) (p : Nat) (b : Bool) : (setEnabled s p b).dmaEng = s.dmaEng := rfl
@[simp] theorem setEnabled_lanes (s : State) (p : Nat) (b : Bool) : (setEnabled s p b).lanes = s.lanes := rfl
@[simp] theorem setEnabled_cuw (s : State) (p : Nat) (b : Bool) : (setEnabled s p b).cuw = s.cuw := rfl
@[simp] theorem setEnabled_pkt (s : State) (p : Nat) (b : Bool) : (setEnabled s p b).pkt = s.pkt := rfl
@[simp] theorem setEnabled_tm (s : State) (p : Nat) (b : Bool) : (setEnabled s p b).tm = s.tm := rfl
@[simp] theorem setEnabled_pcie (s : State) (p : Nat) (b : Bool) : (setEnabled s p b).pcie = s.pcie := rfl
@[simp] theorem setEnabled_phys (s : State) (p : Nat) (b : Bool) : (setEnabled s p b).phys = s.phys := rfl
@[simp] theorem setEnabled_fapi (s : State) (p : Nat) (b : Bool) : (setEnabled s p b).fapi = s.fapi := rfl
@[simp] theorem setEnabled_boot (s : State) (p : Nat) (b : Bool) : (setEnabled s p b).boot = s.boot := rfl
@[simp] theorem setEnabled_unowned (s : State) (p : Nat) (b : Bool) : (setEnabled s p b).unowned = s.unowned := rfl

/-! ### `storeErr` changes `regs` only. -/

@[simp] theorem storeErr_pending (s : State) (p : Nat) (e : Err) (b : Bool) : (storeErr s p e b).pending = s.pending := rfl
@[simp] theorem storeErr_holdRd (s : State) (p : Nat) (e : Err) (b : Bool) : (storeErr s p e b).holdRd = s.holdRd := rfl
@[simp] theorem storeErr_holdWr (s : State) (p : Nat) (e : Err) (b : Bool) : (storeErr s p e b).holdWr = s.holdWr := rfl
@[simp] theorem storeErr_cnt (s : State) (p : Nat) (e : Err) (b : Bool) : (storeErr s p e b).cnt = s.cnt := rfl
@[simp] theorem storeErr_mem (s : State) (p : Nat) (e : Err) (b : Bool) : (storeErr s p e b).mem = s.mem := rfl
@[simp] theorem storeErr_memErr (s : State) (p : Nat) (e : Err) (b : Bool) : (storeErr s p e b).memErr = s.memErr := rfl
@[simp] theorem storeErr_hostMem (s : State) (p : Nat) (e : Err) (b : Bool) : (storeErr s p e b).hostMem = s.hostMem := rfl
@[simp] theorem storeErr_coreMap (s : State) (p : Nat) (e : Err) (b : Bool) : (storeErr s p e b).coreMap = s.coreMap := rfl
@[simp] theorem storeErr_fuses (s : State) (p : Nat) (e : Err) (b : Bool) : (storeErr s p e b).fuses = s.fuses := rfl
@[simp] theorem storeErr_freeCtr (s : State) (p : Nat) (e : Err) (b : Bool) : (storeErr s p e b).freeCtr = s.freeCtr := rfl
@[simp] theorem storeErr_rdOut (s : State) (p : Nat) (e : Err) (b : Bool) : (storeErr s p e b).rdOut = s.rdOut := rfl
@[simp] theorem storeErr_arrived (s : State) (p : Nat) (e : Err) (b : Bool) : (storeErr s p e b).arrived = s.arrived := rfl
@[simp] theorem storeErr_usTick (s : State) (p : Nat) (e : Err) (b : Bool) : (storeErr s p e b).usTick = s.usTick := rfl
@[simp] theorem storeErr_time (s : State) (p : Nat) (e : Err) (b : Bool) : (storeErr s p e b).time = s.time := rfl
@[simp] theorem storeErr_disp (s : State) (p : Nat) (e : Err) (b : Bool) : (storeErr s p e b).disp = s.disp := rfl
@[simp] theorem storeErr_fab (s : State) (p : Nat) (e : Err) (b : Bool) : (storeErr s p e b).fab = s.fab := rfl
@[simp] theorem storeErr_memc (s : State) (p : Nat) (e : Err) (b : Bool) : (storeErr s p e b).memc = s.memc := rfl
@[simp] theorem storeErr_pwr (s : State) (p : Nat) (e : Err) (b : Bool) : (storeErr s p e b).pwr = s.pwr := rfl
@[simp] theorem storeErr_clk (s : State) (p : Nat) (e : Err) (b : Bool) : (storeErr s p e b).clk = s.clk := rfl
@[simp] theorem storeErr_evt (s : State) (p : Nat) (e : Err) (b : Bool) : (storeErr s p e b).evt = s.evt := rfl
@[simp] theorem storeErr_links (s : State) (p : Nat) (e : Err) (b : Bool) : (storeErr s p e b).links = s.links := rfl
@[simp] theorem storeErr_lemc (s : State) (p : Nat) (e : Err) (b : Bool) : (storeErr s p e b).lemc = s.lemc := rfl
@[simp] theorem storeErr_chains (s : State) (p : Nat) (e : Err) (b : Bool) : (storeErr s p e b).chains = s.chains := rfl
@[simp] theorem storeErr_subs (s : State) (p : Nat) (e : Err) (b : Bool) : (storeErr s p e b).subs = s.subs := rfl
@[simp] theorem storeErr_dfe (s : State) (p : Nat) (e : Err) (b : Bool) : (storeErr s p e b).dfe = s.dfe := rfl
@[simp] theorem storeErr_ofdm (s : State) (p : Nat) (e : Err) (b : Bool) : (storeErr s p e b).ofdm = s.ofdm := rfl
@[simp] theorem storeErr_fec (s : State) (p : Nat) (e : Err) (b : Bool) : (storeErr s p e b).fec = s.fec := rfl
@[simp] theorem storeErr_prism (s : State) (p : Nat) (e : Err) (b : Bool) : (storeErr s p e b).prism = s.prism := rfl
@[simp] theorem storeErr_cal (s : State) (p : Nat) (e : Err) (b : Bool) : (storeErr s p e b).cal = s.cal := rfl
@[simp] theorem storeErr_spareJobs (s : State) (p : Nat) (e : Err) (b : Bool) : (storeErr s p e b).spareJobs = s.spareJobs := rfl
@[simp] theorem storeErr_cores (s : State) (p : Nat) (e : Err) (b : Bool) : (storeErr s p e b).cores = s.cores := rfl
@[simp] theorem storeErr_mxc (s : State) (p : Nat) (e : Err) (b : Bool) : (storeErr s p e b).mxc = s.mxc := rfl
@[simp] theorem storeErr_mxCtx (s : State) (p : Nat) (e : Err) (b : Bool) : (storeErr s p e b).mxCtx = s.mxCtx := rfl
@[simp] theorem storeErr_dma (s : State) (p : Nat) (e : Err) (b : Bool) : (storeErr s p e b).dma = s.dma := rfl
@[simp] theorem storeErr_dmaEng (s : State) (p : Nat) (e : Err) (b : Bool) : (storeErr s p e b).dmaEng = s.dmaEng := rfl
@[simp] theorem storeErr_lanes (s : State) (p : Nat) (e : Err) (b : Bool) : (storeErr s p e b).lanes = s.lanes := rfl
@[simp] theorem storeErr_cuw (s : State) (p : Nat) (e : Err) (b : Bool) : (storeErr s p e b).cuw = s.cuw := rfl
@[simp] theorem storeErr_pkt (s : State) (p : Nat) (e : Err) (b : Bool) : (storeErr s p e b).pkt = s.pkt := rfl
@[simp] theorem storeErr_tm (s : State) (p : Nat) (e : Err) (b : Bool) : (storeErr s p e b).tm = s.tm := rfl
@[simp] theorem storeErr_pcie (s : State) (p : Nat) (e : Err) (b : Bool) : (storeErr s p e b).pcie = s.pcie := rfl
@[simp] theorem storeErr_phys (s : State) (p : Nat) (e : Err) (b : Bool) : (storeErr s p e b).phys = s.phys := rfl
@[simp] theorem storeErr_fapi (s : State) (p : Nat) (e : Err) (b : Bool) : (storeErr s p e b).fapi = s.fapi := rfl
@[simp] theorem storeErr_boot (s : State) (p : Nat) (e : Err) (b : Bool) : (storeErr s p e b).boot = s.boot := rfl
@[simp] theorem storeErr_unowned (s : State) (p : Nat) (e : Err) (b : Bool) : (storeErr s p e b).unowned = s.unowned := rfl

/-! ### `captureOnly` changes `regs` only. -/

@[simp] theorem captureOnly_pending (s : State) (p : Nat) (e : Err) : (captureOnly s p e).pending = s.pending := by unfold captureOnly; dsimp only; split <;> split <;> rfl
@[simp] theorem captureOnly_holdRd (s : State) (p : Nat) (e : Err) : (captureOnly s p e).holdRd = s.holdRd := by unfold captureOnly; dsimp only; split <;> split <;> rfl
@[simp] theorem captureOnly_holdWr (s : State) (p : Nat) (e : Err) : (captureOnly s p e).holdWr = s.holdWr := by unfold captureOnly; dsimp only; split <;> split <;> rfl
@[simp] theorem captureOnly_cnt (s : State) (p : Nat) (e : Err) : (captureOnly s p e).cnt = s.cnt := by unfold captureOnly; dsimp only; split <;> split <;> rfl
@[simp] theorem captureOnly_mem (s : State) (p : Nat) (e : Err) : (captureOnly s p e).mem = s.mem := by unfold captureOnly; dsimp only; split <;> split <;> rfl
@[simp] theorem captureOnly_memErr (s : State) (p : Nat) (e : Err) : (captureOnly s p e).memErr = s.memErr := by unfold captureOnly; dsimp only; split <;> split <;> rfl
@[simp] theorem captureOnly_hostMem (s : State) (p : Nat) (e : Err) : (captureOnly s p e).hostMem = s.hostMem := by unfold captureOnly; dsimp only; split <;> split <;> rfl
@[simp] theorem captureOnly_coreMap (s : State) (p : Nat) (e : Err) : (captureOnly s p e).coreMap = s.coreMap := by unfold captureOnly; dsimp only; split <;> split <;> rfl
@[simp] theorem captureOnly_fuses (s : State) (p : Nat) (e : Err) : (captureOnly s p e).fuses = s.fuses := by unfold captureOnly; dsimp only; split <;> split <;> rfl
@[simp] theorem captureOnly_freeCtr (s : State) (p : Nat) (e : Err) : (captureOnly s p e).freeCtr = s.freeCtr := by unfold captureOnly; dsimp only; split <;> split <;> rfl
@[simp] theorem captureOnly_rdOut (s : State) (p : Nat) (e : Err) : (captureOnly s p e).rdOut = s.rdOut := by unfold captureOnly; dsimp only; split <;> split <;> rfl
@[simp] theorem captureOnly_arrived (s : State) (p : Nat) (e : Err) : (captureOnly s p e).arrived = s.arrived := by unfold captureOnly; dsimp only; split <;> split <;> rfl
@[simp] theorem captureOnly_usTick (s : State) (p : Nat) (e : Err) : (captureOnly s p e).usTick = s.usTick := by unfold captureOnly; dsimp only; split <;> split <;> rfl
@[simp] theorem captureOnly_time (s : State) (p : Nat) (e : Err) : (captureOnly s p e).time = s.time := by unfold captureOnly; dsimp only; split <;> split <;> rfl
@[simp] theorem captureOnly_disp (s : State) (p : Nat) (e : Err) : (captureOnly s p e).disp = s.disp := by unfold captureOnly; dsimp only; split <;> split <;> rfl
@[simp] theorem captureOnly_fab (s : State) (p : Nat) (e : Err) : (captureOnly s p e).fab = s.fab := by unfold captureOnly; dsimp only; split <;> split <;> rfl
@[simp] theorem captureOnly_memc (s : State) (p : Nat) (e : Err) : (captureOnly s p e).memc = s.memc := by unfold captureOnly; dsimp only; split <;> split <;> rfl
@[simp] theorem captureOnly_pwr (s : State) (p : Nat) (e : Err) : (captureOnly s p e).pwr = s.pwr := by unfold captureOnly; dsimp only; split <;> split <;> rfl
@[simp] theorem captureOnly_clk (s : State) (p : Nat) (e : Err) : (captureOnly s p e).clk = s.clk := by unfold captureOnly; dsimp only; split <;> split <;> rfl
@[simp] theorem captureOnly_evt (s : State) (p : Nat) (e : Err) : (captureOnly s p e).evt = s.evt := by unfold captureOnly; dsimp only; split <;> split <;> rfl
@[simp] theorem captureOnly_links (s : State) (p : Nat) (e : Err) : (captureOnly s p e).links = s.links := by unfold captureOnly; dsimp only; split <;> split <;> rfl
@[simp] theorem captureOnly_subs (s : State) (p : Nat) (e : Err) : (captureOnly s p e).subs = s.subs := by unfold captureOnly; dsimp only; split <;> split <;> rfl
@[simp] theorem captureOnly_dfe (s : State) (p : Nat) (e : Err) : (captureOnly s p e).dfe = s.dfe := by unfold captureOnly; dsimp only; split <;> split <;> rfl
@[simp] theorem captureOnly_ofdm (s : State) (p : Nat) (e : Err) : (captureOnly s p e).ofdm = s.ofdm := by unfold captureOnly; dsimp only; split <;> split <;> rfl
@[simp] theorem captureOnly_fec (s : State) (p : Nat) (e : Err) : (captureOnly s p e).fec = s.fec := by unfold captureOnly; dsimp only; split <;> split <;> rfl
@[simp] theorem captureOnly_prism (s : State) (p : Nat) (e : Err) : (captureOnly s p e).prism = s.prism := by unfold captureOnly; dsimp only; split <;> split <;> rfl
@[simp] theorem captureOnly_cal (s : State) (p : Nat) (e : Err) : (captureOnly s p e).cal = s.cal := by unfold captureOnly; dsimp only; split <;> split <;> rfl
@[simp] theorem captureOnly_spareJobs (s : State) (p : Nat) (e : Err) : (captureOnly s p e).spareJobs = s.spareJobs := by unfold captureOnly; dsimp only; split <;> split <;> rfl
@[simp] theorem captureOnly_cores (s : State) (p : Nat) (e : Err) : (captureOnly s p e).cores = s.cores := by unfold captureOnly; dsimp only; split <;> split <;> rfl
@[simp] theorem captureOnly_mxc (s : State) (p : Nat) (e : Err) : (captureOnly s p e).mxc = s.mxc := by unfold captureOnly; dsimp only; split <;> split <;> rfl
@[simp] theorem captureOnly_mxCtx (s : State) (p : Nat) (e : Err) : (captureOnly s p e).mxCtx = s.mxCtx := by unfold captureOnly; dsimp only; split <;> split <;> rfl
@[simp] theorem captureOnly_dma (s : State) (p : Nat) (e : Err) : (captureOnly s p e).dma = s.dma := by unfold captureOnly; dsimp only; split <;> split <;> rfl
@[simp] theorem captureOnly_dmaEng (s : State) (p : Nat) (e : Err) : (captureOnly s p e).dmaEng = s.dmaEng := by unfold captureOnly; dsimp only; split <;> split <;> rfl
@[simp] theorem captureOnly_lanes (s : State) (p : Nat) (e : Err) : (captureOnly s p e).lanes = s.lanes := by unfold captureOnly; dsimp only; split <;> split <;> rfl
@[simp] theorem captureOnly_cuw (s : State) (p : Nat) (e : Err) : (captureOnly s p e).cuw = s.cuw := by unfold captureOnly; dsimp only; split <;> split <;> rfl
@[simp] theorem captureOnly_pkt (s : State) (p : Nat) (e : Err) : (captureOnly s p e).pkt = s.pkt := by unfold captureOnly; dsimp only; split <;> split <;> rfl
@[simp] theorem captureOnly_tm (s : State) (p : Nat) (e : Err) : (captureOnly s p e).tm = s.tm := by unfold captureOnly; dsimp only; split <;> split <;> rfl
@[simp] theorem captureOnly_pcie (s : State) (p : Nat) (e : Err) : (captureOnly s p e).pcie = s.pcie := by unfold captureOnly; dsimp only; split <;> split <;> rfl
@[simp] theorem captureOnly_phys (s : State) (p : Nat) (e : Err) : (captureOnly s p e).phys = s.phys := by unfold captureOnly; dsimp only; split <;> split <;> rfl
@[simp] theorem captureOnly_fapi (s : State) (p : Nat) (e : Err) : (captureOnly s p e).fapi = s.fapi := by unfold captureOnly; dsimp only; split <;> split <;> rfl
@[simp] theorem captureOnly_boot (s : State) (p : Nat) (e : Err) : (captureOnly s p e).boot = s.boot := by unfold captureOnly; dsimp only; split <;> split <;> rfl
@[simp] theorem captureOnly_unowned (s : State) (p : Nat) (e : Err) : (captureOnly s p e).unowned = s.unowned := by unfold captureOnly; dsimp only; split <;> split <;> rfl

/-! ### `sendReport` changes `evt` only. -/

@[simp] theorem sendReport_pending (s : State) (p : Nat) (e : Err) : (sendReport s p e).pending = s.pending := by unfold sendReport; split <;> first | rfl | (split <;> rfl)
@[simp] theorem sendReport_regs (s : State) (p : Nat) (e : Err) : (sendReport s p e).regs = s.regs := by unfold sendReport; split <;> first | rfl | (split <;> rfl)
@[simp] theorem sendReport_holdRd (s : State) (p : Nat) (e : Err) : (sendReport s p e).holdRd = s.holdRd := by unfold sendReport; split <;> first | rfl | (split <;> rfl)
@[simp] theorem sendReport_holdWr (s : State) (p : Nat) (e : Err) : (sendReport s p e).holdWr = s.holdWr := by unfold sendReport; split <;> first | rfl | (split <;> rfl)
@[simp] theorem sendReport_cnt (s : State) (p : Nat) (e : Err) : (sendReport s p e).cnt = s.cnt := by unfold sendReport; split <;> first | rfl | (split <;> rfl)
@[simp] theorem sendReport_mem (s : State) (p : Nat) (e : Err) : (sendReport s p e).mem = s.mem := by unfold sendReport; split <;> first | rfl | (split <;> rfl)
@[simp] theorem sendReport_memErr (s : State) (p : Nat) (e : Err) : (sendReport s p e).memErr = s.memErr := by unfold sendReport; split <;> first | rfl | (split <;> rfl)
@[simp] theorem sendReport_hostMem (s : State) (p : Nat) (e : Err) : (sendReport s p e).hostMem = s.hostMem := by unfold sendReport; split <;> first | rfl | (split <;> rfl)
@[simp] theorem sendReport_coreMap (s : State) (p : Nat) (e : Err) : (sendReport s p e).coreMap = s.coreMap := by unfold sendReport; split <;> first | rfl | (split <;> rfl)
@[simp] theorem sendReport_fuses (s : State) (p : Nat) (e : Err) : (sendReport s p e).fuses = s.fuses := by unfold sendReport; split <;> first | rfl | (split <;> rfl)
@[simp] theorem sendReport_freeCtr (s : State) (p : Nat) (e : Err) : (sendReport s p e).freeCtr = s.freeCtr := by unfold sendReport; split <;> first | rfl | (split <;> rfl)
@[simp] theorem sendReport_rdOut (s : State) (p : Nat) (e : Err) : (sendReport s p e).rdOut = s.rdOut := by unfold sendReport; split <;> first | rfl | (split <;> rfl)
@[simp] theorem sendReport_arrived (s : State) (p : Nat) (e : Err) : (sendReport s p e).arrived = s.arrived := by unfold sendReport; split <;> first | rfl | (split <;> rfl)
@[simp] theorem sendReport_usTick (s : State) (p : Nat) (e : Err) : (sendReport s p e).usTick = s.usTick := by unfold sendReport; split <;> first | rfl | (split <;> rfl)
@[simp] theorem sendReport_time (s : State) (p : Nat) (e : Err) : (sendReport s p e).time = s.time := by unfold sendReport; split <;> first | rfl | (split <;> rfl)
@[simp] theorem sendReport_disp (s : State) (p : Nat) (e : Err) : (sendReport s p e).disp = s.disp := by unfold sendReport; split <;> first | rfl | (split <;> rfl)
@[simp] theorem sendReport_fab (s : State) (p : Nat) (e : Err) : (sendReport s p e).fab = s.fab := by unfold sendReport; split <;> first | rfl | (split <;> rfl)
@[simp] theorem sendReport_memc (s : State) (p : Nat) (e : Err) : (sendReport s p e).memc = s.memc := by unfold sendReport; split <;> first | rfl | (split <;> rfl)
@[simp] theorem sendReport_pwr (s : State) (p : Nat) (e : Err) : (sendReport s p e).pwr = s.pwr := by unfold sendReport; split <;> first | rfl | (split <;> rfl)
@[simp] theorem sendReport_clk (s : State) (p : Nat) (e : Err) : (sendReport s p e).clk = s.clk := by unfold sendReport; split <;> first | rfl | (split <;> rfl)
@[simp] theorem sendReport_links (s : State) (p : Nat) (e : Err) : (sendReport s p e).links = s.links := by unfold sendReport; split <;> first | rfl | (split <;> rfl)
@[simp] theorem sendReport_subs (s : State) (p : Nat) (e : Err) : (sendReport s p e).subs = s.subs := by unfold sendReport; split <;> first | rfl | (split <;> rfl)
@[simp] theorem sendReport_dfe (s : State) (p : Nat) (e : Err) : (sendReport s p e).dfe = s.dfe := by unfold sendReport; split <;> first | rfl | (split <;> rfl)
@[simp] theorem sendReport_ofdm (s : State) (p : Nat) (e : Err) : (sendReport s p e).ofdm = s.ofdm := by unfold sendReport; split <;> first | rfl | (split <;> rfl)
@[simp] theorem sendReport_fec (s : State) (p : Nat) (e : Err) : (sendReport s p e).fec = s.fec := by unfold sendReport; split <;> first | rfl | (split <;> rfl)
@[simp] theorem sendReport_prism (s : State) (p : Nat) (e : Err) : (sendReport s p e).prism = s.prism := by unfold sendReport; split <;> first | rfl | (split <;> rfl)
@[simp] theorem sendReport_cal (s : State) (p : Nat) (e : Err) : (sendReport s p e).cal = s.cal := by unfold sendReport; split <;> first | rfl | (split <;> rfl)
@[simp] theorem sendReport_spareJobs (s : State) (p : Nat) (e : Err) : (sendReport s p e).spareJobs = s.spareJobs := by unfold sendReport; split <;> first | rfl | (split <;> rfl)
@[simp] theorem sendReport_cores (s : State) (p : Nat) (e : Err) : (sendReport s p e).cores = s.cores := by unfold sendReport; split <;> first | rfl | (split <;> rfl)
@[simp] theorem sendReport_mxc (s : State) (p : Nat) (e : Err) : (sendReport s p e).mxc = s.mxc := by unfold sendReport; split <;> first | rfl | (split <;> rfl)
@[simp] theorem sendReport_mxCtx (s : State) (p : Nat) (e : Err) : (sendReport s p e).mxCtx = s.mxCtx := by unfold sendReport; split <;> first | rfl | (split <;> rfl)
@[simp] theorem sendReport_dma (s : State) (p : Nat) (e : Err) : (sendReport s p e).dma = s.dma := by unfold sendReport; split <;> first | rfl | (split <;> rfl)
@[simp] theorem sendReport_dmaEng (s : State) (p : Nat) (e : Err) : (sendReport s p e).dmaEng = s.dmaEng := by unfold sendReport; split <;> first | rfl | (split <;> rfl)
@[simp] theorem sendReport_lanes (s : State) (p : Nat) (e : Err) : (sendReport s p e).lanes = s.lanes := by unfold sendReport; split <;> first | rfl | (split <;> rfl)
@[simp] theorem sendReport_cuw (s : State) (p : Nat) (e : Err) : (sendReport s p e).cuw = s.cuw := by unfold sendReport; split <;> first | rfl | (split <;> rfl)
@[simp] theorem sendReport_pkt (s : State) (p : Nat) (e : Err) : (sendReport s p e).pkt = s.pkt := by unfold sendReport; split <;> first | rfl | (split <;> rfl)
@[simp] theorem sendReport_tm (s : State) (p : Nat) (e : Err) : (sendReport s p e).tm = s.tm := by unfold sendReport; split <;> first | rfl | (split <;> rfl)
@[simp] theorem sendReport_pcie (s : State) (p : Nat) (e : Err) : (sendReport s p e).pcie = s.pcie := by unfold sendReport; split <;> first | rfl | (split <;> rfl)
@[simp] theorem sendReport_phys (s : State) (p : Nat) (e : Err) : (sendReport s p e).phys = s.phys := by unfold sendReport; split <;> first | rfl | (split <;> rfl)
@[simp] theorem sendReport_fapi (s : State) (p : Nat) (e : Err) : (sendReport s p e).fapi = s.fapi := by unfold sendReport; split <;> first | rfl | (split <;> rfl)
@[simp] theorem sendReport_boot (s : State) (p : Nat) (e : Err) : (sendReport s p e).boot = s.boot := by unfold sendReport; split <;> first | rfl | (split <;> rfl)
@[simp] theorem sendReport_unowned (s : State) (p : Nat) (e : Err) : (sendReport s p e).unowned = s.unowned := by unfold sendReport; split <;> first | rfl | (split <;> rfl)

/-! ### `captureErr` changes `regs` and `evt` only. -/

@[simp] theorem captureErr_pending (s : State) (p : Nat) (e : Err) : (captureErr s p e).pending = s.pending := by simp [captureErr]
@[simp] theorem captureErr_holdRd (s : State) (p : Nat) (e : Err) : (captureErr s p e).holdRd = s.holdRd := by simp [captureErr]
@[simp] theorem captureErr_holdWr (s : State) (p : Nat) (e : Err) : (captureErr s p e).holdWr = s.holdWr := by simp [captureErr]
@[simp] theorem captureErr_cnt (s : State) (p : Nat) (e : Err) : (captureErr s p e).cnt = s.cnt := by simp [captureErr]
@[simp] theorem captureErr_mem (s : State) (p : Nat) (e : Err) : (captureErr s p e).mem = s.mem := by simp [captureErr]
@[simp] theorem captureErr_memErr (s : State) (p : Nat) (e : Err) : (captureErr s p e).memErr = s.memErr := by simp [captureErr]
@[simp] theorem captureErr_hostMem (s : State) (p : Nat) (e : Err) : (captureErr s p e).hostMem = s.hostMem := by simp [captureErr]
@[simp] theorem captureErr_coreMap (s : State) (p : Nat) (e : Err) : (captureErr s p e).coreMap = s.coreMap := by simp [captureErr]
@[simp] theorem captureErr_fuses (s : State) (p : Nat) (e : Err) : (captureErr s p e).fuses = s.fuses := by simp [captureErr]
@[simp] theorem captureErr_freeCtr (s : State) (p : Nat) (e : Err) : (captureErr s p e).freeCtr = s.freeCtr := by simp [captureErr]
@[simp] theorem captureErr_rdOut (s : State) (p : Nat) (e : Err) : (captureErr s p e).rdOut = s.rdOut := by simp [captureErr]
@[simp] theorem captureErr_arrived (s : State) (p : Nat) (e : Err) : (captureErr s p e).arrived = s.arrived := by simp [captureErr]
@[simp] theorem captureErr_usTick (s : State) (p : Nat) (e : Err) : (captureErr s p e).usTick = s.usTick := by simp [captureErr]
@[simp] theorem captureErr_time (s : State) (p : Nat) (e : Err) : (captureErr s p e).time = s.time := by simp [captureErr]
@[simp] theorem captureErr_disp (s : State) (p : Nat) (e : Err) : (captureErr s p e).disp = s.disp := by simp [captureErr]
@[simp] theorem captureErr_fab (s : State) (p : Nat) (e : Err) : (captureErr s p e).fab = s.fab := by simp [captureErr]
@[simp] theorem captureErr_memc (s : State) (p : Nat) (e : Err) : (captureErr s p e).memc = s.memc := by simp [captureErr]
@[simp] theorem captureErr_pwr (s : State) (p : Nat) (e : Err) : (captureErr s p e).pwr = s.pwr := by simp [captureErr]
@[simp] theorem captureErr_clk (s : State) (p : Nat) (e : Err) : (captureErr s p e).clk = s.clk := by simp [captureErr]
@[simp] theorem captureErr_links (s : State) (p : Nat) (e : Err) : (captureErr s p e).links = s.links := by simp [captureErr]
@[simp] theorem captureErr_subs (s : State) (p : Nat) (e : Err) : (captureErr s p e).subs = s.subs := by simp [captureErr]
@[simp] theorem captureErr_dfe (s : State) (p : Nat) (e : Err) : (captureErr s p e).dfe = s.dfe := by simp [captureErr]
@[simp] theorem captureErr_ofdm (s : State) (p : Nat) (e : Err) : (captureErr s p e).ofdm = s.ofdm := by simp [captureErr]
@[simp] theorem captureErr_fec (s : State) (p : Nat) (e : Err) : (captureErr s p e).fec = s.fec := by simp [captureErr]
@[simp] theorem captureErr_prism (s : State) (p : Nat) (e : Err) : (captureErr s p e).prism = s.prism := by simp [captureErr]
@[simp] theorem captureErr_cal (s : State) (p : Nat) (e : Err) : (captureErr s p e).cal = s.cal := by simp [captureErr]
@[simp] theorem captureErr_spareJobs (s : State) (p : Nat) (e : Err) : (captureErr s p e).spareJobs = s.spareJobs := by simp [captureErr]
@[simp] theorem captureErr_cores (s : State) (p : Nat) (e : Err) : (captureErr s p e).cores = s.cores := by simp [captureErr]
@[simp] theorem captureErr_mxc (s : State) (p : Nat) (e : Err) : (captureErr s p e).mxc = s.mxc := by simp [captureErr]
@[simp] theorem captureErr_mxCtx (s : State) (p : Nat) (e : Err) : (captureErr s p e).mxCtx = s.mxCtx := by simp [captureErr]
@[simp] theorem captureErr_dma (s : State) (p : Nat) (e : Err) : (captureErr s p e).dma = s.dma := by simp [captureErr]
@[simp] theorem captureErr_dmaEng (s : State) (p : Nat) (e : Err) : (captureErr s p e).dmaEng = s.dmaEng := by simp [captureErr]
@[simp] theorem captureErr_lanes (s : State) (p : Nat) (e : Err) : (captureErr s p e).lanes = s.lanes := by simp [captureErr]
@[simp] theorem captureErr_cuw (s : State) (p : Nat) (e : Err) : (captureErr s p e).cuw = s.cuw := by simp [captureErr]
@[simp] theorem captureErr_pkt (s : State) (p : Nat) (e : Err) : (captureErr s p e).pkt = s.pkt := by simp [captureErr]
@[simp] theorem captureErr_tm (s : State) (p : Nat) (e : Err) : (captureErr s p e).tm = s.tm := by simp [captureErr]
@[simp] theorem captureErr_pcie (s : State) (p : Nat) (e : Err) : (captureErr s p e).pcie = s.pcie := by simp [captureErr]
@[simp] theorem captureErr_phys (s : State) (p : Nat) (e : Err) : (captureErr s p e).phys = s.phys := by simp [captureErr]
@[simp] theorem captureErr_fapi (s : State) (p : Nat) (e : Err) : (captureErr s p e).fapi = s.fapi := by simp [captureErr]
@[simp] theorem captureErr_boot (s : State) (p : Nat) (e : Err) : (captureErr s p e).boot = s.boot := by simp [captureErr]
@[simp] theorem captureErr_unowned (s : State) (p : Nat) (e : Err) : (captureErr s p e).unowned = s.unowned := by simp [captureErr]

/-! ### `ownErr` changes `regs` and `evt` only. -/

@[simp] theorem ownErr_pending (s : State) (p c d : Nat) (a : Option Nat) : (ownErr s p c d a).pending = s.pending := by simp [ownErr]
@[simp] theorem ownErr_holdRd (s : State) (p c d : Nat) (a : Option Nat) : (ownErr s p c d a).holdRd = s.holdRd := by simp [ownErr]
@[simp] theorem ownErr_holdWr (s : State) (p c d : Nat) (a : Option Nat) : (ownErr s p c d a).holdWr = s.holdWr := by simp [ownErr]
@[simp] theorem ownErr_cnt (s : State) (p c d : Nat) (a : Option Nat) : (ownErr s p c d a).cnt = s.cnt := by simp [ownErr]
@[simp] theorem ownErr_mem (s : State) (p c d : Nat) (a : Option Nat) : (ownErr s p c d a).mem = s.mem := by simp [ownErr]
@[simp] theorem ownErr_memErr (s : State) (p c d : Nat) (a : Option Nat) : (ownErr s p c d a).memErr = s.memErr := by simp [ownErr]
@[simp] theorem ownErr_hostMem (s : State) (p c d : Nat) (a : Option Nat) : (ownErr s p c d a).hostMem = s.hostMem := by simp [ownErr]
@[simp] theorem ownErr_coreMap (s : State) (p c d : Nat) (a : Option Nat) : (ownErr s p c d a).coreMap = s.coreMap := by simp [ownErr]
@[simp] theorem ownErr_fuses (s : State) (p c d : Nat) (a : Option Nat) : (ownErr s p c d a).fuses = s.fuses := by simp [ownErr]
@[simp] theorem ownErr_freeCtr (s : State) (p c d : Nat) (a : Option Nat) : (ownErr s p c d a).freeCtr = s.freeCtr := by simp [ownErr]
@[simp] theorem ownErr_rdOut (s : State) (p c d : Nat) (a : Option Nat) : (ownErr s p c d a).rdOut = s.rdOut := by simp [ownErr]
@[simp] theorem ownErr_arrived (s : State) (p c d : Nat) (a : Option Nat) : (ownErr s p c d a).arrived = s.arrived := by simp [ownErr]
@[simp] theorem ownErr_usTick (s : State) (p c d : Nat) (a : Option Nat) : (ownErr s p c d a).usTick = s.usTick := by simp [ownErr]
@[simp] theorem ownErr_time (s : State) (p c d : Nat) (a : Option Nat) : (ownErr s p c d a).time = s.time := by simp [ownErr]
@[simp] theorem ownErr_disp (s : State) (p c d : Nat) (a : Option Nat) : (ownErr s p c d a).disp = s.disp := by simp [ownErr]
@[simp] theorem ownErr_fab (s : State) (p c d : Nat) (a : Option Nat) : (ownErr s p c d a).fab = s.fab := by simp [ownErr]
@[simp] theorem ownErr_memc (s : State) (p c d : Nat) (a : Option Nat) : (ownErr s p c d a).memc = s.memc := by simp [ownErr]
@[simp] theorem ownErr_pwr (s : State) (p c d : Nat) (a : Option Nat) : (ownErr s p c d a).pwr = s.pwr := by simp [ownErr]
@[simp] theorem ownErr_clk (s : State) (p c d : Nat) (a : Option Nat) : (ownErr s p c d a).clk = s.clk := by simp [ownErr]
@[simp] theorem ownErr_links (s : State) (p c d : Nat) (a : Option Nat) : (ownErr s p c d a).links = s.links := by simp [ownErr]
@[simp] theorem ownErr_subs (s : State) (p c d : Nat) (a : Option Nat) : (ownErr s p c d a).subs = s.subs := by simp [ownErr]
@[simp] theorem ownErr_dfe (s : State) (p c d : Nat) (a : Option Nat) : (ownErr s p c d a).dfe = s.dfe := by simp [ownErr]
@[simp] theorem ownErr_ofdm (s : State) (p c d : Nat) (a : Option Nat) : (ownErr s p c d a).ofdm = s.ofdm := by simp [ownErr]
@[simp] theorem ownErr_fec (s : State) (p c d : Nat) (a : Option Nat) : (ownErr s p c d a).fec = s.fec := by simp [ownErr]
@[simp] theorem ownErr_prism (s : State) (p c d : Nat) (a : Option Nat) : (ownErr s p c d a).prism = s.prism := by simp [ownErr]
@[simp] theorem ownErr_cal (s : State) (p c d : Nat) (a : Option Nat) : (ownErr s p c d a).cal = s.cal := by simp [ownErr]
@[simp] theorem ownErr_spareJobs (s : State) (p c d : Nat) (a : Option Nat) : (ownErr s p c d a).spareJobs = s.spareJobs := by simp [ownErr]
@[simp] theorem ownErr_cores (s : State) (p c d : Nat) (a : Option Nat) : (ownErr s p c d a).cores = s.cores := by simp [ownErr]
@[simp] theorem ownErr_mxc (s : State) (p c d : Nat) (a : Option Nat) : (ownErr s p c d a).mxc = s.mxc := by simp [ownErr]
@[simp] theorem ownErr_mxCtx (s : State) (p c d : Nat) (a : Option Nat) : (ownErr s p c d a).mxCtx = s.mxCtx := by simp [ownErr]
@[simp] theorem ownErr_dma (s : State) (p c d : Nat) (a : Option Nat) : (ownErr s p c d a).dma = s.dma := by simp [ownErr]
@[simp] theorem ownErr_dmaEng (s : State) (p c d : Nat) (a : Option Nat) : (ownErr s p c d a).dmaEng = s.dmaEng := by simp [ownErr]
@[simp] theorem ownErr_lanes (s : State) (p c d : Nat) (a : Option Nat) : (ownErr s p c d a).lanes = s.lanes := by simp [ownErr]
@[simp] theorem ownErr_cuw (s : State) (p c d : Nat) (a : Option Nat) : (ownErr s p c d a).cuw = s.cuw := by simp [ownErr]
@[simp] theorem ownErr_pkt (s : State) (p c d : Nat) (a : Option Nat) : (ownErr s p c d a).pkt = s.pkt := by simp [ownErr]
@[simp] theorem ownErr_tm (s : State) (p c d : Nat) (a : Option Nat) : (ownErr s p c d a).tm = s.tm := by simp [ownErr]
@[simp] theorem ownErr_pcie (s : State) (p c d : Nat) (a : Option Nat) : (ownErr s p c d a).pcie = s.pcie := by simp [ownErr]
@[simp] theorem ownErr_phys (s : State) (p c d : Nat) (a : Option Nat) : (ownErr s p c d a).phys = s.phys := by simp [ownErr]
@[simp] theorem ownErr_fapi (s : State) (p c d : Nat) (a : Option Nat) : (ownErr s p c d a).fapi = s.fapi := by simp [ownErr]
@[simp] theorem ownErr_boot (s : State) (p c d : Nat) (a : Option Nat) : (ownErr s p c d a).boot = s.boot := by simp [ownErr]
@[simp] theorem ownErr_unowned (s : State) (p c d : Nat) (a : Option Nat) : (ownErr s p c d a).unowned = s.unowned := by simp [ownErr]

/-! ### `countCe` changes `regs`, and `usTick` with the leaks that are due. -/

/-- A page's leak changes registers only. -/
theorem leakPage_only (n : Nat) (s : State) (p : Nat) : ∃ r, leakPage n s p = { s with regs := r } := by
  unfold leakPage
  dsimp only
  split
  · exact ⟨_, rfl⟩
  · exact ⟨s.regs, rfl⟩

/-- The leaks of a tick change registers only. -/
theorem leakPages_only (n : Nat) (ps : List Nat) (s : State) : ∃ r, ps.foldl (leakPage n) s = { s with regs := r } := by
  induction ps generalizing s with
  | nil => exact ⟨s.regs, rfl⟩
  | cons p ps ih =>
    obtain ⟨r, h⟩ := leakPage_only n s p
    obtain ⟨r', h'⟩ := ih (leakPage n s p)
    exact ⟨r', by rw [List.foldl_cons, h', h]⟩

/-- A tick changes registers and the count of ticks. -/
theorem leakSt_only (s : State) : ∃ r u, leakSt s = { s with regs := r, usTick := u } := by
  unfold leakSt
  dsimp only
  split
  · obtain ⟨r, h⟩ := leakPages_only (s.usTick + 1) headerPages { s with usTick := s.usTick + 1 }
    exact ⟨r, _, h⟩
  · exact ⟨s.regs, s.usTick, rfl⟩

/-- Any number of ticks. -/
theorem leaks_only (ns : List Nat) (s : State) : ∃ r u, ns.foldl (fun s _ => leakSt s) s = { s with regs := r, usTick := u } := by
  induction ns generalizing s with
  | nil => exact ⟨s.regs, s.usTick, rfl⟩
  | cons n ns ih =>
    obtain ⟨r, u, h⟩ := leakSt_only s
    obtain ⟨r', u', h'⟩ := ih (leakSt s)
    exact ⟨r', u', by rw [List.foldl_cons, h', h]⟩

/-- A correctable error changes registers and the count of ticks. -/
theorem countCe_only (s : State) (p : Nat) : ∃ r u, countCe s p = { s with regs := r, usTick := u } := by
  obtain ⟨r, u, h⟩ := leaks_only (List.range (ticksDue s)) s
  unfold countCe leakDue
  rw [h]
  dsimp only
  split
  · exact ⟨_, u, rfl⟩
  · exact ⟨_, u, rfl⟩

@[simp] theorem countCe_pending (s : State) (p : Nat) : (countCe s p).pending = s.pending := by obtain ⟨r, u, h⟩ := countCe_only s p; rw [h]
@[simp] theorem countCe_holdRd (s : State) (p : Nat) : (countCe s p).holdRd = s.holdRd := by obtain ⟨r, u, h⟩ := countCe_only s p; rw [h]
@[simp] theorem countCe_holdWr (s : State) (p : Nat) : (countCe s p).holdWr = s.holdWr := by obtain ⟨r, u, h⟩ := countCe_only s p; rw [h]
@[simp] theorem countCe_cnt (s : State) (p : Nat) : (countCe s p).cnt = s.cnt := by obtain ⟨r, u, h⟩ := countCe_only s p; rw [h]
@[simp] theorem countCe_mem (s : State) (p : Nat) : (countCe s p).mem = s.mem := by obtain ⟨r, u, h⟩ := countCe_only s p; rw [h]
@[simp] theorem countCe_memErr (s : State) (p : Nat) : (countCe s p).memErr = s.memErr := by obtain ⟨r, u, h⟩ := countCe_only s p; rw [h]
@[simp] theorem countCe_hostMem (s : State) (p : Nat) : (countCe s p).hostMem = s.hostMem := by obtain ⟨r, u, h⟩ := countCe_only s p; rw [h]
@[simp] theorem countCe_coreMap (s : State) (p : Nat) : (countCe s p).coreMap = s.coreMap := by obtain ⟨r, u, h⟩ := countCe_only s p; rw [h]
@[simp] theorem countCe_fuses (s : State) (p : Nat) : (countCe s p).fuses = s.fuses := by obtain ⟨r, u, h⟩ := countCe_only s p; rw [h]
@[simp] theorem countCe_freeCtr (s : State) (p : Nat) : (countCe s p).freeCtr = s.freeCtr := by obtain ⟨r, u, h⟩ := countCe_only s p; rw [h]
@[simp] theorem countCe_rdOut (s : State) (p : Nat) : (countCe s p).rdOut = s.rdOut := by obtain ⟨r, u, h⟩ := countCe_only s p; rw [h]
@[simp] theorem countCe_arrived (s : State) (p : Nat) : (countCe s p).arrived = s.arrived := by obtain ⟨r, u, h⟩ := countCe_only s p; rw [h]
@[simp] theorem countCe_time (s : State) (p : Nat) : (countCe s p).time = s.time := by obtain ⟨r, u, h⟩ := countCe_only s p; rw [h]
@[simp] theorem countCe_disp (s : State) (p : Nat) : (countCe s p).disp = s.disp := by obtain ⟨r, u, h⟩ := countCe_only s p; rw [h]
@[simp] theorem countCe_fab (s : State) (p : Nat) : (countCe s p).fab = s.fab := by obtain ⟨r, u, h⟩ := countCe_only s p; rw [h]
@[simp] theorem countCe_memc (s : State) (p : Nat) : (countCe s p).memc = s.memc := by obtain ⟨r, u, h⟩ := countCe_only s p; rw [h]
@[simp] theorem countCe_pwr (s : State) (p : Nat) : (countCe s p).pwr = s.pwr := by obtain ⟨r, u, h⟩ := countCe_only s p; rw [h]
@[simp] theorem countCe_clk (s : State) (p : Nat) : (countCe s p).clk = s.clk := by obtain ⟨r, u, h⟩ := countCe_only s p; rw [h]
@[simp] theorem countCe_evt (s : State) (p : Nat) : (countCe s p).evt = s.evt := by obtain ⟨r, u, h⟩ := countCe_only s p; rw [h]
@[simp] theorem countCe_links (s : State) (p : Nat) : (countCe s p).links = s.links := by obtain ⟨r, u, h⟩ := countCe_only s p; rw [h]
@[simp] theorem countCe_subs (s : State) (p : Nat) : (countCe s p).subs = s.subs := by obtain ⟨r, u, h⟩ := countCe_only s p; rw [h]
@[simp] theorem countCe_dfe (s : State) (p : Nat) : (countCe s p).dfe = s.dfe := by obtain ⟨r, u, h⟩ := countCe_only s p; rw [h]
@[simp] theorem countCe_ofdm (s : State) (p : Nat) : (countCe s p).ofdm = s.ofdm := by obtain ⟨r, u, h⟩ := countCe_only s p; rw [h]
@[simp] theorem countCe_fec (s : State) (p : Nat) : (countCe s p).fec = s.fec := by obtain ⟨r, u, h⟩ := countCe_only s p; rw [h]
@[simp] theorem countCe_prism (s : State) (p : Nat) : (countCe s p).prism = s.prism := by obtain ⟨r, u, h⟩ := countCe_only s p; rw [h]
@[simp] theorem countCe_cal (s : State) (p : Nat) : (countCe s p).cal = s.cal := by obtain ⟨r, u, h⟩ := countCe_only s p; rw [h]
@[simp] theorem countCe_spareJobs (s : State) (p : Nat) : (countCe s p).spareJobs = s.spareJobs := by obtain ⟨r, u, h⟩ := countCe_only s p; rw [h]
@[simp] theorem countCe_cores (s : State) (p : Nat) : (countCe s p).cores = s.cores := by obtain ⟨r, u, h⟩ := countCe_only s p; rw [h]
@[simp] theorem countCe_mxc (s : State) (p : Nat) : (countCe s p).mxc = s.mxc := by obtain ⟨r, u, h⟩ := countCe_only s p; rw [h]
@[simp] theorem countCe_mxCtx (s : State) (p : Nat) : (countCe s p).mxCtx = s.mxCtx := by obtain ⟨r, u, h⟩ := countCe_only s p; rw [h]
@[simp] theorem countCe_dma (s : State) (p : Nat) : (countCe s p).dma = s.dma := by obtain ⟨r, u, h⟩ := countCe_only s p; rw [h]
@[simp] theorem countCe_dmaEng (s : State) (p : Nat) : (countCe s p).dmaEng = s.dmaEng := by obtain ⟨r, u, h⟩ := countCe_only s p; rw [h]
@[simp] theorem countCe_lanes (s : State) (p : Nat) : (countCe s p).lanes = s.lanes := by obtain ⟨r, u, h⟩ := countCe_only s p; rw [h]
@[simp] theorem countCe_cuw (s : State) (p : Nat) : (countCe s p).cuw = s.cuw := by obtain ⟨r, u, h⟩ := countCe_only s p; rw [h]
@[simp] theorem countCe_pkt (s : State) (p : Nat) : (countCe s p).pkt = s.pkt := by obtain ⟨r, u, h⟩ := countCe_only s p; rw [h]
@[simp] theorem countCe_tm (s : State) (p : Nat) : (countCe s p).tm = s.tm := by obtain ⟨r, u, h⟩ := countCe_only s p; rw [h]
@[simp] theorem countCe_pcie (s : State) (p : Nat) : (countCe s p).pcie = s.pcie := by obtain ⟨r, u, h⟩ := countCe_only s p; rw [h]
@[simp] theorem countCe_phys (s : State) (p : Nat) : (countCe s p).phys = s.phys := by obtain ⟨r, u, h⟩ := countCe_only s p; rw [h]
@[simp] theorem countCe_fapi (s : State) (p : Nat) : (countCe s p).fapi = s.fapi := by obtain ⟨r, u, h⟩ := countCe_only s p; rw [h]
@[simp] theorem countCe_boot (s : State) (p : Nat) : (countCe s p).boot = s.boot := by obtain ⟨r, u, h⟩ := countCe_only s p; rw [h]
@[simp] theorem countCe_unowned (s : State) (p : Nat) : (countCe s p).unowned = s.unowned := by obtain ⟨r, u, h⟩ := countCe_only s p; rw [h]

/-! ### `setPd` changes `pwr` only. -/

@[simp] theorem setPd_pending (s : State) (d : Nat) (r : PdRec) : (setPd s d r).pending = s.pending := rfl
@[simp] theorem setPd_regs (s : State) (d : Nat) (r : PdRec) : (setPd s d r).regs = s.regs := rfl
@[simp] theorem setPd_holdRd (s : State) (d : Nat) (r : PdRec) : (setPd s d r).holdRd = s.holdRd := rfl
@[simp] theorem setPd_holdWr (s : State) (d : Nat) (r : PdRec) : (setPd s d r).holdWr = s.holdWr := rfl
@[simp] theorem setPd_cnt (s : State) (d : Nat) (r : PdRec) : (setPd s d r).cnt = s.cnt := rfl
@[simp] theorem setPd_mem (s : State) (d : Nat) (r : PdRec) : (setPd s d r).mem = s.mem := rfl
@[simp] theorem setPd_memErr (s : State) (d : Nat) (r : PdRec) : (setPd s d r).memErr = s.memErr := rfl
@[simp] theorem setPd_hostMem (s : State) (d : Nat) (r : PdRec) : (setPd s d r).hostMem = s.hostMem := rfl
@[simp] theorem setPd_coreMap (s : State) (d : Nat) (r : PdRec) : (setPd s d r).coreMap = s.coreMap := rfl
@[simp] theorem setPd_fuses (s : State) (d : Nat) (r : PdRec) : (setPd s d r).fuses = s.fuses := rfl
@[simp] theorem setPd_freeCtr (s : State) (d : Nat) (r : PdRec) : (setPd s d r).freeCtr = s.freeCtr := rfl
@[simp] theorem setPd_rdOut (s : State) (d : Nat) (r : PdRec) : (setPd s d r).rdOut = s.rdOut := rfl
@[simp] theorem setPd_arrived (s : State) (d : Nat) (r : PdRec) : (setPd s d r).arrived = s.arrived := rfl
@[simp] theorem setPd_usTick (s : State) (d : Nat) (r : PdRec) : (setPd s d r).usTick = s.usTick := rfl
@[simp] theorem setPd_time (s : State) (d : Nat) (r : PdRec) : (setPd s d r).time = s.time := rfl
@[simp] theorem setPd_disp (s : State) (d : Nat) (r : PdRec) : (setPd s d r).disp = s.disp := rfl
@[simp] theorem setPd_fab (s : State) (d : Nat) (r : PdRec) : (setPd s d r).fab = s.fab := rfl
@[simp] theorem setPd_memc (s : State) (d : Nat) (r : PdRec) : (setPd s d r).memc = s.memc := rfl
@[simp] theorem setPd_clk (s : State) (d : Nat) (r : PdRec) : (setPd s d r).clk = s.clk := rfl
@[simp] theorem setPd_evt (s : State) (d : Nat) (r : PdRec) : (setPd s d r).evt = s.evt := rfl
@[simp] theorem setPd_links (s : State) (d : Nat) (r : PdRec) : (setPd s d r).links = s.links := rfl
@[simp] theorem setPd_lemc (s : State) (d : Nat) (r : PdRec) : (setPd s d r).lemc = s.lemc := rfl
@[simp] theorem setPd_chains (s : State) (d : Nat) (r : PdRec) : (setPd s d r).chains = s.chains := rfl
@[simp] theorem setPd_subs (s : State) (d : Nat) (r : PdRec) : (setPd s d r).subs = s.subs := rfl
@[simp] theorem setPd_dfe (s : State) (d : Nat) (r : PdRec) : (setPd s d r).dfe = s.dfe := rfl
@[simp] theorem setPd_ofdm (s : State) (d : Nat) (r : PdRec) : (setPd s d r).ofdm = s.ofdm := rfl
@[simp] theorem setPd_fec (s : State) (d : Nat) (r : PdRec) : (setPd s d r).fec = s.fec := rfl
@[simp] theorem setPd_prism (s : State) (d : Nat) (r : PdRec) : (setPd s d r).prism = s.prism := rfl
@[simp] theorem setPd_cal (s : State) (d : Nat) (r : PdRec) : (setPd s d r).cal = s.cal := rfl
@[simp] theorem setPd_spareJobs (s : State) (d : Nat) (r : PdRec) : (setPd s d r).spareJobs = s.spareJobs := rfl
@[simp] theorem setPd_cores (s : State) (d : Nat) (r : PdRec) : (setPd s d r).cores = s.cores := rfl
@[simp] theorem setPd_mxc (s : State) (d : Nat) (r : PdRec) : (setPd s d r).mxc = s.mxc := rfl
@[simp] theorem setPd_mxCtx (s : State) (d : Nat) (r : PdRec) : (setPd s d r).mxCtx = s.mxCtx := rfl
@[simp] theorem setPd_dma (s : State) (d : Nat) (r : PdRec) : (setPd s d r).dma = s.dma := rfl
@[simp] theorem setPd_dmaEng (s : State) (d : Nat) (r : PdRec) : (setPd s d r).dmaEng = s.dmaEng := rfl
@[simp] theorem setPd_lanes (s : State) (d : Nat) (r : PdRec) : (setPd s d r).lanes = s.lanes := rfl
@[simp] theorem setPd_cuw (s : State) (d : Nat) (r : PdRec) : (setPd s d r).cuw = s.cuw := rfl
@[simp] theorem setPd_pkt (s : State) (d : Nat) (r : PdRec) : (setPd s d r).pkt = s.pkt := rfl
@[simp] theorem setPd_tm (s : State) (d : Nat) (r : PdRec) : (setPd s d r).tm = s.tm := rfl
@[simp] theorem setPd_pcie (s : State) (d : Nat) (r : PdRec) : (setPd s d r).pcie = s.pcie := rfl
@[simp] theorem setPd_phys (s : State) (d : Nat) (r : PdRec) : (setPd s d r).phys = s.phys := rfl
@[simp] theorem setPd_fapi (s : State) (d : Nat) (r : PdRec) : (setPd s d r).fapi = s.fapi := rfl
@[simp] theorem setPd_boot (s : State) (d : Nat) (r : PdRec) : (setPd s d r).boot = s.boot := rfl
@[simp] theorem setPd_unowned (s : State) (d : Nat) (r : PdRec) : (setPd s d r).unowned = s.unowned := rfl

/-! ### `offAccess` changes `regs` and `evt` and `cnt` only. -/

@[simp] theorem offAccess_pending (s : State) (x a : Nat) : (offAccess s x a).pending = s.pending := by simp [offAccess]
@[simp] theorem offAccess_holdRd (s : State) (x a : Nat) : (offAccess s x a).holdRd = s.holdRd := by simp [offAccess]
@[simp] theorem offAccess_holdWr (s : State) (x a : Nat) : (offAccess s x a).holdWr = s.holdWr := by simp [offAccess]
@[simp] theorem offAccess_mem (s : State) (x a : Nat) : (offAccess s x a).mem = s.mem := by simp [offAccess]
@[simp] theorem offAccess_memErr (s : State) (x a : Nat) : (offAccess s x a).memErr = s.memErr := by simp [offAccess]
@[simp] theorem offAccess_hostMem (s : State) (x a : Nat) : (offAccess s x a).hostMem = s.hostMem := by simp [offAccess]
@[simp] theorem offAccess_coreMap (s : State) (x a : Nat) : (offAccess s x a).coreMap = s.coreMap := by simp [offAccess]
@[simp] theorem offAccess_fuses (s : State) (x a : Nat) : (offAccess s x a).fuses = s.fuses := by simp [offAccess]
@[simp] theorem offAccess_freeCtr (s : State) (x a : Nat) : (offAccess s x a).freeCtr = s.freeCtr := by simp [offAccess]
@[simp] theorem offAccess_rdOut (s : State) (x a : Nat) : (offAccess s x a).rdOut = s.rdOut := by simp [offAccess]
@[simp] theorem offAccess_arrived (s : State) (x a : Nat) : (offAccess s x a).arrived = s.arrived := by simp [offAccess]
@[simp] theorem offAccess_usTick (s : State) (x a : Nat) : (offAccess s x a).usTick = s.usTick := by simp [offAccess]
@[simp] theorem offAccess_time (s : State) (x a : Nat) : (offAccess s x a).time = s.time := by simp [offAccess]
@[simp] theorem offAccess_disp (s : State) (x a : Nat) : (offAccess s x a).disp = s.disp := by simp [offAccess]
@[simp] theorem offAccess_fab (s : State) (x a : Nat) : (offAccess s x a).fab = s.fab := by simp [offAccess]
@[simp] theorem offAccess_memc (s : State) (x a : Nat) : (offAccess s x a).memc = s.memc := by simp [offAccess]
@[simp] theorem offAccess_pwr (s : State) (x a : Nat) : (offAccess s x a).pwr = s.pwr := by simp [offAccess]
@[simp] theorem offAccess_clk (s : State) (x a : Nat) : (offAccess s x a).clk = s.clk := by simp [offAccess]
@[simp] theorem offAccess_links (s : State) (x a : Nat) : (offAccess s x a).links = s.links := by simp [offAccess]
@[simp] theorem offAccess_subs (s : State) (x a : Nat) : (offAccess s x a).subs = s.subs := by simp [offAccess]
@[simp] theorem offAccess_dfe (s : State) (x a : Nat) : (offAccess s x a).dfe = s.dfe := by simp [offAccess]
@[simp] theorem offAccess_ofdm (s : State) (x a : Nat) : (offAccess s x a).ofdm = s.ofdm := by simp [offAccess]
@[simp] theorem offAccess_fec (s : State) (x a : Nat) : (offAccess s x a).fec = s.fec := by simp [offAccess]
@[simp] theorem offAccess_prism (s : State) (x a : Nat) : (offAccess s x a).prism = s.prism := by simp [offAccess]
@[simp] theorem offAccess_cal (s : State) (x a : Nat) : (offAccess s x a).cal = s.cal := by simp [offAccess]
@[simp] theorem offAccess_spareJobs (s : State) (x a : Nat) : (offAccess s x a).spareJobs = s.spareJobs := by simp [offAccess]
@[simp] theorem offAccess_cores (s : State) (x a : Nat) : (offAccess s x a).cores = s.cores := by simp [offAccess]
@[simp] theorem offAccess_mxc (s : State) (x a : Nat) : (offAccess s x a).mxc = s.mxc := by simp [offAccess]
@[simp] theorem offAccess_mxCtx (s : State) (x a : Nat) : (offAccess s x a).mxCtx = s.mxCtx := by simp [offAccess]
@[simp] theorem offAccess_dma (s : State) (x a : Nat) : (offAccess s x a).dma = s.dma := by simp [offAccess]
@[simp] theorem offAccess_dmaEng (s : State) (x a : Nat) : (offAccess s x a).dmaEng = s.dmaEng := by simp [offAccess]
@[simp] theorem offAccess_lanes (s : State) (x a : Nat) : (offAccess s x a).lanes = s.lanes := by simp [offAccess]
@[simp] theorem offAccess_cuw (s : State) (x a : Nat) : (offAccess s x a).cuw = s.cuw := by simp [offAccess]
@[simp] theorem offAccess_pkt (s : State) (x a : Nat) : (offAccess s x a).pkt = s.pkt := by simp [offAccess]
@[simp] theorem offAccess_tm (s : State) (x a : Nat) : (offAccess s x a).tm = s.tm := by simp [offAccess]
@[simp] theorem offAccess_pcie (s : State) (x a : Nat) : (offAccess s x a).pcie = s.pcie := by simp [offAccess]
@[simp] theorem offAccess_phys (s : State) (x a : Nat) : (offAccess s x a).phys = s.phys := by simp [offAccess]
@[simp] theorem offAccess_fapi (s : State) (x a : Nat) : (offAccess s x a).fapi = s.fapi := by simp [offAccess]
@[simp] theorem offAccess_boot (s : State) (x a : Nat) : (offAccess s x a).boot = s.boot := by simp [offAccess]
@[simp] theorem offAccess_unowned (s : State) (x a : Nat) : (offAccess s x a).unowned = s.unowned := by simp [offAccess]

/-! ### `decodeErr` changes `regs` and `evt` only. -/

@[simp] theorem decodeErr_pending (s : State) (x a : Nat) : (decodeErr s x a).pending = s.pending := by simp [decodeErr]
@[simp] theorem decodeErr_holdRd (s : State) (x a : Nat) : (decodeErr s x a).holdRd = s.holdRd := by simp [decodeErr]
@[simp] theorem decodeErr_holdWr (s : State) (x a : Nat) : (decodeErr s x a).holdWr = s.holdWr := by simp [decodeErr]
@[simp] theorem decodeErr_cnt (s : State) (x a : Nat) : (decodeErr s x a).cnt = s.cnt := by simp [decodeErr]
@[simp] theorem decodeErr_mem (s : State) (x a : Nat) : (decodeErr s x a).mem = s.mem := by simp [decodeErr]
@[simp] theorem decodeErr_memErr (s : State) (x a : Nat) : (decodeErr s x a).memErr = s.memErr := by simp [decodeErr]
@[simp] theorem decodeErr_hostMem (s : State) (x a : Nat) : (decodeErr s x a).hostMem = s.hostMem := by simp [decodeErr]
@[simp] theorem decodeErr_coreMap (s : State) (x a : Nat) : (decodeErr s x a).coreMap = s.coreMap := by simp [decodeErr]
@[simp] theorem decodeErr_fuses (s : State) (x a : Nat) : (decodeErr s x a).fuses = s.fuses := by simp [decodeErr]
@[simp] theorem decodeErr_freeCtr (s : State) (x a : Nat) : (decodeErr s x a).freeCtr = s.freeCtr := by simp [decodeErr]
@[simp] theorem decodeErr_rdOut (s : State) (x a : Nat) : (decodeErr s x a).rdOut = s.rdOut := by simp [decodeErr]
@[simp] theorem decodeErr_arrived (s : State) (x a : Nat) : (decodeErr s x a).arrived = s.arrived := by simp [decodeErr]
@[simp] theorem decodeErr_usTick (s : State) (x a : Nat) : (decodeErr s x a).usTick = s.usTick := by simp [decodeErr]
@[simp] theorem decodeErr_time (s : State) (x a : Nat) : (decodeErr s x a).time = s.time := by simp [decodeErr]
@[simp] theorem decodeErr_disp (s : State) (x a : Nat) : (decodeErr s x a).disp = s.disp := by simp [decodeErr]
@[simp] theorem decodeErr_fab (s : State) (x a : Nat) : (decodeErr s x a).fab = s.fab := by simp [decodeErr]
@[simp] theorem decodeErr_memc (s : State) (x a : Nat) : (decodeErr s x a).memc = s.memc := by simp [decodeErr]
@[simp] theorem decodeErr_pwr (s : State) (x a : Nat) : (decodeErr s x a).pwr = s.pwr := by simp [decodeErr]
@[simp] theorem decodeErr_clk (s : State) (x a : Nat) : (decodeErr s x a).clk = s.clk := by simp [decodeErr]
@[simp] theorem decodeErr_links (s : State) (x a : Nat) : (decodeErr s x a).links = s.links := by simp [decodeErr]
@[simp] theorem decodeErr_subs (s : State) (x a : Nat) : (decodeErr s x a).subs = s.subs := by simp [decodeErr]
@[simp] theorem decodeErr_dfe (s : State) (x a : Nat) : (decodeErr s x a).dfe = s.dfe := by simp [decodeErr]
@[simp] theorem decodeErr_ofdm (s : State) (x a : Nat) : (decodeErr s x a).ofdm = s.ofdm := by simp [decodeErr]
@[simp] theorem decodeErr_fec (s : State) (x a : Nat) : (decodeErr s x a).fec = s.fec := by simp [decodeErr]
@[simp] theorem decodeErr_prism (s : State) (x a : Nat) : (decodeErr s x a).prism = s.prism := by simp [decodeErr]
@[simp] theorem decodeErr_cal (s : State) (x a : Nat) : (decodeErr s x a).cal = s.cal := by simp [decodeErr]
@[simp] theorem decodeErr_spareJobs (s : State) (x a : Nat) : (decodeErr s x a).spareJobs = s.spareJobs := by simp [decodeErr]
@[simp] theorem decodeErr_cores (s : State) (x a : Nat) : (decodeErr s x a).cores = s.cores := by simp [decodeErr]
@[simp] theorem decodeErr_mxc (s : State) (x a : Nat) : (decodeErr s x a).mxc = s.mxc := by simp [decodeErr]
@[simp] theorem decodeErr_mxCtx (s : State) (x a : Nat) : (decodeErr s x a).mxCtx = s.mxCtx := by simp [decodeErr]
@[simp] theorem decodeErr_dma (s : State) (x a : Nat) : (decodeErr s x a).dma = s.dma := by simp [decodeErr]
@[simp] theorem decodeErr_dmaEng (s : State) (x a : Nat) : (decodeErr s x a).dmaEng = s.dmaEng := by simp [decodeErr]
@[simp] theorem decodeErr_lanes (s : State) (x a : Nat) : (decodeErr s x a).lanes = s.lanes := by simp [decodeErr]
@[simp] theorem decodeErr_cuw (s : State) (x a : Nat) : (decodeErr s x a).cuw = s.cuw := by simp [decodeErr]
@[simp] theorem decodeErr_pkt (s : State) (x a : Nat) : (decodeErr s x a).pkt = s.pkt := by simp [decodeErr]
@[simp] theorem decodeErr_tm (s : State) (x a : Nat) : (decodeErr s x a).tm = s.tm := by simp [decodeErr]
@[simp] theorem decodeErr_pcie (s : State) (x a : Nat) : (decodeErr s x a).pcie = s.pcie := by simp [decodeErr]
@[simp] theorem decodeErr_phys (s : State) (x a : Nat) : (decodeErr s x a).phys = s.phys := by simp [decodeErr]
@[simp] theorem decodeErr_fapi (s : State) (x a : Nat) : (decodeErr s x a).fapi = s.fapi := by simp [decodeErr]
@[simp] theorem decodeErr_boot (s : State) (x a : Nat) : (decodeErr s x a).boot = s.boot := by simp [decodeErr]
@[simp] theorem decodeErr_unowned (s : State) (x a : Nat) : (decodeErr s x a).unowned = s.unowned := by simp [decodeErr]

/-! ### `sendTok` changes `fab` only. -/

@[simp] theorem sendTok_pending (s : State) (p c : Nat) (t : Token) : (sendTok s p c t).pending = s.pending := rfl
@[simp] theorem sendTok_regs (s : State) (p c : Nat) (t : Token) : (sendTok s p c t).regs = s.regs := rfl
@[simp] theorem sendTok_holdRd (s : State) (p c : Nat) (t : Token) : (sendTok s p c t).holdRd = s.holdRd := rfl
@[simp] theorem sendTok_holdWr (s : State) (p c : Nat) (t : Token) : (sendTok s p c t).holdWr = s.holdWr := rfl
@[simp] theorem sendTok_cnt (s : State) (p c : Nat) (t : Token) : (sendTok s p c t).cnt = s.cnt := rfl
@[simp] theorem sendTok_mem (s : State) (p c : Nat) (t : Token) : (sendTok s p c t).mem = s.mem := rfl
@[simp] theorem sendTok_memErr (s : State) (p c : Nat) (t : Token) : (sendTok s p c t).memErr = s.memErr := rfl
@[simp] theorem sendTok_hostMem (s : State) (p c : Nat) (t : Token) : (sendTok s p c t).hostMem = s.hostMem := rfl
@[simp] theorem sendTok_coreMap (s : State) (p c : Nat) (t : Token) : (sendTok s p c t).coreMap = s.coreMap := rfl
@[simp] theorem sendTok_fuses (s : State) (p c : Nat) (t : Token) : (sendTok s p c t).fuses = s.fuses := rfl
@[simp] theorem sendTok_freeCtr (s : State) (p c : Nat) (t : Token) : (sendTok s p c t).freeCtr = s.freeCtr := rfl
@[simp] theorem sendTok_rdOut (s : State) (p c : Nat) (t : Token) : (sendTok s p c t).rdOut = s.rdOut := rfl
@[simp] theorem sendTok_arrived (s : State) (p c : Nat) (t : Token) : (sendTok s p c t).arrived = s.arrived := rfl
@[simp] theorem sendTok_usTick (s : State) (p c : Nat) (t : Token) : (sendTok s p c t).usTick = s.usTick := rfl
@[simp] theorem sendTok_time (s : State) (p c : Nat) (t : Token) : (sendTok s p c t).time = s.time := rfl
@[simp] theorem sendTok_disp (s : State) (p c : Nat) (t : Token) : (sendTok s p c t).disp = s.disp := rfl
@[simp] theorem sendTok_memc (s : State) (p c : Nat) (t : Token) : (sendTok s p c t).memc = s.memc := rfl
@[simp] theorem sendTok_pwr (s : State) (p c : Nat) (t : Token) : (sendTok s p c t).pwr = s.pwr := rfl
@[simp] theorem sendTok_clk (s : State) (p c : Nat) (t : Token) : (sendTok s p c t).clk = s.clk := rfl
@[simp] theorem sendTok_evt (s : State) (p c : Nat) (t : Token) : (sendTok s p c t).evt = s.evt := rfl
@[simp] theorem sendTok_links (s : State) (p c : Nat) (t : Token) : (sendTok s p c t).links = s.links := rfl
@[simp] theorem sendTok_lemc (s : State) (p c : Nat) (t : Token) : (sendTok s p c t).lemc = s.lemc := rfl
@[simp] theorem sendTok_chains (s : State) (p c : Nat) (t : Token) : (sendTok s p c t).chains = s.chains := rfl
@[simp] theorem sendTok_subs (s : State) (p c : Nat) (t : Token) : (sendTok s p c t).subs = s.subs := rfl
@[simp] theorem sendTok_dfe (s : State) (p c : Nat) (t : Token) : (sendTok s p c t).dfe = s.dfe := rfl
@[simp] theorem sendTok_ofdm (s : State) (p c : Nat) (t : Token) : (sendTok s p c t).ofdm = s.ofdm := rfl
@[simp] theorem sendTok_fec (s : State) (p c : Nat) (t : Token) : (sendTok s p c t).fec = s.fec := rfl
@[simp] theorem sendTok_prism (s : State) (p c : Nat) (t : Token) : (sendTok s p c t).prism = s.prism := rfl
@[simp] theorem sendTok_cal (s : State) (p c : Nat) (t : Token) : (sendTok s p c t).cal = s.cal := rfl
@[simp] theorem sendTok_spareJobs (s : State) (p c : Nat) (t : Token) : (sendTok s p c t).spareJobs = s.spareJobs := rfl
@[simp] theorem sendTok_cores (s : State) (p c : Nat) (t : Token) : (sendTok s p c t).cores = s.cores := rfl
@[simp] theorem sendTok_mxc (s : State) (p c : Nat) (t : Token) : (sendTok s p c t).mxc = s.mxc := rfl
@[simp] theorem sendTok_mxCtx (s : State) (p c : Nat) (t : Token) : (sendTok s p c t).mxCtx = s.mxCtx := rfl
@[simp] theorem sendTok_dma (s : State) (p c : Nat) (t : Token) : (sendTok s p c t).dma = s.dma := rfl
@[simp] theorem sendTok_dmaEng (s : State) (p c : Nat) (t : Token) : (sendTok s p c t).dmaEng = s.dmaEng := rfl
@[simp] theorem sendTok_lanes (s : State) (p c : Nat) (t : Token) : (sendTok s p c t).lanes = s.lanes := rfl
@[simp] theorem sendTok_cuw (s : State) (p c : Nat) (t : Token) : (sendTok s p c t).cuw = s.cuw := rfl
@[simp] theorem sendTok_pkt (s : State) (p c : Nat) (t : Token) : (sendTok s p c t).pkt = s.pkt := rfl
@[simp] theorem sendTok_tm (s : State) (p c : Nat) (t : Token) : (sendTok s p c t).tm = s.tm := rfl
@[simp] theorem sendTok_pcie (s : State) (p c : Nat) (t : Token) : (sendTok s p c t).pcie = s.pcie := rfl
@[simp] theorem sendTok_phys (s : State) (p c : Nat) (t : Token) : (sendTok s p c t).phys = s.phys := rfl
@[simp] theorem sendTok_fapi (s : State) (p c : Nat) (t : Token) : (sendTok s p c t).fapi = s.fapi := rfl
@[simp] theorem sendTok_boot (s : State) (p c : Nat) (t : Token) : (sendTok s p c t).boot = s.boot := rfl
@[simp] theorem sendTok_unowned (s : State) (p c : Nat) (t : Token) : (sendTok s p c t).unowned = s.unowned := rfl

/-! ### `complete` changes `fab` only. -/

@[simp] theorem complete_pending (s : State) (p : Nat) (f : FireRec) (e : Bool) (d : Dword) : (complete s p f e d).pending = s.pending := rfl
@[simp] theorem complete_regs (s : State) (p : Nat) (f : FireRec) (e : Bool) (d : Dword) : (complete s p f e d).regs = s.regs := rfl
@[simp] theorem complete_holdRd (s : State) (p : Nat) (f : FireRec) (e : Bool) (d : Dword) : (complete s p f e d).holdRd = s.holdRd := rfl
@[simp] theorem complete_holdWr (s : State) (p : Nat) (f : FireRec) (e : Bool) (d : Dword) : (complete s p f e d).holdWr = s.holdWr := rfl
@[simp] theorem complete_cnt (s : State) (p : Nat) (f : FireRec) (e : Bool) (d : Dword) : (complete s p f e d).cnt = s.cnt := rfl
@[simp] theorem complete_mem (s : State) (p : Nat) (f : FireRec) (e : Bool) (d : Dword) : (complete s p f e d).mem = s.mem := rfl
@[simp] theorem complete_memErr (s : State) (p : Nat) (f : FireRec) (e : Bool) (d : Dword) : (complete s p f e d).memErr = s.memErr := rfl
@[simp] theorem complete_hostMem (s : State) (p : Nat) (f : FireRec) (e : Bool) (d : Dword) : (complete s p f e d).hostMem = s.hostMem := rfl
@[simp] theorem complete_coreMap (s : State) (p : Nat) (f : FireRec) (e : Bool) (d : Dword) : (complete s p f e d).coreMap = s.coreMap := rfl
@[simp] theorem complete_fuses (s : State) (p : Nat) (f : FireRec) (e : Bool) (d : Dword) : (complete s p f e d).fuses = s.fuses := rfl
@[simp] theorem complete_freeCtr (s : State) (p : Nat) (f : FireRec) (e : Bool) (d : Dword) : (complete s p f e d).freeCtr = s.freeCtr := rfl
@[simp] theorem complete_rdOut (s : State) (p : Nat) (f : FireRec) (e : Bool) (d : Dword) : (complete s p f e d).rdOut = s.rdOut := rfl
@[simp] theorem complete_arrived (s : State) (p : Nat) (f : FireRec) (e : Bool) (d : Dword) : (complete s p f e d).arrived = s.arrived := rfl
@[simp] theorem complete_usTick (s : State) (p : Nat) (f : FireRec) (e : Bool) (d : Dword) : (complete s p f e d).usTick = s.usTick := rfl
@[simp] theorem complete_time (s : State) (p : Nat) (f : FireRec) (e : Bool) (d : Dword) : (complete s p f e d).time = s.time := rfl
@[simp] theorem complete_disp (s : State) (p : Nat) (f : FireRec) (e : Bool) (d : Dword) : (complete s p f e d).disp = s.disp := rfl
@[simp] theorem complete_memc (s : State) (p : Nat) (f : FireRec) (e : Bool) (d : Dword) : (complete s p f e d).memc = s.memc := rfl
@[simp] theorem complete_pwr (s : State) (p : Nat) (f : FireRec) (e : Bool) (d : Dword) : (complete s p f e d).pwr = s.pwr := rfl
@[simp] theorem complete_clk (s : State) (p : Nat) (f : FireRec) (e : Bool) (d : Dword) : (complete s p f e d).clk = s.clk := rfl
@[simp] theorem complete_evt (s : State) (p : Nat) (f : FireRec) (e : Bool) (d : Dword) : (complete s p f e d).evt = s.evt := rfl
@[simp] theorem complete_links (s : State) (p : Nat) (f : FireRec) (e : Bool) (d : Dword) : (complete s p f e d).links = s.links := rfl
@[simp] theorem complete_lemc (s : State) (p : Nat) (f : FireRec) (e : Bool) (d : Dword) : (complete s p f e d).lemc = s.lemc := rfl
@[simp] theorem complete_chains (s : State) (p : Nat) (f : FireRec) (e : Bool) (d : Dword) : (complete s p f e d).chains = s.chains := rfl
@[simp] theorem complete_subs (s : State) (p : Nat) (f : FireRec) (e : Bool) (d : Dword) : (complete s p f e d).subs = s.subs := rfl
@[simp] theorem complete_dfe (s : State) (p : Nat) (f : FireRec) (e : Bool) (d : Dword) : (complete s p f e d).dfe = s.dfe := rfl
@[simp] theorem complete_ofdm (s : State) (p : Nat) (f : FireRec) (e : Bool) (d : Dword) : (complete s p f e d).ofdm = s.ofdm := rfl
@[simp] theorem complete_fec (s : State) (p : Nat) (f : FireRec) (e : Bool) (d : Dword) : (complete s p f e d).fec = s.fec := rfl
@[simp] theorem complete_prism (s : State) (p : Nat) (f : FireRec) (e : Bool) (d : Dword) : (complete s p f e d).prism = s.prism := rfl
@[simp] theorem complete_cal (s : State) (p : Nat) (f : FireRec) (e : Bool) (d : Dword) : (complete s p f e d).cal = s.cal := rfl
@[simp] theorem complete_spareJobs (s : State) (p : Nat) (f : FireRec) (e : Bool) (d : Dword) : (complete s p f e d).spareJobs = s.spareJobs := rfl
@[simp] theorem complete_cores (s : State) (p : Nat) (f : FireRec) (e : Bool) (d : Dword) : (complete s p f e d).cores = s.cores := rfl
@[simp] theorem complete_mxc (s : State) (p : Nat) (f : FireRec) (e : Bool) (d : Dword) : (complete s p f e d).mxc = s.mxc := rfl
@[simp] theorem complete_mxCtx (s : State) (p : Nat) (f : FireRec) (e : Bool) (d : Dword) : (complete s p f e d).mxCtx = s.mxCtx := rfl
@[simp] theorem complete_dma (s : State) (p : Nat) (f : FireRec) (e : Bool) (d : Dword) : (complete s p f e d).dma = s.dma := rfl
@[simp] theorem complete_dmaEng (s : State) (p : Nat) (f : FireRec) (e : Bool) (d : Dword) : (complete s p f e d).dmaEng = s.dmaEng := rfl
@[simp] theorem complete_lanes (s : State) (p : Nat) (f : FireRec) (e : Bool) (d : Dword) : (complete s p f e d).lanes = s.lanes := rfl
@[simp] theorem complete_cuw (s : State) (p : Nat) (f : FireRec) (e : Bool) (d : Dword) : (complete s p f e d).cuw = s.cuw := rfl
@[simp] theorem complete_pkt (s : State) (p : Nat) (f : FireRec) (e : Bool) (d : Dword) : (complete s p f e d).pkt = s.pkt := rfl
@[simp] theorem complete_tm (s : State) (p : Nat) (f : FireRec) (e : Bool) (d : Dword) : (complete s p f e d).tm = s.tm := rfl
@[simp] theorem complete_pcie (s : State) (p : Nat) (f : FireRec) (e : Bool) (d : Dword) : (complete s p f e d).pcie = s.pcie := rfl
@[simp] theorem complete_phys (s : State) (p : Nat) (f : FireRec) (e : Bool) (d : Dword) : (complete s p f e d).phys = s.phys := rfl
@[simp] theorem complete_fapi (s : State) (p : Nat) (f : FireRec) (e : Bool) (d : Dword) : (complete s p f e d).fapi = s.fapi := rfl
@[simp] theorem complete_boot (s : State) (p : Nat) (f : FireRec) (e : Bool) (d : Dword) : (complete s p f e d).boot = s.boot := rfl
@[simp] theorem complete_unowned (s : State) (p : Nat) (f : FireRec) (e : Bool) (d : Dword) : (complete s p f e d).unowned = s.unowned := rfl

/-! ### `failFire` changes `fab` only. -/

@[simp] theorem failFire_pending (s : State) (p : Nat) (f : FireRec) (c : Nat) : (failFire s p f c).pending = s.pending := rfl
@[simp] theorem failFire_regs (s : State) (p : Nat) (f : FireRec) (c : Nat) : (failFire s p f c).regs = s.regs := rfl
@[simp] theorem failFire_holdRd (s : State) (p : Nat) (f : FireRec) (c : Nat) : (failFire s p f c).holdRd = s.holdRd := rfl
@[simp] theorem failFire_holdWr (s : State) (p : Nat) (f : FireRec) (c : Nat) : (failFire s p f c).holdWr = s.holdWr := rfl
@[simp] theorem failFire_cnt (s : State) (p : Nat) (f : FireRec) (c : Nat) : (failFire s p f c).cnt = s.cnt := rfl
@[simp] theorem failFire_mem (s : State) (p : Nat) (f : FireRec) (c : Nat) : (failFire s p f c).mem = s.mem := rfl
@[simp] theorem failFire_memErr (s : State) (p : Nat) (f : FireRec) (c : Nat) : (failFire s p f c).memErr = s.memErr := rfl
@[simp] theorem failFire_hostMem (s : State) (p : Nat) (f : FireRec) (c : Nat) : (failFire s p f c).hostMem = s.hostMem := rfl
@[simp] theorem failFire_coreMap (s : State) (p : Nat) (f : FireRec) (c : Nat) : (failFire s p f c).coreMap = s.coreMap := rfl
@[simp] theorem failFire_fuses (s : State) (p : Nat) (f : FireRec) (c : Nat) : (failFire s p f c).fuses = s.fuses := rfl
@[simp] theorem failFire_freeCtr (s : State) (p : Nat) (f : FireRec) (c : Nat) : (failFire s p f c).freeCtr = s.freeCtr := rfl
@[simp] theorem failFire_rdOut (s : State) (p : Nat) (f : FireRec) (c : Nat) : (failFire s p f c).rdOut = s.rdOut := rfl
@[simp] theorem failFire_arrived (s : State) (p : Nat) (f : FireRec) (c : Nat) : (failFire s p f c).arrived = s.arrived := rfl
@[simp] theorem failFire_usTick (s : State) (p : Nat) (f : FireRec) (c : Nat) : (failFire s p f c).usTick = s.usTick := rfl
@[simp] theorem failFire_time (s : State) (p : Nat) (f : FireRec) (c : Nat) : (failFire s p f c).time = s.time := rfl
@[simp] theorem failFire_disp (s : State) (p : Nat) (f : FireRec) (c : Nat) : (failFire s p f c).disp = s.disp := rfl
@[simp] theorem failFire_memc (s : State) (p : Nat) (f : FireRec) (c : Nat) : (failFire s p f c).memc = s.memc := rfl
@[simp] theorem failFire_pwr (s : State) (p : Nat) (f : FireRec) (c : Nat) : (failFire s p f c).pwr = s.pwr := rfl
@[simp] theorem failFire_clk (s : State) (p : Nat) (f : FireRec) (c : Nat) : (failFire s p f c).clk = s.clk := rfl
@[simp] theorem failFire_evt (s : State) (p : Nat) (f : FireRec) (c : Nat) : (failFire s p f c).evt = s.evt := rfl
@[simp] theorem failFire_links (s : State) (p : Nat) (f : FireRec) (c : Nat) : (failFire s p f c).links = s.links := rfl
@[simp] theorem failFire_lemc (s : State) (p : Nat) (f : FireRec) (c : Nat) : (failFire s p f c).lemc = s.lemc := rfl
@[simp] theorem failFire_chains (s : State) (p : Nat) (f : FireRec) (c : Nat) : (failFire s p f c).chains = s.chains := rfl
@[simp] theorem failFire_subs (s : State) (p : Nat) (f : FireRec) (c : Nat) : (failFire s p f c).subs = s.subs := rfl
@[simp] theorem failFire_dfe (s : State) (p : Nat) (f : FireRec) (c : Nat) : (failFire s p f c).dfe = s.dfe := rfl
@[simp] theorem failFire_ofdm (s : State) (p : Nat) (f : FireRec) (c : Nat) : (failFire s p f c).ofdm = s.ofdm := rfl
@[simp] theorem failFire_fec (s : State) (p : Nat) (f : FireRec) (c : Nat) : (failFire s p f c).fec = s.fec := rfl
@[simp] theorem failFire_prism (s : State) (p : Nat) (f : FireRec) (c : Nat) : (failFire s p f c).prism = s.prism := rfl
@[simp] theorem failFire_cal (s : State) (p : Nat) (f : FireRec) (c : Nat) : (failFire s p f c).cal = s.cal := rfl
@[simp] theorem failFire_spareJobs (s : State) (p : Nat) (f : FireRec) (c : Nat) : (failFire s p f c).spareJobs = s.spareJobs := rfl
@[simp] theorem failFire_cores (s : State) (p : Nat) (f : FireRec) (c : Nat) : (failFire s p f c).cores = s.cores := rfl
@[simp] theorem failFire_mxc (s : State) (p : Nat) (f : FireRec) (c : Nat) : (failFire s p f c).mxc = s.mxc := rfl
@[simp] theorem failFire_mxCtx (s : State) (p : Nat) (f : FireRec) (c : Nat) : (failFire s p f c).mxCtx = s.mxCtx := rfl
@[simp] theorem failFire_dma (s : State) (p : Nat) (f : FireRec) (c : Nat) : (failFire s p f c).dma = s.dma := rfl
@[simp] theorem failFire_dmaEng (s : State) (p : Nat) (f : FireRec) (c : Nat) : (failFire s p f c).dmaEng = s.dmaEng := rfl
@[simp] theorem failFire_lanes (s : State) (p : Nat) (f : FireRec) (c : Nat) : (failFire s p f c).lanes = s.lanes := rfl
@[simp] theorem failFire_cuw (s : State) (p : Nat) (f : FireRec) (c : Nat) : (failFire s p f c).cuw = s.cuw := rfl
@[simp] theorem failFire_pkt (s : State) (p : Nat) (f : FireRec) (c : Nat) : (failFire s p f c).pkt = s.pkt := rfl
@[simp] theorem failFire_tm (s : State) (p : Nat) (f : FireRec) (c : Nat) : (failFire s p f c).tm = s.tm := rfl
@[simp] theorem failFire_pcie (s : State) (p : Nat) (f : FireRec) (c : Nat) : (failFire s p f c).pcie = s.pcie := rfl
@[simp] theorem failFire_phys (s : State) (p : Nat) (f : FireRec) (c : Nat) : (failFire s p f c).phys = s.phys := rfl
@[simp] theorem failFire_fapi (s : State) (p : Nat) (f : FireRec) (c : Nat) : (failFire s p f c).fapi = s.fapi := rfl
@[simp] theorem failFire_boot (s : State) (p : Nat) (f : FireRec) (c : Nat) : (failFire s p f c).boot = s.boot := rfl
@[simp] theorem failFire_unowned (s : State) (p : Nat) (f : FireRec) (c : Nat) : (failFire s p f c).unowned = s.unowned := rfl

/-! ### `takeArrived` changes `arrived` only. -/

@[simp] theorem takeArrived_pending (s : State) (f : FireRec) : (takeArrived s f).pending = s.pending := rfl
@[simp] theorem takeArrived_regs (s : State) (f : FireRec) : (takeArrived s f).regs = s.regs := rfl
@[simp] theorem takeArrived_holdRd (s : State) (f : FireRec) : (takeArrived s f).holdRd = s.holdRd := rfl
@[simp] theorem takeArrived_holdWr (s : State) (f : FireRec) : (takeArrived s f).holdWr = s.holdWr := rfl
@[simp] theorem takeArrived_cnt (s : State) (f : FireRec) : (takeArrived s f).cnt = s.cnt := rfl
@[simp] theorem takeArrived_mem (s : State) (f : FireRec) : (takeArrived s f).mem = s.mem := rfl
@[simp] theorem takeArrived_memErr (s : State) (f : FireRec) : (takeArrived s f).memErr = s.memErr := rfl
@[simp] theorem takeArrived_hostMem (s : State) (f : FireRec) : (takeArrived s f).hostMem = s.hostMem := rfl
@[simp] theorem takeArrived_coreMap (s : State) (f : FireRec) : (takeArrived s f).coreMap = s.coreMap := rfl
@[simp] theorem takeArrived_fuses (s : State) (f : FireRec) : (takeArrived s f).fuses = s.fuses := rfl
@[simp] theorem takeArrived_freeCtr (s : State) (f : FireRec) : (takeArrived s f).freeCtr = s.freeCtr := rfl
@[simp] theorem takeArrived_rdOut (s : State) (f : FireRec) : (takeArrived s f).rdOut = s.rdOut := rfl
@[simp] theorem takeArrived_usTick (s : State) (f : FireRec) : (takeArrived s f).usTick = s.usTick := rfl
@[simp] theorem takeArrived_time (s : State) (f : FireRec) : (takeArrived s f).time = s.time := rfl
@[simp] theorem takeArrived_disp (s : State) (f : FireRec) : (takeArrived s f).disp = s.disp := rfl
@[simp] theorem takeArrived_fab (s : State) (f : FireRec) : (takeArrived s f).fab = s.fab := rfl
@[simp] theorem takeArrived_memc (s : State) (f : FireRec) : (takeArrived s f).memc = s.memc := rfl
@[simp] theorem takeArrived_pwr (s : State) (f : FireRec) : (takeArrived s f).pwr = s.pwr := rfl
@[simp] theorem takeArrived_clk (s : State) (f : FireRec) : (takeArrived s f).clk = s.clk := rfl
@[simp] theorem takeArrived_evt (s : State) (f : FireRec) : (takeArrived s f).evt = s.evt := rfl
@[simp] theorem takeArrived_links (s : State) (f : FireRec) : (takeArrived s f).links = s.links := rfl
@[simp] theorem takeArrived_lemc (s : State) (f : FireRec) : (takeArrived s f).lemc = s.lemc := rfl
@[simp] theorem takeArrived_chains (s : State) (f : FireRec) : (takeArrived s f).chains = s.chains := rfl
@[simp] theorem takeArrived_subs (s : State) (f : FireRec) : (takeArrived s f).subs = s.subs := rfl
@[simp] theorem takeArrived_dfe (s : State) (f : FireRec) : (takeArrived s f).dfe = s.dfe := rfl
@[simp] theorem takeArrived_ofdm (s : State) (f : FireRec) : (takeArrived s f).ofdm = s.ofdm := rfl
@[simp] theorem takeArrived_fec (s : State) (f : FireRec) : (takeArrived s f).fec = s.fec := rfl
@[simp] theorem takeArrived_prism (s : State) (f : FireRec) : (takeArrived s f).prism = s.prism := rfl
@[simp] theorem takeArrived_cal (s : State) (f : FireRec) : (takeArrived s f).cal = s.cal := rfl
@[simp] theorem takeArrived_spareJobs (s : State) (f : FireRec) : (takeArrived s f).spareJobs = s.spareJobs := rfl
@[simp] theorem takeArrived_cores (s : State) (f : FireRec) : (takeArrived s f).cores = s.cores := rfl
@[simp] theorem takeArrived_mxc (s : State) (f : FireRec) : (takeArrived s f).mxc = s.mxc := rfl
@[simp] theorem takeArrived_mxCtx (s : State) (f : FireRec) : (takeArrived s f).mxCtx = s.mxCtx := rfl
@[simp] theorem takeArrived_dma (s : State) (f : FireRec) : (takeArrived s f).dma = s.dma := rfl
@[simp] theorem takeArrived_dmaEng (s : State) (f : FireRec) : (takeArrived s f).dmaEng = s.dmaEng := rfl
@[simp] theorem takeArrived_lanes (s : State) (f : FireRec) : (takeArrived s f).lanes = s.lanes := rfl
@[simp] theorem takeArrived_cuw (s : State) (f : FireRec) : (takeArrived s f).cuw = s.cuw := rfl
@[simp] theorem takeArrived_pkt (s : State) (f : FireRec) : (takeArrived s f).pkt = s.pkt := rfl
@[simp] theorem takeArrived_tm (s : State) (f : FireRec) : (takeArrived s f).tm = s.tm := rfl
@[simp] theorem takeArrived_pcie (s : State) (f : FireRec) : (takeArrived s f).pcie = s.pcie := rfl
@[simp] theorem takeArrived_phys (s : State) (f : FireRec) : (takeArrived s f).phys = s.phys := rfl
@[simp] theorem takeArrived_fapi (s : State) (f : FireRec) : (takeArrived s f).fapi = s.fapi := rfl
@[simp] theorem takeArrived_boot (s : State) (f : FireRec) : (takeArrived s f).boot = s.boot := rfl
@[simp] theorem takeArrived_unowned (s : State) (f : FireRec) : (takeArrived s f).unowned = s.unowned := rfl

end Sys2Proof.Machine
end

