-- ==== Sys2Proof/Laws/To.lean ====
section
/-! SUPPORT. The frame relation: `To T s t` says that `t` keeps what is sound of `s`, and that every field of the state whose bit of
`T` is clear is that of `s`. The bits number the fields of State in their order. One lemma for each field; the files beside
this one hold one lemma for each operation and each meaning. -/

namespace Sys2Proof.Machine

/-- Every fuse holds its own bits. -/
theorem fusesGrow.refl (f : Fuses) : fusesGrow f f :=
  ⟨⟨rfl, rfl, rfl, rfl, rfl, rfl, rfl⟩, fun _ _ => BitVec.and_self, BitVec.and_self, BitVec.and_self, BitVec.and_self, id, Nat.le_refl _⟩

/-- Bits that two steps keep. -/
theorem and_trans {n : Nat} {a b c : BitVec n} (h : a &&& b = a) (k : b &&& c = b) : a &&& c = a := by
  rw [← h, BitVec.and_assoc, k]

/-- Bits that a union keeps. -/
theorem and_or_self {n : Nat} (a b : BitVec n) : a &&& (a ||| b) = a := by
  ext i hi
  simp
  intro h
  exact .inl h

/-- Fuses that grow twice have grown. -/
theorem fusesGrow.trans {f g k : Fuses} (h : fusesGrow f g) (l : fusesGrow g k) : fusesGrow f k := by
  refine ⟨?_, fun i hi => and_trans (h.keys i hi) (l.keys i hi), and_trans h.revoked l.revoked, and_trans h.debugKey l.debugKey,
    and_trans h.debugState l.debugState, fun e => l.bootLock (h.bootLock e), Nat.le_trans h.svn l.svn⟩
  obtain ⟨a, b, c, d, e, f, g⟩ := h.factory
  obtain ⟨a', b', c', d', e', f', g'⟩ := l.factory
  exact ⟨a'.trans a, b'.trans b, c'.trans c, d'.trans d, e'.trans e, f'.trans f, g'.trans g⟩

/-- `t` comes from `s` by changes of the fields of `T`, and is sound where `s` is. -/
structure To (T : Nat) (s t : State) : Prop where
  sound : Sound s → Sound t
  fused : fusesGrow s.fuses t.fuses
  pending : T.testBit 0 = false → t.pending = s.pending
  regs : T.testBit 1 = false → t.regs = s.regs
  holdRd : T.testBit 2 = false → t.holdRd = s.holdRd
  holdWr : T.testBit 3 = false → t.holdWr = s.holdWr
  cnt : T.testBit 4 = false → t.cnt = s.cnt
  mem : T.testBit 5 = false → t.mem = s.mem
  memErr : T.testBit 6 = false → t.memErr = s.memErr
  hostMem : T.testBit 7 = false → t.hostMem = s.hostMem
  coreMap : T.testBit 8 = false → t.coreMap = s.coreMap
  fuses : T.testBit 9 = false → t.fuses = s.fuses
  freeCtr : T.testBit 10 = false → t.freeCtr = s.freeCtr
  rdOut : T.testBit 11 = false → t.rdOut = s.rdOut
  arrived : T.testBit 12 = false → t.arrived = s.arrived
  usTick : T.testBit 13 = false → t.usTick = s.usTick
  time : T.testBit 14 = false → t.time = s.time
  disp : T.testBit 15 = false → t.disp = s.disp
  fab : T.testBit 16 = false → t.fab = s.fab
  memc : T.testBit 17 = false → t.memc = s.memc
  pwr : T.testBit 18 = false → t.pwr = s.pwr
  clk : T.testBit 19 = false → t.clk = s.clk
  evt : T.testBit 20 = false → t.evt = s.evt
  links : T.testBit 21 = false → t.links = s.links
  lemc : T.testBit 22 = false → t.lemc = s.lemc
  chains : T.testBit 23 = false → t.chains = s.chains
  subs : T.testBit 24 = false → t.subs = s.subs
  dfe : T.testBit 25 = false → t.dfe = s.dfe
  ofdm : T.testBit 26 = false → t.ofdm = s.ofdm
  fec : T.testBit 27 = false → t.fec = s.fec
  prism : T.testBit 28 = false → t.prism = s.prism
  cal : T.testBit 29 = false → t.cal = s.cal
  spareJobs : T.testBit 30 = false → t.spareJobs = s.spareJobs
  cores : T.testBit 31 = false → t.cores = s.cores
  mxc : T.testBit 32 = false → t.mxc = s.mxc
  mxCtx : T.testBit 33 = false → t.mxCtx = s.mxCtx
  dma : T.testBit 34 = false → t.dma = s.dma
  dmaEng : T.testBit 35 = false → t.dmaEng = s.dmaEng
  lanes : T.testBit 36 = false → t.lanes = s.lanes
  cuw : T.testBit 37 = false → t.cuw = s.cuw
  pkt : T.testBit 38 = false → t.pkt = s.pkt
  tm : T.testBit 39 = false → t.tm = s.tm
  pcie : T.testBit 40 = false → t.pcie = s.pcie
  phys : T.testBit 41 = false → t.phys = s.phys
  fapi : T.testBit 42 = false → t.fapi = s.fapi
  boot : T.testBit 43 = false → t.boot = s.boot
  unowned : T.testBit 44 = false → t.unowned = s.unowned

variable {T : Nat} {s0 s : State}

/-- A state comes from itself. -/
theorem To.refl (T : Nat) (s : State) : To T s s := by
  constructor <;> first | exact fusesGrow.refl _ | (intros; first | rfl | assumption)

/-- A mask within a mask within `T` is within `T`. -/
theorem To.sub {a b T : Nat} (h : T ||| b = T) (k : b ||| a = b) : T ||| a = T := by
  rw [← h, Nat.or_assoc, k]

/-- A field whose bit is set in `T` is no frame of it. -/
theorem To.clash {i : Nat} (h : T ||| 2 ^ i = T) (k : T.testBit i = false) : False := by
  have := congrArg (·.testBit i) h
  simp [k] at this

/-- The first part of a pair that is known. -/
theorem To.fst {α : Type} {p : State × α} {a : α} (e : p = (s, a)) (h : To T s0 p.1) : To T s0 s := by rw [e] at h; exact h

/-- The second part of a pair that is known. -/
theorem To.snd {α : Type} {p : α × State} {a : α} (e : p = (a, s)) (h : To T s0 p.2) : To T s0 s := by rw [e] at h; exact h

/-- A choice. -/
theorem To.ite {c : Prop} [Decidable c] {a b : State} (ha : To T s0 a) (hb : To T s0 b) : To T s0 (if c then a else b) := by
  split <;> assumption

/-- A fold. -/
theorem To.foldl {α : Type} {g : State → α → State} (l : List α) (hg : ∀ s x, To T s0 s → To T s0 (g s x)) (h : To T s0 s) :
    To T s0 (l.foldl g s) := by
  induction l generalizing s with
  | nil => exact h
  | cons x l ih => exact ih (hg s x h)

/-- A fold over a pair. -/
theorem To.foldl_fst {α β : Type} {g : State × β → α → State × β} (l : List α)
    (hg : ∀ p x, To T s0 p.1 → To T s0 (g p x).1) {p : State × β} (h : To T s0 p.1) : To T s0 (l.foldl g p).1 := by
  induction l generalizing p with
  | nil => exact h
  | cons x l ih => exact ih (hg p x h)

/-- A fold over a pair. -/
theorem To.foldl_snd {α β : Type} {g : β × State → α → β × State} (l : List α)
    (hg : ∀ p x, To T s0 p.2 → To T s0 (g p x).2) {p : β × State} (h : To T s0 p.2) : To T s0 (l.foldl g p).2 := by
  induction l generalizing p with
  | nil => exact h
  | cons x l ih => exact ih (hg p x h)

theorem To.set_pending {m : List Instr} (hT : T ||| 1 = T) (h : To T s0 s) : To T s0 { s with pending := m } :=
  { h with sound := fun k => let k := h.sound k; { k with }, pending := fun k => (To.clash (i := 0) hT k).elim }

theorem To.set_regs {m : KMap Word} (hT : T ||| 2 = T) (h : To T s0 s) (hm : kup s.regs = true → kup m = true) : To T s0 { s with regs := m } :=
  { h with sound := fun k => let k := h.sound k; { k with regs := hm k.regs }, regs := fun k => (To.clash (i := 1) hT k).elim }

theorem To.set_holdRd {m : KMap Word} (hT : T ||| 4 = T) (h : To T s0 s) (hm : kup s.holdRd = true → kup m = true) : To T s0 { s with holdRd := m } :=
  { h with sound := fun k => let k := h.sound k; { k with holdRd := hm k.holdRd }, holdRd := fun k => (To.clash (i := 2) hT k).elim }

theorem To.set_holdWr {m : KMap (Option Word)} (hT : T ||| 8 = T) (h : To T s0 s) (hm : kup s.holdWr = true → kup m = true) : To T s0 { s with holdWr := m } :=
  { h with sound := fun k => let k := h.sound k; { k with holdWr := hm k.holdWr }, holdWr := fun k => (To.clash (i := 3) hT k).elim }

theorem To.set_cnt {m : KMap Word} (hT : T ||| 16 = T) (h : To T s0 s) (hm : kup s.cnt = true → kup m = true) : To T s0 { s with cnt := m } :=
  { h with sound := fun k => let k := h.sound k; { k with cnt := hm k.cnt }, cnt := fun k => (To.clash (i := 4) hT k).elim }

theorem To.set_mem {m : KMap Byte} (hT : T ||| 32 = T) (h : To T s0 s) (hm : Memory.wf s.mem = true → Memory.wf m = true) : To T s0 { s with mem := m } :=
  { h with sound := fun k => let k := h.sound k; { k with mem := hm k.mem }, mem := fun k => (To.clash (i := 5) hT k).elim }

theorem To.set_memErr {m : KMap Mark} (hT : T ||| 64 = T) (h : To T s0 s) (hm : kup s.memErr = true → kup m = true) : To T s0 { s with memErr := m } :=
  { h with sound := fun k => let k := h.sound k; { k with memErr := hm k.memErr }, memErr := fun k => (To.clash (i := 6) hT k).elim }

theorem To.set_hostMem {m : KMap Byte} (hT : T ||| 128 = T) (h : To T s0 s) (hm : Memory.wf s.hostMem = true → Memory.wf m = true) : To T s0 { s with hostMem := m } :=
  { h with sound := fun k => let k := h.sound k; { k with hostMem := hm k.hostMem }, hostMem := fun k => (To.clash (i := 7) hT k).elim }

theorem To.set_coreMap {m : KMap (Option Word)} (hT : T ||| 256 = T) (h : To T s0 s) (hm : kup s.coreMap = true → kup m = true) : To T s0 { s with coreMap := m } :=
  { h with sound := fun k => let k := h.sound k; { k with coreMap := hm k.coreMap }, coreMap := fun k => (To.clash (i := 8) hT k).elim }

theorem To.set_fuses {m : Fuses} (hT : T ||| 512 = T) (h : To T s0 s) (hm : fusesGrow s.fuses m) : To T s0 { s with fuses := m } :=
  { h with sound := fun k => let k := h.sound k; { k with }, fused := h.fused.trans hm, fuses := fun k => (To.clash (i := 9) hT k).elim }

theorem To.set_freeCtr {m : Nat} (hT : T ||| 1024 = T) (h : To T s0 s) : To T s0 { s with freeCtr := m } :=
  { h with sound := fun k => let k := h.sound k; { k with }, freeCtr := fun k => (To.clash (i := 10) hT k).elim }

theorem To.set_rdOut {m : Option RdOut} (hT : T ||| 2048 = T) (h : To T s0 s) : To T s0 { s with rdOut := m } :=
  { h with sound := fun k => let k := h.sound k; { k with }, rdOut := fun k => (To.clash (i := 11) hT k).elim }

theorem To.set_arrived {m : List FireRec} (hT : T ||| 4096 = T) (h : To T s0 s) : To T s0 { s with arrived := m } :=
  { h with sound := fun k => let k := h.sound k; { k with }, arrived := fun k => (To.clash (i := 12) hT k).elim }

theorem To.set_usTick {m : Nat} (hT : T ||| 8192 = T) (h : To T s0 s) : To T s0 { s with usTick := m } :=
  { h with sound := fun k => let k := h.sound k; { k with }, usTick := fun k => (To.clash (i := 13) hT k).elim }

theorem To.set_time {m : TimeSt} (hT : T ||| 16384 = T) (h : To T s0 s) : To T s0 { s with time := m } :=
  { h with sound := fun k => let k := h.sound k; { k with }, time := fun k => (To.clash (i := 14) hT k).elim }

theorem To.set_disp {m : DispSt} (hT : T ||| 32768 = T) (h : To T s0 s) : To T s0 { s with disp := m } :=
  { h with sound := fun k => let k := h.sound k; { k with }, disp := fun k => (To.clash (i := 15) hT k).elim }

theorem To.set_fab {m : FabSt} (hT : T ||| 65536 = T) (h : To T s0 s) : To T s0 { s with fab := m } :=
  { h with sound := fun k => let k := h.sound k; { k with }, fab := fun k => (To.clash (i := 16) hT k).elim }

theorem To.set_memc {m : MemSt} (hT : T ||| 131072 = T) (h : To T s0 s) : To T s0 { s with memc := m } :=
  { h with sound := fun k => let k := h.sound k; { k with }, memc := fun k => (To.clash (i := 17) hT k).elim }

theorem To.set_pwr {m : PwrSt} (hT : T ||| 262144 = T) (h : To T s0 s) : To T s0 { s with pwr := m } :=
  { h with sound := fun k => let k := h.sound k; { k with }, pwr := fun k => (To.clash (i := 18) hT k).elim }

theorem To.set_clk {m : ClkSt} (hT : T ||| 524288 = T) (h : To T s0 s) : To T s0 { s with clk := m } :=
  { h with sound := fun k => let k := h.sound k; { k with }, clk := fun k => (To.clash (i := 19) hT k).elim }

theorem To.set_evt {m : EvtSt} (hT : T ||| 1048576 = T) (h : To T s0 s) : To T s0 { s with evt := m } :=
  { h with sound := fun k => let k := h.sound k; { k with }, evt := fun k => (To.clash (i := 20) hT k).elim }

theorem To.set_links {m : KMap LinkSt} (hT : T ||| 2097152 = T) (h : To T s0 s) : To T s0 { s with links := m } :=
  { h with sound := fun k => let k := h.sound k; { k with }, links := fun k => (To.clash (i := 21) hT k).elim }

theorem To.set_lemc {m : KMap LemcSt} (hT : T ||| 4194304 = T) (h : To T s0 s) : To T s0 { s with lemc := m } :=
  { h with sound := fun k => let k := h.sound k; { k with }, lemc := fun k => (To.clash (i := 22) hT k).elim }

theorem To.set_chains {m : KMap ChainSt} (hT : T ||| 8388608 = T) (h : To T s0 s) : To T s0 { s with chains := m } :=
  { h with sound := fun k => let k := h.sound k; { k with }, chains := fun k => (To.clash (i := 23) hT k).elim }

theorem To.set_subs {m : KMap SubSt} (hT : T ||| 16777216 = T) (h : To T s0 s) : To T s0 { s with subs := m } :=
  { h with sound := fun k => let k := h.sound k; { k with }, subs := fun k => (To.clash (i := 24) hT k).elim }

theorem To.set_dfe {m : KMap DfeSt} (hT : T ||| 33554432 = T) (h : To T s0 s) : To T s0 { s with dfe := m } :=
  { h with sound := fun k => let k := h.sound k; { k with }, dfe := fun k => (To.clash (i := 25) hT k).elim }

theorem To.set_ofdm {m : KMap OfdmSt} (hT : T ||| 67108864 = T) (h : To T s0 s) : To T s0 { s with ofdm := m } :=
  { h with sound := fun k => let k := h.sound k; { k with }, ofdm := fun k => (To.clash (i := 26) hT k).elim }

theorem To.set_fec {m : KMap (List FecOp)} (hT : T ||| 134217728 = T) (h : To T s0 s) : To T s0 { s with fec := m } :=
  { h with sound := fun k => let k := h.sound k; { k with }, fec := fun k => (To.clash (i := 27) hT k).elim }

theorem To.set_prism {m : PrismSt} (hT : T ||| 268435456 = T) (h : To T s0 s) : To T s0 { s with prism := m } :=
  { h with sound := fun k => let k := h.sound k; { k with }, prism := fun k => (To.clash (i := 28) hT k).elim }

theorem To.set_cal {m : KMap (Option CalRun)} (hT : T ||| 536870912 = T) (h : To T s0 s) : To T s0 { s with cal := m } :=
  { h with sound := fun k => let k := h.sound k; { k with }, cal := fun k => (To.clash (i := 29) hT k).elim }

theorem To.set_spareJobs {m : KMap (Option Nat)} (hT : T ||| 1073741824 = T) (h : To T s0 s) : To T s0 { s with spareJobs := m } :=
  { h with sound := fun k => let k := h.sound k; { k with }, spareJobs := fun k => (To.clash (i := 30) hT k).elim }

theorem To.set_cores {m : KMap CoreSt} (hT : T ||| 2147483648 = T) (h : To T s0 s) : To T s0 { s with cores := m } :=
  { h with sound := fun k => let k := h.sound k; { k with }, cores := fun k => (To.clash (i := 31) hT k).elim }

theorem To.set_mxc {m : KMap MxcSt} (hT : T ||| 4294967296 = T) (h : To T s0 s) : To T s0 { s with mxc := m } :=
  { h with sound := fun k => let k := h.sound k; { k with }, mxc := fun k => (To.clash (i := 32) hT k).elim }

theorem To.set_mxCtx {m : KMap MxCtx} (hT : T ||| 8589934592 = T) (h : To T s0 s) : To T s0 { s with mxCtx := m } :=
  { h with sound := fun k => let k := h.sound k; { k with }, mxCtx := fun k => (To.clash (i := 33) hT k).elim }

theorem To.set_dma {m : KMap DmaCh} (hT : T ||| 17179869184 = T) (h : To T s0 s) : To T s0 { s with dma := m } :=
  { h with sound := fun k => let k := h.sound k; { k with }, dma := fun k => (To.clash (i := 34) hT k).elim }

theorem To.set_dmaEng {m : KMap DmaEng} (hT : T ||| 34359738368 = T) (h : To T s0 s) : To T s0 { s with dmaEng := m } :=
  { h with sound := fun k => let k := h.sound k; { k with }, dmaEng := fun k => (To.clash (i := 35) hT k).elim }

theorem To.set_lanes {m : KMap LaneSt} (hT : T ||| 68719476736 = T) (h : To T s0 s) : To T s0 { s with lanes := m } :=
  { h with sound := fun k => let k := h.sound k; { k with }, lanes := fun k => (To.clash (i := 36) hT k).elim }

theorem To.set_cuw {m : CuwSt} (hT : T ||| 137438953472 = T) (h : To T s0 s) : To T s0 { s with cuw := m } :=
  { h with sound := fun k => let k := h.sound k; { k with }, cuw := fun k => (To.clash (i := 37) hT k).elim }

theorem To.set_pkt {m : PktSt} (hT : T ||| 274877906944 = T) (h : To T s0 s) : To T s0 { s with pkt := m } :=
  { h with sound := fun k => let k := h.sound k; { k with }, pkt := fun k => (To.clash (i := 38) hT k).elim }

theorem To.set_tm {m : TmSt} (hT : T ||| 549755813888 = T) (h : To T s0 s) : To T s0 { s with tm := m } :=
  { h with sound := fun k => let k := h.sound k; { k with }, tm := fun k => (To.clash (i := 39) hT k).elim }

theorem To.set_pcie {m : PcieSt} (hT : T ||| 1099511627776 = T) (h : To T s0 s) : To T s0 { s with pcie := m } :=
  { h with sound := fun k => let k := h.sound k; { k with }, pcie := fun k => (To.clash (i := 40) hT k).elim }

theorem To.set_phys {m : KMap PhySt} (hT : T ||| 2199023255552 = T) (h : To T s0 s) : To T s0 { s with phys := m } :=
  { h with sound := fun k => let k := h.sound k; { k with }, phys := fun k => (To.clash (i := 41) hT k).elim }

theorem To.set_fapi {m : List FapiSent} (hT : T ||| 4398046511104 = T) (h : To T s0 s) : To T s0 { s with fapi := m } :=
  { h with sound := fun k => let k := h.sound k; { k with }, fapi := fun k => (To.clash (i := 42) hT k).elim }

theorem To.set_boot {m : BootSt} (hT : T ||| 8796093022208 = T) (h : To T s0 s) : To T s0 { s with boot := m } :=
  { h with sound := fun k => let k := h.sound k; { k with }, boot := fun k => (To.clash (i := 43) hT k).elim }

theorem To.set_unowned {m : List (Nat × FireRec)} (hT : T ||| 17592186044416 = T) (h : To T s0 s) : To T s0 { s with unowned := m } :=
  { h with sound := fun k => let k := h.sound k; { k with }, unowned := fun k => (To.clash (i := 44) hT k).elim }

/-- An update of several fields. -/
theorem To.upd {x_pending : List Instr} {x_regs : KMap Word} {x_holdRd : KMap Word} {x_holdWr : KMap (Option Word)} {x_cnt : KMap Word} {x_mem : KMap Byte} {x_memErr : KMap Mark} {x_hostMem : KMap Byte} {x_coreMap : KMap (Option Word)} {x_fuses : Fuses} {x_freeCtr : Nat} {x_rdOut : Option RdOut} {x_arrived : List FireRec} {x_usTick : Nat} {x_time : TimeSt} {x_disp : DispSt} {x_fab : FabSt} {x_memc : MemSt} {x_pwr : PwrSt} {x_clk : ClkSt} {x_evt : EvtSt} {x_links : KMap LinkSt} {x_lemc : KMap LemcSt} {x_chains : KMap ChainSt} {x_subs : KMap SubSt} {x_dfe : KMap DfeSt} {x_ofdm : KMap OfdmSt} {x_fec : KMap (List FecOp)} {x_prism : PrismSt} {x_cal : KMap (Option CalRun)} {x_spareJobs : KMap (Option Nat)} {x_cores : KMap CoreSt} {x_mxc : KMap MxcSt} {x_mxCtx : KMap MxCtx} {x_dma : KMap DmaCh} {x_dmaEng : KMap DmaEng} {x_lanes : KMap LaneSt} {x_cuw : CuwSt} {x_pkt : PktSt} {x_tm : TmSt} {x_pcie : PcieSt} {x_phys : KMap PhySt} {x_fapi : List FapiSent} {x_boot : BootSt} {x_unowned : List (Nat × FireRec)}
    (h : To T s0 s)
    (h_pending : T.testBit 0 = false → x_pending = s.pending := by
      first | with_reducible exact fun _ => rfl | exact fun k => (To.clash (i := 0) (To.sub (by assumption) (by decide)) k).elim)
    (h_regs : T.testBit 1 = false → x_regs = s.regs := by
      first | with_reducible exact fun _ => rfl | exact fun k => (To.clash (i := 1) (To.sub (by assumption) (by decide)) k).elim)
    (h_holdRd : T.testBit 2 = false → x_holdRd = s.holdRd := by
      first | with_reducible exact fun _ => rfl | exact fun k => (To.clash (i := 2) (To.sub (by assumption) (by decide)) k).elim)
    (h_holdWr : T.testBit 3 = false → x_holdWr = s.holdWr := by
      first | with_reducible exact fun _ => rfl | exact fun k => (To.clash (i := 3) (To.sub (by assumption) (by decide)) k).elim)
    (h_cnt : T.testBit 4 = false → x_cnt = s.cnt := by
      first | with_reducible exact fun _ => rfl | exact fun k => (To.clash (i := 4) (To.sub (by assumption) (by decide)) k).elim)
    (h_mem : T.testBit 5 = false → x_mem = s.mem := by
      first | with_reducible exact fun _ => rfl | exact fun k => (To.clash (i := 5) (To.sub (by assumption) (by decide)) k).elim)
    (h_memErr : T.testBit 6 = false → x_memErr = s.memErr := by
      first | with_reducible exact fun _ => rfl | exact fun k => (To.clash (i := 6) (To.sub (by assumption) (by decide)) k).elim)
    (h_hostMem : T.testBit 7 = false → x_hostMem = s.hostMem := by
      first | with_reducible exact fun _ => rfl | exact fun k => (To.clash (i := 7) (To.sub (by assumption) (by decide)) k).elim)
    (h_coreMap : T.testBit 8 = false → x_coreMap = s.coreMap := by
      first | with_reducible exact fun _ => rfl | exact fun k => (To.clash (i := 8) (To.sub (by assumption) (by decide)) k).elim)
    (h_fuses : T.testBit 9 = false → x_fuses = s.fuses := by
      first | with_reducible exact fun _ => rfl | exact fun k => (To.clash (i := 9) (To.sub (by assumption) (by decide)) k).elim)
    (h_freeCtr : T.testBit 10 = false → x_freeCtr = s.freeCtr := by
      first | with_reducible exact fun _ => rfl | exact fun k => (To.clash (i := 10) (To.sub (by assumption) (by decide)) k).elim)
    (h_rdOut : T.testBit 11 = false → x_rdOut = s.rdOut := by
      first | with_reducible exact fun _ => rfl | exact fun k => (To.clash (i := 11) (To.sub (by assumption) (by decide)) k).elim)
    (h_arrived : T.testBit 12 = false → x_arrived = s.arrived := by
      first | with_reducible exact fun _ => rfl | exact fun k => (To.clash (i := 12) (To.sub (by assumption) (by decide)) k).elim)
    (h_usTick : T.testBit 13 = false → x_usTick = s.usTick := by
      first | with_reducible exact fun _ => rfl | exact fun k => (To.clash (i := 13) (To.sub (by assumption) (by decide)) k).elim)
    (h_time : T.testBit 14 = false → x_time = s.time := by
      first | with_reducible exact fun _ => rfl | exact fun k => (To.clash (i := 14) (To.sub (by assumption) (by decide)) k).elim)
    (h_disp : T.testBit 15 = false → x_disp = s.disp := by
      first | with_reducible exact fun _ => rfl | exact fun k => (To.clash (i := 15) (To.sub (by assumption) (by decide)) k).elim)
    (h_fab : T.testBit 16 = false → x_fab = s.fab := by
      first | with_reducible exact fun _ => rfl | exact fun k => (To.clash (i := 16) (To.sub (by assumption) (by decide)) k).elim)
    (h_memc : T.testBit 17 = false → x_memc = s.memc := by
      first | with_reducible exact fun _ => rfl | exact fun k => (To.clash (i := 17) (To.sub (by assumption) (by decide)) k).elim)
    (h_pwr : T.testBit 18 = false → x_pwr = s.pwr := by
      first | with_reducible exact fun _ => rfl | exact fun k => (To.clash (i := 18) (To.sub (by assumption) (by decide)) k).elim)
    (h_clk : T.testBit 19 = false → x_clk = s.clk := by
      first | with_reducible exact fun _ => rfl | exact fun k => (To.clash (i := 19) (To.sub (by assumption) (by decide)) k).elim)
    (h_evt : T.testBit 20 = false → x_evt = s.evt := by
      first | with_reducible exact fun _ => rfl | exact fun k => (To.clash (i := 20) (To.sub (by assumption) (by decide)) k).elim)
    (h_links : T.testBit 21 = false → x_links = s.links := by
      first | with_reducible exact fun _ => rfl | exact fun k => (To.clash (i := 21) (To.sub (by assumption) (by decide)) k).elim)
    (h_lemc : T.testBit 22 = false → x_lemc = s.lemc := by
      first | with_reducible exact fun _ => rfl | exact fun k => (To.clash (i := 22) (To.sub (by assumption) (by decide)) k).elim)
    (h_chains : T.testBit 23 = false → x_chains = s.chains := by
      first | with_reducible exact fun _ => rfl | exact fun k => (To.clash (i := 23) (To.sub (by assumption) (by decide)) k).elim)
    (h_subs : T.testBit 24 = false → x_subs = s.subs := by
      first | with_reducible exact fun _ => rfl | exact fun k => (To.clash (i := 24) (To.sub (by assumption) (by decide)) k).elim)
    (h_dfe : T.testBit 25 = false → x_dfe = s.dfe := by
      first | with_reducible exact fun _ => rfl | exact fun k => (To.clash (i := 25) (To.sub (by assumption) (by decide)) k).elim)
    (h_ofdm : T.testBit 26 = false → x_ofdm = s.ofdm := by
      first | with_reducible exact fun _ => rfl | exact fun k => (To.clash (i := 26) (To.sub (by assumption) (by decide)) k).elim)
    (h_fec : T.testBit 27 = false → x_fec = s.fec := by
      first | with_reducible exact fun _ => rfl | exact fun k => (To.clash (i := 27) (To.sub (by assumption) (by decide)) k).elim)
    (h_prism : T.testBit 28 = false → x_prism = s.prism := by
      first | with_reducible exact fun _ => rfl | exact fun k => (To.clash (i := 28) (To.sub (by assumption) (by decide)) k).elim)
    (h_cal : T.testBit 29 = false → x_cal = s.cal := by
      first | with_reducible exact fun _ => rfl | exact fun k => (To.clash (i := 29) (To.sub (by assumption) (by decide)) k).elim)
    (h_spareJobs : T.testBit 30 = false → x_spareJobs = s.spareJobs := by
      first | with_reducible exact fun _ => rfl | exact fun k => (To.clash (i := 30) (To.sub (by assumption) (by decide)) k).elim)
    (h_cores : T.testBit 31 = false → x_cores = s.cores := by
      first | with_reducible exact fun _ => rfl | exact fun k => (To.clash (i := 31) (To.sub (by assumption) (by decide)) k).elim)
    (h_mxc : T.testBit 32 = false → x_mxc = s.mxc := by
      first | with_reducible exact fun _ => rfl | exact fun k => (To.clash (i := 32) (To.sub (by assumption) (by decide)) k).elim)
    (h_mxCtx : T.testBit 33 = false → x_mxCtx = s.mxCtx := by
      first | with_reducible exact fun _ => rfl | exact fun k => (To.clash (i := 33) (To.sub (by assumption) (by decide)) k).elim)
    (h_dma : T.testBit 34 = false → x_dma = s.dma := by
      first | with_reducible exact fun _ => rfl | exact fun k => (To.clash (i := 34) (To.sub (by assumption) (by decide)) k).elim)
    (h_dmaEng : T.testBit 35 = false → x_dmaEng = s.dmaEng := by
      first | with_reducible exact fun _ => rfl | exact fun k => (To.clash (i := 35) (To.sub (by assumption) (by decide)) k).elim)
    (h_lanes : T.testBit 36 = false → x_lanes = s.lanes := by
      first | with_reducible exact fun _ => rfl | exact fun k => (To.clash (i := 36) (To.sub (by assumption) (by decide)) k).elim)
    (h_cuw : T.testBit 37 = false → x_cuw = s.cuw := by
      first | with_reducible exact fun _ => rfl | exact fun k => (To.clash (i := 37) (To.sub (by assumption) (by decide)) k).elim)
    (h_pkt : T.testBit 38 = false → x_pkt = s.pkt := by
      first | with_reducible exact fun _ => rfl | exact fun k => (To.clash (i := 38) (To.sub (by assumption) (by decide)) k).elim)
    (h_tm : T.testBit 39 = false → x_tm = s.tm := by
      first | with_reducible exact fun _ => rfl | exact fun k => (To.clash (i := 39) (To.sub (by assumption) (by decide)) k).elim)
    (h_pcie : T.testBit 40 = false → x_pcie = s.pcie := by
      first | with_reducible exact fun _ => rfl | exact fun k => (To.clash (i := 40) (To.sub (by assumption) (by decide)) k).elim)
    (h_phys : T.testBit 41 = false → x_phys = s.phys := by
      first | with_reducible exact fun _ => rfl | exact fun k => (To.clash (i := 41) (To.sub (by assumption) (by decide)) k).elim)
    (h_fapi : T.testBit 42 = false → x_fapi = s.fapi := by
      first | with_reducible exact fun _ => rfl | exact fun k => (To.clash (i := 42) (To.sub (by assumption) (by decide)) k).elim)
    (h_boot : T.testBit 43 = false → x_boot = s.boot := by
      first | with_reducible exact fun _ => rfl | exact fun k => (To.clash (i := 43) (To.sub (by assumption) (by decide)) k).elim)
    (h_unowned : T.testBit 44 = false → x_unowned = s.unowned := by
      first | with_reducible exact fun _ => rfl | exact fun k => (To.clash (i := 44) (To.sub (by assumption) (by decide)) k).elim)
    (k_mem : Sound s → Memory.wf x_mem = true := by
      first | exact fun k => k.mem | exact fun k => kwf_kset _ _ _ _ k.mem | exact fun k => kwf_filter _ _ _ k.mem)
    (k_hostMem : Sound s → Memory.wf x_hostMem = true := by
      first | exact fun k => k.hostMem | exact fun k => kwf_kset _ _ _ _ k.hostMem | exact fun k => kwf_filter _ _ _ k.hostMem)
    (k_regs : Sound s → kup x_regs = true := by
      first | exact fun k => k.regs | exact fun k => kup_kset _ _ _ _ k.regs | exact fun k => kup_filter _ _ k.regs)
    (k_cnt : Sound s → kup x_cnt = true := by
      first | exact fun k => k.cnt | exact fun k => kup_kset _ _ _ _ k.cnt | exact fun k => kup_filter _ _ k.cnt)
    (k_memErr : Sound s → kup x_memErr = true := by
      first | exact fun k => k.memErr | exact fun k => kup_kset _ _ _ _ k.memErr | exact fun k => kup_filter _ _ k.memErr)
    (k_holdRd : Sound s → kup x_holdRd = true := by
      first | exact fun k => k.holdRd | exact fun k => kup_kset _ _ _ _ k.holdRd | exact fun k => kup_filter _ _ k.holdRd)
    (k_holdWr : Sound s → kup x_holdWr = true := by
      first | exact fun k => k.holdWr | exact fun k => kup_kset _ _ _ _ k.holdWr | exact fun k => kup_filter _ _ k.holdWr)
    (k_coreMap : Sound s → kup x_coreMap = true := by
      first | exact fun k => k.coreMap | exact fun k => kup_kset _ _ _ _ k.coreMap | exact fun k => kup_filter _ _ k.coreMap)
    (k_fuses : fusesGrow s.fuses x_fuses := by exact fusesGrow.refl _)
    : To T s0 ⟨x_pending, x_regs, x_holdRd, x_holdWr, x_cnt, x_mem, x_memErr, x_hostMem, x_coreMap, x_fuses, x_freeCtr, x_rdOut, x_arrived, x_usTick, x_time, x_disp, x_fab, x_memc, x_pwr, x_clk, x_evt, x_links, x_lemc, x_chains, x_subs, x_dfe, x_ofdm, x_fec, x_prism, x_cal, x_spareJobs, x_cores, x_mxc, x_mxCtx, x_dma, x_dmaEng, x_lanes, x_cuw, x_pkt, x_tm, x_pcie, x_phys, x_fapi, x_boot, x_unowned⟩ :=
  { sound := fun k => ⟨k_mem (h.sound k), k_hostMem (h.sound k), k_regs (h.sound k), k_cnt (h.sound k), k_memErr (h.sound k), k_holdRd (h.sound k), k_holdWr (h.sound k), k_coreMap (h.sound k)⟩
    fused := h.fused.trans k_fuses
    pending := fun k => (h_pending k).trans (h.pending k)
    regs := fun k => (h_regs k).trans (h.regs k)
    holdRd := fun k => (h_holdRd k).trans (h.holdRd k)
    holdWr := fun k => (h_holdWr k).trans (h.holdWr k)
    cnt := fun k => (h_cnt k).trans (h.cnt k)
    mem := fun k => (h_mem k).trans (h.mem k)
    memErr := fun k => (h_memErr k).trans (h.memErr k)
    hostMem := fun k => (h_hostMem k).trans (h.hostMem k)
    coreMap := fun k => (h_coreMap k).trans (h.coreMap k)
    fuses := fun k => (h_fuses k).trans (h.fuses k)
    freeCtr := fun k => (h_freeCtr k).trans (h.freeCtr k)
    rdOut := fun k => (h_rdOut k).trans (h.rdOut k)
    arrived := fun k => (h_arrived k).trans (h.arrived k)
    usTick := fun k => (h_usTick k).trans (h.usTick k)
    time := fun k => (h_time k).trans (h.time k)
    disp := fun k => (h_disp k).trans (h.disp k)
    fab := fun k => (h_fab k).trans (h.fab k)
    memc := fun k => (h_memc k).trans (h.memc k)
    pwr := fun k => (h_pwr k).trans (h.pwr k)
    clk := fun k => (h_clk k).trans (h.clk k)
    evt := fun k => (h_evt k).trans (h.evt k)
    links := fun k => (h_links k).trans (h.links k)
    lemc := fun k => (h_lemc k).trans (h.lemc k)
    chains := fun k => (h_chains k).trans (h.chains k)
    subs := fun k => (h_subs k).trans (h.subs k)
    dfe := fun k => (h_dfe k).trans (h.dfe k)
    ofdm := fun k => (h_ofdm k).trans (h.ofdm k)
    fec := fun k => (h_fec k).trans (h.fec k)
    prism := fun k => (h_prism k).trans (h.prism k)
    cal := fun k => (h_cal k).trans (h.cal k)
    spareJobs := fun k => (h_spareJobs k).trans (h.spareJobs k)
    cores := fun k => (h_cores k).trans (h.cores k)
    mxc := fun k => (h_mxc k).trans (h.mxc k)
    mxCtx := fun k => (h_mxCtx k).trans (h.mxCtx k)
    dma := fun k => (h_dma k).trans (h.dma k)
    dmaEng := fun k => (h_dmaEng k).trans (h.dmaEng k)
    lanes := fun k => (h_lanes k).trans (h.lanes k)
    cuw := fun k => (h_cuw k).trans (h.cuw k)
    pkt := fun k => (h_pkt k).trans (h.pkt k)
    tm := fun k => (h_tm k).trans (h.tm k)
    pcie := fun k => (h_pcie k).trans (h.pcie k)
    phys := fun k => (h_phys k).trans (h.phys k)
    fapi := fun k => (h_fapi k).trans (h.fapi k)
    boot := fun k => (h_boot k).trans (h.boot k)
    unowned := fun k => (h_unowned k).trans (h.unowned k)
  }

/-- What an outcome's next state comes from. -/
def Out (T : Nat) (s0 : State) (o : Host.Outcome State Fault Refusal) : Prop := ∀ t, o = .next t → To T s0 t

/-- A next state. -/
theorem Out.next (h : To T s0 s) : Out T s0 (.next s) := fun _ e => by cases e; exact h

/-- What the state in an optional pair comes from. -/
def Opt (T : Nat) (s0 : State) {α : Type} (o : Option (State × α)) : Prop := ∀ r, o = some r → To T s0 r.1

/-- An optional pair that is there. -/
theorem Opt.some {α : Type} {p : State × α} (h : To T s0 p.1) : Opt T s0 (some p) := fun _ e => by cases e; exact h

/-- An optional pair that is not there. -/
theorem Opt.none {α : Type} : Opt T s0 (none : Option (State × α)) := fun _ e => nomatch e

/-- What an optional state comes from. -/
def Ops (T : Nat) (s0 : State) (o : Option State) : Prop := ∀ r, o = some r → To T s0 r

/-- An optional state that is there. -/
theorem Ops.some (h : To T s0 s) : Ops T s0 (some s) := fun _ e => by cases e; exact h

/-- An optional state that is not there. -/
theorem Ops.none : Ops T s0 (none : Option State) := fun _ e => nomatch e

/-- An optional pair that is known. -/
theorem Opt.get {α : Type} {o : Option (State × α)} {a : α} (e : o = .some (s, a)) (h : Opt T s0 o) : To T s0 s := h _ e

/-- An optional state that is known. -/
theorem Ops.get {o : Option State} (e : o = .some s) (h : Ops T s0 o) : To T s0 s := h _ e

/-- An optional pair that is known. -/
def Opt2 (T : Nat) (s0 : State) {α : Type} (o : Option (α × State)) : Prop := ∀ r, o = .some r → To T s0 r.2

/-- An optional pair that is there. -/
theorem Opt2.some {α : Type} {p : α × State} (h : To T s0 p.2) : Opt2 T s0 (.some p) := fun _ e => by cases e; exact h

/-- An optional pair that is not there. -/
theorem Opt2.none {α : Type} : Opt2 T s0 (.none : Option (α × State)) := fun _ e => nomatch e

/-- An optional pair that is known. -/
theorem Opt2.get {α : Type} {o : Option (α × State)} {a : α} (e : o = .some (a, s)) (h : Opt2 T s0 o) : To T s0 s := h _ e

/-- The first part of a pair that is known and holds a state. -/
theorem To.fstOf {α β : Type} (g : β → State) {p : β × α} {b : β} {a : α} (e : p = (b, a)) (h : To T s0 (g p.1)) : To T s0 (g b) := by
  rw [e] at h; exact h

/-- A fold of what holds a state. -/
theorem To.foldlOf {α β : Type} (g : β → State) {f : β → α → β} (l : List α) (hf : ∀ b x, To T s0 (g b) → To T s0 (g (f b x)))
    {b : β} (h : To T s0 (g b)) : To T s0 (g (l.foldl f b)) := by
  induction l generalizing b with
  | nil => exact h
  | cons x l ih => exact ih (hf b x h)

/-- The state a working leaves. -/
def resState {ε α : Type} : EStateM.Result ε State α → State
  | .ok _ s => s
  | .error _ s => s

/-- What a working's state comes from. -/
structure Rd (T : Nat) {α : Type} (m : EStateM OpErr State α) : Prop where
  run : ∀ s0 s, To T s0 s → To T s0 (resState (m s))

variable {α β : Type}

/-- A value changes nothing. -/
theorem Rd.pure (a : α) : Rd T (Pure.pure a : EStateM OpErr State α) := ⟨fun _ _ h => h⟩

/-- A failure changes nothing. -/
theorem Rd.throw (e : OpErr) : Rd T (MonadExcept.throw e : EStateM OpErr State α) := ⟨fun _ _ h => h⟩

/-- Two workings in order. -/
theorem Rd.bind {m : EStateM OpErr State α} {f : α → EStateM OpErr State β} (hm : Rd T m) (hf : ∀ a, Rd T (f a)) : Rd T (m >>= f) := by
  constructor
  intro s0 s h
  have := hm.run s0 s h
  show To T s0 (resState (EStateM.bind m f s))
  unfold EStateM.bind
  cases e : m s with
  | ok a t => rw [e] at this; exact (hf a).run s0 t this
  | error a t => rw [e] at this; exact this

/-- A working for each element. -/
theorem Rd.mapM {f : α → EStateM OpErr State β} (l : List α) (hf : ∀ a, Rd T (f a)) : Rd T (l.mapM f) := by
  induction l with
  | nil => exact Rd.pure _
  | cons a l ih =>
    rw [List.mapM_cons]
    exact Rd.bind (hf a) fun _ => Rd.bind ih fun _ => Rd.pure _

/-- The state after a working that ends well. -/
theorem Rd.ok {m : EStateM OpErr State α} {s t : State} {a : α} (e : m s = .ok a t) (hm : Rd T m) (h : To T s0 s) : To T s0 t := by
  have := hm.run s0 s h; rw [e] at this; exact this

/-- The state after a working that fails. -/
theorem Rd.error {m : EStateM OpErr State α} {s t : State} {a : OpErr} (e : m s = .error a t) (hm : Rd T m) (h : To T s0 s) :
    To T s0 t := by
  have := hm.run s0 s h; rw [e] at this; exact this

end Sys2Proof.Machine
end

