-- ==== Sys2Proof/Laws/ToOps.lean ====
section
/-! SUPPORT. The frames of the operations and meanings of Ops: what each may change. -/

namespace Sys2Proof.Machine

variable {T : Nat} {s0 : State}

theorem setRegI_to {s : State} {p : Nat} {off : Nat} {i : Nat} {v : Word} (hT : T ||| 2 = T) (hS : To T s0 s) :
    To T s0 (setRegI s p off i v) := by
  unfold setRegI
  repeat' (first | (with_reducible first | assumption | refine To.ite ?_ ?_) | exact To.sub hT (by decide) | refine To.fst (by assumption) ?_ | refine To.snd (by assumption) ?_ | split | with_reducible first | refine To.set_regs ?_ ?_ ?_ | exact kup_kset _ _ _ _ | exact kup_filter _ _)

theorem setReg_to {s : State} {p : Nat} {off : Nat} {v : Word} (hT : T ||| 2 = T) (hS : To T s0 s) :
    To T s0 (setReg s p off v) := by
  unfold setReg
  repeat' (first | (with_reducible first | assumption | refine To.ite ?_ ?_ | refine setRegI_to ?_ ?_) | exact To.sub hT (by decide) | refine To.fst (by assumption) ?_ | refine To.snd (by assumption) ?_ | split)

theorem modReg_to {s : State} {p : Nat} {off : Nat} {f : Word → Word} (hT : T ||| 2 = T) (hS : To T s0 s) :
    To T s0 (modReg s p off f) := by
  unfold modReg
  repeat' (first | (with_reducible first | assumption | refine To.ite ?_ ?_ | refine setReg_to ?_ ?_) | exact To.sub hT (by decide) | refine To.fst (by assumption) ?_ | refine To.snd (by assumption) ?_ | split)

theorem setPair_to {s : State} {p : Nat} {off : Nat} {n : Nat} (hT : T ||| 2 = T) (hS : To T s0 s) :
    To T s0 (setPair s p off n) := by
  unfold setPair
  repeat' (first | (with_reducible first | assumption | refine To.ite ?_ ?_ | refine setReg_to ?_ ?_) | exact To.sub hT (by decide) | refine To.fst (by assumption) ?_ | refine To.snd (by assumption) ?_ | split)

theorem addCnt_to {s : State} {p : Nat} {i : Nat} {n : Nat} (hT : T ||| 16 = T) (hS : To T s0 s) :
    To T s0 (addCnt s p i n) := by
  unfold addCnt
  repeat' (first | (with_reducible first | assumption | refine To.ite ?_ ?_) | exact To.sub hT (by decide) | refine To.fst (by assumption) ?_ | refine To.snd (by assumption) ?_ | split | with_reducible first | refine To.set_cnt ?_ ?_ ?_ | exact kup_kset _ _ _ _ | exact kup_filter _ _)

theorem incCnt_to {s : State} {p : Nat} {i : Nat} (hT : T ||| 16 = T) (hS : To T s0 s) :
    To T s0 (incCnt s p i) := by
  unfold incCnt
  repeat' (first | (with_reducible first | assumption | refine To.ite ?_ ?_ | refine addCnt_to ?_ ?_) | exact To.sub hT (by decide) | refine To.fst (by assumption) ?_ | refine To.snd (by assumption) ?_ | split)

theorem takeFree_to {s : State} {w : Nat} (hT : T ||| 1024 = T) (hS : To T s0 s) :
    To T s0 (takeFree w s).2 := by
  unfold takeFree
  repeat' (first | (with_reducible first | assumption | refine To.ite ?_ ?_) | exact To.sub hT (by decide) | refine To.fst (by assumption) ?_ | refine To.snd (by assumption) ?_ | split | with_reducible first | refine To.set_freeCtr ?_ ?_)

theorem setByte_to {s : State} {a : Nat} {b : Byte} (hT : T ||| 32 = T) (hS : To T s0 s) :
    To T s0 (setByte s a b) := by
  unfold setByte
  repeat' (first | (with_reducible first | assumption | refine To.ite ?_ ?_) | exact To.sub hT (by decide) | exact kwf_kset _ _ _ _ | exact kwf_filter _ _ _ | refine To.fst (by assumption) ?_ | refine To.snd (by assumption) ?_ | split | with_reducible first | refine To.set_mem ?_ ?_ ?_)

theorem setBytes_to {s : State} {a : Nat} {y2 : List Byte} (hT : T ||| 32 = T) (hS : To T s0 s) :
    To T s0 (setBytes s a y2) := by
  induction y2 generalizing s a with
  | nil => exact hS
  | cons b bs ih => exact ih (setByte_to hT hS)

theorem setMark_to {s : State} {a : Nat} {k : Mark} (hT : T ||| 64 = T) (hS : To T s0 s) :
    To T s0 (setMark s a k) := by
  unfold setMark
  repeat' (first | (with_reducible first | assumption | refine To.ite ?_ ?_) | exact To.sub hT (by decide) | refine To.fst (by assumption) ?_ | refine To.snd (by assumption) ?_ | split | with_reducible first | refine To.set_memErr ?_ ?_ ?_ | exact kup_kset _ _ _ _ | exact kup_filter _ _)

theorem setHostBytes_to {s : State} {a : Nat} {y2 : List Byte} (hT : T ||| 128 = T) (hS : To T s0 s) :
    To T s0 (setHostBytes s a y2) := by
  induction y2 generalizing s a with
  | nil => exact hS
  | cons b bs ih => exact ih (To.set_hostMem hT hS fun k => kwf_kset _ _ _ _ k)

end Sys2Proof.Machine
end

