-- ==== Sys2Proof/Laws/ToFlags.lean ====
section
/-! SUPPORT. The frames of the operations and meanings of Flags: what each may change. -/

namespace Sys2Proof.Machine

variable {T : Nat} {s0 : State}

theorem setEvt_to {s : State} {p : Nat} {b : Nat} (hT : T ||| 2 = T) (hS : To T s0 s) :
    To T s0 (setEvt s p b) := by
  unfold setEvt
  try dsimp -proj only
  repeat' (first | (with_reducible first | assumption | refine To.ite ?_ ?_ | refine modReg_to ?_ ?_) | exact To.sub hT (by decide) | refine To.fst (by assumption) ?_ | refine To.snd (by assumption) ?_ | split | dsimp -proj only | (intro _; intros))

theorem setEnabled_to {s : State} {p : Nat} {b : Bool} (hT : T ||| 2 = T) (hS : To T s0 s) :
    To T s0 (setEnabled s p b) := by
  unfold setEnabled
  try dsimp -proj only
  repeat' (first | (with_reducible first | assumption | refine To.ite ?_ ?_ | refine modReg_to ?_ ?_) | exact To.sub hT (by decide) | refine To.fst (by assumption) ?_ | refine To.snd (by assumption) ?_ | split | dsimp -proj only | (intro _; intros))

theorem storeErr_to {s : State} {p : Nat} {e : Err} {ovf : Bool} (hT : T ||| 2 = T) (hS : To T s0 s) :
    To T s0 (storeErr s p e ovf) := by
  unfold storeErr
  try dsimp -proj only
  repeat' (first | (with_reducible first | assumption | refine To.ite ?_ ?_ | refine setReg_to ?_ ?_) | exact To.sub hT (by decide) | refine To.fst (by assumption) ?_ | refine To.snd (by assumption) ?_ | split | dsimp -proj only)

theorem captureOnly_to {s : State} {p : Nat} {e : Err} (hT : T ||| 2 = T) (hS : To T s0 s) :
    To T s0 (captureOnly s p e) := by
  unfold captureOnly
  try dsimp -proj only
  repeat' (first | (with_reducible first | assumption | refine To.ite ?_ ?_ | refine storeErr_to ?_ ?_ | refine setEvt_to ?_ ?_ | refine setReg_to ?_ ?_) | exact To.sub hT (by decide) | refine To.fst (by assumption) ?_ | refine To.snd (by assumption) ?_ | split | dsimp -proj only)

theorem sendReport_to {s : State} {p : Nat} {e : Err} (hT : T ||| 1048576 = T) (hS : To T s0 s) :
    To T s0 (sendReport s p e) := by
  unfold sendReport
  try dsimp -proj only
  repeat' (first | (with_reducible first | assumption | refine To.ite ?_ ?_) | exact To.sub hT (by decide) | refine To.fst (by assumption) ?_ | refine To.snd (by assumption) ?_ | split | (with_reducible first | refine To.set_evt ?_ ?_) | dsimp -proj only | (intro _; intros))

theorem captureErr_to {s : State} {p : Nat} {e : Err} (hT : T ||| 1048578 = T) (hS : To T s0 s) :
    To T s0 (captureErr s p e) := by
  unfold captureErr
  repeat' (first | (with_reducible first | assumption | refine To.ite ?_ ?_ | refine sendReport_to ?_ ?_ | refine captureOnly_to ?_ ?_) | exact To.sub hT (by decide) | refine To.fst (by assumption) ?_ | refine To.snd (by assumption) ?_ | split)

theorem ownErr_to {s : State} {p : Nat} {cls : Nat} {code : Nat} {addr : Option Nat} (hT : T ||| 1048578 = T) (hS : To T s0 s) :
    To T s0 (ownErr s p cls code addr) := by
  unfold ownErr
  repeat' (first | (with_reducible first | assumption | refine To.ite ?_ ?_ | refine captureErr_to ?_ ?_) | exact To.sub hT (by decide) | refine To.fst (by assumption) ?_ | refine To.snd (by assumption) ?_ | split)

theorem leakPage_to {s : State} {n : Nat} {p : Nat} (hT : T ||| 2 = T) (hS : To T s0 s) :
    To T s0 (leakPage n s p) := by
  unfold leakPage
  try dsimp -proj only
  repeat' (first | (with_reducible first | assumption | refine To.ite ?_ ?_ | refine setReg_to ?_ ?_) | exact To.sub hT (by decide) | refine To.fst (by assumption) ?_ | refine To.snd (by assumption) ?_ | split | dsimp -proj only)

theorem leakSt_to {s : State} (hT : T ||| 8194 = T) (hS : To T s0 s) :
    To T s0 (leakSt s) := by
  unfold leakSt
  try dsimp -proj only
  repeat' (first | (with_reducible first | assumption | refine To.ite ?_ ?_ | refine leakPage_to ?_ ?_ | refine To.foldl _ (fun _ _ _ => ?_) ?_ | refine To.foldl_fst _ (fun _ _ _ => ?_) ?_) | exact To.sub hT (by decide) | refine To.fst (by assumption) ?_ | refine To.snd (by assumption) ?_ | split | (with_reducible first | refine To.set_usTick ?_ ?_) | dsimp -proj only)

theorem leakDue_to {s : State} (hT : T ||| 8194 = T) (hS : To T s0 s) :
    To T s0 (leakDue s) := by
  unfold leakDue
  try dsimp -proj only
  repeat' (first | (with_reducible first | assumption | refine To.ite ?_ ?_ | refine leakSt_to ?_ ?_ | refine To.foldl _ (fun _ _ _ => ?_) ?_ | refine To.foldl_fst _ (fun _ _ _ => ?_) ?_) | exact To.sub hT (by decide) | refine To.fst (by assumption) ?_ | refine To.snd (by assumption) ?_ | split | dsimp -proj only | (intro _; intros))

theorem countCe_to {s : State} {p : Nat} (hT : T ||| 8194 = T) (hS : To T s0 s) :
    To T s0 (countCe s p) := by
  unfold countCe
  try dsimp -proj only
  repeat' (first | (with_reducible first | assumption | refine To.ite ?_ ?_ | refine leakDue_to ?_ ?_ | refine setReg_to ?_ ?_ | refine setEvt_to ?_ ?_) | exact To.sub hT (by decide) | refine To.fst (by assumption) ?_ | refine To.snd (by assumption) ?_ | split | dsimp -proj only)

theorem setPd_to {s : State} {d : Nat} {r : PdRec} (hT : T ||| 262144 = T) (hS : To T s0 s) :
    To T s0 (setPd s d r) := by
  unfold setPd
  repeat' (first | (with_reducible first | assumption | refine To.ite ?_ ?_) | exact To.sub hT (by decide) | refine To.fst (by assumption) ?_ | refine To.snd (by assumption) ?_ | split | with_reducible first | refine To.set_pwr ?_ ?_)

theorem whileRuns_to {s : State} {p : Nat} {f : State → State} (_ : T ||| 0 = T) (hS : To T s0 s) (hf : ∀  s, To T s0 s → To T s0 (f  s)) :
    To T s0 (whileRuns p f s) := by
  unfold whileRuns
  repeat' (first | (with_reducible first | assumption | refine To.ite ?_ ?_ | refine hf _ ?_) | exact To.sub hT (by decide) | refine To.fst (by assumption) ?_ | refine To.snd (by assumption) ?_ | split | (intro _; intros))

theorem offAccess_to {s : State} {src : Nat} {addr : Nat} (hT : T ||| 1048594 = T) (hS : To T s0 s) :
    To T s0 (offAccess s src addr) := by
  unfold offAccess
  repeat' (first | (with_reducible first | assumption | refine To.ite ?_ ?_ | refine incCnt_to ?_ ?_ | refine captureErr_to ?_ ?_ | refine setEvt_to ?_ ?_) | exact To.sub hT (by decide) | refine To.fst (by assumption) ?_ | refine To.snd (by assumption) ?_ | split)

theorem decodeErr_to {s : State} {src : Nat} {addr : Nat} (hT : T ||| 1048578 = T) (hS : To T s0 s) :
    To T s0 (decodeErr s src addr) := by
  unfold decodeErr
  repeat' (first | (with_reducible first | assumption | refine To.ite ?_ ?_ | refine captureErr_to ?_ ?_) | exact To.sub hT (by decide) | refine To.fst (by assumption) ?_ | refine To.snd (by assumption) ?_ | split)

theorem sendTok_to {s : State} {p : Nat} {cls : Nat} {t : Token} (hT : T ||| 65536 = T) (hS : To T s0 s) :
    To T s0 (sendTok s p cls t) := by
  unfold sendTok
  repeat' (first | (with_reducible first | assumption | refine To.ite ?_ ?_) | exact To.sub hT (by decide) | refine To.fst (by assumption) ?_ | refine To.snd (by assumption) ?_ | split | with_reducible first | refine To.set_fab ?_ ?_)

theorem complete_to {s : State} {p : Nat} {f : FireRec} {err : Bool} {payload : Dword} (hT : T ||| 65536 = T) (hS : To T s0 s) :
    To T s0 (complete s p f err payload) := by
  unfold complete
  repeat' (first | (with_reducible first | assumption | refine To.ite ?_ ?_ | refine sendTok_to ?_ ?_) | exact To.sub hT (by decide) | refine To.fst (by assumption) ?_ | refine To.snd (by assumption) ?_ | split)

theorem failFire_to {s : State} {p : Nat} {f : FireRec} {c : Nat} (hT : T ||| 65536 = T) (hS : To T s0 s) :
    To T s0 (failFire s p f c) := by
  unfold failFire
  repeat' (first | (with_reducible first | assumption | refine To.ite ?_ ?_ | refine complete_to ?_ ?_) | exact To.sub hT (by decide) | refine To.fst (by assumption) ?_ | refine To.snd (by assumption) ?_ | split)

theorem takeArrived_to {s : State} {f : FireRec} (hT : T ||| 4096 = T) (hS : To T s0 s) :
    To T s0 (takeArrived s f) := by
  unfold takeArrived
  try dsimp -proj only
  repeat' (first | (with_reducible first | assumption | refine To.ite ?_ ?_) | exact To.sub hT (by decide) | refine To.fst (by assumption) ?_ | refine To.snd (by assumption) ?_ | split | (with_reducible first | refine To.set_arrived ?_ ?_) | dsimp -proj only | (intro _; intros))

end Sys2Proof.Machine
end

