-- ==== Sys2Proof/Laws/ToBus.lean ====
section
/-! SUPPORT. The frames of the operations and meanings of Bus: what each may change. -/

namespace Sys2Proof.Machine

variable {T : Nat} {s0 : State}

theorem bankAccess_to {s : State} {ch : Nat} {ca : Nat} (hT : T ||| 131088 = T) (hS : To T s0 s) :
    To T s0 (bankAccess s ch ca) := by
  unfold bankAccess
  try dsimp -proj only
  repeat' (first | (with_reducible first | assumption | refine To.ite ?_ ?_ | refine incCnt_to ?_ ?_) | exact To.sub hT (by decide) | refine To.fst (by assumption) ?_ | refine To.snd (by assumption) ?_ | split | (with_reducible first | refine To.set_memc ?_ ?_) | dsimp -proj only)

theorem readArrayWord_to {s : State} {origin : Nat} {k : Nat} (hT : T ||| 1056850 = T) (hS : To T s0 s) :
    To T s0 (readArrayWord origin k s).1 := by
  unfold readArrayWord
  try dsimp -proj only
  repeat' (first | (with_reducible first | assumption | refine To.ite ?_ ?_ | refine countCe_to ?_ ?_ | refine captureErr_to ?_ ?_ | refine setMark_to ?_ ?_ | refine incCnt_to ?_ ?_) | exact To.sub hT (by decide) | refine To.fst (by assumption) ?_ | refine To.snd (by assumption) ?_ | split | dsimp -proj only)

theorem readArrays_to {s : State} {k : Nat} {n : Nat} (hT : T ||| 1056850 = T) (hS : To T s0 s) :
    To T s0 (readArrays s k n).1 := by
  unfold readArrays
  try dsimp -proj only
  repeat' (first | (with_reducible first | assumption | refine To.ite ?_ ?_ | refine readArrayWord_to ?_ ?_ | refine To.foldl _ (fun _ _ _ => ?_) ?_ | refine To.foldl_fst _ (fun _ _ _ => ?_) ?_) | exact To.sub hT (by decide) | refine To.fst (by assumption) ?_ | refine To.snd (by assumption) ?_ | split | dsimp -proj only | (intro _; intros))

theorem readDramBlock_to {s : State} {b : Nat} (hT : T ||| 1187922 = T) (hS : To T s0 s) :
    To T s0 (readDramBlock b s).1 := by
  unfold readDramBlock
  try dsimp -proj only
  repeat' (first | (with_reducible first | assumption | refine To.ite ?_ ?_ | refine incCnt_to ?_ ?_ | refine bankAccess_to ?_ ?_ | refine countCe_to ?_ ?_ | refine captureErr_to ?_ ?_ | refine setMark_to ?_ ?_ | refine setReg_to ?_ ?_) | exact To.sub hT (by decide) | refine To.fst (by assumption) ?_ | refine To.snd (by assumption) ?_ | split | dsimp -proj only)

theorem memBlocked_to {s : State} {src : Nat} {a : Nat} {n : Nat} (hT : T ||| 1048594 = T) (hS : To T s0 s) :
    Opt T s0 (memBlocked s src a n) := by
  unfold memBlocked
  try dsimp -proj only
  repeat' (first | (with_reducible first | assumption | refine To.ite ?_ ?_ | refine decodeErr_to ?_ ?_ | refine captureErr_to ?_ ?_ | refine incCnt_to ?_ ?_ | refine setEvt_to ?_ ?_ | refine offAccess_to ?_ ?_ | refine Opt.some ?_ | exact Opt.none) | exact To.sub hT (by decide) | refine To.fst (by assumption) ?_ | refine To.snd (by assumption) ?_ | split | dsimp -proj only)

theorem memRead_to {s : State} {src : Nat} {a : Nat} {n : Nat} (hT : T ||| 1187922 = T) (hS : To T s0 s) :
    To T s0 (memRead s src a n).1 := by
  unfold memRead
  try dsimp -proj only
  repeat' (first | (with_reducible first | assumption | refine To.ite ?_ ?_ | refine Opt.get (by assumption) ?_ | refine memBlocked_to ?_ ?_ | refine readDramBlock_to ?_ ?_ | refine readArrays_to ?_ ?_ | refine incCnt_to ?_ ?_ | refine To.foldl _ (fun _ _ _ => ?_) ?_ | refine To.foldl_fst _ (fun _ _ _ => ?_) ?_) | exact To.sub hT (by decide) | refine To.fst (by assumption) ?_ | refine To.snd (by assumption) ?_ | split | dsimp -proj only | (intro _; intros))

theorem putBytes_to {s : State} {k : Nat} {y2 : List (Option Byte)} (hT : T ||| 32 = T) (hS : To T s0 s) :
    To T s0 (putBytes s k y2) := by
  induction y2 generalizing s k with
  | nil => exact hS
  | cons b bs ih =>
    cases b with
    | none => exact ih hS
    | some b => exact ih (setByte_to hT hS)

theorem writeArrayWord_to {s : State} {k : Nat} {data : List (Option Byte)} {b : Nat} (hT : T ||| 1056882 = T) (hS : To T s0 s) :
    To T s0 (writeArrayWord k data b s).1 := by
  unfold writeArrayWord
  try dsimp -proj only
  repeat' (first | (with_reducible first | assumption | refine To.ite ?_ ?_ | refine setMark_to ?_ ?_ | refine putBytes_to ?_ ?_ | refine captureErr_to ?_ ?_ | refine incCnt_to ?_ ?_ | refine countCe_to ?_ ?_) | exact To.sub hT (by decide) | refine To.fst (by assumption) ?_ | refine To.snd (by assumption) ?_ | split | dsimp -proj only)

theorem writeDramBlock_to {s : State} {k : Nat} {data : List (Option Byte)} {b : Nat} (hT : T ||| 1187954 = T) (hS : To T s0 s) :
    To T s0 (writeDramBlock k data b s).1 := by
  unfold writeDramBlock
  try dsimp -proj only
  repeat' (first | (with_reducible first | assumption | refine To.ite ?_ ?_ | refine bankAccess_to ?_ ?_ | refine incCnt_to ?_ ?_ | refine setMark_to ?_ ?_ | refine putBytes_to ?_ ?_ | refine captureErr_to ?_ ?_ | refine countCe_to ?_ ?_) | exact To.sub hT (by decide) | refine To.fst (by assumption) ?_ | refine To.snd (by assumption) ?_ | split | dsimp -proj only)

theorem putHost_to {s : State} {k : Nat} {y2 : List (Option Byte)} (hT : T ||| 128 = T) (hS : To T s0 s) :
    To T s0 (putHost s k y2) := by
  induction y2 generalizing s k with
  | nil => exact hS
  | cons b bs ih =>
    cases b with
    | none => exact ih hS
    | some b => exact ih (To.set_hostMem hT hS fun k => kwf_kset _ _ _ _ k)

theorem postPageWrite_to {s : State} {src : Nat} {a : Nat} {data : List (Option Byte)} (hT : T ||| 65536 = T) (hS : To T s0 s) :
    To T s0 (postPageWrite s src a data) := by
  unfold postPageWrite
  try dsimp -proj only
  repeat' (first | (with_reducible first | assumption | refine To.ite ?_ ?_) | exact To.sub hT (by decide) | refine To.fst (by assumption) ?_ | refine To.snd (by assumption) ?_ | split | (with_reducible first | refine To.set_fab ?_ ?_) | dsimp -proj only)

theorem memWriteEn_to {s : State} {src : Nat} {a : Nat} {data : List (Option Byte)} (hT : T ||| 1253618 = T) (hS : To T s0 s) :
    To T s0 (memWriteEn s src a data).1 := by
  unfold memWriteEn
  try dsimp -proj only
  repeat' (first | (with_reducible first | assumption | refine To.ite ?_ ?_ | refine postPageWrite_to ?_ ?_ | refine Opt.get (by assumption) ?_ | refine memBlocked_to ?_ ?_ | refine writeDramBlock_to ?_ ?_ | refine putHost_to ?_ ?_ | refine writeArrayWord_to ?_ ?_ | refine incCnt_to ?_ ?_ | refine To.foldl _ (fun _ _ _ => ?_) ?_ | refine To.foldl_fst _ (fun _ _ _ => ?_) ?_) | exact To.sub hT (by decide) | refine To.fst (by assumption) ?_ | refine To.snd (by assumption) ?_ | split | dsimp -proj only | (intro _; intros))

theorem memWrite_to {s : State} {src : Nat} {a : Nat} {data : List Byte} (hT : T ||| 1253618 = T) (hS : To T s0 s) :
    To T s0 (memWrite s src a data).1 := by
  unfold memWrite
  repeat' (first | (with_reducible first | assumption | refine To.ite ?_ ?_ | refine memWriteEn_to ?_ ?_) | exact To.sub hT (by decide) | refine To.fst (by assumption) ?_ | refine To.snd (by assumption) ?_ | split)

theorem dramHold_to {s t : State} (hS : To T s0 s) (ht : To T s0 t) : To T s0 (dramHold s t) := by
  unfold dramHold
  split <;> assumption

theorem memPut_to {s : State} {src : Nat} {a : Nat} {data : List Byte} (hT : T ||| 1253618 = T) (hS : To T s0 s) :
    To T s0 (memPut s src a data) := by
  unfold memPut
  repeat' (first | (with_reducible first | assumption | refine To.ite ?_ ?_ | refine memWrite_to ?_ ?_) | exact To.sub hT (by decide) | refine To.fst (by assumption) ?_ | refine To.snd (by assumption) ?_ | split)

theorem memGet_to {s : State} {src : Nat} {a : Nat} {n : Nat} (hT : T ||| 1187922 = T) (hS : To T s0 s) :
    To T s0 (memGet s src a n).1 := by
  unfold memGet
  try dsimp -proj only
  repeat' (first | (with_reducible first | assumption | refine To.ite ?_ ?_ | refine memRead_to ?_ ?_) | exact To.sub hT (by decide) | refine To.fst (by assumption) ?_ | refine To.snd (by assumption) ?_ | split | dsimp -proj only)

end Sys2Proof.Machine
end

