-- ==== Sys2Proof/Laws/Issue.lean ====
section
/-! SUPPORT. A bundle of one instruction: how the command that ends it runs it. -/

namespace Sys2Proof.Machine

/-- A core just stored, unless it is as after reset, reads as stored. -/
theorem coreOf_setCore (s : State) (c : Nat) (x : CoreSt) (h : x ≠ CoreSt.init) : coreOf (setCore s c x) c = x :=
  kget_kset_of_ne _ _ _ _ h

/-- A core just changed, unless it is as after reset, reads as changed. -/
theorem coreOf_modCore (s : State) (c : Nat) (f : CoreSt → CoreSt) (h : f (coreOf s c) ≠ CoreSt.init) :
    coreOf (modCore s c f) c = f (coreOf s c) :=
  coreOf_setCore _ _ _ h

/-- A core that is not in reset is not as after reset. -/
theorem ne_init_of_run {x : CoreSt} (h : x.run ≠ .reset) : x ≠ CoreSt.init := fun e => h (by rw [e]; rfl)

/-- A result that lands changes neither how the core stands nor its address, bundle, delay bundles, step or cycles. -/
theorem landDest_keeps (sp : Bool) (x : CoreSt) (d : Dest) :
    (landDest sp x d).run = x.run ∧ (landDest sp x d).pc = x.pc ∧ (landDest sp x d).staged = x.staged ∧
      (landDest sp x d).step = x.step ∧ (landDest sp x d).bd = x.bd ∧ (landDest sp x d).cyc = x.cyc ∧
      (landDest sp x d).slots = x.slots := by
  cases d with
  | d i v => dsimp only [landDest]; split <;> simp
  | p i v => dsimp only [landDest]; split <;> simp
  | a i v => simp [landDest]
  | v i m v => simp [landDest]
  | acAdd i z add => simp [landDest]
  | acBits i m v => simp [landDest]
  | cr i v => simp [landDest, crWrite, setCr]

/-- The same of a list of results. -/
theorem landAll_keeps (sp : Bool) (l : List Pend) (x : CoreSt) :
    let y := l.foldl (fun x p => landDest sp x p.dest) x
    y.run = x.run ∧ y.pc = x.pc ∧ y.staged = x.staged ∧ y.step = x.step ∧ y.bd = x.bd ∧ y.cyc = x.cyc ∧ y.slots = x.slots := by
  induction l generalizing x with
  | nil => simp
  | cons p l ih =>
    obtain ⟨a, b, c, d, e, f, g⟩ := landDest_keeps sp x p.dest
    obtain ⟨a', b', c', d', e', f', g'⟩ := ih (landDest sp x p.dest)
    exact ⟨a'.trans a, b'.trans b, c'.trans c, d'.trans d, e'.trans e, f'.trans f, g'.trans g⟩

/-- The same of the results due by a cycle. -/
theorem landBy_keeps (sp : Bool) (x : CoreSt) (t : Nat) :
    (landBy sp x t).run = x.run ∧ (landBy sp x t).pc = x.pc ∧ (landBy sp x t).staged = x.staged ∧
      (landBy sp x t).step = x.step ∧ (landBy sp x t).bd = x.bd ∧ (landBy sp x t).cyc = x.cyc ∧
      (landBy sp x t).slots = x.slots :=
  landAll_keeps sp _ { x with pend := x.pend.filter fun p => !decide (p.due ≤ t) }

/-- A core that runs does so after an uncorrectable error has struck a line. -/
theorem strikeLine_core (s : State) (c : Nat) (a : Option Addr) (h : (coreOf s c).run = .running) :
    (coreOf (strikeLine s c a) c).run = .running ∧ (coreOf (strikeLine s c a) c).staged = (coreOf s c).staged := by
  cases a with
  | none => exact ⟨h, rfl⟩
  | some a =>
    unfold strikeLine
    dsimp only
    rw [coreOf_modCore _ _ _ (ne_init_of_run (by simp [h]))]
    exact ⟨h, rfl⟩

/-- A write on the bus changes no core. -/
theorem coreOf_memWriteEn (s : State) (src a c : Nat) (d : List (Option Byte)) :
    coreOf (memWriteEn s src a d).1 c = coreOf s c :=
  congrArg (kget CoreSt.init · c) ((memWriteEn_to (Nat.or_self _) (To.refl _ s)).cores (by decide))

/-- A core that runs does so, with its bundle, after an entry of its write buffer has reached memory. -/
theorem coreWriteNow_core (s : State) (c a : Nat) (d : List (Option Byte)) (h : (coreOf s c).run = .running) :
    (coreOf (coreWriteNow s c a d) c).run = .running ∧ (coreOf (coreWriteNow s c a d) c).staged = (coreOf s c).staged := by
  have k := coreOf_memWriteEn s (initPage s (coreWho s c)) a c d
  unfold coreWriteNow
  split
  · rename_i t e
    rw [e] at k
    exact ⟨by rw [k, h], by rw [k]⟩
  · rename_i t r _ e
    rw [e] at k
    unfold writeError
    dsimp only
    have k' : coreOf (ownErr (setEvt t (corePage c) 1) (corePage c) 3 0x04 (some a)) c = coreOf s c := by
      rw [← k]
      unfold coreOf
      simp
    rw [coreOf_modCore _ _ _ (ne_init_of_run (by show (coreOf _ _).run ≠ _; rw [k', h]; simp))]
    exact ⟨by rw [k', h], by rw [k']⟩

/-- The same after the oldest entry has left. -/
theorem drainOne_core (s : State) (c : Nat) (h : (coreOf s c).run = .running) :
    (coreOf (drainOne c s) c).run = .running ∧ (coreOf (drainOne c s) c).staged = (coreOf s c).staged := by
  unfold drainOne
  split
  · exact ⟨h, rfl⟩
  · rename_i e es _
    have k : coreOf (modCore s c fun x => { x with wbuf := es }) c = { coreOf s c with wbuf := es } :=
      coreOf_modCore _ _ _ (ne_init_of_run (by show (coreOf s c).run ≠ _; rw [h]; simp))
    obtain ⟨a, b⟩ := coreWriteNow_core (modCore s c fun x => { x with wbuf := es }) c
      (e.addr + (64 - (e.data.dropWhile (·.isNone)).length)) (((e.data.dropWhile (·.isNone)).reverse.dropWhile (·.isNone)).reverse)
      (by rw [k]; exact h)
    exact ⟨a, by rw [show coreOf (sendEntry c (modCore s c fun x => { x with wbuf := es }) e) c = _ from rfl]; exact b.trans (by rw [k])⟩

/-- The same after several. -/
theorem drains_core (ns : List Nat) (s : State) (c : Nat) (h : (coreOf s c).run = .running) :
    (coreOf (ns.foldl (fun s _ => drainOne c s) s) c).run = .running ∧
      (coreOf (ns.foldl (fun s _ => drainOne c s) s) c).staged = (coreOf s c).staged := by
  induction ns generalizing s with
  | nil => exact ⟨h, rfl⟩
  | cons n ns ih =>
    obtain ⟨a, b⟩ := drainOne_core s c h
    obtain ⟨a', b'⟩ := ih (drainOne c s) a
    exact ⟨a', b'.trans b⟩

/-- The core that issues a bundle runs, and the bundle is made up. -/
theorem ready_core (i : Issue) (o : Staged) (s : State) (h : (coreOf s i.core).run = .running) :
    (coreOf (ready i o s) i.core).run = .running ∧ (coreOf (ready i o s) i.core).staged = [o] := by
  have e : coreOf (setCore s i.core { coreOf s i.core with staged := [o] }) i.core = { coreOf s i.core with staged := [o] } :=
    coreOf_setCore _ _ _ (ne_init_of_run (by simp [h]))
  unfold ready
  have r : (coreOf (stallFor i.core i.stall (setCore s i.core { coreOf s i.core with staged := [o] })) i.core).run = .running ∧
      (coreOf (stallFor i.core i.stall (setCore s i.core { coreOf s i.core with staged := [o] })) i.core).staged = [o] := by
    unfold stallFor
    have e' : coreOf (addCnt (setCore s i.core { coreOf s i.core with staged := [o] }) (corePage i.core) 1 i.stall) i.core =
        { coreOf s i.core with staged := [o] } := e
    have hr := congrArg CoreSt.run e'
    have m : coreOf (modCore (addCnt (setCore s i.core { coreOf s i.core with staged := [o] }) (corePage i.core) 1 i.stall) i.core
        fun x => { x with total := x.total + i.stall }) i.core =
        { { coreOf s i.core with staged := [o] } with total := (coreOf s i.core).total + i.stall } := by
      rw [coreOf_modCore _ _ _ (ne_init_of_run (by show (coreOf _ _).run ≠ _; rw [hr]; simp [h])), e']
    obtain ⟨a, b⟩ := drains_core (List.range (min i.stall 8)) _ _ (show (coreOf _ _).run = .running by rw [m]; exact h)
    exact ⟨a, b.trans (by rw [m])⟩
  obtain ⟨a, b⟩ := strikeLine_core _ i.core i.strike r.1
  exact ⟨a, b.trans r.2⟩

/-- The core of an instruction alone in its bundle: its results that are due have landed. -/
theorem landed_core (i : Issue) (o : Staged) (s : State) (h : (coreOf s i.core).run = .running) :
    (coreOf (landed i o s) i.core).run = .running ∧
      coreOf (landed i o s) i.core = landBy (isS i.core) (coreOf (drainOne i.core (ready i o s)) i.core)
        (coreOf (drainOne i.core (ready i o s)) i.core).cyc := by
  have hr := (drainOne_core _ i.core (ready_core i o s h).1).1
  have hl := (landBy_keeps (isS i.core) (coreOf (drainOne i.core (ready i o s)) i.core)
    (coreOf (drainOne i.core (ready i o s)) i.core).cyc).1
  have e : coreOf (landed i o s) i.core = _ :=
    coreOf_modCore (drainOne i.core (ready i o s)) i.core (fun x => landBy (isS i.core) x x.cyc) (ne_init_of_run (by rw [hl, hr]; simp))
  exact ⟨by rw [e, hl, hr], e⟩

/-- One instruction is in slot order. -/
theorem inSlotOrder_one (o : Staged) (j : Fin 4) (h : o.slot = j) : inSlotOrder [o] = [o] := by
  obtain ⟨sl, w, p⟩ := o
  simp only at h
  subst h
  unfold inSlotOrder
  match j with
  | ⟨0, _⟩ => rfl
  | ⟨1, _⟩ => rfl
  | ⟨2, _⟩ => rfl
  | ⟨3, _⟩ => rfl

/-- The command that ends a bundle of one instruction issues it: what the instruction does, and the bundle's end. -/
theorem issueSt_alone (i : Issue) (w : Word) (s : State) (h : issuesAlone i w s)
    (hf : fwaits (opCtx i ⟨i.slot, w, false⟩ s).x [⟨i.slot, w, false⟩] = false)
    (hn : (opDo (opCtx i ⟨i.slot, w, false⟩ s) (bun0 (atIssue i ⟨i.slot, w, false⟩ s))).fault = none) :
    issueSt i w s = issued i w (opDo (opCtx i ⟨i.slot, w, false⟩ s)) s := by
  obtain ⟨c, slot, last, nops, stall, parity, strike⟩ := i
  obtain ⟨h1, h2, h3, h4, h5, h6, h7, h8, h9, h10, h11, h12⟩ := h
  dsimp only at h4 h5 h6
  subst h4; subst h5; subst h6
  dsimp only at *
  have hso := inSlotOrder_one ⟨slot, w, false⟩ slot rfl
  have er := ready_core ⟨c, slot, true, 0, stall, false, strike⟩ ⟨slot, w, false⟩ s h1
  have el := landed_core ⟨c, slot, true, 0, stall, false, strike⟩ ⟨slot, w, false⟩ s h1
  have ec : coreOf (setCore s c { coreOf s c with staged := [⟨slot, w, false⟩] }) c =
      { coreOf s c with staged := [⟨slot, w, false⟩] } := coreOf_setCore _ _ _ (ne_init_of_run (by simp [h1]))
  have efb : fetchBundle c (opCtx ⟨c, slot, true, 0, stall, false, strike⟩ ⟨slot, w, false⟩ s).x.pc
      (landed ⟨c, slot, true, 0, stall, false, strike⟩ ⟨slot, w, false⟩ s) =
      (landed ⟨c, slot, true, 0, stall, false, strike⟩ ⟨slot, w, false⟩ s, none) := by
    unfold fetchBundle
    rw [h7, h8]
    rfl
  have e1 := congrArg CoreSt.staged ec
  have e2 := (congrArg CoreSt.run ec).trans h1
  unfold issueSt
  dsimp only
  have hd : ∀ t, dramHold s t = t := fun t => by simp [dramHold, h11, h12]
  have h10' : blockRuns s (corePage c) = true := h10
  rw [if_neg (show ¬((coreOf s c).run ≠ .running ∨ (!blockRuns s (corePage c)) = true) by simp [h1, h10'])]
  simp only [h2, List.filter_nil, List.nil_append, Bool.not_true, Bool.false_eq_true, if_false, nopBundles]
  rw [if_neg (by rw [e1, e2]; simp), e1, hd]
  show runBundle c [⟨slot, w, false⟩] (ready ⟨c, slot, true, 0, stall, false, strike⟩ ⟨slot, w, false⟩ s) = _
  unfold runBundle
  dsimp only
  rw [hso]
  have efb' : fetchBundle c (coreOf (modCore (drainOne c (ready ⟨c, slot, true, 0, stall, false, strike⟩ ⟨slot, w, false⟩ s)) c
      fun x => landBy (isS c) x x.cyc) c).pc (modCore (drainOne c (ready ⟨c, slot, true, 0, stall, false, strike⟩
      ⟨slot, w, false⟩ s)) c fun x => landBy (isS c) x x.cyc) = (modCore (drainOne c (ready
      ⟨c, slot, true, 0, stall, false, strike⟩ ⟨slot, w, false⟩ s)) c fun x => landBy (isS c) x x.cyc, none) := efb
  simp only [efb']
  have hf' : fwaits (coreOf (modCore (drainOne c (ready ⟨c, slot, true, 0, stall, false, strike⟩ ⟨slot, w, false⟩ s)) c fun x =>
    landBy (isS c) x x.cyc) c) [⟨slot, w, false⟩] = false := hf
  rw [hf']
  simp only [List.any_cons, List.any_nil, Bool.or_false, Bool.false_eq_true, if_false, false_and, List.foldl_cons, List.foldl_nil]
  have eo : opRun (opCtx ⟨c, slot, true, 0, stall, false, strike⟩ ⟨slot, w, false⟩ s)
      (bun0 (atIssue ⟨c, slot, true, 0, stall, false, strike⟩ ⟨slot, w, false⟩ s)) =
      opDo (opCtx ⟨c, slot, true, 0, stall, false, strike⟩ ⟨slot, w, false⟩ s)
      (bun0 (atIssue ⟨c, slot, true, 0, stall, false, strike⟩ ⟨slot, w, false⟩ s)) := by
    unfold opRun
    show (if (none : Option TrapInfo).isSome = true then _ else match opTrap (atIssue _ _ s) _ with | some t => _ | none => _) = _
    rw [h9]
    rfl
  change stepEnd c (opCtx ⟨c, slot, true, 0, stall, false, strike⟩ ⟨slot, w, false⟩ s).x.step
    (bufAfter c [⟨slot, w, false⟩] (match (opRun (opCtx ⟨c, slot, true, 0, stall, false, strike⟩ ⟨slot, w, false⟩ s)
      (bun0 (atIssue ⟨c, slot, true, 0, stall, false, strike⟩ ⟨slot, w, false⟩ s))).fault with
    | some t => _
    | none => bundleEnd c (opCtx ⟨c, slot, true, 0, stall, false, strike⟩ ⟨slot, w, false⟩ s).x
        (opRun (opCtx ⟨c, slot, true, 0, stall, false, strike⟩ ⟨slot, w, false⟩ s)
      (bun0 (atIssue ⟨c, slot, true, 0, stall, false, strike⟩ ⟨slot, w, false⟩ s))))) = _
  rw [eo, hn, h3]
  rfl

/-- The same, for what the instruction does in a simpler form. -/
theorem issueSt_does (i : Issue) (w : Word) (s : State) (h : issuesAlone i w s)
    (hf : fwaits (opCtx i ⟨i.slot, w, false⟩ s).x [⟨i.slot, w, false⟩] = false) (g : Bun → Bun)
    (hg : opDo (opCtx i ⟨i.slot, w, false⟩ s) (bun0 (atIssue i ⟨i.slot, w, false⟩ s)) = g (bun0 (atIssue i ⟨i.slot, w, false⟩ s)))
    (hn : (g (bun0 (atIssue i ⟨i.slot, w, false⟩ s))).fault = none) : issueSt i w s = issued i w g s := by
  rw [issueSt_alone i w s h hf (by rw [hg]; exact hn)]
  unfold issued
  dsimp only
  rw [hg]

/-- Post-modification of an address register is no fault. -/
theorem updateA_fault (k : OpCtx) (i : Nat) (v : Option Dword) (b : Bun) : (updateA k i v b).fault = b.fault := by
  cases v <;> rfl

/-- The opcode of a slot word. -/
theorem opcode_slotWord (op : Nat) (w : Word26) (j : Nat) (h : op < 64) : opcodeOf ⟨j, slotWord op w, false⟩ = op := by
  have hw := w.isLt
  unfold opcodeOf bits slotWord w32
  simp only [BitVec.toNat_ofNat, Nat.shiftRight_eq_div_pow]
  omega

/-- The opcode of a system word. -/
theorem opcode_sysWord (fn : Nat) (w : Word20) (j : Nat) (h : fn < 64) : opcodeOf ⟨j, sysWord fn w, false⟩ = 0x0A := by
  have hw := w.isLt
  unfold opcodeOf bits sysWord w32
  simp only [BitVec.toNat_ofNat, Nat.shiftRight_eq_div_pow]
  omega

/-- The function of a system word. -/
theorem func_sysWord (fn : Nat) (w : Word20) (h : fn < 64) : bits (sysWord fn w) 25 20 = fn := by
  have hw := w.isLt
  unfold bits sysWord w32
  simp only [BitVec.toNat_ofNat, Nat.shiftRight_eq_div_pow]
  omega

/-- An instruction that is no system instruction is no FWAIT. -/
theorem fwaits_of_op (x : CoreSt) (o : Staged) (h : opcodeOf o ≠ 0x0A) : fwaits x [o] = false := by
  unfold fwaits
  simp [h]

/-- A system instruction other than FWAIT is no FWAIT. -/
theorem fwaits_of_func (x : CoreSt) (o : Staged) (h : bits o.word 25 20 ≠ 3) : fwaits x [o] = false := by
  unfold fwaits
  simp [h]

end Sys2Proof.Machine
end

