-- ==== Sys2Proof/Laws/Regs.lean ====
section
/-! SUPPORT. Laws of the registers and counters: what a read after a write gives. -/

namespace Sys2Proof.Machine

/-- Two registers of the map share a key only if they are one register. -/
theorem rkey_inj {p off i q o j : Nat} (hp : p < 1024) (ho : off < 4096) (hq : q < 1024) (ho' : o < 4096)
    (h : rkey p off i = rkey q o j) : p = q ∧ off = o ∧ i = j := by
  unfold rkey at h
  omega

/-- A register just stored reads as stored. -/
theorem getRegI_setRegI (s : State) (p off i : Nat) (v : Word) (h : kup s.regs = true) :
    getRegI (setRegI s p off i v) p off i = v :=
  kget_kset_self _ _ _ _ h

/-- A register stored with a value other than its reset value reads as stored, whatever the state. -/
theorem getRegI_setRegI_of_ne (s : State) (p off i : Nat) (v : Word) (h : v ≠ regReset p off) :
    getRegI (setRegI s p off i v) p off i = v :=
  kget_kset_of_ne _ _ _ _ h

/-- Storing a register leaves every other as it reads. -/
theorem getRegI_setRegI_ne (s : State) (p off i q o j : Nat) (v : Word) (h : rkey q o j ≠ rkey p off i) :
    getRegI (setRegI s p off i v) q o j = getRegI s q o j :=
  kget_kset_ne _ _ _ _ _ _ h

/-- Storing what a register holds leaves every register of the map as it reads. -/
theorem getRegI_setRegI_id (s : State) (p off i : Nat) (hu : kup s.regs = true) (hp : p < 1024) (ho : off < 4096)
    (q : Fin 1024) (o : Fin 4096) (j : Nat) :
    getRegI (setRegI s p off i (getRegI s p off i)) q o j = getRegI s q o j := by
  by_cases h : rkey q o j = rkey p off i
  · obtain ⟨rfl, rfl, rfl⟩ := rkey_inj q.isLt o.isLt hp ho h
    exact getRegI_setRegI _ _ _ _ _ hu
  · exact getRegI_setRegI_ne _ _ _ _ _ _ _ _ h

/-- A register just stored, where no window selects, reads as stored. -/
theorem getReg_setReg (s : State) (p off : Nat) (v : Word) (h : kup s.regs = true) : getReg (setReg s p off v) p off = v :=
  getRegI_setRegI s p off 0 v h

/-- Storing a register leaves the others of its page as they read. -/
theorem getReg_setReg_off (s : State) (p off o : Nat) (v : Word) (h : o ≠ off) :
    getReg (setReg s p off v) p o = getReg s p o := by
  refine getRegI_setRegI_ne _ _ _ _ _ _ _ _ ?_
  unfold rkey
  omega

/-- A stored register leaves the keys of the register map rising. -/
theorem kup_setRegI (s : State) (p off i : Nat) (v : Word) (h : kup s.regs = true) : kup (setRegI s p off i v).regs = true :=
  kup_kset _ _ _ _ h

/-- A counter of a page counts (R86). -/
theorem getCnt_addCnt (s : State) (p i n : Nat) (h : kup s.cnt = true) : getCnt (addCnt s p i n) p i = getCnt s p i + w32 n :=
  kget_kset_self _ _ _ _ h

/-- Counting leaves every other counter. -/
theorem getCnt_addCnt_ne (s : State) (p i q j n : Nat) (h : q * 32 + j ≠ p * 32 + i) :
    getCnt (addCnt s p i n) q j = getCnt s q j :=
  kget_kset_ne _ _ _ _ _ _ h

end Sys2Proof.Machine
end

