-- ==== Sys2Proof/Laws/ToAccess.lean ====
section
/-! SUPPORT. The frames of the operations and meanings of Access: what each may change. -/

namespace Sys2Proof.Machine

variable {T : Nat} {s0 : State}

theorem onPage_to {s : State} {a : Acc} {p : Nat} {off : Nat} {f : State → State} (hT : T ||| 1048594 = T) (hS : To T s0 s) (hf : ∀  s, To T s0 s → To T s0 (f  s)) :
    To T s0 (onPage a p off f s) := by
  unfold onPage
  repeat' (first | (with_reducible first | assumption | refine To.ite ?_ ?_ | refine hf _ ?_ | refine offAccess_to ?_ ?_) | exact To.sub hT (by decide) | refine To.fst (by assumption) ?_ | refine To.snd (by assumption) ?_ | split | (intro _; intros))

theorem holdLo_to {s : State} {a : Acc} {p : Nat} {off : Nat} {v : Word} (hT : T ||| 8 = T) (hS : To T s0 s) :
    To T s0 (holdLo s a p off v) := by
  unfold holdLo
  repeat' (first | (with_reducible first | assumption | refine To.ite ?_ ?_) | exact To.sub hT (by decide) | refine To.fst (by assumption) ?_ | refine To.snd (by assumption) ?_ | split | with_reducible first | refine To.set_holdWr ?_ ?_ ?_ | exact kup_kset _ _ _ _ | exact kup_filter _ _)

theorem takeLo_to {s : State} {a : Acc} {p : Nat} {off : Nat} (hT : T ||| 8 = T) (hS : To T s0 s) :
    To T s0 (takeLo s a p off).2 := by
  unfold takeLo
  repeat' (first | (with_reducible first | assumption | refine To.ite ?_ ?_) | exact To.sub hT (by decide) | refine To.fst (by assumption) ?_ | refine To.snd (by assumption) ?_ | split | with_reducible first | refine To.set_holdWr ?_ ?_ ?_ | exact kup_kset _ _ _ _ | exact kup_filter _ _)

theorem answer_to {s : State} {a : Acc} {v : Word} (hT : T ||| 2048 = T) (hS : To T s0 s) :
    To T s0 (answer a v s) := by
  unfold answer
  repeat' (first | (with_reducible first | assumption | refine To.ite ?_ ?_) | exact To.sub hT (by decide) | refine To.fst (by assumption) ?_ | refine To.snd (by assumption) ?_ | split | with_reducible first | refine To.set_rdOut ?_ ?_)

theorem onRead_to {s : State} {a : Acc} {p : Nat} {off : Nat} {f : State → Word × State} (hT : T ||| 1050642 = T) (hS : To T s0 s) (hf : ∀  s, To T s0 s → To T s0 (f  s).2) :
    To T s0 (onRead a p off f s) := by
  unfold onRead
  try dsimp -proj only
  repeat' (first | (with_reducible first | assumption | refine To.ite ?_ ?_ | refine hf _ ?_ | refine answer_to ?_ ?_ | refine offAccess_to ?_ ?_) | exact To.sub hT (by decide) | refine To.fst (by assumption) ?_ | refine To.snd (by assumption) ?_ | split | dsimp -proj only | (intro _; intros))

theorem setHold_to {s : State} {k : Nat} {v : Word} (hT : T ||| 4 = T) (hS : To T s0 s) :
    To T s0 (setHold s k v) := by
  unfold setHold
  repeat' (first | (with_reducible first | assumption | refine To.ite ?_ ?_) | exact To.sub hT (by decide) | refine To.fst (by assumption) ?_ | refine To.snd (by assumption) ?_ | split | with_reducible first | refine To.set_holdRd ?_ ?_ ?_ | exact kup_kset _ _ _ _ | exact kup_filter _ _)

end Sys2Proof.Machine
end

