-- ==== Sys2Proof/Laws/ToChain.lean ====
section
/-! SUPPORT. The frames of the operations and meanings of Chain: what each may change. -/

namespace Sys2Proof.Machine

variable {T : Nat} {s0 : State}

theorem setDfe_to {s : State} {k : Nat} {x : DfeSt} (hT : T ||| 33554432 = T) (hS : To T s0 s) :
    To T s0 (setDfe s k x) := by
  unfold setDfe
  repeat' (first | (with_reducible first | assumption | refine To.ite ?_ ?_) | exact To.sub hT (by decide) | refine To.fst (by assumption) ?_ | refine To.snd (by assumption) ?_ | split | with_reducible first | refine To.set_dfe ?_ ?_)

theorem modDfe_to {s : State} {k : Nat} {f : DfeSt → DfeSt} (hT : T ||| 33554432 = T) (hS : To T s0 s) :
    To T s0 (modDfe s k f) := by
  unfold modDfe
  repeat' (first | (with_reducible first | assumption | refine To.ite ?_ ?_ | refine setDfe_to ?_ ?_) | exact To.sub hT (by decide) | refine To.fst (by assumption) ?_ | refine To.snd (by assumption) ?_ | split)

theorem setLemc_to {s : State} {k : Nat} {x : LemcSt} (hT : T ||| 4194304 = T) (hS : To T s0 s) :
    To T s0 (setLemc s k x) := by
  unfold setLemc
  repeat' (first | (with_reducible first | assumption | refine To.ite ?_ ?_) | exact To.sub hT (by decide) | refine To.fst (by assumption) ?_ | refine To.snd (by assumption) ?_ | split | with_reducible first | refine To.set_lemc ?_ ?_)

theorem setChain_to {s : State} {k : Nat} {c : Nat} {x : ChainSt} (hT : T ||| 8388608 = T) (hS : To T s0 s) :
    To T s0 (setChain s k c x) := by
  unfold setChain
  repeat' (first | (with_reducible first | assumption | refine To.ite ?_ ?_) | exact To.sub hT (by decide) | refine To.fst (by assumption) ?_ | refine To.snd (by assumption) ?_ | split | with_reducible first | refine To.set_chains ?_ ?_)

end Sys2Proof.Machine
end

