-- ==== Sys2Proof/Laws/ToUnit.lean ====
section
/-! SUPPORT. The frames of the operations and meanings of Unit: what each may change. -/

namespace Sys2Proof.Machine

variable {T : Nat} {s0 : State}

theorem fireRow_to {s : State} {p : Nat} {disabled : Nat} {f : FireRec} {start : FireRec → State → State} (hT : T ||| 17592186114048 = T) (hS : To T s0 s) (hstart : ∀ x0 s, To T s0 s → To T s0 (start x0 s)) :
    To T s0 (fireRow p disabled f start s) := by
  unfold fireRow
  try dsimp -proj only
  repeat' (first | (with_reducible first | assumption | refine To.ite ?_ ?_ | refine hstart _ _ ?_ | refine takeArrived_to ?_ ?_ | refine failFire_to ?_ ?_ | refine To.foldl _ (fun _ _ _ => ?_) ?_ | refine To.foldl_fst _ (fun _ _ _ => ?_) ?_) | exact To.sub hT (by decide) | refine To.fst (by assumption) ?_ | refine To.snd (by assumption) ?_ | split | (with_reducible first | refine To.set_unowned ?_ ?_) | dsimp -proj only | (intro _; intros))

theorem holdUnowned_to {s : State} {p : Nat} {f : FireRec} (hT : T ||| 17592186044416 = T) (hS : To T s0 s) :
    To T s0 (holdUnowned s p f) := by
  unfold holdUnowned
  repeat' (first | (with_reducible first | assumption | refine To.ite ?_ ?_) | exact To.sub hT (by decide) | refine To.fst (by assumption) ?_ | refine To.snd (by assumption) ?_ | split | with_reducible first | refine To.set_unowned ?_ ?_)

theorem rdBytes_to {p : Nat} {a : Nat} {n : Nat} (hT : T ||| 1187922 = T) :
    Rd T (rdBytes p a n) := by
  constructor
  intro s0 s h
  have k := memRead_to (src := p) (a := a) (n := n) hT h
  unfold rdBytes
  split <;> exact To.fst (by assumption) k

theorem rdWords_to {p : Nat} {a : Nat} {n : Nat} (hT : T ||| 1187922 = T) :
    Rd T (rdWords p a n) := by
  unfold rdWords
  try dsimp -proj only
  repeat' (first | (with_reducible first | assumption | refine To.ite ?_ ?_ | refine rdBytes_to ?_ | refine Rd.ok (by assumption) ?_ ?_ | refine Rd.error (by assumption) ?_ ?_ | exact Rd.pure _ | exact Rd.throw _ | refine Rd.bind ?_ (fun _ => ?_) | refine Rd.mapM _ (fun _ => ?_)) | exact To.sub hT (by decide) | refine To.fst (by assumption) ?_ | refine To.snd (by assumption) ?_ | split | dsimp -proj only)

theorem rdGet_to {α : Type} {g : State → α} (_ : T ||| 0 = T) :
    Rd T (rdGet g) := by
  exact ⟨fun _ _ h => h⟩

theorem putOuts_to {s : State} {p : Nat} {outs : List (Nat × List Byte)} (hT : T ||| 1253618 = T) (hS : To T s0 s) :
    To T s0 (putOuts s p outs) := by
  unfold putOuts
  try dsimp -proj only
  repeat' (first | (with_reducible first | assumption | refine To.ite ?_ ?_ | refine memPut_to ?_ ?_ | refine To.foldl _ (fun _ _ _ => ?_) ?_ | refine To.foldl_fst _ (fun _ _ _ => ?_) ?_) | exact To.sub hT (by decide) | refine To.fst (by assumption) ?_ | refine To.snd (by assumption) ?_ | split | dsimp -proj only | (intro _; intros))

theorem issueReq_to {s : State} {who : Initiator} {isWrite : Bool} {addr : Nat} {len : Nat} {data : List Byte} {chan : Nat} {tag : Nat} (hT : T ||| 65536 = T) (hS : To T s0 s) :
    To T s0 (issueReq s who isWrite addr len data chan tag).2 := by
  unfold issueReq
  try dsimp -proj only
  repeat' (first | (with_reducible first | assumption | refine To.ite ?_ ?_) | exact To.sub hT (by decide) | refine To.fst (by assumption) ?_ | refine To.snd (by assumption) ?_ | split | (with_reducible first | refine To.set_fab ?_ ?_) | dsimp -proj only)

theorem dropReq_to {s : State} {id : Nat} (hT : T ||| 65536 = T) (hS : To T s0 s) :
    To T s0 (dropReq s id) := by
  unfold dropReq
  try dsimp -proj only
  repeat' (first | (with_reducible first | assumption | refine To.ite ?_ ?_) | exact To.sub hT (by decide) | refine To.fst (by assumption) ?_ | refine To.snd (by assumption) ?_ | split | (with_reducible first | refine To.set_fab ?_ ?_) | dsimp -proj only | (intro _; intros))

end Sys2Proof.Machine
end

