-- ==== Sys2Proof/Laws/ToDfe.lean ====
section
/-! SUPPORT. The frames of the operations and meanings of Dfe: what each may change. -/

namespace Sys2Proof.Machine

variable {T : Nat} {s0 : State}

theorem csWrite_to {s : State} {k : Nat} {off : Nat} {v : Word} (hT : T ||| 2 = T) (hS : To T s0 s) :
    To T s0 (csWrite k off v s) := by
  unfold csWrite
  try dsimp -proj only
  repeat' (first | (with_reducible first | assumption | refine To.ite ?_ ?_ | refine setEvt_to ?_ ?_ | refine setRegI_to ?_ ?_) | exact To.sub hT (by decide) | refine To.fst (by assumption) ?_ | refine To.snd (by assumption) ?_ | split | dsimp -proj only)

theorem csChainsWrite_to {s : State} {k : Nat} {lo : Nat} {hi : Nat} (hT : T ||| 2 = T) (hS : To T s0 s) :
    To T s0 (csChainsWrite k lo hi s) := by
  unfold csChainsWrite
  try dsimp -proj only
  repeat' (first | (with_reducible first | assumption | refine To.ite ?_ ?_ | refine setEvt_to ?_ ?_ | refine setRegI_to ?_ ?_) | exact To.sub hT (by decide) | refine To.fst (by assumption) ?_ | refine To.snd (by assumption) ?_ | split | dsimp -proj only)

theorem setCh_to {s : State} {k : Nat} {off : Nat} {c : Nat} {view : Nat} {v : Word} (hT : T ||| 2 = T) (hS : To T s0 s) :
    To T s0 (setCh s k off c view v) := by
  unfold setCh
  repeat' (first | (with_reducible first | assumption | refine To.ite ?_ ?_ | refine setRegI_to ?_ ?_) | exact To.sub hT (by decide) | refine To.fst (by assumption) ?_ | refine To.snd (by assumption) ?_ | split)

theorem commitChain_to {s : State} {k : Nat} {c : Nat} (hT : T ||| 2 = T) (hS : To T s0 s) :
    To T s0 (commitChain k c s) := by
  unfold commitChain
  try dsimp -proj only
  repeat' (first | (with_reducible first | assumption | refine To.ite ?_ ?_ | refine setEvt_to ?_ ?_ | refine setCh_to ?_ ?_ | refine To.foldl _ (fun _ _ _ => ?_) ?_ | refine To.foldl_fst _ (fun _ _ _ => ?_) ?_) | exact To.sub hT (by decide) | refine To.fst (by assumption) ?_ | refine To.snd (by assumption) ?_ | split | dsimp -proj only | (intro _; intros))

theorem discardChain_to {s : State} {k : Nat} {c : Nat} (hT : T ||| 2 = T) (hS : To T s0 s) :
    To T s0 (discardChain k c s) := by
  unfold discardChain
  try dsimp -proj only
  repeat' (first | (with_reducible first | assumption | refine To.ite ?_ ?_ | refine setCh_to ?_ ?_ | refine To.foldl _ (fun _ _ _ => ?_) ?_ | refine To.foldl_fst _ (fun _ _ _ => ?_) ?_) | exact To.sub hT (by decide) | refine To.fst (by assumption) ?_ | refine To.snd (by assumption) ?_ | split | dsimp -proj only | (intro _; intros))

theorem dfeComplete_to {s : State} {k : Nat} {c : DfeCmd} {t : Int} (hT : T ||| 65552 = T) (hS : To T s0 s) :
    To T s0 (dfeComplete s k c t) := by
  unfold dfeComplete
  try dsimp -proj only
  repeat' (first | (with_reducible first | assumption | refine To.ite ?_ ?_ | refine incCnt_to ?_ ?_ | refine complete_to ?_ ?_) | exact To.sub hT (by decide) | refine To.fst (by assumption) ?_ | refine To.snd (by assumption) ?_ | split | dsimp -proj only)

theorem finishPart_to {s : State} {k : Nat} {c : DfeCmd} {part : Nat} {t : Int} (hT : T ||| 33619984 = T) (hS : To T s0 s) :
    To T s0 (finishPart s k c part t) := by
  unfold finishPart
  try dsimp -proj only
  repeat' (first | (with_reducible first | assumption | refine To.ite ?_ ?_ | refine dfeComplete_to ?_ ?_ | refine modDfe_to ?_ ?_) | exact To.sub hT (by decide) | refine To.fst (by assumption) ?_ | refine To.snd (by assumption) ?_ | split | dsimp -proj only | (intro _; intros))

theorem startPart_to {s : State} {k : Nat} {c : DfeCmd} {part : Nat} (hT : T ||| 33554432 = T) (hS : To T s0 s) :
    To T s0 (startPart s k c part) := by
  unfold startPart
  try dsimp -proj only
  repeat' (first | (with_reducible first | assumption | refine To.ite ?_ ?_ | refine modDfe_to ?_ ?_) | exact To.sub hT (by decide) | refine To.fst (by assumption) ?_ | refine To.snd (by assumption) ?_ | split | dsimp -proj only | (intro _; intros))

theorem dfeRefuse_to {s : State} {k : Nat} {f : Option FireRec} {cause : Nat} (hT : T ||| 65554 = T) (hS : To T s0 s) :
    To T s0 (dfeRefuse s k f cause) := by
  unfold dfeRefuse
  try dsimp -proj only
  repeat' (first | (with_reducible first | assumption | refine To.ite ?_ ?_ | refine incCnt_to ?_ ?_ | refine setEvt_to ?_ ?_ | refine failFire_to ?_ ?_) | exact To.sub hT (by decide) | refine To.fst (by assumption) ?_ | refine To.snd (by assumption) ?_ | split | dsimp -proj only)

theorem dropCmd_to {s : State} {k : Nat} {c : DfeCmd} {cause : Nat} (hT : T ||| 33619986 = T) (hS : To T s0 s) :
    To T s0 (dropCmd s k c cause) := by
  unfold dropCmd
  try dsimp -proj only
  repeat' (first | (with_reducible first | assumption | refine To.ite ?_ ?_ | refine dfeRefuse_to ?_ ?_ | refine modDfe_to ?_ ?_) | exact To.sub hT (by decide) | refine To.fst (by assumption) ?_ | refine To.snd (by assumption) ?_ | split | dsimp -proj only | (intro _; intros))

theorem holdCmd_to {s : State} {k : Nat} {c : DfeCmd} (hT : T ||| 33619984 = T) (hS : To T s0 s) :
    To T s0 (holdCmd s k c) := by
  unfold holdCmd
  try dsimp -proj only
  repeat' (first | (with_reducible first | assumption | refine To.ite ?_ ?_ | refine dfeComplete_to ?_ ?_ | refine modDfe_to ?_ ?_) | exact To.sub hT (by decide) | refine To.fst (by assumption) ?_ | refine To.snd (by assumption) ?_ | split | dsimp -proj only | (intro _; intros))

theorem acceptUp_to {s : State} {k : Nat} {c : DfeCmd} (hT : T ||| 33619986 = T) (hS : To T s0 s) :
    To T s0 (acceptUp s k c) := by
  unfold acceptUp
  try dsimp -proj only
  repeat' (first | (with_reducible first | assumption | refine To.ite ?_ ?_ | refine dfeRefuse_to ?_ ?_ | refine holdCmd_to ?_ ?_ | refine setEvt_to ?_ ?_ | refine incCnt_to ?_ ?_) | exact To.sub hT (by decide) | refine To.fst (by assumption) ?_ | refine To.snd (by assumption) ?_ | split | dsimp -proj only | (intro _; intros))

theorem dfeStart_to {s : State} {k : Nat} {op : Nat} {f : FireRec} (hT : T ||| 33619986 = T) (hS : To T s0 s) :
    To T s0 (dfeStart k op f s) := by
  unfold dfeStart
  try dsimp -proj only
  repeat' (first | (with_reducible first | assumption | refine To.ite ?_ ?_ | refine dfeRefuse_to ?_ ?_ | refine acceptUp_to ?_ ?_ | refine dropCmd_to ?_ ?_ | refine holdCmd_to ?_ ?_ | refine modDfe_to ?_ ?_ | refine To.foldl _ (fun _ _ _ => ?_) ?_ | refine To.foldl_fst _ (fun _ _ _ => ?_) ?_) | exact To.sub hT (by decide) | refine To.fst (by assumption) ?_ | refine To.snd (by assumption) ?_ | split | dsimp -proj only | (intro _; intros))

theorem dfeFire_to {s : State} {op : Nat} {f : FireRec} (hT : T ||| 17592219668498 = T) (hS : To T s0 s) :
    To T s0 (dfeFire op f s) := by
  unfold dfeFire
  repeat' (first | (with_reducible first | assumption | refine To.ite ?_ ?_ | refine fireRow_to ?_ ?_ ?_ | refine dfeStart_to ?_ ?_) | exact To.sub hT (by decide) | refine To.fst (by assumption) ?_ | refine To.snd (by assumption) ?_ | split | (intro _; intros))

theorem cutShort_to {s : State} {k : Nat} {own : DfeCmd} {grp : Bool} {g : Nat} {part : Nat} (hT : T ||| 33619984 = T) (hS : To T s0 s) :
    To T s0 (cutShort s k own grp g part) := by
  unfold cutShort
  try dsimp -proj only
  repeat' (first | (with_reducible first | assumption | refine To.ite ?_ ?_ | refine finishPart_to ?_ ?_ | refine To.foldl _ (fun _ _ _ => ?_) ?_ | refine To.foldl_fst _ (fun _ _ _ => ?_) ?_) | exact To.sub hT (by decide) | refine To.fst (by assumption) ?_ | refine To.snd (by assumption) ?_ | split | dsimp -proj only | (intro _; intros))

theorem groupRamp_to {s : State} {k : Nat} {c : DfeCmd} {g : Nat} (hT : T ||| 33619984 = T) (hS : To T s0 s) :
    To T s0 (groupRamp s k c g) := by
  unfold groupRamp
  try dsimp -proj only
  repeat' (first | (with_reducible first | assumption | refine To.ite ?_ ?_ | refine cutShort_to ?_ ?_ | refine finishPart_to ?_ ?_ | refine startPart_to ?_ ?_ | refine modDfe_to ?_ ?_) | exact To.sub hT (by decide) | refine To.fst (by assumption) ?_ | refine To.snd (by assumption) ?_ | split | dsimp -proj only | (intro _; intros))

theorem slotRamp_to {s : State} {k : Nat} {c : DfeCmd} (hT : T ||| 33619984 = T) (hS : To T s0 s) :
    To T s0 (slotRamp s k c) := by
  unfold slotRamp
  try dsimp -proj only
  repeat' (first | (with_reducible first | assumption | refine To.ite ?_ ?_ | refine modDfe_to ?_ ?_ | refine cutShort_to ?_ ?_ | refine startPart_to ?_ ?_) | exact To.sub hT (by decide) | refine To.fst (by assumption) ?_ | refine To.snd (by assumption) ?_ | split | dsimp -proj only | (intro _; intros))

theorem slotRx_to {s : State} {k : Nat} {c : DfeCmd} (hT : T ||| 33619984 = T) (hS : To T s0 s) :
    To T s0 (slotRx s k c) := by
  unfold slotRx
  try dsimp -proj only
  repeat' (first | (with_reducible first | assumption | refine To.ite ?_ ?_ | refine finishPart_to ?_ ?_ | refine modDfe_to ?_ ?_) | exact To.sub hT (by decide) | refine To.fst (by assumption) ?_ | refine To.snd (by assumption) ?_ | split | dsimp -proj only | (intro _; intros))

theorem rampStartSt_to {s : State} {k : Nat} {r : RampOf} (hT : T ||| 33619984 = T) (hS : To T s0 s) :
    To T s0 (rampStartSt k r s) := by
  unfold rampStartSt
  try dsimp -proj only
  repeat' (first | (with_reducible first | assumption | refine To.ite ?_ ?_ | refine groupRamp_to ?_ ?_ | refine slotRamp_to ?_ ?_ | refine slotRx_to ?_ ?_) | exact To.sub hT (by decide) | refine To.fst (by assumption) ?_ | refine To.snd (by assumption) ?_ | split | dsimp -proj only | (intro _; intros))

theorem setLags_to {s : State} {k : Nat} {g : Nat} {t : Int} (hT : T ||| 33554432 = T) (hS : To T s0 s) :
    To T s0 (setLags s k g t) := by
  unfold setLags
  try dsimp -proj only
  repeat' (first | (with_reducible first | assumption | refine To.ite ?_ ?_ | refine modDfe_to ?_ ?_ | refine To.foldl _ (fun _ _ _ => ?_) ?_ | refine To.foldl_fst _ (fun _ _ _ => ?_) ?_) | exact To.sub hT (by decide) | refine To.fst (by assumption) ?_ | refine To.snd (by assumption) ?_ | split | dsimp -proj only | (intro _; intros))

theorem rampEndSt_to {s : State} {k : Nat} {r : RampOf} (hT : T ||| 33619984 = T) (hS : To T s0 s) :
    To T s0 (rampEndSt k r s) := by
  unfold rampEndSt
  try dsimp -proj only
  repeat' (first | (with_reducible first | assumption | refine To.ite ?_ ?_ | refine modDfe_to ?_ ?_ | refine setLags_to ?_ ?_ | refine finishPart_to ?_ ?_) | exact To.sub hT (by decide) | refine To.fst (by assumption) ?_ | refine To.snd (by assumption) ?_ | split | dsimp -proj only | (intro _; intros))

theorem paAssertSt_to {s : State} {k : Nat} {o : PaOut} (hT : T ||| 33554432 = T) (hS : To T s0 s) :
    To T s0 (paAssertSt k o s) := by
  unfold paAssertSt
  try dsimp -proj only
  repeat' (first | (with_reducible first | assumption | refine To.ite ?_ ?_ | refine modDfe_to ?_ ?_) | exact To.sub hT (by decide) | refine To.fst (by assumption) ?_ | refine To.snd (by assumption) ?_ | split | dsimp -proj only | (intro _; intros))

theorem paDeassertSt_to {s : State} {k : Nat} {o : PaOut} (hT : T ||| 33554432 = T) (hS : To T s0 s) :
    To T s0 (paDeassertSt k o s) := by
  unfold paDeassertSt
  try dsimp -proj only
  repeat' (first | (with_reducible first | assumption | refine To.ite ?_ ?_ | refine modDfe_to ?_ ?_) | exact To.sub hT (by decide) | refine To.fst (by assumption) ?_ | refine To.snd (by assumption) ?_ | split | dsimp -proj only | (intro _; intros))

theorem dfeEnable_to {s : State} {k : Nat} (hT : T ||| 33554432 = T) (hS : To T s0 s) :
    To T s0 (dfeEnable k s) := by
  unfold dfeEnable
  try dsimp -proj only
  repeat' (first | (with_reducible first | assumption | refine To.ite ?_ ?_ | refine modDfe_to ?_ ?_) | exact To.sub hT (by decide) | refine To.fst (by assumption) ?_ | refine To.snd (by assumption) ?_ | split | dsimp -proj only | (intro _; intros))

theorem dfeFatal_to {s : State} {k : Nat} (hT : T ||| 33619986 = T) (hS : To T s0 s) :
    To T s0 (dfeFatal k s) := by
  unfold dfeFatal
  try dsimp -proj only
  repeat' (first | (with_reducible first | assumption | refine To.ite ?_ ?_ | refine dropCmd_to ?_ ?_ | refine modDfe_to ?_ ?_ | refine To.foldl _ (fun _ _ _ => ?_) ?_ | refine To.foldl_fst _ (fun _ _ _ => ?_) ?_) | exact To.sub hT (by decide) | refine To.fst (by assumption) ?_ | refine To.snd (by assumption) ?_ | split | dsimp -proj only | (intro _; intros))

theorem dropChains_to {s : State} {k : Nat} (hT : T ||| 8388608 = T) (hS : To T s0 s) :
    To T s0 (dropChains k s) := by
  unfold dropChains
  try dsimp -proj only
  repeat' (first | (with_reducible first | assumption | refine To.ite ?_ ?_) | exact To.sub hT (by decide) | refine To.fst (by assumption) ?_ | refine To.snd (by assumption) ?_ | split | (with_reducible first | refine To.set_chains ?_ ?_) | dsimp -proj only | (intro _; intros))

theorem dfeDrop_to {s : State} {k : Nat} (hT : T ||| 42008576 = T) (hS : To T s0 s) :
    To T s0 (dfeDrop k s) := by
  unfold dfeDrop
  try dsimp -proj only
  repeat' (first | (with_reducible first | assumption | refine To.ite ?_ ?_ | refine dropChains_to ?_ ?_ | refine failFire_to ?_ ?_ | refine setDfe_to ?_ ?_ | refine To.foldl _ (fun _ _ _ => ?_) ?_ | refine To.foldl_fst _ (fun _ _ _ => ?_) ?_) | exact To.sub hT (by decide) | refine To.fst (by assumption) ?_ | refine To.snd (by assumption) ?_ | split | dsimp -proj only | (intro _; intros))

theorem execTxOn_to {s : State} {f : FireRec} (hT : T ||| 17592219668498 = T) (hS : To T s0 s) :
    Out T s0 (execTxOn f s) := by
  unfold execTxOn
  repeat' (first | (with_reducible first | assumption | refine To.ite ?_ ?_ | refine dfeFire_to ?_ ?_ | refine Out.next ?_) | exact To.sub hT (by decide) | refine To.fst (by assumption) ?_ | refine To.snd (by assumption) ?_ | split)

theorem execTxOff_to {s : State} {f : FireRec} (hT : T ||| 17592219668498 = T) (hS : To T s0 s) :
    Out T s0 (execTxOff f s) := by
  unfold execTxOff
  repeat' (first | (with_reducible first | assumption | refine To.ite ?_ ?_ | refine dfeFire_to ?_ ?_ | refine Out.next ?_) | exact To.sub hT (by decide) | refine To.fst (by assumption) ?_ | refine To.snd (by assumption) ?_ | split)

theorem execCarrierOn_to {s : State} {f : FireRec} (hT : T ||| 17592219668498 = T) (hS : To T s0 s) :
    Out T s0 (execCarrierOn f s) := by
  unfold execCarrierOn
  repeat' (first | (with_reducible first | assumption | refine To.ite ?_ ?_ | refine dfeFire_to ?_ ?_ | refine Out.next ?_) | exact To.sub hT (by decide) | refine To.fst (by assumption) ?_ | refine To.snd (by assumption) ?_ | split)

theorem execCarrierOff_to {s : State} {f : FireRec} (hT : T ||| 17592219668498 = T) (hS : To T s0 s) :
    Out T s0 (execCarrierOff f s) := by
  unfold execCarrierOff
  repeat' (first | (with_reducible first | assumption | refine To.ite ?_ ?_ | refine dfeFire_to ?_ ?_ | refine Out.next ?_) | exact To.sub hT (by decide) | refine To.fst (by assumption) ?_ | refine To.snd (by assumption) ?_ | split)

theorem execChainCommit_to {s : State} {f : FireRec} (hT : T ||| 17592219668498 = T) (hS : To T s0 s) :
    Out T s0 (execChainCommit f s) := by
  unfold execChainCommit
  repeat' (first | (with_reducible first | assumption | refine To.ite ?_ ?_ | refine dfeFire_to ?_ ?_ | refine Out.next ?_) | exact To.sub hT (by decide) | refine To.fst (by assumption) ?_ | refine To.snd (by assumption) ?_ | split)

theorem execRampStart_to {s : State} {k : Fin 4} {r : RampOf} (hT : T ||| 33619984 = T) (hS : To T s0 s) :
    Out T s0 (execRampStart k r s) := by
  unfold execRampStart
  repeat' (first | (with_reducible first | assumption | refine To.ite ?_ ?_ | refine whileRuns_to ?_ ?_ ?_ | refine rampStartSt_to ?_ ?_ | refine Out.next ?_) | exact To.sub hT (by decide) | refine To.fst (by assumption) ?_ | refine To.snd (by assumption) ?_ | split | (intro _; intros))

theorem execRampEnd_to {s : State} {k : Fin 4} {r : RampOf} (hT : T ||| 33619984 = T) (hS : To T s0 s) :
    Out T s0 (execRampEnd k r s) := by
  unfold execRampEnd
  repeat' (first | (with_reducible first | assumption | refine To.ite ?_ ?_ | refine whileRuns_to ?_ ?_ ?_ | refine rampEndSt_to ?_ ?_ | refine Out.next ?_) | exact To.sub hT (by decide) | refine To.fst (by assumption) ?_ | refine To.snd (by assumption) ?_ | split | (intro _; intros))

theorem execPaCtrlAssert_to {s : State} {k : Fin 4} {o : PaOut} (hT : T ||| 33554432 = T) (hS : To T s0 s) :
    Out T s0 (execPaCtrlAssert k o s) := by
  unfold execPaCtrlAssert
  repeat' (first | (with_reducible first | assumption | refine To.ite ?_ ?_ | refine whileRuns_to ?_ ?_ ?_ | refine paAssertSt_to ?_ ?_ | refine Out.next ?_) | exact To.sub hT (by decide) | refine To.fst (by assumption) ?_ | refine To.snd (by assumption) ?_ | split | (intro _; intros))

theorem execPaCtrlDeassert_to {s : State} {k : Fin 4} {o : PaOut} (hT : T ||| 33554432 = T) (hS : To T s0 s) :
    Out T s0 (execPaCtrlDeassert k o s) := by
  unfold execPaCtrlDeassert
  repeat' (first | (with_reducible first | assumption | refine To.ite ?_ ?_ | refine whileRuns_to ?_ ?_ ?_ | refine paDeassertSt_to ?_ ?_ | refine Out.next ?_) | exact To.sub hT (by decide) | refine To.fst (by assumption) ?_ | refine To.snd (by assumption) ?_ | split | (intro _; intros))

theorem chainCmd_to {s : State} {a : Acc} {k : Fin 4} {f : Nat → State → State} (hT : T ||| 1048594 = T) (hS : To T s0 s) (hf : ∀ x0 s, To T s0 s → To T s0 (f x0 s)) :
    To T s0 (chainCmd a k f s) := by
  unfold chainCmd
  try dsimp -proj only
  repeat' (first | (with_reducible first | assumption | refine To.ite ?_ ?_ | refine hf _ _ ?_ | refine onPage_to ?_ ?_ ?_) | exact To.sub hT (by decide) | refine To.fst (by assumption) ?_ | refine To.snd (by assumption) ?_ | split | dsimp -proj only | (intro _; intros))

theorem execCommitAt_to {s : State} {a : Acc} {k : Fin 4} (hT : T ||| 34603026 = T) (hS : To T s0 s) :
    Out T s0 (execCommitAt a k s) := by
  unfold execCommitAt
  try dsimp -proj only
  repeat' (first | (with_reducible first | assumption | refine To.ite ?_ ?_ | refine chainCmd_to ?_ ?_ ?_ | refine modDfe_to ?_ ?_ | refine Out.next ?_) | exact To.sub hT (by decide) | refine To.fst (by assumption) ?_ | refine To.snd (by assumption) ?_ | split | dsimp -proj only | (intro _; intros))

theorem execCommitNow_to {s : State} {a : Acc} {k : Fin 4} (hT : T ||| 1048594 = T) (hS : To T s0 s) :
    Out T s0 (execCommitNow a k s) := by
  unfold execCommitNow
  try dsimp -proj only
  repeat' (first | (with_reducible first | assumption | refine To.ite ?_ ?_ | refine chainCmd_to ?_ ?_ ?_ | refine commitChain_to ?_ ?_ | refine Out.next ?_) | exact To.sub hT (by decide) | refine To.fst (by assumption) ?_ | refine To.snd (by assumption) ?_ | split | dsimp -proj only | (intro _; intros))

theorem execDiscard_to {s : State} {a : Acc} {k : Fin 4} (hT : T ||| 1048594 = T) (hS : To T s0 s) :
    Out T s0 (execDiscard a k s) := by
  unfold execDiscard
  try dsimp -proj only
  repeat' (first | (with_reducible first | assumption | refine To.ite ?_ ?_ | refine chainCmd_to ?_ ?_ ?_ | refine discardChain_to ?_ ?_ | refine Out.next ?_) | exact To.sub hT (by decide) | refine To.fst (by assumption) ?_ | refine To.snd (by assumption) ?_ | split | dsimp -proj only | (intro _; intros))

theorem execChainCommitApply_to {s : State} {k : Fin 4} {c : Fin 132} (hT : T ||| 33619970 = T) (hS : To T s0 s) :
    Out T s0 (execChainCommitApply k c s) := by
  unfold execChainCommitApply
  try dsimp -proj only
  repeat' (first | (with_reducible first | assumption | refine To.ite ?_ ?_ | refine commitChain_to ?_ ?_ | refine modDfe_to ?_ ?_ | refine complete_to ?_ ?_ | refine Out.next ?_) | exact To.sub hT (by decide) | refine To.fst (by assumption) ?_ | refine To.snd (by assumption) ?_ | split | dsimp -proj only | (intro _; intros))

theorem execCoefDataWrite_to {s : State} {a : Acc} {k : Fin 4} {v : Word} (hT : T ||| 34603026 = T) (hS : To T s0 s) :
    Out T s0 (execCoefDataWrite a k v s) := by
  unfold execCoefDataWrite
  try dsimp -proj only
  repeat' (first | (with_reducible first | assumption | refine To.ite ?_ ?_ | refine onPage_to ?_ ?_ ?_ | refine setEvt_to ?_ ?_ | refine modDfe_to ?_ ?_ | refine setReg_to ?_ ?_ | refine Out.next ?_) | exact To.sub hT (by decide) | refine To.fst (by assumption) ?_ | refine To.snd (by assumption) ?_ | split | dsimp -proj only | (intro _; intros))

end Sys2Proof.Machine
end

