-- ==== Sys2Proof/Laws/ToCal.lean ====
section
/-! SUPPORT. The frames of the operations and meanings of Cal: what each may change. -/

namespace Sys2Proof.Machine

variable {T : Nat} {s0 : State}

theorem setCal_to {s : State} {k : Nat} {m : Nat} {r : Option CalRun} (hT : T ||| 536870912 = T) (hS : To T s0 s) :
    To T s0 (setCal s k m r) := by
  unfold setCal
  repeat' (first | (with_reducible first | assumption | refine To.ite ?_ ?_) | exact To.sub hT (by decide) | refine To.fst (by assumption) ?_ | refine To.snd (by assumption) ?_ | split | with_reducible first | refine To.set_cal ?_ ?_)

theorem calAbortSt_to {s : State} {k : Nat} {m : Nat} (hT : T ||| 536870914 = T) (hS : To T s0 s) :
    To T s0 (calAbortSt k m s) := by
  unfold calAbortSt
  repeat' (first | (with_reducible first | assumption | refine To.ite ?_ ?_ | refine setReg_to ?_ ?_ | refine setCal_to ?_ ?_) | exact To.sub hT (by decide) | refine To.fst (by assumption) ?_ | refine To.snd (by assumption) ?_ | split)

theorem calAbortAll_to {s : State} {k : Nat} (hT : T ||| 536870914 = T) (hS : To T s0 s) :
    To T s0 (calAbortAll k s) := by
  unfold calAbortAll
  try dsimp -proj only
  repeat' (first | (with_reducible first | assumption | refine To.ite ?_ ?_ | refine calAbortSt_to ?_ ?_ | refine To.foldl _ (fun _ _ _ => ?_) ?_ | refine To.foldl_fst _ (fun _ _ _ => ?_) ?_) | exact To.sub hT (by decide) | refine To.fst (by assumption) ?_ | refine To.snd (by assumption) ?_ | split | dsimp -proj only | (intro _; intros))

theorem calStartSt_to {s : State} {k : Nat} {m : Nat} (hT : T ||| 537919490 = T) (hS : To T s0 s) :
    To T s0 (calStartSt k m s) := by
  unfold calStartSt
  try dsimp -proj only
  repeat' (first | (with_reducible first | assumption | refine To.ite ?_ ?_ | refine ownErr_to ?_ ?_ | refine setReg_to ?_ ?_ | refine setCal_to ?_ ?_) | exact To.sub hT (by decide) | refine To.fst (by assumption) ?_ | refine To.snd (by assumption) ?_ | split | dsimp -proj only)

theorem calDoneSt_to {s : State} {k : Nat} {m : Nat} (hT : T ||| 538124530 = T) (hS : To T s0 s) :
    To T s0 (calDoneSt k m s) := by
  unfold calDoneSt
  try dsimp -proj only
  repeat' (first | (with_reducible first | assumption | refine To.ite ?_ ?_ | refine memPut_to ?_ ?_ | refine setReg_to ?_ ?_ | refine setCal_to ?_ ?_) | exact To.sub hT (by decide) | refine To.fst (by assumption) ?_ | refine To.snd (by assumption) ?_ | split | dsimp -proj only)

theorem chMirrorWrite_to {s : State} {k : Nat} {c : Nat} {v : Word} (hT : T ||| 545259522 = T) (hS : To T s0 s) :
    To T s0 (chMirrorWrite k c v s) := by
  unfold chMirrorWrite
  try dsimp -proj only
  repeat' (first | (with_reducible first | assumption | refine To.ite ?_ ?_ | refine setCh_to ?_ ?_ | refine calAbortSt_to ?_ ?_ | refine setChain_to ?_ ?_) | exact To.sub hT (by decide) | refine To.fst (by assumption) ?_ | refine To.snd (by assumption) ?_ | split | dsimp -proj only)

theorem execCalStart_to {s : State} {a : Acc} {k : Fin 4} {m : Fin 4} (hT : T ||| 537919506 = T) (hS : To T s0 s) :
    Out T s0 (execCalStart a k m s) := by
  unfold execCalStart
  repeat' (first | (with_reducible first | assumption | refine To.ite ?_ ?_ | refine onPage_to ?_ ?_ ?_ | refine calStartSt_to ?_ ?_ | refine Out.next ?_) | exact To.sub hT (by decide) | refine To.fst (by assumption) ?_ | refine To.snd (by assumption) ?_ | split | (intro _; intros))

theorem execCalAbort_to {s : State} {a : Acc} {k : Fin 4} {m : Fin 4} (hT : T ||| 537919506 = T) (hS : To T s0 s) :
    Out T s0 (execCalAbort a k m s) := by
  unfold execCalAbort
  repeat' (first | (with_reducible first | assumption | refine To.ite ?_ ?_ | refine onPage_to ?_ ?_ ?_ | refine calAbortSt_to ?_ ?_ | refine Out.next ?_) | exact To.sub hT (by decide) | refine To.fst (by assumption) ?_ | refine To.snd (by assumption) ?_ | split | (intro _; intros))

theorem execCalRecordDone_to {s : State} {k : Fin 4} {m : Fin 4} (hT : T ||| 538124530 = T) (hS : To T s0 s) :
    Out T s0 (execCalRecordDone k m s) := by
  unfold execCalRecordDone
  repeat' (first | (with_reducible first | assumption | refine To.ite ?_ ?_ | refine whileRuns_to ?_ ?_ ?_ | refine calDoneSt_to ?_ ?_ | refine Out.next ?_) | exact To.sub hT (by decide) | refine To.fst (by assumption) ?_ | refine To.snd (by assumption) ?_ | split | (intro _; intros))

end Sys2Proof.Machine
end

