-- ==== Sys2Proof/Laws/ToCoreBase.lean ====
section
/-! SUPPORT. The frames of the operations and meanings of CoreBase: what each may change. -/

namespace Sys2Proof.Machine

variable {T : Nat} {s0 : State}

theorem setCore_to {s : State} {c : Nat} {x : CoreSt} (hT : T ||| 2147483648 = T) (hS : To T s0 s) :
    To T s0 (setCore s c x) := by
  unfold setCore
  repeat' (first | (with_reducible first | assumption | refine To.ite ?_ ?_) | exact To.sub hT (by decide) | refine To.fst (by assumption) ?_ | refine To.snd (by assumption) ?_ | split | with_reducible first | refine To.set_cores ?_ ?_)

theorem modCore_to {s : State} {c : Nat} {f : CoreSt → CoreSt} (hT : T ||| 2147483648 = T) (hS : To T s0 s) :
    To T s0 (modCore s c f) := by
  unfold modCore
  repeat' (first | (with_reducible first | assumption | refine To.ite ?_ ?_ | refine setCore_to ?_ ?_) | exact To.sub hT (by decide) | refine To.fst (by assumption) ?_ | refine To.snd (by assumption) ?_ | split)

theorem placeFire_to {s : State} {c : Nat} {f : FireRec} (hT : T ||| 2148737266 = T) (hS : To T s0 s) :
    To T s0 (placeFire s c f).1 := by
  unfold placeFire
  try dsimp -proj only
  repeat' (first | (with_reducible first | assumption | refine To.ite ?_ ?_ | refine memPut_to ?_ ?_ | refine memWrite_to ?_ ?_ | refine modCore_to ?_ ?_) | exact To.sub hT (by decide) | refine To.fst (by assumption) ?_ | refine To.snd (by assumption) ?_ | split | dsimp -proj only | (intro _; intros))

theorem writeError_to {s : State} {c : Nat} {a : Nat} (hT : T ||| 2148532226 = T) (hS : To T s0 s) :
    To T s0 (writeError s c a) := by
  unfold writeError
  try dsimp -proj only
  repeat' (first | (with_reducible first | assumption | refine To.ite ?_ ?_ | refine ownErr_to ?_ ?_ | refine setEvt_to ?_ ?_ | refine modCore_to ?_ ?_) | exact To.sub hT (by decide) | refine To.fst (by assumption) ?_ | refine To.snd (by assumption) ?_ | split | dsimp -proj only | (intro _; intros))

theorem coreWriteNow_to {s : State} {c : Nat} {a : Nat} {d : List (Option Byte)} (hT : T ||| 2148737266 = T) (hS : To T s0 s) :
    To T s0 (coreWriteNow s c a d) := by
  unfold coreWriteNow
  repeat' (first | (with_reducible first | assumption | refine To.ite ?_ ?_ | refine memWriteEn_to ?_ ?_ | refine writeError_to ?_ ?_) | exact To.sub hT (by decide) | refine To.fst (by assumption) ?_ | refine To.snd (by assumption) ?_ | split)

theorem sendEntry_to {s : State} {c : Nat} {e : WbEntry} (hT : T ||| 2148737266 = T) (hS : To T s0 s) :
    To T s0 (sendEntry c s e) := by
  unfold sendEntry
  try dsimp -proj only
  repeat' (first | (with_reducible first | assumption | refine To.ite ?_ ?_ | refine coreWriteNow_to ?_ ?_) | exact To.sub hT (by decide) | refine To.fst (by assumption) ?_ | refine To.snd (by assumption) ?_ | split | dsimp -proj only)

theorem drainOne_to {s : State} {c : Nat} (hT : T ||| 2148737266 = T) (hS : To T s0 s) :
    To T s0 (drainOne c s) := by
  unfold drainOne
  try dsimp -proj only
  repeat' (first | (with_reducible first | assumption | refine To.ite ?_ ?_ | refine sendEntry_to ?_ ?_ | refine modCore_to ?_ ?_) | exact To.sub hT (by decide) | refine To.fst (by assumption) ?_ | refine To.snd (by assumption) ?_ | split | dsimp -proj only | (intro _; intros))

theorem drainAll_to {s : State} {c : Nat} (hT : T ||| 2148737266 = T) (hS : To T s0 s) :
    To T s0 (drainAll c s) := by
  unfold drainAll
  try dsimp -proj only
  repeat' (first | (with_reducible first | assumption | refine To.ite ?_ ?_ | refine sendEntry_to ?_ ?_ | refine modCore_to ?_ ?_ | refine To.foldl _ (fun _ _ _ => ?_) ?_ | refine To.foldl_fst _ (fun _ _ _ => ?_) ?_) | exact To.sub hT (by decide) | refine To.fst (by assumption) ?_ | refine To.snd (by assumption) ?_ | split | dsimp -proj only | (intro _; intros))

theorem bufLine_to {s : State} {c : Nat} {b : Nat} {d : List (Option Byte)} (hT : T ||| 2148737266 = T) (hS : To T s0 s) :
    To T s0 (bufLine s c b d) := by
  unfold bufLine
  try dsimp -proj only
  repeat' (first | (with_reducible first | assumption | refine To.ite ?_ ?_ | refine modCore_to ?_ ?_ | refine drainOne_to ?_ ?_) | exact To.sub hT (by decide) | refine To.fst (by assumption) ?_ | refine To.snd (by assumption) ?_ | split | dsimp -proj only | (intro _; intros))

theorem coreWrite_to {s : State} {c : Nat} {a : Nat} {d : List (Option Byte)} (hT : T ||| 2148737266 = T) (hS : To T s0 s) :
    To T s0 (coreWrite s c a d) := by
  unfold coreWrite
  try dsimp -proj only
  repeat' (first | (with_reducible first | assumption | refine To.ite ?_ ?_ | refine bufLine_to ?_ ?_) | exact To.sub hT (by decide) | refine To.fst (by assumption) ?_ | refine To.snd (by assumption) ?_ | split | dsimp -proj only)

theorem coreStart_to {s : State} {c : Nat} (hT : T ||| 2147483648 = T) (hS : To T s0 s) :
    To T s0 (coreStart c s) := by
  unfold coreStart
  try dsimp -proj only
  repeat' (first | (with_reducible first | assumption | refine To.ite ?_ ?_ | refine setCore_to ?_ ?_) | exact To.sub hT (by decide) | refine To.fst (by assumption) ?_ | refine To.snd (by assumption) ?_ | split | dsimp -proj only)

theorem coreEnable_to {s : State} {c : Nat} (hT : T ||| 2147483648 = T) (hS : To T s0 s) :
    To T s0 (coreEnable c s) := by
  unfold coreEnable
  repeat' (first | (with_reducible first | assumption | refine To.ite ?_ ?_ | refine coreStart_to ?_ ?_) | exact To.sub hT (by decide) | refine To.fst (by assumption) ?_ | refine To.snd (by assumption) ?_ | split)

theorem coreStop_to {s : State} {c : Nat} (hT : T ||| 2147483648 = T) (hS : To T s0 s) :
    To T s0 (coreStop c s) := by
  unfold coreStop
  try dsimp -proj only
  repeat' (first | (with_reducible first | assumption | refine To.ite ?_ ?_ | refine setCore_to ?_ ?_) | exact To.sub hT (by decide) | refine To.fst (by assumption) ?_ | refine To.snd (by assumption) ?_ | split | dsimp -proj only)

theorem failSlots_to {s : State} {c : Nat} {cause : Nat} (hT : T ||| 2147549184 = T) (hS : To T s0 s) :
    To T s0 (failSlots s c cause) := by
  unfold failSlots
  try dsimp -proj only
  repeat' (first | (with_reducible first | assumption | refine To.ite ?_ ?_ | refine failFire_to ?_ ?_ | refine setCore_to ?_ ?_ | refine To.foldl _ (fun _ _ _ => ?_) ?_ | refine To.foldl_fst _ (fun _ _ _ => ?_) ?_) | exact To.sub hT (by decide) | refine To.fst (by assumption) ?_ | refine To.snd (by assumption) ?_ | split | dsimp -proj only | (intro _; intros))

theorem haltCore_to {s : State} {c : Nat} {cause : Nat} (hT : T ||| 2148737266 = T) (hS : To T s0 s) :
    To T s0 (haltCore s c cause) := by
  unfold haltCore
  try dsimp -proj only
  repeat' (first | (with_reducible first | assumption | refine To.ite ?_ ?_ | refine failSlots_to ?_ ?_ | refine drainAll_to ?_ ?_ | refine setEvt_to ?_ ?_ | refine modCore_to ?_ ?_) | exact To.sub hT (by decide) | refine To.fst (by assumption) ?_ | refine To.snd (by assumption) ?_ | split | dsimp -proj only | (intro _; intros))

theorem coreDrop_to {s : State} {c : Nat} (hT : T ||| 2148737266 = T) (hS : To T s0 s) :
    To T s0 (coreDrop c s) := by
  unfold coreDrop
  try dsimp -proj only
  repeat' (first | (with_reducible first | assumption | refine To.ite ?_ ?_ | refine failSlots_to ?_ ?_ | refine drainAll_to ?_ ?_ | refine setCore_to ?_ ?_) | exact To.sub hT (by decide) | refine To.fst (by assumption) ?_ | refine To.snd (by assumption) ?_ | split | dsimp -proj only)

theorem coreHold_to {s : State} {c : Nat} (hT : T ||| 2148737266 = T) (hS : To T s0 s) :
    To T s0 (coreHold c s) := by
  unfold coreHold
  try dsimp -proj only
  repeat' (first | (with_reducible first | assumption | refine To.ite ?_ ?_ | refine failSlots_to ?_ ?_ | refine drainAll_to ?_ ?_ | refine setCore_to ?_ ?_) | exact To.sub hT (by decide) | refine To.fst (by assumption) ?_ | refine To.snd (by assumption) ?_ | split | dsimp -proj only)

theorem enterHandler_to {s : State} {c : Nat} {epc : Nat} {cause : Nat} {ecause : Nat} {ipl : Option Nat} (hT : T ||| 2147483648 = T) (hS : To T s0 s) :
    To T s0 (enterHandler c epc cause ecause ipl s) := by
  unfold enterHandler
  try dsimp -proj only
  repeat' (first | (with_reducible first | assumption | refine To.ite ?_ ?_ | refine modCore_to ?_ ?_) | exact To.sub hT (by decide) | refine To.fst (by assumption) ?_ | refine To.snd (by assumption) ?_ | split | dsimp -proj only | (intro _; intros))

theorem doubleTrap_to {s : State} {c : Nat} (hT : T ||| 2148737266 = T) (hS : To T s0 s) :
    To T s0 (doubleTrap s c) := by
  unfold doubleTrap
  repeat' (first | (with_reducible first | assumption | refine To.ite ?_ ?_ | refine haltCore_to ?_ ?_ | refine ownErr_to ?_ ?_) | exact To.sub hT (by decide) | refine To.fst (by assumption) ?_ | refine To.snd (by assumption) ?_ | split)

theorem takeTrap_to {s : State} {c : Nat} {epc : Nat} {t : TrapInfo} (hT : T ||| 2148737266 = T) (hS : To T s0 s) :
    To T s0 (takeTrap c epc t s) := by
  unfold takeTrap
  try dsimp -proj only
  repeat' (first | (with_reducible first | assumption | refine To.ite ?_ ?_ | refine doubleTrap_to ?_ ?_ | refine incCnt_to ?_ ?_ | refine modCore_to ?_ ?_ | refine enterHandler_to ?_ ?_) | exact To.sub hT (by decide) | refine To.fst (by assumption) ?_ | refine To.snd (by assumption) ?_ | split | dsimp -proj only | (intro _; intros))

theorem boundaryTraps_to {s : State} {c : Nat} (hT : T ||| 2148737266 = T) (hS : To T s0 s) :
    To T s0 (boundaryTraps c s) := by
  unfold boundaryTraps
  try dsimp -proj only
  repeat' (first | (with_reducible first | assumption | refine To.ite ?_ ?_ | refine takeTrap_to ?_ ?_ | refine setCore_to ?_ ?_) | exact To.sub hT (by decide) | refine To.fst (by assumption) ?_ | refine To.snd (by assumption) ?_ | split | dsimp -proj only)

theorem loseLine_to {s : State} {c : Nat} {a : Nat} (hT : T ||| 2148532226 = T) (hS : To T s0 s) :
    To T s0 (loseLine s c a) := by
  unfold loseLine
  try dsimp -proj only
  repeat' (first | (with_reducible first | assumption | refine To.ite ?_ ?_ | refine ownErr_to ?_ ?_ | refine setEvt_to ?_ ?_ | refine modCore_to ?_ ?_) | exact To.sub hT (by decide) | refine To.fst (by assumption) ?_ | refine To.snd (by assumption) ?_ | split | dsimp -proj only | (intro _; intros))

theorem writeBack_to {s : State} {c : Nat} {l : Line} (hT : T ||| 2148737266 = T) (hS : To T s0 s) :
    To T s0 (writeBack s c l) := by
  unfold writeBack
  repeat' (first | (with_reducible first | assumption | refine To.ite ?_ ?_ | refine loseLine_to ?_ ?_ | refine coreWrite_to ?_ ?_) | exact To.sub hT (by decide) | refine To.fst (by assumption) ?_ | refine To.snd (by assumption) ?_ | split)

theorem insertLine_to {s : State} {c : Nat} {l : Line} (hT : T ||| 2148737266 = T) (hS : To T s0 s) :
    To T s0 (insertLine s c l) := by
  unfold insertLine
  try dsimp -proj only
  repeat' (first | (with_reducible first | assumption | refine To.ite ?_ ?_ | refine setCore_to ?_ ?_ | refine modCore_to ?_ ?_ | refine writeBack_to ?_ ?_) | exact To.sub hT (by decide) | refine To.fst (by assumption) ?_ | refine To.snd (by assumption) ?_ | split | dsimp -proj only | (intro _; intros))

theorem flushLines_to {s : State} {c : Nat} {a : Nat} {n : Nat} (hT : T ||| 2148737266 = T) (hS : To T s0 s) :
    To T s0 (flushLines s c a n) := by
  unfold flushLines
  try dsimp -proj only
  repeat' (first | (with_reducible first | assumption | refine To.ite ?_ ?_ | refine writeBack_to ?_ ?_ | refine modCore_to ?_ ?_ | refine To.foldl _ (fun _ _ _ => ?_) ?_ | refine To.foldl_fst _ (fun _ _ _ => ?_) ?_) | exact To.sub hT (by decide) | refine To.fst (by assumption) ?_ | refine To.snd (by assumption) ?_ | split | dsimp -proj only | (intro _; intros))

theorem invalLines_to {s : State} {c : Nat} {a : Nat} {n : Nat} (hT : T ||| 2147483648 = T) (hS : To T s0 s) :
    To T s0 (invalLines s c a n) := by
  unfold invalLines
  try dsimp -proj only
  repeat' (first | (with_reducible first | assumption | refine To.ite ?_ ?_ | refine modCore_to ?_ ?_ | refine To.foldl _ (fun _ _ _ => ?_) ?_ | refine To.foldl_fst _ (fun _ _ _ => ?_) ?_) | exact To.sub hT (by decide) | refine To.fst (by assumption) ?_ | refine To.snd (by assumption) ?_ | split | dsimp -proj only | (intro _; intros))

theorem strikeLine_to {s : State} {c : Nat} {a : Option Addr} (hT : T ||| 2147483648 = T) (hS : To T s0 s) :
    To T s0 (strikeLine s c a) := by
  unfold strikeLine
  try dsimp -proj only
  repeat' (first | (with_reducible first | assumption | refine To.ite ?_ ?_ | refine modCore_to ?_ ?_) | exact To.sub hT (by decide) | refine To.fst (by assumption) ?_ | refine To.snd (by assumption) ?_ | split | dsimp -proj only | (intro _; intros))

end Sys2Proof.Machine
end

