-- ==== Sys2Proof/Laws/ToCluster.lean ====
section
/-! SUPPORT. The frames of the operations and meanings of Cluster: what each may change. -/

namespace Sys2Proof.Machine

variable {T : Nat} {s0 : State}

theorem coreMapSt_to {s : State} {c : Nat} {v : Word} (hT : T ||| 2148737522 = T) (hS : To T s0 s) :
    To T s0 (coreMapSt c v s) := by
  unfold coreMapSt
  try dsimp -proj only
  repeat' (first | (with_reducible first | assumption | refine To.ite ?_ ?_ | refine ownErr_to ?_ ?_ | refine coreHold_to ?_ ?_ | refine coreStart_to ?_ ?_ | refine To.foldl _ (fun _ _ _ => ?_) ?_ | refine To.foldl_fst _ (fun _ _ _ => ?_) ?_) | exact To.sub hT (by decide) | refine To.fst (by assumption) ?_ | refine To.snd (by assumption) ?_ | split | (with_reducible first | refine To.set_coreMap ?_ ?_ ?_ | exact kup_kset _ _ _ _ | exact kup_filter _ _) | dsimp -proj only | (intro _; intros))

theorem copyLocal_to {s : State} {src : Nat} {dst : Nat} {skip : List Nat} (hT : T ||| 96 = T) (hS : To T s0 s) :
    To T s0 (copyLocal src dst skip s) := by
  unfold copyLocal
  try dsimp -proj only
  repeat' (first | (with_reducible first | assumption | refine To.ite ?_ ?_ | refine setByte_to ?_ ?_ | refine To.foldl _ (fun _ _ _ => ?_) ?_ | refine To.foldl_fst _ (fun _ _ _ => ?_) ?_) | exact To.sub hT (by decide) | refine To.fst (by assumption) ?_ | refine To.snd (by assumption) ?_ | split | dsimp -proj only | (intro _; intros) | refine To.upd ?_)

theorem spareDoneSt_to {s : State} {c : Nat} (hT : T ||| 1074798706 = T) (hS : To T s0 s) :
    To T s0 (spareDoneSt c s) := by
  unfold spareDoneSt
  try dsimp -proj only
  repeat' (first | (with_reducible first | assumption | refine To.ite ?_ ?_ | refine readArrayWord_to ?_ ?_ | refine copyLocal_to ?_ ?_ | refine ownErr_to ?_ ?_ | refine setReg_to ?_ ?_ | refine To.foldl _ (fun _ _ _ => ?_) ?_ | refine To.foldl_fst _ (fun _ _ _ => ?_) ?_) | exact To.sub hT (by decide) | refine To.fst (by assumption) ?_ | refine To.snd (by assumption) ?_ | split | (with_reducible first | refine To.set_spareJobs ?_ ?_) | dsimp -proj only | (intro _; intros))

theorem spareCopySt_to {s : State} {c : Nat} {v : Word} (hT : T ||| 1073741826 = T) (hS : To T s0 s) :
    To T s0 (spareCopySt c v s) := by
  unfold spareCopySt
  try dsimp -proj only
  repeat' (first | (with_reducible first | assumption | refine To.ite ?_ ?_ | refine setReg_to ?_ ?_) | exact To.sub hT (by decide) | refine To.fst (by assumption) ?_ | refine To.snd (by assumption) ?_ | split | (with_reducible first | refine To.set_spareJobs ?_ ?_) | dsimp -proj only)

theorem clusterDrop_to {s : State} {c : Nat} (hT : T ||| 1073741824 = T) (hS : To T s0 s) :
    To T s0 (clusterDrop c s) := by
  unfold clusterDrop
  repeat' (first | (with_reducible first | assumption | refine To.ite ?_ ?_) | exact To.sub hT (by decide) | refine To.fst (by assumption) ?_ | refine To.snd (by assumption) ?_ | split | with_reducible first | refine To.set_spareJobs ?_ ?_)

theorem execCoreMapWrite_to {s : State} {a : Acc} {c : Fin 16} {v : Word} (hT : T ||| 2148737522 = T) (hS : To T s0 s) :
    Out T s0 (execCoreMapWrite a c v s) := by
  unfold execCoreMapWrite
  repeat' (first | (with_reducible first | assumption | refine To.ite ?_ ?_ | refine onPage_to ?_ ?_ ?_ | refine coreMapSt_to ?_ ?_ | refine Out.next ?_) | exact To.sub hT (by decide) | refine To.fst (by assumption) ?_ | refine To.snd (by assumption) ?_ | split | (intro _; intros))

theorem execSpareCopy_to {s : State} {a : Acc} {c : Fin 16} {v : Word} (hT : T ||| 1074790418 = T) (hS : To T s0 s) :
    Out T s0 (execSpareCopy a c v s) := by
  unfold execSpareCopy
  repeat' (first | (with_reducible first | assumption | refine To.ite ?_ ?_ | refine onPage_to ?_ ?_ ?_ | refine spareCopySt_to ?_ ?_ | refine Out.next ?_) | exact To.sub hT (by decide) | refine To.fst (by assumption) ?_ | refine To.snd (by assumption) ?_ | split | (intro _; intros))

theorem execSpareCopyDone_to {s : State} {c : Fin 16} (hT : T ||| 1074798706 = T) (hS : To T s0 s) :
    Out T s0 (execSpareCopyDone c s) := by
  unfold execSpareCopyDone
  repeat' (first | (with_reducible first | assumption | refine To.ite ?_ ?_ | refine whileRuns_to ?_ ?_ ?_ | refine spareDoneSt_to ?_ ?_ | refine Out.next ?_) | exact To.sub hT (by decide) | refine To.fst (by assumption) ?_ | refine To.snd (by assumption) ?_ | split | (intro _; intros))

end Sys2Proof.Machine
end

