-- ==== Sys2Proof/Laws/ToLanes.lean ====
section
/-! SUPPORT. The frames of the operations and meanings of Lanes: what each may change. -/

namespace Sys2Proof.Machine

variable {T : Nat} {s0 : State}

theorem setLane_to {s : State} {p : Nat} {l : Nat} {x : LaneSt} (hT : T ||| 68719476736 = T) (hS : To T s0 s) :
    To T s0 (setLane s p l x) := by
  unfold setLane
  repeat' (first | (with_reducible first | assumption | refine To.ite ?_ ?_) | exact To.sub hT (by decide) | refine To.fst (by assumption) ?_ | refine To.snd (by assumption) ?_ | split | with_reducible first | refine To.set_lanes ?_ ?_)

theorem setLn_to {s : State} {p : Nat} {l : Nat} {off : Nat} {v : Word} (hT : T ||| 2 = T) (hS : To T s0 s) :
    To T s0 (setLn s p l off v) := by
  unfold setLn
  repeat' (first | (with_reducible first | assumption | refine To.ite ?_ ?_ | refine setReg_to ?_ ?_) | exact To.sub hT (by decide) | refine To.fst (by assumption) ?_ | refine To.snd (by assumption) ?_ | split)

theorem laneLevels_to {s : State} {p : Nat} (hT : T ||| 2 = T) (hS : To T s0 s) :
    To T s0 (laneLevels p s) := by
  unfold laneLevels
  try dsimp -proj only
  repeat' (first | (with_reducible first | assumption | refine To.ite ?_ ?_ | refine modReg_to ?_ ?_ | refine To.foldl _ (fun _ _ _ => ?_) ?_ | refine To.foldl_fst _ (fun _ _ _ => ?_) ?_) | exact To.sub hT (by decide) | refine To.fst (by assumption) ?_ | refine To.snd (by assumption) ?_ | split | dsimp -proj only | (intro _; intros))

theorem lnEvt_to {s : State} {p : Nat} {l : Nat} {b : Nat} (hT : T ||| 2 = T) (hS : To T s0 s) :
    To T s0 (lnEvt s p l b) := by
  unfold lnEvt
  repeat' (first | (with_reducible first | assumption | refine To.ite ?_ ?_ | refine laneLevels_to ?_ ?_ | refine setLn_to ?_ ?_) | exact To.sub hT (by decide) | refine To.fst (by assumption) ?_ | refine To.snd (by assumption) ?_ | split)

theorem lnSts_to {s : State} {p : Nat} {l : Nat} {hi : Nat} {lo : Nat} {v : Nat} (hT : T ||| 2 = T) (hS : To T s0 s) :
    To T s0 (lnSts s p l hi lo v) := by
  unfold lnSts
  repeat' (first | (with_reducible first | assumption | refine To.ite ?_ ?_ | refine setLn_to ?_ ?_) | exact To.sub hT (by decide) | refine To.fst (by assumption) ?_ | refine To.snd (by assumption) ?_ | split)

theorem setLink_to {s : State} {q : Nat} {x : LinkSt} (hT : T ||| 2097152 = T) (hS : To T s0 s) :
    To T s0 (setLink s q x) := by
  unfold setLink
  repeat' (first | (with_reducible first | assumption | refine To.ite ?_ ?_) | exact To.sub hT (by decide) | refine To.fst (by assumption) ?_ | refine To.snd (by assumption) ?_ | split | with_reducible first | refine To.set_links ?_ ?_)

theorem setSub_to {s : State} {j : Nat} {x : SubSt} (hT : T ||| 16777216 = T) (hS : To T s0 s) :
    To T s0 (setSub s j x) := by
  unfold setSub
  repeat' (first | (with_reducible first | assumption | refine To.ite ?_ ?_) | exact To.sub hT (by decide) | refine To.fst (by assumption) ?_ | refine To.snd (by assumption) ?_ | split | with_reducible first | refine To.set_subs ?_ ?_)

theorem txTapsSt_to {s : State} {p : Nat} {l : Nat} {v : Word} (hT : T ||| 2 = T) (hS : To T s0 s) :
    To T s0 (txTapsSt p l v s) := by
  unfold txTapsSt
  repeat' (first | (with_reducible first | assumption | refine To.ite ?_ ?_ | refine setLn_to ?_ ?_ | refine lnEvt_to ?_ ?_) | exact To.sub hT (by decide) | refine To.fst (by assumption) ?_ | refine To.snd (by assumption) ?_ | split)

theorem laneStart_to {s : State} {p : Nat} {l : Nat} (hT : T ||| 68719476738 = T) (hS : To T s0 s) :
    To T s0 (laneStart p l s) := by
  unfold laneStart
  try dsimp -proj only
  repeat' (first | (with_reducible first | assumption | refine To.ite ?_ ?_ | refine setLn_to ?_ ?_ | refine lnSts_to ?_ ?_ | refine setLane_to ?_ ?_) | exact To.sub hT (by decide) | refine To.fst (by assumption) ?_ | refine To.snd (by assumption) ?_ | split | dsimp -proj only)

theorem laneSend_to {s : State} {p : Nat} {l : Nat} (hT : T ||| 68719476736 = T) (hS : To T s0 s) :
    To T s0 (laneSend p l s) := by
  unfold laneSend
  repeat' (first | (with_reducible first | assumption | refine To.ite ?_ ?_ | refine setLane_to ?_ ?_) | exact To.sub hT (by decide) | refine To.fst (by assumption) ?_ | refine To.snd (by assumption) ?_ | split)

theorem prbsSt_to {s : State} {p : Nat} {l : Nat} {errs : Nat} (hT : T ||| 2 = T) (hS : To T s0 s) :
    To T s0 (prbsSt p l errs s) := by
  unfold prbsSt
  repeat' (first | (with_reducible first | assumption | refine To.ite ?_ ?_ | refine lnEvt_to ?_ ?_ | refine setLn_to ?_ ?_) | exact To.sub hT (by decide) | refine To.fst (by assumption) ?_ | refine To.snd (by assumption) ?_ | split)

theorem fomWindowSt_to {s : State} {p : Nat} {l : Nat} {h : Nat} {v : Nat} {eq : RxEq} {m : LaneMeas} (hT : T ||| 68719476738 = T) (hS : To T s0 s) :
    To T s0 (fomWindowSt p l h v eq m s) := by
  unfold fomWindowSt
  try dsimp -proj only
  repeat' (first | (with_reducible first | assumption | refine To.ite ?_ ?_ | refine prbsSt_to ?_ ?_ | refine lnSts_to ?_ ?_ | refine setLn_to ?_ ?_ | refine setLane_to ?_ ?_ | refine lnEvt_to ?_ ?_ | refine laneSend_to ?_ ?_) | exact To.sub hT (by decide) | refine To.fst (by assumption) ?_ | refine To.snd (by assumption) ?_ | split | dsimp -proj only)

theorem cdrUnlockSt_to {s : State} {p : Nat} {l : Nat} (hT : T ||| 18 = T) (hS : To T s0 s) :
    To T s0 (cdrUnlockSt p l s) := by
  unfold cdrUnlockSt
  try dsimp -proj only
  repeat' (first | (with_reducible first | assumption | refine To.ite ?_ ?_ | refine lnSts_to ?_ ?_ | refine incCnt_to ?_ ?_ | refine lnEvt_to ?_ ?_) | exact To.sub hT (by decide) | refine To.fst (by assumption) ?_ | refine To.snd (by assumption) ?_ | split | dsimp -proj only)

theorem cdrLockSt_to {s : State} {p : Nat} {l : Nat} (hT : T ||| 2 = T) (hS : To T s0 s) :
    To T s0 (cdrLockSt p l s) := by
  unfold cdrLockSt
  repeat' (first | (with_reducible first | assumption | refine To.ite ?_ ?_ | refine lnSts_to ?_ ?_) | exact To.sub hT (by decide) | refine To.fst (by assumption) ?_ | refine To.snd (by assumption) ?_ | split)

theorem askPower_to {s : State} {p : Nat} {l : Nat} {t : Nat} (hT : T ||| 2 = T) (hS : To T s0 s) :
    To T s0 (askPower p l t s) := by
  unfold askPower
  try dsimp -proj only
  repeat' (first | (with_reducible first | assumption | refine To.ite ?_ ?_ | refine lnSts_to ?_ ?_) | exact To.sub hT (by decide) | refine To.fst (by assumption) ?_ | refine To.snd (by assumption) ?_ | split | dsimp -proj only)

theorem pstateReqSt_to {s : State} {a : Acc} {p : Nat} {l : Nat} {v : Word} (hT : T ||| 2 = T) (hS : To T s0 s) :
    To T s0 (pstateReqSt a p l v s) := by
  unfold pstateReqSt
  try dsimp -proj only
  repeat' (first | (with_reducible first | assumption | refine To.ite ?_ ?_ | refine setLn_to ?_ ?_ | refine askPower_to ?_ ?_) | exact To.sub hT (by decide) | refine To.fst (by assumption) ?_ | refine To.snd (by assumption) ?_ | split | dsimp -proj only)

theorem laneLose_to {s : State} {p : Nat} {l : Nat} (hT : T ||| 68719476738 = T) (hS : To T s0 s) :
    To T s0 (laneLose p l s) := by
  unfold laneLose
  try dsimp -proj only
  repeat' (first | (with_reducible first | assumption | refine To.ite ?_ ?_ | refine setLn_to ?_ ?_ | refine lnSts_to ?_ ?_ | refine setLane_to ?_ ?_) | exact To.sub hT (by decide) | refine To.fst (by assumption) ?_ | refine To.snd (by assumption) ?_ | split | dsimp -proj only)

theorem pstateDoneSt_to {s : State} {p : Nat} {l : Nat} (hT : T ||| 68719476738 = T) (hS : To T s0 s) :
    To T s0 (pstateDoneSt p l s) := by
  unfold pstateDoneSt
  try dsimp -proj only
  repeat' (first | (with_reducible first | assumption | refine To.ite ?_ ?_ | refine lnSts_to ?_ ?_ | refine laneLose_to ?_ ?_ | refine laneStart_to ?_ ?_ | refine lnEvt_to ?_ ?_) | exact To.sub hT (by decide) | refine To.fst (by assumption) ?_ | refine To.snd (by assumption) ?_ | split | dsimp -proj only)

theorem laneDomain_to {s : State} {p : Nat} {l : Nat} {st : Nat} (hT : T ||| 68719476738 = T) (hS : To T s0 s) :
    To T s0 (laneDomain p l st s) := by
  unfold laneDomain
  try dsimp -proj only
  repeat' (first | (with_reducible first | assumption | refine To.ite ?_ ?_ | refine laneLose_to ?_ ?_ | refine lnSts_to ?_ ?_ | refine askPower_to ?_ ?_) | exact To.sub hT (by decide) | refine To.fst (by assumption) ?_ | refine To.snd (by assumption) ?_ | split | dsimp -proj only)

theorem controlWordSt_to {s : State} {p : Nat} {l : Nat} {w : BitVec 64} (hT : T ||| 68719476738 = T) (hS : To T s0 s) :
    To T s0 (controlWordSt p l w s) := by
  unfold controlWordSt
  try dsimp -proj only
  repeat' (first | (with_reducible first | assumption | refine To.ite ?_ ?_ | refine setLn_to ?_ ?_ | refine laneSend_to ?_ ?_ | refine setLane_to ?_ ?_) | exact To.sub hT (by decide) | refine To.fst (by assumption) ?_ | refine To.snd (by assumption) ?_ | split | dsimp -proj only)

theorem eqTsSt_to {s : State} {p : Nat} {l : Nat} {m : EqTs} (hT : T ||| 68719476738 = T) (hS : To T s0 s) :
    To T s0 (eqTsSt p l m s) := by
  unfold eqTsSt
  try dsimp -proj only
  repeat' (first | (with_reducible first | assumption | refine To.ite ?_ ?_ | refine setLane_to ?_ ?_ | refine lnSts_to ?_ ?_ | refine setLn_to ?_ ?_ | refine laneSend_to ?_ ?_) | exact To.sub hT (by decide) | refine To.fst (by assumption) ?_ | refine To.snd (by assumption) ?_ | split | dsimp -proj only)

theorem trainDoneSt_to {s : State} {p : Nat} {l : Nat} (hT : T ||| 68719476738 = T) (hS : To T s0 s) :
    To T s0 (trainDoneSt p l s) := by
  unfold trainDoneSt
  try dsimp -proj only
  repeat' (first | (with_reducible first | assumption | refine To.ite ?_ ?_ | refine laneSend_to ?_ ?_ | refine setLane_to ?_ ?_ | refine lnEvt_to ?_ ?_ | refine lnSts_to ?_ ?_) | exact To.sub hT (by decide) | refine To.fst (by assumption) ?_ | refine To.snd (by assumption) ?_ | split | dsimp -proj only)

theorem cuwHandshake_to {s : State} (hT : T ||| 206158430210 = T) (hS : To T s0 s) :
    To T s0 (cuwHandshake s) := by
  unfold cuwHandshake
  try dsimp -proj only
  repeat' (first | (with_reducible first | assumption | refine To.ite ?_ ?_ | refine setLane_to ?_ ?_ | refine lnSts_to ?_ ?_ | refine To.foldl _ (fun _ _ _ => ?_) ?_ | refine To.foldl_fst _ (fun _ _ _ => ?_) ?_) | exact To.sub hT (by decide) | refine To.fst (by assumption) ?_ | refine To.snd (by assumption) ?_ | split | (with_reducible first | refine To.set_cuw ?_ ?_) | dsimp -proj only | (intro _; intros))

theorem cuwRetrain_to {s : State} (hT : T ||| 206158430226 = T) (hS : To T s0 s) :
    To T s0 (cuwRetrain s) := by
  unfold cuwRetrain
  repeat' (first | (with_reducible first | assumption | refine To.ite ?_ ?_ | refine cuwHandshake_to ?_ ?_ | refine incCnt_to ?_ ?_) | exact To.sub hT (by decide) | refine To.fst (by assumption) ?_ | refine To.snd (by assumption) ?_ | split)

theorem cuwDown_to {s : State} {cls : Nat} {code : Nat} (hT : T ||| 137440002050 = T) (hS : To T s0 s) :
    To T s0 (cuwDown s cls code) := by
  unfold cuwDown
  try dsimp -proj only
  repeat' (first | (with_reducible first | assumption | refine To.ite ?_ ?_ | refine ownErr_to ?_ ?_ | refine setEvt_to ?_ ?_) | exact To.sub hT (by decide) | refine To.fst (by assumption) ?_ | refine To.snd (by assumption) ?_ | split | (with_reducible first | refine To.set_cuw ?_ ?_) | dsimp -proj only)

theorem handshakeSt_to {s : State} {peer : CuwPeer} (hT : T ||| 206159478786 = T) (hS : To T s0 s) :
    To T s0 (handshakeSt peer s) := by
  unfold handshakeSt
  try dsimp -proj only
  repeat' (first | (with_reducible first | assumption | refine To.ite ?_ ?_ | refine cuwDown_to ?_ ?_ | refine lnSts_to ?_ ?_ | refine laneStart_to ?_ ?_ | refine laneSend_to ?_ ?_ | refine setLane_to ?_ ?_ | refine To.foldl _ (fun _ _ _ => ?_) ?_ | refine To.foldl_fst _ (fun _ _ _ => ?_) ?_) | exact To.sub hT (by decide) | refine To.fst (by assumption) ?_ | refine To.snd (by assumption) ?_ | split | (with_reducible first | refine To.set_cuw ?_ ?_) | dsimp -proj only | (intro _; intros))

theorem linkUpSt_to {s : State} {txPass : BitVec 16} (hT : T ||| 137440002050 = T) (hS : To T s0 s) :
    To T s0 (linkUpSt txPass s) := by
  unfold linkUpSt
  try dsimp -proj only
  repeat' (first | (with_reducible first | assumption | refine To.ite ?_ ?_ | refine cuwDown_to ?_ ?_ | refine setEvt_to ?_ ?_) | exact To.sub hT (by decide) | refine To.fst (by assumption) ?_ | refine To.snd (by assumption) ?_ | split | (with_reducible first | refine To.set_cuw ?_ ?_) | dsimp -proj only | (intro _; intros))

theorem frameOut_to {s : State} {typ : Nat} {seq : Nat} {flit : List Byte} (hT : T ||| 137438953472 = T) (hS : To T s0 s) :
    To T s0 (frameOut typ seq flit s) := by
  unfold frameOut
  repeat' (first | (with_reducible first | assumption | refine To.ite ?_ ?_) | exact To.sub hT (by decide) | refine To.fst (by assumption) ?_ | refine To.snd (by assumption) ?_ | split | with_reducible first | refine To.set_cuw ?_ ?_)

theorem cuwPump_to {y1 : State} {y0 : Nat} (hT : T ||| 137438953488 = T) (hS : To T s0 y1) :
    To T s0 (cuwPump y0 y1) := by
  induction y0 generalizing y1 with
  | zero => exact hS
  | succ _ ih =>
    unfold cuwPump
    try dsimp -proj only
    repeat' (first | (with_reducible first | assumption | refine To.ite ?_ ?_ | refine incCnt_to ?_ ?_ | refine frameOut_to ?_ ?_ | refine ih ?_) | exact To.sub hT (by decide) | refine To.fst (by assumption) ?_ | refine To.snd (by assumption) ?_ | split | (with_reducible first | refine To.set_cuw ?_ ?_) | dsimp -proj only | (intro _; intros))

theorem cuwSend_to {s : State} {f : CuwFlit} (hT : T ||| 137438953488 = T) (hS : To T s0 s) :
    To T s0 (cuwSend f s) := by
  unfold cuwSend
  repeat' (first | (with_reducible first | assumption | refine To.ite ?_ ?_ | refine incCnt_to ?_ ?_ | refine cuwPump_to ?_ ?_) | exact To.sub hT (by decide) | refine To.fst (by assumption) ?_ | refine To.snd (by assumption) ?_ | split | with_reducible first | refine To.set_cuw ?_ ?_)

theorem cuwAnswer_to {s : State} {q : Req} {r : Resp} {d : List Byte} (hT : T ||| 137438953488 = T) (hS : To T s0 s) :
    To T s0 (cuwAnswer q r d s) := by
  unfold cuwAnswer
  try dsimp -proj only
  repeat' (first | (with_reducible first | assumption | refine To.ite ?_ ?_ | refine cuwSend_to ?_ ?_ | refine To.foldl _ (fun _ _ _ => ?_) ?_ | refine To.foldl_fst _ (fun _ _ _ => ?_) ?_) | exact To.sub hT (by decide) | refine To.fst (by assumption) ?_ | refine To.snd (by assumption) ?_ | split | dsimp -proj only | (intro _; intros))

theorem cuwDeliver_to {s : State} {b : List Byte} (hT : T ||| 1114130 = T) (hS : To T s0 s) :
    To T s0 (cuwDeliver b s) := by
  unfold cuwDeliver
  try dsimp -proj only
  repeat' (first | (with_reducible first | assumption | refine To.ite ?_ ?_ | refine ownErr_to ?_ ?_ | refine incCnt_to ?_ ?_ | refine issueReq_to ?_ ?_ | refine To.foldl _ (fun _ _ _ => ?_) ?_ | refine To.foldl_fst _ (fun _ _ _ => ?_) ?_) | exact To.sub hT (by decide) | refine To.fst (by assumption) ?_ | refine To.snd (by assumption) ?_ | split | (with_reducible first | refine To.set_fab ?_ ?_) | dsimp -proj only | (intro _; intros))

theorem cuwAck_to {s : State} {w1 : Nat} {cr : List Nat} (hT : T ||| 137438953488 = T) (hS : To T s0 s) :
    To T s0 (cuwAck w1 cr s) := by
  unfold cuwAck
  try dsimp -proj only
  repeat' (first | (with_reducible first | assumption | refine To.ite ?_ ?_ | refine addCnt_to ?_ ?_ | refine frameOut_to ?_ ?_ | refine cuwPump_to ?_ ?_ | refine To.foldl _ (fun _ _ _ => ?_) ?_ | refine To.foldl_fst _ (fun _ _ _ => ?_) ?_) | exact To.sub hT (by decide) | refine To.fst (by assumption) ?_ | refine To.snd (by assumption) ?_ | split | (with_reducible first | refine To.set_cuw ?_ ?_) | dsimp -proj only | (intro _; intros))

theorem cuwSettle_to {s : State} (hT : T ||| 137438953472 = T) (hS : To T s0 s) :
    To T s0 (cuwSettle s) := by
  unfold cuwSettle
  repeat' (first | (with_reducible first | assumption | refine To.ite ?_ ?_) | exact To.sub hT (by decide) | refine To.fst (by assumption) ?_ | refine To.snd (by assumption) ?_ | split | with_reducible first | refine To.set_cuw ?_ ?_)

theorem cuwReply_to {s : State} {before : Nat} (hT : T ||| 137438953472 = T) (hS : To T s0 s) :
    To T s0 (cuwReply before s) := by
  unfold cuwReply
  repeat' (first | (with_reducible first | assumption | refine To.ite ?_ ?_ | refine cuwSettle_to ?_ ?_ | refine frameOut_to ?_ ?_) | exact To.sub hT (by decide) | refine To.fst (by assumption) ?_ | refine To.snd (by assumption) ?_ | split)

theorem cuwTake_to {s : State} {b : List Byte} (hT : T ||| 137440067602 = T) (hS : To T s0 s) :
    To T s0 (cuwTake b s) := by
  unfold cuwTake
  try dsimp -proj only
  repeat' (first | (with_reducible first | assumption | refine To.ite ?_ ?_ | refine ownErr_to ?_ ?_ | refine setEvt_to ?_ ?_ | refine incCnt_to ?_ ?_ | refine cuwAck_to ?_ ?_ | refine cuwDeliver_to ?_ ?_ | refine To.foldl _ (fun _ _ _ => ?_) ?_ | refine To.foldl_fst _ (fun _ _ _ => ?_) ?_) | exact To.sub hT (by decide) | refine To.fst (by assumption) ?_ | refine To.snd (by assumption) ?_ | split | (with_reducible first | refine To.set_cuw ?_ ?_) | dsimp -proj only | (intro _; intros))

theorem cuwFrameSt_to {s : State} {b : List Byte} (hT : T ||| 137440067602 = T) (hS : To T s0 s) :
    To T s0 (cuwFrameSt b s) := by
  unfold cuwFrameSt
  repeat' (first | (with_reducible first | assumption | refine To.ite ?_ ?_ | refine cuwReply_to ?_ ?_ | refine cuwTake_to ?_ ?_) | exact To.sub hT (by decide) | refine To.fst (by assumption) ?_ | refine To.snd (by assumption) ?_ | split)

theorem recoverySt_to {s : State} (hT : T ||| 137438953488 = T) (hS : To T s0 s) :
    To T s0 (recoverySt s) := by
  unfold recoverySt
  try dsimp -proj only
  repeat' (first | (with_reducible first | assumption | refine To.ite ?_ ?_ | refine incCnt_to ?_ ?_) | exact To.sub hT (by decide) | refine To.fst (by assumption) ?_ | refine To.snd (by assumption) ?_ | split | (with_reducible first | refine To.set_cuw ?_ ?_) | dsimp -proj only | (intro _; intros))

theorem recoveryDoneSt_to {s : State} {ok : Bool} (hT : T ||| 206159478802 = T) (hS : To T s0 s) :
    To T s0 (recoveryDoneSt ok s) := by
  unfold recoveryDoneSt
  try dsimp -proj only
  repeat' (first | (with_reducible first | assumption | refine To.ite ?_ ?_ | refine cuwPump_to ?_ ?_ | refine setEvt_to ?_ ?_ | refine ownErr_to ?_ ?_ | refine cuwRetrain_to ?_ ?_) | exact To.sub hT (by decide) | refine To.fst (by assumption) ?_ | refine To.snd (by assumption) ?_ | split | (with_reducible first | refine To.set_cuw ?_ ?_) | dsimp -proj only | (intro _; intros))

theorem autoRetrySt_to {s : State} (hT : T ||| 206158430226 = T) (hS : To T s0 s) :
    To T s0 (autoRetrySt s) := by
  unfold autoRetrySt
  repeat' (first | (with_reducible first | assumption | refine To.ite ?_ ?_ | refine cuwRetrain_to ?_ ?_) | exact To.sub hT (by decide) | refine To.fst (by assumption) ?_ | refine To.snd (by assumption) ?_ | split)

theorem execTxTapsWrite_to {s : State} {a : Acc} {p : Fin 512} {l : Fin 4} {v : Word} (hT : T ||| 1048594 = T) (hS : To T s0 s) :
    Out T s0 (execTxTapsWrite a p l v s) := by
  unfold execTxTapsWrite
  try dsimp -proj only
  repeat' (first | (with_reducible first | assumption | refine To.ite ?_ ?_ | refine onPage_to ?_ ?_ ?_ | refine txTapsSt_to ?_ ?_ | refine Out.next ?_) | exact To.sub hT (by decide) | refine To.fst (by assumption) ?_ | refine To.snd (by assumption) ?_ | split | dsimp -proj only | (intro _; intros))

theorem execCdrUnlock_to {s : State} {p : Fin 512} {l : Fin 4} (hT : T ||| 18 = T) (hS : To T s0 s) :
    Out T s0 (execCdrUnlock p l s) := by
  unfold execCdrUnlock
  repeat' (first | (with_reducible first | assumption | refine To.ite ?_ ?_ | refine whileRuns_to ?_ ?_ ?_ | refine cdrUnlockSt_to ?_ ?_ | refine Out.next ?_) | exact To.sub hT (by decide) | refine To.fst (by assumption) ?_ | refine To.snd (by assumption) ?_ | split | (intro _; intros))

theorem execCdrLock_to {s : State} {p : Fin 512} {l : Fin 4} (hT : T ||| 2 = T) (hS : To T s0 s) :
    Out T s0 (execCdrLock p l s) := by
  unfold execCdrLock
  repeat' (first | (with_reducible first | assumption | refine To.ite ?_ ?_ | refine whileRuns_to ?_ ?_ ?_ | refine cdrLockSt_to ?_ ?_ | refine Out.next ?_) | exact To.sub hT (by decide) | refine To.fst (by assumption) ?_ | refine To.snd (by assumption) ?_ | split | (intro _; intros))

theorem execFomWindowEnd_to {s : State} {p : Fin 512} {l : Fin 4} {h : Fin 65537} {v : Fin 65537} {x : RxWindow} (hT : T ||| 68719476738 = T) (hS : To T s0 s) :
    Out T s0 (execFomWindowEnd p l h v x s) := by
  unfold execFomWindowEnd
  repeat' (first | (with_reducible first | assumption | refine To.ite ?_ ?_ | refine whileRuns_to ?_ ?_ ?_ | refine fomWindowSt_to ?_ ?_ | refine Out.next ?_) | exact To.sub hT (by decide) | refine To.fst (by assumption) ?_ | refine To.snd (by assumption) ?_ | split | (intro _; intros))

theorem execPstateRequest_to {s : State} {a : Acc} {p : Fin 512} {l : Fin 4} {v : Word} (hT : T ||| 1048594 = T) (hS : To T s0 s) :
    Out T s0 (execPstateRequest a p l v s) := by
  unfold execPstateRequest
  repeat' (first | (with_reducible first | assumption | refine To.ite ?_ ?_ | refine onPage_to ?_ ?_ ?_ | refine pstateReqSt_to ?_ ?_ | refine Out.next ?_) | exact To.sub hT (by decide) | refine To.fst (by assumption) ?_ | refine To.snd (by assumption) ?_ | split | (intro _; intros))

theorem execPstateDone_to {s : State} {p : Fin 512} {l : Fin 4} (hT : T ||| 68719476738 = T) (hS : To T s0 s) :
    Out T s0 (execPstateDone p l s) := by
  unfold execPstateDone
  repeat' (first | (with_reducible first | assumption | refine To.ite ?_ ?_ | refine whileRuns_to ?_ ?_ ?_ | refine pstateDoneSt_to ?_ ?_ | refine Out.next ?_) | exact To.sub hT (by decide) | refine To.fst (by assumption) ?_ | refine To.snd (by assumption) ?_ | split | (intro _; intros))

theorem execControlWord_to {s : State} {q : Fin 8} {l : Fin 4} {w : TrainWord} (hT : T ||| 68719476738 = T) (hS : To T s0 s) :
    Out T s0 (execControlWord q l w s) := by
  unfold execControlWord
  repeat' (first | (with_reducible first | assumption | refine To.ite ?_ ?_ | refine whileRuns_to ?_ ?_ ?_ | refine controlWordSt_to ?_ ?_ | refine eqTsSt_to ?_ ?_ | refine Out.next ?_) | exact To.sub hT (by decide) | refine To.fst (by assumption) ?_ | refine To.snd (by assumption) ?_ | split | (intro _; intros))

theorem execTrainDone_to {s : State} {q : Fin 8} {l : Fin 4} (hT : T ||| 68719476738 = T) (hS : To T s0 s) :
    Out T s0 (execTrainDone q l s) := by
  unfold execTrainDone
  repeat' (first | (with_reducible first | assumption | refine To.ite ?_ ?_ | refine whileRuns_to ?_ ?_ ?_ | refine trainDoneSt_to ?_ ?_ | refine Out.next ?_) | exact To.sub hT (by decide) | refine To.fst (by assumption) ?_ | refine To.snd (by assumption) ?_ | split | (intro _; intros))

theorem execRetrain_to {s : State} {a : Acc} (hT : T ||| 206159478802 = T) (hS : To T s0 s) :
    Out T s0 (execRetrain a s) := by
  unfold execRetrain
  repeat' (first | (with_reducible first | assumption | refine To.ite ?_ ?_ | refine onPage_to ?_ ?_ ?_ | refine cuwRetrain_to ?_ ?_ | refine Out.next ?_) | exact To.sub hT (by decide) | refine To.fst (by assumption) ?_ | refine To.snd (by assumption) ?_ | split | (intro _; intros))

theorem execHandshake_to {s : State} {peer : CuwPeer} (hT : T ||| 206159478786 = T) (hS : To T s0 s) :
    Out T s0 (execHandshake peer s) := by
  unfold execHandshake
  repeat' (first | (with_reducible first | assumption | refine To.ite ?_ ?_ | refine whileRuns_to ?_ ?_ ?_ | refine handshakeSt_to ?_ ?_ | refine Out.next ?_) | exact To.sub hT (by decide) | refine To.fst (by assumption) ?_ | refine To.snd (by assumption) ?_ | split | (intro _; intros))

theorem execLinkUp_to {s : State} {txPass : BitVec 16} (hT : T ||| 137440002050 = T) (hS : To T s0 s) :
    Out T s0 (execLinkUp txPass s) := by
  unfold execLinkUp
  repeat' (first | (with_reducible first | assumption | refine To.ite ?_ ?_ | refine whileRuns_to ?_ ?_ ?_ | refine linkUpSt_to ?_ ?_ | refine Out.next ?_) | exact To.sub hT (by decide) | refine To.fst (by assumption) ?_ | refine To.snd (by assumption) ?_ | split | (intro _; intros))

theorem execCuwickFrame_to {s : State} {bytes : List Byte} (hT : T ||| 137440067602 = T) (hS : To T s0 s) :
    Out T s0 (execCuwickFrame bytes s) := by
  unfold execCuwickFrame
  repeat' (first | (with_reducible first | assumption | refine To.ite ?_ ?_ | refine whileRuns_to ?_ ?_ ?_ | refine cuwFrameSt_to ?_ ?_ | refine Out.next ?_) | exact To.sub hT (by decide) | refine To.fst (by assumption) ?_ | refine To.snd (by assumption) ?_ | split | (intro _; intros))

theorem execRecovery_to {s : State} (hT : T ||| 137438953488 = T) (hS : To T s0 s) :
    Out T s0 (execRecovery s) := by
  unfold execRecovery
  repeat' (first | (with_reducible first | assumption | refine To.ite ?_ ?_ | refine whileRuns_to ?_ ?_ ?_ | refine recoverySt_to ?_ ?_ | refine Out.next ?_) | exact To.sub hT (by decide) | refine To.fst (by assumption) ?_ | refine To.snd (by assumption) ?_ | split | (intro _; intros))

theorem execRecoveryDone_to {s : State} {ok : Bool} (hT : T ||| 206159478802 = T) (hS : To T s0 s) :
    Out T s0 (execRecoveryDone ok s) := by
  unfold execRecoveryDone
  repeat' (first | (with_reducible first | assumption | refine To.ite ?_ ?_ | refine whileRuns_to ?_ ?_ ?_ | refine recoveryDoneSt_to ?_ ?_ | refine Out.next ?_) | exact To.sub hT (by decide) | refine To.fst (by assumption) ?_ | refine To.snd (by assumption) ?_ | split | (intro _; intros))

theorem execAutoRetry_to {s : State} (hT : T ||| 206158430226 = T) (hS : To T s0 s) :
    Out T s0 (execAutoRetry s) := by
  unfold execAutoRetry
  repeat' (first | (with_reducible first | assumption | refine To.ite ?_ ?_ | refine whileRuns_to ?_ ?_ ?_ | refine autoRetrySt_to ?_ ?_ | refine Out.next ?_) | exact To.sub hT (by decide) | refine To.fst (by assumption) ?_ | refine To.snd (by assumption) ?_ | split | (intro _; intros))

end Sys2Proof.Machine
end

