-- ==== Sys2Proof/Laws/ToConv.lean ====
section
/-! SUPPORT. The frames of the operations and meanings of Conv: what each may change. -/

namespace Sys2Proof.Machine

variable {T : Nat} {s0 : State}

theorem linkLocking_to {s : State} {q : Nat} (hT : T ||| 2097152 = T) (hS : To T s0 s) :
    To T s0 (linkLocking q s) := by
  unfold linkLocking
  repeat' (first | (with_reducible first | assumption | refine To.ite ?_ ?_ | refine setLink_to ?_ ?_) | exact To.sub hT (by decide) | refine To.fst (by assumption) ?_ | refine To.snd (by assumption) ?_ | split)

theorem quadPower_to {s : State} {q : Nat} (hT : T ||| 68719476738 = T) (hS : To T s0 s) :
    To T s0 (quadPower q s) := by
  unfold quadPower
  try dsimp -proj only
  repeat' (first | (with_reducible first | assumption | refine To.ite ?_ ?_ | refine laneDomain_to ?_ ?_ | refine To.foldl _ (fun _ _ _ => ?_) ?_ | refine To.foldl_fst _ (fun _ _ _ => ?_) ?_) | exact To.sub hT (by decide) | refine To.fst (by assumption) ?_ | refine To.snd (by assumption) ?_ | split | dsimp -proj only | (intro _; intros))

theorem linkEnable_to {s : State} {q : Nat} (hT : T ||| 68722622466 = T) (hS : To T s0 s) :
    To T s0 (linkEnable q s) := by
  unfold linkEnable
  repeat' (first | (with_reducible first | assumption | refine To.ite ?_ ?_ | refine ownErr_to ?_ ?_ | refine setLink_to ?_ ?_ | refine quadPower_to ?_ ?_ | refine linkLocking_to ?_ ?_) | exact To.sub hT (by decide) | refine To.fst (by assumption) ?_ | refine To.snd (by assumption) ?_ | split)

theorem linkDrop_to {s : State} {q : Nat} (hT : T ||| 68721573890 = T) (hS : To T s0 s) :
    To T s0 (linkDrop q s) := by
  unfold linkDrop
  try dsimp -proj only
  repeat' (first | (with_reducible first | assumption | refine To.ite ?_ ?_ | refine setLink_to ?_ ?_ | refine quadPower_to ?_ ?_) | exact To.sub hT (by decide) | refine To.fst (by assumption) ?_ | refine To.snd (by assumption) ?_ | split | dsimp -proj only)

theorem linkResume_to {s : State} {q : Nat} (hT : T ||| 2097152 = T) (hS : To T s0 s) :
    To T s0 (linkResume q s) := by
  unfold linkResume
  repeat' (first | (with_reducible first | assumption | refine To.ite ?_ ?_ | refine linkLocking_to ?_ ?_ | refine setLink_to ?_ ?_) | exact To.sub hT (by decide) | refine To.fst (by assumption) ?_ | refine To.snd (by assumption) ?_ | split)

theorem sysrefArmSt_to {s : State} {q : Nat} {v : Word} (hT : T ||| 2097154 = T) (hS : To T s0 s) :
    To T s0 (sysrefArmSt q v s) := by
  unfold sysrefArmSt
  try dsimp -proj only
  repeat' (first | (with_reducible first | assumption | refine To.ite ?_ ?_ | refine setReg_to ?_ ?_ | refine setLink_to ?_ ?_) | exact To.sub hT (by decide) | refine To.fst (by assumption) ?_ | refine To.snd (by assumption) ?_ | split | dsimp -proj only)

theorem laneSyncSt_to {s : State} {q : Nat} {l : Nat} (hT : T ||| 2097152 = T) (hS : To T s0 s) :
    To T s0 (laneSyncSt q l s) := by
  unfold laneSyncSt
  try dsimp -proj only
  repeat' (first | (with_reducible first | assumption | refine To.ite ?_ ?_ | refine setLink_to ?_ ?_) | exact To.sub hT (by decide) | refine To.fst (by assumption) ?_ | refine To.snd (by assumption) ?_ | split | dsimp -proj only)

theorem ilasSt_to {s : State} {q : Nat} {ilas : Option Ilas} (hT : T ||| 3145730 = T) (hS : To T s0 s) :
    To T s0 (ilasSt q ilas s) := by
  unfold ilasSt
  try dsimp -proj only
  repeat' (first | (with_reducible first | assumption | refine To.ite ?_ ?_ | refine ownErr_to ?_ ?_ | refine setEvt_to ?_ ?_ | refine setLink_to ?_ ?_) | exact To.sub hT (by decide) | refine To.fst (by assumption) ?_ | refine To.snd (by assumption) ?_ | split | dsimp -proj only)

theorem alignLemc_to {s : State} {k : Nat} {e : Int} (hT : T ||| 4194304 = T) (hS : To T s0 s) :
    To T s0 (alignLemc k e s) := by
  unfold alignLemc
  try dsimp -proj only
  repeat' (first | (with_reducible first | assumption | refine To.ite ?_ ?_ | refine setLemc_to ?_ ?_) | exact To.sub hT (by decide) | refine To.fst (by assumption) ?_ | refine To.snd (by assumption) ?_ | split | dsimp -proj only | (intro _; intros))

theorem edgeSeen_to {s : State} {q : Nat} (hT : T ||| 2 = T) (hS : To T s0 s) :
    To T s0 (edgeSeen s q) := by
  unfold edgeSeen
  try dsimp -proj only
  repeat' (first | (with_reducible first | assumption | refine To.ite ?_ ?_ | refine modReg_to ?_ ?_) | exact To.sub hT (by decide) | refine To.fst (by assumption) ?_ | refine To.snd (by assumption) ?_ | split | dsimp -proj only | (intro _; intros))

theorem sysrefAt_to {s : State} {q : Nat} {err : Int} (hT : T ||| 3145746 = T) (hS : To T s0 s) :
    To T s0 (sysrefAt q err s).1 := by
  unfold sysrefAt
  try dsimp -proj only
  repeat' (first | (with_reducible first | assumption | refine To.ite ?_ ?_ | refine edgeSeen_to ?_ ?_ | refine incCnt_to ?_ ?_ | refine setEvt_to ?_ ?_ | refine setLink_to ?_ ?_ | refine ownErr_to ?_ ?_ | refine modReg_to ?_ ?_) | exact To.sub hT (by decide) | refine To.fst (by assumption) ?_ | refine To.snd (by assumption) ?_ | split | dsimp -proj only | (intro _; intros))

theorem sysrefEdgeSt_to {s : State} {k : Nat} {late : Bool} (hT : T ||| 7340050 = T) (hS : To T s0 s) :
    To T s0 (sysrefEdgeSt k late s) := by
  unfold sysrefEdgeSt
  try dsimp -proj only
  repeat' (first | (with_reducible first | assumption | refine To.ite ?_ ?_ | refine sysrefAt_to ?_ ?_ | refine alignLemc_to ?_ ?_ | refine setLemc_to ?_ ?_ | refine To.foldl _ (fun _ _ _ => ?_) ?_ | refine To.foldl_fst _ (fun _ _ _ => ?_) ?_) | exact To.sub hT (by decide) | refine To.fst (by assumption) ?_ | refine To.snd (by assumption) ?_ | split | dsimp -proj only | (intro _; intros))

theorem ebDepth_to {s : State} {q : Nat} {l : Nat} {depth : Option Nat} (hT : T ||| 2 = T) (hS : To T s0 s) :
    To T s0 (ebDepth q l depth s) := by
  unfold ebDepth
  try dsimp -proj only
  repeat' (first | (with_reducible first | assumption | refine To.ite ?_ ?_ | refine modReg_to ?_ ?_ | refine setEvt_to ?_ ?_) | exact To.sub hT (by decide) | refine To.fst (by assumption) ?_ | refine To.snd (by assumption) ?_ | split | dsimp -proj only | (intro _; intros))

theorem ebArrive_to {s : State} {q : Nat} {l : Nat} {octets : List Byte} (hT : T ||| 3145730 = T) (hS : To T s0 s) :
    To T s0 (ebArrive q l octets s) := by
  unfold ebArrive
  try dsimp -proj only
  repeat' (first | (with_reducible first | assumption | refine To.ite ?_ ?_ | refine ownErr_to ?_ ?_ | refine setEvt_to ?_ ?_ | refine setLink_to ?_ ?_) | exact To.sub hT (by decide) | refine To.fst (by assumption) ?_ | refine To.snd (by assumption) ?_ | split | dsimp -proj only)

theorem releaseEb_to {s : State} {q : Nat} (hT : T ||| 2097154 = T) (hS : To T s0 s) :
    To T s0 (releaseEb q s) := by
  unfold releaseEb
  try dsimp -proj only
  repeat' (first | (with_reducible first | assumption | refine To.ite ?_ ?_ | refine ebDepth_to ?_ ?_ | refine setLink_to ?_ ?_ | refine To.foldl _ (fun _ _ _ => ?_) ?_ | refine To.foldl_fst _ (fun _ _ _ => ?_) ?_) | exact To.sub hT (by decide) | refine To.fst (by assumption) ?_ | refine To.snd (by assumption) ?_ | split | dsimp -proj only | (intro _; intros))

theorem crcError_to {s : State} {q : Nat} {l : Nat} (hT : T ||| 18 = T) (hS : To T s0 s) :
    To T s0 (crcError q l s) := by
  unfold crcError
  try dsimp -proj only
  repeat' (first | (with_reducible first | assumption | refine To.ite ?_ ?_ | refine modReg_to ?_ ?_ | refine setEvt_to ?_ ?_ | refine incCnt_to ?_ ?_) | exact To.sub hT (by decide) | refine To.fst (by assumption) ?_ | refine To.snd (by assumption) ?_ | split | dsimp -proj only | (intro _; intros))

theorem multiblockSt_to {s : State} {q : Nat} {l : Nat} {headOk : Bool} {crcOk : Bool} {octets : List Byte} (hT : T ||| 3145746 = T) (hS : To T s0 s) :
    To T s0 (multiblockSt q l headOk crcOk octets s) := by
  unfold multiblockSt
  try dsimp -proj only
  repeat' (first | (with_reducible first | assumption | refine To.ite ?_ ?_ | refine setLink_to ?_ ?_ | refine crcError_to ?_ ?_ | refine ebArrive_to ?_ ?_) | exact To.sub hT (by decide) | refine To.fst (by assumption) ?_ | refine To.snd (by assumption) ?_ | split | dsimp -proj only)

theorem declareDown_to {s : State} {q : Nat} {l : Nat} (hT : T ||| 3145746 = T) (hS : To T s0 s) :
    To T s0 (declareDown q l s) := by
  unfold declareDown
  try dsimp -proj only
  repeat' (first | (with_reducible first | assumption | refine To.ite ?_ ?_ | refine setLink_to ?_ ?_ | refine captureErr_to ?_ ?_ | refine incCnt_to ?_ ?_ | refine setEvt_to ?_ ?_) | exact To.sub hT (by decide) | refine To.fst (by assumption) ?_ | refine To.snd (by assumption) ?_ | split | dsimp -proj only)

theorem laneDownSt_to {s : State} {q : Nat} {l : Nat} (hT : T ||| 3145746 = T) (hS : To T s0 s) :
    To T s0 (laneDownSt q l s) := by
  unfold laneDownSt
  try dsimp -proj only
  repeat' (first | (with_reducible first | assumption | refine To.ite ?_ ?_ | refine declareDown_to ?_ ?_) | exact To.sub hT (by decide) | refine To.fst (by assumption) ?_ | refine To.snd (by assumption) ?_ | split | dsimp -proj only)

theorem laneRecoverSt_to {s : State} {q : Nat} {l : Nat} (hT : T ||| 2097152 = T) (hS : To T s0 s) :
    To T s0 (laneRecoverSt q l s) := by
  unfold laneRecoverSt
  try dsimp -proj only
  repeat' (first | (with_reducible first | assumption | refine To.ite ?_ ?_ | refine setLink_to ?_ ?_) | exact To.sub hT (by decide) | refine To.fst (by assumption) ?_ | refine To.snd (by assumption) ?_ | split | dsimp -proj only)

theorem loseLanes_to {s : State} {q : Nat} (hT : T ||| 3145746 = T) (hS : To T s0 s) :
    To T s0 (loseLanes q s) := by
  unfold loseLanes
  try dsimp -proj only
  repeat' (first | (with_reducible first | assumption | refine To.ite ?_ ?_ | refine declareDown_to ?_ ?_ | refine To.foldl _ (fun _ _ _ => ?_) ?_ | refine To.foldl_fst _ (fun _ _ _ => ?_) ?_) | exact To.sub hT (by decide) | refine To.fst (by assumption) ?_ | refine To.snd (by assumption) ?_ | split | dsimp -proj only | (intro _; intros))

theorem jsyncLowSt_to {s : State} {q : Nat} {frames : Nat} (hT : T ||| 2097154 = T) (hS : To T s0 s) :
    To T s0 (jsyncLowSt q frames s) := by
  unfold jsyncLowSt
  try dsimp -proj only
  repeat' (first | (with_reducible first | assumption | refine To.ite ?_ ?_ | refine setEvt_to ?_ ?_ | refine setLink_to ?_ ?_) | exact To.sub hT (by decide) | refine To.fst (by assumption) ?_ | refine To.snd (by assumption) ?_ | split | dsimp -proj only)

theorem realignSt_to {s : State} {q : Nat} {v : Word} (hT : T ||| 4194320 = T) (hS : To T s0 s) :
    To T s0 (realignSt q v s) := by
  unfold realignSt
  try dsimp -proj only
  repeat' (first | (with_reducible first | assumption | refine To.ite ?_ ?_ | refine incCnt_to ?_ ?_ | refine alignLemc_to ?_ ?_) | exact To.sub hT (by decide) | refine To.fst (by assumption) ?_ | refine To.snd (by assumption) ?_ | split | dsimp -proj only)

theorem subArmSt_to {s : State} {j : Nat} (hT : T ||| 16777218 = T) (hS : To T s0 s) :
    To T s0 (subArmSt j s) := by
  unfold subArmSt
  try dsimp -proj only
  repeat' (first | (with_reducible first | assumption | refine To.ite ?_ ?_ | refine setSub_to ?_ ?_ | refine setLn_to ?_ ?_ | refine askPower_to ?_ ?_) | exact To.sub hT (by decide) | refine To.fst (by assumption) ?_ | refine To.snd (by assumption) ?_ | split | dsimp -proj only)

theorem subReadySt_to {s : State} {j : Nat} (hT : T ||| 16777218 = T) (hS : To T s0 s) :
    To T s0 (subReadySt j s) := by
  unfold subReadySt
  repeat' (first | (with_reducible first | assumption | refine To.ite ?_ ?_ | refine setEvt_to ?_ ?_ | refine setSub_to ?_ ?_) | exact To.sub hT (by decide) | refine To.fst (by assumption) ?_ | refine To.snd (by assumption) ?_ | split)

theorem subFailSt_to {s : State} {j : Nat} (hT : T ||| 16777218 = T) (hS : To T s0 s) :
    To T s0 (subFailSt j s) := by
  unfold subFailSt
  repeat' (first | (with_reducible first | assumption | refine To.ite ?_ ?_ | refine askPower_to ?_ ?_ | refine setEvt_to ?_ ?_ | refine setSub_to ?_ ?_) | exact To.sub hT (by decide) | refine To.fst (by assumption) ?_ | refine To.snd (by assumption) ?_ | split)

theorem subSwapSt_to {s : State} {j : Nat} (hT : T ||| 16777216 = T) (hS : To T s0 s) :
    To T s0 (subSwapSt j s) := by
  unfold subSwapSt
  repeat' (first | (with_reducible first | assumption | refine To.ite ?_ ?_ | refine setSub_to ?_ ?_) | exact To.sub hT (by decide) | refine To.fst (by assumption) ?_ | refine To.snd (by assumption) ?_ | split)

theorem subSwapExecuteSt_to {s : State} {j : Nat} (hT : T ||| 16777218 = T) (hS : To T s0 s) :
    To T s0 (subSwapExecuteSt j s) := by
  unfold subSwapExecuteSt
  try dsimp -proj only
  repeat' (first | (with_reducible first | assumption | refine To.ite ?_ ?_ | refine askPower_to ?_ ?_ | refine setEvt_to ?_ ?_ | refine setSub_to ?_ ?_) | exact To.sub hT (by decide) | refine To.fst (by assumption) ?_ | refine To.snd (by assumption) ?_ | split | dsimp -proj only)

theorem subReleaseSt_to {s : State} {j : Nat} (hT : T ||| 16777218 = T) (hS : To T s0 s) :
    To T s0 (subReleaseSt j s) := by
  unfold subReleaseSt
  try dsimp -proj only
  repeat' (first | (with_reducible first | assumption | refine To.ite ?_ ?_ | refine askPower_to ?_ ?_ | refine setSub_to ?_ ?_) | exact To.sub hT (by decide) | refine To.fst (by assumption) ?_ | refine To.snd (by assumption) ?_ | split | dsimp -proj only)

theorem subDrop_to {s : State} {j : Nat} (hT : T ||| 16777216 = T) (hS : To T s0 s) :
    To T s0 (subDrop j s) := by
  unfold subDrop
  repeat' (first | (with_reducible first | assumption | refine To.ite ?_ ?_ | refine setSub_to ?_ ?_) | exact To.sub hT (by decide) | refine To.fst (by assumption) ?_ | refine To.snd (by assumption) ?_ | split)

theorem execSysrefArm_to {s : State} {a : Acc} {q : Fin 32} {v : Word} (hT : T ||| 3145746 = T) (hS : To T s0 s) :
    Out T s0 (execSysrefArm a q v s) := by
  unfold execSysrefArm
  repeat' (first | (with_reducible first | assumption | refine To.ite ?_ ?_ | refine onPage_to ?_ ?_ ?_ | refine sysrefArmSt_to ?_ ?_ | refine Out.next ?_) | exact To.sub hT (by decide) | refine To.fst (by assumption) ?_ | refine To.snd (by assumption) ?_ | split | (intro _; intros))

theorem execLaneSyncAcquired_to {s : State} {q : Fin 32} {l : Fin 4} (hT : T ||| 2097152 = T) (hS : To T s0 s) :
    Out T s0 (execLaneSyncAcquired q l s) := by
  unfold execLaneSyncAcquired
  repeat' (first | (with_reducible first | assumption | refine To.ite ?_ ?_ | refine whileRuns_to ?_ ?_ ?_ | refine laneSyncSt_to ?_ ?_ | refine Out.next ?_) | exact To.sub hT (by decide) | refine To.fst (by assumption) ?_ | refine To.snd (by assumption) ?_ | split | (intro _; intros))

theorem execIlasReceived_to {s : State} {q : Fin 32} {ilas : Option Ilas} (hT : T ||| 3145730 = T) (hS : To T s0 s) :
    Out T s0 (execIlasReceived q ilas s) := by
  unfold execIlasReceived
  repeat' (first | (with_reducible first | assumption | refine To.ite ?_ ?_ | refine whileRuns_to ?_ ?_ ?_ | refine ilasSt_to ?_ ?_ | refine Out.next ?_) | exact To.sub hT (by decide) | refine To.fst (by assumption) ?_ | refine To.snd (by assumption) ?_ | split | (intro _; intros))

theorem execSysrefEdge_to {s : State} {k : Fin 4} {late : Bool} (hT : T ||| 7340050 = T) (hS : To T s0 s) :
    Out T s0 (execSysrefEdge k late s) := by
  unfold execSysrefEdge
  repeat' (first | (with_reducible first | assumption | refine To.ite ?_ ?_ | refine whileRuns_to ?_ ?_ ?_ | refine sysrefEdgeSt_to ?_ ?_ | refine Out.next ?_) | exact To.sub hT (by decide) | refine To.fst (by assumption) ?_ | refine To.snd (by assumption) ?_ | split | (intro _; intros))

theorem execMultiblockReceived_to {s : State} {q : Fin 32} {l : Fin 4} {headOk : Bool} {crcOk : Bool} {octets : List Byte} (hT : T ||| 3145746 = T) (hS : To T s0 s) :
    Out T s0 (execMultiblockReceived q l headOk crcOk octets s) := by
  unfold execMultiblockReceived
  repeat' (first | (with_reducible first | assumption | refine To.ite ?_ ?_ | refine whileRuns_to ?_ ?_ ?_ | refine multiblockSt_to ?_ ?_ | refine Out.next ?_) | exact To.sub hT (by decide) | refine To.fst (by assumption) ?_ | refine To.snd (by assumption) ?_ | split | (intro _; intros))

theorem execLaneDown_to {s : State} {q : Fin 32} {l : Fin 4} (hT : T ||| 3145746 = T) (hS : To T s0 s) :
    Out T s0 (execLaneDown q l s) := by
  unfold execLaneDown
  repeat' (first | (with_reducible first | assumption | refine To.ite ?_ ?_ | refine whileRuns_to ?_ ?_ ?_ | refine laneDownSt_to ?_ ?_ | refine Out.next ?_) | exact To.sub hT (by decide) | refine To.fst (by assumption) ?_ | refine To.snd (by assumption) ?_ | split | (intro _; intros))

theorem execLaneRecover_to {s : State} {q : Fin 32} {l : Fin 4} (hT : T ||| 2097152 = T) (hS : To T s0 s) :
    Out T s0 (execLaneRecover q l s) := by
  unfold execLaneRecover
  repeat' (first | (with_reducible first | assumption | refine To.ite ?_ ?_ | refine whileRuns_to ?_ ?_ ?_ | refine laneRecoverSt_to ?_ ?_ | refine Out.next ?_) | exact To.sub hT (by decide) | refine To.fst (by assumption) ?_ | refine To.snd (by assumption) ?_ | split | (intro _; intros))

theorem execJsyncLow_to {s : State} {q : Fin 32} {frames : Nat} (hT : T ||| 2097154 = T) (hS : To T s0 s) :
    Out T s0 (execJsyncLow q frames s) := by
  unfold execJsyncLow
  repeat' (first | (with_reducible first | assumption | refine To.ite ?_ ?_ | refine whileRuns_to ?_ ?_ ?_ | refine jsyncLowSt_to ?_ ?_ | refine Out.next ?_) | exact To.sub hT (by decide) | refine To.fst (by assumption) ?_ | refine To.snd (by assumption) ?_ | split | (intro _; intros))

theorem execRealign_to {s : State} {a : Acc} {q : Fin 32} {v : Word} (hT : T ||| 5242898 = T) (hS : To T s0 s) :
    Out T s0 (execRealign a q v s) := by
  unfold execRealign
  repeat' (first | (with_reducible first | assumption | refine To.ite ?_ ?_ | refine onPage_to ?_ ?_ ?_ | refine realignSt_to ?_ ?_ | refine Out.next ?_) | exact To.sub hT (by decide) | refine To.fst (by assumption) ?_ | refine To.snd (by assumption) ?_ | split | (intro _; intros))

theorem execSubArm_to {s : State} {a : Acc} {j : Fin 4} (hT : T ||| 17825810 = T) (hS : To T s0 s) :
    Out T s0 (execSubArm a j s) := by
  unfold execSubArm
  repeat' (first | (with_reducible first | assumption | refine To.ite ?_ ?_ | refine onPage_to ?_ ?_ ?_ | refine subArmSt_to ?_ ?_ | refine Out.next ?_) | exact To.sub hT (by decide) | refine To.fst (by assumption) ?_ | refine To.snd (by assumption) ?_ | split | (intro _; intros))

theorem execSubReady_to {s : State} {j : Fin 4} (hT : T ||| 16777218 = T) (hS : To T s0 s) :
    Out T s0 (execSubReady j s) := by
  unfold execSubReady
  repeat' (first | (with_reducible first | assumption | refine To.ite ?_ ?_ | refine whileRuns_to ?_ ?_ ?_ | refine subReadySt_to ?_ ?_ | refine Out.next ?_) | exact To.sub hT (by decide) | refine To.fst (by assumption) ?_ | refine To.snd (by assumption) ?_ | split | (intro _; intros))

theorem execSubFail_to {s : State} {j : Fin 4} (hT : T ||| 16777218 = T) (hS : To T s0 s) :
    Out T s0 (execSubFail j s) := by
  unfold execSubFail
  repeat' (first | (with_reducible first | assumption | refine To.ite ?_ ?_ | refine whileRuns_to ?_ ?_ ?_ | refine subFailSt_to ?_ ?_ | refine Out.next ?_) | exact To.sub hT (by decide) | refine To.fst (by assumption) ?_ | refine To.snd (by assumption) ?_ | split | (intro _; intros))

theorem execSubSwap_to {s : State} {a : Acc} {j : Fin 4} (hT : T ||| 17825810 = T) (hS : To T s0 s) :
    Out T s0 (execSubSwap a j s) := by
  unfold execSubSwap
  repeat' (first | (with_reducible first | assumption | refine To.ite ?_ ?_ | refine onPage_to ?_ ?_ ?_ | refine subSwapSt_to ?_ ?_ | refine Out.next ?_) | exact To.sub hT (by decide) | refine To.fst (by assumption) ?_ | refine To.snd (by assumption) ?_ | split | (intro _; intros))

theorem execSubSwapExecute_to {s : State} {j : Fin 4} (hT : T ||| 16777218 = T) (hS : To T s0 s) :
    Out T s0 (execSubSwapExecute j s) := by
  unfold execSubSwapExecute
  repeat' (first | (with_reducible first | assumption | refine To.ite ?_ ?_ | refine whileRuns_to ?_ ?_ ?_ | refine subSwapExecuteSt_to ?_ ?_ | refine Out.next ?_) | exact To.sub hT (by decide) | refine To.fst (by assumption) ?_ | refine To.snd (by assumption) ?_ | split | (intro _; intros))

theorem execSubRelease_to {s : State} {a : Acc} {j : Fin 4} (hT : T ||| 17825810 = T) (hS : To T s0 s) :
    Out T s0 (execSubRelease a j s) := by
  unfold execSubRelease
  repeat' (first | (with_reducible first | assumption | refine To.ite ?_ ?_ | refine onPage_to ?_ ?_ ?_ | refine subReleaseSt_to ?_ ?_ | refine Out.next ?_) | exact To.sub hT (by decide) | refine To.fst (by assumption) ?_ | refine To.snd (by assumption) ?_ | split | (intro _; intros))

end Sys2Proof.Machine
end

