-- ==== Sys2Proof/Laws/ToOperands.lean ====
section
/-! SUPPORT. The frames of the operations and meanings of Operands: what each may change. -/

namespace Sys2Proof.Machine

variable {T : Nat} {s0 : State}

theorem fetchDesc_to {s : State} {src : Nat} {a : Nat} {blk : Nat} {ok : Nat → Nat → Bool} (hT : T ||| 1187922 = T) (hS : To T s0 s) :
    To T s0 (fetchDesc s src a blk ok).1 := by
  unfold fetchDesc
  try dsimp -proj only
  repeat' (first | (with_reducible first | assumption | refine To.ite ?_ ?_ | refine memRead_to ?_ ?_) | exact To.sub hT (by decide) | refine To.fst (by assumption) ?_ | refine To.snd (by assumption) ?_ | split | dsimp -proj only)

theorem closeDesc_to {s : State} {src : Nat} {a : Nat} {result : Nat} {cls : Nat} {sts : Nat} (hT : T ||| 1253618 = T) (hS : To T s0 s) :
    To T s0 (closeDesc s src a result cls sts) := by
  unfold closeDesc
  try dsimp -proj only
  repeat' (first | (with_reducible first | assumption | refine To.ite ?_ ?_ | refine memPut_to ?_ ?_ | refine memGet_to ?_ ?_) | exact To.sub hT (by decide) | refine To.fst (by assumption) ?_ | refine To.snd (by assumption) ?_ | split | dsimp -proj only)

theorem refuseDesc_to {s : State} {src : Nat} {a : Nat} (hT : T ||| 1253618 = T) (hS : To T s0 s) :
    To T s0 (refuseDesc s src a) := by
  unfold refuseDesc
  repeat' (first | (with_reducible first | assumption | refine To.ite ?_ ?_ | refine closeDesc_to ?_ ?_) | exact To.sub hT (by decide) | refine To.fst (by assumption) ?_ | refine To.snd (by assumption) ?_ | split)

theorem Ring.push_to {s : State} {r : Ring} {data : List Byte} (hT : T ||| 1253618 = T) (hS : To T s0 s) :
    To T s0 (Ring.push s r data) := by
  unfold Ring.push
  try dsimp -proj only
  repeat' (first | (with_reducible first | assumption | refine To.ite ?_ ?_ | refine memPut_to ?_ ?_ | refine setReg_to ?_ ?_) | exact To.sub hT (by decide) | refine To.fst (by assumption) ?_ | refine To.snd (by assumption) ?_ | split | dsimp -proj only)

end Sys2Proof.Machine
end

