-- ==== Sys2Proof/Laws/ToDma.lean ====
section
/-! SUPPORT. The frames of the operations and meanings of Dma: what each may change. -/

namespace Sys2Proof.Machine

variable {T : Nat} {s0 : State}

theorem setDma_to {s : State} {c : Nat} {x : DmaCh} (hT : T ||| 17179869184 = T) (hS : To T s0 s) :
    To T s0 (setDma s c x) := by
  unfold setDma
  repeat' (first | (with_reducible first | assumption | refine To.ite ?_ ?_) | exact To.sub hT (by decide) | refine To.fst (by assumption) ?_ | refine To.snd (by assumption) ?_ | split | with_reducible first | refine To.set_dma ?_ ?_)

theorem setChReg_to {s : State} {c : Nat} {off : Nat} {v : Word} (hT : T ||| 2 = T) (hS : To T s0 s) :
    To T s0 (setChReg s c off v) := by
  unfold setChReg
  repeat' (first | (with_reducible first | assumption | refine To.ite ?_ ?_ | refine setReg_to ?_ ?_) | exact To.sub hT (by decide) | refine To.fst (by assumption) ?_ | refine To.snd (by assumption) ?_ | split)

theorem dmaLevels_to {s : State} {e : Nat} (hT : T ||| 2 = T) (hS : To T s0 s) :
    To T s0 (dmaLevels e s) := by
  unfold dmaLevels
  try dsimp -proj only
  repeat' (first | (with_reducible first | assumption | refine To.ite ?_ ?_ | refine modReg_to ?_ ?_ | refine To.foldl _ (fun _ _ _ => ?_) ?_ | refine To.foldl_fst _ (fun _ _ _ => ?_) ?_) | exact To.sub hT (by decide) | refine To.fst (by assumption) ?_ | refine To.snd (by assumption) ?_ | split | dsimp -proj only | (intro _; intros))

theorem dmaNextRead_to {s : State} {c : Nat} (hT : T ||| 17179934720 = T) (hS : To T s0 s) :
    Ops T s0 (dmaNextRead c s) := by
  unfold dmaNextRead
  try dsimp -proj only
  repeat' (first | (with_reducible first | assumption | refine To.ite ?_ ?_ | refine issueReq_to ?_ ?_ | refine setDma_to ?_ ?_ | refine Ops.some ?_ | exact Ops.none) | exact To.sub hT (by decide) | refine To.fst (by assumption) ?_ | refine To.snd (by assumption) ?_ | split | dsimp -proj only | (intro _; intros))

theorem dmaNextBeat_to {s : State} {c : Nat} (hT : T ||| 17179934720 = T) (hS : To T s0 s) :
    Ops T s0 (dmaNextBeat c s) := by
  unfold dmaNextBeat
  try dsimp -proj only
  repeat' (first | (with_reducible first | assumption | refine To.ite ?_ ?_ | refine issueReq_to ?_ ?_ | refine setDma_to ?_ ?_ | refine Ops.some ?_ | exact Ops.none) | exact To.sub hT (by decide) | refine To.fst (by assumption) ?_ | refine To.snd (by assumption) ?_ | split | dsimp -proj only)

theorem dmaPump_to {y2 : State} {c : Nat} {y1 : Nat} (hT : T ||| 17179934720 = T) (hS : To T s0 y2) :
    To T s0 (dmaPump c y1 y2) := by
  induction y1 generalizing y2 with
  | zero => exact hS
  | succ _ ih =>
    unfold dmaPump
    repeat' (first | (with_reducible first | assumption | refine To.ite ?_ ?_ | refine Ops.get (by assumption) ?_ | refine dmaNextBeat_to ?_ ?_ | refine dmaNextRead_to ?_ ?_ | refine ih ?_) | exact To.sub hT (by decide) | refine To.fst (by assumption) ?_ | refine To.snd (by assumption) ?_ | split)

theorem dmaFetch_to {s : State} {c : Nat} (hT : T ||| 17179934720 = T) (hS : To T s0 s) :
    To T s0 (dmaFetch c s) := by
  unfold dmaFetch
  try dsimp -proj only
  repeat' (first | (with_reducible first | assumption | refine To.ite ?_ ?_ | refine issueReq_to ?_ ?_ | refine setDma_to ?_ ?_) | exact To.sub hT (by decide) | refine To.fst (by assumption) ?_ | refine To.snd (by assumption) ?_ | split | dsimp -proj only)

theorem dmaStart_to {s : State} {c : Nat} {f : Option FireRec} (hT : T ||| 17179934722 = T) (hS : To T s0 s) :
    To T s0 (dmaStart c f s) := by
  unfold dmaStart
  try dsimp -proj only
  repeat' (first | (with_reducible first | assumption | refine To.ite ?_ ?_ | refine setDma_to ?_ ?_ | refine setChReg_to ?_ ?_ | refine dmaFetch_to ?_ ?_) | exact To.sub hT (by decide) | refine To.fst (by assumption) ?_ | refine To.snd (by assumption) ?_ | split | dsimp -proj only)

theorem dmaTrigger_to {s : State} {c : Nat} {f : Option FireRec} (hT : T ||| 17179934738 = T) (hS : To T s0 s) :
    To T s0 (dmaTrigger c f s).1 := by
  unfold dmaTrigger
  try dsimp -proj only
  repeat' (first | (with_reducible first | assumption | refine To.ite ?_ ?_ | refine incCnt_to ?_ ?_ | refine dmaStart_to ?_ ?_ | refine setDma_to ?_ ?_ | refine setEvt_to ?_ ?_) | exact To.sub hT (by decide) | refine To.fst (by assumption) ?_ | refine To.snd (by assumption) ?_ | split | dsimp -proj only)

theorem dmaTriggerAll_to {s : State} {src : Nat} {arg : Nat} (hT : T ||| 17179934738 = T) (hS : To T s0 s) :
    To T s0 (dmaTriggerAll src arg s) := by
  unfold dmaTriggerAll
  try dsimp -proj only
  repeat' (first | (with_reducible first | assumption | refine To.ite ?_ ?_ | refine dmaTrigger_to ?_ ?_ | refine To.foldl _ (fun _ _ _ => ?_) ?_ | refine To.foldl_fst _ (fun _ _ _ => ?_) ?_) | exact To.sub hT (by decide) | refine To.fst (by assumption) ?_ | refine To.snd (by assumption) ?_ | split | dsimp -proj only | (intro _; intros))

theorem dmaTime_to {s : State} {n : Nat} (hT : T ||| 17179934738 = T) (hS : To T s0 s) :
    To T s0 (dmaTime n s) := by
  unfold dmaTime
  repeat' (first | (with_reducible first | assumption | refine To.ite ?_ ?_ | refine dmaTriggerAll_to ?_ ?_) | exact To.sub hT (by decide) | refine To.fst (by assumption) ?_ | refine To.snd (by assumption) ?_ | split)

theorem dmaFail_to {s : State} {c : Nat} {f : Option FireRec} {cause : Nat} (hT : T ||| 65536 = T) (hS : To T s0 s) :
    To T s0 (dmaFail c f cause s) := by
  unfold dmaFail
  repeat' (first | (with_reducible first | assumption | refine To.ite ?_ ?_ | refine failFire_to ?_ ?_) | exact To.sub hT (by decide) | refine To.fst (by assumption) ?_ | refine To.snd (by assumption) ?_ | split)

theorem dmaDropPend_to {s : State} {c : Nat} {cause : Nat} (hT : T ||| 17179934720 = T) (hS : To T s0 s) :
    To T s0 (dmaDropPend c cause s) := by
  unfold dmaDropPend
  try dsimp -proj only
  repeat' (first | (with_reducible first | assumption | refine To.ite ?_ ?_ | refine dmaFail_to ?_ ?_ | refine setDma_to ?_ ?_ | refine To.foldl _ (fun _ _ _ => ?_) ?_ | refine To.foldl_fst _ (fun _ _ _ => ?_) ?_) | exact To.sub hT (by decide) | refine To.fst (by assumption) ?_ | refine To.snd (by assumption) ?_ | split | dsimp -proj only | (intro _; intros))

theorem dmaEndRun_to {s : State} {c : Nat} (hT : T ||| 17179934722 = T) (hS : To T s0 s) :
    To T s0 (dmaEndRun c s) := by
  unfold dmaEndRun
  try dsimp -proj only
  repeat' (first | (with_reducible first | assumption | refine To.ite ?_ ?_ | refine setDma_to ?_ ?_ | refine dmaDropPend_to ?_ ?_ | refine dmaStart_to ?_ ?_) | exact To.sub hT (by decide) | refine To.fst (by assumption) ?_ | refine To.snd (by assumption) ?_ | split | dsimp -proj only)

theorem dmaAdvance_to {s : State} {c : Nat} (hT : T ||| 2 = T) (hS : To T s0 s) :
    To T s0 (dmaAdvance c s) := by
  unfold dmaAdvance
  try dsimp -proj only
  repeat' (first | (with_reducible first | assumption | refine To.ite ?_ ?_ | refine setChReg_to ?_ ?_) | exact To.sub hT (by decide) | refine To.fst (by assumption) ?_ | refine To.snd (by assumption) ?_ | split | dsimp -proj only)

theorem dmaNext_to {s : State} {c : Nat} {chain : Bool} {ok : Bool} (hT : T ||| 17179934738 = T) (hS : To T s0 s) :
    To T s0 (dmaNext c chain ok s) := by
  unfold dmaNext
  try dsimp -proj only
  repeat' (first | (with_reducible first | assumption | refine To.ite ?_ ?_ | refine dmaFetch_to ?_ ?_ | refine complete_to ?_ ?_ | refine failFire_to ?_ ?_ | refine dmaEndRun_to ?_ ?_ | refine dmaTriggerAll_to ?_ ?_) | exact To.sub hT (by decide) | refine To.fst (by assumption) ?_ | refine To.snd (by assumption) ?_ | split | dsimp -proj only)

theorem dmaSettle_to {s : State} {c : Nat} (hT : T ||| 17181122802 = T) (hS : To T s0 s) :
    To T s0 (dmaSettle c s) := by
  unfold dmaSettle
  try dsimp -proj only
  repeat' (first | (with_reducible first | assumption | refine To.ite ?_ ?_ | refine memPut_to ?_ ?_ | refine closeDesc_to ?_ ?_ | refine incCnt_to ?_ ?_ | refine setDma_to ?_ ?_ | refine dmaLevels_to ?_ ?_ | refine modReg_to ?_ ?_ | refine dmaNext_to ?_ ?_ | refine dmaAdvance_to ?_ ?_) | exact To.sub hT (by decide) | refine To.fst (by assumption) ?_ | refine To.snd (by assumption) ?_ | split | dsimp -proj only | (intro _; intros))

theorem dmaHalt_to {s : State} {c : Nat} {h : DmaStop} (hT : T ||| 17179934720 = T) (hS : To T s0 s) :
    To T s0 (dmaHalt c h s) := by
  unfold dmaHalt
  try dsimp -proj only
  repeat' (first | (with_reducible first | assumption | refine To.ite ?_ ?_ | refine dropReq_to ?_ ?_ | refine setDma_to ?_ ?_ | refine To.foldl _ (fun _ _ _ => ?_) ?_ | refine To.foldl_fst _ (fun _ _ _ => ?_) ?_) | exact To.sub hT (by decide) | refine To.fst (by assumption) ?_ | refine To.snd (by assumption) ?_ | split | dsimp -proj only | (intro _; intros))

theorem dmaFault_to {s : State} {c : Nat} {cause : Nat} {cls : Nat} {code : Nat} {addr : Nat} {src : Nat} (hT : T ||| 17179934720 = T) (hS : To T s0 s) :
    To T s0 (dmaFault c cause cls code addr src s) := by
  unfold dmaFault
  repeat' (first | (with_reducible first | assumption | refine To.ite ?_ ?_ | refine dmaHalt_to ?_ ?_) | exact To.sub hT (by decide) | refine To.fst (by assumption) ?_ | refine To.snd (by assumption) ?_ | split)

theorem haltCompleteSt_to {s : State} {c : Nat} (hT : T ||| 17181122802 = T) (hS : To T s0 s) :
    To T s0 (haltCompleteSt c s) := by
  unfold haltCompleteSt
  try dsimp -proj only
  repeat' (first | (with_reducible first | assumption | refine To.ite ?_ ?_ | refine memPut_to ?_ ?_ | refine closeDesc_to ?_ ?_ | refine setDma_to ?_ ?_ | refine dmaAdvance_to ?_ ?_ | refine dmaEndRun_to ?_ ?_ | refine dmaFail_to ?_ ?_ | refine captureErr_to ?_ ?_ | refine incCnt_to ?_ ?_ | refine dmaLevels_to ?_ ?_ | refine dmaDropPend_to ?_ ?_) | exact To.sub hT (by decide) | refine To.fst (by assumption) ?_ | refine To.snd (by assumption) ?_ | split | dsimp -proj only)

theorem dmaSend_to {s : State} {r : Req} {u : Option Upset} (hT : T ||| 51540729874 = T) (hS : To T s0 s) :
    Opt T s0 (dmaSend r u s) := by
  unfold dmaSend
  try dsimp -proj only
  repeat' (first | (with_reducible first | assumption | refine To.ite ?_ ?_ | refine incCnt_to ?_ ?_ | refine dmaFault_to ?_ ?_ | refine countCe_to ?_ ?_ | refine captureErr_to ?_ ?_ | refine setDma_to ?_ ?_ | refine Opt.some ?_ | exact Opt.none) | exact To.sub hT (by decide) | refine To.fst (by assumption) ?_ | refine To.snd (by assumption) ?_ | split | (with_reducible first | refine To.set_dmaEng ?_ ?_) | dsimp -proj only | (intro _; intros))

theorem dmaFetched_to {s : State} {c : Nat} {r : Resp} {d : List Byte} (hT : T ||| 17181122802 = T) (hS : To T s0 s) :
    To T s0 (dmaFetched c r d s) := by
  unfold dmaFetched
  try dsimp -proj only
  repeat' (first | (with_reducible first | assumption | refine To.ite ?_ ?_ | refine setDma_to ?_ ?_ | refine dmaFault_to ?_ ?_ | refine setEvt_to ?_ ?_ | refine incCnt_to ?_ ?_ | refine dmaEndRun_to ?_ ?_ | refine dmaFail_to ?_ ?_ | refine dmaNext_to ?_ ?_ | refine dmaAdvance_to ?_ ?_ | refine refuseDesc_to ?_ ?_ | refine dmaSettle_to ?_ ?_ | refine dmaPump_to ?_ ?_) | exact To.sub hT (by decide) | refine To.fst (by assumption) ?_ | refine To.snd (by assumption) ?_ | split | dsimp -proj only)

theorem dmaAgain_to {s : State} {c : Nat} {isWrite : Bool} {id : Nat} {addr : Nat} {len : Nat} {data : List Byte} {tries : Nat} (hT : T ||| 17179934736 = T) (hS : To T s0 s) :
    To T s0 (dmaAgain c isWrite id addr len data tries s) := by
  unfold dmaAgain
  try dsimp -proj only
  repeat' (first | (with_reducible first | assumption | refine To.ite ?_ ?_ | refine issueReq_to ?_ ?_ | refine incCnt_to ?_ ?_ | refine setDma_to ?_ ?_ | refine dmaFault_to ?_ ?_) | exact To.sub hT (by decide) | refine To.fst (by assumption) ?_ | refine To.snd (by assumption) ?_ | split | dsimp -proj only | (intro _; intros))

theorem dmaRdResp_to {s : State} {q : Req} {r : Resp} {d : List Byte} (hT : T ||| 17181122802 = T) (hS : To T s0 s) :
    To T s0 (dmaRdResp q r d s) := by
  unfold dmaRdResp
  try dsimp -proj only
  repeat' (first | (with_reducible first | assumption | refine To.ite ?_ ?_ | refine dmaFetched_to ?_ ?_ | refine setDma_to ?_ ?_ | refine dmaSettle_to ?_ ?_ | refine dmaPump_to ?_ ?_ | refine dmaFault_to ?_ ?_ | refine dmaAgain_to ?_ ?_) | exact To.sub hT (by decide) | refine To.fst (by assumption) ?_ | refine To.snd (by assumption) ?_ | split | dsimp -proj only | (intro _; intros))

theorem dmaWrResp_to {s : State} {q : Req} {r : Resp} (hT : T ||| 51540861170 = T) (hS : To T s0 s) :
    To T s0 (dmaWrResp q r s) := by
  unfold dmaWrResp
  try dsimp -proj only
  repeat' (first | (with_reducible first | assumption | refine To.ite ?_ ?_ | refine setDma_to ?_ ?_ | refine addCnt_to ?_ ?_ | refine dmaSettle_to ?_ ?_ | refine dmaPump_to ?_ ?_ | refine dmaFault_to ?_ ?_ | refine dmaAgain_to ?_ ?_) | exact To.sub hT (by decide) | refine To.fst (by assumption) ?_ | refine To.snd (by assumption) ?_ | split | (with_reducible first | refine To.set_dmaEng ?_ ?_) | dsimp -proj only | (intro _; intros))

theorem dmaFireSt_to {s : State} {e : Nat} {f : FireRec} (hT : T ||| 17179934738 = T) (hS : To T s0 s) :
    To T s0 (dmaFireSt e f s) := by
  unfold dmaFireSt
  try dsimp -proj only
  repeat' (first | (with_reducible first | assumption | refine To.ite ?_ ?_ | refine failFire_to ?_ ?_ | refine dmaTrigger_to ?_ ?_) | exact To.sub hT (by decide) | refine To.fst (by assumption) ?_ | refine To.snd (by assumption) ?_ | split | dsimp -proj only)

theorem dmaAbort_to {s : State} {c : Nat} (hT : T ||| 17179934720 = T) (hS : To T s0 s) :
    To T s0 (dmaAbort c s) := by
  unfold dmaAbort
  try dsimp -proj only
  repeat' (first | (with_reducible first | assumption | refine To.ite ?_ ?_ | refine setDma_to ?_ ?_ | refine dmaHalt_to ?_ ?_ | refine dmaDropPend_to ?_ ?_) | exact To.sub hT (by decide) | refine To.fst (by assumption) ?_ | refine To.snd (by assumption) ?_ | split | dsimp -proj only)

theorem dmaClear_to {s : State} {c : Nat} (hT : T ||| 17179869186 = T) (hS : To T s0 s) :
    To T s0 (dmaClear c s) := by
  unfold dmaClear
  try dsimp -proj only
  repeat' (first | (with_reducible first | assumption | refine To.ite ?_ ?_ | refine dmaLevels_to ?_ ?_ | refine setDma_to ?_ ?_) | exact To.sub hT (by decide) | refine To.fst (by assumption) ?_ | refine To.snd (by assumption) ?_ | split | dsimp -proj only)

theorem dmaDisable_to {s : State} {c : Nat} (hT : T ||| 17179934720 = T) (hS : To T s0 s) :
    To T s0 (dmaDisable c s) := by
  unfold dmaDisable
  repeat' (first | (with_reducible first | assumption | refine To.ite ?_ ?_ | refine dmaDropPend_to ?_ ?_) | exact To.sub hT (by decide) | refine To.fst (by assumption) ?_ | refine To.snd (by assumption) ?_ | split)

theorem dmaPageDisable_to {s : State} {e : Nat} (hT : T ||| 17179934720 = T) (hS : To T s0 s) :
    To T s0 (dmaPageDisable e s) := by
  unfold dmaPageDisable
  try dsimp -proj only
  repeat' (first | (with_reducible first | assumption | refine To.ite ?_ ?_ | refine dmaDisable_to ?_ ?_ | refine To.foldl _ (fun _ _ _ => ?_) ?_ | refine To.foldl_fst _ (fun _ _ _ => ?_) ?_) | exact To.sub hT (by decide) | refine To.fst (by assumption) ?_ | refine To.snd (by assumption) ?_ | split | dsimp -proj only | (intro _; intros))

theorem chCtrlWrite_to {s : State} {c : Nat} {v : Word} (hT : T ||| 17179934722 = T) (hS : To T s0 s) :
    To T s0 (chCtrlWrite c v s) := by
  unfold chCtrlWrite
  try dsimp -proj only
  repeat' (first | (with_reducible first | assumption | refine To.ite ?_ ?_ | refine setEvt_to ?_ ?_ | refine setChReg_to ?_ ?_ | refine dmaDisable_to ?_ ?_) | exact To.sub hT (by decide) | refine To.fst (by assumption) ?_ | refine To.snd (by assumption) ?_ | split | dsimp -proj only)

theorem dmaQuell_to {s : State} {e : Nat} (hT : T ||| 17179934720 = T) (hS : To T s0 s) :
    To T s0 (dmaQuell e s) := by
  unfold dmaQuell
  try dsimp -proj only
  repeat' (first | (with_reducible first | assumption | refine To.ite ?_ ?_ | refine dmaHalt_to ?_ ?_ | refine setDma_to ?_ ?_ | refine To.foldl _ (fun _ _ _ => ?_) ?_ | refine To.foldl_fst _ (fun _ _ _ => ?_) ?_) | exact To.sub hT (by decide) | refine To.fst (by assumption) ?_ | refine To.snd (by assumption) ?_ | split | dsimp -proj only | (intro _; intros))

theorem dmaDrop_to {s : State} {e : Nat} (hT : T ||| 51539673090 = T) (hS : To T s0 s) :
    To T s0 (dmaDrop e s) := by
  unfold dmaDrop
  dsimp -proj only
  refine To.upd ?_ (h_regs := fun k => (To.clash (i := 1) (To.sub hT (by decide)) k).elim)
    (h_dmaEng := fun k => (To.clash (i := 35) (To.sub hT (by decide)) k).elim)
    (k_regs := fun k => kup_foldl _ _ (fun _ _ => kup_dropRegs _ _ _) _ k.regs)
  exact To.foldl _ (fun _ _ h => setDma_to (To.sub hT (by decide)) (dmaFail_to (To.sub hT (by decide)) (dmaDropPend_to (To.sub hT (by decide)) h))) hS

theorem execKick_to {s : State} {a : Acc} {c : Fin 1024} (hT : T ||| 17180983314 = T) (hS : To T s0 s) :
    Out T s0 (execKick a c s) := by
  unfold execKick
  try dsimp -proj only
  repeat' (first | (with_reducible first | assumption | refine To.ite ?_ ?_ | refine onPage_to ?_ ?_ ?_ | refine dmaTrigger_to ?_ ?_ | refine Out.next ?_) | exact To.sub hT (by decide) | refine To.fst (by assumption) ?_ | refine To.snd (by assumption) ?_ | split | dsimp -proj only | (intro _; intros))

theorem execAbort_to {s : State} {a : Acc} {c : Fin 1024} (hT : T ||| 17180983314 = T) (hS : To T s0 s) :
    Out T s0 (execAbort a c s) := by
  unfold execAbort
  repeat' (first | (with_reducible first | assumption | refine To.ite ?_ ?_ | refine onPage_to ?_ ?_ ?_ | refine dmaAbort_to ?_ ?_ | refine Out.next ?_) | exact To.sub hT (by decide) | refine To.fst (by assumption) ?_ | refine To.snd (by assumption) ?_ | split | (intro _; intros))

theorem execClear_to {s : State} {a : Acc} {c : Fin 1024} (hT : T ||| 17180917778 = T) (hS : To T s0 s) :
    Out T s0 (execClear a c s) := by
  unfold execClear
  repeat' (first | (with_reducible first | assumption | refine To.ite ?_ ?_ | refine onPage_to ?_ ?_ ?_ | refine dmaClear_to ?_ ?_ | refine Out.next ?_) | exact To.sub hT (by decide) | refine To.fst (by assumption) ?_ | refine To.snd (by assumption) ?_ | split | (intro _; intros))

theorem execDmaFire_to {s : State} {f : FireRec} (hT : T ||| 17609365983250 = T) (hS : To T s0 s) :
    Out T s0 (execDmaFire f s) := by
  unfold execDmaFire
  try dsimp -proj only
  repeat' (first | (with_reducible first | assumption | refine To.ite ?_ ?_ | refine fireRow_to ?_ ?_ ?_ | refine dmaFireSt_to ?_ ?_ | refine Out.next ?_) | exact To.sub hT (by decide) | refine To.fst (by assumption) ?_ | refine To.snd (by assumption) ?_ | split | dsimp -proj only | (intro _; intros))

theorem execHaltComplete_to {s : State} {c : Fin 1024} (hT : T ||| 17181122802 = T) (hS : To T s0 s) :
    Out T s0 (execHaltComplete c s) := by
  unfold execHaltComplete
  repeat' (first | (with_reducible first | assumption | refine To.ite ?_ ?_ | refine whileRuns_to ?_ ?_ ?_ | refine haltCompleteSt_to ?_ ?_ | refine Out.next ?_) | exact To.sub hT (by decide) | refine To.fst (by assumption) ?_ | refine To.snd (by assumption) ?_ | split | (intro _; intros))

end Sys2Proof.Machine
end

