-- ==== Sys2Proof/Laws/ToTm.lean ====
section
/-! SUPPORT. The frames of the operations and meanings of Tm: what each may change. -/

namespace Sys2Proof.Machine

variable {T : Nat} {s0 : State}

theorem modTm_to {s : State} {f : TmSt → TmSt} (hT : T ||| 549755813888 = T) (hS : To T s0 s) :
    To T s0 (modTm s f) := by
  unfold modTm
  repeat' (first | (with_reducible first | assumption | refine To.ite ?_ ?_) | exact To.sub hT (by decide) | refine To.fst (by assumption) ?_ | refine To.snd (by assumption) ?_ | split | with_reducible first | refine To.set_tm ?_ ?_)

theorem setQ_to {s : State} {q : Nat} {off : Nat} {v : Word} (hT : T ||| 2 = T) (hS : To T s0 s) :
    To T s0 (setQ s q off v) := by
  unfold setQ
  repeat' (first | (with_reducible first | assumption | refine To.ite ?_ ?_ | refine setReg_to ?_ ?_) | exact To.sub hT (by decide) | refine To.fst (by assumption) ?_ | refine To.snd (by assumption) ?_ | split)

theorem incQ_to {s : State} {q : Nat} {off : Nat} (hT : T ||| 2 = T) (hS : To T s0 s) :
    To T s0 (incQ s q off) := by
  unfold incQ
  repeat' (first | (with_reducible first | assumption | refine To.ite ?_ ?_ | refine setQ_to ?_ ?_) | exact To.sub hT (by decide) | refine To.fst (by assumption) ?_ | refine To.snd (by assumption) ?_ | split)

theorem setQueue_to {s : State} {q : Nat} {fs : List TmFrame} (hT : T ||| 549755813888 = T) (hS : To T s0 s) :
    To T s0 (setQueue s q fs) := by
  unfold setQueue
  try dsimp -proj only
  repeat' (first | (with_reducible first | assumption | refine To.ite ?_ ?_ | refine modTm_to ?_ ?_) | exact To.sub hT (by decide) | refine To.fst (by assumption) ?_ | refine To.snd (by assumption) ?_ | split | dsimp -proj only | (intro _; intros))

theorem jobFrame_to {s : State} {id : Option Nat} {dropped : Bool} {stamp : Option (Word × Word)} (hT : T ||| 274877906944 = T) (hS : To T s0 s) :
    To T s0 (jobFrame id dropped stamp s) := by
  unfold jobFrame
  try dsimp -proj only
  repeat' (first | (with_reducible first | assumption | refine To.ite ?_ ?_) | exact To.sub hT (by decide) | refine To.fst (by assumption) ?_ | refine To.snd (by assumption) ?_ | split | (with_reducible first | refine To.set_pkt ?_ ?_) | dsimp -proj only | (intro _; intros))

theorem meterColour_to {s : State} {m : Nat} {len : Nat} (hT : T ||| 549755813888 = T) (hS : To T s0 s) :
    To T s0 (meterColour m len s).2 := by
  unfold meterColour
  try dsimp -proj only
  repeat' (first | (with_reducible first | assumption | refine To.ite ?_ ?_ | refine modTm_to ?_ ?_) | exact To.sub hT (by decide) | refine To.fst (by assumption) ?_ | refine To.snd (by assumption) ?_ | split | dsimp -proj only | (intro _; intros))

theorem ptpStamp_to {s : State} {p : Nat} {tx : Bool} (hT : T ||| 1024 = T) (hS : To T s0 s) :
    To T s0 (ptpStamp p tx s).2 := by
  unfold ptpStamp
  try dsimp -proj only
  repeat' (first | (with_reducible first | assumption | refine To.ite ?_ ?_ | refine takeFree_to ?_ ?_) | exact To.sub hT (by decide) | refine To.fst (by assumption) ?_ | refine To.snd (by assumption) ?_ | split | dsimp -proj only)

theorem sendFrame_to {s : State} {p : Nat} {q : Nat} (hT : T ||| 824633721874 = T) (hS : To T s0 s) :
    To T s0 (sendFrame p q s) := by
  unfold sendFrame
  try dsimp -proj only
  repeat' (first | (with_reducible first | assumption | refine To.ite ?_ ?_ | refine setQueue_to ?_ ?_ | refine modTm_to ?_ ?_ | refine setQ_to ?_ ?_ | refine incCnt_to ?_ ?_ | refine setEvt_to ?_ ?_ | refine ptpStamp_to ?_ ?_ | refine jobFrame_to ?_ ?_) | exact To.sub hT (by decide) | refine To.fst (by assumption) ?_ | refine To.snd (by assumption) ?_ | split | dsimp -proj only | (intro _; intros))

theorem dropLate_to {y2 : State} {q : Nat} {y1 : Nat} (hT : T ||| 824633720850 = T) (hS : To T s0 y2) :
    To T s0 (dropLate q y1 y2) := by
  induction y1 generalizing y2 with
  | zero => exact hS
  | succ _ ih =>
    unfold dropLate
    try dsimp -proj only
    repeat' (first | (with_reducible first | assumption | refine To.ite ?_ ?_ | refine incCnt_to ?_ ?_ | refine setEvt_to ?_ ?_ | refine setQueue_to ?_ ?_ | refine jobFrame_to ?_ ?_ | refine modTm_to ?_ ?_ | refine incQ_to ?_ ?_ | refine ih ?_) | exact To.sub hT (by decide) | refine To.fst (by assumption) ?_ | refine To.snd (by assumption) ?_ | split | dsimp -proj only | (intro _; intros))

theorem setPort_to {s : State} {p : Nat} {x : TmPort} (hT : T ||| 549755813888 = T) (hS : To T s0 s) :
    To T s0 (setPort s p x) := by
  unfold setPort
  try dsimp -proj only
  repeat' (first | (with_reducible first | assumption | refine To.ite ?_ ?_ | refine modTm_to ?_ ?_) | exact To.sub hT (by decide) | refine To.fst (by assumption) ?_ | refine To.snd (by assumption) ?_ | split | dsimp -proj only | (intro _; intros))

theorem setDeficit_to {s : State} {q : Nat} {n : Nat} (hT : T ||| 549755813888 = T) (hS : To T s0 s) :
    To T s0 (setDeficit s q n) := by
  unfold setDeficit
  try dsimp -proj only
  repeat' (first | (with_reducible first | assumption | refine To.ite ?_ ?_ | refine modTm_to ?_ ?_) | exact To.sub hT (by decide) | refine To.fst (by assumption) ?_ | refine To.snd (by assumption) ?_ | split | dsimp -proj only | (intro _; intros))

theorem sendDrr_to {s : State} {p : Nat} {q : Nat} {f : TmFrame} (hT : T ||| 824633721874 = T) (hS : To T s0 s) :
    To T s0 (sendDrr p q f s) := by
  unfold sendDrr
  repeat' (first | (with_reducible first | assumption | refine To.ite ?_ ?_ | refine sendFrame_to ?_ ?_ | refine setDeficit_to ?_ ?_) | exact To.sub hT (by decide) | refine To.fst (by assumption) ?_ | refine To.snd (by assumption) ?_ | split)

theorem drrServe_to {y3 : State} {p : Nat} {cands : List Nat} {y2 : Nat} (hT : T ||| 824633721874 = T) (hS : To T s0 y3) :
    To T s0 (drrServe p cands y2 y3) := by
  induction y2 generalizing y3 with
  | zero => exact hS
  | succ _ ih =>
    unfold drrServe
    try dsimp -proj only
    repeat' (first | (with_reducible first | assumption | refine To.ite ?_ ?_ | refine sendDrr_to ?_ ?_ | refine setPort_to ?_ ?_ | refine setDeficit_to ?_ ?_ | refine ih ?_) | exact To.sub hT (by decide) | refine To.fst (by assumption) ?_ | refine To.snd (by assumption) ?_ | split | dsimp -proj only | (intro _; intros))

theorem exportRound_to {s : State} {p : Nat} (hT : T ||| 549757067506 = T) (hS : To T s0 s) :
    To T s0 (exportRound p s) := by
  unfold exportRound
  try dsimp -proj only
  repeat' (first | (with_reducible first | assumption | refine To.ite ?_ ?_ | refine setEvt_to ?_ ?_ | refine Ring.push_to ?_ ?_ | refine modTm_to ?_ ?_ | refine setPort_to ?_ ?_) | exact To.sub hT (by decide) | refine To.fst (by assumption) ?_ | refine To.snd (by assumption) ?_ | split | dsimp -proj only | (intro _; intros))

theorem haOffer_to {s : State} {p : Nat} (hT : T ||| 549757067506 = T) (hS : To T s0 s) :
    To T s0 (haOffer p s) := by
  unfold haOffer
  try dsimp -proj only
  repeat' (first | (with_reducible first | assumption | refine To.ite ?_ ?_ | refine exportRound_to ?_ ?_) | exact To.sub hT (by decide) | refine To.fst (by assumption) ?_ | refine To.snd (by assumption) ?_ | split | dsimp -proj only | (intro _; intros))

theorem haServe_to {y2 : State} {p : Nat} {y1 : Nat} (hT : T ||| 824634975474 = T) (hS : To T s0 y2) :
    To T s0 (haServe p y1 y2) := by
  induction y1 generalizing y2 with
  | zero => exact hS
  | succ _ ih =>
    unfold haServe
    try dsimp -proj only
    repeat' (first | (with_reducible first | assumption | refine To.ite ?_ ?_ | refine sendDrr_to ?_ ?_ | refine setPort_to ?_ ?_ | refine setDeficit_to ?_ ?_ | refine haOffer_to ?_ ?_ | refine sendFrame_to ?_ ?_ | refine ih ?_) | exact To.sub hT (by decide) | refine To.fst (by assumption) ?_ | refine To.snd (by assumption) ?_ | split | dsimp -proj only | (intro _; intros))

theorem portServe_to {s : State} {p : Nat} (hT : T ||| 824634975474 = T) (hS : To T s0 s) :
    To T s0 (portServe p s) := by
  unfold portServe
  try dsimp -proj only
  repeat' (first | (with_reducible first | assumption | refine To.ite ?_ ?_ | refine modTm_to ?_ ?_ | refine dropLate_to ?_ ?_ | refine sendFrame_to ?_ ?_ | refine haServe_to ?_ ?_ | refine drrServe_to ?_ ?_ | refine To.foldl _ (fun _ _ _ => ?_) ?_ | refine To.foldl_fst _ (fun _ _ _ => ?_) ?_) | exact To.sub hT (by decide) | refine To.fst (by assumption) ?_ | refine To.snd (by assumption) ?_ | split | dsimp -proj only | (intro _; intros))

theorem portKick_to {s : State} {p : Nat} (hT : T ||| 824634975474 = T) (hS : To T s0 s) :
    To T s0 (portKick p s) := by
  unfold portKick
  repeat' (first | (with_reducible first | assumption | refine To.ite ?_ ?_ | refine portServe_to ?_ ?_) | exact To.sub hT (by decide) | refine To.fst (by assumption) ?_ | refine To.snd (by assumption) ?_ | split)

theorem toTm_to {s : State} {f : TmFrame} (hT : T ||| 549755813888 = T) (hS : To T s0 s) :
    To T s0 (toTm f s) := by
  unfold toTm
  try dsimp -proj only
  repeat' (first | (with_reducible first | assumption | refine To.ite ?_ ?_ | refine modTm_to ?_ ?_) | exact To.sub hT (by decide) | refine To.fst (by assumption) ?_ | refine To.snd (by assumption) ?_ | split | dsimp -proj only | (intro _; intros))

theorem tmEnqueueSt_to {s : State} (hT : T ||| 824634975474 = T) (hS : To T s0 s) :
    To T s0 (tmEnqueueSt s) := by
  unfold tmEnqueueSt
  try dsimp -proj only
  repeat' (first | (with_reducible first | assumption | refine To.ite ?_ ?_ | refine modTm_to ?_ ?_ | refine meterColour_to ?_ ?_ | refine jobFrame_to ?_ ?_ | refine incCnt_to ?_ ?_ | refine incQ_to ?_ ?_ | refine setEvt_to ?_ ?_ | refine setQueue_to ?_ ?_ | refine portKick_to ?_ ?_ | refine haOffer_to ?_ ?_) | exact To.sub hT (by decide) | refine To.fst (by assumption) ?_ | refine To.snd (by assumption) ?_ | split | dsimp -proj only | (intro _; intros))

theorem frameEligibleSt_to {s : State} {q : Nat} (hT : T ||| 824634975474 = T) (hS : To T s0 s) :
    To T s0 (frameEligibleSt q s) := by
  unfold frameEligibleSt
  try dsimp -proj only
  repeat' (first | (with_reducible first | assumption | refine To.ite ?_ ?_ | refine dropLate_to ?_ ?_ | refine portKick_to ?_ ?_) | exact To.sub hT (by decide) | refine To.fst (by assumption) ?_ | refine To.snd (by assumption) ?_ | split | dsimp -proj only)

theorem haSelectSt_to {s : State} {v : Word} (hT : T ||| 824634975474 = T) (hS : To T s0 s) :
    To T s0 (haSelectSt v s) := by
  unfold haSelectSt
  try dsimp -proj only
  repeat' (first | (with_reducible first | assumption | refine To.ite ?_ ?_ | refine incCnt_to ?_ ?_ | refine setPort_to ?_ ?_ | refine portKick_to ?_ ?_) | exact To.sub hT (by decide) | refine To.fst (by assumption) ?_ | refine To.snd (by assumption) ?_ | split | dsimp -proj only | (intro _; intros))

theorem haTimeoutSt_to {s : State} {p : Nat} (hT : T ||| 824634975474 = T) (hS : To T s0 s) :
    To T s0 (haTimeoutSt p s) := by
  unfold haTimeoutSt
  try dsimp -proj only
  repeat' (first | (with_reducible first | assumption | refine To.ite ?_ ?_ | refine setPort_to ?_ ?_ | refine portKick_to ?_ ?_ | refine setEvt_to ?_ ?_ | refine incCnt_to ?_ ?_) | exact To.sub hT (by decide) | refine To.fst (by assumption) ?_ | refine To.snd (by assumption) ?_ | split | dsimp -proj only | (intro _; intros))

theorem depthSampleSt_to {s : State} (hT : T ||| 549755813890 = T) (hS : To T s0 s) :
    To T s0 (depthSampleSt s) := by
  unfold depthSampleSt
  try dsimp -proj only
  repeat' (first | (with_reducible first | assumption | refine To.ite ?_ ?_ | refine setQ_to ?_ ?_ | refine modTm_to ?_ ?_ | refine To.foldl _ (fun _ _ _ => ?_) ?_ | refine To.foldl_fst _ (fun _ _ _ => ?_) ?_) | exact To.sub hT (by decide) | refine To.fst (by assumption) ?_ | refine To.snd (by assumption) ?_ | split | dsimp -proj only | (intro _; intros))

theorem tmSnap_to {s : State} (hT : T ||| 2 = T) (hS : To T s0 s) :
    To T s0 (tmSnap s) := by
  unfold tmSnap
  try dsimp -proj only
  repeat' (first | (with_reducible first | assumption | refine To.ite ?_ ?_ | refine setQ_to ?_ ?_ | refine To.foldl _ (fun _ _ _ => ?_) ?_ | refine To.foldl_fst _ (fun _ _ _ => ?_) ?_) | exact To.sub hT (by decide) | refine To.fst (by assumption) ?_ | refine To.snd (by assumption) ?_ | split | dsimp -proj only | (intro _; intros))

theorem meterWriteSt_to {s : State} {q : Nat} {off : Nat} {v : Word} (hT : T ||| 549755813890 = T) (hS : To T s0 s) :
    To T s0 (meterWriteSt q off v s) := by
  unfold meterWriteSt
  try dsimp -proj only
  repeat' (first | (with_reducible first | assumption | refine To.ite ?_ ?_ | refine setQ_to ?_ ?_ | refine modTm_to ?_ ?_) | exact To.sub hT (by decide) | refine To.fst (by assumption) ?_ | refine To.snd (by assumption) ?_ | split | dsimp -proj only | (intro _; intros))

theorem tmDrop_to {s : State} (hT : T ||| 824633720832 = T) (hS : To T s0 s) :
    To T s0 (tmDrop s) := by
  unfold tmDrop
  try dsimp -proj only
  repeat' (first | (with_reducible first | assumption | refine To.ite ?_ ?_ | refine jobFrame_to ?_ ?_ | refine modTm_to ?_ ?_ | refine To.foldl _ (fun _ _ _ => ?_) ?_ | refine To.foldl_fst _ (fun _ _ _ => ?_) ?_) | exact To.sub hT (by decide) | refine To.fst (by assumption) ?_ | refine To.snd (by assumption) ?_ | split | dsimp -proj only | (intro _; intros))

theorem execTmEnqueue_to {s : State} (hT : T ||| 824634975474 = T) (hS : To T s0 s) :
    Out T s0 (execTmEnqueue s) := by
  unfold execTmEnqueue
  repeat' (first | (with_reducible first | assumption | refine To.ite ?_ ?_ | refine whileRuns_to ?_ ?_ ?_ | refine tmEnqueueSt_to ?_ ?_ | refine Out.next ?_) | exact To.sub hT (by decide) | refine To.fst (by assumption) ?_ | refine To.snd (by assumption) ?_ | split | (intro _; intros))

theorem execPortFree_to {s : State} {x : PortEnd} (hT : T ||| 824634975474 = T) (hS : To T s0 s) :
    Out T s0 (execPortFree x s) := by
  unfold execPortFree
  try dsimp -proj only
  repeat' (first | (with_reducible first | assumption | refine To.ite ?_ ?_ | refine whileRuns_to ?_ ?_ ?_ | refine tmEnqueueSt_to ?_ ?_ | refine portServe_to ?_ ?_ | refine Out.next ?_) | exact To.sub hT (by decide) | refine To.fst (by assumption) ?_ | refine To.snd (by assumption) ?_ | split | dsimp -proj only | (intro _; intros))

theorem execFrameEligible_to {s : State} {q : Fin 4096} (hT : T ||| 824634975474 = T) (hS : To T s0 s) :
    Out T s0 (execFrameEligible q s) := by
  unfold execFrameEligible
  repeat' (first | (with_reducible first | assumption | refine To.ite ?_ ?_ | refine whileRuns_to ?_ ?_ ?_ | refine frameEligibleSt_to ?_ ?_ | refine Out.next ?_) | exact To.sub hT (by decide) | refine To.fst (by assumption) ?_ | refine To.snd (by assumption) ?_ | split | (intro _; intros))

theorem execHaSelect_to {s : State} {a : Acc} {v : Word} (hT : T ||| 824634975474 = T) (hS : To T s0 s) :
    Out T s0 (execHaSelect a v s) := by
  unfold execHaSelect
  repeat' (first | (with_reducible first | assumption | refine To.ite ?_ ?_ | refine onPage_to ?_ ?_ ?_ | refine haSelectSt_to ?_ ?_ | refine Out.next ?_) | exact To.sub hT (by decide) | refine To.fst (by assumption) ?_ | refine To.snd (by assumption) ?_ | split | (intro _; intros))

theorem execHaSelectTimeout_to {s : State} {p : Fin 32} (hT : T ||| 824634975474 = T) (hS : To T s0 s) :
    Out T s0 (execHaSelectTimeout p s) := by
  unfold execHaSelectTimeout
  repeat' (first | (with_reducible first | assumption | refine To.ite ?_ ?_ | refine whileRuns_to ?_ ?_ ?_ | refine haTimeoutSt_to ?_ ?_ | refine Out.next ?_) | exact To.sub hT (by decide) | refine To.fst (by assumption) ?_ | refine To.snd (by assumption) ?_ | split | (intro _; intros))

theorem execDepthSample_to {s : State} (hT : T ||| 549755813890 = T) (hS : To T s0 s) :
    Out T s0 (execDepthSample s) := by
  unfold execDepthSample
  repeat' (first | (with_reducible first | assumption | refine To.ite ?_ ?_ | refine whileRuns_to ?_ ?_ ?_ | refine depthSampleSt_to ?_ ?_ | refine Out.next ?_) | exact To.sub hT (by decide) | refine To.fst (by assumption) ?_ | refine To.snd (by assumption) ?_ | split | (intro _; intros))

theorem execMeterWrite_to {s : State} {a : Acc} {q : Fin 4096} {r : Fin 3} {v : Word} (hT : T ||| 549756862482 = T) (hS : To T s0 s) :
    Out T s0 (execMeterWrite a q r v s) := by
  unfold execMeterWrite
  repeat' (first | (with_reducible first | assumption | refine To.ite ?_ ?_ | refine onPage_to ?_ ?_ ?_ | refine meterWriteSt_to ?_ ?_ | refine Out.next ?_) | exact To.sub hT (by decide) | refine To.fst (by assumption) ?_ | refine To.snd (by assumption) ?_ | split | (intro _; intros))

end Sys2Proof.Machine
end

