-- ==== Sys2Proof/Laws/ToPcie.lean ====
section
/-! SUPPORT. The frames of the operations and meanings of Pcie: what each may change. -/

namespace Sys2Proof.Machine

variable {T : Nat} {s0 : State}

theorem modPcie_to {s : State} {f : PcieSt → PcieSt} (hT : T ||| 1099511627776 = T) (hS : To T s0 s) :
    To T s0 (modPcie s f) := by
  unfold modPcie
  repeat' (first | (with_reducible first | assumption | refine To.ite ?_ ?_) | exact To.sub hT (by decide) | refine To.fst (by assumption) ?_ | refine To.snd (by assumption) ?_ | split | with_reducible first | refine To.set_pcie ?_ ?_)

theorem raiseMsix_to {s : State} {by_ : Nat} {v : Nat} (hT : T ||| 1099512676368 = T) (hS : To T s0 s) :
    To T s0 (raiseMsix s by_ v) := by
  unfold raiseMsix
  try dsimp -proj only
  repeat' (first | (with_reducible first | assumption | refine To.ite ?_ ?_ | refine modPcie_to ?_ ?_ | refine incCnt_to ?_ ?_) | exact To.sub hT (by decide) | refine To.fst (by assumption) ?_ | refine To.snd (by assumption) ?_ | split | (with_reducible first | refine To.set_evt ?_ ?_) | dsimp -proj only | (intro _; intros))

theorem sendMsix_to {s : State} {v : Nat} (hT : T ||| 1099512676368 = T) (hS : To T s0 s) :
    To T s0 (sendMsix s v) := by
  unfold sendMsix
  repeat' (first | (with_reducible first | assumption | refine To.ite ?_ ?_ | refine raiseMsix_to ?_ ?_) | exact To.sub hT (by decide) | refine To.fst (by assumption) ?_ | refine To.snd (by assumption) ?_ | split)

theorem msixUnmask_to {s : State} {v : Nat} (hT : T ||| 1099512676368 = T) (hS : To T s0 s) :
    To T s0 (msixUnmask s v) := by
  unfold msixUnmask
  try dsimp -proj only
  repeat' (first | (with_reducible first | assumption | refine To.ite ?_ ?_ | refine raiseMsix_to ?_ ?_ | refine modPcie_to ?_ ?_) | exact To.sub hT (by decide) | refine To.fst (by assumption) ?_ | refine To.snd (by assumption) ?_ | split | dsimp -proj only | (intro _; intros))

theorem msixWrite_to {s : State} {o : Nat} {bs : List (Byte × Nat)} (hT : T ||| 1099512676368 = T) (hS : To T s0 s) :
    To T s0 (msixWrite o bs s) := by
  unfold msixWrite
  try dsimp -proj only
  repeat' (first | (with_reducible first | assumption | refine To.ite ?_ ?_ | refine msixUnmask_to ?_ ?_ | refine modPcie_to ?_ ?_ | refine To.foldl _ (fun _ _ _ => ?_) ?_ | refine To.foldl_fst _ (fun _ _ _ => ?_) ?_) | exact To.sub hT (by decide) | refine To.fst (by assumption) ?_ | refine To.snd (by assumption) ?_ | split | dsimp -proj only | (intro _; intros))

theorem putUnit_to {s : State} {n : Nat} {first : Option Word} {ws : List Word} (hT : T ||| 130 = T) (hS : To T s0 s) :
    To T s0 (putUnit n first ws s) := by
  unfold putUnit
  try dsimp -proj only
  repeat' (first | (with_reducible first | assumption | refine To.ite ?_ ?_ | refine setHostBytes_to ?_ ?_ | refine setReg_to ?_ ?_) | exact To.sub hT (by decide) | refine To.fst (by assumption) ?_ | refine To.snd (by assumption) ?_ | split | dsimp -proj only)

theorem putUnits_to {y3 : State} {n : Nat} {y1 : Nat} {y2 : List Word} (hT : T ||| 130 = T) (hS : To T s0 y3) :
    To T s0 (putUnits n y1 y2 y3) := by
  induction y1 generalizing y2 y3 with
  | zero => exact hS
  | succ _ ih =>
    unfold putUnits
    repeat' (first | (with_reducible first | assumption | refine To.ite ?_ ?_ | refine putUnit_to ?_ ?_ | refine ih ?_) | exact To.sub hT (by decide) | refine To.fst (by assumption) ?_ | refine To.snd (by assumption) ?_ | split)

theorem putEntry_to {s : State} {e : D2hEntry} (hT : T ||| 1099512676498 = T) (hS : To T s0 s) :
    To T s0 (putEntry e s) := by
  unfold putEntry
  try dsimp -proj only
  repeat' (first | (with_reducible first | assumption | refine To.ite ?_ ?_ | refine putUnit_to ?_ ?_ | refine putUnits_to ?_ ?_ | refine modPcie_to ?_ ?_ | refine sendMsix_to ?_ ?_) | exact To.sub hT (by decide) | refine To.fst (by assumption) ?_ | refine To.snd (by assumption) ?_ | split | dsimp -proj only | (intro _; intros))

theorem d2hPump_to {y2 : State} {n : Nat} {y1 : Nat} (hT : T ||| 1099512676498 = T) (hS : To T s0 y2) :
    To T s0 (d2hPump n y1 y2) := by
  induction y1 generalizing y2 with
  | zero => exact hS
  | succ _ ih =>
    unfold d2hPump
    try dsimp -proj only
    repeat' (first | (with_reducible first | assumption | refine To.ite ?_ ?_ | refine setEvt_to ?_ ?_ | refine putEntry_to ?_ ?_ | refine modPcie_to ?_ ?_ | refine ih ?_) | exact To.sub hT (by decide) | refine To.fst (by assumption) ?_ | refine To.snd (by assumption) ?_ | split | dsimp -proj only | (intro _; intros))

theorem d2hSend_to {s : State} {e : D2hEntry} (hT : T ||| 1099512676498 = T) (hS : To T s0 s) :
    To T s0 (d2hSend e s) := by
  unfold d2hSend
  try dsimp -proj only
  repeat' (first | (with_reducible first | assumption | refine To.ite ?_ ?_ | refine modPcie_to ?_ ?_ | refine d2hPump_to ?_ ?_) | exact To.sub hT (by decide) | refine To.fst (by assumption) ?_ | refine To.snd (by assumption) ?_ | split | dsimp -proj only | (intro _; intros))

theorem d2hRestart_to {s : State} {n : Nat} (hT : T ||| 1099511627778 = T) (hS : To T s0 s) :
    To T s0 (d2hRestart n s) := by
  unfold d2hRestart
  try dsimp -proj only
  repeat' (first | (with_reducible first | assumption | refine To.ite ?_ ?_ | refine setReg_to ?_ ?_ | refine modPcie_to ?_ ?_) | exact To.sub hT (by decide) | refine To.fst (by assumption) ?_ | refine To.snd (by assumption) ?_ | split | dsimp -proj only | (intro _; intros))

theorem hostFireSt_to {s : State} {f : FireRec} (hT : T ||| 1099512676498 = T) (hS : To T s0 s) :
    To T s0 (hostFireSt f s) := by
  unfold hostFireSt
  try dsimp -proj only
  repeat' (first | (with_reducible first | assumption | refine To.ite ?_ ?_ | refine modPcie_to ?_ ?_ | refine d2hSend_to ?_ ?_) | exact To.sub hT (by decide) | refine To.fst (by assumption) ?_ | refine To.snd (by assumption) ?_ | split | dsimp -proj only | (intro _; intros))

theorem fapiSend_to {s : State} {m : FapiOut} (hT : T ||| 7696582443154 = T) (hS : To T s0 s) :
    To T s0 (fapiSend m s) := by
  unfold fapiSend
  try dsimp -proj only
  repeat' (first | (with_reducible first | assumption | refine To.ite ?_ ?_ | refine d2hSend_to ?_ ?_) | exact To.sub hT (by decide) | refine To.fst (by assumption) ?_ | refine To.snd (by assumption) ?_ | split | dsimp -proj only | (intro _; intros) | refine To.upd ?_)

theorem h2dRun_to {y2 : State} {n : Nat} {y1 : Nat} (hT : T ||| 1649267441682 = T) (hS : To T s0 y2) :
    To T s0 (h2dRun n y1 y2) := by
  induction y1 generalizing y2 with
  | zero => exact hS
  | succ _ ih =>
    unfold h2dRun
    try dsimp -proj only
    repeat' (first | (with_reducible first | assumption | refine To.ite ?_ ?_ | refine setReg_to ?_ ?_ | refine incCnt_to ?_ ?_ | refine setEvt_to ?_ ?_ | refine toTm_to ?_ ?_ | refine modPcie_to ?_ ?_ | refine ih ?_) | exact To.sub hT (by decide) | refine To.fst (by assumption) ?_ | refine To.snd (by assumption) ?_ | split | dsimp -proj only | (intro _; intros))

theorem h2dTailSt_to {s : State} {n : Nat} {v : Word} (hT : T ||| 1649267441682 = T) (hS : To T s0 s) :
    To T s0 (h2dTailSt n v s) := by
  unfold h2dTailSt
  try dsimp -proj only
  repeat' (first | (with_reducible first | assumption | refine To.ite ?_ ?_ | refine setReg_to ?_ ?_ | refine h2dRun_to ?_ ?_) | exact To.sub hT (by decide) | refine To.fst (by assumption) ?_ | refine To.snd (by assumption) ?_ | split | dsimp -proj only)

theorem hostToken_to {s : State} {base : Nat} {done : Bool} {v : Word} (hT : T ||| 1099511627776 = T) (hS : To T s0 s) :
    To T s0 (hostToken base done v s).2 := by
  unfold hostToken
  try dsimp -proj only
  repeat' (first | (with_reducible first | assumption | refine To.ite ?_ ?_ | refine modPcie_to ?_ ?_ | refine To.foldl _ (fun _ _ _ => ?_) ?_ | refine To.foldl_fst _ (fun _ _ _ => ?_) ?_) | exact To.sub hT (by decide) | refine To.fst (by assumption) ?_ | refine To.snd (by assumption) ?_ | split | dsimp -proj only | (intro _; intros))

theorem tokenInSt_to {s : State} {v : Word} (hT : T ||| 1099511693312 = T) (hS : To T s0 s) :
    To T s0 (tokenInSt v s) := by
  unfold tokenInSt
  try dsimp -proj only
  repeat' (first | (with_reducible first | assumption | refine To.ite ?_ ?_ | refine hostToken_to ?_ ?_ | refine sendTok_to ?_ ?_) | exact To.sub hT (by decide) | refine To.fst (by assumption) ?_ | refine To.snd (by assumption) ?_ | split | dsimp -proj only)

theorem tokenDoneSt_to {s : State} {v : Word} (hT : T ||| 1099511693312 = T) (hS : To T s0 s) :
    To T s0 (tokenDoneSt v s) := by
  unfold tokenDoneSt
  try dsimp -proj only
  repeat' (first | (with_reducible first | assumption | refine To.ite ?_ ?_ | refine hostToken_to ?_ ?_ | refine sendTok_to ?_ ?_ | refine modPcie_to ?_ ?_) | exact To.sub hT (by decide) | refine To.fst (by assumption) ?_ | refine To.snd (by assumption) ?_ | split | dsimp -proj only | (intro _; intros))

theorem tokenWord_to {s : State} {base : Nat} {i : Nat} {v : Word} (hT : T ||| 1099511627776 = T) (hS : To T s0 s) :
    To T s0 (tokenWord base i v s) := by
  unfold tokenWord
  try dsimp -proj only
  repeat' (first | (with_reducible first | assumption | refine To.ite ?_ ?_ | refine modPcie_to ?_ ?_) | exact To.sub hT (by decide) | refine To.fst (by assumption) ?_ | refine To.snd (by assumption) ?_ | split | dsimp -proj only | (intro _; intros))

theorem pcieDrop_to {s : State} (hT : T ||| 1099511693312 = T) (hS : To T s0 s) :
    To T s0 (pcieDrop s) := by
  unfold pcieDrop
  try dsimp -proj only
  repeat' (first | (with_reducible first | assumption | refine To.ite ?_ ?_ | refine failFire_to ?_ ?_ | refine To.foldl _ (fun _ _ _ => ?_) ?_ | refine To.foldl_fst _ (fun _ _ _ => ?_) ?_) | exact To.sub hT (by decide) | refine To.fst (by assumption) ?_ | refine To.snd (by assumption) ?_ | split | (with_reducible first | refine To.set_pcie ?_ ?_) | dsimp -proj only | (intro _; intros))

theorem execH2dTailWrite_to {s : State} {a : Acc} {n : Fin 8} {v : Word} (hT : T ||| 1649268490258 = T) (hS : To T s0 s) :
    Out T s0 (execH2dTailWrite a n v s) := by
  unfold execH2dTailWrite
  repeat' (first | (with_reducible first | assumption | refine To.ite ?_ ?_ | refine onPage_to ?_ ?_ ?_ | refine h2dTailSt_to ?_ ?_ | refine Out.next ?_) | exact To.sub hT (by decide) | refine To.fst (by assumption) ?_ | refine To.snd (by assumption) ?_ | split | (intro _; intros))

theorem execHostFire_to {s : State} {f : FireRec} (hT : T ||| 18691698790546 = T) (hS : To T s0 s) :
    Out T s0 (execHostFire f s) := by
  unfold execHostFire
  repeat' (first | (with_reducible first | assumption | refine To.ite ?_ ?_ | refine fireRow_to ?_ ?_ ?_ | refine hostFireSt_to ?_ ?_ | refine Out.next ?_) | exact To.sub hT (by decide) | refine To.fst (by assumption) ?_ | refine To.snd (by assumption) ?_ | split | (intro _; intros))

theorem execTokenIn_to {s : State} {a : Acc} {v : Word} (hT : T ||| 1099512741906 = T) (hS : To T s0 s) :
    Out T s0 (execTokenIn a v s) := by
  unfold execTokenIn
  repeat' (first | (with_reducible first | assumption | refine To.ite ?_ ?_ | refine onPage_to ?_ ?_ ?_ | refine tokenInSt_to ?_ ?_ | refine Out.next ?_) | exact To.sub hT (by decide) | refine To.fst (by assumption) ?_ | refine To.snd (by assumption) ?_ | split | (intro _; intros))

theorem execTokenDone_to {s : State} {a : Acc} {v : Word} (hT : T ||| 1099512741906 = T) (hS : To T s0 s) :
    Out T s0 (execTokenDone a v s) := by
  unfold execTokenDone
  repeat' (first | (with_reducible first | assumption | refine To.ite ?_ ?_ | refine onPage_to ?_ ?_ ?_ | refine tokenDoneSt_to ?_ ?_ | refine Out.next ?_) | exact To.sub hT (by decide) | refine To.fst (by assumption) ?_ | refine To.snd (by assumption) ?_ | split | (intro _; intros))

end Sys2Proof.Machine
end

