-- ==== Sys2Proof/Laws/ToEvents.lean ====
section
/-! SUPPORT. The frames of the operations and meanings of Events: what each may change. -/

namespace Sys2Proof.Machine

variable {T : Nat} {s0 : State}

theorem modEvt_to {s : State} {f : EvtSt → EvtSt} (hT : T ||| 1048576 = T) (hS : To T s0 s) :
    To T s0 (modEvt s f) := by
  unfold modEvt
  repeat' (first | (with_reducible first | assumption | refine To.ite ?_ ?_) | exact To.sub hT (by decide) | refine To.fst (by assumption) ?_ | refine To.snd (by assumption) ?_ | split | with_reducible first | refine To.set_evt ?_ ?_)

theorem dropLines_to {s : State} (hT : T ||| 1048576 = T) (hS : To T s0 s) :
    To T s0 (dropLines s) := by
  unfold dropLines
  try dsimp -proj only
  repeat' (first | (with_reducible first | assumption | refine To.ite ?_ ?_ | refine modEvt_to ?_ ?_) | exact To.sub hT (by decide) | refine To.fst (by assumption) ?_ | refine To.snd (by assumption) ?_ | split | dsimp -proj only | (intro _; intros))

theorem evtMsix_to {s : State} {v : Nat} (hT : T ||| 1099512676368 = T) (hS : To T s0 s) :
    To T s0 (evtMsix s v) := by
  unfold evtMsix
  repeat' (first | (with_reducible first | assumption | refine To.ite ?_ ?_ | refine raiseMsix_to ?_ ?_) | exact To.sub hT (by decide) | refine To.fst (by assumption) ?_ | refine To.snd (by assumption) ?_ | split)

theorem evtToken_to {s : State} {t : Nat} {cls : Nat} {payload : Nat} (hT : T ||| 1114130 = T) (hS : To T s0 s) :
    To T s0 (evtToken s t cls payload) := by
  unfold evtToken
  try dsimp -proj only
  repeat' (first | (with_reducible first | assumption | refine To.ite ?_ ?_ | refine ownErr_to ?_ ?_ | refine sendTok_to ?_ ?_ | refine incCnt_to ?_ ?_) | exact To.sub hT (by decide) | refine To.fst (by assumption) ?_ | refine To.snd (by assumption) ?_ | split | dsimp -proj only)

theorem fatalSt_to {s : State} {cond : Nat} (hT : T ||| 1099546296338 = T) (hS : To T s0 s) :
    To T s0 (fatalSt cond s) := by
  unfold fatalSt
  try dsimp -proj only
  repeat' (first | (with_reducible first | assumption | refine To.ite ?_ ?_ | refine incCnt_to ?_ ?_ | refine modReg_to ?_ ?_ | refine setReg_to ?_ ?_ | refine modEvt_to ?_ ?_ | refine setEvt_to ?_ ?_ | refine evtMsix_to ?_ ?_ | refine dfeFatal_to ?_ ?_ | refine To.foldl _ (fun _ _ _ => ?_) ?_ | refine To.foldl_fst _ (fun _ _ _ => ?_) ?_) | exact To.sub hT (by decide) | refine To.fst (by assumption) ?_ | refine To.snd (by assumption) ?_ | split | dsimp -proj only | (intro _; intros))

theorem tableRead_to {s : State} {m : Mark} {f : State → State} (hT : T ||| 1099546304530 = T) (hS : To T s0 s) (hf : ∀  s, To T s0 s → To T s0 (f  s)) :
    To T s0 (tableRead m f s) := by
  unfold tableRead
  repeat' (first | (with_reducible first | assumption | refine To.ite ?_ ?_ | refine hf _ ?_ | refine captureErr_to ?_ ?_ | refine countCe_to ?_ ?_ | refine fatalSt_to ?_ ?_ | refine ownErr_to ?_ ?_) | exact To.sub hT (by decide) | refine To.fst (by assumption) ?_ | refine To.snd (by assumption) ?_ | split | (intro _; intros))

theorem deliver_to {s : State} {n : Nat} {was : Nat → Bool} (hT : T ||| 1099512741906 = T) (hS : To T s0 s) :
    To T s0 (deliver s n was) := by
  unfold deliver
  try dsimp -proj only
  repeat' (first | (with_reducible first | assumption | refine To.ite ?_ ?_ | refine incCnt_to ?_ ?_ | refine evtMsix_to ?_ ?_ | refine evtToken_to ?_ ?_) | exact To.sub hT (by decide) | refine To.fst (by assumption) ?_ | refine To.snd (by assumption) ?_ | split | dsimp -proj only)

theorem execSourceAssert_to {s : State} {x : SourceRead} (hT : T ||| 1099546304530 = T) (hS : To T s0 s) :
    Out T s0 (execSourceAssert x s) := by
  unfold execSourceAssert
  try dsimp -proj only
  repeat' (first | (with_reducible first | assumption | refine To.ite ?_ ?_ | refine modEvt_to ?_ ?_ | refine setRegI_to ?_ ?_ | refine tableRead_to ?_ ?_ ?_ | refine deliver_to ?_ ?_ | refine Out.next ?_) | exact To.sub hT (by decide) | refine To.fst (by assumption) ?_ | refine To.snd (by assumption) ?_ | split | dsimp -proj only | (intro _; intros))

theorem execSourceDeassert_to {s : State} {n : Fin 2048} (hT : T ||| 1048576 = T) (hS : To T s0 s) :
    Out T s0 (execSourceDeassert n s) := by
  unfold execSourceDeassert
  try dsimp -proj only
  repeat' (first | (with_reducible first | assumption | refine To.ite ?_ ?_ | refine dropLines_to ?_ ?_ | refine modEvt_to ?_ ?_ | refine Out.next ?_) | exact To.sub hT (by decide) | refine To.fst (by assumption) ?_ | refine To.snd (by assumption) ?_ | split | dsimp -proj only | (intro _; intros))

theorem routeWriteSt_to {s : State} {v : Word} (hT : T ||| 1099512741906 = T) (hS : To T s0 s) :
    To T s0 (routeWriteSt v s) := by
  unfold routeWriteSt
  try dsimp -proj only
  repeat' (first | (with_reducible first | assumption | refine To.ite ?_ ?_ | refine dropLines_to ?_ ?_ | refine setRegI_to ?_ ?_ | refine deliver_to ?_ ?_) | exact To.sub hT (by decide) | refine To.fst (by assumption) ?_ | refine To.snd (by assumption) ?_ | split | (with_reducible first | refine To.set_evt ?_ ?_) | dsimp -proj only | (intro _; intros))

theorem execSrcRouteWrite_to {s : State} {a : Acc} {v : Word} (hT : T ||| 1099512741906 = T) (hS : To T s0 s) :
    Out T s0 (execSrcRouteWrite a v s) := by
  unfold execSrcRouteWrite
  repeat' (first | (with_reducible first | assumption | refine To.ite ?_ ?_ | refine onPage_to ?_ ?_ ?_ | refine routeWriteSt_to ?_ ?_ | refine Out.next ?_) | exact To.sub hT (by decide) | refine To.fst (by assumption) ?_ | refine To.snd (by assumption) ?_ | split | (intro _; intros))

theorem msixAckSt_to {s : State} {v : Word} (hT : T ||| 1099512676368 = T) (hS : To T s0 s) :
    To T s0 (msixAckSt v s) := by
  unfold msixAckSt
  repeat' (first | (with_reducible first | assumption | refine To.ite ?_ ?_ | refine evtMsix_to ?_ ?_) | exact To.sub hT (by decide) | refine To.fst (by assumption) ?_ | refine To.snd (by assumption) ?_ | split)

theorem execMsixAck_to {s : State} {a : Acc} {v : Word} (hT : T ||| 1099512676370 = T) (hS : To T s0 s) :
    Out T s0 (execMsixAck a v s) := by
  unfold execMsixAck
  repeat' (first | (with_reducible first | assumption | refine To.ite ?_ ?_ | refine onPage_to ?_ ?_ ?_ | refine msixAckSt_to ?_ ?_ | refine Out.next ?_) | exact To.sub hT (by decide) | refine To.fst (by assumption) ?_ | refine To.snd (by assumption) ?_ | split | (intro _; intros))

theorem acceptReport_to {s : State} {tbl : Mark} {r : Report} (hT : T ||| 1099546304530 = T) (hS : To T s0 s) :
    To T s0 (acceptReport tbl r s) := by
  unfold acceptReport
  try dsimp -proj only
  repeat' (first | (with_reducible first | assumption | refine To.ite ?_ ?_ | refine incCnt_to ?_ ?_ | refine modEvt_to ?_ ?_ | refine setEvt_to ?_ ?_ | refine tableRead_to ?_ ?_ ?_ | refine evtToken_to ?_ ?_) | exact To.sub hT (by decide) | refine To.fst (by assumption) ?_ | refine To.snd (by assumption) ?_ | split | dsimp -proj only | (intro _; intros))

theorem suppressReport_to {s : State} {r : Report} (hT : T ||| 1048592 = T) (hS : To T s0 s) :
    To T s0 (suppressReport r s) := by
  unfold suppressReport
  try dsimp -proj only
  repeat' (first | (with_reducible first | assumption | refine To.ite ?_ ?_ | refine incCnt_to ?_ ?_ | refine modEvt_to ?_ ?_) | exact To.sub hT (by decide) | refine To.fst (by assumption) ?_ | refine To.snd (by assumption) ?_ | split | dsimp -proj only | (intro _; intros))

theorem reportSt_to {s : State} {p : Nat} {tbl : Mark} (hT : T ||| 1099546304530 = T) (hS : To T s0 s) :
    To T s0 (reportSt p tbl s) := by
  unfold reportSt
  try dsimp -proj only
  repeat' (first | (with_reducible first | assumption | refine To.ite ?_ ?_ | refine addCnt_to ?_ ?_ | refine incCnt_to ?_ ?_ | refine modEvt_to ?_ ?_ | refine suppressReport_to ?_ ?_ | refine acceptReport_to ?_ ?_) | exact To.sub hT (by decide) | refine To.fst (by assumption) ?_ | refine To.snd (by assumption) ?_ | split | dsimp -proj only | (intro _; intros))

theorem execReport_to {s : State} {x : ReportRead} (hT : T ||| 1099546304530 = T) (hS : To T s0 s) :
    Out T s0 (execReport x s) := by
  unfold execReport
  repeat' (first | (with_reducible first | assumption | refine To.ite ?_ ?_ | refine reportSt_to ?_ ?_ | refine Out.next ?_) | exact To.sub hT (by decide) | refine To.fst (by assumption) ?_ | refine To.snd (by assumption) ?_ | split)

theorem execEchoWindowEnd_to {s : State} {p : Fin 512} (hT : T ||| 1048576 = T) (hS : To T s0 s) :
    Out T s0 (execEchoWindowEnd p s) := by
  unfold execEchoWindowEnd
  try dsimp -proj only
  repeat' (first | (with_reducible first | assumption | refine To.ite ?_ ?_ | refine modEvt_to ?_ ?_ | refine Out.next ?_) | exact To.sub hT (by decide) | refine To.fst (by assumption) ?_ | refine To.snd (by assumption) ?_ | split | dsimp -proj only | (intro _; intros))

theorem rptPopSt_to {s : State} {v : Word} (hT : T ||| 1048576 = T) (hS : To T s0 s) :
    To T s0 (rptPopSt v s) := by
  unfold rptPopSt
  try dsimp -proj only
  repeat' (first | (with_reducible first | assumption | refine To.ite ?_ ?_ | refine modEvt_to ?_ ?_) | exact To.sub hT (by decide) | refine To.fst (by assumption) ?_ | refine To.snd (by assumption) ?_ | split | dsimp -proj only | (intro _; intros))

theorem execRptPop_to {s : State} {a : Acc} {v : Word} (hT : T ||| 1048594 = T) (hS : To T s0 s) :
    Out T s0 (execRptPop a v s) := by
  unfold execRptPop
  repeat' (first | (with_reducible first | assumption | refine To.ite ?_ ?_ | refine onPage_to ?_ ?_ ?_ | refine rptPopSt_to ?_ ?_ | refine Out.next ?_) | exact To.sub hT (by decide) | refine To.fst (by assumption) ?_ | refine To.snd (by assumption) ?_ | split | (intro _; intros))

theorem execFatal_to {s : State} {cond : Fin 5} (hT : T ||| 1099546296338 = T) (hS : To T s0 s) :
    Out T s0 (execFatal cond s) := by
  unfold execFatal
  try dsimp -proj only
  repeat' (first | (with_reducible first | assumption | refine To.ite ?_ ?_ | refine fatalSt_to ?_ ?_ | refine ownErr_to ?_ ?_ | refine modEvt_to ?_ ?_ | refine Out.next ?_) | exact To.sub hT (by decide) | refine To.fst (by assumption) ?_ | refine To.snd (by assumption) ?_ | split | dsimp -proj only | (intro _; intros))

theorem execFatalResetDelay_to {s : State} (hT : T ||| 1048576 = T) (hS : To T s0 s) :
    Out T s0 (execFatalResetDelay s) := by
  unfold execFatalResetDelay
  try dsimp -proj only
  repeat' (first | (with_reducible first | assumption | refine To.ite ?_ ?_ | refine modEvt_to ?_ ?_ | refine Out.next ?_) | exact To.sub hT (by decide) | refine To.fst (by assumption) ?_ | refine To.snd (by assumption) ?_ | split | dsimp -proj only | (intro _; intros))

theorem evtDrop_to {s : State} (hT : T ||| 1048576 = T) (hS : To T s0 s) :
    To T s0 (evtDrop s) := by
  unfold evtDrop
  try dsimp -proj only
  repeat' (first | (with_reducible first | assumption | refine To.ite ?_ ?_ | refine dropLines_to ?_ ?_ | refine modEvt_to ?_ ?_) | exact To.sub hT (by decide) | refine To.fst (by assumption) ?_ | refine To.snd (by assumption) ?_ | split | dsimp -proj only | (intro _; intros))

end Sys2Proof.Machine
end

