-- ==== Sys2Proof/Laws/ToPowerBase.lean ====
section
/-! SUPPORT. The frames of the operations and meanings of PowerBase: what each may change. -/

namespace Sys2Proof.Machine

variable {T : Nat} {s0 : State}

theorem setCd_to {s : State} {c : Nat} {r : CdRec} (hT : T ||| 524288 = T) (hS : To T s0 s) :
    To T s0 (setCd s c r) := by
  unfold setCd
  repeat' (first | (with_reducible first | assumption | refine To.ite ?_ ?_) | exact To.sub hT (by decide) | refine To.fst (by assumption) ?_ | refine To.snd (by assumption) ?_ | split | with_reducible first | refine To.set_clk ?_ ?_)

theorem commandV_to {s : State} {p : Nat} (hT : T ||| 524306 = T) (hS : To T s0 s) :
    To T s0 (commandV s p) := by
  unfold commandV
  try dsimp -proj only
  repeat' (first | (with_reducible first | assumption | refine To.ite ?_ ?_ | refine modReg_to ?_ ?_ | refine incCnt_to ?_ ?_) | exact To.sub hT (by decide) | refine To.fst (by assumption) ?_ | refine To.snd (by assumption) ?_ | split | (with_reducible first | refine To.set_clk ?_ ?_) | dsimp -proj only | (intro _; intros))

theorem raiseV_to {s : State} {p : Nat} (hT : T ||| 524306 = T) (hS : To T s0 s) :
    To T s0 (raiseV s p) := by
  unfold raiseV
  repeat' (first | (with_reducible first | assumption | refine To.ite ?_ ?_ | refine commandV_to ?_ ?_) | exact To.sub hT (by decide) | refine To.fst (by assumption) ?_ | refine To.snd (by assumption) ?_ | split)

theorem lowerV_to {s : State} (hT : T ||| 524306 = T) (hS : To T s0 s) :
    To T s0 (lowerV s) := by
  unfold lowerV
  repeat' (first | (with_reducible first | assumption | refine To.ite ?_ ?_ | refine commandV_to ?_ ?_) | exact To.sub hT (by decide) | refine To.fst (by assumption) ?_ | refine To.snd (by assumption) ?_ | split)

theorem switchOn_to {s : State} {n : Nat} (hT : T ||| 786450 = T) (hS : To T s0 s) :
    To T s0 (switchOn s n) := by
  unfold switchOn
  try dsimp -proj only
  repeat' (first | (with_reducible first | assumption | refine To.ite ?_ ?_ | refine setPd_to ?_ ?_ | refine raiseV_to ?_ ?_) | exact To.sub hT (by decide) | refine To.fst (by assumption) ?_ | refine To.snd (by assumption) ?_ | split | dsimp -proj only)

theorem beginTrans_to {s : State} {n : Nat} {want : PdState} {req : Option PdReq} (hT : T ||| 786450 = T) (hS : To T s0 s) :
    To T s0 (beginTrans s n want req) := by
  unfold beginTrans
  try dsimp -proj only
  repeat' (first | (with_reducible first | assumption | refine To.ite ?_ ?_ | refine setPd_to ?_ ?_ | refine switchOn_to ?_ ?_) | exact To.sub hT (by decide) | refine To.fst (by assumption) ?_ | refine To.snd (by assumption) ?_ | split | (with_reducible first | refine To.set_pwr ?_ ?_) | dsimp -proj only)

theorem countWake_to {s : State} {n : Nat} (hT : T ||| 18 = T) (hS : To T s0 s) :
    To T s0 (countWake s n) := by
  unfold countWake
  repeat' (first | (with_reducible first | assumption | refine To.ite ?_ ?_ | refine setEvt_to ?_ ?_ | refine incCnt_to ?_ ?_ | refine modReg_to ?_ ?_) | exact To.sub hT (by decide) | refine To.fst (by assumption) ?_ | refine To.snd (by assumption) ?_ | split)

theorem wakeDomain_to {s : State} {n : Nat} (hT : T ||| 786450 = T) (hS : To T s0 s) :
    To T s0 (wakeDomain s n) := by
  unfold wakeDomain
  try dsimp -proj only
  repeat' (first | (with_reducible first | assumption | refine To.ite ?_ ?_ | refine beginTrans_to ?_ ?_ | refine countWake_to ?_ ?_ | refine setPd_to ?_ ?_) | exact To.sub hT (by decide) | refine To.fst (by assumption) ?_ | refine To.snd (by assumption) ?_ | split | dsimp -proj only)

theorem pwrFail_to {s : State} {f : FireRec} (hT : T ||| 65536 = T) (hS : To T s0 s) :
    To T s0 (pwrFail s f) := by
  unfold pwrFail
  repeat' (first | (with_reducible first | assumption | refine To.ite ?_ ?_ | refine failFire_to ?_ ?_) | exact To.sub hT (by decide) | refine To.fst (by assumption) ?_ | refine To.snd (by assumption) ?_ | split)

theorem sendFire_to {s : State} {p : Nat} {f : FireRec} (hT : T ||| 65536 = T) (hS : To T s0 s) :
    To T s0 (sendFire s p f) := by
  unfold sendFire
  repeat' (first | (with_reducible first | assumption | refine To.ite ?_ ?_) | exact To.sub hT (by decide) | refine To.fst (by assumption) ?_ | refine To.snd (by assumption) ?_ | split | with_reducible first | refine To.set_fab ?_ ?_)

theorem routeFire_to {s : State} {f : FireRec} (hT : T ||| 851986 = T) (hS : To T s0 s) :
    To T s0 (routeFire s f) := by
  unfold routeFire
  try dsimp -proj only
  repeat' (first | (with_reducible first | assumption | refine To.ite ?_ ?_ | refine pwrFail_to ?_ ?_ | refine sendFire_to ?_ ?_ | refine incCnt_to ?_ ?_ | refine wakeDomain_to ?_ ?_ | refine setEvt_to ?_ ?_) | exact To.sub hT (by decide) | refine To.fst (by assumption) ?_ | refine To.snd (by assumption) ?_ | split | (with_reducible first | refine To.set_pwr ?_ ?_) | dsimp -proj only | (intro _; intros))

end Sys2Proof.Machine
end

