-- ==== Sys2Proof/Laws/ToFabric.lean ====
section
/-! SUPPORT. The frames of the operations and meanings of Fabric: what each may change. -/

namespace Sys2Proof.Machine

variable {T : Nat} {s0 : State}

theorem modFab_to {s : State} {f : FabSt → FabSt} (hT : T ||| 65536 = T) (hS : To T s0 s) :
    To T s0 (modFab s f) := by
  unfold modFab
  repeat' (first | (with_reducible first | assumption | refine To.ite ?_ ?_) | exact To.sub hT (by decide) | refine To.fst (by assumption) ?_ | refine To.snd (by assumption) ?_ | split | with_reducible first | refine To.set_fab ?_ ?_)

theorem tblCheck_to {k : Nat} {x : State × Bool} {r : Nat} (hT : T ||| 1056850 = T) (hS : To T s0 x.1) :
    To T s0 (tblCheck k x r).1 := by
  unfold tblCheck
  repeat' (first | (with_reducible first | assumption | refine To.ite ?_ ?_ | refine countCe_to ?_ ?_ | refine captureErr_to ?_ ?_ | refine setMark_to ?_ ?_ | refine ownErr_to ?_ ?_ | refine incCnt_to ?_ ?_) | exact To.sub hT (by decide) | split)

theorem mapCheck_to {e r out : Nat} {x : State × Bool} (hT : T ||| 1056850 = T) (hS : To T s0 x.1) :
    To T s0 (mapCheck e r out x).1 := by
  unfold mapCheck
  split
  · exact tblCheck_to hT hS
  · exact hS

theorem pathCheck_to {s : State} {e : Nat} {dst : Nat} {hs : List Hop} (hT : T ||| 1056850 = T) (hS : To T s0 s) :
    To T s0 (pathCheck s e dst hs).1 := by
  unfold pathCheck
  refine To.foldl_fst _ (fun _ _ k => ?_) hS
  exact mapCheck_to hT (tblCheck_to hT k)

theorem slotCheck_to {s : State} {e : Nat} {r : Nat} {out : Nat} {slot : Nat} (hT : T ||| 1056850 = T) (hS : To T s0 s) :
    To T s0 (slotCheck s e r out slot).1 := by
  unfold slotCheck
  exact mapCheck_to hT (tblCheck_to hT hS)

theorem ltTrace_to {s : State} {r : Nat} {n : Nat} {point : Nat} {mode : Nat} {hdr : BitVec 128} (hT : T ||| 2 = T) (hS : To T s0 s) :
    To T s0 (ltTrace s r n point mode hdr) := by
  unfold ltTrace
  try dsimp -proj only
  repeat' (first | (with_reducible first | assumption | refine To.ite ?_ ?_ | refine setReg_to ?_ ?_ | refine setEvt_to ?_ ?_ | refine To.foldl _ (fun _ _ _ => ?_) ?_ | refine To.foldl_fst _ (fun _ _ _ => ?_) ?_) | exact To.sub hT (by decide) | refine To.fst (by assumption) ?_ | refine To.snd (by assumption) ?_ | split | dsimp -proj only | (intro _; intros))

theorem ltSee_to {s : State} {r : Nat} {inp : Nat} {out : Nat} {res : Nat} {hdr : BitVec 128} {n : Nat} (hT : T ||| 2 = T) (hS : To T s0 s) :
    To T s0 (ltSee r inp out res hdr s n) := by
  unfold ltSee
  try dsimp -proj only
  repeat' (first | (with_reducible first | assumption | refine To.ite ?_ ?_ | refine modReg_to ?_ ?_ | refine ltTrace_to ?_ ?_) | exact To.sub hT (by decide) | refine To.fst (by assumption) ?_ | refine To.snd (by assumption) ?_ | split | dsimp -proj only | (intro _; intros))

theorem crossRouter_to {s : State} {r : Nat} {inp : Nat} {out : Nat} {tc : Nat} {hdr : BitVec 128} (hT : T ||| 1042 = T) (hS : To T s0 s) :
    To T s0 (crossRouter r inp out tc hdr s) := by
  unfold crossRouter
  try dsimp -proj only
  repeat' (first | (with_reducible first | assumption | refine To.ite ?_ ?_ | refine incCnt_to ?_ ?_ | refine takeFree_to ?_ ?_ | refine ltSee_to ?_ ?_ | refine To.foldl _ (fun _ _ _ => ?_) ?_ | refine To.foldl_fst _ (fun _ _ _ => ?_) ?_) | exact To.sub hT (by decide) | refine To.fst (by assumption) ?_ | refine To.snd (by assumption) ?_ | split | dsimp -proj only)

theorem crossHops_to {s : State} {hs : List Hop} {tc : Nat} {hdr : BitVec 128} (hT : T ||| 1042 = T) (hS : To T s0 s) :
    To T s0 (crossHops hs tc hdr s) := by
  unfold crossHops
  try dsimp -proj only
  repeat' (first | (with_reducible first | assumption | refine To.ite ?_ ?_ | refine crossRouter_to ?_ ?_ | refine To.foldl _ (fun _ _ _ => ?_) ?_ | refine To.foldl_fst _ (fun _ _ _ => ?_) ?_) | exact To.sub hT (by decide) | refine To.fst (by assumption) ?_ | refine To.snd (by assumption) ?_ | split | dsimp -proj only | (intro _; intros))

theorem leafCheck_to {s : State} {r : Nat} {f : Flit} (hT : T ||| 1056786 = T) (hS : To T s0 s) :
    To T s0 (leafCheck r f s) := by
  unfold leafCheck
  try dsimp -proj only
  repeat' (first | (with_reducible first | assumption | refine To.ite ?_ ?_ | refine countCe_to ?_ ?_ | refine captureErr_to ?_ ?_ | refine incCnt_to ?_ ?_ | refine ownErr_to ?_ ?_ | refine setEvt_to ?_ ?_) | exact To.sub hT (by decide) | refine To.fst (by assumption) ?_ | refine To.snd (by assumption) ?_ | split | dsimp -proj only)

theorem farCheck_to {s : State} {src : Nat} {dst : Nat} {f : Flit} (hT : T ||| 1056786 = T) (hS : To T s0 s) :
    To T s0 (farCheck src dst f s).1 := by
  unfold farCheck
  try dsimp -proj only
  repeat' (first | (with_reducible first | assumption | refine To.ite ?_ ?_ | refine countCe_to ?_ ?_ | refine captureErr_to ?_ ?_ | refine incCnt_to ?_ ?_ | refine ownErr_to ?_ ?_ | refine setEvt_to ?_ ?_) | exact To.sub hT (by decide) | refine To.fst (by assumption) ?_ | refine To.snd (by assumption) ?_ | split | dsimp -proj only)

theorem flyOn_to {s : State} {src : Nat} {dst : Nat} {tc : Nat} {hdr : BitVec 128} {flit : Flit} {e : Nat} {q : Option QPos} (hT : T ||| 1123410 = T) (hS : To T s0 s) :
    To T s0 (flyOn src dst tc hdr flit e q s).1 := by
  unfold flyOn
  try dsimp -proj only
  repeat' (first | (with_reducible first | assumption | refine To.ite ?_ ?_ | refine pathCheck_to ?_ ?_ | refine crossHops_to ?_ ?_ | refine farCheck_to ?_ ?_ | refine modFab_to ?_ ?_) | exact To.sub hT (by decide) | refine To.fst (by assumption) ?_ | refine To.snd (by assumption) ?_ | split | dsimp -proj only | (intro _; intros))

theorem fly_to {s : State} {src : Nat} {dst : Nat} {tc : Nat} {hdr : BitVec 128} {flit : Flit} {e : Nat} {q : Option QPos} (hT : T ||| 1123410 = T) (hS : To T s0 s) :
    To T s0 (fly src dst tc hdr flit e q s).1 := by
  unfold fly
  try dsimp -proj only
  repeat' (first | (with_reducible first | assumption | refine To.ite ?_ ?_ | refine leafCheck_to ?_ ?_ | refine flyOn_to ?_ ?_) | exact To.sub hT (by decide) | refine To.fst (by assumption) ?_ | refine To.snd (by assumption) ?_ | split | dsimp -proj only)

theorem setTokPkts_to {s : State} {ts : List TokPkt} (hT : T ||| 65536 = T) (hS : To T s0 s) :
    To T s0 (setTokPkts s ts) := by
  unfold setTokPkts
  try dsimp -proj only
  repeat' (first | (with_reducible first | assumption | refine To.ite ?_ ?_ | refine modFab_to ?_ ?_) | exact To.sub hT (by decide) | refine To.fst (by assumption) ?_ | refine To.snd (by assumption) ?_ | split | dsimp -proj only | (intro _; intros))

theorem tokenPacketSt_to {s : State} {lp : Nat} {cls : Nat} {flit : Flit} (hT : T ||| 1156178 = T) (hS : To T s0 s) :
    To T s0 (tokenPacketSt lp cls flit s) := by
  unfold tokenPacketSt
  try dsimp -proj only
  repeat' (first | (with_reducible first | assumption | refine To.ite ?_ ?_ | refine fly_to ?_ ?_ | refine setTokPkts_to ?_ ?_) | exact To.sub hT (by decide) | refine To.fst (by assumption) ?_ | refine To.snd (by assumption) ?_ | split | (with_reducible first | refine To.set_disp ?_ ?_) | dsimp -proj only)

theorem poisonCause_to {s : State} {pool : Nat} (hT : T ||| 1024 = T) (hS : To T s0 s) :
    To T s0 (poisonCause s pool).2 := by
  unfold poisonCause
  try dsimp -proj only
  repeat' (first | (with_reducible first | assumption | refine To.ite ?_ ?_ | refine takeFree_to ?_ ?_) | exact To.sub hT (by decide) | refine To.fst (by assumption) ?_ | refine To.snd (by assumption) ?_ | split | dsimp -proj only)

theorem deliverFire_to {s : State} {f : FireRec} (hT : T ||| 856082 = T) (hS : To T s0 s) :
    To T s0 (deliverFire f s) := by
  unfold deliverFire
  repeat' (first | (with_reducible first | assumption | refine To.ite ?_ ?_ | refine pwrFail_to ?_ ?_ | refine routeFire_to ?_ ?_) | exact To.sub hT (by decide) | refine To.fst (by assumption) ?_ | refine To.snd (by assumption) ?_ | split | with_reducible first | refine To.set_arrived ?_ ?_)

theorem setFirePkts_to {s : State} {ts : List FirePkt} (hT : T ||| 65536 = T) (hS : To T s0 s) :
    To T s0 (setFirePkts s ts) := by
  unfold setFirePkts
  try dsimp -proj only
  repeat' (first | (with_reducible first | assumption | refine To.ite ?_ ?_ | refine modFab_to ?_ ?_) | exact To.sub hT (by decide) | refine To.fst (by assumption) ?_ | refine To.snd (by assumption) ?_ | split | dsimp -proj only | (intro _; intros))

theorem firePacketSt_to {s : State} {lp : Nat} {cls0 : Bool} {flit : Flit} (hT : T ||| 1913938 = T) (hS : To T s0 s) :
    To T s0 (firePacketSt lp cls0 flit s) := by
  unfold firePacketSt
  try dsimp -proj only
  repeat' (first | (with_reducible first | assumption | refine To.ite ?_ ?_ | refine fly_to ?_ ?_ | refine setFirePkts_to ?_ ?_ | refine poisonCause_to ?_ ?_ | refine failFire_to ?_ ?_ | refine pwrFail_to ?_ ?_ | refine deliverFire_to ?_ ?_) | exact To.sub hT (by decide) | refine To.fst (by assumption) ?_ | refine To.snd (by assumption) ?_ | split | dsimp -proj only | (intro _; intros))

theorem streamSt_to {s : State} {r : Nat} {out : Nat} {slot : Nat} {input : Nat} {filled : Bool} {flit : Flit} (hT : T ||| 1057874 = T) (hS : To T s0 s) :
    To T s0 (streamSt r out slot input filled flit s) := by
  unfold streamSt
  try dsimp -proj only
  repeat' (first | (with_reducible first | assumption | refine To.ite ?_ ?_ | refine incCnt_to ?_ ?_ | refine leafCheck_to ?_ ?_ | refine slotCheck_to ?_ ?_ | refine crossRouter_to ?_ ?_ | refine ownErr_to ?_ ?_ | refine setEvt_to ?_ ?_) | exact To.sub hT (by decide) | refine To.fst (by assumption) ?_ | refine To.snd (by assumption) ?_ | split | dsimp -proj only)

theorem linkDownSt_to {s : State} {l : LinkEnd} (hT : T ||| 1114130 = T) (hS : To T s0 s) :
    To T s0 (linkDownSt l s) := by
  unfold linkDownSt
  try dsimp -proj only
  repeat' (first | (with_reducible first | assumption | refine To.ite ?_ ?_ | refine ownErr_to ?_ ?_ | refine incCnt_to ?_ ?_ | refine setEvt_to ?_ ?_ | refine modFab_to ?_ ?_) | exact To.sub hT (by decide) | refine To.fst (by assumption) ?_ | refine To.snd (by assumption) ?_ | split | dsimp -proj only | (intro _; intros))

theorem remapBundle_to {s : State} {b : Nat} {k : Nat} (hT : T ||| 2 = T) (hS : To T s0 s) :
    To T s0 (remapBundle b k s) := by
  unfold remapBundle
  try dsimp -proj only
  repeat' (first | (with_reducible first | assumption | refine To.ite ?_ ?_ | refine setRegI_to ?_ ?_ | refine setEvt_to ?_ ?_) | exact To.sub hT (by decide) | refine To.fst (by assumption) ?_ | refine To.snd (by assumption) ?_ | split | dsimp -proj only)

theorem dropFix_to {s : State} {f : LinkFix} (hT : T ||| 65536 = T) (hS : To T s0 s) :
    To T s0 (dropFix s f) := by
  unfold dropFix
  try dsimp -proj only
  repeat' (first | (with_reducible first | assumption | refine To.ite ?_ ?_ | refine modFab_to ?_ ?_) | exact To.sub hT (by decide) | refine To.fst (by assumption) ?_ | refine To.snd (by assumption) ?_ | split | dsimp -proj only | (intro _; intros))

theorem spareRemapSt_to {s : State} {b : Nat} (hT : T ||| 65538 = T) (hS : To T s0 s) :
    To T s0 (spareRemapSt b s) := by
  unfold spareRemapSt
  repeat' (first | (with_reducible first | assumption | refine To.ite ?_ ?_ | refine remapBundle_to ?_ ?_ | refine dropFix_to ?_ ?_) | exact To.sub hT (by decide) | refine To.fst (by assumption) ?_ | refine To.snd (by assumption) ?_ | split)

theorem linkRerouteSt_to {s : State} {b : Nat} (hT : T ||| 65536 = T) (hS : To T s0 s) :
    To T s0 (linkRerouteSt b s) := by
  unfold linkRerouteSt
  try dsimp -proj only
  repeat' (first | (with_reducible first | assumption | refine To.ite ?_ ?_ | refine modFab_to ?_ ?_ | refine dropFix_to ?_ ?_) | exact To.sub hT (by decide) | refine To.fst (by assumption) ?_ | refine To.snd (by assumption) ?_ | split | dsimp -proj only | (intro _; intros))

theorem linkUpFabSt_to {s : State} {l : LinkEnd} (hT : T ||| 65536 = T) (hS : To T s0 s) :
    To T s0 (linkUpFabSt l s) := by
  unfold linkUpFabSt
  try dsimp -proj only
  repeat' (first | (with_reducible first | assumption | refine To.ite ?_ ?_ | refine modFab_to ?_ ?_) | exact To.sub hT (by decide) | refine To.fst (by assumption) ?_ | refine To.snd (by assumption) ?_ | split | dsimp -proj only | (intro _; intros))

theorem linkCfgWrite_to {s : State} {r : Nat} {b : Nat} {v : Word} (hT : T ||| 65538 = T) (hS : To T s0 s) :
    To T s0 (linkCfgWrite r b v s) := by
  unfold linkCfgWrite
  try dsimp -proj only
  repeat' (first | (with_reducible first | assumption | refine To.ite ?_ ?_ | refine setRegI_to ?_ ?_ | refine modFab_to ?_ ?_) | exact To.sub hT (by decide) | refine To.fst (by assumption) ?_ | refine To.snd (by assumption) ?_ | split | dsimp -proj only | (intro _; intros))

theorem tblRefuse_to {s : State} {r : Nat} (hT : T ||| 1048578 = T) (hS : To T s0 s) :
    To T s0 (tblRefuse s r) := by
  unfold tblRefuse
  repeat' (first | (with_reducible first | assumption | refine To.ite ?_ ?_ | refine ownErr_to ?_ ?_ | refine setEvt_to ?_ ?_) | exact To.sub hT (by decide) | refine To.fst (by assumption) ?_ | refine To.snd (by assumption) ?_ | split)

theorem tblDataSt_to {s : State} {a : Acc} {r : Nat} {v : Word} (hT : T ||| 1114178 = T) (hS : To T s0 s) :
    To T s0 (tblDataSt a r v s) := by
  unfold tblDataSt
  try dsimp -proj only
  repeat' (first | (with_reducible first | assumption | refine To.ite ?_ ?_ | refine tblRefuse_to ?_ ?_ | refine setReg_to ?_ ?_ | refine modFab_to ?_ ?_ | refine setMark_to ?_ ?_) | exact To.sub hT (by decide) | refine To.fst (by assumption) ?_ | refine To.snd (by assumption) ?_ | split | dsimp -proj only | (intro _; intros))

theorem copyMarks_to {s : State} {n : Nat} {c : Nat} {a : Nat} (hT : T ||| 64 = T) (hS : To T s0 s) :
    To T s0 (copyMarks n c a s) := by
  exact To.set_memErr hT hS fun k => kup_copyTable _ _ _ _ _ k

theorem tblCopySt_to {s : State} {a : Acc} {r : Nat} {v : Word} (hT : T ||| 1114178 = T) (hS : To T s0 s) :
    To T s0 (tblCopySt a r v s) := by
  unfold tblCopySt
  try dsimp -proj only
  repeat' (first | (with_reducible first | assumption | refine To.ite ?_ ?_ | refine tblRefuse_to ?_ ?_ | refine modFab_to ?_ ?_ | refine copyMarks_to ?_ ?_ | refine setRegI_to ?_ ?_ | refine To.foldl _ (fun _ _ _ => ?_) ?_ | refine To.foldl_fst _ (fun _ _ _ => ?_) ?_) | exact To.sub hT (by decide) | refine To.fst (by assumption) ?_ | refine To.snd (by assumption) ?_ | split | dsimp -proj only | (intro _; intros))

theorem linkMapWrite_to {s : State} {a : Acc} {r : Nat} {e : Nat} {b : Nat} {v : Word} (hT : T ||| 1048642 = T) (hS : To T s0 s) :
    To T s0 (linkMapWrite a r e b v s) := by
  unfold linkMapWrite
  repeat' (first | (with_reducible first | assumption | refine To.ite ?_ ?_ | refine tblRefuse_to ?_ ?_ | refine setRegI_to ?_ ?_ | refine setMark_to ?_ ?_) | exact To.sub hT (by decide) | refine To.fst (by assumption) ?_ | refine To.snd (by assumption) ?_ | split)

theorem flipCmdSt_to {s : State} {v : Word} (hT : T ||| 65538 = T) (hS : To T s0 s) :
    To T s0 (flipCmdSt v s) := by
  unfold flipCmdSt
  try dsimp -proj only
  repeat' (first | (with_reducible first | assumption | refine To.ite ?_ ?_ | refine modReg_to ?_ ?_ | refine setEvt_to ?_ ?_ | refine modFab_to ?_ ?_) | exact To.sub hT (by decide) | refine To.fst (by assumption) ?_ | refine To.snd (by assumption) ?_ | split | dsimp -proj only | (intro _; intros))

theorem epochFlipSt_to {s : State} (hT : T ||| 65554 = T) (hS : To T s0 s) :
    To T s0 (epochFlipSt s) := by
  unfold epochFlipSt
  try dsimp -proj only
  repeat' (first | (with_reducible first | assumption | refine To.ite ?_ ?_ | refine modFab_to ?_ ?_ | refine modReg_to ?_ ?_ | refine incCnt_to ?_ ?_ | refine setEvt_to ?_ ?_) | exact To.sub hT (by decide) | refine To.fst (by assumption) ?_ | refine To.snd (by assumption) ?_ | split | dsimp -proj only | (intro _; intros))

theorem countHeld_to {s : State} (hT : T ||| 16 = T) (hS : To T s0 s) :
    To T s0 (countHeld s) := by
  unfold countHeld
  try dsimp -proj only
  repeat' (first | (with_reducible first | assumption | refine To.ite ?_ ?_ | refine incCnt_to ?_ ?_ | refine To.foldl _ (fun _ _ _ => ?_) ?_ | refine To.foldl_fst _ (fun _ _ _ => ?_) ?_) | exact To.sub hT (by decide) | refine To.fst (by assumption) ?_ | refine To.snd (by assumption) ?_ | split | dsimp -proj only | (intro _; intros))

theorem epochDrainedSt_to {s : State} (hT : T ||| 65554 = T) (hS : To T s0 s) :
    To T s0 (epochDrainedSt s) := by
  unfold epochDrainedSt
  try dsimp -proj only
  repeat' (first | (with_reducible first | assumption | refine To.ite ?_ ?_ | refine countHeld_to ?_ ?_ | refine modFab_to ?_ ?_ | refine modReg_to ?_ ?_ | refine setEvt_to ?_ ?_) | exact To.sub hT (by decide) | refine To.fst (by assumption) ?_ | refine To.snd (by assumption) ?_ | split | dsimp -proj only | (intro _; intros))

theorem ltCtrlSt_to {s : State} {r : Nat} {n : Nat} {v : Word} (hT : T ||| 65538 = T) (hS : To T s0 s) :
    To T s0 (ltCtrlSt r n v s) := by
  unfold ltCtrlSt
  try dsimp -proj only
  repeat' (first | (with_reducible first | assumption | refine To.ite ?_ ?_ | refine setReg_to ?_ ?_ | refine modFab_to ?_ ?_) | exact To.sub hT (by decide) | refine To.fst (by assumption) ?_ | refine To.snd (by assumption) ?_ | split | dsimp -proj only | (intro _; intros))

theorem lanternSt_to {s : State} {r : Nat} {n : Nat} (hT : T ||| 65536 = T) (hS : To T s0 s) :
    To T s0 (lanternSt r n s) := by
  unfold lanternSt
  try dsimp -proj only
  repeat' (first | (with_reducible first | assumption | refine To.ite ?_ ?_ | refine modFab_to ?_ ?_) | exact To.sub hT (by decide) | refine To.fst (by assumption) ?_ | refine To.snd (by assumption) ?_ | split | dsimp -proj only | (intro _; intros))

theorem isAdd_to {s : State} {lp : Nat} {off : Nat} {n : Nat} (hT : T ||| 2 = T) (hS : To T s0 s) :
    To T s0 (isAdd s lp off n) := by
  unfold isAdd
  try dsimp -proj only
  repeat' (first | (with_reducible first | assumption | refine To.ite ?_ ?_ | refine setRegI_to ?_ ?_) | exact To.sub hT (by decide) | refine To.fst (by assumption) ?_ | refine To.snd (by assumption) ?_ | split | dsimp -proj only)

theorem isCount_to {s : State} {q : Req} (hT : T ||| 2 = T) (hS : To T s0 s) :
    To T s0 (isCount q s) := by
  unfold isCount
  try dsimp -proj only
  repeat' (first | (with_reducible first | assumption | refine To.ite ?_ ?_ | refine isAdd_to ?_ ?_ | refine setRegI_to ?_ ?_) | exact To.sub hT (by decide) | refine To.fst (by assumption) ?_ | refine To.snd (by assumption) ?_ | split | dsimp -proj only)

theorem isCtrlWrite_to {s : State} {r : Nat} {n : Nat} {v : Word} (hT : T ||| 65538 = T) (hS : To T s0 s) :
    To T s0 (isCtrlWrite r n v s) := by
  unfold isCtrlWrite
  try dsimp -proj only
  repeat' (first | (with_reducible first | assumption | refine To.ite ?_ ?_ | refine setRegI_to ?_ ?_ | refine modFab_to ?_ ?_ | refine To.foldl _ (fun _ _ _ => ?_) ?_ | refine To.foldl_fst _ (fun _ _ _ => ?_) ?_) | exact To.sub hT (by decide) | refine To.fst (by assumption) ?_ | refine To.snd (by assumption) ?_ | split | dsimp -proj only | (intro _; intros))

theorem ringBreakSt_to {s : State} {st : Nat} (hT : T ||| 1114114 = T) (hS : To T s0 s) :
    To T s0 (ringBreakSt st s) := by
  unfold ringBreakSt
  try dsimp -proj only
  repeat' (first | (with_reducible first | assumption | refine To.ite ?_ ?_ | refine modFab_to ?_ ?_ | refine setReg_to ?_ ?_ | refine ownErr_to ?_ ?_ | refine setEvt_to ?_ ?_) | exact To.sub hT (by decide) | refine To.fst (by assumption) ?_ | refine To.snd (by assumption) ?_ | split | dsimp -proj only | (intro _; intros))

theorem rtrDrop_to {s : State} {r : Nat} (hT : T ||| 65536 = T) (hS : To T s0 s) :
    To T s0 (rtrDrop r s) := by
  unfold rtrDrop
  try dsimp -proj only
  repeat' (first | (with_reducible first | assumption | refine To.ite ?_ ?_ | refine modFab_to ?_ ?_) | exact To.sub hT (by decide) | refine To.fst (by assumption) ?_ | refine To.snd (by assumption) ?_ | split | dsimp -proj only | (intro _; intros))

theorem execTokenPacket_to {s : State} {lp : Fin 48} {cls : Fin 4} {flit : Flit} (hT : T ||| 1156178 = T) (hS : To T s0 s) :
    Out T s0 (execTokenPacket lp cls flit s) := by
  unfold execTokenPacket
  repeat' (first | (with_reducible first | assumption | refine To.ite ?_ ?_ | refine tokenPacketSt_to ?_ ?_ | refine Out.next ?_) | exact To.sub hT (by decide) | refine To.fst (by assumption) ?_ | refine To.snd (by assumption) ?_ | split)

theorem execStream_to {s : State} {r : Fin 7} {out : Fin 24} {slot : BitVec 8} {input : BitVec 6} {filled : Bool} {flit : Flit} (hT : T ||| 1057874 = T) (hS : To T s0 s) :
    Out T s0 (execStream r out slot input filled flit s) := by
  unfold execStream
  repeat' (first | (with_reducible first | assumption | refine To.ite ?_ ?_ | refine streamSt_to ?_ ?_ | refine Out.next ?_) | exact To.sub hT (by decide) | refine To.fst (by assumption) ?_ | refine To.snd (by assumption) ?_ | split)

theorem execLinkDown_to {s : State} {l : LinkEnd} (hT : T ||| 1114130 = T) (hS : To T s0 s) :
    Out T s0 (execLinkDown l s) := by
  unfold execLinkDown
  repeat' (first | (with_reducible first | assumption | refine To.ite ?_ ?_ | refine linkDownSt_to ?_ ?_ | refine Out.next ?_) | exact To.sub hT (by decide) | refine To.fst (by assumption) ?_ | refine To.snd (by assumption) ?_ | split)

theorem execSpareRemap_to {s : State} {i : Fin 6} (hT : T ||| 65538 = T) (hS : To T s0 s) :
    Out T s0 (execSpareRemap i s) := by
  unfold execSpareRemap
  repeat' (first | (with_reducible first | assumption | refine To.ite ?_ ?_ | refine spareRemapSt_to ?_ ?_ | refine Out.next ?_) | exact To.sub hT (by decide) | refine To.fst (by assumption) ?_ | refine To.snd (by assumption) ?_ | split)

theorem execLinkReroute_to {s : State} {i : Fin 6} (hT : T ||| 65536 = T) (hS : To T s0 s) :
    Out T s0 (execLinkReroute i s) := by
  unfold execLinkReroute
  repeat' (first | (with_reducible first | assumption | refine To.ite ?_ ?_ | refine linkRerouteSt_to ?_ ?_ | refine Out.next ?_) | exact To.sub hT (by decide) | refine To.fst (by assumption) ?_ | refine To.snd (by assumption) ?_ | split)

theorem execTblCopy_to {s : State} {a : Acc} {r : Fin 7} {v : Word} (hT : T ||| 1114194 = T) (hS : To T s0 s) :
    Out T s0 (execTblCopy a r v s) := by
  unfold execTblCopy
  repeat' (first | (with_reducible first | assumption | refine To.ite ?_ ?_ | refine onPage_to ?_ ?_ ?_ | refine tblCopySt_to ?_ ?_ | refine Out.next ?_) | exact To.sub hT (by decide) | refine To.fst (by assumption) ?_ | refine To.snd (by assumption) ?_ | split | (intro _; intros))

theorem execTblDataWrite_to {s : State} {a : Acc} {r : Fin 7} {v : Word} (hT : T ||| 1114194 = T) (hS : To T s0 s) :
    Out T s0 (execTblDataWrite a r v s) := by
  unfold execTblDataWrite
  repeat' (first | (with_reducible first | assumption | refine To.ite ?_ ?_ | refine onPage_to ?_ ?_ ?_ | refine tblDataSt_to ?_ ?_ | refine Out.next ?_) | exact To.sub hT (by decide) | refine To.fst (by assumption) ?_ | refine To.snd (by assumption) ?_ | split | (intro _; intros))

theorem execFlipCmd_to {s : State} {a : Acc} {v : Word} (hT : T ||| 1114130 = T) (hS : To T s0 s) :
    Out T s0 (execFlipCmd a v s) := by
  unfold execFlipCmd
  repeat' (first | (with_reducible first | assumption | refine To.ite ?_ ?_ | refine onPage_to ?_ ?_ ?_ | refine flipCmdSt_to ?_ ?_ | refine Out.next ?_) | exact To.sub hT (by decide) | refine To.fst (by assumption) ?_ | refine To.snd (by assumption) ?_ | split | (intro _; intros))

theorem execEpochFlip_to {s : State} (hT : T ||| 65554 = T) (hS : To T s0 s) :
    Out T s0 (execEpochFlip s) := by
  unfold execEpochFlip
  repeat' (first | (with_reducible first | assumption | refine To.ite ?_ ?_ | refine epochFlipSt_to ?_ ?_ | refine Out.next ?_) | exact To.sub hT (by decide) | refine To.fst (by assumption) ?_ | refine To.snd (by assumption) ?_ | split)

theorem execEpochDrained_to {s : State} (hT : T ||| 65554 = T) (hS : To T s0 s) :
    Out T s0 (execEpochDrained s) := by
  unfold execEpochDrained
  repeat' (first | (with_reducible first | assumption | refine To.ite ?_ ?_ | refine epochDrainedSt_to ?_ ?_ | refine Out.next ?_) | exact To.sub hT (by decide) | refine To.fst (by assumption) ?_ | refine To.snd (by assumption) ?_ | split)

theorem execRingSegmentBreak_to {s : State} {st : Fin 64} (hT : T ||| 1114114 = T) (hS : To T s0 s) :
    Out T s0 (execRingSegmentBreak st s) := by
  unfold execRingSegmentBreak
  repeat' (first | (with_reducible first | assumption | refine To.ite ?_ ?_ | refine ringBreakSt_to ?_ ?_ | refine Out.next ?_) | exact To.sub hT (by decide) | refine To.fst (by assumption) ?_ | refine To.snd (by assumption) ?_ | split)

theorem execLtCtrlWrite_to {s : State} {a : Acc} {r : Fin 7} {n : Fin 8} {v : Word} (hT : T ||| 1114130 = T) (hS : To T s0 s) :
    Out T s0 (execLtCtrlWrite a r n v s) := by
  unfold execLtCtrlWrite
  repeat' (first | (with_reducible first | assumption | refine To.ite ?_ ?_ | refine onPage_to ?_ ?_ ?_ | refine ltCtrlSt_to ?_ ?_ | refine Out.next ?_) | exact To.sub hT (by decide) | refine To.fst (by assumption) ?_ | refine To.snd (by assumption) ?_ | split | (intro _; intros))

theorem execLanternStart_to {s : State} {r : Fin 7} {n : Fin 8} (hT : T ||| 65536 = T) (hS : To T s0 s) :
    Out T s0 (execLanternStart r n s) := by
  unfold execLanternStart
  repeat' (first | (with_reducible first | assumption | refine To.ite ?_ ?_ | refine lanternSt_to ?_ ?_ | refine Out.next ?_) | exact To.sub hT (by decide) | refine To.fst (by assumption) ?_ | refine To.snd (by assumption) ?_ | split)

theorem execFabricLinkUp_to {s : State} {l : LinkEnd} (hT : T ||| 65536 = T) (hS : To T s0 s) :
    Out T s0 (execFabricLinkUp l s) := by
  unfold execFabricLinkUp
  repeat' (first | (with_reducible first | assumption | refine To.ite ?_ ?_ | refine linkUpFabSt_to ?_ ?_ | refine Out.next ?_) | exact To.sub hT (by decide) | refine To.fst (by assumption) ?_ | refine To.snd (by assumption) ?_ | split)

end Sys2Proof.Machine
end

