-- ==== Sys2Proof/Laws/ToFec.lean ====
section
/-! SUPPORT. The frames of the operations and meanings of Fec: what each may change. -/

namespace Sys2Proof.Machine

variable {T : Nat} {s0 : State}

theorem setFec_to {s : State} {k : Nat} {ops : List FecOp} (hT : T ||| 134217728 = T) (hS : To T s0 s) :
    To T s0 (setFec s k ops) := by
  unfold setFec
  repeat' (first | (with_reducible first | assumption | refine To.ite ?_ ?_) | exact To.sub hT (by decide) | refine To.fst (by assumption) ?_ | refine To.snd (by assumption) ?_ | split | with_reducible first | refine To.set_fec ?_ ?_)

theorem readSeg_to {s : State} {k : Nat} {t : Tb} {hq : List Word} {bitsN : Nat} {r : Nat} (hT : T ||| 1187922 = T) (hS : To T s0 s) :
    To T s0 (readSeg s k t hq bitsN r).1 := by
  unfold readSeg
  try dsimp -proj only
  repeat' (first | (with_reducible first | assumption | refine To.ite ?_ ?_ | refine memRead_to ?_ ?_ | refine ownErr_to ?_ ?_) | exact To.sub hT (by decide) | refine To.fst (by assumption) ?_ | refine To.snd (by assumption) ?_ | split | dsimp -proj only)

theorem failFec_to {s : State} {k : Nat} {f : FireRec} {d : Nat} {cause : Nat} {cls : Nat} (hT : T ||| 1253618 = T) (hS : To T s0 s) :
    To T s0 (failFec s k f d cause cls) := by
  unfold failFec
  repeat' (first | (with_reducible first | assumption | refine To.ite ?_ ?_ | refine failFire_to ?_ ?_ | refine closeDesc_to ?_ ?_) | exact To.sub hT (by decide) | refine To.fst (by assumption) ?_ | refine To.snd (by assumption) ?_ | split)

theorem badArgFec_to {s : State} {k : Nat} {f : FireRec} {d : Nat} (hT : T ||| 1253618 = T) (hS : To T s0 s) :
    To T s0 (badArgFec s k f d) := by
  unfold badArgFec
  repeat' (first | (with_reducible first | assumption | refine To.ite ?_ ?_ | refine failFec_to ?_ ?_ | refine ownErr_to ?_ ?_) | exact To.sub hT (by decide) | refine To.fst (by assumption) ?_ | refine To.snd (by assumption) ?_ | split)

theorem noEngine_to {s : State} {k : Nat} {f : FireRec} {d : Nat} (hT : T ||| 1253618 = T) (hS : To T s0 s) :
    To T s0 (noEngine s k f d) := by
  unfold noEngine
  repeat' (first | (with_reducible first | assumption | refine To.ite ?_ ?_ | refine failFec_to ?_ ?_ | refine setEvt_to ?_ ?_) | exact To.sub hT (by decide) | refine To.fst (by assumption) ?_ | refine To.snd (by assumption) ?_ | split)

theorem acceptFec_to {s : State} {k : Nat} {kind : Nat} {f : FireRec} {d : Nat} {ws : List Word} {hq : List Word} {n : Nat} (hT : T ||| 135471346 = T) (hS : To T s0 s) :
    To T s0 (acceptFec s k kind f d ws hq n) := by
  unfold acceptFec
  try dsimp -proj only
  repeat' (first | (with_reducible first | assumption | refine To.ite ?_ ?_ | refine noEngine_to ?_ ?_ | refine setFec_to ?_ ?_) | exact To.sub hT (by decide) | refine To.fst (by assumption) ?_ | refine To.snd (by assumption) ?_ | split | dsimp -proj only)

theorem startTb_to {s : State} {k : Nat} {kind : Nat} {f : FireRec} {d : Nat} {ws : List Word} (hT : T ||| 135471346 = T) (hS : To T s0 s) :
    To T s0 (startTb s k kind f d ws) := by
  unfold startTb
  try dsimp -proj only
  repeat' (first | (with_reducible first | assumption | refine To.ite ?_ ?_ | refine badArgFec_to ?_ ?_ | refine memRead_to ?_ ?_ | refine acceptFec_to ?_ ?_ | refine failFec_to ?_ ?_ | refine ownErr_to ?_ ?_) | exact To.sub hT (by decide) | refine To.fst (by assumption) ?_ | refine To.snd (by assumption) ?_ | split | dsimp -proj only)

theorem startPolar_to {s : State} {k : Nat} {kind : Nat} {f : FireRec} {d : Nat} {ws : List Word} (hT : T ||| 135471346 = T) (hS : To T s0 s) :
    To T s0 (startPolar s k kind f d ws) := by
  unfold startPolar
  try dsimp -proj only
  repeat' (first | (with_reducible first | assumption | refine To.ite ?_ ?_ | refine badArgFec_to ?_ ?_ | refine memRead_to ?_ ?_ | refine acceptFec_to ?_ ?_ | refine failFec_to ?_ ?_ | refine ownErr_to ?_ ?_) | exact To.sub hT (by decide) | refine To.fst (by assumption) ?_ | refine To.snd (by assumption) ?_ | split | dsimp -proj only | (intro _; intros))

theorem fecStart_to {s : State} {k : Nat} {f : FireRec} (hT : T ||| 17592321515762 = T) (hS : To T s0 s) :
    To T s0 (fecStart k f s) := by
  unfold fecStart
  try dsimp -proj only
  repeat' (first | (with_reducible first | assumption | refine To.ite ?_ ?_ | refine memRead_to ?_ ?_ | refine holdUnowned_to ?_ ?_ | refine failFire_to ?_ ?_ | refine refuseDesc_to ?_ ?_ | refine ownErr_to ?_ ?_ | refine badArgFec_to ?_ ?_ | refine startTb_to ?_ ?_ | refine startPolar_to ?_ ?_ | refine failFec_to ?_ ?_) | exact To.sub hT (by decide) | refine To.fst (by assumption) ?_ | refine To.snd (by assumption) ?_ | split | dsimp -proj only)

theorem endFec_to {s : State} {k : Nat} {op : FecOp} (hT : T ||| 1253618 = T) (hS : To T s0 s) :
    To T s0 (endFec s k op) := by
  unfold endFec
  try dsimp -proj only
  repeat' (first | (with_reducible first | assumption | refine To.ite ?_ ?_ | refine memPut_to ?_ ?_ | refine failFec_to ?_ ?_ | refine complete_to ?_ ?_ | refine closeDesc_to ?_ ?_) | exact To.sub hT (by decide) | refine To.fst (by assumption) ?_ | refine To.snd (by assumption) ?_ | split | dsimp -proj only)

theorem sweepFec_to {s : State} {k : Nat} (hT : T ||| 135471346 = T) (hS : To T s0 s) :
    To T s0 (sweepFec s k) := by
  unfold sweepFec
  try dsimp -proj only
  repeat' (first | (with_reducible first | assumption | refine To.ite ?_ ?_ | refine setFec_to ?_ ?_ | refine endFec_to ?_ ?_ | refine To.foldl _ (fun _ _ _ => ?_) ?_ | refine To.foldl_fst _ (fun _ _ _ => ?_) ?_) | exact To.sub hT (by decide) | refine To.fst (by assumption) ?_ | refine To.snd (by assumption) ?_ | split | dsimp -proj only | (intro _; intros))

theorem unitStatus_to {s : State} {k : Nat} {op : FecOp} {i : Nat} {res : Nat} {iter : Nat} {synd : Nat} (hT : T ||| 1253618 = T) (hS : To T s0 s) :
    To T s0 (unitStatus s k op i res iter synd) := by
  unfold unitStatus
  try dsimp -proj only
  repeat' (first | (with_reducible first | assumption | refine To.ite ?_ ?_ | refine memPut_to ?_ ?_) | exact To.sub hT (by decide) | refine To.fst (by assumption) ?_ | refine To.snd (by assumption) ?_ | split | dsimp -proj only)

theorem stopOp_to {s : State} {k : Nat} {op : FecOp} {cause : Nat} {cls : Nat} (hT : T ||| 1253618 = T) (hS : To T s0 s) :
    To T s0 (stopOp s k op cause cls).1 := by
  unfold stopOp
  try dsimp -proj only
  repeat' (first | (with_reducible first | assumption | refine To.ite ?_ ?_ | refine unitStatus_to ?_ ?_ | refine To.foldl _ (fun _ _ _ => ?_) ?_ | refine To.foldl_fst _ (fun _ _ _ => ?_) ?_) | exact To.sub hT (by decide) | refine To.fst (by assumption) ?_ | refine To.snd (by assumption) ?_ | split | dsimp -proj only | (intro _; intros))

theorem checkEngines_to {s : State} {k : Nat} (hT : T ||| 135471346 = T) (hS : To T s0 s) :
    To T s0 (checkEngines s k) := by
  unfold checkEngines
  try dsimp -proj only
  repeat' (first | (with_reducible first | assumption | refine To.ite ?_ ?_ | refine stopOp_to ?_ ?_ | refine setEvt_to ?_ ?_ | refine sweepFec_to ?_ ?_ | refine setFec_to ?_ ?_ | refine To.foldl _ (fun _ _ _ => ?_) ?_ | refine To.foldl_fst _ (fun _ _ _ => ?_) ?_) | exact To.sub hT (by decide) | refine To.fst (by assumption) ?_ | refine To.snd (by assumption) ?_ | split | dsimp -proj only | (intro _; intros))

theorem unitStartSt_to {s : State} {k : Nat} {c : Nat} (hT : T ||| 134217746 = T) (hS : To T s0 s) :
    To T s0 (unitStartSt k c s) := by
  unfold unitStartSt
  try dsimp -proj only
  repeat' (first | (with_reducible first | assumption | refine To.ite ?_ ?_ | refine setEvt_to ?_ ?_ | refine incCnt_to ?_ ?_ | refine setFec_to ?_ ?_) | exact To.sub hT (by decide) | refine To.fst (by assumption) ?_ | refine To.snd (by assumption) ?_ | split | dsimp -proj only | (intro _; intros))

theorem combineCb_to {s : State} {k : Nat} {op : FecOp} {i : Nat} (hT : T ||| 1187922 = T) (hS : To T s0 s) :
    To T s0 (combineCb s k op i).1 := by
  unfold combineCb
  try dsimp -proj only
  repeat' (first | (with_reducible first | assumption | refine To.ite ?_ ?_ | refine readSeg_to ?_ ?_ | refine memRead_to ?_ ?_) | exact To.sub hT (by decide) | refine To.fst (by assumption) ?_ | refine To.snd (by assumption) ?_ | split | dsimp -proj only | (intro _; intros))

theorem encPayload_to {p : Nat} {t : Tb} {turbo : Bool} {r : Nat} (hT : T ||| 1187922 = T) :
    Rd T (encPayload p t turbo r) := by
  unfold encPayload
  try dsimp -proj only
  repeat' (first | (with_reducible first | assumption | refine To.ite ?_ ?_ | refine rdBytes_to ?_ | refine Rd.ok (by assumption) ?_ ?_ | refine Rd.error (by assumption) ?_ ?_ | exact Rd.pure _ | exact Rd.throw _ | refine Rd.bind ?_ (fun _ => ?_) | refine Rd.mapM _ (fun _ => ?_)) | exact To.sub hT (by decide) | refine To.fst (by assumption) ?_ | refine To.snd (by assumption) ?_ | split | dsimp -proj only)

theorem encodeUnit_to {k : Nat} {op : FecOp} {i : Nat} (hT : T ||| 1187922 = T) :
    Rd T (encodeUnit k op i) := by
  unfold encodeUnit
  try dsimp -proj only
  repeat' (first | (with_reducible first | assumption | refine To.ite ?_ ?_ | refine rdWords_to ?_ | refine rdBytes_to ?_ | refine encPayload_to ?_ | refine Rd.ok (by assumption) ?_ ?_ | refine Rd.error (by assumption) ?_ ?_ | exact Rd.pure _ | exact Rd.throw _ | refine Rd.bind ?_ (fun _ => ?_) | refine Rd.mapM _ (fun _ => ?_)) | exact To.sub hT (by decide) | refine To.fst (by assumption) ?_ | refine To.snd (by assumption) ?_ | split | dsimp -proj only)

theorem bufPush_to {s : State} {p : Nat} {off : Nat} {align : Nat} {d : List Byte} (hT : T ||| 1253618 = T) (hS : To T s0 s) :
    To T s0 (bufPush s p off align d).1 := by
  unfold bufPush
  try dsimp -proj only
  repeat' (first | (with_reducible first | assumption | refine To.ite ?_ ?_ | refine memPut_to ?_ ?_ | refine setReg_to ?_ ?_) | exact To.sub hT (by decide) | refine To.fst (by assumption) ?_ | refine To.snd (by assumption) ?_ | split | dsimp -proj only)

theorem checkHa_to {s : State} {p : Nat} {ringSize : Nat} {bufSz : Nat} (hT : T ||| 1048578 = T) (hS : To T s0 s) :
    To T s0 (checkHa s p ringSize bufSz) := by
  unfold checkHa
  try dsimp -proj only
  repeat' (first | (with_reducible first | assumption | refine To.ite ?_ ?_ | refine ownErr_to ?_ ?_) | exact To.sub hT (by decide) | refine To.fst (by assumption) ?_ | refine To.snd (by assumption) ?_ | split | dsimp -proj only)

theorem exportUnit_to {s : State} {k : Nat} {op : FecOp} {i : Nat} {soft : List Int} (hT : T ||| 1253618 = T) (hS : To T s0 s) :
    Ops T s0 (exportUnit s k op i soft) := by
  unfold exportUnit
  try dsimp -proj only
  repeat' (first | (with_reducible first | assumption | refine To.ite ?_ ?_ | refine checkHa_to ?_ ?_ | refine bufPush_to ?_ ?_ | refine Ring.push_to ?_ ?_ | refine Ops.some ?_ | exact Ops.none) | exact To.sub hT (by decide) | refine To.fst (by assumption) ?_ | refine To.snd (by assumption) ?_ | split | dsimp -proj only | (intro _; intros))

theorem closeUnit_to {s : State} {k : Nat} {j : Nat} {i : Nat} {o : UnitOut} (hT : T ||| 135471346 = T) (hS : To T s0 s) :
    To T s0 (closeUnit s k j i o) := by
  unfold closeUnit
  try dsimp -proj only
  repeat' (first | (with_reducible first | assumption | refine To.ite ?_ ?_ | refine putOuts_to ?_ ?_ | refine unitStatus_to ?_ ?_ | refine addCnt_to ?_ ?_ | refine sweepFec_to ?_ ?_ | refine setFec_to ?_ ?_ | refine To.foldl _ (fun _ _ _ => ?_) ?_ | refine To.foldl_fst _ (fun _ _ _ => ?_) ?_) | exact To.sub hT (by decide) | refine To.fst (by assumption) ?_ | refine To.snd (by assumption) ?_ | split | dsimp -proj only | (intro _; intros))

theorem failUnit_to {s : State} {k : Nat} {j : Nat} {i : Nat} {a : Nat} (hT : T ||| 135471346 = T) (hS : To T s0 s) :
    To T s0 (failUnit s k j i a) := by
  unfold failUnit
  try dsimp -proj only
  repeat' (first | (with_reducible first | assumption | refine To.ite ?_ ?_ | refine ownErr_to ?_ ?_ | refine stopOp_to ?_ ?_ | refine sweepFec_to ?_ ?_ | refine setFec_to ?_ ?_) | exact To.sub hT (by decide) | refine To.fst (by assumption) ?_ | refine To.snd (by assumption) ?_ | split | dsimp -proj only)

theorem runUnit_to {s : State} {k : Nat} {j : Nat} {i : Nat} {op : FecOp} (hT : T ||| 135471346 = T) (hS : To T s0 s) :
    To T s0 (runUnit s k j i op) := by
  unfold runUnit
  try dsimp -proj only
  repeat' (first | (with_reducible first | assumption | refine To.ite ?_ ?_ | refine combineCb_to ?_ ?_ | refine failUnit_to ?_ ?_ | refine Ops.get (by assumption) ?_ | refine exportUnit_to ?_ ?_ | refine setEvt_to ?_ ?_ | refine closeUnit_to ?_ ?_ | refine memRead_to ?_ ?_ | refine encodeUnit_to ?_ | refine Rd.ok (by assumption) ?_ ?_ | refine Rd.error (by assumption) ?_ ?_ | exact Rd.pure _ | exact Rd.throw _ | refine Rd.bind ?_ (fun _ => ?_) | refine Rd.mapM _ (fun _ => ?_)) | exact To.sub hT (by decide) | refine To.fst (by assumption) ?_ | refine To.snd (by assumption) ?_ | split | dsimp -proj only)

theorem unitDoneSt_to {s : State} {k : Nat} {e : Nat} {fault : Bool} (hT : T ||| 135471346 = T) (hS : To T s0 s) :
    To T s0 (unitDoneSt k e fault s) := by
  unfold unitDoneSt
  try dsimp -proj only
  repeat' (first | (with_reducible first | assumption | refine To.ite ?_ ?_ | refine modReg_to ?_ ?_ | refine ownErr_to ?_ ?_ | refine setEvt_to ?_ ?_ | refine incCnt_to ?_ ?_ | refine checkEngines_to ?_ ?_ | refine setFec_to ?_ ?_ | refine runUnit_to ?_ ?_) | exact To.sub hT (by decide) | refine To.fst (by assumption) ?_ | refine To.snd (by assumption) ?_ | split | dsimp -proj only | (intro _; intros))

theorem fecFire_to {s : State} {kind : Nat} {f : FireRec} (hT : T ||| 17592321519858 = T) (hS : To T s0 s) :
    To T s0 (fecFire kind f s) := by
  unfold fecFire
  try dsimp -proj only
  repeat' (first | (with_reducible first | assumption | refine To.ite ?_ ?_ | refine fireRow_to ?_ ?_ ?_ | refine fecStart_to ?_ ?_) | exact To.sub hT (by decide) | refine To.fst (by assumption) ?_ | refine To.snd (by assumption) ?_ | split | dsimp -proj only | (intro _; intros))

theorem execLdpcDec_to {s : State} {f : FireRec} (hT : T ||| 17592321519858 = T) (hS : To T s0 s) :
    Out T s0 (execLdpcDec f s) := by
  unfold execLdpcDec
  repeat' (first | (with_reducible first | assumption | refine To.ite ?_ ?_ | refine fecFire_to ?_ ?_ | refine Out.next ?_) | exact To.sub hT (by decide) | refine To.fst (by assumption) ?_ | refine To.snd (by assumption) ?_ | split)

theorem execLdpcEnc_to {s : State} {f : FireRec} (hT : T ||| 17592321519858 = T) (hS : To T s0 s) :
    Out T s0 (execLdpcEnc f s) := by
  unfold execLdpcEnc
  repeat' (first | (with_reducible first | assumption | refine To.ite ?_ ?_ | refine fecFire_to ?_ ?_ | refine Out.next ?_) | exact To.sub hT (by decide) | refine To.fst (by assumption) ?_ | refine To.snd (by assumption) ?_ | split)

theorem execTurboDec_to {s : State} {f : FireRec} (hT : T ||| 17592321519858 = T) (hS : To T s0 s) :
    Out T s0 (execTurboDec f s) := by
  unfold execTurboDec
  repeat' (first | (with_reducible first | assumption | refine To.ite ?_ ?_ | refine fecFire_to ?_ ?_ | refine Out.next ?_) | exact To.sub hT (by decide) | refine To.fst (by assumption) ?_ | refine To.snd (by assumption) ?_ | split)

theorem execTurboEnc_to {s : State} {f : FireRec} (hT : T ||| 17592321519858 = T) (hS : To T s0 s) :
    Out T s0 (execTurboEnc f s) := by
  unfold execTurboEnc
  repeat' (first | (with_reducible first | assumption | refine To.ite ?_ ?_ | refine fecFire_to ?_ ?_ | refine Out.next ?_) | exact To.sub hT (by decide) | refine To.fst (by assumption) ?_ | refine To.snd (by assumption) ?_ | split)

theorem execPolarDec_to {s : State} {f : FireRec} (hT : T ||| 17592321519858 = T) (hS : To T s0 s) :
    Out T s0 (execPolarDec f s) := by
  unfold execPolarDec
  repeat' (first | (with_reducible first | assumption | refine To.ite ?_ ?_ | refine fecFire_to ?_ ?_ | refine Out.next ?_) | exact To.sub hT (by decide) | refine To.fst (by assumption) ?_ | refine To.snd (by assumption) ?_ | split)

theorem execPolarEnc_to {s : State} {f : FireRec} (hT : T ||| 17592321519858 = T) (hS : To T s0 s) :
    Out T s0 (execPolarEnc f s) := by
  unfold execPolarEnc
  repeat' (first | (with_reducible first | assumption | refine To.ite ?_ ?_ | refine fecFire_to ?_ ?_ | refine Out.next ?_) | exact To.sub hT (by decide) | refine To.fst (by assumption) ?_ | refine To.snd (by assumption) ?_ | split)

theorem execWorkUnitStart_to {s : State} {k : Fin 4} {c : Fin 4} (hT : T ||| 134217746 = T) (hS : To T s0 s) :
    Out T s0 (execWorkUnitStart k c s) := by
  unfold execWorkUnitStart
  repeat' (first | (with_reducible first | assumption | refine To.ite ?_ ?_ | refine whileRuns_to ?_ ?_ ?_ | refine unitStartSt_to ?_ ?_ | refine Out.next ?_) | exact To.sub hT (by decide) | refine To.fst (by assumption) ?_ | refine To.snd (by assumption) ?_ | split | (intro _; intros))

theorem execWorkUnitDone_to {s : State} {k : Fin 4} {e : Fin 25} {fault : Bool} (hT : T ||| 135471346 = T) (hS : To T s0 s) :
    Out T s0 (execWorkUnitDone k e fault s) := by
  unfold execWorkUnitDone
  try dsimp -proj only
  repeat' (first | (with_reducible first | assumption | refine To.ite ?_ ?_ | refine whileRuns_to ?_ ?_ ?_ | refine dramHold_to ?_ ?_ | refine unitDoneSt_to ?_ ?_ | refine Out.next ?_) | exact To.sub hT (by decide) | refine To.fst (by assumption) ?_ | refine To.snd (by assumption) ?_ | split | dsimp -proj only | (intro _; intros))

theorem fecDrop_to {s : State} {k : Nat} (hT : T ||| 135471346 = T) (hS : To T s0 s) :
    To T s0 (fecDrop s k) := by
  unfold fecDrop
  try dsimp -proj only
  repeat' (first | (with_reducible first | assumption | refine To.ite ?_ ?_ | refine setFec_to ?_ ?_ | refine failFec_to ?_ ?_ | refine To.foldl _ (fun _ _ _ => ?_) ?_ | refine To.foldl_fst _ (fun _ _ _ => ?_) ?_) | exact To.sub hT (by decide) | refine To.fst (by assumption) ?_ | refine To.snd (by assumption) ?_ | split | dsimp -proj only | (intro _; intros))

end Sys2Proof.Machine
end

