-- ==== Sys2Proof/Laws/ToMemEcc.lean ====
section
/-! SUPPORT. The frames of the operations and meanings of MemEcc: what each may change. -/

namespace Sys2Proof.Machine

variable {T : Nat} {s0 : State}

theorem modMemc_to {s : State} {f : MemSt → MemSt} (hT : T ||| 131072 = T) (hS : To T s0 s) :
    To T s0 (modMemc s f) := by
  unfold modMemc
  repeat' (first | (with_reducible first | assumption | refine To.ite ?_ ?_) | exact To.sub hT (by decide) | refine To.fst (by assumption) ?_ | refine To.snd (by assumption) ?_ | split | with_reducible first | refine To.set_memc ?_ ?_)

theorem applyUpset_to {s : State} {u : Option Upset} (hT : T ||| 1120 = T) (hS : To T s0 s) :
    To T s0 (applyUpset u s) := by
  unfold applyUpset
  try dsimp -proj only
  repeat' (first | (with_reducible first | assumption | refine To.ite ?_ ?_ | refine setMark_to ?_ ?_ | refine takeFree_to ?_ ?_ | refine setByte_to ?_ ?_) | exact To.sub hT (by decide) | refine To.fst (by assumption) ?_ | refine To.snd (by assumption) ?_ | split | dsimp -proj only)

theorem zeroRange_to {s : State} {lo : Nat} {hi : Nat} (hT : T ||| 96 = T) (hS : To T s0 s) :
    To T s0 (zeroRange lo hi s) := by
  unfold zeroRange
  try dsimp -proj only
  repeat' (first | (with_reducible first | assumption | refine To.ite ?_ ?_) | exact To.sub hT (by decide) | refine To.fst (by assumption) ?_ | refine To.snd (by assumption) ?_ | split | dsimp -proj only | (intro _; intros) | refine To.upd ?_)

theorem arrayScrubSt_to {s : State} {p : Nat} {arr : Nat} {w : Nat} {u : Option Upset} (hT : T ||| 1188978 = T) (hS : To T s0 s) :
    To T s0 (arrayScrubSt p arr w u s) := by
  unfold arrayScrubSt
  try dsimp -proj only
  repeat' (first | (with_reducible first | assumption | refine To.ite ?_ ?_ | refine applyUpset_to ?_ ?_ | refine readArrayWord_to ?_ ?_ | refine modMemc_to ?_ ?_ | refine incCnt_to ?_ ?_) | exact To.sub hT (by decide) | refine To.fst (by assumption) ?_ | refine To.snd (by assumption) ?_ | split | dsimp -proj only | (intro _; intros))

theorem rrRefuse_to {s : State} {why : Nat} (hT : T ||| 2 = T) (hS : To T s0 s) :
    To T s0 (rrRefuse why s) := by
  unfold rrRefuse
  try dsimp -proj only
  repeat' (first | (with_reducible first | assumption | refine To.ite ?_ ?_ | refine setEvt_to ?_ ?_ | refine modReg_to ?_ ?_) | exact To.sub hT (by decide) | refine To.fst (by assumption) ?_ | refine To.snd (by assumption) ?_ | split | dsimp -proj only | (intro _; intros))

theorem repairSt_to {s : State} {v : Word} (hT : T ||| 131074 = T) (hS : To T s0 s) :
    To T s0 (repairSt v s) := by
  unfold repairSt
  try dsimp -proj only
  repeat' (first | (with_reducible first | assumption | refine To.ite ?_ ?_ | refine rrRefuse_to ?_ ?_ | refine modReg_to ?_ ?_ | refine modMemc_to ?_ ?_) | exact To.sub hT (by decide) | refine To.fst (by assumption) ?_ | refine To.snd (by assumption) ?_ | split | dsimp -proj only | (intro _; intros))

theorem moveRow_to {s : State} {arr : Nat} {row : Nat} (hT : T ||| 139330 = T) (hS : To T s0 s) :
    To T s0 (moveRow arr row s).1 := by
  unfold moveRow
  try dsimp -proj only
  repeat' (first | (with_reducible first | assumption | refine To.ite ?_ ?_ | refine countCe_to ?_ ?_ | refine setMark_to ?_ ?_ | refine modMemc_to ?_ ?_ | refine To.foldl _ (fun _ _ _ => ?_) ?_ | refine To.foldl_fst _ (fun _ _ _ => ?_) ?_) | exact To.sub hT (by decide) | refine To.fst (by assumption) ?_ | refine To.snd (by assumption) ?_ | split | dsimp -proj only | (intro _; intros))

theorem rrDoneSt_to {s : State} (hT : T ||| 139346 = T) (hS : To T s0 s) :
    To T s0 (rrDoneSt s) := by
  unfold rrDoneSt
  try dsimp -proj only
  repeat' (first | (with_reducible first | assumption | refine To.ite ?_ ?_ | refine moveRow_to ?_ ?_ | refine modMemc_to ?_ ?_ | refine modReg_to ?_ ?_ | refine incCnt_to ?_ ?_ | refine setEvt_to ?_ ?_) | exact To.sub hT (by decide) | refine To.fst (by assumption) ?_ | refine To.snd (by assumption) ?_ | split | dsimp -proj only | (intro _; intros))

theorem bankPwrSet_to {s : State} {h : Nat} {lo : Word} {hi : Word} (hT : T ||| 98 = T) (hS : To T s0 s) :
    To T s0 (bankPwrSet h lo hi s) := by
  unfold bankPwrSet
  try dsimp -proj only
  repeat' (first | (with_reducible first | assumption | refine To.ite ?_ ?_ | refine setReg_to ?_ ?_ | refine zeroRange_to ?_ ?_ | refine To.foldl _ (fun _ _ _ => ?_) ?_ | refine To.foldl_fst _ (fun _ _ _ => ?_) ?_) | exact To.sub hT (by decide) | refine To.fst (by assumption) ?_ | refine To.snd (by assumption) ?_ | split | dsimp -proj only | (intro _; intros))

theorem bankPwrSt_to {s : State} {a : Acc} {h : Nat} {hi : Bool} {v : Word} (hT : T ||| 106 = T) (hS : To T s0 s) :
    To T s0 (bankPwrSt a h hi v s) := by
  unfold bankPwrSt
  try dsimp -proj only
  repeat' (first | (with_reducible first | assumption | refine To.ite ?_ ?_ | refine takeLo_to ?_ ?_ | refine bankPwrSet_to ?_ ?_ | refine holdLo_to ?_ ?_) | exact To.sub hT (by decide) | refine To.fst (by assumption) ?_ | refine To.snd (by assumption) ?_ | split | dsimp -proj only)

theorem setChState_to {s : State} {st : Nat} (hT : T ||| 2 = T) (hS : To T s0 s) :
    To T s0 (setChState st s) := by
  unfold setChState
  try dsimp -proj only
  repeat' (first | (with_reducible first | assumption | refine To.ite ?_ ?_ | refine modReg_to ?_ ?_ | refine To.foldl _ (fun _ _ _ => ?_) ?_ | refine To.foldl_fst _ (fun _ _ _ => ?_) ?_) | exact To.sub hT (by decide) | refine To.fst (by assumption) ?_ | refine To.snd (by assumption) ?_ | split | dsimp -proj only | (intro _; intros))

theorem setChFsp_to {s : State} {fsp : Nat} (hT : T ||| 2 = T) (hS : To T s0 s) :
    To T s0 (setChFsp fsp s) := by
  unfold setChFsp
  try dsimp -proj only
  repeat' (first | (with_reducible first | assumption | refine To.ite ?_ ?_ | refine modReg_to ?_ ?_ | refine To.foldl _ (fun _ _ _ => ?_) ?_ | refine To.foldl_fst _ (fun _ _ _ => ?_) ?_) | exact To.sub hT (by decide) | refine To.fst (by assumption) ?_ | refine To.snd (by assumption) ?_ | split | dsimp -proj only | (intro _; intros))

theorem dramLost_to {s : State} (hT : T ||| 96 = T) (hS : To T s0 s) :
    To T s0 (dramLost s) := by
  unfold dramLost
  repeat' (first | (with_reducible first | assumption | refine To.ite ?_ ?_ | refine zeroRange_to ?_ ?_) | exact To.sub hT (by decide) | refine To.fst (by assumption) ?_ | refine To.snd (by assumption) ?_ | split)

theorem dramBegin_to {s : State} (hT : T ||| 1179746 = T) (hS : To T s0 s) :
    To T s0 (dramBegin s) := by
  unfold dramBegin
  try dsimp -proj only
  repeat' (first | (with_reducible first | assumption | refine To.ite ?_ ?_ | refine ownErr_to ?_ ?_ | refine dramLost_to ?_ ?_ | refine setChState_to ?_ ?_ | refine modMemc_to ?_ ?_) | exact To.sub hT (by decide) | refine To.fst (by assumption) ?_ | refine To.snd (by assumption) ?_ | split | dsimp -proj only | (intro _; intros))

theorem dramEnableSt_to {s : State} (hT : T ||| 1179746 = T) (hS : To T s0 s) :
    To T s0 (dramEnableSt s) := by
  unfold dramEnableSt
  try dsimp -proj only
  repeat' (first | (with_reducible first | assumption | refine To.ite ?_ ?_ | refine dramBegin_to ?_ ?_ | refine modReg_to ?_ ?_) | exact To.sub hT (by decide) | refine To.fst (by assumption) ?_ | refine To.snd (by assumption) ?_ | split | dsimp -proj only | (intro _; intros))

theorem dramInitDoneSt_to {s : State} {failed : Option (Fin 16 × BitVec 4)} (hT : T ||| 1179650 = T) (hS : To T s0 s) :
    To T s0 (dramInitDoneSt failed s) := by
  unfold dramInitDoneSt
  try dsimp -proj only
  repeat' (first | (with_reducible first | assumption | refine To.ite ?_ ?_ | refine modMemc_to ?_ ?_ | refine modReg_to ?_ ?_ | refine ownErr_to ?_ ?_ | refine setEvt_to ?_ ?_ | refine setChFsp_to ?_ ?_ | refine setChState_to ?_ ?_ | refine setReg_to ?_ ?_ | refine setEnabled_to ?_ ?_ | refine To.foldl _ (fun _ _ _ => ?_) ?_ | refine To.foldl_fst _ (fun _ _ _ => ?_) ?_) | exact To.sub hT (by decide) | refine To.fst (by assumption) ?_ | refine To.snd (by assumption) ?_ | split | dsimp -proj only | (intro _; intros))

theorem fcStart_to {s : State} {by_ : FcBy} {n : Nat} (hT : T ||| 131074 = T) (hS : To T s0 s) :
    To T s0 (fcStart by_ n s) := by
  unfold fcStart
  try dsimp -proj only
  repeat' (first | (with_reducible first | assumption | refine To.ite ?_ ?_ | refine modMemc_to ?_ ?_ | refine setChState_to ?_ ?_ | refine modReg_to ?_ ?_) | exact To.sub hT (by decide) | refine To.fst (by assumption) ?_ | refine To.snd (by assumption) ?_ | split | dsimp -proj only | (intro _; intros))

theorem fcFireNow_to {s : State} {f : FireRec} (hT : T ||| 196610 = T) (hS : To T s0 s) :
    To T s0 (fcFireNow f s) := by
  unfold fcFireNow
  repeat' (first | (with_reducible first | assumption | refine To.ite ?_ ?_ | refine failFire_to ?_ ?_ | refine fcStart_to ?_ ?_) | exact To.sub hT (by decide) | refine To.fst (by assumption) ?_ | refine To.snd (by assumption) ?_ | split)

theorem freqChangeSt_to {s : State} {f : FireRec} (hT : T ||| 200706 = T) (hS : To T s0 s) :
    To T s0 (freqChangeSt f s) := by
  unfold freqChangeSt
  try dsimp -proj only
  repeat' (first | (with_reducible first | assumption | refine To.ite ?_ ?_ | refine takeArrived_to ?_ ?_ | refine failFire_to ?_ ?_ | refine modMemc_to ?_ ?_ | refine fcFireNow_to ?_ ?_) | exact To.sub hT (by decide) | refine To.fst (by assumption) ?_ | refine To.snd (by assumption) ?_ | split | dsimp -proj only | (intro _; intros))

theorem fcGoSt_to {s : State} {v : Word} (hT : T ||| 131074 = T) (hS : To T s0 s) :
    To T s0 (fcGoSt v s) := by
  unfold fcGoSt
  repeat' (first | (with_reducible first | assumption | refine To.ite ?_ ?_ | refine setEvt_to ?_ ?_ | refine fcStart_to ?_ ?_) | exact To.sub hT (by decide) | refine To.fst (by assumption) ?_ | refine To.snd (by assumption) ?_ | split)

theorem closeRows_to {s : State} {keep : Nat → Bool} (hT : T ||| 131072 = T) (hS : To T s0 s) :
    To T s0 (closeRows keep s) := by
  unfold closeRows
  try dsimp -proj only
  repeat' (first | (with_reducible first | assumption | refine To.ite ?_ ?_ | refine modMemc_to ?_ ?_) | exact To.sub hT (by decide) | refine To.fst (by assumption) ?_ | refine To.snd (by assumption) ?_ | split | dsimp -proj only | (intro _; intros))

theorem issueRefresh_to {s : State} {c : Nat} {n : Nat} (hT : T ||| 131088 = T) (hS : To T s0 s) :
    To T s0 (issueRefresh c n s) := by
  unfold issueRefresh
  try dsimp -proj only
  repeat' (first | (with_reducible first | assumption | refine To.ite ?_ ?_ | refine modMemc_to ?_ ?_ | refine addCnt_to ?_ ?_) | exact To.sub hT (by decide) | refine To.fst (by assumption) ?_ | refine To.snd (by assumption) ?_ | split | dsimp -proj only | (intro _; intros))

theorem fcEnd_to {s : State} {ns : Nat} (hT : T ||| 131090 = T) (hS : To T s0 s) :
    To T s0 (fcEnd ns s) := by
  unfold fcEnd
  try dsimp -proj only
  repeat' (first | (with_reducible first | assumption | refine To.ite ?_ ?_ | refine issueRefresh_to ?_ ?_ | refine closeRows_to ?_ ?_ | refine modReg_to ?_ ?_ | refine setChState_to ?_ ?_ | refine modMemc_to ?_ ?_ | refine To.foldl _ (fun _ _ _ => ?_) ?_ | refine To.foldl_fst _ (fun _ _ _ => ?_) ?_) | exact To.sub hT (by decide) | refine To.fst (by assumption) ?_ | refine To.snd (by assumption) ?_ | split | dsimp -proj only | (intro _; intros))

theorem fcNext_to {y1 : State} {y0 : Nat} (hT : T ||| 196610 = T) (hS : To T s0 y1) :
    To T s0 (fcNext y0 y1) := by
  induction y0 generalizing y1 with
  | zero => exact hS
  | succ _ ih =>
    unfold fcNext
    try dsimp -proj only
    repeat' (first | (with_reducible first | assumption | refine To.ite ?_ ?_ | refine fcFireNow_to ?_ ?_ | refine modMemc_to ?_ ?_ | refine ih ?_) | exact To.sub hT (by decide) | refine To.fst (by assumption) ?_ | refine To.snd (by assumption) ?_ | split | dsimp -proj only | (intro _; intros))

theorem fcDoneSt_to {s : State} {ns : Nat} (hT : T ||| 196626 = T) (hS : To T s0 s) :
    To T s0 (fcDoneSt ns s) := by
  unfold fcDoneSt
  try dsimp -proj only
  repeat' (first | (with_reducible first | assumption | refine To.ite ?_ ?_ | refine setReg_to ?_ ?_ | refine modReg_to ?_ ?_ | refine setChFsp_to ?_ ?_ | refine setEvt_to ?_ ?_ | refine fcEnd_to ?_ ?_ | refine complete_to ?_ ?_ | refine fcNext_to ?_ ?_ | refine To.foldl _ (fun _ _ _ => ?_) ?_ | refine To.foldl_fst _ (fun _ _ _ => ?_) ?_) | exact To.sub hT (by decide) | refine To.fst (by assumption) ?_ | refine To.snd (by assumption) ?_ | split | dsimp -proj only | (intro _; intros))

theorem fcFailSt_to {s : State} {ns : Nat} (hT : T ||| 1245202 = T) (hS : To T s0 s) :
    To T s0 (fcFailSt ns s) := by
  unfold fcFailSt
  try dsimp -proj only
  repeat' (first | (with_reducible first | assumption | refine To.ite ?_ ?_ | refine ownErr_to ?_ ?_ | refine setEvt_to ?_ ?_ | refine fcEnd_to ?_ ?_ | refine failFire_to ?_ ?_ | refine fcNext_to ?_ ?_) | exact To.sub hT (by decide) | refine To.fst (by assumption) ?_ | refine To.snd (by assumption) ?_ | split | dsimp -proj only)

theorem dramRefreshSt_to {s : State} {c : Nat} {traffic : Bool} (hT : T ||| 132112 = T) (hS : To T s0 s) :
    To T s0 (dramRefreshSt c traffic s) := by
  unfold dramRefreshSt
  try dsimp -proj only
  repeat' (first | (with_reducible first | assumption | refine To.ite ?_ ?_ | refine modMemc_to ?_ ?_ | refine issueRefresh_to ?_ ?_ | refine closeRows_to ?_ ?_ | refine takeFree_to ?_ ?_) | exact To.sub hT (by decide) | refine To.fst (by assumption) ?_ | refine To.snd (by assumption) ?_ | split | dsimp -proj only | (intro _; intros))

theorem mr4St_to {s : State} {c : Nat} {code : Nat} (hT : T ||| 2 = T) (hS : To T s0 s) :
    To T s0 (mr4St c code s) := by
  unfold mr4St
  try dsimp -proj only
  repeat' (first | (with_reducible first | assumption | refine To.ite ?_ ?_ | refine modReg_to ?_ ?_ | refine setEvt_to ?_ ?_) | exact To.sub hT (by decide) | refine To.fst (by assumption) ?_ | refine To.snd (by assumption) ?_ | split | dsimp -proj only | (intro _; intros))

theorem dramScrubSt_to {s : State} {u : Option Upset} (hT : T ||| 1188978 = T) (hS : To T s0 s) :
    To T s0 (dramScrubSt u s) := by
  unfold dramScrubSt
  try dsimp -proj only
  repeat' (first | (with_reducible first | assumption | refine To.ite ?_ ?_ | refine applyUpset_to ?_ ?_ | refine incCnt_to ?_ ?_ | refine countCe_to ?_ ?_ | refine captureErr_to ?_ ?_ | refine setMark_to ?_ ?_ | refine setPair_to ?_ ?_ | refine setEvt_to ?_ ?_ | refine modMemc_to ?_ ?_) | exact To.sub hT (by decide) | refine To.fst (by assumption) ?_ | refine To.snd (by assumption) ?_ | split | dsimp -proj only | (intro _; intros))

theorem pageIdleSt_to {s : State} {b : Nat} (hT : T ||| 131072 = T) (hS : To T s0 s) :
    To T s0 (pageIdleSt b s) := by
  unfold pageIdleSt
  try dsimp -proj only
  repeat' (first | (with_reducible first | assumption | refine To.ite ?_ ?_ | refine closeRows_to ?_ ?_) | exact To.sub hT (by decide) | refine To.fst (by assumption) ?_ | refine To.snd (by assumption) ?_ | split | dsimp -proj only | (intro _; intros))

theorem selfRefreshLost_to {s : State} {fc : Bool} (hT : T ||| 1179746 = T) (hS : To T s0 s) :
    To T s0 (selfRefreshLost fc s) := by
  unfold selfRefreshLost
  repeat' (first | (with_reducible first | assumption | refine To.ite ?_ ?_ | refine dramBegin_to ?_ ?_) | exact To.sub hT (by decide) | refine To.fst (by assumption) ?_ | refine To.snd (by assumption) ?_ | split)

theorem dramDrop_to {s : State} (hT : T ||| 1245282 = T) (hS : To T s0 s) :
    To T s0 (dramDrop s) := by
  unfold dramDrop
  try dsimp -proj only
  repeat' (first | (with_reducible first | assumption | refine To.ite ?_ ?_ | refine failFire_to ?_ ?_ | refine selfRefreshLost_to ?_ ?_ | refine modMemc_to ?_ ?_ | refine To.foldl _ (fun _ _ _ => ?_) ?_ | refine To.foldl_fst _ (fun _ _ _ => ?_) ?_) | exact To.sub hT (by decide) | refine To.fst (by assumption) ?_ | refine To.snd (by assumption) ?_ | split | dsimp -proj only | (intro _; intros))

theorem execArrayScrub_to {s : State} {p : Fin 512} {arr : BitVec 8} {w : Fin 16384} {u : Option Upset} (hT : T ||| 1188978 = T) (hS : To T s0 s) :
    Out T s0 (execArrayScrub p arr w u s) := by
  unfold execArrayScrub
  repeat' (first | (with_reducible first | assumption | refine To.ite ?_ ?_ | refine whileRuns_to ?_ ?_ ?_ | refine arrayScrubSt_to ?_ ?_ | refine Out.next ?_) | exact To.sub hT (by decide) | refine To.fst (by assumption) ?_ | refine To.snd (by assumption) ?_ | split | (intro _; intros))

theorem execRepair_to {s : State} {a : Acc} {v : Word} (hT : T ||| 1179666 = T) (hS : To T s0 s) :
    Out T s0 (execRepair a v s) := by
  unfold execRepair
  repeat' (first | (with_reducible first | assumption | refine To.ite ?_ ?_ | refine onPage_to ?_ ?_ ?_ | refine repairSt_to ?_ ?_ | refine Out.next ?_) | exact To.sub hT (by decide) | refine To.fst (by assumption) ?_ | refine To.snd (by assumption) ?_ | split | (intro _; intros))

theorem execRrDone_to {s : State} (hT : T ||| 139346 = T) (hS : To T s0 s) :
    Out T s0 (execRrDone s) := by
  unfold execRrDone
  repeat' (first | (with_reducible first | assumption | refine To.ite ?_ ?_ | refine whileRuns_to ?_ ?_ ?_ | refine rrDoneSt_to ?_ ?_ | refine Out.next ?_) | exact To.sub hT (by decide) | refine To.fst (by assumption) ?_ | refine To.snd (by assumption) ?_ | split | (intro _; intros))

theorem execBankPwrWrite_to {s : State} {a : Acc} {h : Fin 2} {hi : Bool} {v : Word} (hT : T ||| 1048698 = T) (hS : To T s0 s) :
    Out T s0 (execBankPwrWrite a h hi v s) := by
  unfold execBankPwrWrite
  repeat' (first | (with_reducible first | assumption | refine To.ite ?_ ?_ | refine onPage_to ?_ ?_ ?_ | refine bankPwrSt_to ?_ ?_ | refine Out.next ?_) | exact To.sub hT (by decide) | refine To.fst (by assumption) ?_ | refine To.snd (by assumption) ?_ | split | (intro _; intros))

theorem execDramEnable_to {s : State} {a : Acc} (hT : T ||| 1179762 = T) (hS : To T s0 s) :
    Out T s0 (execDramEnable a s) := by
  unfold execDramEnable
  repeat' (first | (with_reducible first | assumption | refine To.ite ?_ ?_ | refine onPage_to ?_ ?_ ?_ | refine dramEnableSt_to ?_ ?_ | refine Out.next ?_) | exact To.sub hT (by decide) | refine To.fst (by assumption) ?_ | refine To.snd (by assumption) ?_ | split | (intro _; intros))

theorem execDramInitDone_to {s : State} {failed : Option (Fin 16 × BitVec 4)} (hT : T ||| 1179650 = T) (hS : To T s0 s) :
    Out T s0 (execDramInitDone failed s) := by
  unfold execDramInitDone
  repeat' (first | (with_reducible first | assumption | refine To.ite ?_ ?_ | refine whileRuns_to ?_ ?_ ?_ | refine dramInitDoneSt_to ?_ ?_ | refine Out.next ?_) | exact To.sub hT (by decide) | refine To.fst (by assumption) ?_ | refine To.snd (by assumption) ?_ | split | (intro _; intros))

theorem execFreqChange_to {s : State} {f : FireRec} (hT : T ||| 200706 = T) (hS : To T s0 s) :
    Out T s0 (execFreqChange f s) := by
  unfold execFreqChange
  repeat' (first | (with_reducible first | assumption | refine To.ite ?_ ?_ | refine freqChangeSt_to ?_ ?_ | refine Out.next ?_) | exact To.sub hT (by decide) | refine To.fst (by assumption) ?_ | refine To.snd (by assumption) ?_ | split)

theorem execFcGo_to {s : State} {a : Acc} {v : Word} (hT : T ||| 1179666 = T) (hS : To T s0 s) :
    Out T s0 (execFcGo a v s) := by
  unfold execFcGo
  repeat' (first | (with_reducible first | assumption | refine To.ite ?_ ?_ | refine onPage_to ?_ ?_ ?_ | refine fcGoSt_to ?_ ?_ | refine Out.next ?_) | exact To.sub hT (by decide) | refine To.fst (by assumption) ?_ | refine To.snd (by assumption) ?_ | split | (intro _; intros))

theorem execFcDone_to {s : State} {ns : Nat} (hT : T ||| 196626 = T) (hS : To T s0 s) :
    Out T s0 (execFcDone ns s) := by
  unfold execFcDone
  repeat' (first | (with_reducible first | assumption | refine To.ite ?_ ?_ | refine whileRuns_to ?_ ?_ ?_ | refine fcDoneSt_to ?_ ?_ | refine Out.next ?_) | exact To.sub hT (by decide) | refine To.fst (by assumption) ?_ | refine To.snd (by assumption) ?_ | split | (intro _; intros))

theorem execFcFail_to {s : State} {ns : Nat} (hT : T ||| 1245202 = T) (hS : To T s0 s) :
    Out T s0 (execFcFail ns s) := by
  unfold execFcFail
  repeat' (first | (with_reducible first | assumption | refine To.ite ?_ ?_ | refine whileRuns_to ?_ ?_ ?_ | refine fcFailSt_to ?_ ?_ | refine Out.next ?_) | exact To.sub hT (by decide) | refine To.fst (by assumption) ?_ | refine To.snd (by assumption) ?_ | split | (intro _; intros))

theorem execDramRefresh_to {s : State} {ch : Fin 16} {traffic : Bool} (hT : T ||| 132112 = T) (hS : To T s0 s) :
    Out T s0 (execDramRefresh ch traffic s) := by
  unfold execDramRefresh
  repeat' (first | (with_reducible first | assumption | refine To.ite ?_ ?_ | refine dramRefreshSt_to ?_ ?_ | refine Out.next ?_) | exact To.sub hT (by decide) | refine To.fst (by assumption) ?_ | refine To.snd (by assumption) ?_ | split)

theorem execMr4Poll_to {s : State} {ch : Fin 16} {code : BitVec 8} (hT : T ||| 2 = T) (hS : To T s0 s) :
    Out T s0 (execMr4Poll ch code s) := by
  unfold execMr4Poll
  repeat' (first | (with_reducible first | assumption | refine To.ite ?_ ?_ | refine mr4St_to ?_ ?_ | refine Out.next ?_) | exact To.sub hT (by decide) | refine To.fst (by assumption) ?_ | refine To.snd (by assumption) ?_ | split)

theorem execDramScrub_to {s : State} {u : Option Upset} (hT : T ||| 1188978 = T) (hS : To T s0 s) :
    Out T s0 (execDramScrub u s) := by
  unfold execDramScrub
  repeat' (first | (with_reducible first | assumption | refine To.ite ?_ ?_ | refine dramScrubSt_to ?_ ?_ | refine Out.next ?_) | exact To.sub hT (by decide) | refine To.fst (by assumption) ?_ | refine To.snd (by assumption) ?_ | split)

theorem execPageIdleClose_to {s : State} {b : Fin 512} (hT : T ||| 131072 = T) (hS : To T s0 s) :
    Out T s0 (execPageIdleClose b s) := by
  unfold execPageIdleClose
  repeat' (first | (with_reducible first | assumption | refine To.ite ?_ ?_ | refine whileRuns_to ?_ ?_ ?_ | refine pageIdleSt_to ?_ ?_ | refine Out.next ?_) | exact To.sub hT (by decide) | refine To.fst (by assumption) ?_ | refine To.snd (by assumption) ?_ | split | (intro _; intros))

end Sys2Proof.Machine
end

