-- ==== Sys2Proof/Laws/ToMxc.lean ====
section
/-! SUPPORT. The frames of the operations and meanings of Mxc: what each may change. -/

namespace Sys2Proof.Machine

variable {T : Nat} {s0 : State}

theorem setMxc_to {s : State} {m : Nat} {x : MxcSt} (hT : T ||| 4294967296 = T) (hS : To T s0 s) :
    To T s0 (setMxc s m x) := by
  unfold setMxc
  repeat' (first | (with_reducible first | assumption | refine To.ite ?_ ?_) | exact To.sub hT (by decide) | refine To.fst (by assumption) ?_ | refine To.snd (by assumption) ?_ | split | with_reducible first | refine To.set_mxc ?_ ?_)

theorem modMxc_to {s : State} {m : Nat} {f : MxcSt → MxcSt} (hT : T ||| 4294967296 = T) (hS : To T s0 s) :
    To T s0 (modMxc s m f) := by
  unfold modMxc
  repeat' (first | (with_reducible first | assumption | refine To.ite ?_ ?_ | refine setMxc_to ?_ ?_) | exact To.sub hT (by decide) | refine To.fst (by assumption) ?_ | refine To.snd (by assumption) ?_ | split)

theorem modCtx_to {s : State} {m : Nat} {k : Nat} {f : MxCtx → MxCtx} (hT : T ||| 8589934592 = T) (hS : To T s0 s) :
    To T s0 (modCtx s m k f) := by
  unfold modCtx
  repeat' (first | (with_reducible first | assumption | refine To.ite ?_ ?_) | exact To.sub hT (by decide) | refine To.fst (by assumption) ?_ | refine To.snd (by assumption) ?_ | split | with_reducible first | refine To.set_mxCtx ?_ ?_)

theorem mxRead_to {s : State} {p : Nat} {a : Nat} {n : Nat} (hT : T ||| 1187922 = T) (hS : To T s0 s) :
    To T s0 (mxRead s p a n).1 := by
  unfold mxRead
  repeat' (first | (with_reducible first | assumption | refine To.ite ?_ ?_ | refine memRead_to ?_ ?_) | exact To.sub hT (by decide) | refine To.fst (by assumption) ?_ | refine To.snd (by assumption) ?_ | split)

theorem mxOperands_to {s : State} {p : Nat} {h : Shape} {ws : List Word} {b : Nat} (hT : T ||| 1187922 = T) (hS : To T s0 s) :
    To T s0 (mxOperands s p h ws b).1 := by
  unfold mxOperands
  try dsimp -proj only
  repeat' (first | (with_reducible first | assumption | refine To.ite ?_ ?_ | refine mxRead_to ?_ ?_) | exact To.sub hT (by decide) | refine To.fst (by assumption) ?_ | refine To.snd (by assumption) ?_ | split | dsimp -proj only)

theorem mxElement_to {s : State} {p : Nat} {h : Shape} {ws : List Word} {b : Nat} {wk : MxWork} (hT : T ||| 1253618 = T) (hS : To T s0 s) :
    To T s0 (mxElement s p h ws b wk).1 := by
  unfold mxElement
  try dsimp -proj only
  repeat' (first | (with_reducible first | assumption | refine To.ite ?_ ?_ | refine mxOperands_to ?_ ?_ | refine memWrite_to ?_ ?_ | refine To.foldl _ (fun _ _ _ => ?_) ?_ | refine To.foldl_fst _ (fun _ _ _ => ?_) ?_) | exact To.sub hT (by decide) | refine To.fst (by assumption) ?_ | refine To.snd (by assumption) ?_ | split | dsimp -proj only)

theorem mxElements_to {y4 : State} {p : Nat} {h : Shape} {ws : List Word} {y3 : List Nat} {y5 : MxWork} (hT : T ||| 1253618 = T) (hS : To T s0 y4) :
    To T s0 (mxElements p h ws y3 y4 y5).1 := by
  induction y3 generalizing y4 y5 with
  | nil => exact hS
  | cons _ _ ih =>
    unfold mxElements
    repeat' (first | (with_reducible first | assumption | refine To.ite ?_ ?_ | refine mxElement_to ?_ ?_ | refine ih ?_) | exact To.sub hT (by decide) | refine To.fst (by assumption) ?_ | refine To.snd (by assumption) ?_ | split)

theorem mxWriteBack_to {s : State} {p : Nat} {d : Nat} {e : MxEnd} (hT : T ||| 1253618 = T) (hS : To T s0 s) :
    To T s0 (mxWriteBack s p d e) := by
  unfold mxWriteBack
  try dsimp -proj only
  repeat' (first | (with_reducible first | assumption | refine To.ite ?_ ?_ | refine memPut_to ?_ ?_ | refine closeDesc_to ?_ ?_) | exact To.sub hT (by decide) | refine To.fst (by assumption) ?_ | refine To.snd (by assumption) ?_ | split | dsimp -proj only)

theorem mxCount_to {s : State} {p : Nat} {e : MxEnd} (hT : T ||| 18 = T) (hS : To T s0 s) :
    To T s0 (mxCount s p e) := by
  unfold mxCount
  try dsimp -proj only
  repeat' (first | (with_reducible first | assumption | refine To.ite ?_ ?_ | refine setEvt_to ?_ ?_ | refine addCnt_to ?_ ?_ | refine incCnt_to ?_ ?_) | exact To.sub hT (by decide) | refine To.fst (by assumption) ?_ | refine To.snd (by assumption) ?_ | split | dsimp -proj only)

theorem mxFinish_to {s : State} {m : Nat} {op : MxOp} {ws : List Word} {e : MxEnd} (hT : T ||| 12886155506 = T) (hS : To T s0 s) :
    To T s0 (mxFinish m op ws e s) := by
  unfold mxFinish
  try dsimp -proj only
  repeat' (first | (with_reducible first | assumption | refine To.ite ?_ ?_ | refine mxCount_to ?_ ?_ | refine mxWriteBack_to ?_ ?_ | refine modMxc_to ?_ ?_ | refine modCtx_to ?_ ?_ | refine sendTok_to ?_ ?_ | refine setEvt_to ?_ ?_ | refine incCnt_to ?_ ?_ | refine complete_to ?_ ?_ | refine failFire_to ?_ ?_) | exact To.sub hT (by decide) | refine To.fst (by assumption) ?_ | refine To.snd (by assumption) ?_ | split | dsimp -proj only | (intro _; intros))

theorem mxDesc_to {s : State} {p : Nat} {d : Nat} (hT : T ||| 1187922 = T) (hS : To T s0 s) :
    To T s0 (mxDesc s p d).1 := by
  unfold mxDesc
  repeat' (first | (with_reducible first | assumption | refine To.ite ?_ ?_ | refine mxRead_to ?_ ?_) | exact To.sub hT (by decide) | refine To.fst (by assumption) ?_ | refine To.snd (by assumption) ?_ | split)

theorem mxFail_to {s : State} {m : Nat} {op : MxOp} {ws : List Word} {e : MxErr} {wk : MxWork} (hT : T ||| 12886155506 = T) (hS : To T s0 s) :
    To T s0 (mxFail m op ws e wk s) := by
  unfold mxFail
  repeat' (first | (with_reducible first | assumption | refine To.ite ?_ ?_ | refine mxFinish_to ?_ ?_ | refine ownErr_to ?_ ?_) | exact To.sub hT (by decide) | refine To.fst (by assumption) ?_ | refine To.snd (by assumption) ?_ | split)

theorem cancelCount_to {s : State} {count : Nat} (hT : T ||| 1024 = T) (hS : To T s0 s) :
    To T s0 (cancelCount s count).2 := by
  unfold cancelCount
  try dsimp -proj only
  repeat' (first | (with_reducible first | assumption | refine To.ite ?_ ?_ | refine takeFree_to ?_ ?_) | exact To.sub hT (by decide) | refine To.fst (by assumption) ?_ | refine To.snd (by assumption) ?_ | split | dsimp -proj only)

theorem mxRun_to {s : State} {m : Nat} {op : MxOp} {parity : Bool} (hT : T ||| 12886156530 = T) (hS : To T s0 s) :
    To T s0 (mxRun m op parity s) := by
  unfold mxRun
  try dsimp -proj only
  repeat' (first | (with_reducible first | assumption | refine To.ite ?_ ?_ | refine mxDesc_to ?_ ?_ | refine mxFail_to ?_ ?_ | refine modMxc_to ?_ ?_ | refine mxFinish_to ?_ ?_ | refine cancelCount_to ?_ ?_ | refine mxElements_to ?_ ?_) | exact To.sub hT (by decide) | refine To.fst (by assumption) ?_ | refine To.snd (by assumption) ?_ | split | dsimp -proj only | (intro _; intros))

theorem mxCancelled_to {s : State} {m : Nat} {op : MxOp} (hT : T ||| 12886155506 = T) (hS : To T s0 s) :
    To T s0 (mxCancelled m op s) := by
  unfold mxCancelled
  repeat' (first | (with_reducible first | assumption | refine To.ite ?_ ?_ | refine mxDesc_to ?_ ?_ | refine mxFinish_to ?_ ?_) | exact To.sub hT (by decide) | refine To.fst (by assumption) ?_ | refine To.snd (by assumption) ?_ | split)

theorem mxRefuse_to {s : State} {m : Nat} {k : Nat} {cause : Nat} (hT : T ||| 8589934608 = T) (hS : To T s0 s) :
    To T s0 (mxRefuse s m k cause) := by
  unfold mxRefuse
  try dsimp -proj only
  repeat' (first | (with_reducible first | assumption | refine To.ite ?_ ?_ | refine incCnt_to ?_ ?_ | refine modCtx_to ?_ ?_) | exact To.sub hT (by decide) | refine To.fst (by assumption) ?_ | refine To.snd (by assumption) ?_ | split | dsimp -proj only | (intro _; intros))

theorem mxRetry_to {s : State} {m : Nat} (hT : T ||| 4294967296 = T) (hS : To T s0 s) :
    To T s0 (mxRetry m s) := by
  unfold mxRetry
  try dsimp -proj only
  repeat' (first | (with_reducible first | assumption | refine To.ite ?_ ?_ | refine modMxc_to ?_ ?_) | exact To.sub hT (by decide) | refine To.fst (by assumption) ?_ | refine To.snd (by assumption) ?_ | split | dsimp -proj only | (intro _; intros))

theorem mxAccept_to {s : State} {m : Nat} {k : Nat} {sb : Nat} {desc : Nat} {w0 : Word} {w1 : Word} {fate : MxFate} (hT : T ||| 12884901904 = T) (hS : To T s0 s) :
    To T s0 (mxAccept s m k sb desc w0 w1 fate) := by
  unfold mxAccept
  try dsimp -proj only
  repeat' (first | (with_reducible first | assumption | refine To.ite ?_ ?_ | refine mxRetry_to ?_ ?_ | refine modCtx_to ?_ ?_ | refine modMxc_to ?_ ?_ | refine incCnt_to ?_ ?_) | exact To.sub hT (by decide) | refine To.fst (by assumption) ?_ | refine To.snd (by assumption) ?_ | split | dsimp -proj only | (intro _; intros))

theorem mxCancel_to {s : State} {m : Nat} {k : Nat} {mask : Nat} (hT : T ||| 12886155506 = T) (hS : To T s0 s) :
    To T s0 (mxCancel m k mask s) := by
  unfold mxCancel
  try dsimp -proj only
  repeat' (first | (with_reducible first | assumption | refine To.ite ?_ ?_ | refine modMxc_to ?_ ?_ | refine mxCancelled_to ?_ ?_ | refine To.foldl _ (fun _ _ _ => ?_) ?_ | refine To.foldl_fst _ (fun _ _ _ => ?_) ?_) | exact To.sub hT (by decide) | refine To.fst (by assumption) ?_ | refine To.snd (by assumption) ?_ | split | dsimp -proj only | (intro _; intros))

theorem bundleCommitSt_to {s : State} {m : Nat} {k : Nat} (hT : T ||| 4294967296 = T) (hS : To T s0 s) :
    To T s0 (bundleCommitSt m k s) := by
  unfold bundleCommitSt
  try dsimp -proj only
  repeat' (first | (with_reducible first | assumption | refine To.ite ?_ ?_ | refine modMxc_to ?_ ?_) | exact To.sub hT (by decide) | refine To.fst (by assumption) ?_ | refine To.snd (by assumption) ?_ | split | dsimp -proj only | (intro _; intros))

theorem mxPeek_to {s : State} {m : Nat} {o : MxOp} (hT : T ||| 1187922 = T) (hS : To T s0 s) :
    To T s0 (mxPeek m o s) := by
  unfold mxPeek
  try dsimp -proj only
  repeat' (first | (with_reducible first | assumption | refine To.ite ?_ ?_ | refine ownErr_to ?_ ?_ | refine mxDesc_to ?_ ?_ | refine mxOperands_to ?_ ?_) | exact To.sub hT (by decide) | refine To.fst (by assumption) ?_ | refine To.snd (by assumption) ?_ | split | dsimp -proj only)

theorem bundleSquashSt_to {s : State} {m : Nat} {k : Nat} (hT : T ||| 12886089810 = T) (hS : To T s0 s) :
    To T s0 (bundleSquashSt m k s) := by
  unfold bundleSquashSt
  try dsimp -proj only
  repeat' (first | (with_reducible first | assumption | refine To.ite ?_ ?_ | refine mxPeek_to ?_ ?_ | refine modMxc_to ?_ ?_ | refine modCtx_to ?_ ?_ | refine incCnt_to ?_ ?_ | refine To.foldl _ (fun _ _ _ => ?_) ?_ | refine To.foldl_fst _ (fun _ _ _ => ?_) ?_) | exact To.sub hT (by decide) | refine To.fst (by assumption) ?_ | refine To.snd (by assumption) ?_ | split | dsimp -proj only | (intro _; intros))

theorem subtileSt_to {s : State} {m : Nat} (hT : T ||| 4294967296 = T) (hS : To T s0 s) :
    To T s0 (subtileSt m s) := by
  unfold subtileSt
  try dsimp -proj only
  repeat' (first | (with_reducible first | assumption | refine To.ite ?_ ?_ | refine setMxc_to ?_ ?_) | exact To.sub hT (by decide) | refine To.fst (by assumption) ?_ | refine To.snd (by assumption) ?_ | split | dsimp -proj only | (intro _; intros))

theorem mxcDoneSt_to {s : State} {m : Nat} {parity : Bool} (hT : T ||| 12886156530 = T) (hS : To T s0 s) :
    To T s0 (mxcDoneSt m parity s) := by
  unfold mxcDoneSt
  try dsimp -proj only
  repeat' (first | (with_reducible first | assumption | refine To.ite ?_ ?_ | refine mxRun_to ?_ ?_ | refine setMxc_to ?_ ?_) | exact To.sub hT (by decide) | refine To.fst (by assumption) ?_ | refine To.snd (by assumption) ?_ | split | dsimp -proj only)

theorem mxExport_to {s : State} {m : Nat} {op : MxOp} (hT : T ||| 12886155506 = T) (hS : To T s0 s) :
    To T s0 (mxExport m op s) := by
  unfold mxExport
  try dsimp -proj only
  repeat' (first | (with_reducible first | assumption | refine To.ite ?_ ?_ | refine mxDesc_to ?_ ?_ | refine mxFail_to ?_ ?_ | refine ownErr_to ?_ ?_ | refine modMxc_to ?_ ?_ | refine setEvt_to ?_ ?_ | refine mxFinish_to ?_ ?_ | refine incCnt_to ?_ ?_ | refine Ring.push_to ?_ ?_) | exact To.sub hT (by decide) | refine To.fst (by assumption) ?_ | refine To.snd (by assumption) ?_ | split | dsimp -proj only | (intro _; intros))

theorem mxDrain_to {s : State} {m : Nat} (hT : T ||| 12886155506 = T) (hS : To T s0 s) :
    To T s0 (mxDrain m s) := by
  unfold mxDrain
  try dsimp -proj only
  repeat' (first | (with_reducible first | assumption | refine To.ite ?_ ?_ | refine modMxc_to ?_ ?_ | refine mxExport_to ?_ ?_ | refine To.foldl _ (fun _ _ _ => ?_) ?_ | refine To.foldl_fst _ (fun _ _ _ => ?_) ?_) | exact To.sub hT (by decide) | refine To.fst (by assumption) ?_ | refine To.snd (by assumption) ?_ | split | dsimp -proj only | (intro _; intros))

theorem mxFireStart_to {s : State} {m : Nat} {f : FireRec} (hT : T ||| 17605072199922 = T) (hS : To T s0 s) :
    To T s0 (mxFireStart m f s) := by
  unfold mxFireStart
  try dsimp -proj only
  repeat' (first | (with_reducible first | assumption | refine To.ite ?_ ?_ | refine mxDesc_to ?_ ?_ | refine mxFail_to ?_ ?_ | refine holdUnowned_to ?_ ?_ | refine mxFinish_to ?_ ?_ | refine ownErr_to ?_ ?_ | refine modMxc_to ?_ ?_ | refine mxRetry_to ?_ ?_ | refine mxExport_to ?_ ?_) | exact To.sub hT (by decide) | refine To.fst (by assumption) ?_ | refine To.snd (by assumption) ?_ | split | dsimp -proj only | (intro _; intros))

theorem ctxCancelSt_to {s : State} {m : Nat} {v : Word} (hT : T ||| 12886155506 = T) (hS : To T s0 s) :
    To T s0 (ctxCancelSt m v s) := by
  unfold ctxCancelSt
  repeat' (first | (with_reducible first | assumption | refine To.ite ?_ ?_ | refine mxCancel_to ?_ ?_) | exact To.sub hT (by decide) | refine To.fst (by assumption) ?_ | refine To.snd (by assumption) ?_ | split)

theorem mxDrop_to {s : State} {m : Nat} (hT : T ||| 17605072199922 = T) (hS : To T s0 s) :
    To T s0 (mxDrop m s) := by
  unfold mxDrop
  try dsimp -proj only
  repeat' (first | (with_reducible first | assumption | refine To.ite ?_ ?_ | refine mxDesc_to ?_ ?_ | refine mxFinish_to ?_ ?_ | refine mxCancelled_to ?_ ?_ | refine failFire_to ?_ ?_ | refine setMxc_to ?_ ?_ | refine To.foldl _ (fun _ _ _ => ?_) ?_ | refine To.foldl_fst _ (fun _ _ _ => ?_) ?_) | exact To.sub hT (by decide) | refine To.fst (by assumption) ?_ | refine To.snd (by assumption) ?_ | split | (with_reducible first | refine To.set_unowned ?_ ?_) | dsimp -proj only | (intro _; intros))

theorem mxOff_to {s : State} {m : Nat} (hT : T ||| 12884967424 = T) (hS : To T s0 s) :
    To T s0 (mxOff m s) := by
  unfold mxOff
  try dsimp -proj only
  repeat' (first | (with_reducible first | assumption | refine To.ite ?_ ?_ | refine failFire_to ?_ ?_ | refine modCtx_to ?_ ?_ | refine setMxc_to ?_ ?_ | refine To.foldl _ (fun _ _ _ => ?_) ?_ | refine To.foldl_fst _ (fun _ _ _ => ?_) ?_) | exact To.sub hT (by decide) | refine To.fst (by assumption) ?_ | refine To.snd (by assumption) ?_ | split | dsimp -proj only | (intro _; intros))

theorem execBundleCommit_to {s : State} {m : Fin 16} {k : Fin 8} (hT : T ||| 4294967296 = T) (hS : To T s0 s) :
    Out T s0 (execBundleCommit m k s) := by
  unfold execBundleCommit
  repeat' (first | (with_reducible first | assumption | refine To.ite ?_ ?_ | refine whileRuns_to ?_ ?_ ?_ | refine bundleCommitSt_to ?_ ?_ | refine Out.next ?_) | exact To.sub hT (by decide) | refine To.fst (by assumption) ?_ | refine To.snd (by assumption) ?_ | split | (intro _; intros))

theorem execBundleSquash_to {s : State} {m : Fin 16} {k : Fin 8} (hT : T ||| 12886089810 = T) (hS : To T s0 s) :
    Out T s0 (execBundleSquash m k s) := by
  unfold execBundleSquash
  repeat' (first | (with_reducible first | assumption | refine To.ite ?_ ?_ | refine whileRuns_to ?_ ?_ ?_ | refine bundleSquashSt_to ?_ ?_ | refine Out.next ?_) | exact To.sub hT (by decide) | refine To.fst (by assumption) ?_ | refine To.snd (by assumption) ?_ | split | (intro _; intros))

theorem execSubtileBoundary_to {s : State} {m : Fin 16} (hT : T ||| 4294967296 = T) (hS : To T s0 s) :
    Out T s0 (execSubtileBoundary m s) := by
  unfold execSubtileBoundary
  repeat' (first | (with_reducible first | assumption | refine To.ite ?_ ?_ | refine whileRuns_to ?_ ?_ ?_ | refine subtileSt_to ?_ ?_ | refine Out.next ?_) | exact To.sub hT (by decide) | refine To.fst (by assumption) ?_ | refine To.snd (by assumption) ?_ | split | (intro _; intros))

theorem execMxcOpDone_to {s : State} {m : Fin 16} {parity : Bool} (hT : T ||| 12886156530 = T) (hS : To T s0 s) :
    Out T s0 (execMxcOpDone m parity s) := by
  unfold execMxcOpDone
  try dsimp -proj only
  repeat' (first | (with_reducible first | assumption | refine To.ite ?_ ?_ | refine whileRuns_to ?_ ?_ ?_ | refine dramHold_to ?_ ?_ | refine mxcDoneSt_to ?_ ?_ | refine Out.next ?_) | exact To.sub hT (by decide) | refine To.fst (by assumption) ?_ | refine To.snd (by assumption) ?_ | split | dsimp -proj only | (intro _; intros))

theorem execMxcFire_to {s : State} {f : FireRec} (hT : T ||| 17605072204018 = T) (hS : To T s0 s) :
    Out T s0 (execMxcFire f s) := by
  unfold execMxcFire
  repeat' (first | (with_reducible first | assumption | refine To.ite ?_ ?_ | refine fireRow_to ?_ ?_ ?_ | refine mxFireStart_to ?_ ?_ | refine Out.next ?_) | exact To.sub hT (by decide) | refine To.fst (by assumption) ?_ | refine To.snd (by assumption) ?_ | split | (intro _; intros))

theorem execCtxCancel_to {s : State} {a : Acc} {m : Fin 16} {v : Word} (hT : T ||| 12886155506 = T) (hS : To T s0 s) :
    Out T s0 (execCtxCancel a m v s) := by
  unfold execCtxCancel
  repeat' (first | (with_reducible first | assumption | refine To.ite ?_ ?_ | refine onPage_to ?_ ?_ ?_ | refine ctxCancelSt_to ?_ ?_ | refine Out.next ?_) | exact To.sub hT (by decide) | refine To.fst (by assumption) ?_ | refine To.snd (by assumption) ?_ | split | (intro _; intros))

end Sys2Proof.Machine
end

