-- ==== Sys2Proof/Laws/ToNet.lean ====
section
/-! SUPPORT. The frames of the operations and meanings of Net: what each may change. -/

namespace Sys2Proof.Machine

variable {T : Nat} {s0 : State}

theorem modPkt_to {s : State} {f : PktSt → PktSt} (hT : T ||| 274877906944 = T) (hS : To T s0 s) :
    To T s0 (modPkt s f) := by
  unfold modPkt
  repeat' (first | (with_reducible first | assumption | refine To.ite ?_ ?_) | exact To.sub hT (by decide) | refine To.fst (by assumption) ?_ | refine To.snd (by assumption) ?_ | split | with_reducible first | refine To.set_pkt ?_ ?_)

theorem rxDeliver_to {s : State} {r : Nat} {port : Nat} {flow : Nat} {ptp : Bool} {b : List Byte} (hT : T ||| 1374390789362 = T) (hS : To T s0 s) :
    To T s0 (rxDeliver r port flow ptp b s) := by
  unfold rxDeliver
  try dsimp -proj only
  repeat' (first | (with_reducible first | assumption | refine To.ite ?_ ?_ | refine ptpStamp_to ?_ ?_ | refine setEvt_to ?_ ?_ | refine d2hSend_to ?_ ?_ | refine incCnt_to ?_ ?_ | refine memPut_to ?_ ?_ | refine setReg_to ?_ ?_ | refine modPkt_to ?_ ?_) | exact To.sub hT (by decide) | refine To.fst (by assumption) ?_ | refine To.snd (by assumption) ?_ | split | dsimp -proj only | (intro _; intros))

theorem fhCtx_to {s : State} {f : Nat} (hT : T ||| 1187922 = T) (hS : To T s0 s) :
    To T s0 (fhCtx f s).1 := by
  unfold fhCtx
  try dsimp -proj only
  repeat' (first | (with_reducible first | assumption | refine To.ite ?_ ?_ | refine memRead_to ?_ ?_ | refine captureErr_to ?_ ?_) | exact To.sub hT (by decide) | refine To.fst (by assumption) ?_ | refine To.snd (by assumption) ?_ | split | dsimp -proj only)

theorem uSection_to {s : State} {f : Nat} {ws : List Word} {n : Nat} {i : Nat} {x : OranSection} (hT : T ||| 274879160562 = T) (hS : To T s0 s) :
    To T s0 (uSection f ws n i x s) := by
  unfold uSection
  try dsimp -proj only
  repeat' (first | (with_reducible first | assumption | refine To.ite ?_ ?_ | refine memPut_to ?_ ?_ | refine incCnt_to ?_ ?_ | refine modPkt_to ?_ ?_ | refine To.foldl _ (fun _ _ _ => ?_) ?_ | refine To.foldl_fst _ (fun _ _ _ => ?_) ?_) | exact To.sub hT (by decide) | refine To.fst (by assumption) ?_ | refine To.snd (by assumption) ?_ | split | dsimp -proj only | (intro _; intros))

theorem unsupported_to {s : State} (hT : T ||| 18 = T) (hS : To T s0 s) :
    To T s0 (unsupported s) := by
  unfold unsupported
  repeat' (first | (with_reducible first | assumption | refine To.ite ?_ ?_ | refine setEvt_to ?_ ?_ | refine incCnt_to ?_ ?_) | exact To.sub hT (by decide) | refine To.fst (by assumption) ?_ | refine To.snd (by assumption) ?_ | split)

theorem fhMissed_to {s : State} {o : Ordering} (hT : T ||| 18 = T) (hS : To T s0 s) :
    To T s0 (fhMissed o s) := by
  unfold fhMissed
  repeat' (first | (with_reducible first | assumption | refine To.ite ?_ ?_ | refine setEvt_to ?_ ?_ | refine incCnt_to ?_ ?_) | exact To.sub hT (by decide) | refine To.fst (by assumption) ?_ | refine To.snd (by assumption) ?_ | split)

theorem uPlane_to {s : State} {c : List Word} {id : BitVec 16} {m : OranMsg} (hT : T ||| 274879160562 = T) (hS : To T s0 s) :
    To T s0 (uPlane c id m s) := by
  unfold uPlane
  try dsimp -proj only
  repeat' (first | (with_reducible first | assumption | refine To.ite ?_ ?_ | refine unsupported_to ?_ ?_ | refine fhCtx_to ?_ ?_ | refine uSection_to ?_ ?_ | refine fhMissed_to ?_ ?_ | refine To.foldl _ (fun _ _ _ => ?_) ?_ | refine To.foldl_fst _ (fun _ _ _ => ?_) ?_) | exact To.sub hT (by decide) | refine To.fst (by assumption) ?_ | refine To.snd (by assumption) ?_ | split | dsimp -proj only | (intro _; intros))

theorem sectionWeights_to {s : State} {ws : List Word} {x : OranSection} (hT : T ||| 1187922 = T) (hS : To T s0 s) :
    To T s0 (sectionWeights ws x s).1 := by
  unfold sectionWeights
  try dsimp -proj only
  repeat' (first | (with_reducible first | assumption | refine To.ite ?_ ?_ | refine memGet_to ?_ ?_ | refine To.foldl _ (fun _ _ _ => ?_) ?_ | refine To.foldl_fst _ (fun _ _ _ => ?_) ?_) | exact To.sub hT (by decide) | refine To.fst (by assumption) ?_ | refine To.snd (by assumption) ?_ | split | dsimp -proj only | (intro _; intros))

theorem cSection_to {s : State} {ws : List Word} {dir : Nat} {i : Nat} {x : OranSection} (hT : T ||| 1253618 = T) (hS : To T s0 s) :
    To T s0 (cSection ws dir i x s) := by
  unfold cSection
  try dsimp -proj only
  repeat' (first | (with_reducible first | assumption | refine To.ite ?_ ?_ | refine unsupported_to ?_ ?_ | refine sectionWeights_to ?_ ?_ | refine memPut_to ?_ ?_ | refine To.foldl _ (fun _ _ _ => ?_) ?_ | refine To.foldl_fst _ (fun _ _ _ => ?_) ?_) | exact To.sub hT (by decide) | refine To.fst (by assumption) ?_ | refine To.snd (by assumption) ?_ | split | dsimp -proj only | (intro _; intros))

theorem cPlane_to {s : State} {c : List Word} {flow : Nat} {port : Nat} {id : BitVec 16} {frame : List Byte} {m : OranMsg} (hT : T ||| 1374390789362 = T) (hS : To T s0 s) :
    To T s0 (cPlane c flow port id frame m s) := by
  unfold cPlane
  try dsimp -proj only
  repeat' (first | (with_reducible first | assumption | refine To.ite ?_ ?_ | refine unsupported_to ?_ ?_ | refine rxDeliver_to ?_ ?_ | refine fhCtx_to ?_ ?_ | refine cSection_to ?_ ?_ | refine fhMissed_to ?_ ?_ | refine To.foldl _ (fun _ _ _ => ?_) ?_ | refine To.foldl_fst _ (fun _ _ _ => ?_) ?_) | exact To.sub hT (by decide) | refine To.fst (by assumption) ?_ | refine To.snd (by assumption) ?_ | split | dsimp -proj only | (intro _; intros))

theorem phyDatagram_to {s : State} {phy : Nat} {b : List Byte} (hT : T ||| 7696582443154 = T) (hS : To T s0 s) :
    To T s0 (phyDatagram phy b s) := by
  unfold phyDatagram
  try dsimp -proj only
  repeat' (first | (with_reducible first | assumption | refine To.ite ?_ ?_ | refine fapiSend_to ?_ ?_) | exact To.sub hT (by decide) | refine To.fst (by assumption) ?_ | refine To.snd (by assumption) ?_ | split | (with_reducible first | refine To.set_phys ?_ ?_) | dsimp -proj only)

theorem flowAct_to {s : State} {flow : Nat} {port : Nat} {c : List Word} {frame : List Byte} {m : Option EcpriMsg} (hT : T ||| 7971460556018 = T) (hS : To T s0 s) :
    To T s0 (flowAct flow port c frame m s) := by
  unfold flowAct
  try dsimp -proj only
  repeat' (first | (with_reducible first | assumption | refine To.ite ?_ ?_ | refine incCnt_to ?_ ?_ | refine uPlane_to ?_ ?_ | refine unsupported_to ?_ ?_ | refine cPlane_to ?_ ?_ | refine rxDeliver_to ?_ ?_ | refine phyDatagram_to ?_ ?_) | exact To.sub hT (by decide) | refine To.fst (by assumption) ?_ | refine To.snd (by assumption) ?_ | split | dsimp -proj only)

theorem flowStep_to {s : State} {port : Nat} {frame : List Byte} {e : EthView} {m : Option EcpriMsg} (hT : T ||| 8521216369906 = T) (hS : To T s0 s) :
    To T s0 (flowStep port frame e m s) := by
  unfold flowStep
  try dsimp -proj only
  repeat' (first | (with_reducible first | assumption | refine To.ite ?_ ?_ | refine rxDeliver_to ?_ ?_ | refine incCnt_to ?_ ?_ | refine meterColour_to ?_ ?_ | refine flowAct_to ?_ ?_) | exact To.sub hT (by decide) | refine To.fst (by assumption) ?_ | refine To.snd (by assumption) ?_ | split | dsimp -proj only)

theorem frameReceiveSt_to {s : State} {p : Nat} {b : List Byte} {fcsOk : Bool} (hT : T ||| 8521216369906 = T) (hS : To T s0 s) :
    To T s0 (frameReceiveSt p b fcsOk s) := by
  unfold frameReceiveSt
  try dsimp -proj only
  repeat' (first | (with_reducible first | assumption | refine To.ite ?_ ?_ | refine incCnt_to ?_ ?_ | refine flowStep_to ?_ ?_ | refine unsupported_to ?_ ?_ | refine To.foldl _ (fun _ _ _ => ?_) ?_ | refine To.foldl_fst _ (fun _ _ _ => ?_) ?_) | exact To.sub hT (by decide) | refine To.fst (by assumption) ?_ | refine To.snd (by assumption) ?_ | split | dsimp -proj only | (intro _; intros))

theorem flowLoadSt_to {s : State} {v : Word} (hT : T ||| 274879094866 = T) (hS : To T s0 s) :
    To T s0 (flowLoadSt v s) := by
  unfold flowLoadSt
  try dsimp -proj only
  repeat' (first | (with_reducible first | assumption | refine To.ite ?_ ?_ | refine setReg_to ?_ ?_ | refine memRead_to ?_ ?_ | refine ownErr_to ?_ ?_ | refine modPkt_to ?_ ?_ | refine captureErr_to ?_ ?_) | exact To.sub hT (by decide) | refine To.fst (by assumption) ?_ | refine To.snd (by assumption) ?_ | split | dsimp -proj only | (intro _; intros))

theorem winCloseSt_to {s : State} {f : Nat} {n : Nat} (hT : T ||| 274879160562 = T) (hS : To T s0 s) :
    To T s0 (winCloseSt f n s) := by
  unfold winCloseSt
  try dsimp -proj only
  repeat' (first | (with_reducible first | assumption | refine To.ite ?_ ?_ | refine fhCtx_to ?_ ?_ | refine memPut_to ?_ ?_ | refine addCnt_to ?_ ?_ | refine setEvt_to ?_ ?_ | refine modPkt_to ?_ ?_ | refine sendTok_to ?_ ?_ | refine To.foldl _ (fun _ _ _ => ?_) ?_ | refine To.foldl_fst _ (fun _ _ _ => ?_) ?_) | exact To.sub hT (by decide) | refine To.fst (by assumption) ?_ | refine To.snd (by assumption) ?_ | split | dsimp -proj only | (intro _; intros))

theorem jobAdvance_to {s : State} {j : Nat} {chain : Bool} (hT : T ||| 274877906946 = T) (hS : To T s0 s) :
    To T s0 (jobAdvance s j chain) := by
  unfold jobAdvance
  try dsimp -proj only
  repeat' (first | (with_reducible first | assumption | refine To.ite ?_ ?_ | refine modPkt_to ?_ ?_ | refine setReg_to ?_ ?_) | exact To.sub hT (by decide) | refine To.fst (by assumption) ?_ | refine To.snd (by assumption) ?_ | split | dsimp -proj only | (intro _; intros))

theorem modJob_to {s : State} {id : Nat} {f : PktJob → PktJob} (hT : T ||| 274877906944 = T) (hS : To T s0 s) :
    To T s0 (modJob s id f) := by
  unfold modJob
  try dsimp -proj only
  repeat' (first | (with_reducible first | assumption | refine To.ite ?_ ?_ | refine modPkt_to ?_ ?_) | exact To.sub hT (by decide) | refine To.fst (by assumption) ?_ | refine To.snd (by assumption) ?_ | split | dsimp -proj only | (intro _; intros))

theorem jobFail_to {s : State} {id : Nat} {cause : Nat} (hT : T ||| 274877906944 = T) (hS : To T s0 s) :
    To T s0 (jobFail s id cause) := by
  unfold jobFail
  try dsimp -proj only
  repeat' (first | (with_reducible first | assumption | refine To.ite ?_ ?_ | refine modJob_to ?_ ?_) | exact To.sub hT (by decide) | refine To.fst (by assumption) ?_ | refine To.snd (by assumption) ?_ | split | dsimp -proj only | (intro _; intros))

theorem jobBad_to {s : State} {id : Nat} {a : Nat} (hT : T ||| 274878955522 = T) (hS : To T s0 s) :
    To T s0 (jobBad s id a) := by
  unfold jobBad
  repeat' (first | (with_reducible first | assumption | refine To.ite ?_ ?_ | refine jobFail_to ?_ ?_ | refine ownErr_to ?_ ?_) | exact To.sub hT (by decide) | refine To.fst (by assumption) ?_ | refine To.snd (by assumption) ?_ | split)

theorem jobUe_to {s : State} {id : Nat} {a : Nat} (hT : T ||| 274878955522 = T) (hS : To T s0 s) :
    To T s0 (jobUe s id a) := by
  unfold jobUe
  repeat' (first | (with_reducible first | assumption | refine To.ite ?_ ?_ | refine jobFail_to ?_ ?_ | refine captureErr_to ?_ ?_) | exact To.sub hT (by decide) | refine To.fst (by assumption) ?_ | refine To.snd (by assumption) ?_ | split)

theorem jobFetch_to {s : State} {j : Nat} {kind : Nat} (hT : T ||| 274879160562 = T) (hS : To T s0 s) :
    To T s0 (jobFetch j kind s) := by
  unfold jobFetch
  try dsimp -proj only
  repeat' (first | (with_reducible first | assumption | refine To.ite ?_ ?_ | refine memRead_to ?_ ?_ | refine modPkt_to ?_ ?_ | refine jobAdvance_to ?_ ?_ | refine ownErr_to ?_ ?_ | refine refuseDesc_to ?_ ?_ | refine jobBad_to ?_ ?_ | refine jobFail_to ?_ ?_ | refine setEvt_to ?_ ?_ | refine incCnt_to ?_ ?_ | refine closeDesc_to ?_ ?_ | refine captureErr_to ?_ ?_) | exact To.sub hT (by decide) | refine To.fst (by assumption) ?_ | refine To.snd (by assumption) ?_ | split | dsimp -proj only | (intro _; intros))

theorem jobSend_to {s : State} {id : Nat} {flow : List Word} {launch : Option Word} {stamp : Bool} {b : List Byte} (hT : T ||| 824633720832 = T) (hS : To T s0 s) :
    To T s0 (jobSend id flow launch stamp b s) := by
  unfold jobSend
  try dsimp -proj only
  repeat' (first | (with_reducible first | assumption | refine To.ite ?_ ?_ | refine toTm_to ?_ ?_ | refine modJob_to ?_ ?_) | exact To.sub hT (by decide) | refine To.fst (by assumption) ?_ | refine To.snd (by assumption) ?_ | split | dsimp -proj only | (intro _; intros))

theorem readPrbs_to {ws : List Word} {sym : Nat} {i : Nat} (hT : T ||| 1187922 = T) :
    Rd T (readPrbs ws sym i) := by
  unfold readPrbs
  try dsimp -proj only
  repeat' (first | (with_reducible first | assumption | refine To.ite ?_ ?_ | refine rdBytes_to ?_ | refine Rd.ok (by assumption) ?_ ?_ | refine Rd.error (by assumption) ?_ ?_ | exact Rd.pure _ | exact Rd.throw _ | refine Rd.bind ?_ (fun _ => ?_) | refine Rd.mapM _ (fun _ => ?_)) | exact To.sub hT (by decide) | refine To.fst (by assumption) ?_ | refine To.snd (by assumption) ?_ | split | dsimp -proj only | (intro _; intros))

theorem symbolFrames_to {x : PktJob} {c : List Word} {ws : List Word} {sym : Nat} (hT : T ||| 1187922 = T) :
    Rd T (symbolFrames x c ws sym) := by
  unfold symbolFrames
  try dsimp -proj only
  repeat' (first | (with_reducible first | assumption | refine To.ite ?_ ?_ | refine readPrbs_to ?_ | refine Rd.ok (by assumption) ?_ ?_ | refine Rd.error (by assumption) ?_ ?_ | exact Rd.pure _ | exact Rd.throw _ | refine Rd.bind ?_ (fun _ => ?_) | refine Rd.mapM _ (fun _ => ?_)) | exact To.sub hT (by decide) | refine To.fst (by assumption) ?_ | refine To.snd (by assumption) ?_ | split | dsimp -proj only | (intro _; intros))

theorem uSendSt_to {s : State} {j : Nat} (hT : T ||| 824634974450 = T) (hS : To T s0 s) :
    To T s0 (uSendSt j s) := by
  unfold uSendSt
  try dsimp -proj only
  repeat' (first | (with_reducible first | assumption | refine To.ite ?_ ?_ | refine jobFetch_to ?_ ?_ | refine jobBad_to ?_ ?_ | refine fhCtx_to ?_ ?_ | refine symbolFrames_to ?_ | refine jobSend_to ?_ ?_ | refine modJob_to ?_ ?_ | refine jobUe_to ?_ ?_ | refine Rd.ok (by assumption) ?_ ?_ | refine Rd.error (by assumption) ?_ ?_ | exact Rd.pure _ | exact Rd.throw _ | refine Rd.bind ?_ (fun _ => ?_) | refine Rd.mapM _ (fun _ => ?_) | refine To.foldl _ (fun _ _ _ => ?_) ?_ | refine To.foldl_fst _ (fun _ _ _ => ?_) ?_) | exact To.sub hT (by decide) | refine To.fst (by assumption) ?_ | refine To.snd (by assumption) ?_ | split | dsimp -proj only | (intro _; intros))

theorem readWset_to {ws : List Word} (hT : T ||| 1187922 = T) :
    Rd T (readWset ws) := by
  unfold readWset
  try dsimp -proj only
  repeat' (first | (with_reducible first | assumption | refine To.ite ?_ ?_ | refine rdWords_to ?_ | refine Rd.ok (by assumption) ?_ ?_ | refine Rd.error (by assumption) ?_ ?_ | exact Rd.pure _ | exact Rd.throw _ | refine Rd.bind ?_ (fun _ => ?_) | refine Rd.mapM _ (fun _ => ?_)) | exact To.sub hT (by decide) | refine To.fst (by assumption) ?_ | refine To.snd (by assumption) ?_ | split | dsimp -proj only)

theorem jobBody_to {x : PktJob} (hT : T ||| 1187922 = T) :
    Rd T (jobBody x) := by
  unfold jobBody
  repeat' (first | (with_reducible first | assumption | refine To.ite ?_ ?_ | refine rdBytes_to ?_ | refine Rd.ok (by assumption) ?_ ?_ | refine Rd.error (by assumption) ?_ ?_ | exact Rd.pure _ | exact Rd.throw _ | refine Rd.bind ?_ (fun _ => ?_) | refine Rd.mapM _ (fun _ => ?_)) | exact To.sub hT (by decide) | refine To.fst (by assumption) ?_ | refine To.snd (by assumption) ?_ | split | dsimp -proj only)

theorem oneFrame_to {s : State} {j : Nat} {kind : Nat} {mk : PktJob → List Word → List Word → RdM (List Byte)} (hT : T ||| 824634974450 = T) (hS : To T s0 s) (hmk : ∀ x0 x1 x2, Rd T (mk x0 x1 x2)) :
    To T s0 (oneFrame j kind mk s) := by
  unfold oneFrame
  try dsimp -proj only
  repeat' (first | (with_reducible first | assumption | refine To.ite ?_ ?_ | refine jobFetch_to ?_ ?_ | refine jobBad_to ?_ ?_ | refine fhCtx_to ?_ ?_ | refine modJob_to ?_ ?_ | refine jobSend_to ?_ ?_ | refine jobUe_to ?_ ?_ | refine Rd.ok (by assumption) ?_ ?_ | refine Rd.error (by assumption) ?_ ?_ | exact Rd.pure _ | exact Rd.throw _ | refine Rd.bind ?_ (fun _ => ?_) | refine Rd.mapM _ (fun _ => ?_) | exact hmk _ _ _) | exact To.sub hT (by decide) | refine To.fst (by assumption) ?_ | refine To.snd (by assumption) ?_ | split | dsimp -proj only | (intro _; intros))

theorem cSendSt_to {s : State} {j : Nat} (hT : T ||| 824634974450 = T) (hS : To T s0 s) :
    To T s0 (cSendSt j s) := by
  unfold cSendSt
  try dsimp -proj only
  repeat' (first | (with_reducible first | assumption | refine To.ite ?_ ?_ | refine oneFrame_to ?_ ?_ ?_ | refine jobBody_to ?_ | refine readWset_to ?_ | refine Rd.ok (by assumption) ?_ ?_ | refine Rd.error (by assumption) ?_ ?_ | exact Rd.pure _ | exact Rd.throw _ | refine Rd.bind ?_ (fun _ => ?_) | refine Rd.mapM _ (fun _ => ?_)) | exact To.sub hT (by decide) | refine To.fst (by assumption) ?_ | refine To.snd (by assumption) ?_ | split | dsimp -proj only | (intro _; intros))

theorem frameJobSt_to {s : State} {j : Nat} (hT : T ||| 824634974450 = T) (hS : To T s0 s) :
    To T s0 (frameJobSt j s) := by
  unfold frameJobSt
  try dsimp -proj only
  repeat' (first | (with_reducible first | assumption | refine To.ite ?_ ?_ | refine oneFrame_to ?_ ?_ ?_ | refine jobBody_to ?_ | refine Rd.ok (by assumption) ?_ ?_ | refine Rd.error (by assumption) ?_ ?_ | exact Rd.pure _ | exact Rd.throw _ | refine Rd.bind ?_ (fun _ => ?_) | refine Rd.mapM _ (fun _ => ?_)) | exact To.sub hT (by decide) | refine To.fst (by assumption) ?_ | refine To.snd (by assumption) ?_ | split | dsimp -proj only | (intro _; intros))

theorem jobDoneSt_to {s : State} {i : Nat} (hT : T ||| 274879160562 = T) (hS : To T s0 s) :
    To T s0 (jobDoneSt i s) := by
  unfold jobDoneSt
  try dsimp -proj only
  repeat' (first | (with_reducible first | assumption | refine To.ite ?_ ?_ | refine modPkt_to ?_ ?_ | refine memPut_to ?_ ?_ | refine closeDesc_to ?_ ?_ | refine sendTok_to ?_ ?_) | exact To.sub hT (by decide) | refine To.fst (by assumption) ?_ | refine To.snd (by assumption) ?_ | split | dsimp -proj only | (intro _; intros))

theorem jobTail_to {s : State} {j : Nat} {v : Word} (hT : T ||| 274877906946 = T) (hS : To T s0 s) :
    To T s0 (jobTail j v s) := by
  unfold jobTail
  try dsimp -proj only
  repeat' (first | (with_reducible first | assumption | refine To.ite ?_ ?_ | refine modPkt_to ?_ ?_ | refine setReg_to ?_ ?_) | exact To.sub hT (by decide) | refine To.fst (by assumption) ?_ | refine To.snd (by assumption) ?_ | split | dsimp -proj only | (intro _; intros))

theorem pcsLock_to {s : State} {p : Nat} {on : Bool} (hT : T ||| 2 = T) (hS : To T s0 s) :
    To T s0 (pcsLock p on s) := by
  unfold pcsLock
  try dsimp -proj only
  repeat' (first | (with_reducible first | assumption | refine To.ite ?_ ?_ | refine modReg_to ?_ ?_) | exact To.sub hT (by decide) | refine To.fst (by assumption) ?_ | refine To.snd (by assumption) ?_ | split | dsimp -proj only | (intro _; intros))

theorem pktDrop_to {s : State} (hT : T ||| 274877972480 = T) (hS : To T s0 s) :
    To T s0 (pktDrop s) := by
  unfold pktDrop
  try dsimp -proj only
  repeat' (first | (with_reducible first | assumption | refine To.ite ?_ ?_ | refine sendTok_to ?_ ?_ | refine To.foldl _ (fun _ _ _ => ?_) ?_ | refine To.foldl_fst _ (fun _ _ _ => ?_) ?_) | exact To.sub hT (by decide) | refine To.fst (by assumption) ?_ | refine To.snd (by assumption) ?_ | split | (with_reducible first | refine To.set_pkt ?_ ?_) | dsimp -proj only | (intro _; intros))

theorem execFrameReceive_to {s : State} {p : Fin 32} {bytes : List Byte} {fcsOk : Bool} (hT : T ||| 8521216369906 = T) (hS : To T s0 s) :
    Out T s0 (execFrameReceive p bytes fcsOk s) := by
  unfold execFrameReceive
  repeat' (first | (with_reducible first | assumption | refine To.ite ?_ ?_ | refine whileRuns_to ?_ ?_ ?_ | refine frameReceiveSt_to ?_ ?_ | refine Out.next ?_) | exact To.sub hT (by decide) | refine To.fst (by assumption) ?_ | refine To.snd (by assumption) ?_ | split | (intro _; intros))

theorem execFlowLoad_to {s : State} {a : Acc} {v : Word} (hT : T ||| 274879094866 = T) (hS : To T s0 s) :
    Out T s0 (execFlowLoad a v s) := by
  unfold execFlowLoad
  repeat' (first | (with_reducible first | assumption | refine To.ite ?_ ?_ | refine onPage_to ?_ ?_ ?_ | refine flowLoadSt_to ?_ ?_ | refine Out.next ?_) | exact To.sub hT (by decide) | refine To.fst (by assumption) ?_ | refine To.snd (by assumption) ?_ | split | (intro _; intros))

theorem execWinClose_to {s : State} {f : Fin 512} {n : Nat} (hT : T ||| 274879160562 = T) (hS : To T s0 s) :
    Out T s0 (execWinClose f n s) := by
  unfold execWinClose
  repeat' (first | (with_reducible first | assumption | refine To.ite ?_ ?_ | refine whileRuns_to ?_ ?_ ?_ | refine winCloseSt_to ?_ ?_ | refine Out.next ?_) | exact To.sub hT (by decide) | refine To.fst (by assumption) ?_ | refine To.snd (by assumption) ?_ | split | (intro _; intros))

theorem execUSend_to {s : State} {j : Fin 8} (hT : T ||| 824634974450 = T) (hS : To T s0 s) :
    Out T s0 (execUSend j s) := by
  unfold execUSend
  try dsimp -proj only
  repeat' (first | (with_reducible first | assumption | refine To.ite ?_ ?_ | refine whileRuns_to ?_ ?_ ?_ | refine uSendSt_to ?_ ?_ | refine Out.next ?_) | exact To.sub hT (by decide) | refine To.fst (by assumption) ?_ | refine To.snd (by assumption) ?_ | split | dsimp -proj only | (intro _; intros))

theorem execCSend_to {s : State} {j : Fin 8} (hT : T ||| 824634974450 = T) (hS : To T s0 s) :
    Out T s0 (execCSend j s) := by
  unfold execCSend
  try dsimp -proj only
  repeat' (first | (with_reducible first | assumption | refine To.ite ?_ ?_ | refine whileRuns_to ?_ ?_ ?_ | refine cSendSt_to ?_ ?_ | refine Out.next ?_) | exact To.sub hT (by decide) | refine To.fst (by assumption) ?_ | refine To.snd (by assumption) ?_ | split | dsimp -proj only | (intro _; intros))

theorem execFrame_to {s : State} {j : Fin 8} (hT : T ||| 824634974450 = T) (hS : To T s0 s) :
    Out T s0 (execFrame j s) := by
  unfold execFrame
  try dsimp -proj only
  repeat' (first | (with_reducible first | assumption | refine To.ite ?_ ?_ | refine whileRuns_to ?_ ?_ ?_ | refine frameJobSt_to ?_ ?_ | refine Out.next ?_) | exact To.sub hT (by decide) | refine To.fst (by assumption) ?_ | refine To.snd (by assumption) ?_ | split | dsimp -proj only | (intro _; intros))

theorem execJobDone_to {s : State} {i : Nat} (hT : T ||| 274879160562 = T) (hS : To T s0 s) :
    Out T s0 (execJobDone i s) := by
  unfold execJobDone
  repeat' (first | (with_reducible first | assumption | refine To.ite ?_ ?_ | refine whileRuns_to ?_ ?_ ?_ | refine jobDoneSt_to ?_ ?_ | refine Out.next ?_) | exact To.sub hT (by decide) | refine To.fst (by assumption) ?_ | refine To.snd (by assumption) ?_ | split | (intro _; intros))

theorem execPcsLockLoss_to {s : State} {p : Fin 32} (hT : T ||| 2 = T) (hS : To T s0 s) :
    Out T s0 (execPcsLockLoss p s) := by
  unfold execPcsLockLoss
  repeat' (first | (with_reducible first | assumption | refine To.ite ?_ ?_ | refine pcsLock_to ?_ ?_ | refine Out.next ?_) | exact To.sub hT (by decide) | refine To.fst (by assumption) ?_ | refine To.snd (by assumption) ?_ | split)

theorem execPcsLockGain_to {s : State} {p : Fin 32} (hT : T ||| 2 = T) (hS : To T s0 s) :
    Out T s0 (execPcsLockGain p s) := by
  unfold execPcsLockGain
  repeat' (first | (with_reducible first | assumption | refine To.ite ?_ ?_ | refine pcsLock_to ?_ ?_ | refine Out.next ?_) | exact To.sub hT (by decide) | refine To.fst (by assumption) ?_ | refine To.snd (by assumption) ?_ | split)

end Sys2Proof.Machine
end

