-- ==== Sys2Proof/Laws/ToOfdm.lean ====
section
/-! SUPPORT. The frames of the operations and meanings of Ofdm: what each may change. -/

namespace Sys2Proof.Machine

variable {T : Nat} {s0 : State}

theorem setOfdm_to {s : State} {k : Nat} {o : OfdmSt} (hT : T ||| 67108864 = T) (hS : To T s0 s) :
    To T s0 (setOfdm s k o) := by
  unfold setOfdm
  repeat' (first | (with_reducible first | assumption | refine To.ite ?_ ?_) | exact To.sub hT (by decide) | refine To.fst (by assumption) ?_ | refine To.snd (by assumption) ?_ | split | with_reducible first | refine To.set_ofdm ?_ ?_)

theorem carrEnableSt_to {s : State} {k : Nat} {v : Word} (hT : T ||| 1048578 = T) (hS : To T s0 s) :
    To T s0 (carrEnableSt k v s) := by
  unfold carrEnableSt
  try dsimp -proj only
  repeat' (first | (with_reducible first | assumption | refine To.ite ?_ ?_ | refine setRegI_to ?_ ?_ | refine ownErr_to ?_ ?_) | exact To.sub hT (by decide) | refine To.fst (by assumption) ?_ | refine To.snd (by assumption) ?_ | split | dsimp -proj only)

theorem smoothWriteSt_to {s : State} {k : Nat} {v : Word} (hT : T ||| 2 = T) (hS : To T s0 s) :
    To T s0 (smoothWriteSt k v s) := by
  unfold smoothWriteSt
  try dsimp -proj only
  repeat' (first | (with_reducible first | assumption | refine To.ite ?_ ?_ | refine setRegI_to ?_ ?_ | refine setReg_to ?_ ?_) | exact To.sub hT (by decide) | refine To.fst (by assumption) ?_ | refine To.snd (by assumption) ?_ | split | dsimp -proj only)

theorem endOfdm_to {s : State} {k : Nat} {f : FireRec} {d : Nat} {err : Option Nat} {cls : Nat} {sts : Nat} (hT : T ||| 1253618 = T) (hS : To T s0 s) :
    To T s0 (endOfdm s k f d err cls sts) := by
  unfold endOfdm
  try dsimp -proj only
  repeat' (first | (with_reducible first | assumption | refine To.ite ?_ ?_ | refine complete_to ?_ ?_ | refine closeDesc_to ?_ ?_ | refine failFire_to ?_ ?_) | exact To.sub hT (by decide) | refine To.fst (by assumption) ?_ | refine To.snd (by assumption) ?_ | split | dsimp -proj only)

theorem badArgOfdm_to {s : State} {k : Nat} {f : FireRec} {d : Nat} (hT : T ||| 1253618 = T) (hS : To T s0 s) :
    To T s0 (badArgOfdm s k f d) := by
  unfold badArgOfdm
  repeat' (first | (with_reducible first | assumption | refine To.ite ?_ ?_ | refine endOfdm_to ?_ ?_ | refine ownErr_to ?_ ?_) | exact To.sub hT (by decide) | refine To.fst (by assumption) ?_ | refine To.snd (by assumption) ?_ | split)

theorem failOfdm_to {s : State} {k : Nat} {f : FireRec} {d : Nat} {y4 : OpErr} (hT : T ||| 1253618 = T) (hS : To T s0 s) :
    To T s0 (failOfdm s k f d y4) := by
  unfold failOfdm
  repeat' (first | (with_reducible first | assumption | refine To.ite ?_ ?_ | refine endOfdm_to ?_ ?_ | refine ownErr_to ?_ ?_ | refine badArgOfdm_to ?_ ?_) | exact To.sub hT (by decide) | refine To.fst (by assumption) ?_ | refine To.snd (by assumption) ?_ | split)

theorem ofdmStart_to {s : State} {k : Nat} {kind : Nat} {f : FireRec} (hT : T ||| 17592254406898 = T) (hS : To T s0 s) :
    To T s0 (ofdmStart k kind f s) := by
  unfold ofdmStart
  try dsimp -proj only
  repeat' (first | (with_reducible first | assumption | refine To.ite ?_ ?_ | refine fetchDesc_to ?_ ?_ | refine holdUnowned_to ?_ ?_ | refine failFire_to ?_ ?_ | refine ownErr_to ?_ ?_ | refine refuseDesc_to ?_ ?_ | refine endOfdm_to ?_ ?_ | refine setEvt_to ?_ ?_ | refine incCnt_to ?_ ?_ | refine setOfdm_to ?_ ?_ | refine To.foldl _ (fun _ _ _ => ?_) ?_ | refine To.foldl_fst _ (fun _ _ _ => ?_) ?_) | exact To.sub hT (by decide) | refine To.fst (by assumption) ?_ | refine To.snd (by assumption) ?_ | split | dsimp -proj only | (intro _; intros))

theorem rdWeights_to {p : Nat} {a : Nat} {nprb : Nat} (hT : T ||| 1187922 = T) :
    Rd T (rdWeights p a nprb) := by
  unfold rdWeights
  try dsimp -proj only
  repeat' (first | (with_reducible first | assumption | refine To.ite ?_ ?_ | refine rdWords_to ?_ | refine Rd.ok (by assumption) ?_ ?_ | refine Rd.error (by assumption) ?_ ?_ | exact Rd.pure _ | exact Rd.throw _ | refine Rd.bind ?_ (fun _ => ?_) | refine Rd.mapM _ (fun _ => ?_)) | exact To.sub hT (by decide) | refine To.fst (by assumption) ?_ | refine To.snd (by assumption) ?_ | split | dsimp -proj only)

theorem opWeights_to {p : Nat} {a : Nat} {nprb : Nat} (hT : T ||| 1187922 = T) :
    Rd T (opWeights p a nprb) := by
  unfold opWeights
  try dsimp -proj only
  repeat' (first | (with_reducible first | assumption | refine To.ite ?_ ?_ | refine rdWeights_to ?_ | refine Rd.ok (by assumption) ?_ ?_ | refine Rd.error (by assumption) ?_ ?_ | exact Rd.pure _ | exact Rd.throw _ | refine Rd.bind ?_ (fun _ => ?_) | refine Rd.mapM _ (fun _ => ?_)) | exact To.sub hT (by decide) | refine To.fst (by assumption) ?_ | refine To.snd (by assumption) ?_ | split | dsimp -proj only)

theorem rxCapture_to {k : Nat} {op : OfdmOp} {y : Nat} (hT : T ||| 1187922 = T) :
    Rd T (rxCapture k op y) := by
  unfold rxCapture
  try dsimp -proj only
  repeat' (first | (with_reducible first | assumption | refine To.ite ?_ ?_ | refine rdGet_to ?_ | refine opWeights_to ?_ | refine Rd.ok (by assumption) ?_ ?_ | refine Rd.error (by assumption) ?_ ?_ | exact Rd.pure _ | exact Rd.throw _ | refine Rd.bind ?_ (fun _ => ?_) | refine Rd.mapM _ (fun _ => ?_)) | exact To.sub hT (by decide) | refine To.fst (by assumption) ?_ | refine To.snd (by assumption) ?_ | split | dsimp -proj only | (intro _; intros))

theorem opFftRx_to {k : Nat} {op : OfdmOp} (_ : T ||| 0 = T) :
    Rd T (opFftRx k op) := by
  unfold opFftRx
  try dsimp -proj only
  repeat' (first | (with_reducible first | assumption | refine To.ite ?_ ?_ | refine rdGet_to ?_ | refine Rd.ok (by assumption) ?_ ?_ | refine Rd.error (by assumption) ?_ ?_ | exact Rd.pure _ | exact Rd.throw _ | refine Rd.bind ?_ (fun _ => ?_) | refine Rd.mapM _ (fun _ => ?_) | refine To.foldl _ (fun _ _ _ => ?_) ?_ | refine To.foldl_fst _ (fun _ _ _ => ?_) ?_) | exact To.sub hT (by decide) | refine To.fst (by assumption) ?_ | refine To.snd (by assumption) ?_ | split | dsimp -proj only | (intro _; intros))

theorem txCapture_to {k : Nat} {op : OfdmOp} {y : Nat} (hT : T ||| 1187922 = T) :
    Rd T (txCapture k op y) := by
  unfold txCapture
  try dsimp -proj only
  repeat' (first | (with_reducible first | assumption | refine To.ite ?_ ?_ | refine rdGet_to ?_ | refine opWeights_to ?_ | refine rdWords_to ?_ | refine Rd.ok (by assumption) ?_ ?_ | refine Rd.error (by assumption) ?_ ?_ | exact Rd.pure _ | exact Rd.throw _ | refine Rd.bind ?_ (fun _ => ?_) | refine Rd.mapM _ (fun _ => ?_)) | exact To.sub hT (by decide) | refine To.fst (by assumption) ?_ | refine To.snd (by assumption) ?_ | split | dsimp -proj only | (intro _; intros))

theorem opIfftTx_to {k : Nat} {op : OfdmOp} (_ : T ||| 0 = T) :
    Rd T (opIfftTx k op) := by
  unfold opIfftTx
  try dsimp -proj only
  repeat' (first | (with_reducible first | assumption | refine To.ite ?_ ?_ | refine rdGet_to ?_ | refine Rd.ok (by assumption) ?_ ?_ | refine Rd.error (by assumption) ?_ ?_ | exact Rd.pure _ | exact Rd.throw _ | refine Rd.bind ?_ (fun _ => ?_) | refine Rd.mapM _ (fun _ => ?_)) | exact To.sub hT (by decide) | refine To.fst (by assumption) ?_ | refine To.snd (by assumption) ?_ | split | dsimp -proj only | (intro _; intros))

theorem rdAllocs_to {p : Nat} {a : Nat} {n : Nat} (hT : T ||| 1187922 = T) :
    Rd T (rdAllocs p a n) := by
  unfold rdAllocs
  try dsimp -proj only
  repeat' (first | (with_reducible first | assumption | refine To.ite ?_ ?_ | refine rdWords_to ?_ | refine Rd.ok (by assumption) ?_ ?_ | refine Rd.error (by assumption) ?_ ?_ | exact Rd.pure _ | exact Rd.throw _ | refine Rd.bind ?_ (fun _ => ?_) | refine Rd.mapM _ (fun _ => ?_)) | exact To.sub hT (by decide) | refine To.fst (by assumption) ?_ | refine To.snd (by assumption) ?_ | split | dsimp -proj only | (intro _; intros))

theorem lsSet_to {p : Nat} {t : SlotNo} {a : List Word} {base : Nat} {inputs : Nat} {kk : Nat} {l : Nat} {ys : List Nat} (hT : T ||| 1187922 = T) :
    Rd T (lsSet p t a base inputs kk l ys) := by
  unfold lsSet
  try dsimp -proj only
  repeat' (first | (with_reducible first | assumption | refine To.ite ?_ ?_ | refine rdWords_to ?_ | refine Rd.ok (by assumption) ?_ ?_ | refine Rd.error (by assumption) ?_ ?_ | exact Rd.pure _ | exact Rd.throw _ | refine Rd.bind ?_ (fun _ => ?_) | refine Rd.mapM _ (fun _ => ?_)) | exact To.sub hT (by decide) | refine To.fst (by assumption) ?_ | refine To.snd (by assumption) ?_ | split | dsimp -proj only | (intro _; intros))

theorem lsLayer_to {p : Nat} {op : OfdmOp} {t : SlotNo} {a : List Word} {base : Nat} {inputs : Nat} {kk : Nat} {l : Nat} (hT : T ||| 1187922 = T) :
    Rd T (lsLayer p op t a base inputs kk l) := by
  unfold lsLayer
  try dsimp -proj only
  repeat' (first | (with_reducible first | assumption | refine To.ite ?_ ?_ | refine lsSet_to ?_ | refine Rd.ok (by assumption) ?_ ?_ | refine Rd.error (by assumption) ?_ ?_ | exact Rd.pure _ | exact Rd.throw _ | refine Rd.bind ?_ (fun _ => ?_) | refine Rd.mapM _ (fun _ => ?_)) | exact To.sub hT (by decide) | refine To.fst (by assumption) ?_ | refine To.snd (by assumption) ?_ | split | dsimp -proj only | (intro _; intros))

theorem rdNf_to {p : Nat} {a : Nat} {i : Nat} {b : Nat} (hT : T ||| 1187922 = T) :
    Rd T (rdNf p a i b) := by
  unfold rdNf
  try dsimp -proj only
  repeat' (first | (with_reducible first | assumption | refine To.ite ?_ ?_ | refine rdWords_to ?_ | refine Rd.ok (by assumption) ?_ ?_ | refine Rd.error (by assumption) ?_ ?_ | exact Rd.pure _ | exact Rd.throw _ | refine Rd.bind ?_ (fun _ => ?_) | refine Rd.mapM _ (fun _ => ?_)) | exact To.sub hT (by decide) | refine To.fst (by assumption) ?_ | refine To.snd (by assumption) ?_ | split | dsimp -proj only)

theorem noiseOf_to {p : Nat} {s : State} {op : OfdmOp} {a : List Word} {l : Nat} {first : Nat} {nprb : Nat} {ls : List (Nat × List (Nat × Cx) × List Cx)} (hT : T ||| 1187922 = T) :
    Rd T (noiseOf p s op a l first nprb ls) := by
  unfold noiseOf
  try dsimp -proj only
  repeat' (first | (with_reducible first | assumption | refine To.ite ?_ ?_ | refine rdNf_to ?_ | refine Rd.ok (by assumption) ?_ ?_ | refine Rd.error (by assumption) ?_ ?_ | exact Rd.pure _ | exact Rd.throw _ | refine Rd.bind ?_ (fun _ => ?_) | refine Rd.mapM _ (fun _ => ?_)) | exact To.sub hT (by decide) | refine To.fst (by assumption) ?_ | refine To.snd (by assumption) ?_ | split | dsimp -proj only | (intro _; intros))

theorem opCe_to {k : Nat} {op : OfdmOp} (hT : T ||| 1187922 = T) :
    Rd T (opCe k op) := by
  unfold opCe
  try dsimp -proj only
  repeat' (first | (with_reducible first | assumption | refine To.ite ?_ ?_ | refine rdGet_to ?_ | refine rdAllocs_to ?_ | refine lsLayer_to ?_ | refine noiseOf_to ?_ | refine Rd.ok (by assumption) ?_ ?_ | refine Rd.error (by assumption) ?_ ?_ | exact Rd.pure _ | exact Rd.throw _ | refine Rd.bind ?_ (fun _ => ?_) | refine Rd.mapM _ (fun _ => ?_) | refine To.foldl _ (fun _ _ _ => ?_) ?_ | refine To.foldl_fst _ (fun _ _ _ => ?_) ?_) | exact To.sub hT (by decide) | refine To.fst (by assumption) ?_ | refine To.snd (by assumption) ?_ | split | dsimp -proj only | (intro _; intros))

theorem rdEst_to {p : Nat} {a : Nat} (hT : T ||| 1187922 = T) :
    Rd T (rdEst p a) := by
  unfold rdEst
  try dsimp -proj only
  repeat' (first | (with_reducible first | assumption | refine To.ite ?_ ?_ | refine rdWords_to ?_ | refine Rd.ok (by assumption) ?_ ?_ | refine Rd.error (by assumption) ?_ ?_ | exact Rd.pure _ | exact Rd.throw _ | refine Rd.bind ?_ (fun _ => ?_) | refine Rd.mapM _ (fun _ => ?_)) | exact To.sub hT (by decide) | refine To.fst (by assumption) ?_ | refine To.snd (by assumption) ?_ | split | dsimp -proj only)

theorem rdHs_to {p : Nat} {e : Est} {l : Nat} {c0 : Nat} {n : Nat} (hT : T ||| 1187922 = T) :
    Rd T (rdHs p e l c0 n) := by
  unfold rdHs
  try dsimp -proj only
  repeat' (first | (with_reducible first | assumption | refine To.ite ?_ ?_ | refine rdWords_to ?_ | refine Rd.ok (by assumption) ?_ ?_ | refine Rd.error (by assumption) ?_ ?_ | exact Rd.pure _ | exact Rd.throw _ | refine Rd.bind ?_ (fun _ => ?_) | refine Rd.mapM _ (fun _ => ?_)) | exact To.sub hT (by decide) | refine To.fst (by assumption) ?_ | refine To.snd (by assumption) ?_ | split | dsimp -proj only | (intro _; intros))

theorem eqSymbol_to {p : Nat} {k : Nat} {s : State} {op : OfdmOp} {a : List Word} {ea : Option Est} {eb : Option Est} {y : Nat} {l : Nat} (hT : T ||| 1187922 = T) :
    Rd T (eqSymbol p k s op a ea eb y l) := by
  unfold eqSymbol
  try dsimp -proj only
  repeat' (first | (with_reducible first | assumption | refine To.ite ?_ ?_ | refine rdWords_to ?_ | refine rdHs_to ?_ | refine Rd.ok (by assumption) ?_ ?_ | refine Rd.error (by assumption) ?_ ?_ | exact Rd.pure _ | exact Rd.throw _ | refine Rd.bind ?_ (fun _ => ?_) | refine Rd.mapM _ (fun _ => ?_)) | exact To.sub hT (by decide) | refine To.fst (by assumption) ?_ | refine To.snd (by assumption) ?_ | split | dsimp -proj only | (intro _; intros))

theorem eqAlloc_to {p : Nat} {k : Nat} {s : State} {op : OfdmOp} {ea : Option Est} {eb : Option Est} {a : List Word} (hT : T ||| 1187922 = T) :
    Rd T (eqAlloc p k s op ea eb a) := by
  unfold eqAlloc
  try dsimp -proj only
  repeat' (first | (with_reducible first | assumption | refine To.ite ?_ ?_ | refine eqSymbol_to ?_ | refine Rd.ok (by assumption) ?_ ?_ | refine Rd.error (by assumption) ?_ ?_ | exact Rd.pure _ | exact Rd.throw _ | refine Rd.bind ?_ (fun _ => ?_) | refine Rd.mapM _ (fun _ => ?_) | refine To.foldl _ (fun _ _ _ => ?_) ?_ | refine To.foldl_fst _ (fun _ _ _ => ?_) ?_) | exact To.sub hT (by decide) | refine To.fst (by assumption) ?_ | refine To.snd (by assumption) ?_ | split | dsimp -proj only | (intro _; intros))

theorem opEq_to {k : Nat} {op : OfdmOp} (hT : T ||| 1187922 = T) :
    Rd T (opEq k op) := by
  unfold opEq
  try dsimp -proj only
  repeat' (first | (with_reducible first | assumption | refine To.ite ?_ ?_ | refine rdGet_to ?_ | refine rdEst_to ?_ | refine rdAllocs_to ?_ | refine eqAlloc_to ?_ | refine Rd.ok (by assumption) ?_ ?_ | refine Rd.error (by assumption) ?_ ?_ | exact Rd.pure _ | exact Rd.throw _ | refine Rd.bind ?_ (fun _ => ?_) | refine Rd.mapM _ (fun _ => ?_)) | exact To.sub hT (by decide) | refine To.fst (by assumption) ?_ | refine To.snd (by assumption) ?_ | split | dsimp -proj only | (intro _; intros))

theorem txMapAlloc_to {p : Nat} {k : Nat} {s : State} {op : OfdmOp} {a : List Word} (hT : T ||| 1187922 = T) :
    Rd T (txMapAlloc p k s op a) := by
  unfold txMapAlloc
  try dsimp -proj only
  repeat' (first | (with_reducible first | assumption | refine To.ite ?_ ?_ | refine rdBytes_to ?_ | refine Rd.ok (by assumption) ?_ ?_ | refine Rd.error (by assumption) ?_ ?_ | exact Rd.pure _ | exact Rd.throw _ | refine Rd.bind ?_ (fun _ => ?_) | refine Rd.mapM _ (fun _ => ?_)) | exact To.sub hT (by decide) | refine To.fst (by assumption) ?_ | refine To.snd (by assumption) ?_ | split | dsimp -proj only | (intro _; intros))

theorem opTxMap_to {k : Nat} {op : OfdmOp} (hT : T ||| 1187922 = T) :
    Rd T (opTxMap k op) := by
  unfold opTxMap
  try dsimp -proj only
  repeat' (first | (with_reducible first | assumption | refine To.ite ?_ ?_ | refine rdGet_to ?_ | refine rdAllocs_to ?_ | refine txMapAlloc_to ?_ | refine Rd.ok (by assumption) ?_ ?_ | refine Rd.error (by assumption) ?_ ?_ | exact Rd.pure _ | exact Rd.throw _ | refine Rd.bind ?_ (fun _ => ?_) | refine Rd.mapM _ (fun _ => ?_)) | exact To.sub hT (by decide) | refine To.fst (by assumption) ?_ | refine To.snd (by assumption) ?_ | split | dsimp -proj only | (intro _; intros))

theorem opNf_to {k : Nat} {op : OfdmOp} (hT : T ||| 1187922 = T) :
    Rd T (opNf k op) := by
  unfold opNf
  try dsimp -proj only
  repeat' (first | (with_reducible first | assumption | refine To.ite ?_ ?_ | refine rdGet_to ?_ | refine rdWords_to ?_ | refine Rd.ok (by assumption) ?_ ?_ | refine Rd.error (by assumption) ?_ ?_ | exact Rd.pure _ | exact Rd.throw _ | refine Rd.bind ?_ (fun _ => ?_) | refine Rd.mapM _ (fun _ => ?_)) | exact To.sub hT (by decide) | refine To.fst (by assumption) ?_ | refine To.snd (by assumption) ?_ | split | dsimp -proj only | (intro _; intros))

theorem opPrach_to {k : Nat} {op : OfdmOp} (hT : T ||| 1187922 = T) :
    Rd T (opPrach k op) := by
  unfold opPrach
  try dsimp -proj only
  repeat' (first | (with_reducible first | assumption | refine To.ite ?_ ?_ | refine rdGet_to ?_ | refine rdWords_to ?_ | refine opWeights_to ?_ | refine Rd.ok (by assumption) ?_ ?_ | refine Rd.error (by assumption) ?_ ?_ | exact Rd.pure _ | exact Rd.throw _ | refine Rd.bind ?_ (fun _ => ?_) | refine Rd.mapM _ (fun _ => ?_)) | exact To.sub hT (by decide) | refine To.fst (by assumption) ?_ | refine To.snd (by assumption) ?_ | split | dsimp -proj only | (intro _; intros))

theorem runOfdm_to {k : Nat} {op : OfdmOp} (hT : T ||| 1187922 = T) :
    Rd T (runOfdm k op) := by
  unfold runOfdm
  repeat' (first | (with_reducible first | assumption | refine To.ite ?_ ?_ | refine opFftRx_to ?_ | refine opIfftTx_to ?_ | refine opCe_to ?_ | refine opEq_to ?_ | refine opNf_to ?_ | refine opPrach_to ?_ | refine opTxMap_to ?_ | refine Rd.ok (by assumption) ?_ ?_ | refine Rd.error (by assumption) ?_ ?_ | exact Rd.pure _ | exact Rd.throw _ | refine Rd.bind ?_ (fun _ => ?_) | refine Rd.mapM _ (fun _ => ?_)) | exact To.sub hT (by decide) | refine To.fst (by assumption) ?_ | refine To.snd (by assumption) ?_ | split | dsimp -proj only)

theorem sendPartials_to {s : State} {k : Nat} {op : OfdmOp} {gs : List SymGot} (hT : T ||| 67108864 = T) (hS : To T s0 s) :
    To T s0 (sendPartials s k op gs) := by
  unfold sendPartials
  try dsimp -proj only
  repeat' (first | (with_reducible first | assumption | refine To.ite ?_ ?_ | refine setOfdm_to ?_ ?_) | exact To.sub hT (by decide) | refine To.fst (by assumption) ?_ | refine To.snd (by assumption) ?_ | split | dsimp -proj only | (intro _; intros))

theorem captureAt_to {s : State} {k : Nat} {i : Nat} (hT : T ||| 68296786 = T) (hS : To T s0 s) :
    To T s0 (captureAt k s i) := by
  unfold captureAt
  try dsimp -proj only
  repeat' (first | (with_reducible first | assumption | refine To.ite ?_ ?_ | refine setOfdm_to ?_ ?_ | refine rxCapture_to ?_ | refine txCapture_to ?_ | refine sendPartials_to ?_ ?_ | refine Rd.ok (by assumption) ?_ ?_ | refine Rd.error (by assumption) ?_ ?_ | exact Rd.pure _ | exact Rd.throw _ | refine Rd.bind ?_ (fun _ => ?_) | refine Rd.mapM _ (fun _ => ?_)) | exact To.sub hT (by decide) | refine To.fst (by assumption) ?_ | refine To.snd (by assumption) ?_ | split | dsimp -proj only | (intro _; intros))

theorem ofdmTick_to {s : State} (hT : T ||| 68296786 = T) (hS : To T s0 s) :
    To T s0 (ofdmTick s) := by
  unfold ofdmTick
  try dsimp -proj only
  repeat' (first | (with_reducible first | assumption | refine To.ite ?_ ?_ | refine whileRuns_to ?_ ?_ ?_ | refine captureAt_to ?_ ?_ | refine To.foldl _ (fun _ _ _ => ?_) ?_ | refine To.foldl_fst _ (fun _ _ _ => ?_) ?_) | exact To.sub hT (by decide) | refine To.fst (by assumption) ?_ | refine To.snd (by assumption) ?_ | split | dsimp -proj only | (intro _; intros))

theorem finishOfdm_to {s : State} {k : Nat} {op : OfdmOp} {r : OpOut} (hT : T ||| 68362482 = T) (hS : To T s0 s) :
    To T s0 (finishOfdm s k op r) := by
  unfold finishOfdm
  try dsimp -proj only
  repeat' (first | (with_reducible first | assumption | refine To.ite ?_ ?_ | refine putOuts_to ?_ ?_ | refine addCnt_to ?_ ?_ | refine setEvt_to ?_ ?_ | refine setOfdm_to ?_ ?_ | refine setRegI_to ?_ ?_ | refine endOfdm_to ?_ ?_ | refine To.foldl _ (fun _ _ _ => ?_) ?_ | refine To.foldl_fst _ (fun _ _ _ => ?_) ?_) | exact To.sub hT (by decide) | refine To.fst (by assumption) ?_ | refine To.snd (by assumption) ?_ | split | dsimp -proj only | (intro _; intros))

theorem ofdmOpDoneSt_to {s : State} {k : Nat} {i : Nat} (hT : T ||| 68362482 = T) (hS : To T s0 s) :
    To T s0 (ofdmOpDoneSt k i s) := by
  unfold ofdmOpDoneSt
  try dsimp -proj only
  repeat' (first | (with_reducible first | assumption | refine To.ite ?_ ?_ | refine captureAt_to ?_ ?_ | refine setEvt_to ?_ ?_ | refine setOfdm_to ?_ ?_ | refine failOfdm_to ?_ ?_ | refine runOfdm_to ?_ | refine ownErr_to ?_ ?_ | refine Ring.push_to ?_ ?_ | refine putOuts_to ?_ ?_ | refine finishOfdm_to ?_ ?_ | refine Rd.ok (by assumption) ?_ ?_ | refine Rd.error (by assumption) ?_ ?_ | exact Rd.pure _ | exact Rd.throw _ | refine Rd.bind ?_ (fun _ => ?_) | refine Rd.mapM _ (fun _ => ?_)) | exact To.sub hT (by decide) | refine To.fst (by assumption) ?_ | refine To.snd (by assumption) ?_ | split | dsimp -proj only)

theorem peerMissingSt_to {s : State} {k : Nat} {i : Nat} {sym : Nat} (hT : T ||| 68157442 = T) (hS : To T s0 s) :
    To T s0 (peerMissingSt k i sym s) := by
  unfold peerMissingSt
  try dsimp -proj only
  repeat' (first | (with_reducible first | assumption | refine To.ite ?_ ?_ | refine ownErr_to ?_ ?_ | refine setEvt_to ?_ ?_ | refine setOfdm_to ?_ ?_) | exact To.sub hT (by decide) | refine To.fst (by assumption) ?_ | refine To.snd (by assumption) ?_ | split | dsimp -proj only | (intro _; intros))

theorem ofdmFire_to {s : State} {kind : Nat} {f : FireRec} (hT : T ||| 17592254410994 = T) (hS : To T s0 s) :
    To T s0 (ofdmFire kind f s) := by
  unfold ofdmFire
  try dsimp -proj only
  repeat' (first | (with_reducible first | assumption | refine To.ite ?_ ?_ | refine fireRow_to ?_ ?_ ?_ | refine ofdmStart_to ?_ ?_) | exact To.sub hT (by decide) | refine To.fst (by assumption) ?_ | refine To.snd (by assumption) ?_ | split | dsimp -proj only | (intro _; intros))

theorem execFftRx_to {s : State} {f : FireRec} (hT : T ||| 17592254410994 = T) (hS : To T s0 s) :
    Out T s0 (execFftRx f s) := by
  unfold execFftRx
  repeat' (first | (with_reducible first | assumption | refine To.ite ?_ ?_ | refine ofdmFire_to ?_ ?_ | refine Out.next ?_) | exact To.sub hT (by decide) | refine To.fst (by assumption) ?_ | refine To.snd (by assumption) ?_ | split)

theorem execIfftTx_to {s : State} {f : FireRec} (hT : T ||| 17592254410994 = T) (hS : To T s0 s) :
    Out T s0 (execIfftTx f s) := by
  unfold execIfftTx
  repeat' (first | (with_reducible first | assumption | refine To.ite ?_ ?_ | refine ofdmFire_to ?_ ?_ | refine Out.next ?_) | exact To.sub hT (by decide) | refine To.fst (by assumption) ?_ | refine To.snd (by assumption) ?_ | split)

theorem execCe_to {s : State} {f : FireRec} (hT : T ||| 17592254410994 = T) (hS : To T s0 s) :
    Out T s0 (execCe f s) := by
  unfold execCe
  repeat' (first | (with_reducible first | assumption | refine To.ite ?_ ?_ | refine ofdmFire_to ?_ ?_ | refine Out.next ?_) | exact To.sub hT (by decide) | refine To.fst (by assumption) ?_ | refine To.snd (by assumption) ?_ | split)

theorem execEq_to {s : State} {f : FireRec} (hT : T ||| 17592254410994 = T) (hS : To T s0 s) :
    Out T s0 (execEq f s) := by
  unfold execEq
  repeat' (first | (with_reducible first | assumption | refine To.ite ?_ ?_ | refine ofdmFire_to ?_ ?_ | refine Out.next ?_) | exact To.sub hT (by decide) | refine To.fst (by assumption) ?_ | refine To.snd (by assumption) ?_ | split)

theorem execNf_to {s : State} {f : FireRec} (hT : T ||| 17592254410994 = T) (hS : To T s0 s) :
    Out T s0 (execNf f s) := by
  unfold execNf
  repeat' (first | (with_reducible first | assumption | refine To.ite ?_ ?_ | refine ofdmFire_to ?_ ?_ | refine Out.next ?_) | exact To.sub hT (by decide) | refine To.fst (by assumption) ?_ | refine To.snd (by assumption) ?_ | split)

theorem execPrach_to {s : State} {f : FireRec} (hT : T ||| 17592254410994 = T) (hS : To T s0 s) :
    Out T s0 (execPrach f s) := by
  unfold execPrach
  repeat' (first | (with_reducible first | assumption | refine To.ite ?_ ?_ | refine ofdmFire_to ?_ ?_ | refine Out.next ?_) | exact To.sub hT (by decide) | refine To.fst (by assumption) ?_ | refine To.snd (by assumption) ?_ | split)

theorem execTxMap_to {s : State} {f : FireRec} (hT : T ||| 17592254410994 = T) (hS : To T s0 s) :
    Out T s0 (execTxMap f s) := by
  unfold execTxMap
  repeat' (first | (with_reducible first | assumption | refine To.ite ?_ ?_ | refine ofdmFire_to ?_ ?_ | refine Out.next ?_) | exact To.sub hT (by decide) | refine To.fst (by assumption) ?_ | refine To.snd (by assumption) ?_ | split)

theorem execOfdmOpDone_to {s : State} {k : Fin 4} {i : Nat} (hT : T ||| 68362482 = T) (hS : To T s0 s) :
    Out T s0 (execOfdmOpDone k i s) := by
  unfold execOfdmOpDone
  try dsimp -proj only
  repeat' (first | (with_reducible first | assumption | refine To.ite ?_ ?_ | refine whileRuns_to ?_ ?_ ?_ | refine dramHold_to ?_ ?_ | refine ofdmOpDoneSt_to ?_ ?_ | refine Out.next ?_) | exact To.sub hT (by decide) | refine To.fst (by assumption) ?_ | refine To.snd (by assumption) ?_ | split | dsimp -proj only | (intro _; intros))

theorem execPeerMissing_to {s : State} {k : Fin 4} {i : Nat} {sym : Fin 14} (hT : T ||| 68157442 = T) (hS : To T s0 s) :
    Out T s0 (execPeerMissing k i sym s) := by
  unfold execPeerMissing
  repeat' (first | (with_reducible first | assumption | refine To.ite ?_ ?_ | refine whileRuns_to ?_ ?_ ?_ | refine peerMissingSt_to ?_ ?_ | refine Out.next ?_) | exact To.sub hT (by decide) | refine To.fst (by assumption) ?_ | refine To.snd (by assumption) ?_ | split | (intro _; intros))

theorem execCarrEnable_to {s : State} {a : Acc} {k : Fin 4} {v : Word} (hT : T ||| 1048594 = T) (hS : To T s0 s) :
    Out T s0 (execCarrEnable a k v s) := by
  unfold execCarrEnable
  repeat' (first | (with_reducible first | assumption | refine To.ite ?_ ?_ | refine onPage_to ?_ ?_ ?_ | refine carrEnableSt_to ?_ ?_ | refine Out.next ?_) | exact To.sub hT (by decide) | refine To.fst (by assumption) ?_ | refine To.snd (by assumption) ?_ | split | (intro _; intros))

theorem execSmoothDataWrite_to {s : State} {a : Acc} {k : Fin 4} {v : Word} (hT : T ||| 1048594 = T) (hS : To T s0 s) :
    Out T s0 (execSmoothDataWrite a k v s) := by
  unfold execSmoothDataWrite
  repeat' (first | (with_reducible first | assumption | refine To.ite ?_ ?_ | refine onPage_to ?_ ?_ ?_ | refine smoothWriteSt_to ?_ ?_ | refine Out.next ?_) | exact To.sub hT (by decide) | refine To.fst (by assumption) ?_ | refine To.snd (by assumption) ?_ | split | (intro _; intros))

theorem ofdmDrop_to {s : State} {k : Nat} (hT : T ||| 68362482 = T) (hS : To T s0 s) :
    To T s0 (ofdmDrop s k) := by
  unfold ofdmDrop
  try dsimp -proj only
  repeat' (first | (with_reducible first | assumption | refine To.ite ?_ ?_ | refine endOfdm_to ?_ ?_ | refine setOfdm_to ?_ ?_ | refine To.foldl _ (fun _ _ _ => ?_) ?_ | refine To.foldl_fst _ (fun _ _ _ => ?_) ?_) | exact To.sub hT (by decide) | refine To.fst (by assumption) ?_ | refine To.snd (by assumption) ?_ | split | dsimp -proj only | (intro _; intros))

end Sys2Proof.Machine
end

