-- ==== Sys2Proof/Laws/ToPrism.lean ====
section
/-! SUPPORT. The frames of the operations and meanings of Prism: what each may change. -/

namespace Sys2Proof.Machine

variable {T : Nat} {s0 : State}

theorem setPrism_to {s : State} {x : PrismSt} (hT : T ||| 268435456 = T) (hS : To T s0 s) :
    To T s0 (setPrism s x) := by
  unfold setPrism
  repeat' (first | (with_reducible first | assumption | refine To.ite ?_ ?_) | exact To.sub hT (by decide) | refine To.fst (by assumption) ?_ | refine To.snd (by assumption) ?_ | split | with_reducible first | refine To.set_prism ?_ ?_)

theorem setTap_to {s : State} {k : Nat} {t : TapSt} (hT : T ||| 268435456 = T) (hS : To T s0 s) :
    To T s0 (setTap s k t) := by
  unfold setTap
  repeat' (first | (with_reducible first | assumption | refine To.ite ?_ ?_ | refine setPrism_to ?_ ?_) | exact To.sub hT (by decide) | refine To.fst (by assumption) ?_ | refine To.snd (by assumption) ?_ | split)

theorem setDet_to {s : State} {d : Nat} {off : Nat} {v : Word} (hT : T ||| 2 = T) (hS : To T s0 s) :
    To T s0 (setDet s d off v) := by
  unfold setDet
  repeat' (first | (with_reducible first | assumption | refine To.ite ?_ ?_ | refine setReg_to ?_ ?_) | exact To.sub hT (by decide) | refine To.fst (by assumption) ?_ | refine To.snd (by assumption) ?_ | split)

theorem detCount_to {s : State} {d : Nat} {off : Nat} (hT : T ||| 2 = T) (hS : To T s0 s) :
    To T s0 (detCount s d off) := by
  unfold detCount
  repeat' (first | (with_reducible first | assumption | refine To.ite ?_ ?_ | refine setDet_to ?_ ?_) | exact To.sub hT (by decide) | refine To.fst (by assumption) ?_ | refine To.snd (by assumption) ?_ | split)

theorem specPush_to {s : State} {d : List Byte} (hT : T ||| 1253618 = T) (hS : To T s0 s) :
    To T s0 (specPush s d).1 := by
  unfold specPush
  try dsimp -proj only
  repeat' (first | (with_reducible first | assumption | refine To.ite ?_ ?_ | refine memPut_to ?_ ?_ | refine setReg_to ?_ ?_) | exact To.sub hT (by decide) | refine To.fst (by assumption) ?_ | refine To.snd (by assumption) ?_ | split | dsimp -proj only)

theorem setDetSt_to {s : State} {d : Nat} {x : DetSt} (hT : T ||| 268435456 = T) (hS : To T s0 s) :
    To T s0 (setDetSt s d x) := by
  unfold setDetSt
  repeat' (first | (with_reducible first | assumption | refine To.ite ?_ ?_ | refine setPrism_to ?_ ?_) | exact To.sub hT (by decide) | refine To.fst (by assumption) ?_ | refine To.snd (by assumption) ?_ | split)

theorem putDetRecord_to {s : State} {d : List Byte} (hT : T ||| 1253618 = T) (hS : To T s0 s) :
    To T s0 (putDetRecord s d).1 := by
  unfold putDetRecord
  repeat' (first | (with_reducible first | assumption | refine To.ite ?_ ?_ | refine setEvt_to ?_ ?_ | refine incCnt_to ?_ ?_ | refine Ring.push_to ?_ ?_) | exact To.sub hT (by decide) | refine To.fst (by assumption) ?_ | refine To.snd (by assumption) ?_ | split)

theorem freeBuffer_to {s : State} {b : Nat} (hT : T ||| 268435456 = T) (hS : To T s0 s) :
    To T s0 (freeBuffer s b) := by
  unfold freeBuffer
  try dsimp -proj only
  repeat' (first | (with_reducible first | assumption | refine To.ite ?_ ?_ | refine setPrism_to ?_ ?_) | exact To.sub hT (by decide) | refine To.fst (by assumption) ?_ | refine To.snd (by assumption) ?_ | split | dsimp -proj only | (intro _; intros))

theorem prismDone_to {s : State} {f : FireRec} (hT : T ||| 65536 = T) (hS : To T s0 s) :
    To T s0 (prismDone s f) := by
  unfold prismDone
  repeat' (first | (with_reducible first | assumption | refine To.ite ?_ ?_ | refine complete_to ?_ ?_) | exact To.sub hT (by decide) | refine To.fst (by assumption) ?_ | refine To.snd (by assumption) ?_ | split)

theorem writeSamples_to {s : State} {c : Capture} {n : Nat} (hT : T ||| 1253618 = T) (hS : To T s0 s) :
    To T s0 (writeSamples s c n) := by
  unfold writeSamples
  try dsimp -proj only
  repeat' (first | (with_reducible first | assumption | refine To.ite ?_ ?_ | refine memPut_to ?_ ?_) | exact To.sub hT (by decide) | refine To.fst (by assumption) ?_ | refine To.snd (by assumption) ?_ | split | dsimp -proj only | (intro _; intros))

theorem closeCapture_to {s : State} {c : Capture} {status : Nat} {n : Nat} {link : Nat} (hT : T ||| 269689074 = T) (hS : To T s0 s) :
    To T s0 (closeCapture s c status n link) := by
  unfold closeCapture
  try dsimp -proj only
  repeat' (first | (with_reducible first | assumption | refine To.ite ?_ ?_ | refine writeSamples_to ?_ ?_ | refine setPrism_to ?_ ?_ | refine putDetRecord_to ?_ ?_ | refine freeBuffer_to ?_ ?_ | refine prismDone_to ?_ ?_) | exact To.sub hT (by decide) | refine To.fst (by assumption) ?_ | refine To.snd (by assumption) ?_ | split | dsimp -proj only | (intro _; intros))

theorem startCapture_to {s : State} {c : Capture} (hT : T ||| 268435456 = T) (hS : To T s0 s) :
    To T s0 (startCapture s c) := by
  unfold startCapture
  repeat' (first | (with_reducible first | assumption | refine To.ite ?_ ?_ | refine setPrism_to ?_ ?_) | exact To.sub hT (by decide) | refine To.fst (by assumption) ?_ | refine To.snd (by assumption) ?_ | split)

theorem noCapture_to {s : State} {c : Capture} {status : Nat} {link : Nat} (hT : T ||| 1253618 = T) (hS : To T s0 s) :
    To T s0 (noCapture s c status link) := by
  unfold noCapture
  repeat' (first | (with_reducible first | assumption | refine To.ite ?_ ?_ | refine putDetRecord_to ?_ ?_) | exact To.sub hT (by decide) | refine To.fst (by assumption) ?_ | refine To.snd (by assumption) ?_ | split)

theorem contend_to {s : State} {c : Capture} (hT : T ||| 269689074 = T) (hS : To T s0 s) :
    To T s0 (contend s c) := by
  unfold contend
  try dsimp -proj only
  repeat' (first | (with_reducible first | assumption | refine To.ite ?_ ?_ | refine noCapture_to ?_ ?_ | refine setEvt_to ?_ ?_ | refine incCnt_to ?_ ?_ | refine prismDone_to ?_ ?_ | refine detCount_to ?_ ?_ | refine closeCapture_to ?_ ?_ | refine startCapture_to ?_ ?_ | refine setPrism_to ?_ ?_) | exact To.sub hT (by decide) | refine To.fst (by assumption) ?_ | refine To.snd (by assumption) ?_ | split | dsimp -proj only | (intro _; intros))

theorem detStoreUe_to {s : State} {d : Nat} (hT : T ||| 269689074 = T) (hS : To T s0 s) :
    To T s0 (detStoreUe s d) := by
  unfold detStoreUe
  try dsimp -proj only
  repeat' (first | (with_reducible first | assumption | refine To.ite ?_ ?_ | refine ownErr_to ?_ ?_ | refine closeCapture_to ?_ ?_ | refine setDetSt_to ?_ ?_) | exact To.sub hT (by decide) | refine To.fst (by assumption) ?_ | refine To.snd (by assumption) ?_ | split | dsimp -proj only | (intro _; intros))

theorem detectionSt_to {s : State} {ues : List Nat} (hT : T ||| 269689074 = T) (hS : To T s0 s) :
    To T s0 (detectionSt ues s) := by
  unfold detectionSt
  try dsimp -proj only
  repeat' (first | (with_reducible first | assumption | refine To.ite ?_ ?_ | refine detStoreUe_to ?_ ?_ | refine setPrism_to ?_ ?_ | refine detCount_to ?_ ?_ | refine incCnt_to ?_ ?_ | refine contend_to ?_ ?_ | refine noCapture_to ?_ ?_ | refine To.foldl _ (fun _ _ _ => ?_) ?_ | refine To.foldl_fst _ (fun _ _ _ => ?_) ?_) | exact To.sub hT (by decide) | refine To.fst (by assumption) ?_ | refine To.snd (by assumption) ?_ | split | dsimp -proj only | (intro _; intros))

theorem confEndSt_to {s : State} {d : Nat} (hT : T ||| 269689074 = T) (hS : To T s0 s) :
    To T s0 (confEndSt d s) := by
  unfold confEndSt
  try dsimp -proj only
  repeat' (first | (with_reducible first | assumption | refine To.ite ?_ ?_ | refine setPrism_to ?_ ?_ | refine setEvt_to ?_ ?_ | refine detCount_to ?_ ?_ | refine incCnt_to ?_ ?_ | refine closeCapture_to ?_ ?_) | exact To.sub hT (by decide) | refine To.fst (by assumption) ?_ | refine To.snd (by assumption) ?_ | split | dsimp -proj only | (intro _; intros))

theorem captureDoneSt_to {s : State} {d : Nat} (hT : T ||| 269689074 = T) (hS : To T s0 s) :
    To T s0 (captureDoneSt d s) := by
  unfold captureDoneSt
  try dsimp -proj only
  repeat' (first | (with_reducible first | assumption | refine To.ite ?_ ?_ | refine closeCapture_to ?_ ?_ | refine incCnt_to ?_ ?_) | exact To.sub hT (by decide) | refine To.fst (by assumption) ?_ | refine To.snd (by assumption) ?_ | split | dsimp -proj only | (intro _; intros))

theorem declare_to {s : State} {d : Nat} {r : DetRun} (hT : T ||| 268435456 = T) (hS : To T s0 s) :
    To T s0 (declare s d r) := by
  unfold declare
  repeat' (first | (with_reducible first | assumption | refine To.ite ?_ ?_ | refine setPrism_to ?_ ?_) | exact To.sub hT (by decide) | refine To.fst (by assumption) ?_ | refine To.snd (by assumption) ?_ | split)

theorem detSample_to {s : State} {d : Nat} {y : DetSample} (hT : T ||| 268435456 = T) (hS : To T s0 s) :
    To T s0 (detSample d y s) := by
  unfold detSample
  try dsimp -proj only
  repeat' (first | (with_reducible first | assumption | refine To.ite ?_ ?_ | refine setDetSt_to ?_ ?_ | refine declare_to ?_ ?_) | exact To.sub hT (by decide) | refine To.fst (by assumption) ?_ | refine To.snd (by assumption) ?_ | split | dsimp -proj only)

theorem detTick_to {s : State} {d : Nat} (hT : T ||| 268435456 = T) (hS : To T s0 s) :
    To T s0 (detTick s d) := by
  unfold detTick
  try dsimp -proj only
  repeat' (first | (with_reducible first | assumption | refine To.ite ?_ ?_ | refine setDetSt_to ?_ ?_ | refine detSample_to ?_ ?_) | exact To.sub hT (by decide) | refine To.fst (by assumption) ?_ | refine To.snd (by assumption) ?_ | split | dsimp -proj only | (intro _; intros))

theorem bufReleaseSt_to {s : State} {v : Word} (hT : T ||| 268435456 = T) (hS : To T s0 s) :
    To T s0 (bufReleaseSt v s) := by
  unfold bufReleaseSt
  try dsimp -proj only
  repeat' (first | (with_reducible first | assumption | refine To.ite ?_ ?_ | refine freeBuffer_to ?_ ?_) | exact To.sub hT (by decide) | refine To.fst (by assumption) ?_ | refine To.snd (by assumption) ?_ | split | dsimp -proj only | (intro _; intros))

theorem detEnableSt_to {s : State} {d : Nat} {v : Word} (hT : T ||| 269623378 = T) (hS : To T s0 s) :
    To T s0 (detEnableSt d v s) := by
  unfold detEnableSt
  try dsimp -proj only
  repeat' (first | (with_reducible first | assumption | refine To.ite ?_ ?_ | refine setEvt_to ?_ ?_ | refine setDet_to ?_ ?_ | refine ownErr_to ?_ ?_ | refine memRead_to ?_ ?_ | refine setPrism_to ?_ ?_ | refine setDetSt_to ?_ ?_) | exact To.sub hT (by decide) | refine To.fst (by assumption) ?_ | refine To.snd (by assumption) ?_ | split | dsimp -proj only)

theorem detOffSt_to {s : State} {d : Nat} {v : Word} (hT : T ||| 2 = T) (hS : To T s0 s) :
    To T s0 (detOffSt d v s) := by
  unfold detOffSt
  try dsimp -proj only
  repeat' (first | (with_reducible first | assumption | refine To.ite ?_ ?_ | refine setEvt_to ?_ ?_ | refine setDet_to ?_ ?_) | exact To.sub hT (by decide) | refine To.fst (by assumption) ?_ | refine To.snd (by assumption) ?_ | split | dsimp -proj only)

theorem setStrm_to {s : State} {n : Nat} {x : StrmSt} (hT : T ||| 268435456 = T) (hS : To T s0 s) :
    To T s0 (setStrm s n x) := by
  unfold setStrm
  repeat' (first | (with_reducible first | assumption | refine To.ite ?_ ?_ | refine setPrism_to ?_ ?_) | exact To.sub hT (by decide) | refine To.fst (by assumption) ?_ | refine To.snd (by assumption) ?_ | split)

theorem frameChan_to {s : State} {k : Nat} {at_ : Int} {x : Nat × Nat} (hT : T ||| 268435472 = T) (hS : To T s0 s) :
    To T s0 (frameChan k at_ s x) := by
  unfold frameChan
  try dsimp -proj only
  repeat' (first | (with_reducible first | assumption | refine To.ite ?_ ?_ | refine setTap_to ?_ ?_ | refine setStrm_to ?_ ?_ | refine incCnt_to ?_ ?_) | exact To.sub hT (by decide) | refine To.fst (by assumption) ?_ | refine To.snd (by assumption) ?_ | split | dsimp -proj only | (intro _; intros))

theorem chanUe_to {s : State} {k : Nat} {j : Nat} (hT : T ||| 269484034 = T) (hS : To T s0 s) :
    To T s0 (chanUe s k j) := by
  unfold chanUe
  try dsimp -proj only
  repeat' (first | (with_reducible first | assumption | refine To.ite ?_ ?_ | refine ownErr_to ?_ ?_ | refine setTap_to ?_ ?_ | refine setStrm_to ?_ ?_) | exact To.sub hT (by decide) | refine To.fst (by assumption) ?_ | refine To.snd (by assumption) ?_ | split | dsimp -proj only)

theorem frameEndSt_to {s : State} {k : Nat} {bad : Bool} {j : Nat} (hT : T ||| 269484050 = T) (hS : To T s0 s) :
    To T s0 (frameEndSt k bad j s) := by
  unfold frameEndSt
  try dsimp -proj only
  repeat' (first | (with_reducible first | assumption | refine To.ite ?_ ?_ | refine setTap_to ?_ ?_ | refine chanUe_to ?_ ?_ | refine frameChan_to ?_ ?_ | refine To.foldl _ (fun _ _ _ => ?_) ?_ | refine To.foldl_fst _ (fun _ _ _ => ?_) ?_) | exact To.sub hT (by decide) | refine To.fst (by assumption) ?_ | refine To.snd (by assumption) ?_ | split | dsimp -proj only | (intro _; intros))

theorem putSpec_to {s : State} {k : Nat} {j : Nat} {str : Nat} {obs : Bool} (hT : T ||| 269689074 = T) (hS : To T s0 s) :
    To T s0 (putSpec k j str s obs) := by
  unfold putSpec
  try dsimp -proj only
  repeat' (first | (with_reducible first | assumption | refine To.ite ?_ ?_ | refine specPush_to ?_ ?_ | refine setTap_to ?_ ?_ | refine incCnt_to ?_ ?_ | refine setEvt_to ?_ ?_) | exact To.sub hT (by decide) | refine To.fst (by assumption) ?_ | refine To.snd (by assumption) ?_ | split | dsimp -proj only)

theorem truncateLeaving_to {s : State} {k : Nat} {old : Dword} {new : Dword} (hT : T ||| 269689074 = T) (hS : To T s0 s) :
    To T s0 (truncateLeaving s k old new) := by
  unfold truncateLeaving
  try dsimp -proj only
  repeat' (first | (with_reducible first | assumption | refine To.ite ?_ ?_ | refine closeCapture_to ?_ ?_ | refine To.foldl _ (fun _ _ _ => ?_) ?_ | refine To.foldl_fst _ (fun _ _ _ => ?_) ?_) | exact To.sub hT (by decide) | refine To.fst (by assumption) ?_ | refine To.snd (by assumption) ?_ | split | dsimp -proj only | (intro _; intros))

theorem switchTap_to {s : State} {k : Nat} {new : Dword} {ue : Option (Fin 64)} (hT : T ||| 269689074 = T) (hS : To T s0 s) :
    To T s0 (switchTap s k new ue) := by
  unfold switchTap
  try dsimp -proj only
  repeat' (first | (with_reducible first | assumption | refine To.ite ?_ ?_ | refine truncateLeaving_to ?_ ?_ | refine setTap_to ?_ ?_ | refine setStrm_to ?_ ?_ | refine ownErr_to ?_ ?_ | refine To.foldl _ (fun _ _ _ => ?_) ?_ | refine To.foldl_fst _ (fun _ _ _ => ?_) ?_) | exact To.sub hT (by decide) | refine To.fst (by assumption) ?_ | refine To.snd (by assumption) ?_ | split | dsimp -proj only | (intro _; intros))

theorem serveClose_to {s : State} {k : Nat} (hT : T ||| 268500992 = T) (hS : To T s0 s) :
    To T s0 (serveClose s k) := by
  unfold serveClose
  try dsimp -proj only
  repeat' (first | (with_reducible first | assumption | refine To.ite ?_ ?_ | refine setPrism_to ?_ ?_ | refine prismDone_to ?_ ?_ | refine To.foldl _ (fun _ _ _ => ?_) ?_ | refine To.foldl_fst _ (fun _ _ _ => ?_) ?_) | exact To.sub hT (by decide) | refine To.fst (by assumption) ?_ | refine To.snd (by assumption) ?_ | split | dsimp -proj only | (intro _; intros))

theorem integrationEndSt_to {s : State} {k : Nat} {ue : Option (Fin 64)} (hT : T ||| 269689074 = T) (hS : To T s0 s) :
    To T s0 (integrationEndSt k ue s) := by
  unfold integrationEndSt
  try dsimp -proj only
  repeat' (first | (with_reducible first | assumption | refine To.ite ?_ ?_ | refine putSpec_to ?_ ?_ | refine setTap_to ?_ ?_ | refine setStrm_to ?_ ?_ | refine switchTap_to ?_ ?_ | refine serveClose_to ?_ ?_ | refine To.foldl _ (fun _ _ _ => ?_) ?_ | refine To.foldl_fst _ (fun _ _ _ => ?_) ?_) | exact To.sub hT (by decide) | refine To.fst (by assumption) ?_ | refine To.snd (by assumption) ?_ | split | dsimp -proj only | (intro _; intros))

theorem tapSetSt_to {s : State} {a : Acc} {k : Nat} {i : Nat} {hi : Bool} {v : Word} (hT : T ||| 1048586 = T) (hS : To T s0 s) :
    To T s0 (tapSetSt a k i hi v s) := by
  unfold tapSetSt
  try dsimp -proj only
  repeat' (first | (with_reducible first | assumption | refine To.ite ?_ ?_ | refine holdLo_to ?_ ?_ | refine takeLo_to ?_ ?_ | refine ownErr_to ?_ ?_ | refine setReg_to ?_ ?_) | exact To.sub hT (by decide) | refine To.fst (by assumption) ?_ | refine To.snd (by assumption) ?_ | split | dsimp -proj only)

theorem tapCfgSt_to {s : State} {k : Nat} {v : Word} (hT : T ||| 268435458 = T) (hS : To T s0 s) :
    To T s0 (tapCfgSt k v s) := by
  unfold tapCfgSt
  try dsimp -proj only
  repeat' (first | (with_reducible first | assumption | refine To.ite ?_ ?_ | refine setReg_to ?_ ?_ | refine setTap_to ?_ ?_) | exact To.sub hT (by decide) | refine To.fst (by assumption) ?_ | refine To.snd (by assumption) ?_ | split | dsimp -proj only)

theorem maxhClrSt_to {s : State} {k : Nat} {v : Word} (hT : T ||| 268435456 = T) (hS : To T s0 s) :
    To T s0 (maxhClrSt k v s) := by
  unfold maxhClrSt
  try dsimp -proj only
  repeat' (first | (with_reducible first | assumption | refine To.ite ?_ ?_ | refine setStrm_to ?_ ?_ | refine To.foldl _ (fun _ _ _ => ?_) ?_ | refine To.foldl_fst _ (fun _ _ _ => ?_) ?_) | exact To.sub hT (by decide) | refine To.fst (by assumption) ?_ | refine To.snd (by assumption) ?_ | split | dsimp -proj only | (intro _; intros))

theorem prismLate_to {s : State} {f : FireRec} (hT : T ||| 65538 = T) (hS : To T s0 s) :
    To T s0 (prismLate s f) := by
  unfold prismLate
  repeat' (first | (with_reducible first | assumption | refine To.ite ?_ ?_ | refine failFire_to ?_ ?_ | refine setEvt_to ?_ ?_) | exact To.sub hT (by decide) | refine To.fst (by assumption) ?_ | refine To.snd (by assumption) ?_ | split)

theorem idleStart_to {s : State} {f : FireRec} (hT : T ||| 268500994 = T) (hS : To T s0 s) :
    To T s0 (idleStart f s) := by
  unfold idleStart
  try dsimp -proj only
  repeat' (first | (with_reducible first | assumption | refine To.ite ?_ ?_ | refine failFire_to ?_ ?_ | refine prismLate_to ?_ ?_ | refine setPrism_to ?_ ?_) | exact To.sub hT (by decide) | refine To.fst (by assumption) ?_ | refine To.snd (by assumption) ?_ | split | dsimp -proj only)

theorem idleEndSt_to {s : State} {i : Nat} (hT : T ||| 268500992 = T) (hS : To T s0 s) :
    To T s0 (idleEndSt i s) := by
  unfold idleEndSt
  repeat' (first | (with_reducible first | assumption | refine To.ite ?_ ?_ | refine prismDone_to ?_ ?_ | refine setPrism_to ?_ ?_) | exact To.sub hT (by decide) | refine To.fst (by assumption) ?_ | refine To.snd (by assumption) ?_ | split)

theorem forceStart_to {s : State} {f : FireRec} (hT : T ||| 269689074 = T) (hS : To T s0 s) :
    To T s0 (forceStart f s) := by
  unfold forceStart
  try dsimp -proj only
  repeat' (first | (with_reducible first | assumption | refine To.ite ?_ ?_ | refine failFire_to ?_ ?_ | refine prismLate_to ?_ ?_ | refine contend_to ?_ ?_ | refine setPrism_to ?_ ?_) | exact To.sub hT (by decide) | refine To.fst (by assumption) ?_ | refine To.snd (by assumption) ?_ | split | dsimp -proj only)

theorem closeStart_to {s : State} {f : FireRec} (hT : T ||| 268500992 = T) (hS : To T s0 s) :
    To T s0 (closeStart f s) := by
  unfold closeStart
  try dsimp -proj only
  repeat' (first | (with_reducible first | assumption | refine To.ite ?_ ?_ | refine prismDone_to ?_ ?_ | refine setPrism_to ?_ ?_ | refine To.foldl _ (fun _ _ _ => ?_) ?_ | refine To.foldl_fst _ (fun _ _ _ => ?_) ?_) | exact To.sub hT (by decide) | refine To.fst (by assumption) ?_ | refine To.snd (by assumption) ?_ | split | dsimp -proj only | (intro _; intros))

theorem prismFire_to {s : State} {op : Nat} {start : FireRec → State → State} {f : FireRec} (hT : T ||| 17592186114048 = T) (hS : To T s0 s) (hstart : ∀ x0 s, To T s0 s → To T s0 (start x0 s)) :
    To T s0 (prismFire op start f s) := by
  unfold prismFire
  repeat' (first | (with_reducible first | assumption | refine To.ite ?_ ?_ | refine hstart _ _ ?_ | refine fireRow_to ?_ ?_ ?_) | exact To.sub hT (by decide) | refine To.fst (by assumption) ?_ | refine To.snd (by assumption) ?_ | split | (intro _; intros))

theorem setHaChan_to {s : State} {c : Nat} {x : HaChan} (hT : T ||| 268435456 = T) (hS : To T s0 s) :
    To T s0 (setHaChan s c x) := by
  unfold setHaChan
  repeat' (first | (with_reducible first | assumption | refine To.ite ?_ ?_ | refine setPrism_to ?_ ?_) | exact To.sub hT (by decide) | refine To.fst (by assumption) ?_ | refine To.snd (by assumption) ?_ | split)

theorem haTick_to {s : State} {k : Nat} {x : Nat × Nat} (hT : T ||| 268435456 = T) (hS : To T s0 s) :
    To T s0 (haTick k s x) := by
  unfold haTick
  try dsimp -proj only
  repeat' (first | (with_reducible first | assumption | refine To.ite ?_ ?_ | refine setHaChan_to ?_ ?_) | exact To.sub hT (by decide) | refine To.fst (by assumption) ?_ | refine To.snd (by assumption) ?_ | split | dsimp -proj only)

theorem haChunkSt_to {s : State} {k : Nat} {str : Nat} (hT : T ||| 269689074 = T) (hS : To T s0 s) :
    To T s0 (haChunkSt k str s) := by
  unfold haChunkSt
  try dsimp -proj only
  repeat' (first | (with_reducible first | assumption | refine To.ite ?_ ?_ | refine setHaChan_to ?_ ?_ | refine setPrism_to ?_ ?_ | refine setEvt_to ?_ ?_ | refine incCnt_to ?_ ?_ | refine bufPush_to ?_ ?_ | refine Ring.push_to ?_ ?_) | exact To.sub hT (by decide) | refine To.fst (by assumption) ?_ | refine To.snd (by assumption) ?_ | split | dsimp -proj only)

theorem prismTick_to {s : State} {k : Nat} (hT : T ||| 268435456 = T) (hS : To T s0 s) :
    To T s0 (prismTick k s) := by
  unfold prismTick
  try dsimp -proj only
  repeat' (first | (with_reducible first | assumption | refine To.ite ?_ ?_ | refine detTick_to ?_ ?_ | refine haTick_to ?_ ?_ | refine To.foldl _ (fun _ _ _ => ?_) ?_ | refine To.foldl_fst _ (fun _ _ _ => ?_) ?_) | exact To.sub hT (by decide) | refine To.fst (by assumption) ?_ | refine To.snd (by assumption) ?_ | split | dsimp -proj only | (intro _; intros))

theorem prismEnable_to {s : State} (hT : T ||| 269484034 = T) (hS : To T s0 s) :
    To T s0 (prismEnable s) := by
  unfold prismEnable
  try dsimp -proj only
  repeat' (first | (with_reducible first | assumption | refine To.ite ?_ ?_ | refine ownErr_to ?_ ?_ | refine setPrism_to ?_ ?_ | refine setTap_to ?_ ?_ | refine To.foldl _ (fun _ _ _ => ?_) ?_ | refine To.foldl_fst _ (fun _ _ _ => ?_) ?_) | exact To.sub hT (by decide) | refine To.fst (by assumption) ?_ | refine To.snd (by assumption) ?_ | split | dsimp -proj only | (intro _; intros))

theorem prismDisable_to {s : State} (hT : T ||| 269689074 = T) (hS : To T s0 s) :
    To T s0 (prismDisable s) := by
  unfold prismDisable
  try dsimp -proj only
  repeat' (first | (with_reducible first | assumption | refine To.ite ?_ ?_ | refine closeCapture_to ?_ ?_ | refine setTap_to ?_ ?_ | refine To.foldl _ (fun _ _ _ => ?_) ?_ | refine To.foldl_fst _ (fun _ _ _ => ?_) ?_) | exact To.sub hT (by decide) | refine To.fst (by assumption) ?_ | refine To.snd (by assumption) ?_ | split | dsimp -proj only | (intro _; intros))

theorem prismDrop_to {s : State} (hT : T ||| 268500992 = T) (hS : To T s0 s) :
    To T s0 (prismDrop s) := by
  unfold prismDrop
  try dsimp -proj only
  repeat' (first | (with_reducible first | assumption | refine To.ite ?_ ?_ | refine failFire_to ?_ ?_ | refine setPrism_to ?_ ?_ | refine To.foldl _ (fun _ _ _ => ?_) ?_ | refine To.foldl_fst _ (fun _ _ _ => ?_) ?_) | exact To.sub hT (by decide) | refine To.fst (by assumption) ?_ | refine To.snd (by assumption) ?_ | split | dsimp -proj only | (intro _; intros))

theorem execTapSetWrite_to {s : State} {a : Acc} {k : Fin 4} {i : Fin 4} {hi : Bool} {v : Word} (hT : T ||| 1048602 = T) (hS : To T s0 s) :
    Out T s0 (execTapSetWrite a k i hi v s) := by
  unfold execTapSetWrite
  repeat' (first | (with_reducible first | assumption | refine To.ite ?_ ?_ | refine onPage_to ?_ ?_ ?_ | refine tapSetSt_to ?_ ?_ | refine Out.next ?_) | exact To.sub hT (by decide) | refine To.fst (by assumption) ?_ | refine To.snd (by assumption) ?_ | split | (intro _; intros))

theorem execFrameEnd_to {s : State} {k : Fin 4} {bad : Bool} {j : Fin 32} (hT : T ||| 269484050 = T) (hS : To T s0 s) :
    Out T s0 (execFrameEnd k bad j s) := by
  unfold execFrameEnd
  repeat' (first | (with_reducible first | assumption | refine To.ite ?_ ?_ | refine whileRuns_to ?_ ?_ ?_ | refine frameEndSt_to ?_ ?_ | refine Out.next ?_) | exact To.sub hT (by decide) | refine To.fst (by assumption) ?_ | refine To.snd (by assumption) ?_ | split | (intro _; intros))

theorem execIntegrationEnd_to {s : State} {k : Fin 4} {ue : Option (Fin 64)} (hT : T ||| 269689074 = T) (hS : To T s0 s) :
    Out T s0 (execIntegrationEnd k ue s) := by
  unfold execIntegrationEnd
  repeat' (first | (with_reducible first | assumption | refine To.ite ?_ ?_ | refine whileRuns_to ?_ ?_ ?_ | refine integrationEndSt_to ?_ ?_ | refine Out.next ?_) | exact To.sub hT (by decide) | refine To.fst (by assumption) ?_ | refine To.snd (by assumption) ?_ | split | (intro _; intros))

theorem execTapCfgWrite_to {s : State} {a : Acc} {k : Fin 4} {v : Word} (hT : T ||| 269484050 = T) (hS : To T s0 s) :
    Out T s0 (execTapCfgWrite a k v s) := by
  unfold execTapCfgWrite
  repeat' (first | (with_reducible first | assumption | refine To.ite ?_ ?_ | refine onPage_to ?_ ?_ ?_ | refine tapCfgSt_to ?_ ?_ | refine Out.next ?_) | exact To.sub hT (by decide) | refine To.fst (by assumption) ?_ | refine To.snd (by assumption) ?_ | split | (intro _; intros))

theorem execMaxhClr_to {s : State} {a : Acc} {k : Fin 4} {v : Word} (hT : T ||| 269484050 = T) (hS : To T s0 s) :
    Out T s0 (execMaxhClr a k v s) := by
  unfold execMaxhClr
  repeat' (first | (with_reducible first | assumption | refine To.ite ?_ ?_ | refine onPage_to ?_ ?_ ?_ | refine maxhClrSt_to ?_ ?_ | refine Out.next ?_) | exact To.sub hT (by decide) | refine To.fst (by assumption) ?_ | refine To.snd (by assumption) ?_ | split | (intro _; intros))

theorem execDetEnable_to {s : State} {a : Acc} {d : Fin 64} {v : Word} (hT : T ||| 269623378 = T) (hS : To T s0 s) :
    Out T s0 (execDetEnable a d v s) := by
  unfold execDetEnable
  repeat' (first | (with_reducible first | assumption | refine To.ite ?_ ?_ | refine onPage_to ?_ ?_ ?_ | refine detEnableSt_to ?_ ?_ | refine Out.next ?_) | exact To.sub hT (by decide) | refine To.fst (by assumption) ?_ | refine To.snd (by assumption) ?_ | split | (intro _; intros))

theorem execDetection_to {s : State} {ues : List (Fin 64)} (hT : T ||| 269689074 = T) (hS : To T s0 s) :
    Out T s0 (execDetection ues s) := by
  unfold execDetection
  repeat' (first | (with_reducible first | assumption | refine To.ite ?_ ?_ | refine whileRuns_to ?_ ?_ ?_ | refine detectionSt_to ?_ ?_ | refine Out.next ?_) | exact To.sub hT (by decide) | refine To.fst (by assumption) ?_ | refine To.snd (by assumption) ?_ | split | (intro _; intros))

theorem execConfWindowEnd_to {s : State} {d : Fin 64} {ue : Bool} (hT : T ||| 269689074 = T) (hS : To T s0 s) :
    Out T s0 (execConfWindowEnd d ue s) := by
  unfold execConfWindowEnd
  try dsimp -proj only
  repeat' (first | (with_reducible first | assumption | refine To.ite ?_ ?_ | refine whileRuns_to ?_ ?_ ?_ | refine detStoreUe_to ?_ ?_ | refine confEndSt_to ?_ ?_ | refine Out.next ?_) | exact To.sub hT (by decide) | refine To.fst (by assumption) ?_ | refine To.snd (by assumption) ?_ | split | dsimp -proj only | (intro _; intros))

theorem execCaptureComplete_to {s : State} {d : Fin 64} (hT : T ||| 269689074 = T) (hS : To T s0 s) :
    Out T s0 (execCaptureComplete d s) := by
  unfold execCaptureComplete
  repeat' (first | (with_reducible first | assumption | refine To.ite ?_ ?_ | refine whileRuns_to ?_ ?_ ?_ | refine captureDoneSt_to ?_ ?_ | refine Out.next ?_) | exact To.sub hT (by decide) | refine To.fst (by assumption) ?_ | refine To.snd (by assumption) ?_ | split | (intro _; intros))

theorem execBufRelease_to {s : State} {a : Acc} {v : Word} (hT : T ||| 269484050 = T) (hS : To T s0 s) :
    Out T s0 (execBufRelease a v s) := by
  unfold execBufRelease
  repeat' (first | (with_reducible first | assumption | refine To.ite ?_ ?_ | refine onPage_to ?_ ?_ ?_ | refine bufReleaseSt_to ?_ ?_ | refine Out.next ?_) | exact To.sub hT (by decide) | refine To.fst (by assumption) ?_ | refine To.snd (by assumption) ?_ | split | (intro _; intros))

theorem execIdleWin_to {s : State} {f : FireRec} (hT : T ||| 17592454549506 = T) (hS : To T s0 s) :
    Out T s0 (execIdleWin f s) := by
  unfold execIdleWin
  repeat' (first | (with_reducible first | assumption | refine To.ite ?_ ?_ | refine prismFire_to ?_ ?_ ?_ | refine idleStart_to ?_ ?_ | refine Out.next ?_) | exact To.sub hT (by decide) | refine To.fst (by assumption) ?_ | refine To.snd (by assumption) ?_ | split | (intro _; intros))

theorem execIdleWinEnd_to {s : State} {i : Nat} (hT : T ||| 268500992 = T) (hS : To T s0 s) :
    Out T s0 (execIdleWinEnd i s) := by
  unfold execIdleWinEnd
  repeat' (first | (with_reducible first | assumption | refine To.ite ?_ ?_ | refine whileRuns_to ?_ ?_ ?_ | refine idleEndSt_to ?_ ?_ | refine Out.next ?_) | exact To.sub hT (by decide) | refine To.fst (by assumption) ?_ | refine To.snd (by assumption) ?_ | split | (intro _; intros))

theorem execForceCapture_to {s : State} {f : FireRec} (hT : T ||| 17592455737586 = T) (hS : To T s0 s) :
    Out T s0 (execForceCapture f s) := by
  unfold execForceCapture
  repeat' (first | (with_reducible first | assumption | refine To.ite ?_ ?_ | refine prismFire_to ?_ ?_ ?_ | refine forceStart_to ?_ ?_ | refine Out.next ?_) | exact To.sub hT (by decide) | refine To.fst (by assumption) ?_ | refine To.snd (by assumption) ?_ | split | (intro _; intros))

theorem execSpecClose_to {s : State} {f : FireRec} (hT : T ||| 17592454549504 = T) (hS : To T s0 s) :
    Out T s0 (execSpecClose f s) := by
  unfold execSpecClose
  repeat' (first | (with_reducible first | assumption | refine To.ite ?_ ?_ | refine prismFire_to ?_ ?_ ?_ | refine closeStart_to ?_ ?_ | refine Out.next ?_) | exact To.sub hT (by decide) | refine To.fst (by assumption) ?_ | refine To.snd (by assumption) ?_ | split | (intro _; intros))

theorem execHaChunk_to {s : State} {k : Fin 4} {q : Fin 8} {sl : Fin 8} (hT : T ||| 269689074 = T) (hS : To T s0 s) :
    Out T s0 (execHaChunk k q sl s) := by
  unfold execHaChunk
  repeat' (first | (with_reducible first | assumption | refine To.ite ?_ ?_ | refine whileRuns_to ?_ ?_ ?_ | refine haChunkSt_to ?_ ?_ | refine Out.next ?_) | exact To.sub hT (by decide) | refine To.fst (by assumption) ?_ | refine To.snd (by assumption) ?_ | split | (intro _; intros))

end Sys2Proof.Machine
end

