-- ==== Sys2Proof/Laws/ToTime.lean ====
section
/-! SUPPORT. The frames of the operations and meanings of Time: what each may change. -/

namespace Sys2Proof.Machine

variable {T : Nat} {s0 : State}

theorem modTime_to {s : State} {f : TimeSt → TimeSt} (hT : T ||| 16384 = T) (hS : To T s0 s) :
    To T s0 (modTime s f) := by
  unfold modTime
  repeat' (first | (with_reducible first | assumption | refine To.ite ?_ ?_) | exact To.sub hT (by decide) | refine To.fst (by assumption) ?_ | refine To.snd (by assumption) ?_ | split | with_reducible first | refine To.set_time ?_ ?_)

theorem timeTick_to {s : State} (hT : T ||| 16384 = T) (hS : To T s0 s) :
    To T s0 (timeTick s) := by
  unfold timeTick
  try dsimp -proj only
  repeat' (first | (with_reducible first | assumption | refine To.ite ?_ ?_ | refine modTime_to ?_ ?_) | exact To.sub hT (by decide) | refine To.fst (by assumption) ?_ | refine To.snd (by assumption) ?_ | split | dsimp -proj only | (intro _; intros))

theorem nowSecRead_to {s : State} {a : Acc} (hT : T ||| 4 = T) (hS : To T s0 s) :
    To T s0 (nowSecRead a s).2 := by
  unfold nowSecRead
  try dsimp -proj only
  repeat' (first | (with_reducible first | assumption | refine To.ite ?_ ?_ | refine setHold_to ?_ ?_) | exact To.sub hT (by decide) | refine To.fst (by assumption) ?_ | refine To.snd (by assumption) ?_ | split | dsimp -proj only)

theorem ppsSecRead_to {s : State} {a : Acc} (hT : T ||| 4 = T) (hS : To T s0 s) :
    To T s0 (ppsSecRead a s).2 := by
  unfold ppsSecRead
  repeat' (first | (with_reducible first | assumption | refine To.ite ?_ ?_ | refine setHold_to ?_ ?_) | exact To.sub hT (by decide) | refine To.fst (by assumption) ?_ | refine To.snd (by assumption) ?_ | split)

theorem ppsRearm_to {s : State} (hT : T ||| 16384 = T) (hS : To T s0 s) :
    To T s0 (ppsRearm s) := by
  unfold ppsRearm
  try dsimp -proj only
  repeat' (first | (with_reducible first | assumption | refine To.ite ?_ ?_ | refine modTime_to ?_ ?_) | exact To.sub hT (by decide) | refine To.fst (by assumption) ?_ | refine To.snd (by assumption) ?_ | split | dsimp -proj only | (intro _; intros))

theorem ppsOutCfg_to {s : State} {v : Word} (hT : T ||| 16386 = T) (hS : To T s0 s) :
    To T s0 (ppsOutCfg v s) := by
  unfold ppsOutCfg
  try dsimp -proj only
  repeat' (first | (with_reducible first | assumption | refine To.ite ?_ ?_ | refine setReg_to ?_ ?_ | refine ppsRearm_to ?_ ?_ | refine modTime_to ?_ ?_) | exact To.sub hT (by decide) | refine To.fst (by assumption) ?_ | refine To.snd (by assumption) ?_ | split | dsimp -proj only | (intro _; intros))

theorem ppsRiseSt_to {s : State} (hT : T ||| 16384 = T) (hS : To T s0 s) :
    To T s0 (ppsRiseSt s) := by
  unfold ppsRiseSt
  try dsimp -proj only
  repeat' (first | (with_reducible first | assumption | refine To.ite ?_ ?_ | refine modTime_to ?_ ?_) | exact To.sub hT (by decide) | refine To.fst (by assumption) ?_ | refine To.snd (by assumption) ?_ | split | dsimp -proj only | (intro _; intros))

theorem ppsFallSt_to {s : State} (hT : T ||| 16384 = T) (hS : To T s0 s) :
    To T s0 (ppsFallSt s) := by
  unfold ppsFallSt
  try dsimp -proj only
  repeat' (first | (with_reducible first | assumption | refine To.ite ?_ ?_ | refine modTime_to ?_ ?_) | exact To.sub hT (by decide) | refine To.fst (by assumption) ?_ | refine To.snd (by assumption) ?_ | split | dsimp -proj only | (intro _; intros))

theorem incrCommitSt_to {s : State} {a : Acc} {v : Word} (hT : T ||| 1048586 = T) (hS : To T s0 s) :
    To T s0 (incrCommitSt a v s) := by
  unfold incrCommitSt
  try dsimp -proj only
  repeat' (first | (with_reducible first | assumption | refine To.ite ?_ ?_ | refine takeLo_to ?_ ?_ | refine ownErr_to ?_ ?_ | refine setEvt_to ?_ ?_ | refine setReg_to ?_ ?_) | exact To.sub hT (by decide) | refine To.fst (by assumption) ?_ | refine To.snd (by assumption) ?_ | split | dsimp -proj only)

theorem timeStep_to {s : State} {off : Int} (hT : T ||| 16384 = T) (hS : To T s0 s) :
    To T s0 (timeStep off s) := by
  unfold timeStep
  try dsimp -proj only
  repeat' (first | (with_reducible first | assumption | refine To.ite ?_ ?_ | refine ppsRearm_to ?_ ?_ | refine modTime_to ?_ ?_) | exact To.sub hT (by decide) | refine To.fst (by assumption) ?_ | refine To.snd (by assumption) ?_ | split | dsimp -proj only | (intro _; intros))

theorem adjNsSt_to {s : State} {v : Word} (hT : T ||| 16384 = T) (hS : To T s0 s) :
    To T s0 (adjNsSt v s) := by
  unfold adjNsSt
  repeat' (first | (with_reducible first | assumption | refine To.ite ?_ ?_ | refine timeStep_to ?_ ?_) | exact To.sub hT (by decide) | refine To.fst (by assumption) ?_ | refine To.snd (by assumption) ?_ | split)

theorem setTc_to {s : State} {n : Nat} {off : Nat} {v : Word} (hT : T ||| 2 = T) (hS : To T s0 s) :
    To T s0 (setTc s n off v) := by
  unfold setTc
  repeat' (first | (with_reducible first | assumption | refine To.ite ?_ ?_ | refine setReg_to ?_ ?_) | exact To.sub hT (by decide) | refine To.fst (by assumption) ?_ | refine To.snd (by assumption) ?_ | split)

theorem tcLevel_to {s : State} (hT : T ||| 2 = T) (hS : To T s0 s) :
    To T s0 (tcLevel s) := by
  unfold tcLevel
  try dsimp -proj only
  repeat' (first | (with_reducible first | assumption | refine To.ite ?_ ?_ | refine modReg_to ?_ ?_) | exact To.sub hT (by decide) | refine To.fst (by assumption) ?_ | refine To.snd (by assumption) ?_ | split | dsimp -proj only | (intro _; intros))

theorem setGoSt_to {s : State} (hT : T ||| 16386 = T) (hS : To T s0 s) :
    To T s0 (setGoSt s) := by
  unfold setGoSt
  try dsimp -proj only
  repeat' (first | (with_reducible first | assumption | refine To.ite ?_ ?_ | refine setTc_to ?_ ?_ | refine timeStep_to ?_ ?_ | refine setEvt_to ?_ ?_ | refine modTime_to ?_ ?_ | refine To.foldl _ (fun _ _ _ => ?_) ?_ | refine To.foldl_fst _ (fun _ _ _ => ?_) ?_) | exact To.sub hT (by decide) | refine To.fst (by assumption) ?_ | refine To.snd (by assumption) ?_ | split | dsimp -proj only | (intro _; intros))

theorem tcCtrlWrite_to {s : State} {n : Nat} {v : Word} (hT : T ||| 1064962 = T) (hS : To T s0 s) :
    To T s0 (tcCtrlWrite n v s) := by
  unfold tcCtrlWrite
  try dsimp -proj only
  repeat' (first | (with_reducible first | assumption | refine To.ite ?_ ?_ | refine setEvt_to ?_ ?_ | refine modTime_to ?_ ?_ | refine tcLevel_to ?_ ?_ | refine setTc_to ?_ ?_ | refine ownErr_to ?_ ?_) | exact To.sub hT (by decide) | refine To.fst (by assumption) ?_ | refine To.snd (by assumption) ?_ | split | dsimp -proj only | (intro _; intros))

theorem tcHeldWrite_to {s : State} {n : Nat} {off : Nat} {v : Word} (hT : T ||| 2 = T) (hS : To T s0 s) :
    To T s0 (tcHeldWrite n off v s) := by
  unfold tcHeldWrite
  repeat' (first | (with_reducible first | assumption | refine To.ite ?_ ?_ | refine setEvt_to ?_ ?_ | refine setTc_to ?_ ?_) | exact To.sub hT (by decide) | refine To.fst (by assumption) ?_ | refine To.snd (by assumption) ?_ | split)

theorem snapTrigger_to {s : State} (hT : T ||| 16386 = T) (hS : To T s0 s) :
    To T s0 (snapTrigger s) := by
  unfold snapTrigger
  try dsimp -proj only
  repeat' (first | (with_reducible first | assumption | refine To.ite ?_ ?_ | refine setEvt_to ?_ ?_ | refine modTime_to ?_ ?_) | exact To.sub hT (by decide) | refine To.fst (by assumption) ?_ | refine To.snd (by assumption) ?_ | split | dsimp -proj only | (intro _; intros))

theorem tcNext_to {s : State} {n : Nat} (hT : T ||| 16402 = T) (hS : To T s0 s) :
    To T s0 (tcNext n s) := by
  unfold tcNext
  try dsimp -proj only
  repeat' (first | (with_reducible first | assumption | refine To.ite ?_ ?_ | refine modTime_to ?_ ?_ | refine setTc_to ?_ ?_ | refine setEvt_to ?_ ?_ | refine addCnt_to ?_ ?_) | exact To.sub hT (by decide) | refine To.fst (by assumption) ?_ | refine To.snd (by assumption) ?_ | split | dsimp -proj only | (intro _; intros))

theorem tcmpFireSt_to {s : State} {n : Nat} (hT : T ||| 17179983890 = T) (hS : To T s0 s) :
    To T s0 (tcmpFireSt n s) := by
  unfold tcmpFireSt
  try dsimp -proj only
  repeat' (first | (with_reducible first | assumption | refine To.ite ?_ ?_ | refine modTime_to ?_ ?_ | refine setTc_to ?_ ?_ | refine incCnt_to ?_ ?_ | refine modReg_to ?_ ?_ | refine snapTrigger_to ?_ ?_ | refine tcNext_to ?_ ?_ | refine dmaTime_to ?_ ?_ | refine tcLevel_to ?_ ?_) | exact To.sub hT (by decide) | refine To.fst (by assumption) ?_ | refine To.snd (by assumption) ?_ | split | (with_reducible first | refine To.set_disp ?_ ?_) | dsimp -proj only | (intro _; intros))

theorem ppsInSt_to {s : State} {rising : Bool} (hT : T ||| 16402 = T) (hS : To T s0 s) :
    To T s0 (ppsInSt rising s) := by
  unfold ppsInSt
  try dsimp -proj only
  repeat' (first | (with_reducible first | assumption | refine To.ite ?_ ?_ | refine setReg_to ?_ ?_ | refine modTime_to ?_ ?_ | refine incCnt_to ?_ ?_ | refine setEvt_to ?_ ?_) | exact To.sub hT (by decide) | refine To.fst (by assumption) ?_ | refine To.snd (by assumption) ?_ | split | dsimp -proj only | (intro _; intros))

theorem ppsLossSt_to {s : State} (hT : T ||| 1064962 = T) (hS : To T s0 s) :
    To T s0 (ppsLossSt s) := by
  unfold ppsLossSt
  try dsimp -proj only
  repeat' (first | (with_reducible first | assumption | refine To.ite ?_ ?_ | refine ownErr_to ?_ ?_ | refine setEvt_to ?_ ?_ | refine modTime_to ?_ ?_) | exact To.sub hT (by decide) | refine To.fst (by assumption) ?_ | refine To.snd (by assumption) ?_ | split | dsimp -proj only | (intro _; intros))

theorem timeDrop_to {s : State} (hT : T ||| 16384 = T) (hS : To T s0 s) :
    To T s0 (timeDrop s) := by
  unfold timeDrop
  try dsimp -proj only
  repeat' (first | (with_reducible first | assumption | refine To.ite ?_ ?_ | refine modTime_to ?_ ?_) | exact To.sub hT (by decide) | refine To.fst (by assumption) ?_ | refine To.snd (by assumption) ?_ | split | dsimp -proj only | (intro _; intros))

theorem execNowSecLoRead_to {s : State} {a : Acc} (hT : T ||| 1050646 = T) (hS : To T s0 s) :
    Out T s0 (execNowSecLoRead a s) := by
  unfold execNowSecLoRead
  repeat' (first | (with_reducible first | assumption | refine To.ite ?_ ?_ | refine onRead_to ?_ ?_ ?_ | refine nowSecRead_to ?_ ?_ | refine Out.next ?_) | exact To.sub hT (by decide) | refine To.fst (by assumption) ?_ | refine To.snd (by assumption) ?_ | split | (intro _; intros))

theorem execPpsInSecRead_to {s : State} {a : Acc} (hT : T ||| 1050646 = T) (hS : To T s0 s) :
    Out T s0 (execPpsInSecRead a s) := by
  unfold execPpsInSecRead
  repeat' (first | (with_reducible first | assumption | refine To.ite ?_ ?_ | refine onRead_to ?_ ?_ ?_ | refine ppsSecRead_to ?_ ?_ | refine Out.next ?_) | exact To.sub hT (by decide) | refine To.fst (by assumption) ?_ | refine To.snd (by assumption) ?_ | split | (intro _; intros))

theorem execIncrCommit_to {s : State} {a : Acc} {v : Word} (hT : T ||| 1048602 = T) (hS : To T s0 s) :
    Out T s0 (execIncrCommit a v s) := by
  unfold execIncrCommit
  repeat' (first | (with_reducible first | assumption | refine To.ite ?_ ?_ | refine onPage_to ?_ ?_ ?_ | refine incrCommitSt_to ?_ ?_ | refine Out.next ?_) | exact To.sub hT (by decide) | refine To.fst (by assumption) ?_ | refine To.snd (by assumption) ?_ | split | (intro _; intros))

theorem execAdjNs_to {s : State} {a : Acc} {v : Word} (hT : T ||| 1064978 = T) (hS : To T s0 s) :
    Out T s0 (execAdjNs a v s) := by
  unfold execAdjNs
  repeat' (first | (with_reducible first | assumption | refine To.ite ?_ ?_ | refine onPage_to ?_ ?_ ?_ | refine adjNsSt_to ?_ ?_ | refine Out.next ?_) | exact To.sub hT (by decide) | refine To.fst (by assumption) ?_ | refine To.snd (by assumption) ?_ | split | (intro _; intros))

theorem execSetGo_to {s : State} {a : Acc} (hT : T ||| 1064978 = T) (hS : To T s0 s) :
    Out T s0 (execSetGo a s) := by
  unfold execSetGo
  repeat' (first | (with_reducible first | assumption | refine To.ite ?_ ?_ | refine onPage_to ?_ ?_ ?_ | refine setGoSt_to ?_ ?_ | refine Out.next ?_) | exact To.sub hT (by decide) | refine To.fst (by assumption) ?_ | refine To.snd (by assumption) ?_ | split | (intro _; intros))

theorem execTcmpArm_to {s : State} {a : Acc} {n : Fin 64} {v : Word} (hT : T ||| 1064978 = T) (hS : To T s0 s) :
    Out T s0 (execTcmpArm a n v s) := by
  unfold execTcmpArm
  repeat' (first | (with_reducible first | assumption | refine To.ite ?_ ?_ | refine onPage_to ?_ ?_ ?_ | refine tcCtrlWrite_to ?_ ?_ | refine Out.next ?_) | exact To.sub hT (by decide) | refine To.fst (by assumption) ?_ | refine To.snd (by assumption) ?_ | split | (intro _; intros))

theorem execTcmpFire_to {s : State} {n : Fin 64} (hT : T ||| 17179983890 = T) (hS : To T s0 s) :
    Out T s0 (execTcmpFire n s) := by
  unfold execTcmpFire
  repeat' (first | (with_reducible first | assumption | refine To.ite ?_ ?_ | refine whileRuns_to ?_ ?_ ?_ | refine tcmpFireSt_to ?_ ?_ | refine Out.next ?_) | exact To.sub hT (by decide) | refine To.fst (by assumption) ?_ | refine To.snd (by assumption) ?_ | split | (intro _; intros))

theorem execPpsInEdge_to {s : State} {rising : Bool} (hT : T ||| 16402 = T) (hS : To T s0 s) :
    Out T s0 (execPpsInEdge rising s) := by
  unfold execPpsInEdge
  repeat' (first | (with_reducible first | assumption | refine To.ite ?_ ?_ | refine whileRuns_to ?_ ?_ ?_ | refine ppsInSt_to ?_ ?_ | refine Out.next ?_) | exact To.sub hT (by decide) | refine To.fst (by assumption) ?_ | refine To.snd (by assumption) ?_ | split | (intro _; intros))

theorem execPpsLoss_to {s : State} (hT : T ||| 1064962 = T) (hS : To T s0 s) :
    Out T s0 (execPpsLoss s) := by
  unfold execPpsLoss
  repeat' (first | (with_reducible first | assumption | refine To.ite ?_ ?_ | refine whileRuns_to ?_ ?_ ?_ | refine ppsLossSt_to ?_ ?_ | refine Out.next ?_) | exact To.sub hT (by decide) | refine To.fst (by assumption) ?_ | refine To.snd (by assumption) ?_ | split | (intro _; intros))

theorem execPpsOutRise_to {s : State} (hT : T ||| 16384 = T) (hS : To T s0 s) :
    Out T s0 (execPpsOutRise s) := by
  unfold execPpsOutRise
  repeat' (first | (with_reducible first | assumption | refine To.ite ?_ ?_ | refine whileRuns_to ?_ ?_ ?_ | refine ppsRiseSt_to ?_ ?_ | refine Out.next ?_) | exact To.sub hT (by decide) | refine To.fst (by assumption) ?_ | refine To.snd (by assumption) ?_ | split | (intro _; intros))

theorem execPpsOutFall_to {s : State} (hT : T ||| 16384 = T) (hS : To T s0 s) :
    Out T s0 (execPpsOutFall s) := by
  unfold execPpsOutFall
  repeat' (first | (with_reducible first | assumption | refine To.ite ?_ ?_ | refine whileRuns_to ?_ ?_ ?_ | refine ppsFallSt_to ?_ ?_ | refine Out.next ?_) | exact To.sub hT (by decide) | refine To.fst (by assumption) ?_ | refine To.snd (by assumption) ?_ | split | (intro _; intros))

end Sys2Proof.Machine
end

