-- ==== Sys2Proof/Laws/ToBlocks.lean ====
section
/-! SUPPORT. The frames of the operations and meanings of Blocks: what each may change. -/

namespace Sys2Proof.Machine

variable {T : Nat} {s0 : State}

theorem blockDrop_to {s : State} {p : Nat} (hT : T ||| 28587297857778 = T) (hS : To T s0 s) :
    To T s0 (blockDrop p s) := by
  unfold blockDrop
  try dsimp -proj only
  repeat' (first | (with_reducible first | assumption | refine To.ite ?_ ?_ | refine evtDrop_to ?_ ?_ | refine timeDrop_to ?_ ?_ | refine modFab_to ?_ ?_ | refine pcieDrop_to ?_ ?_ | refine pktDrop_to ?_ ?_ | refine tmDrop_to ?_ ?_ | refine prismDrop_to ?_ ?_ | refine clusterDrop_to ?_ ?_ | refine mxDrop_to ?_ ?_ | refine coreDrop_to ?_ ?_ | refine calAbortAll_to ?_ ?_ | refine dfeDrop_to ?_ ?_ | refine ofdmDrop_to ?_ ?_ | refine fecDrop_to ?_ ?_ | refine dmaDrop_to ?_ ?_ | refine dramDrop_to ?_ ?_ | refine modMemc_to ?_ ?_ | refine rtrDrop_to ?_ ?_ | refine linkDrop_to ?_ ?_ | refine subDrop_to ?_ ?_ | refine failFire_to ?_ ?_ | refine To.foldl _ (fun _ _ _ => ?_) ?_ | refine To.foldl_fst _ (fun _ _ _ => ?_) ?_) | exact To.sub hT (by decide) | refine To.fst (by assumption) ?_ | refine To.snd (by assumption) ?_ | split | (with_reducible first | refine To.set_disp ?_ ?_ | refine To.set_clk ?_ ?_ | refine To.set_lanes ?_ ?_ | refine To.set_cuw ?_ ?_ | refine To.set_boot ?_ ?_ | refine To.set_unowned ?_ ?_) | dsimp -proj only | (intro _; intros))

theorem resetRegs_to {s : State} {p : Nat} {keep : Nat → Bool} (hT : T ||| 14 = T) (hS : To T s0 s) :
    To T s0 (resetRegs p keep s) := by
  exact To.upd hS (k_regs := fun k => kup_foldl _ _ (fun _ _ => kup_dropRegs _ _ _) _ (kup_dropRegs _ _ _ k.regs))

theorem softSteps_to {s : State} {p : Nat} (hT : T ||| 28587297857790 = T) (hS : To T s0 s) :
    To T s0 (softSteps p s) := by
  unfold softSteps
  try dsimp -proj only
  repeat' (first | (with_reducible first | assumption | refine To.ite ?_ ?_ | refine dmaQuell_to ?_ ?_ | refine resetRegs_to ?_ ?_ | refine blockDrop_to ?_ ?_ | refine setReg_to ?_ ?_) | exact To.sub hT (by decide) | refine To.fst (by assumption) ?_ | refine To.snd (by assumption) ?_ | split | dsimp -proj only)

theorem softResetSt_to {s : State} {p : Nat} (hT : T ||| 28587297857790 = T) (hS : To T s0 s) :
    To T s0 (softResetSt p s) := by
  unfold softResetSt
  repeat' (first | (with_reducible first | assumption | refine To.ite ?_ ?_ | refine softSteps_to ?_ ?_) | exact To.sub hT (by decide) | refine To.fst (by assumption) ?_ | refine To.snd (by assumption) ?_ | split)

theorem softDoneSt_to {s : State} {p : Nat} (hT : T ||| 28587297857790 = T) (hS : To T s0 s) :
    To T s0 (softDoneSt p s) := by
  unfold softDoneSt
  repeat' (first | (with_reducible first | assumption | refine To.ite ?_ ?_ | refine setReg_to ?_ ?_ | refine softSteps_to ?_ ?_) | exact To.sub hT (by decide) | refine To.fst (by assumption) ?_ | refine To.snd (by assumption) ?_ | split)

theorem enableSt_to {s : State} {p : Nat} (hT : T ||| 208611213410 = T) (hS : To T s0 s) :
    To T s0 (enableSt p s) := by
  unfold enableSt
  try dsimp -proj only
  repeat' (first | (with_reducible first | assumption | refine To.ite ?_ ?_ | refine modReg_to ?_ ?_ | refine dramEnableSt_to ?_ ?_ | refine cuwHandshake_to ?_ ?_ | refine prismEnable_to ?_ ?_ | refine coreEnable_to ?_ ?_ | refine dfeEnable_to ?_ ?_ | refine linkEnable_to ?_ ?_) | exact To.sub hT (by decide) | refine To.fst (by assumption) ?_ | refine To.snd (by assumption) ?_ | split | (with_reducible first | refine To.set_disp ?_ ?_) | dsimp -proj only | (intro _; intros))

theorem disableSt_to {s : State} {p : Nat} (hT : T ||| 226294472946 = T) (hS : To T s0 s) :
    To T s0 (disableSt p s) := by
  unfold disableSt
  try dsimp -proj only
  repeat' (first | (with_reducible first | assumption | refine To.ite ?_ ?_ | refine modReg_to ?_ ?_ | refine cuwSettle_to ?_ ?_ | refine prismDisable_to ?_ ?_ | refine coreStop_to ?_ ?_ | refine calAbortAll_to ?_ ?_ | refine dmaPageDisable_to ?_ ?_ | refine linkDrop_to ?_ ?_) | exact To.sub hT (by decide) | refine To.fst (by assumption) ?_ | refine To.snd (by assumption) ?_ | split | (with_reducible first | refine To.set_disp ?_ ?_ | refine To.set_cuw ?_ ?_) | dsimp -proj only | (intro _; intros))

theorem zeroBanks_to {s : State} {n : Nat} {lost : BitVec 64} (hT : T ||| 96 = T) (hS : To T s0 s) :
    To T s0 (zeroBanks n lost s) := by
  unfold zeroBanks
  try dsimp -proj only
  repeat' (first | (with_reducible first | assumption | refine To.ite ?_ ?_ | refine zeroRange_to ?_ ?_ | refine To.foldl _ (fun _ _ _ => ?_) ?_ | refine To.foldl_fst _ (fun _ _ _ => ?_) ?_) | exact To.sub hT (by decide) | refine To.fst (by assumption) ?_ | refine To.snd (by assumption) ?_ | split | dsimp -proj only | (intro _; intros))

theorem pageOffSt_to {s : State} {p : Nat} (hT : T ||| 28587297857790 = T) (hS : To T s0 s) :
    To T s0 (pageOffSt p s) := by
  unfold pageOffSt
  try dsimp -proj only
  repeat' (first | (with_reducible first | assumption | refine To.ite ?_ ?_ | refine mxOff_to ?_ ?_ | refine laneDomain_to ?_ ?_ | refine linkDrop_to ?_ ?_ | refine resetRegs_to ?_ ?_ | refine blockDrop_to ?_ ?_ | refine To.foldl _ (fun _ _ _ => ?_) ?_ | refine To.foldl_fst _ (fun _ _ _ => ?_) ?_) | exact To.sub hT (by decide) | refine To.fst (by assumption) ?_ | refine To.snd (by assumption) ?_ | split | (with_reducible first | refine To.set_cnt ?_ ?_ ?_ | exact kup_kset _ _ _ _ | exact kup_filter _ _) | dsimp -proj only | (intro _; intros))

theorem domainOff_to {s : State} {n : Nat} (hT : T ||| 28587297858046 = T) (hS : To T s0 s) :
    To T s0 (domainOff n s) := by
  unfold domainOff
  try dsimp -proj only
  repeat' (first | (with_reducible first | assumption | refine To.ite ?_ ?_ | refine pageOffSt_to ?_ ?_ | refine zeroBanks_to ?_ ?_ | refine modMemc_to ?_ ?_ | refine moveRow_to ?_ ?_ | refine To.foldl _ (fun _ _ _ => ?_) ?_ | refine To.foldl_fst _ (fun _ _ _ => ?_) ?_) | exact To.sub hT (by decide) | refine To.fst (by assumption) ?_ | refine To.snd (by assumption) ?_ | split | (with_reducible first | refine To.set_coreMap ?_ ?_ ?_ | exact kup_kset _ _ _ _ | exact kup_filter _ _) | dsimp -proj only | (intro _; intros))

theorem resumeWaits_to {s : State} {n : Nat} (hT : T ||| 2147483648 = T) (hS : To T s0 s) :
    To T s0 (resumeWaits n s) := by
  unfold resumeWaits
  try dsimp -proj only
  repeat' (first | (with_reducible first | assumption | refine To.ite ?_ ?_ | refine modCore_to ?_ ?_ | refine To.foldl _ (fun _ _ _ => ?_) ?_ | refine To.foldl_fst _ (fun _ _ _ => ?_) ?_) | exact To.sub hT (by decide) | refine To.fst (by assumption) ?_ | refine To.snd (by assumption) ?_ | split | dsimp -proj only | (intro _; intros))

theorem domainRetain_to {s : State} {n : Nat} (hT : T ||| 68719476834 = T) (hS : To T s0 s) :
    To T s0 (domainRetain n s) := by
  unfold domainRetain
  try dsimp -proj only
  repeat' (first | (with_reducible first | assumption | refine To.ite ?_ ?_ | refine zeroBanks_to ?_ ?_ | refine laneDomain_to ?_ ?_ | refine To.foldl _ (fun _ _ _ => ?_) ?_ | refine To.foldl_fst _ (fun _ _ _ => ?_) ?_) | exact To.sub hT (by decide) | refine To.fst (by assumption) ?_ | refine To.snd (by assumption) ?_ | split | dsimp -proj only | (intro _; intros))

theorem domainOn_to {s : State} {n : Nat} (hT : T ||| 70869057538 = T) (hS : To T s0 s) :
    To T s0 (domainOn n s) := by
  unfold domainOn
  try dsimp -proj only
  repeat' (first | (with_reducible first | assumption | refine To.ite ?_ ?_ | refine resumeWaits_to ?_ ?_ | refine laneDomain_to ?_ ?_ | refine linkResume_to ?_ ?_ | refine To.foldl _ (fun _ _ _ => ?_) ?_ | refine To.foldl_fst _ (fun _ _ _ => ?_) ?_) | exact To.sub hT (by decide) | refine To.fst (by assumption) ?_ | refine To.snd (by assumption) ?_ | split | dsimp -proj only | (intro _; intros))

theorem storeReg_to {s : State} {p : Nat} {off : Nat} {i : Nat} {v : Word} (hT : T ||| 2 = T) (hS : To T s0 s) :
    To T s0 (storeReg p off i v s) := by
  unfold storeReg
  repeat' (first | (with_reducible first | assumption | refine To.ite ?_ ?_ | refine setRegI_to ?_ ?_) | exact To.sub hT (by decide) | refine To.fst (by assumption) ?_ | refine To.snd (by assumption) ?_ | split)

end Sys2Proof.Machine
end

