-- ==== Sys2Proof/Laws/ToRecord.lean ====
section
/-! SUPPORT. The frames of the operations and meanings of Record: what each may change. -/

namespace Sys2Proof.Machine

variable {T : Nat} {s0 : State}

theorem modBoot_to {s : State} {f : BootSt → BootSt} (hT : T ||| 8796093022208 = T) (hS : To T s0 s) :
    To T s0 (modBoot s f) := by
  unfold modBoot
  repeat' (first | (with_reducible first | assumption | refine To.ite ?_ ?_) | exact To.sub hT (by decide) | refine To.fst (by assumption) ?_ | refine To.snd (by assumption) ?_ | split | with_reducible first | refine To.set_boot ?_ ?_)

theorem flashProgram_to {s : State} {a : Nat} {bs : List Byte} (hT : T ||| 8796093022208 = T) (hS : To T s0 s) :
    To T s0 (flashProgram a bs s) := by
  unfold flashProgram
  try dsimp -proj only
  repeat' (first | (with_reducible first | assumption | refine To.ite ?_ ?_ | refine modBoot_to ?_ ?_ | refine To.foldl _ (fun _ _ _ => ?_) ?_ | refine To.foldl_fst _ (fun _ _ _ => ?_) ?_) | exact To.sub hT (by decide) | refine To.fst (by assumption) ?_ | refine To.snd (by assumption) ?_ | split | dsimp -proj only | (intro _; intros))

theorem flashErase_to {s : State} {a : Nat} {n : Nat} (hT : T ||| 8796093022208 = T) (hS : To T s0 s) :
    To T s0 (flashErase a n s) := by
  unfold flashErase
  try dsimp -proj only
  repeat' (first | (with_reducible first | assumption | refine To.ite ?_ ?_ | refine modBoot_to ?_ ?_) | exact To.sub hT (by decide) | refine To.fst (by assumption) ?_ | refine To.snd (by assumption) ?_ | split | dsimp -proj only | (intro _; intros))

theorem loadChain_to {s : State} {o : Nat} {e : Nat} {k : Nat} {c : Nat} (hT : T ||| 2 = T) (hS : To T s0 s) :
    To T s0 (loadChain o e k c s) := by
  unfold loadChain
  try dsimp -proj only
  repeat' (first | (with_reducible first | assumption | refine To.ite ?_ ?_ | refine commitChain_to ?_ ?_ | refine storeReg_to ?_ ?_ | refine To.foldl _ (fun _ _ _ => ?_) ?_ | refine To.foldl_fst _ (fun _ _ _ => ?_) ?_) | exact To.sub hT (by decide) | refine To.fst (by assumption) ?_ | refine To.snd (by assumption) ?_ | split | dsimp -proj only | (intro _; intros))

theorem loadChains_to {s : State} {o : Nat} (hT : T ||| 2 = T) (hS : To T s0 s) :
    To T s0 (loadChains o s) := by
  unfold loadChains
  try dsimp -proj only
  repeat' (first | (with_reducible first | assumption | refine To.ite ?_ ?_ | refine loadChain_to ?_ ?_ | refine To.foldl _ (fun _ _ _ => ?_) ?_ | refine To.foldl_fst _ (fun _ _ _ => ?_) ?_) | exact To.sub hT (by decide) | refine To.fst (by assumption) ?_ | refine To.snd (by assumption) ?_ | split | dsimp -proj only | (intro _; intros))

theorem repairChain_to {s : State} {o : Option Nat} {e : Nat} {k : Nat} {m : Nat} {src : Nat} (hT : T ||| 578813954 = T) (hS : To T s0 s) :
    To T s0 (repairChain o e k m src s) := by
  unfold repairChain
  try dsimp -proj only
  repeat' (first | (with_reducible first | assumption | refine To.ite ?_ ?_ | refine loadChain_to ?_ ?_ | refine chMirrorWrite_to ?_ ?_ | refine modDfe_to ?_ ?_) | exact To.sub hT (by decide) | refine To.fst (by assumption) ?_ | refine To.snd (by assumption) ?_ | split | dsimp -proj only | (intro _; intros))

theorem repairChains_to {s : State} {o : Option Nat} {ws : List Word} (hT : T ||| 578813954 = T) (hS : To T s0 s) :
    To T s0 (repairChains o ws s) := by
  unfold repairChains
  try dsimp -proj only
  repeat' (first | (with_reducible first | assumption | refine To.ite ?_ ?_ | refine repairChain_to ?_ ?_ | refine To.foldl _ (fun _ _ _ => ?_) ?_ | refine To.foldl_fst _ (fun _ _ _ => ?_) ?_) | exact To.sub hT (by decide) | refine To.fst (by assumption) ?_ | refine To.snd (by assumption) ?_ | split | dsimp -proj only | (intro _; intros))

theorem repairCores_to {s : State} {ws : List Word} (hT : T ||| 2148737522 = T) (hS : To T s0 s) :
    To T s0 (repairCores ws s) := by
  unfold repairCores
  try dsimp -proj only
  repeat' (first | (with_reducible first | assumption | refine To.ite ?_ ?_ | refine coreMapSt_to ?_ ?_ | refine To.foldl _ (fun _ _ _ => ?_) ?_ | refine To.foldl_fst _ (fun _ _ _ => ?_) ?_) | exact To.sub hT (by decide) | refine To.fst (by assumption) ?_ | refine To.snd (by assumption) ?_ | split | dsimp -proj only | (intro _; intros))

theorem repairLanes_to {s : State} {ws : List Word} (hT : T ||| 16777218 = T) (hS : To T s0 s) :
    To T s0 (repairLanes ws s) := by
  unfold repairLanes
  try dsimp -proj only
  repeat' (first | (with_reducible first | assumption | refine To.ite ?_ ?_ | refine subArmSt_to ?_ ?_ | refine storeReg_to ?_ ?_ | refine To.foldl _ (fun _ _ _ => ?_) ?_ | refine To.foldl_fst _ (fun _ _ _ => ?_) ?_) | exact To.sub hT (by decide) | refine To.fst (by assumption) ?_ | refine To.snd (by assumption) ?_ | split | dsimp -proj only | (intro _; intros))

theorem repairLinks_to {s : State} {ws : List Word} (hT : T ||| 2 = T) (hS : To T s0 s) :
    To T s0 (repairLinks ws s) := by
  unfold repairLinks
  try dsimp -proj only
  repeat' (first | (with_reducible first | assumption | refine To.ite ?_ ?_ | refine setRegI_to ?_ ?_ | refine To.foldl _ (fun _ _ _ => ?_) ?_ | refine To.foldl_fst _ (fun _ _ _ => ?_) ?_) | exact To.sub hT (by decide) | refine To.fst (by assumption) ?_ | refine To.snd (by assumption) ?_ | split | dsimp -proj only | (intro _; intros))

theorem repairRows_to {s : State} {o : Nat} (hT : T ||| 139330 = T) (hS : To T s0 s) :
    To T s0 (repairRows o s) := by
  unfold repairRows
  try dsimp -proj only
  repeat' (first | (with_reducible first | assumption | refine To.ite ?_ ?_ | refine moveRow_to ?_ ?_ | refine To.foldl _ (fun _ _ _ => ?_) ?_ | refine To.foldl_fst _ (fun _ _ _ => ?_) ?_) | exact To.sub hT (by decide) | refine To.fst (by assumption) ?_ | refine To.snd (by assumption) ?_ | split | dsimp -proj only | (intro _; intros))

theorem loadRecord_to {s : State} (hT : T ||| 2744328690 = T) (hS : To T s0 s) :
    To T s0 (loadRecord s) := by
  unfold loadRecord
  try dsimp -proj only
  repeat' (first | (with_reducible first | assumption | refine To.ite ?_ ?_ | refine repairRows_to ?_ ?_ | refine loadChains_to ?_ ?_ | refine repairLinks_to ?_ ?_ | refine repairLanes_to ?_ ?_ | refine repairChains_to ?_ ?_ | refine repairCores_to ?_ ?_ | refine memPut_to ?_ ?_) | exact To.sub hT (by decide) | refine To.fst (by assumption) ?_ | refine To.snd (by assumption) ?_ | split | dsimp -proj only)

end Sys2Proof.Machine
end

