-- ==== Sys2Proof/Laws/ToBoot.lean ====
section
/-! SUPPORT. The frames of the operations and meanings of Boot: what each may change. -/

namespace Sys2Proof.Machine

variable {T : Nat} {s0 : State}

theorem powerOn_to {s : State} (hT : T ||| 30786325576062 = T) (hS : To T s0 s) :
    To T s0 (powerOn s) := by
  exact To.upd (s := s) hS (k_hostMem := fun k => k.hostMem) (k_regs := fun _ => rfl) (k_cnt := fun _ => rfl) (k_mem := fun _ => rfl)
    (k_memErr := fun _ => rfl) (k_holdRd := fun _ => rfl) (k_holdWr := fun _ => rfl) (k_coreMap := fun _ => rfl)

theorem warmReset_to {s : State} {cause : Word} {dram : Bool} (hT : T ||| 30786325576062 = T) (hS : To T s0 s) :
    To T s0 (warmReset cause dram s) := by
  unfold warmReset
  dsimp -proj only
  refine selfRefreshLost_to (To.sub hT (by decide)) (setReg_to (To.sub hT (by decide)) (setReg_to (To.sub hT (by decide)) ?_))
  exact To.upd (s := s) hS (h_pending := fun _ => rfl) (h_hostMem := fun _ => rfl) (h_fuses := fun _ => rfl) (h_freeCtr := fun _ => rfl)
    (h_fapi := fun _ => rfl) (k_hostMem := fun k => k.hostMem) (k_holdRd := fun _ => rfl) (k_holdWr := fun _ => rfl)
    (k_coreMap := fun _ => rfl)

theorem pcieResetSt_to {s : State} (hT : T ||| 9964324126734 = T) (hS : To T s0 s) :
    To T s0 (pcieResetSt s) := by
  unfold pcieResetSt
  try dsimp -proj only
  repeat' (first | (with_reducible first | assumption | refine To.ite ?_ ?_ | refine resetRegs_to ?_ ?_ | refine modBoot_to ?_ ?_ | refine To.foldl _ (fun _ _ _ => ?_) ?_ | refine To.foldl_fst _ (fun _ _ _ => ?_) ?_) | exact To.sub hT (by decide) | refine To.fst (by assumption) ?_ | refine To.snd (by assumption) ?_ | split | (with_reducible first | refine To.set_lanes ?_ ?_ | refine To.set_pcie ?_ ?_) | dsimp -proj only | (intro _; intros))

theorem rstCmdSt_to {s : State} {v : Word} (hT : T ||| 30786325576062 = T) (hS : To T s0 s) :
    To T s0 (rstCmdSt v s) := by
  unfold rstCmdSt
  repeat' (first | (with_reducible first | assumption | refine To.ite ?_ ?_ | refine warmReset_to ?_ ?_) | exact To.sub hT (by decide) | refine To.fst (by assumption) ?_ | refine To.snd (by assumption) ?_ | split)

theorem wdogRestart_to {s : State} (hT : T ||| 8796093022208 = T) (hS : To T s0 s) :
    To T s0 (wdogRestart s) := by
  unfold wdogRestart
  try dsimp -proj only
  repeat' (first | (with_reducible first | assumption | refine To.ite ?_ ?_ | refine modBoot_to ?_ ?_) | exact To.sub hT (by decide) | refine To.fst (by assumption) ?_ | refine To.snd (by assumption) ?_ | split | dsimp -proj only | (intro _; intros))

theorem wdogCfgSt_to {s : State} {v : Word} (hT : T ||| 8796093022210 = T) (hS : To T s0 s) :
    To T s0 (wdogCfgSt v s) := by
  unfold wdogCfgSt
  try dsimp -proj only
  repeat' (first | (with_reducible first | assumption | refine To.ite ?_ ?_ | refine setReg_to ?_ ?_ | refine wdogRestart_to ?_ ?_) | exact To.sub hT (by decide) | refine To.fst (by assumption) ?_ | refine To.snd (by assumption) ?_ | split | dsimp -proj only)

theorem wdogKickSt_to {s : State} {v : Word} (hT : T ||| 8796093022208 = T) (hS : To T s0 s) :
    To T s0 (wdogKickSt v s) := by
  unfold wdogKickSt
  repeat' (first | (with_reducible first | assumption | refine To.ite ?_ ?_ | refine wdogRestart_to ?_ ?_) | exact To.sub hT (by decide) | refine To.fst (by assumption) ?_ | refine To.snd (by assumption) ?_ | split)

theorem setStage_to {s : State} {n : Nat} (hT : T ||| 2 = T) (hS : To T s0 s) :
    To T s0 (setStage n s) := by
  unfold setStage
  try dsimp -proj only
  repeat' (first | (with_reducible first | assumption | refine To.ite ?_ ?_ | refine modReg_to ?_ ?_) | exact To.sub hT (by decide) | refine To.fst (by assumption) ?_ | refine To.snd (by assumption) ?_ | split | dsimp -proj only | (intro _; intros))

theorem resetReleaseSt_to {s : State} {mode : BitVec 2} (hT : T ||| 8796093022210 = T) (hS : To T s0 s) :
    To T s0 (resetReleaseSt mode s) := by
  unfold resetReleaseSt
  try dsimp -proj only
  repeat' (first | (with_reducible first | assumption | refine To.ite ?_ ?_ | refine setReg_to ?_ ?_ | refine modBoot_to ?_ ?_) | exact To.sub hT (by decide) | refine To.fst (by assumption) ?_ | refine To.snd (by assumption) ?_ | split | dsimp -proj only | (intro _; intros))

theorem selfTestSt_to {s : State} {failed : List (Fin 320)} {fatal : Bool} {pllOk : Bool} (hT : T ||| 28587298120190 = T) (hS : To T s0 s) :
    To T s0 (selfTestSt failed fatal pllOk s) := by
  unfold selfTestSt
  try dsimp -proj only
  repeat' (first | (with_reducible first | assumption | refine To.ite ?_ ?_ | refine modBoot_to ?_ ?_ | refine domainOff_to ?_ ?_ | refine setPd_to ?_ ?_ | refine moveRow_to ?_ ?_ | refine modReg_to ?_ ?_ | refine setStage_to ?_ ?_ | refine enableSt_to ?_ ?_ | refine To.foldl _ (fun _ _ _ => ?_) ?_ | refine To.foldl_fst _ (fun _ _ _ => ?_) ?_) | exact To.sub hT (by decide) | refine To.fst (by assumption) ?_ | refine To.snd (by assumption) ?_ | split | dsimp -proj only | (intro _; intros))

theorem setSlotState_to {s : State} {j : Nat} {v : Nat} (hT : T ||| 8796093022208 = T) (hS : To T s0 s) :
    To T s0 (setSlotState j v s) := by
  unfold setSlotState
  repeat' (first | (with_reducible first | assumption | refine To.ite ?_ ?_ | refine flashProgram_to ?_ ?_) | exact To.sub hT (by decide) | refine To.fst (by assumption) ?_ | refine To.snd (by assumption) ?_ | split)

theorem blowSvn_to {s : State} {n : Nat} (hT : T ||| 512 = T) (hS : To T s0 s) :
    To T s0 (blowSvn n s) := by
  exact To.set_fuses hT hS ⟨⟨rfl, rfl, rfl, rfl, rfl, rfl, rfl⟩, fun _ _ => BitVec.and_self, BitVec.and_self, BitVec.and_self, BitVec.and_self, id, Nat.le_max_left _ _⟩

theorem runImage_to {s : State} {slot : Nat} {h : List Byte} {body : List Byte} (hT : T ||| 8798241759474 = T) (hS : To T s0 s) :
    To T s0 (runImage slot h body s) := by
  unfold runImage
  try dsimp -proj only
  repeat' (first | (with_reducible first | assumption | refine To.ite ?_ ?_ | refine memPut_to ?_ ?_ | refine modBoot_to ?_ ?_ | refine setCore_to ?_ ?_ | refine modReg_to ?_ ?_ | refine setStage_to ?_ ?_) | exact To.sub hT (by decide) | refine To.fst (by assumption) ?_ | refine To.snd (by assumption) ?_ | split | dsimp -proj only | (intro _; intros))

theorem imageSelectSt_to {s : State} (hT : T ||| 8798241759986 = T) (hS : To T s0 s) :
    To T s0 (imageSelectSt s) := by
  unfold imageSelectSt
  try dsimp -proj only
  repeat' (first | (with_reducible first | assumption | refine To.ite ?_ ?_ | refine setSlotState_to ?_ ?_ | refine setStage_to ?_ ?_ | refine wdogRestart_to ?_ ?_ | refine modReg_to ?_ ?_ | refine blowSvn_to ?_ ?_ | refine runImage_to ?_ ?_ | refine To.foldl _ (fun _ _ _ => ?_) ?_ | refine To.foldl_fst _ (fun _ _ _ => ?_) ?_) | exact To.sub hT (by decide) | refine To.fst (by assumption) ?_ | refine To.snd (by assumption) ?_ | split | dsimp -proj only | (intro _; intros))

theorem pcieGoSt_to {s : State} {v : Word} (hT : T ||| 8798241759474 = T) (hS : To T s0 s) :
    To T s0 (pcieGoSt v s) := by
  unfold pcieGoSt
  try dsimp -proj only
  repeat' (first | (with_reducible first | assumption | refine To.ite ?_ ?_ | refine setStage_to ?_ ?_ | refine runImage_to ?_ ?_) | exact To.sub hT (by decide) | refine To.fst (by assumption) ?_ | refine To.snd (by assumption) ?_ | split | dsimp -proj only | (intro _; intros))

theorem flashCmd_to {s : State} {op : Nat} (hT : T ||| 8796094275826 = T) (hS : To T s0 s) :
    To T s0 (flashCmd op s) := by
  unfold flashCmd
  try dsimp -proj only
  repeat' (first | (with_reducible first | assumption | refine To.ite ?_ ?_ | refine setReg_to ?_ ?_ | refine modBoot_to ?_ ?_ | refine memWrite_to ?_ ?_ | refine modReg_to ?_ ?_ | refine memRead_to ?_ ?_ | refine flashProgram_to ?_ ?_ | refine flashErase_to ?_ ?_) | exact To.sub hT (by decide) | refine To.fst (by assumption) ?_ | refine To.snd (by assumption) ?_ | split | dsimp -proj only | (intro _; intros))

theorem flashDone_to {s : State} {fail : Bool} (hT : T ||| 8796093022210 = T) (hS : To T s0 s) :
    To T s0 (flashDone fail s) := by
  unfold flashDone
  try dsimp -proj only
  repeat' (first | (with_reducible first | assumption | refine To.ite ?_ ?_ | refine modBoot_to ?_ ?_ | refine setEvt_to ?_ ?_ | refine modReg_to ?_ ?_) | exact To.sub hT (by decide) | refine To.fst (by assumption) ?_ | refine To.snd (by assumption) ?_ | split | dsimp -proj only | (intro _; intros))

theorem applyPreset_to {s : State} {x : Nat × Nat × Nat × Word} (hT : T ||| 2 = T) (hS : To T s0 s) :
    To T s0 (applyPreset s x) := by
  unfold applyPreset
  repeat' (first | (with_reducible first | assumption | refine To.ite ?_ ?_ | refine storeReg_to ?_ ?_) | exact To.sub hT (by decide) | refine To.fst (by assumption) ?_ | refine To.snd (by assumption) ?_ | split)

theorem installSet_to {s : State} {h : List Byte} {body : List Byte} (hT : T ||| 8796094275826 = T) (hS : To T s0 s) :
    To T s0 (installSet h body s) := by
  unfold installSet
  try dsimp -proj only
  repeat' (first | (with_reducible first | assumption | refine To.ite ?_ ?_ | refine modBoot_to ?_ ?_ | refine modReg_to ?_ ?_ | refine setReg_to ?_ ?_ | refine memPut_to ?_ ?_ | refine applyPreset_to ?_ ?_ | refine dramBegin_to ?_ ?_ | refine setEnabled_to ?_ ?_ | refine To.foldl _ (fun _ _ _ => ?_) ?_ | refine To.foldl_fst _ (fun _ _ _ => ?_) ?_) | exact To.sub hT (by decide) | refine To.fst (by assumption) ?_ | refine To.snd (by assumption) ?_ | split | dsimp -proj only | (intro _; intros))

theorem cfgResult_to {s : State} {r : Nat} (hT : T ||| 2 = T) (hS : To T s0 s) :
    To T s0 (cfgResult r s) := by
  unfold cfgResult
  repeat' (first | (with_reducible first | assumption | refine To.ite ?_ ?_ | refine setEvt_to ?_ ?_ | refine setReg_to ?_ ?_) | exact To.sub hT (by decide) | refine To.fst (by assumption) ?_ | refine To.snd (by assumption) ?_ | split)

theorem cfgGoSt_to {s : State} {v : Word} (hT : T ||| 8796094275826 = T) (hS : To T s0 s) :
    To T s0 (cfgGoSt v s) := by
  unfold cfgGoSt
  try dsimp -proj only
  repeat' (first | (with_reducible first | assumption | refine To.ite ?_ ?_ | refine cfgResult_to ?_ ?_ | refine installSet_to ?_ ?_ | refine modBoot_to ?_ ?_) | exact To.sub hT (by decide) | refine To.fst (by assumption) ?_ | refine To.snd (by assumption) ?_ | split | dsimp -proj only | (intro _; intros))

theorem cfgPersistSt_to {s : State} (hT : T ||| 8796093022208 = T) (hS : To T s0 s) :
    To T s0 (cfgPersistSt s) := by
  unfold cfgPersistSt
  try dsimp -proj only
  repeat' (first | (with_reducible first | assumption | refine To.ite ?_ ?_ | refine modBoot_to ?_ ?_ | refine flashProgram_to ?_ ?_ | refine flashErase_to ?_ ?_) | exact To.sub hT (by decide) | refine To.fst (by assumption) ?_ | refine To.snd (by assumption) ?_ | split | dsimp -proj only | (intro _; intros))

theorem loadSlot_to {s : State} {x : Nat × Nat × Nat × Word} (hT : T ||| 65536 = T) (hS : To T s0 s) :
    To T s0 (loadSlot s x) := by
  unfold loadSlot
  try dsimp -proj only
  repeat' (first | (with_reducible first | assumption | refine To.ite ?_ ?_ | refine modFab_to ?_ ?_) | exact To.sub hT (by decide) | refine To.fst (by assumption) ?_ | refine To.snd (by assumption) ?_ | split | dsimp -proj only | (intro _; intros))

theorem goLive_to {s : State} {set : CfgSet} (hT : T ||| 208611278962 = T) (hS : To T s0 s) :
    To T s0 (goLive set s) := by
  unfold goLive
  try dsimp -proj only
  repeat' (first | (with_reducible first | assumption | refine To.ite ?_ ?_ | refine loadSlot_to ?_ ?_ | refine modFab_to ?_ ?_ | refine enableSt_to ?_ ?_ | refine epochDrainedSt_to ?_ ?_ | refine epochFlipSt_to ?_ ?_ | refine To.foldl _ (fun _ _ _ => ?_) ?_ | refine To.foldl_fst _ (fun _ _ _ => ?_) ?_) | exact To.sub hT (by decide) | refine To.fst (by assumption) ?_ | refine To.snd (by assumption) ?_ | split | dsimp -proj only | (intro _; intros))

theorem bootReadySt_to {s : State} (hT : T ||| 9005266346482 = T) (hS : To T s0 s) :
    To T s0 (bootReadySt s) := by
  unfold bootReadySt
  try dsimp -proj only
  repeat' (first | (with_reducible first | assumption | refine To.ite ?_ ?_ | refine installSet_to ?_ ?_ | refine memPut_to ?_ ?_ | refine loadRecord_to ?_ ?_ | refine goLive_to ?_ ?_ | refine setEvt_to ?_ ?_ | refine modReg_to ?_ ?_) | exact To.sub hT (by decide) | refine To.fst (by assumption) ?_ | refine To.snd (by assumption) ?_ | split | dsimp -proj only | (intro _; intros))

theorem mbCommand_to {s : State} {sv : Bool} {c : Nat} {allowed : Bool} {act : State → State × Nat} (hT : T ||| 8796093022210 = T) (hS : To T s0 s) (hact : ∀  s, To T s0 s → To T s0 (act  s).1) :
    To T s0 (mbCommand sv c allowed act s) := by
  unfold mbCommand
  try dsimp -proj only
  repeat' (first | (with_reducible first | assumption | refine To.ite ?_ ?_ | refine hact _ ?_ | refine modReg_to ?_ ?_ | refine setReg_to ?_ ?_ | refine modBoot_to ?_ ?_) | exact To.sub hT (by decide) | refine To.fst (by assumption) ?_ | refine To.snd (by assumption) ?_ | split | dsimp -proj only | (intro _; intros))

theorem mbDone_to {s : State} {sv : Bool} (hT : T ||| 8796093022210 = T) (hS : To T s0 s) :
    To T s0 (mbDone sv s) := by
  unfold mbDone
  try dsimp -proj only
  repeat' (first | (with_reducible first | assumption | refine To.ite ?_ ?_ | refine modBoot_to ?_ ?_ | refine setEvt_to ?_ ?_ | refine setReg_to ?_ ?_) | exact To.sub hT (by decide) | refine To.fst (by assumption) ?_ | refine To.snd (by assumption) ?_ | split | dsimp -proj only | (intro _; intros))

theorem verifyCfgAct_to {s : State} {sv : Bool} (_ : T ||| 0 = T) (hS : To T s0 s) :
    To T s0 (verifyCfgAct sv s).1 := by
  unfold verifyCfgAct
  try dsimp -proj only
  repeat' (first | (with_reducible first | assumption | refine To.ite ?_ ?_) | exact To.sub hT (by decide) | refine To.fst (by assumption) ?_ | refine To.snd (by assumption) ?_ | split | dsimp -proj only | (intro _; intros))

theorem signCalAct_to {s : State} {sv : Bool} (hT : T ||| 1253618 = T) (hS : To T s0 s) :
    To T s0 (signCalAct sv s).1 := by
  unfold signCalAct
  repeat' (first | (with_reducible first | assumption | refine To.ite ?_ ?_ | refine memRead_to ?_ ?_ | refine memPut_to ?_ ?_) | exact To.sub hT (by decide) | refine To.fst (by assumption) ?_ | refine To.snd (by assumption) ?_ | split)

theorem verifyCalAct_to {s : State} {sv : Bool} (_ : T ||| 0 = T) (hS : To T s0 s) :
    To T s0 (verifyCalAct sv s).1 := by
  unfold verifyCalAct
  repeat' (first | (with_reducible first | assumption | refine To.ite ?_ ?_) | exact To.sub hT (by decide) | refine To.fst (by assumption) ?_ | refine To.snd (by assumption) ?_ | split)

theorem confirmAct_to {s : State} (hT : T ||| 8796093022722 = T) (hS : To T s0 s) :
    To T s0 (confirmAct s).1 := by
  unfold confirmAct
  try dsimp -proj only
  repeat' (first | (with_reducible first | assumption | refine To.ite ?_ ?_ | refine blowSvn_to ?_ ?_ | refine modReg_to ?_ ?_ | refine setSlotState_to ?_ ?_) | exact To.sub hT (by decide) | refine To.fst (by assumption) ?_ | refine To.snd (by assumption) ?_ | split | dsimp -proj only | (intro _; intros))

theorem attestAct_to {s : State} {sv : Bool} (hT : T ||| 1253618 = T) (hS : To T s0 s) :
    To T s0 (attestAct sv s).1 := by
  unfold attestAct
  try dsimp -proj only
  repeat' (first | (with_reducible first | assumption | refine To.ite ?_ ?_ | refine memRead_to ?_ ?_ | refine memWrite_to ?_ ?_) | exact To.sub hT (by decide) | refine To.fst (by assumption) ?_ | refine To.snd (by assumption) ?_ | split | dsimp -proj only)

theorem challengeAct_to {s : State} {sv : Bool} (hT : T ||| 8796094276850 = T) (hS : To T s0 s) :
    To T s0 (challengeAct sv s).1 := by
  unfold challengeAct
  try dsimp -proj only
  repeat' (first | (with_reducible first | assumption | refine To.ite ?_ ?_ | refine takeFree_to ?_ ?_ | refine modBoot_to ?_ ?_ | refine memWrite_to ?_ ?_) | exact To.sub hT (by decide) | refine To.fst (by assumption) ?_ | refine To.snd (by assumption) ?_ | split | dsimp -proj only | (intro _; intros))

theorem unlockAct_to {s : State} {sv : Bool} (hT : T ||| 8796094210130 = T) (hS : To T s0 s) :
    To T s0 (unlockAct sv s).1 := by
  unfold unlockAct
  try dsimp -proj only
  repeat' (first | (with_reducible first | assumption | refine To.ite ?_ ?_ | refine modBoot_to ?_ ?_ | refine memRead_to ?_ ?_) | exact To.sub hT (by decide) | refine To.fst (by assumption) ?_ | refine To.snd (by assumption) ?_ | split | dsimp -proj only | (intro _; intros))

theorem fuseKeyAct_to {s : State} {sv : Bool} {blown : Bool} (hT : T ||| 1188434 = T) (hS : To T s0 s) :
    To T s0 (fuseKeyAct sv blown s).1 := by
  unfold fuseKeyAct
  dsimp -proj only
  split
  · exact hS
  · by_cases hz : s.fuses.debugState ≠ 0 ∨
        (if mbArg1 s sv = 4 then s.fuses.debugKey else (s.fuses.keys[mbArg1 s sv]?).getD 0) ≠ 0
    · rw [if_pos hz]
      exact hS
    · rw [if_neg hz]
      split
      · rename_i e
        have hR := To.fst e (memRead_to (To.sub hT (by decide)) hS)
        have ef := (To.fst e (memRead_to (T := 1187922) (by decide) (To.refl _ s))).fuses (by decide)
        split
        · exact hR
        · refine To.set_fuses (To.sub hT (by decide)) hR ?_
          rw [ef]
          simp only [not_or, ne_eq, Decidable.not_not] at hz
          split
          · rename_i h4
            rw [if_pos h4] at hz
            exact ⟨⟨rfl, rfl, rfl, rfl, rfl, rfl, rfl⟩, fun _ _ => BitVec.and_self, BitVec.and_self,
              hz.2 ▸ BitVec.zero_and, BitVec.and_self, id, Nat.le_refl _⟩
          · rename_i h4
            rw [if_neg h4] at hz
            refine ⟨⟨rfl, rfl, rfl, rfl, rfl, rfl, rfl⟩, fun i hi => ?_, BitVec.and_self, BitVec.and_self, BitVec.and_self, id, Nat.le_refl _⟩
            simp only [List.getElem?_map, List.getElem?_range hi, Option.map_some, Option.getD_some]
            split
            · rename_i hk
              rw [hk, hz.2]
              exact BitVec.zero_and
            · exact BitVec.and_self
      · rename_i e
        exact To.fst e (memRead_to (To.sub hT (by decide)) hS)

theorem fuseRevokeAct_to {s : State} {sv : Bool} {blown : Bool} (hT : T ||| 512 = T) (hS : To T s0 s) :
    To T s0 (fuseRevokeAct sv blown s).1 := by
  unfold fuseRevokeAct
  dsimp -proj only
  split
  · exact hS
  · split
    · exact hS
    · split
      · exact hS
      · exact To.set_fuses hT hS ⟨⟨rfl, rfl, rfl, rfl, rfl, rfl, rfl⟩, fun _ _ => BitVec.and_self, and_or_self _ _, BitVec.and_self,
          BitVec.and_self, id, Nat.le_refl _⟩

theorem fuseLockAct_to {s : State} {sv : Bool} {blown : Bool} (hT : T ||| 512 = T) (hS : To T s0 s) :
    To T s0 (fuseLockAct sv blown s).1 := by
  unfold fuseLockAct
  dsimp -proj only
  split
  · exact hS
  · split
    · exact hS
    · refine To.set_fuses hT hS ?_
      split
      · exact ⟨⟨rfl, rfl, rfl, rfl, rfl, rfl, rfl⟩, fun _ _ => BitVec.and_self, BitVec.and_self, BitVec.and_self, and_or_self _ _, id, Nat.le_refl _⟩
      · exact ⟨⟨rfl, rfl, rfl, rfl, rfl, rfl, rfl⟩, fun _ _ => BitVec.and_self, BitVec.and_self, BitVec.and_self, BitVec.and_allOnes, id,
          Nat.le_refl _⟩
      · exact ⟨⟨rfl, rfl, rfl, rfl, rfl, rfl, rfl⟩, fun _ _ => BitVec.and_self, BitVec.and_self, BitVec.and_self, BitVec.and_self,
          fun _ => rfl, Nat.le_refl _⟩

theorem mbWrite_to {s : State} {a : Acc} {sv : Bool} {c : Nat} {allowed : Bool} {act : State → State × Nat} (hT : T ||| 8796094070802 = T) (hS : To T s0 s) (hact : ∀  s, To T s0 s → To T s0 (act  s).1) :
    Out T s0 (mbWrite a sv c allowed act s) := by
  unfold mbWrite
  repeat' (first | (with_reducible first | assumption | refine To.ite ?_ ?_ | refine hact _ ?_ | refine onPage_to ?_ ?_ ?_ | refine mbCommand_to ?_ ?_ ?_ | refine Out.next ?_) | exact To.sub hT (by decide) | refine To.fst (by assumption) ?_ | refine To.snd (by assumption) ?_ | split | (intro _; intros))

theorem pmbusEnableSt_to {s : State} {mode : Option (BitVec 8)} (hT : T ||| 1048578 = T) (hS : To T s0 s) :
    To T s0 (pmbusEnableSt mode s) := by
  unfold pmbusEnableSt
  try dsimp -proj only
  repeat' (first | (with_reducible first | assumption | refine To.ite ?_ ?_ | refine modReg_to ?_ ?_ | refine setReg_to ?_ ?_ | refine setEnabled_to ?_ ?_ | refine ownErr_to ?_ ?_) | exact To.sub hT (by decide) | refine To.fst (by assumption) ?_ | refine To.snd (by assumption) ?_ | split | dsimp -proj only | (intro _; intros))

theorem gpioLevels_to {s : State} (hT : T ||| 2 = T) (hS : To T s0 s) :
    To T s0 (gpioLevels s) := by
  unfold gpioLevels
  try dsimp -proj only
  repeat' (first | (with_reducible first | assumption | refine To.ite ?_ ?_ | refine setEvt_to ?_ ?_) | exact To.sub hT (by decide) | refine To.fst (by assumption) ?_ | refine To.snd (by assumption) ?_ | split | dsimp -proj only)

theorem gpioEdgeSt_to {s : State} {n : Nat} {level : Bool} (hT : T ||| 2 = T) (hS : To T s0 s) :
    To T s0 (gpioEdgeSt n level s) := by
  unfold gpioEdgeSt
  try dsimp -proj only
  repeat' (first | (with_reducible first | assumption | refine To.ite ?_ ?_ | refine modReg_to ?_ ?_ | refine gpioLevels_to ?_ ?_) | exact To.sub hT (by decide) | refine To.fst (by assumption) ?_ | refine To.snd (by assumption) ?_ | split | dsimp -proj only | (intro _; intros))

theorem execPoreset_to {s : State} (hT : T ||| 30786325576062 = T) (hS : To T s0 s) :
    Out T s0 (execPoreset s) := by
  unfold execPoreset
  repeat' (first | (with_reducible first | assumption | refine To.ite ?_ ?_ | refine selfRefreshLost_to ?_ ?_ | refine powerOn_to ?_ ?_ | refine Out.next ?_) | exact To.sub hT (by decide) | refine To.fst (by assumption) ?_ | refine To.snd (by assumption) ?_ | split)

theorem execVddAonBrownout_to {s : State} (hT : T ||| 30786325576062 = T) (hS : To T s0 s) :
    Out T s0 (execVddAonBrownout s) := by
  unfold execVddAonBrownout
  repeat' (first | (with_reducible first | assumption | refine To.ite ?_ ?_ | refine selfRefreshLost_to ?_ ?_ | refine powerOn_to ?_ ?_ | refine Out.next ?_) | exact To.sub hT (by decide) | refine To.fst (by assumption) ?_ | refine To.snd (by assumption) ?_ | split)

theorem execWreset_to {s : State} (hT : T ||| 30786325576062 = T) (hS : To T s0 s) :
    Out T s0 (execWreset s) := by
  unfold execWreset
  repeat' (first | (with_reducible first | assumption | refine To.ite ?_ ?_ | refine warmReset_to ?_ ?_ | refine Out.next ?_) | exact To.sub hT (by decide) | refine To.fst (by assumption) ?_ | refine To.snd (by assumption) ?_ | split)

theorem execRstCmdWarm_to {s : State} {a : Acc} {v : Word} (hT : T ||| 30786325576062 = T) (hS : To T s0 s) :
    Out T s0 (execRstCmdWarm a v s) := by
  unfold execRstCmdWarm
  repeat' (first | (with_reducible first | assumption | refine To.ite ?_ ?_ | refine onPage_to ?_ ?_ ?_ | refine rstCmdSt_to ?_ ?_ | refine Out.next ?_) | exact To.sub hT (by decide) | refine To.fst (by assumption) ?_ | refine To.snd (by assumption) ?_ | split | (intro _; intros))

theorem execFatalReset_to {s : State} (hT : T ||| 30786325576062 = T) (hS : To T s0 s) :
    Out T s0 (execFatalReset s) := by
  unfold execFatalReset
  repeat' (first | (with_reducible first | assumption | refine To.ite ?_ ?_ | refine warmReset_to ?_ ?_ | refine Out.next ?_) | exact To.sub hT (by decide) | refine To.fst (by assumption) ?_ | refine To.snd (by assumption) ?_ | split)

theorem execPcieReset_to {s : State} (hT : T ||| 9964324126734 = T) (hS : To T s0 s) :
    Out T s0 (execPcieReset s) := by
  unfold execPcieReset
  repeat' (first | (with_reducible first | assumption | refine To.ite ?_ ?_ | refine pcieResetSt_to ?_ ?_ | refine Out.next ?_) | exact To.sub hT (by decide) | refine To.fst (by assumption) ?_ | refine To.snd (by assumption) ?_ | split)

theorem execWdogExpiry_to {s : State} (hT : T ||| 30786325576062 = T) (hS : To T s0 s) :
    Out T s0 (execWdogExpiry s) := by
  unfold execWdogExpiry
  repeat' (first | (with_reducible first | assumption | refine To.ite ?_ ?_ | refine warmReset_to ?_ ?_ | refine Out.next ?_) | exact To.sub hT (by decide) | refine To.fst (by assumption) ?_ | refine To.snd (by assumption) ?_ | split)

theorem execWdogHalf_to {s : State} (hT : T ||| 8796093022210 = T) (hS : To T s0 s) :
    Out T s0 (execWdogHalf s) := by
  unfold execWdogHalf
  try dsimp -proj only
  repeat' (first | (with_reducible first | assumption | refine To.ite ?_ ?_ | refine setEvt_to ?_ ?_ | refine modBoot_to ?_ ?_ | refine Out.next ?_) | exact To.sub hT (by decide) | refine To.fst (by assumption) ?_ | refine To.snd (by assumption) ?_ | split | dsimp -proj only | (intro _; intros))

theorem execWdogKick_to {s : State} {a : Acc} {v : Word} (hT : T ||| 8796094070802 = T) (hS : To T s0 s) :
    Out T s0 (execWdogKick a v s) := by
  unfold execWdogKick
  repeat' (first | (with_reducible first | assumption | refine To.ite ?_ ?_ | refine onPage_to ?_ ?_ ?_ | refine wdogKickSt_to ?_ ?_ | refine Out.next ?_) | exact To.sub hT (by decide) | refine To.fst (by assumption) ?_ | refine To.snd (by assumption) ?_ | split | (intro _; intros))

theorem execResetRelease_to {s : State} {mode : BitVec 2} (hT : T ||| 8796093022210 = T) (hS : To T s0 s) :
    Out T s0 (execResetRelease mode s) := by
  unfold execResetRelease
  repeat' (first | (with_reducible first | assumption | refine To.ite ?_ ?_ | refine resetReleaseSt_to ?_ ?_ | refine Out.next ?_) | exact To.sub hT (by decide) | refine To.fst (by assumption) ?_ | refine To.snd (by assumption) ?_ | split)

theorem execSelfTestDone_to {s : State} {failed : List (Fin 320)} {fatal : Bool} {pllOk : Bool} (hT : T ||| 28587298120190 = T) (hS : To T s0 s) :
    Out T s0 (execSelfTestDone failed fatal pllOk s) := by
  unfold execSelfTestDone
  repeat' (first | (with_reducible first | assumption | refine To.ite ?_ ?_ | refine selfTestSt_to ?_ ?_ | refine Out.next ?_) | exact To.sub hT (by decide) | refine To.fst (by assumption) ?_ | refine To.snd (by assumption) ?_ | split)

theorem execImageSelected_to {s : State} (hT : T ||| 8798241759986 = T) (hS : To T s0 s) :
    Out T s0 (execImageSelected s) := by
  unfold execImageSelected
  repeat' (first | (with_reducible first | assumption | refine To.ite ?_ ?_ | refine whileRuns_to ?_ ?_ ?_ | refine imageSelectSt_to ?_ ?_ | refine Out.next ?_) | exact To.sub hT (by decide) | refine To.fst (by assumption) ?_ | refine To.snd (by assumption) ?_ | split | (intro _; intros))

theorem execBootReady_to {s : State} (hT : T ||| 9005266346482 = T) (hS : To T s0 s) :
    Out T s0 (execBootReady s) := by
  unfold execBootReady
  repeat' (first | (with_reducible first | assumption | refine To.ite ?_ ?_ | refine whileRuns_to ?_ ?_ ?_ | refine bootReadySt_to ?_ ?_ | refine Out.next ?_) | exact To.sub hT (by decide) | refine To.fst (by assumption) ?_ | refine To.snd (by assumption) ?_ | split | (intro _; intros))

theorem execPcieGo_to {s : State} {a : Acc} {v : Word} (hT : T ||| 8798241759474 = T) (hS : To T s0 s) :
    Out T s0 (execPcieGo a v s) := by
  unfold execPcieGo
  repeat' (first | (with_reducible first | assumption | refine To.ite ?_ ?_ | refine onPage_to ?_ ?_ ?_ | refine pcieGoSt_to ?_ ?_ | refine Out.next ?_) | exact To.sub hT (by decide) | refine To.fst (by assumption) ?_ | refine To.snd (by assumption) ?_ | split | (intro _; intros))

theorem execFlRead_to {s : State} {a : Acc} (hT : T ||| 8796094275826 = T) (hS : To T s0 s) :
    Out T s0 (execFlRead a s) := by
  unfold execFlRead
  repeat' (first | (with_reducible first | assumption | refine To.ite ?_ ?_ | refine onPage_to ?_ ?_ ?_ | refine flashCmd_to ?_ ?_ | refine Out.next ?_) | exact To.sub hT (by decide) | refine To.fst (by assumption) ?_ | refine To.snd (by assumption) ?_ | split | (intro _; intros))

theorem execFlProgram_to {s : State} {a : Acc} (hT : T ||| 8796094275826 = T) (hS : To T s0 s) :
    Out T s0 (execFlProgram a s) := by
  unfold execFlProgram
  repeat' (first | (with_reducible first | assumption | refine To.ite ?_ ?_ | refine onPage_to ?_ ?_ ?_ | refine flashCmd_to ?_ ?_ | refine Out.next ?_) | exact To.sub hT (by decide) | refine To.fst (by assumption) ?_ | refine To.snd (by assumption) ?_ | split | (intro _; intros))

theorem execFlErase_to {s : State} {a : Acc} (hT : T ||| 8796094275826 = T) (hS : To T s0 s) :
    Out T s0 (execFlErase a s) := by
  unfold execFlErase
  repeat' (first | (with_reducible first | assumption | refine To.ite ?_ ?_ | refine onPage_to ?_ ?_ ?_ | refine flashCmd_to ?_ ?_ | refine Out.next ?_) | exact To.sub hT (by decide) | refine To.fst (by assumption) ?_ | refine To.snd (by assumption) ?_ | split | (intro _; intros))

theorem execFlDone_to {s : State} {fail : Bool} (hT : T ||| 8796093022210 = T) (hS : To T s0 s) :
    Out T s0 (execFlDone fail s) := by
  unfold execFlDone
  try dsimp -proj only
  repeat' (first | (with_reducible first | assumption | refine To.ite ?_ ?_ | refine whileRuns_to ?_ ?_ ?_ | refine flashDone_to ?_ ?_ | refine Out.next ?_) | exact To.sub hT (by decide) | refine To.fst (by assumption) ?_ | refine To.snd (by assumption) ?_ | split | dsimp -proj only | (intro _; intros))

theorem execCfgGo_to {s : State} {a : Acc} {v : Word} (hT : T ||| 8796094275826 = T) (hS : To T s0 s) :
    Out T s0 (execCfgGo a v s) := by
  unfold execCfgGo
  repeat' (first | (with_reducible first | assumption | refine To.ite ?_ ?_ | refine onPage_to ?_ ?_ ?_ | refine cfgGoSt_to ?_ ?_ | refine Out.next ?_) | exact To.sub hT (by decide) | refine To.fst (by assumption) ?_ | refine To.snd (by assumption) ?_ | split | (intro _; intros))

theorem execCfgPersist_to {s : State} (hT : T ||| 8796093022208 = T) (hS : To T s0 s) :
    Out T s0 (execCfgPersist s) := by
  unfold execCfgPersist
  repeat' (first | (with_reducible first | assumption | refine To.ite ?_ ?_ | refine cfgPersistSt_to ?_ ?_ | refine Out.next ?_) | exact To.sub hT (by decide) | refine To.fst (by assumption) ?_ | refine To.snd (by assumption) ?_ | split)

theorem execVerifyCfg_to {s : State} {a : Acc} {sv : Bool} (hT : T ||| 8796094070802 = T) (hS : To T s0 s) :
    Out T s0 (execVerifyCfg a sv s) := by
  unfold execVerifyCfg
  repeat' (first | (with_reducible first | assumption | refine To.ite ?_ ?_ | refine mbWrite_to ?_ ?_ ?_ | refine verifyCfgAct_to ?_ ?_ | refine Out.next ?_) | exact To.sub hT (by decide) | refine To.fst (by assumption) ?_ | refine To.snd (by assumption) ?_ | split | (intro _; intros))

theorem execSignCal_to {s : State} {a : Acc} {sv : Bool} (hT : T ||| 8796094275826 = T) (hS : To T s0 s) :
    Out T s0 (execSignCal a sv s) := by
  unfold execSignCal
  repeat' (first | (with_reducible first | assumption | refine To.ite ?_ ?_ | refine mbWrite_to ?_ ?_ ?_ | refine signCalAct_to ?_ ?_ | refine Out.next ?_) | exact To.sub hT (by decide) | refine To.fst (by assumption) ?_ | refine To.snd (by assumption) ?_ | split | (intro _; intros))

theorem execVerifyCal_to {s : State} {a : Acc} {sv : Bool} (hT : T ||| 8796094070802 = T) (hS : To T s0 s) :
    Out T s0 (execVerifyCal a sv s) := by
  unfold execVerifyCal
  repeat' (first | (with_reducible first | assumption | refine To.ite ?_ ?_ | refine mbWrite_to ?_ ?_ ?_ | refine verifyCalAct_to ?_ ?_ | refine Out.next ?_) | exact To.sub hT (by decide) | refine To.fst (by assumption) ?_ | refine To.snd (by assumption) ?_ | split | (intro _; intros))

theorem execConfirm_to {s : State} {a : Acc} {sv : Bool} (hT : T ||| 8796094071314 = T) (hS : To T s0 s) :
    Out T s0 (execConfirm a sv s) := by
  unfold execConfirm
  repeat' (first | (with_reducible first | assumption | refine To.ite ?_ ?_ | refine mbWrite_to ?_ ?_ ?_ | refine confirmAct_to ?_ ?_ | refine Out.next ?_) | exact To.sub hT (by decide) | refine To.fst (by assumption) ?_ | refine To.snd (by assumption) ?_ | split | (intro _; intros))

theorem execAttest_to {s : State} {a : Acc} {sv : Bool} (hT : T ||| 8796094275826 = T) (hS : To T s0 s) :
    Out T s0 (execAttest a sv s) := by
  unfold execAttest
  repeat' (first | (with_reducible first | assumption | refine To.ite ?_ ?_ | refine mbWrite_to ?_ ?_ ?_ | refine attestAct_to ?_ ?_ | refine Out.next ?_) | exact To.sub hT (by decide) | refine To.fst (by assumption) ?_ | refine To.snd (by assumption) ?_ | split | (intro _; intros))

theorem execDebugChallenge_to {s : State} {a : Acc} {sv : Bool} (hT : T ||| 8796094276850 = T) (hS : To T s0 s) :
    Out T s0 (execDebugChallenge a sv s) := by
  unfold execDebugChallenge
  repeat' (first | (with_reducible first | assumption | refine To.ite ?_ ?_ | refine mbWrite_to ?_ ?_ ?_ | refine challengeAct_to ?_ ?_ | refine Out.next ?_) | exact To.sub hT (by decide) | refine To.fst (by assumption) ?_ | refine To.snd (by assumption) ?_ | split | (intro _; intros))

theorem execDebugUnlock_to {s : State} {a : Acc} {sv : Bool} (hT : T ||| 8796094210130 = T) (hS : To T s0 s) :
    Out T s0 (execDebugUnlock a sv s) := by
  unfold execDebugUnlock
  repeat' (first | (with_reducible first | assumption | refine To.ite ?_ ?_ | refine mbWrite_to ?_ ?_ ?_ | refine unlockAct_to ?_ ?_ | refine Out.next ?_) | exact To.sub hT (by decide) | refine To.fst (by assumption) ?_ | refine To.snd (by assumption) ?_ | split | (intro _; intros))

theorem execFuseKey_to {s : State} {a : Acc} {sv : Bool} {blown : Bool} (hT : T ||| 8796094210642 = T) (hS : To T s0 s) :
    Out T s0 (execFuseKey a sv blown s) := by
  unfold execFuseKey
  repeat' (first | (with_reducible first | assumption | refine To.ite ?_ ?_ | refine mbWrite_to ?_ ?_ ?_ | refine fuseKeyAct_to ?_ ?_ | refine Out.next ?_) | exact To.sub hT (by decide) | refine To.fst (by assumption) ?_ | refine To.snd (by assumption) ?_ | split | (intro _; intros))

theorem execFuseRevoke_to {s : State} {a : Acc} {sv : Bool} {blown : Bool} (hT : T ||| 8796094071314 = T) (hS : To T s0 s) :
    Out T s0 (execFuseRevoke a sv blown s) := by
  unfold execFuseRevoke
  repeat' (first | (with_reducible first | assumption | refine To.ite ?_ ?_ | refine mbWrite_to ?_ ?_ ?_ | refine fuseRevokeAct_to ?_ ?_ | refine Out.next ?_) | exact To.sub hT (by decide) | refine To.fst (by assumption) ?_ | refine To.snd (by assumption) ?_ | split | (intro _; intros))

theorem execFuseLock_to {s : State} {a : Acc} {sv : Bool} {blown : Bool} (hT : T ||| 8796094071314 = T) (hS : To T s0 s) :
    Out T s0 (execFuseLock a sv blown s) := by
  unfold execFuseLock
  repeat' (first | (with_reducible first | assumption | refine To.ite ?_ ?_ | refine mbWrite_to ?_ ?_ ?_ | refine fuseLockAct_to ?_ ?_ | refine Out.next ?_) | exact To.sub hT (by decide) | refine To.fst (by assumption) ?_ | refine To.snd (by assumption) ?_ | split | (intro _; intros))

theorem execMailboxDone_to {s : State} {sv : Bool} (hT : T ||| 8796093022210 = T) (hS : To T s0 s) :
    Out T s0 (execMailboxDone sv s) := by
  unfold execMailboxDone
  repeat' (first | (with_reducible first | assumption | refine To.ite ?_ ?_ | refine whileRuns_to ?_ ?_ ?_ | refine mbDone_to ?_ ?_ | refine Out.next ?_) | exact To.sub hT (by decide) | refine To.fst (by assumption) ?_ | refine To.snd (by assumption) ?_ | split | (intro _; intros))

theorem execPmbusEnable_to {s : State} {a : Acc} {mode : Option (BitVec 8)} (hT : T ||| 1048594 = T) (hS : To T s0 s) :
    Out T s0 (execPmbusEnable a mode s) := by
  unfold execPmbusEnable
  repeat' (first | (with_reducible first | assumption | refine To.ite ?_ ?_ | refine onPage_to ?_ ?_ ?_ | refine pmbusEnableSt_to ?_ ?_ | refine Out.next ?_) | exact To.sub hT (by decide) | refine To.fst (by assumption) ?_ | refine To.snd (by assumption) ?_ | split | (intro _; intros))

theorem execPmbAlert_to {s : State} (hT : T ||| 2 = T) (hS : To T s0 s) :
    Out T s0 (execPmbAlert s) := by
  unfold execPmbAlert
  try dsimp -proj only
  repeat' (first | (with_reducible first | assumption | refine To.ite ?_ ?_ | refine setEvt_to ?_ ?_ | refine modReg_to ?_ ?_ | refine Out.next ?_) | exact To.sub hT (by decide) | refine To.fst (by assumption) ?_ | refine To.snd (by assumption) ?_ | split | dsimp -proj only | (intro _; intros))

theorem execGpioEdge_to {s : State} {n : Fin 32} {level : Bool} (hT : T ||| 2 = T) (hS : To T s0 s) :
    Out T s0 (execGpioEdge n level s) := by
  unfold execGpioEdge
  repeat' (first | (with_reducible first | assumption | refine To.ite ?_ ?_ | refine gpioEdgeSt_to ?_ ?_ | refine Out.next ?_) | exact To.sub hT (by decide) | refine To.fst (by assumption) ?_ | refine To.snd (by assumption) ?_ | split)

end Sys2Proof.Machine
end

