-- ==== Sys2Proof/Laws/ToClock.lean ====
section
/-! SUPPORT. The frames of the operations and meanings of Clock: what each may change. -/

namespace Sys2Proof.Machine

variable {T : Nat} {s0 : State}

theorem modClk_to {s : State} {f : ClkSt → ClkSt} (hT : T ||| 524288 = T) (hS : To T s0 s) :
    To T s0 (modClk s f) := by
  unfold modClk
  repeat' (first | (with_reducible first | assumption | refine To.ite ?_ ?_) | exact To.sub hT (by decide) | refine To.fst (by assumption) ?_ | refine To.snd (by assumption) ?_ | split | with_reducible first | refine To.set_clk ?_ ?_)

theorem freqDone_to {s : State} {c : Nat} (hT : T ||| 524306 = T) (hS : To T s0 s) :
    To T s0 (freqDone c s) := by
  unfold freqDone
  try dsimp -proj only
  repeat' (first | (with_reducible first | assumption | refine To.ite ?_ ?_ | refine lowerV_to ?_ ?_ | refine setCd_to ?_ ?_ | refine setEvt_to ?_ ?_ | refine incCnt_to ?_ ?_) | exact To.sub hT (by decide) | refine To.fst (by assumption) ?_ | refine To.snd (by assumption) ?_ | split | dsimp -proj only)

theorem freqBegin_to {s : State} {c : Nat} {step : Nat} (hT : T ||| 524306 = T) (hS : To T s0 s) :
    To T s0 (freqBegin c step s) := by
  unfold freqBegin
  try dsimp -proj only
  repeat' (first | (with_reducible first | assumption | refine To.ite ?_ ?_ | refine setCd_to ?_ ?_ | refine raiseV_to ?_ ?_ | refine freqDone_to ?_ ?_) | exact To.sub hT (by decide) | refine To.fst (by assumption) ?_ | refine To.snd (by assumption) ?_ | split | dsimp -proj only)

theorem cdFreqSt_to {s : State} {c : Nat} {v : Word} (hT : T ||| 524306 = T) (hS : To T s0 s) :
    To T s0 (cdFreqSt c v s) := by
  unfold cdFreqSt
  try dsimp -proj only
  repeat' (first | (with_reducible first | assumption | refine To.ite ?_ ?_ | refine setReg_to ?_ ?_ | refine setCd_to ?_ ?_ | refine freqBegin_to ?_ ?_) | exact To.sub hT (by decide) | refine To.fst (by assumption) ?_ | refine To.snd (by assumption) ?_ | split | dsimp -proj only)

theorem releaseClusters_to {s : State} (hT : T ||| 524288 = T) (hS : To T s0 s) :
    To T s0 (releaseClusters s) := by
  unfold releaseClusters
  try dsimp -proj only
  repeat' (first | (with_reducible first | assumption | refine To.ite ?_ ?_ | refine setCd_to ?_ ?_ | refine To.foldl _ (fun _ _ _ => ?_) ?_ | refine To.foldl_fst _ (fun _ _ _ => ?_) ?_) | exact To.sub hT (by decide) | refine To.fst (by assumption) ?_ | refine To.snd (by assumption) ?_ | split | dsimp -proj only | (intro _; intros))

theorem avsSettledSt_to {s : State} (hT : T ||| 524306 = T) (hS : To T s0 s) :
    To T s0 (avsSettledSt s) := by
  unfold avsSettledSt
  try dsimp -proj only
  repeat' (first | (with_reducible first | assumption | refine To.ite ?_ ?_ | refine releaseClusters_to ?_ ?_ | refine modClk_to ?_ ?_ | refine lowerV_to ?_ ?_ | refine raiseV_to ?_ ?_) | exact To.sub hT (by decide) | refine To.fst (by assumption) ?_ | refine To.snd (by assumption) ?_ | split | dsimp -proj only | (intro _; intros))

theorem slewSt_to {s : State} {c : Nat} (hT : T ||| 524306 = T) (hS : To T s0 s) :
    To T s0 (slewSt c s) := by
  unfold slewSt
  try dsimp -proj only
  repeat' (first | (with_reducible first | assumption | refine To.ite ?_ ?_ | refine setCd_to ?_ ?_ | refine freqDone_to ?_ ?_ | refine freqBegin_to ?_ ?_) | exact To.sub hT (by decide) | refine To.fst (by assumption) ?_ | refine To.snd (by assumption) ?_ | split | dsimp -proj only)

theorem avsFailSt_to {s : State} (hT : T ||| 1572866 = T) (hS : To T s0 s) :
    To T s0 (avsFailSt s) := by
  unfold avsFailSt
  try dsimp -proj only
  repeat' (first | (with_reducible first | assumption | refine To.ite ?_ ?_ | refine modClk_to ?_ ?_ | refine ownErr_to ?_ ?_ | refine setEvt_to ?_ ?_ | refine modReg_to ?_ ?_) | exact To.sub hT (by decide) | refine To.fst (by assumption) ?_ | refine To.snd (by assumption) ?_ | split | dsimp -proj only | (intro _; intros))

theorem pllUnlockSt_to {s : State} {pll : Nat} {lanes : List (Fin 512 × Fin 4)} (hT : T ||| 1048594 = T) (hS : To T s0 s) :
    To T s0 (pllUnlockSt pll lanes s) := by
  unfold pllUnlockSt
  try dsimp -proj only
  repeat' (first | (with_reducible first | assumption | refine To.ite ?_ ?_ | refine setEvt_to ?_ ?_ | refine modReg_to ?_ ?_ | refine ownErr_to ?_ ?_ | refine incCnt_to ?_ ?_ | refine modEvt_to ?_ ?_ | refine cdrUnlockSt_to ?_ ?_ | refine To.foldl _ (fun _ _ _ => ?_) ?_ | refine To.foldl_fst _ (fun _ _ _ => ?_) ?_) | exact To.sub hT (by decide) | refine To.fst (by assumption) ?_ | refine To.snd (by assumption) ?_ | split | dsimp -proj only | (intro _; intros))

theorem holdoverSt_to {s : State} {refLost : Bool} (hT : T ||| 3670034 = T) (hS : To T s0 s) :
    To T s0 (holdoverSt refLost s) := by
  unfold holdoverSt
  try dsimp -proj only
  repeat' (first | (with_reducible first | assumption | refine To.ite ?_ ?_ | refine setReg_to ?_ ?_ | refine modClk_to ?_ ?_ | refine ownErr_to ?_ ?_ | refine setEvt_to ?_ ?_ | refine incCnt_to ?_ ?_ | refine loseLanes_to ?_ ?_ | refine To.foldl _ (fun _ _ _ => ?_) ?_ | refine To.foldl_fst _ (fun _ _ _ => ?_) ?_) | exact To.sub hT (by decide) | refine To.fst (by assumption) ?_ | refine To.snd (by assumption) ?_ | split | dsimp -proj only | (intro _; intros))

theorem holdoverExitSt_to {s : State} (hT : T ||| 524290 = T) (hS : To T s0 s) :
    To T s0 (holdoverExitSt s) := by
  unfold holdoverExitSt
  try dsimp -proj only
  repeat' (first | (with_reducible first | assumption | refine To.ite ?_ ?_ | refine setReg_to ?_ ?_ | refine modClk_to ?_ ?_) | exact To.sub hT (by decide) | refine To.fst (by assumption) ?_ | refine To.snd (by assumption) ?_ | split | dsimp -proj only | (intro _; intros))

theorem execCdFreqWrite_to {s : State} {a : Acc} {c : Fin 16} {v : Word} (hT : T ||| 1572882 = T) (hS : To T s0 s) :
    Out T s0 (execCdFreqWrite a c v s) := by
  unfold execCdFreqWrite
  repeat' (first | (with_reducible first | assumption | refine To.ite ?_ ?_ | refine onPage_to ?_ ?_ ?_ | refine cdFreqSt_to ?_ ?_ | refine Out.next ?_) | exact To.sub hT (by decide) | refine To.fst (by assumption) ?_ | refine To.snd (by assumption) ?_ | split | (intro _; intros))

theorem execAvsSettled_to {s : State} (hT : T ||| 524306 = T) (hS : To T s0 s) :
    Out T s0 (execAvsSettled s) := by
  unfold execAvsSettled
  repeat' (first | (with_reducible first | assumption | refine To.ite ?_ ?_ | refine avsSettledSt_to ?_ ?_ | refine Out.next ?_) | exact To.sub hT (by decide) | refine To.fst (by assumption) ?_ | refine To.snd (by assumption) ?_ | split)

theorem execPllSlewStep_to {s : State} {c : Fin 16} (hT : T ||| 524306 = T) (hS : To T s0 s) :
    Out T s0 (execPllSlewStep c s) := by
  unfold execPllSlewStep
  repeat' (first | (with_reducible first | assumption | refine To.ite ?_ ?_ | refine slewSt_to ?_ ?_ | refine Out.next ?_) | exact To.sub hT (by decide) | refine To.fst (by assumption) ?_ | refine To.snd (by assumption) ?_ | split)

theorem execAvsFail_to {s : State} (hT : T ||| 1572866 = T) (hS : To T s0 s) :
    Out T s0 (execAvsFail s) := by
  unfold execAvsFail
  repeat' (first | (with_reducible first | assumption | refine To.ite ?_ ?_ | refine avsFailSt_to ?_ ?_ | refine Out.next ?_) | exact To.sub hT (by decide) | refine To.fst (by assumption) ?_ | refine To.snd (by assumption) ?_ | split)

theorem execPllUnlock_to {s : State} {pll : Fin 30} {lanes : List (Fin 512 × Fin 4)} (hT : T ||| 1048594 = T) (hS : To T s0 s) :
    Out T s0 (execPllUnlock pll lanes s) := by
  unfold execPllUnlock
  repeat' (first | (with_reducible first | assumption | refine To.ite ?_ ?_ | refine pllUnlockSt_to ?_ ?_ | refine Out.next ?_) | exact To.sub hT (by decide) | refine To.fst (by assumption) ?_ | refine To.snd (by assumption) ?_ | split)

theorem execPllRelock_to {s : State} {pll : Fin 30} (hT : T ||| 2 = T) (hS : To T s0 s) :
    Out T s0 (execPllRelock pll s) := by
  unfold execPllRelock
  try dsimp -proj only
  repeat' (first | (with_reducible first | assumption | refine To.ite ?_ ?_ | refine modReg_to ?_ ?_ | refine Out.next ?_) | exact To.sub hT (by decide) | refine To.fst (by assumption) ?_ | refine To.snd (by assumption) ?_ | split | dsimp -proj only | (intro _; intros))

theorem execHoldover_to {s : State} {refLost : Bool} (hT : T ||| 3670034 = T) (hS : To T s0 s) :
    Out T s0 (execHoldover refLost s) := by
  unfold execHoldover
  repeat' (first | (with_reducible first | assumption | refine To.ite ?_ ?_ | refine holdoverSt_to ?_ ?_ | refine Out.next ?_) | exact To.sub hT (by decide) | refine To.fst (by assumption) ?_ | refine To.snd (by assumption) ?_ | split)

theorem execHoldoverExit_to {s : State} (hT : T ||| 524290 = T) (hS : To T s0 s) :
    Out T s0 (execHoldoverExit s) := by
  unfold execHoldoverExit
  repeat' (first | (with_reducible first | assumption | refine To.ite ?_ ?_ | refine holdoverExitSt_to ?_ ?_ | refine Out.next ?_) | exact To.sub hT (by decide) | refine To.fst (by assumption) ?_ | refine To.snd (by assumption) ?_ | split)

end Sys2Proof.Machine
end

