-- ==== Sys2Proof/Laws/ToDisp.lean ====
section
/-! SUPPORT. The frames of the operations and meanings of Disp: what each may change. -/

namespace Sys2Proof.Machine

variable {T : Nat} {s0 : State}

theorem modDisp_to {s : State} {f : DispSt → DispSt} (hT : T ||| 32768 = T) (hS : To T s0 s) :
    To T s0 (modDisp s f) := by
  unfold modDisp
  repeat' (first | (with_reducible first | assumption | refine To.ite ?_ ?_) | exact To.sub hT (by decide) | refine To.fst (by assumption) ?_ | refine To.snd (by assumption) ?_ | split | with_reducible first | refine To.set_disp ?_ ?_)

theorem malformed_to {s : State} (hT : T ||| 1048594 = T) (hS : To T s0 s) :
    To T s0 (malformed s) := by
  unfold malformed
  repeat' (first | (with_reducible first | assumption | refine To.ite ?_ ?_ | refine ownErr_to ?_ ?_ | refine incCnt_to ?_ ?_) | exact To.sub hT (by decide) | refine To.fst (by assumption) ?_ | refine To.snd (by assumption) ?_ | split)

theorem discard_to {s : State} {t : Token} (hT : T ||| 16 = T) (hS : To T s0 s) :
    To T s0 (discard s t) := by
  unfold discard
  repeat' (first | (with_reducible first | assumption | refine To.ite ?_ ?_ | refine incCnt_to ?_ ?_) | exact To.sub hT (by decide) | refine To.fst (by assumption) ?_ | refine To.snd (by assumption) ?_ | split)

theorem setInst_to {s : State} {i : Nat} {r : InstRec} (hT : T ||| 32768 = T) (hS : To T s0 s) :
    To T s0 (setInst s i r) := by
  unfold setInst
  try dsimp -proj only
  repeat' (first | (with_reducible first | assumption | refine To.ite ?_ ?_ | refine modDisp_to ?_ ?_) | exact To.sub hT (by decide) | refine To.fst (by assumption) ?_ | refine To.snd (by assumption) ?_ | split | dsimp -proj only | (intro _; intros))

theorem phyStopped_to {s : State} {phy : Nat} {forced : Bool} (hT : T ||| 7696582443154 = T) (hS : To T s0 s) :
    To T s0 (phyStopped phy forced s) := by
  unfold phyStopped
  try dsimp -proj only
  repeat' (first | (with_reducible first | assumption | refine To.ite ?_ ?_ | refine fapiSend_to ?_ ?_) | exact To.sub hT (by decide) | refine To.fst (by assumption) ?_ | refine To.snd (by assumption) ?_ | split | (with_reducible first | refine To.set_phys ?_ ?_) | dsimp -proj only)

theorem phyPoll_to {s : State} (hT : T ||| 7696582443154 = T) (hS : To T s0 s) :
    To T s0 (phyPoll s) := by
  unfold phyPoll
  try dsimp -proj only
  repeat' (first | (with_reducible first | assumption | refine To.ite ?_ ?_ | refine phyStopped_to ?_ ?_ | refine To.foldl _ (fun _ _ _ => ?_) ?_ | refine To.foldl_fst _ (fun _ _ _ => ?_) ?_) | exact To.sub hT (by decide) | refine To.fst (by assumption) ?_ | refine To.snd (by assumption) ?_ | split | dsimp -proj only | (intro _; intros))

theorem freeInst_to {s : State} {i : Nat} (hT : T ||| 7696582475922 = T) (hS : To T s0 s) :
    To T s0 (freeInst s i) := by
  unfold freeInst
  repeat' (first | (with_reducible first | assumption | refine To.ite ?_ ?_ | refine phyPoll_to ?_ ?_ | refine setInst_to ?_ ?_) | exact To.sub hT (by decide) | refine To.fst (by assumption) ?_ | refine To.snd (by assumption) ?_ | split)

theorem closeInstance_to {s : State} {i : Nat} (hT : T ||| 7696582475922 = T) (hS : To T s0 s) :
    To T s0 (closeInstance s i) := by
  unfold closeInstance
  try dsimp -proj only
  repeat' (first | (with_reducible first | assumption | refine To.ite ?_ ?_ | refine modDisp_to ?_ ?_ | refine freeInst_to ?_ ?_ | refine setInst_to ?_ ?_) | exact To.sub hT (by decide) | refine To.fst (by assumption) ?_ | refine To.snd (by assumption) ?_ | split | dsimp -proj only | (intro _; intros))

theorem failInst_to {s : State} {i : Nat} (hT : T ||| 32770 = T) (hS : To T s0 s) :
    To T s0 (failInst s i) := by
  unfold failInst
  repeat' (first | (with_reducible first | assumption | refine To.ite ?_ ?_ | refine setEvt_to ?_ ?_ | refine setInst_to ?_ ?_) | exact To.sub hT (by decide) | refine To.fst (by assumption) ?_ | refine To.snd (by assumption) ?_ | split)

theorem sendTokens_to {s : State} {inst : Nat} {w : List Word} {kind : BitVec 2} {payload : Dword} (hT : T ||| 1081362 = T) (hS : To T s0 s) :
    To T s0 (sendTokens s inst w kind payload) := by
  unfold sendTokens
  try dsimp -proj only
  repeat' (first | (with_reducible first | assumption | refine To.ite ?_ ?_ | refine malformed_to ?_ ?_ | refine modDisp_to ?_ ?_) | exact To.sub hT (by decide) | refine To.fst (by assumption) ?_ | refine To.snd (by assumption) ?_ | split | dsimp -proj only | (intro _; intros))

theorem sendSuccs_to {s : State} {inst : Nat} {w : List Word} {kind : BitVec 2} {payload : Dword} (hT : T ||| 7696582475922 = T) (hS : To T s0 s) :
    To T s0 (sendSuccs s inst w kind payload) := by
  unfold sendSuccs
  try dsimp -proj only
  repeat' (first | (with_reducible first | assumption | refine To.ite ?_ ?_ | refine sendTokens_to ?_ ?_ | refine closeInstance_to ?_ ?_) | exact To.sub hT (by decide) | refine To.fst (by assumption) ?_ | refine To.snd (by assumption) ?_ | split | dsimp -proj only)

theorem retire_to {s : State} {f : OutFire} (hT : T ||| 7696582475922 = T) (hS : To T s0 s) :
    To T s0 (retire s f) := by
  unfold retire
  try dsimp -proj only
  repeat' (first | (with_reducible first | assumption | refine To.ite ?_ ?_ | refine modDisp_to ?_ ?_ | refine setInst_to ?_ ?_ | refine freeInst_to ?_ ?_) | exact To.sub hT (by decide) | refine To.fst (by assumption) ?_ | refine To.snd (by assumption) ?_ | split | dsimp -proj only | (intro _; intros))

theorem setEntry_to {s : State} {e : Entry} (hT : T ||| 32768 = T) (hS : To T s0 s) :
    To T s0 (setEntry s e) := by
  unfold setEntry
  try dsimp -proj only
  repeat' (first | (with_reducible first | assumption | refine To.ite ?_ ?_ | refine modDisp_to ?_ ?_) | exact To.sub hT (by decide) | refine To.fst (by assumption) ?_ | refine To.snd (by assumption) ?_ | split | dsimp -proj only | (intro _; intros))

theorem dropEntry_to {s : State} {e : Entry} (hT : T ||| 32768 = T) (hS : To T s0 s) :
    To T s0 (dropEntry s e) := by
  unfold dropEntry
  try dsimp -proj only
  repeat' (first | (with_reducible first | assumption | refine To.ite ?_ ?_ | refine modDisp_to ?_ ?_) | exact To.sub hT (by decide) | refine To.fst (by assumption) ?_ | refine To.snd (by assumption) ?_ | split | dsimp -proj only | (intro _; intros))

theorem makeReady_to {s : State} {e : Entry} {first : Nat} (hT : T ||| 32768 = T) (hS : To T s0 s) :
    To T s0 (makeReady s e first) := by
  unfold makeReady
  try dsimp -proj only
  repeat' (first | (with_reducible first | assumption | refine To.ite ?_ ?_ | refine setEntry_to ?_ ?_ | refine modDisp_to ?_ ?_) | exact To.sub hT (by decide) | refine To.fst (by assumption) ?_ | refine To.snd (by assumption) ?_ | split | dsimp -proj only | (intro _; intros))

theorem joinReady_to {s : State} {e : Entry} (hT : T ||| 7696582475922 = T) (hS : To T s0 s) :
    To T s0 (joinReady s e) := by
  unfold joinReady
  repeat' (first | (with_reducible first | assumption | refine To.ite ?_ ?_ | refine makeReady_to ?_ ?_ | refine sendSuccs_to ?_ ?_ | refine dropEntry_to ?_ ?_) | exact To.sub hT (by decide) | refine To.fst (by assumption) ?_ | refine To.snd (by assumption) ?_ | split)

theorem cancelEntry_to {s : State} {e : Entry} (hT : T ||| 7696582475922 = T) (hS : To T s0 s) :
    To T s0 (cancelEntry s e) := by
  unfold cancelEntry
  try dsimp -proj only
  repeat' (first | (with_reducible first | assumption | refine To.ite ?_ ?_ | refine dropEntry_to ?_ ?_ | refine setEntry_to ?_ ?_ | refine sendSuccs_to ?_ ?_) | exact To.sub hT (by decide) | refine To.fst (by assumption) ?_ | refine To.snd (by assumption) ?_ | split | dsimp -proj only)

theorem newEntry_to {s : State} {t : Token} {w : List Word} (hT : T ||| 32770 = T) (hS : To T s0 s) :
    To T s0 (newEntry s t w).1 := by
  unfold newEntry
  try dsimp -proj only
  repeat' (first | (with_reducible first | assumption | refine To.ite ?_ ?_ | refine setEvt_to ?_ ?_ | refine modDisp_to ?_ ?_) | exact To.sub hT (by decide) | refine To.fst (by assumption) ?_ | refine To.snd (by assumption) ?_ | split | dsimp -proj only | (intro _; intros))

theorem absorb_to {s : State} {e : Entry} {port : Nat} (hT : T ||| 32784 = T) (hS : To T s0 s) :
    To T s0 (absorb s e port) := by
  unfold absorb
  try dsimp -proj only
  repeat' (first | (with_reducible first | assumption | refine To.ite ?_ ?_ | refine incCnt_to ?_ ?_ | refine dropEntry_to ?_ ?_ | refine setEntry_to ?_ ?_) | exact To.sub hT (by decide) | refine To.fst (by assumption) ?_ | refine To.snd (by assumption) ?_ | split | dsimp -proj only)

theorem arriveAt_to {s : State} {t : Token} {e : Entry} (hT : T ||| 7696582475922 = T) (hS : To T s0 s) :
    To T s0 (arriveAt s t e) := by
  unfold arriveAt
  try dsimp -proj only
  repeat' (first | (with_reducible first | assumption | refine To.ite ?_ ?_ | refine absorb_to ?_ ?_ | refine cancelEntry_to ?_ ?_ | refine ownErr_to ?_ ?_ | refine setEvt_to ?_ ?_ | refine incCnt_to ?_ ?_ | refine setEntry_to ?_ ?_ | refine makeReady_to ?_ ?_ | refine joinReady_to ?_ ?_) | exact To.sub hT (by decide) | refine To.fst (by assumption) ?_ | refine To.snd (by assumption) ?_ | split | dsimp -proj only)

theorem loseEntry_to {s : State} {e : Entry} (hT : T ||| 1081362 = T) (hS : To T s0 s) :
    To T s0 (loseEntry s e) := by
  unfold loseEntry
  try dsimp -proj only
  repeat' (first | (with_reducible first | assumption | refine To.ite ?_ ?_ | refine sendTokens_to ?_ ?_ | refine dropEntry_to ?_ ?_ | refine failInst_to ?_ ?_ | refine ownErr_to ?_ ?_) | exact To.sub hT (by decide) | refine To.fst (by assumption) ?_ | refine To.snd (by assumption) ?_ | split | dsimp -proj only)

theorem cancelFire_to {s : State} {tmpl : Nat} {inst : Nat} (hT : T ||| 32768 = T) (hS : To T s0 s) :
    To T s0 (cancelFire s tmpl inst) := by
  unfold cancelFire
  try dsimp -proj only
  repeat' (first | (with_reducible first | assumption | refine To.ite ?_ ?_ | refine modDisp_to ?_ ?_) | exact To.sub hT (by decide) | refine To.fst (by assumption) ?_ | refine To.snd (by assumption) ?_ | split | dsimp -proj only | (intro _; intros))

theorem matchToken_to {s : State} {t : Token} {cls : Nat} {w : List Word} {mark : Mark} (hT : T ||| 7696582484114 = T) (hS : To T s0 s) :
    To T s0 (matchToken s t cls w mark) := by
  unfold matchToken
  try dsimp -proj only
  repeat' (first | (with_reducible first | assumption | refine To.ite ?_ ?_ | refine countCe_to ?_ ?_ | refine incCnt_to ?_ ?_ | refine loseEntry_to ?_ ?_ | refine cancelFire_to ?_ ?_ | refine arriveAt_to ?_ ?_ | refine newEntry_to ?_ ?_ | refine modDisp_to ?_ ?_ | refine setEvt_to ?_ ?_) | exact To.sub hT (by decide) | refine To.fst (by assumption) ?_ | refine To.snd (by assumption) ?_ | split | dsimp -proj only | (intro _; intros))

theorem completeToken_to {s : State} {t : Token} {w : List Word} (hT : T ||| 7696582475922 = T) (hS : To T s0 s) :
    To T s0 (completeToken s t w) := by
  unfold completeToken
  try dsimp -proj only
  repeat' (first | (with_reducible first | assumption | refine To.ite ?_ ?_ | refine malformed_to ?_ ?_ | refine retire_to ?_ ?_ | refine sendSuccs_to ?_ ?_ | refine discard_to ?_ ?_) | exact To.sub hT (by decide) | refine To.fst (by assumption) ?_ | refine To.snd (by assumption) ?_ | split | dsimp -proj only)

theorem closedToken_to {s : State} {t : Token} (hT : T ||| 7696582475922 = T) (hS : To T s0 s) :
    To T s0 (closedToken s t) := by
  unfold closedToken
  repeat' (first | (with_reducible first | assumption | refine To.ite ?_ ?_ | refine retire_to ?_ ?_ | refine discard_to ?_ ?_) | exact To.sub hT (by decide) | refine To.fst (by assumption) ?_ | refine To.snd (by assumption) ?_ | split)

theorem readyToken_to {s : State} {t : Token} {cls : Nat} {w : List Word} {mark : Mark} (hT : T ||| 7696582484114 = T) (hS : To T s0 s) :
    To T s0 (readyToken s t cls w mark) := by
  unfold readyToken
  repeat' (first | (with_reducible first | assumption | refine To.ite ?_ ?_ | refine malformed_to ?_ ?_ | refine closedToken_to ?_ ?_ | refine completeToken_to ?_ ?_ | refine matchToken_to ?_ ?_) | exact To.sub hT (by decide) | refine To.fst (by assumption) ?_ | refine To.snd (by assumption) ?_ | split)

theorem stateToken_to {s : State} {t : Token} {cls : Nat} {mark : Mark} (hT : T ||| 7696582484114 = T) (hS : To T s0 s) :
    To T s0 (stateToken s t cls mark) := by
  unfold stateToken
  try dsimp -proj only
  repeat' (first | (with_reducible first | assumption | refine To.ite ?_ ?_ | refine modDisp_to ?_ ?_ | refine readyToken_to ?_ ?_) | exact To.sub hT (by decide) | refine To.fst (by assumption) ?_ | refine To.snd (by assumption) ?_ | split | dsimp -proj only | (intro _; intros))

theorem retireDone_to {s : State} {t : Token} (hT : T ||| 7696582475922 = T) (hS : To T s0 s) :
    To T s0 (retireDone s t) := by
  unfold retireDone
  repeat' (first | (with_reducible first | assumption | refine To.ite ?_ ?_ | refine retire_to ?_ ?_) | exact To.sub hT (by decide) | refine To.fst (by assumption) ?_ | refine To.snd (by assumption) ?_ | split)

theorem admitToken_to {s : State} {t : Token} {cls : Nat} {mark : Mark} (hT : T ||| 7696582484114 = T) (hS : To T s0 s) :
    To T s0 (admitToken s t cls mark) := by
  unfold admitToken
  repeat' (first | (with_reducible first | assumption | refine To.ite ?_ ?_ | refine discard_to ?_ ?_ | refine retireDone_to ?_ ?_ | refine malformed_to ?_ ?_ | refine stateToken_to ?_ ?_) | exact To.sub hT (by decide) | refine To.fst (by assumption) ?_ | refine To.snd (by assumption) ?_ | split)

theorem exportToken_to {s : State} {t : Token} (hT : T ||| 7696582680818 = T) (hS : To T s0 s) :
    To T s0 (exportToken s t) := by
  unfold exportToken
  try dsimp -proj only
  repeat' (first | (with_reducible first | assumption | refine To.ite ?_ ?_ | refine retireDone_to ?_ ?_ | refine ownErr_to ?_ ?_ | refine Ring.push_to ?_ ?_ | refine setEvt_to ?_ ?_) | exact To.sub hT (by decide) | refine To.fst (by assumption) ?_ | refine To.snd (by assumption) ?_ | split | dsimp -proj only)

theorem acceptToken_to {s : State} {t : Token} {cls : Nat} {mark : Mark} (hT : T ||| 7696582680818 = T) (hS : To T s0 s) :
    To T s0 (acceptToken s t cls mark) := by
  unfold acceptToken
  try dsimp -proj only
  repeat' (first | (with_reducible first | assumption | refine To.ite ?_ ?_ | refine incCnt_to ?_ ?_ | refine modDisp_to ?_ ?_ | refine exportToken_to ?_ ?_ | refine admitToken_to ?_ ?_) | exact To.sub hT (by decide) | refine To.fst (by assumption) ?_ | refine To.snd (by assumption) ?_ | split | dsimp -proj only | (intro _; intros))

theorem takeIngress_to {s : State} {t : Token} {cls : Nat} (hT : T ||| 32768 = T) (hS : To T s0 s) :
    To T s0 (takeIngress s t cls) := by
  unfold takeIngress
  try dsimp -proj only
  repeat' (first | (with_reducible first | assumption | refine To.ite ?_ ?_ | refine modDisp_to ?_ ?_) | exact To.sub hT (by decide) | refine To.fst (by assumption) ?_ | refine To.snd (by assumption) ?_ | split | dsimp -proj only | (intro _; intros))

theorem execDispToken_to {s : State} {ts : List TokIn} (hT : T ||| 7696582680818 = T) (hS : To T s0 s) :
    Out T s0 (execDispToken ts s) := by
  unfold execDispToken
  try dsimp -proj only
  repeat' (first | (with_reducible first | assumption | refine To.ite ?_ ?_ | refine whileRuns_to ?_ ?_ ?_ | refine acceptToken_to ?_ ?_ | refine takeIngress_to ?_ ?_ | refine Out.next ?_ | refine To.foldl _ (fun _ _ _ => ?_) ?_ | refine To.foldl_fst _ (fun _ _ _ => ?_) ?_) | exact To.sub hT (by decide) | refine To.fst (by assumption) ?_ | refine To.snd (by assumption) ?_ | split | dsimp -proj only | (intro _; intros))

theorem execCompletionToken_to {s : State} {t : Token} {cls : Fin 4} (hT : T ||| 7696582680818 = T) (hS : To T s0 s) :
    Out T s0 (execCompletionToken t cls s) := by
  unfold execCompletionToken
  try dsimp -proj only
  repeat' (first | (with_reducible first | assumption | refine To.ite ?_ ?_ | refine whileRuns_to ?_ ?_ ?_ | refine acceptToken_to ?_ ?_ | refine takeIngress_to ?_ ?_ | refine Out.next ?_) | exact To.sub hT (by decide) | refine To.fst (by assumption) ?_ | refine To.snd (by assumption) ?_ | split | dsimp -proj only | (intro _; intros))

theorem unstallSt_to {s : State} {u : Nat} (hT : T ||| 7696582680818 = T) (hS : To T s0 s) :
    To T s0 (unstallSt u s) := by
  unfold unstallSt
  try dsimp -proj only
  repeat' (first | (with_reducible first | assumption | refine To.ite ?_ ?_ | refine modDisp_to ?_ ?_ | refine exportToken_to ?_ ?_ | refine admitToken_to ?_ ?_) | exact To.sub hT (by decide) | refine To.fst (by assumption) ?_ | refine To.snd (by assumption) ?_ | split | dsimp -proj only | (intro _; intros))

theorem execIngressUnstall_to {s : State} {u : Fin 4} (hT : T ||| 7696582680818 = T) (hS : To T s0 s) :
    Out T s0 (execIngressUnstall u s) := by
  unfold execIngressUnstall
  repeat' (first | (with_reducible first | assumption | refine To.ite ?_ ?_ | refine whileRuns_to ?_ ?_ ?_ | refine unstallSt_to ?_ ?_ | refine Out.next ?_) | exact To.sub hT (by decide) | refine To.fst (by assumption) ?_ | refine To.snd (by assumption) ?_ | split | (intro _; intros))

theorem cacheFetched_to {s : State} (hT : T ||| 32768 = T) (hS : To T s0 s) :
    To T s0 (cacheFetched s) := by
  unfold cacheFetched
  try dsimp -proj only
  repeat' (first | (with_reducible first | assumption | refine To.ite ?_ ?_ | refine modDisp_to ?_ ?_ | refine To.foldl _ (fun _ _ _ => ?_) ?_ | refine To.foldl_fst _ (fun _ _ _ => ?_) ?_) | exact To.sub hT (by decide) | refine To.fst (by assumption) ?_ | refine To.snd (by assumption) ?_ | split | dsimp -proj only | (intro _; intros))

theorem retryTokens_to {s : State} (hT : T ||| 7696582484114 = T) (hS : To T s0 s) :
    To T s0 (retryTokens s) := by
  unfold retryTokens
  try dsimp -proj only
  repeat' (first | (with_reducible first | assumption | refine To.ite ?_ ?_ | refine cacheFetched_to ?_ ?_ | refine stateToken_to ?_ ?_ | refine modDisp_to ?_ ?_ | refine To.foldl _ (fun _ _ _ => ?_) ?_ | refine To.foldl_fst _ (fun _ _ _ => ?_) ?_) | exact To.sub hT (by decide) | refine To.fst (by assumption) ?_ | refine To.snd (by assumption) ?_ | split | dsimp -proj only | (intro _; intros))

theorem fetchFailed_to {s : State} {t : Token} (hT : T ||| 7696582475922 = T) (hS : To T s0 s) :
    To T s0 (fetchFailed s t) := by
  unfold fetchFailed
  repeat' (first | (with_reducible first | assumption | refine To.ite ?_ ?_ | refine closedToken_to ?_ ?_ | refine failInst_to ?_ ?_ | refine retireDone_to ?_ ?_) | exact To.sub hT (by decide) | refine To.fst (by assumption) ?_ | refine To.snd (by assumption) ?_ | split)

theorem execTemplateFetchDone_to {s : State} {t : BitVec 16} {timedOut : Bool} (hT : T ||| 7696582615250 = T) (hS : To T s0 s) :
    Out T s0 (execTemplateFetchDone t timedOut s) := by
  unfold execTemplateFetchDone
  try dsimp -proj only
  repeat' (first | (with_reducible first | assumption | refine To.ite ?_ ?_ | refine memRead_to ?_ ?_ | refine modDisp_to ?_ ?_ | refine retryTokens_to ?_ ?_ | refine fetchFailed_to ?_ ?_ | refine ownErr_to ?_ ?_ | refine Out.next ?_ | refine To.foldl _ (fun _ _ _ => ?_) ?_ | refine To.foldl_fst _ (fun _ _ _ => ?_) ?_) | exact To.sub hT (by decide) | refine To.fst (by assumption) ?_ | refine To.snd (by assumption) ?_ | split | dsimp -proj only | (intro _; intros))

theorem loadTmpls_to {y2 : State} {timedOut : Option Nat} {y1 : List Nat} {y3 : List (Nat × List Word)} (hT : T ||| 1187922 = T) (hS : To T s0 y2) :
    To T s0 (loadTmpls timedOut y1 y2 y3).1 := by
  induction y1 generalizing y2 y3 with
  | nil => exact hS
  | cons _ _ ih =>
    unfold loadTmpls
    try dsimp -proj only
    repeat' (first | (with_reducible first | assumption | refine To.ite ?_ ?_ | refine memRead_to ?_ ?_ | refine ih ?_) | exact To.sub hT (by decide) | refine To.fst (by assumption) ?_ | refine To.snd (by assumption) ?_ | split | dsimp -proj only)

theorem execDispTemplateLoadDone_to {s : State} {timedOut : Option (BitVec 16)} (hT : T ||| 1220690 = T) (hS : To T s0 s) :
    Out T s0 (execDispTemplateLoadDone timedOut s) := by
  unfold execDispTemplateLoadDone
  try dsimp -proj only
  repeat' (first | (with_reducible first | assumption | refine To.ite ?_ ?_ | refine modDisp_to ?_ ?_ | refine loadTmpls_to ?_ ?_ | refine ownErr_to ?_ ?_ | refine setEnabled_to ?_ ?_ | refine Out.next ?_) | exact To.sub hT (by decide) | refine To.fst (by assumption) ?_ | refine To.snd (by assumption) ?_ | split | dsimp -proj only | (intro _; intros))

theorem issueFire_to {s : State} {f : FireRec} {counted : Bool} (hT : T ||| 884754 = T) (hS : To T s0 s) :
    To T s0 (issueFire s f counted) := by
  unfold issueFire
  try dsimp -proj only
  repeat' (first | (with_reducible first | assumption | refine To.ite ?_ ?_ | refine incCnt_to ?_ ?_ | refine modDisp_to ?_ ?_ | refine routeFire_to ?_ ?_) | exact To.sub hT (by decide) | refine To.fst (by assumption) ?_ | refine To.snd (by assumption) ?_ | split | dsimp -proj only | (intro _; intros))

theorem issueEntry_to {s : State} {e : Entry} {m : Nat} (hT : T ||| 884754 = T) (hS : To T s0 s) :
    To T s0 (issueEntry s e m) := by
  unfold issueEntry
  try dsimp -proj only
  repeat' (first | (with_reducible first | assumption | refine To.ite ?_ ?_ | refine dropEntry_to ?_ ?_ | refine setEntry_to ?_ ?_ | refine setInst_to ?_ ?_ | refine issueFire_to ?_ ?_ | refine modDisp_to ?_ ?_) | exact To.sub hT (by decide) | refine To.fst (by assumption) ?_ | refine To.snd (by assumption) ?_ | split | dsimp -proj only | (intro _; intros))

theorem postRoom_to {s : State} {port : Nat} (hT : T ||| 32768 = T) (hS : To T s0 s) :
    To T s0 (postRoom port s) := by
  unfold postRoom
  try dsimp -proj only
  repeat' (first | (with_reducible first | assumption | refine To.ite ?_ ?_ | refine modDisp_to ?_ ?_) | exact To.sub hT (by decide) | refine To.fst (by assumption) ?_ | refine To.snd (by assumption) ?_ | split | dsimp -proj only | (intro _; intros))

theorem execFireIssue_to {s : State} {pool : Fin 16} (hT : T ||| 884754 = T) (hS : To T s0 s) :
    Out T s0 (execFireIssue pool s) := by
  unfold execFireIssue
  try dsimp -proj only
  repeat' (first | (with_reducible first | assumption | refine To.ite ?_ ?_ | refine issueEntry_to ?_ ?_ | refine postRoom_to ?_ ?_ | refine modDisp_to ?_ ?_ | refine issueFire_to ?_ ?_ | refine Out.next ?_ | refine To.foldl _ (fun _ _ _ => ?_) ?_ | refine To.foldl_fst _ (fun _ _ _ => ?_) ?_) | exact To.sub hT (by decide) | refine To.fst (by assumption) ?_ | refine To.snd (by assumption) ?_ | split | dsimp -proj only | (intro _; intros))

theorem execAgePromotion_to {s : State} {t : BitVec 16} {inst : BitVec 16} (hT : T ||| 32784 = T) (hS : To T s0 s) :
    Out T s0 (execAgePromotion t inst s) := by
  unfold execAgePromotion
  try dsimp -proj only
  repeat' (first | (with_reducible first | assumption | refine To.ite ?_ ?_ | refine incCnt_to ?_ ?_ | refine setEntry_to ?_ ?_ | refine Out.next ?_) | exact To.sub hT (by decide) | refine To.fst (by assumption) ?_ | refine To.snd (by assumption) ?_ | split | dsimp -proj only)

theorem openDone_to {s : State} {n : Nat} {r : Nat} (hT : T ||| 2 = T) (hS : To T s0 s) :
    To T s0 (openDone s n r) := by
  unfold openDone
  repeat' (first | (with_reducible first | assumption | refine To.ite ?_ ?_ | refine setReg_to ?_ ?_) | exact To.sub hT (by decide) | refine To.fst (by assumption) ?_ | refine To.snd (by assumption) ?_ | split)

theorem openCmd_to {s : State} {a : Acc} {n : Fin 9} {f : State → State} (hT : T ||| 1048594 = T) (hS : To T s0 s) (hf : ∀  s, To T s0 s → To T s0 (f  s)) :
    To T s0 (openCmd a n f s) := by
  unfold openCmd
  try dsimp -proj only
  repeat' (first | (with_reducible first | assumption | refine To.ite ?_ ?_ | refine hf _ ?_ | refine onPage_to ?_ ?_ ?_ | refine openDone_to ?_ ?_) | exact To.sub hT (by decide) | refine To.fst (by assumption) ?_ | refine To.snd (by assumption) ?_ | split | dsimp -proj only | (intro _; intros))

theorem execOpen_to {s : State} {a : Acc} {n : Fin 9} (hT : T ||| 1081362 = T) (hS : To T s0 s) :
    Out T s0 (execOpen a n s) := by
  unfold execOpen
  try dsimp -proj only
  repeat' (first | (with_reducible first | assumption | refine To.ite ?_ ?_ | refine openCmd_to ?_ ?_ ?_ | refine openDone_to ?_ ?_ | refine setEvt_to ?_ ?_ | refine incCnt_to ?_ ?_ | refine setInst_to ?_ ?_ | refine Out.next ?_) | exact To.sub hT (by decide) | refine To.fst (by assumption) ?_ | refine To.snd (by assumption) ?_ | split | dsimp -proj only | (intro _; intros))

theorem execClose_to {s : State} {a : Acc} {n : Fin 9} (hT : T ||| 7696582475922 = T) (hS : To T s0 s) :
    Out T s0 (execClose a n s) := by
  unfold execClose
  try dsimp -proj only
  repeat' (first | (with_reducible first | assumption | refine To.ite ?_ ?_ | refine openCmd_to ?_ ?_ ?_ | refine openDone_to ?_ ?_ | refine closeInstance_to ?_ ?_ | refine Out.next ?_) | exact To.sub hT (by decide) | refine To.fst (by assumption) ?_ | refine To.snd (by assumption) ?_ | split | dsimp -proj only | (intro _; intros))

theorem forceFree_to {s : State} {i : Nat} (hT : T ||| 7696582475922 = T) (hS : To T s0 s) :
    To T s0 (forceFree s i) := by
  unfold forceFree
  try dsimp -proj only
  repeat' (first | (with_reducible first | assumption | refine To.ite ?_ ?_ | refine modDisp_to ?_ ?_ | refine freeInst_to ?_ ?_) | exact To.sub hT (by decide) | refine To.fst (by assumption) ?_ | refine To.snd (by assumption) ?_ | split | dsimp -proj only | (intro _; intros))

theorem execForce_to {s : State} {a : Acc} {n : Fin 9} (hT : T ||| 7696582475922 = T) (hS : To T s0 s) :
    Out T s0 (execForce a n s) := by
  unfold execForce
  try dsimp -proj only
  repeat' (first | (with_reducible first | assumption | refine To.ite ?_ ?_ | refine openCmd_to ?_ ?_ ?_ | refine openDone_to ?_ ?_ | refine forceFree_to ?_ ?_ | refine Out.next ?_) | exact To.sub hT (by decide) | refine To.fst (by assumption) ?_ | refine To.snd (by assumption) ?_ | split | dsimp -proj only | (intro _; intros))

theorem dispFatal_to {s : State} (hT : T ||| 1081346 = T) (hS : To T s0 s) :
    To T s0 (dispFatal s) := by
  unfold dispFatal
  try dsimp -proj only
  repeat' (first | (with_reducible first | assumption | refine To.ite ?_ ?_ | refine modDisp_to ?_ ?_ | refine ownErr_to ?_ ?_) | exact To.sub hT (by decide) | refine To.fst (by assumption) ?_ | refine To.snd (by assumption) ?_ | split | (with_reducible first | refine To.set_evt ?_ ?_) | dsimp -proj only | (intro _; intros))

theorem execVoterMinority_to {s : State} {r : Fin 3} (hT : T ||| 1081362 = T) (hS : To T s0 s) :
    Out T s0 (execVoterMinority r s) := by
  unfold execVoterMinority
  try dsimp -proj only
  repeat' (first | (with_reducible first | assumption | refine To.ite ?_ ?_ | refine incCnt_to ?_ ?_ | refine dispFatal_to ?_ ?_ | refine ownErr_to ?_ ?_ | refine setReg_to ?_ ?_ | refine Out.next ?_) | exact To.sub hT (by decide) | refine To.fst (by assumption) ?_ | refine To.snd (by assumption) ?_ | split | dsimp -proj only)

theorem execMinorityReloadDone_to {s : State} (hT : T ||| 2 = T) (hS : To T s0 s) :
    Out T s0 (execMinorityReloadDone s) := by
  unfold execMinorityReloadDone
  try dsimp -proj only
  repeat' (first | (with_reducible first | assumption | refine To.ite ?_ ?_ | refine modReg_to ?_ ?_ | refine Out.next ?_) | exact To.sub hT (by decide) | refine To.fst (by assumption) ?_ | refine To.snd (by assumption) ?_ | split | dsimp -proj only | (intro _; intros))

theorem execNoMajority_to {s : State} (hT : T ||| 1081362 = T) (hS : To T s0 s) :
    Out T s0 (execNoMajority s) := by
  unfold execNoMajority
  repeat' (first | (with_reducible first | assumption | refine To.ite ?_ ?_ | refine dispFatal_to ?_ ?_ | refine incCnt_to ?_ ?_ | refine Out.next ?_) | exact To.sub hT (by decide) | refine To.fst (by assumption) ?_ | refine To.snd (by assumption) ?_ | split)

theorem postRecord_to {s : State} {n : Nat} {u : Nat} {f : FireRec} (hT : T ||| 32768 = T) (hS : To T s0 s) :
    To T s0 (postRecord n u f s) := by
  unfold postRecord
  try dsimp -proj only
  repeat' (first | (with_reducible first | assumption | refine To.ite ?_ ?_ | refine modDisp_to ?_ ?_) | exact To.sub hT (by decide) | refine To.fst (by assumption) ?_ | refine To.snd (by assumption) ?_ | split | dsimp -proj only | (intro _; intros))

theorem execPostFireRecord_to {s : State} {a : Acc} {n : Fin 8} {u : Fin 4} {v : Word} (hT : T ||| 1081362 = T) (hS : To T s0 s) :
    Out T s0 (execPostFireRecord a n u v s) := by
  unfold execPostFireRecord
  try dsimp -proj only
  repeat' (first | (with_reducible first | assumption | refine To.ite ?_ ?_ | refine onPage_to ?_ ?_ ?_ | refine setReg_to ?_ ?_ | refine ownErr_to ?_ ?_ | refine postRecord_to ?_ ?_ | refine Out.next ?_) | exact To.sub hT (by decide) | refine To.fst (by assumption) ?_ | refine To.snd (by assumption) ?_ | split | dsimp -proj only | (intro _; intros))

end Sys2Proof.Machine
end

