-- ==== Sys2Proof/Laws/ToPower.lean ====
section
/-! SUPPORT. The frames of the operations and meanings of Power: what each may change. -/

namespace Sys2Proof.Machine

variable {T : Nat} {s0 : State}

theorem setGrp_to {s : State} {g : Nat} {r : GrpRec} (hT : T ||| 262144 = T) (hS : To T s0 s) :
    To T s0 (setGrp s g r) := by
  unfold setGrp
  repeat' (first | (with_reducible first | assumption | refine To.ite ?_ ?_) | exact To.sub hT (by decide) | refine To.fst (by assumption) ?_ | refine To.snd (by assumption) ?_ | split | with_reducible first | refine To.set_pwr ?_ ?_)

theorem recordEnd_to {s : State} {n : Nat} {r : Nat} (hT : T ||| 262162 = T) (hS : To T s0 s) :
    To T s0 (recordEnd n r s) := by
  unfold recordEnd
  try dsimp -proj only
  repeat' (first | (with_reducible first | assumption | refine To.ite ?_ ?_ | refine setEvt_to ?_ ?_ | refine setPd_to ?_ ?_ | refine incCnt_to ?_ ?_) | exact To.sub hT (by decide) | refine To.fst (by assumption) ?_ | refine To.snd (by assumption) ?_ | split | dsimp -proj only)

theorem forceReset_to {s : State} {n : Nat} (hT : T ||| 28587297857790 = T) (hS : To T s0 s) :
    To T s0 (forceReset n s) := by
  unfold forceReset
  try dsimp -proj only
  repeat' (first | (with_reducible first | assumption | refine To.ite ?_ ?_ | refine setReg_to ?_ ?_ | refine softSteps_to ?_ ?_ | refine To.foldl _ (fun _ _ _ => ?_) ?_ | refine To.foldl_fst _ (fun _ _ _ => ?_) ?_) | exact To.sub hT (by decide) | refine To.fst (by assumption) ?_ | refine To.snd (by assumption) ?_ | split | dsimp -proj only | (intro _; intros))

theorem tryStart_to {s : State} {n : Nat} {q : PdReq} (hT : T ||| 28587298119934 = T) (hS : To T s0 s) :
    To T s0 (tryStart n q s).1 := by
  unfold tryStart
  try dsimp -proj only
  repeat' (first | (with_reducible first | assumption | refine To.ite ?_ ?_ | refine beginTrans_to ?_ ?_ | refine forceReset_to ?_ ?_ | refine setPd_to ?_ ?_) | exact To.sub hT (by decide) | refine To.fst (by assumption) ?_ | refine To.snd (by assumption) ?_ | split | dsimp -proj only)

theorem submitPd_to {s : State} {n : Nat} {q : PdReq} (hT : T ||| 28587298119934 = T) (hS : To T s0 s) :
    To T s0 (submitPd n q s).1 := by
  unfold submitPd
  try dsimp -proj only
  repeat' (first | (with_reducible first | assumption | refine To.ite ?_ ?_ | refine recordEnd_to ?_ ?_ | refine setPd_to ?_ ?_ | refine tryStart_to ?_ ?_) | exact To.sub hT (by decide) | refine To.fst (by assumption) ?_ | refine To.snd (by assumption) ?_ | split | dsimp -proj only)

theorem grpEnd_to {s : State} {g : Nat} {result : Nat} {dom : Nat} (hT : T ||| 262146 = T) (hS : To T s0 s) :
    To T s0 (grpEnd g result dom s) := by
  unfold grpEnd
  repeat' (first | (with_reducible first | assumption | refine To.ite ?_ ?_ | refine setEvt_to ?_ ?_ | refine setGrp_to ?_ ?_) | exact To.sub hT (by decide) | refine To.fst (by assumption) ?_ | refine To.snd (by assumption) ?_ | split)

theorem grpStart_to {s : State} {g : Nat} {want : PdState} {entry : EntryCond} (hT : T ||| 1310722 = T) (hS : To T s0 s) :
    To T s0 (grpStart g want entry s) := by
  unfold grpStart
  try dsimp -proj only
  repeat' (first | (with_reducible first | assumption | refine To.ite ?_ ?_ | refine ownErr_to ?_ ?_ | refine setEvt_to ?_ ?_ | refine grpEnd_to ?_ ?_ | refine setGrp_to ?_ ?_) | exact To.sub hT (by decide) | refine To.fst (by assumption) ?_ | refine To.snd (by assumption) ?_ | split | (with_reducible first | refine To.set_pwr ?_ ?_) | dsimp -proj only)

theorem grpResult_to {s : State} {g : Nat} {n : Nat} {r : Nat} (hT : T ||| 262146 = T) (hS : To T s0 s) :
    To T s0 (grpResult g n r s) := by
  unfold grpResult
  try dsimp -proj only
  repeat' (first | (with_reducible first | assumption | refine To.ite ?_ ?_ | refine setGrp_to ?_ ?_ | refine setEvt_to ?_ ?_ | refine grpEnd_to ?_ ?_) | exact To.sub hT (by decide) | refine To.fst (by assumption) ?_ | refine To.snd (by assumption) ?_ | split | dsimp -proj only)

theorem endReq_to {s : State} {n : Nat} {q : PdReq} {r : Nat} (hT : T ||| 262162 = T) (hS : To T s0 s) :
    To T s0 (endReq n q r s) := by
  unfold endReq
  repeat' (first | (with_reducible first | assumption | refine To.ite ?_ ?_ | refine grpResult_to ?_ ?_ | refine recordEnd_to ?_ ?_) | exact To.sub hT (by decide) | refine To.fst (by assumption) ?_ | refine To.snd (by assumption) ?_ | split)

theorem askPd_to {s : State} {n : Nat} {q : PdReq} (hT : T ||| 28587298119934 = T) (hS : To T s0 s) :
    To T s0 (askPd n q s) := by
  unfold askPd
  repeat' (first | (with_reducible first | assumption | refine To.ite ?_ ?_ | refine submitPd_to ?_ ?_ | refine endReq_to ?_ ?_) | exact To.sub hT (by decide) | refine To.fst (by assumption) ?_ | refine To.snd (by assumption) ?_ | split)

theorem grpStep_to {s : State} {g : Nat} (hT : T ||| 28587298119934 = T) (hS : To T s0 s) :
    To T s0 (grpStep g s) := by
  unfold grpStep
  try dsimp -proj only
  repeat' (first | (with_reducible first | assumption | refine To.ite ?_ ?_ | refine incCnt_to ?_ ?_ | refine setEvt_to ?_ ?_ | refine grpEnd_to ?_ ?_ | refine setGrp_to ?_ ?_ | refine askPd_to ?_ ?_ | refine grpStart_to ?_ ?_) | exact To.sub hT (by decide) | refine To.fst (by assumption) ?_ | refine To.snd (by assumption) ?_ | split | dsimp -proj only)

theorem grpHeld_to {s : State} (hT : T ||| 1310722 = T) (hS : To T s0 s) :
    To T s0 (grpHeld s) := by
  unfold grpHeld
  try dsimp -proj only
  repeat' (first | (with_reducible first | assumption | refine To.ite ?_ ?_ | refine grpStart_to ?_ ?_ | refine setGrp_to ?_ ?_) | exact To.sub hT (by decide) | refine To.fst (by assumption) ?_ | refine To.snd (by assumption) ?_ | split | dsimp -proj only | (intro _; intros))

theorem runGroups_to {y1 : State} {y0 : Nat} (hT : T ||| 28587298119934 = T) (hS : To T s0 y1) :
    To T s0 (runGroups y0 y1) := by
  induction y0 generalizing y1 with
  | zero => exact hS
  | succ _ ih =>
    unfold runGroups
    try dsimp -proj only
    repeat' (first | (with_reducible first | assumption | refine To.ite ?_ ?_ | refine grpHeld_to ?_ ?_ | refine grpStep_to ?_ ?_ | refine ih ?_) | exact To.sub hT (by decide) | refine To.fst (by assumption) ?_ | refine To.snd (by assumption) ?_ | split | dsimp -proj only)

theorem pdReqSt_to {s : State} {n : Nat} {want : PdState} {e : EntryCond} (hT : T ||| 28587298119934 = T) (hS : To T s0 s) :
    To T s0 (pdReqSt n want e s) := by
  unfold pdReqSt
  repeat' (first | (with_reducible first | assumption | refine To.ite ?_ ?_ | refine recordEnd_to ?_ ?_ | refine runGroups_to ?_ ?_ | refine askPd_to ?_ ?_) | exact To.sub hT (by decide) | refine To.fst (by assumption) ?_ | refine To.snd (by assumption) ?_ | split)

theorem grpReqSt_to {s : State} {g : Nat} {want : PdState} {e : EntryCond} (hT : T ||| 28587298119934 = T) (hS : To T s0 s) :
    To T s0 (grpReqSt g want e s) := by
  unfold grpReqSt
  try dsimp -proj only
  repeat' (first | (with_reducible first | assumption | refine To.ite ?_ ?_ | refine setEvt_to ?_ ?_ | refine setGrp_to ?_ ?_ | refine runGroups_to ?_ ?_ | refine grpStart_to ?_ ?_) | exact To.sub hT (by decide) | refine To.fst (by assumption) ?_ | refine To.snd (by assumption) ?_ | split | dsimp -proj only)

theorem reqWrite_to {s : State} {f : PdState → EntryCond → State → State} {v : Word} (_ : T ||| 0 = T) (hS : To T s0 s) (hf : ∀ x0 x1 s, To T s0 s → To T s0 (f x0 x1 s)) :
    To T s0 (reqWrite f v s) := by
  unfold reqWrite
  try dsimp -proj only
  repeat' (first | (with_reducible first | assumption | refine To.ite ?_ ?_ | refine hf _ _ _ ?_) | exact To.sub hT (by decide) | refine To.fst (by assumption) ?_ | refine To.snd (by assumption) ?_ | split | dsimp -proj only | (intro _; intros))

theorem entryMetSt_to {s : State} {n : Nat} (hT : T ||| 786450 = T) (hS : To T s0 s) :
    To T s0 (entryMetSt n s) := by
  unfold entryMetSt
  repeat' (first | (with_reducible first | assumption | refine To.ite ?_ ?_ | refine beginTrans_to ?_ ?_) | exact To.sub hT (by decide) | refine To.fst (by assumption) ?_ | refine To.snd (by assumption) ?_ | split)

theorem quiesceTimeoutSt_to {s : State} {n : Nat} (hT : T ||| 28587298119934 = T) (hS : To T s0 s) :
    To T s0 (quiesceTimeoutSt n s) := by
  unfold quiesceTimeoutSt
  try dsimp -proj only
  repeat' (first | (with_reducible first | assumption | refine To.ite ?_ ?_ | refine runGroups_to ?_ ?_ | refine endReq_to ?_ ?_ | refine setPd_to ?_ ?_) | exact To.sub hT (by decide) | refine To.fst (by assumption) ?_ | refine To.snd (by assumption) ?_ | split | dsimp -proj only)

theorem freeFires_to {s : State} {n : Nat} {on : Bool} (hT : T ||| 327680 = T) (hS : To T s0 s) :
    To T s0 (freeFires n on s) := by
  unfold freeFires
  try dsimp -proj only
  repeat' (first | (with_reducible first | assumption | refine To.ite ?_ ?_ | refine sendFire_to ?_ ?_ | refine pwrFail_to ?_ ?_ | refine To.foldl _ (fun _ _ _ => ?_) ?_ | refine To.foldl_fst _ (fun _ _ _ => ?_) ?_) | exact To.sub hT (by decide) | refine To.fst (by assumption) ?_ | refine To.snd (by assumption) ?_ | split | (with_reducible first | refine To.set_pwr ?_ ?_) | dsimp -proj only | (intro _; intros))

theorem nextSwitchOn_to {s : State} (hT : T ||| 786450 = T) (hS : To T s0 s) :
    To T s0 (nextSwitchOn s) := by
  unfold nextSwitchOn
  repeat' (first | (with_reducible first | assumption | refine To.ite ?_ ?_ | refine switchOn_to ?_ ?_) | exact To.sub hT (by decide) | refine To.fst (by assumption) ?_ | refine To.snd (by assumption) ?_ | split | with_reducible first | refine To.set_pwr ?_ ?_)

theorem afterTrans_to {s : State} {n : Nat} {latched : Bool} (hT : T ||| 28587298119934 = T) (hS : To T s0 s) :
    To T s0 (afterTrans n latched s) := by
  unfold afterTrans
  try dsimp -proj only
  repeat' (first | (with_reducible first | assumption | refine To.ite ?_ ?_ | refine beginTrans_to ?_ ?_ | refine incCnt_to ?_ ?_ | refine wakeDomain_to ?_ ?_ | refine setPd_to ?_ ?_ | refine tryStart_to ?_ ?_ | refine endReq_to ?_ ?_) | exact To.sub hT (by decide) | refine To.fst (by assumption) ?_ | refine To.snd (by assumption) ?_ | split | dsimp -proj only)

theorem settle_to {s : State} {n : Nat} {want : PdState} (hT : T ||| 28587298120190 = T) (hS : To T s0 s) :
    To T s0 (settle n want s) := by
  unfold settle
  repeat' (first | (with_reducible first | assumption | refine To.ite ?_ ?_ | refine freeFires_to ?_ ?_ | refine domainOff_to ?_ ?_ | refine domainRetain_to ?_ ?_ | refine domainOn_to ?_ ?_) | exact To.sub hT (by decide) | refine To.fst (by assumption) ?_ | refine To.snd (by assumption) ?_ | split)

theorem unWoke_to {s : State} {n : Nat} (hT : T ||| 1048576 = T) (hS : To T s0 s) :
    To T s0 (unWoke n s) := by
  unfold unWoke
  try dsimp -proj only
  repeat' (first | (with_reducible first | assumption | refine To.ite ?_ ?_ | refine modEvt_to ?_ ?_) | exact To.sub hT (by decide) | refine To.fst (by assumption) ?_ | refine To.snd (by assumption) ?_ | split | dsimp -proj only | (intro _; intros))

theorem transDoneSt_to {s : State} {n : Nat} (hT : T ||| 28587298120190 = T) (hS : To T s0 s) :
    To T s0 (transDoneSt n s) := by
  unfold transDoneSt
  try dsimp -proj only
  repeat' (first | (with_reducible first | assumption | refine To.ite ?_ ?_ | refine incCnt_to ?_ ?_ | refine setReg_to ?_ ?_ | refine setPd_to ?_ ?_ | refine lowerV_to ?_ ?_ | refine settle_to ?_ ?_ | refine unWoke_to ?_ ?_ | refine endReq_to ?_ ?_ | refine runGroups_to ?_ ?_ | refine nextSwitchOn_to ?_ ?_ | refine afterTrans_to ?_ ?_) | exact To.sub hT (by decide) | refine To.fst (by assumption) ?_ | refine To.snd (by assumption) ?_ | split | dsimp -proj only)

theorem pgFailSt_to {s : State} {n : Nat} (hT : T ||| 28587298120190 = T) (hS : To T s0 s) :
    To T s0 (pgFailSt n s) := by
  unfold pgFailSt
  try dsimp -proj only
  repeat' (first | (with_reducible first | assumption | refine To.ite ?_ ?_ | refine setPd_to ?_ ?_ | refine freeFires_to ?_ ?_ | refine domainOff_to ?_ ?_ | refine ownErr_to ?_ ?_ | refine setEvt_to ?_ ?_ | refine endReq_to ?_ ?_ | refine runGroups_to ?_ ?_ | refine nextSwitchOn_to ?_ ?_ | refine afterTrans_to ?_ ?_ | refine lowerV_to ?_ ?_) | exact To.sub hT (by decide) | refine To.fst (by assumption) ?_ | refine To.snd (by assumption) ?_ | split | dsimp -proj only)

theorem wakeSt_to {s : State} {n : Nat} (hT : T ||| 1835026 = T) (hS : To T s0 s) :
    To T s0 (wakeSt n s) := by
  unfold wakeSt
  try dsimp -proj only
  repeat' (first | (with_reducible first | assumption | refine To.ite ?_ ?_ | refine wakeDomain_to ?_ ?_ | refine modEvt_to ?_ ?_) | exact To.sub hT (by decide) | refine To.fst (by assumption) ?_ | refine To.snd (by assumption) ?_ | split | dsimp -proj only | (intro _; intros))

theorem execPdReqOn_to {s : State} {a : Acc} {n : Fin 48} {e : EntryCond} (hT : T ||| 28587298119934 = T) (hS : To T s0 s) :
    Out T s0 (execPdReqOn a n e s) := by
  unfold execPdReqOn
  repeat' (first | (with_reducible first | assumption | refine To.ite ?_ ?_ | refine onPage_to ?_ ?_ ?_ | refine pdReqSt_to ?_ ?_ | refine Out.next ?_) | exact To.sub hT (by decide) | refine To.fst (by assumption) ?_ | refine To.snd (by assumption) ?_ | split | (intro _; intros))

theorem execPdReqRetain_to {s : State} {a : Acc} {n : Fin 48} {e : EntryCond} (hT : T ||| 28587298119934 = T) (hS : To T s0 s) :
    Out T s0 (execPdReqRetain a n e s) := by
  unfold execPdReqRetain
  repeat' (first | (with_reducible first | assumption | refine To.ite ?_ ?_ | refine onPage_to ?_ ?_ ?_ | refine pdReqSt_to ?_ ?_ | refine Out.next ?_) | exact To.sub hT (by decide) | refine To.fst (by assumption) ?_ | refine To.snd (by assumption) ?_ | split | (intro _; intros))

theorem execPdReqOff_to {s : State} {a : Acc} {n : Fin 48} {e : EntryCond} (hT : T ||| 28587298119934 = T) (hS : To T s0 s) :
    Out T s0 (execPdReqOff a n e s) := by
  unfold execPdReqOff
  repeat' (first | (with_reducible first | assumption | refine To.ite ?_ ?_ | refine onPage_to ?_ ?_ ?_ | refine pdReqSt_to ?_ ?_ | refine Out.next ?_) | exact To.sub hT (by decide) | refine To.fst (by assumption) ?_ | refine To.snd (by assumption) ?_ | split | (intro _; intros))

theorem execGrpReqOn_to {s : State} {a : Acc} {g : Fin 16} {e : EntryCond} (hT : T ||| 28587298119934 = T) (hS : To T s0 s) :
    Out T s0 (execGrpReqOn a g e s) := by
  unfold execGrpReqOn
  repeat' (first | (with_reducible first | assumption | refine To.ite ?_ ?_ | refine onPage_to ?_ ?_ ?_ | refine grpReqSt_to ?_ ?_ | refine Out.next ?_) | exact To.sub hT (by decide) | refine To.fst (by assumption) ?_ | refine To.snd (by assumption) ?_ | split | (intro _; intros))

theorem execGrpReqRetain_to {s : State} {a : Acc} {g : Fin 16} {e : EntryCond} (hT : T ||| 28587298119934 = T) (hS : To T s0 s) :
    Out T s0 (execGrpReqRetain a g e s) := by
  unfold execGrpReqRetain
  repeat' (first | (with_reducible first | assumption | refine To.ite ?_ ?_ | refine onPage_to ?_ ?_ ?_ | refine grpReqSt_to ?_ ?_ | refine Out.next ?_) | exact To.sub hT (by decide) | refine To.fst (by assumption) ?_ | refine To.snd (by assumption) ?_ | split | (intro _; intros))

theorem execGrpReqOff_to {s : State} {a : Acc} {g : Fin 16} {e : EntryCond} (hT : T ||| 28587298119934 = T) (hS : To T s0 s) :
    Out T s0 (execGrpReqOff a g e s) := by
  unfold execGrpReqOff
  repeat' (first | (with_reducible first | assumption | refine To.ite ?_ ?_ | refine onPage_to ?_ ?_ ?_ | refine grpReqSt_to ?_ ?_ | refine Out.next ?_) | exact To.sub hT (by decide) | refine To.fst (by assumption) ?_ | refine To.snd (by assumption) ?_ | split | (intro _; intros))

theorem execEntryMet_to {s : State} {n : Fin 48} (hT : T ||| 786450 = T) (hS : To T s0 s) :
    Out T s0 (execEntryMet n s) := by
  unfold execEntryMet
  repeat' (first | (with_reducible first | assumption | refine To.ite ?_ ?_ | refine entryMetSt_to ?_ ?_ | refine Out.next ?_) | exact To.sub hT (by decide) | refine To.fst (by assumption) ?_ | refine To.snd (by assumption) ?_ | split)

theorem execQuiesceTimeout_to {s : State} {n : Fin 48} (hT : T ||| 28587298119934 = T) (hS : To T s0 s) :
    Out T s0 (execQuiesceTimeout n s) := by
  unfold execQuiesceTimeout
  repeat' (first | (with_reducible first | assumption | refine To.ite ?_ ?_ | refine quiesceTimeoutSt_to ?_ ?_ | refine Out.next ?_) | exact To.sub hT (by decide) | refine To.fst (by assumption) ?_ | refine To.snd (by assumption) ?_ | split)

theorem execTransitionDone_to {s : State} {n : Fin 48} (hT : T ||| 28587298120190 = T) (hS : To T s0 s) :
    Out T s0 (execTransitionDone n s) := by
  unfold execTransitionDone
  repeat' (first | (with_reducible first | assumption | refine To.ite ?_ ?_ | refine transDoneSt_to ?_ ?_ | refine Out.next ?_) | exact To.sub hT (by decide) | refine To.fst (by assumption) ?_ | refine To.snd (by assumption) ?_ | split)

theorem execPgFail_to {s : State} {n : Fin 48} (hT : T ||| 28587298120190 = T) (hS : To T s0 s) :
    Out T s0 (execPgFail n s) := by
  unfold execPgFail
  repeat' (first | (with_reducible first | assumption | refine To.ite ?_ ?_ | refine pgFailSt_to ?_ ?_ | refine Out.next ?_) | exact To.sub hT (by decide) | refine To.fst (by assumption) ?_ | refine To.snd (by assumption) ?_ | split)

theorem execWake_to {s : State} {n : Fin 48} (hT : T ||| 1835026 = T) (hS : To T s0 s) :
    Out T s0 (execWake n s) := by
  unfold execWake
  repeat' (first | (with_reducible first | assumption | refine To.ite ?_ ?_ | refine wakeSt_to ?_ ?_ | refine Out.next ?_) | exact To.sub hT (by decide) | refine To.fst (by assumption) ?_ | refine To.snd (by assumption) ?_ | split)

end Sys2Proof.Machine
end

