-- ==== Sys2Proof/Laws/ToPageAccess.lean ====
section
/-! SUPPORT. The frames of the operations and meanings of PageAccess: what each may change. -/

namespace Sys2Proof.Machine

variable {T : Nat} {s0 : State}

theorem clearRc_to {s : State} {p : Nat} {off : Nat} (hT : T ||| 2 = T) (hS : To T s0 s) :
    To T s0 (clearRc p off s) := by
  unfold clearRc
  repeat' (first | (with_reducible first | assumption | refine To.ite ?_ ?_ | refine setRegI_to ?_ ?_) | exact To.sub hT (by decide) | refine To.fst (by assumption) ?_ | refine To.snd (by assumption) ?_ | split)

theorem rcCoincide_to {s : State} {p : Nat} {off : Nat} {hw : Coincide} (hT : T ||| 2 = T) (hS : To T s0 s) :
    To T s0 (rcCoincide p off hw s) := by
  unfold rcCoincide
  repeat' (first | (with_reducible first | assumption | refine To.ite ?_ ?_ | refine setRegI_to ?_ ?_) | exact To.sub hT (by decide) | refine To.fst (by assumption) ?_ | refine To.snd (by assumption) ?_ | split)

theorem pageRead_to {s : State} {a : Acc} {p : Nat} {off : Nat} (hT : T ||| 6 = T) (hS : To T s0 s) :
    To T s0 (pageRead a p off s).2 := by
  unfold pageRead
  repeat' (first | (with_reducible first | assumption | refine To.ite ?_ ?_ | refine nowSecRead_to ?_ ?_ | refine ppsSecRead_to ?_ ?_ | refine setHold_to ?_ ?_ | refine clearRc_to ?_ ?_) | exact To.sub hT (by decide) | refine To.fst (by assumption) ?_ | refine To.snd (by assumption) ?_ | split)

theorem regRead_to {s : State} {a : Acc} {p : Nat} {off : Nat} (hT : T ||| 1048598 = T) (hS : To T s0 s) :
    To T s0 (regRead a p off s).2 := by
  unfold regRead
  repeat' (first | (with_reducible first | assumption | refine To.ite ?_ ?_ | refine decodeErr_to ?_ ?_ | refine offAccess_to ?_ ?_ | refine pageRead_to ?_ ?_) | exact To.sub hT (by decide) | refine To.fst (by assumption) ?_ | refine To.snd (by assumption) ?_ | split)

theorem regRead64_to {s : State} {a : Acc} {p : Nat} {off : Nat} (_ : T ||| 0 = T) (hS : To T s0 s) :
    To T s0 (regRead64 a p off s).2 := by
  unfold regRead64
  repeat' (first | (with_reducible first | assumption | refine To.ite ?_ ?_) | exact To.sub hT (by decide) | refine To.fst (by assumption) ?_ | refine To.snd (by assumption) ?_ | split)

theorem offRead_to {s : State} {src : Nat} {p : Nat} {off : Nat} {n : Nat} (hT : T ||| 1048594 = T) (hS : To T s0 s) :
    To T s0 (offRead src p off n s).2 := by
  unfold offRead
  repeat' (first | (with_reducible first | assumption | refine To.ite ?_ ?_ | refine offAccess_to ?_ ?_) | exact To.sub hT (by decide) | refine To.fst (by assumption) ?_ | refine To.snd (by assumption) ?_ | split)

theorem afterOf_to {o : Host.Outcome State Fault Refusal} {s : State} (ho : Out T s0 o) (hS : To T s0 s) : To T s0 (afterOf o s) := by
  cases o with
  | next t => exact ho t rfl
  | _ => exact hS

theorem ctrlWrite_to {s : State} {p : Nat} {v : Word} (hT : T ||| 28587297857790 = T) (hS : To T s0 s) :
    To T s0 (ctrlWrite p v s) := by
  unfold ctrlWrite
  try dsimp -proj only
  repeat' (first | (with_reducible first | assumption | refine To.ite ?_ ?_ | refine enableSt_to ?_ ?_ | refine disableSt_to ?_ ?_ | refine softResetSt_to ?_ ?_) | exact To.sub hT (by decide) | refine To.fst (by assumption) ?_ | refine To.snd (by assumption) ?_ | split | dsimp -proj only)

theorem errCauseWrite_to {s : State} {p : Nat} {v : Word} (hT : T ||| 2 = T) (hS : To T s0 s) :
    To T s0 (errCauseWrite p v s) := by
  unfold errCauseWrite
  try dsimp -proj only
  repeat' (first | (with_reducible first | assumption | refine To.ite ?_ ?_ | refine modReg_to ?_ ?_) | exact To.sub hT (by decide) | refine To.fst (by assumption) ?_ | refine To.snd (by assumption) ?_ | split | dsimp -proj only | (intro _; intros))

theorem pageLevels_to {s : State} {p : Nat} (hT : T ||| 2 = T) (hS : To T s0 s) :
    To T s0 (pageLevels p s) := by
  unfold pageLevels
  repeat' (first | (with_reducible first | assumption | refine To.ite ?_ ?_ | refine laneLevels_to ?_ ?_ | refine dmaLevels_to ?_ ?_ | refine tcLevel_to ?_ ?_ | refine gpioLevels_to ?_ ?_) | exact To.sub hT (by decide) | refine To.fst (by assumption) ?_ | refine To.snd (by assumption) ?_ | split)

theorem writeHeader_to {s : State} {p : Nat} {off : Nat} {v : Word} (hT : T ||| 28587297857790 = T) (hS : To T s0 s) :
    To T s0 (writeHeader p off v s) := by
  unfold writeHeader
  repeat' (first | (with_reducible first | assumption | refine To.ite ?_ ?_ | refine ctrlWrite_to ?_ ?_ | refine errCauseWrite_to ?_ ?_ | refine pageLevels_to ?_ ?_ | refine storeReg_to ?_ ?_) | exact To.sub hT (by decide) | refine To.fst (by assumption) ?_ | refine To.snd (by assumption) ?_ | split)

theorem mbWriteAny_to {s : State} {a : Acc} {sv : Bool} {v : Word} (hT : T ||| 8796094277362 = T) (hS : To T s0 s) :
    To T s0 (mbWriteAny a sv v s) := by
  unfold mbWriteAny
  try dsimp -proj only
  repeat' (first | (with_reducible first | assumption | refine To.ite ?_ ?_ | refine afterOf_to ?_ ?_ | refine execVerifyCfg_to ?_ ?_ | refine execSignCal_to ?_ ?_ | refine execVerifyCal_to ?_ ?_ | refine execConfirm_to ?_ ?_ | refine execAttest_to ?_ ?_ | refine execDebugChallenge_to ?_ ?_ | refine execDebugUnlock_to ?_ ?_ | refine execFuseKey_to ?_ ?_ | refine execFuseRevoke_to ?_ ?_ | refine execFuseLock_to ?_ ?_ | refine mbCommand_to ?_ ?_ ?_) | exact To.sub hT (by decide) | refine To.fst (by assumption) ?_ | refine To.snd (by assumption) ?_ | split | dsimp -proj only | (intro _; intros))

theorem dbgHaltSt_to {s : State} {c : Nat} (hT : T ||| 2148737266 = T) (hS : To T s0 s) :
    To T s0 (dbgHaltSt c s) := by
  unfold dbgHaltSt
  try dsimp -proj only
  repeat' (first | (with_reducible first | assumption | refine To.ite ?_ ?_ | refine modReg_to ?_ ?_ | refine haltCore_to ?_ ?_) | exact To.sub hT (by decide) | refine To.fst (by assumption) ?_ | refine To.snd (by assumption) ?_ | split | dsimp -proj only | (intro _; intros))

theorem dbgStepSt_to {s : State} {c : Nat} (hT : T ||| 2147483648 = T) (hS : To T s0 s) :
    To T s0 (dbgStepSt c s) := by
  unfold dbgStepSt
  try dsimp -proj only
  repeat' (first | (with_reducible first | assumption | refine To.ite ?_ ?_ | refine setCore_to ?_ ?_) | exact To.sub hT (by decide) | refine To.fst (by assumption) ?_ | refine To.snd (by assumption) ?_ | split | dsimp -proj only)

theorem dbgCtlSt_to {s : State} {c : Nat} {v : Word} (hT : T ||| 2148737266 = T) (hS : To T s0 s) :
    To T s0 (dbgCtlSt c v s) := by
  unfold dbgCtlSt
  try dsimp -proj only
  repeat' (first | (with_reducible first | assumption | refine To.ite ?_ ?_ | refine modReg_to ?_ ?_ | refine dbgHaltSt_to ?_ ?_ | refine dbgStepSt_to ?_ ?_) | exact To.sub hT (by decide) | refine To.fst (by assumption) ?_ | refine To.snd (by assumption) ?_ | split | dsimp -proj only | (intro _; intros))

theorem writeDisp_to {s : State} {a : Acc} {off : Nat} {v : Word} (hT : T ||| 7696582475922 = T) (hS : To T s0 s) :
    To T s0 (writeDisp a off v s) := by
  unfold writeDisp
  try dsimp -proj only
  repeat' (first | (with_reducible first | assumption | refine To.ite ?_ ?_ | refine modDisp_to ?_ ?_ | refine afterOf_to ?_ ?_ | refine execOpen_to ?_ ?_ | refine execClose_to ?_ ?_ | refine execForce_to ?_ ?_ | refine storeReg_to ?_ ?_) | exact To.sub hT (by decide) | refine To.fst (by assumption) ?_ | refine To.snd (by assumption) ?_ | split | dsimp -proj only | (intro _; intros))

theorem writeDfe_to {s : State} {a : Acc} {p : Nat} {off : Nat} {v : Word} (hT : T ||| 579862546 = T) (hS : To T s0 s) :
    To T s0 (writeDfe a p off v s) := by
  unfold writeDfe
  try dsimp -proj only
  repeat' (first | (with_reducible first | assumption | refine To.ite ?_ ?_ | refine afterOf_to ?_ ?_ | refine execCommitAt_to ?_ ?_ | refine execCommitNow_to ?_ ?_ | refine execDiscard_to ?_ ?_ | refine execCoefDataWrite_to ?_ ?_ | refine execCalStart_to ?_ ?_ | refine execCalAbort_to ?_ ?_ | refine csWrite_to ?_ ?_ | refine chMirrorWrite_to ?_ ?_ | refine storeReg_to ?_ ?_) | exact To.sub hT (by decide) | refine To.fst (by assumption) ?_ | refine To.snd (by assumption) ?_ | split | dsimp -proj only | (intro _; intros))

theorem writeOfdm_to {s : State} {p : Nat} {off : Nat} {v : Word} (hT : T ||| 1048578 = T) (hS : To T s0 s) :
    To T s0 (writeOfdm p off v s) := by
  unfold writeOfdm
  try dsimp -proj only
  repeat' (first | (with_reducible first | assumption | refine To.ite ?_ ?_ | refine smoothWriteSt_to ?_ ?_ | refine carrEnableSt_to ?_ ?_ | refine setRegI_to ?_ ?_ | refine storeReg_to ?_ ?_ | refine setEvt_to ?_ ?_) | exact To.sub hT (by decide) | refine To.fst (by assumption) ?_ | refine To.snd (by assumption) ?_ | split | dsimp -proj only)

theorem writePrism_to {s : State} {off : Nat} {v : Word} (hT : T ||| 268435458 = T) (hS : To T s0 s) :
    To T s0 (writePrism off v s) := by
  unfold writePrism
  try dsimp -proj only
  repeat' (first | (with_reducible first | assumption | refine To.ite ?_ ?_ | refine bufReleaseSt_to ?_ ?_ | refine tapCfgSt_to ?_ ?_ | refine maxhClrSt_to ?_ ?_ | refine storeReg_to ?_ ?_) | exact To.sub hT (by decide) | refine To.fst (by assumption) ?_ | refine To.snd (by assumption) ?_ | split | dsimp -proj only)

theorem writeDet_to {s : State} {p : Nat} {off : Nat} {v : Word} (hT : T ||| 269623378 = T) (hS : To T s0 s) :
    To T s0 (writeDet p off v s) := by
  unfold writeDet
  try dsimp -proj only
  repeat' (first | (with_reducible first | assumption | refine To.ite ?_ ?_ | refine detEnableSt_to ?_ ?_ | refine detOffSt_to ?_ ?_ | refine setEvt_to ?_ ?_ | refine storeReg_to ?_ ?_) | exact To.sub hT (by decide) | refine To.fst (by assumption) ?_ | refine To.snd (by assumption) ?_ | split | dsimp -proj only)

theorem writeLane_to {s : State} {a : Acc} {p : Nat} {off : Nat} {v : Word} (hT : T ||| 2 = T) (hS : To T s0 s) :
    To T s0 (writeLane a p off v s) := by
  unfold writeLane
  try dsimp -proj only
  repeat' (first | (with_reducible first | assumption | refine To.ite ?_ ?_ | refine storeReg_to ?_ ?_ | refine pstateReqSt_to ?_ ?_ | refine txTapsSt_to ?_ ?_ | refine pageLevels_to ?_ ?_) | exact To.sub hT (by decide) | refine To.fst (by assumption) ?_ | refine To.snd (by assumption) ?_ | split | dsimp -proj only)

theorem writeXlane_to {s : State} {a : Acc} {p : Nat} {off : Nat} {v : Word} (hT : T ||| 6291474 = T) (hS : To T s0 s) :
    To T s0 (writeXlane a p off v s) := by
  unfold writeXlane
  try dsimp -proj only
  repeat' (first | (with_reducible first | assumption | refine To.ite ?_ ?_ | refine sysrefArmSt_to ?_ ?_ | refine setReg_to ?_ ?_ | refine realignSt_to ?_ ?_ | refine writeLane_to ?_ ?_ | refine storeReg_to ?_ ?_) | exact To.sub hT (by decide) | refine To.fst (by assumption) ?_ | refine To.snd (by assumption) ?_ | split | dsimp -proj only)

theorem writeXspare_to {s : State} {a : Acc} {p : Nat} {off : Nat} {v : Word} (hT : T ||| 16777218 = T) (hS : To T s0 s) :
    To T s0 (writeXspare a p off v s) := by
  unfold writeXspare
  try dsimp -proj only
  repeat' (first | (with_reducible first | assumption | refine To.ite ?_ ?_ | refine storeReg_to ?_ ?_ | refine subArmSt_to ?_ ?_ | refine subSwapSt_to ?_ ?_ | refine subReleaseSt_to ?_ ?_ | refine writeLane_to ?_ ?_) | exact To.sub hT (by decide) | refine To.fst (by assumption) ?_ | refine To.snd (by assumption) ?_ | split | dsimp -proj only)

theorem writeDmach_to {s : State} {p : Nat} {off : Nat} {v : Word} (hT : T ||| 17179934738 = T) (hS : To T s0 s) :
    To T s0 (writeDmach p off v s) := by
  unfold writeDmach
  try dsimp -proj only
  repeat' (first | (with_reducible first | assumption | refine To.ite ?_ ?_ | refine chCtrlWrite_to ?_ ?_ | refine dmaTrigger_to ?_ ?_ | refine dmaAbort_to ?_ ?_ | refine dmaClear_to ?_ ?_ | refine setEvt_to ?_ ?_ | refine storeReg_to ?_ ?_) | exact To.sub hT (by decide) | refine To.fst (by assumption) ?_ | refine To.snd (by assumption) ?_ | split | dsimp -proj only)

theorem writeRtr_to {s : State} {a : Acc} {p : Nat} {off : Nat} {v : Word} (hT : T ||| 1114178 = T) (hS : To T s0 s) :
    To T s0 (writeRtr a p off v s) := by
  unfold writeRtr
  try dsimp -proj only
  repeat' (first | (with_reducible first | assumption | refine To.ite ?_ ?_ | refine linkCfgWrite_to ?_ ?_ | refine linkMapWrite_to ?_ ?_ | refine tblDataSt_to ?_ ?_ | refine tblCopySt_to ?_ ?_ | refine storeReg_to ?_ ?_ | refine isCtrlWrite_to ?_ ?_ | refine ltCtrlSt_to ?_ ?_) | exact To.sub hT (by decide) | refine To.fst (by assumption) ?_ | refine To.snd (by assumption) ?_ | split | dsimp -proj only)

theorem writeTime_to {s : State} {off : Nat} {v : Word} (hT : T ||| 16386 = T) (hS : To T s0 s) :
    To T s0 (writeTime off v s) := by
  unfold writeTime
  repeat' (first | (with_reducible first | assumption | refine To.ite ?_ ?_ | refine adjNsSt_to ?_ ?_ | refine setGoSt_to ?_ ?_ | refine ppsOutCfg_to ?_ ?_ | refine ppsRearm_to ?_ ?_ | refine storeReg_to ?_ ?_) | exact To.sub hT (by decide) | refine To.fst (by assumption) ?_ | refine To.snd (by assumption) ?_ | split)

theorem writeTcmp_to {s : State} {p : Nat} {off : Nat} {v : Word} (hT : T ||| 1064962 = T) (hS : To T s0 s) :
    To T s0 (writeTcmp p off v s) := by
  unfold writeTcmp
  try dsimp -proj only
  repeat' (first | (with_reducible first | assumption | refine To.ite ?_ ?_ | refine tcCtrlWrite_to ?_ ?_ | refine tcHeldWrite_to ?_ ?_) | exact To.sub hT (by decide) | refine To.fst (by assumption) ?_ | refine To.snd (by assumption) ?_ | split | dsimp -proj only)

theorem writePwrc_to {s : State} {off : Nat} {v : Word} (hT : T ||| 28587298119934 = T) (hS : To T s0 s) :
    To T s0 (writePwrc off v s) := by
  unfold writePwrc
  repeat' (first | (with_reducible first | assumption | refine To.ite ?_ ?_ | refine reqWrite_to ?_ ?_ ?_ | refine pdReqSt_to ?_ ?_ | refine grpReqSt_to ?_ ?_ | refine storeReg_to ?_ ?_) | exact To.sub hT (by decide) | refine To.fst (by assumption) ?_ | refine To.snd (by assumption) ?_ | split | (intro _; intros))

theorem writePcie_to {s : State} {off : Nat} {v : Word} (hT : T ||| 1649268555922 = T) (hS : To T s0 s) :
    To T s0 (writePcie off v s) := by
  unfold writePcie
  try dsimp -proj only
  repeat' (first | (with_reducible first | assumption | refine To.ite ?_ ?_ | refine tokenWord_to ?_ ?_ | refine tokenInSt_to ?_ ?_ | refine tokenDoneSt_to ?_ ?_ | refine d2hRestart_to ?_ ?_ | refine storeReg_to ?_ ?_ | refine d2hPump_to ?_ ?_ | refine h2dTailSt_to ?_ ?_) | exact To.sub hT (by decide) | refine To.fst (by assumption) ?_ | refine To.snd (by assumption) ?_ | split | dsimp -proj only)

theorem writeEvtc_to {s : State} {off : Nat} {v : Word} (hT : T ||| 1099512741906 = T) (hS : To T s0 s) :
    To T s0 (writeEvtc off v s) := by
  unfold writeEvtc
  repeat' (first | (with_reducible first | assumption | refine To.ite ?_ ?_ | refine routeWriteSt_to ?_ ?_ | refine rptPopSt_to ?_ ?_ | refine msixAckSt_to ?_ ?_ | refine storeReg_to ?_ ?_) | exact To.sub hT (by decide) | refine To.fst (by assumption) ?_ | refine To.snd (by assumption) ?_ | split)

theorem writeBoot_to {s : State} {off : Nat} {v : Word} (hT : T ||| 30786325576190 = T) (hS : To T s0 s) :
    To T s0 (writeBoot off v s) := by
  unfold writeBoot
  repeat' (first | (with_reducible first | assumption | refine To.ite ?_ ?_ | refine rstCmdSt_to ?_ ?_ | refine wdogCfgSt_to ?_ ?_ | refine wdogKickSt_to ?_ ?_ | refine flashCmd_to ?_ ?_ | refine cfgGoSt_to ?_ ?_ | refine pcieGoSt_to ?_ ?_ | refine storeReg_to ?_ ?_) | exact To.sub hT (by decide) | refine To.fst (by assumption) ?_ | refine To.snd (by assumption) ?_ | split)

theorem writeOne_to {s : State} {a : Acc} {p : Nat} {off : Nat} {v : Word} (hT : T ||| 35184372088830 = T) (hS : To T s0 s) :
    To T s0 (writeOne a p off v s) := by
  unfold writeOne
  try dsimp -proj only
  repeat' (first | (with_reducible first | assumption | refine To.ite ?_ ?_ | refine writeHeader_to ?_ ?_ | refine writeEvtc_to ?_ ?_ | refine writeDisp_to ?_ ?_ | refine writeTime_to ?_ ?_ | refine writeTcmp_to ?_ ?_ | refine writePwrc_to ?_ ?_ | refine cdFreqSt_to ?_ ?_ | refine storeReg_to ?_ ?_ | refine flipCmdSt_to ?_ ?_ | refine writePcie_to ?_ ?_ | refine flowLoadSt_to ?_ ?_ | refine jobTail_to ?_ ?_ | refine haSelectSt_to ?_ ?_ | refine portKick_to ?_ ?_ | refine haOffer_to ?_ ?_ | refine meterWriteSt_to ?_ ?_ | refine cuwRetrain_to ?_ ?_ | refine writePrism_to ?_ ?_ | refine writeDet_to ?_ ?_ | refine mbWriteAny_to ?_ ?_ | refine writeBoot_to ?_ ?_ | refine pageLevels_to ?_ ?_ | refine coreMapSt_to ?_ ?_ | refine spareCopySt_to ?_ ?_ | refine ctxCancelSt_to ?_ ?_ | refine mxDrain_to ?_ ?_ | refine dbgCtlSt_to ?_ ?_ | refine writeDfe_to ?_ ?_ | refine writeOfdm_to ?_ ?_ | refine checkEngines_to ?_ ?_ | refine dmaLevels_to ?_ ?_ | refine writeDmach_to ?_ ?_ | refine fcGoSt_to ?_ ?_ | refine repairSt_to ?_ ?_ | refine writeRtr_to ?_ ?_ | refine writeXlane_to ?_ ?_ | refine writeXspare_to ?_ ?_ | refine writeLane_to ?_ ?_ | refine afterOf_to ?_ ?_ | refine execPostFireRecord_to ?_ ?_ | refine setReg_to ?_ ?_ | refine To.foldl _ (fun _ _ _ => ?_) ?_ | refine To.foldl_fst _ (fun _ _ _ => ?_) ?_) | exact To.sub hT (by decide) | refine To.fst (by assumption) ?_ | refine To.snd (by assumption) ?_ | split | dsimp -proj only | (intro _; intros))

theorem writePair_to {s : State} {p : Nat} {off : Nat} {held : Option Word} {hi : Word} (hT : T ||| 1099511627778 = T) (hS : To T s0 s) :
    To T s0 (writePair p off held hi s) := by
  unfold writePair
  try dsimp -proj only
  repeat' (first | (with_reducible first | assumption | refine To.ite ?_ ?_ | refine storeReg_to ?_ ?_ | refine csChainsWrite_to ?_ ?_ | refine setEvt_to ?_ ?_ | refine d2hRestart_to ?_ ?_ | refine tcLevel_to ?_ ?_) | exact To.sub hT (by decide) | refine To.fst (by assumption) ?_ | refine To.snd (by assumption) ?_ | split | dsimp -proj only)

theorem pageWrite_to {s : State} {a : Acc} {p : Nat} {off : Nat} {v : Word} (hT : T ||| 35184372088830 = T) (hS : To T s0 s) :
    To T s0 (pageWrite a p off v s) := by
  unfold pageWrite
  try dsimp -proj only
  repeat' (first | (with_reducible first | assumption | refine To.ite ?_ ?_ | refine incrCommitSt_to ?_ ?_ | refine bankPwrSt_to ?_ ?_ | refine tapSetSt_to ?_ ?_ | refine setEvt_to ?_ ?_ | refine d2hRestart_to ?_ ?_ | refine holdLo_to ?_ ?_ | refine takeLo_to ?_ ?_ | refine writePair_to ?_ ?_ | refine writeOne_to ?_ ?_) | exact To.sub hT (by decide) | refine To.fst (by assumption) ?_ | refine To.snd (by assumption) ?_ | split | dsimp -proj only)

theorem toPage_to {s : State} {a : Acc} {p : Nat} {off : Nat} {f : State → State} (hT : T ||| 1048594 = T) (hS : To T s0 s) (hf : ∀  s, To T s0 s → To T s0 (f  s)) :
    To T s0 (toPage a p off f s) := by
  unfold toPage
  repeat' (first | (with_reducible first | assumption | refine To.ite ?_ ?_ | refine hf _ ?_ | refine decodeErr_to ?_ ?_ | refine onPage_to ?_ ?_ ?_) | exact To.sub hT (by decide) | refine To.fst (by assumption) ?_ | refine To.snd (by assumption) ?_ | split | (intro _; intros))

theorem regWriteSt_to {s : State} {a : Acc} {p : Nat} {off : Nat} {v : Word} (hT : T ||| 35184372088830 = T) (hS : To T s0 s) :
    To T s0 (regWriteSt a p off v s) := by
  unfold regWriteSt
  repeat' (first | (with_reducible first | assumption | refine To.ite ?_ ?_ | refine toPage_to ?_ ?_ ?_ | refine pageWrite_to ?_ ?_) | exact To.sub hT (by decide) | refine To.fst (by assumption) ?_ | refine To.snd (by assumption) ?_ | split | (intro _; intros))

theorem coincide_to {s : State} {p : Nat} {off : Nat} {hw : Coincide} (hT : T ||| 1048578 = T) (hS : To T s0 s) :
    To T s0 (coincide p off hw s) := by
  unfold coincide
  try dsimp -proj only
  repeat' (first | (with_reducible first | assumption | refine To.ite ?_ ?_ | refine pageLevels_to ?_ ?_ | refine modReg_to ?_ ?_ | refine captureErr_to ?_ ?_) | exact To.sub hT (by decide) | refine To.fst (by assumption) ?_ | refine To.snd (by assumption) ?_ | split | dsimp -proj only)

theorem regReadSt_to {s : State} {a : Acc} {p : Nat} {off : Nat} (hT : T ||| 1050646 = T) (hS : To T s0 s) :
    To T s0 (regReadSt a p off s) := by
  unfold regReadSt
  try dsimp -proj only
  repeat' (first | (with_reducible first | assumption | refine To.ite ?_ ?_ | refine regRead_to ?_ ?_ | refine answer_to ?_ ?_) | exact To.sub hT (by decide) | refine To.fst (by assumption) ?_ | refine To.snd (by assumption) ?_ | split | (with_reducible first | refine To.set_rdOut ?_ ?_) | dsimp -proj only)

end Sys2Proof.Machine
end

