-- ==== Sys2Proof/Laws/ToTransfer.lean ====
section
/-! SUPPORT. The frames of the operations and meanings of Transfer: what each may change. -/

namespace Sys2Proof.Machine

variable {T : Nat} {s0 : State}

theorem bridgeWait_to {s : State} {p : Nat} {reg : Nat} {wr : Option Word} (hT : T ||| 65536 = T) (hS : To T s0 s) :
    To T s0 (bridgeWait s p reg wr) := by
  unfold bridgeWait
  try dsimp -proj only
  repeat' (first | (with_reducible first | assumption | refine To.ite ?_ ?_ | refine modFab_to ?_ ?_) | exact To.sub hT (by decide) | refine To.fst (by assumption) ?_ | refine To.snd (by assumption) ?_ | split | dsimp -proj only | (intro _; intros))

theorem bridgeDone_to {s : State} {p : Nat} (hT : T ||| 16 = T) (hS : To T s0 s) :
    To T s0 (bridgeDone p s) := by
  unfold bridgeDone
  repeat' (first | (with_reducible first | assumption | refine To.ite ?_ ?_ | refine incCnt_to ?_ ?_) | exact To.sub hT (by decide) | refine To.fst (by assumption) ?_ | refine To.snd (by assumption) ?_ | split)

theorem pageServe_to {s : State} {a : Acc} {src : Nat} {p : Nat} {off : Nat} {n : Nat} (hT : T ||| 1114134 = T) (hS : To T s0 s) :
    To T s0 (pageServe a src p off n s).2 := by
  unfold pageServe
  try dsimp -proj only
  repeat' (first | (with_reducible first | assumption | refine To.ite ?_ ?_ | refine offRead_to ?_ ?_ | refine decodeErr_to ?_ ?_ | refine bridgeWait_to ?_ ?_ | refine regRead_to ?_ ?_ | refine bridgeDone_to ?_ ?_ | refine regRead64_to ?_ ?_) | exact To.sub hT (by decide) | refine To.fst (by assumption) ?_ | refine To.snd (by assumption) ?_ | split | dsimp -proj only)

theorem serveRd_to {s : State} {q : Req} (hT : T ||| 1253462 = T) (hS : To T s0 s) :
    To T s0 (serveRd q s).2 := by
  unfold serveRd
  try dsimp -proj only
  repeat' (first | (with_reducible first | assumption | refine To.ite ?_ ?_ | refine pageServe_to ?_ ?_ | refine memRead_to ?_ ?_) | exact To.sub hT (by decide) | refine To.fst (by assumption) ?_ | refine To.snd (by assumption) ?_ | split | dsimp -proj only)

theorem serveWr_to {s : State} {q : Req} {poisoned : Bool} (hT : T ||| 35184372088830 = T) (hS : To T s0 s) :
    To T s0 (serveWr q poisoned s).2 := by
  unfold serveWr
  try dsimp -proj only
  repeat' (first | (with_reducible first | assumption | refine To.ite ?_ ?_ | refine offAccess_to ?_ ?_ | refine decodeErr_to ?_ ?_ | refine bridgeWait_to ?_ ?_ | refine bridgeDone_to ?_ ?_ | refine regWriteSt_to ?_ ?_ | refine memWriteEn_to ?_ ?_) | exact To.sub hT (by decide) | refine To.fst (by assumption) ?_ | refine To.snd (by assumption) ?_ | split | dsimp -proj only)

theorem modReq_to {s : State} {id : Nat} {g : Req → Req} (hT : T ||| 65536 = T) (hS : To T s0 s) :
    To T s0 (modReq s id g) := by
  unfold modReq
  try dsimp -proj only
  repeat' (first | (with_reducible first | assumption | refine To.ite ?_ ?_ | refine modFab_to ?_ ?_) | exact To.sub hT (by decide) | refine To.fst (by assumption) ?_ | refine To.snd (by assumption) ?_ | split | dsimp -proj only | (intro _; intros))

theorem inject_to {s : State} {q : Req} {u : Option Upset} (hT : T ||| 51540729874 = T) (hS : To T s0 s) :
    Opt T s0 (inject q u s) := by
  unfold inject
  try dsimp -proj only
  repeat' (first | (with_reducible first | assumption | refine To.ite ?_ ?_ | refine Opt.get (by assumption) ?_ | refine dmaSend_to ?_ ?_ | refine modReq_to ?_ ?_ | refine Opt.some ?_ | exact Opt.none) | exact To.sub hT (by decide) | refine To.fst (by assumption) ?_ | refine To.snd (by assumption) ?_ | split | dsimp -proj only | (intro _; intros))

theorem respond_to {s : State} {id : Nat} {r : Resp × List Byte} (hT : T ||| 65536 = T) (hS : To T s0 s) :
    To T s0 (respond s id r) := by
  unfold respond
  try dsimp -proj only
  repeat' (first | (with_reducible first | assumption | refine To.ite ?_ ?_ | refine modReq_to ?_ ?_) | exact To.sub hT (by decide) | refine To.fst (by assumption) ?_ | refine To.snd (by assumption) ?_ | split | dsimp -proj only | (intro _; intros))

theorem travel_to {s : State} {q : Req} {flit : Flit} (hT : T ||| 35184372088830 = T) (hS : To T s0 s) :
    To T s0 (travel q flit s) := by
  unfold travel
  try dsimp -proj only
  repeat' (first | (with_reducible first | assumption | refine To.ite ?_ ?_ | refine respond_to ?_ ?_ | refine decodeErr_to ?_ ?_ | refine fly_to ?_ ?_ | refine modReq_to ?_ ?_ | refine serveWr_to ?_ ?_ | refine serveRd_to ?_ ?_) | exact To.sub hT (by decide) | refine To.fst (by assumption) ?_ | refine To.snd (by assumption) ?_ | split | dsimp -proj only | (intro _; intros))

theorem freshReq_to {s : State} {a : Acc} {isWrite : Bool} {addr : Nat} {len : Nat} {data : List Byte} {be : BitVec 64} (hT : T ||| 65536 = T) (hS : To T s0 s) :
    Opt2 T s0 (freshReq a isWrite addr len data be s) := by
  unfold freshReq
  try dsimp -proj only
  repeat' (first | (with_reducible first | assumption | refine To.ite ?_ ?_ | refine issueReq_to ?_ ?_ | refine modReq_to ?_ ?_ | refine Opt2.some ?_ | exact Opt2.none) | exact To.sub hT (by decide) | refine To.fst (by assumption) ?_ | refine To.snd (by assumption) ?_ | split | dsimp -proj only | (intro _; intros))

theorem carry_to {s : State} {id : Nat} {u : Option Upset} {flit : Flit} {isWrite : Bool} (hT : T ||| 35184372088830 = T) (hS : To T s0 s) :
    To T s0 (carry id u flit isWrite s) := by
  unfold carry
  repeat' (first | (with_reducible first | assumption | refine To.ite ?_ ?_ | refine Opt.get (by assumption) ?_ | refine inject_to ?_ ?_ | refine dropReq_to ?_ ?_ | refine travel_to ?_ ?_) | exact To.sub hT (by decide) | refine To.fst (by assumption) ?_ | refine To.snd (by assumption) ?_ | split)

theorem rdSt_to {s : State} {q : RdReq} {u : Option Upset} {flit : Flit} (hT : T ||| 35184372088830 = T) (hS : To T s0 s) :
    To T s0 (rdSt q u flit s) := by
  unfold rdSt
  try dsimp -proj only
  repeat' (first | (with_reducible first | assumption | refine To.ite ?_ ?_ | refine applyUpset_to ?_ ?_ | refine carry_to ?_ ?_ | refine Opt2.get (by assumption) ?_ | refine freshReq_to ?_ ?_) | exact To.sub hT (by decide) | refine To.fst (by assumption) ?_ | refine To.snd (by assumption) ?_ | split | (with_reducible first | refine To.set_rdOut ?_ ?_) | dsimp -proj only | (intro _; intros))

theorem wrSt_to {s : State} {q : WrReq} {u : Option Upset} {flit : Flit} (hT : T ||| 35184372088830 = T) (hS : To T s0 s) :
    To T s0 (wrSt q u flit s) := by
  unfold wrSt
  try dsimp -proj only
  repeat' (first | (with_reducible first | assumption | refine To.ite ?_ ?_ | refine applyUpset_to ?_ ?_ | refine carry_to ?_ ?_ | refine msixWrite_to ?_ ?_ | refine Opt2.get (by assumption) ?_ | refine freshReq_to ?_ ?_) | exact To.sub hT (by decide) | refine To.fst (by assumption) ?_ | refine To.snd (by assumption) ?_ | split | dsimp -proj only | (intro _; intros))

theorem reqDone_to {s : State} {q : Req} {r : Resp} {d : List Byte} (hT : T ||| 188979816690 = T) (hS : To T s0 s) :
    To T s0 (reqDone q r d s) := by
  unfold reqDone
  repeat' (first | (with_reducible first | assumption | refine To.ite ?_ ?_ | refine dmaWrResp_to ?_ ?_ | refine dmaRdResp_to ?_ ?_ | refine cuwAnswer_to ?_ ?_) | exact To.sub hT (by decide) | refine To.fst (by assumption) ?_ | refine To.snd (by assumption) ?_ | split | with_reducible first | refine To.set_rdOut ?_ ?_)

theorem crossBack_to {s : State} {q : Req} {r : Resp} (hT : T ||| 1042 = T) (hS : To T s0 s) :
    To T s0 (crossBack q r s) := by
  unfold crossBack
  try dsimp -proj only
  repeat' (first | (with_reducible first | assumption | refine To.ite ?_ ?_ | refine crossHops_to ?_ ?_ | refine To.foldl _ (fun _ _ _ => ?_) ?_ | refine To.foldl_fst _ (fun _ _ _ => ?_) ?_) | exact To.sub hT (by decide) | refine To.fst (by assumption) ?_ | refine To.snd (by assumption) ?_ | split | dsimp -proj only | (intro _; intros))

theorem giveAnswer_to {s : State} {q : Req} {r : Resp} {d : List Byte} (hT : T ||| 188979816690 = T) (hS : To T s0 s) :
    To T s0 (giveAnswer q r d s) := by
  unfold giveAnswer
  try dsimp -proj only
  repeat' (first | (with_reducible first | assumption | refine To.ite ?_ ?_ | refine dropReq_to ?_ ?_ | refine incCnt_to ?_ ?_ | refine reqDone_to ?_ ?_ | refine isCount_to ?_ ?_) | exact To.sub hT (by decide) | refine To.fst (by assumption) ?_ | refine To.snd (by assumption) ?_ | split | dsimp -proj only)

theorem responseSt_to {s : State} {id : Nat} {isWrite : Bool} {flit : Flit} (hT : T ||| 188979817714 = T) (hS : To T s0 s) :
    To T s0 (responseSt id isWrite flit s) := by
  unfold responseSt
  try dsimp -proj only
  repeat' (first | (with_reducible first | assumption | refine To.ite ?_ ?_ | refine giveAnswer_to ?_ ?_ | refine fly_to ?_ ?_ | refine modReq_to ?_ ?_ | refine dropReq_to ?_ ?_ | refine crossBack_to ?_ ?_) | exact To.sub hT (by decide) | refine To.fst (by assumption) ?_ | refine To.snd (by assumption) ?_ | split | dsimp -proj only | (intro _; intros))

theorem requestTimeoutSt_to {s : State} {id : Nat} (hT : T ||| 188979816690 = T) (hS : To T s0 s) :
    To T s0 (requestTimeoutSt id s) := by
  unfold requestTimeoutSt
  try dsimp -proj only
  repeat' (first | (with_reducible first | assumption | refine To.ite ?_ ?_ | refine ownErr_to ?_ ?_ | refine setEvt_to ?_ ?_ | refine incCnt_to ?_ ?_ | refine dropReq_to ?_ ?_ | refine modReq_to ?_ ?_ | refine reqDone_to ?_ ?_) | exact To.sub hT (by decide) | refine To.fst (by assumption) ?_ | refine To.snd (by assumption) ?_ | split | dsimp -proj only | (intro _; intros))

theorem strayFire_to {s : State} {f : FireRec} (hT : T ||| 17592388628722 = T) (hS : To T s0 s) :
    To T s0 (strayFire f s) := by
  unfold strayFire
  try dsimp -proj only
  repeat' (first | (with_reducible first | assumption | refine To.ite ?_ ?_ | refine fireRow_to ?_ ?_ ?_ | refine fecStart_to ?_ ?_ | refine ofdmStart_to ?_ ?_ | refine dfeRefuse_to ?_ ?_ | refine failFire_to ?_ ?_) | exact To.sub hT (by decide) | refine To.fst (by assumption) ?_ | refine To.snd (by assumption) ?_ | split | dsimp -proj only | (intro _; intros))

theorem fireArriveSt_to {s : State} {lp : Nat} {cls0 : Bool} {flit : Flit} (hT : T ||| 17592389416178 = T) (hS : To T s0 s) :
    To T s0 (fireArriveSt lp cls0 flit s) := by
  unfold fireArriveSt
  try dsimp -proj only
  repeat' (first | (with_reducible first | assumption | refine To.ite ?_ ?_ | refine firePacketSt_to ?_ ?_ | refine strayFire_to ?_ ?_) | exact To.sub hT (by decide) | refine To.fst (by assumption) ?_ | refine To.snd (by assumption) ?_ | split | dsimp -proj only)

theorem ringMemSt_to {s : State} {m : RingMaster} {c : Nat} {w : Nat} {v : Option Word} (hT : T ||| 1058930 = T) (hS : To T s0 s) :
    To T s0 (ringMemSt m c w v s) := by
  unfold ringMemSt
  try dsimp -proj only
  repeat' (first | (with_reducible first | assumption | refine To.ite ?_ ?_ | refine incCnt_to ?_ ?_ | refine captureErr_to ?_ ?_ | refine setEvt_to ?_ ?_ | refine writeArrayWord_to ?_ ?_ | refine readArrays_to ?_ ?_) | exact To.sub hT (by decide) | refine To.fst (by assumption) ?_ | refine To.snd (by assumption) ?_ | split | (with_reducible first | refine To.set_rdOut ?_ ?_) | dsimp -proj only)

theorem ringServe_to {s : State} {m : RingMaster} {t : RingTarget} {v : Option Word} (hT : T ||| 35184372088830 = T) (hS : To T s0 s) :
    To T s0 (ringServe m t v s) := by
  unfold ringServe
  try dsimp -proj only
  repeat' (first | (with_reducible first | assumption | refine To.ite ?_ ?_ | refine regWriteSt_to ?_ ?_ | refine regReadSt_to ?_ ?_ | refine ringMemSt_to ?_ ?_) | exact To.sub hT (by decide) | refine To.fst (by assumption) ?_ | refine To.snd (by assumption) ?_ | split | dsimp -proj only)

theorem ringAccessSt_to {s : State} {m : RingMaster} {t : RingTarget} {v : Option Word} {crcOk : Bool} (hT : T ||| 35184372088830 = T) (hS : To T s0 s) :
    To T s0 (ringAccessSt m t v crcOk s) := by
  unfold ringAccessSt
  try dsimp -proj only
  repeat' (first | (with_reducible first | assumption | refine To.ite ?_ ?_ | refine ownErr_to ?_ ?_ | refine incCnt_to ?_ ?_ | refine modFab_to ?_ ?_ | refine ringServe_to ?_ ?_) | exact To.sub hT (by decide) | refine To.fst (by assumption) ?_ | refine To.snd (by assumption) ?_ | split | dsimp -proj only | (intro _; intros))

theorem ringTimeoutSt_to {s : State} {m : RingMaster} (hT : T ||| 1116178 = T) (hS : To T s0 s) :
    To T s0 (ringTimeoutSt m s) := by
  unfold ringTimeoutSt
  try dsimp -proj only
  repeat' (first | (with_reducible first | assumption | refine To.ite ?_ ?_ | refine modFab_to ?_ ?_ | refine ownErr_to ?_ ?_ | refine setEvt_to ?_ ?_ | refine incCnt_to ?_ ?_ | refine respond_to ?_ ?_) | exact To.sub hT (by decide) | refine To.fst (by assumption) ?_ | refine To.snd (by assumption) ?_ | split | (with_reducible first | refine To.set_rdOut ?_ ?_) | dsimp -proj only | (intro _; intros))

theorem execRd_to {s : State} {q : RdReq} {u : Option Upset} {flit : Flit} (hT : T ||| 35184372088830 = T) (hS : To T s0 s) :
    Out T s0 (execRd q u flit s) := by
  unfold execRd
  repeat' (first | (with_reducible first | assumption | refine To.ite ?_ ?_ | refine rdSt_to ?_ ?_ | refine Out.next ?_) | exact To.sub hT (by decide) | refine To.fst (by assumption) ?_ | refine To.snd (by assumption) ?_ | split)

theorem execWr_to {s : State} {q : WrReq} {u : Option Upset} {flit : Flit} (hT : T ||| 35184372088830 = T) (hS : To T s0 s) :
    Out T s0 (execWr q u flit s) := by
  unfold execWr
  repeat' (first | (with_reducible first | assumption | refine To.ite ?_ ?_ | refine wrSt_to ?_ ?_ | refine Out.next ?_) | exact To.sub hT (by decide) | refine To.fst (by assumption) ?_ | refine To.snd (by assumption) ?_ | split)

theorem execRdresp_to {s : State} {x : RespFlit} (hT : T ||| 188979817714 = T) (hS : To T s0 s) :
    Out T s0 (execRdresp x s) := by
  unfold execRdresp
  repeat' (first | (with_reducible first | assumption | refine To.ite ?_ ?_ | refine responseSt_to ?_ ?_ | refine Out.next ?_) | exact To.sub hT (by decide) | refine To.fst (by assumption) ?_ | refine To.snd (by assumption) ?_ | split)

theorem execWrresp_to {s : State} {x : RespFlit} (hT : T ||| 188979817714 = T) (hS : To T s0 s) :
    Out T s0 (execWrresp x s) := by
  unfold execWrresp
  repeat' (first | (with_reducible first | assumption | refine To.ite ?_ ?_ | refine responseSt_to ?_ ?_ | refine Out.next ?_) | exact To.sub hT (by decide) | refine To.fst (by assumption) ?_ | refine To.snd (by assumption) ?_ | split)

theorem execFirePacket_to {s : State} {lp : Fin 48} {cls0 : Bool} {flit : Flit} (hT : T ||| 17592389416178 = T) (hS : To T s0 s) :
    Out T s0 (execFirePacket lp cls0 flit s) := by
  unfold execFirePacket
  repeat' (first | (with_reducible first | assumption | refine To.ite ?_ ?_ | refine fireArriveSt_to ?_ ?_ | refine Out.next ?_) | exact To.sub hT (by decide) | refine To.fst (by assumption) ?_ | refine To.snd (by assumption) ?_ | split)

theorem execRequestTimeout_to {s : State} {id : Nat} (hT : T ||| 188979816690 = T) (hS : To T s0 s) :
    Out T s0 (execRequestTimeout id s) := by
  unfold execRequestTimeout
  repeat' (first | (with_reducible first | assumption | refine To.ite ?_ ?_ | refine requestTimeoutSt_to ?_ ?_ | refine Out.next ?_) | exact To.sub hT (by decide) | refine To.fst (by assumption) ?_ | refine To.snd (by assumption) ?_ | split)

theorem execRingAccess_to {s : State} {m : RingMaster} {t : RingTarget} {wr : Bool} {v : Word} {crcOk : Bool} (hT : T ||| 35184372088830 = T) (hS : To T s0 s) :
    Out T s0 (execRingAccess m t wr v crcOk s) := by
  unfold execRingAccess
  repeat' (first | (with_reducible first | assumption | refine To.ite ?_ ?_ | refine ringAccessSt_to ?_ ?_ | refine Out.next ?_) | exact To.sub hT (by decide) | refine To.fst (by assumption) ?_ | refine To.snd (by assumption) ?_ | split)

theorem execRingAccessTimeout_to {s : State} {m : RingMaster} (hT : T ||| 1116178 = T) (hS : To T s0 s) :
    Out T s0 (execRingAccessTimeout m s) := by
  unfold execRingAccessTimeout
  repeat' (first | (with_reducible first | assumption | refine To.ite ?_ ?_ | refine ringTimeoutSt_to ?_ ?_ | refine Out.next ?_) | exact To.sub hT (by decide) | refine To.fst (by assumption) ?_ | refine To.snd (by assumption) ?_ | split)

end Sys2Proof.Machine
end

