-- ==== Sys2Proof/Laws/ToCoreMem.lean ====
section
/-! SUPPORT. The frames of the operations and meanings of CoreMem: what each may change. -/

namespace Sys2Proof.Machine

variable {T : Nat} {s0 : State}

theorem loadPoison_to {s : State} {c : Nat} {a : Nat} (hT : T ||| 1048578 = T) (hS : To T s0 s) :
    To T s0 (loadPoison s c a) := by
  unfold loadPoison
  repeat' (first | (with_reducible first | assumption | refine To.ite ?_ ?_ | refine setEvt_to ?_ ?_ | refine ownErr_to ?_ ?_) | exact To.sub hT (by decide) | refine To.fst (by assumption) ?_ | refine To.snd (by assumption) ?_ | split)

theorem loadLost_to {s : State} {c : Nat} {a : Nat} (hT : T ||| 2148532226 = T) (hS : To T s0 s) :
    To T s0 (loadLost s c a) := by
  unfold loadLost
  try dsimp -proj only
  repeat' (first | (with_reducible first | assumption | refine To.ite ?_ ?_ | refine setEvt_to ?_ ?_ | refine ownErr_to ?_ ?_ | refine modCore_to ?_ ?_) | exact To.sub hT (by decide) | refine To.fst (by assumption) ?_ | refine To.snd (by assumption) ?_ | split | dsimp -proj only | (intro _; intros))

theorem fillLine_to {s : State} {c : Nat} {a : Nat} (hT : T ||| 2148737266 = T) (hS : To T s0 s) :
    To T s0 (fillLine s c a).1 := by
  unfold fillLine
  try dsimp -proj only
  repeat' (first | (with_reducible first | assumption | refine To.ite ?_ ?_ | refine incCnt_to ?_ ?_ | refine drainAll_to ?_ ?_ | refine memRead_to ?_ ?_ | refine insertLine_to ?_ ?_ | refine loadPoison_to ?_ ?_) | exact To.sub hT (by decide) | refine To.fst (by assumption) ?_ | refine To.snd (by assumption) ?_ | split | dsimp -proj only | (intro _; intros))

theorem readLine_to {s : State} {c : Nat} {a : Nat} (hT : T ||| 2148737266 = T) (hS : To T s0 s) :
    To T s0 (readLine s c a).1 := by
  unfold readLine
  try dsimp -proj only
  repeat' (first | (with_reducible first | assumption | refine To.ite ?_ ?_ | refine fillLine_to ?_ ?_ | refine modCore_to ?_ ?_ | refine loadLost_to ?_ ?_ | refine countCe_to ?_ ?_) | exact To.sub hT (by decide) | refine To.fst (by assumption) ?_ | refine To.snd (by assumption) ?_ | split | dsimp -proj only | (intro _; intros))

theorem orderPast_to {s : State} {c : Nat} {a : Nat} {n : Nat} (hT : T ||| 2148737266 = T) (hS : To T s0 s) :
    To T s0 (orderPast c a n s) := by
  unfold orderPast
  repeat' (first | (with_reducible first | assumption | refine To.ite ?_ ?_ | refine drainAll_to ?_ ?_ | refine flushLines_to ?_ ?_) | exact To.sub hT (by decide) | refine To.fst (by assumption) ?_ | refine To.snd (by assumption) ?_ | split)

theorem readPast_to {s : State} {c : Nat} {a : Nat} {n : Nat} (hT : T ||| 1253462 = T) (hS : To T s0 s) :
    To T s0 (readPast s c a n).1 := by
  unfold readPast
  try dsimp -proj only
  repeat' (first | (with_reducible first | assumption | refine To.ite ?_ ?_ | refine pageServe_to ?_ ?_ | refine memRead_to ?_ ?_ | refine loadPoison_to ?_ ?_) | exact To.sub hT (by decide) | refine To.fst (by assumption) ?_ | refine To.snd (by assumption) ?_ | split | dsimp -proj only)

theorem loadPart_to {s : State} {c : Nat} {u : Bool} {a : Nat} {n : Nat} (hT : T ||| 2148737270 = T) (hS : To T s0 s) :
    To T s0 (loadPart s c u a n).1 := by
  unfold loadPart
  repeat' (first | (with_reducible first | assumption | refine To.ite ?_ ?_ | refine readLine_to ?_ ?_ | refine readPast_to ?_ ?_ | refine orderPast_to ?_ ?_) | exact To.sub hT (by decide) | refine To.fst (by assumption) ?_ | refine To.snd (by assumption) ?_ | split)

theorem loadBytes_to {s : State} {c : Nat} {u : Bool} {a : Nat} {n : Nat} (hT : T ||| 2148737270 = T) (hS : To T s0 s) :
    To T s0 (loadBytes s c u a n).1 := by
  unfold loadBytes
  try dsimp -proj only
  repeat' (first | (with_reducible first | assumption | refine To.ite ?_ ?_ | refine loadPart_to ?_ ?_) | exact To.sub hT (by decide) | refine To.fst (by assumption) ?_ | refine To.snd (by assumption) ?_ | split | dsimp -proj only)

theorem storeLine_to {s : State} {c : Nat} {a : Nat} {d : List (Option Byte)} (hT : T ||| 2148737266 = T) (hS : To T s0 s) :
    To T s0 (storeLine s c a d).1 := by
  unfold storeLine
  try dsimp -proj only
  repeat' (first | (with_reducible first | assumption | refine To.ite ?_ ?_ | refine insertLine_to ?_ ?_ | refine readLine_to ?_ ?_ | refine fillLine_to ?_ ?_) | exact To.sub hT (by decide) | refine To.fst (by assumption) ?_ | refine To.snd (by assumption) ?_ | split | dsimp -proj only)

theorem storePast_to {s : State} {c : Nat} {a : Nat} {d : List (Option Byte)} (hT : T ||| 35184372088830 = T) (hS : To T s0 s) :
    To T s0 (storePast s c a d) := by
  unfold storePast
  try dsimp -proj only
  repeat' (first | (with_reducible first | assumption | refine To.ite ?_ ?_ | refine drainAll_to ?_ ?_ | refine writeError_to ?_ ?_ | refine decodeErr_to ?_ ?_ | refine bridgeWait_to ?_ ?_ | refine bridgeDone_to ?_ ?_ | refine regWriteSt_to ?_ ?_ | refine coreWrite_to ?_ ?_ | refine invalLines_to ?_ ?_ | refine flushLines_to ?_ ?_) | exact To.sub hT (by decide) | refine To.fst (by assumption) ?_ | refine To.snd (by assumption) ?_ | split | dsimp -proj only)

theorem readyLine_to {s : State} {c : Nat} {a : Nat} {d : List (Option Byte)} (hT : T ||| 2148737266 = T) (hS : To T s0 s) :
    To T s0 (readyLine s c a d).1 := by
  unfold readyLine
  try dsimp -proj only
  repeat' (first | (with_reducible first | assumption | refine To.ite ?_ ?_ | refine readLine_to ?_ ?_) | exact To.sub hT (by decide) | refine To.fst (by assumption) ?_ | refine To.snd (by assumption) ?_ | split | dsimp -proj only)

theorem storeSome_to {s : State} {c : Nat} {a : Nat} {d : List (Option Byte)} (hT : T ||| 2148737266 = T) (hS : To T s0 s) :
    To T s0 (storeSome s c a d).1 := by
  unfold storeSome
  repeat' (first | (with_reducible first | assumption | refine To.ite ?_ ?_ | refine storeLine_to ?_ ?_) | exact To.sub hT (by decide) | refine To.fst (by assumption) ?_ | refine To.snd (by assumption) ?_ | split)

theorem storeBytes_to {s : State} {c : Nat} {u : Bool} {a : Nat} {d : List (Option Byte)} (hT : T ||| 35184372088830 = T) (hS : To T s0 s) :
    To T s0 (storeBytes s c u a d).1 := by
  unfold storeBytes
  try dsimp -proj only
  repeat' (first | (with_reducible first | assumption | refine To.ite ?_ ?_ | refine storeLine_to ?_ ?_ | refine readyLine_to ?_ ?_ | refine storeSome_to ?_ ?_ | refine coreWriteNow_to ?_ ?_ | refine storePast_to ?_ ?_) | exact To.sub hT (by decide) | refine To.fst (by assumption) ?_ | refine To.snd (by assumption) ?_ | split | dsimp -proj only)

theorem loadRuns_to {y4 : State} {c : Nat} {u : Bool} {a : Nat} {y3 : List (Nat × Nat)} {y5 : List Byte} (hT : T ||| 2148737270 = T) (hS : To T s0 y4) :
    To T s0 (loadRuns c u a y3 y4 y5).1 := by
  induction y3 generalizing y4 y5 with
  | nil => exact hS
  | cons _ _ ih =>
    unfold loadRuns
    repeat' (first | (with_reducible first | assumption | refine To.ite ?_ ?_ | refine loadBytes_to ?_ ?_ | refine ih ?_) | exact To.sub hT (by decide) | refine To.fst (by assumption) ?_ | refine To.snd (by assumption) ?_ | split)

theorem fetchBundle_to {s : State} {c : Nat} {a : Nat} (hT : T ||| 1187922 = T) (hS : To T s0 s) :
    To T s0 (fetchBundle c a s).1 := by
  unfold fetchBundle
  repeat' (first | (with_reducible first | assumption | refine To.ite ?_ ?_ | refine memRead_to ?_ ?_ | refine setEvt_to ?_ ?_ | refine ownErr_to ?_ ?_) | exact To.sub hT (by decide) | refine To.fst (by assumption) ?_ | refine To.snd (by assumption) ?_ | split)

end Sys2Proof.Machine
end

