-- ==== Sys2Proof/Laws/ToCoreOps.lean ====
section
/-! SUPPORT. The frames of the operations and meanings of CoreOps: what each may change. -/

namespace Sys2Proof.Machine

variable {T : Nat} {s0 : State}

theorem faultWith_to {b : Bun} {t : TrapInfo} (_ : T ||| 0 = T) (hS : To T s0 b.s) :
    To T s0 (faultWith t b).s := by
  unfold faultWith
  repeat' (first | (with_reducible first | assumption | refine To.ite ?_ ?_) | exact To.sub hT (by decide) | refine To.fst (by assumption) ?_ | refine To.snd (by assumption) ?_ | split)

theorem compWith_to {b : Bun} {t : TrapInfo} (_ : T ||| 0 = T) (hS : To T s0 b.s) :
    To T s0 (compWith t b).s := by
  unfold compWith
  repeat' (first | (with_reducible first | assumption | refine To.ite ?_ ?_) | exact To.sub hT (by decide) | refine To.fst (by assumption) ?_ | refine To.snd (by assumption) ?_ | split)

theorem inFlight_to {b : Bun} {k : OpCtx} {l : Nat} {d : Dest} (_ : T ||| 0 = T) (hS : To T s0 b.s) :
    To T s0 (inFlight k l d b).s := by
  unfold inFlight
  repeat' (first | (with_reducible first | assumption | refine To.ite ?_ ?_) | exact To.sub hT (by decide) | refine To.fst (by assumption) ?_ | refine To.snd (by assumption) ?_ | split)

theorem toD_to {b : Bun} {k : OpCtx} {l : Nat} {i : Nat} {v : Word} (_ : T ||| 0 = T) (hS : To T s0 b.s) :
    To T s0 (toD k l i v b).s := by
  unfold toD
  repeat' (first | (with_reducible first | assumption | refine To.ite ?_ ?_ | refine inFlight_to ?_ ?_) | exact To.sub hT (by decide) | refine To.fst (by assumption) ?_ | refine To.snd (by assumption) ?_ | split)

theorem toDPair_to {b : Bun} {k : OpCtx} {l : Nat} {i : Nat} {v : Nat} (_ : T ||| 0 = T) (hS : To T s0 b.s) :
    To T s0 (toDPair k l i v b).s := by
  unfold toDPair
  repeat' (first | (with_reducible first | assumption | refine To.ite ?_ ?_ | refine toD_to ?_ ?_) | exact To.sub hT (by decide) | refine To.fst (by assumption) ?_ | refine To.snd (by assumption) ?_ | split)

theorem toA_to {b : Bun} {k : OpCtx} {l : Nat} {i : Nat} {v : Dword} (_ : T ||| 0 = T) (hS : To T s0 b.s) :
    To T s0 (toA k l i v b).s := by
  unfold toA
  repeat' (first | (with_reducible first | assumption | refine To.ite ?_ ?_ | refine inFlight_to ?_ ?_) | exact To.sub hT (by decide) | refine To.fst (by assumption) ?_ | refine To.snd (by assumption) ?_ | split)

theorem updateA_to {b : Bun} {k : OpCtx} {i : Nat} {v : Option Dword} (_ : T ||| 0 = T) (hS : To T s0 b.s) :
    To T s0 (updateA k i v b).s := by
  unfold updateA
  repeat' (first | (with_reducible first | assumption | refine To.ite ?_ ?_ | refine toA_to ?_ ?_) | exact To.sub hT (by decide) | refine To.fst (by assumption) ?_ | refine To.snd (by assumption) ?_ | split)

theorem opAlu_to {b : Bun} {k : OpCtx} (_ : T ||| 0 = T) (hS : To T s0 b.s) :
    To T s0 (opAlu k b).s := by
  unfold opAlu
  try dsimp -proj only
  repeat' (first | (with_reducible first | assumption | refine To.ite ?_ ?_ | refine toD_to ?_ ?_) | exact To.sub hT (by decide) | refine To.fst (by assumption) ?_ | refine To.snd (by assumption) ?_ | split | dsimp -proj only)

theorem opAluImm_to {b : Bun} {k : OpCtx} (_ : T ||| 0 = T) (hS : To T s0 b.s) :
    To T s0 (opAluImm k b).s := by
  unfold opAluImm
  repeat' (first | (with_reducible first | assumption | refine To.ite ?_ ?_ | refine toD_to ?_ ?_) | exact To.sub hT (by decide) | refine To.fst (by assumption) ?_ | refine To.snd (by assumption) ?_ | split)

theorem opMul_to {b : Bun} {k : OpCtx} (_ : T ||| 0 = T) (hS : To T s0 b.s) :
    To T s0 (opMul k b).s := by
  unfold opMul
  repeat' (first | (with_reducible first | assumption | refine To.ite ?_ ?_ | refine toD_to ?_ ?_) | exact To.sub hT (by decide) | refine To.fst (by assumption) ?_ | refine To.snd (by assumption) ?_ | split)

theorem opAddr_to {b : Bun} {k : OpCtx} (_ : T ||| 0 = T) (hS : To T s0 b.s) :
    To T s0 (opAddr k b).s := by
  unfold opAddr
  try dsimp -proj only
  repeat' (first | (with_reducible first | assumption | refine To.ite ?_ ?_ | refine toA_to ?_ ?_) | exact To.sub hT (by decide) | refine To.fst (by assumption) ?_ | refine To.snd (by assumption) ?_ | split | dsimp -proj only)

theorem opLui_to {b : Bun} {k : OpCtx} (_ : T ||| 0 = T) (hS : To T s0 b.s) :
    To T s0 (opLui k b).s := by
  unfold opLui
  repeat' (first | (with_reducible first | assumption | refine To.ite ?_ ?_ | refine toD_to ?_ ?_) | exact To.sub hT (by decide) | refine To.fst (by assumption) ?_ | refine To.snd (by assumption) ?_ | split)

theorem opLoad_to {b : Bun} {k : OpCtx} (hT : T ||| 2148737270 = T) (hS : To T s0 b.s) :
    To T s0 (opLoad k b).s := by
  unfold opLoad
  try dsimp -proj only
  repeat' (first | (with_reducible first | assumption | refine To.ite ?_ ?_ | refine faultWith_to ?_ ?_ | refine loadBytes_to ?_ ?_ | refine updateA_to ?_ ?_ | refine toDPair_to ?_ ?_ | refine toD_to ?_ ?_) | exact To.sub hT (by decide) | refine To.fst (by assumption) ?_ | refine To.snd (by assumption) ?_ | split | dsimp -proj only)

theorem opStore_to {b : Bun} {k : OpCtx} (hT : T ||| 35184372088830 = T) (hS : To T s0 b.s) :
    To T s0 (opStore k b).s := by
  unfold opStore
  try dsimp -proj only
  repeat' (first | (with_reducible first | assumption | refine To.ite ?_ ?_ | refine faultWith_to ?_ ?_ | refine storeBytes_to ?_ ?_ | refine updateA_to ?_ ?_) | exact To.sub hT (by decide) | refine To.fst (by assumption) ?_ | refine To.snd (by assumption) ?_ | split | dsimp -proj only)

theorem opBranch_to {b : Bun} {k : OpCtx} (_ : T ||| 0 = T) (hS : To T s0 b.s) :
    To T s0 (opBranch k b).s := by
  unfold opBranch
  try dsimp -proj only
  repeat' (first | (with_reducible first | assumption | refine To.ite ?_ ?_ | refine toD_to ?_ ?_) | exact To.sub hT (by decide) | refine To.fst (by assumption) ?_ | refine To.snd (by assumption) ?_ | split | dsimp -proj only)

theorem opJump_to {b : Bun} {k : OpCtx} (_ : T ||| 0 = T) (hS : To T s0 b.s) :
    To T s0 (opJump k b).s := by
  unfold opJump
  try dsimp -proj only
  repeat' (first | (with_reducible first | assumption | refine To.ite ?_ ?_ | refine toA_to ?_ ?_) | exact To.sub hT (by decide) | refine To.fst (by assumption) ?_ | refine To.snd (by assumption) ?_ | split | dsimp -proj only)

theorem publish_to {b : Bun} {k : OpCtx} {ar : Nat} {dl : Nat} (hT : T ||| 2148737266 = T) (hS : To T s0 b.s) :
    To T s0 (publish k ar dl b).1.s := by
  unfold publish
  try dsimp -proj only
  repeat' (first | (with_reducible first | assumption | refine To.ite ?_ ?_ | refine drainAll_to ?_ ?_ | refine flushLines_to ?_ ?_) | exact To.sub hT (by decide) | refine To.fst (by assumption) ?_ | refine To.snd (by assumption) ?_ | split | dsimp -proj only | (intro _; intros))

theorem opTsend_to {b : Bun} {k : OpCtx} (hT : T ||| 2148737266 = T) (hS : To T s0 b.s) :
    To T s0 (opTsend k b).s := by
  unfold opTsend
  try dsimp -proj only
  repeat' (first | (with_reducible first | assumption | refine To.ite ?_ ?_ | refine To.fstOf Bun.s (by assumption) ?_ | refine publish_to ?_ ?_ | refine incCnt_to ?_ ?_ | refine sendTok_to ?_ ?_) | exact To.sub hT (by decide) | refine To.fst (by assumption) ?_ | refine To.snd (by assumption) ?_ | split | dsimp -proj only)

theorem opTdone_to {b : Bun} {k : OpCtx} (hT : T ||| 2148737266 = T) (hS : To T s0 b.s) :
    To T s0 (opTdone k b).s := by
  unfold opTdone
  try dsimp -proj only
  repeat' (first | (with_reducible first | assumption | refine To.ite ?_ ?_ | refine To.fstOf Bun.s (by assumption) ?_ | refine publish_to ?_ ?_ | refine modCore_to ?_ ?_ | refine complete_to ?_ ?_ | refine incCnt_to ?_ ?_) | exact To.sub hT (by decide) | refine To.fst (by assumption) ?_ | refine To.snd (by assumption) ?_ | split | dsimp -proj only | (intro _; intros))

theorem opFwait_to {b : Bun} {k : OpCtx} (hT : T ||| 2147483648 = T) (hS : To T s0 b.s) :
    To T s0 (opFwait k b).s := by
  unfold opFwait
  try dsimp -proj only
  repeat' (first | (with_reducible first | assumption | refine To.ite ?_ ?_ | refine modCore_to ?_ ?_ | refine toA_to ?_ ?_) | exact To.sub hT (by decide) | refine To.fst (by assumption) ?_ | refine To.snd (by assumption) ?_ | split | dsimp -proj only | (intro _; intros))

theorem opFlush_to {b : Bun} {k : OpCtx} (hT : T ||| 2148737266 = T) (hS : To T s0 b.s) :
    To T s0 (opFlush k b).s := by
  unfold opFlush
  repeat' (first | (with_reducible first | assumption | refine To.ite ?_ ?_ | refine flushLines_to ?_ ?_) | exact To.sub hT (by decide) | refine To.fst (by assumption) ?_ | refine To.snd (by assumption) ?_ | split)

theorem opInval_to {b : Bun} {k : OpCtx} (hT : T ||| 2147483648 = T) (hS : To T s0 b.s) :
    To T s0 (opInval k b).s := by
  unfold opInval
  repeat' (first | (with_reducible first | assumption | refine To.ite ?_ ?_ | refine invalLines_to ?_ ?_) | exact To.sub hT (by decide) | refine To.fst (by assumption) ?_ | refine To.snd (by assumption) ?_ | split)

theorem opFlinv_to {b : Bun} {k : OpCtx} (hT : T ||| 2148737266 = T) (hS : To T s0 b.s) :
    To T s0 (opFlinv k b).s := by
  unfold opFlinv
  try dsimp -proj only
  repeat' (first | (with_reducible first | assumption | refine To.ite ?_ ?_ | refine invalLines_to ?_ ?_ | refine flushLines_to ?_ ?_) | exact To.sub hT (by decide) | refine To.fst (by assumption) ?_ | refine To.snd (by assumption) ?_ | split | dsimp -proj only)

theorem opMfc_to {b : Bun} {k : OpCtx} (_ : T ||| 0 = T) (hS : To T s0 b.s) :
    To T s0 (opMfc k b).s := by
  unfold opMfc
  repeat' (first | (with_reducible first | assumption | refine To.ite ?_ ?_ | refine toD_to ?_ ?_) | exact To.sub hT (by decide) | refine To.fst (by assumption) ?_ | refine To.snd (by assumption) ?_ | split)

theorem opMtc_to {b : Bun} {k : OpCtx} (_ : T ||| 0 = T) (hS : To T s0 b.s) :
    To T s0 (opMtc k b).s := by
  unfold opMtc
  repeat' (first | (with_reducible first | assumption | refine To.ite ?_ ?_ | refine inFlight_to ?_ ?_) | exact To.sub hT (by decide) | refine To.fst (by assumption) ?_ | refine To.snd (by assumption) ?_ | split)

theorem opRti_to {b : Bun} (_ : T ||| 0 = T) (hS : To T s0 b.s) :
    To T s0 (opRti b).s := by
  unfold opRti
  repeat' (first | (with_reducible first | assumption | refine To.ite ?_ ?_) | exact To.sub hT (by decide) | refine To.fst (by assumption) ?_ | refine To.snd (by assumption) ?_ | split)

theorem storeParts_to {y4 : State} {c : Nat} {a : Nat} {d : List Byte} {y3 : List Nat} (hT : T ||| 35184372088830 = T) (hS : To T s0 y4) :
    To T s0 (storeParts c a d y3 y4).1 := by
  induction y3 generalizing y4 with
  | nil => exact hS
  | cons _ _ ih =>
    unfold storeParts
    repeat' (first | (with_reducible first | assumption | refine To.ite ?_ ?_ | refine storeBytes_to ?_ ?_ | refine ih ?_) | exact To.sub hT (by decide) | refine To.fst (by assumption) ?_ | refine To.snd (by assumption) ?_ | split)

theorem loadParts_to {y3 : State} {c : Nat} {a : Nat} {y2 : List Nat} {y4 : List Byte} (hT : T ||| 2148737270 = T) (hS : To T s0 y3) :
    To T s0 (loadParts c a y2 y3 y4).1 := by
  induction y2 generalizing y3 y4 with
  | nil => exact hS
  | cons _ _ ih =>
    unfold loadParts
    repeat' (first | (with_reducible first | assumption | refine To.ite ?_ ?_ | refine loadBytes_to ?_ ?_ | refine ih ?_) | exact To.sub hT (by decide) | refine To.fst (by assumption) ?_ | refine To.snd (by assumption) ?_ | split)

theorem setShb_to {s : State} {v : Bool} {c : Nat} (hT : T ||| 2147483648 = T) (hS : To T s0 s) :
    To T s0 (setShb v c s) := by
  unfold setShb
  try dsimp -proj only
  repeat' (first | (with_reducible first | assumption | refine To.ite ?_ ?_ | refine modCore_to ?_ ?_) | exact To.sub hT (by decide) | refine To.fst (by assumption) ?_ | refine To.snd (by assumption) ?_ | split | dsimp -proj only | (intro _; intros))

theorem opIsave_to {b : Bun} {k : OpCtx} (hT : T ||| 35184372088830 = T) (hS : To T s0 b.s) :
    To T s0 (opIsave k b).s := by
  unfold opIsave
  try dsimp -proj only
  repeat' (first | (with_reducible first | assumption | refine To.ite ?_ ?_ | refine faultWith_to ?_ ?_ | refine storeParts_to ?_ ?_ | refine setShb_to ?_ ?_) | exact To.sub hT (by decide) | refine To.fst (by assumption) ?_ | refine To.snd (by assumption) ?_ | split | dsimp -proj only)

theorem opIrestore_to {b : Bun} {k : OpCtx} (hT : T ||| 2148737270 = T) (hS : To T s0 b.s) :
    To T s0 (opIrestore k b).s := by
  unfold opIrestore
  try dsimp -proj only
  repeat' (first | (with_reducible first | assumption | refine To.ite ?_ ?_ | refine faultWith_to ?_ ?_ | refine loadParts_to ?_ ?_ | refine setShb_to ?_ ?_ | refine modCore_to ?_ ?_) | exact To.sub hT (by decide) | refine To.fst (by assumption) ?_ | refine To.snd (by assumption) ?_ | split | dsimp -proj only | (intro _; intros))

theorem opTrapInstr_to {b : Bun} {k : OpCtx} (_ : T ||| 0 = T) (hS : To T s0 b.s) :
    To T s0 (opTrapInstr k b).s := by
  unfold opTrapInstr
  repeat' (first | (with_reducible first | assumption | refine To.ite ?_ ?_ | refine compWith_to ?_ ?_) | exact To.sub hT (by decide) | refine To.fst (by assumption) ?_ | refine To.snd (by assumption) ?_ | split)

theorem opWait_to {b : Bun} (_ : T ||| 0 = T) (hS : To T s0 b.s) :
    To T s0 (opWait b).s := by
  unfold opWait
  repeat' (first | (with_reducible first | assumption | refine To.ite ?_ ?_) | exact To.sub hT (by decide) | refine To.fst (by assumption) ?_ | refine To.snd (by assumption) ?_ | split)

theorem opSys_to {b : Bun} {k : OpCtx} (hT : T ||| 35184372088830 = T) (hS : To T s0 b.s) :
    To T s0 (opSys k b).s := by
  unfold opSys
  repeat' (first | (with_reducible first | assumption | refine To.ite ?_ ?_ | refine opTsend_to ?_ ?_ | refine opTdone_to ?_ ?_ | refine opFwait_to ?_ ?_ | refine opFlush_to ?_ ?_ | refine opInval_to ?_ ?_ | refine opFlinv_to ?_ ?_ | refine drainAll_to ?_ ?_ | refine opMfc_to ?_ ?_ | refine opMtc_to ?_ ?_ | refine opRti_to ?_ ?_ | refine opIsave_to ?_ ?_ | refine opIrestore_to ?_ ?_ | refine opTrapInstr_to ?_ ?_ | refine opWait_to ?_ ?_) | exact To.sub hT (by decide) | refine To.fst (by assumption) ?_ | refine To.snd (by assumption) ?_ | split)

end Sys2Proof.Machine
end

