-- ==== Sys2Proof/Laws/ToVecOps.lean ====
section
/-! SUPPORT. The frames of the operations and meanings of VecOps: what each may change. -/

namespace Sys2Proof.Machine

variable {T : Nat} {s0 : State}

theorem toV_to {b : Bun} {k : OpCtx} {l : Nat} {i : Nat} {mask : Vec} {val : Vec} (_ : T ||| 0 = T) (hS : To T s0 b.s) :
    To T s0 (toV k l i mask val b).s := by
  unfold toV
  repeat' (first | (with_reducible first | assumption | refine To.ite ?_ ?_ | refine inFlight_to ?_ ?_) | exact To.sub hT (by decide) | refine To.fst (by assumption) ?_ | refine To.snd (by assumption) ?_ | split)

theorem toVPred_to {b : Bun} {k : OpCtx} {l : Nat} {t : Nat} {pg : Nat} {zm : Bool} {res : List Nat} (_ : T ||| 0 = T) (hS : To T s0 b.s) :
    To T s0 (toVPred k l t pg zm res b).s := by
  unfold toVPred
  try dsimp -proj only
  repeat' (first | (with_reducible first | assumption | refine To.ite ?_ ?_ | refine toV_to ?_ ?_) | exact To.sub hT (by decide) | refine To.fst (by assumption) ?_ | refine To.snd (by assumption) ?_ | split | dsimp -proj only)

theorem opValu_to {b : Bun} {k : OpCtx} (_ : T ||| 0 = T) (hS : To T s0 b.s) :
    To T s0 (opValu k b).s := by
  unfold opValu
  try dsimp -proj only
  repeat' (first | (with_reducible first | assumption | refine To.ite ?_ ?_ | refine toVPred_to ?_ ?_) | exact To.sub hT (by decide) | refine To.fst (by assumption) ?_ | refine To.snd (by assumption) ?_ | split | dsimp -proj only)

theorem opValuScalar_to {b : Bun} {k : OpCtx} (_ : T ||| 0 = T) (hS : To T s0 b.s) :
    To T s0 (opValuScalar k b).s := by
  unfold opValuScalar
  try dsimp -proj only
  repeat' (first | (with_reducible first | assumption | refine To.ite ?_ ?_ | refine toVPred_to ?_ ?_) | exact To.sub hT (by decide) | refine To.fst (by assumption) ?_ | refine To.snd (by assumption) ?_ | split | dsimp -proj only)

theorem opVmac_to {b : Bun} {k : OpCtx} (_ : T ||| 0 = T) (hS : To T s0 b.s) :
    To T s0 (opVmac k b).s := by
  unfold opVmac
  try dsimp -proj only
  repeat' (first | (with_reducible first | assumption | refine To.ite ?_ ?_ | refine inFlight_to ?_ ?_) | exact To.sub hT (by decide) | refine To.fst (by assumption) ?_ | refine To.snd (by assumption) ?_ | split | dsimp -proj only)

theorem opVrnd_to {b : Bun} {k : OpCtx} (_ : T ||| 0 = T) (hS : To T s0 b.s) :
    To T s0 (opVrnd k b).s := by
  unfold opVrnd
  try dsimp -proj only
  repeat' (first | (with_reducible first | assumption | refine To.ite ?_ ?_ | refine toVPred_to ?_ ?_ | refine inFlight_to ?_ ?_) | exact To.sub hT (by decide) | refine To.fst (by assumption) ?_ | refine To.snd (by assumption) ?_ | split | dsimp -proj only | (intro _; intros))

theorem opVperm_to {b : Bun} {k : OpCtx} (_ : T ||| 0 = T) (hS : To T s0 b.s) :
    To T s0 (opVperm k b).s := by
  unfold opVperm
  try dsimp -proj only
  repeat' (first | (with_reducible first | assumption | refine To.ite ?_ ?_ | refine toVPred_to ?_ ?_) | exact To.sub hT (by decide) | refine To.fst (by assumption) ?_ | refine To.snd (by assumption) ?_ | split | dsimp -proj only)

theorem opVcmp_to {b : Bun} {k : OpCtx} (_ : T ||| 0 = T) (hS : To T s0 b.s) :
    To T s0 (opVcmp k b).s := by
  unfold opVcmp
  try dsimp -proj only
  repeat' (first | (with_reducible first | assumption | refine To.ite ?_ ?_ | refine inFlight_to ?_ ?_) | exact To.sub hT (by decide) | refine To.fst (by assumption) ?_ | refine To.snd (by assumption) ?_ | split | dsimp -proj only | (intro _; intros))

theorem opVpred_to {b : Bun} {k : OpCtx} (_ : T ||| 0 = T) (hS : To T s0 b.s) :
    To T s0 (opVpred k b).s := by
  unfold opVpred
  try dsimp -proj only
  repeat' (first | (with_reducible first | assumption | refine To.ite ?_ ?_ | refine inFlight_to ?_ ?_ | refine toDPair_to ?_ ?_ | refine toD_to ?_ ?_) | exact To.sub hT (by decide) | refine To.fst (by assumption) ?_ | refine To.snd (by assumption) ?_ | split | dsimp -proj only | (intro _; intros))

theorem opVfp_to {b : Bun} {k : OpCtx} (_ : T ||| 0 = T) (hS : To T s0 b.s) :
    To T s0 (opVfp k b).s := by
  unfold opVfp
  try dsimp -proj only
  repeat' (first | (with_reducible first | assumption | refine To.ite ?_ ?_ | refine toVPred_to ?_ ?_) | exact To.sub hT (by decide) | refine To.fst (by assumption) ?_ | refine To.snd (by assumption) ?_ | split | dsimp -proj only | (intro _; intros))

theorem opVred_to {b : Bun} {k : OpCtx} (_ : T ||| 0 = T) (hS : To T s0 b.s) :
    To T s0 (opVred k b).s := by
  unfold opVred
  try dsimp -proj only
  repeat' (first | (with_reducible first | assumption | refine To.ite ?_ ?_ | refine toDPair_to ?_ ?_ | refine toD_to ?_ ?_) | exact To.sub hT (by decide) | refine To.fst (by assumption) ?_ | refine To.snd (by assumption) ?_ | split | dsimp -proj only)

theorem opFtap_to {b : Bun} {k : OpCtx} (_ : T ||| 0 = T) (hS : To T s0 b.s) :
    To T s0 (opFtap k b).s := by
  unfold opFtap
  try dsimp -proj only
  repeat' (first | (with_reducible first | assumption | refine To.ite ?_ ?_ | refine toV_to ?_ ?_ | refine inFlight_to ?_ ?_) | exact To.sub hT (by decide) | refine To.fst (by assumption) ?_ | refine To.snd (by assumption) ?_ | split | dsimp -proj only)

theorem opVld_to {b : Bun} {k : OpCtx} (hT : T ||| 2148737270 = T) (hS : To T s0 b.s) :
    To T s0 (opVld k b).s := by
  unfold opVld
  try dsimp -proj only
  repeat' (first | (with_reducible first | assumption | refine To.ite ?_ ?_ | refine faultWith_to ?_ ?_ | refine loadRuns_to ?_ ?_ | refine updateA_to ?_ ?_ | refine toV_to ?_ ?_) | exact To.sub hT (by decide) | refine To.fst (by assumption) ?_ | refine To.snd (by assumption) ?_ | split | dsimp -proj only)

theorem opVst_to {b : Bun} {k : OpCtx} (hT : T ||| 35184372088830 = T) (hS : To T s0 b.s) :
    To T s0 (opVst k b).s := by
  unfold opVst
  try dsimp -proj only
  repeat' (first | (with_reducible first | assumption | refine To.ite ?_ ?_ | refine faultWith_to ?_ ?_ | refine storeBytes_to ?_ ?_ | refine updateA_to ?_ ?_) | exact To.sub hT (by decide) | refine To.fst (by assumption) ?_ | refine To.snd (by assumption) ?_ | split | dsimp -proj only | (intro _; intros))

theorem opVxfer_to {b : Bun} {k : OpCtx} (hT : T ||| 35184372088830 = T) (hS : To T s0 b.s) :
    To T s0 (opVxfer k b).s := by
  unfold opVxfer
  try dsimp -proj only
  repeat' (first | (with_reducible first | assumption | refine To.ite ?_ ?_ | refine faultWith_to ?_ ?_ | refine storeBytes_to ?_ ?_ | refine updateA_to ?_ ?_ | refine loadBytes_to ?_ ?_ | refine inFlight_to ?_ ?_) | exact To.sub hT (by decide) | refine To.fst (by assumption) ?_ | refine To.snd (by assumption) ?_ | split | dsimp -proj only)

theorem gsElem_to {r : GsRun} {k : OpCtx} {gather : Bool} {e : Nat} (hT : T ||| 35184372088830 = T) (hS : To T s0 r.s) :
    To T s0 (gsElem k gather r e).s := by
  unfold gsElem
  try dsimp -proj only
  repeat' (first | (with_reducible first | assumption | refine To.ite ?_ ?_ | refine loadBytes_to ?_ ?_ | refine storeBytes_to ?_ ?_) | exact To.sub hT (by decide) | refine To.fst (by assumption) ?_ | refine To.snd (by assumption) ?_ | split | dsimp -proj only)

theorem setEri_to {s : State} {c : Nat} {code : Nat} {index : Nat} (hT : T ||| 2147483648 = T) (hS : To T s0 s) :
    To T s0 (setEri c code index s) := by
  unfold setEri
  try dsimp -proj only
  repeat' (first | (with_reducible first | assumption | refine To.ite ?_ ?_ | refine modCore_to ?_ ?_) | exact To.sub hT (by decide) | refine To.fst (by assumption) ?_ | refine To.snd (by assumption) ?_ | split | dsimp -proj only | (intro _; intros))

theorem opGs_to {b : Bun} {gather : Bool} {k : OpCtx} (hT : T ||| 35184372088830 = T) (hS : To T s0 b.s) :
    To T s0 (opGs gather k b).s := by
  unfold opGs
  try dsimp -proj only
  repeat' (first | (with_reducible first | assumption | refine To.ite ?_ ?_ | refine gsElem_to ?_ ?_ | refine modCore_to ?_ ?_ | refine faultWith_to ?_ ?_ | refine setEri_to ?_ ?_ | refine toV_to ?_ ?_ | refine To.foldl _ (fun _ _ _ => ?_) ?_ | refine To.foldl_fst _ (fun _ _ _ => ?_) ?_ | refine To.foldlOf Bun.s _ (fun _ _ _ => ?_) ?_ | refine To.foldlOf GsRun.s _ (fun _ _ _ => ?_) ?_) | exact To.sub hT (by decide) | refine To.fst (by assumption) ?_ | refine To.snd (by assumption) ?_ | split | dsimp -proj only | (intro _; intros))

theorem opVgather_to {b : Bun} {k : OpCtx} (hT : T ||| 35184372088830 = T) (hS : To T s0 b.s) :
    To T s0 (opVgather k b).s := by
  unfold opVgather
  repeat' (first | (with_reducible first | assumption | refine To.ite ?_ ?_ | refine opGs_to ?_ ?_) | exact To.sub hT (by decide) | refine To.fst (by assumption) ?_ | refine To.snd (by assumption) ?_ | split)

theorem opVscatter_to {b : Bun} {k : OpCtx} (hT : T ||| 35184372088830 = T) (hS : To T s0 b.s) :
    To T s0 (opVscatter k b).s := by
  unfold opVscatter
  repeat' (first | (with_reducible first | assumption | refine To.ite ?_ ?_ | refine opGs_to ?_ ?_) | exact To.sub hT (by decide) | refine To.fst (by assumption) ?_ | refine To.snd (by assumption) ?_ | split)

theorem mxIssue_to {s : State} {k : OpCtx} {fate : MxFate} (hT : T ||| 12884901904 = T) (hS : To T s0 s) :
    To T s0 (mxIssue k fate s).1 := by
  unfold mxIssue
  try dsimp -proj only
  repeat' (first | (with_reducible first | assumption | refine To.ite ?_ ?_ | refine mxRefuse_to ?_ ?_ | refine mxAccept_to ?_ ?_) | exact To.sub hT (by decide) | refine To.fst (by assumption) ?_ | refine To.snd (by assumption) ?_ | split | dsimp -proj only)

theorem opMxop_to {b : Bun} {k : OpCtx} (hT : T ||| 15033639154 = T) (hS : To T s0 b.s) :
    To T s0 (opMxop k b).s := by
  unfold opMxop
  try dsimp -proj only
  repeat' (first | (with_reducible first | assumption | refine To.ite ?_ ?_ | refine mxIssue_to ?_ ?_ | refine drainAll_to ?_ ?_ | refine compWith_to ?_ ?_ | refine incCnt_to ?_ ?_) | exact To.sub hT (by decide) | refine To.fst (by assumption) ?_ | refine To.snd (by assumption) ?_ | split | dsimp -proj only)

theorem opMxsb_to {b : Bun} {k : OpCtx} (_ : T ||| 0 = T) (hS : To T s0 b.s) :
    To T s0 (opMxsb k b).s := by
  unfold opMxsb
  repeat' (first | (with_reducible first | assumption | refine To.ite ?_ ?_ | refine toD_to ?_ ?_) | exact To.sub hT (by decide) | refine To.fst (by assumption) ?_ | refine To.snd (by assumption) ?_ | split)

theorem opMxstat_to {b : Bun} {k : OpCtx} (_ : T ||| 0 = T) (hS : To T s0 b.s) :
    To T s0 (opMxstat k b).s := by
  unfold opMxstat
  repeat' (first | (with_reducible first | assumption | refine To.ite ?_ ?_ | refine toD_to ?_ ?_) | exact To.sub hT (by decide) | refine To.fst (by assumption) ?_ | refine To.snd (by assumption) ?_ | split)

theorem opMxsave_to {b : Bun} {k : OpCtx} (hT : T ||| 35184372088830 = T) (hS : To T s0 b.s) :
    To T s0 (opMxsave k b).s := by
  unfold opMxsave
  try dsimp -proj only
  repeat' (first | (with_reducible first | assumption | refine To.ite ?_ ?_ | refine faultWith_to ?_ ?_ | refine storeBytes_to ?_ ?_) | exact To.sub hT (by decide) | refine To.fst (by assumption) ?_ | refine To.snd (by assumption) ?_ | split | dsimp -proj only)

theorem opMxrst_to {b : Bun} {k : OpCtx} (hT : T ||| 10738671862 = T) (hS : To T s0 b.s) :
    To T s0 (opMxrst k b).s := by
  unfold opMxrst
  try dsimp -proj only
  repeat' (first | (with_reducible first | assumption | refine To.ite ?_ ?_ | refine faultWith_to ?_ ?_ | refine loadBytes_to ?_ ?_ | refine modCtx_to ?_ ?_) | exact To.sub hT (by decide) | refine To.fst (by assumption) ?_ | refine To.snd (by assumption) ?_ | split | dsimp -proj only | (intro _; intros))

theorem opMxcancel_to {b : Bun} {k : OpCtx} (hT : T ||| 12886155506 = T) (hS : To T s0 b.s) :
    To T s0 (opMxcancel k b).s := by
  unfold opMxcancel
  try dsimp -proj only
  repeat' (first | (with_reducible first | assumption | refine To.ite ?_ ?_ | refine mxCancel_to ?_ ?_) | exact To.sub hT (by decide) | refine To.fst (by assumption) ?_ | refine To.snd (by assumption) ?_ | split | dsimp -proj only)

end Sys2Proof.Machine
end

