-- ==== Sys2Proof/Laws/ToBundle.lean ====
section
/-! SUPPORT. The frames of the operations and meanings of Bundle: what each may change. -/

namespace Sys2Proof.Machine

variable {T : Nat} {s0 : State}

theorem opDo_to {b : Bun} {k : OpCtx} (hT : T ||| 35184372088830 = T) (hS : To T s0 b.s) :
    To T s0 (opDo k b).s := by
  unfold opDo
  repeat' (first | (with_reducible first | assumption | refine To.ite ?_ ?_ | refine opAlu_to ?_ ?_ | refine opAluImm_to ?_ ?_ | refine opMul_to ?_ ?_ | refine opLoad_to ?_ ?_ | refine opStore_to ?_ ?_ | refine opAddr_to ?_ ?_ | refine opLui_to ?_ ?_ | refine opBranch_to ?_ ?_ | refine opJump_to ?_ ?_ | refine opSys_to ?_ ?_ | refine opVld_to ?_ ?_ | refine opVst_to ?_ ?_ | refine opVgather_to ?_ ?_ | refine opVscatter_to ?_ ?_ | refine opVxfer_to ?_ ?_ | refine opValu_to ?_ ?_ | refine opValuScalar_to ?_ ?_ | refine opVmac_to ?_ ?_ | refine opVrnd_to ?_ ?_ | refine opVperm_to ?_ ?_ | refine opVcmp_to ?_ ?_ | refine opVpred_to ?_ ?_ | refine opVfp_to ?_ ?_ | refine opVred_to ?_ ?_ | refine opFtap_to ?_ ?_ | refine opMxop_to ?_ ?_ | refine opMxsb_to ?_ ?_ | refine opMxstat_to ?_ ?_ | refine opMxsave_to ?_ ?_ | refine opMxrst_to ?_ ?_ | refine opMxcancel_to ?_ ?_) | exact To.sub hT (by decide) | refine To.fst (by assumption) ?_ | refine To.snd (by assumption) ?_ | split)

theorem opRun_to {b : Bun} {k : OpCtx} (hT : T ||| 35184372088830 = T) (hS : To T s0 b.s) :
    To T s0 (opRun k b).s := by
  unfold opRun
  repeat' (first | (with_reducible first | assumption | refine To.ite ?_ ?_ | refine faultWith_to ?_ ?_ | refine opDo_to ?_ ?_) | exact To.sub hT (by decide) | refine To.fst (by assumption) ?_ | refine To.snd (by assumption) ?_ | split)

theorem bun0_to {s : State} (_ : T ||| 0 = T) (hS : To T s0 s) :
    To T s0 (bun0 s).s := by
  unfold bun0
  repeat' (first | (with_reducible first | assumption | refine To.ite ?_ ?_) | exact To.sub hT (by decide) | refine To.fst (by assumption) ?_ | refine To.snd (by assumption) ?_ | split)

theorem countIssue_to {s : State} {c : Nat} (hT : T ||| 2147483664 = T) (hS : To T s0 s) :
    To T s0 (countIssue c s) := by
  unfold countIssue
  try dsimp -proj only
  repeat' (first | (with_reducible first | assumption | refine To.ite ?_ ?_ | refine modCore_to ?_ ?_ | refine incCnt_to ?_ ?_) | exact To.sub hT (by decide) | refine To.fst (by assumption) ?_ | refine To.snd (by assumption) ?_ | split | dsimp -proj only | (intro _; intros))

theorem bundleFault_to {s : State} {c : Nat} {x : CoreSt} {ops : List Staged} {t : TrapInfo} (hT : T ||| 35184372088830 = T) (hS : To T s0 s) :
    To T s0 (bundleFault c x ops t s) := by
  unfold bundleFault
  try dsimp -proj only
  repeat' (first | (with_reducible first | assumption | refine To.ite ?_ ?_ | refine opRun_to ?_ ?_ | refine bun0_to ?_ ?_ | refine mxIssue_to ?_ ?_ | refine takeTrap_to ?_ ?_ | refine countIssue_to ?_ ?_) | exact To.sub hT (by decide) | refine To.fst (by assumption) ?_ | refine To.snd (by assumption) ?_ | split | dsimp -proj only | (intro _; intros))

theorem endTraps_to {s : State} {sync : Bool} {c : Nat} (hT : T ||| 2148737266 = T) (hS : To T s0 s) :
    To T s0 (endTraps sync c s) := by
  unfold endTraps
  try dsimp -proj only
  repeat' (first | (with_reducible first | assumption | refine To.ite ?_ ?_ | refine boundaryTraps_to ?_ ?_ | refine modCore_to ?_ ?_ | refine setCore_to ?_ ?_) | exact To.sub hT (by decide) | refine To.fst (by assumption) ?_ | refine To.snd (by assumption) ?_ | split | dsimp -proj only | (intro _; intros))

theorem bundleEnd_to {b : Bun} {c : Nat} {x : CoreSt} (hT : T ||| 2148737266 = T) (hS : To T s0 b.s) :
    To T s0 (bundleEnd c x b) := by
  unfold bundleEnd
  try dsimp -proj only
  repeat' (first | (with_reducible first | assumption | refine To.ite ?_ ?_ | refine countIssue_to ?_ ?_ | refine modCore_to ?_ ?_ | refine takeTrap_to ?_ ?_ | refine endTraps_to ?_ ?_) | exact To.sub hT (by decide) | refine To.fst (by assumption) ?_ | refine To.snd (by assumption) ?_ | split | dsimp -proj only | (intro _; intros))

theorem stepEnd_to {s : State} {c : Nat} {stepped : Bool} (hT : T ||| 2148737266 = T) (hS : To T s0 s) :
    To T s0 (stepEnd c stepped s) := by
  unfold stepEnd
  try dsimp -proj only
  repeat' (first | (with_reducible first | assumption | refine To.ite ?_ ?_ | refine haltCore_to ?_ ?_ | refine modCore_to ?_ ?_) | exact To.sub hT (by decide) | refine To.fst (by assumption) ?_ | refine To.snd (by assumption) ?_ | split | dsimp -proj only | (intro _; intros))

theorem bufAfter_to {s : State} {c : Nat} {ops : List Staged} (hT : T ||| 2148737266 = T) (hS : To T s0 s) :
    To T s0 (bufAfter c ops s) := by
  unfold bufAfter
  try dsimp -proj only
  repeat' (first | (with_reducible first | assumption | refine To.ite ?_ ?_ | refine drainAll_to ?_ ?_) | exact To.sub hT (by decide) | refine To.fst (by assumption) ?_ | refine To.snd (by assumption) ?_ | split | dsimp -proj only | (intro _; intros))

theorem runBundle_to {s : State} {c : Nat} {ops : List Staged} (hT : T ||| 35184372088830 = T) (hS : To T s0 s) :
    To T s0 (runBundle c ops s) := by
  unfold runBundle
  try dsimp -proj only
  repeat' (first | (with_reducible first | assumption | refine To.ite ?_ ?_ | refine modCore_to ?_ ?_ | refine drainOne_to ?_ ?_ | refine fetchBundle_to ?_ ?_ | refine stepEnd_to ?_ ?_ | refine takeTrap_to ?_ ?_ | refine haltCore_to ?_ ?_ | refine ownErr_to ?_ ?_ | refine bufAfter_to ?_ ?_ | refine opRun_to ?_ ?_ | refine bun0_to ?_ ?_ | refine bundleFault_to ?_ ?_ | refine bundleEnd_to ?_ ?_ | refine To.foldl _ (fun _ _ _ => ?_) ?_ | refine To.foldl_fst _ (fun _ _ _ => ?_) ?_ | refine To.foldlOf Bun.s _ (fun _ _ _ => ?_) ?_ | refine To.foldlOf GsRun.s _ (fun _ _ _ => ?_) ?_) | exact To.sub hT (by decide) | refine To.fst (by assumption) ?_ | refine To.snd (by assumption) ?_ | split | dsimp -proj only | (intro _; intros))

theorem nopBundles_to {y2 : State} {c : Nat} {y1 : Nat} (hT : T ||| 35184372088830 = T) (hS : To T s0 y2) :
    To T s0 (nopBundles c y1 y2) := by
  induction y1 generalizing y2 with
  | zero => exact hS
  | succ _ ih =>
    unfold nopBundles
    try dsimp -proj only
    repeat' (first | (with_reducible first | assumption | refine To.ite ?_ ?_ | refine modCore_to ?_ ?_ | refine runBundle_to ?_ ?_ | refine ih ?_) | exact To.sub hT (by decide) | refine To.fst (by assumption) ?_ | refine To.snd (by assumption) ?_ | split | dsimp -proj only | (intro _; intros))

theorem stallFor_to {s : State} {c : Nat} {n : Nat} (hT : T ||| 2148737266 = T) (hS : To T s0 s) :
    To T s0 (stallFor c n s) := by
  unfold stallFor
  try dsimp -proj only
  repeat' (first | (with_reducible first | assumption | refine To.ite ?_ ?_ | refine drainOne_to ?_ ?_ | refine modCore_to ?_ ?_ | refine addCnt_to ?_ ?_ | refine To.foldl _ (fun _ _ _ => ?_) ?_ | refine To.foldl_fst _ (fun _ _ _ => ?_) ?_) | exact To.sub hT (by decide) | refine To.fst (by assumption) ?_ | refine To.snd (by assumption) ?_ | split | dsimp -proj only | (intro _; intros))

theorem issueSt_to {s : State} {i : Issue} {word : Word} (hT : T ||| 35184372088830 = T) (hS : To T s0 s) :
    To T s0 (issueSt i word s) := by
  unfold issueSt
  try dsimp -proj only
  repeat' (first | (with_reducible first | assumption | refine To.ite ?_ ?_ | refine setCore_to ?_ ?_ | refine nopBundles_to ?_ ?_ | refine dramHold_to ?_ ?_ | refine runBundle_to ?_ ?_ | refine strikeLine_to ?_ ?_ | refine stallFor_to ?_ ?_) | exact To.sub hT (by decide) | refine To.fst (by assumption) ?_ | refine To.snd (by assumption) ?_ | split | dsimp -proj only | (intro _; intros))

end Sys2Proof.Machine
end

