-- ==== Sys2Proof/Laws/ToErdom.lean ====
section
/-! SUPPORT. The frames of the operations and meanings of Erdom: what each may change. -/

namespace Sys2Proof.Machine

variable {T : Nat} {s0 : State}

theorem interruptSt_to {s : State} {c : Nat} {n : Nat} (hT : T ||| 2147483664 = T) (hS : To T s0 s) :
    To T s0 (interruptSt c n s) := by
  unfold interruptSt
  try dsimp -proj only
  repeat' (first | (with_reducible first | assumption | refine To.ite ?_ ?_ | refine incCnt_to ?_ ?_ | refine enterHandler_to ?_ ?_) | exact To.sub hT (by decide) | refine To.fst (by assumption) ?_ | refine To.snd (by assumption) ?_ | split | dsimp -proj only)

theorem asyncWerrSt_to {s : State} {c : Nat} (hT : T ||| 2148737266 = T) (hS : To T s0 s) :
    To T s0 (asyncWerrSt c s) := by
  unfold asyncWerrSt
  try dsimp -proj only
  repeat' (first | (with_reducible first | assumption | refine To.ite ?_ ?_ | refine boundaryTraps_to ?_ ?_) | exact To.sub hT (by decide) | refine To.fst (by assumption) ?_ | refine To.snd (by assumption) ?_ | split | dsimp -proj only)

theorem fireArrivalSt_to {s : State} {c : Nat} {f : FireRec} (hT : T ||| 35184372088830 = T) (hS : To T s0 s) :
    To T s0 (fireArrivalSt c f s) := by
  unfold fireArrivalSt
  try dsimp -proj only
  repeat' (first | (with_reducible first | assumption | refine To.ite ?_ ?_ | refine failFire_to ?_ ?_ | refine takeArrived_to ?_ ?_ | refine placeFire_to ?_ ?_ | refine runBundle_to ?_ ?_) | exact To.sub hT (by decide) | refine To.fst (by assumption) ?_ | refine To.snd (by assumption) ?_ | split | dsimp -proj only)

theorem execAlu_to {s : State} {i : Issue} {w : Word26} (hT : T ||| 35184372088830 = T) (hS : To T s0 s) :
    Out T s0 (execAlu i w s) := by
  unfold execAlu
  repeat' (first | (with_reducible first | assumption | refine To.ite ?_ ?_ | refine issueSt_to ?_ ?_ | refine Out.next ?_) | exact To.sub hT (by decide) | refine To.fst (by assumption) ?_ | refine To.snd (by assumption) ?_ | split)

theorem execAluImmediate_to {s : State} {i : Issue} {w : Word26} (hT : T ||| 35184372088830 = T) (hS : To T s0 s) :
    Out T s0 (execAluImmediate i w s) := by
  unfold execAluImmediate
  repeat' (first | (with_reducible first | assumption | refine To.ite ?_ ?_ | refine issueSt_to ?_ ?_ | refine Out.next ?_) | exact To.sub hT (by decide) | refine To.fst (by assumption) ?_ | refine To.snd (by assumption) ?_ | split)

theorem execMultiply_to {s : State} {i : Issue} {w : Word26} (hT : T ||| 35184372088830 = T) (hS : To T s0 s) :
    Out T s0 (execMultiply i w s) := by
  unfold execMultiply
  repeat' (first | (with_reducible first | assumption | refine To.ite ?_ ?_ | refine issueSt_to ?_ ?_ | refine Out.next ?_) | exact To.sub hT (by decide) | refine To.fst (by assumption) ?_ | refine To.snd (by assumption) ?_ | split)

theorem execScalarLoad_to {s : State} {i : Issue} {w : Word26} (hT : T ||| 35184372088830 = T) (hS : To T s0 s) :
    Out T s0 (execScalarLoad i w s) := by
  unfold execScalarLoad
  repeat' (first | (with_reducible first | assumption | refine To.ite ?_ ?_ | refine issueSt_to ?_ ?_ | refine Out.next ?_) | exact To.sub hT (by decide) | refine To.fst (by assumption) ?_ | refine To.snd (by assumption) ?_ | split)

theorem execScalarStore_to {s : State} {i : Issue} {w : Word26} (hT : T ||| 35184372088830 = T) (hS : To T s0 s) :
    Out T s0 (execScalarStore i w s) := by
  unfold execScalarStore
  repeat' (first | (with_reducible first | assumption | refine To.ite ?_ ?_ | refine issueSt_to ?_ ?_ | refine Out.next ?_) | exact To.sub hT (by decide) | refine To.fst (by assumption) ?_ | refine To.snd (by assumption) ?_ | split)

theorem execAddressArithmetic_to {s : State} {i : Issue} {w : Word26} (hT : T ||| 35184372088830 = T) (hS : To T s0 s) :
    Out T s0 (execAddressArithmetic i w s) := by
  unfold execAddressArithmetic
  repeat' (first | (with_reducible first | assumption | refine To.ite ?_ ?_ | refine issueSt_to ?_ ?_ | refine Out.next ?_) | exact To.sub hT (by decide) | refine To.fst (by assumption) ?_ | refine To.snd (by assumption) ?_ | split)

theorem execLoadUpperImmediate_to {s : State} {i : Issue} {w : Word26} (hT : T ||| 35184372088830 = T) (hS : To T s0 s) :
    Out T s0 (execLoadUpperImmediate i w s) := by
  unfold execLoadUpperImmediate
  repeat' (first | (with_reducible first | assumption | refine To.ite ?_ ?_ | refine issueSt_to ?_ ?_ | refine Out.next ?_) | exact To.sub hT (by decide) | refine To.fst (by assumption) ?_ | refine To.snd (by assumption) ?_ | split)

theorem execConditionalBranch_to {s : State} {i : Issue} {w : Word26} (hT : T ||| 35184372088830 = T) (hS : To T s0 s) :
    Out T s0 (execConditionalBranch i w s) := by
  unfold execConditionalBranch
  repeat' (first | (with_reducible first | assumption | refine To.ite ?_ ?_ | refine issueSt_to ?_ ?_ | refine Out.next ?_) | exact To.sub hT (by decide) | refine To.fst (by assumption) ?_ | refine To.snd (by assumption) ?_ | split)

theorem execJump_to {s : State} {i : Issue} {w : Word26} (hT : T ||| 35184372088830 = T) (hS : To T s0 s) :
    Out T s0 (execJump i w s) := by
  unfold execJump
  repeat' (first | (with_reducible first | assumption | refine To.ite ?_ ?_ | refine issueSt_to ?_ ?_ | refine Out.next ?_) | exact To.sub hT (by decide) | refine To.fst (by assumption) ?_ | refine To.snd (by assumption) ?_ | split)

theorem execTsend_to {s : State} {i : Issue} {w : Word20} (hT : T ||| 35184372088830 = T) (hS : To T s0 s) :
    Out T s0 (execTsend i w s) := by
  unfold execTsend
  repeat' (first | (with_reducible first | assumption | refine To.ite ?_ ?_ | refine issueSt_to ?_ ?_ | refine Out.next ?_) | exact To.sub hT (by decide) | refine To.fst (by assumption) ?_ | refine To.snd (by assumption) ?_ | split)

theorem execTdone_to {s : State} {i : Issue} {w : Word20} (hT : T ||| 35184372088830 = T) (hS : To T s0 s) :
    Out T s0 (execTdone i w s) := by
  unfold execTdone
  repeat' (first | (with_reducible first | assumption | refine To.ite ?_ ?_ | refine issueSt_to ?_ ?_ | refine Out.next ?_) | exact To.sub hT (by decide) | refine To.fst (by assumption) ?_ | refine To.snd (by assumption) ?_ | split)

theorem execFwait_to {s : State} {i : Issue} {w : Word20} (hT : T ||| 35184372088830 = T) (hS : To T s0 s) :
    Out T s0 (execFwait i w s) := by
  unfold execFwait
  repeat' (first | (with_reducible first | assumption | refine To.ite ?_ ?_ | refine issueSt_to ?_ ?_ | refine Out.next ?_) | exact To.sub hT (by decide) | refine To.fst (by assumption) ?_ | refine To.snd (by assumption) ?_ | split)

theorem execFlush_to {s : State} {i : Issue} {w : Word20} (hT : T ||| 35184372088830 = T) (hS : To T s0 s) :
    Out T s0 (execFlush i w s) := by
  unfold execFlush
  repeat' (first | (with_reducible first | assumption | refine To.ite ?_ ?_ | refine issueSt_to ?_ ?_ | refine Out.next ?_) | exact To.sub hT (by decide) | refine To.fst (by assumption) ?_ | refine To.snd (by assumption) ?_ | split)

theorem execInval_to {s : State} {i : Issue} {w : Word20} (hT : T ||| 35184372088830 = T) (hS : To T s0 s) :
    Out T s0 (execInval i w s) := by
  unfold execInval
  repeat' (first | (with_reducible first | assumption | refine To.ite ?_ ?_ | refine issueSt_to ?_ ?_ | refine Out.next ?_) | exact To.sub hT (by decide) | refine To.fst (by assumption) ?_ | refine To.snd (by assumption) ?_ | split)

theorem execFlinv_to {s : State} {i : Issue} {w : Word20} (hT : T ||| 35184372088830 = T) (hS : To T s0 s) :
    Out T s0 (execFlinv i w s) := by
  unfold execFlinv
  repeat' (first | (with_reducible first | assumption | refine To.ite ?_ ?_ | refine issueSt_to ?_ ?_ | refine Out.next ?_) | exact To.sub hT (by decide) | refine To.fst (by assumption) ?_ | refine To.snd (by assumption) ?_ | split)

theorem execFence_to {s : State} {i : Issue} {w : Word20} (hT : T ||| 35184372088830 = T) (hS : To T s0 s) :
    Out T s0 (execFence i w s) := by
  unfold execFence
  repeat' (first | (with_reducible first | assumption | refine To.ite ?_ ?_ | refine issueSt_to ?_ ?_ | refine Out.next ?_) | exact To.sub hT (by decide) | refine To.fst (by assumption) ?_ | refine To.snd (by assumption) ?_ | split)

theorem execIsync_to {s : State} {i : Issue} {w : Word20} (hT : T ||| 35184372088830 = T) (hS : To T s0 s) :
    Out T s0 (execIsync i w s) := by
  unfold execIsync
  repeat' (first | (with_reducible first | assumption | refine To.ite ?_ ?_ | refine issueSt_to ?_ ?_ | refine Out.next ?_) | exact To.sub hT (by decide) | refine To.fst (by assumption) ?_ | refine To.snd (by assumption) ?_ | split)

theorem execMfc_to {s : State} {i : Issue} {w : Word20} (hT : T ||| 35184372088830 = T) (hS : To T s0 s) :
    Out T s0 (execMfc i w s) := by
  unfold execMfc
  repeat' (first | (with_reducible first | assumption | refine To.ite ?_ ?_ | refine issueSt_to ?_ ?_ | refine Out.next ?_) | exact To.sub hT (by decide) | refine To.fst (by assumption) ?_ | refine To.snd (by assumption) ?_ | split)

theorem execMtc_to {s : State} {i : Issue} {w : Word20} (hT : T ||| 35184372088830 = T) (hS : To T s0 s) :
    Out T s0 (execMtc i w s) := by
  unfold execMtc
  repeat' (first | (with_reducible first | assumption | refine To.ite ?_ ?_ | refine issueSt_to ?_ ?_ | refine Out.next ?_) | exact To.sub hT (by decide) | refine To.fst (by assumption) ?_ | refine To.snd (by assumption) ?_ | split)

theorem execRti_to {s : State} {i : Issue} {w : Word20} (hT : T ||| 35184372088830 = T) (hS : To T s0 s) :
    Out T s0 (execRti i w s) := by
  unfold execRti
  repeat' (first | (with_reducible first | assumption | refine To.ite ?_ ?_ | refine issueSt_to ?_ ?_ | refine Out.next ?_) | exact To.sub hT (by decide) | refine To.fst (by assumption) ?_ | refine To.snd (by assumption) ?_ | split)

theorem execIsave_to {s : State} {i : Issue} {w : Word20} (hT : T ||| 35184372088830 = T) (hS : To T s0 s) :
    Out T s0 (execIsave i w s) := by
  unfold execIsave
  repeat' (first | (with_reducible first | assumption | refine To.ite ?_ ?_ | refine issueSt_to ?_ ?_ | refine Out.next ?_) | exact To.sub hT (by decide) | refine To.fst (by assumption) ?_ | refine To.snd (by assumption) ?_ | split)

theorem execIrestore_to {s : State} {i : Issue} {w : Word20} (hT : T ||| 35184372088830 = T) (hS : To T s0 s) :
    Out T s0 (execIrestore i w s) := by
  unfold execIrestore
  repeat' (first | (with_reducible first | assumption | refine To.ite ?_ ?_ | refine issueSt_to ?_ ?_ | refine Out.next ?_) | exact To.sub hT (by decide) | refine To.fst (by assumption) ?_ | refine To.snd (by assumption) ?_ | split)

theorem execTrap_to {s : State} {i : Issue} {w : Word20} (hT : T ||| 35184372088830 = T) (hS : To T s0 s) :
    Out T s0 (execTrap i w s) := by
  unfold execTrap
  repeat' (first | (with_reducible first | assumption | refine To.ite ?_ ?_ | refine issueSt_to ?_ ?_ | refine Out.next ?_) | exact To.sub hT (by decide) | refine To.fst (by assumption) ?_ | refine To.snd (by assumption) ?_ | split)

theorem execWait_to {s : State} {i : Issue} {w : Word20} (hT : T ||| 35184372088830 = T) (hS : To T s0 s) :
    Out T s0 (execWait i w s) := by
  unfold execWait
  repeat' (first | (with_reducible first | assumption | refine To.ite ?_ ?_ | refine issueSt_to ?_ ?_ | refine Out.next ?_) | exact To.sub hT (by decide) | refine To.fst (by assumption) ?_ | refine To.snd (by assumption) ?_ | split)

theorem execInterruptEntry_to {s : State} {c : Fin 152} {n : Fin 32} (hT : T ||| 2147483664 = T) (hS : To T s0 s) :
    Out T s0 (execInterruptEntry c n s) := by
  unfold execInterruptEntry
  repeat' (first | (with_reducible first | assumption | refine To.ite ?_ ?_ | refine interruptSt_to ?_ ?_ | refine Out.next ?_) | exact To.sub hT (by decide) | refine To.fst (by assumption) ?_ | refine To.snd (by assumption) ?_ | split)

theorem execAsyncWerr_to {s : State} {c : Fin 152} (hT : T ||| 2148737266 = T) (hS : To T s0 s) :
    Out T s0 (execAsyncWerr c s) := by
  unfold execAsyncWerr
  repeat' (first | (with_reducible first | assumption | refine To.ite ?_ ?_ | refine asyncWerrSt_to ?_ ?_ | refine Out.next ?_) | exact To.sub hT (by decide) | refine To.fst (by assumption) ?_ | refine To.snd (by assumption) ?_ | split)

theorem execFireRecordArrival_to {s : State} {c : Fin 152} {f : FireRec} (hT : T ||| 35184372088830 = T) (hS : To T s0 s) :
    Out T s0 (execFireRecordArrival c f s) := by
  unfold execFireRecordArrival
  repeat' (first | (with_reducible first | assumption | refine To.ite ?_ ?_ | refine fireArrivalSt_to ?_ ?_ | refine Out.next ?_) | exact To.sub hT (by decide) | refine To.fst (by assumption) ?_ | refine To.snd (by assumption) ?_ | split)

theorem execDbgHaltReq_to {s : State} {a : Acc} {c : Fin 152} (hT : T ||| 2148737266 = T) (hS : To T s0 s) :
    Out T s0 (execDbgHaltReq a c s) := by
  unfold execDbgHaltReq
  repeat' (first | (with_reducible first | assumption | refine To.ite ?_ ?_ | refine toPage_to ?_ ?_ ?_ | refine dbgHaltSt_to ?_ ?_ | refine Out.next ?_) | exact To.sub hT (by decide) | refine To.fst (by assumption) ?_ | refine To.snd (by assumption) ?_ | split | (intro _; intros))

theorem execDbgStep_to {s : State} {a : Acc} {c : Fin 152} (hT : T ||| 2148532242 = T) (hS : To T s0 s) :
    Out T s0 (execDbgStep a c s) := by
  unfold execDbgStep
  repeat' (first | (with_reducible first | assumption | refine To.ite ?_ ?_ | refine toPage_to ?_ ?_ ?_ | refine dbgStepSt_to ?_ ?_ | refine Out.next ?_) | exact To.sub hT (by decide) | refine To.fst (by assumption) ?_ | refine To.snd (by assumption) ?_ | split | (intro _; intros))

end Sys2Proof.Machine
end

