-- ==== Sys2Proof/Laws/ToFirmware.lean ====
section
/-! SUPPORT. The frames of the operations and meanings of Firmware: what each may change. -/

namespace Sys2Proof.Machine

variable {T : Nat} {s0 : State}

theorem setPhy_to {s : State} {phy : Nat} {x : PhySt} (hT : T ||| 2199023255552 = T) (hS : To T s0 s) :
    To T s0 (setPhy s phy x) := by
  unfold setPhy
  repeat' (first | (with_reducible first | assumption | refine To.ite ?_ ?_) | exact To.sub hT (by decide) | refine To.fst (by assumption) ?_ | refine To.snd (by assumption) ?_ | split | with_reducible first | refine To.set_phys ?_ ?_)

theorem phyMessage_to {s : State} {phy : Nat} {pcie : Bool} {ok : PhySt → Bool} {act : State → State} (hT : T ||| 7696582443154 = T) (hS : To T s0 s) (hact : ∀  s, To T s0 s → To T s0 (act  s)) :
    To T s0 (phyMessage phy pcie ok act s) := by
  unfold phyMessage
  repeat' (first | (with_reducible first | assumption | refine To.ite ?_ ?_ | refine hact _ ?_ | refine fapiSend_to ?_ ?_) | exact To.sub hT (by decide) | refine To.fst (by assumption) ?_ | refine To.snd (by assumption) ?_ | split | (intro _; intros))

theorem slotRequest_to {s : State} {kind : Nat} {phy : Nat} {start : Int} (hT : T ||| 7696582443154 = T) (hS : To T s0 s) :
    To T s0 (slotRequest kind phy start s) := by
  unfold slotRequest
  try dsimp -proj only
  repeat' (first | (with_reducible first | assumption | refine To.ite ?_ ?_ | refine fapiSend_to ?_ ?_ | refine setPhy_to ?_ ?_) | exact To.sub hT (by decide) | refine To.fst (by assumption) ?_ | refine To.snd (by assumption) ?_ | split | dsimp -proj only)

theorem stopBegin_to {s : State} {phy : Nat} {lnx : Bool} {offNs : Nat} (hT : T ||| 7696582443154 = T) (hS : To T s0 s) :
    To T s0 (stopBegin phy lnx offNs s) := by
  unfold stopBegin
  repeat' (first | (with_reducible first | assumption | refine To.ite ?_ ?_ | refine phyPoll_to ?_ ?_ | refine setPhy_to ?_ ?_) | exact To.sub hT (by decide) | refine To.fst (by assumption) ?_ | refine To.snd (by assumption) ?_ | split)

theorem execParamRequest_to {s : State} {phy : BitVec 8} {pcie : Bool} (hT : T ||| 7696582443154 = T) (hS : To T s0 s) :
    Out T s0 (execParamRequest phy pcie s) := by
  unfold execParamRequest
  try dsimp -proj only
  repeat' (first | (with_reducible first | assumption | refine To.ite ?_ ?_ | refine phyMessage_to ?_ ?_ ?_ | refine fapiSend_to ?_ ?_ | refine Out.next ?_) | exact To.sub hT (by decide) | refine To.fst (by assumption) ?_ | refine To.snd (by assumption) ?_ | split | dsimp -proj only | (intro _; intros))

theorem execConfigRequest_to {s : State} {phy : BitVec 8} {pcie : Bool} (hT : T ||| 7696582443154 = T) (hS : To T s0 s) :
    Out T s0 (execConfigRequest phy pcie s) := by
  unfold execConfigRequest
  try dsimp -proj only
  repeat' (first | (with_reducible first | assumption | refine To.ite ?_ ?_ | refine phyMessage_to ?_ ?_ ?_ | refine fapiSend_to ?_ ?_ | refine setPhy_to ?_ ?_ | refine Out.next ?_) | exact To.sub hT (by decide) | refine To.fst (by assumption) ?_ | refine To.snd (by assumption) ?_ | split | dsimp -proj only | (intro _; intros))

theorem execStartRequest_to {s : State} {phy : BitVec 8} {pcie : Bool} (hT : T ||| 7696582443154 = T) (hS : To T s0 s) :
    Out T s0 (execStartRequest phy pcie s) := by
  unfold execStartRequest
  try dsimp -proj only
  repeat' (first | (with_reducible first | assumption | refine To.ite ?_ ?_ | refine phyMessage_to ?_ ?_ ?_ | refine setPhy_to ?_ ?_ | refine Out.next ?_) | exact To.sub hT (by decide) | refine To.fst (by assumption) ?_ | refine To.snd (by assumption) ?_ | split | dsimp -proj only | (intro _; intros))

theorem execStopRequest_to {s : State} {phy : BitVec 8} {pcie : Bool} {offNs : Nat} (hT : T ||| 7696582443154 = T) (hS : To T s0 s) :
    Out T s0 (execStopRequest phy pcie offNs s) := by
  unfold execStopRequest
  try dsimp -proj only
  repeat' (first | (with_reducible first | assumption | refine To.ite ?_ ?_ | refine phyMessage_to ?_ ?_ ?_ | refine stopBegin_to ?_ ?_ | refine Out.next ?_) | exact To.sub hT (by decide) | refine To.fst (by assumption) ?_ | refine To.snd (by assumption) ?_ | split | dsimp -proj only | (intro _; intros))

theorem execDlTtiRequest_to {s : State} {phy : BitVec 8} {pcie : Bool} {start : Int} (hT : T ||| 7696582443154 = T) (hS : To T s0 s) :
    Out T s0 (execDlTtiRequest phy pcie start s) := by
  unfold execDlTtiRequest
  try dsimp -proj only
  repeat' (first | (with_reducible first | assumption | refine To.ite ?_ ?_ | refine phyMessage_to ?_ ?_ ?_ | refine slotRequest_to ?_ ?_ | refine Out.next ?_) | exact To.sub hT (by decide) | refine To.fst (by assumption) ?_ | refine To.snd (by assumption) ?_ | split | dsimp -proj only | (intro _; intros))

theorem execUlTtiRequest_to {s : State} {phy : BitVec 8} {pcie : Bool} {start : Int} (hT : T ||| 7696582443154 = T) (hS : To T s0 s) :
    Out T s0 (execUlTtiRequest phy pcie start s) := by
  unfold execUlTtiRequest
  try dsimp -proj only
  repeat' (first | (with_reducible first | assumption | refine To.ite ?_ ?_ | refine phyMessage_to ?_ ?_ ?_ | refine slotRequest_to ?_ ?_ | refine Out.next ?_) | exact To.sub hT (by decide) | refine To.fst (by assumption) ?_ | refine To.snd (by assumption) ?_ | split | dsimp -proj only | (intro _; intros))

theorem execUlDciRequest_to {s : State} {phy : BitVec 8} {pcie : Bool} {start : Int} (hT : T ||| 7696582443154 = T) (hS : To T s0 s) :
    Out T s0 (execUlDciRequest phy pcie start s) := by
  unfold execUlDciRequest
  try dsimp -proj only
  repeat' (first | (with_reducible first | assumption | refine To.ite ?_ ?_ | refine phyMessage_to ?_ ?_ ?_ | refine slotRequest_to ?_ ?_ | refine Out.next ?_) | exact To.sub hT (by decide) | refine To.fst (by assumption) ?_ | refine To.snd (by assumption) ?_ | split | dsimp -proj only | (intro _; intros))

theorem execTxDataRequest_to {s : State} {phy : BitVec 8} {pcie : Bool} {start : Int} (hT : T ||| 7696582443154 = T) (hS : To T s0 s) :
    Out T s0 (execTxDataRequest phy pcie start s) := by
  unfold execTxDataRequest
  try dsimp -proj only
  repeat' (first | (with_reducible first | assumption | refine To.ite ?_ ?_ | refine phyMessage_to ?_ ?_ ?_ | refine slotRequest_to ?_ ?_ | refine Out.next ?_) | exact To.sub hT (by decide) | refine To.fst (by assumption) ?_ | refine To.snd (by assumption) ?_ | split | dsimp -proj only | (intro _; intros))

theorem execLnxStopRequest_to {s : State} {phy : BitVec 8} {pcie : Bool} {offNs : Nat} (hT : T ||| 7696582443154 = T) (hS : To T s0 s) :
    Out T s0 (execLnxStopRequest phy pcie offNs s) := by
  unfold execLnxStopRequest
  try dsimp -proj only
  repeat' (first | (with_reducible first | assumption | refine To.ite ?_ ?_ | refine phyMessage_to ?_ ?_ ?_ | refine stopBegin_to ?_ ?_ | refine Out.next ?_) | exact To.sub hT (by decide) | refine To.fst (by assumption) ?_ | refine To.snd (by assumption) ?_ | split | dsimp -proj only | (intro _; intros))

theorem execLnxStatsRequest_to {s : State} {phy : BitVec 8} {pcie : Bool} (hT : T ||| 7696582443154 = T) (hS : To T s0 s) :
    Out T s0 (execLnxStatsRequest phy pcie s) := by
  unfold execLnxStatsRequest
  try dsimp -proj only
  repeat' (first | (with_reducible first | assumption | refine To.ite ?_ ?_ | refine phyMessage_to ?_ ?_ ?_ | refine setPhy_to ?_ ?_ | refine Out.next ?_) | exact To.sub hT (by decide) | refine To.fst (by assumption) ?_ | refine To.snd (by assumption) ?_ | split | dsimp -proj only | (intro _; intros))

theorem execSlotIndication_to {s : State} {phy : BitVec 8} {start : Int} (hT : T ||| 7696582443154 = T) (hS : To T s0 s) :
    Out T s0 (execSlotIndication phy start s) := by
  unfold execSlotIndication
  try dsimp -proj only
  repeat' (first | (with_reducible first | assumption | refine To.ite ?_ ?_ | refine fapiSend_to ?_ ?_ | refine Out.next ?_) | exact To.sub hT (by decide) | refine To.fst (by assumption) ?_ | refine To.snd (by assumption) ?_ | split | dsimp -proj only)

theorem statsAnswers_to {s : State} {seq : Nat} (hT : T ||| 7696582443154 = T) (hS : To T s0 s) :
    To T s0 (statsAnswers seq s) := by
  unfold statsAnswers
  try dsimp -proj only
  repeat' (first | (with_reducible first | assumption | refine To.ite ?_ ?_ | refine fapiSend_to ?_ ?_ | refine setPhy_to ?_ ?_ | refine To.foldl _ (fun _ _ _ => ?_) ?_ | refine To.foldl_fst _ (fun _ _ _ => ?_) ?_) | exact To.sub hT (by decide) | refine To.fst (by assumption) ?_ | refine To.snd (by assumption) ?_ | split | dsimp -proj only | (intro _; intros))

theorem stopTimeoutSt_to {s : State} {phy : Nat} (hT : T ||| 35184367624446 = T) (hS : To T s0 s) :
    To T s0 (stopTimeoutSt phy s) := by
  unfold stopTimeoutSt
  try dsimp -proj only
  repeat' (first | (with_reducible first | assumption | refine To.ite ?_ ?_ | refine softResetSt_to ?_ ?_ | refine setInst_to ?_ ?_ | refine modDisp_to ?_ ?_ | refine phyStopped_to ?_ ?_ | refine To.foldl _ (fun _ _ _ => ?_) ?_ | refine To.foldl_fst _ (fun _ _ _ => ?_) ?_) | exact To.sub hT (by decide) | refine To.fst (by assumption) ?_ | refine To.snd (by assumption) ?_ | split | dsimp -proj only | (intro _; intros))

theorem execStopTimeout_to {s : State} {phy : BitVec 8} (hT : T ||| 35184367624446 = T) (hS : To T s0 s) :
    Out T s0 (execStopTimeout phy s) := by
  unfold execStopTimeout
  repeat' (first | (with_reducible first | assumption | refine To.ite ?_ ?_ | refine stopTimeoutSt_to ?_ ?_ | refine Out.next ?_) | exact To.sub hT (by decide) | refine To.fst (by assumption) ?_ | refine To.snd (by assumption) ?_ | split)

end Sys2Proof.Machine
end

