-- ==== Sys2Proof/Laws/ToPages.lean ====
section
/-! SUPPORT. The frames of the operations and meanings of Pages: what each may change. -/

namespace Sys2Proof.Machine

variable {T : Nat} {s0 : State}

theorem snapPage_to {s : State} {q : Nat} {p : Nat} (hT : T ||| 2 = T) (hS : To T s0 s) :
    To T s0 (snapPage q s p) := by
  unfold snapPage
  try dsimp -proj only
  repeat' (first | (with_reducible first | assumption | refine To.ite ?_ ?_ | refine setReg_to ?_ ?_ | refine To.foldl _ (fun _ _ _ => ?_) ?_ | refine To.foldl_fst _ (fun _ _ _ => ?_) ?_) | exact To.sub hT (by decide) | refine To.fst (by assumption) ?_ | refine To.snd (by assumption) ?_ | split | dsimp -proj only | (intro _; intros))

theorem snapCopySt_to {s : State} (hT : T ||| 16386 = T) (hS : To T s0 s) :
    To T s0 (snapCopySt s) := by
  unfold snapCopySt
  try dsimp -proj only
  repeat' (first | (with_reducible first | assumption | refine To.ite ?_ ?_ | refine modTime_to ?_ ?_ | refine snapPage_to ?_ ?_ | refine tmSnap_to ?_ ?_ | refine To.foldl _ (fun _ _ _ => ?_) ?_ | refine To.foldl_fst _ (fun _ _ _ => ?_) ?_) | exact To.sub hT (by decide) | refine To.fst (by assumption) ?_ | refine To.snd (by assumption) ?_ | split | dsimp -proj only | (intro _; intros))

theorem snapSeqSt_to {s : State} (hT : T ||| 7696582459538 = T) (hS : To T s0 s) :
    To T s0 (snapSeqSt s) := by
  unfold snapSeqSt
  try dsimp -proj only
  repeat' (first | (with_reducible first | assumption | refine To.ite ?_ ?_ | refine modTime_to ?_ ?_ | refine statsAnswers_to ?_ ?_ | refine setReg_to ?_ ?_) | exact To.sub hT (by decide) | refine To.fst (by assumption) ?_ | refine To.snd (by assumption) ?_ | split | dsimp -proj only | (intro _; intros))

theorem execRegWrite_to {s : State} {a : Acc} {p : Fin 1024} {r : Fin 1024} {w : WriteVal} (hT : T ||| 35184372088830 = T) (hS : To T s0 s) :
    Out T s0 (execRegWrite a p r w s) := by
  unfold execRegWrite
  repeat' (first | (with_reducible first | assumption | refine To.ite ?_ ?_ | refine coincide_to ?_ ?_ | refine regWriteSt_to ?_ ?_ | refine Out.next ?_) | exact To.sub hT (by decide) | refine To.fst (by assumption) ?_ | refine To.snd (by assumption) ?_ | split)

theorem execRcRead_to {s : State} {a : Acc} {p : Fin 1024} {r : ReadReg} (hT : T ||| 1050646 = T) (hS : To T s0 s) :
    Out T s0 (execRcRead a p r s) := by
  unfold execRcRead
  repeat' (first | (with_reducible first | assumption | refine To.ite ?_ ?_ | refine rcCoincide_to ?_ ?_ | refine regReadSt_to ?_ ?_ | refine Out.next ?_) | exact To.sub hT (by decide) | refine To.fst (by assumption) ?_ | refine To.snd (by assumption) ?_ | split)

theorem execLoRead_to {s : State} {a : Acc} {p : Fin 1024} {r : Fin 1024} (hT : T ||| 1050646 = T) (hS : To T s0 s) :
    Out T s0 (execLoRead a p r s) := by
  unfold execLoRead
  repeat' (first | (with_reducible first | assumption | refine To.ite ?_ ?_ | refine regReadSt_to ?_ ?_ | refine Out.next ?_) | exact To.sub hT (by decide) | refine To.fst (by assumption) ?_ | refine To.snd (by assumption) ?_ | split)

theorem execLoWrite_to {s : State} {a : Acc} {p : Fin 1024} {r : Fin 1024} {v : Word} (hT : T ||| 35184372088830 = T) (hS : To T s0 s) :
    Out T s0 (execLoWrite a p r v s) := by
  unfold execLoWrite
  repeat' (first | (with_reducible first | assumption | refine To.ite ?_ ?_ | refine regWriteSt_to ?_ ?_ | refine Out.next ?_) | exact To.sub hT (by decide) | refine To.fst (by assumption) ?_ | refine To.snd (by assumption) ?_ | split)

theorem execHiWrite_to {s : State} {a : Acc} {p : Fin 1024} {r : Fin 1024} {v : Word} (hT : T ||| 35184372088830 = T) (hS : To T s0 s) :
    Out T s0 (execHiWrite a p r v s) := by
  unfold execHiWrite
  repeat' (first | (with_reducible first | assumption | refine To.ite ?_ ?_ | refine regWriteSt_to ?_ ?_ | refine Out.next ?_) | exact To.sub hT (by decide) | refine To.fst (by assumption) ?_ | refine To.snd (by assumption) ?_ | split)

theorem execCtrlEnableSet_to {s : State} {a : Acc} {p : Fin 512} (hT : T ||| 208611213426 = T) (hS : To T s0 s) :
    Out T s0 (execCtrlEnableSet a p s) := by
  unfold execCtrlEnableSet
  repeat' (first | (with_reducible first | assumption | refine To.ite ?_ ?_ | refine toPage_to ?_ ?_ ?_ | refine enableSt_to ?_ ?_ | refine Out.next ?_) | exact To.sub hT (by decide) | refine To.fst (by assumption) ?_ | refine To.snd (by assumption) ?_ | split | (intro _; intros))

theorem execCtrlEnableClear_to {s : State} {a : Acc} {p : Fin 512} (hT : T ||| 226294472946 = T) (hS : To T s0 s) :
    Out T s0 (execCtrlEnableClear a p s) := by
  unfold execCtrlEnableClear
  repeat' (first | (with_reducible first | assumption | refine To.ite ?_ ?_ | refine toPage_to ?_ ?_ ?_ | refine disableSt_to ?_ ?_ | refine Out.next ?_) | exact To.sub hT (by decide) | refine To.fst (by assumption) ?_ | refine To.snd (by assumption) ?_ | split | (intro _; intros))

theorem execSoftReset_to {s : State} {a : Acc} {p : Fin 512} (hT : T ||| 28587297857790 = T) (hS : To T s0 s) :
    Out T s0 (execSoftReset a p s) := by
  unfold execSoftReset
  repeat' (first | (with_reducible first | assumption | refine To.ite ?_ ?_ | refine toPage_to ?_ ?_ ?_ | refine softResetSt_to ?_ ?_ | refine Out.next ?_) | exact To.sub hT (by decide) | refine To.fst (by assumption) ?_ | refine To.snd (by assumption) ?_ | split | (intro _; intros))

theorem execSoftResetDone_to {s : State} {p : Fin 512} (hT : T ||| 28587297857790 = T) (hS : To T s0 s) :
    Out T s0 (execSoftResetDone p s) := by
  unfold execSoftResetDone
  repeat' (first | (with_reducible first | assumption | refine To.ite ?_ ?_ | refine softDoneSt_to ?_ ?_ | refine Out.next ?_) | exact To.sub hT (by decide) | refine To.fst (by assumption) ?_ | refine To.snd (by assumption) ?_ | split)

theorem execCeLeak_to {s : State} (hT : T ||| 8194 = T) (hS : To T s0 s) :
    Out T s0 (execCeLeak s) := by
  unfold execCeLeak
  repeat' (first | (with_reducible first | assumption | refine To.ite ?_ ?_ | refine leakSt_to ?_ ?_ | refine Out.next ?_) | exact To.sub hT (by decide) | refine To.fst (by assumption) ?_ | refine To.snd (by assumption) ?_ | split)

theorem execSnapshotCopy_to {s : State} (hT : T ||| 16386 = T) (hS : To T s0 s) :
    Out T s0 (execSnapshotCopy s) := by
  unfold execSnapshotCopy
  repeat' (first | (with_reducible first | assumption | refine To.ite ?_ ?_ | refine snapCopySt_to ?_ ?_ | refine Out.next ?_) | exact To.sub hT (by decide) | refine To.fst (by assumption) ?_ | refine To.snd (by assumption) ?_ | split)

theorem execSnapSeqUpdate_to {s : State} (hT : T ||| 7696582459538 = T) (hS : To T s0 s) :
    Out T s0 (execSnapSeqUpdate s) := by
  unfold execSnapSeqUpdate
  repeat' (first | (with_reducible first | assumption | refine To.ite ?_ ?_ | refine snapSeqSt_to ?_ ?_ | refine Out.next ?_) | exact To.sub hT (by decide) | refine To.fst (by assumption) ?_ | refine To.snd (by assumption) ?_ | split)

end Sys2Proof.Machine
end

