-- ==== Sys2Proof/Laws/ToSamples.lean ====
section
/-! SUPPORT. The frames of the operations and meanings of Samples: what each may change. -/

namespace Sys2Proof.Machine

variable {T : Nat} {s0 : State}

theorem countSat_to {s : State} {k : Nat} {c : Nat} {rx : Bool} {n : Nat} (hT : T ||| 18 = T) (hS : To T s0 s) :
    To T s0 (countSat k c rx n s) := by
  unfold countSat
  try dsimp -proj only
  repeat' (first | (with_reducible first | assumption | refine To.ite ?_ ?_ | refine setCh_to ?_ ?_ | refine setEvt_to ?_ ?_ | refine addCnt_to ?_ ?_) | exact To.sub hT (by decide) | refine To.fst (by assumption) ?_ | refine To.snd (by assumption) ?_ | split | dsimp -proj only)

theorem rxChain_to {s : State} {k : Nat} {c : Nat} {i : Nat} (hT : T ||| 8388626 = T) (hS : To T s0 s) :
    To T s0 (rxChain k c i s) := by
  unfold rxChain
  try dsimp -proj only
  repeat' (first | (with_reducible first | assumption | refine To.ite ?_ ?_ | refine countSat_to ?_ ?_ | refine setChain_to ?_ ?_) | exact To.sub hT (by decide) | refine To.fst (by assumption) ?_ | refine To.snd (by assumption) ?_ | split | dsimp -proj only)

theorem txChain_to {s : State} {k : Nat} {c : Nat} {i : Nat} (hT : T ||| 8388626 = T) (hS : To T s0 s) :
    To T s0 (txChain k c i s) := by
  unfold txChain
  try dsimp -proj only
  repeat' (first | (with_reducible first | assumption | refine To.ite ?_ ?_ | refine setEvt_to ?_ ?_ | refine addCnt_to ?_ ?_ | refine countSat_to ?_ ?_ | refine setChain_to ?_ ?_) | exact To.sub hT (by decide) | refine To.fst (by assumption) ?_ | refine To.snd (by assumption) ?_ | split | dsimp -proj only)

theorem mirrorChain_to {s : State} {k : Nat} {m : Nat} (hT : T ||| 8388626 = T) (hS : To T s0 s) :
    To T s0 (mirrorChain k m s) := by
  unfold mirrorChain
  try dsimp -proj only
  repeat' (first | (with_reducible first | assumption | refine To.ite ?_ ?_ | refine rxChain_to ?_ ?_ | refine txChain_to ?_ ?_ | refine setChain_to ?_ ?_) | exact To.sub hT (by decide) | refine To.fst (by assumption) ?_ | refine To.snd (by assumption) ?_ | split | dsimp -proj only)

theorem execMirrorSwitch_to {s : State} {k : Fin 4} {m : Fin 4} (hT : T ||| 33554432 = T) (hS : To T s0 s) :
    Out T s0 (execMirrorSwitch k m s) := by
  unfold execMirrorSwitch
  try dsimp -proj only
  repeat' (first | (with_reducible first | assumption | refine To.ite ?_ ?_ | refine modDfe_to ?_ ?_ | refine Out.next ?_) | exact To.sub hT (by decide) | refine To.fst (by assumption) ?_ | refine To.snd (by assumption) ?_ | split | dsimp -proj only | (intro _; intros))

theorem frameTick_to {s : State} {q : Nat} (hT : T ||| 2097152 = T) (hS : To T s0 s) :
    To T s0 (frameTick q s) := by
  unfold frameTick
  try dsimp -proj only
  repeat' (first | (with_reducible first | assumption | refine To.ite ?_ ?_ | refine setLink_to ?_ ?_) | exact To.sub hT (by decide) | refine To.fst (by assumption) ?_ | refine To.snd (by assumption) ?_ | split | dsimp -proj only | (intro _; intros))

theorem releaseTick_to {s : State} {q : Nat} (hT : T ||| 2097154 = T) (hS : To T s0 s) :
    To T s0 (releaseTick q s) := by
  unfold releaseTick
  try dsimp -proj only
  repeat' (first | (with_reducible first | assumption | refine To.ite ?_ ?_ | refine releaseEb_to ?_ ?_) | exact To.sub hT (by decide) | refine To.fst (by assumption) ?_ | refine To.snd (by assumption) ?_ | split | dsimp -proj only)

theorem gainTick_to {s : State} {q : Nat} (hT : T ||| 33554432 = T) (hS : To T s0 s) :
    To T s0 (gainTick q s) := by
  unfold gainTick
  try dsimp -proj only
  repeat' (first | (with_reducible first | assumption | refine To.ite ?_ ?_ | refine modDfe_to ?_ ?_ | refine To.foldl _ (fun _ _ _ => ?_) ?_ | refine To.foldl_fst _ (fun _ _ _ => ?_) ?_) | exact To.sub hT (by decide) | refine To.fst (by assumption) ?_ | refine To.snd (by assumption) ?_ | split | dsimp -proj only | (intro _; intros))

theorem laneTick_to {s : State} {k : Nat} (hT : T ||| 312475666 = T) (hS : To T s0 s) :
    To T s0 (laneTick k s) := by
  unfold laneTick
  try dsimp -proj only
  repeat' (first | (with_reducible first | assumption | refine To.ite ?_ ?_ | refine releaseTick_to ?_ ?_ | refine gainTick_to ?_ ?_ | refine rxChain_to ?_ ?_ | refine txChain_to ?_ ?_ | refine mirrorChain_to ?_ ?_ | refine frameTick_to ?_ ?_ | refine prismTick_to ?_ ?_ | refine To.foldl _ (fun _ _ _ => ?_) ?_ | refine To.foldl_fst _ (fun _ _ _ => ?_) ?_) | exact To.sub hT (by decide) | refine To.fst (by assumption) ?_ | refine To.snd (by assumption) ?_ | split | dsimp -proj only | (intro _; intros))

theorem sampleTick_to {s : State} (hT : T ||| 380772434 = T) (hS : To T s0 s) :
    To T s0 (sampleTick s) := by
  unfold sampleTick
  try dsimp -proj only
  repeat' (first | (with_reducible first | assumption | refine To.ite ?_ ?_ | refine ofdmTick_to ?_ ?_ | refine laneTick_to ?_ ?_ | refine To.foldl _ (fun _ _ _ => ?_) ?_ | refine To.foldl_fst _ (fun _ _ _ => ?_) ?_) | exact To.sub hT (by decide) | refine To.fst (by assumption) ?_ | refine To.snd (by assumption) ?_ | split | dsimp -proj only | (intro _; intros))

end Sys2Proof.Machine
end

