-- ==== Sys2Proof/Laws/ToVector.lean ====
section
/-! SUPPORT. The frames of the operations and meanings of Vector: what each may change. -/

namespace Sys2Proof.Machine

variable {T : Nat} {s0 : State}

theorem execVld_to {s : State} {i : Issue} {w : Word26} (hT : T ||| 35184372088830 = T) (hS : To T s0 s) :
    Out T s0 (execVld i w s) := by
  unfold execVld
  repeat' (first | (with_reducible first | assumption | refine To.ite ?_ ?_ | refine issueSt_to ?_ ?_ | refine Out.next ?_) | exact To.sub hT (by decide) | refine To.fst (by assumption) ?_ | refine To.snd (by assumption) ?_ | split)

theorem execVst_to {s : State} {i : Issue} {w : Word26} (hT : T ||| 35184372088830 = T) (hS : To T s0 s) :
    Out T s0 (execVst i w s) := by
  unfold execVst
  repeat' (first | (with_reducible first | assumption | refine To.ite ?_ ?_ | refine issueSt_to ?_ ?_ | refine Out.next ?_) | exact To.sub hT (by decide) | refine To.fst (by assumption) ?_ | refine To.snd (by assumption) ?_ | split)

theorem execVgather_to {s : State} {i : Issue} {w : Word26} (hT : T ||| 35184372088830 = T) (hS : To T s0 s) :
    Out T s0 (execVgather i w s) := by
  unfold execVgather
  repeat' (first | (with_reducible first | assumption | refine To.ite ?_ ?_ | refine issueSt_to ?_ ?_ | refine Out.next ?_) | exact To.sub hT (by decide) | refine To.fst (by assumption) ?_ | refine To.snd (by assumption) ?_ | split)

theorem execVscatter_to {s : State} {i : Issue} {w : Word26} (hT : T ||| 35184372088830 = T) (hS : To T s0 s) :
    Out T s0 (execVscatter i w s) := by
  unfold execVscatter
  repeat' (first | (with_reducible first | assumption | refine To.ite ?_ ?_ | refine issueSt_to ?_ ?_ | refine Out.next ?_) | exact To.sub hT (by decide) | refine To.fst (by assumption) ?_ | refine To.snd (by assumption) ?_ | split)

theorem execVxfer_to {s : State} {i : Issue} {w : Word26} (hT : T ||| 35184372088830 = T) (hS : To T s0 s) :
    Out T s0 (execVxfer i w s) := by
  unfold execVxfer
  repeat' (first | (with_reducible first | assumption | refine To.ite ?_ ?_ | refine issueSt_to ?_ ?_ | refine Out.next ?_) | exact To.sub hT (by decide) | refine To.fst (by assumption) ?_ | refine To.snd (by assumption) ?_ | split)

theorem execValu_to {s : State} {i : Issue} {w : Word26} (hT : T ||| 35184372088830 = T) (hS : To T s0 s) :
    Out T s0 (execValu i w s) := by
  unfold execValu
  repeat' (first | (with_reducible first | assumption | refine To.ite ?_ ?_ | refine issueSt_to ?_ ?_ | refine Out.next ?_) | exact To.sub hT (by decide) | refine To.fst (by assumption) ?_ | refine To.snd (by assumption) ?_ | split)

theorem execValuScalar_to {s : State} {i : Issue} {w : Word26} (hT : T ||| 35184372088830 = T) (hS : To T s0 s) :
    Out T s0 (execValuScalar i w s) := by
  unfold execValuScalar
  repeat' (first | (with_reducible first | assumption | refine To.ite ?_ ?_ | refine issueSt_to ?_ ?_ | refine Out.next ?_) | exact To.sub hT (by decide) | refine To.fst (by assumption) ?_ | refine To.snd (by assumption) ?_ | split)

theorem execVmac_to {s : State} {i : Issue} {w : Word26} (hT : T ||| 35184372088830 = T) (hS : To T s0 s) :
    Out T s0 (execVmac i w s) := by
  unfold execVmac
  repeat' (first | (with_reducible first | assumption | refine To.ite ?_ ?_ | refine issueSt_to ?_ ?_ | refine Out.next ?_) | exact To.sub hT (by decide) | refine To.fst (by assumption) ?_ | refine To.snd (by assumption) ?_ | split)

theorem execVrnd_to {s : State} {i : Issue} {w : Word26} (hT : T ||| 35184372088830 = T) (hS : To T s0 s) :
    Out T s0 (execVrnd i w s) := by
  unfold execVrnd
  repeat' (first | (with_reducible first | assumption | refine To.ite ?_ ?_ | refine issueSt_to ?_ ?_ | refine Out.next ?_) | exact To.sub hT (by decide) | refine To.fst (by assumption) ?_ | refine To.snd (by assumption) ?_ | split)

theorem execVperm_to {s : State} {i : Issue} {w : Word26} (hT : T ||| 35184372088830 = T) (hS : To T s0 s) :
    Out T s0 (execVperm i w s) := by
  unfold execVperm
  repeat' (first | (with_reducible first | assumption | refine To.ite ?_ ?_ | refine issueSt_to ?_ ?_ | refine Out.next ?_) | exact To.sub hT (by decide) | refine To.fst (by assumption) ?_ | refine To.snd (by assumption) ?_ | split)

theorem execVcmp_to {s : State} {i : Issue} {w : Word26} (hT : T ||| 35184372088830 = T) (hS : To T s0 s) :
    Out T s0 (execVcmp i w s) := by
  unfold execVcmp
  repeat' (first | (with_reducible first | assumption | refine To.ite ?_ ?_ | refine issueSt_to ?_ ?_ | refine Out.next ?_) | exact To.sub hT (by decide) | refine To.fst (by assumption) ?_ | refine To.snd (by assumption) ?_ | split)

theorem execVpred_to {s : State} {i : Issue} {w : Word26} (hT : T ||| 35184372088830 = T) (hS : To T s0 s) :
    Out T s0 (execVpred i w s) := by
  unfold execVpred
  repeat' (first | (with_reducible first | assumption | refine To.ite ?_ ?_ | refine issueSt_to ?_ ?_ | refine Out.next ?_) | exact To.sub hT (by decide) | refine To.fst (by assumption) ?_ | refine To.snd (by assumption) ?_ | split)

theorem execVfp_to {s : State} {i : Issue} {w : Word26} (hT : T ||| 35184372088830 = T) (hS : To T s0 s) :
    Out T s0 (execVfp i w s) := by
  unfold execVfp
  repeat' (first | (with_reducible first | assumption | refine To.ite ?_ ?_ | refine issueSt_to ?_ ?_ | refine Out.next ?_) | exact To.sub hT (by decide) | refine To.fst (by assumption) ?_ | refine To.snd (by assumption) ?_ | split)

theorem execVred_to {s : State} {i : Issue} {w : Word26} (hT : T ||| 35184372088830 = T) (hS : To T s0 s) :
    Out T s0 (execVred i w s) := by
  unfold execVred
  repeat' (first | (with_reducible first | assumption | refine To.ite ?_ ?_ | refine issueSt_to ?_ ?_ | refine Out.next ?_) | exact To.sub hT (by decide) | refine To.fst (by assumption) ?_ | refine To.snd (by assumption) ?_ | split)

theorem execFtap_to {s : State} {i : Issue} {w : Word26} (hT : T ||| 35184372088830 = T) (hS : To T s0 s) :
    Out T s0 (execFtap i w s) := by
  unfold execFtap
  repeat' (first | (with_reducible first | assumption | refine To.ite ?_ ?_ | refine issueSt_to ?_ ?_ | refine Out.next ?_) | exact To.sub hT (by decide) | refine To.fst (by assumption) ?_ | refine To.snd (by assumption) ?_ | split)

theorem execMxop_to {s : State} {i : Issue} {w : Word26} (hT : T ||| 35184372088830 = T) (hS : To T s0 s) :
    Out T s0 (execMxop i w s) := by
  unfold execMxop
  repeat' (first | (with_reducible first | assumption | refine To.ite ?_ ?_ | refine issueSt_to ?_ ?_ | refine Out.next ?_) | exact To.sub hT (by decide) | refine To.fst (by assumption) ?_ | refine To.snd (by assumption) ?_ | split)

theorem execMxsb_to {s : State} {i : Issue} {w : Word26} (hT : T ||| 35184372088830 = T) (hS : To T s0 s) :
    Out T s0 (execMxsb i w s) := by
  unfold execMxsb
  repeat' (first | (with_reducible first | assumption | refine To.ite ?_ ?_ | refine issueSt_to ?_ ?_ | refine Out.next ?_) | exact To.sub hT (by decide) | refine To.fst (by assumption) ?_ | refine To.snd (by assumption) ?_ | split)

theorem execMxstat_to {s : State} {i : Issue} {w : Word26} (hT : T ||| 35184372088830 = T) (hS : To T s0 s) :
    Out T s0 (execMxstat i w s) := by
  unfold execMxstat
  repeat' (first | (with_reducible first | assumption | refine To.ite ?_ ?_ | refine issueSt_to ?_ ?_ | refine Out.next ?_) | exact To.sub hT (by decide) | refine To.fst (by assumption) ?_ | refine To.snd (by assumption) ?_ | split)

theorem execMxsave_to {s : State} {i : Issue} {w : Word26} (hT : T ||| 35184372088830 = T) (hS : To T s0 s) :
    Out T s0 (execMxsave i w s) := by
  unfold execMxsave
  repeat' (first | (with_reducible first | assumption | refine To.ite ?_ ?_ | refine issueSt_to ?_ ?_ | refine Out.next ?_) | exact To.sub hT (by decide) | refine To.fst (by assumption) ?_ | refine To.snd (by assumption) ?_ | split)

theorem execMxrst_to {s : State} {i : Issue} {w : Word26} (hT : T ||| 35184372088830 = T) (hS : To T s0 s) :
    Out T s0 (execMxrst i w s) := by
  unfold execMxrst
  repeat' (first | (with_reducible first | assumption | refine To.ite ?_ ?_ | refine issueSt_to ?_ ?_ | refine Out.next ?_) | exact To.sub hT (by decide) | refine To.fst (by assumption) ?_ | refine To.snd (by assumption) ?_ | split)

theorem execMxcancel_to {s : State} {i : Issue} {w : Word26} (hT : T ||| 35184372088830 = T) (hS : To T s0 s) :
    Out T s0 (execMxcancel i w s) := by
  unfold execMxcancel
  repeat' (first | (with_reducible first | assumption | refine To.ite ?_ ?_ | refine issueSt_to ?_ ?_ | refine Out.next ?_) | exact To.sub hT (by decide) | refine To.fst (by assumption) ?_ | refine To.snd (by assumption) ?_ | split)

end Sys2Proof.Machine
end

