-- ==== Sys2Proof/Laws/ToExec.lean ====
section
/-! SUPPORT. The frame of every command: exec changes no part of the state outside the command's footprint. -/

namespace Sys2Proof.Machine

/-- Every footprint is a set of parts of the state but the queue. -/
theorem footprint_or (i : Instr) : footprint i ||| 35184372088830 = 35184372088830 := by
  cases i <;> (dsimp only [footprint]; rfl)

/-- The queue is in no footprint. -/
theorem footprint_pending (i : Instr) : (footprint i).testBit 0 = false := by
  have h := congrArg (fun n => Nat.testBit n 0) (footprint_or i)
  simp only [Nat.testBit_or] at h
  exact (Bool.or_eq_false_iff.mp (h.trans (by decide))).1

/-- What exec may change. -/
theorem exec_to (i : Instr) {s0 s : State} (hS : To (footprint i) s0 s) : Out (footprint i) s0 (exec i s) := by
  cases i with
  | regWrite => exact execRegWrite_to (Nat.or_self _) hS
  | rcRead => exact execRcRead_to (Nat.or_self _) hS
  | loRead => exact execLoRead_to (Nat.or_self _) hS
  | loWrite => exact execLoWrite_to (Nat.or_self _) hS
  | hiWrite => exact execHiWrite_to (Nat.or_self _) hS
  | ctrlEnableSet => exact execCtrlEnableSet_to (Nat.or_self _) hS
  | ctrlEnableClear => exact execCtrlEnableClear_to (Nat.or_self _) hS
  | softReset => exact execSoftReset_to (Nat.or_self _) hS
  | softResetDone => exact execSoftResetDone_to (Nat.or_self _) hS
  | ceLeak => exact execCeLeak_to (Nat.or_self _) hS
  | snapshotCopy => exact execSnapshotCopy_to (Nat.or_self _) hS
  | snapSeqUpdate => exact execSnapSeqUpdate_to (Nat.or_self _) hS
  | dispTemplateLoadDone => exact execDispTemplateLoadDone_to (Nat.or_self _) hS
  | dispToken => exact execDispToken_to (Nat.or_self _) hS
  | ingressUnstall => exact execIngressUnstall_to (Nat.or_self _) hS
  | completionToken => exact execCompletionToken_to (Nat.or_self _) hS
  | templateFetchDone => exact execTemplateFetchDone_to (Nat.or_self _) hS
  | fireIssue => exact execFireIssue_to (Nat.or_self _) hS
  | agePromotion => exact execAgePromotion_to (Nat.or_self _) hS
  | openInst => exact execOpen_to (Nat.or_self _) hS
  | closeInst => exact execClose_to (Nat.or_self _) hS
  | forceInst => exact execForce_to (Nat.or_self _) hS
  | voterMinority => exact execVoterMinority_to (Nat.or_self _) hS
  | minorityReloadDone => exact execMinorityReloadDone_to (Nat.or_self _) hS
  | noMajority => exact execNoMajority_to (Nat.or_self _) hS
  | postFireRecord => exact execPostFireRecord_to (Nat.or_self _) hS
  | sysrefArm => exact execSysrefArm_to (Nat.or_self _) hS
  | laneSyncAcquired => exact execLaneSyncAcquired_to (Nat.or_self _) hS
  | ilasReceived => exact execIlasReceived_to (Nat.or_self _) hS
  | sysrefEdge => exact execSysrefEdge_to (Nat.or_self _) hS
  | multiblockReceived => exact execMultiblockReceived_to (Nat.or_self _) hS
  | laneDown => exact execLaneDown_to (Nat.or_self _) hS
  | laneRecover => exact execLaneRecover_to (Nat.or_self _) hS
  | jsyncLow => exact execJsyncLow_to (Nat.or_self _) hS
  | realign => exact execRealign_to (Nat.or_self _) hS
  | subArm => exact execSubArm_to (Nat.or_self _) hS
  | subReady => exact execSubReady_to (Nat.or_self _) hS
  | subFail => exact execSubFail_to (Nat.or_self _) hS
  | subSwap => exact execSubSwap_to (Nat.or_self _) hS
  | subSwapExecute => exact execSubSwapExecute_to (Nat.or_self _) hS
  | subRelease => exact execSubRelease_to (Nat.or_self _) hS
  | txOn => exact execTxOn_to (Nat.or_self _) hS
  | txOff => exact execTxOff_to (Nat.or_self _) hS
  | carrierOn => exact execCarrierOn_to (Nat.or_self _) hS
  | carrierOff => exact execCarrierOff_to (Nat.or_self _) hS
  | chainCommit => exact execChainCommit_to (Nat.or_self _) hS
  | rampStart => exact execRampStart_to (Nat.or_self _) hS
  | rampEnd => exact execRampEnd_to (Nat.or_self _) hS
  | paCtrlAssert => exact execPaCtrlAssert_to (Nat.or_self _) hS
  | paCtrlDeassert => exact execPaCtrlDeassert_to (Nat.or_self _) hS
  | commitAt => exact execCommitAt_to (Nat.or_self _) hS
  | commitNow => exact execCommitNow_to (Nat.or_self _) hS
  | discard => exact execDiscard_to (Nat.or_self _) hS
  | chainCommitApply => exact execChainCommitApply_to (Nat.or_self _) hS
  | coefDataWrite => exact execCoefDataWrite_to (Nat.or_self _) hS
  | mirrorSwitch => exact execMirrorSwitch_to (Nat.or_self _) hS
  | fftRx => exact execFftRx_to (Nat.or_self _) hS
  | ifftTx => exact execIfftTx_to (Nat.or_self _) hS
  | ce => exact execCe_to (Nat.or_self _) hS
  | eq => exact execEq_to (Nat.or_self _) hS
  | nf => exact execNf_to (Nat.or_self _) hS
  | prach => exact execPrach_to (Nat.or_self _) hS
  | txMap => exact execTxMap_to (Nat.or_self _) hS
  | ofdmOpDone => exact execOfdmOpDone_to (Nat.or_self _) hS
  | peerMissing => exact execPeerMissing_to (Nat.or_self _) hS
  | carrEnable => exact execCarrEnable_to (Nat.or_self _) hS
  | smoothDataWrite => exact execSmoothDataWrite_to (Nat.or_self _) hS
  | ldpcDec => exact execLdpcDec_to (Nat.or_self _) hS
  | ldpcEnc => exact execLdpcEnc_to (Nat.or_self _) hS
  | turboDec => exact execTurboDec_to (Nat.or_self _) hS
  | turboEnc => exact execTurboEnc_to (Nat.or_self _) hS
  | polarDec => exact execPolarDec_to (Nat.or_self _) hS
  | polarEnc => exact execPolarEnc_to (Nat.or_self _) hS
  | workUnitStart => exact execWorkUnitStart_to (Nat.or_self _) hS
  | workUnitDone => exact execWorkUnitDone_to (Nat.or_self _) hS
  | tapSetWrite => exact execTapSetWrite_to (Nat.or_self _) hS
  | frameEnd => exact execFrameEnd_to (Nat.or_self _) hS
  | integrationEnd => exact execIntegrationEnd_to (Nat.or_self _) hS
  | tapCfgWrite => exact execTapCfgWrite_to (Nat.or_self _) hS
  | maxhClr => exact execMaxhClr_to (Nat.or_self _) hS
  | detEnable => exact execDetEnable_to (Nat.or_self _) hS
  | detection => exact execDetection_to (Nat.or_self _) hS
  | confWindowEnd => exact execConfWindowEnd_to (Nat.or_self _) hS
  | captureComplete => exact execCaptureComplete_to (Nat.or_self _) hS
  | bufRelease => exact execBufRelease_to (Nat.or_self _) hS
  | idleWin => exact execIdleWin_to (Nat.or_self _) hS
  | idleWinEnd => exact execIdleWinEnd_to (Nat.or_self _) hS
  | forceCapture => exact execForceCapture_to (Nat.or_self _) hS
  | specClose => exact execSpecClose_to (Nat.or_self _) hS
  | haChunk => exact execHaChunk_to (Nat.or_self _) hS
  | calStart => exact execCalStart_to (Nat.or_self _) hS
  | calAbort => exact execCalAbort_to (Nat.or_self _) hS
  | calRecordDone => exact execCalRecordDone_to (Nat.or_self _) hS
  | coreMapWrite => exact execCoreMapWrite_to (Nat.or_self _) hS
  | spareCopy => exact execSpareCopy_to (Nat.or_self _) hS
  | spareCopyDone => exact execSpareCopyDone_to (Nat.or_self _) hS
  | alu => exact execAlu_to (Nat.or_self _) hS
  | aluImmediate => exact execAluImmediate_to (Nat.or_self _) hS
  | multiply => exact execMultiply_to (Nat.or_self _) hS
  | scalarLoad => exact execScalarLoad_to (Nat.or_self _) hS
  | scalarStore => exact execScalarStore_to (Nat.or_self _) hS
  | addressArithmetic => exact execAddressArithmetic_to (Nat.or_self _) hS
  | loadUpperImmediate => exact execLoadUpperImmediate_to (Nat.or_self _) hS
  | conditionalBranch => exact execConditionalBranch_to (Nat.or_self _) hS
  | jump => exact execJump_to (Nat.or_self _) hS
  | tsend => exact execTsend_to (Nat.or_self _) hS
  | tdone => exact execTdone_to (Nat.or_self _) hS
  | fwait => exact execFwait_to (Nat.or_self _) hS
  | flush => exact execFlush_to (Nat.or_self _) hS
  | inval => exact execInval_to (Nat.or_self _) hS
  | flinv => exact execFlinv_to (Nat.or_self _) hS
  | fence => exact execFence_to (Nat.or_self _) hS
  | isync => exact execIsync_to (Nat.or_self _) hS
  | mfc => exact execMfc_to (Nat.or_self _) hS
  | mtc => exact execMtc_to (Nat.or_self _) hS
  | rti => exact execRti_to (Nat.or_self _) hS
  | isave => exact execIsave_to (Nat.or_self _) hS
  | irestore => exact execIrestore_to (Nat.or_self _) hS
  | trap => exact execTrap_to (Nat.or_self _) hS
  | wait => exact execWait_to (Nat.or_self _) hS
  | interruptEntry => exact execInterruptEntry_to (Nat.or_self _) hS
  | asyncWerr => exact execAsyncWerr_to (Nat.or_self _) hS
  | fireRecordArrival => exact execFireRecordArrival_to (Nat.or_self _) hS
  | dbgHaltReq => exact execDbgHaltReq_to (Nat.or_self _) hS
  | dbgStep => exact execDbgStep_to (Nat.or_self _) hS
  | vld => exact execVld_to (Nat.or_self _) hS
  | vst => exact execVst_to (Nat.or_self _) hS
  | vgather => exact execVgather_to (Nat.or_self _) hS
  | vscatter => exact execVscatter_to (Nat.or_self _) hS
  | vxfer => exact execVxfer_to (Nat.or_self _) hS
  | valu => exact execValu_to (Nat.or_self _) hS
  | valuScalar => exact execValuScalar_to (Nat.or_self _) hS
  | vmac => exact execVmac_to (Nat.or_self _) hS
  | vrnd => exact execVrnd_to (Nat.or_self _) hS
  | vperm => exact execVperm_to (Nat.or_self _) hS
  | vcmp => exact execVcmp_to (Nat.or_self _) hS
  | vpred => exact execVpred_to (Nat.or_self _) hS
  | vfp => exact execVfp_to (Nat.or_self _) hS
  | vred => exact execVred_to (Nat.or_self _) hS
  | ftap => exact execFtap_to (Nat.or_self _) hS
  | mxop => exact execMxop_to (Nat.or_self _) hS
  | mxsb => exact execMxsb_to (Nat.or_self _) hS
  | mxstat => exact execMxstat_to (Nat.or_self _) hS
  | mxsave => exact execMxsave_to (Nat.or_self _) hS
  | mxrst => exact execMxrst_to (Nat.or_self _) hS
  | mxcancel => exact execMxcancel_to (Nat.or_self _) hS
  | bundleCommit => exact execBundleCommit_to (Nat.or_self _) hS
  | bundleSquash => exact execBundleSquash_to (Nat.or_self _) hS
  | subtileBoundary => exact execSubtileBoundary_to (Nat.or_self _) hS
  | mxcOpDone => exact execMxcOpDone_to (Nat.or_self _) hS
  | mxcFire => exact execMxcFire_to (Nat.or_self _) hS
  | ctxCancel => exact execCtxCancel_to (Nat.or_self _) hS
  | rd => exact execRd_to (Nat.or_self _) hS
  | wr => exact execWr_to (Nat.or_self _) hS
  | rdresp => exact execRdresp_to (Nat.or_self _) hS
  | wrresp => exact execWrresp_to (Nat.or_self _) hS
  | tokenPacket => exact execTokenPacket_to (Nat.or_self _) hS
  | firePacket => exact execFirePacket_to (Nat.or_self _) hS
  | stream => exact execStream_to (Nat.or_self _) hS
  | requestTimeout => exact execRequestTimeout_to (Nat.or_self _) hS
  | linkDown => exact execLinkDown_to (Nat.or_self _) hS
  | spareRemap => exact execSpareRemap_to (Nat.or_self _) hS
  | linkReroute => exact execLinkReroute_to (Nat.or_self _) hS
  | tblCopy => exact execTblCopy_to (Nat.or_self _) hS
  | tblDataWrite => exact execTblDataWrite_to (Nat.or_self _) hS
  | flipCmd => exact execFlipCmd_to (Nat.or_self _) hS
  | epochFlip => exact execEpochFlip_to (Nat.or_self _) hS
  | epochDrained => exact execEpochDrained_to (Nat.or_self _) hS
  | ringAccess => exact execRingAccess_to (Nat.or_self _) hS
  | ringSegmentBreak => exact execRingSegmentBreak_to (Nat.or_self _) hS
  | ringAccessTimeout => exact execRingAccessTimeout_to (Nat.or_self _) hS
  | ltCtrlWrite => exact execLtCtrlWrite_to (Nat.or_self _) hS
  | lanternStart => exact execLanternStart_to (Nat.or_self _) hS
  | kick => exact execKick_to (Nat.or_self _) hS
  | abort => exact execAbort_to (Nat.or_self _) hS
  | clear => exact execClear_to (Nat.or_self _) hS
  | dmaFire => exact execDmaFire_to (Nat.or_self _) hS
  | haltComplete => exact execHaltComplete_to (Nat.or_self _) hS
  | arrayScrub => exact execArrayScrub_to (Nat.or_self _) hS
  | repair => exact execRepair_to (Nat.or_self _) hS
  | rrDone => exact execRrDone_to (Nat.or_self _) hS
  | bankPwrWrite => exact execBankPwrWrite_to (Nat.or_self _) hS
  | dramEnable => exact execDramEnable_to (Nat.or_self _) hS
  | dramInitDone => exact execDramInitDone_to (Nat.or_self _) hS
  | freqChange => exact execFreqChange_to (Nat.or_self _) hS
  | fcGo => exact execFcGo_to (Nat.or_self _) hS
  | fcDone => exact execFcDone_to (Nat.or_self _) hS
  | fcFail => exact execFcFail_to (Nat.or_self _) hS
  | dramRefresh => exact execDramRefresh_to (Nat.or_self _) hS
  | mr4Poll => exact execMr4Poll_to (Nat.or_self _) hS
  | dramScrub => exact execDramScrub_to (Nat.or_self _) hS
  | txTapsWrite => exact execTxTapsWrite_to (Nat.or_self _) hS
  | cdrUnlock => exact execCdrUnlock_to (Nat.or_self _) hS
  | cdrLock => exact execCdrLock_to (Nat.or_self _) hS
  | fomWindowEnd => exact execFomWindowEnd_to (Nat.or_self _) hS
  | pstateRequest => exact execPstateRequest_to (Nat.or_self _) hS
  | pstateDone => exact execPstateDone_to (Nat.or_self _) hS
  | controlWord => exact execControlWord_to (Nat.or_self _) hS
  | trainDone => exact execTrainDone_to (Nat.or_self _) hS
  | retrain => exact execRetrain_to (Nat.or_self _) hS
  | handshake => exact execHandshake_to (Nat.or_self _) hS
  | linkUp => exact execLinkUp_to (Nat.or_self _) hS
  | cuwickFrame => exact execCuwickFrame_to (Nat.or_self _) hS
  | recovery => exact execRecovery_to (Nat.or_self _) hS
  | recoveryDone => exact execRecoveryDone_to (Nat.or_self _) hS
  | autoRetry => exact execAutoRetry_to (Nat.or_self _) hS
  | frameReceive => exact execFrameReceive_to (Nat.or_self _) hS
  | flowLoad => exact execFlowLoad_to (Nat.or_self _) hS
  | winClose => exact execWinClose_to (Nat.or_self _) hS
  | uSend => exact execUSend_to (Nat.or_self _) hS
  | cSend => exact execCSend_to (Nat.or_self _) hS
  | frame => exact execFrame_to (Nat.or_self _) hS
  | jobDone => exact execJobDone_to (Nat.or_self _) hS
  | paramRequest => exact execParamRequest_to (Nat.or_self _) hS
  | configRequest => exact execConfigRequest_to (Nat.or_self _) hS
  | startRequest => exact execStartRequest_to (Nat.or_self _) hS
  | stopRequest => exact execStopRequest_to (Nat.or_self _) hS
  | dlTtiRequest => exact execDlTtiRequest_to (Nat.or_self _) hS
  | ulTtiRequest => exact execUlTtiRequest_to (Nat.or_self _) hS
  | ulDciRequest => exact execUlDciRequest_to (Nat.or_self _) hS
  | txDataRequest => exact execTxDataRequest_to (Nat.or_self _) hS
  | lnxStopRequest => exact execLnxStopRequest_to (Nat.or_self _) hS
  | lnxStatsRequest => exact execLnxStatsRequest_to (Nat.or_self _) hS
  | slotIndication => exact execSlotIndication_to (Nat.or_self _) hS
  | stopTimeout => exact execStopTimeout_to (Nat.or_self _) hS
  | h2dTailWrite => exact execH2dTailWrite_to (Nat.or_self _) hS
  | hostFire => exact execHostFire_to (Nat.or_self _) hS
  | tokenIn => exact execTokenIn_to (Nat.or_self _) hS
  | tokenDone => exact execTokenDone_to (Nat.or_self _) hS
  | tmEnqueue => exact execTmEnqueue_to (Nat.or_self _) hS
  | portFree => exact execPortFree_to (Nat.or_self _) hS
  | frameEligible => exact execFrameEligible_to (Nat.or_self _) hS
  | haSelect => exact execHaSelect_to (Nat.or_self _) hS
  | haSelectTimeout => exact execHaSelectTimeout_to (Nat.or_self _) hS
  | depthSample => exact execDepthSample_to (Nat.or_self _) hS
  | meterWrite => exact execMeterWrite_to (Nat.or_self _) hS
  | pcsLockLoss => exact execPcsLockLoss_to (Nat.or_self _) hS
  | pcsLockGain => exact execPcsLockGain_to (Nat.or_self _) hS
  | nowSecLoRead => exact execNowSecLoRead_to (Nat.or_self _) hS
  | ppsInSecRead => exact execPpsInSecRead_to (Nat.or_self _) hS
  | incrCommit => exact execIncrCommit_to (Nat.or_self _) hS
  | adjNs => exact execAdjNs_to (Nat.or_self _) hS
  | setGo => exact execSetGo_to (Nat.or_self _) hS
  | tcmpArm => exact execTcmpArm_to (Nat.or_self _) hS
  | tcmpFire => exact execTcmpFire_to (Nat.or_self _) hS
  | ppsInEdge => exact execPpsInEdge_to (Nat.or_self _) hS
  | ppsLoss => exact execPpsLoss_to (Nat.or_self _) hS
  | ppsOutRise => exact execPpsOutRise_to (Nat.or_self _) hS
  | ppsOutFall => exact execPpsOutFall_to (Nat.or_self _) hS
  | pdReqOn => exact execPdReqOn_to (Nat.or_self _) hS
  | pdReqRetain => exact execPdReqRetain_to (Nat.or_self _) hS
  | pdReqOff => exact execPdReqOff_to (Nat.or_self _) hS
  | grpReqOn => exact execGrpReqOn_to (Nat.or_self _) hS
  | grpReqRetain => exact execGrpReqRetain_to (Nat.or_self _) hS
  | grpReqOff => exact execGrpReqOff_to (Nat.or_self _) hS
  | entryMet => exact execEntryMet_to (Nat.or_self _) hS
  | quiesceTimeout => exact execQuiesceTimeout_to (Nat.or_self _) hS
  | transitionDone => exact execTransitionDone_to (Nat.or_self _) hS
  | pgFail => exact execPgFail_to (Nat.or_self _) hS
  | wake => exact execWake_to (Nat.or_self _) hS
  | cdFreqWrite => exact execCdFreqWrite_to (Nat.or_self _) hS
  | avsSettled => exact execAvsSettled_to (Nat.or_self _) hS
  | pllSlewStep => exact execPllSlewStep_to (Nat.or_self _) hS
  | avsFail => exact execAvsFail_to (Nat.or_self _) hS
  | pllUnlock => exact execPllUnlock_to (Nat.or_self _) hS
  | holdover => exact execHoldover_to (Nat.or_self _) hS
  | holdoverExit => exact execHoldoverExit_to (Nat.or_self _) hS
  | sourceAssert => exact execSourceAssert_to (Nat.or_self _) hS
  | sourceDeassert => exact execSourceDeassert_to (Nat.or_self _) hS
  | srcRouteWrite => exact execSrcRouteWrite_to (Nat.or_self _) hS
  | report => exact execReport_to (Nat.or_self _) hS
  | rptPop => exact execRptPop_to (Nat.or_self _) hS
  | fatal => exact execFatal_to (Nat.or_self _) hS
  | fatalResetDelay => exact execFatalResetDelay_to (Nat.or_self _) hS
  | poreset => exact execPoreset_to (Nat.or_self _) hS
  | vddAonBrownout => exact execVddAonBrownout_to (Nat.or_self _) hS
  | wreset => exact execWreset_to (Nat.or_self _) hS
  | rstCmdWarm => exact execRstCmdWarm_to (Nat.or_self _) hS
  | fatalReset => exact execFatalReset_to (Nat.or_self _) hS
  | pcieReset => exact execPcieReset_to (Nat.or_self _) hS
  | wdogExpiry => exact execWdogExpiry_to (Nat.or_self _) hS
  | wdogHalf => exact execWdogHalf_to (Nat.or_self _) hS
  | wdogKick => exact execWdogKick_to (Nat.or_self _) hS
  | resetRelease => exact execResetRelease_to (Nat.or_self _) hS
  | selfTestDone => exact execSelfTestDone_to (Nat.or_self _) hS
  | imageSelected => exact execImageSelected_to (Nat.or_self _) hS
  | bootReady => exact execBootReady_to (Nat.or_self _) hS
  | pcieGo => exact execPcieGo_to (Nat.or_self _) hS
  | flRead => exact execFlRead_to (Nat.or_self _) hS
  | flProgram => exact execFlProgram_to (Nat.or_self _) hS
  | flErase => exact execFlErase_to (Nat.or_self _) hS
  | flDone => exact execFlDone_to (Nat.or_self _) hS
  | cfgGo => exact execCfgGo_to (Nat.or_self _) hS
  | cfgPersist => exact execCfgPersist_to (Nat.or_self _) hS
  | verifyCfg => exact execVerifyCfg_to (Nat.or_self _) hS
  | signCal => exact execSignCal_to (Nat.or_self _) hS
  | verifyCal => exact execVerifyCal_to (Nat.or_self _) hS
  | confirm => exact execConfirm_to (Nat.or_self _) hS
  | attest => exact execAttest_to (Nat.or_self _) hS
  | debugChallenge => exact execDebugChallenge_to (Nat.or_self _) hS
  | debugUnlock => exact execDebugUnlock_to (Nat.or_self _) hS
  | fuseKey => exact execFuseKey_to (Nat.or_self _) hS
  | fuseRevoke => exact execFuseRevoke_to (Nat.or_self _) hS
  | fuseLock => exact execFuseLock_to (Nat.or_self _) hS
  | mailboxDone => exact execMailboxDone_to (Nat.or_self _) hS
  | pmbusEnable => exact execPmbusEnable_to (Nat.or_self _) hS
  | pmbAlert => exact execPmbAlert_to (Nat.or_self _) hS
  | gpioEdge => exact execGpioEdge_to (Nat.or_self _) hS
  | fabricLinkUp => exact execFabricLinkUp_to (Nat.or_self _) hS
  | pllRelock => exact execPllRelock_to (Nat.or_self _) hS
  | pageIdleClose => exact execPageIdleClose_to (Nat.or_self _) hS
  | echoWindowEnd => exact execEchoWindowEnd_to (Nat.or_self _) hS
  | msixAck => exact execMsixAck_to (Nat.or_self _) hS

/-- What a tick may change. -/
theorem tick_to {T : Nat} {s0 s : State} (hT : T ||| 7696962183378 = T) (hS : To T s0 s) : To T s0 (idleTick s) := by
  unfold idleTick
  exact phyPoll_to (To.sub hT (by decide)) (sampleTick_to (To.sub hT (by decide)) (timeTick_to (To.sub hT (by decide)) hS))

end Sys2Proof.Machine
end

