-- ==== Sys2Proof/Laws/ToF32.lean ====
section
/-! SUPPORT. The frames of the operations and meanings of F32: what each may change. -/

namespace Sys2Proof.Machine

variable {T : Nat} {s0 : State}

end Sys2Proof.Machine
end

