-- ==== Sys2Proof/Laws/ToNum.lean ====
section
/-! SUPPORT. The frames of the operations and meanings of Num: what each may change. -/

namespace Sys2Proof.Machine

variable {T : Nat} {s0 : State}

end Sys2Proof.Machine
end

