-- ==== Sys2Proof/Laws/ToPrach.lean ====
section
/-! SUPPORT. The frames of the operations and meanings of Prach: what each may change. -/

namespace Sys2Proof.Machine

variable {T : Nat} {s0 : State}

end Sys2Proof.Machine
end

