-- ==== Sys2Proof/Laws/ToRefs.lean ====
section
/-! SUPPORT. The frames of the operations and meanings of Refs: what each may change. -/

namespace Sys2Proof.Machine

variable {T : Nat} {s0 : State}

end Sys2Proof.Machine
end

