-- ==== Sys2Proof/Machine/Pins.lean ====
section
/-! DEFINITION. The balls: the net of each (R876–R880), the level of the output balls, and their drive (R870–R872). -/

namespace Sys2Proof.Machine

/-- The net of a ball: supplies, ground, no connection, a pin of a lane, a signal of a DRAM channel, a control signal. -/
inductive Net where
  | vss | vddCore | vddSram | vddAon | vddSds | vddhSds | vddDdrphy | vddqDdr | vddPll | vddIo | nc
  | lane (kind : String) (n : Nat) (pin : String)
  | dram (chan : Nat) (signal : String) (i : Nat)
  | control (signal : String) (i : Nat)
  deriving DecidableEq, Repr

/-- A lane cell's ball (R877): `i`, `j` are its row and column in the cell. -/
def laneBall (kind : String) (n i j : Nat) : Net :=
  if i = 1 ∨ j = 2 then .vss
  else .lane kind n (if i = 0 then (if j = 0 then "TXP" else "TXN") else if j = 0 then "RXP" else "RXN")

/-- A ball of the lane regions: north, south, west, east (R877). -/
def laneNet (region r c : Nat) : Net :=
  let top := if region = 0 then 1 else if region = 1 then 64 else 25
  let left := if region = 3 then 64 else 1
  let n := (r - top) / 3 * (if region < 2 then 24 else 3) + (c - left) / 3
  let (kind, k) := match region with
    | 0 => if n < 64 then ("XL", n) else ("KL", n - 64)
    | 1 => if n < 64 then ("XL", 64 + n) else ("KL", n - 56)
    | 2 => ("NL", n)
    | _ => if n < 8 then ("NL", 24 + n) else ("PL", n - 8)
  laneBall kind k ((r - top) % 3) ((c - left) % 3)

/-- A ball of a DRAM channel (R878): row offset `o`, column offset `e`. -/
def dramNet (d o e : Nat) : Net :=
  if e = 4 ∧ o < 3 then .vss
  else match o with
  | 0 => .dram d "DQ" (if e < 4 then e else e + 3)
  | 1 => .dram d "DQ" (if e < 4 then 4 + e else e + 7)
  | 2 => if e = 3 ∨ e = 5 then .vddqDdr
    else .dram d (if e = 0 ∨ e = 8 then "DMI" else if e = 1 ∨ e = 6 then "RDQS_T" else "RDQS_C") (if e < 4 then 0 else 1)
  | 3 => match e with
    | 0 => .dram d "WCK_T" 0
    | 1 => .dram d "WCK_C" 0
    | 3 => .dram d "CK_T" 0
    | 4 => .dram d "CK_C" 0
    | 6 => .dram d "WCK_T" 1
    | 7 => .dram d "WCK_C" 1
    | 8 => .vddqDdr
    | _ => .vss
  | _ => if e < 7 then .dram d "CA" e else .dram d "CS" (e - 7)

/-- The signal of a control site (R879), by its global site number. -/
def siteNet (g : Nat) : Net :=
  let groups : List (Nat × String) :=
    [(0, "PA_CTRL"), (64, "TDD_CTRL"), (80, "JSYNC_O"), (112, "JSYNC_I"), (144, "GPIO"), (176, "1PPS_IN"), (177, "1PPS_OUT"),
     (178, "THERM_A"), (179, "THERM_K"), (180, "REFCLK_SYS_P"), (181, "REFCLK_SYS_N"), (182, "REFCLK_SMP_P"),
     (183, "REFCLK_SMP_N"), (184, "SYSREF_P"), (185, "SYSREF_N"), (186, "REFCLK_ETH_P"), (187, "REFCLK_ETH_N"),
     (188, "PCIE_REFCLK_P"), (189, "PCIE_REFCLK_N"), (190, "VCORE_SENSE"), (191, "VSS_SENSE"), (192, "XSPI_CLK")] ++
    [(193, "XSPI_CS_N"), (194, "XSPI_DQS"), (195, "XSPI_RESET_N"), (196, "XSPI_DQ"), (204, "PMB_SCL"), (205, "PMB_SDA"),
     (206, "PMB_ALERT_N"), (207, "TCK"), (208, "TMS"), (209, "TDI"), (210, "TDO"), (211, "TRST_N"), (212, "PORESET_N"),
     (213, "WRESET_N"), (214, "PERST_N"), (215, "BOOT_MODE"), (217, "TRACE_CLK"), (218, "TRACE_D"), (226, "DDR_RESET_N"),
     (228, "DDR_ZQ")]
  if 230 ≤ g then .nc
  else match (groups.filter fun x => decide (x.1 ≤ g)).getLast? with
  | some (b, name) => .control name (g - b)
  | none => .nc

/-- A ball of control block `q` (R879): row offset `r`, column offset `e`. -/
def controlNet (q r e : Nat) : Net :=
  if e = 2 ∨ e = 8 then .vss
  else if e = 5 then .vddIo
  else siteNet (60 * q + 6 * r + (e - (if 5 < e then 2 else if 2 < e then 1 else 0)))

/-- A ball of the supply and core regions (R880). -/
def supplyNet (r c : Nat) : Net :=
  if (r + c) % 2 = 0 then .vss
  else if r ≤ 16 ∨ 57 ≤ r then .vddDdrphy
  else if r ≤ 20 ∨ 53 ≤ r ∨ c ≤ 11 ∨ 62 ≤ c then (if c % 3 = 0 then .vddhSds else .vddSds)
  else if r = 21 then .vddAon
  else if r = 52 then .vddPll
  else if c ≤ 15 ∨ 58 ≤ c then .vddSram
  else .vddCore

/-- The net of the ball at row `r`, column `c`, 1–72 (R876). -/
def ballNet (r c : Nat) : Net :=
  if r ≤ 9 then laneNet 0 r c
  else if 64 ≤ r then laneNet 1 r c
  else if r ≤ 14 then dramNet ((c - 1) / 9) (r - 10) ((c - 1) % 9)
  else if 59 ≤ r then dramNet (8 + (c - 1) / 9) (63 - r) ((c - 1) % 9)
  else if 25 ≤ r ∧ r ≤ 48 ∧ c ≤ 9 then laneNet 2 r c
  else if 25 ≤ r ∧ r ≤ 48 ∧ 64 ≤ c then laneNet 3 r c
  else if c ≤ 9 then (if r ≤ 24 then controlNet 0 (r - 15) (c - 1) else controlNet 1 (r - 49) (c - 1))
  else if 64 ≤ c then (if r ≤ 24 then controlNet 2 (r - 15) (c - 64) else controlNet 3 (r - 49) (c - 64))
  else supplyNet r c

/-! ### Levels and drive of the output balls (R870–R872) -/

/-- PA_CTRL[i] and TDD_CTRL[i] at their balls; none is high impedance. -/
def paBall (s : State) (i : Fin 64) : Option Bool := outLevel s (i / 16) (.pa ⟨i % 16, Nat.mod_lt _ (by decide)⟩)

/-- TDD_CTRL[i]. -/
def tddBall (s : State) (i : Fin 16) : Option Bool := outLevel s (i / 4) (.tdd ⟨i % 4, Nat.mod_lt _ (by decide)⟩)

/-- GPIO[n] is driven where its GPIO_OE bit is 1 (R871, R873). -/
def gpioBall (s : State) (n : Fin 32) : Option Bool :=
  if bit (getReg s 0x00E 0x104) n then some (bit (getReg s 0x00E 0x100) n) else none

/-- 1PPS_OUT is driven from PPS_OUT_CFG.EN on (R871). -/
def ppsBall (s : State) : Option Bool := if s.time.ppsDriven then some s.time.ppsOut else none

/-- The trace port drives its balls while debug access is open (R852, R871); the trace data are not the spec's to give. -/
def traceDriven (s : State) : Bool := debugOpen s

/-- The drive in mA of the balls that PAD_DRV programs (R870, R873): 0 PA_CTRL, 1 TDD_CTRL, 2 GPIO, 3 1PPS_OUT and TRACE. -/
def padDrive (s : State) (g : Fin 4) : Nat :=
  match bits (getReg s 0x00E 0x118) (2 * g + 1) (2 * g) with
  | 0 => 2
  | 1 => 4
  | 2 => 8
  | _ => 12

end Sys2Proof.Machine
end

