-- ==== Sys2Proof/Machine/Solver.lean ====
section
/-! DEFINITION. The calibration solver that the supervisor cores run, and the agreement test (R391, R395–R402). It reads
statistics records and turns them into candidates; no command runs it: the supervisor's program does. -/

namespace Sys2Proof.Machine

/-- A bin of a statistics record: C, P_t, P_r, D (R387), and its frequency in Hz. -/
structure RecBin where
  c : Cx
  pt : Rat
  pr : Rat
  d : Cx
  f : Rat
  deriving DecidableEq, Repr

/-- The coherence of a bin (R391). -/
def RecBin.gamma (b : RecBin) : Rat := if b.pt * b.pr = 0 then 0 else b.c.normSq / (b.pt * b.pr)

/-- The transfer H of a bin (R391). -/
def RecBin.transfer (b : RecBin) : Cx := b.c.scale (1 / b.pr)

/-- The weight of a bin (R391). -/
def RecBin.weight (b : RecBin) : Rat := if b.gamma = 1 then Config.divZero 1 else b.gamma / (1 - b.gamma)

/-- The bins in use: coherence of at least 0.5 (R391). -/
def binsInUse (bs : List RecBin) : List RecBin := bs.filter fun b => decide (1 / 2 ≤ b.gamma)

/-- A fitted record (R391): gain, phase θ in turns, delay τ in seconds, and the lowest weighted coherence. -/
structure Fit where
  gain : Rat
  theta : Rat
  tau : Rat
  deriving DecidableEq, Repr

/-- The sum of `f` over bins with their weights. -/
def wsum (bs : List (RecBin × Rat)) (f : RecBin × Rat → Rat) : Rat := (bs.map fun x => x.1.weight * f x).sum

/-- R391: the weighted least-squares line through the phases, and the weighted mean of |H|; none with fewer than 8 bins in use. -/
def fitRecord (all : List RecBin) : Option Fit :=
  let us := binsInUse all
  if us.length < 8 then none
  else
    let bs := us.zip (Config.binPhases (us.map fun b => (b.transfer.re, b.transfer.im)))
    let sw := wsum bs fun _ => 1
    let sx := wsum bs fun x => x.1.f
    let sy := wsum bs fun x => x.2
    let sxx := wsum bs fun x => x.1.f * x.1.f
    let sxy := wsum bs fun x => x.1.f * x.2
    let slope := (sw * sxy - sx * sy) / (sw * sxx - sx * sx)
    some ⟨wsum bs (fun x => sqrtQ x.1.transfer.normSq) / sw, (sy - slope * sx) / sw, -slope⟩

/-- The five correction registers of a chain, as values (R215). -/
structure ChainVals where
  gain : Nat
  phase : Nat
  int : Nat
  frac : Nat
  iqGain : Int
  iqCross : Int
  dcI : Int
  dcQ : Int
  deriving DecidableEq, Repr

/-- The delay of a chain in lane-side samples: INT + FRAC / 4,096 (R396). -/
def ChainVals.delay (v : ChainVals) : Rat := v.int + (v.frac : Rat) / 4096

/-- Raw input moments of a receive record over `n` samples: means of I, Q, I², Q², I × Q as fractions of full scale (R387). -/
structure Moments where
  i : Rat
  q : Rat
  ii : Rat
  qq : Rat
  iq : Rat
  deriving DecidableEq, Repr

/-- R395: IQ_GAIN and IQ_CROSS of a receive chain, from DC-free moments. -/
def rxIq (m : Moments) : Rat × Rat :=
  let ii := m.ii - m.i * m.i
  let qq := m.qq - m.q * m.q
  let iq := m.iq - m.i * m.q
  let g := sqrtQ (ii / (qq - iq * iq / ii))
  (g, -g * iq / ii)

/-- R395: DC_I and DC_Q of a receive chain: the means. -/
def rxDc (m : Moments) : Rat × Rat := (m.i, m.q)

/-- R395: DC of a transmit chain: the value that brings the observation mean, referred through the fitted gain, to 0. -/
def txDc (old mean : Cx) (f : Fit) : Cx :=
  let t := turn ((f.theta * 65536).floor % 65536).toNat 65536
  old.sub ((mean.mul t.conj).scale (1 / f.gain))

/-- A register value of `frac` fraction bits, held to `n` bits signed. -/
def fixedOf (frac n : Nat) (x : Rat) : Int := (satBits n (roundEven (x * (2 ^ frac : Nat)))).1

/-- A candidate (R396), and whether the chain is INT_DUE: the old gain divided by the fitted gain and phase, the delay less
τ × Fs; a field run keeps INT and clamps FRAC. `fs` is the lane-side rate in Hz. -/
def candidate (field_ : Bool) (fs : Rat) (old : ChainVals) (f : Fit) (iq dc : Rat × Rat) : ChainVals × Bool :=
  let d := old.delay - f.tau * fs
  let steps := roundEven (d * 4096)
  let frac := steps - 4096 * old.int
  let due := decide (frac < 0 ∨ 4096 ≤ frac)
  let (int, frac) := if field_ then ((old.int : Int), clampI 0 4095 frac) else (clampI 0 63 (steps / 4096), steps % 4096)
  (⟨(clampI 0 65535 (roundEven ((old.gain : Rat) / f.gain))).toNat,
    (roundEven ((old.phase : Rat) - f.theta * 65536) % 65536).toNat, int.toNat, frac.toNat,
    fixedOf 14 16 iq.1, fixedOf 15 16 iq.2, fixedOf 15 16 dc.1, fixedOf 15 16 dc.2⟩, field_ && due)

/-- The agreement test of passes A and B (R397): gain within 0.1 dB, phase within 0.5°, delay within 5 ps. A ratio lies within
0.1 dB where its 200th power lies within 10 and 1/10. -/
def agrees (fs : Rat) (a b : ChainVals) : Bool :=
  let d := ((b.phase : Int) - a.phase) % 65536
  let d := if d < 32768 then d else d - 65536
  let t := (b.delay - a.delay) * 10 ^ 12 / fs
  decide (b.gain ^ 200 ≤ 10 * a.gain ^ 200) && decide (a.gain ^ 200 ≤ 10 * b.gain ^ 200) &&
    decide (d * 720 ≤ 65536) && decide (-65536 ≤ d * 720) && decide (t ≤ 5) && decide (-5 ≤ t)

/-- What the record says of a chain (R403): STATE 0 CAL, 1 UNCAL, 2 SUSPECT, and the failure count. -/
structure ChainCal where
  st : Nat
  fails : Nat
  vals : ChainVals
  deriving DecidableEq, Repr

/-- R398, R399: a run's outcome for a chain; `cands` are the candidates of passes A and B, none where a record gave none. In
the factory run a failing chain keeps the reset values `rst` and UNCAL. -/
def runOutcome (factory : Bool) (fs : Rat) (rst : ChainVals) (c : ChainCal) (cands : Option (ChainVals × ChainVals)) : ChainCal :=
  match cands with
  | some (a, b) => if agrees fs a b then ⟨0, 0, b⟩ else failed
  | none => failed
where
  /-- The chain has failed. -/
  failed : ChainCal := if factory then ⟨1, c.fails, rst⟩ else ⟨if c.fails + 1 ≥ 3 then 2 else c.st, c.fails + 1, c.vals⟩

/-- R401: the apply time of a run's commits: the first slot boundary at least 1 ms ahead, slots of `slot` ns from `base` on. -/
def applyTime (now base slot : Int) : Int := base + slot * -((base - (now + 1000000)) / slot)

/-- R402, R416: a chain of stream group `g` of DFE `k` is unmeasured while its group's mirror chain is ACTIVE for repair. -/
def unmeasured (s : State) (k m : Nat) : Bool := decide (bits (mirrorReg s k m) 1 0 = 2)

end Sys2Proof.Machine
end

