-- ==== Sys2Proof/Tests/Slice0.lean ====
section
/-! SUPPORT. Tests: a command that is not well formed for each check; for every obligation with premises, states and operands
that meet them, clause by clause; a few effects worked out by hand from the spec. -/

set_option maxRecDepth 100000
set_option Elab.async false
open Sys2Proof.Machine

namespace Sys2Proof.Tests
/-- A die with every logical core on its own physical core and every fuse of the customer unblown. -/
def die : Fuses := ⟨1, 1, List.replicate 16 0x76543210, [0x2BC, 0x2EE, 0x320], [], [0, 0, 0, 0], 0, 0, 0, false, 0, 0, []⟩
/-- After reset, with every domain ON. -/
def s0 : State := { State.reset with
  fuses := die
  pwr := { State.reset.pwr with doms := (List.range 48).map fun d => (d, { PdRec.init with cur := .on }) } }
/-- A supervisor's access. -/
def sv : Acc := ⟨.sv 0, false⟩
def v32 : Word := 0
def off0 : Fin 4096 := 0
def i0 : Nat := 0
def v1w : Word := 0xFFFFFFFF
/-- Nothing else happens in the cycle of an access. -/
def hw0 : Coincide := ⟨0, false, none⟩

/-- A result is `a` with state `u`. -/
def okIs {α : Type} [DecidableEq α] (r : EStateM.Result OpErr State α) (a : α) (u : State) : Bool :=
  match r with
  | .ok b v => decide (b = a) && decide (v = u)
  | .error _ _ => false

theorem okIs_eq {α : Type} [DecidableEq α] {r : EStateM.Result OpErr State α} {a : α} {u : State} (h : okIs r a u = true) :
    r = .ok a u := by
  cases r with
  | ok b v => simp [okIs] at h; rw [h.1, h.2]
  | error x v => simp [okIs] at h

/-- A working's answer is `a` with state `u`. -/
def exIs {ε α : Type} [DecidableEq α] (r : State × Except ε α) (u : State) (a : α) : Bool :=
  match r with
  | (v, .ok b) => decide (b = a) && decide (v = u)
  | (_, .error _) => false

theorem exIs_eq {ε α : Type} [DecidableEq α] {r : State × Except ε α} {a : α} {u : State} (h : exIs r u a = true) :
    r = (u, .ok a) := by
  obtain ⟨v, b | b⟩ := r
  · simp [exIs] at h
  · simp [exIs] at h; rw [h.1, h.2]

/-- A result is one of success. -/
def isOk {α : Type} (r : EStateM.Result OpErr State α) : Bool :=
  match r with
  | .ok _ _ => true
  | .error _ _ => false

/-- What a successful result holds. -/
def okVal {α : Type} (d : α) (r : EStateM.Result OpErr State α) : α :=
  match r with
  | .ok b _ => b
  | .error _ _ => d

/-- The state of a result. -/
def resSt {α : Type} (r : EStateM.Result OpErr State α) : State :=
  match r with
  | .ok _ v => v
  | .error _ v => v

theorem okRes_eq {α : Type} {r : EStateM.Result OpErr State α} (d : α) (h : isOk r = true) :
    r = .ok (okVal d r) (resSt r) := by
  cases r with
  | ok b v => rfl
  | error x v => simp [isOk] at h

namespace C02

def pPwrc : Fin 1024 := 0x004
def pPkt : Fin 512 := 0x008
def pPcie : Fin 512 := 0x007
def pPktW : Fin 1024 := 0x008
def pLanes : Fin 1024 := 0x100
def pLastW : Fin 1024 := 0x1FF
def pHole : Fin 1024 := 0x1FF
def r0 : Fin 1024 := 0
def v1 : Word := 0xFFFFFFFF
/-- PD0 is OFF. -/
def sOff : State := setPd s0 0 { PdRec.init with cur := .off }
def pCl : Fin 1024 := 0x010
def half : State := { s0 with holdWr := [((0x00C * 4096 + 0x104) * 4 + accPath sv, some 0x40)] }
def loHeld : Word := 0x40
def kPkt : Kind := .pkt
def pktOn : State := modReg s0 0x008 0x08 fun w => putBit w 0 true
def pktReset : State := modReg s0 0x008 0x10 fun w => putBit w 2 true
def leakAt : State := { s0 with time := { s0.time with free := 984, made := 984 } }
def snapNew : Snap := ⟨7, 0, false⟩
def snapOld : Snap := ⟨7, 0, true⟩
def copyAt : State := { s0 with time := { s0.time with free := 1024, made := 1024, snaps := [snapNew] } }
def seqAt : State := { s0 with time := { s0.time with free := 2048, made := 2048, snaps := [snapOld] } }
def hwS : Coincide := ⟨4, false, none⟩
def hwInc : Coincide := ⟨0, true, none⟩
def kPwrc : Kind := .pwrc
def rPlain : Fin 1024 := 0x42
def pPmb : Fin 1024 := 0x00F
def kClk : Kind := .clkc
def pClk : Fin 1024 := 0x005
def rClk : Fin 1024 := 0x68
def dClk : RegDef := reg 0x1A0 1 0 1 .rw 1
def kPmb : Kind := .pmbus
def rPmb : Fin 1024 := 0x40
def clsN : Nat := 4
def codeN : Nat := 2
def srcN : Nat := 4
def addrS : Option Nat := some 0x1000

/-- The premises of the clauses of RegWriteFollowsAccessCodes are met. -/
theorem wit_RegWriteFollowsAccessCodes :
    ((reaches s0 sv (↑pPmb : Nat)) ∧ (pageKind (↑pPmb : Nat) = some kPmb) ∧ (plainWrite kPmb (4 * (↑rPmb : Nat)) =
      true) ∧ (isLo (↑pPmb : Nat) (4 * (↑rPmb : Nat)) = false) ∧ (isHi (↑pPmb : Nat) (4 * (↑rPmb : Nat)) = false)) ∧
    ((reaches s0 sv (↑pClk : Nat)) ∧ (pageKind (↑pClk : Nat) = some kClk) ∧ (plainWrite kClk (4 * (↑rClk : Nat)) =
      true) ∧ (isLo (↑pClk : Nat) (4 * (↑rClk : Nat)) = false) ∧ (isHi (↑pClk : Nat) (4 * (↑rClk : Nat)) = false) ∧
      (findReg (↑pClk : Nat) (4 * (↑rClk : Nat)) = some dClk) ∧ (dClk.acc = Access.rw) ∧ (dClk.acc2 = Access.ro) ∧
      (kup s0.regs = true)) ∧
    ((reaches s0 sv (↑pClk : Nat)) ∧ (pageKind (↑pClk : Nat) = some kClk) ∧ (plainWrite kClk (4 * (↑rClk : Nat)) =
      true) ∧ (isLo (↑pClk : Nat) (4 * (↑rClk : Nat)) = false) ∧ (isHi (↑pClk : Nat) (4 * (↑rClk : Nat)) = false) ∧
      (findReg (↑pClk : Nat) (4 * (↑rClk : Nat)) = some dClk) ∧ (dClk.acc = Access.rw) ∧ (dClk.acc2 = Access.ro) ∧
      (kup s0.regs = true) ∧ (((↑pClk : Nat), (↑off0 : Nat), i0) ≠ ((↑pClk : Nat), 4 * (↑rClk : Nat), 0))) ∧
    ((reaches s0 sv (↑pPwrc : Nat)) ∧ ((pageKind (↑pPwrc : Nat)).isSome = true) ∧ ((↑pPwrc : Nat) ≠ 0) ∧ ((↑pPwrc :
      Nat) < 512)) ∧
    ((reaches s0 sv (↑pPwrc : Nat)) ∧ ((pageKind (↑pPwrc : Nat)).isSome = true) ∧ ((↑pPwrc : Nat) ≠ 0) ∧ ((↑pPwrc :
      Nat) < 512) ∧ (kup s0.regs = true) ∧ (¬pageKind (↑pPwrc : Nat) ∈ [some Kind.nlane, some Kind.plane, some
      Kind.klane, some Kind.dma, some Kind.time, some Kind.gpio])) ∧
    ((reaches s0 sv (↑pPwrc : Nat)) ∧ ((pageKind (↑pPwrc : Nat)).isSome = true) ∧ ((↑pPwrc : Nat) ≠ 0) ∧ ((↑pPwrc :
      Nat) < 512) ∧ (kup s0.regs = true)) ∧
    ((reaches s0 sv (↑pPwrc : Nat)) ∧ ((pageKind (↑pPwrc : Nat)).isSome = true) ∧ ((↑pPwrc : Nat) ≠ 0) ∧ ((↑pPwrc :
      Nat) < 512) ∧ (kup s0.regs = true) ∧ (bit v1 31 = true)) := by
  repeat' apply And.intro
  all_goals first | decide +kernel | exact okIs_eq (by decide +kernel) | exact exIs_eq (by decide +kernel) | exact List.Mem.head _ | exact okRes_eq _ (by decide +kernel) | rfl

/-- The premises of the clauses of RegWriteOffAndUnmapped are met. -/
theorem wit_RegWriteOffAndUnmapped :
    (((pageKind (↑pCl : Nat)).isSome = true) ∧ (bootGated sOff sv (↑pCl : Nat) = false) ∧ (pageOn sOff (↑pCl : Nat) =
      false)) ∧
    ((pageKind (↑pHole : Nat) = none)) := by
  repeat' apply And.intro
  all_goals first | decide +kernel | exact okIs_eq (by decide +kernel) | exact exIs_eq (by decide +kernel) | exact List.Mem.head _ | exact okRes_eq _ (by decide +kernel) | rfl

/-- The premises of the clauses of PairedAndClearingAccessesComplete are met. -/
theorem wit_PairedAndClearingAccessesComplete :
    ((pageKind (↑pLanes : Nat) = some Kind.xlane) ∧ (reaches s0 sv (↑pLanes : Nat)) ∧ (hw0.inc = false)) ∧
    ((pageKind (↑pLanes : Nat) = some Kind.xlane) ∧ (reaches s0 sv (↑pLanes : Nat)) ∧ (hwInc.inc = true) ∧ (kup
      s0.regs = true)) ∧
    (((pageKind (↑pLanes : Nat)).isSome = true) ∧ ((↑pLanes : Nat) < 512) ∧ (reaches s0 sv (↑pLanes : Nat))) ∧
    ((reaches s0 sv 12)) ∧
    ((reaches half sv 12) ∧ (kget none half.holdWr ((12 * 4096 + 260) * 4 + accPath sv) = some loHeld)) ∧
    ((reaches s0 sv 12) ∧ (kget none s0.holdWr ((12 * 4096 + 260) * 4 + accPath sv) = none) ∧ (kup s0.regs = true)) ∧
    ((reaches s0 sv 12) ∧ (kget none s0.holdWr ((12 * 4096 + 260) * 4 + accPath sv) = none) ∧ (kup s0.regs = true) ∧
      (((↑pLanes : Nat), (↑off0 : Nat), i0) ≠ (12, 264, 0))) := by
  repeat' apply And.intro
  all_goals first | decide +kernel | exact okIs_eq (by decide +kernel) | exact exIs_eq (by decide +kernel) | exact List.Mem.head _ | exact okRes_eq _ (by decide +kernel) | rfl

/-- The premises of the clauses of EnableAndDisableComplete are met. -/
theorem wit_EnableAndDisableComplete :
    ((pageKind (↑pPkt : Nat) = some kPkt) ∧ (kPkt ∈ [Kind.mxc, Kind.ofdm, Kind.fec, Kind.tm, Kind.pkt, Kind.time,
      Kind.evtc, Kind.pcie, Kind.ssram, Kind.rtr, Kind.gpio, Kind.secmb]) ∧ (reaches s0 sv (↑pPkt : Nat)) ∧
      (resetting s0 (↑pPkt : Nat) = false) ∧ (ctrlEnable s0 (↑pPkt : Nat) = false)) ∧
    ((pageKind (↑pPkt : Nat) = some kPkt) ∧ (kPkt ∈ [Kind.mxc, Kind.ofdm, Kind.fec, Kind.tm, Kind.pkt, Kind.time,
      Kind.evtc, Kind.pcie, Kind.ssram, Kind.rtr, Kind.gpio, Kind.secmb]) ∧ (reaches pktOn sv (↑pPkt : Nat)) ∧
      (ctrlEnable pktOn (↑pPkt : Nat) = true)) := by
  repeat' apply And.intro
  all_goals first | decide +kernel | exact okIs_eq (by decide +kernel) | exact exIs_eq (by decide +kernel) | exact List.Mem.head _ | exact okRes_eq _ (by decide +kernel) | rfl

/-- The premises of the clauses of SoftResetCompletes are met. -/
theorem wit_SoftResetCompletes :
    (((pageKind (↑pPkt : Nat)).isSome = true) ∧ ((↑pPkt : Nat) ≠ 0) ∧ (awaitsFabric s0 (↑pPkt : Nat) = false) ∧
      (reaches s0 sv (↑pPkt : Nat)) ∧ (resetting s0 (↑pPkt : Nat) = false)) ∧
    (((pageKind (↑pPkt : Nat)).isSome = true) ∧ ((↑pPkt : Nat) ≠ 0) ∧ (awaitsFabric s0 (↑pPkt : Nat) = false) ∧
      (reaches s0 sv (↑pPkt : Nat)) ∧ (resetting s0 (↑pPkt : Nat) = false) ∧ (softKeeps (↑pPkt : Nat) (↑off0 : Nat) =
      false) ∧ ((↑off0 : Nat) ≠ 8) ∧ ((↑off0 : Nat) ≠ 16)) ∧
    (((pageKind (↑pPkt : Nat)).isSome = true) ∧ ((↑pPkt : Nat) ≠ 0) ∧ (awaitsFabric pktReset (↑pPkt : Nat) = false) ∧
      (resetting pktReset (↑pPkt : Nat) = true)) := by
  repeat' apply And.intro
  all_goals first | decide +kernel | exact okIs_eq (by decide +kernel) | exact exIs_eq (by decide +kernel) | exact List.Mem.head _ | exact okRes_eq _ (by decide +kernel) | rfl

/-- The premises of the clauses of LeakAndSnapshotComplete are met. -/
theorem wit_LeakAndSnapshotComplete :
    ((kup copyAt.regs = true) ∧ (98304 * (copyAt.usTick + 1) ≤ 100 * freeNow copyAt)) ∧
    ((kup leakAt.regs = true) ∧ (98304 * (leakAt.usTick + 1) ≤ 100 * freeNow leakAt)) ∧
    ((kup copyAt.regs = true) ∧ (copyAt.time.snaps = [snapNew]) ∧ (snapNew.copied = false) ∧ (1000 ≤ nsSince copyAt
      snapNew.at_)) ∧
    ((kup seqAt.regs = true) ∧ (seqAt.time.snaps = [snapOld]) ∧ (snapOld.copied = true) ∧ (1256 ≤ nsSince seqAt
      snapOld.at_)) := by
  repeat' apply And.intro
  all_goals first | decide +kernel | exact okIs_eq (by decide +kernel) | exact exIs_eq (by decide +kernel) | exact List.Mem.head _ | exact okRes_eq _ (by decide +kernel) | rfl

end C02

namespace C03

def n0 : Fin 9 := 0
def n8 : Fin 9 := 8
def peak : Nat := 1024
def dOpen : State := setReg (setReg s0 0x002 0x154 1024) 0x002 0x150 5
def dOpened : State := setInst dOpen 5 ⟨.open_, 1024, 0⟩
def dBusy : State := setInst dOpen 5 ⟨.open_, 1024, 2⟩
def dFailed : State := setInst dOpen 5 ⟨.failed, 1024, 2⟩
def dFull : State := setInst (setInst dOpen 6 ⟨.open_, 32768, 0⟩) 7 ⟨.open_, 1024, 0⟩
def joinT : List Word := [0x24600000, 0x00030000, 0, 0, 0, 0, 0, 0]
def raceT : List Word := [0x26600000, 0x00030000, 0, 0, 0, 0, 0, 0]
def nextT : List Word := [0x24610000, 0x00030000, 0x00020000, 0, 0, 0, 0, 0]
def tok (port : BitVec 2) : Token := ⟨1, 5, port, 0, 0, 0, 9⟩
def tokIn1 : TokIn := ⟨tok 1, 2, .clean⟩
def dOn (w : List Word) : State :=
  let s := setEnabled (setInst s0 5 ⟨.open_, 1024, 0⟩) 0x002 true
  { s with disp := { s.disp with cache := [(1, w), (2, joinT)] } }
def dJoin : State := dOn joinT
def dRace : State := dOn raceT
def ent1 : Entry := ⟨1, 5, [some ⟨0, 3⟩, none], .waiting, false, 2, 1, 0, 0, 0, joinT, []⟩
def entR : Entry := ⟨1, 5, [some ⟨0, 3⟩, some ⟨0, 4⟩], .ready, false, 2, 2, 0, 0, 0, joinT, []⟩
def dWait : State := { dJoin with disp := { dJoin.disp with entries := [ent1] } }
def dReady : State := setReg { dJoin with disp := { dJoin.disp with entries := [entR] }, time := { dJoin.time with free := 984 } } 0x002 0x118 1
def done1 : Token := ⟨1, 5, 0, 0, 0x80, 0, 9⟩
def fire1 : OutFire := ⟨1, 5, 2, 0, 0, false, true⟩
def dFired : State := { dOn nextT with disp := { (dOn nextT).disp with fires := [fire1] } }
def tokFree : Token := ⟨1, 6, 0, 0, 0, 0, 9⟩
def dHeld : State := { dJoin with disp := { dJoin.disp with held := [(tokFree, 1)] } }
def cls1 : Fin 4 := 1
def dHeldOff : State := setEnabled dHeld 0x002 false
def dHeldOpen : State := { dJoin with disp := { dJoin.disp with held := [(tok 1, 1)] } }
def tokOpen : Token := tok 1
def clean1 : Mark := .clean
def dManyHeld : State := { dHeld with disp := { dHeld.disp with entries := List.replicate 32768 entR } }
def dHaHeld : State :=
  let s := modReg (setReg s0 0x002 0x140 8) 0x002 0x10 fun w => putBit w 3 true
  { s with disp := { s.disp with held := [(tokFree, 1)] } }
def dHaFull : State := setReg dHaHeld 0x002 0x144 255
def dLoad : State := { s0 with disp := { s0.disp with loading := true } }
def dLoad' : State := { dLoad with disp := { dLoad.disp with loading := false } }
def dLoadU : State := (loadTmpls none (loadSet dLoad') dLoad' []).1
def noTmpl : List (Nat × List Word) := []
def num1 : BitVec 16 := 1
def dFetch : State := { s0 with disp := { s0.disp with fetchQ := [(tokFree, 1, .clean)] } }
def dFetchU : State := (memRead dFetch 0x002 (tmplAddr dFetch 1) 32).1
def zeros32 : List Byte := List.replicate 32 0
def one : Nat := 1
def pool2 : Fin 16 := 2
def mem0 : Nat := 0
def inst5 : BitVec 16 := 5
def rep0 : Fin 3 := 0
def port0 : Fin 8 := 0
def dHa : State := modReg (setReg s0 0x002 0x140 8) 0x002 0x10 fun w => putBit w 3 true

/-- The premises of the clauses of OpenPortsComplete are met. -/
theorem wit_OpenPortsComplete :
    ((reaches dOpen sv 2) ∧ (haActive dOpen 2 = false) ∧ (bits (getReg dOpen 2 (340 + 16 * (↑n0 : Nat))) 15 0 = peak)
      ∧ (1 ≤ peak) ∧ (peak ≤ 1024) ∧ ((instRec dOpen (bits (getReg dOpen 2 (336 + 16 * (↑n0 : Nat))) 15 0)).st =
      InstState.free) ∧ (reserved dOpen + peak ≤ openLimit dOpen) ∧ (headroom dOpen = 0)) ∧
    ((reaches dBusy sv 2) ∧ (haActive dBusy 2 = false) ∧ ((instRec dBusy (bits (getReg dBusy 2 (336 + 16 * (↑n0 :
      Nat))) 15 0)).st = InstState.open_ ∨ (instRec dBusy (bits (getReg dBusy 2 (336 + 16 * (↑n0 : Nat))) 15 0)).st =
      InstState.failed) ∧ ((instRec dBusy (bits (getReg dBusy 2 (336 + 16 * (↑n0 : Nat))) 15 0)).outstanding ≠ 0)) ∧
    ((reaches dOpened sv 2) ∧ (haActive dOpened 2 = false) ∧ ((instRec dOpened (bits (getReg dOpened 2 (336 + 16 *
      (↑n0 : Nat))) 15 0)).st = InstState.open_ ∨ (instRec dOpened (bits (getReg dOpened 2 (336 + 16 * (↑n0 : Nat)))
      15 0)).st = InstState.failed) ∧ ((instRec dOpened (bits (getReg dOpened 2 (336 + 16 * (↑n0 : Nat))) 15
      0)).outstanding = 0)) ∧
    ((reaches dFailed sv 2) ∧ (haActive dFailed 2 = false) ∧ ((instRec dFailed (bits (getReg dFailed 2 (336 + 16 *
      (↑n0 : Nat))) 15 0)).st = InstState.closing ∨ (instRec dFailed (bits (getReg dFailed 2 (336 + 16 * (↑n0 :
      Nat))) 15 0)).st = InstState.failed)) := by
  repeat' apply And.intro
  all_goals first | decide +kernel | exact okIs_eq (by decide +kernel) | exact exIs_eq (by decide +kernel) | exact List.Mem.head _ | exact okRes_eq _ (by decide +kernel) | rfl

/-- The premises of the clauses of OpenRefusedWhenFull are met. -/
theorem wit_OpenRefusedWhenFull :
    ((reaches dFull sv 2) ∧ (haActive dFull 2 = false) ∧ (1 ≤ bits (getReg dFull 2 (340 + 16 * (↑n0 : Nat))) 15 0) ∧
      (bits (getReg dFull 2 (340 + 16 * (↑n0 : Nat))) 15 0 ≤ 1024) ∧ ((instRec dFull (bits (getReg dFull 2 (336 + 16
      * (↑n0 : Nat))) 15 0)).st = InstState.free) ∧ (openLimit dFull < reserved dFull + bits (getReg dFull 2 (340 +
      16 * (↑n0 : Nat))) 15 0 ∨ headroom dFull ≠ 0)) := by
  repeat' apply And.intro
  all_goals first | decide +kernel | exact okIs_eq (by decide +kernel) | exact exIs_eq (by decide +kernel) | exact List.Mem.head _ | exact okRes_eq _ (by decide +kernel) | rfl

/-- The premises of the clauses of TokenMatches are met. -/
theorem wit_TokenMatches :
    ((blockRuns dJoin 2 = true) ∧ (haActive dJoin 2 = false) ∧ (enabled dJoin 2 = true) ∧ (dJoin.disp.held = []) ∧
      (dJoin.disp.fetchQ = []) ∧ (tokIn1.tok.kind = 0) ∧ (tokIn1.tok.rsvd = 0) ∧ (tokIn1.tok.flags.toNat % 16 = 0) ∧
      (tokDone tokIn1.tok = false) ∧ (tokIn1.store = Mark.clean) ∧ ((instRec dJoin tokIn1.tok.inst.toNat).st =
      InstState.open_) ∧ (tmplCached dJoin tokIn1.tok.template.toNat = some joinT) ∧ (tBad joinT = false) ∧
      (tokIn1.tok.port.toNat < tPorts joinT) ∧ (dJoin.disp.entries.length < 32768) ∧ (entryOf dJoin
      tokIn1.tok.template.toNat tokIn1.tok.inst.toNat = none) ∧ (fireLive dJoin tokIn1.tok.template.toNat
      tokIn1.tok.inst.toNat = false) ∧ (instEntries dJoin tokIn1.tok.inst.toNat < (instRec dJoin
      tokIn1.tok.inst.toNat).peak)) ∧
    ((blockRuns dJoin 2 = true) ∧ (haActive dJoin 2 = false) ∧ (enabled dJoin 2 = true) ∧ (dJoin.disp.held = []) ∧
      (dJoin.disp.fetchQ = []) ∧ (tokIn1.tok.kind = 0) ∧ (tokIn1.tok.rsvd = 0) ∧ (tokIn1.tok.flags.toNat % 16 = 0) ∧
      (tokDone tokIn1.tok = false) ∧ (tokIn1.store = Mark.clean) ∧ ((instRec dJoin tokIn1.tok.inst.toNat).st =
      InstState.open_) ∧ (tmplCached dJoin tokIn1.tok.template.toNat = some joinT) ∧ (tBad joinT = false) ∧
      (tokIn1.tok.port.toNat < tPorts joinT) ∧ (dJoin.disp.entries.length < 32768) ∧ (entryOf dJoin
      tokIn1.tok.template.toNat tokIn1.tok.inst.toNat = none) ∧ (fireLive dJoin tokIn1.tok.template.toNat
      tokIn1.tok.inst.toNat = false) ∧ (instEntries dJoin tokIn1.tok.inst.toNat < (instRec dJoin
      tokIn1.tok.inst.toNat).peak) ∧ (tRace joinT = false ∧ 2 ≤ tPorts joinT ∨ tRace joinT = true)) ∧
    ((blockRuns dWait 2 = true) ∧ (haActive dWait 2 = false) ∧ (enabled dWait 2 = true) ∧ (dWait.disp.held = []) ∧
      (dWait.disp.fetchQ = []) ∧ (tokIn1.tok.kind = 0) ∧ (tokIn1.tok.rsvd = 0) ∧ (tokIn1.tok.flags.toNat % 16 = 0) ∧
      (tokDone tokIn1.tok = false) ∧ (tokIn1.store = Mark.clean) ∧ ((instRec dWait tokIn1.tok.inst.toNat).st =
      InstState.open_) ∧ (tmplCached dWait tokIn1.tok.template.toNat = some joinT) ∧ (tBad joinT = false) ∧
      (tokIn1.tok.port.toNat < tPorts joinT) ∧ (dWait.disp.entries.length < 32768) ∧ (entryOf dWait
      tokIn1.tok.template.toNat tokIn1.tok.inst.toNat = some ent1) ∧ (ent1.phase = EntryPhase.waiting) ∧ (ent1.race =
      false) ∧ (errPort ent1 = none) ∧ (ent1.ports[tokIn1.tok.port.toNat]? = some none) ∧ (allArrived
      { ent1 with ports := (setAt ent1.ports tokIn1.tok.port.toNat (some { kind := tokIn1.tok.kind, payload := tokIn1.tok.payload : PortVal })) : Entry }
      = true)) := by
  repeat' apply And.intro
  all_goals first | decide +kernel | exact okIs_eq (by decide +kernel) | exact exIs_eq (by decide +kernel) | exact List.Mem.head _ | exact okRes_eq _ (by decide +kernel) | rfl

/-- The premises of the clauses of CompletionAndUnstallComplete are met. -/
theorem wit_CompletionAndUnstallComplete :
    ((blockRuns dFired 2 = true) ∧ (haActive dFired 2 = false) ∧ (enabled dFired 2 = true) ∧ (dFired.disp.held = [])
      ∧ (dFired.disp.fetchQ = []) ∧ (done1.kind = 0) ∧ (done1.rsvd = 0) ∧ (done1.flags = 128) ∧ ((instRec dFired
      done1.inst.toNat).st = InstState.open_) ∧ (tmplCached dFired done1.template.toNat = some nextT) ∧ (tBad nextT =
      false) ∧ (tLink nextT = none) ∧ ((tSuccs nextT).any sClose = false) ∧ (fireOf dFired done1 = some fire1) ∧
      (fire1.counted = true) ∧ (fire1.cancel = false)) ∧
    ((blockRuns dManyHeld 2 = true) ∧ (haActive dManyHeld 2 = false) ∧ (List.find? (fun h => decide (h.snd = (↑cls1 :
      Nat))) dManyHeld.disp.held = some (tokFree, (↑cls1 : Nat))) ∧ (32768 ≤ dManyHeld.disp.entries.length)) ∧
    ((blockRuns dHeld 2 = true) ∧ (haActive dHeld 2 = false) ∧ (List.find? (fun h => decide (h.snd = (↑cls1 : Nat)))
      dHeld.disp.held = some (tokFree, (↑cls1 : Nat))) ∧ (dHeld.disp.entries.length < 32768)) ∧
    ((blockRuns dHeldOff 2 = true) ∧ (haActive dHeldOff 2 = false) ∧ (List.find? (fun h => decide (h.snd = (↑cls1 :
      Nat))) dHeldOff.disp.held = some (tokFree, (↑cls1 : Nat))) ∧ (dHeldOff.disp.entries.length < 32768) ∧ (enabled
      dHeldOff 2 = false) ∧ (tokDone tokFree = false)) ∧
    ((blockRuns dHeld 2 = true) ∧ (haActive dHeld 2 = false) ∧ (List.find? (fun h => decide (h.snd = (↑cls1 : Nat)))
      dHeld.disp.held = some (tokFree, (↑cls1 : Nat))) ∧ (dHeld.disp.entries.length < 32768) ∧ (enabled dHeld 2 =
      true) ∧ (tokFree.kind = 0) ∧ (tokFree.rsvd = 0) ∧ (tokFree.flags.toNat % 16 = 0) ∧ (tokDone tokFree = false) ∧
      (dHeld.disp.fetchQ = []) ∧ (tmplCached dHeld tokFree.template.toNat = some joinT) ∧ (tBad joinT = false) ∧
      (tokFree.port.toNat < tPorts joinT) ∧ ((instRec dHeld tokFree.inst.toNat).st ≠ InstState.open_)) ∧
    ((blockRuns dHeldOpen 2 = true) ∧ (haActive dHeldOpen 2 = false) ∧ (List.find? (fun h => decide (h.snd = (↑cls1 :
      Nat))) dHeldOpen.disp.held = some (tokOpen, (↑cls1 : Nat))) ∧ (dHeldOpen.disp.entries.length < 32768) ∧
      (enabled dHeldOpen 2 = true) ∧ (tokOpen.kind = 0) ∧ (tokOpen.rsvd = 0) ∧ (tokOpen.flags.toNat % 16 = 0) ∧
      (tokDone tokOpen = false) ∧ (dHeldOpen.disp.fetchQ = []) ∧ (tmplCached dHeldOpen tokOpen.template.toNat = some
      joinT) ∧ (tBad joinT = false) ∧ (tokOpen.port.toNat < tPorts joinT) ∧ ((instRec dHeldOpen
      tokOpen.inst.toNat).st = InstState.open_) ∧ (entryOf dHeldOpen tokOpen.template.toNat tokOpen.inst.toNat =
      none) ∧ (fireLive dHeldOpen tokOpen.template.toNat tokOpen.inst.toNat = false) ∧ (tRace joinT = false) ∧ (2 ≤
      tPorts joinT)) ∧
    ((blockRuns dHaFull 2 = true) ∧ (haActive dHaFull 2 = true) ∧ (dHaFull.disp.held.head? = some (tokFree, one)) ∧
      (hostRingBad dHaFull = false) ∧ (tokDone tokFree = false) ∧ (Ring.full dHaFull hostRing = true)) ∧
    ((blockRuns dHaHeld 2 = true) ∧ (haActive dHaHeld 2 = true) ∧ (dHaHeld.disp.held.head? = some (tokFree, one)) ∧
      (hostRingBad dHaHeld = false) ∧ (tokDone tokFree = false) ∧ (Ring.full dHaHeld hostRing = false)) := by
  repeat' apply And.intro
  all_goals first | decide +kernel | exact okIs_eq (by decide +kernel) | exact exIs_eq (by decide +kernel) | exact List.Mem.head _ | exact okRes_eq _ (by decide +kernel) | rfl

/-- The premises of the clauses of TemplateReadsComplete are met. -/
theorem wit_TemplateReadsComplete :
    ((dLoad.disp.loading = true) ∧ (blockRuns dLoad 2 = true) ∧ (loadTmpls none (loadSet
      { dLoad with disp := { dLoad.disp with loading := false : DispSt } : State })
      { dLoad with disp := { dLoad.disp with loading := false : DispSt } : State } [] = (dLoadU, Except.ok noTmpl)) ∧
      (noTmpl.length ≤ 4096)) ∧
    ((blockRuns dFetch 2 = true) ∧ (dFetch.disp.fetchQ = [(tokFree, one, clean1)]) ∧ (dFetch.disp.fetched = []) ∧
      (tokFree.template = num1) ∧ (tmplCached dFetch num1.toNat = none) ∧ (memRead dFetch 2 (tmplAddr dFetch
      num1.toNat) 32 = (dFetchU, Resp.ok, zeros32)) ∧ (dFetchU.disp = dFetch.disp) ∧ ((instRec dFetch
      tokFree.inst.toNat).st = InstState.free) ∧ (tokDone tokFree = false)) := by
  repeat' apply And.intro
  all_goals first | decide +kernel | exact okIs_eq (by decide +kernel) | exact exIs_eq (by decide +kernel) | exact List.Mem.head _ | exact okRes_eq _ (by decide +kernel) | rfl

/-- The premises of the clauses of IssueAndPromotionComplete are met. -/
theorem wit_IssueAndPromotionComplete :
    ((dReady.disp.stopped = false) ∧ (blockRuns dReady 2 = true) ∧ (candidates dReady (↑pool2 : Nat) = [Cand.entry
      entR mem0]) ∧ (entR.race = false)) ∧
    ((entryOf dReady num1.toNat inst5.toNat = some entR) ∧ (entR.phase = EntryPhase.ready) ∧ (2 ≤ entR.cls) ∧ (bits
      (getReg dReady 2 280) 15 0 ≠ 0) ∧ (usSince dReady entR.since (bits (getReg dReady 2 280) 15 0) = true)) := by
  repeat' apply And.intro
  all_goals first | decide +kernel | exact okIs_eq (by decide +kernel) | exact exIs_eq (by decide +kernel) | exact List.Mem.head _ | exact okRes_eq _ (by decide +kernel) | rfl

/-- The premises of the clauses of VotersComplete are met. -/
theorem wit_VotersComplete :
    ((bit (getReg s0 2 308) 8 = false)) := by
  repeat' apply And.intro
  all_goals first | decide +kernel | exact okIs_eq (by decide +kernel) | exact exIs_eq (by decide +kernel) | exact List.Mem.head _ | exact okRes_eq _ (by decide +kernel) | rfl

/-- The premises of the clauses of PostingCompletes are met. -/
theorem wit_PostingCompletes :
    ((reaches dHa sv (616 + (↑port0 : Nat))) ∧ (haActive (setReg dHa (616 + (↑port0 : Nat)) ((↑cls1 : Nat) * 256 +
      60) v32) 2 = true) ∧ (8 ≤ bits (getReg (setReg dHa (616 + (↑port0 : Nat)) ((↑cls1 : Nat) * 256 + 60) v32) 2
      320) 4 0) ∧ (bits (getReg (setReg dHa (616 + (↑port0 : Nat)) ((↑cls1 : Nat) * 256 + 60) v32) 2 320) 4 0 ≤ 16) ∧
      ((fireOfWords (List.map (fun i => getReg (setReg dHa (616 + (↑port0 : Nat)) ((↑cls1 : Nat) * 256 + 60) v32)
      (616 + (↑port0 : Nat)) ((↑cls1 : Nat) * 256 + 4 * i)) (List.range 16))).member.toNat < (poolSize (fireOfWords
      (List.map (fun i => getReg (setReg dHa (616 + (↑port0 : Nat)) ((↑cls1 : Nat) * 256 + 60) v32) (616 + (↑port0 :
      Nat)) ((↑cls1 : Nat) * 256 + 4 * i)) (List.range 16))).pool.toNat).fst) ∧ ((List.filter (fun p => decide
      (p.port = (↑port0 : Nat))) dHa.disp.posted).length < 1024)) := by
  repeat' apply And.intro
  all_goals first | decide +kernel | exact okIs_eq (by decide +kernel) | exact exIs_eq (by decide +kernel) | exact List.Mem.head _ | exact okRes_eq _ (by decide +kernel) | rfl

end C03

namespace C04

def q0 : Fin 32 := 0
def l0 : Fin 4 := 0
def armW : Word := 0x103
def lnk (cfg : Word) (x : LinkSt) : State := setLink (setEnabled (setReg s0 0x100 0x100 cfg) 0x100 true) 0 x
/-- A 204B link of parameter set 0x9, receiving and transmitting. -/
def lnkB (x : LinkSt) : State := lnk 0x309 x
def lnkC (x : LinkSt) : State := lnk 0x300 x
def at_ (n : Nat) : LinkSt := { LinkSt.init with st := n }
def lkSync : State := lnkB { at_ 1 with lock := 0xE }
def lkIlas : State := lnkB (at_ 2)
def ilasOk : Ilas := (wantedIlas lkIlas 0).getD ⟨0, 0, 0, 0, 0, false, 0, 0, 0, false⟩
def ilasBad : Ilas := ⟨4, 8, 4, 2, 1, false, 16, 16, 0, false⟩
def lkC2 : State := lnkC (at_ 2)
def lkArmed : State := lnkC { at_ 3 with armed := true }
def oct : List Byte := [1, 2]
def lkBlk : State := lnkC (at_ 3)
def lkUp : State := lnkB (at_ 4)
def lkLate : State := lnkB { at_ 4 with cur := [none, none, none, none] }
def lkBad : State := lnkC { at_ 4 with bad := [255, 0, 0, 0] }
def lkGood : State := lnkC { at_ 4 with good := [255, 0, 0, 0], down := 1 }
def fr5 : Nat := 5
def one1 : Word := 1
def lkAl : State := lnkC { at_ 4 with aligned := true }
def j0 : Fin 4 := 0
def sub (n : Nat) (w : Bool) : State := setSub { s0 with time := { s0.time with free := 983040 } } 0 ⟨n, w, 0⟩
def sub0 : State := sub 0 false
def sub1 : State := sub 1 false
def sub1n : State := { sub 1 false with time := s0.time }
def sub2 : State := sub 2 false
def sub3 : State := sub 3 false
def sub4 : State := sub 4 false
def sub2w : State := sub 2 true
def sub5w : State := setLn (sub 5 true) 0x100 0 0x04 0x00040000
def fireD (op : BitVec 16) (p0 : BitVec 64) : FireRec := ⟨1, 5, op, 0, 0, 0, 0, false, p0, 0, 0, 0, 0xA, 0, 0⟩
def fOn : FireRec := fireD 1 0x0000000000010000
def fOff : FireRec := fireD 2 0x0000000000010000
def fCOn : FireRec := fireD 3 0x0000000000000100
def fCOff : FireRec := fireD 4 0x0000000000000200
def fCom : FireRec := fireD 5 0x0000000000000083
def dOnS (f : FireRec) : State := { setEnabled (setReg s0 0x0C8 0x108 0xFFF) 0x0C8 true with arrived := [f] }
def dS1 : State := dOnS fOn
def dS2 : State := dOnS fOff
def dS3 : State := dOnS fCOn
def dS4 : State := dOnS fCOff
def dS5 : State := dOnS fCom
def kD : Fin 4 := 0
def grp0 : Fin 16 := 0
def cmdG (op : Nat) (st fi : BitVec 16) : DfeCmd := ⟨none, op, 1, 0, 0, 0, 0, 0, st, fi, 0⟩
def cmdS (op : Nat) (st fi : BitVec 16) : DfeCmd := ⟨none, op, 0, 0, 2, 0, 0, 0, st, fi, 0⟩
def cRx : DfeCmd := ⟨none, 3, 0, 0, 1, 0, 0, 0, 0, 0, 0⟩
def dfe (x : DfeSt) : State := setDfe { s0 with time := { s0.time with acc := 2 ^ 32 * 20000 } } 0 x
def cUp : DfeCmd := cmdG 1 0 0
def cCar : DfeCmd := cmdS 3 0 0
def cDn : DfeCmd := cmdG 2 1 0
def cCarRun : DfeCmd := cmdS 4 1 0
def ramp0 : Ramp := ⟨false, 0, 1000, 0⟩
def dUp : State := dfe { DfeSt.init with cmds := [cUp] }
def dCar : State := dfe { DfeSt.init with cmds := [cCar] }
def dRx : State := dfe { DfeSt.init with cmds := [cRx] }
def dRun : State := dfe { DfeSt.init with cmds := [cDn], groups := [(0, ⟨false, some ramp0⟩)] }
def dCarRun : State := dfe { DfeSt.init with cmds := [cCarRun], tx := [(0, ⟨false, some ramp0⟩)] }
def out0 : PaOut := .pa 0
def outT : PaOut := .tdd 3
def dLag : State := dfe { DfeSt.init with lag := [(0, some 5)], pa := 1 }
def c131 : Nat := 131
def off1C4 : Nat := 0x1C4
def c131f : Fin 132 := 131
def chS : State := setCh (setCh (setReg s0 0x0C8 0x1A0 131) 0 0x1C4 131 0 0x111) 0 0x1C4 131 1 0x222
def jNone : Sched := ⟨5, none⟩
def jFire : Sched := ⟨5, some fCom⟩
def dSch : State := dfe { DfeSt.init with sched := [(131, jNone)] }
def dSchF : State := dfe { DfeSt.init with sched := [(131, jFire)] }
def mirOn : State := setCh s0 0 0x1D8 128 0 2

/-- The premises of the clauses of LinkCommandsComplete are met. -/
theorem wit_LinkCommandsComplete :
    ((reaches s0 sv (quadPage (↑q0 : Nat))) ∧ (bit armW 8 = true)) ∧
    ((reaches lkAl sv (quadPage (↑q0 : Nat))) ∧ (bit one1 0 = true) ∧ ((linkOf lkAl (↑q0 : Nat)).aligned = true)) ∧
    ((blockRuns lkArmed 256 = true) ∧ (enabled lkArmed (quadPage (↑q0 : Nat)) = true) ∧ ((linkOf lkArmed (↑q0 :
      Nat)).armed = true) ∧ ((linkOf lkArmed (↑q0 : Nat)).st = 3 ∨ (linkOf lkArmed (↑q0 : Nat)).st = 4)) ∧
    ((blockRuns lkSync (quadPage (↑q0 : Nat)) = true) ∧ ((linkOf lkSync (↑q0 : Nat)).st = 1) ∧ ((↑l0 : Nat) <
      quadLanes lkSync (↑q0 : Nat))) ∧
    ((blockRuns lkIlas (quadPage (↑q0 : Nat)) = true) ∧ ((linkOf lkIlas (↑q0 : Nat)).st = 2) ∧ (quadC lkIlas (↑q0 :
      Nat) = false) ∧ (some ilasOk = wantedIlas lkIlas (↑q0 : Nat))) ∧
    ((blockRuns lkIlas (quadPage (↑q0 : Nat)) = true) ∧ ((linkOf lkIlas (↑q0 : Nat)).st = 2) ∧ (quadC lkIlas (↑q0 :
      Nat) = false) ∧ (some ilasBad ≠ wantedIlas lkIlas (↑q0 : Nat))) ∧
    ((blockRuns lkC2 (quadPage (↑q0 : Nat)) = true) ∧ ((linkOf lkC2 (↑q0 : Nat)).st = 2) ∧ (quadC lkC2 (↑q0 : Nat) =
      true)) ∧
    ((blockRuns lkBlk (quadPage (↑q0 : Nat)) = true) ∧ (enabled lkBlk (quadPage (↑q0 : Nat)) = true) ∧ (rxEn lkBlk
      (↑q0 : Nat) = true) ∧ ((↑l0 : Nat) < quadLanes lkBlk (↑q0 : Nat)) ∧ ((quadC lkBlk (↑q0 : Nat) && !true) =
      false) ∧ ((linkOf lkBlk (↑q0 : Nat)).st = 2 ∨ (linkOf lkBlk (↑q0 : Nat)).st = 3)) ∧
    ((blockRuns lkUp (quadPage (↑q0 : Nat)) = true) ∧ (enabled lkUp (quadPage (↑q0 : Nat)) = true) ∧ (rxEn lkUp (↑q0
      : Nat) = true) ∧ ((↑l0 : Nat) < quadLanes lkUp (↑q0 : Nat)) ∧ ((quadC lkUp (↑q0 : Nat) && !true) = false) ∧
      ((linkOf lkUp (↑q0 : Nat)).st = 4) ∧ ((linkOf lkUp (↑q0 : Nat)).cur[(↑l0 : Nat)]?.getD (some []) ≠ none ∨
      (linkOf lkUp (↑q0 : Nat)).eb[(↑l0 : Nat)]?.getD [] ≠ [])) ∧
    ((blockRuns lkLate (quadPage (↑q0 : Nat)) = true) ∧ (enabled lkLate (quadPage (↑q0 : Nat)) = true) ∧ (rxEn lkLate
      (↑q0 : Nat) = true) ∧ ((↑l0 : Nat) < quadLanes lkLate (↑q0 : Nat)) ∧ ((quadC lkLate (↑q0 : Nat) && !true) =
      false) ∧ ((linkOf lkLate (↑q0 : Nat)).st = 4) ∧ ((linkOf lkLate (↑q0 : Nat)).cur[(↑l0 : Nat)]?.getD (some []) =
      none) ∧ ((linkOf lkLate (↑q0 : Nat)).eb[(↑l0 : Nat)]?.getD [] = [])) ∧
    ((blockRuns lkBad (quadPage (↑q0 : Nat)) = true) ∧ (enabled lkBad (quadPage (↑q0 : Nat)) = true) ∧ ((linkOf lkBad
      (↑q0 : Nat)).down.getLsbD (↑l0 : Nat) = false) ∧ (lossLimit lkBad (↑q0 : Nat) ≤ (linkOf lkBad (↑q0 :
      Nat)).bad[(↑l0 : Nat)]?.getD 0)) ∧
    ((blockRuns lkGood (quadPage (↑q0 : Nat)) = true) ∧ ((linkOf lkGood (↑q0 : Nat)).down.getLsbD (↑l0 : Nat) = true)
      ∧ (lossLimit lkGood (↑q0 : Nat) ≤ (linkOf lkGood (↑q0 : Nat)).good[(↑l0 : Nat)]?.getD 0) ∧ (laneEdge lkGood
      (↑q0 : Nat) = true)) ∧
    ((blockRuns lkUp (quadPage (↑q0 : Nat)) = true) ∧ (quadC lkUp (↑q0 : Nat) = false) ∧ (txEn lkUp (↑q0 : Nat) =
      true) ∧ ((linkOf lkUp (↑q0 : Nat)).st = 4) ∧ (txRunning lkUp (↑q0 : Nat) = true) ∧ (5 ≤ fr5)) := by
  repeat' apply And.intro
  all_goals first | decide +kernel | exact okIs_eq (by decide +kernel) | exact exIs_eq (by decide +kernel) | exact List.Mem.head _ | exact okRes_eq _ (by decide +kernel) | rfl

/-- The premises of the clauses of SpareLaneCommandsComplete are met. -/
theorem wit_SpareLaneCommandsComplete :
    ((reaches sub0 sv (288 + (↑j0 : Nat))) ∧ ((subOf sub0 (↑j0 : Nat)).st = 0)) ∧
    ((reaches sub4 sv (288 + (↑j0 : Nat))) ∧ ((subOf sub4 (↑j0 : Nat)).st = 4)) ∧
    ((blockRuns sub1n (288 + (↑j0 : Nat)) = true) ∧ ((subOf sub1n (↑j0 : Nat)).st = 1) ∧ (usSince sub1n (subOf sub1n
      (↑j0 : Nat)).since 1000 = false)) ∧
    ((blockRuns sub1 (288 + (↑j0 : Nat)) = true) ∧ ((subOf sub1 (↑j0 : Nat)).st = 1) ∧ (usSince sub1 (subOf sub1 (↑j0
      : Nat)).since 1000 = true)) ∧
    ((reaches sub2 sv (288 + (↑j0 : Nat))) ∧ ((subOf sub2 (↑j0 : Nat)).st = 2)) ∧
    ((reaches sub0 sv (288 + (↑j0 : Nat))) ∧ ((subOf sub0 (↑j0 : Nat)).st ≠ 2)) ∧
    ((blockRuns sub2w (288 + (↑j0 : Nat)) = true) ∧ ((subOf sub2w (↑j0 : Nat)).swapping = true) ∧ (laneEdge sub2w
      ((subTarget sub2w (↑j0 : Nat)).fst - 256) = true) ∧ ((subOf sub2w (↑j0 : Nat)).st = 2)) ∧
    ((blockRuns sub5w (288 + (↑j0 : Nat)) = true) ∧ ((subOf sub5w (↑j0 : Nat)).swapping = true) ∧ (laneEdge sub5w
      ((subTarget sub5w (↑j0 : Nat)).fst - 256) = true) ∧ ((subOf sub5w (↑j0 : Nat)).st = 5) ∧ (macroReady sub5w
      (subTarget sub5w (↑j0 : Nat)).fst (subTarget sub5w (↑j0 : Nat)).snd = true)) ∧
    ((reaches sub3 sv (288 + (↑j0 : Nat))) ∧ ((subOf sub3 (↑j0 : Nat)).st = 3)) := by
  repeat' apply And.intro
  all_goals first | decide +kernel | exact okIs_eq (by decide +kernel) | exact exIs_eq (by decide +kernel) | exact List.Mem.head _ | exact okRes_eq _ (by decide +kernel) | rfl

/-- The premises of the clauses of DfeTakesFires are met. -/
theorem wit_DfeTakesFires :
    ((fOn ∈ dS1.arrived) ∧ (pageClock dS1 (dfePage (fOn.member.toNat % 4)) = true) ∧ (∀ (x : Nat × FireRec), x ∈
      dS1.unowned → x.fst ≠ dfePage (fOn.member.toNat % 4)) ∧ (enabled dS1 (dfePage (fOn.member.toNat % 4)) = true) ∧
      (dfeHeld (dfeOf dS1 (fOn.member.toNat % 4)) < 8) ∧ (fOn.opcode = 1) ∧ (cmdParts (cmdOf dS1 fOn) ≠ 0) ∧
      (dS1.evt.txRefused = false) ∧ (lateBy dS1 (firstAction dS1 (fOn.member.toNat % 4) (cmdOf dS1 fOn)) ≤ ((bits
      (getReg dS1 (dfePage (fOn.member.toNat % 4)) 264) 11 0 : Nat) : Int)) ∧ (((dfeOf dS1 (fOn.member.toNat %
      4)).cmds.any fun d => decide (d.op = 2) && sameSwitch (cmdOf dS1 fOn) d) = false)) ∧
    ((fOff ∈ dS2.arrived) ∧ (pageClock dS2 (dfePage (fOff.member.toNat % 4)) = true) ∧ (∀ (x : Nat × FireRec), x ∈
      dS2.unowned → x.fst ≠ dfePage (fOff.member.toNat % 4)) ∧ (enabled dS2 (dfePage (fOff.member.toNat % 4)) = true)
      ∧ (dfeHeld (dfeOf dS2 (fOff.member.toNat % 4)) < 8) ∧ (fOff.opcode = 2) ∧ (cmdParts (cmdOf dS2 fOff) ≠ 0) ∧
      (((dfeOf dS2 (fOff.member.toNat % 4)).cmds.any fun d => decide (d.op = 1) && sameSwitch (cmdOf dS2 fOff) d) =
      false)) ∧
    ((fCOn ∈ dS3.arrived) ∧ (pageClock dS3 (dfePage (fCOn.member.toNat % 4)) = true) ∧ (∀ (x : Nat × FireRec), x ∈
      dS3.unowned → x.fst ≠ dfePage (fCOn.member.toNat % 4)) ∧ (enabled dS3 (dfePage (fCOn.member.toNat % 4)) = true)
      ∧ (dfeHeld (dfeOf dS3 (fCOn.member.toNat % 4)) < 8) ∧ (fCOn.opcode = 3) ∧ ((cmdOf dS3 fCOn).dir ≠ 0) ∧ (lateBy
      dS3 (firstAction dS3 (fCOn.member.toNat % 4) (cmdOf dS3 fCOn)) ≤ ((bits (getReg dS3 (dfePage (fCOn.member.toNat
      % 4)) 264) 11 0 : Nat) : Int))) ∧
    ((fCOff ∈ dS4.arrived) ∧ (pageClock dS4 (dfePage (fCOff.member.toNat % 4)) = true) ∧ (∀ (x : Nat × FireRec), x ∈
      dS4.unowned → x.fst ≠ dfePage (fCOff.member.toNat % 4)) ∧ (enabled dS4 (dfePage (fCOff.member.toNat % 4)) =
      true) ∧ (dfeHeld (dfeOf dS4 (fCOff.member.toNat % 4)) < 8) ∧ (fCOff.opcode = 4) ∧ ((cmdOf dS4 fCOff).dir ≠ 0)) ∧
    ((fCom ∈ dS5.arrived) ∧ (pageClock dS5 (dfePage (fCom.member.toNat % 4)) = true) ∧ (∀ (x : Nat × FireRec), x ∈
      dS5.unowned → x.fst ≠ dfePage (fCom.member.toNat % 4)) ∧ (enabled dS5 (dfePage (fCom.member.toNat % 4)) = true)
      ∧ (dfeHeld (dfeOf dS5 (fCom.member.toNat % 4)) < 8) ∧ (fCom.opcode = 5) ∧ ((cmdOf dS5 fCom).chain < 132)) := by
  repeat' apply And.intro
  all_goals first | decide +kernel | exact okIs_eq (by decide +kernel) | exact exIs_eq (by decide +kernel) | exact List.Mem.head _ | exact okRes_eq _ (by decide +kernel) | rfl

/-- The premises of the clauses of RampsAndOutputsComplete are met. -/
theorem wit_RampsAndOutputsComplete :
    ((blockRuns dUp (dfePage (↑kD : Nat)) = true) ∧ (firstCmd (List.filter (fun c => decide (c.op ≤ 2 ∧
      c.groups.getLsbD (↑grp0 : Nat) = true ∧ (!c.started.getLsbD (↑grp0 : Nat)) = true)) (dfeOf dUp (↑kD :
      Nat)).cmds) = some cUp) ∧ (rampAt dUp (↑kD : Nat) cUp ≤ txPlane dUp (↑kD : Nat)) ∧ (List.filter (fun d =>
      decide (d ≠ cUp ∧ d.op ≤ 2 ∧ d.started.toNat &&& 2 ^ (↑grp0 : Nat) = 2 ^ (↑grp0 : Nat) ∧ d.finished.toNat &&& 2
      ^ (↑grp0 : Nat) = 0)) (dfeOf dUp (↑kD : Nat)).cmds = []) ∧ (cUp.op = 1 ∨ envActive (envOf (dfeOf dUp (↑kD :
      Nat)) (↑grp0 : Nat)) = true)) ∧
    ((blockRuns dCar (dfePage (↑kD : Nat)) = true) ∧ (firstCmd (List.filter (fun c => decide (3 ≤ c.op ∧ c.slot =
      (↑grp0 : Nat) ∧ c.dir.testBit 1 = true ∧ (!c.started.getLsbD 0) = true)) (dfeOf dCar (↑kD : Nat)).cmds) = some
      cCar) ∧ (rampAt dCar (↑kD : Nat) cCar ≤ txPlane dCar (↑kD : Nat))) ∧
    ((blockRuns dRx (dfePage (↑kD : Nat)) = true) ∧ (∀ (d : DfeCmd), firstCmd (List.filter (fun c => decide (3 ≤ c.op
      ∧ c.slot = (↑grp0 : Nat) ∧ c.dir.testBit 1 = true ∧ (!c.started.getLsbD 0) = true)) (dfeOf dRx (↑kD :
      Nat)).cmds) = some d → txPlane dRx (↑kD : Nat) < rampAt dRx (↑kD : Nat) d) ∧ (firstCmd (List.filter (fun c =>
      decide (3 ≤ c.op ∧ c.slot = (↑grp0 : Nat) ∧ c.dir.testBit 0 = true ∧ (!c.started.getLsbD 1) = true)) (dfeOf dRx
      (↑kD : Nat)).cmds) = some cRx) ∧ (cRx.tsw ≤ rxPlane dRx (↑kD : Nat))) ∧
    ((blockRuns dRun (dfePage (↑kD : Nat)) = true) ∧ ((envOf (dfeOf dRun (↑kD : Nat)) (↑grp0 : Nat)).ramp = some
      ramp0) ∧ (rampEndAt ramp0 ≤ txPlane dRun (↑kD : Nat))) ∧
    ((blockRuns dCarRun (dfePage (↑kD : Nat)) = true) ∧ ((txOf (dfeOf dCarRun (↑kD : Nat)) (↑grp0 : Nat)).ramp = some
      ramp0) ∧ (rampEndAt ramp0 ≤ txPlane dCarRun (↑kD : Nat))) ∧
    ((blockRuns dUp (dfePage (↑kD : Nat)) = true) ∧ ((leadDue dUp (↑kD : Nat) out0 || leadPast dUp (↑kD : Nat) out0)
      = true)) ∧
    ((blockRuns dLag (dfePage (↑kD : Nat)) = true) ∧ ((leadDue dLag (↑kD : Nat) out0 || covered dLag (↑kD : Nat) out0
      || lagKept dLag (↑kD : Nat) out0) = false) ∧ (∀ (t : Int), kget none (dfeOf dLag (↑kD : Nat)).lag (outNo out0)
      = some t → t ≤ devTime dLag)) := by
  repeat' apply And.intro
  all_goals first | decide +kernel | exact okIs_eq (by decide +kernel) | exact exIs_eq (by decide +kernel) | exact List.Mem.head _ | exact okRes_eq _ (by decide +kernel) | rfl

/-- The premises of the clauses of ChainStoreCompletes are met. -/
theorem wit_ChainStoreCompletes :
    ((reaches chS sv (dfePage (↑kD : Nat))) ∧ (chainSel chS (↑kD : Nat) = some c131)) ∧
    ((reaches chS sv (dfePage (↑kD : Nat))) ∧ (chainSel chS (↑kD : Nat) = some c131) ∧ (kup chS.regs = true)) ∧
    ((reaches chS sv (dfePage (↑kD : Nat))) ∧ (chainSel chS (↑kD : Nat) = some c131) ∧ (kup chS.regs = true) ∧
      (off1C4 ∈ chPending)) ∧
    ((blockRuns dSch (dfePage (↑kD : Nat)) = true) ∧ (List.find? (fun e => decide (e.fst = (↑c131f : Nat) ∧ e.snd.at_
      ≤ chainPlane dSch (↑kD : Nat) (↑c131f : Nat))) (dfeOf dSch (↑kD : Nat)).sched = some (c131, jNone))) ∧
    ((reaches chS sv (dfePage (↑kD : Nat))) ∧ (bankBusy chS (↑kD : Nat) (bits (getReg chS (dfePage (↑kD : Nat)) 576)
      2 0) = false) ∧ (bits (getReg chS (dfePage (↑kD : Nat)) 576) 12 8 < 24)) ∧
    ((blockRuns mirOn (dfePage (↑kD : Nat)) = true) ∧ (laneEdge mirOn (8 * (↑kD : Nat) + mirrorSource mirOn (↑kD :
      Nat) (↑kD : Nat) % 64 / 8) = true) ∧ (bits (chainReg mirOn (↑kD : Nat) 472 (128 + (↑kD : Nat)) 0) 1 0 = 2)) ∧
    ((blockRuns chS (dfePage (↑kD : Nat)) = true) ∧ (laneEdge chS (8 * (↑kD : Nat) + mirrorSource chS (↑kD : Nat)
      (↑kD : Nat) % 64 / 8) = true) ∧ (bits (chainReg chS (↑kD : Nat) 472 (128 + (↑kD : Nat)) 0) 1 0 ≠ 2)) := by
  repeat' apply And.intro
  all_goals first | decide +kernel | exact okIs_eq (by decide +kernel) | exact exIs_eq (by decide +kernel) | exact List.Mem.head _ | exact okRes_eq _ (by decide +kernel) | rfl

end C04

namespace C05

def syms (a b : Nat) : Word := BitVec.ofNat 32 (a * 256 + b * 4096)
def aDesc : Nat := 0x001000001000
/-- The bytes of a descriptor of block `blk`, kind `k`, with word 4 and word 5, owned by the block. -/
def descB (blk k : Nat) (w4 w5 : Word) : List Byte :=
  wordsBytes ([BitVec.ofNat 32 (0x80010000 + blk * 16 + k), 0, 0, 0, w4, w5] ++ List.replicate 10 0)
def fireO (k pool m : Nat) : FireRec :=
  ⟨1, 1, BitVec.ofNat 16 (k * 4096), 0, 0, 0, 0, false, 0, 0, 0, 0, BitVec.ofNat 4 pool, BitVec.ofNat 8 m, 0⟩
/-- The descriptor table of a block at the start of system SRAM. -/
def table (p : Nat) (s : State) : State := setReg (setReg (setEnabled s p true) p 0x100 0) p 0x104 0x10
def ofdmWith (k : Nat) (w5 : Word) : State :=
  setRegI (setBytes (table 0x0CC s0) aDesc (descB 0x016 k 0 w5)) 0x0CC 0x180 0 1
def ofdm1 : State := { ofdmWith 1 0 with arrived := [fireO 1 3 0] }
def ofdm2 : State := { ofdmWith 2 0 with arrived := [fireO 2 3 0] }
def ofdm3 : State := { ofdmWith 3 0 with arrived := [fireO 3 3 0] }
def ofdm4 : State := { ofdmWith 4 0 with arrived := [fireO 4 3 0] }
def ofdm5 : State := { ofdmWith 5 0 with arrived := [fireO 5 3 0] }
def ofdm6 : State := { ofdmWith 6 1000000 with arrived := [fireO 6 3 0] }
def ofdm7 : State := { ofdmWith 7 0 with arrived := [fireO 7 3 0] }
def fO1 : FireRec := fireO 1 3 0
def fO2 : FireRec := fireO 2 3 0
def fO3 : FireRec := fireO 3 3 0
def fO4 : FireRec := fireO 4 3 0
def fO5 : FireRec := fireO 5 3 0
def fO6 : FireRec := fireO 6 3 0
def fO7 : FireRec := fireO 7 3 0
def fetchU (s : State) (f : FireRec) : State :=
  (fetchDesc (takeArrived s f) 0x0CC aDesc 0x016 (fun kd len => kd = fireKind f && len = 1)).1
def gotW (k : Nat) (w5 : Word) : List Word := (List.range 16).map (wordAt (descB 0x016 k 0 w5))
def ofdm1u : State := fetchU ofdm1 fO1
def ofdm2u : State := fetchU ofdm2 fO2
def ofdm3u : State := fetchU ofdm3 fO3
def ofdm4u : State := fetchU ofdm4 fO4
def ofdm5u : State := fetchU ofdm5 fO5
def ofdm6u : State := fetchU ofdm6 fO6
def ofdm7u : State := fetchU ofdm7 fO7
def gw1 : List Word := gotW 1 0
def gw2 : List Word := gotW 2 0
def gw3 : List Word := gotW 3 0
def gw4 : List Word := gotW 4 0
def gw5 : List Word := gotW 5 0
def gw6 : List Word := gotW 6 1000000
def gw7 : List Word := gotW 7 0
def k0 : Fin 4 := 0
def i00 : Nat := 0
/-- IFFT_TX of no symbol. -/
def opNone : OfdmOp := ⟨fO2, 2, aDesc, [0, 0, 0, 0, 0x100], false, [], 0, [], [], [], none⟩
/-- IFFT_TX of symbol 0 with weights at an address that nothing answers. -/
def opHole : OfdmOp := ⟨fO2, 2, aDesc, [0, 0, 0, 0, 0, 0x00500000, 0x11], false, [], 0, [], [], [], some .badArg⟩
def ofOp (o : OfdmOp) : State := setOfdm s0 0 { OfdmSt.init with ops := [o] }
def sNone : State := ofOp opNone
def sHole : State := ofOp opHole
def emptied : State := setOfdm s0 0 OfdmSt.init
def outNone : OpOut := match runOfdm 0 opNone emptied with | .ok r _ => r | .error _ _ => OpOut.writes []
def errHole : OpErr := .badArg
def uHole : State := match runOfdm 0 opHole emptied with | .ok _ u => u | .error _ u => u
/-- CE with a NV_SRC that is refused. -/
def opBad : OfdmOp := ⟨fO3, 3, aDesc, [0, 0, 0, 0, 0, 0, 0, 0, 0, 0, 0, 0x3000], false, [], 0, [], [], [], none⟩
def sBad : State := ofOp opBad
/-- CE of no allocation in host-assisted mode. -/
def opHa : OfdmOp := ⟨fO3, 3, aDesc, [0, 0, 0, 0, 0, 0, 0, 0x00200000, 0x10], true, [], 0, [], [], [], none⟩
def ring0 (s : State) : State := setReg (setReg (setReg s 0x0CC 0x128 4) 0x0CC 0x120 0x00300000) 0x0CC 0x124 0x10
def sHa : State := ring0 (ofOp opHa)
def sHaFull : State := setReg sHa 0x0CC 0x12C 15
def eHa : State := ring0 (setOfdm s0 0 OfdmSt.init)
def rHa : OpOut := match runOfdm 0 opHa eHa with | .ok r _ => r | .error _ _ => ⟨[], 0, [], [], none, id, false⟩
def uHa : State := match runOfdm 0 opHa eHa with | .ok _ u => u | .error _ u => u
/-- FFT_RX of symbol 0 with weights, whose entry's other block, 1, has not sent its sums. -/
def opPeer : OfdmOp := ⟨fO1, 1, aDesc, [0, 0, 0, 0, 0, 0x00004000, 0x10], false, [], 0, [], [], [⟨0, 0, [], [], 0, 0, 0⟩], none⟩
def gotP : SymGot := ⟨0, 0, [], [], 0, 0, 0⟩
def y0 : Fin 14 := 0
def sPeer : State := 
  { setRegI (setRegI (setRegI (setRegI (ofOp opPeer) 0x0CC 0x18C 0 0x100) 0x0CD 0x18C 0 0) 0x0CD 0x180 0 1) 0x0CC 0x180 0 1 with
    time := { s0.time with acc := 2 ^ 32 * 20000000 } }
def sCarr : State := setRegI (setReg s0 0x000 0x108 0) 0x0CC 0x184 0 0x70100
def sCarrBad : State := setRegI s0 0x0CC 0x184 0 0xF0000
def tblF (k : Nat) : State := setBytes (table 0x0D0 s0) aDesc (descB 0x017 k 0 0)
def fecS1 : State := { tblF 1 with arrived := [fireO 1 2 0] }
def fecS2 : State := { tblF 2 with arrived := [fireO 2 2 0] }
def fecS3 : State := { tblF 3 with arrived := [fireO 3 2 0] }
def fecS4 : State := { tblF 4 with arrived := [fireO 4 2 0] }
def fecS5 : State := { tblF 5 with arrived := [fireO 5 2 0] }
def fecS6 : State := { tblF 6 with arrived := [fireO 6 2 0] }
def fF1 : FireRec := fireO 1 2 0
def fF2 : FireRec := fireO 2 2 0
def fF3 : FireRec := fireO 3 2 0
def fF4 : FireRec := fireO 4 2 0
def fF5 : FireRec := fireO 5 2 0
def fF6 : FireRec := fireO 6 2 0
def readU (s : State) (f : FireRec) : State := (memRead (takeArrived s f) 0x0D0 aDesc 64).1
def fecU1 : State := readU fecS1 fF1
def fecU2 : State := readU fecS2 fF2
def fecU3 : State := readU fecS3 fF3
def fecU4 : State := readU fecS4 fF4
def fecU5 : State := readU fecS5 fF5
def fecU6 : State := readU fecS6 fF6
def fb1 : List Byte := descB 0x017 1 0 0
def fb2 : List Byte := descB 0x017 2 0 0
def fb3 : List Byte := descB 0x017 3 0 0
def fb4 : List Byte := descB 0x017 4 0 0
def fb5 : List Byte := descB 0x017 5 0 0
def fb6 : List Byte := descB 0x017 6 0 0
def fec (n : Nat) (ops : List FecOp) : State := setFec (setReg s0 0x0D0 0x110 0x1FFFFFF) 0 ops
def fop (kind ph : Nat) (hq : List Word) : FecOp :=
  ⟨fF1, kind, aDesc, [], false, [{ FecUnit.init with ph := ph }], hq, none⟩
def e0 : Nat := 0
def fNew : State := fec 0 [fop 1 0 []]
def opHq (ph : Nat) : FecOp := { fop 1 ph [0] with words := [0, 0, 0, 0, 0x00010101] }
def fWait : State := fec 0 [opHq 1, opHq 0]
def j00 : Nat := 0
def i1 : Nat := 1
def e1 : Nat := 1
def op1 : FecOp := fop 1 1 []
def fRun : State := fec 0 [op1]
def fRunU : State := (combineCb fRun 0 op1 0).1
def seg1 : SegIn := match (combineCb fRun 0 op1 0).2 with | .ok x => x.1 | .error _ => SegIn.empty
def llr1 : List Int := match (combineCb fRun 0 op1 0).2 with | .ok x => x.2.1 | .error _ => []
def buf1 : List Int := match (combineCb fRun 0 op1 0).2 with | .ok x => x.2.2 | .error _ => []
def op6 : FecOp := { fop 6 1 [] with words := [0, 0, 0, 0, 0, 0, 0x10] }
def fEnc : State := fec 0 [op6]
def out6 : UnitOut := match encodeUnit 0 op6 0 fEnc with | .ok o _ => o | .error _ _ => ⟨[], 0, 0, 0, [], []⟩
def fEncU : State := match encodeUnit 0 op6 0 fEnc with | .ok _ u => u | .error _ u => u
def eng0 : Fin 25 := 0
def op5 : FecOp := { fop 5 1 [] with words := [0, 0, 0, 0, 0, 0x00002000, 0x10] }
def pRec : List Byte := wordsBytes [0x00200020, 0x00080000, 0x00003000, 0x10, 0x00004000, 0x10, 0, 0]
def fPol : State := setBytes (fec 0 [op5]) 0x001000002000 pRec
def polU : State := (memRead fPol 0x0D0 0x001000002000 32).1
def polV : State := (memRead polU 0x0D0 0x001000004000 32).1
def polD : List Byte := List.replicate 32 0

/-- The premises of the clauses of OfdmTakesFires are met. -/
theorem wit_OfdmTakesFires :
    ((fO1.pool = 3) ∧ (fO1.member.toNat < 4) ∧ (fO1 ∈ ofdm1.arrived) ∧ (pageClock ofdm1 (ofdmPage fO1.member.toNat) =
      true) ∧ (∀ (x : Nat × FireRec), x ∈ ofdm1.unowned → x.fst ≠ ofdmPage fO1.member.toNat) ∧ (enabled ofdm1
      (ofdmPage fO1.member.toNat) = true) ∧ ((fetchDesc (takeArrived ofdm1 fO1) (ofdmPage fO1.member.toNat) (descAddr
      (getPair ofdm1 (ofdmPage fO1.member.toNat) 256 22) fO1) 22 fun kd len => decide (kd = fireKind fO1) && decide
      (len = 1)) = (ofdm1u, Fetch.got gw1)) ∧ (bit (carrReg ofdm1u fO1.member.toNat 384 (opEntry gw1)) 0 = true) ∧
      (fireKind fO1 = 1) ∧ (∀ (y : Nat), y ∈ opSyms gw1 → sampleNow ofdm1u fO1.member.toNat (opEntry gw1) (numer
      ofdm1u fO1.member.toNat (opEntry gw1)) false < (numer ofdm1u fO1.member.toNat (opEntry gw1)).start (slotNow
      ofdm1u fO1.member.toNat (opEntry gw1) (numer ofdm1u fO1.member.toNat (opEntry gw1)) 1 gw1 * (↑(numer ofdm1u
      fO1.member.toNat (opEntry gw1)).perSlot : Int) + (↑y : Int) + 2))) ∧
    ((fO2.pool = 3) ∧ (fO2.member.toNat < 4) ∧ (fO2 ∈ ofdm2.arrived) ∧ (pageClock ofdm2 (ofdmPage fO2.member.toNat) =
      true) ∧ (∀ (x : Nat × FireRec), x ∈ ofdm2.unowned → x.fst ≠ ofdmPage fO2.member.toNat) ∧ (enabled ofdm2
      (ofdmPage fO2.member.toNat) = true) ∧ ((fetchDesc (takeArrived ofdm2 fO2) (ofdmPage fO2.member.toNat) (descAddr
      (getPair ofdm2 (ofdmPage fO2.member.toNat) 256 22) fO2) 22 fun kd len => decide (kd = fireKind fO2) && decide
      (len = 1)) = (ofdm2u, Fetch.got gw2)) ∧ (bit (carrReg ofdm2u fO2.member.toNat 384 (opEntry gw2)) 0 = true) ∧
      (fireKind fO2 = 2)) ∧
    ((fO3.pool = 3) ∧ (fO3.member.toNat < 4) ∧ (fO3 ∈ ofdm3.arrived) ∧ (pageClock ofdm3 (ofdmPage fO3.member.toNat) =
      true) ∧ (∀ (x : Nat × FireRec), x ∈ ofdm3.unowned → x.fst ≠ ofdmPage fO3.member.toNat) ∧ (enabled ofdm3
      (ofdmPage fO3.member.toNat) = true) ∧ ((fetchDesc (takeArrived ofdm3 fO3) (ofdmPage fO3.member.toNat) (descAddr
      (getPair ofdm3 (ofdmPage fO3.member.toNat) 256 22) fO3) 22 fun kd len => decide (kd = fireKind fO3) && decide
      (len = 1)) = (ofdm3u, Fetch.got gw3)) ∧ (bit (carrReg ofdm3u fO3.member.toNat 384 (opEntry gw3)) 0 = true) ∧
      (fireKind fO3 = 3)) ∧
    ((fO4.pool = 3) ∧ (fO4.member.toNat < 4) ∧ (fO4 ∈ ofdm4.arrived) ∧ (pageClock ofdm4 (ofdmPage fO4.member.toNat) =
      true) ∧ (∀ (x : Nat × FireRec), x ∈ ofdm4.unowned → x.fst ≠ ofdmPage fO4.member.toNat) ∧ (enabled ofdm4
      (ofdmPage fO4.member.toNat) = true) ∧ ((fetchDesc (takeArrived ofdm4 fO4) (ofdmPage fO4.member.toNat) (descAddr
      (getPair ofdm4 (ofdmPage fO4.member.toNat) 256 22) fO4) 22 fun kd len => decide (kd = fireKind fO4) && decide
      (len = 1)) = (ofdm4u, Fetch.got gw4)) ∧ (bit (carrReg ofdm4u fO4.member.toNat 384 (opEntry gw4)) 0 = true) ∧
      (fireKind fO4 = 4)) ∧
    ((fO5.pool = 3) ∧ (fO5.member.toNat < 4) ∧ (fO5 ∈ ofdm5.arrived) ∧ (pageClock ofdm5 (ofdmPage fO5.member.toNat) =
      true) ∧ (∀ (x : Nat × FireRec), x ∈ ofdm5.unowned → x.fst ≠ ofdmPage fO5.member.toNat) ∧ (enabled ofdm5
      (ofdmPage fO5.member.toNat) = true) ∧ ((fetchDesc (takeArrived ofdm5 fO5) (ofdmPage fO5.member.toNat) (descAddr
      (getPair ofdm5 (ofdmPage fO5.member.toNat) 256 22) fO5) 22 fun kd len => decide (kd = fireKind fO5) && decide
      (len = 1)) = (ofdm5u, Fetch.got gw5)) ∧ (bit (carrReg ofdm5u fO5.member.toNat 384 (opEntry gw5)) 0 = true) ∧
      (fireKind fO5 = 5)) ∧
    ((fO6.pool = 3) ∧ (fO6.member.toNat < 4) ∧ (fO6 ∈ ofdm6.arrived) ∧ (pageClock ofdm6 (ofdmPage fO6.member.toNat) =
      true) ∧ (∀ (x : Nat × FireRec), x ∈ ofdm6.unowned → x.fst ≠ ofdmPage fO6.member.toNat) ∧ (enabled ofdm6
      (ofdmPage fO6.member.toNat) = true) ∧ ((fetchDesc (takeArrived ofdm6 fO6) (ofdmPage fO6.member.toNat) (descAddr
      (getPair ofdm6 (ofdmPage fO6.member.toNat) 256 22) fO6) 22 fun kd len => decide (kd = fireKind fO6) && decide
      (len = 1)) = (ofdm6u, Fetch.got gw6)) ∧ (bit (carrReg ofdm6u fO6.member.toNat 384 (opEntry gw6)) 0 = true) ∧
      (fireKind fO6 = 6) ∧ (sinceTarget ofdm6u (wWord gw6 5) ≤ 0)) ∧
    ((fO7.pool = 3) ∧ (fO7.member.toNat < 4) ∧ (fO7 ∈ ofdm7.arrived) ∧ (pageClock ofdm7 (ofdmPage fO7.member.toNat) =
      true) ∧ (∀ (x : Nat × FireRec), x ∈ ofdm7.unowned → x.fst ≠ ofdmPage fO7.member.toNat) ∧ (enabled ofdm7
      (ofdmPage fO7.member.toNat) = true) ∧ ((fetchDesc (takeArrived ofdm7 fO7) (ofdmPage fO7.member.toNat) (descAddr
      (getPair ofdm7 (ofdmPage fO7.member.toNat) 256 22) fO7) 22 fun kd len => decide (kd = fireKind fO7) && decide
      (len = 1)) = (ofdm7u, Fetch.got gw7)) ∧ (bit (carrReg ofdm7u fO7.member.toNat 384 (opEntry gw7)) 0 = true) ∧
      (fireKind fO7 = 7)) := by
  repeat' apply And.intro
  all_goals first | decide +kernel | exact okIs_eq (by decide +kernel) | exact exIs_eq (by decide +kernel) | exact List.Mem.head _ | exact okRes_eq _ (by decide +kernel) | rfl

/-- The premises of the clauses of OfdmCommandsComplete are met. -/
theorem wit_OfdmCommandsComplete :
    ((blockRuns sHaFull (ofdmPage (↑k0 : Nat)) = true) ∧ (sHaFull.memc.fc = none) ∧ (dramClock sHaFull = true) ∧
      ((ofdmOf sHaFull (↑k0 : Nat)).ops[i00]? = some opHa) ∧ (symsDue sHaFull (↑k0 : Nat) opHa = []) ∧ (ofdmReady
      sHaFull (↑k0 : Nat) i00 opHa = true) ∧ ((opHa.ha && decide (opHa.kind = 3)) = true) ∧ (Ring.full sHaFull
      (ofdmRing (↑k0 : Nat)) = true)) ∧
    ((blockRuns sHole (ofdmPage (↑k0 : Nat)) = true) ∧ (sHole.memc.fc = none) ∧ (dramClock sHole = true) ∧ ((ofdmOf
      sHole (↑k0 : Nat)).ops[i00]? = some opHole) ∧ (symsDue sHole (↑k0 : Nat) opHole = []) ∧ (ofdmReady sHole (↑k0 :
      Nat) i00 opHole = true) ∧ ((opHole.ha && decide (opHole.kind = 3) && Ring.full sHole (ofdmRing (↑k0 : Nat))) =
      false) ∧ (opHole.bad = some errHole)) ∧
    ((blockRuns sNone (ofdmPage (↑k0 : Nat)) = true) ∧ (sNone.memc.fc = none) ∧ (dramClock sNone = true) ∧ ((ofdmOf
      sNone (↑k0 : Nat)).ops[i00]? = some opNone) ∧ (symsDue sNone (↑k0 : Nat) opNone = []) ∧ (ofdmReady sNone (↑k0 :
      Nat) i00 opNone = true) ∧ ((opNone.ha && decide (opNone.kind = 3) && Ring.full sNone (ofdmRing (↑k0 : Nat))) =
      false) ∧ (opNone.bad = none) ∧ (runOfdm (↑k0 : Nat) opNone (setOfdm sNone (↑k0 : Nat)
      { (ofdmOf sNone (↑k0 : Nat)) with ops := (dropAt (ofdmOf sNone (↑k0 : Nat)).ops i00) : OfdmSt }) =
      EStateM.Result.ok outNone emptied) ∧ ((opNone.ha && decide (opNone.kind = 3)) = false)) ∧
    ((blockRuns sHa (ofdmPage (↑k0 : Nat)) = true) ∧ (sHa.memc.fc = none) ∧ (dramClock sHa = true) ∧ ((ofdmOf sHa
      (↑k0 : Nat)).ops[i00]? = some opHa) ∧ (symsDue sHa (↑k0 : Nat) opHa = []) ∧ (ofdmReady sHa (↑k0 : Nat) i00 opHa
      = true) ∧ ((opHa.ha && decide (opHa.kind = 3) && Ring.full sHa (ofdmRing (↑k0 : Nat))) = false) ∧ (opHa.bad =
      none) ∧ (runOfdm (↑k0 : Nat) opHa (setOfdm sHa (↑k0 : Nat)
      { (ofdmOf sHa (↑k0 : Nat)) with ops := (dropAt (ofdmOf sHa (↑k0 : Nat)).ops i00) : OfdmSt }) =
      EStateM.Result.ok rHa uHa) ∧ ((opHa.ha && decide (opHa.kind = 3)) = true) ∧ (4 ≤ bits (getReg uHa (ofdmPage
      (↑k0 : Nat)) 296) 4 0) ∧ (bits (getReg uHa (ofdmPage (↑k0 : Nat)) 296) 4 0 ≤ 12)) ∧
    ((blockRuns sBad (ofdmPage (↑k0 : Nat)) = true) ∧ (sBad.memc.fc = none) ∧ (dramClock sBad = true) ∧ ((ofdmOf sBad
      (↑k0 : Nat)).ops[i00]? = some opBad) ∧ (symsDue sBad (↑k0 : Nat) opBad = []) ∧ (ofdmReady sBad (↑k0 : Nat) i00
      opBad = true) ∧ ((opBad.ha && decide (opBad.kind = 3) && Ring.full sBad (ofdmRing (↑k0 : Nat))) = false) ∧
      (opBad.bad = none) ∧ (runOfdm (↑k0 : Nat) opBad (setOfdm sBad (↑k0 : Nat)
      { (ofdmOf sBad (↑k0 : Nat)) with ops := (dropAt (ofdmOf sBad (↑k0 : Nat)).ops i00) : OfdmSt }) =
      EStateM.Result.error errHole emptied)) ∧
    ((blockRuns sPeer (ofdmPage (↑k0 : Nat)) = true) ∧ ((ofdmOf sPeer (↑k0 : Nat)).ops[i00]? = some opPeer) ∧
      (opPeer.kind = 1) ∧ (opWset opPeer ≠ 0) ∧ (List.find? (fun g => decide (g.y = (↑y0 : Nat))) opPeer.got = some
      gotP) ∧ (gotP.at_ + ((((numer sPeer (↑k0 : Nat) (opEntry opPeer.words)).prefix (opSym (numer sPeer (↑k0 : Nat)
      (opEntry opPeer.words)) opPeer (↑y0 : Nat)) + (numer sPeer (↑k0 : Nat) (opEntry opPeer.words)).n) * msUnits /
      (numer sPeer (↑k0 : Nat) (opEntry opPeer.words)).rate : Nat) : Int) ≤ devTime sPeer) ∧ (List.filter (fun j =>
      !opPeer.missing.contains ((↑y0 : Nat), j) && (partialOf sPeer (↑k0 : Nat) (bits (carrReg sPeer (↑k0 : Nat) 384
      (opEntry opPeer.words)) 15 8) (opSym (numer sPeer (↑k0 : Nat) (opEntry opPeer.words)) opPeer (↑y0 : Nat))
      j).isNone) (peersOf sPeer (↑k0 : Nat) (opEntry opPeer.words)) ≠ [])) ∧
    ((reaches sNone sv (ofdmPage (↑k0 : Nat))) ∧ (bit (carrReg sNone (↑k0 : Nat) 384 (bits (getReg sNone (ofdmPage
      (↑k0 : Nat)) 264) 5 0)) 0 = false) ∧ (carrOk sNone (↑k0 : Nat) (bits (getReg sNone (ofdmPage (↑k0 : Nat)) 264)
      5 0) = true)) ∧
    ((reaches sCarrBad sv (ofdmPage (↑k0 : Nat))) ∧ (bit (carrReg sCarrBad (↑k0 : Nat) 384 (bits (getReg sCarrBad
      (ofdmPage (↑k0 : Nat)) 264) 5 0)) 0 = false) ∧ (carrOk sCarrBad (↑k0 : Nat) (bits (getReg sCarrBad (ofdmPage
      (↑k0 : Nat)) 264) 5 0) = false)) ∧
    ((reaches sNone sv (ofdmPage (↑k0 : Nat)))) := by
  repeat' apply And.intro
  all_goals first | decide +kernel | exact okIs_eq (by decide +kernel) | exact exIs_eq (by decide +kernel) | exact List.Mem.head _ | exact okRes_eq _ (by decide +kernel) | rfl

/-- The premises of the clauses of FecCommandsComplete are met. -/
theorem wit_FecCommandsComplete :
    ((fF1.pool = 2) ∧ (fF1.member.toNat < 4) ∧ (fF1 ∈ fecS1.arrived) ∧ (pageClock fecS1 (fecPage fF1.member.toNat) =
      true) ∧ (∀ (x : Nat × FireRec), x ∈ fecS1.unowned → x.fst ≠ fecPage fF1.member.toNat) ∧ (enabled fecS1 (fecPage
      fF1.member.toNat) = true) ∧ (memRead (takeArrived fecS1 fF1) (fecPage fF1.member.toNat) (descAddr (getPair
      fecS1 (fecPage fF1.member.toNat) 256 22) fF1) 64 = (fecU1, Resp.ok, fb1)) ∧ (bit (wordAt fb1 0) 31 = true) ∧
      (bits (wordAt fb1 0) 23 16 = 1) ∧ (bits (wordAt fb1 0) 15 4 = 23) ∧ (bits (wordAt fb1 0) 3 0 = fireKind fF1) ∧
      (fireKind fF1 = 1)) ∧
    ((fF2.pool = 2) ∧ (fF2.member.toNat < 4) ∧ (fF2 ∈ fecS2.arrived) ∧ (pageClock fecS2 (fecPage fF2.member.toNat) =
      true) ∧ (∀ (x : Nat × FireRec), x ∈ fecS2.unowned → x.fst ≠ fecPage fF2.member.toNat) ∧ (enabled fecS2 (fecPage
      fF2.member.toNat) = true) ∧ (memRead (takeArrived fecS2 fF2) (fecPage fF2.member.toNat) (descAddr (getPair
      fecS2 (fecPage fF2.member.toNat) 256 22) fF2) 64 = (fecU2, Resp.ok, fb2)) ∧ (bit (wordAt fb2 0) 31 = true) ∧
      (bits (wordAt fb2 0) 23 16 = 1) ∧ (bits (wordAt fb2 0) 15 4 = 23) ∧ (bits (wordAt fb2 0) 3 0 = fireKind fF2) ∧
      (fireKind fF2 = 2)) ∧
    ((fF3.pool = 2) ∧ (fF3.member.toNat < 4) ∧ (fF3 ∈ fecS3.arrived) ∧ (pageClock fecS3 (fecPage fF3.member.toNat) =
      true) ∧ (∀ (x : Nat × FireRec), x ∈ fecS3.unowned → x.fst ≠ fecPage fF3.member.toNat) ∧ (enabled fecS3 (fecPage
      fF3.member.toNat) = true) ∧ (memRead (takeArrived fecS3 fF3) (fecPage fF3.member.toNat) (descAddr (getPair
      fecS3 (fecPage fF3.member.toNat) 256 22) fF3) 64 = (fecU3, Resp.ok, fb3)) ∧ (bit (wordAt fb3 0) 31 = true) ∧
      (bits (wordAt fb3 0) 23 16 = 1) ∧ (bits (wordAt fb3 0) 15 4 = 23) ∧ (bits (wordAt fb3 0) 3 0 = fireKind fF3) ∧
      (fireKind fF3 = 3)) ∧
    ((fF4.pool = 2) ∧ (fF4.member.toNat < 4) ∧ (fF4 ∈ fecS4.arrived) ∧ (pageClock fecS4 (fecPage fF4.member.toNat) =
      true) ∧ (∀ (x : Nat × FireRec), x ∈ fecS4.unowned → x.fst ≠ fecPage fF4.member.toNat) ∧ (enabled fecS4 (fecPage
      fF4.member.toNat) = true) ∧ (memRead (takeArrived fecS4 fF4) (fecPage fF4.member.toNat) (descAddr (getPair
      fecS4 (fecPage fF4.member.toNat) 256 22) fF4) 64 = (fecU4, Resp.ok, fb4)) ∧ (bit (wordAt fb4 0) 31 = true) ∧
      (bits (wordAt fb4 0) 23 16 = 1) ∧ (bits (wordAt fb4 0) 15 4 = 23) ∧ (bits (wordAt fb4 0) 3 0 = fireKind fF4) ∧
      (fireKind fF4 = 4)) ∧
    ((fF5.pool = 2) ∧ (fF5.member.toNat < 4) ∧ (fF5 ∈ fecS5.arrived) ∧ (pageClock fecS5 (fecPage fF5.member.toNat) =
      true) ∧ (∀ (x : Nat × FireRec), x ∈ fecS5.unowned → x.fst ≠ fecPage fF5.member.toNat) ∧ (enabled fecS5 (fecPage
      fF5.member.toNat) = true) ∧ (memRead (takeArrived fecS5 fF5) (fecPage fF5.member.toNat) (descAddr (getPair
      fecS5 (fecPage fF5.member.toNat) 256 22) fF5) 64 = (fecU5, Resp.ok, fb5)) ∧ (bit (wordAt fb5 0) 31 = true) ∧
      (bits (wordAt fb5 0) 23 16 = 1) ∧ (bits (wordAt fb5 0) 15 4 = 23) ∧ (bits (wordAt fb5 0) 3 0 = fireKind fF5) ∧
      (fireKind fF5 = 5)) ∧
    ((fF6.pool = 2) ∧ (fF6.member.toNat < 4) ∧ (fF6 ∈ fecS6.arrived) ∧ (pageClock fecS6 (fecPage fF6.member.toNat) =
      true) ∧ (∀ (x : Nat × FireRec), x ∈ fecS6.unowned → x.fst ≠ fecPage fF6.member.toNat) ∧ (enabled fecS6 (fecPage
      fF6.member.toNat) = true) ∧ (memRead (takeArrived fecS6 fF6) (fecPage fF6.member.toNat) (descAddr (getPair
      fecS6 (fecPage fF6.member.toNat) 256 22) fF6) 64 = (fecU6, Resp.ok, fb6)) ∧ (bit (wordAt fb6 0) 31 = true) ∧
      (bits (wordAt fb6 0) 23 16 = 1) ∧ (bits (wordAt fb6 0) 15 4 = 23) ∧ (bits (wordAt fb6 0) 3 0 = fireKind fF6) ∧
      (fireKind fF6 = 6)) ∧
    ((blockRuns fNew (fecPage (↑k0 : Nat)) = true) ∧ (nextUnit (fecOps fNew (↑k0 : Nat)) (↑k0 : Nat) = some (i00,
      i00)) ∧ (List.find? (fun e => bit (getReg fNew (fecPage (↑k0 : Nat)) 272) e && !(busyEngines fNew (↑k0 :
      Nat)).contains e) (engines (↑k0 : Nat)) = some i00) ∧ (hqWaits (fecOps fNew (↑k0 : Nat)) i00 i00 = false)) ∧
    ((blockRuns fWait (fecPage (↑k0 : Nat)) = true) ∧ (nextUnit (fecOps fWait (↑k0 : Nat)) (↑k0 : Nat) = some (i1,
      i00)) ∧ (List.find? (fun e => bit (getReg fWait (fecPage (↑k0 : Nat)) 272) e && !(busyEngines fWait (↑k0 :
      Nat)).contains e) (engines (↑k0 : Nat)) = some i1) ∧ (hqWaits (fecOps fWait (↑k0 : Nat)) i1 i00 = true) ∧
      ((((fecOps fWait (↑k0 : Nat))[i1]?.bind fun o => o.units[i00]?).getD FecUnit.init).waited = false)) ∧
    ((blockRuns fRun (fecPage (↑k0 : Nat)) = true) ∧ (fRun.memc.fc = none) ∧ (dramClock fRun = true) ∧
      (List.findSome? (fun x => match x with | (o, j) => Option.map (fun x => (j, x.snd, o)) (List.find? (fun x =>
      decide (x.fst.ph = 1 ∧ x.fst.eng = (↑eng0 : Nat))) o.units.zipIdx)) (fecOps fRun (↑k0 : Nat)).zipIdx = some
      (i00, i00, op1)) ∧ (op1.kind = 1 ∨ op1.kind = 3) ∧ (op1.ha = false) ∧ (combineCb fRun (↑k0 : Nat) op1 i00 =
      (fRun, Except.ok (seg1, llr1, llr1)))) ∧
    ((blockRuns fPol (fecPage (↑k0 : Nat)) = true) ∧ (fPol.memc.fc = none) ∧ (dramClock fPol = true) ∧
      (List.findSome? (fun x => match x with | (o, j) => Option.map (fun x => (j, x.snd, o)) (List.find? (fun x =>
      decide (x.fst.ph = 1 ∧ x.fst.eng = (↑eng0 : Nat))) o.units.zipIdx)) (fecOps fPol (↑k0 : Nat)).zipIdx = some
      (i00, i00, op5)) ∧ (op5.kind = 5) ∧ (op5.ha = false) ∧ (memRead fPol (fecPage (↑k0 : Nat)) (wAddr op5.words 5 +
      32 * i00) 32 = (polU, Resp.ok, pRec)) ∧ (memRead polU (fecPage (↑k0 : Nat)) (wAddr (List.map (wordAt pRec)
      (List.range 8)) 2) (bits (wWord (List.map (wordAt pRec) (List.range 8)) 0) 15 0) = (polV, Resp.ok, polD))) ∧
    ((blockRuns fEnc (fecPage (↑k0 : Nat)) = true) ∧ (fEnc.memc.fc = none) ∧ (dramClock fEnc = true) ∧
      (List.findSome? (fun x => match x with | (o, j) => Option.map (fun x => (j, x.snd, o)) (List.find? (fun x =>
      decide (x.fst.ph = 1 ∧ x.fst.eng = (↑eng0 : Nat))) o.units.zipIdx)) (fecOps fEnc (↑k0 : Nat)).zipIdx = some
      (i00, i00, op6)) ∧ (op6.kind = 2 ∨ op6.kind = 4 ∨ op6.kind = 6) ∧ (encodeUnit (↑k0 : Nat) op6 i00 fEnc =
      EStateM.Result.ok out6 fEncU)) ∧
    ((blockRuns fRun (fecPage (↑k0 : Nat)) = true) ∧ (fRun.memc.fc = none) ∧ (dramClock fRun = true) ∧
      (List.findSome? (fun x => match x with | (o, j) => Option.map (fun x => (j, x.snd, o)) (List.find? (fun x =>
      decide (x.fst.ph = 1 ∧ x.fst.eng = (↑eng0 : Nat))) o.units.zipIdx)) (fecOps fRun (↑k0 : Nat)).zipIdx = some
      (i00, i00, op1))) := by
  repeat' apply And.intro
  all_goals first | decide +kernel | exact okIs_eq (by decide +kernel) | exact exIs_eq (by decide +kernel) | exact List.Mem.head _ | exact okRes_eq _ (by decide +kernel) | rfl

end C05

namespace C07

def kp : Fin 4 := 0
def i4 : Fin 4 := 0
def holdT (off : Nat) (v : Word) : State := { s0 with holdWr := [((0x00B * 4096 + off) * 4 + accPath sv, some v)] }
def tsHalf : State := holdT 0x190 5
def tsLo : Option Word := some 5
def tsHi : Word := 0
def tsHiAll : Word := 0xFFFFFFFF
def tsU : State := (takeLo tsHalf sv 0x00B 0x190).2
def prOn (s : State) : State := setEnabled s 0x00B true
def tapWith (t : TapSt) : State := setTap (prOn s0) 0 t
def prs : State := prOn s0
/-- A tap of no stream, with the samples of a frame past. -/
def tapFrame : State := { tapWith { TapSt.init with mask := 0 } with time := { s0.time with made := 8190, free := 8190 } }
def tapEarly : State := tapWith { TapSt.init with mask := 0 }
def smp0 : DetSample := ⟨0, 0, 0, false⟩
def haBuf : HaChan := ⟨[], List.replicate 1024 smp0⟩
def tapDue : State := tapWith { TapSt.init with due := true, frames := 4 }
def tapHa : State := setHaChan ( setReg (setReg (modReg prs 0x00B 0x10 fun w => putBit w 3 true) 0x00B 0x0C 0x100) 0x00B 0x1B4 1) 0 haBuf
def tapHaFull : State := setReg tapHa 0x00B 0x150 1
def j32 : Fin 32 := 0
def q8 : Fin 8 := 0
def str0 : Nat := 0
def dt : Fin 64 := 0
/-- Detector 0 with a template of 16 and a capture of 32 samples. -/
def detS (en : Bool) : State := setDet (setDet (setDet (setDet (setDet prs 0 0 (if en then 1 else 0)) 0 0xC 0x00100000) 0 0x20 0x10) 0 0x1C 0) 0 0x18 0
def detA : State := detS true
def detB : State := detS false
def detBad : State := setDet prs 0 0xC 0
def dS1 : State := setDet detB 0 0 (putBit v32 0 true &&& 0x3FFE)
def dU : State := (memRead dS1 0x00B 0x0013007C0000 64).1
def dBytes : List Byte := (memRead dS1 0x00B 0x0013007C0000 64).2.2
def found : DetFound := ⟨0, 0, 3, 0, 0x300, 0⟩
def detF : State := setPrism detA { detA.prism with found := [found] }
def b0 : Nat := 0
def cap (conf : Bool) (bg : Rat) : Capture := ⟨0, 0, 0x300, 0, 0, 0, bg, false, conf, 0, 0, none⟩
def det20 : DetSt := { DetSt.init with log := (List.range 20).map fun (i : Nat) => ⟨19 - (i : Int), 0, 0x4000, false⟩ }
def capRun : Capture := cap false 1
def capConf : Capture := cap true (1 / 1000)
def capWeak : Capture := cap true 1
def withCap (c : Capture) : State := setDetSt (setPrism { detA with time := { s0.time with acc := 2 ^ 32 * 100000000 } } { detA.prism with caps := [c], held := [0] }) 0 det20
def sRun : State := withCap capRun
def sConf : State := setDet (withCap capConf) 0 0x18 0x01000001
def sWeak : State := setDet (withCap capWeak) 0 0x18 0x01000001
def fireP (op : Nat) (p0 : BitVec 64) : FireRec := ⟨1, 5, BitVec.ofNat 16 op, 0, 0, 0, 0, false, p0, 0, 0, 0, 5, 0, 0⟩
def fIdle : FireRec := fireP 1 0x0000000000FF000F
def fForce : FireRec := fireP 2 (2 ^ 32 * 100000000)
def fClose : FireRec := fireP 3 0x1
def fClose0 : FireRec := fireP 3 0
def prsOf (f : FireRec) (s : State) : State := { s with arrived := [f] }
def sF1 : State := prsOf fIdle prs
def sF2 : State := prsOf fForce sRun
def sF3 : State := prsOf fClose prs
def sF4 : State := prsOf fClose0 prs
def idleCmd : PrismCmd := ⟨fIdle, 1, 0, 1000, 1⟩
def sIdle : State := setPrism { prs with time := { s0.time with acc := 2 ^ 32 * 10 } } { prs.prism with cmds := [idleCmd] }
def ip0 : Nat := 0
def mode1 : State := setCh s0 0 0x1D8 128 0 1
def calR : CalRun := ⟨0, 0, 0, 0, 0x001000000000, 0, 0⟩
def duS : State := setReg s0 0x000 0x108 2
def calRun1 : State := setCal s0 0 0 (some calR)
def c16 : Fin 16 := 0
def mapNew : Word := 0x86543210
def mapSame : Word := 0x76543210
def copyW : Word := 0x00000781
def copying : State := { s0 with spareJobs := [(0, some 0x78)] }
def job : Nat := 0x78
def tapPut : State := (maskStreams (tapOf tapDue 0).mask).zipIdx.foldl (fun s (str, j) => putSpec 0 j str (putSpec 0 j str s false) true) tapDue

/-- The premises of the clauses of PrismTapsComplete are met. -/
theorem wit_PrismTapsComplete :
    ((reaches tsHalf sv prismPage)) ∧
    ((reaches tsHalf sv prismPage) ∧ (takeLo tsHalf sv prismPage (384 + 64 * (↑kp : Nat) + 16 + 8 * (↑kp : Nat)) =
      (tsLo, tsU)) ∧ ((maskStreams (BitVec.ofNat 64 (BitVec.toNat (tsLo.getD (getReg tsU prismPage (384 + 64 * (↑kp :
      Nat) + 16 + 8 * (↑kp : Nat)))) + 2 ^ 32 * BitVec.toNat tsHi))).length ≤ 32)) ∧
    ((reaches tsHalf sv prismPage) ∧ (takeLo tsHalf sv prismPage (384 + 64 * (↑kp : Nat) + 16 + 8 * (↑kp : Nat)) =
      (tsLo, tsU)) ∧ (32 < (maskStreams (BitVec.ofNat 64 (BitVec.toNat (tsLo.getD (getReg tsU prismPage (384 + 64 *
      (↑kp : Nat) + 16 + 8 * (↑kp : Nat)))) + 2 ^ 32 * BitVec.toNat tsHiAll))).length)) ∧
    ((blockRuns prs prismPage = true) ∧ (haTap prs (↑kp : Nat) = false) ∧ ((tapOf prs (↑kp : Nat)).due = false) ∧
      ((enabled prs prismPage || (tapOf prs (↑kp : Nat)).closeReq) = true)) ∧
    ((blockRuns tapFrame prismPage = true) ∧ (haTap tapFrame (↑kp : Nat) = false) ∧ ((tapOf tapFrame (↑kp : Nat)).due
      = false) ∧ ((enabled tapFrame prismPage || (tapOf tapFrame (↑kp : Nat)).closeReq) = true) ∧ (frameStart (tapOf
      tapFrame (↑kp : Nat)) ≤ laneNo tapFrame (↑kp : Nat) + ((2 ^ nbinLog (tapOf tapFrame (↑kp : Nat)).cfg : Nat) :
      Int)) ∧ (frameStart (tapOf tapFrame (↑kp : Nat)) + ((2 ^ nbinLog (tapOf tapFrame (↑kp : Nat)).cfg : Nat) : Int)
      ≤ laneNo tapFrame (↑kp : Nat) + 1)) ∧
    ((blockRuns tapEarly prismPage = true) ∧ (haTap tapEarly (↑kp : Nat) = false) ∧ ((tapOf tapEarly (↑kp : Nat)).due
      = false) ∧ ((enabled tapEarly prismPage || (tapOf tapEarly (↑kp : Nat)).closeReq) = true) ∧ (frameStart (tapOf
      tapEarly (↑kp : Nat)) ≤ laneNo tapEarly (↑kp : Nat) + ((2 ^ nbinLog (tapOf tapEarly (↑kp : Nat)).cfg : Nat) :
      Int)) ∧ (laneNo tapEarly (↑kp : Nat) + 1 < frameStart (tapOf tapEarly (↑kp : Nat)) + ((2 ^ nbinLog (tapOf
      tapEarly (↑kp : Nat)).cfg : Nat) : Int))) ∧
    ((blockRuns tapDue prismPage = true) ∧ ((tapOf tapDue (↑kp : Nat)).due = true) ∧ (bits (tapReg tapDue (↑kp : Nat)
      0) 25 24 = 0) ∧ (bits (tapReg tapPut (↑kp : Nat) 0) 25 24 = 0) ∧ (nbinLog (tapReg tapPut (↑kp : Nat) 0) =
      nbinLog (tapOf tapPut (↑kp : Nat)).cfg) ∧ (tapSet (setTap tapPut (↑kp : Nat)
      { (tapOf tapPut (↑kp : Nat)) with cfg := (tapReg tapPut (↑kp : Nat) 0), set := 0, dwell := 0, ints := (((tapOf tapPut (↑kp : Nat)).ints + 1) % 65536), frames := 0, due := false, closeReq := false, chans := (List.foldl (fun m j => kset ChanAcc.init m j { ChanAcc.init with err := ((chanOf (tapOf tapPut (↑kp : Nat)) j).err), settle := ((chanOf (tapOf tapPut (↑kp : Nat)) j).settle) : ChanAcc }) [] (List.range 32)) : TapSt })
      (↑kp : Nat) 0 = (tapOf (setTap tapPut (↑kp : Nat)
      { (tapOf tapPut (↑kp : Nat)) with cfg := (tapReg tapPut (↑kp : Nat) 0), set := 0, dwell := 0, ints := (((tapOf tapPut (↑kp : Nat)).ints + 1) % 65536), frames := 0, due := false, closeReq := false, chans := (List.foldl (fun m j => kset ChanAcc.init m j { ChanAcc.init with err := ((chanOf (tapOf tapPut (↑kp : Nat)) j).err), settle := ((chanOf (tapOf tapPut (↑kp : Nat)) j).settle) : ChanAcc }) [] (List.range 32)) : TapSt })
      (↑kp : Nat)).mask)) ∧
    ((reaches prs sv prismPage) ∧ (enabled (setReg prs prismPage (384 + 64 * (↑kp : Nat)) (v32 &&& 58138383))
      prismPage = true) ∧ (haTap (setReg prs prismPage (384 + 64 * (↑kp : Nat)) (v32 &&& 58138383)) (↑kp : Nat) =
      false)) ∧
    ((reaches tsHalf sv prismPage) ∧ (enabled (setReg tsHalf prismPage (384 + 64 * (↑kp : Nat)) (tsHi &&& 58138383))
      prismPage = false)) ∧
    ((blockRuns tapHaFull prismPage = true) ∧ (List.idxOf? (8 * (↑q8 : Nat) + (↑q8 : Nat)) (List.take 32 (maskStreams
      (tapOf tapHaFull (↑kp : Nat)).mask)) = some str0) ∧ (haExports tapHaFull (↑kp : Nat) str0 = true) ∧ (1024 ≤
      (haChan tapHaFull (32 * (↑kp : Nat) + str0)).buf.length) ∧ (Ring.full (setHaChan tapHaFull (32 * (↑kp : Nat) +
      str0)
      { stages := ((haChan tapHaFull (32 * (↑kp : Nat) + str0)).stages), buf := (List.take ((haChan tapHaFull (32 * (↑kp : Nat) + str0)).buf.length - 1024) (haChan tapHaFull (32 * (↑kp : Nat) + str0)).buf) : HaChan })
      prismHaRing = true ∨ bufFree (setHaChan tapHaFull (32 * (↑kp : Nat) + str0)
      { stages := ((haChan tapHaFull (32 * (↑kp : Nat) + str0)).stages), buf := (List.take ((haChan tapHaFull (32 * (↑kp : Nat) + str0)).buf.length - 1024) (haChan tapHaFull (32 * (↑kp : Nat) + str0)).buf) : HaChan })
      prismPage 340 < 4096)) ∧
    ((blockRuns tapHa prismPage = true) ∧ (List.idxOf? (8 * (↑q8 : Nat) + (↑q8 : Nat)) (List.take 32 (maskStreams
      (tapOf tapHa (↑kp : Nat)).mask)) = some str0) ∧ (haExports tapHa (↑kp : Nat) str0 = true) ∧ (1024 ≤ (haChan
      tapHa (32 * (↑kp : Nat) + str0)).buf.length) ∧ (Ring.full (setHaChan tapHa (32 * (↑kp : Nat) + str0)
      { stages := ((haChan tapHa (32 * (↑kp : Nat) + str0)).stages), buf := (List.take ((haChan tapHa (32 * (↑kp : Nat) + str0)).buf.length - 1024) (haChan tapHa (32 * (↑kp : Nat) + str0)).buf) : HaChan })
      prismHaRing = false) ∧ (4096 ≤ bufFree (setHaChan tapHa (32 * (↑kp : Nat) + str0)
      { stages := ((haChan tapHa (32 * (↑kp : Nat) + str0)).stages), buf := (List.take ((haChan tapHa (32 * (↑kp : Nat) + str0)).buf.length - 1024) (haChan tapHa (32 * (↑kp : Nat) + str0)).buf) : HaChan })
      prismPage 340)) := by
  repeat' apply And.intro
  all_goals first | decide +kernel | exact okIs_eq (by decide +kernel) | exact exIs_eq (by decide +kernel) | exact List.Mem.head _ | exact okRes_eq _ (by decide +kernel) | rfl

/-- The premises of the clauses of PrismDetectorsComplete are met. -/
theorem wit_PrismDetectorsComplete :
    ((reaches detBad sv (detLoc (↑dt : Nat)).fst) ∧ (bit (detReg detBad (↑dt : Nat) 0) 0 = false) ∧ (detOk (setDet
      detBad (↑dt : Nat) 0 (putBit v32 0 true &&& 16382)) (↑dt : Nat) = false)) ∧
    ((reaches detB sv (detLoc (↑dt : Nat)).fst) ∧ (bit (detReg detB (↑dt : Nat) 0) 0 = false) ∧ (detOk (setDet detB
      (↑dt : Nat) 0 (putBit v32 0 true &&& 16382)) (↑dt : Nat) = true) ∧ (memRead (setDet detB (↑dt : Nat) 0 (putBit
      v32 0 true &&& 16382)) prismPage (81612505088 + bits (putBit v32 0 true) 13 8 * 4096) (4 * bits (detReg (setDet
      detB (↑dt : Nat) 0 (putBit v32 0 true &&& 16382)) (↑dt : Nat) 12) 26 16) = (detB, Resp.ok, dBytes))) ∧
    ((blockRuns detF prismPage = true) ∧ (detF.prism.found = [found]) ∧ (found.det = (↑dt : Nat)) ∧ (groupCapture
      (detCount (incCnt (setPrism detF
      { detF.prism with seq := ((detF.prism.seq + 1) % 65536), found := [] : PrismSt }) prismPage 3) (↑dt : Nat) 40)
      (detGroup (detCount (incCnt (setPrism detF
      { detF.prism with seq := ((detF.prism.seq + 1) % 65536), found := [] : PrismSt }) prismPage 3) (↑dt : Nat) 40)
      (↑dt : Nat)) = none) ∧ (freeBuf (detCount (incCnt (setPrism detF
      { detF.prism with seq := ((detF.prism.seq + 1) % 65536), found := [] : PrismSt }) prismPage 3) (↑dt : Nat) 40)
      = some b0)) ∧
    ((blockRuns sConf prismPage = true) ∧ (List.find? (fun c => decide (c.det = (↑dt : Nat)) && c.confirming)
      sConf.prism.caps = some capConf) ∧ (capConf.peakNo + ((bits (detReg sConf (↑dt : Nat) 24) 12 0 : Nat) : Int) ≤
      (detSt sConf (↑dt : Nat)).newest) ∧ (0 < qdiv (confMean sConf capConf (bits (detReg sConf (↑dt : Nat) 24) 12
      0)) capConf.bg) ∧ ((↑(signed 16 (bits (detReg sConf (↑dt : Nat) 24) 31 16)) : Rat) / 256 ≤ dB (qdiv (confMean
      sConf capConf (bits (detReg sConf (↑dt : Nat) 24) 12 0)) capConf.bg))) ∧
    ((blockRuns sWeak prismPage = true) ∧ (List.find? (fun c => decide (c.det = (↑dt : Nat)) && c.confirming)
      sWeak.prism.caps = some capWeak) ∧ (capWeak.peakNo + ((bits (detReg sWeak (↑dt : Nat) 24) 12 0 : Nat) : Int) ≤
      (detSt sWeak (↑dt : Nat)).newest) ∧ (¬(0 < qdiv (confMean sWeak capWeak (bits (detReg sWeak (↑dt : Nat) 24) 12
      0)) capWeak.bg ∧ (↑(signed 16 (bits (detReg sWeak (↑dt : Nat) 24) 31 16)) : Rat) / 256 ≤ dB (qdiv (confMean
      sWeak capWeak (bits (detReg sWeak (↑dt : Nat) 24) 12 0)) capWeak.bg)))) ∧
    ((blockRuns sRun prismPage = true) ∧ (List.find? (fun c => decide (c.det = (↑dt : Nat)) && !c.confirming)
      sRun.prism.caps = some capRun) ∧ (capRun.peakNo + ((bits (detReg sRun (↑dt : Nat) 32) 19 0 : Nat) : Int) ≤
      (detSt sRun (↑dt : Nat)).newest + 1)) ∧
    ((reaches detBad sv prismPage) ∧ ((detBad.prism.caps.any fun c => decide (c.buf = bits v32 7 0)) = false)) ∧
    ((fIdle.pool = 5) ∧ (fIdle.member = 0) ∧ (fIdle ∈ sF1.arrived) ∧ (pageClock sF1 prismPage = true) ∧ (∀ (x : Nat ×
      FireRec), x ∈ sF1.unowned → x.fst ≠ prismPage) ∧ (enabled sF1 prismPage = true) ∧ (fIdle.opcode = 1) ∧ (bits
      (cmdWord fIdle) 31 16 ≠ 0) ∧ (devTime sF1 < applyAt sF1 fIdle + ((2 ^ 32 * 1000 * bits (cmdWord fIdle) 31 16 :
      Nat) : Int))) ∧
    ((fForce.pool = 5) ∧ (fForce.member = 0) ∧ (fForce ∈ sF2.arrived) ∧ (pageClock sF2 prismPage = true) ∧ (∀ (x :
      Nat × FireRec), x ∈ sF2.unowned → x.fst ≠ prismPage) ∧ (enabled sF2 prismPage = true) ∧ (fForce.opcode = 2) ∧
      (detActive sF2 (bits (cmdWord fForce) 5 0) = true) ∧ ((detSt sF2 (bits (cmdWord fForce) 5 0)).newest - 4096 <
      (detSt sF2 (bits (cmdWord fForce) 5 0)).newest + (applyAt sF2 fForce - (detSt sF2 (bits (cmdWord fForce) 5
      0)).newestAt (devTime sF2)) / detDur sF2 (bits (cmdWord fForce) 5 0) 1 - ((bits (detReg sF2 (bits (cmdWord
      fForce) 5 0) 28) 12 0 : Nat) : Int))) ∧
    ((fClose0.pool = 5) ∧ (fClose0.member = 0) ∧ (fClose0 ∈ sF4.arrived) ∧ (pageClock sF4 prismPage = true) ∧ (∀ (x :
      Nat × FireRec), x ∈ sF4.unowned → x.fst ≠ prismPage) ∧ (enabled sF4 prismPage = true) ∧ (fClose0.opcode = 3) ∧
      (List.foldl (fun m k => if bit (cmdWord fClose0) k = true ∧ (!haTap sF4 k) = true then m + 2 ^ k else m) 0
      (List.range 4) = 0)) ∧
    ((fClose.pool = 5) ∧ (fClose.member = 0) ∧ (fClose ∈ sF3.arrived) ∧ (pageClock sF3 prismPage = true) ∧ (∀ (x :
      Nat × FireRec), x ∈ sF3.unowned → x.fst ≠ prismPage) ∧ (enabled sF3 prismPage = true) ∧ (fClose.opcode = 3) ∧
      (List.foldl (fun m k => if bit (cmdWord fClose) k = true ∧ (!haTap sF3 k) = true then m + 2 ^ k else m) 0
      (List.range 4) ≠ 0)) ∧
    ((blockRuns sIdle prismPage = true) ∧ (sIdle.prism.cmds[ip0]? = some idleCmd) ∧ (idleCmd.op = 1) ∧ (idleCmd.start
      + (↑idleCmd.len : Int) ≤ devTime sIdle)) := by
  repeat' apply And.intro
  all_goals first | decide +kernel | exact okIs_eq (by decide +kernel) | exact exIs_eq (by decide +kernel) | exact List.Mem.head _ | exact okRes_eq _ (by decide +kernel) | rfl

/-- The premises of the clauses of CalibrationAndSparesComplete are met. -/
theorem wit_CalibrationAndSparesComplete :
    ((reaches duS sv (dfePage (↑kp : Nat))) ∧ (duEnd duS = true)) ∧
    ((reaches mode1 sv (dfePage (↑kp : Nat))) ∧ (duEnd mode1 = false) ∧ (bits (mirrorReg mode1 (↑kp : Nat) (↑kp :
      Nat)) 1 0 = 1)) ∧
    ((calOf calRun1 (↑kp : Nat) (↑kp : Nat) = some calR) ∧ (reaches calRun1 sv (dfePage (↑kp : Nat)))) ∧
    ((calOf calRun1 (↑kp : Nat) (↑kp : Nat) = some calR) ∧ (blockRuns calRun1 (dfePage (↑kp : Nat)) = true) ∧ (1024 *
      calR.len ≤ (calBlocks calRun1 (↑kp : Nat) (↑kp : Nat) calR).length)) ∧
    ((reaches s0 sv (clusterPage (↑c16 : Nat))) ∧ (mapRefused s0 (↑c16 : Nat) mapNew = true)) ∧
    ((reaches s0 sv (clusterPage (↑c16 : Nat))) ∧ (mapRefused s0 (↑c16 : Nat) mapSame = false)) ∧
    ((reaches s0 sv (clusterPage (↑c16 : Nat))) ∧ (bits copyW 1 0 = 1) ∧ (kget none s0.spareJobs (↑c16 : Nat) = none)
      ∧ (bits copyW 7 4 < 9) ∧ (bits copyW 11 8 < 9)) ∧
    ((blockRuns copying (clusterPage (↑c16 : Nat)) = true) ∧ (kget none copying.spareJobs (↑c16 : Nat) = some job) ∧
      (List.filter (fun e => inCore (9 * (↑c16 : Nat) + job / 16) e.fst) copying.memErr = [])) := by
  repeat' apply And.intro
  all_goals first | decide +kernel | exact okIs_eq (by decide +kernel) | exact exIs_eq (by decide +kernel) | exact List.Mem.head _ | exact okRes_eq _ (by decide +kernel) | rfl

end C07

namespace C09

/-- Core 0 runs at the start of its instruction memory, privileged. -/
def core0 : CoreSt := { CoreSt.init with run := .running, pc := 0x001100880000, cr := [(1, 0x80000000)] }
def cs (x : CoreSt) : State := setCore s0 0 x
def cS : State := cs core0
def iss (slot : Fin 4) : Issue := ⟨0, slot, true, 0, 0, false, none⟩
def is0 : Issue := iss 0
def is1 : Issue := iss 1
def is2 : Issue := iss 2
def wAlu : Word26 := Config.aluAdd.setWidth 26
def wMul : Word26 := Config.mulCode.setWidth 26
def wJump : Word26 := Config.jumpCode
def gAdd : AluFn := .add
def gMul : MulFn := .mul
def gJump : JumpOp := ⟨none, none⟩
/-- RD 1, RA 2, form 0, the size `sz`. -/
def wMem (sz : Nat) : Word26 := BitVec.ofNat 26 (2 ^ 21 * 2 + 2 ^ 17 + 2 ^ 9 * sz)
def w4 : Word26 := wMem 2
def w8 : Word26 := wMem 3
/-- A1 points to local memory, D2 is 7. -/
def cMem : State := cs { core0 with a := [(1, 0x001100800000)], d := [(2, 7)] }
def ldU (w : Word26) : State := (loadBytes (atIssue is0 ⟨0, slotWord 0x04 w, false⟩ cMem) 0 false 0x001100800000 (2 ^ bits (slotWord 0x04 w) 10 9)).1
def ld4 : State := ldU w4
def ld8 : State := ldU w8
def b4 : List Byte := List.replicate 4 0
def b8 : List Byte := List.replicate 8 0
def src4 : Nat := 7
def stU : State := (storeBytes (atIssue is0 ⟨0, slotWord 0x05 w4, false⟩ cMem) 0 false 0x001100800000 ((leBytes 4 7).map some)).1
def okU : Unit := ()
/-- Branch where D2 is not 0; where it is; where it is not, counting it down. -/
def wBr (cc : Nat) : Word26 := BitVec.ofNat 26 (2 ^ 22 * cc + 2 ^ 17 * 2 + 5)
def wBnz : Word26 := wBr 2
def wBz : Word26 := wBr 1
def wLoop : Word26 := wBr 7

theorem slotWord_toNat {op : Nat} (w : Word26) (h : op < 64) : (slotWord op w).toNat = op * 2 ^ 26 + w.toNat := by
  have := w.isLt
  simp only [slotWord, w32, BitVec.toNat_ofNat]
  omega

theorem opcode_slotWord {op : Nat} (w : Word26) (h : op < 64) : bits (slotWord op w) 31 26 = op := by
  have := w.isLt
  simp only [bits, slotWord_toNat w h, Nat.shiftRight_eq_div_pow]
  omega

theorem fn_slotWord {op : Nat} (w : BitVec 11) (h : op < 64) :
    BitVec.ofNat 11 (slotWord op (w.setWidth 26)).toNat = w := by
  have := w.isLt
  apply BitVec.eq_of_toNat_eq
  simp only [BitVec.toNat_ofNat, slotWord_toNat _ h, BitVec.toNat_setWidth]
  omega

theorem disp_slotWord {op : Nat} (w : Word26) (h : op < 64) : BitVec.ofNat 26 (slotWord op w).toNat = w := by
  have := w.isLt
  apply BitVec.eq_of_toNat_eq
  simp only [BitVec.toNat_ofNat, slotWord_toNat _ h]
  omega

theorem aluFunc_wAlu : Config.aluFunc (BitVec.ofNat 11 (slotWord 1 wAlu).toNat) = some gAdd := by
  rw [wAlu, fn_slotWord _ (by omega)]; simp [Config.aluFunc, gAdd]

theorem mulFunc_wMul : Config.mulFunc (BitVec.ofNat 11 (slotWord 3 wMul).toNat) = some gMul := by
  rw [wMul, fn_slotWord _ (by omega)]; simp [Config.mulFunc, gMul]

theorem jumpOp_wJump : Config.jumpOp (BitVec.ofNat 26 (slotWord 9 wJump).toNat) = some gJump := by
  rw [disp_slotWord _ (by omega)]; simp [wJump, Config.jumpOp, gJump]

theorem opTrap_alu (s : State) (k : OpCtx) (c : isS k.c = false) (w : k.o.word = slotWord 1 wAlu) (n : k.o.slot = 0) :
    opTrap s k = none := by
  simp [-BitVec.ofNat_toNat, opTrap, c, opcodeOf, w, opcode_slotWord, slotMask, n, fieldRule, aluFunc_wAlu, needsPl]

theorem opTrap_mul (s : State) (k : OpCtx) (c : isS k.c = false) (w : k.o.word = slotWord 3 wMul) (n : k.o.slot = 2) :
    opTrap s k = none := by
  simp [-BitVec.ofNat_toNat, opTrap, c, opcodeOf, w, opcode_slotWord, slotMask, n, fieldRule, mulFunc_wMul, needsPl, show Nat.testBit 4 2 = true from rfl]

theorem opTrap_jump (s : State) (k : OpCtx) (c : isS k.c = false) (w : k.o.word = slotWord 9 wJump) (n : k.o.slot = 1)
    (d : k.x.bd = 0) : opTrap s k = none := by
  simp [-BitVec.ofNat_toNat, opTrap, c, opcodeOf, w, opcode_slotWord, slotMask, n, fieldRule, jumpOp_wJump, needsPl, rule3, d, show Nat.testBit 2 1 = true from rfl]

/-- The premises of the clauses of ScalarInstructionsComplete are met. -/
theorem wit_ScalarInstructionsComplete :
    ((issuesAlone is0 (slotWord 1 wAlu) cMem) ∧ (Config.aluFunc (BitVec.ofNat 11 (BitVec.toNat (slotWord 1 wAlu))) =
      some gAdd)) ∧
    ((issuesAlone is0 (slotWord 2 w4) cMem)) ∧
    ((issuesAlone is2 (slotWord 3 wMul) cMem) ∧ (Config.mulFunc (BitVec.ofNat 11 (BitVec.toNat (slotWord 3 wMul))) =
      some gMul)) ∧
    ((issuesAlone is0 (slotWord 4 w8) cMem) ∧ (addrTrap (opCtx is0
      { slot := (↑is0.slot : Nat), word := (slotWord 4 w8), parity := false : Staged } cMem) false (bits (slotWord 4
      w8) 20 17) (addr48 (addrForm (opCtx is0
      { slot := (↑is0.slot : Nat), word := (slotWord 4 w8), parity := false : Staged } cMem).x (bits (slotWord 4 w8)
      20 17) (bits (slotWord 4 w8) 16 14) (bits (slotWord 4 w8) 13 11) (signed 8 (bits (slotWord 4 w8) 7 0) * ((2 ^
      bits (slotWord 4 w8) 10 9 : Nat) : Int))).fst) (2 ^ bits (slotWord 4 w8) 10 9) [(0, 2 ^ bits (slotWord 4 w8) 10
      9)] = none) ∧ (loadBytes (atIssue is0
      { slot := (↑is0.slot : Nat), word := (slotWord 4 w8), parity := false : Staged } cMem) (↑is0.core : Nat)
      (decide (bits (slotWord 4 w8) 8 8 = 1)) (addr48 (addrForm (opCtx is0
      { slot := (↑is0.slot : Nat), word := (slotWord 4 w8), parity := false : Staged } cMem).x (bits (slotWord 4 w8)
      20 17) (bits (slotWord 4 w8) 16 14) (bits (slotWord 4 w8) 13 11) (signed 8 (bits (slotWord 4 w8) 7 0) * ((2 ^
      bits (slotWord 4 w8) 10 9 : Nat) : Int))).fst) (2 ^ bits (slotWord 4 w8) 10 9) = (cMem, Except.ok b8)) ∧ (bits
      (slotWord 4 w8) 10 9 = 3)) ∧
    ((issuesAlone is0 (slotWord 4 w4) cMem) ∧ (addrTrap (opCtx is0
      { slot := (↑is0.slot : Nat), word := (slotWord 4 w4), parity := false : Staged } cMem) false (bits (slotWord 4
      w4) 20 17) (addr48 (addrForm (opCtx is0
      { slot := (↑is0.slot : Nat), word := (slotWord 4 w4), parity := false : Staged } cMem).x (bits (slotWord 4 w4)
      20 17) (bits (slotWord 4 w4) 16 14) (bits (slotWord 4 w4) 13 11) (signed 8 (bits (slotWord 4 w4) 7 0) * ((2 ^
      bits (slotWord 4 w4) 10 9 : Nat) : Int))).fst) (2 ^ bits (slotWord 4 w4) 10 9) [(0, 2 ^ bits (slotWord 4 w4) 10
      9)] = none) ∧ (loadBytes (atIssue is0
      { slot := (↑is0.slot : Nat), word := (slotWord 4 w4), parity := false : Staged } cMem) (↑is0.core : Nat)
      (decide (bits (slotWord 4 w4) 8 8 = 1)) (addr48 (addrForm (opCtx is0
      { slot := (↑is0.slot : Nat), word := (slotWord 4 w4), parity := false : Staged } cMem).x (bits (slotWord 4 w4)
      20 17) (bits (slotWord 4 w4) 16 14) (bits (slotWord 4 w4) 13 11) (signed 8 (bits (slotWord 4 w4) 7 0) * ((2 ^
      bits (slotWord 4 w4) 10 9 : Nat) : Int))).fst) (2 ^ bits (slotWord 4 w4) 10 9) = (cMem, Except.ok b4)) ∧ (bits
      (slotWord 4 w4) 10 9 ≠ 3)) ∧
    ((issuesAlone is0 (slotWord 5 w4) cMem) ∧ (addrTrap (opCtx is0
      { slot := (↑is0.slot : Nat), word := (slotWord 5 w4), parity := false : Staged } cMem) true (bits (slotWord 5
      w4) 20 17) (addr48 (addrForm (opCtx is0
      { slot := (↑is0.slot : Nat), word := (slotWord 5 w4), parity := false : Staged } cMem).x (bits (slotWord 5 w4)
      20 17) (bits (slotWord 5 w4) 16 14) (bits (slotWord 5 w4) 13 11) (signed 8 (bits (slotWord 5 w4) 7 0) * ((2 ^
      bits (slotWord 5 w4) 10 9 : Nat) : Int))).fst) (2 ^ bits (slotWord 5 w4) 10 9) [(0, 2 ^ bits (slotWord 5 w4) 10
      9)] = none) ∧ (storeBytes (atIssue is0
      { slot := (↑is0.slot : Nat), word := (slotWord 5 w4), parity := false : Staged } cMem) (↑is0.core : Nat)
      (decide (bits (slotWord 5 w4) 8 8 = 1)) (addr48 (addrForm (opCtx is0
      { slot := (↑is0.slot : Nat), word := (slotWord 5 w4), parity := false : Staged } cMem).x (bits (slotWord 5 w4)
      20 17) (bits (slotWord 5 w4) 16 14) (bits (slotWord 5 w4) 13 11) (signed 8 (bits (slotWord 5 w4) 7 0) * ((2 ^
      bits (slotWord 5 w4) 10 9 : Nat) : Int))).fst) (List.map some (leBytes (2 ^ bits (slotWord 5 w4) 10 9) (if bits
      (slotWord 5 w4) 10 9 = 3 then BitVec.toNat (dPair (opCtx is0
      { slot := (↑is0.slot : Nat), word := (slotWord 5 w4), parity := false : Staged } cMem).x (bits (slotWord 5 w4)
      25 21)) else BitVec.toNat (dReg (opCtx is0
      { slot := (↑is0.slot : Nat), word := (slotWord 5 w4), parity := false : Staged } cMem).x (bits (slotWord 5 w4)
      25 21))))) = (stU, Except.ok okU))) ∧
    ((issuesAlone is0 (slotWord 6 w4) cMem)) ∧
    ((issuesAlone is0 (slotWord 7 w4) cMem)) ∧
    ((issuesAlone is1 (slotWord 8 wBz) cMem) ∧ (branchCond (bits (slotWord 8 wBz) 25 22) (dReg (opCtx is1
      { slot := (↑is1.slot : Nat), word := (slotWord 8 wBz), parity := false : Staged } cMem).x (bits (slotWord 8
      wBz) 21 17)) = false)) ∧
    ((issuesAlone is1 (slotWord 8 wBnz) cMem) ∧ (branchCond (bits (slotWord 8 wBnz) 25 22) (dReg (opCtx is1
      { slot := (↑is1.slot : Nat), word := (slotWord 8 wBnz), parity := false : Staged } cMem).x (bits (slotWord 8
      wBnz) 21 17)) = true) ∧ (bits (slotWord 8 wBnz) 25 22 ≠ 7)) ∧
    ((issuesAlone is1 (slotWord 8 wLoop) cMem) ∧ (branchCond (bits (slotWord 8 wLoop) 25 22) (dReg (opCtx is1
      { slot := (↑is1.slot : Nat), word := (slotWord 8 wLoop), parity := false : Staged } cMem).x (bits (slotWord 8
      wLoop) 21 17)) = true) ∧ (bits (slotWord 8 wLoop) 25 22 = 7)) ∧
    ((issuesAlone is1 (slotWord 9 wJump) cMem) ∧ (Config.jumpOp (BitVec.ofNat 26 (BitVec.toNat (slotWord 9 wJump))) =
      some gJump)) := by
  repeat' apply And.intro
  all_goals first
    | decide +kernel | exact exIs_eq (by decide +kernel)
    | exact aluFunc_wAlu | exact mulFunc_wMul | exact jumpOp_wJump
    | exact opTrap_alu _ _ rfl rfl rfl | exact opTrap_mul _ _ rfl rfl rfl | exact opTrap_jump _ _ rfl rfl rfl rfl

end C09

namespace C10

def core1 : CoreSt := { CoreSt.init with run := .running, pc := 0x001100880000, cr := [(1, 0x80000000)] }
def cRun : State := setCore s0 0 core1
def cRunE : State := setEnabled cRun 0x030 true
def isT : Issue := ⟨0, 1, true, 0, 0, false, none⟩
def wz : Word20 := 0
def fireC : FireRec := ⟨1, 5, 1, 0, 0, 0, 0, false, 0, 0, 0, 0, 0, 0, 0⟩
def slotC (cur : Bool) : FireSlot := ⟨0, fireC, cur⟩
def slotCur : FireSlot := slotC true
def slotWait : FireSlot := slotC false
def cCur : State := setCore s0 0 { core1 with slots := [slotCur], a := [(1, BitVec.ofNat 64 (slotAddr s0 0 0))] }
def cWait : State := setCore s0 0 { core1 with slots := [slotWait] }
/-- TDONE of the slot that A1 names. -/
def wDone : Word20 := 0x10000
def bOf (fn : Nat) (w : Word20) (s : State) : Bun := (publish (opCtx isT ⟨1, sysWord fn w, false⟩ s) (bits (sysWord fn w) (if fn = 1 then 10 else 11) (if fn = 1 then 7 else 8)) (bits (sysWord fn w) (if fn = 1 then 6 else 7) (if fn = 1 then 2 else 3)) (bun0 (atIssue isT ⟨1, sysWord fn w, false⟩ s))).1
def bSend : Bun := bOf 1 wz cRun
def bDone : Bun := bOf 2 wDone cCur
/-- A0 points to local memory. -/
def cA : State := setCore s0 0 { core1 with a := [(0, 0x001100800000)] }
def saveU : State :=
  (storeParts 0 0x001100800000 (saveBytes (opCtx isT ⟨1, sysWord 0x0C wz, false⟩ cA).x) [0, 1, 2, 3] (atIssue isT ⟨1, sysWord 0x0C wz, false⟩ cA)).1
def oku : Unit := ()
def restU : State := (loadParts 0 0x001100800000 [0, 1, 2, 3] (atIssue isT ⟨1, sysWord 0x0D wz, false⟩ cA) []).1
def restD : List Byte := List.replicate 256 0
def cN : Nat := 0
def bun (x : CoreSt) : Bun := bun0 (setCore s0 0 x)
def bPlain : Bun := bun core1
def tgt : Nat := 0x001100880100
def bTaken : Bun := { bun core1 with taken := some tgt }
def bLast : Bun := bun { core1 with bd := 1, bt := tgt }
def bFirst : Bun := bun { core1 with bd := 2, bt := tgt }
def bRti : Bun := { bun core1 with post := some .rti }
def bWait : Bun := { bun core1 with post := some .wait }
def i31 : Nat := 31
def t9 : Nat := 9
def lat (w : Dest) : CoreSt := { core1 with pend := [⟨9, 0, w⟩] }
def xD : CoreSt := lat (.d (dKey core1 31) 7)
def v7 : Word := 7
def xD0 : CoreSt := lat (.d (dKey core1 0) 7)
def i_0 : Nat := 0
def xA : CoreSt := lat (.a (aKey core1 31) 7)
def v7d : Dword := 7
def xP : CoreSt := lat (.p 3 7)
def i_3 : Nat := 3
def xV : CoreSt := lat (.v 3 0xFF 7)
def mV : Vec := 0xFF
def vV : Vec := 7

/-- The premises of the clauses of SystemInstructionsComplete are met. -/
theorem wit_SystemInstructionsComplete :
    ((issuesAlone isT (sysWord 1 wz) cRun) ∧ (publish (opCtx isT
      { slot := (↑isT.slot : Nat), word := (sysWord 1 wz), parity := false : Staged } cRun) (bits (sysWord 1 wz) 10
      7) (bits (sysWord 1 wz) 6 2) (bun0 (atIssue isT
      { slot := (↑isT.slot : Nat), word := (sysWord 1 wz), parity := false : Staged } cRun)) = (bSend, true))) ∧
    ((issuesAlone isT (sysWord 2 wDone) cCur) ∧ (publish (opCtx isT
      { slot := (↑isT.slot : Nat), word := (sysWord 2 wDone), parity := false : Staged } cCur) (bits (sysWord 2
      wDone) 11 8) (bits (sysWord 2 wDone) 7 3) (bun0 (atIssue isT
      { slot := (↑isT.slot : Nat), word := (sysWord 2 wDone), parity := false : Staged } cCur)) = (bDone, true)) ∧
      (currentSlot bDone.s (↑isT.core : Nat) (opCtx isT
      { slot := (↑isT.slot : Nat), word := (sysWord 2 wDone), parity := false : Staged } cCur).x (BitVec.toNat (aReg
      (opCtx isT { slot := (↑isT.slot : Nat), word := (sysWord 2 wDone), parity := false : Staged } cCur).x (bits
      (sysWord 2 wDone) 19 16))) = some slotCur)) ∧
    ((issuesAlone isT (sysWord 3 wz) cWait) ∧ (isT.slot = 1) ∧ (waitingSlot (opCtx isT
      { slot := (↑isT.slot : Nat), word := (sysWord 3 wz), parity := false : Staged } cWait).x = some slotWait)) ∧
    ((issuesAlone isT (sysWord 3 wz) cRunE) ∧ (isT.slot = 1) ∧ (waitingSlot (opCtx isT
      { slot := (↑isT.slot : Nat), word := (sysWord 3 wz), parity := false : Staged } cRunE).x = none) ∧ (enabled
      (landed isT { slot := (↑isT.slot : Nat), word := (sysWord 3 wz), parity := false : Staged } cRunE) (corePage
      (↑isT.core : Nat)) = true)) ∧
    ((issuesAlone isT (sysWord 4 wz) cRun)) ∧
    ((issuesAlone isT (sysWord 5 wz) cRun)) ∧
    ((issuesAlone isT (sysWord 6 wz) cRun)) ∧
    ((issuesAlone isT (sysWord 7 wz) cRun)) ∧
    ((issuesAlone isT (sysWord 8 wz) cRun)) ∧
    ((issuesAlone isT (sysWord 9 wz) cRun)) ∧
    ((issuesAlone isT (sysWord 10 wz) cRun)) ∧
    ((issuesAlone isT (sysWord 11 wz) cRun)) ∧
    ((issuesAlone isT (sysWord 12 wz) cA) ∧ (addrTrap (opCtx isT
      { slot := (↑isT.slot : Nat), word := (sysWord 12 wz), parity := false : Staged } cA) true (bits (sysWord 12 wz)
      19 16) (BitVec.toNat (aReg (opCtx isT
      { slot := (↑isT.slot : Nat), word := (sysWord 12 wz), parity := false : Staged } cA).x (bits (sysWord 12 wz) 19
      16)) % 2 ^ 48) 1 [] = none) ∧ (storeParts (↑isT.core : Nat) (BitVec.toNat (aReg (opCtx isT
      { slot := (↑isT.slot : Nat), word := (sysWord 12 wz), parity := false : Staged } cA).x (bits (sysWord 12 wz) 19
      16)) % 2 ^ 48) (saveBytes (opCtx isT
      { slot := (↑isT.slot : Nat), word := (sysWord 12 wz), parity := false : Staged } cA).x) [0, 1, 2, 3] (atIssue
      isT { slot := (↑isT.slot : Nat), word := (sysWord 12 wz), parity := false : Staged } cA) = (saveU, Except.ok
      oku))) ∧
    ((issuesAlone isT (sysWord 13 wz) cA) ∧ (addrTrap (opCtx isT
      { slot := (↑isT.slot : Nat), word := (sysWord 13 wz), parity := false : Staged } cA) false (bits (sysWord 13
      wz) 19 16) (BitVec.toNat (aReg (opCtx isT
      { slot := (↑isT.slot : Nat), word := (sysWord 13 wz), parity := false : Staged } cA).x (bits (sysWord 13 wz) 19
      16)) % 2 ^ 48) 1 [] = none) ∧ (loadParts (↑isT.core : Nat) (BitVec.toNat (aReg (opCtx isT
      { slot := (↑isT.slot : Nat), word := (sysWord 13 wz), parity := false : Staged } cA).x (bits (sysWord 13 wz) 19
      16)) % 2 ^ 48) [0, 1, 2, 3] (atIssue isT
      { slot := (↑isT.slot : Nat), word := (sysWord 13 wz), parity := false : Staged } cA) [] = (cA, Except.ok
      restD))) ∧
    ((issuesAlone isT (sysWord 14 wz) cRun)) ∧
    ((issuesAlone isT (sysWord 15 wz) cRun)) := by
  repeat' apply And.intro
  all_goals first | decide +kernel | exact okIs_eq (by decide +kernel) | exact exIs_eq (by decide +kernel) | exact List.Mem.head _ | exact okRes_eq _ (by decide +kernel) | rfl

/-- The premises of the clauses of BundlesEndAndResultsLand are met. -/
theorem wit_BundlesEndAndResultsLand :
    ((bPlain.fault = none) ∧ (bPlain.comp = none) ∧ (bPlain.sync = false) ∧ (bPlain.hold = false) ∧ ((coreOf bPlain.s
      cN).run = CoreRun.running) ∧ ((coreOf bPlain.s cN).lost = none)) ∧
    ((bPlain.fault = none) ∧ (bPlain.comp = none) ∧ (bPlain.sync = false) ∧ (bPlain.hold = false) ∧ ((coreOf bPlain.s
      cN).run = CoreRun.running) ∧ ((coreOf bPlain.s cN).lost = none) ∧ (bPlain.post = none)) ∧
    ((bTaken.fault = none) ∧ (bTaken.comp = none) ∧ (bTaken.sync = false) ∧ (bTaken.hold = false) ∧ ((coreOf bTaken.s
      cN).run = CoreRun.running) ∧ ((coreOf bTaken.s cN).lost = none) ∧ (bTaken.post = none) ∧ (bTaken.taken = some
      tgt)) ∧
    ((bPlain.fault = none) ∧ (bPlain.comp = none) ∧ (bPlain.sync = false) ∧ (bPlain.hold = false) ∧ ((coreOf bPlain.s
      cN).run = CoreRun.running) ∧ ((coreOf bPlain.s cN).lost = none) ∧ (bPlain.post = none) ∧ (bPlain.taken = none)
      ∧ ((coreOf bPlain.s cN).bd = 0)) ∧
    ((bLast.fault = none) ∧ (bLast.comp = none) ∧ (bLast.sync = false) ∧ (bLast.hold = false) ∧ ((coreOf bLast.s
      cN).run = CoreRun.running) ∧ ((coreOf bLast.s cN).lost = none) ∧ (bLast.post = none) ∧ (bLast.taken = none) ∧
      ((coreOf bLast.s cN).bd = 1)) ∧
    ((bFirst.fault = none) ∧ (bFirst.comp = none) ∧ (bFirst.sync = false) ∧ (bFirst.hold = false) ∧ ((coreOf bFirst.s
      cN).run = CoreRun.running) ∧ ((coreOf bFirst.s cN).lost = none) ∧ (bFirst.post = none) ∧ (bFirst.taken = none)
      ∧ (1 < (coreOf bFirst.s cN).bd)) ∧
    ((bRti.fault = none) ∧ (bRti.comp = none) ∧ (bRti.sync = false) ∧ (bRti.hold = false) ∧ ((coreOf bRti.s cN).run =
      CoreRun.running) ∧ ((coreOf bRti.s cN).lost = none) ∧ (bRti.post = some Post.rti) ∧ (kup (coreOf bRti.s cN).cr
      = true)) ∧
    ((bWait.fault = none) ∧ (bWait.comp = none) ∧ (bWait.sync = false) ∧ (bWait.hold = false) ∧ ((coreOf bWait.s
      cN).run = CoreRun.running) ∧ ((coreOf bWait.s cN).lost = none) ∧ (bWait.post = some Post.wait)) ∧
    ((kup xD.d = true) ∧ (xD.pend = [{ due := t9, slot := 0, dest := (Dest.d (dKey xD i31) v7) : Pend }])) ∧
    ((kup xA.a = true) ∧ (xA.pend = [{ due := t9, slot := 0, dest := (Dest.a (aKey xA i31) v7d) : Pend }])) ∧
    ((kup xP.p = true) ∧ (xP.pend = [{ due := t9, slot := 0, dest := (Dest.p i_3 v7d) : Pend }])) ∧
    ((kup xV.v = true) ∧ (xV.pend = [{ due := t9, slot := 0, dest := (Dest.v i_3 mV vV) : Pend }])) := by
  repeat' apply And.intro
  all_goals first | decide +kernel | exact okIs_eq (by decide +kernel) | exact exIs_eq (by decide +kernel) | exact List.Mem.head _ | exact okRes_eq _ (by decide +kernel) | rfl

end C10

namespace C11

def coreV : CoreSt := { CoreSt.init with run := .running, pc := 0x001100880000, cr := [(1, 0x80000000)], v := [(1, 0x123456789)], a := [(1, 0x001100800000)], d := [(2, 3)] }
def cV : State := setCore s0 0 coreV
def isV : Issue := ⟨0, 2, true, 0, 0, false, none⟩
def isM : Issue := ⟨0, 0, true, 0, 0, false, none⟩
def isX : Issue := ⟨0, 3, true, 0, 0, false, none⟩
def w0 : Word26 := 0
/-- TYPE `t` (bits [6:4]), function `f` (bits [3:0]). -/
def wT (t f : Nat) : Word26 := BitVec.ofNat 26 (16 * t + f)
def wt1 : Word26 := wT 1 0
def wt1s : Word26 := wT 1 1
def wt5 : Word26 := wT 5 0
def wp1 : Word26 := wT 1 1
def wp2 : Word26 := wT 1 2
def wp3 : Word26 := wT 1 3
def wp4 : Word26 := wT 1 4
def wp5 : Word26 := wT 1 5
def wp6 : Word26 := wT 1 6
def wp7 : Word26 := wT 1 7
def wp8 : Word26 := wT 1 8
def wp9 : Word26 := wT 1 9
def wr5 : Word26 := wT 4 5
/-- RD 2, base A1, size or kind `z`. -/
def wVm (z : Nat) : Word26 := BitVec.ofNat 26 (2 ^ 21 * 2 + 2 ^ 17 + 2 ^ 9 * z)
def wVld : Word26 := wVm 2
def wAc0 : Word26 := BitVec.ofNat 26 (2 ^ 17)
def wAc1 : Word26 := BitVec.ofNat 26 (2 ^ 17 + 2 ^ 9)
def wPr2 : Word26 := wVm 2
def wPr3 : Word26 := wVm 3
/-- Gather to V2, scatter of V2: base A1, offsets V3, words. -/
def wGs : Word26 := BitVec.ofNat 26 (2 ^ 21 * 2 + 2 ^ 17 + 2 ^ 12 * 3 + 2 ^ 6 * 2)
def wMx : Word26 := BitVec.ofNat 26 (2 ^ 19)
def wMxop : Word26 := BitVec.ofNat 26 (2 ^ 19 + 2 ^ 16)
def at0 (op : Nat) (w : Word26) (slot : Fin 4) : State := atIssue ⟨0, slot, true, 0, 0, false, none⟩ ⟨slot, slotWord op w, false⟩ cV
def aMem : Nat := 0x001100800000
def runs64 : List (Nat × Nat) := activeRuns (activeBytes (BitVec.allOnes 64) 4)
def vldU : State := (loadRuns 0 false aMem runs64 (at0 0x10 wVld 0) (List.replicate 64 0)).1
def zer64 : List Byte := List.replicate 64 0
def vstU : State := (storeBytes (at0 0x11 wVld 0) 0 false aMem ((List.replicate 64 0).map some)).1
def okx : Unit := ()
def xl0 : State := (loadBytes (at0 0x14 wAc0 0) 0 false aMem 64).1
def xl2 : State := (loadBytes (at0 0x14 wPr2 0) 0 false aMem 8).1
def zer8 : List Byte := List.replicate 8 0
def xs1 : State := (storeBytes (at0 0x14 wAc1 0) 0 false aMem ((leBytes 64 ((acReg coreV 0).toNat / 2 ^ (512 * bits (slotWord 0x14 wAc1) 22 21))).map some)).1
def xs3 : State := (storeBytes (at0 0x14 wPr3 0) 0 false aMem ((leBytes 8 (pReg coreV 0).toNat).map some)).1
def mctx : MxCtx := mxCtxOf cV (mxcCtx cV 0).1 (mxcCtx cV 0).2
def mxS : State := (storeBytes (at0 0x23 wMx 3) 0 false aMem ((leBytes 4 (mxsbWord mctx).toNat ++ leBytes 4 (ctxInfo mctx).toNat ++ List.replicate 56 0).map some)).1
def mxL : State := (loadBytes (at0 0x24 wMx 3) 0 false aMem 64).1
def cMx : State := setEnabled (setCore s0 0 { coreV with d := [(2, 0x00010001), (3, 0x10002001)] }) 0x020 true

/-- The premises of the clauses of VectorInstructionsComplete are met. -/
theorem wit_VectorInstructionsComplete :
    ((issuesAlone isV (slotWord 21 w0) cV)) ∧
    ((issuesAlone isV (slotWord 22 w0) cV)) ∧
    ((issuesAlone isV (slotWord 23 w0) cV)) ∧
    ((issuesAlone isV (slotWord 24 wt1) cV) ∧ (bits (slotWord 24 wt1) 0 0 = 0)) ∧
    ((issuesAlone isV (slotWord 24 wt1s) cV) ∧ (bits (slotWord 24 wt1s) 0 0 = 1)) ∧
    ((issuesAlone isV (slotWord 25 w0) cV)) ∧
    ((issuesAlone isV (slotWord 26 w0) cV)) ∧
    ((issuesAlone isV (slotWord 27 w0) cV) ∧ (bits (slotWord 27 w0) 3 0 = 0)) ∧
    ((issuesAlone isV (slotWord 27 wt1s) cV) ∧ (bits (slotWord 27 wt1s) 3 0 = 1)) ∧
    ((issuesAlone isV (slotWord 27 wp2) cV) ∧ (bits (slotWord 27 wp2) 3 0 = 2)) ∧
    ((issuesAlone isV (slotWord 27 wp3) cV) ∧ (bits (slotWord 27 wp3) 3 0 = 3)) ∧
    ((issuesAlone isV (slotWord 27 wp4) cV) ∧ (bits (slotWord 27 wp4) 3 0 = 4)) ∧
    ((issuesAlone isV (slotWord 27 wp5) cV) ∧ (bits (slotWord 27 wp5) 3 0 = 5)) ∧
    ((issuesAlone isV (slotWord 27 wp6) cV) ∧ (bits (slotWord 27 wp6) 3 0 = 6)) ∧
    ((issuesAlone isV (slotWord 27 wp7) cV) ∧ (bits (slotWord 27 wp7) 3 0 = 7)) ∧
    ((issuesAlone isV (slotWord 27 wp8) cV) ∧ (bits (slotWord 27 wp8) 3 0 = 8)) ∧
    ((issuesAlone isV (slotWord 27 wp9) cV) ∧ (bits (slotWord 27 wp9) 3 0 = 9)) ∧
    ((issuesAlone isV (slotWord 28 wt5) cV)) ∧
    ((issuesAlone isV (slotWord 29 wr5) cV) ∧ (bits (slotWord 29 wr5) 3 0 = 5) ∧ (bits (slotWord 29 wr5) 6 4 = 4)) ∧
    ((issuesAlone isV (slotWord 29 w0) cV) ∧ (¬(bits (slotWord 29 w0) 3 0 = 5 ∧ bits (slotWord 29 w0) 6 4 = 4))) ∧
    ((issuesAlone isV (slotWord 31 w0) cV)) := by
  repeat' apply And.intro
  all_goals first | decide +kernel | exact okIs_eq (by decide +kernel) | exact exIs_eq (by decide +kernel) | exact List.Mem.head _ | exact okRes_eq _ (by decide +kernel) | rfl

/-- The premises of the clauses of VectorMemoryAndMxComplete are met. -/
theorem wit_VectorMemoryAndMxComplete :
    ((issuesAlone isM (slotWord 16 wVld) cV) ∧ (vecTrap (opCtx isM
      { slot := (↑isM.slot : Nat), word := (slotWord 16 wVld), parity := false : Staged } cV) false (vecAddr (opCtx
      isM { slot := (↑isM.slot : Nat), word := (slotWord 16 wVld), parity := false : Staged } cV) (signed 5 (bits
      (slotWord 16 wVld) 4 0)) 64).fst (vldAlign (opCtx isM
      { slot := (↑isM.slot : Nat), word := (slotWord 16 wVld), parity := false : Staged } cV)) (activeRuns
      (activeBytes (pReg (opCtx isM
      { slot := (↑isM.slot : Nat), word := (slotWord 16 wVld), parity := false : Staged } cV).x (bits (slotWord 16
      wVld) 7 5)) (2 ^ bits (slotWord 16 wVld) 10 9))) = none) ∧ (loadRuns (↑isM.core : Nat) (decide (bits (slotWord
      16 wVld) 8 8 = 1)) (vecAddr (opCtx isM
      { slot := (↑isM.slot : Nat), word := (slotWord 16 wVld), parity := false : Staged } cV) (signed 5 (bits
      (slotWord 16 wVld) 4 0)) 64).fst (activeRuns (activeBytes (pReg (opCtx isM
      { slot := (↑isM.slot : Nat), word := (slotWord 16 wVld), parity := false : Staged } cV).x (bits (slotWord 16
      wVld) 7 5)) (2 ^ bits (slotWord 16 wVld) 10 9))) (atIssue isM
      { slot := (↑isM.slot : Nat), word := (slotWord 16 wVld), parity := false : Staged } cV) (List.replicate 64 0) =
      (cV, Except.ok zer64))) ∧
    ((issuesAlone isM (slotWord 17 wVld) cV) ∧ (vecTrap (opCtx isM
      { slot := (↑isM.slot : Nat), word := (slotWord 17 wVld), parity := false : Staged } cV) true (vecAddr (opCtx
      isM { slot := (↑isM.slot : Nat), word := (slotWord 17 wVld), parity := false : Staged } cV) (signed 5 (bits
      (slotWord 17 wVld) 4 0)) 64).fst (vldAlign (opCtx isM
      { slot := (↑isM.slot : Nat), word := (slotWord 17 wVld), parity := false : Staged } cV)) (activeRuns
      (activeBytes (pReg (opCtx isM
      { slot := (↑isM.slot : Nat), word := (slotWord 17 wVld), parity := false : Staged } cV).x (bits (slotWord 17
      wVld) 7 5)) (2 ^ bits (slotWord 17 wVld) 10 9))) = none) ∧ (storeBytes (atIssue isM
      { slot := (↑isM.slot : Nat), word := (slotWord 17 wVld), parity := false : Staged } cV) (↑isM.core : Nat)
      (decide (bits (slotWord 17 wVld) 8 8 = 1)) (vecAddr (opCtx isM
      { slot := (↑isM.slot : Nat), word := (slotWord 17 wVld), parity := false : Staged } cV) (signed 5 (bits
      (slotWord 17 wVld) 4 0)) 64).fst (List.map (fun x => match x with | (p, x) => if p = true then some x else
      none) ((activeBytes (pReg (opCtx isM
      { slot := (↑isM.slot : Nat), word := (slotWord 17 wVld), parity := false : Staged } cV).x (bits (slotWord 17
      wVld) 7 5)) (2 ^ bits (slotWord 17 wVld) 10 9)).zip (leBytes 64 (BitVec.toNat (vReg (opCtx isM
      { slot := (↑isM.slot : Nat), word := (slotWord 17 wVld), parity := false : Staged } cV).x (bits (slotWord 17
      wVld) 25 21)))))) = (cV, Except.ok okx))) ∧
    ((issuesAlone isM (slotWord 18 wGs) cV) ∧ ((List.foldl (gsElem (opCtx isM
      { slot := (↑isM.slot : Nat), word := (slotWord 18 wGs), parity := false : Staged } cV) true)
      { s := (atIssue isM { slot := (↑isM.slot : Nat), word := (slotWord 18 wGs), parity := false : Staged } cV), got := [], near := true, bad := none : GsRun }
      (List.range (tyN (eszType (bits (slotWord 18 wGs) 7 6))))).bad = none)) ∧
    ((issuesAlone isM (slotWord 19 wGs) cV) ∧ ((List.foldl (gsElem (opCtx isM
      { slot := (↑isM.slot : Nat), word := (slotWord 19 wGs), parity := false : Staged } cV) false)
      { s := (atIssue isM { slot := (↑isM.slot : Nat), word := (slotWord 19 wGs), parity := false : Staged } cV), got := [], near := true, bad := none : GsRun }
      (List.range (tyN (eszType (bits (slotWord 19 wGs) 7 6))))).bad = none)) ∧
    ((issuesAlone isM (slotWord 20 wAc0) cV) ∧ (bits (slotWord 20 wAc0) 10 9 = 0 ∨ bits (slotWord 20 wAc0) 10 9 = 2)
      ∧ (addrTrap (opCtx isM { slot := (↑isM.slot : Nat), word := (slotWord 20 wAc0), parity := false : Staged } cV)
      false (bits (slotWord 20 wAc0) 20 17) (vecAddr (opCtx isM
      { slot := (↑isM.slot : Nat), word := (slotWord 20 wAc0), parity := false : Staged } cV) (signed 8 (bits
      (slotWord 20 wAc0) 7 0)) (if bits (slotWord 20 wAc0) 10 9 ≤ 1 then 64 else 8)).fst (if bits (slotWord 20 wAc0)
      10 9 ≤ 1 then 64 else 8) [(0, if bits (slotWord 20 wAc0) 10 9 ≤ 1 then 64 else 8)] = none) ∧ (loadBytes
      (atIssue isM { slot := (↑isM.slot : Nat), word := (slotWord 20 wAc0), parity := false : Staged } cV) (↑isM.core
      : Nat) (decide (bits (slotWord 20 wAc0) 8 8 = 1)) (vecAddr (opCtx isM
      { slot := (↑isM.slot : Nat), word := (slotWord 20 wAc0), parity := false : Staged } cV) (signed 8 (bits
      (slotWord 20 wAc0) 7 0)) (if bits (slotWord 20 wAc0) 10 9 ≤ 1 then 64 else 8)).fst (if bits (slotWord 20 wAc0)
      10 9 ≤ 1 then 64 else 8) = (cV, Except.ok zer64))) ∧
    ((issuesAlone isM (slotWord 20 wAc1) cV) ∧ (bits (slotWord 20 wAc1) 10 9 = 1 ∨ bits (slotWord 20 wAc1) 10 9 = 3)
      ∧ (addrTrap (opCtx isM { slot := (↑isM.slot : Nat), word := (slotWord 20 wAc1), parity := false : Staged } cV)
      true (bits (slotWord 20 wAc1) 20 17) (vecAddr (opCtx isM
      { slot := (↑isM.slot : Nat), word := (slotWord 20 wAc1), parity := false : Staged } cV) (signed 8 (bits
      (slotWord 20 wAc1) 7 0)) (if bits (slotWord 20 wAc1) 10 9 ≤ 1 then 64 else 8)).fst (if bits (slotWord 20 wAc1)
      10 9 ≤ 1 then 64 else 8) [(0, if bits (slotWord 20 wAc1) 10 9 ≤ 1 then 64 else 8)] = none) ∧ (storeBytes
      (atIssue isM { slot := (↑isM.slot : Nat), word := (slotWord 20 wAc1), parity := false : Staged } cV) (↑isM.core
      : Nat) (decide (bits (slotWord 20 wAc1) 8 8 = 1)) (vecAddr (opCtx isM
      { slot := (↑isM.slot : Nat), word := (slotWord 20 wAc1), parity := false : Staged } cV) (signed 8 (bits
      (slotWord 20 wAc1) 7 0)) (if bits (slotWord 20 wAc1) 10 9 ≤ 1 then 64 else 8)).fst (List.map some (leBytes (if
      bits (slotWord 20 wAc1) 10 9 ≤ 1 then 64 else 8) (if bits (slotWord 20 wAc1) 10 9 = 1 then BitVec.toNat (acReg
      (opCtx isM { slot := (↑isM.slot : Nat), word := (slotWord 20 wAc1), parity := false : Staged } cV).x (bits
      (slotWord 20 wAc1) 25 23)) / 2 ^ (512 * bits (slotWord 20 wAc1) 22 21) else BitVec.toNat (pReg (opCtx isM
      { slot := (↑isM.slot : Nat), word := (slotWord 20 wAc1), parity := false : Staged } cV).x (bits (slotWord 20
      wAc1) 25 23))))) = (cV, Except.ok okx))) ∧
    ((issuesAlone isX (slotWord 32 wMxop) cMx) ∧ (mxRefusal (atIssue isX
      { slot := (↑isX.slot : Nat), word := (slotWord 32 wMxop), parity := false : Staged } cMx) (mxcCtx cMx
      (↑isX.core : Nat)).fst (dReg (opCtx isX
      { slot := (↑isX.slot : Nat), word := (slotWord 32 wMxop), parity := false : Staged } cMx).x (2 * bits (slotWord
      32 wMxop) 18 16)) (dReg (opCtx isX
      { slot := (↑isX.slot : Nat), word := (slotWord 32 wMxop), parity := false : Staged } cMx).x (2 * bits (slotWord
      32 wMxop) 18 16 + 1)) = 0)) ∧
    ((issuesAlone isX (slotWord 33 w0) cV)) ∧
    ((issuesAlone isX (slotWord 34 w0) cV)) ∧
    ((issuesAlone isX (slotWord 35 wMx) cV) ∧ (addrTrap (opCtx isX
      { slot := (↑isX.slot : Nat), word := (slotWord 35 wMx), parity := false : Staged } cV) true (bits (slotWord 35
      wMx) 21 19) (BitVec.toNat (aReg (opCtx isX
      { slot := (↑isX.slot : Nat), word := (slotWord 35 wMx), parity := false : Staged } cV).x (bits (slotWord 35
      wMx) 21 19)) % 2 ^ 48) 64 [(0, 64)] = none) ∧ (storeBytes (atIssue isX
      { slot := (↑isX.slot : Nat), word := (slotWord 35 wMx), parity := false : Staged } cV) (↑isX.core : Nat) false
      (BitVec.toNat (aReg (opCtx isX
      { slot := (↑isX.slot : Nat), word := (slotWord 35 wMx), parity := false : Staged } cV).x (bits (slotWord 35
      wMx) 21 19)) % 2 ^ 48) (List.map some (leBytes 4 (BitVec.toNat (mxsbWord (mxCtxOf cV (mxcCtx cV (↑isX.core :
      Nat)).fst (mxcCtx cV (↑isX.core : Nat)).snd))) ++ leBytes 4 (BitVec.toNat (ctxInfo (mxCtxOf cV (mxcCtx cV
      (↑isX.core : Nat)).fst (mxcCtx cV (↑isX.core : Nat)).snd))) ++ List.replicate 56 0)) = (cV, Except.ok okx))) ∧
    ((issuesAlone isX (slotWord 36 wMx) cV) ∧ (addrTrap (opCtx isX
      { slot := (↑isX.slot : Nat), word := (slotWord 36 wMx), parity := false : Staged } cV) false (bits (slotWord 36
      wMx) 21 19) (BitVec.toNat (aReg (opCtx isX
      { slot := (↑isX.slot : Nat), word := (slotWord 36 wMx), parity := false : Staged } cV).x (bits (slotWord 36
      wMx) 21 19)) % 2 ^ 48) 64 [(0, 64)] = none) ∧ (loadBytes (atIssue isX
      { slot := (↑isX.slot : Nat), word := (slotWord 36 wMx), parity := false : Staged } cV) (↑isX.core : Nat) false
      (BitVec.toNat (aReg (opCtx isX
      { slot := (↑isX.slot : Nat), word := (slotWord 36 wMx), parity := false : Staged } cV).x (bits (slotWord 36
      wMx) 21 19)) % 2 ^ 48) 64 = (cV, Except.ok zer64)) ∧ (mxcCtx cV (↑isX.core : Nat) = mxcCtx cV (↑isX.core :
      Nat))) ∧
    ((issuesAlone isX (slotWord 37 w0) cV)) := by
  repeat' apply And.intro
  all_goals first | decide +kernel | exact okIs_eq (by decide +kernel) | exact exIs_eq (by decide +kernel) | exact List.Mem.head _ | exact okRes_eq _ (by decide +kernel) | rfl

end C11

namespace C12

def cc0 : Fin 152 := 0
def coreB : CoreSt := { CoreSt.init with run := .running, pc := 0x001100880000, cr := [(1, 0xA0000000)] }
def inCoreS (x : CoreSt) : State := setCore s0 0 x
/-- Event source 16 drives line 0 of core 0, whose priority is 1. -/
def irqS : State := setRegI { inCoreS { coreB with cr := [(1, 0xA0000000), (0x0C, 1), (0x10, 1)] } with
  evt := { s0.evt with seen := [16] } } 0x001 0x104 16 0x90000000
def n0f : Fin 32 := 0
def wAt : Nat := 0x1000
def werrS : State := inCoreS { coreB with werr := some 0x1000 }
def fireE : FireRec := ⟨1, 5, 1, 0, 0, 0, 0, false, 0, 0, 0, 0, 0, 0, 0⟩
def arrS : State := { setEnabled (inCoreS coreB) 0x030 true with arrived := [fireE] }
def arrW : State := { setEnabled (inCoreS { coreB with run := .fwait, staged := [⟨1, sysWord 0x03 0, false⟩] }) 0x030 true with arrived := [fireE] }
def iE : Nat := 0
def openS : State := inCoreS coreB
def haltS : State := inCoreS { coreB with run := .halted, haltCause := 3 }
def mm : Fin 16 := 0
def km : Fin 8 := 0
def mxD : Nat := 0x001000008000
def mxo (fate : MxFate) : MxOp := ⟨some 0, 0, none, mxD, 0x00010001, 0x10002001, fate, false, false, false, false⟩
def fireM (u : BitVec 2) : FireRec := ⟨1, 5, 1, 0, 0, 0, u, false, BitVec.ofNat 64 mxD, 0, 0, 0, 1, 0, 0⟩
def fM0 : FireRec := fireM 0
def fM1 : FireRec := fireM 1
def mxof (f : FireRec) : MxOp := ⟨none, 0, some f, mxD, 0, 0, .committed, false, false, false, false⟩
def oF0 : MxOp := mxof fM0
def oSq : MxOp := mxo .squash
def oCom : MxOp := mxo .committed
def mxs (s : State) (ops : List MxOp) (r : Nat) : State := setMxc s 0 { MxcSt.init with ops := ops, running := r }
def mSq : State := mxs s0 [oSq] 15
def mF0 : State := mxs s0 [oF0] 15
def mOne : State := mxs s0 [oCom] 15
def cM : Nat := 0
def mNone : State := s0
/-- The descriptor of a product of 1 × 1 matrices. -/
def mxWords : List Word := [0x80020121, 0, 0, 0, 0, 0x00010001, 0x10002001, 0, 0x9000, 0x10, 0xA000, 0x10, 0xB000, 0x10] ++ List.replicate 18 0
def mWithD : State := setBytes s0 mxD (wordsBytes mxWords)
def oRun : MxOp := { oCom with begun := true, now := true }
def mRun : State := mxs mWithD [oRun] 0
def mRunU : State := (mxDesc (setMxc mRun 0 { mxcOf mRun 0 with running := 15 }) 0x020 mxD).1
def mRunV : State := (mxElements 0x020 (shapeOf 0x00010001 0x10002001) mxWords [0] mRunU ⟨0, 0, 0⟩).1
def mWk : MxWork := (mxElements 0x020 (shapeOf 0x00010001 0x10002001) mxWords [0] mRunU ⟨0, 0, 0⟩).2.1
def mFire : State := { setEnabled mWithD 0x020 true with arrived := [fM1] }
def mFireU : State := (mxDesc (takeArrived mFire fM1) 0x020 mxD).1
def mFireHa : State := modReg mFire 0x020 0x10 fun w => putBit w 3 true
def mFireHaU : State := (mxDesc (takeArrived mFireHa fM1) 0x020 mxD).1

/-- The premises of the clauses of CoreEventsComplete are met. -/
theorem wit_CoreEventsComplete :
    (((coreOf irqS (↑cc0 : Nat)).run = CoreRun.running ∧ (coreOf irqS (↑cc0 : Nat)).staged = [] ∨ (coreOf irqS (↑cc0
      : Nat)).run = CoreRun.fwait ∨ (coreOf irqS (↑cc0 : Nat)).run = CoreRun.wait) ∧ (lineWins irqS (↑cc0 : Nat)
      (landBy (isS (↑cc0 : Nat)) (coreOf irqS (↑cc0 : Nat)) (coreOf irqS (↑cc0 : Nat)).cyc) (↑n0f : Nat) = true) ∧
      (blockRuns irqS (corePage (↑cc0 : Nat)) = true)) ∧
    (((coreOf irqS (↑cc0 : Nat)).run = CoreRun.running ∧ (coreOf irqS (↑cc0 : Nat)).staged = [] ∨ (coreOf irqS (↑cc0
      : Nat)).run = CoreRun.fwait ∨ (coreOf irqS (↑cc0 : Nat)).run = CoreRun.wait) ∧ (lineWins irqS (↑cc0 : Nat)
      (landBy (isS (↑cc0 : Nat)) (coreOf irqS (↑cc0 : Nat)) (coreOf irqS (↑cc0 : Nat)).cyc) (↑n0f : Nat) = true) ∧
      (blockRuns irqS (corePage (↑cc0 : Nat)) = true) ∧ ((coreOf irqS (↑cc0 : Nat)).pend = []) ∧ (kup (coreOf irqS
      (↑cc0 : Nat)).cr = true)) ∧
    ((blockRuns werrS (corePage (↑cc0 : Nat)) = true) ∧ ((coreOf werrS (↑cc0 : Nat)).werr = some wAt) ∧ (shbOf
      (coreOf werrS (↑cc0 : Nat)) = false) ∧ ((coreOf werrS (↑cc0 : Nat)).run = CoreRun.running ∧ (coreOf werrS (↑cc0
      : Nat)).staged = [] ∨ (coreOf werrS (↑cc0 : Nat)).run = CoreRun.fwait ∨ (coreOf werrS (↑cc0 : Nat)).run =
      CoreRun.wait)) ∧
    ((memberPage arrS fireE.pool.toNat fireE.member.toNat = some (corePage (↑cc0 : Nat))) ∧ (fireE ∈ arrS.arrived) ∧
      (pageClock arrS (corePage (↑cc0 : Nat)) = true) ∧ (enabled arrS (corePage (↑cc0 : Nat)) = true) ∧ ((coreOf arrS
      (↑cc0 : Nat)).run ≠ CoreRun.halted) ∧ (List.find? (fun i => !(coreOf arrS (↑cc0 : Nat)).slots.any fun g =>
      decide (g.idx = i)) (List.range (slotCount (↑cc0 : Nat))) = some iE) ∧ ((coreOf (modCore (if isS (↑cc0 : Nat) =
      true then memPut (takeArrived arrS fireE) (corePage (↑cc0 : Nat)) (slotAddr (takeArrived arrS fireE) (↑cc0 :
      Nat) iE) (fireBytes fireE) else (memWrite (takeArrived arrS fireE) (corePage (↑cc0 : Nat)) (slotAddr
      (takeArrived arrS fireE) (↑cc0 : Nat) iE) (fireBytes fireE)).fst) (↑cc0 : Nat) fun x =>
      { x with slots := (x.slots ++ [{ idx := iE, rec_ := fireE, current := false : FireSlot }]) : CoreSt }) (↑cc0 :
      Nat)).run ≠ CoreRun.fwait)) ∧
    ((memberPage arrW fireE.pool.toNat fireE.member.toNat = some (corePage (↑cc0 : Nat))) ∧ (fireE ∈ arrW.arrived) ∧
      (pageClock arrW (corePage (↑cc0 : Nat)) = true) ∧ (enabled arrW (corePage (↑cc0 : Nat)) = true) ∧ ((coreOf arrW
      (↑cc0 : Nat)).run ≠ CoreRun.halted) ∧ (List.find? (fun i => !(coreOf arrW (↑cc0 : Nat)).slots.any fun g =>
      decide (g.idx = i)) (List.range (slotCount (↑cc0 : Nat))) = some iE) ∧ ((coreOf (modCore (if isS (↑cc0 : Nat) =
      true then memPut (takeArrived arrW fireE) (corePage (↑cc0 : Nat)) (slotAddr (takeArrived arrW fireE) (↑cc0 :
      Nat) iE) (fireBytes fireE) else (memWrite (takeArrived arrW fireE) (corePage (↑cc0 : Nat)) (slotAddr
      (takeArrived arrW fireE) (↑cc0 : Nat) iE) (fireBytes fireE)).fst) (↑cc0 : Nat) fun x =>
      { x with slots := (x.slots ++ [{ idx := iE, rec_ := fireE, current := false : FireSlot }]) : CoreSt }) (↑cc0 :
      Nat)).run = CoreRun.fwait)) ∧
    ((reaches openS sv (corePage (↑cc0 : Nat))) ∧ (debugOpen openS = true) ∧ ((coreOf openS (↑cc0 : Nat)).run =
      CoreRun.running ∨ (coreOf openS (↑cc0 : Nat)).run = CoreRun.fwait ∨ (coreOf openS (↑cc0 : Nat)).run =
      CoreRun.wait)) ∧
    ((reaches haltS sv (corePage (↑cc0 : Nat))) ∧ (debugOpen haltS = true) ∧ ((coreOf haltS (↑cc0 : Nat)).run =
      CoreRun.halted) ∧ ((coreOf haltS (↑cc0 : Nat)).haltCause = 3)) := by
  repeat' apply And.intro
  all_goals first | decide +kernel | exact okIs_eq (by decide +kernel) | exact exIs_eq (by decide +kernel) | exact List.Mem.head _ | exact okRes_eq _ (by decide +kernel) | rfl

/-- The premises of the clauses of MxcCommandsComplete are met. -/
theorem wit_MxcCommandsComplete :
    ((blockRuns mSq (mxcPage (↑mm : Nat)) = true)) ∧
    ((blockRuns mSq (mxcPage (↑mm : Nat)) = true) ∧ (List.filter (fun o => decide (o.ctx = some (↑km : Nat) ∧ o.fate
      = MxFate.squash)) (mxcOf mSq (↑mm : Nat)).ops = [oSq])) ∧
    ((blockRuns mF0 (mxcPage (↑mm : Nat)) = true) ∧ ((mxFires (mxcOf mF0 (↑mm : Nat))).head? = some oF0) ∧ (oF0.fire
      = some fM0) ∧ (fM0.urg = 0)) ∧
    ((blockRuns mOne (mxcPage (↑mm : Nat)) = true) ∧ (Option.any (fun o => Option.any (fun f => decide (f.urg = 0))
      o.fire) (mxFires (mxcOf mOne (↑mm : Nat))).head? = false) ∧ (List.find? (fun c => (mxHead (mxcOf mOne (↑mm :
      Nat)) c).isSome) (List.map (fun i => ((mxcOf mOne (↑mm : Nat)).rot + 1 + i) % 9) (List.range 9)) = some cM)) ∧
    ((blockRuns mSq (mxcPage (↑mm : Nat)) = true) ∧ ((mxFires (mxcOf mSq (↑mm : Nat))).head? = none) ∧ (List.find?
      (fun c => (mxHead (mxcOf mSq (↑mm : Nat)) c).isSome) (List.map (fun i => ((mxcOf mSq (↑mm : Nat)).rot + 1 + i)
      % 9) (List.range 9)) = none)) ∧
    ((blockRuns mRun (mxcPage (↑mm : Nat)) = true) ∧ (mRun.memc.fc = none) ∧ (dramClock mRun = true) ∧ (List.find?
      (fun x => x.now) (mxcOf mRun (↑mm : Nat)).ops = some oRun) ∧ (oRun.fire.isSome = true ∨ oRun.fate =
      MxFate.committed) ∧ (mxDesc (setMxc mRun (↑mm : Nat) { (mxcOf mRun (↑mm : Nat)) with running := 15 : MxcSt })
      (mxcPage (↑mm : Nat)) oRun.desc = (mRunU, Except.ok mxWords)) ∧ (oRun.fire.isSome = true ∨ wWord mxWords 5 =
      oRun.shape0 ∧ wWord mxWords 6 = oRun.shape1) ∧ (bit (wWord mxWords 0) 31 = true) ∧ (mxDescOk mxWords = true) ∧
      (oRun.cancelled = false) ∧ (mxElements (mxcPage (↑mm : Nat)) (shapeOf (wWord mxWords 5) (wWord mxWords 6))
      mxWords (List.range (shapeOf (wWord mxWords 5) (wWord mxWords 6)).count) mRunU
      { done := 0, sat := 0, notPd := 0 : MxWork } = (mRunV, mWk, none))) ∧
    ((fM1.member.toNat % 16 = (↑mm : Nat)) ∧ (∀ (y : Nat × FireRec), y ∈ mFire.unowned → y.fst ≠ mxcPage (↑mm : Nat))
      ∧ (fM1 ∈ mFire.arrived) ∧ (pageClock mFire (mxcPage (↑mm : Nat)) = true) ∧ (enabled mFire (mxcPage (↑mm : Nat))
      = true) ∧ (mxDesc (takeArrived mFire fM1) (mxcPage (↑mm : Nat)) (fM1.p0.toNat % 2 ^ 48) = (mFireU, Except.ok
      mxWords)) ∧ (bit (wWord mxWords 0) 31 = true) ∧ (mxDescOk mxWords = true) ∧ (fM1.opcode.toNat = bits (wWord
      mxWords 0) 3 0) ∧ (haActive (modMxc (mxRetry (↑mm : Nat) mFireU) (↑mm : Nat) fun x =>
      { x with ops := (x.ops ++ [{ ctx := none, sb := 0, fire := (some fM1), desc := (fM1.p0.toNat % 2 ^ 48), shape0 := 0, shape1 := 0, fate := MxFate.committed, cancelled := false, waiting := false, begun := false, now := false : MxOp }]) : MxcSt })
      (mxcPage (↑mm : Nat)) = false)) ∧
    ((fM1.member.toNat % 16 = (↑mm : Nat)) ∧ (∀ (y : Nat × FireRec), y ∈ mFireHa.unowned → y.fst ≠ mxcPage (↑mm :
      Nat)) ∧ (fM1 ∈ mFireHa.arrived) ∧ (pageClock mFireHa (mxcPage (↑mm : Nat)) = true) ∧ (enabled mFireHa (mxcPage
      (↑mm : Nat)) = true) ∧ (mxDesc (takeArrived mFireHa fM1) (mxcPage (↑mm : Nat)) (fM1.p0.toNat % 2 ^ 48) =
      (mFireHaU, Except.ok mxWords)) ∧ (bit (wWord mxWords 0) 31 = true) ∧ (mxDescOk mxWords = true) ∧
      (fM1.opcode.toNat = bits (wWord mxWords 0) 3 0) ∧ (haActive (modMxc (mxRetry (↑mm : Nat) mFireHaU) (↑mm : Nat)
      fun x =>
      { x with ops := (x.ops ++ [{ ctx := none, sb := 0, fire := (some fM1), desc := (fM1.p0.toNat % 2 ^ 48), shape0 := 0, shape1 := 0, fate := MxFate.committed, cancelled := false, waiting := false, begun := false, now := false : MxOp }]) : MxcSt })
      (mxcPage (↑mm : Nat)) = true)) ∧
    ((reaches mNone sv (mxcPage (↑mm : Nat)))) := by
  repeat' apply And.intro
  all_goals first | decide +kernel | exact okIs_eq (by decide +kernel) | exact exIs_eq (by decide +kernel) | exact List.Mem.head _ | exact okRes_eq _ (by decide +kernel) | rfl

end C12

namespace C13

/-- Every router enabled. -/
def fabS : State := (List.range 7).foldl (fun s r => setEnabled s (0x0F8 + r) true) s0
def adr : Addr := 0x001000000040
def n4 : Nat := 4
def msx : Addr := 0x800000
def hostA : Acc := ⟨.host, false⟩
def dat : List Byte := [1, 2, 3, 4]
def beW : BitVec 64 := 0xF
def dst36 : Nat := 36
def oMsix : Nat := 0
def dMem : Nat := 0x001000000040
def rq (w : Bool) : Req := ⟨0, .sv 0, false, 44, 36, 0, w, 0x001000000040, 4, if w then [1, 2, 3, 4] else [], if w then 0xF else 0, 0, none, false, 0, 0, false, none⟩
/-- The state in which the queued request `q` is served. -/
def served (q : Req) (s : State) : State :=
  modReq (crossHops (hopsOf q.srcLp 36) 4 (reqHdr s { q with dstLp := 36 }) s) q.id fun r =>
    { r with dstLp := 36, epoch := stamped s q, at_ := some ⟨7, 0, 4, 0, 0⟩ }
def withReq (q : Req) : State := { fabS with fab := { fabS.fab with reqs := [q], nextId := 1 }, time := { s0.time with free := 98304000 } }
def qDone : Req := { rq false with answer := some (.ok, [0, 0, 0, 0]) }
def qDoneW : Req := { rq true with answer := some (.ok, []) }
def qOpen : Req := rq false
def rOk : Resp := .ok
def d4 : List Byte := [0, 0, 0, 0]
def d0 : List Byte := []
def sDone : State := withReq qDone
def sDoneW : State := withReq qDoneW
def sOpen : State := withReq qOpen
def qW : Req := rq true
def sQW : State := withReq qW
def rdV : State := (serveRd { qOpen with dstLp := 36 } (served qOpen sOpen)).2
def rdR : Resp × List Byte := (.ok, [0, 0, 0, 0])
def wrV : State := (serveWr { qW with dstLp := 36 } false (served qW sQW)).2
def wrR : Resp × List Byte := match (serveWr { qW with dstLp := 36 } false (served qW sQW)).1 with | some r => r | none => (.ok, [])
def lp44 : Fin 48 := 44
def cl1 : Fin 4 := 1
def tpk : TokPkt := ⟨44, 2, 0, [(⟨1, 5, 0, 0, 0, 0, 0⟩, 1)], none⟩
def noPk : List TokPkt := []
def sTok : State := { fabS with fab := { fabS.fab with tokPkts := [tpk] } }
def lp32 : Fin 48 := 0
def c0F : Bool := true
def fireX : FireRec := ⟨1, 5, 1, 0, 0, 0, 0, false, 0, 0, 0, 0, 0, 0, 0⟩
def fpk : FirePkt := ⟨0, true, 0, fireX, none⟩
def sFire : State := { fabS with fab := { fabS.fab with firePkts := [fpk] } }
def pg30 : Nat := 0x030
def r0f : Fin 7 := 0
def out8 : Fin 24 := 8
def slot1 : BitVec 8 := 1
def in3 : BitVec 6 := 3
/-- The slot's entry in error. -/
def sSlotBad : State := setMark { fabS with fab := { fabS.fab with slot := [(slotKey 0 0 8 1, 0x103)] } } (slotMark 0 0 8 1) .ue
def sSlot : State := { fabS with fab := { fabS.fab with slot := [(slotKey 0 0 8 1, 0x103)] } }
def bF : Fin 6 := 0
def kF : Fin 5 := 0
def atR : Bool := true
def fixS (sp : Bool) : LinkFix := ⟨0, 1, 0, sp⟩
def fixT : LinkFix := fixS true
def fixF : LinkFix := fixS false
def sFixT : State := { fabS with fab := { fabS.fab with fixes := [fixT] } }
def sFixF : State := { fabS with fab := { fabS.fab with fixes := [fixF] } }
/-- An access over the maintenance ring. -/
def rg : Acc := ⟨.jtag, true⟩
def vT : Word := 0x81
def vS : Word := 0x103
def sTbl (sel : Word) : State := setReg s0 0x0F8 0x11C sel
def tblR : State := sTbl 0x80000005
def tblSl : State := sTbl 0x90080001
def vOne : Word := 1
def flipV : Word := 0x80000001
def flipF (fallen : Bool) : Flip := ⟨1, 0, fallen⟩
def fl0 : Flip := flipF false
def fl1 : Flip := flipF true
def sFl0 : State := { fabS with fab := { fabS.fab with flip := some fl0 } }
def sFl1 : State := { fabS with fab := { fabS.fab with flip := some fl1, cur := 1 } }
def n8f : Fin 8 := 0
def ltOn : Word := 0x80000000
def sLt : State := setReg (setReg fabS 0x0F8 0x200 0x80000100) 0x0F8 0x214 0
def mHost : RingMaster := .jtag
def pTime : Fin 1024 := 3
def rReg : Fin 1024 := 0
def ringRq (w : Option Word) : RingReq := ⟨.jtag, .page 3 0, w, 0⟩
def rrR : RingReq := ringRq none
def rrW : RingReq := ringRq (some 1)
def sRR : State := { fabS with fab := { fabS.fab with ringReqs := [rrR] }, time := { s0.time with free := 98304000 } }
def sRW : State := { fabS with fab := { fabS.fab with ringReqs := [rrW] }, time := { s0.time with free := 98304000 } }
def stF : Fin 64 := 5
def coreF : Fin 144 := 0
def wordF : Fin 163840 := 0

/-- The premises of the clauses of FabricTransfersComplete are met. -/
theorem wit_FabricTransfersComplete :
    ((findReq sOpen qOpen.id = some qOpen) ∧ (qOpen.answer = none) ∧ (qOpen.lost = false) ∧ (dmaUnsent sOpen qOpen =
      false) ∧ (rtrOn sOpen (qOpen.srcLp / 8) = true) ∧ (fabricClock sOpen = true) ∧ (addrLp sOpen qOpen.addr = some
      dst36) ∧ (pageOrderHeld sOpen { qOpen with dstLp := dst36 : Req } = false) ∧ (Option.any (fun p => decide (p.r
      = 7)) qOpen.at_ = true ∨ canGo sOpen (stamped sOpen qOpen) qOpen.at_ qOpen.srcLp dst36 4 = true) ∧ (pathCheck
      sOpen (stamped sOpen qOpen) dst36 (if Option.any (fun p => decide (p.r = 7)) qOpen.at_ = true then [] else
      List.drop (match qOpen.at_ with | some p => p.hop | none => 0) (hopsOf qOpen.srcLp dst36)) = (sOpen, false)) ∧
      (qOpen.isWrite = false) ∧ (serveRd { qOpen with dstLp := dst36 : Req } (modReq (crossHops (if Option.any (fun p
      => decide (p.r = 7)) qOpen.at_ = true then [] else List.drop
      (match qOpen.at_ with | some p => p.hop | none => 0) (hopsOf qOpen.srcLp dst36)) 4 (reqHdr sOpen
      { qOpen with dstLp := dst36 : Req }) sOpen) qOpen.id fun r =>
      { r with dstLp := dst36, epoch := (stamped sOpen qOpen), at_ := (some { r := 7, inp := 0, tc := 4, turn := 0, hop := 0 : QPos }) : Req })
      = (some rdR, rdV))) ∧
    ((findReq sQW qW.id = some qW) ∧ (qW.answer = none) ∧ (qW.lost = false) ∧ (dmaUnsent sQW qW = false) ∧ (rtrOn sQW
      (qW.srcLp / 8) = true) ∧ (fabricClock sQW = true) ∧ (addrLp sQW qW.addr = some dst36) ∧ (pageOrderHeld sQW
      { qW with dstLp := dst36 : Req } = false) ∧ (Option.any (fun p => decide (p.r = 7)) qW.at_ = true ∨ canGo sQW
      (stamped sQW qW) qW.at_ qW.srcLp dst36 4 = true) ∧ (pathCheck sQW (stamped sQW qW) dst36 (if Option.any (fun p
      => decide (p.r = 7)) qW.at_ = true then [] else List.drop (match qW.at_ with | some p => p.hop | none => 0)
      (hopsOf qW.srcLp dst36)) = (sQW, false)) ∧ (qW.isWrite = true) ∧ (serveWr { qW with dstLp := dst36 : Req }
      false (modReq (crossHops (if Option.any (fun p => decide (p.r = 7)) qW.at_ = true then [] else List.drop
      (match qW.at_ with | some p => p.hop | none => 0) (hopsOf qW.srcLp dst36)) 4 (reqHdr sQW
      { qW with dstLp := dst36 : Req }) sQW) qW.id fun r =>
      { r with dstLp := dst36, epoch := (stamped sQW qW), at_ := (some { r := 7, inp := 0, tc := 4, turn := 0, hop := 0 : QPos }) : Req })
      = (some wrR, wrV))) ∧
    ((findReq fabS fabS.fab.nextId = none) ∧ (1 ≤ n4) ∧ (n4 ≤ 256) ∧ (msixPlace hostA (BitVec.toNat msx) = some
      oMsix)) ∧
    ((findReq fabS fabS.fab.nextId = none) ∧ (1 ≤ n4) ∧ (n4 ≤ 256) ∧ (msixPlace sv (BitVec.toNat adr) = none) ∧
      (rtrOn fabS (initLp fabS sv.who / 8) = true) ∧ (barAddr fabS sv false (BitVec.toNat adr) = some dMem)) ∧
    ((findReq fabS fabS.fab.nextId = none) ∧ (dat ≠ []) ∧ (dat.length ≤ 64) ∧ (msixPlace hostA (BitVec.toNat msx) =
      some oMsix)) ∧
    ((findReq fabS fabS.fab.nextId = none) ∧ (dat ≠ []) ∧ (dat.length ≤ 64) ∧ (msixPlace sv (BitVec.toNat adr) =
      none) ∧ (rtrOn fabS (initLp fabS sv.who / 8) = true) ∧ (barAddr fabS sv true (BitVec.toNat adr) = some dMem)) ∧
    ((findReq sDone qDone.id = some qDone) ∧ (qDone.answer = some (rOk, d4)) ∧ (qDone.dead = false) ∧ ((addrLp sDone
      qDone.addr).isSome = true) ∧ (fabricClock sDone = true) ∧ (Option.all (fun p => decide (p.r ≠ 7)) qDone.at_ =
      true) ∧ (canGo sDone (stamped sDone qDone) qDone.at_ qDone.dstLp qDone.srcLp 3 = true) ∧ (pathCheck sDone
      (stamped sDone qDone) qDone.srcLp (List.drop (match qDone.at_ with | some p => p.hop | none => 0) (hopsOf
      qDone.dstLp qDone.srcLp)) = (sDone, false)) ∧ (qDone.isWrite = false)) ∧
    ((findReq sDoneW qDoneW.id = some qDoneW) ∧ (qDoneW.answer = some (rOk, d0)) ∧ (qDoneW.dead = false) ∧ ((addrLp
      sDoneW qDoneW.addr).isSome = true) ∧ (fabricClock sDoneW = true) ∧ (Option.all (fun p => decide (p.r ≠ 7))
      qDoneW.at_ = true) ∧ (canGo sDoneW (stamped sDoneW qDoneW) qDoneW.at_ qDoneW.dstLp qDoneW.srcLp 3 = true) ∧
      (pathCheck sDoneW (stamped sDoneW qDoneW) qDoneW.srcLp (List.drop
      (match qDoneW.at_ with | some p => p.hop | none => 0) (hopsOf qDoneW.dstLp qDoneW.srcLp)) = (sDoneW, false)) ∧
      (qDoneW.isWrite = true)) ∧
    ((findReq sOpen qOpen.id = some qOpen) ∧ (qOpen.dead = false) ∧ (dmaUnsent sOpen qOpen = false) ∧ (usSince sOpen
      qOpen.since (lpTimeout sOpen qOpen.srcLp) = true)) ∧
    ((pllOn sTok 17 = true) ∧ (nextTokens sTok (↑lp44 : Nat) (if (↑cl1 : Nat) = 0 then 1 else 2) = some (tpk, noPk))
      ∧ (canGo sTok tpk.epoch tpk.at_ (↑lp44 : Nat) 43 (if (↑cl1 : Nat) = 0 then 1 else 2) = true) ∧ (Option.all (fun
      p => decide (p.r ≠ 7)) tpk.at_ = true) ∧ (pathCheck sTok tpk.epoch 43 (List.drop
      (match tpk.at_ with | some p => p.hop | none => 0) (hopsOf (↑lp44 : Nat) 43)) = (sTok, false))) ∧
    ((List.find? (fun t => decide (t.lp = (↑lp32 : Nat) ∧ t.cls0 = c0F)) sFire.fab.firePkts = some fpk) ∧ (pllOn
      sFire 17 = true) ∧ (canGo sFire (if fpk.at_.isSome = true then fpk.epoch else sFire.fab.cur) fpk.at_ 43 (↑lp32
      : Nat) (if c0F = true then 1 else 2) = true) ∧ (Option.all (fun p => decide (p.r ≠ 7)) fpk.at_ = true) ∧
      (pathCheck sFire (if fpk.at_.isSome = true then fpk.epoch else sFire.fab.cur) (↑lp32 : Nat) (List.drop
      (match fpk.at_ with | some p => p.hop | none => 0) (hopsOf 43 (↑lp32 : Nat))) = (sFire, false)) ∧
      (fpk.rec_.pool = 2 → 1 ≤ fireKind fpk.rec_ ∧ fireKind fpk.rec_ ≤ 6) ∧ (fpk.rec_.pool = 3 → 1 ≤ fireKind
      fpk.rec_ ∧ fireKind fpk.rec_ ≤ 7) ∧ (fpk.rec_.pool = 4 → 1 ≤ fpk.rec_.opcode.toNat ∧ fpk.rec_.opcode.toNat ≤ 5)
      ∧ (fpk.rec_.pool = 5 → 1 ≤ fpk.rec_.opcode.toNat ∧ fpk.rec_.opcode.toNat ≤ 3) ∧ (memberPage (setFirePkts
      (crossHops (List.drop (match fpk.at_ with | some p => p.hop | none => 0) (hopsOf 43 (↑lp32 : Nat))) (if c0F =
      true then 1 else 2) (packetHdr (if fpk.at_.isSome = true then fpk.epoch else sFire.fab.cur) 43 (↑lp32 : Nat)
      (if c0F = true then 1 else 2) 6 0 0 0 0 0) sFire) (dropFirst (fun u => decide (u.lp = (↑lp32 : Nat) ∧ u.cls0 =
      c0F)) sFire.fab.firePkts)) fpk.rec_.pool.toNat fpk.rec_.member.toNat = some pg30) ∧ (pageOn (setFirePkts
      (crossHops (List.drop (match fpk.at_ with | some p => p.hop | none => 0) (hopsOf 43 (↑lp32 : Nat))) (if c0F =
      true then 1 else 2) (packetHdr (if fpk.at_.isSome = true then fpk.epoch else sFire.fab.cur) 43 (↑lp32 : Nat)
      (if c0F = true then 1 else 2) 6 0 0 0 0 0) sFire) (dropFirst (fun u => decide (u.lp = (↑lp32 : Nat) ∧ u.cls0 =
      c0F)) sFire.fab.firePkts)) pg30 = true)) ∧
    ((rtrOn sSlot (↑r0f : Nat) = true) ∧ (pllOn sSlot 17 = true) ∧ (bit (slotOf sSlot sSlot.fab.cur (↑r0f : Nat)
      (↑out8 : Nat) slot1.toNat) 8 = true)) ∧
    ((rtrOn sSlotBad (↑r0f : Nat) = true) ∧ (pllOn sSlotBad 17 = true) ∧ (bit (slotOf sSlotBad sSlotBad.fab.cur (↑r0f
      : Nat) (↑out8 : Nat) slot1.toNat) 8 = true) ∧ (getMark sSlotBad (slotMark sSlotBad.fab.cur (↑r0f : Nat) (↑out8
      : Nat) slot1.toNat) = Mark.ue)) ∧
    ((rtrOn sSlot (↑r0f : Nat) = true) ∧ (pllOn sSlot 17 = true) ∧ (bit (slotOf sSlot sSlot.fab.cur (↑r0f : Nat)
      (↑out8 : Nat) slot1.toNat) 8 = true) ∧ (slotCheck sSlot sSlot.fab.cur (↑r0f : Nat) (↑out8 : Nat) slot1.toNat =
      (sSlot, false)) ∧ (bits (slotOf sSlot sSlot.fab.cur (↑r0f : Nat) (↑out8 : Nat) slot1.toNat) 5 0 = in3.toNat) ∧
      (Option.all (fun x => bundleOk sSlot sSlot.fab.cur x.fst x.snd && !sSlot.fab.rerouted.contains x) (outLink
      (↑r0f : Nat) (↑out8 : Nat)) = true)) := by
  repeat' apply And.intro
  all_goals first | decide +kernel | exact okIs_eq (by decide +kernel) | exact exIs_eq (by decide +kernel) | exact List.Mem.head _ | exact okRes_eq _ (by decide +kernel) | rfl

/-- The premises of the clauses of FabricControlComplete are met. -/
theorem wit_FabricControlComplete :
    ((fabS.fab.leafDown.contains (↑lp44 : Nat) = false)) ∧
    ((fabS.fab.downLinks.contains (if atR = true then 6 else (↑bF : Nat), (↑bF : Nat), (↑kF : Nat)) = false) ∧ (bit
      (linkCfg fabS (if atR = true then 6 else (↑bF : Nat)) (↑bF : Nat)) (↑kF : Nat) = true) ∧ (deadLogical fabS (↑bF
      : Nat) (↑kF : Nat) ≠ []) ∧ (fabS.fab.downLinks.contains (if atR = true then (↑bF : Nat) else 6, (↑bF : Nat),
      (↑kF : Nat)) = false)) ∧
    ((fabS.fab.downLinks.contains (if atR = true then 6 else (↑bF : Nat), (↑bF : Nat), (↑kF : Nat)) = false) ∧ (bit
      (linkCfg fabS (if atR = true then 6 else (↑bF : Nat)) (↑bF : Nat)) (↑kF : Nat) = true) ∧ (rtrOn fabS (if atR =
      true then 6 else (↑bF : Nat)) = true) ∧ (fabS.fab.upLinks.contains (if atR = true then 6 else (↑bF : Nat), (↑bF
      : Nat), (↑kF : Nat)) = false)) ∧
    ((fixDue sFixT (↑bF : Nat) true = some fixT)) ∧
    ((fixDue sFixF (↑bF : Nat) false = some fixF)) ∧
    ((reaches tblR rg (rtrPage (↑r0f : Nat))) ∧ (tblLocked tblR rg (↑r0f : Nat) (bits (getReg tblR (rtrPage (↑r0f :
      Nat)) 284) 31 31) = false) ∧ (bits (getReg tblR (rtrPage (↑r0f : Nat)) 284) 29 28 = 0) ∧ (bits (getReg tblR
      (rtrPage (↑r0f : Nat)) 284) 7 0 < 48)) ∧
    ((reaches tblR rg (rtrPage (↑r0f : Nat))) ∧ (tblLocked tblR rg (↑r0f : Nat) (bits (getReg tblR (rtrPage (↑r0f :
      Nat)) 284) 31 31) = false) ∧ (bits (getReg tblR (rtrPage (↑r0f : Nat)) 284) 29 28 = 0) ∧ (bits (getReg tblR
      (rtrPage (↑r0f : Nat)) 284) 7 0 < 48) ∧ (kup tblR.fab.route = true)) ∧
    ((reaches tblSl rg (rtrPage (↑r0f : Nat))) ∧ (tblLocked tblSl rg (↑r0f : Nat) (bits (getReg tblSl (rtrPage (↑r0f
      : Nat)) 284) 31 31) = false) ∧ (bits (getReg tblSl (rtrPage (↑r0f : Nat)) 284) 29 28 = 1) ∧ (slotOut (↑r0f :
      Nat) (bits (getReg tblSl (rtrPage (↑r0f : Nat)) 284) 21 16) = true) ∧ (slotsOk tblSl (bits (getReg tblSl
      (rtrPage (↑r0f : Nat)) 284) 31 31) (↑r0f : Nat) (bits (getReg tblSl (rtrPage (↑r0f : Nat)) 284) 21 16) (bits
      (getReg tblSl (rtrPage (↑r0f : Nat)) 284) 7 0) vS = true)) ∧
    ((reaches tblSl rg (rtrPage (↑r0f : Nat))) ∧ (tblLocked tblSl rg (↑r0f : Nat) (bits (getReg tblSl (rtrPage (↑r0f
      : Nat)) 284) 31 31) = false) ∧ (bits (getReg tblSl (rtrPage (↑r0f : Nat)) 284) 29 28 = 1) ∧ (slotOut (↑r0f :
      Nat) (bits (getReg tblSl (rtrPage (↑r0f : Nat)) 284) 21 16) = true) ∧ (slotsOk tblSl (bits (getReg tblSl
      (rtrPage (↑r0f : Nat)) 284) 31 31) (↑r0f : Nat) (bits (getReg tblSl (rtrPage (↑r0f : Nat)) 284) 21 16) (bits
      (getReg tblSl (rtrPage (↑r0f : Nat)) 284) 7 0) vS = true) ∧ (kup tblSl.fab.slot = true)) ∧
    ((reaches tblR rg (rtrPage (↑r0f : Nat))) ∧ (bit vT 0 = true) ∧ (tblR.fab.cur ≤ 1) ∧ (kup tblR.fab.route = true)
      ∧ (kup tblR.fab.slot = true) ∧ (tblLocked tblR rg (↑r0f : Nat) (1 - tblR.fab.cur) = false)) ∧
    ((reaches fabS sv 6) ∧ (bit flipV 31 = true) ∧ (fabS.fab.flip = none) ∧ (∀ (r : Nat), r < 7 → bit flipV r = true
      → inRouter fabS (1 - fabS.fab.cur) r = 0)) ∧
    ((sFl0.fab.flip = some fl0) ∧ (fl0.fallen = false) ∧ (fl0.frame ≤ fabFrame sFl0) ∧ (pllOn sFl0 17 = true)) ∧
    ((sFl1.fab.flip = some fl1) ∧ (fl1.fallen = true) ∧ (∀ (r : Nat), r < 7 → fl1.routers.getLsbD r = true → inRouter
      sFl1 (1 - sFl1.fab.cur) r = 0)) ∧
    ((reaches fabS sv (rtrPage (↑r0f : Nat))) ∧ (bit ltOn 31 = true)) ∧
    ((reaches sLt sv (rtrPage (↑r0f : Nat))) ∧ (bit vOne 31 = false)) ∧
    ((bit (getReg sLt (rtrPage (↑r0f : Nat)) (512 + 32 * (↑n8f : Nat))) 31 = true) ∧ (bit (getReg sLt (rtrPage (↑r0f
      : Nat)) (512 + 32 * (↑n8f : Nat))) 8 = true) ∧ (¬(↑r0f : Nat) * 8 + (↑n8f : Nat) ∈ sLt.fab.armed) ∧ (pllOn sLt
      17 = true) ∧ (0 ≤ sinceTarget sLt (getReg sLt (rtrPage (↑r0f : Nat)) (532 + 32 * (↑n8f : Nat))))) ∧
    (((List.filter (fun x => decide (x.master = mHost)) fabS.fab.ringReqs).length < 8) ∧ (stationOk fabS (pageStation
      (↑pTime : Nat)) = true)) ∧
    (((List.filter (fun x => decide (x.master = mHost)) fabS.fab.ringReqs).length < 8) ∧ (stationOk fabS (pageStation
      (corePage (↑coreF : Nat))) = true) ∧ (pdState fabS ((↑coreF : Nat) / 9) = PdState.on)) ∧
    ((List.find? (fun x => decide (x.master = mHost)) sRR.fab.ringReqs = some rrR) ∧ (mHost ≠ RingMaster.bridge) ∧
      (usSince sRR rrR.since (max 1 (bits (getReg sRR 6 260) 7 0)) = true) ∧ (rrR.wr = none)) ∧
    ((List.find? (fun x => decide (x.master = mHost)) sRW.fab.ringReqs = some rrW) ∧ (mHost ≠ RingMaster.bridge) ∧
      (usSince sRW rrW.since (max 1 (bits (getReg sRW 6 260) 7 0)) = true) ∧ (rrW.wr ≠ none)) := by
  repeat' apply And.intro
  all_goals first | decide +kernel | exact okIs_eq (by decide +kernel) | exact exIs_eq (by decide +kernel) | exact List.Mem.head _ | exact okRes_eq _ (by decide +kernel) | rfl

end C13

namespace C14

def ch0 : Fin 1024 := 0
def dmaS (cfg : Word) (x : DmaCh) : State := setDma (setEnabled (setReg s0 0x200 0 cfg) 0x0D8 true) 0 x
def dIdle : State := dmaS 0x80000000 DmaCh.init
def stop (ab : Bool) : DmaStop := ⟨7, 0, 0, 0, 0, ab⟩
def stA : DmaStop := stop true
def stE : DmaStop := stop false
def dRunS : State := dmaS 0x80000000 { DmaCh.init with st := 1 }
def dHalted : State := dmaS 0x80000000 { DmaCh.init with st := 3 }
def dStopA : State := dmaS 0x80000000 { DmaCh.init with st := 2, stop := some stA, words := [0x80010000], desc := 0x001000000000 }
def dStopE : State := dmaS 0x80000000 { DmaCh.init with st := 2, stop := some stE, words := [0x80010000], desc := 0x001000000000 }
def fDma : FireRec := ⟨1, 5, 0, 0, 0, 0, 0, false, 0, 0, 0, 0, 6, 0, 0⟩
def dFireS : State := { dmaS 0x80010000 DmaCh.init with arrived := [fDma] }
def pCore : Fin 512 := 0x030
def arr0 : BitVec 8 := 0
def w16 : Fin 16384 := 0
def base30 : Nat := coreKey 0 0
def pLlc : Fin 512 := 0x0F0
def baseLl : Nat := (arrayBase 0x0F0 0).getD 0
def vRep : Word := 1
def rrS : State := setReg s0 0x0F0 0x110 0x00300000
def rep : State := { s0 with memc := { s0.memc with repairing := some (0x030 * 256, 5) } }
def arrN : Nat := 0x030 * 256
def row5 : Nat := 5
def repU : State := (moveRow arrN row5 rep).1
def ueB : Bool := false
def h0 : Fin 2 := 0
def bpLo : Option Word := some 5
def bpS : State := { s0 with holdWr := [((0x0F0 * 4096 + 0x100) * 4 + accPath sv, some 5)] }
def bpU : State := (takeLo bpS sv 0x0F0 0x100).2
def dramOff : State := setReg s0 0x0E0 0x104 0
def initS : State := { modReg s0 0x0E0 0x08 (fun w => putBit w 0 true) with memc := { s0.memc with init := true } }
def fFc : FireRec := ⟨1, 5, 1, 0, 0, 0, 0, false, 1, 0, 0, 0, 7, 0, 0⟩
def dramOn : State := { setReg (setReg (setEnabled s0 0x0E0 true) 0x0E0 0x104 6400) 0x0E0 0x108 1 with arrived := [fFc] }
def vGo : Word := 0x80000001
def nsW : Nat := 4
def byReg : FcBy := .reg
def byFire : FcBy := .fire fFc
def fcS (b : FcBy) : State := { dramOn with memc := { dramOn.memc with fc := some b, fcTarget := 1 } }
def fcR : State := fcS byReg
def fcF : State := fcS byFire
def cMem0 : Fin 16 := 0
def refS : State := setReg dramOn 0x0E0 0x184 0x101
def codeA : BitVec 8 := 0
def codeB : BitVec 8 := 3
def scrS : State := setReg (setReg dramOn 0x0E0 0x140 0x80000000) 0x0E0 0x100 0x80000000
def noUps : Option Upset := none
def upsAt (m : Mark) : Option Upset := some ⟨0, m⟩
def upsCe : Option Upset := upsAt .ce
def upsUe : Option Upset := upsAt .ue
def stp3 : BitVec 4 := 3
def bank5 : Fin 512 := 511

/-- The premises of the clauses of DmaCommandsComplete are met. -/
theorem wit_DmaCommandsComplete :
    ((reaches dIdle sv (chPage (↑ch0 : Nat))) ∧ (chEn dIdle (↑ch0 : Nat) = true) ∧ ((dmaCh dIdle (↑ch0 : Nat)).st =
      0)) ∧
    ((reaches dRunS sv (chPage (↑ch0 : Nat))) ∧ (chEn dRunS (↑ch0 : Nat) = true) ∧ ((dmaCh dRunS (↑ch0 : Nat)).st = 1
      ∨ (dmaCh dRunS (↑ch0 : Nat)).st = 2) ∧ ((dmaCh dRunS (↑ch0 : Nat)).pend.length < 15)) ∧
    ((reaches dRunS sv (chPage (↑ch0 : Nat))) ∧ ((dmaCh dRunS (↑ch0 : Nat)).st = 1) ∧ ((dmaCh dRunS (↑ch0 :
      Nat)).stop = none)) ∧
    ((reaches dIdle sv (chPage (↑ch0 : Nat))) ∧ ((dmaCh dIdle (↑ch0 : Nat)).st = 0)) ∧
    ((reaches dHalted sv (chPage (↑ch0 : Nat))) ∧ ((dmaCh dHalted (↑ch0 : Nat)).st = 3)) ∧
    ((fDma.member.toNat = (↑ch0 : Nat) / 128) ∧ (fDma.opcode.toNat = (↑ch0 : Nat) % 128) ∧ (∀ (y : Nat × FireRec), y
      ∈ dFireS.unowned → y.fst ≠ dmaPage (↑ch0 : Nat)) ∧ (fDma ∈ dFireS.arrived) ∧ (pageClock dFireS (dmaPage (↑ch0 :
      Nat)) = true) ∧ (enabled dFireS (dmaPage (↑ch0 : Nat)) = true) ∧ (bits (chReg dFireS (↑ch0 : Nat) 0) 17 16 = 1)
      ∧ (chEn dFireS (↑ch0 : Nat) = true) ∧ ((dmaCh dFireS (↑ch0 : Nat)).st = 0) ∧ (fDma.p0 = 0)) ∧
    (((dmaCh dStopA (↑ch0 : Nat)).stop = some stA) ∧ (blockRuns dStopA (dmaPage (↑ch0 : Nat)) = true) ∧ (dmaQuiet
      (dmaCh dStopA (↑ch0 : Nat)) = true) ∧ ((dmaCh dStopA (↑ch0 : Nat)).words ≠ []) ∧ (stA.abort = true)) ∧
    (((dmaCh dStopE (↑ch0 : Nat)).stop = some stE) ∧ (blockRuns dStopE (dmaPage (↑ch0 : Nat)) = true) ∧ (dmaQuiet
      (dmaCh dStopE (↑ch0 : Nat)) = true) ∧ ((dmaCh dStopE (↑ch0 : Nat)).words ≠ []) ∧ (stE.abort = false)) := by
  repeat' apply And.intro
  all_goals first | decide +kernel | exact okIs_eq (by decide +kernel) | exact exIs_eq (by decide +kernel) | exact List.Mem.head _ | exact okRes_eq _ (by decide +kernel) | rfl

/-- The premises of the clauses of MemoryCommandsComplete are met. -/
theorem wit_MemoryCommandsComplete :
    ((arrayBase (↑pCore : Nat) arr0.toNat = some base30) ∧ (blockRuns s0 (↑pCore : Nat) = true) ∧ (arrayOn
      (applyUpset noUps s0) (↑pCore : Nat) arr0.toNat = true) ∧ ((↑pCore : Nat) ≠ 240) ∧ ((↑pCore : Nat) ≠ 241)) ∧
    ((arrayBase (↑pLlc : Nat) arr0.toNat = some baseLl) ∧ (blockRuns s0 (↑pLlc : Nat) = true) ∧ (arrayOn (applyUpset
      noUps s0) (↑pLlc : Nat) arr0.toNat = true) ∧ ((↑pLlc : Nat) = 240 ∨ (↑pLlc : Nat) = 241)) ∧
    ((reaches rrS sv 240) ∧ (bit vRep 0 = true) ∧ (rrS.memc.repairing = none) ∧ (kup rrS.regs = true) ∧ ((arrayBase
      (rrTarget rrS / 256) (rrTarget rrS % 256)).isSome = true) ∧ (BitVec.toNat (getReg rrS 240 276) ≤ 2047) ∧
      (arrayOn rrS (rrTarget rrS / 256) (rrTarget rrS % 256) = true) ∧ (freeSpares rrS (rrTarget rrS) ≠ 0)) ∧
    ((blockRuns rep 240 = true) ∧ (rep.memc.repairing = some (arrN, row5)) ∧ (moveRow arrN row5 rep = (repU, ueB))) ∧
    ((reaches bpS sv (240 + (↑h0 : Nat)))) ∧
    ((reaches bpS sv (240 + (↑h0 : Nat))) ∧ (takeLo bpS sv (240 + (↑h0 : Nat)) 256 = (bpLo, bpU))) ∧
    ((reaches rrS sv 224) ∧ (ctrlEnable rrS 224 = false) ∧ (∀ (r : Nat), r ∈ [fspRate (modReg rrS 224 8 fun w =>
      putBit w 0 true) 1, fspRate (modReg rrS 224 8 fun w => putBit w 0 true) 2] → r = 0 ∨ r ∈ dramRates)) ∧
    ((initS.memc.init = true) ∧ (blockRuns initS 224 = true)) ∧
    ((initS.memc.init = true) ∧ (blockRuns initS 224 = true) ∧ (kup initS.regs = true) ∧ (ctrlEnable initS 224 =
      true)) ∧
    ((enabled dramOn 224 = true) ∧ (dramOn.memc.fc = none) ∧ (fFc ∈ dramOn.arrived) ∧ (pageClock dramOn 224 = true) ∧
      (fFc.opcode = 1) ∧ (fcBad dramOn (fFc.p0.toNat % 4) = false)) ∧
    ((enabled dramOn 224 = true) ∧ (dramOn.memc.fc = none) ∧ (reaches dramOn sv 224) ∧ (bit vGo 31 = true) ∧ (fcBad
      dramOn (bits vGo 1 0) = false)) ∧
    ((blockRuns fcR 224 = true) ∧ (fcR.memc.fc = some byReg) ∧ (fcR.memc.fcWaiting = [])) ∧
    ((blockRuns fcR 224 = true) ∧ (fcR.memc.fc = some byReg) ∧ (fcR.memc.fcWaiting = []) ∧ (kup fcR.regs = true) ∧
      (fcR.memc.fcTarget < 4)) ∧
    ((blockRuns fcR 224 = true) ∧ (fcR.memc.fc = some byReg) ∧ (fcR.memc.fcWaiting = []) ∧ (kup fcR.regs = true) ∧
      (fcR.memc.fcTarget < 4) ∧ (nsW < 5)) ∧
    ((dramServes dramOn = true)) ∧
    ((dramServes refS = true) ∧ (kget 0 refS.memc.postponed (↑cMem0 : Nat) < min 8 (bits (getReg refS (224 + (↑cMem0
      : Nat)) 388) 3 0))) ∧
    ((dramServes refS = true) ∧ (bit (getReg refS (224 + (↑cMem0 : Nat)) 388) 8 = true)) ∧
    ((dramServes refS = true) ∧ (bits (getReg refS (224 + (↑cMem0 : Nat)) 384) 15 8 = codeA.toNat)) ∧
    ((dramServes refS = true) ∧ (bits (getReg refS (224 + (↑cMem0 : Nat)) 384) 15 8 ≠ codeB.toNat)) ∧
    ((dramServes (applyUpset noUps scrS) = true) ∧ (bit (getReg (applyUpset noUps scrS) 224 320) 31 = true) ∧
      ((applyUpset noUps scrS).memc.scrubPos + 1 < dramUsable (applyUpset noUps scrS) / 64) ∧ (bit (memCfg
      (applyUpset noUps scrS)) 31 = false ∨ getMark (applyUpset noUps scrS) (64 * (applyUpset noUps
      scrS).memc.scrubPos) = Mark.clean)) ∧
    ((dramServes (applyUpset upsCe scrS) = true) ∧ (bit (getReg (applyUpset upsCe scrS) 224 320) 31 = true) ∧
      ((applyUpset upsCe scrS).memc.scrubPos + 1 < dramUsable (applyUpset upsCe scrS) / 64) ∧ (bit (memCfg
      (applyUpset upsCe scrS)) 31 = true) ∧ (getMark (applyUpset upsCe scrS) (64 * (applyUpset upsCe
      scrS).memc.scrubPos) = Mark.ce)) ∧
    ((dramServes (applyUpset upsUe scrS) = true) ∧ (bit (getReg (applyUpset upsUe scrS) 224 320) 31 = true) ∧
      ((applyUpset upsUe scrS).memc.scrubPos + 1 < dramUsable (applyUpset upsUe scrS) / 64) ∧ (bit (memCfg
      (applyUpset upsUe scrS)) 31 = true) ∧ (getMark (applyUpset upsUe scrS) (64 * (applyUpset upsUe
      scrS).memc.scrubPos) = Mark.ue)) ∧
    ((blockRuns s0 224 = true)) := by
  repeat' apply And.intro
  all_goals first | decide +kernel | exact okIs_eq (by decide +kernel) | exact exIs_eq (by decide +kernel) | exact List.Mem.head _ | exact okRes_eq _ (by decide +kernel) | rfl

end C14

namespace C15

def xl : Fin 512 := 0x100
def nl : Fin 512 := 0x134
def ln0 : Fin 4 := 0
def lnS (p sts : Nat) : State := setReg s0 p 0x204 (w32 sts)
def lOk : State := lnS 0x100 0
def tapOk : Word := 0x0802
def tapBad : Word := 0x1808
def lLockX : State := lnS 0x100 0x00040000
def lLockN : State := lnS 0x134 0x00040000
def lWin : State := setReg (setReg lLockX 0x100 0x200 0x10) 0x100 0x210 0x5000
def hHi : Fin 65537 := 65536
def vHi : Fin 65537 := 65535
def hLo : Fin 65537 := 1
def eqW : RxEq := ⟨0, 0, #v[0, 0, 0, 0, 0]⟩
def m0 : LaneMeas := ⟨true, 0⟩
def pReq : Word := 0x20000000
def lBusy : State := lnS 0x100 0x04000000
def toOff : State := lnS 0x100 0x0C000000
def frOff : State := lnS 0x100 0xC0000000
def toP1 : State := lnS 0x100 0x04000000
def kl : Fin 512 := 0x134
def q4 : Fin 8 := 4
def q0p : Fin 8 := 0
def pl : Fin 512 := 0x130
def pS : State := lnS 0x130 0
def ts0 : EqTs := ⟨0, false, 4, 0, 0, 0, false⟩
def ts2 : EqTs := ⟨2, false, 0, 5, 50, 8, false⟩
def ts2Bad : EqTs := ⟨2, false, 0, 5, 5, 8, false⟩
def zeroP : Nat := 0
def kTr : State := lnS 0x134 0x00100000
def cw48 : BitVec 48 := 0xB50010000000
def cwW : BitVec 64 := cw48.setWidth 64 <<< 16 ||| (crc16 (cw48.setWidth 64 <<< 16) 16 48 0).setWidth 64
def tS : TapSearch := ⟨4, 0, 0, 0, false, false⟩
def kDone : State := setLane kTr 0x134 0 { LaneSt.init with search := some tS }
def kGood : State := setReg kDone 0x134 0x210 0x5000
def cuwS (c : CuwSt) : State := { setEnabled (setReg s0 0x00A 0x100 0x0001FFFF) 0x00A true with cuw := c, time := { s0.time with free := 983040000 } }
def cDown : State := cuwS CuwSt.init
def cHs : State := cuwS { CuwSt.init with st := 1 }
def peerNo : CuwPeer := ⟨0x2128, 1, none, #v[1, 1, 1, 1]⟩
def peerYes : CuwPeer := ⟨0x2128, 1, some 0, #v[1, 1, 1, 1]⟩
def rateF : Fin 3 := 0
def jN : Nat := 3
def cTrain : State := (List.range 16).foldl (fun s j => setLane s (klane j).1 (klane j).2 { LaneSt.init with passed := some true }) (cuwS { CuwSt.init with st := 2 })
def cUp : State := cuwS { CuwSt.init with st := 3 }
def frm (hd : List Byte) : List Byte :=
  let b := List.replicate 128 0 ++ hd
  b ++ leBytes 4 ((csumRun 2 (0xFFFFFFFF, false) b).1 ^^^ 0xFFFFFFFF).toNat
def fIdle : List Byte := frm (List.replicate 12 0)
def fFlit : List Byte := frm ([0, 0x10] ++ List.replicate 10 0)
def fBad : List Byte := List.replicate 144 0
def fSh : List Byte := [1]
def rp : CuwFlit := ⟨0, 1, 0, [], 15⟩
def cRep : State := cuwS { CuwSt.init with st := 3, replay := [rp] }
def cRec : State := cuwS { CuwSt.init with st := 4, replay := [rp] }

/-- The premises of the clauses of LaneCommandsComplete are met. -/
theorem wit_LaneCommandsComplete :
    ((isLane (↑xl : Nat) (↑ln0 : Nat) = true) ∧ (reaches lOk sv (↑xl : Nat)) ∧ (bit (lnReg lOk (↑xl : Nat) (↑ln0 :
      Nat) 4) 20 = false) ∧ (bits tapOk 3 0 ≤ 15) ∧ (bits tapOk 12 8 ≤ 24) ∧ (bits tapOk 3 0 + bits tapOk 12 8 ≤ 25)) ∧
    ((isLane (↑xl : Nat) (↑ln0 : Nat) = true) ∧ (reaches lOk sv (↑xl : Nat)) ∧ (bit (lnReg lOk (↑xl : Nat) (↑ln0 :
      Nat) 4) 20 = false) ∧ (25 < bits tapBad 3 0 + bits tapBad 12 8)) ∧
    ((isLane (↑nl : Nat) (↑ln0 : Nat) = true) ∧ (bit (lnReg lLockN (↑nl : Nat) (↑ln0 : Nat) 4) 18 = true) ∧
      (blockRuns lLockN (↑nl : Nat) = true) ∧ (pageKind (↑nl : Nat) ∈ [some Kind.nlane, some Kind.plane, some
      Kind.klane])) ∧
    ((isLane (↑xl : Nat) (↑ln0 : Nat) = true) ∧ (bit (lnReg lLockX (↑xl : Nat) (↑ln0 : Nat) 4) 18 = true) ∧
      (blockRuns lLockX (↑xl : Nat) = true) ∧ (pageKind (↑xl : Nat) ∈ [some Kind.xlane, some Kind.xspare])) ∧
    ((isLane (↑xl : Nat) (↑ln0 : Nat) = true) ∧ (lnPower lOk (↑xl : Nat) (↑ln0 : Nat) = 0) ∧ (blockRuns lOk (↑xl :
      Nat) = true)) ∧
    ((isLane (↑xl : Nat) (↑ln0 : Nat) = true) ∧ (lnPower lWin (↑xl : Nat) (↑ln0 : Nat) = 0) ∧ (bit (lnReg lWin (↑xl :
      Nat) (↑ln0 : Nat) 4) 20 = false) ∧ (blockRuns lWin (↑xl : Nat) = true) ∧ (kup lWin.regs = true) ∧ (bits (lnReg
      lWin (↑xl : Nat) (↑ln0 : Nat) 16) 15 8 ≤ if bit (lnReg lWin (↑xl : Nat) (↑ln0 : Nat) 4) 18 = true then min 255
      (256 * (↑hHi : Nat) * (↑hHi : Nat) / 2 ^ 32) else 0)) ∧
    ((isLane (↑xl : Nat) (↑ln0 : Nat) = true) ∧ (lnPower lWin (↑xl : Nat) (↑ln0 : Nat) = 0) ∧ (bit (lnReg lWin (↑xl :
      Nat) (↑ln0 : Nat) 4) 20 = false) ∧ (blockRuns lWin (↑xl : Nat) = true) ∧ (kup lWin.regs = true) ∧ ((if bit
      (lnReg lWin (↑xl : Nat) (↑ln0 : Nat) 4) 18 = true then min 255 (256 * (↑hLo : Nat) * (↑hLo : Nat) / 2 ^ 32)
      else 0) < bits (lnReg lWin (↑xl : Nat) (↑ln0 : Nat) 16) 15 8) ∧ ((laneOf lWin (↑xl : Nat) (↑ln0 : Nat)).low <
      2)) ∧
    ((isLane (↑xl : Nat) (↑ln0 : Nat) = true) ∧ (reaches lOk sv (↑xl : Nat)) ∧ (pageKind (↑xl : Nat) ≠ some
      Kind.plane ∨ sv.who = Initiator.page 7) ∧ (kup lOk.regs = true) ∧ (bits tapOk 29 28 ≠ bits (lnReg lOk (↑xl :
      Nat) (↑ln0 : Nat) 0) 29 28) ∧ (bits (lnReg lOk (↑xl : Nat) (↑ln0 : Nat) 4) 31 30 = bits (lnReg lOk (↑xl : Nat)
      (↑ln0 : Nat) 4) 27 26)) ∧
    ((isLane (↑xl : Nat) (↑ln0 : Nat) = true) ∧ (reaches lBusy sv (↑xl : Nat)) ∧ (pageKind (↑xl : Nat) ≠ some
      Kind.plane ∨ sv.who = Initiator.page 7) ∧ (kup lBusy.regs = true) ∧ (bits pReq 29 28 ≠ bits (lnReg lBusy (↑xl :
      Nat) (↑ln0 : Nat) 0) 29 28) ∧ (bits (lnReg lBusy (↑xl : Nat) (↑ln0 : Nat) 4) 31 30 ≠ bits (lnReg lBusy (↑xl :
      Nat) (↑ln0 : Nat) 4) 27 26)) ∧
    ((isLane (↑xl : Nat) (↑ln0 : Nat) = true) ∧ (bits (lnReg toOff (↑xl : Nat) (↑ln0 : Nat) 4) 31 30 ≠ bits (lnReg
      toOff (↑xl : Nat) (↑ln0 : Nat) 4) 27 26) ∧ (blockRuns toOff (↑xl : Nat) = true) ∧ (bits (lnReg toOff (↑xl :
      Nat) (↑ln0 : Nat) 4) 27 26 = 3)) ∧
    ((isLane (↑xl : Nat) (↑ln0 : Nat) = true) ∧ (bits (lnReg frOff (↑xl : Nat) (↑ln0 : Nat) 4) 31 30 ≠ bits (lnReg
      frOff (↑xl : Nat) (↑ln0 : Nat) 4) 27 26) ∧ (blockRuns frOff (↑xl : Nat) = true) ∧ (bits (lnReg frOff (↑xl :
      Nat) (↑ln0 : Nat) 4) 31 30 = 3)) ∧
    ((isLane (↑xl : Nat) (↑ln0 : Nat) = true) ∧ (bits (lnReg lBusy (↑xl : Nat) (↑ln0 : Nat) 4) 31 30 ≠ bits (lnReg
      lBusy (↑xl : Nat) (↑ln0 : Nat) 4) 27 26) ∧ (blockRuns lBusy (↑xl : Nat) = true) ∧ (bits (lnReg lBusy (↑xl :
      Nat) (↑ln0 : Nat) 4) 27 26 ≠ 3) ∧ (bits (lnReg lBusy (↑xl : Nat) (↑ln0 : Nat) 4) 31 30 ≠ 3)) ∧
    ((isLane (↑kl : Nat) (↑ln0 : Nat) = true) ∧ ((↑kl : Nat) = 304 + (↑q4 : Nat)) ∧ (blockRuns kTr (↑kl : Nat) =
      true) ∧ (4 ≤ (↑q4 : Nat)) ∧ (bit (lnReg kTr (↑kl : Nat) (↑ln0 : Nat) 4) 20 = true) ∧ (cwBits cwW 63 56 = 181) ∧
      ((crc16 cwW 16 48 0).toNat = cwBits cwW 15 0)) ∧
    ((isLane (↑pl : Nat) (↑ln0 : Nat) = true) ∧ ((↑pl : Nat) = 304 + (↑q0p : Nat)) ∧ (blockRuns pS (↑pl : Nat) =
      true) ∧ ((↑q0p : Nat) < 4) ∧ (lnPower pS (↑pl : Nat) (↑ln0 : Nat) = 0) ∧ (ts0.ec = 0) ∧ (kup pS.regs = true) ∧
      (pciePreset ts0.preset.toNat = some (zeroP, zeroP))) ∧
    ((isLane (↑pl : Nat) (↑ln0 : Nat) = true) ∧ ((↑pl : Nat) = 304 + (↑q0p : Nat)) ∧ (blockRuns pS (↑pl : Nat) =
      true) ∧ ((↑q0p : Nat) < 4) ∧ (lnPower pS (↑pl : Nat) (↑ln0 : Nat) = 0) ∧ (ts2.ec = 2) ∧ (ts2.usePreset =
      false)) ∧
    ((isLane (↑pl : Nat) (↑ln0 : Nat) = true) ∧ ((↑pl : Nat) = 304 + (↑q0p : Nat)) ∧ (blockRuns pS (↑pl : Nat) =
      true) ∧ ((↑q0p : Nat) < 4) ∧ (lnPower pS (↑pl : Nat) (↑ln0 : Nat) = 0) ∧ (ts2.ec = 2) ∧ (ts2.usePreset = false)
      ∧ (ts2.pre.toNat + ts2.cursor.toNat + ts2.post.toNat = 63) ∧ (tapsOk ts2.pre.toNat ts2.post.toNat = true)) ∧
    ((isLane (↑pl : Nat) (↑ln0 : Nat) = true) ∧ ((↑pl : Nat) = 304 + (↑q0p : Nat)) ∧ (blockRuns pS (↑pl : Nat) =
      true) ∧ ((↑q0p : Nat) < 4) ∧ (lnPower pS (↑pl : Nat) (↑ln0 : Nat) = 0) ∧ (ts2Bad.ec = 2) ∧ (ts2Bad.usePreset =
      false) ∧ (¬(ts2Bad.pre.toNat + ts2Bad.cursor.toNat + ts2Bad.post.toNat = 63 ∧ tapsOk ts2Bad.pre.toNat
      ts2Bad.post.toNat = true))) ∧
    ((isLane (↑kl : Nat) (↑ln0 : Nat) = true) ∧ ((↑kl : Nat) = 304 + (↑q4 : Nat)) ∧ (blockRuns kDone (↑kl : Nat) =
      true) ∧ ((laneOf kDone (↑kl : Nat) (↑ln0 : Nat)).search = some tS) ∧ (tS.ph = 4)) := by
  repeat' apply And.intro
  all_goals first | decide +kernel | exact okIs_eq (by decide +kernel) | exact exIs_eq (by decide +kernel) | exact List.Mem.head _ | exact okRes_eq _ (by decide +kernel) | rfl

/-- The premises of the clauses of CuwickCommandsComplete are met. -/
theorem wit_CuwickCommandsComplete :
    ((reaches cDown sv 10) ∧ (enabled cDown 10 = true)) ∧
    ((enabled cDown 10 = true) ∧ (blockRuns cDown 10 = true) ∧ (cDown.cuw.st ≠ 3) ∧ (bit (getReg cDown 10 256) 16 =
      true) ∧ (usSince cDown cDown.cuw.lastTry 100000 = true)) ∧
    ((cHs.cuw.st = 1) ∧ (blockRuns cHs 10 = true) ∧ (peerNo.rate = none)) ∧
    ((cHs.cuw.st = 1) ∧ (blockRuns cHs 10 = true) ∧ (peerYes.rate = some rateF)) ∧
    ((cHs.cuw.st = 1) ∧ (blockRuns cHs 10 = true) ∧ (peerYes.rate = some rateF) ∧ (jN < 16) ∧ (cuwLaneEn cHs jN =
      true)) ∧
    ((cTrain.cuw.st = 2) ∧ (blockRuns cTrain 10 = true) ∧ (∀ (j : Nat), j < 16 → bit (lnReg cTrain (klane j).fst
      (klane j).snd 4) 20 = false ∧ cuwLaneEn cTrain j = true ∧ (laneOf cTrain (klane j).fst (klane j).snd).passed =
      some true)) ∧
    ((cUp.cuw.st = 3) ∧ (enabled cUp 10 = true) ∧ (blockRuns cUp 10 = true) ∧ (fIdle.length = 144) ∧ (wordAt fIdle 35
      = (csumRun 2 (4294967295, false) (List.take 140 fIdle)).fst ^^^ 4294967295) ∧ (ofLe (List.take 2 (List.drop 128
      fIdle)) / 4096 = 0)) ∧
    ((cUp.cuw.st = 3) ∧ (enabled cUp 10 = true) ∧ (blockRuns cUp 10 = true) ∧ (fFlit.length = 144) ∧ (wordAt fFlit 35
      = (csumRun 2 (4294967295, false) (List.take 140 fFlit)).fst ^^^ 4294967295) ∧ (ofLe (List.take 2 (List.drop 128
      fFlit)) / 4096 = 1) ∧ (ofLe (List.take 2 (List.drop 128 fFlit)) % 4096 = ((cuwAck (ofLe (List.take 2 (List.drop
      130 fFlit))) (List.map (fun t => List.foldl (fun x x_1 => BitVec.toNat x_1) 0 (List.take 1 (List.drop (132 + t)
      fFlit))) (List.range 4)) cUp).cuw.rxLast + 1) % 4096)) ∧
    ((cUp.cuw.st = 3) ∧ (enabled cUp 10 = true) ∧ (blockRuns cUp 10 = true) ∧ (fBad.length ≠ 144 ∨ wordAt fBad 35 ≠
      (csumRun 2 (4294967295, false) (List.take 140 fBad)).fst ^^^ 4294967295) ∧ (cUp.cuw.episode = false)) ∧
    ((cUp.cuw.st = 3) ∧ (enabled cUp 10 = true) ∧ (blockRuns cUp 10 = true) ∧ (fBad.length ≠ 144 ∨ wordAt fBad 35 ≠
      (csumRun 2 (4294967295, false) (List.take 140 fBad)).fst ^^^ 4294967295) ∧ (cUp.cuw.episode = false) ∧ (kup
      cUp.cnt = true)) ∧
    ((cRep.cuw.st = 3) ∧ (blockRuns cRep 10 = true) ∧ (∃ f, f ∈ cRep.cuw.replay ∧ max 1 (bits (getReg cRep 10 276) 3
      0) ≤ f.reps)) ∧
    ((cRec.cuw.st = 4) ∧ (blockRuns cRec 10 = true)) := by
  repeat' apply And.intro
  all_goals first | decide +kernel | exact okIs_eq (by decide +kernel) | exact exIs_eq (by decide +kernel) | exact List.Mem.head _ | exact okRes_eq _ (by decide +kernel) | rfl

end C15

namespace C16

def pkS : State := setReg (setReg (setReg (setEnabled s0 0x008 true) 0x008 0x104 1) 0x008 0x128 0x10) 0x008 0x118 0x10
def port0f : Fin 32 := 0
def frame60 : List Byte := List.replicate 60 0
def ctxW : List Word := [0x80000000, 1, 0] ++ List.replicate 29 0
def ctxM : List Word := [0x80000000, 1, 0] ++ List.replicate 15 0 ++ [0x1000] ++ List.replicate 13 0
def pkMet : State := { pkS with pkt := { pkS.pkt with flows := [(5, ctxM)] } }
def metU : Nat × State := meterColour 0 64 (incCnt pkMet 0x008 0)
def metK : Nat := metU.1
def metS : State := metU.2
def frEc : List Byte := List.replicate 12 0 ++ [0xAE, 0xFE] ++ List.replicate 46 0
def payEc : List Byte := List.replicate 46 0
def pkFlow : State := { pkS with pkt := { pkS.pkt with flows := [(5, ctxW)] } }
def n5 : Nat := 5
def vLoad : Word := 0x80000007
def loadU : State := (memRead pkS 0x008 (0x001000000000 + 7 * 128) 128).1
def load128 : List Byte := List.replicate 128 0
def fWin : Fin 512 := 0
/-- A fronthaul context 0 with every symbol of the slot on, no PRBs. -/
def fhW : List Word := [0x8000FFFF, 0, 0, 0, 0, 0, 0, 0x00010005] ++ List.replicate 8 0
def pkFh : State := setBytes pkS 0x001000000000 (wordsBytes fhW)
def n0w : Nat := 0
def fhU : State := (fhCtx 0 pkFh).1
def jR : Fin 8 := 0
def txCtx : List Word := [0xC0000000] ++ List.replicate 31 0
def job (kind : Nat) : PktJob := ⟨3, 0, 0x001000002000, [BitVec.ofNat 32 (0x80010080 + kind), 0, 0, 0, 0, 0, 0, 0, 0x00000100, 0x10, 60, 0, 0, 0, 0, 0], 0, 0, 0, none, false, none⟩
def job1 : PktJob := job 1
def job2 : PktJob := job 2
def job3 : PktJob := job 3
def withJob (x : PktJob) : State := { pkFh with pkt := { pkFh.pkt with jobs := [x], flows := [(0, txCtx)] } }
def sJ1 : State := withJob job1
def sJ2 : State := withJob job2
def sJ3 : State := withJob job3
def jV1 : State := (fhCtx 0 sJ1).1
def jV2 : State := (fhCtx 0 sJ2).1
def jV3 : State := (fhCtx 0 sJ3).1
def noFr : List (List Byte) := []
def jU1 : State := match symbolFrames job1 txCtx fhW job1.next jV1 with | .ok _ u => u | .error _ u => u
def jFr : List (List Byte) := match symbolFrames job1 txCtx fhW job1.next jV1 with | .ok b _ => b | .error _ _ => []
def jU2 : State := match jobBody job2 jV2 with | .ok _ u => u | .error _ u => u
def jU3 : State := match jobBody job3 jV3 with | .ok _ u => u | .error _ u => u
def someFh : Option (List Word) := some fhW
def jBodyB : List Byte := match jobBody job3 jV3 with | .ok b _ => b | .error _ _ => []
def jobEnd (w12 : Word) : PktJob := { job 3 with built := true, words := [0x80010083, 0, 0, 0, 0, 0, 0, 0, 0, 0, 0, 0x00010005, w12, 0, 0, 0] }
def jE0 : PktJob := jobEnd 0
def jE1 : PktJob := jobEnd 0x80000000
def sE0 : State := withJob jE0
def sE1 : State := withJob jE1
def nH : Fin 8 := 0
def fHost : FireRec := ⟨1, 5, 1, 0, 0, 0, 0, false, 0, 0, 0, 0, 8, 0, 0⟩
def hostOn : State := { setEnabled s0 0x007 true with arrived := [fHost] }
def vTok : Word := 0x00010005
def pend1 : State := { hostOn with pcie := { hostOn.pcie with fires := [fHost], words := [(4, 0x00050001)] } }
def tmf (q : Nat) : TmFrame := ⟨q, frame60, none, 0, none, false⟩
def fr1 : TmFrame := tmf 0
def restF : List TmFrame := []
def zeroK : Nat := 0
def tmS : State := setReg (setReg (setReg (setEnabled pkS 0x009 true) 0x220 0 0x80000000) 0x220 4 0xFFFF) 0x009 0x108 20
def tmIn : State := { tmS with tm := { tmS.tm with input := [fr1] } }
def tmInU : State := modTm tmIn fun t => { t with input := [] }
def tmQ : State := { tmS with tm := { tmS.tm with queues := [(0, [fr1])] } }
def qN : Nat := 0
def q12 : Fin 4096 := 0
def r3 : Fin 3 := 2
def rnd : TmPort := { TmPort.init with round := some (7, 0) }
def tmR : State := { setPort tmS 0 rnd with time := { s0.time with free := 98304000 } }
def selW : Word := 0x00070200
def p0n : Nat := 0
def rN : Nat := 7
def phy0 : BitVec 8 := 0
def viaPcie : Bool := true
def cfgR : CfgRes := ⟨1, 0, 1, ⟨[true], 100, 200, 0, [], [], [], []⟩⟩
def phyS (x : PhySt) : State := setPhy { s0 with boot := { s0.boot with cfg := some cfgR }, time := { s0.time with acc := 2 ^ 32 * 20000000 } } 0 x
def phI : State := phyS PhySt.init
def phC : State := phyS { PhySt.init with st := 1 }
def phR : State := phyS { PhySt.init with st := 2 }
def phStop : State := phyS { PhySt.init with st := 3 }
def offN : Nat := 1000
def stIn : Int := 20000100
def stLate : Int := 20000099

/-- The premises of the clauses of PacketEngineComplete are met. -/
theorem wit_PacketEngineComplete :
    ((blockRuns pkS 8 = true) ∧ (enabled pkS 8 = true) ∧ (bit (getReg pkS 8 260) (↑port0f : Nat) = true) ∧ (8 ≤
      (↑port0f : Nat) → portMode pkS = 1) ∧ (60 ≤ frame60.length) ∧ (frame60.length ≤ 9596) ∧ (¬((ethView
      frame60).etype = 34824 ∧ (beAt (ethView frame60).pay 0 2 = 1 ∨ beAt (ethView frame60).pay 0 2 = 257))) ∧
      (ecpriPay (incCnt pkS 8 0) (↑port0f : Nat) (ethView frame60) = none) ∧ (flowFind (incCnt pkS 8 0) (↑port0f :
      Nat) (ethView frame60) none = none)) ∧
    ((blockRuns pkFlow 8 = true) ∧ (enabled pkFlow 8 = true) ∧ (bit (getReg pkFlow 8 260) (↑port0f : Nat) = true) ∧
      (8 ≤ (↑port0f : Nat) → portMode pkFlow = 1) ∧ (60 ≤ frame60.length) ∧ (frame60.length ≤ 9596) ∧ (¬((ethView
      frame60).etype = 34824 ∧ (beAt (ethView frame60).pay 0 2 = 1 ∨ beAt (ethView frame60).pay 0 2 = 257))) ∧
      (ecpriPay (incCnt pkFlow 8 0) (↑port0f : Nat) (ethView frame60) = none) ∧ (flowFind (incCnt pkFlow 8 0)
      (↑port0f : Nat) (ethView frame60) none = some (n5, ctxW)) ∧ (bit (wWord ctxW 18) 12 = false)) ∧
    ((blockRuns pkMet 8 = true) ∧ (enabled pkMet 8 = true) ∧ (bit (getReg pkMet 8 260) (↑port0f : Nat) = true) ∧ (8 ≤
      (↑port0f : Nat) → portMode pkMet = 1) ∧ (60 ≤ frame60.length) ∧ (frame60.length ≤ 9596) ∧ (¬((ethView
      frame60).etype = 34824 ∧ (beAt (ethView frame60).pay 0 2 = 1 ∨ beAt (ethView frame60).pay 0 2 = 257))) ∧
      (ecpriPay (incCnt pkMet 8 0) (↑port0f : Nat) (ethView frame60) = none) ∧ (flowFind (incCnt pkMet 8 0) (↑port0f
      : Nat) (ethView frame60) none = some (n5, ctxM)) ∧ (bit (wWord ctxM 18) 12 = true) ∧ (meterColour (bits (wWord
      ctxM 18) 11 0) (frame60.length + 4) (incCnt pkMet 8 0) = (metK, metS))) ∧
    ((blockRuns pkS 8 = true) ∧ (enabled pkS 8 = true) ∧ (bit (getReg pkS 8 260) (↑port0f : Nat) = true) ∧ (8 ≤
      (↑port0f : Nat) → portMode pkS = 1) ∧ (60 ≤ frEc.length) ∧ (frEc.length ≤ 9596) ∧ (¬((ethView frEc).etype =
      34824 ∧ (beAt (ethView frEc).pay 0 2 = 1 ∨ beAt (ethView frEc).pay 0 2 = 257))) ∧ (ecpriPay (incCnt pkS 8 0)
      (↑port0f : Nat) (ethView frEc) = some payEc)) ∧
    ((reaches pkS sv 8) ∧ (bit vLoad 31 = true) ∧ (memRead pkS 8 (getPair pkS 8 276 19 % 2 ^ 48 + bits vLoad 11 0 *
      128) 128 = (loadU, Resp.ok, load128)) ∧ (flowClass (List.map (wordAt load128) (List.range 32)) < 7)) ∧
    ((enabled pkFh 8 = true) ∧ (blockRuns pkFh 8 = true) ∧ (fronthaulOff pkFh = false) ∧ (fhCtx (↑fWin : Nat) pkFh =
      (fhU, some fhW)) ∧ (bit (wWord fhW 0) (n0w % 14) = true) ∧ (airStart fhW n0w + signed 32 (BitVec.toNat (wWord
      fhW 5)) ≤ devNs fhU) ∧ (kget 0 fhU.pkt.closed (↑fWin : Nat) ≤ n0w)) ∧
    ((blockRuns sJ1 8 = true) ∧ (jobNow sJ1 (↑jR : Nat) = some job1) ∧ (jobFlow sJ1 job1.words = some txCtx) ∧ (bits
      (wWord job1.words 0) 3 0 = 1) ∧ (fhCtx (2 * bits (wWord txCtx 17) 7 0 + if duEnd sJ1 = true then 1 else 0) sJ1
      = (jV1, some fhW)) ∧ (wWord job1.words 6 = 0 ∨ -2000 ≤ sinceTarget jV1 (wWord job1.words 6 + w32 (symOffset
      (bits (wWord fhW 1) 18 16) (bits (wWord job1.words 7) 17 12 * 14 + job1.next) - symOffset (bits (wWord fhW 1)
      18 16) (bits (wWord job1.words 7) 17 12 * 14 + bits (wWord job1.words 4) 19 16)))) ∧ (symbolFrames job1 txCtx
      fhW job1.next jV1 = EStateM.Result.ok jFr jU1)) ∧
    ((blockRuns sJ2 8 = true) ∧ (jobNow sJ2 (↑jR : Nat) = some job2) ∧ (jobFlow sJ2 job2.words = some txCtx) ∧ (bits
      (wWord job2.words 0) 3 0 = 2) ∧ (fhCtx (2 * bits (wWord txCtx 17) 7 0 + if duEnd sJ2 = true then 1 else 0) sJ2
      = (jV2, someFh)) ∧ (bit (wWord job2.words 4) 24 = false) ∧ (jobBody job2 jV2 = EStateM.Result.ok jBodyB jU2)) ∧
    ((blockRuns sJ3 8 = true) ∧ (jobNow sJ3 (↑jR : Nat) = some job3) ∧ (jobFlow sJ3 job3.words = some txCtx) ∧ (bits
      (wWord job3.words 0) 3 0 = 3) ∧ (fhCtx (2 * bits (wWord txCtx 17) 7 0 + if duEnd sJ3 = true then 1 else 0) sJ3
      = (jV3, someFh)) ∧ (jobBody job3 jV3 = EStateM.Result.ok jBodyB jU3) ∧ (60 ≤ jBodyB.length) ∧ (jBodyB.length ≤
      9596)) ∧
    ((sE0.pkt.jobs[n0w]? = some jE0) ∧ (blockRuns sE0 8 = true) ∧ (jE0.built = true) ∧ (jE0.out = 0) ∧ (jE0.stamp =
      none) ∧ (jE0.cause = none) ∧ (bit (wWord jE0.words 12) 31 = false)) ∧
    ((sE1.pkt.jobs[n0w]? = some jE1) ∧ (blockRuns sE1 8 = true) ∧ (jE1.built = true) ∧ (jE1.out = 0) ∧ (jE1.stamp =
      none) ∧ (jE1.cause = none) ∧ (bit (wWord jE1.words 12) 31 = true)) ∧
    ((pageOn pkS 8 = true)) := by
  repeat' apply And.intro
  all_goals first | decide +kernel | exact okIs_eq (by decide +kernel) | exact exIs_eq (by decide +kernel) | exact List.Mem.head _ | exact okRes_eq _ (by decide +kernel) | rfl

/-- The premises of the clauses of HostAndTrafficComplete are met. -/
theorem wit_HostAndTrafficComplete :
    ((reaches hostOn sv 7) ∧ (enabled (setReg hostOn 7 (548 + 64 * (↑nH : Nat)) (v32 &&& 4095)) 7 = true)) ∧
    ((reaches s0 sv 7) ∧ (enabled (setReg s0 7 (548 + 64 * (↑nH : Nat)) (v32 &&& 4095)) 7 = false)) ∧
    ((∀ (x : Nat × FireRec), x ∈ hostOn.unowned → x.fst ≠ 7) ∧ (fHost ∈ hostOn.arrived) ∧ (pageClock hostOn 7 = true)
      ∧ (enabled hostOn 7 = true)) ∧
    ((reaches hostOn sv 7)) ∧
    ((reaches pend1 sv 7) ∧ (List.find? (fun f => decide (f.template = (tokenOfWords (kget 0 pend1.pcie.words 4)
      (kget 0 pend1.pcie.words (4 + 1)) (kget 0 pend1.pcie.words (4 + 2)) vTok).template ∧ f.inst = (tokenOfWords
      (kget 0 pend1.pcie.words 4) (kget 0 pend1.pcie.words (4 + 1)) (kget 0 pend1.pcie.words (4 + 2)) vTok).inst))
      pend1.pcie.fires = some fHost)) ∧
    ((blockRuns tmIn 9 = true) ∧ (tmIn.tm.input = fr1 :: restF) ∧ (enabled tmIn 9 = true) ∧ (bit (qReg tmIn fr1.q 0)
      31 = true) ∧ ((if bit (qReg (modTm tmIn fun t => { t with input := restF : TmSt }) fr1.q 0) 28 = true then
      meterColour (bits (qReg (modTm tmIn fun t => { t with input := restF : TmSt }) fr1.q 0) 27 16) (frameLen fr1)
      (modTm tmIn fun t => { t with input := restF : TmSt }) else (0, modTm tmIn fun t =>
      { t with input := restF : TmSt })) = (zeroK, tmInU)) ∧ (bufUsed tmInU + frameCells fr1 ≤ 2 ^ max 16 (min 25
      (bits (getReg tmInU 9 264) 4 0)) / 64) ∧ (zeroK = 0 ∧ qDepth tmInU fr1.q + frameCells fr1 ≤ bits (qReg tmInU
      fr1.q 4) 15 0 ∨ zeroK = 1 ∧ qDepth tmInU fr1.q + frameCells fr1 ≤ bits (qReg tmInU fr1.q 4) 31 16)) ∧
    ((blockRuns tmQ 9 = true) ∧ (enabled tmQ 9 = true) ∧ (bit (getReg tmQ 8 260) (↑port0f : Nat) = true) ∧
      (List.find? (fun q => strictQ (List.foldl (fun s q => dropLate q (queueOf s q).length s) (modTm tmQ fun t =>
      { t with ports := (kset TmPort.init t.ports (↑port0f : Nat) { (kget TmPort.init t.ports (↑port0f : Nat)) with wire := [] : TmPort }), idle := (if t.idle.contains (↑port0f : Nat) = true then t.idle else t.idle ++ [(↑port0f : Nat)]) : TmSt })
      (portQueues (modTm tmQ fun t =>
      { t with ports := (kset TmPort.init t.ports (↑port0f : Nat) { (kget TmPort.init t.ports (↑port0f : Nat)) with wire := [] : TmPort }), idle := (if t.idle.contains (↑port0f : Nat) = true then t.idle else t.idle ++ [(↑port0f : Nat)]) : TmSt })
      (↑port0f : Nat))) q && (eligHead (List.foldl (fun s q => dropLate q (queueOf s q).length s) (modTm tmQ fun t =>
      { t with ports := (kset TmPort.init t.ports (↑port0f : Nat) { (kget TmPort.init t.ports (↑port0f : Nat)) with wire := [] : TmPort }), idle := (if t.idle.contains (↑port0f : Nat) = true then t.idle else t.idle ++ [(↑port0f : Nat)]) : TmSt })
      (portQueues (modTm tmQ fun t =>
      { t with ports := (kset TmPort.init t.ports (↑port0f : Nat) { (kget TmPort.init t.ports (↑port0f : Nat)) with wire := [] : TmPort }), idle := (if t.idle.contains (↑port0f : Nat) = true then t.idle else t.idle ++ [(↑port0f : Nat)]) : TmSt })
      (↑port0f : Nat))) q).isSome) (portQueues (List.foldl (fun s q => dropLate q (queueOf s q).length s) (modTm tmQ
      fun t =>
      { t with ports := (kset TmPort.init t.ports (↑port0f : Nat) { (kget TmPort.init t.ports (↑port0f : Nat)) with wire := [] : TmPort }), idle := (if t.idle.contains (↑port0f : Nat) = true then t.idle else t.idle ++ [(↑port0f : Nat)]) : TmSt })
      (portQueues (modTm tmQ fun t =>
      { t with ports := (kset TmPort.init t.ports (↑port0f : Nat) { (kget TmPort.init t.ports (↑port0f : Nat)) with wire := [] : TmPort }), idle := (if t.idle.contains (↑port0f : Nat) = true then t.idle else t.idle ++ [(↑port0f : Nat)]) : TmSt })
      (↑port0f : Nat))) (↑port0f : Nat)) = some qN)) ∧
    ((blockRuns tmQ 9 = true) ∧ ((eligHead (dropLate (↑q12 : Nat) (queueOf tmQ (↑q12 : Nat)).length tmQ) (↑q12 :
      Nat)).isSome = true)) ∧
    ((reaches tmR sv 9) ∧ (List.find? (fun p => decide (Option.map (fun x => x.fst) (tmPort tmR p).round = some (bits
      selW 31 16))) (List.range 32) = some p0n)) ∧
    (((tmPort tmR (↑port0f : Nat)).round = some (rN, p0n)) ∧ (blockRuns tmR 9 = true) ∧ (usSince tmR p0n (max 1 (bits
      (getReg tmR 9 280) 15 0)) = true)) ∧
    ((blockRuns tmR 9 = true) ∧ (max 1 (bits (getReg tmR 9 272) 15 0) ≤ nsSince tmR tmR.tm.lastSample)) ∧
    ((reaches tmS sv (544 + (↑q12 : Nat) / 64))) := by
  repeat' apply And.intro
  all_goals first | decide +kernel | exact okIs_eq (by decide +kernel) | exact exIs_eq (by decide +kernel) | exact List.Mem.head _ | exact okRes_eq _ (by decide +kernel) | rfl

/-- The premises of the clauses of PhyApiComplete are met. -/
theorem wit_PhyApiComplete :
    ((phI.boot.cfg = some cfgR) ∧ (cfgR.set.pcie[phy0.toNat]? = some viaPcie) ∧ ((phyOf phI phy0.toNat).st < 2)) ∧
    ((phC.boot.cfg = some cfgR) ∧ (cfgR.set.pcie[phy0.toNat]? = some viaPcie) ∧ ((phyOf phC phy0.toNat).st = 1)) ∧
    ((phR.boot.cfg = some cfgR) ∧ (cfgR.set.pcie[phy0.toNat]? = some viaPcie) ∧ ((phyOf phR phy0.toNat).st = 2)) ∧
    ((phR.boot.cfg = some cfgR) ∧ (cfgR.set.pcie[phy0.toNat]? = some viaPcie) ∧ ((phyOf phR phy0.toNat).st = 2) ∧
      ((↑cfgR.set.accept : Int) ≤ stIn - devNs phR)) ∧
    ((phR.boot.cfg = some cfgR) ∧ (cfgR.set.pcie[phy0.toNat]? = some viaPcie) ∧ ((phyOf phR phy0.toNat).st = 2) ∧
      (stLate - devNs phR < (↑cfgR.set.accept : Int))) ∧
    ((phR.boot.cfg = some cfgR) ∧ (cfgR.set.pcie[phy0.toNat]? = some viaPcie) ∧ ((phyOf phR phy0.toNat).st = 2) ∧
      (stIn - (↑cfgR.set.indicate : Int) ≤ devNs phR) ∧ (devNs phR < stIn)) ∧
    ((phI.boot.cfg = some cfgR) ∧ (cfgR.set.pcie[phy0.toNat]? = some viaPcie)) ∧
    ((phStop.boot.cfg = some cfgR) ∧ (cfgR.set.pcie[phy0.toNat]? = some viaPcie) ∧ ((phyOf phStop phy0.toNat).st = 3)
      ∧ ((phyOf phStop phy0.toNat).offAt + 10000000 ≤ devNs phStop)) := by
  repeat' apply And.intro
  all_goals first | decide +kernel | exact okIs_eq (by decide +kernel) | exact exIs_eq (by decide +kernel) | exact List.Mem.head _ | exact okRes_eq _ (by decide +kernel) | rfl

end C16

namespace C17

def incrV : Word := 3
/-- INCR of R743, nominal. -/
def incrLo : State := { s0 with holdWr := [((0x003 * 4096 + 0x11C) * 4 + accPath sv, some 0x2C7DDB59)] }
def loNom : Option Word := (takeLo s0 sv 0x003 0x11C).1
def incrU : State := (takeLo s0 sv 0x003 0x11C).2
def nomHi : Word := getReg s0 0x003 0x120
def n63 : Fin 64 := 63
def armV : Word := 0x41000001
def tcSet : State := setTc s0 63 8 1000
def tcDue : State := setTc (setTc s0 63 0 0x81000001) 63 0x10 0x00010002
def tcAuto : State := setTc (setTc (setTc s0 63 0 0xC1000001) 63 8 1000) 63 0x10 0x00010002
def ppsIn : State := setReg s0 0x003 0x144 0xC0000000
def fall : Bool := false
def lostT : Nat := 5
def ppsLate : State := { setReg s0 0x003 0x144 0x80000000 with time := { s0.time with free := 5 + 1081344000, ppsIn := some 5 } }
def outEn : State := setReg s0 0x003 0x150 0x80000001
def outHigh : State := { outEn with time := { outEn.time with ppsOut := true, acc := 2 ^ 32 * 1000 } }

/-- The premises of the clauses of TimeCommandsComplete are met. -/
theorem wit_TimeCommandsComplete :
    ((reaches s0 sv 3)) ∧
    ((reaches s0 sv 3) ∧ (takeLo s0 sv 3 284 = (loNom, s0)) ∧ (2 ^ 32 * 3125 * 999 ≤ (BitVec.toNat (loNom.getD
      (getReg s0 3 284)) + 2 ^ 32 * bits nomHi 3 0) * 3072 * 1000) ∧ ((BitVec.toNat (loNom.getD (getReg s0 3 284)) +
      2 ^ 32 * bits nomHi 3 0) * 3072 * 1000 ≤ 2 ^ 32 * 3125 * 1001)) ∧
    ((reaches s0 sv 3) ∧ (takeLo s0 sv 3 284 = (loNom, s0)) ∧ (2 ^ 32 * 3125 * 1001 < (BitVec.toNat (loNom.getD
      (getReg s0 3 284)) + 2 ^ 32 * bits v1w 3 0) * 3072 * 1000)) ∧
    ((reaches s0 sv 3) ∧ (kup s0.regs = true)) ∧
    ((reaches tcSet sv 608) ∧ (tcArmed tcSet (↑n63 : Nat) = false) ∧ (kup tcSet.regs = true) ∧ (bit armV 30 = true →
      1000 ≤ BitVec.toNat (tcReg tcSet (↑n63 : Nat) 8) ∧ BitVec.toNat (tcReg tcSet (↑n63 : Nat) 8) < 2 ^ 31)) ∧
    ((tcArmed tcDue (↑n63 : Nat) = true) ∧ (0 ≤ sinceTarget tcDue (tcReg tcDue (↑n63 : Nat) 4)) ∧ (blockRuns tcDue 3
      = true) ∧ (bit (getReg tcDue 3 320) 6 = false) ∧ (∀ (c : Nat), c < 1024 → bits (chReg tcDue c 0) 17 16 ≠ 2) ∧
      (kup tcDue.regs = true)) ∧
    ((tcArmed tcDue (↑n63 : Nat) = true) ∧ (0 ≤ sinceTarget tcDue (tcReg tcDue (↑n63 : Nat) 4)) ∧ (blockRuns tcDue 3
      = true) ∧ (bit (getReg tcDue 3 320) 6 = false) ∧ (∀ (c : Nat), c < 1024 → bits (chReg tcDue c 0) 17 16 ≠ 2) ∧
      (kup tcDue.regs = true) ∧ (bit (tcReg tcDue (↑n63 : Nat) 0) 30 = false) ∧ (kup tcDue.time.lapse = true)) ∧
    ((tcArmed tcAuto (↑n63 : Nat) = true) ∧ (0 ≤ sinceTarget tcAuto (tcReg tcAuto (↑n63 : Nat) 4)) ∧ (blockRuns
      tcAuto 3 = true) ∧ (bit (getReg tcAuto 3 320) 6 = false) ∧ (∀ (c : Nat), c < 1024 → bits (chReg tcAuto c 0) 17
      16 ≠ 2) ∧ (kup tcAuto.regs = true) ∧ (bit (tcReg tcAuto (↑n63 : Nat) 0) 30 = true) ∧ (bit (tcReg tcAuto (↑n63 :
      Nat) 0) 31 = true)) ∧
    ((bit (getReg ppsIn 3 324) 31 = true) ∧ (bit (getReg ppsIn 3 324) 30 ≠ fall) ∧ (blockRuns ppsIn 3 = true)) ∧
    ((ppsLate.time.ppsIn = some lostT) ∧ (bit (getReg ppsLate 3 324) 31 = true) ∧ (usSince ppsLate lostT 1100000 =
      true) ∧ (blockRuns ppsLate 3 = true)) ∧
    ((bit (getReg outEn 3 336) 31 = true) ∧ (blockRuns outEn 3 = true) ∧ (outEn.time.ppsNext * 1000000000 ≤ devNs
      outEn + ppsOff outEn)) ∧
    ((outHigh.time.ppsOut = true) ∧ (blockRuns outHigh 3 = true) ∧ (outHigh.time.ppsRise + 1000 * ((max 1 (bits
      (getReg outHigh 3 336) 19 0) : Nat) : Int) ≤ devNs outHigh)) := by
  repeat' apply And.intro
  all_goals first | decide +kernel | exact okIs_eq (by decide +kernel) | exact exIs_eq (by decide +kernel) | exact List.Mem.head _ | exact okRes_eq _ (by decide +kernel) | rfl

end C17

namespace C18

def pdN : Fin 48 := 0
def pd47 : Fin 48 := 47
def entry0 : EntryCond := 0
def req0 (w : PdState) : PdReq := ⟨w, 0, .req, 0⟩
def dom (n : Nat) (r : PdRec) : State := setPd s0 n r
def pOff : State := dom 0 { PdRec.init with cur := .off }
def pRet : State := dom 0 { PdRec.init with cur := .retain }
def pLocked : State := setReg s0 0x004 0x408 0x80000000
def rqOff : PdReq := req0 .off
def pWait : State := dom 47 { PdRec.init with cur := .on, wait := some rqOff }
def pLate : State := setReg { pWait with time := { s0.time with free := 984 } } 0x004 (0x408 + 0x20 * 47) 1
def pUp : State := { dom 0 { PdRec.init with cur := .trans, left := .off, target := .on, doing := some (req0 .on) } with
  time := { s0.time with free := 98304 } }
def pFail : State := { dom 0 { PdRec.init with cur := .trans, left := .off, target := .on } with time := { s0.time with free := 98304 } }
/-- Source 16 wakes PD0, which is in RETAIN. -/
def waked (s : State) : State :=
  setReg (setRegI { s with evt := { s.evt with seen := [16] } } 0x001 0x104 16 0x88000000) 0x004 0x408 0x20000000
def pWake : State := waked pRet
def pLatch : State := waked (dom 0 { PdRec.init with cur := .trans, left := .on, target := .retain })
def g0 : Fin 16 := 0
def grp : State := setReg s0 0x004 0x200 0xFFFF0100

/-- The premises of the clauses of PowerCommandsComplete are met. -/
theorem wit_PowerCommandsComplete :
    ((reaches s0 sv 4) ∧ ((pdRec s0 (↑pdN : Nat)).cur ≠ PdState.trans) ∧ ((pdRec s0 (↑pdN : Nat)).wait = none) ∧ (∀
      (g : Nat), g < 16 → (grpRec s0 g).busy = false) ∧ (∀ (g : Nat), g < 16 → (grpRec s0 g).held = none) ∧ (kup
      s0.pwr.doms = true) ∧ ((pdRec s0 (↑pdN : Nat)).cur = PdState.on)) ∧
    ((reaches pLocked sv 4) ∧ ((pdRec pLocked (↑pdN : Nat)).cur ≠ PdState.trans) ∧ ((pdRec pLocked (↑pdN : Nat)).wait
      = none) ∧ (∀ (g : Nat), g < 16 → (grpRec pLocked g).busy = false) ∧ (∀ (g : Nat), g < 16 → (grpRec pLocked
      g).held = none) ∧ (kup pLocked.pwr.doms = true) ∧ ((pdRec pLocked (↑pdN : Nat)).cur = PdState.on) ∧ (bit (pdCfg
      pLocked (↑pdN : Nat)) 31 = true)) ∧
    ((reaches pOff sv 4) ∧ ((pdRec pOff (↑pdN : Nat)).cur ≠ PdState.trans) ∧ ((pdRec pOff (↑pdN : Nat)).wait = none)
      ∧ (∀ (g : Nat), g < 16 → (grpRec pOff g).busy = false) ∧ (∀ (g : Nat), g < 16 → (grpRec pOff g).held = none) ∧
      (kup pOff.pwr.doms = true) ∧ ((pdRec pOff (↑pdN : Nat)).cur ≠ PdState.on)) ∧
    ((reaches pOff sv 4) ∧ ((pdRec pOff (↑pdN : Nat)).cur ≠ PdState.trans) ∧ ((pdRec pOff (↑pdN : Nat)).wait = none)
      ∧ (∀ (g : Nat), g < 16 → (grpRec pOff g).busy = false) ∧ (∀ (g : Nat), g < 16 → (grpRec pOff g).held = none) ∧
      (kup pOff.pwr.doms = true) ∧ ((pdRec pOff (↑pdN : Nat)).cur = PdState.off)) ∧
    ((reaches s0 sv 4) ∧ ((pdRec s0 (↑pdN : Nat)).cur ≠ PdState.trans) ∧ ((pdRec s0 (↑pdN : Nat)).wait = none) ∧ (∀
      (g : Nat), g < 16 → (grpRec s0 g).busy = false) ∧ (∀ (g : Nat), g < 16 → (grpRec s0 g).held = none) ∧ (kup
      s0.pwr.doms = true) ∧ ((pdRec s0 (↑pdN : Nat)).cur = PdState.on) ∧ (bit (pdCfg s0 (↑pdN : Nat)) 31 = false)) ∧
    ((reaches s0 sv 4) ∧ ((pdRec s0 (↑pdN : Nat)).cur ≠ PdState.trans) ∧ ((pdRec s0 (↑pdN : Nat)).wait = none) ∧ (∀
      (g : Nat), g < 16 → (grpRec s0 g).busy = false) ∧ (∀ (g : Nat), g < 16 → (grpRec s0 g).held = none) ∧ (kup
      s0.pwr.doms = true) ∧ ((pdRec s0 (↑pdN : Nat)).cur = PdState.on) ∧ (bit (pdCfg s0 (↑pdN : Nat)) 31 = false) ∧
      (entry0 ≠ 2)) ∧
    ((reaches pRet sv 4) ∧ ((pdRec pRet (↑pdN : Nat)).cur ≠ PdState.trans) ∧ ((pdRec pRet (↑pdN : Nat)).wait = none)
      ∧ (∀ (g : Nat), g < 16 → (grpRec pRet g).busy = false) ∧ (∀ (g : Nat), g < 16 → (grpRec pRet g).held = none) ∧
      (kup pRet.pwr.doms = true) ∧ ((pdRec pRet (↑pdN : Nat)).cur = PdState.retain) ∧ (bit (pdCfg pRet (↑pdN : Nat))
      31 = false)) ∧
    (((pdRec pWait (↑pd47 : Nat)).wait = some rqOff) ∧ (entryMet pWait (↑pd47 : Nat) rqOff = true)) ∧
    (((pdRec pLate (↑pd47 : Nat)).wait = some rqOff) ∧ (bits (pdCfg pLate (↑pd47 : Nat)) 15 0 ≠ 0) ∧ (usSince pLate
      rqOff.since (bits (pdCfg pLate (↑pd47 : Nat)) 15 0) = true)) ∧
    (((pdRec pLate (↑pd47 : Nat)).wait = some rqOff) ∧ (bits (pdCfg pLate (↑pd47 : Nat)) 15 0 ≠ 0) ∧ (usSince pLate
      rqOff.since (bits (pdCfg pLate (↑pd47 : Nat)) 15 0) = true) ∧ (rqOff.by_ = PdBy.req) ∧ (kup pLate.pwr.doms =
      true) ∧ (∀ (g : Nat), g < 16 → (grpRec pLate g).busy = false ∧ (grpRec pLate g).held = none)) ∧
    ((transReady pUp (↑pdN : Nat) = true)) ∧
    (((pdRec pUp (↑pdN : Nat)).up = true) ∧ ((pdRec pUp (↑pdN : Nat)).queued = false) ∧ (usSince pUp (pdRec pUp (↑pdN
      : Nat)).began 100 = true)) ∧
    ((wakeLine pWake (↑pdN : Nat) = true) ∧ (bit (pdCfg pWake (↑pdN : Nat)) 29 = true) ∧ ((pdRec pWake (↑pdN :
      Nat)).cur = PdState.retain)) ∧
    ((wakeLine pLatch (↑pdN : Nat) = true) ∧ (bit (pdCfg pLatch (↑pdN : Nat)) 29 = true) ∧ ((pdRec pLatch (↑pdN :
      Nat)).cur = PdState.trans) ∧ ((pdRec pLatch (↑pdN : Nat)).target = PdState.retain) ∧
      (pLatch.evt.lineWoke.contains (↑pdN : Nat) = false)) ∧
    ((reaches grp sv 4) ∧ ((grpRec grp (↑g0 : Nat)).busy = false) ∧ (badEntry [] (grpList grp (↑g0 : Nat)) = none)) := by
  repeat' apply And.intro
  all_goals first | decide +kernel | exact okIs_eq (by decide +kernel) | exact exIs_eq (by decide +kernel) | exact List.Mem.head _ | exact okRes_eq _ (by decide +kernel) | rfl

end C18

namespace C19

def cF : Fin 16 := 0
def ckS (r : CdRec) (op : Nat) (pend : Option Nat) (pm : Bool) : State :=
  setCd { setEnabled s0 0x00F pm with clk := { s0.clk with op := op, pendOp := pend }, time := { s0.time with free := 98304000 } } 0 r
def ckBusy : State := ckS { CdRec.init with busy := true, target := 10 } 2 none false
def ckIdle : State := ckS CdRec.init 2 none false
def ckLow : State := ckS CdRec.init 0 none true
def fr10 : Word := 10
def fr16 : Word := 16
def ckStep : State := ckS { CdRec.init with busy := true, target := 15 } 2 none false
def ckStepH : State := ckS { CdRec.init with busy := true, target := 15, held := some 3 } 2 none false
def three : Nat := 3
def ckPend : State := ckS { CdRec.init with busy := true, waitV := true } 0 (some 2) true
def opTwo : Nat := 2
def pllF : Fin 30 := 17
def pllL : Fin 30 := 26
def xLp : Fin 512 := 0x100
def xLl : Fin 4 := 0
def holdOn : State := setReg s0 0x005 0x1A0 1
def held : State := { holdOn with clk := { s0.clk with holdover := true } }
def evN : Fin 2048 := 16
/-- Source 16, of the dispatcher's page, stands; its route is `r`. -/
def evS (r : Word) (seen : List Nat) : State :=
  setRegI { modReg (setReg s0 0x002 0x18 0) 0x002 0x14 (fun w => putBit w 0 true) with evt := { s0.evt with seen := seen } } 0x001 0x104 16 r
def ev0 : State := evS 0 []
def ev1 : State := evS 0x90000000 []
/-- The state in which source 16 of `s` goes where its route says. -/
def evAt (s : State) : State :=
  let s0 := setRegI s 0x001 0x108 16 1
  modEvt s0 fun e => { e with seen := e.seen ++ [16] }
def ev0a : State := evAt ev0
def ev0c : State := captureErr (countCe ev0a 0x001) 0x001 ⟨1, 0x01, 0, 0x001, none⟩
def ev1a : State := evAt ev1
def tClean : Mark := .clean
def tCe : Mark := .ce
def evNo : State := { evS 0x90000000 [] with fuses := { die with coreMap := List.replicate 16 0xFFFFFFFF } }
def ev2 : State := evS 0xA0000000 []
def ev3 : State := evS 0xB0000000 []
def evNoA : State := evAt evNo
def ev2a : State := evAt ev2
def ev3a : State := evAt ev3
def evDown : State := { setRegI s0 0x001 0x104 16 0 with evt := { s0.evt with seen := [16] } }
def evSel (seen : List Nat) : State := setReg (evS 0 seen) 0x001 0x100 16
def evSelS : State := evSel [16]
def rt2 : Word := 0xA0000000
def rt3 : Word := 0xB0000000
def one1 : Word := 1
def rep : Report := ⟨0x002, 0x00020402, 0, 0⟩
def pDisp : Fin 512 := 0x002
def repS : State := setReg { s0 with evt := { s0.evt with unsent := [rep] } } 0x001 0x118 100
def repIn : State := { repS with evt := { repS.evt with echo := [(2, ⟨true, 1000, 2, 0⟩)] } }
def winS : State := { s0 with evt := { s0.evt with echo := [(2, ⟨true, 0, 2, 0⟩)] } }
def fc2 : Fin 5 := 2
def fatS (l31 : Bool) : State := setReg { s0 with evt := { s0.evt with fatalPend := [2], svLine31 := l31 } } 0x001 0x144 0xC0000000
def fatA : State := fatS false
def fatM : State := { fatA with pcie := { fatA.pcie with msix := [(12, 1)] } }
def fatB : State := fatS true
def fatD : State := { s0 with evt := { s0.evt with fatalAt := some 0 } }
def zeroN : Nat := 0

/-- The premises of the clauses of ClockCommandsComplete are met. -/
theorem wit_ClockCommandsComplete :
    ((reaches ckBusy sv 5) ∧ ((cdRec ckBusy (↑cF : Nat)).busy = true)) ∧
    ((reaches ckIdle sv 5) ∧ ((cdRec ckIdle (↑cF : Nat)).busy = false) ∧ ((cdRec ckIdle (↑cF : Nat)).cur ≠ min 16
      (bits fr10 4 0)) ∧ (opMet ckIdle (stepOp (min 16 (bits fr10 4 0))) = true) ∧ (kup ckIdle.clk.cds = true)) ∧
    ((reaches ckLow sv 5) ∧ ((cdRec ckLow (↑cF : Nat)).busy = false) ∧ ((cdRec ckLow (↑cF : Nat)).cur ≠ min 16 (bits
      fr10 4 0)) ∧ (opMet ckLow (stepOp (min 16 (bits fr10 4 0))) = false) ∧ (ckLow.clk.pendOp = none) ∧ (kup
      ckLow.clk.cds = true)) ∧
    ((reaches ckIdle sv 5) ∧ ((cdRec ckIdle (↑cF : Nat)).busy = false) ∧ ((cdRec ckIdle (↑cF : Nat)).cur = min 16
      (bits fr16 4 0)) ∧ (kup ckIdle.clk.cds = true)) ∧
    (((cdRec ckBusy (↑cF : Nat)).busy = true) ∧ ((cdRec ckBusy (↑cF : Nat)).waitV = false) ∧ ((if (cdRec ckBusy (↑cF
      : Nat)).cur < (cdRec ckBusy (↑cF : Nat)).target then (cdRec ckBusy (↑cF : Nat)).cur + 1 else (cdRec ckBusy (↑cF
      : Nat)).cur - 1) ≠ (cdRec ckBusy (↑cF : Nat)).target)) ∧
    (((cdRec ckStep (↑cF : Nat)).busy = true) ∧ ((cdRec ckStep (↑cF : Nat)).waitV = false) ∧ ((if (cdRec ckStep (↑cF
      : Nat)).cur < (cdRec ckStep (↑cF : Nat)).target then (cdRec ckStep (↑cF : Nat)).cur + 1 else (cdRec ckStep (↑cF
      : Nat)).cur - 1) = (cdRec ckStep (↑cF : Nat)).target) ∧ ((cdRec ckStep (↑cF : Nat)).held = none) ∧ (kup
      ckStep.clk.cds = true)) ∧
    (((cdRec ckStepH (↑cF : Nat)).busy = true) ∧ ((cdRec ckStepH (↑cF : Nat)).waitV = false) ∧ ((if (cdRec ckStepH
      (↑cF : Nat)).cur < (cdRec ckStepH (↑cF : Nat)).target then (cdRec ckStepH (↑cF : Nat)).cur + 1 else (cdRec
      ckStepH (↑cF : Nat)).cur - 1) = (cdRec ckStepH (↑cF : Nat)).target) ∧ ((cdRec ckStepH (↑cF : Nat)).held = some
      three) ∧ (kup ckStepH.clk.cds = true)) ∧
    ((ckPend.clk.pendOp = some opTwo) ∧ (usSince ckPend ckPend.clk.pendAt (max 1 (bits (getReg ckPend 5 392) 15 0)) =
      true)) ∧
    ((ckPend.clk.pendOp = some opTwo) ∧ (usSince ckPend ckPend.clk.pendAt (max 1 (bits (getReg ckPend 5 392) 15 0)) =
      true) ∧ (kup ckPend.clk.cds = true) ∧ (zeroN < 16) ∧ ((cdRec ckPend zeroN).busy = true) ∧ (stepOp (cdRec ckPend
      zeroN).target ≤ opTwo)) ∧
    ((ckPend.clk.pendOp = some opTwo)) ∧
    ((bit (getReg s0 5 384) (↑pllF : Nat) = false) ∧ (pllF = 19 → bit (getReg s0 5 416) 0 = false)) ∧
    ((bit (getReg s0 5 384) (↑pllL : Nat) = false) ∧ (pllL = 19 → bit (getReg s0 5 416) 0 = false) ∧ (pllFeeds (↑pllL
      : Nat) (↑xLp : Nat) = true) ∧ (pageOn s0 (↑xLp : Nat) = true)) ∧
    ((bit (getReg ckBusy 5 416) 0 = true) ∧ (ckBusy.clk.holdover = false)) ∧
    ((held.clk.holdover = true)) := by
  repeat' apply And.intro
  all_goals first | decide +kernel | exact okIs_eq (by decide +kernel) | exact exIs_eq (by decide +kernel) | exact List.Mem.head _ | exact okRes_eq _ (by decide +kernel) | rfl

/-- The premises of the clauses of EventCommandsComplete are met. -/
theorem wit_EventCommandsComplete :
    ((fabricClock ev0 = true) ∧ (sourceLevel ev0 (↑evN : Nat) = true) ∧ (ev0.evt.seen.contains (↑evN : Nat) = false)) ∧
    ((fabricClock ev0 = true) ∧ (sourceLevel ev0 (↑evN : Nat) = true) ∧ (ev0.evt.seen.contains (↑evN : Nat) = false)
      ∧ ((tClean = Mark.clean ∧ ev0a = modEvt (setRegI ev0 1 264 (↑evN : Nat) (w32 ((bits (getRegI ev0 1 264 (↑evN :
      Nat)) 15 0 + 1) % 2 ^ 16))) fun e => { e with seen := (e.seen ++ [(↑evN : Nat)]) : EvtSt }) ∨ tClean = Mark.ce
      ∧ ev0a = captureErr (countCe (modEvt (setRegI ev0 1 264 (↑evN : Nat) (w32 ((bits (getRegI ev0 1 264 (↑evN :
      Nat)) 15 0 + 1) % 2 ^ 16))) fun e => { e with seen := (e.seen ++ [(↑evN : Nat)]) : EvtSt }) 1) 1
      { cls := 1, code := 1, origin := 0, src := 1, addr := none : Err }) ∧ (routeKind (routeReg ev0 (↑evN : Nat)) =
      0)) ∧
    ((fabricClock ev1 = true) ∧ (sourceLevel ev1 (↑evN : Nat) = true) ∧ (ev1.evt.seen.contains (↑evN : Nat) = false)
      ∧ ((tClean = Mark.clean ∧ ev1a = modEvt (setRegI ev1 1 264 (↑evN : Nat) (w32 ((bits (getRegI ev1 1 264 (↑evN :
      Nat)) 15 0 + 1) % 2 ^ 16))) fun e => { e with seen := (e.seen ++ [(↑evN : Nat)]) : EvtSt }) ∨ tClean = Mark.ce
      ∧ ev1a = captureErr (countCe (modEvt (setRegI ev1 1 264 (↑evN : Nat) (w32 ((bits (getRegI ev1 1 264 (↑evN :
      Nat)) 15 0 + 1) % 2 ^ 16))) fun e => { e with seen := (e.seen ++ [(↑evN : Nat)]) : EvtSt }) 1) 1
      { cls := 1, code := 1, origin := 0, src := 1, addr := none : Err }) ∧ (routeKind (routeReg ev1 (↑evN : Nat)) =
      1) ∧ (128 ≤ bits (routeReg ev1 (↑evN : Nat)) 20 13 ∨ (physOf ev1 (bits (routeReg ev1 (↑evN : Nat)) 20
      13)).isSome = true)) ∧
    ((fabricClock evNo = true) ∧ (sourceLevel evNo (↑evN : Nat) = true) ∧ (evNo.evt.seen.contains (↑evN : Nat) =
      false) ∧ ((tClean = Mark.clean ∧ evNoA = modEvt (setRegI evNo 1 264 (↑evN : Nat) (w32 ((bits (getRegI evNo 1
      264 (↑evN : Nat)) 15 0 + 1) % 2 ^ 16))) fun e => { e with seen := (e.seen ++ [(↑evN : Nat)]) : EvtSt }) ∨
      tClean = Mark.ce ∧ evNoA = captureErr (countCe (modEvt (setRegI evNo 1 264 (↑evN : Nat) (w32 ((bits (getRegI
      evNo 1 264 (↑evN : Nat)) 15 0 + 1) % 2 ^ 16))) fun e => { e with seen := (e.seen ++ [(↑evN : Nat)]) : EvtSt })
      1) 1 { cls := 1, code := 1, origin := 0, src := 1, addr := none : Err }) ∧ (routeKind (routeReg evNo (↑evN :
      Nat)) = 1) ∧ (bits (routeReg evNo (↑evN : Nat)) 20 13 < 128) ∧ (physOf evNo (bits (routeReg evNo (↑evN : Nat))
      20 13) = none)) ∧
    ((fabricClock ev2 = true) ∧ (sourceLevel ev2 (↑evN : Nat) = true) ∧ (ev2.evt.seen.contains (↑evN : Nat) = false)
      ∧ ((tClean = Mark.clean ∧ ev2a = modEvt (setRegI ev2 1 264 (↑evN : Nat) (w32 ((bits (getRegI ev2 1 264 (↑evN :
      Nat)) 15 0 + 1) % 2 ^ 16))) fun e => { e with seen := (e.seen ++ [(↑evN : Nat)]) : EvtSt }) ∨ tClean = Mark.ce
      ∧ ev2a = captureErr (countCe (modEvt (setRegI ev2 1 264 (↑evN : Nat) (w32 ((bits (getRegI ev2 1 264 (↑evN :
      Nat)) 15 0 + 1) % 2 ^ 16))) fun e => { e with seen := (e.seen ++ [(↑evN : Nat)]) : EvtSt }) 1) 1
      { cls := 1, code := 1, origin := 0, src := 1, addr := none : Err }) ∧ (routeKind (routeReg ev2 (↑evN : Nat)) =
      2)) ∧
    ((fabricClock ev3 = true) ∧ (sourceLevel ev3 (↑evN : Nat) = true) ∧ (ev3.evt.seen.contains (↑evN : Nat) = false)
      ∧ ((tClean = Mark.clean ∧ ev3a = modEvt (setRegI ev3 1 264 (↑evN : Nat) (w32 ((bits (getRegI ev3 1 264 (↑evN :
      Nat)) 15 0 + 1) % 2 ^ 16))) fun e => { e with seen := (e.seen ++ [(↑evN : Nat)]) : EvtSt }) ∨ tClean = Mark.ce
      ∧ ev3a = captureErr (countCe (modEvt (setRegI ev3 1 264 (↑evN : Nat) (w32 ((bits (getRegI ev3 1 264 (↑evN :
      Nat)) 15 0 + 1) % 2 ^ 16))) fun e => { e with seen := (e.seen ++ [(↑evN : Nat)]) : EvtSt }) 1) 1
      { cls := 1, code := 1, origin := 0, src := 1, addr := none : Err }) ∧ (routeKind (routeReg ev3 (↑evN : Nat)) =
      3)) ∧
    ((fabricClock evDown = true) ∧ (sourceLevel evDown (↑evN : Nat) = false) ∧ (evDown.evt.seen.contains (↑evN : Nat)
      = true)) ∧
    ((reaches ev0 sv 1) ∧ (ev0.evt.seen.contains (bits (getReg ev0 1 256) 10 0) = false ∨ bit one1 31 = false)) ∧
    ((reaches evSelS sv 1) ∧ (evSelS.evt.seen.contains (bits (getReg evSelS 1 256) 10 0) = true) ∧ (bit rt2 31 =
      true) ∧ (bit (routeReg evSelS (bits (getReg evSelS 1 256) 10 0)) 31 = false) ∧ (kup evSelS.regs = true) ∧ (bits
      rt2 30 28 = 2) ∧ (vectorLevel evSelS (bits rt2 7 0) = false)) ∧
    ((reaches evSelS sv 1) ∧ (evSelS.evt.seen.contains (bits (getReg evSelS 1 256) 10 0) = true) ∧ (bit rt3 31 =
      true) ∧ (bit (routeReg evSelS (bits (getReg evSelS 1 256) 10 0)) 31 = false) ∧ (kup evSelS.regs = true) ∧ (bits
      rt3 30 28 = 3) ∧ (5 ≤ bits (getReg evSelS 1 256) 10 0)) ∧
    ((reaches evSelS sv 1)) ∧
    ((reaches ev0 sv 1) ∧ (bit one1 0 = true)) ∧
    ((fabricClock repS = true) ∧ (List.find? (fun x => decide (x.page = (↑pDisp : Nat))) repS.evt.unsent = some rep)
      ∧ (kup repS.evt.echo = true)) ∧
    ((fabricClock repS = true) ∧ (List.find? (fun x => decide (x.page = (↑pDisp : Nat))) repS.evt.unsent = some rep)
      ∧ (kup repS.evt.echo = true) ∧ (echoOpen repS (bits rep.cause 25 16) = false ∨ bits (getReg repS 1 280) 15 0 =
      0 ∨ fatalReport (↑pDisp : Nat) (bits rep.cause 11 8) (bits rep.cause 7 0) = true)) ∧
    ((fabricClock repIn = true) ∧ (List.find? (fun x => decide (x.page = (↑pDisp : Nat))) repIn.evt.unsent = some
      rep) ∧ (kup repIn.evt.echo = true) ∧ (echoOpen repIn (bits rep.cause 25 16) = true) ∧ (bits (getReg repIn 1
      280) 15 0 ≠ 0) ∧ (fatalReport (↑pDisp : Nat) (bits rep.cause 11 8) (bits rep.cause 7 0) = false)) ∧
    (((kget EchoWin.init winS.evt.echo (↑pDisp : Nat)).isOpen = true) ∧ ((kget EchoWin.init winS.evt.echo (↑pDisp :
      Nat)).endAt ≤ 100 * freeNow winS)) ∧
    (((↑fc2 : Nat) = 4 ∨ fatA.evt.fatalPend.contains (↑fc2 : Nat) = true) ∧ (kup fatA.regs = true)) ∧
    (((↑fc2 : Nat) = 4 ∨ fatB.evt.fatalPend.contains (↑fc2 : Nat) = true) ∧ (kup fatB.regs = true) ∧
      (fatB.evt.svLine31 = true)) ∧
    (((↑fc2 : Nat) = 4 ∨ fatA.evt.fatalPend.contains (↑fc2 : Nat) = true) ∧ (kup fatA.regs = true) ∧
      (fatA.evt.svLine31 = false)) ∧
    (((↑fc2 : Nat) = 4 ∨ fatA.evt.fatalPend.contains (↑fc2 : Nat) = true) ∧ (kup fatA.regs = true) ∧
      (fatA.evt.svLine31 = false) ∧ (bit (getReg fatA 1 324) 31 = true)) ∧
    (((↑fc2 : Nat) = 4 ∨ fatA.evt.fatalPend.contains (↑fc2 : Nat) = true) ∧ (kup fatA.regs = true) ∧
      (fatA.evt.svLine31 = false) ∧ (bit (getReg fatA 1 324) 30 = true)) ∧
    (((↑fc2 : Nat) = 4 ∨ fatM.evt.fatalPend.contains (↑fc2 : Nat) = true) ∧ (kup fatM.regs = true) ∧
      (fatM.evt.svLine31 = false) ∧ (fabricClock fatM = true) ∧ (msixMasked fatM (bits (getReg fatM 1 324) 23 16) =
      false)) ∧
    (((↑fc2 : Nat) = 4 ∨ fatA.evt.fatalPend.contains (↑fc2 : Nat) = true) ∧ (kup fatA.regs = true) ∧
      (fatA.evt.svLine31 = false) ∧ (fabricClock fatA = true) ∧ (msixMasked fatA (bits (getReg fatA 1 324) 23 16) =
      true) ∧ (kup fatA.pcie.msixPend = true)) ∧
    ((fatD.evt.fatalAt = some zeroN) ∧ (zeroN ≤ 100 * fatD.time.free)) := by
  repeat' apply And.intro
  all_goals first | decide +kernel | exact okIs_eq (by decide +kernel) | exact exIs_eq (by decide +kernel) | exact List.Mem.head _ | exact okRes_eq _ (by decide +kernel) | rfl

end C19

namespace C20

def rstWarm : Word := 0x52540001
def fatR : State := { s0 with evt := { s0.evt with resetReq := true } }
def wdS : State := { setReg s0 0x00D 0x10C 0x80000001 with time := { s0.time with free := 983040 } }
def kick : Word := 0xA5
def goW : Word := 1
/-- BOOT_MODE `m`, STAGE `st`. -/
def bt (m st : Nat) : State := setReg (setReg s0 0x00D 0x114 (w32 m)) 0x00D 0x108 (w32 (2 ^ 24 * st))
def btPcie : State := bt 1 3
def mode2 : BitVec 2 := 2
def fresh : State := { s0 with boot := BootSt.init }
def relS : State := { s0 with boot := { BootSt.init with released := true } }
def failU : List (Fin 320) := []
def bTrue : Bool := true
def bFalse : Bool := false
def btSel : State := { bt 0 1 with boot := { BootSt.init with flash := [(slotBase 1 + 0x00C, 7)] } }
def btRun : State := bt 0 2
def pg : Nat := 3
def off4 : Nat := 0x100
def ix : Nat := 0
def flS : State := setReg (setReg (setReg s0 0x00D 0x12C 16) 0x00D 0x124 0) 0x00D 0x128 0x10
def flRun : State := { flS with boot := { flS.boot with image := some ⟨0, 0, 0, 0, 0⟩ } }
def flOver : State := setReg flRun 0x00D 0x120 0x10000
def flB : State := { s0 with boot := { s0.boot with flBusy := true } }
def cfS (n : Nat) : State := setReg btRun 0x00D 0x13C (w32 n)
def cf0 : State := cfS 0
def cf1 : State := cfS 4096
def cfP : State := { setReg s0 0x00D 0x13C 0 with boot := { s0.boot with persist := true } }
def rNo : Nat := 5
def cmdN : Nat := 3
def mbB : State := { s0 with boot := { s0.boot with svMb := ⟨some (3, 5)⟩, hostMb := ⟨some (3, 5)⟩ } }
def m25 : BitVec 8 := 25
def m32 : BitVec 8 := 32
def pin0 : Fin 32 := 0
def gpR : State := setReg (setReg s0 0x00E 0x10C 1) 0x00E 0x110 0
def gpN : State := setReg (setReg s0 0x00E 0x10C 0) 0x00E 0x110 0
def outc : Host.Outcome State Fault Refusal := Sys2Proof.Machine.execDebugChallenge sv true s0
def outh : Host.Outcome State Fault Refusal := Sys2Proof.Machine.execVerifyCfg sv false s0

/-- The premises of the clauses of ResetsAndBootComplete are met. -/
theorem wit_ResetsAndBootComplete :
    ((kup s0.regs = true)) ∧
    ((kup s0.regs = true) ∧ (pg < 64)) ∧
    ((kup s0.mem = true)) ∧
    ((reaches s0 sv 13) ∧ (bits rstWarm 31 16 = 21076) ∧ (bit rstWarm 0 = true)) ∧
    ((reaches s0 sv 13) ∧ (bits rstWarm 31 16 = 21076) ∧ (bit rstWarm 0 = true) ∧ (kup s0.regs = true)) ∧
    ((reaches s0 sv 13) ∧ (bits rstWarm 31 16 = 21076) ∧ (bit rstWarm 0 = true) ∧ (kup s0.regs = true) ∧ (ix < 64)) ∧
    ((reaches s0 sv 13) ∧ (bits rstWarm 31 16 = 21076) ∧ (bit rstWarm 0 = true) ∧ (kup s0.mem = true)) ∧
    ((fatR.evt.resetReq = true)) ∧
    ((fatR.evt.resetReq = true) ∧ (kup fatR.regs = true)) ∧
    ((fatR.evt.resetReq = true) ∧ (kup fatR.regs = true) ∧ (ix < 64)) ∧
    ((fatR.evt.resetReq = true) ∧ (kup fatR.mem = true)) ∧
    ((wdogEn wdS = true) ∧ (wdogPast wdS 2 = true)) ∧
    ((wdogEn wdS = true) ∧ (wdogPast wdS 2 = true) ∧ (kup wdS.regs = true)) ∧
    ((wdogEn wdS = true) ∧ (wdogPast wdS 2 = true) ∧ (kup wdS.regs = true) ∧ (ix < 64)) ∧
    ((wdogEn wdS = true) ∧ (wdogPast wdS 2 = true) ∧ (kup wdS.mem = true)) ∧
    ((pg < 1024) ∧ (pg < 4096) ∧ (¬pg ∈ [7, 304, 305, 306, 307]) ∧ (kup s0.regs = true)) ∧
    ((wdogEn wdS = true) ∧ (wdS.boot.wdogHalf = false) ∧ (wdogPast wdS 1 = true)) ∧
    ((reaches s0 sv 13) ∧ (bits kick 15 0 = 165)) ∧
    ((reaches s0 sv 13) ∧ (bits rstWarm 15 0 ≠ 165)) ∧
    ((reaches btPcie sv 13) ∧ (bit goW 0 = true) ∧ (bootMode btPcie = 1 ∧ (bootStage btPcie = 1 ∨ bootStage btPcie =
      3) ∨ bootMode btPcie = 2 ∧ bootStage btPcie = 3)) ∧
    ((fresh.boot.released = false)) ∧
    ((fresh.boot.released = false) ∧ (kup fresh.regs = true)) ∧
    ((relS.boot.released = true) ∧ (relS.boot.tested = false) ∧ (bFalse = false) ∧ (bTrue = true)) ∧
    ((relS.boot.released = true) ∧ (relS.boot.tested = false) ∧ (bTrue = true) ∧ (bTrue = true)) ∧
    ((relS.boot.released = true) ∧ (relS.boot.tested = false) ∧ (bFalse = false)) ∧
    ((blockRuns btSel 13 = true) ∧ (bootStage btSel = 1) ∧ (bootMode btSel ≠ 1) ∧ (slotState btSel 0 ≠ 65535) ∧
      (slotState btSel 1 ≠ 65535) ∧ (slotSeq btSel 0 ≠ slotSeq btSel 1)) ∧
    ((blockRuns btRun 13 = true) ∧ (bootStage btRun = 2) ∧ (bootReady btRun = false)) := by
  repeat' apply And.intro
  all_goals first | decide +kernel | exact okIs_eq (by decide +kernel) | exact exIs_eq (by decide +kernel) | exact List.Mem.head _ | exact okRes_eq _ (by decide +kernel) | rfl

/-- The premises of the clauses of SecurityAndBoardComplete are met. -/
theorem wit_SecurityAndBoardComplete :
    ((reaches flS sv 13) ∧ (flS.boot.flBusy = false)) ∧
    ((reaches flS sv 13) ∧ (flS.boot.flBusy = false) ∧ (overRunning flS (BitVec.toNat (getReg flS 13 288))
      (BitVec.toNat (getReg flS 13 300)) = false)) ∧
    ((reaches flOver sv 13) ∧ (flOver.boot.flBusy = false) ∧ (overRunning flOver (BitVec.toNat (getReg flOver 13
      288)) (BitVec.toNat (getReg flOver 13 300)) = true)) ∧
    ((reaches flS sv 13) ∧ (flS.boot.flBusy = false) ∧ (overRunning flS (BitVec.toNat (getReg flS 13 288) / 4096 *
      4096) ((granules (BitVec.toNat (getReg flS 13 288)) (BitVec.toNat (getReg flS 13 300)) 4096).length * 4096) =
      false)) ∧
    ((reaches flOver sv 13) ∧ (flOver.boot.flBusy = false) ∧ (overRunning flOver (BitVec.toNat (getReg flOver 13 288)
      / 4096 * 4096) ((granules (BitVec.toNat (getReg flOver 13 288)) (BitVec.toNat (getReg flOver 13 300))
      4096).length * 4096) = true)) ∧
    ((flB.boot.flBusy = true) ∧ (blockRuns flB 13 = true) ∧ (pllOn flB 24 = true)) ∧
    ((reaches cf0 sv 13) ∧ (bit goW 0 = true) ∧ (bootStage cf0 = 2) ∧ ((List.any cf0.phys fun e => decide (2 ≤
      e.snd.st)) = false) ∧ (BitVec.toNat (getReg cf0 13 316) < 4096 ∨ 2 ^ 24 < BitVec.toNat (getReg cf0 13 316))) ∧
    ((reaches cf1 sv 13) ∧ (bit goW 0 = true) ∧ (bootStage cf1 = 2) ∧ ((List.any cf1.phys fun e => decide (2 ≤
      e.snd.st)) = false) ∧ (4096 ≤ BitVec.toNat (getReg cf1 13 316)) ∧ (BitVec.toNat (getReg cf1 13 316) ≤ 2 ^ 24)) ∧
    ((cfP.boot.persist = true)) ∧
    ((reaches flS sv 12) ∧ ((if true = true then flS.boot.svMb else flS.boot.hostMb).cmd = none) ∧ (true = true)) ∧
    ((reaches s0 sv 12) ∧ ((if bTrue = true then s0.boot.svMb else s0.boot.hostMb).cmd = none) ∧ (bTrue = true) ∧
      (outc ∈ [exec (Instr.debugChallenge sv bTrue) s0, exec (Instr.debugUnlock sv bTrue) s0, exec (Instr.fuseKey sv
      bTrue bTrue) s0, exec (Instr.fuseRevoke sv bTrue bTrue) s0, exec (Instr.fuseLock sv bTrue bTrue) s0])) ∧
    ((reaches flS sv 12) ∧ ((if true = true then flS.boot.svMb else flS.boot.hostMb).cmd = none)) ∧
    ((reaches s0 sv 12) ∧ ((if bFalse = true then s0.boot.svMb else s0.boot.hostMb).cmd = none) ∧ (bFalse = false)) ∧
    ((reaches s0 sv 12) ∧ ((if bFalse = true then s0.boot.svMb else s0.boot.hostMb).cmd = none) ∧ (bFalse = false) ∧
      (outh ∈ [exec (Instr.verifyCfg sv bFalse) s0, exec (Instr.signCal sv bFalse) s0, exec (Instr.verifyCal sv
      bFalse) s0, exec (Instr.confirm sv bFalse) s0])) ∧
    ((blockRuns mbB 12 = true) ∧ ((if bTrue = true then mbB.boot.svMb else mbB.boot.hostMb).cmd = some (cmdN, rNo))) ∧
    ((reaches s0 sv 15) ∧ (enabled s0 15 = false) ∧ (resetting s0 15 = false) ∧ (m25.toNat < 32)) ∧
    ((reaches s0 sv 15) ∧ (enabled s0 15 = false) ∧ (resetting s0 15 = false) ∧ (32 ≤ m32.toNat)) ∧
    ((reaches s0 sv 15) ∧ (enabled s0 15 = false) ∧ (resetting s0 15 = false)) ∧
    ((bit (getReg gpR 14 264) (↑pin0 : Nat) ≠ bTrue) ∧ (kup gpR.regs = true)) ∧
    ((bit (getReg gpR 14 264) (↑pin0 : Nat) ≠ bTrue) ∧ (kup gpR.regs = true) ∧ (bit (getReg gpR 14 (if bTrue = true
      then 268 else 272)) (↑pin0 : Nat) = true)) ∧
    ((bit (getReg gpN 14 264) (↑pin0 : Nat) ≠ bTrue) ∧ (kup gpN.regs = true) ∧ (bit (getReg gpN 14 (if bTrue = true
      then 268 else 272)) (↑pin0 : Nat) = false)) := by
  repeat' apply And.intro
  all_goals first | decide +kernel | exact okIs_eq (by decide +kernel) | exact exIs_eq (by decide +kernel) | exact List.Mem.head _ | exact okRes_eq _ (by decide +kernel) | rfl

end C20

namespace C01

/-- The premises of the clauses of IdleStepTicks and QueueIsFirstInFirstOut are met: reset waits for no command. -/
theorem wit_IdleStepTicks : s0.pending = [] ∧ (∃ t, step s0 = .next t) ∧ ∃ t, exec .ceLeak s0 = .next t :=
  ⟨rfl, ⟨_, rfl⟩, _, rfl⟩

/-- A command in front runs: the premise of the second clause of QueueIsFirstInFirstOut. -/
theorem wit_QueueIsFirstInFirstOut : ∃ t, step { s0 with pending := [.ceLeak, .wreset] } = .next t := ⟨_, rfl⟩

/-- The premises of StepKeepsSound are met, and those of FuseBitsOnlyRise. -/
theorem wit_StepKeepsSound : Sound s0 ∧ ∃ t, step s0 = .next t :=
  ⟨by constructor <;> decide +kernel, _, rfl⟩

/-- The premises of the frames are met: CE_LEAK leaves every part but the registers and its microseconds, an age promotion leaves
those. -/
theorem wit_Frames :
    (∃ t, exec .ceLeak s0 = .next t) ∧
    ((List.range 45).all fun p => p = 0 ∨ p = Part.regs ∨ p = Part.usTick ∨ (footprint .ceLeak).testBit p = false) = true ∧
    (∃ t, exec (.agePromotion 1 2) s0 = .next t) ∧ (footprint (.agePromotion 1 2)).testBit Part.regs = false ∧
    (footprint (.agePromotion 1 2)).testBit Part.usTick = false :=
  ⟨⟨_, rfl⟩, by decide +kernel, ⟨_, rfl⟩, by decide +kernel, by decide +kernel⟩

end C01

namespace C21

/-- The watchdog is on, and its time past. -/
def wdogS : State := { setReg s0 0x00D 0x10C 0x80000001 with time := { s0.time with free := 2 ^ 60 } }
/-- A fatal condition asks for a reset. -/
def askS : State := { s0 with evt := { s0.evt with resetReq := true } }
/-- Condition 2 is met, and the supervisors' line 31 is raised already. -/
def fatS : State := { s0 with evt := { s0.evt with fatalPend := [2], svLine31 := true } }

/-- The premises of the clauses of FreeOnlyCounts are met. -/
theorem wit_FreeOnlyCounts :
    s0.pending = [] ∧ (Instr.ceLeak ≠ .poreset ∧ Instr.ceLeak ≠ .vddAonBrownout ∧ ∃ t, exec .ceLeak s0 = .next t) ∧
    (∃ t, exec .poreset s0 = .next t) ∧ (∃ t, exec .vddAonBrownout s0 = .next t) ∧ reaches s0 sv 0x003 :=
  ⟨rfl, ⟨by simp, by simp, _, rfl⟩, ⟨_, rfl⟩, ⟨_, rfl⟩, by decide +kernel, by decide +kernel⟩

/-- The premises of the clauses of WarmResetKeepsDeviceTime are met. -/
theorem wit_WarmResetKeepsDeviceTime :
    kup s0.regs = true ∧ (reaches s0 sv 0x00D ∧ bits (0x52540001 : Word) 31 16 = 0x5254 ∧ bit (0x52540001 : Word) 0 = true) ∧
    (kup askS.regs = true ∧ askS.evt.resetReq = true) ∧
    (kup wdogS.regs = true ∧ wdogEn wdogS = true ∧ wdogPast wdogS 2 = true) := by
  unfold reaches; decide +kernel

/-- The premises of the clauses of FatalRecordStays are met. -/
theorem wit_FatalRecordStays :
    kup fatS.regs = true ∧ fatS.evt.fatalPend.contains (2 : Fin 5).val = true ∧ fatS.evt.svLine31 = true ∧
    (∃ t, exec .wreset fatS = .next t) ∧ (∃ t, exec (.rstCmdWarm sv 0x52540001) fatS = .next t) ∧
    (∃ t, exec .fatalReset fatS = .next t) ∧ (∃ t, exec .pcieReset fatS = .next t) ∧ ∃ t, exec .wdogExpiry fatS = .next t :=
  ⟨by decide +kernel, by decide +kernel, rfl, ⟨_, rfl⟩, ⟨_, rfl⟩, ⟨_, rfl⟩, ⟨_, rfl⟩, _, rfl⟩

end C21

namespace Shape

/-- What is well formed, and a command that is refused for each check of `Instr.wf`. -/
theorem test_wf_read : Instr.wf (.rd (.fresh sv 0 256) none .good) = true ∧ Instr.wf (.rd (.fresh sv 0 0) none .good) = false ∧
    Instr.wf (.rd (.fresh sv 0 257) none .good) = false := by decide

theorem test_wf_write : Instr.wf (.wr (.fresh sv 0 (List.replicate 64 0) 0) none .good) = true ∧
    Instr.wf (.wr (.fresh sv 0 [] 0) none .good) = false ∧
    Instr.wf (.wr (.fresh sv 0 (List.replicate 65 0) 0) none .good) = false := by decide +kernel

theorem test_wf_cuwick : Instr.wf (.cuwickFrame (List.replicate 144 0)) = true ∧
    Instr.wf (.cuwickFrame (List.replicate 143 0)) = false := by decide +kernel

theorem test_wf_tokens : Instr.wf (.dispToken []) = false := by decide

theorem test_wf_jsync : Instr.wf (.jsyncLow 0 1) = true ∧ Instr.wf (.jsyncLow 0 0) = false := by decide

/-- No row of the table has bits. -/
theorem test_no_word : decodeTableWord 32 0 = none ∧ s0.withFetchWord 32 0 = s0 := ⟨rfl, rfl⟩

end Shape

/-! ### The spec's worked examples -/

namespace Worked

/-- R19: now 0xFFFF_FF00, a target 512 ns ahead. -/
theorem test_time_compare_wraps :
    sinceTarget { s0 with time := { s0.time with acc := 2 ^ 32 * 0xFFFFFF00, off := 0 } } 0x00000100 = -512 ∧
    sinceTarget { s0 with time := { s0.time with acc := 2 ^ 32 * 0x100000100, off := 0 } } 0x00000100 = 0 := by decide +kernel

/-- Chapter 2, R49: the FEC2 page, index 0x0D2, sits in PD42. -/
theorem test_fec2_page : pageDomain 0x0D2 = 42 := by decide +kernel

/-- Chapter 2, R44: LC45's data memory starts at 0x0011_05D0_0000; on this die PC50 backs it. -/
theorem test_lc45_window : physOf s0 45 = some 50 ∧ coreWindow s0 50 = 0x001105D00000 := by decide +kernel

/-- MEM_CFG: ECC on, BANK_HASH 1, 4 GiB a channel, one rank, order 0. -/
def memS : State := setReg s0 0x0E0 0x100 0x80100020

/-- Chapter 14, R641, R642: the worked address 0x0000_1234_5678. -/
theorem test_dram_address : dramChan memS 0x12345678 = (3, 19088760) ∧ dramBank memS 19088760 = (0, 11, 621) := by
  decide +kernel

/-- A vector of I16 pairs with the real parts given. -/
def reals (xs : List Nat) : Vec := vOfElems 3 xs

/-- Chapter 9, R473: the taps of cycles 8 and 9 add 2,000 × 4,096 and 17,000 × 4,096, 3,000 × 4,096 and 18,000 × 4,096. -/
theorem test_ftap :
    ((ftapAdds (reals ((List.range 16).map fun k => 1000 * (k + 2))) (reals [16384, 8192, 4096, 4096]) 2 false false)[0]?,
      (ftapAdds (reals ((List.range 16).map fun k => 1000 * (k + 2))) (reals [16384, 8192, 4096, 4096]) 2 false false)[30]?) =
        (some 8192000, some 69632000) ∧
    (ftapAdds (reals ((List.range 16).map fun k => 1000 * (k + 3))) (reals [16384, 8192, 4096, 4096]) 3 false false)[30]? =
      some 73728000 := by decide +kernel

/-- R473: after a tap the delay line has moved one sample. -/
theorem test_ftap_moves :
    ftapMove (reals ((List.range 16).map fun k => 1000 * k)) (reals ((List.range 16).map fun k => 1000 * (k + 16))) =
    (reals ((List.range 16).map fun k => 1000 * (k + 1)), reals ((List.range 15).map fun k => 1000 * (k + 17))) := by
  decide +kernel

/-- Chapter 5, R261: the QPSK element, z = 0.52 + 0.44j, effective noise 0.05, LLR_SCALE 2.0: +59 and +50. -/
theorem test_llrs : (llrs 1 0 ⟨52 / 100, 44 / 100⟩ (5 / 100)).map (satLlr 0x20) = [(59, false), (50, false)] := by
  decide +kernel

/-- Chapter 8, the worked example after R402: 0.549° between the passes, so chain RXS77's candidates do not agree; with pass A's
phase they would. -/
theorem test_passes_disagree :
    agrees 491520000 ⟨16712, 619, 0, 25, 0, 0, 0, 0⟩ ⟨16736, 719, 0, 28, 0, 0, 0, 0⟩ = false ∧
    agrees 491520000 ⟨16712, 619, 0, 25, 0, 0, 0, 0⟩ ⟨16736, 619, 0, 28, 0, 0, 0, 0⟩ = true := by decide +kernel

/-- Chapter 21, R877–R880: balls of a lane, a DRAM channel, a control block and the supplies. -/
theorem test_balls :
    ballNet 4 64 = .lane "XL" 45 "TXP" ∧ ballNet 59 40 = .dram 12 "CA" 3 ∧ ballNet 19 71 = .control "GPIO" 5 ∧
    ballNet 41 14 = .vddSram ∧ ballNet 40 31 = .vddCore ∧ ballNet 40 14 = .vss := by decide +kernel

end Worked

end Sys2Proof.Tests
end

/-! Soundness of every state that a step answers. -/

namespace Sys2Proof.Machine

/-- What a command leaves of a sound state is sound. -/
theorem exec_sound {i : Instr} {s t : State} (h : Sound s) (e : exec i s = .next t) : Sound t :=
  (exec_to i (To.refl _ s) t e).sound h

/-- A tick of a sound state leaves it sound. -/
theorem idleTick_sound {s : State} (h : Sound s) : Sound (idleTick s) :=
  (tick_to (Nat.or_self _) (To.refl _ s)).sound h

/-- The queue is no part of what is sound. -/
theorem Sound.set_pending {s : State} (h : Sound s) (q : List Instr) : Sound { s with pending := q } :=
  { h with }

/-- Settles O5: a step is a tick or the command at the front, and the frame of each keeps what is sound. -/
theorem stepKeepsSound : Obligations.StepKeepsSound := by
  intro s t h e
  unfold step at e
  split at e
  · cases e
    exact idleTick_sound h
  · exact exec_sound (h.set_pending _) e

/-- Settles O6: of the maps only the registers list an entry after reset, and one key alone rises. -/
theorem resetIsSound : Obligations.ResetIsSound where
  mem := rfl
  hostMem := rfl
  regs := rfl
  cnt := rfl
  memErr := rfl
  holdRd := rfl
  holdWr := rfl
  coreMap := rfl

end Sys2Proof.Machine

/-! Accesses that reach their page: RC registers, and the halves of a pair. -/

namespace Sys2Proof.Machine

/-! ### The register map -/

/-- Storing a register leaves every other register of the map as it reads. -/
theorem getRegI_setRegI_other (s : State) {p off : Nat} (q : Fin 1024) (o : Fin 4096) {i j : Nat} (v : Word) (hp : p < 1024)
    (ho : off < 4096) (h : (q.val, o.val, j) ≠ (p, off, i)) : getRegI (setRegI s p off i v) q o j = getRegI s q o j := by
  refine getRegI_setRegI_ne _ _ _ _ _ _ _ _ fun hk => h ?_
  obtain ⟨rfl, rfl, rfl⟩ := rkey_inj q.isLt o.isLt hp ho hk
  rfl

/-- A register whose fields are RW takes the bits written (R12). -/
theorem storeReg_rw {p off : Nat} {d : RegDef} (h : findReg p off = some d) (ha : d.acc = .rw) (hb : d.acc2 = .ro) (i : Nat)
    (v : Word) (s : State) :
    storeReg p off i v s = setRegI s p off i (getRegI s p off i &&& ~~~w32 d.mask ||| v &&& w32 d.mask) := by
  simp only [storeReg, h, applyDef, ha, hb, applyAcc]

/-- Under a mask of 32 bits a word is taken whole. -/
theorem fullMask_takes (old v : Word) : old &&& ~~~w32 0xFFFFFFFF ||| v &&& w32 0xFFFFFFFF = v := by
  have hm : w32 0xFFFFFFFF = BitVec.allOnes 32 := rfl
  rw [hm, BitVec.not_allOnes, BitVec.and_zero, BitVec.and_allOnes, BitVec.zero_or]

/-- The header's lines stand below 0x100. -/
theorem findReg_header {p off : Nat} (hk : (pageKind p).isSome) (hp : p < 0x200) (ho : off < 0x100) (hm : off ≠ 0x0C) :
    findReg p off = regsHdr.find? (·.covers off) := by
  obtain ⟨k, hk⟩ := Option.isSome_iff_exists.mp hk
  simp [findReg, hk, hp, ho, hm]

/-- The block's own lines stand from 0x100 on. -/
theorem findReg_block {p off : Nat} {k : Kind} (hk : pageKind p = some k) (ho : 0x100 ≤ off) :
    findReg p off = (kindRegs k).find? (·.covers off) := by
  have hm : off ≠ 0x0C := by omega
  simp [findReg, hk, hm, Nat.not_lt.mpr ho]

/-! ### Accesses that reach their page -/

/-- A write that reaches its page is the page's. -/
theorem regWriteSt_of_reaches {s : State} {a : Acc} {p : Nat} (hr : reaches s a p) (hk : (pageKind p).isSome) (off : Nat)
    (v : Word) : regWriteSt a p off v s = pageWrite a p off v s := by
  obtain ⟨hg, ho⟩ := hr
  simp [regWriteSt, toPage, onPage, hg, ho, Option.isSome_iff_ne_none.mp hk]

/-- A read that reaches its page is the page's, and its answer goes to the reader. -/
theorem regReadSt_of_reaches {s : State} {a : Acc} {p : Nat} (hr : reaches s a p) (hk : (pageKind p).isSome) (off : Nat) :
    regReadSt a p off s = answer a (pageRead a p off s).1 (pageRead a p off s).2 := by
  obtain ⟨hg, ho⟩ := hr
  simp [regReadSt, regRead, hg, ho, Option.isSome_iff_ne_none.mp hk]

/-- A read of a register that is no half of a pair, on a page other than TIME: what it shows, and the clear (R12). -/
theorem pageRead_single {p off : Nat} (ht : p ≠ 0x003) (hl : isLo p off = false) (hh : isHi p off = false) (a : Acc) (s : State) :
    pageRead a p off s = (viewReg s p off, clearRc p off s) := by
  simp [pageRead, ht, hl, hh]

/-- A read of a _LO register holds the _HI for the reader's path (R73). -/
theorem pageRead_lo {p off : Nat} (ht : off < 0x100) (hl : isLo p off = true) (a : Acc) (s : State) :
    pageRead a p off s = (viewReg s p off, setHold s (holdRdKey a p) (viewReg s p (off + 4))) := by
  unfold pageRead
  rw [if_neg (by omega), if_neg (by omega), if_neg (by omega), if_pos hl]

/-- A _LO that a path holds is taken from it (R77). -/
theorem takeLo_held {s : State} {a : Acc} {p off : Nat} {lo : Word} (h : kget none s.holdWr (holdKey a p off) = some lo) :
    takeLo s a p off = (some lo, { s with holdWr := kset none s.holdWr (holdKey a p off) none }) := by
  rw [takeLo, h]

/-- A path that holds no _LO gives none (R78). -/
theorem takeLo_free {s : State} {a : Acc} {p off : Nat} (h : kget none s.holdWr (holdKey a p off) = none) :
    takeLo s a p off = (none, s) := by
  rw [takeLo, h]

/-- A header register shows what the header says. -/
theorem viewReg_header {p off : Nat} {d : RegDef} (hk : (pageKind p).isSome) (hd : findReg p off = some d) (ha : d.acc ≠ .wo)
    (hp : p < 0x200) (ho : off < 0x100) (s : State) : viewReg s p off = viewHeader s p off := by
  obtain ⟨k, hk⟩ := Option.isSome_iff_exists.mp hk
  unfold viewReg
  rw [hk, hd]
  exact (if_neg ha).trans (if_pos ⟨hp, ho⟩)

/-- With no increment in its cycle a read of an RC register only clears it (R14). -/
theorem rcCoincide_of_noInc {hw : Coincide} (h : hw.inc = false) (p off : Nat) (s : State) : rcCoincide p off hw s = s := by
  unfold rcCoincide
  split
  · rw [h, if_neg (by simp)]
  · rfl

/-! ### CRC_CNT of a converter-lane page (R224) -/

section CrcCnt

variable {p : Nat} (hk : pageKind p = some .xlane)
include hk

theorem findReg_crcCnt : findReg p 0x120 = some (reg 0x120 1 0 0 .rc 0xFFFFFFFF) := by
  rw [findReg_block hk (by decide)]
  decide

/-- CRC_CNT is read under no window. -/
theorem rcIndex_crcCnt (s : State) : rcIndex s p 0x120 = some 0 := by
  unfold rcIndex
  rw [hk]

theorem clearRc_crcCnt (s : State) : clearRc p 0x120 s = setReg s p 0x120 0 := by
  unfold clearRc
  rw [findReg_crcCnt hk, rcIndex_crcCnt hk]
  exact if_pos rfl

theorem viewReg_crcCnt (s : State) : viewReg s p 0x120 = getReg s p 0x120 := by
  unfold viewReg
  rw [hk, findReg_crcCnt hk]
  simp [reg]

/-- The pairs of a converter-lane page are those of the header. -/
theorem isLo_xlane {off : Nat} (ho : 0x100 ≤ off) : isLo p off = false := by
  have : off ≠ 0x24 := by omega
  unfold isLo
  rw [hk]
  simp [kindLows, this]

/-- An increment in the cycle of a read of CRC_CNT counts on what the read leaves (R14). -/
theorem rcCoincide_crcCnt {hw : Coincide} (hi : hw.inc = true) {s : State} (ho : pageOn s p = true) :
    rcCoincide p 0x120 hw s = setReg s p 0x120 (w32 (satAdd 0xFFFFFFFF (getReg s p 0x120).toNat 1)) := by
  have hc : rcCounts p 0x120 = true := by
    unfold rcCounts
    rw [hk]
  unfold rcCoincide
  rw [findReg_crcCnt hk, rcIndex_crcCnt hk]
  exact if_pos ⟨rfl, hi, ho, hc⟩

end CrcCnt

/-- A read of CRC_CNT answers it and clears it (R12); the increment of its cycle comes after. -/
theorem exec_rcRead_crcCnt {p : Fin 1024} (hk : pageKind p = some .xlane) {s : State} {a : Acc} (hr : reaches s a p)
    (hw : Coincide) :
    exec (.rcRead a p ⟨0x48, hw⟩) s =
      .next (rcCoincide p 0x120 hw (answer a (getReg s p 0x120) (setReg s p 0x120 0))) := by
  have ht : p.val ≠ 0x003 := fun h => absurd hk (by rw [h]; decide)
  have hl : isLo p 0x120 = false := isLo_xlane hk (by decide)
  have hh : isHi p 0x120 = false := by rw [isHi, isLo_xlane hk (by decide), Bool.and_false]
  show Host.Outcome.next (rcCoincide p 0x120 hw (regReadSt a p 0x120 s)) = _
  rw [regReadSt_of_reaches hr (by rw [hk]; rfl), pageRead_single ht hl hh, viewReg_crcCnt hk, clearRc_crcCnt hk]

/-- An increment in the cycle of a read of CRC_CNT leaves it at 1 (R14). -/
theorem getReg_crcCnt_after_inc {p : Nat} (hk : pageKind p = some .xlane) {hw : Coincide} (hi : hw.inc = true) {s : State}
    (ho : pageOn s p = true) (hu : kup s.regs = true) (a : Acc) (x : Word) :
    getReg (rcCoincide p 0x120 hw (answer a x (setReg s p 0x120 0))) p 0x120 = 1 := by
  have h0 : getReg (answer a x (setReg s p 0x120 0)) p 0x120 = 0 := getReg_setReg s p 0x120 0 hu
  have hu' : kup (answer a x (setReg s p 0x120 0)).regs = true := kup_setRegI s p 0x120 0 0 hu
  rw [rcCoincide_crcCnt hk hi (by exact ho), getReg_setReg _ _ _ _ hu', h0]
  decide

/-! ### ERR_ADDR of a header (R61, R73) -/

section ErrAddr

variable {p : Nat} (hk : (pageKind p).isSome) (hp : p < 0x200)
include hk hp

theorem viewReg_errAddrLo (s : State) : viewReg s p 0x24 = getReg s p 0x24 := by
  have hd : findReg p 0x24 = some (reg 0x24 1 0 0 .ro 0xFFFFFFFF) := by
    rw [findReg_header hk hp (by decide) (by decide)]
    decide
  rw [viewReg_header hk hd (by decide) hp (by decide)]
  simp [viewHeader]

theorem viewReg_errAddrHi (s : State) : viewReg s p 0x28 = getReg s p 0x28 := by
  have hd : findReg p 0x28 = some (reg 0x28 1 0 0 .ro 0xFFFF) := by
    rw [findReg_header hk hp (by decide) (by decide)]
    decide
  rw [viewReg_header hk hd (by decide) hp (by decide)]
  simp [viewHeader]

theorem isLo_errAddrLo : isLo p 0x24 = true := by
  obtain ⟨k, hk⟩ := Option.isSome_iff_exists.mp hk
  simp [isLo, hk, hp]

end ErrAddr

/-! ### MB_ARG0 of the host's mailbox (R854) -/

theorem findReg_mbArg0Lo : findReg 0x00C 0x104 = some (reg 0x104 2 0x40 0 .rw 0xFFFFFFFF) := by decide

theorem findReg_mbArg0Hi : findReg 0x00C 0x108 = some (reg 0x108 2 0x40 0 .rw 0xFFFF) := by decide

/-- The page holds a write of MB_ARG0_LO (R77). -/
theorem pageWrite_mbArg0Lo (a : Acc) (v : Word) (s : State) : pageWrite a 0x00C 0x104 v s = holdLo s a 0x00C 0x104 v := rfl

/-- A write of MB_ARG0_HI takes the _LO that its path holds, and both are stored; the _HI alone where it holds none (R78). -/
theorem pageWrite_mbArg0Hi (a : Acc) (v : Word) (s : State) :
    pageWrite a 0x00C 0x108 v s = writePair 0x00C 0x104 (takeLo s a 0x00C 0x104).1 v (takeLo s a 0x00C 0x104).2 := rfl

/-- MB_ARG0_LO takes all 32 bits. -/
theorem storeReg_mbArg0Lo (v : Word) (s : State) : storeReg 0x00C 0x104 0 v s = setReg s 0x00C 0x104 v := by
  rw [storeReg_rw findReg_mbArg0Lo rfl rfl]
  exact congrArg (setReg s 0x00C 0x104) (fullMask_takes _ v)

/-- MB_ARG0_HI takes the low 16 bits. -/
theorem storeReg_mbArg0Hi (v : Word) (s : State) :
    storeReg 0x00C 0x108 0 v s = setReg s 0x00C 0x108 (getReg s 0x00C 0x108 &&& 0xFFFF0000 ||| v &&& 0xFFFF) :=
  storeReg_rw findReg_mbArg0Hi rfl rfl _ _ _

/-- MB_ARG0 takes both halves (R77). -/
theorem writePair_mbArg0_both (lo hi : Word) (s : State) :
    writePair 0x00C 0x104 (some lo) hi s =
      setReg (setReg s 0x00C 0x104 lo) 0x00C 0x108 (getReg s 0x00C 0x108 &&& 0xFFFF0000 ||| hi &&& 0xFFFF) := by
  show storeReg 0x00C 0x108 0 hi (storeReg 0x00C 0x104 0 lo s) = _
  rw [storeReg_mbArg0Lo, storeReg_mbArg0Hi, getReg_setReg_off _ _ _ _ _ (by decide)]

/-- MB_ARG0 takes the _HI alone (R78). -/
theorem writePair_mbArg0_hi (hi : Word) (s : State) :
    writePair 0x00C 0x104 none hi s =
      setReg s 0x00C 0x108 (getReg s 0x00C 0x108 &&& 0xFFFF0000 ||| hi &&& 0xFFFF) :=
  storeReg_mbArg0Hi hi s

/-! ### The commands -/

/-- A read of ERR_ADDR_LO answers it and holds ERR_ADDR_HI for the reader's path (R73). -/
theorem exec_loRead_errAddr {p : Fin 1024} (hk : (pageKind p).isSome) (hp : p.val < 0x200) {s : State} {a : Acc}
    (hr : reaches s a p) :
    exec (.loRead a p 9) s = .next (answer a (getReg s p 0x24) (setHold s (holdRdKey a p) (getReg s p 0x28))) := by
  show Host.Outcome.next (regReadSt a p 0x24 s) = _
  rw [regReadSt_of_reaches hr hk, pageRead_lo (by decide) (isLo_errAddrLo hk hp), viewReg_errAddrLo hk hp,
    viewReg_errAddrHi hk hp]

/-- A write of MB_ARG0_LO is held for its path (R77). -/
theorem exec_loWrite_mbArg0 {s : State} {a : Acc} (hr : reaches s a 0x00C) (v : Word) :
    exec (.loWrite a 0x00C 0x41 v) s = .next (holdLo s a 0x00C 0x104 v) := by
  show Host.Outcome.next (regWriteSt a 0x00C 0x104 v s) = _
  rw [regWriteSt_of_reaches hr rfl, pageWrite_mbArg0Lo]

/-- A write of MB_ARG0_HI stores it after the half that its path holds (R77, R78). -/
theorem exec_hiWrite_mbArg0 {s : State} {a : Acc} (hr : reaches s a 0x00C) (v : Word) :
    exec (.hiWrite a 0x00C 0x42 v) s =
      .next (writePair 0x00C 0x104 (takeLo s a 0x00C 0x104).1 v (takeLo s a 0x00C 0x104).2) := by
  show Host.Outcome.next (regWriteSt a 0x00C 0x108 v s) = _
  rw [regWriteSt_of_reaches hr rfl, pageWrite_mbArg0Hi]

/-- Where a path holds a _LO, a write of MB_ARG0_HI commits both halves (R77). -/
theorem exec_hiWrite_mbArg0_held {s : State} {a : Acc} (hr : reaches s a 0x00C) (v : Word) {lo : Word}
    (hh : kget none s.holdWr (holdKey a 0x00C 0x104) = some lo) :
    exec (.hiWrite a 0x00C 0x42 v) s =
      .next (setReg (setReg { s with holdWr := kset none s.holdWr (holdKey a 0x00C 0x104) none } 0x00C 0x104 lo)
        0x00C 0x108 (getReg s 0x00C 0x108 &&& 0xFFFF0000 ||| v &&& 0xFFFF)) := by
  rw [exec_hiWrite_mbArg0 hr, takeLo_held hh, writePair_mbArg0_both]
  rfl

/-- Where a path holds no _LO, a write of MB_ARG0_HI stores the _HI alone (R78). -/
theorem exec_hiWrite_mbArg0_free {s : State} {a : Acc} (hr : reaches s a 0x00C) (v : Word)
    (hh : kget none s.holdWr (holdKey a 0x00C 0x104) = none) :
    exec (.hiWrite a 0x00C 0x42 v) s =
      .next (setReg s 0x00C 0x108 (getReg s 0x00C 0x108 &&& 0xFFFF0000 ||| v &&& 0xFFFF)) := by
  rw [exec_hiWrite_mbArg0 hr, takeLo_free hh, writePair_mbArg0_hi]

/-- Settles O13: each access reaches its page, and the page's own rule for CRC_CNT, ERR_ADDR or MB_ARG0 gives the state. -/
theorem pairedAndClearingAccessesComplete : Obligations.PairedAndClearingAccessesComplete := by
  intro a v s
  refine ⟨fun p hw hk hr => ⟨fun hi => ?clears, fun hi hu => ⟨_, exec_rcRead_crcCnt hk hr hw, ?regsOnly,
      getReg_crcCnt_after_inc hk hi hr.2 hu a _⟩⟩,
    fun p hk hp hr => exec_loRead_errAddr hk hp hr, fun hr => exec_loWrite_mbArg0 hr v,
    fun hr lo hh => exec_hiWrite_mbArg0_held hr v hh,
    fun hr hh hu => ⟨_, exec_hiWrite_mbArg0_free hr v hh, rfl, getReg_setReg _ _ _ _ hu, ?others⟩⟩
  case clears => rw [exec_rcRead_crcCnt hk hr, rcCoincide_of_noInc hi]
  case regsOnly =>
    rw [rcCoincide_crcCnt hk hi (by exact hr.2)]
    rfl
  case others => exact fun q off i hne => getRegI_setRegI_other s q off _ (by decide) (by decide) hne

end Sys2Proof.Machine

/-! REG_WRITE at an RO register of the spare-lane pages. -/

namespace Sys2Proof.Machine

/-! ### A write of SUB_STS acts as a write of LN_CTRL

Among the plain registers of a spare-lane page is SUB_STS (0x108, RO, R225). `writeXspare` hands every offset but 0x100 and 0x104
to `writeLane`, which takes the lane's register from `(off - 0x200) % 0x40`; below 0x200 the difference is 0, the register
LN_CTRL. -/

/-- After reset, with PD45, the domain of the converter lanes, ON. -/
def lanesOn : State :=
  { State.reset with pwr := { State.reset.pwr with doms := [(45, { PdRec.init with cur := .on })] } }

/-- A supervisor's access. -/
def supervisorAcc : Acc := ⟨.sv 0, false⟩

/-- The hardware does nothing in the cycle. -/
def quiet : Coincide := ⟨0, false, none⟩

/-- A supervisor's access reaches the page of the first spare lane. -/
theorem reaches_xspare : reaches lanesOn supervisorAcc 0x120 := ⟨rfl, by decide +kernel⟩

/-- The model's write of 0 to SUB_STS: LN_CTRL of the spare lane goes from its reset value 0x30000000 to 0. -/
theorem lnCtrl_after_subSts_write :
    getReg (coincide 0x120 0x108 quiet (regWriteSt supervisorAcc 0x120 0x108 0 lanesOn)) 0x120 0x200 = 0 := by
  decide +kernel

/-- What the access code RO of SUB_STS says: LN_CTRL stays at its reset value. -/
theorem lnCtrl_after_subSts_store :
    getReg (coincide 0x120 0x108 quiet (storeReg 0x120 0x108 0 0 lanesOn)) 0x120 0x200 = 0x30000000 := by
  decide +kernel

/-- Refutes O11: a supervisor's write of 0 to SUB_STS of page 0x120, a plain RO register, clears LN_CTRL of the spare lane. -/
theorem not_regWriteFollowsAccessCodes : ¬ Obligations.RegWriteFollowsAccessCodes := by
  intro h
  obtain ⟨hplain, -⟩ := h supervisorAcc 0x120 0 quiet lanesOn reaches_xspare
  obtain ⟨hexec, -⟩ := hplain .xspare 0x42 (by decide) (by decide) (by decide) (by decide)
  have hstate : coincide 0x120 0x108 quiet (regWriteSt supervisorAcc 0x120 0x108 0 lanesOn) =
      coincide 0x120 0x108 quiet (storeReg 0x120 0x108 0 0 lanesOn) := Host.Outcome.next.inj hexec
  have hreg := congrArg (fun t => getReg t 0x120 0x200) hstate
  simp only [lnCtrl_after_subSts_write, lnCtrl_after_subSts_store] at hreg
  exact absurd hreg (by decide)

end Sys2Proof.Machine

/-! The PHY API: a message on the path of its PHY, what goes out to the L2, and the stop that is forced. -/

namespace Sys2Proof.Machine

/-! ### Messages of the PHY API (R29, R721, R722) -/

/-- A message on the path that the configuration set gives its PHY acts, in a state that takes it. -/
theorem phyMessage_of_path {s : State} {phy : Nat} {pcie : Bool} {c : CfgRes} (hc : s.boot.cfg = some c)
    (hp : c.set.pcie[phy]? = some pcie) {ok : PhySt → Bool} (ho : ok (phyOf s phy) = true) (act : State → State) :
    phyMessage phy pcie ok act s = act s := by
  simp [phyMessage, hc, hp, ho]

section SlotRequest

variable {s : State} {c : CfgRes} (hc : s.boot.cfg = some c)
include hc

/-- A slot request in time is held. -/
theorem slotRequest_of_inTime {start : Int} (ht : c.set.accept ≤ start - devNs s) (kind phy : Nat) :
    slotRequest kind phy start s = setPhy s phy { phyOf s phy with reqs := (phyOf s phy).reqs ++ [(kind, start)] } := by
  rw [slotRequest, hc]
  exact if_neg (Int.not_lt.mpr ht)

/-- A slot request that comes after the accept advance is refused. -/
theorem slotRequest_of_late {start : Int} (ht : start - devNs s < c.set.accept) (kind phy : Nat) :
    slotRequest kind phy start s = fapiSend (.errorIndication phy .invalidSfn) s := by
  rw [slotRequest, hc]
  exact if_pos ht

/-- The slot of a running PHY is indicated from its advance to its start. -/
theorem exec_slotIndication_inAdvance {phy : BitVec 8} (hst : (phyOf s phy.toNat).st = 2) {start : Int}
    (hadv : start - c.set.indicate ≤ devNs s) (hstart : devNs s < start) :
    exec (.slotIndication phy start) s = .next (fapiSend (.slotIndication phy.toNat start) s) := by
  show execSlotIndication phy start s = _
  rw [execSlotIndication, hc]
  exact congrArg Host.Outcome.next (if_pos ⟨hst, hadv, hstart⟩)

end SlotRequest

/-! ### What goes out to the L2 (R29, R723, R725) -/

/-- The PHY that a message speaks of. -/
def FapiOut.phy (m : FapiOut) : Nat := m.parts.2.1

section FapiSend

variable {m : FapiOut} {s : State} {c : CfgRes} (hc : s.boot.cfg = some c)
include hc

/-- By PCIe a message is noted and its entry queued for a D2H ring. -/
theorem fapiSend_viaPcie (hp : c.set.pcie[m.phy]? = some true) :
    fapiSend m s = d2hSend ⟨Config.fapiRing m.phy % 8, 2, 0 :: Config.fapiBody m.parts.1 m.phy m.parts.2.2⟩
      { s with fapi := s.fapi ++ [⟨m, true, 0⟩] } := by
  have hpath : (s.boot.cfg.bind fun c => c.set.pcie[m.phy]?).getD false = true := by rw [hc]; simp [hp]
  exact if_pos hpath

/-- By the network a message is noted with the SEQ of its PHY, and the SEQ moves on. -/
theorem fapiSend_viaNetwork (hp : c.set.pcie[m.phy]? = some false) :
    fapiSend m s = setPhy { s with fapi := s.fapi ++ [⟨m, false, (phyOf s m.phy).txSeq⟩] } m.phy
      { phyOf s m.phy with txSeq := ((phyOf s m.phy).txSeq + 1) % 65536 } := by
  have hpath : ¬ (s.boot.cfg.bind fun c => c.set.pcie[m.phy]?).getD false = true := by rw [hc]; simp [hp]
  exact if_neg hpath

variable {path : Bool} (hp : c.set.pcie[m.phy]? = some path)
include hp

/-- What a message adds to those that have gone out. -/
theorem fapiSend_fapi :
    (fapiSend m s).fapi = s.fapi ++ [⟨m, path, if path then 0 else (phyOf s m.phy).txSeq⟩] := by
  cases path with
  | true =>
    rw [fapiSend_viaPcie hc hp]
    exact (d2hSend_to (Nat.or_self _) (To.refl _ _)).fapi rfl
  | false => rw [fapiSend_viaNetwork hc hp]; rfl

/-- A message leaves a PHY that is not idle in its state. -/
theorem phyOf_fapiSend_st (h : (phyOf s m.phy).st ≠ 0) : (phyOf (fapiSend m s) m.phy).st = (phyOf s m.phy).st := by
  cases path with
  | true =>
    have hphys := (fapiSend_viaPcie hc hp).symm ▸ (d2hSend_to (Nat.or_self _) (To.refl _ _)).phys rfl
    rw [phyOf, hphys]
    rfl
  | false =>
    rw [fapiSend_viaNetwork hc hp, phyOf, setPhy, kget_kset_of_ne]
    exact fun hi => h (congrArg PhySt.st hi)

end FapiSend

/-! ### The end of a controlled stop (R848) -/

/-- The firmware's report of a stop. -/
def stopReport (s : State) (phy : Nat) (forced : Bool) : FapiOut :=
  if (phyOf s phy).lnx then .lnxStopResponse phy forced else .stopIndication phy

/-- A report of a stop speaks of the PHY that stops. -/
theorem stopReport_phy (s : State) (phy : Nat) (forced : Bool) : (stopReport s phy forced).phy = phy := by
  unfold stopReport
  split <;> rfl

/-- The PHY configured, with no request held. -/
def phyToConfigured (s : State) (phy : Nat) : State := setPhy s phy { phyOf s phy with st := 1, lnx := false, reqs := [] }

/-- A stop ends with the PHY configured, and with its report. -/
theorem phyStopped_eq (phy : Nat) (forced : Bool) (s : State) :
    phyStopped phy forced s = fapiSend (stopReport s phy forced) (phyToConfigured s phy) := rfl

/-- The record of a PHY that has become configured. -/
theorem phyOf_phyToConfigured (s : State) (phy : Nat) :
    phyOf (phyToConfigured s phy) phy = { phyOf s phy with st := 1, lnx := false, reqs := [] } :=
  kget_kset_of_ne _ _ _ _ fun hi => absurd (congrArg PhySt.st hi) Nat.one_ne_zero

/-- The end of a stop leaves the dispatcher. -/
theorem phyStopped_disp (phy : Nat) (forced : Bool) (s : State) : (phyStopped phy forced s).disp = s.disp := by
  rw [phyStopped_eq]
  exact (fapiSend_to (Nat.or_self _) (To.refl _ _)).disp rfl

section PhyStopped

variable {s : State} {c : CfgRes} {phy : Nat} {path : Bool} (hc : s.boot.cfg = some c) (hp : c.set.pcie[phy]? = some path)
include hc hp

theorem phyOf_phyStopped_st (forced : Bool) : (phyOf (phyStopped phy forced s) phy).st = 1 := by
  have hm := stopReport_phy s phy forced
  have hst : (phyOf (phyToConfigured s phy) phy).st = 1 := by rw [phyOf_phyToConfigured]
  have hsend := phyOf_fapiSend_st (m := stopReport s phy forced) (s := phyToConfigured s phy) hc (by rw [hm, hp])
  rw [hm, hst] at hsend
  exact hsend Nat.one_ne_zero

theorem phyStopped_fapi (forced : Bool) :
    (phyStopped phy forced s).fapi =
      s.fapi ++ [⟨stopReport s phy forced, path, if path then 0 else (phyOf s phy).txSeq⟩] := by
  have hm := stopReport_phy s phy forced
  rw [phyStopped_eq, fapiSend_fapi (s := phyToConfigured s phy) hc (by rw [hm, hp]), hm, phyOf_phyToConfigured]
  rfl

end PhyStopped

/-! ### A soft reset keeps the configuration set

`softResetSt_to` leaves BootSt free for the mailboxes alone; every other block's drop keeps it
whole. -/

/-- Where the frame keeps BootSt, it keeps the configuration set. -/
theorem To.cfg {T : Nat} {s t : State} (h : To T s t) (hT : T.testBit 43 = false) : t.boot.cfg = s.boot.cfg :=
  congrArg BootSt.cfg (h.boot hT)

/-- What a block ends and drops is not the configuration set. -/
theorem blockDrop_cfg (p : Nat) (s : State) : (blockDrop p s).boot.cfg = s.boot.cfg := by
  have failing (l : List (Nat × FireRec)) (u : State) :=
    (To.foldl (g := fun s x => failFire s p x.2 0x11) l (fun _ _ h => failFire_to (Nat.or_self _) h) (To.refl _ u)).cfg rfl
  have laneResets (l : List Nat) (u : State) :=
    (To.foldl (g := fun s l => { s with lanes := kset LaneSt.init s.lanes (p * 4 + l) LaneSt.init }) l
      (fun _ _ h => To.set_lanes (Nat.or_self _) h) (To.refl _ u)).cfg rfl
  refine (failing _ _).trans ((laneResets _ _).trans ?_)
  split
  · exact (evtDrop_to (Nat.or_self _) (To.refl _ s)).cfg rfl
  · rfl
  · exact (timeDrop_to (Nat.or_self _) (To.refl _ s)).cfg rfl
  · rfl
  · exact (pcieDrop_to (Nat.or_self _) (To.refl _ s)).cfg rfl
  · exact (pktDrop_to (Nat.or_self _) (To.refl _ s)).cfg rfl
  · exact (tmDrop_to (Nat.or_self _) (To.refl _ s)).cfg rfl
  · rfl
  · exact (prismDrop_to (Nat.or_self _) (To.refl _ s)).cfg rfl
  · rfl
  · exact (clusterDrop_to (Nat.or_self _) (To.refl _ s)).cfg rfl
  · exact (mxDrop_to (Nat.or_self _) (To.refl _ s)).cfg rfl
  · exact (coreDrop_to (Nat.or_self _) (To.refl _ s)).cfg rfl
  · exact (coreDrop_to (Nat.or_self _) (To.refl _ s)).cfg rfl
  · exact ((calAbortAll_to (Nat.or_self _) (To.refl _ _)).cfg rfl).trans
      ((dfeDrop_to (Nat.or_self _) (To.refl _ s)).cfg rfl)
  · exact (ofdmDrop_to (Nat.or_self _) (To.refl _ s)).cfg rfl
  · exact (fecDrop_to (Nat.or_self _) (To.refl _ s)).cfg rfl
  · exact (dmaDrop_to (Nat.or_self _) (To.refl _ s)).cfg rfl
  · exact (To.ite (dramDrop_to (Nat.or_self _) (To.refl _ s)) (To.refl _ s)).cfg rfl
  · exact (To.ite (modMemc_to (Nat.or_self _) (To.refl _ s)) (To.refl _ s)).cfg rfl
  · exact (rtrDrop_to (Nat.or_self _) (To.refl _ s)).cfg rfl
  · -- With the lane's page as a literal, comparing the two states would evaluate it.
    generalize p - 0x100 = q
    exact (linkDrop_to (Nat.or_self _) (To.refl _ s)).cfg rfl
  · exact (subDrop_to (Nat.or_self _) (To.refl _ s)).cfg rfl
  · rfl
  · rfl

theorem softSteps_cfg (p : Nat) (s : State) : (softSteps p s).boot.cfg = s.boot.cfg := by
  have hquell : ∀ u, (dmaQuell (p - 0x0D8) u).boot.cfg = u.boot.cfg := fun u =>
    (dmaQuell_to (Nat.or_self _) (To.refl _ u)).cfg rfl
  have hreset : ∀ u, (resetRegs p (softKeeps p) (blockDrop p u)).boot.cfg = u.boot.cfg := blockDrop_cfg p
  have hctrl : ∀ u, (setReg (setReg u p 0x08 2) p 0x10 4).boot.cfg = u.boot.cfg := fun _ => rfl
  unfold softSteps
  rw [hctrl]
  split <;> split <;> simp only [hquell, hreset]

theorem softResetSt_cfg (p : Nat) (s : State) : (softResetSt p s).boot.cfg = s.boot.cfg := by
  unfold softResetSt
  split
  · rfl
  · exact softSteps_cfg p s

/-! ### A stop that hangs is forced (R849, R126) -/

/-- The pages of the units that hold a fire of the carrier. -/
def heldPages (s : State) (phy : Nat) : List Nat :=
  stopTimeoutSt.domainOrder
    ((s.disp.fires.filter fun f => (phyInsts s phy).contains f.inst).filterMap fun f => memberPage s f.pool f.member)

/-- FORCE of one row of the dispatcher: its entries go, and its fires no longer count (R126). -/
def forceInst (s : State) (i : Nat) : State :=
  setInst (modDisp s fun d => { d with
    entries := d.entries.filter fun e => !decide (e.inst = i)
    fires := d.fires.map fun f => if f.inst = i then { f with counted := false } else f }) i InstRec.init

/-- The soft resets and the FORCE of a stop that hangs. -/
def forceStop (s : State) (phy : Nat) : State :=
  (phyInsts s phy).foldl forceInst ((heldPages s phy).foldl (fun s p => softResetSt p s) s)

/-- A stop that has hung for 10 ms is forced and ends with status FORCED. -/
theorem stopTimeoutSt_of_hung {s : State} {phy : Nat} (hst : (phyOf s phy).st = 3)
    (ht : (phyOf s phy).offAt + 10000000 ≤ devNs s) : stopTimeoutSt phy s = phyStopped phy true (forceStop s phy) :=
  if_neg (not_or.mpr ⟨Classical.not_not.mpr hst, Int.not_lt.mpr ht⟩)

/-- A fire after FORCE of the rows `is`. -/
def uncountIn (is : List Nat) (f : OutFire) : OutFire := if f.inst ∈ is then { f with counted := false } else f

@[simp] theorem uncountIn_inst (is : List Nat) (f : OutFire) : (uncountIn is f).inst = f.inst := by
  unfold uncountIn
  split <;> rfl

theorem uncountIn_cons (i : Nat) (is : List Nat) (f : OutFire) : uncountIn is (uncountIn [i] f) = uncountIn (i :: is) f := by
  by_cases hi : f.inst = i <;> by_cases his : f.inst ∈ is <;> simp [uncountIn, hi, his]

theorem uncountIn_counted {is : List Nat} {f : OutFire} (h : f.inst ∈ is) : (uncountIn is f).counted = false := by
  rw [uncountIn, if_pos h]

theorem uncountIn_singleton (i : Nat) (f : OutFire) :
    uncountIn [i] f = if f.inst = i then { f with counted := false } else f := by
  simp [uncountIn]

theorem forceInst_fires (s : State) (i : Nat) : (forceInst s i).disp.fires = s.disp.fires.map (uncountIn [i]) := by
  simp only [funext (uncountIn_singleton i)]
  rfl

theorem foldl_forceInst_fires (is : List Nat) (s : State) :
    (is.foldl forceInst s).disp.fires = s.disp.fires.map (uncountIn is) := by
  induction is generalizing s with
  | nil => exact (List.map_id _).symm
  | cons i is ih =>
    rw [List.foldl_cons, ih, forceInst_fires, List.map_map]
    exact List.map_congr_left fun f _ => uncountIn_cons i is f

/-- No fire of the carrier counts after FORCE. -/
theorem forceStop_uncounts {s : State} {phy : Nat} {f : OutFire} (hf : f ∈ (forceStop s phy).disp.fires)
    (hi : f.inst ∈ phyInsts s phy) : f.counted = false := by
  rw [forceStop, foldl_forceInst_fires] at hf
  obtain ⟨g, -, rfl⟩ := List.mem_map.mp hf
  exact uncountIn_counted (by simpa using hi)

/-- The frame of the forced stop is that of a soft reset. -/
theorem forceStop_to (s : State) (phy : Nat) : To 28587297857790 s (forceStop s phy) :=
  To.foldl _ (fun _ _ h => setInst_to rfl (modDisp_to rfl h))
    (To.foldl _ (fun _ _ h => softResetSt_to (Nat.or_self _) h) (To.refl _ s))

theorem forceStop_fapi (s : State) (phy : Nat) : (forceStop s phy).fapi = s.fapi := (forceStop_to s phy).fapi rfl

theorem phyOf_forceStop (s : State) (phy n : Nat) : phyOf (forceStop s phy) n = phyOf s n := by
  rw [phyOf, (forceStop_to s phy).phys rfl]
  rfl

theorem forceStop_cfg (s : State) (phy : Nat) : (forceStop s phy).boot.cfg = s.boot.cfg := by
  have force : ∀ u, ((phyInsts s phy).foldl forceInst u).boot.cfg = u.boot.cfg := fun u =>
    (To.foldl _ (fun _ _ h => setInst_to (Nat.or_self _) (modDisp_to (Nat.or_self _) h)) (To.refl _ u)).cfg rfl
  have resets : ∀ (ps : List Nat) (u : State), (ps.foldl (fun s p => softResetSt p s) u).boot.cfg = u.boot.cfg := by
    intro ps
    induction ps with
    | nil => exact fun _ => rfl
    | cons p ps ih => exact fun u => (ih _).trans (softResetSt_cfg p u)
  exact (force _).trans (resets _ s)

/-- STOP_TIMEOUT of a stop that has hung: the PHY is configured, its stop reported as FORCED, and no fire of the carrier
counts. -/
theorem exec_stopTimeout_of_hung {s : State} {c : CfgRes} {phy : BitVec 8} {pcie : Bool} (hc : s.boot.cfg = some c)
    (hp : c.set.pcie[phy.toNat]? = some pcie) (hst : (phyOf s phy.toNat).st = 3)
    (ht : (phyOf s phy.toNat).offAt + 10000000 ≤ devNs s) :
    ∃ t, exec (.stopTimeout phy) s = .next t ∧ (phyOf t phy.toNat).st = 1 ∧
      t.fapi = s.fapi ++ [⟨stopReport s phy.toNat true, pcie, if pcie then 0 else (phyOf s phy.toNat).txSeq⟩] ∧
      ∀ f ∈ t.disp.fires, f.inst ∈ phyInsts s phy.toNat → f.counted = false := by
  have hc' : (forceStop s phy.toNat).boot.cfg = some c := (forceStop_cfg s _).trans hc
  refine ⟨_, congrArg Host.Outcome.next (stopTimeoutSt_of_hung hst ht), phyOf_phyStopped_st hc' hp true, ?_, ?_⟩
  · rw [phyStopped_fapi hc' hp, forceStop_fapi, stopReport, phyOf_forceStop]
    rfl
  · rw [phyStopped_disp]
    exact fun f hf hi => forceStop_uncounts hf hi

/-- Settles O51: on the path of its PHY, in a state that takes it, each message acts; a stop that hangs is reset, forced and
reported, and neither its soft resets nor FORCE touch the records of the PHYs, the messages or the configuration set. -/
theorem phyApiComplete : Obligations.PhyApiComplete := by
  intro phy pcie s c hc hp
  have acts {ok : PhySt → Bool} (ho : ok (phyOf s phy.toNat) = true) (act : State → State) :=
    congrArg (Host.Outcome.next (φ := Fault) (ρ := Refusal)) (phyMessage_of_path hc hp ho act)
  refine ⟨fun hst => ⟨acts (decide_eq_true hst) _, acts (decide_eq_true hst) _⟩, fun hst => acts (decide_eq_true hst) _,
    fun hst => ?running, acts rfl _, exec_stopTimeout_of_hung hc hp⟩
  case running =>
    have takes (act : State → State) := acts (ok := fun x => decide (x.st = 2)) (decide_eq_true hst) act
    have held {start : Int} (ht : c.set.accept ≤ start - devNs s) (kind : Nat) :=
      (takes (slotRequest kind phy.toNat start)).trans
        (congrArg Host.Outcome.next (slotRequest_of_inTime hc ht kind phy.toNat))
    have late {start : Int} (ht : start - devNs s < c.set.accept) :=
      (takes (slotRequest 0 phy.toNat start)).trans
        (congrArg Host.Outcome.next (slotRequest_of_late hc ht 0 phy.toNat))
    exact ⟨fun off => ⟨takes _, takes _⟩, fun start => ⟨fun ht => ⟨held ht 0, held ht 1, held ht 2, held ht 3⟩, late,
      exec_slotIndication_inAdvance hc hst⟩⟩

end Sys2Proof.Machine

/-! Register pages: the frame of the stores, writes that reach no register, and a disable during the soft reset. -/

namespace Sys2Proof.Machine

/-- Settles O8: each store has its bit in the frame of the command. -/
theorem frameOfStores : Obligations.FrameOfStores := by
  intro i s t e
  have h : To (footprint i) s t := exec_to i (To.refl _ s) t e
  exact ⟨h.regs, h.holdRd, h.holdWr, h.cnt, h.mem, h.memErr, h.hostMem, h.coreMap, h.freeCtr, h.rdOut⟩

/-! ### Writes that reach no register (R45, R48) -/

/-- An access that is turned away leaves every domain as it is. -/
theorem pageOn_offAccess (s : State) (src addr p : Nat) : pageOn (offAccess s src addr) p = pageOn s p := by
  have hpwr : (offAccess s src addr).pwr = s.pwr := (offAccess_to (Nat.or_self _) (To.refl _ s)).pwr rfl
  unfold pageOn pdState pdRec
  rw [hpwr]

/-- Nothing coincides with a write that no page takes. -/
theorem coincide_of_not_taken {p : Nat} {s : State} (h : pageKind p = none ∨ pageOn s p = false) (off : Nat) (hw : Coincide) :
    coincide p off hw s = s := by
  unfold coincide
  rw [if_pos]
  simpa [Option.isNone_iff_eq_none] using h

/-- A write to a page that is not ON is the power controller's (R48). -/
theorem regWriteSt_of_off {s : State} {a : Acc} {p : Nat} (hk : (pageKind p).isSome) (hg : bootGated s a p = false)
    (ho : pageOn s p = false) (off : Nat) (v : Word) :
    regWriteSt a p off v s = offAccess s (initPage s a.who) (regAddr p off) := by
  simp [regWriteSt, toPage, onPage, hg, ho, Option.isSome_iff_ne_none.mp hk]

/-- A write to an index that no page has is the ROOT page's (R45). -/
theorem regWriteSt_of_unmapped {p : Nat} (hk : pageKind p = none) (a : Acc) (off : Nat) (v : Word) (s : State) :
    regWriteSt a p off v s = decodeErr s (initPage s a.who) (regAddr p off) := by
  simp [regWriteSt, toPage, hk]

/-- Settles O12: the write is captured where it is turned away, and nothing coincides with a write that no page takes. -/
theorem regWriteOffAndUnmapped : Obligations.RegWriteOffAndUnmapped := by
  intro a p r v hw s
  have hexec : exec (.regWrite a p r ⟨v, hw⟩) s = .next (coincide p (4 * r) hw (regWriteSt a p (4 * r) v s)) := rfl
  refine ⟨fun hk hg ho => ?off, fun hk => ?unmapped⟩
  case off =>
    rw [hexec, regWriteSt_of_off hk hg ho, coincide_of_not_taken (.inr ((pageOn_offAccess ..).trans ho))]
    rfl
  case unmapped =>
    rw [hexec, regWriteSt_of_unmapped hk, coincide_of_not_taken (.inl hk)]
    rfl

/-! ### A disable during the soft reset

`disableSt` has STATUS.ENABLED fall with CTRL.ENABLE (log 20), but not while STATUS shows RESETTING, when it clears CTRL.ENABLE
alone. The clause of CTRL_ENABLE_CLEAR asks of the state only that ENABLE is 1, and has STATUS.ENABLED fall too. The two agree
where ENABLED has fallen with the soft reset itself, and part where the state shows ENABLED and RESETTING at once. -/

/-- After reset, with CTRL.ENABLE of the GPIO page set and its STATUS showing ENABLED and RESETTING. -/
def gpioEnabledInReset : State := setReg (setReg State.reset 0x00E 0x08 1) 0x00E 0x10 5

/-- The model's disable leaves STATUS. -/
theorem status_after_disable_inReset :
    getReg (toPage supervisorAcc 0x00E 0x08 (disableSt 0x00E) gpioEnabledInReset) 0x00E 0x10 = 5 := by
  decide +kernel

/-- The clause's next state has ENABLED clear. -/
theorem status_with_enabled_cleared :
    getReg (modReg (modReg gpioEnabledInReset 0x00E 0x08 fun w => putBit w 0 false) 0x00E 0x10 fun w => putBit w 0 false)
      0x00E 0x10 = 4 := by
  decide +kernel

/-- Refutes O14: the clause of CTRL_ENABLE_CLEAR lacks the premise that the page is not RESETTING. -/
theorem not_enableAndDisableComplete : ¬ Obligations.EnableAndDisableComplete := by
  intro h
  obtain ⟨-, hclear⟩ := h supervisorAcc 0x00E .gpio gpioEnabledInReset (by decide) (by decide) ⟨rfl, by decide +kernel⟩
  have hstate := Host.Outcome.next.inj (hclear (by decide +kernel))
  have hstatus := status_after_disable_inReset.symm.trans
    ((congrArg (fun t => getReg t 0x00E 0x10) hstate).trans status_with_enabled_cleared)
  exact absurd hstatus (by decide)

end Sys2Proof.Machine

/-! OFDM: a fire that its block takes. -/

namespace Sys2Proof.Machine

/-- None of the symbols that an FFT_RX names has gone (R240): the symbol that follows it has not ended. -/
def symsAhead (u : State) (k : Nat) (ws : List Word) : Prop :=
  let e := opEntry ws
  let m := numer u k e
  ∀ y ∈ opSyms ws, sampleNow u k e m false < m.start (slotNow u k e m 1 ws * m.perSlot + y + 2)

/-- The block after an operation of kind `kind` on the descriptor words `ws` has joined the others, with the slot (`slotNow`,
log 42) and the taps as they are at the start and no symbol missed. -/
def ofdmJoined (u : State) (k kind : Nat) (f : FireRec) (d : Nat) (ws : List Word) : State :=
  let e := opEntry ws
  let taps := (List.range 8).map (smoothTap u k (bits (wWord ws 11) 10 8))
  setOfdm u k { ofdmOf u k with ops := (ofdmOf u k).ops ++ [⟨f, kind, d, ws, haActive u (ofdmPage k), taps,
    slotNow u k e (numer u k e) kind ws, [], [], [], none⟩] }

/-- The kinds that R237 names pass the check of the kind. -/
theorem ofdmKind_check {kind : Nat} (h : 1 ≤ kind ∧ kind ≤ 7) :
    (fun kd len : Nat => (kd = kind && decide (1 ≤ kind ∧ kind ≤ 7) && len = 1 : Bool)) = fun kd len => kd = kind && len = 1 := by
  simp [h]

/-- A fire of an enabled entry whose descriptor is its own starts: PRACH where its time is ahead (R275), FFT_RX where none of its
symbols has gone (R240). -/
theorem ofdmStart_of_got {k kind : Nat} {f : FireRec} {s u : State} {ws : List Word} (hkind : 1 ≤ kind ∧ kind ≤ 7)
    (hfetch : fetchDesc s (ofdmPage k) (descAddr (getPair s (ofdmPage k) 0x100 22) f) 0x016 (fun kd len => kd = kind && len = 1) =
      (u, .got ws))
    (hentry : bit (carrReg u k 0x180 (opEntry ws)) 0 = true) (htime : kind = 6 → sinceTarget u (wWord ws 5) ≤ 0)
    (hsyms : kind = 1 → symsAhead u k ws) :
    ofdmStart k kind f s = ofdmJoined u k kind f (descAddr (getPair s (ofdmPage k) 0x100 22) f) ws := by
  have hlate : ¬ (kind = 6 ∧ decide (0 < sinceTarget u (wWord ws 5)) = true) := fun ⟨h6, hl⟩ =>
    absurd (htime h6) (Int.not_le.mpr (of_decide_eq_true hl))
  unfold ofdmStart
  simp only [ofdmKind_check hkind, hfetch, hentry, Bool.not_true, Bool.false_eq_true, if_false, if_neg hlate]
  split
  · next h1 =>
    subst h1
    rw [List.filter_eq_nil_iff.mpr fun y hy => by simpa using hsyms rfl y hy]
    rfl
  · rfl

/-- A fire of the pool starts at the block that it names. -/
theorem ofdmFire_of_enabled {kind : Nat} {f : FireRec} {s : State} (hp : f.pool = 3) (hm : f.member.toNat < 4)
    (hk : fireKind f = kind) (ha : f ∈ s.arrived) (hc : pageClock s (ofdmPage f.member.toNat) = true)
    (hu : ∀ x ∈ s.unowned, x.1 ≠ ofdmPage f.member.toNat) (he : enabled s (ofdmPage f.member.toNat) = true) :
    ofdmFire kind f s = ofdmStart f.member.toNat kind f (takeArrived s f) := by
  rw [ofdmFire, if_pos ⟨hp, hm, hk⟩, fireRow_of_enabled f s _ _ _ ha hc hu he, hk]

/-- Settles O30: the seven rows share the taking of a fire and its start; PRACH and FFT_RX alone ask more of the time. -/
theorem ofdmTakesFires : Obligations.OfdmTakesFires := by
  intro f s u ws k p d e m taps taken hp hm ha hc hu he hfetch hentry
  have joins {kind : Nat} (hk : fireKind f = kind) (hkind : 1 ≤ kind ∧ kind ≤ 7)
      (htime : kind = 6 → sinceTarget u (wWord ws 5) ≤ 0) (hsyms : kind = 1 → symsAhead u k ws) :
      Host.Outcome.next (φ := Fault) (ρ := Refusal) (ofdmFire kind f s) = .next (taken kind) := by
    subst hk
    rw [ofdmFire_of_enabled hp hm rfl ha hc hu he, ofdmStart_of_got hkind hfetch hentry htime hsyms]
    rfl
  have joinsAnyTime {kind : Nat} (h6 : kind ≠ 6) (h1 : kind ≠ 1) (hkind : 1 ≤ kind ∧ kind ≤ 7) (hk : fireKind f = kind) :=
    joins hk hkind (absurd · h6) (absurd · h1)
  exact ⟨fun hk hsyms => joins hk (by decide) (absurd · (by decide)) fun _ => hsyms,
    joinsAnyTime (by decide) (by decide) (by decide), joinsAnyTime (by decide) (by decide) (by decide),
    joinsAnyTime (by decide) (by decide) (by decide), joinsAnyTime (by decide) (by decide) (by decide),
    fun hk htime => joins hk (by decide) (fun _ => htime) (absurd · (by decide)),
    joinsAnyTime (by decide) (by decide) (by decide)⟩

end Sys2Proof.Machine

/-! Channel coding: a fire that its block takes, the start of a work unit, and its end. -/

namespace Sys2Proof.Machine

/-! ### Fires (R282–R285) -/

/-- A fire whose descriptor is owned, of one unit of length and of the block's type and the fire's kind starts its operation on
the descriptor's words. -/
theorem fecStart_of_own {k : Nat} {f : FireRec} {s u : State} {b : List Byte} (hkind : 1 ≤ fireKind f ∧ fireKind f ≤ 6)
    (hread : memRead s (fecPage k) (descAddr (getPair s (fecPage k) 0x100 22) f) 64 = (u, .ok, b))
    (hown : bit (wordAt b 0) 31 = true) (hlen : bits (wordAt b 0) 23 16 = 1) (hblk : bits (wordAt b 0) 15 4 = 0x017)
    (hk : bits (wordAt b 0) 3 0 = fireKind f) :
    fecStart k f s =
      (if fireKind f ≤ 4 then startTb else startPolar) u k (fireKind f) f (descAddr (getPair s (fecPage k) 0x100 22) f)
        ((List.range 16).map (wordAt b)) := by
  unfold fecStart
  simp only [hread, hown, hlen, hblk, hk, Bool.not_true, Bool.false_eq_true, if_false, ne_eq, not_true, or_false]
  rw [if_neg (by omega)]
  split <;> rfl

/-- A fire of the pool starts at the block that it names. -/
theorem fecFire_of_enabled {kind : Nat} {f : FireRec} {s : State} (hp : f.pool = 2) (hm : f.member.toNat < 4)
    (hk : fireKind f = kind) (ha : f ∈ s.arrived) (hc : pageClock s (fecPage f.member.toNat) = true)
    (hu : ∀ x ∈ s.unowned, x.1 ≠ fecPage f.member.toNat) (he : enabled s (fecPage f.member.toNat) = true) :
    fecFire kind f s = fecStart f.member.toNat f (takeArrived s f) := by
  rw [fecFire, if_pos ⟨hp, hm, hk⟩, fireRow_of_enabled f s _ _ _ ha hc hu he]

/-! ### The start of a unit (R286, R313, R320) -/

section UnitStart

variable {k c j i e : Nat} {s : State} (hnext : nextUnit (fecOps s k) c = some (j, i))
  (heng : ((engines c).find? fun e => bit (getReg s (fecPage k) 0x110) e && !(busyEngines s k).contains e) = some e)
include hnext heng

/-- The class's next unit runs on the first idle enabled engine. -/
theorem unitStartSt_of_free (hw : hqWaits (fecOps s k) j i = false) :
    unitStartSt k c s = setFec s k (setUnit (fecOps s k) j i
      { (((fecOps s k)[j]?).bind fun o => o.units[i]?).getD FecUnit.init with ph := 1, eng := e }) := by
  unfold unitStartSt
  simp only [hnext, heng, hw, Bool.false_eq_true, if_false]

/-- A unit that must wait for an earlier operation on its HARQ segment is counted once. -/
theorem unitStartSt_of_wait (hw : hqWaits (fecOps s k) j i = true)
    (hfirst : ((((fecOps s k)[j]?).bind fun o => o.units[i]?).getD FecUnit.init).waited = false) :
    unitStartSt k c s = setEvt (incCnt (setFec s k (setUnit (fecOps s k) j i
      { (((fecOps s k)[j]?).bind fun o => o.units[i]?).getD FecUnit.init with waited := true })) (fecPage k) 10) (fecPage k) 2 := by
  unfold unitStartSt
  simp only [hnext, heng, hw, hfirst, Bool.false_eq_true, if_true, if_false]

end UnitStart

/-! ### The end of a unit (R287, R290, R328) -/

/-- The unit that an engine runs: the place of its operation, its index, and the operation. -/
def unitOnEngine (ops : List FecOp) (e : Nat) : Option (Nat × Nat × FecOp) :=
  ops.zipIdx.findSome? fun (o, j) => (o.units.zipIdx.find? fun x => x.1.ph = 1 ∧ x.1.eng = e).map fun x => (j, x.2, o)

/-- A faulty engine is disabled, counted and captured, and its unit starts anew (R328). -/
def engineFaulted (s : State) (k e j i : Nat) (op : FecOp) : State :=
  let p := fecPage k
  let s1 := ownErr (setEvt (incCnt (modReg s p 0x110 fun w => putBit w e false) p 11) p 0) p 5 0x06 none
  checkEngines (setFec s1 k (setUnit (fecOps s k) j i
    { FecUnit.init with waited := ((op.units[i]?).getD FecUnit.init).waited })) k

/-- The end of an engine's work is that of the unit that it runs, or its fault. -/
theorem unitDoneSt_of_found {k e j i : Nat} {op : FecOp} {s : State} (h : unitOnEngine (fecOps s k) e = some (j, i, op))
    (fault : Bool) : unitDoneSt k e fault s = if fault then engineFaulted s k e j i op else runUnit s k j i op := by
  show (match unitOnEngine (fecOps s k) e with
    | none => s
    | some (j, i, op) => if fault then engineFaulted s k e j i op else runUnit s k j i op) = _
  rw [h]

/-- A decode unit of a transport block in hardware mode closes with what it decoded. -/
theorem runUnit_decode {k j i : Nat} {op : FecOp} {s u : State} {seg : SegIn} {y buf : List Int}
    (hk : op.kind = 1 ∨ op.kind = 3) (hha : op.ha = false) (hin : combineCb s k op i = (u, .ok (seg, y, buf))) :
    runUnit s k j i op = closeUnit u k j i (decodeUnit u k op i seg buf) := by
  unfold runUnit
  obtain hk | hk := hk <;> simp only [hk, hin, hha, Bool.false_eq_true, if_false]

/-- A polar record in hardware mode closes with what it decoded. -/
theorem runUnit_polar {k j i : Nat} {op : FecOp} {s u u' : State} {b y : List Byte} (hk : op.kind = 5) (hha : op.ha = false)
    (hrec : memRead s (fecPage k) (wAddr op.words 5 + 32 * i) 32 = (u, .ok, b))
    (hllr : memRead u (fecPage k) (wAddr ((List.range 8).map (wordAt b)) 2)
      (bits (wWord ((List.range 8).map (wordAt b)) 0) 15 0) = (u', .ok, y)) :
    runUnit s k j i op = closeUnit u' k j i (polarUnit op ((List.range 8).map (wordAt b)) (y.map llrIn)) := by
  unfold runUnit
  simp only [hk, hrec, hllr, hha, Bool.false_eq_true, if_false]

/-- An encode unit closes with what it encoded. -/
theorem runUnit_encode {k j i : Nat} {op : FecOp} {s u : State} {o : UnitOut} (hk : op.kind = 2 ∨ op.kind = 4 ∨ op.kind = 6)
    (henc : encodeUnit k op i s = .ok o u) : runUnit s k j i op = closeUnit u k j i o := by
  unfold runUnit
  obtain hk | hk | hk := hk <;> simp only [hk, henc]

/-- With the DRAM channels accepting requests nothing is held back (R650). -/
theorem dramHold_of_clock {s : State} (hfc : s.memc.fc = none) (hclk : dramClock s = true) (t : State) : dramHold s t = t := by
  simp [dramHold, hfc, hclk]

/-- A row of a block that runs acts. -/
theorem whileRuns_of_runs {p : Nat} {s : State} (h : blockRuns s p = true) (f : State → State) : whileRuns p f s = f s :=
  if_pos h

/-- Settles O32: the six rows share the taking of a fire; a unit starts, waits or ends as the engine and the operation in its place
say. -/
theorem fecCommandsComplete : Obligations.FecCommandsComplete := by
  refine ⟨?fires, ?starts, ?ends⟩
  case fires =>
    intro f s u b k p d ws hp hm ha hc hu he hread hown hlen hblk hkb
    have starts {kind : Nat} (hkind : 1 ≤ kind ∧ kind ≤ 6) (hk : fireKind f = kind) :
        Host.Outcome.next (φ := Fault) (ρ := Refusal) (fecFire kind f s) =
          .next ((if kind ≤ 4 then startTb else startPolar) u k kind f d ws) := by
      subst hk
      rw [fecFire_of_enabled hp hm rfl ha hc hu he, fecStart_of_own hkind hread hown hlen hblk hkb]
      rfl
    exact ⟨starts (by decide), starts (by decide), starts (by decide), starts (by decide), starts (by decide),
      starts (by decide)⟩
  case starts =>
    intro k c i j e s p ops x hr hnext heng
    have hrow : exec (.workUnitStart k c) s = .next (unitStartSt k c s) := congrArg Host.Outcome.next (whileRuns_of_runs hr _)
    exact ⟨fun hw => hrow.trans (congrArg Host.Outcome.next (unitStartSt_of_free hnext heng hw)),
      fun hw hfirst => hrow.trans (congrArg Host.Outcome.next (unitStartSt_of_wait hnext heng hw hfirst))⟩
  case ends =>
    intro k e i j op s u p hr hfc hclk hfound
    have hrow (fault : Bool) : exec (.workUnitDone k e fault) s =
        .next (if fault then engineFaulted s k e j i op else runUnit s k j i op) :=
      congrArg Host.Outcome.next
        ((whileRuns_of_runs hr _).trans ((dramHold_of_clock hfc hclk _).trans (unitDoneSt_of_found hfound fault)))
    have ends {t : State} (h : runUnit s k j i op = t) : exec (.workUnitDone k e false) s = .next t :=
      (hrow false).trans (congrArg Host.Outcome.next h)
    exact ⟨fun seg y buf hk hha hin => ends (runUnit_decode hk hha hin),
      fun b y u' hk hha hrec hllr => ends (runUnit_polar hk hha hrec hllr),
      fun o hk henc => ends (runUnit_encode hk henc),
      hrow true⟩

end Sys2Proof.Machine

/-! The leak and the snapshot: what a fold over the pages of the header leaves in one page. -/

namespace Sys2Proof.Machine

/-! ### A fold over pages -/

/-- What shows of one page after a fold over distinct pages is what its own turn leaves. `inv` is what every turn keeps. -/
theorem foldl_own_turn {β : Type} {obs : State → β} {inv : State → Prop} {g : State → Nat → State} {l : List Nat} {p : Nat}
    (hp : p ∈ l) (hl : l.Nodup) (hother : ∀ s q, q ≠ p → obs (g s q) = obs s) (hinv : ∀ s q, inv s → inv (g s q)) {s : State}
    (hs : inv s) : ∃ u, inv u ∧ obs u = obs s ∧ obs (l.foldl g s) = obs (g u p) := by
  induction l generalizing s with
  | nil => cases hp
  | cons q l ih =>
    obtain ⟨hql, hl⟩ := List.nodup_cons.mp hl
    by_cases hqp : q = p
    · subst hqp
      refine ⟨s, hs, rfl, List.foldlRecOn (motive := fun t => obs t = obs (g s q)) l g rfl fun t ht r hr => ?_⟩
      exact (hother t r fun hrq => hql (hrq ▸ hr)).trans ht
    · obtain ⟨u, hu, hus, hlast⟩ := ih ((List.mem_cons.mp hp).resolve_left (Ne.symm hqp)) hl (hinv s q hs)
      exact ⟨u, hu, hus.trans (hother s q hqp), hlast⟩

theorem headerPages_nodup : headerPages.Nodup := List.nodup_range.filter _

theorem lt_of_mem_headerPages {p : Nat} (h : p ∈ headerPages) : p < 512 := List.mem_range.mp (List.mem_filter.mp h).1

/-- The registers of a page that no window selects. -/
def pageRegs (p : Nat) (s : State) (off : Fin 4096) : Word := getReg s p off

/-- Storing a register leaves those of every other page as they read. -/
theorem getReg_setReg_page {p q off o : Nat} (h : p ≠ q) (ho : o < 4096) (hoff : off < 4096) (s : State) (v : Word) :
    getReg (setReg s q off v) p o = getReg s p o := by
  refine getRegI_setRegI_ne _ _ _ _ _ _ _ _ ?_
  unfold rkey
  omega

theorem pageRegs_setReg {p q off : Nat} (h : p ≠ q) (hoff : off < 4096) (s : State) (v : Word) :
    pageRegs p (setReg s q off v) = pageRegs p s :=
  funext fun o => getReg_setReg_page h o.isLt hoff s v

/-! ### The leak (R69) -/

/-- A 16-bit level stands in the low half of its register. -/
theorem bits_low_w32 {n : Nat} (h : n < 2 ^ 16) : bits (w32 n) 15 0 = n := by
  simp only [bits, w32, BitVec.toNat_ofNat, Nat.shiftRight_zero]
  omega

theorem pageRegs_leakPage {n p q : Nat} (s : State) (h : q ≠ p) : pageRegs p (leakPage n s q) = pageRegs p s := by
  unfold leakPage
  dsimp only
  split
  · exact pageRegs_setReg h.symm (by decide) _ _
  · rfl

theorem kup_leakPage {n : Nat} (s : State) (q : Nat) (h : kup s.regs = true) : kup (leakPage n s q).regs = true := by
  unfold leakPage
  dsimp only
  split
  · exact kup_setRegI _ _ _ _ _ h
  · exact h

/-- A page's own turn takes one count off a bucket whose LEAK_SHIFT divides the tick. -/
theorem bucket_leakPage {n p : Nat} {s : State} (h : kup s.regs = true) :
    bits (getReg (leakPage n s p) p 0x30) 15 0 =
      if n % 2 ^ min 20 (bits (getReg s p 0x34) 20 16) = 0 then bits (getReg s p 0x30) 15 0 - 1
      else bits (getReg s p 0x30) 15 0 := by
  have hlvl : bits (getReg s p 0x30) 15 0 < 2 ^ 16 := Nat.mod_lt _ (by decide)
  unfold leakPage
  dsimp only
  split
  · next hleak => rw [getReg_setReg _ _ _ _ h, bits_low_w32 (by omega), if_pos hleak.2]
  · next hkeep =>
    split
    · next hdiv =>
      have hzero : bits (getReg s p 0x30) 15 0 = 0 := Decidable.byContradiction fun hne => hkeep ⟨hne, hdiv⟩
      rw [hzero]
    · rfl

/-- At a tick that FREE has reached, the bucket of every page of the header has leaked. -/
theorem bucket_leakSt {s : State} (hu : kup s.regs = true) (ht : 98304 * (s.usTick + 1) ≤ 100 * freeNow s) :
    (leakSt s).usTick = s.usTick + 1 ∧ ∀ p ∈ headerPages, bits (getReg (leakSt s) p 0x30) 15 0 =
      if (s.usTick + 1) % 2 ^ min 20 (bits (getReg s p 0x34) 20 16) = 0 then bits (getReg s p 0x30) 15 0 - 1
      else bits (getReg s p 0x30) 15 0 := by
  have hleak : leakSt s = headerPages.foldl (leakPage (s.usTick + 1)) { s with usTick := s.usTick + 1 } := if_pos ht
  rw [hleak]
  refine ⟨(To.foldl (T := 2) _ (fun _ _ h => leakPage_to rfl h) (To.refl _ _)).usTick rfl, fun p hp => ?_⟩
  obtain ⟨u, hku, hus, hlast⟩ := foldl_own_turn (obs := pageRegs p) hp headerPages_nodup (fun s _ h => pageRegs_leakPage s h)
    kup_leakPage (s := { s with usTick := s.usTick + 1 }) hu
  have hlvl : getReg u p 0x30 = getReg s p 0x30 := congrFun hus 0x30
  have hcfg : getReg u p 0x34 = getReg s p 0x34 := congrFun hus 0x34
  have hend : getReg _ p 0x30 = getReg (leakPage _ u p) p 0x30 := congrFun hlast 0x30
  rw [hend, bucket_leakPage hku, hlvl, hcfg]

/-! ### The copy tick (R86) -/

/-- The copies of the counters of a page into its SNAP registers. -/
def copyCnts (p n : Nat) (s : State) : State := (List.range n).foldl (fun s i => setReg s p (0x80 + 4 * i) (getCnt s p i)) s

theorem copyCnts_succ (p n : Nat) (s : State) :
    copyCnts p (n + 1) s = setReg (copyCnts p n s) p (0x80 + 4 * n) (getCnt (copyCnts p n s) p n) := by
  simp [copyCnts, List.range_succ]

/-- The copies change the registers alone. -/
theorem copyCnts_to (p n : Nat) (s : State) : To 2 s (copyCnts p n s) :=
  To.foldl _ (fun _ _ h => setReg_to rfl h) (To.refl _ s)

theorem kup_copyCnts (p n : Nat) {s : State} (h : kup s.regs = true) : kup (copyCnts p n s).regs = true := by
  induction n with
  | zero => exact h
  | succ n ih => rw [copyCnts_succ]; exact kup_setRegI _ _ _ _ _ ih

theorem getReg_copyCnts {p n i : Nat} {s : State} (h : kup s.regs = true) (hi : i < n) :
    getReg (copyCnts p n s) p (0x80 + 4 * i) = getCnt s p i := by
  induction n with
  | zero => cases hi
  | succ n ih =>
    rw [copyCnts_succ]
    obtain hi | rfl := Nat.lt_succ_iff_lt_or_eq.mp hi
    · rw [getReg_setReg_off _ _ _ _ _ (by omega), ih hi]
    · rw [getReg_setReg _ _ _ _ (kup_copyCnts p i h), getCnt, (copyCnts_to p i s).cnt rfl]
      rfl

theorem pageRegs_copyCnts {p q n : Nat} (h : p ≠ q) (hn : n ≤ 64) (s : State) : pageRegs p (copyCnts q n s) = pageRegs p s := by
  induction n with
  | zero => rfl
  | succ n ih => rw [copyCnts_succ, pageRegs_setReg h (by omega), ih (by omega)]

theorem snapCount_lt (p : Nat) : snapCount p < 64 := Nat.mod_lt _ (by decide)

/-- A page that is ON copies its counters and takes the sequence number. -/
theorem snapPage_of_on {s : State} {p : Nat} (h : pageOn s p = true) (q : Nat) :
    snapPage q s p = setReg (copyCnts p (snapCount p) s) p 0x40 (w32 q) := if_pos h

theorem snapPage_of_off {s : State} {p : Nat} (h : ¬ pageOn s p = true) (q : Nat) : snapPage q s p = s := if_neg h

theorem pageRegs_snapPage {n p q : Nat} (s : State) (h : q ≠ p) : pageRegs p (snapPage n s q) = pageRegs p s := by
  by_cases ho : pageOn s q = true
  · rw [snapPage_of_on ho, pageRegs_setReg h.symm (by decide), pageRegs_copyCnts h.symm (Nat.le_of_lt (snapCount_lt q))]
  · rw [snapPage_of_off ho]

theorem kup_snapPage {n : Nat} (s : State) (q : Nat) (h : kup s.regs = true) : kup (snapPage n s q).regs = true := by
  by_cases ho : pageOn s q = true
  · rw [snapPage_of_on ho]; exact kup_setRegI _ _ _ _ _ (kup_copyCnts q _ h)
  · rwa [snapPage_of_off ho]

/-- What a page that is ON shows of a snapshot. -/
theorem getReg_snapPage {n p : Nat} {s : State} (hu : kup s.regs = true) (ho : pageOn s p = true) :
    getReg (snapPage n s p) p 0x40 = w32 n ∧ ∀ i < snapCount p, getReg (snapPage n s p) p (0x80 + 4 * i) = getCnt s p i := by
  rw [snapPage_of_on ho]
  refine ⟨getReg_setReg _ _ _ _ (kup_copyCnts p _ hu), fun i hi => ?_⟩
  rw [getReg_setReg_off _ _ _ _ _ (by omega), getReg_copyCnts hu hi]

/-- The traffic manager's copies stand in its queues' pages. -/
theorem pageRegs_tmSnap {p : Nat} (h : p < 512) (s : State) : pageRegs p (tmSnap s) = pageRegs p s := by
  refine List.foldlRecOn (motive := fun t => pageRegs p t = pageRegs p s) _ _ rfl fun t ht q _ => ?_
  unfold setQ
  rw [pageRegs_setReg (by omega) (by omega), pageRegs_setReg (by omega) (by omega), ht]

/-- The pages' part of a copy tick. -/
def snapPages (n : Nat) (s : State) : State := headerPages.foldl (snapPage n) s

theorem snapPages_to (n : Nat) (s : State) : To 2 s (snapPages n s) :=
  To.foldl _ (fun _ _ h => snapPage_to rfl h) (To.refl _ s)

theorem getReg_snapPages {n p : Nat} {s : State} (hu : kup s.regs = true) (hp : p ∈ headerPages) (ho : pageOn s p = true) :
    getReg (snapPages n s) p 0x40 = w32 n ∧ ∀ i < snapCount p, getReg (snapPages n s) p (0x80 + 4 * i) = getCnt s p i := by
  obtain ⟨u, ⟨hku, hcnt, hpwr⟩, -, hlast⟩ := foldl_own_turn (obs := pageRegs p)
    (inv := fun u => kup u.regs = true ∧ u.cnt = s.cnt ∧ u.pwr = s.pwr) hp headerPages_nodup
    (fun s _ h => pageRegs_snapPage (n := n) s h)
    (fun u q ⟨hk, hc, hw⟩ =>
      have hto : To 2 u (snapPage n u q) := snapPage_to rfl (To.refl _ u)
      ⟨kup_snapPage u q hk, (hto.cnt rfl).trans hc, (hto.pwr rfl).trans hw⟩)
    (s := s) ⟨hu, rfl, rfl⟩
  have hon : pageOn u p = true := by rw [← ho]; unfold pageOn pdState pdRec; rw [hpwr]
  obtain ⟨hseq, hcnts⟩ := getReg_snapPage (n := n) hku hon
  refine ⟨(congrFun hlast 0x40).trans hseq, fun i hi => ?_⟩
  have hoff : 0x80 + 4 * i < 4096 := by have := snapCount_lt p; omega
  refine (congrFun hlast ⟨0x80 + 4 * i, hoff⟩).trans ((hcnts i hi).trans ?_)
  rw [getCnt, hcnt]
  rfl

/-- A snapshot is marked as copied. -/
def markCopied (x : Snap) (s : State) : State :=
  modTime s fun t => { t with snaps := t.snaps.map fun y => if y = x then { y with copied := true } else y }

/-- The copy tick of a snapshot: it is marked as copied, the pages copy, and the traffic manager's queues where it is ON. -/
theorem snapCopySt_of_due {s : State} {x : Snap}
    (hx : (s.time.snaps.find? fun y => !y.copied && decide (1000 ≤ nsSince s y.at_)) = some x) :
    snapCopySt s =
      if pageOn (snapPages x.seq (markCopied x s)) 0x009 then tmSnap (snapPages x.seq (markCopied x s))
      else snapPages x.seq (markCopied x s) := by
  unfold snapCopySt
  rw [hx]
  rfl

/-- What the copy tick of the only snapshot leaves. -/
theorem snapCopySt_shows {s : State} {x : Snap} (hu : kup s.regs = true) (hx : s.time.snaps = [x]) (hc : x.copied = false)
    (ht : 1000 ≤ nsSince s x.at_) :
    (snapCopySt s).time.snaps = [{ x with copied := true }] ∧ ∀ p ∈ headerPages, pageOn s p = true →
      getReg (snapCopySt s) p 0x40 = w32 x.seq ∧
      ∀ i < snapCount p, getReg (snapCopySt s) p (0x80 + 4 * i) = getCnt s p i := by
  have hst := snapCopySt_of_due (s := s) (x := x) (by simp [hx, hc, ht])
  have htime : (snapCopySt s).time = (markCopied x s).time := by
    have hto : To 2 (markCopied x s) (snapCopySt s) := by
      rw [hst]
      exact To.ite (tmSnap_to rfl (snapPages_to ..)) (snapPages_to ..)
    exact hto.time rfl
  have hregs (p : Nat) (hp : p < 512) : pageRegs p (snapCopySt s) = pageRegs p (snapPages x.seq (markCopied x s)) := by
    rw [hst]
    split
    · exact pageRegs_tmSnap hp _
    · rfl
  refine ⟨?_, fun p hp ho => ?_⟩
  · rw [htime]
    simp [markCopied, modTime, hx]
  · obtain ⟨hseq, hcnts⟩ := getReg_snapPages (n := x.seq) (s := markCopied x s) hu hp ho
    have hpage := hregs p (lt_of_mem_headerPages hp)
    refine ⟨(congrFun hpage 0x40).trans hseq, fun i hi => ?_⟩
    have hoff : 0x80 + 4 * i < 4096 := by have := snapCount_lt p; omega
    exact (congrFun hpage ⟨0x80 + 4 * i, hoff⟩).trans (hcnts i hi)

/-! ### The number of the last snapshot (R88) -/

/-- DEVINFO.SNAP_SEQ. -/
def snapSeqReg (s : State) : Word := getReg s 0x000 0x118

theorem snapSeqReg_setReg {p : Nat} (h : p ≠ 0) (off : Nat) (s : State) (v : Word) :
    snapSeqReg (setReg s p off v) = snapSeqReg s := by
  refine getRegI_setRegI_ne _ _ _ _ _ _ _ _ ?_
  unfold rkey
  omega

/-- Where the registers are kept, so is SNAP_SEQ. -/
theorem snapSeqReg_congr {s t : State} (h : t.regs = s.regs) : snapSeqReg t = snapSeqReg s := by
  rw [snapSeqReg, getReg, getRegI, h]
  rfl

theorem snapSeqReg_putUnit (n : Nat) (first : Option Word) (ws : List Word) (s : State) :
    snapSeqReg (putUnit n first ws s) = snapSeqReg s := by
  have hhost (a : Nat) (bs : List Byte) (u : State) : snapSeqReg (setHostBytes u a bs) = snapSeqReg u :=
    snapSeqReg_congr ((setHostBytes_to (Nat.or_self _) (To.refl _ u)).regs rfl)
  unfold putUnit
  dsimp only
  rw [snapSeqReg_setReg (by decide)]
  cases first <;> simp only [hhost]

theorem snapSeqReg_putUnits (n k : Nat) (ws : List Word) (s : State) : snapSeqReg (putUnits n k ws s) = snapSeqReg s := by
  induction k generalizing ws s with
  | zero => rfl
  | succ k ih => rw [putUnits, ih, snapSeqReg_putUnit]

theorem snapSeqReg_putEntry (e : D2hEntry) (s : State) : snapSeqReg (putEntry e s) = snapSeqReg s := by
  unfold putEntry
  dsimp only
  rw [snapSeqReg_congr ((sendMsix_to (Nat.or_self _) (To.refl _ _)).regs rfl)]
  exact (snapSeqReg_putUnits ..).trans (snapSeqReg_putUnit ..)

theorem snapSeqReg_d2hPump (n k : Nat) (s : State) : snapSeqReg (d2hPump n k s) = snapSeqReg s := by
  induction k generalizing s with
  | zero => rfl
  | succ k ih =>
    unfold d2hPump
    split
    · rfl
    · split
      · rw [ih, snapSeqReg_putEntry]
        rfl
      · exact snapSeqReg_setReg (by decide) _ _ _

/-- A message to the host leaves SNAP_SEQ, on either path. -/
theorem snapSeqReg_fapiSend (m : FapiOut) (s : State) : snapSeqReg (fapiSend m s) = snapSeqReg s := by
  unfold fapiSend
  dsimp only
  split
  · exact snapSeqReg_d2hPump ..
  · rfl

theorem snapSeqReg_statsAnswers (seq : Nat) (s : State) : snapSeqReg (statsAnswers seq s) = snapSeqReg s := by
  refine List.foldlRecOn (motive := fun t => snapSeqReg t = snapSeqReg s) _ _ rfl fun t ht e _ => ?_
  split
  · exact (snapSeqReg_fapiSend ..).trans ht
  · exact ht

/-- A snapshot is forgotten. -/
def dropSnap (x : Snap) (s : State) : State := modTime s fun t => { t with snaps := t.snaps.filter fun y => !decide (y = x) }

/-- The update of a copied snapshot's number: it is forgotten, SNAP_SEQ takes its number, and the statistics asked for go out. -/
theorem snapSeqSt_of_due {s : State} {x : Snap}
    (hx : (s.time.snaps.find? fun y => y.copied && decide (1256 ≤ nsSince s y.at_)) = some x) :
    snapSeqSt s = statsAnswers x.seq (setReg (dropSnap x s) 0x000 0x118 (w32 x.seq)) := by
  unfold snapSeqSt
  rw [hx]
  rfl

/-- What the update of the only snapshot's number leaves. -/
theorem snapSeqSt_shows {s : State} {x : Snap} (hu : kup s.regs = true) (hx : s.time.snaps = [x]) (hc : x.copied = true)
    (ht : 1256 ≤ nsSince s x.at_) : snapSeqReg (snapSeqSt s) = w32 x.seq ∧ (snapSeqSt s).time.snaps = [] := by
  rw [snapSeqSt_of_due (x := x) (by simp [hx, hc, ht])]
  refine ⟨(snapSeqReg_statsAnswers ..).trans (getReg_setReg _ _ _ _ hu), ?_⟩
  rw [(statsAnswers_to (Nat.or_self _) (To.refl _ _)).time rfl]
  simp [dropSnap, modTime, hx]

/-- Settles O16: each page's bucket leaks and each page's counters are copied in the page's own turn of the fold, and the answers
to the PHYs leave SNAP_SEQ. -/
theorem leakAndSnapshotComplete : Obligations.LeakAndSnapshotComplete := by
  intro s hu
  refine ⟨fun ht => ?leak, fun x hx hc ht => ?copy, fun x hx hc ht => ?seq⟩
  case leak => exact ⟨_, rfl, bucket_leakSt hu ht⟩
  case copy => exact ⟨_, rfl, snapCopySt_shows hu hx hc ht⟩
  case seq => exact ⟨_, rfl, snapSeqSt_shows hu hx hc ht⟩

end Sys2Proof.Machine

/-! The soft reset: the registers that it drops, and CTRL and STATUS after it. -/

namespace Sys2Proof.Machine

/-! ### Keys that a write reaches

The statement asks nothing of the register map, so CTRL and STATUS are followed through maps whose keys need not rise. -/

section WritesBack

variable {α : Type} [DecidableEq α]

omit [DecidableEq α] in
/-- A key that is not listed reads as the default. -/
theorem kget_of_unlisted {d : α} {m : KMap α} {j : Nat} (h : ∀ e ∈ m, e.1 ≠ j) : kget d m j = d := by
  induction m with
  | nil => rfl
  | cons e m ih =>
    obtain ⟨he, hm⟩ := List.forall_mem_cons.mp h
    rw [kget, if_neg (Ne.symm he), ih hm]

/-- What a write leaves in a map was there, or stands under the key written. -/
theorem mem_kset {d : α} {m : KMap α} {j : Nat} {v : α} {e : Nat × α} (h : e ∈ kset d m j v) : e ∈ m ∨ e.1 = j := by
  induction m with
  | nil =>
    unfold kset at h
    split at h <;> simp_all
  | cons x m ih =>
    unfold kset at h
    split at h
    · split at h
      · exact .inl h
      · obtain rfl | h := List.mem_cons.mp h
        · exact .inr rfl
        · exact .inl h
    · split at h
      · split at h
        · exact .inl (List.mem_cons_of_mem _ h)
        · obtain rfl | h := List.mem_cons.mp h
          · exact .inr rfl
          · exact .inl (List.mem_cons_of_mem _ h)
      · obtain rfl | h := List.mem_cons.mp h
        · exact .inl (List.mem_cons_self ..)
        · exact (ih h).imp_left (List.mem_cons_of_mem _)

/-- Behind the first entry whose key is not below `j`, no entry is one of `j`: a write under `j` is read back. -/
def writesBack (j : Nat) : KMap α → Prop
  | [] => True
  | (k, _) :: m => if k < j then writesBack j m else ∀ e ∈ m, e.1 ≠ j

omit [DecidableEq α] in
theorem writesBack_of_unlisted {m : KMap α} {j : Nat} (h : ∀ e ∈ m, e.1 ≠ j) : writesBack j m := by
  induction m with
  | nil => trivial
  | cons e m ih =>
    obtain ⟨-, hm⟩ := List.forall_mem_cons.mp h
    unfold writesBack
    split
    · exact ih hm
    · exact hm

theorem kget_kset_of_writesBack {d : α} {m : KMap α} {j : Nat} (h : writesBack j m) (v : α) : kget d (kset d m j v) j = v := by
  by_cases hv : v = d
  · subst hv
    induction m with
    | nil => simp [kset, kget]
    | cons e m ih =>
      obtain ⟨k, w⟩ := e
      unfold writesBack at h
      unfold kset
      split
      · next hjk =>
        rw [if_neg (by omega)] at h
        rw [if_pos rfl, kget, if_neg (by omega), kget_of_unlisted h]
      · split
        · next hjk =>
          rw [if_neg (by omega)] at h
          rw [if_pos rfl, kget_of_unlisted h]
        · rw [if_pos (by omega)] at h
          rw [kget, if_neg (by omega), ih h]
  · exact kget_kset_of_ne _ _ _ _ hv

theorem writesBack_kset {d : α} {m : KMap α} {j : Nat} (h : writesBack j m) (l : Nat) (v : α) : writesBack j (kset d m l v) := by
  induction m with
  | nil =>
    unfold kset
    split
    · trivial
    · unfold writesBack
      split
      · trivial
      · simp
  | cons e m ih =>
    obtain ⟨k, w⟩ := e
    have h0 := h
    unfold writesBack at h
    unfold kset
    split
    · next hlk =>
      split
      · exact h0
      · unfold writesBack
        split
        · exact h0
        · rw [if_neg (by omega)] at h
          exact List.forall_mem_cons.mpr ⟨by show k ≠ j; omega, h⟩
    · split
      · next hlk =>
        subst hlk
        split
        · split at h
          · exact h
          · exact writesBack_of_unlisted h
        · exact h0
      · unfold writesBack
        split
        · next hkj =>
          rw [if_pos hkj] at h
          exact ih h
        · next hkj =>
          rw [if_neg hkj] at h
          intro e he
          obtain he | he := mem_kset he
          · exact h e he
          · omega

end WritesBack

/-! ### The registers that a soft reset drops (R58 step 3) -/

/-- No register of `keep`'s complement in page `p` is listed. -/
def pageDropped (p : Nat) (keep : Nat → Bool) (m : KMap Word) : Prop :=
  ∀ off < 4096, keep off = false → ∀ i, ∀ e ∈ m, e.1 ≠ rkey p off i

theorem pageDropped_dropRegs {p : Nat} (hp : p < 1024) (keep : Nat → Bool) (m : KMap Word) :
    pageDropped p keep (dropRegs p keep m) := by
  intro off ho hk i e he hkey
  have hkept : (!(e.1 % 2 ^ 22 / 4096 == p) || keep (e.1 % 4096)) = true := (List.mem_filter.mp he).2
  have hpage : rkey p off i % 2 ^ 22 / 4096 = p := by unfold rkey; omega
  have hoff : rkey p off i % 4096 = off := by unfold rkey; omega
  rw [hkey, hpage, hoff, hk, beq_self_eq_true] at hkept
  exact absurd hkept (by decide)

/-- Dropping further pages lists nothing anew. -/
theorem mem_of_mem_dropPages {ps : List Nat} {m : KMap Word} {e : Nat × Word}
    (h : e ∈ ps.foldl (fun m q => dropRegs q (fun _ => false) m) m) : e ∈ m := by
  induction ps generalizing m with
  | nil => exact h
  | cons q ps ih => exact (List.mem_filter.mp (ih h)).1

theorem pageDropped_resetRegs {p : Nat} (hp : p < 1024) (keep : Nat → Bool) (s : State) :
    pageDropped p keep (resetRegs p keep s).regs :=
  fun off ho hk i _ he => pageDropped_dropRegs hp keep s.regs off ho hk i _ (mem_of_mem_dropPages he)

/-! ### CTRL and STATUS after the steps (R58) -/

/-- No request is added. -/
def reqsWithin (s t : State) : Prop := ∀ r ∈ t.fab.reqs, r ∈ s.fab.reqs

theorem reqsWithin_dropReq (s : State) (id : Nat) : reqsWithin s (dropReq s id) := fun _ hr => (List.mem_filter.mp hr).1

/-- A halt withdraws requests and makes none. -/
theorem reqsWithin_dmaHalt (c : Nat) (h : DmaStop) (s : State) : reqsWithin s (dmaHalt c h s) := by
  unfold dmaHalt
  dsimp only
  split
  · exact fun _ hr => hr
  · exact List.foldlRecOn (motive := reqsWithin s) _ _ (fun _ hr => hr) fun t ht id _ r hr => ht r (reqsWithin_dropReq t id r hr)

theorem reqsWithin_dmaQuell (e : Nat) (s : State) : reqsWithin s (dmaQuell e s) := by
  refine List.foldlRecOn (motive := reqsWithin s) _ _ (fun _ hr => hr) fun t ht j _ => ?_
  dsimp only
  split
  · exact ht
  · exact fun r hr => ht r (reqsWithin_dmaHalt _ _ t r hr)

theorem awaitsFabric_of_within {s t : State} {p : Nat} (h : reqsWithin s t) (hs : awaitsFabric s p = false) :
    awaitsFabric t p = false := by
  unfold awaitsFabric at hs ⊢
  rw [List.any_eq_false] at hs ⊢
  exact fun r hr => hs r (h r hr)

/-- A block that awaits nothing of the fabric has its page's registers dropped, and then shows SOFT_RESET and RESETTING. -/
theorem softSteps_of_quiet {s : State} {p : Nat} (h : awaitsFabric s p = false) :
    ∃ u, softSteps p s = setReg (setReg (resetRegs p (softKeeps p) u) p 0x08 2) p 0x10 4 := by
  have hquell : awaitsFabric (if pageKind p = some .dma then dmaQuell (p - 0x0D8) s else s) p = false := by
    split
    · exact awaitsFabric_of_within (reqsWithin_dmaQuell _ s) h
    · exact h
  refine ⟨blockDrop p (if pageKind p = some .dma then dmaQuell (p - 0x0D8) s else s), ?_⟩
  unfold softSteps
  dsimp only
  rw [if_neg fun hawaits => absurd hawaits.2 (by simp [hquell])]

/-- CTRL and STATUS reset to 0. -/
theorem regReset_ctrl {p : Nat} (hk : (pageKind p).isSome) (hp : p < 0x200) : regReset p 0x08 = 0 := by
  rw [regReset, findReg_header hk hp (by decide) (by decide)]
  decide

theorem regReset_status {p : Nat} (hk : (pageKind p).isSome) (hp : p < 0x200) : regReset p 0x10 = 0 := by
  rw [regReset, findReg_header hk hp (by decide) (by decide)]
  decide

section SoftSteps

variable {p : Nat} (hk : (pageKind p).isSome) (hp : p < 0x200) {s : State} (hquiet : awaitsFabric s p = false)
include hk hp hquiet

/-- CTRL shows SOFT_RESET alone after the steps. -/
theorem getReg_ctrl_softSteps : getReg (softSteps p s) p 0x08 = 2 := by
  obtain ⟨u, hu⟩ := softSteps_of_quiet hquiet
  rw [hu, getReg_setReg_off _ _ _ _ _ (by decide)]
  exact getRegI_setRegI_of_ne _ _ _ _ _ (by rw [regReset_ctrl hk hp]; decide)

/-- STATUS shows RESETTING alone after the steps. -/
theorem getReg_status_softSteps : getReg (softSteps p s) p 0x10 = 4 := by
  obtain ⟨u, hu⟩ := softSteps_of_quiet hquiet
  rw [hu]
  exact getRegI_setRegI_of_ne _ _ _ _ _ (by rw [regReset_status hk hp]; decide)

omit hk in
/-- Every other register of the page has its reset value, but those that `softKeeps` leaves (R58, log 19). -/
theorem getRegI_softSteps {off : Nat} (ho : off < 4096) (hkeep : softKeeps p off = false) (hctrl : off ≠ 0x08)
    (hstatus : off ≠ 0x10) (i : Nat) : getRegI (softSteps p s) p off i = regReset p off := by
  obtain ⟨u, hu⟩ := softSteps_of_quiet hquiet
  rw [hu, setReg, getRegI_setRegI_ne _ _ _ _ _ _ _ _ (by unfold rkey; omega),
    setReg, getRegI_setRegI_ne _ _ _ _ _ _ _ _ (by unfold rkey; omega)]
  exact kget_of_unlisted (pageDropped_resetRegs (by omega) _ u off ho hkeep i)

omit hk in
/-- A register of the page that the steps drop or write takes what is written next. -/
theorem writesBack_softSteps {off : Nat} (ho : off < 4096) (hkeep : softKeeps p off = false) :
    writesBack (rkey p off 0) (softSteps p s).regs := by
  obtain ⟨u, hu⟩ := softSteps_of_quiet hquiet
  rw [hu]
  exact writesBack_kset (writesBack_kset (writesBack_of_unlisted (pageDropped_resetRegs (by omega) _ u off ho hkeep 0)) _ _) _ _

end SoftSteps

/-- A page with CTRL that is not in its soft reset goes through the steps in the same command, the model's choice (log 19). -/
theorem softResetSt_of_idle {p : Nat} {s : State} (h0 : p ≠ 0) (hp : p < 0x200) (h : resetting s p = false) :
    softResetSt p s = softSteps p s := by
  unfold softResetSt
  have hgo : ¬ (p = 0x000 ∨ 0x200 ≤ p ∨ resetting s p = true) := by
    rintro (hzero | hhigh | hres)
    · exact h0 hzero
    · exact Nat.not_le.mpr hp hhigh
    · exact Bool.noConfusion (h.symm.trans hres)
  rw [if_neg hgo]

/-- The completion of a soft reset goes through the steps again and clears CTRL and STATUS. -/
theorem softDoneSt_of_resetting {p : Nat} {s : State} (h : resetting s p = true) (hquiet : awaitsFabric s p = false) :
    softDoneSt p s = setReg (setReg (softSteps p s) p 0x08 0) p 0x10 0 := by
  unfold softDoneSt
  rw [if_neg (by simp [h, hquiet])]

section SoftDone

variable {p : Nat} (hp : p < 0x200) {s : State} (hquiet : awaitsFabric s p = false)
include hp hquiet

theorem getReg_ctrl_softDone : getReg (setReg (setReg (softSteps p s) p 0x08 0) p 0x10 0) p 0x08 = 0 := by
  rw [getReg_setReg_off _ _ _ _ _ (by decide)]
  exact kget_kset_of_writesBack (writesBack_softSteps hp hquiet (by decide) (by simp [softKeeps])) 0

theorem getReg_status_softDone : getReg (setReg (setReg (softSteps p s) p 0x08 0) p 0x10 0) p 0x10 = 0 :=
  kget_kset_of_writesBack (writesBack_kset (writesBack_softSteps hp hquiet (by decide) (by simp [softKeeps])) _ _) 0

end SoftDone

/-- Settles O15: the steps drop the page's registers whatever the map held, so that CTRL and STATUS take what is written after. -/
theorem softResetCompletes : Obligations.SoftResetCompletes := by
  intro p s hk h0 hquiet
  refine ⟨fun a hr hidle => ?reset, fun hres => ?done⟩
  case reset =>
    have hexec : exec (.softReset a p) s = .next (softSteps p s) := by
      show Host.Outcome.next (toPage a p 0x08 (softResetSt p) s) = _
      obtain ⟨hg, ho⟩ := hr
      simp [toPage, onPage, hg, ho, Option.isSome_iff_ne_none.mp hk, softResetSt_of_idle h0 p.isLt hidle]
    exact ⟨_, hexec, getReg_ctrl_softSteps hk p.isLt hquiet, getReg_status_softSteps hk p.isLt hquiet,
      fun off i hkeep hctrl hstatus => getRegI_softSteps p.isLt hquiet off.isLt hkeep hctrl hstatus i⟩
  case done =>
    refine ⟨_, congrArg Host.Outcome.next (softDoneSt_of_resetting hres hquiet), ?_, ?_, ?_⟩
    · rw [getReg_ctrl_softDone p.isLt hquiet]
      decide
    · rw [resetting, getReg_status_softDone p.isLt hquiet]
      decide
    · rw [ctrlEnable, getReg_ctrl_softDone p.isLt hquiet]
      decide

end Sys2Proof.Machine

/-! Slot graphs: the open ports (R121), posting (R152, R153) and the voters (R144, R145). -/

namespace Sys2Proof.Machine

/-! ### Accesses that reach the page (R48, R829) -/

/-- A write that reaches its page does what the page does. -/
theorem onPage_of_reaches {s : State} {a : Acc} {p : Nat} (hr : reaches s a p) (off : Nat) (f : State → State) :
    onPage a p off f s = f s := by
  obtain ⟨hgate, hon⟩ := hr
  simp [onPage, hgate, hon]

/-- A command of an open port acts in hardware mode (R155). -/
theorem openCmd_of_reaches {s : State} {a : Acc} (hr : reaches s a 0x002) (hha : haActive s 0x002 = false) (n : Fin 9)
    (f : State → State) : openCmd a n f s = f s := by
  rw [openCmd, onPage_of_reaches hr, hha, if_neg (by decide)]

/-- Settles O18: the checks before the room are passed, and the room is not there (R121). -/
theorem openRefusedWhenFull : Obligations.OpenRefusedWhenFull := by
  intro a n s hr hha peak hlow hhigh hfree hfull
  have hinst : ¬ (instRec s (openInst s n)).st ≠ .free := fun hbusy => hbusy hfree
  show Host.Outcome.next (openCmd a n _ s) = _
  rw [openCmd_of_reaches hr hha, if_neg (by omega), if_neg hinst, if_pos hfull]
  rfl

/-! ### Posting (R152, R153) -/

/-- A ring whose size is in its range is not misconfigured (R149). -/
theorem hostRingBad_of_inRange {s : State} (hlo : 8 ≤ bits (getReg s 0x002 0x140) 4 0)
    (hhi : bits (getReg s 0x002 0x140) 4 0 ≤ 16) : hostRingBad s = false := by
  simp [hostRingBad, hlo, hhi]

/-- Settles O24: the record is accepted, and its port has a place for it. -/
theorem postingCompletes : Obligations.PostingCompletes := by
  intro a n u v s hr s' f hha hlo hhi hmember hroom
  have hgood : postBad s' f = false := by simp [postBad, hha, hostRingBad_of_inRange hlo hhi, hmember]
  have hpost : postRecord n u f s' = modDisp s' fun d =>
      { d with posted := d.posted ++ [⟨n, u, s.time.free, s.disp.nextSeq, f⟩], nextSeq := d.nextSeq + 1 } :=
    if_neg (Nat.not_le.mpr hroom)
  show Host.Outcome.next (onPage a _ _ _ s) = _
  rw [onPage_of_reaches hr]
  show Host.Outcome.next (if postBad s' f then ownErr s' 0x002 6 0x08 none else postRecord n u f s') = _
  rw [hgood, if_neg (by decide), hpost]
  rfl

/-! ### Protection (R144, R145) -/

/-- Without a majority the dispatcher stops issuing. -/
@[simp] theorem dispFatal_disp (s : State) : (dispFatal s).disp = { s.disp with stopped := true } := by
  simp [dispFatal, modDisp]

/-- Without a majority the fatal event follows the capture. -/
theorem dispFatal_fatalPend (s : State) :
    (dispFatal s).evt.fatalPend = (captureErr s 0x002 ⟨5, 0x02, 0, 0x002, none⟩).evt.fatalPend ++ [1] := rfl

/-- Without a majority the registers change by the capture alone. -/
theorem dispFatal_regs (s : State) : (dispFatal s).regs = (captureErr s 0x002 ⟨5, 0x02, 0, 0x002, none⟩).regs := by
  simp only [dispFatal, modDisp, ownErr]

/-- A disagreement while no reload runs is captured and starts the reload (R144). -/
theorem execVoterMinority_of_noReload {s : State} (h : bit (getReg s 0x002 0x134) 8 = false) (r : Fin 3) :
    execVoterMinority r s =
      .next (ownErr (setReg (incCnt s 0x002 9) 0x002 0x134 (w32 (2 ^ 8 + 2 ^ r.val))) 0x002 5 0x01 none) :=
  if_neg (Bool.eq_false_iff.mp h)

/-- Settles O23: no disagreement stands under a reload, and the fatal event follows the capture. -/
theorem votersComplete : Obligations.VotersComplete := fun s =>
  ⟨fun r hreload => execVoterMinority_of_noReload hreload r, rfl,
    dispFatal (incCnt s 0x002 9), rfl, dispFatal_disp _, dispFatal_fatalPend _, dispFatal_regs _⟩

end Sys2Proof.Machine

/-! Slot graphs: the reads of templates (R94, R95). -/

namespace Sys2Proof.Machine

/-! ### An error that the dispatcher captures commutes with a change of its own state -/

theorem addCnt_modDisp (s : State) (g : DispSt → DispSt) (p i n : Nat) :
    addCnt (modDisp s g) p i n = modDisp (addCnt s p i n) g := rfl

theorem incCnt_modDisp (s : State) (g : DispSt → DispSt) (p i : Nat) :
    incCnt (modDisp s g) p i = modDisp (incCnt s p i) g := addCnt_modDisp s g p i 1

theorem getReg_modDisp (s : State) (g : DispSt → DispSt) (p off : Nat) : getReg (modDisp s g) p off = getReg s p off := rfl

theorem setReg_modDisp (s : State) (g : DispSt → DispSt) (p off : Nat) (v : Word) :
    setReg (modDisp s g) p off v = modDisp (setReg s p off v) g := rfl

theorem modReg_modDisp (s : State) (g : DispSt → DispSt) (p off : Nat) (f : Word → Word) :
    modReg (modDisp s g) p off f = modDisp (modReg s p off f) g := rfl

theorem setEvt_modDisp (s : State) (g : DispSt → DispSt) (p b : Nat) :
    setEvt (modDisp s g) p b = modDisp (setEvt s p b) g := modReg_modDisp s g p 0x14 _

theorem storeErr_modDisp (s : State) (g : DispSt → DispSt) (p : Nat) (e : Err) (ovf : Bool) :
    storeErr (modDisp s g) p e ovf = modDisp (storeErr s p e ovf) g := by
  unfold storeErr
  dsimp only
  rw [setReg_modDisp, setReg_modDisp, setReg_modDisp]

theorem captureOnly_modDisp (s : State) (g : DispSt → DispSt) (p : Nat) (e : Err) :
    captureOnly (modDisp s g) p e = modDisp (captureOnly s p e) g := by
  simp only [captureOnly, getReg_modDisp, setReg_modDisp, setEvt_modDisp, storeErr_modDisp, apply_ite (modDisp · g)]

theorem sendReport_modDisp (s : State) (g : DispSt → DispSt) (p : Nat) (e : Err) :
    sendReport (modDisp s g) p e = modDisp (sendReport s p e) g := by
  simp only [sendReport, apply_ite (modDisp · g)]
  rfl

/-- A malformed token is counted and captured whatever the dispatcher holds (R101). -/
theorem malformed_modDisp (s : State) (g : DispSt → DispSt) : malformed (modDisp s g) = modDisp (malformed s) g := by
  simp only [malformed, ownErr, captureErr, incCnt_modDisp, captureOnly_modDisp, sendReport_modDisp]

@[simp] theorem malformed_disp (s : State) : (malformed s).disp = s.disp := by
  rw [malformed, ownErr_disp]
  rfl

/-! ### The load (R94) -/

/-- A load without timeout whose reads succeed, and find no more templates than the cache holds, pins them. -/
theorem execDispTemplateLoadDone_of_read {s u : State} {ts : List (Nat × List Word)} (hload : s.disp.loading = true)
    (hr : blockRuns s 0x002 = true)
    (hread : loadTmpls none (loadSet (modDisp s fun d => { d with loading := false }))
      (modDisp s fun d => { d with loading := false }) [] = (u, .ok ts)) (hlen : ts.length ≤ cacheSize) :
    execDispTemplateLoadDone none s =
      .next (setEnabled (modDisp u fun d => { d with cache := ts, pinned := ts.length, fetched := [] }) 0x002 true) := by
  simp only [execDispTemplateLoadDone, hload, hr, Bool.not_true, Bool.or_self, Bool.false_eq_true, if_false, Option.map_none,
    hread, if_neg (Nat.not_lt.mpr hlen)]


/-! ### The read for a token (R95) -/

/-- The eight words of a template's bytes. -/
def tmplOfBytes (d : List Byte) : List Word := (List.range 8).map (wordAt d)

/-- A read that the one waiting token's operation needs, and that succeeds, is at hand when the token is looked at again. -/
theorem execTemplateFetchDone_of_read {s u : State} {t : BitVec 16} {tok : Token} {cls : Nat} {m : Mark} {d : List Byte}
    (hr : blockRuns s 0x002 = true) (hq : s.disp.fetchQ = [(tok, cls, m)]) (hneed : tokMissing s tok m = some t.toNat)
    (hread : memRead s 0x002 (tmplAddr s t.toNat) 32 = (u, .ok, d)) :
    execTemplateFetchDone t false s =
      .next (retryTokens (modDisp u fun x => { x with fetched := x.fetched ++ [(t.toNat, tmplOfBytes d)] })) := by
  simp [execTemplateFetchDone, hr, hq, hneed, hread, readFault, tmplOfBytes]

/-- A token whose template is not at hand needs it. -/
theorem tokMissing_of_uncached {s : State} {t : Token} (h : tmplCached s t.template.toNat = none) (m : Mark) :
    tokMissing s t m = some t.template.toNat := by
  rw [tokMissing, h]

/-- A token of a slot graph that is not OPEN needs its target alone. -/
theorem tokMissing_of_closed {s : State} {t : Token} {w : List Word} (hc : tmplCached s t.template.toNat = some w)
    (hi : (instRec s t.inst.toNat).st ≠ .open_) (m : Mark) : tokMissing s t m = none := by
  simp only [tokMissing, hc]
  exact if_pos hi

/-- A template at hand is what its token meets. -/
theorem tmplWords_of_cached {s : State} {k : Nat} {w : List Word} (h : tmplCached s k = some w) : tmplWords s k = w := by
  rw [tmplWords, h]

/-- With no token waiting, a token that needs nothing more is taken. -/
theorem stateToken_of_atHand {s : State} {t : Token} {cls : Nat} {m : Mark} {w : List Word} (hq : s.disp.fetchQ = [])
    (hc : tmplCached s t.template.toNat = some w) (hm : tokMissing s t m = none) :
    stateToken s t cls m = readyToken s t cls w m := by
  simp [stateToken, opWaits, hq, hm, tmplWords_of_cached hc]

/-- A token without DONE for a slot graph that is not OPEN is malformed, or discarded (R101, R119). -/
theorem readyToken_of_closed {s : State} {t : Token} (hd : tokDone t = false) (hi : (instRec s t.inst.toNat).st ≠ .open_)
    (cls : Nat) (w : List Word) (m : Mark) :
    readyToken s t cls w m = if tBad w || decide (tPorts w ≤ t.port.toNat) then malformed s else discard s t := by
  simp [readyToken, closedToken, hd, hi]

/-- A template just read is at hand. -/
theorem tmplCached_of_fetched {s : State} {k : Nat} {w : List Word} (hc : tmplCached s k = none)
    (hf : s.disp.fetched = []) :
    tmplCached (modDisp s fun x => { x with fetched := [(k, w)], fetchQ := [] }) k = some w := by
  have hcache : s.disp.cache.find? (fun e => e.1 = k) = none := by simpa [tmplCached, hf] using hc
  simp [tmplCached, modDisp, List.find?_append, hcache]

/-- What the cache takes does not touch the tokens that wait. -/
theorem cacheAdd_emptied (d : DispSt) (k : Nat) (w : List Word) :
    cacheAdd { d with fetched := [], fetchQ := [] } k w = { cacheAdd d k w with fetched := [], fetchQ := [] } := by
  simp only [cacheAdd, apply_ite (fun d : DispSt => { d with fetched := [], fetchQ := [] })]

/-- The dispatcher after a template has been read for a token and no token waits any longer: the cache holds it if it is used. -/
def cacheRead (d : DispSt) (k : Nat) (w : List Word) : DispSt :=
  { (if tUsed w then cacheAdd d k w else d) with fetched := [], fetchQ := [] }

/-- Once no token waits, the one template at hand enters the cache if it is used (R94, R95). -/
theorem cacheFetched_of_one (s : State) (k : Nat) (w : List Word) :
    cacheFetched (modDisp s fun x => { x with fetched := [(k, w)], fetchQ := [] }) = modDisp s fun x => cacheRead x k w := by
  by_cases hu : tUsed w <;> simp [cacheFetched, modDisp, cacheRead, hu, cacheAdd_emptied]

/-- The token that waits, its template now read, is looked at again; then no token waits (R94, R95). -/
theorem retryTokens_of_read {u : State} {tok : Token} {cls : Nat} {m : Mark} (w : List Word)
    (hq : u.disp.fetchQ = [(tok, cls, m)]) (hf : u.disp.fetched = []) (hc : tmplCached u tok.template.toNat = none)
    (hi : (instRec u tok.inst.toNat).st ≠ .open_) (hd : tokDone tok = false) :
    retryTokens (modDisp u fun x => { x with fetched := x.fetched ++ [(tok.template.toNat, w)] }) =
      modDisp (if tBad w || decide (tPorts w ≤ tok.port.toNat) then malformed u else discard u tok) fun x =>
        cacheRead x tok.template.toNat w := by
  have hretry : retryTokens (modDisp u fun x => { x with fetched := x.fetched ++ [(tok.template.toNat, w)] }) =
      cacheFetched (stateToken (modDisp u fun x => { x with fetched := [(tok.template.toNat, w)], fetchQ := [] }) tok cls m) := by
    simp [retryTokens, modDisp, hq, hf]
  have hcached := tmplCached_of_fetched (w := w) hc hf
  rw [hretry, stateToken_of_atHand rfl hcached (tokMissing_of_closed hcached hi m), readyToken_of_closed hd (by exact hi),
    malformed_modDisp, discard, incCnt_modDisp, ← apply_ite (modDisp · _), cacheFetched_of_one]
  rfl

@[simp] theorem cacheAdd_fetched (d : DispSt) (k : Nat) (w : List Word) : (cacheAdd d k w).fetched = d.fetched := by
  simp only [cacheAdd, apply_ite DispSt.fetched, ite_self]

/-- With no template at hand besides the cache, the template read goes into the cache if it is used, and nowhere else. -/
theorem cacheRead_of_noneFetched {d : DispSt} (hf : d.fetched = []) (k : Nat) (w : List Word) :
    cacheRead d k w = { (if tUsed w then cacheAdd d k w else d) with fetchQ := [] } := by
  have hkept : (if tUsed w then cacheAdd d k w else d).fetched = [] := by
    split
    · exact (cacheAdd_fetched d k w).trans hf
    · exact hf
  simp only [cacheRead, hkept]

/-- The change of a state's dispatcher is what it makes of that dispatcher. -/
theorem modDisp_congr {s : State} {f g : DispSt → DispSt} (h : f s.disp = g s.disp) : modDisp s f = modDisp s g :=
  congrArg (fun d => { s with disp := d }) h

/-- Settles O21: the load pins what it found, and the read is at hand when its token is looked at again. -/
theorem templateReadsComplete : Obligations.TemplateReadsComplete := by
  refine ⟨fun s u ts hload hr hread hlen => execDispTemplateLoadDone_of_read hload hr hread hlen, ?fetch⟩
  intro t tok cls m s u d hr hq hf ht hc hread hdisp hi hd
  subst ht
  have hclosed : (instRec u tok.inst.toNat).st ≠ .open_ := by
    rw [instRec, hdisp]
    exact fun h => InstState.noConfusion (hi.symm.trans h)
  have hcu : tmplCached u tok.template.toNat = none := by
    rw [tmplCached, hdisp]
    exact hc
  have hfu : u.disp.fetched = [] := hdisp ▸ hf
  let w := tmplOfBytes d
  let v := if tBad w || decide (tPorts w ≤ tok.port.toNat) then malformed u else discard u tok
  have hv : v.disp = u.disp := by
    dsimp only [v]
    split
    · exact malformed_disp u
    · rfl
  calc exec (.templateFetchDone tok.template false) s
    _ = .next (retryTokens (modDisp u fun x => { x with fetched := x.fetched ++ [(tok.template.toNat, w)] })) :=
        execTemplateFetchDone_of_read hr hq (tokMissing_of_uncached hc m) hread
    _ = .next (modDisp v fun x => cacheRead x tok.template.toNat w) :=
        congrArg _ (retryTokens_of_read w (hdisp ▸ hq) hfu hcu hclosed hd)
    _ = .next (modDisp v fun _ =>
          { (if tUsed w then cacheAdd u.disp tok.template.toNat w else u.disp) with fetchQ := [] }) :=
        congrArg _ (modDisp_congr (by rw [hv, cacheRead_of_noneFetched hfu]))

end Sys2Proof.Machine

/-! Slot graphs: tokens reach the matching store (R102–R110). -/

namespace Sys2Proof.Machine

/-! ### The way of a token to the matching store (R95, R101, R119) -/

/-- A data token of an operation that the enabled dispatcher finds well formed, with its template `w` at hand and no other token
waiting for a template. -/
structure DataToken (s : State) (t : Token) (w : List Word) : Prop where
  running : enabled s 0x002 = true
  kind : t.kind = 0
  rsvd : t.rsvd = 0
  flags : t.flags.toNat % 16 = 0
  notDone : tokDone t = false
  noneWaits : s.disp.fetchQ = []
  cached : tmplCached s t.template.toNat = some w
  good : tBad w = false
  port : t.port.toNat < tPorts w

/-- A token that is well formed in itself meets its template. -/
theorem admitToken_of_wellFormed {s : State} {t : Token} (he : enabled s 0x002 = true) (hk : t.kind = 0) (hr : t.rsvd = 0)
    (hf : t.flags.toNat % 16 = 0) (cls : Nat) (m : Mark) : admitToken s t cls m = stateToken s t cls m := by
  simp [admitToken, he, hk, hr, hf]

/-- While the dispatcher is not enabled a token without DONE is discarded (R893). -/
theorem admitToken_of_disabled {s : State} {t : Token} (he : enabled s 0x002 = false) (hd : tokDone t = false) (cls : Nat)
    (m : Mark) : admitToken s t cls m = discard s t := by
  simp [admitToken, retireDone, he, hd]

section DataToken

variable {s : State} {t : Token} {w : List Word} (h : DataToken s t w)
include h

/-- A data token of a slot graph that is not OPEN is discarded (R119). -/
theorem DataToken.admitted_closed (hi : (instRec s t.inst.toNat).st ≠ .open_) (cls : Nat) (m : Mark) :
    admitToken s t cls m = discard s t := by
  rw [admitToken_of_wellFormed h.running h.kind h.rsvd h.flags,
    stateToken_of_atHand h.noneWaits h.cached (tokMissing_of_closed h.cached hi m), readyToken_of_closed h.notDone hi]
  simp [h.good, Nat.not_le.mpr h.port]

/-- A data token whose entry holds no error token needs its target alone. -/
theorem DataToken.tokMissing (herr : ∀ e, entryOf s t.template.toNat t.inst.toNat = some e → errPort e = none) :
    tokMissing s t .clean = none := by
  simp only [Machine.tokMissing, h.cached, h.notDone, h.kind]
  cases he : entryOf s t.template.toNat t.inst.toNat with
  | none => simp
  | some e => simp [herr e he]

/-- A data token of an OPEN slot graph reaches the matching store. -/
theorem DataToken.admitted_open (hi : (instRec s t.inst.toNat).st = .open_)
    (herr : ∀ e, entryOf s t.template.toNat t.inst.toNat = some e → errPort e = none) (cls : Nat) :
    admitToken s t cls .clean = matchToken s t cls w .clean := by
  rw [admitToken_of_wellFormed h.running h.kind h.rsvd h.flags, stateToken_of_atHand h.noneWaits h.cached (h.tokMissing herr)]
  simp [readyToken, h.good, Nat.not_le.mpr h.port, h.notDone, hi]

end DataToken

/-! ### The ingress in hardware mode (R110) -/

/-- The dispatcher with a token taken from the ingress and counted. -/
def received (s : State) (t : Token) (cls : Nat) : State := incCnt (takeIngress s t cls) 0x002 0

/-- With no token held back, a token of the ingress is admitted. -/
theorem acceptToken_of_hardware {s : State} (hha : haActive s 0x002 = false) (hheld : s.disp.held = []) (t : Token) (cls : Nat)
    (m : Mark) : acceptToken (takeIngress s t cls) t cls m = admitToken (received s t cls) t cls m := by
  have hmode : haActive (received s t cls) 0x002 = false := hha
  have hnone : (received s t cls).disp.held = [] := hheld
  show (if haActive (received s t cls) 0x002 then _ else if _ && (received s t cls).disp.held.any _ then _ else _) = _
  rw [hmode, hnone, if_neg (by decide), List.any_nil, Bool.and_false, if_neg (by decide)]
  rfl

/-- A token alone in its cycle keeps its place (R105). -/
theorem raceTie_singleton (s : State) (x : TokIn) : raceTie s [x] = [x] := by
  cases hx : tokDone x.tok <;> simp [raceTie, sameOp, insertPort, hx]

/-- One token reaches the dispatcher. -/
theorem exec_dispToken_singleton {s : State} (hr : blockRuns s 0x002 = true) (x : TokIn) :
    exec (.dispToken [x]) s = .next (acceptToken (takeIngress s x.tok x.cls) x.tok x.cls x.store) := by
  show Host.Outcome.next (whileRuns 0x002 (fun s => (raceTie s [x]).foldl _ s) s) = _
  rw [whileRuns_of_runs hr, raceTie_singleton]
  rfl

/-! ### Entries of the matching store -/

theorem setAt_eq_set {α : Type} (l : List α) (i : Nat) (v : α) : setAt l i v = l.set i v := by
  induction l generalizing i with
  | nil => rfl
  | cons x l ih =>
    cases i with
    | zero => rfl
    | succ i => exact congrArg (x :: ·) (ih i)

/-- An entry with a token at its port. -/
def withToken (e : Entry) (t : Token) : Entry :=
  { e with ports := setAt e.ports t.port.toNat (some ⟨t.kind, t.payload⟩) }

/-- A port that has no token, and took none late, keeps the operation waiting. -/
theorem allArrived_false_of_port {e : Entry} {q : Nat} (hq : e.ports[q]? = some none) (hl : e.late = []) :
    allArrived e = false := by
  refine List.all_eq_false.mpr ⟨(none, q), List.mk_mem_zipIdx_iff_getElem?.mpr hq, ?_⟩
  simp [hl]

/-- A data token adds no error to an entry. -/
theorem errPort_withToken {e : Entry} {t : Token} (hk : t.kind = 0) (h : errPort e = none) : errPort (withToken e t) = none := by
  refine List.find?_eq_none.mpr fun v hv => ?_
  obtain ⟨x, hx, rfl⟩ := List.mem_filterMap.mp hv
  rw [withToken, setAt_eq_set] at hx
  rcases List.mem_or_eq_of_mem_set hx with hold | hnew
  · exact List.find?_eq_none.mp h v (List.mem_filterMap.mpr ⟨_, hold, rfl⟩)
  · cases hnew
    simp [hk]

/-- The entry of an operation is its own. -/
theorem entryOf_key {s : State} {k i : Nat} {e : Entry} (h : entryOf s k i = some e) :
    e ∈ s.disp.entries ∧ e.tmpl = k ∧ e.inst = i :=
  ⟨List.mem_of_find?_eq_some h, by simpa using List.find?_some h⟩

/-- An entry that is stored in place of its operation's is in the store. -/
theorem mem_setEntry {s : State} {e x : Entry} (hx : x ∈ s.disp.entries) (hk : x.tmpl = e.tmpl ∧ x.inst = e.inst) :
    e ∈ (setEntry s e).disp.entries :=
  List.mem_map.mpr ⟨x, hx, if_pos hk⟩

/-- An entry that is stored in place of the newest one leaves the others. -/
theorem setEntry_entries_newest {s : State} {es : List Entry} {e x : Entry} (hs : s.disp.entries = es ++ [x])
    (hk : x.tmpl = e.tmpl ∧ x.inst = e.inst) (hes : ∀ y ∈ es, ¬ (y.tmpl = e.tmpl ∧ y.inst = e.inst)) :
    (setEntry s e).disp.entries = es ++ [e] := by
  have hold : es.map (fun y => if y.tmpl = e.tmpl ∧ y.inst = e.inst then e else y) = es :=
    (List.map_congr_left fun y hy => if_neg (hes y hy)).trans (List.map_id' es)
  simp only [setEntry, modDisp, hs, List.map_append, hold, List.map_cons, List.map_nil, if_pos hk]

/-- An operation without entry has none in the store. -/
theorem not_key_of_entryOf_none {s : State} {k i : Nat} (h : entryOf s k i = none) :
    ∀ y ∈ s.disp.entries, ¬ (y.tmpl = k ∧ y.inst = i) := by
  simpa [entryOf] using h

/-! ### The first token of an operation (R102, R123) -/

/-- The entry that an operation's first token takes. -/
def firstEntry (s : State) (t : Token) (w : List Word) : Entry :=
  ⟨t.template.toNat, t.inst.toNat, List.replicate (tPorts w) none, .waiting, tRace w, tPool w, tUrg w, 0, s.time.free, 0, w, []⟩

/-- The store with one more entry; one above the slot graph's peak is reported (R123). -/
def storeEntry (s : State) (e : Entry) : State :=
  modDisp (if (instRec s e.inst).peak ≤ instEntries s e.inst then setEvt s 0x002 1 else s) fun d =>
    { d with entries := d.entries ++ [e], occPeak := max d.occPeak (d.entries.length + 1) }

/-- Of the dispatcher's state a new entry changes the store alone. -/
@[simp] theorem storeEntry_disp (s : State) (e : Entry) : (storeEntry s e).disp =
    { s.disp with entries := s.disp.entries ++ [e], occPeak := max s.disp.occPeak (s.disp.entries.length + 1) } := by
  unfold storeEntry
  split <;> rfl

@[simp] theorem storeEntry_time (s : State) (e : Entry) : (storeEntry s e).time = s.time := by
  unfold storeEntry
  split <;> rfl

/-- A store with room takes the entry. -/
theorem newEntry_of_room {s : State} (h : s.disp.entries.length < 32768) (t : Token) (w : List Word) :
    newEntry s t w = (storeEntry s (firstEntry s t w), some (firstEntry s t w)) := if_neg (Nat.not_le.mpr h)

/-- The first data token of an operation, where the store has room, reaches a new entry. -/
theorem matchToken_of_first {s : State} {t : Token} (hnone : entryOf s t.template.toNat t.inst.toNat = none) (hk : t.kind = 0)
    (hroom : s.disp.entries.length < 32768) (cls : Nat) (w : List Word) (m : Mark) :
    matchToken s t cls w m = arriveAt (storeEntry s (firstEntry s t w)) t (firstEntry s t w) := by
  simp [matchToken, hnone, hk, newEntry_of_room hroom]

/-- A further data token of an operation reaches its entry. -/
theorem matchToken_of_entry {s : State} {t : Token} {e : Entry} (he : entryOf s t.template.toNat t.inst.toNat = some e)
    (hk : t.kind = 0) (cls : Nat) (w : List Word) : matchToken s t cls w .clean = arriveAt s t e := by
  simp [matchToken, he, hk]

/-- A data token fills the free port of a waiting entry: a RACE is ready with it, a JOIN with its last one (R103,
R104). -/
theorem arriveAt_of_freePort {t : Token} {e : Entry} (hw : e.phase = .waiting) (hk : t.kind = 0)
    (hp : e.ports[t.port.toNat]? = some none) (s : State) :
    arriveAt s t e =
      if e.race then
        makeReady (if t.port.toNat = 0 then setEntry s (withToken e t) else incCnt (setEntry s (withToken e t)) 0x002 2)
          (withToken e t) t.port.toNat
      else if allArrived (withToken e t) then joinReady (setEntry s (withToken e t)) (withToken e t)
      else setEntry s (withToken e t) := by
  simp [arriveAt, hw, hk, hp, withToken]

/-! ### Entries that become ready (R103, R104, R106) -/

/-- An entry in the ready order, with its age begun (R114, R116). -/
def readyEntry (s : State) (e : Entry) (first : Nat) : Entry :=
  { e with phase := .ready, first := first, since := s.time.free, seq := s.disp.nextSeq }

theorem makeReady_entries (s : State) (e : Entry) (first : Nat) :
    (makeReady s e first).disp.entries = (setEntry s (readyEntry s e first)).disp.entries := rfl

/-- A token at a free port of a RACE makes its entry ready, and is its first (R104). -/
theorem arriveAt_entries_of_race {t : Token} {e : Entry} (hrace : e.race = true) (hw : e.phase = .waiting) (hk : t.kind = 0)
    (hp : e.ports[t.port.toNat]? = some none) (s : State) :
    (arriveAt s t e).disp.entries =
      (setEntry (setEntry s (withToken e t)) (readyEntry s (withToken e t) t.port.toNat)).disp.entries := by
  rw [arriveAt_of_freePort hw hk hp, if_pos hrace, makeReady_entries]
  split <;> rfl

/-- A JOIN without an error token is ready. -/
theorem joinReady_of_noError {e : Entry} (h : errPort e = none) (s : State) : joinReady s e = makeReady s e 0 := by
  rw [joinReady, h]

/-- The last token of a JOIN makes its entry ready (R103, R106). -/
theorem matchToken_last {s : State} {t : Token} {e : Entry} (he : entryOf s t.template.toNat t.inst.toNat = some e)
    (hk : t.kind = 0) (hw : e.phase = .waiting) (hjoin : e.race = false) (herr : errPort e = none)
    (hp : e.ports[t.port.toNat]? = some none) (hall : allArrived (withToken e t) = true) (cls : Nat) (w : List Word) :
    matchToken s t cls w .clean = makeReady (setEntry s (withToken e t)) (withToken e t) 0 := by
  rw [matchToken_of_entry he hk, arriveAt_of_freePort hw hk hp, hjoin, if_neg (by decide), if_pos hall,
    joinReady_of_noError (errPort_withToken hk herr)]

section FirstToken

variable {s : State} {t : Token} {w : List Word} (hnone : entryOf s t.template.toNat t.inst.toNat = none)
include hnone

/-- A first token stands in its entry, behind those of the other operations. -/
theorem firstToken_entries : (setEntry (storeEntry s (firstEntry s t w)) (withToken (firstEntry s t w) t)).disp.entries =
    s.disp.entries ++ [withToken (firstEntry s t w) t] :=
  setEntry_entries_newest (congrArg DispSt.entries (storeEntry_disp s _)) ⟨rfl, rfl⟩ (not_key_of_entryOf_none hnone)

variable (hk : t.kind = 0) (hroom : s.disp.entries.length < 32768) (hp : t.port.toNat < tPorts w)
include hk hroom hp

/-- A first token of a JOIN of more ports waits in its entry (R103). -/
theorem matchToken_first_join (hjoin : tRace w = false) (hports : 2 ≤ tPorts w) (cls : Nat) (m : Mark) :
    matchToken s t cls w m = setEntry (storeEntry s (firstEntry s t w)) (withToken (firstEntry s t w) t) := by
  have hother : ∃ q, q < tPorts w ∧ t.port.toNat ≠ q := by
    by_cases h0 : t.port.toNat = 0
    · exact ⟨1, by omega, by omega⟩
    · exact ⟨0, by omega, h0⟩
  obtain ⟨q, hq, hne⟩ := hother
  have hwaits : allArrived (withToken (firstEntry s t w) t) = false :=
    allArrived_false_of_port (q := q) (by simp [withToken, firstEntry, setAt_eq_set, hne, hq]) rfl
  rw [matchToken_of_first hnone hk hroom, arriveAt_of_freePort rfl hk (by simp [firstEntry, hp]),
    if_neg (by simp [firstEntry, hjoin]), if_neg (by simp [hwaits])]

/-- A first token of a RACE makes its entry ready at once, whatever its port (R104). -/
theorem matchToken_first_race (hrace : tRace w = true) (cls : Nat) (m : Mark) :
    (matchToken s t cls w m).disp.entries =
      s.disp.entries ++ [readyEntry s (withToken (firstEntry s t w) t) t.port.toNat] := by
  have hready : readyEntry (storeEntry s (firstEntry s t w)) (withToken (firstEntry s t w) t) t.port.toNat =
      readyEntry s (withToken (firstEntry s t w) t) t.port.toNat := by simp [readyEntry]
  rw [matchToken_of_first hnone hk hroom, arriveAt_entries_of_race hrace rfl hk (by simp [firstEntry, hp]), hready]
  exact setEntry_entries_newest (firstToken_entries hnone) ⟨rfl, rfl⟩ (not_key_of_entryOf_none hnone)

end FirstToken

/-- Settles O19: the token is admitted; a first one takes an entry, which waits or is ready as its rule says, and the last one of
a JOIN makes the entry ready. -/
theorem tokenMatches : Obligations.TokenMatches := by
  intro x w s t k i p hr hha he hheld hq hk hrs hf hd hstore hi hc hb hp hroom
  let r := received s t x.cls
  have hdata : DataToken r t w := ⟨he, hk, hrs, hf, hd, hq, hc, hb, hp⟩
  have hexec (herr : ∀ e, entryOf r k i = some e → errPort e = none) :
      exec (.dispToken [x]) s = .next (matchToken r t x.cls w .clean) := by
    rw [exec_dispToken_singleton hr, hstore, acceptToken_of_hardware hha hheld, hdata.admitted_open hi herr]
  refine ⟨fun hnone _ _ => ?first, fun e hent hw hjoin herr hfree hall => ?last⟩
  case first =>
    have hnone : entryOf r k i = none := hnone
    refine ⟨_, hexec (by simp [hnone]), ?_⟩
    rintro (⟨hjoin, hports⟩ | hrace)
    · have hrace : ¬ tRace w = true := by simp [hjoin]
      rw [matchToken_first_join hnone hk hroom hp hjoin hports, firstToken_entries hnone, if_neg hrace, if_neg hrace, if_neg hrace]
      rfl
    · rw [matchToken_first_race hnone hk hroom hp hrace, if_pos hrace, if_pos hrace, if_pos hrace]
      rfl
  case last =>
    have hent : entryOf r k i = some e := hent
    obtain ⟨hmem, htmpl, hinst⟩ := entryOf_key hent
    refine ⟨_, readyEntry r (withToken e t) 0, hexec (by simp [hent, herr]), ?_, htmpl, hinst, rfl, rfl, rfl, rfl⟩
    rw [matchToken_last hent hk hw hjoin herr hfree hall]
    exact mem_setEntry (mem_setEntry hmem ⟨rfl, rfl⟩) ⟨rfl, rfl⟩

end Sys2Proof.Machine

/-! Slot graphs: completion tokens and their successors (R97, R113), and the ingress that goes on (R124, R150, R151). -/

namespace Sys2Proof.Machine

/-! ### The successors of an operation (R97, R98) -/

/-- A list whose elements all satisfy a test is taken whole. -/
theorem takeWhile_of_all {α : Type} {p : α → Bool} {l : List α} (h : ∀ x ∈ l, p x = true) : l.takeWhile p = l := by
  induction l with
  | nil => rfl
  | cons x l ih =>
    rw [List.takeWhile_cons_of_pos (h x List.mem_cons_self), ih fun y hy => h y (List.mem_cons_of_mem x hy)]

/-- A template without LINK has its whole list in its own words. -/
theorem succWords_of_noLink {w : List Word} (h : tLink w = none) (s : State) (n : Nat) : succWords s n w = (tSuccs w, false) := by
  have hnone : ∀ x ∈ tSuccs w, sLink x = false := by simpa [tLink] using h
  have hown : (tSuccs w).takeWhile (fun x => !sLink x) = tSuccs w :=
    takeWhile_of_all fun x hx => by simp [hnone x hx]
  cases n <;> simp [succWords, h, hown]

/-- A list without LINK asks for no further template. -/
theorem chainMissing_of_noLink {w : List Word} (h : tLink w = none) (s : State) (n : Nat) : chainMissing s n w = none := by
  cases n <;> simp [chainMissing, h]

/-- The tokens that an operation sends to its successors, each in its target's class. -/
def succTokens (s : State) (inst : Nat) (w : List Word) (kind : BitVec 2) (payload : Dword) : List (Token × Nat) :=
  (tSuccs w).map fun x =>
    (⟨BitVec.ofNat 16 (bits x 31 16), BitVec.ofNat 16 inst, BitVec.ofNat 2 (bits x 15 14), kind, 0, 0, payload⟩,
      tUrg (tmplWords s (bits x 31 16)))

/-- The successors of a list without LINK and CLOSE enter the ingress in list order, and the slot graph stays as it is. -/
theorem sendSuccs_of_plain {w : List Word} (hl : tLink w = none) (hc : (tSuccs w).any sClose = false) (s : State) (inst : Nat)
    (kind : BitVec 2) (payload : Dword) :
    sendSuccs s inst w kind payload = modDisp s fun d => { d with ingress := d.ingress ++ succTokens s inst w kind payload } := by
  have hnone : ∀ x ∈ tSuccs w, sClose x = false := by simpa using hc
  have hopen : (tSuccs w).filter (fun x => !sClose x) = tSuccs w :=
    List.filter_eq_self.mpr fun x hx => by simp [hnone x hx]
  simp [sendSuccs, sendTokens, succWords_of_noLink hl, hc, hopen, succTokens]

theorem getBytes_of_mem {s u : State} (h : s.mem = u.mem) (a n : Nat) : getBytes s a n = getBytes u a n := by
  induction n generalizing a with
  | zero => rfl
  | succ n ih => rw [getBytes, getBytes, ih, getByte, getByte, h]

theorem getHostBytes_of_hostMem {s u : State} (h : s.hostMem = u.hostMem) (a n : Nat) :
    getHostBytes s a n = getHostBytes u a n := by
  induction n generalizing a with
  | zero => rfl
  | succ n ih => rw [getHostBytes, getHostBytes, ih, getHost, getHost, h]

/-- The address map depends on the registers, and on the core map and its fuses (R41–R44). -/
theorem region_congr {s u : State} (hregs : s.regs = u.regs) (hmap : s.coreMap = u.coreMap) (hfuses : s.fuses = u.fuses)
    (a : Nat) : region s a = region u a := by
  have hcfg : memCfg s = memCfg u := by rw [memCfg, getReg, getRegI, hregs, memCfg, getReg, getRegI]
  have hbytes : dramChanBytes s = dramChanBytes u := by rw [dramChanBytes, hcfg, dramChanBytes]
  have hdram : dramUsable s = dramUsable u := by rw [dramUsable, hcfg, hbytes, dramUsable]
  have hcores (c : Nat) : coreMapOf s c = coreMapOf u c := by rw [coreMapOf, hmap, hfuses, coreMapOf]
  have hphys (c : Nat) : physOf s c = physOf u c := by rw [physOf, hcores, physOf]
  unfold region
  simp only [hdram, hphys]

/-- The words of a template are those of the cache, or of the memory at its address. -/
theorem tmplWords_congr {s u : State} (hcache : s.disp.cache = u.disp.cache) (hfetched : s.disp.fetched = u.disp.fetched)
    (hregs : s.regs = u.regs) (hmem : s.mem = u.mem) (hhost : s.hostMem = u.hostMem) (hmap : s.coreMap = u.coreMap)
    (hfuses : s.fuses = u.fuses) (k : Nat) : tmplWords s k = tmplWords u k := by
  have hcached : tmplCached s k = tmplCached u k := by simp only [tmplCached, hcache, hfetched]
  have haddr : tmplAddr s k = tmplAddr u k := by simp only [tmplAddr, getPair, getReg, getRegI, hregs]
  unfold tmplWords
  simp only [hcached, haddr, region_congr hregs hmap hfuses, getBytes_of_mem hmem, getHostBytes_of_hostMem hhost]

/-! ### Completion tokens (R100, R113) -/

/-- A completion token of a list without LINK needs its target alone. -/
theorem tokMissing_of_noLink {s : State} {t : Token} {w : List Word} (hc : tmplCached s t.template.toNat = some w)
    (hl : tLink w = none) (m : Mark) : tokMissing s t m = none := by
  simp [tokMissing, hc, chainMissing_of_noLink hl]

/-- A fire of an OPEN slot graph that ends returns its credit and is no longer outstanding. -/
theorem retire_of_open {s : State} {f : OutFire} (hcount : f.counted = true) (hopen : (instRec s f.inst).st = .open_) :
    retire s f = setInst (modDisp s fun d => { d with fires := dropFirst (fun g => decide (g = f)) d.fires }) f.inst
      { instRec s f.inst with outstanding := (instRec s f.inst).outstanding - 1 } := by
  have hnot : ¬ ((instRec s f.inst).st = .closing ∧ (instRec s f.inst).outstanding ≤ 1) := by simp [hopen]
  unfold retire
  rw [if_pos hcount]
  exact if_neg hnot

/-- A change of the dispatcher's state and of the counters alone, with the same templates in the cache, leaves every template. -/
theorem tmplWords_of_frame {s u : State} (h : To 32784 s u) (hcache : u.disp.cache = s.disp.cache)
    (hfetched : u.disp.fetched = s.disp.fetched) (k : Nat) : tmplWords u k = tmplWords s k :=
  tmplWords_congr hcache hfetched (h.regs rfl) (h.mem rfl) (h.hostMem rfl) (h.coreMap rfl) (h.fuses rfl) k

/-- The end of a fire leaves the templates as they are. -/
theorem tmplWords_retire {s : State} {f : OutFire} (hcount : f.counted = true) (hopen : (instRec s f.inst).st = .open_) (k : Nat) :
    tmplWords (retire s f) k = tmplWords s k := by
  rw [retire_of_open hcount hopen]
  exact tmplWords_of_frame (setInst_to (by decide) (modDisp_to (by decide) (To.refl _ s))) rfl rfl k

theorem received_disp (s : State) (t : Token) (cls : Nat) : (received s t cls).disp =
    { s.disp with ingress := dropFirst (fun x => decide (x = (t, cls))) s.disp.ingress } := rfl

/-- A token that comes leaves the templates as they are. -/
theorem tmplWords_received (s : State) (t : Token) (cls k : Nat) : tmplWords (received s t cls) k = tmplWords s k := by
  have hto : To 32784 s (received s t cls) := incCnt_to (by decide) (takeIngress_to (by decide) (To.refl _ s))
  exact tmplWords_of_frame hto (by rw [received_disp]) (by rw [received_disp]) k

/-- The fire that a token ends is of the token's slot graph. -/
theorem fireOf_inst {s : State} {t : Token} {f : OutFire} (h : fireOf s t = some f) : f.inst = t.inst.toNat := by
  have hkey := List.find?_some h
  simp only [decide_eq_true_eq] at hkey
  exact hkey.2

/-- A completion token that carries data, of an OPEN slot graph, that ends the fire `f` of its template `w`: the fire counts and is
not cancelled, and the template's list goes on in no other. -/
structure DoneToken (s : State) (t : Token) (w : List Word) (f : OutFire) : Prop where
  running : enabled s 0x002 = true
  kind : t.kind = 0
  rsvd : t.rsvd = 0
  flags : t.flags = 0x80
  noneWaits : s.disp.fetchQ = []
  opened : (instRec s t.inst.toNat).st = .open_
  cached : tmplCached s t.template.toNat = some w
  good : tBad w = false
  noLink : tLink w = none
  fire : fireOf s t = some f
  counted : f.counted = true
  notCancelled : f.cancel = false

/-- A completion token ends its fire, and its data goes to the successors (R97). -/
theorem DoneToken.admitted {s : State} {t : Token} {w : List Word} {f : OutFire} (h : DoneToken s t w f) (cls : Nat) (m : Mark) :
    admitToken s t cls m = sendSuccs (retire s f) t.inst.toNat w 0 t.payload := by
  have hdone : tokDone t = true := by rw [tokDone, h.flags]; rfl
  have hflags : t.flags.toNat % 16 = 0 := by rw [h.flags]; rfl
  rw [admitToken_of_wellFormed h.running h.kind h.rsvd hflags,
    stateToken_of_atHand h.noneWaits h.cached (tokMissing_of_noLink h.cached h.noLink m)]
  simp [readyToken, completeToken, h.good, hdone, h.opened, h.fire, h.counted, h.notCancelled, h.kind]

/-! ### Held tokens (R124, R150, R151) -/

/-- The state with a held token let go. -/
def released (s : State) (t : Token) (cls : Nat) : State :=
  modDisp s fun d => { d with held := dropFirst (fun x => decide (x = (t, cls))) d.held }

/-- In hardware mode the oldest held token of the class enters where the store has room (R124). -/
theorem unstallSt_of_hardware {s : State} {u : Nat} {t : Token} (hha : haActive s 0x002 = false)
    (hheld : s.disp.held.find? (fun h => h.2 = u) = some (t, u)) :
    unstallSt u s = if 32768 ≤ s.disp.entries.length then s else admitToken (released s t u) t u .clean := by
  simp [unstallSt, heldNext, hha, hheld, released]

/-- In host-assisted mode the oldest held token enters where the ring is not full (R151). -/
theorem unstallSt_of_hostAssisted {s : State} {t : Token} {c : Nat} (hha : haActive s 0x002 = true)
    (hheld : s.disp.held.head? = some (t, c)) (hgood : hostRingBad s = false) (u : Nat) :
    unstallSt u s = if hostRing.full s then s else exportToken (released s t c) t := by
  simp [unstallSt, heldNext, hha, hheld, released, hgood]

/-- The oldest held token leaves the others behind it. -/
theorem released_of_head {s : State} {t : Token} {c : Nat} (h : s.disp.held.head? = some (t, c)) :
    released s t c = { s with disp := { s.disp with held := s.disp.held.tail } } := by
  obtain ⟨rest, hheld⟩ := List.head?_eq_some_iff.mp h
  simp [released, modDisp, hheld, dropFirst]

/-- A token without DONE enters a ring in its range, and one that fills the ring sets HA_RING_FULL (R150, R151). -/
theorem exportToken_of_inRange {s : State} {t : Token} (hgood : hostRingBad s = false) (hd : tokDone t = false) :
    exportToken s t =
      if hostRing.full (hostRing.push s (tokenBytes t)) then setEvt (hostRing.push s (tokenBytes t)) 0x002 5
      else hostRing.push s (tokenBytes t) := by
  simp [exportToken, retireDone, hd, hgood]

/-- Settles O20: the completion token is admitted and ends its fire; the held token that the mode names enters where there is room,
or stays. The case of host-assisted mode, where the filling push sets HA_RING_FULL at once, and the order of the successors are
the model's (logs 27, 31, 32). -/
theorem completionAndUnstallComplete : Obligations.CompletionAndUnstallComplete := by
  refine ⟨?completion, ?unstall, ?hostRing⟩
  case completion =>
    intro t cls w f s hr hha he hheld hq hk hrs hfl hi hc hb hl hclose hf hcount hcancel
    let r := received s t cls
    have hopen : (instRec r f.inst).st = .open_ := by
      rw [fireOf_inst hf]
      exact hi
    have hdone : DoneToken r t w f := ⟨he, hk, hrs, hfl, hq, hi, hc, hb, hl, hf, hcount, hcancel⟩
    have hexec : exec (.completionToken t cls) s = .next (sendSuccs (retire r f) t.inst.toNat w 0 t.payload) := by
      show Host.Outcome.next (whileRuns 0x002 _ s) = _
      rw [whileRuns_of_runs hr, acceptToken_of_hardware hha hheld, hdone.admitted]
    have hwords (k : Nat) : tmplWords (retire r f) k = tmplWords s k :=
      (tmplWords_retire hcount hopen k).trans (tmplWords_received s t cls k)
    have hkept : (retire r f).disp.ingress = dropFirst (fun y => decide (y = (t, cls.val))) s.disp.ingress := by
      rw [retire_of_open hcount hopen]
      rfl
    refine ⟨_, hexec, ?fires, ?ingress⟩
    case fires =>
      rw [sendSuccs_of_plain hl hclose, retire_of_open hcount hopen]
      rfl
    case ingress =>
      rw [sendSuccs_of_plain hl hclose]
      show (retire r f).disp.ingress ++ succTokens (retire r f) t.inst.toNat w 0 t.payload = _
      simp only [succTokens, hwords, hkept, BitVec.ofNat_toNat, BitVec.setWidth_eq]
  case unstall =>
    intro u t s hr hha hheld r
    have hexec : exec (.ingressUnstall u) s = .next (if 32768 ≤ s.disp.entries.length then s else admitToken r t u .clean) :=
      congrArg Host.Outcome.next ((whileRuns_of_runs hr _).trans (unstallSt_of_hardware hha hheld))
    refine ⟨fun hfull => by rw [hexec, if_pos hfull], fun hroom => ?room⟩
    have henters {v : State} (h : admitToken r t u .clean = v) : exec (.ingressUnstall u) s = .next v := by
      rw [hexec, if_neg (Nat.not_le.mpr hroom), h]
    refine ⟨henters rfl, fun he hd => henters (admitToken_of_disabled (s := r) he hd u .clean),
      fun w he hk hrs hfl hd hq hc hb hp => ?enabled⟩
    have hdata : DataToken r t w := ⟨he, hk, hrs, hfl, hd, hq, hc, hb, hp⟩
    refine ⟨fun hi => henters (hdata.admitted_closed hi u .clean), fun hi hnone _ hjoin hports => ?first⟩
    have hnone : entryOf r t.template.toNat t.inst.toNat = none := hnone
    refine ⟨_, henters ((hdata.admitted_open hi (by simp [hnone]) u).trans
      (matchToken_first_join hnone hk hroom hp hjoin hports u .clean)), ?held, (firstToken_entries hnone).trans ?entry⟩
    case held =>
      show (storeEntry r (firstEntry r t w)).disp.held = r.disp.held
      rw [storeEntry_disp]
    case entry => rw [withToken, firstEntry, hjoin]
  case hostRing =>
    intro u t c s hr hha hheld hgood hd
    have hexec : exec (.ingressUnstall u) s = .next (if hostRing.full s then s else exportToken (released s t c) t) :=
      congrArg Host.Outcome.next ((whileRuns_of_runs hr _).trans (unstallSt_of_hostAssisted hha hheld hgood u))
    refine ⟨fun hfull => by rw [hexec, if_pos hfull], fun hfree => ?_⟩
    rw [hexec, hfree, if_neg (by decide), exportToken_of_inRange (s := released s t c) hgood hd, released_of_head hheld]

end Sys2Proof.Machine

/-! Slot graphs: the issue of fires and age promotion (R112–R116). -/

namespace Sys2Proof.Machine

/-- The way of a fire to its member leaves the dispatcher as it is. -/
@[simp] theorem routeFire_disp (s : State) (f : FireRec) : (routeFire s f).disp = s.disp :=
  (routeFire_to (Nat.or_self _) (To.refl _ s)).disp rfl

/-- A fire that leaves holds one credit of its member, and of the dispatcher's state nothing else changes. -/
theorem issueFire_disp (s : State) (f : FireRec) (counted : Bool) :
    (issueFire s f counted).disp = { s.disp with fires := s.disp.fires ++ [⟨f.template.toNat, f.inst.toNat, f.pool.toNat,
      f.member.toNat, creditChan f.pool.toNat f.opcode.toNat, false, counted⟩] } := by
  unfold issueFire
  rw [routeFire_disp]
  split <;> rfl

/-- OPCODE has 16 bits. -/
theorem tOpcode_lt (w : List Word) : tOpcode w < 2 ^ 16 := Nat.mod_lt _ (by decide)

/-- The fire record of an entry carries its template's OPCODE whole. -/
theorem entryRecord_opcode (s : State) (e : Entry) (m : Nat) : (entryRecord s e m).opcode.toNat = tOpcode e.words :=
  (BitVec.toNat_ofNat _ _).trans (Nat.mod_eq_of_lt (tOpcode_lt _))

/-- The credit that the fire of an entry holds. -/
def entryFire (e : Entry) (m : Nat) : OutFire :=
  ⟨e.tmpl % 2 ^ 16, e.inst % 2 ^ 16, e.pool % 16, m % 256, creditChan (e.pool % 16) (tOpcode e.words), false, true⟩

/-- A JOIN that issues leaves the store and holds a credit, its slot graph has one more fire outstanding, and its template's
next choice starts behind the member (R102, R112, R113). -/
theorem issueEntry_disp_of_join {s : State} {e : Entry} (h : e.race = false) (m : Nat) :
    (issueEntry s e m).disp = { s.disp with
      entries := s.disp.entries.filter fun x => !(decide (x.tmpl = e.tmpl) && decide (x.inst = e.inst))
      fires := s.disp.fires ++ [entryFire e m]
      insts := kset InstRec.init s.disp.insts e.inst
        { instRec s e.inst with outstanding := (instRec s e.inst).outstanding + 1 }
      prev := kset 0 s.disp.prev e.tmpl (m + 1) } := by
  unfold issueEntry
  simp only [h, Bool.not_false, Bool.true_or, if_true]
  rw [issueFire_disp, entryRecord_opcode]
  rfl

/-- A pool with one candidate, a ready entry, issues it. -/
theorem execFireIssue_of_entry {s : State} {pool : Fin 16} {e : Entry} {m : Nat} (hgo : s.disp.stopped = false)
    (hr : blockRuns s 0x002 = true) (hc : candidates s pool = [.entry e m]) :
    execFireIssue pool s = .next (issueEntry s e m) := by
  simp only [execFireIssue, hgo, hr, hc, Bool.not_true, Bool.or_self, Bool.false_eq_true, if_false, List.foldl_nil]

/-- An entry older than AGE_LIMIT rises one class (R116). -/
theorem execAgePromotion_of_old {s : State} {t inst : BitVec 16} {e : Entry} (he : entryOf s t.toNat inst.toNat = some e)
    (hold : e.phase = .ready ∧ 2 ≤ e.cls ∧ bits (getReg s 0x002 0x118) 15 0 ≠ 0 ∧
      usSince s e.since (bits (getReg s 0x002 0x118) 15 0)) :
    execAgePromotion t inst s = .next (incCnt (setEntry s { e with cls := e.cls - 1, since := s.time.free }) 0x002 11) := by
  simp only [execAgePromotion, he]
  exact if_pos hold

/-- Settles O22: the pool's one candidate issues, and the old entry is promoted. -/
theorem issueAndPromotionComplete : Obligations.IssueAndPromotionComplete := by
  refine ⟨fun pool e m s hgo hr hc hjoin => ⟨issueEntry s e m, execFireIssue_of_entry hgo hr hc, ?_⟩,
    fun t inst e s he hready hcls hlim hage => execAgePromotion_of_old he ⟨hready, hcls, hlim, hage⟩⟩
  rw [issueEntry_disp_of_join hjoin]
  exact ⟨rfl, rfl, rfl, rfl⟩

end Sys2Proof.Machine

/-! Spare lanes: the commands of SUB_CMD and what follows them (R179, R181, R182, R225, R685). -/

namespace Sys2Proof.Machine

/-- ARM of an idle page wakes the spare with the target's TX_TAPS and receiver settings (R225). -/
theorem subArmSt_of_idle {s : State} {j : Nat} (h : (subOf s j).st = 0) :
    subArmSt j s =
      let t := setLn s (0x120 + j) 0 0x08 (lnReg s (subTarget s j).1 (subTarget s j).2 0x08)
      let u := setLn t (0x120 + j) 0 0x0C (lnReg t (subTarget s j).1 (subTarget s j).2 0x0C)
      askPower (0x120 + j) 0 0 (setSub u j ⟨1, false, s.time.free⟩) :=
  (if_neg (by omega)).trans (if_pos h)

/-- ARM of a failed page only returns it to IDLE (log 35). -/
theorem subArmSt_of_failed {s : State} {j : Nat} (h : (subOf s j).st = 4) : subArmSt j s = setSub s j SubSt.init := if_pos h

/-- A spare that locks within 1 ms of ARM is READY. -/
theorem subReadySt_of_inTime {s : State} {j : Nat} (h : (subOf s j).st = 1) (ht : usSince s (subOf s j).since 1000 = false) :
    subReadySt j s = setEvt (setSub s j { subOf s j with st := 2 }) (0x120 + j) 0 := if_pos ⟨h, by rw [ht]; rfl⟩

/-- 1 ms after ARM the spare has failed and goes to DEEP (R181, R685). -/
theorem subFailSt_of_timeout {s : State} {j : Nat} (h : (subOf s j).st = 1) (ht : usSince s (subOf s j).since 1000 = true) :
    subFailSt j s = askPower (0x120 + j) 0 2 (setEvt (setSub s j { subOf s j with st := 4 }) (0x120 + j) 2) := if_pos ⟨h, ht⟩

/-- A swap of a READY page is ordered. -/
theorem subSwapSt_of_ready {s : State} {j : Nat} (h : (subOf s j).st = 2) :
    subSwapSt j s = setSub s j { subOf s j with swapping := true } := if_pos h

/-- SWAP in any other state is ignored (R182). -/
theorem subSwapSt_of_notReady {s : State} {j : Nat} (h : (subOf s j).st ≠ 2) : subSwapSt j s = s := if_neg h

/-- A release of an ACTIVE page is ordered, and the target lane wakes (R182). -/
theorem subReleaseSt_of_active {s : State} {j : Nat} (h : (subOf s j).st = 3) :
    subReleaseSt j s =
      askPower (subTarget s j).1 (subTarget s j).2 0 (setSub s j { subOf s j with st := 5, swapping := true }) := if_pos h

section Boundary

variable {s : State} {j : Nat} (hw : (subOf s j).swapping = true) (he : laneEdge s ((subTarget s j).1 - 0x100) = true)
include hw he

/-- At the boundary an ordered swap puts the spare in the place of its target, which goes to DEEP (R179, R685). -/
theorem subSwapExecuteSt_of_swap (h : (subOf s j).st = 2) :
    subSwapExecuteSt j s = askPower (subTarget s j).1 (subTarget s j).2 2
      (setEvt (setSub s j { subOf s j with st := 3, swapping := false }) (0x120 + j) 1) := by
  simp [subSwapExecuteSt, hw, he, h]

/-- At the boundary a release ends once the target lane is ready to serve, and the spare goes to DEEP (R182, R685; log 144). -/
theorem subSwapExecuteSt_of_release (h : (subOf s j).st = 5) (hm : macroReady s (subTarget s j).1 (subTarget s j).2 = true) :
    subSwapExecuteSt j s =
      askPower (0x120 + j) 0 2 (setEvt (setSub s j { subOf s j with st := 0, swapping := false }) (0x120 + j) 1) := by
  simp [subSwapExecuteSt, hw, he, h, hm]

end Boundary

/-- Settles O26: a write of SUB_CMD reaches the page, a row of the device finds it running, and the state of the page says which
step follows. That ARM of a failed page does no more than return it to IDLE (log 35), and that a release ends in IDLE with
SUB_DONE (log 144), are the model's. -/
theorem spareLaneCommandsComplete : Obligations.SpareLaneCommandsComplete := by
  intro a j s p x tp tl
  have written {f : State → State} {t : State} (hr : reaches s a p) (h : f s = t) :
      Host.Outcome.next (φ := Fault) (ρ := Refusal) (onPage a p 0x104 f s) = .next t := by rw [onPage_of_reaches hr, h]
  have runs {f : State → State} {t : State} (hr : blockRuns s p = true) (h : f s = t) :
      Host.Outcome.next (φ := Fault) (ρ := Refusal) (whileRuns p f s) = .next t := by rw [whileRuns_of_runs hr, h]
  exact ⟨fun hr h => written hr (subArmSt_of_idle h), fun hr h => written hr (subArmSt_of_failed h),
    fun hr h ht => runs hr (subReadySt_of_inTime h ht), fun hr h ht => runs hr (subFailSt_of_timeout h ht),
    fun hr h => written hr (subSwapSt_of_ready h), fun hr h => written hr (subSwapSt_of_notReady h),
    fun hr hw he => ⟨fun h => runs hr (subSwapExecuteSt_of_swap hw he h),
      fun h hm => runs hr (subSwapExecuteSt_of_release hw he h hm)⟩,
    fun hr h => written hr (subReleaseSt_of_active h)⟩

end Sys2Proof.Machine

/-! DFE: a fire that its block takes (R204–R211). -/

namespace Sys2Proof.Machine

/-- The direction of a command is one of the four of R204. -/
theorem cmdOf_dir_lt (s : State) (f : FireRec) : (cmdOf s f).dir < 4 := Nat.mod_lt _ (by decide)

/-- A carrier command with a direction has a part to do. -/
theorem cmdParts_of_carrier {c : DfeCmd} (hop : 3 ≤ c.op) (hlt : c.dir < 4) (hdir : c.dir ≠ 0) : cmdParts c ≠ 0 := by
  rw [cmdParts, if_neg (by omega)]
  omega

/-- A fire that has arrived at an enabled DFE with a place for it starts (R205). -/
theorem dfeFire_of_room {f : FireRec} {s : State} {op : Nat} (hop : f.opcode.toNat = op)
    (hroom : dfeHeld (dfeOf s (f.member.toNat % 4)) < 8) (ha : f ∈ s.arrived)
    (hc : pageClock s (dfePage (f.member.toNat % 4)) = true) (hu : ∀ x ∈ s.unowned, x.1 ≠ dfePage (f.member.toNat % 4))
    (he : enabled s (dfePage (f.member.toNat % 4)) = true) :
    dfeFire op f s = dfeStart (f.member.toNat % 4) op f (takeArrived s f) := by
  rw [dfeFire, if_neg (by omega), fireRow_of_enabled f s _ _ _ ha hc hu he]

/-- The state after a DFE has taken a command with a part to do. -/
def dfeTaken (s : State) (k : Nat) (c : DfeCmd) : State :=
  modDfe s k fun x => { x with cmds := x.cmds ++ [{ c with keep := inLag s k c }] }

/-- A command with a part to do waits for its switch time. -/
theorem holdCmd_of_parts {c : DfeCmd} (h : cmdParts c ≠ 0) (s : State) (k : Nat) : holdCmd s k c = dfeTaken s k c := if_neg h

/-- The state after a command that is late has been counted (R206). -/
def lateCounted (s : State) (k : Nat) (c : DfeCmd) : State :=
  if 0 < lateBy s (firstAction s k c) then setEvt (incCnt s (dfePage k) 2) (dfePage k) 0 else s

/-- A TX_ON or CARRIER_ON that is late by no more than LATE_TOL, and meets no TX_OFF of its switch time, is taken (R206, R208). -/
theorem acceptUp_of_inTime {s : State} {k : Nat} {c : DfeCmd} (hparts : cmdParts c ≠ 0)
    (htol : lateBy s (firstAction s k c) ≤ (bits (getReg s (dfePage k) 0x108) 11 0 : Int))
    (hoff : c.op = 1 → (dfeOf s k).cmds.any (fun d => decide (d.op = 2) && sameSwitch c d) = false) :
    acceptUp s k c = dfeTaken (lateCounted s k c) k c := by
  have hconflict : ¬ (c.op = 1 ∧ (dfeOf s k).cmds.any (fun d => decide (d.op = 2) && sameSwitch c d) = true) :=
    fun ⟨hop, hany⟩ => absurd hany (Bool.eq_false_iff.mp (hoff hop))
  rw [acceptUp, if_neg (Int.not_lt.mpr htol), if_neg hconflict, holdCmd_of_parts hparts]
  rfl

/-- A TX_OFF that meets no TX_ON of its switch time refuses none (R208). -/
theorem dfeStart_txOff_of_noConflict {s : State} {k : Nat} {f : FireRec} (hparts : cmdParts (cmdOf s f) ≠ 0)
    (hon : (dfeOf s k).cmds.any (fun d => decide (d.op = 1) && sameSwitch (cmdOf s f) d) = false) :
    dfeStart k 2 f s = dfeTaken s k (cmdOf s f) := by
  have hnone : ((dfeOf s k).cmds.filter fun d => decide (d.op = 1) && sameSwitch (cmdOf s f) d) = [] := by
    rw [List.filter_eq_nil_iff]
    exact List.any_eq_false.mp hon
  simp only [dfeStart, hnone, List.foldl_nil]
  exact holdCmd_of_parts hparts s k

/-- Settles O27: the five rows share the taking of a fire; a command with a part to do is held, a chain's commit is scheduled. That
a carrier command without direction and a chain above 131 are refused (log 138) is shut out by the premises. -/
theorem dfeTakesFires : Obligations.DfeTakesFires := by
  intro f s k p c late s0 held timed ha hc hu he hroom
  have starts {op : BitVec 16} (hop : f.opcode = op) {t : State} (h : dfeStart k op.toNat f s0 = t) :
      Host.Outcome.next (φ := Fault) (ρ := Refusal) (dfeFire op.toNat f s) = .next t := by
    rw [dfeFire_of_room (congrArg BitVec.toNat hop) hroom ha hc hu he]
    exact congrArg _ h
  have hparts {op : BitVec 16} (hop : f.opcode = op) (h3 : 3 ≤ op.toNat) (hdir : c.dir ≠ 0) : cmdParts c ≠ 0 := by
    subst hop
    exact cmdParts_of_carrier h3 (cmdOf_dir_lt s f) hdir
  refine ⟨fun hop hp hrun htol hoff => starts hop ?txOn, fun hop hp hon => starts hop ?txOff,
    fun hop hdir htol => starts hop ?carrierOn, fun hop hdir => starts hop ?carrierOff, fun hop hchain => starts hop ?commit⟩
  case txOn =>
    exact (if_neg (Bool.eq_false_iff.mp hrun)).trans (acceptUp_of_inTime (s := s0) hp htol fun _ => hoff)
  case txOff => exact dfeStart_txOff_of_noConflict (s := s0) hp hon
  case carrierOn =>
    have hnot : c.op ≠ 1 := by
      show f.opcode.toNat ≠ 1
      rw [hop]
      decide
    exact (if_neg hdir).trans (acceptUp_of_inTime (s := s0) (hparts hop (by decide) hdir) htol (absurd · hnot))
  case carrierOff => exact (if_neg hdir).trans (holdCmd_of_parts (hparts hop (by decide) hdir) s0 k)
  case commit => exact if_neg (Nat.not_le.mpr hchain)

end Sys2Proof.Machine

/-! DFE: ramps and outputs (R200–R202, R205, R209, R211). -/

namespace Sys2Proof.Machine

/-! ### Ramps that start -/

/-- With no other ramp of its group to cut short, a ramp-up, or a ramp-down of a group that is active, starts where the envelope
stands (R209). -/
theorem groupRamp_of_alone {s : State} {k g : Nat} {c : DfeCmd}
    (halone : ((dfeOf s k).cmds.filter fun d => d ≠ c ∧ d.op ≤ 2 ∧ d.started.toNat &&& 2 ^ g = 2 ^ g ∧
      d.finished.toNat &&& 2 ^ g = 0) = [])
    (hmove : c.op = 1 ∨ envActive (envOf (dfeOf s k) g) = true) :
    groupRamp s k c g =
      let e := startRamp (envOf (dfeOf s k) g) (c.op = 1) (txPlane s k) (profLen s k c.prof)
      startPart (modDfe s k fun x => { x with groups := kset EnvSt.init x.groups g e }) k c (2 ^ g) := by
  have hcut : cutShort s k c true g (2 ^ g) = s := by
    rw [cutShort]
    simp only [if_true, halone, List.foldl_nil]
  have hrest : ¬ ((!decide (c.op = 1) && !envActive (envOf (dfeOf s k) g)) = true) := by
    obtain hup | hact := hmove
    · simp [hup]
    · simp [hact]
  simp only [groupRamp, hcut]
  exact if_neg hrest

/-- The ramp that is due of a group's first command starts (R201, R205). -/
theorem rampStartSt_of_groupDue {s : State} {k : Nat} {g : Fin 16} {c : DfeCmd}
    (hfirst : firstCmd ((dfeOf s k).cmds.filter fun c => c.op ≤ 2 ∧ c.groups.getLsbD g ∧ !c.started.getLsbD g) = some c)
    (hdue : rampAt s k c ≤ txPlane s k) : rampStartSt k (.group g) s = groupRamp s k c g := by
  simp only [rampStartSt, hfirst, if_pos hdue]

/-- The commands of slot `n` whose part `b` in direction `d` has not started. -/
def slotWaiting (x : DfeSt) (n : Fin 16) (d b : Nat) : List DfeCmd :=
  x.cmds.filter fun c => 3 ≤ c.op ∧ c.slot = n ∧ c.dir.testBit d ∧ !c.started.getLsbD b

/-- Among the commands of a slot those that wait in a direction are the slot's that wait in it. -/
theorem filter_slot_waiting (x : DfeSt) (n : Fin 16) (d b : Nat) :
    ((x.cmds.filter fun c => 3 ≤ c.op ∧ c.slot = n.val).filter fun c => c.dir.testBit d ∧ !c.started.getLsbD b) =
      slotWaiting x n d b := by
  rw [List.filter_filter]
  refine List.filter_congr fun c _ => ?_
  rw [← Bool.decide_and]
  exact decide_eq_decide.mpr ⟨fun ⟨⟨hd, hb⟩, hop, hn⟩ => ⟨hop, hn, hd, hb⟩, fun ⟨hop, hn, hd, hb⟩ => ⟨⟨hd, hb⟩, hop, hn⟩⟩

/-- The transmit ramp that is due of a slot's first command starts (R211). -/
theorem rampStartSt_of_slotTxDue {s : State} {k : Nat} {n : Fin 16} {c : DfeCmd}
    (hfirst : firstCmd (slotWaiting (dfeOf s k) n 1 0) = some c) (hdue : rampAt s k c ≤ txPlane s k) :
    rampStartSt k (.slot n) s = slotRamp s k c := by
  simp only [rampStartSt, filter_slot_waiting, hfirst, if_pos hdue]

/-- With no transmit ramp of the slot due, its receive stream starts or stops when its time has come at the lane input (R211). -/
theorem rampStartSt_of_slotRxDue {s : State} {k : Nat} {n : Fin 16} {c : DfeCmd}
    (hnoTx : ∀ d, firstCmd (slotWaiting (dfeOf s k) n 1 0) = some d → txPlane s k < rampAt s k d)
    (hfirst : firstCmd (slotWaiting (dfeOf s k) n 0 1) = some c) (hdue : c.tsw ≤ rxPlane s k) :
    rampStartSt k (.slot n) s = slotRx s k c := by
  simp only [rampStartSt, filter_slot_waiting, hfirst]
  cases htx : firstCmd (slotWaiting (dfeOf s k) n 1 0) with
  | none => exact if_pos hdue
  | some d => exact (if_neg (Int.not_le.mpr (hnoTx d htx))).trans (if_pos hdue)

/-! ### Ramps that end -/

/-- The command whose part ended goes on (R205). -/
def goOn (s : State) (k : Nat) (part : Nat) (t : Int) : Option DfeCmd → State
  | some c => finishPart s k c part t
  | none => s

/-- At the end of a group's ramp the envelope rests, and after a ramp-down the lag of its outputs runs (R202). -/
theorem rampEndSt_of_groupDone {s : State} {k : Nat} {g : Fin 16} {r : Ramp} (hr : (envOf (dfeOf s k) g).ramp = some r)
    (hend : rampEndAt r ≤ txPlane s k) :
    rampEndSt k (.group g) s =
      let t := modDfe s k fun x => { x with groups := kset EnvSt.init x.groups g.val ⟨r.up, none⟩ }
      goOn (if r.up then t else setLags t k g (rampEndAt r)) k (2 ^ g.val) (rampEndAt r)
        (owner (dfeOf s k) true g (2 ^ g.val)) := by
  simp only [rampEndSt, hr, if_pos hend]
  cases owner (dfeOf s k) true g (2 ^ g.val) <;> rfl

/-- At the end of a slot's transmit ramp the envelope rests (R211). -/
theorem rampEndSt_of_slotDone {s : State} {k : Nat} {n : Fin 16} {r : Ramp} (hr : (txOf (dfeOf s k) n).ramp = some r)
    (hend : rampEndAt r ≤ txPlane s k) :
    rampEndSt k (.slot n) s =
      goOn (modDfe s k fun x => { x with tx := kset EnvSt.init x.tx n.val ⟨r.up, none⟩ }) k 1 (rampEndAt r)
        (owner (dfeOf s k) false n 1) := by
  simp only [rampEndSt, hr, if_pos hend]
  cases owner (dfeOf s k) false n 1 <;> rfl

/-! ### Outputs (R202) -/

/-- An output whose groups are at rest, and whose lag is past, falls. -/
theorem paDeassertSt_of_lagPast {s : State} {k : Nat} {o : PaOut}
    (hrest : (leadDue s k o || covered s k o || lagKept s k o) = false)
    (hpast : ∀ t, kget none (dfeOf s k).lag (outNo o) = some t → t ≤ devTime s) :
    paDeassertSt k o s = modDfe s k fun x => { setOut x o false with lag := kset none x.lag (outNo o) none } := by
  simp only [paDeassertSt, hrest, Bool.false_eq_true, if_false]
  cases hlag : kget none (dfeOf s k).lag (outNo o) with
  | none => rfl
  | some t => exact if_pos (decide_eq_true (hpast t hlag))

/-- Settles O28: each row finds its block running; what is due, or the ramp that has ended, says what follows. A ramp that cuts
another short (log 38) is shut out by the premises. -/
theorem rampsAndOutputsComplete : Obligations.RampsAndOutputsComplete := by
  intro k s x toTx toRx hr
  have runs {f : State → State} {t : State} (h : f s = t) :
      Host.Outcome.next (φ := Fault) (ρ := Refusal) (whileRuns (dfePage k) f s) = .next t := by rw [whileRuns_of_runs hr, h]
  refine ⟨fun g c hfirst hdue halone hmove =>
      runs ((rampStartSt_of_groupDue hfirst hdue).trans (groupRamp_of_alone halone hmove)),
    fun n c hfirst hdue => runs (rampStartSt_of_slotTxDue hfirst hdue),
    fun n c hnoTx hfirst hdue => runs (rampStartSt_of_slotRxDue hnoTx hfirst hdue),
    fun g r hramp hend => runs ((rampEndSt_of_groupDone hramp hend).trans ?groupEnd),
    fun n r hramp hend => runs ((rampEndSt_of_slotDone hramp hend).trans ?slotEnd),
    fun o h => runs (if_pos h), fun o hrest hpast => runs (paDeassertSt_of_lagPast hrest hpast)⟩
  case groupEnd => cases owner x true g (2 ^ g.val) <;> rfl
  case slotEnd => cases owner x false n 1 <;> rfl

end Sys2Proof.Machine

/-! DFE: the chain store, the coefficient banks and the mirror chains (R193, R213, R214, R218, R223). -/

namespace Sys2Proof.Machine

/-! ### The copies of a chain's registers (R213) -/

/-- Storing a chain's register leaves the page's registers at other offsets. -/
theorem getRegI_setCh_ne {k c off o w : Nat} (ho : off < 4096) (ho' : o < 4096) (h : off ≠ o) (s : State) (v : Word) (i : Nat) :
    getRegI (setCh s k o c w v) (dfePage k) off i = getRegI s (dfePage k) off i := by
  refine getRegI_setRegI_ne _ _ _ _ _ _ _ _ ?_
  unfold rkey
  omega

/-- Storing a register of a chain in one view leaves the chain's registers in another. -/
theorem chainReg_setCh_view {k c off o view w : Nat} (ho : off < 4096) (ho' : o < 4096) (h : view ≠ w) (s : State) (v : Word) :
    chainReg (setCh s k o c w v) k off c view = chainReg s k off c view := by
  refine getRegI_setRegI_ne _ _ _ _ _ _ _ _ ?_
  unfold rkey
  omega

/-- The registers `l` of chain `c`, each copied from the view `src` to the view `dst`. -/
def copyView (k c src dst : Nat) (l : List Nat) (s : State) : State :=
  l.foldl (fun s off => setCh s k off c dst (chainReg s k off c src)) s

/-- A commit copies from the pending view to the active one. -/
theorem commitChain_eq (k c : Nat) (s : State) : commitChain k c s = setEvt (copyView k c 0 1 chPending s) (dfePage k) 6 := rfl

/-- DISCARD copies from the active view to the pending one. -/
theorem discardChain_eq (k c : Nat) (s : State) : discardChain k c s = copyView k c 1 0 chPending s := rfl

section CopyView

variable {k c src dst : Nat} {l : List Nat} (hl : ∀ o ∈ l, o < 4096) {off : Nat} (ho : off < 4096)
include hl ho

/-- Copying leaves the view that it copies from. -/
theorem chainReg_copyView_src (hne : src ≠ dst) (s : State) :
    chainReg (copyView k c src dst l s) k off c src = chainReg s k off c src := by
  induction l generalizing s with
  | nil => rfl
  | cons o l ih =>
    obtain ⟨ho', hl⟩ := List.forall_mem_cons.mp hl
    exact (ih hl _).trans (chainReg_setCh_view ho ho' hne s _)

/-- Copying leaves the page's registers that are not among those copied. -/
theorem getRegI_copyView_notMem (hoff : off ∉ l) (s : State) (i : Nat) :
    getRegI (copyView k c src dst l s) (dfePage k) off i = getRegI s (dfePage k) off i := by
  induction l generalizing s with
  | nil => rfl
  | cons o l ih =>
    obtain ⟨ho', hl⟩ := List.forall_mem_cons.mp hl
    have hne : off ≠ o := List.ne_of_not_mem_cons hoff
    exact (ih hl (List.not_mem_of_not_mem_cons hoff) _).trans (getRegI_setCh_ne ho ho' hne s _ i)

/-- A register that is copied reads in the one view as it did in the other. -/
theorem chainReg_copyView_dst (hne : src ≠ dst) (hoff : off ∈ l) {s : State} (hu : kup s.regs = true) :
    chainReg (copyView k c src dst l s) k off c dst = chainReg s k off c src := by
  induction l generalizing s with
  | nil => cases hoff
  | cons o l ih =>
    obtain ⟨ho', hl'⟩ := List.forall_mem_cons.mp hl
    by_cases htail : off ∈ l
    · exact (ih hl' htail (kup_setRegI _ _ _ _ _ hu)).trans (chainReg_setCh_view ho ho' hne s _)
    · obtain rfl := (List.mem_cons.mp hoff).resolve_right htail
      exact (getRegI_copyView_notMem hl' ho htail _ _).trans (getRegI_setRegI _ _ _ _ _ hu)

end CopyView

/-- The registers that a commit copies lie in the page. -/
theorem chPending_lt : ∀ off ∈ chPending, off < 4096 := by decide

/-- None of them is EVT_RAW, where a commit sets COMMIT_DONE. -/
theorem chPending_ne_evtRaw : ∀ off ∈ chPending, off ≠ 0x14 := by decide

/-- An event leaves the registers of the chains. -/
theorem chainReg_setEvt {off : Nat} (hoff : off ∈ chPending) (s : State) (k p c view b : Nat) :
    chainReg (setEvt s p b) k off c view = chainReg s k off c view := by
  have hlt := chPending_lt off hoff
  have hne := chPending_ne_evtRaw off hoff
  refine getRegI_setRegI_ne _ _ _ _ _ _ _ _ ?_
  unfold rkey
  omega

/-- A commit makes the pending registers active, and leaves them pending. -/
theorem chainReg_commitChain {off : Nat} (hoff : off ∈ chPending) {s : State} (hu : kup s.regs = true) (k c : Nat) :
    chainReg (commitChain k c s) k off c 1 = chainReg s k off c 0 ∧
      chainReg (commitChain k c s) k off c 0 = chainReg s k off c 0 := by
  have hlt := chPending_lt off hoff
  rw [commitChain_eq, chainReg_setEvt hoff, chainReg_setEvt hoff]
  exact ⟨chainReg_copyView_dst chPending_lt hlt (by decide) hoff hu, chainReg_copyView_src chPending_lt hlt (by decide) s⟩

/-- DISCARD makes the active registers pending, and leaves them active. -/
theorem chainReg_discardChain {off : Nat} (hoff : off ∈ chPending) {s : State} (hu : kup s.regs = true) (k c : Nat) :
    chainReg (discardChain k c s) k off c 0 = chainReg s k off c 1 ∧
      chainReg (discardChain k c s) k off c 1 = chainReg s k off c 1 := by
  have hlt := chPending_lt off hoff
  rw [discardChain_eq]
  exact ⟨chainReg_copyView_dst chPending_lt hlt (by decide) hoff hu, chainReg_copyView_src chPending_lt hlt (by decide) s⟩

/-- A commit leaves the antenna reference plane: the time, and ANT_OFFSET. -/
theorem chainPlane_commitChain (s : State) (k c : Nat) : chainPlane (commitChain k c s) k c = chainPlane s k c := by
  have htime : (commitChain k c s).time = s.time := (commitChain_to (Nat.or_self _) (To.refl _ s)).time rfl
  have hoffset : antOffset (commitChain k c s) k = antOffset s k := by
    unfold antOffset
    rw [commitChain_eq, setEvt, modReg, getReg_setReg_off _ _ _ _ _ (by decide)]
    exact congrArg (fun w => ((bits w 15 0 * 2 ^ 32 : Nat) : Int))
      (getRegI_copyView_notMem chPending_lt (by decide) (by decide) s 0)
  unfold chainPlane rxPlane txPlane devTime
  rw [htime, hoffset]

/-! ### The commands -/

/-- A write of CHAIN_CMD that reaches the page acts on the selected chain (R213). -/
theorem chainCmd_of_selected {a : Acc} {k : Fin 4} {s : State} {c : Nat} (hr : reaches s a (dfePage k))
    (hc : chainSel s k = some c) (f : Nat → State → State) : chainCmd a k f s = f c s := by
  rw [chainCmd, onPage_of_reaches hr, hc]

/-- What a due commit of chain `c` leaves: the commit is no longer scheduled, and a fire that asked for it is completed (R205). -/
def commitApplied (s : State) (k c : Nat) (n : Nat) (j : Sched) : State :=
  let t := commitChain k c (modDfe s k fun x => { x with sched := dropFirst (fun e => decide (e = (n, j))) x.sched })
  j.fire.elim t fun f => complete t (dfePage k) f false (slicePayload (chainPlane s k c))

/-- A commit that has fallen due is applied (R214). -/
theorem execChainCommitApply_of_due {k : Fin 4} {c : Fin 132} {s : State} {n : Nat} {j : Sched}
    (hr : blockRuns s (dfePage k) = true)
    (hdue : ((dfeOf s k).sched.find? fun e => e.1 = c.val ∧ e.2.at_ ≤ chainPlane s k c) = some (n, j)) :
    execChainCommitApply k c s = .next (commitApplied s k c n j) := by
  obtain ⟨at_, fire⟩ := j
  rw [execChainCommitApply, if_neg (by rw [hr]; decide), hdue]
  cases fire with
  | none => rfl
  | some f => simp only [commitApplied, Option.elim_some, chainPlane_commitChain]; rfl

/-- A tap of a bank that no active carrier uses is stored, and the next one is selected (R193, R223). -/
theorem execCoefDataWrite_of_idleBank {a : Acc} {k : Fin 4} {v : Word} {s : State} (hr : reaches s a (dfePage k)) :
    let sel := getReg s (dfePage k) 0x240
    let d : Word := if bits sel 12 8 = 23 then 0x1FFFF else 0
    bankBusy s k (bits sel 2 0) = false → bits sel 12 8 < 24 →
    execCoefDataWrite a k v s = .next (setReg (modDfe s k fun x =>
      { x with coefs := kset d x.coefs (bits sel 2 0 * 24 + bits sel 12 8) (v &&& 0x3FFFF) })
      (dfePage k) 0x240 (putBits sel 12 8 (bits sel 12 8 + 1))) := by
  intro sel d hidle htap
  rw [execCoefDataWrite, onPage_of_reaches hr]
  simp only [sel, d] at hidle htap ⊢
  rw [hidle, if_neg (by decide), if_neg (Nat.not_le.mpr htap)]

/-- At a lane-alignment boundary of its source a mirror chain stands in for it, or no longer does, as its MODE says (R218). -/
theorem execMirrorSwitch_of_edge {k m : Fin 4} {s : State} (hr : blockRuns s (dfePage k) = true)
    (he : laneEdge s (8 * k + mirrorSource s k m % 64 / 8) = true) :
    execMirrorSwitch k m s = .next (modDfe s k fun x => { x with
      mirror := if decide (bits (chainReg s k 0x1D8 (128 + m) 0) 1 0 = 2) then x.mirror ||| BitVec.ofNat 4 (2 ^ m.val)
        else x.mirror &&& ~~~BitVec.ofNat 4 (2 ^ m.val) }) := by
  exact if_pos (by rw [hr, he]; rfl)

/-- Settles O29: a command of CHAIN_CMD acts on the selected chain; a commit and DISCARD copy between the views of five registers;
the other rows follow their block. That a second COMMIT_AT leaves the first scheduled (log 139) is the model's. -/
theorem chainStoreCompletes : Obligations.ChainStoreCompletes := by
  intro a k s p
  have selected {c : Nat} (hr : reaches s a p) (hc : chainSel s k = some c) (f : Nat → State → State) :
      Host.Outcome.next (φ := Fault) (ρ := Refusal) (chainCmd a k f s) = .next (f c s) :=
    congrArg _ (chainCmd_of_selected hr hc f)
  refine ⟨fun c hr hc => ⟨selected hr hc _, fun hu => ⟨⟨commitChain k c s, selected hr hc _, ?commit⟩,
      ⟨discardChain k c s, selected hr hc _, ?discard⟩⟩⟩,
    fun c n j hr hdue => (execChainCommitApply_of_due hr hdue).trans ?apply,
    fun v hr hidle htap => execCoefDataWrite_of_idleBank hr hidle htap,
    fun m hr he => ⟨fun hon => (execMirrorSwitch_of_edge hr he).trans ?active,
      fun hoff => (execMirrorSwitch_of_edge hr he).trans ?other⟩⟩
  case commit => exact fun off hoff => chainReg_commitChain hoff hu k c
  case discard => exact fun off hoff => chainReg_discardChain hoff hu k c
  case apply =>
    obtain ⟨at_, fire⟩ := j
    cases fire <;> rfl
  case active => rw [decide_eq_true hon]; rfl
  case other => rw [decide_eq_false hoff]; rfl

end Sys2Proof.Machine

/-! Converter links: the SYSREF edge that an armed link waits for (R172, R174). -/

namespace Sys2Proof.Machine

/-! ### Registers that an edge leaves -/

/-- Storing any other register leaves STATUS of every page. -/
theorem enabled_setReg {off : Nat} (h : off ≠ 0x10) (ho : off < 4096) (s : State) (p q : Nat) (v : Word) :
    enabled (setReg s q off v) p = enabled s p := by
  unfold enabled getReg
  rw [setReg, getRegI_setRegI_ne]
  unfold rkey
  omega

theorem enabled_setEvt (s : State) (p q b : Nat) : enabled (setEvt s q b) p = enabled s p :=
  enabled_setReg (by decide) (by decide) s p q _

/-- A capture leaves STATUS of every page. -/
theorem enabled_ownErr (s : State) (p q cls code : Nat) (addr : Option Nat) :
    enabled (ownErr s q cls code addr) p = enabled s p := by
  have hreport (u : State) (e : Err) : enabled (sendReport u q e) p = enabled u p := by
    simp only [enabled, getReg, getRegI, sendReport_regs]
  have hstore (u : State) (e : Err) (ovf : Bool) : enabled (storeErr u q e ovf) p = enabled u p := by
    unfold storeErr
    dsimp only
    rw [enabled_setReg (by decide) (by decide), enabled_setReg (by decide) (by decide), enabled_setReg (by decide) (by decide)]
  rw [ownErr, captureErr, hreport]
  unfold captureOnly
  dsimp only
  split
  · split
    · exact hstore _ _ _
    · exact (enabled_setEvt _ _ _ _).trans (hstore _ _ _)
  · split
    · exact (enabled_setEvt _ _ _ _).trans (hstore _ _ _)
    · exact enabled_setReg (by decide) (by decide) _ _ _ _

theorem enabled_edgeSeen (s : State) (p q : Nat) : enabled (edgeSeen s q) p = enabled s p := by
  unfold edgeSeen
  dsimp only
  split
  · rfl
  · exact enabled_setReg (by decide) (by decide) _ _ _ _

@[simp] theorem edgeSeen_links (s : State) (q : Nat) : (edgeSeen s q).links = s.links := by
  unfold edgeSeen
  dsimp only
  split <;> rfl

/-! ### An edge as one quad sees it -/

/-- A link in service after its SYSREF edge. -/
def inService (x : LinkSt) : LinkSt := { x with st := 4, armed := false, aligned := true, eb := [[], [], [], []] }

/-- The edge that an armed link waits for brings it into service, and the LEMC takes its epoch from it (R172). -/
theorem sysrefAt_of_armed {q : Nat} {s : State} (he : enabled s (quadPage q) = true) (harmed : (linkOf s q).armed = true)
    (hst : (linkOf s q).st = 3 ∨ (linkOf s q).st = 4) (err : Int) :
    linkOf (sysrefAt q err s).1 q = inService (linkOf s q) ∧ (sysrefAt q err s).2 = true := by
  have hup : ¬ ((!enabled s (quadPage q)) = true ∨ (linkOf s q).st = 0) := by
    rintro (hoff | hdown)
    · rw [he] at hoff
      cases hoff
    · omega
  have hseen : linkOf (edgeSeen s q) q = linkOf s q := by rw [linkOf, edgeSeen_links, linkOf]
  have hback : kget LinkSt.init (kset LinkSt.init s.links q (inService (linkOf s q))) q = inService (linkOf s q) :=
    kget_kset_of_ne _ _ _ _ fun h => absurd (congrArg LinkSt.st h) (show (4 : Nat) ≠ 0 by decide)
  unfold sysrefAt
  rw [if_neg hup]
  dsimp only
  rw [hseen, if_pos ⟨harmed, hst⟩]
  refine ⟨?_, rfl⟩
  have hlinks (u : State) (h : u.links = s.links) :
      linkOf (setEvt (setLink u q (inService (linkOf s q))) (quadPage q) 4) q = inService (linkOf s q) := by
    rw [linkOf, setEvt_links, setLink, h, hback]
  split
  · exact hlinks _ ((incCnt_links _ _ _).trans (edgeSeen_links s q))
  · exact hlinks _ (edgeSeen_links s q)

/-- From `s` to `u` no page is enabled or disabled, and no link is stored but that of quad `q`. -/
def quadOnly (q : Nat) (s u : State) : Prop :=
  (∀ p, enabled u p = enabled s p) ∧ ∀ r, r ≠ q → linkOf u r = linkOf s r

section QuadOnly

variable {q : Nat} {s u : State} (h : quadOnly q s u)
include h

theorem quadOnly.then_setLink (x : LinkSt) : quadOnly q s (setLink u q x) :=
  ⟨h.1, fun r hr => (kget_kset_ne _ _ _ _ _ _ hr).trans (h.2 r hr)⟩

theorem quadOnly.then_incCnt (p i : Nat) : quadOnly q s (incCnt u p i) := ⟨h.1, h.2⟩

theorem quadOnly.then_modReg {off : Nat} (hne : off ≠ 0x10) (hlt : off < 4096) (p : Nat) (f : Word → Word) :
    quadOnly q s (modReg u p off f) :=
  ⟨fun p' => (enabled_setReg hne hlt _ _ _ _).trans (h.1 p'), h.2⟩

theorem quadOnly.then_setEvt (p b : Nat) : quadOnly q s (setEvt u p b) := h.then_modReg (by decide) (by decide) p _

theorem quadOnly.then_ownErr (p cls code : Nat) (addr : Option Nat) : quadOnly q s (ownErr u p cls code addr) := by
  refine ⟨fun p' => (enabled_ownErr _ _ _ _ _ _).trans (h.1 p'), fun r hr => ?_⟩
  rw [linkOf, ownErr_links]
  exact h.2 r hr

end QuadOnly

theorem quadOnly_edgeSeen (q : Nat) (s : State) : quadOnly q s (edgeSeen s q) :=
  ⟨fun p => enabled_edgeSeen s p q, fun r _ => by rw [linkOf, edgeSeen_links, linkOf]⟩

/-- Whatever a quad does at an edge (R172, R173), it leaves what is enabled and the links of the others. -/
theorem quadOnly_sysrefAt (q : Nat) (err : Int) (s : State) : quadOnly q s (sysrefAt q err s).1 := by
  have hseen := quadOnly_edgeSeen q s
  unfold sysrefAt
  dsimp only
  split
  · exact ⟨fun _ => rfl, fun _ _ => rfl⟩
  · generalize (if bits (getReg (edgeSeen s q) (quadPage q) 0x108) 1 0 = 3 then 1
      else bits (getReg (edgeSeen s q) (quadPage q) 0x108) 1 0) = mode
    have herror := (((hseen.then_modReg (off := 0x114) (by decide) (by decide) (quadPage q)
      fun w => putBits w 15 0 (wrapN 16 err)).then_setEvt (quadPage q) 2).then_incCnt (quadPage q) 5).then_ownErr
        (quadPage q) 4 0x04 none
    split
    · split
      · exact ((hseen.then_incCnt _ _).then_setLink _).then_setEvt _ _
      · exact (hseen.then_setLink _).then_setEvt _ _
    · split
      · exact hseen
      · split
        · split
          · exact herror.then_incCnt _ _
          · exact herror
        · exact hseen

/-- A quad leaves the LEMC as it stands. -/
theorem sysrefAt_lemc (q : Nat) (err : Int) (s : State) : (sysrefAt q err s).1.lemc = s.lemc :=
  (sysrefAt_to (Nat.or_self _) (To.refl _ s)).lemc rfl

/-! ### An edge as a group sees it -/

/-- The turn of quad `i` of group `k` at an edge at lane sample `e`: `s` is the state that the edge meets. -/
def quadTurn (s : State) (k : Nat) (e : Int) (x : State × Bool) (i : Nat) : State × Bool :=
  ((sysrefAt (8 * k + i) (lemcError s (8 * k + i) e) x.1).1,
    x.2 || (sysrefAt (8 * k + i) (lemcError s (8 * k + i) e) x.1).2)

/-- The LEMC after an edge at lane sample `e` that a quad of the group takes it from. -/
def edgeTaken (k : Nat) (e : Int) (s : State) : State :=
  setLemc (alignLemc k e s) k { lemcOf (alignLemc k e s) k with edge := some e }

/-- Where a quad's link waits for the edge, the LEMC takes its epoch from it, after every quad's turn. -/
theorem sysrefEdgeSt_of_taken {k : Nat} {late : Bool} {s : State} {e : Int} (he : laneAbs s k + (if late then 1 else 0) = e)
    (hhit : ((List.range 8).foldl (quadTurn s k e) (s, false)).2 = true) :
    sysrefEdgeSt k late s = edgeTaken k e ((List.range 8).foldl (quadTurn s k e) (s, false)).1 := by
  subst he
  exact congrArg (fun u => setLemc u k { lemcOf u k with edge := _ }) (if_pos hhit)

/-- The turns of other quads leave a quad's link and page, and no turn takes back what a quad has said. -/
theorem quadTurns_ne {s : State} {k i : Nat} {e : Int} {l : List Nat} (hi : i ∉ l) (x : State × Bool) :
    linkOf (l.foldl (quadTurn s k e) x).1 (8 * k + i) = linkOf x.1 (8 * k + i) ∧
      (x.2 = true → (l.foldl (quadTurn s k e) x).2 = true) := by
  induction l generalizing x with
  | nil => exact ⟨rfl, id⟩
  | cons j l ih =>
    have hj : 8 * k + i ≠ 8 * k + j := fun h => List.ne_of_not_mem_cons hi (by omega)
    obtain ⟨hlink, hkeep⟩ := ih (List.not_mem_of_not_mem_cons hi) (quadTurn s k e x j)
    exact ⟨hlink.trans ((quadOnly_sysrefAt _ _ _).2 _ hj), fun hx => hkeep (by rw [quadTurn, hx, Bool.true_or])⟩

/-- In the turns of a group every armed link that waits for the edge comes into service. -/
theorem quadTurns_of_armed {s : State} {k i : Nat} {e : Int} {l : List Nat} (hi : i ∈ l) (hl : l.Nodup) {x : State × Bool}
    (he : enabled x.1 (quadPage (8 * k + i)) = true) (harmed : (linkOf x.1 (8 * k + i)).armed = true)
    (hst : (linkOf x.1 (8 * k + i)).st = 3 ∨ (linkOf x.1 (8 * k + i)).st = 4) :
    linkOf (l.foldl (quadTurn s k e) x).1 (8 * k + i) = inService (linkOf x.1 (8 * k + i)) ∧
      (l.foldl (quadTurn s k e) x).2 = true := by
  induction l generalizing x with
  | nil => cases hi
  | cons j l ih =>
    obtain ⟨hjl, hl⟩ := List.nodup_cons.mp hl
    by_cases hij : i = j
    · subst hij
      obtain ⟨hlink, hhit⟩ := sysrefAt_of_armed he harmed hst (lemcError s (8 * k + i) e)
      obtain ⟨hsame, hkeep⟩ := quadTurns_ne (s := s) (k := k) (e := e) hjl (quadTurn s k e x i)
      exact ⟨hsame.trans hlink, hkeep (by rw [quadTurn, hhit, Bool.or_true])⟩
    · have hlink : linkOf (quadTurn s k e x j).1 (8 * k + i) = linkOf x.1 (8 * k + i) :=
        (quadOnly_sysrefAt _ _ _).2 _ (by omega)
      rw [← hlink] at harmed hst ⊢
      exact ih ((List.mem_cons.mp hi).resolve_left hij) hl (((quadOnly_sysrefAt _ _ _).1 _).trans he) harmed hst

theorem quadTurns_lemc (s : State) (k : Nat) (e : Int) (l : List Nat) (x : State × Bool) :
    (l.foldl (quadTurn s k e) x).1.lemc = x.1.lemc := by
  induction l generalizing x with
  | nil => rfl
  | cons j l ih => exact (ih _).trans (sysrefAt_lemc _ _ _)

/-- Where the keys of `lemc` rise, the LEMC has its epoch and its last edge at an edge that is taken. -/
theorem lemcOf_edgeTaken {s : State} (hu : kup s.lemc = true) (k : Nat) (e : Int) :
    (lemcOf (edgeTaken k e s) k).epoch = e ∧ (lemcOf (edgeTaken k e s) k).edge = some e := by
  have hepoch : (lemcOf (alignLemc k e s) k).epoch = e := congrArg LemcSt.epoch (kget_kset_self _ _ _ _ hu)
  have hlast : lemcOf (edgeTaken k e s) k = { lemcOf (alignLemc k e s) k with edge := some e } :=
    kget_kset_self _ _ _ _ (kup_kset _ _ _ _ hu)
  rw [hlast]
  exact ⟨hepoch, rfl⟩

/-- The SYSREF edge that an armed link of quad `8 * k + i` waits for brings it into service, and, where the keys of `lemc` rise, the
LEMC of its group takes its epoch from it (R172, bring-up step 5). -/
theorem sysrefEdgeSt_of_armed {s : State} {k i : Nat} (hi : i < 8) (hu : kup s.lemc = true)
    (he : enabled s (quadPage (8 * k + i)) = true) (harmed : (linkOf s (8 * k + i)).armed = true)
    (hst : (linkOf s (8 * k + i)).st = 3 ∨ (linkOf s (8 * k + i)).st = 4) (late : Bool) :
    let e := laneAbs s k + if late then 1 else 0
    linkOf (sysrefEdgeSt k late s) (8 * k + i) = inService (linkOf s (8 * k + i)) ∧
      (lemcOf (sysrefEdgeSt k late s) k).epoch = e ∧ (lemcOf (sysrefEdgeSt k late s) k).edge = some e := by
  intro e
  obtain ⟨hlink, hhit⟩ := quadTurns_of_armed (s := s) (e := e) (x := (s, false)) (List.mem_range.mpr hi) List.nodup_range he
    harmed hst
  rw [sysrefEdgeSt_of_taken rfl hhit]
  exact ⟨hlink, lemcOf_edgeTaken (by rw [quadTurns_lemc]; exact hu) k e⟩

/-! ### An LEMC map whose keys do not rise

The clause of SYSREF_EDGE asks nothing of the map `lemc`. Where a key stands out of order in it, `alignLemc` cannot bring the LEMC
of that key back to its reset value: `kset` looks for the entry before the first greater key, finds none there and adds none for
the default. The epoch then stays as it was. -/

/-- After reset, with PD45 ON, the page of quad 0 enabled and its link armed and waiting for SYSREF; in the LEMC map the entry of
group 0, with an epoch of 32, stands after that of group 1. -/
def lemcOutOfOrder : State :=
  { setReg lanesOn 0x100 0x10 1 with
    links := [(0, { LinkSt.init with st := 3, armed := true })]
    lemc := [(1, { LemcSt.init with edge := some 0 }), (0, { LemcSt.init with epoch := 32 })] }

/-- The edge leaves the epoch of group 0. -/
theorem epoch_after_edge_outOfOrder : (lemcOf (whileRuns 0x100 (sysrefEdgeSt 0 false) lemcOutOfOrder) 0).epoch = 32 := by
  decide +kernel

/-- The edge is at lane sample 0. -/
theorem laneAbs_outOfOrder : laneAbs lemcOutOfOrder 0 = 0 := by decide +kernel

/-- Refutes O25: the clause of SYSREF_EDGE lacks the premise `kup s.lemc`, with which it holds (`sysrefEdgeSt_of_armed`). In a state
whose `lemc` has a key out of order, the edge leaves the epoch of the group at 32, and not at the edge. -/
theorem not_linkCommandsComplete : ¬ Obligations.LinkCommandsComplete := by
  intro h
  obtain ⟨-, -, hclause, -⟩ := h 0 0 lemcOutOfOrder
  obtain ⟨t, hexec, -, hepoch, -⟩ :=
    hclause (by decide +kernel) (by decide +kernel) (by decide +kernel) (.inl (by decide +kernel)) false
  have hstate : whileRuns 0x100 (sysrefEdgeSt 0 false) lemcOutOfOrder = t := Host.Outcome.next.inj hexec
  subst hstate
  have hzero := epoch_after_edge_outOfOrder.symm.trans (hepoch.trans (congrArg (· + 0) laneAbs_outOfOrder))
  exact absurd hzero (by decide)

end Sys2Proof.Machine

/-! OFDM: the end of an operation, the peers' sums that do not come, the enable of a carrier entry, and the smoothing taps. -/

namespace Sys2Proof.Machine

/-! ### The end of an operation (R238, R239, R277) -/

/-- An operation with no symbol due captures nothing before it ends. -/
theorem captureAt_of_noneDue {k i : Nat} {s : State} {op : OfdmOp} (hop : (ofdmOf s k).ops[i]? = some op)
    (hdue : symsDue s k op = []) : captureAt k s i = s := by
  unfold captureAt
  simp only [hop, hdue, List.isEmpty_nil, if_true]

/-- Block `k` without the operation in place `i`. -/
def withoutOp (s : State) (k i : Nat) : State := setOfdm s k { ofdmOf s k with ops := dropAt (ofdmOf s k).ops i }

/-- What a CE in host-assisted mode that has run leaves before it finishes: its outputs and its entry in the host ring, whose size is
checked (R277). -/
def ceExported (s : State) (k : Nat) (op : OfdmOp) (r : OpOut) : State :=
  let sz := bits (getReg s (ofdmPage k) 0x128) 4 0
  (ofdmRing k).push (putOuts (if sz < 4 ∨ 12 < sz then ownErr s (ofdmPage k) 6 0x05 none else s) (ofdmPage k) r.outs) (exportEntry op)

/-- What the end of an operation leaves in state `s`, which no longer holds it. -/
def opEnded (k : Nat) (op : OfdmOp) (s : State) : State :=
  match op.bad with
  | some x => failOfdm s k op.fire op.desc x
  | none =>
    match runOfdm k op s with
    | .ok r u => finishOfdm (if op.ha ∧ op.kind = 3 then ceExported u k op r else u) k op r
    | .error x u => failOfdm u k op.fire op.desc x

/-- A ready operation ends, except a CE in host-assisted mode whose host ring is full. -/
theorem ofdmOpDoneSt_of_ready {k i : Nat} {s : State} {op : OfdmOp} (hop : (ofdmOf s k).ops[i]? = some op)
    (hdue : symsDue s k op = []) (hready : ofdmReady s k i op = true) :
    ofdmOpDoneSt k i s =
      if op.ha ∧ op.kind = 3 ∧ (ofdmRing k).full s then setEvt s (ofdmPage k) 3 else opEnded k op (withoutOp s k i) := by
  simp only [ofdmOpDoneSt, captureAt_of_noneDue hop hdue, hop, hready, Bool.not_true, Bool.false_eq_true, if_false]
  rfl

/-- An operand that could not be read ends its operation in its error (R239). -/
theorem opEnded_of_bad {k : Nat} {op : OfdmOp} {x : OpErr} (hbad : op.bad = some x) (s : State) :
    opEnded k op s = failOfdm s k op.fire op.desc x := by
  simp only [opEnded, hbad]

/-- An operation that meets an error where it runs ends in it (R238, R239). -/
theorem opEnded_of_error {k : Nat} {op : OfdmOp} {x : OpErr} {s u : State} (hbad : op.bad = none)
    (hrun : runOfdm k op s = .error x u) : opEnded k op s = failOfdm u k op.fire op.desc x := by
  simp only [opEnded, hbad, hrun]

/-- An operation that runs well finishes with what it worked out, after its entry in the host ring where it makes one
(R238, R277). -/
theorem opEnded_of_ok {k : Nat} {op : OfdmOp} {r : OpOut} {s u : State} (hbad : op.bad = none) (hrun : runOfdm k op s = .ok r u) :
    opEnded k op s = finishOfdm (if op.ha ∧ op.kind = 3 then ceExported u k op r else u) k op r := by
  simp only [opEnded, hbad, hrun]

/-- A ring size in its range is not reported. -/
theorem ceExported_of_inRange {s : State} {k : Nat} {op : OfdmOp} {r : OpOut} (hlo : 4 ≤ bits (getReg s (ofdmPage k) 0x128) 4 0)
    (hhi : bits (getReg s (ofdmPage k) 0x128) 4 0 ≤ 12) :
    ceExported s k op r = (ofdmRing k).push (putOuts s (ofdmPage k) r.outs) (exportEntry op) := by
  rw [ceExported, if_neg (by omega)]

/-- OFDM_OP_DONE of a ready operation, while its block runs and the DRAM channels accept requests. -/
theorem execOfdmOpDone_of_ready {k : Fin 4} {i : Nat} {s : State} {op : OfdmOp} (hr : blockRuns s (ofdmPage k) = true)
    (hfc : s.memc.fc = none) (hclk : dramClock s = true) (hop : (ofdmOf s k).ops[i]? = some op) (hdue : symsDue s k op = [])
    (hready : ofdmReady s k i op = true) :
    execOfdmOpDone k i s = .next
      (if op.ha ∧ op.kind = 3 ∧ (ofdmRing k).full s then setEvt s (ofdmPage k) 3 else opEnded k op (withoutOp s k i)) := by
  rw [execOfdmOpDone, whileRuns_of_runs hr, dramHold_of_clock hfc hclk, ofdmOpDoneSt_of_ready hop hdue hready]

/-! ### Sums that do not come (R249, R250) -/

/-- Absent peers are reported, and the operation no longer waits for their sums. -/
theorem peerMissingSt_of_absent {k i y : Nat} {s : State} {op : OfdmOp} (hop : (ofdmOf s k).ops[i]? = some op)
    (habs : absentPeers s k op y ≠ []) :
    let u := ownErr (setEvt s (ofdmPage k) 5) (ofdmPage k) 4 0x04 none
    peerMissingSt k i y s = setOfdm u k { ofdmOf u k with
      ops := setAt (ofdmOf u k).ops i { op with missing := op.missing ++ (absentPeers s k op y).map fun j => (y, j) } } := by
  unfold peerMissingSt
  rw [hop]
  exact if_neg (mt List.isEmpty_iff.mp habs)

/-! ### Carrier entries (R228, R258) -/

/-- The entry that CARR_SEL selects. -/
def carrSel (s : State) (k : Nat) : Nat := bits (getReg s (ofdmPage k) 0x108) 5 0

section CarrEnable

variable {k : Nat} {s : State} (hoff : bit (carrReg s k 0x180 (carrSel s k)) 0 = false) (v : Word)
include hoff

/-- An entry that may be enabled is, and its CARR_STS starts with EQ_VALID 0 (R258). -/
theorem carrEnableSt_of_ok (hok : carrOk s k (carrSel s k) = true) :
    carrEnableSt k v s =
      setRegI (setRegI s (ofdmPage k) 0x180 (carrSel s k) (putBit v 0 true &&& 0xFF01)) (ofdmPage k) 0x1A0 (carrSel s k) 1 :=
  (if_neg (Bool.eq_false_iff.mp hoff)).trans (if_pos hok)

/-- An entry that may not be enabled is captured and stays off; that its context is stored is the model's (log 45). -/
theorem carrEnableSt_of_bad (hbad : carrOk s k (carrSel s k) = false) :
    carrEnableSt k v s =
      ownErr (setRegI s (ofdmPage k) 0x180 (carrSel s k) (putBit v 0 true &&& 0xFF00)) (ofdmPage k) 6 0x01 none :=
  (if_neg (Bool.eq_false_iff.mp hoff)).trans (if_neg (Bool.eq_false_iff.mp hbad))

end CarrEnable

/-! ### The commands -/

/-- Settles O31: each row meets its block or its page, and the operation in its place, the peers' sums or the selected entry say
which case it is. That a refused CARR_ENABLE stores its context with EN 0 (log 45) is the model's. -/
theorem ofdmCommandsComplete : Obligations.OfdmCommandsComplete := by
  intro k s p
  refine ⟨?ends, ?missing, ?enable, ?smooth⟩
  case ends =>
    intro i op hr hfc hclk hop hdue hready s0 exports full
    have hrow : exec (.ofdmOpDone k i) s = .next (if op.ha ∧ op.kind = 3 ∧ full then setEvt s p 3 else opEnded k op s0) :=
      execOfdmOpDone_of_ready hr hfc hclk hop hdue hready
    have hexports : exports = true ↔ op.ha ∧ op.kind = 3 := by simp [exports]
    refine ⟨fun hx hfull => ?full, fun hroom => ?room⟩
    case full =>
      obtain ⟨hha, hkind⟩ := hexports.mp hx
      rw [hrow, if_pos ⟨hha, hkind, hfull⟩]
    case room =>
      have hopen : ¬ (op.ha ∧ op.kind = 3 ∧ full) := fun ⟨hha, hkind, hfull⟩ =>
        Bool.eq_false_iff.mp hroom (Bool.and_eq_true_iff.mpr ⟨hexports.mpr ⟨hha, hkind⟩, hfull⟩)
      have hended : exec (.ofdmOpDone k i) s = .next (opEnded k op s0) := by rw [hrow, if_neg hopen]
      refine ⟨fun x hbad => ?bad, fun r u hbad hrun => ⟨fun hx => ?plain, fun hx hlo hhi => ?exported⟩,
        fun x u hbad hrun => ?error⟩
      case bad => rw [hended, opEnded_of_bad hbad]
      case plain => rw [hended, opEnded_of_ok hbad hrun, if_neg (mt hexports.mpr (Bool.eq_false_iff.mp hx))]
      case exported => rw [hended, opEnded_of_ok hbad hrun, if_pos (hexports.mp hx), ceExported_of_inRange hlo hhi]
      case error => rw [hended, opEnded_of_error hbad hrun]
  case missing =>
    intro i op y g hr hop hkind hw hg e m sym js hdue hjs u
    have habs : absentPeers s k op y = js := by
      unfold absentPeers
      rw [hg]
      exact if_pos ⟨hkind, hw, hdue⟩
    show Host.Outcome.next (whileRuns p (peerMissingSt k i y) s) = _
    rw [whileRuns_of_runs hr, peerMissingSt_of_absent hop (habs ▸ hjs), habs]
  case enable =>
    intro a v hr e hoff
    have hrow : exec (.carrEnable a k v) s = .next (carrEnableSt k v s) := congrArg Host.Outcome.next (onPage_of_reaches hr _ _)
    exact ⟨fun hok => hrow.trans (congrArg Host.Outcome.next (carrEnableSt_of_ok hoff v hok)),
      fun hbad => hrow.trans (congrArg Host.Outcome.next (carrEnableSt_of_bad hoff v hbad))⟩
  case smooth =>
    intro a v hr sel t
    exact congrArg Host.Outcome.next (onPage_of_reaches hr _ (smoothWriteSt k v))

end Sys2Proof.Machine

/-! What a write to memory leaves of the registers: captures, counted errors and events change the header of a page (R49), so the
registers of a block, from offset 0x100 on, keep their values. -/

namespace Sys2Proof.Machine

/-! ### The registers of a block and a write to memory (R46, R61, R68) -/

/-- A register is the same in states with the same registers. -/
theorem getReg_of_regs {s u : State} (h : u.regs = s.regs) (p off : Nat) : getReg u p off = getReg s p off := by
  rw [getReg, getRegI, h, getReg, getRegI]

theorem getReg_incCnt (s : State) (q i p off : Nat) : getReg (incCnt s q i) p off = getReg s p off := rfl

theorem getReg_setMark (s : State) (a : Nat) (m : Mark) (p off : Nat) : getReg (setMark s a m) p off = getReg s p off := rfl

theorem getReg_putBytes (s : State) (k : Nat) (bs : List (Option Byte)) (p off : Nat) :
    getReg (putBytes s k bs) p off = getReg s p off :=
  getReg_of_regs ((putBytes_to (Nat.or_self _) (To.refl _ s)).regs rfl) p off

theorem getReg_bankAccess (s : State) (ch ca p off : Nat) : getReg (bankAccess s ch ca) p off = getReg s p off :=
  getReg_of_regs ((bankAccess_to (Nat.or_self _) (To.refl _ s)).regs rfl) p off

/-- A loop over the granules of a write leaves a register that each of them leaves. -/
theorem getReg_foldl_granules {p off : Nat} (f : Nat → State → State × Bool)
    (hf : ∀ g u, getReg (f g u).1 p off = getReg u p off) (s : State) (gs : List Nat) :
    getReg (gs.foldl (fun acc g => ((f g acc.1).1, acc.2 || (f g acc.1).2)) (s, false)).1 p off = getReg s p off :=
  List.foldlRecOn (motive := fun y : State × Bool => getReg y.1 p off = getReg s p off) _ _ rfl fun y hy g _ =>
    (hf g y.1).trans hy

section BlockReg

variable {p off : Nat} (hlo : 0x100 ≤ off) (hhi : off < 4096)
include hlo hhi

/-- A register of the header is none of a block. -/
theorem getReg_setReg_header {o : Nat} (ho : o < 0x100) (s : State) (q : Nat) (v : Word) :
    getReg (setReg s q o v) p off = getReg s p off := by
  refine getRegI_setRegI_ne _ _ _ _ _ _ _ _ ?_
  unfold rkey
  omega

theorem getReg_setEvt_block (s : State) (q b : Nat) : getReg (setEvt s q b) p off = getReg s p off :=
  getReg_setReg_header hlo hhi (by decide) _ _ _

theorem getReg_storeErr_block (s : State) (q : Nat) (e : Err) (ovf : Bool) :
    getReg (storeErr s q e ovf) p off = getReg s p off := by
  simp [storeErr, getReg_setReg_header hlo hhi]

theorem getReg_captureErr_block (s : State) (q : Nat) (e : Err) : getReg (captureErr s q e) p off = getReg s p off := by
  rw [captureErr, getReg_of_regs (sendReport_regs _ _ _), captureOnly]
  simp only [apply_ite (getReg · p off), getReg_setEvt_block hlo hhi, getReg_storeErr_block hlo hhi,
    getReg_setReg_header hlo hhi (show 0x20 < 0x100 by decide), ite_self]

theorem getReg_decodeErr_block (s : State) (x a : Nat) : getReg (decodeErr s x a) p off = getReg s p off :=
  getReg_captureErr_block hlo hhi _ _ _

theorem getReg_offAccess_block (s : State) (x a : Nat) : getReg (offAccess s x a) p off = getReg s p off :=
  (getReg_captureErr_block hlo hhi _ _ _).trans (getReg_setEvt_block hlo hhi _ _ _)

theorem getReg_leakPage_block (n : Nat) (s : State) (q : Nat) : getReg (leakPage n s q) p off = getReg s p off := by
  unfold leakPage
  dsimp only
  split
  · exact getReg_setReg_header hlo hhi (by decide) _ _ _
  · rfl

theorem getReg_leakDue_block (s : State) : getReg (leakDue s) p off = getReg s p off := by
  refine List.foldlRecOn (motive := fun u => getReg u p off = getReg s p off) _ _ rfl fun u hu _ _ => ?_
  unfold leakSt
  dsimp only
  split
  · exact List.foldlRecOn (motive := fun u => getReg u p off = getReg s p off) _ _ hu fun u hu q _ =>
      (getReg_leakPage_block hlo hhi _ u q).trans hu
  · exact hu

theorem getReg_countCe_block (s : State) (q : Nat) : getReg (countCe s q) p off = getReg s p off := by
  have hlevel (lvl : Nat) : getReg (setReg (leakDue s) q 0x30 (w32 lvl)) p off = getReg s p off :=
    (getReg_setReg_header hlo hhi (by decide) _ _ _).trans (getReg_leakDue_block hlo hhi s)
  unfold countCe
  dsimp only
  split
  · exact (getReg_setEvt_block hlo hhi _ _ _).trans (hlevel _)
  · exact hlevel _

/-- A word of an array is written (R630). -/
theorem getReg_writeArrayWord_block (k : Nat) (data : List (Option Byte)) (b : Nat) (s : State) :
    getReg (writeArrayWord k data b s).1 p off = getReg s p off := by
  unfold writeArrayWord
  dsimp only
  split
  · rfl
  split
  · rw [getReg_setMark, getReg_putBytes]
  split
  · simp only [apply_ite (getReg · p off), getReg_incCnt, getReg_captureErr_block hlo hhi, ite_self]
  · simp only [apply_ite (getReg · p off), getReg_incCnt, getReg_setMark, getReg_putBytes, getReg_countCe_block hlo hhi, ite_self]
  · exact getReg_putBytes _ _ _ _ _

/-- A block of DRAM is written (R645). -/
theorem getReg_writeDramBlock_block (k : Nat) (data : List (Option Byte)) (b : Nat) (s : State) :
    getReg (writeDramBlock k data b s).1 p off = getReg s p off := by
  unfold writeDramBlock
  dsimp only
  split
  · rfl
  split
  · rw [getReg_incCnt, getReg_setMark, getReg_putBytes, getReg_bankAccess]
  split
  · split
    · rw [getReg_incCnt, getReg_captureErr_block hlo hhi, getReg_bankAccess]
    · rw [getReg_incCnt, getReg_incCnt, getReg_putBytes, getReg_countCe_block hlo hhi, getReg_captureErr_block hlo hhi,
        getReg_setMark, getReg_bankAccess]
    · rw [getReg_incCnt, getReg_putBytes, getReg_bankAccess]
  · rw [getReg_incCnt, getReg_putBytes, getReg_bankAccess]

/-- A refused access is captured (R45, R631, R769, R889). -/
theorem getReg_memBlocked_block {s : State} {src a n : Nat} {r : State × Resp} (h : memBlocked s src a n = some r) :
    getReg r.1 p off = getReg s p off := by
  unfold memBlocked at h
  dsimp only at h
  split at h
  · cases h
    exact getReg_decodeErr_block hlo hhi _ _ _
  · split at h
    · obtain ⟨-, ⟨⟩⟩ := Option.ite_none_left_eq_some.mp h
      exact getReg_captureErr_block hlo hhi _ _ _
    · obtain ⟨-, ⟨⟩⟩ := Option.ite_none_left_eq_some.mp h
      exact (getReg_setEvt_block hlo hhi _ _ _).trans (getReg_captureErr_block hlo hhi _ _ _)
    iterate 3
      · obtain ⟨-, ⟨⟩⟩ := Option.ite_none_left_eq_some.mp h
        exact getReg_offAccess_block hlo hhi _ _ _
    · cases h
    iterate 2
      · cases h
        exact getReg_decodeErr_block hlo hhi _ _ _

/-- A write to memory leaves the registers of every block: one to a register is a request of its own (R46). -/
theorem getReg_memWriteEn_block (s : State) (src a : Nat) (data : List (Option Byte)) :
    getReg (memWriteEn s src a data).1 p off = getReg s p off := by
  unfold memWriteEn
  split
  · rfl
  split
  · rfl
  split
  · next r h => exact getReg_memBlocked_block hlo hhi h
  split
  · exact getReg_foldl_granules (writeDramBlock a data) (getReg_writeDramBlock_block hlo hhi a data) s _
  · exact getReg_of_regs ((putHost_to (Nat.or_self _) (To.refl _ s)).regs rfl) _ _
  · have hwords := getReg_foldl_granules (p := p) (writeArrayWord (region s a).key data)
      (getReg_writeArrayWord_block hlo hhi (region s a).key data) s (granules (region s a).key data.length 8)
    dsimp only
    split
    · exact (getReg_incCnt _ _ _ _ _).trans hwords
    · exact hwords

theorem getReg_memPut_block (s : State) (src a : Nat) (data : List Byte) : getReg (memPut s src a data) p off = getReg s p off :=
  getReg_memWriteEn_block hlo hhi s src a _

/-- What enters a host buffer moves its head alone of the registers of the blocks (R329, R381). -/
theorem getReg_bufPush_block {o : Nat} (ho : o + 12 < 4096) (hne : off ≠ o + 12) (s : State) (q align : Nat) (d : List Byte) :
    getReg (bufPush s q o align d).1 p off = getReg s p off := by
  have hhead (u : State) (v : Word) : getReg (setReg u q (o + 12) v) p off = getReg u p off := by
    refine getRegI_setRegI_ne _ _ _ _ _ _ _ _ ?_
    unfold rkey
    omega
  exact (hhead _ _).trans ((getReg_memPut_block hlo hhi _ _ _ _).trans (getReg_memPut_block hlo hhi _ _ _ _))

end BlockReg

end Sys2Proof.Machine

/-! Prism's taps: the selection, the frames, the integrations and the exported chunks. -/

namespace Sys2Proof.Machine

/-! ### Rows that act -/

/-- A row of a block that runs ends in what the block does. -/
theorem next_whileRuns {p : Nat} {s t : State} {g : State → State} (hr : blockRuns s p = true) (h : g s = t) :
    Host.Outcome.next (φ := Fault) (ρ := Refusal) (whileRuns p g s) = .next t :=
  congrArg Host.Outcome.next ((whileRuns_of_runs hr g).trans h)

/-- A write that reaches its page ends in what the page does. -/
theorem next_onPage {a : Acc} {p off : Nat} {s t : State} {g : State → State} (hr : reaches s a p) (h : g s = t) :
    Host.Outcome.next (φ := Fault) (ρ := Refusal) (onPage a p off g s) = .next t :=
  congrArg Host.Outcome.next ((onPage_of_reaches hr off g).trans h)

/-! ### Selection masks (R334) -/

/-- The offset of the lower half of TAP_SET of set `i` of tap `k`. -/
def tapSetOff (k i : Nat) : Nat := 0x180 + 0x40 * k + 0x10 + 8 * i

/-- The mask that a write of `hi` to the upper half of a TAP_SET pair completes with the held half, or with the stored one. -/
def completedMask (s : State) (off : Nat) (held : Option Word) (hi : Word) : Dword :=
  BitVec.ofNat 64 ((held.getD (getReg s prismPage off)).toNat + 2 ^ 32 * hi.toNat)

section TapSet

variable {a : Acc} {k i : Nat} {v : Word} {s u : State} {held : Option Word}

/-- A mask of at most 32 streams is stored by its upper half. -/
theorem tapSetSt_hi_of_fits (htake : takeLo s a prismPage (tapSetOff k i) = (held, u))
    (hfits : (maskStreams (completedMask u (tapSetOff k i) held v)).length ≤ 32) :
    tapSetSt a k i true v s =
      setReg (setReg u prismPage (tapSetOff k i) (held.getD (getReg u prismPage (tapSetOff k i)))) prismPage
        (tapSetOff k i + 4) v := by
  unfold tapSetOff at htake
  simp only [tapSetSt, Bool.not_true, Bool.false_eq_true, if_false, htake]
  exact if_neg (Nat.not_lt.mpr hfits)

/-- A mask of more than 32 streams is captured and not stored. -/
theorem tapSetSt_hi_of_tooMany (htake : takeLo s a prismPage (tapSetOff k i) = (held, u))
    (hmany : 32 < (maskStreams (completedMask u (tapSetOff k i) held v)).length) :
    tapSetSt a k i true v s = ownErr u prismPage 6 0x01 none := by
  unfold tapSetOff at htake
  simp only [tapSetSt, Bool.not_true, Bool.false_eq_true, if_false, htake]
  exact if_pos hmany

end TapSet

/-! ### Frames (R343–R345) -/

/-- Tap `k` after the frame of `n` samples from `at_` on has entered its channels: the frame counts, and closes an integration that
has its frames or that was told to close. -/
def frameCounted (k : Nat) (at_ n : Int) (s : State) : State :=
  let s1 := ((maskStreams (tapOf s k).mask).take 32).zipIdx.foldl (frameChan k at_) s
  let t1 := tapOf s1 k
  setTap s1 k { t1 with
    frames := t1.frames + 1
    next := at_ + n
    startAt := if t1.frames = 0 then laneTime s1 k at_ else t1.startAt
    due := decide (2 ^ min 16 (bits t1.cfg 12 8) ≤ t1.frames + 1) || t1.closeReq ||
      s1.prism.cmds.any fun c => c.op = 3 && Nat.testBit c.mask k }

/-- A frame of a tap that takes frames, and that the LEMC epoch has not moved past, counts once its samples have come. -/
theorem frameEndSt_of_present {k : Nat} {s : State} (hha : haTap s k = false) (hdue : (tapOf s k).due = false)
    (hon : (enabled s prismPage || (tapOf s k).closeReq) = true)
    (hpresent : frameStart (tapOf s k) ≤ laneNo s k + (2 ^ nbinLog (tapOf s k).cfg : Nat)) (j : Nat) :
    let n : Int := (2 ^ nbinLog (tapOf s k).cfg : Nat)
    frameEndSt k false j s =
      if laneNo s k + 1 < frameStart (tapOf s k) + n then s else frameCounted k (frameStart (tapOf s k)) n s := by
  have htakes : ¬ (haTap s k ∨ (tapOf s k).due ∨ !(enabled s prismPage || (tapOf s k).closeReq)) := by simp [hha, hdue, hon]
  exact (if_neg htakes).trans (if_neg (Int.not_lt.mpr hpresent))

/-! ### The end of an integration (R337, R338, R346) -/

/-- Tap `k` has written the records of its closing integration. -/
def recordsPut (k : Nat) (s : State) : State :=
  (maskStreams (tapOf s k).mask).zipIdx.foldl (fun s (str, j) => putSpec k j str (putSpec k j str s false) true) s

/-- Tap `k`, which has one set, begins its next integration. -/
def integrationBegun (k : Nat) (s : State) : State :=
  let t := tapOf s k
  setTap s k { t with
    cfg := tapReg s k 0, set := 0, dwell := 0, ints := (t.ints + 1) % 65536, frames := 0, due := false, closeReq := false
    chans := (List.range 32).foldl (fun m j =>
      kset ChanAcc.init m j { ChanAcc.init with settle := (chanOf t j).settle, err := (chanOf t j).err }) [] }

/-- A closed integration of a tap with one set, whose frame size and mask stay, writes its records and begins anew. -/
theorem integrationEndSt_of_oneSet {k : Nat} {s : State} (hdue : (tapOf s k).due = true)
    (hsets : bits (tapReg (recordsPut k s) k 0) 25 24 = 0)
    (hsize : nbinLog (tapReg (recordsPut k s) k 0) = nbinLog (tapOf (recordsPut k s) k).cfg)
    (hmask : tapSet (integrationBegun k (recordsPut k s)) k 0 = (tapOf (integrationBegun k (recordsPut k s)) k).mask)
    (ue : Option (Fin 64)) : integrationEndSt k ue s = serveClose (integrationBegun k (recordsPut k s)) k := by
  unfold recordsPut at *
  simp only [integrationEndSt, hdue, hsets, hsize, Bool.not_true, Bool.false_eq_true, if_false, if_true, ne_eq, not_true_eq_false,
    Nat.zero_add, or_true]
  exact congrArg (serveClose · k) (if_pos hmask)

/-! ### Exported chunks (R380, R381) -/

/-- The oldest 1,024 samples of a channel. -/
def chunkOf (s : State) (ch : Nat) : List DetSample := (haChan s ch).buf.reverse.take 1024

/-- A channel without its oldest 1,024 samples. -/
def chunkTaken (s : State) (ch : Nat) : State :=
  setHaChan s ch { haChan s ch with buf := (haChan s ch).buf.take ((haChan s ch).buf.length - 1024) }

/-- A chunk for which the ring or the buffer has no place is counted as lost. -/
def chunkLost (s : State) (ch : Nat) : State :=
  let s0 := chunkTaken s ch
  setPrism (setEvt (incCnt s0 prismPage 11) prismPage 7)
    { s0.prism with gaps := kset 0 s.prism.gaps ch (min 255 (kget 0 s.prism.gaps ch + 1)) }

/-- What enters the host buffer leaves HA_DEC of every tap. -/
theorem haDec_bufPush (s : State) {k : Nat} (hk : k < 4) (d : List Byte) :
    haDec (bufPush s prismPage 0x154 12 d).1 k = haDec s k := by
  have hreg : tapReg (bufPush s prismPage 0x154 12 d).1 k 0x38 = tapReg s k 0x38 :=
    getReg_bufPush_block (by omega) (by omega) (by decide) (by omega) _ _ _ _
  rw [haDec, hreg, haDec]

/-- The record of a chunk of position `j` of tap `k`, whose bytes stand at `at_` in the buffer (R380). -/
def chunkRecord (s : State) (k j str at_ : Nat) : List Byte :=
  let ch := 32 * k + j
  let xs := chunkOf s ch
  wordsBytes ([w32 (kget 0 s.prism.gaps ch * 2 ^ 24 + (if xs.any (·.obs) then 2 ^ 16 else 0) + ch * 256 + (64 * k + str)),
    w32 (haDec (chunkTaken s ch) k)] ++ secNs ((xs.head?.map (·.at_)).getD 0) ++ [w32 at_] ++ List.replicate 11 0)

/-- A chunk of position `j` of tap `k` has entered the buffer and the ring. -/
def chunkPushed (s : State) (k j str : Nat) : State :=
  let ch := 32 * k + j
  let b := bufPush (chunkTaken s ch) prismPage 0x154 12 (wordsBytes ((chunkOf s ch).map (·.x)))
  prismHaRing.push b.1 (chunkRecord s k j str b.2)

/-- A chunk that has come is counted as exported once it stands in the ring, and its gap is over. -/
def chunkExported (s : State) (k j str : Nat) : State :=
  let u := chunkPushed s k j str
  setPrism (incCnt u prismPage 10) { u.prism with gaps := kset 0 u.prism.gaps (32 * k + j) 0 }

/-- A chunk that has come is lost or exported, as the ring and the buffer have a place for it. -/
theorem haChunkSt_of_come {k str j : Nat} {s : State} (hk : k < 4)
    (hpos : ((maskStreams (tapOf s k).mask).take 32).idxOf? str = some j) (hexp : haExports s k j = true)
    (hcome : 1024 ≤ (haChan s (32 * k + j)).buf.length) :
    haChunkSt k str s =
      if prismHaRing.full (chunkTaken s (32 * k + j)) ∨ bufFree (chunkTaken s (32 * k + j)) prismPage 0x154 < 4096 then
        chunkLost s (32 * k + j)
      else chunkExported s k j str := by
  have hready : ¬ (!haExports s k j ∨ ((haChan s (32 * k + j)).buf.reverse.take 1024).length < 1024) := by
    simp [hexp, hcome]
  simp only [haChunkSt, hpos, if_neg hready, haDec_bufPush _ hk]
  rfl

/-! ### The rows together -/

/-- Settles O33: each row meets its page or its running block. A record of a chunk that enters the ring shows the HA_DEC of before
the chunk entered the buffer: a write to memory leaves the registers of every block. -/
theorem prismTapsComplete : Obligations.PrismTapsComplete := by
  intro k s t
  refine ⟨?select, ?frame, ?integration, ?config, ?holds, ?chunk⟩
  case select =>
    intro a i v held u hr off lo m
    exact ⟨next_onPage hr rfl, fun htake => ⟨fun hfits => next_onPage hr (tapSetSt_hi_of_fits htake hfits),
      fun hmany => next_onPage hr (tapSetSt_hi_of_tooMany htake hmany)⟩⟩
  case frame =>
    intro hr hha hdue hon j n at_
    have hframe (hpresent : at_ ≤ laneNo s k + n) := frameEndSt_of_present hha hdue hon hpresent j
    exact ⟨fun hpresent hcome => next_whileRuns hr ((hframe hpresent).trans (if_neg (Int.not_lt.mpr hcome))),
      fun hpresent hearly => next_whileRuns hr ((hframe hpresent).trans (if_pos hearly))⟩
  case integration =>
    intro hr hdue _ s1 t1 cfg fresh s2 hsets hsize hmask
    exact next_whileRuns hr (integrationEndSt_of_oneSet hdue hsets hsize hmask none)
  case config =>
    intro a v hr s1
    exact ⟨fun hon hha => next_onPage hr (if_pos ⟨hon, by rw [hha]; rfl⟩),
      fun hoff => next_onPage hr (if_neg fun ⟨hon, _⟩ => Bool.eq_false_iff.mp hoff hon)⟩
  case holds =>
    intro a v hr
    exact next_onPage hr rfl
  case chunk =>
    intro q sl j ch str c hr hpos hexp hcome xs s0 gap
    have hchunk := haChunkSt_of_come k.isLt hpos hexp hcome
    exact ⟨fun hfull => next_whileRuns hr (hchunk.trans (if_pos hfull)), fun hroom hbytes =>
      next_whileRuns hr (hchunk.trans (if_neg (not_or.mpr ⟨Bool.eq_false_iff.mp hroom, Nat.not_lt.mpr hbytes⟩)))⟩

end Sys2Proof.Machine

/-! Prism's detectors: the enable, the captures and the commands of slot graphs. -/

namespace Sys2Proof.Machine

/-! ### The enable of a detector (R355, R356) -/

section DetEnable

variable {d : Nat} {v : Word} {s : State} (hoff : bit (detReg s d 0) 0 = false)
include hoff

/-- A detector whose registers are not in order is captured and stays off. -/
theorem detEnableSt_of_bad (hbad : detOk (setDet s d 0 (v &&& 0x3FFE)) d = false) :
    detEnableSt d v s = ownErr (setDet s d 0 (v &&& 0x3FFE)) prismPage 6 0x01 none :=
  (if_neg (Bool.eq_false_iff.mp hoff)).trans (if_pos (by rw [hbad]; rfl))

/-- A detector whose registers are in order loads its template and starts. -/
theorem detEnableSt_of_read {u : State} {b : List Byte} (hok : detOk (setDet s d 0 (v &&& 0x3FFE)) d = true)
    (hread : memRead (setDet s d 0 (v &&& 0x3FFE)) prismPage (0x0013007C0000 + bits v 13 8 * 0x1000)
      (4 * bits (detReg (setDet s d 0 (v &&& 0x3FFE)) d 0xC) 26 16) = (u, .ok, b)) :
    let n := bits (detReg (setDet s d 0 (v &&& 0x3FFE)) d 0xC) 26 16
    detEnableSt d v s =
      setDet (setDetSt (setPrism u { u.prism with tmpls := kset [] u.prism.tmpls d ((List.range n).map (wordAt b)) }) d
        DetSt.init) d 0 (v &&& 0x3FFF) := by
  simp only [detEnableSt, hoff, hok, hread, Bool.false_eq_true, if_false, Bool.not_true]

end DetEnable

/-! ### Captures (R360, R363, R366, R371) -/

/-- A detection alone in its group takes the lowest free buffer (R363), and confirms where CONF_LEN says so (R366). -/
theorem contend_of_alone {s : State} {c : Capture} {b : Nat} (halone : groupCapture s (detGroup s c.det) = none)
    (hfree : freeBuf s = some b) :
    contend s c =
      startCapture s { c with buf := b, confirming := !c.forced && decide (0 < bits (detReg s c.det 0x18) 12 0) } := by
  simp only [contend, halone, hfree, if_true]

/-- The capture that the only detection of its cycle asks for. -/
def capAsked (s : State) (x : DetFound) : Capture :=
  ⟨x.det, s.prism.seq, x.metric, x.peak, x.peakNo, 0, x.bg, false, false, 0, 0, none⟩

/-- The only detection of its cycle takes part in its group. -/
theorem detectionSt_of_single {s : State} {x : DetFound} (hfound : s.prism.found = [x]) :
    detectionSt [] s =
      contend (detCount (incCnt (setPrism s { s.prism with seq := (s.prism.seq + 1) % 65536, found := [] }) prismPage 3) x.det 0x28)
        (capAsked s x) := by
  simp [detectionSt, hfound, capAsked]

/-- A capture whose confirmation window is over, with its level against P_n (R366). -/
def confMeasured (s : State) (d : Nat) (c : Capture) : Capture :=
  { c with confirming := false, confLevel := BitVec.ofNat 16 (dBq8 (qdiv (confMean s c (bits (detReg s d 0x18) 12 0)) c.bg)) }

/-- Prism with a capture in the place of the one of its number. -/
def capReplaced (s : State) (c : Capture) : State :=
  setPrism s { s.prism with caps := s.prism.caps.map fun x => if x.seq = c.seq then c else x }

/-- Whether a confirmation keeps its capture: the mean power over P_n reaches CONF_THR (R366). -/
def confPasses (s : State) (d : Nat) (c : Capture) : Prop :=
  let r := qdiv (confMean s c (bits (detReg s d 0x18) 12 0)) c.bg
  0 < r ∧ (signed 16 (bits (detReg s d 0x18) 31 16) : Rat) / 256 ≤ dB r

section ConfWindow

variable {d : Nat} {s : State} {c : Capture}
  (hcap : (s.prism.caps.find? fun c => c.det = d && c.confirming) = some c)
  (hcome : c.peakNo + bits (detReg s d 0x18) 12 0 ≤ (detSt s d).newest)
include hcap hcome

/-- A confirmation whose samples have come keeps its capture where it passes. -/
theorem confEndSt_of_passes (hpass : confPasses s d c) : confEndSt d s = capReplaced s (confMeasured s d c) := by
  unfold confEndSt
  rw [hcap]
  exact (if_neg (Int.not_lt.mpr hcome)).trans (if_pos hpass)

/-- A confirmation whose samples have come drops its capture as a false alarm where it does not pass. -/
theorem confEndSt_of_fails (hfail : ¬ confPasses s d c) :
    let c' := confMeasured s d c
    let s2 := setEvt (detCount (incCnt (capReplaced s c') prismPage 6) d 0x2C) prismPage 1
    confEndSt d s = closeCapture s2 c' 2 (samplesNow s2 c') 0 := by
  unfold confEndSt
  rw [hcap]
  exact (if_neg (Int.not_lt.mpr hcome)).trans (if_neg hfail)

end ConfWindow

/-- A capture whose samples have come closes with its record. -/
theorem captureDoneSt_of_complete {d : Nat} {s : State} {c : Capture}
    (hcap : (s.prism.caps.find? fun c => c.det = d && !c.confirming) = some c)
    (hcome : c.peakNo + bits (detReg s d 0x20) 19 0 ≤ (detSt s d).newest + 1) :
    captureDoneSt d s = closeCapture (incCnt s prismPage 4) c 0 (bits (detReg s d 0x20) 19 0) 0 := by
  unfold captureDoneSt
  rw [hcap]
  exact if_neg (Int.not_lt.mpr hcome)

/-- A buffer that no running capture fills is free again (R365). -/
theorem bufReleaseSt_of_closed {s : State} {v : Word} (hclosed : (s.prism.caps.any fun c => c.buf = bits v 7 0) = false) :
    bufReleaseSt v s = freeBuffer s (bits v 7 0) :=
  if_neg (Bool.eq_false_iff.mp hclosed)

/-! ### Commands (R375–R377) -/

/-- A fire that has arrived at Prism, enabled, with no earlier one waiting, starts its command. -/
theorem prismFire_of_enabled {f : FireRec} {s : State} {op : BitVec 16} (hop : f.opcode = op) (hp : f.pool = 5)
    (hm : f.member = 0) (ha : f ∈ s.arrived) (hc : pageClock s prismPage = true) (hu : ∀ x ∈ s.unowned, x.1 ≠ prismPage)
    (he : enabled s prismPage = true) (start : FireRec → State → State) :
    prismFire op.toNat start f s = start f (takeArrived s f) :=
  (if_pos ⟨hp, hm, congrArg BitVec.toNat hop⟩).trans (fireRow_of_enabled f s prismPage 0x04 start ha hc hu he)

/-- IDLE_WIN with a length whose end has not come is held (R376). -/
theorem idleStart_of_ahead {f : FireRec} {s : State} (hlen : bits (cmdWord f) 31 16 ≠ 0)
    (hahead : devTime s < applyAt s f + (2 ^ 32 * 1000 * bits (cmdWord f) 31 16 : Nat)) :
    let t := applyAt s f
    let stop : Int := t + (2 ^ 32 * 1000 * bits (cmdWord f) 31 16 : Nat)
    idleStart f s = setPrism s { s.prism with cmds := s.prism.cmds ++
      [⟨f, 1, max t (devTime s), (stop - max t (devTime s)).toNat, bits (cmdWord f) 3 0⟩] } :=
  (if_neg hlen).trans (if_neg (Int.not_le.mpr hahead))

/-- FORCE_CAPTURE of an active detector whose history still holds the samples takes part in its group (R377). -/
theorem forceStart_of_held {f : FireRec} {s : State} (hact : detActive s (bits (cmdWord f) 5 0) = true) :
    let e := bits (cmdWord f) 5 0
    let x := detSt s e
    let no := x.newest + (applyAt s f - x.newestAt (devTime s)) / detDur s e 1
    x.newest - 4096 < no - bits (detReg s e 0x1C) 12 0 →
    forceStart f s = contend (setPrism s { s.prism with seq := (s.prism.seq + 1) % 65536 })
      ⟨e, s.prism.seq, 0x7FFF, applyAt s f, no, 0, x.pn, true, false, 0, 0, some f⟩ :=
  fun hheld => (if_neg (by simp [hact])).trans (if_neg (Int.not_le.mpr hheld))

/-- The taps of a SPEC_CLOSE that take frames. -/
def tapsAsked (s : State) (f : FireRec) : Nat :=
  (List.range 4).foldl (fun m k => if bit (cmdWord f) k ∧ !haTap s k then m + 2 ^ k else m) 0

/-- SPEC_CLOSE completes at once where no tap that it names takes frames, and is held otherwise (R376). -/
theorem closeStart_eq (f : FireRec) (s : State) :
    closeStart f s = if tapsAsked s f = 0 then prismDone s f
      else setPrism s { s.prism with cmds := s.prism.cmds ++ [⟨f, 3, 0, 0, tapsAsked s f⟩] } := rfl

/-- An idle window that is over completes its command (R375). -/
theorem idleEndSt_of_over {i : Nat} {s : State} {c : PrismCmd} (hc : s.prism.cmds[i]? = some c) (hop : c.op = 1)
    (hover : c.start + c.len ≤ devTime s) :
    idleEndSt i s = prismDone (setPrism s { s.prism with cmds := dropAt s.prism.cmds i }) c.fire := by
  unfold idleEndSt
  rw [hc]
  exact if_pos ⟨hop, hover⟩

/-! ### The rows together -/

/-- Settles O34: each row meets its page, its running block or its fire. How a detector's rules meet its samples (log 53), that
IDLE_WIN and SPEC_CLOSE are held, that LEN counts device time and that a forced capture takes part at once with P_n of now (log 54)
are the model's. -/
theorem prismDetectorsComplete : Obligations.PrismDetectorsComplete := by
  intro d s
  refine ⟨?enable, ?detection, ?confirmation, ?complete, ?release, ?command, ?idleEnd⟩
  case enable =>
    intro a v hr hoff w s1 src n
    exact ⟨fun hbad => next_onPage hr (detEnableSt_of_bad hoff hbad),
      fun u b hok hread => next_onPage hr (detEnableSt_of_read hoff hok hread)⟩
  case detection =>
    intro x b hr hfound hdet c s0 s1 halone hfree
    have hcap : capAsked s x = c := by rw [capAsked, hdet]; rfl
    refine next_whileRuns hr ((detectionSt_of_single hfound).trans ?_)
    rw [hcap, hdet]
    exact contend_of_alone halone hfree
  case confirmation =>
    intro c hr hcap conf n r c' s1 s2 passes hcome
    exact ⟨fun hpass => next_whileRuns hr (confEndSt_of_passes hcap hcome hpass),
      fun hfail => next_whileRuns hr (confEndSt_of_fails hcap hcome hfail)⟩
  case complete =>
    intro c hr hcap post hcome
    exact next_whileRuns hr (captureDoneSt_of_complete hcap hcome)
  case release =>
    intro a v hr hclosed
    exact next_onPage hr (bufReleaseSt_of_closed hclosed)
  case command =>
    intro f hp hm ha hc hu he s0 t len e m
    have starts {op : BitVec 16} (hop : f.opcode = op) {start : FireRec → State → State} {t : State} (h : start f s0 = t) :
        Host.Outcome.next (φ := Fault) (ρ := Refusal) (prismFire op.toNat start f s) = .next t :=
      congrArg Host.Outcome.next ((prismFire_of_enabled hop hp hm ha hc hu he start).trans h)
    exact ⟨fun hop hlen hahead => starts hop (idleStart_of_ahead hlen hahead),
      fun hop hact hheld => starts hop (forceStart_of_held hact hheld),
      fun hop hnone => starts hop ((closeStart_eq f s0).trans (if_pos hnone)),
      fun hop hsome => starts hop ((closeStart_eq f s0).trans (if_neg hsome))⟩
  case idleEnd =>
    intro i c hr hcmd hop hover
    exact next_whileRuns hr (idleEndSt_of_over hcmd hop hover)

end Sys2Proof.Machine

/-! Chain calibration and the spare cores: the engines of a DFE, the core map of a cluster and its copies. -/

namespace Sys2Proof.Machine

/-! ### Engines (R384, R388–R390) -/

/-- START does nothing in the DU-end role, which has no chain calibration (R30). -/
theorem calStartSt_of_duEnd {k m : Nat} {s : State} (hdu : duEnd s = true) : calStartSt k m s = s := if_pos hdu

/-- The run that START records from an engine's registers. -/
def calAsked (s : State) (k m : Nat) : CalRun :=
  let cfg := getReg s (dfePage k) (calReg m 0)
  ⟨mirrorSource s k m, bits cfg 23 16, bits cfg 31 24, max 1 (bits cfg 15 0),
    getPair s (dfePage k) (calReg m 0x04) 6 % 2 ^ 48, devTime s, laneNo s k + 1⟩

/-- START of an engine whose mirror chain is in MODE 1 records its run and shows BUSY. -/
theorem calStartSt_of_shadow {k m : Nat} {s : State} (hnotDu : duEnd s = false) (hmode : bits (mirrorReg s k m) 1 0 = 1) :
    calStartSt k m s = setReg (setCal s k m (some (calAsked s k m))) (dfePage k) (calReg m 0x10) (w32 (2 ^ 30)) :=
  (if_neg (Bool.eq_false_iff.mp hnotDu)).trans (if_neg (not_not_intro hmode))

section CalRunning

variable {k m : Nat} {s : State} {r : CalRun} (hrun : calOf s k m = some r)
include hrun

/-- An engine that runs stops without a record and shows ABORTED with the blocks of 65,536 samples it admitted (R389). -/
theorem calAbortSt_of_run : calAbortSt k m s = setReg (setCal s k m none) (dfePage k) (calReg m 0x10)
    (w32 (2 ^ 29 + (calBlocks s k m r).length / 1024 % 65536)) := by
  rw [calAbortSt, hrun]

/-- An engine whose blocks have all been admitted writes its record, word 0 last, and shows DONE (R388). -/
theorem calDoneSt_of_admitted (hcome : 1024 * r.len ≤ (calBlocks s k m r).length) :
    let s1 := memPut s (dfePage k) (r.out + 4) (wordsBytes (calWords m r ((calBlocks s k m r).take (1024 * r.len))))
    let s2 := memPut s1 (dfePage k) r.out (leBytes 4 (calHead m r).toNat)
    calDoneSt k m s = setReg (setCal s2 k m none) (dfePage k) (calReg m 0x10) (w32 (2 ^ 31 + r.len % 2 ^ 16)) := by
  rw [calDoneSt, hrun]
  exact if_neg (Nat.not_lt.mpr hcome)

end CalRunning

/-! ### The core map (R411, R412, R418) -/

/-- A refused CORE_MAP value is captured and changes nothing else. -/
theorem coreMapSt_of_refused {c : Nat} {v : Word} {s : State} (hrefused : mapRefused s c v = true) :
    coreMapSt c v s = ownErr s (clusterPage c) 6 0x30 none := if_pos hrefused

/-- A CORE_MAP value that is not refused is the cluster's map: holding and starting cores, whose frame the mask is, leave the core map as
it is. -/
theorem coreMapSt_coreMap_of_taken {c : Nat} {v : Word} {s : State} (htaken : mapRefused s c v = false) :
    (coreMapSt c v s).coreMap = kset none s.coreMap c (some v) := by
  have hto : To 2148737266 { s with coreMap := kset none s.coreMap c (some v) } (coreMapSt c v s) := by
    rw [coreMapSt, if_neg (Bool.eq_false_iff.mp htaken)]
    exact To.foldl _ (fun _ _ hu => To.ite (coreStart_to rfl (coreHold_to rfl hu)) hu)
      (To.foldl _ (fun _ _ hu => coreHold_to rfl hu) (To.refl _ _))
  exact hto.coreMap rfl

/-! ### Copies to a spare core (R413) -/

/-- COPY between two cores of a cluster that copies nothing yet is noted, and shows BUSY. -/
theorem spareCopySt_of_free {c : Nat} {v : Word} {s : State} (hcmd : bits v 1 0 = 1) (hfree : kget none s.spareJobs c = none)
    (hsrc : bits v 7 4 < 9) (hdst : bits v 11 8 < 9) :
    spareCopySt c v s =
      setReg { s with spareJobs := kset none s.spareJobs c (some (bits v 7 4 * 16 + bits v 11 8)) } (clusterPage c) 0x108 0x40000000 := by
  refine if_neg ?_
  rintro (hother | hbusy | hsrc' | hdst')
  · exact hother hcmd
  · rw [hfree] at hbusy
    exact Bool.false_ne_true hbusy
  · exact Nat.not_lt.mpr hsrc' hsrc
  · exact Nat.not_lt.mpr hdst' hdst

/-- The end of a copy whose source holds no marked byte writes the whole memory and shows DONE without UE. -/
theorem spareDoneSt_of_unmarked {c j : Nat} {s : State} (hjob : kget none s.spareJobs c = some j)
    (hclean : (s.memErr.filter fun e => inCore (9 * c + j / 16) e.1) = []) :
    let s1 := copyLocal (9 * c + j / 16) (9 * c + j % 16) [] s
    spareDoneSt c s =
      setReg { s1 with spareJobs := kset none s1.spareJobs c none } (clusterPage c) 0x108 (w32 (2 ^ 31 + 10240)) := by
  rw [spareDoneSt, hjob]
  simp only [hclean, List.map_nil, List.foldl_nil, List.isEmpty_nil, if_true, Nat.add_zero]

/-! ### The rows together -/

/-- Settles O35: each row meets its page or its running block. That START is ignored in the DU-end role, where the blocks lie and which
cores a CORE_MAP value may move (log 55), and that a copy is one command with an end of its own (log 56), are the model's. -/
theorem calibrationAndSparesComplete : Obligations.CalibrationAndSparesComplete := by
  refine ⟨fun a k m s => ⟨?duEnd, ?start, fun r hrun => ⟨?abort, ?record⟩⟩,
    fun a c v s => ⟨?refused, ?taken, ?copy, ?copyEnd⟩⟩
  case duEnd => exact fun hr hdu => next_onPage hr (calStartSt_of_duEnd hdu)
  case start => exact fun hr hnotDu hmode => next_onPage hr (calStartSt_of_shadow hnotDu hmode)
  case abort => exact fun hr => next_onPage hr (calAbortSt_of_run hrun)
  case record => exact fun hr hcome => next_whileRuns hr (calDoneSt_of_admitted hrun hcome)
  case refused => exact fun hr hrefused => next_onPage hr (coreMapSt_of_refused hrefused)
  case taken => exact fun hr htaken => ⟨coreMapSt c v s, next_onPage hr rfl, coreMapSt_coreMap_of_taken htaken⟩
  case copy => exact fun hr hcmd hfree hsrc hdst => next_onPage hr (spareCopySt_of_free hcmd hfree hsrc hdst)
  case copyEnd => exact fun j hr hjob hclean => next_whileRuns hr (spareDoneSt_of_unmarked hjob hclean)

end Sys2Proof.Machine

/-! Erdom cores: the scalar and vector instructions alone in a bundle, the end of a bundle, and results that land. -/

namespace Sys2Proof.Machine

/-! ### An instruction alone in its bundle -/

section SlotWord

variable {i : Issue} {op : Nat} {w : Word26} {s : State}

/-- An instruction alone in its bundle, other than a system instruction, that does what `f` says: where `f` comes to `g` in the issue
cycle and `g` is no fault, its command issues a bundle that does `g`. -/
theorem next_slotWord (f : OpCtx → Bun → Bun) {g : Bun → Bun} (h : issuesAlone i (slotWord op w) s)
    (hg : f (opCtx i ⟨i.slot, slotWord op w, false⟩ s) (bun0 (atIssue i ⟨i.slot, slotWord op w, false⟩ s)) =
      g (bun0 (atIssue i ⟨i.slot, slotWord op w, false⟩ s)))
    (hn : (g (bun0 (atIssue i ⟨i.slot, slotWord op w, false⟩ s))).fault = none := by rfl)
    (hlt : op < 64 ∧ op ≠ 0x0A := by decide)
    (hf : ∀ k b, opcodeOf k.o = op → opDo k b = f k b := by intro k b h; simp only [opDo, h]) :
    Host.Outcome.next (φ := Fault) (ρ := Refusal) (issueSt i (slotWord op w) s) = .next (issued i (slotWord op w) g s) := by
  have hop := opcode_slotWord op w i.slot hlt.1
  have hwait := fwaits_of_op (opCtx i ⟨i.slot, slotWord op w, false⟩ s).x ⟨i.slot, slotWord op w, false⟩ (by rw [hop]; exact hlt.2)
  have hdo := hf (opCtx i ⟨i.slot, slotWord op w, false⟩ s) (bun0 (atIssue i ⟨i.slot, slotWord op w, false⟩ s)) hop
  rw [issueSt_does i _ s h hwait g (hdo.trans hg) hn]

end SlotWord

/-! ### Scalar loads, stores and branches (R431, R433–R436) -/

/-- A load whose address takes no trap and that finds its data puts them in flight, with the latency of where they are (R428). -/
theorem opLoad_of_ok {k : OpCtx} {b : Bun} {r : Int × Option Dword} {v : State} {d : List Byte}
    (hr : addrForm k.x (k.f 20 17) (k.f 16 14) (k.f 13 11) (signed 8 (k.f 7 0) * (2 ^ k.f 10 9 : Nat)) = r)
    (htrap : addrTrap k false (k.f 20 17) (addr48 r.1) (2 ^ k.f 10 9) [(0, 2 ^ k.f 10 9)] = none)
    (hload : loadBytes b.s k.c (decide (k.f 8 8 = 1)) (addr48 r.1) (2 ^ k.f 10 9) = (v, .ok d)) :
    opLoad k b =
      let l := if reachOf b.s k.c (decide (k.f 8 8 = 1)) (addr48 r.1) = .local_ then 4 else 6
      let b := updateA k (k.f 20 17) r.2 { b with s := v }
      if k.f 10 9 = 3 then toDPair k l (k.f 25 21) (ofLe d) b else toD k l (k.f 25 21) (extend (k.f 10 9) (ofLe d)) b := by
  subst hr
  simp only [opLoad, htrap, hload]

/-- A store whose address takes no trap and that is taken. -/
theorem opStore_of_ok {k : OpCtx} {b : Bun} {r : Int × Option Dword} {v : State} {y : Unit}
    (hr : addrForm k.x (k.f 20 17) (k.f 16 14) (k.f 13 11) (signed 8 (k.f 7 0) * (2 ^ k.f 10 9 : Nat)) = r)
    (htrap : addrTrap k true (k.f 20 17) (addr48 r.1) (2 ^ k.f 10 9) [(0, 2 ^ k.f 10 9)] = none)
    (hstore : storeBytes b.s k.c (decide (k.f 8 8 = 1)) (addr48 r.1) ((leBytes (2 ^ k.f 10 9)
      (if k.f 10 9 = 3 then (dPair k.x (k.f 25 21)).toNat else (dReg k.x (k.f 25 21)).toNat)).map some) = (v, .ok y)) :
    opStore k b = updateA k (k.f 20 17) r.2 { b with s := v } := by
  subst hr
  simp only [opStore, htrap, hstore]

theorem opBranch_of_not {k : OpCtx} (b : Bun) (h : branchCond (k.f 25 22) (dReg k.x (k.f 21 17)) = false) : opBranch k b = b := by
  simp only [opBranch, h, Bool.not_false, if_true]

/-- A branch that is taken has its target; condition 7 counts its register down then (log 60). -/
theorem opBranch_of_taken {k : OpCtx} (b : Bun) (h : branchCond (k.f 25 22) (dReg k.x (k.f 21 17)) = true) :
    opBranch k b = if k.f 25 22 = 7 then toD k 1 (k.f 21 17) (dReg k.x (k.f 21 17) - 1) { b with taken := some (dispTarget k) }
      else { b with taken := some (dispTarget k) } := by
  simp only [opBranch, h, Bool.not_true, Bool.false_eq_true, if_false]

/-- Settles O36: the command of an instruction alone in its bundle issues what its operation does in the issue cycle
(`next_slotWord`). The codes of FUNC (log 58), the zeros below LUI's half and the 16 bytes of a step of DISP (log 59), and that
condition 7 counts down only where its branch is taken (log 60) are the model's. -/
theorem scalarInstructionsComplete : Obligations.ScalarInstructionsComplete := by
  intro i w s k u
  refine ⟨?alu, ?aluImm, ?mul, ?load, ?store, ?addr, ?lui, ?branch, ?jump⟩
  case alu =>
    intro h x p q res g hg
    refine next_slotWord opAlu h ?_ rfl
    have hfunc : Config.aluFunc (BitVec.ofNat 11 (k 0x01).o.word.toNat) = some g := hg
    show opAlu (k 0x01) _ = _
    cases g <;> simp only [opAlu, hfunc] <;> rfl
  case aluImm => exact fun h => next_slotWord opAluImm h rfl
  case mul =>
    intro h g hg d
    have hfunc : Config.mulFunc (BitVec.ofNat 11 (k 0x03).o.word.toNat) = some g := hg
    exact next_slotWord opMul h (by show opMul (k 0x03) _ = _; simp only [opMul, hfunc]; rfl)
  case load =>
    intro h f n r a far l htrap v d hload put
    have hdo := opLoad_of_ok (k := k 0x04) (b := bun0 (u 0x04)) rfl htrap hload
    exact ⟨fun hpair => next_slotWord opLoad h (hdo.trans (if_pos hpair)) (updateA_fault ..),
      fun hone => next_slotWord opLoad h (hdo.trans (if_neg hone)) (updateA_fault ..)⟩
  case store =>
    intro h f n r a src htrap v y hstore
    exact next_slotWord opStore h (opStore_of_ok (k := k 0x05) (b := bun0 (u 0x05)) rfl htrap hstore) (updateA_fault ..)
  case addr => exact fun h => next_slotWord opAddr h rfl
  case lui => exact fun h => next_slotWord opLui h rfl
  case branch =>
    intro h cc r v go
    have hdo := opBranch_of_taken (k := k 0x08) (bun0 (u 0x08))
    exact ⟨fun hnot => next_slotWord opBranch h (opBranch_of_not (k := k 0x08) _ hnot),
      fun htaken hplain => next_slotWord opBranch h ((hdo htaken).trans (if_neg hplain)),
      fun htaken hloop => next_slotWord opBranch h ((hdo htaken).trans (if_pos hloop))⟩
  case jump =>
    intro h j hj res go
    have hop : Config.jumpOp (BitVec.ofNat 26 (k 0x09).o.word.toNat) = some j := hj
    refine next_slotWord opJump h ?_ ?_
    · show opJump (k 0x09) _ = _
      simp only [opJump, hop]
      cases j.link <;> rfl
    · cases j.link <;> rfl

/-! ### Vector instructions (R472, R473, R479–R498) -/

/-- VRND without flags writes no predicate (R498). -/
theorem opVrnd_of_plain {k : OpCtx} (b : Bun) (h : k.f 0 0 = 0) :
    opVrnd k b = toVPred k 3 (k.f 6 4) (k.f 12 10) (decide (k.f 7 7 = 1))
      (((List.range (tyN (k.f 6 4))).map (vrndElem (k.f 6 4) (k.f 17 13) (k.f 9 8) (acReg k.x (k.f 20 18)))).map (·.1)) b :=
  if_neg (by rw [h]; decide)

/-- Settles O39: the command of an instruction alone in its bundle issues what its operation does in the issue cycle
(`next_slotWord`). That SLIDE takes VB and IMM5 from one field (log 73) and the corners of the floating-point functions (log 76) are
the model's. -/
theorem vectorInstructionsComplete : Obligations.VectorInstructionsComplete := by
  intro i w s k f V P ty zm
  refine ⟨?valu, ?valuScalar, ?vmac, ?vrnd, ?vperm, ?vcmp, ?vpred, ?vfp, ?vred, ?ftap⟩
  case valu => exact fun h => next_slotWord opValu h rfl
  case valuScalar => exact fun h => next_slotWord opValuScalar h rfl
  case vmac => exact fun h => next_slotWord opVmac h rfl
  case vrnd =>
    intro h t rs val
    exact ⟨fun hplain => next_slotWord opVrnd h (opVrnd_of_plain (k := k 0x18) _ hplain),
      fun hflags => next_slotWord opVrnd h (if_pos hflags)⟩
  case vperm => exact fun h => next_slotWord opVperm h rfl
  case vcmp => exact fun h => next_slotWord opVcmp h rfl
  case vpred =>
    intro h n fn pa pb rd res low d
    refine ⟨?and, ?or, ?xor, ?andNot, ?not, ?below, ?toPair, ?ofPair, ?ones, ?first⟩
    all_goals
      intro hfn
      have hfunc : (k 0x1B).f 3 0 = _ := hfn
      refine next_slotWord opVpred h ?_ ?_
      · show opVpred (k 0x1B) _ = _
        simp only [opVpred, hfunc]
        rfl
      · rfl
  case vfp => exact fun h => next_slotWord opVfp h rfl
  case vred =>
    intro h v pair
    exact ⟨fun hpair => next_slotWord opVred h (if_pos hpair), fun hone => next_slotWord opVred h (if_neg hone)⟩
  case ftap => exact fun h => next_slotWord opFtap h rfl

/-! ### The end of a bundle (R428, R445, R458, R459, R475, R477) -/

/-- A core that runs is not as after reset. -/
theorem ne_init_of_running {x : CoreSt} (h : x.run = .running) : x ≠ CoreSt.init := ne_init_of_run (by simp [h])

/-- Core `x` once a bundle has counted and its results are in flight. -/
def issuedCore (x : CoreSt) (pend : List Pend) : CoreSt :=
  { x with cyc := x.cyc + 1, total := x.total + 1, lastPc := x.pc, pend := x.pend ++ pend }

/-- Core `x` at the end of bundle `b`, of which no trap is taken and that is not the one to resume at. -/
def endedCore (x : CoreSt) (b : Bun) : CoreSt :=
  let y := issuedCore x b.pend
  match b.post with
  | some .rti => rtiCore y
  | some .wait => { nextPc x b.taken y with run := .wait }
  | none => nextPc x b.taken y

/-- The next bundle's address leaves how the core stands, its results in flight, its cycles and what it has lost. -/
theorem nextPc_keeps (x : CoreSt) (taken : Option Nat) (y : CoreSt) :
    (nextPc x taken y).run = y.run ∧ (nextPc x taken y).pend = y.pend ∧ (nextPc x taken y).cyc = y.cyc ∧
      (nextPc x taken y).lost = y.lost := by
  unfold nextPc
  cases taken with
  | some t => exact ⟨rfl, rfl, rfl, rfl⟩
  | none =>
    dsimp only
    split
    · exact ⟨rfl, rfl, rfl, rfl⟩
    · split <;> exact ⟨rfl, rfl, rfl, rfl⟩

/-- The core that a bundle leaves behind is not as after reset, and has lost no line that it had not lost before. -/
theorem endedCore_keeps {x : CoreSt} (hrun : x.run = .running) (b : Bun) :
    (endedCore x b).run ≠ .reset ∧ (endedCore x b).lost = x.lost := by
  obtain ⟨hnext, -, -, hlost⟩ := nextPc_keeps x b.taken (issuedCore x b.pend)
  unfold endedCore
  match b.post with
  | some .rti => exact ⟨by show x.run ≠ _; simp [hrun], rfl⟩
  | some .wait => exact ⟨by simp, hlost⟩
  | none => exact ⟨by rw [hnext]; show x.run ≠ _; simp [hrun], hlost⟩

section BundleEnd

variable {c : Nat} {b : Bun} (hrun : (coreOf b.s c).run = .running)
include hrun

/-- A bundle of a core that runs counts on it (R475, R477). -/
theorem coreOf_countIssue : coreOf (countIssue c b.s) c =
    { coreOf b.s c with cyc := (coreOf b.s c).cyc + 1, total := (coreOf b.s c).total + 1, lastPc := (coreOf b.s c).pc } :=
  coreOf_modCore (incCnt b.s (corePage c) 0) c (fun x => { x with cyc := x.cyc + 1, total := x.total + 1, lastPc := x.pc })
    (ne_init_of_running hrun)

variable (hcomp : b.comp = none) (hsync : b.sync = false) (hhold : b.hold = false) (hlost : (coreOf b.s c).lost = none)
include hcomp hsync hhold hlost

/-- A bundle that no trap ends counts, and leaves the core as `endedCore` says. -/
theorem bundleEnd_of_noTrap : bundleEnd c (coreOf b.s c) b = setCore (countIssue c b.s) c (endedCore (coreOf b.s c) b) := by
  have hend : bundleEnd c (coreOf b.s c) b = endTraps false c (setCore (countIssue c b.s) c (endedCore (coreOf b.s c) b)) := by
    simp only [bundleEnd, modCore, coreOf_countIssue hrun, hcomp, hsync, hhold]
    rfl
  obtain ⟨hne, hkeep⟩ := endedCore_keeps hrun b
  have hnone : (coreOf (setCore (countIssue c b.s) c (endedCore (coreOf b.s c) b)) c).lost = none := by
    rw [coreOf_setCore _ _ _ (ne_init_of_run hne), hkeep, hlost]
  rw [hend]
  simp only [endTraps, hnone, Option.isSome_none, Bool.false_and, Bool.false_eq_true, if_false]

/-- The core at the end of such a bundle. -/
theorem coreOf_bundleEnd : coreOf (bundleEnd c (coreOf b.s c) b) c = endedCore (coreOf b.s c) b := by
  rw [bundleEnd_of_noTrap hrun hcomp hsync hhold hlost, coreOf_setCore _ _ _ (ne_init_of_run (endedCore_keeps hrun b).1)]

end BundleEnd

/-- What STATUS reads after RTI: the bits of ESTATUS that it has (R459, R471). -/
theorem getCr_rtiCore {y : CoreSt} (h : kup y.cr = true) : getCr (rtiCore y) 1 = (getCr y 2 &&& 0xA7000000) :=
  kget_kset_self _ _ _ _ h

/-! ### Results that land (R426, R428) -/

/-- The only result in flight lands when it is due. -/
theorem landBy_of_one {x : CoreSt} {t : Nat} {dest : Dest} (h : x.pend = [⟨t, 0, dest⟩]) (sp : Bool) :
    landBy sp x t = landDest sp { x with pend := [] } dest := by
  simp [landBy, h, insertPend]

/-- No other data register stands where D0 does. -/
theorem dKey_ne_zero {x : CoreSt} {i : Nat} (h : i ≠ 0) : dKey x i ≠ 0 := by
  unfold dKey
  split <;> omega

section Landing

variable {x : CoreSt} {i t : Nat} (sp : Bool)

theorem dReg_landBy {v : Word} (hu : kup x.d = true) (h : x.pend = [⟨t, 0, .d (dKey x i) v⟩]) :
    dReg (landBy sp x t) i = if i = 0 then 0 else v := by
  rw [landBy_of_one h]
  unfold dReg
  by_cases hi : i = 0
  · rw [if_pos hi, if_pos hi]
  · rw [if_neg hi, if_neg hi, landDest, if_neg (dKey_ne_zero hi)]
    exact kget_kset_self _ _ _ _ hu

theorem aReg_landBy {v : Dword} (hu : kup x.a = true) (h : x.pend = [⟨t, 0, .a (aKey x i) v⟩]) : aReg (landBy sp x t) i = v := by
  rw [landBy_of_one h]
  exact kget_kset_self _ _ _ _ hu

theorem pReg_landBy {v : Dword} (hu : kup x.p = true) (h : x.pend = [⟨t, 0, .p i v⟩]) :
    pReg (landBy sp x t) i = if i = 0 then BitVec.allOnes 64 else v := by
  rw [landBy_of_one h]
  unfold pReg
  by_cases hi : i = 0
  · rw [if_pos hi, if_pos hi]
  · rw [if_neg hi, if_neg hi, landDest, if_neg hi]
    exact kget_kset_self _ _ _ _ hu

theorem vReg_landBy {m v : Vec} (hu : kup x.v = true) (h : x.pend = [⟨t, 0, .v i m v⟩]) :
    vReg (landBy sp x t) i = (vReg x i &&& ~~~m) ||| (v &&& m) := by
  rw [landBy_of_one h]
  exact kget_kset_self _ _ _ _ hu

end Landing

/-- Settles O38: a bundle that no trap ends leaves its core as `endedCore` says, and the only result in flight lands as `landBy_of_one`
says. -/
theorem bundlesEndAndResultsLand : Obligations.BundlesEndAndResultsLand := by
  refine ⟨?ends, fun x i t v sp => dReg_landBy sp, fun x i t v sp => aReg_landBy sp,
    fun x i t v sp => pReg_landBy sp, fun x i t m v sp => vReg_landBy sp⟩
  intro c b x _ hcomp hsync hhold hrun hlost
  have hstate := bundleEnd_of_noTrap hrun hcomp hsync hhold hlost
  have hcore := coreOf_bundleEnd hrun hcomp hsync hhold hlost
  refine ⟨_, rfl, (congrArg State.mem hstate).trans rfl, (congrArg State.regs hstate).trans rfl, ?next, ?rti, ?wait⟩ <;> rw [hcore]
  case next =>
    intro hpost
    have hnext : endedCore x b = nextPc x b.taken (issuedCore x b.pend) := by simp only [endedCore, hpost]
    obtain ⟨hstands, hpend, hcyc, -⟩ := nextPc_keeps x b.taken (issuedCore x b.pend)
    rw [hnext]
    refine ⟨hstands.trans hrun, hpend, hcyc, ?taken, ?plain, ?last, ?delay⟩
    case taken => intro a ha; rw [ha]; exact ⟨rfl, rfl, rfl⟩
    case plain => intro ha hbd; simp only [ha, nextPc, hbd, if_true]; exact ⟨trivial, hbd⟩
    case last => intro ha hbd; simp [ha, nextPc, hbd]
    case delay =>
      intro ha hbd
      simp only [ha, nextPc, if_neg (show ¬ x.bd = 0 by omega), if_neg (show ¬ x.bd = 1 by omega)]
      exact ⟨trivial, trivial, rfl⟩
  case rti =>
    intro hpost hu
    have hrti : endedCore x b = rtiCore (issuedCore x b.pend) := by simp only [endedCore, hpost]
    rw [hrti]
    exact ⟨rfl, rfl, rfl, getCr_rtiCore hu⟩
  case wait =>
    intro hpost
    simp only [endedCore, hpost]

end Sys2Proof.Machine

/-! FENCE with stores in the write buffer. -/

namespace Sys2Proof.Machine

/-! ### FENCE (R444) -/

/-- FENCE alone in a bundle drains the write buffer before the bundle ends with its write errors. -/
theorem execFence_of_alone {i : Issue} {w : Word20} {s : State} (h : issuesAlone i (sysWord 0x07 w) s) :
    exec (.fence i w) s =
      .next (issued i (sysWord 0x07 w) (fun b => { b with s := drainAll i.core b.s, sync := true }) s) := by
  have hop := opcode_sysWord 0x07 w i.slot (by decide)
  have hfunc := func_sysWord 0x07 w (by decide)
  have hdo : ∀ k b, opcodeOf k.o = 0x0A → k.f 25 20 = 0x07 → opDo k b = { b with s := drainAll k.c b.s, sync := true } := by
    intro k b ho hf
    simp only [opDo, ho, opSys, hf]
  exact congrArg Host.Outcome.next (issueSt_does i _ s h (fwaits_of_func _ _ (by rw [hfunc]; decide)) _
    (hdo (opCtx i ⟨i.slot, sysWord 0x07 w, false⟩ s) _ hop hfunc) rfl)

/-- After reset, with every domain ON and logical cores 0–7 on the physical cores of their number. -/
def coresOn : State :=
  { State.reset with
    coreMap := [(0, some 0x76543210)]
    pwr := { State.reset.pwr with doms := (List.range 48).map fun d => (d, { PdRec.init with cur := .on }) } }

/-- Core 0 runs at the start of its instruction memory; two lines wait in its write buffer for system SRAM. -/
def twoBuffered : State :=
  setCore coresOn 0 { CoreSt.init with
    run := .running, pc := 0x001100880000
    wbuf := [⟨0x001000008000, List.replicate 64 (some 1)⟩, ⟨0x001000008040, List.replicate 64 (some 2)⟩] }

/-- Slot 1 of core 0, the last of its bundle. -/
def slotOne : Issue := ⟨0, 1, true, 0, 0, false, none⟩

/-- FENCE may issue alone on that core. -/
theorem issuesAlone_twoBuffered : issuesAlone slotOne (sysWord 0x07 0) twoBuffered := by
  unfold issuesAlone
  decide +kernel

/-- The buffer is empty after FENCE. -/
theorem drained_twoBuffered :
    (coreOf (issued slotOne (sysWord 0x07 0) (fun b => { b with s := drainAll slotOne.core b.s, sync := true }) twoBuffered) 0).wbuf =
      [] := by
  decide +kernel

/-- An entry leaves the buffer as the bundle issues; where FENCE drains nothing, the other stays. -/
theorem buffered_twoBuffered :
    (coreOf (issued slotOne (sysWord 0x07 0) (fun b => { b with sync := true }) twoBuffered) 0).wbuf =
      [⟨0x001000008040, List.replicate 64 (some 2)⟩] := by
  decide +kernel

/-- Refutes O37: its clause of FENCE leaves the write buffer as it is at the issue of the bundle, and FENCE drains it (R444,
`execFence_of_alone`). Of two entries of core 0 one leaves as the bundle issues; FENCE sends the other as well. -/
theorem not_systemInstructionsComplete : ¬ Obligations.SystemInstructionsComplete := by
  intro h
  obtain ⟨-, -, -, -, hfence, -⟩ := h slotOne 0 twoBuffered
  have hstate := Host.Outcome.next.inj ((execFence_of_alone issuesAlone_twoBuffered).symm.trans (hfence issuesAlone_twoBuffered))
  have hbuf := congrArg (fun t => (coreOf t 0).wbuf) hstate
  simp only [drained_twoBuffered, buffered_twoBuffered] at hbuf
  exact absurd hbuf (by decide)

end Sys2Proof.Machine

/-! A fire record of class 0 that arrives at a core where one of class 1 waits. -/

namespace Sys2Proof.Machine

/-! ### A record of class 0 that arrives (R115, R451)

The clause of FIRE_RECORD_ARRIVAL puts every record last in the queue of the core's records. R115 puts one of class 0 ahead of the
queued records of class 1–3, and so does the model. -/

/-- A record written to fire slot `i` of core `c` (R451). -/
def fireWritten (c : Nat) (f : FireRec) (i : Nat) (s : State) : State :=
  if isS c then memPut s (corePage c) (slotAddr s c i) (fireBytes f) else (memWrite s (corePage c) (slotAddr s c i) (fireBytes f)).1

/-- The record in slot `i` and in the queue of the core's records, ahead of those of class 1–3 where its class is 0 (R115). -/
def firePlaced (c : Nat) (f : FireRec) (i : Nat) (s : State) : State :=
  modCore (fireWritten c f i s) c fun x => { x with slots := enqueueFire (·.rec_.urg.toNat) (·.current) ⟨i, f, false⟩ x.slots }

/-- A record that has arrived at an enabled core with a free slot is placed in the lowest one, and a core in FWAIT takes it up
(R451, R452). -/
theorem fireArrivalSt_of_free {c i : Nat} {f : FireRec} {s : State}
    (hp : memberPage s f.pool.toNat f.member.toNat = some (corePage c)) (ha : f ∈ s.arrived) (hclk : pageClock s (corePage c) = true)
    (hen : enabled s (corePage c) = true) (hrun : (coreOf s c).run ≠ .halted)
    (hfree : ((List.range (slotCount c)).find? fun i => !(coreOf s c).slots.any fun g => decide (g.idx = i)) = some i) :
    fireArrivalSt c f s =
      let t := firePlaced c f i (takeArrived s f)
      if (coreOf t c).run = .fwait then runBundle c (coreOf t c).staged t else t := by
  have hplace : placeFire (takeArrived s f) c f = (firePlaced c f i (takeArrived s f), true) := by
    have hfree' : ((List.range (slotCount c)).find? fun i =>
      !(coreOf (takeArrived s f) c).slots.any fun g => decide (g.idx = i)) = some i := hfree
    unfold placeFire
    simp only [hfree']
    rfl
  simp [fireArrivalSt, hp, ha, hclk, hen, hrun, hplace]

/-- The same record last in the queue, whatever its class. -/
def fireAppended (c : Nat) (f : FireRec) (i : Nat) (s : State) : State :=
  modCore (fireWritten c f i s) c fun x => { x with slots := x.slots ++ [⟨i, f, false⟩] }

/-- An element that is not of class 0 enters a queue last. -/
theorem enqueueFire_of_classed {α : Type} {cls : α → Nat} {x : α} (h : cls x ≠ 0) (fixed : α → Bool) (l : List α) :
    enqueueFire cls fixed x l = l ++ [x] := by
  induction l with
  | nil => rfl
  | cons y ys ih => simp [enqueueFire, h, ih]

/-- A record of class 1–3 is last in the queue. -/
theorem firePlaced_of_classed {f : FireRec} (h : f.urg.toNat ≠ 0) (c i : Nat) (s : State) :
    firePlaced c f i s = fireAppended c f i s := by
  have hlast := enqueueFire_of_classed (cls := fun g : FireSlot => g.rec_.urg.toNat) (x := ⟨i, f, false⟩) h
  simp only [firePlaced, fireAppended, hlast]

/-- A fire of logical core 0, of class `u`. -/
def fireOfClass (u : BitVec 2) : FireRec := ⟨1, 5, 1, 0, 0, 0, u, false, 0, 0, 0, 0, 0, 0, 0⟩

/-- Core 0 runs, its page enabled; a record of class 1 waits in its slot 0, and one of class 0 has arrived. -/
def urgentArrived : State :=
  { setEnabled (setCore coresOn 0 { CoreSt.init with run := .running, slots := [⟨0, fireOfClass 1, false⟩] }) 0x030 true with
    arrived := [fireOfClass 0] }

/-- The record of class 0 stands ahead of the other. -/
theorem slots_firePlaced_urgent :
    (coreOf (firePlaced 0 (fireOfClass 0) 1 (takeArrived urgentArrived (fireOfClass 0))) 0).slots =
      [⟨1, fireOfClass 0, false⟩, ⟨0, fireOfClass 1, false⟩] := by
  decide +kernel

/-- Appended, it stands behind the other. -/
theorem slots_fireAppended_urgent :
    (coreOf (fireAppended 0 (fireOfClass 0) 1 (takeArrived urgentArrived (fireOfClass 0))) 0).slots =
      [⟨0, fireOfClass 1, false⟩, ⟨1, fireOfClass 0, false⟩] := by
  decide +kernel

/-- Refutes O41: the clause of FIRE_RECORD_ARRIVAL lacks the premise that the record is not of class 0, with which the model places it
as the clause says (`fireArrivalSt_of_free`, `firePlaced_of_classed`). A record of class 0 stands ahead of one of class 1 that
waits (R115). -/
theorem not_coreEventsComplete : ¬ Obligations.CoreEventsComplete := by
  intro h
  obtain ⟨-, -, hclause, -⟩ := h 0 urgentArrived
  have hp : memberPage urgentArrived (fireOfClass 0).pool.toNat (fireOfClass 0).member.toNat = some (corePage 0) := by decide +kernel
  have hclk : pageClock urgentArrived (corePage 0) = true := by decide +kernel
  have hen : enabled urgentArrived (corePage 0) = true := by decide +kernel
  have hrun : (coreOf urgentArrived 0).run ≠ .halted := by decide +kernel
  have hfree : ((List.range (slotCount 0)).find? fun i =>
      !(coreOf urgentArrived 0).slots.any fun g => decide (g.idx = i)) = some 1 := by decide +kernel
  obtain ⟨hexec, -⟩ := hclause (fireOfClass 0) 1 hp List.mem_cons_self hclk hen hrun hfree
  have hclaim : fireArrivalSt 0 (fireOfClass 0) urgentArrived =
      fireAppended 0 (fireOfClass 0) 1 (takeArrived urgentArrived (fireOfClass 0)) :=
    Host.Outcome.next.inj (hexec (by decide +kernel))
  have hdoes : fireArrivalSt 0 (fireOfClass 0) urgentArrived =
      firePlaced 0 (fireOfClass 0) 1 (takeArrived urgentArrived (fireOfClass 0)) :=
    (fireArrivalSt_of_free hp List.mem_cons_self hclk hen hrun hfree).trans (if_neg (by decide +kernel))
  have hslots := congrArg (fun t => (coreOf t 0).slots) (hdoes.symm.trans hclaim)
  simp only [slots_firePlaced_urgent, slots_fireAppended_urgent] at hslots
  exact absurd hslots (by decide)

end Sys2Proof.Machine

/-! MXOP with a store in the write buffer. -/

namespace Sys2Proof.Machine

/-! ### MXOP (R531, R533, R534) -/

/-- The state in which MXC and context `m` have accepted the MXOP of `k` in state `t` (R533). -/
def mxopAccepted (k : OpCtx) (m : Nat × Nat) (t : State) : State :=
  mxAccept t m.1 m.2 (k.f 25 22) ((aReg k.x (k.f 21 19)).toNat % 2 ^ 48) (dReg k.x (2 * k.f 18 16)) (dReg k.x (2 * k.f 18 16 + 1))
    .commit

/-- An MXOP comes behind the stores in the write buffer (R531): once these have left, its MXC accepts it. -/
theorem opMxop_of_accepted {k : OpCtx} {b : Bun} {m : Nat × Nat} (hm : mxcCtx (drainAll k.c b.s) k.c = m)
    (haccept : mxRefusal (drainAll k.c b.s) m.1 (dReg k.x (2 * k.f 18 16)) (dReg k.x (2 * k.f 18 16 + 1)) = 0) :
    opMxop k b = { b with s := mxopAccepted k m (drainAll k.c b.s) } := by
  subst hm
  simp only [opMxop, mxIssue, haccept, ne_eq, not_true_eq_false, if_false, if_true]
  rfl

/-- The command of an MXOP alone in its bundle that its MXC accepts. -/
theorem execMxop_of_accepted {i : Issue} {w : Word26} {s : State} {k : OpCtx} {m : Nat × Nat}
    (hk : k = opCtx i ⟨i.slot, slotWord 0x20 w, false⟩ s) (h : issuesAlone i (slotWord 0x20 w) s)
    (hm : mxcCtx (drainAll i.core (atIssue i ⟨i.slot, slotWord 0x20 w, false⟩ s)) i.core = m)
    (haccept : mxRefusal (drainAll i.core (atIssue i ⟨i.slot, slotWord 0x20 w, false⟩ s)) m.1 (dReg k.x (2 * k.f 18 16))
      (dReg k.x (2 * k.f 18 16 + 1)) = 0) :
    exec (.mxop i w) s =
      .next (issued i (slotWord 0x20 w) (fun b => { b with s := mxopAccepted k m (drainAll i.core b.s) }) s) := by
  subst hk
  exact next_slotWord opMxop h (opMxop_of_accepted (b := bun0 (atIssue i ⟨i.slot, slotWord 0x20 w, false⟩ s)) hm haccept)

/-- `twoBuffered` with MXC0 enabled and a shape pair in D2 and D3. The counter of writes to the first half of system SRAM wraps at the
second write from here, and its key stands ahead of a lower one. -/
def mxopBuffered : State :=
  setEnabled
    { setCore twoBuffered 0 { coreOf twoBuffered 0 with d := [(2, 0x00010001), (3, 0x10002001)] } with
      cnt := [(0x0F0 * 32 + 1, 0xFFFFFFFE), (0, 1)] }
    0x020 true

/-- Slot 3 of core 0, the last of its bundle. -/
def slotThree : Issue := ⟨0, 3, true, 0, 0, false, none⟩

/-- The operands of an MXOP: scoreboard bit 0, the descriptor at A1, the shape pair in D2 and D3. -/
def mxopWord : Word26 := BitVec.ofNat 26 (1 * 2 ^ 19 + 1 * 2 ^ 16)

/-- That MXOP in that slot. -/
def bufferedMxop : OpCtx := opCtx slotThree ⟨slotThree.slot, slotWord 0x20 mxopWord, false⟩ mxopBuffered

/-- Its issue cycle: one store has left the write buffer, one is still in it. -/
def mxopAtIssue : State := atIssue slotThree ⟨slotThree.slot, slotWord 0x20 mxopWord, false⟩ mxopBuffered

theorem issuesAlone_mxopBuffered : issuesAlone slotThree (slotWord 0x20 mxopWord) mxopBuffered := by
  unfold issuesAlone
  decide +kernel

theorem mxRefusal_mxopAtIssue :
    mxRefusal mxopAtIssue (mxcCtx mxopBuffered 0).1 (dReg bufferedMxop.x (2 * bufferedMxop.f 18 16))
      (dReg bufferedMxop.x (2 * bufferedMxop.f 18 16 + 1)) = 0 := by
  decide +kernel

theorem mxRefusal_drained_mxopAtIssue :
    mxRefusal (drainAll 0 mxopAtIssue) (mxcCtx mxopBuffered 0).1 (dReg bufferedMxop.x (2 * bufferedMxop.f 18 16))
      (dReg bufferedMxop.x (2 * bufferedMxop.f 18 16 + 1)) = 0 := by
  decide +kernel

theorem mxcCtx_drained_mxopAtIssue : mxcCtx (drainAll 0 mxopAtIssue) 0 = mxcCtx mxopBuffered 0 := by
  decide +kernel

/-- The store ahead of the MXOP: the counter of writes goes as it wraps, and the counts of the MXC and of the core come behind the
lower key. -/
theorem cnt_of_store_first :
    (issued slotThree (slotWord 0x20 mxopWord)
      (fun b => { b with s := mxopAccepted bufferedMxop (mxcCtx mxopBuffered 0) (drainAll 0 b.s) }) mxopBuffered).cnt =
      [(0, 1), (0x020 * 32, 1), (0x030 * 32, 1)] := by
  decide +kernel

/-- The MXOP ahead of the store: both counts come ahead of the counter of writes, which goes only then. -/
theorem cnt_of_mxop_first :
    (issued slotThree (slotWord 0x20 mxopWord)
      (fun b => { b with s := mxopAccepted bufferedMxop (mxcCtx mxopBuffered 0) mxopAtIssue }) mxopBuffered).cnt =
      [(0x020 * 32, 1), (0x030 * 32, 1), (0, 1)] := by
  decide +kernel

/-- Refutes O40: its clause of MXOP has the operation accepted in the state of its issue, ahead of the stores that are still in the write
buffer, while the model sends these first (R531, `execMxop_of_accepted`). The clause asks neither for an empty buffer nor for counters
whose keys rise (`kup s.cnt`): where a counter that stands ahead of a lower key wraps as the store leaves, the two orders put the counts
of the MXC and of the core at different places of the map. -/
theorem not_vectorMemoryAndMxComplete : ¬ Obligations.VectorMemoryAndMxComplete := by
  intro h
  obtain ⟨-, -, -, -, -, hmxop, -⟩ := h slotThree mxopWord mxopBuffered
  have hclaim : exec (.mxop slotThree mxopWord) mxopBuffered = .next (issued slotThree (slotWord 0x20 mxopWord)
      (fun b => { b with s := mxopAccepted bufferedMxop (mxcCtx mxopBuffered 0) mxopAtIssue }) mxopBuffered) :=
    hmxop issuesAlone_mxopBuffered mxRefusal_mxopAtIssue
  have hdoes := execMxop_of_accepted (k := bufferedMxop) rfl issuesAlone_mxopBuffered mxcCtx_drained_mxopAtIssue
    mxRefusal_drained_mxopAtIssue
  have hcnt := congrArg State.cnt (Host.Outcome.next.inj (hdoes.symm.trans hclaim))
  exact absurd (cnt_of_store_first.symm.trans (hcnt.trans cnt_of_mxop_first)) (by decide)

end Sys2Proof.Machine

/-! The matrix coprocessors: the bundles, the choice of a source, the operation that ends, and the fires. -/

namespace Sys2Proof.Machine

/-! ### Bundles (R537) -/

/-- A squash of a context whose bundle has one operation abandons it, after it has read its operands where it was the context's first. -/
theorem bundleSquashSt_of_single {m k : Nat} {s : State} {o : MxOp}
    (hone : ((mxcOf s m).ops.filter fun o => o.ctx = some k ∧ o.fate = .squash) = [o]) :
    let s0 := if ((mxcOf s m).ops.find? fun q => q.ctx = some k) = some o then mxPeek m o s else s
    let s1 := modMxc s0 m fun x => { x with ops := dropFirst (fun q => decide (q = o)) x.ops }
    bundleSquashSt m k s = incCnt (modCtx s1 m k fun c =>
      { c with busy := c.busy &&& ~~~bit16 o.sb, err := c.err &&& ~~~bit16 o.sb }) (mxcPage m) 3 := by
  have hmem : o ∈ (mxcOf s m).ops.filter fun o => o.ctx = some k ∧ o.fate = .squash := hone ▸ List.mem_singleton_self o
  obtain ⟨-, hdue⟩ := List.mem_filter.mp hmem
  obtain ⟨hctx, -⟩ := of_decide_eq_true hdue
  rw [bundleSquashSt, hone, ← hctx]
  rfl

/-! ### The choice of a source (R516, R517) -/

/-- The first fire of an MXC is of class 0. -/
def fireOfClass0 (x : MxcSt) : Bool := (mxFires x).head?.any fun o => o.fire.any fun f => decide (f.urg = 0)

/-- The next of the nine sources, in rotation, that has an operation. -/
def mxTurn (x : MxcSt) : Option Nat := ((List.range 9).map fun i => (x.rot + 1 + i) % 9).find? fun c => (mxHead x c).isSome

/-- What an MXC runs from a sub-tile boundary on. -/
def mxPickNext (x : MxcSt) : MxcSt :=
  if fireOfClass0 x then mxPick x 8 else (mxTurn x).elim (mxPick x 15) fun c => mxPick { x with rot := c } c

/-- A sub-tile boundary moves its MXC on to what it runs next, and changes nothing else. -/
theorem subtileSt_eq (m : Nat) (s : State) : subtileSt m s = setMxc s m (mxPickNext (mxcOf s m)) := by
  rw [mxPickNext, apply_ite (setMxc s m)]
  refine ite_congr (congrArg (· = true) ?urgent) (fun _ => rfl) (fun _ => ?turn)
  case urgent =>
    unfold fireOfClass0
    cases (mxFires (mxcOf s m)).head? with
    | none => rfl
    | some o => cases h : o.fire <;> simp [h]
  case turn =>
    unfold mxTurn
    cases List.find? _ _ <;> rfl

/-- A fire of class 0 runs first. -/
theorem mxPickNext_of_class0 {x : MxcSt} {o : MxOp} {f : FireRec} (hhead : (mxFires x).head? = some o) (hfire : o.fire = some f)
    (hurg : f.urg = 0) : mxPickNext x = mxPick x 8 :=
  if_pos (by simp [fireOfClass0, hhead, hfire, hurg])

/-- With no fire of class 0 the source whose turn it is runs. -/
theorem mxPickNext_of_turn {x : MxcSt} {c : Nat} (hclass : fireOfClass0 x = false) (hturn : mxTurn x = some c) :
    mxPickNext x = mxPick { x with rot := c } c := by
  simp [mxPickNext, hclass, hturn]

/-- With no fire and no source that has an operation the MXC is idle. -/
theorem mxPickNext_of_none {x : MxcSt} (hhead : (mxFires x).head? = none) (hturn : mxTurn x = none) : mxPickNext x = mxPick x 15 := by
  simp [mxPickNext, fireOfClass0, hhead, hturn]

/-! ### The operation that runs (R531, R532, R536) -/

/-- The operation that runs goes to its end where its bundle is committed or it is a fire. -/
theorem mxcDoneSt_of_ready {m : Nat} {s : State} {o : MxOp} (hnow : (mxcOf s m).ops.find? (·.now) = some o)
    (hready : o.fire.isSome ∨ o.fate = .committed) (parity : Bool) :
    mxcDoneSt m parity s = mxRun m o parity (setMxc s m { mxcOf s m with running := 15 }) := by
  have hgo : ¬ (o.fire.isNone ∧ o.fate ≠ .committed) := fun ⟨hctx, hopen⟩ =>
    hready.elim (fun hfire => by simp [Option.isNone_iff_eq_none.mp hctx] at hfire) hopen
  simp only [mxcDoneSt, hnow, if_neg hgo]

/-- An operation with an owned and valid descriptor of its shape ends with the elements that it has computed. -/
theorem mxRun_of_valid {m : Nat} {s u v : State} {o : MxOp} {ws : List Word} {wk : MxWork}
    (hread : mxDesc s (mxcPage m) o.desc = (u, .ok ws)) (hshape : o.fire.isSome ∨ wWord ws 5 = o.shape0 ∧ wWord ws 6 = o.shape1)
    (hown : bit (wWord ws 0) 31 = true) (hvalid : mxDescOk ws = true) (hgoes : o.cancelled = false)
    (helements : mxElements (mxcPage m) (shapeOf (wWord ws 5) (wWord ws 6)) ws
      (List.range (shapeOf (wWord ws 5) (wWord ws 6)).count) u ⟨0, 0, 0⟩ = (v, wk, none)) :
    mxRun m o false s = mxFinish m o ws ⟨0, 0, 0, wk⟩ v := by
  have hsame : ¬ (o.fire.isNone ∧ (wWord ws 5 ≠ o.shape0 ∨ wWord ws 6 ≠ o.shape1)) := by
    rintro ⟨hctx, hother⟩
    obtain hfire | ⟨h0, h1⟩ := hshape
    · simp [Option.isNone_iff_eq_none.mp hctx] at hfire
    · exact hother.elim (· h0) (· h1)
  simp only [mxRun, hread, hown, if_neg hsame, hvalid, hgoes, helements, Bool.not_true, Bool.false_eq_true, if_false]

/-! ### Fires (R541, R542, R549) -/

/-- The operation of a fire. -/
def mxOfFire (f : FireRec) : MxOp := ⟨none, 0, some f, f.p0.toNat % 2 ^ 48, 0, 0, .committed, false, false, false, false⟩

/-- The state in which MXC `m` has taken a fire. -/
def mxFireTaken (m : Nat) (f : FireRec) (u : State) : State :=
  modMxc (mxRetry m u) m fun x => { x with ops := x.ops ++ [mxOfFire f] }

/-- A fire with an owned and valid descriptor is taken, and exported in host-assisted mode. -/
theorem mxFireStart_of_valid {m : Nat} {f : FireRec} {s u : State} {ws : List Word}
    (hread : mxDesc s (mxcPage m) (f.p0.toNat % 2 ^ 48) = (u, .ok ws)) (hown : bit (wWord ws 0) 31 = true)
    (hvalid : mxDescOk ws = true) (hop : f.opcode.toNat = bits (wWord ws 0) 3 0) :
    mxFireStart m f s = if haActive (mxFireTaken m f u) (mxcPage m) then mxExport m (mxOfFire f) (mxFireTaken m f u)
      else mxFireTaken m f u := by
  have hgood : ¬ (!mxDescOk ws ∨ f.opcode.toNat ≠ bits (wWord ws 0) 3 0) := by simp [hvalid, hop]
  simp only [mxFireStart, hread, hown, Bool.not_true, Bool.false_eq_true, if_false, if_neg hgood]
  rfl

/-- A fire that has arrived at an MXC, enabled, with no earlier one waiting, starts there. -/
theorem execMxcFire_of_enabled {m : Nat} {f : FireRec} {s : State} (hm : f.member.toNat % 16 = m) (ha : f ∈ s.arrived)
    (hc : pageClock s (mxcPage m) = true) (hu : ∀ y ∈ s.unowned, y.1 ≠ mxcPage m) (he : enabled s (mxcPage m) = true) :
    execMxcFire f s = .next (mxFireStart m f (takeArrived s f)) := by
  rw [execMxcFire, hm, fireRow_of_enabled f s _ _ _ ha hc hu he]

/-! ### The rows together -/

/-- Settles O42: each row meets its running block, its page or its fire. -/
theorem mxcCommandsComplete : Obligations.MxcCommandsComplete := by
  intro m s p x
  refine ⟨fun k hr => ⟨?commit, ?squash⟩, fun hr => ?boundary, ?ends, ?fire, ?cancel⟩
  case commit => exact next_whileRuns hr rfl
  case squash =>
    intro o hone
    exact next_whileRuns hr (bundleSquashSt_of_single hone)
  case boundary =>
    have picks {y : MxcSt} (h : mxPickNext x = y) : exec (.subtileBoundary m) s = .next (setMxc s m y) :=
      next_whileRuns hr ((subtileSt_eq m s).trans (congrArg (setMxc s m) h))
    exact ⟨fun o f hhead hfire hurg => picks (mxPickNext_of_class0 hhead hfire hurg),
      fun c hclass hturn => picks (mxPickNext_of_turn hclass hturn),
      fun hhead hturn => picks (mxPickNext_of_none hhead hturn)⟩
  case ends =>
    intro o u ws v wk hr hfc hclk hnow hready hread hshape hown hvalid hgoes h helements
    refine next_whileRuns hr ((dramHold_of_clock hfc hclk _).trans ((mxcDoneSt_of_ready hnow hready false).trans ?_))
    exact mxRun_of_valid hread hshape hown hvalid hgoes helements
  case fire =>
    intro f u ws hm hu ha hc he hread hown hvalid hop op t
    have hrow : exec (.mxcFire f) s = .next (if haActive t p then mxExport m op t else t) :=
      (execMxcFire_of_enabled hm ha hc hu he).trans (congrArg Host.Outcome.next (mxFireStart_of_valid hread hown hvalid hop))
    exact ⟨fun hhardware => hrow.trans (congrArg Host.Outcome.next (if_neg (Bool.eq_false_iff.mp hhardware))),
      fun hassisted => hrow.trans (congrArg Host.Outcome.next (if_pos hassisted))⟩
  case cancel => exact fun a v hr => next_onPage hr rfl

end Sys2Proof.Machine

/-! Every command answers, and what it leaves unchanged. -/

namespace Sys2Proof.Machine

/-! ### The step -/

/-- Settles O1: `step` hands the front of the queue to `exec`. -/
theorem stepRunsTheFrontCommand : Obligations.StepRunsTheFrontCommand := fun _ _ _ => rfl

/-- An outcome is a next state. -/
def Answers (o : Host.Outcome State Fault Refusal) : Prop := ∃ t, o = .next t

theorem Answers.next (t : State) : Answers (.next t) := ⟨t, rfl⟩

theorem Answers.ite {c : Prop} [Decidable c] {o o' : Host.Outcome State Fault Refusal} (h : Answers o) (h' : Answers o') :
    Answers (if c then o else o') := by
  split
  · exact h
  · exact h'

/-- Settles O3: most rows' meanings are a next state as they stand; the others look first at whether they have anything to do. -/
theorem everyCommandAnswers : Obligations.EveryCommandAnswers := by
  intro i s
  show Answers (exec i s)
  cases i
  case dispTemplateLoadDone timedOut =>
    show Answers (execDispTemplateLoadDone timedOut s)
    unfold execDispTemplateLoadDone
    refine .ite (.next _) ?_
    dsimp only
    split
    · exact .next _
    · exact .ite (.next _) (.next _)
  case templateFetchDone t timedOut =>
    show Answers (execTemplateFetchDone t timedOut s)
    unfold execTemplateFetchDone
    refine .ite (.next _) ?_
    dsimp only
    split <;> exact .next _
  case fireIssue pool =>
    show Answers (execFireIssue pool s)
    unfold execFireIssue
    refine .ite (.next _) ?_
    split
    · exact .next _
    · split <;> exact .next _
  case agePromotion t inst =>
    show Answers (execAgePromotion t inst s)
    unfold execAgePromotion
    dsimp only
    split
    · exact .next _
    · exact .ite (.next _) (.next _)
  case voterMinority => exact .ite (.next _) (.next _)
  case chainCommitApply k c =>
    show Answers (execChainCommitApply k c s)
    unfold execChainCommitApply
    refine .ite (.next _) ?_
    split
    · exact .next _
    · dsimp only
      split <;> exact .next _
  case mirrorSwitch => exact .ite (.next _) (.next _)
  case sourceAssert => exact .ite (.next _) (.next _)
  case sourceDeassert => exact .ite (.next _) (.next _)
  case fatal => exact .ite (.next _) (.ite (.next _) (.next _))
  case fatalResetDelay =>
    show Answers (execFatalResetDelay s)
    unfold execFatalResetDelay
    split <;> exact .next _
  all_goals exact .next _

/-- A step is a tick on the empty queue, or the front command on the rest. -/
theorem step_cases {s t : State} (e : step s = .next t) :
    (s.pending = [] ∧ t = idleTick s) ∨ ∃ i q, s.pending = i :: q ∧ exec i { s with pending := q } = .next t := by
  unfold step at e
  split at e
  case h_1 h => exact .inl ⟨h, (Host.Outcome.next.inj e).symm⟩
  case h_2 i q h => exact .inr ⟨i, q, h, e⟩

/-- The frame of a tick. -/
theorem idleTick_to (s : State) : To 7696962183378 s (idleTick s) := tick_to (Nat.or_self _) (To.refl _ s)

/-- The frame of a command that is answered. -/
theorem exec_frame {i : Instr} {s t : State} (e : exec i s = .next t) : To (footprint i) s t := exec_to i (To.refl _ s) t e

/-- Settles O4: the queue is in no footprint. -/
theorem queueIsFirstInFirstOut : Obligations.QueueIsFirstInFirstOut := by
  have keeps : ∀ (i : Instr) (s t : State), exec i s = .next t → t.pending = s.pending :=
    fun i s t e => (exec_frame e).pending (footprint_pending i)
  refine ⟨keeps, fun s t e => ?_⟩
  obtain ⟨h, rfl⟩ | ⟨i, q, h, e⟩ := step_cases e
  · rw [(idleTick_to s).pending rfl, h, List.tail_nil]
  · rw [keeps i _ t e, h, List.tail_cons]

/-- Settles O7: the frame of a tick and of every command has the fuses grow. -/
theorem fuseBitsOnlyRise : Obligations.FuseBitsOnlyRise := by
  intro s t e
  obtain ⟨-, rfl⟩ | ⟨i, q, -, e⟩ := step_cases e
  · exact (idleTick_to s).fused
  · exact (exec_frame e).fused

/-- Settles O9: each service has its bit in the frame of the command. -/
theorem frameOfServices : Obligations.FrameOfServices := by
  intro i s t e
  have h : To (footprint i) s t := exec_frame e
  exact ⟨h.fuses, h.boot, h.pwr, h.clk, h.time, h.usTick, h.evt, h.fab, h.memc, h.lanes, h.cuw, h.pkt, h.tm, h.pcie, h.phys,
    h.fapi⟩

/-- Settles O10: each unit has its bit in the frame of the command. -/
theorem frameOfUnits : Obligations.FrameOfUnits := by
  intro i s t e
  have h : To (footprint i) s t := exec_frame e
  exact ⟨h.links, h.lemc, h.chains, h.subs, h.dfe, h.ofdm, h.fec, h.prism, h.cal, h.spareJobs, h.disp, h.arrived, h.unowned,
    h.cores, h.mxc, h.mxCtx, h.dma, h.dmaEng⟩

/-! ### The tick of an idle device -/

/-- What a tick does to the time is the time unit's own. -/
theorem idleTick_time (s : State) : (idleTick s).time = (timeTick s).time :=
  ((phyPoll_to (Nat.or_self _) (To.refl _ _)).time rfl).trans ((sampleTick_to (Nat.or_self _) (To.refl _ _)).time rfl)

theorem timeTick_time (s : State) :
    (timeTick s).time = if pllOn s 19 then { s.time with free := s.time.free + 1, made := s.time.made + 1, acc := s.time.acc + incr s }
      else { s.time with free := s.time.free + 1 } := by
  unfold timeTick
  split <;> rfl

theorem timeTick_eq (s : State) : timeTick s = { s with time := (timeTick s).time } := by
  unfold timeTick
  split <;> rfl

/-- Without a PHY no controlled stop ends. -/
theorem phyPoll_of_noPhy {s : State} (h : s.phys = []) : phyPoll s = s := by
  unfold phyPoll
  rw [h, List.foldl_nil]

/-- A fold whose every step leaves the state leaves it. -/
theorem foldl_fixed {α β : Type} {f : α → β → α} {a : α} {l : List β} (h : ∀ x ∈ l, f a x = a) : l.foldl f a = a := by
  induction l with
  | nil => rfl
  | cons x xs ih =>
    rw [List.foldl_cons, h x (List.mem_cons_self ..)]
    exact ih fun y hy => h y (List.mem_cons_of_mem _ hy)

/-- No symbol of an OFDM block completes where no operation is in progress. -/
theorem ofdmTick_of_idle {s : State} (h : ∀ k < 4, (ofdmOf s k).ops = []) : ofdmTick s = s := by
  refine foldl_fixed fun k hk => ?_
  unfold whileRuns
  split
  · dsimp only
    rw [h k (List.mem_range.mp hk)]
    rfl
  · rfl

/-- No lane sample moves without the sample PLL, nor where no DFE group lives and no OFDM operation is in progress. -/
theorem sampleTick_of_idle {s : State} (h : pllOn s 19 = false ∨ ∀ k < 4, groupLive s k = false ∧ (ofdmOf s k).ops = []) :
    sampleTick s = s := by
  unfold sampleTick
  obtain hp | hi := h
  · simp [hp]
  · have lanes : (List.range 4).foldl (fun s k => if groupLive s k && laneDue s k then laneTick k s else s) s = s :=
      foldl_fixed fun k hk => by simp [(hi k (List.mem_range.mp hk)).1]
    rw [lanes, ofdmTick_of_idle fun k hk => (hi k hk).2]
    exact ite_self _

/-- With nothing to do in a tick only the time changes. -/
theorem idleTick_of_idle {s : State} (hphy : s.phys = [])
    (h : pllOn s 19 = false ∨ ∀ k < 4, groupLive s k = false ∧ (ofdmOf s k).ops = []) : idleTick s = timeTick s := by
  have hphy' : (timeTick s).phys = [] := by rw [timeTick_eq, hphy]
  have h' : pllOn (timeTick s) 19 = false ∨ ∀ k < 4, groupLive (timeTick s) k = false ∧ (ofdmOf (timeTick s) k).ops = [] := by
    rw [timeTick_eq]
    exact h
  rw [idleTick, sampleTick_of_idle h', phyPoll_of_noPhy hphy']

/-- The parts of the state that a tick may change. -/
theorem idleTick_parts {s t : State} (h : To 7696962183378 s t) :
    t = { s with time := t.time, regs := t.regs, cnt := t.cnt, memErr := t.memErr, hostMem := t.hostMem, usTick := t.usTick,
                 memc := t.memc, evt := t.evt, links := t.links, chains := t.chains, dfe := t.dfe, ofdm := t.ofdm,
                 prism := t.prism, pcie := t.pcie, phys := t.phys, fapi := t.fapi } := by
  rw [← h.pending rfl, ← h.holdRd rfl, ← h.holdWr rfl, ← h.mem rfl, ← h.coreMap rfl, ← h.fuses rfl, ← h.freeCtr rfl,
    ← h.rdOut rfl, ← h.arrived rfl, ← h.disp rfl, ← h.fab rfl, ← h.pwr rfl, ← h.clk rfl, ← h.lemc rfl, ← h.subs rfl,
    ← h.fec rfl, ← h.cal rfl, ← h.spareJobs rfl, ← h.cores rfl, ← h.mxc rfl, ← h.mxCtx rfl, ← h.dma rfl, ← h.dmaEng rfl,
    ← h.lanes rfl, ← h.cuw rfl, ← h.pkt rfl, ← h.tm rfl, ← h.boot rfl, ← h.unowned rfl]

/-- Settles O2: the samples and the PHYs leave the time alone, and have nothing to do in an idle device. -/
theorem idleStepTicks : Obligations.IdleStepTicks := by
  intro s hq
  refine ⟨idleTick s, by unfold step; rw [hq], (idleTick_time s).trans (timeTick_time s), idleTick_parts (idleTick_to s),
    fun hphy hidle => ?_⟩
  rw [idleTick_of_idle hphy hidle]
  exact timeTick_eq s

end Sys2Proof.Machine

/-! FREE counts the ticks of CD19 alone: no operation of a command reaches the count. -/

namespace Sys2Proof.Machine

/-! ### What leaves the count (R739) -/

/-- FREE stands at `n`. -/
def FreeIs (n : Nat) (s : State) : Prop := freeNow s = n

section Count

variable {n : Nat} {s : State}

/-- Whatever leaves the time unit as it is leaves the count. -/
theorem FreeIs.frame {T : Nat} {s t : State} (h : FreeIs n s) (k : To T s t) (hT : T.testBit 14 = false) : FreeIs n t :=
  (congrArg TimeSt.made (k.time hT)).trans h

theorem FreeIs.ite {c : Prop} [Decidable c] {s t : State} (h : FreeIs n s) (k : FreeIs n t) : FreeIs n (if c then s else t) := by
  split
  · exact h
  · exact k

theorem FreeIs.foldlOf {α β : Type} (g : β → State) {f : β → α → β} (l : List α) (hf : ∀ b x, FreeIs n (g b) → FreeIs n (g (f b x)))
    {b : β} (h : FreeIs n (g b)) : FreeIs n (g (l.foldl f b)) := by
  induction l generalizing b with
  | nil => exact h
  | cons x xs ih => exact ih (hf b x h)

theorem FreeIs.foldl {α : Type} {g : State → α → State} (l : List α) (hg : ∀ s x, FreeIs n s → FreeIs n (g s x))
    (h : FreeIs n s) : FreeIs n (l.foldl g s) :=
  FreeIs.foldlOf id l hg h

/-! ### The time unit -/

theorem FreeIs.modTime {f : TimeSt → TimeSt} (h : FreeIs n s) (hf : (f s.time).made = s.time.made) :
    FreeIs n (modTime s f) := hf.trans h

theorem ppsRearm_free (h : FreeIs n s) : FreeIs n (ppsRearm s) := h

theorem timeStep_free {off : Int} (h : FreeIs n s) : FreeIs n (timeStep off s) := h

theorem setTc_free {k r : Nat} {v : Word} (h : FreeIs n s) : FreeIs n (setTc s k r v) := h

theorem setEvt_free {p b : Nat} (h : FreeIs n s) : FreeIs n (setEvt s p b) := h

theorem setGoSt_free (h : FreeIs n s) : FreeIs n (setGoSt s) := by
  unfold setGoSt
  exact timeStep_free (setEvt_free (.modTime (.foldl _ (fun _ _ => setTc_free) h) rfl))

theorem ppsOutCfg_free {v : Word} (h : FreeIs n s) : FreeIs n (ppsOutCfg v s) := .ite h h

theorem tcCtrlWrite_free {k : Nat} {v : Word} (h : FreeIs n s) : FreeIs n (tcCtrlWrite k v s) := by
  have level {u : State} (hu : FreeIs n u) : FreeIs n (tcLevel u) := hu.frame (tcLevel_to (Nat.or_self _) (.refl _ _)) rfl
  refine .ite (level ?_) (.ite (level (FreeIs.frame (setTc_free h) (ownErr_to (Nat.or_self _) (.refl _ _)) rfl)) (level ?_))
  · have seen : FreeIs n (if bit (v &&& 0xC300000F) 30 = bit (tcReg s k 0) 30 then s else setEvt s 0x003 6) := .ite h h
    exact FreeIs.ite (c := bit (v &&& 0xC300000F) 31 = true) seen seen
  · exact FreeIs.ite (c := bit (v &&& 0xC300000F) 31 = true) h h

theorem writeTcmp_free {p off : Nat} {v : Word} (h : FreeIs n s) : FreeIs n (writeTcmp p off v s) := by
  unfold writeTcmp
  dsimp only
  split
  · exact tcCtrlWrite_free h
  · exact .ite (h.frame (tcHeldWrite_to (Nat.or_self _) (.refl _ _)) rfl) h
  · exact h

theorem writeTime_free {off : Nat} {v : Word} (h : FreeIs n s) : FreeIs n (writeTime off v s) := by
  have stored : FreeIs n (storeReg 0x003 off 0 v s) := h.frame (storeReg_to (Nat.or_self _) (.refl _ _)) rfl
  exact .ite h (.ite (.ite (setGoSt_free h) h) (.ite (ppsOutCfg_free h) (.ite stored stored)))

theorem tcNext_free {k : Nat} (h : FreeIs n s) : FreeIs n (tcNext k s) := .ite h h

theorem snapTrigger_free (h : FreeIs n s) : FreeIs n (snapTrigger s) := by
  unfold snapTrigger
  dsimp only
  generalize (match s.time.lastBcast with
    | some t => !usSince s t 10
    | none => false) = early
  exact .ite h h

theorem tcmpFireSt_free {k : Nat} (h : FreeIs n s) : FreeIs n (tcmpFireSt k s) := by
  unfold tcmpFireSt
  refine .ite h ?_
  refine FreeIs.frame ?_ (dmaTime_to (Nat.or_self _) (tcLevel_to rfl (.refl _ _))) rfl
  refine .ite (tcNext_free ?_) (setTc_free ?_)
  all_goals
    refine .ite (snapTrigger_free ?_) ?_
    all_goals exact .ite h h

theorem ppsInSt_free {rising : Bool} (h : FreeIs n s) : FreeIs n (ppsInSt rising s) := .ite h h

theorem ppsLossSt_free (h : FreeIs n s) : FreeIs n (ppsLossSt s) := by
  unfold ppsLossSt
  split
  · exact h
  · exact .ite (FreeIs.frame (setEvt_free (.modTime h rfl)) (ownErr_to (Nat.or_self _) (.refl _ _)) rfl) h

theorem ppsRiseSt_free (h : FreeIs n s) : FreeIs n (ppsRiseSt s) := .ite h h

theorem ppsFallSt_free (h : FreeIs n s) : FreeIs n (ppsFallSt s) := .ite h h

theorem snapCopySt_free (h : FreeIs n s) : FreeIs n (snapCopySt s) := by
  unfold snapCopySt
  split
  · exact h
  · have copied {x : Snap} {u : State} (hu : FreeIs n u) : FreeIs n (headerPages.foldl (snapPage x.seq) u) :=
      .foldl _ (fun _ _ h => h.frame (snapPage_to (Nat.or_self _) (.refl _ _)) rfl) hu
    exact .ite (FreeIs.frame (copied (.modTime h rfl)) (tmSnap_to (Nat.or_self _) (.refl _ _)) rfl) (copied (.modTime h rfl))

theorem snapSeqSt_free (h : FreeIs n s) : FreeIs n (snapSeqSt s) := by
  unfold snapSeqSt
  split
  · exact h
  · exact FreeIs.frame (.modTime h rfl) (statsAnswers_to (Nat.or_self _) (setReg_to rfl (.refl _ _))) rfl

/-! ### Resets of a block and of a domain -/

theorem blockDrop_free {p : Nat} (h : FreeIs n s) : FreeIs n (blockDrop p s) := by
  unfold blockDrop
  refine .foldl _ (fun _ _ h => h.frame (failFire_to (Nat.or_self _) (.refl _ _)) rfl) ?_
  refine FreeIs.frame ?_ (To.set_unowned (Nat.or_self _) (.refl _ _)) rfl
  refine .foldl _ (fun _ _ h => h) ?_
  split
  · exact h.frame (evtDrop_to (Nat.or_self _) (.refl _ s)) rfl
  · exact h
  · exact h
  · exact h
  · exact h.frame (pcieDrop_to (Nat.or_self _) (.refl _ s)) rfl
  · exact h.frame (pktDrop_to (Nat.or_self _) (.refl _ s)) rfl
  · exact h.frame (tmDrop_to (Nat.or_self _) (.refl _ s)) rfl
  · exact h
  · exact h.frame (prismDrop_to (Nat.or_self _) (.refl _ s)) rfl
  · exact h
  · exact h.frame (clusterDrop_to (Nat.or_self _) (.refl _ s)) rfl
  · exact h.frame (mxDrop_to (Nat.or_self _) (.refl _ s)) rfl
  · exact h.frame (coreDrop_to (Nat.or_self _) (.refl _ s)) rfl
  · exact h.frame (coreDrop_to (Nat.or_self _) (.refl _ s)) rfl
  · exact (h.frame (dfeDrop_to (Nat.or_self _) (.refl _ s)) rfl).frame (calAbortAll_to (Nat.or_self _) (.refl _ _)) rfl
  · exact h.frame (ofdmDrop_to (Nat.or_self _) (.refl _ s)) rfl
  · exact h.frame (fecDrop_to (Nat.or_self _) (.refl _ s)) rfl
  · exact h.frame (dmaDrop_to (Nat.or_self _) (.refl _ s)) rfl
  · exact .ite (h.frame (dramDrop_to (Nat.or_self _) (.refl _ s)) rfl) h
  · exact .ite h h
  · exact h.frame (rtrDrop_to (Nat.or_self _) (.refl _ s)) rfl
  · exact h.frame (linkDrop_to (Nat.or_self _) (.refl _ s)) rfl
  · exact h.frame (subDrop_to (Nat.or_self _) (.refl _ s)) rfl
  · exact h
  · exact h

theorem setReg_free {p off : Nat} {v : Word} (h : FreeIs n s) : FreeIs n (setReg s p off v) := h

theorem softSteps_free {p : Nat} (h : FreeIs n s) : FreeIs n (softSteps p s) := by
  unfold softSteps
  have quelled : FreeIs n (if pageKind p = some .dma then dmaQuell (p - 0x0D8) s else s) :=
    .ite (h.frame (dmaQuell_to (Nat.or_self _) (.refl _ _)) rfl) h
  exact setReg_free (setReg_free (.ite quelled (FreeIs.frame (blockDrop_free quelled) (resetRegs_to (Nat.or_self _) (.refl _ _)) rfl)))

theorem softResetSt_free {p : Nat} (h : FreeIs n s) : FreeIs n (softResetSt p s) := .ite h (softSteps_free h)

theorem softDoneSt_free {p : Nat} (h : FreeIs n s) : FreeIs n (softDoneSt p s) :=
  .ite h (setReg_free (setReg_free (softSteps_free h)))

theorem ctrlWrite_free {p : Nat} {v : Word} (h : FreeIs n s) : FreeIs n (ctrlWrite p v s) := by
  have enabling : FreeIs n (if bit v 0 then enableSt p s else disableSt p s) :=
    .ite (h.frame (enableSt_to (Nat.or_self _) (.refl _ _)) rfl) (h.frame (disableSt_to (Nat.or_self _) (.refl _ _)) rfl)
  exact .ite (softResetSt_free enabling) enabling

theorem writeHeader_free {p off : Nat} {v : Word} (h : FreeIs n s) : FreeIs n (writeHeader p off v s) := by
  have stored : FreeIs n (storeReg p off 0 v s) := h.frame (storeReg_to (Nat.or_self _) (.refl _ _)) rfl
  exact .ite (ctrlWrite_free h) (.ite (h.frame (errCauseWrite_to (Nat.or_self _) (.refl _ _)) rfl) (.ite h (.ite h
    (.ite (stored.frame (pageLevels_to (Nat.or_self _) (.refl _ _)) rfl) stored))))

theorem forceReset_free {d : Nat} (h : FreeIs n s) : FreeIs n (forceReset d s) :=
  .foldl _ (fun _ _ h => setReg_free (setReg_free (softSteps_free h))) h

theorem pageOffSt_free {p : Nat} (h : FreeIs n s) : FreeIs n (pageOffSt p s) := by
  have lanes {l : List Nat} {u : State} (hu : FreeIs n u) : FreeIs n (l.foldl (fun s l => laneDomain p l 0 s) u) :=
    .foldl _ (fun _ _ h => h.frame (laneDomain_to (Nat.or_self _) (.refl _ _)) rfl) hu
  unfold pageOffSt
  refine FreeIs.frame (blockDrop_free ?_) (To.set_cnt (T := 30) rfl (resetRegs_to rfl (.refl _ _)) (kup_filter _ _)) rfl
  split
  · exact h.frame (mxOff_to (Nat.or_self _) (.refl _ _)) rfl
  · exact lanes h
  · exact lanes h
  · exact lanes h
  · exact lanes (h.frame (linkDrop_to (Nat.or_self _) (.refl _ _)) rfl)
  · exact h

theorem domainOff_free {d : Nat} (h : FreeIs n s) : FreeIs n (domainOff d s) := by
  unfold domainOff
  refine .foldl _ (fun _ _ h => h.frame (moveRow_to (Nat.or_self _) (.refl _ _)) rfl) ?_
  have banks := (FreeIs.foldl (domainPages d) (g := fun s p => pageOffSt p s) (fun _ _ => pageOffSt_free) h).frame
    (zeroBanks_to (lost := retBits d) (n := d) (Nat.or_self _) (.refl _ _)) rfl
  refine FreeIs.frame ?_ (modMemc_to (Nat.or_self _) (.refl _ _)) rfl
  exact .ite banks banks

/-! ### Power requests -/

theorem setPd_free {d : Nat} {r : PdRec} (h : FreeIs n s) : FreeIs n (setPd s d r) := h

theorem recordEnd_free {d r : Nat} (h : FreeIs n s) : FreeIs n (recordEnd d r s) :=
  h.frame (recordEnd_to (Nat.or_self _) (.refl _ _)) rfl

theorem beginTrans_free {d : Nat} {want : PdState} {q : Option PdReq} (h : FreeIs n s) : FreeIs n (beginTrans s d want q) :=
  h.frame (beginTrans_to (Nat.or_self _) (.refl _ _)) rfl

theorem endReq_free {d r : Nat} {q : PdReq} (h : FreeIs n s) : FreeIs n (endReq d q r s) :=
  h.frame (endReq_to (Nat.or_self _) (.refl _ _)) rfl

theorem tryStart_free {d : Nat} {q : PdReq} (h : FreeIs n s) : FreeIs n (tryStart d q s).1 := by
  unfold tryStart
  dsimp only
  split
  · exact h
  · split
    · exact h
    · split
      · exact beginTrans_free h
      · split
        · dsimp only
          exact beginTrans_free (forceReset_free h)
        · exact h

theorem submitPd_free {d : Nat} {q : PdReq} (h : FreeIs n s) : FreeIs n (submitPd d q s).1 := by
  unfold submitPd
  dsimp only
  split
  · refine setPd_free ?_
    exact .ite (recordEnd_free h) h
  · refine tryStart_free (setPd_free ?_)
    exact .ite (recordEnd_free h) h

theorem askPd_free {d : Nat} {q : PdReq} (h : FreeIs n s) : FreeIs n (askPd d q s) := by
  have asked : FreeIs n (submitPd d q s).1 := submitPd_free h
  unfold askPd
  split
  case h_1 e => rwa [e] at asked
  case h_2 e => exact endReq_free (by rwa [e] at asked)

theorem grpEnd_free {g r d : Nat} (h : FreeIs n s) : FreeIs n (grpEnd g r d s) := h.frame (grpEnd_to (Nat.or_self _) (.refl _ _)) rfl

theorem grpStart_free {g : Nat} {want : PdState} {e : EntryCond} (h : FreeIs n s) : FreeIs n (grpStart g want e s) :=
  h.frame (grpStart_to (Nat.or_self _) (.refl _ _)) rfl

theorem setGrp_free {g : Nat} {x : GrpRec} (h : FreeIs n s) : FreeIs n (setGrp s g x) := h

theorem grpStep_free {g : Nat} (h : FreeIs n s) : FreeIs n (grpStep g s) := by
  unfold grpStep
  dsimp only
  split
  · split
    · exact FreeIs.frame (setEvt_free (grpEnd_free h)) (incCnt_to (Nat.or_self _) (.refl _ _)) rfl
    · exact .ite (setGrp_free h) (askPd_free (setGrp_free h))
  · split
    · split
      · exact grpStart_free (setGrp_free (grpEnd_free h))
      · exact grpEnd_free h
    · exact askPd_free (setGrp_free h)

theorem runGroups_free {k : Nat} (h : FreeIs n s) : FreeIs n (runGroups k s) := by
  induction k generalizing s with
  | zero => exact h
  | succ k ih =>
    have held : FreeIs n (grpHeld s) := h.frame (grpHeld_to (Nat.or_self _) (.refl _ _)) rfl
    unfold runGroups
    dsimp only
    split
    · exact held
    · exact ih (grpStep_free held)

theorem pdReqSt_free {d : Nat} {want : PdState} {e : EntryCond} (h : FreeIs n s) : FreeIs n (pdReqSt d want e s) :=
  .ite (recordEnd_free h) (runGroups_free (askPd_free h))

theorem grpReqSt_free {g : Nat} {want : PdState} {e : EntryCond} (h : FreeIs n s) : FreeIs n (grpReqSt g want e s) := by
  unfold grpReqSt
  dsimp only
  split
  · exact setGrp_free (.ite (setEvt_free (setGrp_free h)) h)
  · exact runGroups_free (grpStart_free h)

theorem reqWrite_free {f : PdState → EntryCond → State → State} (hf : ∀ want e {u}, FreeIs n u → FreeIs n (f want e u)) {v : Word}
    (h : FreeIs n s) : FreeIs n (reqWrite f v s) := by
  unfold reqWrite
  dsimp only
  split
  · exact hf _ _ h
  · exact hf _ _ h
  · exact hf _ _ h
  · exact h

theorem writePwrc_free {off : Nat} {v : Word} (h : FreeIs n s) : FreeIs n (writePwrc off v s) :=
  .ite (reqWrite_free (fun _ _ _ => pdReqSt_free) h)
    (.ite (reqWrite_free (fun _ _ _ => grpReqSt_free) h) (h.frame (storeReg_to (Nat.or_self _) (.refl _ _)) rfl))

theorem quiesceTimeoutSt_free {d : Nat} (h : FreeIs n s) : FreeIs n (quiesceTimeoutSt d s) := by
  unfold quiesceTimeoutSt
  split
  · exact .ite (runGroups_free (endReq_free (setPd_free h))) h
  · exact h

theorem freeFires_free {d : Nat} {on : Bool} (h : FreeIs n s) : FreeIs n (freeFires d on s) :=
  h.frame (freeFires_to (Nat.or_self _) (.refl _ _)) rfl

theorem settle_free {d : Nat} {want : PdState} (h : FreeIs n s) : FreeIs n (settle d want s) := by
  unfold settle
  split
  · exact freeFires_free (domainOff_free h)
  · exact h.frame (domainRetain_to (Nat.or_self _) (.refl _ _)) rfl
  · exact freeFires_free (h.frame (domainOn_to (Nat.or_self _) (.refl _ _)) rfl)

theorem afterTrans_free {d : Nat} {latched : Bool} (h : FreeIs n s) : FreeIs n (afterTrans d latched s) := by
  have counted : FreeIs n (incCnt s 0x004 2) := h.frame (incCnt_to (Nat.or_self _) (.refl _ _)) rfl
  refine .ite (beginTrans_free counted) (.ite (h.frame (wakeDomain_to (Nat.or_self _) (.refl _ _)) rfl) ?_)
  split
  case h_1 q _ =>
    have started : FreeIs n (tryStart d q (setPd s d { pdRec s d with held := none })).1 := tryStart_free (setPd_free h)
    dsimp only
    split
    case h_1 e => rwa [e] at started
    case h_2 e => exact endReq_free (by rwa [e] at started)
  case h_2 => exact h

theorem lowerV_free (h : FreeIs n s) : FreeIs n (lowerV s) := h.frame (lowerV_to (Nat.or_self _) (.refl _ _)) rfl

/-- What follows a transition that is over. -/
theorem afterEnd_free {d : Nat} {latched : Bool} (h : FreeIs n s) :
    FreeIs n (runGroups grpFuel (nextSwitchOn (afterTrans d latched s))) :=
  runGroups_free ((afterTrans_free h).frame (nextSwitchOn_to (Nat.or_self _) (.refl _ _)) rfl)

theorem transDoneSt_free {d : Nat} (h : FreeIs n s) : FreeIs n (transDoneSt d s) := by
  unfold transDoneSt
  refine .ite h (afterEnd_free ?_)
  have timed : FreeIs n (incCnt (setReg s 0x004 (0x414 + 0x20 * d) (w32 (min (nsSince s (pdRec s d).began) 0xFFFFFFFF))) 0x004 0) :=
    FreeIs.frame (setReg_free h) (incCnt_to (Nat.or_self _) (.refl _ _)) rfl
  have woken {u : State} (hu : FreeIs n u) : FreeIs n (unWoke d u) := hu.frame (unWoke_to (Nat.or_self _) (.refl _ _)) rfl
  have settled := lowerV_free (settle_free (d := d) (want := (pdRec s d).target)
    (woken (setPd_free (d := d) (r := { pdRec s d with cur := (pdRec s d).target, doing := none, latched := false }) timed)))
  split
  · exact endReq_free settled
  · exact settled

theorem pgFailSt_free {d : Nat} (h : FreeIs n s) : FreeIs n (pgFailSt d s) := by
  unfold pgFailSt
  refine .ite h (afterEnd_free (lowerV_free ?_))
  have failed := FreeIs.frame (setEvt_free (p := 0x004) (b := 4) (freeFires_free (d := d) (on := false) (domainOff_free (d := d)
    (setPd_free (d := d) (r := { pdRec s d with cur := .off, doing := none, latched := false }) h))))
    (ownErr_to (p := 0x004) (cls := 5) (code := 0x02) (addr := noAddr d) (Nat.or_self _) (.refl _ _)) rfl
  split
  · exact endReq_free failed
  · exact setPd_free failed

/-! ### Resets of the device, and the boot -/

/-- A warm or a fatal reset keeps FREE (R827). -/
theorem warmReset_free {cause : Word} {dram : Bool} (h : FreeIs n s) : FreeIs n (warmReset cause dram s) := by
  unfold warmReset
  refine FreeIs.frame ?_ (selfRefreshLost_to (Nat.or_self _) (.refl _ _)) rfl
  exact h

theorem rstCmdSt_free {v : Word} (h : FreeIs n s) : FreeIs n (rstCmdSt v s) := .ite (warmReset_free h) h

theorem writeBoot_free {off : Nat} {v : Word} (h : FreeIs n s) : FreeIs n (writeBoot off v s) :=
  .ite (rstCmdSt_free h) (.ite (h.frame (wdogCfgSt_to (Nat.or_self _) (.refl _ _)) rfl)
    (.ite (h.frame (wdogKickSt_to (Nat.or_self _) (.refl _ _)) rfl)
    (.ite (.ite h (h.frame (flashCmd_to (Nat.or_self _) (.refl _ _)) rfl))
    (.ite (h.frame (cfgGoSt_to (Nat.or_self _) (.refl _ _)) rfl) (.ite (h.frame (pcieGoSt_to (Nat.or_self _) (.refl _ _)) rfl)
    (h.frame (storeReg_to (Nat.or_self _) (.refl _ _)) rfl))))))

theorem moveRow_free {arr row : Nat} (h : FreeIs n s) : FreeIs n (moveRow arr row s).1 :=
  h.frame (moveRow_to (Nat.or_self _) (.refl _ _)) rfl

theorem selfTestSt_free {failed : List (Fin 320)} {fatal ok : Bool} (h : FreeIs n s) : FreeIs n (selfTestSt failed fatal ok s) := by
  have stage {k : Nat} {u : State} (hu : FreeIs n u) : FreeIs n (setStage k u) := hu.frame (setStage_to (Nat.or_self _) (.refl _ _)) rfl
  have repaired {l : List (Nat × Nat)} {units : List Nat} {u : State} (hu : FreeIs n u) :
      FreeIs n (l.foldl (fun s r => if arrayOn s (r.1 / 256) (r.1 % 256) then (moveRow r.1 r.2 s).1 else s)
        (units.foldl (fun s n => domainOff n (setPd s n { pdRec s n with cur := .off })) u)) :=
    .foldl _ (fun _ _ h => .ite (moveRow_free h) h) (.foldl _ (fun _ _ h => domainOff_free (setPd_free h)) hu)
  have tested {f : BootSt → BootSt} : FreeIs n (modBoot s f) := h
  unfold selfTestSt
  refine .ite h (.ite (stage ?_) (stage (.foldl _ (fun _ _ h => h.frame (enableSt_to (Nat.or_self _) (.refl _ _)) rfl) ?_)))
  all_goals exact .ite (repaired tested) (repaired tested)

theorem stopTimeoutSt_free {phy : Nat} (h : FreeIs n s) : FreeIs n (stopTimeoutSt phy s) := by
  refine .ite h ?_
  have reset : FreeIs n ((heldPages s phy).foldl (fun s p => softResetSt p s) s) := .foldl _ (fun _ _ => softResetSt_free) h
  have forced : FreeIs n (forceStop s phy) := .foldl _ (fun _ _ h => h) reset
  exact forced.frame (phyStopped_to (Nat.or_self _) (.refl _ _)) rfl

end Count

end Sys2Proof.Machine

/-! Register writes, transfers and bundles leave FREE, and so does every command but a power-on reset. -/

namespace Sys2Proof.Machine

section Writes

variable {n : Nat} {s : State}

/-! ### Register writes -/

theorem storeReg_free {p off i : Nat} {v : Word} (h : FreeIs n s) : FreeIs n (storeReg p off i v s) :=
  h.frame (storeReg_to (Nat.or_self _) (.refl _ _)) rfl

/-- The state after a write, where the write's row answers one. -/
theorem afterOf_free {o : Host.Outcome State Fault Refusal} {T : Nat} (ho : Out T s o) (h : FreeIs n s)
    (hT : T.testBit 14 = false) : FreeIs n (afterOf o s) :=
  h.frame (afterOf_to ho (.refl _ _)) hT

theorem writeOne_free {a : Acc} {p off : Nat} {v : Word} (h : FreeIs n s) : FreeIs n (writeOne a p off v s) := by
  have stored : FreeIs n (storeReg p off 0 v s) := storeReg_free h
  refine .ite (writeHeader_free h) ?_
  split
  · exact h.frame (writeEvtc_to (Nat.or_self _) (.refl _ _)) rfl
  · exact h.frame (writeDisp_to (Nat.or_self _) (.refl _ _)) rfl
  · exact writeTime_free h
  · exact writeTcmp_free h
  · exact writePwrc_free h
  · exact .ite (h.frame (cdFreqSt_to (Nat.or_self _) (.refl _ _)) rfl) stored
  · exact .ite (h.frame (flipCmdSt_to (Nat.or_self _) (.refl _ _)) rfl) stored
  · exact h.frame (writePcie_to (Nat.or_self _) (.refl _ _)) rfl
  · exact .ite (h.frame (flowLoadSt_to (Nat.or_self _) (.refl _ _)) rfl)
      (.ite (h.frame (jobTail_to (Nat.or_self _) (.refl _ _)) rfl) stored)
  · have kicked : FreeIs n ((List.range 32).foldl (fun s p => portKick p (haOffer p s)) (storeReg p off 0 v s)) :=
      .foldl _ (fun _ _ h => (h.frame (haOffer_to (Nat.or_self _) (.refl _ _)) rfl).frame
        (portKick_to (Nat.or_self _) (.refl _ _)) rfl) stored
    exact .ite (h.frame (haSelectSt_to (Nat.or_self _) (.refl _ _)) rfl) (.ite kicked stored)
  · exact .ite (h.frame (meterWriteSt_to (Nat.or_self _) (.refl _ _)) rfl) stored
  · exact .ite (.ite (h.frame (cuwRetrain_to (Nat.or_self _) (.refl _ _)) rfl) h) stored
  · exact h.frame (writePrism_to (Nat.or_self _) (.refl _ _)) rfl
  · exact h.frame (writeDet_to (Nat.or_self _) (.refl _ _)) rfl
  · exact .ite (h.frame (mbWriteAny_to (Nat.or_self _) (.refl _ _)) rfl) stored
  · exact writeBoot_free h
  · exact .ite (stored.frame (pageLevels_to (Nat.or_self _) (.refl _ _)) rfl) stored
  · exact .ite (h.frame (coreMapSt_to (Nat.or_self _) (.refl _ _)) rfl)
      (.ite (h.frame (spareCopySt_to (Nat.or_self _) (.refl _ _)) rfl) stored)
  · exact .ite (h.frame (ctxCancelSt_to (Nat.or_self _) (.refl _ _)) rfl)
      (.ite (stored.frame (mxDrain_to (Nat.or_self _) (.refl _ _)) rfl) stored)
  · exact .ite (h.frame (dbgCtlSt_to (Nat.or_self _) (.refl _ _)) rfl) stored
  · exact .ite (h.frame (dbgCtlSt_to (Nat.or_self _) (.refl _ _)) rfl) stored
  · exact h.frame (writeDfe_to (Nat.or_self _) (.refl _ _)) rfl
  · exact h.frame (writeOfdm_to (Nat.or_self _) (.refl _ _)) rfl
  · exact .ite (stored.frame (checkEngines_to (Nat.or_self _) (.refl _ _)) rfl) stored
  · exact .ite (stored.frame (dmaLevels_to (Nat.or_self _) (.refl _ _)) rfl) stored
  · exact h.frame (writeDmach_to (Nat.or_self _) (.refl _ _)) rfl
  · exact .ite h (.ite (h.frame (fcGoSt_to (Nat.or_self _) (.refl _ _)) rfl) stored)
  · exact .ite h (.ite (h.frame (repairSt_to (Nat.or_self _) (.refl _ _)) rfl) stored)
  · exact h.frame (writeRtr_to (Nat.or_self _) (.refl _ _)) rfl
  · exact h.frame (writeXlane_to (Nat.or_self _) (.refl _ _)) rfl
  · exact h.frame (writeXspare_to (Nat.or_self _) (.refl _ _)) rfl
  · exact h.frame (writeLane_to (Nat.or_self _) (.refl _ _)) rfl
  · exact h.frame (writeLane_to (Nat.or_self _) (.refl _ _)) rfl
  · exact h.frame (writeLane_to (Nat.or_self _) (.refl _ _)) rfl
  · exact .ite (afterOf_free (execPostFireRecord_to (Nat.or_self _) (.refl _ _)) h rfl) h
  · exact stored

theorem holdLo_free {a : Acc} {p off : Nat} {v : Word} (h : FreeIs n s) : FreeIs n (holdLo s a p off v) :=
  h.frame (holdLo_to (Nat.or_self _) (.refl _ _)) rfl

theorem pageWrite_free {a : Acc} {p off : Nat} {v : Word} (h : FreeIs n s) : FreeIs n (pageWrite a p off v s) := by
  have restarted : FreeIs n (if pageKind p = some .pcie ∧ 0x200 ≤ off ∧ off % 0x40 = 0 then d2hRestart ((off - 0x200) / 0x40) s else s) :=
    .ite (h.frame (d2hRestart_to (Nat.or_self _) (.refl _ _)) rfl) h
  have paired : FreeIs n (writePair p (off - 4) (takeLo s a p (off - 4)).1 v (takeLo s a p (off - 4)).2) :=
    (h.frame (takeLo_to (Nat.or_self _) (.refl _ _)) rfl).frame (writePair_to (Nat.or_self _) (.refl _ _)) rfl
  exact .ite h (.ite (h.frame (incrCommitSt_to (Nat.or_self _) (.refl _ _)) rfl)
    (.ite (h.frame (bankPwrSt_to (Nat.or_self _) (.refl _ _)) rfl)
    (.ite (h.frame (tapSetSt_to (Nat.or_self _) (.refl _ _)) rfl) (.ite (.ite (setEvt_free h) (.ite (holdLo_free restarted) h))
    (.ite (.ite paired h) (writeOne_free h))))))

theorem onPage_free {a : Acc} {p off : Nat} {f : State → State} (h : FreeIs n s) (hf : FreeIs n (f s)) : FreeIs n (onPage a p off f s) :=
  .ite h (.ite (h.frame (offAccess_to (Nat.or_self _) (.refl _ _)) rfl) hf)

theorem toPage_free {a : Acc} {p off : Nat} {f : State → State} (h : FreeIs n s) (hf : FreeIs n (f s)) : FreeIs n (toPage a p off f s) :=
  .ite (h.frame (decodeErr_to (Nat.or_self _) (.refl _ _)) rfl) (onPage_free h hf)

theorem regWriteSt_free {a : Acc} {p off : Nat} {v : Word} (h : FreeIs n s) : FreeIs n (regWriteSt a p off v s) :=
  toPage_free h (pageWrite_free h)

/-! ### Transfers over the fabric and the maintenance ring -/

theorem bridgeDone_free {p : Nat} (h : FreeIs n s) : FreeIs n (bridgeDone p s) := h.frame (bridgeDone_to (Nat.or_self _) (.refl _ _)) rfl

theorem serveWr_free {q : Req} {poisoned : Bool} (h : FreeIs n s) : FreeIs n (serveWr q poisoned s).2 := by
  unfold serveWr
  dsimp only
  split
  · exact h
  · split
    · split
      · exact h.frame (offAccess_to (Nat.or_self _) (.refl _ _)) rfl
      · split
        · exact h.frame (decodeErr_to (Nat.or_self _) (.refl _ _)) rfl
        · split
          · exact h.frame (bridgeWait_to (Nat.or_self _) (.refl _ _)) rfl
          · exact bridgeDone_free (regWriteSt_free h)
    · split
      · exact h
      · exact h.frame (memWriteEn_to (Nat.or_self _) (.refl _ _)) rfl

theorem respond_free {id : Nat} {r : Resp × List Byte} (h : FreeIs n s) : FreeIs n (respond s id r) := h

theorem modReq_free {id : Nat} {f : Req → Req} (h : FreeIs n s) : FreeIs n (modReq s id f) := h

theorem travel_free {q : Req} {flit : Flit} (h : FreeIs n s) : FreeIs n (travel q flit s) := by
  unfold travel
  split
  · exact respond_free (h.frame (decodeErr_to (Nat.or_self _) (.refl _ _)) rfl)
  case h_2 dst _ =>
    refine .ite h ?_
    have flown : FreeIs n (fly q.srcLp dst 4 (reqHdr s { q with dstLp := dst }) flit (stamped s { q with dstLp := dst }) q.at_ s).1 :=
      h.frame (fly_to (Nat.or_self _) (.refl _ _)) rfl
    dsimp only
    split
    case h_1 e => rw [e] at flown; exact modReq_free flown
    case h_2 e => rw [e] at flown; exact modReq_free flown
    case h_3 e =>
      rw [e] at flown
      have served {x : Req} {u : State} (hu : FreeIs n u) :
          FreeIs n (if q.isWrite then serveWr x (poisoned flit) u else serveRd x u).2 := by
        split
        · exact serveWr_free hu
        · exact hu.frame (serveRd_to (Nat.or_self _) (.refl _ _)) rfl
      split
      · exact respond_free (served (modReq_free flown))
      · exact served (modReq_free flown)

theorem carry_free {id : Nat} {u : Option Upset} {flit : Flit} {isWrite : Bool} (h : FreeIs n s) :
    FreeIs n (carry id u flit isWrite s) := by
  unfold carry
  split
  · exact h
  case h_2 q _ =>
    refine .ite h ?_
    have injected {t : State} {b : Bool} (e : inject q u s = some (t, b)) : FreeIs n t :=
      h.frame (Opt.get e (inject_to (Nat.or_self _) (.refl _ _))) rfl
    split
    · exact h
    case h_2 e => exact (injected e).frame (dropReq_to (Nat.or_self _) (.refl _ _)) rfl
    case h_3 e =>
      split
      · exact injected e
      · exact travel_free (injected e)

theorem freshReq_free {a : Acc} {w : Bool} {addr len id : Nat} {data : List Byte} {be : BitVec 64} {t : State} (h : FreeIs n s)
    (e : freshReq a w addr len data be s = some (id, t)) : FreeIs n t :=
  h.frame (Opt2.get e (freshReq_to (Nat.or_self _) (.refl _ _))) rfl

theorem applyUpset_free {u : Option Upset} (h : FreeIs n s) : FreeIs n (applyUpset u s) :=
  h.frame (applyUpset_to (Nat.or_self _) (.refl _ _)) rfl

theorem rdSt_free {q : RdReq} {u : Option Upset} {flit : Flit} (h : FreeIs n s) : FreeIs n (rdSt q u flit s) := by
  have hu : FreeIs n (applyUpset u s) := applyUpset_free h
  unfold rdSt
  dsimp only
  split
  · exact carry_free hu
  · refine .ite hu ?_
    split
    · exact hu
    · split
      · exact hu
      case h_2 e => exact carry_free (freshReq_free hu e)

theorem wrSt_free {q : WrReq} {u : Option Upset} {flit : Flit} (h : FreeIs n s) : FreeIs n (wrSt q u flit s) := by
  have hu : FreeIs n (applyUpset u s) := applyUpset_free h
  unfold wrSt
  dsimp only
  split
  · exact carry_free hu
  · refine .ite hu ?_
    split
    · exact hu.frame (msixWrite_to (Nat.or_self _) (.refl _ _)) rfl
    · split
      · exact hu
      case h_2 e => exact carry_free (freshReq_free hu e)

theorem ringServe_free {m : RingMaster} {t : RingTarget} {v : Option Word} (h : FreeIs n s) : FreeIs n (ringServe m t v s) := by
  unfold ringServe
  dsimp only
  split
  · exact regWriteSt_free h
  · exact h.frame (regReadSt_to (Nat.or_self _) (.refl _ _)) rfl
  · exact h.frame (ringMemSt_to (Nat.or_self _) (.refl _ _)) rfl

theorem ringAccessSt_free {m : RingMaster} {t : RingTarget} {v : Option Word} {ok : Bool} (h : FreeIs n s) :
    FreeIs n (ringAccessSt m t v ok s) := by
  have counted {u : State} (hu : FreeIs n u) : FreeIs n (incCnt u 0x006 0) := hu.frame (incCnt_to (Nat.or_self _) (.refl _ _)) rfl
  have failed : FreeIs n (if ok then s else ownErr (incCnt s 0x006 1) 0x006 4 0x01 none) :=
    .ite h (FreeIs.frame (h.frame (incCnt_to (p := 0x006) (i := 1) (Nat.or_self _) (.refl _ _)) rfl)
      (ownErr_to (Nat.or_self _) (.refl _ _)) rfl)
  exact .ite h (.ite (failed.frame (modFab_to (Nat.or_self _) (.refl _ _)) rfl) (counted (ringServe_free h)))

/-! ### Stores and bundles of a core -/

/-- The first part of a pair that is known. -/
theorem FreeIs.fst {α : Type} {p : State × α} {t : State} {a : α} (e : p = (t, a)) (h : FreeIs n p.1) : FreeIs n t := by
  rw [e] at h
  exact h

theorem loadBytes_free {c : Nat} {u : Bool} {a k : Nat} (h : FreeIs n s) : FreeIs n (loadBytes s c u a k).1 :=
  h.frame (loadBytes_to (Nat.or_self _) (.refl _ _)) rfl

theorem storePast_free {c a : Nat} {d : List (Option Byte)} (h : FreeIs n s) : FreeIs n (storePast s c a d) := by
  have drained : FreeIs n (drainAll c s) := h.frame (drainAll_to (Nat.or_self _) (.refl _ _)) rfl
  have failed {u : State} (hu : FreeIs n u) : FreeIs n (writeError u c a) := hu.frame (writeError_to (Nat.or_self _) (.refl _ _)) rfl
  unfold storePast
  split
  · exact .ite (failed (drained.frame (decodeErr_to (Nat.or_self _) (.refl _ _)) rfl))
      (.ite (failed (drained.frame (bridgeWait_to (Nat.or_self _) (.refl _ _)) rfl)) (bridgeDone_free (regWriteSt_free drained)))
  · have flushed : FreeIs n (flushLines s c a d.length) := h.frame (flushLines_to (Nat.or_self _) (.refl _ _)) rfl
    exact (flushed.frame (invalLines_to (Nat.or_self _) (.refl _ _)) rfl).frame (coreWrite_to (Nat.or_self _) (.refl _ _)) rfl

theorem storeBytes_free {c : Nat} {u : Bool} {a : Nat} {d : List (Option Byte)} (h : FreeIs n s) :
    FreeIs n (storeBytes s c u a d).1 := by
  unfold storeBytes
  split
  · exact h
  · split
    · have line {u : State} {a : Nat} {d : List (Option Byte)} (hu : FreeIs n u) : FreeIs n (storeLine u c a d).1 :=
        hu.frame (storeLine_to (Nat.or_self _) (.refl _ _)) rfl
      have part {u : State} {a : Nat} {d : List (Option Byte)} (hu : FreeIs n u) : FreeIs n (storeSome u c a d).1 :=
        hu.frame (storeSome_to (Nat.or_self _) (.refl _ _)) rfl
      have ready {u : State} {a : Nat} {d : List (Option Byte)} (hu : FreeIs n u) : FreeIs n (readyLine u c a d).1 :=
        hu.frame (readyLine_to (Nat.or_self _) (.refl _ _)) rfl
      dsimp only
      split
      · exact line h
      · have first : FreeIs n (readyLine s c a (d.take (64 - a % 64))).1 := ready h
        split
        case h_1 e =>
          rw [e] at first
          have second := ready (a := a + (64 - a % 64)) (d := d.drop (64 - a % 64)) first
          split
          case h_1 e =>
            rw [e] at second
            have low := part (a := a) (d := d.take (64 - a % 64)) second
            split
            case h_1 e => rw [e] at low; exact part low
            case h_2 => exact low
          case h_2 => exact second
        case h_2 => exact first
    · exact h.frame (coreWriteNow_to (Nat.or_self _) (.refl _ _)) rfl
    · exact storePast_free h

theorem storeParts_free {c a : Nat} {d : List Byte} {is : List Nat} (h : FreeIs n s) : FreeIs n (storeParts c a d is s).1 := by
  induction is generalizing s with
  | nil => exact h
  | cons i is ih =>
    have stored : FreeIs n (storeBytes s c false (addr48 (a + 64 * i)) (((d.drop (64 * i)).take 64).map some)).1 := storeBytes_free h
    unfold storeParts
    split
    case h_1 e => rw [e] at stored; exact ih stored
    case h_2 => exact stored

theorem updateA_free {k : OpCtx} {i : Nat} {v : Option Dword} {b : Bun} (h : FreeIs n b.s) : FreeIs n (updateA k i v b).s :=
  h.frame (updateA_to (Nat.or_self _) (.refl _ _)) rfl

theorem opStore_free {k : OpCtx} {b : Bun} (h : FreeIs n b.s) : FreeIs n (opStore k b).s := by
  unfold opStore
  dsimp only
  split
  · exact h
  · split
    case h_1 e => exact FreeIs.fst e (storeBytes_free h)
    case h_2 e => exact updateA_free (FreeIs.fst e (storeBytes_free h))

theorem opVst_free {k : OpCtx} {b : Bun} (h : FreeIs n b.s) : FreeIs n (opVst k b).s := by
  unfold opVst
  dsimp only
  split
  · exact h
  · split
    case h_1 e => exact FreeIs.fst e (storeBytes_free h)
    case h_2 e => exact updateA_free (FreeIs.fst e (storeBytes_free h))

theorem opVxfer_free {k : OpCtx} {b : Bun} (h : FreeIs n b.s) : FreeIs n (opVxfer k b).s := by
  unfold opVxfer
  dsimp only
  split
  · exact h
  · split
    · split
      case h_1 e => exact FreeIs.fst e (storeBytes_free h)
      case h_2 e => exact updateA_free (FreeIs.fst e (storeBytes_free h))
    · split
      case h_1 e => exact FreeIs.fst e (loadBytes_free h)
      case h_2 e => exact updateA_free ((FreeIs.fst e (loadBytes_free h)).frame (inFlight_to (Nat.or_self _) (.refl _ _)) rfl)

theorem opIsave_free {k : OpCtx} {b : Bun} (h : FreeIs n b.s) : FreeIs n (opIsave k b).s := by
  unfold opIsave
  dsimp only
  split
  · exact h
  · split
    case h_1 e => exact FreeIs.fst e (storeParts_free h)
    case h_2 e => exact (FreeIs.fst e (storeParts_free h)).frame (setShb_to (Nat.or_self _) (.refl _ _)) rfl

theorem opMxsave_free {k : OpCtx} {b : Bun} (h : FreeIs n b.s) : FreeIs n (opMxsave k b).s := by
  unfold opMxsave
  dsimp only
  split
  · exact h
  · split
    case h_1 e => exact FreeIs.fst e (storeBytes_free h)
    case h_2 e => exact FreeIs.fst e (storeBytes_free h)

theorem gsElem_free {k : OpCtx} {gather : Bool} {r : GsRun} {e : Nat} (h : FreeIs n r.s) : FreeIs n (gsElem k gather r e).s := by
  unfold gsElem
  dsimp only
  iterate 6
    split
    · exact h
  split
  · split
    case h_1 e => exact FreeIs.fst e (loadBytes_free h)
    case h_2 e => exact FreeIs.fst e (loadBytes_free h)
  · split
    case h_1 e => exact FreeIs.fst e (storeBytes_free h)
    case h_2 e => exact FreeIs.fst e (storeBytes_free h)

theorem opGs_free {k : OpCtx} {gather : Bool} {b : Bun} (h : FreeIs n b.s) : FreeIs n (opGs gather k b).s := by
  unfold opGs
  dsimp only
  have run : FreeIs n ((List.range (tyN (eszType (k.f 7 6)))).foldl (gsElem k gather) ⟨b.s, [], true, none⟩).s :=
    FreeIs.foldlOf GsRun.s _ (fun _ _ => gsElem_free) h
  have noted {u : State} {code index : Nat} (hu : FreeIs n u) : FreeIs n (setEri k.c code index u) :=
    hu.frame (setEri_to (Nat.or_self _) (.refl _ _)) rfl
  split
  · refine FreeIs.frame (s := Bun.s _) ?_ (faultWith_to (Nat.or_self _) (.refl _ _)) rfl
    exact noted (.ite run run)
  · split
    · refine FreeIs.frame (s := Bun.s _) ?_ (toV_to (Nat.or_self _) (.refl _ _)) rfl
      exact noted run
    · exact noted run

theorem opSys_free {k : OpCtx} {b : Bun} (h : FreeIs n b.s) : FreeIs n (opSys k b).s := by
  unfold opSys
  split
  · exact h.frame (opTsend_to (Nat.or_self _) (.refl _ _)) rfl
  · exact h.frame (opTdone_to (Nat.or_self _) (.refl _ _)) rfl
  · exact h.frame (opFwait_to (Nat.or_self _) (.refl _ _)) rfl
  · exact h.frame (opFlush_to (Nat.or_self _) (.refl _ _)) rfl
  · exact h.frame (opInval_to (Nat.or_self _) (.refl _ _)) rfl
  · exact h.frame (opFlinv_to (Nat.or_self _) (.refl _ _)) rfl
  · exact h.frame (drainAll_to (Nat.or_self _) (.refl _ _)) rfl
  · exact h
  · exact h.frame (opMfc_to (Nat.or_self _) (.refl _ _)) rfl
  · exact h.frame (opMtc_to (Nat.or_self _) (.refl _ _)) rfl
  · exact h.frame (opRti_to (Nat.or_self _) (.refl _ _)) rfl
  · exact opIsave_free h
  · exact h.frame (opIrestore_to (Nat.or_self _) (.refl _ _)) rfl
  · exact h.frame (opTrapInstr_to (Nat.or_self _) (.refl _ _)) rfl
  · exact h.frame (opWait_to (Nat.or_self _) (.refl _ _)) rfl
  · exact h

theorem opDo_free {k : OpCtx} {b : Bun} (h : FreeIs n b.s) : FreeIs n (opDo k b).s := by
  unfold opDo
  split
  · exact h.frame (opAlu_to (Nat.or_self _) (.refl _ _)) rfl
  · exact h.frame (opAluImm_to (Nat.or_self _) (.refl _ _)) rfl
  · exact h.frame (opMul_to (Nat.or_self _) (.refl _ _)) rfl
  · exact h.frame (opLoad_to (Nat.or_self _) (.refl _ _)) rfl
  · exact opStore_free h
  · exact h.frame (opAddr_to (Nat.or_self _) (.refl _ _)) rfl
  · exact h.frame (opLui_to (Nat.or_self _) (.refl _ _)) rfl
  · exact h.frame (opBranch_to (Nat.or_self _) (.refl _ _)) rfl
  · exact h.frame (opJump_to (Nat.or_self _) (.refl _ _)) rfl
  · exact opSys_free h
  · exact h.frame (opVld_to (Nat.or_self _) (.refl _ _)) rfl
  · exact opVst_free h
  · exact opGs_free h
  · exact opGs_free h
  · exact opVxfer_free h
  · exact h.frame (opValu_to (Nat.or_self _) (.refl _ _)) rfl
  · exact h.frame (opValuScalar_to (Nat.or_self _) (.refl _ _)) rfl
  · exact h.frame (opVmac_to (Nat.or_self _) (.refl _ _)) rfl
  · exact h.frame (opVrnd_to (Nat.or_self _) (.refl _ _)) rfl
  · exact h.frame (opVperm_to (Nat.or_self _) (.refl _ _)) rfl
  · exact h.frame (opVcmp_to (Nat.or_self _) (.refl _ _)) rfl
  · exact h.frame (opVpred_to (Nat.or_self _) (.refl _ _)) rfl
  · exact h.frame (opVfp_to (Nat.or_self _) (.refl _ _)) rfl
  · exact h.frame (opVred_to (Nat.or_self _) (.refl _ _)) rfl
  · exact h.frame (opFtap_to (Nat.or_self _) (.refl _ _)) rfl
  · exact h.frame (opMxop_to (Nat.or_self _) (.refl _ _)) rfl
  · exact h.frame (opMxsb_to (Nat.or_self _) (.refl _ _)) rfl
  · exact h.frame (opMxstat_to (Nat.or_self _) (.refl _ _)) rfl
  · exact opMxsave_free h
  · exact h.frame (opMxrst_to (Nat.or_self _) (.refl _ _)) rfl
  · exact h.frame (opMxcancel_to (Nat.or_self _) (.refl _ _)) rfl
  · exact h

theorem opRun_free {k : OpCtx} {b : Bun} (h : FreeIs n b.s) : FreeIs n (opRun k b).s := by
  unfold opRun
  split
  · exact h
  · split
    · exact h.frame (faultWith_to (Nat.or_self _) (.refl _ _)) rfl
    · exact opDo_free h

theorem bundleFault_free {c : Nat} {x : CoreSt} {ops : List Staged} {t : TrapInfo} (h : FreeIs n s) :
    FreeIs n (bundleFault c x ops t s) := by
  unfold bundleFault
  refine FreeIs.frame ?_ (takeTrap_to (Nat.or_self _) (countIssue_to rfl (.refl _ _))) rfl
  have faulted : FreeIs n (match ops.find? fun o => o.slot = t.slot with
      | none => s
      | some o =>
        let b := opRun ⟨c, x, ops, o⟩ (bun0 s)
        if b.fault.isSome then b.s else s) := by
    split
    · exact h
    · exact .ite (opRun_free h) h
  split
  · exact faulted
  · exact .ite faulted (faulted.frame (mxIssue_to (Nat.or_self _) (.refl _ _)) rfl)

theorem setCore_free {c : Nat} {x : CoreSt} (h : FreeIs n s) : FreeIs n (setCore s c x) := h

theorem modCore_free {c : Nat} {f : CoreSt → CoreSt} (h : FreeIs n s) : FreeIs n (modCore s c f) := h

theorem bufAfter_free {c : Nat} {ops : List Staged} (h : FreeIs n s) : FreeIs n (bufAfter c ops s) :=
  h.frame (bufAfter_to (Nat.or_self _) (.refl _ _)) rfl

theorem stepEnd_free {c : Nat} {stepped : Bool} (h : FreeIs n s) : FreeIs n (stepEnd c stepped s) :=
  h.frame (stepEnd_to (Nat.or_self _) (.refl _ _)) rfl

theorem runBundle_free {c : Nat} {ops : List Staged} (h : FreeIs n s) : FreeIs n (runBundle c ops s) := by
  have landing : FreeIs n (modCore (drainOne c s) c fun x => landBy (isS c) x x.cyc) :=
    modCore_free (h.frame (drainOne_to (Nat.or_self _) (.refl _ _)) rfl)
  unfold runBundle
  dsimp only
  generalize modCore (drainOne c s) c (fun x => landBy (isS c) x x.cyc) = u at landing
  have fetched : FreeIs n (fetchBundle c (coreOf u c).pc u).1 := landing.frame (fetchBundle_to (Nat.or_self _) (.refl _ _)) rfl
  generalize (fetchBundle c (coreOf u c).pc u).1 = v at fetched
  split
  · exact stepEnd_free (fetched.frame (takeTrap_to (Nat.or_self _) (.refl _ _)) rfl)
  · refine .ite (FreeIs.frame (fetched.frame (ownErr_to (Nat.or_self _) (.refl _ _)) rfl) (haltCore_to (Nat.or_self _) (.refl _ _)) rfl)
      (.ite (bufAfter_free (.ite (modCore_free fetched) (modCore_free fetched))) (stepEnd_free (bufAfter_free ?_)))
    split
    · exact bundleFault_free (modCore_free fetched)
    · refine FreeIs.frame (s := Bun.s _) ?_ (bundleEnd_to (Nat.or_self _) (.refl _ _)) rfl
      exact FreeIs.foldlOf Bun.s _ (fun _ _ => opRun_free) (modCore_free fetched)

theorem nopBundles_free {c k : Nat} (h : FreeIs n s) : FreeIs n (nopBundles c k s) := by
  induction k generalizing s with
  | zero => exact h
  | succ k ih => exact .ite (ih (modCore_free (runBundle_free h))) (runBundle_free h)

theorem issueSt_free {i : Issue} {w : Word} (h : FreeIs n s) : FreeIs n (issueSt i w s) := by
  have nops {x : CoreSt} : FreeIs n (nopBundles i.core i.nops (setCore s i.core x)) := nopBundles_free (setCore_free h)
  have struck {u : State} (hu : FreeIs n u) : FreeIs n (strikeLine (stallFor i.core i.stall u) i.core i.strike) :=
    (hu.frame (stallFor_to (Nat.or_self _) (.refl _ _)) rfl).frame (strikeLine_to (Nat.or_self _) (.refl _ _)) rfl
  refine .ite h (.ite (setCore_free h) (.ite nops ?_))
  unfold dramHold
  split
  · exact h
  · exact runBundle_free (struck nops)

theorem fireArrivalSt_free {c : Nat} {f : FireRec} (h : FreeIs n s) : FreeIs n (fireArrivalSt c f s) := by
  have taken : FreeIs n (takeArrived s f) := h
  have failed {p code : Nat} : FreeIs n (failFire (takeArrived s f) p f code) := taken.frame (failFire_to (Nat.or_self _) (.refl _ _)) rfl
  refine .ite h (.ite failed (.ite failed ?_))
  have placed : FreeIs n (placeFire (takeArrived s f) c f).1 := taken.frame (placeFire_to (Nat.or_self _) (.refl _ _)) rfl
  split
  · exact h
  case h_2 e => exact .ite (runBundle_free (.fst e placed)) (.fst e placed)

/-! ### The commands -/

/-- Every command but a power-on reset leaves FREE. -/
theorem exec_free {i : Instr} {t : State} (hp : i ≠ .poreset) (hb : i ≠ .vddAonBrownout) (h : FreeIs n s) (e : exec i s = .next t) :
    FreeIs n t := by
  have answered {u : State} (hu : FreeIs n u) (e : Host.Outcome.next (φ := Fault) (ρ := Refusal) u = .next t) : FreeIs n t :=
    Host.Outcome.next.inj e ▸ hu
  cases i
  case poreset => exact absurd rfl hp
  case vddAonBrownout => exact absurd rfl hb
  case regWrite => exact answered ((regWriteSt_free h).frame (coincide_to (Nat.or_self _) (.refl _ _)) rfl) e
  case loWrite | hiWrite => exact answered (regWriteSt_free h) e
  case softReset => exact answered (toPage_free h (softResetSt_free h)) e
  case softResetDone => exact answered (softDoneSt_free h) e
  case snapshotCopy => exact answered (snapCopySt_free h) e
  case snapSeqUpdate => exact answered (snapSeqSt_free h) e
  case alu | aluImmediate | multiply | scalarLoad | scalarStore | addressArithmetic | loadUpperImmediate | conditionalBranch | jump
      | tsend | tdone | fwait | flush | inval | flinv | fence | isync | mfc | mtc | rti | isave | irestore | trap | wait | vld | vst
      | vgather | vscatter | vxfer | valu | valuScalar | vmac | vrnd | vperm | vcmp | vpred | vfp | vred | ftap | mxop | mxsb | mxstat
      | mxsave | mxrst | mxcancel =>
    exact answered (issueSt_free h) e
  case fireRecordArrival => exact answered (fireArrivalSt_free h) e
  case rd => exact answered (rdSt_free h) e
  case wr => exact answered (wrSt_free h) e
  case ringAccess => exact answered (ringAccessSt_free h) e
  case stopTimeout => exact answered (stopTimeoutSt_free h) e
  case adjNs => exact answered (onPage_free h (timeStep_free h)) e
  case setGo => exact answered (onPage_free h (setGoSt_free h)) e
  case tcmpArm => exact answered (onPage_free h (tcCtrlWrite_free h)) e
  case tcmpFire => exact answered (.ite (tcmpFireSt_free h) h) e
  case ppsInEdge => exact answered (.ite (ppsInSt_free h) h) e
  case ppsLoss => exact answered (.ite (ppsLossSt_free h) h) e
  case ppsOutRise => exact answered (.ite (ppsRiseSt_free h) h) e
  case ppsOutFall => exact answered (.ite (ppsFallSt_free h) h) e
  case pdReqOn | pdReqRetain | pdReqOff => exact answered (onPage_free h (pdReqSt_free h)) e
  case grpReqOn | grpReqRetain | grpReqOff => exact answered (onPage_free h (grpReqSt_free h)) e
  case quiesceTimeout => exact answered (quiesceTimeoutSt_free h) e
  case transitionDone => exact answered (transDoneSt_free h) e
  case pgFail => exact answered (pgFailSt_free h) e
  case wreset => exact answered (warmReset_free h) e
  case rstCmdWarm => exact answered (onPage_free h (rstCmdSt_free h)) e
  case fatalReset | wdogExpiry => exact answered (.ite (warmReset_free h) h) e
  case selfTestDone => exact answered (selfTestSt_free h) e
  all_goals exact h.frame (exec_frame e) (by dsimp only [footprint]; rfl)

end Writes

end Sys2Proof.Machine

/-! The count of FREE: ticks, resets and reads. -/

namespace Sys2Proof.Machine

/-- A block's register on the TIME page shows what the time unit says. -/
theorem viewReg_time {off : Nat} {d : RegDef} (hd : findReg 0x003 off = some d) (ha : d.acc ≠ .wo) (ho : 0x100 ≤ off) (s : State) :
    viewReg s 0x003 off = viewTime s off := by
  have hk : pageKind 0x003 = some .time := by decide
  have hb : ¬ (0x003 < 0x200 ∧ off < 0x100) := by omega
  unfold viewReg
  rw [hk, hd]
  exact (if_neg ha).trans (if_neg hb)

theorem viewReg_freeLo (s : State) : viewReg s 0x003 0x114 = w32 (freeNow s) := by
  have hd : findReg 0x003 0x114 = some (reg 0x114 1 0 0 .ro 0xFFFFFFFF) := by decide
  exact viewReg_time hd (by decide) (by decide) s

theorem viewReg_freeHi (s : State) : viewReg s 0x003 0x118 = w32 (freeNow s / 2 ^ 32) := by
  have hd : findReg 0x003 0x118 = some (reg 0x118 1 0 0 .ro 0xFFFFFFFF) := by decide
  exact viewReg_time hd (by decide) (by decide) s

/-- A tick counts one where CD19 runs. -/
theorem idleTick_free (s : State) : freeNow (idleTick s) = freeNow s + if pllOn s 19 then 1 else 0 := by
  unfold freeNow
  rw [idleTick_time, timeTick_time]
  split <;> rfl

/-- A power-on reset starts FREE at 0 (R738). -/
theorem powerOn_free (s : State) : FreeIs 0 (selfRefreshLost s.memc.fc.isSome (powerOn s)) := by
  refine FreeIs.frame ?_ (selfRefreshLost_to (Nat.or_self _) (.refl _ _)) rfl
  rfl

/-- Settles O58: a tick counts, a power-on reset starts the count, and no operation of another command reaches it. -/
theorem freeOnlyCounts : Obligations.FreeOnlyCounts := by
  refine ⟨fun s hq => ⟨idleTick s, by unfold step; rw [hq], idleTick_free s⟩,
    fun i s t hp hb e => exec_free hp hb (show FreeIs (freeNow s) s from rfl) e, ?reset, fun a s hr => ?read⟩
  case reset =>
    rintro i s t (rfl | rfl) e <;> exact Host.Outcome.next.inj e ▸ powerOn_free s
  case read =>
    show Host.Outcome.next (regReadSt a 0x003 0x114 s) = _
    rw [regReadSt_of_reaches hr (by decide)]
    have hlo : isLo 0x003 0x114 = true := by decide
    have hread : pageRead a 0x003 0x114 s = (w32 (freeNow s), setHold s (holdRdKey a 0x003) (w32 (freeNow s / 2 ^ 32))) := by
      rw [← viewReg_freeLo, ← viewReg_freeHi]
      unfold pageRead
      simp [hlo]
    rw [hread]
    rfl

end Sys2Proof.Machine

/-! Fields of a word: what is read after a field is put. -/

namespace Sys2Proof.Machine

/-- A bit of a word with a field put: the field's own inside it, the word's outside. -/
theorem getLsbD_putBits {hi lo : Nat} (w : Word) (v i : Nat) (h : lo ≤ hi) (hi32 : hi < 32) :
    (putBits w hi lo v).getLsbD i = if lo ≤ i ∧ i ≤ hi then v.testBit (i - lo) else w.getLsbD i := by
  have hmask : (BitVec.ofNat 32 ((2 ^ (hi - lo + 1) - 1) <<< lo)).getLsbD i = decide (lo ≤ i ∧ i ≤ hi) := by
    rw [BitVec.getLsbD_ofNat, Nat.testBit_shiftLeft, Nat.testBit_two_pow_sub_one, Bool.eq_iff_iff]
    simp
    omega
  rw [putBits, BitVec.getLsbD_or, BitVec.getLsbD_and, BitVec.getLsbD_and, BitVec.getLsbD_not, hmask, BitVec.getLsbD_ofNat,
    Nat.testBit_shiftLeft]
  by_cases hin : lo ≤ i ∧ i ≤ hi
  · have hi' : i < 32 := by omega
    simp [hin, hi']
  · by_cases hw : i < 32
    · simp [hin, hw]
    · rw [BitVec.getLsbD_of_ge _ _ (by omega)]
      simp [hin]

theorem testBit_bits (w : Word) (hi lo i : Nat) :
    (bits w hi lo).testBit i = (decide (i < hi - lo + 1) && w.getLsbD (lo + i)) := by
  rw [bits, Nat.testBit_mod_two_pow, Nat.testBit_shiftRight, BitVec.testBit_toNat]

/-- A field just put reads as put, modulo its width. -/
theorem bits_putBits {hi lo : Nat} (h : lo ≤ hi) (hi32 : hi < 32) (w : Word) (v : Nat) :
    bits (putBits w hi lo v) hi lo = v % 2 ^ (hi - lo + 1) := by
  refine Nat.eq_of_testBit_eq fun i => ?_
  rw [testBit_bits, getLsbD_putBits w v _ h hi32, Nat.testBit_mod_two_pow]
  by_cases hin : i < hi - lo + 1
  · rw [if_pos (by omega), Nat.add_sub_cancel_left]
  · simp [hin]

/-- A field just put leaves every other as it reads. -/
theorem bits_putBits_ne {hi lo hi' lo' : Nat} (h : lo ≤ hi) (hi32 : hi < 32) (hne : hi' < lo ∨ hi < lo') (hr : lo' ≤ hi') (w : Word)
    (v : Nat) : bits (putBits w hi lo v) hi' lo' = bits w hi' lo' := by
  refine Nat.eq_of_testBit_eq fun i => ?_
  rw [testBit_bits, testBit_bits, getLsbD_putBits w v _ h hi32]
  by_cases hin : i < hi' - lo' + 1
  · rw [if_neg (by omega)]
  · simp [hin]

/-- A bit outside a field just put. -/
theorem bit_putBits_ne {hi lo i : Nat} (h : lo ≤ hi) (hi32 : hi < 32) (hne : i < lo ∨ hi < i) (w : Word) (v : Nat) :
    bit (putBits w hi lo v) i = bit w i := by
  rw [bit, bit, getLsbD_putBits w v i h hi32, if_neg (by omega)]

/-- A bit just put reads as put. -/
theorem bit_putBit {i : Nat} (h : i < 32) (w : Word) (b : Bool) : bit (putBit w i b) i = b := by
  rw [bit, putBit, getLsbD_putBits w _ i (Nat.le_refl i) h, if_pos ⟨Nat.le_refl i, Nat.le_refl i⟩]
  cases b <;> simp

/-- A bit just put leaves every other. -/
theorem bit_putBit_ne {i j : Nat} (hi : i < 32) (h : j ≠ i) (w : Word) (b : Bool) : bit (putBit w i b) j = bit w j :=
  bit_putBits_ne (Nat.le_refl i) hi (by omega) w _

/-- A bit just put leaves a field that it is not part of. -/
theorem bits_putBit_ne {i hi lo : Nat} (h : i < 32) (hne : hi < i ∨ i < lo) (hr : lo ≤ hi) (w : Word) (b : Bool) :
    bits (putBit w i b) hi lo = bits w hi lo :=
  bits_putBits_ne (Nat.le_refl i) h hne hr w _

theorem bit_and (v w : Word) (i : Nat) : bit (v &&& w) i = (bit v i && bit w i) := BitVec.getLsbD_and

/-- A count of one field, below its width, is a word's own. -/
theorem bits_w32 {n hi lo : Nat} (hi32 : hi < 32) (h : lo ≤ hi) : bits (w32 n) hi lo = n / 2 ^ lo % 2 ^ (hi - lo + 1) := by
  have hdvd : 2 ^ lo * 2 ^ (hi - lo + 1) ∣ 2 ^ 32 := by
    rw [← Nat.pow_add]
    exact Nat.pow_dvd_pow 2 (by omega)
  rw [bits, w32, BitVec.toNat_ofNat, Nat.shiftRight_eq_div_pow]
  rw [← Nat.mod_mul_right_div_self, ← Nat.mod_mul_right_div_self, Nat.mod_mod_of_dvd _ hdvd]

end Sys2Proof.Machine

/-! The time unit's commands: reads that latch, corrections, compare units and 1PPS. -/

namespace Sys2Proof.Machine

/-- A read that reaches its page latches and answers. -/
theorem next_onRead {a : Acc} {p off : Nat} {f : State → Word × State} {s : State} (hr : reaches s a p) :
    Host.Outcome.next (φ := Fault) (ρ := Refusal) (onRead a p off f s) = .next (answer a (f s).1 (f s).2) := by
  obtain ⟨hg, ho⟩ := hr
  simp [onRead, hg, ho]

/-! ### Corrections (R743–R745) -/

theorem incrCommitSt_near {a : Acc} {v : Word} {s u : State} {held : Option Word} (h : takeLo s a 0x003 0x11C = (held, u))
    (hlo : 2 ^ 32 * 3125 * 999 ≤ ((held.getD (getReg u 0x003 0x11C)).toNat + 2 ^ 32 * bits v 3 0) * 3072 * 1000)
    (hhi : ((held.getD (getReg u 0x003 0x11C)).toNat + 2 ^ 32 * bits v 3 0) * 3072 * 1000 ≤ 2 ^ 32 * 3125 * 1001) :
    incrCommitSt a v s = setReg (setReg u 0x003 0x11C (held.getD (getReg u 0x003 0x11C))) 0x003 0x120 (v &&& 0xF) := by
  unfold incrCommitSt
  rw [h]
  exact if_neg (not_or.mpr ⟨Nat.not_lt.mpr hlo, Nat.not_lt.mpr hhi⟩)

theorem incrCommitSt_above {a : Acc} {v : Word} {s u : State} {held : Option Word} (h : takeLo s a 0x003 0x11C = (held, u))
    (hhi : 2 ^ 32 * 3125 * 1001 < ((held.getD (getReg u 0x003 0x11C)).toNat + 2 ^ 32 * bits v 3 0) * 3072 * 1000) :
    incrCommitSt a v s = ownErr (setEvt u 0x003 4) 0x003 6 0x01 none := by
  unfold incrCommitSt
  rw [h]
  exact if_pos (.inr hhi)

/-- A step of device time moves the offset alone. -/
theorem devTime_timeStep (off : Int) (s : State) : devTime (timeStep off s) = s.time.acc + off := rfl

/-! ### Compare units (R748–R754) -/

section Compare

variable {n : Nat} {s : State}

theorem tcReg_setTc (hu : kup s.regs = true) (off : Nat) (v : Word) : tcReg (setTc s n off v) n off = v :=
  getReg_setReg _ _ _ _ hu

theorem tcReg_setTc_off {off o : Nat} (h : o ≠ off) (v : Word) : tcReg (setTc s n off v) n o = tcReg s n o :=
  getReg_setReg_off _ _ _ _ _ (by omega)

/-- A register of the TIME page is no compare unit's. -/
theorem tcReg_setReg_time {off o : Nat} (hn : n < 64) (ho : o < 0x40) (hoff : off < 4096) (v : Word) :
    tcReg (setReg s 0x003 off v) n o = tcReg s n o :=
  getReg_setReg_page (by decide) (by omega) hoff s v

/-- A compare unit's register is none of the TIME page. -/
theorem getReg_time_setTc {off o : Nat} (hn : n < 64) (ho : o < 0x40) (hoff : off < 4096) (v : Word) :
    getReg (setTc s n o v) 0x003 off = getReg s 0x003 off :=
  getReg_setReg_page (by decide) hoff (by omega) s v

theorem tcReg_tcLevel {o : Nat} (hn : n < 64) (ho : o < 0x40) : tcReg (tcLevel s) n o = tcReg s n o :=
  tcReg_setReg_time hn ho (by decide) _

theorem tcArmed_of_bit (h : bit (tcReg s n 0) 31 = true) : tcArmed s n = true := by
  rw [tcArmed, h, Bool.true_or]

/-- A unit whose ARM is 0 and was not cleared in this cycle is not armed. -/
theorem tcArmed_false (h : bit (tcReg s n 0) 31 = false) (hl : kget none s.time.lapse n = none) : tcArmed s n = false := by
  rw [tcArmed, h, hl]
  rfl

/-- ARM = 1 with a period in range arms a unit that was not. -/
theorem tcCtrlWrite_arms {v : Word} (hn : n < 64) (hu : kup s.regs = true) (hfree : tcArmed s n = false)
    (hper : bit v 30 = true → 1000 ≤ (tcReg s n 8).toNat ∧ (tcReg s n 8).toNat < 2 ^ 31) :
    tcReg (tcCtrlWrite n v s) n 0 = v &&& 0xC300000F := by
  have hin : ¬ (bit (v &&& 0xC300000F) 31 = true ∧ bit (v &&& 0xC300000F) 30 = true ∧
      ((tcReg s n 8).toNat < 1000 ∨ 2 ^ 31 ≤ (tcReg s n 8).toNat)) := by
    rintro ⟨-, hp, hout⟩
    have hb30 : bit v 30 = true := by
      rw [bit_and] at hp
      exact (Bool.and_eq_true_iff.mp hp).1
    obtain ⟨hlo, hhi⟩ := hper hb30
    omega
  have hnot : ¬ tcArmed s n = true := by simp [hfree]
  unfold tcCtrlWrite
  dsimp only
  rw [if_neg hnot, if_neg hin, tcReg_tcLevel hn (by decide)]
  split
  · exact tcReg_setTc (s := modTime s _) hu 0 _
  · exact tcReg_setTc hu 0 _

/-- ARM of every unit is cleared. -/
def disarmedAll (s : State) : State := (List.range 64).foldl (fun s n => setTc s n 0 (putBit (tcReg s n 0) 31 false)) s

/-- The time that SET holds, in ns. -/
def setNs (s : State) : Nat :=
  1000000000 * ((getReg s 0x003 0x128).toNat + 2 ^ 32 * (getReg s 0x003 0x12C).toNat) +
    min 999999999 (bits (getReg s 0x003 0x130) 29 0)

theorem setGoSt_eq : setGoSt s = timeStep ((2 ^ 32 * setNs s : Nat) - ((disarmedAll s).time.acc : Int))
    (setEvt (modTime (disarmedAll s) fun t => { t with lapse := [] }) 0x003 5) := rfl

theorem disarmedAll_time : (disarmedAll s).time = s.time :=
  List.foldlRecOn (motive := fun t : State => t.time = s.time) _ _ rfl fun _ h _ _ => h

theorem timeStep_lapse (off : Int) (s : State) : (timeStep off s).time.lapse = s.time.lapse := rfl

theorem timeStep_free_time (off : Int) (s : State) : (timeStep off s).time.free = s.time.free := rfl

/-- What SET_GO leaves of the time unit, before it steps: no unit was cleared in this cycle. -/
def setGoCleared (s : State) : State := setEvt (modTime s fun t => { t with lapse := [] }) 0x003 5

theorem setGoCleared_time (s : State) : (setGoCleared s).time = { s.time with lapse := [] } := rfl

theorem setGoSt_lapse : (setGoSt s).time.lapse = [] := by
  rw [setGoSt_eq, timeStep_lapse, ← setGoCleared, setGoCleared_time]

theorem setGoSt_free_eq : (setGoSt s).time.free = s.time.free := by
  rw [setGoSt_eq, timeStep_free_time, ← setGoCleared, setGoCleared_time, disarmedAll_time]

/-- SET_GO takes the time that SET holds (R745). -/
theorem devTime_setGoSt : devTime (setGoSt s) = (2 ^ 32 * setNs s : Nat) := by
  have hsum (a b : Int) : a + (b - a) = b := by omega
  rw [setGoSt_eq, devTime_timeStep, ← setGoCleared, setGoCleared_time]
  exact hsum _ _

theorem tcReg_timeStep (off : Int) (s : State) : tcReg (timeStep off s) n 0 = tcReg s n 0 := rfl

theorem tcReg_setGoCleared (hn : n < 64) (s : State) : tcReg (setGoCleared s) n 0 = tcReg s n 0 :=
  tcReg_setReg_time (s := modTime s fun t => { t with lapse := [] }) hn (by decide) (by decide) _

theorem tcReg_setGoSt (hn : n < 64) : tcReg (setGoSt s) n 0 = tcReg (disarmedAll s) n 0 := by
  rw [setGoSt_eq, tcReg_timeStep, ← setGoCleared, tcReg_setGoCleared hn]

/-- SET_GO disarms every unit. -/
theorem setGoSt_disarms (hu : kup s.regs = true) (hn : n < 64) : tcArmed (setGoSt s) n = false := by
  obtain ⟨u, hku, -, hlast⟩ := foldl_own_turn (obs := fun s => tcReg s n 0) (inv := fun s => kup s.regs = true)
    (g := fun s n => setTc s n 0 (putBit (tcReg s n 0) 31 false)) (List.mem_range.mpr hn) List.nodup_range
    (fun s q hq => getReg_setReg_off _ _ _ _ _ (by omega)) (fun s q h => kup_setRegI _ _ _ _ _ h) hu
  have hreg : tcReg (disarmedAll s) n 0 = putBit (tcReg u n 0) 31 false := hlast.trans (tcReg_setTc hku 0 _)
  refine tcArmed_false ?_ ?_
  · rw [tcReg_setGoSt hn, hreg, bit_putBit (by decide)]
  · rw [setGoSt_lapse]
    rfl

/-! ### The fire of a unit -/

/-- A unit that fires is no longer in the cycle after a clear of ARM, and its ENTRY_IDX goes on. -/
def tcTurned (n : Nat) (s : State) : State :=
  setTc (modTime s fun t => { t with lapse := kset none t.lapse n none }) n 0x14
    (putBits (tcReg s n 0x14) 11 0 ((bits (tcReg s n 0x14) 11 0 + 1) % 2 ^ min 12 (bits (tcReg s n 0) 3 0)))

/-- With SEND = 1 the token goes to the dispatcher and is counted. -/
def tcSent (n : Nat) (s : State) : State :=
  if bit (tcReg s n 0) 24 then
    incCnt { tcTurned n s with disp := { s.disp with
      ingress := s.disp.ingress ++ [(tcToken s n, bits (tcReg (tcTurned n s) n 0x10) 1 0)] } } 0x003 1
  else tcTurned n s

/-- TC_FIRED of the unit is 1. -/
def tcMarked (n : Nat) (s : State) : State :=
  modReg (tcSent n s) 0x003 (0x158 + 4 * (n / 32)) fun w => putBit w (n % 32) true

/-- The fire is counted. -/
def tcCounted (n : Nat) (s : State) : State :=
  incCnt (setTc (tcMarked n s) n 0x1C (tcReg (tcMarked n s) n 0x1C + 1)) 0x003 0

/-- The next target is set, or the unit is disarmed. -/
def tcRenewed (n : Nat) (s : State) : State :=
  if bit (tcReg s n 0) 30 then tcNext n (tcCounted n s) else setTc (tcCounted n s) n 0 (putBit (tcReg s n 0) 31 false)

theorem tcSent_regs : (tcSent n s).regs = (tcTurned n s).regs := by
  unfold tcSent
  split <;> rfl

theorem tcSent_time : (tcSent n s).time = { s.time with lapse := kset none s.time.lapse n none } := by
  unfold tcSent
  split <;> rfl

theorem tcSent_ingress : (tcSent n s).disp.ingress =
    s.disp.ingress ++ if bit (tcReg s n 0) 24 then [(tcToken s n, bits (tcReg s n 0x10) 1 0)] else [] := by
  have hurg : tcReg (tcTurned n s) n 0x10 = tcReg s n 0x10 := tcReg_setTc_off (by decide) _
  unfold tcSent
  rw [hurg]
  split
  · rfl
  · exact (List.append_nil _).symm

theorem kup_tcSent (hu : kup s.regs = true) : kup (tcSent n s).regs = true := by
  rw [tcSent_regs]
  exact kup_setRegI _ _ _ _ _ hu

theorem kup_tcMarked (hu : kup s.regs = true) : kup (tcMarked n s).regs = true := kup_setRegI _ _ _ _ _ (kup_tcSent hu)

theorem tcReg_tcMarked (hn : n < 64) {o : Nat} (ho : o < 0x40) (hne : o ≠ 0x14) : tcReg (tcMarked n s) n o = tcReg s n o := by
  refine (tcReg_setReg_time hn ho (by omega) _).trans ?_
  exact (getReg_of_regs tcSent_regs _ _).trans (tcReg_setTc_off hne _)

/-- The fire reaches no register of another page. -/
theorem getReg_tcCounted {p off : Nat} (hn : n < 64) (hp : p ≠ 0x260) (hoff : off < 4096)
    (hne : p ≠ 0x003 ∨ off ≠ 0x158 + 4 * (n / 32)) : getReg (tcCounted n s) p off = getReg s p off := by
  have hset : ∀ (u : State) (o : Nat) (v : Word), o < 0x40 → getReg (setTc u n o v) p off = getReg u p off :=
    fun u o v ho => getReg_setReg_page hp hoff (by omega) u v
  have hmark : getReg (tcMarked n s) p off = getReg (tcSent n s) p off := by
    by_cases h3 : p = 0x003
    · subst h3
      exact getReg_setReg_off _ _ _ _ _ (by omega)
    · exact getReg_setReg_page h3 hoff (by omega) _ _
  exact (hset _ _ _ (by decide)).trans (hmark.trans ((getReg_of_regs tcSent_regs _ _).trans (hset _ _ _ (by decide))))

theorem tcReg_tcCounted (hn : n < 64) {o : Nat} (ho : o < 0x40) (h14 : o ≠ 0x14) (h1C : o ≠ 0x1C) :
    tcReg (tcCounted n s) n o = tcReg s n o :=
  (tcReg_setTc_off h1C _).trans (tcReg_tcMarked hn ho h14)

theorem tcReg_tcCounted_count (hn : n < 64) (hu : kup s.regs = true) : tcReg (tcCounted n s) n 0x1C = tcReg s n 0x1C + 1 :=
  (tcReg_setTc (kup_tcMarked hu) _ _).trans (congrArg (· + 1) (tcReg_tcMarked hn (by decide) (by decide)))

theorem kup_tcCounted (hu : kup s.regs = true) : kup (tcCounted n s).regs = true := kup_setRegI _ _ _ _ _ (kup_tcMarked hu)

theorem tcFired_tcCounted (hn : n < 64) (hu : kup s.regs = true) : tcFired (tcCounted n s) n = true := by
  have hreg : getReg (tcCounted n s) 0x003 (0x158 + 4 * (n / 32)) =
      putBit (getReg (tcSent n s) 0x003 (0x158 + 4 * (n / 32))) (n % 32) true :=
    (getReg_time_setTc (s := tcMarked n s) (o := 0x1C) hn (by decide) (by omega) _).trans (getReg_setReg _ _ _ _ (kup_tcSent hu))
  rw [tcFired, hreg, bit_putBit (Nat.mod_lt _ (by decide))]

/-- The target of a unit moved on. -/
def tcTarget (n : Nat) (target : Word) (frac : Nat) (s : State) : State :=
  modTime (setTc s n 4 target) fun x => { x with fracs := kset 0 x.fracs n frac }

/-- The targets that a unit missed are counted. -/
def tcMissed (n k : Nat) (s : State) : State :=
  setEvt (addCnt (setTc s n 0x18 (w32 (satAdd 0xFFFF (tcReg s n 0x18).toNat k))) 0x003 2 k) 0x003 3

theorem tcNext_cases (n : Nat) (s : State) :
    ∃ target frac k, tcNext n s = if k = 0 then tcTarget n target frac s else tcMissed n k (tcTarget n target frac s) :=
  ⟨_, _, _, rfl⟩

/-- What a next target leaves: every other register of the unit, and TC_FIRED. -/
theorem tcReg_tcNext {o : Nat} (hn : n < 64) (ho : o < 0x40) (h4 : o ≠ 4) (h18 : o ≠ 0x18) : tcReg (tcNext n s) n o = tcReg s n o := by
  obtain ⟨target, frac, k, hnext⟩ := tcNext_cases n s
  have moved : tcReg (tcTarget n target frac s) n o = tcReg s n o := tcReg_setTc_off h4 target
  rw [hnext]
  split
  · exact moved
  · exact (tcReg_setReg_time hn ho (by decide) _).trans ((tcReg_setTc_off h18 _).trans moved)

theorem tcFired_tcNext (hn : n < 64) : tcFired (tcNext n s) n = tcFired s n := by
  have target (u : State) (o : Nat) (v : Word) (ho : o < 0x40) :
      getReg (setTc u n o v) 0x003 (0x158 + 4 * (n / 32)) = getReg u 0x003 (0x158 + 4 * (n / 32)) :=
    getReg_time_setTc hn ho (by omega) v
  have event (u : State) : getReg (setEvt u 0x003 3) 0x003 (0x158 + 4 * (n / 32)) = getReg u 0x003 (0x158 + 4 * (n / 32)) :=
    getReg_setReg_off _ _ _ _ _ (by omega)
  obtain ⟨v, frac, k, hnext⟩ := tcNext_cases n s
  have moved : getReg (tcTarget n v frac s) 0x003 (0x158 + 4 * (n / 32)) = getReg s 0x003 (0x158 + 4 * (n / 32)) :=
    target s 4 v (by decide)
  rw [hnext, tcFired, tcFired]
  split
  · rw [moved]
  · refine congrArg (bit · (n % 32)) ((event _).trans ?_)
    exact (target (tcTarget n v frac s) 0x18 _ (by decide)).trans moved

theorem tcNext_disp : (tcNext n s).disp = s.disp := by
  obtain ⟨v, frac, k, hnext⟩ := tcNext_cases n s
  rw [hnext]
  split <;> rfl

/-! #### The unit after its fire -/

theorem tcmpFireSt_of_due (hn : n < 64) (ha : tcArmed s n = true) (hd : 0 ≤ sinceTarget s (tcReg s n 4))
    (hsnap : bit (getReg s 0x003 0x140) 6 = false) : tcmpFireSt n s = dmaTime n (tcLevel (tcRenewed n s)) := by
  have hsel : getReg (tcCounted n s) 0x003 0x140 = getReg s 0x003 0x140 := getReg_tcCounted hn (by decide) (by decide) (.inr (by omega))
  have hquiet : ¬ (bit (getReg (tcCounted n s) 0x003 0x140) 6 = true ∧ bits (getReg (tcCounted n s) 0x003 0x140) 5 0 = n) := by
    rw [hsel, hsnap]
    exact fun h => Bool.noConfusion h.1
  have hgo : ¬ (!tcArmed s n ∨ sinceTarget s (tcReg s n 4) < 0) := by
    rintro (h | h)
    · simp [ha] at h
    · omega
  have hbody : tcmpFireSt n s = if (!tcArmed s n ∨ sinceTarget s (tcReg s n 4) < 0) then s else
      let u := if bit (getReg (tcCounted n s) 0x003 0x140) 6 ∧ bits (getReg (tcCounted n s) 0x003 0x140) 5 0 = n
        then snapTrigger (tcCounted n s) else tcCounted n s
      dmaTime n (tcLevel (if bit (tcReg s n 0) 30 then tcNext n u else setTc u n 0 (putBit (tcReg s n 0) 31 false))) := rfl
  rw [hbody, if_neg hgo]
  dsimp only
  rw [if_neg hquiet]
  rfl

/-- No channel starts with compare unit `n` where none starts by time. -/
theorem dmaTime_of_none (h : ∀ c < 1024, bits (chReg s c 0) 17 16 ≠ 2) : dmaTime n s = s := by
  have hnone : (List.range 1024).filter (fun c => decide (bits (chReg s c 0) 17 16 = 2 ∧ bits (chReg s c 0) 9 0 = n)) = [] := by
    rw [List.filter_eq_nil_iff]
    intro c hc
    simp [h c (List.mem_range.mp hc)]
  rw [dmaTime, dmaTriggerAll, hnone, List.foldl_nil]

theorem chReg_tcLevel {c : Nat} (hc : c < 1024) : chReg (tcLevel s) c 0 = chReg s c 0 :=
  getReg_setReg_page (by unfold chPage; omega) (by omega) (by decide) _ _

/-- A fire reaches no channel's register. -/
theorem chReg_tcRenewed (hn : n < 64) {c : Nat} (hc : c < 1024) : chReg (tcRenewed n s) c 0 = chReg s c 0 := by
  have hp : chPage c ≠ 0x260 := by unfold chPage; omega
  have ho : c % 32 * 0x80 + 0 < 4096 := by omega
  have counted : chReg (tcCounted n s) c 0 = chReg s c 0 := getReg_tcCounted hn hp ho (.inl (by unfold chPage; omega))
  have unit (u : State) (o : Nat) (v : Word) (h : o < 0x40) : chReg (setTc u n o v) c 0 = chReg u c 0 :=
    getReg_setReg_page hp ho (by omega) u v
  unfold tcRenewed
  split
  · obtain ⟨v, frac, k, hnext⟩ := tcNext_cases n (tcCounted n s)
    have moved : chReg (tcTarget n v frac (tcCounted n s)) c 0 = chReg s c 0 := (unit _ 4 v (by decide)).trans counted
    rw [hnext]
    split
    · exact moved
    · refine (getReg_setReg_page (by unfold chPage; omega) ho (by decide) _ _).trans ?_
      exact (unit (tcTarget n v frac (tcCounted n s)) 0x18 _ (by decide)).trans moved
  · exact (unit _ 0 _ (by decide)).trans counted

theorem tcFired_tcLevel : tcFired (tcLevel s) n = tcFired s n := by
  have hreg : getReg (tcLevel s) 0x003 (0x158 + 4 * (n / 32)) = getReg s 0x003 (0x158 + 4 * (n / 32)) :=
    getReg_setReg_off _ _ _ _ _ (by omega)
  rw [tcFired, tcFired, hreg]

theorem tcFired_tcRenewed (hn : n < 64) (hu : kup s.regs = true) : tcFired (tcRenewed n s) n = true := by
  unfold tcRenewed
  split
  · exact (tcFired_tcNext hn).trans (tcFired_tcCounted hn hu)
  · have hreg : tcFired (setTc (tcCounted n s) n 0 (putBit (tcReg s n 0) 31 false)) n = tcFired (tcCounted n s) n :=
      congrArg (bit · (n % 32)) (getReg_time_setTc hn (by decide) (by omega) _)
    exact hreg.trans (tcFired_tcCounted hn hu)

theorem tcReg_tcRenewed_count (hn : n < 64) (hu : kup s.regs = true) : tcReg (tcRenewed n s) n 0x1C = tcReg s n 0x1C + 1 := by
  unfold tcRenewed
  split
  · exact (tcReg_tcNext hn (by decide) (by decide) (by decide)).trans (tcReg_tcCounted_count hn hu)
  · exact (tcReg_setTc_off (by decide) _).trans (tcReg_tcCounted_count hn hu)

theorem tcRenewed_ingress : (tcRenewed n s).disp.ingress =
    s.disp.ingress ++ if bit (tcReg s n 0) 24 then [(tcToken s n, bits (tcReg s n 0x10) 1 0)] else [] := by
  rw [← tcSent_ingress]
  unfold tcRenewed
  split
  · rw [tcNext_disp]
    rfl
  · rfl

/-- A unit that fires once is disarmed. -/
theorem tcArmed_tcRenewed_once (hu : kup s.regs = true) (hl : kup s.time.lapse = true) (hone : bit (tcReg s n 0) 30 = false) :
    tcArmed (tcRenewed n s) n = false := by
  have heq : tcRenewed n s = setTc (tcCounted n s) n 0 (putBit (tcReg s n 0) 31 false) := by
    rw [tcRenewed, hone]
    rfl
  have htime : (tcRenewed n s).time = { s.time with lapse := kset none s.time.lapse n none } := by
    rw [heq]
    exact tcSent_time
  refine tcArmed_false ?_ ?_
  · rw [heq, tcReg_setTc (kup_tcCounted hu), bit_putBit (by decide)]
  · rw [htime]
    exact kget_kset_self _ _ _ _ hl

/-- A periodic unit stays armed. -/
theorem tcArmed_tcRenewed_periodic (hn : n < 64) (hper : bit (tcReg s n 0) 30 = true) (harm : bit (tcReg s n 0) 31 = true) :
    tcArmed (tcRenewed n s) n = true := by
  refine tcArmed_of_bit ?_
  rw [tcRenewed, if_pos hper, tcReg_tcNext hn (by decide) (by decide) (by decide),
    tcReg_tcCounted hn (by decide) (by decide) (by decide), harm]

theorem tcArmed_tcLevel (hn : n < 64) : tcArmed (tcLevel s) n = tcArmed s n := by
  rw [tcArmed, tcReg_tcLevel hn (by decide)]
  rfl

/-- A due fire of a unit, where it triggers neither a snapshot nor a channel. -/
theorem tcmpFireSt_eq (hn : n < 64) (ha : tcArmed s n = true) (hd : 0 ≤ sinceTarget s (tcReg s n 4))
    (hsnap : bit (getReg s 0x003 0x140) 6 = false) (hch : ∀ c < 1024, bits (chReg s c 0) 17 16 ≠ 2) :
    tcmpFireSt n s = tcLevel (tcRenewed n s) := by
  rw [tcmpFireSt_of_due hn ha hd hsnap]
  refine dmaTime_of_none fun c hc => ?_
  rw [chReg_tcLevel hc, chReg_tcRenewed hn hc]
  exact hch c hc

end Compare

/-! ### 1PPS (R760–R762) -/

theorem ppsInSt_of_edge {s : State} {rising : Bool} (hen : bit (getReg s 0x003 0x144) 31 = true)
    (hedge : bit (getReg s 0x003 0x144) 30 ≠ rising) :
    ppsInSt rising s =
      let t := devNs s - signed 16 (bits (getReg s 0x003 0x144) 15 0)
      let s1 := setReg (setReg s 0x003 0x148 (w32 (wrapN 32 (t / 1000000000)))) 0x003 0x14C (w32 (t % 1000000000).toNat)
      modTime (incCnt (setEvt s1 0x003 1) 0x003 3) fun x => { x with ppsIn := some x.free } := by
  refine if_neg (not_or.mpr ⟨?_, hedge⟩)
  simp [hen]

theorem ppsLossSt_of_missing {s : State} {t : Nat} (hlast : s.time.ppsIn = some t) (hen : bit (getReg s 0x003 0x144) 31 = true)
    (hlate : usSince s t 1100000 = true) :
    ppsLossSt s = ownErr (setEvt (modTime s fun x => { x with ppsIn := none }) 0x003 2) 0x003 4 0x03 none := by
  simp only [ppsLossSt, hlast]
  exact if_pos ⟨hen, hlate⟩

/-- Settles O52: each row reaches the TIME page, or finds its block running; a unit's fire is followed through ENTRY_IDX, its
token, TC_FIRED, its count and its next target. -/
theorem timeCommandsComplete : Obligations.TimeCommandsComplete := by
  intro s
  refine ⟨fun a hr => ⟨?latch, ?ppsLatch, fun v held u h => ⟨fun hlo hhi => ?near, fun hhi => ?above⟩, fun v => ?adjust, ?set⟩,
    fun a n v hr hfree hu hper => ?arm, fun n ha hd hb hsnap hch hu => ?fire, fun rising hen hedge hb => ?edge,
    fun t hlast hen hlate hb => ?loss, fun hen hb hdue => ?rise, fun hout hb hdue => ?fall⟩
  case latch => exact next_onRead hr
  case ppsLatch => exact next_onRead hr
  case near => exact next_onPage hr (incrCommitSt_near h hlo hhi)
  case above => exact next_onPage hr (incrCommitSt_above h hhi)
  case adjust =>
    refine ⟨_, next_onPage hr rfl, rfl, rfl, ?_⟩
    rw [adjNsSt, devTime_timeStep, devTime, Int.add_assoc]
  case set => exact ⟨_, next_onPage hr rfl, setGoSt_free_eq, devTime_setGoSt, fun hu n hn => setGoSt_disarms hu hn⟩
  case arm =>
    have h30 : bit (putBit v 31 true) 30 = bit v 30 := bit_putBit_ne (by decide) (by decide) _ _
    have hreg : tcReg (tcCtrlWrite n (putBit v 31 true) s) n 0 = putBit v 31 true &&& 0xC300000F :=
      tcCtrlWrite_arms n.isLt hu hfree (by rwa [h30])
    refine ⟨_, next_onPage hr rfl, hreg, tcArmed_of_bit ?_⟩
    rw [hreg, bit_and, bit_putBit (by decide)]
    decide
  case fire =>
    refine ⟨_, next_whileRuns hb (tcmpFireSt_eq n.isLt ha hd hsnap hch), fun hone hl => ?_, fun hper harm => ?_,
      (tcReg_tcLevel n.isLt (by decide)).trans (tcReg_tcRenewed_count n.isLt hu),
      tcFired_tcLevel.trans (tcFired_tcRenewed n.isLt hu), tcRenewed_ingress⟩
    · exact (tcArmed_tcLevel n.isLt).trans (tcArmed_tcRenewed_once hu hl hone)
    · exact (tcArmed_tcLevel n.isLt).trans (tcArmed_tcRenewed_periodic n.isLt hper harm)
  case edge => exact next_whileRuns hb (ppsInSt_of_edge hen hedge)
  case loss => exact next_whileRuns hb (ppsLossSt_of_missing hlast hen hlate)
  case rise => exact next_whileRuns hb (if_pos ⟨hen, hdue⟩)
  case fall => exact next_whileRuns hb (if_pos ⟨hout, hdue⟩)

end Sys2Proof.Machine

/-! What a reset keeps (R821, R825–R828). -/

namespace Sys2Proof.Machine

/-! ### The registers of another page -/

section OtherPage

variable {p q off i : Nat} (hp : p < 1024) (hq : q < 1024) (ho : off < 4096) (hne : p ≠ q)
include hp hq ho hne

theorem getRegI_setRegI_page {o j : Nat} (ho' : o < 4096) (s : State) (v : Word) :
    getRegI (setRegI s q o j v) p off i = getRegI s p off i :=
  getRegI_setRegI_ne _ _ _ _ _ _ _ _ fun h => hne (rkey_inj hp ho hq ho' h).1

theorem getRegI_setEvt_page (s : State) (b : Nat) : getRegI (setEvt s q b) p off i = getRegI s p off i :=
  getRegI_setRegI_page hp hq ho hne (by decide) s _

theorem getRegI_storeErr_page (s : State) (e : Err) (ovf : Bool) : getRegI (storeErr s q e ovf) p off i = getRegI s p off i := by
  unfold storeErr
  dsimp only [setReg]
  rw [getRegI_setRegI_page hp hq ho hne (by decide), getRegI_setRegI_page hp hq ho hne (by decide),
    getRegI_setRegI_page hp hq ho hne (by decide)]

theorem getRegI_captureErr_page (s : State) (e : Err) : getRegI (captureErr s q e) p off i = getRegI s p off i := by
  have hsent (u : State) : getRegI (sendReport u q e) p off i = getRegI u p off i := by
    rw [getRegI, sendReport_regs, getRegI]
  rw [captureErr, hsent, captureOnly, setReg]
  simp only [apply_ite (getRegI · p off i), getRegI_setEvt_page hp hq ho hne, getRegI_storeErr_page hp hq ho hne,
    getRegI_setRegI_page hp hq ho hne (show 0x20 < 4096 by decide), ite_self]

end OtherPage

theorem kup_captureErr {s : State} {p : Nat} {e : Err} (h : kup s.regs = true) : kup (captureErr s p e).regs = true := by
  have hstore (ovf : Bool) : kup (storeErr s p e ovf).regs = true :=
    kup_setRegI _ _ _ _ _ (kup_setRegI _ _ _ _ _ (kup_setRegI _ _ _ _ _ h))
  rw [captureErr, sendReport_regs, captureOnly]
  split
  · split
    · exact hstore false
    · exact kup_setRegI _ _ _ _ _ (hstore false)
  · split
    · exact kup_setRegI _ _ _ _ _ (hstore true)
    · exact kup_setRegI _ _ _ _ _ h

/-! ### DRAM begins its start (R655) -/

section Dram

variable {p off i : Nat} (hp : p < 1024) (ho : off < 4096) (hpage : p < 0x0E0 ∨ 0x0F0 ≤ p)
include hp ho hpage

theorem getRegI_setChState (n : Nat) (s : State) : getRegI (setChState n s) p off i = getRegI s p off i := by
  refine List.foldlRecOn (motive := fun u => getRegI u p off i = getRegI s p off i) _ _ rfl fun u hu c hc => ?_
  have hc := List.mem_range.mp hc
  exact (getRegI_setRegI_page hp (by omega) ho (by omega) (by decide) u _).trans hu

theorem getRegI_dramBegin (s : State) : getRegI (dramBegin s) p off i = getRegI s p off i := by
  have hlost (u : State) : getRegI (modMemc (dramLost u) fun m => { m with init := true, banks := [] }) p off i =
      getRegI u p off i := rfl
  unfold dramBegin
  split
  · exact getRegI_captureErr_page hp (by decide) ho (by omega) _ _
  · exact (hlost _).trans (getRegI_setChState hp ho hpage 1 s)

theorem getRegI_selfRefreshLost (fc : Bool) (s : State) : getRegI (selfRefreshLost fc s) p off i = getRegI s p off i := by
  unfold selfRefreshLost
  split
  · exact getRegI_dramBegin hp ho hpage s
  · rfl

end Dram

/-! ### A warm or a fatal reset (R825–R828) -/

/-- What a map keeps of itself, read back. -/
theorem kget_filter_key {α : Type} (d : α) (m : KMap α) (q : Nat → Bool) (k : Nat) :
    kget d (m.filter fun e => q e.1) k = if q k then kget d m k else d := by
  induction m with
  | nil => simp [kget]
  | cons e m ih =>
    obtain ⟨j, v⟩ := e
    by_cases hj : q j = true
    · rw [List.filter_cons_of_pos (p := fun e : Nat × α => q e.1) hj, kget, kget, ih]
      by_cases hk : k = j
      · simp [hk, hj]
      · simp [hk]
    · rw [List.filter_cons_of_neg (p := fun e : Nat × α => q e.1) hj, ih, kget]
      by_cases hk : k = j
      · simp [hk, hj]
      · simp [hk]

/-- R825: the registers that a warm reset keeps, by page and offset. -/
theorem warmKeeps_rkey (dram : Bool) {p off : Nat} (i : Nat) (hp : p < 1024) (ho : off < 4096) :
    warmKeeps dram (rkey p off i) = (decide (p = 0x001 ∧ off = 0x148) || decide (p = 0x003 ∧ (off = 0x11C ∨ off = 0x120)) ||
      decide (pageKind p = some .plane) || (dram && decide (pageKind p = some .dramc))) := by
  have hpage : rkey p off i % 2 ^ 22 / 4096 = p := by unfold rkey; omega
  have hoff : rkey p off i % 4096 = off := by unfold rkey; omega
  unfold warmKeeps
  rw [hpage, hoff]

theorem dramBegin_mem_nil {s : State} (h : s.mem = []) : (dramBegin s).mem = [] := by
  unfold dramBegin
  split
  · exact (captureErr_mem _ _ _).trans h
  · have hch : (setChState 1 s).mem = [] := ((setChState_to (Nat.or_self _) (.refl _ s)).mem rfl).trans h
    show (setChState 1 s).mem.filter _ = []
    rw [hch]
    rfl

section Warm

variable {cause : Word} {dram : Bool} {s : State}

theorem warmReset_fuses : (warmReset cause dram s).fuses = s.fuses :=
  (selfRefreshLost_to (Nat.or_self _) (.refl _ _)).fuses rfl

theorem warmReset_boot : (warmReset cause dram s).boot = { BootSt.init with flash := s.boot.flash } :=
  (selfRefreshLost_to (Nat.or_self _) (.refl _ _)).boot rfl

theorem warmReset_cores : (warmReset cause dram s).cores = State.reset.cores :=
  (selfRefreshLost_to (Nat.or_self _) (.refl _ _)).cores rfl

theorem warmReset_time : (warmReset cause dram s).time =
    { State.reset.time with free := s.time.free, made := s.time.made, acc := s.time.acc, off := s.time.off } :=
  (selfRefreshLost_to (Nat.or_self _) (.refl _ _)).time rfl

theorem devTime_warmReset : devTime (warmReset cause dram s) = devTime s := by
  unfold devTime
  rw [warmReset_time]

/-- R826: memory after the reset holds DRAM where the reset keeps it, and 0 elsewhere. -/
theorem warmReset_mem (k : Nat) : kget 0 (warmReset cause dram s).mem k =
    if dram && s.memc.fc.isNone && decide (k < 0x001000000000) then kget 0 s.mem k else 0 := by
  unfold warmReset
  rw [selfRefreshLost]
  cases hfc : s.memc.fc with
  | none => exact kget_filter_key 0 s.mem (fun k => dram && true && decide (k < 0x001000000000)) k
  | some x =>
    have hlost : (s.mem.filter fun e => dram && false && decide (e.1 < 0x001000000000)) = [] := by simp
    refine (congrArg (kget 0 · k) (dramBegin_mem_nil hlost)).trans ?_
    simp [kget]

/-- R827: a register of a page outside the DRAM controllers', but for the two that the reset itself writes. -/
theorem getRegI_warmReset {p off i : Nat} (hp : p < 1024) (ho : off < 4096) (hpage : p < 0x0E0 ∨ 0x0F0 ≤ p)
    (hpll : (p, off) ≠ (0x005, 0x180)) (hcause : (p, off) ≠ (0x00D, 0x100)) :
    getRegI (warmReset cause dram s) p off i =
      if warmKeeps (dram && s.memc.fc.isNone) (rkey p off i) then getRegI s p off i else regReset p off := by
  have hkept (u : State) (v w : Word) : getRegI (setReg (setReg u 0x005 0x180 v) 0x00D 0x100 w) p off i = getRegI u p off i := by
    refine (getRegI_setRegI_ne _ _ _ _ _ _ _ _ fun h => hcause ?_).trans (getRegI_setRegI_ne _ _ _ _ _ _ _ _ fun h => hpll ?_)
    · obtain ⟨rfl, rfl, -⟩ := rkey_inj hp ho (by decide) (by decide) h
      rfl
    · obtain ⟨rfl, rfl, -⟩ := rkey_inj hp ho (by decide) (by decide) h
      rfl
  unfold warmReset
  rw [getRegI_selfRefreshLost hp ho hpage]
  exact (hkept _ _ _).trans (kget_filter_key _ s.regs (warmKeeps (dram && s.memc.fc.isNone)) _)

/-- R826: RESET_CAUSE. -/
theorem getReg_warmReset_cause (hu : kup s.regs = true) : getReg (warmReset cause dram s) 0x00D 0x100 = cause := by
  have hset (u : State) (v : Word) (h : kup u.regs = true) :
      getReg (setReg (setReg u 0x005 0x180 v) 0x00D 0x100 cause) 0x00D 0x100 = cause :=
    getRegI_setRegI _ _ _ _ _ (kup_setRegI _ _ _ _ _ h)
  unfold warmReset
  exact (getRegI_selfRefreshLost (by decide) (by decide) (by decide) _ _).trans (hset _ _ (kup_filter _ _ hu))

/-- R827: INCR and FATAL_STS stay. -/
theorem getReg_warmReset_kept {p off : Nat} (h : (p, off) ∈ [(0x001, 0x148), (0x003, 0x11C), (0x003, 0x120)]) :
    getReg (warmReset cause dram s) p off = getReg s p off := by
  have hcases : (p = 0x001 ∧ off = 0x148) ∨ (p = 0x003 ∧ (off = 0x11C ∨ off = 0x120)) := by
    simp only [List.mem_cons, Prod.mk.injEq, List.not_mem_nil, or_false] at h
    omega
  have hk : warmKeeps (dram && s.memc.fc.isNone) (rkey p off 0) = true := by
    rw [warmKeeps_rkey _ _ (by omega) (by omega)]
    obtain hfatal | hincr := hcases
    · simp [hfatal]
    · simp [hincr]
  have hne {x : Nat × Nat} (hx : x.2 ≠ 0x148 ∧ x.2 ≠ 0x11C ∧ x.2 ≠ 0x120) : (p, off) ≠ x := by
    rintro rfl
    simp only at hx
    omega
  exact (getRegI_warmReset (by omega) (by omega) (by omega) (hne (by decide)) (hne (by decide))).trans (if_pos hk)

/-- R827: every other register of the TIME page and of the compare units' page reads its reset value. -/
theorem getRegI_warmReset_time {p off : Nat} (i : Nat) (hp : p = 0x003 ∨ p = 0x260) (ho : off < 4096)
    (hincr : p = 0x003 → off ≠ 0x11C ∧ off ≠ 0x120) : getRegI (warmReset cause dram s) p off i = regReset p off := by
  have hk : warmKeeps (dram && s.memc.fc.isNone) (rkey p off i) = false := by
    rw [warmKeeps_rkey _ _ (by omega) ho]
    obtain rfl | rfl := hp
    · have hkind : pageKind 0x003 = some .time := by decide
      simp [hkind, hincr rfl]
    · have hkind : pageKind 0x260 = some .tcmp := by decide
      simp [hkind]
  refine (getRegI_warmReset (by omega) ho (by omega) (fun h => ?_) (fun h => ?_)).trans (if_neg (by simp [hk]))
  · simp only [Prod.mk.injEq] at h
    omega
  · simp only [Prod.mk.injEq] at h
    omega

/-- R827: every compare unit starts disarmed. -/
theorem tcArmed_warmReset {n : Nat} (hn : n < 64) : tcArmed (warmReset cause dram s) n = false := by
  have hreset : ∀ n < 64, bit (regReset 0x260 (0x40 * n)) 31 = false := by decide
  unfold tcArmed tcReg
  rw [getReg, getRegI_warmReset_time 0 (.inr rfl) (by omega) (by simp), warmReset_time]
  simp [hreset n hn, kget, State.reset]

theorem incr_warmReset : incr (warmReset cause dram s) = incr s := by
  unfold incr
  rw [getReg_warmReset_kept (by decide), getReg_warmReset_kept (by decide)]

end Warm

/-! ### A PCIe reset (R825) -/

section PcieReset

/-- A register of a page that a PCIe reset leaves alone. -/
theorem getRegI_resetRegs_page {p q off i : Nat} (hp : p < 1024) (ho : off < 4096) (hne : p ≠ q) (hext : extPages q = [])
    (s : State) : getRegI (resetRegs q (fun _ => false) s) p off i = getRegI s p off i := by
  have hpage : rkey p off i % 2 ^ 22 / 4096 = p := by unfold rkey; omega
  unfold resetRegs getRegI
  rw [hext]
  refine (kget_filter_key _ s.regs (fun k => !(k % 2 ^ 22 / 4096 == q) || false) _).trans (if_pos ?_)
  rw [hpage]
  simp [hne]

/-- The pages of the PCIe lanes are reset. -/
def planesReset (s : State) : State :=
  [0x130, 0x131, 0x132, 0x133].foldl (fun s p => (List.range 4).foldl
    (fun s l => { s with lanes := kset LaneSt.init s.lanes (p * 4 + l) LaneSt.init }) (resetRegs p (fun _ => false) s)) s

theorem getRegI_planesReset {p off i : Nat} (hp : p < 1024) (ho : off < 4096) (hpage : p ∉ [0x130, 0x131, 0x132, 0x133])
    (s : State) : getRegI (planesReset s) p off i = getRegI s p off i := by
  have hlanes (u : State) (q : Nat) : getRegI ((List.range 4).foldl
      (fun s l => { s with lanes := kset LaneSt.init s.lanes (q * 4 + l) LaneSt.init }) u) p off i = getRegI u p off i :=
    List.foldlRecOn (motive := fun v => getRegI v p off i = getRegI u p off i) _ _ rfl fun _ hv _ _ => hv
  have hext : ∀ q ∈ [0x130, 0x131, 0x132, 0x133], extPages q = [] := by decide
  refine List.foldlRecOn (motive := fun u => getRegI u p off i = getRegI s p off i) _ _ rfl fun u hu q hq => ?_
  have hne : p ≠ q := fun h => hpage (h ▸ hq)
  exact (hlanes _ q).trans ((getRegI_resetRegs_page hp ho hne (hext q hq) u).trans hu)

theorem pcieResetSt_regs (s : State) : (pcieResetSt s).regs = (planesReset (resetRegs 0x007 (fun _ => false) s)).regs := rfl

theorem getRegI_pcieResetSt {p off i : Nat} (hp : p < 1024) (ho : off < 4096) (hpage : p ∉ [0x007, 0x130, 0x131, 0x132, 0x133])
    (s : State) : getRegI (pcieResetSt s) p off i = getRegI s p off i := by
  obtain ⟨h7, hplane⟩ := not_or.mp fun h => hpage (List.mem_cons.mpr h)
  rw [getRegI, pcieResetSt_regs]
  exact (getRegI_planesReset hp ho hplane _).trans (getRegI_resetRegs_page hp ho h7 (by decide) s)

end PcieReset

/-! ### The commands that reset the device -/

/-- Settles O59: whichever command asks for it, the reset is `warmReset`. -/
theorem warmResetKeepsDeviceTime : Obligations.WarmResetKeepsDeviceTime := by
  intro s hu
  refine ⟨fun i hi => ?warm, fun i hi => ?power⟩
  case warm =>
    have hreset : ∃ cause dram, exec i s = .next (warmReset cause dram s) := by
      obtain rfl | ⟨a, v, rfl, hr, hkey, hgo⟩ | ⟨rfl, hreq⟩ | ⟨rfl, hen, hpast⟩ := hi
      · exact ⟨2, true, rfl⟩
      · exact ⟨4, true, next_onPage hr (if_pos ⟨hkey, hgo⟩)⟩
      · exact ⟨16, false, congrArg _ (if_pos hreq)⟩
      · exact ⟨8, true, congrArg _ (if_pos (by rw [hen, hpast]; rfl))⟩
    obtain ⟨cause, dram, hexec⟩ := hreset
    refine ⟨_, hexec, devTime_warmReset, ?_, incr_warmReset, fun off i ho hhi hlo => ?_, fun off i ho => ?_,
      fun n hn => tcArmed_warmReset hn⟩
    · rw [freeNow, warmReset_time, freeNow]
    · exact getRegI_warmReset_time i (.inl rfl) ho fun _ => ⟨hhi, hlo⟩
    · exact getRegI_warmReset_time i (.inr rfl) ho (by omega)
  case power =>
    have hreset : exec i s = .next (selfRefreshLost s.memc.fc.isSome (powerOn s)) := by
      obtain rfl | rfl := hi
      · rfl
      · rfl
    have htime : (selfRefreshLost s.memc.fc.isSome (powerOn s)).time = State.reset.time :=
      (selfRefreshLost_to (Nat.or_self _) (.refl _ _)).time rfl
    refine ⟨_, hreset, ?_, ?_, ?_, ?_⟩
    · rw [devTime, htime]
      rfl
    · rw [freeNow, htime]
      rfl
    · exact getRegI_selfRefreshLost (by decide) (by decide) (by decide) _ _
    · exact getRegI_selfRefreshLost (by decide) (by decide) (by decide) _ _

/-! ### The fatal record (R821) -/

theorem fatalSt_of_raised {s : State} {c : Nat} (h : s.evt.svLine31 = true) :
    fatalSt c s = modReg (incCnt s 0x001 6) 0x001 0x148 fun w => putBit w 30 true := if_pos h

theorem sendReport_svLine31 (s : State) (p : Nat) (e : Err) : (sendReport s p e).evt.svLine31 = s.evt.svLine31 := by
  unfold sendReport
  split
  · rfl
  · split <;> rfl

theorem ownErr_svLine31 (s : State) (p c d : Nat) (a : Option Nat) : (ownErr s p c d a).evt.svLine31 = s.evt.svLine31 := by
  have honly (e : Err) : (captureOnly s p e).evt = s.evt := (captureOnly_to (Nat.or_self _) (.refl _ s)).evt rfl
  rw [ownErr, captureErr, sendReport_svLine31, honly]

/-- A further fatal condition sets MORE, and nothing else of the record. -/
theorem getReg_fatalSt_of_raised {s u : State} {c : Nat} (hu : kup u.regs = true) (h : u.evt.svLine31 = true)
    (hsame : getReg u 0x001 0x148 = getReg s 0x001 0x148) :
    getReg (fatalSt c u) 0x001 0x148 = putBit (getReg s 0x001 0x148) 30 true := by
  rw [fatalSt_of_raised h, ← hsame]
  exact getReg_setReg _ _ _ _ hu

/-- Settles O60: a further condition passes through MORE, and every reset but power-on's keeps the register. -/
theorem fatalRecordStays : Obligations.FatalRecordStays := by
  intro s hu
  refine ⟨fun c hc hraised => ?further, fun i t hexec hi => ?kept, fun i hi => ?power⟩
  case further =>
    by_cases h4 : c.val = 4
    · have hcap : getReg (ownErr s 0x001 2 0x02 none) 0x001 0x148 = getReg s 0x001 0x148 :=
        getReg_captureErr_block (by decide) (by decide) _ _ _
      exact ⟨_, if_pos h4, getReg_fatalSt_of_raised (kup_captureErr hu) ((ownErr_svLine31 _ _ _ _ _).trans hraised) hcap⟩
    · exact ⟨_, (if_neg h4).trans (if_pos (hc.resolve_left h4)), getReg_fatalSt_of_raised hu hraised rfl⟩
  case kept =>
    have hwarm {cause : Word} {dram : Bool} : getReg (warmReset cause dram s) 0x001 0x148 = getReg s 0x001 0x148 :=
      getReg_warmReset_kept (by decide)
    obtain rfl | ⟨a, v, rfl⟩ | rfl | rfl | rfl := hi
    · exact Host.Outcome.next.inj hexec ▸ hwarm
    · refine Host.Outcome.next.inj hexec ▸ ?_
      unfold onPage rstCmdSt
      simp only [apply_ite (getReg · 0x001 0x148), hwarm, getReg_offAccess_block (show 0x100 ≤ 0x148 by decide) (by decide), ite_self]
    · refine Host.Outcome.next.inj hexec ▸ ?_
      simp only [apply_ite (getReg · 0x001 0x148), hwarm, ite_self]
    · exact Host.Outcome.next.inj hexec ▸ getRegI_pcieResetSt (by decide) (by decide) (by decide) s
    · refine Host.Outcome.next.inj hexec ▸ ?_
      simp only [apply_ite (getReg · 0x001 0x148), hwarm, ite_self]
  case power =>
    have hreset : getReg (selfRefreshLost s.memc.fc.isSome (powerOn s)) 0x001 0x148 = 0 :=
      getRegI_selfRefreshLost (by decide) (by decide) (by decide) _ _
    obtain rfl | rfl := hi
    · exact ⟨_, rfl, hreset⟩
    · exact ⟨_, rfl, hreset⟩

end Sys2Proof.Machine

/-! Resets, the watchdog and the boot (R825–R845, R853). -/

namespace Sys2Proof.Machine

/-! ### Flash (R831) -/

/-- A byte of flash outside what is programmed reads as before. -/
theorem flashByte_flashProgram {a x : Nat} (bs : List Byte) (s : State) (h : x < a ∨ a + bs.length ≤ x) :
    flashByte (flashProgram a bs s) x = flashByte s x := by
  refine List.foldlRecOn (motive := fun u => flashByte u x = flashByte s x) _ _ rfl fun u hu y hy => ?_
  have hlt : y.2 < bs.length := List.snd_lt_of_mem_zipIdx hy
  have hne : x ≠ a + y.2 := by omega
  exact (kget_kset_ne _ _ _ _ _ _ hne).trans hu

theorem length_leBytes (k n : Nat) : (leBytes k n).length = k := by
  induction k generalizing n with
  | zero => rfl
  | succ k ih => rw [leBytes, List.length_cons, ih]

/-- The body of an image lies behind its slot's STATE. -/
theorem flashBytes_setSlotState (s : State) (j v n : Nat) :
    flashBytes (setSlotState j v s) (slotBase j + 4096) n = flashBytes s (slotBase j + 4096) n := by
  refine List.map_congr_left fun i _ => flashByte_flashProgram _ _ (.inr ?_)
  rw [length_leBytes]
  omega

/-! ### The watchdog and the boot mode (R830, R853) -/

theorem wdogKickSt_of_key {s : State} {v : Word} (h : bits v 15 0 = 0x00A5) :
    wdogKickSt v s = modBoot s fun b => { b with wdog := s.time.free, wdogHalf := false } := if_pos h

theorem bootMode_resetReleaseSt {s : State} {mode : BitVec 2} (hs : s.boot.released = false) (hu : kup s.regs = true) :
    bootMode (resetReleaseSt mode s) = if s.fuses.bootLock ∨ mode = 3 then 0 else mode.toNat := by
  have hreg : getReg (resetReleaseSt mode s) 0x00D 0x114 = w32 ((if s.fuses.bootLock then 16 else 0) + mode.toNat) :=
    (congrArg (getReg · 0x00D 0x114) (if_neg (by simp [hs]))).trans (getReg_setReg _ _ _ _ hu)
  rw [bootMode, hreg]
  have hword : ∀ (lock : Bool) (m : BitVec 2), (bit (w32 ((if lock then 16 else 0) + m.toNat)) 4 = lock) ∧
      bits (w32 ((if lock then 16 else 0) + m.toNat)) 1 0 = m.toNat := by decide
  obtain ⟨hlock, hmode⟩ := hword s.fuses.bootLock mode
  have hthree : mode = 3 ↔ mode.toNat = 3 := by
    rw [← BitVec.toNat_inj]
    rfl
  simp only [hlock, hmode, hthree]

/-! ### The images of flash (R839) -/

section Image

variable {s : State}

/-- The slot that runs: its image, and its STATE or the SVN fuses (R839 step 3, R841). -/
def slotRun (s : State) (j : Nat) : State :=
  let h := flashBytes s (slotBase j) 4096
  let body := flashBytes s (slotBase j + 4096) (hdrLen h)
  if slotState s j = 0x000000FF then runImage j h body (blowSvn (hdrSvn h) s)
  else runImage j h body (wdogRestart (modReg (setSlotState j 0x0000FFFF s) 0x00D 0x10C fun w => putBit w 31 true))

/-- What IMAGE_SELECTED does with the slot it picks. -/
def slotTaken (s : State) (j : Nat) : State :=
  let h := flashBytes s (slotBase j) 4096
  let u := if slotState s j = 0xFFFFFFFF then
      wdogRestart (modReg (setSlotState j 0x0000FFFF s) 0x00D 0x10C fun w => putBit w 31 true)
    else blowSvn (hdrSvn h) s
  runImage j h (flashBytes u (slotBase j + 4096) (hdrLen h)) u

/-- A good slot is CONFIRMED or untried where no attempt is on it. -/
theorem slotState_of_good {j : Nat} (hg : slotGood s j = true) (hn : slotState s j ≠ 0x0000FFFF) :
    slotState s j = 0xFFFFFFFF ∨ slotState s j = 0x000000FF := by
  unfold slotGood at hg
  have hmem := (Bool.and_eq_true_iff.mp hg).1
  simp only [List.contains_cons, List.contains_nil, Bool.or_false, Bool.or_eq_true, beq_iff_eq] at hmem
  omega

theorem slotTaken_eq {j : Nat} (hg : slotGood s j = true) (hn : slotState s j ≠ 0x0000FFFF) : slotTaken s j = slotRun s j := by
  unfold slotTaken slotRun
  dsimp only
  obtain hst | hst := slotState_of_good hg hn
  · have hsame (u : State) (a n : Nat) :
        flashBytes (wdogRestart (modReg u 0x00D 0x10C fun w => putBit w 31 true)) a n = flashBytes u a n := rfl
    rw [if_pos hst, if_neg (by omega : slotState s j ≠ 0xFF), hsame, flashBytes_setSlotState]
  · rw [if_neg (by omega : slotState s j ≠ 0xFFFFFFFF), if_pos hst]
    rfl

/-- The slot that IMAGE_SELECTED picks of those left. -/
def slotPick (s : State) (left : List Nat) : Option Nat :=
  match left with
  | [0, 1] => some (if slotSeq s 0 < slotSeq s 1 then 1 else 0)
  | [j] => some j
  | _ => none

/-- With no attempt under way, every good slot is left to pick from. -/
theorem imageSelectSt_of_untried (hstage : bootStage s = 1) (hmode : bootMode s ≠ 1) (h0 : slotState s 0 ≠ 0x0000FFFF)
    (h1 : slotState s 1 ≠ 0x0000FFFF) : imageSelectSt s =
      match slotPick s ([0, 1].filter (slotGood s)) with
      | none => setStage 3 s
      | some j => slotTaken s j := by
  have hfree : ∀ j ∈ [0, 1].filter (slotGood s), slotState s j ≠ 0x0000FFFF := fun j hj => by
    have hj := (List.mem_filter.mp hj).1
    simp only [List.mem_cons, List.not_mem_nil, or_false] at hj
    obtain rfl | rfl := hj
    · exact h0
    · exact h1
  have htried : (([0, 1].filter (slotGood s)).filter fun j => decide (slotState s j = 0x0000FFFF)) = [] :=
    List.filter_eq_nil_iff.mpr fun j hj => by simpa using hfree j hj
  have hleft (q : Nat → Bool) (hq : ∀ j, slotState s j ≠ 0 → q j = true) :
      ([0, 1].filter (slotGood s)).filter q = [0, 1].filter (slotGood s) :=
    List.filter_eq_self.mpr fun j hj => hq j (by
      have := slotState_of_good (List.mem_filter.mp hj).2 (hfree j hj)
      omega)
  unfold imageSelectSt
  rw [if_neg (by simp [hstage, hmode])]
  simp only [htried, List.foldl_nil]
  rw [hleft _ fun _ h => decide_eq_true h]
  rfl

/-- R839 step 2: of two good slots the later SEQ runs. -/
theorem slotPick_good (hseq : slotSeq s 0 ≠ slotSeq s 1) : slotPick s ([0, 1].filter (slotGood s)) =
    if slotGood s 0 = true ∧ (slotGood s 1 = false ∨ slotSeq s 1 < slotSeq s 0) then some 0
    else if slotGood s 1 = true then some 1 else none := by
  cases h0 : slotGood s 0 with
  | false =>
    cases h1 : slotGood s 1 with
    | false => simp [h0, h1, slotPick]
    | true => simp [h0, h1, slotPick]
  | true =>
    cases h1 : slotGood s 1 with
    | false => simp [h0, h1, slotPick]
    | true =>
      have hlt : slotSeq s 0 < slotSeq s 1 ↔ ¬slotSeq s 1 < slotSeq s 0 := by omega
      by_cases hafter : slotSeq s 1 < slotSeq s 0
      · simp [h0, h1, slotPick, hlt, hafter]
      · simp [h0, h1, slotPick, hlt, hafter]

/-- R839: IMAGE_SELECTED runs the slot it picks, or shows that there is no image. -/
theorem imageSelectSt_eq (hstage : bootStage s = 1) (hmode : bootMode s ≠ 1) (h0 : slotState s 0 ≠ 0x0000FFFF)
    (h1 : slotState s 1 ≠ 0x0000FFFF) (hseq : slotSeq s 0 ≠ slotSeq s 1) : imageSelectSt s =
      if slotGood s 0 = true ∧ (slotGood s 1 = false ∨ slotSeq s 1 < slotSeq s 0) then slotRun s 0
      else if slotGood s 1 = true then slotRun s 1
      else setStage 3 s := by
  rw [imageSelectSt_of_untried hstage hmode h0 h1, slotPick_good hseq]
  by_cases hfirst : slotGood s 0 = true ∧ (slotGood s 1 = false ∨ slotSeq s 1 < slotSeq s 0)
  · rw [if_pos hfirst, if_pos hfirst, ← slotTaken_eq hfirst.1 h0]
  · rw [if_neg hfirst, if_neg hfirst]
    by_cases hsecond : slotGood s 1 = true
    · rw [if_pos hsecond, if_pos hsecond, ← slotTaken_eq hsecond h1]
    · rw [if_neg hsecond, if_neg hsecond]

end Image

/-! ### The boot (R833, R843–R845) -/

section Boot

variable {s : State}

theorem pcieGoSt_of_ready {v : Word} (hv : bit v 0 = true)
    (hready : (bootMode s = 1 ∧ (bootStage s = 1 ∨ bootStage s = 3)) ∨ (bootMode s = 2 ∧ bootStage s = 3)) :
    pcieGoSt v s =
      let base := 0x001000000000
      let h := secRead s base 4096
      if verifySet s 1 (getReg s 0x00D 0x144).toNat (fun o n => secRead s (base + o) n) = 0 then
        runImage 2 h (secRead s (base + 4096) (hdrLen h)) s
      else setStage 3 s := by
  unfold pcieGoSt
  dsimp only
  rw [if_neg (by simp [hv, hready]), ite_not]

/-- The self-test's failed units are off, and the fuses' repairs are applied (R843, R576). -/
def selfTested (failed : List (Fin 320)) (s : State) : State :=
  let units := (List.range 320).filter fun u => failed.any fun f => decide (f.val = u)
  let s1 := modBoot s fun b => { b with tested := true, bist := units }
  let s2 := (units.filter fun u => decide (u < 48)).foldl (fun s n => domainOff n (setPd s n { pdRec s n with cur := .off })) s1
  s.fuses.repairs.foldl (fun s r => if arrayOn s (r.1 / 256) (r.1 % 256) then (moveRow r.1 r.2 s).1 else s) s2

theorem fuses_domainsOff (ns : List Nat) (u : State) :
    (ns.foldl (fun s n => domainOff n (setPd s n { pdRec s n with cur := .off })) u).fuses = u.fuses :=
  List.foldlRecOn (motive := fun v : State => v.fuses = u.fuses) _ _ rfl fun _ hv _ _ =>
    ((domainOff_to (Nat.or_self _) (.refl _ _)).fuses rfl).trans hv

theorem selfTestSt_of_first {failed : List (Fin 320)} (hreleased : s.boot.released = true) (htested : s.boot.tested = false)
    (fatal ok : Bool) : selfTestSt failed fatal ok s =
      let t := if ok then selfTested failed s else modReg (selfTested failed s) 0x005 0x180 fun w => putBit w 17 true
      if fatal || !ok then setStage 4 t else setStage 1 ((List.range 7).foldl (fun s r => enableSt (0x0F8 + r) s) t) := by
  unfold selfTestSt selfTested
  rw [if_neg (by simp [hreleased, htested])]
  dsimp only
  rw [fuses_domainsOff]
  rfl

/-- The set of flash is staged and installed, and the calibration record is loaded (R845). -/
def bootInstalled (s : State) : State :=
  loadRecord (installSet (flashBytes s (0x1810000 + 0) 4096)
    (flashBytes s (0x1810000 + 4096) (hdrLen (flashBytes s (0x1810000 + 0) 4096)))
    (memPut s 0x00C stagingBase (flashBytes s (0x1810000 + 0) (hdrLen (flashBytes s (0x1810000 + 0) 4096) + 4096))))

/-- READY. -/
def readySet (s : State) : State := setEvt (modReg s 0x00D 0x108 fun w => putBit w 31 true) 0x00D 0

section Ready

variable (hstage : bootStage s = 2) (hready : bootReady s = false)
include hstage hready

theorem bootReadySt_of_noSet (hbad : verifySet s 2 0x1000000 (fun o n => flashBytes s (0x1810000 + o) n) ≠ 0) :
    bootReadySt s = readySet (loadRecord s) := by
  unfold bootReadySt readySet
  rw [if_neg (by simp [hstage, hready])]
  simp [hbad]

variable (hok : verifySet s 2 0x1000000 (fun o n => flashBytes s (0x1810000 + o) n) = 0)
include hok

theorem bootReadySt_of_live {c : CfgRes} (hc : (bootInstalled s).boot.cfg = some c) :
    bootReadySt s = readySet (goLive c.set (bootInstalled s)) := by
  unfold bootReadySt readySet
  rw [if_neg (by simp [hstage, hready])]
  simp only [hok, decide_true, if_true]
  rw [← bootInstalled.eq_1 s]
  simp only [hc]

theorem bootReadySt_of_idle (hc : (bootInstalled s).boot.cfg = none) : bootReadySt s = readySet (bootInstalled s) := by
  unfold bootReadySt readySet
  rw [if_neg (by simp [hstage, hready])]
  simp only [hok, decide_true, if_true]
  rw [← bootInstalled.eq_1 s]
  simp only [hc]

end Ready

/-- What a warm or a fatal reset keeps, put together. -/
theorem warmReset_keeps (cause : Word) (dram : Bool) :
    let t := warmReset cause dram s
    t.fuses = s.fuses ∧ t.boot = { BootSt.init with flash := s.boot.flash } ∧ t.cores = State.reset.cores ∧
      t.time.free = s.time.free ∧ devTime t = devTime s ∧
      (kup s.regs = true → getReg t 0x00D 0x100 = cause ∧ getReg t 0x001 0x148 = getReg s 0x001 0x148 ∧
        getReg t 0x003 0x11C = getReg s 0x003 0x11C ∧ getReg t 0x003 0x120 = getReg s 0x003 0x120 ∧
        (∀ n < 64, tcArmed t n = false)) ∧
      (kup s.mem = true → ∀ k, kget 0 t.mem k =
        if dram && s.memc.fc.isNone && decide (k < 0x001000000000) then kget 0 s.mem k else 0) :=
  ⟨warmReset_fuses, warmReset_boot, warmReset_cores, by rw [warmReset_time], devTime_warmReset,
    fun hu => ⟨getReg_warmReset_cause hu, getReg_warmReset_kept (by decide), getReg_warmReset_kept (by decide),
      getReg_warmReset_kept (by decide), fun _ hn => tcArmed_warmReset hn⟩, fun _ => warmReset_mem⟩

end Boot

/-- Settles O56: a reset through what it keeps, a step of the boot through its branch, the image through the slots left to
pick from. -/
theorem resetsAndBootComplete : Obligations.ResetsAndBootComplete := by
  intro s
  refine ⟨⟨rfl, rfl⟩, ⟨⟨_, rfl, warmReset_keeps 2 true⟩, fun a v hr hkey hgo => ?rstCmd, fun hreq => ?fatal,
    fun hen hpast => ?expiry⟩, ⟨pcieResetSt s, rfl, rfl, (pcieResetSt_to (Nat.or_self _) (.refl _ s)).mem rfl,
    (pcieResetSt_to (Nat.or_self _) (.refl _ s)).time rfl, rfl, fun p off i hp ho hpage _ => getRegI_pcieResetSt hp ho hpage s⟩,
    fun hen hhalf hpast => ?half, fun a v hr => ⟨fun hkey => ?kick, fun hkey => ?noKick, fun hv hready => ?pcieGo⟩,
    fun mode hs => ?release, fun hreleased htested failed fatal ok => ?selfTest, fun hr hstage hmode h0 h1 hseq => ?image,
    fun hr hstage hready => ?ready⟩
  case rstCmd => exact ⟨_, next_onPage hr (if_pos ⟨hkey, hgo⟩), warmReset_keeps 4 true⟩
  case fatal => exact ⟨warmReset 16 false s, congrArg _ (if_pos hreq), warmReset_keeps 16 false⟩
  case expiry => exact ⟨warmReset 8 true s, congrArg _ (if_pos (by rw [hen, hpast]; rfl)), warmReset_keeps 8 true⟩
  case half => exact congrArg _ (if_pos (by rw [hen, hhalf, hpast]; rfl))
  case kick => exact next_onPage hr (if_pos hkey)
  case noKick => exact next_onPage hr (if_neg hkey)
  case pcieGo => exact next_onPage hr (pcieGoSt_of_ready hv hready)
  case release =>
    refine ⟨_, rfl, ?_, fun hu => bootMode_resetReleaseSt hs hu⟩
    rw [resetReleaseSt, if_neg (by simp [hs])]
    rfl
  case selfTest =>
    have heq := selfTestSt_of_first (failed := failed) hreleased htested fatal ok
    refine ⟨?_, ?_, ?_⟩
    · rintro rfl rfl
      exact congrArg Host.Outcome.next heq
    · rintro rfl rfl
      exact congrArg Host.Outcome.next heq
    · rintro rfl
      simp only [Bool.not_false, Bool.or_true, if_true, Bool.false_eq_true, if_false] at heq
      exact congrArg Host.Outcome.next heq
  case image => exact next_whileRuns hr (imageSelectSt_eq hstage hmode h0 h1 hseq)
  case ready =>
    refine next_whileRuns hr ?_
    dsimp only
    rw [← bootInstalled.eq_1 s]
    split
    next hok =>
      split
      next c hc => exact bootReadySt_of_live hstage hready hok hc
      next hc => exact bootReadySt_of_idle hstage hready hok hc
    next hbad => exact bootReadySt_of_noSet hstage hready hbad

end Sys2Proof.Machine

/-! The power controller's requests, transitions and wakes (R771–R788). -/

namespace Sys2Proof.Machine

/-! ### Domains and groups -/

theorem pdRec_setPd {s : State} {n : Nat} {r : PdRec} (hu : kup s.pwr.doms = true) : pdRec (setPd s n r) n = r :=
  kget_kset_self _ _ _ _ hu

theorem inBusyGroup_of_idle {s : State} {n : Nat} (h : ∀ g < 16, (grpRec s g).busy = false) : inBusyGroup s n = false := by
  unfold inBusyGroup
  rw [List.any_eq_false]
  intro g hg
  simp [h g (List.mem_range.mp hg)]

/-- Every group is idle: none has a request in progress, or one held. -/
def groupsIdle (s : State) : Prop := ∀ g < 16, (grpRec s g).busy = false ∧ (grpRec s g).held = none

/-- Idle groups take no step. -/
theorem runGroups_of_idle {s : State} (h : groupsIdle s) (k : Nat) : runGroups k s = s := by
  cases k with
  | zero => rfl
  | succ k =>
    have hheld : grpHeld s = s := by
      have hnone : ((List.range 16).find? fun g => !(grpRec s g).busy && (grpRec s g).held.isSome) = none :=
        List.find?_eq_none.mpr fun g hg => by simp [(h g (List.mem_range.mp hg)).2]
      rw [grpHeld, hnone]
    have hready : (List.range 16).find? (grpReady s) = none :=
      List.find?_eq_none.mpr fun g hg => by simp [grpReady, (h g (List.mem_range.mp hg)).1]
    rw [runGroups, hheld]
    simp only [hready]

theorem groupsIdle_of_grps {s t : State} (hg : t.pwr.grps = s.pwr.grps) (h : groupsIdle s) : groupsIdle t := by
  intro g hlt
  rw [grpRec, hg]
  exact h g hlt

section Grps

variable (s : State) (n : Nat)

theorem commandV_pwr (p : Nat) : (commandV s p).pwr = s.pwr := by
  unfold commandV
  split
  · rfl
  · rfl

theorem raiseV_pwr (p : Nat) : (raiseV s p).pwr = s.pwr := by
  unfold raiseV
  split
  · rfl
  · split
    · split
      · rfl
      · exact commandV_pwr s p
    · exact commandV_pwr s p

theorem switchOn_grps : (switchOn s n).pwr.grps = s.pwr.grps := by
  unfold switchOn
  dsimp only
  split
  · rw [raiseV_pwr]
    rfl
  · rfl

theorem beginTrans_grps (want : PdState) (req : Option PdReq) : (beginTrans s n want req).pwr.grps = s.pwr.grps := by
  unfold beginTrans
  dsimp only
  split
  · rfl
  · split
    · exact switchOn_grps _ n
    · rfl

theorem recordEnd_pwr (r : Nat) : (recordEnd n r s).pwr = (setPd s n { pdRec s n with result := r }).pwr := by
  unfold recordEnd
  dsimp only
  split
  · rfl
  · rfl

theorem recordEnd_grps (r : Nat) : (recordEnd n r s).pwr.grps = s.pwr.grps := by
  rw [recordEnd_pwr]
  rfl

end Grps

/-! ### A request (R771, R774, R775) -/

section Request

variable {s : State} {n : Nat} {q : PdReq}

theorem tryStart_of_same (h : q.want = (pdRec s n).cur) : tryStart n q s = (s, some 0) := if_pos h

theorem tryStart_of_locked (hlow : q.want.rank < (pdRec s n).cur.rank) (hlock : bit (pdCfg s n) 31 = true) :
    tryStart n q s = (s, some 1) := by
  have hne : q.want ≠ (pdRec s n).cur := fun h => by
    rw [h] at hlow
    exact Nat.lt_irrefl _ hlow
  exact (if_neg hne).trans (if_pos ⟨hlow, hlock⟩)

/-- A request that may begin, and need not wait for its entry condition, begins. -/
theorem tryStart_of_begins (hne : q.want ≠ (pdRec s n).cur)
    (hfree : ¬(q.want.rank < (pdRec s n).cur.rank ∧ bit (pdCfg s n) 31 = true)) (h : q.want = .on ∨ (pdRec s n).cur ≠ .on) :
    tryStart n q s = (beginTrans s n q.want (some q), none) :=
  (if_neg hne).trans ((if_neg hfree).trans (if_pos h))

/-- A request to lower a domain that is ON waits for its entry condition, but for one that forces it. -/
theorem tryStart_of_waits (hcur : (pdRec s n).cur = .on) (hwant : q.want ≠ .on) (hfree : bit (pdCfg s n) 31 = false)
    (hforce : ¬(q.entry = 2 ∧ q.want = .off)) :
    tryStart n q s = (setPd s n { pdRec s n with wait := some { q with since := s.time.free } }, none) := by
  have hne : q.want ≠ (pdRec s n).cur := by rwa [hcur]
  exact (if_neg hne).trans ((if_neg (by simp [hfree])).trans ((if_neg (by simp [hwant, hcur])).trans (if_neg hforce)))

/-- R775: a request for a settled domain without one waiting is tried at once. -/
theorem pdReqSt_of_settled {want : PdState} {e : EntryCond} (hcur : (pdRec s n).cur ≠ .trans) (hwait : (pdRec s n).wait = none)
    (hidle : groupsIdle s) :
    pdReqSt n want e s = runGroups grpFuel (match tryStart n ⟨want, e, .req, s.time.free⟩ (setPd s n { pdRec s n with wait := none }) with
      | (t, none) => t
      | (t, some r) => recordEnd n r t) := by
  have hsubmit : submitPd n ⟨want, e, .req, s.time.free⟩ s =
      tryStart n ⟨want, e, .req, s.time.free⟩ (setPd s n { pdRec s n with wait := none }) := by
    unfold submitPd
    simp only [if_neg hcur, hwait, Option.isSome_none, Bool.false_eq_true, if_false]
  unfold pdReqSt askPd
  rw [inBusyGroup_of_idle fun g hg => (hidle g hg).1, if_neg (by simp), hsubmit]
  obtain ⟨t, o⟩ := tryStart n ⟨want, e, .req, s.time.free⟩ (setPd s n { pdRec s n with wait := none })
  cases o with
  | none => rfl
  | some r => rfl

theorem pdReqSt_of_ends {want : PdState} {e : EntryCond} {r : Nat} (hcur : (pdRec s n).cur ≠ .trans)
    (hwait : (pdRec s n).wait = none) (hidle : groupsIdle s)
    (h : tryStart n ⟨want, e, .req, s.time.free⟩ (setPd s n { pdRec s n with wait := none }) =
      (setPd s n { pdRec s n with wait := none }, some r)) :
    pdReqSt n want e s = recordEnd n r (setPd s n { pdRec s n with wait := none }) := by
  have hgrps : (recordEnd n r (setPd s n { pdRec s n with wait := none })).pwr.grps = s.pwr.grps := recordEnd_grps _ _ _
  rw [pdReqSt_of_settled hcur hwait hidle, h]
  exact runGroups_of_idle (groupsIdle_of_grps hgrps hidle) _

theorem pdReqSt_of_goes {want : PdState} {e : EntryCond} {t : State} (hcur : (pdRec s n).cur ≠ .trans)
    (hwait : (pdRec s n).wait = none) (hidle : groupsIdle s) (hgrps : t.pwr.grps = s.pwr.grps)
    (h : tryStart n ⟨want, e, .req, s.time.free⟩ (setPd s n { pdRec s n with wait := none }) = (t, none)) :
    pdReqSt n want e s = t := by
  rw [pdReqSt_of_settled hcur hwait hidle, h]
  exact runGroups_of_idle (groupsIdle_of_grps hgrps hidle) _

end Request

/-! ### Timeout, wake, groups (R773, R780, R781, R786) -/

section Others

variable {s : State} {n : Nat}

theorem pdRec_recordEnd (r : Nat) (hu : kup s.pwr.doms = true) : pdRec (recordEnd n r s) n = { pdRec s n with result := r } := by
  rw [pdRec, recordEnd_pwr]
  exact pdRec_setPd hu

theorem entryMetSt_of_met {q : PdReq} (hq : (pdRec s n).wait = some q) (hmet : entryMet s n q = true) :
    entryMetSt n s = beginTrans s n q.want (some q) := by
  unfold entryMetSt
  simp only [hq]
  exact if_pos hmet

theorem quiesceTimeoutSt_of_late {q : PdReq} (hq : (pdRec s n).wait = some q) (hcfg : bits (pdCfg s n) 15 0 ≠ 0)
    (hlate : usSince s q.since (bits (pdCfg s n) 15 0) = true) :
    quiesceTimeoutSt n s = runGroups grpFuel (endReq n q 2 (setPd s n { pdRec s n with wait := none })) := by
  unfold quiesceTimeoutSt
  simp only [hq]
  exact if_pos ⟨hcfg, hlate⟩

/-- R773: the timeout of a request of its own ends it, and leaves the domain in its state. -/
theorem pdRec_quiesceTimeout {q : PdReq} (hby : q.by_ = .req) (hu : kup s.pwr.doms = true) (hidle : groupsIdle s) :
    pdRec (runGroups grpFuel (endReq n q 2 (setPd s n { pdRec s n with wait := none }))) n =
      { pdRec s n with wait := none, result := 2 } := by
  have hend (t : State) : endReq n q 2 t = recordEnd n 2 t := by rw [endReq, hby]
  have hgroups : groupsIdle (recordEnd n 2 (setPd s n { pdRec s n with wait := none })) :=
    groupsIdle_of_grps (recordEnd_grps _ _ _) hidle
  have hset : pdRec (setPd s n { pdRec s n with wait := none }) n = { pdRec s n with wait := none } := pdRec_setPd hu
  have hkup : kup (setPd s n { pdRec s n with wait := none }).pwr.doms = true := kup_kset _ _ _ _ hu
  rw [hend, runGroups_of_idle hgroups, pdRec_recordEnd _ hkup, hset]

theorem wakeSt_of_retain (hline : wakeLine s n = true) (hen : bit (pdCfg s n) 29 = true) (hcur : (pdRec s n).cur = .retain) :
    wakeSt n s = beginTrans (countWake s n) n .on none := by
  unfold wakeSt wakeDomain
  rw [if_neg (by simp [hline, hen])]
  exact (if_pos hcur).trans (if_pos hcur)

theorem wakeSt_of_retaining (hline : wakeLine s n = true) (hen : bit (pdCfg s n) 29 = true) (hcur : (pdRec s n).cur = .trans)
    (htarget : (pdRec s n).target = .retain) (hwoke : s.evt.lineWoke.contains n = false) :
    wakeSt n s = modEvt (setPd (countWake s n) n { pdRec (countWake s n) n with latched := true }) fun e =>
      { e with lineWoke := e.lineWoke ++ [n] } := by
  have hne : (pdRec s n).cur ≠ .retain := by
    rw [hcur]
    decide
  have hwake : wakeDomain s n = setPd (countWake s n) n { pdRec (countWake s n) n with latched := true } :=
    (if_neg hne).trans (if_pos ⟨hcur, htarget⟩)
  unfold wakeSt
  rw [if_neg (by simp [hline, hen]), hwake]
  exact (if_neg hne).trans (if_pos ⟨hcur, htarget, by simpa using hwoke⟩)

end Others

/-- A group's request begins with its list (R786). -/
def grpBegun (g : Nat) (want : PdState) (e : EntryCond) (s : State) : State :=
  let t := setGrp s g { grpRec s g with
    busy := true, list := grpList s g, want := want, entry := e,
    left := if want = .on then (grpList s g).reverse else grpList s g, order := s.pwr.nextOrder, result := 0, domain := 0 }
  { t with pwr := { t.pwr with nextOrder := s.pwr.nextOrder + 1 } }

/-- Settles O53: a request by what `tryStart` does with it, with no group to run after it; the others by their branch. -/
theorem powerCommandsComplete : Obligations.PowerCommandsComplete := by
  refine ⟨fun n s => ⟨fun a e hr hcur hwait hbusy hheld hu => ?request, fun q hq hmet => ?entry, fun q hq hcfg hlate => ?timeout,
    fun hready => ?done, fun hup hplace hus => ?fail, fun hline hen => ⟨fun hcur => ?wake, fun hcur htarget hwoke => ?latch⟩⟩,
    fun a g e s hr hbusy hlist => ?group⟩
  case request =>
    have hidle : groupsIdle s := fun g hg => ⟨hbusy g hg, hheld g hg⟩
    have hsame : pdRec (setPd s n { pdRec s n with wait := none }) n = { pdRec s n with wait := none } := pdRec_setPd hu
    have hbegins {want : PdState} (hne : want ≠ (pdRec s n).cur)
        (hfree : ¬(want.rank < (pdRec s n).cur.rank ∧ bit (pdCfg s n) 31 = true)) (h : want = .on ∨ (pdRec s n).cur ≠ .on) :
        pdReqSt n want e s = beginTrans (setPd s n { pdRec s n with wait := none }) n want (some ⟨want, e, .req, s.time.free⟩) :=
      pdReqSt_of_goes hcur hwait hidle (beginTrans_grps _ _ _ _)
        (tryStart_of_begins (by rwa [hsame]) (by rwa [hsame]) (by rwa [hsame]))
    have hwaits {want : PdState} (hon : (pdRec s n).cur = .on) (hwant : want ≠ .on) (hlock : bit (pdCfg s n) 31 = false)
        (hforce : ¬(e = 2 ∧ want = .off)) :
        pdReqSt n want e s = setPd (setPd s n { pdRec s n with wait := none }) n
          { pdRec (setPd s n { pdRec s n with wait := none }) n with wait := some ⟨want, e, .req, s.time.free⟩ } :=
      pdReqSt_of_goes hcur hwait hidle rfl (tryStart_of_waits (by rwa [hsame]) hwant hlock hforce)
    refine ⟨fun hon => ?on, fun hon hlock => ?locked, fun hoff => ?goOn, fun hoff => ?offRetain, fun hon hlock => ?onRetain,
      fun hon hlock he => ?onOff, fun hret hlock => ?retainOff⟩
    case on => exact next_onPage hr (pdReqSt_of_ends hcur hwait hidle (tryStart_of_same (by rw [hsame]; exact hon.symm)))
    case locked =>
      exact next_onPage hr (pdReqSt_of_ends hcur hwait hidle (tryStart_of_locked (by rw [hsame, hon]; simp [PdState.rank]) hlock))
    case goOn =>
      refine next_onPage hr (hbegins (Ne.symm hoff) ?_ (.inl rfl))
      cases hc : (pdRec s n).cur with
      | on => exact absurd hc hoff
      | trans => exact absurd hc hcur
      | off => simp [PdState.rank]
      | retain => simp [PdState.rank]
    case offRetain => exact next_onPage hr (hbegins (by rw [hoff]; simp) (by rw [hoff]; simp [PdState.rank]) (.inr (by rw [hoff]; decide)))
    case onRetain => exact next_onPage hr (hwaits hon (by decide) hlock (by simp))
    case onOff => exact next_onPage hr (hwaits hon (by decide) hlock fun h => he h.1)
    case retainOff => exact next_onPage hr (hbegins (by rw [hret]; decide) (by simp [hlock]) (.inr (by rw [hret]; decide)))
  case entry => exact congrArg Host.Outcome.next (entryMetSt_of_met hq hmet)
  case timeout =>
    refine ⟨_, congrArg Host.Outcome.next (quiesceTimeoutSt_of_late hq hcfg hlate), rfl, fun hby hu hidle => ?_⟩
    rw [pdRec_quiesceTimeout hby hu hidle]
    exact ⟨rfl, rfl, rfl⟩
  case done => exact congrArg Host.Outcome.next (if_neg (by simp [hready]))
  case fail => exact congrArg Host.Outcome.next (if_neg (by simp [hup, hplace, hus]))
  case wake => exact congrArg _ (wakeSt_of_retain hline hen hcur)
  case latch => exact congrArg _ (wakeSt_of_retaining hline hen hcur htarget hwoke)
  case group =>
    have hstart (want : PdState) : grpReqSt g want e s = runGroups grpFuel (grpStart g want e s) :=
      if_neg (by simp [hbusy])
    have hlist (want : PdState) : grpStart g want e s = grpBegun g want e s := by
      unfold grpStart
      simp only [hlist]
      rfl
    exact ⟨next_onPage hr ((hstart .on).trans (congrArg _ (hlist .on))),
      next_onPage hr ((hstart .retain).trans (congrArg _ (hlist .retain))),
      next_onPage hr ((hstart .off).trans (congrArg _ (hlist .off)))⟩

end Sys2Proof.Machine

/-! The event controller: sources, routes, reports and fatal conditions (R804–R821). -/

namespace Sys2Proof.Machine

/-! ### What changes a page's header alone -/

/-- The registers of the blocks, at 0x100 and above, are the same. -/
def SameBlocks (s t : State) : Prop :=
  ∀ p off i, 0x100 ≤ off → off < 4096 → getRegI t p off i = getRegI s p off i

theorem SameBlocks.refl (s : State) : SameBlocks s s := fun _ _ _ _ _ => rfl

theorem SameBlocks.trans {s t u : State} (h : SameBlocks s t) (h' : SameBlocks t u) : SameBlocks s u :=
  fun p off i hlo hhi => (h' p off i hlo hhi).trans (h p off i hlo hhi)

theorem sameBlocks_of_regs {s t : State} (h : t.regs = s.regs) : SameBlocks s t := fun _ _ _ _ _ => by rw [getRegI, h, getRegI]

section Header

variable (s : State) (p : Nat)

theorem sameBlocks_setReg {o : Nat} (ho : o < 0x100) (v : Word) : SameBlocks s (setReg s p o v) := by
  intro q off i hlo hhi
  refine getRegI_setRegI_ne _ _ _ _ _ _ _ _ ?_
  unfold rkey
  omega

theorem sameBlocks_setEvt (b : Nat) : SameBlocks s (setEvt s p b) := sameBlocks_setReg s p (by decide) _

theorem sameBlocks_storeErr (e : Err) (ovf : Bool) : SameBlocks s (storeErr s p e ovf) :=
  ((sameBlocks_setReg s p (by decide) _).trans (sameBlocks_setReg _ p (by decide) _)).trans (sameBlocks_setReg _ p (by decide) _)

theorem sameBlocks_captureErr (e : Err) : SameBlocks s (captureErr s p e) := by
  refine SameBlocks.trans ?_ (sameBlocks_of_regs (sendReport_regs _ p e))
  unfold captureOnly
  dsimp only
  split
  · split
    · exact sameBlocks_storeErr s p e false
    · exact (sameBlocks_storeErr s p e false).trans (sameBlocks_setEvt _ p 30)
  · split
    · exact (sameBlocks_storeErr s p e true).trans (sameBlocks_setEvt _ p 30)
    · exact sameBlocks_setReg s p (by decide) _

theorem sameBlocks_leakPage (n : Nat) : SameBlocks s (leakPage n s p) := by
  unfold leakPage
  dsimp only
  split
  · exact sameBlocks_setReg s p (by decide) _
  · exact .refl s

theorem sameBlocks_leakSt : SameBlocks s (leakSt s) := by
  unfold leakSt
  dsimp only
  split
  · exact List.foldlRecOn (motive := SameBlocks s) _ _ (sameBlocks_of_regs rfl) fun u hu q _ => hu.trans (sameBlocks_leakPage u q _)
  · exact .refl s

theorem sameBlocks_leakDue : SameBlocks s (leakDue s) :=
  List.foldlRecOn (motive := SameBlocks s) _ _ (.refl s) fun u hu _ _ => hu.trans (sameBlocks_leakSt u)

theorem sameBlocks_countCe : SameBlocks s (countCe s p) := by
  have hlevel (lvl : Nat) : SameBlocks s (setReg (leakDue s) p 0x30 (w32 lvl)) :=
    (sameBlocks_leakDue s).trans (sameBlocks_setReg _ p (by decide) _)
  unfold countCe
  dsimp only
  split
  · exact (hlevel _).trans (sameBlocks_setEvt _ p 31)
  · exact hlevel _

end Header

/-- A single error is captured without a report. -/
theorem captureErr_evt_of_ce (s : State) (p code : Nat) (a : Option Nat) : (captureErr s p ⟨1, code, 0, p, a⟩).evt = s.evt := by
  have hsent (u : State) : sendReport u p ⟨1, code, 0, p, a⟩ = u := if_pos (.inl (show 1 < 2 by decide))
  rw [captureErr, hsent]
  exact (captureOnly_to (Nat.or_self _) (.refl _ s)).evt rfl

/-! ### Sources and routes (R804–R809) -/

section Deliver

variable {s : State} {n : Nat} {was : Nat → Bool}

theorem deliver_of_none (h : routeKind (routeReg s n) = 0) : deliver s n was = s := by
  unfold deliver
  simp only [h]

theorem deliver_of_line (h : routeKind (routeReg s n) = 1) :
    deliver s n was = if bits (routeReg s n) 20 13 < 128 ∧ (physOf s (bits (routeReg s n) 20 13)).isNone then incCnt s 0x001 7 else s := by
  unfold deliver
  simp only [h]

theorem deliver_of_vector (h : routeKind (routeReg s n) = 2) :
    deliver s n was = if was (bits (routeReg s n) 7 0) then s else evtMsix s (bits (routeReg s n) 7 0) := by
  unfold deliver
  simp only [h]

theorem deliver_of_token (h : routeKind (routeReg s n) = 3) :
    deliver s n was = if n < 5 then s
      else evtToken s (bits (routeReg s n) 7 0) (bits (sourceCause s n) 11 8) (2 ^ 32 * (sourceCause s n).toNat + n) := by
  unfold deliver
  simp only [h]

theorem lineLevel_of_seen (hseen : n ∈ s.evt.seen) (h : routeKind (routeReg s n) = 1) :
    lineLevel s (bits (routeReg s n) 20 13) (bits (routeReg s n) 12 8) = true := by
  unfold lineLevel
  refine Bool.or_eq_true_iff.mpr (.inl (List.any_eq_true.mpr ⟨n, hseen, ?_⟩))
  simp [h]

end Deliver

/-- A source is counted, and stands as seen. -/
def sourceCounted (n : Fin 2048) (s : State) : State :=
  modEvt (setRegI s 0x001 0x108 n (w32 ((bits (getRegI s 0x001 0x108 n) 15 0 + 1) % 2 ^ 16))) fun e => { e with seen := e.seen ++ [n.val] }

section Source

variable {s u : State} {n : Fin 2048}

theorem routeReg_sourceCounted (m : Nat) : routeReg (sourceCounted n s) m = routeReg s m := by
  refine getRegI_setRegI_ne _ _ _ _ _ _ _ _ ?_
  unfold rkey
  omega

theorem routeReg_of_sameBlocks (h : SameBlocks s u) (m : Nat) : routeReg u m = routeReg s m :=
  h 0x001 0x104 m (by decide) (by decide)

theorem execSourceAssert_of_new {tbl : Mark} (hc : fabricClock s = true) (hl : sourceLevel s n = true)
    (hs : s.evt.seen.contains n.val = false) :
    execSourceAssert ⟨n, tbl⟩ s = .next (tableRead tbl (fun t => deliver t n (vectorLevel s)) (sourceCounted n s)) :=
  if_neg (by simp only [hc, hl, hs]; decide)

/-- What a check that gives a route leaves of the counted state: its routes, its sources and the mapping of the cores. -/
theorem checked_keeps {tbl : Mark} (h : tbl = .clean ∧ u = sourceCounted n s ∨
    tbl = .ce ∧ u = captureErr (countCe (sourceCounted n s) 0x001) 0x001 ⟨1, 0x01, 0, 0x001, none⟩) :
    (∀ f, tableRead tbl f (sourceCounted n s) = f u) ∧ (∀ m, routeReg u m = routeReg s m) ∧ n.val ∈ u.evt.seen ∧
      (∀ c, physOf u c = physOf s c) := by
  have hseen : n.val ∈ (sourceCounted n s).evt.seen := List.mem_append_right _ (List.mem_singleton.mpr rfl)
  have hphys {t : State} (hmap : t.coreMap = s.coreMap) (hfuse : t.fuses = s.fuses) (c : Nat) : physOf t c = physOf s c := by
    unfold physOf coreMapOf
    rw [hmap, hfuse]
  obtain ⟨rfl, rfl⟩ | ⟨rfl, rfl⟩ := h
  · exact ⟨fun _ => rfl, routeReg_sourceCounted, hseen, hphys rfl rfl⟩
  · have hce := countCe_to (p := 0x001) (Nat.or_self _) (.refl _ (sourceCounted n s))
    refine ⟨fun _ => rfl, fun m => ?_, ?_, hphys ?_ ?_⟩
    · exact (routeReg_of_sameBlocks ((sameBlocks_countCe _ _).trans (sameBlocks_captureErr _ _ _)) m).trans (routeReg_sourceCounted m)
    · rw [captureErr_evt_of_ce, hce.evt rfl]
      exact hseen
    · rw [captureErr_coreMap, hce.coreMap rfl]
      rfl
    · rw [captureErr_fuses, hce.fuses rfl]
      rfl

theorem routeKind_of_used {v : Word} (h : bit v 31 = true) (hk : bits v 30 28 < 4) : routeKind v = bits v 30 28 :=
  if_pos (by simp [h, hk])

/-- A vector that nothing raises is not raised by fewer sources. -/
theorem vectorLevel_filter {v : Nat} (q : Nat → Bool) (h : vectorLevel s v = false) :
    vectorLevel { s with evt := { s.evt with seen := s.evt.seen.filter q } } v = false := by
  unfold vectorLevel at h ⊢
  rw [List.any_eq_false] at h ⊢
  exact fun m hm => h m (List.mem_filter.mp hm).1

end Source

section RouteWrite

variable {s : State} {v : Word} {n : Nat} (hn : n = bits (getReg s 0x001 0x100) 10 0)
include hn

theorem routeWriteSt_of_quiet (h : s.evt.seen.contains n = false ∨ bit v 31 = false) :
    routeWriteSt v s = dropLines (setRegI s 0x001 0x104 n v) := by
  subst hn
  refine if_neg ?_
  obtain h | h := h
  · simp only [h, Bool.false_and, Bool.false_eq_true, not_false_eq_true]
  · simp only [h, Bool.and_false, Bool.false_and, Bool.false_eq_true, not_false_eq_true]

/-- R809: a route that comes into use while its source stands delivers it. -/
theorem routeWriteSt_of_new (hs : s.evt.seen.contains n = true) (hv : bit v 31 = true) (hold : bit (routeReg s n) 31 = false) :
    routeWriteSt v s = deliver (dropLines (setRegI s 0x001 0x104 n v)) n
      (vectorLevel { s with evt := { s.evt with seen := s.evt.seen.filter fun m => !decide (m = n) } }) := by
  subst hn
  refine if_pos ?_
  simp only [hs, hv, hold, Bool.not_false, Bool.true_or, Bool.and_self]

end RouteWrite

theorem routeReg_routeWritten {s : State} {n : Nat} {v : Word} (hu : kup s.regs = true) :
    routeReg (dropLines (setRegI s 0x001 0x104 n v)) n = v := getRegI_setRegI _ _ _ _ _ hu

/-! ### Fatal conditions (R820, R821) -/

/-- The first fatal condition is recorded, and line 31 rises. -/
def fatalNoted (c : Nat) (s : State) : State :=
  modEvt (setEvt (setReg (incCnt s 0x001 6) 0x001 0x148 (w32 (2 ^ 31 + c * 2 ^ 24 + fatalPage c))) 0x001 5) fun e =>
    { e with svLine31 := true }

/-- Its vector is raised where the fabric's clock runs. -/
def fatalSignalled (v : Nat) (s : State) : State := if fabricClock s then evtMsix s v else s

/-- The transmitters are muted where FATAL_CFG says so. -/
def fatalMuted (on : Bool) (s : State) : State :=
  if on then (List.range 4).foldl (fun s k => dfeFatal k s) (modEvt s fun e => { e with txRefused := true }) else s

/-- The reset after a delay is timed where FATAL_CFG says so. -/
def fatalTimed (on : Bool) (us : Nat) (s : State) : State :=
  if on then modEvt s fun e => { e with fatalAt := some (100 * s.time.free + 98304 * us) } else s

section Fatal

variable {s u : State}

theorem fatalSt_of_first {c : Nat} (h : s.evt.svLine31 = false) :
    fatalSt c s =
      let cfg := getReg (fatalNoted c s) 0x001 0x144
      fatalTimed (bit cfg 30) (bits cfg 15 0) (fatalMuted (bit cfg 31) (fatalSignalled (bits cfg 23 16) (fatalNoted c s))) := by
  refine if_neg ?_
  show ¬s.evt.svLine31 = true
  simp [h]

theorem dropCmd_keeps (k : Nat) (c : DfeCmd) :
    (dropCmd s k c 4).regs = s.regs ∧ (dropCmd s k c 4).evt = s.evt ∧ (dropCmd s k c 4).pcie = s.pcie ∧
      (dropCmd s k c 4).time = s.time := by
  unfold dropCmd dfeRefuse
  dsimp only
  split
  · exact ⟨rfl, rfl, rfl, rfl⟩
  · exact ⟨rfl, rfl, rfl, rfl⟩

theorem dfeFatal_keeps (k : Nat) : (dfeFatal k s).regs = s.regs ∧ (dfeFatal k s).evt = s.evt ∧ (dfeFatal k s).pcie = s.pcie ∧
    (dfeFatal k s).time = s.time :=
  List.foldlRecOn (motive := fun u : State => u.regs = s.regs ∧ u.evt = s.evt ∧ u.pcie = s.pcie ∧ u.time = s.time) _ _
    ⟨rfl, rfl, rfl, rfl⟩ fun u ⟨hr, he, hp, ht⟩ c _ => by
      obtain ⟨hr', he', hp', ht'⟩ := dropCmd_keeps (s := u) k c
      exact ⟨hr'.trans hr, he'.trans he, hp'.trans hp, ht'.trans ht⟩

theorem fatalMuted_keeps (on : Bool) : (fatalMuted on s).regs = s.regs ∧
    (fatalMuted on s).evt = { s.evt with txRefused := s.evt.txRefused || on } ∧ (fatalMuted on s).pcie = s.pcie ∧
    (fatalMuted on s).time = s.time := by
  cases on with
  | false => exact ⟨rfl, by simp [fatalMuted], rfl, rfl⟩
  | true =>
    refine List.foldlRecOn (motive := fun u : State => u.regs = s.regs ∧
      u.evt = { s.evt with txRefused := s.evt.txRefused || true } ∧ u.pcie = s.pcie ∧ u.time = s.time) _ _
      ⟨rfl, by simp [modEvt], rfl, rfl⟩ fun u ⟨hr, he, hp, ht⟩ k _ => ?_
    obtain ⟨hr', he', hp', ht'⟩ := dfeFatal_keeps (s := u) k
    exact ⟨hr'.trans hr, he'.trans he, hp'.trans hp, ht'.trans ht⟩

theorem evtMsix_regs (v : Nat) : (evtMsix s v).regs = s.regs := by
  unfold evtMsix raiseMsix
  split
  · rfl
  · split
    · rfl
    · rfl

theorem evtMsix_time (v : Nat) : (evtMsix s v).time = s.time := by
  unfold evtMsix raiseMsix
  split
  · rfl
  · split
    · rfl
    · rfl

/-- The vector of a message is pending where it is masked, and is the last sent where not. -/
theorem evtMsix_evt (v : Nat) : (evtMsix s v).evt = if msixMasked s v then s.evt else { s.evt with msixLast := some v } := by
  unfold evtMsix raiseMsix
  split
  · rfl
  · rfl

theorem evtMsix_pending {v : Nat} (hm : msixMasked s v = true) (hu : kup s.pcie.msixPend = true) :
    kget 0 (evtMsix s v).pcie.msixPend v ≠ 0 := by
  have hset : (evtMsix s v).pcie.msixPend = kset 0 s.pcie.msixPend v (max 2 (kget 0 s.pcie.msixPend v)) := by
    unfold evtMsix raiseMsix
    rw [if_pos hm]
    rfl
  rw [hset, kget_kset_self _ _ _ _ hu]
  omega

theorem fatalSignalled_regs (v : Nat) : (fatalSignalled v s).regs = s.regs := by
  unfold fatalSignalled
  split
  · exact evtMsix_regs v
  · rfl

theorem fatalSignalled_time (v : Nat) : (fatalSignalled v s).time = s.time := by
  unfold fatalSignalled
  split
  · exact evtMsix_time v
  · rfl

theorem fatalSignalled_svLine31 (v : Nat) : (fatalSignalled v s).evt.svLine31 = s.evt.svLine31 := by
  unfold fatalSignalled
  split
  · rw [evtMsix_evt]
    split
    · rfl
    · rfl
  · rfl

theorem fatalTimed_regs (on : Bool) (us : Nat) : (fatalTimed on us s).regs = s.regs := by
  unfold fatalTimed
  split
  · rfl
  · rfl

theorem fatalTimed_pcie (on : Bool) (us : Nat) : (fatalTimed on us s).pcie = s.pcie := by
  unfold fatalTimed
  split
  · rfl
  · rfl

theorem fatalTimed_evt (on : Bool) (us : Nat) : (fatalTimed on us s).evt =
    { s.evt with fatalAt := if on then some (100 * s.time.free + 98304 * us) else s.evt.fatalAt } := by
  unfold fatalTimed
  split
  · rfl
  · rfl

/-- R820: what the first fatal condition leaves, by FATAL_CFG. -/
theorem fatalSt_first_evt {c cfg : _} (h : s.evt.svLine31 = false) (hcfg : getReg (fatalNoted c s) 0x001 0x144 = cfg) :
    (fatalSt c s).evt = { (fatalSignalled (bits cfg 23 16) (fatalNoted c s)).evt with
      txRefused := (fatalSignalled (bits cfg 23 16) (fatalNoted c s)).evt.txRefused || bit cfg 31
      fatalAt := if bit cfg 30 then some (100 * s.time.free + 98304 * bits cfg 15 0)
        else (fatalSignalled (bits cfg 23 16) (fatalNoted c s)).evt.fatalAt } := by
  obtain ⟨-, hevt, -, htime⟩ := fatalMuted_keeps (s := fatalSignalled (bits cfg 23 16) (fatalNoted c s)) (bit cfg 31)
  have hfree : (fatalMuted (bit cfg 31) (fatalSignalled (bits cfg 23 16) (fatalNoted c s))).time.free = s.time.free := by
    rw [htime, fatalSignalled_time]
    rfl
  rw [fatalSt_of_first h, hcfg]
  dsimp only
  rw [fatalTimed_evt, hevt, hfree]

theorem fatalSt_first_regs {c : Nat} (h : s.evt.svLine31 = false) : (fatalSt c s).regs = (fatalNoted c s).regs := by
  rw [fatalSt_of_first h]
  dsimp only
  rw [fatalTimed_regs, (fatalMuted_keeps _).1, fatalSignalled_regs]

theorem fatalSt_first_pcie {c cfg : _} (h : s.evt.svLine31 = false) (hcfg : getReg (fatalNoted c s) 0x001 0x144 = cfg) :
    (fatalSt c s).pcie = (fatalSignalled (bits cfg 23 16) (fatalNoted c s)).pcie := by
  rw [fatalSt_of_first h, hcfg]
  dsimp only
  rw [fatalTimed_pcie, (fatalMuted_keeps _).2.2.1]

theorem getReg_modEvt (s : State) (f : EvtSt → EvtSt) (p off : Nat) : getReg (modEvt s f) p off = getReg s p off := rfl

theorem getReg_fatalNoted {c q off : Nat} (hlo : 0x100 ≤ off) (hhi : off < 4096) (hne : rkey q off 0 ≠ rkey 0x001 0x148 0) :
    getReg (fatalNoted c s) q off = getReg s q off := by
  have hset (u : State) (v : Word) : getReg (setReg u 0x001 0x148 v) q off = getReg u q off :=
    getRegI_setRegI_ne _ _ _ _ _ _ _ _ hne
  rw [fatalNoted, getReg_modEvt, getReg_setEvt_block hlo hhi, hset, getReg_incCnt]

theorem fabricClock_fatalNoted (c : Nat) : fabricClock (fatalNoted c s) = fabricClock s := by
  unfold fabricClock
  rw [getReg_fatalNoted (by decide) (by decide) (by decide)]

end Fatal
/-! ### Reports (R812–R818) -/

/-- The report queue and the windows are the same. -/
def SameReports (s t : State) : Prop := t.evt.queue = s.evt.queue ∧ t.evt.echo = s.evt.echo

theorem SameReports.trans {s t u : State} (h : SameReports s t) (h' : SameReports t u) : SameReports s u :=
  ⟨h'.1.trans h.1, h'.2.trans h.2⟩

theorem sameReports_of_evt {s t : State} (h : t.evt = s.evt) : SameReports s t := ⟨by rw [h], by rw [h]⟩

section Reports

variable (s : State)

theorem sameReports_captureErr (p : Nat) (e : Err) : SameReports s (captureErr s p e) := by
  have hsent (u : State) : SameReports u (sendReport u p e) := by
    unfold sendReport
    split
    · exact ⟨rfl, rfl⟩
    · split
      · exact ⟨rfl, rfl⟩
      · exact ⟨rfl, rfl⟩
  exact (sameReports_of_evt ((captureOnly_to (Nat.or_self _) (.refl _ s)).evt rfl)).trans (hsent _)

theorem sameReports_evtToken (t cls payload : Nat) : SameReports s (evtToken s t cls payload) := by
  have hsend (u : State) (p c : Nat) (k : Token) : SameReports u (sendTok (incCnt u 0x001 4) p c k) := ⟨rfl, rfl⟩
  unfold evtToken
  dsimp only
  split
  · exact (sameReports_captureErr s _ _).trans (hsend _ _ _ _)
  · exact hsend _ _ _ _

theorem sameReports_fatalSignalled (v : Nat) : SameReports s (fatalSignalled v s) := by
  unfold fatalSignalled
  split
  · rw [SameReports, evtMsix_evt]
    split
    · exact ⟨rfl, rfl⟩
    · exact ⟨rfl, rfl⟩
  · exact ⟨rfl, rfl⟩

theorem sameReports_fatalSt (c : Nat) : SameReports s (fatalSt c s) := by
  cases h : s.evt.svLine31 with
  | true =>
    rw [fatalSt_of_raised h]
    exact ⟨rfl, rfl⟩
  | false =>
    obtain ⟨hq, he⟩ := sameReports_fatalSignalled (fatalNoted c s) (bits (getReg (fatalNoted c s) 0x001 0x144) 23 16)
    rw [SameReports, fatalSt_first_evt h rfl]
    exact ⟨hq, he⟩

theorem sameReports_tableRead (tbl : Mark) {f : State → State} (hf : ∀ u, SameReports u (f u)) : SameReports s (tableRead tbl f s) := by
  cases tbl with
  | clean => exact hf s
  | ce =>
    have hce : SameReports s (countCe s 0x001) := sameReports_of_evt ((countCe_to (Nat.or_self _) (.refl _ s)).evt rfl)
    exact (hce.trans (sameReports_captureErr _ _ _)).trans (hf _)
  | ue => exact (sameReports_captureErr s _ _).trans (sameReports_fatalSt _ _)

end Reports

/-- The window that an accepted report opens (R813). -/
def windowOpened (s : State) (r : Report) : EchoWin :=
  ⟨decide (bits (getReg s 0x001 0x118) 15 0 ≠ 0), 100 * freeNow s + 98304 * bits (getReg s 0x001 0x118) 15 0, r.page, 0⟩

section Report

variable {s : State} {r : Report}

/-- R813, R818: an accepted report is queued while there is a place, and opens its window anew. -/
theorem acceptReport_evt (tbl : Mark) :
    (acceptReport tbl r s).evt.queue = (if s.evt.queue.length < 64 then
      s.evt.queue ++ [⟨r, (kget EchoWin.init s.evt.echo (bits r.cause 25 16)).supp⟩] else s.evt.queue) ∧
    (acceptReport tbl r s).evt.echo = kset EchoWin.init s.evt.echo (bits r.cause 25 16) (windowOpened s r) := by
  have hroute (u : State) : SameReports u (
      let route := routeReg u (classBit (bits r.cause 11 8))
      if routeKind route = 3 then
        evtToken u (bits route 7 0) (bits r.cause 11 8) (2 ^ 32 * r.cause.toNat + classBit (bits r.cause 11 8)) else u) := by
    dsimp only
    split
    · exact sameReports_evtToken _ _ _ _
    · exact ⟨rfl, rfl⟩
  unfold acceptReport
  dsimp only
  obtain ⟨hq, he⟩ := sameReports_tableRead _ tbl hroute
  rw [hq, he]
  split
  · exact ⟨(if_pos ‹_›).symm, rfl⟩
  · exact ⟨(if_neg ‹_›).symm, rfl⟩

theorem suppressReport_evt : (suppressReport r s).evt.queue = s.evt.queue ∧
    (suppressReport r s).evt.echo = kset EchoWin.init s.evt.echo (bits r.cause 25 16)
      { kget EchoWin.init s.evt.echo (bits r.cause 25 16) with
        supp := satAdd 0xFFFF (kget EchoWin.init s.evt.echo (bits r.cause 25 16)).supp 1 } := ⟨rfl, rfl⟩

/-- The report leaves its page. -/
def reportTaken (p : Nat) (s : State) : State :=
  modEvt (addCnt (incCnt s 0x001 0) 0x001 3 (kget 0 s.evt.dropped p)) fun e => { e with
    unsent := dropFirst (fun x => decide (x.page = p)) e.unsent, dropped := kset 0 e.dropped p 0 }

variable {p : Nat} {tbl : Mark} (hr : s.evt.unsent.find? (fun x => decide (x.page = p)) = some r)
include hr

theorem reportSt_eq : reportSt p tbl s =
    if echoOpen s (bits r.cause 25 16) && decide (bits (getReg s 0x001 0x118) 15 0 ≠ 0) &&
        !fatalReport p (bits r.cause 11 8) (bits r.cause 7 0) then suppressReport r (reportTaken p s)
    else acceptReport tbl r (reportTaken p s) := by
  unfold reportSt
  simp only [hr]
  rfl

theorem reportSt_accepted (h : echoOpen s (bits r.cause 25 16) = false ∨ bits (getReg s 0x001 0x118) 15 0 = 0 ∨
    fatalReport p (bits r.cause 11 8) (bits r.cause 7 0) = true) : reportSt p tbl s = acceptReport tbl r (reportTaken p s) := by
  rw [reportSt_eq hr]
  refine if_neg ?_
  obtain h | h | h := h
  · simp [h]
  · simp [h]
  · simp [h]

theorem reportSt_suppressed (hopen : echoOpen s (bits r.cause 25 16) = true) (hwin : bits (getReg s 0x001 0x118) 15 0 ≠ 0)
    (hfatal : fatalReport p (bits r.cause 11 8) (bits r.cause 7 0) = false) :
    reportSt p tbl s = suppressReport r (reportTaken p s) := by
  rw [reportSt_eq hr]
  exact if_pos (by simp [hopen, hwin, hfatal])

end Report
/-- R820: the first fatal condition, as the state that it leaves shows it. -/
theorem fatalSt_first {s : State} {c : Nat} (h : s.evt.svLine31 = false) (hu : kup s.regs = true) :
    let cfg := getReg s 0x001 0x144
    let t := fatalSt c s
    t.evt.svLine31 = true ∧ getReg t 0x001 0x148 = w32 (2 ^ 31 + c * 2 ^ 24 + fatalPage c) ∧
      (bit cfg 31 = true → t.evt.txRefused = true) ∧
      (bit cfg 30 = true → t.evt.fatalAt = some (100 * s.time.free + 98304 * bits cfg 15 0)) ∧
      (fabricClock s = true → msixMasked s (bits cfg 23 16) = false → t.evt.msixLast = some (bits cfg 23 16)) ∧
      (fabricClock s = true → msixMasked s (bits cfg 23 16) = true → kup s.pcie.msixPend = true →
        kget 0 t.pcie.msixPend (bits cfg 23 16) ≠ 0) := by
  intro cfg t
  have hcfg : getReg (fatalNoted c s) 0x001 0x144 = cfg := getReg_fatalNoted (by decide) (by decide) (by decide)
  have hevt := fatalSt_first_evt h hcfg
  have hsignal (hc : fabricClock s = true) : fatalSignalled (bits cfg 23 16) (fatalNoted c s) = evtMsix (fatalNoted c s) (bits cfg 23 16) :=
    if_pos ((fabricClock_fatalNoted c).trans hc)
  refine ⟨?line, ?record, fun h31 => ?mute, fun h30 => ?timer, fun hc hm => ?sent, fun hc hm hpend => ?pending⟩
  case line =>
    rw [show t.evt = _ from hevt]
    exact fatalSignalled_svLine31 _
  case record =>
    rw [getReg_of_regs (fatalSt_first_regs h), fatalNoted, getReg_modEvt, getReg_setEvt_block (by decide) (by decide)]
    exact getReg_setReg _ _ _ _ hu
  case mute => simp [show t.evt = _ from hevt, h31]
  case timer => simp [show t.evt = _ from hevt, h30]
  case sent =>
    have hm' : msixMasked (fatalNoted c s) (bits cfg 23 16) = false := hm
    rw [show t.evt = _ from hevt, hsignal hc, evtMsix_evt, if_neg (by simp [hm'])]
  case pending =>
    rw [show t.pcie = _ from fatalSt_first_pcie h hcfg, hsignal hc]
    exact evtMsix_pending hm hpend

/-- A fatal condition reaches `fatalSt` with the record, FATAL_CFG, line 31, the clock, the time and the endpoint as they were. -/
theorem execFatal_of_raised {s : State} {c : Fin 5} (h : c.val = 4 ∨ s.evt.fatalPend.contains c.val = true)
    (hu : kup s.regs = true) : ∃ u, execFatal c s = .next (fatalSt c u) ∧ kup u.regs = true ∧ u.evt.svLine31 = s.evt.svLine31 ∧
      (∀ p off, 0x100 ≤ off → off < 4096 → getReg u p off = getReg s p off) ∧ u.time = s.time ∧ u.pcie = s.pcie := by
  by_cases h4 : c.val = 4
  · have hcap := ownErr_to (p := 0x001) (cls := 2) (code := 0x02) (addr := none) (Nat.or_self _) (.refl _ s)
    refine ⟨ownErr s 0x001 2 0x02 none, ?_, kup_captureErr hu, ownErr_svLine31 _ _ _ _ _,
      fun p off hlo hhi => getReg_captureErr_block hlo hhi _ _ _, hcap.time rfl, hcap.pcie rfl⟩
    rw [execFatal, if_pos h4, h4]
  · exact ⟨_, (if_neg h4).trans (if_pos (h.resolve_left h4)), hu, rfl, fun _ _ _ _ => rfl, rfl, rfl⟩

/-- Settles O55: a source through its route, a report through its window, a fatal condition through line 31. -/
theorem eventCommandsComplete : Obligations.EventCommandsComplete := by
  intro s
  refine ⟨fun n hc => ⟨fun hl hs => ⟨?uncorrectable, fun tbl s2 h2 => ?route⟩, fun hl hs => ?fallen⟩,
    fun a v hr => ⟨⟨fun hquiet => ?written, fun hs hv hold hu => ⟨fun hk hlow => ?vector, fun hk hn => ?token⟩⟩, ?ack, fun hv => ?pop⟩,
    fun p r hc hr hu tbl => ?report, fun p hopen hend => ?window, fun c hcond hu => ?fatal, fun at_ hat hpast => ?delay⟩
  case uncorrectable => exact execSourceAssert_of_new hc hl hs
  case route =>
    obtain ⟨hread, hroute, hseen, hphys⟩ := checked_keeps (s := s) (n := n) h2
    have hexec : exec (.sourceAssert ⟨n, tbl⟩) s = .next (deliver s2 n (vectorLevel s)) :=
      (execSourceAssert_of_new hc hl hs).trans (congrArg _ (hread _))
    have hr := hroute n
    refine ⟨fun hk => ?_, fun hk hcore => ⟨?_, ?_⟩, fun hk hcore hnone => ?_, fun hk => ?_, fun hk => ?_⟩
    · rw [hexec, deliver_of_none (hr ▸ hk)]
    · rw [hexec, deliver_of_line (hr ▸ hk), hr, hphys, if_neg]
      rintro ⟨hlt, hnone⟩
      obtain hge | hsome := hcore
      · omega
      · simp [Option.isNone_iff_eq_none.mp hnone] at hsome
    · rw [← hr]
      exact lineLevel_of_seen hseen (hr ▸ hk)
    · rw [hexec, deliver_of_line (hr ▸ hk), hr, hphys, if_pos ⟨hcore, by rw [hnone]; rfl⟩]
    · rw [hexec, deliver_of_vector (hr ▸ hk), hr]
    · rw [hexec, deliver_of_token (hr ▸ hk), hr]
  case fallen => exact if_neg (by simp only [hc, hl, hs]; decide)
  case written => exact next_onPage hr (routeWriteSt_of_quiet rfl hquiet)
  case vector =>
    have hkind : routeKind v = 2 := (routeKind_of_used hv (by omega)).trans hk
    refine next_onPage hr ?_
    rw [routeWriteSt_of_new rfl hs hv hold]
    have hnew := routeReg_routeWritten (n := bits (getReg s 0x001 0x100) 10 0) (v := v) hu
    rw [deliver_of_vector (by rw [hnew, hkind]), hnew, vectorLevel_filter _ hlow]
    rfl
  case token =>
    have hkind : routeKind v = 3 := (routeKind_of_used hv (by omega)).trans hk
    refine next_onPage hr ?_
    rw [routeWriteSt_of_new rfl hs hv hold]
    have hnew := routeReg_routeWritten (n := bits (getReg s 0x001 0x100) 10 0) (v := v) hu
    rw [deliver_of_token (by rw [hnew, hkind]), hnew, if_neg (by omega)]
  case ack => exact next_onPage hr rfl
  case pop => exact next_onPage hr (if_pos hv)
  case report =>
    refine ⟨reportSt p tbl s, congrArg _ (if_pos hc), fun haccept => ?_, fun hopen hwin hfatal => ?_⟩
    · obtain ⟨hq, he⟩ := acceptReport_evt (s := reportTaken p s) (r := r) tbl
      rw [reportSt_accepted hr haccept, hq, he]
      exact ⟨rfl, kget_kset_self _ _ _ _ hu⟩
    · rw [reportSt_suppressed hr hopen hwin hfatal]
      exact ⟨rfl, kget_kset_self _ _ _ _ hu⟩
  case window =>
    have hclosed : echoOpen s p = false := by
      unfold echoOpen
      simp only [Nat.not_lt.mpr hend, decide_false, Bool.and_false]
    exact congrArg _ (if_pos (by simp [hopen, hclosed]))
  case fatal =>
    obtain ⟨u, hexec, hku, hline, hreg, htime, hpcie⟩ := execFatal_of_raised hcond hu
    have hclock : fabricClock u = fabricClock s := by
      unfold fabricClock
      rw [hreg 0x005 0x180 (by decide) (by decide)]
    have hmask (v : Nat) : msixMasked u v = msixMasked s v := by
      unfold msixMasked
      rw [hpcie]
    cases hraised : s.evt.svLine31 with
    | true =>
      refine ⟨_, hexec, ?_, fun _ => getReg_fatalSt_of_raised hku (hline.trans hraised) (hreg 0x001 0x148 (by decide) (by decide)),
        fun hno => by simp at hno⟩
      rw [fatalSt_of_raised (hline.trans hraised)]
      exact hline.trans hraised
    | false =>
      obtain ⟨hup, hrecord, hmute, htimer, hsent, hpending⟩ := fatalSt_first (c := c) (hline.trans hraised) hku
      rw [hreg 0x001 0x144 (by decide) (by decide)] at hmute htimer hsent hpending
      rw [hclock, hmask] at hsent hpending
      rw [htime] at htimer
      rw [hpcie] at hpending
      exact ⟨_, hexec, hup, fun hno => by simp at hno, fun _ => ⟨hrecord, hmute, htimer, hsent, hpending⟩⟩
  case delay =>
    show execFatalResetDelay s = _
    unfold execFatalResetDelay
    simp only [hat]
    rw [if_pos hpast]

end Sys2Proof.Machine

/-! Flash, configuration sets, the security mailboxes, PMBus and GPIO (R831–R873). -/

namespace Sys2Proof.Machine

/-! ### Flash commands (R831, R842) -/

section Flash

variable {s : State}

/-- A flash operation has begun. -/
def flashBusy (s : State) : State := setReg (modBoot s fun b => { b with flBusy := true }) 0x00D 0x134 0x40000000

theorem flashCmd_read (h : s.boot.flBusy = false) :
    flashCmd 1 s =
      let w := memWrite (flashBusy s) 0x00C (getPair s 0x00D 0x124 6 % 2 ^ 48)
        (flashBytes s (getReg s 0x00D 0x120).toNat (getReg s 0x00D 0x12C).toNat)
      if w.2 = .ok then w.1 else modReg w.1 0x00D 0x134 fun w => putBit w 28 true := by
  unfold flashCmd
  rw [if_neg (by simp [h])]
  exact if_neg fun hno => hno.1 rfl

theorem flashCmd_program (h : s.boot.flBusy = false)
    (hfree : overRunning s (getReg s 0x00D 0x120).toNat (getReg s 0x00D 0x12C).toNat = false) :
    flashCmd 2 s =
      let r := memRead (flashBusy s) 0x00C (getPair s 0x00D 0x124 6 % 2 ^ 48) (getReg s 0x00D 0x12C).toNat
      if r.2.1 = .ok then flashProgram (getReg s 0x00D 0x120).toNat r.2.2 r.1
      else modReg r.1 0x00D 0x134 fun w => putBit w 28 true := by
  unfold flashCmd
  rw [if_neg (by simp [h])]
  exact if_neg fun hno => Bool.false_ne_true (hfree.symm.trans hno.2)

theorem flashCmd_program_refused (h : s.boot.flBusy = false)
    (hover : overRunning s (getReg s 0x00D 0x120).toNat (getReg s 0x00D 0x12C).toNat = true) :
    flashCmd 2 s = setReg s 0x00D 0x134 0x20000000 := by
  unfold flashCmd
  rw [if_neg (by simp [h])]
  exact if_pos ⟨by decide, hover⟩

section Erase

variable {len : Nat} (hlen : len = (granules (getReg s 0x00D 0x120).toNat (getReg s 0x00D 0x12C).toNat 4096).length * 4096)
  (h : s.boot.flBusy = false)
include hlen h

theorem flashCmd_erase (hfree : overRunning s ((getReg s 0x00D 0x120).toNat / 4096 * 4096) len = false) :
    flashCmd 3 s = flashErase (getReg s 0x00D 0x120).toNat (getReg s 0x00D 0x12C).toNat (flashBusy s) := by
  subst hlen
  unfold flashCmd
  rw [if_neg (by simp [h])]
  exact if_neg fun hno => Bool.false_ne_true (hfree.symm.trans hno.2)

theorem flashCmd_erase_refused (hover : overRunning s ((getReg s 0x00D 0x120).toNat / 4096 * 4096) len = true) :
    flashCmd 3 s = setReg s 0x00D 0x134 0x20000000 := by
  subst hlen
  unfold flashCmd
  rw [if_neg (by simp [h])]
  exact if_pos ⟨by decide, hover⟩

end Erase

theorem flashDone_of_busy (h : s.boot.flBusy = true) (fail : Bool) :
    flashDone fail s = setEvt (setReg (modBoot s fun b => { b with flBusy := false }) 0x00D 0x134
      (w32 (2 ^ 31 + if fail || bit (getReg s 0x00D 0x134) 28 then 2 ^ 28 else 0))) 0x00D 1 :=
  if_neg (by simp [h])

end Flash

/-! ### A configuration set (R846, R847) -/

section Cfg

variable {s : State} {v : Word} (hv : bit v 0 = true) (hstage : bootStage s = 2)
  (hidle : s.phys.any (fun e => decide (2 ≤ e.2.st)) = false)
include hv hstage hidle

theorem cfgGoSt_of_length (hlen : (getReg s 0x00D 0x13C).toNat < 4096 ∨ 2 ^ 24 < (getReg s 0x00D 0x13C).toNat) :
    cfgGoSt v s = cfgResult 3 s := by
  unfold cfgGoSt
  dsimp only
  rw [if_neg (by simp [hv, hstage]), if_neg (by simp only [hidle]; decide), if_pos hlen]

theorem cfgGoSt_of_loaded (hlo : 4096 ≤ (getReg s 0x00D 0x13C).toNat) (hhi : (getReg s 0x00D 0x13C).toNat ≤ 2 ^ 24) :
    cfgGoSt v s =
      if verifySet s 2 (getReg s 0x00D 0x13C).toNat (fun o k => secRead s (stagingBase + o) k) = 0 then
        cfgResult 0 (modBoot (installSet (secRead s stagingBase 4096)
          (secRead s (stagingBase + 4096) (hdrLen (secRead s stagingBase 4096))) s) fun b => { b with persist := bit v 1 })
      else cfgResult 2 s := by
  unfold cfgGoSt
  dsimp only
  rw [if_neg (by simp [hv, hstage]), if_neg (by simp only [hidle]; decide), if_neg (by omega), ite_not]

end Cfg

/-! ### The mailboxes (R850–R852) -/

/-- A command of a mailbox has begun. -/
def mbBegun (s : State) (sv : Bool) (c : Nat) : State := setReg s 0x00C (mbBase sv + 0x18) (w32 (2 ^ 30 + c))

/-- A command of a mailbox runs, with the result that it will give. -/
def mbRuns (sv : Bool) (c : Nat) (x : State × Nat) : State := modBoot x.1 fun b =>
  if sv then { b with svMb := ⟨some (c, x.2)⟩ } else { b with hostMb := ⟨some (c, x.2)⟩ }

section Mailbox

variable {s : State} {sv : Bool}

theorem mbCommand_of_free {c : Nat} {allowed : Bool} {act : State → State × Nat}
    (h : (if sv then s.boot.svMb else s.boot.hostMb).cmd = none) :
    mbCommand sv c allowed act s = mbRuns sv c (if allowed then act (mbBegun s sv c) else (mbBegun s sv c, 5)) := by
  unfold mbCommand
  rw [if_neg (by simp [h])]
  rfl

section Write

variable {a : Acc} {c : Nat} {act : State → State × Nat} (hr : reaches s a 0x00C)
  (h : (if sv then s.boot.svMb else s.boot.hostMb).cmd = none)
include hr h

/-- A write of MB_CMD that reaches a free mailbox starts its command. -/
theorem mbWrite_of_allowed : mbWrite a sv c true act s = .next (mbRuns sv c (act (mbBegun s sv c))) :=
  next_onPage hr ((mbCommand_of_free h).trans (by rw [if_pos rfl]))

/-- A command that its mailbox may not send ends with REFUSED. -/
theorem mbWrite_of_refused : mbWrite a sv c false act s = .next (mbRuns sv c (mbBegun s sv c, 5)) :=
  next_onPage hr ((mbCommand_of_free h).trans (by rw [if_neg Bool.false_ne_true]))

end Write

theorem getReg_mbBegun {c off : Nat} (h : off ≠ 0x18) :
    getReg (mbBegun s sv c) 0x00C (mbBase sv + off) = getReg s 0x00C (mbBase sv + off) :=
  getReg_setReg_off _ _ _ _ _ (by omega)

theorem mbArg0_mbBegun (c : Nat) : mbArg0 (mbBegun s sv c) sv = mbArg0 s sv := by
  unfold mbArg0 getPair
  rw [Nat.add_assoc, getReg_mbBegun (by decide), getReg_mbBegun (by decide)]

theorem mbArg1_mbBegun (c : Nat) : mbArg1 (mbBegun s sv c) sv = mbArg1 s sv := by
  unfold mbArg1
  rw [getReg_mbBegun (by decide)]

theorem mbDone_of_running {c r : Nat} (h : (if sv then s.boot.svMb else s.boot.hostMb).cmd = some (c, r)) :
    mbDone sv s =
      let u := modBoot s fun b => if sv then { b with svMb := ⟨none⟩ } else { b with hostMb := ⟨none⟩ }
      let v := setEvt (setReg u 0x00C (mbBase sv + 0x18) (w32 (2 ^ 31 + r * 2 ^ 8 + c))) 0x00C (if sv then 1 else 0)
      if r = 1 ∨ r = 2 ∨ r = 3 then setEvt v 0x00C 2 else v := by
  unfold mbDone
  simp only [h]

end Mailbox

/-! ### PMBus and GPIO (R860, R873) -/

section Board

variable {s : State}

theorem pmbusEnableSt_of_off (hoff : enabled s 0x00F = false) (hidle : resetting s 0x00F = false) (m : Option (BitVec 8)) :
    pmbusEnableSt m s =
      let u := modReg s 0x00F 0x08 fun w => putBit w 0 true
      match m with
      | some m =>
        let t := modReg (setReg u 0x00F 0x10C (w32 m.toNat)) 0x00F 0x108 fun w => putBit w 16 false
        if m.toNat / 32 = 0 then setEnabled t 0x00F true else ownErr t 0x00F 4 0x01 none
      | none => ownErr (modReg u 0x00F 0x108 fun w => putBit w 16 true) 0x00F 4 0x01 none :=
  if_neg (by simp [hoff, hidle])

/-- A bit of a field that holds 1 makes the field nonzero. -/
theorem bits_ne_zero_of_bit {w : Word} {hi lo i : Nat} (h : bit w i = true) (hlo : lo ≤ i) (hhi : i ≤ hi) : bits w hi lo ≠ 0 := by
  intro hz
  have htest := testBit_bits w hi lo (i - lo)
  rw [hz, Nat.zero_testBit, Nat.add_sub_cancel' hlo, show w.getLsbD i = true from h, Bool.and_true] at htest
  exact absurd htest (by simp; omega)

theorem kup_gpioWritten {off : Nat} {v : Word} (hu : kup s.regs = true) : kup (setReg s 0x00E off v).regs = true :=
  kup_setRegI _ _ _ _ _ hu

/-- EDGE_LO or EDGE_HI stands where the edge of a ball is noted. -/
theorem getReg_gpioLevels_event {n : Nat} (hu : kup s.regs = true) (hn : n < 32) (h : bit (getReg s 0x00E 0x114) n = true) :
    bit (getReg (gpioLevels s) 0x00E 0x14) (if n < 16 then 0 else 1) = true := by
  have hset {u : State} (b : Nat) (hb : b < 32) (hk : kup u.regs = true) : bit (getReg (setEvt u 0x00E b) 0x00E 0x14) b = true := by
    rw [setEvt, modReg, getReg_setReg _ _ _ _ hk, bit_putBit hb]
  have hstays {u : State} (hk : kup u.regs = true) (h0 : bit (getReg u 0x00E 0x14) 0 = true) :
      bit (getReg (setEvt u 0x00E 1) 0x00E 0x14) 0 = true := by
    rw [setEvt, modReg, getReg_setReg _ _ _ _ hk, bit_putBit_ne (by decide) (by decide)]
    exact h0
  unfold gpioLevels
  dsimp only
  by_cases hlow : n < 16
  · rw [if_pos hlow, if_pos (bits_ne_zero_of_bit (hi := 15) (lo := 0) h (by omega) (by omega))]
    have h0 := hset 0 (by decide) hu
    split
    · exact hstays (kup_gpioWritten hu) h0
    · exact h0
  · rw [if_neg hlow]
    have hhigh := bits_ne_zero_of_bit (hi := 31) (lo := 16) h (by omega) (by omega)
    rw [if_pos hhigh]
    split
    · exact hset 1 (by decide) (kup_gpioWritten hu)
    · exact hset 1 (by decide) hu

theorem getReg_gpioLevels_block {off : Nat} (hlo : 0x100 ≤ off) (hhi : off < 4096) :
    getReg (gpioLevels s) 0x00E off = getReg s 0x00E off := by
  unfold gpioLevels
  dsimp only
  simp only [apply_ite (getReg · 0x00E off), getReg_setEvt_block hlo hhi, ite_self]

/-- The level of a ball is stored. -/
def gpioStored (n : Nat) (level : Bool) (s : State) : State := modReg s 0x00E 0x108 fun w => putBit w n level

theorem gpioEdgeSt_of_change {n : Nat} {level : Bool} (h : bit (getReg s 0x00E 0x108) n ≠ level) :
    gpioEdgeSt n level s =
      if bit (getReg s 0x00E (if level then 0x10C else 0x110)) n then
        gpioLevels (modReg (gpioStored n level s) 0x00E 0x114 fun w => putBit w n true)
      else gpioStored n level s := by
  have hsel : getReg (gpioStored n level s) 0x00E (if level then 0x10C else 0x110) = getReg s 0x00E (if level then 0x10C else 0x110) := by
    refine getReg_setReg_off _ _ _ _ _ ?_
    cases level with
    | false => decide
    | true => decide
  unfold gpioEdgeSt
  rw [if_neg h]
  dsimp only
  rw [← gpioStored, hsel]

end Board

/-- Settles O57: each command through its branch; a mailbox's through `mbRuns`, refused ones with RESULT 5. -/
theorem securityAndBoardComplete : Obligations.SecurityAndBoardComplete := by
  intro s
  refine ⟨fun a hr hfree => ?flash, fun hbusy hb hpll fail => ?flashDone, fun a v hr hv hstage hidle => ?cfg, fun hp => ?persist,
    fun a sv blown hr hfree => ?mailbox, fun sv c r hb hcmd => ?done, fun a m hr hoff hidle => ?pmbus, rfl,
    fun n level hchange hu => ?gpio⟩
  case flash =>
    exact ⟨next_onPage hr (flashCmd_read hfree), fun h => next_onPage hr (flashCmd_program hfree h),
      fun h => next_onPage hr (flashCmd_program_refused hfree h),
      fun h => next_onPage hr (flashCmd_erase rfl hfree h), fun h => next_onPage hr (flashCmd_erase_refused rfl hfree h)⟩
  case flashDone => exact next_whileRuns hb ((if_pos hpll).trans (flashDone_of_busy hbusy fail))
  case cfg =>
    exact ⟨fun h => next_onPage hr (cfgGoSt_of_length hv hstage hidle h),
      fun hlo hhi => next_onPage hr (cfgGoSt_of_loaded hv hstage hidle hlo hhi)⟩
  case persist => exact congrArg Host.Outcome.next (if_neg (by simp [hp]))
  case mailbox =>
    have hgo (c : Nat) (act : State → State × Nat) :
        mbWrite a sv c true act s = .next (mbRuns sv c (act (mbBegun s sv c))) := mbWrite_of_allowed hr hfree
    have hno (c : Nat) (act : State → State × Nat) :
        mbWrite a sv c false act s = .next (mbRuns sv c (mbBegun s sv c, 5)) := mbWrite_of_refused hr hfree
    refine ⟨?_, hgo 5 _, ?_⟩
    · rintro rfl
      refine ⟨(hgo 1 _).trans ?_, hgo 2 _, hgo 3 _, hgo 4 _, fun i hi => ?_⟩
      · rw [verifyCfgAct, mbArg0_mbBegun, mbArg1_mbBegun]
        rfl
      · simp only [List.mem_cons, List.not_mem_nil, or_false] at hi
        obtain rfl | rfl | rfl | rfl | rfl := hi
        · exact ⟨6, by decide, by decide, hno 6 _⟩
        · exact ⟨7, by decide, by decide, hno 7 _⟩
        · exact ⟨8, by decide, by decide, hno 8 _⟩
        · exact ⟨9, by decide, by decide, hno 9 _⟩
        · exact ⟨10, by decide, by decide, hno 10 _⟩
    · rintro rfl
      refine ⟨hgo 6 _, hgo 7 _, hgo 8 _, hgo 9 _, hgo 10 _, fun i hi => ?_⟩
      simp only [List.mem_cons, List.not_mem_nil, or_false] at hi
      obtain rfl | rfl | rfl | rfl := hi
      · exact ⟨1, by decide, by decide, hno 1 _⟩
      · exact ⟨2, by decide, by decide, hno 2 _⟩
      · exact ⟨3, by decide, by decide, hno 3 _⟩
      · exact ⟨4, by decide, by decide, hno 4 _⟩
  case done => exact next_whileRuns hb (mbDone_of_running hcmd)
  case pmbus =>
    have henable := pmbusEnableSt_of_off hoff hidle
    exact ⟨fun hm => next_onPage hr ((henable (some m)).trans (if_pos (by omega))),
      fun hm => next_onPage hr ((henable (some m)).trans (if_neg (by omega))), next_onPage hr (henable none)⟩
  case gpio =>
    have hheld : getReg (gpioStored n level s) 0x00E 0x108 = putBit (getReg s 0x00E 0x108) n level := getReg_setReg _ _ _ _ hu
    have hother {off : Nat} (h : off ≠ 0x108) : getReg (gpioStored n level s) 0x00E off = getReg s 0x00E off :=
      getReg_setReg_off _ _ _ _ _ h
    have hku : kup (gpioStored n level s).regs = true := kup_gpioWritten hu
    have hedge := gpioEdgeSt_of_change hchange
    cases hsel : bit (getReg s 0x00E (if level then 0x10C else 0x110)) n with
    | false =>
      rw [hsel] at hedge
      exact ⟨_, congrArg Host.Outcome.next hedge, hheld, fun hno => by simp at hno, fun _ => ⟨hother (by decide), hother (by decide)⟩⟩
    | true =>
      rw [hsel] at hedge
      have hnoted : getReg (modReg (gpioStored n level s) 0x00E 0x114 fun w => putBit w n true) 0x00E 0x114 =
          putBit (getReg s 0x00E 0x114) n true := by
        rw [modReg, getReg_setReg _ _ _ _ hku, hother (by decide)]
      refine ⟨_, congrArg Host.Outcome.next hedge, ?_, fun _ => ⟨?_, ?_⟩, fun hno => by simp at hno⟩
      · rw [if_pos rfl, getReg_gpioLevels_block (by decide) (by decide), modReg, getReg_setReg_off _ _ _ _ _ (by decide), hheld]
      · rw [if_pos rfl, getReg_gpioLevels_block (by decide) (by decide), hnoted]
      · rw [if_pos rfl]
        refine getReg_gpioLevels_event (kup_gpioWritten hku) n.isLt ?_
        rw [hnoted, bit_putBit n.isLt]

end Sys2Proof.Machine

/-! The commands of a DMA channel (R600–R620). -/

namespace Sys2Proof.Machine

/-- The channel of a run that has come to its halt, after its descriptor is written back and RING_CUR has moved on. -/
def haltWritten (c : Nat) (h : DmaStop) (s : State) : State :=
  let x := dmaCh s c
  let p := dmaPage c
  let s1 := memPut s p (x.desc + 56) (leBytes 4 (x.csum.getD 0xFFFFFFFF).toNat ++ leBytes 4 0)
  let s2 := closeDesc s1 p x.desc 1 h.cls (h.cause * 2 ^ 16 + min 255 x.retries)
  dmaAdvance c (setDma s2 c { dmaCh s2 c with words := [], reads := [], beats := [], buf := [], stop := none, cause := h.cause })

/-- R620: an aborted run ends, where nothing of it is outstanding and its page is not under reset. -/
theorem haltCompleteSt_of_aborted {c : Nat} {h : DmaStop} {s : State} (hstop : (dmaCh s c).stop = some h)
    (hquiet : dmaQuiet (dmaCh s c) = true) (hidle : resetting s (dmaPage c) = false) (hwords : (dmaCh s c).words ≠ [])
    (habort : h.abort = true) :
    haltCompleteSt c s = dmaEndRun c (dmaFail c (dmaCh s c).fire h.cause (haltWritten c h s)) := by
  have hempty : (dmaCh s c).words.isEmpty = false := List.isEmpty_eq_false_iff.mpr hwords
  unfold haltCompleteSt
  simp only [hstop]
  rw [if_neg (by simp [hquiet, hidle]), if_neg hwords, hempty, habort]
  rfl

/-- Channel 0 of engine 0 awaits nothing more of a run that a soft reset of its page ended; the page is still under reset. -/
def resetHalted : State :=
  { setReg coresOn 0x0D8 0x10 4 with
    dma := [(0, { DmaCh.init with st := 2, words := [0], stop := some ⟨0x0A, 0, 0, 0, 0, true⟩ })] }

/-- The engine under reset leaves its channel as it is (R622). -/
theorem haltCompleteSt_resetHalted : haltCompleteSt 0 resetHalted = resetHalted := by
  have hreset : resetting resetHalted (dmaPage 0) = true := by decide
  have hstop : (dmaCh resetHalted 0).stop = some ⟨0x0A, 0, 0, 0, 0, true⟩ := by decide
  unfold haltCompleteSt
  simp only [hstop]
  exact if_pos (.inr hreset)

/-- An aborted run that ended would leave the channel idle. -/
theorem st_haltWritten_resetHalted :
    (dmaCh (dmaEndRun 0 (dmaFail 0 (dmaCh resetHalted 0).fire 0x0A (haltWritten 0 ⟨0x0A, 0, 0, 0, 0, true⟩ resetHalted))) 0).st = 0 := by
  decide

/-- Refutes O45: the clause of HALT_COMPLETE lacks the premise that the engine's page is not under reset, with which it holds
(`haltCompleteSt_of_aborted`). While the page is under reset the channel's run does not end (R622). -/
theorem not_dmaCommandsComplete : ¬ Obligations.DmaCommandsComplete := by
  intro h
  obtain ⟨-, -, hclause⟩ := h 0 resetHalted
  obtain ⟨habort, -⟩ := hclause ⟨0x0A, 0, 0, 0, 0, true⟩ (by decide) (by decide) (by decide)
    (by decide)
  have hexec : Host.Outcome.next (φ := Fault) (ρ := Refusal) (whileRuns 0x0D8 (haltCompleteSt 0) resetHalted) = .next _ := habort rfl
  have hruns : blockRuns resetHalted 0x0D8 = true := by decide
  have hstate := Host.Outcome.next.inj hexec
  rw [whileRuns_of_runs hruns, haltCompleteSt_resetHalted] at hstate
  have hst := congrArg (fun t => (dmaCh t 0).st) hstate
  have hbusy : (dmaCh resetHalted 0).st = 2 := by decide
  exact absurd (hbusy.symm.trans (hst.trans st_haltWritten_resetHalted)) (by decide)

end Sys2Proof.Machine

/-! The memories' own commands and the DRAM controller (R628–R658). -/

namespace Sys2Proof.Machine

/-! ### Arrays and row repair (R628, R632–R634) -/

section Arrays

variable {s : State}

theorem arrayScrubSt_of_on {p arr b : Nat} (w : Nat) (u : Option Upset) (hb : arrayBase p arr = some b)
    (hon : arrayOn (applyUpset u s) p arr = true) :
    arrayScrubSt p arr w u s =
      let s1 := (readArrayWord 2 (b + 8 * w) (applyUpset u s)).1
      if p = 0x0F0 ∨ p = 0x0F1 then
        let n := kget 0 s1.memc.wordsScrubbed (p - 0x0F0) + 1
        let s2 := modMemc s1 fun m => { m with wordsScrubbed := kset 0 m.wordsScrubbed (p - 0x0F0) (n % 1024) }
        if n = 1024 then incCnt s2 p 4 else s2
      else s1 := by
  unfold arrayScrubSt
  simp only [hb]
  exact if_neg (by simp [hon])

/-- RR_STS shows that no repair has ended. -/
def rrCleared (s : State) : State := modReg s 0x0F0 0x11C fun w => putBits w 31 24 0

theorem getReg_rrCleared {p off : Nat} (h : (p, off) ≠ (0x0F0, 0x11C)) (ho : off < 4096) :
    getReg (rrCleared s) p off = getReg s p off := by
  refine getRegI_setRegI_ne _ _ _ _ _ _ _ _ fun hk => h ?_
  unfold rkey at hk
  rw [Prod.mk.injEq]
  omega

theorem rrTarget_rrCleared : rrTarget (rrCleared s) = rrTarget s := by
  unfold rrTarget
  rw [getReg_rrCleared (by decide) (by decide)]

theorem sramBank_rrCleared (h b : Nat) : sramBank (rrCleared s) h b = sramBank s h b := by
  unfold sramBank
  rw [getReg_rrCleared (by simp) (by decide), getReg_rrCleared (by simp) (by decide)]

theorem arrayOn_rrCleared (p arr : Nat) : arrayOn (rrCleared s) p arr = arrayOn s p arr := by
  have hon : pageOn (rrCleared s) p = pageOn s p := rfl
  unfold arrayOn
  rw [hon, sramBank_rrCleared]

/-- R632: a REPAIR that is accepted runs. -/
theorem repairSt_of_accepted {v : Word} (hv : bit v 0 = true) (hfree : s.memc.repairing = none)
    (hbase : (arrayBase (rrTarget s / 256) (rrTarget s % 256)).isSome) (hrow : (getReg s 0x0F0 0x114).toNat ≤ 2047)
    (hon : arrayOn s (rrTarget s / 256) (rrTarget s % 256) = true) (hspare : freeSpares s (rrTarget s) ≠ 0) :
    repairSt v s = modReg (modMemc (rrCleared s) fun m =>
      { m with repairing := some (rrTarget s, (getReg s 0x0F0 0x114).toNat) }) 0x0F0 0x11C fun w => putBit w 30 true := by
  have hspare' : freeSpares (rrCleared s) (rrTarget s) ≠ 0 := hspare
  unfold repairSt
  rw [if_neg (by simp [hv]), if_neg (by simp [hfree]), ← rrCleared]
  dsimp only
  rw [rrTarget_rrCleared, getReg_rrCleared (by decide) (by decide), arrayOn_rrCleared,
    if_neg (by rintro (hnone | hlong); · simp [Option.isNone_iff_eq_none.mp hnone] at hbase
               · omega),
    if_neg (by simp [hon]), if_neg hspare']

/-- RR_STS of an accepted repair: BUSY, and nothing of an earlier one. -/
theorem bits_rrSts_accepted (hu : kup s.regs = true) (f : MemSt → MemSt) :
    bits (getReg (modReg (modMemc (rrCleared s) f) 0x0F0 0x11C fun w => putBit w 30 true) 0x0F0 0x11C) 31 24 = 64 := by
  have hku : kup (modMemc (rrCleared s) f).regs = true := kup_setRegI _ _ _ _ _ hu
  have hmod : getReg (modMemc (rrCleared s) f) 0x0F0 0x11C = putBits (getReg s 0x0F0 0x11C) 31 24 0 := getReg_setReg _ _ _ _ hu
  have hword : ∀ w : Word, bits (putBit (putBits w 31 24 0) 30 true) 31 24 = 64 := by
    intro w
    refine Nat.eq_of_testBit_eq fun i => ?_
    rw [testBit_bits, putBit, getLsbD_putBits _ _ _ (by decide) (by decide), getLsbD_putBits _ _ _ (by decide) (by decide),
      show (64 : Nat) = 2 ^ 6 from rfl, Nat.testBit_two_pow]
    by_cases hi : i = 6
    · simp [hi]
    · by_cases hlt : i < 8
      · rw [if_neg (by omega), if_pos (by omega)]
        simp [Ne.symm hi]
      · simp [hlt, Ne.symm hi]
  rw [modReg, getReg_setReg _ _ _ _ hku, hmod, hword]

theorem rrDoneSt_of_running {arr row : Nat} {u : State} {ue : Bool} (hrun : s.memc.repairing = some (arr, row))
    (hmove : moveRow arr row s = (u, ue)) :
    rrDoneSt s = incCnt (setEvt (modReg (modMemc u fun m => { m with repairing := none }) 0x0F0 0x11C fun w =>
      putBit (putBit (putBit w 31 true) 30 false) 29 ue) 0x0F0 0) 0x0F0 6 := by
  unfold rrDoneSt
  simp only [hrun, hmove]

theorem bankPwrSt_hi {a : Acc} {h : Nat} {v : Word} {held : Option Word} {u : State}
    (htake : takeLo s a (0x0F0 + h) 0x100 = (held, u)) :
    bankPwrSt a h true v s = bankPwrSet h (held.getD (getReg u (0x0F0 + h) 0x100)) v u := by
  unfold bankPwrSt
  simp only [if_true, htake]

end Arrays

/-! ### The start of DRAM (R638, R639) -/

section Channels

variable {s : State}

/-- CH_STS of every channel is changed. -/
def chanSet (f : Word → Word) (s : State) : State := (List.range 16).foldl (fun s c => modReg s (0x0E0 + c) 0x180 f) s

theorem setChState_eq (n : Nat) : setChState n s = chanSet (fun w => putBits w 31 28 n) s := rfl

theorem setChFsp_eq (n : Nat) : setChFsp n s = chanSet (fun w => putBits w 5 4 n) s := rfl

/-- A field of CH_STS that every channel is given. -/
theorem getReg_chanSet {f : Word → Word} {c : Nat} (hc : c < 16) (hu : kup s.regs = true) :
    getReg (chanSet f s) (0x0E0 + c) 0x180 = f (getReg s (0x0E0 + c) 0x180) := by
  obtain ⟨u, hku, hsame, hlast⟩ := foldl_own_turn (obs := fun s => getReg s (0x0E0 + c) 0x180) (inv := fun s => kup s.regs = true)
    (g := fun s c => modReg s (0x0E0 + c) 0x180 f) (List.mem_range.mpr hc) List.nodup_range
    (fun s q hq => getReg_setReg_page (by omega) (by decide) (by decide) s _) (fun s q h => kup_setRegI _ _ _ _ _ h) hu
  exact hlast.trans ((getReg_setReg _ _ _ _ hku).trans (congrArg f hsame))

theorem kup_chanSet {f : Word → Word} (hu : kup s.regs = true) :
    kup (chanSet f s).regs = true :=
  List.foldlRecOn (motive := fun u : State => kup u.regs = true) _ _ hu fun _ h _ _ => kup_setRegI _ _ _ _ _ h

theorem getReg_chanSet_ne {f : Word → Word} {p off : Nat} (ho : off < 4096) (hne : off ≠ 0x180) :
    getReg (chanSet f s) p off = getReg s p off := by
  refine List.foldlRecOn (motive := fun u => getReg u p off = getReg s p off) _ _ rfl fun u hu c _ => ?_
  refine (getRegI_setRegI_ne _ _ _ _ _ _ _ _ ?_).trans hu
  unfold rkey
  omega

theorem chanSet_memc {f : Word → Word} : (chanSet f s).memc = s.memc :=
  List.foldlRecOn (motive := fun u : State => u.memc = s.memc) _ _ rfl fun _ h _ _ => h

theorem dramEnableSt_of_off (hoff : ctrlEnable s 0x0E0 = false)
    (hrates : ∀ r ∈ [fspRate (modReg s 0x0E0 0x08 fun w => putBit w 0 true) 1, fspRate (modReg s 0x0E0 0x08 fun w => putBit w 0 true) 2],
      r = 0 ∨ r ∈ dramRates) :
    dramEnableSt s = modMemc (dramLost (setChState 1 (modReg s 0x0E0 0x08 fun w => putBit w 0 true))) fun m =>
      { m with init := true, banks := [] } := by
  unfold dramEnableSt
  rw [if_neg (by simp [hoff])]
  refine if_neg ?_
  rw [Bool.not_eq_true, List.any_eq_false]
  intro r hr
  obtain h | h := hrates r hr
  · simp [h]
  · simp [h]

theorem dramInitDoneSt_failed (hinit : s.memc.init = true) (c : Fin 16) (step : BitVec 4) :
    dramInitDoneSt (some (c, step)) s =
      ownErr (setEvt (modReg (modMemc s fun m => { m with init := false }) (0x0E0 + c) 0x180 fun w =>
        putBits (putBits w 31 28 4) 3 0 step.toNat) 0x0E0 0) 0x0E0 4 0x05 none := by
  unfold dramInitDoneSt
  rw [if_neg (by simp [hinit])]

/-- The start is over. -/
def dramStarted (s : State) : State := modMemc s fun m => { m with init := false }

/-- Every channel runs at set point 0. -/
def dramTrained (s : State) : State := setChFsp 0 (setChState 2 s)

/-- The timing registers and the current set point are those of set point 0. -/
def dramTimed (s : State) : State :=
  modReg ((List.range 5).foldl (fun s i => setReg s 0x0E0 (0x114 + 4 * i) (regReset 0x0E0 (0x114 + 4 * i))) s) 0x0E0 0x110 fun w =>
    putBits w 29 28 0

theorem dramInitDoneSt_done (hinit : s.memc.init = true) :
    dramInitDoneSt none s =
      let t := dramTimed (dramTrained (dramStarted s))
      if ctrlEnable t 0x0E0 then setEnabled t 0x0E0 true else t := by
  unfold dramInitDoneSt
  rw [if_neg (by simp [hinit])]
  rfl

theorem dramTimed_memc : (dramTimed s).memc = s.memc :=
  List.foldlRecOn (motive := fun u : State => u.memc = s.memc) _ _ rfl fun _ h _ _ => h

theorem kup_dramTimed (hu : kup s.regs = true) : kup (dramTimed s).regs = true := by
  refine kup_setRegI _ _ _ _ _ ?_
  exact List.foldlRecOn (motive := fun u : State => kup u.regs = true) _ _ hu fun _ h _ _ => kup_setRegI _ _ _ _ _ h

theorem getReg_dramTimed {p off : Nat} (ho : off < 4096) (hne : p = 0x0E0 → off < 0x110 ∨ 0x128 ≤ off) :
    getReg (dramTimed s) p off = getReg s p off := by
  have hother {o : Nat} {v : Word} {u : State} (h : 0x110 ≤ o ∧ o < 0x128) : getReg (setReg u 0x0E0 o v) p off = getReg u p off := by
    refine getRegI_setRegI_ne _ _ _ _ _ _ _ _ ?_
    unfold rkey
    omega
  refine (hother (by decide)).trans (List.foldlRecOn (motive := fun u => getReg u p off = getReg s p off) _ _ rfl fun u hu i hi => ?_)
  have := List.mem_range.mp hi
  exact (hother (by omega)).trans hu

theorem dramTrained_memc : (dramTrained s).memc = s.memc := by
  rw [dramTrained, setChFsp_eq, setChState_eq, chanSet_memc, chanSet_memc]

theorem kup_dramTrained (hu : kup s.regs = true) : kup (dramTrained s).regs = true := by
  rw [dramTrained, setChFsp_eq, setChState_eq]
  exact kup_chanSet (kup_chanSet hu)

theorem getReg_dramTrained {c : Nat} (hc : c < 16) (hu : kup s.regs = true) :
    getReg (dramTrained s) (0x0E0 + c) 0x180 = putBits (putBits (getReg s (0x0E0 + c) 0x180) 31 28 2) 5 4 0 := by
  rw [dramTrained, setChFsp_eq, setChState_eq, getReg_chanSet hc (kup_chanSet hu), getReg_chanSet hc hu]

theorem getReg_dramTrained_ne {p off : Nat} (ho : off < 4096) (hne : off ≠ 0x180) : getReg (dramTrained s) p off = getReg s p off := by
  rw [dramTrained, setChFsp_eq, setChState_eq, getReg_chanSet_ne ho hne, getReg_chanSet_ne ho hne]

theorem dramInitDone_memc (hinit : s.memc.init = true) : (dramInitDoneSt none s).memc = { s.memc with init := false } := by
  have hmemc : (dramTimed (dramTrained (dramStarted s))).memc = { s.memc with init := false } := dramTimed_memc.trans dramTrained_memc
  have hset (u : State) : (setEnabled u 0x0E0 true).memc = u.memc := rfl
  rw [dramInitDoneSt_done hinit]
  dsimp only
  split
  · exact (hset _).trans hmemc
  · exact hmemc

/-- R638: DRAM is trained; its page is enabled where it was asked for. -/
theorem dramInitDone_trained (hinit : s.memc.init = true) (hu : kup s.regs = true) (hen : ctrlEnable s 0x0E0 = true) :
    enabled (dramInitDoneSt none s) 0x0E0 = true ∧ ∀ c : Fin 16,
      bits (getReg (dramInitDoneSt none s) (0x0E0 + c) 0x180) 31 28 = 2 ∧
      bits (getReg (dramInitDoneSt none s) (0x0E0 + c) 0x180) 5 4 = 0 := by
  have hku : kup (dramStarted s).regs = true := hu
  have hctrl : ctrlEnable (dramTimed (dramTrained (dramStarted s))) 0x0E0 = true := by
    rw [ctrlEnable, getReg_dramTimed (by decide) (by decide), getReg_dramTrained_ne (by decide) (by decide)]
    exact hen
  rw [dramInitDoneSt_done hinit]
  dsimp only
  rw [if_pos hctrl]
  refine ⟨?_, fun c => ?_⟩
  · rw [enabled, setEnabled, modReg, getReg_setReg _ _ _ _ (kup_dramTimed (kup_dramTrained hku)), bit_putBit (by decide)]
  · have hstatus (u : State) : getReg (setEnabled u 0x0E0 true) (0x0E0 + c) 0x180 = getReg u (0x0E0 + c) 0x180 := by
      refine getRegI_setRegI_ne _ _ _ _ _ _ _ _ ?_
      unfold rkey
      omega
    rw [hstatus, getReg_dramTimed (by decide) (by omega), getReg_dramTrained c.isLt hku,
      bits_putBits_ne (by decide) (by decide) (by decide) (by decide), bits_putBits (by decide) (by decide),
      bits_putBits (by decide) (by decide)]
    exact ⟨rfl, rfl⟩

end Channels
/-! ### A change of frequency (R649–R654) -/

/-- Two folds whose steps agree on the list agree. -/
theorem foldl_congr_of_mem {α β : Type} {f g : β → α → β} {l : List α} (h : ∀ b, ∀ a ∈ l, f b a = g b a) (b : β) :
    l.foldl f b = l.foldl g b := by
  induction l generalizing b with
  | nil => rfl
  | cons a l ih =>
    rw [List.foldl_cons, List.foldl_cons, h b a List.mem_cons_self]
    exact ih (fun b x hx => h b x (List.mem_cons_of_mem _ hx)) _

/-- What shows after a fold over distinct numbers is what one turn leaves, where no other turn of the list changes it. -/
theorem foldl_own_turn_of_mem {β : Type} {obs : State → β} {inv : State → Prop} {g : State → Nat → State} {l : List Nat} {p : Nat}
    (hp : p ∈ l) (hl : l.Nodup) (hother : ∀ s, ∀ q ∈ l, q ≠ p → obs (g s q) = obs s) (hinv : ∀ s q, inv s → inv (g s q)) {s : State}
    (hs : inv s) : ∃ u, inv u ∧ obs u = obs s ∧ obs (l.foldl g s) = obs (g u p) := by
  obtain ⟨u, hu, hsame, hlast⟩ := foldl_own_turn (obs := obs) (inv := inv) (g := fun s q => if q ∈ l then g s q else s) hp hl
    (fun s q hq => by
      by_cases hmem : q ∈ l
      · rw [if_pos hmem, hother s q hmem hq]
      · rw [if_neg hmem])
    (fun s q h => by
      by_cases hmem : q ∈ l
      · rw [if_pos hmem]
        exact hinv s q h
      · rwa [if_neg hmem]) hs
  refine ⟨u, hu, hsame, ?_⟩
  have hfold : l.foldl (fun s q => if q ∈ l then g s q else s) s = l.foldl g s :=
    foldl_congr_of_mem (fun _ _ hmem => if_pos hmem) s
  rw [← hfold, hlast, if_pos hp]

section FreqChange

variable {s : State}

theorem freqChangeSt_of_good {f : FireRec} (hen : enabled s 0x0E0 = true) (hfc : s.memc.fc = none) (ha : f ∈ s.arrived)
    (hclk : pageClock s 0x0E0 = true) (hop : f.opcode = 1) (hgood : fcBad s (f.p0.toNat % 4) = false) :
    freqChangeSt f s = fcStart (.fire f) (f.p0.toNat % 4) (takeArrived s f) := by
  have hen' : enabled (takeArrived s f) 0x0E0 = true := hen
  have hgood' : fcBad (takeArrived s f) (f.p0.toNat % 4) = false := hgood
  unfold freqChangeSt
  rw [if_neg (by simp [ha, hclk])]
  dsimp only
  rw [if_neg (by simp [hen']), if_neg (by simp [hfc])]
  exact if_neg (by simp [hop, hgood'])

theorem fcGoSt_of_good {v : Word} (hen : enabled s 0x0E0 = true) (hfc : s.memc.fc = none) (hv : bit v 31 = true)
    (hgood : fcBad s (bits v 1 0) = false) : fcGoSt v s = fcStart .reg (bits v 1 0) s := by
  unfold fcGoSt
  rw [if_neg (by simp [hv]), if_neg (by simp [hen, hfc, hgood])]

/-- The channels' refreshes after a change. -/
def fcRefreshed (s : State) : State := (List.range 16).foldl (fun s c => issueRefresh c 0 s) (closeRows (fun _ => false) s)

theorem fcRefreshed_keeps : (fcRefreshed s).regs = s.regs ∧ (fcRefreshed s).memc.fcWaiting = s.memc.fcWaiting :=
  List.foldlRecOn (motive := fun u : State => u.regs = s.regs ∧ u.memc.fcWaiting = s.memc.fcWaiting) _ _ ⟨rfl, rfl⟩
    fun _ h _ _ => h

/-- The end of a change, with the channels' states and FC_STS. -/
theorem fcEnd_eq (ns : Nat) : fcEnd ns s =
    modMemc (modReg (chanSet (fun w => putBits w 31 28 2) (fcRefreshed s)) 0x0E0 0x110 fun w =>
      putBits (putBit w 31 false) 15 0 (min ns 0xFFFF)) fun m => { m with fc := none } := rfl

theorem fcEnd_memc (ns : Nat) : (fcEnd ns s).memc.fc = none ∧ (fcEnd ns s).memc.fcWaiting = s.memc.fcWaiting := by
  have hreg (u : State) (f : Word → Word) : (modReg u 0x0E0 0x110 f).memc = u.memc := rfl
  have hmod (u : State) : (modMemc u fun m => { m with fc := none }).memc = { u.memc with fc := none } := rfl
  rw [fcEnd_eq, hmod, hreg, chanSet_memc]
  obtain ⟨-, hwait⟩ := fcRefreshed_keeps (s := s)
  exact ⟨rfl, hwait⟩

theorem getReg_fcRefreshed (p off : Nat) : getReg (fcRefreshed s) p off = getReg s p off := getReg_of_regs fcRefreshed_keeps.1 p off

theorem getReg_modMemc (f : MemSt → MemSt) (p off : Nat) : getReg (modMemc s f) p off = getReg s p off := rfl

theorem getReg_fcEnd {off : Nat} (ho : off < 4096) (hsts : off ≠ 0x110) (hch : off ≠ 0x180) (ns : Nat) :
    getReg (fcEnd ns s) 0x0E0 off = getReg s 0x0E0 off := by
  rw [fcEnd_eq, getReg_modMemc, modReg, getReg_setReg_off _ _ _ _ _ hsts, getReg_chanSet_ne ho hch, getReg_fcRefreshed]

theorem getReg_fcEnd_sts (hu : kup s.regs = true) (ns : Nat) :
    getReg (fcEnd ns s) 0x0E0 0x110 = putBits (putBit (getReg s 0x0E0 0x110) 31 false) 15 0 (min ns 0xFFFF) := by
  have hku : kup (chanSet (fun w => putBits w 31 28 2) (fcRefreshed s)).regs = true := kup_chanSet (by rw [fcRefreshed_keeps.1]; exact hu)
  rw [fcEnd_eq, getReg_modMemc, modReg, getReg_setReg _ _ _ _ hku, getReg_chanSet_ne (by decide) (by decide), getReg_fcRefreshed]

/-- The shadow timing registers take the place of those in use (R651). -/
def fcSwapped (s : State) : State := (List.range 5).foldl (fun s i =>
  let x := getReg s 0x0E0 (0x114 + 4 * i)
  let y := getReg s 0x0E0 (0x128 + 4 * i)
  setReg (setReg s 0x0E0 (0x114 + 4 * i) y) 0x0E0 (0x128 + 4 * i) x) s

theorem fcSwapped_memc : (fcSwapped s).memc = s.memc :=
  List.foldlRecOn (motive := fun u : State => u.memc = s.memc) _ _ rfl fun _ h _ _ => h

theorem kup_fcSwapped (hu : kup s.regs = true) : kup (fcSwapped s).regs = true :=
  List.foldlRecOn (motive := fun u : State => kup u.regs = true) _ _ hu fun _ h _ _ =>
    kup_setRegI _ _ _ _ _ (kup_setRegI _ _ _ _ _ h)

/-- A timing register takes its shadow. -/
theorem getReg_fcSwapped {i : Nat} (hi : i < 5) (hu : kup s.regs = true) :
    getReg (fcSwapped s) 0x0E0 (0x114 + 4 * i) = getReg s 0x0E0 (0x128 + 4 * i) := by
  obtain ⟨u, hku, hsame, hlast⟩ := foldl_own_turn_of_mem
    (obs := fun u => (getReg u 0x0E0 (0x114 + 4 * i), getReg u 0x0E0 (0x128 + 4 * i))) (inv := fun u => kup u.regs = true)
    (g := fun u j => setReg (setReg u 0x0E0 (0x114 + 4 * j) (getReg u 0x0E0 (0x128 + 4 * j))) 0x0E0 (0x128 + 4 * j)
      (getReg u 0x0E0 (0x114 + 4 * j))) (List.mem_range.mpr hi) List.nodup_range
    (fun u j hj hne => by
      have := List.mem_range.mp hj
      rw [getReg_setReg_off _ _ _ _ _ (by omega), getReg_setReg_off _ _ _ _ _ (by omega), getReg_setReg_off _ _ _ _ _ (by omega),
        getReg_setReg_off _ _ _ _ _ (by omega)])
    (fun u j h => kup_setRegI _ _ _ _ _ (kup_setRegI _ _ _ _ _ h)) hu
  obtain ⟨hfirst, -⟩ := Prod.mk.inj hlast
  obtain ⟨-, hshadow⟩ := Prod.mk.inj hsame
  exact hfirst.trans ((getReg_setReg_off _ _ _ _ _ (by omega)).trans ((getReg_setReg _ _ _ _ hku).trans hshadow))

theorem getReg_fcSwapped_ne {off : Nat} (ho : off < 0x114 ∨ 0x13C ≤ off) : getReg (fcSwapped s) 0x0E0 off = getReg s 0x0E0 off := by
  refine List.foldlRecOn (motive := fun u => getReg u 0x0E0 off = getReg s 0x0E0 off) _ _ rfl fun u hu i hi => ?_
  have := List.mem_range.mp hi
  exact (getReg_setReg_off _ _ _ _ _ (by omega)).trans ((getReg_setReg_off _ _ _ _ _ (by omega)).trans hu)

/-- The set point of a change is in force, before its stall ends (R650). -/
def fcSwitched (s : State) : State :=
  modReg (setChFsp s.memc.fcTarget (setReg (fcSwapped s) 0x0E0 0x108 (w32 (curFsp s)))) 0x0E0 0x110 fun w =>
    putBits w 29 28 s.memc.fcTarget

theorem fcSwitched_memc : (fcSwitched s).memc = s.memc := by
  have hreg (u : State) (f : Word → Word) : (modReg u 0x0E0 0x110 f).memc = u.memc := rfl
  have hset (u : State) (v : Word) : (setReg u 0x0E0 0x108 v).memc = u.memc := rfl
  rw [fcSwitched, hreg, setChFsp_eq, chanSet_memc, hset, fcSwapped_memc]

theorem kup_fcSwitched (hu : kup s.regs = true) : kup (fcSwitched s).regs = true := by
  rw [fcSwitched, setChFsp_eq]
  exact kup_setRegI _ _ _ _ _ (kup_chanSet (kup_setRegI _ _ _ _ _ (kup_fcSwapped hu)))

theorem getReg_fcSwitched_sts (hu : kup s.regs = true) :
    getReg (fcSwitched s) 0x0E0 0x110 = putBits (getReg s 0x0E0 0x110) 29 28 s.memc.fcTarget := by
  have hku : kup (chanSet (fun w => putBits w 5 4 s.memc.fcTarget) (setReg (fcSwapped s) 0x0E0 0x108 (w32 (curFsp s)))).regs = true :=
    kup_chanSet (kup_setRegI _ _ _ _ _ (kup_fcSwapped hu))
  rw [fcSwitched, setChFsp_eq, modReg, getReg_setReg _ _ _ _ hku, getReg_chanSet_ne (by decide) (by decide),
    getReg_setReg_off _ _ _ _ _ (by decide), getReg_fcSwapped_ne (by decide)]

theorem getReg_fcSwitched_timing {i : Nat} (hi : i < 5) (hu : kup s.regs = true) :
    getReg (fcSwitched s) 0x0E0 (0x114 + 4 * i) = getReg s 0x0E0 (0x128 + 4 * i) := by
  rw [fcSwitched, setChFsp_eq, modReg, getReg_setReg_off _ _ _ _ _ (by omega), getReg_chanSet_ne (by omega) (by omega),
    getReg_setReg_off _ _ _ _ _ (by omega), getReg_fcSwapped hi hu]

/-- The change is over, and its event stands. -/
def fcEnded (ns : Nat) (s : State) : State := setEvt (fcEnd ns (fcSwitched s)) 0x0E0 1

theorem fcEnded_memc (ns : Nat) : (fcEnded ns s).memc.fc = none ∧ (fcEnded ns s).memc.fcWaiting = s.memc.fcWaiting := by
  have hevt (u : State) : (setEvt u 0x0E0 1).memc = u.memc := rfl
  rw [fcEnded, hevt, ← fcSwitched_memc (s := s)]
  exact fcEnd_memc ns

/-- The requester of a change learns that it has ended. -/
def fcAnswered (ns : Nat) (b : FcBy) (s : State) : State :=
  match b with
  | .fire f => complete s 0x0E0 f false (BitVec.ofNat 64 (ns % 2 ^ 32))
  | .reg => s

theorem fcAnswered_keeps (ns : Nat) (b : FcBy) : (fcAnswered ns b s).memc = s.memc ∧ (fcAnswered ns b s).regs = s.regs := by
  cases b with
  | fire f => exact ⟨rfl, rfl⟩
  | reg => exact ⟨rfl, rfl⟩

theorem fcDoneSt_of_running {ns : Nat} {b : FcBy} (hfc : s.memc.fc = some b) :
    fcDoneSt ns s = fcNext (fcAnswered ns b (fcEnded ns s)).memc.fcWaiting.length (fcAnswered ns b (fcEnded ns s)) := by
  have hset (u : State) (v : Word) : (setReg u 0x0E0 0x108 v).memc = u.memc := rfl
  unfold fcDoneSt
  simp only [hfc]
  rw [← fcSwapped, hset, fcSwapped_memc, ← fcSwitched, ← fcEnded]
  cases b with
  | fire f => rfl
  | reg => rfl

theorem fcDoneSt_eq {ns : Nat} {b : FcBy} (hfc : s.memc.fc = some b) (hwait : s.memc.fcWaiting = []) :
    fcDoneSt ns s = fcAnswered ns b (fcEnded ns s) := by
  have hnone : (fcAnswered ns b (fcEnded ns s)).memc.fcWaiting = [] := by
    rw [(fcAnswered_keeps ns b).1, (fcEnded_memc ns).2, hwait]
  rw [fcDoneSt_of_running hfc, hnone]
  rfl

/-- R651: what FC_DONE leaves in FC_STS and the timing registers. -/
theorem getReg_fcEnded (hu : kup s.regs = true) (ns : Nat) (ht : s.memc.fcTarget < 4) :
    bits (getReg (fcEnded ns s) 0x0E0 0x110) 29 28 = s.memc.fcTarget ∧
      bits (getReg (fcEnded ns s) 0x0E0 0x110) 15 0 = min ns 0xFFFF ∧ bit (getReg (fcEnded ns s) 0x0E0 0x110) 31 = false ∧
      ∀ i < 5, getReg (fcEnded ns s) 0x0E0 (0x114 + 4 * i) = getReg s 0x0E0 (0x128 + 4 * i) := by
  have hsts : getReg (fcEnded ns s) 0x0E0 0x110 =
      putBits (putBit (putBits (getReg s 0x0E0 0x110) 29 28 s.memc.fcTarget) 31 false) 15 0 (min ns 0xFFFF) := by
    rw [fcEnded, getReg_setEvt_block (by decide) (by decide), getReg_fcEnd_sts (kup_fcSwitched hu), getReg_fcSwitched_sts hu]
  rw [hsts]
  refine ⟨?_, ?_, ?_, fun i hi => ?_⟩
  · rw [bits_putBits_ne (by decide) (by decide) (by decide) (by decide), bits_putBit_ne (by decide) (by decide) (by decide),
      bits_putBits (by decide) (by decide)]
    omega
  · rw [bits_putBits (by decide) (by decide)]
    omega
  · rw [bit_putBits_ne (by decide) (by decide) (by decide), bit_putBit (by decide)]
  · rw [fcEnded, getReg_setEvt_block (by omega) (by omega), getReg_fcEnd (by omega) (by omega) (by omega), getReg_fcSwitched_timing hi hu]

/-- R653: a change that fails ends without its set point. -/
theorem fcFailSt_eq {ns : Nat} {b : FcBy} (hfc : s.memc.fc = some b) (hwait : s.memc.fcWaiting = []) :
    fcFailSt ns s = match b with
      | .fire f => failFire (ownErr (setEvt (fcEnd ns s) 0x0E0 2) 0x0E0 4 0x06 none) 0x0E0 f 0x02
      | .reg => ownErr (setEvt (fcEnd ns s) 0x0E0 2) 0x0E0 4 0x06 none := by
  have hown (u : State) : (ownErr (setEvt u 0x0E0 2) 0x0E0 4 0x06 none).memc = u.memc := ownErr_memc _ _ _ _ _
  have hnone : (ownErr (setEvt (fcEnd ns s) 0x0E0 2) 0x0E0 4 0x06 none).memc.fcWaiting = [] := by
    rw [hown, (fcEnd_memc ns).2, hwait]
  have hfail (u : State) (f : FireRec) : (failFire u 0x0E0 f 0x02).memc = u.memc := rfl
  unfold fcFailSt
  simp only [hfc]
  cases b with
  | fire f =>
    dsimp only
    rw [hfail, hnone]
    rfl
  | reg =>
    dsimp only
    rw [hnone]
    rfl

end FreqChange
/-! ### Refresh, temperature and scrubbing (R646–R648, R658) -/

section Serves

variable {s : State}

theorem dramRefreshSt_postponed {c : Nat} (h : dramServes s = true)
    (hn : kget 0 s.memc.postponed c < min 8 (bits (getReg s (0x0E0 + c) 0x184) 3 0)) :
    dramRefreshSt c true s = modMemc s fun m => { m with postponed := kset 0 m.postponed c (kget 0 s.memc.postponed c + 1) } := by
  unfold dramRefreshSt
  rw [if_neg (by simp [h])]
  exact if_pos ⟨rfl, hn⟩

theorem dramRefreshSt_allBanks {c : Nat} (h : dramServes s = true) (hall : bit (getReg s (0x0E0 + c) 0x184) 8 = true) :
    dramRefreshSt c false s = closeRows (fun k => !decide (k / 32 = c)) (issueRefresh c 1 s) := by
  unfold dramRefreshSt
  rw [if_neg (by simp [h])]
  exact (if_neg (by simp)).trans (if_pos hall)

theorem mr4St_of_serves {c code : Nat} (h : dramServes s = true) :
    mr4St c code s =
      if bits (getReg s (0x0E0 + c) 0x180) 15 8 = code then modReg s (0x0E0 + c) 0x180 fun w => putBits w 15 8 code
      else setEvt (modReg s (0x0E0 + c) 0x180 fun w => putBits w 15 8 code) (0x0E0 + c) 4 := by
  unfold mr4St
  rw [if_neg (by simp [h])]

theorem dramUsable_of_memCfg {t : State} (h : memCfg t = memCfg s) : dramUsable t = dramUsable s := by
  unfold dramUsable dramChanBytes
  rw [h]

/-- What the scrubber's check does with its block. -/
def scrubChecked (b p : Nat) (s : State) : State :=
  if !bit (memCfg s) 31 then s else
    match getMark s b with
    | .clean => s
    | .ce => incCnt (countCe (captureErr (setMark s b .clean) p ⟨1, 0x01, 0, p, some b⟩) p) p 5
    | .ue => captureErr (setEvt (incCnt (setPair s 0x0E0 0x144 b) p 6) p 5) p ⟨2, 0x03, 0, p, some b⟩

/-- The check leaves the place of the scrubber and the size of DRAM. -/
theorem scrubChecked_keeps (b p : Nat) : (scrubChecked b p s).memc = s.memc ∧ memCfg (scrubChecked b p s) = memCfg s := by
  have hcfg {t : State} (h : getReg t 0x0E0 0x100 = getReg s 0x0E0 0x100) : memCfg t = memCfg s := h
  have hincMemc (u : State) (i : Nat) : (incCnt u p i).memc = u.memc := rfl
  have hevtMemc (u : State) (i : Nat) : (setEvt u p i).memc = u.memc := rfl
  have hmarkMemc (u : State) (m : Mark) : (setMark u b m).memc = u.memc := rfl
  have hpairMemc (u : State) (n : Nat) : (setPair u 0x0E0 0x144 n).memc = u.memc := rfl
  have hceMemc (u : State) : (countCe u p).memc = u.memc := (countCe_to (Nat.or_self _) (.refl _ u)).memc rfl
  unfold scrubChecked
  split
  · exact ⟨rfl, rfl⟩
  · split
    · exact ⟨rfl, rfl⟩
    · refine ⟨by rw [hincMemc, hceMemc, captureErr_memc, hmarkMemc], hcfg ?_⟩
      rw [getReg_incCnt, getReg_countCe_block (by decide) (by decide), getReg_captureErr_block (by decide) (by decide), getReg_setMark]
    · refine ⟨by rw [captureErr_memc, hevtMemc, hincMemc, hpairMemc], hcfg ?_⟩
      rw [getReg_captureErr_block (by decide) (by decide), getReg_setEvt_block (by decide) (by decide), getReg_incCnt, setPair,
        getReg_setReg_off _ _ _ _ _ (by decide), getReg_setReg_off _ _ _ _ _ (by decide)]

/-- R658: before the end of DRAM the scrubber goes on to the next block. -/
theorem dramScrubSt_of_serves {u : Option Upset} {t : State} (ht : t = applyUpset u s) (h : dramServes t = true)
    (hon : bit (getReg t 0x0E0 0x140) 31 = true) (hmore : t.memc.scrubPos + 1 < dramUsable t / 64) :
    let p := 0x0E0 + (dramChan t (64 * t.memc.scrubPos)).1
    dramScrubSt u s = modMemc (scrubChecked (64 * t.memc.scrubPos) p (incCnt t p 8)) fun m => { m with scrubPos := m.scrubPos + 1 } := by
  subst ht
  intro p
  obtain ⟨hmemc, hcfg⟩ := scrubChecked_keeps (s := incCnt (applyUpset u s) p 8) (64 * (applyUpset u s).memc.scrubPos) p
  unfold dramScrubSt
  dsimp only
  rw [if_neg (by simp [h, hon])]
  show (let v := scrubChecked (64 * (applyUpset u s).memc.scrubPos) p (incCnt (applyUpset u s) p 8)
    if dramUsable v / 64 ≤ v.memc.scrubPos + 1 then setEvt (modMemc v fun m => { m with scrubPos := 0 }) 0x0E0 6
    else modMemc v fun m => { m with scrubPos := m.scrubPos + 1 }) = _
  dsimp only
  rw [hmemc, dramUsable_of_memCfg hcfg]
  exact if_neg (Nat.not_le.mpr hmore)

end Serves

/-- Settles O46: each row reaches its page or finds its block running, and takes the branch that its premises name. -/
theorem memoryCommandsComplete : Obligations.MemoryCommandsComplete := by
  intro s
  refine ⟨fun p arr w u b hb hr hon => ⟨fun hf0 hf1 => ?scrub, fun hf => ?sramScrub⟩, fun a v hr hv hfree hu => ?repair,
    fun arr row u ue hr hrun hmove => ?repaired, fun a h v held u hr => ⟨?lo, fun htake => ?hi⟩, fun a hr hoff hrates => ?enable,
    fun hinit hr => ⟨fun c step => ?trainFail, ?trained⟩, fun hen hfc => ⟨fun f ha hclk hop hgood => ?fire, fun a v hr hv hgood => ?go⟩,
    fun ns b hr hfc hwait => ⟨?fcDone, ?fcFail⟩, fun hserves => ⟨fun c => ⟨fun hn => ?postpone, fun hall => ?refresh⟩,
    fun c code => ⟨fun hsame => ?mr4Same, fun hnew => ?mr4New⟩⟩, fun u hserves hon hmore => ?dramScrub, fun b hr => ?close⟩
  case scrub => exact next_whileRuns hr ((arrayScrubSt_of_on w u hb hon).trans (if_neg (by omega)))
  case sramScrub => exact next_whileRuns hr ((arrayScrubSt_of_on w u hb hon).trans (if_pos hf))
  case repair =>
    intro t hbase hrow hon hspare
    exact ⟨_, next_onPage hr (repairSt_of_accepted hv hfree hbase hrow hon hspare), rfl, bits_rrSts_accepted hu _⟩
  case repaired => exact next_whileRuns hr (rrDoneSt_of_running hrun hmove)
  case lo => exact next_onPage hr rfl
  case hi => exact next_onPage hr (bankPwrSt_hi htake)
  case enable => exact next_onPage hr (dramEnableSt_of_off hoff hrates)
  case trainFail => exact next_whileRuns hr (dramInitDoneSt_failed hinit c step)
  case trained => exact ⟨_, next_whileRuns hr rfl, dramInitDone_memc hinit, dramInitDone_trained hinit⟩
  case fire => exact congrArg Host.Outcome.next (freqChangeSt_of_good hen hfc ha hclk hop hgood)
  case go => exact next_onPage hr (fcGoSt_of_good hen hfc hv hgood)
  case fcDone =>
    obtain ⟨hmemc, hregs⟩ := fcAnswered_keeps (s := fcEnded ns s) ns b
    refine ⟨_, next_whileRuns hr (fcDoneSt_eq hfc hwait), ?_, fun hu ht => ?_⟩
    · rw [hmemc, (fcEnded_memc ns).1]
    · simp only [getReg_of_regs hregs]
      exact getReg_fcEnded hu ns ht
  case fcFail =>
    refine next_whileRuns hr ((fcFailSt_eq hfc hwait).trans ?_)
    cases b with
    | fire f => rfl
    | reg => rfl
  case postpone => exact congrArg Host.Outcome.next (dramRefreshSt_postponed hserves hn)
  case refresh => exact congrArg Host.Outcome.next (dramRefreshSt_allBanks hserves hall)
  case mr4Same => exact congrArg Host.Outcome.next ((mr4St_of_serves hserves).trans (if_pos hsame))
  case mr4New => exact congrArg Host.Outcome.next ((mr4St_of_serves hserves).trans (if_neg hnew))
  case dramScrub =>
    intro next
    have hscrub := dramScrubSt_of_serves rfl hserves hon hmore
    have hcfg (q i : Nat) : memCfg (incCnt (applyUpset u s) q i) = memCfg (applyUpset u s) := rfl
    have hmark (q i k : Nat) : getMark (incCnt (applyUpset u s) q i) k = getMark (applyUpset u s) k := rfl
    refine ⟨fun h => congrArg Host.Outcome.next (hscrub.trans (congrArg next ?_)),
      fun hecc hce => congrArg Host.Outcome.next (hscrub.trans (congrArg next ?_)),
      fun hecc hue => congrArg Host.Outcome.next (hscrub.trans (congrArg next ?_))⟩
    · unfold scrubChecked
      obtain h | h := h
      · rw [hcfg, h]
        rfl
      · simp only [hmark, h, ite_self]
    · unfold scrubChecked
      simp only [hcfg, hecc, hmark, hce]
      rfl
    · unfold scrubChecked
      simp only [hcfg, hecc, hmark, hue]
      rfl
  case close => exact next_whileRuns hr rfl

end Sys2Proof.Machine

/-! The commands of a serial lane (R663–R685). -/

namespace Sys2Proof.Machine

theorem lnReg_setLn {s : State} (hup : kup s.regs = true) (p l off : Nat) (v : Word) : lnReg (setLn s p l off v) p l off = v :=
  getReg_setReg _ _ _ _ hup

/-- The taps of TX_TAPS as R666 composes it. -/
theorem taps_of_tapsWord {pre post : Nat} (hok : tapsOk pre post = true) :
    (bits (tapsWord pre post) 3 0, bits (tapsWord pre post) 12 8) = (pre, post) := by
  obtain ⟨hpre, hpost, -⟩ : pre ≤ 15 ∧ post ≤ 24 ∧ pre + post ≤ 25 := of_decide_eq_true hok
  rw [tapsWord, bits_w32 (by decide) (by decide), bits_w32 (by decide) (by decide)]
  exact Prod.ext (by omega) (by omega)

/-- R681: in phase 2 a PCIe lane takes the coefficients that R666 allows, where the keys of `regs` rise. -/
theorem tapsOf_eqTsSt_of_allowed {s : State} {p l : Nat} {m : EqTs} (hup : kup s.regs = true)
    (hkind : pageKind p = some .plane) (hpower : lnPower s p l = 0) (hphase : m.ec = 2) (hown : m.usePreset = false)
    (hsum : m.pre.toNat + m.cursor.toNat + m.post.toNat = 63) (hok : tapsOk m.pre.toNat m.post.toNat = true) :
    tapsOf (eqTsSt p l m s) p l = (m.pre.toNat, m.post.toNat) := by
  have hregs : (eqTsSt p l m s).regs = (setLn s p l 0x08 (tapsWord m.pre.toNat m.post.toNat)).regs := by
    unfold eqTsSt
    rw [if_neg (by simp [hkind, hpower])]
    simp only [hphase, hown, hsum, hok]
    rfl
  have hread : lnReg (eqTsSt p l m s) p l 0x08 = tapsWord m.pre.toNat m.post.toNat :=
    (getReg_of_regs hregs _ _).trans (lnReg_setLn hup p l 0x08 _)
  unfold tapsOf
  rw [hread]
  exact taps_of_tapsWord hok

/-- The domains are ON; lane 0 of the first PCIe lane page is in P0 with C_PRE 1, and TX_TAPS stands after the register of another
page in `regs`. -/
def tapsOutOfOrder : State :=
  { coresOn with regs := [(rkey 0x131 0x208 0, 0), (rkey 0x130 0x208 0, 0x3E000001), (rkey 0x130 0x204 0, 0)] }

/-- The host asks in phase 2 for C_PRE 0 and C_POST 0. -/
def askNoTaps : EqTs := ⟨2, false, 0, 0, 63, 0, false⟩

/-- `kset` finds no place for the reset value and leaves C_PRE as it was. -/
theorem tapsOf_tapsOutOfOrder : tapsOf (whileRuns 0x130 (eqTsSt 0x130 0 askNoTaps) tapsOutOfOrder) 0x130 0 = (1, 0) := by
  decide

/-- Refutes O47: the clause of phase 2 lacks the premise `kup s.regs`, with which it holds (`tapsOf_eqTsSt_of_allowed`). In a state
whose `regs` has a key out of order, C_PRE stays at 1 though the host asks for 0. -/
theorem not_laneCommandsComplete : ¬ Obligations.LaneCommandsComplete := by
  intro h
  obtain ⟨-, -, -, -, -, -, hclause⟩ := h 0x130 0 tapsOutOfOrder (by decide)
  obtain ⟨-, -, hphase, -⟩ := hclause 0 rfl (by decide)
  obtain ⟨t, hexec, -, htaps, -⟩ := hphase askNoTaps (by decide) (by decide) rfl rfl
  have hstate : whileRuns 0x130 (eqTsSt 0x130 0 askNoTaps) tapsOutOfOrder = t := Host.Outcome.next.inj hexec
  subst hstate
  obtain ⟨hasked, -⟩ := htaps ⟨by decide, by decide⟩
  exact absurd (tapsOf_tapsOutOfOrder.symm.trans hasked) (by decide)

end Sys2Proof.Machine

/-! The commands of the Cuwick link (R690–R702). -/

namespace Sys2Proof.Machine

/-! ### The handshake -/

/-- A lane whose search begins at time `now` (R679). -/
def searching (x : LaneSt) (now : Nat) : LaneSt :=
  { x with search := some ⟨0, 0, 0, 0, false, false⟩, passed := none, reqPre := 0, reqPost := 0, stsPre := 0, stsPost := 0,
           peerDone := false, began := now }

/-- A Cuwick lane under training, at its preset (R677). -/
def laneTraining (p l : Nat) (s : State) : State := lnSts (laneStart p l s) p l 20 20 1

/-- A search begins on a Cuwick lane (R677, R679). -/
def beginSearch (p l : Nat) (s : State) : State :=
  laneSend p l (setLane (laneTraining p l s) p l (searching (laneOf (laneTraining p l s) p l) (laneTraining p l s).time.free))

/-- A search begins on Cuwick lane `j`. -/
def startSearch (s : State) (j : Nat) : State := beginSearch (klane j).1 (klane j).2 s

/-- The turn of lane `j`, where CUW_CFG.LANE_EN has it. -/
def laneTurn (s : State) (j : Nat) : State := if cuwLaneEn s j then startSearch s j else s

theorem pageKind_klane : ∀ j < 16, pageKind (klane j).1 = some .klane := by decide

theorem laneOf_setLane_ne {p l q m : Nat} (h : q * 4 + m ≠ p * 4 + l) (s : State) (x : LaneSt) :
    laneOf (setLane s p l x) q m = laneOf s q m := kget_kset_ne _ _ _ _ _ _ h

theorem laneOf_laneSend_ne {p l q m : Nat} (h : q * 4 + m ≠ p * 4 + l) (s : State) :
    laneOf (laneSend p l s) q m = laneOf s q m := by
  unfold laneSend
  split <;> exact laneOf_setLane_ne h _ _

theorem klane_key (j : Nat) : (klane j).1 * 4 + (klane j).2 = 0x4D0 + j := by
  simp only [klane]
  omega

theorem laneOf_setLn (s : State) (p l off q m : Nat) (v : Word) : laneOf (setLn s p l off v) q m = laneOf s q m := rfl

theorem laneOf_lnSts (s : State) (p l hi lo v q m : Nat) : laneOf (lnSts s p l hi lo v) q m = laneOf s q m := rfl

theorem laneOf_laneTraining_ne {p l q m : Nat} (h : q * 4 + m ≠ p * 4 + l) (s : State) :
    laneOf (laneTraining p l s) q m = laneOf s q m := by
  unfold laneTraining laneStart
  dsimp only
  rw [laneOf_lnSts, laneOf_setLane_ne h, laneOf_lnSts, laneOf_setLn, laneOf_setLn]

theorem laneOf_startSearch_ne {j k : Nat} (h : k ≠ j) (s : State) :
    laneOf (startSearch s k) (klane j).1 (klane j).2 = laneOf s (klane j).1 (klane j).2 := by
  have hkey : (klane j).1 * 4 + (klane j).2 ≠ (klane k).1 * 4 + (klane k).2 := by
    rw [klane_key, klane_key]
    omega
  rw [startSearch, beginSearch, laneOf_laneSend_ne hkey, laneOf_setLane_ne hkey, laneOf_laneTraining_ne hkey]

theorem laneTraining_time (p l : Nat) (s : State) : (laneTraining p l s).time = s.time := rfl

theorem laneTraining_cuw (p l : Nat) (s : State) : (laneTraining p l s).cuw = s.cuw := rfl

theorem beginSearch_time (p l : Nat) (s : State) : (beginSearch p l s).time = s.time := by
  have hset (u : State) (x : LaneSt) : (setLane u p l x).time = u.time := rfl
  rw [beginSearch, (laneSend_to (Nat.or_self _) (.refl _ _)).time rfl, hset, laneTraining_time]

theorem beginSearch_cuw (p l : Nat) (s : State) : (beginSearch p l s).cuw = s.cuw := by
  have hset (u : State) (x : LaneSt) : (setLane u p l x).cuw = u.cuw := rfl
  rw [beginSearch, (laneSend_to (Nat.or_self _) (.refl _ _)).cuw rfl, hset, laneTraining_cuw]

/-- A register of a lane page stored leaves the link's own page. -/
theorem cuwReg_setLn {p l off o : Nat} (hp : p ≠ 0x00A) (hl : l < 4) (hoff : off < 0x40) (ho : o < 4096) (s : State) (v : Word) :
    getReg (setLn s p l off v) 0x00A o = getReg s 0x00A o := getReg_setReg_page (Ne.symm hp) ho (by omega) s v

theorem cuwReg_laneTraining {p l o : Nat} (hp : p ≠ 0x00A) (hl : l < 4) (ho : o < 4096) (s : State) :
    getReg (laneTraining p l s) 0x00A o = getReg s 0x00A o := by
  have hset (u : State) (x : LaneSt) : getReg (setLane u p l x) 0x00A o = getReg u 0x00A o := rfl
  unfold laneTraining laneStart lnSts
  dsimp only
  rw [cuwReg_setLn hp hl (by decide) ho, hset, cuwReg_setLn hp hl (by decide) ho, cuwReg_setLn hp hl (by decide) ho,
    cuwReg_setLn hp hl (by decide) ho]

theorem cuwReg_beginSearch {p l o : Nat} (hp : p ≠ 0x00A) (hl : l < 4) (ho : o < 4096) (s : State) :
    getReg (beginSearch p l s) 0x00A o = getReg s 0x00A o := by
  have hset (u : State) (x : LaneSt) : getReg (setLane u p l x) 0x00A o = getReg u 0x00A o := rfl
  rw [beginSearch, getReg_of_regs ((laneSend_to (Nat.or_self _) (.refl _ _)).regs rfl), hset, cuwReg_laneTraining hp hl ho]

theorem cuwReg_startSearch (s : State) (j : Nat) {o : Nat} (ho : o < 4096) :
    getReg (startSearch s j) 0x00A o = getReg s 0x00A o := by
  have hp : (klane j).1 ≠ 0x00A := by
    simp only [klane]
    omega
  exact cuwReg_beginSearch hp (Nat.mod_lt _ (by decide)) ho s

theorem cuwLaneEn_laneTurn (s : State) (i j : Nat) : cuwLaneEn (laneTurn s i) j = cuwLaneEn s j := by
  unfold laneTurn
  split
  · unfold cuwLaneEn
    rw [cuwReg_startSearch _ _ (by decide)]
  · rfl

theorem laneTurn_time (s : State) (j : Nat) : (laneTurn s j).time = s.time := by
  unfold laneTurn
  split
  · exact beginSearch_time _ _ s
  · rfl

theorem foldl_laneTurn_cuw (l : List Nat) (s : State) : (l.foldl laneTurn s).cuw = s.cuw := by
  induction l generalizing s with
  | nil => rfl
  | cons j l ih =>
    refine (ih _).trans ?_
    unfold laneTurn
    split
    · exact beginSearch_cuw _ _ s
    · rfl

/-- The lane's search, and the time it began. -/
def searchOf (j : Nat) (s : State) : Option TapSearch × Nat :=
  ((laneOf s (klane j).1 (klane j).2).search, (laneOf s (klane j).1 (klane j).2).began)

theorem search_laneSend {p l : Nat} (hkind : pageKind p ≠ some .plane) (s : State) {x : LaneSt} (hx : x.search ≠ none) :
    (laneOf (laneSend p l (setLane s p l x)) p l).search = x.search ∧
      (laneOf (laneSend p l (setLane s p l x)) p l).began = x.began := by
  have hinit (c : BitVec 64) : { x with cw := c } ≠ LaneSt.init := fun h => hx (congrArg LaneSt.search h)
  have hread (u : State) (c : BitVec 64) : laneOf (setLane u p l { x with cw := c }) p l = { x with cw := c } :=
    kget_kset_of_ne _ _ _ _ (hinit c)
  have hx : laneOf (setLane s p l x) p l = x := hread s x.cw
  unfold laneSend
  rw [if_neg hkind, hx, hread]
  exact ⟨rfl, rfl⟩

theorem search_beginSearch {p l : Nat} (hkind : pageKind p ≠ some .plane) (s : State) :
    (laneOf (beginSearch p l s) p l).search = some ⟨0, 0, 0, 0, false, false⟩ ∧
      (laneOf (beginSearch p l s) p l).began = s.time.free := by
  obtain ⟨hsearch, hbegan⟩ := search_laneSend (l := l) hkind (laneTraining p l s)
    (x := searching (laneOf (laneTraining p l s) p l) (laneTraining p l s).time.free) (Option.some_ne_none _)
  exact ⟨hsearch, hbegan⟩

theorem searchOf_startSearch {j : Nat} (hj : j < 16) (s : State) :
    searchOf j (startSearch s j) = (some ⟨0, 0, 0, 0, false, false⟩, s.time.free) := by
  have hkind : pageKind (klane j).1 ≠ some .plane := by
    rw [pageKind_klane j hj]
    decide
  obtain ⟨hsearch, hbegan⟩ := search_beginSearch (l := (klane j).2) hkind s
  exact Prod.ext hsearch hbegan

/-- The search of every enabled lane has begun once the lanes have had their turns. -/
theorem searchOf_foldl_laneTurn {j : Nat} (hj : j < 16) {s : State} (hen : cuwLaneEn s j = true) :
    searchOf j ((List.range 16).foldl laneTurn s) = (some ⟨0, 0, 0, 0, false, false⟩, s.time.free) := by
  obtain ⟨u, ⟨hu, htime⟩, -, hlast⟩ := foldl_own_turn (obs := searchOf j) (g := laneTurn)
    (inv := fun u => cuwLaneEn u j = true ∧ u.time = s.time) (List.mem_range.mpr hj) List.nodup_range
    (fun u k hk => by
      unfold laneTurn
      split
      · unfold searchOf
        rw [laneOf_startSearch_ne hk]
      · rfl)
    (fun u k ⟨hu, ht⟩ => ⟨(cuwLaneEn_laneTurn u k j).trans hu, (laneTurn_time u k).trans ht⟩) ⟨hen, rfl⟩
  rw [hlast, laneTurn, if_pos hu, searchOf_startSearch hj, htime]

/-- The rate that a handshake agrees on (R690). -/
def agreedRate (s : State) (peer : CuwPeer) (r : Nat) : Nat :=
  let mine := match bits (getReg s 0x00A 0x100) 25 24 with | 3 => 1 | n => n
  if peer.part = 0x2128 then max 1 (max mine r) else max mine r

theorem agreedRate_eq (s : State) (peer : CuwPeer) (r : Nat) :
    agreedRate s peer r = max (if peer.part = 0x2128 then 1 else 0)
      (max (if bits (getReg s 0x00A 0x100) 25 24 = 3 then 1 else bits (getReg s 0x00A 0x100) 25 24) r) := by
  have hmine : (match bits (getReg s 0x00A 0x100) 25 24 with | 3 => 1 | n => n) =
      if bits (getReg s 0x00A 0x100) 25 24 = 3 then 1 else bits (getReg s 0x00A 0x100) 25 24 := by
    split <;> simp_all
  unfold agreedRate
  rw [hmine]
  by_cases hpart : peer.part = 0x2128
  · simp only [if_pos hpart]
  · simp only [if_neg hpart, Nat.zero_max]

/-- The link in training at the rate agreed on, before its lanes have had their turns. -/
def rateAgreed (s : State) (peer : CuwPeer) (r : Nat) : State :=
  { s with cuw := { s.cuw with st := 2, rate := agreedRate s peer r, peer := some peer } }

theorem handshakeSt_of_rate {peer : CuwPeer} {s : State} {r : Fin 3} (hst : s.cuw.st = 1) (hrate : peer.rate = some r) :
    handshakeSt peer s = (List.range 16).foldl laneTurn (rateAgreed s peer r) := by
  unfold handshakeSt
  rw [if_neg (not_not_intro hst)]
  simp only [hrate]
  have hturn : (fun (u : State) (j : Nat) => if (!cuwLaneEn u j) = true then u else startSearch u j) = laneTurn := by
    funext u j
    unfold laneTurn
    cases cuwLaneEn u j <;> rfl
  exact congrArg (fun g => List.foldl g (rateAgreed s peer r) (List.range 16)) hturn

theorem handshake_rateAgreed (s : State) (peer : CuwPeer) (r : Nat) :
    let t := (List.range 16).foldl laneTurn (rateAgreed s peer r)
    t.cuw.st = 2 ∧
      t.cuw.rate = max (if peer.part = 0x2128 then 1 else 0)
        (max (if bits (getReg s 0x00A 0x100) 25 24 = 3 then 1 else bits (getReg s 0x00A 0x100) 25 24) r) ∧
      t.cuw.peer = some peer ∧
      ∀ j < 16, cuwLaneEn s j = true →
        (laneOf t (klane j).1 (klane j).2).search = some ⟨0, 0, 0, 0, false, false⟩ ∧
          (laneOf t (klane j).1 (klane j).2).began = s.time.free := by
  have hen (j : Nat) : cuwLaneEn (rateAgreed s peer r) j = cuwLaneEn s j := rfl
  have htime : (rateAgreed s peer r).time = s.time := rfl
  intro t
  have hcuw : t.cuw = (rateAgreed s peer r).cuw := foldl_laneTurn_cuw _ _
  refine ⟨congrArg CuwSt.st hcuw, (congrArg CuwSt.rate hcuw).trans (agreedRate_eq s peer r), congrArg CuwSt.peer hcuw, ?_⟩
  intro j hj hlane
  have hsearch := searchOf_foldl_laneTurn hj ((hen j).trans hlane)
  rw [htime] at hsearch
  exact Prod.ext_iff.mp hsearch

theorem cuwDown_cuw (s : State) (cls code : Nat) :
    (cuwDown s cls code).cuw = { s.cuw with st := 0, txLanes := 0, rxLanes := 0 } := by
  unfold cuwDown
  dsimp only
  rw [(ownErr_to (Nat.or_self _) (.refl _ _)).cuw rfl, (setEvt_to (Nat.or_self _) (.refl _ _)).cuw rfl]

theorem handshakeSt_of_noRate {peer : CuwPeer} {s : State} (hst : s.cuw.st = 1) (hr : peer.rate = none) :
    handshakeSt peer s = cuwDown s 6 0x05 := by
  unfold handshakeSt
  rw [if_neg (not_not_intro hst)]
  simp only [hr]

/-! ### The link comes up -/

theorem ofNat_bits_of_allSet {w : Word} (h : ∀ j < 16, bit w j = true) : BitVec.ofNat 16 (bits w 15 0) = 0xFFFF := by
  refine BitVec.eq_of_getLsbD_eq fun i hi => ?_
  rw [BitVec.getLsbD_ofNat, testBit_bits]
  have hones : (0xFFFF : BitVec 16).getLsbD i = true := (by decide : ∀ i < 16, (0xFFFF : BitVec 16).getLsbD i = true) i hi
  rw [hones, Nat.zero_add, show w.getLsbD i = true from h i hi]
  simp [hi]

theorem linkUpSt_of_allPassed {s : State} (hst : s.cuw.st = 2)
    (hall : ∀ j < 16, bit (lnReg s (klane j).1 (klane j).2 0x04) 20 = false ∧ cuwLaneEn s j = true ∧
      (laneOf s (klane j).1 (klane j).2).passed = some true) :
    linkUpSt 0xFFFF s = setEvt { s with cuw := { s.cuw with st := 3, txLanes := 0xFFFF, rxLanes := 0xFFFF } } 0x00A 0 := by
  have hstill : ((List.range 16).any fun j => bit (lnReg s (klane j).1 (klane j).2 0x04) 20) = false := by
    refine List.any_eq_false.mpr fun j hj => ?_
    rw [(hall j (List.mem_range.mp hj)).1]
    exact Bool.false_ne_true
  have hrx : ((List.range 16).map fun j =>
      if cuwLaneEn s j ∧ (laneOf s (klane j).1 (klane j).2).passed = some true then 2 ^ j else 0).sum = 0xFFFF := by
    rw [List.map_congr_left fun j hj => if_pos (hall j (List.mem_range.mp hj)).2]
    rfl
  have hen : BitVec.ofNat 16 (bits (getReg s 0x00A 0x100) 15 0) = 0xFFFF := ofNat_bits_of_allSet fun j hj => (hall j hj).2.1
  have hwide (b : Bool) : widest 0xFFFF b = 0xFFFF := rfl
  unfold linkUpSt
  dsimp only
  rw [hstill, if_neg (by simp [hst]), hrx, hen]
  rfl

/-! ### Frames -/

theorem cuwFrameSt_of_idle {b : List Byte} {s : State} (hst : s.cuw.st = 3) (hlen : b.length = 144)
    (hcrc : wordAt b 35 = (csumRun 2 (0xFFFFFFFF, false) (b.take 140)).1 ^^^ 0xFFFFFFFF)
    (htyp : ofLe ((b.drop 128).take 2) / 4096 = 0) :
    cuwFrameSt b s = cuwReply s.cuw.out.length (cuwAck (ofLe ((b.drop 130).take 2))
      ((List.range 4).map fun t => ((b.drop (132 + t)).take 1).foldl (fun _ x => x.toNat) 0) s) := by
  unfold cuwFrameSt cuwTake
  rw [if_neg (not_not_intro hst)]
  dsimp only
  rw [if_neg (by simp [hlen, hcrc]), htyp, if_neg (by decide), if_pos rfl]

theorem cuwFrameSt_of_flit {b : List Byte} {s s1 : State} (hst : s.cuw.st = 3) (hon : enabled s 0x00A = true) (hlen : b.length = 144)
    (hcrc : wordAt b 35 = (csumRun 2 (0xFFFFFFFF, false) (b.take 140)).1 ^^^ 0xFFFFFFFF)
    (htyp : ofLe ((b.drop 128).take 2) / 4096 = 1)
    (hack : cuwAck (ofLe ((b.drop 130).take 2))
      ((List.range 4).map fun t => ((b.drop (132 + t)).take 1).foldl (fun _ x => x.toNat) 0) s = s1)
    (hseq : ofLe ((b.drop 128).take 2) % 4096 = (s1.cuw.rxLast + 1) % 4096) :
    cuwFrameSt b s = cuwReply s.cuw.out.length (cuwDeliver (b.take 128) (incCnt { s1 with cuw := { s1.cuw with
      rxLast := ofLe ((b.drop 128).take 2) % 4096, episode := false, nak := false,
      took := setAt s1.cuw.took (flitBits (b.take 16) 112 110 - 1)
        (((s1.cuw.took[flitBits (b.take 16) 112 110 - 1]?).getD 0 + 1) % 256) } } 0x00A 1)) := by
  have hon1 : enabled s1 0x00A = true := by
    rw [← hon, ← hack, enabled, enabled, getReg_of_regs ((cuwAck_to (Nat.or_self _) (.refl _ _)).regs rfl)]
  unfold cuwFrameSt cuwTake
  rw [if_neg (not_not_intro hst)]
  dsimp only
  rw [if_neg (by simp [hlen, hcrc]), htyp, if_neg (by decide), if_neg (by decide), hack, if_neg (by simp [hseq, hon1])]

/-- A bad frame is counted and captured (R695). -/
def badFrame (s : State) : State := ownErr (setEvt (incCnt s 0x00A 5) 0x00A 4) 0x00A 4 0x01 none

theorem badFrame_cuw (s : State) : (badFrame s).cuw = s.cuw :=
  ((ownErr_to (Nat.or_self _) (.refl _ _)).cuw rfl).trans ((setEvt_to (Nat.or_self _) (.refl _ _)).cuw rfl)

theorem badFrame_cnt (s : State) : (badFrame s).cnt = (incCnt s 0x00A 5).cnt :=
  ((ownErr_to (Nat.or_self _) (.refl _ _)).cnt rfl).trans ((setEvt_to (Nat.or_self _) (.refl _ _)).cnt rfl)

theorem enabled_badFrame (s : State) : enabled (badFrame s) 0x00A = enabled s 0x00A :=
  (enabled_ownErr _ _ _ _ _ _).trans (enabled_setEvt _ _ _ _)

/-- What a bad frame leaves before the link's answer (R695). -/
def frameRefused (s : State) : State :=
  incCnt { badFrame s with cuw := { (badFrame s).cuw with episode := true, nak := true } } 0x00A 3

theorem frameRefused_cuw (s : State) : (frameRefused s).cuw = { s.cuw with episode := true, nak := true } :=
  congrArg (fun c : CuwSt => { c with episode := true, nak := true }) (badFrame_cuw s)

theorem enabled_frameRefused (s : State) : enabled (frameRefused s) 0x00A = enabled s 0x00A := enabled_badFrame s

theorem cuwReply_of_idle {n : Nat} {s : State} (hst : s.cuw.st = 3) (hout : s.cuw.out.length = n) (hon : enabled s 0x00A = true) :
    cuwReply n s = frameOut 0 0 [] s := by
  have hon1 : enabled (frameOut 0 0 [] s) 0x00A = true := hon
  unfold cuwReply
  rw [if_pos ⟨hst, hout⟩, cuwSettle, hon1]
  rfl

theorem cuwFrameSt_of_bad {b : List Byte} {s : State} (hst : s.cuw.st = 3) (hon : enabled s 0x00A = true)
    (hbad : b.length ≠ 144 ∨ wordAt b 35 ≠ (csumRun 2 (0xFFFFFFFF, false) (b.take 140)).1 ^^^ 0xFFFFFFFF)
    (hepisode : s.cuw.episode = false) : cuwFrameSt b s = frameOut 0 0 [] (frameRefused s) := by
  have hcuw := frameRefused_cuw s
  have hepisode1 : (badFrame s).cuw.episode = false := by
    rw [badFrame_cuw]
    exact hepisode
  have htake : cuwTake b s = frameRefused s := by
    unfold cuwTake
    rw [if_neg (not_not_intro hst)]
    dsimp only
    rw [if_pos hbad, ← badFrame.eq_1, hepisode1, if_neg Bool.false_ne_true, ← frameRefused.eq_1]
  rw [cuwFrameSt, htake]
  exact cuwReply_of_idle (by rw [hcuw]; exact hst) (by rw [hcuw]) ((enabled_frameRefused s).trans hon)

theorem getCnt_frameRefused {s : State} (hup : kup s.cnt = true) :
    getCnt (frameOut 0 0 [] (frameRefused s)) 0x00A 5 = getCnt s 0x00A 5 + 1 ∧
      getCnt (frameOut 0 0 [] (frameRefused s)) 0x00A 3 = getCnt s 0x00A 3 + 1 := by
  have hcuw (u : State) (c : CuwSt) (i : Nat) : getCnt { u with cuw := c } 0x00A i = getCnt u 0x00A i := rfl
  have hkeep (u : State) (c : CuwSt) : ({ u with cuw := c } : State).cnt = u.cnt := rfl
  have hread (i : Nat) : getCnt (badFrame s) 0x00A i = getCnt (incCnt s 0x00A 5) 0x00A i := by
    rw [getCnt, badFrame_cnt, getCnt]
  have hup1 : kup (badFrame s).cnt = true := by
    rw [badFrame_cnt]
    exact kup_kset _ _ _ _ hup
  have hone : w32 1 = 1 := rfl
  have hout (u : State) (i : Nat) : getCnt (frameOut 0 0 [] u) 0x00A i = getCnt u 0x00A i := rfl
  constructor
  · rw [hout, frameRefused, incCnt, getCnt_addCnt_ne _ _ _ _ _ _ (by decide), hcuw, hread, incCnt, getCnt_addCnt _ _ _ _ hup, hone]
  · rw [hout, frameRefused, incCnt, getCnt_addCnt _ _ _ _ (by rw [hkeep]; exact hup1), hcuw, hread, incCnt,
      getCnt_addCnt_ne _ _ _ _ _ _ (by decide), hone]

/-- The link answers a bad frame with a NAK. -/
theorem answered_cuw (s : State) : (frameOut 0 0 [] (frameRefused s)).cuw = { s.cuw with
    episode := true, nak := false,
    out := s.cuw.out ++ [frameBytes { s.cuw with episode := true, nak := true } 0 0 []] } := by
  unfold frameOut
  rw [frameRefused_cuw]

/-! ### Retraining and recovery -/

theorem cuwRetrain_of_enabled {s : State} (hon : enabled s 0x00A = true) : cuwRetrain s = cuwHandshake (incCnt s 0x00A 6) := if_pos hon

theorem recoverySt_of_limit {s : State} (hst : s.cuw.st = 3)
    (hlim : ∃ f ∈ s.cuw.replay, max 1 (bits (getReg s 0x00A 0x114) 3 0) ≤ f.reps) :
    recoverySt s = incCnt { s with cuw := { s.cuw with st := 4 } } 0x00A 4 := by
  obtain ⟨f, hf, hle⟩ := hlim
  exact if_pos ⟨hst, List.any_eq_true.mpr ⟨f, hf, decide_eq_true hle⟩⟩

theorem recoveryDoneSt_of_ok {s : State} (hst : s.cuw.st = 4) :
    recoveryDoneSt true s = cuwPump (s.cuw.waiting.length + 1)
      (setEvt { s with cuw := { s.cuw with st := 3, replay := s.cuw.replay.map fun f => { f with reps := 0 } } } 0x00A 2) := by
  unfold recoveryDoneSt
  rw [if_neg (not_not_intro hst)]
  rfl

/-- Settles O48: each clause from the lemma about its own command; the handshake by the turn of each enabled lane. -/
theorem cuwickCommandsComplete : Obligations.CuwickCommandsComplete := by
  intro s
  refine ⟨fun a hr hon => next_onPage hr (cuwRetrain_of_enabled hon), ?autoRetry, ?handshake,
    fun hst hr hall => next_whileRuns hr (linkUpSt_of_allPassed hst hall), ?frame,
    fun hst hr hlim => next_whileRuns hr (recoverySt_of_limit hst hlim), fun hst hr => next_whileRuns hr (recoveryDoneSt_of_ok hst)⟩
  case autoRetry =>
    intro hon hr hst hauto hsince
    exact next_whileRuns hr ((if_pos ⟨hst, hauto, hsince⟩).trans (cuwRetrain_of_enabled hon))
  case handshake =>
    intro peer hst hr
    refine ⟨fun hnone => ⟨_, next_whileRuns hr (handshakeSt_of_noRate hst hnone), cuwDown_cuw s 6 0x05⟩, fun r hrate => ?_⟩
    obtain ⟨hst2, hrate2, hpeer2, hlanes⟩ := handshake_rateAgreed s peer r
    exact ⟨_, next_whileRuns hr (handshakeSt_of_rate hst hrate), hst2, hpeer2, hrate2, hlanes⟩
  case frame =>
    intro b hst hon hr
    refine ⟨fun hlen hcrc htyp => next_whileRuns hr (cuwFrameSt_of_idle hst hlen hcrc htyp), ?flit, ?bad⟩
    case flit =>
      intro hlen hcrc htyp hseq
      exact next_whileRuns hr (cuwFrameSt_of_flit hst hon hlen hcrc htyp rfl hseq)
    case bad =>
      intro hbad hepisode
      exact ⟨_, next_whileRuns hr (cuwFrameSt_of_bad hst hon hbad hepisode), answered_cuw s, getCnt_frameRefused⟩

end Sys2Proof.Machine

/-! The packet engine (R703–R723). -/

namespace Sys2Proof.Machine

/-! ### Writes of memory that are no word of a register page -/

/-- Only a word can be a write to a register page (R46). -/
theorem pageWordAt_of_length {data : List (Option Byte)} (h : data.length ≠ 4) (s : State) (a : Nat) : pageWordAt s a data = false := by
  unfold pageWordAt
  split
  · rw [decide_eq_false h]
    rfl
  · rfl

/-- A write of any other length leaves the fabric. -/
theorem memWriteEn_fab {data : List (Option Byte)} (h : data.length ≠ 4) (s : State) (src a : Nat) :
    (memWriteEn s src a data).1.fab = s.fab := by
  have hs : To 1188082 s s := .refl _ s
  refine To.fab (T := 1188082) ?_ rfl
  unfold memWriteEn
  rw [pageWordAt_of_length h, if_neg Bool.false_ne_true]
  split
  · exact hs
  · cases hblocked : memBlocked s src a data.length with
    | some r => exact memBlocked_to (by decide) hs r hblocked
    | none =>
      dsimp only
      split
      · refine To.foldl_fst _ (fun p g hp => ?_) hs
        exact writeDramBlock_to (by decide) hp
      · exact putHost_to (by decide) hs
      · have hwords (k : Nat) (l : List Nat) : To 1188082 s (l.foldl
            (fun acc g => let x := writeArrayWord k data g acc.1; (x.1, acc.2 || x.2)) (s, false)).1 := by
          refine To.foldl_fst _ (fun p g hp => ?_) hs
          exact writeArrayWord_to (by decide) hp
        dsimp only
        split
        · exact incCnt_to (by decide) (hwords _ _)
        · exact hwords _ _

theorem memPut_fab {data : List Byte} (h : data.length ≠ 4) (s : State) (src a : Nat) : (memPut s src a data).fab = s.fab :=
  memWriteEn_fab (by simpa using h) s src a

/-! ### Receive -/

theorem bit_port_mode {s : State} (h : portMode s = 1) : bit (getReg s 0x008 0x100) 0 = true := by
  have hbit : (bits (getReg s 0x008 0x100) 0 0).testBit 0 = true := by
    rw [show bits (getReg s 0x008 0x100) 0 0 = 1 from h]
    rfl
  rwa [testBit_bits] at hbit

/-- A frame is acted on as a whole, or each eCPRI message of it for itself (R709). -/
def frameStep (p : Nat) (b : List Byte) (e : EthView) (pay : Option (List Byte)) (s : State) : State :=
  match pay with
  | none => flowStep p b e none s
  | some pay =>
    if (Config.ecpri pay).isEmpty then flowStep p b e none s
    else (Config.ecpri pay).foldl (fun s m => if 8 ≤ m.typ then unsupported s else flowStep p b e (some m) s) s

/-- A good frame that is not a PAUSE frame is counted and classified (R704, R707). -/
theorem frameReceiveSt_of_good {p : Nat} {b : List Byte} {s : State} (hon : enabled s 0x008 = true) (hpage : pageOn s 0x008 = true)
    (hport : bit (getReg s 0x008 0x104) p = true) (hmode : 8 ≤ p → portMode s = 1) (hmin : 60 ≤ b.length) (hmax : b.length ≤ 9596)
    (hpause : ¬((ethView b).etype = 0x8808 ∧ (beAt (ethView b).pay 0 2 = 1 ∨ beAt (ethView b).pay 0 2 = 0x0101))) :
    frameReceiveSt p b true s =
      frameStep p b (ethView b) (ecpriPay (incCnt s 0x008 0) p (ethView b)) (incCnt s 0x008 0) := by
  have hlane : ¬(8 ≤ p ∧ (!bit (getReg s 0x008 0x100) 0) = true) := fun ⟨h8, hoff⟩ => by
    rw [bit_port_mode (hmode h8)] at hoff
    exact Bool.false_ne_true hoff
  unfold frameReceiveSt
  have hlen : ¬((!true) = true ∨ b.length + 4 < 64 ∨ 9600 < b.length + 4) := by
    rw [Bool.not_true, or_iff_right Bool.false_ne_true]
    omega
  rw [if_neg (by simp only [hpage, hon, hport, hlane]; decide), if_neg hlen]
  dsimp only
  rw [if_neg hpause]
  cases ecpriPay (incCnt s 0x008 0) p (ethView b) <;> rfl

theorem flowStep_of_none {p : Nat} {b : List Byte} {e : EthView} {s : State} (h : flowFind s p e none = none) :
    flowStep p b e none s = rxDeliver (bits (getReg s 0x008 0x12C) 3 0) p 0 false b (incCnt s 0x008 4) := by
  unfold flowStep
  simp only [Option.map_none, h]

theorem flowStep_of_unmetered {p n : Nat} {c : List Word} {b : List Byte} {e : EthView} {s : State}
    (h : flowFind s p e none = some (n, c)) (hmeter : bit (wWord c 18) 12 = false) :
    flowStep p b e none s = flowAct n p c b none s := by
  unfold flowStep
  simp only [Option.map_none, h, hmeter, Bool.false_eq_true, if_false]

theorem flowStep_of_metered {p n k : Nat} {c : List Word} {b : List Byte} {e : EthView} {s u : State}
    (h : flowFind s p e none = some (n, c)) (hmeter : bit (wWord c 18) 12 = true)
    (hcolour : meterColour (bits (wWord c 18) 11 0) (b.length + 4) s = (k, u)) :
    flowStep p b e none s = if k = 2 then incCnt u 0x008 5 else flowAct n p c b none u := by
  unfold flowStep
  simp only [Option.map_none, h, hmeter, if_true, hcolour]

theorem flowLoadSt_of_read {v : Word} {s u : State} {d : List Byte} (hload : bit v 31 = true)
    (hread : memRead s 0x008 (getPair s 0x008 0x114 19 % 2 ^ 48 + bits v 11 0 * 128) 128 = (u, .ok, d))
    (hclass : flowClass ((List.range 32).map (wordAt d)) < 7) :
    flowLoadSt v s = modPkt (setReg u 0x008 0x120 (w32 (bits v 11 0))) fun p =>
      { p with flows := kset [] p.flows (bits v 11 0) ((List.range 32).map (wordAt d)) } := by
  unfold flowLoadSt
  simp only [hload, hread, Bool.not_true, Bool.false_eq_true, if_false, if_neg (Nat.not_le.mpr hclass)]

/-! ### A window closes (R715) -/

/-- The PRBs of context `f` that have not come by the close of symbol `n`. -/
def missing (f n : Nat) (ws : List Word) (s : State) : List (Nat × Nat × Nat) :=
  let from_ := if kget 0 s.pkt.closed f = 0 then n - n % 14 else kget 0 s.pkt.closed f
  (List.range (n + 1 - from_)).flatMap fun y => (List.range (bits (wWord ws 1) 15 9)).flatMap fun i =>
    ((List.range (bits (wWord ws 1) 8 0)).filter fun k => !(kget [] s.pkt.written f).contains (from_ + y, i, k)).map
      fun k => (from_ + y, i, k)

/-- What is missing is zeroed, counted, and the window marked as closed. -/
def windowClosed (f n : Nat) (ws : List Word) (s : State) : State :=
  let miss := missing f n ws s
  let s1 := addCnt (miss.foldl (fun s (y, i, k) => memPut s 0x008 (fhPrb ws (y % 14) i k) (List.replicate 48 0)) s) 0x008 9 miss.length
  modPkt (if miss.isEmpty then s1 else setEvt s1 0x008 2) fun p =>
    { p with closed := kset 0 p.closed f (n + 1),
             written := kset [] p.written f ((kget [] s.pkt.written f).filter fun x => n < x.1) }

/-- The token of a window that closes. -/
def windowToken (n : Nat) (ws : List Word) (miss : Nat) : Token :=
  ⟨BitVec.ofNat 16 (bits (wWord ws 7) 31 16), BitVec.ofNat 16 (bits (wWord ws 7) 15 0 + n / 14 % 2 ^ bits (wWord ws 8) 2 0),
    BitVec.ofNat 2 (bits (wWord ws 8) 29 28), 0, 0, 0, BitVec.ofNat 64 (2 ^ 32 * wrapN 32 (airStart ws n) + miss)⟩

theorem winCloseSt_of_due {f n : Nat} {s v : State} {ws : List Word} (hon : enabled s 0x008 = true) (hsite : fronthaulOff s = false)
    (hctx : fhCtx f s = (v, some ws)) (hsym : bit (wWord ws 0) (n % 14) = true)
    (hdue : airStart ws n + signed 32 (wWord ws 5).toNat ≤ devNs v) (hopen : kget 0 v.pkt.closed f ≤ n) :
    winCloseSt f n s =
      sendTok (windowClosed f n ws v) 0x008 (bits (wWord ws 8) 25 24) (windowToken n ws (missing f n ws v).length) := by
  unfold winCloseSt
  rw [hon, hsite, if_neg (by decide), hctx]
  dsimp only
  have hclosing : ¬((!true) = true ∨ devNs v < airStart ws n + signed 32 (wWord ws 5).toNat ∨ n < kget 0 v.pkt.closed f) := by
    rw [Bool.not_true, or_iff_right Bool.false_ne_true]
    omega
  rw [hsym, if_neg hclosing]
  rfl

theorem windowClosed_fab (f n : Nat) (ws : List Word) (s : State) : (windowClosed f n ws s).fab = s.fab := by
  have hzero (l : List (Nat × Nat × Nat)) (u : State) :
      (l.foldl (fun s (y, i, k) => memPut s 0x008 (fhPrb ws (y % 14) i k) (List.replicate 48 0)) u).fab = u.fab := by
    induction l generalizing u with
    | nil => rfl
    | cons x l ih => exact (ih _).trans (memPut_fab (by simp) _ _ _)
  have hmod (u : State) (g : PktSt → PktSt) : (modPkt u g).fab = u.fab := rfl
  have hcond (c : Bool) (u : State) : (if c then u else setEvt u 0x008 2).fab = u.fab := by
    cases c <;> rfl
  unfold windowClosed
  dsimp only
  rw [hmod, hcond, addCnt_fab, hzero]

theorem closed_windowClosed (f n : Nat) (ws : List Word) (s : State) : kget 0 (windowClosed f n ws s).pkt.closed f = n + 1 :=
  kget_kset_of_ne _ _ _ _ (Nat.succ_ne_zero n)

/-! ### Jobs (R717–R720) -/

theorem jobsRun_of_job {s : State} {j : Nat} {x : PktJob} (h : jobNow s j = some x) : jobsRun s j = true := by
  rw [jobsRun, h, Option.isSome_some, Bool.or_true]

theorem uSendSt_of_frames {j : Nat} {x : PktJob} {c ws : List Word} {s v u : State} {fs : List (List Byte)}
    (hjob : jobNow s j = some x) (hflow : jobFlow s x.words = some c) (hkind : bits (wWord x.words 0) 3 0 = 1)
    (hctx : fhCtx (2 * bits (wWord c 17) 7 0 + if duEnd s then 1 else 0) s = (v, some ws)) {launch : Word}
    (hlaunch : launch = wWord x.words 6 + w32 (symOffset (bits (wWord ws 1) 18 16) (bits (wWord x.words 7) 17 12 * 14 + x.next) -
      symOffset (bits (wWord ws 1) 18 16) (bits (wWord x.words 7) 17 12 * 14 + bits (wWord x.words 4) 19 16)))
    (hdue : wWord x.words 6 = 0 ∨ -2000 ≤ sinceTarget v launch) (hframes : symbolFrames x c ws x.next v = .ok fs u) :
    uSendSt j s = modJob (fs.foldl (fun s b =>
      jobSend x.id c (if wWord x.words 6 = 0 then none else some launch) false b s) u) x.id fun y =>
        { y with next := x.next + 1, built := decide (bits (wWord x.words 4) 23 20 ≤ x.next) } := by
  subst hlaunch
  unfold uSendSt
  simp only [hjob, Option.isNone_some, Bool.false_eq_true, if_false, hkind, hflow, hctx, ne_eq, not_true_eq_false, hframes]
  refine if_neg fun ⟨hset, hearly⟩ => ?_
  exact hdue.elim hset fun h => absurd hearly (by omega)

theorem oneFrame_of_built {j kind : Nat} {mk : PktJob → List Word → List Word → RdM (List Byte)} {x : PktJob} {c : List Word}
    {ws : Option (List Word)} {s v u : State} {b : List Byte} (hjob : jobNow s j = some x) (hflow : jobFlow s x.words = some c)
    (hkind : bits (wWord x.words 0) 3 0 = kind) (hctx : fhCtx (2 * bits (wWord c 17) 7 0 + if duEnd s then 1 else 0) s = (v, ws))
    (hmk : mk x c (ws.getD []) v = .ok b u) :
    oneFrame j kind mk s = modJob (jobSend x.id c (jobLaunch x) (decide (kind = 3 ∧ bit (wWord x.words 0) 28)) b u) x.id
      fun y => { y with built := true } := by
  unfold oneFrame
  simp only [hjob, Option.isNone_some, Bool.false_eq_true, if_false, hkind, hflow, hctx, ne_eq, not_true_eq_false, hmk]

/-- A job that all went well with is closed, with its token where it asks for one (R720). -/
theorem jobDoneSt_of_left {i : Nat} {x : PktJob} {s : State} (hjob : s.pkt.jobs[i]? = some x) (hbuilt : x.built = true)
    (hout : x.out = 0) (hstamp : x.stamp = none) (hcause : x.cause = none) :
    jobDoneSt i s =
      let s1 := closeDesc (modPkt s fun p => { p with jobs := dropAt p.jobs i }) 0x008 x.desc 0 0 (x.dropped % 65536)
      let w11 := wWord x.words 11
      let w12 := wWord x.words 12
      if bit w12 31 then sendTok s1 0x008 (bits w12 25 24)
        ⟨BitVec.ofNat 16 (bits w11 31 16), BitVec.ofNat 16 (bits w11 15 0), BitVec.ofNat 2 (bits w12 29 28), 0, 0, 0,
          BitVec.ofNat 64 x.desc⟩
      else s1 := by
  unfold jobDoneSt
  simp only [hjob, hbuilt, hout, hstamp, hcause, Option.getD_none, Nat.zero_mul, Nat.zero_add]
  rfl

/-- Settles O49: each clause from the lemma about its own command. -/
theorem packetEngineComplete : Obligations.PacketEngineComplete := by
  intro s
  refine ⟨?receive, fun a v u d hr hload => ?load, ?close, ?jobs, ?done, ?locks⟩
  case receive =>
    intro p b e hr hon hport hmode hmin hmax hpause s1
    have hpage : pageOn s 0x008 = true := (Bool.and_eq_true_iff.mp hr).1
    have hgood := frameReceiveSt_of_good hon hpage hport hmode hmin hmax hpause
    refine ⟨fun hpay => ?plain, fun pay hpay => ?ecpri⟩
    case plain =>
      have hstep : frameReceiveSt p b true s = flowStep p b e none s1 := hgood.trans (congrArg (frameStep p b e · s1) hpay)
      refine ⟨fun hnone => next_whileRuns hr (hstep.trans (flowStep_of_none hnone)), fun n c hsome => ⟨fun hmeter => ?_, ?_⟩⟩
      · exact next_whileRuns hr (hstep.trans (flowStep_of_unmetered hsome hmeter))
      · exact fun k u hmeter hcolour => next_whileRuns hr (hstep.trans (flowStep_of_metered hsome hmeter hcolour))
    case ecpri => exact next_whileRuns hr (hgood.trans (congrArg (frameStep p b e · s1) hpay))
  case load => exact fun hread hclass => next_onPage hr (flowLoadSt_of_read hload hread hclass)
  case close =>
    intro f n v ws hon hr hsite hctx hsym hdue hopen
    refine ⟨_, next_whileRuns hr (winCloseSt_of_due hon hsite hctx hsym hdue hopen), closed_windowClosed f n ws v, ?_⟩
    have hfab := windowClosed_fab f n ws v
    have hsent (u : State) (cls : Nat) (t : Token) : (sendTok u 0x008 cls t).fab.tokPkts =
        u.fab.tokPkts ++ [⟨pageLp 0x008, if cls = 0 then 1 else 2, u.fab.cur, [(t, cls)], none⟩] := rfl
    rw [hsent, hfab]
    rfl
  case jobs =>
    intro j x c hr hjob hflow
    have hrun := jobsRun_of_job hjob
    refine ⟨?uSend, ?cSend, ?frame⟩
    case uSend =>
      intro v ws fs u hkind hctx off launch hdue hframes
      exact next_whileRuns hr ((if_pos hrun).trans (uSendSt_of_frames hjob hflow hkind hctx rfl hdue hframes))
    case cSend =>
      intro v ws body u hkind hctx hplain hbody
      refine next_whileRuns hr ((if_pos hrun).trans (oneFrame_of_built hjob hflow hkind hctx ?_))
      simp only [bind, EStateM.bind, hbody, hplain]
      rfl
    case frame =>
      intro v ws body u hkind hctx hbody hmin hmax
      have hframe := oneFrame_of_built (j := j) (b := body) (u := u) (mk := fun x _ _ => do
        let body ← jobBody x
        if body.length < 60 ∨ 9596 < body.length then throw .badArg else return body) hjob hflow hkind hctx (by
          simp only [bind, EStateM.bind, hbody]
          rw [if_neg (by omega)]
          rfl)
      refine next_whileRuns hr ((if_pos hrun).trans (hframe.trans ?_))
      simp
  case done =>
    intro i x hjob hr hbuilt hout hstamp hcause
    have hdone := jobDoneSt_of_left hjob hbuilt hout hstamp hcause
    exact ⟨fun htok => next_whileRuns hr (hdone.trans (if_neg (by rw [htok]; decide))),
      fun htok => next_whileRuns hr (hdone.trans (if_pos htok))⟩
  case locks =>
    intro p hpage
    exact ⟨congrArg Host.Outcome.next (if_pos hpage), congrArg Host.Outcome.next (if_pos hpage)⟩

end Sys2Proof.Machine

/-! The host's rings and tokens, and the traffic manager (R724–R736). -/

namespace Sys2Proof.Machine

/-! ### The host (R725–R727) -/

/-- The token register at `base` with the words stored so far taken (R727). -/
def wordsTaken (base : Nat) (s : State) : State :=
  modPcie s fun p => { p with words := (List.range 4).foldl (fun m i => kset 0 m (base + i) 0) p.words }

/-- The token that a host register's words spell. -/
def wordsToken (base : Nat) (v : Word) (s : State) : Token :=
  tokenOfWords (kget 0 s.pcie.words base) (kget 0 s.pcie.words (base + 1)) (kget 0 s.pcie.words (base + 2)) v

theorem tokenInSt_eq (v : Word) (s : State) :
    tokenInSt v s = sendTok (wordsTaken 0 s) 0x007 (templateUrg (wordsTaken 0 s) (wordsToken 0 v s).template.toNat)
      { wordsToken 0 v s with flags := 0x10, rsvd := 0 } := rfl

/-- The fires of the HOST pool do not change where a token register's words are taken. -/
theorem fires_wordsTaken (base : Nat) (s : State) : (wordsTaken base s).pcie.fires = s.pcie.fires := rfl

/-- TOKEN_DONE of a fire of the HOST pool: the fire gives the class and is no longer waited for (R727). -/
theorem tokenDoneSt_of_fire {v : Word} {s : State} {f : FireRec} (hfire : s.pcie.fires.find? (fun f =>
      decide (f.template = (wordsToken 4 v s).template ∧ f.inst = (wordsToken 4 v s).inst)) = some f) :
    tokenDoneSt v s = sendTok (modPcie (wordsTaken 4 s) fun p => { p with fires := dropFirst (fun f =>
        decide (f.template = (wordsToken 4 v s).template ∧ f.inst = (wordsToken 4 v s).inst)) p.fires })
      0x007 f.urg.toNat { wordsToken 4 v s with flags := 0x90, rsvd := 0 } := by
  have hhost : hostToken 4 true v s = ({ wordsToken 4 v s with flags := 0x90, rsvd := 0 }, wordsTaken 4 s) := rfl
  unfold tokenDoneSt
  rw [hhost]
  dsimp only
  rw [fires_wordsTaken, hfire]

/-! ### The traffic manager (R728–R734) -/

/-- A frame that its meter and its queue let in is queued, and its port looks again (R732). -/
theorem tmEnqueueSt_of_admitted {f : TmFrame} {fs : List TmFrame} {k : Nat} {s w : State} (hinput : s.tm.input = f :: fs)
    (hon : enabled s 0x009 = true) (hqueue : bit (qReg s f.q 0) 31 = true)
    (hcolour : (if bit (qReg s f.q 0) 28 then
        meterColour (bits (qReg s f.q 0) 27 16) (frameLen f) (modTm s fun t => { t with input := fs })
      else (0, modTm s fun t => { t with input := fs })) = (k, w))
    (hroom : bufUsed w + frameCells f ≤ 2 ^ max 16 (min 25 (bits (getReg w 0x009 0x108) 4 0)) / 64)
    (hlimit : (k = 0 ∧ qDepth w f.q + frameCells f ≤ bits (qReg w f.q 4) 15 0) ∨
      (k = 1 ∧ qDepth w f.q + frameCells f ≤ bits (qReg w f.q 4) 31 16)) :
    let w1 := incCnt (setQueue w f.q (queueOf w f.q ++ [{ f with at_ := w.time.free }])) 0x009 0
    tmEnqueueSt s = portKick (queuePort w1 f.q) (haOffer (queuePort w1 f.q) w1) := by
  have hreg : qReg (modTm s fun t => { t with input := fs }) f.q 0 = qReg s f.q 0 := rfl
  have hred : k ≠ 2 := by omega
  have hfits : qDepth w f.q + frameCells f ≤ if k = 0 then bits (qReg w f.q 4) 15 0 else bits (qReg w f.q 4) 31 16 := by
    rcases hlimit with ⟨hk, hle⟩ | ⟨hk, hle⟩
    · rwa [if_pos hk]
    · rwa [if_neg (by omega)]
  unfold tmEnqueueSt
  simp only [hinput, hon, Bool.not_true, Bool.false_eq_true, if_false, hreg, hcolour, hred, hroom, hqueue, hfits, decide_true,
    Bool.and_self, if_true]

/-- A port that is free, with what it had on the wire gone and the late heads of its queues dropped (R729, R730). -/
def portReady (p : Nat) (s : State) : State :=
  let s1 := modTm s fun t => { t with
    idle := if t.idle.contains p then t.idle else t.idle ++ [p]
    ports := kset TmPort.init t.ports p { kget TmPort.init t.ports p with wire := [] } }
  (portQueues s1 p).foldl (fun s q => dropLate q (queueOf s q).length s) s1

/-- A free port sends the head of its first strict queue that is eligible (R730). -/
theorem portServe_of_strict {p q : Nat} {s : State} (hon : enabled s 0x009 = true) (hport : bit (getReg s 0x008 0x104) p = true)
    (hstrict : ((portQueues (portReady p s) p).find? fun q =>
      strictQ (portReady p s) q && (eligHead (portReady p s) q).isSome) = some q) :
    portServe p s = sendFrame p q (portReady p s) := by
  unfold portServe
  rw [if_neg (by rw [hon, hport]; decide)]
  dsimp only
  rw [← portReady.eq_1, hstrict]

theorem haSelectSt_of_round {v : Word} {p : Nat} {s : State}
    (hround : ((List.range 32).find? fun p => ((tmPort s p).round.map (·.1)) = some (bits v 31 16)) = some p) :
    haSelectSt v s = portKick p (setPort s p { tmPort s p with
      round := none, batch := some ((if portMode s = 0 then p else p / 4) * 512 + bits v 8 0, bits v 14 9) }) := by
  unfold haSelectSt
  rw [hround]

theorem haTimeoutSt_of_overdue {p r t : Nat} {s : State} (hround : (tmPort s p).round = some (r, t))
    (hlate : usSince s t (max 1 (bits (getReg s 0x009 0x118) 15 0)) = true) :
    haTimeoutSt p s = portKick p (setEvt (incCnt (setPort s p { tmPort s p with
      round := none, own := (portQueues s p).filter fun q => !strictQ s q, visit := 0 }) 0x009 5) 0x009 3) := by
  unfold haTimeoutSt
  simp only [hround, hlate, if_true]

/-- Settles O50: each clause from the lemma about its own command. -/
theorem hostAndTrafficComplete : Obligations.HostAndTrafficComplete := by
  intro s
  refine ⟨?tail, ?hostFire, ?tokens, ?enqueue, ?free, ?eligible, ?select, ?timeout, ?sample, ?meter⟩
  case tail =>
    intro a n v hr s1
    exact ⟨fun hon => next_onPage hr (if_pos hon), fun hoff => next_onPage hr (if_neg (by rw [hoff]; decide))⟩
  case hostFire =>
    intro f hun ha hclock hon
    exact congrArg Host.Outcome.next (fireRow_of_enabled f s 0x007 0x04 hostFireSt ha hclock hun hon)
  case tokens =>
    intro a v hr
    exact ⟨next_onPage hr (tokenInSt_eq v s), fun f hfire => next_onPage hr (tokenDoneSt_of_fire hfire)⟩
  case enqueue =>
    intro f fs k w hr hinput hon hqueue u1 hcolour hroom hlimit
    exact next_whileRuns hr (tmEnqueueSt_of_admitted hinput hon hqueue hcolour hroom hlimit)
  case free =>
    intro p q hr hon hport s1 s2 hstrict enq
    have hserve := portServe_of_strict hon hport hstrict
    refine next_whileRuns hr ?_
    cases enq
    · exact hserve
    · exact congrArg tmEnqueueSt hserve
  case eligible =>
    intro q hr s1 helig
    exact next_whileRuns hr (if_pos helig)
  case select => exact fun a v p hr hround => next_onPage hr (haSelectSt_of_round hround)
  case timeout => exact fun p r t hround hr hlate => next_whileRuns hr (haTimeoutSt_of_overdue hround hlate)
  case sample => exact fun hr hdue => next_whileRuns hr (if_neg (Nat.not_lt.mpr hdue))
  case meter =>
    intro a q r v hr
    have hoff : (8 + 4 * r.val = 0x10) = (r.val = 2) := propext (by omega)
    refine next_onPage hr ?_
    unfold meterWriteSt
    simp only [hoff]

end Sys2Proof.Machine

/-! The control of the fabric and of the maintenance ring (R574–R594). -/

namespace Sys2Proof.Machine

/-! ### Links (R580–R584) -/

/-- A link that is declared down by an end is not in service there, and its bundle's maps stand. -/
def linkLost (s : State) (r b k : Nat) : State :=
  ownErr (incCnt (setEvt (modFab s fun f => { f with
    downLinks := f.downLinks ++ [(r, b, k)], upLinks := f.upLinks.filter fun x => !decide (x = (r, b, k)) }) (rtrPage r) 0)
      (rtrPage r) 11) (rtrPage r) 4 0x03 none

theorem linkLost_fab (s : State) (r b k : Nat) : (linkLost s r b k).fab =
    { s.fab with downLinks := s.fab.downLinks ++ [(r, b, k)], upLinks := s.fab.upLinks.filter fun x => !decide (x = (r, b, k)) } := by
  rw [linkLost, ownErr_fab, incCnt_fab, setEvt_fab]
  rfl

theorem linkLost_time (s : State) (r b k : Nat) : (linkLost s r b k).time = s.time := by
  rw [linkLost, ownErr_time, incCnt_time, setEvt_time]
  rfl

/-- The loss of a link leaves the registers of the routers' blocks. -/
theorem getReg_linkLost {p off : Nat} (hlo : 0x100 ≤ off) (hhi : off < 4096) (s : State) (r b k : Nat) :
    getReg (linkLost s r b k) p off = getReg s p off := by
  have hcnt (u : State) (q i : Nat) : getReg (incCnt u q i) p off = getReg u p off := rfl
  have hmod (u : State) (g : FabSt → FabSt) : getReg (modFab u g) p off = getReg u p off := rfl
  rw [linkLost, ownErr, getReg_captureErr_block hlo hhi, hcnt, getReg_setEvt_block hlo hhi, hmod]

theorem deadLogical_linkLost {b : Nat} (hb : b < 6) (k : Nat) (s : State) (r j : Nat) :
    deadLogical (linkLost s r b j) b k = deadLogical s b k := by
  have hmap (e l : Nat) (he : e ≤ 1) : linkMap (linkLost s r b j) e b b l = linkMap s e b b l := by
    unfold linkMap
    rw [if_neg (show b ≠ 6 by omega)]
    exact congrArg (fun w => bits w (3 * l + 2) (3 * l)) (getReg_linkLost (by omega) (by omega) s r b j)
  unfold deadLogical
  exact List.filter_congr fun l _ => by rw [hmap 0 l (by decide), hmap 1 l (by decide)]

/-- R580: an end of a link that carries traffic is declared down; where it is the first end, the repair falls due two frames later. -/
theorem linkDownSt_of_first {b : Fin 6} {atRoot : Bool} {k : Fin 5} {s : State} {r : Nat} (hr : (if atRoot then 6 else b.val) = r)
    (hdown : s.fab.downLinks.contains (r, b.val, k.val) = false) (hen : bit (linkCfg s r b) k = true)
    (hcarries : deadLogical s b k ≠ []) (hfirst : s.fab.downLinks.contains (if atRoot then b.val else 6, b.val, k.val) = false) :
    ∃ spare, linkDownSt (.bundle b atRoot k) s =
      modFab (linkLost s r b k) fun f => { f with fixes := f.fixes ++ [⟨b, k, fabFrame (linkLost s r b k) + 2, spare⟩] } := by
  have hdead : (deadLogical (linkLost s r b k) b k).isEmpty = false := by
    rw [deadLogical_linkLost b.isLt]
    exact List.isEmpty_eq_false_iff.mpr hcarries
  refine ⟨bit (linkCfg (linkLost s r b k) r b) 9 && bit (linkCfg (linkLost s r b k) r b) 8 && spareUnused (linkLost s r b k) b, ?_⟩
  unfold linkDownSt
  dsimp only
  rw [hr, hdown, hen, hfirst, if_neg (by decide), ← linkLost.eq_1, hdead]
  rfl

theorem linkUpFabSt_of_down {b : Fin 6} {atRoot : Bool} {k : Fin 5} {s : State} {r : Nat} (hr : (if atRoot then 6 else b.val) = r)
    (hdown : s.fab.downLinks.contains (r, b.val, k.val) = false) (hen : bit (linkCfg s r b) k = true) (hon : rtrOn s r = true)
    (hup : s.fab.upLinks.contains (r, b.val, k.val) = false) :
    linkUpFabSt (.bundle b atRoot k) s = modFab s fun f => { f with upLinks := f.upLinks ++ [(r, b.val, k.val)] } := by
  have hend : linkEndOk s r b k = true := by
    rw [linkEndOk, hen, hdown]
    rfl
  unfold linkUpFabSt
  dsimp only
  rw [hr, hon, hend, hup, if_neg (by decide)]

/-! ### Tables (R575, R576) -/

/-- The registers that a write of the tables leaves: TBL_SEL has moved on. -/
def selMoved (s : State) (r : Nat) : State :=
  setReg s (rtrPage r) 0x11C (putBits (getReg s (rtrPage r) 0x11C) 7 0 (bits (getReg s (rtrPage r) 0x11C) 7 0 + 1))

/-- A route table entry is written. -/
def routeWritten (s : State) (e r i : Nat) (v : Word) : State :=
  modFab (setMark (selMoved s r) (routeMark e r i) .clean) fun f =>
    { f with route := kset 0 f.route (routeKey e r i) ((v &&& 0xBF) ^^^ topoRoute r i) }

/-- A slot table entry is written. -/
def slotWritten (s : State) (e r out i : Nat) (v : Word) : State :=
  modFab (setMark (selMoved s r) (slotMark e r out i) .clean) fun f =>
    { f with slot := kset 0 f.slot (slotKey e r out i) (v &&& 0x13F) }

theorem routeOf_routeWritten {s : State} (hup : kup s.fab.route = true) (e r i : Nat) (v : Word) :
    routeOf (routeWritten s e r i v) e r i = v &&& 0xBF := by
  have hread : kget 0 (routeWritten s e r i v).fab.route (routeKey e r i) = (v &&& 0xBF) ^^^ topoRoute r i :=
    kget_kset_self _ _ _ _ hup
  rw [routeOf, hread, BitVec.xor_assoc, BitVec.xor_self, BitVec.xor_zero]

theorem slotOf_slotWritten {s : State} (hup : kup s.fab.slot = true) (e r out i : Nat) (v : Word) :
    slotOf (slotWritten s e r out i v) e r out i = v &&& 0x13F := kget_kset_self _ _ _ _ hup

theorem tblDataSt_of_route {a : Acc} {r : Nat} {v : Word} {s : State}
    (hopen : tblLocked s a r (bits (getReg s (rtrPage r) 0x11C) 31 31) = false) (htbl : bits (getReg s (rtrPage r) 0x11C) 29 28 = 0)
    (hi : bits (getReg s (rtrPage r) 0x11C) 7 0 < 48) :
    tblDataSt a r v s =
      routeWritten s (bits (getReg s (rtrPage r) 0x11C) 31 31) r (bits (getReg s (rtrPage r) 0x11C) 7 0) v := by
  unfold tblDataSt
  dsimp only
  rw [hopen, htbl, if_neg (by simp), if_pos ⟨rfl, hi⟩]
  rfl

theorem tblDataSt_of_slot {a : Acc} {r : Nat} {v : Word} {s : State}
    (hopen : tblLocked s a r (bits (getReg s (rtrPage r) 0x11C) 31 31) = false) (htbl : bits (getReg s (rtrPage r) 0x11C) 29 28 = 1)
    (hout : slotOut r (bits (getReg s (rtrPage r) 0x11C) 21 16) = true)
    (hok : slotsOk s (bits (getReg s (rtrPage r) 0x11C) 31 31) r (bits (getReg s (rtrPage r) 0x11C) 21 16)
      (bits (getReg s (rtrPage r) 0x11C) 7 0) v = true) :
    tblDataSt a r v s = slotWritten s (bits (getReg s (rtrPage r) 0x11C) 31 31) r (bits (getReg s (rtrPage r) 0x11C) 21 16)
      (bits (getReg s (rtrPage r) 0x11C) 7 0) v := by
  unfold tblDataSt
  dsimp only
  rw [hopen, htbl, hok, if_neg (by simp), if_neg (by simp), if_pos ⟨rfl, hout⟩]
  rfl

/-- The entries copied from part `c` of a table: where the part has the key its value is taken, and else what stood there stays. -/
theorem kget_foldl_copy {α : Type} [DecidableEq α] {d : α} {n c a i : Nat} (hi : i < n) {l : KMap α} {lo : Option Nat}
    (hl : kupFrom lo l = true) (hc : ∀ x ∈ l, x.1 / n = c) {m : KMap α} (hm : kup m = true) :
    kget d (l.foldl (fun m x => kset d m (a * n + x.1 % n) x.2) m) (a * n + i) = kget (kget d m (a * n + i)) l (c * n + i) := by
  induction l generalizing m lo with
  | nil => rfl
  | cons x l ih =>
    obtain ⟨k, v⟩ := x
    obtain ⟨-, hl⟩ := Bool.and_eq_true_iff.mp hl
    have hk : k / n = c := hc _ List.mem_cons_self
    refine (ih hl (fun y hy => hc y (List.mem_cons_of_mem _ hy)) (kup_kset _ _ _ _ hm)).trans ?_
    by_cases hkey : c * n + i = k
    · have hmod : k % n = i := by
        rw [← hkey, Nat.mul_comm, Nat.mul_add_mod, Nat.mod_eq_of_lt hi]
      rw [kget, if_pos hkey, hmod, kget_kset_self _ _ _ _ hm, hkey]
      exact kget_of_lt hl (Nat.le_refl k)
    · have hne : a * n + i ≠ a * n + k % n := fun h => hkey (by
        rw [← hk, Nat.add_left_cancel h, Nat.mul_comm, Nat.div_add_mod])
      rw [kget, if_neg hkey, kget_kset_ne _ _ _ _ _ _ hne]

/-- A part of a table reads as the part that it is copied from. -/
theorem kget_copyTable {α : Type} [DecidableEq α] {d : α} {n i : Nat} (hi : i < n) (c a : Nat) {m : KMap α} (hm : kup m = true) :
    kget d (copyTable d n c a m) (a * n + i) = kget d m (c * n + i) := by
  have hdiv (b : Nat) : (b * n + i) / n = b := by
    rw [Nat.mul_comm, Nat.mul_add_div (by omega), Nat.div_eq_of_lt hi, Nat.add_zero]
  unfold copyTable
  rw [kget_foldl_copy hi (kup_filter m _ hm) (fun x hx => of_decide_eq_true (List.mem_filter.mp hx).2) (kup_filter m _ hm),
    kget_filter_key d m (fun k => !decide (k / n = a)), hdiv, decide_eq_true rfl, if_neg (by decide),
    kget_filter_key d m (fun k => decide (k / n = c)), hdiv, decide_eq_true rfl, if_pos rfl]

theorem copyMarks_fab (n c a : Nat) (s : State) : (copyMarks n c a s).fab = s.fab := rfl

/-- LINK_MAP copied for each bundle leaves the fabric. -/
theorem foldl_setRegI_fab (p o o' : Nat) (l : List Nat) (s : State) :
    (l.foldl (fun s i => setRegI s p o i (getRegI s p o' i)) s).fab = s.fab := by
  induction l generalizing s with
  | nil => rfl
  | cons i l ih => exact (ih _).trans (setRegI_fab _ _ _ _ _)

theorem tblCopySt_route {a : Acc} {r : Nat} {v : Word} {s : State} (hv : bit v 0 = true)
    (hopen : tblLocked s a r (1 - s.fab.cur) = false) :
    (tblCopySt a r v s).fab.route = copyTable 0 64 (s.fab.cur * 7 + r) ((1 - s.fab.cur) * 7 + r) s.fab.route := by
  unfold tblCopySt
  dsimp only
  rw [hv, hopen, if_neg (by decide), if_neg Bool.false_ne_true]
  rw [foldl_setRegI_fab, copyMarks_fab, copyMarks_fab, copyMarks_fab, modFab]

theorem routeOf_tblCopySt {a : Acc} {r i : Nat} {v : Word} {s : State} (hv : bit v 0 = true)
    (hopen : tblLocked s a r (1 - s.fab.cur) = false) (hup : kup s.fab.route = true) (hi : i < 48) :
    routeOf (tblCopySt a r v s) (1 - s.fab.cur) r i = routeOf s s.fab.cur r i := by
  unfold routeOf routeKey
  rw [tblCopySt_route hv hopen, kget_copyTable (by omega) _ _ hup]

/-! ### Flips (R576–R578) -/

theorem flipCmdSt_of_free {v : Word} {s : State} (hv : bit v 31 = true) (hfree : s.fab.flip = none)
    (hempty : ∀ r < 7, bit v r = true → inRouter s (1 - s.fab.cur) r = 0) :
    flipCmdSt v s = modFab (modReg s 0x006 0x10C fun w => putBits w 31 29 0) fun f =>
      { f with flip := some ⟨BitVec.ofNat 7 v.toNat, fabFrame s + 2, false⟩ } := by
  have hidle : ((List.range 7).any fun r => bit v r && decide (inRouter s (1 - s.fab.cur) r ≠ 0)) = false := by
    refine List.any_eq_false.mpr fun r hr hbusy => ?_
    obtain ⟨hbit, hin⟩ := Bool.and_eq_true_iff.mp hbusy
    exact of_decide_eq_true hin (hempty r (List.mem_range.mp hr) hbit)
  have hframe (g : Word → Word) : fabFrame (modReg s 0x006 0x10C g) = fabFrame s := rfl
  unfold flipCmdSt
  dsimp only
  rw [hv, hfree, hidle, if_neg (by decide), Option.isSome_none, Bool.or_self, if_neg Bool.false_ne_true, if_neg Bool.false_ne_true,
    hframe]

theorem epochFlipSt_of_due {f : Flip} {s : State} (hflip : s.fab.flip = some f) (hnot : f.fallen = false)
    (hdue : f.frame ≤ fabFrame s) (hpll : pllOn s 17 = true) :
    epochFlipSt s = incCnt (setEvt (modReg (modFab s fun x => { x with cur := 1 - x.cur, flip := some { f with fallen := true } })
      0x006 0x10C fun w => putBit (putBit w 31 true) 16 (decide (1 - s.fab.cur = 1))) 0x006 0) 0x006 3 := by
  have hcond : ¬(f.fallen = true ∨ fabFrame s < f.frame ∨ (!pllOn s 17) = true) := by
    rw [hnot, hpll, or_iff_right Bool.false_ne_true]
    exact fun h => h.elim (Nat.not_lt.mpr hdue) Bool.false_ne_true
  unfold epochFlipSt
  simp only [hflip]
  rw [if_neg hcond]
  rfl

theorem countHeld_time (s : State) : (countHeld s).time = s.time := by
  unfold countHeld
  exact List.foldlRecOn (motive := fun t : State => t.time = s.time) _ _ rfl fun t ht lp _ => (incCnt_time _ _ _).trans ht

theorem epochDrainedSt_of_empty {f : Flip} {s : State} (hflip : s.fab.flip = some f) (hfallen : f.fallen = true)
    (hempty : ∀ r < 7, f.routers.getLsbD r = true → inRouter s (1 - s.fab.cur) r = 0) :
    epochDrainedSt s = setEvt (modReg (modFab (countHeld s) fun x => { x with flip := none }) 0x006 0x10C fun w =>
      putBits (putBit w 30 true) 15 0 (min 0xFFFF (fabFrame s - f.frame))) 0x006 1 := by
  have hidle : ((List.range 7).any fun r => f.routers.getLsbD r && decide (inRouter s (1 - s.fab.cur) r ≠ 0)) = false := by
    refine List.any_eq_false.mpr fun r hr hbusy => ?_
    obtain ⟨hbit, hin⟩ := Bool.and_eq_true_iff.mp hbusy
    exact of_decide_eq_true hin (hempty r (List.mem_range.mp hr) hbit)
  have hframe (g : FabSt → FabSt) : fabFrame (modFab (countHeld s) g) = fabFrame s := by
    unfold fabFrame fabCycles
    rw [show (modFab (countHeld s) g).time = s.time from countHeld_time s]
  unfold epochDrainedSt
  simp only [hflip]
  rw [hfallen, hidle, Bool.not_true, Bool.or_self, if_neg Bool.false_ne_true, hframe]

/-! ### The maintenance ring (R585–R588) -/

/-- An access whose station is reached is performed (R585). -/
theorem ringAccessSt_of_reached {m : RingMaster} {t : RingTarget} {v : Option Word} {s : State}
    (hroom : (s.fab.ringReqs.filter fun x => x.master = m).length < 8) (hok : stationOk s (pageStation (ringPage t)) = true) :
    ringAccessSt m t v true s = incCnt (ringServe m t v s) 0x006 0 := by
  unfold ringAccessSt
  rw [if_neg (Nat.not_le.mpr hroom), hok, if_neg (by decide)]

theorem ringMemSt_of_write {m : RingMaster} {c w : Nat} {v : Word} {s : State} (hon : pdState s (c / 9) = .on) :
    ringMemSt m c w (some v) s =
      (writeArrayWord (coreKey c (4 * w)) ((leBytes 4 v.toNat).map some) (coreKey c (4 * w) / 8 * 8) s).1 := by
  unfold ringMemSt
  dsimp only
  rw [if_neg (not_not_intro hon)]

theorem ringMemSt_of_read {m : RingMaster} {c w : Nat} {s : State} (hon : pdState s (c / 9) = .on) :
    ringMemSt m c w none s = { (readArrays s (coreKey c (4 * w)) 4).1 with rdOut := some (readGives (RingMaster.init m)
      (if (readArrays s (coreKey c (4 * w)) 4).2 then .poison else .ok)
        (getBytes (readArrays s (coreKey c (4 * w)) 4).1 (coreKey c (4 * w)) 4)) } := by
  unfold ringMemSt
  dsimp only
  rw [if_neg (not_not_intro hon)]

/-- An access of the ring that has timed out, and its capture (R588). -/
def ringTimedOut (s : State) (x : RingReq) : State :=
  ownErr (setEvt (incCnt (modFab s fun f => { f with ringReqs := dropFirst (fun y => decide (y = x)) f.ringReqs }) 0x006 2) 0x006 4)
    0x006 4 0x02 (ringAddr x.target)

theorem ringTimeoutSt_of_due {m : RingMaster} {x : RingReq} {s : State} (hfind : (s.fab.ringReqs.find? fun x => x.master = m) = some x)
    (hm : m ≠ .bridge) (hdue : usSince s x.since (max 1 (bits (getReg s 0x006 0x104) 7 0)) = true) :
    ringTimeoutSt m s = if x.wr.isSome then ringTimedOut s x
      else { ringTimedOut s x with rdOut := some (readGives (RingMaster.init m) .timeout []) } := by
  unfold ringTimeoutSt
  rw [hfind]
  dsimp only
  rw [hdue, if_neg (by decide), if_neg hm]
  rfl

theorem lanternSt_of_due {r n : Nat} {s : State} (hen : bit (getReg s (rtrPage r) (0x200 + 0x20 * n)) 31 = true)
    (harm : bit (getReg s (rtrPage r) (0x200 + 0x20 * n)) 8 = true) (hnot : r * 8 + n ∉ s.fab.armed) (hpll : pllOn s 17 = true)
    (hdue : 0 ≤ sinceTarget s (getReg s (rtrPage r) (0x214 + 0x20 * n))) :
    lanternSt r n s = modFab s fun f => { f with armed := f.armed ++ [r * 8 + n] } := by
  have hout : (!s.fab.armed.contains (r * 8 + n)) = true := by simpa using hnot
  unfold lanternSt
  exact if_pos ⟨hpll, hen, harm, hout, hdue⟩

/-- Settles O44: each clause from the lemma about its own command. -/
theorem fabricControlComplete : Obligations.FabricControlComplete := by
  intro s
  refine ⟨?leaf, ?bundle, ?repair, ?tables, ?flipCmd, ?flip, ?probe, ?access, ?timeout, ?segment⟩
  case leaf =>
    intro lp hup p
    exact congrArg Host.Outcome.next (if_neg (by rw [hup]; decide))
  case bundle =>
    intro b atRoot k r hdown hen
    refine ⟨fun hcarries hfirst => ?down, fun hon hup => congrArg Host.Outcome.next (linkUpFabSt_of_down rfl hdown hen hon hup)⟩
    obtain ⟨spare, hlost⟩ := linkDownSt_of_first (r := r) rfl hdown hen hcarries hfirst
    refine ⟨_, spare, congrArg Host.Outcome.next hlost, ?_, ?_⟩
    · have hlist : (modFab (linkLost s r b k) fun f => { f with
          fixes := f.fixes ++ [⟨b, k, fabFrame (linkLost s r b k) + 2, spare⟩] }).fab.downLinks =
            s.fab.downLinks ++ [(r, b.val, k.val)] := congrArg FabSt.downLinks (linkLost_fab s r b k)
      rw [linkEndOk, hlist]
      simp
    · have hframe : fabFrame (linkLost s r b k) = fabFrame s := by
        unfold fabFrame fabCycles
        rw [linkLost_time]
      have hfixes : (linkLost s r b k).fab.fixes = s.fab.fixes := by rw [linkLost_fab]
      rw [hframe]
      exact congrArg (· ++ _) hfixes
  case repair =>
    intro b f
    refine ⟨fun hdue => ?_, fun hdue => ?_⟩
    · exact congrArg Host.Outcome.next (by unfold spareRemapSt; rw [hdue])
    · exact congrArg Host.Outcome.next (by unfold linkRerouteSt; rw [hdue])
  case tables =>
    intro a r v hr sel i e s1
    refine ⟨fun hopen htbl hi => ?_, fun hopen htbl hout hok => ?_, fun hv hcur hroute hslot hopen => ?_⟩
    · exact ⟨_, next_onPage hr (tblDataSt_of_route hopen htbl hi), fun hup => routeOf_routeWritten hup _ _ _ _, rfl⟩
    · exact ⟨_, next_onPage hr (tblDataSt_of_slot hopen htbl hout hok), rfl, fun hup => slotOf_slotWritten hup _ _ _ _ _⟩
    · exact ⟨_, next_onPage hr rfl, fun i hi => routeOf_tblCopySt hv hopen hroute hi⟩
  case flipCmd => exact fun a v hr hv hfree hempty => next_onPage hr (flipCmdSt_of_free hv hfree hempty)
  case flip =>
    intro f hflip
    refine ⟨fun hnot hdue hpll => ?_, fun hfallen hempty => ?_⟩
    · exact congrArg Host.Outcome.next (epochFlipSt_of_due hflip hnot hdue hpll)
    · exact congrArg Host.Outcome.next (epochDrainedSt_of_empty hflip hfallen hempty)
  case probe =>
    intro a r n v p
    refine ⟨fun hr => ⟨fun hen => next_onPage hr (if_pos hen), fun hoff => next_onPage hr (if_neg (by rw [hoff]; decide))⟩, ?_⟩
    exact fun hen harm hnot hpll hdue => congrArg Host.Outcome.next (lanternSt_of_due hen harm hnot hpll hdue)
  case access =>
    intro m hroom
    constructor
    · intro p r hok a v
      exact ⟨congrArg Host.Outcome.next (ringAccessSt_of_reached (t := .page p r) (v := some v) hroom hok),
        congrArg Host.Outcome.next (ringAccessSt_of_reached (t := .page p r) (v := none) hroom hok)⟩
    · intro c w hok hon k v
      have hwrite := ringAccessSt_of_reached (t := .core c w) (v := some v) hroom hok
      have hread := ringAccessSt_of_reached (t := .core c w) (v := none) hroom hok
      exact ⟨congrArg Host.Outcome.next (hwrite.trans (congrArg (incCnt · 0x006 0) (ringMemSt_of_write hon))),
        _, congrArg Host.Outcome.next (hread.trans (congrArg (incCnt · 0x006 0) (ringMemSt_of_read hon))), rfl⟩
  case timeout =>
    intro m x hfind hm hdue s1 s2
    have hend := ringTimeoutSt_of_due hfind hm hdue
    refine ⟨fun hread => ?_, fun hwrite => ?_⟩
    · exact congrArg Host.Outcome.next (hend.trans (if_neg (by rw [hread]; decide)))
    · exact congrArg Host.Outcome.next (hend.trans (if_pos (Option.isSome_iff_ne_none.mpr hwrite)))
  case segment =>
    intro st hwhole s1 n
    exact congrArg Host.Outcome.next (if_neg (by rw [hwhole]; decide))

end Sys2Proof.Machine

/-! The transactions of the fabric (R554–R582, R615). -/

namespace Sys2Proof.Machine

/-! ### A packet that can travel all the way (R561, R564) -/

/-- The hop that a packet has come to. -/
def hopAt (q : Option QPos) : Nat := match q with | some p => p.hop | none => 0

/-- The hops that a packet has left. -/
def hopsLeft (q : Option QPos) (src dst : Nat) : List Hop := (hopsOf src dst).drop (hopAt q)

theorem flyOn_of_open {src dst tc e : Nat} {hdr : BitVec 128} {q : Option QPos} {s : State}
    (hrun : hopRun s e src dst tc (hopsLeft q src dst) = (hopsLeft q src dst).length)
    (hpath : pathCheck s e dst (hopsLeft q src dst) = (s, false)) :
    flyOn src dst tc hdr .good e q s = (crossHops (hopsLeft q src dst) tc hdr s, .there) := by
  have hend (l : List Hop) : l[l.length]? = none := List.getElem?_eq_none (Nat.le_refl _)
  unfold flyOn
  unfold hopsLeft hopAt at *
  cases q <;>
  · dsimp only at hrun hpath ⊢
    rw [hrun, List.take_length, hpath]
    dsimp only
    rw [hend, if_neg Bool.false_ne_true]
    rfl

theorem fly_of_open {src dst tc e : Nat} {hdr : BitVec 128} {q : Option QPos} {s : State}
    (hgo : canGo s e q src dst tc = true) (hnot : q.all (fun p => decide (p.r ≠ 7)) = true)
    (hpath : pathCheck s e dst (hopsLeft q src dst) = (s, false)) :
    fly src dst tc hdr .good e q s = (crossHops (hopsLeft q src dst) tc hdr s, .there) := by
  cases q with
  | none =>
    obtain ⟨henters, hrun⟩ := Bool.and_eq_true_iff.mp hgo
    have henters : enters s src dst tc = true := henters
    unfold fly
    dsimp only
    rw [henters, if_neg (by decide), if_neg (by decide)]
    exact flyOn_of_open (of_decide_eq_true hrun) hpath
  | some p =>
    obtain ⟨hfirst, hrun⟩ := Bool.and_eq_true_iff.mp hgo
    have hfirst : firstOf s p = true := hfirst
    unfold fly
    dsimp only
    rw [hfirst, if_neg (of_decide_eq_true hnot), if_neg (by decide)]
    exact flyOn_of_open (of_decide_eq_true hrun) hpath

theorem fly_of_arrived {src dst tc e : Nat} {hdr : BitVec 128} {q : Option QPos} {s : State}
    (hthere : q.any (fun p => decide (p.r = 7)) = true) : fly src dst tc hdr .good e q s = (s, .there) := by
  cases q with
  | none => exact absurd hthere Bool.false_ne_true
  | some p => exact if_pos (of_decide_eq_true hthere)

theorem fly_of_ready {src dst tc e : Nat} {hdr : BitVec 128} {q : Option QPos} {s : State} {hs : List Hop}
    (hhs : (if q.any (fun p => decide (p.r = 7)) then [] else hopsLeft q src dst) = hs)
    (hready : q.any (fun p => decide (p.r = 7)) = true ∨ canGo s e q src dst tc = true) (hpath : pathCheck s e dst hs = (s, false)) :
    fly src dst tc hdr .good e q s = (crossHops hs tc hdr s, .there) := by
  subst hhs
  by_cases hthere : q.any (fun p => decide (p.r = 7)) = true
  · rw [if_pos hthere, fly_of_arrived hthere]
    rfl
  · rw [if_neg hthere] at hpath ⊢
    refine fly_of_open (hready.resolve_left hthere) ?_ hpath
    cases q with
    | none => rfl
    | some p => exact decide_eq_true fun h => hthere (decide_eq_true h)

theorem mayEnter_of_ready {q : Req} {dst e : Nat} {s : State} (hdst : addrLp s q.addr = some dst)
    (hready : q.at_.any (fun p => decide (p.r = 7)) = true ∨ canGo s e q.at_ q.srcLp dst 4 = true) : mayEnter s q = true := by
  unfold mayEnter
  cases hat : q.at_ with
  | some p => rfl
  | none =>
    rw [hat] at hready
    obtain ⟨henters, -⟩ := Bool.and_eq_true_iff.mp (hready.resolve_left Bool.false_ne_true)
    rw [hdst]
    exact henters

/-! ### Requests (R554–R558, R572, R615) -/

theorem carry_of_waiting {q : Req} {s : State} (hfind : findReq s q.id = some q) (hanswer : q.answer = none) (hlost : q.lost = false)
    (hsent : dmaUnsent s q = false) (hon : rtrOn s (q.srcLp / 8) = true) (henter : mayEnter s q = true) (flit : Flit) :
    carry q.id none flit q.isWrite s = travel q flit s := by
  unfold carry
  simp only [hfind, hanswer, hlost, hon, henter, inject, hsent, ne_eq, not_true_eq_false, Option.isSome_none, Bool.false_eq_true,
    Bool.not_true, or_self, if_false]

/-- A request that has reached its target's port. -/
def reached (q : Req) (dst e : Nat) (hs : List Hop) (s : State) : State :=
  modReq (crossHops hs 4 (reqHdr s { q with dstLp := dst }) s) q.id fun r =>
    { r with dstLp := dst, epoch := e, at_ := some ⟨7, 0, 4, 0, 0⟩ }

/-- A request whose path is open reaches its target, which answers it. -/
theorem travel_of_ready {q : Req} {dst : Nat} {s : State} {hs : List Hop} (hdst : addrLp s q.addr = some dst)
    (hclock : fabricClock s = true) (horder : pageOrderHeld s { q with dstLp := dst } = false)
    (hhs : (if q.at_.any (fun p => decide (p.r = 7)) then [] else hopsLeft q.at_ q.srcLp dst) = hs)
    (hready : q.at_.any (fun p => decide (p.r = 7)) = true ∨ canGo s (stamped s q) q.at_ q.srcLp dst 4 = true)
    (hpath : pathCheck s (stamped s q) dst hs = (s, false)) {r : Resp × List Byte} {v : State}
    (hserve : (if q.isWrite then serveWr { q with dstLp := dst } false (reached q dst (stamped s q) hs s)
      else serveRd { q with dstLp := dst } (reached q dst (stamped s q) hs s)) = (some r, v)) :
    travel q .good s = respond v q.id r := by
  have hstamped : stamped s { q with dstLp := dst } = stamped s q := rfl
  have hclean : poisoned .good = false := rfl
  unfold travel
  simp only [hdst, hclock, horder, Bool.not_true, Bool.or_self, Bool.false_eq_true, if_false, hstamped,
    fly_of_ready hhs hready hpath, hclean]
  rw [← reached.eq_1, hserve]

/-- A request that an outside initiator makes. -/
def requested (a : Acc) (d : Nat) (wr : Bool) (n : Nat) (ds : List Byte) (en : BitVec 64) (s : State) : State :=
  modFab s fun f => { f with
    reqs := f.reqs ++ [⟨f.nextId, a.who, a.viaRing, initLp s a.who, (addrLp s d).getD 44, f.cur, wr, d, n, ds, en, s.time.free,
      none, false, 0, 0, false, none⟩],
    nextId := f.nextId + 1 }

theorem freshReq_of_bar {a : Acc} {wr : Bool} {addr d n : Nat} {ds : List Byte} {en : BitVec 64} {s : State}
    (hnew : findReq s s.fab.nextId = none) (hon : rtrOn s (initLp s a.who / 8) = true) (hbar : barAddr s a wr addr = some d) :
    freshReq a wr addr n ds en s = some (s.fab.nextId, requested a d wr n ds en s) := by
  have hold (g : Req → Req) : (s.fab.reqs.map fun q => if q.id = s.fab.nextId then g q else q) = s.fab.reqs := by
    refine (List.map_congr_left fun q hq => if_neg fun hid => ?_).trans (List.map_id _)
    exact List.find?_eq_none.mp hnew q hq (decide_eq_true hid)
  unfold freshReq
  rw [hon, if_neg (by decide), hbar]
  unfold issueReq modReq modFab
  dsimp only
  rw [List.map_append, hold, List.map_singleton, if_pos rfl]
  rfl

section

variable {a : Acc} {addr : Addr} {s : State} (hplace : msixPlace a addr.toNat = none) (hnew : findReq s s.fab.nextId = none)
  (hon : rtrOn s (initLp s a.who / 8) = true)
include hplace hnew hon

/-- A fresh read is the read of the request that it makes. -/
theorem rdSt_of_bar {len d : Nat} (hmin : 1 ≤ len) (hmax : len ≤ 256) (hbar : barAddr s a false addr.toNat = some d) :
    rdSt (.fresh a addr len) none .good s = rdSt (.queued s.fab.nextId) none .good (requested a d false len [] 0 s) := by
  have hlen : ¬(len = 0 ∨ 256 < len) := by omega
  unfold rdSt applyUpset
  simp only [hlen, if_false, hplace, freshReq_of_bar hnew hon hbar]

/-- A fresh write is the write of the request that it makes. -/
theorem wrSt_of_bar {data : List Byte} {d : Nat} (be : BitVec 64) (hdata : data ≠ []) (hmax : data.length ≤ 64)
    (hbar : barAddr s a true addr.toNat = some d) :
    wrSt (.fresh a addr data be) none .good s = wrSt (.queued s.fab.nextId) none .good (requested a d true data.length data be s) := by
  have hlen : ¬(data = [] ∨ 64 < data.length) := fun h => h.elim hdata (Nat.not_lt.mpr hmax)
  unfold wrSt applyUpset
  simp only [hlen, if_false, hplace, freshReq_of_bar hnew hon hbar]

end

theorem rdSt_of_msix {a : Acc} {addr : Addr} {len o : Nat} {s : State} (hmin : 1 ≤ len) (hmax : len ≤ 256)
    (hplace : msixPlace a addr.toNat = some o) : rdSt (.fresh a addr len) none .good s =
      { s with rdOut := some (readGives a.who .ok ((List.range len).map fun i => msixByte s (o + i))) } := by
  have hlen : ¬(len = 0 ∨ 256 < len) := by omega
  unfold rdSt applyUpset
  simp only [hlen, if_false, hplace]

theorem wrSt_of_msix {a : Acc} {addr : Addr} {data : List Byte} {o : Nat} {s : State} (be : BitVec 64) (hdata : data ≠ [])
    (hmax : data.length ≤ 64) (hplace : msixPlace a addr.toNat = some o) :
    wrSt (.fresh a addr data be) none .good s = msixWrite o (data.zipIdx.filter fun x => be.getLsbD x.2) s := by
  have hlen : ¬(data = [] ∨ 64 < data.length) := fun h => h.elim hdata (Nat.not_lt.mpr hmax)
  unfold wrSt applyUpset
  simp only [hlen, if_false, hplace]

/-! ### Responses (R566, R567) -/

theorem responseSt_of_open {q : Req} {r : Resp} {d : List Byte} {s : State} (hfind : findReq s q.id = some q)
    (hanswer : q.answer = some (r, d)) (hlive : q.dead = false) (hmapped : (addrLp s q.addr).isSome) (hclock : fabricClock s = true)
    (hnot : q.at_.all (fun p => decide (p.r ≠ 7)) = true) (hgo : canGo s (stamped s q) q.at_ q.dstLp q.srcLp 3 = true)
    (hpath : pathCheck s (stamped s q) q.srcLp (hopsLeft q.at_ q.dstLp q.srcLp) = (s, false)) :
    responseSt q.id q.isWrite .good s = reqDone q r d (isCount q (dropReq (crossBack q r
      (crossHops (hopsLeft q.at_ q.dstLp q.srcLp) 3 (rspHdr s q r 0) s)) q.id)) := by
  have hmap : (addrLp s q.addr).isNone = false := by
    rw [← Option.not_isSome, hmapped]
    rfl
  have hclean : poisoned .good = false := rfl
  unfold responseSt
  simp only [hfind, hanswer, ne_eq, not_true_eq_false, if_false, hmap, Bool.false_eq_true, hclock, Bool.not_true,
    fly_of_open hgo hnot hpath, hclean, giveAnswer, hlive]

theorem requestTimeoutSt_of_due {q : Req} {s : State} (hfind : findReq s q.id = some q) (hlive : q.dead = false)
    (hsent : dmaUnsent s q = false) (hdue : usSince s q.since (lpTimeout s q.srcLp) = true) :
    requestTimeoutSt q.id s =
      let p := rtrPage (q.srcLp / 8)
      let s1 := ownErr (setEvt (incCnt s p 7) p 2) p 4 0x04 (some q.addr)
      reqDone q .timeout [] (if q.lost then dropReq s1 q.id else modReq s1 q.id fun x => { x with dead := true }) := by
  unfold requestTimeoutSt
  simp only [hfind, hlive, hsent, hdue, Bool.false_eq_true, Bool.not_true, or_self, if_false]

/-! ### Tokens and fire records (R561) -/

theorem tokenPacketSt_of_open {lp cls tc : Nat} {t : TokPkt} {rest : List TokPkt} {s : State} (htc : (if cls = 0 then 1 else 2) = tc)
    (hpll : pllOn s 17 = true) (hnext : nextTokens s lp tc = some (t, rest)) (hgo : canGo s t.epoch t.at_ lp 43 tc = true)
    (hnot : t.at_.all (fun p => decide (p.r ≠ 7)) = true) (hpath : pathCheck s t.epoch 43 (hopsLeft t.at_ lp 43) = (s, false)) :
    tokenPacketSt lp cls .good s =
      let v := setTokPkts (crossHops (hopsLeft t.at_ lp 43) tc (packetHdr t.epoch lp 43 tc 5 0 0 t.toks.length 0 0) s) rest
      { v with disp := { v.disp with ingress := v.disp.ingress ++ t.toks } } := by
  have hclean : poisoned .good = false := rfl
  unfold tokenPacketSt
  simp only [htc, hpll, hnext, Bool.not_true, Bool.false_eq_true, if_false, fly_of_open hgo hnot hpath, hclean]

/-- A fire record that has left its queue and crossed its hops. -/
def fireLanded (lp tc e : Nat) (cls0 : Bool) (hs : List Hop) (s : State) : State :=
  setFirePkts (crossHops hs tc (packetHdr e 43 lp tc 6 0 0 0 0 0) s)
    (dropFirst (fun u => decide (u.lp = lp ∧ u.cls0 = cls0)) s.fab.firePkts)

theorem fireLanded_arrived (lp tc e : Nat) (cls0 : Bool) (hs : List Hop) (s : State) :
    (fireLanded lp tc e cls0 hs s).arrived = s.arrived := (crossHops_to (Nat.or_self _) (.refl _ s)).arrived rfl

theorem firePacketSt_of_open {lp tc e p : Nat} {cls0 : Bool} {t : FirePkt} {s : State} (htc : (if cls0 then 1 else 2) = tc)
    (he : (if t.at_.isSome then t.epoch else s.fab.cur) = e) (hpll : pllOn s 17 = true)
    (hfind : (s.fab.firePkts.find? fun t => t.lp = lp ∧ t.cls0 = cls0) = some t) (hgo : canGo s e t.at_ 43 lp tc = true)
    (hnot : t.at_.all (fun p => decide (p.r ≠ 7)) = true) (hpath : pathCheck s e lp (hopsLeft t.at_ 43 lp) = (s, false))
    (hmember : memberPage (fireLanded lp tc e cls0 (hopsLeft t.at_ 43 lp) s) t.rec_.pool.toNat t.rec_.member.toNat = some p)
    (hon : pageOn (fireLanded lp tc e cls0 (hopsLeft t.at_ 43 lp) s) p = true) :
    firePacketSt lp cls0 .good s = { fireLanded lp tc e cls0 (hopsLeft t.at_ 43 lp) s with arrived := s.arrived ++ [t.rec_] } := by
  have hclean : poisoned .good = false := rfl
  unfold firePacketSt
  simp only [htc, he, hpll, hfind, Bool.not_true, Bool.false_eq_true, if_false, fly_of_open hgo hnot hpath, hclean]
  rw [← fireLanded.eq_1, deliverFire, hmember]
  dsimp only
  rw [hon, if_pos rfl, fireLanded_arrived]

/-- A record of a command that its unit has is left to the unit. -/
theorem strayFire_of_known {f : FireRec} (hfec : f.pool = 2 → 1 ≤ fireKind f ∧ fireKind f ≤ 6)
    (hofdm : f.pool = 3 → 1 ≤ fireKind f ∧ fireKind f ≤ 7) (hdfe : f.pool = 4 → 1 ≤ f.opcode.toNat ∧ f.opcode.toNat ≤ 5)
    (hprism : f.pool = 5 → 1 ≤ f.opcode.toNat ∧ f.opcode.toNat ≤ 3) (s : State) : strayFire f s = s := by
  unfold strayFire
  dsimp only
  split
  case h_1 hpool => exact if_pos (hfec (BitVec.eq_of_toNat_eq hpool))
  case h_2 hpool => exact if_pos (hofdm (BitVec.eq_of_toNat_eq hpool))
  case h_3 hpool => exact if_pos (hdfe (BitVec.eq_of_toNat_eq hpool))
  case h_4 hpool => exact if_pos (hprism (BitVec.eq_of_toNat_eq hpool))
  case h_5 => rfl

theorem fireArriveSt_of_one {lp : Nat} {cls0 : Bool} {f : FireRec} {s t : State} (hpacket : firePacketSt lp cls0 .good s = t)
    (harrived : t.arrived = s.arrived ++ [f]) (hknown : strayFire f t = t) : fireArriveSt lp cls0 .good s = t := by
  unfold fireArriveSt
  simp only [hpacket, harrived, List.drop_left, hknown]

/-! ### Reserved slots (R561–R565, R571) -/

theorem streamSt_of_empty {r out slot input : Nat} {flit : Flit} {s : State} (hon : rtrOn s r = true) (hpll : pllOn s 17 = true)
    (hrsv : bit (slotOf s s.fab.cur r out slot) 8 = true) : streamSt r out slot input false flit s = incCnt s (rtrPage r) 2 := by
  unfold streamSt
  simp only [hon, hpll, Bool.not_true, Bool.or_self, Bool.false_eq_true, if_false, Bool.not_false, if_true, hrsv]

/-- A good flit in a slot meets the slot's table entry. -/
theorem streamSt_of_good {r out slot input : Nat} {s u : State} {gone : Bool} (hon : rtrOn s r = true) (hpll : pllOn s 17 = true)
    (hcheck : slotCheck s s.fab.cur r out slot = (u, gone)) (hgone : gone = true) :
    streamSt r out slot input true .good s = u := by
  have hwhole : ¬(Flit.good = .badHeader ∨ (Flit.good = .badPayload ∧
      (!(decide (r ≠ 6) && (decide (16 ≤ out) || decide (input < 8)))) = true)) := by
    rintro (h | ⟨h, -⟩) <;> cases h
  have hleaf : leafCheck r .good s = s := rfl
  subst hgone
  unfold streamSt
  dsimp only
  rw [hon, hpll, if_neg (by decide), if_neg (by decide), hleaf, ite_self, if_neg hwhole, hcheck]
  rfl

theorem slotCheck_of_ue {e r out slot : Nat} {s : State} (hmark : getMark s (slotMark e r out slot) = .ue) :
    slotCheck s e r out slot = (ownErr (incCnt s (rtrPage r) 5) (rtrPage r) 2 0x09 none, true) := by
  have hlost : tblCheck (slotMark e r out slot) (s, false) r = (ownErr (incCnt s (rtrPage r) 5) (rtrPage r) 2 0x09 none, true) := by
    unfold tblCheck
    simp only [hmark, Bool.false_eq_true, if_false]
  have hkeep (u : State) : mapCheck e r out (u, true) = (u, true) := by
    unfold mapCheck
    split
    · exact if_pos rfl
    · rfl
  rw [slotCheck, hlost, hkeep]

/-- The flit of a slot's own input leaves by an output whose link serves (R563). -/
theorem streamSt_of_own {r out slot input : Nat} {s : State} (hon : rtrOn s r = true) (hpll : pllOn s 17 = true)
    (hrsv : bit (slotOf s s.fab.cur r out slot) 8 = true) (hcheck : slotCheck s s.fab.cur r out slot = (s, false))
    (hinput : bits (slotOf s s.fab.cur r out slot) 5 0 = input)
    (hlink : (outLink r out).all (fun x => bundleOk s s.fab.cur x.1 x.2 && !s.fab.rerouted.contains x) = true) :
    streamSt r out slot input true .good s =
      crossRouter r input out 0 (packetHdr s.fab.cur 0 0 0 7 0 0 0 0 0) (incCnt s (rtrPage r) 1) := by
  have hwhole : ¬(Flit.good = .badHeader ∨ (Flit.good = .badPayload ∧
      (!(decide (r ≠ 6) && (decide (16 ≤ out) || decide (input < 8)))) = true)) := by
    rintro (h | ⟨h, -⟩) <;> cases h
  have hleaf : leafCheck r .good s = s := rfl
  have hdata : ¬(Flit.good = .badPayload) := fun h => by cases h
  unfold streamSt
  dsimp only
  rw [hon, hpll, if_neg (by decide), if_neg (by decide), hleaf, ite_self, if_neg hwhole, hcheck]
  dsimp only
  rw [if_neg Bool.false_ne_true, hrsv, hinput, decide_eq_true rfl, if_neg hdata]
  cases hout : outLink r out with
  | none => rfl
  | some x =>
    rw [hout] at hlink
    obtain ⟨hok, hhome⟩ := Bool.and_eq_true_iff.mp hlink
    have hhome : s.fab.rerouted.contains (x.1, x.2) = false := by simpa using hhome
    simp only [hok, hhome, Bool.not_true, Bool.false_and, Bool.false_eq_true, if_false, Bool.not_false, Bool.and_self, if_true]

/-- Settles O43: each clause from the lemma about its own command; a packet whose path is open flies to its port
(`fly_of_open`). -/
theorem fabricTransfersComplete : Obligations.FabricTransfersComplete := by
  intro s
  refine ⟨?request, ?fresh, ?response, ?timeout, ?tokens, ?fire, ?slot⟩
  case request =>
    intro q dst hfind hanswer hlost hsent hon hclock hdst q1 e arrived hs horder hready hpath w v r
    have henter := mayEnter_of_ready hdst hready
    have hcarry := carry_of_waiting hfind hanswer hlost hsent hon henter .good
    refine ⟨fun hrd hserve => ?_, fun hwr hserve => ?_⟩
    · have htravel := travel_of_ready (r := r) (v := v) (hs := hs) hdst hclock horder rfl hready hpath (by rw [hrd]; exact hserve)
      rw [hrd] at hcarry
      exact congrArg Host.Outcome.next (hcarry.trans htravel)
    · have htravel := travel_of_ready (r := r) (v := v) (hs := hs) hdst hclock horder rfl hready hpath (by rw [hwr]; exact hserve)
      rw [hwr] at hcarry
      exact congrArg Host.Outcome.next (hcarry.trans htravel)
  case fresh =>
    intro a addr len data be hnew put
    refine ⟨fun hmin hmax => ⟨fun o hplace => ?_, fun d hplace hon hbar => ?_⟩, fun hdata hmax => ⟨fun o hplace => ?_, ?_⟩⟩
    · exact congrArg Host.Outcome.next (rdSt_of_msix hmin hmax hplace)
    · exact congrArg Host.Outcome.next (rdSt_of_bar hplace hnew hon hmin hmax hbar)
    · exact congrArg Host.Outcome.next (wrSt_of_msix be hdata hmax hplace)
    · exact fun d hplace hon hbar => congrArg Host.Outcome.next (wrSt_of_bar hplace hnew hon be hdata hmax hbar)
  case response =>
    intro q r d hfind hanswer hlive hmapped hclock hnot e hs hgo hpath t
    have hend := responseSt_of_open hfind hanswer hlive hmapped hclock hnot hgo hpath
    refine ⟨fun hrd => ?_, fun hwr => ?_⟩
    · rw [hrd] at hend
      exact congrArg Host.Outcome.next hend
    · rw [hwr] at hend
      exact congrArg Host.Outcome.next hend
  case timeout =>
    intro q hfind hlive hsent hdue p s1
    exact congrArg Host.Outcome.next (requestTimeoutSt_of_due hfind hlive hsent hdue)
  case tokens =>
    intro lp cls t rest tc hpll hnext hgo hnot hs hpath v
    exact congrArg Host.Outcome.next (tokenPacketSt_of_open rfl hpll hnext hgo hnot hpath)
  case fire =>
    intro lp cls0 t p hfind f tc e hs hpll hgo hnot hpath hfec hofdm hdfe hprism v hmember hon
    have hpacket := firePacketSt_of_open rfl rfl hpll hfind hgo hnot hpath hmember hon
    have hknown := strayFire_of_known hfec hofdm hdfe hprism
    have hv : v.arrived = s.arrived := fireLanded_arrived lp tc e cls0 hs s
    rw [hv]
    exact congrArg Host.Outcome.next (fireArriveSt_of_one hpacket rfl (hknown _))
  case slot =>
    intro r out slot input hon hpll e w hrsv
    refine ⟨congrArg Host.Outcome.next (streamSt_of_empty hon hpll hrsv), fun hmark => ?_, fun hcheck hinput hlink => ?_⟩
    · exact congrArg Host.Outcome.next (streamSt_of_good hon hpll (slotCheck_of_ue hmark) rfl)
    · exact congrArg Host.Outcome.next (streamSt_of_own hon hpll hrsv hcheck hinput hlink)

end Sys2Proof.Machine
